-- ==== Sys2Proof/Word.lean ====
section
/-!
DEFINITION. The bit-vector types of the machine: a byte, a 32-bit register word, a 64-byte line and a 16-byte
message, and the shape of every sparse table of the state.
-/

namespace Sys2Proof

abbrev Byte := BitVec 8
/-- A register word (R526: 32-bit words in one 24-bit byte-addressed space). -/
abbrev Word := BitVec 32
/-- A line of 64 bytes; byte i is bits [8i+7:8i] (R2). -/
abbrev Line := BitVec 512
/-- A message of 16 bytes; byte i is bits [8i+7:8i] (R2, R54). -/
abbrev Msg := BitVec 128

/-- A sparse table: (key, value) pairs with strictly rising keys and no pair equal to what an unlisted key reads as.
Registers, memories, streams, pool entries and sub-channels are all held in this one form. -/
abbrev Tab (α : Type) := List (Nat × α)

/-- Byte `i` of a wide value. -/
abbrev byteOf {n : Nat} (x : BitVec n) (i : Nat) : Byte := x.extractLsb' (8 * i) 8

/-- Bits [hi:lo] of a wide value as a number. -/
abbrev bitsOf {n : Nat} (x : BitVec n) (hi lo : Nat) : Nat := (x.toNat >>> lo) % 2 ^ (hi + 1 - lo)

/-- One bit of a truth value. -/
abbrev bitOf (b : Bool) : Nat := if b then 1 else 0

end Sys2Proof
end

