-- ==== Sys2Proof/Syntax.lean ====
section
/-!
DEFINITION. The commands of the hub: one constructor of `Instr` per row of the opcode table, with the operands the row's
rule gives it. Where an event carries a finding of the hub's surroundings (a measurement, a reading of a device), the
finding is an operand.
-/

namespace Sys2Proof

/-- The five ports (R10): U0 to U3 toward controllers, T toward the twin. -/
inductive Port where
  | u0 | u1 | u2 | u3 | t
  deriving DecidableEq, Repr

/-- The port's number: 0 to 3 for U0 to U3, 4 for T (R566). -/
def Port.idx : Port → Nat
  | .u0 => 0 | .u1 => 1 | .u2 => 2 | .u3 => 3 | .t => 4

/-- T, as against the four U-ports. -/
def Port.isT : Port → Bool
  | .t => true
  | _ => false

/-- The U-port of a number. -/
def Port.ofU : Nat → Port
  | 0 => .u0 | 1 => .u1 | 2 => .u2 | _ => .u3

/-- The two 12 V feeds (R21). -/
inductive Feed where
  | a | b
  deriving DecidableEq, Repr

/-- What the end of a start section finds: the bands of step K3 (R376), and whether the core supply monitor reports good (R405). -/
structure SectionEnd where
  bands  : List (BitVec 6)
  supply : Bool
  deriving DecidableEq, Repr

/-- The operands of a host request message (R80). -/
structure HostReq where
  tag    : BitVec 12
  acc    : Bool
  stream : BitVec 16
  addr   : BitVec 42
  deriving DecidableEq, Repr

/-- The six host requests (R78). -/
inductive HostOp where
  | read | writeA | writeD | mwriteA | mwriteD | flush
  deriving DecidableEq, Repr

/-- A data slot (R52): the line, its seal and its descriptor. `ext` is descriptor bytes 4 to 11. -/
structure DataSlot where
  line   : Line
  lseal  : Word
  tag    : BitVec 12
  form   : BitVec 3
  poison : Bool
  stream : BitVec 16
  ext    : BitVec 64
  deriving DecidableEq, Repr

/-- What the entry code of the region table finds at a lookup (R149). -/
inductive EntryCheck where
  | ok | corrected | uncorrectable
  deriving DecidableEq, Repr

/-- A credited item that a sender sends (R108). -/
inductive CreditedItem where
  | request (op : HostOp) (r : HostReq)
  | slot (d : DataSlot)
  | mgt (mtag : BitVec 4)
  | repair (tag : BitVec 12) (addr : BitVec 42) (epoch : Word)
  deriving DecidableEq, Repr

/-- The operands of `NEG` (R110). -/
structure NegMsg where
  profile  : BitVec 4
  linkRevs : Byte
  mirRevs  : Byte
  features : Word
  domain   : BitVec 16
  node     : BitVec 18
  port     : BitVec 3
  deriving DecidableEq, Repr

/-- The operands of `NEG_ACK` (R111). -/
structure NegAckMsg where
  result   : Byte
  linkRev  : Byte
  mirRev   : Byte
  features : Word
  deriving DecidableEq, Repr

/-- The operands of `CREDIT` (R105). -/
structure CreditMsg where
  init : Bool
  req  : BitVec 16
  rd   : BitVec 16
  lq   : BitVec 16
  wd   : BitVec 16
  mg   : Byte
  ev   : Byte
  deriving DecidableEq, Repr

/-- The operands a `REBUILD_CTL` carries beside its `CMD` (R102). -/
structure RebuildMsg where
  mtag   : BitVec 4
  share  : Byte
  epoch  : Word
  cursor : BitVec 27
  sess   : Bool
  deriving DecidableEq, Repr

/-- The operands a `HANDOVER` carries beside its `STEP` (R101). -/
structure HandoverMsg where
  mtag   : BitVec 4
  epoch  : Word
  region : BitVec 18
  deriving DecidableEq, Repr

/-- Where a directive comes from and what it carries beside its argument (R90). -/
structure DirHead where
  port  : Port
  mtag  : BitVec 4
  epoch : Word
  deriving DecidableEq, Repr

/-- What a malformed sideband transaction is (R517). -/
inductive SbError where
  | unknownOp | wrongLength | noRequest | pec
  deriving DecidableEq, Repr

/-- The three paths to the register space (R518, R534): a management message on a U-port, the sideband, the core. -/
inductive AccPath where
  | mgt (p : Port) (mtag : BitVec 4)
  | sideband
  | core
  deriving DecidableEq, Repr

/-- What a package reports in its temperature refresh-rate field (R255). -/
inductive Mr4Report where
  | nominal | twice | above | failed
  deriving DecidableEq, Repr

/-- What a dwell at one position of a window finds (R300, R301): at a delay position `first` counts the beats on which the bit
changes value, at a Vref position `first` the ones and `second` the zeros; `differ` counts the beats on which the shadow disagrees
with the data sampler. -/
structure Dwell where
  first  : Nat
  second : Nat
  differ : Nat
  deriving DecidableEq, Repr

/-- What a run finds of one bit (R297, R300): the dwells of its four windows, each from its inner end outward, and the bad cells and
the offset of the sampler in the check role. -/
structure BitMeas where
  left   : List Dwell
  right  : List Dwell
  bottom : List Dwell
  top    : List Dwell
  bad    : List (BitVec 7)
  offset   : BitVec 8
  deriving DecidableEq, Repr

/-- What steps C2 of a run finds of a rank (R298 to R301): its 40 bits, its 10 receive enables, and the conductance of
each of the 12 segments of the 66 pins, in millionths of 1/240 S. -/
structure CalMeas where
  bits  : List BitMeas
  rcvEn : List (Option (BitVec 11))
  segs  : List (List Nat)
  deriving DecidableEq, Repr

/-- What a package answers of itself (R270): its width in bits, its density code and log2 of its stack height. -/
structure Device where
  width   : Nat
  density : BitVec 2
  stack   : BitVec 3
  deriving DecidableEq, Repr

/-- A sweep at one Vref code (R277): entry j is how many of the 64 bursts at delay code 16 + j returned a wrong pattern on the
bit. -/
structure SweepRow where
  vref  : BitVec 7
  fails : List (BitVec 7)
  deriving DecidableEq, Repr

/-- What the check of step T9 finds (R279): what the symbols of the line read back from each die and bank group picked up, the
first and last passing step of the run that each bit shows at its Vref on each check line, on the read and the write side, and whether
ALERT_N asserted within the replay window for the inverted write CRC and the retry buffer's replay completed that write. -/
structure ScratchCheck where
  lines   : List (List Byte)
  read    : List (List (BitVec 7 × BitVec 7))
  write   : List (List (BitVec 7 × BitVec 7))
  alerted : Bool
  replayed : Bool
  deriving DecidableEq, Repr

/-- What a training step finds (R275, R279, R285); `none` is a step that fails. Of `restoreCheck`, `points` are the failing bursts
of each bit at its stored values and at each offset of R285, and `dqs` what write leveling finds. -/
inductive TrainFind where
  | ck
  | settings
  | devices (packages : List (Option Device))
  | zq
  | caCs (found : Option (List (BitVec 8) × List (BitVec 8) × List (BitVec 8)))
  | level (dqs : Option (List (BitVec 11)))
  | readSweep (found : Option (List (BitVec 11) × List (BitVec 8) × List (List SweepRow)))
  | writeSweep (found : Option (List (List SweepRow)))
  | check (found : ScratchCheck)
  | restoreCheck (points : List (List (BitVec 7))) (dqs : List (BitVec 11)) (found : ScratchCheck)
  deriving DecidableEq, Repr

/-- The two PLLs (R372, R373). -/
inductive PllName where
  | mpll | cpll
  deriving DecidableEq, Repr

/-- The two reference inputs (R370, R371). -/
inductive RefInput where
  | refclk | bypclk
  deriving DecidableEq, Repr

/-- What the AON domain senses of one physical fuse word, against the normal and the tight reference (R462). -/
structure FuseSense where
  word   : Byte
  normal : Word
  tight  : Word
  deriving DecidableEq, Repr

/-- A supervised input (R400, R424): a rail by its VMON index, or a feed. -/
inductive MonInput where
  | rail (n : Fin 16)
  | feed (f : Feed)
  deriving DecidableEq, Repr

/-- What a gauge poll reads (R429, R430): the capacities, voltage, current and status, and whether `BatteryMode()` reports
mAh. -/
structure GaugeRead where
  remain  : BitVec 16
  full    : BitVec 16
  volt    : BitVec 16
  current : BitVec 16
  status  : BitVec 16
  mah     : Bool
  deriving DecidableEq, Repr

/-- What the discovery of the CFG flash finds (R468): a flash that fails a requirement, or one that meets them all, with or
without a 1-4-4 fast read. -/
inductive FlashFind where
  | unusable | quad | single
  deriving DecidableEq, Repr

/-- What the core finds of its surroundings in C1 to C5 (R424, R468, R473, R476): the flash, which slots a read fails in, the
levels at FSENSE_A and FSENSE_B as codes, and whether the entropy source passes its tests. -/
structure BootFind where
  flash   : FlashFind
  badA    : Bool
  badB    : Bool
  feedA   : BitVec 12
  feedB   : BitVec 12
  entropy : Bool
  deriving DecidableEq, Repr


/-- The commands of the hub, in the order of the opcode table. -/
inductive Instr where
  /-- `VBAT_APPLIED` (R23). -/
  | vbatApplied
  /-- `VBAT_REMOVED` (R23). -/
  | vbatRemoved
  /-- `ALL_SOURCES_LOST` (R23). -/
  | allSourcesLost
  /-- `AON_DOMAIN_START` (R398). -/
  | aonDomainStart (smbus : Bool) (sbaddr : BitVec 2) (fuses : List FuseSense)
  /-- `AON_DOMAIN_STOP` (R398). -/
  | aonDomainStop
  /-- `VBAT_SWITCHOVER` (R547). -/
  | vbatSwitchover (toVbat : Bool)
  /-- `FEED_ENTERS_WINDOW` (R424). -/
  | feedEntersWindow (f : Feed)
  /-- `FEED_QUALIFIED` (R424). -/
  | feedQualified (f : Feed)
  /-- `FEED_OUT_OF_WINDOW` (R426). -/
  | feedOutOfWindow (f : Feed)
  /-- `VEER_OLD_GATE_OFF` (R426). -/
  | veerOldGateOff
  /-- `VEER_RETURN` (R426). -/
  | veerReturn
  /-- `PLW_N_ASSERT` (R433). -/
  | plwNAssert (ch : Fin 2)
  /-- `PLW_N_RELEASE` (R433). -/
  | plwNRelease (ch : Fin 2)
  /-- `PLW_DISCREPANCY_TIMEOUT` (R433). -/
  | plwDiscrepancyTimeout
  /-- `POWER_LOSS_TRIGGER` (R432). -/
  | powerLossTrigger
  /-- `GUST_WRITES_DRAINED` (R435). -/
  | gustWritesDrained
  /-- `GUST_JOURNAL_WRITTEN` (R437). -/
  | gustJournalWritten
  /-- `GUST_HEADER_WRITTEN` (R440). -/
  | gustHeaderWritten
  /-- `GUST_SELF_REFRESH` (R435). -/
  | gustSelfRefresh
  /-- `CALM_ENTRY` (R435). -/
  | calmEntry
  /-- `CALM_FALSE_WARNING` (R442). -/
  | calmFalseWarning
  /-- `VBBU_CUTOFF` (R442). -/
  | vbbuCutoff
  /-- `GAUGE_POLL` (R430). -/
  | gaugePoll (found : Option GaugeRead)
  /-- `HOLDUP_READY_CHANGE` (R430). -/
  | holdupReadyChange (silent : Bool)
  /-- `RESTORE_DRAM_DONE` (R284). -/
  | restoreDramDone
  /-- `JOURNAL_REPLAY_DONE` (R449). -/
  | journalReplayDone
  /-- `RESTORE_COMPLETE` (R447). -/
  | restoreComplete
  /-- `START_ROW_DELAY_END` (R404). -/
  | startRowDelayEnd
  /-- `RAIL_ARMED` (R404). -/
  | railArmed (rail : Fin 16)
  /-- `RAIL_START_TIMEOUT` (R404). -/
  | railStartTimeout (rail : Fin 16)
  /-- `RESET_STRETCH_END` (R409). -/
  | resetStretchEnd (k : Fin 4)
  /-- `START_SECTION_COMPLETE` (R405). -/
  | startSectionComplete (found : SectionEnd)
  /-- `SHUTDOWN_ROW_DONE` (R410). -/
  | shutdownRowDone (timedOut : Bool)
  /-- `RAIL_OUT_OF_WINDOW` (R401). -/
  | railOutOfWindow (rail : Fin 16) (above : Bool)
  /-- `ADC_CONVERSION` (R402). -/
  | adcConversion (readings : List (BitVec 12)) (vbbu : BitVec 12)
  /-- `BOOT_RELEASE` (R483). -/
  | bootRelease (path : AccPath) (data : Word)
  /-- `BOOT_RELEASE_CHECKED` (R483). -/
  | bootReleaseChecked (found : BootFind)
  /-- `FAULT_RELEASE` (R533). -/
  | faultRelease (path : AccPath) (data : Word)
  /-- `CORE_RELEASE` (R459). -/
  | coreRelease (found : BootFind)
  /-- `BOOT_COMPLETE` (R459). -/
  | bootComplete (bands : List (BitVec 6))
  /-- `CORE_RESET` (R460). -/
  | coreReset
  /-- `ROLLBACK_ADVANCE` (R466). -/
  | rollbackAdvance (verified : Bool)
  /-- `DIRECTORY_MARK_GOOD` (R478). -/
  | directoryMarkGood
  /-- `TRAIN_STEP_DONE` (R275). -/
  | trainStepDone (sc : Fin 16) (rank : Fin 2) (found : TrainFind)
  /-- `TRAIN_END` (R275). -/
  | trainEnd (header : Option Line) (record : Option Line)
  /-- `PAIR_SETTLE` (R230). -/
  | pairSettle
  /-- `JOIN_UNSETTLED_TIMEOUT` (R230). -/
  | joinUnsettledTimeout
  /-- `LINK_TRAIN_START` (R64). -/
  | linkTrainStart (p : Port)
  /-- `LINK_TRAIN_SETTLED` (R65). -/
  | linkTrainSettled (p : Port) (rate : BitVec 2) (width : BitVec 2) (reversed : Bool) (polinv : BitVec 16)
  /-- `LINK_TRAIN_TIMEOUT` (R64). -/
  | linkTrainTimeout (p : Port) (lastStep : BitVec 4)
  /-- `NEG_RECEIVED` (R112). -/
  | negReceived (p : Port) (m : NegMsg)
  /-- `NEG_ACK_RECEIVED` (R112). -/
  | negAckReceived (p : Port) (m : NegAckMsg)
  /-- `NEG_TIMEOUT` (R112). -/
  | negTimeout (p : Port)
  /-- `FLIT_RECEIVED` (R61). -/
  | flitReceived (p : Port) (bytes : List Byte)
  /-- `NAK_TIMEOUT` (R61). -/
  | nakTimeout (p : Port)
  /-- `REPLAY_TIMEOUT` (R62). -/
  | replayTimeout (p : Port)
  /-- `LANE_LOCK_LOST` (R63). -/
  | laneLockLost (p : Port)
  /-- `RETRAIN_DEFER_END` (R70). -/
  | retrainDeferEnd (p : Port)
  /-- `RETRAIN_FAST_FAIL` (R65). -/
  | retrainFastFail (p : Port)
  /-- `RETRAIN_COMPLETE` (R64). -/
  | retrainComplete (p : Port) (rate : BitVec 2) (width : BitVec 2)
  /-- `RETRAIN_TIMEOUT` (R64). -/
  | retrainTimeout (p : Port)
  /-- `STILL_REQ` (R67). -/
  | stillReq (p : Port)
  /-- `STILL_RESUME` (R68). -/
  | stillResume (p : Port)
  /-- `STILL_WAKE` (R68). -/
  | stillWake (p : Port) (reason : BitVec 2)
  /-- `MARGIN_GO` (R76). -/
  | marginGo (p : Port) (value : Word)
  /-- `MARGIN_STOP` (R47). -/
  | marginStop (p : Port)
  /-- `UNKNOWN_MESSAGE` (R79). -/
  | unknownMessage (p : Port) (m : Msg)
  /-- `OVERRUN` (R108). -/
  | overrun (p : Port) (item : CreditedItem)
  /-- `READ` (R80). -/
  | read (p : Port) (r : HostReq)
  /-- `WRITE_A` (R80). -/
  | writeA (p : Port) (r : HostReq)
  /-- `WRITE_D` (R80). -/
  | writeD (p : Port) (r : HostReq)
  /-- `MWRITE_A` (R80). -/
  | mwriteA (p : Port) (r : HostReq)
  /-- `MWRITE_D` (R80). -/
  | mwriteD (p : Port) (r : HostReq)
  /-- `FLUSH` (R136). -/
  | flush (p : Port) (r : HostReq)
  /-- `HOST_DATA_SLOT` (R81). -/
  | hostDataSlot (p : Port) (d : DataSlot)
  /-- `DUPLICATE_TAG` (R83). -/
  | duplicateTag (p : Port) (op : HostOp) (r : HostReq)
  /-- `PAIRING_WINDOW_EXPIRED` (R81). -/
  | pairingWindowExpired (p : Port) (tag : BitVec 12)
  /-- `MGT_READ` (R88). -/
  | mgtRead (p : Port) (mtag : BitVec 4) (addr : BitVec 24)
  /-- `MGT_WRITE` (R88). -/
  | mgtWrite (p : Port) (mtag : BitVec 4) (addr : BitVec 24) (data : Word)
  /-- `TIME_BEACON` (R495). -/
  | timeBeacon (p : Port) (sync : Bool) (offsetEpoch : BitVec 16) (timeNs : BitVec 64)
  /-- `CREDIT` (R105). -/
  | credit (p : Port) (m : CreditMsg)
  /-- `CREDIT_SEND` (R106). -/
  | creditSend (p : Port)
  /-- `MERGE_POSITION` (R32). -/
  | mergePosition (found : EntryCheck)
  /-- `REGION_ENTRY_RELOADED` (R149): whether a copy could be read. -/
  | regionEntryReloaded (region : BitVec 18) (readable : Bool)
  /-- `ORDER_ADMIT` (R38). -/
  | orderAdmit
  /-- `BITMAP_LINE_FILL` (R220). -/
  | bitmapLineFill (bitmapLine : BitVec 15)
  /-- `FORK_REPLICA` (R172). -/
  | forkReplica
  /-- `FORK_NOT_SENT` (R170). -/
  | forkNotSent
  /-- `SCHEDULE_DISPATCH` (R31). -/
  | scheduleDispatch (sc : Fin 16)
  /-- `SCHEDULE_CYCLE` (R249). -/
  | scheduleCycle (sc : Fin 16)
  /-- `POWER_DOWN_EXIT` (R256). -/
  | powerDownExit (sc : Fin 16) (rank : Fin 2)
  /-- `ENTRY_AGED` (R248). -/
  | entryAged (sc : Fin 16) (index : Byte)
  /-- `REFRESH_TICK` (R251). -/
  | refreshTick (sc : Fin 16) (rank : Fin 2) (die : BitVec 4)
  /-- `MR4_POLL` (R255). -/
  | mr4Poll (sc : Fin 16) (rank : Fin 2) (reports : List Mr4Report)
  /-- `SCRUB_READ_DUE` (R257). -/
  | scrubReadDue (sc : Fin 16)
  /-- `READ_DATA_DECODE` (R325). -/
  | readDataDecode (sc : Fin 16) (errors : List Byte)
  /-- `COMPLETION_SEND` (R130). -/
  | completionSend (p : Port)
  /-- `ALERT_N_LOW` (R339). -/
  | alertNLow (sc : Fin 16)
  /-- `ALERT_N_HIGH` (R340). -/
  | alertNHigh (sc : Fin 16)
  /-- `ALERT_REPLAY_DONE` (R340). -/
  | alertReplayDone (sc : Fin 16)
  /-- `ALERT_FAILURE` (R342). -/
  | alertFailure (sc : Fin 16)
  /-- `BUCKET_LEAK` (R344). -/
  | bucketLeak
  /-- `RETIRE_CONVERSION_DONE` (R347). -/
  | retireConversionDone (rank : Fin 32)
  /-- `SPARE_COPY_INTERVAL` (R357). -/
  | spareCopyInterval
  /-- `SPARE_COPY_DONE` (R358). -/
  | spareCopyDone
  /-- `REPLICA_SLOT` (R152). -/
  | replicaSlot (d : DataSlot)
  /-- `REBUILD_LINE_SLOT` (R226). -/
  | rebuildLineSlot (d : DataSlot)
  /-- `REPAIR_LINE_SLOT` (R362). -/
  | repairLineSlot (d : DataSlot)
  /-- `MASK` (R96). -/
  | mask (tag : BitVec 12) (byteMask : BitVec 64)
  /-- `ACK_RANGE` (R176). -/
  | ackRange (epoch : Word) (through : Word)
  /-- `ACK_LINES` (R176). -/
  | ackLines (tags : List (BitVec 12))
  /-- `REPLICA_REJ` (R177). -/
  | replicaRej (tag : BitVec 12) (form : BitVec 3) (reason : Byte) (epoch : Word) (addr : BitVec 42)
  /-- `ACK_INTERVAL_EXPIRY` (R175). -/
  | ackIntervalExpiry
  /-- `ACK_LINES_SEND` (R115). -/
  | ackLinesSend
  /-- `ACK_TIMEOUT` (R178). -/
  | ackTimeout
  /-- `REPAIR_REQ` (R100). -/
  | repairReq (tag : BitVec 12) (epoch : Word) (addr : BitVec 42)
  /-- `REPAIR_MISS` (R190). -/
  | repairMiss (tag : BitVec 12) (miss : Byte) (epoch : Word) (addr : BitVec 42)
  /-- `REPAIR_TIMEOUT` (R190). -/
  | repairTimeout (tag : BitVec 8)
  /-- `PLN_ON_T` (R207). -/
  | plnOnT (flags : Byte) (admitCnt : Word) (lastTag : BitVec 12) (stamp : Word)
  /-- `HEARTBEAT` (R206). -/
  | heartbeat (pstate : BitVec 3) (epoch : Word) (sent : Word) (stamp : Word)
  /-- `HEARTBEAT_SEND` (R205). -/
  | heartbeatSend
  /-- `HEARTBEAT_MISS` (R207). -/
  | heartbeatMiss
  /-- `HANDOVER_REQUEST` (R193). -/
  | handoverRequest (m : HandoverMsg)
  /-- `HANDOVER_FORK_MARK` (R192). -/
  | handoverForkMark (region : BitVec 18)
  /-- `HANDOVER_DRAINED` (R192). -/
  | handoverDrained (m : HandoverMsg)
  /-- `HANDOVER_TAKEN` (R192). -/
  | handoverTaken (m : HandoverMsg)
  /-- `HANDOVER_REFUSED` (R192). -/
  | handoverRefused (m : HandoverMsg)
  /-- `HANDOVER_TIMEOUT` (R195). -/
  | handoverTimeout (region : BitVec 18)
  /-- `SOLO_CONVERSION_DONE` (R212). -/
  | soloConversionDone
  /-- `SOLO_HOLD_END` (R212). -/
  | soloHoldEnd
  /-- `FORMAT_REGION_DONE` (R213). -/
  | formatRegionDone
  /-- `REBUILD_CTL_START_SESSION` (R224). -/
  | rebuildCtlStartSession (m : RebuildMsg)
  /-- `REBUILD_CTL_START_GRANULE` (R224). -/
  | rebuildCtlStartGranule (m : RebuildMsg)
  /-- `REBUILD_CTL_CURSOR` (R224). -/
  | rebuildCtlCursor (m : RebuildMsg)
  /-- `REBUILD_CTL_DONE` (R224). -/
  | rebuildCtlDone (m : RebuildMsg)
  /-- `REBUILD_CTL_STOP` (R224). -/
  | rebuildCtlStop (m : RebuildMsg)
  /-- `REBUILD_CTL_PACE` (R228). -/
  | rebuildCtlPace (m : RebuildMsg)
  /-- `REBUILD_CTL_ANSWER` (R225). -/
  | rebuildCtlAnswer (cmd : Byte) (m : RebuildMsg)
  /-- `REBUILD_WAIT_TIMEOUT` (R227). -/
  | rebuildWaitTimeout
  /-- `DIRECTIVE_LULL` (R384). -/
  | directiveLull (h : DirHead) (arg : BitVec 64)
  /-- `DIRECTIVE_QUIESCE` (R540). -/
  | directiveQuiesce (h : DirHead) (arg : BitVec 64)
  /-- `DIRECTIVE_HANDOVER` (R192). -/
  | directiveHandover (h : DirHead) (arg : BitVec 64)
  /-- `DIRECTIVE_SOLO_GRANT` (R212). -/
  | directiveSoloGrant (h : DirHead) (arg : BitVec 64)
  /-- `DIRECTIVE_REBUILD_START` (R223). -/
  | directiveRebuildStart (h : DirHead) (arg : BitVec 64)
  /-- `DIRECTIVE_REBUILD_STOP` (R541). -/
  | directiveRebuildStop (h : DirHead) (arg : BitVec 64)
  /-- `DIRECTIVE_SCRUB_RATE` (R258). -/
  | directiveScrubRate (h : DirHead) (arg : BitVec 64)
  /-- `DIRECTIVE_CAL_RESTORE` (R312). -/
  | directiveCalRestore (h : DirHead) (arg : BitVec 64)
  /-- `DIRECTIVE_WALL_OFFSET` (R492). -/
  | directiveWallOffset (h : DirHead) (arg : BitVec 64)
  /-- `DIRECTIVE_RANK_RETIRE` (R350). -/
  | directiveRankRetire (h : DirHead) (arg : BitVec 64)
  /-- `DIRECTIVE_RANK_READMIT` (R352). -/
  | directiveRankReadmit (h : DirHead) (arg : BitVec 64)
  /-- `DIRECTIVE_UNKNOWN` (R91). -/
  | directiveUnknown (h : DirHead) (dcode : Byte) (arg : BitVec 64)
  /-- `READMIT_TRAINING_DONE` (R352). -/
  | readmitTrainingDone
  /-- `LULL_ENTRY_DONE` (R384). -/
  | lullEntryDone
  /-- `MPLL_LOCK` (R384). -/
  | mpllLock (band : BitVec 6) (searched : Bool)
  /-- `EXIT_REQUEST` (R386). -/
  | exitRequest
  /-- `DLL_LOCK` (R380). -/
  | dllLock (sc : Fin 16) (code : BitVec 7) (err : Byte)
  /-- `DLL_LOSS_OF_LOCK` (R381). -/
  | dllLossOfLock (sc : Fin 16) (code : BitVec 7) (err : Byte)
  /-- `DLL_STUCK` (R381). -/
  | dllStuck (sc : Fin 16)
  /-- `DLL_LOCK_RETRY` (R385). -/
  | dllLockRetry (sc : Fin 16)
  /-- `REFCLK_LOST` (R387). -/
  | refclkLost
  /-- `PLL_LOSS_OF_LOCK` (R387). -/
  | pllLossOfLock (pll : PllName) (attempts : BitVec 2)
  /-- `EMERGENCY_RELOCK` (R387). -/
  | emergencyRelock
  /-- `REF_QUALIFIED` (R371). -/
  | refQualified (input : RefInput)
  /-- `EMERGENCY_SECOND` (R388). -/
  | emergencySecond
  /-- `CAL_EVAL` (R302). -/
  | calEval (temps : List (Option Byte))
  /-- `CAL_RUN_DUE` (R303). -/
  | calRunDue (sc : Fin 16)
  /-- `CAL_RUN_START` (R304). -/
  | calRunStart (sc : Fin 16) (temp : Option Byte)
  /-- `CAL_MEASURE_DONE` (R304). -/
  | calMeasureDone (sc : Fin 16) (m : CalMeas)
  /-- `CAL_ZQ_LATCH` (R304). -/
  | calZqLatch (sc : Fin 16) (skipped : Bool)
  /-- `BREEZE_STEP` (R306). -/
  | breezeStep (sc : Fin 16) (disagree : List (BitVec 6))
  /-- `CAL_RUN_DONE` (R304). -/
  | calRunDone (sc : Fin 16)
  /-- `SENSOR_OVERTEMP` (R557). -/
  | sensorOvertemp (sensor : Fin 8) (reading : Byte)
  /-- `SENSOR_COOL` (R557). -/
  | sensorCool
  /-- `SYNC_IN_EDGE` (R494). -/
  | syncInEdge
  /-- `HOLDOVER_START` (R498). -/
  | holdoverStart
  /-- `EVENT_CAPTURE` (R499). -/
  | eventCapture (code : BitVec 16) (data : Word)
  /-- `SQUALL_WINDOW_END` (R505). -/
  | squallWindowEnd
  /-- `LOG_PROGRAM_DONE` (R509). -/
  | logProgramDone (verified : Bool)
  /-- `WATCHDOG_EXPIRY` (R512). -/
  | watchdogExpiry
  /-- `LOG_WDTKICK` (R512). -/
  | logWdtkick (data : Word)
  /-- `SB_READ_REGISTERS` (R516). -/
  | sbReadRegisters (addr : BitVec 24) (count : Byte)
  /-- `SB_WRITE_REGISTER` (R516). -/
  | sbWriteRegister (addr : BitVec 24) (data : Word)
  /-- `SB_DIRECTIVE` (R516). -/
  | sbDirective (dcode : Byte) (epoch : Word) (arg : BitVec 64)
  /-- `SB_FRAME_ERROR` (R517). -/
  | sbFrameError (e : SbError)
  /-- `SMBUS_TIMEOUT` (R515). -/
  | smbusTimeout
  /-- `CCC_ENTDAA` (R514). -/
  | cccEntdaa (da : BitVec 7)
  /-- `CCC_SETDASA` (R514). -/
  | cccSetdasa (da : BitVec 7)
  /-- `CCC_SETNEWDA` (R514). -/
  | cccSetnewda (da : BitVec 7)
  /-- `CCC_RSTDAA` (R514). -/
  | cccRstdaa
  /-- `CCC_ENEC` (R514). -/
  | cccEnec
  /-- `CCC_DISEC` (R514). -/
  | cccDisec
  /-- `CCC_GETPID` (R514). -/
  | cccGetpid
  /-- `CCC_GETBCR` (R514). -/
  | cccGetbcr
  /-- `CCC_GETDCR` (R514). -/
  | cccGetdcr
  /-- `CCC_GETSTATUS` (R514). -/
  | cccGetstatus
  /-- `CCC_GETMWL` (R514). -/
  | cccGetmwl
  /-- `CCC_GETMRL` (R514). -/
  | cccGetmrl
  /-- `CCC_SETMWL` (R514). -/
  | cccSetmwl (len : BitVec 16)
  /-- `CCC_SETMRL` (R514). -/
  | cccSetmrl (len : BitVec 16)
  /-- `CCC_RSTACT` (R514). -/
  | cccRstact (action : Byte)
  /-- `FLASH_READ` (R488). -/
  | flashRead (path : AccPath)
  /-- `FLASH_PROGRAM` (R488). -/
  | flashProgram (path : AccPath)
  /-- `FLASH_ERASE` (R488). -/
  | flashErase (path : AccPath)
  /-- `FLASH_SET_PREFERENCE` (R478). -/
  | flashSetPreference (path : AccPath)
  /-- `FLASH_UNKNOWN_COMMAND` (R488). -/
  | flashUnknownCommand (path : AccPath) (code : BitVec 4)
  /-- `FLASH_COMMAND_DONE` (R488). -/
  | flashCommandDone (ok : Bool)
  /-- `CIPHER_ENCRYPT` (R489). -/
  | cipherEncrypt (slot : BitVec 2) (dest : BitVec 2)
  /-- `CIPHER_DECRYPT` (R489). -/
  | cipherDecrypt (slot : BitVec 2) (dest : BitVec 2)
  /-- `CIPHER_DONE` (R489). -/
  | cipherDone
  /-- `ORD_STRREC0_READ` (R140). -/
  | ordStrrec0Read (path : AccPath)
  /-- `ORD_FRONT_LO_READ` (R141). -/
  | ordFrontLoRead (path : AccPath)
  /-- `TIM_NOW_LO_READ` (R520). -/
  | timNowLoRead (path : AccPath)
  /-- `TIM_OFFSET_LO_READ` (R520). -/
  | timOffsetLoRead (path : AccPath)
  /-- `PWR_SNAPSTAMP_LO_READ` (R423). -/
  | pwrSnapstampLoRead (path : AccPath)
  /-- `MGT_DIEID_LO_READ` (R487). -/
  | mgtDieidLoRead (path : AccPath)
  /-- `DPH_EYEA_READ` (R291). -/
  | dphEyeaRead (path : AccPath) (sc : Fin 16)
  /-- `ECC_SEALFAIL_READ` (R334). -/
  | eccSealfailRead (path : AccPath)
  /-- `LOG_SBREC0_READ` (R525). -/
  | logSbrec0Read (path : AccPath)
  /-- `RC_FIELD_READ` (R5). -/
  | rcFieldRead (path : AccPath) (addr : BitVec 24)
  /-- `CAL_RECSEL_WRITE` (R317). -/
  | calRecselWrite (path : AccPath) (data : Word)
  /-- `CAL_CAPTURE_DONE` (R317). -/
  | calCaptureDone
  /-- `ORD_STRSEL_WRITE` (R140). -/
  | ordStrselWrite (path : AccPath) (data : Word)
  /-- `DPH_EYESEL_WRITE` (R291). -/
  | dphEyeselWrite (path : AccPath) (sc : Fin 16) (data : Word)
  /-- `REGISTER_WRITE` (R7). -/
  | registerWrite (path : AccPath) (addr : BitVec 24) (data : Word)
  /-- `FLIT_TRANSMIT` (R48). -/
  | flitTransmit (p : Port)
  /-- `EXCURSION_START` (R401). -/
  | excursionStart (input : MonInput)
  /-- `RAIL_BACK_IN_WINDOW` (R400). -/
  | railBackInWindow (input : MonInput)
  /-- `HOLD_EN_LOW` (R443). -/
  | holdEnLow
  /-- `BYPCLK_LOST` (R371). -/
  | bypclkLost
  /-- `SR_MIN_ELAPSED` (R386). -/
  | srMinElapsed
  /-- `PLL_LOCK_QUALIFIED` (R387). -/
  | pllLockQualified
  /-- `TIMEBASE_BIT_20_CHANGE` (R491). -/
  | timebaseBit20Change
  deriving DecidableEq, Repr

end Sys2Proof
end

