-- ==== Sys2Proof/Decode.lean ====
section
/-!
DEFINITION. The table gives no command bits: a command comes to the hub as a bus event, a pin or a message, whose own decoding
(flits, slots and messages) is in Machine/Operands.lean. No word spells a command.
-/

namespace Sys2Proof

/-- The command that `nbits` bits spell by the opcode table: none, since no row of it has bits. DESIGN CHOICE, log entry 7. -/
def decodeTableWord (_nbits _w : Nat) : Option Instr := none

end Sys2Proof
end

