-- ==== Sys2Proof/Config.lean ====
section
/-!
DEFINITION. What the manual leaves open. Each constant is a FREE VALUE: it has no body, so nothing can be proved of it;
a meaning applies it to the counter `free` of the state, which it then advances (log entry 1).
-/

namespace Sys2Proof

/-- A free register word, or the `DATA` of an event for which the manual gives no layout. DESIGN CHOICE, log entry 1. -/
opaque Config.freeWord : Nat → Word

/-- A free byte. DESIGN CHOICE, log entry 1. -/
opaque Config.freeByte : Nat → Byte

/-- A free truth value. DESIGN CHOICE, log entry 1. -/
opaque Config.freeBit : Nat → Bool

/-- A free line: bytes the manual does not define. DESIGN CHOICE, log entries 1 and 3. -/
opaque Config.freeLine : Nat → Line

/-- A free number. DESIGN CHOICE, log entry 1. -/
opaque Config.freeNat : Nat → Nat

/-- The DDR5 write CRC of one device's symbols of a burst (R327), whose polynomial the manual leaves to JESD79-5.
DESIGN CHOICE, log entry 37. -/
opaque Config.writeCrc : List Byte → Byte

/-- The code of the log record of a clearing of the contents-valid flag, which no table of event codes gives (R445).
DESIGN CHOICE, log entries 1 and 15. -/
opaque Config.clearCode : BitVec 16

end Sys2Proof
end

