-- ==== Sys2Proof/Machine/Fields.lean ====
section
/-!
DEFINITION. The addresses of the registers (R529) and the places of their fields, under the manual's names. A family of
equal registers takes its index, modulo the size of the family: a port (4 is T), a sub-channel, a rail, a word.
-/

namespace Sys2Proof.Machine

/-- A field of a register: the register's address and the field's top and bottom bits. -/
structure Fld where
  addr : Nat
  hi   : Nat
  lo   : Nat
  deriving DecidableEq, Repr

/-- `GLB_IDENT`: R530. -/
abbrev Reg.GLB_IDENT : Nat := 0x000000
abbrev Fld.GLB_IDENT.PART : Fld := ⟨0x000000, 31, 16⟩
abbrev Fld.GLB_IDENT.STEP : Fld := ⟨0x000000, 15, 8⟩
/-- `GLB_VERSION`: R530. -/
abbrev Reg.GLB_VERSION : Nat := 0x000004
abbrev Fld.GLB_VERSION.ROM : Fld := ⟨0x000004, 31, 24⟩
abbrev Fld.GLB_VERSION.IMG_FORMAT : Fld := ⟨0x000004, 23, 16⟩
abbrev Fld.GLB_VERSION.MIR_REVS : Fld := ⟨0x000004, 15, 8⟩
abbrev Fld.GLB_VERSION.LINK_REVS : Fld := ⟨0x000004, 7, 0⟩
/-- `GLB_STATE`: R26. -/
abbrev Reg.GLB_STATE : Nat := 0x000008
abbrev Fld.GLB_STATE.CAUSE : Fld := ⟨0x000008, 15, 8⟩
abbrev Fld.GLB_STATE.PREV_STATE : Fld := ⟨0x000008, 7, 4⟩
abbrev Fld.GLB_STATE.STATE : Fld := ⟨0x000008, 3, 0⟩
/-- `GLB_HUBID`: R19. -/
abbrev Reg.GLB_HUBID : Nat := 0x00000C
abbrev Fld.GLB_HUBID.TWIN_MATCH : Fld := ⟨0x00000C, 19, 19⟩
abbrev Fld.GLB_HUBID.ID_VALID : Fld := ⟨0x00000C, 18, 18⟩
abbrev Fld.GLB_HUBID.HUB_ID : Fld := ⟨0x00000C, 17, 0⟩
/-- `GLB_POOLDOM`: R20. -/
abbrev Reg.GLB_POOLDOM : Nat := 0x000010
abbrev Fld.GLB_POOLDOM.POOL_DOMAIN : Fld := ⟨0x000010, 15, 0⟩
/-- `GLB_SUMMARY`: R531. -/
abbrev Reg.GLB_SUMMARY : Nat := 0x000014
abbrev Fld.GLB_SUMMARY.PSTATE : Fld := ⟨0x000014, 26, 24⟩
abbrev Fld.GLB_SUMMARY.CAUSE : Fld := ⟨0x000014, 23, 23⟩
abbrev Fld.GLB_SUMMARY.HOLD_READY : Fld := ⟨0x000014, 22, 22⟩
abbrev Fld.GLB_SUMMARY.CVALID : Fld := ⟨0x000014, 21, 21⟩
abbrev Fld.GLB_SUMMARY.LINKUP : Fld := ⟨0x000014, 20, 16⟩
abbrev Fld.GLB_SUMMARY.STATE : Fld := ⟨0x000014, 15, 12⟩
/-- `GLB_CONTENTS`: R531. -/
abbrev Reg.GLB_CONTENTS : Nat := 0x000018
abbrev Fld.GLB_CONTENTS.EARLY : Fld := ⟨0x000018, 9, 9⟩
abbrev Fld.GLB_CONTENTS.MARKS_ALL : Fld := ⟨0x000018, 8, 8⟩
abbrev Fld.GLB_CONTENTS.REASON : Fld := ⟨0x000018, 7, 4⟩
abbrev Fld.GLB_CONTENTS.REPORT : Fld := ⟨0x000018, 1, 0⟩
/-- `GLB_EVENT`: R532. -/
abbrev Reg.GLB_EVENT : Nat := 0x00001C
abbrev Fld.GLB_EVENT.ACCERR : Fld := ⟨0x00001C, 7, 7⟩
abbrev Fld.GLB_EVENT.DIRDONE : Fld := ⟨0x00001C, 6, 6⟩
abbrev Fld.GLB_EVENT.DRAINED : Fld := ⟨0x00001C, 5, 5⟩
abbrev Fld.GLB_EVENT.RAILSNAP : Fld := ⟨0x00001C, 4, 4⟩
abbrev Fld.GLB_EVENT.HOLD : Fld := ⟨0x00001C, 3, 3⟩
abbrev Fld.GLB_EVENT.CONTENTS : Fld := ⟨0x00001C, 2, 2⟩
abbrev Fld.GLB_EVENT.PAIR : Fld := ⟨0x00001C, 1, 1⟩
abbrev Fld.GLB_EVENT.STATE : Fld := ⟨0x00001C, 0, 0⟩
/-- `GLB_BOOTREL`: R533. -/
abbrev Reg.GLB_BOOTREL : Nat := 0x000020
abbrev Fld.GLB_BOOTREL.KEY : Fld := ⟨0x000020, 31, 16⟩
abbrev Fld.GLB_BOOTREL.BUSY : Fld := ⟨0x000020, 15, 15⟩
abbrev Fld.GLB_BOOTREL.RESULT : Fld := ⟨0x000020, 14, 12⟩
abbrev Fld.GLB_BOOTREL.SLOT : Fld := ⟨0x000020, 1, 0⟩
/-- `GLB_FAULTREL`: R533. -/
abbrev Reg.GLB_FAULTREL : Nat := 0x000024
abbrev Fld.GLB_FAULTREL.KEY : Fld := ⟨0x000024, 31, 16⟩
abbrev Fld.GLB_FAULTREL.RESULT : Fld := ⟨0x000024, 14, 12⟩
/-- `GLB_DIRSTAT`: R534. -/
abbrev Reg.GLB_DIRSTAT : Nat := 0x000028
abbrev Fld.GLB_DIRSTAT.LAST_DCODE : Fld := ⟨0x000028, 31, 24⟩
abbrev Fld.GLB_DIRSTAT.LAST_STATUS : Fld := ⟨0x000028, 23, 16⟩
abbrev Fld.GLB_DIRSTAT.LAST_PATH : Fld := ⟨0x000028, 15, 12⟩
abbrev Fld.GLB_DIRSTAT.BUSY : Fld := ⟨0x000028, 11, 0⟩
/-- `GLB_ACCERR`: R534. -/
abbrev Reg.GLB_ACCERR : Nat := 0x00002C
abbrev Fld.GLB_ACCERR.PATH : Fld := ⟨0x00002C, 31, 29⟩
abbrev Fld.GLB_ACCERR.STATUS : Fld := ⟨0x00002C, 28, 24⟩
abbrev Fld.GLB_ACCERR.ADDR : Fld := ⟨0x00002C, 23, 0⟩
/-- `GLB_ACCCNT`: R534. -/
abbrev Reg.GLB_ACCCNT : Nat := 0x000030
/-- `GLB_QUIESCE`: R534. -/
abbrev Reg.GLB_QUIESCE : Nat := 0x000034
abbrev Fld.GLB_QUIESCE.DRAINED : Fld := ⟨0x000034, 4, 4⟩
abbrev Fld.GLB_QUIESCE.PORTS : Fld := ⟨0x000034, 3, 0⟩
/-- `LNK_STATUS`: R71. -/
abbrev Reg.LNK_STATUS (i : Nat) : Nat := 0x010000 + 0x1000 * (i % 5)
abbrev Fld.LNK_STATUS.POLINV (i : Nat) : Fld := ⟨0x010000 + 0x1000 * (i % 5), 27, 12⟩
abbrev Fld.LNK_STATUS.PLN_ACTIVE (i : Nat) : Fld := ⟨0x010000 + 0x1000 * (i % 5), 11, 11⟩
abbrev Fld.LNK_STATUS.RETRAIN_DEFER (i : Nat) : Fld := ⟨0x010000 + 0x1000 * (i % 5), 10, 10⟩
abbrev Fld.LNK_STATUS.REVERSED (i : Nat) : Fld := ⟨0x010000 + 0x1000 * (i % 5), 9, 9⟩
abbrev Fld.LNK_STATUS.REFMODE (i : Nat) : Fld := ⟨0x010000 + 0x1000 * (i % 5), 8, 8⟩
abbrev Fld.LNK_STATUS.WIDTH (i : Nat) : Fld := ⟨0x010000 + 0x1000 * (i % 5), 7, 6⟩
abbrev Fld.LNK_STATUS.RATE (i : Nat) : Fld := ⟨0x010000 + 0x1000 * (i % 5), 5, 4⟩
abbrev Fld.LNK_STATUS.LSTATE (i : Nat) : Fld := ⟨0x010000 + 0x1000 * (i % 5), 3, 0⟩
/-- `LNK_CFG`: R72. -/
abbrev Reg.LNK_CFG (i : Nat) : Nat := 0x010004 + 0x1000 * (i % 5)
abbrev Fld.LNK_CFG.STILL_EN (i : Nat) : Fld := ⟨0x010004 + 0x1000 * (i % 5), 4, 4⟩
abbrev Fld.LNK_CFG.REFMODE (i : Nat) : Fld := ⟨0x010004 + 0x1000 * (i % 5), 3, 3⟩
abbrev Fld.LNK_CFG.HALF_OK (i : Nat) : Fld := ⟨0x010004 + 0x1000 * (i % 5), 2, 2⟩
abbrev Fld.LNK_CFG.RATE_CAP (i : Nat) : Fld := ⟨0x010004 + 0x1000 * (i % 5), 1, 0⟩
/-- `LNK_REPLAY`: R73. -/
abbrev Reg.LNK_REPLAY (i : Nat) : Nat := 0x010008 + 0x1000 * (i % 5)
abbrev Fld.LNK_REPLAY.REPLAY_LIM (i : Nat) : Fld := ⟨0x010008 + 0x1000 * (i % 5), 18, 16⟩
abbrev Fld.LNK_REPLAY.NAK_TMO (i : Nat) : Fld := ⟨0x010008 + 0x1000 * (i % 5), 15, 8⟩
abbrev Fld.LNK_REPLAY.REPLAY_TMO (i : Nat) : Fld := ⟨0x010008 + 0x1000 * (i % 5), 7, 0⟩
/-- `LNK_ERRLIM`: R73. -/
abbrev Reg.LNK_ERRLIM (i : Nat) : Nat := 0x01000C + 0x1000 * (i % 5)
abbrev Fld.LNK_ERRLIM.ERR_WINDOW (i : Nat) : Fld := ⟨0x01000C + 0x1000 * (i % 5), 23, 8⟩
abbrev Fld.LNK_ERRLIM.ERR_LIMIT (i : Nat) : Fld := ⟨0x01000C + 0x1000 * (i % 5), 7, 0⟩
/-- `LNK_EVENT`: R75. -/
abbrev Reg.LNK_EVENT (i : Nat) : Nat := 0x010020 + 0x1000 * (i % 5)
abbrev Fld.LNK_EVENT.MARGIN_STOP (i : Nat) : Fld := ⟨0x010020 + 0x1000 * (i % 5), 4, 4⟩
abbrev Fld.LNK_EVENT.DOWNSHIFT (i : Nat) : Fld := ⟨0x010020 + 0x1000 * (i % 5), 3, 3⟩
abbrev Fld.LNK_EVENT.STILL_REFUSED (i : Nat) : Fld := ⟨0x010020 + 0x1000 * (i % 5), 2, 2⟩
abbrev Fld.LNK_EVENT.WAKE_COLLIDE (i : Nat) : Fld := ⟨0x010020 + 0x1000 * (i % 5), 1, 1⟩
abbrev Fld.LNK_EVENT.RETRAIN_DEFERRED (i : Nat) : Fld := ⟨0x010020 + 0x1000 * (i % 5), 0, 0⟩
/-- `LNK_NEG`: R118. -/
abbrev Reg.LNK_NEG (i : Nat) : Nat := 0x010030 + 0x1000 * (i % 5)
abbrev Fld.LNK_NEG.FAIL (i : Nat) : Fld := ⟨0x010030 + 0x1000 * (i % 5), 11, 8⟩
abbrev Fld.LNK_NEG.MIR_REV (i : Nat) : Fld := ⟨0x010030 + 0x1000 * (i % 5), 5, 4⟩
abbrev Fld.LNK_NEG.LINK_REV (i : Nat) : Fld := ⟨0x010030 + 0x1000 * (i % 5), 1, 0⟩
/-- `LNK_FEAT`: R119. -/
abbrev Reg.LNK_FEAT (i : Nat) : Nat := 0x010034 + 0x1000 * (i % 5)
/-- `LNK_PEER`: R119. -/
abbrev Reg.LNK_PEER (i : Nat) : Nat := 0x010038 + 0x1000 * (i % 5)
abbrev Fld.LNK_PEER.PEER_PORT (i : Nat) : Fld := ⟨0x010038 + 0x1000 * (i % 5), 20, 18⟩
abbrev Fld.LNK_PEER.PEER_ID (i : Nat) : Fld := ⟨0x010038 + 0x1000 * (i % 5), 17, 0⟩
/-- `LNK_MARGIN`: R76. -/
abbrev Reg.LNK_MARGIN (i : Nat) : Nat := 0x010040 + 0x1000 * (i % 5)
abbrev Fld.LNK_MARGIN.ERRS (i : Nat) : Fld := ⟨0x010040 + 0x1000 * (i % 5), 23, 16⟩
abbrev Fld.LNK_MARGIN.DONE (i : Nat) : Fld := ⟨0x010040 + 0x1000 * (i % 5), 15, 15⟩
abbrev Fld.LNK_MARGIN.GO (i : Nat) : Fld := ⟨0x010040 + 0x1000 * (i % 5), 14, 14⟩
abbrev Fld.LNK_MARGIN.STEPS (i : Nat) : Fld := ⟨0x010040 + 0x1000 * (i % 5), 13, 7⟩
abbrev Fld.LNK_MARGIN.DIR (i : Nat) : Fld := ⟨0x010040 + 0x1000 * (i % 5), 6, 6⟩
abbrev Fld.LNK_MARGIN.AXIS (i : Nat) : Fld := ⟨0x010040 + 0x1000 * (i % 5), 5, 5⟩
abbrev Fld.LNK_MARGIN.LANE (i : Nat) : Fld := ⟨0x010040 + 0x1000 * (i % 5), 3, 0⟩
/-- `LNK_BADFLIT`: R74. -/
abbrev Reg.LNK_BADFLIT (i : Nat) : Nat := 0x010010 + 0x1000 * (i % 5)
/-- `LNK_FECCORR`: R74. -/
abbrev Reg.LNK_FECCORR (i : Nat) : Nat := 0x010014 + 0x1000 * (i % 5)
/-- `LNK_REPLAYS`: R74. -/
abbrev Reg.LNK_REPLAYS (i : Nat) : Nat := 0x010018 + 0x1000 * (i % 5)
/-- `LNK_RETRAINS`: R74. -/
abbrev Reg.LNK_RETRAINS (i : Nat) : Nat := 0x01001C + 0x1000 * (i % 5)
/-- `LNK_BADSLOT`: R74. -/
abbrev Reg.LNK_BADSLOT (i : Nat) : Nat := 0x010024 + 0x1000 * (i % 5)
/-- `LNK_BADMSG`: R117. -/
abbrev Reg.LNK_BADMSG (i : Nat) : Nat := 0x010028 + 0x1000 * (i % 5)
/-- `ORD_POOLOCC`: R37. -/
abbrev Reg.ORD_POOLOCC : Nat := 0x020100
abbrev Fld.ORD_POOLOCC.HIGH : Fld := ⟨0x020100, 29, 16⟩
abbrev Fld.ORD_POOLOCC.OCC : Fld := ⟨0x020100, 13, 0⟩
/-- `ORD_WBOCC`: R37. -/
abbrev Reg.ORD_WBOCC : Nat := 0x020104
abbrev Fld.ORD_WBOCC.HIGH : Fld := ⟨0x020104, 29, 16⟩
abbrev Fld.ORD_WBOCC.OCC : Fld := ⟨0x020104, 13, 0⟩
/-- `ORD_RBOCC`: R37. -/
abbrev Reg.ORD_RBOCC : Nat := 0x020108
abbrev Fld.ORD_RBOCC.HIGH : Fld := ⟨0x020108, 29, 16⟩
abbrev Fld.ORD_RBOCC.OCC : Fld := ⟨0x020108, 13, 0⟩
/-- `ORD_FWD`: R142. -/
abbrev Reg.ORD_FWD : Nat := 0x020110
/-- `ORD_LINEHOLD`: R142. -/
abbrev Reg.ORD_LINEHOLD : Nat := 0x020114
/-- `ORD_FLUSHES`: R142. -/
abbrev Reg.ORD_FLUSHES : Nat := 0x020118
/-- `ORD_ACTSTR`: R143. -/
abbrev Reg.ORD_ACTSTR : Nat := 0x02011C
abbrev Fld.ORD_ACTSTR.ACTIVE : Fld := ⟨0x02011C, 16, 0⟩
/-- `ORD_STRSEL`: R140. -/
abbrev Reg.ORD_STRSEL : Nat := 0x020200
abbrev Fld.ORD_STRSEL.STREAM : Fld := ⟨0x020200, 15, 0⟩
/-- `ORD_STRREC0`: R140. -/
abbrev Reg.ORD_STRREC0 : Nat := 0x020204
abbrev Fld.ORD_STRREC0.LEN : Fld := ⟨0x020204, 29, 16⟩
abbrev Fld.ORD_STRREC0.FLUSH_HEAD : Fld := ⟨0x020204, 15, 15⟩
abbrev Fld.ORD_STRREC0.HEAD : Fld := ⟨0x020204, 12, 0⟩
/-- `ORD_STRREC1`: R140. -/
abbrev Reg.ORD_STRREC1 : Nat := 0x020208
abbrev Fld.ORD_STRREC1.TAIL : Fld := ⟨0x020208, 12, 0⟩
/-- `ORD_STRREC2`: R140. -/
abbrev Reg.ORD_STRREC2 : Nat := 0x02020C
/-- `ORD_STRREC3`: R140. -/
abbrev Reg.ORD_STRREC3 : Nat := 0x020210
/-- `ORD_FRONT_LO`: R141. -/
abbrev Reg.ORD_FRONT_LO : Nat := 0x020214
/-- `ORD_FRONT_HI`: R141. -/
abbrev Reg.ORD_FRONT_HI : Nat := 0x020218
/-- `MAP_HASHMASK0`: R165. -/
abbrev Reg.MAP_HASHMASK0 : Nat := 0x030000
/-- `MAP_HASHMASK1`: R165. -/
abbrev Reg.MAP_HASHMASK1 : Nat := 0x030004
/-- `MAP_HASHMASK2`: R165. -/
abbrev Reg.MAP_HASHMASK2 : Nat := 0x030008
/-- `MAP_HASHMASK3`: R165. -/
abbrev Reg.MAP_HASHMASK3 : Nat := 0x03000C
/-- `MAP_HASHMASK4`: R165. -/
abbrev Reg.MAP_HASHMASK4 : Nat := 0x030010
/-- `MAP_HASHMASK5`: R165. -/
abbrev Reg.MAP_HASHMASK5 : Nat := 0x030014
/-- `MAP_HASHMASK6`: R165. -/
abbrev Reg.MAP_HASHMASK6 : Nat := 0x030018
/-- `MAP_HASHMASK7`: R165. -/
abbrev Reg.MAP_HASHMASK7 : Nat := 0x03001C
/-- `MAP_HASHMASK8`: R165. -/
abbrev Reg.MAP_HASHMASK8 : Nat := 0x030020
/-- `MAP_HASHMASK9`: R165. -/
abbrev Reg.MAP_HASHMASK9 : Nat := 0x030024
/-- `MAP_HASHMASK10`: R165. -/
abbrev Reg.MAP_HASHMASK10 : Nat := 0x030028
/-- `MAP_HASHMASK11`: R165. -/
abbrev Reg.MAP_HASHMASK11 : Nat := 0x03002C
/-- `MAP_HASHMASK12`: R165. -/
abbrev Reg.MAP_HASHMASK12 : Nat := 0x030030
/-- `MAP_HASHMASK13`: R165. -/
abbrev Reg.MAP_HASHMASK13 : Nat := 0x030034
/-- `MAP_GEOM`: R166. -/
abbrev Reg.MAP_GEOM : Nat := 0x030040
abbrev Fld.MAP_GEOM.DENSITY : Fld := ⟨0x030040, 9, 8⟩
abbrev Fld.MAP_GEOM.DIE_BITS : Fld := ⟨0x030040, 6, 4⟩
abbrev Fld.MAP_GEOM.RANK_BITS : Fld := ⟨0x030040, 3, 3⟩
abbrev Fld.MAP_GEOM.SC_BITS : Fld := ⟨0x030040, 2, 0⟩
/-- `MAP_CAP`: R167. -/
abbrev Reg.MAP_CAP : Nat := 0x030044
abbrev Fld.MAP_CAP.REGIONS : Fld := ⟨0x030044, 15, 0⟩
/-- `MAP_USE`: R167. -/
abbrev Reg.MAP_USE : Nat := 0x030048
abbrev Fld.MAP_USE.IDLE : Fld := ⟨0x030048, 31, 16⟩
abbrev Fld.MAP_USE.MAPPED : Fld := ⟨0x030048, 15, 0⟩
/-- `MAP_RTPAGE`: R168. -/
abbrev Reg.MAP_RTPAGE : Nat := 0x030050
abbrev Fld.MAP_RTPAGE.PAGE : Fld := ⟨0x030050, 4, 0⟩
/-- `MAP_RTERR`: R169. -/
abbrev Reg.MAP_RTERR : Nat := 0x030054
abbrev Fld.MAP_RTERR.UNCORR : Fld := ⟨0x030054, 31, 16⟩
abbrev Fld.MAP_RTERR.CORR : Fld := ⟨0x030054, 15, 0⟩
/-- `MAP_REJ`: R169. -/
abbrev Reg.MAP_REJ : Nat := 0x030058
abbrev Fld.MAP_REJ.UNAVAIL : Fld := ⟨0x030058, 31, 16⟩
abbrev Fld.MAP_REJ.UNMAPPED : Fld := ⟨0x030058, 15, 0⟩
/-- `MAP_TBLSRC`: R169. -/
abbrev Reg.MAP_TBLSRC : Nat := 0x03005C
abbrev Fld.MAP_TBLSRC.SHADOW_BAD : Fld := ⟨0x03005C, 2, 2⟩
abbrev Fld.MAP_TBLSRC.SOURCE : Fld := ⟨0x03005C, 1, 0⟩
/-- `MAP_RTWIN`: R146. -/
abbrev Reg.MAP_RTWIN (i : Nat) : Nat := 0x038000 + 0x4 * (i % 8192)
abbrev Fld.MAP_RTWIN.HANDOVER (i : Nat) : Fld := ⟨0x038000 + 0x4 * (i % 8192), 23, 23⟩
abbrev Fld.MAP_RTWIN.SYNC (i : Nat) : Fld := ⟨0x038000 + 0x4 * (i % 8192), 22, 20⟩
abbrev Fld.MAP_RTWIN.ROLE (i : Nat) : Fld := ⟨0x038000 + 0x4 * (i % 8192), 19, 18⟩
abbrev Fld.MAP_RTWIN.LOCAL (i : Nat) : Fld := ⟨0x038000 + 0x4 * (i % 8192), 14, 0⟩
/-- `MIR_PAIR`: R233. -/
abbrev Reg.MIR_PAIR : Nat := 0x040000
abbrev Fld.MIR_PAIR.CAUSE : Fld := ⟨0x040000, 7, 7⟩
abbrev Fld.MIR_PAIR.HOLD : Fld := ⟨0x040000, 6, 6⟩
abbrev Fld.MIR_PAIR.RECORDED : Fld := ⟨0x040000, 5, 3⟩
abbrev Fld.MIR_PAIR.PSTATE : Fld := ⟨0x040000, 2, 0⟩
/-- `MIR_EPOCH`: R233. -/
abbrev Reg.MIR_EPOCH : Nat := 0x040004
/-- `MIR_PAIRCFG`: R234. -/
abbrev Reg.MIR_PAIRCFG : Nat := 0x040008
abbrev Fld.MIR_PAIRCFG.SOLO_HOLD : Fld := ⟨0x040008, 31, 24⟩
abbrev Fld.MIR_PAIRCFG.HB_MISS : Fld := ⟨0x040008, 23, 16⟩
abbrev Fld.MIR_PAIRCFG.HB_INT : Fld := ⟨0x040008, 15, 8⟩
/-- `MIR_CAUSE`: R235. -/
abbrev Reg.MIR_CAUSE : Nat := 0x04000C
abbrev Fld.MIR_CAUSE.COUNT : Fld := ⟨0x04000C, 15, 8⟩
abbrev Fld.MIR_CAUSE.PREV : Fld := ⟨0x04000C, 7, 4⟩
abbrev Fld.MIR_CAUSE.FIRST : Fld := ⟨0x04000C, 3, 0⟩
/-- `MIR_DIVCNT`: R235. -/
abbrev Reg.MIR_DIVCNT : Nat := 0x040010
abbrev Fld.MIR_DIVCNT.MARKED : Fld := ⟨0x040010, 24, 0⟩
/-- `MIR_WITNESS`: R535. -/
abbrev Reg.MIR_WITNESS : Nat := 0x040018
abbrev Fld.MIR_WITNESS.LINKED : Fld := ⟨0x040018, 16, 16⟩
abbrev Fld.MIR_WITNESS.WITNESS_ID : Fld := ⟨0x040018, 15, 0⟩
/-- `MIR_RBSTAT`: R235. -/
abbrev Reg.MIR_RBSTAT : Nat := 0x040100
abbrev Fld.MIR_RBSTAT.MODE : Fld := ⟨0x040100, 31, 30⟩
abbrev Fld.MIR_RBSTAT.ROLE : Fld := ⟨0x040100, 29, 28⟩
abbrev Fld.MIR_RBSTAT.SHARE : Fld := ⟨0x040100, 24, 18⟩
abbrev Fld.MIR_RBSTAT.REGION : Fld := ⟨0x040100, 17, 0⟩
/-- `MIR_RBCUR`: R235. -/
abbrev Reg.MIR_RBCUR : Nat := 0x040104
abbrev Fld.MIR_RBCUR.CURSOR : Fld := ⟨0x040104, 26, 0⟩
/-- `MIR_RBCFG`: R234. -/
abbrev Reg.MIR_RBCFG : Nat := 0x040120
abbrev Fld.MIR_RBCFG.RB_WAIT : Fld := ⟨0x040120, 15, 8⟩
abbrev Fld.MIR_RBCFG.SHARE : Fld := ⟨0x040120, 6, 0⟩
/-- `MIR_ACKCFG`: R197. -/
abbrev Reg.MIR_ACKCFG : Nat := 0x040200
abbrev Fld.MIR_ACKCFG.REP_TMO : Fld := ⟨0x040200, 31, 24⟩
abbrev Fld.MIR_ACKCFG.HO_TMO : Fld := ⟨0x040200, 23, 16⟩
abbrev Fld.MIR_ACKCFG.ACK_TMO : Fld := ⟨0x040200, 15, 8⟩
abbrev Fld.MIR_ACKCFG.ACK_INT : Fld := ⟨0x040200, 5, 0⟩
/-- `MIR_PENDOCC`: R198. -/
abbrev Reg.MIR_PENDOCC : Nat := 0x040204
abbrev Fld.MIR_PENDOCC.HIGH : Fld := ⟨0x040204, 28, 16⟩
abbrev Fld.MIR_PENDOCC.OCC : Fld := ⟨0x040204, 12, 0⟩
/-- `MIR_PENDSTAT`: R198. -/
abbrev Reg.MIR_PENDSTAT : Nat := 0x040208
abbrev Fld.MIR_PENDSTAT.BACKLOG : Fld := ⟨0x040208, 29, 16⟩
abbrev Fld.MIR_PENDSTAT.UNRESOLVED : Fld := ⟨0x040208, 12, 0⟩
/-- `MIR_HOSTAT`: R200. -/
abbrev Reg.MIR_HOSTAT : Nat := 0x040228
abbrev Fld.MIR_HOSTAT.LAST_RESULT : Fld := ⟨0x040228, 31, 30⟩
abbrev Fld.MIR_HOSTAT.ACTIVE : Fld := ⟨0x040228, 29, 25⟩
abbrev Fld.MIR_HOSTAT.LAST_REGION : Fld := ⟨0x040228, 17, 0⟩
/-- `MIR_HOCNT`: R201. -/
abbrev Reg.MIR_HOCNT : Nat := 0x04022C
abbrev Fld.MIR_HOCNT.REFUSED : Fld := ⟨0x04022C, 31, 16⟩
abbrev Fld.MIR_HOCNT.DONE : Fld := ⟨0x04022C, 15, 0⟩
/-- `MIR_DIVMISS`: R236. -/
abbrev Reg.MIR_DIVMISS : Nat := 0x040014
/-- `MIR_RBLINES`: R236. -/
abbrev Reg.MIR_RBLINES : Nat := 0x040108
/-- `MIR_FILTERED`: R236. -/
abbrev Reg.MIR_FILTERED : Nat := 0x04010C
/-- `MIR_HBBAD`: R236. -/
abbrev Reg.MIR_HBBAD : Nat := 0x040230
/-- `MIR_REPLSENT`: R199. -/
abbrev Reg.MIR_REPLSENT : Nat := 0x040210
/-- `MIR_REPLADM`: R199. -/
abbrev Reg.MIR_REPLADM : Nat := 0x040214
/-- `MIR_REPLREJ`: R199. -/
abbrev Reg.MIR_REPLREJ : Nat := 0x040218
/-- `MIR_ACKBAD`: R199. -/
abbrev Reg.MIR_ACKBAD : Nat := 0x04021C
/-- `MIR_FWDRD`: R199. -/
abbrev Reg.MIR_FWDRD : Nat := 0x040220
/-- `MIR_FWDMISS`: R199. -/
abbrev Reg.MIR_FWDMISS : Nat := 0x040224
/-- `SCH_STAT`: R263. -/
abbrev Reg.SCH_STAT (i : Nat) : Nat := 0x050000 + 0x400 * (i % 16)
abbrev Fld.SCH_STAT.ACTBANKS (i : Nat) : Fld := ⟨0x050000 + 0x400 * (i % 16), 20, 10⟩
abbrev Fld.SCH_STAT.SREF (i : Nat) : Fld := ⟨0x050000 + 0x400 * (i % 16), 9, 8⟩
abbrev Fld.SCH_STAT.PD (i : Nat) : Fld := ⟨0x050000 + 0x400 * (i % 16), 7, 6⟩
abbrev Fld.SCH_STAT.HELD (i : Nat) : Fld := ⟨0x050000 + 0x400 * (i % 16), 5, 5⟩
abbrev Fld.SCH_STAT.TSET (i : Nat) : Fld := ⟨0x050000 + 0x400 * (i % 16), 4, 3⟩
abbrev Fld.SCH_STAT.SCRUB_BEHIND (i : Nat) : Fld := ⟨0x050000 + 0x400 * (i % 16), 2, 2⟩
abbrev Fld.SCH_STAT.DIR (i : Nat) : Fld := ⟨0x050000 + 0x400 * (i % 16), 0, 0⟩
/-- `SCH_STOREOCC`: R263. -/
abbrev Reg.SCH_STOREOCC (i : Nat) : Nat := 0x050004 + 0x400 * (i % 16)
abbrev Fld.SCH_STOREOCC.HIGH (i : Nat) : Fld := ⟨0x050004 + 0x400 * (i % 16), 24, 16⟩
abbrev Fld.SCH_STOREOCC.OCC (i : Nat) : Fld := ⟨0x050004 + 0x400 * (i % 16), 8, 0⟩
/-- `SCH_REFSTAT`: R264. -/
abbrev Reg.SCH_REFSTAT (i : Nat) : Nat := 0x050008 + 0x400 * (i % 16)
abbrev Fld.SCH_REFSTAT.MAXDEBT (i : Nat) : Fld := ⟨0x050008 + 0x400 * (i % 16), 11, 8⟩
abbrev Fld.SCH_REFSTAT.RATE1 (i : Nat) : Fld := ⟨0x050008 + 0x400 * (i % 16), 3, 2⟩
abbrev Fld.SCH_REFSTAT.RATE0 (i : Nat) : Fld := ⟨0x050008 + 0x400 * (i % 16), 1, 0⟩
/-- `SCH_SCRUBPOS`: R264. -/
abbrev Reg.SCH_SCRUBPOS (i : Nat) : Nat := 0x050030 + 0x400 * (i % 16)
abbrev Fld.SCH_SCRUBPOS.POSITION (i : Nat) : Fld := ⟨0x050030 + 0x400 * (i % 16), 24, 0⟩
/-- `SCH_SCRUBPASS`: R264. -/
abbrev Reg.SCH_SCRUBPASS (i : Nat) : Nat := 0x050034 + 0x400 * (i % 16)
abbrev Fld.SCH_SCRUBPASS.PASSES (i : Nat) : Fld := ⟨0x050034 + 0x400 * (i % 16), 15, 0⟩
/-- `SCH_REFSB`: R265. -/
abbrev Reg.SCH_REFSB (i : Nat) : Nat := 0x050010 + 0x400 * (i % 16)
/-- `SCH_REFAB`: R265. -/
abbrev Reg.SCH_REFAB (i : Nat) : Nat := 0x050014 + 0x400 * (i % 16)
/-- `SCH_TURNS`: R265. -/
abbrev Reg.SCH_TURNS (i : Nat) : Nat := 0x050018 + 0x400 * (i % 16)
/-- `SCH_AGED`: R265. -/
abbrev Reg.SCH_AGED (i : Nat) : Nat := 0x05001C + 0x400 * (i % 16)
/-- `SCH_SUPERSEDED`: R265. -/
abbrev Reg.SCH_SUPERSEDED (i : Nat) : Nat := 0x050020 + 0x400 * (i % 16)
/-- `SCH_SCRUBLINES`: R265. -/
abbrev Reg.SCH_SCRUBLINES (i : Nat) : Nat := 0x050024 + 0x400 * (i % 16)
/-- `SCH_SCRUBSKIP`: R265. -/
abbrev Reg.SCH_SCRUBSKIP (i : Nat) : Nat := 0x050028 + 0x400 * (i % 16)
/-- `SCH_MAINTACT`: R265. -/
abbrev Reg.SCH_MAINTACT (i : Nat) : Nat := 0x05002C + 0x400 * (i % 16)
/-- `SCH_TSET0`: R262. -/
abbrev Reg.SCH_TSET0 (i : Nat) : Nat := 0x054000 + 0x4 * (i % 28)
abbrev Fld.SCH_TSET0.COUNT (i : Nat) : Fld := ⟨0x054000 + 0x4 * (i % 28), 15, 0⟩
/-- `SCH_TSET1`: R262. -/
abbrev Reg.SCH_TSET1 (i : Nat) : Nat := 0x054100 + 0x4 * (i % 28)
abbrev Fld.SCH_TSET1.COUNT (i : Nat) : Fld := ⟨0x054100 + 0x4 * (i % 28), 15, 0⟩
/-- `SCH_TSET2`: R262. -/
abbrev Reg.SCH_TSET2 (i : Nat) : Nat := 0x054200 + 0x4 * (i % 28)
abbrev Fld.SCH_TSET2.COUNT (i : Nat) : Fld := ⟨0x054200 + 0x4 * (i % 28), 15, 0⟩
/-- `SCH_TSET3`: R262. -/
abbrev Reg.SCH_TSET3 (i : Nat) : Nat := 0x054300 + 0x4 * (i % 28)
abbrev Fld.SCH_TSET3.COUNT (i : Nat) : Fld := ⟨0x054300 + 0x4 * (i % 28), 15, 0⟩
/-- `SCH_CFG`: R266. -/
abbrev Reg.SCH_CFG : Nat := 0x054400
abbrev Fld.SCH_CFG.AGE_MAX : Fld := ⟨0x054400, 27, 20⟩
abbrev Fld.SCH_CFG.ROW_HIT_MAX : Fld := ⟨0x054400, 19, 16⟩
abbrev Fld.SCH_CFG.WR_LO : Fld := ⟨0x054400, 15, 8⟩
abbrev Fld.SCH_CFG.WR_HI : Fld := ⟨0x054400, 7, 0⟩
/-- `SCH_PDCFG`: R266. -/
abbrev Reg.SCH_PDCFG : Nat := 0x054404
abbrev Fld.SCH_PDCFG.PD_EN : Fld := ⟨0x054404, 8, 8⟩
abbrev Fld.SCH_PDCFG.PD_IDLE : Fld := ⟨0x054404, 7, 0⟩
/-- `SCH_REFCFG`: R266. -/
abbrev Reg.SCH_REFCFG : Nat := 0x054408
abbrev Fld.SCH_REFCFG.MR4_POLL : Fld := ⟨0x054408, 23, 16⟩
abbrev Fld.SCH_REFCFG.AHEAD : Fld := ⟨0x054408, 11, 8⟩
abbrev Fld.SCH_REFCFG.HARD : Fld := ⟨0x054408, 7, 4⟩
abbrev Fld.SCH_REFCFG.SOFT : Fld := ⟨0x054408, 3, 0⟩
/-- `SCH_SCRUBCFG`: R267. -/
abbrev Reg.SCH_SCRUBCFG : Nat := 0x05440C
abbrev Fld.SCH_SCRUBCFG.HOURS : Fld := ⟨0x05440C, 9, 0⟩
/-- `SCH_SCRUBINT`: R267. -/
abbrev Reg.SCH_SCRUBINT : Nat := 0x054410
abbrev Fld.SCH_SCRUBINT.INTERVAL : Fld := ⟨0x054410, 23, 0⟩
/-- `DPH_STAT`: R289. -/
abbrev Reg.DPH_STAT (i : Nat) : Nat := 0x060000 + 0x1000 * (i % 16)
abbrev Fld.DPH_STAT.STEP1 (i : Nat) : Fld := ⟨0x060000 + 0x1000 * (i % 16), 31, 28⟩
abbrev Fld.DPH_STAT.STEP0 (i : Nat) : Fld := ⟨0x060000 + 0x1000 * (i % 16), 27, 24⟩
abbrev Fld.DPH_STAT.RESULT1 (i : Nat) : Fld := ⟨0x060000 + 0x1000 * (i % 16), 23, 20⟩
abbrev Fld.DPH_STAT.RESULT0 (i : Nat) : Fld := ⟨0x060000 + 0x1000 * (i % 16), 19, 16⟩
abbrev Fld.DPH_STAT.PATH1 (i : Nat) : Fld := ⟨0x060000 + 0x1000 * (i % 16), 15, 14⟩
abbrev Fld.DPH_STAT.PATH0 (i : Nat) : Fld := ⟨0x060000 + 0x1000 * (i % 16), 13, 12⟩
abbrev Fld.DPH_STAT.BUSY (i : Nat) : Fld := ⟨0x060000 + 0x1000 * (i % 16), 0, 0⟩
/-- `DPH_DEVSEEN`: R290. -/
abbrev Reg.DPH_DEVSEEN (i : Nat) : Nat := 0x060004 + 0x1000 * (i % 16)
abbrev Fld.DPH_DEVSEEN.BAD1 (i : Nat) : Fld := ⟨0x060004 + 0x1000 * (i % 16), 29, 20⟩
abbrev Fld.DPH_DEVSEEN.BAD0 (i : Nat) : Fld := ⟨0x060004 + 0x1000 * (i % 16), 19, 10⟩
abbrev Fld.DPH_DEVSEEN.DENSITY (i : Nat) : Fld := ⟨0x060004 + 0x1000 * (i % 16), 9, 8⟩
abbrev Fld.DPH_DEVSEEN.STACK (i : Nat) : Fld := ⟨0x060004 + 0x1000 * (i % 16), 7, 5⟩
/-- `DPH_EYESEL`: R291. -/
abbrev Reg.DPH_EYESEL (i : Nat) : Nat := 0x060010 + 0x1000 * (i % 16)
abbrev Fld.DPH_EYESEL.SIDE (i : Nat) : Fld := ⟨0x060010 + 0x1000 * (i % 16), 8, 8⟩
abbrev Fld.DPH_EYESEL.RANK (i : Nat) : Fld := ⟨0x060010 + 0x1000 * (i % 16), 7, 7⟩
abbrev Fld.DPH_EYESEL.NIBBLE (i : Nat) : Fld := ⟨0x060010 + 0x1000 * (i % 16), 6, 3⟩
abbrev Fld.DPH_EYESEL.BIT (i : Nat) : Fld := ⟨0x060010 + 0x1000 * (i % 16), 1, 0⟩
/-- `DPH_EYEA`: R291. -/
abbrev Reg.DPH_EYEA (i : Nat) : Nat := 0x060014 + 0x1000 * (i % 16)
abbrev Fld.DPH_EYEA.DELAY (i : Nat) : Fld := ⟨0x060014 + 0x1000 * (i % 16), 31, 24⟩
abbrev Fld.DPH_EYEA.VREF (i : Nat) : Fld := ⟨0x060014 + 0x1000 * (i % 16), 22, 16⟩
abbrev Fld.DPH_EYEA.WIDTH (i : Nat) : Fld := ⟨0x060014 + 0x1000 * (i % 16), 15, 8⟩
abbrev Fld.DPH_EYEA.HEIGHT (i : Nat) : Fld := ⟨0x060014 + 0x1000 * (i % 16), 7, 0⟩
/-- `DPH_EYEB`: R291. -/
abbrev Reg.DPH_EYEB (i : Nat) : Nat := 0x060018 + 0x1000 * (i % 16)
abbrev Fld.DPH_EYEB.OFFSET (i : Nat) : Fld := ⟨0x060018 + 0x1000 * (i % 16), 7, 0⟩
/-- `DPH_WORST`: R292. -/
abbrev Reg.DPH_WORST (i : Nat) : Nat := 0x06001C + 0x1000 * (i % 16)
abbrev Fld.DPH_WORST.MIN_W (i : Nat) : Fld := ⟨0x06001C + 0x1000 * (i % 16), 23, 16⟩
abbrev Fld.DPH_WORST.MIN_H (i : Nat) : Fld := ⟨0x06001C + 0x1000 * (i % 16), 15, 8⟩
abbrev Fld.DPH_WORST.SIDE_W (i : Nat) : Fld := ⟨0x06001C + 0x1000 * (i % 16), 7, 7⟩
abbrev Fld.DPH_WORST.RANK_W (i : Nat) : Fld := ⟨0x06001C + 0x1000 * (i % 16), 6, 6⟩
abbrev Fld.DPH_WORST.NIBBLE_W (i : Nat) : Fld := ⟨0x06001C + 0x1000 * (i % 16), 5, 2⟩
abbrev Fld.DPH_WORST.BIT_W (i : Nat) : Fld := ⟨0x06001C + 0x1000 * (i % 16), 1, 0⟩
/-- `DPH_TRAINTIME`: R292. -/
abbrev Reg.DPH_TRAINTIME (i : Nat) : Nat := 0x060020 + 0x1000 * (i % 16)
abbrev Fld.DPH_TRAINTIME.US (i : Nat) : Fld := ⟨0x060020 + 0x1000 * (i % 16), 19, 0⟩
/-- `DPH_TRAINCFG`: R293. -/
abbrev Reg.DPH_TRAINCFG : Nat := 0x060F00
abbrev Fld.DPH_TRAINCFG.RESTORE_EN : Fld := ⟨0x060F00, 24, 24⟩
abbrev Fld.DPH_TRAINCFG.RETRIES : Fld := ⟨0x060F00, 17, 16⟩
abbrev Fld.DPH_TRAINCFG.MIN_EYE_H : Fld := ⟨0x060F00, 15, 8⟩
abbrev Fld.DPH_TRAINCFG.MIN_EYE_W : Fld := ⟨0x060F00, 7, 0⟩
/-- `DPH_RETSTAT`: R293. -/
abbrev Reg.DPH_RETSTAT : Nat := 0x060F04
abbrev Fld.DPH_RETSTAT.REASON : Fld := ⟨0x060F04, 4, 2⟩
abbrev Fld.DPH_RETSTAT.USED : Fld := ⟨0x060F04, 1, 1⟩
abbrev Fld.DPH_RETSTAT.VALID : Fld := ⟨0x060F04, 0, 0⟩
/-- `DPH_DFE`: R535. -/
abbrev Reg.DPH_DFE (i : Nat) : Nat := 0x060F10 + 0x4 * (i % 4)
abbrev Fld.DPH_DFE.TAP4 (i : Nat) : Fld := ⟨0x060F10 + 0x4 * (i % 4), 31, 24⟩
abbrev Fld.DPH_DFE.TAP3 (i : Nat) : Fld := ⟨0x060F10 + 0x4 * (i % 4), 23, 16⟩
abbrev Fld.DPH_DFE.TAP2 (i : Nat) : Fld := ⟨0x060F10 + 0x4 * (i % 4), 15, 8⟩
abbrev Fld.DPH_DFE.TAP1 (i : Nat) : Fld := ⟨0x060F10 + 0x4 * (i % 4), 7, 0⟩
/-- `CAL_CFG`: R313. -/
abbrev Reg.CAL_CFG : Nat := 0x070000
abbrev Fld.CAL_CFG.MAX_INT : Fld := ⟨0x070000, 31, 24⟩
abbrev Fld.CAL_CFG.EVAL : Fld := ⟨0x070000, 23, 16⟩
abbrev Fld.CAL_CFG.TCAL_DELTA : Fld := ⟨0x070000, 12, 8⟩
abbrev Fld.CAL_CFG.CAL_EN : Fld := ⟨0x070000, 0, 0⟩
/-- `CAL_MEAS`: R313. -/
abbrev Reg.CAL_MEAS : Nat := 0x070004
abbrev Fld.CAL_MEAS.MIN_TRANS : Fld := ⟨0x070004, 31, 24⟩
abbrev Fld.CAL_MEAS.MEAS_TMO : Fld := ⟨0x070004, 23, 16⟩
abbrev Fld.CAL_MEAS.VREF_WIN : Fld := ⟨0x070004, 15, 12⟩
abbrev Fld.CAL_MEAS.EDGE_WIN : Fld := ⟨0x070004, 11, 8⟩
abbrev Fld.CAL_MEAS.DWELL : Fld := ⟨0x070004, 7, 0⟩
/-- `CAL_LIMIT`: R313. -/
abbrev Reg.CAL_LIMIT : Nat := 0x070008
abbrev Fld.CAL_LIMIT.STALE_N : Fld := ⟨0x070008, 26, 24⟩
abbrev Fld.CAL_LIMIT.BREEZE_INT : Fld := ⟨0x070008, 23, 16⟩
abbrev Fld.CAL_LIMIT.RESTORE_MAX : Fld := ⟨0x070008, 15, 8⟩
abbrev Fld.CAL_LIMIT.PLAUS_V : Fld := ⟨0x070008, 7, 4⟩
abbrev Fld.CAL_LIMIT.PLAUS_D : Fld := ⟨0x070008, 3, 0⟩
/-- `CAL_STAT`: R314. -/
abbrev Reg.CAL_STAT : Nat := 0x070010
abbrev Fld.CAL_STAT.PENDING : Fld := ⟨0x070010, 31, 16⟩
abbrev Fld.CAL_STAT.BUSY : Fld := ⟨0x070010, 15, 0⟩
/-- `CAL_STALE`: R314. -/
abbrev Reg.CAL_STALE : Nat := 0x070014
/-- `CAL_DERIVED`: R314. -/
abbrev Reg.CAL_DERIVED : Nat := 0x070018
/-- `CAL_RECSEL`: R317. -/
abbrev Reg.CAL_RECSEL : Nat := 0x070100
abbrev Fld.CAL_RECSEL.READY : Fld := ⟨0x070100, 31, 31⟩
abbrev Fld.CAL_RECSEL.SRC : Fld := ⟨0x070100, 7, 7⟩
abbrev Fld.CAL_RECSEL.TSET : Fld := ⟨0x070100, 6, 5⟩
abbrev Fld.CAL_RECSEL.RANK : Fld := ⟨0x070100, 4, 4⟩
abbrev Fld.CAL_RECSEL.SC : Fld := ⟨0x070100, 3, 0⟩
/-- `CAL_RUNS`: R315. -/
abbrev Reg.CAL_RUNS : Nat := 0x070020
/-- `CAL_REJECTS`: R315. -/
abbrev Reg.CAL_REJECTS : Nat := 0x070024
/-- `CAL_STEPS`: R315. -/
abbrev Reg.CAL_STEPS : Nat := 0x070028
/-- `CAL_SWITCHES`: R315. -/
abbrev Reg.CAL_SWITCHES : Nat := 0x07002C
/-- `CAL_ABANDONED`: R315. -/
abbrev Reg.CAL_ABANDONED : Nat := 0x070030
/-- `CAL_TEMP`: R316. -/
abbrev Reg.CAL_TEMP (i : Nat) : Nat := 0x070040 + 0x4 * (i % 16)
abbrev Fld.CAL_TEMP.SENSOR_BAD (i : Nat) : Fld := ⟨0x070040 + 0x4 * (i % 16), 16, 16⟩
abbrev Fld.CAL_TEMP.LAST (i : Nat) : Fld := ⟨0x070040 + 0x4 * (i % 16), 15, 8⟩
abbrev Fld.CAL_TEMP.NOW (i : Nat) : Fld := ⟨0x070040 + 0x4 * (i % 16), 7, 0⟩
/-- `CAL_REC`: R317. -/
abbrev Reg.CAL_REC (i : Nat) : Nat := 0x070400 + 0x4 * (i % 256)
/-- `CAL_STAGE`: R317. -/
abbrev Reg.CAL_STAGE (i : Nat) : Nat := 0x070800 + 0x4 * (i % 256)
/-- `ECC_SEALFAIL`: R334. -/
abbrev Reg.ECC_SEALFAIL : Nat := 0x080000
abbrev Fld.ECC_SEALFAIL.SEAL : Fld := ⟨0x080000, 31, 24⟩
abbrev Fld.ECC_SEALFAIL.FORK : Fld := ⟨0x080000, 23, 16⟩
abbrev Fld.ECC_SEALFAIL.ENCODE : Fld := ⟨0x080000, 15, 8⟩
abbrev Fld.ECC_SEALFAIL.RETURN : Fld := ⟨0x080000, 7, 0⟩
/-- `ECC_POISONIN`: R336. -/
abbrev Reg.ECC_POISONIN : Nat := 0x080004
abbrev Fld.ECC_POISONIN.TWIN : Fld := ⟨0x080004, 31, 16⟩
abbrev Fld.ECC_POISONIN.HOST : Fld := ⟨0x080004, 15, 0⟩
/-- `ECC_POISONOUT`: R336. -/
abbrev Reg.ECC_POISONOUT : Nat := 0x080008
abbrev Fld.ECC_POISONOUT.CPL : Fld := ⟨0x080008, 31, 16⟩
abbrev Fld.ECC_POISONOUT.DATA : Fld := ⟨0x080008, 15, 0⟩
/-- `ECC_DECODE`: R336. -/
abbrev Reg.ECC_DECODE : Nat := 0x08000C
abbrev Fld.ECC_DECODE.CARRIED : Fld := ⟨0x08000C, 31, 16⟩
abbrev Fld.ECC_DECODE.LOCAL : Fld := ⟨0x08000C, 15, 0⟩
/-- `ECC_FIRSTFAIL`: R335. -/
abbrev Reg.ECC_FIRSTFAIL : Nat := 0x080014
abbrev Fld.ECC_FIRSTFAIL.REGION : Fld := ⟨0x080014, 31, 14⟩
abbrev Fld.ECC_FIRSTFAIL.SPACE : Fld := ⟨0x080014, 13, 13⟩
abbrev Fld.ECC_FIRSTFAIL.LANE : Fld := ⟨0x080014, 12, 10⟩
abbrev Fld.ECC_FIRSTFAIL.HANDOFF : Fld := ⟨0x080014, 9, 7⟩
abbrev Fld.ECC_FIRSTFAIL.VALID : Fld := ⟨0x080014, 0, 0⟩
/-- `ECC_THRESH`: R366. -/
abbrev Reg.ECC_THRESH : Nat := 0x080020
abbrev Fld.ECC_THRESH.LEAK_INT : Fld := ⟨0x080020, 31, 24⟩
abbrev Fld.ECC_THRESH.RANK_CE_LIM : Fld := ⟨0x080020, 23, 16⟩
abbrev Fld.ECC_THRESH.UE_LIM : Fld := ⟨0x080020, 15, 8⟩
abbrev Fld.ECC_THRESH.DEV_CE_LIM : Fld := ⟨0x080020, 7, 0⟩
/-- `ECC_ALERTCFG`: R366. -/
abbrev Reg.ECC_ALERTCFG : Nat := 0x080024
abbrev Fld.ECC_ALERTCFG.REPLAY_LIM : Fld := ⟨0x080024, 17, 16⟩
abbrev Fld.ECC_ALERTCFG.ALERT_PW : Fld := ⟨0x080024, 15, 8⟩
abbrev Fld.ECC_ALERTCFG.ALERT_WIN : Fld := ⟨0x080024, 7, 0⟩
/-- `ECC_SPARECFG`: R366. -/
abbrev Reg.ECC_SPARECFG : Nat := 0x080028
abbrev Fld.ECC_SPARECFG.SPARE_EN : Fld := ⟨0x080028, 8, 8⟩
abbrev Fld.ECC_SPARECFG.SHARE : Fld := ⟨0x080028, 6, 0⟩
/-- `ECC_SPARESTAT`: R367. -/
abbrev Reg.ECC_SPARESTAT : Nat := 0x08002C
abbrev Fld.ECC_SPARESTAT.STATE : Fld := ⟨0x08002C, 31, 30⟩
abbrev Fld.ECC_SPARESTAT.RANK : Fld := ⟨0x08002C, 28, 24⟩
abbrev Fld.ECC_SPARESTAT.CURSOR : Fld := ⟨0x08002C, 17, 0⟩
/-- `ECC_RETIRED`: R367. -/
abbrev Reg.ECC_RETIRED : Nat := 0x080030
/-- `ECC_WANT`: R367. -/
abbrev Reg.ECC_WANT : Nat := 0x080034
/-- `ECC_REPAIR`: R368. -/
abbrev Reg.ECC_REPAIR : Nat := 0x080038
abbrev Fld.ECC_REPAIR.MISS : Fld := ⟨0x080038, 31, 16⟩
abbrev Fld.ECC_REPAIR.DONE : Fld := ⟨0x080038, 15, 0⟩
/-- `ECC_REPAIRW`: R368. -/
abbrev Reg.ECC_REPAIRW : Nat := 0x08003C
abbrev Fld.ECC_REPAIRW.REJECTED : Fld := ⟨0x08003C, 31, 16⟩
abbrev Fld.ECC_REPAIRW.SUPERSEDED : Fld := ⟨0x08003C, 15, 0⟩
/-- `ECC_ADDRMIS`: R337. -/
abbrev Reg.ECC_ADDRMIS : Nat := 0x080010
/-- `ECC_RKCORR`: R369. -/
abbrev Reg.ECC_RKCORR (i : Nat) : Nat := 0x080100 + 0x10 * (i % 32)
abbrev Fld.ECC_RKCORR.ERASED (i : Nat) : Fld := ⟨0x080100 + 0x10 * (i % 32), 31, 16⟩
abbrev Fld.ECC_RKCORR.CORR (i : Nat) : Fld := ⟨0x080100 + 0x10 * (i % 32), 15, 0⟩
/-- `ECC_RKUNCORR`: R369. -/
abbrev Reg.ECC_RKUNCORR (i : Nat) : Nat := 0x080104 + 0x10 * (i % 32)
abbrev Fld.ECC_RKUNCORR.UNCORR (i : Nat) : Fld := ⟨0x080104 + 0x10 * (i % 32), 31, 16⟩
abbrev Fld.ECC_RKUNCORR.REPLAYS (i : Nat) : Fld := ⟨0x080104 + 0x10 * (i % 32), 15, 0⟩
/-- `ECC_RKBUCKET`: R369. -/
abbrev Reg.ECC_RKBUCKET (i : Nat) : Nat := 0x080108 + 0x10 * (i % 32)
abbrev Fld.ECC_RKBUCKET.UE (i : Nat) : Fld := ⟨0x080108 + 0x10 * (i % 32), 31, 24⟩
abbrev Fld.ECC_RKBUCKET.RCE (i : Nat) : Fld := ⟨0x080108 + 0x10 * (i % 32), 23, 16⟩
abbrev Fld.ECC_RKBUCKET.DEVMAX (i : Nat) : Fld := ⟨0x080108 + 0x10 * (i % 32), 15, 8⟩
abbrev Fld.ECC_RKBUCKET.DEVMAX_PKG (i : Nat) : Fld := ⟨0x080108 + 0x10 * (i % 32), 7, 4⟩
/-- `ECC_RKSTATE`: R369. -/
abbrev Reg.ECC_RKSTATE (i : Nat) : Nat := 0x08010C + 0x10 * (i % 32)
abbrev Fld.ECC_RKSTATE.SPARED (i : Nat) : Fld := ⟨0x08010C + 0x10 * (i % 32), 10, 10⟩
abbrev Fld.ECC_RKSTATE.CAUSE (i : Nat) : Fld := ⟨0x08010C + 0x10 * (i % 32), 9, 7⟩
abbrev Fld.ECC_RKSTATE.WANT (i : Nat) : Fld := ⟨0x08010C + 0x10 * (i % 32), 6, 6⟩
abbrev Fld.ECC_RKSTATE.RETIRED (i : Nat) : Fld := ⟨0x08010C + 0x10 * (i % 32), 5, 5⟩
abbrev Fld.ECC_RKSTATE.ERASED_V (i : Nat) : Fld := ⟨0x08010C + 0x10 * (i % 32), 4, 4⟩
abbrev Fld.ECC_RKSTATE.ERASED (i : Nat) : Fld := ⟨0x08010C + 0x10 * (i % 32), 3, 0⟩
/-- `CLK_STAT`: R392. -/
abbrev Reg.CLK_STAT : Nat := 0x090000
abbrev Fld.CLK_STAT.DLL_LOCK : Fld := ⟨0x090000, 31, 16⟩
abbrev Fld.CLK_STAT.LULL : Fld := ⟨0x090000, 14, 12⟩
abbrev Fld.CLK_STAT.TSET : Fld := ⟨0x090000, 11, 10⟩
abbrev Fld.CLK_STAT.REFSRC : Fld := ⟨0x090000, 9, 8⟩
abbrev Fld.CLK_STAT.BYP_OK : Fld := ⟨0x090000, 7, 7⟩
abbrev Fld.CLK_STAT.REF_OK : Fld := ⟨0x090000, 6, 6⟩
abbrev Fld.CLK_STAT.CPLL_LOCK : Fld := ⟨0x090000, 5, 5⟩
abbrev Fld.CLK_STAT.MPLL_LOCK : Fld := ⟨0x090000, 4, 4⟩
/-- `CLK_CFG`: R393. -/
abbrev Reg.CLK_CFG : Nat := 0x090004
abbrev Fld.CLK_CFG.SR_MIN : Fld := ⟨0x090004, 31, 24⟩
abbrev Fld.CLK_CFG.REF_QUAL : Fld := ⟨0x090004, 23, 16⟩
abbrev Fld.CLK_CFG.BOOT_TSET : Fld := ⟨0x090004, 1, 0⟩
/-- `CLK_SSC`: R393. -/
abbrev Reg.CLK_SSC : Nat := 0x090008
abbrev Fld.CLK_SSC.REF_SSC : Fld := ⟨0x090008, 24, 24⟩
abbrev Fld.CLK_SSC.FREQ : Fld := ⟨0x090008, 18, 16⟩
abbrev Fld.CLK_SSC.AMP : Fld := ⟨0x090008, 11, 8⟩
abbrev Fld.CLK_SSC.MODE : Fld := ⟨0x090008, 1, 0⟩
/-- `CLK_LOCKCFG`: R393. -/
abbrev Reg.CLK_LOCKCFG : Nat := 0x09000C
abbrev Fld.CLK_LOCKCFG.LOCK_N : Fld := ⟨0x09000C, 15, 8⟩
abbrev Fld.CLK_LOCKCFG.LOCK_WIN : Fld := ⟨0x09000C, 3, 0⟩
/-- `CLK_LULLSTAT`: R395. -/
abbrev Reg.CLK_LULLSTAT : Nat := 0x090020
abbrev Fld.CLK_LULLSTAT.LAST_RESULT : Fld := ⟨0x090020, 31, 30⟩
abbrev Fld.CLK_LULLSTAT.LAST_TARGET : Fld := ⟨0x090020, 29, 28⟩
abbrev Fld.CLK_LULLSTAT.DURATION : Fld := ⟨0x090020, 15, 0⟩
/-- `CLK_MEMLOCK`: R395. -/
abbrev Reg.CLK_MEMLOCK : Nat := 0x090024
abbrev Fld.CLK_MEMLOCK.HELD : Fld := ⟨0x090024, 16, 16⟩
abbrev Fld.CLK_MEMLOCK.DENOM : Fld := ⟨0x090024, 12, 8⟩
abbrev Fld.CLK_MEMLOCK.NUM : Fld := ⟨0x090024, 4, 0⟩
/-- `CLK_TSET`: R394. -/
abbrev Reg.CLK_TSET (i : Nat) : Nat := 0x090010 + 0x4 * (i % 4)
abbrev Fld.CLK_TSET.BAND_VALID (i : Nat) : Fld := ⟨0x090010 + 0x4 * (i % 4), 14, 14⟩
abbrev Fld.CLK_TSET.BAND (i : Nat) : Fld := ⟨0x090010 + 0x4 * (i % 4), 13, 8⟩
abbrev Fld.CLK_TSET.BIN (i : Nat) : Fld := ⟨0x090010 + 0x4 * (i % 4), 3, 0⟩
/-- `CLK_DLL`: R396. -/
abbrev Reg.CLK_DLL (i : Nat) : Nat := 0x090040 + 0x4 * (i % 16)
abbrev Fld.CLK_DLL.LOCKED (i : Nat) : Fld := ⟨0x090040 + 0x4 * (i % 16), 31, 31⟩
abbrev Fld.CLK_DLL.STUCK (i : Nat) : Fld := ⟨0x090040 + 0x4 * (i % 16), 30, 30⟩
abbrev Fld.CLK_DLL.ERR (i : Nat) : Fld := ⟨0x090040 + 0x4 * (i % 16), 23, 16⟩
abbrev Fld.CLK_DLL.CODE (i : Nat) : Fld := ⟨0x090040 + 0x4 * (i % 16), 6, 0⟩
/-- `CLK_LULLS`: R397. -/
abbrev Reg.CLK_LULLS : Nat := 0x090080
/-- `CLK_EMERG`: R397. -/
abbrev Reg.CLK_EMERG : Nat := 0x090084
/-- `CLK_REFLOSS`: R397. -/
abbrev Reg.CLK_REFLOSS : Nat := 0x090088
/-- `CLK_DLLLOSS`: R397. -/
abbrev Reg.CLK_DLLLOSS : Nat := 0x09008C
/-- `CLK_LULLIGN`: R397. -/
abbrev Reg.CLK_LULLIGN : Nat := 0x090090
/-- `CLK_BANDSRCH`: R397. -/
abbrev Reg.CLK_BANDSRCH : Nat := 0x090094
/-- `PWR_RAILWIN`: R419. -/
abbrev Reg.PWR_RAILWIN (i : Nat) : Nat := 0x0A0000 + 0x4 * (i % 16)
abbrev Fld.PWR_RAILWIN.HI (i : Nat) : Fld := ⟨0x0A0000 + 0x4 * (i % 16), 27, 16⟩
abbrev Fld.PWR_RAILWIN.LO (i : Nat) : Fld := ⟨0x0A0000 + 0x4 * (i % 16), 11, 0⟩
/-- `PWR_RAILCFG`: R419. -/
abbrev Reg.PWR_RAILCFG (i : Nat) : Nat := 0x0A0040 + 0x4 * (i % 16)
abbrev Fld.PWR_RAILCFG.OFF_LVL (i : Nat) : Fld := ⟨0x0A0040 + 0x4 * (i % 16), 27, 16⟩
abbrev Fld.PWR_RAILCFG.USED (i : Nat) : Fld := ⟨0x0A0040 + 0x4 * (i % 16), 15, 15⟩
abbrev Fld.PWR_RAILCFG.HELD (i : Nat) : Fld := ⟨0x0A0040 + 0x4 * (i % 16), 14, 14⟩
abbrev Fld.PWR_RAILCFG.NO_EN (i : Nat) : Fld := ⟨0x0A0040 + 0x4 * (i % 16), 13, 13⟩
abbrev Fld.PWR_RAILCFG.EN (i : Nat) : Fld := ⟨0x0A0040 + 0x4 * (i % 16), 11, 8⟩
abbrev Fld.PWR_RAILCFG.FILT (i : Nat) : Fld := ⟨0x0A0040 + 0x4 * (i % 16), 7, 0⟩
/-- `PWR_START`: R420. -/
abbrev Reg.PWR_START (i : Nat) : Nat := 0x0A0080 + 0x4 * (i % 32)
abbrev Fld.PWR_START.ACTION (i : Nat) : Fld := ⟨0x0A0080 + 0x4 * (i % 32), 31, 30⟩
abbrev Fld.PWR_START.NOWAIT (i : Nat) : Fld := ⟨0x0A0080 + 0x4 * (i % 32), 29, 29⟩
abbrev Fld.PWR_START.TARGET (i : Nat) : Fld := ⟨0x0A0080 + 0x4 * (i % 32), 27, 24⟩
abbrev Fld.PWR_START.DELAY (i : Nat) : Fld := ⟨0x0A0080 + 0x4 * (i % 32), 23, 16⟩
abbrev Fld.PWR_START.TMO (i : Nat) : Fld := ⟨0x0A0080 + 0x4 * (i % 32), 15, 8⟩
abbrev Fld.PWR_START.DWELL (i : Nat) : Fld := ⟨0x0A0080 + 0x4 * (i % 32), 7, 0⟩
/-- `PWR_STOP`: R420. -/
abbrev Reg.PWR_STOP (i : Nat) : Nat := 0x0A0100 + 0x4 * (i % 16)
abbrev Fld.PWR_STOP.ACTION (i : Nat) : Fld := ⟨0x0A0100 + 0x4 * (i % 16), 31, 30⟩
abbrev Fld.PWR_STOP.TARGET (i : Nat) : Fld := ⟨0x0A0100 + 0x4 * (i % 16), 27, 24⟩
abbrev Fld.PWR_STOP.DELAY (i : Nat) : Fld := ⟨0x0A0100 + 0x4 * (i % 16), 23, 16⟩
abbrev Fld.PWR_STOP.TMO (i : Nat) : Fld := ⟨0x0A0100 + 0x4 * (i % 16), 15, 8⟩
/-- `PWR_RSTCFG`: R421. -/
abbrev Reg.PWR_RSTCFG : Nat := 0x0A0140
abbrev Fld.PWR_RSTCFG.STRETCH3 : Fld := ⟨0x0A0140, 31, 24⟩
abbrev Fld.PWR_RSTCFG.STRETCH2 : Fld := ⟨0x0A0140, 23, 16⟩
abbrev Fld.PWR_RSTCFG.STRETCH1 : Fld := ⟨0x0A0140, 15, 8⟩
abbrev Fld.PWR_RSTCFG.STRETCH0 : Fld := ⟨0x0A0140, 7, 0⟩
/-- `PWR_RAILSTAT`: R421. -/
abbrev Reg.PWR_RAILSTAT : Nat := 0x0A0144
abbrev Fld.PWR_RAILSTAT.ARMED : Fld := ⟨0x0A0144, 31, 16⟩
abbrev Fld.PWR_RAILSTAT.INWIN : Fld := ⟨0x0A0144, 15, 0⟩
/-- `PWR_SEQSTAT`: R421. -/
abbrev Reg.PWR_SEQSTAT : Nat := 0x0A0148
abbrev Fld.PWR_SEQSTAT.TABLE : Fld := ⟨0x0A0148, 31, 30⟩
abbrev Fld.PWR_SEQSTAT.FORM : Fld := ⟨0x0A0148, 29, 28⟩
abbrev Fld.PWR_SEQSTAT.ROW : Fld := ⟨0x0A0148, 27, 23⟩
abbrev Fld.PWR_SEQSTAT.RELEASED : Fld := ⟨0x0A0148, 19, 16⟩
abbrev Fld.PWR_SEQSTAT.ENOUT : Fld := ⟨0x0A0148, 15, 0⟩
/-- `PWR_RAILRD`: R422. -/
abbrev Reg.PWR_RAILRD (i : Nat) : Nat := 0x0A0180 + 0x4 * (i % 16)
abbrev Fld.PWR_RAILRD.MIN (i : Nat) : Fld := ⟨0x0A0180 + 0x4 * (i % 16), 27, 16⟩
abbrev Fld.PWR_RAILRD.READING (i : Nat) : Fld := ⟨0x0A0180 + 0x4 * (i % 16), 11, 0⟩
/-- `PWR_SNAPHDR`: R423. -/
abbrev Reg.PWR_SNAPHDR : Nat := 0x0A01C0
abbrev Fld.PWR_SNAPHDR.VALID : Fld := ⟨0x0A01C0, 31, 31⟩
abbrev Fld.PWR_SNAPHDR.SRC : Fld := ⟨0x0A01C0, 30, 30⟩
abbrev Fld.PWR_SNAPHDR.STATE : Fld := ⟨0x0A01C0, 29, 26⟩
abbrev Fld.PWR_SNAPHDR.KIND : Fld := ⟨0x0A01C0, 25, 24⟩
abbrev Fld.PWR_SNAPHDR.FIRST : Fld := ⟨0x0A01C0, 23, 20⟩
abbrev Fld.PWR_SNAPHDR.FAILMASK : Fld := ⟨0x0A01C0, 15, 0⟩
/-- `PWR_SNAPSTAMP_LO`: R423. -/
abbrev Reg.PWR_SNAPSTAMP_LO : Nat := 0x0A01C4
/-- `PWR_SNAPSTAMP_HI`: R423. -/
abbrev Reg.PWR_SNAPSTAMP_HI : Nat := 0x0A01C8
/-- `PWR_SNAPRD`: R423. -/
abbrev Reg.PWR_SNAPRD (i : Nat) : Nat := 0x0A01D0 + 0x4 * (i % 8)
abbrev Fld.PWR_SNAPRD.ODD (i : Nat) : Fld := ⟨0x0A01D0 + 0x4 * (i % 8), 27, 16⟩
abbrev Fld.PWR_SNAPRD.EVEN (i : Nat) : Fld := ⟨0x0A01D0 + 0x4 * (i % 8), 11, 0⟩
/-- `PWR_FAULTS`: R423. -/
abbrev Reg.PWR_FAULTS : Nat := 0x0A01F0
abbrev Fld.PWR_FAULTS.AONLOST : Fld := ⟨0x0A01F0, 31, 16⟩
abbrev Fld.PWR_FAULTS.FAULTS : Fld := ⟨0x0A01F0, 15, 0⟩
/-- `PWR_FEEDWINA`: R451. -/
abbrev Reg.PWR_FEEDWINA : Nat := 0x0A0200
abbrev Fld.PWR_FEEDWINA.HI : Fld := ⟨0x0A0200, 27, 16⟩
abbrev Fld.PWR_FEEDWINA.LO : Fld := ⟨0x0A0200, 11, 0⟩
/-- `PWR_FEEDWINB`: R451. -/
abbrev Reg.PWR_FEEDWINB : Nat := 0x0A0204
abbrev Fld.PWR_FEEDWINB.HI : Fld := ⟨0x0A0204, 27, 16⟩
abbrev Fld.PWR_FEEDWINB.LO : Fld := ⟨0x0A0204, 11, 0⟩
/-- `PWR_FEEDCFG`: R452. -/
abbrev Reg.PWR_FEEDCFG : Nat := 0x0A0208
abbrev Fld.PWR_FEEDCFG.QUAL : Fld := ⟨0x0A0208, 31, 24⟩
abbrev Fld.PWR_FEEDCFG.RET : Fld := ⟨0x0A0208, 23, 16⟩
abbrev Fld.PWR_FEEDCFG.FILT : Fld := ⟨0x0A0208, 15, 8⟩
/-- `PWR_VEERCFG`: R452. -/
abbrev Reg.PWR_VEERCFG : Nat := 0x0A020C
abbrev Fld.PWR_VEERCFG.OVL : Fld := ⟨0x0A020C, 7, 2⟩
abbrev Fld.PWR_VEERCFG.PREF : Fld := ⟨0x0A020C, 1, 1⟩
abbrev Fld.PWR_VEERCFG.SINGLE : Fld := ⟨0x0A020C, 0, 0⟩
/-- `PWR_PLWCFG`: R452. -/
abbrev Reg.PWR_PLWCFG : Nat := 0x0A0210
abbrev Fld.PWR_PLWCFG.PLW_EN : Fld := ⟨0x0A0210, 16, 16⟩
abbrev Fld.PWR_PLWCFG.T_DISC : Fld := ⟨0x0A0210, 15, 8⟩
abbrev Fld.PWR_PLWCFG.PLW_FILT : Fld := ⟨0x0A0210, 7, 0⟩
/-- `PWR_BBUWIN`: R453. -/
abbrev Reg.PWR_BBUWIN : Nat := 0x0A0214
abbrev Fld.PWR_BBUWIN.READY : Fld := ⟨0x0A0214, 27, 16⟩
abbrev Fld.PWR_BBUWIN.CUT : Fld := ⟨0x0A0214, 11, 0⟩
/-- `PWR_BBUCFG`: R453. -/
abbrev Reg.PWR_BBUCFG : Nat := 0x0A0218
abbrev Fld.PWR_BBUCFG.MARGIN : Fld := ⟨0x0A0218, 27, 16⟩
abbrev Fld.PWR_BBUCFG.GAUGE_TMO : Fld := ⟨0x0A0218, 15, 8⟩
abbrev Fld.PWR_BBUCFG.GAUGE_INT : Fld := ⟨0x0A0218, 7, 0⟩
/-- `PWR_GAUGECFG`: R453. -/
abbrev Reg.PWR_GAUGECFG : Nat := 0x0A021C
abbrev Fld.PWR_GAUGECFG.CAP_MIN : Fld := ⟨0x0A021C, 31, 16⟩
abbrev Fld.PWR_GAUGECFG.RECAL : Fld := ⟨0x0A021C, 15, 0⟩
/-- `PWR_FEEDSTAT`: R454. -/
abbrev Reg.PWR_FEEDSTAT : Nat := 0x0A0220
abbrev Fld.PWR_FEEDSTAT.SUSPECT_B : Fld := ⟨0x0A0220, 10, 10⟩
abbrev Fld.PWR_FEEDSTAT.SUSPECT_A : Fld := ⟨0x0A0220, 9, 9⟩
abbrev Fld.PWR_FEEDSTAT.ACTIVE : Fld := ⟨0x0A0220, 8, 8⟩
abbrev Fld.PWR_FEEDSTAT.GATE_B : Fld := ⟨0x0A0220, 7, 7⟩
abbrev Fld.PWR_FEEDSTAT.GATE_A : Fld := ⟨0x0A0220, 6, 6⟩
abbrev Fld.PWR_FEEDSTAT.QUAL_B : Fld := ⟨0x0A0220, 5, 5⟩
abbrev Fld.PWR_FEEDSTAT.QUAL_A : Fld := ⟨0x0A0220, 4, 4⟩
abbrev Fld.PWR_FEEDSTAT.INWIN_B : Fld := ⟨0x0A0220, 3, 3⟩
abbrev Fld.PWR_FEEDSTAT.INWIN_A : Fld := ⟨0x0A0220, 2, 2⟩
abbrev Fld.PWR_FEEDSTAT.PLW : Fld := ⟨0x0A0220, 1, 0⟩
/-- `PWR_HOLD`: R454. -/
abbrev Reg.PWR_HOLD : Nat := 0x0A0224
abbrev Fld.PWR_HOLD.CLEAR_CAUSE : Fld := ⟨0x0A0224, 15, 12⟩
abbrev Fld.PWR_HOLD.NOREADY : Fld := ⟨0x0A0224, 11, 8⟩
abbrev Fld.PWR_HOLD.DISAGREE : Fld := ⟨0x0A0224, 4, 4⟩
abbrev Fld.PWR_HOLD.EARLY : Fld := ⟨0x0A0224, 3, 3⟩
abbrev Fld.PWR_HOLD.HOLD_EN : Fld := ⟨0x0A0224, 2, 2⟩
abbrev Fld.PWR_HOLD.READY : Fld := ⟨0x0A0224, 1, 1⟩
abbrev Fld.PWR_HOLD.CVALID : Fld := ⟨0x0A0224, 0, 0⟩
/-- `PWR_CONTENTS`: R454. -/
abbrev Reg.PWR_CONTENTS : Nat := 0x0A0228
abbrev Fld.PWR_CONTENTS.EARLY : Fld := ⟨0x0A0228, 9, 9⟩
abbrev Fld.PWR_CONTENTS.MARKS_ALL : Fld := ⟨0x0A0228, 8, 8⟩
abbrev Fld.PWR_CONTENTS.REASON : Fld := ⟨0x0A0228, 7, 4⟩
abbrev Fld.PWR_CONTENTS.REPORT : Fld := ⟨0x0A0228, 1, 0⟩
/-- `PWR_GAUGE`: R455. -/
abbrev Reg.PWR_GAUGE : Nat := 0x0A0230
abbrev Fld.PWR_GAUGE.REMAIN : Fld := ⟨0x0A0230, 31, 16⟩
abbrev Fld.PWR_GAUGE.FULL : Fld := ⟨0x0A0230, 15, 0⟩
/-- `PWR_GAUGEVS`: R455. -/
abbrev Reg.PWR_GAUGEVS : Nat := 0x0A0234
abbrev Fld.PWR_GAUGEVS.VOLT : Fld := ⟨0x0A0234, 31, 16⟩
abbrev Fld.PWR_GAUGEVS.STATUS : Fld := ⟨0x0A0234, 15, 0⟩
/-- `PWR_GAUGECUR`: R455. -/
abbrev Reg.PWR_GAUGECUR : Nat := 0x0A0238
abbrev Fld.PWR_GAUGECUR.AGE : Fld := ⟨0x0A0238, 31, 24⟩
abbrev Fld.PWR_GAUGECUR.CURRENT : Fld := ⟨0x0A0238, 15, 0⟩
/-- `PWR_GUSTSTAT`: R455. -/
abbrev Reg.PWR_GUSTSTAT : Nat := 0x0A023C
abbrev Fld.PWR_GUSTSTAT.TRIG : Fld := ⟨0x0A023C, 31, 30⟩
abbrev Fld.PWR_GUSTSTAT.COMPLETE : Fld := ⟨0x0A023C, 29, 29⟩
abbrev Fld.PWR_GUSTSTAT.MARKS_OVF : Fld := ⟨0x0A023C, 28, 28⟩
abbrev Fld.PWR_GUSTSTAT.LINES : Fld := ⟨0x0A023C, 27, 14⟩
abbrev Fld.PWR_GUSTSTAT.DUR : Fld := ⟨0x0A023C, 9, 0⟩
/-- `PWR_VBBURD`: R455. -/
abbrev Reg.PWR_VBBURD : Nat := 0x0A022C
abbrev Fld.PWR_VBBURD.MIN : Fld := ⟨0x0A022C, 27, 16⟩
abbrev Fld.PWR_VBBURD.READING : Fld := ⟨0x0A022C, 11, 0⟩
/-- `PWR_VEERS`: R456. -/
abbrev Reg.PWR_VEERS : Nat := 0x0A0240
/-- `PWR_GUSTS`: R456. -/
abbrev Reg.PWR_GUSTS : Nat := 0x0A0244
/-- `PWR_FALSEGUST`: R456. -/
abbrev Reg.PWR_FALSEGUST : Nat := 0x0A0248
/-- `PWR_PLWDISC`: R456. -/
abbrev Reg.PWR_PLWDISC : Nat := 0x0A024C
/-- `PWR_GAUGEDIS`: R456. -/
abbrev Reg.PWR_GAUGEDIS : Nat := 0x0A0250
/-- `MGT_BOOTSTAT`: R485. -/
abbrev Reg.MGT_BOOTSTAT : Nat := 0x0B0000
abbrev Fld.MGT_BOOTSTAT.HOLD_CAUSE : Fld := ⟨0x0B0000, 31, 28⟩
abbrev Fld.MGT_BOOTSTAT.STAGE : Fld := ⟨0x0B0000, 27, 24⟩
abbrev Fld.MGT_BOOTSTAT.PATH : Fld := ⟨0x0B0000, 19, 18⟩
abbrev Fld.MGT_BOOTSTAT.FALLBACK : Fld := ⟨0x0B0000, 17, 17⟩
abbrev Fld.MGT_BOOTSTAT.STORE_OK : Fld := ⟨0x0B0000, 16, 16⟩
abbrev Fld.MGT_BOOTSTAT.RELREF : Fld := ⟨0x0B0000, 15, 8⟩
abbrev Fld.MGT_BOOTSTAT.CORERST : Fld := ⟨0x0B0000, 7, 4⟩
abbrev Fld.MGT_BOOTSTAT.SLOT : Fld := ⟨0x0B0000, 1, 0⟩
/-- `MGT_IMGVER`: R485. -/
abbrev Reg.MGT_IMGVER : Nat := 0x0B0004
/-- `MGT_IMGSTAT`: R486. -/
abbrev Reg.MGT_IMGSTAT : Nat := 0x0B0008
abbrev Fld.MGT_IMGSTAT.SKIPPED : Fld := ⟨0x0B0008, 31, 24⟩
abbrev Fld.MGT_IMGSTAT.REJ_B : Fld := ⟨0x0B0008, 23, 20⟩
abbrev Fld.MGT_IMGSTAT.REJ_A : Fld := ⟨0x0B0008, 19, 16⟩
abbrev Fld.MGT_IMGSTAT.SVN : Fld := ⟨0x0B0008, 7, 0⟩
/-- `MGT_ROLLBACK`: R486. -/
abbrev Reg.MGT_ROLLBACK : Nat := 0x0B000C
abbrev Fld.MGT_ROLLBACK.BURNING : Fld := ⟨0x0B000C, 16, 16⟩
abbrev Fld.MGT_ROLLBACK.PENDING : Fld := ⟨0x0B000C, 15, 8⟩
abbrev Fld.MGT_ROLLBACK.COUNTER : Fld := ⟨0x0B000C, 7, 0⟩
/-- `MGT_FUSESTAT`: R487. -/
abbrev Reg.MGT_FUSESTAT : Nat := 0x0B0010
abbrev Fld.MGT_FUSESTAT.UNSTABLE : Fld := ⟨0x0B0010, 31, 24⟩
abbrev Fld.MGT_FUSESTAT.FAULTS : Fld := ⟨0x0B0010, 23, 16⟩
abbrev Fld.MGT_FUSESTAT.FIRST : Fld := ⟨0x0B0010, 14, 8⟩
abbrev Fld.MGT_FUSESTAT.PAGE_OK : Fld := ⟨0x0B0010, 1, 1⟩
abbrev Fld.MGT_FUSESTAT.KEY_OK : Fld := ⟨0x0B0010, 0, 0⟩
/-- `MGT_RBDELAY`: R535. -/
abbrev Reg.MGT_RBDELAY : Nat := 0x0B001C
abbrev Fld.MGT_RBDELAY.MINUTES : Fld := ⟨0x0B001C, 13, 0⟩
/-- `MGT_FLCMD`: R488. -/
abbrev Reg.MGT_FLCMD : Nat := 0x0B0040
abbrev Fld.MGT_FLCMD.BUSY : Fld := ⟨0x0B0040, 31, 31⟩
abbrev Fld.MGT_FLCMD.RESULT : Fld := ⟨0x0B0040, 30, 28⟩
abbrev Fld.MGT_FLCMD.CMD : Fld := ⟨0x0B0040, 3, 0⟩
/-- `MGT_FLADDR`: R488. -/
abbrev Reg.MGT_FLADDR : Nat := 0x0B0044
abbrev Fld.MGT_FLADDR.ADDR : Fld := ⟨0x0B0044, 24, 0⟩
/-- `MGT_CIPHCTL`: R489. -/
abbrev Reg.MGT_CIPHCTL : Nat := 0x0B0400
abbrev Fld.MGT_CIPHCTL.BUSY : Fld := ⟨0x0B0400, 31, 31⟩
abbrev Fld.MGT_CIPHCTL.FAIL : Fld := ⟨0x0B0400, 30, 30⟩
abbrev Fld.MGT_CIPHCTL.USES : Fld := ⟨0x0B0400, 20, 16⟩
abbrev Fld.MGT_CIPHCTL.DEST : Fld := ⟨0x0B0400, 5, 4⟩
abbrev Fld.MGT_CIPHCTL.SLOT : Fld := ⟨0x0B0400, 3, 2⟩
abbrev Fld.MGT_CIPHCTL.DECRYPT : Fld := ⟨0x0B0400, 1, 1⟩
abbrev Fld.MGT_CIPHCTL.GO : Fld := ⟨0x0B0400, 0, 0⟩
/-- `MGT_DIEID_LO`: R487. -/
abbrev Reg.MGT_DIEID_LO : Nat := 0x0B0014
/-- `MGT_DIEID_HI`: R487. -/
abbrev Reg.MGT_DIEID_HI : Nat := 0x0B0018
/-- `MGT_FLPAGE`: R488. -/
abbrev Reg.MGT_FLPAGE (i : Nat) : Nat := 0x0B0100 + 0x4 * (i % 64)
/-- `MGT_CIPHIN`: R489. -/
abbrev Reg.MGT_CIPHIN (i : Nat) : Nat := 0x0B0410 + 0x4 * (i % 4)
/-- `MGT_CIPHOUT`: R489. -/
abbrev Reg.MGT_CIPHOUT (i : Nat) : Nat := 0x0B0420 + 0x4 * (i % 4)
/-- `TIM_NOW_LO`: R520. -/
abbrev Reg.TIM_NOW_LO : Nat := 0x0C0000
/-- `TIM_NOW_HI`: R520. -/
abbrev Reg.TIM_NOW_HI : Nat := 0x0C0004
/-- `TIM_WALL_LO`: R520. -/
abbrev Reg.TIM_WALL_LO : Nat := 0x0C0008
/-- `TIM_WALL_HI`: R520. -/
abbrev Reg.TIM_WALL_HI : Nat := 0x0C000C
/-- `TIM_OFFSET_LO`: R520. -/
abbrev Reg.TIM_OFFSET_LO : Nat := 0x0C0010
/-- `TIM_OFFSET_HI`: R520. -/
abbrev Reg.TIM_OFFSET_HI : Nat := 0x0C0014
/-- `TIM_STAT`: R521. -/
abbrev Reg.TIM_STAT : Nat := 0x0C0018
abbrev Fld.TIM_STAT.OFFSET_EPOCH : Fld := ⟨0x0C0018, 31, 16⟩
abbrev Fld.TIM_STAT.SYNCSEEN : Fld := ⟨0x0C0018, 7, 7⟩
abbrev Fld.TIM_STAT.SRC : Fld := ⟨0x0C0018, 6, 4⟩
abbrev Fld.TIM_STAT.QUALITY : Fld := ⟨0x0C0018, 2, 0⟩
/-- `TIM_CFG`: R521. -/
abbrev Reg.TIM_CFG : Nat := 0x0C001C
abbrev Fld.TIM_CFG.BEACON_TMO : Fld := ⟨0x0C001C, 15, 8⟩
abbrev Fld.TIM_CFG.SYNC_EN : Fld := ⟨0x0C001C, 4, 4⟩
abbrev Fld.TIM_CFG.PORTMASK : Fld := ⟨0x0C001C, 3, 0⟩
/-- `TIM_RATE`: R522. -/
abbrev Reg.TIM_RATE : Nat := 0x0C0020
abbrev Fld.TIM_RATE.F : Fld := ⟨0x0C0020, 31, 16⟩
abbrev Fld.TIM_RATE.S : Fld := ⟨0x0C0020, 15, 0⟩
/-- `TIM_LASTERR`: R522. -/
abbrev Reg.TIM_LASTERR : Nat := 0x0C0024
/-- `TIM_BEACONS`: R523. -/
abbrev Reg.TIM_BEACONS : Nat := 0x0C0030
/-- `TIM_BEACONIGN`: R523. -/
abbrev Reg.TIM_BEACONIGN : Nat := 0x0C0034
/-- `TIM_STEPS`: R523. -/
abbrev Reg.TIM_STEPS : Nat := 0x0C0038
/-- `TIM_SYNCEDGES`: R523. -/
abbrev Reg.TIM_SYNCEDGES : Nat := 0x0C003C
/-- `LOG_RINGSTAT`: R524. -/
abbrev Reg.LOG_RINGSTAT : Nat := 0x0D0000
abbrev Fld.LOG_RINGSTAT.SQUALL : Fld := ⟨0x0D0000, 31, 31⟩
abbrev Fld.LOG_RINGSTAT.FULL : Fld := ⟨0x0D0000, 30, 30⟩
abbrev Fld.LOG_RINGSTAT.HIGH : Fld := ⟨0x0D0000, 26, 16⟩
abbrev Fld.LOG_RINGSTAT.OCC : Fld := ⟨0x0D0000, 10, 0⟩
/-- `LOG_SQUALLCFG`: R524. -/
abbrev Reg.LOG_SQUALLCFG : Nat := 0x0D0004
abbrev Fld.LOG_SQUALLCFG.WIN : Fld := ⟨0x0D0004, 7, 0⟩
/-- `LOG_EVMASK`: R524. -/
abbrev Reg.LOG_EVMASK (i : Nat) : Nat := 0x0D0010 + 0x4 * (i % 4)
abbrev Fld.LOG_EVMASK.MASK (i : Nat) : Fld := ⟨0x0D0010 + 0x4 * (i % 4), 13, 0⟩
/-- `LOG_SBCFG`: R524. -/
abbrev Reg.LOG_SBCFG : Nat := 0x0D0020
abbrev Fld.LOG_SBCFG.IBIMASK : Fld := ⟨0x0D0020, 13, 0⟩
/-- `LOG_PTR`: R525. -/
abbrev Reg.LOG_PTR : Nat := 0x0D0024
abbrev Fld.LOG_PTR.ADDR : Fld := ⟨0x0D0024, 24, 0⟩
/-- `LOG_LSN`: R525. -/
abbrev Reg.LOG_LSN : Nat := 0x0D0028
/-- `LOG_WDTCFG`: R525. -/
abbrev Reg.LOG_WDTCFG : Nat := 0x0D002C
abbrev Fld.LOG_WDTCFG.PERIOD : Fld := ⟨0x0D002C, 7, 0⟩
/-- `LOG_WDTKICK`: R525. -/
abbrev Reg.LOG_WDTKICK : Nat := 0x0D0030
/-- `LOG_SBREC0`: R525. -/
abbrev Reg.LOG_SBREC0 : Nat := 0x0D0040
/-- `LOG_SBREC`: R525. -/
abbrev Reg.LOG_SBREC (i : Nat) : Nat := 0x0D0044 + 0x4 * (i % 7)
/-- `LOG_CAPTURED`: R525. -/
abbrev Reg.LOG_CAPTURED : Nat := 0x0D0060
/-- `LOG_COALESCED`: R525. -/
abbrev Reg.LOG_COALESCED : Nat := 0x0D0064
/-- `LOG_LOST`: R525. -/
abbrev Reg.LOG_LOST : Nat := 0x0D0068
/-- `LOG_SKIPS`: R525. -/
abbrev Reg.LOG_SKIPS : Nat := 0x0D006C
/-- `LOG_ORPHANS`: R525. -/
abbrev Reg.LOG_ORPHANS : Nat := 0x0D0070
/-- `LOG_WDT`: R525. -/
abbrev Reg.LOG_WDT : Nat := 0x0D0074
/-- `LOG_SQUALLS`: R525. -/
abbrev Reg.LOG_SQUALLS : Nat := 0x0D0078

end Sys2Proof.Machine
end

