-- ==== Sys2Proof/Machine/RegTable.lean ====
section
/-!
DEFINITION. The register map of R529 as data: one row per register (or per family of equal registers at a fixed
stride), with the reset word and the bits of each access code of R5, taken from the field tables of the rule named
beside the row. Bits under no mask are `rsvd` (R3).
-/

namespace Sys2Proof.Machine

/-- One row of the register index of R529: `count` registers, the first at `base`, `stride` apart. -/
structure RegRow where
  base   : Nat
  stride : Nat
  count  : Nat
  reset  : Word
  ro     : Word
  rw     : Word
  w1c    : Word
  rc     : Word
  cfg    : Word
  rol    : Word
  deriving DecidableEq, Repr

/-- The registers of block 0x0 (R529). -/
def regRowsGlb : List RegRow := [
  -- GLB_IDENT (R530)
  ⟨0x000000, 0x4, 1, 0x94200100, 0xFFFFFF00, 0x00000000, 0x00000000, 0x00000000, 0x00000000, 0x00000000⟩,
  -- GLB_VERSION (R530)
  ⟨0x000004, 0x4, 1, 0x01010303, 0xFFFFFFFF, 0x00000000, 0x00000000, 0x00000000, 0x00000000, 0x00000000⟩,
  -- GLB_STATE (R26)
  ⟨0x000008, 0x4, 1, 0x00000102, 0x0000FFFF, 0x00000000, 0x00000000, 0x00000000, 0x00000000, 0x00000000⟩,
  -- GLB_HUBID (R19)
  ⟨0x00000C, 0x4, 1, 0x0003FFFF, 0x000C0000, 0x00000000, 0x00000000, 0x00000000, 0x0003FFFF, 0x00000000⟩,
  -- GLB_POOLDOM (R20)
  ⟨0x000010, 0x4, 1, 0x0000FFFF, 0x00000000, 0x00000000, 0x00000000, 0x00000000, 0x0000FFFF, 0x00000000⟩,
  -- GLB_SUMMARY (R531)
  ⟨0x000014, 0x4, 1, 0x00002000, 0x07FFF000, 0x00000000, 0x00000000, 0x00000000, 0x00000000, 0x00000000⟩,
  -- GLB_CONTENTS (R531)
  ⟨0x000018, 0x4, 1, 0x00000000, 0x000003F3, 0x00000000, 0x00000000, 0x00000000, 0x00000000, 0x00000000⟩,
  -- GLB_EVENT (R532)
  ⟨0x00001C, 0x4, 1, 0x00000000, 0x00000000, 0x00000000, 0x000000FF, 0x00000000, 0x00000000, 0x00000000⟩,
  -- GLB_BOOTREL (R533)
  ⟨0x000020, 0x4, 1, 0x00000000, 0x0000F000, 0xFFFF0003, 0x00000000, 0x00000000, 0x00000000, 0x00000000⟩,
  -- GLB_FAULTREL (R533)
  ⟨0x000024, 0x4, 1, 0x00000000, 0x00007000, 0xFFFF0000, 0x00000000, 0x00000000, 0x00000000, 0x00000000⟩,
  -- GLB_DIRSTAT (R534)
  ⟨0x000028, 0x4, 1, 0x00000000, 0xFFFFFFFF, 0x00000000, 0x00000000, 0x00000000, 0x00000000, 0x00000000⟩,
  -- GLB_ACCERR (R534)
  ⟨0x00002C, 0x4, 1, 0x00000000, 0xFFFFFFFF, 0x00000000, 0x00000000, 0x00000000, 0x00000000, 0x00000000⟩,
  -- GLB_ACCCNT (R534)
  ⟨0x000030, 0x4, 1, 0x00000000, 0x00000000, 0x00000000, 0x00000000, 0xFFFFFFFF, 0x00000000, 0x00000000⟩,
  -- GLB_QUIESCE (R534)
  ⟨0x000034, 0x4, 1, 0x00000000, 0x0000001F, 0x00000000, 0x00000000, 0x00000000, 0x00000000, 0x00000000⟩
]

/-- The registers of block 0x1 (R529). -/
def regRowsLnk : List RegRow := [
  -- LNK_STATUS (R71)
  ⟨0x010000, 0x1000, 5, 0x00000000, 0x0FFFFFFF, 0x00000000, 0x00000000, 0x00000000, 0x00000000, 0x00000000⟩,
  -- LNK_CFG of T: STILL_EN resets to 0 (R72)
  ⟨0x014004, 0x1000, 1, 0x00000006, 0x00000000, 0x00000000, 0x00000000, 0x00000000, 0x0000001F, 0x00000000⟩,
  -- LNK_CFG (R72)
  ⟨0x010004, 0x1000, 4, 0x00000016, 0x00000000, 0x00000000, 0x00000000, 0x00000000, 0x0000001F, 0x00000000⟩,
  -- LNK_REPLAY (R73)
  ⟨0x010008, 0x1000, 5, 0x00040810, 0x00000000, 0x00000000, 0x00000000, 0x00000000, 0x0007FFFF, 0x00000000⟩,
  -- LNK_ERRLIM (R73)
  ⟨0x01000C, 0x1000, 5, 0x00006420, 0x00000000, 0x00000000, 0x00000000, 0x00000000, 0x00FFFFFF, 0x00000000⟩,
  -- LNK_EVENT (R75)
  ⟨0x010020, 0x1000, 5, 0x00000000, 0x00000000, 0x00000000, 0x0000001F, 0x00000000, 0x00000000, 0x00000000⟩,
  -- LNK_NEG (R118)
  ⟨0x010030, 0x1000, 5, 0x00000000, 0x00000F33, 0x00000000, 0x00000000, 0x00000000, 0x00000000, 0x00000000⟩,
  -- LNK_FEAT (R119)
  ⟨0x010034, 0x1000, 5, 0x00000000, 0xFFFFFFFF, 0x00000000, 0x00000000, 0x00000000, 0x00000000, 0x00000000⟩,
  -- LNK_PEER (R119)
  ⟨0x010038, 0x1000, 5, 0x00000000, 0x001FFFFF, 0x00000000, 0x00000000, 0x00000000, 0x00000000, 0x00000000⟩,
  -- LNK_MARGIN (R76)
  ⟨0x010040, 0x1000, 5, 0x00000000, 0x00FF8000, 0x00007FEF, 0x00000000, 0x00000000, 0x00000000, 0x00000000⟩,
  -- LNK_BADFLIT (R74)
  ⟨0x010010, 0x1000, 5, 0x00000000, 0x00000000, 0x00000000, 0x00000000, 0xFFFFFFFF, 0x00000000, 0x00000000⟩,
  -- LNK_FECCORR (R74)
  ⟨0x010014, 0x1000, 5, 0x00000000, 0x00000000, 0x00000000, 0x00000000, 0xFFFFFFFF, 0x00000000, 0x00000000⟩,
  -- LNK_REPLAYS (R74)
  ⟨0x010018, 0x1000, 5, 0x00000000, 0x00000000, 0x00000000, 0x00000000, 0xFFFFFFFF, 0x00000000, 0x00000000⟩,
  -- LNK_RETRAINS (R74)
  ⟨0x01001C, 0x1000, 5, 0x00000000, 0x00000000, 0x00000000, 0x00000000, 0xFFFFFFFF, 0x00000000, 0x00000000⟩,
  -- LNK_BADSLOT (R74)
  ⟨0x010024, 0x1000, 5, 0x00000000, 0x00000000, 0x00000000, 0x00000000, 0xFFFFFFFF, 0x00000000, 0x00000000⟩,
  -- LNK_BADMSG (R117)
  ⟨0x010028, 0x1000, 5, 0x00000000, 0x00000000, 0x00000000, 0x00000000, 0xFFFFFFFF, 0x00000000, 0x00000000⟩
]

/-- The registers of block 0x2 (R529). -/
def regRowsOrd : List RegRow := [
  -- ORD_POOLOCC (R37)
  ⟨0x020100, 0x4, 1, 0x00000000, 0x00003FFF, 0x00000000, 0x00000000, 0x3FFF0000, 0x00000000, 0x00000000⟩,
  -- ORD_WBOCC (R37)
  ⟨0x020104, 0x4, 1, 0x00000000, 0x00003FFF, 0x00000000, 0x00000000, 0x3FFF0000, 0x00000000, 0x00000000⟩,
  -- ORD_RBOCC (R37)
  ⟨0x020108, 0x4, 1, 0x00000000, 0x00003FFF, 0x00000000, 0x00000000, 0x3FFF0000, 0x00000000, 0x00000000⟩,
  -- ORD_FWD (R142)
  ⟨0x020110, 0x4, 1, 0x00000000, 0x00000000, 0x00000000, 0x00000000, 0xFFFFFFFF, 0x00000000, 0x00000000⟩,
  -- ORD_LINEHOLD (R142)
  ⟨0x020114, 0x4, 1, 0x00000000, 0x00000000, 0x00000000, 0x00000000, 0xFFFFFFFF, 0x00000000, 0x00000000⟩,
  -- ORD_FLUSHES (R142)
  ⟨0x020118, 0x4, 1, 0x00000000, 0x00000000, 0x00000000, 0x00000000, 0xFFFFFFFF, 0x00000000, 0x00000000⟩,
  -- ORD_ACTSTR (R143)
  ⟨0x02011C, 0x4, 1, 0x00000000, 0x0001FFFF, 0x00000000, 0x00000000, 0x00000000, 0x00000000, 0x00000000⟩,
  -- ORD_STRSEL (R140)
  ⟨0x020200, 0x4, 1, 0x00000000, 0x00000000, 0x0000FFFF, 0x00000000, 0x00000000, 0x00000000, 0x00000000⟩,
  -- ORD_STRREC0 (R140)
  ⟨0x020204, 0x4, 1, 0x00000000, 0x3FFF9FFF, 0x00000000, 0x00000000, 0x00000000, 0x00000000, 0x00000000⟩,
  -- ORD_STRREC1 (R140)
  ⟨0x020208, 0x4, 1, 0x00000000, 0x00000000, 0x00000000, 0x00000000, 0x00000000, 0x00000000, 0x00001FFF⟩,
  -- ORD_STRREC2 (R140)
  ⟨0x02020C, 0x4, 1, 0x00000000, 0x00000000, 0x00000000, 0x00000000, 0x00000000, 0x00000000, 0xFFFFFFFF⟩,
  -- ORD_STRREC3 (R140)
  ⟨0x020210, 0x4, 1, 0x00000000, 0x00000000, 0x00000000, 0x00000000, 0x00000000, 0x00000000, 0xFFFFFFFF⟩,
  -- ORD_FRONT_LO (R141)
  ⟨0x020214, 0x4, 1, 0x00000000, 0xFFFFFFFF, 0x00000000, 0x00000000, 0x00000000, 0x00000000, 0x00000000⟩,
  -- ORD_FRONT_HI (R141)
  ⟨0x020218, 0x4, 1, 0x00000000, 0x00000000, 0x00000000, 0x00000000, 0x00000000, 0x00000000, 0xFFFFFFFF⟩
]

/-- The registers of block 0x3 (R529). -/
def regRowsMap : List RegRow := [
  -- MAP_HASHMASK0 (R165)
  ⟨0x030000, 0x4, 1, 0x04444000, 0x00000000, 0x00000000, 0x00000000, 0x00000000, 0xFFFFFFFF, 0x00000000⟩,
  -- MAP_HASHMASK1 (R165)
  ⟨0x030004, 0x4, 1, 0x08888000, 0x00000000, 0x00000000, 0x00000000, 0x00000000, 0xFFFFFFFF, 0x00000000⟩,
  -- MAP_HASHMASK2 (R165)
  ⟨0x030008, 0x4, 1, 0x11110000, 0x00000000, 0x00000000, 0x00000000, 0x00000000, 0xFFFFFFFF, 0x00000000⟩,
  -- MAP_HASHMASK3 (R165)
  ⟨0x03000C, 0x4, 1, 0x22220000, 0x00000000, 0x00000000, 0x00000000, 0x00000000, 0xFFFFFFFF, 0x00000000⟩,
  -- MAP_HASHMASK4 (R165)
  ⟨0x030010, 0x4, 1, 0x40000000, 0x00000000, 0x00000000, 0x00000000, 0x00000000, 0xFFFFFFFF, 0x00000000⟩,
  -- MAP_HASHMASK5 (R165)
  ⟨0x030014, 0x4, 1, 0x00000000, 0x00000000, 0x00000000, 0x00000000, 0x00000000, 0xFFFFFFFF, 0x00000000⟩,
  -- MAP_HASHMASK6 (R165)
  ⟨0x030018, 0x4, 1, 0x00000000, 0x00000000, 0x00000000, 0x00000000, 0x00000000, 0xFFFFFFFF, 0x00000000⟩,
  -- MAP_HASHMASK7 (R165)
  ⟨0x03001C, 0x4, 1, 0x00000000, 0x00000000, 0x00000000, 0x00000000, 0x00000000, 0xFFFFFFFF, 0x00000000⟩,
  -- MAP_HASHMASK8 (R165)
  ⟨0x030020, 0x4, 1, 0x00000000, 0x00000000, 0x00000000, 0x00000000, 0x00000000, 0xFFFFFFFF, 0x00000000⟩,
  -- MAP_HASHMASK9 (R165)
  ⟨0x030024, 0x4, 1, 0x00004004, 0x00000000, 0x00000000, 0x00000000, 0x00000000, 0xFFFFFFFF, 0x00000000⟩,
  -- MAP_HASHMASK10 (R165)
  ⟨0x030028, 0x4, 1, 0x00008008, 0x00000000, 0x00000000, 0x00000000, 0x00000000, 0xFFFFFFFF, 0x00000000⟩,
  -- MAP_HASHMASK11 (R165)
  ⟨0x03002C, 0x4, 1, 0x00010010, 0x00000000, 0x00000000, 0x00000000, 0x00000000, 0xFFFFFFFF, 0x00000000⟩,
  -- MAP_HASHMASK12 (R165)
  ⟨0x030030, 0x4, 1, 0x000A0000, 0x00000000, 0x00000000, 0x00000000, 0x00000000, 0xFFFFFFFF, 0x00000000⟩,
  -- MAP_HASHMASK13 (R165)
  ⟨0x030034, 0x4, 1, 0x00140000, 0x00000000, 0x00000000, 0x00000000, 0x00000000, 0xFFFFFFFF, 0x00000000⟩,
  -- MAP_GEOM (R166)
  ⟨0x030040, 0x4, 1, 0x0000034C, 0x00000000, 0x00000000, 0x00000000, 0x00000000, 0x0000037F, 0x00000000⟩,
  -- MAP_CAP (R167)
  ⟨0x030044, 0x4, 1, 0x00000000, 0x0000FFFF, 0x00000000, 0x00000000, 0x00000000, 0x00000000, 0x00000000⟩,
  -- MAP_USE (R167)
  ⟨0x030048, 0x4, 1, 0x00000000, 0xFFFFFFFF, 0x00000000, 0x00000000, 0x00000000, 0x00000000, 0x00000000⟩,
  -- MAP_RTPAGE (R168)
  ⟨0x030050, 0x4, 1, 0x00000000, 0x00000000, 0x0000001F, 0x00000000, 0x00000000, 0x00000000, 0x00000000⟩,
  -- MAP_RTERR (R169)
  ⟨0x030054, 0x4, 1, 0x00000000, 0x00000000, 0x00000000, 0x00000000, 0xFFFFFFFF, 0x00000000, 0x00000000⟩,
  -- MAP_REJ (R169)
  ⟨0x030058, 0x4, 1, 0x00000000, 0x00000000, 0x00000000, 0x00000000, 0xFFFFFFFF, 0x00000000, 0x00000000⟩,
  -- MAP_TBLSRC (R169)
  ⟨0x03005C, 0x4, 1, 0x00000000, 0x00000003, 0x00000000, 0x00000000, 0x00000000, 0x00000000, 0x00000004⟩,
  -- MAP_RTWIN (R146)
  ⟨0x038000, 0x4, 8192, 0x00000000, 0x00FC7FFF, 0x00000000, 0x00000000, 0x00000000, 0x00000000, 0x00000000⟩
]

/-- The registers of block 0x4 (R529). -/
def regRowsMir : List RegRow := [
  -- MIR_PAIR (R233)
  ⟨0x040000, 0x4, 1, 0x00000000, 0x000000FF, 0x00000000, 0x00000000, 0x00000000, 0x00000000, 0x00000000⟩,
  -- MIR_EPOCH (R233)
  ⟨0x040004, 0x4, 1, 0x00000000, 0xFFFFFFFF, 0x00000000, 0x00000000, 0x00000000, 0x00000000, 0x00000000⟩,
  -- MIR_PAIRCFG (R234)
  ⟨0x040008, 0x4, 1, 0x40320A00, 0x00000000, 0x00000000, 0x00000000, 0x00000000, 0xFFFFFF00, 0x00000000⟩,
  -- MIR_CAUSE (R235)
  ⟨0x04000C, 0x4, 1, 0x00000000, 0x000000FF, 0x00000000, 0x00000000, 0x0000FF00, 0x00000000, 0x00000000⟩,
  -- MIR_DIVCNT (R235)
  ⟨0x040010, 0x4, 1, 0x00000000, 0x01FFFFFF, 0x00000000, 0x00000000, 0x00000000, 0x00000000, 0x00000000⟩,
  -- MIR_WITNESS (R535)
  ⟨0x040018, 0x4, 1, 0x00000000, 0x00010000, 0x00000000, 0x00000000, 0x00000000, 0x0000FFFF, 0x00000000⟩,
  -- MIR_RBSTAT (R235)
  ⟨0x040100, 0x4, 1, 0x00000000, 0xF1FFFFFF, 0x00000000, 0x00000000, 0x00000000, 0x00000000, 0x00000000⟩,
  -- MIR_RBCUR (R235)
  ⟨0x040104, 0x4, 1, 0x00000000, 0x07FFFFFF, 0x00000000, 0x00000000, 0x00000000, 0x00000000, 0x00000000⟩,
  -- MIR_RBCFG (R234)
  ⟨0x040120, 0x4, 1, 0x00006419, 0x00000000, 0x00000000, 0x00000000, 0x00000000, 0x0000FF7F, 0x00000000⟩,
  -- MIR_ACKCFG (R197)
  ⟨0x040200, 0x4, 1, 0x100A1408, 0x00000000, 0x00000000, 0x00000000, 0x00000000, 0xFFFFFF3F, 0x00000000⟩,
  -- MIR_PENDOCC (R198)
  ⟨0x040204, 0x4, 1, 0x00000000, 0x00001FFF, 0x00000000, 0x00000000, 0x1FFF0000, 0x00000000, 0x00000000⟩,
  -- MIR_PENDSTAT (R198)
  ⟨0x040208, 0x4, 1, 0x00000000, 0x3FFF1FFF, 0x00000000, 0x00000000, 0x00000000, 0x00000000, 0x00000000⟩,
  -- MIR_HOSTAT (R200)
  ⟨0x040228, 0x4, 1, 0x00000000, 0xFE03FFFF, 0x00000000, 0x00000000, 0x00000000, 0x00000000, 0x00000000⟩,
  -- MIR_HOCNT (R201)
  ⟨0x04022C, 0x4, 1, 0x00000000, 0x00000000, 0x00000000, 0x00000000, 0xFFFFFFFF, 0x00000000, 0x00000000⟩,
  -- MIR_DIVMISS (R236)
  ⟨0x040014, 0x4, 1, 0x00000000, 0x00000000, 0x00000000, 0x00000000, 0xFFFFFFFF, 0x00000000, 0x00000000⟩,
  -- MIR_RBLINES (R236)
  ⟨0x040108, 0x4, 1, 0x00000000, 0x00000000, 0x00000000, 0x00000000, 0xFFFFFFFF, 0x00000000, 0x00000000⟩,
  -- MIR_FILTERED (R236)
  ⟨0x04010C, 0x4, 1, 0x00000000, 0x00000000, 0x00000000, 0x00000000, 0xFFFFFFFF, 0x00000000, 0x00000000⟩,
  -- MIR_HBBAD (R236)
  ⟨0x040230, 0x4, 1, 0x00000000, 0x00000000, 0x00000000, 0x00000000, 0xFFFFFFFF, 0x00000000, 0x00000000⟩,
  -- MIR_REPLSENT (R199)
  ⟨0x040210, 0x4, 1, 0x00000000, 0x00000000, 0x00000000, 0x00000000, 0xFFFFFFFF, 0x00000000, 0x00000000⟩,
  -- MIR_REPLADM (R199)
  ⟨0x040214, 0x4, 1, 0x00000000, 0x00000000, 0x00000000, 0x00000000, 0xFFFFFFFF, 0x00000000, 0x00000000⟩,
  -- MIR_REPLREJ (R199)
  ⟨0x040218, 0x4, 1, 0x00000000, 0x00000000, 0x00000000, 0x00000000, 0xFFFFFFFF, 0x00000000, 0x00000000⟩,
  -- MIR_ACKBAD (R199)
  ⟨0x04021C, 0x4, 1, 0x00000000, 0x00000000, 0x00000000, 0x00000000, 0xFFFFFFFF, 0x00000000, 0x00000000⟩,
  -- MIR_FWDRD (R199)
  ⟨0x040220, 0x4, 1, 0x00000000, 0x00000000, 0x00000000, 0x00000000, 0xFFFFFFFF, 0x00000000, 0x00000000⟩,
  -- MIR_FWDMISS (R199)
  ⟨0x040224, 0x4, 1, 0x00000000, 0x00000000, 0x00000000, 0x00000000, 0xFFFFFFFF, 0x00000000, 0x00000000⟩
]

/-- The registers of block 0x5 (R529). -/
def regRowsSch : List RegRow := [
  -- SCH_STAT (R263)
  ⟨0x050000, 0x400, 16, 0x00000000, 0x001FFFFD, 0x00000000, 0x00000000, 0x00000000, 0x00000000, 0x00000000⟩,
  -- SCH_STOREOCC (R263)
  ⟨0x050004, 0x400, 16, 0x00000000, 0x000001FF, 0x00000000, 0x00000000, 0x01FF0000, 0x00000000, 0x00000000⟩,
  -- SCH_REFSTAT (R264)
  ⟨0x050008, 0x400, 16, 0x00000000, 0x00000F0F, 0x00000000, 0x00000000, 0x00000000, 0x00000000, 0x00000000⟩,
  -- SCH_SCRUBPOS (R264)
  ⟨0x050030, 0x400, 16, 0x00000000, 0x01FFFFFF, 0x00000000, 0x00000000, 0x00000000, 0x00000000, 0x00000000⟩,
  -- SCH_SCRUBPASS (R264)
  ⟨0x050034, 0x400, 16, 0x00000000, 0x0000FFFF, 0x00000000, 0x00000000, 0x00000000, 0x00000000, 0x00000000⟩,
  -- SCH_REFSB (R265)
  ⟨0x050010, 0x400, 16, 0x00000000, 0x00000000, 0x00000000, 0x00000000, 0xFFFFFFFF, 0x00000000, 0x00000000⟩,
  -- SCH_REFAB (R265)
  ⟨0x050014, 0x400, 16, 0x00000000, 0x00000000, 0x00000000, 0x00000000, 0xFFFFFFFF, 0x00000000, 0x00000000⟩,
  -- SCH_TURNS (R265)
  ⟨0x050018, 0x400, 16, 0x00000000, 0x00000000, 0x00000000, 0x00000000, 0xFFFFFFFF, 0x00000000, 0x00000000⟩,
  -- SCH_AGED (R265)
  ⟨0x05001C, 0x400, 16, 0x00000000, 0x00000000, 0x00000000, 0x00000000, 0xFFFFFFFF, 0x00000000, 0x00000000⟩,
  -- SCH_SUPERSEDED (R265)
  ⟨0x050020, 0x400, 16, 0x00000000, 0x00000000, 0x00000000, 0x00000000, 0xFFFFFFFF, 0x00000000, 0x00000000⟩,
  -- SCH_SCRUBLINES (R265)
  ⟨0x050024, 0x400, 16, 0x00000000, 0x00000000, 0x00000000, 0x00000000, 0xFFFFFFFF, 0x00000000, 0x00000000⟩,
  -- SCH_SCRUBSKIP (R265)
  ⟨0x050028, 0x400, 16, 0x00000000, 0x00000000, 0x00000000, 0x00000000, 0xFFFFFFFF, 0x00000000, 0x00000000⟩,
  -- SCH_MAINTACT (R265)
  ⟨0x05002C, 0x400, 16, 0x00000000, 0x00000000, 0x00000000, 0x00000000, 0xFFFFFFFF, 0x00000000, 0x00000000⟩,
  -- SCH_TSET0 (R262)
  ⟨0x054000, 0x4, 28, 0x00000000, 0x00000000, 0x00000000, 0x00000000, 0x00000000, 0x0000FFFF, 0x00000000⟩,
  -- SCH_TSET1 (R262)
  ⟨0x054100, 0x4, 28, 0x00000000, 0x00000000, 0x00000000, 0x00000000, 0x00000000, 0x0000FFFF, 0x00000000⟩,
  -- SCH_TSET2 (R262)
  ⟨0x054200, 0x4, 28, 0x00000000, 0x00000000, 0x00000000, 0x00000000, 0x00000000, 0x0000FFFF, 0x00000000⟩,
  -- SCH_TSET3 (R262)
  ⟨0x054300, 0x4, 28, 0x00000000, 0x00000000, 0x00000000, 0x00000000, 0x00000000, 0x0000FFFF, 0x00000000⟩,
  -- SCH_CFG (R266)
  ⟨0x054400, 0x4, 1, 0x02081030, 0x00000000, 0x00000000, 0x00000000, 0x00000000, 0x0FFFFFFF, 0x00000000⟩,
  -- SCH_PDCFG (R266)
  ⟨0x054404, 0x4, 1, 0x00000110, 0x00000000, 0x00000000, 0x00000000, 0x00000000, 0x000001FF, 0x00000000⟩,
  -- SCH_REFCFG (R266)
  ⟨0x054408, 0x4, 1, 0x00100262, 0x00000000, 0x00000000, 0x00000000, 0x00000000, 0x00FF0FFF, 0x00000000⟩,
  -- SCH_SCRUBCFG (R267)
  ⟨0x05440C, 0x4, 1, 0x00000018, 0x000003FF, 0x00000000, 0x00000000, 0x00000000, 0x00000000, 0x00000000⟩,
  -- SCH_SCRUBINT (R267)
  ⟨0x054410, 0x4, 1, 0x00000000, 0x00FFFFFF, 0x00000000, 0x00000000, 0x00000000, 0x00000000, 0x00000000⟩
]

/-- The registers of block 0x6 (R529). -/
def regRowsDph : List RegRow := [
  -- DPH_STAT (R289)
  ⟨0x060000, 0x1000, 16, 0x00000000, 0xFFFFF001, 0x00000000, 0x00000000, 0x00000000, 0x00000000, 0x00000000⟩,
  -- DPH_DEVSEEN (R290)
  ⟨0x060004, 0x1000, 16, 0x00000000, 0x3FFFFFE0, 0x00000000, 0x00000000, 0x00000000, 0x00000000, 0x00000000⟩,
  -- DPH_EYESEL (R291)
  ⟨0x060010, 0x1000, 16, 0x00000000, 0x00000000, 0x000001FB, 0x00000000, 0x00000000, 0x00000000, 0x00000000⟩,
  -- DPH_EYEA (R291)
  ⟨0x060014, 0x1000, 16, 0x00000000, 0xFF7FFFFF, 0x00000000, 0x00000000, 0x00000000, 0x00000000, 0x00000000⟩,
  -- DPH_EYEB (R291)
  ⟨0x060018, 0x1000, 16, 0x00000000, 0x00000000, 0x00000000, 0x00000000, 0x00000000, 0x00000000, 0x000000FF⟩,
  -- DPH_WORST (R292)
  ⟨0x06001C, 0x1000, 16, 0x00000000, 0x00FFFFFF, 0x00000000, 0x00000000, 0x00000000, 0x00000000, 0x00000000⟩,
  -- DPH_TRAINTIME (R292)
  ⟨0x060020, 0x1000, 16, 0x00000000, 0x000FFFFF, 0x00000000, 0x00000000, 0x00000000, 0x00000000, 0x00000000⟩,
  -- DPH_TRAINCFG (R293)
  ⟨0x060F00, 0x4, 1, 0x01010410, 0x00000000, 0x00000000, 0x00000000, 0x00000000, 0x0103FFFF, 0x00000000⟩,
  -- DPH_RETSTAT (R293)
  ⟨0x060F04, 0x4, 1, 0x00000004, 0x00000001, 0x00000000, 0x00000000, 0x00000000, 0x00000000, 0x0000001E⟩,
  -- DPH_DFE (R535)
  ⟨0x060F10, 0x4, 4, 0x00000000, 0x00000000, 0x00000000, 0x00000000, 0x00000000, 0xFFFFFFFF, 0x00000000⟩
]

/-- The registers of block 0x7 (R529). -/
def regRowsCal : List RegRow := [
  -- CAL_CFG (R313)
  ⟨0x070000, 0x4, 1, 0x1E0A0601, 0x00000000, 0x00000000, 0x00000000, 0x00000000, 0xFFFF1F01, 0x00000000⟩,
  -- CAL_MEAS (R313)
  ⟨0x070004, 0x4, 1, 0x20644810, 0x00000000, 0x00000000, 0x00000000, 0x00000000, 0xFFFFFFFF, 0x00000000⟩,
  -- CAL_LIMIT (R313)
  ⟨0x070008, 0x4, 1, 0x03042036, 0x00000000, 0x00000000, 0x00000000, 0x00000000, 0x07FFFFFF, 0x00000000⟩,
  -- CAL_STAT (R314)
  ⟨0x070010, 0x4, 1, 0x00000000, 0xFFFFFFFF, 0x00000000, 0x00000000, 0x00000000, 0x00000000, 0x00000000⟩,
  -- CAL_STALE (R314)
  ⟨0x070014, 0x4, 1, 0x00000000, 0xFFFFFFFF, 0x00000000, 0x00000000, 0x00000000, 0x00000000, 0x00000000⟩,
  -- CAL_DERIVED (R314)
  ⟨0x070018, 0x4, 1, 0x00000000, 0xFFFFFFFF, 0x00000000, 0x00000000, 0x00000000, 0x00000000, 0x00000000⟩,
  -- CAL_RECSEL (R317)
  ⟨0x070100, 0x4, 1, 0x00000000, 0x80000000, 0x000000FF, 0x00000000, 0x00000000, 0x00000000, 0x00000000⟩,
  -- CAL_RUNS (R315)
  ⟨0x070020, 0x4, 1, 0x00000000, 0x00000000, 0x00000000, 0x00000000, 0xFFFFFFFF, 0x00000000, 0x00000000⟩,
  -- CAL_REJECTS (R315)
  ⟨0x070024, 0x4, 1, 0x00000000, 0x00000000, 0x00000000, 0x00000000, 0xFFFFFFFF, 0x00000000, 0x00000000⟩,
  -- CAL_STEPS (R315)
  ⟨0x070028, 0x4, 1, 0x00000000, 0x00000000, 0x00000000, 0x00000000, 0xFFFFFFFF, 0x00000000, 0x00000000⟩,
  -- CAL_SWITCHES (R315)
  ⟨0x07002C, 0x4, 1, 0x00000000, 0x00000000, 0x00000000, 0x00000000, 0xFFFFFFFF, 0x00000000, 0x00000000⟩,
  -- CAL_ABANDONED (R315)
  ⟨0x070030, 0x4, 1, 0x00000000, 0x00000000, 0x00000000, 0x00000000, 0xFFFFFFFF, 0x00000000, 0x00000000⟩,
  -- CAL_TEMP (R316)
  ⟨0x070040, 0x4, 16, 0x00000000, 0x0001FFFF, 0x00000000, 0x00000000, 0x00000000, 0x00000000, 0x00000000⟩,
  -- CAL_REC (R317)
  ⟨0x070400, 0x4, 256, 0x00000000, 0x00000000, 0x00000000, 0x00000000, 0x00000000, 0x00000000, 0xFFFFFFFF⟩,
  -- CAL_STAGE (R317)
  ⟨0x070800, 0x4, 256, 0x00000000, 0x00000000, 0xFFFFFFFF, 0x00000000, 0x00000000, 0x00000000, 0x00000000⟩
]

/-- The registers of block 0x8 (R529). -/
def regRowsEcc : List RegRow := [
  -- ECC_SEALFAIL (R334)
  ⟨0x080000, 0x4, 1, 0x00000000, 0x00000000, 0x00000000, 0x00000000, 0xFFFFFFFF, 0x00000000, 0x00000000⟩,
  -- ECC_POISONIN (R336)
  ⟨0x080004, 0x4, 1, 0x00000000, 0x00000000, 0x00000000, 0x00000000, 0xFFFFFFFF, 0x00000000, 0x00000000⟩,
  -- ECC_POISONOUT (R336)
  ⟨0x080008, 0x4, 1, 0x00000000, 0x00000000, 0x00000000, 0x00000000, 0xFFFFFFFF, 0x00000000, 0x00000000⟩,
  -- ECC_DECODE (R336)
  ⟨0x08000C, 0x4, 1, 0x00000000, 0x00000000, 0x00000000, 0x00000000, 0xFFFFFFFF, 0x00000000, 0x00000000⟩,
  -- ECC_FIRSTFAIL (R335)
  ⟨0x080014, 0x4, 1, 0x00000000, 0x00000000, 0x00000000, 0x00000000, 0x00000000, 0x00000000, 0xFFFFFF81⟩,
  -- ECC_THRESH (R366)
  ⟨0x080020, 0x4, 1, 0x3C400410, 0x00000000, 0x00000000, 0x00000000, 0x00000000, 0xFFFFFFFF, 0x00000000⟩,
  -- ECC_ALERTCFG (R366)
  ⟨0x080024, 0x4, 1, 0x00032010, 0x00000000, 0x00000000, 0x00000000, 0x00000000, 0x0003FFFF, 0x00000000⟩,
  -- ECC_SPARECFG (R366)
  ⟨0x080028, 0x4, 1, 0x00000019, 0x00000000, 0x00000000, 0x00000000, 0x00000000, 0x0000017F, 0x00000000⟩,
  -- ECC_SPARESTAT (R367)
  ⟨0x08002C, 0x4, 1, 0x00000000, 0xDF03FFFF, 0x00000000, 0x00000000, 0x00000000, 0x00000000, 0x00000000⟩,
  -- ECC_RETIRED (R367)
  ⟨0x080030, 0x4, 1, 0x00000000, 0xFFFFFFFF, 0x00000000, 0x00000000, 0x00000000, 0x00000000, 0x00000000⟩,
  -- ECC_WANT (R367)
  ⟨0x080034, 0x4, 1, 0x00000000, 0xFFFFFFFF, 0x00000000, 0x00000000, 0x00000000, 0x00000000, 0x00000000⟩,
  -- ECC_REPAIR (R368)
  ⟨0x080038, 0x4, 1, 0x00000000, 0x00000000, 0x00000000, 0x00000000, 0xFFFFFFFF, 0x00000000, 0x00000000⟩,
  -- ECC_REPAIRW (R368)
  ⟨0x08003C, 0x4, 1, 0x00000000, 0x00000000, 0x00000000, 0x00000000, 0xFFFFFFFF, 0x00000000, 0x00000000⟩,
  -- ECC_ADDRMIS (R337)
  ⟨0x080010, 0x4, 1, 0x00000000, 0x00000000, 0x00000000, 0x00000000, 0xFFFFFFFF, 0x00000000, 0x00000000⟩,
  -- ECC_RKCORR (R369)
  ⟨0x080100, 0x10, 32, 0x00000000, 0x00000000, 0x00000000, 0x00000000, 0xFFFFFFFF, 0x00000000, 0x00000000⟩,
  -- ECC_RKUNCORR (R369)
  ⟨0x080104, 0x10, 32, 0x00000000, 0x00000000, 0x00000000, 0x00000000, 0xFFFFFFFF, 0x00000000, 0x00000000⟩,
  -- ECC_RKBUCKET (R369)
  ⟨0x080108, 0x10, 32, 0x00000000, 0xFFFFFFF0, 0x00000000, 0x00000000, 0x00000000, 0x00000000, 0x00000000⟩,
  -- ECC_RKSTATE (R369)
  ⟨0x08010C, 0x10, 32, 0x00000000, 0x000007FF, 0x00000000, 0x00000000, 0x00000000, 0x00000000, 0x00000000⟩
]

/-- The registers of block 0x9 (R529). -/
def regRowsClk : List RegRow := [
  -- CLK_STAT (R392)
  ⟨0x090000, 0x4, 1, 0x00000000, 0xFFFF7FF0, 0x00000000, 0x00000000, 0x00000000, 0x00000000, 0x00000000⟩,
  -- CLK_CFG (R393)
  ⟨0x090004, 0x4, 1, 0x640A0000, 0x00000000, 0x00000000, 0x00000000, 0x00000000, 0xFFFF0003, 0x00000000⟩,
  -- CLK_SSC (R393)
  ⟨0x090008, 0x4, 1, 0x00000000, 0x00000000, 0x00000000, 0x00000000, 0x00000000, 0x01070F03, 0x00000000⟩,
  -- CLK_LOCKCFG (R393)
  ⟨0x09000C, 0x4, 1, 0x00004004, 0x00000000, 0x00000000, 0x00000000, 0x00000000, 0x0000FF0F, 0x00000000⟩,
  -- CLK_LULLSTAT (R395)
  ⟨0x090020, 0x4, 1, 0x00000000, 0xF000FFFF, 0x00000000, 0x00000000, 0x00000000, 0x00000000, 0x00000000⟩,
  -- CLK_MEMLOCK (R395)
  ⟨0x090024, 0x4, 1, 0x00000000, 0x00011F1F, 0x00000000, 0x00000000, 0x00000000, 0x00000000, 0x00000000⟩,
  -- CLK_TSET (R394)
  ⟨0x090010, 0x4, 4, 0x0000000A, 0x00007F00, 0x00000000, 0x00000000, 0x00000000, 0x0000000F, 0x00000000⟩,
  -- CLK_DLL (R396)
  ⟨0x090040, 0x4, 16, 0x00000000, 0xC0FF007F, 0x00000000, 0x00000000, 0x00000000, 0x00000000, 0x00000000⟩,
  -- CLK_LULLS (R397)
  ⟨0x090080, 0x4, 1, 0x00000000, 0x00000000, 0x00000000, 0x00000000, 0xFFFFFFFF, 0x00000000, 0x00000000⟩,
  -- CLK_EMERG (R397)
  ⟨0x090084, 0x4, 1, 0x00000000, 0x00000000, 0x00000000, 0x00000000, 0xFFFFFFFF, 0x00000000, 0x00000000⟩,
  -- CLK_REFLOSS (R397)
  ⟨0x090088, 0x4, 1, 0x00000000, 0x00000000, 0x00000000, 0x00000000, 0xFFFFFFFF, 0x00000000, 0x00000000⟩,
  -- CLK_DLLLOSS (R397)
  ⟨0x09008C, 0x4, 1, 0x00000000, 0x00000000, 0x00000000, 0x00000000, 0xFFFFFFFF, 0x00000000, 0x00000000⟩,
  -- CLK_LULLIGN (R397)
  ⟨0x090090, 0x4, 1, 0x00000000, 0x00000000, 0x00000000, 0x00000000, 0xFFFFFFFF, 0x00000000, 0x00000000⟩,
  -- CLK_BANDSRCH (R397)
  ⟨0x090094, 0x4, 1, 0x00000000, 0x00000000, 0x00000000, 0x00000000, 0xFFFFFFFF, 0x00000000, 0x00000000⟩
]

/-- The registers of block 0xA (R529). -/
def regRowsPwr : List RegRow := [
  -- PWR_RAILWIN (R419)
  ⟨0x0A0000, 0x4, 16, 0x00000000, 0x00000000, 0x00000000, 0x00000000, 0x00000000, 0x0FFF0FFF, 0x00000000⟩,
  -- PWR_RAILCFG (R419)
  ⟨0x0A0040, 0x4, 16, 0x00000000, 0x00000000, 0x00000000, 0x00000000, 0x00000000, 0x0FFFEFFF, 0x00000000⟩,
  -- PWR_START rows 0 to 3, from the fuse page (R420, R529)
  ⟨0x0A0080, 0x4, 4, 0x00000000, 0xEFFFFFFF, 0x00000000, 0x00000000, 0x00000000, 0x00000000, 0x00000000⟩,
  -- PWR_START rows 4 to 31, from the image (R420)
  ⟨0x0A0090, 0x4, 28, 0x00000000, 0x00000000, 0x00000000, 0x00000000, 0x00000000, 0xEFFFFFFF, 0x00000000⟩,
  -- PWR_STOP (R420)
  ⟨0x0A0100, 0x4, 16, 0x00000000, 0x00000000, 0x00000000, 0x00000000, 0x00000000, 0xCFFFFF00, 0x00000000⟩,
  -- PWR_RSTCFG (R421)
  ⟨0x0A0140, 0x4, 1, 0x01010101, 0x00000000, 0x00000000, 0x00000000, 0x00000000, 0xFFFFFFFF, 0x00000000⟩,
  -- PWR_RAILSTAT (R421)
  ⟨0x0A0144, 0x4, 1, 0x00000000, 0xFFFFFFFF, 0x00000000, 0x00000000, 0x00000000, 0x00000000, 0x00000000⟩,
  -- PWR_SEQSTAT (R421)
  ⟨0x0A0148, 0x4, 1, 0x00000000, 0xFF8FFFFF, 0x00000000, 0x00000000, 0x00000000, 0x00000000, 0x00000000⟩,
  -- PWR_RAILRD (R422)
  ⟨0x0A0180, 0x4, 16, 0x0FFF0000, 0x00000FFF, 0x00000000, 0x00000000, 0x0FFF0000, 0x00000000, 0x00000000⟩,
  -- PWR_SNAPHDR (R423)
  ⟨0x0A01C0, 0x4, 1, 0x00000000, 0x00000000, 0x00000000, 0x00000000, 0x00000000, 0x00000000, 0xFFF0FFFF⟩,
  -- PWR_SNAPSTAMP_LO (R423)
  ⟨0x0A01C4, 0x4, 1, 0x00000000, 0x00000000, 0x00000000, 0x00000000, 0x00000000, 0x00000000, 0xFFFFFFFF⟩,
  -- PWR_SNAPSTAMP_HI (R423)
  ⟨0x0A01C8, 0x4, 1, 0x00000000, 0x00000000, 0x00000000, 0x00000000, 0x00000000, 0x00000000, 0xFFFFFFFF⟩,
  -- PWR_SNAPRD (R423)
  ⟨0x0A01D0, 0x4, 8, 0x00000000, 0x00000000, 0x00000000, 0x00000000, 0x00000000, 0x00000000, 0x0FFF0FFF⟩,
  -- PWR_FAULTS (R423)
  ⟨0x0A01F0, 0x4, 1, 0x00000000, 0xFFFFFFFF, 0x00000000, 0x00000000, 0x00000000, 0x00000000, 0x00000000⟩,
  -- PWR_FEEDWINA (R451)
  ⟨0x0A0200, 0x4, 1, 0x00000000, 0x00000000, 0x00000000, 0x00000000, 0x00000000, 0x0FFF0FFF, 0x00000000⟩,
  -- PWR_FEEDWINB (R451)
  ⟨0x0A0204, 0x4, 1, 0x00000000, 0x00000000, 0x00000000, 0x00000000, 0x00000000, 0x0FFF0FFF, 0x00000000⟩,
  -- PWR_FEEDCFG (R452)
  ⟨0x0A0208, 0x4, 1, 0x14140000, 0x00000000, 0x00000000, 0x00000000, 0x00000000, 0xFFFFFF00, 0x00000000⟩,
  -- PWR_VEERCFG (R452)
  ⟨0x0A020C, 0x4, 1, 0x00000050, 0x00000000, 0x00000000, 0x00000000, 0x00000000, 0x000000FF, 0x00000000⟩,
  -- PWR_PLWCFG (R452)
  ⟨0x0A0210, 0x4, 1, 0x00000A0A, 0x00000000, 0x00000000, 0x00000000, 0x00000000, 0x0001FFFF, 0x00000000⟩,
  -- PWR_BBUWIN (R453)
  ⟨0x0A0214, 0x4, 1, 0x00000000, 0x00000000, 0x00000000, 0x00000000, 0x00000000, 0x0FFF0FFF, 0x00000000⟩,
  -- PWR_BBUCFG (R453)
  ⟨0x0A0218, 0x4, 1, 0x003C1E0A, 0x00000000, 0x00000000, 0x00000000, 0x00000000, 0x0FFFFFFF, 0x00000000⟩,
  -- PWR_GAUGECFG (R453)
  ⟨0x0A021C, 0x4, 1, 0x00000000, 0x00000000, 0x00000000, 0x00000000, 0x00000000, 0xFFFFFFFF, 0x00000000⟩,
  -- PWR_FEEDSTAT (R454)
  ⟨0x0A0220, 0x4, 1, 0x00000000, 0x000001FF, 0x00000000, 0x00000600, 0x00000000, 0x00000000, 0x00000000⟩,
  -- PWR_HOLD (R454)
  ⟨0x0A0224, 0x4, 1, 0x00000100, 0x0000FF0F, 0x00000000, 0x00000000, 0x00000000, 0x00000000, 0x00000010⟩,
  -- PWR_CONTENTS (R454)
  ⟨0x0A0228, 0x4, 1, 0x00000000, 0x000003F3, 0x00000000, 0x00000000, 0x00000000, 0x00000000, 0x00000000⟩,
  -- PWR_GAUGE (R455)
  ⟨0x0A0230, 0x4, 1, 0x00000000, 0xFFFFFFFF, 0x00000000, 0x00000000, 0x00000000, 0x00000000, 0x00000000⟩,
  -- PWR_GAUGEVS (R455)
  ⟨0x0A0234, 0x4, 1, 0x00000000, 0xFFFFFFFF, 0x00000000, 0x00000000, 0x00000000, 0x00000000, 0x00000000⟩,
  -- PWR_GAUGECUR (R455)
  ⟨0x0A0238, 0x4, 1, 0xFF000000, 0xFF00FFFF, 0x00000000, 0x00000000, 0x00000000, 0x00000000, 0x00000000⟩,
  -- PWR_GUSTSTAT (R455)
  ⟨0x0A023C, 0x4, 1, 0x00000000, 0xFFFFC3FF, 0x00000000, 0x00000000, 0x00000000, 0x00000000, 0x00000000⟩,
  -- PWR_VBBURD (R455)
  ⟨0x0A022C, 0x4, 1, 0x0FFF0000, 0x00000FFF, 0x00000000, 0x00000000, 0x0FFF0000, 0x00000000, 0x00000000⟩,
  -- PWR_VEERS (R456)
  ⟨0x0A0240, 0x4, 1, 0x00000000, 0x00000000, 0x00000000, 0x00000000, 0xFFFFFFFF, 0x00000000, 0x00000000⟩,
  -- PWR_GUSTS (R456)
  ⟨0x0A0244, 0x4, 1, 0x00000000, 0x00000000, 0x00000000, 0x00000000, 0xFFFFFFFF, 0x00000000, 0x00000000⟩,
  -- PWR_FALSEGUST (R456)
  ⟨0x0A0248, 0x4, 1, 0x00000000, 0x00000000, 0x00000000, 0x00000000, 0xFFFFFFFF, 0x00000000, 0x00000000⟩,
  -- PWR_PLWDISC (R456)
  ⟨0x0A024C, 0x4, 1, 0x00000000, 0x00000000, 0x00000000, 0x00000000, 0xFFFFFFFF, 0x00000000, 0x00000000⟩,
  -- PWR_GAUGEDIS (R456)
  ⟨0x0A0250, 0x4, 1, 0x00000000, 0x00000000, 0x00000000, 0x00000000, 0xFFFFFFFF, 0x00000000, 0x00000000⟩
]

/-- The registers of block 0xB (R529). -/
def regRowsMgt : List RegRow := [
  -- MGT_BOOTSTAT (R485)
  ⟨0x0B0000, 0x4, 1, 0x00000000, 0xFF0F00F3, 0x00000000, 0x00000000, 0x0000FF00, 0x00000000, 0x00000000⟩,
  -- MGT_IMGVER (R485)
  ⟨0x0B0004, 0x4, 1, 0x00000000, 0xFFFFFFFF, 0x00000000, 0x00000000, 0x00000000, 0x00000000, 0x00000000⟩,
  -- MGT_IMGSTAT (R486)
  ⟨0x0B0008, 0x4, 1, 0x00000000, 0xFFFF00FF, 0x00000000, 0x00000000, 0x00000000, 0x00000000, 0x00000000⟩,
  -- MGT_ROLLBACK (R486)
  ⟨0x0B000C, 0x4, 1, 0x00000000, 0x0001FF00, 0x00000000, 0x00000000, 0x00000000, 0x00000000, 0x000000FF⟩,
  -- MGT_FUSESTAT (R487)
  ⟨0x0B0010, 0x4, 1, 0x00000000, 0x00000000, 0x00000000, 0x00000000, 0x00000000, 0x00000000, 0xFFFF7F03⟩,
  -- MGT_RBDELAY (R535)
  ⟨0x0B001C, 0x4, 1, 0x0000003C, 0x00000000, 0x00000000, 0x00000000, 0x00000000, 0x00003FFF, 0x00000000⟩,
  -- MGT_FLCMD (R488)
  ⟨0x0B0040, 0x4, 1, 0x00000000, 0xF0000000, 0x0000000F, 0x00000000, 0x00000000, 0x00000000, 0x00000000⟩,
  -- MGT_FLADDR (R488)
  ⟨0x0B0044, 0x4, 1, 0x00000000, 0x00000000, 0x01FFFFFF, 0x00000000, 0x00000000, 0x00000000, 0x00000000⟩,
  -- MGT_CIPHCTL (R489)
  ⟨0x0B0400, 0x4, 1, 0x00000000, 0xC01F0000, 0x0000003F, 0x00000000, 0x00000000, 0x00000000, 0x00000000⟩,
  -- MGT_DIEID_LO (R487)
  ⟨0x0B0014, 0x4, 1, 0x00000000, 0x00000000, 0x00000000, 0x00000000, 0x00000000, 0x00000000, 0xFFFFFFFF⟩,
  -- MGT_DIEID_HI (R487)
  ⟨0x0B0018, 0x4, 1, 0x00000000, 0x00000000, 0x00000000, 0x00000000, 0x00000000, 0x00000000, 0xFFFFFFFF⟩,
  -- MGT_FLPAGE (R488)
  ⟨0x0B0100, 0x4, 64, 0x00000000, 0x00000000, 0xFFFFFFFF, 0x00000000, 0x00000000, 0x00000000, 0x00000000⟩,
  -- MGT_CIPHIN (R489)
  ⟨0x0B0410, 0x4, 4, 0x00000000, 0x00000000, 0xFFFFFFFF, 0x00000000, 0x00000000, 0x00000000, 0x00000000⟩,
  -- MGT_CIPHOUT (R489)
  ⟨0x0B0420, 0x4, 4, 0x00000000, 0xFFFFFFFF, 0x00000000, 0x00000000, 0x00000000, 0x00000000, 0x00000000⟩
]

/-- The registers of block 0xC (R529). -/
def regRowsTim : List RegRow := [
  -- TIM_NOW_LO (R520)
  ⟨0x0C0000, 0x4, 1, 0x00000000, 0xFFFFFFFF, 0x00000000, 0x00000000, 0x00000000, 0x00000000, 0x00000000⟩,
  -- TIM_NOW_HI (R520)
  ⟨0x0C0004, 0x4, 1, 0x00000000, 0x00000000, 0x00000000, 0x00000000, 0x00000000, 0x00000000, 0xFFFFFFFF⟩,
  -- TIM_WALL_LO (R520)
  ⟨0x0C0008, 0x4, 1, 0x00000000, 0x00000000, 0x00000000, 0x00000000, 0x00000000, 0x00000000, 0xFFFFFFFF⟩,
  -- TIM_WALL_HI (R520)
  ⟨0x0C000C, 0x4, 1, 0x00000000, 0x00000000, 0x00000000, 0x00000000, 0x00000000, 0x00000000, 0xFFFFFFFF⟩,
  -- TIM_OFFSET_LO (R520)
  ⟨0x0C0010, 0x4, 1, 0x00000000, 0xFFFFFFFF, 0x00000000, 0x00000000, 0x00000000, 0x00000000, 0x00000000⟩,
  -- TIM_OFFSET_HI (R520)
  ⟨0x0C0014, 0x4, 1, 0x00000000, 0x00000000, 0x00000000, 0x00000000, 0x00000000, 0x00000000, 0xFFFFFFFF⟩,
  -- TIM_STAT (R521)
  ⟨0x0C0018, 0x4, 1, 0x00000070, 0xFFFF00F7, 0x00000000, 0x00000000, 0x00000000, 0x00000000, 0x00000000⟩,
  -- TIM_CFG (R521)
  ⟨0x0C001C, 0x4, 1, 0x0000041F, 0x00000000, 0x00000000, 0x00000000, 0x00000000, 0x0000FF1F, 0x00000000⟩,
  -- TIM_RATE (R522)
  ⟨0x0C0020, 0x4, 1, 0x00000000, 0xFFFFFFFF, 0x00000000, 0x00000000, 0x00000000, 0x00000000, 0x00000000⟩,
  -- TIM_LASTERR (R522)
  ⟨0x0C0024, 0x4, 1, 0x00000000, 0xFFFFFFFF, 0x00000000, 0x00000000, 0x00000000, 0x00000000, 0x00000000⟩,
  -- TIM_BEACONS (R523)
  ⟨0x0C0030, 0x4, 1, 0x00000000, 0x00000000, 0x00000000, 0x00000000, 0xFFFFFFFF, 0x00000000, 0x00000000⟩,
  -- TIM_BEACONIGN (R523)
  ⟨0x0C0034, 0x4, 1, 0x00000000, 0x00000000, 0x00000000, 0x00000000, 0xFFFFFFFF, 0x00000000, 0x00000000⟩,
  -- TIM_STEPS (R523)
  ⟨0x0C0038, 0x4, 1, 0x00000000, 0x00000000, 0x00000000, 0x00000000, 0xFFFFFFFF, 0x00000000, 0x00000000⟩,
  -- TIM_SYNCEDGES (R523)
  ⟨0x0C003C, 0x4, 1, 0x00000000, 0x00000000, 0x00000000, 0x00000000, 0xFFFFFFFF, 0x00000000, 0x00000000⟩
]

/-- The registers of block 0xD (R529). -/
def regRowsLog : List RegRow := [
  -- LOG_RINGSTAT (R524)
  ⟨0x0D0000, 0x4, 1, 0x00000000, 0xC00007FF, 0x00000000, 0x00000000, 0x07FF0000, 0x00000000, 0x00000000⟩,
  -- LOG_SQUALLCFG (R524)
  ⟨0x0D0004, 0x4, 1, 0x0000000A, 0x00000000, 0x00000000, 0x00000000, 0x00000000, 0x000000FF, 0x00000000⟩,
  -- LOG_EVMASK (R524)
  ⟨0x0D0010, 0x4, 4, 0x00003FFF, 0x00000000, 0x00000000, 0x00000000, 0x00000000, 0x00003FFF, 0x00000000⟩,
  -- LOG_SBCFG (R524)
  ⟨0x0D0020, 0x4, 1, 0x00000000, 0x00000000, 0x00003FFF, 0x00000000, 0x00000000, 0x00000000, 0x00000000⟩,
  -- LOG_PTR (R525)
  ⟨0x0D0024, 0x4, 1, 0x00000000, 0x01FFFFFF, 0x00000000, 0x00000000, 0x00000000, 0x00000000, 0x00000000⟩,
  -- LOG_LSN (R525)
  ⟨0x0D0028, 0x4, 1, 0x00000000, 0xFFFFFFFF, 0x00000000, 0x00000000, 0x00000000, 0x00000000, 0x00000000⟩,
  -- LOG_WDTCFG (R525)
  ⟨0x0D002C, 0x4, 1, 0x00000064, 0x00000000, 0x00000000, 0x00000000, 0x00000000, 0x000000FF, 0x00000000⟩,
  -- LOG_WDTKICK (R525)
  ⟨0x0D0030, 0x4, 1, 0x00000000, 0x00000000, 0xFFFFFFFF, 0x00000000, 0x00000000, 0x00000000, 0x00000000⟩,
  -- LOG_SBREC0 (R525)
  ⟨0x0D0040, 0x4, 1, 0x00000000, 0xFFFFFFFF, 0x00000000, 0x00000000, 0x00000000, 0x00000000, 0x00000000⟩,
  -- LOG_SBREC (R525)
  ⟨0x0D0044, 0x4, 7, 0x00000000, 0x00000000, 0x00000000, 0x00000000, 0x00000000, 0x00000000, 0xFFFFFFFF⟩,
  -- LOG_CAPTURED (R525)
  ⟨0x0D0060, 0x4, 1, 0x00000000, 0x00000000, 0x00000000, 0x00000000, 0xFFFFFFFF, 0x00000000, 0x00000000⟩,
  -- LOG_COALESCED (R525)
  ⟨0x0D0064, 0x4, 1, 0x00000000, 0x00000000, 0x00000000, 0x00000000, 0xFFFFFFFF, 0x00000000, 0x00000000⟩,
  -- LOG_LOST (R525)
  ⟨0x0D0068, 0x4, 1, 0x00000000, 0x00000000, 0x00000000, 0x00000000, 0xFFFFFFFF, 0x00000000, 0x00000000⟩,
  -- LOG_SKIPS (R525)
  ⟨0x0D006C, 0x4, 1, 0x00000000, 0x00000000, 0x00000000, 0x00000000, 0xFFFFFFFF, 0x00000000, 0x00000000⟩,
  -- LOG_ORPHANS (R525)
  ⟨0x0D0070, 0x4, 1, 0x00000000, 0x00000000, 0x00000000, 0x00000000, 0xFFFFFFFF, 0x00000000, 0x00000000⟩,
  -- LOG_WDT (R525)
  ⟨0x0D0074, 0x4, 1, 0x00000000, 0x00000000, 0x00000000, 0x00000000, 0xFFFFFFFF, 0x00000000, 0x00000000⟩,
  -- LOG_SQUALLS (R525)
  ⟨0x0D0078, 0x4, 1, 0x00000000, 0x00000000, 0x00000000, 0x00000000, 0xFFFFFFFF, 0x00000000, 0x00000000⟩
]

/-- Every decoded register (R529). -/
def regRows (block : Nat) : List RegRow :=
  match block with
  | 0 => regRowsGlb
  | 1 => regRowsLnk
  | 2 => regRowsOrd
  | 3 => regRowsMap
  | 4 => regRowsMir
  | 5 => regRowsSch
  | 6 => regRowsDph
  | 7 => regRowsCal
  | 8 => regRowsEcc
  | 9 => regRowsClk
  | 10 => regRowsPwr
  | 11 => regRowsMgt
  | 12 => regRowsTim
  | 13 => regRowsLog
  | _ => []

end Sys2Proof.Machine
end

