-- ==== Sys2Proof/Machine/State.lean ====
section
/-!
DEFINITION. The state of the hub as plain data: every register, buffer, queue, counter, mode and pin the manual names,
the memories behind it (DRAM, CFG flash, fuses) and the queue of commands that wait. Each register has one home: a word
in `regs`, or a field below where it is an enumeration, a queue or a table; the register view of such a field is computed
(Machine/Flags.lean).
-/

namespace Sys2Proof.Machine

/-- Why the hub's model stops. No command of the opcode table is given a fault: every event the manual describes leaves
the machine running. The one constructor is raised by no meaning; safe. -/
inductive Fault where
  /-- Raised by nobody; kept so that the type has a name to show. Safe. DESIGN CHOICE, log entry 46. -/
  | unreachable
  deriving DecidableEq, Repr

/-- Why a command has no meaning. -/
inductive Refusal where
  /-- Raised by an arm of `exec` whose command has no meaning yet. Safe: the machine stops by name. -/
  | notModelled (mnemonic : String)
  deriving DecidableEq, Repr

/-- What a receive crossing holds (R30): a delivered command, or the mark that a payload flit has ended on a port
(the window of R81 counts those). -/
inductive RxItem where
  | cmd (p : Port) (c : Instr)
  | flitEnd (p : Port)
  deriving DecidableEq, Repr

/-- The top-level states (R8). -/
inductive TopState where
  | off | standby | aon | sequence | boot | bootHold | train | join | service | gust | calm | restore | faultOff
  deriving DecidableEq, Repr

/-- The pair states (R202). -/
inductive PairState where
  | none | paired | solo | rebuildSrc | rebuildDst | fenced
  deriving DecidableEq, Repr

/-- The link states (R64). -/
inductive LinkState where
  | down | train | init | service | still | retrain
  deriving DecidableEq, Repr

/-! ## Time, events and the sideband -/

/-- The timebase and its discipline (R490 to R498). `tb` counts the timebase in units of 2^-32 ns; `f` and `slew` are
the frequency estimate and the slew in units of 0.01 ppm (R522). -/
structure TimeSt where
  tb          : Nat := 0
  elapsed     : Nat := 0                 -- model time, units of 125 ps
  cycle       : Nat := 0                 -- core cycles since the core domain started
  offset      : BitVec 64 := 0           -- the wall offset (R492)
  f           : Int := 0
  slew        : Int := 0
  ePrev       : Int := 0                 -- e of the last applied beacon, ns
  prevApplied : Bool := false
  lastTime    : Nat := 0                 -- TIME_NS of the last applied beacon
  lastApplied : Nat := 0                 -- timebase (ns) when it was applied
  lastPaired  : Bool := false            -- it was paired with a SYNC_IN edge
  holdover    : Bool := false
  portSeen    : Tab Nat := []            -- timebase (ns) + 1 of each port's last applicable beacon
  syncEdge    : Option Nat := Option.none      -- timebase (ns) of the last accepted SYNC_IN edge
  syncFree    : List Nat := []           -- those of the accepted edges that no beacon has been paired with, newest first
  deriving DecidableEq, Repr

/-- A ring entry (R501). -/
structure RingEntry where
  code     : BitVec 16
  summary  : Bool := false
  late     : Bool := false
  seqLow   : Bool := false
  tq       : BitVec 3 := 0
  fullLost : Bool := false
  seq      : Word := 0
  stamp    : BitVec 64 := 0
  epoch    : BitVec 16 := 0
  data     : Word := 0
  count    : Word := 0
  deriving DecidableEq, Repr

/-- A row of the coalescing table (R505): the count, the last event coalesced, and whether its code has no full entry
in the window. -/
structure Coalesced where
  code     : BitVec 16
  count    : Nat
  last     : RingEntry
  fullLost : Bool
  deriving DecidableEq, Repr

/-- The event ring, Squall and the log writer (R499 to R512). A reader's position is the number of entries of the
ring it has passed; a U-port reader that is not reading holds `none`. -/
structure LogSt where
  ring      : List RingEntry := []       -- oldest first
  rdLog     : Nat := 0
  rdU       : Tab (Option Nat) := []     -- readers of U0 to U3
  rdSb      : Nat := 0
  late      : List RingEntry := []       -- records the core made from saved state, waiting for the log
  nextSeq   : Word := 0                  -- the capture sequence counter
  lullOpen  : Bool := false              -- the three intervals of R500
  holdOpen  : Bool := false
  squall    : Bool := false
  seen      : List (BitVec 16) := []     -- codes with a full entry in this window
  table     : List Coalesced := []       -- the coalescing table
  overflow  : Nat := 0
  windows   : Nat := 0
  raised    : Bool := false              -- the raises of R491 have been made since the AON domain started
  ready     : Bool := false              -- the write point has been found (C8), so the log writer runs
  slot      : Nat := 0                   -- the next record slot, 0 to 261,119
  going     : Nat := 0                   -- records of the page program that a power-loss trigger found in progress (R510)
  deriving DecidableEq, Repr

/-- A directive on the sideband (R516). -/
structure DirReq where
  dcode : Byte
  epoch : Word
  arg   : BitVec 64
  deriving DecidableEq, Repr

/-- An access that waits at the register arbiter while one of a higher place is served (R518), or a sideband directive that waits
while a management message brings one of the same `DCODE` (R539). -/
structure ArbReq where
  path  : AccPath
  addr  : Nat := 0
  data  : Option Word := Option.none     -- of a write
  count : Nat := 0                       -- of a sideband request for several words
  dir   : Option DirReq := Option.none
  deriving DecidableEq, Repr

/-- The sideband (R513 to R518): strapped mode and address, the I3C target's state, the answer waiting to be read. -/
structure SbSt where
  smbus    : Bool := false               -- SBMODE strap
  sbaddr   : BitVec 2 := 0               -- SBADDR strap
  dynAddr  : Option (BitVec 7) := Option.none
  ibiOn    : Bool := false               -- ENEC / DISEC
  ibi      : Option Byte := Option.none  -- an IBI raised and not yet released by a read of LOG_SBREC0
  mwl      : BitVec 16 := 64
  mrl      : BitVec 16 := 65
  answer   : List Byte := []             -- the read frame: status, then data
  cccOut   : List Byte := []             -- bytes returned by the last directed CCC
  arb      : List ArbReq := []           -- accesses and directives that wait for one of a higher place (R518, R539)
  deriving DecidableEq, Repr

/-! ## The Satrum link -/

/-- One count per credit class (R104). -/
structure Credits where
  req : Nat := 0
  rd  : Nat := 0
  lq  : Nat := 0
  wd  : Nat := 0
  mg  : Nat := 0
  ev  : Nat := 0
  deriving DecidableEq, Repr

/-- What waits in a lane queue (R32): a host request, a line of T or a `REPAIR_REQ`. -/
inductive LaneKind where
  | host (op : HostOp)
  | replica | rebuild | repair
  | repairReq
  deriving DecidableEq, Repr

/-- A request in a lane queue. `reqNo` is its place among the credited requests of the port (R94) and `repNo` its
replica number on T (R97). `verdict` is a reject reason already fixed at delivery (R84). `age` counts payload flits
since its message (R81). -/
structure LaneReq where
  kind    : LaneKind
  tag     : BitVec 12
  acc     : Bool := false
  stream  : BitVec 16 := 0
  addr    : BitVec 42 := 0
  slot    : Option DataSlot := Option.none
  mask    : Option (BitVec 64) := Option.none
  epoch   : Option Word := Option.none   -- epoch carried by a line of T (R174), or by a REPAIR_REQ
  reqNo   : Nat := 0
  repNo   : Nat := 0
  verdict : Byte := 0
  age     : Nat := 0
  deriving DecidableEq, Repr

/-- A half waiting for its partner (R81, R96): a data slot on a U-port, a mask or a masked replica on T. -/
structure Half where
  tag  : BitVec 12
  slot : Option DataSlot := Option.none
  mask : Option (BitVec 64) := Option.none
  age  : Nat := 0
  drop : Bool := false                   -- its message was rejected MALFORMED_MSG, so it is discarded in silence (R82)
  deriving DecidableEq, Repr

/-- The longest run of ended requests from the first (R94, R97): its length, and the requests beyond it with their
tags, each marked when it ends. -/
structure Prefix where
  base : Nat := 0
  last : BitVec 12 := 0
  win  : List (BitVec 12 × Bool) := []
  deriving DecidableEq, Repr

/-- A slot of a flit: a data slot or five messages (R52, R54). -/
inductive Slot where
  | data (d : DataSlot)
  | msgs (m : List Msg)
  deriving DecidableEq, Repr

/-- A payload flit in a replay buffer (R59). -/
structure TxFlit where
  seq   : BitVec 10
  slots : List Slot
  pln   : Bool := false
  deriving DecidableEq, Repr

/-- A data slot waiting for a flit, with what its hand-over to the transmit crossing frees on T: its T queue slot, and the
write-data credit of `credit` (R34, R40). -/
structure TxData where
  slot    : DataSlot
  mask    : Option Msg := Option.none
  credit  : Option Port := Option.none
  pool    : Option Nat := Option.none    -- pool entry of the `REPAIR_REQ` read this line answers
  deriving DecidableEq, Repr

/-- What waits on a port for a flit, in order: a message, a message that returns credits or frees a pool entry when it enters a
flit (R34, R104), or a data slot with its mask. -/
inductive TxItem where
  | msg (m : Msg)
  | owing (m : Msg) (c : Credits) (pool : Option Nat)
  | data (d : TxData)
  deriving DecidableEq, Repr

/-- A flit in the transmit crossing (R30): its closed slots and the messages of its open message slot. -/
structure CrossFlit where
  slots : List Slot := []
  cur   : List Msg := []
  deriving DecidableEq, Repr

/-- One port (R43 to R119). -/
structure LinkSt where
  lstate    : LinkState := .down
  attempts  : Nat := 0                   -- failed attempts counted (R64)
  longWait  : Bool := false              -- the next TRAIN comes after 1 s instead of 10 ms
  -- receiver
  exp       : BitVec 10 := 0             -- sequence number expected next (R61)
  ackv      : Bool := false
  nakWait   : Bool := false
  nakOut    : Bool := false              -- NAK = 1 goes in the next flit
  badTimes  : List Nat := []             -- arrival of recent bad flits, for ERR_WINDOW
  margBad   : Nat := 0                   -- bad flits of the margining run
  -- transmitter
  seq       : BitVec 10 := 0             -- sequence number of the next payload flit
  buf       : List TxFlit := []          -- the replay buffer, oldest first
  replayAt  : Option Nat := Option.none  -- index of the flit to be replayed next
  replays   : Nat := 0                   -- replays of the oldest flit
  plnFlits  : Nat := 0                   -- flits still to go with PLN = 1
  plnFirst  : Nat := 0                   -- of the first 8 flits after the notice, those still to go (R70)
  plnSeq    : Option (BitVec 10) := Option.none   -- the notice flit, while unacknowledged
  pln       : Option Msg := Option.none  -- a notice waiting for its flit (R69)
  deferred  : Bool := false              -- a retrain waits behind the notice (R70)
  refill    : Bool := false              -- fast path failed: full re-equalisation (R65)
  linkCtl   : Option (Byte × Byte) := Option.none -- link-control code and reason to send
  stillOut  : Nat := 0                   -- idle flits still due before electrical idle (R67)
  wakeDue   : Bool := false              -- event 0x1041 is to be sent once in SERVICE (R68)
  wake      : Option (BitVec 2) := Option.none    -- the hub's wake reason, if it had one
  tx        : List TxItem := []          -- waiting for a flit; on T this is the T transmit queue (R34)
  cross     : List CrossFlit := []       -- the transmit crossing, oldest first (R30)
  lastFlit  : List Byte := []            -- the last flit put on the lanes
  sinceIdle : Nat := 0                   -- flits sent since the last idle flit (R45)
  pairWake  : Bool := false              -- the pair state has changed while the port was in STILL (R68)
  width     : BitVec 2 := 3              -- the running width, coded as in `LNK_STATUS` (R44, R71)
  scr       : List (BitVec 31) := []     -- the transmit scramblers, one per lane of the port (R49)
  lanes     : List (List Byte) := []     -- the last flit as the lanes carry it, scrambled
  -- negotiation
  negOut    : Bool := false              -- NEG has been sent
  peerNeg   : Option NegMsg := Option.none
  myAck     : Option NegAckMsg := Option.none
  gotAck    : Bool := false
  -- credits and tags
  granted   : Credits := {}              -- credits the sender holds (R108)
  owed      : Credits := {}              -- credits owed to the sender
  mine      : Credits := {}              -- credits this hub holds
  gotCredit : Bool := false              -- the first CREDIT since INIT has come (R105)
  tags      : List (BitVec 12) := []
  mtags     : List (BitVec 4) := []
  lane      : List LaneReq := []         -- the lane queue, oldest first
  halves    : List Half := []
  nextReq   : Nat := 0                   -- credited requests delivered since INIT
  adm       : Prefix := {}
  deriving DecidableEq, Repr

/-- What the mirror profile adds on T (R96 to R103, R174 to R176). -/
structure TwinSt where
  peerEpoch : Option Word := Option.none -- EPOCH of the last HEARTBEAT delivered since INIT (R174)
  peerState : Nat := 0                   -- its PSTATE
  epochSent : Option Word := Option.none -- EPOCH of the last HEARTBEAT sent since INIT
  rxCount   : Nat := 0                   -- replicas received since INIT (R97)
  thr       : Prefix := {}               -- THROUGH (R97)
  thrSent   : Nat := 0                   -- THROUGH of the last ACK_RANGE sent
  ackTags   : List (BitVec 12) := []     -- tags waiting for ACK_LINES (R115)
  txCount   : Nat := 0                   -- replicas sent since INIT
  lastThr   : Nat := 0                   -- THROUGH of the last ACK_RANGE received
  plnSeen   : Bool := false              -- the twin's power-loss notice has been acted on since INIT (R60, R207)
  deriving DecidableEq, Repr

/-! ## Order, Fork and Return -/

/-- What a pool entry is. -/
inductive ReqKind where
  | read | write | masked | flush                -- host requests
  | replica | mreplica | rebuild | repair        -- lines of T
  | repairRead                                   -- a REPAIR_REQ of the peer, served as a read (R189)
  | agentRead | agentWrite | spareCopy           -- the hub's own agents (R36)
  deriving DecidableEq, Repr

/-- Where a write stands at Fork (R173). -/
inductive ForkSt where
  | none | backlog | sent | notSent
  deriving DecidableEq, Repr

/-- A pool entry with its write buffer line (R34, R123 to R134). -/
structure PoolEntry where
  kind      : ReqKind
  port      : Port := .t
  orphan    : Bool := false              -- its port has entered DOWN (R66)
  tag       : BitVec 12 := 0
  stream    : BitVec 16 := 0
  acc       : Bool := false
  pair      : BitVec 42 := 0             -- pair line address
  addr      : Nat := 0                   -- local line address A (R145)
  adm       : Nat := 0                   -- place in admission order (R120)
  hasLine   : Bool := false              -- holds a write buffer line
  line      : Line := 0
  lseal     : Word := 0
  poison    : Bool := false              -- carried poison (R330)
  lpoison   : Bool := false              -- local poison from a merge (R329)
  heldElse  : Bool := false              -- good and held elsewhere (R328)
  mask      : BitVec 64 := 0
  merging   : Bool := false              -- a masked write holds its line (R134)
  skipWrite : Bool := false              -- admitted but not written (R226, R362)
  forkNo    : Nat := 0                   -- fork number (R125), 0 if not forked
  fork      : ForkSt := .none
  tracked   : Bool := false              -- Map found its region TRACKED
  dispatched: Bool := false
  issued    : Bool := false              -- its DRAM command has issued
  wdHeld    : Bool := false              -- its write-data credit is still held back (R40)
  owes      : Bool := false              -- a durable completion (or a flush's) is owed
  acked     : Bool := false              -- its entry closed by an acknowledgement, or its granule resynchronised
  durable   : Bool := false              -- its durable point is reached
  next      : Option Nat := Option.none  -- link to the next younger entry of its stream list
  mark      : Nat := 0                   -- flush mark
  repTag    : Option Nat := Option.none  -- repair tag of a forwarded read
  forwarded : Bool := false              -- a forwarded read (R189)
  repair    : Bool := false              -- waits for read-repair (R361)
  waitOn    : Option Nat := Option.none  -- waits for the masked write of that pool index
  done      : Bool := false              -- its data or completion has been built; it waits for its flit
  bornAt    : Nat := 0
  dual      : Bool := false              -- one more DRAM write of it has to issue (R356)
  found     : Line := 0                  -- what a damaged read found, kept while its repair is awaited (R325, R330)
  superseded : Bool := false             -- a younger write of its line has been admitted (R362)
  resent    : Bool := false              -- its agent has forged and sent it once more (R329)
  deriving DecidableEq, Repr

/-- A stream record (R123). -/
structure StreamRec where
  head     : Nat := 0
  tail     : Nat := 0
  len      : Nat := 0
  lastFork : Nat := 0
  deriving DecidableEq, Repr

/-- A forked write that has not yet reached its durable point (R126). -/
structure ForkRec where
  no    : Nat
  pair  : BitVec 42
  acked : Bool
  deriving DecidableEq, Repr

/-- What Return sends to a U-port: a completion record or a read data slot (R85). -/
inductive RetBody where
  | record (tag : BitVec 12) (kind : BitVec 3) (nodur : Bool) (reason : Byte) (final : Bool)
  | data (d : DataSlot)
  deriving DecidableEq, Repr

/-- An item that Return holds, with what its flit frees. `built` is the core cycle in which it became ready (R34, R85, R104). -/
structure RetItem where
  port  : Port
  body  : RetBody
  built : Nat
  pool  : Option Nat := Option.none      -- pool entry freed when it enters a flit
  line   : Bool := false                 -- it holds a return buffer line (R34)
  freeRd : Bool := false                 -- an RD credit goes with it
  freeReq : Bool := false                -- a REQ credit with no pool entry behind it (a rejection)
  freeWd : Bool := false                 -- the WD credit of a rejected write (R40)
  deriving DecidableEq, Repr

/-- Map's outcome for a request (R151, R152). -/
inductive MapOut where
  | reject (reason : Byte)
  | locally (forked : Bool)
  | forward
  | flush
  deriving DecidableEq, Repr

/-- A request past Map, on its way through Order. -/
structure Mapped where
  lane    : Port
  req     : LaneReq
  out     : MapOut
  addr    : Nat
  tracked : Bool
  sync    : Nat := 0                     -- SYNC as the lookup found it (R148)
  waiting : Bool := false                -- waits at Order for a bitmap line (R220)
  deriving DecidableEq, Repr

/-- A request of the hub's own agents that waits for an agent pool entry (R36): a write, or a read where there is no line. A line of
the journal may be masked and carries its state (R439, R449). -/
structure AgentReq where
  addr  : Nat                            -- local line address
  line  : Option Line := Option.none
  marks : List Nat := []                 -- the granules whose marks a bitmap write carries
  mask  : Option (BitVec 64) := Option.none  -- of a masked line of the journal
  poison : Bool := false                 -- carried poison
  lpoison : Bool := false                -- local poison
  heldElse : Bool := false               -- good and held elsewhere
  replay : Option Nat := Option.none     -- a line of the newest journal slot: how many of its lines are entered once this one is
  start  : Bool := false                 -- a write that goes ahead of every host request of a start (R153, R565)
  deriving DecidableEq, Repr

/-- The mapped merge, Order and Fork (R32, R120 to R143, R170 to R173). -/
structure OrdSt where
  ptr      : Nat := 0                    -- the port pointer (R32, R121)
  granted  : List Port := []             -- lanes granted a position in this core cycle
  admits   : Nat := 0                    -- requests of the lanes that Order has accepted in this core cycle (R29)
  mapped   : List Mapped := []           -- merge order
  pool     : Tab (Option PoolEntry) := []  -- keys 0 to 8,191 the request pool, 8,192 to 8,447 the agent pool
  streams  : Tab StreamRec := []
  admNext  : Nat := 0
  forkNext : Nat := 1                    -- the fork counter (R125)
  front    : Nat := 0                    -- the durable frontier (R126)
  forks    : List ForkRec := []          -- forked writes not yet durable
  backlog  : List Nat := []              -- the fork backlog: pool indexes in admission order (R173)
  undisp   : List Nat := []              -- pool indexes not yet dispatched to Schedule (R31)
  retRes   : Nat := 0                    -- return buffer lines in use or reserved
  ret      : List RetItem := []          -- Return, oldest first
  agentQ   : List AgentReq := []         -- agent requests waiting for an agent pool entry (R36)
  qMark    : Nat := 0                    -- admission count at the last quiesce directive (R540)
  probes   : Nat := 0                    -- probes of the line index made in this core cycle (R242)
  replayed : Nat := 0                    -- lines of the newest pending slot of the journal entered so far (R449)
  deriving DecidableEq, Repr

/-! ## The region table and the mirror agent -/

/-- The region table (R146 to R156). -/
structure MapSt where
  rt      : Tab Word := []               -- entries in the layout of R146
  failed  : List Nat := []               -- entries held as failed, waiting for their reload
  lost    : List Nat := []               -- entries failed until the next load
  due     : List (Nat × Word × Word) := []  -- changes waiting for a reload: entry, bits changed, their new values (R149)
  turn    : List (Nat × Word) := []      -- changes that lookups do not see yet, one made per core cycle: entry, its word before (R148)
  shadow  : Tab Word := []               -- the shadow in the reserve, as last written through (R156)
  shadowOk : Bool := false               -- the reserve header names this hub and every shadow line reads (R153)
  deriving DecidableEq, Repr

/-- The state of a pending-ack entry (R173); a free entry is absent. -/
inductive PendState where
  | sent | unresolved
  deriving DecidableEq, Repr

/-- A pending-ack entry (R172, R173): its state, replica and fork number, the pool entry and the line it stands for. -/
structure PendEntry where
  state  : PendState
  rnum   : Nat
  fork   : Nat
  pool   : Option Nat := Option.none
  pair   : BitVec 42
  gran   : Nat
  opened : Nat
  credit : Option Port := Option.none    -- write-data credit still owed to this U-port (R179)
  deriving DecidableEq, Repr

/-- A handover in progress (R192). `atP` tells P from Q; `boundary` is F once noted. -/
structure Handover where
  region   : Nat
  atP      : Bool
  mtag     : BitVec 4
  boundary : Option Nat := Option.none
  drainedSent : Bool := false
  deriving DecidableEq, Repr

/-- A line filter of the destination: an open granule, the lines of it that a replica has reached (R226), and whether a rebuild line
of it has been rejected (R225). -/
structure LineFilter where
  gran     : Nat                         -- pair granule
  lines    : List Nat := []
  rejected : Bool := false
  deriving DecidableEq, Repr

/-- A granule the source is copying (R225). `readNext` counts the rebuild reads made, `sentLines` the rebuild lines that
have entered the T transmit queue. -/
structure GranCopy where
  gran     : Nat                         -- pair granule
  opened   : Bool := false               -- its start has been answered
  readNext : Nat := 0
  sentLines : Nat := 0
  rejected : Bool := false               -- a rebuild line of it was rejected
  second   : Bool := false               -- it is being copied once more
  deriving DecidableEq, Repr

/-- A session step the source waits on. -/
inductive RbPhase where
  | none | starting | reporting | copying | closing | formatting | converting
  deriving DecidableEq, Repr

/-- A scrub read being repaired from the twin (R361, R363). -/
structure ScrubRepair where
  tag   : Nat
  addr  : Nat
  pair  : BitVec 42
  found : Nat                            -- 1 local poison, 2 address mismatch, 3 uncorrectable
  own   : Bool := true                   -- it holds the tag itself, and has not joined another repair (R361)
  deriving DecidableEq, Repr

/-- The mirror agent (R170 to R236). -/
structure MirSt where
  pstate   : PairState := .none
  epoch    : Word := 0
  recorded : PairState := .none          -- pair state in the record loaded at JOIN (R204)
  recLoaded : Bool := false              -- the record was taken into effect
  recSeq   : Word := 0                   -- SEQ of the pair record
  record   : Line := 0                   -- the pair record as last written through
  pend     : Tab (Option PendEntry) := []
  rb       : RbPhase := .none
  rbRole   : BitVec 2 := 0
  rbMode   : BitVec 2 := 0
  rbRegion : Nat := 0
  share    : Nat := 0
  dirShare : Nat := 0                    -- the share the rebuild start gave
  paceLow  : Bool := false               -- the destination has lowered its share
  paceHigh : Bool := false               -- its write buffer stands above 6,144 lines (R228)
  filters  : List LineFilter := []       -- open granules at the destination, at most four
  opened   : List Nat := []              -- granules opened so far in the region being filled (R226)
  copies   : List GranCopy := []         -- open granules at the source, at most four
  todo     : List Nat := []              -- granules of the region still to open
  regionOpen : Bool := false             -- a region is in hand at the source
  rbOut    : List TxData := []           -- rebuild lines waiting for the T transmit queue
  curWait  : List (RebuildMsg × Nat) := []   -- cursors that wait for the lines before them (R224)
  startHeld : Option RebuildMsg := Option.none -- a session start that came before this hub's acceptance
  fmtNext  : Nat := 0                    -- format writes entered for the region
  fmtDone  : Nat := 0                    -- regions formatted
  reported : List Nat := []              -- granules still to report (destination, resync)
  taken    : List Bool := []             -- the last data slots handed to T: true for a rebuild line (R228)
  soloGrant : Bool := false              -- a solo grant is accepted and its hold runs
  soloConv  : Bool := false              -- step 3 is complete
  soloEnd   : Bool := false              -- the hold has elapsed, or a FENCED heartbeat has come
  formatDue : Bool := false              -- FORMAT = 1
  handovers : List Handover := []
  repairs  : Tab (Option Nat) := []      -- repair tag to the pool index waiting on it; none when free
  repStale : List Nat := []              -- repair tags whose read has ended and whose answer has not come
  repSuper : List Nat := []              -- tags whose line a younger write has reached (R362)
  scrubRep : List ScrubRepair := []      -- scrub repairs outstanding, at most 64
  marks    : Tab Bool := []              -- the divergence bitmap: marked local granules (R218)
  cache    : List Nat := []              -- bitmap lines held on die, oldest first
  jMarks   : List Nat := []              -- marks the Gust journal carries (R220)
  lastCtl  : List (Nat × Nat × Bool) := []  -- REBUILD_CTL sent and not yet answered: CMD, CURSOR, SESS
  deriving DecidableEq, Repr

/-! ## Schedule, Drive and DRAM -/

/-- What a store entry does (R237 to R243). -/
inductive StoreKind where
  | read                                  -- host read, REPAIR_REQ read, agent read
  | oldRead                               -- old-line read of a masked write (R241)
  | holder                                -- the placeholder of a masked write (R241)
  | write
  | scrub | rebuildRead | correction | formatWrite
  | spareRead | rawWrite                  -- the copy of R357
  deriving DecidableEq, Repr

/-- A device location (R157 to R159). -/
structure Loc where
  rank : Nat := 0
  die  : Nat := 0
  bg   : Nat := 0
  bank : Nat := 0
  col  : Nat := 0
  row  : Nat := 0
  deriving DecidableEq, Repr

/-- An entry of the scheduler store (R237, R238). `since` is the CK time at which it entered. -/
structure StoreEntry where
  kind  : StoreKind
  pool  : Option Nat := Option.none
  addr  : Nat := 0                       -- local line address A
  loc   : Loc := {}
  since : Nat := 0
  aged  : Bool := false
  gran  : Nat := 0                       -- rebuild read or format write: pair line address
  copy  : Option Nat := Option.none      -- the position in the copy of R357
  raw   : List Byte := []                -- the 80 stored symbols of a copy that is written unchanged (R357)
  staged : Bool := false                 -- a write whose data is in the write staging queue (R30, R240)
  probed : Bool := false                 -- of a rebuild read: a probe has found no line held for it (R242)
  codeword : List Byte := []             -- the 80 symbols it holds there, as the encoder made them (R318, R327)
  lseal : Word := 0                      -- of a format write: the seal forged when it was created (R320)
  resent : Bool := false                 -- of a format write: it has been forged and sent once more (R329)
  deriving DecidableEq, Repr

/-- An open bank: its row and the column commands issued since its activate (R247). -/
structure OpenBank where
  row  : Nat
  hits : Nat := 0
  softCols : Nat := 0                    -- column commands since the bank was blocked under SOFT (R252)
  deriving DecidableEq, Repr

/-- A DRAM command kind on the command bus. -/
inductive CmdKind where
  | act | rd | wr | pre | refsb | refab | pde | pdx | sre | srx | zq | zqLatch | mr4 | mrw
  deriving DecidableEq, Repr

/-- A command in the recent history, for the timings of R244. `auto` marks auto-precharge. -/
structure CmdRec where
  ck   : Nat
  kind : CmdKind
  loc  : Loc
  auto : Bool := false
  colAddr : Nat := 0                     -- of a column command: the column address sent to the devices (R158)
  deriving DecidableEq, Repr

/-- A read on its way from the pins to Return: the stored symbols as the read found them (R322). -/
structure Flight where
  entry  : StoreEntry
  stored : List Byte
  deriving DecidableEq, Repr

/-- An entry of the correction table (R243): a line under a scrub read, and its corrected data once known. -/
structure CorrEntry where
  addr : Nat
  loc  : Loc := {}                       -- where the correction is to be written
  line : Option Line := Option.none
  lseal : Word := 0                       -- forged when the correction was created (R320)
  superseded : Bool := false
  late : Bool := false                   -- a write of the line has been admitted since the probe (R362)
  spare : Option Nat := Option.none      -- the position in the copy of R357 that it settles
  deriving DecidableEq, Repr

/-- A write in the retry buffer (R339, R340): its codeword and when it issued. -/
structure RetryRec where
  ck    : Nat
  addr  : Nat
  loc   : Loc
  codeword : List Byte
  replays : Nat := 0
  deriving DecidableEq, Repr

/-- The pins of a sub-channel and the device settings behind them (R269 to R273, R280, R284 to R287). What `SCn_CA` and `SCn_CS_N`
carried are the commands of `SubCh.hist`. `CHm_RESET_N` is held with the even sub-channel of its pair. The retained pads keep their
level while the core is off. -/
structure SubPins where
  powered  : Bool := false               -- the PHY slice is powered (R269)
  ckBin    : Option Nat := Option.none   -- retained: CK runs at this bin; stopped, CK_P is low and CK_M high
  csHigh   : List Nat := []              -- retained: the bits of CS_N held high (R280)
  reset    : Bool := false               -- retained: the level of CHm_RESET_N
  ckPairs  : List Nat := []              -- the pairs of CK_P[1:0] and CK_M[1:0], one per rank, that run
  ca       : Option CmdRec := Option.none  -- the command last put on CA[13:0], with the CS_N bit of its rank low; none at high impedance
  beats    : List (BitVec 40) := []      -- CB[7:0] above DQ[31:0] in the 16 beats of the last burst; empty at high impedance
  dqs      : List Nat := []              -- the pairs of DQS_P[9:0] and DQS_M[9:0] that strobe it; none at high impedance
  crc      : List Byte := []             -- the write CRC that follows a write burst, by package (R327); empty for a read
  alertN   : Bool := true                -- the level of ALERT_N
  settings : Option Nat := Option.none   -- the timing set whose settings the devices hold (R275, R284)
  taps     : Word := 0                   -- the equaliser taps written with them (R535)
  deriving DecidableEq, Repr

/-- A sub-channel's scheduler, drive and scrub generator (R237 to R261, R339 to R342). -/
structure SubCh where
  intake   : List Nat := []              -- schedule intake queue: pool indexes (R30)
  maint    : List StoreEntry := []       -- the maintenance queue
  store    : List StoreEntry := []       -- arrival order
  corr     : List CorrEntry := []
  banks    : Tab (Option OpenBank) := [] -- open banks by bank queue index (R238)
  ptr      : Nat := 0                    -- Eddy's pointer
  write    : Bool := false               -- write mode (R250)
  turnWr   : Nat := 0                    -- writes issued since the turn
  ck       : Nat := 0                    -- CK time, four per MCLK cycle
  hist     : List CmdRec := []           -- recent commands, newest first
  acts     : List Bool := []             -- the last 64 activates, newest first: true for rebuild or format
  debt     : Tab Int := []               -- refresh debt by (16·rank + die)·4 + bank index (R251)
  refClear : List Nat := []              -- ranks refreshing down to 0 after a power-down exit (R256)
  fallback : List Nat := []              -- dies (16·rank + die) in the all-bank fallback (R253)
  idle     : Tab Nat := []               -- MCLK cycles the power-down conditions have held, per rank
  pd       : List Nat := []              -- ranks in power-down
  pdExit   : List Nat := []              -- ranks whose exit has begun: their PDX waits for a slot
  asked    : List (CmdKind × Nat) := []  -- MR4 reads and ZQ starts, by rank, that wait for an empty slot (R255, R304)
  leave    : Bool := false               -- Schedule is to leave one cycle empty for Breeze (R306)
  sref     : List Nat := []              -- ranks in self-refresh
  held     : Bool := false               -- held by another sequence (R260)
  lowPoll  : List Nat := []              -- ranks whose last poll asked for a lower multiplier (R255)
  flights  : List Flight := []
  -- scrub
  pos      : Nat := 0
  passes   : Nat := 0
  start    : Nat := 0
  seq      : Word := 0
  owed     : Nat := 0                    -- scrub reads owed less reads made
  scrubbed : Nat := 0                    -- scrub reads since the record was last written for their number (R259)
  -- alert replay
  retry    : List RetryRec := []         -- the retry buffer, oldest first
  alert    : Nat := 0                    -- 0 none, 1 ALERT_N low, 2 replaying, 3 ignored after a failure
  suspects : List RetryRec := []
  replayLeft : List RetryRec := []       -- suspects still to be reissued
  alertTries : Nat := 0
  pins     : SubPins := {}
  deriving DecidableEq, Repr

/-- A package rank (R280, R343 to R347): p = 2 · sub-channel + rank. -/
structure RankSt where
  trained : Bool := false
  retired : Bool := false
  spared  : Bool := false
  want    : Bool := false
  cause   : BitVec 3 := 0
  next    : BitVec 3 := 0                -- the cause its retirement, once complete, sets (R347)
  began   : Nat := 0                     -- core cycle in which its retirement began (R365)
  erased  : Option Nat := Option.none    -- the erased package
  ue      : Nat := 0                     -- the buckets, 0 to 255
  rce     : Nat := 0
  pkg     : Tab Nat := []
  deriving DecidableEq, Repr

/-- Faults, retirement and sparing (R338 to R369). `sp` is the spare state: 0 none, 1 copying, 2 done, 3 aborted. -/
structure FaultSt where
  ranks   : Tab RankSt := []
  sp      : BitVec 2 := 0
  spRank  : Nat := 0
  cursor  : Nat := 0                     -- rows copied
  copyPos : Nat := 0                     -- the next line to ask for, counted over the rows
  unsettled : List Nat := []             -- lines asked for and not yet settled
  copyOn  : Bool := false                -- the copy runs: not paused by a trigger or a restart
  ending  : Bool := false                -- reads are switched and the failing rank's last entries issue (R358)
  converting : List Nat := []            -- ranks whose regions are being set OFFLINE
  readmit : Option Nat := Option.none    -- the rank under re-admission training
  seq     : Word := 0
  deriving DecidableEq, Repr

/-! ## Training and calibration -/

/-- Where a run, or a restore, on a rank stands (R304, R312). -/
inductive CalStep where
  | start | measure | latch | stepping
  deriving DecidableEq, Repr

/-- The samplers of a bit that shadow the data sampler in a run, and the one in the check role (R295). -/
structure Roles where
  edge  : Option Nat := Option.none
  amp   : Option Nat := Option.none
  check : Option Nat := Option.none
  deriving DecidableEq, Repr

/-- A step of Breeze that is due (R306): of a setting by its place in the record, of a pin's segments, or of a bit's data role to a
sampler. -/
inductive BreezeEl where
  | setting (off bits : Nat)
  | swap (pin : Nat)
  | role (bit sampler : Nat)
  deriving DecidableEq, Repr

/-- A run or restore in progress on a sub-channel. `target` is the record its steps move toward; `roles` are the bits
whose data role is to move, with the new sampler. -/
structure CalRun where
  rank     : Nat
  step     : CalStep := .start
  restore  : Bool := false
  target   : List Byte := []
  accepted : Nat := 0                    -- nibbles accepted
  roles    : List (Nat × Nat) := []
  shadows  : List Roles := []            -- by bit, assigned at C1
  refs     : Nat := 0                    -- reference bursts since C1 (R299)
  compared : List (Nat × Nat) := []      -- role moves under comparison: the bit, and the reference bursts seen when it began (R296)
  hold     : Bool := false               -- step C4 holds the sub-channel for the ZQ latch (R260, R304)
  todo     : List BreezeEl := []         -- steps of this interval not yet applied (R306)
  waits    : Nat := 0                    -- intervals in which a step found no cycle
  deriving DecidableEq, Repr

/-- Training of a sub-channel (R275, R284): the step awaited (1 to 9, 10 the restore check; 0 none), the rank, the tries
made of the step, the record being built, and whether this is a re-admission (R352), which waits at step 11 once its
training has passed and at step 12 once it has failed. At step 13 a restore waits for its DLL (R382). -/
structure TrainRun where
  step   : Nat := 0
  rank   : Nat := 0
  tries  : Nat := 0
  record : List Byte := []
  start  : Nat := 0
  left   : Bool := false                 -- the device training mode of the step has been left for refreshes (R276)
  rst    : Bool := false                 -- a start through `RESTORE`
  store  : Bool := false                 -- the restore path is used (R283)
  readmit : Bool := false
  deriving DecidableEq, Repr

/-- The training and calibration engine and the retention store (R281, R282, R294 to R312). Tables are keyed by rank
p = 2n + k, by p and nibble (10p + nibble), by p and bit (40p + bit), or by sub-channel, bit and sampler
((40n + bit)·4 + sampler). -/
structure CalSt where
  due     : List Nat := []               -- sub-channels with a run due
  pend    : List Nat := []               -- sub-channels with the pending flag (R303)
  runs    : Tab (Option CalRun) := []
  live    : Tab (List Byte) := []        -- the live records: 1,020 bytes, without `CRC` (R309, R310)
  figures : Tab (List Byte) := []        -- the records as DPH_EYEA and DPH_EYEB report them (R311)
  valid   : Bool := false                -- the retention store's marker and CRC are good (R282)
  geom    : Word := 0                    -- its `MAP_GEOM`
  hubId   : Nat := 0                     -- its hub ID
  tset    : Nat := 0                     -- its timing set
  bin     : Nat := 0                     -- and bin
  temps   : Tab (BitVec 8) := []         -- its temperatures
  rejects : Tab Nat := []                -- consecutive rejections of a nibble (R305)
  held    : Tab Nat := []                -- accepted runs in which the data sampler has held its role (R296)
  cells   : Tab (List (BitVec 7)) := []  -- cells bypassed in a sampler's delay line (R297)
  checked : Tab Bool := []               -- a sampler has passed its check since it last held the data role (R296)
  turn    : Tab Nat := []                -- whose turn the check role is (R295)
  again   : Tab (Option Nat) := []       -- a candidate whose role move was cancelled, to be checked in the next run (R296)
  recheck : Tab (Option Nat) := []       -- of the run in progress, or the last one: the candidates it is to check (R296)
  exited  : List Nat := []               -- sub-channels that have left a Lull since the last evaluation (R303, R308)
  bar     : List (Nat × Option Nat) := []  -- sub-channels that take no steps after a loss of lock, and when the lock came back (R307)
  window  : List Byte := []              -- the record captured by `CAL_RECSEL` (R317)
  capturing : Bool := false
  eyeB    : Tab Word := []               -- the captured half of `DPH_EYEB` (R291)
  train   : Tab TrainRun := []
  deriving DecidableEq, Repr


/-! ## Clocks -/

/-- The dividers and band of a PLL (R375). -/
structure PllSet where
  post : Nat := 0
  int  : Nat := 0                        -- integer part of the feedback divider
  frac : BitVec 24 := 0                  -- its fraction, in 2⁻²⁴ (R373)
  band : BitVec 6 := 0
  deriving DecidableEq, Repr

/-- The clock sequencer (R370 to R390). `emerg` is the cause of an emergency Lull (0 none, 1 REFCLK, 2 MPLL, 3 CPLL) and
`estep` its step. -/
structure ClkSt where
  mpllLive : PllSet := {}
  mpllPend : PllSet := {}
  cpllLive : PllSet := {}
  cpllPend : PllSet := {}
  band     : BitVec 6 := 0               -- the band the MPLL's VCO runs in (R376)
  spread   : Option Nat := Option.none   -- the triangle runs: the model time at which it restarted at zero offset (R378)
  planned  : Bool := false               -- a planned Lull is in progress
  target   : Nat := 0
  emerg    : Nat := 0
  estep    : Nat := 0
  entered  : Bool := false               -- every rank is in self-refresh (L2)
  ready    : Bool := false               -- PLLs and DLLs are locked at the set to be used (L6)
  exitAsked : Bool := false              -- an exit request is held (R386)
  exitSeen : Bool := false               -- an exit request has come in this core cycle (R386)
  srDone   : Bool := false               -- `SR_MIN` has passed since the last entry
  began    : Nat := 0                    -- model time of the Lull's start
  retries  : Tab Nat := []               -- restarts of acquisition at L5, by sub-channel
  losing   : List Nat := []              -- sub-channels in self-refresh for a DLL loss of lock (R381)
  heldNum  : Nat := 0                    -- density held through a planned Lull (R390)
  memAcc   : Nat := 0                    -- the accumulator of MEMCLK_LOCK
  memTick  : Nat := 0                    -- MGCLK ticks since its last tick
  memPin   : Bool := false
  refIn    : Bool := false               -- REFCLK has stayed qualified since it last came (R371)
  deriving DecidableEq, Repr


/-! ## Power -/

/-- Supervision states of a rail (R402). -/
inductive RailState where
  | off | ramping | armed | disarmed
  deriving DecidableEq, Repr

/-- The record of a rail fault (R416). -/
structure FaultRec where
  first    : Nat
  kind     : BitVec 2
  mask     : BitVec 16
  state    : TopState
  stamp    : BitVec 64
  tq       : BitVec 3
  readings : List (BitVec 12)            -- latest reading of each VMON input, by index
  deriving DecidableEq, Repr

/-- The VBAT domain (R23, R398, R416, R445, R491, R547). `valid` says that its register file is; `found` that the file was
valid when the AON domain last started. DESIGN CHOICE, log entry 11. -/
structure VbatSt where
  present   : Bool := false              -- the coin cell
  on        : Bool := true               -- the domain is powered
  onCell    : Bool := false              -- its switch stands at VBAT
  valid     : Bool := false
  found     : Bool := false
  cvalid    : Bool := false              -- the contents-valid flag
  reason    : BitVec 4 := 0              -- the reason of its last clearing
  owed      : Bool := false              -- that clearing is still to be logged
  aonLost   : Bool := false
  lostState : TopState := .off
  gustSeq   : Word := 0                  -- the Gust sequence number
  tbHigh    : Nat := 0                   -- timebase bits [63:20]
  capSeq    : Word := 0                  -- the capture sequence counter
  logPtr    : Option (Nat × Word) := Option.none   -- sector of the write point and last `LSN`
  record    : Option FaultRec := Option.none
  deriving DecidableEq, Repr

/-- A drain in progress or last made, and the start that follows it (R435 to R440, R447 to R449). `step` is the step of
Gust awaited (3 to 7; 0 none); `rst` is the step of `RESTORE` awaited (2 to 7; 0 none). -/
structure GustSt where
  step     : Nat := 0
  slot     : Nat := 0
  complete : Bool := false
  lines    : Nat := 0
  marks    : Nat := 0
  ovf      : Bool := false
  began    : Nat := 0                    -- model time of the trigger
  len      : Nat := 0                    -- length of the last Gust, µs
  stamp    : BitVec 64 := 0              -- timebase of the trigger
  trig     : BitVec 2 := 0
  prev     : Bool := false
  prevFrom : Nat := 0
  dropped  : Bool := false               -- the MPLL has locked on no reference, or a line has found no copy
  rst      : Nat := 0
  early    : Bool := false               -- this start followed an early return
  unread   : Bool := false               -- a journal line could be read from neither copy
  headOk   : Bool := false               -- the newest pending header has the `SEQ` of the VBAT file
  headDone : Bool := false               -- and `COMPLETE` = 1
  overflow : Bool := false               -- `MARKS_OVF` was set in a pending slot
  full     : Bool := false               -- `JOIN` follows a table load that has been made
  deriving DecidableEq, Repr

/-- The rails supervised when a rail fault was declared: those a later excursion above or below their window, or the end of a start
timer, still adds to the record (R403, R414). -/
structure FailWatch where
  above : List Nat := []
  below : List Nat := []
  start : List Nat := []
  deriving DecidableEq, Repr

/-- The AON sequencer, the feeds, PLW_N, holdup and the gauge (R400 to R456). -/
structure PwrSt where
  rails    : Tab RailState := []
  order    : List Nat := []              -- rails whose EN output has been driven high, in that order
  part     : Nat := 0                    -- the start section running: 0 none, 1 boot, 2 memory
  acted    : Bool := false               -- its row has taken its action and awaits its condition
  ended    : Bool := false               -- it has no further row
  began    : Nat := 0
  stretch  : List Nat := []              -- resets whose stretch runs
  bootWait : Bool := false               -- the boot section has completed and waits for REFCLK and the core supply (R405)
  supplyOk : Bool := false               -- the core supply monitor's last report (R405)
  stop     : List (Nat × Word) := []     -- shutdown rows still to run: row number and word
  stopFrom : Nat := 0                    -- model time at which the last shutdown row completed (R410)
  stopActed : Bool := false              -- the shutdown row in hand has taken its action and awaits the discharge
  droop    : Bool := false               -- the full form that a trigger started
  exc      : List Nat := []              -- inputs in excursion: VMON index, 16 and 17 for the feeds
  record   : Option FaultRec := Option.none
  failAt   : Nat := 0                    -- model time of the last rail fault
  failWatch : FailWatch := {}
  fresh    : Option Nat := Option.none   -- when the active feed became active under V1 or V3
  overlap  : Option Feed := Option.none  -- the old feed whose gate is still on
  retHold  : Bool := false               -- the `RET` timer waits for `SERVICE`
  plwIgn   : List Nat := []              -- channels ignored until released
  plwPast  : Bool := false               -- a trigger has come since `RESTORE` or `SERVICE` was last entered (R433)
  plwTimer : Option Nat := Option.none   -- the channel that asserted first and alone, while `T_DISC` runs
  det      : Option (BitVec 2) := Option.none   -- a trigger detected and not yet registered
  left     : Bool := false               -- a feed has left its window since the trigger
  disagree : Bool := false
  holdLow  : Bool := false               -- HOLD_EN is to go low `OVL` after the gate
  latch    : Bool := false               -- the retention latch
  gaugeAt  : Option Nat := Option.none   -- model time of the last good gauge read
  mah      : Option Bool := Option.none  -- `BatteryMode()` reported mAh
  recal    : Bool := false               -- a recalibration request is owed
  remainZero : Bool := true              -- the last good read left nothing
  late     : List (BitVec 16 × Word × BitVec 64) := []   -- records owed to the log at the next start
  deriving DecidableEq, Repr

/-! ## Boot, flash and fuses -/

/-- The fuse array and what the cold boot has latched (R461 to R467). -/
structure FuseSt where
  normal  : Tab Word := []               -- physical words at the normal reference
  tight   : Tab Word := []               -- and at the tight one
  word    : Tab Word := []               -- logical words as latched
  faults  : List Nat := []               -- logical words that took their safe default
  stable  : Tab Nat := []                -- stable copies of a faulted word
  read    : Bool := false                -- read since the AON domain started
  owed    : Bool := false                -- the faults are still to be logged
  deriving DecidableEq, Repr

/-- The configuration store (R480): `cfg` holds the CFG registers by address. -/
structure StoreSt where
  ok      : Bool := false
  slot    : Nat := 0
  version : Word := 0
  svn     : Nat := 0
  tag     : List Byte := []
  cfg     : Tab Word := []
  deriving DecidableEq, Repr

/-- What the core finds of the CFG flash at C2 (R468). -/
inductive FlashState where
  | unknown | unusable | quad | single
  deriving DecidableEq, Repr

/-- The Tabnyx core and its boot (R457 to R489). Slots are 0 for A and 1 for B; a choice is 0 automatic, 1 A, 2 B. -/
structure BootSt where
  warm     : Bool := false               -- a boot has run since the AON domain started
  choice   : Nat := 0
  stage8   : Bool := false               -- C1 to C7 are over and C8 is awaited
  hold     : Nat := 0                    -- the hold cause found, or 0
  released : Bool := false               -- this boot follows a boot release
  again    : Bool := false               -- the next C1 follows a core reset of the same boot
  dead     : Bool := false               -- the entropy source has failed: the cipher core has stopped (R476)
  kicked   : Nat := 0                    -- model time at which the watchdog last restarted (R512)
  tried    : Bool := false               -- the trial count of this attempt has been written
  flash    : FlashState := .unknown
  check    : Option Nat := Option.none   -- the choice of a boot release under check
  flCmd    : Option Nat := Option.none   -- the mailbox command in progress
  keys     : Tab (List Byte) := []       -- halves of the cipher core's key slots: 2·slot + half
  ciph     : Option (Nat × List Byte) := Option.none   -- the cipher operation in progress: destination (0 the output words, else 2·slot + half) and result
  uses     : Nat := 0                    -- uses of key slot 0 since the cold boot
  service  : Nat := 0                    -- model time at which `SERVICE` was entered
  burn     : List (Nat × Nat) := []      -- rollback words still to program: physical word and bits
  burnTry  : Nat := 0
  answer   : Byte := 0                   -- the core's last register access: status and data
  data     : Word := 0
  deriving DecidableEq, Repr

/-- The mapping under which the reserve was initialised (R565): the geometry and hash registers, and the spared rank. Lines
of the reserve that nothing has written since read as zero lines encoded at the address they then had. -/
structure Formatted where
  geom    : Word
  hash    : List Word
  spRank  : Option Nat
  deriving DecidableEq, Repr
/-! ## The whole state -/

/-- The top level (R23, R26). -/
structure TopSt where
  state   : TopState := .aon
  prev    : TopState := .off
  cause   : Byte := 0x01
  aonOn   : Bool := true                 -- the AON domain runs
  coreOn  : Bool := false                -- the core domain runs
  trigger : Option (BitVec 2) := Option.none   -- a power-loss trigger is registered, with its TRIG code (R93)
  deriving DecidableEq, Repr

/-- The hub. `pending` is the queue of commands that wait, first in first out; `rx` holds what the receive crossings
have delivered and the core has not yet taken (R30). -/
structure State where
  pending : List Instr
  rx      : List RxItem
  free    : Nat                          -- the model's own: how many free values have been drawn (DESIGN CHOICE, log entry 1)
  top     : TopSt
  regs    : Tab Word                     -- registers that do not read their reset value
  time    : TimeSt
  log     : LogSt
  sb      : SbSt
  links   : Tab LinkSt                   -- keys 0 to 4
  twin    : TwinSt
  ord     : OrdSt
  map     : MapSt
  mir     : MirSt
  sch     : Tab SubCh                    -- keys 0 to 15
  flt     : FaultSt
  cal     : CalSt
  clk     : ClkSt
  vbat    : VbatSt
  pwr     : PwrSt
  gust    : GustSt
  fuse    : FuseSt
  cfgStore : StoreSt
  boot    : BootSt
  flash   : Tab Byte                     -- the CFG flash; an unlisted byte reads 0xFF
  fmt     : Option Formatted             -- set once the reserve has been initialised
  dram    : List Host.Cell               -- stored symbols by device location
  deriving DecidableEq, Repr

/-- The hub right after the AON domain has started at a cold boot: every register at its reset value (R4, R527), every
queue and table empty, memories with nothing listed. DESIGN CHOICE, log entries 7 and 11. -/
def State.reset : State where
  pending := []
  rx := []
  free := 0
  top := {}
  regs := []
  time := {}
  log := {}
  sb := {}
  links := []
  twin := {}
  ord := {}
  map := {}
  mir := {}
  sch := []
  flt := {}
  cal := {}
  clk := {}
  vbat := {}
  pwr := {}
  gust := {}
  fuse := {}
  cfgStore := {}
  boot := {}
  flash := []
  fmt := Option.none
  dram := []

end Sys2Proof.Machine
end

