-- ==== Sys2Proof/Machine/Tab.lean ====
section
/-!
DEFINITION. The named operations over sparse tables. A table keeps ONE canonical form (strictly rising keys, no entry
equal to its default), so equal tables are equal data.
-/

namespace Sys2Proof.Machine

/-- What key `k` reads as: its listed value, else the default of `k`. DESIGN CHOICE, log entry 44. -/
def Tab.get {α : Type} (d : Nat → α) : Tab α → Nat → α
  | [], k => d k
  | (j, v) :: r, k => if k = j then v else Tab.get d r k

/-- Insert or replace the pair of `k`. -/
def Tab.put {α : Type} (k : Nat) (v : α) : Tab α → Tab α
  | [] => [(k, v)]
  | (j, w) :: r => if k < j then (k, v) :: (j, w) :: r else if k = j then (k, v) :: r else (j, w) :: Tab.put k v r

/-- Remove the pair of `k`. -/
def Tab.del {α : Type} (k : Nat) (t : Tab α) : Tab α := t.filter fun p => p.1 != k

/-- Write `v` at `k`; the default value removes the entry. DESIGN CHOICE, log entry 44. -/
def Tab.set {α : Type} [DecidableEq α] (d : Nat → α) (t : Tab α) (k : Nat) (v : α) : Tab α :=
  if v = d k then Tab.del k t else Tab.put k v t

/-- The keys of a table rise strictly from above `lo`. -/
def Tab.risesFrom {α : Type} : Nat → Tab α → Bool
  | _, [] => true
  | lo, (j, _) :: r => decide (lo ≤ j) && Tab.risesFrom (j + 1) r

/-- The canonical form of a table. DESIGN CHOICE, log entry 44. -/
def Tab.wf {α : Type} [DecidableEq α] (d : Nat → α) (t : Tab α) : Bool :=
  Tab.risesFrom 0 t && t.all (fun p => decide (p.2 ≠ d p.1))

end Sys2Proof.Machine
end

