-- ==== Sys2Proof/Machine/Reg.lean ====
section
/-!
DEFINITION. Registers as stored words: reading and writing a word and a field, saturating counters (R4), and the places
where the state's parts are read and written (ports, streams, pool entries).
-/

namespace Sys2Proof.Machine

/-- The row of the register index that names address `a` (R529). -/
def regRow (a : Nat) : Option RegRow :=
  (regRows (a >>> 16)).find? fun r =>
    decide (r.base ≤ a) && decide (a < r.base + r.stride * r.count) && (a - r.base) % r.stride == 0

/-- The reset word of a register. DESIGN CHOICE, log entry 11. -/
def regReset (a : Nat) : Word :=
  match regRow a with
  | some r => r.reset
  | none => 0

/-- The bits [hi:lo] of a word, as a number. -/
def fieldGet (w : Word) (hi lo : Nat) : Nat := (w.toNat >>> lo) % 2 ^ (hi + 1 - lo)

/-- A word with its bits [hi:lo] replaced by the low bits of `v`. -/
def fieldPut (w : Word) (hi lo v : Nat) : Word :=
  let m : Word := BitVec.ofNat 32 ((2 ^ (hi + 1 - lo) - 1) <<< lo)
  (w &&& ~~~m) ||| (BitVec.ofNat 32 (v <<< lo) &&& m)

def State.reg (s : State) (a : Nat) : Word := Tab.get regReset s.regs a

def State.setReg (s : State) (a : Nat) (w : Word) : State := { s with regs := Tab.set regReset s.regs a w }

def State.fld (s : State) (f : Fld) : Nat := fieldGet (s.reg f.addr) f.hi f.lo

def State.setFld (s : State) (f : Fld) (v : Nat) : State := s.setReg f.addr (fieldPut (s.reg f.addr) f.hi f.lo v)

/-- The largest value a field can hold. -/
def Fld.max (f : Fld) : Nat := 2 ^ (f.hi + 1 - f.lo) - 1

/-- Add `n` to a counter field, saturating at all ones (R4). -/
def State.bumpF (s : State) (f : Fld) (n : Nat := 1) : State := s.setFld f (min f.max (s.fld f + n))

/-- Add `n` to a 32-bit counter register, saturating (R4). -/
def State.bump (s : State) (a : Nat) (n : Nat := 1) : State := s.bumpF ⟨a, 31, 0⟩ n

/-- Write a field, saturating a value that does not fit. -/
def State.satF (s : State) (f : Fld) (v : Nat) : State := s.setFld f (min f.max v)

/-- A flag field is set. -/
def State.flag (s : State) (f : Fld) : Bool := s.fld f != 0

def State.link (s : State) (p : Port) : LinkSt := Tab.get (fun _ => {}) s.links p.idx

def State.setLink (s : State) (p : Port) (l : LinkSt) : State :=
  { s with links := Tab.set (fun _ => {}) s.links p.idx l }

def State.onLink (s : State) (p : Port) (f : LinkSt → LinkSt) : State := s.setLink p (f (s.link p))

def State.entry (s : State) (i : Nat) : Option PoolEntry := Tab.get (fun _ => Option.none) s.ord.pool i

def State.setEntry (s : State) (i : Nat) (e : Option PoolEntry) : State :=
  { s with ord := { s.ord with pool := Tab.set (fun _ => Option.none) s.ord.pool i e } }

def State.onEntry (s : State) (i : Nat) (f : PoolEntry → PoolEntry) : State :=
  match s.entry i with
  | some e => s.setEntry i (some (f e))
  | none => s

def State.stream (s : State) (i : Nat) : StreamRec := Tab.get (fun _ => {}) s.ord.streams i

def State.setStream (s : State) (i : Nat) (r : StreamRec) : State :=
  { s with ord := { s.ord with streams := Tab.set (fun _ => {}) s.ord.streams i r } }

/-- The U-ports in order. -/
def uPorts : List Port := [.u0, .u1, .u2, .u3]

/-- All ports in order. -/
def allPorts : List Port := [.u0, .u1, .u2, .u3, .t]

def TopState.code : TopState → Nat
  | .off => 0 | .standby => 1 | .aon => 2 | .sequence => 3 | .boot => 4 | .bootHold => 5 | .train => 6 | .join => 7
  | .service => 8 | .gust => 9 | .calm => 10 | .restore => 11 | .faultOff => 12

def PairState.code : PairState → Nat
  | .none => 0 | .paired => 1 | .solo => 2 | .rebuildSrc => 3 | .rebuildDst => 4 | .fenced => 5

def PairState.ofCode : Nat → PairState
  | 1 => .paired | 2 => .solo | 3 => .rebuildSrc | 4 => .rebuildDst | 5 => .fenced | _ => .none

def LinkState.code : LinkState → Nat
  | .down => 0 | .train => 1 | .init => 2 | .service => 3 | .still => 4 | .retrain => 5

/-- Repeat a step once per element of a list. -/
def foldS {α : Type} (l : List α) (f : State → α → State) (s : State) : State := l.foldl f s

/-- Little-endian bytes of a value (R2). -/
def leBytes (n : Nat) : Nat → List Byte
  | 0 => []
  | k + 1 => BitVec.ofNat 8 n :: leBytes (n / 256) k

/-- The value of little-endian bytes (R2). -/
def ofLeBytes : List Byte → Nat
  | [] => 0
  | b :: r => b.toNat + 256 * ofLeBytes r

/-- A set bit for each position of `l`. -/
def maskOf (l : List Nat) : Nat := l.foldl (fun a i => a ||| (1 <<< i)) 0

/-- Write a flag field. -/
def State.setFlag (s : State) (f : Fld) (b : Bool) : State := s.setFld f (bitOf b)

end Sys2Proof.Machine
end

