-- ==== Sys2Proof/Machine/Events.lean ====
section
/-!
DEFINITION. Time and event services shared by every command: the timebase's stamp and quality (R490 to R498), the event
ring with its readers, cut-offs and Squall (R499 to R506), and the IBI (R514).
-/

namespace Sys2Proof.Machine

/-- The timebase in ns (R490). -/
def State.nowNs (s : State) : Nat := s.time.tb >>> 32

/-- A 64-bit stamp of the present tick. -/
def State.stamp (s : State) : BitVec 64 := BitVec.ofNat 64 s.nowNs

/-- Ticks come from MGCLK on REFCLK or BYPCLK (R490). -/
def State.mgTicks (s : State) : Bool := s.top.coreOn && s.fld Fld.CLK_STAT.REFSRC != 2

/-- Time quality (R497). -/
def State.quality (s : State) : BitVec 3 :=
  if !s.time.prevApplied then 0
  else if s.time.holdover then (if s.mgTicks then 4 else 5)
  else if s.time.ePrev.natAbs < 1000 then (if s.time.lastPaired then 2 else 1)
  else 3

/-- Qualities that count as holdover in the `TQ` bit of `EVENT` (R497). -/
def tqHoldover (q : BitVec 3) : Bool := q == 0 || q == 4 || q == 5

/-- Interval codes (R500). -/
inductive IntervalCode where
  | start (i : Nat) | stop (i : Nat) | plain
  deriving DecidableEq, Repr

def intervalOf (code : BitVec 16) : IntervalCode :=
  if code = 0x9005 then .start 0 else if code = 0x9006 then .stop 0
  else if code = 0xC002 then .start 1 else if code = 0xC003 then .stop 1
  else if code = 0xD001 then .start 2 else if code = 0xD002 then .stop 2
  else .plain

def LogSt.isOpen (l : LogSt) : Nat → Bool
  | 0 => l.lullOpen
  | 1 => l.holdOpen
  | _ => l.squall

def LogSt.setOpen (l : LogSt) (i : Nat) (b : Bool) : LogSt :=
  match i with
  | 0 => { l with lullOpen := b }
  | 1 => { l with holdOpen := b }
  | _ => { l with squall := b }

/-- Codes never coalesced: blocks GLB and PWR and the interval codes (R506). -/
def neverCoalesced (code : BitVec 16) : Bool :=
  code >>> 12 == 0 || code >>> 12 == 0xA || intervalOf code != .plain

/-- Codes that may use the last 16 entries of the ring (R503). -/
def mayUseLast (code : BitVec 16) : Bool := neverCoalesced code || code == 0xD003

/-- Keep `LOG_RINGSTAT.HIGH` at the highest occupancy (R524). -/
def State.noteRing (s : State) : State :=
  s.setFld Fld.LOG_RINGSTAT.HIGH (max (s.fld Fld.LOG_RINGSTAT.HIGH) s.log.ring.length)

def State.reader (s : State) (n : Nat) : Option Nat := Tab.get (fun _ => Option.none) s.log.rdU n

def State.setReader (s : State) (n : Nat) (r : Option Nat) : State :=
  { s with log := { s.log with rdU := Tab.set (fun _ => Option.none) s.log.rdU n r } }

/-- Free the entries every reader has passed (R502). -/
def State.freeRing (s : State) : State :=
  let k := [0, 1, 2, 3].foldl (fun m n => match s.reader n with | some r => min m r | none => m)
    (min s.log.rdLog s.log.rdSb)
  { s with log := { s.log with
      ring := s.log.ring.drop k, rdLog := s.log.rdLog - k, rdSb := s.log.rdSb - k,
      rdU := s.log.rdU.map fun p => (p.1, p.2.map fun r => r - k) } }

/-- The IBI of R514: an unread entry of the sideband reader whose block bit is set, when none is outstanding. -/
def State.raiseIbi (s : State) : State :=
  match s.sb.ibi with
  | some _ => s
  | none =>
    if s.sb.smbus || !s.sb.ibiOn || s.sb.dynAddr.isNone then s
    else
      match (s.log.ring.drop s.log.rdSb).find? fun e =>
          (s.fld Fld.LOG_SBCFG.IBIMASK).testBit (e.code.toNat >>> 12) with
      | some e => { s with sb := { s.sb with ibi := some (BitVec.ofNat 8 (e.code.toNat >>> 12)) } }
      | none => s

/-- The entries at the ring's tail captured in the tick of `e` that no reader has passed. -/
def LogSt.ofTick (l : LogSt) (e : RingEntry) : Nat :=
  let passed := l.rdU.foldl (fun m p => max m (p.2.getD 0)) (max l.rdLog l.rdSb)
  ((l.ring.drop passed).reverse.takeWhile fun x => x.stamp == e.stamp && !x.summary).length

/-- The ring with entry `e` captured: the captures of one tick stand in ascending event code and share out their consecutive
numbers in that order (R499). An entry a reader has passed keeps its place and its number. DESIGN CHOICE, log entry 16. -/
def LogSt.enter (l : LogSt) (e : RingEntry) : List RingEntry :=
  let k := l.ring.length - (if e.summary then 0 else l.ofTick e)
  let tail := l.ring.drop k
  let low := tail.takeWhile fun x => x.code ≤ e.code
  let placed := low ++ e :: tail.drop low.length
  l.ring.take k ++ placed.zipWith (fun (x : RingEntry) q => { x with seq := q }) (tail.map (·.seq) ++ [e.seq])

/-- Put an entry into the ring. -/
def State.pushEntry (s : State) (e : RingEntry) : State :=
  ({ s with log := { s.log with ring := s.log.enter e } }).noteRing

/-- Take the next sequence number (R499). -/
def State.takeSeq (s : State) : State := { s with log := { s.log with nextSeq := s.log.nextSeq + 1 } }

/-- The entry a capture makes now. -/
def State.mkEntry (s : State) (code : BitVec 16) (data count : Word) : RingEntry :=
  { code := code, seqLow := !s.log.raised, tq := s.quality, seq := s.log.nextSeq, stamp := s.stamp,
    epoch := BitVec.ofNat 16 (s.fld Fld.TIM_STAT.OFFSET_EPOCH), data := data, count := count }

/-- Cut off reader `r` (0 to 3 the U-ports, 4 the sideband), which has passed `pos` entries: it jumps to the newest
entry, the entries skipped are counted, and event 0xD003 is captured if any was (R502). DESIGN CHOICE, log entry 16. -/
def State.cutOff (s : State) (r pos : Nat) (setPos : State → Nat → State) : State :=
  let newest := s.log.ring.length - 1
  let skipped := newest - pos
  let s := setPos s newest
  if skipped = 0 then s
  else
    let s := s.bump Reg.LOG_LOST skipped
    let e := s.mkEntry 0xD003 (BitVec.ofNat 32 (r + 256 * min 0xFFFFFF skipped)) 0
    let s := s.bump Reg.LOG_CAPTURED
    if s.log.ring.length < 1024 then s.takeSeq.pushEntry e else s.takeSeq

/-- The cut-offs by distance that fall due (R502). -/
def State.cutFar (s : State) : State :=
  let s := uPorts.foldl (fun s p =>
    match s.reader p.idx with
    | some pos => if s.log.ring.length - pos ≥ 768 then s.cutOff p.idx pos (fun s n => s.setReader p.idx (some n)) else s
    | none => s) s
  if s.log.ring.length - s.log.rdSb ≥ 768 then
    s.cutOff 4 s.log.rdSb (fun s n => { s with log := { s.log with rdSb := n } })
  else s

/-- Squall begins when occupancy reaches 768, after the cut-offs (R504). -/
def State.trySquall (s : State) : State :=
  let s := s.freeRing
  if s.log.squall || s.log.ring.length < 768 then s
  else
    let occ := s.log.ring.length
    let s := { s with log := { s.log with squall := true, seen := [], table := [], overflow := 0, windows := 0 } }
    let s := (s.bump Reg.LOG_SQUALLS).bump Reg.LOG_CAPTURED
    let e := s.mkEntry 0xD001 (BitVec.ofNat 32 occ) 0
    if s.log.ring.length < 1024 then s.takeSeq.pushEntry e else s.takeSeq

/-- Count an event against its code in the coalescing table (R505, R506). -/
def State.coalesce (s : State) (e : RingEntry) (first : Bool) : State :=
  let s := s.bump Reg.LOG_COALESCED
  match s.log.table.find? (fun c => c.code == e.code) with
  | some _ =>
    { s with log := { s.log with table := s.log.table.map fun c =>
        if c.code == e.code then { c with count := min 0xFFFFFFFF (c.count + 1), last := e } else c } }
  | none =>
    if s.log.table.length < 128 then
      { s with log := { s.log with table := s.log.table ++ [⟨e.code, 1, e, first⟩] } }
    else { s with log := { s.log with overflow := s.log.overflow + 1 } }

/-- Directive `d` is no longer in progress (R538). -/
def State.endDir (s : State) (d : Nat) : State :=
  let b := s.fld Fld.GLB_DIRSTAT.BUSY
  if b.testBit d then (s.setFld Fld.GLB_DIRSTAT.BUSY (b - 2 ^ d)).setFld Fld.GLB_EVENT.DIRDONE 1 else s

/-- The directive that an event ends (R537, R538). Event 0x7003 ends one only where it is a restore's. -/
def endsDir (code : BitVec 16) : Option Nat :=
  if code = 0x9001 ∨ code = 0x9002 then some 1
  else if code = 0x7005 then some 8
  else if code = 0x8013 ∨ code = 0x6002 then some 11
  else none

/-- Capture an event (R499 to R506): orphan stops are counted and dropped; in Squall a code's later events, and any
general event that finds the general entries full, are coalesced; the rest take an entry. DESIGN CHOICE, log entry 16. -/
def State.capture (s : State) (code : BitVec 16) (data : Word) (count : Word := 0) : State :=
  if !s.top.aonOn then s
  else
    let s := match endsDir code with
      | some d => s.endDir d
      | none => s
    match intervalOf code with
    | .stop i =>
      if s.log.isOpen i then
        let e := s.mkEntry code data count
        let s := (s.bump Reg.LOG_CAPTURED).takeSeq
        let s := { s with log := s.log.setOpen i false }
        if s.log.ring.length < 1024 then (s.pushEntry e).cutFar.trySquall.raiseIbi else s.bump Reg.LOG_LOST
      else s.bump Reg.LOG_ORPHANS
    | k =>
      let e := s.mkEntry code data count
      let s := (s.bump Reg.LOG_CAPTURED).takeSeq
      let s := match k with
        | .start i => { s with log := s.log.setOpen i true }
        | _ => s
      if mayUseLast code then
        if s.log.ring.length < 1024 then (s.pushEntry e).cutFar.trySquall.raiseIbi else s.bump Reg.LOG_LOST
      else if s.log.squall && s.log.seen.contains code then s.coalesce e false
      else if s.log.ring.length ≥ 1008 then s.coalesce e true
      else
        let s := if s.log.squall then { s with log := { s.log with seen := s.log.seen ++ [code] } } else s
        (s.pushEntry e).cutFar.trySquall.raiseIbi

/-- Capture with a numeric `DATA`. -/
def State.event (s : State) (code : BitVec 16) (data : Nat) : State := s.capture code (BitVec.ofNat 32 data)

/-- A record the core makes from saved state (R507): it takes a sequence number when queued, keeps its captured stamp
and carries `LATE`. -/
def State.lateEvent (s : State) (code : BitVec 16) (data : Nat) (stamp : BitVec 64) : State :=
  let e := { s.mkEntry code (BitVec.ofNat 32 data) 0 with late := true, stamp := stamp }
  let s := s.takeSeq
  { s with log := { s.log with late := s.log.late ++ [e] } }

end Sys2Proof.Machine
end

