-- ==== Sys2Proof/Machine/Operands.lean ====
section
/-!
DEFINITION. The layouts of everything that crosses a link: messages, data slots and flits (R48 to R57, R80 to R111),
with the CRC-48 and the FEC of a flit. Encoders write 0 into every reserved field (R77).
-/

namespace Sys2Proof.Machine

/-- A message from (value, bit position) pairs. -/
def msgOf (fs : List (Nat × Nat)) : Msg := BitVec.ofNat 128 (fs.foldl (fun a p => a + (p.1 <<< p.2)) 0)

/-! ### Messages the hub sends -/

/-- A completion record (R85). -/
def cplRecord (tag : BitVec 12) (kind : BitVec 3) (nodur : Bool) (reason : Byte) : Nat :=
  tag.toNat + (kind.toNat <<< 12) + (bitOf nodur <<< 15) + (reason.toNat <<< 16)

/-- `CPL` with one to three records (R85). -/
def mkCpl (recs : List Nat) : Msg :=
  msgOf [(0x30, 0), (recs.length, 8), (recs.getD 0 0, 32), (recs.getD 1 0, 64), (recs.getD 2 0, 96)]

/-- `CPL_MGT` (R89). -/
def mkCplMgt (mtag : BitVec 4) (status : Nat) (data : Word) : Msg :=
  msgOf [(0x31, 0), (mtag.toNat, 8), (status, 16), (data.toNat, 32)]

/-- `EVENT` (R92). -/
def mkEvent (e : RingEntry) : Msg :=
  msgOf [(0x32, 0), (bitOf e.summary, 8), (bitOf (tqHoldover' e.tq), 9), (e.code.toNat, 16), (e.seq.toNat, 32),
    (e.data.toNat, 64), (if e.summary then e.count.toNat else e.stamp.toNat % 2 ^ 32, 96)]
where
  /-- Qualities that count as holdover (R497). -/
  tqHoldover' (q : BitVec 3) : Bool := q == 0 || q == 4 || q == 5

/-- Event 0x1041, remote wake, whose data field holds the wake reason (R68). -/
def mkWake (reason : Word) (seq : Word) (tq : Bool) (stamp : Nat) : Msg :=
  msgOf [(0x32, 0), (bitOf tq, 9), (0x1041, 16), (seq.toNat, 32), (reason.toNat, 64), (stamp % 2 ^ 32, 96)]

/-- `PLN` (R93). -/
def mkPln (gusting nohold : Bool) (trig : BitVec 2) (admitCnt : Nat) (lastTag : BitVec 12) (stamp : Nat) : Msg :=
  msgOf [(0x33, 0), (bitOf gusting, 8), (bitOf nohold, 9), (trig.toNat, 10), (admitCnt % 2 ^ 32, 32),
    (lastTag.toNat, 64), (stamp % 2 ^ 32, 96)]

/-- `MASK` (R96). -/
def mkMask (tag : BitVec 12) (m : BitVec 64) : Msg := msgOf [(0x40, 0), (tag.toNat, 8), (m.toNat, 32)]

/-- `ACK_RANGE` (R97). -/
def mkAckRange (epoch : Word) (through : Nat) : Msg :=
  msgOf [(0x41, 0), (epoch.toNat, 32), (through % 2 ^ 32, 64)]

/-- `ACK_LINES` (R98). -/
def mkAckLines (tags : List (BitVec 12)) : Msg :=
  msgOf ([(0x42, 0), (tags.length, 8)] ++ (List.range tags.length).map fun k => ((tags.getD k 0).toNat, 16 + 12 * k))

/-- `REPLICA_REJ`, `REPAIR_REQ` and `REPAIR_MISS` share one layout (R99, R100). -/
def mkRej (op : Nat) (tag : BitVec 12) (form : BitVec 3) (reason : Byte) (epoch : Word) (addr : BitVec 42) : Msg :=
  msgOf [(op, 0), (tag.toNat, 8), (form.toNat, 20), (reason.toNat, 24), (epoch.toNat, 32), (addr.toNat, 64)]

/-- `HANDOVER` (R101). -/
def mkHandover (mtag : BitVec 4) (step : Nat) (epoch : Word) (region : Nat) : Msg :=
  msgOf [(0x46, 0), (mtag.toNat, 8), (step, 16), (epoch.toNat, 32), (region % 2 ^ 18, 64)]

/-- `REBUILD_CTL` (R102). -/
def mkRebuild (cmd : Nat) (mtag : BitVec 4) (share : Nat) (epoch : Word) (cursor : Nat) (sess : Bool) : Msg :=
  msgOf [(0x47, 0), (mtag.toNat, 8), (cmd, 16), (share, 24), (epoch.toNat, 32), (cursor % 2 ^ 27, 64), (bitOf sess, 91)]

/-- `HEARTBEAT` (R103). -/
def mkHeartbeat (pstate : Nat) (epoch : Word) (sent stamp : Nat) : Msg :=
  msgOf [(0x48, 0), (pstate, 8), (epoch.toNat, 32), (sent % 2 ^ 32, 64), (stamp % 2 ^ 32, 96)]

/-- `CREDIT` (R105). -/
def mkCredit (init : Bool) (c : Credits) : Msg :=
  msgOf [(0x22, 0), (bitOf init, 8), (c.req, 16), (c.rd, 32), (c.lq, 48), (c.wd, 64), (c.mg, 80), (c.ev, 88)]

/-- `NEG` (R110). -/
def mkNeg (m : NegMsg) : Msg :=
  msgOf [(0x20, 0), (m.profile.toNat, 8), (m.linkRevs.toNat, 16), (m.mirRevs.toNat, 24), (m.features.toNat, 32),
    (m.domain.toNat, 64), (m.node.toNat, 80), (m.port.toNat, 104)]

/-- `NEG_ACK` (R111). -/
def mkNegAck (m : NegAckMsg) : Msg :=
  msgOf [(0x21, 0), (m.result.toNat, 8), (m.linkRev.toNat, 16), (m.mirRev.toNat, 24), (m.features.toNat, 32)]

/-! ### Messages the hub receives -/

/-- The host request in a message (R80). -/
def reqOf (m : Msg) : HostReq :=
  { tag := m.extractLsb' 8 12, acc := m.getLsbD 20, stream := m.extractLsb' 32 16, addr := m.extractLsb' 48 42 }

/-- The `DIRECTIVE` in a message, as the command of its `DCODE` (R90, R536). -/
def directiveOf (p : Port) (m : Msg) : Instr :=
  let h : DirHead := ⟨p, m.extractLsb' 8 4, m.extractLsb' 32 32⟩
  let arg : BitVec 64 := m.extractLsb' 64 64
  match bitsOf m 23 16 with
  | 0x01 => .directiveLull h arg
  | 0x02 => .directiveQuiesce h arg
  | 0x03 => .directiveHandover h arg
  | 0x04 => .directiveSoloGrant h arg
  | 0x05 => .directiveRebuildStart h arg
  | 0x06 => .directiveRebuildStop h arg
  | 0x07 => .directiveScrubRate h arg
  | 0x08 => .directiveCalRestore h arg
  | 0x09 => .directiveWallOffset h arg
  | 0x0A => .directiveRankRetire h arg
  | 0x0B => .directiveRankReadmit h arg
  | d => .directiveUnknown h (BitVec.ofNat 8 d) arg

/-- The host messages (R78, profile U). -/
def decodeU (p : Port) (m : Msg) : Instr :=
  match bitsOf m 7 0 with
  | 0x01 => .read p (reqOf m)
  | 0x02 => .writeA p (reqOf m)
  | 0x03 => .writeD p (reqOf m)
  | 0x04 => .mwriteA p (reqOf m)
  | 0x05 => .mwriteD p (reqOf m)
  | 0x06 => .flush p (reqOf m)
  | 0x10 => .mgtRead p (m.extractLsb' 8 4) (m.extractLsb' 16 24)
  | 0x11 => .mgtWrite p (m.extractLsb' 8 4) (m.extractLsb' 16 24) (m.extractLsb' 64 32)
  | 0x12 => directiveOf p m
  | 0x18 => .timeBeacon p (m.getLsbD 8) (m.extractLsb' 16 16) (m.extractLsb' 32 64)
  | _ => .unknownMessage p m

/-- The `REBUILD_CTL` fields of a message (R102). -/
def rebuildOf (m : Msg) : RebuildMsg :=
  { mtag := m.extractLsb' 8 4, share := m.extractLsb' 24 8, epoch := m.extractLsb' 32 32,
    cursor := m.extractLsb' 64 27, sess := m.getLsbD 91 }

/-- A `REBUILD_CTL` as the command of its `CMD`. `answer` tells that the hub has sent a message of that `CMD` and
`CURSOR` which is still unanswered (R224). -/
def rebuildCmd (answer : Bool) (m : Msg) : Instr :=
  let r := rebuildOf m
  let cmd := bitsOf m 23 16
  if r.share.toNat > 100 || (r.sess && r.cursor != 0x7FFFFFF && r.cursor != 0x7FFFFFE) then .unknownMessage .t m
  else if answer then .rebuildCtlAnswer (BitVec.ofNat 8 cmd) r
  else
    match cmd with
    | 0x01 => if r.sess then .rebuildCtlStartSession r else .rebuildCtlStartGranule r
    | 0x02 => .rebuildCtlStop r
    | 0x03 => .rebuildCtlCursor r
    | 0x04 => .rebuildCtlDone r
    | 0x05 => .rebuildCtlPace r
    | _ => .unknownMessage .t m

/-- The mirror messages (R78, profile T). -/
def decodeT (answer : Bool) (m : Msg) : Instr :=
  let tag : BitVec 12 := m.extractLsb' 8 12
  let epoch : Word := m.extractLsb' 32 32
  let addr : BitVec 42 := m.extractLsb' 64 42
  match bitsOf m 7 0 with
  | 0x33 => .plnOnT (m.extractLsb' 8 8) (m.extractLsb' 32 32) (m.extractLsb' 64 12) (m.extractLsb' 96 32)
  | 0x40 => .mask tag (m.extractLsb' 32 64)
  | 0x41 => .ackRange epoch (m.extractLsb' 64 32)
  | 0x42 =>
    let n := bitsOf m 11 8
    if n = 0 || n > 9 then .unknownMessage .t m
    else .ackLines ((List.range n).map fun k => m.extractLsb' (16 + 12 * k) 12)
  | 0x43 =>
    let r := bitsOf m 31 24
    let f := bitsOf m 22 20
    if r = 0 || r > 9 || f > 5 then .unknownMessage .t m
    else .replicaRej tag (m.extractLsb' 20 3) (m.extractLsb' 24 8) epoch addr
  | 0x44 => .repairReq tag epoch addr
  | 0x45 =>
    let r := bitsOf m 31 24
    if r = 0 || r > 4 then .unknownMessage .t m else .repairMiss tag (m.extractLsb' 24 8) epoch addr
  | 0x46 =>
    let h : HandoverMsg := ⟨m.extractLsb' 8 4, epoch, m.extractLsb' 64 18⟩
    match bitsOf m 23 16 with
    | 1 => .handoverRequest h
    | 2 => .handoverDrained h
    | 3 => .handoverTaken h
    | 4 => .handoverRefused h
    | _ => .unknownMessage .t m
  | 0x47 => rebuildCmd answer m
  | 0x48 =>
    if bitsOf m 10 8 > 5 then .unknownMessage .t m
    else .heartbeat (m.extractLsb' 8 3) epoch (m.extractLsb' 64 32) (m.extractLsb' 96 32)
  | _ => .unknownMessage .t m

/-- The command a delivered message is; an empty position is none (R54, R78). -/
def decodeMsg (p : Port) (answer : Bool) (m : Msg) : Option Instr :=
  match bitsOf m 7 0 with
  | 0x00 => none
  | 0x20 => some (.negReceived p
      { profile := m.extractLsb' 8 4, linkRevs := m.extractLsb' 16 8, mirRevs := m.extractLsb' 24 8,
        features := m.extractLsb' 32 32, domain := m.extractLsb' 64 16, node := m.extractLsb' 80 18,
        port := m.extractLsb' 104 3 })
  | 0x21 => some (.negAckReceived p
      { result := m.extractLsb' 8 8, linkRev := m.extractLsb' 16 8, mirRev := m.extractLsb' 24 8,
        features := m.extractLsb' 32 32 })
  | 0x22 => some (.credit p
      { init := m.getLsbD 8, req := m.extractLsb' 16 16, rd := m.extractLsb' 32 16, lq := m.extractLsb' 48 16,
        wd := m.extractLsb' 64 16, mg := m.extractLsb' 80 8, ev := m.extractLsb' 88 8 })
  | _ => some (if p.isT then decodeT answer m else decodeU p m)

/-! ### Data slots -/

/-- The 80 bytes of a data slot (R52). -/
def slotBytes (d : DataSlot) : List Byte :=
  leBytes d.line.toNat 64 ++ leBytes d.lseal.toNat 4 ++
  leBytes (d.tag.toNat + (d.form.toNat <<< 12) + (bitOf d.poison <<< 15) + (d.stream.toNat <<< 16) + (d.ext.toNat <<< 32)) 12

/-- The data slot in 80 bytes (R52). -/
def slotOfBytes (b : List Byte) : DataSlot :=
  let x := BitVec.ofNat 96 (ofLeBytes (b.drop 68))
  { line := BitVec.ofNat 512 (ofLeBytes (b.take 64)), lseal := BitVec.ofNat 32 (ofLeBytes ((b.drop 64).take 4)),
    tag := x.extractLsb' 0 12, form := x.extractLsb' 12 3, poison := x.getLsbD 15, stream := x.extractLsb' 16 16,
    ext := x.extractLsb' 32 64 }

/-- The line address in a slot of T (R52). -/
def slotAddr (d : DataSlot) : BitVec 42 := d.ext.extractLsb' 0 42

/-- The `MASKED` bit of a replica (R52). -/
def slotMasked (d : DataSlot) : Bool := d.ext.getLsbD 42

/-- The command a delivered data slot is. -/
def decodeSlot (p : Port) (d : DataSlot) : Instr :=
  if p.isT then
    match d.form.toNat with
    | 4 => .repairLineSlot d
    | 5 => .rebuildLineSlot d
    | _ => .replicaSlot d
  else .hostDataSlot p d

/-! ### CRC-48 and FEC -/

/-- One bit of the CRC-48 (R56). -/
def crc48Bit (c : BitVec 48) : BitVec 48 := if c.msb then (c <<< 1) ^^^ 0x5C4B3D29E6A7 else c <<< 1

/-- `k` bits of the CRC-48. -/
def crc48Bits : Nat → BitVec 48 → BitVec 48
  | 0, c => c
  | k + 1, c => crc48Bits k (crc48Bit c)

/-- The CRC-48 of a flit's first 244 bytes (R56). -/
def crc48 (b : List Byte) : BitVec 48 :=
  (b.foldl (fun (c : BitVec 48) (x : Byte) => crc48Bits 8 (c ^^^ (BitVec.setWidth 48 x <<< (40 : Nat))))
    (0xFFFFFFFFFFFF : BitVec 48)) ^^^ (0xFFFFFFFFFFFF : BitVec 48)

/-- Multiplication by x in GF(2^8) with x^8 + x^4 + x^3 + x^2 + 1 (R57). -/
def gfX (a : Byte) : Byte := if a.msb then (a <<< 1) ^^^ 0x1D else a <<< 1

/-- Multiplication in GF(2^8). -/
def gfMulAux : Nat → Byte → Byte → Byte → Byte
  | 0, _, _, acc => acc
  | k + 1, a, b, acc => gfMulAux k (gfX a) (b >>> 1) (if b.getLsbD 0 then acc ^^^ a else acc)

def gfMul (a b : Byte) : Byte := gfMulAux 8 a b 0

/-- The remainder of m(x)·x^2 by x^2 + 3x + 2: coefficients of x^1 and x^0 (R57). -/
def fecCheck (m : List Byte) : Byte × Byte :=
  m.foldl (fun r b => let t := b ^^^ r.1; (r.2 ^^^ gfMul 3 t, gfMul 2 t)) (0, 0)

/-- The bytes of interleave `k` in increasing index (R57). -/
def interleave (k : Nat) (b : List Byte) : List Byte :=
  (b.foldl (fun (p : Nat × List Byte) x => (p.1 + 1, if p.1 % 3 = k then x :: p.2 else p.2)) (0, [])).2.reverse

/-- Put three interleaves back in order. -/
def weave : Nat → List Byte → List Byte → List Byte → List Byte
  | 0, _, _, _ => []
  | n + 1, a, b, c =>
    match a with
    | x :: r => x :: weave n b c r
    | [] => []

/-- The syndromes of a codeword (R57): its values at α^0 and α^1. -/
def fecSyndromes (cw : List Byte) : Byte × Byte :=
  cw.foldl (fun s b => (s.1 ^^^ b, gfX s.2 ^^^ b)) (0, 0)

/-- The degree d below `n` with a·α^d = b, searched upward. -/
def fecLocate : Nat → Nat → Byte → Byte → Option Nat
  | 0, _, _, _ => none
  | n + 1, d, a, b => if a = b then some d else fecLocate n (d + 1) (gfX a) b

/-- Correct one interleave: at most one byte (R57). Answers the codeword and the number of bytes corrected. -/
def fecCorrect (cw : List Byte) : List Byte × Nat :=
  let s := fecSyndromes cw
  if s.1 = 0 then (cw, 0)
  else
    match fecLocate cw.length 0 s.1 s.2 with
    | some d => (cw.modify (cw.length - 1 - d) (· ^^^ s.1), 1)
    | none => (cw, 0)

/-- The FEC decoder of a flit (R57, R58): corrected bytes, and how many were corrected. -/
def fecDecode (b : List Byte) : List Byte × Nat :=
  let c0 := fecCorrect (interleave 0 b)
  let c1 := fecCorrect (interleave 1 b)
  let c2 := fecCorrect (interleave 2 b)
  (weave 256 c0.1 c1.1 c2.1, c0.2 + c1.2 + c2.2)

/-- Append CRC-48 and FEC to bytes 0 to 243: the whole flit (R56, R57). -/
def flitSeal (b : List Byte) : List Byte :=
  let m := b ++ leBytes (crc48 b).toNat 6
  let c0 := fecCheck (interleave 0 m)
  let c1 := fecCheck (interleave 1 m)
  let c2 := fecCheck (interleave 2 m)
  m ++ [c1.1, c2.1, c0.1, c1.2, c2.2, c0.2]

/-- A flit is good when its CRC-48 matches after correction (R58). -/
def flitGood (b : List Byte) : Bool :=
  b.length == 256 && ofLeBytes ((b.drop 244).take 6) == (crc48 (b.take 244)).toNat

/-- A flit header (R50). -/
structure FlitHeader where
  kind    : BitVec 2
  slotMap : BitVec 3
  pln     : Bool
  replay  : Bool
  ackv    : Bool
  seq     : BitVec 10
  ack     : BitVec 10
  nak     : Bool
  deriving DecidableEq, Repr

def headerBytes (h : FlitHeader) : List Byte :=
  leBytes (h.kind.toNat + (h.slotMap.toNat <<< 2) + (bitOf h.pln <<< 5) + (bitOf h.replay <<< 6) + (bitOf h.ackv <<< 7)
    + (h.seq.toNat <<< 8) + (h.ack.toNat <<< 18) + (bitOf h.nak <<< 28)) 4

def headerOf (b : List Byte) : FlitHeader :=
  let x := BitVec.ofNat 32 (ofLeBytes (b.take 4))
  { kind := x.extractLsb' 0 2, slotMap := x.extractLsb' 2 3, pln := x.getLsbD 5, replay := x.getLsbD 6,
    ackv := x.getLsbD 7, seq := x.extractLsb' 8 10, ack := x.extractLsb' 18 10, nak := x.getLsbD 28 }

/-- The 80 bytes of a slot. -/
def Slot.bytes : Slot → List Byte
  | .data d => slotBytes d
  | .msgs l => leBytes ((List.range 5).foldl (fun a k => a + ((l.getD k 0).toNat <<< (128 * k))) 0) 80

/-- Slot `k` of a flit's bytes (R48). -/
def slotAt (h : FlitHeader) (b : List Byte) (k : Nat) : Slot :=
  let x := (b.drop (4 + 80 * k)).take 80
  if h.slotMap.getLsbD k then .data (slotOfBytes x)
  else .msgs ((List.range 5).map fun j => BitVec.ofNat 128 (ofLeBytes ((x.drop (16 * j)).take 16)))

/-- `SLOTMAP` of a list of slots (R50). -/
def slotMapOf (l : List Slot) : BitVec 3 :=
  BitVec.ofNat 3 ((List.range 3).foldl (fun a k => match l[k]? with
    | some (Slot.data _) => a + 2 ^ k
    | _ => a) 0)

/-- The commands a slot delivers, in position order (R54, R55). `answer` judges `REBUILD_CTL` messages. -/
def slotCmds (p : Port) (answer : Msg → Bool) : Slot → List Instr
  | .data d => [decodeSlot p d]
  | .msgs l => l.filterMap fun m => decodeMsg p (answer m) m

end Sys2Proof.Machine
end

