-- ==== Sys2Proof/Machine/Integrity.lean ====
section
/-!
DEFINITION. Line integrity: the seal (R319, R320), and the Reed-Solomon code of a line in DRAM with its poison forms,
its accepted patterns and its decoder (R322 to R326, R330).
-/

namespace Sys2Proof.Machine

/-- One bit of the CRC-32C (R319). -/
def crc32Bit (c : Word) : Word := if c.getLsbD 0 then (c >>> 1) ^^^ 0x82F63B78 else c >>> 1

def crc32Bits : Nat → Word → Word
  | 0, c => c
  | k + 1, c => crc32Bits k (crc32Bit c)

/-- CRC-32C of a byte string (R319). -/
def crc32c (b : List Byte) : Word :=
  (b.foldl (fun (c : Word) (x : Byte) => crc32Bits 8 (c ^^^ BitVec.setWidth 32 x)) (0xFFFFFFFF : Word))
    ^^^ (0xFFFFFFFF : Word)

/-- The line seal over a line, an address in the pair or the local space, and a stream (R319). -/
def lineSeal (line : Line) (addr : Nat) (space : Bool) (stream : BitVec 16) : Word :=
  crc32c (leBytes line.toNat 64 ++ leBytes (addr % 2 ^ 42 + (bitOf space <<< 47)) 6 ++ leBytes stream.toNat 2)

/-- The line bits a byte mask selects. -/
def maskBits (m : BitVec 64) : Line :=
  BitVec.ofNat 512 ((List.range 64).foldl (fun a i => if m.getLsbD i then a + (0xFF <<< (8 * i)) else a) 0)

/-- The masked form of a line: bytes whose mask bit is 0 are 0x00 (R319). -/
def maskedForm (line : Line) (m : BitVec 64) : Line := line &&& maskBits m

/-- The merge of new bytes into an old line (R27). -/
def mergeLine (old new : Line) (m : BitVec 64) : Line := (old &&& ~~~maskBits m) ||| (new &&& maskBits m)

/-! ### GF(2^8) -/

/-- α^n (R57). -/
def gfPow : Nat → Byte
  | 0 => 1
  | n + 1 => gfX (gfPow n)

/-- a^n by squaring over the bits of n. -/
def gfExp : Nat → Byte → Nat → Byte
  | 0, _, _ => 1
  | k + 1, a, n => gfMul (if n % 2 = 1 then a else 1) (gfExp k (gfMul a a) (n / 2))

/-- The inverse, a^254. -/
def gfInv (a : Byte) : Byte := gfExp 8 a 254

/-- Polynomials are coefficient lists, lowest degree first. -/
def polyAdd : List Byte → List Byte → List Byte
  | [], q => q
  | p, [] => p
  | a :: p, b :: q => (a ^^^ b) :: polyAdd p q

def polyScale (k : Byte) (p : List Byte) : List Byte := p.map (gfMul k)

def polyMul : List Byte → List Byte → List Byte
  | [], _ => []
  | a :: p, q => polyAdd (polyScale a q) (0 :: polyMul p q)

def polyEval (p : List Byte) (x : Byte) : Byte := p.foldr (fun c a => c ^^^ gfMul x a) 0

/-- The formal derivative in characteristic 2. -/
def polyDeriv (p : List Byte) : List Byte :=
  (List.range (p.length - 1)).map fun i => if i % 2 = 0 then p.getD (i + 1) 0 else 0

/-- Degree of the highest nonzero coefficient plus one. -/
def polyLen (p : List Byte) : Nat := (p.reverse.dropWhile (· == 0)).length

/-! ### Encoding a line (R322, R323) -/

/-- g(x) = (x + α^0) … (x + α^15), without its leading coefficient, highest degree first. -/
def rsGen : List Byte := (((List.range 16).foldl (fun p i => polyMul [gfPow i, 1] p) [1]).reverse).drop 1

/-- One step of the division register: 16 coefficients, highest first. -/
def rsStep (g r : List Byte) (b : Byte) : List Byte :=
  let t := b ^^^ r.headD 0
  (List.range 16).map fun i => r.getD (i + 1) 0 ^^^ gfMul t (g.getD i 0)

/-- The virtual address symbols v0 to v4 (R323). -/
def virtualSymbols (addr : Nat) : List Byte := leBytes (addr % 2 ^ 39) 5

/-- The check symbols c0 to c15 of a line at local line address `addr` (R323). -/
def rsCheck (addr : Nat) (line : List Byte) : List Byte :=
  (virtualSymbols addr ++ line).foldl (rsStep rsGen) (List.replicate 16 0)

/-- The state of a line as the encoder or DRAM holds it (R328, R330). -/
inductive PoisonKind where
  | good | carried | locally
  deriving DecidableEq, Repr

/-- The pattern a poison form adds to each check symbol (R330). -/
def poisonPattern : PoisonKind → Byte
  | .good => 0x00
  | .carried => 0x5A
  | .locally => 0xC3

/-- The 80 stored symbols of a line: 64 data symbols, then c0 to c15 in their poison form (R322, R330). -/
def encodeLine (addr : Nat) (line : Line) (k : PoisonKind) : List Byte :=
  let d := leBytes line.toNat 64
  d ++ (rsCheck addr d).map (· ^^^ poisonPattern k)

/-! ### Decoding (R324, R325) -/

/-- The 16 syndromes of the 85-symbol codeword (R325). -/
def rsSyndromes (cw : List Byte) : List Byte :=
  (List.range 16).map fun j => cw.foldl (fun a c => gfMul (gfPow j) a ^^^ c) 0

/-- Codeword index of stored symbol `m` of package `k` (R322). -/
def packageIndexes (k : Nat) : List Nat :=
  (List.range 8).map fun m => 5 + 8 * k + m

/-- The locator X of a codeword index: α^(84 − i). -/
def locatorOf (i : Nat) : Byte := gfPow (84 - i)

/-- The error values at the positions `pos` that give the syndromes `s`, if there are such (Forney). -/
def solveAt (s : List Byte) (pos : List Nat) : Option (List (Nat × Byte)) :=
  let lam := pos.foldl (fun p i => polyMul [1, locatorOf i] p) [1]
  let om := (polyMul s lam).take 16
  if polyLen om ≤ pos.length then
    let dl := polyDeriv lam
    some (pos.map fun i =>
      let xi := gfInv (locatorOf i)
      (i, gfMul (locatorOf i) (gfMul (polyEval om xi) (gfInv (polyEval dl xi)))))
  else none

/-- Berlekamp-Massey: the shortest locator of a syndrome sequence. -/
structure BmState where
  c : List Byte
  b : List Byte
  l : Nat
  m : Nat
  d : Byte
  n : Nat
  deriving DecidableEq, Repr

def bmStep (s : List Byte) (t : BmState) : BmState :=
  let disc := (List.range (t.l + 1)).foldl (fun a i => a ^^^ gfMul (t.c.getD i 0) (if i ≤ t.n then s.getD (t.n - i) 0 else 0)) 0
  if disc = 0 then { t with m := t.m + 1, n := t.n + 1 }
  else
    let c' := polyAdd t.c (List.replicate t.m 0 ++ polyScale (gfMul disc (gfInv t.d)) t.b)
    if 2 * t.l ≤ t.n then { c := c', b := t.c, l := t.n + 1 - t.l, m := 1, d := disc, n := t.n + 1 }
    else { t with c := c', m := t.m + 1, n := t.n + 1 }

def bmRun (s : List Byte) : BmState :=
  (List.range s.length).foldl (fun t _ => bmStep s t) { c := [1], b := [1], l := 0, m := 1, d := 1, n := 0 }

/-- At most `most` errors at any positions beside the erasures `er` (R324). -/
def locateScattered (s : List Byte) (er : List Nat) (most : Nat) : Option (List (Nat × Byte)) :=
  let gam := er.foldl (fun p i => polyMul [1, locatorOf i] p) [1]
  let t := ((polyMul s gam).take 16).drop er.length
  let bm := bmRun t
  if bm.l > most then none
  else
    let roots := (List.range 85).filter fun i => !er.contains i && polyEval bm.c (gfInv (locatorOf i)) == 0
    if roots.length = bm.l then solveAt s (er ++ roots) else none

/-- The positions of v0 to v4. -/
def virtualIndexes : List Nat := [0, 1, 2, 3, 4]

/-- `locate` of R325: an error pattern only if R324 accepts it. Zero values are left out. -/
def locateErrors (s : List Byte) (erased : Option Nat) : Option (List (Nat × Byte)) :=
  let clean (e : Option (List (Nat × Byte))) := e.map fun l => l.filter fun p => p.2 != 0
  match erased with
  | some k => clean (locateScattered s (packageIndexes k) 4)
  | none =>
    match locateScattered s [] 4 with
    | some e => clean (some e)
    | none =>
      clean (((List.range 10).map packageIndexes ++ [virtualIndexes]).findSome? fun pos => solveAt s pos)

/-- The outcomes of R325. A corrected line carries the packages it was corrected in. -/
inductive DecodeOut where
  | clean | corrected | carried | localPoison | addrMismatch | uncorrectable
  deriving DecidableEq, Repr

/-- What a read of 80 stored symbols gives: the outcome, the line, and the error pattern removed. -/
structure Decoded where
  out    : DecodeOut
  line   : Line
  errors : List (Nat × Byte)
  deriving DecidableEq, Repr

/-- Remove an error pattern from a codeword. -/
def applyErrors (cw : List Byte) (e : List (Nat × Byte)) : List Byte :=
  e.foldl (fun c p => c.modify p.1 (· ^^^ p.2)) cw

/-- The line in a codeword. -/
def lineOf (cw : List Byte) : Line := BitVec.ofNat 512 (ofLeBytes ((cw.drop 5).take 64))

/-- The syndromes of a poison pattern (R325). -/
def poisonSyndromes (k : PoisonKind) : List Byte :=
  rsSyndromes (List.replicate 69 0 ++ List.replicate 16 (poisonPattern k))

/-- The decoder of R325, for a read of local line address `addr` on a rank whose erased package is `erased`. -/
def decodeLine (addr : Nat) (erased : Option Nat) (stored : List Byte) : Decoded :=
  let cw := virtualSymbols addr ++ stored
  let s := rsSyndromes cw
  let z := List.replicate 16 (0 : Byte)
  if s = z then ⟨.clean, lineOf cw, []⟩
  else
    let sc := polyAdd s (poisonSyndromes .carried)
    let sl := polyAdd s (poisonSyndromes .locally)
    if sc = z then ⟨.carried, lineOf cw, []⟩
    else
      match locateErrors sc erased with
      | some e => ⟨.carried, lineOf (applyErrors cw e), e⟩
      | none =>
        if sl = z then ⟨.localPoison, lineOf cw, []⟩
        else
          match locateErrors sl erased with
          | some e => ⟨.localPoison, lineOf (applyErrors cw e), e⟩
          | none =>
            match locateErrors s erased with
            | some e =>
              if e.any (fun p => decide (p.1 < 5)) then ⟨.addrMismatch, lineOf cw, e⟩
              else ⟨.corrected, lineOf (applyErrors cw e), e⟩
            | none => ⟨.uncorrectable, lineOf cw, []⟩

end Sys2Proof.Machine
end

