-- ==== Sys2Proof/Machine/Ops.lean ====
section
/-!
DEFINITION. The shared operations of the line path and the mirror agent: credits (R104 to R109), pool entries and
completions (R34, R84 to R86, R127 to R130), durability (R126, R180 to R183), the geometry (R157 to R160, R353 to R358) and dispatch
to Schedule (R31, R239).
-/

namespace Sys2Proof.Machine

/-! ### What the hub can tell about itself -/

/-- The hub reports holdup (R21, R430). -/
def State.holdup (s : State) : Bool := s.flag Fld.PWR_HOLD.READY

/-- Feature bit `n` is agreed on the port (R114). -/
def State.feat (s : State) (p : Port) (n : Nat) : Bool := (s.reg (Reg.LNK_FEAT p.idx)).getLsbD n

/-- The port carries traffic state: `SERVICE`, `STILL` or `RETRAIN`. -/
def LinkSt.up (l : LinkSt) : Bool :=
  match l.lstate with
  | .service | .still | .retrain => true
  | _ => false

/-- The pair state as reported (R202): none outside `JOIN` and `SERVICE`. -/
def State.pairState (s : State) : PairState :=
  match s.top.state with
  | .join | .service => s.mir.pstate
  | _ => .none

/-- A twin-loss cause stands (R208). -/
def State.causeStands (s : State) : Bool := s.fld Fld.MIR_CAUSE.FIRST != 0

def State.sub (s : State) (n : Nat) : SubCh := Tab.get (fun _ => {}) s.sch n

def State.setSub (s : State) (n : Nat) (c : SubCh) : State := { s with sch := Tab.set (fun _ => {}) s.sch n c }

def State.onSub (s : State) (n : Nat) (f : SubCh → SubCh) : State := s.setSub n (f (s.sub n))

/-- A free value of the model: the number of the value, drawn from the counter `free`. DESIGN CHOICE, log entry 1. -/
def State.draw (s : State) : Nat × State := (s.free, { s with free := s.free + 1 })

/-! ### Messages and credits -/

/-- Queue a message on a port whose link is up. -/
def State.send (s : State) (p : Port) (m : Msg) : State :=
  if (s.link p).up then s.onLink p fun l => { l with tx := l.tx ++ [.msg m] } else s

/-- Queue a message that returns credits, or frees a pool entry, when it enters a flit (R34, R104). -/
def State.sendOwing (s : State) (p : Port) (m : Msg) (c : Credits) (pool : Option Nat) : State :=
  if (s.link p).up then s.onLink p fun l => { l with tx := l.tx ++ [.owing m c pool] } else s

/-- The data slots that wait on a port. -/
def LinkSt.txData (l : LinkSt) : List TxData := l.tx.filterMap fun
  | .data d => some d
  | _ => Option.none

/-- Capture an event for which the manual states no `DATA`: the word is a free value. DESIGN CHOICE, log entry 2. -/
def State.freeEvent (s : State) (code : BitVec 16) : State :=
  let d := s.draw
  d.2.capture code (Config.freeWord d.1)

def Credits.add (a b : Credits) : Credits :=
  ⟨a.req + b.req, a.rd + b.rd, a.lq + b.lq, a.wd + b.wd, a.mg + b.mg, a.ev + b.ev⟩

/-- Some class has reached 32 credits owed (R106). -/
def Credits.full (c : Credits) : Bool := c.req ≥ 32 || c.rd ≥ 32 || c.lq ≥ 32 || c.wd ≥ 32 || c.mg ≥ 32

def Credits.any (c : Credits) : Bool := c.req + c.rd + c.lq + c.wd + c.mg > 0

/-- Send all credits owed in one `CREDIT` (R105, R106). -/
def State.creditNow (s : State) (p : Port) : State :=
  let l := s.link p
  if l.owed.any then
    (s.setLink p { l with granted := l.granted.add l.owed, owed := {} }).send p (mkCredit false l.owed)
  else s

/-- Owe credits to a port; 32 of one class are sent at once (R106). Nothing is owed while the port is down (R109). -/
def State.owe (s : State) (p : Port) (c : Credits) : State :=
  if (s.link p).up then
    let s := s.onLink p fun l => { l with owed := l.owed.add c }
    if (s.link p).owed.full then s.creditNow p else s
  else s

/-- The share of each class on a port (R104). -/
def shareOf (p : Port) : Credits :=
  if p.isT then { req := 2048, rd := 0, lq := 256, wd := 512, mg := 16 }
  else { req := 1536, rd := 1024, lq := 256, wd := 256, mg := 16 }

/-! ### Runs of ended requests (R94, R97) -/

/-- Drop the ended requests from the front of the window. -/
def Prefix.advance (base : Nat) (last : BitVec 12) : List (BitVec 12 × Bool) → Prefix
  | [] => { base := base, last := last, win := [] }
  | (t, true) :: r => Prefix.advance (base + 1) t r
  | (t, false) :: r => { base := base, last := last, win := (t, false) :: r }

/-- A new request at the end of the window. -/
def Prefix.push (p : Prefix) (tag : BitVec 12) : Prefix := { p with win := p.win ++ [(tag, false)] }

/-- Request number `n` (from 0 since INIT) ends. -/
def Prefix.finish (p : Prefix) (n : Nat) : Prefix :=
  if n < p.base then p
  else Prefix.advance p.base p.last (p.win.modify (n - p.base) fun e => (e.1, true))

/-- Send a `REBUILD_CTL` of the hub's own, to be answered (R224). -/
def State.sendCtl (s : State) (cmd cursor : Nat) (sess : Bool) (share : Nat) : State :=
  let s := { s with mir := { s.mir with lastCtl := s.mir.lastCtl ++ [(cmd, cursor, sess)] } }
  s.send .t (mkRebuild cmd 0 share s.mir.epoch cursor sess)

/-- Answer a `REBUILD_CTL` with the same `CMD` and `CURSOR`: its MG credit returns when the answer is sent (R104, R224). -/
def State.answerCtl (s : State) (cmd : Nat) (m : RebuildMsg) : State :=
  s.sendOwing .t (mkRebuild cmd m.mtag m.share.toNat s.mir.epoch m.cursor.toNat m.sess) { mg := 1 } Option.none

/-! ### The pool -/

/-- The first key of a table not below `lo` that is free. -/
def firstFree {α : Type} (lo : Nat) : Tab α → Nat
  | [] => lo
  | (k, _) :: r => if k < lo then firstFree lo r else if k = lo then firstFree (lo + 1) r else lo

def State.poolOcc (s : State) : Nat := (s.ord.pool.filter fun p => decide (p.1 < 8192)).length

def State.wbOcc (s : State) : Nat :=
  (s.ord.pool.filter fun p => decide (p.1 < 8192) && (match p.2 with | some e => e.hasLine | none => false)).length

def State.noteHigh (s : State) (f : Fld) (v : Nat) : State := s.setFld f (max (s.fld f) v)

def State.notePool (s : State) : State :=
  ((s.noteHigh Fld.ORD_POOLOCC.HIGH s.poolOcc).noteHigh Fld.ORD_WBOCC.HIGH s.wbOcc).noteHigh
    Fld.ORD_RBOCC.HIGH s.ord.retRes

/-- Change every pool entry in place. -/
def State.mapPool (s : State) (f : PoolEntry → PoolEntry) : State :=
  { s with ord := { s.ord with pool := s.ord.pool.map fun (q : Nat × Option PoolEntry) => (q.1, q.2.map f) } }

/-- Change every pending-ack entry in place. -/
def State.mapPend (s : State) (f : Nat → PendEntry → PendEntry) : State :=
  { s with mir := { s.mir with pend := s.mir.pend.map fun (q : Nat × Option PendEntry) => (q.1, q.2.map (f q.1)) } }

/-- A pool entry is on its stream list: a write or flush that owes and has not been built. -/
def PoolEntry.listed (e : PoolEntry) : Bool := e.owes && !e.done

/-- Free a pool entry: its REQ credit is owed to its port (R34, R104). -/
def State.freeEntry (s : State) (i : Nat) : State :=
  match s.entry i with
  | none => s
  | some e =>
    let s := s.setEntry i Option.none
    if i < 8192 then s.owe e.port { req := 1 } else s

/-- A write or line of T frees its entry once issued and owing nothing (R34). -/
def State.tryFree (s : State) (i : Nat) : State :=
  match s.entry i with
  | some e =>
    match e.kind with
    | .write | .masked | .replica | .mreplica | .rebuild | .repair | .agentWrite | .spareCopy =>
      if e.issued && !e.owes then s.freeEntry i else s
    | _ => s
  | none => s

/-! ### Return -/

/-- A read whose port has gone ends without an answer (R66): its entry and its return line are freed, and their credits are owed
on the link that stands (R109). -/
def State.dropRead (s : State) (i : Nat) (e : PoolEntry) : State :=
  let s := s.freeEntry i
  ({ s with ord := { s.ord with retRes := s.ord.retRes - 1 } }).owe e.port { rd := 1 }

/-- Hand an item to Return; what is owed to a port that is down is discarded and its entries freed (R66).
DESIGN CHOICE, log entry 40. -/
def State.toReturn (s : State) (orphan : Bool) (it : RetItem) : State :=
  if orphan || !(s.link it.port).up then
    match it.pool with
    | some i =>
      match s.entry i with
      | some e =>
        match e.kind with
        | .read => s.dropRead i e
        | .flush => s.freeEntry i
        | _ => (s.onEntry i fun e => { e with owes := false }).tryFree i
      | none => s
    | none => s
  else { s with ord := { s.ord with ret := s.ord.ret ++ [it] } }

/-- A completion record that frees nothing but a tag. -/
def State.complete (s : State) (orphan : Bool) (p : Port) (tag : BitVec 12) (kind : BitVec 3) (nodur final : Bool)
    (pool : Option Nat) : State :=
  s.toReturn orphan { port := p, body := .record tag kind nodur 0 final, built := s.time.cycle, pool := pool }

/-- Reject a host request: its rejection returns its REQ credit, a read's RD credit and a write's WD credit when it
enters a flit (R40, R104). -/
def State.rejectHost (s : State) (p : Port) (op : HostOp) (tag : BitVec 12) (reason : Byte) : State :=
  s.toReturn false
    { port := p, body := .record tag 4 false reason true, built := s.time.cycle, freeReq := true,
      freeRd := op == .read, freeWd := op != .read && op != .flush }

/-- A read that holds a pool entry and a return line ends rejected: the line is held until the rejection's flit is handed to the
transmit crossing (R34). -/
def State.rejectRead (s : State) (i : Nat) (e : PoolEntry) (reason : Byte) : State :=
  (s.onEntry i fun e => { e with done := true }).toReturn e.orphan
    { port := e.port, body := .record e.tag 4 false reason true, built := s.time.cycle, pool := some i, line := true, freeRd := true }

/-- Hand read data to Return as a data slot of `FORM` 0b010, its seal forged for the read (R52, R320, R330). -/
def State.readData (s : State) (i : Nat) (e : PoolEntry) (line : Line) (corr : Nat) (poison : Bool) : State :=
  let corr := if poison then 0 else if corr ≥ 2 && !s.feat e.port 8 then 1 else corr
  let sl := lineSeal line e.pair.toNat false e.stream
  let d : DataSlot :=
    { line := line, lseal := if poison then ~~~sl else sl, tag := e.tag, form := 2, poison := poison, stream := e.stream,
      ext := BitVec.ofNat 64 corr }
  let s := s.onEntry i fun e => { e with done := true }
  s.toReturn e.orphan { port := e.port, body := .data d, built := s.time.cycle, pool := some i, line := true, freeRd := true }

/-! ### Streams (R127 to R129) -/

/-- Put pool entry `i` at the tail of its stream's list. DESIGN CHOICE, log entry 40. -/
def State.joinStream (s : State) (sid i : Nat) : State :=
  let r := s.stream sid
  if r.len = 0 then s.setStream sid { r with head := i, tail := i, len := 1 }
  else (s.onEntry r.tail fun e => { e with next := some i }).setStream sid { r with tail := i, len := r.len + 1 }

/-- Take the head off a stream's list. -/
def State.leaveStream (s : State) (sid : Nat) : State :=
  let r := s.stream sid
  match s.entry r.head with
  | some e => s.setStream sid { r with head := e.next.getD 0, tail := if r.len ≤ 1 then 0 else r.tail, len := r.len - 1 }
  | none => s.setStream sid { r with head := 0, tail := 0, len := 0 }

/-! ### Durability (R126, R180 to R183) -/

inductive Basis where
  | mirror | solo | none
  deriving DecidableEq, Repr

/-- The sync state of the region of a pair line (R147). -/
def State.syncOf (s : State) (pair : BitVec 42) : Nat := fieldGet (Tab.get (fun _ => 0) s.map.rt (pair.toNat >>> 24)) 22 20

/-- The durability basis in force for a write to a pair line (R180). -/
def State.basis (s : State) (pair : BitVec 42) : Basis :=
  match s.mir.pstate with
  | .paired | .rebuildDst => if s.causeStands then .none else .mirror
  | .rebuildSrc => if s.syncOf pair != 0 then .solo else if s.causeStands then .solo else .mirror
  | .solo => .solo
  | _ => .none

/-- The condition of the basis holds for a write that is acknowledged or not. -/
def State.basisHolds (s : State) (pair : BitVec 42) (acked : Bool) : Bool :=
  match s.basis pair with
  | .mirror => acked
  | .solo => true
  | .none => false

/-- Build the completion owed by the head of a stream if its condition is met (R129, R136, R182). A flush whose mark the frontier has
reached is built even while a twin-loss cause stands: the barrier of R136 decides, where R138 compares the flush with a forked write
admitted at the same point. DEDUCED, log entry 42. -/
def State.buildHead (s : State) (sid : Nat) : Option State :=
  let r := s.stream sid
  if r.len = 0 then Option.none
  else
    match s.entry r.head with
    | Option.none => Option.none
    | some e =>
      if e.kind == .flush then
        if e.mark ≤ s.ord.front then
          let s := (s.leaveStream sid).bump Reg.ORD_FLUSHES
          let s := s.onEntry r.head fun e => { e with done := true }
          some (s.complete e.orphan e.port e.tag 2 false true (some r.head))
        else Option.none
      else if e.durable then
        let s := (s.leaveStream sid).onEntry r.head fun e => { e with done := true }
        some (s.complete e.orphan e.port e.tag (if e.poison then 3 else 2) false true (some r.head))
      else Option.none

/-- Build every head of one stream that can be built. -/
def State.buildStream (sid : Nat) : Nat → State → State
  | 0, s => s
  | n + 1, s =>
    match s.buildHead sid with
    | some s' => State.buildStream sid n s'
    | Option.none => s

/-- Build every completion whose place in its stream has come. DESIGN CHOICE, log entry 42. -/
def State.buildAll (s : State) : State :=
  s.ord.streams.foldl (fun s p => State.buildStream p.1 p.2.len s) s

/-- The durable frontier when `forks` are the forked writes not yet durable (R126). -/
def frontOf (old next : Nat) : List ForkRec → Nat
  | [] => max old (next - 1)
  | f :: _ => max old (f.no - 1)

/-- Let every write whose basis condition now holds reach its durable point, move the frontier, and build the
completions that can be built (R126, R129, R180, R183). -/
def State.settle (s : State) : State :=
  let forks := s.ord.forks.filter fun f => !s.basisHolds f.pair f.acked
  let s' := if s.holdup then
      s.mapPool fun e =>
        if e.kind != .flush && e.owes && !e.durable && s.basisHolds e.pair e.acked then { e with durable := true } else e
    else s
  ({ s' with ord := { s'.ord with forks := forks, front := frontOf s.ord.front s.ord.forkNext forks } }).buildAll

/-! ### Schedule dispatch (R31, R239) -/

/-- A local line address split by the geometry in force (R157 to R159): sub-channel and device location. -/
structure Geometry where
  sBits : Nat
  rBits : Nat
  dBits : Nat
  rowW  : Nat
  rows  : Nat
  deriving DecidableEq, Repr

/-- Row field width and rows per bank of a density code (R157). -/
def rowsOf : Nat → Nat × Nat
  | 0 => (16, 65536)
  | 1 => (17, 98304)
  | 2 => (17, 131072)
  | _ => (18, 262144)

def State.geom (s : State) : Geometry :=
  let d := rowsOf (s.fld Fld.MAP_GEOM.DENSITY)
  ⟨s.fld Fld.MAP_GEOM.SC_BITS, s.fld Fld.MAP_GEOM.RANK_BITS, s.fld Fld.MAP_GEOM.DIE_BITS, d.1, d.2⟩

/-- The number of local regions N (R164). -/
def Geometry.regions (g : Geometry) : Nat := g.rows * 2 ^ (g.sBits + g.rBits + g.dBits) / 4096

/-- Parity of a number's low 32 bits. -/
def parity32 (n : Nat) : Nat := (List.range 32).foldl (fun a i => (a + (n >>> i)) % 2) 0

/-- The hash contribution of mask `k` (R159): it depends on column and row alone. -/
def State.hashBit (s : State) (k a : Nat) : Nat := parity32 ((a >>> 7) % 2 ^ 32 &&& (s.reg (Reg.MAP_HASHMASK0 + 4 * k)).toNat)

/-- Base position of component bit `k`, or none outside the population (R158). -/
def Geometry.base (g : Geometry) (k : Nat) : Option Nat :=
  if k < 4 then (if k < g.sBits then some k else none)
  else if k = 4 then (if g.rBits = 0 then none else some (g.sBits + 12))
  else if k < 9 then (if k - 5 < g.dBits then some (g.sBits + g.rBits + 12 + (k - 5)) else none)
  else if k < 12 then some (g.sBits + (k - 9))
  else some (g.sBits + 3 + (k - 12))

/-- Component bit `k` of local line address `a` (R159). -/
def State.compBit (s : State) (k a : Nat) : Nat :=
  match s.geom.base k with
  | some b => ((a >>> b) % 2 + s.hashBit k a) % 2
  | none => 0

/-- Bits `ks` of the decomposition as one number, lowest first. -/
def State.compBits (s : State) (ks : List Nat) (a : Nat) : Nat :=
  ks.foldr (fun k acc => s.compBit k a + 2 * acc) 0

/-- Sub-channel of a local line address. -/
def State.scOf (s : State) (a : Nat) : Nat := s.compBits [0, 1, 2, 3] a

/-- Device location of a local line address (R157 to R159). -/
def State.locOf (s : State) (a : Nat) : Loc :=
  let g := s.geom
  { rank := s.compBit 4 a, die := s.compBits [5, 6, 7, 8] a, bg := s.compBits [9, 10, 11] a,
    bank := s.compBits [12, 13] a, col := (a >>> (g.sBits + 5)) % 128, row := a >>> (g.sBits + g.rBits + g.dBits + 12) }

/-- The hash of component `k` undone: the base bit that gives component value `v` at column and row of `a` (R160). -/
def State.unhash (s : State) (k a v : Nat) : Nat := ((v >>> 0) + s.hashBit k a) % 2

/-- The local line address of a device location (R257): the inverse of the hash. -/
def State.addrOf (s : State) (sc : Nat) (l : Loc) : Nat :=
  let g := s.geom
  let a0 := (l.col <<< (g.sBits + 5)) + (l.row <<< (g.sBits + g.rBits + g.dBits + 12))
  let comps := [(0, sc % 2), (1, sc / 2 % 2), (2, sc / 4 % 2), (3, sc / 8 % 2), (4, l.rank % 2), (5, l.die % 2),
    (6, l.die / 2 % 2), (7, l.die / 4 % 2), (8, l.die / 8 % 2), (9, l.bg % 2), (10, l.bg / 2 % 2), (11, l.bg / 4 % 2),
    (12, l.bank % 2), (13, l.bank / 2 % 2)]
  comps.foldl (fun a p => match g.base p.1 with
    | some b => a + (s.unhash p.1 a0 p.2 <<< b)
    | none => a) a0

/-- A package rank of the hub. -/
def State.rank (s : State) (p : Nat) : RankSt := Tab.get (fun _ => {}) s.flt.ranks p

def State.setRank (s : State) (p : Nat) (r : RankSt) : State :=
  { s with flt := { s.flt with ranks := Tab.set (fun _ => {}) s.flt.ranks p r } }

def State.onRank (s : State) (p : Nat) (f : RankSt → RankSt) : State := s.setRank p (f (s.rank p))

/-- A rank that is retired, or whose retirement has begun (R347). DESIGN CHOICE, log entry 35. -/
def State.gone (s : State) (p : Nat) : Bool := (s.rank p).retired || s.flt.converting.contains p

/-- The package ranks of the population (R157): p = 2n + k. -/
def State.popRanks (s : State) : List Nat :=
  (List.range (2 ^ s.geom.sBits)).flatMap fun n => (List.range (2 ^ s.geom.rBits)).map fun k => 2 * n + k

/-- Rows of a bank that one local region occupies (R355). -/
def Geometry.rowsPerRegion (g : Geometry) : Nat := 2 ^ (12 - g.sBits - g.rBits - g.dBits)

/-- q = 2^(s+r) − 1 (R355). -/
def Geometry.q (g : Geometry) : Nat := 2 ^ (g.sBits + g.rBits) - 1

/-- B, the first local region of the spare area (R353). -/
def Geometry.spareBase (g : Geometry) : Nat := (g.regions - 1) - (g.regions - 1 + g.q) / (g.q + 1)

/-- The target of a redirected line (R355). -/
def State.redirect (s : State) (a : Nat) : Option (Nat × Loc) :=
  let g := s.geom
  let l := s.locOf a
  if 2 * s.scOf a + l.rank = s.flt.spRank && decide (l.row < g.spareBase * g.rowsPerRegion) && decide (0 < g.q) then
    let j := l.row % g.q
    let pt := if j < s.flt.spRank then j else j + 1
    some (pt / 2, { l with rank := pt % 2, row := g.spareBase * g.rowsPerRegion + l.row / g.q })
  else Option.none

/-- Where a line is read and, but for the dual writes of a copy, written (R355 to R358). -/
def State.siteOf (s : State) (a : Nat) : Nat × Loc :=
  if s.flt.sp == 2 then (s.redirect a).getD (s.scOf a, s.locOf a) else (s.scOf a, s.locOf a)

/-- An older admitted request of the same line is still undispatched (R239). A read that needs no line of DRAM any longer is none; a
write is one until it is dispatched, whatever completion of it has been built. -/
def State.olderUndispatched (s : State) (e : PoolEntry) : Bool :=
  s.ord.pool.any fun p =>
    match p.2 with
    | some o => decide (o.adm < e.adm) && o.addr == e.addr && !o.dispatched && !o.issued &&
        (match o.kind with
          | .flush => false
          | .read | .repairRead | .agentRead => !o.done && !o.forwarded && o.waitOn.isNone
          | _ => !o.skipWrite)
    | none => false

/-- Dispatch to sub-channel `n` the oldest undispatched request whose line order allows it, while the schedule intake
queue has room (R30, R31, R239). -/
def State.dispatchOne (s : State) (n : Nat) : Option State :=
  if (s.sub n).intake.length ≥ 64 then Option.none
  else
    match s.ord.undisp.find? fun i =>
        match s.entry i with
        | some e => (s.siteOf e.addr).1 == n && !s.olderUndispatched e
        | none => false with
    | some i =>
      let s := s.onEntry i fun e => { e with dispatched := true }
      let s := { s with ord := { s.ord with undisp := s.ord.undisp.erase i } }
      some (s.onSub n fun c => { c with intake := c.intake ++ [i] })
    | none => Option.none

/-- Dispatch until nothing more can be. -/
def State.dispatchSome (n : Nat) : Nat → State → State
  | 0, s => s
  | k + 1, s =>
    match s.dispatchOne n with
    | some s' => State.dispatchSome n k s'
    | Option.none => s

/-- The place of a pool entry in admission order. -/
def State.admOf (s : State) (i : Nat) : Nat := ((s.entry i).map (·.adm)).getD 0

/-- Hand pool entry `i` to Schedule: it waits undispatched, oldest first, until its sub-channel's intake queue takes it (R31). -/
def State.toSchedule (s : State) (i : Nat) : State :=
  match s.entry i with
  | some e =>
    let older := s.ord.undisp.filter fun j => decide (s.admOf j ≤ e.adm)
    let younger := s.ord.undisp.filter fun j => !decide (s.admOf j ≤ e.adm)
    let s := { s with ord := { s.ord with undisp := older ++ i :: younger } }
    State.dispatchSome (s.siteOf e.addr).1 s.ord.undisp.length s
  | none => s

/-- A request of the hub's own agents joins those that wait for an agent pool entry (R36); none once a power-loss trigger is registered
(R39). -/
def State.queueAgent (s : State) (q : AgentReq) : State :=
  if s.top.trigger.isSome then s else { s with ord := { s.ord with agentQ := s.ord.agentQ ++ [q] } }

/-! ### Region table entries and marks (R146, R149, R218) -/

def State.rtEntry (s : State) (region : Nat) : Word := Tab.get (fun _ => 0) s.map.rt region

/-- Fields of a region table entry (R146). -/
def rtRole (w : Word) : Nat := fieldGet w 19 18
def rtSync (w : Word) : Nat := fieldGet w 22 20
def rtHandover (w : Word) : Bool := w.getLsbD 23
def rtLocal (w : Word) : Nat := fieldGet w 14 0
def rtPut (w : Word) (role sync : Nat) (handover : Bool) : Word :=
  fieldPut (fieldPut (fieldPut w 19 18 role) 22 20 sync) 23 23 (bitOf handover)

/-- An entry is held as failed: it meets no condition that names a role, a sync state or `HANDOVER` (R149). -/
def State.rtFailed (s : State) (region : Nat) : Bool := s.map.failed.contains region || s.map.lost.contains region

def State.marked (s : State) (g : Nat) : Bool := Tab.get (fun _ => false) s.mir.marks g

/-- The local granule of a local line address (R218). -/
def granOf (a : Nat) : Nat := a >>> 15

/-! ### Heartbeats and lines for T (R103, R174, R205) -/

/-- The pair state a `HEARTBEAT` carries (R205). -/
def State.hbState (s : State) : PairState :=
  if s.top.state == .join && s.mir.pstate == .none then PairState.ofCode (bitsOf s.mir.record 66 64) else s.pairState

/-- Queue a `HEARTBEAT` on T (R103). -/
def State.beat (s : State) : State :=
  let s := { s with twin := { s.twin with epochSent := some s.mir.epoch } }
  s.send .t (mkHeartbeat s.hbState.code s.mir.epoch s.twin.txCount (s.nowNs % 2 ^ 32))

/-- Send a `HEARTBEAT` while T is in `SERVICE` (R205). -/
def State.heartbeat (s : State) : State := if (s.link .t).lstate == .service then s.beat else s

/-- Before a replica, a repair line or a rebuild line goes to the twin under an epoch of which no `HEARTBEAT` has told it, one goes
ahead of it (R174). -/
def State.beatFirst (s : State) : State := if s.twin.epochSent == some s.mir.epoch then s else s.beat

/-- Note a data slot handed to T: true for a rebuild line. -/
def State.noteTaken (s : State) (b : Bool) : State :=
  { s with mir := { s.mir with taken := (s.mir.taken ++ [b]).drop ((s.mir.taken.length + 1) - 64) } }

/-! ### Reads that wait on the twin (R189, R190) -/

/-- A forwarded read ends without data (R190). -/
def State.fwdMiss (s : State) (i : Nat) (miss : Nat) (poisoned : Bool) : State :=
  match s.entry i with
  | some e =>
    let s := (s.bump Reg.MIR_FWDMISS).event 0x4040 miss
    if poisoned then s.readData i e 0 0 true else s.rejectRead i e 0x05
  | none => s

end Sys2Proof.Machine
end

