-- ==== Sys2Proof/Machine/Arbiter.lean ====
section
/-!
DEFINITION. What the hub observes of its rails, feeds and links for a top-level transition, and which of several events of one
core cycle it takes (R21, R25).
-/

namespace Sys2Proof.Machine

/-! ### Rails (R402) -/

def State.railState (s : State) (n : Nat) : RailState := Tab.get (fun _ => .off) s.pwr.rails n

/-- The rail is supervised. -/
def State.railUsed (s : State) (n : Nat) : Bool := s.flag (Fld.PWR_RAILCFG.USED n)

/-- The rail is held in `CALM`. -/
def State.railHeld (s : State) (n : Nat) : Bool := s.flag (Fld.PWR_RAILCFG.HELD n)

def State.railArmed (s : State) (n : Nat) : Bool := s.railState n == .armed

def State.railRamping (s : State) (n : Nat) : Bool := s.railState n == .ramping

/-! ### Feeds (R424, R425) -/

def feedOther : Feed → Feed
  | .a => .b
  | .b => .a

def feedNo : Feed → Nat
  | .a => 0
  | .b => 1

def inwinFld : Feed → Fld
  | .a => Fld.PWR_FEEDSTAT.INWIN_A
  | .b => Fld.PWR_FEEDSTAT.INWIN_B

def qualFld : Feed → Fld
  | .a => Fld.PWR_FEEDSTAT.QUAL_A
  | .b => Fld.PWR_FEEDSTAT.QUAL_B

def gateFld : Feed → Fld
  | .a => Fld.PWR_FEEDSTAT.GATE_A
  | .b => Fld.PWR_FEEDSTAT.GATE_B

def suspectFld : Feed → Fld
  | .a => Fld.PWR_FEEDSTAT.SUSPECT_A
  | .b => Fld.PWR_FEEDSTAT.SUSPECT_B

/-- The window bit of a feed, which the commands of the feed set. DESIGN CHOICE, log entry 29. -/
def State.feedIn (s : State) (f : Feed) : Bool := s.flag (inwinFld f)

/-- The active feed (R425). -/
def State.active (s : State) : Feed := if s.flag Fld.PWR_FEEDSTAT.ACTIVE then .b else .a

/-- The preferred feed. -/
def State.preferred (s : State) : Feed := if s.flag Fld.PWR_VEERCFG.PREF then .b else .a

/-- A feed is in use: with `SINGLE` = 1 only the preferred one is. -/
def State.feedUsed (s : State) (f : Feed) : Bool := !s.flag Fld.PWR_VEERCFG.SINGLE || f == s.preferred

/-! ### Events of one core cycle (R25) -/

/-- A trigger can be registered now. -/
def State.canTrigger (s : State) : Bool :=
  s.top.trigger.isNone && match s.top.state with
    | .sequence | .boot | .train | .join | .service | .restore => true
    | .bootHold => !s.flag Fld.PWR_HOLD.CVALID
    | _ => false

/-- `CALM` runs its policy: neither its end nor the held shutdown form has begun. The last rows of the partial form may still run. -/
def State.inCalm (s : State) : Bool :=
  s.top.state == .calm && (s.fld Fld.PWR_SEQSTAT.TABLE = 0 || (s.fld Fld.PWR_SEQSTAT.TABLE = 2 && s.fld Fld.PWR_SEQSTAT.FORM = 1))

/-- A rail that leaves its window below or above it is declared a rail fault (R401, R411, R412). -/
def State.faultDue (s : State) (n : Nat) (above : Bool) : Bool :=
  s.top.aonOn && s.railUsed n && s.top.state != .faultOff &&
    ((s.railArmed n && !(s.pwr.droop && !above)) || (s.railRamping n && above))

/-- Every enable row's timer that runs out is a rail fault (R404). -/
def State.startFaultDue (s : State) (n : Nat) : Bool := s.railRamping n && s.pwr.part != 0

/-- A feed that qualifies leads to another top-level state: out of `AON`, or out of `CALM` (R23, R442). -/
def State.qualLeaves (s : State) (f : Feed) : Bool :=
  s.top.aonOn && s.feedIn f && s.feedUsed f &&
    ((s.top.state == .aon && s.fuse.read && s.flag Fld.MGT_FUSESTAT.PAGE_OK) || (s.inCalm && s.pwr.left))

/-- The place in the order of R25 of the event a command brings; 8 for a command that brings none of the first six. -/
def State.eventRank (s : State) : Instr → Nat
  | .allSourcesLost => 1
  | .railOutOfWindow r above => if s.faultDue r.val above then 2 else 8
  | .railStartTimeout r => if s.startFaultDue r.val then 2 else 8
  | .powerLossTrigger => if s.pwr.det.isSome && s.canTrigger then 3 else 8
  | .feedQualified f => if s.qualLeaves f then 4 else 8
  | .vbbuCutoff => if s.inCalm then 5 else 8
  | _ => 8

/-- An event of place `rank` loses to another of the same core cycle and is discarded (R25). Time passes only when no command
waits, so the events of one core cycle are the commands still in the queue. DESIGN CHOICE, log entry 48. -/
def State.outranked (s : State) (rank : Nat) : Bool := s.pending.any fun c => decide (s.eventRank c < rank)

/-- A trigger is registered, or is being registered in this same core cycle (R539). DESIGN CHOICE, log entry 48. -/
def State.triggered (s : State) : Bool := s.top.trigger.isSome || s.pending.any fun c => s.eventRank c == 3

/-! ### What `JOIN` waits for (R21) -/

/-- The port's controller announced the witness ID (R11, R535). -/
def State.witnessPort (s : State) (p : Port) : Bool :=
  !p.isT && (match (s.link p).peerNeg with
      | some m => m.node.toNat == s.fld Fld.MIR_WITNESS.WITNESS_ID
      | none => false)

/-- The hub has a U-port link, and one to the witness, so it may leave `JOIN` (R21). -/
def State.joinLinked (s : State) : Bool := uPorts.any fun p => (s.link p).up && s.witnessPort p

end Sys2Proof.Machine
end

