-- ==== Sys2Proof/Machine/Repair.lean ====
section
/-!
DEFINITION. How a read ends: forwarding (R133), the merge of a masked write (R134, R329), reads served for the twin
(R189), forwarded reads and read-repair (R189, R190, R361, R362), and the seal checks of the hand-offs (R318, R320, R328,
R334, R335).
-/

namespace Sys2Proof.Machine

/-! ### Seals at the hand-offs -/

/-- A check fails at a coded hand-off (R318, R334, R335): counted, captured if it is the first, and event 0x8001. -/
def State.sealFail (s : State) (code lane : Nat) (space : Bool) (region : Nat) : State :=
  let s := match code with
    | 1 => s.bumpF Fld.ECC_SEALFAIL.SEAL
    | 2 => s.bumpF Fld.ECC_SEALFAIL.FORK
    | 3 => s.bumpF Fld.ECC_SEALFAIL.ENCODE
    | _ => s.bumpF Fld.ECC_SEALFAIL.RETURN
  let s := if s.flag Fld.ECC_FIRSTFAIL.VALID then s
    else s.setReg Reg.ECC_FIRSTFAIL
      (BitVec.ofNat 32 (1 + (code <<< 7) + (lane <<< 10) + (bitOf space <<< 13) + ((region % 2 ^ 18) <<< 14)))
  s.event 0x8001 (code + (lane <<< 3) + (bitOf space <<< 6) + ((region % 2 ^ 18) <<< 7))

/-- The address space, address and stream of a pool entry's seal (R320). -/
def PoolEntry.sealed (e : PoolEntry) : Bool × Nat × BitVec 16 :=
  match e.kind with
  | .agentRead | .agentWrite | .spareCopy => (true, e.addr, 0)
  | .rebuild | .repair | .repairRead => (false, e.pair.toNat, 0)
  | _ => (false, e.pair.toNat, e.stream)

/-- The seal over a line as the entry's kind forges it. -/
def PoolEntry.sealOf (e : PoolEntry) (line : Line) : Word := lineSeal line e.sealed.2.1 e.sealed.1 e.sealed.2.2

/-- The seal stored beside the write buffer line verifies. While a masked write holds its line, the seal is that of the
masked form of its new bytes. -/
def PoolEntry.sealGood (e : PoolEntry) : Bool :=
  e.lseal == e.sealOf (if e.merging then maskedForm e.line e.mask else e.line)

/-- The lane code of a pool entry in `ECC_FIRSTFAIL` (R335). -/
def PoolEntry.laneCode (e : PoolEntry) : Nat :=
  match e.kind with
  | .agentRead | .agentWrite | .spareCopy => 7
  | _ => e.port.idx

/-- The region index a seal failure reports (R335). -/
def PoolEntry.regionCode (e : PoolEntry) : Nat := if e.sealed.1 then e.addr >>> 24 else e.pair.toNat >>> 24

/-- The poison kind with which a write buffer line leaves a hand-off that verifies its seal (R328). -/
def PoolEntry.kindAt (e : PoolEntry) : PoisonKind :=
  if e.poison then .carried
  else if e.lpoison then .locally
  else if e.sealGood then .good
  else if e.heldElse then .locally
  else .carried

/-- Verify a write buffer line at hand-off `code` (R318). -/
def State.checkSeal (s : State) (code : Nat) (e : PoolEntry) : State :=
  if e.sealGood || e.poison then s else s.sealFail code e.laneCode e.sealed.1 e.regionCode

/-! ### Repair tags (R189, R361) -/

/-- A repair tag is free. -/
def State.tagFree (s : State) (t : Nat) : Bool :=
  (Tab.get (fun _ => (Option.none : Option Nat)) s.mir.repairs t).isNone && !s.mir.repStale.contains t &&
    !s.mir.scrubRep.any fun r => r.tag == t

/-- The first free repair tag. -/
def State.freeTag (s : State) : Option Nat := (List.range 256).find? s.tagFree

def State.setRepair (s : State) (t : Nat) (v : Option Nat) : State :=
  { s with mir := { s.mir with repairs := Tab.set (fun _ => Option.none) s.mir.repairs t v } }

/-- Send `REPAIR_REQ` for a pair line under a tag (R100). It enters T behind every replica queued there. `super` says that a write of
the line has been admitted since the read that asks, so the repair is superseded already (R362). -/
def State.askTwin (s : State) (t : Nat) (pair : BitVec 42) (super : Bool) : State :=
  let s := { s with mir := { s.mir with repSuper := s.mir.repSuper.filter (· != t) ++ (if super then [t] else []) } }
  s.send .t (mkRej 0x44 (BitVec.ofNat 12 t) 0 0 s.mir.epoch pair)

/-- The tag of a repair outstanding for a pair line (R361). -/
def State.outstanding (s : State) (pair : BitVec 42) : Option Nat :=
  (s.mir.repairs.findSome? fun q =>
    match q.2.bind s.entry with
    | some e => if e.pair == pair && e.repair then some q.1 else Option.none
    | none => Option.none) <|> (s.mir.scrubRep.findSome? fun r => if r.pair == pair then some r.tag else Option.none)

/-- Give a waiting read a repair tag if one is free; a read-repair joins a repair outstanding for its line. -/
def State.giveTag (s : State) (i : Nat) : State :=
  match s.entry i with
  | some e =>
    match (if e.repair then s.outstanding e.pair else Option.none) with
    | some t => s.onEntry i fun e => { e with repTag := some t }
    | none =>
      match s.freeTag with
      | some t => ((s.setRepair t (some i)).onEntry i fun e => { e with repTag := some t }).askTwin t e.pair e.superseded
      | none => s
  | none => s

/-- Reads that wait for a repair tag, in admission order of their pool indexes. -/
def State.wantTag (s : State) : List Nat :=
  s.ord.pool.filterMap fun q => match q.2 with
    | some e => if (e.forwarded || e.repair) && e.repTag.isNone && !e.done then some q.1 else Option.none
    | none => Option.none

/-- Hand freed tags to the reads that wait for one. -/
def State.pumpTags (s : State) : State := s.wantTag.foldl State.giveTag s

/-- The conditions of a read-repair (R361). -/
def State.canRepair (s : State) (pair : BitVec 42) (addr : Nat) : Bool :=
  let region := pair.toNat >>> 24
  let w := s.rtEntry region
  (match s.mir.pstate with
    | .paired | .rebuildSrc | .rebuildDst => true
    | _ => false) && !s.causeStands && (s.link .t).lstate == .service && s.feat .t 17 && !s.rtFailed region &&
    ((rtSync w == 0 && rtRole w != 0) || (rtSync w == 3 && rtRole w == 1)) && !s.marked (granOf addr)

/-! ### Merges and waiting requests (R134) -/

/-- The merged line of a masked write goes back into its write buffer line (R134, R329). -/
def State.mergeInto (s : State) (i : Nat) (old : Line) (oldKind : PoisonKind) : State :=
  match s.entry i with
  | some e =>
    let bad := !e.poison && !e.sealGood
    let s := if bad then s.sealFail 6 e.laneCode e.sealed.1 e.regionCode else s
    let line := mergeLine old e.line e.mask
    let carried := e.poison || oldKind == .carried
    let e' := { e with
      line := line, lseal := e.sealOf line, merging := false, poison := carried,
      lpoison := !carried && (e.lpoison || oldKind == .locally || bad), repair := false, repTag := Option.none }
    let s := s.setEntry i (some e')
    { s with sch := s.sch.map fun (q : Nat × SubCh) => (q.1, { q.2 with
      store := q.2.store.map fun x => if x.pool == some i then { x with kind := .write } else x,
      maint := q.2.maint.map fun x => if x.pool == some i then { x with kind := .write } else x }) }
  | none => s

/-- A read that serves the twin ends (R100, R189, R329): a repair line, or `REPAIR_MISS`. -/
def State.answerTwin (s : State) (i : Nat) (e : PoolEntry) (line : Line) (k : PoisonKind) : State :=
  if e.orphan || !(s.link .t).up then s.freeEntry i
  else if k == .locally then
    (s.onEntry i fun e => { e with done := true }).sendOwing .t (mkRej 0x45 e.tag 0 1 s.mir.epoch e.pair) {} (some i)
  else
    let sl := lineSeal line e.pair.toNat false 0
    let d : DataSlot :=
      { line := line, lseal := if k == .carried then ~~~sl else sl, tag := e.tag, form := 4, poison := k == .carried,
        stream := 0, ext := BitVec.setWidth 64 e.pair }
    let s := (s.onEntry i fun e => { e with done := true }).beatFirst
    (s.noteTaken false).onLink .t fun l => { l with tx := l.tx ++ [.data { slot := d, pool := some i }] }

/-- A damaged line: repaired from the twin where R361 allows, otherwise the read ends poisoned with the data as it was found (R325,
R326, R330). -/
def State.damaged (s : State) (i : Nat) (e : PoolEntry) (line : Line) : State :=
  match e.kind with
  | .repairRead => s.answerTwin i e line .locally
  | _ =>
    if s.canRepair e.pair e.addr then (s.onEntry i fun e => { e with repair := true, found := line }).giveTag i
    else if e.merging then s.mergeInto i line .locally
    else s.readData i e line 0 true

/-- A read of a reserve line by an agent ends (R161): where the first copy gives no line the second is asked for, and a line that only
the second gives rewrites the first. The agent takes what the copies hold. DESIGN CHOICE, log entry 38. -/
def State.agentServed (s : State) (i : Nat) (e : PoolEntry) (line : Line) (k : PoisonKind) : State :=
  let s := s.freeEntry i
  if e.addr.testBit 23 then (if k == .good then s.queueAgent { addr := e.addr - 2 ^ 23, line := some line } else s)
  else if k == .good then s
  else s.queueAgent { addr := e.addr + 2 ^ 23 }

/-- A read, or the old-line read of a masked write, has found its line in the state `k`, with `CORR` value `corr`. -/
def State.served (s : State) (i : Nat) (line : Line) (k : PoisonKind) (corr : Nat) : State :=
  match s.entry i with
  | some e =>
    if e.kind == .agentRead then s.agentServed i e line k
    else
    match k with
    | .locally => s.damaged i e line
    | _ =>
      match e.kind with
      | .repairRead => s.answerTwin i e line k
      | .read => s.readData i e line corr (k == .carried)
      | _ => if e.merging then s.mergeInto i line k else s
  | none => s

/-- The youngest write buffer line held for `addr` by a request admitted before `adm` (R132, R133). -/
def State.held (s : State) (addr adm : Nat) : Option Nat :=
  (s.ord.pool.foldl (fun (b : Option (Nat × Nat)) q =>
    match q.2 with
    | some e =>
      if e.hasLine && e.addr == addr && e.adm < adm && (match b with | some x => decide (x.2 < e.adm) | none => true)
      then some (q.1, e.adm) else b
    | none => b) Option.none).map (·.1)

/-- Serve request `i` from write buffer line `j` (R133): its seal is verified at hand-off 0x5, or at 0x6 where the line is the old
line of a merge (R318, R333). -/
def State.forward (s : State) (i j : Nat) : State :=
  match s.entry j with
  | some w =>
    let merge := match s.entry i with
      | some e => e.merging
      | none => false
    let s := (s.checkSeal (if merge then 6 else 5) w).bump Reg.ORD_FWD
    s.served i w.line w.kindAt 0
  | none => s

/-- Requests that wait behind the masked write `j`. -/
def State.waiters (s : State) (j : Nat) : List Nat :=
  s.ord.pool.filterMap fun q => match q.2 with
    | some e => if e.waitOn == some j then some q.1 else Option.none
    | none => Option.none

/-- Release the requests that wait behind a write whose line is no longer held, in turn for a chain of masked writes. -/
def State.release : Nat → Nat → State → State
  | 0, _, s => s
  | n + 1, j, s =>
    match s.entry j with
    | some w =>
      if w.merging then s
      else (s.waiters j).foldl (fun s i =>
        State.release n i ((s.onEntry i fun e => { e with waitOn := Option.none }).forward i j)) s
    | none => s

/-- Serve a read and then whatever its merge releases. -/
def State.serveAll (s : State) (i : Nat) (line : Line) (k : PoisonKind) (corr : Nat) : State :=
  let s := s.served i line k corr
  State.release s.ord.pool.length i s

/-- Find the old line or the line of a read: forwarded, waiting behind a masked write, or to come from DRAM (R133,
R134). `true` says that it must go to Schedule. -/
def State.lookForLine (s : State) (i : Nat) : State × Bool :=
  match s.entry i with
  | some e =>
    match s.held e.addr e.adm with
    | some j =>
      match s.entry j with
      | some w =>
        if w.merging then ((s.onEntry i fun e => { e with waitOn := some j }).bump Reg.ORD_LINEHOLD, false)
        else (s.forward i j, false)
      | none => (s, true)
    | none => (s, true)
  | none => (s, false)

/-! ### Answers of the twin (R190, R361, R362) -/

/-- Reads that wait on a repair tag. -/
def State.onTag (s : State) (t : Nat) : List Nat :=
  s.ord.pool.filterMap fun q => match q.2 with
    | some e => if e.repTag == some t && !e.done then some q.1 else Option.none
    | none => Option.none

/-- Close a repair tag: its answer has come. -/
def State.closeTag (s : State) (t : Nat) : State :=
  (s.setRepair t Option.none).pumpTags

/-- The late answer of a repair that has ended frees its tag (R190). -/
def State.freeStale (s : State) (t : Nat) : State :=
  ({ s with mir := { s.mir with repStale := s.mir.repStale.filter (· != t) } }).pumpTags

/-- A repair line reaches the reads that wait for it (R190, R361). -/
def State.repairArrives (s : State) (t : Nat) (line : Line) (poison : Bool) : State :=
  let s := (s.onTag t).foldl (fun s i =>
    match s.entry i with
    | some e =>
      if e.forwarded then (s.bump Reg.MIR_FWDRD).readData i e line 0 poison
      else
        let s := (s.bumpF Fld.ECC_REPAIR.DONE).onEntry i fun e => { e with repair := false, repTag := Option.none }
        s.serveAll i line (if poison then .carried else .good) 3
    | none => s) s
  let s := (s.mir.scrubRep.filter fun r => r.tag == t).foldl (fun s _ => s.bumpF Fld.ECC_REPAIR.DONE) s
  ({ s with mir := { s.mir with scrubRep := s.mir.scrubRep.filter fun r => r.tag != t } }).closeTag t

/-- Event 0x8017: a scrub finding that was not repaired (R363). -/
def State.scrubLost (s : State) (addr found : Nat) : State :=
  let t := s.siteOf addr
  s.event 0x8017 (t.2.die + (t.2.rank <<< 4) + (found <<< 5) + (t.1 <<< 28))

/-- Event 0x8016: a repair of the line that ended without data; it names the location that was read (R361). -/
def State.repairMissed (s : State) (addr miss : Nat) : State :=
  let t := s.siteOf addr
  s.event 0x8016 ((t.2.rank <<< 4) + (miss <<< 8) + (t.1 <<< 28))

/-- The repair under a tag ends without a line (R190, R361): `miss` is the `MISS` code, 0 for a timeout or link loss. -/
def State.repairEnds (s : State) (t miss : Nat) : State :=
  let s := (s.onTag t).foldl (fun s i =>
    match s.entry i with
    | some e =>
      if e.forwarded then s.fwdMiss i miss (miss == 1)
      else
        let s := (s.bumpF Fld.ECC_REPAIR.MISS).repairMissed e.addr miss
        let s := s.onEntry i fun e => { e with repair := false, repTag := Option.none }
        if e.merging then State.release s.ord.pool.length i (s.mergeInto i e.found .locally)
        else s.readData i e e.found 0 true
    | none => s) s
  let mine := s.mir.scrubRep.filter fun r => r.tag == t
  mine.foldl (fun s r => ((s.bumpF Fld.ECC_REPAIR.MISS).repairMissed r.addr miss).scrubLost r.addr r.found)
    { s with mir := { s.mir with scrubRep := s.mir.scrubRep.filter fun r => r.tag != t } }

/-- `REPAIR_MISS` (R79, R100, R190, R361): it ends the read that waits; the late answer of a read that has ended only frees its
tag. -/
def execRepairMiss (tag : BitVec 12) (miss : Byte) (_epoch : Word) (_addr : BitVec 42) (s : State) :
    Host.Outcome State Fault Refusal :=
  .next (if (s.link .t).up then
    if !s.feat .t 17 || miss.toNat = 0 || miss.toNat > 4 then (s.bump (Reg.LNK_BADMSG Port.t.idx)).freeEvent 0x1051
    else
      let t := tag.toNat
      if s.mir.repStale.contains t then s.freeStale t
      else if s.tagFree t then s
      else (s.repairEnds t miss.toNat).closeTag t
  else s)

/-- `REPAIR_TIMEOUT` (R190, R361): the read ends; its tag is not reused until an answer comes. -/
def execRepairTimeout (tag : BitVec 8) (s : State) : Host.Outcome State Fault Refusal :=
  .next (
    let t := tag.toNat
    if !s.tagFree t && !s.mir.repStale.contains t then
      let s := s.repairEnds t 0
      { (s.setRepair t Option.none) with mir := { (s.setRepair t Option.none).mir with repStale := s.mir.repStale ++ [t] } }
    else s)

end Sys2Proof.Machine
end

