-- ==== Sys2Proof/Machine/Agents.lean ====
section
/-!
DEFINITION. The hub's own agents: their requests at Order (R36, R163), reserve lines in both copies (R161), entry changes and
divergence marks (R148, R156, R218 to R221), membership and twin-loss causes (R202 to R212), rebuild lines and pacing (R228).
-/

namespace Sys2Proof.Machine

/-! ### The reserve (R36, R161, R163) -/

/-- Local line address of the reserve line at byte offset `off` (R161). -/
def State.reserveLine (s : State) (off : Nat) : Nat := (s.geom.regions - 1) * 2 ^ 24 + off / 64

/-- Agent pool entries that are free (R36). -/
def State.agentRoom (s : State) : Nat := 256 - (s.ord.pool.filter fun p => decide (8192 ≤ p.1)).length

/-- The pool entry an agent request becomes: a write with its line, or a read. A masked line of the journal holds the line as a masked
write does (R134, R449). -/
def State.agentEntry (s : State) (q : AgentReq) : PoolEntry :=
  match q.line with
  | some line =>
    let line := match q.mask with
      | some m => maskedForm line m
      | none => line
    { kind := .agentWrite, addr := q.addr, adm := s.ord.admNext, hasLine := true, line := line,
      lseal := lineSeal line q.addr true 0, poison := q.poison, lpoison := q.lpoison, heldElse := q.heldElse,
      mask := q.mask.getD 0, merging := q.mask.isSome, bornAt := s.time.elapsed }
  | none => { kind := .agentRead, addr := q.addr, adm := s.ord.admNext, bornAt := s.time.elapsed }

/-- An admitted write of the line still holds it (R132, R133). -/
def State.lineHeld (s : State) (a : Nat) : Bool :=
  s.ord.pool.any fun p => match p.2 with
    | some e => e.hasLine && e.addr == a
    | none => false

/-- An older masked write holds the line of a write (R134). -/
def State.behindMerge (s : State) (e : PoolEntry) : Bool :=
  s.ord.pool.any fun q => match q.2 with
    | some w => w.hasLine && w.merging && w.addr == e.addr && decide (w.adm < e.adm)
    | none => false

/-- Start the local side of an admitted write: a masked write looks for its old line (R134), a write behind one waits
with it (R134), and a write that is not forked is dispatched (R173). -/
def State.startWrite (s : State) (i : Nat) (forked : Bool) : State :=
  match s.entry i with
  | some e =>
    let s := if e.merging then (s.lookForLine i).1
      else if s.behindMerge e then s.bump Reg.ORD_LINEHOLD
      else s
    if forked then s else s.toSchedule i
  | none => s

/-- Start a request of the agents as one of the request pool would be (R36): a read is forwarded, waits behind a masked write, or goes
to Schedule. -/
def State.startAgent (s : State) (i : Nat) : State :=
  match s.entry i with
  | some e =>
    if e.hasLine then s.startWrite i false
    else
      let r := s.lookForLine i
      if r.2 then r.1.toSchedule i else r.1
  | none => s

/-- Admit waiting agent requests while agent pool entries are free; none once a power-loss trigger is registered (R36, R39). -/
def State.pumpAgents : Nat → State → State
  | 0, s => s
  | n + 1, s =>
    match s.ord.agentQ with
    | [] => s
    | q :: r =>
      let i := firstFree 8192 s.ord.pool
      if i < 8448 && s.top.trigger.isNone then
        let s := s.setEntry i (some (s.agentEntry q))
        let s := { s with
          ord := { s.ord with agentQ := r, admNext := s.ord.admNext + 1, replayed := q.replay.getD s.ord.replayed } }
        State.pumpAgents n (s.startAgent i)
      else s

/-- Enter agent requests at Order, unless a power-loss trigger has been registered (R36, R39). -/
def State.agentAsk (s : State) (qs : List AgentReq) : State :=
  if s.top.trigger.isSome then s
  else
    let s := { s with ord := { s.ord with agentQ := s.ord.agentQ ++ qs } }
    State.pumpAgents s.ord.agentQ.length s

/-- Write the reserve line at byte offset `off`, both copies (R156, R161). -/
def State.reserveWrite (s : State) (off : Nat) (line : Line) : State :=
  let a := s.reserveLine off
  s.agentAsk [{ addr := a, line := some line }, { addr := a + 2 ^ 23, line := some line }]

/-- Ask for the reserve line at byte offset `off` (R149, R161, R220): the first copy is asked for, and the second once the first gives
no line. The command that reports the end of the read has its effect once no read of the line stands. DESIGN CHOICE, log entry 38. -/
def State.reserveAsk (s : State) (off : Nat) : State := s.agentAsk [{ addr := s.reserveLine off }]

/-- A read of the reserve line at byte offset `off` still stands: it waits for an agent entry, or has not ended. -/
def State.readStands (s : State) (off : Nat) : Bool :=
  let a := s.reserveLine off
  let at' (x : Nat) : Bool := x == a || x == a + 2 ^ 23
  (s.ord.agentQ.any fun q => q.line.isNone && at' q.addr) || s.ord.pool.any fun p => match p.2 with
    | some e => e.kind == .agentRead && at' e.addr
    | none => false

/-- The shadow line that holds entry `n` (R162): sixteen entries as written through. -/
def State.shadowLine (s : State) (n : Nat) : Line :=
  BitVec.ofNat 512 ((List.range 16).foldl
    (fun a j => a + ((Tab.get (fun _ => (0 : Word)) s.map.shadow (n / 16 * 16 + j)).toNat <<< (32 * j))) 0)

/-- The mirror agent changes an entry (R147, R148, R156): nothing in or after a trigger cycle; an entry held as failed takes the
change after its reload (R149). `rt` is the table as the agent has decided it; lookups see the change once its turn has come, and none
sees an entry held as failed. -/
def State.setRt (s : State) (region : Nat) (w : Word) : State :=
  let old := s.rtEntry region
  if s.top.trigger.isSome || s.map.lost.contains region || w == old then s
  else if s.map.failed.contains region then
    { s with map := { s.map with
      rt := Tab.set (fun _ => 0) s.map.rt region w, due := s.map.due ++ [(region, old ^^^ w, w &&& (old ^^^ w))] } }
  else { s with map := { s.map with rt := Tab.set (fun _ => 0) s.map.rt region w, turn := s.map.turn ++ [(region, old)] } }

/-- An entry as the lookups of this core cycle see it (R148). -/
def State.rtLook (s : State) (region : Nat) : Word :=
  match s.map.turn.find? fun c => c.1 == region with
  | some c => c.2
  | none => s.rtEntry region

/-- An entry has failed: its changes that have not been made fall due after the reload (R149). -/
def State.deferTurn (s : State) (region : Nat) : State :=
  let ws := (s.map.turn.filter fun c => c.1 == region).map (·.2) ++ [s.rtEntry region]
  { s with map := { s.map with
    turn := s.map.turn.filter fun c => c.1 != region,
    due := s.map.due ++ (ws.zip (ws.drop 1)).map fun c => (region, c.1 ^^^ c.2, c.2 &&& (c.1 ^^^ c.2)) } }

/-- The entry as the oldest change that waits leaves it: a later change of the same entry has its own turn. -/
def MapSt.changed (m : MapSt) (r : Nat) : Word :=
  match m.turn.tail.find? fun c => c.1 == r with
  | some c => c.2
  | none => Tab.get (fun _ => 0) m.rt r

/-- A core cycle ends: the oldest change is made, if an agent entry is free for its write-through, which is entered at Order ahead
of every merge position of the next cycle; lookups see it from then on (R36, R148, R156). -/
def State.makeChange (s : State) : State :=
  match s.map.turn with
  | [] => s
  | (r, _) :: rest =>
    if s.ord.agentQ.isEmpty && decide (2 ≤ s.agentRoom) then
      let s := { s with map := { s.map with turn := rest, shadow := Tab.set (fun _ => 0) s.map.shadow r (s.map.changed r) } }
      s.reserveWrite (0x10000 + 4 * r) (s.shadowLine r)
    else s

/-- In the core cycle of a power-loss trigger no change is made: what lookups do not see yet is not changed (R156), and an agent
request that waits is not admitted (R39); the Gust journal carries the marks of its bitmap line (R220). -/
def State.dropAgents (s : State) : State :=
  { s with
    map := { s.map with turn := [], rt := s.map.turn.foldr (fun c rt => Tab.set (fun _ => 0) rt c.1 c.2) s.map.rt },
    ord := { s.ord with agentQ := [] },
    mir := { s.mir with jMarks := s.mir.jMarks ++ (s.ord.agentQ.flatMap (·.marks)).eraseDups } }

/-- Mapped regions in ascending pair order. -/
def State.mappedRegions (s : State) : List Nat :=
  (s.map.rt.filter fun p => rtRole p.2 == 1 || rtRole p.2 == 2).map (·.1)

/-! ### Divergence marks (R218 to R221) -/

/-- The bitmap line `k`: 512 granules (R218). -/
def State.bitmapLine (s : State) (k : Nat) : Line :=
  BitVec.ofNat 512 (s.mir.marks.foldl (fun a p => if p.1 / 512 = k && p.2 then a + 2 ^ (p.1 % 512) else a) 0)

/-- Hold bitmap line `k` in the cache of 1,024 lines, the oldest giving way. DESIGN CHOICE, log entry 42. -/
def State.cacheLine (s : State) (k : Nat) : State :=
  if s.mir.cache.contains k then s
  else { s with mir := { s.mir with cache := (if s.mir.cache.length < 1024 then s.mir.cache else s.mir.cache.drop 1) ++ [k] } }

/-- Mark local granule `g` divergent and write the mark through; after a trigger the Gust journal carries it (R220). -/
def State.mark (s : State) (g : Nat) : State :=
  if s.marked g then s
  else
    let s := { s with mir := { s.mir with marks := Tab.set (fun _ => false) s.mir.marks g true } }
    if s.top.trigger.isSome then { s with mir := { s.mir with jMarks := s.mir.jMarks ++ [g] } }
    else
      let s := s.cacheLine (g / 512)
      let a := s.reserveLine (0x110000 + 64 * (g / 512))
      let l := s.bitmapLine (g / 512)
      s.agentAsk [{ addr := a, line := some l, marks := [g] }, { addr := a + 2 ^ 23, line := some l, marks := [g] }]

/-- Clear the mark of local granule `g` (R221). -/
def State.unmark (s : State) (g : Nat) : State :=
  if s.marked g && s.top.trigger.isNone then
    let s := { s with mir := { s.mir with marks := Tab.set (fun _ => false) s.mir.marks g false } }
    s.reserveWrite (0x110000 + 64 * (g / 512)) (s.bitmapLine (g / 512))
  else s

/-- The local granule of a pair granule in a mapped region. -/
def State.localGran (s : State) (g : Nat) : Nat := rtLocal (s.rtEntry (g / 512)) * 512 + g % 512

/-- The destination answers a cursor: every line delivered before it has been admitted or rejected, so its filter closes, and with no
rebuild line of it rejected the granule is resynchronised: its mark goes (R221, R224, R225). -/
def State.answerCursor (s : State) (m : RebuildMsg) : State :=
  let g := m.cursor.toNat
  let bad := s.mir.filters.any fun f => f.gran == g && f.rejected
  let s := { s with mir := { s.mir with filters := s.mir.filters.filter fun f => f.gran != g } }
  let s := if bad || rtRole (s.rtEntry (g / 512)) == 0 then s
    else (s.unmark (s.localGran g)).setReg Reg.MIR_RBCUR (BitVec.ofNat 32 g)
  s.answerCtl 3 m

/-- Answer the cursors whose lines have all been admitted or rejected (R224). -/
def State.closeCursors (s : State) : State :=
  let base := (s.link .t).adm.base
  let ripe := s.mir.curWait.filter fun c => decide (c.2 ≤ base)
  let s := { s with mir := { s.mir with curWait := s.mir.curWait.filter fun c => !decide (c.2 ≤ base) } }
  ripe.foldl (fun s c => s.answerCursor c.1) s

/-- Request `n` of port `p` has been admitted, rejected or discarded (R94). -/
def State.finishReq (s : State) (p : Port) (n : Nat) : State :=
  let s := s.onLink p fun l => { l with adm := l.adm.finish n }
  if p.isT then s.closeCursors else s

/-! ### Membership (R202 to R209) -/

/-- The pair record as it stands (R204). -/
def State.recordLine (s : State) (ps : PairState) : Line :=
  BitVec.ofNat 512 (0x50524543 + (s.mir.epoch.toNat <<< 32) + (ps.code <<< 64) + (s.mir.rbRole.toNat <<< 67) +
    (s.mir.rbMode.toNat <<< 69) + ((s.mir.rbRegion % 2 ^ 18) <<< 72) + (s.mir.recSeq.toNat <<< 96))

/-- Write the pair record through, with `SEQ` incremented (R204). -/
def State.writeRecord (s : State) (ps : PairState) : State :=
  if s.top.trigger.isSome then s
  else
    let s := { s with mir := { s.mir with recSeq := s.mir.recSeq + 1 } }
    let l := s.recordLine ps
    ({ s with mir := { s.mir with record := l } }).reserveWrite 0x310000 l

/-- Set the pair state: the record is written, the change is flagged and a heartbeat goes out (R204, R205, R532). -/
def State.setPair (s : State) (ps : PairState) : State :=
  let s := { s with mir := { s.mir with pstate := ps } }
  let s := s.setFld Fld.GLB_EVENT.PAIR 1
  let s := uPorts.foldl (fun s p =>
    if (s.link p).lstate == .still then s.onLink p fun l => { l with pairWake := true } else s) s
  (s.writeRecord ps).heartbeat

/-- A handover in which the hub took part has ended (R200, R201). Results: 1 completed, 2 refused, 3 timed out or
abandoned. -/
def State.countHandover (s : State) (region result : Nat) : State :=
  let s := { s with mir := { s.mir with handovers := s.mir.handovers.filter fun h => h.region != region } }
  let s := (s.setFld Fld.MIR_HOSTAT.LAST_RESULT result).setFld Fld.MIR_HOSTAT.LAST_REGION region
  if result = 1 then s.bumpF Fld.MIR_HOCNT.DONE else s.bumpF Fld.MIR_HOCNT.REFUSED

/-- End of a handover, counted and reported. -/
def State.endHandover (s : State) (region : Nat) (result : Nat) (code : BitVec 16) : State :=
  (s.countHandover region result).event code region

/-- Abandon a handover: `HANDOVER` cleared, the role kept (R195). DESIGN CHOICE, log entry 35. -/
def State.abandonHandover (s : State) (h : Handover) : State :=
  let w := s.rtEntry h.region
  (s.setRt h.region (rtPut w (rtRole w) (rtSync w) false)).endHandover h.region 3 0x4032

/-- Abandon every handover in progress (R195, R212). -/
def State.abandonAll (s : State) : State := s.mir.handovers.foldl State.abandonHandover s

/-- The entry conversion of a solo grant (R212). -/
def soloEntry (w : Word) : Word :=
  match rtRole w, rtSync w with
  | 1, 0 => rtPut w 1 1 (rtHandover w)
  | 1, 3 => rtPut w 1 1 (rtHandover w)
  | 2, 0 => rtPut w 1 1 (rtHandover w)
  | _, _ => w

/-- Convert every entry as a solo grant does. -/
def State.convertSolo (s : State) : State :=
  s.mappedRegions.foldl (fun s r => if soloEntry (s.rtEntry r) = s.rtEntry r then s else s.setRt r (soloEntry (s.rtEntry r))) s

/-- Close every open pending-ack entry and mark its granule divergent, returning the write-data credits it still
holds back (R179, R212, R215). -/
def State.closePend (s : State) : State :=
  let es := s.mir.pend.filterMap fun p => p.2
  let s := { s with mir := { s.mir with pend := [] } }
  es.foldl (fun s e =>
    let s := s.mark e.gran
    match e.credit with
    | some p => s.owe p { wd := 1 }
    | none => s) s

/-- Mark the granules of the backlog, open unresolved entries for its writes, and dispatch them (R179). Such a write never had a
replica number: its entry takes the first free index with `RNUM` 0, and with the table full it has none and its write-data credit
returns at once. DESIGN CHOICE, log entry 49. -/
def State.dropBacklog (s : State) (unresolved : Bool) : State :=
  let b := s.ord.backlog
  let s := { s with ord := { s.ord with backlog := [] } }
  b.foldl (fun s i =>
    match s.entry i with
    | some e =>
      let s := s.mark (granOf e.addr)
      let k := firstFree 0 s.mir.pend
      let host := if e.wdHeld then some e.port else Option.none
      let s := if unresolved && k < 4096 then
          let en : PendEntry :=
            { state := .unresolved, rnum := 0, fork := e.forkNo, pool := if e.owes then some i else Option.none,
              pair := e.pair, gran := granOf e.addr, opened := s.nowNs % 2 ^ 32, credit := host }
          { s with mir := { s.mir with pend := Tab.set (fun _ => Option.none) s.mir.pend k (some en) } }
        else match host with
          | some p => s.owe p { wd := 1 }
          | Option.none => s
      let s := s.noteHigh Fld.MIR_PENDOCC.HIGH s.mir.pend.length
      (s.onEntry i fun e => { e with fork := .notSent, wdHeld := false }).toSchedule i
    | none => s) s

/-- The cause is resolved (R208, R235). -/
def State.clearCause (s : State) : State :=
  if s.causeStands then (s.setFld Fld.MIR_CAUSE.PREV (s.fld Fld.MIR_CAUSE.FIRST)).setFld Fld.MIR_CAUSE.FIRST 0 else s

/-- The session is over at this hub: nothing of it is left but the record's fields. -/
def State.endSession (s : State) : State :=
  { s with mir := { s.mir with
      rb := .none, rbRole := 0, rbMode := 0, filters := [], opened := [], copies := [], todo := [], regionOpen := false,
      rbOut := [], startHeld := Option.none, reported := [], lastCtl := [], paceLow := false, paceHigh := false, share := 0 } }

/-- The solo grant takes effect (R195, R212 step 4, R209): every handover abandoned, `SOLO`, every open entry closed and marked, the
backlog dispatched, the cause cleared, and every accepted write durable. -/
def State.enterSolo (s : State) : State :=
  let s := s.abandonAll
  let s := { s with mir := { s.mir with soloGrant := false, soloConv := false, soloEnd := false } }
  let s := s.setPair .solo
  let s := (s.closePend.dropBacklog false).clearCause
  s.settle

/-- P's handovers between steps 2 and 4 end as T goes down or a twin-loss cause is raised (R195). -/
def State.dropDrains (s : State) : State :=
  (s.mir.handovers.filter fun h => h.atP && !h.drainedSent).foldl State.abandonHandover s

/-- Raise a twin-loss cause (R195, R207 to R209, R217, R227): none where an event that stands higher comes in the same core cycle. A
rebuild source goes on alone; a destination waits under its cause, its session over; its pair record keeps the session.
DESIGN CHOICE, log entry 35. -/
def State.raiseCause (s : State) (code : Nat) : State :=
  match s.pairState with
  | .paired | .rebuildSrc | .rebuildDst =>
    if s.outranked 6 then s
    else
    let s := s.dropDrains
    if s.causeStands then s.bumpF Fld.MIR_CAUSE.COUNT
    else
      let s := (s.setFld Fld.MIR_CAUSE.FIRST code).event 0x4010 code
      match s.pairState with
      | .rebuildSrc => ((s.event 0x4053 2).abandonAll.endSession.convertSolo).enterSolo
      | .rebuildDst => (s.event 0x4053 2).endSession
      | _ => s
  | _ => s

/-! ### Rebuild lines and pacing (R228) -/

/-- Rebuild lines have taken fewer than `SHARE` percent of the last 64 data slots handed to T. DESIGN CHOICE, log entry 41. -/
def State.underShare (s : State) : Bool := (s.mir.taken.filter id).length * 100 < s.mir.share * 64

/-- The next rebuild line enters the T transmit queue, if it may: behind every waiting replica, or first while rebuild
lines are under their share. A granule whose last line has entered gets its cursor (R225). -/
def State.pumpLine (s : State) : Option State :=
  match s.mir.rbOut with
  | [] => Option.none
  | d :: rest =>
    if s.top.trigger.isNone && (s.link .t).up && (s.link .t).txData.length < 192 && (s.ord.backlog.isEmpty || s.underShare) then
      let s := s.beatFirst
      let gran := bitsOf d.slot.ext 41 15
      let cs : List GranCopy := s.mir.copies.map fun c =>
        if c.gran == gran then { c with sentLines := c.sentLines + 1 } else c
      let s := ({ s with mir := { s.mir with rbOut := rest, copies := cs } }).noteTaken true
      let s := (s.bump Reg.MIR_RBLINES).onLink .t fun l => { l with tx := l.tx ++ [.data d] }
      some (if s.mir.copies.any fun c => c.gran == gran && c.sentLines == 32768 then s.sendCtl 3 gran false 0 else s)
    else Option.none

/-- Every rebuild line that may enters the T transmit queue. -/
def State.pumpLines : Nat → State → State
  | 0, s => s
  | n + 1, s =>
    match s.pumpLine with
    | some s' => State.pumpLines n s'
    | Option.none => s

/-- The destination sends pace with a share, and logs a change of it (R228). -/
def State.sendPace (s : State) (n : Nat) (low : Bool) : State :=
  let old := s.mir.share
  let s := ({ s with mir := { s.mir with paceLow := low, paceHigh := low, share := n } }).sendCtl 5 0 false n
  if n = old then s else s.event 0x4055 n

/-- The destination's pace (R228): its share is halved, but not below 1, whenever its write buffer rises above 6,144 lines, and is the
directive's again once below 2,048. That the second message goes only where the share has been lowered is DEDUCED, log entry 41. -/
def State.watchPace (s : State) : State :=
  if s.mir.pstate == .rebuildDst && s.mir.rbRole == 2 && s.top.trigger.isNone && s.feat .t 19 then
    if s.wbOcc > 6144 then (if s.mir.paceHigh then s else s.sendPace (max 1 (s.mir.share / 2)) true)
    else
      let s := { s with mir := { s.mir with paceHigh := false } }
      if s.mir.paceLow && s.wbOcc < 2048 then s.sendPace s.mir.dirShare false else s
  else s

end Sys2Proof.Machine
end

