-- ==== Sys2Proof/Machine/Dram.lean ====
section
/-!
DEFINITION. The DRAM as the hub's stored symbols (R157 to R159, R322), the counters of a decode (R326, R336, R337), and the reserve
lines that the hub's own sequences read (R161, R163).
-/

namespace Sys2Proof.Machine

/-! ### DRAM cells (R157 to R159, R322) -/

/-- The key of a stored line: its sub-channel and device location. -/
def slotOf (sc : Nat) (l : Loc) : Nat :=
  ((((sc * 2 + l.rank) * 16 + l.die) * 32 + l.bg * 4 + l.bank) * 2 ^ 18 + l.row) * 128 + l.col

/-- The sub-channel and location of a stored line's key. -/
def siteOfSlot (k : Nat) : Nat × Loc :=
  (k / 2 ^ 35, { rank := k / 2 ^ 34 % 2, die := k / 2 ^ 30 % 16, bg := k / 2 ^ 27 % 8, bank := k / 2 ^ 25 % 4, row := k / 128 % 2 ^ 18, col := k % 128 })

/-- The local line address a location stands for: on spare rows, the redirected line's own (R257, R363). None where the
location holds nothing. -/
def State.scrubAddr (s : State) (n : Nat) (l : Loc) : Option Nat :=
  let g := s.geom
  let base := g.spareBase * g.rowsPerRegion
  if s.flt.sp == 2 && decide (base ≤ l.row) && decide (l.row < (g.regions - 1) * g.rowsPerRegion) then
    let pt := 2 * n + l.rank
    let j := if pt < s.flt.spRank then pt else pt - 1
    let t := (l.row - base) * g.q + j
    if pt = s.flt.spRank then some (s.addrOf n l)
    else if t < base then some (s.addrOf (s.flt.spRank / 2) { l with rank := s.flt.spRank % 2, row := t })
    else Option.none
  else some (s.addrOf n l)

/-- A state with the mapping under which the reserve was initialised. -/
def Formatted.mapping (f : Formatted) : State :=
  let s := State.reset.setReg Reg.MAP_GEOM f.geom
  let s := (List.range 14).foldl (fun s k => s.setReg (Reg.MAP_HASHMASK0 + 4 * k) (f.hash.getD k 0)) s
  match f.spRank with
  | some p => { s with flt := { s.flt with sp := 2, spRank := p } }
  | none => s

/-- The address whose zero line stands at a location of the reserve: one that the initialisation wrote (R565), or a scratch line,
which step T9 leaves as zero data under the encoder (R274). DESIGN CHOICE, log entry 9. -/
def Formatted.lineAt (f : Formatted) (sc : Nat) (l : Loc) : Option Nat :=
  let m := f.mapping
  match m.scrubAddr sc l with
  | some a => if a / 2 ^ 24 = m.geom.regions - 1 then some a else Option.none
  | none => Option.none

/-- What a symbol that nothing has written reads as: 0, but in the initialised reserve the symbol of an encoded zero line
(R565). DESIGN CHOICE, log entry 9. -/
def blankSymbol (f : Option Formatted) (k : Nat) : Byte :=
  match f with
  | none => 0
  | some f =>
    let x := siteOfSlot (k / 80)
    match f.lineAt x.1 x.2 with
    | some a => (encodeLine a 0 .good).getD (k % 80) 0
    | none => 0

/-- The stored symbol at a key. DESIGN CHOICE, log entry 9. -/
def State.symbol (s : State) (k : Nat) : Byte := Tab.get (blankSymbol s.fmt) s.dram k

/-- The 80 stored symbols at a device location. -/
def State.symbols (s : State) (sc : Nat) (l : Loc) : List Byte :=
  (List.range 80).map fun i => s.symbol (slotOf sc l * 80 + i)

/-- Write symbols from a key on. -/
def putSymbols (f : Option Formatted) (k : Nat) : List Byte → Tab Byte → Tab Byte
  | [], t => t
  | b :: r, t => putSymbols f (k + 1) r (Tab.set (blankSymbol f) t k b)

/-- Store 80 symbols at a device location. -/
def State.store (s : State) (sc : Nat) (l : Loc) (cw : List Byte) : State :=
  { s with dram := putSymbols s.fmt (slotOf sc l * 80) (cw.take 80) s.dram }

/-! ### Decodes and reserve reads (R161, R163, R326) -/

/-- The counters of a decode (R326, R336, R337, R369) and event 0x8002. -/
def State.countDecode (s : State) (n : Nat) (l : Loc) (d : Decoded) : State :=
  let p := 2 * n + l.rank
  match d.out with
  | .clean => s
  | .corrected => if (s.rank p).erased.isSome then s.bumpF (Fld.ECC_RKCORR.ERASED p) else s.bumpF (Fld.ECC_RKCORR.CORR p)
  | .carried => s.bumpF Fld.ECC_DECODE.CARRIED
  | .localPoison => s.bumpF Fld.ECC_DECODE.LOCAL
  | .addrMismatch =>
    ((s.bump Reg.ECC_ADDRMIS).bumpF (Fld.ECC_RKUNCORR.UNCORR p)).event 0x8002 ((n <<< 28) + (l.rank <<< 4) + l.die)
  | .uncorrectable => s.bumpF (Fld.ECC_RKUNCORR.UNCORR p)

/-- One copy of a reserve line as a read entered at Order now finds it: the youngest line that waits or is held for it, else what DRAM
decodes to, which is counted; none where that is not good or its rank is out of use (R36, R161, R163, R326). -/
def State.fetchCopy (s : State) (a : Nat) : State × Option Line :=
  match (s.ord.agentQ.reverse.find? fun q => q.addr == a && q.line.isSome).bind (·.line) with
  | some l => (s.bump Reg.ORD_FWD, some l)
  | none =>
    match (s.held a s.ord.admNext).bind s.entry with
    | some e => ((s.checkSeal 5 e).bump Reg.ORD_FWD, if e.kindAt == .good then some e.line else Option.none)
    | none =>
      let t := s.siteOf a
      let p := 2 * t.1 + t.2.rank
      if s.gone p || !(s.rank p).trained then (s, Option.none)
      else
        let d := decodeLine a (s.rank p).erased (s.symbols t.1 t.2)
        (s.countDecode t.1 t.2 d, match d.out with
          | .clean | .corrected => some d.line
          | _ => Option.none)

/-- What a reserve line holds now, in the first copy that gives a line (R161); the reads that count were made before. -/
def State.peekReserve (s : State) (off : Nat) : Option Line :=
  (s.fetchCopy (s.reserveLine off)).2 <|> (s.fetchCopy (s.reserveLine off + 2 ^ 23)).2

/-- A rank can be written. -/
def State.rankServes (s : State) (a : Nat) : Bool :=
  let t := s.siteOf a
  !s.gone (2 * t.1 + t.2.rank) && (s.rank (2 * t.1 + t.2.rank)).trained

/-- The reserve line at byte offset `off`, as the sequences of `RESTORE`, of a Lull and of calibration read it: the first copy, else
the second, from which the first is then rewritten (R161, R348). The read is made within the step of its sequence; what it finds is
what a read entered at Order behind every write before it finds. DESIGN CHOICE, log entries 38 and 50. -/
def State.fetchReserve (s : State) (off : Nat) : State × Option Line :=
  let a := s.reserveLine off
  let r := s.fetchCopy a
  match r.2 with
  | some l => (r.1, some l)
  | none =>
    let u := r.1.fetchCopy (a + 2 ^ 23)
    match u.2 with
    | some l => (if u.1.rankServes a then u.1.agentAsk [{ addr := a, line := some l }] else u.1, some l)
    | none => (u.1, Option.none)

/-- Read `n` reserve lines from an offset on. -/
def State.fetchRun (off : Nat) : Nat → State → State × List (Option Line)
  | 0, s => (s, [])
  | n + 1, s =>
    let r := s.fetchReserve off
    let t := State.fetchRun (off + 64) n r.1
    (t.1, r.2 :: t.2)

end Sys2Proof.Machine
end

