-- ==== Sys2Proof/Machine/Retire.lean ====
section
/-!
DEFINITION. Retirement and sparing (R346 to R360, R364): the fault record, what becomes of a rank's work when it is
retired, retirement causes, and the state of the copy.
-/

namespace Sys2Proof.Machine

/-! ### Runs of a sub-channel (R303, R307) -/

def State.run (s : State) (p : Nat) : Option CalRun := Tab.get (fun _ => Option.none) s.cal.runs p

def State.setRun (s : State) (p : Nat) (r : Option CalRun) : State :=
  { s with cal := { s.cal with runs := Tab.set (fun _ => Option.none) s.cal.runs p r } }

/-- A run, not a restore, is in progress on sub-channel `n`: of which rank. -/
def State.runOf (s : State) (n : Nat) : Option (Nat × CalRun) :=
  [2 * n, 2 * n + 1].findSome? fun p => match s.run p with
    | some r => if r.restore then Option.none else some (p, r)
    | none => Option.none

/-- A run becomes due on sub-channel `n`; while one is in progress or due, the pending flag is set instead (R303). -/
def State.makeDue (s : State) (n : Nat) : State :=
  if (s.runOf n).isSome || s.cal.due.contains n then
    if s.cal.pend.contains n then s else { s with cal := { s.cal with pend := s.cal.pend ++ [n] } }
  else { s with cal := { s.cal with due := s.cal.due ++ [n] } }

/-- A run has ended: a pending run becomes due (R303). -/
def State.pendToDue (s : State) (n : Nat) : State :=
  if s.cal.pend.contains n then ({ s with cal := { s.cal with pend := s.cal.pend.filter (· != n) } }).makeDue n else s

/-- A rank is retired: its run or restore ends and unapplied results are discarded (R307). A restore's end is reported by event
0x7003 of that row (R537). DESIGN CHOICE, log entry 33. -/
def State.dropCal (s : State) (p : Nat) : State :=
  match s.run p with
  | some r =>
    let s := if r.restore then (s.endDir 8).event 0x7003 (((p / 2) <<< 28) + ((p % 2) <<< 4) + 6) else s
    (s.setRun p Option.none).pendToDue (p / 2)
  | none => s

/-! ### The fault record (R364) -/

/-- The spare state as reported: copying until the failing rank is retired (R358). -/
def State.spCode (s : State) : BitVec 2 := if s.flt.ending then 1 else s.flt.sp

/-- The fault record as the state stands. -/
def State.faultLine (s : State) : Line :=
  let ps := List.range 32
  let retired := maskOf (ps.filter fun p => (s.rank p).retired)
  let want := maskOf (ps.filter fun p => (s.rank p).want)
  let erased := ps.foldl (fun a p => a + ((match (s.rank p).erased with
    | some k => k
    | none => 0xF) <<< (4 * p))) 0
  let cause := ps.foldl (fun a p => a + ((s.rank p).cause.toNat <<< (3 * p))) 0
  BitVec.ofNat 512 (0x464C5452 + (retired <<< 32) + (erased <<< 64) + (cause <<< 192) + (s.spCode.toNat <<< 288) +
    ((s.flt.spRank % 32) <<< 290) + ((s.flt.cursor % 2 ^ 18) <<< 296) + (s.flt.seq.toNat <<< 320) + (want <<< 352))

/-- Write the fault record through (R39, R364). -/
def State.writeFault (s : State) : State :=
  if s.top.trigger.isSome then s
  else
    let s := { s with flt := { s.flt with seq := s.flt.seq + 1 } }
    s.reserveWrite 0x310040 s.faultLine

/-! ### Sparing (R353 to R359) -/

/-- Lines of the failing rank in one row (R357). -/
def State.copyRow (s : State) : Nat := 4096 * 2 ^ s.geom.dBits

/-- Rows to copy (R358). -/
def State.copyRows (s : State) : Nat := s.geom.spareBase * s.geom.rowsPerRegion

/-- Sparing of rank p is available (R354). -/
def State.spareable (s : State) (p : Nat) : Bool :=
  s.flag Fld.ECC_SPARECFG.SPARE_EN && s.flt.sp == 0 &&
    s.popRanks.all fun q => q == p || ((s.rank q).trained && !s.gone q)

/-- Writes of redirected lines that already wait in the failing rank's store become dual (R356): each also waits, through the
maintenance queue, for the store of its target, where no younger request of its line passes it. DESIGN CHOICE, log entry 36. -/
def State.dualWaiting (s : State) (p : Nat) : State :=
  let mine := (s.sub (p / 2)).store.filter fun e => e.loc.rank == p % 2 &&
    (match e.kind with | .write | .oldRead | .holder => true | _ => false)
  mine.foldl (fun s e =>
    match e.pool, s.redirect e.addr with
    | some i, some (m, l) =>
      let x : StoreEntry := { kind := if e.kind == .write then .write else .holder, pool := some i, addr := e.addr, loc := l }
      (s.onEntry i fun q => { q with dual := true }).onSub m fun c => { c with maint := c.maint ++ [x] }
    | _, _ => s) s

/-- Sparing of rank p starts (R356). -/
def State.startSpare (s : State) (p : Nat) (cause : BitVec 3) : State :=
  let s := s.onRank p fun r => { r with want := false, cause := cause }
  let s := { s with flt := { s.flt with sp := 1, spRank := p, cursor := 0, copyPos := 0, unsettled := [], copyOn := true } }
  (s.dualWaiting p).writeFault.event 0x8020 (p + (cause.toNat <<< 7))

/-- A line of the copy is settled; `CURSOR` counts the rows all of whose lines are, and every 64 rows the record is
written (R357). DESIGN CHOICE, log entry 36. -/
def State.settleCopy (s : State) (pos : Option Nat) : State :=
  match pos with
  | some k =>
    if s.flt.sp == 1 then
      let u := s.flt.unsettled.erase k
      let low := u.foldl min s.flt.copyPos
      let cur := low / max 1 s.copyRow
      let old := s.flt.cursor
      let s := { s with flt := { s.flt with unsettled := u, cursor := cur } }
      if cur / 64 != old / 64 then s.writeFault else s
    else s
  | none => s

/-- Free a correction table entry (R243). -/
def State.freeCorr (s : State) (n : Nat) (x : CorrEntry) : State :=
  (s.onSub n fun c => { c with corr := c.corr.erase x }).settleCopy x.spare

/-! ### Retirement (R347) -/

/-- A request for a rank out of use (R347 step 1): a read is uncorrectable; a write is discarded and its granule marked, and of a dual
write the part for that rank; other work is discarded. -/
def State.onRetired (s : State) (e : StoreEntry) : State :=
  match e.pool with
  | some i =>
    match s.entry i with
    | some q =>
      if e.kind == .read then s.serveAll i 0 .locally 0
      else if q.dual then (s.mark (granOf q.addr)).onEntry i fun q => { q with dual := false }
      else
        let s := if q.merging then State.release s.ord.pool.length i (s.mergeInto i 0 .locally) else s
        let reserve := match q.kind with | .agentWrite | .spareCopy => true | _ => false
        let s := if reserve then s else s.mark (granOf q.addr)
        let s := (s.onEntry i fun q => { q with hasLine := false, issued := true }).tryFree i
        State.pumpAgents s.ord.agentQ.length s
    | none => s
  | none => s

/-- A retired rank's CS_N bit is held high (R280, R347 step 2). -/
def State.holdCs (s : State) (n k : Nat) : State :=
  s.onSub n fun c => { c with pins := { c.pins with csHigh := if c.pins.csHigh.contains k then c.pins.csHigh else c.pins.csHigh ++ [k] } }

/-- A rank that is trained anew is selected again (R352). -/
def State.freeCs (s : State) (n k : Nat) : State :=
  s.onSub n fun c => { c with pins := { c.pins with csHigh := c.pins.csHigh.filter (· != k) } }

/-- Schedule removes a rank's entries, nothing more of it is open or to be replayed, and its CS_N bit goes high (R347 steps 1 and 2,
R351). -/
def State.emptyRank (s : State) (n k : Nat) : State :=
  let s := s.holdCs n k
  let c := s.sub n
  let mine := c.store.filter fun e => e.loc.rank == k
  let s := s.setSub n { c with
    store := c.store.filter fun e => e.loc.rank != k, maint := c.maint.filter fun e => e.loc.rank != k,
    corr := c.corr.filter fun x => x.loc.rank != k, banks := c.banks.filter fun b => b.1 / 8 % 2 != k,
    suspects := c.suspects.filter fun r => r.loc.rank != k, replayLeft := c.replayLeft.filter fun r => r.loc.rank != k,
    fallback := c.fallback.filter fun f => f / 16 != k, pd := c.pd.filter (· != k), pdExit := c.pdExit.filter (· != k), sref := c.sref.filter (· != k) }
  mine.foldl State.onRetired s

/-- Step 4 of a retirement: `RETIRED` and `CAUSE` are set, the record is written and event 0x8012 logged.
DESIGN CHOICE, log entry 33. -/
def State.setRetired (s : State) (p : Nat) (cause : BitVec 3) (spared : Bool) : State :=
  let s := (s.holdCs (p / 2) (p % 2)).onRank p fun r => { r with retired := true, want := false, cause := cause, spared := spared }
  let s := { s with flt := { s.flt with converting := s.flt.converting.filter (· != p) } }
  s.writeFault.event 0x8012 (((p / 2) <<< 28) + ((p % 2) <<< 4) + (cause.toNat <<< 5) + (bitOf spared <<< 8))

/-- A retirement with its region entries to be set `OFFLINE` begins (R347 steps 1 and 2); `cause` is what its end sets. -/
def State.retireNow (s : State) (p : Nat) (cause : BitVec 3) : State :=
  let s := s.onRank p fun r => { r with next := cause, began := s.time.cycle }
  let s := { s with flt := { s.flt with converting := s.flt.converting ++ [p] } }
  (s.emptyRank (p / 2) (p % 2)).dropCal p

/-- Every mapped entry becomes `OFFLINE`, keeping its role; one that is already is not written (R347 step 3). -/
def State.allOffline (s : State) : State :=
  foldS s.mappedRegions (fun s r =>
    let w := s.rtEntry r
    if rtSync w == 5 then s else s.setRt r (rtPut w (rtRole w) 5 (rtHandover w))) s

/-- The twin holds a full, current copy, so that this hub may retire a rank on its own (R346). -/
def State.mayRetire (s : State) : Bool := s.pairState == .paired && !s.causeStands && s.top.trigger.isNone

/-- A retirement cause that is not acted on: `WANT` is set, once (R346). -/
def State.wantRank (s : State) (p : Nat) (cause : BitVec 3) : State :=
  if (s.rank p).want then s
  else
    let s := (s.onRank p fun r => { r with want := true, cause := cause }).writeFault
    s.event 0x8011 (((p / 2) <<< 28) + ((p % 2) <<< 4) + (cause.toNat <<< 5))

/-- The copy is aborted by rank p (R359). -/
def State.abortSpare (s : State) (p : Nat) : State :=
  let s := { s with flt := { s.flt with sp := 3, unsettled := [], copyOn := false, ending := false } }
  s.writeFault.event 0x8022 (s.flt.spRank + (p <<< 5))

/-- The rank whose copy another rank's retirement or retirement cause aborts (R359). -/
def State.copying (s : State) (p : Nat) : Option Nat := if s.flt.sp == 1 && s.flt.spRank != p then some s.flt.spRank else Option.none

/-- The rank that was being copied is handled without sparing (R359). -/
def State.actSelf (s : State) (q : Nat) : State :=
  if s.mayRetire then s.retireNow q (s.rank q).cause else s.wantRank q (s.rank q).cause

/-- A rank is retired; a copy of another is aborted first, and that rank handled after (R347, R359). -/
def State.retire (s : State) (p : Nat) (cause : BitVec 3) : State :=
  match s.copying p with
  | some q => ((s.abortSpare p).retireNow p cause).actSelf q
  | none => s.retireNow p cause

/-- The order of R346 without sparing: retirement where the twin holds a full, current copy, else `WANT`. -/
def State.actAlone (s : State) (p : Nat) (cause : BitVec 3) : State :=
  if s.mayRetire then s.retire p cause else s.wantRank p cause

/-- The hub acts on a rank's retirement cause (R346). -/
def State.actOn (s : State) (p : Nat) (cause : BitVec 3) : State :=
  if s.spareable p && s.top.trigger.isNone then s.startSpare p cause else s.actAlone p cause

/-- A rank receives a retirement cause (R346, R359). A retirement by directive that began in this core cycle takes the automatic cause
(R365). -/
def State.raiseRank (s : State) (p : Nat) (cause : BitVec 3) : State :=
  let r := s.rank p
  if s.flt.converting.contains p && r.next == 6 && r.began == s.time.cycle then s.onRank p fun r => { r with next := cause }
  else if s.gone p || r.want || (s.flt.sp == 1 && s.flt.spRank == p) || s.flt.ending && s.flt.spRank == p then s
  else
    match s.copying p with
    | some q => ((s.abortSpare p).actSelf q).actAlone p cause
    | none => s.actOn p cause

/-- The order of R346 applied again to every rank with `WANT` = 1. -/
def State.reapply (s : State) : State :=
  foldS ((List.range 32).filter fun p => (s.rank p).want && !s.gone p) (fun s p => s.actOn p (s.rank p).cause) s

/-- The copy goes on at `CURSOR` when the hub enters `SERVICE`; on a table built from the image it is done (R357). -/
def State.resumeCopy (s : State) : State :=
  if s.flt.sp == 1 && !s.flt.copyOn then
    if s.fld Fld.MAP_TBLSRC.SOURCE = 2 then
      { s with flt := { s.flt with copyOn := true, copyPos := s.flt.cursor * s.copyRow, unsettled := [] } }
    else ({ s with flt := { s.flt with sp := 2 } }).writeFault
  else s

/-- Entries of a rank that wait in its store. -/
def State.rankWork (s : State) (p : Nat) : Bool := (s.sub (p / 2)).store.any fun e => e.loc.rank == p % 2

/-- The last entry of the failing rank's store has issued after the switch: the rank is retired with `SPARED` = 1
(R358). -/
def State.endSpare (s : State) : State :=
  if s.flt.ending && !s.rankWork s.flt.spRank then
    let p := s.flt.spRank
    let s := { s with flt := { s.flt with ending := false } }
    let s := (s.emptyRank (p / 2) (p % 2)).dropCal p
    (s.setRetired p (s.rank p).cause true).event 0x8021 p
  else s

/-- `RETIRE_CONVERSION_DONE` (R347): steps 3 and 4 of a retirement in progress. -/
def execRetireConversionDone (rank : Fin 32) (s : State) : Host.Outcome State Fault Refusal :=
  .next (
    let p := rank.val
    if s.flt.converting.contains p && s.top.trigger.isNone then s.allOffline.setRetired p (s.rank p).next false else s)

/-- `SPARE_COPY_DONE` (R358): `CURSOR` has reached the boundary; reads of redirected lines switch to their targets. -/
def execSpareCopyDone (s : State) : Host.Outcome State Fault Refusal :=
  .next (
    if s.flt.sp == 1 && decide (s.flt.cursor ≥ s.copyRows) && s.top.trigger.isNone then
      ({ s with flt := { s.flt with sp := 2, copyOn := false, unsettled := [], ending := true } }).endSpare
    else s)

/-- One off every bucket of a rank, none below 0. -/
def RankSt.leak (r : RankSt) : RankSt :=
  { r with
    ue := r.ue - 1, rce := r.rce - 1,
    pkg := (List.range 10).foldl (fun t j => Tab.set (fun _ => 0) t j (Tab.get (fun _ => 0) t j - 1)) r.pkg }

/-- `BUCKET_LEAK` (R344). -/
def execBucketLeak (s : State) : Host.Outcome State Fault Refusal :=
  .next (foldS (List.range 32) (fun s p => s.onRank p RankSt.leak) s)

/-- Every bucket is cleared, on entry to `TRAIN` or `RESTORE` (R344). -/
def State.clearBuckets (s : State) : State :=
  foldS (List.range 32) (fun s p => s.onRank p fun r => { r with ue := 0, rce := 0, pkg := [] }) s

end Sys2Proof.Machine
end

