-- ==== Sys2Proof/Machine/Transit.lean ====
section
/-!
DEFINITION. Links going down (R64, R66, R109, R179) and top-level transitions (R23).
-/

namespace Sys2Proof.Machine

/-! ### Links going down (R64, R66, R109, R179) -/

/-- Discard what Return owes to a port that is down, freeing its entries (R66). -/
def State.dropReturn (s : State) (p : Port) : State :=
  let mine := s.ord.ret.filter fun r => r.port == p
  let s := { s with ord := { s.ord with ret := s.ord.ret.filter fun r => r.port != p } }
  mine.foldl (fun s r =>
    let s := if r.line then { s with ord := { s.ord with retRes := s.ord.retRes - 1 } } else s
    match r.body, r.pool with
    | .data _, some i => s.setEntry i Option.none
    | .record _ _ _ _ final, some i =>
      match s.entry i with
      | some e =>
        if e.kind == .read || e.kind == .flush then s.setEntry i Option.none
        else if final then (s.onEntry i fun e => { e with owes := false }).tryFree i
        else s
      | none => s
    | _, none => s) s

/-- The port whose receive crossing holds an item (R30). -/
def RxItem.port : RxItem → Port
  | .cmd p _ => p
  | .flitEnd p => p

/-- The pool entries that the messages waiting on a port would free. -/
def LinkSt.owedPools (l : LinkSt) : List Nat := l.tx.filterMap fun
  | .owing _ _ p => p
  | _ => Option.none

/-- Cut off the event reader of a U-port that leaves service (R502). -/
def State.stopReader (s : State) (p : Port) : State :=
  match s.reader p.idx with
  | some pos =>
    let s := if s.log.ring.length = 0 then s else s.cutOff p.idx pos (fun s _ => s)
    (s.setReader p.idx Option.none).freeRing
  | none => s

/-- What a port keeps when it enters `DOWN`: its failed attempts and its register fields (R109). -/
def LinkSt.fallen (l : LinkSt) : LinkSt := { attempts := l.attempts, longWait := l.longWait, lastFlit := l.lastFlit }

/-- T has entered `DOWN` (R179, R190, R195): sent entries become unresolved, replicas still queued are dropped, backlog
writes are dispatched, reads waiting on the twin end, those among them that still wait for a repair tag (DESIGN CHOICE, log entry
49), P's handovers are given up, and a cause is raised. -/
def State.twinDown (s : State) (dropped : List TxData) : State :=
  let credits := dropped.filterMap fun d => d.credit.map fun p => (d.slot.tag.toNat, p)
  let grans := s.mir.pend.filterMap fun q => match q.2 with
    | some e => if dropped.any (fun d => d.slot.form == 3 && d.slot.tag.toNat == q.1) && e.state == .sent then some e.gran else Option.none
    | none => Option.none
  let s := s.mapPend fun k e =>
    match e.state with
    | .sent => { e with state := .unresolved, credit := (credits.find? fun c => c.1 == k).map (·.2) }
    | .unresolved => e
  let s := { s with mir := { s.mir with repStale := [] }, twin := {} }
  let s := grans.foldl State.mark s
  let s := s.dropBacklog true
  let s := (dropped.filterMap (·.pool)).foldl (fun s i => s.setEntry i Option.none) s
  let tags := (List.range 256).filter fun t => !s.tagFree t && !s.mir.repStale.contains t
  let s := tags.foldl (fun s t => s.repairEnds t 0) s
  let s := s.wantTag.foldl (fun s i =>
    match s.entry i with
    | some e => if e.forwarded then s.fwdMiss i 0 false
        else if e.merging then State.release s.ord.pool.length i (s.mergeInto i e.found .locally)
        else s.readData i e e.found 0 true
    | none => s) s
  let s := { s with mir := { s.mir with
    repairs := [], repStale := [], scrubRep := [], lastCtl := [], curWait := [], filters := [], startHeld := Option.none,
    rbOut := [] } }
  let s := if s.mir.pstate == .paired then { s with mir := { s.mir with rb := .none, copies := [], todo := [], regionOpen := false } }
    else s
  let s := s.setFld Fld.GLB_HUBID.TWIN_MATCH 0
  s.dropDrains.raiseCause 1

/-- A port enters `DOWN`. A failed attempt is counted, and every third one waits 1 s (R64). Of `LNK_STATUS` the rate and the width go
(R71); what `REVERSED` and `POLINV` read while the port is down the manual leaves open: they keep what training last found.
DESIGN CHOICE, log entry 39. -/
def State.linkDown (s : State) (p : Port) (failed : Bool) : State :=
  let l := s.link p
  if l.lstate == .down then s
  else
    let n := if failed then l.attempts + 1 else l.attempts
    let s := { s with rx := s.rx.filter fun x => x.port != p }
    let s := s.setLink p { l.fallen with attempts := n, longWait := failed && n % 3 == 0 }
    let s := (s.setFld (Fld.LNK_STATUS.WIDTH p.idx) 0).setFld (Fld.LNK_STATUS.RATE p.idx) 0
    let s := s.dropReturn p
    let s := { s with ord := { s.ord with mapped := s.ord.mapped.filter fun m => m.lane != p } }
    let s := s.mapPool fun e => if e.port == p then { e with orphan := true } else e
    let s := l.owedPools.foldl (fun s i => s.setEntry i Option.none) s
    if p.isT then s.twinDown l.txData else s.stopReader p

/-! ### Top-level transitions (R23) -/

/-- States in which every port is in `DOWN` (R64). -/
def TopState.linksDown : TopState → Bool
  | .calm | .bootHold | .faultOff | .standby | .off => true
  | _ => false

/-- Clear what R124 clears on entry to `JOIN` from `TRAIN` or `RESTORE`. -/
def State.clearOrder (s : State) : State :=
  { s with ord := { s.ord with streams := [], forkNext := 1, front := 0, forks := [] } }

/-- On entry to `JOIN` no port is quiesced (R540), and the port pointer names U0 (R121). -/
def State.joinEntry (s : State) : State :=
  ({ s with ord := { s.ord with ptr := 0, granted := [] } }).setFld Fld.GLB_QUIESCE.PORTS 0

/-- PLW_N channels asserted after their filter, by number. -/
def State.plwOn (s : State) : List Nat := [0, 1].filter fun k => (s.fld Fld.PWR_FEEDSTAT.PLW).testBit k

/-- What entering a state does in the AON sequencer: on the next entry to `RESTORE` or `SERVICE` after a trigger a PLW_N channel still
asserted is ignored until it is released (R433), and in `SERVICE` the `RET` timer runs again (R450). -/
def State.aonEntry (s : State) (dst : TopState) : State :=
  let s := if (dst == .restore || dst == .service) && s.pwr.plwPast then
      { s with pwr := { s.pwr with plwIgn := s.plwOn, plwTimer := Option.none, plwPast := false } }
    else s
  if dst == .service then
    { s with pwr := { s.pwr with retHold := false }, boot := { s.boot with service := s.time.elapsed } }
  else s

/-- What entering a state from another does beside the change itself: the flags, the event, the links that fall, and what begins
or is cleared with the state; `DPH_RETSTAT` is released on entry to `TRAIN` or `RESTORE` (R293). -/
def State.afterEntry (s : State) (dst prev : TopState) (cause : Byte) : State :=
  let s := (s.setFld Fld.GLB_EVENT.STATE 1).aonEntry dst
  let s := s.event 0x0001 (dst.code + (prev.code <<< 4) + (cause.toNat <<< 8))
  let s := if dst.linksDown then allPorts.foldl (fun s p => s.linkDown p false) s else s
  let s := if dst == .join then s.joinEntry else s
  let s := if dst == .service then s.resumeCopy.reapply else s
  let s := if dst == .train || dst == .restore then s.clearBuckets.setReg Reg.DPH_RETSTAT 4 else s
  let s := if dst == .join && (prev == .train || prev == .restore) then s.clearOrder else s
  if (dst == .join && prev == .train) || dst == .restore then
    allPorts.foldl (fun s p => s.onLink p fun l => { l with attempts := 0, longWait := false }) s
  else s

/-- Enter a top-level state with a cause code (R23, R26, R64, R124, R532, R540). -/
def State.goTo (s : State) (dst : TopState) (cause : Byte) : State :=
  ({ s with top := { s.top with state := dst, prev := s.top.state, cause := cause } }).afterEntry dst s.top.state cause

end Sys2Proof.Machine
end

