-- ==== Sys2Proof/Machine/Link.lean ====
section
/-!
DEFINITION. The Satrum link: training, negotiation, flits, replay, retraining, Still, margining and credits on the wire
(R43 to R76, R104 to R119, R566).
-/

namespace Sys2Proof.Machine

/-! ### Training and link states (R64, R65) -/

/-- Top-level states in which a port may leave `DOWN` (R64). -/
def TopState.linksAllowed : TopState → Bool
  | .join | .service | .gust | .restore => true
  | _ => false

/-- Lanes of a running width (R44): width code 0b01 or 0b10 is half, 0b11 full. -/
def laneCount (p : Port) (width : Nat) : Nat :=
  let full := if p.isT then 16 else 8
  if width = 3 then full else full / 2

/-- Scrambler seeds at entry to `INIT`, for every lane of the port: the lane number plus 1 (R49). -/
def scramblerSeeds (p : Port) : List (BitVec 31) := (List.range (laneCount p 3)).map fun k => BitVec.ofNat 31 (k + 1)

/-- The features the hub offers on a port (R114). -/
def State.offered (s : State) (p : Port) : Word :=
  if p.isT then 0x001F0090
  else BitVec.ofNat 32 (0x3D7 + 8 * s.fld (Fld.LNK_CFG.STILL_EN p.idx) + 0x20 * s.fld Fld.ECC_SPARECFG.SPARE_EN)

/-- The hub ID (R19). -/
def State.hubId (s : State) : BitVec 18 := BitVec.ofNat 18 (s.fld Fld.GLB_HUBID.HUB_ID)

/-- The `NEG` the hub sends on a port (R110). -/
def State.myNeg (s : State) (p : Port) : NegMsg :=
  { profile := if p.isT then 3 else 2, linkRevs := 3, mirRevs := if p.isT then 3 else 0, features := s.offered p,
    domain := BitVec.ofNat 16 (s.fld Fld.GLB_POOLDOM.POOL_DOMAIN), node := s.hubId, port := BitVec.ofNat 3 p.idx }

/-- `LINK_TRAIN_START`: a port in `DOWN` enters `TRAIN` (R64). -/
def execLinkTrainStart (p : Port) (s : State) : Host.Outcome State Fault Refusal :=
  .next (if (s.link p).lstate == .down && s.top.state.linksAllowed then
    s.onLink p fun l => { l with lstate := .train, longWait := false }
  else s)

/-- A width that training may settle at (R65): full, or a half if `HALF_OK`. DESIGN CHOICE, log entry 39. -/
def State.widthOk (s : State) (p : Port) (width : BitVec 2) : Bool :=
  width == 3 || (width != 0 && s.flag (Fld.LNK_CFG.HALF_OK p.idx))

/-- A rate that training may settle at: up to `RATE_CAP` (R65); code 0b11 is no rate. -/
def State.rateOk (s : State) (p : Port) (rate : BitVec 2) : Bool :=
  rate != 3 && rate.toNat ≤ s.fld (Fld.LNK_CFG.RATE_CAP p.idx)

/-- A port enters `INIT` (R64, R59, R97, R110): replay state fresh, scramblers seeded, `NEG` queued. -/
def State.enterInit (s : State) (p : Port) (width : BitVec 2) : State :=
  let l := s.link p
  let s := s.setLink p { l.fallen with
    lstate := .init, width := width, scr := scramblerSeeds p, negOut := true, tx := [.msg (mkNeg (s.myNeg p))] }
  if p.isT then { s with twin := {} } else s

/-- `LINK_TRAIN_SETTLED` (R64, R65): rate, width, reversal and inversion are reported and `INIT` is entered. -/
def execLinkTrainSettled (p : Port) (rate width : BitVec 2) (reversed : Bool) (polinv : BitVec 16) (s : State) :
    Host.Outcome State Fault Refusal :=
  .next (if (s.link p).lstate == .train && s.widthOk p width && s.rateOk p rate then
    let s := (s.setFld (Fld.LNK_STATUS.RATE p.idx) rate.toNat).setFld (Fld.LNK_STATUS.WIDTH p.idx) width.toNat
    let s := (s.setFlag (Fld.LNK_STATUS.REVERSED p.idx) reversed).setFld (Fld.LNK_STATUS.POLINV p.idx) polinv.toNat
    s.enterInit p width
  else s)

/-- `LINK_TRAIN_TIMEOUT` (R64, R566): 50 ms without settling. -/
def execLinkTrainTimeout (p : Port) (lastStep : BitVec 4) (s : State) : Host.Outcome State Fault Refusal :=
  .next (if (s.link p).lstate == .train then
    (s.event 0x1055 (p.idx + (lastStep.toNat <<< 4))).linkDown p true
  else s)

/-! ### Negotiation (R110 to R116) -/

/-- The highest common revision of two masks: 2, 1, or 0 for none (R113). -/
def commonRev (a b : Byte) : Byte :=
  if (a &&& b).getLsbD 1 then 2 else if (a &&& b).getLsbD 0 then 1 else 0

/-- Features available at the revisions chosen (R113, R114). Revision 2 brings bits 6 to 9 on a U-port; on T it brings
bit 7 by the link revision and bit 20 by the mirror revision. -/
def featureMask (p : Port) (linkRev mirRev : Byte) : Word :=
  if p.isT then
    (if linkRev = 2 then (0x90 : Word) else 0x10) ||| (if mirRev = 2 then (0x1F0000 : Word) else 0x0F0000)
  else if linkRev = 2 then 0x3FF else 0x3F

/-- The domain check of R10 on a U-port, or the twin check of R18 on T. -/
def State.peerOk (s : State) (p : Port) (m : NegMsg) : Bool :=
  let me := s.myNeg p
  if p.isT then m.node == me.node ^^^ 1 && m.domain == me.domain else m.domain == me.domain

/-- The answer to a peer's `NEG` (R112, R113). -/
def State.judgeNeg (s : State) (p : Port) (m : NegMsg) : NegAckMsg :=
  let me := s.myNeg p
  let lr := commonRev me.linkRevs m.linkRevs
  let mr := if p.isT then commonRev me.mirRevs m.mirRevs else 0
  let f := me.features &&& m.features &&& featureMask p lr mr
  let r : Byte :=
    if m.profile != (if p.isT then 3 else 1) then 4
    else if !s.peerOk p m then (if p.isT then 3 else 2)
    else if lr == 0 || (p.isT && mr == 0) then 1
    else if !p.isT && (f &&& 6) != 6 then 5
    else 0
  if r = 0 then { result := 0, linkRev := lr, mirRev := mr, features := f }
  else { result := r, linkRev := 0, mirRev := 0, features := 0 }

/-- Count a discarded message and log an event for which no `DATA` is stated. -/
def State.badMsg (s : State) (p : Port) (code : BitVec 16) : State := (s.bump (Reg.LNK_BADMSG p.idx)).freeEvent code

/-- `NEG_RECEIVED` (R112): judged and answered in `INIT`; a second one is counted; one in service is unknown (R79). -/
def execNegReceived (p : Port) (m : NegMsg) (s : State) : Host.Outcome State Fault Refusal :=
  .next (
    let l := s.link p
    if l.lstate == .init then
      match l.peerNeg with
      | some _ => s.bump (Reg.LNK_BADMSG p.idx)
      | none =>
        let a := s.judgeNeg p m
        s.setLink p { l with peerNeg := some m, myAck := some a, tx := l.tx ++ [.msg (mkNegAck a)] }
    else if l.up then s.badMsg p 0x1051
    else s)

/-- Negotiation fails (R64, R112): `FAIL` is set, event 0x1054 logged and the port enters `DOWN`. -/
def State.negFail (s : State) (p : Port) (code : Nat) : State :=
  ((s.setFld (Fld.LNK_NEG.FAIL p.idx) code).freeEvent 0x1054).linkDown p true

/-- Entries of the request pool that requests accepted on an earlier link still hold for a port. -/
def State.heldReq (s : State) (p : Port) : Nat :=
  (s.ord.pool.filter fun q => decide (q.1 < 8192) && (match q.2 with
    | some e => e.port == p
    | none => false)).length

/-- Return lines such requests still hold. -/
def State.heldRd (s : State) (p : Port) : Nat :=
  (s.ord.pool.filter fun q => (match q.2 with
    | some e => e.port == p && e.kind == .read
    | none => false)).length

/-- Write-data credits such requests still hold back (R40). -/
def State.heldWd (s : State) (p : Port) : Nat :=
  (s.ord.pool.filter fun q => (match q.2 with
    | some e => e.port == p && e.wdHeld
    | none => false)).length +
  ((s.link .t).txData.filter fun d => d.credit == some p).length +
  (s.mir.pend.filter fun q => (match q.2 with
    | some e => e.credit == some p
    | none => false)).length

/-- The initial grant of a port: its share minus what earlier requests still hold (R104, R109). -/
def State.initialGrant (s : State) (p : Port) : Credits :=
  let c := shareOf p
  if p.isT then { c with req := c.req - s.heldReq p }
  else { c with req := c.req - s.heldReq p, rd := c.rd - s.heldRd p, wd := c.wd - s.heldWd p }

/-- Event 0xA030: the contents report, sent to a controller whose port reaches `SERVICE` (R446). -/
def State.contentsEvent (s : State) : State :=
  if s.fld Fld.PWR_CONTENTS.REPORT = 0 then s
  else s.event 0xA030 (s.fld Fld.PWR_CONTENTS.REPORT + (s.fld Fld.PWR_CONTENTS.REASON <<< 4) + (s.fld Fld.PWR_CONTENTS.EARLY <<< 8))

/-- A port enters `SERVICE` from `INIT` (R64, R18, R109, R119, R205, R446, R502). DESIGN CHOICE, log entry 16. -/
def State.enterService (s : State) (p : Port) (n : NegMsg) (a : NegAckMsg) : State :=
  let g := s.initialGrant p
  let s := s.onLink p fun l => { l with
    lstate := .service, attempts := 0, gotAck := true, granted := g, tx := l.tx ++ [.msg (mkCredit true g)] }
  let s := s.setReg (Reg.LNK_FEAT p.idx) a.features
  let s := (s.setFld (Fld.LNK_PEER.PEER_ID p.idx) n.node.toNat).setFld (Fld.LNK_PEER.PEER_PORT p.idx) n.port.toNat
  let s := (s.setFld (Fld.LNK_NEG.LINK_REV p.idx) a.linkRev.toNat).setFld (Fld.LNK_NEG.MIR_REV p.idx) a.mirRev.toNat
  if p.isT then (s.setFld Fld.GLB_HUBID.TWIN_MATCH 1).heartbeat
  else (s.setReader p.idx (some (s.log.ring.length - 1))).contentsEvent

/-- A `NEG_ACK` carries a value that R111 does not define, so it is treated as an unknown message (R77, R79). -/
def badNegAck (m : NegAckMsg) : Bool := m.result.toNat > 7

/-- `NEG_ACK_RECEIVED` (R112 step 4). One that comes before the peer's `NEG` is only noted: with nothing of the hub's own to hold
it against, the negotiation then ends by its timer. DESIGN CHOICE, log entry 39. -/
def execNegAckReceived (p : Port) (m : NegAckMsg) (s : State) : Host.Outcome State Fault Refusal :=
  .next (
    let l := s.link p
    if badNegAck m && (l.lstate == .init || l.up) then s.badMsg p 0x1051
    else if l.lstate == .init then
      if l.gotAck then s.bump (Reg.LNK_BADMSG p.idx)
      else
        match l.peerNeg, l.myAck with
        | some n, some a =>
          if a.result = 0 && m.result = 0 && a.linkRev = m.linkRev && a.mirRev = m.mirRev && a.features = m.features then
            s.enterService p n a
          else s.negFail p (if a.result ≠ 0 then a.result.toNat else if m.result ≠ 0 then m.result.toNat else 7)
        | _, _ => s.setLink p { l with gotAck := true }
    else if l.up then s.badMsg p 0x1051
    else s)

/-- `NEG_TIMEOUT` (R112): 100 µs after `INIT`. -/
def execNegTimeout (p : Port) (s : State) : Host.Outcome State Fault Refusal :=
  .next (if (s.link p).lstate == .init then s.negFail p 6 else s)

/-! ### Retraining (R62 to R65, R70) -/

/-- A power-loss notice is waiting on the port (R70). -/
def LinkSt.plnWaiting (l : LinkSt) : Bool := l.pln.isSome || l.plnFirst > 0 || l.plnSeq.isSome

/-- Enter `RETRAIN` (R64). DESIGN CHOICE, log entry 39. -/
def State.enterRetrain (s : State) (p : Port) : State :=
  let s := s.onLink p fun l => { l with lstate := .retrain, deferred := false, refill := false, replayAt := Option.none }
  (s.setFld (Fld.LNK_STATUS.RETRAIN_DEFER p.idx) 0).bump (Reg.LNK_RETRAINS p.idx)

/-- A retrain cause: `RETRAIN`, or deferred behind a power-loss notice (R64, R70). -/
def State.retrainCause (s : State) (p : Port) : State :=
  let l := s.link p
  if l.lstate == .service then
    if l.plnWaiting then
      let s := s.setLink p { l with deferred := true }
      (s.setFld (Fld.LNK_STATUS.RETRAIN_DEFER p.idx) 1).setFld (Fld.LNK_EVENT.RETRAIN_DEFERRED p.idx) 1
    else s.enterRetrain p
  else s

/-- `LANE_LOCK_LOST` (R63): lost bit lock or unexpected electrical idle. -/
def execLaneLockLost (p : Port) (s : State) : Host.Outcome State Fault Refusal := .next (s.retrainCause p)

/-- `RETRAIN_DEFER_END` (R70). -/
def execRetrainDeferEnd (p : Port) (s : State) : Host.Outcome State Fault Refusal :=
  .next (if (s.link p).lstate == .service && (s.link p).deferred then s.enterRetrain p else s)

/-- `RETRAIN_FAST_FAIL` (R65): the port re-equalises in full. -/
def execRetrainFastFail (p : Port) (s : State) : Host.Outcome State Fault Refusal :=
  .next (if (s.link p).lstate == .retrain then s.onLink p fun l => { l with refill := true } else s)

/-- The rate and width at which a retrain may end (R65): unchanged on the fast path, never raised otherwise. -/
def State.retrainTo (s : State) (p : Port) (rate width : BitVec 2) : Bool :=
  let r := s.fld (Fld.LNK_STATUS.RATE p.idx)
  let w := s.fld (Fld.LNK_STATUS.WIDTH p.idx)
  if (s.link p).refill then
    s.widthOk p width && rate.toNat ≤ r && (w = 3 || width.toNat = w || (width != 3 && width != 0))
  else rate.toNat == r && width.toNat == w

/-- `RETRAIN_COMPLETE` (R62, R64, R65, R69): unacknowledged flits are replayed, uncounted. -/
def execRetrainComplete (p : Port) (rate width : BitVec 2) (s : State) : Host.Outcome State Fault Refusal :=
  .next (if (s.link p).lstate == .retrain && s.retrainTo p rate width then
    let lower := rate.toNat != s.fld (Fld.LNK_STATUS.RATE p.idx) ||
      (width != 3 && s.fld (Fld.LNK_STATUS.WIDTH p.idx) == 3)
    let s := if lower then s.setFld (Fld.LNK_EVENT.DOWNSHIFT p.idx) 1 else s
    let s := (s.setFld (Fld.LNK_STATUS.RATE p.idx) rate.toNat).setFld (Fld.LNK_STATUS.WIDTH p.idx) width.toNat
    s.onLink p fun l => { l with
      lstate := .service, width := width, replays := 0, replayAt := if l.buf.isEmpty then Option.none else some 0, refill := false,
      plnFlits := if s.top.state == .gust then 8 else l.plnFlits }
  else s)

/-- `RETRAIN_TIMEOUT` (R64, R566). -/
def execRetrainTimeout (p : Port) (s : State) : Host.Outcome State Fault Refusal :=
  .next (if (s.link p).lstate == .retrain then (s.event 0x1056 p.idx).linkDown p true else s)

/-! ### Still (R67, R68) -/

/-- An event waits on a port that could be sent now (R92, R502). That an event counts as traffic and as a wake reason only while the
hub holds an EV credit for it is the model's reading: R67 and R68 name no credit. DESIGN CHOICE, log entry 39. -/
def State.eventWaits (s : State) (p : Port) : Bool :=
  match s.reader p.idx with
  | some pos => (s.log.ring.drop pos).any fun e =>
      (s.reg (Reg.LOG_EVMASK p.idx)).getLsbD (e.code.toNat >>> 12) && (!e.summary || s.feat p 9) && (s.link p).mine.ev > 0
  | none => false

/-- The wake reasons of R68, lowest code first. -/
def State.wakeReason (s : State) (p : Port) : Option (BitVec 2) :=
  if (s.link p).pln.isSome then some 1
  else if s.eventWaits p then some 2
  else if (s.link p).pairWake then some 3
  else Option.none

/-- A completion or a message of the management lane: `CPL`, `CPL_MGT` or `EVENT` (R27, R67). -/
def isTraffic (m : Msg) : Bool := bitsOf m 7 0 = 0x30 || bitsOf m 7 0 = 0x31 || bitsOf m 7 0 = 0x32

/-- Read data, a completion or a management message waits on the port (R67). Credits that wait do not count. -/
def LinkSt.trafficWaits (l : LinkSt) : Bool :=
  (l.tx.any fun
    | .msg m => isTraffic m
    | .owing m _ _ => isTraffic m
    | .data _ => true) ||
  l.cross.any fun f => f.cur.any isTraffic || f.slots.any fun
    | .data _ => true
    | .msgs ms => ms.any isTraffic

/-- `STILL_REQ` (R67): `STILL_ACK`, or `STILL_NAK` with the first failing reason. A remote wake that has still to be sent is a message
of the management lane that waits (R68). -/
def execStillReq (p : Port) (s : State) : Host.Outcome State Fault Refusal :=
  .next (
    let l := s.link p
    if l.lstate == .service && !p.isT then
      let why : Byte :=
        if !s.flag (Fld.LNK_CFG.STILL_EN p.idx) then 1
        else if s.top.state != .service then 2
        else if !l.buf.isEmpty then 3
        else if l.trafficWaits || l.wakeDue || l.pln.isSome || s.eventWaits p || s.ord.ret.any (fun r => r.port == p) then 4
        else 0
      if why = 0 then s.setLink p { l with lstate := .still, linkCtl := some (2, 0), stillOut := 8, pairWake := false }
      else (s.setLink p { l with linkCtl := some (3, why) }).setFld (Fld.LNK_EVENT.STILL_REFUSED p.idx) 1
    else s)

/-- Leave `STILL` by one retrain, remembering the wake reason to report (R68). DESIGN CHOICE, log entry 39. -/
def State.leaveStill (s : State) (p : Port) (reason : Option (BitVec 2)) : State :=
  (s.onLink p fun l => { l with wakeDue := true, wake := reason, pairWake := false, stillOut := 0, linkCtl := Option.none }).enterRetrain p

/-- `STILL_RESUME` (R68): a pending wake reason makes it a collision, and so does a wake of the hub that has begun already: one
retrain serves both. -/
def execStillResume (p : Port) (s : State) : Host.Outcome State Fault Refusal :=
  .next (
    let l := s.link p
    if l.lstate == .still then
      let r := s.wakeReason p
      (if r.isSome then s.setFld (Fld.LNK_EVENT.WAKE_COLLIDE p.idx) 1 else s).leaveStill p r
    else if l.lstate == .retrain && l.wakeDue && l.wake.isSome then s.setFld (Fld.LNK_EVENT.WAKE_COLLIDE p.idx) 1
    else s)

/-- `STILL_WAKE` (R68): the hub leaves electrical idle for a wake reason. -/
def execStillWake (p : Port) (reason : BitVec 2) (s : State) : Host.Outcome State Fault Refusal :=
  .next (if (s.link p).lstate == .still && s.wakeReason p == some reason then s.leaveStill p (some reason) else s)

/-! ### Margining (R47, R76) -/

/-- Start a margining run with the value written to `LNK_MARGIN`; no effect out of `SERVICE` or on a lane the port does
not have (R76). DESIGN CHOICE, log entry 39. -/
def State.marginGo (s : State) (p : Port) (value : Word) : State :=
  if (s.link p).lstate == .service && value.getLsbD 14 && (p.isT || fieldGet value 3 0 < 8) then
    let s := s.setReg (Reg.LNK_MARGIN p.idx) (value &&& 0x00007FEF)
    s.onLink p fun l => { l with margBad := 0 }
  else s

/-- `MARGIN_GO`. -/
def execMarginGo (p : Port) (value : Word) (s : State) : Host.Outcome State Fault Refusal := .next (s.marginGo p value)

/-- `MARGIN_STOP`: the run ends, and is flagged if it ended on 8 bad flits (R47). -/
def execMarginStop (p : Port) (s : State) : Host.Outcome State Fault Refusal :=
  .next (if s.flag (Fld.LNK_MARGIN.GO p.idx) then
    let s := (s.setFld (Fld.LNK_MARGIN.GO p.idx) 0).setFld (Fld.LNK_MARGIN.DONE p.idx) 1
    if (s.link p).margBad ≥ 8 then s.setFld (Fld.LNK_EVENT.MARGIN_STOP p.idx) 1 else s
  else s)

/-! ### Receiving flits (R51, R55, R58, R60, R61, R63) -/

/-- Request a NAK: one flag out, unless a NAK wait runs (R61). -/
def LinkSt.requestNak (l : LinkSt) : LinkSt :=
  if l.nakWait then l else { l with nakWait := true, nakOut := true }

/-- Begin a replay counted by R62; the replay limit raises a retrain cause. DESIGN CHOICE, log entry 39. -/
def State.startReplay (s : State) (p : Port) : State :=
  let l := s.link p
  if l.buf.isEmpty then s
  else
    let s := (s.setLink p { l with replayAt := some 0, replays := l.replays + 1 }).bump (Reg.LNK_REPLAYS p.idx)
    if l.replays + 1 ≥ s.fld (Fld.LNK_REPLAY.REPLAY_LIM p.idx) then s.retrainCause p else s

/-- A flit failed its CRC-48 or has a reserved `KIND` (R51, R58, R63). -/
def State.badFlit (s : State) (p : Port) : State :=
  let s := s.bump (Reg.LNK_BADFLIT p.idx)
  let s := s.onLink p LinkSt.requestNak
  if s.flag (Fld.LNK_MARGIN.GO p.idx) then
    (s.onLink p fun l => { l with margBad := l.margBad + 1 }).bumpF (Fld.LNK_MARGIN.ERRS p.idx)
  else
    let now := s.nowNs
    let span := 1000 * s.fld (Fld.LNK_ERRLIM.ERR_WINDOW p.idx)
    let s := s.onLink p fun l => { l with badTimes := (l.badTimes.filter fun t => decide (now < t + span)) ++ [now] }
    if (s.link p).badTimes.length ≥ s.fld (Fld.LNK_ERRLIM.ERR_LIMIT p.idx) then s.retrainCause p else s

/-- Honour `ACK`: that flit and every earlier one leave the replay buffer (R60, R62). -/
def LinkSt.honourAck (l : LinkSt) (a : BitVec 10) : LinkSt :=
  match l.buf.findIdx? fun f => f.seq == a with
  | some i =>
    { l with
      buf := l.buf.drop (i + 1), replays := 0,
      replayAt := (match l.replayAt with
        | some k => if k ≤ i + 1 then (if l.buf.length ≤ i + 1 then Option.none else some 0) else some (k - (i + 1))
        | none => Option.none),
      plnSeq := (match l.plnSeq with
        | some q => if (l.buf.take (i + 1)).any (fun f => f.seq == q) then Option.none else some q
        | none => Option.none) }
  | none => l

/-- A `REBUILD_CTL` answers one the hub has sent (R224). -/
def State.isAnswer (s : State) (m : Msg) : Bool :=
  s.mir.lastCtl.contains (bitsOf m 23 16, bitsOf m 90 64, m.getLsbD 91)

/-- Put the slots of a good, in-sequence payload flit into the receive crossing (R55). -/
def State.deliverFlit (s : State) (p : Port) (h : FlitHeader) (b : List Byte) : State :=
  let cmds := (List.range 3).flatMap fun k => slotCmds p s.isAnswer (slotAt h b k)
  { s with rx := s.rx ++ cmds.map (RxItem.cmd p) ++ [.flitEnd p] }

/-- What a good flit does besides its `ACK` and `NAK` (R61, R67). -/
def State.goodFlit (s : State) (p : Port) (h : FlitHeader) (b : List Byte) : State :=
  let l := s.link p
  if h.kind = 0 then
    let d := (h.seq - l.exp).toNat
    if d = 0 then
      (s.setLink p { l with exp := l.exp + 1, ackv := true, nakWait := false }).deliverFlit p h b
    else if d ≥ 512 then s
    else s.onLink p LinkSt.requestNak
  else if h.kind = 2 && b.getD 4 0 == 1 && !p.isT then { s with rx := s.rx ++ [.cmd p (.stillReq p)] }
  else s

/-- The twin's power-loss notice has come, in a message or in the header of a flit (R60, R207): it raises its cause once.
DEDUCED, log entry 39. -/
def State.twinPln (s : State) : State :=
  if s.twin.plnSeen then s else ({ s with twin := { s.twin with plnSeen := true } }).raiseCause 6

/-- Honour `ACK`, `NAK` and `PLN` of a good flit (R60, R61). In `RETRAIN` the replay that a `NAK` asks for is the one that follows
the retrain (R62). DEDUCED, log entry 39. -/
def State.honour (s : State) (p : Port) (h : FlitHeader) : State :=
  let s := if h.ackv then s.onLink p fun l => l.honourAck h.ack else s
  let s := if h.nak && (s.link p).lstate != .retrain then s.startReplay p else s
  if h.pln && p.isT && (s.link p).up then s.twinPln else s

/-- `FLIT_RECEIVED` (R57, R58, R60, R61): corrected first, checked second, then judged and honoured. DESIGN CHOICE, log entry 39. -/
def execFlitReceived (p : Port) (bytes : List Byte) (s : State) : Host.Outcome State Fault Refusal :=
  .next (
    match (s.link p).lstate with
    | .init | .service | .retrain =>
      let f := fecDecode bytes
      let s := s.bump (Reg.LNK_FECCORR p.idx) f.2
      let h := headerOf f.1
      if flitGood f.1 && h.kind != 3 then
        (s.goodFlit p h f.1).honour p h
      else s.badFlit p
    | _ => s)

/-- `NAK_TIMEOUT` (R61): one more NAK. -/
def execNakTimeout (p : Port) (s : State) : Host.Outcome State Fault Refusal :=
  .next (if (s.link p).nakWait then s.onLink p fun l => { l with nakOut := true } else s)

/-- `REPLAY_TIMEOUT` (R62). -/
def execReplayTimeout (p : Port) (s : State) : Host.Outcome State Fault Refusal :=
  .next (match (s.link p).lstate with
    | .init | .service => s.startReplay p
    | _ => s)

/-- `UNKNOWN_MESSAGE` (R79): discarded, counted, logged. -/
def execUnknownMessage (p : Port) (m : Msg) (s : State) : Host.Outcome State Fault Refusal :=
  .next (if ((s.link p).up || (s.link p).lstate == .init) && bitsOf m 7 0 != 0 then s.badMsg p 0x1051 else s)

/-! ### Credits on the wire (R104 to R108) -/

/-- One of each class a host request consumes (R78). -/
def opCost : HostOp → Credits
  | .read => { req := 1, rd := 1, lq := 1 }
  | .flush => { req := 1, lq := 1 }
  | _ => { req := 1, lq := 1, wd := 1 }

/-- One of each class a line of T consumes (R78). -/
def lineCost : Credits := { req := 1, lq := 1, wd := 1 }

/-- Credits cover a cost. -/
def Credits.covers (a b : Credits) : Bool :=
  b.req ≤ a.req && b.rd ≤ a.rd && b.lq ≤ a.lq && b.wd ≤ a.wd && b.mg ≤ a.mg && b.ev ≤ a.ev

/-- Spend credits. -/
def Credits.spend (a b : Credits) : Credits :=
  ⟨a.req - b.req, a.rd - b.rd, a.lq - b.lq, a.wd - b.wd, a.mg - b.mg, a.ev - b.ev⟩

/-- What an item consumes of the hub's grants (R78). -/
def itemCost : CreditedItem → Port → Credits
  | .request op _, _ => opCost op
  | .slot _, p => if p.isT then lineCost else {}
  | .mgt _, _ => { mg := 1 }
  | .repair _ _ _, _ => { req := 1, lq := 1 }

/-- An overrun (R108, R94): discarded, counted, logged; as a credited request it takes its place and ends.
DESIGN CHOICE, log entry 39. -/
def State.overrun (s : State) (p : Port) (credited : Bool) (tag : BitVec 12) : State :=
  let s := s.badMsg p 0x1050
  if credited then
    let n := (s.link p).nextReq
    let s := s.onLink p fun l => { l with nextReq := n + 1, adm := l.adm.push tag }
    s.finishReq p n
  else s

/-- The port takes messages and slots: its link is up, or it is in `INIT`, where no credit has been granted and every credited item is
an overrun (R104, R108). -/
def LinkSt.takes (l : LinkSt) : Bool := l.up || l.lstate == .init

/-- `OVERRUN`: an item for which the sender holds no credit. A data slot on a U-port consumes none of its own. -/
def execOverrun (p : Port) (item : CreditedItem) (s : State) : Host.Outcome State Fault Refusal :=
  .next (if (s.link p).takes && !(s.link p).granted.covers (itemCost item p) then
    match item with
    | .request _ r => s.overrun p true r.tag
    | .slot d => s.overrun p p.isT d.tag
    | .mgt _ => s.overrun p false 0
    | .repair t _ _ => s.overrun p true t
  else s)

/-- A `CREDIT` is malformed (R105): a second initial grant, or a count above the class's grant. -/
def badCredit (p : Port) (l : LinkSt) (m : CreditMsg) : Bool :=
  let g := shareOf p
  (m.init && l.gotCredit) || m.req.toNat > g.req || m.rd.toNat > g.rd || m.lq.toNat > g.lq || m.wd.toNat > g.wd ||
    m.mg.toNat > g.mg || (p.isT && m.ev != 0)

/-- The counts of a `CREDIT`. -/
def creditCounts (m : CreditMsg) : Credits :=
  ⟨m.req.toNat, m.rd.toNat, m.lq.toNat, m.wd.toNat, m.mg.toNat, m.ev.toNat⟩

/-- Send the event of the next entry of a U-port's reader, or pass an entry the port does not send (R92, R502). -/
def State.pumpEvent (s : State) (p : Port) : Option State :=
  match s.reader p.idx with
  | some pos =>
    match s.log.ring[pos]? with
    | some e =>
      if !(s.reg (Reg.LOG_EVMASK p.idx)).getLsbD (e.code.toNat >>> 12) || (e.summary && !s.feat p 9) then
        some (s.setReader p.idx (some (pos + 1)))
      else if (s.link p).mine.ev > 0 then
        let s := s.setReader p.idx (some (pos + 1))
        some (s.onLink p fun l => { l with mine := { l.mine with ev := l.mine.ev - 1 }, tx := l.tx ++ [.msg (mkEvent e)] })
      else Option.none
    | none => Option.none
  | none => Option.none

/-- Send what events can be sent. -/
def State.pumpEvents (p : Port) : Nat → State → State
  | 0, s => s
  | n + 1, s =>
    match s.pumpEvent p with
    | some s' => State.pumpEvents p n s'
    | Option.none => s

/-- Send the events a U-port in `SERVICE` has credit for, and free what every reader has passed. -/
def State.sendEvents (s : State) (p : Port) : State :=
  if (s.link p).lstate == .service then (State.pumpEvents p s.log.ring.length s).freeRing else s

/-- `CREDIT` (R105). -/
def execCredit (p : Port) (m : CreditMsg) (s : State) : Host.Outcome State Fault Refusal :=
  .next (if (s.link p).up || (s.link p).lstate == .init then
    let l := s.link p
    if badCredit p l m then s.freeEvent 0x1050
    else
      let c := creditCounts m
      let s := s.setLink p { l with gotCredit := true, mine := if m.init then c else l.mine.add c }
      s.sendEvents p
  else s)

/-- `CREDIT_SEND` (R106). -/
def execCreditSend (p : Port) (s : State) : Host.Outcome State Fault Refusal :=
  .next (if (s.link p).up then s.creditNow p else s)

/-! ### Sending flits (R45, R48 to R50, R59, R69) -/

/-- One step of PRBS31 (x^31 + x^28 + 1): the output bit and the next state. How the seed lies in the register, and that stage 31
is the output, the manual leaves open: the register shifts left, with the seed's bit 0 in stage 1. DESIGN CHOICE, log entry 39. -/
def prbsBit (x : BitVec 31) : Bool × BitVec 31 :=
  (x.getLsbD 30, (x <<< 1) ||| BitVec.ofNat 31 (bitOf (x.getLsbD 30 != x.getLsbD 27)))

/-- Eight bits of the sequence, least significant first, as the bytes of a lane are sent (R49). -/
def prbsByte (x : BitVec 31) : Byte × BitVec 31 :=
  (List.range 8).foldl (fun (a : Byte × BitVec 31) i =>
    let r := prbsBit a.2
    (a.1 ||| BitVec.ofNat 8 (bitOf r.1 <<< i), r.2)) (0, x)

/-- Scramble one lane's bytes (R49). -/
def scrambleLane : BitVec 31 → List Byte → List Byte × BitVec 31
  | x, [] => ([], x)
  | x, b :: r =>
    let k := prbsByte x
    let t := scrambleLane k.2 r
    ((b ^^^ k.1) :: t.1, t.2)

/-- The bytes of lane `k` of `w` (R49). -/
def laneBytes (w k : Nat) (b : List Byte) : List Byte :=
  (List.range (256 / w)).map fun j => b.getD (k + j * w) 0

/-- Put a flit on the lanes of the running width: its header is refreshed, its checks appended, its lanes scrambled (R49, R56, R57,
R60). What `ACK` holds while `ACKV` = 0 the manual leaves open; it is the number before the first one expected, 1,023.
DESIGN CHOICE, log entry 39. -/
def LinkSt.putFlit (l : LinkSt) (kind : BitVec 2) (map : BitVec 3) (pln replay : Bool) (seq : BitVec 10)
    (body : List Byte) : LinkSt :=
  let h : FlitHeader :=
    { kind := kind, slotMap := map, pln := pln || l.plnFlits > 0, replay := replay, ackv := l.ackv, seq := seq,
      ack := l.exp - 1, nak := l.nakOut }
  let f := flitSeal (headerBytes h ++ (body ++ List.replicate (240 - body.length) 0))
  let w := if l.width = 3 then l.scr.length else l.scr.length / 2
  let first := if l.width = 2 then w else 0
  let lanes := (List.range w).map fun k => scrambleLane (l.scr.getD (first + k) 0) (laneBytes w k f)
  { l with
    lastFlit := f, lanes := lanes.map (·.1), nakOut := false,
    scr := l.scr.take first ++ lanes.map (·.2) ++ l.scr.drop (first + w),
    plnFlits := if pln then 8 else l.plnFlits - 1, plnFirst := if pln then 8 else l.plnFirst - 1,
    sinceIdle := if kind = 1 then 0 else l.sinceIdle + 1 }

/-- What a message consumes of the credits the hub holds (R78). -/
def msgCost (m : Msg) : Credits :=
  match bitsOf m 7 0 with
  | 0x44 => { req := 1, lq := 1 }
  | 0x46 => { mg := 1 }
  | 0x47 => { mg := 1 }
  | _ => {}

/-- A flit being filled. `cur` is the open message slot; `owed` and `pools` are the credits and pool entries that what has gone
in returns and frees, `tags` the management tags answered. -/
structure Pack where
  slots   : List Slot := []
  cur     : List Msg := []
  sent    : List TxData := []
  owed    : Credits := {}
  pools   : List Nat := []
  tags    : List (BitVec 4) := []
  left    : List TxItem := []
  cred    : Credits
  full    : Bool := false
  blocked : Bool := false
  deriving DecidableEq, Repr

/-- Go on filling a flit of the transmit crossing, with the credits the hub holds. -/
def CrossFlit.fill (f : CrossFlit) (cred : Credits) : Pack := { slots := f.slots, cur := f.cur, cred := cred }

/-- The flit as it stands in the crossing. -/
def Pack.flit (k : Pack) : CrossFlit := { slots := k.slots, cur := k.cur }

/-- Close the open message slot. -/
def Pack.close (k : Pack) : Pack := if k.cur.isEmpty then k else { k with slots := k.slots ++ [.msgs k.cur], cur := [] }

/-- The slots of a flit of the crossing, its open message slot closed. -/
def CrossFlit.all (f : CrossFlit) : List Slot := if f.cur.isEmpty then f.slots else f.slots ++ [.msgs f.cur]

/-- Slots still free, beside the open message slot. -/
def Pack.room (k : Pack) : Nat := 3 - k.slots.length - bitOf (!k.cur.isEmpty)

/-- Put a message into the open message slot, or into a new one; none where the flit has no position for it. -/
def Pack.putMsg (k : Pack) (m : Msg) : Option Pack :=
  if k.cur.length < 5 && (!k.cur.isEmpty || k.room > 0) then some { k with cur := k.cur ++ [m] }
  else if k.room > 0 then some { k.close with cur := [m] }
  else Option.none

/-- What a message that goes into a flit returns: the MG credit and the tag of a `CPL_MGT` (R83, R104). -/
def Pack.noteMsg (k : Pack) (m : Msg) : Pack :=
  if bitsOf m 7 0 = 0x31 then { k with owed := k.owed.add { mg := 1 }, tags := k.tags ++ [m.extractLsb' 8 4] } else k

/-- Offer the next waiting item to the flit. Items keep their order, except that a message that consumes no credit
passes an item that waits for credit (R107). DESIGN CHOICE, log entry 39. -/
def Pack.offer (isT : Bool) (k : Pack) (x : TxItem) : Pack :=
  let keep := { k with left := k.left ++ [x] }
  if k.full then keep
  else
    match x with
    | .msg m =>
      let c := msgCost m
      if c != ({} : Credits) && (k.blocked || !k.cred.covers c) then { keep with blocked := true }
      else
        match k.putMsg m with
        | some k' => { k'.noteMsg m with cred := k.cred.spend c }
        | none => { keep with full := true }
    | .owing m c pool =>
      let cost := msgCost m
      if cost != ({} : Credits) && (k.blocked || !k.cred.covers cost) then { keep with blocked := true }
      else
        match k.putMsg m with
        | some k' => { k' with owed := k.owed.add c, pools := k.pools ++ pool.toList, cred := k.cred.spend cost }
        | none => { keep with full := true }
    | .data d =>
      let c : Credits := if isT then lineCost else {}
      if k.blocked || !k.cred.covers c then { keep with blocked := true }
      else
        let k' := match d.mask with
          | some m => if k.cur.length < 5 then { k with cur := k.cur ++ [m] } else { k.close with cur := [m] }
          | none => k
        if k'.slots.length + bitOf (!k'.cur.isEmpty) < 3 then
          { k'.close with slots := k'.close.slots ++ [.data d.slot], sent := k.sent ++ [d], cred := k.cred.spend c }
        else { keep with full := true }

/-- Flits that the transmit crossing of a port holds (R30). -/
def crossDepth (p : Port) : Nat := if p.isT then 16 else 8

/-- Put one item into the newest flit of the crossing that is still being filled, or into a new one; none where the crossing is
full (R30). -/
def LinkSt.crossPut (p : Port) (l : LinkSt) (x : TxItem) : Option LinkSt :=
  let fits (f : CrossFlit) : Option Pack :=
    let k := Pack.offer p.isT (f.fill l.mine) x
    if k.left.isEmpty then some k else Option.none
  match l.cross.getLast?.bind fits with
  | some k => some { l with cross := l.cross.dropLast ++ [k.flit], mine := k.cred }
  | none =>
    if l.cross.length < crossDepth p then (fits {}).map fun k => { l with cross := l.cross ++ [k.flit], mine := k.cred }
    else Option.none

/-- What the hand-over of a data slot to the transmit crossing frees (R34, R40). -/
def State.handedOver (s : State) (d : TxData) : State :=
  let s := match d.pool with
    | some i => s.freeEntry i
    | none => s
  match d.credit with
  | some p => s.owe p { wd := 1 }
  | none => s

/-- What has gone into a flit leaves the queue of its port, and what that frees is freed (R34, R40, R83, R104). -/
def State.packed (s : State) (p : Port) (k : Pack) : State :=
  let s := s.onLink p fun l => { l with tx := k.left, mine := k.cred, mtags := l.mtags.filter fun t => !k.tags.contains t }
  let s := k.sent.foldl State.handedOver s
  (k.pools.foldl State.freeEntry s).owe p k.owed

/-- What waits on a port, offered to a flit of its transmit crossing. -/
def LinkSt.pack (l : LinkSt) (p : Port) (f : CrossFlit) : Pack := l.tx.foldl (Pack.offer p.isT) (f.fill l.mine)

/-- A filled flit stands last in the transmit crossing. -/
def State.putCross (s : State) (p : Port) (before : List CrossFlit) (k : Pack) : State :=
  (s.onLink p fun l => { l with cross := before ++ [k.flit] }).packed p k

/-- Move what waits on a port into one flit of its transmit crossing, if anything goes in (R30). -/
def State.crossOne (s : State) (p : Port) : Option State :=
  let l := s.link p
  match (l.cross.getLast?.map (l.pack p)).filter fun k => decide (k.left.length < l.tx.length) with
  | some k => some (s.putCross p l.cross.dropLast k)
  | none =>
    let k := l.pack p {}
    if l.cross.length < crossDepth p && k.left.length < l.tx.length then some (s.putCross p l.cross k) else Option.none

/-- Fill the transmit crossing of a port. -/
def State.fillCross (p : Port) : Nat → State → State
  | 0, s => s
  | n + 1, s =>
    match s.crossOne p with
    | some s' => State.fillCross p n s'
    | Option.none => s

/-- Put a payload flit on the lanes and into the replay buffer (R59). -/
def LinkSt.sendFlit (l : LinkSt) (slots : List Slot) (notice : Bool) : LinkSt :=
  let l' := l.putFlit 0 (slotMapOf slots) notice false l.seq (slots.flatMap Slot.bytes)
  { l' with
    buf := l.buf ++ [⟨l.seq, slots, notice⟩], seq := l.seq + 1, plnSeq := if notice then some l.seq else l.plnSeq }

/-- Event 0x1041 for a wake: its data field holds the wake reason. For a resume by the controller alone the manual states no
reason, and the word is a free value. DESIGN CHOICE, log entry 39. -/
def State.wakeMsg (s : State) (l : LinkSt) : Msg × State :=
  let n := s.draw
  let r := n.2.draw
  (mkWake (match l.wake with
    | some w => BitVec.setWidth 32 w
    | none => Config.freeWord r.1) (Config.freeWord n.1) (tqHoldover s.quality) (s.nowNs % 2 ^ 32), r.2)

/-- Send a new payload flit, if anything can go into it and the replay buffer has room (R59, R68, R69). A power-loss notice and a
remote wake go ahead of everything in the crossing, in a flit of their own; what waits for the crossing goes with them only while
nothing in the crossing is ahead of it (R30, R187). -/
def State.sendPayload (s : State) (p : Port) : Option State :=
  let l := s.link p
  let inService := l.lstate == .service
  let notice := if inService then l.pln else Option.none
  let wake := inService && l.wakeDue
  if l.buf.length ≥ 128 || (l.buf.length ≥ 127 && notice.isNone) then Option.none
  else if notice.isSome || wake then
    let w := s.wakeMsg l
    let first := notice.toList ++ (if wake then [w.1] else [])
    let s := if wake then w.2 else s
    let k : Pack := if l.cross.isEmpty then l.tx.foldl (Pack.offer p.isT) { cur := first, cred := l.mine }
      else { cur := first, cred := l.mine, left := l.tx }
    let s := s.onLink p fun l => { l with pln := Option.none, wakeDue := false, wake := Option.none }
    some ((s.onLink p fun l => l.sendFlit k.flit.all notice.isSome).packed p k)
  else
    match l.cross with
    | [] => Option.none
    | f :: rest => some (s.setLink p ({ l with cross := rest }.sendFlit f.all false))

/-- An idle flit (R51). -/
def LinkSt.idleFlit (l : LinkSt) : LinkSt := l.putFlit 1 0 false false l.seq []

/-- Repeat flit `i` of the replay buffer (R61). -/
def LinkSt.replayFlit (l : LinkSt) (i : Nat) (f : TxFlit) : LinkSt :=
  let l := l.putFlit 0 (slotMapOf f.slots) false true f.seq (f.slots.flatMap Slot.bytes)
  { l with replayAt := if i + 1 < l.buf.length then some (i + 1) else Option.none }

/-- What a port in `INIT` or `SERVICE` sends at a flit boundary: a replayed flit, a payload flit, a link-control flit or
an idle flit, with an idle flit in every 2,048 in separate mode (R45, R67). -/
def State.nextFlit (s : State) (p : Port) : State :=
  let l := s.link p
  if s.flag (Fld.LNK_CFG.REFMODE p.idx) && l.sinceIdle ≥ 2047 then s.setLink p l.idleFlit
  else
    match l.replayAt.bind fun i => l.buf[i]?.map fun f => (i, f) with
    | some (i, f) => s.setLink p (l.replayFlit i f)
    | none =>
      match s.sendPayload p with
      | some s' => s'
      | Option.none =>
        match l.linkCtl with
        | some (c, r) => s.setLink p ({ l with linkCtl := Option.none }.putFlit 2 0 false false l.seq [c, r])
        | none => s.setLink p l.idleFlit

/-- What waits on a port moves into its transmit crossing as far as there is room (R30). -/
def State.cross (s : State) (p : Port) : State := State.fillCross p (s.link p).tx.length s

/-- `FLIT_TRANSMIT` (R48): the next flit of a port whose transmitter is on. After `STILL_ACK` come 8 idle flits (R67). In
`RETRAIN` a flit boundary comes once the electrical steps are complete; idle flits then carry `ACK`, and payload flits wait for the
replay that `SERVICE` begins with (R62, R64). DESIGN CHOICE, log entry 39. -/
def execFlitTransmit (p : Port) (s : State) : Host.Outcome State Fault Refusal :=
  .next (
    match (s.link p).lstate with
    | .init => (s.cross p).nextFlit p
    | .service => (((State.pumpLines s.mir.rbOut.length s).sendEvents p).cross p).nextFlit p
    | .retrain =>
      let s := s.cross p
      s.setLink p (s.link p).idleFlit
    | .still =>
      let l := s.link p
      match l.linkCtl with
      | some (c, r) => s.setLink p ({ l with linkCtl := Option.none }.putFlit 2 0 false false l.seq [c, r])
      | none => if l.stillOut > 0 then s.setLink p { l.idleFlit with stillOut := l.stillOut - 1 } else s
    | _ => s)

end Sys2Proof.Machine
end

