-- ==== Sys2Proof/Machine/Host.lean ====
section
/-!
DEFINITION. Requests on the line path: delivery and pairing (R80 to R84), the merge and Map (R32, R144 to R152, R567),
Order (R38, R120 to R137, R220, R226), Fork (R170 to R173) and Return (R85, R86, R130).
-/

namespace Sys2Proof.Machine

/-! ### Delivery (R80 to R84) -/

/-- A write opcode. -/
def isWriteOp : HostOp → Bool
  | .read | .flush => false
  | _ => true

/-- A masked write opcode. -/
def isMaskedOp : HostOp → Bool
  | .mwriteA | .mwriteD => true
  | _ => false

/-- A write that asks for a durable completion. -/
def isDurableOp : HostOp → Bool
  | .writeD | .mwriteD => true
  | _ => false

/-- The host request is malformed (R87). -/
def State.malformed (s : State) (p : Port) (op : HostOp) (r : HostReq) : Bool :=
  (!s.feat p 7 && r.stream.toNat ≥ 4096) || (isDurableOp op && r.acc && !s.feat p 6) ||
    (isMaskedOp op && !s.feat p 0) || (op == .flush && !s.feat p 2)

/-- The reject reason that a delivery outside `SERVICE` fixes (R84): `FENCED`, `NOT_SERVING` or none.
DESIGN CHOICE, log entry 40. -/
def State.verdict (s : State) : Byte :=
  if s.top.state == .service then 0
  else if s.top.state == .join && s.mir.pstate == .fenced then 6
  else 8

/-- Reject at Intake a request that stands in the lane queue: its LQ credit returns at once (R81, R82, R104). -/
def State.intakeReject (s : State) (p : Port) (q : LaneReq) (reason : Byte) : State :=
  let s := s.onLink p fun l => { l with lane := l.lane.filter fun x => x.reqNo != q.reqNo }
  let s := (s.finishReq p q.reqNo).owe p { lq := 1 }
  match q.kind with
  | .host op => s.rejectHost p op q.tag reason
  | _ => s

/-- The `FORM` that a write's data slot must have (R81). -/
def formFor (op : HostOp) : BitVec 3 := if isMaskedOp op then 1 else 0

/-- A data slot agrees with its message (R81). -/
def slotAgrees (op : HostOp) (r : BitVec 16) (d : DataSlot) : Bool := d.form == formFor op && d.stream == r

/-- A new credited request takes its place on the port (R94). -/
def State.placeReq (s : State) (p : Port) (cost : Credits) (tag : BitVec 12) : State :=
  s.onLink p fun l => { l with
    granted := l.granted.spend cost, nextReq := l.nextReq + 1, adm := l.adm.push tag }

/-- A request with an outstanding tag (R83): discarded without completion, its credits returned. -/
def State.duplicateTag (s : State) (p : Port) (cost : Credits) (tag : BitVec 12) : State :=
  let n := (s.link p).nextReq
  ((s.placeReq p cost tag).badMsg p 0x1052).owe p cost |>.finishReq p n

/-- Deliver a host request on a U-port (R80 to R84, R94, R108). A write takes the first data slot of its tag that waits; any further
one goes on waiting for a message of its own (R81). -/
def State.deliverHost (s : State) (p : Port) (op : HostOp) (r : HostReq) : State :=
  let l := s.link p
  if p.isT || !l.takes then s
  else if !l.granted.covers (opCost op) then s.overrun p true r.tag
  else if l.tags.contains r.tag then s.duplicateTag p (opCost op) r.tag
  else
    let half := l.halves.find? fun h => h.tag == r.tag && h.slot.isSome
    let q : LaneReq :=
      { kind := .host op, tag := r.tag, acc := r.acc, stream := r.stream, addr := r.addr, reqNo := l.nextReq,
        verdict := s.verdict }
    let s := s.placeReq p (opCost op) r.tag
    let s := s.onLink p fun l => { l with
      tags := l.tags ++ [r.tag],
      halves := if isWriteOp op then (half.toList.foldl List.erase l.halves).filter fun h => !(h.tag == r.tag && h.drop) else l.halves,
      lane := l.lane ++ [{ q with slot := if isWriteOp op then half.bind (·.slot) else Option.none }] }
    if s.malformed p op r then
      let s := s.intakeReject p q 3
      if isWriteOp op && half.isNone then
        s.onLink p fun l => { l with halves := l.halves ++ [{ tag := r.tag, drop := true }] }
      else s
    else
      match (if isWriteOp op then half.bind (·.slot) else Option.none) with
      | some d => if slotAgrees op r.stream d then s else s.intakeReject p q 2
      | none => s

/-- `READ` (R80). -/
def execRead (p : Port) (r : HostReq) (s : State) : Host.Outcome State Fault Refusal := .next (s.deliverHost p .read r)
/-- `WRITE_A` (R80, R81). -/
def execWriteA (p : Port) (r : HostReq) (s : State) : Host.Outcome State Fault Refusal := .next (s.deliverHost p .writeA r)
/-- `WRITE_D`. -/
def execWriteD (p : Port) (r : HostReq) (s : State) : Host.Outcome State Fault Refusal := .next (s.deliverHost p .writeD r)
/-- `MWRITE_A`. -/
def execMwriteA (p : Port) (r : HostReq) (s : State) : Host.Outcome State Fault Refusal := .next (s.deliverHost p .mwriteA r)
/-- `MWRITE_D`. -/
def execMwriteD (p : Port) (r : HostReq) (s : State) : Host.Outcome State Fault Refusal := .next (s.deliverHost p .mwriteD r)
/-- `FLUSH`. -/
def execFlush (p : Port) (r : HostReq) (s : State) : Host.Outcome State Fault Refusal := .next (s.deliverHost p .flush r)

/-- `DUPLICATE_TAG` (R83): a credited request whose tag is outstanding. -/
def execDuplicateTag (p : Port) (op : HostOp) (r : HostReq) (s : State) : Host.Outcome State Fault Refusal :=
  .next (if (s.link p).tags.contains r.tag && (s.link p).granted.covers (opCost op) then s.deliverHost p op r else s)

/-- A malformed data slot (R53). On T its credits return at once. -/
def State.malformedSlot (s : State) (p : Port) (d : DataSlot) : State :=
  let s := (s.bump (Reg.LNK_BADSLOT p.idx)).event 0x1057 (p.idx + (d.form.toNat <<< 4) + (d.tag.toNat <<< 8))
  if p.isT then
    let n := (s.link p).nextReq
    ((s.placeReq p lineCost d.tag).owe p lineCost).finishReq p n
  else
    match (s.link p).lane.find? fun q => q.tag == d.tag && q.slot.isNone &&
        (match q.kind with | .host op => isWriteOp op | _ => false) with
    | some q => s.intakeReject p q 2
    | none => s

/-- Count a slot delivered with `POISON` = 1 (R336). -/
def State.notePoison (s : State) (p : Port) (d : DataSlot) : State :=
  if d.poison then (if p.isT then s.bumpF Fld.ECC_POISONIN.TWIN else s.bumpF Fld.ECC_POISONIN.HOST) else s

/-- `HOST_DATA_SLOT` (R53, R81, R82): paired with its message by `TAG`, or left to wait. -/
def execHostDataSlot (p : Port) (d : DataSlot) (s : State) : Host.Outcome State Fault Refusal :=
  .next (
    let l := s.link p
    if p.isT || !l.up then s
    else
      let s := s.notePoison p d
      if d.form.toNat ≥ 2 then s.malformedSlot p d
      else if l.halves.any fun h => h.tag == d.tag && h.drop then
        s.onLink p fun l => { l with halves := l.halves.filter fun h => !(h.tag == d.tag && h.drop) }
      else
        match l.lane.find? fun q => q.tag == d.tag && q.slot.isNone &&
            (match q.kind with | .host op => isWriteOp op | _ => false) with
        | some q =>
          match q.kind with
          | .host op =>
            if slotAgrees op q.stream d then
              s.onLink p fun l => { l with lane := l.lane.map fun x => if x.reqNo == q.reqNo then { x with slot := some d } else x }
            else s.intakeReject p q 2
          | _ => s
        | none => s.onLink p fun l => { l with halves := l.halves ++ [{ tag := d.tag, slot := some d }] })

/-- A rebuild line of an open granule is rejected (R225). -/
def State.noteRefused (s : State) (gran : Nat) : State :=
  { s with mir := { s.mir with filters := s.mir.filters.map fun f => if f.gran == gran then { f with rejected := true } else f } }

/-- Reject a line of T (R97, R99, R104): `REPLICA_REJ`, its WD credit at once, its REQ credit when the message enters a flit. After
a trigger a line is neither admitted nor rejected (R186). -/
def State.rejectLine (s : State) (q : LaneReq) (form : BitVec 3) (reason : Byte) : State :=
  if s.top.trigger.isSome then s
  else
    let s := if q.kind == .rebuild then s.noteRefused (q.addr.toNat >>> 15) else s
    let s := s.finishReq .t q.reqNo
    let s := if q.kind == .replica then { s with twin := { s.twin with thr := s.twin.thr.finish (q.repNo - 1) } } else s
    (s.sendOwing .t (mkRej 0x43 q.tag form reason s.mir.epoch q.addr) { req := 1 } Option.none).owe .t { wd := 1 }

/-- A lane request is complete: its data slot, or its mask, has come. -/
def LaneReq.ready (q : LaneReq) : Bool :=
  match q.kind with
  | .host op => !isWriteOp op || q.slot.isSome
  | .replica => (match q.slot with | some d => !slotMasked d || q.mask.isSome | none => true)
  | _ => true

/-- The window of a request in a lane has passed without its partner (R81, R96). -/
def State.expireReq (s : State) (p : Port) (q : LaneReq) : State :=
  match q.kind with
  | .host _ => s.intakeReject p q 4
  | _ =>
    let s := s.onLink p fun l => { l with lane := l.lane.filter fun x => x.reqNo != q.reqNo }
    (s.owe p { lq := 1 }).rejectLine q 3 4

/-- The window of a waiting half has passed: a data slot is counted and logged, a mask or the mark of a rejected message just
goes (R81, R82). A mask that no replica claims the manual gives no count. DESIGN CHOICE, log entry 40. -/
def State.expireHalf (s : State) (p : Port) (h : Half) : State :=
  let s := s.onLink p fun l => { l with halves := l.halves.erase h }
  if h.slot.isSome && !h.drop then (s.bump (Reg.LNK_BADSLOT p.idx)).freeEvent 0x1053 else s

/-- The window of R81 has passed without a partner for a half with this tag. DESIGN CHOICE, log entry 40. -/
def State.windowExpired (s : State) (p : Port) (tag : BitVec 12) : State :=
  match (s.link p).lane.find? fun q => q.tag == tag && !q.ready with
  | some q => s.expireReq p q
  | none =>
    match (s.link p).halves.find? fun h => h.tag == tag with
    | some h => s.expireHalf p h
    | none => s

/-- `PAIRING_WINDOW_EXPIRED` (R81, R96). -/
def execPairingWindowExpired (p : Port) (tag : BitVec 12) (s : State) : Host.Outcome State Fault Refusal :=
  .next (if (s.link p).up then s.windowExpired p tag else s)

/-- A payload flit has ended on a port: every half has seen one more, and those that have seen 8 beyond their own lose
their window (R81). -/
def State.flitEnded (s : State) (p : Port) : State :=
  let s := s.onLink p fun l => { l with
    lane := l.lane.map fun q => { q with age := q.age + 1 }, halves := l.halves.map fun h => { h with age := h.age + 1 } }
  let l := s.link p
  let s := (l.lane.filter fun q => decide (q.age ≥ 9) && !q.ready).foldl (fun s q => s.expireReq p q) s
  (l.halves.filter fun h => decide (h.age ≥ 9)).foldl (fun s h => s.expireHalf p h) s

/-! ### The merge, Seal and Map (R27, R32, R144 to R152, R567) -/

/-- The lanes in the order in which R32 offers them the positions of this core cycle. -/
def State.laneOrder (s : State) : List Port := .t :: (List.range 4).map fun k => Port.ofU ((s.ord.ptr + k) % 4)

/-- The next lane to be granted a position in this core cycle, if any (R32, R33). -/
def State.nextLane (s : State) : Option Port :=
  if s.ord.granted.length ≥ 4 then Option.none
  else
    let from' := match s.ord.granted.getLast? with
      | some p => s.laneOrder.dropWhile (· != p)
      | none => s.laneOrder
    from'.find? fun p =>
      decide ((s.ord.granted.filter (· == p)).length < 2) && (!p.isT || s.top.trigger.isNone) &&
        (match (s.link p).lane with | q :: _ => q.ready | [] => false)

/-- The seal an arriving data slot must carry (R320): its stream is part of it, but for repair and rebuild lines, and of a masked
write or replica it covers the masked form of the new bytes. -/
def LaneReq.sealOf (q : LaneReq) (d : DataSlot) : Word :=
  let line := match q.kind with
    | .host op => if isMaskedOp op then maskedForm d.line d.ext else d.line
    | .replica => if slotMasked d then maskedForm d.line (q.mask.getD 0) else d.line
    | _ => d.line
  lineSeal line q.addr.toNat false (match q.kind with
    | .rebuild | .repair => 0
    | _ => d.stream)

/-- Seal (R27): the line seal of an arriving data slot is checked (hand-off 0x1, R318, R329), and a mismatch poisons the line. -/
def State.sealStage (s : State) (p : Port) (q : LaneReq) : State × LaneReq :=
  match q.slot with
  | some d =>
    if d.poison || d.lseal == q.sealOf d then (s, q)
    else (s.sealFail 1 p.idx false (q.addr.toNat >>> 24), { q with slot := some { d with poison := true } })
  | none => (s, q)

/-- What the entry code does at a lookup of a region (R149): an entry that fails has its reload asked for. -/
def State.lookup (s : State) (region : Nat) (found : EntryCheck) : State :=
  if s.rtFailed region then s
  else
    match found with
    | .ok => s
    | .corrected => s.bumpF Fld.MAP_RTERR.CORR
    | .uncorrectable =>
      let s := (s.bumpF Fld.MAP_RTERR.UNCORR).freeEvent 0x3010
      let s := s.deferTurn region
      ({ s with map := { s.map with failed := s.map.failed ++ [region] } }).reserveAsk (0x10000 + 4 * region)

/-- A forwarded read is allowed (R151). -/
def State.canForward (s : State) : Bool :=
  (s.link .t).lstate == .service && s.feat .t 17 &&
    (match s.mir.pstate with
      | .paired | .rebuildSrc | .rebuildDst => true
      | _ => false)

/-- The table of R151 with R567. -/
def State.mapEntry (s : State) (op : HostOp) (w : Word) : MapOut :=
  if op == .read then
    match rtRole w, rtSync w with
    | 1, 5 => if s.canForward then .forward else .reject 5
    | 1, _ => .locally false
    | _, 0 => .locally false
    | _, _ => if s.canForward then .forward else .reject 5
  else if rtRole w != 1 || rtHandover w then .reject 5
  else
    match rtSync w with
    | 0 | 3 =>
      let noMask := isMaskedOp op && !s.feat .t 16 &&
        (match (s.link .t).lstate with | .service | .retrain => true | _ => false)
      if noMask then .reject 5 else .locally true
    | 1 => .locally false
    | _ => .reject 5

/-- Checks 1 to 3 of R150. -/
def State.mapGate (s : State) (p : Port) (q : LaneReq) : Option Byte :=
  if q.verdict == 6 || s.pairState == .fenced then some 6
  else if q.verdict == 8 || s.top.state != .service then some 8
  else if (s.fld Fld.GLB_QUIESCE.PORTS).testBit p.idx then some 7
  else Option.none

/-- What Map decides for a host request, after its lookup (R150, R151). -/
def State.mapHost (s : State) (p : Port) (op : HostOp) (q : LaneReq) : MapOut :=
  match s.mapGate p q with
  | some r => .reject r
  | none =>
    if op == .flush then .flush
    else
      let region := q.addr.toNat >>> 24
      if s.rtFailed region then .reject 5
      else if rtRole (s.rtLook region) == 0 then .reject 1
      else s.mapEntry op (s.rtLook region)

/-- What Map decides for a line from T (R152). A `REPAIR_REQ` is rejected with a `MISS` code (R100). -/
def State.mapTwin (s : State) (q : LaneReq) : MapOut :=
  let region := q.addr.toNat >>> 24
  let w := s.rtLook region
  let failed := s.rtFailed region
  match q.kind with
  | .repairReq =>
    if q.epoch != some s.mir.epoch then .reject 3
    else if failed || rtRole w == 0 then .reject 4
    else
      match rtSync w with
      | 2 | 4 | 5 => .reject 2
      | _ => if s.marked (granOf (rtLocal w * 2 ^ 24 + q.addr.toNat % 2 ^ 24)) then .reject 2 else .locally false
  | k =>
    if q.epoch != some s.mir.epoch then .reject 9
    else if failed then .reject 5
    else if rtRole w == 0 then .reject 1
    else if rtSync w == 5 then .reject 5
    else
      match k with
      | .repair => .locally false
      | .rebuild => if rtRole w == 2 && (rtSync w == 3 || rtSync w == 4) then .locally false else .reject 5
      | _ => if rtRole w == 2 then .locally false else .reject 5

/-- The local line address Map forms (R145). -/
def State.localAddr (s : State) (addr : BitVec 42) : Nat :=
  rtLocal (s.rtEntry (addr.toNat >>> 24)) * 2 ^ 24 + addr.toNat % 2 ^ 24

/-- Count a rejection at Map (R169). -/
def State.countRej (s : State) (reason : Byte) : State :=
  if reason = 1 then s.bumpF Fld.MAP_REJ.UNMAPPED
  else if reason = 5 then s.bumpF Fld.MAP_REJ.UNAVAIL
  else s

/-- `FORM` of a line of T. -/
def LaneReq.form (q : LaneReq) : BitVec 3 := match q.slot with | some d => d.form | none => 3

/-- A request past Map with a place at Order: it carries the outcome of its lookup (R148). -/
def State.passMap (s : State) (p : Port) (q : LaneReq) (out : MapOut) : State :=
  let w := s.rtLook (q.addr.toNat >>> 24)
  let m : Mapped :=
    { lane := p, req := q, out := out, addr := s.localAddr q.addr, tracked := rtRole w == 1 && rtSync w == 1, sync := rtSync w }
  { s with ord := { s.ord with mapped := s.ord.mapped ++ [m] } }

/-- Reject at Map (R84, R97, R99, R100, R104, R169). The manual names requests and lines rejected with REGION_UNAVAILABLE or
UNMAPPED as what `MAP_REJ` counts: a `REPAIR_REQ`, which is answered with a `MISS` code, is not counted. DEDUCED, log entry 40. -/
def State.turnAway (s : State) (p : Port) (q : LaneReq) (reason : Byte) : State :=
  match q.kind with
  | .host op => ((s.countRej reason).finishReq p q.reqNo).rejectHost p op q.tag reason
  | .repairReq => (s.finishReq p q.reqNo).sendOwing p (mkRej 0x45 q.tag 0 reason s.mir.epoch q.addr) { req := 1 } Option.none
  | _ => (s.countRej reason).rejectLine q q.form reason

/-- A request that Map rejects is rejected now, or once no older request of its lane waits at Order (R82). -/
def State.mapReject (s : State) (p : Port) (q : LaneReq) (reason : Byte) : State :=
  if s.ord.mapped.any fun m => m.lane == p then s.passMap p q (.reject reason) else s.turnAway p q reason

/-- A repair line at Map (R152, R189, R190, R362): its data goes to the reads that wait whatever outcome Map gives, and it goes on
to Order only if it answers a read-repair, Map admits it and no younger write has reached the line. DESIGN CHOICE, log entry 40. -/
def State.mapRepair (s : State) (q : LaneReq) (d : DataSlot) : State :=
  let t := q.tag.toNat
  let waiting := !s.tagFree t && !s.mir.repStale.contains t
  let isRepair := (s.onTag t).any (fun i => match s.entry i with | some e => e.repair | none => false) ||
    s.mir.scrubRep.any fun r => r.tag == t
  let super := s.mir.repSuper.contains t
  let out := s.mapTwin q
  let s := if waiting then s.repairArrives t d.line d.poison
    else if s.mir.repStale.contains t then s.freeStale t
    else s
  match out with
  | .reject r => s.mapReject .t q r
  | _ =>
    if waiting && isRepair && !super then s.passMap .t q out
    else
      let s := if waiting && isRepair then s.bumpF Fld.ECC_REPAIRW.SUPERSEDED else s
      (s.finishReq .t q.reqNo).owe .t { req := 1, wd := 1 }

/-- Map makes its lookup for a request that carries an address; on T the epoch check comes first (R149, R150, R152). -/
def State.lookupFor (s : State) (q : LaneReq) (found : EntryCheck) : State :=
  match q.kind with
  | .host op => if op == .flush then s else s.lookup (q.addr.toNat >>> 24) found
  | _ => if q.epoch == some s.mir.epoch then s.lookup (q.addr.toNat >>> 24) found else s

/-- Map one request taken from a lane. -/
def State.mapOne (s : State) (p : Port) (q : LaneReq) (found : EntryCheck) : State :=
  let s := s.lookupFor q found
  match q.kind with
  | .host op =>
    match s.mapHost p op q with
    | .reject r => s.mapReject p q r
    | out => s.passMap p q out
  | .repair =>
    match q.slot with
    | some d => s.mapRepair q d
    | none => s
  | _ =>
    match s.mapTwin q with
    | .reject r => s.mapReject p q r
    | out => s.passMap p q out

/-- `MERGE_POSITION` (R27, R32, R33, R104, R149 to R152): a lane head is granted a position and passes Seal and Map. `found` is what
the entry code finds at its lookup. -/
def execMergePosition (found : EntryCheck) (s : State) : Host.Outcome State Fault Refusal :=
  .next (
    match s.nextLane with
    | none => s
    | some p =>
      match (s.link p).lane with
      | [] => s
      | q :: rest =>
        let s := s.onLink p fun l => { l with lane := rest }
        let s := { s with ord := { s.ord with granted := s.ord.granted ++ [p] } }
        let t := (s.owe p { lq := 1 }).sealStage p q
        t.1.mapOne p t.2 found)

/-- `REGION_ENTRY_RELOADED` (R149, R161): the reserve read of the entry's shadow line has ended; `readable` tells that a copy met no more
bit errors than the code corrects. The entry is reloaded from what the copies hold, with the changes that fell due; or with neither copy
readable it stays failed until the next load. -/
def execRegionEntryReloaded (region : BitVec 18) (readable : Bool) (s : State) : Host.Outcome State Fault Refusal :=
  .next (
    let r := region.toNat
    let off := 0x10000 + 4 * r
    if s.map.failed.contains r && !s.readStands off then
      let due := s.map.due.filter fun c => c.1 == r
      let found := if readable then s.peekReserve off else none
      let s := { s with map := { s.map with
        failed := s.map.failed.filter (· != r), due := s.map.due.filter fun c => c.1 != r } }
      match found with
      | some l =>
        let w := l.extractLsb' (32 * (r % 16)) 32
        let s := { s with map := { s.map with rt := Tab.set (fun _ => 0) s.map.rt r w } }
        due.foldl (fun s c => s.setRt r ((s.rtEntry r &&& ~~~c.2.1) ||| c.2.2)) s
      | none => ({ s with map := { s.map with lost := s.map.lost ++ [r] } }).freeEvent 0x3011
    else s)

/-! ### Order (R38, R120 to R137) -/

/-- A write of `addr` has been admitted: repairs of the line asked for earlier are superseded, and so will be those that reads admitted
before it, or scrub reads probed before it, ask for yet (R362). -/
def State.noteWrite (s : State) (addr : Nat) : State :=
  let tags := s.mir.repairs.filterMap fun q =>
    match q.2.bind s.entry with
    | some e => if e.addr == addr then some q.1 else Option.none
    | none => Option.none
  let tags := tags ++ (s.mir.scrubRep.filter fun r => r.addr == addr).map (·.tag)
  let s := s.mapPool fun e => if e.addr == addr then { e with superseded := true } else e
  { s with
    sch := s.sch.map fun (q : Nat × SubCh) => (q.1, { q.2 with
      corr := q.2.corr.map fun x => if x.addr == addr then { x with late := true } else x }),
    mir := { s.mir with repSuper := s.mir.repSuper ++ tags },
    ord := { s.ord with mapped := s.ord.mapped.map fun m =>
      if m.req.kind == .repair && m.addr == addr then { m with waiting := true } else m } }

/-- The 12-bit folded stream (R115). -/
def foldStream (x : BitVec 16) : BitVec 16 := (x ^^^ (x >>> 12)) &&& 0x0FFF

/-- Enter a pool entry in admission order. -/
def State.enterPool (s : State) (e : PoolEntry) : State × Nat :=
  let i := firstFree 0 s.ord.pool
  let s := s.setEntry i (some { e with adm := s.ord.admNext, bornAt := s.time.elapsed })
  (({ s with ord := { s.ord with admNext := s.ord.admNext + 1 } }).notePool, i)

/-- The write buffer line of an admitted data slot, with its seal as computed (R330). DESIGN CHOICE, log entry 42. -/
def PoolEntry.takeLine (e : PoolEntry) (d : DataSlot) (masked : Bool) : PoolEntry :=
  let line := if masked then maskedForm d.line e.mask else d.line
  { e with hasLine := true, line := line, lseal := e.sealOf line, poison := d.poison, merging := masked }

/-- Give a forked write its fork number (R125). -/
def State.giveFork (s : State) (i : Nat) (sid : Nat) (pair : BitVec 42) : State :=
  let n := s.ord.forkNext
  let s := s.onEntry i fun e => { e with forkNo := n, fork := .backlog }
  let s := s.setStream sid { s.stream sid with lastFork := n }
  { s with ord := { s.ord with forkNext := n + 1, forks := s.ord.forks ++ [⟨n, pair, false⟩], backlog := s.ord.backlog ++ [i] } }

/-- The completions a host write is given at admission (R86, R127, R130, R183): answers whether a durable one is
still owed. -/
def State.acceptWrite (s : State) (i : Nat) (p : Port) (op : HostOp) (q : LaneReq) (poison : Bool) (sid : Nat) : State :=
  let kind : BitVec 3 := if poison then 3 else 1
  if !isDurableOp op then s.complete false p q.tag kind false true Option.none
  else if !s.holdup then s.complete false p q.tag kind (!poison) true Option.none
  else
    let s := if q.acc then s.complete false p q.tag 1 false false Option.none else s
    let now := s.basisHolds q.addr false
    let s := s.onEntry i fun e => { e with owes := true, durable := now }
    if now && (s.stream sid).len = 0 then
      (s.onEntry i fun e => { e with done := true }).complete false p q.tag (if poison then 3 else 2) false true (some i)
    else s.joinStream sid i

/-- Admit a host write (R38, R125, R127, R130, R134, R220). -/
def State.admitWrite (s : State) (m : Mapped) (op : HostOp) (d : DataSlot) (forked : Bool) : State :=
  let q := m.req
  let s := if m.tracked then s.mark (granOf m.addr) else s
  let s := s.noteWrite m.addr
  let held := forked && s.mir.pstate == .paired
  let e : PoolEntry :=
    { kind := if isMaskedOp op then .masked else .write, port := m.lane, tag := q.tag, stream := q.stream, acc := q.acc,
      pair := q.addr, addr := m.addr, mask := d.ext, tracked := m.tracked, wdHeld := held }
  let e := e.takeLine d (isMaskedOp op)
  let a := s.enterPool e
  let s := if held then a.1 else a.1.owe m.lane { wd := 1 }
  let s := if forked then s.giveFork a.2 q.stream.toNat q.addr else s
  let s := s.acceptWrite a.2 m.lane op q d.poison q.stream.toNat
  (s.startWrite a.2 forked).settle

/-- Admit a read (R133, R189). -/
def State.admitRead (s : State) (m : Mapped) (fwd : Bool) : State :=
  let q := m.req
  let e : PoolEntry :=
    { kind := .read, port := m.lane, tag := q.tag, stream := q.stream, pair := q.addr, addr := m.addr, forwarded := fwd }
  let a := ({ s with ord := { s.ord with retRes := s.ord.retRes + 1 } }).enterPool e
  if fwd then a.1.giveTag a.2
  else
    let r := a.1.lookForLine a.2
    if r.2 then r.1.toSchedule a.2 else r.1

/-- Admit a flush (R127, R136). -/
def State.admitFlush (s : State) (m : Mapped) : State :=
  let q := m.req
  let sid := q.stream.toNat
  let e : PoolEntry :=
    { kind := .flush, port := m.lane, tag := q.tag, stream := q.stream, owes := true, mark := (s.stream sid).lastFork }
  let a := s.enterPool e
  let s := a.1.joinStream sid a.2
  State.buildStream sid (s.stream sid).len s

/-- The destination's filter (R226): whether a line of T is admitted but not written, with the filter updated. -/
def State.filterLine (s : State) (m : Mapped) : State × Bool :=
  let q := m.req
  let gran := q.addr.toNat >>> 15
  let line := q.addr.toNat % 2 ^ 15
  let filling := m.sync == 4
  match s.mir.filters.find? fun g => g.gran == gran with
  | some g =>
    if q.kind == .replica then
      ({ s with mir := { s.mir with filters := s.mir.filters.map fun x =>
        if x.gran == gran && !x.lines.contains line then { x with lines := x.lines ++ [line] } else x } }, false)
    else (s, q.kind == .rebuild && g.lines.contains line)
  | none => (s, q.kind == .replica && filling && !s.mir.opened.contains gran)

/-- Admit a line of T (R152, R175, R187, R226, R332): its WD credit returns, a replica counts toward `THROUGH`. -/
def State.admitLine (s : State) (m : Mapped) (d : DataSlot) : State :=
  let q := m.req
  let s := (s.finishReq .t q.reqNo).owe .t { wd := 1 }
  let s := if q.kind == .replica then
      let s := s.bump Reg.MIR_REPLADM
      let s := { s with twin := { s.twin with thr := s.twin.thr.finish (q.repNo - 1) } }
      if s.feat .t 20 then s else { s with twin := { s.twin with ackTags := s.twin.ackTags ++ [q.tag] } }
    else if q.kind == .rebuild then s.bump Reg.MIR_RBLINES
    else s
  let f := s.filterLine m
  if f.2 then (f.1.bump Reg.MIR_FILTERED).owe .t { req := 1 }
  else if q.kind == .repair && m.waiting then (f.1.bumpF Fld.ECC_REPAIRW.SUPERSEDED).owe .t { req := 1 }
  else
    let s := if q.kind == .repair then f.1 else f.1.noteWrite m.addr
    let masked := q.kind == .replica && slotMasked d
    let e : PoolEntry :=
      { kind := match q.kind with
          | .rebuild => .rebuild
          | .repair => .repair
          | _ => if masked then .mreplica else .replica,
        port := .t, tag := q.tag, stream := d.stream, pair := q.addr, addr := m.addr, mask := q.mask.getD 0, heldElse := true }
    let a := s.enterPool (e.takeLine d masked)
    (a.1.startWrite a.2 false).watchPace

/-- Admit a `REPAIR_REQ` as a read of the local copy (R189). -/
def State.admitRepairReq (s : State) (m : Mapped) : State :=
  let q := m.req
  let e : PoolEntry := { kind := .repairRead, port := .t, tag := q.tag, pair := q.addr, addr := m.addr }
  let a := s.enterPool e
  let r := a.1.lookForLine a.2
  if r.2 then r.1.toSchedule a.2 else r.1

/-- Admit one request. -/
def State.admitReq (s : State) (m : Mapped) : State :=
  match m.req.kind, m.out with
  | .host op, .locally forked =>
    let s := s.finishReq m.lane m.req.reqNo
    if op == .read then s.admitRead m false
    else
      match m.req.slot with
      | some d => s.admitWrite m op d forked
      | none => s
  | .host _, .forward => (s.finishReq m.lane m.req.reqNo).admitRead m true
  | .host _, .flush => (s.finishReq m.lane m.req.reqNo).admitFlush m
  | .repairReq, _ => (s.finishReq .t m.req.reqNo).admitRepairReq m
  | _, _ =>
    match m.req.slot with
    | some d => s.admitLine m d
    | none => s

/-- The request is a host write to a primary `TRACKED` region, which marks its granule when it is admitted (R219). -/
def Mapped.marks (m : Mapped) : Bool :=
  m.tracked && match m.req.kind with
    | .host _ => true
    | _ => false

/-- A request must wait at Order: a write that is to mark its granule, to a `TRACKED` region whose bitmap line is not held (R220), with
its bitmap write's agent entries (R36); or a want of buffers (R35). A repair line marks nothing (R219). -/
def State.mustWait (s : State) (m : Mapped) : Bool :=
  let isWrite := match m.req.kind, m.out with
    | .host op, _ => isWriteOp op
    | .repairReq, _ => false
    | _, _ => true
  let isRead := m.req.kind == .host .read
  let g := granOf m.addr
  (m.marks && isWrite && (!s.mir.cache.contains (g / 512) || (!s.marked g && !(s.ord.agentQ.isEmpty && decide (2 ≤ s.agentRoom))))) ||
    s.poolOcc ≥ 8192 || (isWrite && s.wbOcc ≥ 8192) || (isRead && s.ord.retRes ≥ 4096)

/-- The index of the first request at Order that no older request of its lane holds back (R82). -/
def firstOpen : Nat → List Port → List Mapped → (Mapped → Bool) → Option (Nat × Mapped)
  | _, _, [], _ => Option.none
  | n, held, m :: r, stuck =>
    if held.contains m.lane then firstOpen (n + 1) held r stuck
    else if stuck m then firstOpen (n + 1) (m.lane :: held) r stuck
    else some (n, m)

/-- A request whose wait needs no further note: it has been counted, or it is a repair line, which uses `waiting` as its superseded
flag and waits for no bitmap line. -/
def Mapped.counted (m : Mapped) : Bool := m.waiting || m.req.kind == .repair

/-- The reason with which Map has rejected a request that waits for the older ones of its lane. -/
def Mapped.turned (m : Mapped) : Option Byte :=
  match m.out with
  | .reject r => some r
  | _ => Option.none

/-- Reject what Map has rejected and no older request of its lane holds back any longer (R82). -/
def State.rejectReady : Nat → State → State
  | 0, s => s
  | n + 1, s =>
    match firstOpen 0 [] s.ord.mapped fun m => m.turned.isNone with
    | some (k, m) =>
      State.rejectReady n
        (({ s with ord := { s.ord with mapped := s.ord.mapped.eraseIdx k } }).turnAway m.lane m.req (m.turned.getD 0))
    | none => s

/-- `ORDER_ADMIT` (R29, R38, R39, R82, R120, R153, R220, R565): the first request that may be admitted is, four in a core cycle, no host
request ahead of the reserve writes of the start; a write that has to begin a wait for its bitmap line is counted in `MIR_DIVMISS`
first, and the line is asked for. -/
def execOrderAdmit (s : State) : Host.Outcome State Fault Refusal :=
  .next (
    if s.top.trigger.isSome || s.ord.admits ≥ 4 then s
    else
      let first := s.ord.agentQ.any (·.start)
      match firstOpen 0 [] s.ord.mapped fun m => m.turned.isSome || (m.counted && s.mustWait m) || (first && !m.lane.isT) with
      | some (n, m) =>
        if s.mustWait m then
          let s := { s with ord := { s.ord with mapped := s.ord.mapped.modify n fun m => { m with waiting := true } } }
          let k := granOf m.addr / 512
          if s.mir.cache.contains k || !m.marks then s else (s.bump Reg.MIR_DIVMISS).reserveAsk (0x110000 + 64 * k)
        else
          let s := { s with ord := { s.ord with mapped := s.ord.mapped.eraseIdx n, admits := s.ord.admits + 1 } }
          let s := s.admitReq m
          State.rejectReady s.ord.mapped.length s
      | none => s)

/-- `BITMAP_LINE_FILL` (R220): the read of a bitmap line from the reserve has ended, and the line is in the cache. -/
def execBitmapLineFill (bitmapLine : BitVec 15) (s : State) : Host.Outcome State Fault Refusal :=
  .next (if s.readStands (0x110000 + 64 * bitmapLine.toNat) then s else s.cacheLine bitmapLine.toNat)

/-! ### Fork (R170 to R174, R179) -/

/-- Pair states in which Fork sends replicas (R170). -/
def PairState.mirrors : PairState → Bool
  | .paired | .rebuildSrc | .rebuildDst => true
  | _ => false

/-- An unresolved pending-ack entry is open (R179). -/
def State.unresolved (s : State) : Bool :=
  s.mir.pend.any fun q => match q.2 with
    | some e => e.state == .unresolved
    | none => false

/-- The next replica may enter the T transmit queue (R34, R126, R172, R179). -/
def State.canFork (s : State) : Bool :=
  s.mir.pstate.mirrors && (s.link .t).up && !s.unresolved &&
    (Tab.get (fun _ => (Option.none : Option PendEntry)) s.mir.pend ((s.twin.txCount + 1) % 4096)).isNone &&
    decide ((s.link .t).txData.length < 192)

/-- The replica data slot of a write (R171, R320, R330): verified at hand-off 0x2. -/
def State.replicaOf (s : State) (e : PoolEntry) (rnum : Nat) (masked : Bool) (poison : Bool) : DataSlot :=
  let st := if s.feat .t 7 then e.stream else foldStream e.stream
  let sl := lineSeal (if masked then maskedForm e.line e.mask else e.line) e.pair.toNat false st
  { line := e.line, lseal := if poison then ~~~sl else sl, tag := BitVec.ofNat 12 rnum, form := 3, poison := poison,
    stream := st, ext := BitVec.ofNat 64 (e.pair.toNat + (bitOf masked <<< 42)) }

/-- The write at the head of the backlog may be sent (R567): a masked replica needs `MASKED_REPLICA` on T. -/
def State.maskOk (s : State) (e : PoolEntry) : Bool := e.kind != .masked || s.feat .t 16

/-- `FORK_REPLICA` (R170 to R174): the head of the fork backlog goes to the twin and to Schedule. A masked write sends its new bytes
under its own mask, whether or not its merge has been made here (R27, R96). -/
def execForkReplica (s : State) : Host.Outcome State Fault Refusal :=
  .next (
    match s.ord.backlog with
    | [] => s
    | i :: rest =>
      let s := if s.underShare then s.pumpLine.getD s else s
      if !s.canFork then s
      else
        match s.entry i with
        | none => { s with ord := { s.ord with backlog := rest } }
        | some e =>
          if !s.maskOk e then s else
          let s := s.beatFirst
          let bad := !e.poison && !e.sealGood
          let s := if bad then s.sealFail 2 e.laneCode false e.regionCode else s
          let poison := e.poison || bad
          let rnum := s.twin.txCount + 1
          let masked := e.kind == .masked
          let d := s.replicaOf e rnum masked poison
          let credit := if e.wdHeld then some e.port else Option.none
          let en : PendEntry :=
            { state := .sent, rnum := rnum, fork := e.forkNo, pool := if e.owes then some i else Option.none, pair := e.pair,
              gran := granOf e.addr, opened := s.nowNs % 2 ^ 32 }
          let s := { s with
            ord := { s.ord with backlog := rest }, twin := { s.twin with txCount := rnum },
            mir := { s.mir with
              pend := Tab.set (fun _ => Option.none) s.mir.pend (rnum % 4096) (some en) } }
          let s := ((s.noteTaken false).bump Reg.MIR_REPLSENT).noteHigh Fld.MIR_PENDOCC.HIGH s.mir.pend.length
          let s := s.onLink .t fun l => { l with tx := l.tx ++ [.data
            { slot := d, mask := if masked then some (mkMask d.tag e.mask) else Option.none, credit := credit }] }
          let s := (s.onEntry i fun e => { e with fork := .sent, poison := poison, heldElse := !poison, wdHeld := false }).toSchedule i
          State.pumpLines s.mir.rbOut.length s)

/-- No replica may be sent for the write at the head of the backlog (R170): the pair state does not mirror, T is down, or T has come up
without `MASKED_REPLICA` while a masked write waited (R567), which is then a write that Fork cannot send. DEDUCED, log entry 49. -/
def State.unsendable (s : State) (i : Nat) : Bool :=
  !s.mir.pstate.mirrors || (s.link .t).lstate == .down || ((s.link .t).up && (match s.entry i with
    | some e => !s.maskOk e
    | none => false))

/-- `FORK_NOT_SENT` (R170, R179, R219): the head of the backlog reaches Fork where no replica may be sent. The write has no replica
number: its unresolved entry takes the first free index with `RNUM` 0, and with the table full it has none and its write-data credit
returns at once. DESIGN CHOICE, log entry 49. -/
def execForkNotSent (s : State) : Host.Outcome State Fault Refusal :=
  .next (
    match s.ord.backlog with
    | [] => s
    | i :: rest =>
      if !s.unsendable i then s
      else
        match s.entry i with
        | none => { s with ord := { s.ord with backlog := rest } }
        | some e =>
          let s := ({ s with ord := { s.ord with backlog := rest } }).mark (granOf e.addr)
          let k := firstFree 0 s.mir.pend
          let host := if e.wdHeld then some e.port else Option.none
          let s := if s.mir.pstate == .solo || k ≥ 4096 then
              match host with
              | some p => s.owe p { wd := 1 }
              | none => s
            else
              let en : PendEntry :=
                { state := .unresolved, rnum := 0, fork := e.forkNo, pool := if e.owes then some i else Option.none,
                  pair := e.pair, gran := granOf e.addr, opened := s.nowNs % 2 ^ 32, credit := host }
              ({ s with mir := { s.mir with pend := Tab.set (fun _ => Option.none) s.mir.pend k (some en) } }).noteHigh
                Fld.MIR_PENDOCC.HIGH (s.mir.pend.length + 1)
          (s.onEntry i fun e => { e with fork := .notSent, wdHeld := false }).toSchedule i)

/-! ### Return (R34, R85, R86, R104, R130, R540) -/

/-- `DRAINED` follows once no request admitted from a quiesced port still waits for its final completion (R540). -/
def State.checkDrained (s : State) : State :=
  let ports := s.fld Fld.GLB_QUIESCE.PORTS
  if ports = 0 || s.flag Fld.GLB_QUIESCE.DRAINED then s
  else if s.ord.pool.any fun (q : Nat × Option PoolEntry) => match q.2 with
      | some e => !e.port.isT && decide (q.1 < 8192) && ports.testBit e.port.idx && !e.done &&
          decide (e.adm < s.ord.qMark) && (e.kind == .read || e.kind == .flush || e.owes)
      | none => false then s
  else ((s.setFld Fld.GLB_QUIESCE.DRAINED 1).setFld Fld.GLB_EVENT.DRAINED 1).event 0x0003 ports

/-- The records that share one `CPL` with the first item: up to three ready in the same core cycle (R85). -/
def packWith (p : Port) (built : Nat) (k : Nat) : List RetItem → List RetItem × List RetItem
  | [] => ([], [])
  | it :: r =>
    match it.body with
    | .record _ _ _ _ _ =>
      if k > 0 && it.port == p && it.built == built then
        let t := packWith p built (k - 1) r
        (it :: t.1, t.2)
      else
        let t := packWith p built (if it.port == p then 0 else k) r
        (t.1, it :: t.2)
    | .data _ =>
      let t := packWith p built k r
      (t.1, it :: t.2)

/-- What an item of Return frees when it enters a flit (R34, R83, R104). -/
def State.entered (s : State) (it : RetItem) : State :=
  let dropTag (s : State) (t : BitVec 12) : State := s.onLink it.port fun l => { l with tags := l.tags.erase t }
  let credit : Credits := { req := bitOf it.freeReq, rd := bitOf it.freeRd, wd := bitOf it.freeWd }
  let s := if it.line then { s with ord := { s.ord with retRes := s.ord.retRes - 1 } } else s
  match it.body with
  | .data d =>
    let s := dropTag (if d.poison then s.bumpF Fld.ECC_POISONOUT.DATA else s) d.tag
    let s := match it.pool with
      | some i => s.freeEntry i
      | none => s
    s.owe it.port credit
  | .record tag kind _ _ final =>
    let s := if kind = 3 then s.bumpF Fld.ECC_POISONOUT.CPL else s
    let s := if final then dropTag s tag else s
    let s := match it.pool with
      | some i =>
        match s.entry i with
        | some e =>
          if e.kind == ReqKind.read || e.kind == ReqKind.flush then s.freeEntry i
          else if final then (s.onEntry i fun e => { e with owes := false }).tryFree i
          else s
        | none => s
      | none => s
    s.owe it.port credit

/-- What `COMPLETION_SEND` puts into a flit: the item, the parts of Return it takes, and what Return keeps. -/
def State.nextReturn (s : State) (p : Port) (it : RetItem) : TxItem × List RetItem × List RetItem :=
  match it.body with
  | .data d => (.data { slot := d }, [it], s.ord.ret.erase it)
  | .record _ _ _ _ _ =>
    let t := packWith p it.built 3 s.ord.ret
    let recs := t.1.filterMap fun x => match x.body with
      | .record tag kind nodur reason _ => some (cplRecord tag kind nodur reason)
      | .data _ => Option.none
    (.msg (mkCpl recs), t.1, t.2)

/-- `COMPLETION_SEND` (R30, R34, R85, R86, R130): the next read data or completion of a U-port enters a flit of its transmit
crossing. While the crossing is full Return holds it. -/
def execCompletionSend (p : Port) (s : State) : Host.Outcome State Fault Refusal :=
  .next (
    let l := s.link p
    if p.isT || !(l.lstate == .service || l.lstate == .retrain) then s
    else
      match s.ord.ret.find? fun it => it.port == p with
      | none => s
      | some it =>
        let n := s.nextReturn p it
        match l.crossPut p n.1 with
        | some l' =>
          let s := { (s.setLink p l') with ord := { s.ord with ret := n.2.2 } }
          (n.2.1.foldl State.entered s).checkDrained
        | none => s)

end Sys2Proof.Machine
end

