-- ==== Sys2Proof/Machine/Mirror.lean ====
section
/-!
DEFINITION. The mirror agent (R96 to R103, R152, R171 to R236): lines of T, acknowledgements, membership, handover,
solo grants, fencing, settling in `JOIN`, and rebuild.
-/

namespace Sys2Proof.Machine

/-! ### Lines delivered on T (R52, R53, R96, R97, R108, R152, R174) -/

/-- A `POISON` slot, or any other, takes its place in T's lane. -/
def State.laneLine (s : State) (kind : LaneKind) (d : DataSlot) (mask : Option (BitVec 64)) : State :=
  let l := s.link .t
  let rep := if kind == .replica then s.twin.rxCount + 1 else 0
  let s := (s.placeReq .t lineCost d.tag).notePoison .t d
  let s := if kind == .replica then
      { s with twin := { s.twin with rxCount := rep, thr := s.twin.thr.push d.tag } }
    else s
  let q : LaneReq :=
    { kind := kind, tag := d.tag, stream := d.stream, addr := slotAddr d, slot := some d, mask := mask,
      epoch := s.twin.peerEpoch, reqNo := l.nextReq, repNo := rep }
  s.onLink .t fun l => { l with lane := l.lane ++ [q] }

/-- Deliver a data slot of T as a line of the given kind; `FORM` and credit come first, so a replica slot discarded as an overrun takes
no replica number. DESIGN CHOICE, log entry 40. -/
def State.deliverLine (s : State) (kind : LaneKind) (form : Nat) (d : DataSlot) : State :=
  let l := s.link .t
  if !l.takes then s
  else if !l.granted.covers lineCost then s.overrun .t true d.tag
  else if d.form.toNat != form then s.malformedSlot .t d
  else if kind == .replica && slotMasked d then
    if !s.feat .t 16 then
      let n := l.nextReq
      let s := s.laneLine kind d Option.none
      match (s.link .t).lane.find? fun q => q.reqNo == n with
      | some q =>
        let s := s.onLink .t fun l => { l with lane := l.lane.filter fun x => x.reqNo != n }
        (s.owe .t { lq := 1 }).rejectLine q 3 2
      | none => s
    else
      let half := l.halves.find? fun h => h.tag == d.tag && h.mask.isSome
      let s := s.onLink .t fun l => { l with halves := l.halves.filter fun h => !(h.tag == d.tag && h.mask.isSome) }
      s.laneLine kind d (half.bind (·.mask))
  else s.laneLine kind d Option.none

/-- `REPLICA_SLOT` (R97, R152, R187). -/
def execReplicaSlot (d : DataSlot) (s : State) : Host.Outcome State Fault Refusal := .next (s.deliverLine .replica 3 d)

/-- `REBUILD_LINE_SLOT` (R152, R226). -/
def execRebuildLineSlot (d : DataSlot) (s : State) : Host.Outcome State Fault Refusal :=
  .next (s.deliverLine .rebuild 5 d)

/-- `REPAIR_LINE_SLOT` (R100, R152, R362). -/
def execRepairLineSlot (d : DataSlot) (s : State) : Host.Outcome State Fault Refusal := .next (s.deliverLine .repair 4 d)

/-- A message that names a feature not agreed is unknown (R79). -/
def State.ifFeat (s : State) (n : Nat) (f : State) : State := if s.feat .t n then f else s.badMsg .t 0x1051

/-- `MASK` (R96): paired with its masked replica by `TAG`, or left to wait for it. -/
def execMask (tag : BitVec 12) (byteMask : BitVec 64) (s : State) : Host.Outcome State Fault Refusal :=
  .next (
    if !(s.link .t).up then s
    else s.ifFeat 16 (
      match (s.link .t).lane.find? fun q => q.kind == .replica && q.tag == tag && q.mask.isNone &&
          (match q.slot with | some d => slotMasked d | none => false) with
      | some q => s.onLink .t fun l => { l with lane := l.lane.map fun x =>
          if x.reqNo == q.reqNo then { x with mask := some byteMask } else x }
      | none => s.onLink .t fun l => { l with halves := l.halves ++ [{ tag := tag, mask := some byteMask }] }))

/-- `REPAIR_REQ` (R100, R189): a credited request of T's lane, served as a read. -/
def execRepairReq (tag : BitVec 12) (epoch : Word) (addr : BitVec 42) (s : State) : Host.Outcome State Fault Refusal :=
  .next (
    let l := s.link .t
    let cost : Credits := { req := 1, lq := 1 }
    if !l.up then (if l.lstate == .init then s.overrun .t true tag else s)
    else s.ifFeat 17 (
      if !l.granted.covers cost then s.overrun .t true tag
      else
        let q : LaneReq := { kind := .repairReq, tag := tag, addr := addr, epoch := some epoch, reqNo := l.nextReq }
        (s.placeReq .t cost tag).onLink .t fun l => { l with lane := l.lane ++ [q] }))

/-! ### Handover progress (R192) -/

/-- A write with fork number `f` or less has an open entry or waits in the backlog. The step's trigger names only the open entries; a
write of the backlog opens its own when it is sent (R173), so the drain waits for it as well. DESIGN CHOICE, log entry 41. -/
def State.openUpTo (s : State) (f : Nat) : Bool :=
  (s.mir.pend.any fun q => match q.2 with
    | some e => decide (0 < e.fork) && decide (e.fork ≤ f)
    | none => false) ||
  s.ord.backlog.any fun i => match s.entry i with
    | some e => decide (e.forkNo ≤ f)
    | none => false

/-- Step 4: every handover of P whose drain is complete makes P a replica and sends drained; the request is then
answered, which returns its MG credit. -/
def State.pumpHandovers (s : State) : State :=
  s.mir.handovers.foldl (fun s h =>
    match h.boundary with
    | some f =>
      if h.atP && !h.drainedSent && s.top.trigger.isNone && !s.openUpTo f then
        let w := s.rtEntry h.region
        let s := s.setRt h.region (rtPut w 2 (rtSync w) false)
        let hs : List Handover := s.mir.handovers.map fun x => if x.region == h.region then { x with drainedSent := true } else x
        (({ s with mir := { s.mir with handovers := hs } }).sendOwing .t (mkHandover h.mtag 2 s.mir.epoch h.region) { mg := 1 } Option.none)
      else s
    | none => s) s

/-! ### Acknowledgements (R174 to R178) -/

/-- Close the sent entries a test selects: their writes are acknowledged (R176). -/
def State.closeSent (s : State) (f : PendEntry → Bool) : State :=
  let hit : List PendEntry := s.mir.pend.filterMap fun q => match q.2 with
    | some e => if e.state == PendState.sent && f e then some e else Option.none
    | none => Option.none
  let s := { s with mir := { s.mir with pend := s.mir.pend.filter fun q => match q.2 with
    | some e => !(e.state == PendState.sent && f e)
    | none => true } }
  let forks : List ForkRec := s.ord.forks.map fun r => if hit.any (fun e => e.fork == r.no) then { r with acked := true } else r
  let s := { s with ord := { s.ord with forks := forks } }
  let s := hit.foldl (fun s e => match e.pool with
    | some i => s.onEntry i fun e => { e with acked := true }
    | none => s) s
  s.settle.pumpHandovers

/-- An inconsistent acknowledgement (R176): counted, event 0x4021, cause 0x4. -/
def State.ackBad (s : State) (data : Nat) : State := ((s.bump Reg.MIR_ACKBAD).event 0x4021 data).raiseCause 4

/-- `a` lies behind `b`, modulo 2^32. -/
def behind (a b : Nat) : Bool := (a + 2 ^ 32 - b % 2 ^ 32) % 2 ^ 32 ≥ 2 ^ 31

/-- `ACK_RANGE` (R97, R174, R176). -/
def execAckRange (epoch through : Word) (s : State) : Host.Outcome State Fault Refusal :=
  .next (
    if !(s.link .t).up then s
    else s.ifFeat 20 (
      let t := through.toNat
      if epoch != s.mir.epoch then s.bump Reg.MIR_ACKBAD
      else if behind t s.twin.lastThr || behind s.twin.txCount t then s.ackBad t
      else
        ({ s with twin := { s.twin with lastThr := t } }).closeSent fun e => !behind t e.rnum))

/-- The sent entry at a tag (R172). -/
def State.sentAt (s : State) (tag : BitVec 12) : Option PendEntry :=
  match Tab.get (fun _ => (Option.none : Option PendEntry)) s.mir.pend tag.toNat with
  | some e => if e.state == .sent then some e else Option.none
  | none => Option.none

/-- `ACK_LINES` (R98, R176): a tag with no sent entry makes the whole message inconsistent. -/
def execAckLines (tags : List (BitVec 12)) (s : State) : Host.Outcome State Fault Refusal :=
  .next (
    if !(s.link .t).up then s
    else if tags.isEmpty || tags.length > 9 then s.badMsg .t 0x1051
    else
      match tags.find? fun t => (s.sentAt t).isNone with
      | some t => s.ackBad t.toNat
      | none => s.closeSent fun e => tags.any fun t => e.rnum % 4096 == t.toNat)

/-- `REPLICA_REJ` (R79, R99, R174, R176, R177): one with an undefined `FORM` or `REASON` is unknown; a rejected replica closes its
entry, marks its granule and raises cause 0x3; a rejected repair line is counted; a rejected rebuild line has its granule copied
again (R225). -/
def execReplicaRej (tag : BitVec 12) (form : BitVec 3) (reason : Byte) (epoch : Word) (addr : BitVec 42) (s : State) :
    Host.Outcome State Fault Refusal :=
  .next (
    if !(s.link .t).up then s
    else if form.toNat < 3 || form.toNat > 5 || reason = 0 || reason.toNat > 9 then s.badMsg .t 0x1051
    else if epoch != s.mir.epoch then s.bump Reg.MIR_ACKBAD
    else
      match form.toNat with
      | 3 =>
        match s.sentAt tag with
        | some e =>
          if e.pair == addr then
            let s := { s with mir := { s.mir with pend := Tab.set (fun _ => Option.none) s.mir.pend tag.toNat Option.none } }
            let s := (s.mark e.gran).bump Reg.MIR_REPLREJ
            ((s.event 0x4020 (reason.toNat + ((addr.toNat >>> 24) <<< 8))).raiseCause 3).pumpHandovers
          else s.ackBad tag.toNat
        | none => s.ackBad tag.toNat
      | 4 => s.bumpF Fld.ECC_REPAIRW.REJECTED
      | 5 =>
        let cs : List GranCopy := s.mir.copies.map fun c =>
          if c.gran == addr.toNat >>> 15 then { c with rejected := true } else c
        { s with mir := { s.mir with copies := cs } }
      | _ => s)

/-- `ACK_INTERVAL_EXPIRY` (R175, R97): mirror revision 2. -/
def execAckIntervalExpiry (s : State) : Host.Outcome State Fault Refusal :=
  .next (if (s.link .t).up && s.feat .t 20 && s.twin.thr.base != s.twin.thrSent then
    ({ s with twin := { s.twin with thrSent := s.twin.thr.base } }).send .t (mkAckRange s.mir.epoch s.twin.thr.base)
  else s)

/-- `ACK_LINES_SEND` (R98, R115): mirror revision 1, up to nine tags. -/
def execAckLinesSend (s : State) : Host.Outcome State Fault Refusal :=
  .next (if (s.link .t).up && !s.feat .t 20 && !s.twin.ackTags.isEmpty then
    ({ s with twin := { s.twin with ackTags := s.twin.ackTags.drop 9 } }).send .t (mkAckLines (s.twin.ackTags.take 9))
  else s)

/-- The oldest sent entry: the one of the lowest replica number. -/
def State.oldestSent (s : State) : Option PendEntry :=
  s.mir.pend.foldl (fun b q => match q.2 with
    | some e =>
      if e.state == PendState.sent then (match b with | some (x : PendEntry) => if e.rnum < x.rnum then some e else b | none => some e)
      else b
    | none => b) Option.none

/-- `ACK_TIMEOUT` (R178). DESIGN CHOICE, log entry 5. -/
def execAckTimeout (s : State) : Host.Outcome State Fault Refusal :=
  .next (match s.oldestSent with
    | some e => (s.event 0x4022 (e.rnum % 2 ^ 32)).raiseCause 5
    | none => s)

/-! ### Fencing (R214, R215) -/

/-- Complete every owed durable completion and waiting flush of one stream as rejected with `FENCED`, in list order. -/
def State.rejectStream (reason : Byte) (sid : Nat) : Nat → State → State
  | 0, s => s
  | n + 1, s =>
    let r := s.stream sid
    if r.len = 0 then s
    else
      match s.entry r.head with
      | some e =>
        let s := (s.leaveStream sid).onEntry r.head fun e => { e with done := true }
        let s := s.toReturn e.orphan
          { port := e.port, body := .record e.tag 4 false reason true, built := s.time.cycle, pool := some r.head }
        State.rejectStream reason sid n s
      | none => s

/-- Host requests past Map and not yet admitted are refused with the same reason, but those that Map has rejected with its own, which
`MAP_REJ` counts (R169). -/
def State.rejectMapped (s : State) (reason : Byte) : State :=
  let host := s.ord.mapped.filter fun m => match m.req.kind with | .host _ => true | _ => false
  let rest := s.ord.mapped.filter fun m => match m.req.kind with | .host _ => false | _ => true
  host.foldl (fun s m => match m.req.kind with
    | .host op =>
      let s := match m.turned with | some r => s.countRej r | none => s
      (s.finishReq m.lane m.req.reqNo).rejectHost m.lane op m.req.tag (m.turned.getD reason)
    | _ => s) { s with ord := { s.ord with mapped := rest } }

/-- Fencing (R215), in one core cycle. `epoch` is the fencing epoch. A fenced hub and a hub at epoch 0 are unchanged
(R214); a power-loss trigger outranks a fence (R25). Forked writes that were not durable stay so, and the frontier does not pass them
(R126, R180). DESIGN CHOICE, log entry 41. -/
def State.fence (s : State) (epoch : Word) : State :=
  if s.mir.epoch == 0 || s.mir.pstate == .fenced || s.top.trigger.isSome || s.outranked 6 then s
  else
    match s.top.state with
    | .join | .service =>
      let s := s.abandonAll.endSession
      let s := { s with mir := { s.mir with soloGrant := false, soloConv := false, soloEnd := false, formatDue := false } }
      let s := s.setPair .fenced
      let s := s.closePend.dropBacklog false
      let s := s.ord.streams.foldl (fun s p => State.rejectStream 6 p.1 p.2.len s) s
      let s := s.rejectMapped 6
      let s := s.clearCause.event 0x4012 epoch.toNat
      if s.top.state == .service then s.goTo .join 0x0A else s
    | _ => s

/-- Fencing at a greater epoch; of a hub still unsettled in `JOIN` it is a settlement too, and logged as one (R215, R217, R230). -/
def State.fenceSettled (s : State) (epoch : Word) : State :=
  let t := s.fence epoch
  if s.top.state == .join && s.mir.pstate == .none && t.mir.pstate == .fenced then t.event 0x4014 5 else t

/-! ### Leaving JOIN (R21, R23) -/

/-- Leave `JOIN` for `SERVICE` with the links that R21 asks for, in `PAIRED` T among them; without them the hub waits in `JOIN`. -/
def State.serve (s : State) : State :=
  if s.top.state == .join && s.joinLinked && (s.mir.pstate != .paired || (s.link .t).up) && !s.outranked 7 then
    s.goTo .service 0x09
  else s

/-! ### Heartbeats and causes (R205 to R207) -/

/-- Step 4 of a solo grant once its conditions are met (R25, R212): `SOLO`, event 0x4011, `JOIN` to `SERVICE`, and formatting
starts or resumes (R213); with no region mapped it is over at once. A resumed format counts for event 0x4054 the regions formatted
since it resumed, as the pair record keeps no count. DESIGN CHOICE, log entry 41. -/
def State.pumpSolo (s : State) : State :=
  if s.mir.soloGrant && s.mir.soloConv && s.mir.soloEnd && s.top.trigger.isNone && !s.outranked 6 then
    let fmt := s.mir.formatDue || s.mir.rbMode == 3
    let none' := s.mappedRegions.isEmpty
    let start := if s.mir.formatDue then s.mappedRegions.headD 0 else s.mir.rbRegion
    let s := s.endSession
    let s := if fmt && !none' then
        { s with mir := { s.mir with
          rb := .formatting, rbMode := 3, rbRegion := start, fmtNext := 0, fmtDone := 0, formatDue := false,
          share := s.fld Fld.MIR_RBCFG.SHARE } }
      else s
    let s := s.enterSolo.event 0x4011 s.mir.epoch.toNat
    (if fmt && none' then ({ s with mir := { s.mir with formatDue := false } }).event 0x4054 0 else s).serve
  else s

/-- `HEARTBEAT` (R206, R212, R214, R217, R230): a fence comes before step 4 of a grant, which it makes moot. -/
def execHeartbeat (pstate : BitVec 3) (epoch _sent _stamp : Word) (s : State) : Host.Outcome State Fault Refusal :=
  .next (
    if !(s.link .t).up then s
    else if pstate.toNat > 5 then s.badMsg .t 0x1051
    else
      let s := { s with twin := { s.twin with peerEpoch := some epoch, peerState := pstate.toNat } }
      if s.mir.epoch == 0 then s
      else
        let s := if s.mir.soloGrant && pstate == 5 && decide (epoch.toNat ≤ s.mir.epoch.toNat) then
            ({ s with mir := { s.mir with soloEnd := true } }).pumpSolo
          else s
        if epoch.toNat > s.mir.epoch.toNat then
          s.fenceSettled epoch
        else if epoch.toNat < s.mir.epoch.toNat then s.bump Reg.MIR_HBBAD
        else if (s.mir.pstate == .paired || s.mir.pstate == .rebuildDst) && (pstate == 2 || pstate == 5) then s.raiseCause 7
        else s)

/-- `HEARTBEAT_SEND` (R205). -/
def execHeartbeatSend (s : State) : Host.Outcome State Fault Refusal := .next s.heartbeat

/-- `HEARTBEAT_MISS` (R207). DESIGN CHOICE, log entry 5. -/
def execHeartbeatMiss (s : State) : Host.Outcome State Fault Refusal := .next (s.raiseCause 2)

/-- `PLN_ON_T` (R77, R79, R93, R207): one with `TRIG` 0b00, a value R93 does not define, is unknown. -/
def execPlnOnT (flags : Byte) (_admitCnt : Word) (_lastTag : BitVec 12) (_stamp : Word) (s : State) :
    Host.Outcome State Fault Refusal :=
  .next (if !(s.link .t).up then s
    else if flags.extractLsb' 2 2 = 0 then s.badMsg .t 0x1051
    else s.twinPln)

/-! ### Handover (R191 to R196) -/

/-- A mirror-control message arrives: it consumes an MG credit, or is an overrun (R78, R108). DESIGN CHOICE, log entry 41. -/
def State.takeMg (s : State) (f : State → State) : State :=
  let l := s.link .t
  if !l.takes then s
  else if l.granted.mg = 0 then s.overrun .t false 0
  else
    let s := s.setLink .t { l with granted := { l.granted with mg := l.granted.mg - 1 } }
    f s

/-- A `REBUILD_CTL` of feature 19 with a field in the defined range (`ok`), or an unknown message, which consumes no credit (R79). -/
def State.takeKnown (s : State) (ok : Bool) (f : State → State) : State :=
  if (s.link .t).takes && !(ok && s.feat .t 19) then s.badMsg .t 0x1051 else s.takeMg f

/-- A handover is in progress for a region. -/
def State.handoverOf (s : State) (region : Nat) : Option Handover := s.mir.handovers.find? fun h => h.region == region

/-- Step 1 at Q (R192): `HANDOVER` set and the request sent. DESIGN CHOICE, log entry 41. -/
def State.startHandover (s : State) (region : Nat) (mtag : BitVec 4) : State :=
  let w := s.rtEntry region
  let s := s.setRt region (rtPut w (rtRole w) (rtSync w) true)
  let s := { s with mir := { s.mir with handovers := s.mir.handovers ++ [({ region := region, atP := false, mtag := mtag } : Handover)] } }
  s.send .t (mkHandover mtag 1 s.mir.epoch region)

/-- Answer a `HANDOVER` with the next step: its MG credit returns when the answer is sent (R104, R192). -/
def State.answerHandover (s : State) (m : HandoverMsg) (step : Nat) : State :=
  s.sendOwing .t (mkHandover m.mtag step s.mir.epoch m.region.toNat) { mg := 1 } Option.none

/-- `HANDOVER_REQUEST` (R192 step 2, R193): a request refused at once begins no handover, and leaves one in progress as it is. -/
def execHandoverRequest (m : HandoverMsg) (s : State) : Host.Outcome State Fault Refusal :=
  .next (s.takeMg fun s =>
    let r := m.region.toNat
    let w := s.rtEntry r
    let calm := !s.rtFailed r && (rtSync w == 0 || rtSync w == 5) && !rtHandover w
    if s.top.trigger.isSome then s
    else if calm && rtRole w == 1 && s.mir.handovers.length < 16 then
      let s := s.setRt r (rtPut w 1 (rtSync w) true)
      { s with mir := { s.mir with handovers := s.mir.handovers ++ [({ region := r, atP := true, mtag := m.mtag } : Handover)] } }
    else if calm && rtRole w == 2 then
      (s.event 0x4033 r).answerHandover m 2
    else s.answerHandover m 4)

/-- `HANDOVER_FORK_MARK` (R192 step 3): P notes F. -/
def execHandoverForkMark (region : BitVec 18) (s : State) : Host.Outcome State Fault Refusal :=
  .next (
    let f := s.ord.forkNext - 1
    let hs : List Handover := s.mir.handovers.map fun h =>
      if h.region == region.toNat && h.atP && h.boundary.isNone then { h with boundary := some f } else h
    if s.top.trigger.isSome then s
    else ({ s with mir := { s.mir with handovers := hs } }).pumpHandovers)

/-- `HANDOVER_DRAINED` (R192 step 5, R194). -/
def execHandoverDrained (m : HandoverMsg) (s : State) : Host.Outcome State Fault Refusal :=
  .next (s.takeMg fun s =>
    let r := m.region.toNat
    let w := s.rtEntry r
    let mine := match s.handoverOf r with | some h => !h.atP | none => false
    if s.top.trigger.isSome then s
    else if mine || (!s.rtFailed r && rtRole w == 2) then
      if !s.rtFailed r && rtRole w == 2 && rtSync w == 0 then
        let s := s.setRt r (rtPut w 1 0 false)
        (s.answerHandover m 3).endHandover r 1 0x4030
      else
        let s := s.setRt r (rtPut w (rtRole w) (rtSync w) false)
        (s.answerHandover m 4).endHandover r 2 0x4031
    else s.owe .t { mg := 1 })

/-- `HANDOVER_TAKEN` (R192 step 6, R194). -/
def execHandoverTaken (m : HandoverMsg) (s : State) : Host.Outcome State Fault Refusal :=
  .next (s.takeMg fun s =>
    let r := m.region.toNat
    let s := s.owe .t { mg := 1 }
    match s.handoverOf r with
    | some h => if h.atP && h.drainedSent then s.endHandover r 1 0x4030 else s
    | none => s)

/-- `HANDOVER_REFUSED` (R192 step 6, R194): P becomes primary again, or Q gives up. -/
def execHandoverRefused (m : HandoverMsg) (s : State) : Host.Outcome State Fault Refusal :=
  .next (s.takeMg fun s =>
    let r := m.region.toNat
    let w := s.rtEntry r
    let s := s.owe .t { mg := 1 }
    match s.handoverOf r with
    | some h =>
      if s.top.trigger.isSome then s
      else if h.atP then
        if h.drainedSent then (s.setRt r (rtPut w 1 (rtSync w) false)).endHandover r 2 0x4031 else s
      else (s.setRt r (rtPut w (rtRole w) (rtSync w) false)).endHandover r 2 0x4031
    | none => s)

/-- `HANDOVER_TIMEOUT` (R195): Q has had no answer within `HO_TMO`. -/
def execHandoverTimeout (region : BitVec 18) (s : State) : Host.Outcome State Fault Refusal :=
  .next (match s.handoverOf region.toNat with
    | some h => if h.atP || s.top.trigger.isSome then s else s.abandonHandover h
    | none => s)

/-! ### Solo grant (R211 to R213) -/

/-- Steps 1 and 2 of an accepted grant (R212). DESIGN CHOICE, log entry 41. -/
def State.grantSolo (s : State) (epoch : Word) (format : Bool) : State :=
  let s := { s with mir := { s.mir with
    epoch := epoch, soloGrant := true, soloConv := false, soloEnd := false, formatDue := format } }
  ((s.writeRecord .solo).event 0x4013 epoch.toNat).abandonAll.heartbeat

/-- `SOLO_CONVERSION_DONE` (R212 step 3): every entry has been converted. -/
def execSoloConversionDone (s : State) : Host.Outcome State Fault Refusal :=
  .next (if s.mir.soloGrant && !s.mir.soloConv && s.top.trigger.isNone then
    let s := s.convertSolo
    ({ s with mir := { s.mir with soloConv := true } }).pumpSolo
  else s)

/-- `SOLO_HOLD_END` (R212 step 4). -/
def execSoloHoldEnd (s : State) : Host.Outcome State Fault Refusal :=
  .next (if s.mir.soloGrant && s.top.trigger.isNone then ({ s with mir := { s.mir with soloEnd := true } }).pumpSolo else s)

/-- A format write of this hub is still to issue. -/
def State.formatWaiting (s : State) : Bool :=
  s.sch.any fun q => (q.2.maint ++ q.2.store).any fun e => e.kind == .formatWrite

/-- Pair granules of a region. -/
def granulesOf (region : Nat) : List Nat := (List.range 512).map fun k => region * 512 + k

/-- Clear every mark of a region (R221). -/
def State.unmarkRegion (s : State) (region : Nat) : State :=
  (granulesOf region).foldl (fun s g => s.unmark (s.localGran g)) s

/-- `FORMAT_REGION_DONE` (R213): every line of the region has been written. -/
def execFormatRegionDone (s : State) : Host.Outcome State Fault Refusal :=
  .next (if s.mir.rb == .formatting && s.mir.pstate == .solo && s.top.trigger.isNone && decide (s.mir.fmtNext = 2 ^ 24) &&
      !s.formatWaiting then
    let r := s.mir.rbRegion
    let w := s.rtEntry r
    let s := (s.setRt r (rtPut w 1 1 false)).unmarkRegion r
    let s := { s with mir := { s.mir with fmtNext := 0, fmtDone := s.mir.fmtDone + 1 } }
    match s.mappedRegions.find? fun n => decide (r < n) with
    | some n => ({ s with mir := { s.mir with rbRegion := n } }).writeRecord .solo
    | none =>
      let n := s.mir.fmtDone
      (s.endSession.writeRecord .solo).event 0x4054 n
  else s)

/-! ### Rebuild: the source (R222 to R229) -/

/-- The source can copy a region: a primary entry that is not `OFFLINE` (R225 step 3). -/
def State.copyable (s : State) (r : Nat) : Bool :=
  let w := s.rtEntry r
  !s.rtFailed r && rtRole w == 1 && rtSync w != 5

/-- A region has a marked granule. -/
def State.hasMarks (s : State) (r : Nat) : Bool :=
  let l := rtLocal (s.rtEntry r)
  s.mir.marks.any fun p => p.2 && p.1 / 512 == l

/-- Open granules while fewer than four are open; when the region's last cursor is answered, say so (R225 steps 4, 5). -/
def State.openGranules : Nat → State → State
  | 0, s => s
  | n + 1, s =>
    match s.mir.todo with
    | g :: rest =>
      if s.mir.copies.length < 4 then
        let s := { s with mir := { s.mir with todo := rest, copies := s.mir.copies ++ [({ gran := g } : GranCopy)] } }
        State.openGranules n (s.sendCtl 1 g false 0)
      else s
    | [] =>
      if s.mir.regionOpen && s.mir.copies.isEmpty then
        ({ s with mir := { s.mir with regionOpen := false } }).sendCtl 4 (s.mir.rbRegion * 512) false 0
      else s

/-- Move to the next region of the given list that is to be copied (R225 step 3); regions skipped are reported. In a
session the end of the list sends done 0x7FF_FFFF. -/
def State.nextRegion (session : Bool) : List Nat → State → State
  | [], s =>
    if session then ({ s with mir := { s.mir with rb := .closing } }).sendCtl 4 0x7FFFFFF true 0
    else { s with mir := { s.mir with rb := .none } }
  | r :: rest, s =>
    if s.copyable r && (session || (s.hasMarks r && rtSync (s.rtEntry r) == 1)) then
      let w := s.rtEntry r
      let s := s.setRt r (rtPut w 1 3 (rtHandover w))
      let gs := granulesOf r
      let todo := if session && s.mir.rbMode == 1 then gs else gs.filter fun g => s.marked (s.localGran g)
      let s := { s with mir := { s.mir with rb := .copying, rbRegion := r, todo := todo, copies := [], regionOpen := true } }
      State.openGranules 5 (s.writeRecord s.mir.pstate)
    else State.nextRegion session rest (if session then s.event 0x4051 r else s)

/-- A rebuild session is in force, as against the resync of R229. -/
def State.inSession (s : State) : Bool := s.mir.rbRole == 1

/-- Go on with the regions from `r` (R225). DESIGN CHOICE, log entry 3. -/
def State.copyFrom (s : State) (r : Nat) : State :=
  State.nextRegion s.inSession (s.mappedRegions.filter fun x => decide (r ≤ x)) s

/-- The resync of R229, outside a session: own primary regions with marks become `TRACKED` until their turn; one in a handover is left
to it, as no replica is `TRACKED` (R147). The manual names no share for it: it runs at `MIR_RBCFG.SHARE`, which `MIR_RBSTAT.SHARE` then
holds. DESIGN CHOICE, log entry 41. -/
def State.resyncOwn (s : State) : State :=
  if s.mir.pstate == .paired && s.mir.rb == .none && s.feat .t 18 && s.top.trigger.isNone then
    let rs := s.mappedRegions.filter fun r => s.copyable r && !rtHandover (s.rtEntry r) && s.hasMarks r
    let s := rs.foldl (fun s r => s.setRt r (rtPut (s.rtEntry r) 1 1 false)) s
    let s := { s with mir := { s.mir with share := s.fld Fld.MIR_RBCFG.SHARE } }
    s.copyFrom 0
  else s

/-- The session is complete at this hub (R225 step 6). -/
def State.sessionDone (s : State) : State :=
  let e := s.mir.epoch.toNat
  ((s.endSession.setPair .paired).event 0x4052 e).settle.resyncOwn.reapply

/-- An early ending at the source (R227): `SOLO`, its entries converted as a grant does. -/
def State.sourceAlone (s : State) (reason : Nat) (tell : Bool) : State :=
  let s := (s.event 0x4053 reason).abandonAll.endSession.convertSolo.enterSolo
  if tell then s.sendCtl 2 0x7FFFFFF true 0 else s

/-- An early ending at the destination: `FENCED` at its own epoch (R227, R541). -/
def State.destFenced (s : State) (reason : Nat) : State := (s.event 0x4053 reason).fence s.mir.epoch

/-- A granule is declared resynchronised (R181, R221, R225). DESIGN CHOICE, log entry 41. -/
def State.resynced (s : State) (g : Nat) : State :=
  let lg := s.localGran g
  let s := (s.unmark lg).setReg Reg.MIR_RBCUR (BitVec.ofNat 32 g)
  let s := s.mapPool fun e => if e.tracked && granOf e.addr == lg && e.owes then { e with acked := true } else e
  s.settle

/-- The destination refuses a region (R224, R225): it stays `TRACKED` at the source and is reported. -/
def State.regionRefused (s : State) (r : Nat) : State :=
  if s.mir.rb == .copying && s.mir.rbRegion == r then
    let w := s.rtEntry r
    let s := s.setRt r (rtPut w 1 1 (rtHandover w))
    let s := { s with mir := { s.mir with copies := [], todo := [], regionOpen := false, rbOut := [] } }
    (s.event 0x4051 r).copyFrom (r + 1)
  else s

/-- The cursor of a granule is answered at the source (R225). Outside a session there is none to end: the manual does not say what a
second rejection does there, and the region stays `TRACKED` as a refused one does. DESIGN CHOICE, log entry 41. -/
def State.cursorAnswered (s : State) (g : Nat) : State :=
  match s.mir.copies.find? fun c => c.gran == g with
  | some c =>
    if !c.rejected then
      let s := { s with mir := { s.mir with copies := s.mir.copies.filter fun x => x.gran != g } }
      State.openGranules 5 (s.resynced g)
    else if c.second then (if s.inSession then s.sourceAlone 4 true else s.regionRefused (g / 512))
    else
      let cs : List GranCopy := s.mir.copies.map fun x => if x.gran == g then { gran := g, second := true } else x
      ({ s with mir := { s.mir with copies := cs } }).sendCtl 1 g false 0
  | none => s

/-- The region's done is answered at the source (R225 step 5). -/
def State.regionAnswered (s : State) (r : Nat) : State :=
  if s.mir.rb == .copying && s.mir.rbRegion == r then
    let w := s.rtEntry r
    let s := s.setRt r (rtPut w 1 0 (rtHandover w))
    let s := if s.inSession && s.mir.rbMode == 1 then s.unmarkRegion r else s
    s.settle.copyFrom (r + 1)
  else s

/-! ### Rebuild: the destination -/

/-- Mapped marked granules as pair granules. -/
def State.pairMarks (s : State) : List Nat :=
  s.mappedRegions.flatMap fun r => (granulesOf r).filter fun g => s.marked (s.localGran g)

/-- Send the destination's report, at most 16 messages outstanding; done 0x7FF_FFFE ends it (R225 step 2). -/
def State.pumpReport : Nat → State → State
  | 0, s => s
  | n + 1, s =>
    if s.mir.rb == .reporting && s.mir.rbRole == 2 && s.mir.lastCtl.length < 16 then
      match s.mir.reported with
      | g :: rest => State.pumpReport n (({ s with mir := { s.mir with reported := rest } }).sendCtl 3 g false 0)
      | [] => ({ s with mir := { s.mir with rb := .copying } }).sendCtl 4 0x7FFFFFE true 0
    else s

/-- The mode a session start names (R224). -/
def modeOf (m : RebuildMsg) : Nat := if m.cursor == 0x7FFFFFF then 1 else 2

/-- The destination answers a session start (R223, R224). DESIGN CHOICE, log entry 41. -/
def State.answerStart (s : State) (m : RebuildMsg) : State :=
  let s := { s with mir := { s.mir with startHeld := Option.none } }
  if modeOf m = s.mir.rbMode.toNat then
    let s := s.answerCtl 1 m
    if s.mir.rbMode == 2 then
      let s := { s with mir := { s.mir with rb := .reporting, reported := s.pairMarks } }
      State.pumpReport 17 s
    else { s with mir := { s.mir with rb := .copying } }
  else
    let s := s.event 0x4053 4
    let s := { s with mir := { s.mir with lastCtl := s.mir.lastCtl ++ [(2, 0x7FFFFFF, true)] } }
    s.sendOwing .t (mkRebuild 2 0 0 s.mir.epoch 0x7FFFFFF true) { mg := 1 } Option.none

/-- `REBUILD_CTL_START_SESSION` (R224): held until this hub has accepted its own rebuild start. -/
def execRebuildCtlStartSession (m : RebuildMsg) (s : State) : Host.Outcome State Fault Refusal :=
  .next (s.takeMg fun s =>
    if s.mir.rbRole == 2 && s.mir.rb == .starting then s.answerStart m
    else { s with mir := { s.mir with startHeld := some m } })

/-- `REBUILD_CTL_START_GRANULE` (R204, R224, R226): a filter opens, and the region of the granule is the one being copied; an
`OFFLINE` region is refused with stop. -/
def execRebuildCtlStartGranule (m : RebuildMsg) (s : State) : Host.Outcome State Fault Refusal :=
  .next (s.takeMg fun s =>
    let g := m.cursor.toNat
    let r := g / 512
    let w := s.rtEntry r
    if !s.rtFailed r && rtSync w == 5 then
      let key := (2, r * 512, false)
      (if s.mir.lastCtl.contains key then s else s.sendCtl 2 (r * 512) false 0).answerCtl 1 m
    else
      let s := if s.mir.rbRole == 2 && s.mir.rbRegion != r then
          ({ s with mir := { s.mir with rbRegion := r } }).writeRecord s.mir.pstate
        else s
      let s := { s with mir := { s.mir with
        filters := (s.mir.filters.filter fun (f : LineFilter) => f.gran != g) ++ [({ gran := g } : LineFilter)],
        opened := if s.mir.opened.contains g then s.mir.opened else s.mir.opened ++ [g] } }
      let s := if !s.rtFailed r && rtRole w == 2 && (rtSync w == 2 || (rtSync w == 0 && !(s.mir.rbRole == 2))) then
          s.setRt r (rtPut w 2 3 (rtHandover w))
        else s
      s.answerCtl 1 m)

/-- `REBUILD_CTL_CURSOR` (R79, R224): unknown without feature 19; at the source it marks a granule of the report; elsewhere it
closes a filter once every line before it is admitted or rejected. -/
def execRebuildCtlCursor (m : RebuildMsg) (s : State) : Host.Outcome State Fault Refusal :=
  .next (s.takeKnown true fun s =>
    let g := m.cursor.toNat
    if s.mir.rbRole == 1 then
      let s := if rtRole (s.rtEntry (g / 512)) == 0 then s else s.mark (s.localGran g)
      s.answerCtl 3 m
    else
      ({ s with mir := { s.mir with curWait := s.mir.curWait ++ [(m, (s.link .t).nextReq)] } }).closeCursors)

/-- `REBUILD_CTL_DONE` (R224): the end of the report, of a region, or of the session. -/
def execRebuildCtlDone (m : RebuildMsg) (s : State) : Host.Outcome State Fault Refusal :=
  .next (s.takeMg fun s =>
    if m.sess then
      let s := s.answerCtl 4 m
      if m.cursor == 0x7FFFFFE then
        if s.mir.rbRole == 1 && s.mir.rb == .reporting then s.copyFrom 0 else s
      else if s.mir.rbRole == 2 then s.sessionDone
      else s
    else
      let r := m.cursor.toNat / 512
      let w := s.rtEntry r
      let s := if s.mir.rbRole == 2 && s.mir.rbMode == 1 then s.unmarkRegion r else s
      let s := if !s.rtFailed r && rtRole w == 2 && (rtSync w == 2 || rtSync w == 3 || rtSync w == 4) then
          s.setRt r (rtPut w 2 0 (rtHandover w))
        else s
      let s := { s with mir := { s.mir with opened := s.mir.opened.filter fun g => g / 512 != r } }
      s.answerCtl 4 m)

/-- `REBUILD_CTL_STOP` (R224, R227, R541). The message names no reason: the destination logs 0x1, whichever made the source stop.
DESIGN CHOICE, log entry 41. -/
def execRebuildCtlStop (m : RebuildMsg) (s : State) : Host.Outcome State Fault Refusal :=
  .next (s.takeMg fun s =>
    let s := s.answerCtl 2 m
    if !m.sess then s.regionRefused (m.cursor.toNat / 512)
    else if s.mir.rbRole == 1 then s.sourceAlone (if s.mir.rb == .starting then 4 else 1) false
    else if s.mir.rbRole == 2 then s.destFenced 1
    else s)

/-- `REBUILD_CTL_PACE` (R79, R224, R228): unknown without feature 19, or with a share above 100. -/
def execRebuildCtlPace (m : RebuildMsg) (s : State) : Host.Outcome State Fault Refusal :=
  .next (s.takeKnown (decide (m.share.toNat ≤ 100)) fun s =>
    let s := if s.mir.rbRole == 1 then
        ({ s with mir := { s.mir with share := m.share.toNat } }).event 0x4055 m.share.toNat
      else s
    s.answerCtl 5 m)

/-- What an answer to one of the hub's own messages does (R225). -/
def State.answered (s : State) (cmd : Nat) (m : RebuildMsg) : State :=
  let c := m.cursor.toNat
  match cmd with
  | 1 =>
    if m.sess then
      if s.mir.rbRole == 1 && s.mir.rb == .starting then
        if s.mir.rbMode == 1 then s.copyFrom 0 else { s with mir := { s.mir with rb := .reporting } }
      else s
    else
      let cs : List GranCopy := s.mir.copies.map fun x => if x.gran == c then { x with opened := true } else x
      { s with mir := { s.mir with copies := cs } }
  | 2 => if m.sess && s.mir.rbRole == 2 then s.fence s.mir.epoch else s
  | 3 => if s.mir.rbRole == 2 then State.pumpReport 17 s else s.cursorAnswered c
  | 4 =>
    if m.sess then (if s.mir.rbRole == 1 && s.mir.rb == .closing then s.sessionDone else s)
    else s.regionAnswered (c / 512)
  | _ => s

/-- `REBUILD_CTL_ANSWER` (R224, R225): it answers a message the hub has sent; its own MG credit returns. -/
def execRebuildCtlAnswer (cmd : Byte) (m : RebuildMsg) (s : State) : Host.Outcome State Fault Refusal :=
  .next (
    let key := (cmd.toNat, m.cursor.toNat, m.sess)
    if s.mir.lastCtl.contains key then
      s.takeMg fun s =>
        let s := ({ s with mir := { s.mir with lastCtl := s.mir.lastCtl.erase key } }).owe .t { mg := 1 }
        s.answered cmd.toNat m
    else s)

/-- `REBUILD_WAIT_TIMEOUT` (R223, R227): the session start has not been answered within `RB_WAIT`. -/
def execRebuildWaitTimeout (s : State) : Host.Outcome State Fault Refusal :=
  .next (if s.mir.rb == .starting && s.top.trigger.isNone then
    if s.mir.rbRole == 1 then s.sourceAlone 3 false else s.destFenced 3
  else s)

/-- The rebuild start takes effect (R223): the role follows from the hub's own state. -/
def State.startRebuild (s : State) (epoch : Word) (mode share : Nat) : State :=
  let share := if share = 0 then s.fld Fld.MIR_RBCFG.SHARE else share
  let source := s.mir.pstate == .solo
  let held := s.mir.startHeld
  let s := s.endSession
  let first := s.mappedRegions.headD 0
  let s := { s with mir := { s.mir with
    epoch := epoch, rb := .starting, rbRole := if source then 1 else 2, rbMode := BitVec.ofNat 2 mode, rbRegion := first,
    share := share, dirShare := share, startHeld := held } }
  if source then
    let s := s.setPair .rebuildSrc
    (s.sendCtl 1 (if mode = 1 then 0x7FFFFFF else 0x7FFFFFE) true 0).event 0x4050 (mode + 4)
  else
    let s := s.setPair .rebuildDst
    let s := s.mappedRegions.foldl (fun s r =>
      let w := s.rtEntry r
      if mode = 1 then s.setRt r (rtPut w 2 4 false) else if rtSync w == 5 then s else s.setRt r (rtPut w 2 2 false)) s
    let s := s.serve
    match held with
    | some m => s.answerStart m
    | none => s

/-- A rebuild stop directive (R541). -/
def State.stopRebuild (s : State) : State :=
  if s.mir.pstate == .rebuildSrc then s.sourceAlone 1 true
  else
    let s := (s.event 0x4053 1).fence s.mir.epoch
    s.sendCtl 2 0x7FFFFFF true 0

/-! ### Settling in JOIN (R230) -/

/-- Settle to a state: event 0x4014. -/
def State.settleTo (s : State) (ps : PairState) : State := (s.setPair ps).event 0x4014 ps.code

/-- The peer's last heartbeat at this hub's epoch reported state `ps`. -/
def State.peerReports (s : State) (ps : Nat) : Bool := s.twin.peerEpoch == some s.mir.epoch && s.twin.peerState == ps

/-- A recorded session resumes at `RB_REGION` from its first granule. The pair record holds no share: the session goes on at
`MIR_RBCFG.SHARE`. DESIGN CHOICE, log entry 41. -/
def State.resume (s : State) : State :=
  let share := s.fld Fld.MIR_RBCFG.SHARE
  let s := { s with mir := { s.mir with rb := .copying, share := share, dirShare := share } }
  if s.mir.rbRole == 1 then s.copyFrom s.mir.rbRegion else s

/-- The pair state is one that leads out of `JOIN` (R23). -/
def State.settled (s : State) : Bool :=
  match s.mir.pstate with
  | .paired | .solo | .rebuildSrc | .rebuildDst => true
  | _ => false

/-- `PAIR_SETTLE` (R21, R23, R230, R346): the first row that applies. A hub that has settled and waits for its links leaves `JOIN`. -/
def execPairSettle (s : State) : Host.Outcome State Fault Refusal :=
  .next (if s.top.state == .join && s.settled && s.top.trigger.isNone then s.serve
  else if s.top.state == .join && s.mir.pstate == .none && !s.mir.soloGrant && s.top.trigger.isNone then
    match s.twin.peerEpoch with
    | some e =>
      if s.mir.epoch != 0 && e.toNat > s.mir.epoch.toNat then s.fenceSettled e
      else if s.mir.recorded == .fenced then s.settleTo .fenced
      else if s.mir.epoch == 0 then s
      else
        match s.mir.recorded with
        | .paired =>
          if s.peerReports 1 && (s.feat .t 18 || s.mir.marks.isEmpty) then
            let s := (s.settleTo .paired).serve
            (if s.top.state == .join then s.reapply else s).resyncOwn
          else s
        | .rebuildSrc => if s.peerReports 4 then (s.settleTo .rebuildSrc).serve.resume else s
        | .rebuildDst => if s.peerReports 3 then (s.settleTo .rebuildDst).serve.resume else s
        | _ => s
    | none => if s.mir.recorded == .fenced then s.settleTo .fenced else s
  else s)

/-- `JOIN_UNSETTLED_TIMEOUT` (R230). -/
def execJoinUnsettledTimeout (s : State) : Host.Outcome State Fault Refusal :=
  .next (if s.top.state == .join && s.mir.pstate == .none then s.event 0x4015 s.mir.recorded.code else s)

end Sys2Proof.Machine
end

