-- ==== Sys2Proof/Machine/Schedule.lean ====
section
/-!
DEFINITION. The sub-channel schedulers (R31, R237 to R261): the store, the pick, turns, refresh, power-down, scrub, and
the timings of DRAM.
-/

namespace Sys2Proof.Machine

/-! ### Timing (R244 to R246) -/

/-- The timing set in force on a sub-channel. -/
def State.tset (s : State) (n : Nat) : Nat := s.fld (Fld.SCH_STAT.TSET n)

/-- Word `w` of the timing set in force (R244, R262). -/
def State.tp (s : State) (n w : Nat) : Nat := fieldGet (s.reg (0x054000 + 0x100 * s.tset n + 4 * w)) 15 0

/-- The burst of a line on the data bus, in CK. -/
def burst : Nat := 8

/-- How two device locations stand to each other. -/
inductive Near where
  | bank | index | group | die | rank | far
  deriving DecidableEq, Repr

/-- `bank`: the same bank; `index`: the same bank index of the same die; `group`: the same bank group of the same die;
`die`: the same die; `rank`: another die of the same package rank; `far`: another rank. -/
def nearness (a b : Loc) : Near :=
  if a.rank != b.rank then .far
  else if a.die != b.die then .rank
  else if a.bank == b.bank && a.bg == b.bg then .bank
  else if a.bg == b.bg then .group
  else if a.bank == b.bank then .index
  else .die

/-- Same die. -/
def Near.sameDie : Near → Bool
  | .far | .rank => false
  | _ => true

/-- Same bank group of one die. -/
def Near.sameGroup : Near → Bool
  | .bank | .group => true
  | _ => false

/-- Same bank index of one die. -/
def Near.sameIndex : Near → Bool
  | .bank | .index => true
  | _ => false

/-- CK from an earlier column command to the end of an internal or explicit precharge it allows. -/
def State.closeGap (s : State) (n : Nat) (wr : Bool) : Nat := if wr then s.tp n 1 + burst + s.tp n 18 else s.tp n 17

/-- Column to column (R244); between ranks the length of a burst. DESIGN CHOICE, log entry 8. -/
def State.ccd (s : State) (n : Nat) (x : Near) : Nat :=
  if x.sameGroup then s.tp n 12
  else if x.sameDie then s.tp n 11
  else if x == .rank then s.tp n 14
  else burst

/-- The CK that must pass from command `p` (of kind `pk`, with or without auto-precharge) to a command of kind `k` that
stands to it as `x` does (R244). A same-bank refresh followed by another refresh of the die, a pair the table does not name, waits
tRFCsb_slr. DESIGN CHOICE, log entry 8. -/
def State.gap (s : State) (n : Nat) (pk : CmdKind) (auto : Bool) (k : CmdKind) (x : Near) : Nat :=
  let t := s.tp n
  match pk, k with
  | .act, .act =>
    match x with
    | .bank => t 5
    | .group => t 7
    | .index | .die => t 6
    | .rank => t 8
    | .far => 0
  | .act, .rd | .act, .wr => if x == .bank then t 2 else 0
  | .act, .pre => if x == .bank then t 4 else 0
  | .act, .refsb => if x.sameIndex then t 5 else 0
  | .act, .refab => if x.sameDie then t 5 else 0
  | .rd, .rd | .wr, .wr => max (s.ccd n x) (if k == .wr && x.sameGroup then t 13 else 0)
  | .rd, .wr => max (s.ccd n x) (t 19)
  | .wr, .rd => max (s.ccd n x) (t 1 + burst + (if x.sameGroup then t 16 else t 15))
  | .rd, .pre | .wr, .pre => if x == .bank then s.closeGap n (pk == .wr) else 0
  | .rd, .act | .wr, .act => if x == .bank && auto then s.closeGap n (pk == .wr) + t 3 else 0
  | .rd, .refsb | .wr, .refsb => if x.sameIndex && auto then s.closeGap n (pk == .wr) + t 3 else 0
  | .rd, .refab | .wr, .refab => if x.sameDie && auto then s.closeGap n (pk == .wr) + t 3 else 0
  | .pre, .act => if x == .bank then t 3 else 0
  | .pre, .refsb => if x.sameIndex then t 3 else 0
  | .pre, .refab => if x.sameDie then t 3 else 0
  | .refsb, .act => if x.sameIndex then t 22 else if x.sameDie then t 23 else 0
  | .refsb, .refsb | .refsb, .refab => if x.sameDie then t 22 else 0
  | .refab, _ => if x.sameDie then t 21 else 0
  | .pde, .pdx => if x == .far then 0 else max (t 26) (t 25)
  | .pde, _ => if x == .far then t 25 else 0
  | .pdx, _ => if x == .far then 0 else t 24
  | .srx, _ => if x == .far then 0 else t 27
  | _, _ => 0

/-- Activates among the recent commands in the `w` CK before `ck` that a test selects. -/
def actsIn (h : List CmdRec) (ck w : Nat) (f : Loc → Bool) : Nat :=
  (h.filter fun r => r.kind == .act && decide (ck < r.ck + w) && f r.loc).length

/-- A command may issue at CK `ck` (R244). -/
def State.okAt (s : State) (n : Nat) (h : List CmdRec) (k : CmdKind) (l : Loc) (ck : Nat) : Bool :=
  (h.all fun r => decide (r.ck + s.gap n r.kind r.auto k (nearness r.loc l) ≤ ck)) &&
    (k != .act ||
      (decide (actsIn h ck (s.tp n 9) (fun o => o.rank == l.rank && o.die == l.die) < 4) &&
       decide (actsIn h ck (s.tp n 10) (fun o => o.rank == l.rank) < 4)))

/-- The CK at which a command can issue in this MCLK cycle: at offset 0 or 2, one command in a cycle (R246). -/
def State.slotFor (s : State) (n : Nat) (k : CmdKind) (l : Loc) : Option Nat :=
  let c := s.sub n
  if c.hist.any fun r => decide (c.ck ≤ r.ck) && decide (r.ck < c.ck + 4) then Option.none
  else if s.okAt n c.hist k l c.ck then some c.ck
  else if s.okAt n c.hist k l (c.ck + 2) then some (c.ck + 2)
  else Option.none

/-- The column address sent to the devices: the column field times 16 (R158). -/
def Loc.colAddr (l : Loc) : Nat := 16 * l.col

/-- Put a command on the bus: it joins the recent history, which keeps what can still bear on a timing. -/
def State.issue (s : State) (n : Nat) (k : CmdKind) (l : Loc) (auto : Bool) (ck : Nat) : State :=
  let r : CmdRec := ⟨ck, k, l, auto, if k == .rd || k == .wr then l.colAddr else 0⟩
  s.onSub n fun c => { c with
    hist := r :: c.hist.filter fun r => decide (ck < r.ck + 2 ^ 18), pins := { c.pins with ca := some r } }

/-! ### Banks and the store (R237 to R240) -/

/-- The bank queue of a location (R238). -/
def bankOf (l : Loc) : Nat := l.bank * 256 + l.die * 16 + l.rank * 8 + l.bg

/-- The location of a bank queue. -/
def locOfBank (b : Nat) : Loc := { rank := b / 8 % 2, die := b / 16 % 16, bg := b % 8, bank := b / 256 % 4 }

def SubCh.bank (c : SubCh) (b : Nat) : Option OpenBank := Tab.get (fun _ => Option.none) c.banks b

def SubCh.setBank (c : SubCh) (b : Nat) (o : Option OpenBank) : SubCh :=
  { c with banks := Tab.set (fun _ => Option.none) c.banks b o }

/-- Entries whose column command is a write. -/
def StoreKind.isWrite : StoreKind → Bool
  | .write | .correction | .formatWrite | .rawWrite => true
  | _ => false

/-- Entries whose column command is a read. -/
def StoreKind.isRead : StoreKind → Bool
  | .read | .oldRead | .scrub | .rebuildRead | .spareRead => true
  | _ => false

/-- The three classes of R254. -/
inductive WorkClass where
  | host | rebuild | scrub
  deriving DecidableEq, Repr

/-- The class of an entry. The manual puts neither read nor write of a spare copy (R357) in a class: both rank as host work, which
`SCH_MAINTACT` does not count. DESIGN CHOICE, log entry 36. -/
def StoreKind.cls : StoreKind → WorkClass
  | .rebuildRead | .formatWrite => .rebuild
  | .scrub | .correction => .scrub
  | _ => .host

/-- Same bank, row and column: the same line (R240). -/
def sameLine (a b : Loc) : Bool := a == b

/-- An entry is eligible: it has a column command, a write's data is staged, a rebuild read's probe was clean, and no older entry of
its bank queue has its line (R240, R242). `older` are the entries before it. -/
def eligible (older : List StoreEntry) (e : StoreEntry) : Bool :=
  (if e.kind.isWrite then e.staged else e.kind.isRead && (e.kind != .rebuildRead || e.probed)) && !older.any fun o => sameLine o.loc e.loc

/-- The index of the oldest write whose data is not yet staged and that no older entry of its line holds back (R30, R240). -/
def toStage (k : Nat) (older : List StoreEntry) : List StoreEntry → Option Nat
  | [] => Option.none
  | e :: r =>
    if e.kind.isWrite && !e.staged && !older.any fun o => sameLine o.loc e.loc then some k else toStage (k + 1) (older ++ [e]) r

/-- The store with each entry's eligibility, oldest first. -/
def withEligible : List StoreEntry → List StoreEntry → List (StoreEntry × Bool)
  | _, [] => []
  | older, e :: r => (e, eligible older e) :: withEligible (older ++ [e]) r

def SubCh.ranked (c : SubCh) : List (StoreEntry × Bool) := withEligible [] c.store

/-- Bit `b` of the active-bank bitmap: its queue holds an entry (R238). -/
def SubCh.active (c : SubCh) (b : Nat) : Bool := c.store.any fun e => bankOf e.loc == b

/-- Eligible entries, oldest first. -/
def SubCh.ready (c : SubCh) : List StoreEntry := (c.ranked.filter (·.2)).map (·.1)

/-- A rank that Schedule serves: trained, not retired, and not in self-refresh. -/
def State.serves (s : State) (n rank : Nat) : Bool :=
  (s.rank (2 * n + rank)).trained && !s.gone (2 * n + rank) && !(s.sub n).sref.contains rank

/-- The refresh debt of bank index `b` of a die (R251). -/
def SubCh.debtOf (c : SubCh) (rank die b : Nat) : Int := Tab.get (fun _ => 0) c.debt ((16 * rank + die) * 4 + b)

def SubCh.setDebt (c : SubCh) (rank die b : Nat) (v : Int) : SubCh :=
  { c with debt := Tab.set (fun _ => 0) c.debt ((16 * rank + die) * 4 + b) v }

def State.soft (s : State) : Int := s.fld Fld.SCH_REFCFG.SOFT
def State.hard (s : State) : Int := s.fld Fld.SCH_REFCFG.HARD
def State.ahead (s : State) : Int := s.fld Fld.SCH_REFCFG.AHEAD

/-- Bank index `l.bank` of the die at `l` owes a refresh that bars activates (R252), or the die is in the fallback. -/
def State.blocked (s : State) (n : Nat) (l : Loc) : Bool :=
  let c := s.sub n
  decide (c.debtOf l.rank l.die l.bank ≥ s.soft) || c.fallback.contains (16 * l.rank + l.die)

/-- Eight banks of an index of a die. -/
def indexBanks (rank die b : Nat) : List Nat := (List.range 8).map fun g => bankOf { rank := rank, die := die, bg := g, bank := b }

/-- Banks of a die. -/
def dieBanks (rank die : Nat) : List Nat := (List.range 4).flatMap fun b => indexBanks rank die b

/-- Banks of a rank. -/
def rankBanks (rank : Nat) : List Nat := (List.range 16).flatMap fun d => dieBanks rank d

def SubCh.allClosed (c : SubCh) (bs : List Nat) : Bool := bs.all fun b => (c.bank b).isNone

/-- Dies of the population (R157). -/
def State.dies (s : State) : List Nat := List.range (2 ^ s.geom.dBits)

/-- Dies of a rank with a refresh in progress at CK `ck`. -/
def State.refreshing (s : State) (n rank ck : Nat) : List Nat :=
  ((s.sub n).hist.filter fun r => r.loc.rank == rank &&
    ((r.kind == .refsb && decide (ck < r.ck + s.tp n 22)) || (r.kind == .refab && decide (ck < r.ck + s.tp n 21)))).map
    (·.loc.die) |>.eraseDups

/-! ### Training and live records that Schedule asks for (R276, R281) -/

/-- The live record of rank p; empty where the rank has none. -/
def State.live (s : State) (p : Nat) : List Byte := Tab.get (fun _ => []) s.cal.live p

/-- Swap map of nibble `k` of a record (R273): bits [2i+1:2i] name the package pin that carries bit i. -/
def recSwap (r : List Byte) (k : Nat) : Byte := r.getD (0x44 + 8 * k) 0

def State.training (s : State) (n : Nat) : TrainRun := Tab.get (fun _ => {}) s.cal.train n

def State.setTraining (s : State) (n : Nat) (t : TrainRun) : State :=
  { s with cal := { s.cal with train := Tab.set (fun _ => {}) s.cal.train n t } }

/-- The step uses a device training mode or holds patterns: T5 to T8, and the restore check, step 10 here (R276). -/
def TrainRun.modal (t : TrainRun) : Bool := (decide (5 ≤ t.step) && decide (t.step ≤ 8)) || t.step == 10

/-- The rank is in the device training mode of its step. -/
def TrainRun.inMode (t : TrainRun) : Bool := t.modal && !t.left

def resultFld (n k : Nat) : Fld := if k = 0 then Fld.DPH_STAT.RESULT0 n else Fld.DPH_STAT.RESULT1 n

/-- A rank that is being trained, or that a restore has taken out of self-refresh, also needs its refreshes (R276, R284); so does the
retired rank that a re-admission trains (R352). -/
def State.awake (s : State) (n rank : Nat) : Bool :=
  s.serves n rank ||
    (let t := s.training n
     decide (t.step ≥ 5) && decide (rank < 2 ^ s.geom.rBits) && (!s.gone (2 * n + rank) || (t.readmit && rank == t.rank)) &&
       !(s.sub n).sref.contains rank &&
       decide (s.fld (resultFld n rank) < 2) && (t.rst || rank == t.rank))

/-! ### What the data pins carry (R271 to R273) -/

/-- A nibble's four bits, each on the package pin its swap map names. DEDUCED, log entry 37. -/
def swapNibble (m : Byte) (x : Nat) : Nat :=
  (List.range 4).foldl (fun a i => if x.testBit i then a + 2 ^ (m.toNat / 4 ^ i % 4) else a) 0

/-- The 16 beats of a line's 80 symbols: in beat b nibble k carries bits 4b to 4b + 3 of the eight bytes of package k (R272, R322). -/
def wireBeats (record : List Byte) (cw : List Byte) : List (BitVec 40) :=
  (List.range 16).map fun b =>
    BitVec.ofNat 40 ((List.range 10).foldl (fun a k =>
      a + (swapNibble (recSwap record k) ((cw.getD (8 * k + b / 2) 0).toNat / 16 ^ (b % 2) % 16) <<< (4 * k))) 0)

/-- A burst on the data pins of a sub-channel. -/
def State.drive (s : State) (n : Nat) (l : Loc) (cw : List Byte) : State :=
  s.onSub n fun c => { c with pins := { c.pins with
    beats := wireBeats (s.live (2 * n + l.rank)) cw, dqs := List.range 10, crc := [] } }

/-- A write burst: the PHY adds the write CRC of each device (R327). -/
def State.driveWrite (s : State) (n : Nat) (l : Loc) (cw : List Byte) : State :=
  (s.drive n l cw).onSub n fun c => { c with pins := { c.pins with
    crc := (List.range 10).map fun k => Config.writeCrc ((List.range 8).map fun i => cw.getD (8 * k + i) 0) } }

/-! ### Entering the store (R237, R241, R243, R347, R356) -/

/-- A write has entered a bank queue: a correction of its line in the table is superseded (R243). -/
def SubCh.supersede (c : SubCh) (addr : Nat) : SubCh :=
  { c with corr := c.corr.map fun x => if x.addr == addr then { x with superseded := true } else x }

/-- Put an entry into the store of sub-channel `n`. -/
def State.enter (s : State) (n : Nat) (e : StoreEntry) : State :=
  if s.gone (2 * n + e.loc.rank) then s.onRetired e
  else
    let s := if e.kind == .write || e.kind == .oldRead || e.kind == .holder || e.kind == .formatWrite || e.kind == .rawWrite then
        s.onSub n fun c => c.supersede e.addr
      else s
    let s := s.onSub n fun c => { c with store := c.store ++ [{ e with since := c.ck }] }
    s.noteHigh (Fld.SCH_STOREOCC.HIGH n) (s.sub n).store.length

/-- What a pool entry asks of Schedule (R241). -/
def PoolEntry.work (e : PoolEntry) : StoreKind :=
  match e.kind with
  | .read | .repairRead | .agentRead => .read
  | .spareCopy => .spareRead
  | _ => if !e.merging then .write else if e.waitOn.isNone && !e.repair then .oldRead else .holder

/-- A write of the line waits in the maintenance queue of a sub-channel. -/
def SubCh.maintHolds (c : SubCh) (addr : Nat) : Bool :=
  c.maint.any fun e => e.addr == addr && (e.kind.isWrite || e.kind == .holder)

/-- Move one request from the intake queue into the store; one for a redirected line waits behind writes of the line that wait for
the target's store (R237, R240, R356). -/
def State.takeIntake (s : State) (n : Nat) : Option State :=
  let c := s.sub n
  match c.intake with
  | [] => Option.none
  | i :: rest =>
    if c.store.length ≥ 256 then Option.none
    else
      let s := s.setSub n { c with intake := rest }
      match s.entry i with
      | none => some s
      | some e =>
        let k := e.work
        let w : StoreEntry := { kind := k, pool := some i, addr := e.addr, loc := s.locOf e.addr }
        let isW := k.isWrite || k == .oldRead || k == .holder
        match (if e.kind == .spareCopy then Option.none else s.redirect e.addr) with
        | some (m, l) =>
          if (s.flt.sp == 1 || s.flt.sp == 2) && (s.sub m).maintHolds e.addr then Option.none
          else if s.flt.sp == 2 then (if (s.sub m).store.length ≥ 256 then Option.none else some (s.enter m { w with loc := l }))
          else if s.flt.sp == 1 && isW then
            if (s.sub m).store.length + (if m = n then 2 else 1) > 256 then Option.none
            else
              let s := s.onEntry i fun e => { e with dual := true }
              let s := s.enter n w
              some (s.enter m { w with loc := l, kind := if k == .oldRead then .holder else k })
          else some (s.enter n w)
        | none => some (s.enter n w)

/-- A maintenance write waits for the store (R237). -/
def State.queueMaint (s : State) (n : Nat) (e : StoreEntry) : State := s.onSub n fun c => { c with maint := c.maint ++ [e] }

/-- Move one maintenance entry into the store, which keeps 32 entries free (R237). -/
def State.takeMaint (s : State) (n : Nat) : Option State :=
  let c := s.sub n
  match c.maint with
  | [] => Option.none
  | e :: rest => if c.store.length > 224 then Option.none else some ((s.setSub n { c with maint := rest }).enter n e)

/-- The next rebuild read or format write of the rebuild engine for this sub-channel, if its maintenance queue of 32
has room (R213, R225, R226); a format write of a line that is being copied to its spare rows goes to both locations (R356). -/
def State.feedMaint (s : State) (n : Nat) : Option State :=
  if (s.sub n).maint.length ≥ 32 || s.top.trigger.isSome then Option.none
  else if s.mir.rb == .formatting && s.mir.pstate == .solo then
    let pair := s.mir.rbRegion * 2 ^ 24 + s.mir.fmtNext
    let a := s.localAddr (BitVec.ofNat 42 pair)
    let t := s.siteOf a
    if s.mir.fmtNext < 2 ^ 24 && t.1 == n then
      let e : StoreEntry := { kind := .formatWrite, addr := a, loc := t.2, gran := pair, lseal := lineSeal 0 a true 0 }
      let both := if s.flt.sp == 1 then s.redirect a else Option.none
      let full := match both with
        | some (m, _) => decide ((s.sub m).maint.length ≥ (if m = n then 31 else 32))
        | none => false
      if full then Option.none
      else
        let s := ({ s with mir := { s.mir with fmtNext := s.mir.fmtNext + 1 } }).queueMaint n e
        some (match both with
          | some (m, l) => s.queueMaint m { e with loc := l }
          | none => s)
    else Option.none
  else
    match s.mir.copies.find? fun c => c.opened && decide (c.readNext < 32768) &&
        (s.siteOf (s.localAddr (BitVec.ofNat 42 (c.gran * 32768 + c.readNext)))).1 == n with
    | some c =>
      let pair := c.gran * 32768 + c.readNext
      let a := s.localAddr (BitVec.ofNat 42 pair)
      let e : StoreEntry := { kind := .rebuildRead, addr := a, loc := (s.siteOf a).2, gran := pair }
      let cs : List GranCopy := s.mir.copies.map fun x => if x.gran == c.gran then { x with readNext := x.readNext + 1 } else x
      some (({ s with mir := { s.mir with copies := cs } }).onSub n fun c => { c with maint := c.maint ++ [e] })
    | none => Option.none

/-- Repeat a step that may end. -/
def repeatS (f : State → Option State) : Nat → State → State
  | 0, s => s
  | k + 1, s => match f s with
    | some s' => repeatS f k s'
    | Option.none => s

/-! ### The encoder (R30, R318, R327 to R331) -/

/-- The codeword of the store entry at index `k` enters the write staging queue. -/
def State.stageAt (s : State) (n k : Nat) (cw : List Byte) : State :=
  s.onSub n fun c => { c with store := c.store.modify k fun e => { e with staged := true, codeword := cw } }

/-- Poison written by the encoder is reported (R330). -/
def State.notePattern (s : State) (n : Nat) (k : PoisonKind) : State :=
  if k == .good then s else s.event 0x8003 ((n <<< 28) + bitOf (k == .locally))

/-- A correction is no longer needed, or its seal has failed: it leaves the store and its table entry is freed (R243, R329). -/
def State.dropCorrection (s : State) (n : Nat) (e : StoreEntry) : State :=
  let s := (s.onSub n fun c => { c with store := c.store.erase e }).bump (Reg.SCH_SUPERSEDED n)
  match (s.sub n).corr.find? fun x => x.addr == e.addr && x.spare == e.copy with
  | some x => s.freeCorr n x
  | none => s

/-- The line of pool entry `i` meets the encoder (R318, R328 to R331): its seal is verified at hand-off 0x3, and its check symbols carry
the poison it has or is given. An agent forges and sends its line once more at a first mismatch. -/
def State.encodePool (s : State) (n k i : Nat) (q : PoolEntry) : State :=
  let s := s.checkSeal 3 q
  if q.kind == .agentWrite && !q.poison && !q.sealGood && !q.resent then
    s.onEntry i fun q => { q with lseal := q.sealOf q.line, resent := true }
  else
    let c := q.kindAt
    let s := if c == .carried then s.onEntry i fun q => { q with poison := true } else s
    (s.notePattern n c).stageAt n k (encodeLine q.addr q.line c)

/-- A format write meets the encoder: it is forged and sent once more at a first mismatch, and stored as carried poison at a second
(R329). -/
def State.encodeFormat (s : State) (n k : Nat) (e : StoreEntry) : State :=
  let good := lineSeal 0 e.addr true 0
  if e.lseal == good then s.stageAt n k (encodeLine e.addr 0 .good)
  else
    let s := s.sealFail 3 7 true (e.addr >>> 24)
    if e.resent then (s.notePattern n .carried).stageAt n k (encodeLine e.addr 0 .carried)
    else s.onSub n fun c => { c with store := c.store.modify k fun e => { e with lseal := good, resent := true } }

/-- A correction meets the encoder: one whose seal fails is dropped (R329). -/
def State.encodeCorrection (s : State) (n k : Nat) (e : StoreEntry) : State :=
  match (s.sub n).corr.find? fun x => x.addr == e.addr && x.spare == e.copy with
  | some x =>
    let l := x.line.getD 0
    if x.lseal == lineSeal l e.addr true 0 then s.stageAt n k (encodeLine e.addr l .good)
    else (s.sealFail 3 7 true (e.addr >>> 24)).dropCorrection n e
  | none => s.onSub n fun c => { c with store := c.store.erase e }

/-- The data of one write moves through the encoder into the write staging queue of 32 lines, oldest first; a copy that is stored
unchanged passes the encoder by (R30, R240, R357). DESIGN CHOICE, log entry 8. -/
def State.stageOne (s : State) (n : Nat) : Option State :=
  let c := s.sub n
  if (c.store.filter (·.staged)).length ≥ 32 then Option.none
  else
    (toStage 0 [] c.store).bind fun k => (c.store[k]?).map fun e =>
      match e.kind with
      | .correction => s.encodeCorrection n k e
      | .formatWrite => s.encodeFormat n k e
      | .rawWrite => s.stageAt n k e.raw
      | _ =>
        match e.pool with
        | some i =>
          (match s.entry i with
            | some q => s.encodePool n k i q
            | none => s.stageAt n k [])
        | none => s.stageAt n k []

/-- Fill the store of a sub-channel. DESIGN CHOICE, log entry 8. -/
def State.fillStore (s : State) (n : Nat) : State :=
  let s := repeatS (fun s => s.takeIntake n) 64 s
  let s := repeatS (fun s => s.feedMaint n) 32 s
  let s := repeatS (fun s => s.takeMaint n) 32 s
  let s := State.dispatchSome n s.ord.undisp.length s
  repeatS (fun s => s.stageOne n) 64 s

/-! ### Turns (R250) -/

/-- Writes in the store: a placeholder counts once it has become a write. -/
def SubCh.writes (c : SubCh) : Nat := (c.store.filter fun e => e.kind.isWrite).length

/-- The turn of this MCLK cycle, the conditions in table order; in `GUST` no read can issue (R435 G3). -/
def State.turn (s : State) (n : Nat) : State :=
  let c := s.sub n
  let r := c.ready
  let reads := s.top.state != .gust
  let wr := r.any fun e => e.kind.isWrite
  let rd := reads && r.any fun e => e.kind.isRead
  let go := if c.write then
      decide (c.writes ≤ s.fld Fld.SCH_CFG.WR_LO) || (reads && c.store.any (fun e => e.kind.isRead && e.aged) && decide (c.turnWr ≥ 8)) ||
        (!wr && rd)
    else
      decide (c.writes ≥ s.fld Fld.SCH_CFG.WR_HI) || c.store.any (fun e => e.kind.isWrite && e.aged) || (!rd && wr)
  if go then (s.setSub n { c with write := !c.write, turnWr := 0 }).bump (Reg.SCH_TURNS n) else s

/-! ### Column commands (R240 to R243, R247, R339, R341) -/

/-- A write of the line issued within the last `ALERT_WIN` MCLK cycles (R341). -/
def State.recentWrite (s : State) (n : Nat) (l : Loc) : Bool :=
  let c := s.sub n
  c.retry.any fun r => sameLine r.loc l && decide (c.ck ≤ r.ck + 4 * s.fld Fld.ECC_ALERTCFG.ALERT_WIN)

/-- The column command of an entry can issue now: at which CK. -/
def State.columnAt (s : State) (n : Nat) (e : StoreEntry) : Option Nat :=
  let c := s.sub n
  match c.bank (bankOf e.loc) with
  | some o =>
    if o.row != e.loc.row || c.fallback.contains (16 * e.loc.rank + e.loc.die) then Option.none
    else if decide (c.debtOf e.loc.rank e.loc.die e.loc.bank ≥ s.soft) && decide (o.softCols ≥ 2) then Option.none
    else if e.kind.isRead && s.recentWrite n e.loc then Option.none
    else s.slotFor n (if e.kind.isWrite then .wr else .rd) e.loc
  | none => Option.none

/-- The first aged entry of a list, else its first entry. -/
def agedFirst (l : List StoreEntry) : Option StoreEntry := (l.find? (·.aged)) <|> l.head?

/-- The column command the pick chooses: of the current direction, aged first, oldest eligible (R248, R249). -/
def State.pickColumn (s : State) (n : Nat) : Option (StoreEntry × Nat) :=
  let c := s.sub n
  let can := c.ready.filter fun e => e.kind.isWrite == c.write && (s.columnAt n e).isSome
  (agedFirst can).bind fun e => (s.columnAt n e).map fun ck => (e, ck)

/-- Auto-precharge is left out only while a younger eligible hit waits and the row has commands left (R247, R252). -/
def State.autoPre (s : State) (n : Nat) (e : StoreEntry) (o : OpenBank) : Bool :=
  let c := s.sub n
  let younger := (c.store.dropWhile (· != e)).drop 1
  let hit := c.ready.any fun x => x != e && younger.contains x && bankOf x.loc == bankOf e.loc && x.loc.row == e.loc.row
  let softNow := decide (c.debtOf e.loc.rank e.loc.die e.loc.bank ≥ s.soft)
  !(hit && decide (o.hits + 1 < s.fld Fld.SCH_CFG.ROW_HIT_MAX)) || (softNow && decide (o.softCols + 1 ≥ 2))

/-- The column command itself: the bank after it, and its place in the history. -/
def State.column (s : State) (n : Nat) (e : StoreEntry) (ck : Nat) : State :=
  let b := bankOf e.loc
  match (s.sub n).bank b with
  | some o =>
    let auto := s.autoPre n e o
    let softNow := decide ((s.sub n).debtOf e.loc.rank e.loc.die e.loc.bank ≥ s.soft)
    let o' : OpenBank := { o with hits := o.hits + 1, softCols := if softNow then o.softCols + 1 else o.softCols }
    (s.onSub n fun c => c.setBank b (if auto then Option.none else some o')).issue n
      (if e.kind.isWrite then .wr else .rd) e.loc auto ck
  | none => s

/-- A written codeword reaches DRAM and the retry buffer of 32 writes (R339). -/
def State.putCodeword (s : State) (n : Nat) (e : StoreEntry) (ck : Nat) (cw : List Byte) : State :=
  ((s.driveWrite n e.loc cw).store n e.loc cw).onSub n fun c => { c with
    turnWr := c.turnWr + 1,
    retry := (c.retry ++ [({ ck := ck, addr := e.addr, loc := e.loc, codeword := cw } : RetryRec)]).drop (c.retry.length + 1 - 32) }

/-- The write of a pool entry issues with the codeword that its staging holds, and its write buffer line is freed (R34, R356). -/
def State.issueWrite (s : State) (n : Nat) (e : StoreEntry) (i : Nat) (ck : Nat) : State :=
  match s.entry i with
  | some q =>
    let s := s.putCodeword n e ck e.codeword
    if q.dual then s.onEntry i fun q => { q with dual := false }
    else
      let s := (s.onEntry i fun q => { q with hasLine := false, issued := true }).tryFree i
      (State.pumpAgents s.ord.agentQ.length s).watchPace
  | none => s

/-- A correction issues, unless it has been superseded (R243). -/
def State.issueCorrection (s : State) (n : Nat) (e : StoreEntry) (ck : Nat) : State :=
  match (s.sub n).corr.find? fun x => x.addr == e.addr && x.spare == e.copy with
  | some x => (if x.line.isSome then s.putCodeword n e ck e.codeword else s).freeCorr n x
  | none => s

/-- Take an entry out of the store. -/
def SubCh.drop (c : SubCh) (e : StoreEntry) : SubCh := { c with store := c.store.erase e }

/-- Issue the column command of an entry (R240 to R243). -/
def State.issueColumn (s : State) (n : Nat) (e : StoreEntry) (ck : Nat) : State :=
  match e.kind with
  | .read | .scrub | .rebuildRead | .spareRead =>
    let s := s.column n e ck
    let s := if e.kind == .scrub then s.bump (Reg.SCH_SCRUBLINES n) else s
    (s.drive n e.loc (s.symbols n e.loc)).onSub n fun c => { c.drop e with flights := c.flights ++ [⟨e, s.symbols n e.loc⟩] }
  | .oldRead =>
    let s := s.column n e ck
    (s.drive n e.loc (s.symbols n e.loc)).onSub n fun c => { c with
      store := c.store.map fun x => if x == e then { x with kind := .holder } else x,
      flights := c.flights ++ [⟨e, s.symbols n e.loc⟩] }
  | .write =>
    let s := (s.column n e ck).onSub n fun c => c.drop e
    match e.pool with
    | some i => s.issueWrite n e i ck
    | none => s
  | .correction => ((s.column n e ck).onSub n fun c => c.drop e).issueCorrection n e ck
  | .formatWrite => ((s.column n e ck).onSub n fun c => c.drop e).putCodeword n e ck e.codeword
  | .rawWrite => (((s.column n e ck).onSub n fun c => c.drop e).putCodeword n e ck e.codeword).settleCopy e.copy
  | .holder => s

/-- A probe of the line index; four are answered in a core cycle (R242). None where no probe is left. -/
def State.probeLine (s : State) : Option State :=
  if s.ord.probes ≥ 4 then Option.none else some { s with ord := { s.ord with probes := s.ord.probes + 1 } }

/-- The index of the first rebuild read that stands at the head of its bank queue and is to be probed (R242). -/
def toProbe (k : Nat) (older : List StoreEntry) : List StoreEntry → Option Nat
  | [] => Option.none
  | e :: r =>
    if e.kind == .rebuildRead && !e.probed && !older.any fun o => bankOf o.loc == bankOf e.loc then some k
    else toProbe (k + 1) (older ++ [e]) r

/-- Probe one rebuild read: with a line held it goes to the tail of its bank queue, else it may issue (R226, R242). -/
def State.probeOne (s : State) (n : Nat) : Option State :=
  let c := s.sub n
  (toProbe 0 [] c.store).bind fun k => (c.store[k]?).bind fun e =>
    match s.probeLine with
    | none => Option.none
    | some s =>
      let held := s.lineHeld e.addr
      let store := if held then c.store.eraseIdx k ++ [e] else c.store.modify k fun e => { e with probed := true }
      some (s.onSub n fun c => { c with store := store })

/-- Corrections that have been superseded leave the store, and rebuild reads at the head of their queue are probed (R242, R243). -/
def State.probe (s : State) (n : Nat) : State :=
  let c := s.sub n
  let dead := c.store.filter fun e => e.kind == .correction && c.corr.any fun x => x.addr == e.addr && x.spare == e.copy && x.superseded
  repeatS (fun s => s.probeOne n) 4 (dead.foldl (fun s e => s.dropCorrection n e) s)

/-! ### Refresh (R251 to R253) -/

/-- Lower the debts of a die by one all-bank refresh, none below −AHEAD. -/
def State.payAll (s : State) (n rank die : Nat) : State :=
  s.onSub n fun c => (List.range 4).foldl (fun c b => c.setDebt rank die b (max (c.debtOf rank die b - 1) (-s.ahead))) c

/-- One step of the all-bank fallback of a die, if one can issue now; a rank in power-down leaves it first (R253, R256). -/
def State.fallbackStep (s : State) (n k : Nat) : Option State :=
  let c := s.sub n
  let rank := k / 16
  let die := k % 16
  if c.pd.contains rank then Option.none
  else
  match (dieBanks rank die).find? fun b => (c.bank b).isSome && (s.slotFor n .pre (locOfBank b)).isSome with
  | some b =>
    (s.slotFor n .pre (locOfBank b)).map fun ck => (s.onSub n fun c => c.setBank b Option.none).issue n .pre (locOfBank b) false ck
  | none =>
    if !c.allClosed (dieBanks rank die) then Option.none
    else
      let l : Loc := { rank := rank, die := die }
      (s.slotFor n .refab l).map fun ck =>
        let s := (s.issue n .refab l false ck).payAll n rank die
        if (List.range 4).all fun b => decide ((s.sub n).debtOf rank die b < s.soft) then
          s.onSub n fun c => { c with fallback := c.fallback.filter (· != k) }
        else s

/-- Refreshes that may be placed (R252): owed ones first, then ones into idle banks. DESIGN CHOICE, log entry 8. -/
def State.refsbChoices (s : State) (n : Nat) : List Loc :=
  let c := s.sub n
  let all := (List.range 2).flatMap fun r => s.dies.flatMap fun d => (List.range 4).map fun b => ({ rank := r, die := d, bank := b } : Loc)
  let live := all.filter fun l => s.awake n l.rank && !c.pd.contains l.rank && !c.fallback.contains (16 * l.rank + l.die) &&
    c.allClosed (indexBanks l.rank l.die l.bank)
  let debt := fun (l : Loc) => c.debtOf l.rank l.die l.bank
  (live.filter fun l => decide (debt l ≥ s.soft)) ++
    live.filter fun l => decide (debt l < s.soft) && decide (-s.ahead < debt l) &&
      (indexBanks l.rank l.die l.bank).all fun b => !c.active b

/-- Issue a same-bank refresh, if one is ready (R252): at most four dies of a package rank refresh at once.
DESIGN CHOICE, log entry 8. -/
def State.refsb (s : State) (n : Nat) : Option State :=
  let c := s.sub n
  (s.refsbChoices n).findSome? fun l =>
    match s.slotFor n .refsb l with
    | some ck =>
      if (s.refreshing n l.rank ck).length < 4 then
        let s := (s.issue n .refsb l false ck).bump (Reg.SCH_REFSB n)
        some (s.onSub n fun x => x.setDebt l.rank l.die l.bank (c.debtOf l.rank l.die l.bank - 1))
      else Option.none
    | none => Option.none

/-! ### Activates (R249, R254) -/

/-- Rebuild and format hold less than their share of the last 64 activates (R254). -/
def State.underFloor (s : State) (n : Nat) : Bool :=
  decide (((s.sub n).acts.filter id).length < (s.mir.share * 64 + 99) / 100)

/-- Scrub is more than 4,096 reads behind (R257). -/
def SubCh.behind (c : SubCh) : Bool := decide (c.owed > 4096)

/-- The order in which Eddy searches the classes (R254). -/
def State.classOrder (s : State) (n : Nat) : List WorkClass :=
  (if (s.sub n).behind then [.scrub] else []) ++ (if s.underFloor n then [.rebuild] else []) ++ [.host, .rebuild, .scrub]

/-- An entry's bank can be activated now: at which CK. -/
def State.actAt (s : State) (n : Nat) (e : StoreEntry) : Option Nat :=
  let c := s.sub n
  if (c.bank (bankOf e.loc)).isSome || s.blocked n e.loc || !s.serves n e.loc.rank || c.pd.contains e.loc.rank then Option.none
  else s.slotFor n .act e.loc

/-- Bank queues in Eddy's order from the pointer. -/
def distance (ptr b : Nat) : Nat := (b + 2048 - ptr - 1) % 1024

/-- The head of each bank for a class and direction that can be activated now; Eddy takes the nearest after the
pointer. -/
def State.eddyPick (s : State) (n : Nat) (cls : WorkClass) (write : Bool) : Option (StoreEntry × Nat) :=
  let c := s.sub n
  let heads := c.ready.filter fun e => e.kind.cls == cls && e.kind.isWrite == write
  let first := heads.filter fun e => (heads.find? fun x => bankOf x.loc == bankOf e.loc) == some e
  (first.foldl (fun (b : Option (StoreEntry × Nat)) e =>
    match s.actAt n e with
    | some ck =>
      (match b with
        | some x => if distance c.ptr (bankOf e.loc) < distance c.ptr (bankOf x.1.loc) then some (e, ck) else b
        | none => some (e, ck))
    | none => b) Option.none)

/-- Eddy (R249): an aged head first, else the classes in order, in the current direction and then in the other. -/
def State.eddy (s : State) (n : Nat) : Option (StoreEntry × Nat) :=
  let c := s.sub n
  let old := c.ready.filter fun e => e.aged
  let aged := old.findSome? fun e => (s.actAt n e).map fun ck => (e, ck)
  let search := fun (w : Bool) => (s.classOrder n).findSome? fun k => s.eddyPick n k w
  aged <|> search c.write <|> search (!c.write)

/-- Activate a bank: the pointer moves to it. -/
def State.activate (s : State) (n : Nat) (e : StoreEntry) (ck : Nat) : State :=
  let b := bankOf e.loc
  let maint := e.kind.cls != .host
  let s := s.onSub n fun c => { c.setBank b (some { row := e.loc.row }) with
    ptr := b, acts := ((e.kind.cls == .rebuild) :: c.acts).take 64 }
  let s := s.issue n .act { e.loc with col := 0 } false ck
  if maint then s.bump (Reg.SCH_MAINTACT n) else s

/-! ### Power-down (R256) -/

/-- The conditions under which a rank's idle time runs (R256). -/
def State.pdConditions (s : State) (n rank : Nat) : Bool :=
  let c := s.sub n
  s.flag Fld.SCH_PDCFG.PD_EN && s.serves n rank && !c.pd.contains rank &&
    !(c.store ++ c.maint).any (fun e => e.loc.rank == rank) && c.allClosed (rankBanks rank) &&
    (s.refreshing n rank c.ck).isEmpty && !c.fallback.any fun k => k / 16 == rank

/-- Count the idle MCLK cycles of each rank. -/
def State.countIdle (s : State) (n : Nat) : State :=
  (List.range 2).foldl (fun s r =>
    let v := if s.pdConditions n r then Tab.get (fun _ => 0) (s.sub n).idle r + 1 else 0
    s.onSub n fun c => { c with idle := Tab.set (fun _ => 0) c.idle r v }) s

/-- A rank refreshed after an exit owes nothing more. -/
def State.cleared (s : State) (n rank : Nat) : Bool :=
  s.dies.all fun d => (List.range 4).all fun b => decide ((s.sub n).debtOf rank d b ≤ 0)

/-- Enter power-down, if a rank is ready. -/
def State.powerDown (s : State) (n : Nat) : Option State :=
  (List.range 2).findSome? fun r =>
    let c := s.sub n
    if s.pdConditions n r && decide (Tab.get (fun _ => 0) c.idle r ≥ 4 * s.fld Fld.SCH_PDCFG.PD_IDLE) &&
        (!c.refClear.contains r || s.cleared n r) && s.top.trigger.isNone then
      let l : Loc := { rank := r }
      (s.slotFor n .pde l).map fun ck =>
        (s.issue n .pde l false ck).onSub n fun c => { c with pd := c.pd ++ [r], refClear := c.refClear.filter (· != r) }
    else Option.none

/-- Begin the exit of a rank from power-down (R256): its PDX waits for a slot in which every timing is met (R246). -/
def State.exitPd (s : State) (n rank : Nat) : State :=
  let c := s.sub n
  if c.pd.contains rank && !c.pdExit.contains rank then
    let owes := s.dies.any fun d => (List.range 4).any fun b => decide (c.debtOf rank d b ≥ s.soft)
    s.onSub n fun c => { c with
      pdExit := c.pdExit ++ [rank], refClear := if owes && !c.refClear.contains rank then c.refClear ++ [rank] else c.refClear }
  else s

/-- Issue the PDX of a rank whose exit has begun, if one can issue now. -/
def State.pdxStep (s : State) (n : Nat) : Option State :=
  (s.sub n).pdExit.findSome? fun r =>
    (s.slotFor n .pdx { rank := r }).map fun ck =>
      (s.issue n .pdx { rank := r } false ck).onSub n fun c => { c with
        pd := c.pd.filter (· != r), pdExit := c.pdExit.filter (· != r) }

/-! ### Commands for empty slots (R255, R304) -/

/-- An MR4 read or a ZQ start is to be sent in an empty command slot. -/
def State.askSlot (s : State) (n : Nat) (k : CmdKind) (rank : Nat) : State :=
  s.onSub n fun c => if c.asked.contains (k, rank) then c else { c with asked := c.asked ++ [(k, rank)] }

/-- Send one of the commands that wait for an empty slot. -/
def State.askedStep (s : State) (n : Nat) : Option State :=
  (s.sub n).asked.findSome? fun q =>
    if !s.serves n q.2 || (s.sub n).pd.contains q.2 then Option.none
    else (s.slotFor n q.1 { rank := q.2 }).map fun ck =>
      (s.issue n q.1 { rank := q.2 } false ck).onSub n fun c => { c with asked := c.asked.erase q }

/-! ### Replay (R340) -/

/-- One command of an alert replay: the next suspect's activate where its bank is closed, a precharge where another row
is open, then its write with auto-precharge and its codeword unchanged. R340 names no precharge there, and R247 none but for a refresh
and for entry to power-down or self-refresh. DESIGN CHOICE, log entry 36. -/
def State.replayStep (s : State) (n : Nat) : State :=
  let c := s.sub n
  match c.replayLeft with
  | [] => s
  | r :: rest =>
    let b := bankOf r.loc
    match c.bank b with
    | none =>
      (match s.slotFor n .act r.loc with
        | some ck => (s.onSub n fun c => c.setBank b (some { row := r.loc.row })).issue n .act { r.loc with col := 0 } false ck
        | none => s)
    | some o =>
      if o.row == r.loc.row then
        match s.slotFor n .wr r.loc with
        | some ck =>
          let s := (((s.onSub n fun c => c.setBank b Option.none).issue n .wr r.loc true ck).driveWrite n r.loc r.codeword).store n r.loc r.codeword
          s.onSub n fun c => { c with
            replayLeft := rest, retry := (c.retry.filter fun x => x != r) ++ [{ r with ck := ck, replays := r.replays + 1 }] }
        | none => s
      else
        match s.slotFor n .pre r.loc with
        | some ck => (s.onSub n fun c => c.setBank b Option.none).issue n .pre r.loc false ck
        | none => s

/-- A command of step L1 of a Lull (R384): column commands to open rows up to `ROW_HIT_MAX`, then precharges. -/
def State.entryCycle (s : State) (n : Nat) : State :=
  if (s.clk.planned || s.clk.emerg != 0) && !s.clk.entered then
    let c := s.sub n
    let col := (s.pickColumn n).filter fun p => match c.bank (bankOf p.1.loc) with
      | some o => decide (o.hits < s.fld Fld.SCH_CFG.ROW_HIT_MAX)
      | none => false
    match col with
    | some (e, ck) => s.issueColumn n e ck
    | none =>
      match (c.banks.map (·.1)).find? fun b => (s.slotFor n .pre (locOfBank b)).isSome with
      | some b =>
        (match s.slotFor n .pre (locOfBank b) with
          | some ck => (s.onSub n fun c => c.setBank b Option.none).issue n .pre (locOfBank b) false ck
          | none => s)
      | none => s
  else s

/-! ### The commands of a scheduler -/

/-- `SCHEDULE_DISPATCH` (R31, R239). -/
def execScheduleDispatch (sc : Fin 16) (s : State) : Host.Outcome State Fault Refusal :=
  .next (match s.dispatchOne sc.val with
    | some s' => s'
    | Option.none => s)

/-- A cycle in `GUST` (R261, R435 G3): no activate and no read; refresh continues, eligible writes to open rows issue in write
mode, then banks are precharged. DESIGN CHOICE, log entry 8. -/
def State.gustCycle (s : State) (n : Nat) : State :=
  match (s.sub n).fallback.findSome? fun k => s.fallbackStep n k with
  | some s' => s'
  | Option.none =>
    match (if (s.sub n).write then s.pickColumn n else Option.none) with
    | some (e, ck) => s.issueColumn n e ck
    | Option.none =>
      match s.refsb n with
      | some s' => s'
      | Option.none =>
        match ((s.sub n).banks.map (·.1)).findSome? fun b => (s.slotFor n .pre (locOfBank b)).map fun ck => (b, ck) with
        | some (b, ck) => (s.onSub n fun c => c.setBank b Option.none).issue n .pre (locOfBank b) false ck
        | Option.none => s

/-- The command of one MCLK cycle: the first choice of R249 that yields one, else what waits for an empty slot. DESIGN CHOICE, log
entry 8. -/
def State.choose (s : State) (n : Nat) : State :=
  match (s.sub n).fallback.findSome? fun k => s.fallbackStep n k with
  | some s' => s'
  | Option.none =>
    match s.pickColumn n with
    | some (e, ck) => s.issueColumn n e ck
    | Option.none =>
      match s.refsb n with
      | some s' => s'
      | Option.none =>
        match s.eddy n with
        | some (e, ck) => s.activate n e ck
        | Option.none =>
          match s.powerDown n with
          | some s' => s'
          | Option.none => (s.askedStep n).getD s

/-- `POWER_DOWN_EXIT` (R256, R261): a request for the rank has entered the intake queue, where it may have moved on into the store, a
counter has reached `SOFT`, or a power-loss trigger is registered. -/
def execPowerDownExit (sc : Fin 16) (rank : Fin 2) (s : State) : Host.Outcome State Fault Refusal :=
  .next (
    let n := sc.val
    let r := rank.val
    let c := s.sub n
    let asked := c.intake.any fun i => match s.entry i with
      | some e => (s.siteOf e.addr).2.rank == r
      | none => false
    let asked := asked || c.store.any fun e => e.loc.rank == r
    let owes := s.dies.any fun d => (List.range 4).any fun b => decide (c.debtOf r d b ≥ s.soft)
    if asked || owes || s.top.trigger.isSome then s.exitPd n r else s)

/-- `ENTRY_AGED` (R248): the store entry of that index has waited `AGE_MAX`. -/
def execEntryAged (sc : Fin 16) (index : Byte) (s : State) : Host.Outcome State Fault Refusal :=
  .next (
    let n := sc.val
    match (s.sub n).store[index.toNat]? with
    | some e =>
      if e.aged then s
      else (s.onSub n fun c => { c with store := c.store.modify index.toNat fun e => { e with aged := true } }).bump (Reg.SCH_AGED n)
    | none => s)

/-- A sub-channel that the training engine holds makes a die's refresh before a tick would bring a counter to 8 (R276). What passes
between two ticks is a matter of the commands: the refresh is made with the tick. DESIGN CHOICE, log entry 8. -/
def State.timelyRefresh (s : State) (n r d : Nat) : State :=
  if (s.training n).step != 0 && (List.range 4).any (fun b => decide ((s.sub n).debtOf r d b ≥ 7)) then
    (s.issue n .refab { rank := r, die := d } false (s.sub n).ck).payAll n r d
  else s

/-- The engine leaves the rank's device training mode at every tick, so at least once in every tREFI2 (R276). -/
def State.leaveMode (s : State) (n r : Nat) : State :=
  let t := s.training n
  if t.modal && t.rank == r then s.setTraining n { t with left := true } else s

/-- `REFRESH_TICK` (R251, R253, R276): the die's four counters rise by one, none beyond 8; one at `HARD` starts the
fallback, for which the rank leaves power-down. -/
def execRefreshTick (sc : Fin 16) (rank : Fin 2) (die : BitVec 4) (s : State) : Host.Outcome State Fault Refusal :=
  .next (
    let n := sc.val
    let r := rank.val
    let d := die.toNat
    if s.awake n r && s.dies.contains d then
      let s := (s.leaveMode n r).timelyRefresh n r d
      let s := s.onSub n fun c =>
        (List.range 4).foldl (fun c b => c.setDebt r d b (min 8 (c.debtOf r d b + 1))) c
      let c := s.sub n
      let k := 16 * r + d
      if (List.range 4).any (fun b => decide (c.debtOf r d b ≥ s.hard)) && !c.fallback.contains k then
        let s := (s.setSub n { c with fallback := c.fallback ++ [k] }).exitPd n r
        (s.bump (Reg.SCH_REFAB n)).event 0x5001 ((n <<< 28) + (r <<< 4) + d)
      else s
    else s)

/-- Multiplier code of a rank in `SCH_REFSTAT`. -/
def rateFld (n rank : Nat) : Fld := if rank = 0 then Fld.SCH_REFSTAT.RATE0 n else Fld.SCH_REFSTAT.RATE1 n

/-- Set a rank's multiplier, reported as event 0x5002 (R255). -/
def State.setRate (s : State) (n rank code : Nat) : State :=
  if s.fld (rateFld n rank) = code then s
  else (s.setFld (rateFld n rank) code).event 0x5002 ((n <<< 28) + (rank <<< 4) + code)

/-- A report that calls for twice the nominal rate. -/
def hotReport : Mr4Report → Bool
  | .nominal => false
  | _ => true

/-- A report logged as event 0x5003. -/
def oddReport : Mr4Report → Bool
  | .above | .failed => true
  | _ => false

/-- The packages whose report is out of range or missing. -/
def oddPackages (l : List Mr4Report) : List Nat :=
  (List.range 10).filter fun k => oddReport (l.getD k .failed)

/-- `MR4_POLL` (R255): the ten packages of a rank report; a missing report counts as failed. A decrease waits for a
second poll that agrees. The command ends one poll and begins the next, whose read waits for an empty slot. DESIGN CHOICE, log
entry 42. -/
def execMr4Poll (sc : Fin 16) (rank : Fin 2) (reports : List Mr4Report) (s : State) : Host.Outcome State Fault Refusal :=
  .next (
    let n := sc.val
    let r := rank.val
    if s.serves n r then
      let s := s.askSlot n .mr4 r
      let s := (oddPackages reports).foldl (fun s k => s.event 0x5003 ((n <<< 28) + (r <<< 4) + k)) s
      let hot := (List.range 10).any fun k => hotReport (reports.getD k .failed)
      let low := (s.sub n).lowPoll
      if hot then (s.onSub n fun c => { c with lowPoll := c.lowPoll.filter (· != r) }).setRate n r 1
      else if s.fld (rateFld n r) = 0 then s
      else if low.contains r then (s.onSub n fun c => { c with lowPoll := c.lowPoll.filter (· != r) }).setRate n r 0
      else s.onSub n fun c => { c with lowPoll := c.lowPoll ++ [r] }
    else s)

/-! ### Scrub (R242, R257 to R259, R363) -/

/-- Scrub reads the rank: it is trained and not retired (R257). -/
def State.scrubbable (s : State) (n r : Nat) : Bool := (s.rank (2 * n + r)).trained && !s.gone (2 * n + r)

/-- Some rank of the sub-channel is scrubbed. -/
def State.scrubs (s : State) (n : Nat) : Bool := (List.range (2 ^ s.geom.rBits)).any fun r => s.scrubbable n r

/-- Lines of one row across the ranks of a sub-channel. The positions of a pass run over every populated rank, so that a rank which
leaves service or comes back in the middle of a pass moves no other line's position. DESIGN CHOICE, log entry 8. -/
def State.scrubRow (s : State) : Nat := 128 * 4 * 8 * 2 ^ s.geom.dBits * 2 ^ s.geom.rBits

/-- The device location of a position (R257): the column fastest, the row slowest. -/
def State.scrubLoc (s : State) (pos : Nat) : Loc :=
  let d := 2 ^ s.geom.dBits
  let r := 2 ^ s.geom.rBits
  { col := pos % 128, bank := pos / 128 % 4, bg := pos / 512 % 8, die := pos / 4096 % d,
    rank := pos / (4096 * d) % r, row := pos / (4096 * d * r) }

/-- The mapped pair region that a local region holds. -/
def State.pairRegion (s : State) (localR : Nat) : Option Nat :=
  s.mappedRegions.find? fun r => rtLocal (s.rtEntry r) == localR

/-- A line holds contents that scrub findings count in (R363): of a held region, or of the reserve outside the scratch
range, which starts at byte offset 0x0200_0000 of each copy (R274). -/
def State.holdsContents (s : State) (a : Nat) : Bool :=
  if a >>> 24 == s.geom.regions - 1 then decide (64 * (a % 2 ^ 23) < 0x02000000)
  else
    match s.pairRegion (a >>> 24) with
    | some r => !s.rtFailed r && rtSync (s.rtEntry r) < 4
    | none => false

/-- The scrub record of a sub-channel (R259). -/
def SubCh.scrubRecord (c : SubCh) : Line :=
  BitVec.ofNat 512 (0x53435255 + ((c.pos % 2 ^ 35) <<< 32) + ((min 0xFFFF c.passes) <<< 72) + ((c.start % 2 ^ 64) <<< 96) +
    (c.seq.toNat <<< 160))

/-- Write a sub-channel's scrub record through (R259). -/
def State.writeScrub (s : State) (n : Nat) : State :=
  if s.top.trigger.isSome then s
  else
    let s := s.onSub n fun c => { c with seq := c.seq + 1 }
    s.reserveWrite (0x320000 + 64 * n) (s.sub n).scrubRecord

/-- The position moves on; at the end of the walk the pass count rises (R257). -/
def State.scrubTo (s : State) (n pos : Nat) : State :=
  let s := s.onSub n fun c => { c with pos := pos }
  if pos ≥ s.scrubRow * s.geom.rows then
    let s := s.onSub n fun c => { c with pos := 0, passes := c.passes + 1, start := s.nowNs }
    (s.event 0x5004 ((n <<< 28) + min 0xFFFF (s.sub n).passes)).writeScrub n
  else s

/-- The lines in this row of a rank that is retired or not trained are skipped (R257). -/
def State.skipRetired (s : State) (n : Nat) : State :=
  let pos := (s.sub n).pos
  let lines := 4096 * 2 ^ s.geom.dBits
  if !s.scrubbable n (s.scrubLoc pos).rank then s.scrubTo n ((pos / lines + 1) * lines) else s

/-- A scrub read has been made; the record is written at every 65,536th (R259). -/
def State.noteScrub (s : State) (n : Nat) : State :=
  let s := s.onSub n fun c => { c with scrubbed := c.scrubbed + 1 }
  if (s.sub n).scrubbed ≥ 65536 then (s.onSub n fun c => { c with scrubbed := 0 }).writeScrub n else s

/-- Make one of the scrub reads owed, if the store and the correction table have room; it is skipped if its line is held
(R242, R243, R257). -/
def State.scrubRead (s : State) (n : Nat) : Option State :=
  let c := s.sub n
  if c.owed = 0 || c.store.length > 224 || c.corr.length ≥ 8 then Option.none
  else
    let s := (s.skipRetired n).skipRetired n
    let pos := (s.sub n).pos
    let l := s.scrubLoc pos
    let made := fun (s : State) => (s.onSub n fun c => { c with owed := c.owed - 1 }).scrubTo n (pos + 1)
    match s.scrubAddr n l with
    | none => some (made s)
    | some a =>
      match s.probeLine with
      | none => Option.none
      | some s =>
        some (if s.lineHeld a then (made s).bump (Reg.SCH_SCRUBSKIP n)
          else
            let s := (made s).onSub n fun c => { c with corr := c.corr ++ [{ addr := a, loc := l }] }
            (s.enter n { kind := .scrub, addr := a, loc := l }).noteScrub n)

/-- `SCRUB_READ_DUE` (R242, R243, R257): one more read is owed; what is owed is made as room allows. -/
def execScrubReadDue (sc : Fin 16) (s : State) : Host.Outcome State Fault Refusal :=
  .next (
    let n := sc.val
    if s.fld Fld.SCH_SCRUBINT.INTERVAL = 0 || s.top.trigger.isSome || !s.scrubs n then s
    else repeatS (fun s => s.scrubRead n) 8 (s.onSub n fun c => { c with owed := c.owed + 1 }))

end Sys2Proof.Machine
end

