-- ==== Sys2Proof/Machine/Calibration.lean ====
section
/-!
DEFINITION. Calibration in service (R294 to R317): the calibration record and its shadow, the runs of a sub-channel with
their measurements, plausibility and Breeze steps, and the calibration restore.
-/

namespace Sys2Proof.Machine

/-! ### The calibration record (R309) -/

/-- A 16-bit little-endian word of a record. -/
def recWord (r : List Byte) (off : Nat) : Nat := (r.getD off 0).toNat + 256 * (r.getD (off + 1) 0).toNat

/-- Write bytes from an offset on. -/
def recPut (r : List Byte) (off : Nat) (b : List Byte) : List Byte := r.take off ++ b ++ r.drop (off + b.length)

/-- A setting of a record: its byte offset and its width in bits, 8, 7, 11 or 12. -/
structure Element where
  off  : Nat
  bits : Nat
  deriving DecidableEq, Repr

def Element.get (e : Element) (r : List Byte) : Nat := recWord r e.off % 2 ^ e.bits

def Element.put (e : Element) (r : List Byte) (v : Nat) : List Byte :=
  let w := recWord r e.off
  recPut r e.off (leBytes (w - w % 2 ^ e.bits + v % 2 ^ e.bits) 2)

/-- Read delay and receiver Vref of bit `b`, its write delay, and the byte with its samplers. -/
def elRdDly (b : Nat) : Element := ⟨0x90 + 16 * b, 8⟩
def elRdVref (b : Nat) : Element := ⟨0x91 + 16 * b, 7⟩
def elWrDly (b : Nat) : Element := ⟨0x93 + 16 * b, 8⟩
def offSampler (b : Nat) : Nat := 0x92 + 16 * b
/-- Receive enable, DQS write delay and VrefDQ of nibble `k`. -/
def elRcvEn (k : Nat) : Element := ⟨0x40 + 8 * k, 11⟩
def elWrDqs (k : Nat) : Element := ⟨0x42 + 8 * k, 11⟩
def elVrefDq (k : Nat) : Element := ⟨0x45 + 8 * k, 7⟩
/-- Segment mask of pin `p` (R298). -/
def elSegs (p : Nat) : Element := ⟨0x310 + 2 * p, 12⟩

/-- The settings a run measures (R294). -/
def measuredElements : List Element :=
  ((List.range 40).flatMap fun b => [elRdDly b, elRdVref b]) ++ (List.range 10).map elRcvEn

/-- Delay settings of a record (R308, R312). -/
def delayElements : List Element :=
  (List.range 16).map (fun i => ⟨0x20 + i, 8⟩) ++ (List.range 10).map elRcvEn ++ (List.range 10).map elWrDqs ++
    (List.range 40).map elRdDly ++ (List.range 40).map elWrDly

/-- Vref settings of a record (R312). -/
def vrefElements : List Element :=
  (List.range 10).map (fun k => ⟨0x30 + k, 8⟩) ++ (List.range 10).map elVrefDq ++ (List.range 40).map elRdVref

/-- Data sampler of bit `b`. -/
def recDataS (r : List Byte) (b : Nat) : Nat := (r.getD (offSampler b) 0).toNat % 4

/-- A nibble is marked stale in its record (R305). -/
def recStale (r : List Byte) (k : Nat) : Bool := (r.getD (0x45 + 8 * k) 0).getLsbD 7

def recSetStale (r : List Byte) (k : Nat) (b : Bool) : List Byte :=
  r.modify (0x45 + 8 * k) fun x => if b then x ||| 0x80 else x &&& 0x7F

/-- The 1,024 bytes of a record whose first 1,020 are `r` (R309). -/
def recBytes (r : List Byte) : List Byte :=
  let b := (r ++ List.replicate 1020 0).take 1020
  b ++ leBytes (crc32c b).toNat 4

/-- A record of 1,024 bytes with a good `MARKER` and `CRC` (R309). -/
def recGood (b : List Byte) : Bool :=
  b.length == 1024 && ofLeBytes (b.take 4) == 0x434C5243 && ofLeBytes (b.drop 1020) == (crc32c (b.take 1020)).toNat

/-- A line's 64 bytes. -/
def lineBytes (l : Line) : List Byte := leBytes l.toNat 64

/-- Sixteen lines of a record. -/
def recLine (b : List Byte) (i : Nat) : Line := BitVec.ofNat 512 (ofLeBytes ((b.drop (64 * i)).take 64))

def State.setLive (s : State) (p : Nat) (r : List Byte) : State :=
  { s with cal := { s.cal with live := Tab.set (fun _ => []) s.cal.live p r } }

/-- Byte offset of a record in the calibration shadow (R310). -/
def shadowOff (t p : Nat) : Nat := 0x330000 + 0x400 * (32 * t + p)

/-- Write the live record of rank p through, with `SEQ` and `STAMP` brought up to date (R310). -/
def State.writeCal (s : State) (p : Nat) : State :=
  if s.top.trigger.isSome || s.live p = [] then s
  else
    let r := s.live p
    let r := recPut (recPut r 0x14 (leBytes (ofLeBytes ((r.drop 0x14).take 4) + 1) 4)) 8 (leBytes s.nowNs 8)
    let s := s.setLive p r
    let b := recBytes r
    foldS (List.range 16) (fun s i => s.reserveWrite (shadowOff ((r.getD 4 0).toNat / 32 % 4) p + 64 * i) (recLine b i)) s

/-- The bytes of lines read; none where one does not read. -/
def joinLines (l : List (Option Line)) : Option (List Byte) :=
  l.foldl (fun acc x => match acc, x with
    | some b, some l => some (b ++ lineBytes l)
    | _, _ => Option.none) (some [])

/-- The shadow record of rank p and timing set t, as its 1,024 bytes; none where a line does not read. -/
def State.shadowRecord (s : State) (t p : Nat) : State × Option (List Byte) :=
  let r := State.fetchRun (shadowOff t p) 16 s
  (r.1, joinLines r.2)

/-- A shadow record that holds results for rank p and timing set t (R308). -/
def shadowUsable (t p : Nat) (b : List Byte) : Bool :=
  recGood b && (b.getD 5 0).getLsbD 0 && (b.getD 4 0).toNat % 128 == p / 2 + 16 * (p % 2) + 32 * t

/-! ### What the ranks of a sub-channel share (R294, R297, R298) -/

/-- The key of a sampler. -/
def samplerKey (n b k : Nat) : Nat := (40 * n + b) * 4 + k

def State.cellsOf (s : State) (n b k : Nat) : List (BitVec 7) := Tab.get (fun _ => []) s.cal.cells (samplerKey n b k)

/-- A sampler is usable: fewer than three of its cells are bad (R297). -/
def State.usable (s : State) (n b k : Nat) : Bool := (s.cellsOf n b k).length < 3

/-- The usable samplers of a bit, as a mask. -/
def State.usableMask (s : State) (n b : Nat) : Nat := maskOf ((List.range 4).filter fun k => s.usable n b k)

/-- A record with the sampler fields of bit `b` brought up to date. -/
def State.samplerFields (s : State) (n b : Nat) (r : List Byte) (heldRuns : Nat) : List Byte :=
  let ds := recDataS r b
  let r := recPut r (offSampler b)
    [BitVec.ofNat 8 (ds + (s.usableMask n b <<< 2) + (min 3 (heldRuns / 16) <<< 6))]
  let ce := (s.cellsOf n b ds).take 2
  let cell := fun (i : Nat) => match ce[i]? with
    | some x => BitVec.ofNat 8 (x.toNat + 128)
    | none => (0 : Byte)
  recPut r (0x9D + 16 * b) [cell 0, cell 1]

/-- The other rank of a sub-channel. -/
def rankPeer (p : Nat) : Nat := if p % 2 = 0 then p + 1 else p - 1

/-- A record with the sampler trims and the segment selections of another. -/
def shareFields (src dst : List Byte) : List Byte :=
  let r := (List.range 40).foldl (fun r b => recPut r (0x99 + 16 * b) ((src.drop (0x99 + 16 * b)).take 4)) dst
  recPut r 0x310 ((src.drop 0x310).take 132)

/-- A record of rank p with what is held of the samplers: which are usable, the spares taken and the runs of the role (R309). -/
def State.withSamplers (s : State) (p : Nat) (r : List Byte) : List Byte :=
  (List.range 40).foldl (fun r b => s.samplerFields (p / 2) b r (Tab.get (fun _ => 0) s.cal.held (40 * p + b))) r

/-- A sampler has one trim and a pin one selection: those in rank p's record go into the other rank's (R294); both records follow the
samplers (R309). -/
def State.share (s : State) (p : Nat) : State :=
  let q := rankPeer p
  if s.live p = [] then s
  else
    let s := s.setLive p (s.withSamplers p (s.live p))
    if s.live q = [] then s else s.setLive q (s.withSamplers q (shareFields (s.live p) (s.live q)))

/-! ### Deriving a record for another timing set (R308) -/

/-- CK in units of 100 MHz of a bin code (R374). -/
def binCk (b : Nat) : Nat := [24, 26, 28, 30, 32, 34, 36, 38, 40, 42, 44].getD b 44

/-- A delay that keeps its time from a CK of `f` to a CK of `g`, to the nearest step. DESIGN CHOICE, log entry 37. -/
def keepTime (f g d : Nat) : Nat := (2 * d * g + f) / (2 * f)

/-- The record derived for timing set `t` (R308). -/
def deriveRecord (r : List Byte) (t f g : Nat) : List Byte :=
  let r := delayElements.foldl (fun r e => e.put r (min (2 ^ e.bits - 1) (keepTime f g (e.get r)))) r
  recPut r 4 [BitVec.ofNat 8 ((r.getD 4 0).toNat % 32 + 32 * t + 128)]

/-- Load and apply the records of timing set `t`, for every trained rank in use (R308, step L6). -/
def State.loadRecords (s : State) (t : Nat) : State :=
  foldS (s.popRanks.filter fun p => (s.rank p).trained && !s.gone p) (fun s p =>
    let f := binCk (s.fld (Fld.CLK_TSET.BIN s.cal.tset))
    let g := binCk (s.fld (Fld.CLK_TSET.BIN t))
    let found := s.shadowRecord t p
    let s := found.1
    (match found.2 with
    | some b => if shadowUsable t p b then s.setLive p (b.take 1020) else s.setLive p (deriveRecord (s.live p) t f g)
    | none => s.setLive p (deriveRecord (s.live p) t f g)).share (p - p % 2)) s

/-! ### Runs (R302 to R307) -/

/-- A run or restore on rank p is abandoned, for the cause in that row of R307: the steps already applied stay, and the
record is written through. -/
def State.abandonCal (s : State) (p row : Nat) : State :=
  match s.run p with
  | some r =>
    let s := ((s.setRun p Option.none).writeCal p).bump Reg.CAL_ABANDONED
    let s := if r.restore then s.endDir 8 else s
    (s.event 0x7003 (((p / 2) <<< 28) + ((p % 2) <<< 4) + row)).pendToDue (p / 2)
  | none => s

/-- Abandon what runs on a sub-channel. -/
def State.abandonSub (s : State) (n row : Nat) : State := (s.abandonCal (2 * n) row).abandonCal (2 * n + 1) row

/-- No other sequence holds the sub-channel, and the hub is in a state in which the engine runs (R303, R307). -/
def State.calFree (s : State) (n : Nat) : Bool :=
  (s.top.state == .join || s.top.state == .service) && !(s.sub n).held && s.top.trigger.isNone

/-- The engine may run (R303). -/
def State.calRuns (s : State) (n : Nat) : Bool := s.calFree n && s.flag Fld.CAL_CFG.CAL_EN

/-- A byte as a signed number. -/
def signed8 (b : Nat) : Int := if b % 256 < 128 then (b % 256 : Nat) else (b % 256 : Nat) - 256

/-- Low eight bits of a signed number. -/
def toByte (i : Int) : Byte := BitVec.ofInt 8 i

/-- A reading of sensor `k`, which serves two sub-channels; one that is missing is not valid (R302, R316). -/
def State.readSensor (s : State) (k : Nat) (t : Option Byte) : State :=
  match t with
  | some t => foldS [2 * k, 2 * k + 1] (fun s n =>
      (s.setFld (Fld.CAL_TEMP.NOW n) t.toNat).setFld (Fld.CAL_TEMP.SENSOR_BAD n) 0) s
  | none =>
    if s.flag (Fld.CAL_TEMP.SENSOR_BAD (2 * k)) then s
    else (foldS [2 * k, 2 * k + 1] (fun s n => s.setFld (Fld.CAL_TEMP.SENSOR_BAD n) 1) s).event 0x7007 k

/-- The temperature of a sub-channel has moved away from its reference (R302). -/
def State.drifted (s : State) (n : Nat) : Bool :=
  !s.flag (Fld.CAL_TEMP.SENSOR_BAD n) &&
    decide ((signed8 (s.fld (Fld.CAL_TEMP.NOW n)) - signed8 (s.fld (Fld.CAL_TEMP.LAST n))).natAbs > s.fld Fld.CAL_CFG.TCAL_DELTA)

/-- `CAL_EVAL` (R302, R303, R308): the eight sensors are read and compared; a run is due too at the first evaluation after a Lull. -/
def execCalEval (temps : List (Option Byte)) (s : State) : Host.Outcome State Fault Refusal :=
  .next (
    let s := foldS (List.range 8) (fun s k => s.readSensor k (temps.getD k Option.none)) s
    if s.top.state == .join || s.top.state == .service then
      let exited := s.cal.exited
      foldS (List.range (2 ^ s.geom.sBits)) (fun s n => if s.drifted n || exited.contains n then s.makeDue n else s)
        { s with cal := { s.cal with exited := [] } }
    else s)

/-- `CAL_RUN_DUE` (R303): the periodic interval, or the second after a rejection, has passed. -/
def execCalRunDue (sc : Fin 16) (s : State) : Host.Outcome State Fault Refusal :=
  .next (if s.top.state == .join || s.top.state == .service then s.makeDue sc.val else s)

/-- Ranks of a sub-channel that a run covers. -/
def State.calRanks (s : State) (n : Nat) : List Nat :=
  [2 * n, 2 * n + 1].filter fun p => (s.rank p).trained && !s.gone p && s.live p != [] && (s.run p).isNone

/-! ### Samplers and segments (R295 to R298) -/

/-- Event 0x7006 of a pin; the manual gives `kind` no codes, so it is a free value. DESIGN CHOICE, log entry 2. -/
def State.switchEvent (s : State) (p pin : Nat) : State :=
  let d := s.draw
  d.2.event 0x7006 (((p / 2) <<< 28) + ((p % 2) <<< 4) + (pin <<< 16) + Config.freeNat d.1 % 4)

/-- The sampler that holds the data role of bit `b` on rank p, if the rank has a record. -/
def State.dataSampler (s : State) (p b : Nat) : Option Nat := if s.live p = [] then Option.none else some (recDataS (s.live p) b)

/-- The roles of a bit's samplers beside rank p's data sampler (R295). The check role rotates from run to run among the samplers that
hold no data role on either rank (R297), unless a cancelled move names its sampler (R296); with two shadows both measure beside the
check, a single one in turn. `turn` has counted this run. DESIGN CHOICE, log entry 37. -/
def State.rolesOf (s : State) (p b : Nat) : Roles :=
  let n := p / 2
  let cand := (List.range 4).filter fun k => some k != s.dataSampler p b && s.usable n b k
  let free := cand.filter fun k => some k != s.dataSampler (rankPeer p) b
  let at' := Tab.get (fun _ => 0) s.cal.turn (40 * n + b) - 1
  let next := free[at' % max 1 free.length]?
  let k := match Tab.get (fun _ => Option.none) s.cal.recheck (40 * n + b) with
    | some x => if free.contains x then some x else next
    | none => next
  match cand with
  | [] => {}
  | [x] => if at' % 2 = 0 then { edge := some x, check := k } else { amp := some x, check := k }
  | [x, y] => { edge := some x, amp := some y, check := k }
  | _ =>
    let o := cand.filter (some · != k)
    { edge := o[0]?, amp := o[1]?, check := k }

/-- Mark a nibble stale, reported as event 0x7004 (R295, R305). -/
def State.markStale (s : State) (p k : Nat) : State :=
  if recStale (s.live p) k then s
  else (s.setLive p (recSetStale (s.live p) k true)).event 0x7004 (((p / 2) <<< 28) + ((p % 2) <<< 4) + (k <<< 8))

/-- Step C1 on rank p: a ZQ start waits for an empty slot, and the roles are assigned; the nibble of a bit with one usable sampler is
marked stale (R295, R304). -/
def State.beginRank (s : State) (p : Nat) : State :=
  let n := p / 2
  let roles := (List.range 40).map fun b => s.rolesOf p b
  let s := s.askSlot n .zq (p % 2)
  let s := foldS ((List.range 10).filter fun k => (List.range 4).any fun i => roles.getD (4 * k + i) {} == {}) (fun s k => s.markStale p k) s
  s.setRun p (some { rank := p % 2, step := .measure, shadows := roles })

/-- A run on a sub-channel begins: the check role passes on, and the candidates of moves cancelled before are to be checked in it
(R295, R296). -/
def State.newRun (s : State) (n : Nat) : State :=
  foldS (List.range 40) (fun s b => { s with cal := { s.cal with
    turn := Tab.set (fun _ => 0) s.cal.turn (40 * n + b) (Tab.get (fun _ => 0) s.cal.turn (40 * n + b) + 1),
    recheck := Tab.set (fun _ => Option.none) s.cal.recheck (40 * n + b) (Tab.get (fun _ => Option.none) s.cal.again (40 * n + b)),
    again := Tab.set (fun _ => Option.none) s.cal.again (40 * n + b) Option.none } }) s

/-- `CAL_RUN_START` (R302, R304 C1): `LAST` takes the temperature of the moment, and the next rank of the run is measured. -/
def execCalRunStart (sc : Fin 16) (temp : Option Byte) (s : State) : Host.Outcome State Fault Refusal :=
  .next (
    let n := sc.val
    if s.calRuns n then
      let begin' := fun (s : State) (p : Nat) =>
        let s := s.readSensor (n / 2) temp
        let s := match temp with
          | some t => s.setFld (Fld.CAL_TEMP.LAST n) t.toNat
          | none => s
        s.beginRank p
      match s.runOf n with
      | some (p, r) => if r.step == .start then begin' s p else s
      | none =>
        if s.cal.due.contains n then
          let s := { s with cal := { s.cal with due := s.cal.due.filter (· != n) } }
          match s.calRanks n with
          | p :: _ => begin' (s.newRun n) p
          | [] => s
        else s
    else s)

/-- The check of bit `b` in a run on rank p (R295, R297): the sampler in the check role takes up to two spares and its offset trim,
which both ranks then use. -/
def State.checkSampler (s : State) (p b : Nat) (ro : Roles) (m : BitMeas) : State :=
  match ro.check with
  | none => s
  | some k =>
    let n := p / 2
    let old := s.cellsOf n b k
    let new := m.bad.eraseDups.filter fun c => !old.contains c
    let all := (old ++ new).take 3
    let spares := min 2 all.length - min 2 old.length
    let s := { s with cal := { s.cal with
      cells := Tab.set (fun _ => []) s.cal.cells (samplerKey n b k) all,
      checked := Tab.set (fun _ => false) s.cal.checked (samplerKey n b k) (all.length < 3) } }
    let s := s.setLive p (recPut (s.live p) (0x99 + 16 * b + k) [m.offset])
    if spares = 0 then s else (s.bump Reg.CAL_SWITCHES spares).switchEvent p b

/-- The new data sampler of bit `b`, if its role is to move (R296): usable and checked, with the fewest bypassed
cells. -/
def State.roleMove (s : State) (p b : Nat) : Option Nat :=
  let n := p / 2
  let ds := recDataS (s.live p) b
  if s.usable n b ds && Tab.get (fun _ => 0) s.cal.held (40 * p + b) < 64 then Option.none
  else
    ((List.range 4).filter fun k => k != ds && s.usable n b k && Tab.get (fun _ => false) s.cal.checked (samplerKey n b k)).foldl
      (fun best k => match best with
        | some x => if (s.cellsOf n b k).length < (s.cellsOf n b x).length then some k else best
        | none => some k) Option.none

/-- The sublists of length `k` of a list, in lexicographic order. -/
def chooseK : Nat → List Nat → List (List Nat)
  | 0, _ => [[]]
  | _ + 1, [] => []
  | k + 1, x :: r => (chooseK k r).map (x :: ·) ++ chooseK (k + 1) r

/-- Distance of a sum of conductances from 7/240 S. -/
def sumError (g : List Nat) (l : List Nat) : Nat :=
  ((l.foldl (fun a i => a + (g.getD i 1000000 : Int)) 0) - (7000000 : Int)).natAbs

/-- The segments a pin selects (R298), and whether it is short of usable ones. DESIGN CHOICE, log entry 37. -/
def selectSegs (g : List Nat) : Nat × Bool :=
  let usable := (List.range 12).filter fun i => ((g.getD i 1000000 : Int) - 1000000).natAbs ≤ 300000
  let short := usable.length < 7
  let sets := if short then (chooseK 7 (List.range 12)).filter fun l => usable.all fun i => l.contains i
    else chooseK 7 usable
  let best := sets.foldl (fun (b : Option (List Nat)) l => match b with
    | some x => if sumError g l < sumError g x then some l else b
    | none => some l) Option.none
  (maskOf (best.getD []), short)

/-! ### Plausibility (R300, R301, R305) -/

/-- What a bit's edges give: new delay, width, Vref and height (R300). -/
structure BitResult where
  delay  : Int
  width  : Int
  vref   : Int
  height : Int
  deriving DecidableEq, Repr

/-- The positions of a delay window and of a Vref window (R300). -/
def State.delayPositions (s : State) : Nat := 2 * s.fld Fld.CAL_MEAS.EDGE_WIN + 1

def State.vrefPositions (s : State) : Nat := 2 * s.fld Fld.CAL_MEAS.VREF_WIN + 1

/-- Every position of a window of `n` has its dwell. -/
def dwelt (n : Nat) (f : Dwell → Bool) (l : List Dwell) : Bool := decide (n ≤ l.length) && (l.take n).all f

/-- Every position that a bit's shadows were to visit is measured (R299 to R301): the run has seen the reference bursts its dwells
take, and each dwell holds the beats it needs. -/
def State.measuredBit (s : State) (refs : Nat) (ro : Roles) (m : BitMeas) : Bool :=
  let q := s.fld Fld.CAL_MEAS.MIN_TRANS
  let d := 16 * s.fld Fld.CAL_MEAS.DWELL
  (ro.edge.isNone || (decide (refs ≥ 2 * s.delayPositions * d) &&
    [m.left, m.right].all (dwelt s.delayPositions fun x => decide (x.first ≥ q)))) &&
  (ro.amp.isNone || (decide (refs ≥ 2 * s.vrefPositions * d) &&
    [m.bottom, m.top].all (dwelt s.vrefPositions fun x => decide (x.first ≥ q) && decide (x.second ≥ q))))

/-- How far from a window's inner end the first position lies that is not open; none where the edge is not found: the inner end
itself is not open, or every position is (R300). -/
def edgeFrom (n : Nat) (l : List Dwell) : Option Nat :=
  match (List.range n).find? fun j => (l.map (·.differ)).getD j 0 != 0 with
  | some (j + 1) => some (j + 1)
  | _ => Option.none

/-- New centre and size of one axis from its two windows of ±`k` around the edges of an eye of centre `c` and size `w` (R300). -/
def axisOf (c w : Int) (k : Nat) (low high : List Dwell) : Option (Int × Int) :=
  match edgeFrom (2 * k + 1) low, edgeFrom (2 * k + 1) high with
  | some i, some j =>
    let a := c - w / 2 - 1 + k - i
    let b := c + (w + 1) / 2 - k + j
    some ((a + b) / 2, b - a - 1)
  | _, _ => Option.none

/-- What a bit's measurement gives; an axis that no shadow measured in this run keeps its values. DESIGN CHOICE, log entry 37. -/
def State.bitResult (s : State) (r : List Byte) (b : Nat) (ro : Roles) (m : BitMeas) : Option BitResult :=
  let d : Int := (elRdDly b).get r
  let v : Int := (elRdVref b).get r
  let w : Int := (r.getD (0x94 + 16 * b) 0).toNat
  let h : Int := (r.getD (0x95 + 16 * b) 0).toNat
  let x := if ro.edge.isNone then some (d, w) else axisOf d w (s.fld Fld.CAL_MEAS.EDGE_WIN) m.left m.right
  let y := if ro.amp.isNone then some (v, h) else axisOf v h (s.fld Fld.CAL_MEAS.VREF_WIN) m.bottom m.top
  match x, y with
  | some x, some y => some ⟨x.1, x.2, y.1, y.2⟩
  | _, _ => Option.none

/-- The first check of R305 that a nibble fails, or 0. -/
def State.plausible (s : State) (r : List Byte) (k : Nat) (res : List (Option BitResult)) (rcv : Option (BitVec 11)) : Nat :=
  let bits := (List.range 4).map fun i => (4 * k + i, res.getD i Option.none)
  let all (f : Nat → BitResult → Bool) : Bool := bits.all fun p => match p.2 with
    | some x => f p.1 x
    | none => false
  let pd := s.fld Fld.CAL_LIMIT.PLAUS_D
  let move (b : Nat) (x : BitResult) : Int := x.delay - ((elRdDly b).get r : Nat)
  let moves := bits.filterMap fun p => p.2.map (move p.1)
  let spread := moves.foldl max (moves.headD 0) - moves.foldl min (moves.headD 0)
  if !all fun _ _ => true then 1
  else if !all fun _ x => decide (x.width ≥ s.fld Fld.DPH_TRAINCFG.MIN_EYE_W) &&
      decide (x.height ≥ s.fld Fld.DPH_TRAINCFG.MIN_EYE_H) then 2
  else if !all fun b x => decide ((move b x).natAbs ≤ pd) &&
      decide ((x.vref - ((elRdVref b).get r : Nat)).natAbs ≤ s.fld Fld.CAL_LIMIT.PLAUS_V) then 3
  else if !all fun _ x => decide (2 ≤ x.vref) && decide (x.vref ≤ 125) then 4
  else if spread > pd then 5
  else match rcv with
    | some v => if ((v.toNat : Int) - ((elRcvEn k).get r : Nat)).natAbs ≤ pd then 0 else 6
    | none => 6

/-- The data of event 0x7002. -/
def rejectData (p k reason failed : Nat) : Nat :=
  ((p / 2) <<< 28) + ((p % 2) <<< 4) + (k <<< 8) + (reason <<< 12) + (failed <<< 16)

/-- Judge nibble `k` of rank p: a bit that was not measured is reported and leaves the nibble as it is; accepted results go into the
target record; a rejection counts, and `STALE_N` of them in succession mark it stale (R301, R305). DESIGN CHOICE, log entry 37. -/
def State.judgeNibble (s : State) (p k : Nat) (m : CalMeas) : State :=
  match s.run p with
  | none => s
  | some run =>
    let r := s.live p
    let ro (i : Nat) : Roles := run.shadows.getD (4 * k + i) {}
    let late := (List.range 4).filter fun i => ro i != {} && (match m.bits[4 * k + i]? with
      | some y => !s.measuredBit run.refs (ro i) y
      | none => true)
    if !late.isEmpty then foldS late (fun s _ => s.event 0x7002 (rejectData p k 1 0)) s
    else if (List.range 4).any fun i => ro i == {} then s
    else
      let res := (List.range 4).map fun i => (m.bits[4 * k + i]?).bind fun y => s.bitResult r (4 * k + i) (ro i) y
      let rcv := ((m.rcvEn[k]?).bind id).filter fun v =>
        decide (((v.toNat : Int) - ((elRcvEn k).get r : Nat)).natAbs ≤ s.fld Fld.CAL_MEAS.EDGE_WIN)
      let bad := s.plausible r k res rcv
      let key := 10 * p + k
      if bad != 0 then
        let c := Tab.get (fun _ => 0) s.cal.rejects key + 1
        let s := { s with cal := { s.cal with rejects := Tab.set (fun _ => 0) s.cal.rejects key c } }
        let s := (s.bump Reg.CAL_REJECTS).event 0x7002 (rejectData p k 2 bad)
        if c = s.fld Fld.CAL_LIMIT.STALE_N then
          s.markStale p k
        else s
      else
        let s := { s with cal := { s.cal with rejects := Tab.set (fun _ => 0) s.cal.rejects key 0 } }
        let t := (List.range 4).foldl (fun t i =>
          let b := 4 * k + i
          match res.getD i Option.none with
          | some x =>
            let t := (elRdVref b).put ((elRdDly b).put t x.delay.toNat) x.vref.toNat
            recPut t (0x94 + 16 * b) [BitVec.ofInt 8 x.width, BitVec.ofInt 8 x.height, toByte (x.delay - ((elRdDly b).get r : Nat))]
          | none => t) run.target
        let t := match rcv with
          | some v => (elRcvEn k).put t v.toNat
          | none => t
        (s.setLive p (recSetStale (s.live p) k false)).setRun p
          (some { run with target := t, accepted := run.accepted + 2 ^ k })

/-- Select the segments of every pin into the target record (R298). -/
def State.judgeSegs (s : State) (p : Nat) (m : CalMeas) : State :=
  foldS (List.range 66) (fun s pin =>
    match s.run p with
    | some run =>
      let c := selectSegs (m.segs.getD pin [])
      let s := s.setRun p (some { run with target := (elSegs pin).put run.target c.1 })
      if c.2 then s.switchEvent p pin else s
    | none => s) s

/-- `CAL_MEASURE_DONE` (R304, C2 and C3). -/
def execCalMeasureDone (sc : Fin 16) (m : CalMeas) (s : State) : Host.Outcome State Fault Refusal :=
  .next (
    match s.runOf sc.val with
    | some (p, r) =>
      if r.step == .measure && s.calRuns sc.val then
        let s := (foldS (List.range 40) (fun s b => match m.bits[b]? with
          | some x => s.checkSampler p b (r.shadows.getD b {}) x
          | none => s) s).share p
        let s := s.setRun p (some { r with step := .latch, target := s.live p })
        let s := s.judgeSegs p m
        let s := foldS (List.range 10) (fun s k => s.judgeNibble p k m) s
        let roles := (List.range 40).filterMap fun b => (s.roleMove p b).map fun k => (b, k)
        match s.run p with
        | some run => s.setRun p (some { run with roles := roles })
        | none => s
      else s
    | none => s)

/-- Step C4 holds the sub-channel (R260, R304). -/
def State.latchHold (s : State) (n : Nat) : Option (Nat × CalRun) :=
  match s.runOf n with
  | some (p, r) => if r.step == .latch && r.hold then some (p, r) else Option.none
  | none => Option.none

/-- The sub-channel is held, by another sequence or by step C4 (R260). -/
def State.holds (s : State) (n : Nat) : Bool := (s.sub n).held || (s.latchHold n).isSome

/-- An alert is being handled: its pin is low or its replay runs (R340). -/
def State.alerting (s : State) (n : Nat) : Bool := (s.sub n).alert == 1 || (s.sub n).alert == 2

/-- A cycle that step C4 holds: once its rank is out of power-down and every timing is met the device ZQ latch issues, and the hold
ends (R246, R304). -/
def State.latchCycle (s : State) (n p : Nat) (r : CalRun) : State :=
  match s.pdxStep n with
  | some s' => s'
  | Option.none =>
    match (if (s.sub n).pd.contains (p % 2) then Option.none else s.slotFor n .zqLatch { rank := p % 2 }) with
    | some ck => (s.issue n .zqLatch { rank := p % 2 } false ck).setRun p (some { r with step := .stepping, hold := false })
    | Option.none => s

/-- `CAL_ZQ_LATCH` (R304, C4): with the ZQ start of C1 made and every debt counter of the rank below `SOFT`, the sub-channel is held for
the latch, unless an alert is being handled; after 1 ms without that it is skipped. -/
def execCalZqLatch (sc : Fin 16) (skipped : Bool) (s : State) : Host.Outcome State Fault Refusal :=
  .next (
    let n := sc.val
    match s.runOf n with
    | some (p, r) =>
      let low := s.dies.all fun d => (List.range 4).all fun b => decide ((s.sub n).debtOf (p % 2) d b < s.soft)
      if r.step == .latch && !r.hold && s.calRuns n then
        if skipped then (s.event 0x7008 ((n <<< 28) + ((p % 2) <<< 4))).setRun p (some { r with step := .stepping })
        else if low && !(s.sub n).asked.contains (.zq, p % 2) && !s.alerting n then
          (s.exitPd n (p % 2)).setRun p (some { r with hold := true })
        else s
      else s
    | none => s)

/-- A reference burst of the rank whose run or restore is in progress (R299): a read that Return decoded with no symbol corrected. -/
def State.noteRef (s : State) (p : Nat) (d : Decoded) : State :=
  match s.run p with
  | some r =>
    let whole := d.errors.isEmpty && (match d.out with
      | .clean | .carried | .localPoison => true
      | _ => false)
    if whole then s.setRun p (some { r with refs := r.refs + 1 }) else s
  | none => s

/-! ### Breeze stepping (R306) -/

/-- One step of a setting toward its target. -/
def stepToward (cur tgt : Nat) : Nat := if cur < tgt then cur + 1 else if tgt < cur then cur - 1 else cur

/-- One segment swap toward a target selection: the lowest segment to go out and the lowest to come in. -/
def swapToward (cur tgt : Nat) : Nat :=
  let out := (List.range 12).find? fun i => cur.testBit i && !tgt.testBit i
  let into := (List.range 12).find? fun i => !cur.testBit i && tgt.testBit i
  cur - (match out with
    | some i => 2 ^ i
    | none => 0) + (match into with
    | some i => 2 ^ i
    | none => 0)

/-- Settings that Breeze moves in a run, or in a restore. -/
def CalRun.elements (r : CalRun) : List Element :=
  if r.restore then delayElements ++ vrefElements else measuredElements

/-- A step to a receiver: of a read delay, a receiver Vref, a receive enable or a data role (R306). -/
def BreezeEl.receiver : BreezeEl → Bool
  | .setting off _ => if off < 0x90 then decide (0x40 ≤ off) && off % 8 == 0 else decide (off % 16 < 2)
  | .swap _ => false
  | .role _ _ => true

/-- A step of a device setting, which takes a command slot of its own (R312): VrefDQ or VrefCA. -/
def BreezeEl.device : BreezeEl → Bool
  | .setting off _ => (decide (0x30 ≤ off) && decide (off < 0x3A)) || (decide (0x40 ≤ off) && decide (off < 0x90) && off % 8 == 5)
  | _ => false

/-- The data role of bit `b` moves to sampler `k` (R296). -/
def State.moveRole (s : State) (p b k : Nat) : State :=
  let n := p / 2
  let s := { s with cal := { s.cal with
    held := Tab.set (fun _ => 0) s.cal.held (40 * p + b) 0,
    checked := Tab.set (fun _ => false) s.cal.checked (samplerKey n b k) false } }
  let r := recPut (s.live p) (offSampler b) [BitVec.ofNat 8 k]
  ((s.setLive p (s.samplerFields n b r 0)).bump Reg.CAL_SWITCHES).switchEvent p b

/-- The two samplers disagreed: the move is cancelled, and the candidate is checked again in the next run (R296). -/
def State.cancelRole (s : State) (p b k : Nat) : State :=
  let n := p / 2
  { s with cal := { s.cal with
    checked := Tab.set (fun _ => false) s.cal.checked (samplerKey n b k) false,
    again := Tab.set (fun _ => Option.none) s.cal.again (40 * n + b) (some k) } }

/-- Apply one step on rank p; a pin's segments are those of both ranks (R298, R306). -/
def State.applyStep (s : State) (p : Nat) (e : BreezeEl) : State :=
  match s.run p with
  | none => s
  | some run =>
    let live := s.live p
    let s := match e with
      | .setting off bits =>
        let x : Element := ⟨off, bits⟩
        s.setLive p (x.put live (stepToward (x.get live) (x.get run.target)))
      | .swap i =>
        let v := swapToward ((elSegs i).get live) ((elSegs i).get run.target)
        let s := s.setLive p ((elSegs i).put live v)
        let q := rankPeer p
        (if s.live q = [] then s else s.setLive q ((elSegs i).put (s.live q) v)).bump Reg.CAL_SWITCHES
      | .role b k => (s.moveRole p b k).setRun p (some { run with roles := run.roles.filter fun q => q.1 != b })
    s.bump Reg.CAL_STEPS

/-- A calibration restore moves the pins of the other rank of this sub-channel. -/
def State.peerRestores (s : State) (p : Nat) : Bool := match s.run (rankPeer p) with
  | some r => r.restore
  | none => false

/-- The pins whose segments are still to be swapped. -/
def State.pinsDue (s : State) (p : Nat) (run : CalRun) : List Nat :=
  (List.range 66).filter fun i => (elSegs i).get (s.live p) != (elSegs i).get run.target

/-- An interval begins on rank p: every element with a change due has one step to take; once its bit's steps are done, the samplers of
a role move are compared over `DWELL` reference bursts, and it moves unless they disagreed (R296, R306, R307). A step left over four
times has Schedule leave a cycle empty. Of the pins, a restore of the other rank goes first. DESIGN CHOICE, log entry 37. -/
def State.beginInterval (s : State) (p : Nat) (disagree : List (BitVec 6)) : State :=
  match s.run p with
  | none => s
  | some run =>
    if run.step != .stepping then s
    else
      let live := s.live p
      let els := run.elements.filter fun e => e.get live != e.get run.target
      let pins := if !run.restore && s.peerRestores p then [] else s.pinsDue p run
      let ripe := run.roles.filter fun q => (elRdDly q.1).get live == (elRdDly q.1).get run.target &&
        (elRdVref q.1).get live == (elRdVref q.1).get run.target
      let off := ripe.filter fun q => disagree.any fun b => b.toNat == q.1
      let started := fun (q : Nat × Nat) => (run.compared.find? fun c => c.1 == q.1).map (·.2)
      let on := ripe.filter fun q => !off.contains q && (match started q with
        | some n => decide (n + 16 * s.fld Fld.CAL_MEAS.DWELL ≤ run.refs)
        | none => false)
      let compared := (ripe.filter fun q => !off.contains q).map fun q => (q.1, (started q).getD run.refs)
      let waits := if run.todo.isEmpty then 0 else run.waits + 1
      let s := foldS off (fun s q => s.cancelRole p q.1 q.2) s
      let s := s.setRun p (some { run with
        roles := run.roles.filter fun q => !off.contains q, compared := compared, waits := waits,
        todo := (els.map fun e => BreezeEl.setting e.off e.bits) ++ (pins.map BreezeEl.swap) ++ (on.map fun q => BreezeEl.role q.1 q.2) })
      if waits ≥ 4 then s.onSub (p / 2) fun c => { c with leave := true } else s

/-- What this MCLK cycle of a sub-channel allows (R306): receivers may change, drivers may, the data pins neither drive nor terminate,
and the command slot can take a device setting of the rank. -/
structure StepSlot where
  rx  : Bool
  tx  : Bool
  dq  : Bool
  dev : Bool
  deriving DecidableEq, Repr

/-- A step can be taken. The pins of CA and CS_N drive in a cycle whose slot is used, so a swap of theirs needs it empty. -/
def StepSlot.may (a : StepSlot) : BreezeEl → Bool
  | .swap i => if i < 50 then a.dq else a.dev
  | e => if e.receiver then a.rx else if e.device then a.dev else a.tx

/-- Steps that can be applied now, at most `k`, and those that wait; a device setting takes the command slot. -/
def splitSteps : StepSlot → Nat → List BreezeEl → List BreezeEl × List BreezeEl
  | _, _, [] => ([], [])
  | a, k, e :: r =>
    if a.may e && decide (0 < k) then
      let x := splitSteps { a with dev := a.dev && !e.device } (k - 1) r
      (e :: x.1, x.2)
    else
      let x := splitSteps a k r
      (x.1, e :: x.2)

/-- A burst of the kind is on the data pins of the sub-channel in this MCLK cycle; `lat` is the CK from its command to its data. -/
def State.bursting (s : State) (n : Nat) (k : CmdKind) (lat : Nat) : Bool :=
  let c := s.sub n
  c.hist.any fun r => r.kind == k && decide (c.ck < r.ck + lat + burst) && decide (r.ck + lat < c.ck + 4)

/-- A read burst is being captured on the sub-channel in this MCLK cycle. -/
def State.capturing (s : State) (n : Nat) : Bool := s.bursting n .rd (s.tp n 0)

/-- The command slot of this MCLK cycle is empty. -/
def State.slotEmpty (s : State) (n : Nat) : Bool :=
  let c := s.sub n
  !c.hist.any fun r => decide (c.ck ≤ r.ck) && decide (r.ck < c.ck + 4)

/-- Breeze may step on a sub-channel (R303, R306, R307). -/
def State.mayStep (s : State) (n : Nat) : Bool :=
  s.calFree n && s.flag (Fld.CLK_DLL.LOCKED n) && !s.cal.bar.any fun q => q.1 == n

/-- What this MCLK cycle allows for rank p. A device setting obeys every timing, and is not written while an alert is handled, to a rank
in power-down or to one in self-refresh (R244, R246, R256, R340). -/
def State.stepSlot (s : State) (p : Nat) : StepSlot :=
  let n := p / 2
  let c := s.sub n
  let quiet := !s.capturing n && !s.bursting n .wr (s.tp n 1)
  { rx := !s.capturing n, tx := s.slotEmpty n || quiet, dq := quiet,
    dev := s.slotEmpty n && !s.alerting n && !c.pd.contains (p % 2) && !c.sref.contains (p % 2) &&
      (s.slotFor n .mrw { rank := p % 2 }).isSome }

/-- A device setting waits for a rank in power-down: its exit begins (R256, R312). -/
def State.wakeForSteps (s : State) (p : Nat) : State :=
  match s.run p with
  | some run => if run.todo.any BreezeEl.device && !s.alerting (p / 2) then s.exitPd (p / 2) (p % 2) else s
  | none => s

/-- Apply steps of rank p, at most `k`. -/
def State.stepsOf (s : State) (p k : Nat) : State × Nat :=
  match s.run p with
  | none => (s, k)
  | some run =>
    let n := p / 2
    let x := splitSteps (s.stepSlot p) k run.todo
    let ck := (s.slotFor n .mrw { rank := p % 2 }).getD (s.sub n).ck
    let s := s.setRun p (some { run with todo := x.2 })
    let s := if x.1.any BreezeEl.device then s.issue n .mrw { rank := p % 2 } false ck else s
    (foldS x.1 (fun s e => s.applyStep p e) s, k - x.1.length)

/-- One MCLK cycle of Breeze: at most ten elements of the sub-channel change (R306). -/
def State.breezeCycle (s : State) (n : Nat) : State :=
  if s.mayStep n then
    let x := ((s.wakeForSteps (2 * n)).wakeForSteps (2 * n + 1)).stepsOf (2 * n) 10
    (x.1.stepsOf (2 * n + 1) x.2).1
  else s

/-- `BREEZE_STEP` (R306): an interval begins; each element with a change still due takes one step in it, in an MCLK cycle that allows
it. `disagree` are the bits whose samplers were found to disagree. DESIGN CHOICE, log entry 37. -/
def execBreezeStep (sc : Fin 16) (disagree : List (BitVec 6)) (s : State) : Host.Outcome State Fault Refusal :=
  .next (
    let n := sc.val
    if s.mayStep n then (s.beginInterval (2 * n) disagree).beginInterval (2 * n + 1) disagree else s)

/-! ### The end of a run (R311, R312) -/

/-- The figures of a record that `DPH_WORST` weighs: width, height, side, nibble and bit (R292). -/
def recFigures (r : List Byte) : List (Nat × Nat × Nat × Nat) :=
  (List.range 40).flatMap fun b =>
    [((r.getD (0x94 + 16 * b) 0).toNat, (r.getD (0x95 + 16 * b) 0).toNat, 0, b),
     ((r.getD (0x97 + 16 * b) 0).toNat, (r.getD (0x46 + 8 * (b / 4)) 0).toNat, 1, b)]

def State.figures (s : State) (p : Nat) : List Byte := Tab.get (fun _ => []) s.cal.figures p

/-- Recompute `DPH_WORST` of a sub-channel over the figures held (R292, R311). Among bits equally narrow the manual
names none, so the one reported is a free choice among them. DESIGN CHOICE, log entry 36. -/
def State.worst (s : State) (n : Nat) : State :=
  let all := [2 * n, 2 * n + 1].flatMap fun p =>
    if (s.rank p).trained && s.figures p != [] then (recFigures (s.figures p)).map fun f => (p % 2, f) else []
  match all with
  | [] => s.setReg (Reg.DPH_WORST n) 0
  | f :: _ =>
    let w := all.foldl (fun m x => min m x.2.1) f.2.1
    let h := all.foldl (fun m x => min m x.2.2.1) f.2.2.1
    let ties := all.filter fun x => x.2.1 == w
    let d := s.draw
    let x := ties.getD (Config.freeNat d.1 % ties.length) f
    d.2.setReg (Reg.DPH_WORST n) (BitVec.ofNat 32 ((w <<< 16) + (h <<< 8) + (x.2.2.2.1 <<< 7) + (x.1 <<< 6) + x.2.2.2.2))

/-- Take the read-side figures of the bits of accepted nibbles from a record (R311). -/
def takeFigures (fig r : List Byte) (accepted : Nat) : List Byte :=
  (List.range 40).foldl (fun f b =>
    if accepted.testBit (b / 4) then
      recPut (recPut f (0x90 + 16 * b) ((r.drop (0x90 + 16 * b)).take 2)) (0x94 + 16 * b) ((r.drop (0x94 + 16 * b)).take 3)
    else f) fig

/-- Everything of a run or restore has been applied. -/
def State.applied (s : State) (p : Nat) (run : CalRun) : Bool :=
  run.step == .stepping && run.roles.isEmpty &&
    (run.elements.all fun e => e.get (s.live p) == e.get run.target) &&
    (List.range 66).all fun i => (elSegs i).get (s.live p) == (elSegs i).get run.target

/-- One more accepted run or restore in a record, with its stamp and temperature (R309). -/
def State.touchRecord (s : State) (p : Nat) (temp : Nat) : State :=
  let r := s.live p
  let u := min 0xFFFF (recWord r 6 + 1)
  s.setLive p (recPut (recPut (recPut r 6 (leBytes u 2)) 8 (leBytes s.nowNs 8)) 0x10 [BitVec.ofNat 8 temp])

/-- Step C6 on rank p (R304, R310, R311), after which the run goes on to rank 1 or ends. -/
def State.finishRun (s : State) (p : Nat) (run : CalRun) : State :=
  let n := p / 2
  let bits := (List.range 40).filter fun b => run.accepted.testBit (b / 4)
  let s := foldS bits (fun s b =>
    let h := Tab.get (fun _ => 0) s.cal.held (40 * p + b) + 1
    let s := { s with cal := { s.cal with held := Tab.set (fun _ => 0) s.cal.held (40 * p + b) h } }
    let r := recPut (s.live p) (0x94 + 16 * b) ((run.target.drop (0x94 + 16 * b)).take 3)
    s.setLive p (s.samplerFields n b r h)) s
  let s := s.touchRecord p (s.fld (Fld.CAL_TEMP.LAST n))
  let fig := takeFigures (s.figures p) (s.live p) run.accepted
  let s := { s with cal := { s.cal with
    figures := Tab.set (fun _ => []) s.cal.figures p fig,
    temps := Tab.set (fun _ => 0) s.cal.temps n (BitVec.ofNat 8 (s.fld (Fld.CAL_TEMP.LAST n))) } }
  let s := ((s.worst n).setRun p Option.none).writeCal p
  let s := (s.bump Reg.CAL_RUNS).event 0x7001 ((n <<< 28) + ((p % 2) <<< 4) + (run.accepted <<< 8))
  let q := 2 * n + 1
  if p % 2 = 0 && (s.rank q).trained && !s.gone q && s.live q != [] && (s.run q).isNone then
    s.setRun q (some { rank := 1 })
  else s.pendToDue n

/-- A restore has been applied to rank p (R312). DESIGN CHOICE, log entry 37. -/
def State.finishRestore (s : State) (p : Nat) (run : CalRun) : State :=
  let n := p / 2
  let keep := s.live p
  let temp := (run.target.getD 0x10 0).toNat
  let r := (List.range 40).foldl (fun r b =>
    recPut (recPut r (offSampler b) [keep.getD (offSampler b) 0]) (0x9D + 16 * b) [keep.getD (0x9D + 16 * b) 0, keep.getD (0x9E + 16 * b) 0])
    run.target
  let r := recPut (recPut r 4 ((keep.drop 4).take 4)) 0x14 ((keep.drop 0x14).take 4)
  let s := (((s.setLive p r).touchRecord p temp).share p).setFld (Fld.CAL_TEMP.LAST n) temp
  let s := { s with cal := { s.cal with
    figures := Tab.set (fun _ => []) s.cal.figures p (s.live p),
    temps := Tab.set (fun _ => 0) s.cal.temps n (BitVec.ofNat 8 temp) } }
  let s := ((s.worst n).setRun p Option.none).writeCal p
  (s.event 0x7005 ((n <<< 28) + ((p % 2) <<< 4))).makeDue n

/-- `CAL_RUN_DONE` (R304 C6, R307, R312): the last step has been applied; a run waits for the end of another sequence's hold. -/
def execCalRunDone (sc : Fin 16) (s : State) : Host.Outcome State Fault Refusal :=
  .next (
    match [2 * sc.val, 2 * sc.val + 1].find? fun p => match s.run p with
        | some run => s.applied p run
        | none => false with
    | some p =>
      (match s.run p with
        | some run => if !s.calFree sc.val then s else if run.restore then s.finishRestore p run else s.finishRun p run
        | none => s)
    | none => s)

/-- The record in the staging window (R317). -/
def State.staged (s : State) : List Byte :=
  (List.range 256).flatMap fun j => leBytes (s.reg (Reg.CAL_STAGE j)).toNat 4

/-- No setting of a list differs by more than `d` between two records. -/
def within (l : List Element) (a b : List Byte) (d : Nat) : Bool :=
  l.all fun e => decide (((e.get a : Int) - (e.get b : Nat)).natAbs ≤ d)

/-- The preconditions of the calibration restore for rank p (R312). DESIGN CHOICE, log entry 37. -/
def State.canRestore (s : State) (p : Nat) : Bool :=
  let b := s.staged
  let r := s.live p
  (s.top.state == .join || s.top.state == .service) && (s.rank p).trained && !s.gone p && r != [] &&
    s.fld Fld.CLK_STAT.LULL = 0 && recGood b &&
    (b.getD 4 0).toNat % 128 == p / 2 + 16 * (p % 2) + 32 * s.tset (p / 2) &&
    (List.range 10).all (fun k => recSwap b k == recSwap r k) &&
    within delayElements b r (s.fld Fld.CAL_LIMIT.RESTORE_MAX) &&
    within vrefElements b r (s.fld Fld.CAL_LIMIT.RESTORE_MAX / 2) &&
    (List.range 40).all fun i => s.usable (p / 2) i (recDataS b i)

/-- The restore begins: a run on the rank is abandoned, and every element starts toward the staged record (R312). -/
def State.startRestore (s : State) (p : Nat) : State :=
  let b := s.staged.take 1020
  let s := s.abandonCal p 5
  let roles := (List.range 40).filterMap fun i =>
    if recDataS b i == recDataS (s.live p) i then Option.none else some (i, recDataS b i)
  s.setRun p (some { rank := p % 2, step := .stepping, restore := true, target := b, roles := roles })

/-- Offset and rank of the shadow record that `CAL_RECSEL` names. -/
def State.selected (s : State) : Nat × Nat :=
  let sel := s.reg Reg.CAL_RECSEL
  (fieldGet sel 6 5, 2 * fieldGet sel 3 0 + fieldGet sel 4 4)

/-- `CAL_CAPTURE_DONE` (R317): the captured record is complete; one of the shadow is once its reserve reads have ended. -/
def execCalCaptureDone (s : State) : Host.Outcome State Fault Refusal :=
  .next (
    let shadow := (s.reg Reg.CAL_RECSEL).getLsbD 7
    let t := s.selected.1
    let p := s.selected.2
    let offs := (List.range 16).map fun i => shadowOff t p + 64 * i
    if s.cal.capturing && !(shadow && offs.any s.readStands) then
      let b := if shadow then (joinLines (offs.map s.peekReserve)).getD []
        else if s.live p = [] then [] else recBytes (s.live p)
      ({ s with cal := { s.cal with capturing := false, window := b } }).setFld Fld.CAL_RECSEL.READY 1
    else s)

end Sys2Proof.Machine
end

