-- ==== Sys2Proof/Machine/Faults.lean ====
section
/-!
DEFINITION. What the decoder's outcomes do (R325, R326, R343 to R346, R361, R363), the copy of a spared rank (R357), and
write CRC alerts (R339 to R342).
-/

namespace Sys2Proof.Machine

/-! ### Buckets (R343, R345, R346) -/

/-- The packages in which an error pattern changes symbols. -/
def errorPackages (e : List (Nat × Byte)) : List Nat := (e.map fun p => (p.1 - 5) / 8).eraseDups

/-- One more in a package bucket, saturating at 255. -/
def RankSt.bumpPkg (r : RankSt) (j : Nat) : RankSt :=
  { r with pkg := Tab.set (fun _ => 0) r.pkg j (min 255 (Tab.get (fun _ => 0) r.pkg j + 1)) }

/-- The effect of a decode on a rank's buckets (R343), with the packages whose bucket has risen. -/
def RankSt.count (r : RankSt) (d : Decoded) : RankSt × List Nat :=
  match d.out with
  | .corrected =>
    match r.erased with
    | none =>
      match errorPackages d.errors with
      | [j] => (r.bumpPkg j, [j])
      | _ => (r, [])
    | some k =>
      match (errorPackages d.errors).filter (· != k) with
      | [] => (r, [])
      | [j] => ({ r.bumpPkg j with rce := min 255 (r.rce + 1) }, [j])
      | _ => ({ r with rce := min 255 (r.rce + 1) }, [])
  | .addrMismatch | .uncorrectable => ({ r with ue := min 255 (r.ue + 1) }, [])
  | _ => (r, [])

/-- What the buckets call for after a decode: an erased device (R345) or a retirement cause (R346). -/
def State.judgeBuckets (s : State) (p : Nat) (d : Decoded) (risen : List Nat) : State :=
  let r := s.rank p
  let lim := s.fld Fld.ECC_THRESH.DEV_CE_LIM
  let above := risen.find? fun j => decide (Tab.get (fun _ => 0) r.pkg j ≥ lim)
  match d.out with
  | .addrMismatch | .uncorrectable => if r.ue ≥ s.fld Fld.ECC_THRESH.UE_LIM then s.raiseRank p 2 else s
  | .corrected =>
    match r.erased with
    | none =>
      match above with
      | some j =>
        let s := (s.onRank p fun r => { r with erased := some j }).writeFault
        s.event 0x8010 (((p / 2) <<< 28) + ((p % 2) <<< 4) + j)
      | none => s
    | some _ =>
      if decide (r.rce ≥ s.fld Fld.ECC_THRESH.RANK_CE_LIM) && !(errorPackages d.errors).all (fun j => some j == r.erased) then
        s.raiseRank p 3
      else if above.isSome then s.raiseRank p 4
      else s
  | _ => s

/-- A decode of a line of a trained rank counts against it; reads of the mirror agent are none of those that raise buckets (R343). -/
def State.decodeEffects (s : State) (n : Nat) (l : Loc) (d : Decoded) (bucket : Bool := true) : State :=
  let p := 2 * n + l.rank
  let s := s.countDecode n l d
  if bucket && (s.rank p).trained then
    let c := (s.rank p).count d
    (s.setRank p c.1).judgeBuckets p d c.2
  else s

/-- The state in which an outcome leaves the line (R326). -/
def Decoded.kind (d : Decoded) : PoisonKind :=
  match d.out with
  | .clean | .corrected => .good
  | .carried => .carried
  | _ => .locally

/-- Hand-off 0x4 (R318): the syndromes of a corrected codeword, recomputed, are not all zero. -/
def recheckFails (addr : Nat) (stored : List Byte) (d : Decoded) : Bool :=
  d.out == .corrected && rsSyndromes (applyErrors (virtualSymbols addr ++ stored) d.errors) != List.replicate 16 0

/-! ### Where each kind of read goes -/

/-- The pair line of a local line of a mapped region. -/
def State.pairOf (s : State) (a : Nat) : Option (BitVec 42) :=
  (s.pairRegion (a >>> 24)).map fun r => BitVec.ofNat 42 (r * 2 ^ 24 + a % 2 ^ 24)

/-- A scrub finding of local poison, address mismatch or uncorrectable (R361, R363): it joins a repair outstanding for its line, or asks
the twin under a tag of its own, of which scrub has at most 64; else event 0x8017. `late` says that a write of the line has been admitted
since the read was probed (R362). -/
def State.scrubDamage (s : State) (a found : Nat) (late : Bool) : State :=
  match s.pairOf a with
  | some pair =>
    if s.canRepair pair a then
      let add := fun (s : State) (t : Nat) (own : Bool) =>
        { s with mir := { s.mir with scrubRep := s.mir.scrubRep ++ [{ tag := t, addr := a, pair := pair, found := found, own := own }] } }
      match s.outstanding pair with
      | some t => add s t false
      | none =>
        match (if (s.mir.scrubRep.filter (·.own)).length < 64 then s.freeTag else Option.none) with
        | some t => (add s t true).askTwin t pair late
        | none => s.scrubLost a found
    else s.scrubLost a found
  | none => s.scrubLost a found

/-- A correction table entry takes its line, under a seal of the line's local address (R243, R320). -/
def State.giveCorrection (s : State) (n : Nat) (x : CorrEntry) (line : Line) : State :=
  s.onSub n fun c => { c with corr := c.corr.map fun y =>
    if y == x then { y with line := some line, lseal := lineSeal line x.addr true 0 } else y }

/-- The end of a scrub read (R243, R363). -/
def State.scrubDone (s : State) (n : Nat) (e : StoreEntry) (d : Decoded) (k : PoisonKind) : State :=
  match (s.sub n).corr.find? fun x => x.addr == e.addr && x.spare.isNone with
  | none => s
  | some x =>
    let free := fun (s : State) => s.freeCorr n x
    if !s.holdsContents e.addr || s.top.trigger.isSome then free s
    else
      match k with
      | .carried => free s
      | .locally =>
        (free s).scrubDamage e.addr (match d.out with
          | .localPoison => 1
          | .addrMismatch => 2
          | _ => 3) x.late
      | .good =>
        if d.out == .clean then free s
        else if x.superseded then (free s).bump (Reg.SCH_SUPERSEDED n)
        else
          (s.giveCorrection n x d.line).queueMaint n { kind := .correction, addr := e.addr, loc := x.loc }

/-- The end of a rebuild read (R225, R329): a rebuild line waits for T; its `TAG`, which nothing reads, is a free value.
DESIGN CHOICE, log entry 3. -/
def State.rebuildDone (s : State) (e : StoreEntry) (line : Line) (k : PoisonKind) : State :=
  if s.mir.copies.any fun c => c.gran == e.gran / 32768 then
    let sl := lineSeal line e.gran false 0
    let d := s.draw
    let slot : DataSlot :=
      { line := line, lseal := if k == .good then sl else ~~~sl, tag := BitVec.ofNat 12 (Config.freeNat d.1), form := 5,
        poison := k != .good, stream := 0, ext := BitVec.ofNat 64 e.gran }
    let s := { d.2 with mir := { d.2.mir with rbOut := d.2.mir.rbOut ++ [{ slot := slot }] } }
    State.pumpLines s.mir.rbOut.length s
  else s

/-- The end of a copy read (R357): a good line becomes a correction at the target; any other is stored there as it
stands. -/
def State.copyDone (s : State) (e : StoreEntry) (stored : List Byte) (d : Decoded) (k : PoisonKind) : State :=
  let s := match e.pool with
    | some i => (s.onEntry i fun q => { q with issued := true }).tryFree i
    | none => s
  let s := State.pumpAgents s.ord.agentQ.length s
  match s.redirect e.addr with
  | none => s
  | some (m, l) =>
    match (s.sub m).corr.find? fun x => x.addr == e.addr && x.spare.isSome with
    | none => s
    | some x =>
      if x.superseded then (s.freeCorr m x).bump (Reg.SCH_SUPERSEDED m)
      else if k == .good then
        (s.giveCorrection m x d.line).queueMaint m { kind := .correction, addr := e.addr, loc := l, copy := x.spare }
      else
        let s := s.onSub m fun c => { c with corr := c.corr.erase x }
        s.queueMaint m { kind := .rawWrite, addr := e.addr, loc := l, raw := stored, copy := x.spare }

/-- The `CORR` value of an outcome (R326). -/
def corrOf (d : Decoded) (erased : Option Nat) : Nat :=
  if d.out == .corrected then (if erased.isSome then 2 else 1) else 0

/-- `READ_DATA_DECODE` (R325): the oldest read of a sub-channel reaches Return; `errors` is what the symbols picked up
on the way. DESIGN CHOICE, log entry 36. -/
def execReadDataDecode (sc : Fin 16) (errors : List Byte) (s : State) : Host.Outcome State Fault Refusal :=
  .next (
    let n := sc.val
    match (s.sub n).flights with
    | [] => s
    | f :: rest =>
      let s := s.onSub n fun c => { c with flights := rest }
      let e := f.entry
      let erased := (s.rank (2 * n + e.loc.rank)).erased
      let stored := (List.range 80).map fun i => f.stored.getD i 0 ^^^ errors.getD i 0
      let d := decodeLine e.addr erased stored
      let counts := e.kind != .scrub || s.holdsContents e.addr
      let agent := match e.pool.bind s.entry with
        | some q => q.kind == .agentRead
        | none => false
      let s := (if counts then s.decodeEffects n e.loc d (!agent) else s).noteRef (2 * n + e.loc.rank) d
      let bad := recheckFails e.addr stored d
      let s := if bad && counts then
          match e.pool.bind s.entry with
          | some q => s.sealFail 4 q.laneCode q.sealed.1 q.regionCode
          | none => if e.kind == .rebuildRead then s.sealFail 4 7 false (e.gran >>> 24) else s.sealFail 4 7 true (e.addr >>> 24)
        else s
      let k := if bad then PoisonKind.locally else d.kind
      match e.kind with
      | .scrub => s.scrubDone n e d k
      | .rebuildRead => s.rebuildDone e d.line k
      | .spareRead => s.copyDone e stored d k
      | _ =>
        match e.pool with
        | some i => s.serveAll i d.line k (corrOf d erased)
        | none => s)

/-! ### The copy (R357) -/

/-- The line at a position of the copy: its row and, within the row, column, bank, bank group and die in turn.
DESIGN CHOICE, log entry 36. -/
def State.copyLoc (s : State) (k : Nat) : Loc :=
  let i := k % max 1 s.copyRow
  { rank := s.flt.spRank % 2, row := k / max 1 s.copyRow, col := i % 128, bank := i / 128 % 4, bg := i / 512 % 8, die := i / 4096 }

/-- `SPARE_COPY_INTERVAL` (R357): the next copy request enters Order. It is skipped if a write buffer line is held for the
line, and waits where the target's correction table or the agent pool is full. DESIGN CHOICE, log entry 36. -/
def execSpareCopyInterval (s : State) : Host.Outcome State Fault Refusal :=
  .next (
    let k := s.flt.copyPos
    if s.flt.sp == 1 && s.flt.copyOn && s.top.trigger.isNone && decide (k < s.copyRows * s.copyRow) then
      let l := s.copyLoc k
      let a := s.addrOf (s.flt.spRank / 2) l
      let next := fun (s : State) => { s with flt := { s.flt with copyPos := k + 1, unsettled := s.flt.unsettled ++ [k] } }
      if s.lineHeld a then (next s).settleCopy (some k)
      else
        match s.redirect a with
        | none => (next s).settleCopy (some k)
        | some (m, t) =>
          let i := firstFree 8192 s.ord.pool
          if (s.sub m).corr.length < 8 && i < 8448 then
            let s := (next s).onSub m fun c => { c with corr := c.corr ++ [{ addr := a, loc := t, spare := some k }] }
            let e : PoolEntry := { kind := .spareCopy, addr := a, adm := s.ord.admNext, bornAt := s.time.elapsed }
            let s := { (s.setEntry i (some e)) with ord := { (s.setEntry i (some e)).ord with admNext := s.ord.admNext + 1 } }
            s.toSchedule i
          else s
    else s)

/-! ### Write CRC alerts (R339 to R342) -/

/-- Writes issued in the `ALERT_WIN` MCLK cycles before this one (R339). -/
def State.suspects (s : State) (n : Nat) : List RetryRec :=
  let c := s.sub n
  c.retry.filter fun r => decide (c.ck ≤ r.ck + 4 * s.fld Fld.ECC_ALERTCFG.ALERT_WIN) && decide (r.ck < c.ck)

/-- Some rank of the sub-channel is out of self-refresh. -/
def State.someAwake (s : State) (n : Nat) : Bool :=
  (List.range 2).any fun r => s.serves n r

/-- `ALERT_N_LOW` (R339, R340): a replay begins, or a running one ends and a new, consecutive one begins with the same
suspects. The input is ignored while retention is latched or the core is off (R286). -/
def execAlertNLow (sc : Fin 16) (s : State) : Host.Outcome State Fault Refusal :=
  .next (
    let n := sc.val
    let s := s.onSub n fun c => { c with pins := { c.pins with alertN := false } }
    let c := s.sub n
    if !s.top.coreOn || s.pwr.latch || s.holds n || !s.someAwake n then s
    else if c.alert = 0 then s.setSub n { c with alert := 1, suspects := s.suspects n, replayLeft := [], alertTries := 1 }
    else if c.alert = 2 then s.setSub n { c with alert := 1, replayLeft := [], alertTries := c.alertTries + 1 }
    else s)

/-- `ALERT_N_HIGH` (R340 A3): the suspects are to be reissued in their order. After an alert failure, the pin having been
high for `ALERT_PW`, alerts are heeded again (R342). -/
def execAlertNHigh (sc : Fin 16) (s : State) : Host.Outcome State Fault Refusal :=
  .next (
    let n := sc.val
    let s := s.onSub n fun c => { c with pins := { c.pins with alertN := true } }
    let c := s.sub n
    if c.alert = 1 && decide (c.alertTries ≤ s.fld Fld.ECC_ALERTCFG.REPLAY_LIM) then
      s.setSub n { c with alert := 2, replayLeft := c.suspects }
    else if c.alert = 3 then s.setSub n { c with alert := 0 }
    else s)

/-- Ranks that hold a suspect. -/
def suspectRanks (l : List RetryRec) : List Nat := (List.range 2).filter fun k => l.any fun r => r.loc.rank == k

/-- `ALERT_REPLAY_DONE` (R340 A4): the last suspect has been reissued and `ALERT_WIN` has passed with the pin high. -/
def execAlertReplayDone (sc : Fin 16) (s : State) : Host.Outcome State Fault Refusal :=
  .next (
    let n := sc.val
    let c := s.sub n
    if c.alert = 2 && c.replayLeft.isEmpty then
      foldS (suspectRanks c.suspects) (fun s k => s.bumpF (Fld.ECC_RKUNCORR.REPLAYS (2 * n + k)))
        (s.setSub n { c with alert := 0, suspects := [], alertTries := 0 })
    else s)

/-- Eighty free symbols: a line of unknown state. -/
def State.scramble (s : State) (n : Nat) (l : Loc) : State :=
  let k := s.free
  ({ s with free := k + 80 }).store n l ((List.range 80).map fun i => Config.freeByte (k + i))

/-- `ALERT_FAILURE` (R342): replays are exhausted, or the pin has stayed low beyond `ALERT_PW`. The lines of the last
suspects are in an unknown state. -/
def execAlertFailure (sc : Fin 16) (s : State) : Host.Outcome State Fault Refusal :=
  .next (
    let n := sc.val
    let c := s.sub n
    if c.alert = 1 then
      let stuck := decide (c.alertTries ≤ s.fld Fld.ECC_ALERTCFG.REPLAY_LIM)
      let ranks := suspectRanks c.suspects
      let s := s.setSub n { c with alert := 3, suspects := [], alertTries := 0 }
      let s := foldS c.suspects (fun s r => s.scramble n r.loc) s
      let s := s.event 0x8014 ((n <<< 28) + maskOf ranks + (bitOf stuck <<< 2))
      foldS ranks (fun s k => s.raiseRank (2 * n + k) 5) s
    else s)

end Sys2Proof.Machine
end

