-- ==== Sys2Proof/Machine/Training.lean ====
section
/-!
DEFINITION. Start-up training and the restore path (R269 to R293): the geometry check, the choice of eye centres, the
steps of a sub-channel, rank results, and the training of a re-admission (R352).
-/

namespace Sys2Proof.Machine

/-! ### Choosing the eye centre (R277, R278) -/

/-- The longest run of set bits among the first `n`, scanned upward: its start and length; a tie takes the earlier. -/
def longestRun (f : Nat → Bool) (n : Nat) : Nat × Nat :=
  let r := (List.range n).foldl (fun (st : Nat × Nat × Nat) i =>
    let len := if f i then st.1 + 1 else 0
    if len > st.2.2 then (len, i + 1 - len, len) else (len, st.2)) (0, 0, 0)
  r.2

/-- First and last passing delay code, and width, of a sweep row: a point passes when none of its 64 bursts failed (R277, R278). -/
def rowRun (r : SweepRow) : Nat × Nat × Nat :=
  let x := longestRun (fun i => r.fails.getD i 64 == 0) 96
  (16 + x.1, 15 + x.1 + x.2, x.2)

/-- The row of a Vref code, if it was swept. -/
def rowAt (rows : List SweepRow) (v : Nat) : Option SweepRow := rows.find? fun r => r.vref.toNat == v

def widthAt (rows : List SweepRow) (v : Nat) : Nat := match rowAt rows v with
  | some r => (rowRun r).2.2
  | none => 0

/-- The lowest and highest setting swept on the write side. -/
def sweptRange (rows : List SweepRow) : Nat × Nat :=
  let vs := rows.map fun r => r.vref.toNat
  (vs.foldl min (vs.headD 0), vs.foldl max (vs.headD 0))

/-- A code is kept for a bit when its width reaches half of the bit's greatest (R278). -/
def keeps (rows : List SweepRow) (v : Nat) : Bool :=
  let w := rows.foldl (fun m r => max m (rowRun r).2.2) 0
  (rowAt rows v).isSome && decide (widthAt rows v ≥ (w + 1) / 2)

/-- Centre Vref and height of bits that share a Vref (R278). -/
def centreVref (bits : List (List SweepRow)) : Nat × Nat :=
  let r := longestRun (fun v => bits.all fun rows => keeps rows v) 128
  if r.2 = 0 then (0, 0) else ((r.1 + r.1 + r.2 - 1) / 2, r.2)

/-- Centre delay and width of a bit at a Vref (R278). -/
def centreDelay (rows : List SweepRow) (v : Nat) : Nat × Nat :=
  match rowAt rows v with
  | some r => let x := rowRun r; if x.2.2 = 0 then (0, 0) else ((x.1 + x.2.1) / 2, x.2.2)
  | none => (0, 0)

/-- A bit passes the step, its Vref swept from `r.1` to `r.2` (R278). -/
def State.bitPasses (s : State) (r : Nat × Nat) (vc height width : Nat) : Bool :=
  decide (width ≥ s.fld Fld.DPH_TRAINCFG.MIN_EYE_W) && decide (height ≥ s.fld Fld.DPH_TRAINCFG.MIN_EYE_H) &&
    decide (r.1 + 2 ≤ vc) && decide (vc + 2 ≤ r.2)

/-- The Vref extent of the read sweep: hub codes 16 to 111 (R277). -/
def readExtent : Nat × Nat := (16, 111)

/-- The read sweep of one bit goes into the record; none where the bit fails. -/
def State.readBit (s : State) (r : List Byte) (b : Nat) (found : List SweepRow) : Option (List Byte) :=
  let rows := found.filter fun x => decide (readExtent.1 ≤ x.vref.toNat) && decide (x.vref.toNat ≤ readExtent.2)
  let v := centreVref [rows]
  let d := centreDelay rows v.1
  if s.bitPasses readExtent v.1 v.2 d.2 then
    some (recPut ((elRdVref b).put ((elRdDly b).put r d.1) v.1) (0x94 + 16 * b) [BitVec.ofNat 8 d.2, BitVec.ofNat 8 v.2, 0])
  else Option.none

/-- The write sweep of one package goes into the record; its extent is every VrefDQ setting of the device (R277). -/
def State.writePackage (s : State) (r : List Byte) (k : Nat) (bits : List (List SweepRow)) : Option (List Byte) :=
  let v := centreVref bits
  let r := (elVrefDq k).put r v.1
  let r := recPut r (0x46 + 8 * k) [BitVec.ofNat 8 v.2]
  (List.range 4).foldl (fun acc i =>
    match acc with
    | none => Option.none
    | some r =>
      let rows := bits.getD i []
      let d := centreDelay rows v.1
      let b := 4 * k + i
      if s.bitPasses (sweptRange rows) v.1 v.2 d.2 then some (recPut ((elWrDly b).put r d.1) (0x97 + 16 * b) [BitVec.ofNat 8 d.2])
      else Option.none) (some r)

/-! ### The state of a sub-channel's training -/

def stepFld (n k : Nat) : Fld := if k = 0 then Fld.DPH_STAT.STEP0 n else Fld.DPH_STAT.STEP1 n
def pathFld (n k : Nat) : Fld := if k = 0 then Fld.DPH_STAT.PATH0 n else Fld.DPH_STAT.PATH1 n
def badFld (n k : Nat) : Fld := if k = 0 then Fld.DPH_DEVSEEN.BAD0 n else Fld.DPH_DEVSEEN.BAD1 n

/-- Ranks of a sub-channel of the population. -/
def State.ranksOf (s : State) : List Nat := List.range (2 ^ s.geom.rBits)

/-- The timing set whose dividers are live. -/
def State.liveSet (s : State) : Nat := s.fld Fld.CLK_STAT.TSET

/-- A record to be built for rank p in the timing set in force (R309). The manual states neither the first data samplers, trims nor
segment selections: they are free values, but for those that the other rank of the sub-channel has already. DESIGN CHOICE, log entry
37. -/
def State.newRecord (s : State) (p : Nat) : State × List Byte :=
  let n := p / 2
  let k := s.free
  let old := s.live p
  let r := leBytes 0x434C5243 4 ++ [BitVec.ofNat 8 (n + 16 * (p % 2) + 32 * s.liveSet), 1] ++ List.replicate 1014 0
  let r := recPut r 0x14 ((old.drop 0x14).take 4)
  let r := (List.range 40).foldl (fun r b =>
    let cand := (List.range 4).filter fun i => s.usable n b i
    let ds := cand.getD (Config.freeNat (k + b) % max 1 cand.length) 0
    let r := recPut r (offSampler b) [BitVec.ofNat 8 ds]
    let r := recPut r (0x99 + 16 * b) ((List.range 4).map fun i => Config.freeByte (k + 40 + 4 * b + i))
    s.samplerFields n b r 0) r
  let r := (List.range 66).foldl (fun r i =>
    (elSegs i).put r (maskOf ((chooseK 7 (List.range 12)).getD (Config.freeNat (k + 200 + i) % 792) []))) r
  let peer := s.live (rankPeer p)
  ({ s with free := k + 266 }, if peer = [] then r else shareFields peer r)

/-- Populated ranks of a sub-channel that are not out of use, for a restore. -/
def State.restorable (s : State) (n : Nat) : List Nat := s.ranksOf.filter fun k => !s.gone (2 * n + k)

/-- Training of a sub-channel ends: the hold is released, and the figures and the duration are reported (R276, R292). -/
def State.endSub (s : State) (n : Nat) : State :=
  let t := s.training n
  let us := (s.time.elapsed - t.start) / 8000
  let s := (s.setFld (Fld.DPH_STAT.BUSY n) 0).satF (Fld.DPH_TRAINTIME.US n) us
  let s := (s.onSub n fun c => { c with held := false }).worst n
  foldS (s.ranksOf.filter fun k => (s.rank (2 * n + k)).trained && s.fld (resultFld n k) = 1) (fun s k => s.writeCal (2 * n + k))
    (s.setTraining n {})

/-- Event 0x6002 of a rank. -/
def State.failEvent (s : State) (n k result step : Nat) : State :=
  s.event 0x6002 ((n <<< 28) + (k <<< 4) + (result <<< 8) + (step <<< 12))

/-- The first step of the next rank of a sub-channel, or its end (R275, R284). `after` are ranks still to come. -/
def State.nextRank (s : State) (n : Nat) (after : List Nat) : State :=
  let t := s.training n
  let ready := after.filter fun k => s.fld (resultFld n k) = 0
  match ready with
  | [] => s.endSub n
  | k :: _ =>
    let used := t.store && s.live (2 * n + k) != []
    let s := s.setFld (pathFld n k) (if used then 2 else 1)
    let s := if used then s.setFld Fld.DPH_RETSTAT.USED 1 else s
    if used then s.setTraining n { t with step := 10, rank := k, tries := 0, left := false, record := s.live (2 * n + k) }
    else
      let r := s.newRecord (2 * n + k)
      r.1.setTraining n { t with step := 5, rank := k, tries := 0, left := false, record := r.2 }

/-- A rank's training ends with a result other than trained (R280). -/
def State.rankFails (s : State) (n k result step : Nat) : State :=
  let s := s.setFld (resultFld n k) result
  let t := s.training n
  if t.readmit then (s.failEvent n k result step).setTraining n { t with step := 12 }
  else (s.failEvent n k result step).nextRank n (s.ranksOf.filter fun j => decide (k < j))

/-- A step of a rank fails: it is run again, or the rank fails (R275). DESIGN CHOICE, log entry 37. -/
def State.stepFails (s : State) (n : Nat) : State :=
  let t := s.training n
  if t.tries < s.fld Fld.DPH_TRAINCFG.RETRIES then s.setTraining n { t with tries := t.tries + 1 }
  else s.rankFails n t.rank 4 t.step

/-- A step of a rank passes and the next begins. -/
def State.stepPasses (s : State) (n : Nat) (r : List Byte) : State :=
  let t := s.training n
  s.setTraining n { t with step := t.step + 1, tries := 0, record := r }

/-- A rank ends trained (R280): its figures are those of its record, and the next rank begins. -/
def State.rankDone (s : State) (n k : Nat) (r : List Byte) : State :=
  let p := 2 * n + k
  let s := { s with cal := { s.cal with
    figures := Tab.set (fun _ => []) s.cal.figures p r,
    held := s.cal.held.filter fun q => q.1 / 40 != p, rejects := s.cal.rejects.filter fun q => q.1 / 10 != p } }
  let t := s.training n
  let s := s.setFld (resultFld n k) 1
  if t.readmit then s.setTraining n { t with step := 11 }
  else
    let s := s.onRank p fun x => { x with trained := true }
    (s.event 0x6001 ((n <<< 28) + (k <<< 4) + s.fld (pathFld n k))).nextRank n (s.ranksOf.filter fun j => decide (k < j))

/-- A rank has been swept: its results are stored, and `LAST` takes the temperature at T9 (R280, R281, R302). -/
def State.rankTrained (s : State) (n k : Nat) (r : List Byte) : State :=
  let p := 2 * n + k
  let temp := s.fld (Fld.CAL_TEMP.NOW n)
  let r := recPut (recPut r 8 (leBytes s.nowNs 8)) 0x10 [BitVec.ofNat 8 temp]
  let s := ((s.setLive p r).share p).setFld (Fld.CAL_TEMP.LAST n) temp
  let s := { s with cal := { s.cal with temps := Tab.set (fun _ => 0) s.cal.temps n (BitVec.ofNat 8 temp) } }
  s.rankDone n k r

/-! ### The geometry check (R270, R290) -/

/-- Packages of a rank that do not answer with the geometry of the image (R270). -/
def State.badPackages (s : State) (pk : List (Option Device)) : List Nat :=
  (List.range 10).filter fun k => match pk.getD k Option.none with
    | some d => !(d.width == 4 && d.density.toNat == s.fld Fld.MAP_GEOM.DENSITY && d.stack.toNat == s.fld Fld.MAP_GEOM.DIE_BITS)
    | none => true

/-- Step T3 for one rank: it passes, or ends absent or mismatched. DESIGN CHOICE, log entry 37. -/
def State.checkGeometry (s : State) (n k : Nat) (pk : List (Option Device)) : State :=
  let bad := s.badPackages pk
  let s := (s.setFld (badFld n k) (maskOf bad)).setFld (stepFld n k) 3
  let s := if k = 0 then
      match pk.getD 0 Option.none with
      | some d => (s.setFld (Fld.DPH_DEVSEEN.DENSITY n) d.density.toNat).setFld (Fld.DPH_DEVSEEN.STACK n) d.stack.toNat
      | none => (s.setFld (Fld.DPH_DEVSEEN.DENSITY n) 0).setFld (Fld.DPH_DEVSEEN.STACK n) 0
    else s
  if bad.isEmpty then s
  else
    let absent := (List.range 10).all fun j => (pk.getD j Option.none).isNone
    let res := if absent then 2 else 3
    (s.setFld (resultFld n k) res).failEvent n k res 3

/-! ### TRAIN_STEP_DONE (R275, R284, R285) -/

/-- The residual offset of a run: its centre, rounded down, less the bit's centre delay `dc` (R278, R279). -/
def residual (dc : Nat) (run : BitVec 7 × BitVec 7) : Int := ((run.1.toNat + run.2.toNat) / 2 : Nat) - (dc : Int)

/-- Some residual offset of the runs of the 40 bits lies beyond ±8 steps, `dc` being each bit's centre delay (R279). -/
def offsetsBad (dc : Nat → Nat) (l : List (List (BitVec 7 × BitVec 7))) : Bool :=
  (List.range 40).any fun b => (l.getD b []).any fun x => decide ((residual (dc b) x).natAbs > 8)

/-- Centre delays of a record's bits, on the read and on the write side. -/
def readCentre (r : List Byte) (b : Nat) : Nat := (elRdDly b).get r

def writeCentre (r : List Byte) (b : Nat) : Nat := (elWrDly b).get r

/-- The check of T9 finds nothing wrong but the alert (R279): the line read back from each die and bank group decodes with no symbol
corrected or uncorrected, which, the code being linear, only what it picked up decides; no offset from the record's centres lies beyond
its limit; and where ALERT_N asserted, the replay has completed the write. -/
def State.scratchOk (s : State) (r : List Byte) (f : ScratchCheck) : Bool :=
  ((List.range (8 * 2 ^ s.geom.dBits)).all fun i => match f.lines[i]? with
    | some e => (decodeLine 0 Option.none ((List.range 80).map fun j => e.getD j 0)).out == .clean
    | none => false) && !offsetsBad (readCentre r) f.read && !offsetsBad (writeCentre r) f.write && (!f.alerted || f.replayed)

/-- The restore check of R285: every bit reads without error at its stored values and at the offsets of four steps and two codes
each way, write leveling agrees to within four steps, and the check of T9 passes. -/
def State.restorePasses (s : State) (r : List Byte) (points : List (List (BitVec 7))) (dqs : List (BitVec 11)) (f : ScratchCheck) : Bool :=
  ((List.range 40).all fun b => let l := points.getD b []; decide (5 ≤ l.length) && l.all fun x => x == 0) &&
    ((List.range 10).all fun k => match dqs[k]? with
      | some d => decide (((d.toNat : Int) - ((elWrDqs k).get r : Nat)).natAbs ≤ 4)
      | none => false) && s.scratchOk r f && f.alerted

/-- A swap map is a permutation of a nibble's four bits (R273). -/
def swapOk (m : Byte) : Bool := (List.range 4).all fun i => (List.range 4).any fun j => m.toNat / 4 ^ j % 4 == i

/-- The residual offsets go into the record; which of a bit's lines is reported is not stated, so it is a free choice. DESIGN
CHOICE, log entry 37. -/
def State.putOffsets (s : State) (r : List Byte) (off : Nat) (dc : Nat → Nat) (l : List (List (BitVec 7 × BitVec 7))) :
    State × List Byte :=
  let k := s.free
  ({ s with free := k + 40 }, (List.range 40).foldl (fun r b =>
    let o := (l.getD b []).map (residual (dc b))
    recPut r (off + 16 * b) [toByte (o.getD (Config.freeNat (k + b) % max 1 o.length) 0)]) r)

/-- A per-rank step (T5 to T9, or the restore check) ends with a finding. -/
def State.rankStep (s : State) (n : Nat) (found : TrainFind) : State :=
  let t := s.training n
  let s := if t.step ≤ 9 then s.setFld (stepFld n t.rank) t.step else s
  match t.step, found with
  | 5, .caCs (some (ca, cs, vref)) =>
    s.stepPasses n (recPut (recPut (recPut t.record 0x20 (ca.take 14)) (0x2E + t.rank) [cs.getD t.rank (cs.headD 0)]) 0x30 (vref.take 10))
  | 5, .caCs none => s.stepFails n
  | 6, .level (some dqs) =>
    s.stepPasses n ((List.range 10).foldl (fun r k => (elWrDqs k).put r (dqs.getD k 0).toNat) t.record)
  | 6, .level none => s.stepFails n
  | 7, .readSweep (some (rcv, swap, rows)) =>
    let r := (List.range 10).foldl (fun r k =>
      recPut ((elRcvEn k).put r (rcv.getD k 0).toNat) (0x44 + 8 * k) [swap.getD k 0]) t.record
    if !(List.range 10).all fun k => swapOk (recSwap r k) then s.stepFails n
    else (match (List.range 40).foldl (fun acc b => acc.bind fun r => s.readBit r b (rows.getD b [])) (some r) with
      | some r => s.stepPasses n r
      | none => s.stepFails n)
  | 7, .readSweep none => s.stepFails n
  | 8, .writeSweep (some rows) =>
    (match (List.range 10).foldl (fun acc k => acc.bind fun r =>
        s.writePackage r k ((List.range 4).map fun i => rows.getD (4 * k + i) [])) (some t.record) with
      | some r => s.stepPasses n r
      | none => s.stepFails n)
  | 8, .writeSweep none => s.stepFails n
  | 9, .check f =>
    if !s.scratchOk t.record f then s.stepFails n
    else if !f.alerted then s.rankFails n t.rank 5 9
    else
      let a := s.putOffsets t.record 0x96 (readCentre t.record) f.read
      let b := a.1.putOffsets a.2 0x98 (writeCentre t.record) f.write
      b.1.rankTrained n t.rank b.2
  | 10, .restoreCheck points dqs f =>
    if s.restorePasses t.record points dqs f then s.rankDone n t.rank t.record
    else
      let s := (s.setFld (pathFld n t.rank) 3).event 0x6003 ((n <<< 28) + (t.rank <<< 4))
      let r := s.newRecord (2 * n + t.rank)
      r.1.setTraining n { t with step := 5, tries := 0, record := r.2 }
  | _, _ => s

/-- Step T2: CHm_RESET_N is released once neither sub-channel of the channel waits at T1 (R271, R275). -/
def State.releaseReset (s : State) (n : Nat) : State :=
  let m := n / 2 * 2
  if (s.training m).step = 1 || (s.training (m + 1)).step = 1 then s
  else s.onSub m fun c => { c with pins := { c.pins with reset := true } }

/-- ZQ calibration of ranks, one after the other (T4, S4). -/
def State.calibrateZq (s : State) (n : Nat) (ranks : List Nat) : State :=
  foldS ranks (fun s k =>
    let ck := (s.sub n).ck + 8 * k
    (s.issue n .zq { rank := k } false ck).issue n .zqLatch { rank := k } false (ck + 4)) s

/-- The device settings of a timing set are written with its equaliser taps (T2, S3, L7; R535). -/
def State.writeSettings (s : State) (n t : Nat) : State :=
  s.onSub n fun c => { c with pins := { c.pins with settings := some t, taps := s.reg (Reg.DPH_DFE t) } }

/-- Both populated ranks fail at a step that runs once per sub-channel. -/
def State.subFails (s : State) (n step : Nat) : State :=
  let s := foldS s.ranksOf (fun s k => (s.setFld (resultFld n k) 4).failEvent n k 4 step) s
  s.endSub n

/-- Set the last step attempted of every populated rank of a sub-channel (R289). -/
def State.stepAll (s : State) (n step : Nat) : State := foldS s.ranksOf (fun s k => s.setFld (stepFld n k) step) s

/-- `TRAIN_STEP_DONE` (R275): the step awaited ends with what it found; a finding of another step is none of this
sub-channel's. -/
def execTrainStepDone (sc : Fin 16) (rank : Fin 2) (found : TrainFind) (s : State) : Host.Outcome State Fault Refusal :=
  .next (
    let n := sc.val
    let t := s.training n
    if s.top.trigger.isSome then s
    else
      match t.step, found with
      | 0, _ => s
      | 1, .ck =>
        let s := s.stepAll n 1
        if s.flag (Fld.CLK_DLL.LOCKED n) then (s.setTraining n { t with step := 2, tries := 0 }).releaseReset n
        else if t.tries < s.fld Fld.DPH_TRAINCFG.RETRIES then s.setTraining n { t with tries := t.tries + 1 }
        else (s.subFails n 1).releaseReset n
      | 2, .settings => ((s.stepAll n 2).writeSettings n s.liveSet).setTraining n { t with step := 3, rank := 0 }
      | 3, .devices pk =>
        if rank.val = t.rank then
          let s := s.checkGeometry n t.rank pk
          if s.ranksOf.contains (t.rank + 1) then s.setTraining n { t with rank := t.rank + 1 }
          else if s.ranksOf.any fun k => s.fld (resultFld n k) = 0 then s.setTraining n { t with step := 4, rank := 0 }
          else s.endSub n
        else s
      | 4, .zq =>
        let passed := s.ranksOf.filter fun k => s.fld (resultFld n k) = 0
        ((foldS passed (fun s k => s.setFld (stepFld n k) 4) s).calibrateZq n passed).nextRank n s.ranksOf
      | _, _ => if rank.val = t.rank then s.rankStep n found else s)

/-! ### The start of a training run -/

/-- Every populated sub-channel begins, its PHY slice powered; the others' ranks are not populated and their slices powered down
(R269, R270, R275, R280). -/
def State.beginRuns (s : State) (step : Nat) (rst store : Bool) : State :=
  foldS (List.range 16) (fun s n =>
    let s := s.setReg (Reg.DPH_STAT n) 0
    let used := decide (n < 2 ^ s.geom.sBits)
    let s := s.onSub n fun c => { c with pins := { c.pins with powered := used } }
    let out := (List.range 2).filter fun k => !(used && s.ranksOf.contains k)
    let s := foldS out (fun s k => s.setFld (resultFld n k) 6) s
    if used then
      let s := s.setFld (Fld.DPH_STAT.BUSY n) 1
      let s := s.onSub n fun c => { c with held := true }
      s.setTraining n { step := step, rst := rst, store := store, start := s.time.elapsed }
    else s) s

/-- CK runs on a sub-channel at a bin, on the pair of each populated rank (R269, R271). -/
def State.startCk (s : State) (n bin : Nat) : State :=
  s.onSub n fun c => { c with pins := { c.pins with ckBin := some bin, ckPairs := s.ranksOf } }

/-- `TRAIN` begins (R275, R283, R293): the devices are reset, so nothing of their contents is left, and CK starts at the boot bin; the
retirement state will be taken from the fault record at its end (R349). -/
def State.startTraining (s : State) : State :=
  let s := { s with dram := [], fmt := Option.none }
  let s := ({ s with flt := {} }).setReg Reg.DPH_RETSTAT 4
  let s := foldS (List.range 16) (fun s n => (s.setSub n {}).setReg (Reg.DPH_DEVSEEN n) 0) s
  let s := s.beginRuns 1 false false
  foldS (List.range (2 ^ s.geom.sBits)) (fun s n => s.startCk n (s.fld (Fld.CLK_TSET.BIN s.liveSet))) s

/-- Why the store is not used in `RESTORE`, or 0 (R283, R293). -/
def State.storeReason (s : State) : Nat :=
  if !s.flag Fld.DPH_TRAINCFG.RESTORE_EN then 5
  else if !s.cal.valid then 2
  else if s.cal.geom != s.reg Reg.MAP_GEOM || s.cal.hubId != s.fld Fld.GLB_HUBID.HUB_ID then 4
  else 0

/-- The bin that a restore runs at: the retention store's where that is used, else the one in force (R284). -/
def State.restoreBin (s : State) (n : Nat) : Nat :=
  if (s.training n).store then s.cal.bin else s.fld (Fld.CLK_TSET.BIN s.liveSet)

/-- Steps S3 and S4 on a sub-channel whose DLL has declared lock: self-refresh exit of the ranks that are not retired with every debt
at 0, the device settings if the bin is another, and ZQ calibration (R284). -/
def State.wakeRestored (s : State) (n : Nat) : State :=
  let ranks := s.restorable n
  let old := (s.sub n).pins.settings
  let same := old.isSome && s.restoreBin n == s.cal.bin
  let s := foldS ranks (fun s k => s.issue n .srx { rank := k } false ((s.sub n).ck + 4 * k)) s
  let s := s.onSub n fun c => { c with sref := [], pd := [], pdExit := [], debt := [], fallback := [], ck := c.ck + 8 + s.tp n 27 }
  (if same then s else s.writeSettings n s.liveSet).calibrateZq n ranks

/-- `RESTORE` begins its DRAM steps (R283, R284, R302): CK starts, and step S3 of each sub-channel waits, at step 13 here, for its DLL
to declare lock (R382 K4). -/
def State.startRestoring (s : State) : State :=
  let why := s.storeReason
  let s := s.setReg Reg.DPH_RETSTAT (BitVec.ofNat 32 (why <<< 2))
  let s := if why = 0 then s else s.event 0x6004 why
  let s := foldS (List.range 32) (fun s p => s.onRank p fun r => { r with trained := false }) s
  let s := foldS (List.range 16) (fun s n => s.setFld (Fld.CAL_TEMP.LAST n) (Tab.get (fun _ => 0) s.cal.temps n).toNat) s
  let s := s.beginRuns 13 true (why == 0)
  foldS (List.range (2 ^ s.geom.sBits)) (fun s n => s.startCk n (s.restoreBin n)) s

/-- Training, or the DRAM steps of a restore, have ended on every sub-channel; one whose DLL is stuck before step S3 is left behind, its
ranks in self-refresh (R381, R382). -/
def State.trainingOver (s : State) : Bool :=
  (List.range 16).all fun n => (s.training n).step == 0 || ((s.training n).step == 13 && s.flag (Fld.CLK_DLL.STUCK n))

/-- The retention store is rewritten at the end of a training run (R282). The manual gives the store no layout: `valid` stands for
its marker and CRC. DESIGN CHOICE, log entry 37. -/
def State.keepStore (s : State) : State :=
  { s with cal := { s.cal with
    valid := true, geom := s.reg Reg.MAP_GEOM, hubId := s.fld Fld.GLB_HUBID.HUB_ID, tset := s.liveSet,
    bin := s.fld (Fld.CLK_TSET.BIN s.liveSet) } }

/-- Ranks whose result retires them (R280, R349): each is retired with the cause training; on a hub where sparing is
available at the end of `TRAIN`, a rank is spared without a copy. The CS_N bit of each is held high, also of one that was retired before;
a copy of another rank is aborted, and that rank handled after (R359). -/
def State.retireFailed (s : State) (spare : Bool) : State :=
  foldS s.popRanks (fun s p =>
    let res := s.fld (resultFld (p / 2) (p % 2))
    if res < 2 || res > 5 then s
    else if s.gone p then s.holdCs (p / 2) (p % 2)
    else if spare && s.spareable p then
      ({ s with flt := { s.flt with sp := 2, spRank := p, cursor := s.copyRows } }).setRetired p 1 true
    else
      match s.copying p with
      | some q => ((s.abortSpare p).setRetired p 1 false).actSelf q
      | none => s.setRetired p 1 false) s

/-! ### Re-admission (R352) -/

/-- The preconditions of the re-admit directive. -/
def State.canReadmit (s : State) (p : Nat) : Bool :=
  s.popRanks.contains p && (s.rank p).retired && !(s.rank p).spared &&
    (s.mir.pstate == .fenced || (s.top.state == .join && s.mir.pstate == .none)) && s.flt.sp != 1 && s.flt.readmit.isNone

/-- The sub-channel is held and the rank's training starts at T5 (R352 step 1). -/
def State.startReadmit (s : State) (p : Nat) : State :=
  let n := p / 2
  let s := ((s.freeCs n (p % 2)).onSub n fun c => { c with held := true }).setFld (Fld.DPH_STAT.BUSY n) 1
  let s := (s.setFld (resultFld n (p % 2)) 0).setFld (pathFld n (p % 2)) 1
  let r := s.newRecord p
  let s := { r.1 with flt := { r.1.flt with readmit := some p } }
  s.setTraining n { step := 5, rank := p % 2, record := r.2, start := s.time.elapsed, readmit := true }

/-- `READMIT_TRAINING_DONE` (R352): the rank is re-admitted, and with no other retired rank unspared every `OFFLINE`
entry becomes replica `FILLING`; or it stays retired. DESIGN CHOICE, log entry 38. -/
def execReadmitTrainingDone (s : State) : Host.Outcome State Fault Refusal :=
  .next (
    match s.flt.readmit with
    | none => s
    | some p =>
      let n := p / 2
      let t := s.training n
      if t.step = 12 then (({ s with flt := { s.flt with readmit := Option.none } }).holdCs n (p % 2)).endSub n
      else if t.step = 11 then
        let s := s.onRank p fun r => { trained := true, ue := 0, rce := 0, pkg := [], erased := Option.none, retired := false, spared := r.spared }
        let s := s.onSub n fun c => { c with debt := c.debt.filter fun q => q.1 / 64 != p % 2 }
        let s := ({ s with flt := { s.flt with readmit := Option.none } }).endSub n
        let s := if (List.range 32).any fun q => (s.rank q).retired && !(s.rank q).spared then s
          else foldS s.mappedRegions (fun s r =>
            let w := s.rtEntry r
            if rtSync w == 5 then s.setRt r (rtPut w 2 4 false) else s) s
        s.writeFault.event 0x8013 ((n <<< 28) + ((p % 2) <<< 4))
      else s)

end Sys2Proof.Machine
end

