-- ==== Sys2Proof/Machine/Cycle.lean ====
section
/-!
DEFINITION. The MCLK cycle of a sub-channel (R237 to R261, R276, R306).
-/

namespace Sys2Proof.Machine

/-- Every debt counter of the rank's dies is below `SOFT`. -/
def State.debtsLow (s : State) (n rank : Nat) : Bool :=
  s.dies.all fun d => (List.range 4).all fun b => decide ((s.sub n).debtOf rank d b < s.soft)

/-- A cycle of a sub-channel that training or a restore holds: only the refreshes that R276 asks for issue, and none while the rank is
in a device training mode. With none left to issue and the debts below `SOFT` the mode is entered again. -/
def State.heldRefresh (s : State) (n : Nat) : State :=
  let t := s.training n
  if t.inMode then s
  else
    match (s.sub n).fallback.findSome? fun k => s.fallbackStep n k with
    | some s' => s'
    | Option.none =>
      match s.refsb n with
      | some s' => s'
      | Option.none => if t.left && s.debtsLow n t.rank then s.setTraining n { t with left := false } else s

/-- The command of an MCLK cycle of a sub-channel, if there is one. An exit from power-down, which R249 does not list, goes ahead of its
choices. DESIGN CHOICE, log entry 8. -/
def State.cycleCommand (s : State) (n : Nat) : State :=
  let c := s.sub n
  if c.alert == 1 then s
  else if c.alert == 2 then s.replayStep n
  else if c.held then (if (s.training n).step != 0 then s.heldRefresh n else s.entryCycle n)
  else match s.latchHold n with
  | some (p, r) => s.latchCycle n p r
  | none =>
    match s.pdxStep n with
    | some s' => s'
    | Option.none => if s.top.state == .gust then s.gustCycle n else s.choose n

/-- `SCHEDULE_CYCLE` (R237 to R256, R306): one MCLK cycle of a sub-channel. Nothing issues while it is held or a replay
runs, or in the cycle left empty for Breeze. DESIGN CHOICE, log entry 8. -/
def execScheduleCycle (sc : Fin 16) (s : State) : Host.Outcome State Fault Refusal :=
  .next (
    let n := sc.val
    if !s.top.coreOn then s
    else
      let s := ((s.fillStore n).probe n).turn n
      let forced := (s.sub n).leave
      let s := if forced then s.onSub n fun c => { c with leave := false } else s.cycleCommand n
      let s := s.breezeCycle n
      ((s.countIdle n).onSub n fun c => { c with ck := c.ck + 4 }).endSpare)

end Sys2Proof.Machine
end

