-- ==== Sys2Proof/Machine/Clocks.lean ====
section
/-!
DEFINITION. Clocks, delay-locked lines and Lull (R370 to R397).
-/

namespace Sys2Proof.Machine

/-! ### Dividers (R374, R375, R387) -/

/-- VCO multiple of the reference and post divider of a bin (R374). -/
def binPlan (b : Nat) : Nat × Nat :=
  match b with
  | 0 => (72, 3) | 1 => (78, 3) | 2 => (84, 3) | 3 => (90, 3) | 4 => (96, 3)
  | 6 => (72, 2) | 7 => (76, 2) | 8 => (80, 2) | 9 => (84, 2) | _ => (88, 2)

/-- The MPLL's setting for timing set `t`. On the oscillator the divider lies 2 % below the bin's; its fraction is rounded down, so that
CK does not exceed that (R387). DESIGN CHOICE, log entry 38. -/
def State.setOf (s : State) (t : Nat) (osc : Bool) : PllSet :=
  let p := binPlan (s.fld (Fld.CLK_TSET.BIN t))
  let d := if osc then p.1 * 98 else p.1 * 100
  { post := p.2, int := d / 100, frac := BitVec.ofNat 24 (d % 100 * 2 ^ 24 / 100), band := BitVec.ofNat 6 (s.fld (Fld.CLK_TSET.BAND t)) }

/-- The CPLL's one setting, in the band that its search has found (R372, R376). -/
def cpllSet (band : BitVec 6) : PllSet := { post := 1, int := 80, band := band }

/-- The sequencer writes the MPLL's pending copy with the setting of timing set `t` (R375). -/
def State.writePending (s : State) (t : Nat) (osc : Bool) : State := { s with clk := { s.clk with mpllPend := s.setOf t osc } }

/-- Commit: both pending copies become live in one cycle, and the MPLL starts in its band (R375). -/
def State.commitPending (s : State) : State :=
  { s with clk := { s.clk with mpllLive := s.clk.mpllPend, cpllLive := s.clk.cpllPend, band := s.clk.mpllPend.band } }

/-- Write the pending copy for timing set `t` and commit. -/
def State.commit (s : State) (t : Nat) (osc : Bool) : State := (s.writePending t osc).commitPending.setFld Fld.CLK_STAT.TSET t

/-! ### Spread (R377, R378) -/

/-- The triangle's offset from the live feedback divider at this instant, in 2⁻²⁴ of a unit (R373, R377, R378): 0 at the restart, which is
the peak for down-spread and the mid-point for centre spread, whose triangle rises first. The model's time runs in 0.125 ns.
DESIGN CHOICE, log entry 38. -/
def State.spreadOffset (s : State) : Int :=
  match s.clk.spread with
  | none => 0
  | some t =>
    let period := 16000000 / (60 + s.fld Fld.CLK_SSC.FREQ)
    let x := (s.time.elapsed - t) % period
    let span : Nat := (s.clk.mpllLive.int * 2 ^ 24 + s.clk.mpllLive.frac.toNat) * s.fld Fld.CLK_SSC.AMP / 2000
    if s.fld Fld.CLK_SSC.MODE = 1 then -((span * (2 * min x (period - x)) / period : Nat) : Int)
    else if 4 * x ≤ period then (span * (4 * x) / period : Nat)
    else if 4 * x ≤ 3 * period then (span : Int) - (span * (4 * x - period) / period : Nat)
    else -(span : Int) + (span * (4 * x - 3 * period) / period : Nat)

/-- The MPLL's feedback divider at this instant, in 2⁻²⁴ of a unit: the live one with the spread (R373, R377). -/
def State.mpllDivider (s : State) : Int :=
  (s.clk.mpllLive.int * 2 ^ 24 + s.clk.mpllLive.frac.toNat : Nat) + s.spreadOffset

/-- Populated sub-channels. -/
def State.popSubs (s : State) : List Nat := List.range (2 ^ s.geom.sBits)

/-- The DLL of a sub-channel declares lock. -/
def State.dllLocked (s : State) (n : Nat) : Bool := s.flag (Fld.CLK_DLL.LOCKED n)

def State.dllStuck (s : State) (n : Nat) : Bool := s.flag (Fld.CLK_DLL.STUCK n)

/-- A Lull, planned or emergency, is in progress. -/
def State.lulling (s : State) : Bool := s.clk.planned || s.clk.emerg != 0

/-- DLLs lose their lock while CK is stopped or changes. -/
def State.unlockAll (s : State) : State :=
  let s := foldS s.popSubs (fun s n => s.setFld (Fld.CLK_DLL.LOCKED n) 0) s
  { s with clk := { s.clk with spread := Option.none, retries := [], ready := false } }

/-- Step K3 (R382, R376): the bands of the four timing sets are searched, the set `t` is committed and the MPLL locks. -/
def State.bringUp (s : State) (bands : List (BitVec 6)) (t : Nat) : State :=
  let s := foldS (List.range 4) (fun s k =>
    (s.setFld (Fld.CLK_TSET.BAND k) (bands.getD k 0).toNat).setFld (Fld.CLK_TSET.BAND_VALID k) 1) s
  let s := (s.commit t false).setFld Fld.CLK_STAT.MPLL_LOCK 1
  let s := { s with cal := { s.cal with tset := t } }
  foldS s.popSubs (fun s n => s.setFld (Fld.SCH_STAT.TSET n) t) s.unlockAll

/-! ### MEMCLK_LOCK (R390) -/

/-- Populated sub-channels whose DLL declares lock, forced to 0 where the manual says so. -/
def State.memNow (s : State) : Nat :=
  let live := match s.top.state with
    | .train | .join | .service | .restore => true
    | _ => false
  if live && s.flag Fld.CLK_STAT.MPLL_LOCK && s.fld Fld.CLK_STAT.REFSRC = 0 then
    (s.popSubs.filter fun n => s.dllLocked n).length
  else 0

/-- The density is held: a planned Lull that no emergency has taken over (R389, R390). DEDUCED, log entry 38. -/
def State.memHeld (s : State) : Bool := s.clk.planned && s.clk.emerg == 0

/-- The value in force: held through a planned Lull. -/
def State.memNum (s : State) : Nat := if s.memHeld then s.clk.heldNum else s.memNow

/-- The number of populated sub-channels once the MPLL has been brought up with the image's geometry in force; 0 until then (R390,
R395). DESIGN CHOICE, log entry 38. -/
def State.memDenom (s : State) : Nat := if s.clk.mpllLive.post = 0 then 0 else s.popSubs.length

/-- One tick of the accumulator (R390). -/
def State.memTick (s : State) : State :=
  let a := s.clk.memAcc + s.memNum
  let d := s.memDenom
  { s with clk := { s.clk with memPin := decide (a ≥ d), memAcc := if a ≥ d then a - d else a } }

/-! ### Holds and self-refresh (R260, R381, R384) -/

/-- CK of a sub-channel stops with CK_P low (L2, R435 G6). -/
def State.stopCk (s : State) (n : Nat) : State :=
  s.onSub n fun c => { c with pins := { c.pins with ckBin := Option.none, ckPairs := [] } }

/-- CK restarts on every populated sub-channel at the bin of the set in force (L5, R387). -/
def State.restartCk (s : State) : State :=
  foldS s.popSubs (fun s n => s.startCk n (s.fld (Fld.CLK_TSET.BIN s.liveSet))) s

/-- Ranks of a sub-channel that are out of reset and not retired: trained ones, and in a restore, or in the Gust that ended one, those
not yet checked too (R288). -/
def State.wakeful (s : State) (n : Nat) : List Nat :=
  s.ranksOf.filter fun k => !s.gone (2 * n + k) &&
    ((s.rank (2 * n + k)).trained || s.top.state == .restore || s.top.state == .gust)

/-- Every rank of a sub-channel that is out of self-refresh and not retired enters it, with a command of its own in one MCLK cycle after
another: banks are closed (L1, L2, G6). -/
def State.sleepSub (s : State) (n : Nat) : State :=
  let ranks := s.wakeful n
  let new := ranks.filter fun r => !(s.sub n).sref.contains r
  let s := foldS new (fun s r => s.issue n .sre { rank := r } false ((s.sub n).ck + 4 * r)) s
  s.onSub n fun c => { c with held := true, banks := [], pd := [], pdExit := [], sref := ranks, fallback := [] }

/-- A sub-channel's ranks in self-refresh leave it, each with its debts at 0, and its hold is released unless a training run
holds it (L7, R244, R260, R276). The exits take one MCLK cycle each. -/
def State.wakeSub (s : State) (n : Nat) : State :=
  let busy := (s.training n).step != 0
  let c := s.sub n
  let s := foldS c.sref (fun s r => s.issue n .srx { rank := r } false ((s.sub n).ck + 4 * r)) s
  s.onSub n fun c => { c with
    held := busy, sref := [],
    debt := c.debt.filter fun q => !c.sref.contains (q.1 / 64),
    fallback := c.fallback.filter fun k => !c.sref.contains (k / 16),
    refClear := c.refClear.filter fun r => !c.sref.contains r }

/-- Every sub-channel is held; what calibrates there is abandoned (L1, R307). -/
def State.holdAll (s : State) : State :=
  foldS s.popSubs (fun s n => (s.onSub n fun c => { c with held := true }).abandonSub n 2) s

/-! ### Planned Lull (R383 to R385) -/

/-- The precondition of the Lull directive (R383). -/
def State.canLull (s : State) (t : Nat) : Bool :=
  (s.top.state == .join || s.top.state == .service) && t != s.fld (Fld.SCH_STAT.TSET 0) && s.clk.emerg == 0 &&
    s.flag Fld.CLK_STAT.MPLL_LOCK && s.flag Fld.CLK_STAT.CPLL_LOCK && s.fld Fld.CLK_STAT.REFSRC = 0

/-- Step L1 begins: event 0x9001 or 0x9002 will end it. -/
def State.startLull (s : State) (t : Nat) : State :=
  let n := s.memNow
  let s := { s with clk := { s.clk with
    planned := true, target := t, entered := false, ready := false, exitAsked := false, srDone := false,
    began := s.time.elapsed, heldNum := n } }
  (s.setFld Fld.CLK_STAT.LULL 1).holdAll

/-- Sub-channels whose DLL is stuck. -/
def State.stuckSubs (s : State) : List Nat := s.popSubs.filter fun n => s.dllStuck n

/-- The length of a Lull goes into `CLK_LULLSTAT` (R395). DESIGN CHOICE, log entry 38. -/
def State.noteLull (s : State) : State := s.satF Fld.CLK_LULLSTAT.DURATION ((s.time.elapsed - s.clk.began) / 80)

/-- Every DLL of a populated sub-channel declares lock. -/
def State.allLocked (s : State) : Bool := s.popSubs.all fun n => s.dllLocked n

/-- The triangle restarts once every DLL declares lock, where `CLK_SSC` selects a spread (R377, R378). -/
def State.startSpread (s : State) : State :=
  if s.allLocked && s.fld Fld.CLK_SSC.MODE != 0 && s.clk.spread.isNone then { s with clk := { s.clk with spread := some s.time.elapsed } }
  else s

/-- Step S3 on a sub-channel that has waited for its DLL (R284, R382): its ranks wake and the first of them is checked. -/
def State.restoreSub (s : State) (n : Nat) : State := (s.wakeRestored n).nextRank n (s.restorable n)

/-- A sub-channel's ranks leave self-refresh, with the device settings of the set in force (L7, R381 step 4); in a restore whose step S3
had waited for the lock, that step is taken. -/
def State.wakeUp (s : State) (n : Nat) : State :=
  if (s.training n).step = 13 then s.restoreSub n else (s.wakeSub n).writeSettings n s.liveSet

/-- The Lull ends: what `wake` does with each sub-channel whose DLL is not stuck, the counts and the events (L8, E6; R384, R387). A
calibration run becomes due at the first evaluation after it (R303, R308). DESIGN CHOICE, log entry 38. -/
def State.endLullWith (wake : Nat → State → State) (s : State) : State :=
  let stuck := s.stuckSubs
  let awake := s.popSubs.filter fun n => !stuck.contains n
  let s := foldS awake (fun s n => wake n s) s
  let s := { s with cal := { s.cal with exited := (s.cal.exited ++ awake).eraseDups } }
  let s := s.noteLull
  let planned := s.clk.planned
  let emerg := s.clk.emerg
  let ms := (s.time.elapsed - s.clk.began) / 8000000
  let s := if planned then
      let s := (s.bump Reg.CLK_LULLS).setFld Fld.CLK_LULLSTAT.LAST_RESULT (if stuck.isEmpty then 1 else 3)
      let s := s.setFld Fld.CLK_LULLSTAT.LAST_TARGET s.clk.target
      s.event 0x9001 (s.liveSet + (bitOf (!stuck.isEmpty) <<< 15) + (maskOf stuck <<< 16))
    else s
  let s := if emerg != 0 then s.event 0x9006 (min 0xFFFF ms) else s
  ({ s with clk := { s.clk with
    planned := false, emerg := 0, estep := 0, entered := false, ready := false, exitAsked := false,
    losing := s.clk.losing ++ stuck.filter fun n => !s.clk.losing.contains n } }).setFld Fld.CLK_STAT.LULL 0

/-- The Lull's ranks wake: steps L7 and L8, or E6 (R384, R387). -/
def State.endLull (s : State) : State := s.endLullWith fun n s => s.wakeUp n

/-- The timing set whose dividers are live takes force: its records are loaded and applied, and the retention store holds it (L6; R282,
R308). -/
def State.switchSet (s : State) : State :=
  let t := s.liveSet
  if s.fld (Fld.SCH_STAT.TSET 0) = t then s
  else
    let s := (foldS s.popSubs (fun s n => s.setFld (Fld.SCH_STAT.TSET n) t) s).loadRecords t
    { s with cal := { s.cal with tset := t, bin := s.fld (Fld.CLK_TSET.BIN t) } }

/-- The held exit request takes effect once the ranks are in self-refresh, `SR_MIN` has passed and the clocks are ready
(R386). -/
def State.tryExit (s : State) : State :=
  if s.lulling && s.clk.exitAsked && s.clk.entered && s.clk.srDone && s.clk.ready then s.endLull else s

/-- Step L6: every DLL has declared lock or is stuck; the set is switched and its records are applied, and spread
restarts (R308, R378, R384). -/
def State.tryReady (s : State) : State :=
  let relocked := s.fld Fld.CLK_STAT.LULL = 2 || s.fld Fld.CLK_STAT.LULL = 5
  if s.lulling && relocked && s.clk.entered && s.flag Fld.CLK_STAT.MPLL_LOCK && !s.clk.ready &&
      s.popSubs.all fun n => s.dllLocked n || s.dllStuck n then
    let s := s.switchSet.startSpread
    ({ s with clk := { s.clk with ready := true } }).tryExit
  else s

/-- `LULL_ENTRY_DONE` (R384 L2 and L3, R387 E2): every sub-channel has precharged its banks and put its ranks in
self-refresh; a planned Lull commits its target, which leaves a PLL undisturbed that holds it already (R375). -/
def execLullEntryDone (s : State) : Host.Outcome State Fault Refusal :=
  .next (
    let replaying := s.popSubs.any fun n => (s.sub n).alert == 1 || (s.sub n).alert == 2
    if s.lulling && !s.clk.entered && !replaying then
      let s := foldS s.popSubs (fun s n => (s.sleepSub n).stopCk n) s
      let s := { s with clk := { s.clk with entered := true, srDone := false } }
      if s.clk.emerg != 0 then { s with clk := { s.clk with estep := 3 } }
      else
        let same := s.setOf s.clk.target false == s.clk.mpllLive
        let s := (s.unlockAll.commit s.clk.target false).setFld Fld.CLK_STAT.LULL 2
        if same then s.restartCk else s.setFld Fld.CLK_STAT.MPLL_LOCK 0
    else s)

/-- The MPLL locks for the set in force, on its stored band or one at most two away, or after a full search, which stores the new band
(R376). Bands that are tried become live without a commit: `ClkSt.band` is the band in use, and the sequencer writes a new stored band
into the pending copy. False where the band is none of those. DESIGN CHOICE, log entry 38. -/
def State.relock (s : State) (band : BitVec 6) (searched : Bool) : State × Bool :=
  let t := s.liveSet
  let stored := s.fld (Fld.CLK_TSET.BAND t)
  let s := { s with clk := { s.clk with band := band } }
  if searched then
    let s := (s.setFld (Fld.CLK_TSET.BAND t) band.toNat).setFld (Fld.CLK_TSET.BAND_VALID t) 1
    let s := { s with clk := { s.clk with mpllPend := { s.clk.mpllPend with band := band } } }
    ((s.bump Reg.CLK_BANDSRCH).event 0x900B (t + (band.toNat <<< 8)), true)
  else (s, decide ((band.toNat : Int) - stored ≤ 2) && decide ((stored : Int) - band.toNat ≤ 2))

/-- `MPLL_LOCK` (R376, R384 L4, R387 E5). -/
def execMpllLock (band : BitVec 6) (searched : Bool) (s : State) : Host.Outcome State Fault Refusal :=
  .next (
    let r := s.relock band searched
    if s.lulling && s.clk.entered && !s.flag Fld.CLK_STAT.MPLL_LOCK &&
        (s.fld Fld.CLK_STAT.LULL = 2 || s.fld Fld.CLK_STAT.LULL = 5) && r.2 then
      (r.1.setFld Fld.CLK_STAT.MPLL_LOCK 1).restartCk.tryReady
    else s)

/-- `EXIT_REQUEST` (R386): two in one core cycle are one. -/
def execExitRequest (s : State) : Host.Outcome State Fault Refusal :=
  .next (
    if s.clk.exitSeen then s
    else
      let s := { s with clk := { s.clk with exitSeen := true } }
      if s.lulling then ({ s with clk := { s.clk with exitAsked := true } }).tryExit
      else (s.bump Reg.CLK_LULLIGN).freeEvent 0x900A)

/-- `SR_MIN_ELAPSED` (R386). -/
def execSrMinElapsed (s : State) : Host.Outcome State Fault Refusal :=
  .next (if s.lulling && s.clk.entered then ({ s with clk := { s.clk with srDone := true } }).tryExit else s)

/-! ### DLLs (R379 to R381, R385) -/

/-- The last phase error, saturated at −127, and the code of a DLL (R396). -/
def State.dllReport (s : State) (n : Nat) (code : BitVec 7) (err : Byte) : State :=
  (s.setFld (Fld.CLK_DLL.CODE n) code.toNat).setFld (Fld.CLK_DLL.ERR n) (if err == 0x80 then 0x81 else err.toNat)

/-- A run or restore meets a loss of lock: no step until a millisecond after the next lock (R307). -/
def State.barSteps (s : State) (n : Nat) : State :=
  let bar := s.cal.bar.filter fun q => q.1 != n
  if (s.run (2 * n)).isSome || (s.run (2 * n + 1)).isSome || s.cal.bar.any (fun q => q.1 == n) then
    { s with cal := { s.cal with bar := bar ++ [(n, Option.none)] } }
  else s

/-- The lock is back, in a Lull or out of one: the millisecond begins. -/
def State.timeBar (s : State) (n : Nat) : State :=
  { s with cal := { s.cal with bar := s.cal.bar.map fun q => if q.1 == n then (n, some s.time.elapsed) else q } }

/-- A phase error lies within ±`k` × `LOCK_WIN` steps (R380). -/
def State.errWithin (s : State) (k : Nat) (err : Byte) : Bool := decide ((signed8 err.toNat).natAbs ≤ k * s.fld Fld.CLK_LOCKCFG.LOCK_WIN)

/-- `DLL_LOCK` (R380, R381 step 4, R382 K4, R384 L5): the DLL declares lock, its error having stayed within `LOCK_WIN` for `LOCK_N`
reference cycles; with a greater error it declares none. -/
def execDllLock (sc : Fin 16) (code : BitVec 7) (err : Byte) (s : State) : Host.Outcome State Fault Refusal :=
  .next (
    let n := sc.val
    if s.top.coreOn && s.popSubs.contains n && s.flag Fld.CLK_STAT.MPLL_LOCK then
      let s := s.dllReport n code err
      if !s.errWithin 1 err then s
      else
      let s := (s.setFld (Fld.CLK_DLL.LOCKED n) 1).setFld (Fld.CLK_DLL.STUCK n) 0
      let back := s.clk.losing.contains n
      let s := if back then (({ s with clk := { s.clk with losing := s.clk.losing.filter (· != n) } }).timeBar n) else s
      if s.lulling then s.tryReady
      else
        let s := s.startSpread
        if back then s.wakeUp n
        else if (s.training n).step = 13 then s.restoreSub n
        else s
    else s)

/-- `DLL_LOSS_OF_LOCK` (R380, R381): its error having exceeded 2 × `LOCK_WIN` for four reference cycles, else the declaration is
kept. The code freezes and the sub-channel's ranks go to self-refresh. During a Lull the DLL starts again under R385. -/
def execDllLossOfLock (sc : Fin 16) (code : BitVec 7) (err : Byte) (s : State) : Host.Outcome State Fault Refusal :=
  .next (
    let n := sc.val
    if s.popSubs.contains n && s.dllLocked n then
      let s := s.dllReport n code err
      if s.errWithin 2 err then s
      else
      let s := s.setFld (Fld.CLK_DLL.LOCKED n) 0
      let s := (s.bump Reg.CLK_DLLLOSS).event 0x9007 (n <<< 28)
      if s.lulling then { s with clk := { s.clk with ready := false } }
      else
        match s.top.state with
        | .join | .service | .gust | .restore =>
          let s := (s.barSteps n).abandonSub n 3
          let s := { s with clk := { s.clk with losing := if s.clk.losing.contains n then s.clk.losing else s.clk.losing ++ [n] } }
          s.sleepSub n
        | _ => s
    else s)

/-- `DLL_STUCK` (R381, R385): no lock within 100 µs of a loss, or after three restarts at L5. -/
def execDllStuck (sc : Fin 16) (s : State) : Host.Outcome State Fault Refusal :=
  .next (
    let n := sc.val
    let due := s.clk.losing.contains n ||
      (s.lulling && s.clk.entered && decide (Tab.get (fun _ => 0) s.clk.retries n ≥ 3)) || s.top.state == .restore
    if s.popSubs.contains n && !s.dllLocked n && !s.dllStuck n && due then
      let s := (s.setFld (Fld.CLK_DLL.STUCK n) 1).event 0x9007 ((n <<< 28) + 0x100)
      s.tryReady
    else s)

/-- `DLL_LOCK_RETRY` (R381, R385): acquisition restarts. -/
def execDllLockRetry (sc : Fin 16) (s : State) : Host.Outcome State Fault Refusal :=
  .next (
    let n := sc.val
    if s.popSubs.contains n && !s.dllLocked n && s.lulling then
      let k := Tab.get (fun _ => 0) s.clk.retries n
      { s with clk := { s.clk with retries := Tab.set (fun _ => 0) s.clk.retries n (min 3 (k + 1)) } }
    else s)

/-- The millisecond after a lock has passed: a run becomes due (R307). -/
def State.endBars (s : State) : State :=
  let ended := s.cal.bar.filter fun q => match q.2 with
    | some t => decide (s.time.elapsed ≥ t + 8000000)
    | none => false
  if ended.isEmpty then s
  else foldS ended (fun s q => s.makeDue q.1) { s with cal := { s.cal with bar := s.cal.bar.filter fun q => !ended.contains q } }

/-! ### Loss of reference or lock (R387 to R389) -/

/-- Without their reference both PLLs only hold, and declare no lock (R387). DEDUCED, log entry 38. -/
def State.dropLocks (s : State) (cause : Nat) : State :=
  if cause = 1 then (s.setFld Fld.CLK_STAT.MPLL_LOCK 0).setFld Fld.CLK_STAT.CPLL_LOCK 0 else s

/-- A loss meets an emergency Lull (R387). One of an input that is not the reference at hand changes nothing; else the PLLs relock once
more. Until step E5 a reference loss stays the cause. DESIGN CHOICE, log entry 38. -/
def State.moreEmergency (s : State) (cause : Nat) : State :=
  if cause = 1 && s.fld Fld.CLK_STAT.REFSRC != 0 then s
  else
    let s := s.dropLocks cause
    let s := { s with clk := { s.clk with
      emerg := if s.clk.emerg = 1 && decide (s.clk.estep < 5) then 1 else cause,
      estep := if s.clk.entered then 3 else 2, spread := Option.none, ready := false } }
    s.setFld Fld.CLK_STAT.LULL 4

/-- An emergency Lull begins, or a planned one becomes one (R387 E1, R389). DESIGN CHOICE, log entry 38. -/
def State.startEmergency (s : State) (cause : Nat) : State :=
  match s.top.state with
  | .train | .join | .service | .restore =>
    if s.clk.emerg != 0 then s.moreEmergency cause
    else
      let s := ({ s with clk := { s.clk with spread := Option.none } }).dropLocks cause
      let before := s.clk.planned && !s.clk.entered
      let past := s.clk.planned && s.clk.entered
      let s := (s.bump Reg.CLK_EMERG).event 0x9005 cause
      let s := if before then
          ({ s with clk := { s.clk with planned := false } }).setFld Fld.CLK_LULLSTAT.LAST_RESULT 2
        else s
      let s := if before then (s.setFld Fld.CLK_LULLSTAT.LAST_TARGET s.clk.target).event 0x9002 1 else s
      let s := if s.clk.planned || before then s else { s with clk := { s.clk with began := s.time.elapsed } }
      let s := { s with clk := { s.clk with
        emerg := cause, estep := if past then 3 else 2, entered := past, ready := false, exitAsked := false,
        srDone := past && s.clk.srDone } }
      let s := if past then s else s.holdAll
      s.setFld Fld.CLK_STAT.LULL 4
  | _ => s

/-- `REFCLK_LOST` (R371, R387). -/
def execRefclkLost (s : State) : Host.Outcome State Fault Refusal :=
  .next (
    let s := { s with clk := { s.clk with refIn := false } }
    if s.top.coreOn then
      let s := (s.setFld Fld.CLK_STAT.REF_OK 0).bump Reg.CLK_REFLOSS
      (s.event 0x9003 (if s.flag Fld.CLK_STAT.BYP_OK then 1 else 2)).startEmergency 1
    else s)

/-- `PLL_LOSS_OF_LOCK` (R387): the CPLL relocks with its stored band up to three times. -/
def execPllLossOfLock (pll : PllName) (attempts : BitVec 2) (s : State) : Host.Outcome State Fault Refusal :=
  .next (
    if s.top.coreOn then
      match pll with
      | .mpll => ((s.setFld Fld.CLK_STAT.MPLL_LOCK 0).event 0x9008 s.clk.band.toNat).startEmergency 2
      | .cpll => ((s.setFld Fld.CLK_STAT.CPLL_LOCK 0).event 0x9009 attempts.toNat).startEmergency 3
    else s)

/-- A power-loss trigger lets the ranks leave self-refresh on the clock at hand, for Gust to drain them (R389): those of sub-channels
whose DLL is neither stuck nor lost, at the set whose dividers are live. What the Lull reached is counted and reported as at its end. -/
def State.releaseForGust (s : State) : State :=
  s.restartCk.switchSet.endLullWith fun n s => if s.clk.losing.contains n then s else (s.wakeSub n).writeSettings n s.liveSet

/-- Step E5: back to REFCLK, and the PLLs relock with their stored bands. -/
def State.emergencyBack (s : State) : State :=
  let s := ((s.setFld Fld.CLK_STAT.REFSRC 0).unlockAll).commit s.liveSet false
  let s := { s with clk := { s.clk with estep := 5 } }
  (s.setFld Fld.CLK_STAT.MPLL_LOCK 0).setFld Fld.CLK_STAT.LULL 5

/-- The MPLL locks at step E3, in a band that is a free value, and after a search where that is none of the stored band's (R376, R387).
DESIGN CHOICE, log entry 38. -/
def State.relockFree (s : State) : State :=
  let d := s.draw
  let band := BitVec.ofNat 6 (Config.freeNat d.1)
  let r := d.2.relock band (Config.freeBit d.1)
  if r.2 then r.1 else (d.2.relock band true).1

/-- `EMERGENCY_RELOCK` (R376, R387 E3): on a reference loss BYPCLK or the oscillator is selected; both PLLs relock, the CPLL in its own
band. Where REFCLK has come back meanwhile, step E4 is over at once. -/
def execEmergencyRelock (s : State) : Host.Outcome State Fault Refusal :=
  .next (
    if s.clk.emerg != 0 && s.clk.estep = 3 && s.clk.entered then
      let src := if s.clk.emerg = 1 then (if s.flag Fld.CLK_STAT.BYP_OK then 1 else 2) else 0
      let s := (s.setFld Fld.CLK_STAT.REFSRC src).unlockAll
      let s := (s.commit s.liveSet (src == 2)).relockFree.setFld Fld.CLK_STAT.CPLL_LOCK 1
      let s := ((s.setFld Fld.CLK_STAT.MPLL_LOCK 1).restartCk).setFld Fld.CLK_STAT.LULL 4
      let s := { s with clk := { s.clk with estep := 4 } }
      if s.top.trigger.isSome then s.releaseForGust
      else if s.clk.emerg = 1 && s.flag Fld.CLK_STAT.REF_OK then s.emergencyBack
      else s
    else s)

/-- `BYPCLK_LOST` (R371): in use as the reference, it is replaced by relocking (R387 E3). -/
def execBypclkLost (s : State) : Host.Outcome State Fault Refusal :=
  .next (
    let s := s.setFld Fld.CLK_STAT.BYP_OK 0
    if s.clk.emerg != 0 && s.fld Fld.CLK_STAT.REFSRC = 1 then
      ({ s with clk := { s.clk with estep := 3, ready := false } }).setFld Fld.CLK_STAT.MPLL_LOCK 0
    else s)

/-- `PLL_LOCK_QUALIFIED` (R387 E4): the MPLL has stayed locked on REFCLK for `REF_QUAL`. -/
def execPllLockQualified (s : State) : Host.Outcome State Fault Refusal :=
  .next (
    if s.clk.emerg ≥ 2 && s.clk.estep = 4 && s.flag Fld.CLK_STAT.REF_OK then s.emergencyBack else s)

/-- `EMERGENCY_SECOND` (R388). -/
def execEmergencySecond (s : State) : Host.Outcome State Fault Refusal :=
  .next (if s.clk.emerg != 0 && s.clk.estep = 4 then s.event 0x9005 s.clk.emerg else s)

/-- A power-loss trigger meets a Lull (R389): before L3 the planned Lull ends with reason 0x2; at E4 the ranks wake. -/
def State.triggerLull (s : State) : State :=
  if s.clk.planned && s.clk.emerg = 0 && s.fld Fld.CLK_STAT.LULL = 1 then
    let s := (s.setFld Fld.CLK_LULLSTAT.LAST_RESULT 2).setFld Fld.CLK_LULLSTAT.LAST_TARGET s.clk.target
    let s := s.event 0x9002 2
    ({ s with clk := { s.clk with planned := false } }).releaseForGust
  else if s.clk.emerg != 0 && s.clk.estep = 4 then s.releaseForGust
  else s

end Sys2Proof.Machine
end

