-- ==== Sys2Proof/Machine/Flash.lean ====
section
/-!
DEFINITION. The CFG flash as bytes (R469), the log area's slots (R507), and a page program that is cut off (R510).
-/

namespace Sys2Proof.Machine

/-! ### Flash bytes (R469) -/

/-- A flash byte; one that nothing has written reads as erased. DEDUCED, log entry 10. -/
def State.flashByte (s : State) (a : Nat) : Byte := Tab.get (fun _ => (0xFF : Byte)) s.flash a

/-- Program bytes from an address on: a program clears bits and sets none. -/
def programBytes (a : Nat) : List Byte → Tab Byte → Tab Byte
  | [], t => t
  | b :: r, t => programBytes (a + 1) r (Tab.set (fun _ => (0xFF : Byte)) t a (Tab.get (fun _ => (0xFF : Byte)) t a &&& b))

def State.program (s : State) (a : Nat) (l : List Byte) : State := { s with flash := programBytes a l s.flash }

/-- Erase the 4 KiB sector at an address. -/
def State.eraseSector (s : State) (a : Nat) : State :=
  let lo := a / 4096 * 4096
  { s with flash := s.flash.filter fun (p : Nat × Byte) => decide (p.1 < lo) || decide (lo + 4096 ≤ p.1) }

/-- `n` bytes from an address on. -/
def State.flashBytes (s : State) (a n : Nat) : List Byte := (List.range n).map fun i => s.flashByte (a + i)

/-- A range reads all ones. -/
def State.blank (s : State) (a n : Nat) : Bool :=
  !s.flash.any fun (p : Nat × Byte) => decide (a ≤ p.1) && decide (p.1 < a + n)

/-! ### The log area (R507) -/

/-- Record slots of the log area, 64 to a sector. -/
def logSlots : Nat := 261120

def logSectors : Nat := 4080

/-- Flash address of a record slot. -/
def logAddr (slot : Nat) : Nat := 0x1010000 + 64 * slot

/-- The next record to write: those made from saved state first. -/
def State.nextRecord (s : State) : Option RingEntry :=
  match s.log.late with
  | e :: _ => some e
  | [] => (s.log.ring.drop s.log.rdLog).head?

/-- Records that the page program now in progress may hold: the core programs while records wait; from a power-loss trigger on only the
program it had in progress then goes on (R509, R510). -/
def State.mayProgram (s : State) : Nat :=
  if !s.log.ready || !s.top.coreOn then 0
  else if s.top.trigger.isSome then s.log.going
  else min (4 - s.log.slot % 4) (s.log.late.length + (s.log.ring.length - s.log.rdLog))

/-- The core loses power or is reset (R510, R519). Whether it has a program in progress is a free value; one that is cut off leaves
a record that is never valid, and of whose bytes all but the first are free values. DESIGN CHOICE, log entry 14. -/
def State.tear (s : State) : State :=
  if s.mayProgram = 0 || !s.blank (logAddr s.log.slot) 64 then s
  else
    let d := s.draw
    if Config.freeBit d.1 then
      let n := d.2.free
      ({ d.2 with free := n + 63 }).program (logAddr s.log.slot) (0 :: (List.range 63).map fun i => Config.freeByte (n + i))
    else d.2

end Sys2Proof.Machine
end

