-- ==== Sys2Proof/Machine/Rails.lean ====
section
/-!
DEFINITION. Rails, sequencing and supervision (R398 to R423): the start and shutdown tables, supervision and rail faults,
the contents-valid flag, and what stops with the core domain.
-/

namespace Sys2Proof.Machine

/-! ### Rails and outputs (R402, R403, R407, R409) -/

/-- Set a rail's supervision state; `ARMED` follows it (R421). -/
def State.setRail (s : State) (n : Nat) (r : RailState) : State :=
  let s := { s with pwr := { s.pwr with rails := Tab.set (fun _ => .off) s.pwr.rails n r } }
  s.setFld Fld.PWR_RAILSTAT.ARMED (maskOf ((List.range 16).filter s.railArmed))

/-- One bit of a field. -/
def State.fldBit (s : State) (f : Fld) (i : Nat) : Bool := (s.fld f).testBit i

def State.setFldBit (s : State) (f : Fld) (i : Nat) (b : Bool) : State :=
  let v := s.fld f
  s.setFld f (if v.testBit i == b then v else v ^^^ (1 <<< i))

/-- The EN output of a rail is high; a rail with `NO_EN` has none, and counts as long as it is up. -/
def State.railOn (s : State) (n : Nat) : Bool :=
  if s.flag (Fld.PWR_RAILCFG.NO_EN n) then s.railArmed n || s.railRamping n
  else s.fldBit Fld.PWR_SEQSTAT.ENOUT (s.fld (Fld.PWR_RAILCFG.EN n))

/-- Drive a rail's EN output (R402, R407). -/
def State.driveEn (s : State) (n : Nat) (b : Bool) : State :=
  if s.flag (Fld.PWR_RAILCFG.NO_EN n) then s else s.setFldBit Fld.PWR_SEQSTAT.ENOUT (s.fld (Fld.PWR_RAILCFG.EN n)) b

/-- Some EN output is high. -/
def State.anyEn (s : State) : Bool := s.fld Fld.PWR_SEQSTAT.ENOUT != 0

/-- The comparator finds the rail in window. DEDUCED, log entry 28. -/
def State.railIn (s : State) (n : Nat) : Bool := s.fldBit Fld.PWR_RAILSTAT.INWIN n

/-! ### The contents-valid flag (R445) -/

/-- Set the flag in the AON domain and in the VBAT register file, and report it. -/
def State.setValid (s : State) : State :=
  let s := { s with vbat := { s.vbat with cvalid := true } }
  (s.setFld Fld.PWR_HOLD.CVALID 1).event 0xA032 0

/-- Clear the flag; the clearing records its reason and is owed to the log. -/
def State.clearValid (s : State) (reason : BitVec 4) : State :=
  let s := { s with vbat := { s.vbat with cvalid := false, reason := reason, owed := true } }
  s.setFld Fld.PWR_HOLD.CVALID 0

/-- A clearing of the contents-valid flag that the core sees is logged at once (R445). DESIGN CHOICE, log entry 15. -/
def State.noteClearing (s : State) : State :=
  ({ s with vbat := { s.vbat with owed := false } }).freeEvent Config.clearCode

/-! ### The core domain starts and stops (R282, R382, R436, R527) -/

/-- The address lies in the AON or the VBAT domain (R526). -/
def aonReg (a : Nat) : Bool :=
  let b := a >>> 16
  b == 0x0 || b == 0xA || b == 0xC || b == 0xD || (0x0B000C ≤ a && a ≤ 0x0B0018)

/-- Pads that are not retained are at high impedance (R286). -/
def SubPins.quiet (p : SubPins) : SubPins := { p with ca := Option.none, beats := [], dqs := [], crc := [] }

/-- What stays of Drive while the core is off: the ranks in self-refresh, the retained pads and the device settings (R286, R287). -/
def State.keptPins (s : State) : Tab SubCh :=
  (List.range 16).foldl (fun t n =>
    let c := s.sub n
    Tab.set (fun _ => {}) t n { sref := c.sref, pins := { c.pins.quiet with powered := false } }) []

/-- The bits of a core register that outlive the core's power: its RO/L fields, each held until its own release (R6), and the fields
of a port's last negotiation, whose rules say how long they stand (R118, R119). DESIGN CHOICE, log entry 34. -/
def latchedBits (a : Nat) : Word :=
  let o := a % 0x1000
  if 0x010000 ≤ a && a < 0x015000 && o = 0x030 then 0xF00
  else if 0x010000 ≤ a && a < 0x015000 && (o = 0x034 || o = 0x038) then 0xFFFFFFFF
  else match regRow a with
    | some r => r.rol
    | none => 0

/-- What a register holds once the core domain has lost power (R6, R526, R527). -/
def keptReg (p : Nat × Word) : Option (Nat × Word) :=
  if aonReg p.1 then some p
  else
    let w := (p.2 &&& latchedBits p.1) ||| (regReset p.1 &&& ~~~latchedBits p.1)
    if w = regReset p.1 then none else some (p.1, w)

/-- The core domain loses power: its registers, buffers and queues are gone. The retention store, the retirement state, what a
latched field has captured (R6), the cells bypassed (R297) and everything of the AON and VBAT domains stay; a directive in progress
is so no longer. What arrives on the REFCLK pin stays too. DESIGN CHOICE, log entry 34. -/
def State.coreStop (s : State) : State :=
  let s := s.tear.setFld Fld.GLB_DIRSTAT.BUSY 0
  let s := { s with regs := s.regs.filterMap keptReg }
  let s := { s with links := [] }
  { s with
    top := { s.top with coreOn := false }, rx := [], twin := {}, ord := {}, map := {}, mir := {}, sch := s.keptPins, clk := { refIn := s.clk.refIn },
    flt := { s.flt with copyOn := false, unsettled := [], converting := [], readmit := Option.none },
    cal := { valid := s.cal.valid, geom := s.cal.geom, hubId := s.cal.hubId, tset := s.cal.tset, bin := s.cal.bin, temps := s.cal.temps, live := s.cal.live,
             cells := s.cal.cells, window := s.cal.window, eyeB := s.cal.eyeB },
    boot := { warm := s.boot.warm, uses := s.boot.uses },
    log := { s.log with ready := false, rdU := [], going := 0 } }

/-- The core domain starts (R382 K1, K2): the CPLL's band is searched, which the manual leaves to the part, so it is a free value; the
CPLL locks on REFCLK in it, and `REF_OK` tells that REFCLK is qualified (R371). DESIGN CHOICE, log entry 38. -/
def State.coreStart (s : State) : State :=
  let d := s.draw
  let c := cpllSet (BitVec.ofNat 6 (Config.freeNat d.1))
  let s := d.2
  let s := { s with
    top := { s.top with coreOn := true }, time := { s.time with cycle := 0 },
    clk := { s.clk with cpllPend := c, cpllLive := c } }
  (s.setFlag Fld.CLK_STAT.REF_OK s.clk.refIn).setFld Fld.CLK_STAT.CPLL_LOCK 1

/-- The DRAM rails are down, so the devices' contents are gone and the retained pins have followed VDDQM (R288).
DESIGN CHOICE, log entry 9. -/
def State.loseDram (s : State) : State :=
  let s := { s with sch := [] }
  { s with dram := [], fmt := Option.none }

/-- Every output of the sequencer falls and no table runs. -/
def State.allLow (s : State) : State :=
  let s := { s with pwr := { s.pwr with
    rails := [], order := [], part := 0, acted := false, ended := false, stretch := [], bootWait := false, stop := [], stopActed := false, droop := false,
    holdLow := false, latch := false } }
  let s := (s.setReg Reg.PWR_SEQSTAT 0).setFld Fld.PWR_RAILSTAT.ARMED 0
  s.setFld Fld.PWR_HOLD.HOLD_EN 0

/-- No trigger is registered or awaited any more (R432). -/
def State.dropTrigger (s : State) : State :=
  { s with
    top := { s.top with trigger := Option.none }, gust := { s.gust with step := 0, rst := 0 },
    pwr := { s.pwr with det := Option.none } }

/-- `STANDBY` with VBAT present, else `OFF`: every output is low and the gates are off (R23, R409). The next start of the AON
domain is a cold boot (R457). DEDUCED, log entry 28. -/
def State.goDark (s : State) : State :=
  let s := s.goTo (if s.vbat.present then .standby else .off) 0x00
  let s := { s with pwr := { s.pwr with overlap := Option.none, fresh := Option.none }, fuse := { s.fuse with read := false } }
  let s := (s.coreStop.allLow.dropTrigger.loseDram).setFld Fld.PWR_FEEDSTAT.GATE_A 0
  (s.setFld Fld.PWR_FEEDSTAT.GATE_B 0).setFld Fld.PWR_HOLD.EARLY 0

/-! ### Rail faults (R412 to R417) -/

/-- The latest reading of every VMON input. -/
def State.allReadings (s : State) : List (BitVec 12) :=
  (List.range 16).map fun n => BitVec.ofNat 12 (s.fld (Fld.PWR_RAILRD.READING n))

/-- The rails that a declaration of the next 1 µs would still find supervised (R403, R411, R414). -/
def State.failWatch (s : State) : FailWatch where
  above := (List.range 16).filter fun k => s.faultDue k true
  below := (List.range 16).filter fun k => s.faultDue k false
  start := (List.range 16).filter s.startFaultDue

/-- A rail fault (R413, R416): everything falls, the record is captured in both domains unless one is still held, the flag
is cleared, and the hub enters `FAULT_OFF`. DESIGN CHOICE, log entry 5; DEDUCED, log entry 28. -/
def State.railFault (s : State) (n : Nat) (kind : BitVec 2) : State :=
  let watch := s.failWatch
  let r : FaultRec :=
    { first := n, kind := kind, mask := BitVec.ofNat 16 (1 <<< n), state := s.top.state, stamp := s.stamp, tq := s.quality,
      readings := s.allReadings }
  let held := s.pwr.record.isSome || s.vbat.record.isSome
  let s := if held then s
    else
      let s := { s with pwr := { s.pwr with record := some r }, vbat := { s.vbat with record := some r } }
      s.setFld Fld.GLB_EVENT.RAILSNAP 1
  let s := (s.bumpF Fld.PWR_FAULTS.FAULTS).allLow
  let s := { s with pwr := { s.pwr with failAt := s.time.elapsed, failWatch := if held then {} else watch } }
  let s := (s.clearValid 0x7).goTo .faultOff 0x11
  s.coreStop.dropTrigger.loseDram

/-- A second rail declared within 1 µs of the first is added to the record only, if it was supervised on that side; in the same cycle
the lower index is `FIRST` (R403, R414). -/
def State.joinFault (s : State) (watched : List Nat) (n : Nat) (kind : BitVec 2) : State :=
  if !watched.contains n || decide (s.pwr.failAt + 8000 < s.time.elapsed) then s
  else
  let same := decide (s.time.elapsed = s.pwr.failAt)
  let upd := fun (r : FaultRec) =>
    let r := { r with mask := r.mask ||| BitVec.ofNat 16 (1 <<< n) }
    if same && decide (n < r.first) then { r with first := n, kind := kind } else r
  { s with pwr := { s.pwr with record := s.pwr.record.map upd }, vbat := { s.vbat with record := s.vbat.record.map upd } }

/-- An input is out of excursion. -/
def State.endExc (s : State) (k : Nat) : State := { s with pwr := { s.pwr with exc := s.pwr.exc.filter (· != k) } }

/-- `RAIL_OUT_OF_WINDOW` (R401, R403, R411, R412, R414). -/
def execRailOutOfWindow (rail : Fin 16) (above : Bool) (s : State) : Host.Outcome State Fault Refusal :=
  .next (
    let n := rail.val
    let kind : BitVec 2 := if above then 2 else 1
    if !s.top.aonOn || !s.railUsed n then s
    else
      let s := (s.endExc n).setFldBit Fld.PWR_RAILSTAT.INWIN n false
      if s.top.state == .faultOff then
        s.joinFault (if above then s.pwr.failWatch.above else s.pwr.failWatch.below) n kind
      else if s.faultDue n above then (if s.outranked 2 then s else s.railFault n kind)
      else if s.railArmed n then (s.setRail n .disarmed).event 0xA012 n
      else s)

/-- The key of a supervised input in the list of excursions. -/
def MonInput.key : MonInput → Nat
  | .rail n => n.val
  | .feed .a => 16
  | .feed .b => 17

/-- `EXCURSION_START` (R400, R401): the comparator leaves its window and the filter counter runs.
DESIGN CHOICE, log entry 29. -/
def execExcursionStart (input : MonInput) (s : State) : Host.Outcome State Fault Refusal :=
  .next (
    if !s.top.aonOn then s
    else
      let k := Sys2Proof.Machine.MonInput.key input
      let s := if s.pwr.exc.contains k then s else { s with pwr := { s.pwr with exc := s.pwr.exc ++ [k] } }
      match input with
      | .rail n => s.setFldBit Fld.PWR_RAILSTAT.INWIN n.val false
      | .feed _ => s)

/-- `RAIL_BACK_IN_WINDOW` (R400, R401): the filter counter restarts from 0. -/
def execRailBackInWindow (input : MonInput) (s : State) : Host.Outcome State Fault Refusal :=
  .next (
    if !s.top.aonOn then s
    else
      let s := s.endExc (Sys2Proof.Machine.MonInput.key input)
      match input with
      | .rail n => s.setFldBit Fld.PWR_RAILSTAT.INWIN n.val true
      | .feed _ => s)

/-! ### The start table (R404, R405, R409) -/

/-- The row the sequencer stands at. -/
def State.seqRow (s : State) : Nat := s.fld Fld.PWR_SEQSTAT.ROW

/-- A section ends at its first end row, after row 3 for the boot section, or after row 31. -/
def State.checkEnd (s : State) (r : Nat) : State :=
  if (s.pwr.part = 1 && r ≥ 4) || r ≥ 32 || s.fld (Fld.PWR_START.ACTION r) = 0 then
    { s with pwr := { s.pwr with ended := true, acted := false } }
  else ({ s with pwr := { s.pwr with acted := false } }).setFld Fld.PWR_SEQSTAT.ROW r

/-- Start a section: 1 the boot section, 2 the memory section. -/
def State.startSection (s : State) (part : Nat) : State :=
  let s := { s with pwr := { s.pwr with
    part := part, acted := false, ended := false, began := s.time.elapsed, stretch := [], bootWait := false, stop := [],
    stopActed := false } }
  let r := if part = 1 then 0 else 4
  ((s.setFld Fld.PWR_SEQSTAT.TABLE 1).setFld Fld.PWR_SEQSTAT.ROW r).checkEnd r

/-- The current row completes and the next begins. DEDUCED, log entry 28. -/
def State.rowDone (s : State) : State := s.checkEnd (s.seqRow + 1)

/-- The condition the current row waits for. -/
def State.rowWaits (s : State) (action target : Nat) : Bool :=
  s.pwr.part != 0 && s.pwr.acted && !s.pwr.ended && s.fld (Fld.PWR_START.ACTION s.seqRow) = action &&
    s.fld (Fld.PWR_START.TARGET s.seqRow) = target

/-- A row takes its action; with `NOWAIT` it completes at once and its condition is followed in the background.
DEDUCED, log entry 28. -/
def State.rowActs (s : State) : State :=
  if s.flag (Fld.PWR_START.NOWAIT s.seqRow) then s.rowDone else { s with pwr := { s.pwr with acted := true } }

/-- `START_ROW_DELAY_END` (R404): the row takes its action. The enable row of a rail already armed is skipped (R405), as is
that of a rail not used. DESIGN CHOICE, log entry 5. -/
def execStartRowDelayEnd (s : State) : Host.Outcome State Fault Refusal :=
  .next (
    if s.pwr.part = 0 || s.pwr.ended || s.pwr.acted then s
    else
      let r := s.seqRow
      let n := s.fld (Fld.PWR_START.TARGET r)
      match s.fld (Fld.PWR_START.ACTION r) with
      | 1 =>
        if !s.railUsed n || s.railArmed n then s.rowDone
        else
          let s := (s.driveEn n true).setRail n .ramping
          ({ s with pwr := { s.pwr with order := s.pwr.order.filter (· != n) ++ [n] } }).rowActs
      | 2 =>
        if n < 4 then ({ s with pwr := { s.pwr with stretch := s.pwr.stretch.filter (· != n) ++ [n] } }).rowActs else s.rowDone
      | _ => s.rowDone)

/-- `RAIL_ARMED` (R402, R404): the rail has stayed in window for its dwell. -/
def execRailArmed (rail : Fin 16) (s : State) : Host.Outcome State Fault Refusal :=
  .next (
    let n := rail.val
    if s.railRamping n && s.railIn n then
      let waits := s.rowWaits 1 n
      let s := s.setRail n .armed
      if waits then s.rowDone else s
    else s)

/-- `RAIL_START_TIMEOUT` (R404, R412, R414): a rail fault. DESIGN CHOICE, log entry 5. -/
def execRailStartTimeout (rail : Fin 16) (s : State) : Host.Outcome State Fault Refusal :=
  .next (
    if s.top.state == .faultOff then s.joinFault s.pwr.failWatch.start rail.val 3
    else if s.startFaultDue rail.val && !s.outranked 2 then s.railFault rail.val 3 else s)

/-- `RESET_STRETCH_END` (R404, R409). -/
def execResetStretchEnd (k : Fin 4) (s : State) : Host.Outcome State Fault Refusal :=
  .next (
    if s.pwr.stretch.contains k.val then
      let waits := s.rowWaits 2 k.val
      let s := { s with pwr := { s.pwr with stretch := s.pwr.stretch.filter (· != k.val) } }
      let s := s.setFldBit Fld.PWR_SEQSTAT.RELEASED k.val true
      if waits then s.rowDone else s
    else s)

/-- Every row of the section has completed, background conditions included. -/
def State.sectionOver (s : State) : Bool :=
  s.pwr.part != 0 && s.pwr.ended && s.pwr.stretch.isEmpty && !(List.range 16).any s.railRamping

/-- The boot section has completed: once REFCLK is present, and in `SEQUENCE` the core supply monitor reports good, the core domain
starts, and `SEQUENCE` leads to `BOOT` (R21, R23, R382 K1 and K2, R405). -/
def State.bootOn (s : State) : State :=
  if !s.pwr.bootWait || !s.clk.refIn || s.outranked 7 then s
  else
    let t := { s with pwr := { s.pwr with bootWait := false } }
    match s.top.state with
    | .sequence => if s.pwr.supplyOk then t.coreStart.goTo .boot 0x03 else s
    | .restore => t.coreStart
    | _ => t

/-- `START_SECTION_COMPLETE` (R404, R405, R382, R447): every row of the section has completed. The boot section starts the core
domain and leads from `SEQUENCE` to `BOOT` once REFCLK is present and the core supply monitor reports good; the memory
section leads to step T1 or S1. In `RESTORE` step K3 finds the bands. DESIGN CHOICE, log entry 33. -/
def execStartSectionComplete (found : SectionEnd) (s : State) : Host.Outcome State Fault Refusal :=
  .next (
    let s := { s with pwr := { s.pwr with supplyOk := found.supply } }
    if !s.sectionOver then s.bootOn
    else if s.outranked 7 then s
    else
      let part := s.pwr.part
      let dur := min 0xFFFF ((s.time.elapsed - s.pwr.began) / 80000)
      let s := { s with pwr := { s.pwr with part := 0, ended := false, acted := false } }
      let s := (s.setFld Fld.PWR_SEQSTAT.TABLE 0).event 0xA001 ((part - 1) + (dur <<< 16))
      match part, s.top.state with
      | 2, .train => s.startTraining
      | 2, .restore =>
        let t := if s.storeReason = 0 then s.cal.tset else s.fld Fld.CLK_CFG.BOOT_TSET
        let s := (s.bringUp found.bands t).startRestoring
        { s with pwr := { s.pwr with latch := false }, gust := { s.gust with rst := 3 } }
      | 1, _ => ({ s with pwr := { s.pwr with bootWait := true } }).bootOn
      | _, _ => s)

/-- `REF_QUALIFIED` (R371, R387 E4). While the core domain is off REFCLK qualifies before its registers run, and the boot section may
be waiting for it (R405). -/
def execRefQualified (input : RefInput) (s : State) : Host.Outcome State Fault Refusal :=
  .next (
    match input with
    | .bypclk => if s.top.coreOn then s.setFld Fld.CLK_STAT.BYP_OK 1 else s
    | .refclk =>
      let s := { s with clk := { s.clk with refIn := true } }
      if s.top.coreOn then
        let s := s.setFld Fld.CLK_STAT.REF_OK 1
        if s.clk.emerg = 1 && s.clk.estep = 4 then s.emergencyBack else s
      else s.bootOn)

/-! ### The shutdown table (R410, R411) -/

/-- The fixed table: every reset asserted, then the enabled rails disabled in the reverse of their order, 2 ms for each. -/
def State.fixedStop (s : State) : List Word :=
  ((List.range 4).map fun k => BitVec.ofNat 32 ((2 <<< 30) + (k <<< 24))) ++
    (s.pwr.order.reverse.map fun n => BitVec.ofNat 32 ((1 <<< 30) + (n <<< 24) + (20 <<< 8)))

/-- The image's table, up to its first end row. DEDUCED, log entry 25. -/
def State.imageStop (s : State) : List Word :=
  ((List.range 16).map fun i => s.reg (Reg.PWR_STOP i)).takeWhile fun w => fieldGet w 31 30 != 0

/-- The rows of a form with their numbers. The image's table is in force once its configuration has been stored (R480).
DEDUCED, log entry 28. -/
def State.stopRows (s : State) : List (Nat × Word) :=
  let t := if s.cfgStore.ok then s.imageStop else s.fixedStop
  (List.range t.length).zip t

/-- The form disables the rail. -/
def State.formTakes (s : State) (n : Nat) : Bool :=
  match s.fld Fld.PWR_SEQSTAT.FORM with
  | 0 => true
  | 1 => !s.railHeld n
  | _ => s.railHeld n

/-- `DELAY` of a row, in model time (R420). -/
def stopDelay (w : Word) : Nat := fieldGet w 23 16 * 80000

/-- The row is skipped: it disables a rail that the form leaves, or whose EN output is already low (R410). -/
def State.stopSkips (s : State) (w : Word) : Bool :=
  fieldGet w 31 30 = 1 && !(s.formTakes (fieldGet w 27 24) && s.railOn (fieldGet w 27 24))

/-- The row in hand is over and the next one is taken up. -/
def State.nextStop (s : State) : State :=
  { s with pwr := { s.pwr with stop := s.pwr.stop.drop 1, stopFrom := s.time.elapsed, stopActed := false } }

/-- Run the rows as far as time allows: the `DELAY` of a row runs first, counted from the completion of the row before it; a disabled
rail is then waited for, and every other row completes at once (R410). -/
def State.takeStop : Nat → State → State
  | 0, s => s
  | k + 1, s =>
    match s.pwr.stop with
    | [] => s
    | (i, w) :: rest =>
      let n := fieldGet w 27 24
      if s.pwr.stopActed then s
      else if s.stopSkips w then State.takeStop k { s with pwr := { s.pwr with stop := rest } }
      else if s.time.elapsed < s.pwr.stopFrom + stopDelay w then s.setFld Fld.PWR_SEQSTAT.ROW i
      else
        let s := s.setFld Fld.PWR_SEQSTAT.ROW i
        match fieldGet w 31 30 with
        | 1 =>
          let s := (s.driveEn n false).setRail n .disarmed
          { s with pwr := { s.pwr with stopActed := true } }
        | 2 => State.takeStop k (s.setFldBit Fld.PWR_SEQSTAT.RELEASED n false).nextStop
        | _ => State.takeStop k s.nextStop

/-- The shutdown has no row left to run: the full and the held form end in `STANDBY` or `OFF`; after the partial one the
hub waits to enter `CALM`, or is in it. -/
def State.stopOver (s : State) : State :=
  if s.pwr.stop.isEmpty then
    match s.fld Fld.PWR_SEQSTAT.FORM with
    | 1 => s.setFld Fld.PWR_SEQSTAT.TABLE 0
    | _ => s.goDark
  else s

/-- Run the shutdown table on. -/
def State.runStop (s : State) : State := (State.takeStop s.pwr.stop.length s).stopOver

/-- Time has passed: a row of the shutdown table whose `DELAY` is over takes its action (R410). -/
def State.tickStop (s : State) : State := if s.pwr.stop.isEmpty || s.pwr.stopActed then s else s.runStop

/-- A start section that runs ends at its current row (R410). -/
def State.endSection (s : State) : State :=
  let s := { s with pwr := { s.pwr with bootWait := false } }
  if s.pwr.part = 0 then s
  else ({ s with pwr := { s.pwr with part := 0, acted := false, ended := false, stretch := [] } }).setFld Fld.PWR_SEQSTAT.TABLE 0

/-- Start the shutdown table in a form: 0 full, 1 partial, 2 held. -/
def State.startStop (s : State) (form : Nat) : State :=
  let s := s.endSection
  let s := { s with pwr := { s.pwr with stop := s.stopRows, stopFrom := s.time.elapsed, stopActed := false, droop := form == 0 } }
  ((s.setFld Fld.PWR_SEQSTAT.TABLE 2).setFld Fld.PWR_SEQSTAT.FORM form).runStop

/-- `SHUTDOWN_ROW_DONE` (R410): the disabled rail has discharged, or its `TMO` has passed; the next row's `DELAY` begins. -/
def execShutdownRowDone (timedOut : Bool) (s : State) : Host.Outcome State Fault Refusal :=
  .next (
    if !s.pwr.stopActed then s
    else
      let s := match s.pwr.stop with
        | (_, w) :: _ => if timedOut then s.event 0xA013 (fieldGet w 27 24) else s
        | [] => s
      s.nextStop.runStop)

end Sys2Proof.Machine
end

