-- ==== Sys2Proof/Machine/Cipher.lean ====
section
/-!
DEFINITION. The block cipher of the cipher core, AES with a key of 128 or 256 bits, and AES-CMAC (R474, R475), over lists of
bytes; a block's byte i is its i-th byte in memory order.
-/

namespace Sys2Proof.Machine

/-- Multiplication by x modulo x^8 + x^4 + x^3 + x + 1. -/
def aesX (a : Byte) : Byte := if a.msb then (a <<< 1) ^^^ 0x1B else a <<< 1

def aesMulAux : Nat → Byte → Byte → Byte → Byte
  | 0, _, _, acc => acc
  | k + 1, a, b, acc => aesMulAux k (aesX a) (b >>> 1) (if b.getLsbD 0 then acc ^^^ a else acc)

/-- Multiplication in the AES field. -/
def aesMul (a b : Byte) : Byte := aesMulAux 8 a b 0

def aesExp : Nat → Byte → Nat → Byte
  | 0, _, _ => 1
  | k + 1, a, n => aesMul (if n % 2 = 1 then a else 1) (aesExp k (aesMul a a) (n / 2))

/-- The inverse in the AES field, 0 for 0. -/
def aesInv (a : Byte) : Byte := aesExp 8 a 254

/-- The S-box. -/
def aesSub (a : Byte) : Byte :=
  let b := aesInv a
  b ^^^ b.rotateLeft 1 ^^^ b.rotateLeft 2 ^^^ b.rotateLeft 3 ^^^ b.rotateLeft 4 ^^^ 0x63

/-- The inverse S-box. -/
def aesUnsub (a : Byte) : Byte := aesInv (a.rotateLeft 1 ^^^ a.rotateLeft 3 ^^^ a.rotateLeft 6 ^^^ 0x05)

def xorBytes (a b : List Byte) : List Byte := List.zipWith (· ^^^ ·) a b

/-- The words of the key schedule, the newest first. `nk` is the key length in words. -/
def aesExpand (nk : Nat) : Nat → List (List Byte) → List (List Byte)
  | 0, ws => ws
  | k + 1, ws =>
    let i := ws.length
    let t := ws.headD []
    let t := if i % nk = 0 then xorBytes ((t.drop 1 ++ t.take 1).map aesSub) [aesExp 8 2 (i / nk - 1), 0, 0, 0]
      else if nk > 6 && i % nk = 4 then t.map aesSub
      else t
    aesExpand nk k (xorBytes (ws.getD (nk - 1) []) t :: ws)

/-- Cut a list into words of four bytes. -/
def wordsOf : Nat → List Byte → List (List Byte)
  | 0, _ => []
  | k + 1, l => l.take 4 :: wordsOf k (l.drop 4)

/-- The round keys of a key, first round first: 16 bytes each. -/
def aesKeys (key : List Byte) : List (List Byte) :=
  let nk := key.length / 4
  let ws := (aesExpand nk (4 * (nk + 7) - nk) (wordsOf nk key).reverse).reverse
  (List.range (nk + 7)).map fun r => ((ws.drop (4 * r)).take 4).flatten

/-- Row r of the state turns left by r. -/
def aesShift (st : List Byte) : List Byte := (List.range 16).map fun i => st.getD (i % 4 + 4 * ((i / 4 + i % 4) % 4)) 0

def aesUnshift (st : List Byte) : List Byte := (List.range 16).map fun i => st.getD (i % 4 + 4 * ((i / 4 + 4 - i % 4) % 4)) 0

/-- A column mix with the circulant row `m`. -/
def aesMixWith (m : List Byte) (st : List Byte) : List Byte :=
  (List.range 16).map fun i =>
    (List.range 4).foldl (fun a j => a ^^^ aesMul (m.getD ((j + 4 - i % 4) % 4) 0) (st.getD (4 * (i / 4) + j) 0)) 0

/-- Encrypt one block. -/
def aesEnc (key block : List Byte) : List Byte :=
  let ks := aesKeys key
  let n := ks.length - 1
  let st := (List.range (n - 1)).foldl
    (fun st r => xorBytes (aesMixWith [2, 3, 1, 1] (aesShift (st.map aesSub))) (ks.getD (r + 1) []))
    (xorBytes block (ks.headD []))
  xorBytes (aesShift (st.map aesSub)) (ks.getD n [])

/-- Decrypt one block. -/
def aesDec (key block : List Byte) : List Byte :=
  let ks := aesKeys key
  let n := ks.length - 1
  let st := (List.range (n - 1)).foldl
    (fun st r => aesMixWith [14, 11, 13, 9] (xorBytes ((aesUnshift st).map aesUnsub) (ks.getD (n - 1 - r) [])))
    (xorBytes block (ks.getD n []))
  xorBytes ((aesUnshift st).map aesUnsub) (ks.headD [])

/-- Shift a block left by one bit; a carry out changes the last byte (R475). -/
def cmacDbl (b : List Byte) : List Byte :=
  let v := b.foldl (fun a x => a * 256 + x.toNat) 0
  let w := if v ≥ 2 ^ 127 then (2 * v % 2 ^ 128) ^^^ 0x87 else 2 * v
  (leBytes w 16).reverse

/-- The chain of AES-CMAC over a whole number of blocks (R475): `left` blocks still to come. -/
def cmacChain (key k1 : List Byte) (read : Nat → Byte) : Nat → Nat → List Byte → List Byte
  | 0, _, c => c
  | n + 1, pos, c =>
    let m := (List.range 16).map fun i => read (pos + i)
    let m := if n = 0 then xorBytes m k1 else m
    cmacChain key k1 read n (pos + 16) (aesEnc key (xorBytes c m))

/-- The tag of the first `len` bytes (R475). -/
def cmac (key : List Byte) (len : Nat) (read : Nat → Byte) : List Byte :=
  let z := List.replicate 16 (0 : Byte)
  cmacChain key (cmacDbl (aesEnc key z)) read (len / 16) 0 z

/-- The image key of a root key (R474). -/
def imageKey (root : List Byte) : List Byte :=
  let d := fun (last : Byte) => [0x49, 0x4B, 0x49, 0x53, 0x41, 0x52, 0x2E, 0x49, 0x4D, 0x47, 0x4B, 0x45, 0x59, 0x2E, 0x30, last]
  aesEnc root (d 0x30) ++ aesEnc root (d 0x31)

end Sys2Proof.Machine
end

