-- ==== Sys2Proof/Machine/Image.lean ====
section
/-!
DEFINITION. The CFG flash as bytes, the Ikisar image (R471 to R475, R542) and its checks (R12, R72, R73, R155, R160, R166,
R245, R353, R393, R394, R406, R424, R435, R564), the slot directory (R470) and slot selection (R477).
-/

namespace Sys2Proof.Machine

/-! ### Slots (R469) -/

/-- First byte of a slot. -/
def slotBase (slot : Nat) : Nat := if slot = 0 then 0x010000 else 0x810000

/-- A little-endian value in the flash. -/
def State.flashNat (s : State) (a n : Nat) : Nat := ofLeBytes (s.flashBytes a n)

/-! ### Entries (R472, R542) -/

/-- A row of the Ikisar entry index: the field that an entry of `BLOCK` and `NUMBER` loads, for `count` instances `stride`
apart, or `shift` bits apart in one register. -/
structure EntryRow where
  block  : Nat
  number : Nat
  count  : Nat
  base   : Nat
  stride : Nat
  hi     : Nat
  lo     : Nat
  shift  : Nat
  deriving DecidableEq, Repr

/-- Rows for consecutive entry numbers that load fields of one register. -/
def entriesOf (block first count base stride : Nat) : List (Nat × Nat) → List EntryRow
  | [] => []
  | (hi, lo) :: r => ⟨block, first, count, base, stride, hi, lo, 0⟩ :: entriesOf block (first + 1) count base stride r

/-- The entry index, blocks GLB to SCH. -/
def entryRowsA : List EntryRow :=
  entriesOf 0x0 0x001 1 Reg.GLB_HUBID 0 [(17, 0)] ++ entriesOf 0x0 0x002 1 Reg.GLB_POOLDOM 0 [(15, 0)] ++
  entriesOf 0x1 0x001 5 0x010004 0x1000 [(4, 4), (3, 3), (2, 2), (1, 0)] ++
  entriesOf 0x1 0x005 5 0x010008 0x1000 [(18, 16), (15, 8), (7, 0)] ++ entriesOf 0x1 0x008 5 0x01000C 0x1000 [(23, 8), (7, 0)] ++
  entriesOf 0x3 0x001 14 Reg.MAP_HASHMASK0 4 [(31, 0)] ++ entriesOf 0x3 0x002 1 Reg.MAP_GEOM 0 [(2, 0), (3, 3), (6, 4), (9, 8)] ++
  entriesOf 0x4 0x001 1 Reg.MIR_WITNESS 0 [(15, 0)] ++ entriesOf 0x4 0x002 1 Reg.MIR_PAIRCFG 0 [(15, 8), (23, 16), (31, 24)] ++
  entriesOf 0x4 0x005 1 Reg.MIR_RBCFG 0 [(6, 0), (15, 8)] ++
  entriesOf 0x4 0x007 1 Reg.MIR_ACKCFG 0 [(5, 0), (15, 8), (23, 16), (31, 24)] ++
  ((List.range 28).map fun w => ⟨0x5, 1 + w, 4, 0x054000 + 4 * w, 0x100, 15, 0, 0⟩) ++
  entriesOf 0x5 0x020 1 Reg.SCH_CFG 0 [(27, 20), (19, 16), (15, 8), (7, 0)] ++ entriesOf 0x5 0x024 1 Reg.SCH_PDCFG 0 [(8, 8), (7, 0)] ++
  entriesOf 0x5 0x026 1 Reg.SCH_REFCFG 0 [(3, 0), (7, 4), (11, 8), (23, 16)] ++ entriesOf 0x5 0x02A 1 Reg.SCH_SCRUBCFG 0 [(9, 0)]

/-- Blocks DPH to CLK. -/
def entryRowsB : List EntryRow :=
  entriesOf 0x6 0x001 1 Reg.DPH_TRAINCFG 0 [(7, 0), (15, 8), (17, 16), (24, 24)] ++ entriesOf 0x6 0x005 4 (Reg.DPH_DFE 0) 4 [(31, 0)] ++
  entriesOf 0x7 0x001 1 Reg.CAL_CFG 0 [(0, 0), (12, 8), (23, 16), (31, 24)] ++
  entriesOf 0x7 0x005 1 Reg.CAL_MEAS 0 [(7, 0), (11, 8), (15, 12), (23, 16), (31, 24)] ++
  entriesOf 0x7 0x00A 1 Reg.CAL_LIMIT 0 [(3, 0), (7, 4), (15, 8), (23, 16), (26, 24)] ++
  entriesOf 0x8 0x001 1 Reg.ECC_THRESH 0 [(7, 0), (15, 8), (23, 16), (31, 24)] ++
  entriesOf 0x8 0x005 1 Reg.ECC_ALERTCFG 0 [(7, 0), (15, 8), (17, 16)] ++ entriesOf 0x8 0x008 1 Reg.ECC_SPARECFG 0 [(6, 0), (8, 8)] ++
  entriesOf 0x9 0x001 1 Reg.CLK_CFG 0 [(1, 0), (23, 16), (31, 24)] ++ entriesOf 0x9 0x004 1 Reg.CLK_SSC 0 [(1, 0), (11, 8), (18, 16), (24, 24)] ++
  entriesOf 0x9 0x008 1 Reg.CLK_LOCKCFG 0 [(3, 0), (15, 8)] ++ entriesOf 0x9 0x00A 4 (Reg.CLK_TSET 0) 4 [(3, 0)]

/-- Blocks PWR to LOG. -/
def entryRowsC : List EntryRow :=
  entriesOf 0xA 0x001 16 (Reg.PWR_RAILWIN 0) 4 [(11, 0), (27, 16)] ++
  entriesOf 0xA 0x003 16 (Reg.PWR_RAILCFG 0) 4 [(7, 0), (11, 8), (13, 13), (14, 14), (15, 15), (27, 16)] ++
  entriesOf 0xA 0x009 32 (Reg.PWR_START 0) 4 [(31, 0)] ++ entriesOf 0xA 0x00A 16 (Reg.PWR_STOP 0) 4 [(31, 0)] ++
  [⟨0xA, 0x00B, 4, Reg.PWR_RSTCFG, 0, 7, 0, 8⟩] ++ entriesOf 0xA 0x00C 2 Reg.PWR_FEEDWINA 4 [(11, 0), (27, 16)] ++
  entriesOf 0xA 0x00E 1 Reg.PWR_FEEDCFG 0 [(15, 8), (23, 16), (31, 24)] ++ entriesOf 0xA 0x011 1 Reg.PWR_VEERCFG 0 [(0, 0), (1, 1), (7, 2)] ++
  entriesOf 0xA 0x014 1 Reg.PWR_PLWCFG 0 [(7, 0), (15, 8), (16, 16)] ++ entriesOf 0xA 0x017 1 Reg.PWR_BBUWIN 0 [(11, 0), (27, 16)] ++
  entriesOf 0xA 0x019 1 Reg.PWR_BBUCFG 0 [(7, 0), (15, 8), (27, 16)] ++ entriesOf 0xA 0x01C 1 Reg.PWR_GAUGECFG 0 [(15, 0), (31, 16)] ++
  entriesOf 0xB 0x001 1 Reg.MGT_RBDELAY 0 [(13, 0)] ++ entriesOf 0xC 0x001 1 Reg.TIM_CFG 0 [(3, 0), (4, 4), (15, 8)] ++
  entriesOf 0xD 0x001 1 Reg.LOG_SQUALLCFG 0 [(7, 0)] ++ entriesOf 0xD 0x002 4 (Reg.LOG_EVMASK 0) 4 [(13, 0)] ++
  entriesOf 0xD 0x003 1 Reg.LOG_WDTCFG 0 [(7, 0)]

def entryRow (block number : Nat) : Option EntryRow :=
  (entryRowsA ++ entryRowsB ++ entryRowsC).find? fun r => r.block == block && r.number == number

/-- `map.region_runs`. -/
def runsBlock : Nat := 0x3
def runsNumber : Nat := 0x006

/-- An entry of an image: its head and its value. -/
structure Entry where
  ident : Nat
  crit  : Bool
  list  : Bool
  value : List Byte
  deriving DecidableEq, Repr

def Entry.block (e : Entry) : Nat := e.ident / 2 ^ 28
def Entry.number (e : Entry) : Nat := e.ident / 2 ^ 16 % 2 ^ 12
def Entry.inst (e : Entry) : Nat := e.ident % 2 ^ 16
def Entry.isRuns (e : Entry) : Bool := e.block == runsBlock && e.number == runsNumber
def Entry.row (e : Entry) : Option EntryRow := entryRow e.block e.number
def Entry.known (e : Entry) : Bool := e.isRuns || e.row.isSome
def Entry.word (e : Entry) : Nat := ofLeBytes e.value

/-- Read `n` entries from `pos` on; they must rise and the last must end exactly at `stop` (R472, check 7 of R473). `low` is
the least `ID` allowed next. -/
def State.readEntries (s : State) : Nat → Nat → Nat → Nat → Option (List Entry)
  | 0, pos, stop, _ => if pos = stop then some [] else none
  | n + 1, pos, stop, low =>
    if pos + 8 > stop then none
    else
      let i := s.flashNat pos 4
      let len := s.flashNat (pos + 4) 3
      let fl := (s.flashByte (pos + 7)).toNat
      let next := pos + 8 + (len + 3) / 4 * 4
      if i < low || fl ≥ 4 || next > stop then none
      else
        let e : Entry := { ident := i, crit := fl % 2 == 1, list := fl / 2 == 1, value := s.flashBytes (pos + 8) len }
        (s.readEntries n next stop (i + 1)).map (e :: ·)

/-- A known entry has its defined form, length and instance, and no bit above its field (R154, check 9 of R473, R542). -/
def Entry.formed (e : Entry) : Bool :=
  if e.isRuns then e.list && decide (e.inst = 0) && e.value.length % 8 == 0 && decide (8 ≤ e.value.length) && decide (e.value.length ≤ 8 * 32767)
  else
    match e.row with
    | some r => !e.list && e.value.length == 4 && decide (e.inst < r.count) && decide (e.word < 2 ^ (r.hi + 1 - r.lo))
    | none => true

/-- A run of `map.region_runs` (R154). -/
structure Run where
  pair  : Nat
  count : Nat
  loc   : Nat
  role  : Nat
  deriving DecidableEq, Repr

def runsOf : Nat → List Byte → List Run
  | 0, _ => []
  | n + 1, l =>
    let x := ofLeBytes (l.take 8)
    ⟨x % 2 ^ 18, x / 2 ^ 18 % 2 ^ 19, x / 2 ^ 37 % 2 ^ 15, x / 2 ^ 52 % 4⟩ :: runsOf n (l.drop 8)

def imageRuns (es : List Entry) : List Run :=
  match es.find? Entry.isRuns with
  | some e => runsOf (e.value.length / 8) e.value
  | none => []

/-! ### Applying an image (R424, R459 C7, R473, R564) -/

/-- Start row `i` of the boot section, from the fuse page (R420, R463). -/
def State.bootRow (s : State) (i : Nat) : Word := Tab.get (fun _ => (0 : Word)) s.fuse.word (17 + i) &&& 0xEFFFFFFF

/-- A row of the boot section releases reset `k`: it stands before the section's first end row (R404). -/
def State.bootReleases (s : State) (k : Nat) : Bool :=
  (((List.range 4).map s.bootRow).takeWhile fun w => fieldGet w 31 30 != 0).any fun w =>
    fieldGet w 31 30 = 2 && fieldGet w 27 24 = k

/-- The stretches in force without the image: the page's for the resets that boot-section rows name, 0x01 for the others
(R404, R421). -/
def State.bootStretch (s : State) : Word :=
  (List.range 4).foldl (fun w k =>
    if s.bootReleases k then w ||| (Tab.get (fun _ => (0 : Word)) s.fuse.word 29 &&& BitVec.ofNat 32 (0xFF <<< (8 * k)))
    else w ||| BitVec.ofNat 32 (1 <<< (8 * k))) 0

/-- The value a CFG register has when the image does not name it: the fuse page's where a field is marked "fuse", else the
reset value (R419 to R421, R451, R452, R463, R564). -/
def State.baseWord (s : State) (a : Nat) (row : RegRow) : Word :=
  let f := fun (w : Nat) => Tab.get (fun _ => (0 : Word)) s.fuse.word w
  if 0x0A0000 ≤ a && a < 0x0A0080 then
    let n := (a % 0x40) / 4
    match (List.range 4).find? fun j => fieldGet (f (21 + 2 * j)) 31 28 = n && (f (22 + 2 * j)).getLsbD 15 with
    | some j => if a < 0x0A0040 then f (21 + 2 * j) &&& 0x0FFF0FFF else f (22 + 2 * j) &&& 0x0FFFAFFF
    | none => row.reset
  else if a = Reg.PWR_RSTCFG then s.bootStretch
  else if a = Reg.PWR_FEEDWINA then f 30 &&& 0x0FFF0FFF
  else if a = Reg.PWR_FEEDWINB then f 31 &&& 0x0FFF0FFF
  else if a = Reg.PWR_FEEDCFG then f 32 &&& 0xFFFFFF00
  else if a = Reg.PWR_VEERCFG then f 33 &&& 0x000000FF
  else if a = Reg.PWR_PLWCFG then f 34 &&& 0x0001FFFF
  else row.reset

/-- Every CFG register: address and row. `SCH_SCRUBCFG.HOURS`, which an entry loads too, is an RO field. -/
def cfgRegs : List (Nat × RegRow) :=
  (List.range 14).flatMap fun b => (regRows b).flatMap fun r =>
    if r.cfg = 0 then [] else (List.range r.count).map fun i => (r.base + r.stride * i, r)

/-- Every CFG field takes its base value, and `SCH_SCRUBCFG` its reset value. -/
def State.baseConfig (s : State) : State :=
  (foldS cfgRegs (fun s p => s.setReg p.1 ((s.reg p.1 &&& ~~~p.2.cfg) ||| (s.baseWord p.1 p.2 &&& p.2.cfg))) s).setReg
    Reg.SCH_SCRUBCFG (regReset Reg.SCH_SCRUBCFG)

/-- Load the field an entry names. -/
def State.loadEntry (s : State) (e : Entry) : State :=
  match e.row with
  | some r => s.setFld ⟨r.base + r.stride * e.inst, r.hi + r.shift * e.inst, r.lo + r.shift * e.inst⟩ e.word
  | none => s

/-- The registers with an image applied. -/
def State.applyImage (s : State) (es : List Entry) : State := es.foldl State.loadEntry s.baseConfig

/-! ### Values and cross-checks (check 10 of R473) -/

/-- A field lies in a range. -/
def State.within (s : State) (f : Fld) (lo hi : Nat) : Bool := decide (lo ≤ s.fld f) && decide (s.fld f ≤ hi)

/-- Ranges of the link registers (R72, R73). -/
def State.linkOk (s : State) : Bool :=
  !s.flag (Fld.LNK_CFG.STILL_EN 4) && (List.range 5).all fun p =>
    s.fld (Fld.LNK_CFG.RATE_CAP p) != 3 && s.within (Fld.LNK_REPLAY.REPLAY_LIM p) 1 7 && s.within (Fld.LNK_REPLAY.NAK_TMO p) 4 255 &&
      s.within (Fld.LNK_REPLAY.REPLAY_TMO p) 4 255 && s.within (Fld.LNK_ERRLIM.ERR_WINDOW p) 1 65535 &&
      s.within (Fld.LNK_ERRLIM.ERR_LIMIT p) 1 255

/-- Geometry and masks (R160, R166). -/
def State.mapOk (s : State) : Bool :=
  let g := s.geom
  let mask := fun (k : Nat) => (s.reg (Reg.MAP_HASHMASK0 + 4 * k)).toNat
  let bases := (List.range 14).filterMap g.base
  let width := g.sBits + g.rBits + g.dBits + 12 + g.rowW
  decide (g.sBits ≤ 4) && decide (1 ≤ g.dBits) && decide (g.dBits ≤ 4) &&
    (List.range 14).all (fun k => ((g.base k).isSome || mask k == 0) && (List.range 32).all fun i =>
      !(mask k).testBit i || (!bases.contains (i + 7) && decide (i + 7 < width))) &&
    (if g.sBits ≥ 1 then (List.range g.sBits).any fun k => (mask k).testBit 16
      else if g.rBits = 1 then (mask 4).testBit 16 else (mask 11).testBit 16)

/-- Two intervals share a number. -/
def overlaps (a n b m : Nat) : Bool := decide (a < b + m) && decide (b < a + n)

/-- No two runs share a pair or a local region. -/
def runsApart : List Run → Bool
  | [] => true
  | r :: rest => (!rest.any fun x => overlaps r.pair r.count x.pair x.count || overlaps r.loc r.count x.loc x.count) && runsApart rest

/-- The runs (R12, R154, R155) and sparing (R353). -/
def State.runsOk (s : State) (rs : List Run) : Bool :=
  let g := s.geom
  let sparing := s.flag Fld.ECC_SPARECFG.SPARE_EN
  rs.all (fun r => decide (1 ≤ r.count) && decide (r.count ≤ 32767) && (r.role == 1 || r.role == 2) &&
    decide (r.pair + r.count ≤ 262144) && decide (r.loc + r.count ≤ g.regions - 1) &&
    (!sparing || decide (r.loc + r.count ≤ g.spareBase))) && runsApart rs && (!sparing || decide (0 < g.sBits + g.rBits))

/-- The mirror registers (R197, R234, R535). -/
def State.mirOk (s : State) (es : List Entry) : Bool :=
  (es.any fun e => e.block == 0x4 && e.number == 0x001) && s.within Fld.MIR_PAIRCFG.SOLO_HOLD 8 255 && s.within Fld.MIR_PAIRCFG.HB_MISS 8 200 &&
    s.within Fld.MIR_PAIRCFG.HB_INT 2 50 && decide (s.fld Fld.MIR_PAIRCFG.HB_MISS + 8 ≤ s.fld Fld.MIR_PAIRCFG.SOLO_HOLD) &&
    s.within Fld.MIR_RBCFG.RB_WAIT 1 255 && s.within Fld.MIR_RBCFG.SHARE 1 100 && s.within Fld.MIR_ACKCFG.REP_TMO 1 255 &&
    s.within Fld.MIR_ACKCFG.HO_TMO 1 255 && s.within Fld.MIR_ACKCFG.ACK_TMO 4 255 && s.within Fld.MIR_ACKCFG.ACK_INT 1 32

/-- The timing sets (R245, R262) and Schedule (R253, R266, R267). -/
def State.schOk (s : State) : Bool :=
  let w := fun (k i : Nat) => s.fld ⟨0x054000 + 0x100 * k + 4 * i, 15, 0⟩
  (List.range 4).all (fun k => (List.range 28).all (fun i => w k i != 0) && w k 1 + 2 == w k 0 && decide (w k 4 + w k 3 ≤ w k 5)) &&
    s.within Fld.SCH_CFG.AGE_MAX 1 255 && s.within Fld.SCH_CFG.ROW_HIT_MAX 1 15 && s.within Fld.SCH_CFG.WR_LO 0 192 &&
    s.within Fld.SCH_CFG.WR_HI 8 200 && decide (s.fld Fld.SCH_CFG.WR_LO + 8 ≤ s.fld Fld.SCH_CFG.WR_HI) && s.within Fld.SCH_PDCFG.PD_IDLE 1 255 &&
    s.within Fld.SCH_REFCFG.MR4_POLL 1 255 && s.within Fld.SCH_REFCFG.AHEAD 0 4 && s.within Fld.SCH_REFCFG.SOFT 1 7 &&
    s.within Fld.SCH_REFCFG.HARD (s.fld Fld.SCH_REFCFG.SOFT + 1) 8 && s.within Fld.SCH_SCRUBCFG.HOURS 0 720

/-- Training and calibration (R293, R313). -/
def State.dphOk (s : State) : Bool :=
  s.within Fld.DPH_TRAINCFG.MIN_EYE_H 1 64 && s.within Fld.DPH_TRAINCFG.MIN_EYE_W 8 64 && s.within Fld.CAL_CFG.MAX_INT 1 255 &&
    s.within Fld.CAL_CFG.EVAL 1 255 && s.within Fld.CAL_CFG.TCAL_DELTA 1 31 && s.within Fld.CAL_MEAS.MIN_TRANS 1 255 &&
    s.within Fld.CAL_MEAS.MEAS_TMO 10 255 && s.within Fld.CAL_MEAS.VREF_WIN 2 8 && s.within Fld.CAL_MEAS.EDGE_WIN 4 15 &&
    s.within Fld.CAL_MEAS.DWELL 1 255 && s.within Fld.CAL_LIMIT.STALE_N 1 7 && s.within Fld.CAL_LIMIT.BREEZE_INT 1 255 &&
    s.within Fld.CAL_LIMIT.RESTORE_MAX 2 64 && s.within Fld.CAL_LIMIT.PLAUS_V 1 15 && s.within Fld.CAL_LIMIT.PLAUS_D 1 15

/-- Faults (R366) and clocks (R377, R393, R394). -/
def State.eccOk (s : State) : Bool :=
  let mode := s.fld Fld.CLK_SSC.MODE
  s.within Fld.ECC_THRESH.LEAK_INT 1 255 && s.within Fld.ECC_THRESH.RANK_CE_LIM 1 255 && s.within Fld.ECC_THRESH.UE_LIM 1 255 &&
    s.within Fld.ECC_THRESH.DEV_CE_LIM 1 255 && s.within Fld.ECC_ALERTCFG.REPLAY_LIM 1 3 && s.within Fld.ECC_ALERTCFG.ALERT_PW 4 255 &&
    s.within Fld.ECC_ALERTCFG.ALERT_WIN 4 64 && s.within Fld.ECC_SPARECFG.SHARE 1 100 && s.within Fld.CLK_CFG.SR_MIN 10 255 &&
    s.within Fld.CLK_CFG.REF_QUAL 1 255 && s.within Fld.CLK_SSC.FREQ 0 6 && mode != 3 &&
    s.within Fld.CLK_SSC.AMP 0 (if mode = 2 then 5 else 10) && (!s.flag Fld.CLK_SSC.REF_SSC || mode == 0) &&
    s.within Fld.CLK_LOCKCFG.LOCK_N 16 255 && s.within Fld.CLK_LOCKCFG.LOCK_WIN 1 15 &&
    (List.range 4).all fun k => let b := s.fld (Fld.CLK_TSET.BIN k); b != 5 && decide (b ≤ 10)

/-- Rows of the start table that run, by number: each section up to its first end row. -/
def State.startRun (s : State) : List Nat :=
  let live := fun (r : Nat) => s.fld (Fld.PWR_START.ACTION r) != 0
  ((List.range 4).takeWhile live) ++ (((List.range 28).map (· + 4)).takeWhile live)

/-- Rows of the image's shutdown table that run. -/
def State.stopRun (s : State) : List Nat := (List.range 16).takeWhile fun i => s.fld (Fld.PWR_STOP.ACTION i) != 0

/-- A window holds a reading by at least 4 codes. -/
def insideBy4 (w : Word) (x : Nat) : Bool := decide (fieldGet w 11 0 + 4 ≤ x) && decide (x + 4 ≤ fieldGet w 27 16)

/-- The rails and tables (R404, R406, R409, R420, R421, R435). `armed` are the rails armed now. DEDUCED, log entry 25. -/
def State.railsOk (s : State) (es : List Entry) (armed : List Nat) : Bool :=
  let used := (List.range 16).filter s.railUsed
  let en := s.startRun.filter fun r => s.fld (Fld.PWR_START.ACTION r) = 1
  let off := s.stopRun.filter fun i => s.fld (Fld.PWR_STOP.ACTION i) = 1
  let rel := s.startRun.filter fun r => s.fld (Fld.PWR_START.ACTION r) = 2
  let drive := used.filter fun n => !s.flag (Fld.PWR_RAILCFG.NO_EN n)
  let partly := s.stopRun.filter fun i => s.fld (Fld.PWR_STOP.ACTION i) != 1 || !s.railHeld (s.fld (Fld.PWR_STOP.TARGET i))
  !(es.any fun e => e.block == 0xA && e.number == 0x009 && decide (e.inst < 4)) &&
    used.all (fun n =>
      let w := s.reg (Reg.PWR_RAILWIN n)
      let hi := fieldGet w 27 16
      let lo := fieldGet w 11 0
      decide (hi ≤ 4000) && decide (lo + 8 ≤ hi) && decide (s.fld (Fld.PWR_RAILCFG.OFF_LVL n) < lo) &&
        (en.filter fun r => s.fld (Fld.PWR_START.TARGET r) = n).length == 1 &&
        !(s.railHeld n && en.any fun r => decide (r < 4) && s.fld (Fld.PWR_START.TARGET r) == n)) &&
    drive.all (fun n => (off.filter fun i => s.fld (Fld.PWR_STOP.TARGET i) = n).length == 1 &&
      (drive.filter fun m => s.fld (Fld.PWR_RAILCFG.EN m) = s.fld (Fld.PWR_RAILCFG.EN n)).length == 1) &&
    rel.all (fun r => (rel.filter fun x => s.fld (Fld.PWR_START.TARGET x) = s.fld (Fld.PWR_START.TARGET r)).length == 1 &&
      decide (s.fld (Fld.PWR_START.TARGET r) < 4)) &&
    en.all (fun r => s.fld (Fld.PWR_START.TMO r) != 0) && off.all (fun i => s.fld (Fld.PWR_STOP.TMO i) != 0) &&
    (List.range 4).all (fun k => s.fld ⟨Reg.PWR_RSTCFG, 8 * k + 7, 8 * k⟩ != 0) &&
    decide (((partly.map fun i => s.fld (Fld.PWR_STOP.DELAY i)).foldl (· + ·) 0) ≤ 5) &&
    (armed.filter s.railUsed).all fun n => insideBy4 (s.reg (Reg.PWR_RAILWIN n)) (s.fld (Fld.PWR_RAILRD.READING n))

/-- Feeds, early warning and backup unit (R399, R424, R452, R453, R564). `feedA` and `feedB` are the levels of the feeds that
are in window. DEDUCED, log entry 25. -/
def State.feedsOk (s : State) (es : List Entry) (feedA feedB : Option Nat) : Bool :=
  let fits := fun (a : Nat) (x : Option Nat) => decide (fieldGet (s.reg a) 27 16 ≤ 4000) && (match x with
    | some x => insideBy4 (s.reg a) x
    | none => true)
  fits Reg.PWR_FEEDWINA feedA && fits Reg.PWR_FEEDWINB feedB && s.within Fld.PWR_FEEDCFG.QUAL 1 255 && s.within Fld.PWR_FEEDCFG.RET 1 255 &&
    s.within Fld.PWR_VEERCFG.OVL 1 50 && s.within Fld.PWR_PLWCFG.T_DISC 1 255 &&
    (es.any fun e => e.block == 0xA && e.number == 0x017) && (es.any fun e => e.block == 0xA && e.number == 0x018) &&
    decide (s.fld Fld.PWR_BBUWIN.CUT + s.fld Fld.PWR_BBUCFG.MARGIN < s.fld Fld.PWR_BBUWIN.READY) &&
    s.within Fld.PWR_BBUCFG.GAUGE_TMO 1 255 && s.within Fld.PWR_BBUCFG.GAUGE_INT 1 255

/-- Management, time and log (R521, R524, R525, R535). -/
def State.miscOk (s : State) : Bool :=
  s.within Fld.MGT_RBDELAY.MINUTES 0 10080 && s.within Fld.TIM_CFG.BEACON_TMO 1 60 && s.within Fld.LOG_SQUALLCFG.WIN 1 255 &&
    s.within Fld.LOG_WDTCFG.PERIOD 10 255

/-- Check 10 over the registers as the image would leave them. -/
def State.valuesOk (s : State) (es : List Entry) (armed : List Nat) (feedA feedB : Option Nat) : Bool :=
  s.linkOk && s.mapOk && s.runsOk (imageRuns es) && s.mirOk es && s.schOk && s.dphOk && s.eccOk && s.railsOk es armed &&
    s.feedsOk es feedA feedB && s.miscOk

/-! ### A slot read and judged (R473) -/

/-- The root key, as the cold boot latched it (R463, R464). DEDUCED, log entry 25. -/
def State.rootKey (s : State) : List Byte :=
  let ws := (List.range 8).flatMap fun i => leBytes (Tab.get (fun _ => (0 : Word)) s.fuse.word (3 + i)).toNat 4
  if (Tab.get (fun _ => (0 : Word)) s.fuse.word 11).getLsbD 1 then ws else ws.take 16

/-- `AUTH`: an image needs a good tag. -/
def State.authNeeded (s : State) : Bool := (Tab.get (fun _ => (0 : Word)) s.fuse.word 11).getLsbD 2

/-- Key slot 0 holds the root key. -/
def State.keyOk (s : State) : Bool := s.flag Fld.MGT_FUSESTAT.KEY_OK

/-- An accepted image. -/
structure Image where
  version : Word
  svn     : Nat
  tag     : List Byte
  matched : Bool
  entries : List Entry
  skipped : List Nat
  deriving DecidableEq, Repr

/-- The state of a slot in a directory record, if there is one. -/
inductive Judged where
  | reject (reason : Nat)
  | accept (im : Image)
  deriving DecidableEq, Repr

/-- The stored tag of the image in a slot. -/
def State.storedTag (s : State) (slot : Nat) : List Byte :=
  let b := slotBase slot
  s.flashBytes (b + s.flashNat (b + 8) 4 - 16) 16

/-- The tag the hub computes over the image in a slot. -/
def State.computedTag (s : State) (slot : Nat) : List Byte :=
  let b := slotBase slot
  cmac (imageKey s.rootKey) (s.flashNat (b + 8) 4 - 16) fun i => s.flashByte (b + i)

/-- Checks 7 to 10 of R473, once the tag has been dealt with. -/
def State.judgeEntries (s : State) (slot : Nat) (matched : Bool) (armed : List Nat) (feedA feedB : Option Nat) : Judged :=
  let b := slotBase slot
  let len := s.flashNat (b + 8) 4
  match s.readEntries (s.flashNat (b + 20) 4) (b + 64) (b + len - 16) 0 with
  | none => .reject 0x7
  | some es =>
    if es.any fun e => !e.known && e.crit then .reject 0x6
    else if !es.all Entry.formed then .reject 0x7
    else if !(s.applyImage (es.filter (·.known))).valuesOk es armed feedA feedB then .reject 0x8
    else .accept
      { version := BitVec.ofNat 32 (s.flashNat (b + 12) 4), svn := (s.flashByte (b + 16)).toNat, tag := s.storedTag slot,
        matched := matched, entries := es.filter (·.known), skipped := (es.filter fun e => !e.known).map (·.ident) }

/-- An image is judged in the order of R473, after check 1. `auth` says what the cipher core can do: none where no tag can be
computed. -/
def State.judgeImage (s : State) (slot : Nat) (bad cipher : Bool) (armed : List Nat) (feedA feedB : Option Nat) : Judged :=
  let b := slotBase slot
  let len := s.flashNat (b + 8) 4
  let svn := (s.flashByte (b + 16)).toNat
  if s.flashNat b 4 != 0x52534B49 || s.flashNat (b + 4) 2 != 1 || s.flashNat (b + 18) 2 != 0x9420 then .reject 0x1
  else if len % 16 != 0 || decide (len < 80) || decide (8388608 < len) then .reject 0x2
  else if decide (svn < s.fld Fld.MGT_ROLLBACK.PENDING) || decide (128 < svn) then .reject 0x4
  else if bad then .reject 0xA
  else
    let matched := cipher && s.computedTag slot == s.storedTag slot
    if s.authNeeded && !matched then .reject 0x5 else s.judgeEntries slot matched armed feedA feedB

/-! ### The slot directory (R470) -/

/-- A directory record. -/
structure DirRec where
  seq   : Word
  pref  : Nat
  state : List Nat                       -- slot A, slot B
  tries : Nat
  deriving DecidableEq, Repr

def DirRec.stateOf (d : DirRec) (slot : Nat) : Nat := d.state.getD slot 0

/-- The record at a position, if it is valid. -/
def State.dirAt (s : State) (i : Nat) : Option DirRec :=
  let b := s.flashBytes (64 * i) 64
  if ofLeBytes (b.take 4) == 0x52494453 && ofLeBytes (b.drop 60) == (crc32c (b.take 60)).toNat then
    let st := (b.getD 9 0).toNat
    some { seq := BitVec.ofNat 32 (ofLeBytes ((b.drop 4).take 4)), pref := (b.getD 8 0).toNat % 2, state := [st % 4, st / 4 % 4], tries := st / 16 }
  else Option.none

/-- The record in force and its position: the highest `SEQ`, and at equal `SEQ` the lower address. -/
def State.directory (s : State) : Option (Nat × DirRec) :=
  (List.range 1024).foldl (fun (best : Option (Nat × DirRec)) i =>
    match s.dirAt i with
    | some d => (match best with
      | some b => if b.2.seq.toNat < d.seq.toNat then some (i, d) else best
      | none => some (i, d))
    | none => best) Option.none

/-- The bytes of a record. -/
def DirRec.bytes (d : DirRec) : List Byte :=
  let b := leBytes 0x52494453 4 ++ leBytes d.seq.toNat 4 ++
    [BitVec.ofNat 8 d.pref, BitVec.ofNat 8 (d.stateOf 0 + 4 * d.stateOf 1 + 16 * d.tries)] ++ List.replicate 50 0
  b ++ leBytes (crc32c b).toNat 4

/-- Append a record: at the next blank position, or at the sector after the newest record's, erased for it. -/
def State.appendDir (s : State) (d : DirRec) : State :=
  let newest := match s.directory with
    | some p => p.1
    | none => 1023
  let seq := match s.directory with
    | some p => p.2.seq + 1
    | none => 1
  let d := { d with seq := seq }
  match ((List.range 1024).map fun k => (newest + 1 + k) % 1024).find? fun i => s.blank (64 * i) 64 with
  | some i => s.program (64 * i) d.bytes
  | none =>
    let i := (newest / 64 + 1) % 16 * 64
    (s.eraseSector (64 * i)).program (64 * i) d.bytes

/-- After an append in `SERVICE` or `BOOT_HOLD` the sector after the newest record's is erased (R470). -/
def State.tidyDir (s : State) : State :=
  if s.top.state == .service || s.top.state == .bootHold then
    match s.directory with
    | some p => s.eraseSector ((p.1 / 64 + 1) % 16 * 4096)
    | none => s
  else s

/-! ### Slot selection (R477, R483) -/

/-- What selection comes to: the slot and its image, whether it is not the first candidate, or the reason there is none: 1 the
root key cannot be used (R464), 2 nothing acceptable. -/
inductive Selected where
  | slot (n : Nat) (im : Image) (fallback : Bool)
  | none (noKey : Bool)
  deriving DecidableEq, Repr

/-- Slots in the order of R477, limited to `choice` (1 A, 2 B; 0 automatic). -/
def slotOrder (choice : Nat) (d : Option DirRec) : List Nat :=
  let l := match d with
    | some d => [d.pref, 1 - d.pref]
    | none => [0, 1]
  match choice with
  | 1 => l.filter (· == 0)
  | 2 => l.filter (· == 1)
  | _ => l

/-- The field that says why a slot was rejected. -/
def rejFld (slot : Nat) : Fld := if slot = 0 then Fld.MGT_IMGSTAT.REJ_A else Fld.MGT_IMGSTAT.REJ_B

/-- Reject a slot: `REJ_A` or `REJ_B` and event 0xB002 (R473, R486). DEDUCED, log entry 25. -/
def State.rejectSlot (s : State) (slot reason : Nat) : State :=
  (s.setFld (rejFld slot) reason).event 0xB002 ((slot + 1) + (reason <<< 4))

/-- The trial count at C3: the slot may be read, or is marked bad (R477). `tried` tells that this attempt has been counted
already (R460). -/
def State.tryTrial (s : State) (slot : Nat) : State × Bool :=
  match s.directory with
  | some (_, d) =>
    if d.stateOf slot = 1 && slot = d.pref then
      if s.boot.tried then (s, true)
      else if d.tries = 3 then
        let st := [if slot = 0 then 3 else d.stateOf 0, if slot = 1 then 3 else d.stateOf 1]
        let s := ((s.appendDir { d with state := st, tries := 0 }).tidyDir).rejectSlot slot 0x9
        (s.event 0xB008 (slot + 1), false)
      else
        let s := (s.appendDir { d with tries := d.tries + 1 }).tidyDir
        ({ s with boot := { s.boot with tried := true } }, true)
    else if d.stateOf slot = 0 || d.stateOf slot = 3 then (s.rejectSlot slot 0x9, false)
    else (s, true)
  | none => (s, true)

/-- The feeds' levels that the 4-code rule judges: those of the feeds in window. DESIGN CHOICE, log entry 26. -/
def State.feedLevels (s : State) (found : BootFind) : Option Nat × Option Nat :=
  (if s.flag Fld.PWR_FEEDSTAT.INWIN_A then some found.feedA.toNat else Option.none,
   if s.flag Fld.PWR_FEEDSTAT.INWIN_B then some found.feedB.toNat else Option.none)

/-- Judge one slot as the hub stands. -/
def State.judgeSlot (s : State) (found : BootFind) (cipher : Bool) (slot : Nat) : Judged :=
  let f := s.feedLevels found
  s.judgeImage slot (if slot = 0 then found.badA else found.badB) cipher ((List.range 16).filter s.railArmed) f.1 f.2

/-- One slot of slot selection: its trial count, then its checks; none where the next slot is tried. -/
def State.trySlot (s : State) (found : BootFind) (cipher : Bool) (first slot : Nat) : State × Option Selected :=
  let t := s.tryTrial slot
  if !t.2 then (t.1, Option.none)
  else if t.1.authNeeded && !cipher then (t.1, some (.none true))
  else
    match t.1.judgeSlot found cipher slot with
    | .accept im => (t.1, some (.slot slot im (slot != first)))
    | .reject r => (t.1.rejectSlot slot r, Option.none)

/-- The end of slot selection, or its next slot. -/
def selectNext (k : State → State × Selected) (t : State × Option Selected) : State × Selected :=
  match t.2 with
  | some x => (t.1, x)
  | Option.none => k t.1

/-- C3 to C5 over the candidates still to try (R477): with the root key unusable and `AUTH` = 1 selection ends at C4. -/
def State.selectFrom (found : BootFind) (cipher : Bool) (first : Nat) : List Nat → State → State × Selected
  | [], s => (s, .none false)
  | slot :: rest, s => selectNext (State.selectFrom found cipher first rest) (s.trySlot found cipher first slot)

/-- Key slot 1 holds the image key. -/
def State.keyLoaded (s : State) : Bool :=
  let k := imageKey s.rootKey
  let half := fun (i : Nat) => Tab.get (fun _ => ([] : List Byte)) s.boot.keys i
  half 2 == k.take 16 && half 3 == k.drop 16

/-- The cipher core derives the image key, unless key slot 1 holds it already: two uses of key slot 0, of 16 per cold boot (R474,
R476). A failed entropy source stops it until its next reset. -/
def State.deriveKey (s : State) (entropy : Bool) : State × Bool :=
  if !entropy || s.boot.dead then
    (({ s with boot := { s.boot with dead := true } }).setFld Fld.MGT_CIPHCTL.FAIL 1, false)
  else if !s.keyOk then (s, false)
  else if s.keyLoaded then (s, true)
  else if s.boot.uses + 2 ≤ 16 then
    let k := imageKey s.rootKey
    ({ s with boot := { s.boot with
        uses := s.boot.uses + 2,
        keys := Tab.set (fun _ => []) (Tab.set (fun _ => []) s.boot.keys 2 (k.take 16)) 3 (k.drop 16) } }, true)
  else (({ s with boot := { s.boot with uses := 16 } }).setFld Fld.MGT_CIPHCTL.FAIL 1, false)

/-- C3 to C5 for a slot choice. -/
def State.selectSlot (s : State) (found : BootFind) (choice : Nat) : State × Selected :=
  let k := s.deriveKey found.entropy
  let order := slotOrder choice (k.1.directory.map (·.2))
  State.selectFrom found k.2 (order.headD 0) order k.1

end Sys2Proof.Machine
end

