-- ==== Sys2Proof/Machine/Fuses.lean ====
section
/-!
DEFINITION. The AON and VBAT domains (R23, R398, R491, R547) and the fuse array as a cold boot reads it (R461 to R464).
-/

namespace Sys2Proof.Machine

/-! ### Fuses (R461 to R464) -/

/-- Copy `c` of logical word `w`, if it is stable: its reads at the two references agree. -/
def State.stableCopy (s : State) (w c : Nat) : Option Word :=
  let a := Tab.get (fun _ => (0 : Word)) s.fuse.normal (85 * c + w)
  if a == Tab.get (fun _ => (0 : Word)) s.fuse.tight (85 * c + w) then some a else Option.none

/-- The stable copies of a word. -/
def State.stableCopies (s : State) (w : Nat) : List Word := [0, 1, 2].filterMap fun c => s.stableCopy w c

/-- The value on which two stable copies agree; none is a fuse fault (R462). -/
def State.resolveWord (s : State) (w : Nat) : Option Word :=
  let v := s.stableCopies w
  v.find? fun x => decide ((v.filter (· == x)).length ≥ 2)

/-- The safe default of a word (R463). -/
def fuseDefault (w : Nat) : Word := if w = 11 then 0x4 else if w = 16 then 0x119 else 0

/-- The rollback counter that four words spell (R466): the index of the highest set bit plus one. -/
def rollbackOf (ws : List Word) : Nat :=
  let v := ws.foldr (fun w a => w.toNat + 2 ^ 32 * a) 0
  if v = 0 then 0 else Nat.log2 v + 1

/-- Latch every logical word and report the array (R462, R464, R486, R487). The rail page is not usable either where it is
wholly blank, as on page P00 (R560). DESIGN CHOICE, log entry 27. -/
def State.readFuses (s : State) : State :=
  let ws := List.range 85
  let faults := ws.filter fun w => (s.resolveWord w).isNone
  let word : Tab Word := ws.foldl (fun t w => Tab.set (fun _ => (0 : Word)) t w ((s.resolveWord w).getD (fuseDefault w))) []
  let stable : Tab Nat := faults.foldl (fun t w => Tab.set (fun _ => 0) t w (s.stableCopies w).length) []
  let unstable := ws.foldl (fun n w => n + (3 - (s.stableCopies w).length)) 0
  let s := { s with fuse := { s.fuse with word := word, faults := faults, stable := stable, read := true, owed := !faults.isEmpty } }
  let get := fun (w : Nat) => Tab.get (fun _ => (0 : Word)) word w
  let keyOk := (get 11).getLsbD 0 && !faults.any fun w => decide (3 ≤ w) && decide (w ≤ 11)
  let page := (List.range 18).map (17 + ·)
  let pageOk := !(faults.any fun w => page.contains w) && page.any fun w => get w != 0
  let count := rollbackOf [get 12, get 13, get 14, get 15]
  let s := (s.satF Fld.MGT_FUSESTAT.UNSTABLE unstable).satF Fld.MGT_FUSESTAT.FAULTS faults.length
  let s := ((s.setFld Fld.MGT_FUSESTAT.FIRST (faults.headD 0)).setFlag Fld.MGT_FUSESTAT.KEY_OK keyOk).setFlag Fld.MGT_FUSESTAT.PAGE_OK pageOk
  let s := (s.setFld Fld.MGT_ROLLBACK.COUNTER count).setFld Fld.MGT_ROLLBACK.PENDING count
  s.setReg Reg.MGT_DIEID_LO (get 0)

/-- The start rows of the boot section and the CFG registers of the PWR block take what the bootstrap rail page gives them (R404, R420,
R424, R463). DEDUCED, log entry 28. -/
def State.loadPage (s : State) : State :=
  let s := foldS (List.range 4) (fun s i => s.setReg (Reg.PWR_START i) (s.bootRow i)) s
  foldS (cfgRegs.filter fun p => p.1 >>> 16 == 0xA) (fun s p =>
    s.setReg p.1 ((s.reg p.1 &&& ~~~p.2.cfg) ||| (s.baseWord p.1 p.2 &&& p.2.cfg))) s

/-! ### The domains -/

/-- The VBAT domain stops: its register file is gone, and with it the fault counters (R423). -/
def State.stopVbat (s : State) : State :=
  ({ s with vbat := { present := s.vbat.present, on := false } }).setReg Reg.PWR_FAULTS 0

/-- The VBAT register file, started afresh. -/
def State.freshVbat (s : State) : State :=
  ({ s with vbat := { present := s.vbat.present, on := true, onCell := s.vbat.onCell, valid := true } }).setReg Reg.PWR_FAULTS 0

/-- What the AON domain holds is lost (R282, R398, R480): of its words the VBAT domain's counters stay, and the comparators
keep finding the feeds where they are. -/
def State.clearAon (s : State) : State :=
  let a := s.flag Fld.PWR_FEEDSTAT.INWIN_A
  let b := s.flag Fld.PWR_FEEDSTAT.INWIN_B
  let s := s.coreStop
  let s := { s with regs := s.regs.filter fun (p : Nat × Word) => p.1 == Reg.PWR_FAULTS }
  let s := { s with
    time := { elapsed := s.time.elapsed }, log := {},
    sb := {}, flt := {}, cal := {}, pwr := {}, gust := {}, cfgStore := {}, boot := {},
    fuse := { normal := s.fuse.normal, tight := s.fuse.tight }, top := { s.top with trigger := Option.none } }
  ((s.setFlag Fld.PWR_FEEDSTAT.INWIN_A a).setFlag Fld.PWR_FEEDSTAT.INWIN_B b).loseDram

/-- Enter a state while the AON domain may be down: the transition is logged only where it runs. DESIGN CHOICE, log entry 29. -/
def State.enterDark (s : State) (dst : TopState) (cause : Byte) : State :=
  if s.top.aonOn then s.goTo dst cause
  else { s with top := { s.top with state := dst, prev := s.top.state, cause := cause } }

/-- `AON_DOMAIN_START` (R4, R398, R457, R461, R491, R513): the straps are sampled, the fuses read, the bootstrap page loaded,
and the timebase and the capture sequence counter continue from the VBAT register file where it is valid.
DESIGN CHOICE, log entry 29. -/
def execAonDomainStart (smbus : Bool) (sbaddr : BitVec 2) (fuses : List FuseSense) (s : State) :
    Host.Outcome State Fault Refusal :=
  .next (
    if s.top.aonOn && s.fuse.read then s
    else
      let s := s.clearAon
      let put := fun (t : Tab Word) (w : Byte) (v : Word) => Tab.set (fun _ => (0 : Word)) t w.toNat v
      let s := { s with
        top := { s.top with aonOn := true },
        fuse := { s.fuse with
          normal := fuses.foldl (fun t (f : FuseSense) => put t f.word f.normal) s.fuse.normal,
          tight := fuses.foldl (fun t (f : FuseSense) => put t f.word f.tight) s.fuse.tight },
        sb := { s.sb with smbus := smbus, sbaddr := sbaddr } }
      let found := s.vbat.on && s.vbat.valid
      let s := if found then s else s.freshVbat
      let s := { s with
        vbat := { s.vbat with on := true, found := found },
        time := { s.time with tb := if found then (s.vbat.tbHigh + 2) <<< 52 else 0 },
        log := { s.log with nextSeq := if found then s.vbat.capSeq else 0 } }
      let s := s.readFuses.loadPage
      let s := if s.vbat.record.isSome then s.setFld Fld.GLB_EVENT.RAILSNAP 1 else s
      if s.top.state == .aon then
        let prev : TopState := if found then .standby else .off
        ({ s with top := { s.top with prev := prev } }).event 0x0001 (2 + (prev.code <<< 4) + (s.top.cause.toNat <<< 8))
      else s)

/-- `AON_DOMAIN_STOP` (R23, R398, R407): with a rail enabled the VBAT domain keeps the flag `AON_LOST` and the state. -/
def execAonDomainStop (s : State) : Host.Outcome State Fault Refusal :=
  .next (
    if !s.top.aonOn then s
    else
      let s := if s.anyEn then
          ({ s with vbat := { s.vbat with aonLost := true, lostState := s.top.state } }).bumpF Fld.PWR_FAULTS.AONLOST
        else s
      let s := { s with vbat := { s.vbat with capSeq := s.log.nextSeq, onCell := s.vbat.present } }
      let s := s.clearAon
      let s := if s.vbat.present then s else s.stopVbat
      { s with top := {
          state := if s.vbat.present then .standby else .off, prev := s.top.state, cause := 0x00, aonOn := false } })

/-- `VBAT_APPLIED` (R23): in `OFF` with no feed in window the VBAT domain starts. -/
def execVbatApplied (s : State) : Host.Outcome State Fault Refusal :=
  .next (
    let s := { s with vbat := { s.vbat with present := true } }
    if s.top.state == .off && !s.flag Fld.PWR_FEEDSTAT.INWIN_A && !s.flag Fld.PWR_FEEDSTAT.INWIN_B then
      let s := if s.vbat.on && s.vbat.valid then s else s.freshVbat
      s.enterDark .standby 0x00
    else s)

/-- `VBAT_REMOVED` (R23, R547): in `STANDBY` the hub enters `OFF`; the register file lives on only while VAON supplies it. -/
def execVbatRemoved (s : State) : Host.Outcome State Fault Refusal :=
  .next (
    let s := { s with vbat := { s.vbat with present := false } }
    let s := if s.vbat.onCell || !s.top.aonOn then s.stopVbat else s
    if s.top.state == .standby then s.enterDark .off 0x00 else s)

/-- `ALL_SOURCES_LOST` (R23, R25): `OFF` from any state. -/
def execAllSourcesLost (s : State) : Host.Outcome State Fault Refusal :=
  .next (
    let s := { s with vbat := { s.vbat with present := false } }
    let s := (s.clearAon.setReg Reg.PWR_FEEDSTAT 0).stopVbat
    { s with top := { state := .off, prev := s.top.state, cause := 0x00, aonOn := false } })

/-- `VBAT_SWITCHOVER` (R547): on a supply that is not there the register file falls below 1.8 V and is invalid. -/
def execVbatSwitchover (toVbat : Bool) (s : State) : Host.Outcome State Fault Refusal :=
  .next (
    if toVbat then
      let s := { s with vbat := { s.vbat with onCell := true } }
      if s.vbat.present then s else { s.stopVbat with vbat := { s.stopVbat.vbat with onCell := true } }
    else
      let s := { s with vbat := { s.vbat with onCell := false } }
      if s.vbat.on then s else { s with vbat := { s.vbat with on := true, valid := false } })

end Sys2Proof.Machine
end

