-- ==== Sys2Proof/Machine/Feeds.lean ====
section
/-!
DEFINITION. Feeds, Veer and PLW_N (R424 to R428, R433), the power-loss trigger and step G1 of Gust (R39, R69, R432 to
R435), and the ways out of `CALM` (R442, R443).
-/

namespace Sys2Proof.Machine

/-! ### Feeds (R424, R425) -/

/-- A feed's gate turns on and it becomes active. -/
def State.gateOn (s : State) (f : Feed) : State :=
  ({ s with pwr := { s.pwr with fresh := Option.none } }.setFld (gateFld f) 1).setFld Fld.PWR_FEEDSTAT.ACTIVE (feedNo f)

/-- A feed is in its window and does not leave it in this same cycle (R450, R539). DESIGN CHOICE, log entry 48. -/
def State.feedStays (s : State) (f : Feed) : Bool := s.feedIn f && !s.pending.contains (.feedOutOfWindow f)

/-! ### The power-loss trigger (R39, R432, R434) -/

/-- The AON domain detects a trigger: two sources at once give the lower code. A trigger of the feed comparators is itself a
feed that has left its window (R442). DESIGN CHOICE, log entry 30. -/
def State.detect (s : State) (code : BitVec 2) : State :=
  if s.canTrigger then
    match s.pwr.det with
    | none => { s with pwr := { s.pwr with det := some code, left := code == 2 } }
    | some c => { s with pwr := { s.pwr with det := some (if code < c then code else c), left := s.pwr.left || code == 2 } }
  else s

/-- Queue the notice on every port that carries traffic (R69, R93, R94). -/
def State.sendPln (s : State) (gusting : Bool) (trig : BitVec 2) : State :=
  foldS allPorts (fun s p =>
    let l := s.link p
    if l.up then
      let cnt := if s.feat p 4 then l.adm.base else 0
      let tag := if s.feat p 4 && cnt != 0 then l.adm.last else 0
      s.setLink p { l with pln := some (mkPln gusting (!s.holdup) trig cnt tag s.nowNs) }
    else s) s

/-- A command that is a request or a part of one on its way to a lane queue (R39, R186). -/
def entersLane : Instr → Bool
  | .read _ _ | .writeA _ _ | .writeD _ _ | .mwriteA _ _ | .mwriteD _ _ | .flush _ _ | .hostDataSlot _ _ => true
  | .replicaSlot _ | .rebuildLineSlot _ | .repairLineSlot _ | .mask _ _ | .repairReq _ _ _ => true
  | _ => false

/-- What ends in the cycle of a trigger (R39, R261, R288, R307, R357, R450): nothing more is admitted, what is still in Intake, Seal,
Map or a lane queue goes, maintenance and corrections not yet issued are discarded, ranks leave power-down, calibration and training
stop, and the `RET` timer. DESIGN CHOICE, log entries 32 and 40. -/
def State.freeze (s : State) : State :=
  let s := foldS allPorts (fun s p => s.onLink p fun l => { l with lane := [], halves := [] }) s
  let s := { s with rx := s.rx.filter fun x => match x with
    | .cmd _ c => !entersLane c
    | .flitEnd _ => true }
  let s := ({ s with ord := { s.ord with mapped := [] }, mir := { s.mir with jMarks := [] } }).dropAgents
  let s := { s with
    flt := { s.flt with copyOn := false, unsettled := [] }, pwr := { s.pwr with retHold := true } }
  let s := foldS s.popSubs (fun s n =>
    let busy := (s.training n).step != 0
    let s := s.onSub n fun c => { c with
      maint := [], corr := [], held := c.held && !busy,
      store := c.store.filter fun e => match e.kind with
        | .scrub | .rebuildRead | .correction | .formatWrite | .spareRead | .rawWrite => false
        | _ => true }
    let s := if busy then s.setFld (Fld.DPH_STAT.BUSY n) 0 else s
    (s.exitPd n 0).exitPd n 1) s
  { s with
    flt := { s.flt with readmit := Option.none },
    cal := { s.cal with runs := [], due := [], pend := [], train := [] } }

/-! ### The Gust journal's slots (R438, R440, R446) -/

/-- Byte offset of a slot of the journal area. -/
def journalOff (slot : Nat) : Nat := 0x430000 + 0x800000 * slot

/-- A header's `MARKER` and `CRC` are good. -/
def headerGood (l : Line) : Bool :=
  let b := lineBytes l
  ofLeBytes (b.take 4) == 0x47555354 && ofLeBytes (b.drop 60) == (crc32c (b.take 60)).toNat

/-- A copy of a slot's header as it stands: the line that waits or is held for it, else what DRAM holds, also in self-refresh, where
step G1 finds it as the hub last did. DESIGN CHOICE, log entry 50. -/
def State.headerCopy (s : State) (a : Nat) : Option Line :=
  let t := s.siteOf a
  ((s.onRank (2 * t.1 + t.2.rank) fun r => { r with trained := true }).fetchCopy a).2

/-- The valid header of a slot, from either copy (R446). -/
def State.header (s : State) (slot : Nat) : Option Line :=
  let a := s.reserveLine (journalOff slot)
  ([s.headerCopy a, s.headerCopy (a + 2 ^ 23)].filterMap id).find? headerGood

/-- A field of a header: `n` bytes from byte `off`. -/
def lineField (l : Line) (off n : Nat) : Nat := ofLeBytes (((lineBytes l).drop off).take n)

/-- A sequence number of 32 bits lies behind another. -/
def seqBehind (a b : Nat) : Bool := decide ((a + 2 ^ 32 - b) % 2 ^ 32 ≥ 2 ^ 31)

/-- The pending slots with their headers, the newest first. -/
def State.pendingSlots (s : State) : List (Nat × Line) :=
  match s.header 0, s.header 1 with
  | some a, some b => if seqBehind (lineField a 4 4) (lineField b 4 4) then [(1, b), (0, a)] else [(0, a), (1, b)]
  | some a, none => [(0, a)]
  | none, some b => [(1, b)]
  | none, none => []

/-- The slot G1 chooses, and whether the journal can be complete (R438). -/
def State.chooseSlot (s : State) : Nat × Bool :=
  match s.pendingSlots with
  | [] => (0, true)
  | [(k, _)] => (1 - k, true)
  | _ :: (k, _) :: _ => (k, false)

/-- Step G1 (R435, R438, R440, R449): in `RESTORE` a slot still pending is replayed up to `PREV_FROM`, which is 0 where its replay has
not begun. DESIGN CHOICE, log entries 30 and 40. -/
def State.startGust (s : State) (code : BitVec 2) : State :=
  let c := s.chooseSlot
  let prev := s.top.state == .restore && !s.pendingSlots.isEmpty
  let s := { s with
    vbat := { s.vbat with gustSeq := s.vbat.gustSeq + 1 },
    gust := {
      step := 3, slot := c.1, complete := c.2, began := s.time.elapsed, stamp := s.stamp, trig := code,
      prev := prev, prevFrom := if prev then s.ord.replayed else 0, early := s.gust.early } }
  let s := (s.bump Reg.PWR_GUSTS).setFld Fld.PWR_HOLD.HOLD_EN 1
  ({ s with pwr := { s.pwr with holdLow := false } }).goTo .gust 0x0B

/-- A trigger is registered (R39, R69, R432, R435, R23): Gust with the contents-valid flag set, else the full shutdown.
DESIGN CHOICE, log entry 30. -/
def State.register (s : State) (code : BitVec 2) : State :=
  let gusting := s.flag Fld.PWR_HOLD.CVALID && match s.top.state with
    | .join | .service | .restore => true
    | _ => false
  let s := { s with
    top := { s.top with trigger := some code }, pwr := { s.pwr with det := Option.none, plwPast := true }, log := { s.log with going := s.mayProgram } }
  let s := (s.setFld Fld.PWR_GUSTSTAT.TRIG code.toNat).freeze.triggerLull.endSection
  if gusting then (s.startGust code).sendPln true code else (s.sendPln false code).startStop 0

/-- `POWER_LOSS_TRIGGER` (R432): the trigger detected is registered. DESIGN CHOICE, log entry 30. -/
def execPowerLossTrigger (s : State) : Host.Outcome State Fault Refusal :=
  .next (
    match s.pwr.det with
    | some code =>
      if s.canTrigger && !s.outranked 3 then s.register code else { s with pwr := { s.pwr with det := Option.none } }
    | none => s)

/-! ### Out of CALM (R442, R443) -/

/-- A disagreement is noted; its record is made at the next start. -/
def State.disagree (s : State) : State :=
  if s.pwr.disagree then s
  else { s with pwr := { s.pwr with
    disagree := true,
    late := s.pwr.late ++ [((0xA02A : BitVec 16), BitVec.ofNat 32 (s.fld Fld.PWR_GAUGE.REMAIN + (s.fld Fld.PWR_VBBURD.READING <<< 16)), s.stamp)] } }

/-- The end of a `CALM`: a disagreement is counted and shown once. -/
def State.closeCalm (s : State) : State :=
  let s := { s with top := { s.top with trigger := Option.none }, pwr := { s.pwr with det := Option.none } }
  if s.pwr.disagree then
    let s := { s with pwr := { s.pwr with disagree := false, recal := true } }
    (s.bump Reg.PWR_GAUGEDIS).setFld Fld.PWR_HOLD.DISAGREE 1
  else s

/-- `RESTORE` begins: the boot section runs (R405, R447). -/
def State.enterRestore (s : State) (cause : Byte) (early : Bool) : State :=
  let s := (s.closeCalm.goTo .restore cause).setReg Reg.PWR_CONTENTS 0
  ({ s with gust := { s.gust with step := 0, rst := 2, early := early, headOk := false, headDone := false, overflow := false, unread := false } }).startSection 1

/-- A feed takes the load on the way out of `CALM` (R443): HOLD_EN goes low `OVL` later. DESIGN CHOICE, log entry 30. -/
def State.leaveCalm (s : State) (f : Feed) (early : Bool) : State :=
  let old := s.active
  let s := s.gateOn f
  let s := { s with pwr := { s.pwr with
    holdLow := true, overlap := if old != f && s.flag (gateFld old) then some old else s.pwr.overlap } }
  if early then ((s.event 0xA028 (feedNo f)).enterRestore 0x0F true).setFld Fld.PWR_HOLD.EARLY 1 else s.enterRestore 0x0D false

/-- The false warning (R442, R443). -/
def State.falseWarning (s : State) : State :=
  let s := ((s.bump Reg.PWR_FALSEGUST).event 0xA026 (min 0xFFFF s.gust.len)).setFld Fld.PWR_HOLD.HOLD_EN 0
  s.enterRestore 0x0E false

/-- `CALM_FALSE_WARNING` (R442): 10 ms after a trigger since which no feed has left its window. -/
def execCalmFalseWarning (s : State) : Host.Outcome State Fault Refusal :=
  .next (if s.inCalm && !s.pwr.left && !s.outranked 7 then s.falseWarning else s)

/-- The gauge has been silent for longer than `GAUGE_TMO` (R430). -/
def State.gaugeSilent (s : State) : Bool :=
  match s.pwr.gaugeAt with
  | some t => decide (t + 8000000000 * s.fld Fld.PWR_BBUCFG.GAUGE_TMO < s.time.elapsed)
  | none => true

/-- `VBBU_CUTOFF` (R442, R443): a false warning, an early return on a feed in window, the preferred one first, or holdup
exhausted. A feed already qualified outranks the cutoff. -/
def execVbbuCutoff (s : State) : Host.Outcome State Fault Refusal :=
  .next (
    if !s.inCalm || s.outranked 5 then s
    else if !s.pwr.left then s.falseWarning
    else
      let used := [s.preferred, feedOther s.preferred].filter fun f => s.feedIn f && s.feedUsed f
      match used.find? fun f => s.flag (qualFld f) with
      | some f => s.leaveCalm f false
      | none =>
        let s := if !s.gaugeSilent && !s.pwr.remainZero then s.disagree else s
        match used with
        | f :: _ => s.leaveCalm f true
        | [] => (s.closeCalm.clearValid 0x5).startStop 2)

/-- `HOLD_EN_LOW` (R443): `OVL` has passed since the returning feed's gate turned on. -/
def execHoldEnLow (s : State) : Host.Outcome State Fault Refusal :=
  .next (
    if s.pwr.holdLow then ({ s with pwr := { s.pwr with holdLow := false } }).setFld Fld.PWR_HOLD.HOLD_EN 0 else s)

/-! ### Feed events (R23, R425, R426, R428, R444) -/

/-- `FEED_ENTERS_WINDOW` (R23, R424): from `OFF` or `STANDBY` the hub enters `AON`. DESIGN CHOICE, log entry 29. -/
def execFeedEntersWindow (f : Feed) (s : State) : Host.Outcome State Fault Refusal :=
  .next (
    let s := (s.setFld (inwinFld f) 1).endExc (16 + feedNo f)
    match s.top.state with
    | .off | .standby => s.enterDark .aon 0x01
    | _ => s)

/-- Entry to `SEQUENCE` (R23, R425): the gate of the preferred feed, if it is qualified, else of the other. -/
def State.enterSequence (s : State) : State :=
  let p := s.preferred
  let f := if s.flag (qualFld p) then p else feedOther p
  let single := s.flag Fld.PWR_VEERCFG.SINGLE || !(s.feedIn .a && s.feedIn .b)
  let s := ((s.goTo .sequence 0x02).gateOn f).setReg Reg.PWR_CONTENTS 0
  let s := if single then s.event 0xA023 (feedNo f) else s
  s.startSection 1

/-- Step V1 (R426, R428): the load moves to the other feed. DEDUCED, log entry 28. -/
def State.veer (s : State) (dst : Feed) (code : BitVec 16) : State :=
  let old := s.active
  let s := { (s.gateOn dst) with pwr := { s.pwr with overlap := some old, fresh := some s.time.elapsed } }
  (s.bump Reg.PWR_VEERS).event code (feedNo dst)

/-- An early-returned feed leaves its window before it qualifies (R444): the flag is cleared before the trigger.
DESIGN CHOICE, log entry 30. -/
def State.earlyFails (s : State) (f : Feed) : State :=
  if s.flag Fld.PWR_HOLD.EARLY && s.active == f then ((s.setFld Fld.PWR_HOLD.EARLY 0).clearValid 0x6).event 0xA029 (feedNo f) else s

/-- A feed that became active under V1 or V3 less than 100 ms ago is marked suspect (R428). -/
def State.suspectFeed (s : State) (f : Feed) : State :=
  match s.pwr.fresh with
  | some t => if s.time.elapsed ≤ t + 800000000 then (s.setFld (suspectFld f) 1).event 0xA022 (feedNo f) else s
  | none => s

/-- `FEED_OUT_OF_WINDOW` (R23, R424, R426, R428, R432, R434, R444). -/
def execFeedOutOfWindow (f : Feed) (s : State) : Host.Outcome State Fault Refusal :=
  .next (
    if !s.top.aonOn || !s.feedIn f then s
    else
      let carrying := s.active == f && s.flag (gateFld f)
      let s := (s.setFld (inwinFld f) 0).endExc (16 + feedNo f)
      let s := (s.setFld (qualFld f) 0).setFld (gateFld f) 0
      let s := s.earlyFails f
      let o := feedOther f
      let s := if carrying then s.suspectFeed f else s
      let s := if carrying && s.feedStays o && s.feedUsed o then s.veer o 0xA020 else s
      let s := if s.top.trigger.isSome || s.pwr.det.isSome then { s with pwr := { s.pwr with left := true } } else s
      let s := if [Feed.a, Feed.b].any fun x => s.feedUsed x && s.feedIn x then s else s.detect 2
      if !s.feedIn .a && !s.feedIn .b && (s.top.state == .aon || s.top.state == .faultOff) then s.goDark else s)

/-- `VEER_OLD_GATE_OFF` (R426 V2, V4): the gate of the old feed turns off. -/
def execVeerOldGateOff (s : State) : Host.Outcome State Fault Refusal :=
  .next (
    match s.pwr.overlap with
    | some f =>
      let s := { s with pwr := { s.pwr with overlap := Option.none } }
      if s.active == f then s else s.setFld (gateFld f) 0
    | none => s)

/-- `VEER_RETURN` (R426 V3, R428, R450): back to the preferred feed, unless it is suspect or a trigger has cancelled the
timer. -/
def execVeerReturn (s : State) : Host.Outcome State Fault Refusal :=
  .next (
    let p := s.preferred
    if s.top.aonOn && s.active != p && s.flag (gateFld s.active) && s.feedIn p && !s.flag (suspectFld p) && !s.pwr.retHold then
      s.veer p 0xA021
    else s)

/-! ### PLW_N (R433) -/

/-- The other channel. -/
def plwOther (ch : Fin 2) : Nat := 1 - ch.val

/-- `PLW_N_ASSERT` (R433). -/
def execPlwNAssert (ch : Fin 2) (s : State) : Host.Outcome State Fault Refusal :=
  .next (
    if !s.top.aonOn || s.plwOn.contains ch.val then s
    else
      let o := plwOther ch
      let s := s.setFldBit Fld.PWR_FEEDSTAT.PLW ch.val true
      if !s.flag Fld.PWR_PLWCFG.PLW_EN || s.pwr.plwIgn.contains ch.val then s
      else if s.pwr.plwTimer == some o then ({ s with pwr := { s.pwr with plwTimer := Option.none } }).detect 1
      else if s.plwOn.contains o && !s.pwr.plwIgn.contains o then s
      else { s with pwr := { s.pwr with plwTimer := some ch.val } })

/-- `PLW_N_RELEASE` (R433): alone and before `T_DISC` it was a glitch. -/
def execPlwNRelease (ch : Fin 2) (s : State) : Host.Outcome State Fault Refusal :=
  .next (
    if !s.top.aonOn then s
    else
      let s := s.setFldBit Fld.PWR_FEEDSTAT.PLW ch.val false
      let s := { s with pwr := { s.pwr with plwIgn := s.pwr.plwIgn.filter (· != ch.val) } }
      if s.pwr.plwTimer == some ch.val then ({ s with pwr := { s.pwr with plwTimer := Option.none } }).bump Reg.PWR_PLWDISC
      else s)

/-- `PLW_DISCREPANCY_TIMEOUT` (R433, R456). DESIGN CHOICE, log entry 30. -/
def execPlwDiscrepancyTimeout (s : State) : Host.Outcome State Fault Refusal :=
  .next (
    match s.pwr.plwTimer with
    | some ch =>
      let s := ({ s with pwr := { s.pwr with plwTimer := Option.none } }).bump Reg.PWR_PLWDISC
      (s.event 0xA024 (ch + 2 * bitOf s.canTrigger)).detect 3
    | none => s)

end Sys2Proof.Machine
end

