-- ==== Sys2Proof/Machine/Gust.lean ====
section
/-!
DEFINITION. Gust from step G3 on (R435 to R440), the gauge and holdup readiness (R429 to R431, R442), and the monitor ADC
(R402, R422, R455).
-/

namespace Sys2Proof.Machine

/-! ### Lines written by the drain -/

/-- A copy can be written: its rank is in use, out of self-refresh, and its DLL not stuck (R437). -/
def State.copyUsable (s : State) (a : Nat) : Bool :=
  let t := s.siteOf a
  let p := 2 * t.1 + t.2.rank
  (s.rank p).trained && !s.gone p && !s.dllStuck t.1 && !(s.sub t.1).sref.contains t.2.rank && !s.pwr.latch

/-- A line reaches DRAM with a poison kind; while a copy of R357 runs, the redirected location takes it too (R356). -/
def State.putLine (s : State) (a : Nat) (line : Line) (k : PoisonKind) : State :=
  let cw := encodeLine a line k
  let t := s.siteOf a
  let s := s.store t.1 t.2 cw
  if s.flt.sp == 1 then
    match s.redirect a with
    | some u => s.store u.1 u.2 cw
    | none => s
  else s

/-- Write a reserve line to each copy that can be written; `false` where neither can (R161, R437). DESIGN CHOICE, log entry 50. -/
def State.putReserve (s : State) (off : Nat) (line : Line) : State × Bool :=
  let a := s.reserveLine off
  let l := [a, a + 2 ^ 23].filter s.copyUsable
  (foldS l (fun s x => s.putLine x line .good) s, !l.isEmpty)

/-- Write a run of reserve lines from an offset on; `false` where one found no copy. DESIGN CHOICE, log entry 32. -/
def State.putLines (off : Nat) : List Line → State → State × Bool
  | [], s => (s, true)
  | x :: r, s =>
    let t := s.putReserve off x
    let u := State.putLines (off + 64) r t.1
    (u.1, t.2 && u.2)

/-- Sixteen 32-bit words of a line. -/
def packWords : Nat → List Nat → List Line
  | 0, _ => []
  | n + 1, ws => BitVec.ofNat 512 (ofLeBytes ((ws.take 16).flatMap fun w => leBytes w 4)) :: packWords n (ws.drop 16)

/-! ### The journal (R437 to R440) -/

/-- The lines to be journaled: every write buffer or agent line whose command has not issued, in admission order (R36, R437).
DESIGN CHOICE, log entry 32. -/
def State.journalLines (s : State) : List PoolEntry :=
  let l := s.ord.pool.filterMap fun q => match q.2 with
    | some e => if e.hasLine && !e.issued && !e.skipWrite then some e else Option.none
    | none => Option.none
  l.mergeSort fun a b => decide (a.adm ≤ b.adm)

/-- `STATE` of a descriptor (R439). An agent line whose seal fails only now is good (R329). DESIGN CHOICE, log entry 32. -/
def PoolEntry.journalState (e : PoolEntry) : Nat :=
  let k := match e.kind with
    | .agentWrite => if !e.poison && !e.lpoison then PoisonKind.good else e.kindAt
    | _ => e.kindAt
  match k with
  | .good => if e.heldElse then 1 else 0
  | .carried => 2
  | .locally => 3

/-- A descriptor as 16 bytes, a number (R439). -/
def PoolEntry.descriptor (e : PoolEntry) : Nat :=
  e.addr % 2 ^ 39 + (bitOf e.merging <<< 39) + (e.journalState <<< 40) +
    ((if e.merging then e.mask.toNat else 2 ^ 64 - 1) <<< 64)

/-- Descriptors, four to a line. -/
def packDescriptors : Nat → List Nat → List Line
  | 0, _ => []
  | n + 1, ds => BitVec.ofNat 512 (ofLeBytes ((ds.take 4).flatMap fun d => leBytes d 16)) :: packDescriptors n (ds.drop 4)

/-- The granules the journal carries (R220, R440): marks the trigger kept from being written through, then those of the open
pending-ack entries, and of the writes that still wait at Fork and become such entries as T goes down.
DESIGN CHOICE, log entry 32. -/
def State.owedMarks (s : State) : List Nat :=
  s.mir.jMarks ++ (s.mir.pend.filterMap fun q => q.2.map (·.gran)) ++
    (s.ord.backlog.filterMap fun i => (s.entry i).map fun e => granOf e.addr)

/-- The journal header (R440). -/
def State.journalHeader (s : State) : Line :=
  let g := s.gust
  let b := leBytes 0x47555354 4 ++ leBytes s.vbat.gustSeq.toNat 4 ++ leBytes g.stamp.toNat 8 ++ leBytes g.lines 2 ++
    leBytes (g.marks + (bitOf g.ovf <<< 15)) 2 ++ [BitVec.ofNat 8 (bitOf g.complete + 2 * g.trig.toNat + 8 * bitOf g.prev), 0, 0, 0] ++
    leBytes g.prevFrom 2 ++ [0, 0] ++ leBytes s.mir.epoch.toNat 4 ++ List.replicate 28 0
  BitVec.ofNat 512 (ofLeBytes (b ++ leBytes (crc32c b).toNat 4))

/-- Every bank of the population is precharged. -/
def State.allPrecharged (s : State) : Bool := s.popSubs.all fun n => (s.sub n).banks.all fun b => b.2.isNone

/-- A replay of writes runs on a sub-channel (R340). -/
def State.replaying (s : State) : Bool := s.popSubs.any fun n => (s.sub n).alert != 0

/-- `GUST_WRITES_DRAINED` (R365, R435 G3): every bank is precharged, no replay runs, and a planned Lull has handed the ranks over. A Lull
that has locked on no reference lets none leave self-refresh (R389, R437). DESIGN CHOICE, log entry 32. -/
def execGustWritesDrained (s : State) : Host.Outcome State Fault Refusal :=
  .next (
    if s.top.state == .gust && s.gust.step = 3 && s.allPrecharged && !s.replaying && !(s.clk.planned && s.clk.emerg == 0) then
      { s with gust := { s.gust with step := 4, dropped := s.clk.emerg != 0 } }
    else s)

/-- `GUST_JOURNAL_WRITTEN` (R435 G4, R437): each line's seal is verified as hand-off 0x3 does; the lines and descriptors go
to both copies. DESIGN CHOICE, log entry 32. -/
def execGustJournalWritten (s : State) : Host.Outcome State Fault Refusal :=
  .next (
    if s.top.state == .gust && s.gust.step = 4 then
      let every := s.journalLines
      let l := every.take 8448
      let s := foldS l (fun s e => s.checkSeal 3 e) s
      let off := journalOff s.gust.slot
      let t := State.putLines (off + 0x32000) (l.map (·.line)) s
      let u := State.putLines (off + 0x11000) (packDescriptors ((l.length + 3) / 4) (l.map (·.descriptor))) t.1
      let s := u.1
      { s with gust := { s.gust with
        step := 5, lines := l.length,
        complete := s.gust.complete && t.2 && u.2 && !s.gust.dropped && every.length == l.length } }
    else s)

/-- `GUST_HEADER_WRITTEN` (R435 G5, R440, R455). -/
def execGustHeaderWritten (s : State) : Host.Outcome State Fault Refusal :=
  .next (
    if s.top.state == .gust && s.gust.step = 5 then
      let all := s.owedMarks
      let m := all.take 16384
      let off := journalOff s.gust.slot
      let t := State.putLines (off + 0x1000) (packWords ((m.length + 15) / 16) (m.map fun g => g % 2 ^ 24 + 2 ^ 31)) s
      let s := t.1
      let s := { s with gust := { s.gust with
        step := 6, marks := m.length, ovf := decide (all.length > 16384), complete := s.gust.complete && t.2 } }
      let s := (s.putReserve off s.journalHeader).1
      let s := (s.setFlag Fld.PWR_GUSTSTAT.COMPLETE s.gust.complete).setFlag Fld.PWR_GUSTSTAT.MARKS_OVF s.gust.ovf
      s.setFld Fld.PWR_GUSTSTAT.LINES s.gust.lines
    else s)

/-- Every rank that is not retired enters self-refresh, CK stops, and the retention latch is set, with every pad that is not retained at
high impedance (R286, R287). -/
def State.latchPads (s : State) : State :=
  let s := foldS s.popSubs (fun s n =>
    ((s.sleepSub n).stopCk n).onSub n fun c => { c with pins := c.pins.quiet }) s
  { s with pwr := { s.pwr with latch := true } }

/-- `GUST_SELF_REFRESH` (R435 G6): every rank that is not retired is in self-refresh, the latch is set, and the partial form
begins. -/
def execGustSelfRefresh (s : State) : Host.Outcome State Fault Refusal :=
  .next (
    if s.top.state == .gust && s.gust.step = 6 then
      ({ s.latchPads with gust := { s.gust with step := 7 } }).startStop 1
    else s)

/-- Every rail that `CALM` does not hold has its EN output low. -/
def State.loadShed (s : State) : Bool := (List.range 16).all fun n => !s.railUsed n || s.railHeld n || !s.railOn n

/-- `CALM_ENTRY` (R23, R435 G7, R436): the last rail that `CALM` does not hold has its EN output low. The core is off, and what was
still owed is dropped; rows of the partial form after that one run on. A Gust of more than 300 µs is
reported at the next start. DESIGN CHOICE, log entry 30. -/
def execCalmEntry (s : State) : Host.Outcome State Fault Refusal :=
  .next (
    if s.top.state == .gust && s.gust.step = 7 && s.loadShed && !s.outranked 7 then
      let us := (s.time.elapsed - s.gust.began) / 8000
      let s := s.setFld Fld.PWR_GUSTSTAT.DUR (min 1023 us)
      let late := if us > 300 then [((0xA031 : BitVec 16), (BitVec.ofNat 32 (min 1023 us) : Word), s.stamp)] else []
      let s := { s with
        gust := { s.gust with step := 0, len := us },
        pwr := { s.pwr with late := s.pwr.late ++ late, disagree := false } }
      (s.goTo .calm 0x0C).coreStop
    else s)

/-! ### Holdup readiness (R430, R431) -/

/-- The first condition of R430 that fails, as a `NOREADY` code, or 0. PRESUMED, log entry 31. -/
def State.notReady (s : State) (silent : Bool) : Nat :=
  if s.fld Fld.PWR_VBBURD.READING < s.fld Fld.PWR_BBUWIN.READY then 1
  else if silent || s.gaugeSilent then 2
  else if s.fld Fld.PWR_GAUGE.REMAIN < s.fld Fld.PWR_GAUGECFG.CAP_MIN then 3
  else if (s.fld Fld.PWR_GAUGEVS.STATUS).testBit 11 then 4
  else if s.pwr.mah != some true then 5
  else 0

/-- Readiness changes: shown, flagged and sent (R430, R532). PRESUMED, log entry 31. -/
def State.setReady (s : State) (why : Nat) : State :=
  let s := (s.setFlag Fld.PWR_HOLD.READY (why == 0)).setFld Fld.PWR_HOLD.NOREADY why
  ((s.setFld Fld.GLB_EVENT.HOLD 1).event 0xA02C (bitOf (why == 0) + (why <<< 4))).settle

/-- A condition that fails ends readiness at once; while not ready, `NOREADY` follows the first that fails.
PRESUMED, log entry 31. -/
def State.judgeReady (s : State) (silent : Bool) : State :=
  let why := s.notReady silent
  if why = 0 then s
  else if s.flag Fld.PWR_HOLD.READY then s.setReady why
  else s.setFld Fld.PWR_HOLD.NOREADY why

/-- `HOLDUP_READY_CHANGE` (R430): the gauge has been silent for `GAUGE_TMO`, or every condition has held for 10 s. -/
def execHoldupReadyChange (silent : Bool) (s : State) : Host.Outcome State Fault Refusal :=
  .next (
    if !s.top.aonOn then s
    else if s.notReady silent = 0 then (if s.flag Fld.PWR_HOLD.READY then s else s.setReady 0)
    else s.judgeReady silent)

/-- The request for recalibration at the first FULLY_CHARGED in service (R442). -/
def State.recalibrate (s : State) : State :=
  if s.top.state == .service && s.pwr.recal && (s.fld Fld.PWR_GAUGEVS.STATUS).testBit 5 then
    let s := { s with pwr := { s.pwr with recal := false } }
    (s.event 0xA02B (s.fld Fld.PWR_GAUGECFG.RECAL)).setFld Fld.PWR_HOLD.DISAGREE 0
  else s

/-- `GAUGE_POLL` (R429, R430, R442): the last good reading is kept; in `CALM` an empty gauge over a good voltage is a
disagreement. -/
def execGaugePoll (found : Option GaugeRead) (s : State) : Host.Outcome State Fault Refusal :=
  .next (
    if !s.top.aonOn then s
    else
      let s := match found with
        | some g =>
          let s := (s.setFld Fld.PWR_GAUGE.REMAIN g.remain.toNat).setFld Fld.PWR_GAUGE.FULL g.full.toNat
          let s := (s.setFld Fld.PWR_GAUGEVS.VOLT g.volt.toNat).setFld Fld.PWR_GAUGEVS.STATUS g.status.toNat
          let s := s.setFld Fld.PWR_GAUGECUR.CURRENT g.current.toNat
          let s := { s with pwr := { s.pwr with
            gaugeAt := some s.time.elapsed, mah := some (s.pwr.mah.getD g.mah), remainZero := g.remain == 0 } }
          let empty := g.remain == 0 || g.status.getLsbD 4
          let high := decide (s.fld Fld.PWR_BBUWIN.CUT + s.fld Fld.PWR_BBUCFG.MARGIN < s.fld Fld.PWR_VBBURD.READING)
          (if s.inCalm && empty && high then s.disagree else s).recalibrate
        | none => s
      s.judgeReady false)

/-! ### The monitor ADC (R402, R422, R455) -/

/-- One conversion: the latest reading and the lowest. -/
def State.convert (s : State) (reading low : Fld) (v : BitVec 12) : State :=
  (s.setFld reading v.toNat).setFld low (min (s.fld low) v.toNat)

/-- `ADC_CONVERSION` (R402): every used VMON input, and VBBU. -/
def execAdcConversion (readings : List (BitVec 12)) (vbbu : BitVec 12) (s : State) : Host.Outcome State Fault Refusal :=
  .next (
    if !s.top.aonOn then s
    else
      let s := foldS ((List.range 16).filter s.railUsed) (fun s n =>
        match readings[n]? with
        | some v => s.convert (Fld.PWR_RAILRD.READING n) (Fld.PWR_RAILRD.MIN n) v
        | none => s) s
      (s.convert Fld.PWR_VBBURD.READING Fld.PWR_VBBURD.MIN vbbu).judgeReady false)

end Sys2Proof.Machine
end

