-- ==== Sys2Proof/Machine/Restore.lean ====
section
/-!
DEFINITION. The ends of `TRAIN` and `RESTORE` (R153, R204, R259, R275, R284, R349, R364, R446 to R449, R480, R481, R565): the
contents report, the journal replay, and the load of the region table.
-/

namespace Sys2Proof.Machine

/-! ### The contents report and holds (R446, R482) -/

/-- Fix the report of this start: 1 INTACT, 2 LOST, 3 UNKNOWN (R446, R454, R532). DESIGN CHOICE, log entry 33. -/
def State.fixReport (s : State) (report reason : Nat) (all : Bool) : State :=
  (s.setReg Reg.PWR_CONTENTS (BitVec.ofNat 32 (report + (reason <<< 4) + (bitOf all <<< 8) + (bitOf s.gust.early <<< 9)))).setFld
    Fld.GLB_EVENT.CONTENTS 1

/-- `BOOT_HOLD` with its hold cause (R23, R482). -/
def State.enterHold (s : State) (hold : Nat) (cause : Byte) : State :=
  let s := { s with boot := { s.boot with stage8 := false, hold := 0 }, gust := { s.gust with rst := 0 } }
  ((s.setFld Fld.MGT_BOOTSTAT.HOLD_CAUSE hold).event 0xB006 hold).goTo .bootHold cause

/-! ### The reserve header (R481) -/

/-- The header names this hub. -/
def State.namesHub (s : State) (l : Line) : Bool :=
  let b := lineBytes l
  ofLeBytes (b.take 4) == 0x56535248 && ofLeBytes (b.drop 60) == (crc32c (b.take 60)).toNat &&
    lineField l 4 3 % 2 ^ 18 == s.fld Fld.GLB_HUBID.HUB_ID && lineField l 8 2 == s.fld Fld.GLB_POOLDOM.POOL_DOMAIN

/-- The header as the hub writes it. -/
def State.hubHeader (s : State) : Line :=
  let b := leBytes 0x56535248 4 ++ leBytes (s.fld Fld.GLB_HUBID.HUB_ID) 4 ++ leBytes (s.fld Fld.GLB_POOLDOM.POOL_DOMAIN) 4 ++
    leBytes (s.reg Reg.MAP_GEOM).toNat 4 ++ leBytes (s.reg Reg.MGT_IMGVER).toNat 4 ++ List.replicate 40 0
  BitVec.ofNat 512 (ofLeBytes (b ++ leBytes (crc32c b).toNat 4))

/-! ### The region table (R153 to R156) -/

/-- The entries that shadow lines hold, from line `i` on; none where a line reads from neither copy. -/
def shadowEntries : Nat → List (Option Line) → Option (Tab Word)
  | _, [] => some []
  | i, l :: r => l.bind fun l => (shadowEntries (i + 1) r).map fun t =>
    ((List.range 16).filterMap fun j =>
      let w := BitVec.ofNat 32 (lineField l (4 * j) 4)
      if w = 0 then Option.none else some (16 * i + j, w)) ++ t

/-- The entries that runs give: `FILLING` for a replica, `OFFLINE` for a primary (R153). -/
def tableOf (rs : List Run) : Tab Word :=
  (rs.flatMap fun r => (List.range r.count).map fun i =>
    (r.pair + i, rtPut (BitVec.ofNat 32 (r.loc + i)) r.role (if r.role = 2 then 4 else 5) false)).mergeSort fun a b => decide (a.1 ≤ b.1)

/-- The runs of the image in a slot (R154). -/
def State.slotRuns (s : State) (slot : Nat) : List Run :=
  let b := slotBase slot
  match s.readEntries (s.flashNat (b + 20) 4) (b + 64) (b + s.flashNat (b + 8) 4 - 16) 0 with
  | some es => imageRuns (es.filter (·.known))
  | none => []

/-- Take a table into force; `MAP_USE` counts its mapped entries (R167, R169). -/
def State.setTable (s : State) (t : Tab Word) (source : Nat) (bad : Bool) : State :=
  let s := { s with map := { rt := t, shadow := t, shadowOk := true } }
  let mapped := (t.filter fun (p : Nat × Word) => rtRole p.2 != 0).length
  let s := (s.satF Fld.MAP_USE.MAPPED mapped).satF Fld.MAP_USE.IDLE (s.geom.regions - 1 - mapped)
  (s.setFld Fld.MAP_TBLSRC.SOURCE source).setFlag Fld.MAP_TBLSRC.SHADOW_BAD bad

/-- Take the table of the shadow into force (R153, R196): each set `HANDOVER` bit is cleared and reported. Whether the cleared bits
are written back the manual leaves open: the shadow lines keep them until they are next written. DESIGN CHOICE, log entry 33. -/
def State.takeShadow (s : State) (t : Tab Word) : State :=
  let set := t.filter fun (p : Nat × Word) => rtHandover p.2
  let s := s.setTable (t.map fun (p : Nat × Word) => (p.1, fieldPut p.2 23 23 0)) 2 false
  foldS set (fun s p => s.event 0x4034 p.1) s

/-- The whole table, written to both copies of the shadow as agent writes (R36, R153, R156). -/
def State.writeShadow (s : State) : State :=
  let a := s.reserveLine 0x10000
  s.agentAsk ((List.range 16384).flatMap fun i =>
    [{ addr := a + i, line := some (s.shadowLine (16 * i)) }, { addr := a + i + 2 ^ 23, line := some (s.shadowLine (16 * i)) }])

/-- After the load, a retired rank without a spare takes every region out of use (R349). -/
def State.settleRanks (s : State) : State :=
  if (List.range 32).any fun p => (s.rank p).retired && !(s.rank p).spared then s.allOffline else s

/-! ### The fault record (R349, R364) -/

/-- The state a fault record gives; the CS_N bit of a rank that it retires is held high (R347, R351). DESIGN CHOICE, log entry 33. -/
def State.loadFault (s : State) (l : Line) : State :=
  let n := l.toNat
  let sp : BitVec 2 := BitVec.ofNat 2 (n >>> 288)
  let spRank := n >>> 290 % 32
  let s := { s with flt := { s.flt with
    sp := sp, spRank := spRank, cursor := n >>> 296 % 2 ^ 18, seq := BitVec.ofNat 32 (n >>> 320) } }
  foldS (List.range 32) (fun s p =>
    let e := n >>> (64 + 4 * p) % 16
    let retired := n.testBit (32 + p)
    let s := if retired then s.holdCs (p / 2) (p % 2) else s
    s.onRank p fun r => { r with
      retired := retired, spared := retired && sp == 2 && p == spRank, want := n.testBit (352 + p),
      cause := BitVec.ofNat 3 (n >>> (192 + 3 * p)), erased := if e < 10 then some e else Option.none }) s

/-- Read the record again in step H6 (R447). A record whose `SEQ` is not the last one written has a later write still waiting, and what
the hub holds stands. DESIGN CHOICE, log entry 33. -/
def State.rereadFault (s : State) : State :=
  let r := s.fetchReserve 0x310040
  match r.2 with
  | some l => if lineField l 0 4 = 0x464C5452 && lineField l 40 4 == r.1.flt.seq.toNat then r.1.loadFault l else r.1
  | none => r.1

/-- Read the record at the end of `TRAIN`, when the header names this hub. -/
def State.takeFault (s : State) (header record : Option Line) : State :=
  match header with
  | some h =>
    if s.namesHub h then
      match record with
      | some l => if lineField l 0 4 = 0x464C5452 then s.loadFault l else s.event 0x8018 0
      | none => s.event 0x8018 0
    else s
  | none => s

/-! ### TRAIN ends (R275, R280, R349, R445, R565) -/

/-- A local line address in the calibration shadow, in either copy (R162, R449). -/
def State.inCalShadow (s : State) (a : Nat) : Bool :=
  let off := a % 2 ^ 23 * 64
  a / 2 ^ 24 == s.geom.regions - 1 && decide (0x330000 ≤ off) && decide (off < 0x430000)

/-- The reserve is initialised (R565): every line of it is a zero line but those named, and the calibration records written since the
devices were reset are kept, as is every line outside the reserve. DESIGN CHOICE, log entry 9. -/
def State.initReserve (s : State) : State :=
  let held := ((s.dram.map fun (p : Nat × Byte) => p.1 / 80).eraseDups).map siteOfSlot
  let at' (x : Nat × Loc) : Nat := s.addrOf x.1 x.2
  let other := (held.filter fun x => at' x / 2 ^ 24 != s.geom.regions - 1).map fun x => (x, s.symbols x.1 x.2)
  let keep := (held.filter fun x => s.inCalShadow (at' x)).map fun x => (at' x, s.symbols x.1 x.2)
  let f : Formatted :=
    { geom := s.reg Reg.MAP_GEOM, hash := (List.range 14).map fun k => s.reg (Reg.MAP_HASHMASK0 + 4 * k),
      spRank := if s.flt.sp == 2 then some s.flt.spRank else Option.none }
  let s := { s with dram := [], fmt := some f }
  let s := foldS other (fun s q => s.store q.1.1 q.1.2 q.2) s
  foldS keep (fun s q => s.store (s.siteOf q.1).1 (s.siteOf q.1).2 q.2) s

/-- The lines that the initialisation names, entered at Order as writes to both copies ahead of any host request (R36, R153, R364, R481,
R565). -/
def State.writeNamed (s : State) : State :=
  let s := { s with mir := { s.mir with record := s.recordLine .none } }
  let shadow := ((List.range 16384).filter fun i => s.shadowLine (16 * i) != 0).map fun i => (0x10000 + 64 * i, s.shadowLine (16 * i))
  s.agentAsk (([(0, s.hubHeader)] ++ shadow ++ [(0x310000, s.mir.record), (0x310040, s.faultLine)]).flatMap fun (q : Nat × Line) =>
    let a := s.reserveLine q.1
    [{ addr := a, line := some q.2, start := true }, { addr := a + 2 ^ 23, line := some q.2, start := true }])

/-- `TRAIN_END` (R23, R275, R280, R349, R445): the records found are those of the reserve as the devices hold it. -/
def execTrainEnd (header record : Option Line) (s : State) : Host.Outcome State Fault Refusal :=
  .next (
    if s.top.state == .train && s.top.trigger.isNone && s.trainingOver && s.pwr.part = 0 && !s.outranked 7 then
      let s := s.keepStore
      if s.popRanks.any fun p => (s.rank p).trained then
        let s := ((s.takeFault header record).retireFailed true).setTable (tableOf (s.slotRuns s.cfgStore.slot)) 1 false
        let s := foldS s.popSubs (fun s n => s.onSub n fun c => { c with start := s.nowNs }) s
        ((s.initReserve.setValid.goTo .join 0x07).writeNamed).settleRanks
      else (s.retireFailed false).enterHold 4 0x08
    else s)

/-! ### The journal replay (R449) -/

/-- Load the divergence bitmap from the reserve. For a line that reads from neither copy the manual states no bits: they are
free values. DESIGN CHOICE, log entry 3. -/
def State.loadBitmap (s : State) : State :=
  let r := State.fetchRun 0x110000 s.geom.regions s
  let s := r.1
  let n := s.free
  let bits := ((List.range s.geom.regions).zip r.2).flatMap fun q => (List.range 512).filterMap fun i =>
    let b := match q.2 with
      | some x => x.getLsbD i
      | none => Config.freeBit (n + 512 * q.1 + i)
    if b then some (512 * q.1 + i, true) else Option.none
  { s with free := n + 512 * s.geom.regions, mir := { s.mir with marks := bits } }

/-- A line of the journal can be read from neither copy: the report is UNKNOWN (R446). -/
def State.noteUnread (s : State) (ls : List (Option Line)) : State :=
  if ls.any (·.isNone) then { s with gust := { s.gust with unread := true } } else s

/-- The marks of a slot. -/
def State.slotMarks (s : State) (slot n : Nat) : State × List Nat :=
  let r := State.fetchRun (journalOff slot + 0x1000) ((n + 15) / 16) s
  (r.1.noteUnread r.2, ((List.range n).filterMap fun k =>
    ((r.2.getD (k / 16) Option.none).map fun l => lineField l (4 * (k % 16)) 4).filter fun w => w.testBit 31).map (· % 2 ^ 24))

/-- What a line of the journal becomes (R329, R330, R449): nothing where it lies in the calibration shadow; its granule's mark where its
rank is out of use (R347); else a write of its own. DESIGN CHOICE, log entry 3. -/
def State.replayLine (s : State) (count : Option Nat) (d : Nat) (line : Line) : List AgentReq × List Nat :=
  let a := d % 2 ^ 39
  let st := d >>> 40 % 4
  if s.inCalShadow a then ([], [])
  else if !s.rankServes a then ([], if a / 2 ^ 24 = s.geom.regions - 1 then [] else [granOf a])
  else
    ([{ addr := a, line := some line, mask := if d.testBit 39 then some (BitVec.ofNat 64 (d >>> 64)) else Option.none,
        poison := st == 2, lpoison := st == 3, heldElse := st == 1, replay := count }], [])

/-- The lines of a slot from number `first` on, in descriptor order: their writes, and the granules to be marked. Of the newest slot the
replay position is counted. -/
def State.slotLines (s : State) (newest : Bool) (slot first n : Nat) : State × List (List AgentReq × List Nat) :=
  let x := State.fetchRun (journalOff slot + 0x32000 + 64 * first) (n - first) s
  let y := State.fetchRun (journalOff slot + 0x11000 + 64 * (first / 4)) ((n + 3) / 4 - first / 4) x.1
  let s := y.1.noteUnread (x.2 ++ y.2)
  (s, (List.range (n - first)).filterMap fun i =>
    let k := first + i
    match x.2.getD i Option.none, y.2.getD (k / 4 - first / 4) Option.none with
    | some l, some d => some (s.replayLine (if newest then some (k + 1) else Option.none) (lineField d (16 * (k % 4)) 16) l)
    | _, _ => Option.none)

/-- The lines of the pending slots, in the order of R449. -/
def State.pendingLines (s : State) (slots : List (Nat × Line)) : State × List (List AgentReq × List Nat) :=
  match slots with
  | [] => (s, [])
  | (k, h) :: rest =>
    let t := s.slotLines true k 0 (lineField h 16 2 % 2 ^ 14)
    match rest with
    | (j, o) :: _ =>
      if (lineField h 20 1).testBit 3 then
        let u := t.1.slotLines false j (lineField h 24 2 % 2 ^ 14) (lineField o 16 2 % 2 ^ 14)
        (u.1, t.2 ++ u.2)
      else t
    | [] => t

/-- The reads of the headers, both copies of each. -/
def State.fetchHeaders (s : State) : State :=
  foldS [0, 1] (fun s k =>
    let a := s.reserveLine (journalOff k)
    ((s.fetchCopy a).1.fetchCopy (a + 2 ^ 23)).1) s

/-- Set marks and enter the writes of their bitmap lines at Order. DESIGN CHOICE, log entry 3. -/
def State.putMarks (s : State) (gs : List Nat) : State :=
  let s := { s with mir := { s.mir with marks := gs.foldl (fun t g => Tab.set (fun _ => false) t g true) s.mir.marks } }
  s.agentAsk ((gs.map (· / 512)).eraseDups.flatMap fun k =>
    let a := s.reserveLine (0x110000 + 64 * k)
    let ms := gs.filter fun g => g / 512 == k
    [{ addr := a, line := some (s.bitmapLine k), marks := ms }, { addr := a + 2 ^ 23, line := some (s.bitmapLine k), marks := ms }])

/-- Step H4 begins (R446, R449): the marks, then the lines of the pending slots, are entered at Order, each as an agent entry is free for
it. -/
def State.beginReplay (s : State) : State :=
  let slots := s.pendingSlots
  let s := s.fetchHeaders.loadBitmap
  let ovf := slots.any fun q => (lineField q.2 18 2).testBit 15
  let s := match slots with
    | [] => s
    | (_, h) :: _ => { s with gust := { s.gust with
        headOk := lineField h 4 4 == s.vbat.gustSeq.toNat, headDone := (lineField h 20 1).testBit 0, overflow := ovf } }
  let m := slots.foldl (fun (r : State × List Nat) q =>
    let x := r.1.slotMarks q.1 (lineField q.2 18 2 % 2 ^ 15)
    (x.1, r.2 ++ x.2)) (s, [])
  let l := m.1.pendingLines slots
  let s := l.1.putMarks (if ovf then List.range (512 * s.geom.regions) else m.2 ++ l.2.flatMap (·.2))
  let s := { s with gust := { s.gust with rst := 4 }, ord := { s.ord with replayed := 0 } }
  s.agentAsk (l.2.flatMap (·.1))

/-- Step H4 ends (R449): each pending header is invalidated in both copies. -/
def State.endReplay (s : State) : State :=
  foldS s.pendingSlots (fun s q => s.reserveWrite (journalOff q.1) (q.2 &&& ~~~(0xFFFFFFFF : Line))) s

/-! ### H6 (R153, R204, R259, R446, R480) -/

/-- The pair record, as the reserve holds it (R204). -/
def State.loadRecord (s : State) : State :=
  let r := s.fetchReserve 0x310000
  let s := r.1
  match r.2 with
  | some l =>
    if lineField l 0 4 = 0x50524543 then
      let n := l.toNat
      { s with mir := { s.mir with
        epoch := BitVec.ofNat 32 (n >>> 32), recorded := PairState.ofCode (n >>> 64 % 8), recLoaded := true,
        rbRole := BitVec.ofNat 2 (n >>> 67), rbMode := BitVec.ofNat 2 (n >>> 69), rbRegion := n >>> 72 % 2 ^ 18,
        recSeq := BitVec.ofNat 32 (n >>> 96), record := l } }
    else s
  | none => s

/-- A generator begins its first pass (R259). -/
def SubCh.scrubAnew (c : SubCh) (now : Nat) : SubCh := { c with pos := 0, passes := 0, start := now }

/-- The scrub records (R259). A generator whose record has no `MARKER`, or reads from neither copy, begins anew.
DESIGN CHOICE, log entry 33. -/
def State.loadScrub (s : State) : State :=
  foldS s.popSubs (fun s n =>
    let r := s.fetchReserve (0x320000 + 64 * n)
    r.1.onSub n fun c => match r.2 with
      | some l =>
        if lineField l 0 4 = 0x53435255 then
          let x := l.toNat
          { c with pos := x >>> 32 % 2 ^ 35, passes := x >>> 72 % 2 ^ 16, start := x >>> 96 % 2 ^ 64, seq := BitVec.ofNat 32 (x >>> 160) }
        else c.scrubAnew r.1.nowNs
      | none => c.scrubAnew r.1.nowNs) s

/-- The image the store names can be read again and carries its tag (R480). DESIGN CHOICE, log entry 24. -/
def State.storeHolds (s : State) : State × Bool :=
  let k := s.deriveKey true
  let s := k.1
  let slot := s.cfgStore.slot
  let tag := s.storedTag slot
  (s, tag == s.cfgStore.tag && (!s.authNeeded || (k.2 && s.computedTag slot == tag)))

/-- The table from the image, on the way out of `RESTORE`; the hub holds where the image no longer authenticates. -/
def State.imageTable (s : State) (bad : Bool) : State :=
  let h := s.storeHolds
  if h.2 then
    let s := h.1.setTable (tableOf (h.1.slotRuns h.1.cfgStore.slot)) 1 bad
    let s := s.writeShadow
    let s := foldS s.popSubs (fun s n => s.onSub n fun c => c.scrubAnew s.nowNs) s
    let s := s.settleRanks
    { s with gust := { s.gust with rst := 6 } }
  else
    h.1.latchPads.enterHold 7 0x05

/-- Step H6: the report, then the table from the shadow where R153 allows. -/
def State.assess (s : State) : State :=
  let g := s.gust
  let intact := g.headOk && g.headDone && !g.unread
  let s := if intact then s.fixReport 1 (if g.overflow then 2 else 1) g.overflow
    else s.fixReport 3 (if g.headOk then 4 else 3) g.overflow
  let s := s.rereadFault
  if intact then
    let h := s.fetchReserve 0
    let named := match h.2 with
      | some l => s.namesHub l
      | none => false
    let l := if named then State.fetchRun 0x10000 16384 h.1 else (h.1, [Option.none])
    let s := l.1
    match shadowEntries 0 l.2 with
    | some t =>
      let s := ((s.takeShadow t).loadRecord.loadScrub).settleRanks
      { s with gust := { s.gust with rst := 6 } }
    | none => s.imageTable true
  else s.imageTable false

/-- Step H5 (R25, R444, R447): after an early return the feed has to qualify first. -/
def State.tryAssess (s : State) : State :=
  if s.top.state == .restore && s.gust.rst = 5 && s.top.trigger.isNone && !s.flag Fld.PWR_HOLD.EARLY && !s.outranked 7 then s.assess else s

/-- `RESTORE_DRAM_DONE` (R284, R349, R447, R448): without a trained rank the contents are lost. -/
def execRestoreDramDone (s : State) : Host.Outcome State Fault Refusal :=
  .next (
    if s.top.state == .restore && s.top.trigger.isNone && s.gust.rst = 3 && s.trainingOver && !s.outranked 7 then
      let s := s.keepStore.retireFailed false
      if s.popRanks.any fun p => (s.rank p).trained && !s.gone p then s.beginReplay
      else
        let s := ((s.fixReport 2 0xC false).clearValid 0xC).noteClearing
        s.contentsEvent.enterHold 4 0x08
    else s)

/-- `JOURNAL_REPLAY_DONE` (R25, R447 H4, R449): every line has been entered. DESIGN CHOICE, log entry 33. -/
def execJournalReplayDone (s : State) : Host.Outcome State Fault Refusal :=
  .next (
    if s.top.state == .restore && s.top.trigger.isNone && s.gust.rst = 4 && s.ord.agentQ.isEmpty && !s.outranked 7 then
      let s := s.endReplay
      ({ s with gust := { s.gust with rst := 5 } }).tryAssess
    else s)

/-- The links are trained: every port has come to the end of its training, be it that its attempt failed (R23, R64, R447 H7).
DESIGN CHOICE, log entry 33. -/
def State.linksTrained (s : State) : Bool :=
  allPorts.all fun p => (s.link p).lstate != .train && ((s.link p).lstate != .down || decide (0 < (s.link p).attempts))

/-- `RESTORE_COMPLETE` (R23, R153, R447 H7): the links are trained, and no write of the table to its shadow waits any longer. -/
def execRestoreComplete (s : State) : Host.Outcome State Fault Refusal :=
  .next (
    if s.top.state == .restore && s.top.trigger.isNone && s.gust.rst = 6 && s.ord.agentQ.isEmpty && s.linksTrained && !s.outranked 7 then
      ({ s with gust := { s.gust with rst := 0 } }).goTo .join 0x10
    else s)

/-- A feed becomes qualified (R424, R444, R447 H5). -/
def State.qualify (s : State) (f : Feed) : State :=
  if s.flag (qualFld f) then s
  else
    let s := s.setFld (qualFld f) 1
    if s.active == f then (s.setFld Fld.PWR_HOLD.EARLY 0).tryAssess else s

/-- `FEED_QUALIFIED` (R23, R424, R442, R443): the feed is found qualified, newly or still. The policy of `CALM` and the row out of
`AON` test its level. -/
def execFeedQualified (f : Feed) (s : State) : Host.Outcome State Fault Refusal :=
  .next (
    if !s.top.aonOn || !s.feedIn f then s
    else
      let leaves := s.qualLeaves f && !s.outranked 4
      let calm := s.inCalm
      let s := s.qualify f
      if !leaves then s
      else if calm then s.leaveCalm f false
      else s.enterSequence)

end Sys2Proof.Machine
end

