-- ==== Sys2Proof/Machine/Log.lean ====
section
/-!
DEFINITION. The log in the CFG flash (R491, R507 to R510, R512, R525): records, the write point, and what the core queues for it
from saved state (R398, R417, R445, R462).
-/

namespace Sys2Proof.Machine

/-! ### Entries and records as bytes (R501, R507) -/

/-- Byte 2 of a ring entry. -/
def RingEntry.flags (e : RingEntry) : Byte :=
  BitVec.ofNat 8 (bitOf e.summary + 2 * bitOf e.late + 4 * bitOf e.seqLow + 8 * e.tq.toNat + 64 * bitOf e.fullLost)

/-- A ring entry (R501). -/
def RingEntry.bytes (e : RingEntry) : List Byte :=
  leBytes e.code.toNat 2 ++ [e.flags, 0] ++ leBytes e.seq.toNat 4 ++ leBytes e.stamp.toNat 8 ++ leBytes e.epoch.toNat 2 ++
    [0, 0] ++ leBytes e.data.toNat 4 ++ leBytes e.count.toNat 4 ++ [0, 0, 0, 0]

/-- Readings of the VMON inputs, 12 bits each (R507). -/
def packReadings (l : List (BitVec 12)) : Nat := l.foldr (fun x a => x.toNat + 4096 * a) 0

/-- `EXTRA` of a record: the readings of a rail fault, from the copy its code names (R416, R507). -/
def State.extraOf (s : State) (code : BitVec 16) : Nat :=
  let of := fun (r : Option FaultRec) => match r with
    | some r => packReadings r.readings
    | none => 0
  if code = 0xA010 then of s.pwr.record else if code = 0xA011 then of s.vbat.record else 0

/-- The bytes of a log record. -/
def recordBytes (lsn : Word) (e : RingEntry) (extra : Nat) : List Byte :=
  let b := leBytes 0x47524C47 4 ++ leBytes lsn.toNat 4 ++ leBytes e.seq.toNat 4 ++ leBytes e.code.toNat 2 ++ [e.flags, 0] ++
    leBytes e.stamp.toNat 8 ++ leBytes e.epoch.toNat 2 ++ [0, 0] ++ leBytes e.data.toNat 4 ++ leBytes e.count.toNat 4 ++
    leBytes extra 24
  b ++ leBytes (crc32c b).toNat 4

/-- What the core reads of a record. -/
structure LogRec where
  slot  : Nat
  lsn   : Word
  seq   : Word
  code  : BitVec 16
  stamp : Nat
  deriving DecidableEq, Repr

/-! ### The log area (R507) -/

/-- The valid record of a slot, if there is one. -/
def State.logAt (s : State) (slot : Nat) : Option LogRec :=
  let b := s.flashBytes (logAddr slot) 64
  if ofLeBytes (b.take 4) == 0x47524C47 && ofLeBytes (b.drop 60) == (crc32c (b.take 60)).toNat then
    let f := fun (i n : Nat) => ofLeBytes ((b.drop i).take n)
    some { slot := slot, lsn := BitVec.ofNat 32 (f 4 4), seq := BitVec.ofNat 32 (f 8 4), code := BitVec.ofNat 16 (f 12 2), stamp := f 16 8 }
  else Option.none

/-- A slot is a skip mark. -/
def State.skipAt (s : State) (slot : Nat) : Bool := (s.flashBytes (logAddr slot) 64).all (· == 0)

/-- The valid records of a sector, in order. -/
def State.sectorRecs (s : State) (k : Nat) : List LogRec := (List.range 64).filterMap fun i => s.logAt (64 * k + i)

/-- Sectors that hold a byte that is not blank. -/
def State.usedSectors (s : State) : List Nat :=
  ((s.flash.filter fun (p : Nat × Byte) => decide (0x1010000 ≤ p.1)).map fun (p : Nat × Byte) => (p.1 - 0x1010000) / 4096).eraseDups

/-- The log holds a record of the contents-valid flag (R446). -/
def State.flagLogged (s : State) : Bool :=
  s.usedSectors.any fun k => (s.sectorRecs k).any fun r => r.code == 0xA032 || r.code == Config.clearCode

/-! ### The write point (R491, R508) -/

/-- `a` does not come after `b`, modulo 2^32 (R499). -/
def seqLe (a b : Word) : Bool := decide ((b - a).toNat < 2 ^ 31)

/-- What stands in the sector and in the next one agrees with the pointer. DESIGN CHOICE, log entry 14. -/
def State.pointerHolds (s : State) (k : Nat) (lsn : Word) : Bool :=
  let rs := s.sectorRecs k
  (s.logAt (64 * ((k + 1) % logSectors))).isNone &&
    (match rs.head?, rs.getLast? with
      | some a, some b => seqLe a.lsn (lsn + 1) && seqLe lsn b.lsn
      | _, _ => true)

/-- The sector of the highest `LSN` among the first valid records of the sectors. DESIGN CHOICE, log entry 14. -/
def State.scanLog (s : State) : Nat :=
  (s.usedSectors.foldl (fun (best : Option (Nat × Nat)) k =>
    match (s.sectorRecs k).head?, best with
    | some r, some b => if b.2 < r.lsn.toNat then some (k, r.lsn.toNat) else best
    | some r, Option.none => some (k, r.lsn.toNat)
    | Option.none, _ => best) Option.none).elim 0 (·.1)

/-- Rewrite the log pointer (R508). DESIGN CHOICE, log entry 14. -/
def State.keepPointer (s : State) : State :=
  if s.vbat.on then { s with vbat := { s.vbat with logPtr := some (s.log.slot / 64, s.reg Reg.LOG_LSN) } } else s

/-- The write point moves past a slot; a new sector rewrites the pointer and has the sector after the next one erased (R508,
R509). -/
def State.nextSlot (s : State) : State :=
  let s := { s with log := { s.log with slot := (s.log.slot + 1) % logSlots } }
  if s.log.slot % 64 = 0 then s.keepPointer.eraseSector (logAddr (64 * ((s.log.slot / 64 + 2) % logSectors))) else s

/-- The raises of R491. -/
def State.raiseFrom (s : State) (r : LogRec) : State :=
  let dst := r.stamp + 2 ^ 20
  let s := if s.nowNs < dst then { s with time := { s.time with tb := dst <<< 32 } } else s
  if seqLe (r.seq + 1) s.log.nextSeq then s else { s with log := { s.log with nextSeq := r.seq + 1 } }

/-- Find the write point (R508): the record after the newest of its sector. DESIGN CHOICE, log entry 14. -/
def State.openLog (s : State) : State :=
  let held := if s.vbat.on && s.vbat.valid then s.vbat.logPtr else Option.none
  let found := match held with
    | some (k, lsn) => if s.pointerHolds k lsn then some k else Option.none
    | none => Option.none
  let k := found.getD s.scanLog
  let used := (List.range 64).filter fun i => (s.logAt (64 * k + i)).isSome || s.skipAt (64 * k + i)
  let newest := match (s.sectorRecs k).getLast? with
    | some r => some r
    | none => (s.sectorRecs ((k + logSectors - 1) % logSectors)).getLast?
  let s := match newest with
    | some r => (s.setReg Reg.LOG_PTR (BitVec.ofNat 32 (logAddr r.slot))).setReg Reg.LOG_LSN r.lsn
    | none => s
  let s := match newest with
    | some r => if s.log.raised then s else s.raiseFrom r
    | none => s
  let s := { s with log := { s.log with raised := true, ready := true, slot := 64 * k } }
  let s := match used.getLast? with
    | some i => ({ s with log := { s.log with slot := 64 * k + i } }).nextSlot
    | none => s
  if found.isSome then s else s.keepPointer.event 0xD005 k

/-! ### Writing (R502, R509, R510) -/

/-- What writing a record settles: the log writer passes its ring entry, and saved state that it carries is released (R398, R417,
R445). DESIGN CHOICE, log entry 14. -/
def State.settleRecord (s : State) (e : RingEntry) : State :=
  match s.log.late with
  | _ :: rest =>
    let s := { s with log := { s.log with late := rest } }
    if e.code = 0xA010 then { s with pwr := { s.pwr with record := Option.none }, vbat := { s.vbat with record := Option.none } }
    else if e.code = 0xA011 then { s with vbat := { s.vbat with record := Option.none } }
    else if e.code = 0xA015 then { s with vbat := { s.vbat with aonLost := false } }
    else if e.code = Config.clearCode then { s with vbat := { s.vbat with owed := false } }
    else { s with pwr := { s.pwr with late := s.pwr.late.erase (e.code, e.data, e.stamp) } }
  | [] => ({ s with log := { s.log with rdLog := s.log.rdLog + 1 } }).freeRing

/-- Write a record at the write point. -/
def State.putRecord (s : State) (e : RingEntry) : State :=
  let lsn := s.reg Reg.LOG_LSN + 1
  let a := logAddr s.log.slot
  let s := s.program a (recordBytes lsn e (s.extraOf e.code))
  let s := (s.setReg Reg.LOG_PTR (BitVec.ofNat 32 a)).setReg Reg.LOG_LSN lsn
  (s.settleRecord e).nextSlot

/-- Make the slot at the write point a skip mark (R509). DESIGN CHOICE, log entry 14. -/
def State.skipSlot (s : State) : State :=
  let a := logAddr s.log.slot
  let k := s.log.slot / 64
  let s := ((s.program a (List.replicate 64 0)).bump Reg.LOG_SKIPS).event 0xD004 a
  let s := (s.eraseSector (logAddr (64 * ((k + 1) % logSectors)))).eraseSector (logAddr (64 * ((k + 2) % logSectors)))
  s.nextSlot

/-- One page program: up to `n` records into blank slots of one page. A program that does not verify makes every slot it held a
skip mark. -/
def State.pageProgram (ok : Bool) : Nat → State → State
  | 0, s => s
  | n + 1, s =>
    match s.nextRecord with
    | none => s
    | some e =>
      if !s.blank (logAddr s.log.slot) 64 then s.skipSlot
      else
        let s := if ok then s.putRecord e else s.skipSlot
        if s.log.slot % 4 = 0 then s else s.pageProgram ok n

/-- Write every record made from saved state; a slot that is not blank is skipped (R459 C8). -/
def State.writeLate : Nat → State → State
  | 0, s => s
  | n + 1, s =>
    match s.log.late with
    | [] => s
    | e :: _ => State.writeLate n (if s.blank (logAddr s.log.slot) 64 then s.putRecord e else s.skipSlot)

/-- The core writes the log in this state (R510). DESIGN CHOICE, log entry 14. -/
def State.logWrites (s : State) : Bool :=
  s.log.ready && s.top.coreOn && s.top.trigger.isNone &&
    (match s.top.state with
      | .boot | .train | .join | .service | .bootHold | .restore => true
      | _ => false)

/-- `LOG_PROGRAM_DONE` (R502, R507, R509, R510): after a power-loss trigger only the program in progress then ends. -/
def execLogProgramDone (verified : Bool) (s : State) : Host.Outcome State Fault Refusal :=
  .next (
    if s.logWrites then s.pageProgram verified 4
    else if s.top.trigger.isSome then ({ s with log := { s.log with going := 0 } }).pageProgram verified s.mayProgram
    else s)

/-! ### What is owed to the log (R398, R417, R442, R445, R462) -/

/-- Queue a record made from saved state, with the stamp and quality it kept. -/
def State.queueLate (s : State) (code : BitVec 16) (data : Word) (stamp : BitVec 64) (tq : BitVec 3) : State :=
  let e := { s.mkEntry code data 0 with late := true, stamp := stamp, tq := tq }
  let s := s.takeSeq
  { s with log := { s.log with late := s.log.late ++ [e] } }

/-- A record whose stamp was not kept: the stamp is a free value. DESIGN CHOICE, log entry 2. -/
def State.queueFree (s : State) (code : BitVec 16) (data : Word) : State :=
  let a := s.draw
  let b := a.2.draw
  b.2.queueLate code data (Config.freeWord a.1 ++ Config.freeWord b.1) s.quality

/-- `DATA` of events 0xA010 and 0xA011 (R423). -/
def FaultRec.data (r : FaultRec) : Word :=
  BitVec.ofNat 32 (r.first + (r.kind.toNat <<< 4) + (r.state.code <<< 6) + (r.mask.toNat <<< 16))

/-- Queue what earlier starts owe (R459 C2). DESIGN CHOICE, log entries 2, 15 and 24. -/
def State.queueOwed (s : State) : State :=
  let s := { s with log := { s.log with late := [] } }
  let s := match s.pwr.record, s.vbat.record with
    | some r, _ => s.queueLate 0xA010 r.data r.stamp r.tq
    | none, some r => s.queueLate 0xA011 r.data r.stamp r.tq
    | none, none => s
  let s := if s.vbat.aonLost then s.queueFree 0xA015 (BitVec.ofNat 32 s.vbat.lostState.code) else s
  let s := if s.vbat.owed then
      let d := s.draw
      d.2.queueFree Config.clearCode (Config.freeWord d.1)
    else s
  let s := s.pwr.late.foldl (fun s (q : BitVec 16 × Word × BitVec 64) => s.queueLate q.1 q.2.1 q.2.2 s.quality) s
  if s.fuse.owed then
    let s := s.fuse.faults.foldl (fun s w => s.event 0xB004 (w + (Tab.get (fun _ => 0) s.fuse.stable w <<< 8))) s
    { s with fuse := { s.fuse with owed := false } }
  else s

end Sys2Proof.Machine
end

