-- ==== Sys2Proof/Machine/Boot.lean ====
section
/-!
DEFINITION. The boot stages C1 to C8 (R457 to R460, R473 to R480), the contents report of a start through `TRAIN` (R446), core
resets and the watchdog (R458, R460, R512), the boot release check and the fault release (R483, R533), the rollback counter
(R466, R467) and the directory at `JOIN` (R478).
-/

namespace Sys2Proof.Machine

/-! ### Configuration (R19, R258, R480) -/

/-- `ID_VALID` (R16, R19). -/
def State.idValid (s : State) : Bool :=
  decide (s.fld Fld.GLB_HUBID.HUB_ID ≤ 249999) && s.fld Fld.GLB_POOLDOM.POOL_DOMAIN != 0xFFFF

/-- Lines of a rank. -/
def State.linesPerRank (s : State) : Nat := s.geom.regions * 2 ^ 24 / 2 ^ (s.geom.sBits + s.geom.rBits)

/-- `INTERVAL` for a number of hours (R258). Before any rank has trained, every populated one counts; where sub-channels differ, the
one with the most ranks does. DESIGN CHOICE, log entry 24. -/
def State.setScrub (s : State) (hours : Nat) (fresh : Bool) : State :=
  let most := (s.popSubs.map fun n => ((List.range (2 ^ s.geom.rBits)).filter (s.scrubbable n)).length).foldl max 0
  let ranks := if fresh || most = 0 then 2 ^ s.geom.rBits else most
  (s.setFld Fld.SCH_SCRUBCFG.HOURS hours).satF Fld.SCH_SCRUBINT.INTERVAL (hours * 7200000000000 / (s.linesPerRank * ranks * 5))

/-- The configuration store takes the image accepted (R480). -/
def State.writeStore (s : State) (slot : Nat) (im : Image) : State :=
  let cfg := cfgRegs.foldl (fun (t : Tab Word) (p : Nat × RegRow) => Tab.set (fun _ => (0 : Word)) t p.1 (s.reg p.1 &&& p.2.cfg)) []
  let cfg := Tab.set (fun _ => (0 : Word)) cfg Reg.SCH_SCRUBCFG (s.reg Reg.SCH_SCRUBCFG)
  { s with cfgStore := { ok := true, slot := slot, version := im.version, svn := im.svn, tag := im.tag, cfg := cfg } }

/-- The CFG registers, written from the store (R480). -/
def State.loadStore (s : State) : State :=
  let get := fun (a : Nat) => Tab.get (fun _ => (0 : Word)) s.cfgStore.cfg a
  (foldS cfgRegs (fun s p => s.setReg p.1 ((s.reg p.1 &&& ~~~p.2.cfg) ||| (get p.1 &&& p.2.cfg))) s).setReg
    Reg.SCH_SCRUBCFG (get Reg.SCH_SCRUBCFG)

/-- The image in force, as the registers report it (R485, R486). -/
def State.showImage (s : State) (slot : Nat) (version : Word) (svn : Nat) : State :=
  let s := (s.setFld Fld.MGT_BOOTSTAT.SLOT (slot + 1)).setFld Fld.MGT_BOOTSTAT.STORE_OK 1
  (s.setReg Reg.MGT_IMGVER version).setFld Fld.MGT_IMGSTAT.SVN svn

/-! ### The core's reset domain (R458, R460, R512) -/

/-- Registers of the two mailboxes. -/
def mailboxReg (a : Nat) : Bool :=
  a == Reg.MGT_FLCMD || a == Reg.MGT_FLADDR || (decide (0x0B0100 ≤ a) && decide (a < 0x0B0200)) || (decide (0x0B0400 ≤ a) && decide (a < 0x0B0430))

/-- What a reset of the core's domain clears (R458). The uses of key slot 0 go on counting, since they are counted per cold boot
(R476, R489). A release check in progress ends without a verdict, as a refusal. DESIGN CHOICE, log entry 22. -/
def State.resetCore (s : State) : State :=
  let s := { s with regs := s.regs.filter fun (p : Nat × Word) => !mailboxReg p.1 }
  let s := { s with
    boot := { s.boot with
      keys := [], ciph := Option.none, dead := false, flCmd := Option.none, burn := [], burnTry := 0, kicked := s.time.elapsed },
    log := { s.log with late := [], ready := false } }
  s.setFld Fld.MGT_ROLLBACK.BURNING 0

/-- The core runs C1 to C8: in `BOOT`, or at step H2 of `RESTORE`. DESIGN CHOICE, log entry 22. -/
def State.bootRuns (s : State) : Bool :=
  s.top.coreOn && (s.top.state == .boot || (s.top.state == .restore && s.gust.rst == 2 && s.pwr.part == 0))

/-- The log writer runs again where the flash can be used. -/
def State.resumeLog (s : State) : State :=
  match s.boot.flash with
  | .quad | .single => s.openLog
  | _ => s

/-- Refuse a boot release (R483). A selected slot that names a reserved hub ID or domain is a transition of its own, from
`BOOT_HOLD` to `BOOT_HOLD`, which carries no cause code (R23, R26). DESIGN CHOICE, log entry 23. -/
def State.refuseRelease (s : State) (choice reason : Nat) : State :=
  let s := (s.bumpF Fld.MGT_BOOTSTAT.RELREF).event 0xB007 (choice + (reason <<< 4))
  if reason = 0xF ∧ s.top.state = .bootHold then s.goTo .bootHold 0x00 else s

/-- End a release check without a verdict: the reason is a free value, but not 0xF, since no reserved ID was found.
DESIGN CHOICE, log entry 23. -/
def State.dropCheck (s : State) : State :=
  match s.boot.check with
  | some c =>
    let d := s.draw
    let s := { d.2 with boot := { d.2.boot with check := Option.none } }
    let s := (s.setFld Fld.GLB_BOOTREL.BUSY 0).setFld Fld.GLB_BOOTREL.RESULT 2
    s.refuseRelease c ((Config.freeByte d.1).toNat % 15)
  | none => s

/-- The boot ends: `MAP_CAP` shows the regions of `MAP_GEOM` (R167). -/
def State.bootEnds (s : State) : State := s.satF Fld.MAP_CAP.REGIONS s.geom.regions

/-- The core's domain is reset (R458, R460, R480, R512). Where an event of the same core cycle stands higher (R25), the third reset of a
boot starts it again as the others do. DESIGN CHOICE, log entry 22. -/
def State.coreReset (s : State) : State :=
  let s := s.tear
  if !s.top.coreOn then s
  else if s.bootRuns then
    let n := min 3 (s.fld Fld.MGT_BOOTSTAT.CORERST + 1)
    let s := (s.setFld Fld.MGT_BOOTSTAT.CORERST n).event 0xB00A (s.fld Fld.MGT_BOOTSTAT.STAGE + (n <<< 4))
    let s := s.resetCore
    if n = 3 && !s.outranked 7 then (s.bootEnds.enterHold 6 0x05).resumeLog
    else { s with boot := { s.boot with again := true, stage8 := false, hold := 0 } }
  else s.resetCore.dropCheck.resumeLog

/-- `CORE_RESET` (R458, R460). -/
def execCoreReset (s : State) : Host.Outcome State Fault Refusal := .next s.coreReset

/-- `WATCHDOG_EXPIRY` (R512). -/
def execWatchdogExpiry (s : State) : Host.Outcome State Fault Refusal :=
  .next (
    if s.top.coreOn then ((s.bump Reg.LOG_WDT).event 0xD010 s.top.state.code).coreReset else s)

/-! ### C1 to C7 (R459) -/

/-- C2 finds the flash (R468); `SPI_SINGLE` forces single-lane mode. DESIGN CHOICE, log entry 26. -/
def State.findFlash (s : State) (found : FlashFind) : State :=
  let forced := (Tab.get (fun _ => (0 : Word)) s.fuse.word 16).getLsbD 8
  let f : FlashState := match found with
    | .unusable => .unusable
    | .single => .single
    | .quad => if forced then .single else .quad
  let s := { s with boot := { s.boot with flash := f } }
  if f == .single then s.event 0xB009 (bitOf forced) else s

/-- Begin a stage. DESIGN CHOICE, log entry 24. -/
def State.stage (s : State) (n : Nat) : State := s.setFld Fld.MGT_BOOTSTAT.STAGE n

/-- The boot comes to a hold, or to C8. DESIGN CHOICE, log entry 24. -/
def State.stagesEnd (s : State) (hold : Nat) : State :=
  { s with boot := { s.boot with stage8 := true, hold := hold } }

/-- C1 (R457, R459): ROM start, keys, entropy. A new boot counts its core resets afresh. -/
def State.bootC1 (s : State) (entropy : Bool) : State :=
  let again := s.boot.again
  let s := if again then s
    else
      let s := (s.setFld Fld.MGT_BOOTSTAT.CORERST 0).setFld Fld.MGT_BOOTSTAT.PATH (if s.boot.warm then 2 else 1)
      { s with boot := { s.boot with tried := s.boot.tried && s.boot.released } }
  let s := s.resetCore
  let s := if entropy then s else s.setFld Fld.MGT_CIPHCTL.FAIL 1
  ({ s with boot := { s.boot with again := false, warm := true, dead := !entropy } }).stage 1

/-- C7 for an accepted image (R459, R473, R479, R485, R486). -/
def State.acceptImage (s : State) (slot : Nat) (im : Image) (fallback : Bool) : State :=
  let s := (s.applyImage im.entries).writeStore slot im
  let s := (s.showImage slot im.version im.svn).setFlag Fld.MGT_BOOTSTAT.FALLBACK fallback
  let s := s.satF Fld.MGT_IMGSTAT.SKIPPED im.skipped.length
  let s := im.skipped.foldl (fun s i => s.event 0xB003 i) s
  let s := s.event 0xB001 ((slot + 1) + (im.svn <<< 2) + (bitOf fallback <<< 10) + (bitOf im.matched <<< 31))
  ((s.stage 8).stagesEnd (if s.idValid then 0 else 3)).openLog

/-- `CORE_RELEASE` (R459, R464, R468, R476, R477, R480): C1 to C7, over what the core finds. DESIGN CHOICE, log entry 5. -/
def execCoreRelease (found : BootFind) (s : State) : Host.Outcome State Fault Refusal :=
  .next (
    if !s.bootRuns || s.top.trigger.isSome || s.boot.stage8 then s
    else
      let s := s.bootC1 found.entropy
      if s.top.state == .restore && s.cfgStore.ok && !s.boot.released then
        let s := (s.findFlash found.flash).queueOwed
        let s := s.loadStore.showImage s.cfgStore.slot s.cfgStore.version s.cfgStore.svn
        (((s.setFld Fld.MGT_BOOTSTAT.PATH 3).stage 8).stagesEnd 0).resumeLog
      else
        let s := ((s.stage 2).findFlash found.flash).queueOwed
        if s.boot.flash == .unusable then s.stagesEnd 1
        else
          let r := (s.stage 3).selectSlot found s.boot.choice
          match r.2 with
          | .slot n im fallback => r.1.acceptImage n im fallback
          | .none true => ((r.1.stage 4).stagesEnd 5).openLog
          | .none false => ((r.1.stage (if s.boot.choice = 0 then 6 else 5)).stagesEnd 2).openLog)

/-! ### C8 (R23, R445, R446, R459) -/

/-- The contents report of a start through `TRAIN`: report and reason. DESIGN CHOICE, log entry 33. -/
def State.trainReport (s : State) : Nat × Nat :=
  if s.vbat.found then
    (2, if s.vbat.cvalid then 8 else if s.vbat.reason = 0 then 9 else s.vbat.reason.toNat)
  else if s.flagLogged then (2, 0xB)
  else (3, 0xA)

/-- Enter `TRAIN` (R382 K3, R405, R445): the report is fixed, then the flag is cleared with its reason left as recorded. -/
def State.enterTrain (s : State) (bands : List (BitVec 6)) : State :=
  let r := s.trainReport
  let s := (s.setScrub (s.fld Fld.SCH_SCRUBCFG.HOURS) true).goTo .train 0x04
  let s := ({ s with gust := { s.gust with early := false } }).fixReport r.1 r.2 false
  let s := if s.vbat.cvalid || s.flag Fld.PWR_HOLD.CVALID then s.noteClearing else s
  let s := { s with vbat := { s.vbat with cvalid := false, found := true } }
  let s := (s.setFld Fld.PWR_HOLD.CVALID 0).bringUp bands (s.fld Fld.CLK_CFG.BOOT_TSET)
  s.startSection 2

/-- `BOOT_COMPLETE` (R23, R459 C8, R480, R482): the queued records are written, and the boot ends in `TRAIN`, at step H3 or in
`BOOT_HOLD`. DESIGN CHOICE, log entry 24. -/
def execBootComplete (bands : List (BitVec 6)) (s : State) : Host.Outcome State Fault Refusal :=
  .next (
    if !s.bootRuns || s.top.trigger.isSome || !s.boot.stage8 || s.outranked 7 then s
    else
      let s := if s.log.ready then s.writeLate (8 * s.log.late.length + 64) else s
      let s := s.bootEnds
      if s.boot.hold != 0 then s.enterHold s.boot.hold 0x05
      else
        let s := { s with boot := { s.boot with stage8 := false, choice := 0, released := false, tried := false } }
        if s.top.state == .boot then s.enterTrain bands
        else (s.setScrub (s.fld Fld.SCH_SCRUBCFG.HOURS) false).startSection 2)

/-! ### Releases (R23, R415, R483, R533) -/

/-- What a keyed write of `GLB_BOOTREL` does; true tells that it is ignored. DESIGN CHOICE, log entry 23. -/
def State.bootRel (s : State) : State × Bool :=
  let s := s.setFld Fld.GLB_BOOTREL.KEY 0
  let choice := s.fld Fld.GLB_BOOTREL.SLOT
  if s.top.state != .bootHold then (s.setFld Fld.GLB_BOOTREL.RESULT 3, true)
  else if s.boot.check.isSome then
    let d := s.draw
    ((d.2.setFld Fld.GLB_BOOTREL.RESULT 3).refuseRelease choice ((Config.freeByte d.1).toNat % 15), true)
  else if s.top.trigger.isSome then (s, false)
  else if choice = 3 then ((s.setFld Fld.GLB_BOOTREL.RESULT 2).refuseRelease 3 9, false)
  else (({ s with boot := { s.boot with check := some choice, tried := false } }).setFld Fld.GLB_BOOTREL.BUSY 1, false)

/-- What a keyed write of `GLB_FAULTREL` does; true tells that it is ignored. The feed qualifies again.
DESIGN CHOICE, log entry 23. -/
def State.faultRel (s : State) : State × Bool :=
  let s := s.setFld Fld.GLB_FAULTREL.KEY 0
  if s.top.state == .faultOff && (s.feedStays .a || s.feedStays .b) then
    let s := (s.setFld Fld.GLB_FAULTREL.RESULT 1).event 0x0005 1
    let s := (s.setFld Fld.PWR_FEEDSTAT.QUAL_A 0).setFld Fld.PWR_FEEDSTAT.QUAL_B 0
    (s.goTo .aon 0x12, false)
  else (s.setFld Fld.GLB_FAULTREL.RESULT 3, true)

/-- The reason slot `n` was last rejected. -/
def State.rejOf (s : State) (n : Nat) : Nat :=
  s.fld (if n = 0 then Fld.MGT_IMGSTAT.REJ_A else Fld.MGT_IMGSTAT.REJ_B)

/-- The verdict of a check: the slot found, or a reason (R483). DESIGN CHOICE, log entry 23. -/
def State.judgeRelease (s : State) (found : BootFind) (choice : Nat) : State × Sum Nat Nat :=
  if found.flash == .unusable then (s, .inr 0xA)
  else
    let order := slotOrder choice (s.directory.map (·.2))
    let r := s.selectSlot found choice
    match r.2 with
    | .slot n im _ => (r.1, if (r.1.applyImage im.entries).idValid then .inl n else .inr 0xF)
    | .none true => (r.1, .inr 5)
    | .none false => (r.1, .inr (r.1.rejOf (order.getLastD 0)))

/-- `BOOT_RELEASE_CHECKED` (R23, R483): with the ranks held in self-refresh the hub enters `RESTORE`.
DESIGN CHOICE, log entry 23. -/
def execBootReleaseChecked (found : BootFind) (s : State) : Host.Outcome State Fault Refusal :=
  .next (
    match s.boot.check with
    | none => s
    | some choice =>
      if s.top.state != .bootHold || s.top.trigger.isSome || s.outranked 7 then s
      else
        let s := ({ s with boot := { s.boot with check := Option.none } }).setFld Fld.GLB_BOOTREL.BUSY 0
        let r := s.judgeRelease found choice
        match r.2 with
        | .inr reason => (r.1.setFld Fld.GLB_BOOTREL.RESULT 2).refuseRelease choice reason
        | .inl slot =>
          let s := (r.1.setFld Fld.GLB_BOOTREL.RESULT 1).event 0x0005 (choice <<< 1)
          let s := { s with boot := { s.boot with choice := slot + 1, released := true, again := false, stage8 := false, hold := 0 } }
          let s := s.setFld Fld.MGT_BOOTSTAT.HOLD_CAUSE 0
          if s.pwr.latch then
            let s := { s with
              gust := { s.gust with rst := 2, headOk := false, headDone := false, overflow := false, unread := false },
              ord := { s.ord with replayed := 0 } }
            (s.goTo .restore 0x06).setReg Reg.PWR_CONTENTS 0
          else (s.goTo .boot 0x06).setFld Fld.MAP_CAP.REGIONS 0)

/-! ### The rollback counter (R466, R467, R484) -/

/-- The counter words for a value: bits 0 to n − 1 set. -/
def rollbackWords (n : Nat) : List Nat := (List.range 4).map fun i => (2 ^ n - 1) / 2 ^ (32 * i) % 2 ^ 32

/-- The copies to program, copy by copy: physical word and bits. -/
def State.burnList (s : State) (n : Nat) : List (Nat × Nat) :=
  let ws := (List.range 4).filterMap fun i =>
    let v := (rollbackWords n).getD i 0
    if ((s.resolveWord (12 + i)).getD 0).toNat = v then Option.none else some (12 + i, v)
  [0, 1, 2].flatMap fun c => ws.map fun w => (85 * c + w.1, w.2)

/-- Program bits of a physical word; where the copy does not verify, which of them read as set at either reference is free.
DESIGN CHOICE, log entry 27. -/
def State.burnWord (s : State) (w v : Nat) (ok : Bool) : State :=
  let get := fun (t : Tab Word) => Tab.get (fun _ => (0 : Word)) t w
  let put := fun (t : Tab Word) (x : Word) => Tab.set (fun _ => (0 : Word)) t w x
  let a := s.draw
  let b := a.2.draw
  let m := fun (k : Nat) => if ok then BitVec.ofNat 32 v else BitVec.ofNat 32 v &&& Config.freeWord k
  let s := if ok then s else b.2
  { s with fuse := { s.fuse with
    normal := put s.fuse.normal (get s.fuse.normal ||| m a.1), tight := put s.fuse.tight (get s.fuse.tight ||| m b.1) } }

/-- The value of a counter word without the copy that failed (R462, R467). DESIGN CHOICE, log entry 27. -/
def State.wordWithout (s : State) (w bad : Nat) : Word :=
  let v := ([0, 1, 2].filter (· != bad)).map fun c => s.stableCopy w c
  match v with
  | [some a, some b] => if a == b then a else 0
  | _ => 0

/-- The advance stops at a copy that has failed twice. DESIGN CHOICE, log entry 27. -/
def State.stopBurn (s : State) (phys : Nat) : State :=
  let n := rollbackOf ((List.range 4).map fun i =>
    if phys % 85 = 12 + i then s.wordWithout (12 + i) (phys / 85) else (s.resolveWord (12 + i)).getD 0)
  let s := { s with boot := { s.boot with burn := [], burnTry := 0 } }
  ((s.setFld Fld.MGT_ROLLBACK.PENDING n).setFld Fld.MGT_ROLLBACK.BURNING 0).event 0xB005 (n + 256)

/-- The conditions of R466. -/
def State.mayAdvance (s : State) : Bool :=
  let slot := s.fld Fld.MGT_BOOTSTAT.SLOT
  let delay := s.fld Fld.MGT_RBDELAY.MINUTES
  let good := match s.directory with
    | some (_, d) => slot != 0 && d.stateOf (slot - 1) == 2
    | none => false
  decide (s.fld Fld.MGT_ROLLBACK.PENDING < s.fld Fld.MGT_IMGSTAT.SVN) && good && s.top.state == .service && delay != 0 &&
    decide (s.boot.service + delay * 480000000000 ≤ s.time.elapsed)

/-- `ROLLBACK_ADVANCE` (R466, R467, R484): each command programs one copy of one word and tells whether it verifies. After a
power-loss trigger no further bit starts. -/
def execRollbackAdvance (verified : Bool) (s : State) : Host.Outcome State Fault Refusal :=
  .next (
    if s.top.trigger.isSome then
      ({ s with boot := { s.boot with burn := [], burnTry := 0 } }).setFld Fld.MGT_ROLLBACK.BURNING 0
    else
      let n := s.fld Fld.MGT_IMGSTAT.SVN
      let todo := if s.boot.burn.isEmpty && s.mayAdvance then s.burnList n else s.boot.burn
      match todo with
      | [] => s
      | (w, v) :: rest =>
        let s := (s.setFld Fld.MGT_ROLLBACK.BURNING 1).burnWord w v verified
        if verified then
          let s := { s with boot := { s.boot with burn := rest, burnTry := 0 } }
          if rest.isEmpty then
            ((s.setFld Fld.MGT_ROLLBACK.PENDING n).setFld Fld.MGT_ROLLBACK.BURNING 0).event 0xB005 n
          else s
        else if s.boot.burnTry = 0 then { s with boot := { s.boot with burn := todo, burnTry := 1 } }
        else s.stopBurn w)

/-! ### The directory at `JOIN` (R478) -/

/-- `DIRECTORY_MARK_GOOD` (R470, R478). -/
def execDirectoryMarkGood (s : State) : Host.Outcome State Fault Refusal :=
  .next (
    let slot := s.fld Fld.MGT_BOOTSTAT.SLOT
    if s.top.state == .join && s.top.trigger.isNone && slot != 0 then
      match s.directory with
      | some (_, d) =>
        let n := slot - 1
        if d.stateOf n = 1 then
          (s.appendDir { d with state := [if n = 0 then 2 else d.stateOf 0, if n = 1 then 2 else d.stateOf 1], tries := 0 }).tidyDir
        else s
      | none => s
    else s)

end Sys2Proof.Machine
end

