-- ==== Sys2Proof/Machine/TimeLog.lean ====
section
/-!
DEFINITION. The timebase and its discipline (R490 to R498), event capture and Squall windows (R499 to R506), the sideband's bus
layer (R513 to R515), the core's watchdog kick (R512) and the thermal events (R557).
-/

namespace Sys2Proof.Machine

/-! ### Ticks (R490, R491, R498) -/

/-- The rate adjustment in force, in 0.01 ppm: no slew in holdover, and no frequency estimate on the AON oscillator. -/
def State.rate (s : State) : Int :=
  (if s.mgTicks then s.time.f else 0) + (if s.time.holdover then 0 else s.time.slew)

/-- One tick of the timebase: 2.5 ns of MGCLK or 100 ns of the AON oscillator, times 1 + r. DESIGN CHOICE, log entry 12. -/
def State.tickTime (s : State) : State :=
  let nominal : Int := if s.mgTicks then 10737418240 else 429496729600
  { s with time := { s.time with tb := s.time.tb + (nominal * (100000000 + s.rate) / 100000000).toNat } }

/-- `TIMEBASE_BIT_20_CHANGE` (R491): bits [63:20] go to the VBAT register file. -/
def execTimebaseBit20Change (s : State) : Host.Outcome State Fault Refusal :=
  .next (if s.top.aonOn && s.vbat.on then { s with vbat := { s.vbat with tbHigh := s.time.tb >>> 52 } } else s)

/-! ### Beacons (R493 to R498) -/

/-- A second, in ns. -/
def secNs : Nat := 1000000000

/-- `BEACON_TMO` in ns. -/
def State.beaconTmo (s : State) : Nat := s.fld Fld.TIM_CFG.BEACON_TMO * secNs

/-- The port has delivered an applicable beacon within `BEACON_TMO`. -/
def State.beaconFresh (s : State) (p : Port) : Bool :=
  let t := Tab.get (fun _ => 0) s.time.portSeen p.idx
  t != 0 && decide (s.nowNs + 1 ≤ t + s.beaconTmo)

/-- The time port (R493). DESIGN CHOICE, log entry 12. -/
def State.timePort (s : State) : Option Port :=
  let ps := uPorts.filter fun p => (s.fld Fld.TIM_CFG.PORTMASK).testBit p.idx && (s.link p).lstate == .service
  match ps.find? s.beaconFresh with
  | some p => some p
  | none => ps.head?

/-- Report the time port; a change is logged (R493, R521). -/
def State.notePort (s : State) : State :=
  let n := s.timePort.elim 7 Port.idx
  if s.fld Fld.TIM_STAT.SRC = n then s else (s.setFld Fld.TIM_STAT.SRC n).event 0xC005 n

def clampInt (lo hi x : Int) : Int := max lo (min hi x)

/-- A word holding a number, saturated at ±(2^31 − 1). -/
def satWord (e : Int) : Word := BitVec.ofInt 32 (clampInt (-2147483647) 2147483647 e)

/-- The frequency estimate after a beacon (R495). Where the beacon carries the time of the one before, the manual's quotient has no
value: the estimate is a free value within its limits. DESIGN CHOICE, log entry 12. -/
def State.newF (s : State) (e : Int) (dt : Int) : State × Int :=
  if dt = 0 then
    let d := s.draw
    (d.2, clampInt (-10000) 10000 ((Config.freeNat d.1 : Int) - 10000))
  else
    let resid := -(e - s.time.ePrev) * 100000000 / dt - s.time.slew
    (s, clampInt (-10000) 10000 (s.time.f - resid / 8))

/-- Holdover has ended: its length, in s (R498). -/
def State.holdoverLength (s : State) : Option Nat :=
  if s.time.holdover then some ((s.nowNs - (s.time.lastApplied + s.beaconTmo)) / secNs) else Option.none

/-- Apply a beacon that is compared with the timebase `m` (R495, R496). DESIGN CHOICE, log entry 12. -/
def State.applyBeacon (s : State) (t : Nat) (m : Nat) (paired : Bool) : State :=
  let e : Int := (t : Int) - ((m : Int) + s.time.offset.toInt)
  let dt : Int := (t : Int) - (s.time.lastTime : Int)
  let upd := s.time.prevApplied && !s.time.holdover && decide (dt ≤ 2 * (s.beaconTmo : Int))
  let r := if upd then s.newF e dt else (s, s.time.f)
  let s := { r.1 with time := { r.1.time with f := r.2 } }
  let long := s.holdoverLength
  let s := { s with time := { s.time with holdover := false, ePrev := e, prevApplied := true, lastTime := t, lastPaired := paired } }
  let s := (s.bump Reg.TIM_BEACONS).setReg Reg.TIM_LASTERR (satWord e)
  let s :=
    if e > 1000000 then
      let s := { s with time := { s.time with tb := s.time.tb + (e.toNat <<< 32), slew := 0 } }
      (s.bump Reg.TIM_STEPS).event 0xC001 (min 0xFFFFFFFF (e.toNat / 1000))
    else
      let s := { s with time := { s.time with slew := clampInt (-20000) 20000 (e / 10) } }
      if e < -1000000000 then s.event 0xC007 (min 0xFFFFFFFF ((-e).toNat / 1000000)) else s
  let s := match long with
    | some n => s.event 0xC003 (min 0xFFFFFFFF n)
    | none => s
  { s with time := { s.time with lastApplied := s.nowNs } }

/-- `TIME_BEACON` (R92, R95, R493 to R498). -/
def execTimeBeacon (p : Port) (sync : Bool) (offsetEpoch : BitVec 16) (timeNs : BitVec 64) (s : State) :
    Host.Outcome State Fault Refusal :=
  .next (
    if p.isT || (s.link p).lstate != .service then s
    else if offsetEpoch.toNat != s.fld Fld.TIM_STAT.OFFSET_EPOCH then s.bump Reg.TIM_BEACONIGN
    else
      let s := { s with time := { s.time with portSeen := Tab.set (fun _ => 0) s.time.portSeen p.idx (s.nowNs + 1) } }
      let s := s.notePort
      if s.timePort != some p then s.bump Reg.TIM_BEACONIGN
      else if sync then
        match s.time.syncFree.find? fun t => decide (s.nowNs ≤ t + 1100000000) with
        | some t => ({ s with time := { s.time with syncFree := s.time.syncFree.erase t } }).applyBeacon timeNs.toNat t true
        | none => s.bump Reg.TIM_BEACONIGN
      else s.applyBeacon timeNs.toNat (s.nowNs - 6) false)

/-- `HOLDOVER_START` (R498). -/
def execHoldoverStart (s : State) : Host.Outcome State Fault Refusal :=
  .next (
    if s.top.aonOn && s.time.prevApplied && !s.time.holdover then
      let s := { s with time := { s.time with holdover := true, slew := 0 } }
      s.notePort.event 0xC002 s.quality.toNat
    else s)

/-- `SYNC_IN_EDGE` (R494, R523): an edge less than 0.5 s after the last accepted one is a glitch. -/
def execSyncInEdge (s : State) : Host.Outcome State Fault Refusal :=
  .next (
    if !s.top.aonOn || !s.flag Fld.TIM_CFG.SYNC_EN then s
    else if s.time.syncEdge.any fun t => decide (s.nowNs < t + 500000000) then s
    else ({ s with time := { s.time with syncEdge := some s.nowNs, syncFree := (s.nowNs :: s.time.syncFree).take 3 } }).bump Reg.TIM_SYNCEDGES)

/-! ### Capture and Squall (R499 to R506) -/

/-- `EVENT_CAPTURE` (R499 to R506). -/
def execEventCapture (code : BitVec 16) (data : Word) (s : State) : Host.Outcome State Fault Refusal :=
  .next (s.capture code data)

/-- Write the summaries that find a general entry free; the others keep their counts (R505, R506). -/
def State.summarise (s : State) : State :=
  s.log.table.foldl (fun s c =>
    if s.log.ring.length < 1008 then s.pushEntry { c.last with summary := true, count := BitVec.ofNat 32 c.count, fullLost := c.fullLost }
    else { s with log := { s.log with table := s.log.table ++ [c] } })
    { s with log := { s.log with table := [], seen := [], windows := s.log.windows + 1 } }

/-- `SQUALL_WINDOW_END` (R504 to R506). -/
def execSquallWindowEnd (s : State) : Host.Outcome State Fault Refusal :=
  .next (
    if !s.log.squall then s
    else
      let s := (s.freeRing.summarise.cutFar).freeRing.raiseIbi
      if s.log.ring.length ≤ 256 then
        let data := min 0xFFFF s.log.windows + (min 0xFFFF s.log.overflow <<< 16)
        let s := s.event 0xD002 data
        { s with log := { s.log with overflow := 0, windows := 0, seen := [] } }
      else s)

/-! ### The watchdog's kick (R512, R525) -/

/-- Restart the watchdog. -/
def State.kick (s : State) : State := { s with boot := { s.boot with kicked := s.time.elapsed } }

/-! ### Thermal events (R557) -/

/-- `SENSOR_OVERTEMP`: the reading is in whole °C, 0 to 255. A sensor with `SENSOR_BAD` takes no part.
DESIGN CHOICE, log entry 13. -/
def execSensorOvertemp (sensor : Fin 8) (reading : Byte) (s : State) : Host.Outcome State Fault Refusal :=
  .next (
    if s.top.coreOn && decide (150 < reading.toNat) && !s.flag (Fld.CAL_TEMP.SENSOR_BAD (2 * sensor.val)) then
      s.event 0x0008 (sensor.val + (reading.toNat <<< 8))
    else s)

/-- `SENSOR_COOL`. DESIGN CHOICE, log entry 13. -/
def execSensorCool (s : State) : Host.Outcome State Fault Refusal :=
  .next (if s.top.coreOn then s.event 0x0009 0 else s)

/-! ### The sideband's bus layer (R513 to R515) -/

/-- The interface as a reset leaves it; the straps stay, and so do the core's accesses at the register arbiter. -/
def SbSt.fresh (b : SbSt) : SbSt := { smbus := b.smbus, sbaddr := b.sbaddr, arb := b.arb.filter fun q => q.path != .sideband }

/-- The hub answers as an I3C target (R8, R513). -/
def State.i3cOn (s : State) : Bool := s.top.aonOn && !s.sb.smbus

def State.setDyn (s : State) (da : Option (BitVec 7)) : State := { s with sb := { s.sb with dynAddr := da } }

/-- A directed CCC returns bytes to the controller that addresses the hub. PRESUMED, log entry 17. -/
def State.cccGives (s : State) (l : List Byte) : State :=
  if s.i3cOn && s.sb.dynAddr.isSome then { s with sb := { s.sb with cccOut := l } } else s

/-- The provisional ID, most significant byte first (R514). -/
def State.pid (s : State) : List Byte :=
  let die := (s.reg Reg.MGT_DIEID_LO).toNat % 4096
  (leBytes ((0x2C41 <<< 33) + (0x9420 <<< 16) + (s.sb.sbaddr.toNat <<< 12) + die) 6).reverse

/-- `CCC_ENTDAA`: a target without a dynamic address takes one. -/
def execCccEntdaa (da : BitVec 7) (s : State) : Host.Outcome State Fault Refusal :=
  .next (if s.i3cOn && s.sb.dynAddr.isNone then (s.setDyn (some da)).raiseIbi else s)

/-- `CCC_SETDASA`: the dynamic address for the static one. -/
def execCccSetdasa (da : BitVec 7) (s : State) : Host.Outcome State Fault Refusal :=
  .next (if s.i3cOn && s.sb.dynAddr.isNone then (s.setDyn (some da)).raiseIbi else s)

/-- `CCC_SETNEWDA`: another dynamic address. -/
def execCccSetnewda (da : BitVec 7) (s : State) : Host.Outcome State Fault Refusal :=
  .next (if s.i3cOn && s.sb.dynAddr.isSome then s.setDyn (some da) else s)

/-- `CCC_RSTDAA`: the dynamic address is gone. -/
def execCccRstdaa (s : State) : Host.Outcome State Fault Refusal := .next (if s.i3cOn then s.setDyn Option.none else s)

/-- `CCC_ENEC`: the IBI is enabled. -/
def execCccEnec (s : State) : Host.Outcome State Fault Refusal :=
  .next (if s.i3cOn then ({ s with sb := { s.sb with ibiOn := true } }).raiseIbi else s)

/-- `CCC_DISEC`: the IBI is disabled. -/
def execCccDisec (s : State) : Host.Outcome State Fault Refusal :=
  .next (if s.i3cOn then { s with sb := { s.sb with ibiOn := false } } else s)

/-- `CCC_GETPID`. -/
def execCccGetpid (s : State) : Host.Outcome State Fault Refusal := .next (s.cccGives s.pid)

/-- `CCC_GETBCR`. -/
def execCccGetbcr (s : State) : Host.Outcome State Fault Refusal := .next (s.cccGives [0x0E])

/-- `CCC_GETDCR`. -/
def execCccGetdcr (s : State) : Host.Outcome State Fault Refusal := .next (s.cccGives [0x00])

/-- `CCC_GETSTATUS`: the manual gives the two bytes no layout, so they are free values. PRESUMED, log entry 17. -/
def execCccGetstatus (s : State) : Host.Outcome State Fault Refusal :=
  .next (
    let a := s.draw
    let b := a.2.draw
    b.2.cccGives [Config.freeByte a.1, Config.freeByte b.1])

/-- A length, most significant byte first. PRESUMED, log entry 17. -/
def lengthBytes (n : BitVec 16) : List Byte := (leBytes n.toNat 2).reverse

/-- `CCC_GETMWL`. -/
def execCccGetmwl (s : State) : Host.Outcome State Fault Refusal := .next (s.cccGives (lengthBytes s.sb.mwl))

/-- `CCC_GETMRL`: the length, and the one IBI data byte. PRESUMED, log entry 17. -/
def execCccGetmrl (s : State) : Host.Outcome State Fault Refusal := .next (s.cccGives (lengthBytes s.sb.mrl ++ [1]))

/-- `CCC_SETMWL`: at most 64 bytes. PRESUMED, log entry 17. -/
def execCccSetmwl (len : BitVec 16) (s : State) : Host.Outcome State Fault Refusal :=
  .next (if s.i3cOn then { s with sb := { s.sb with mwl := BitVec.ofNat 16 (min 64 len.toNat) } } else s)

/-- `CCC_SETMRL`: at most 65 bytes. PRESUMED, log entry 17. -/
def execCccSetmrl (len : BitVec 16) (s : State) : Host.Outcome State Fault Refusal :=
  .next (if s.i3cOn then { s with sb := { s.sb with mrl := BitVec.ofNat 16 (min 65 len.toNat) } } else s)

/-- `CCC_RSTACT`: "no reset" and "reset peripheral" only; the latter resets the sideband interface and no other logic.
PRESUMED, log entry 17. -/
def execCccRstact (action : Byte) (s : State) : Host.Outcome State Fault Refusal :=
  .next (if s.i3cOn && action == 1 then { s with sb := s.sb.fresh } else s)

/-- `SMBUS_TIMEOUT` (R515): a bus held low for more than 25 ms resets the interface. -/
def execSmbusTimeout (s : State) : Host.Outcome State Fault Refusal :=
  .next (if s.top.aonOn && s.sb.smbus then { s with sb := s.sb.fresh } else s)

end Sys2Proof.Machine
end

