-- ==== Sys2Proof/Machine/Flags.lean ====
section
/-!
DEFINITION. The register view: what a register reads as. Every register has its stored word; the status fields named here are
computed from the state they report, each by the rule of its field table.
-/

namespace Sys2Proof.Machine

/-- A word with a field put in, saturating. -/
def fput (w : Word) (f : Fld) (v : Nat) : Word := fieldPut w f.hi f.lo (min f.max v)

/-- A flag put in. -/
def fputB (w : Word) (f : Fld) (b : Bool) : Word := fput w f (bitOf b)

/-- The witness's controller answers on the port (R11, R535). -/
def State.witnessOn (s : State) (p : Port) : Bool :=
  (s.link p).lstate == .service && s.witnessPort p

/-- A bit for each port in `SERVICE` (R531). -/
def State.linkUp (s : State) : Nat := maskOf ((allPorts.filter fun p => (s.link p).lstate == .service).map Port.idx)

/-- Block GLB (R19, R26, R531). -/
def State.viewGlb (s : State) (a : Nat) (w : Word) : Word :=
  if a = Reg.GLB_STATE then BitVec.ofNat 32 (s.top.state.code + (s.top.prev.code <<< 4) + (s.top.cause.toNat <<< 8))
  else if a = Reg.GLB_HUBID then fputB w Fld.GLB_HUBID.ID_VALID s.idValid
  else if a = Reg.GLB_CONTENTS then s.reg Reg.PWR_CONTENTS
  else if a = Reg.GLB_SUMMARY then
    let w := (fput 0 Fld.GLB_SUMMARY.PSTATE s.pairState.code)
    let w := fputB (fputB (fputB w Fld.GLB_SUMMARY.CAUSE s.causeStands) Fld.GLB_SUMMARY.HOLD_READY s.holdup) Fld.GLB_SUMMARY.CVALID (s.flag Fld.PWR_HOLD.CVALID)
    fput (fput w Fld.GLB_SUMMARY.LINKUP s.linkUp) Fld.GLB_SUMMARY.STATE s.top.state.code
  else w

/-- A port of block LNK. -/
def portOf (n : Nat) : Port := if n = 4 then .t else Port.ofU n

/-- Block LNK (R70, R71, R118). -/
def State.viewLnk (s : State) (a : Nat) (w : Word) : Word :=
  let n := (a - 0x010000) / 0x1000
  let l := s.link (portOf n)
  if a % 0x1000 = 0 then
    let w := fput w (Fld.LNK_STATUS.LSTATE n) l.lstate.code
    fputB (fputB w (Fld.LNK_STATUS.PLN_ACTIVE n) l.plnWaiting) (Fld.LNK_STATUS.REFMODE n) (s.flag (Fld.LNK_CFG.REFMODE n))
  else if a % 0x1000 = 0x030 then
    if l.up then w else fput (fput w (Fld.LNK_NEG.LINK_REV n) 0) (Fld.LNK_NEG.MIR_REV n) 0
  else w

/-- The first word of the selected stream record (R140). -/
def State.strRec0 (s : State) : Word :=
  let r := s.stream (s.fld Fld.ORD_STRSEL.STREAM)
  let waits := match s.entry r.head with
    | some e => decide (0 < r.len) && e.kind == .flush && decide (s.ord.front < e.mark)
    | none => false
  fputB (fput (fput 0 Fld.ORD_STRREC0.LEN r.len) Fld.ORD_STRREC0.HEAD r.head) Fld.ORD_STRREC0.FLUSH_HEAD waits

/-- Block ORD (R37, R140, R141, R143). -/
def State.viewOrd (s : State) (a : Nat) (w : Word) : Word :=
  if a = Reg.ORD_POOLOCC then fput w Fld.ORD_POOLOCC.OCC s.poolOcc
  else if a = Reg.ORD_WBOCC then fput w Fld.ORD_WBOCC.OCC s.wbOcc
  else if a = Reg.ORD_RBOCC then fput w Fld.ORD_RBOCC.OCC s.ord.retRes
  else if a = Reg.ORD_ACTSTR then fput w Fld.ORD_ACTSTR.ACTIVE (s.ord.streams.filter fun (q : Nat × StreamRec) => q.2.len != 0).length
  else if a = Reg.ORD_STRREC0 then s.strRec0
  else if a = Reg.ORD_FRONT_LO then BitVec.ofNat 32 s.ord.front
  else w

/-- Block MAP: the region table window (R146, R168). -/
def State.viewMap (s : State) (a : Nat) (w : Word) : Word :=
  if 0x038000 ≤ a then s.rtLook (s.fld Fld.MAP_RTPAGE.PAGE * 8192 + (a - 0x038000) / 4) else w

/-- Pending-ack entries that are open. -/
def State.pendOpen (s : State) : List PendEntry := s.mir.pend.filterMap fun (q : Nat × Option PendEntry) => q.2

/-- Block MIR (R198, R200, R233, R235, R535). -/
def State.viewMir (s : State) (a : Nat) (w : Word) : Word :=
  if a = Reg.MIR_PAIR then
    let w := fputB (fputB w Fld.MIR_PAIR.CAUSE s.causeStands) Fld.MIR_PAIR.HOLD s.mir.soloGrant
    fput (fput w Fld.MIR_PAIR.RECORDED s.mir.recorded.code) Fld.MIR_PAIR.PSTATE s.pairState.code
  else if a = Reg.MIR_EPOCH then s.mir.epoch
  else if a = Reg.MIR_DIVCNT then fput w Fld.MIR_DIVCNT.MARKED s.mir.marks.length
  else if a = Reg.MIR_WITNESS then fputB w Fld.MIR_WITNESS.LINKED (uPorts.any s.witnessOn)
  else if a = Reg.MIR_RBSTAT then
    let w := fput (fput w Fld.MIR_RBSTAT.MODE s.mir.rbMode.toNat) Fld.MIR_RBSTAT.ROLE s.mir.rbRole.toNat
    fput (fput w Fld.MIR_RBSTAT.SHARE s.mir.share) Fld.MIR_RBSTAT.REGION s.mir.rbRegion
  else if a = Reg.MIR_PENDOCC then fput w Fld.MIR_PENDOCC.OCC s.pendOpen.length
  else if a = Reg.MIR_PENDSTAT then
    fput (fput w Fld.MIR_PENDSTAT.BACKLOG s.ord.backlog.length) Fld.MIR_PENDSTAT.UNRESOLVED
      (s.pendOpen.filter fun e => e.state == .unresolved).length
  else if a = Reg.MIR_HOSTAT then fput w Fld.MIR_HOSTAT.ACTIVE s.mir.handovers.length
  else w

/-- The highest debt counter of a sub-channel, counters below 0 read as 0 (R264). -/
def SubCh.maxDebt (c : SubCh) : Nat := c.debt.foldl (fun m (q : Nat × Int) => max m q.2.toNat) 0

/-- Block SCH (R238, R263, R264). -/
def State.viewSch (s : State) (a : Nat) (w : Word) : Word :=
  let n := (a - 0x050000) / 0x400
  if 0x054000 ≤ a then w
  else
    let c := s.sub n
    match a % 0x400 with
    | 0x000 =>
      let w := fput w (Fld.SCH_STAT.ACTBANKS n) ((c.store.map fun e => bankOf e.loc).eraseDups).length
      let w := fput (fput w (Fld.SCH_STAT.SREF n) (maskOf c.sref.eraseDups)) (Fld.SCH_STAT.PD n) (maskOf c.pd.eraseDups)
      fputB (fputB (fputB w (Fld.SCH_STAT.HELD n) (s.holds n)) (Fld.SCH_STAT.SCRUB_BEHIND n) c.behind) (Fld.SCH_STAT.DIR n) c.write
    | 0x004 => fput w (Fld.SCH_STOREOCC.OCC n) c.store.length
    | 0x008 => fput w (Fld.SCH_REFSTAT.MAXDEBT n) c.maxDebt
    | 0x030 => fput w (Fld.SCH_SCRUBPOS.POSITION n) (c.pos / 1024)
    | 0x034 => fput w (Fld.SCH_SCRUBPASS.PASSES n) c.passes
    | _ => w

/-- The figures of the bit that `DPH_EYESEL` selects: `DPH_EYEA` and `DPH_EYEB` (R291). -/
def State.eye (s : State) (n : Nat) : Word × Word :=
  let p := 2 * n + s.fld (Fld.DPH_EYESEL.RANK n)
  let k := s.fld (Fld.DPH_EYESEL.NIBBLE n)
  if k > 9 || !(s.rank p).trained then (0, 0)
  else
    let r := s.figures p
    let b := 0x90 + 16 * (4 * k + s.fld (Fld.DPH_EYESEL.BIT n))
    let at' := fun (i : Nat) => (r.getD i 0).toNat
    let put := fun (d v wd h : Nat) => BitVec.ofNat 32 ((d <<< 24) + ((v % 128) <<< 16) + (wd <<< 8) + h)
    if s.fld (Fld.DPH_EYESEL.SIDE n) = 0 then (put (at' b) (at' (b + 1)) (at' (b + 4)) (at' (b + 5)), BitVec.ofNat 32 (at' (b + 6)))
    else (put (at' (b + 3)) (at' (0x45 + 8 * k)) (at' (b + 7)) (at' (0x46 + 8 * k)), BitVec.ofNat 32 (at' (b + 8)))

/-- Block DPH (R282, R291). -/
def State.viewDph (s : State) (a : Nat) (w : Word) : Word :=
  let n := (a - 0x060000) / 0x1000
  match a % 0x1000 with
  | 0x014 => (s.eye n).1
  | 0x018 => Tab.get (fun _ => 0) s.cal.eyeB n
  | 0xF04 => if n = 0 then fputB w Fld.DPH_RETSTAT.VALID s.cal.valid else w
  | _ => w

/-- Ranks, by number, that meet a condition, as a mask. -/
def rankMask (f : Nat → Bool) : Word := BitVec.ofNat 32 (maskOf ((List.range 32).filter f))

/-- Block CAL (R308, R314, R317). -/
def State.viewCal (s : State) (a : Nat) (w : Word) : Word :=
  if a = Reg.CAL_STAT then
    let due := (List.range 16).filter fun n => s.cal.due.contains n || s.cal.pend.contains n
    let busy := (List.range 16).filter fun n => (s.run (2 * n)).isSome || (s.run (2 * n + 1)).isSome
    fput (fput w Fld.CAL_STAT.PENDING (maskOf due)) Fld.CAL_STAT.BUSY (maskOf busy)
  else if a = Reg.CAL_STALE then rankMask fun p => (List.range 10).any fun k => recStale (s.live p) k
  else if a = Reg.CAL_DERIVED then rankMask fun p => ((s.live p).getD 4 0).getLsbD 7
  else if 0x070400 ≤ a && a < 0x070800 then BitVec.ofNat 32 (ofLeBytes ((s.cal.window.drop (a - 0x070400)).take 4))
  else w

/-- The highest package bucket and its package (R369). -/
def RankSt.worstPkg (r : RankSt) : Nat × Nat :=
  (List.range 10).foldl (fun b k => if b.1 < Tab.get (fun _ => 0) r.pkg k then (Tab.get (fun _ => 0) r.pkg k, k) else b) (0, 0)

/-- Block ECC (R367, R369). -/
def State.viewEcc (s : State) (a : Nat) (w : Word) : Word :=
  if a = Reg.ECC_SPARESTAT then
    fput (fput (fput w Fld.ECC_SPARESTAT.STATE s.spCode.toNat) Fld.ECC_SPARESTAT.RANK s.flt.spRank) Fld.ECC_SPARESTAT.CURSOR s.flt.cursor
  else if a = Reg.ECC_RETIRED then rankMask fun p => (s.rank p).retired
  else if a = Reg.ECC_WANT then rankMask fun p => (s.rank p).want
  else if 0x080100 ≤ a && a < 0x080300 then
    let p := (a - 0x080100) / 0x10
    let r := s.rank p
    match a % 0x10 with
    | 0x8 =>
      let w := fput (fput w (Fld.ECC_RKBUCKET.UE p) r.ue) (Fld.ECC_RKBUCKET.RCE p) r.rce
      fput (fput w (Fld.ECC_RKBUCKET.DEVMAX p) r.worstPkg.1) (Fld.ECC_RKBUCKET.DEVMAX_PKG p) r.worstPkg.2
    | 0xC =>
      let w := fputB (fput w (Fld.ECC_RKSTATE.CAUSE p) r.cause.toNat) (Fld.ECC_RKSTATE.SPARED p) r.spared
      let w := fputB (fputB w (Fld.ECC_RKSTATE.WANT p) r.want) (Fld.ECC_RKSTATE.RETIRED p) r.retired
      fput (fputB w (Fld.ECC_RKSTATE.ERASED_V p) r.erased.isSome) (Fld.ECC_RKSTATE.ERASED p) (r.erased.getD 0)
    | _ => w
  else w

/-- Block CLK (R390, R392, R395). -/
def State.viewClk (s : State) (a : Nat) (w : Word) : Word :=
  if a = Reg.CLK_STAT then fput w Fld.CLK_STAT.DLL_LOCK (maskOf (s.popSubs.filter s.dllLocked))
  else if a = Reg.CLK_MEMLOCK then
    fput (fput (fputB w Fld.CLK_MEMLOCK.HELD s.memHeld) Fld.CLK_MEMLOCK.DENOM s.memDenom) Fld.CLK_MEMLOCK.NUM s.memNum
  else w

/-- The fault record shown, and whether it is the VBAT copy (R416). -/
def State.snapshot (s : State) : Option (FaultRec × Bool) :=
  match s.pwr.record, s.vbat.record with
  | some r, _ => some (r, false)
  | none, some r => some (r, true)
  | none, none => Option.none

/-- Block PWR (R416, R423, R454, R455). -/
def State.viewPwr (s : State) (a : Nat) (w : Word) : Word :=
  if a = Reg.PWR_HOLD then fput w Fld.PWR_HOLD.CLEAR_CAUSE s.vbat.reason.toNat
  else if a = Reg.PWR_GAUGECUR then
    fput w Fld.PWR_GAUGECUR.AGE (match s.pwr.gaugeAt with
      | some t => (s.time.elapsed - t) / 8000000000
      | none => 255)
  else
    match s.snapshot with
    | none => w
    | some (r, vb) =>
      if a = Reg.PWR_SNAPHDR then
        let w := fputB (fputB w Fld.PWR_SNAPHDR.VALID true) Fld.PWR_SNAPHDR.SRC vb
        let w := fput (fput w Fld.PWR_SNAPHDR.STATE r.state.code) Fld.PWR_SNAPHDR.KIND r.kind.toNat
        fput (fput w Fld.PWR_SNAPHDR.FIRST r.first) Fld.PWR_SNAPHDR.FAILMASK r.mask.toNat
      else if a = Reg.PWR_SNAPSTAMP_LO then r.stamp.extractLsb' 0 32
      else if 0x0A01D0 ≤ a && a < 0x0A01F0 then
        let k := (a - 0x0A01D0) / 4
        BitVec.ofNat 32 ((r.readings.getD (2 * k) 0).toNat + ((r.readings.getD (2 * k + 1) 0).toNat <<< 16))
      else w

/-- Block MGT (R480, R489). -/
def State.viewMgt (s : State) (a : Nat) (w : Word) : Word :=
  if a = Reg.MGT_BOOTSTAT then fputB w Fld.MGT_BOOTSTAT.STORE_OK s.cfgStore.ok
  else if a = Reg.MGT_CIPHCTL then fput w Fld.MGT_CIPHCTL.USES s.boot.uses
  else w

/-- The wall time (R492). -/
def State.wall (s : State) : BitVec 64 := s.stamp + s.time.offset

/-- Block TIM (R497, R520 to R522). -/
def State.viewTim (s : State) (a : Nat) (w : Word) : Word :=
  if a = Reg.TIM_NOW_LO then s.stamp.extractLsb' 0 32
  else if a = Reg.TIM_OFFSET_LO then s.time.offset.extractLsb' 0 32
  else if a = Reg.TIM_STAT then
    let seen := s.time.syncEdge.any fun t => decide (s.nowNs ≤ t + 1100000000)
    fput (fputB w Fld.TIM_STAT.SYNCSEEN seen) Fld.TIM_STAT.QUALITY s.quality.toNat
  else if a = Reg.TIM_RATE then BitVec.ofInt 16 s.time.f ++ BitVec.ofInt 16 s.time.slew
  else w

/-- Block LOG (R503, R524). -/
def State.viewLog (s : State) (a : Nat) (w : Word) : Word :=
  if a = Reg.LOG_RINGSTAT then
    let n := s.log.ring.length
    fput (fputB (fputB w Fld.LOG_RINGSTAT.SQUALL s.log.squall) Fld.LOG_RINGSTAT.FULL (decide (1008 ≤ n))) Fld.LOG_RINGSTAT.OCC n
  else w

/-- What a register reads as. -/
def State.viewReg (s : State) (a : Nat) : Word :=
  let w := s.reg a
  match a >>> 16 with
  | 0x0 => s.viewGlb a w
  | 0x1 => s.viewLnk a w
  | 0x2 => s.viewOrd a w
  | 0x3 => s.viewMap a w
  | 0x4 => s.viewMir a w
  | 0x5 => s.viewSch a w
  | 0x6 => s.viewDph a w
  | 0x7 => s.viewCal a w
  | 0x8 => s.viewEcc a w
  | 0x9 => s.viewClk a w
  | 0xA => s.viewPwr a w
  | 0xB => s.viewMgt a w
  | 0xC => s.viewTim a w
  | 0xD => s.viewLog a w
  | _ => w

end Sys2Proof.Machine
end

