-- ==== Sys2Proof/Machine/Access.lean ====
section
/-!
DEFINITION. The register space (R3 to R7, R526 to R529): reads with what they capture and clear (R140, R141, R291, R334, R423,
R487, R520, R525), writes with what they start, the flash mailbox (R488), the cipher mailbox (R489), and the three paths
(R88 to R91, R516 to R518).
-/

namespace Sys2Proof.Machine

/-! ### Decoding an access (R526 to R528) -/

/-- The number of a path in `GLB_ACCERR.PATH` (R534). -/
def pathCode : AccPath → Nat
  | .mgt p _ => p.idx
  | .sideband => 4
  | .core => 5

/-- Registers decoded for the core alone: the cipher mailbox and `LOG_WDTKICK`. -/
def coreOnly (a : Nat) : Bool := (decide (0x0B0400 ≤ a) && decide (a < 0x0B0430)) || a == Reg.LOG_WDTKICK

/-- An address is decoded on a path (R526). -/
def decoded (path : AccPath) (a : Nat) : Bool :=
  a % 4 == 0 && (regRow a).isSome && (!coreOnly a || path == .core)

/-- Registers of the AON domain beside those of `aonReg` (R526). -/
def runsInAon (a : Nat) : Bool := (aonReg a && a != Reg.LOG_WDTKICK) || a == Reg.ECC_RETIRED || a == Reg.ECC_WANT

/-- The status that turns an access away, or 0: `NO_REGISTER` or `POWERED_OFF` (R89, R517, R527). -/
def State.accStatus (s : State) (path : AccPath) (a : Nat) : Byte :=
  if !decoded path a then 0x02
  else if (if runsInAon a then s.top.aonOn else s.top.coreOn) then 0x00
  else 0x10

/-- Record an access error (R528). -/
def State.noteAcc (s : State) (path : AccPath) (status : Byte) (a : Nat) : State :=
  let s := s.setReg Reg.GLB_ACCERR (BitVec.ofNat 32 ((pathCode path <<< 29) + ((status.toNat % 32) <<< 24) + a % 2 ^ 24))
  (s.bump Reg.GLB_ACCCNT).setFld Fld.GLB_EVENT.ACCERR 1

/-! ### Reads -/

/-- The sideband reader's next entry goes into its window (R502, R514, R525). DESIGN CHOICE, log entry 18. -/
def State.takeSb (s : State) : State :=
  let put := fun (s : State) (w0 : Word) (b : List Byte) =>
    foldS (List.range 7) (fun s j => s.setReg (Reg.LOG_SBREC j) (BitVec.ofNat 32 (ofLeBytes ((b.drop (4 + 4 * j)).take 4))))
      (s.setReg Reg.LOG_SBREC0 w0)
  let e := s.log.ring[s.log.rdSb]?
  let s := match e with
    | some e =>
      put { s with log := { s.log with rdSb := s.log.rdSb + 1 } } (BitVec.ofNat 32 (ofLeBytes (e.bytes.take 4)) ||| 0x80000000) e.bytes
    | none => put s 0 []
  ({ s with sb := { s.sb with ibi := Option.none } }).freeRing.raiseIbi

/-- What a read of a capturing register latches. DESIGN CHOICE, log entry 16. -/
def State.captureRead (s : State) (a : Nat) : State :=
  if a = Reg.ORD_STRREC0 then
    let r := s.stream (s.fld Fld.ORD_STRSEL.STREAM)
    ((s.setReg Reg.ORD_STRREC1 (BitVec.ofNat 32 (r.tail % 2 ^ 13))).setReg Reg.ORD_STRREC2 (BitVec.ofNat 32 r.lastFork)).setReg
      Reg.ORD_STRREC3 (BitVec.ofNat 32 (r.lastFork / 2 ^ 32))
  else if a = Reg.ORD_FRONT_LO then s.setReg Reg.ORD_FRONT_HI (BitVec.ofNat 32 (s.ord.front / 2 ^ 32))
  else if a = Reg.TIM_NOW_LO then
    ((s.setReg Reg.TIM_NOW_HI (s.stamp.extractLsb' 32 32)).setReg Reg.TIM_WALL_LO (s.wall.extractLsb' 0 32)).setReg
      Reg.TIM_WALL_HI (s.wall.extractLsb' 32 32)
  else if a = Reg.TIM_OFFSET_LO then s.setReg Reg.TIM_OFFSET_HI (s.time.offset.extractLsb' 32 32)
  else if a = Reg.PWR_SNAPSTAMP_LO then
    s.setReg Reg.PWR_SNAPSTAMP_HI (match s.snapshot with
      | some r => r.1.stamp.extractLsb' 32 32
      | none => 0)
  else if a = Reg.MGT_DIEID_LO then s.setReg Reg.MGT_DIEID_HI (Tab.get (fun _ => (0 : Word)) s.fuse.word 1)
  else if 0x060000 ≤ a ∧ a < 0x070000 ∧ a % 0x1000 = 0x014 then
    let n := (a - 0x060000) / 0x1000
    { s with cal := { s.cal with eyeB := Tab.set (fun _ => (0 : Word)) s.cal.eyeB n (s.eye n).2 } }
  else if a = Reg.ECC_SEALFAIL then s.setReg Reg.ECC_FIRSTFAIL 0
  else if a = Reg.LOG_SBREC0 then s.takeSb
  else s

/-- The occupancy from which a `HIGH` field starts again after a read (R37, R198, R263, R524). -/
def State.restartHigh (s : State) (a : Nat) : State :=
  if a = Reg.ORD_POOLOCC then s.setFld Fld.ORD_POOLOCC.HIGH s.poolOcc
  else if a = Reg.ORD_WBOCC then s.setFld Fld.ORD_WBOCC.HIGH s.wbOcc
  else if a = Reg.ORD_RBOCC then s.setFld Fld.ORD_RBOCC.HIGH s.ord.retRes
  else if a = Reg.MIR_PENDOCC then s.setFld Fld.MIR_PENDOCC.HIGH s.pendOpen.length
  else if a = Reg.LOG_RINGSTAT then s.setFld Fld.LOG_RINGSTAT.HIGH s.log.ring.length
  else if 0x050000 ≤ a ∧ a < 0x054000 ∧ a % 0x400 = 4 then
    let n := (a - 0x050000) / 0x400
    s.setFld (Fld.SCH_STOREOCC.HIGH n) (s.sub n).store.length
  else s

/-- RC fields go back to their reset value once read (R5). -/
def State.clearRead (s : State) (a : Nat) : State :=
  match regRow a with
  | some row =>
    if row.rc = 0 then s
    else (s.setReg a ((s.reg a &&& ~~~row.rc) ||| (row.reset &&& row.rc))).restartHigh a
  | none => s

/-- A read that is let through: the state after it and the value. `LOG_WDTKICK` is given no value to read, so a free one. -/
def State.readLive (s : State) (a : Nat) : State × Word :=
  if a = Reg.LOG_WDTKICK then (s.draw.2, Config.freeWord s.free)
  else
    let s := s.captureRead a
    (s.clearRead a, s.viewReg a)

/-- A read: the state after it, its status and its value. -/
def State.readReg (s : State) (path : AccPath) (a : Nat) : State × Byte × Word :=
  let st := s.accStatus path a
  if st = 0 then
    let r := s.readLive a
    (r.1, 0, r.2)
  else (s.noteAcc path st a, st, 0)

/-! ### The flash mailbox (R469, R478, R488) -/

/-- Area and alignment let the command through. -/
def State.flashArea (s : State) (cmd : Nat) : Bool :=
  let a := s.fld Fld.MGT_FLADDR.ADDR
  let slot : Option Nat :=
    if 0x010000 ≤ a && a < 0x810000 then some 0 else if 0x810000 ≤ a && a < 0x1010000 then some 1 else Option.none
  let free := match slot with
    | some n => s.top.state == .bootHold || (s.fld Fld.MGT_BOOTSTAT.SLOT != n + 1 && !(s.cfgStore.ok && s.cfgStore.slot == n))
    | none => false
  match cmd with
  | 1 => a % 256 == 0
  | 2 => a % 256 == 0 && free
  | 3 => a % 4096 == 0 && free
  | _ => true

/-- A command written to `CMD` starts, or ends at once. DESIGN CHOICE, log entry 20. -/
def State.startFlash (s : State) : State :=
  let c := s.fld Fld.MGT_FLCMD.CMD
  if s.top.trigger.isSome then s.setFld Fld.MGT_FLCMD.RESULT 3
  else if c = 0 || c > 4 then s.setFld Fld.MGT_FLCMD.RESULT 4
  else if !s.flashArea c then s.setFld Fld.MGT_FLCMD.RESULT 1
  else ({ s with boot := { s.boot with flCmd := some c } }).setFld Fld.MGT_FLCMD.BUSY 1

/-- A mailbox command is over. DEDUCED, log entry 10. -/
def State.endFlash (s : State) (result : Nat) : State :=
  (({ s with boot := { s.boot with flCmd := Option.none } }).setFld Fld.MGT_FLCMD.BUSY 0).setFld Fld.MGT_FLCMD.RESULT result

/-- The 256 bytes of the page buffer. -/
def State.flashPage (s : State) : List Byte := (List.range 64).flatMap fun j => leBytes (s.reg (Reg.MGT_FLPAGE j)).toNat 4

/-- Command 0x1. -/
def State.flashFetch (s : State) (a : Nat) : State :=
  foldS (List.range 64) (fun s j => s.setReg (Reg.MGT_FLPAGE j) (BitVec.ofNat 32 (s.flashNat (a + 4 * j) 4))) s

/-- A program or an erase that fails leaves free bits: of the bits it was to change, any may have changed.
DEDUCED, log entry 10. -/
def State.spoil (s : State) (a : Nat) : Nat → State
  | 0 => s
  | n + 1 =>
    let s := State.spoil s a n
    let d := s.draw
    d.2.program (a + n) [Config.freeByte d.1]

/-- Command 0x2, after the blank check of R510. DEDUCED, log entry 10; DESIGN CHOICE, log entry 21. -/
def State.flashWrite (s : State) (a : Nat) (ok : Bool) : State :=
  if !s.blank a 256 then s.endFlash 2
  else if ok then (s.program a s.flashPage).endFlash 0
  else
    let b := s.flashPage
    let s := foldS (List.range 256) (fun s i =>
      let d := s.draw
      d.2.program (a + i) [b.getD i 0 ||| Config.freeByte d.1]) s
    s.endFlash 2

/-- The sector after an erase that failed: each byte is free. DEDUCED, log entry 10. -/
def State.halfErase (s : State) (a : Nat) : State := State.spoil (s.eraseSector a) a 4096

/-- Command 0x4: the preference record (R478). With no directory to change, the other slot's state is a free value.
DESIGN CHOICE, log entry 21. -/
def State.setPref (s : State) (slot : Nat) : State :=
  let st := fun (d : Nat) (old : Nat) => if d = slot then 1 else old
  match s.directory with
  | some (_, d) => (s.appendDir { d with pref := slot, state := [st 0 (d.stateOf 0), st 1 (d.stateOf 1)], tries := 0 }).tidyDir
  | none =>
    let x := s.draw
    let o := (Config.freeByte x.1).toNat % 4
    (x.2.appendDir { seq := 1, pref := slot, state := [st 0 o, st 1 o], tries := 0 }).tidyDir

/-- `FLASH_COMMAND_DONE` (R488): the command in progress ends. Programs and erases wait while the core checks a release.
DESIGN CHOICE, log entry 21. -/
def execFlashCommandDone (ok : Bool) (s : State) : Host.Outcome State Fault Refusal :=
  .next (
    match s.boot.flCmd with
    | none => s
    | some c =>
      let a := s.fld Fld.MGT_FLADDR.ADDR
      if s.top.trigger.isSome then s.endFlash 3
      else if s.boot.check.isSome && c != 1 then s
      else if s.boot.flash == .unusable then s.endFlash 2
      else
        match c with
        | 1 => if ok then (s.flashFetch a).endFlash 0 else s.endFlash 2
        | 2 => s.flashWrite a ok
        | 3 => if ok then (s.eraseSector a).endFlash 0 else (s.halfErase a).endFlash 2
        | _ => if ok then (s.setPref (a % 2)).endFlash 0 else s.endFlash 2)

/-! ### The cipher mailbox (R474, R476, R489) -/

/-- A half of a key slot. -/
def State.keyHalf (s : State) (i : Nat) : List Byte := Tab.get (fun _ => ([] : List Byte)) s.boot.keys i

/-- The key of a slot. -/
def State.slotKey (s : State) (slot : Nat) : List Byte :=
  if slot = 0 then s.rootKey else s.keyHalf (2 * slot) ++ s.keyHalf (2 * slot + 1)

/-- The cipher core refuses the operation. -/
def State.cipherRefuses (s : State) (slot dest : Nat) (decrypt : Bool) : Bool :=
  s.boot.dead || dest == 3 ||
    (if slot = 0 then dest == 0 || decrypt || decide (16 ≤ s.boot.uses) || !s.keyOk
     else (s.keyHalf (2 * slot)).isEmpty || (s.keyHalf (2 * slot + 1)).isEmpty)

/-- The half of a key slot that an operation loads, or 0 for the output words. -/
def cipherDest (slot dest : Nat) : Nat := if dest = 0 then 0 else 2 * (if slot = 0 then 1 else 1 + slot % 3) + (dest - 1)

/-- `GO` written: the operation starts, or is refused. DESIGN CHOICE, log entry 20. -/
def State.startCipher (s : State) : State :=
  let slot := s.fld Fld.MGT_CIPHCTL.SLOT
  let dest := s.fld Fld.MGT_CIPHCTL.DEST
  let dec := s.flag Fld.MGT_CIPHCTL.DECRYPT
  if s.cipherRefuses slot dest dec then (s.setFld Fld.MGT_CIPHCTL.FAIL 1).setFld Fld.MGT_CIPHCTL.GO 0
  else
    let block := (List.range 4).flatMap fun i => leBytes (s.reg (Reg.MGT_CIPHIN i)).toNat 4
    let out := if dec then aesDec (s.slotKey slot) block else aesEnc (s.slotKey slot) block
    let s := { s with boot := { s.boot with
      ciph := some (cipherDest slot dest, out), uses := if slot = 0 then s.boot.uses + 1 else s.boot.uses } }
    (s.setFld Fld.MGT_CIPHCTL.BUSY 1).setFld Fld.MGT_CIPHCTL.FAIL 0

/-- `CIPHER_DONE` (R489): the result is stored where the operation was to put it. -/
def execCipherDone (s : State) : Host.Outcome State Fault Refusal :=
  .next (
    match s.boot.ciph with
    | none => s
    | some (d, out) =>
      let s := { s with boot := { s.boot with ciph := Option.none } }
      let s := (s.setFld Fld.MGT_CIPHCTL.BUSY 0).setFld Fld.MGT_CIPHCTL.GO 0
      if d = 0 then
        foldS (List.range 4) (fun s i => s.setReg (Reg.MGT_CIPHOUT i) (BitVec.ofNat 32 (ofLeBytes ((out.drop (4 * i)).take 4)))) s
      else { s with boot := { s.boot with keys := Tab.set (fun _ => []) s.boot.keys d out } })

/-! ### Writes -/

/-- CFG fields take a write until `BOOT` ends (R5, R7). DEDUCED, log entry 19. -/
def State.cfgOpen (s : State) : Bool :=
  match s.top.state with
  | .off | .standby | .aon | .sequence | .boot => true
  | _ => false

/-- Bits of a register that a write reaches, and bits in which a nonzero value is an access error (R5, R7).
DEDUCED, log entry 19. -/
def State.writeMasks (s : State) (row : RegRow) : Word × Word :=
  if s.cfgOpen then (row.rw ||| row.cfg, row.ro ||| row.rc ||| row.rol)
  else (row.rw, row.ro ||| row.rc ||| row.rol ||| row.cfg)

/-- The word a write leaves. -/
def writeWord (old w eff w1c : Word) : Word := ((old &&& ~~~eff) ||| (w &&& eff)) &&& ~~~(w &&& w1c)

/-- A write of `LNK_MARGIN` (R76): `GO` starts a run where one can start, and reads 1 until the run ends.
DESIGN CHOICE, log entry 20. -/
def State.writeMargin (s : State) (n : Nat) (w : Word) : State :=
  let p := portOf n
  if (s.link p).lstate == .service && w.getLsbD 14 && (p.isT || fieldGet w 3 0 < 8) then s.marginGo p w
  else s.setReg (Reg.LNK_MARGIN n) ((s.reg (Reg.LNK_MARGIN n) &&& 0x00FFC000) ||| (w &&& 0x00003FEF))

/-- What a write starts, once its word stands; true tells that a keyed write is ignored (log entry 20). From an `ORD_STRSEL` write to
the next capture `ORD_STRREC1` to `ORD_STRREC3` read 0: R140 only ends the captured value (log entry 16). DESIGN CHOICE. -/
def State.writeEffect (s : State) (a : Nat) : State × Bool :=
  if a = Reg.GLB_BOOTREL then (if s.fld Fld.GLB_BOOTREL.KEY = 0x6C72 then s.bootRel else (s, false))
  else if a = Reg.GLB_FAULTREL then (if s.fld Fld.GLB_FAULTREL.KEY = 0x6672 then s.faultRel else (s, false))
  else if a = Reg.ORD_STRSEL then
    (((s.setReg Reg.ORD_STRREC1 0).setReg Reg.ORD_STRREC2 0).setReg Reg.ORD_STRREC3 0, false)
  else if 0x060000 ≤ a ∧ a < 0x070000 ∧ a % 0x1000 = 0x010 then
    ({ s with cal := { s.cal with eyeB := Tab.set (fun _ => (0 : Word)) s.cal.eyeB ((a - 0x060000) / 0x1000) 0 } }, false)
  else if a = Reg.CAL_RECSEL then
    let s := ({ s with cal := { s.cal with window := [], capturing := true } }).setFld Fld.CAL_RECSEL.READY 0
    (if (s.reg Reg.CAL_RECSEL).getLsbD 7 then
      foldS (List.range 16) (fun s i => s.reserveAsk (shadowOff s.selected.1 s.selected.2 + 64 * i)) s
    else s, false)
  else if a = Reg.MGT_FLCMD then (s.startFlash, false)
  else if a = Reg.MGT_CIPHCTL then (if s.flag Fld.MGT_CIPHCTL.GO then s.startCipher else s, false)
  else if a = Reg.LOG_SBCFG then (s.raiseIbi, false)
  else (s, false)

/-- Store a written word and do what it starts. A write of `CMD` while the mailbox is busy is ignored, and while a cipher
operation runs a write of its control word changes nothing that runs. -/
def State.putReg (s : State) (a : Nat) (w : Word) (eff w1c : Word) : State × Bool :=
  if a = Reg.LOG_WDTKICK then (s.kick, false)
  else if 0x010000 ≤ a ∧ a < 0x015000 ∧ a % 0x1000 = 0x040 then (s.writeMargin ((a - 0x010000) / 0x1000) w, false)
  else if a = Reg.MGT_FLCMD ∧ s.flag Fld.MGT_FLCMD.BUSY then (s, false)
  else if a = Reg.MGT_CIPHCTL ∧ s.boot.ciph.isSome then
    (s.setReg a (writeWord (s.reg a) w 0x3E w1c), false)
  else (s.setReg a (writeWord (s.reg a) w eff w1c)).writeEffect a

/-- A write: the state after it and its status. -/
def State.writeReg (s : State) (path : AccPath) (a : Nat) (w : Word) : State × Byte :=
  let st := s.accStatus path a
  if st != 0 then (s.noteAcc path st a, st)
  else
    match regRow a with
    | none => (s, 0)
    | some row =>
      let m := s.writeMasks row
      let r := s.putReg a w m.1 row.w1c
      if r.2 || w &&& m.2 != 0 then (r.1.noteAcc path 0x01 a, 0x01) else (r.1, 0)

/-! ### The three paths (R88 to R91, R516, R518) -/

/-- A management message is taken (R83, R89, R108): an MG credit is spent and its tag is in use until it is answered. -/
def State.takeMgt (s : State) (p : Port) (mtag : BitVec 4) (f : State → State) : State :=
  let l := s.link p
  if p.isT || !l.takes then s
  else if l.granted.mg = 0 then s.overrun p false 0
  else if l.mtags.contains mtag then
    ((s.setLink p { l with granted := { l.granted with mg := l.granted.mg - 1 } }).badMsg p 0x1052).owe p { mg := 1 }
  else
    let s := s.setLink p { l with granted := { l.granted with mg := l.granted.mg - 1 }, mtags := l.mtags ++ [mtag] }
    f s

/-- Queue the answer of a management message. -/
def State.answerMgt (s : State) (p : Port) (mtag : BitVec 4) (status : Byte) (data : Word) : State :=
  s.send p (mkCplMgt mtag status.toNat data)

/-- The sideband reaches the registers: not while the state code is 0x0 or 0x1 (R8, R513). -/
def State.sbAnswers (s : State) : Bool := s.top.aonOn && s.top.state != .off && s.top.state != .standby

/-- The sideband's answer frame. -/
def State.answerSb (s : State) (b : List Byte) : State := { s with sb := { s.sb with answer := b } }

/-- Read `n` words from `a` upward: the first status that is not `OK`, and the bytes; a word that fails reads 0.
DESIGN CHOICE, log entry 18. -/
def State.sbWords (a : Nat) : Nat → State → State × Byte × List Byte
  | 0, s => (s, 0, [])
  | n + 1, s =>
    let r := s.readReg .sideband (a % 2 ^ 24)
    let t := State.sbWords (a + 4) n r.1
    (t.1, if r.2.1 = 0 then t.2.1 else r.2.1, leBytes r.2.2.toNat 4 ++ t.2.2)

/-- A read on a path, with its answer. -/
def State.readOn (s : State) (path : AccPath) (a : Nat) : State :=
  match path with
  | .mgt p mtag => s.takeMgt p mtag fun s =>
      let r := s.readReg path a
      r.1.answerMgt p mtag r.2.1 r.2.2
  | .sideband =>
    let r := s.readReg path a
    r.1.answerSb (r.2.1 :: leBytes r.2.2.toNat 4)
  | .core =>
    let r := s.readReg path a
    { r.1 with boot := { r.1.boot with answer := r.2.1, data := r.2.2 } }

/-- A write on a path, with its answer. After a trigger a management write is refused (R91). -/
def State.writeOn (s : State) (path : AccPath) (a : Nat) (w : Word) : State :=
  match path with
  | .mgt p mtag => s.takeMgt p mtag fun s =>
      if s.triggered then s.answerMgt p mtag 0x06 0
      else
        let r := s.writeReg path a w
        r.1.answerMgt p mtag r.2 0
  | .sideband =>
    let r := s.writeReg path a w
    r.1.answerSb [r.2]
  | .core =>
    let r := s.writeReg path a w
    { r.1 with boot := { r.1.boot with answer := r.2, data := 0 } }

/-- The path is alive: the sideband where the registers answer on it, the core with its domain on. A message that finds its link down is
dropped as it is taken. -/
def State.pathLive (s : State) : AccPath → Bool
  | .mgt _ _ => true
  | .sideband => s.sbAnswers
  | .core => s.top.coreOn

/-- An access is served. -/
def State.serveAccess (s : State) (q : ArbReq) : State :=
  if !s.pathLive q.path then s
  else
    match q.data with
    | some w => s.writeOn q.path q.addr w
    | none =>
      if q.count = 0 then s.readOn q.path q.addr
      else
        let r := State.sbWords q.addr q.count s
        r.1.answerSb (r.2.1 :: r.2.2)

/-- The place of a path at the register arbiter (R518). -/
def pathPlace : AccPath → Nat
  | .mgt _ _ => 0
  | .sideband => 1
  | .core => 2

/-- The place of the register access that a command brings; 3 for a command that brings none. -/
def accessPlace : Instr → Nat
  | .mgtRead _ _ _ | .mgtWrite _ _ _ _ => 0
  | .sbReadRegisters _ _ | .sbWriteRegister _ _ => 1
  | .cipherEncrypt _ _ | .cipherDecrypt _ _ | .logWdtkick _ => 2
  | .registerWrite p _ _ | .rcFieldRead p _ | .bootRelease p _ | .faultRelease p _ | .ordStrrec0Read p | .ordFrontLoRead p
  | .timNowLoRead p | .timOffsetLoRead p | .pwrSnapstampLoRead p | .mgtDieidLoRead p | .dphEyeaRead p _ | .eccSealfailRead p
  | .logSbrec0Read p | .calRecselWrite p _ | .ordStrselWrite p _ | .dphEyeselWrite p _ _ | .flashRead p | .flashProgram p
  | .flashErase p | .flashSetPreference p | .flashUnknownCommand p _ => pathPlace p
  | _ => 3

/-- An access of a higher place comes in the same cycle (R518). The accesses of one cycle are the commands still in the queue.
DESIGN CHOICE, log entry 48. -/
def State.accessWaits (s : State) (place : Nat) : Bool := s.pending.any fun c => decide (accessPlace c < place)

/-- An access on this path has to wait: one of a higher place comes in the same cycle, or one of no lower place waits already. -/
def State.portBusy (s : State) : AccPath → Bool
  | .mgt _ _ => false
  | path => s.accessWaits (pathPlace path) || s.sb.arb.any fun q => decide (pathPlace q.path ≤ pathPlace path)

/-- An access reaches the register arbiter, which takes management messages first, then the sideband, then the core (R518). One that
waits is served once no command of the cycle is left. DESIGN CHOICE, log entry 48. -/
def State.access (s : State) (q : ArbReq) : State :=
  if !s.pathLive q.path then s
  else if s.portBusy q.path then { s with sb := { s.sb with arb := s.sb.arb ++ [q] } }
  else s.serveAccess q

/-- A read on a path. -/
def State.pathRead (s : State) (path : AccPath) (a : Nat) : State := s.access { path := path, addr := a }

/-- A write on a path. -/
def State.pathWrite (s : State) (path : AccPath) (a : Nat) (w : Word) : State := s.access { path := path, addr := a, data := some w }

/-! ### The commands -/

/-- `MGT_READ` (R88). -/
def execMgtRead (p : Port) (mtag : BitVec 4) (addr : BitVec 24) (s : State) : Host.Outcome State Fault Refusal :=
  .next (s.pathRead (.mgt p mtag) addr.toNat)

/-- `MGT_WRITE` (R88, R91). -/
def execMgtWrite (p : Port) (mtag : BitVec 4) (addr : BitVec 24) (data : Word) (s : State) : Host.Outcome State Fault Refusal :=
  .next (s.pathWrite (.mgt p mtag) addr.toNat data)

/-- `REGISTER_WRITE` (R5, R7). -/
def execRegisterWrite (path : AccPath) (addr : BitVec 24) (data : Word) (s : State) : Host.Outcome State Fault Refusal :=
  .next (s.pathWrite path addr.toNat data)

/-- `RC_FIELD_READ` (R5). -/
def execRcFieldRead (path : AccPath) (addr : BitVec 24) (s : State) : Host.Outcome State Fault Refusal :=
  .next (s.pathRead path addr.toNat)

/-- `BOOT_RELEASE` (R483, R533): a write of `GLB_BOOTREL`. -/
def execBootRelease (path : AccPath) (data : Word) (s : State) : Host.Outcome State Fault Refusal :=
  .next (s.pathWrite path Reg.GLB_BOOTREL data)

/-- `FAULT_RELEASE` (R533): a write of `GLB_FAULTREL`. -/
def execFaultRelease (path : AccPath) (data : Word) (s : State) : Host.Outcome State Fault Refusal :=
  .next (s.pathWrite path Reg.GLB_FAULTREL data)

/-- `ORD_STRREC0_READ` (R140). -/
def execOrdStrrec0Read (path : AccPath) (s : State) : Host.Outcome State Fault Refusal := .next (s.pathRead path Reg.ORD_STRREC0)

/-- `ORD_FRONT_LO_READ` (R141). -/
def execOrdFrontLoRead (path : AccPath) (s : State) : Host.Outcome State Fault Refusal := .next (s.pathRead path Reg.ORD_FRONT_LO)

/-- `TIM_NOW_LO_READ` (R520). -/
def execTimNowLoRead (path : AccPath) (s : State) : Host.Outcome State Fault Refusal := .next (s.pathRead path Reg.TIM_NOW_LO)

/-- `TIM_OFFSET_LO_READ` (R520). -/
def execTimOffsetLoRead (path : AccPath) (s : State) : Host.Outcome State Fault Refusal := .next (s.pathRead path Reg.TIM_OFFSET_LO)

/-- `PWR_SNAPSTAMP_LO_READ` (R423). -/
def execPwrSnapstampLoRead (path : AccPath) (s : State) : Host.Outcome State Fault Refusal :=
  .next (s.pathRead path Reg.PWR_SNAPSTAMP_LO)

/-- `MGT_DIEID_LO_READ` (R487). -/
def execMgtDieidLoRead (path : AccPath) (s : State) : Host.Outcome State Fault Refusal := .next (s.pathRead path Reg.MGT_DIEID_LO)

/-- `DPH_EYEA_READ` (R291). -/
def execDphEyeaRead (path : AccPath) (sc : Fin 16) (s : State) : Host.Outcome State Fault Refusal :=
  .next (s.pathRead path (Reg.DPH_EYEA sc.val))

/-- `ECC_SEALFAIL_READ` (R334). -/
def execEccSealfailRead (path : AccPath) (s : State) : Host.Outcome State Fault Refusal := .next (s.pathRead path Reg.ECC_SEALFAIL)

/-- `LOG_SBREC0_READ` (R525). -/
def execLogSbrec0Read (path : AccPath) (s : State) : Host.Outcome State Fault Refusal := .next (s.pathRead path Reg.LOG_SBREC0)

/-- `CAL_RECSEL_WRITE` (R317). -/
def execCalRecselWrite (path : AccPath) (data : Word) (s : State) : Host.Outcome State Fault Refusal :=
  .next (s.pathWrite path Reg.CAL_RECSEL data)

/-- `ORD_STRSEL_WRITE` (R140). -/
def execOrdStrselWrite (path : AccPath) (data : Word) (s : State) : Host.Outcome State Fault Refusal :=
  .next (s.pathWrite path Reg.ORD_STRSEL data)

/-- `DPH_EYESEL_WRITE` (R291). -/
def execDphEyeselWrite (path : AccPath) (sc : Fin 16) (data : Word) (s : State) : Host.Outcome State Fault Refusal :=
  .next (s.pathWrite path (Reg.DPH_EYESEL sc.val) data)

/-- `FLASH_READ` (R488): command 0x1. -/
def execFlashRead (path : AccPath) (s : State) : Host.Outcome State Fault Refusal := .next (s.pathWrite path Reg.MGT_FLCMD 1)

/-- `FLASH_PROGRAM` (R488): command 0x2. -/
def execFlashProgram (path : AccPath) (s : State) : Host.Outcome State Fault Refusal := .next (s.pathWrite path Reg.MGT_FLCMD 2)

/-- `FLASH_ERASE` (R488): command 0x3. -/
def execFlashErase (path : AccPath) (s : State) : Host.Outcome State Fault Refusal := .next (s.pathWrite path Reg.MGT_FLCMD 3)

/-- `FLASH_SET_PREFERENCE` (R478, R488): command 0x4. -/
def execFlashSetPreference (path : AccPath) (s : State) : Host.Outcome State Fault Refusal :=
  .next (s.pathWrite path Reg.MGT_FLCMD 4)

/-- `FLASH_UNKNOWN_COMMAND` (R488). -/
def execFlashUnknownCommand (path : AccPath) (code : BitVec 4) (s : State) : Host.Outcome State Fault Refusal :=
  .next (s.pathWrite path Reg.MGT_FLCMD (BitVec.setWidth 32 code))

/-- `CIPHER_ENCRYPT` (R489): the core writes `MGT_CIPHCTL` with `GO` = 1 and `DECRYPT` = 0. -/
def execCipherEncrypt (slot dest : BitVec 2) (s : State) : Host.Outcome State Fault Refusal :=
  .next (s.pathWrite .core Reg.MGT_CIPHCTL (BitVec.ofNat 32 (1 + 4 * slot.toNat + 16 * dest.toNat)))

/-- `CIPHER_DECRYPT` (R489): with `DECRYPT` = 1. -/
def execCipherDecrypt (slot dest : BitVec 2) (s : State) : Host.Outcome State Fault Refusal :=
  .next (s.pathWrite .core Reg.MGT_CIPHCTL (BitVec.ofNat 32 (3 + 4 * slot.toNat + 16 * dest.toNat)))

/-- `LOG_WDTKICK` (R512, R525): the core's write. -/
def execLogWdtkick (data : Word) (s : State) : Host.Outcome State Fault Refusal := .next (s.pathWrite .core Reg.LOG_WDTKICK data)

/-! ### Sideband requests (R516, R517) -/

/-- `SB_READ_REGISTERS` (R516). DESIGN CHOICE, log entry 18. -/
def execSbReadRegisters (addr : BitVec 24) (count : Byte) (s : State) : Host.Outcome State Fault Refusal :=
  .next (
    if !s.sbAnswers then s
    else if count.toNat = 0 || count.toNat > 16 then s.answerSb [0x11]
    else s.access { path := .sideband, addr := addr.toNat, count := count.toNat })

/-- `SB_WRITE_REGISTER` (R516). -/
def execSbWriteRegister (addr : BitVec 24) (data : Word) (s : State) : Host.Outcome State Fault Refusal :=
  .next (s.pathWrite .sideband addr.toNat data)

/-- `SB_FRAME_ERROR` (R517): a frame that fails PEC is met only in SMBus mode. -/
def execSbFrameError (e : SbError) (s : State) : Host.Outcome State Fault Refusal :=
  .next (
    if !s.sbAnswers then s
    else
      match e with
      | .pec => if s.sb.smbus then s.answerSb [0x12] else s
      | .unknownOp | .wrongLength | .noRequest => s.answerSb [0x11])

end Sys2Proof.Machine
end

