-- ==== Sys2Proof/Machine/Directives.lean ====
section
/-!
DEFINITION. The directives (R90, R91, R536 to R541): the checks in their order, the preconditions and the effects.
-/

namespace Sys2Proof.Machine

/-! ### Preconditions (R191, R203, R211, R222, R258, R312, R350, R352, R383, R537) -/

/-- `JOIN` or `SERVICE`. -/
def State.paired (s : State) : Bool := s.top.state == .join || s.top.state == .service

/-- `JOIN` with no settled pair state. -/
def State.unsettled (s : State) : Bool := s.top.state == .join && s.mir.pstate == .none

/-- The region table in force came from the shadow (R169). -/
def State.fromShadow (s : State) : Bool := s.fld Fld.MAP_TBLSRC.SOURCE == 2

/-- The bits of `ARG` that a directive names (R536). -/
def argMask : Nat → Nat
  | 1 => 0x3
  | 2 => 0xF
  | 3 => 0x3FFFF
  | 4 => 0x1FFFFFFFF
  | 5 => 0x1FFFFFFFFFF
  | 7 => 0x3FF
  | 8 => 0x1F
  | 9 => 0xFFFFFFFFFFFFFFFF
  | 10 => 0x11F
  | 11 => 0x1F
  | _ => 0

/-- The rank of `SC` and `RANK`: p = 2 · `SC` + `RANK`. -/
def argRank (arg : Nat) : Nat := 2 * (arg % 16) + arg / 16 % 2

/-- Solo grant (R203, R211). DESIGN CHOICE, log entry 34. -/
def State.canSolo (s : State) (epoch : Nat) (format : Bool) : Bool :=
  decide (s.mir.epoch.toNat < epoch) && !s.mir.soloGrant &&
    (match s.pairState with
      | .paired | .rebuildDst => s.causeStands && !format
      | .none => s.unsettled &&
          (if format then s.mir.epoch == 0
           else s.fromShadow && (s.mir.recorded == .paired || s.mir.recorded == .solo || s.mir.recorded == .rebuildSrc))
      | _ => false)

/-- Rebuild start (R203, R222): mode 1 is full, 2 resync. -/
def State.canRebuild (s : State) (epoch mode share : Nat) : Bool :=
  decide (s.mir.epoch.toNat < epoch) && (mode == 1 || mode == 2) && decide (share ≤ 100) && s.paired &&
    (match s.mir.pstate with
      | .solo => (s.link .t).lstate == .service && s.feat .t 19 && (mode == 1 || s.feat .t 18) && s.mir.rb != .formatting
      | .fenced | .none =>
        (s.mir.pstate == .fenced || s.unsettled) && !(s.popRanks.any fun p => s.gone p && !(s.rank p).spared) &&
          (mode == 1 || (s.fromShadow && s.mir.epoch != 0 && !(s.mappedRegions.any fun r => rtSync (s.rtEntry r) == 4)))
      | _ => false)

/-- Region role handover (R191). -/
def State.canHandover (s : State) (region : Nat) : Bool :=
  let w := s.rtEntry region
  rtRole w == 2 && rtSync w == 0 && !rtHandover w && !s.rtFailed region && s.pairState == .paired &&
    (s.link .t).lstate == .service && decide (s.mir.handovers.length < 16)

/-- Rank retire (R350). A core domain that is off has no rank in service. -/
def State.canRetire (s : State) (p : Nat) (spare : Bool) : Bool :=
  s.top.coreOn && s.popRanks.contains p && (s.rank p).trained && !s.gone p && (!spare || s.spareable p)

/-- The precondition of directive `d`. DESIGN CHOICE, log entry 34. -/
def State.dirPre (s : State) (d arg : Nat) : Bool :=
  match d with
  | 1 => s.canLull (arg % 4)
  | 2 => s.paired
  | 3 => s.canHandover (arg % 2 ^ 18)
  | 4 => s.canSolo (arg % 2 ^ 32) (arg / 2 ^ 32 % 2 == 1)
  | 5 => s.canRebuild (arg % 2 ^ 32) (arg / 2 ^ 32 % 4) (arg / 2 ^ 34 % 128)
  | 6 => s.pairState == .rebuildSrc || s.pairState == .rebuildDst
  | 7 => s.paired && decide (arg % 1024 ≤ 720)
  | 8 => s.canRestore (argRank arg)
  | 9 => true
  | 10 => s.canRetire (argRank arg) (arg / 256 % 2 == 1)
  | 11 => s.canReadmit (argRank arg)
  | _ => false

/-! ### The checks (R91, R537) -/

/-- Membership directives, which only the witness may send (R11). -/
def isMembership (d : Nat) : Bool := d == 4 || d == 5 || d == 6

/-- Directives whose `EPOCH` is checked. -/
def carriesEpoch (d : Nat) : Bool := d == 3 || isMembership d

/-- The status of the first check that fails, or 0 (R91). `port` is the U-port it came on, none for the sideband. -/
def State.dirStatus (s : State) (port : Option Port) (d : Nat) (epoch : Word) (arg : Nat) : Byte :=
  if d = 0 || d > 11 then 0x07
  else if isMembership d && !port.any s.witnessOn then 0x03
  else if carriesEpoch d && epoch != s.mir.epoch then 0x05
  else if s.triggered then 0x06
  else if (s.fld Fld.GLB_DIRSTAT.BUSY).testBit d then 0x08
  else if (d == 3 && port.isNone) || arg &&& argMask d != arg || !s.dirPre d arg then 0x04
  else 0x00

/-! ### Effects -/

/-- Quiesce (R540). -/
def State.quiesce (s : State) (ports : Nat) : State :=
  let s := (s.setFld Fld.GLB_QUIESCE.PORTS ports).setFld Fld.GLB_QUIESCE.DRAINED 0
  ({ s with ord := { s.ord with qMark := s.ord.admNext } }).checkDrained

/-- Wall offset (R492, R519): the slew ends and a new offset epoch opens. DESIGN CHOICE, log entry 12. -/
def State.setWall (s : State) (offset : BitVec 64) : State :=
  let s := { s with time := { s.time with offset := offset, slew := 0 } }
  let s := s.setFld Fld.TIM_STAT.OFFSET_EPOCH (s.fld Fld.TIM_STAT.OFFSET_EPOCH + 1)
  s.capture 0xC004 (offset.extractLsb' 0 32) (offset.extractLsb' 32 32)

/-- Rebuild start (R223). A solo grant whose hold still runs is dropped. DESIGN CHOICE, log entry 34. -/
def State.rebuild (s : State) (epoch : Word) (mode share : Nat) : State :=
  let s := { s with mir := { s.mir with soloGrant := false, soloConv := false, soloEnd := false, formatDue := false } }
  s.startRebuild epoch mode share

/-- Rank retire (R347, R350, R356, R359): cause 6 is the directive. A copy in progress is aborted, and the rank it was copying
is handled without sparing. DESIGN CHOICE, log entry 34. -/
def State.retireBy (s : State) (p : Nat) (spare : Bool) : State :=
  if spare then s.startSpare p 6
  else if s.flt.sp = 1 && s.flt.spRank == p then (s.abortSpare p).retire p 6
  else s.retire p 6

/-- A directive with a "Busy while" condition is in progress (R538). DESIGN CHOICE, log entry 34. -/
def State.startDir (s : State) (d : Nat) : State :=
  s.setFld Fld.GLB_DIRSTAT.BUSY (s.fld Fld.GLB_DIRSTAT.BUSY ||| 2 ^ d)

/-- The effect of directive `d`, and its result value. -/
def State.dirActs (s : State) (d : Nat) (mtag : BitVec 4) (arg : Nat) : State × Word :=
  match d with
  | 1 => ((s.startDir 1).startLull (arg % 4), 0)
  | 2 => (s.quiesce (arg % 16), 0)
  | 3 => (s.startHandover (arg % 2 ^ 18) mtag, 0)
  | 4 => (s.grantSolo (BitVec.ofNat 32 arg) (arg / 2 ^ 32 % 2 == 1), 0)
  | 5 => (s.rebuild (BitVec.ofNat 32 arg) (arg / 2 ^ 32 % 4) (arg / 2 ^ 34 % 128), 0)
  | 6 => (s.stopRebuild, 0)
  | 7 => ((s.setScrub (arg % 1024) false).event 0x5005 (arg % 1024), 0)
  | 8 => ((s.startDir 8).startRestore (argRank arg), 0)
  | 9 =>
    let s := s.setWall (BitVec.ofNat 64 arg)
    (s, BitVec.ofNat 32 (s.fld Fld.TIM_STAT.OFFSET_EPOCH))
  | 10 => (s.retireBy (argRank arg) (arg / 256 % 2 == 1), 0)
  | 11 => ((s.startDir 11).startReadmit (argRank arg), 0)
  | _ => (s, 0)

/-- Record the answer of a directive (R538). -/
def State.noteDir (s : State) (path d : Nat) (status : Byte) : State :=
  ((s.setFld Fld.GLB_DIRSTAT.LAST_DCODE d).setFld Fld.GLB_DIRSTAT.LAST_STATUS status.toNat).setFld Fld.GLB_DIRSTAT.LAST_PATH path

/-- A directive is checked and committed or refused; a membership directive of the witness with a greater epoch fences the hub
(R214). DESIGN CHOICE, log entry 34. -/
def State.directive (s : State) (port : Option Port) (mtag : BitVec 4) (d : Nat) (epoch : Word) (arg : Nat) :
    State × Byte × Word :=
  let st := s.dirStatus port d epoch arg
  let path := match port with
    | some p => p.idx
    | none => 4
  if st = 0 then
    let r := s.dirActs d mtag arg
    (r.1.noteDir path d 0, 0, r.2)
  else
    let s := if st = 0x05 && isMembership d && decide (s.mir.epoch.toNat < epoch.toNat) then s.fence epoch else s
    (s.noteDir path d st, st, 0)

/-- The `DCODE` of a `DIRECTIVE` message. -/
def mgtDcode : Instr → Option Nat
  | .directiveLull _ _ => some 1
  | .directiveQuiesce _ _ => some 2
  | .directiveHandover _ _ => some 3
  | .directiveSoloGrant _ _ => some 4
  | .directiveRebuildStart _ _ => some 5
  | .directiveRebuildStop _ _ => some 6
  | .directiveScrubRate _ _ => some 7
  | .directiveCalRestore _ _ => some 8
  | .directiveWallOffset _ _ => some 9
  | .directiveRankRetire _ _ => some 10
  | .directiveRankReadmit _ _ => some 11
  | .directiveUnknown _ d _ => some d.toNat
  | _ => none

/-- A management message with this `DCODE` comes in the same cycle (R539). DESIGN CHOICE, log entry 48. -/
def State.mgtDirective (s : State) (d : Nat) : Bool := s.pending.any fun c => mgtDcode c == some d

/-- A directive on the sideband is checked and answered: the status and `DATA` (R516). -/
def State.sideDirective (s : State) (q : DirReq) : State :=
  if !s.sbAnswers then s
  else
    let r := s.directive Option.none 0 q.dcode.toNat q.epoch q.arg.toNat
    r.1.answerSb (r.2.1 :: leBytes r.2.2.toNat 4)

/-- A `DIRECTIVE` message: its answer is one `CPL_MGT` (R89, R90). -/
def State.runDirective (s : State) (h : DirHead) (d : Nat) (arg : BitVec 64) : State :=
  s.takeMgt h.port h.mtag fun s =>
    let r := s.directive (some h.port) h.mtag d h.epoch arg.toNat
    r.1.answerMgt h.port h.mtag r.2.1 r.2.2

/-! ### The commands -/

/-- `DIRECTIVE_LULL` (R383, R384). -/
def execDirectiveLull (h : DirHead) (arg : BitVec 64) (s : State) : Host.Outcome State Fault Refusal := .next (s.runDirective h 1 arg)

/-- `DIRECTIVE_QUIESCE` (R540). -/
def execDirectiveQuiesce (h : DirHead) (arg : BitVec 64) (s : State) : Host.Outcome State Fault Refusal := .next (s.runDirective h 2 arg)

/-- `DIRECTIVE_HANDOVER` (R191, R192). -/
def execDirectiveHandover (h : DirHead) (arg : BitVec 64) (s : State) : Host.Outcome State Fault Refusal := .next (s.runDirective h 3 arg)

/-- `DIRECTIVE_SOLO_GRANT` (R211, R212). -/
def execDirectiveSoloGrant (h : DirHead) (arg : BitVec 64) (s : State) : Host.Outcome State Fault Refusal := .next (s.runDirective h 4 arg)

/-- `DIRECTIVE_REBUILD_START` (R222, R223). -/
def execDirectiveRebuildStart (h : DirHead) (arg : BitVec 64) (s : State) : Host.Outcome State Fault Refusal :=
  .next (s.runDirective h 5 arg)

/-- `DIRECTIVE_REBUILD_STOP` (R541). -/
def execDirectiveRebuildStop (h : DirHead) (arg : BitVec 64) (s : State) : Host.Outcome State Fault Refusal :=
  .next (s.runDirective h 6 arg)

/-- `DIRECTIVE_SCRUB_RATE` (R258). -/
def execDirectiveScrubRate (h : DirHead) (arg : BitVec 64) (s : State) : Host.Outcome State Fault Refusal := .next (s.runDirective h 7 arg)

/-- `DIRECTIVE_CAL_RESTORE` (R312). -/
def execDirectiveCalRestore (h : DirHead) (arg : BitVec 64) (s : State) : Host.Outcome State Fault Refusal := .next (s.runDirective h 8 arg)

/-- `DIRECTIVE_WALL_OFFSET` (R492). -/
def execDirectiveWallOffset (h : DirHead) (arg : BitVec 64) (s : State) : Host.Outcome State Fault Refusal := .next (s.runDirective h 9 arg)

/-- `DIRECTIVE_RANK_RETIRE` (R350). -/
def execDirectiveRankRetire (h : DirHead) (arg : BitVec 64) (s : State) : Host.Outcome State Fault Refusal :=
  .next (s.runDirective h 10 arg)

/-- `DIRECTIVE_RANK_READMIT` (R352). -/
def execDirectiveRankReadmit (h : DirHead) (arg : BitVec 64) (s : State) : Host.Outcome State Fault Refusal :=
  .next (s.runDirective h 11 arg)

/-- `DIRECTIVE_UNKNOWN` (R91): a `DCODE` outside the directive table. -/
def execDirectiveUnknown (h : DirHead) (dcode : Byte) (arg : BitVec 64) (s : State) : Host.Outcome State Fault Refusal :=
  .next (s.runDirective h dcode.toNat arg)

/-- `SB_DIRECTIVE` (R516): it waits while a management message brings the same `DCODE` in the same cycle (R539). DESIGN CHOICE, log
entry 48. -/
def execSbDirective (dcode : Byte) (epoch : Word) (arg : BitVec 64) (s : State) : Host.Outcome State Fault Refusal :=
  .next (
    let q : DirReq := { dcode := dcode, epoch := epoch, arg := arg }
    if s.sbAnswers && (s.mgtDirective dcode.toNat || s.sb.arb.any fun q => q.path == .sideband) then
      { s with sb := { s.sb with arb := s.sb.arb ++ [{ path := .sideband, dir := some q }] } }
    else s.sideDirective q)

/-! ### What waits -/

/-- The next access or directive that waits, the sideband's first, is served: no command of its cycle is left (R518, R539). -/
def State.serveNext (s : State) : Option State :=
  ((s.sb.arb.find? fun q => q.path == .sideband) <|> s.sb.arb.head?).map fun q =>
    let s := { s with sb := { s.sb with arb := s.sb.arb.erase q } }
    match q.dir with
    | some d => s.sideDirective d
    | none => s.serveAccess q

end Sys2Proof.Machine
end

