-- ==== Sys2Proof/Machine/Ticks.lean ====
section
/-!
DEFINITION. What passes while no command waits: an access that waits is served (R518), the next item of the receive crossings is
taken (R30), or else one tick of the clock the hub runs on goes by (R29, R32, R390, R490).
-/

namespace Sys2Proof.Machine

/-- A tick of MGCLK (R390, R490, R493): four core cycles. DESIGN CHOICE, log entry 6. -/
def State.mgTick (s : State) : State :=
  let s := if s.mgTicks then s.tickTime else s
  let n := s.clk.memTick + 1
  let s := { s with clk := { s.clk with memTick := n % 16 } }
  (if n % 16 = 0 then s.memTick else s).notePort

/-- A core cycle of 0.625 ns (R29, R32): the port pointer moves on and every lane may be granted positions again. On the
oscillator the timebase moves with the AON clock, every 160 core cycles. DESIGN CHOICE, log entries 6 and 42. -/
def State.coreTick (s : State) : State :=
  let s := { s with
    time := { s.time with elapsed := s.time.elapsed + 5, cycle := s.time.cycle + 1 },
    clk := { s.clk with exitSeen := false },
    ord := { s.ord with ptr := (s.ord.ptr + 1) % 4, granted := [], admits := 0, probes := 0 } }
  let s := s.makeChange.endBars.tickStop
  let s := if !s.mgTicks && s.time.cycle % 160 = 0 then s.tickTime else s
  if s.time.cycle % 4 = 0 then s.mgTick else s

/-- A cycle of the AON clock, 100 ns; with the AON domain off too only model time goes by. DESIGN CHOICE, log entry 6. -/
def State.aonTick (s : State) : State :=
  let s := { s with time := { s.time with elapsed := s.time.elapsed + 800 } }
  if s.top.aonOn then s.tickTime.tickStop else s

/-- One tick. DESIGN CHOICE, log entry 6. -/
def State.tick (s : State) : State := if s.top.coreOn then s.coreTick else s.aonTick

end Sys2Proof.Machine
end

