-- ==== Sys2Proof/Machine/Dispatch.lean ====
section
/-!
DEFINITION. The meaning of every command: one arm per constructor, one call per arm. Every command answers a next state; one
whose condition does not hold leaves the state as it was (DESIGN CHOICE, log entry 4).
-/

namespace Sys2Proof.Machine

def exec (i : Instr) (s : State) : Host.Outcome State Fault Refusal :=
  match i with
  | .vbatApplied => Sys2Proof.Machine.execVbatApplied s
  | .vbatRemoved => Sys2Proof.Machine.execVbatRemoved s
  | .allSourcesLost => Sys2Proof.Machine.execAllSourcesLost s
  | .aonDomainStart smbus sbaddr fuses => Sys2Proof.Machine.execAonDomainStart smbus sbaddr fuses s
  | .aonDomainStop => Sys2Proof.Machine.execAonDomainStop s
  | .vbatSwitchover toVbat => Sys2Proof.Machine.execVbatSwitchover toVbat s
  | .feedEntersWindow f => Sys2Proof.Machine.execFeedEntersWindow f s
  | .feedQualified f => Sys2Proof.Machine.execFeedQualified f s
  | .feedOutOfWindow f => Sys2Proof.Machine.execFeedOutOfWindow f s
  | .veerOldGateOff => Sys2Proof.Machine.execVeerOldGateOff s
  | .veerReturn => Sys2Proof.Machine.execVeerReturn s
  | .plwNAssert ch => Sys2Proof.Machine.execPlwNAssert ch s
  | .plwNRelease ch => Sys2Proof.Machine.execPlwNRelease ch s
  | .plwDiscrepancyTimeout => Sys2Proof.Machine.execPlwDiscrepancyTimeout s
  | .powerLossTrigger => Sys2Proof.Machine.execPowerLossTrigger s
  | .gustWritesDrained => Sys2Proof.Machine.execGustWritesDrained s
  | .gustJournalWritten => Sys2Proof.Machine.execGustJournalWritten s
  | .gustHeaderWritten => Sys2Proof.Machine.execGustHeaderWritten s
  | .gustSelfRefresh => Sys2Proof.Machine.execGustSelfRefresh s
  | .calmEntry => Sys2Proof.Machine.execCalmEntry s
  | .calmFalseWarning => Sys2Proof.Machine.execCalmFalseWarning s
  | .vbbuCutoff => Sys2Proof.Machine.execVbbuCutoff s
  | .gaugePoll found => Sys2Proof.Machine.execGaugePoll found s
  | .holdupReadyChange silent => Sys2Proof.Machine.execHoldupReadyChange silent s
  | .restoreDramDone => Sys2Proof.Machine.execRestoreDramDone s
  | .journalReplayDone => Sys2Proof.Machine.execJournalReplayDone s
  | .restoreComplete => Sys2Proof.Machine.execRestoreComplete s
  | .startRowDelayEnd => Sys2Proof.Machine.execStartRowDelayEnd s
  | .railArmed rail => Sys2Proof.Machine.execRailArmed rail s
  | .railStartTimeout rail => Sys2Proof.Machine.execRailStartTimeout rail s
  | .resetStretchEnd k => Sys2Proof.Machine.execResetStretchEnd k s
  | .startSectionComplete found => Sys2Proof.Machine.execStartSectionComplete found s
  | .shutdownRowDone timedOut => Sys2Proof.Machine.execShutdownRowDone timedOut s
  | .railOutOfWindow rail above => Sys2Proof.Machine.execRailOutOfWindow rail above s
  | .adcConversion readings vbbu => Sys2Proof.Machine.execAdcConversion readings vbbu s
  | .bootRelease path data => Sys2Proof.Machine.execBootRelease path data s
  | .bootReleaseChecked found => Sys2Proof.Machine.execBootReleaseChecked found s
  | .faultRelease path data => Sys2Proof.Machine.execFaultRelease path data s
  | .coreRelease found => Sys2Proof.Machine.execCoreRelease found s
  | .bootComplete bands => Sys2Proof.Machine.execBootComplete bands s
  | .coreReset => Sys2Proof.Machine.execCoreReset s
  | .rollbackAdvance verified => Sys2Proof.Machine.execRollbackAdvance verified s
  | .directoryMarkGood => Sys2Proof.Machine.execDirectoryMarkGood s
  | .trainStepDone sc rank found => Sys2Proof.Machine.execTrainStepDone sc rank found s
  | .trainEnd header record => Sys2Proof.Machine.execTrainEnd header record s
  | .pairSettle => Sys2Proof.Machine.execPairSettle s
  | .joinUnsettledTimeout => Sys2Proof.Machine.execJoinUnsettledTimeout s
  | .linkTrainStart p => Sys2Proof.Machine.execLinkTrainStart p s
  | .linkTrainSettled p rate width reversed polinv => Sys2Proof.Machine.execLinkTrainSettled p rate width reversed polinv s
  | .linkTrainTimeout p lastStep => Sys2Proof.Machine.execLinkTrainTimeout p lastStep s
  | .negReceived p m => Sys2Proof.Machine.execNegReceived p m s
  | .negAckReceived p m => Sys2Proof.Machine.execNegAckReceived p m s
  | .negTimeout p => Sys2Proof.Machine.execNegTimeout p s
  | .flitReceived p bytes => Sys2Proof.Machine.execFlitReceived p bytes s
  | .nakTimeout p => Sys2Proof.Machine.execNakTimeout p s
  | .replayTimeout p => Sys2Proof.Machine.execReplayTimeout p s
  | .laneLockLost p => Sys2Proof.Machine.execLaneLockLost p s
  | .retrainDeferEnd p => Sys2Proof.Machine.execRetrainDeferEnd p s
  | .retrainFastFail p => Sys2Proof.Machine.execRetrainFastFail p s
  | .retrainComplete p rate width => Sys2Proof.Machine.execRetrainComplete p rate width s
  | .retrainTimeout p => Sys2Proof.Machine.execRetrainTimeout p s
  | .stillReq p => Sys2Proof.Machine.execStillReq p s
  | .stillResume p => Sys2Proof.Machine.execStillResume p s
  | .stillWake p reason => Sys2Proof.Machine.execStillWake p reason s
  | .marginGo p value => Sys2Proof.Machine.execMarginGo p value s
  | .marginStop p => Sys2Proof.Machine.execMarginStop p s
  | .unknownMessage p m => Sys2Proof.Machine.execUnknownMessage p m s
  | .overrun p item => Sys2Proof.Machine.execOverrun p item s
  | .read p r => Sys2Proof.Machine.execRead p r s
  | .writeA p r => Sys2Proof.Machine.execWriteA p r s
  | .writeD p r => Sys2Proof.Machine.execWriteD p r s
  | .mwriteA p r => Sys2Proof.Machine.execMwriteA p r s
  | .mwriteD p r => Sys2Proof.Machine.execMwriteD p r s
  | .flush p r => Sys2Proof.Machine.execFlush p r s
  | .hostDataSlot p d => Sys2Proof.Machine.execHostDataSlot p d s
  | .duplicateTag p op r => Sys2Proof.Machine.execDuplicateTag p op r s
  | .pairingWindowExpired p tag => Sys2Proof.Machine.execPairingWindowExpired p tag s
  | .mgtRead p mtag addr => Sys2Proof.Machine.execMgtRead p mtag addr s
  | .mgtWrite p mtag addr data => Sys2Proof.Machine.execMgtWrite p mtag addr data s
  | .timeBeacon p sync offsetEpoch timeNs => Sys2Proof.Machine.execTimeBeacon p sync offsetEpoch timeNs s
  | .credit p m => Sys2Proof.Machine.execCredit p m s
  | .creditSend p => Sys2Proof.Machine.execCreditSend p s
  | .mergePosition found => Sys2Proof.Machine.execMergePosition found s
  | .regionEntryReloaded region readable => Sys2Proof.Machine.execRegionEntryReloaded region readable s
  | .orderAdmit => Sys2Proof.Machine.execOrderAdmit s
  | .bitmapLineFill bitmapLine => Sys2Proof.Machine.execBitmapLineFill bitmapLine s
  | .forkReplica => Sys2Proof.Machine.execForkReplica s
  | .forkNotSent => Sys2Proof.Machine.execForkNotSent s
  | .scheduleDispatch sc => Sys2Proof.Machine.execScheduleDispatch sc s
  | .scheduleCycle sc => Sys2Proof.Machine.execScheduleCycle sc s
  | .powerDownExit sc rank => Sys2Proof.Machine.execPowerDownExit sc rank s
  | .entryAged sc index => Sys2Proof.Machine.execEntryAged sc index s
  | .refreshTick sc rank die => Sys2Proof.Machine.execRefreshTick sc rank die s
  | .mr4Poll sc rank reports => Sys2Proof.Machine.execMr4Poll sc rank reports s
  | .scrubReadDue sc => Sys2Proof.Machine.execScrubReadDue sc s
  | .readDataDecode sc errors => Sys2Proof.Machine.execReadDataDecode sc errors s
  | .completionSend p => Sys2Proof.Machine.execCompletionSend p s
  | .alertNLow sc => Sys2Proof.Machine.execAlertNLow sc s
  | .alertNHigh sc => Sys2Proof.Machine.execAlertNHigh sc s
  | .alertReplayDone sc => Sys2Proof.Machine.execAlertReplayDone sc s
  | .alertFailure sc => Sys2Proof.Machine.execAlertFailure sc s
  | .bucketLeak => Sys2Proof.Machine.execBucketLeak s
  | .retireConversionDone rank => Sys2Proof.Machine.execRetireConversionDone rank s
  | .spareCopyInterval => Sys2Proof.Machine.execSpareCopyInterval s
  | .spareCopyDone => Sys2Proof.Machine.execSpareCopyDone s
  | .replicaSlot d => Sys2Proof.Machine.execReplicaSlot d s
  | .rebuildLineSlot d => Sys2Proof.Machine.execRebuildLineSlot d s
  | .repairLineSlot d => Sys2Proof.Machine.execRepairLineSlot d s
  | .mask tag byteMask => Sys2Proof.Machine.execMask tag byteMask s
  | .ackRange epoch through => Sys2Proof.Machine.execAckRange epoch through s
  | .ackLines tags => Sys2Proof.Machine.execAckLines tags s
  | .replicaRej tag form reason epoch addr => Sys2Proof.Machine.execReplicaRej tag form reason epoch addr s
  | .ackIntervalExpiry => Sys2Proof.Machine.execAckIntervalExpiry s
  | .ackLinesSend => Sys2Proof.Machine.execAckLinesSend s
  | .ackTimeout => Sys2Proof.Machine.execAckTimeout s
  | .repairReq tag epoch addr => Sys2Proof.Machine.execRepairReq tag epoch addr s
  | .repairMiss tag miss epoch addr => Sys2Proof.Machine.execRepairMiss tag miss epoch addr s
  | .repairTimeout tag => Sys2Proof.Machine.execRepairTimeout tag s
  | .plnOnT flags admitCnt lastTag stamp => Sys2Proof.Machine.execPlnOnT flags admitCnt lastTag stamp s
  | .heartbeat pstate epoch sent stamp => Sys2Proof.Machine.execHeartbeat pstate epoch sent stamp s
  | .heartbeatSend => Sys2Proof.Machine.execHeartbeatSend s
  | .heartbeatMiss => Sys2Proof.Machine.execHeartbeatMiss s
  | .handoverRequest m => Sys2Proof.Machine.execHandoverRequest m s
  | .handoverForkMark region => Sys2Proof.Machine.execHandoverForkMark region s
  | .handoverDrained m => Sys2Proof.Machine.execHandoverDrained m s
  | .handoverTaken m => Sys2Proof.Machine.execHandoverTaken m s
  | .handoverRefused m => Sys2Proof.Machine.execHandoverRefused m s
  | .handoverTimeout region => Sys2Proof.Machine.execHandoverTimeout region s
  | .soloConversionDone => Sys2Proof.Machine.execSoloConversionDone s
  | .soloHoldEnd => Sys2Proof.Machine.execSoloHoldEnd s
  | .formatRegionDone => Sys2Proof.Machine.execFormatRegionDone s
  | .rebuildCtlStartSession m => Sys2Proof.Machine.execRebuildCtlStartSession m s
  | .rebuildCtlStartGranule m => Sys2Proof.Machine.execRebuildCtlStartGranule m s
  | .rebuildCtlCursor m => Sys2Proof.Machine.execRebuildCtlCursor m s
  | .rebuildCtlDone m => Sys2Proof.Machine.execRebuildCtlDone m s
  | .rebuildCtlStop m => Sys2Proof.Machine.execRebuildCtlStop m s
  | .rebuildCtlPace m => Sys2Proof.Machine.execRebuildCtlPace m s
  | .rebuildCtlAnswer cmd m => Sys2Proof.Machine.execRebuildCtlAnswer cmd m s
  | .rebuildWaitTimeout => Sys2Proof.Machine.execRebuildWaitTimeout s
  | .directiveLull h arg => Sys2Proof.Machine.execDirectiveLull h arg s
  | .directiveQuiesce h arg => Sys2Proof.Machine.execDirectiveQuiesce h arg s
  | .directiveHandover h arg => Sys2Proof.Machine.execDirectiveHandover h arg s
  | .directiveSoloGrant h arg => Sys2Proof.Machine.execDirectiveSoloGrant h arg s
  | .directiveRebuildStart h arg => Sys2Proof.Machine.execDirectiveRebuildStart h arg s
  | .directiveRebuildStop h arg => Sys2Proof.Machine.execDirectiveRebuildStop h arg s
  | .directiveScrubRate h arg => Sys2Proof.Machine.execDirectiveScrubRate h arg s
  | .directiveCalRestore h arg => Sys2Proof.Machine.execDirectiveCalRestore h arg s
  | .directiveWallOffset h arg => Sys2Proof.Machine.execDirectiveWallOffset h arg s
  | .directiveRankRetire h arg => Sys2Proof.Machine.execDirectiveRankRetire h arg s
  | .directiveRankReadmit h arg => Sys2Proof.Machine.execDirectiveRankReadmit h arg s
  | .directiveUnknown h dcode arg => Sys2Proof.Machine.execDirectiveUnknown h dcode arg s
  | .readmitTrainingDone => Sys2Proof.Machine.execReadmitTrainingDone s
  | .lullEntryDone => Sys2Proof.Machine.execLullEntryDone s
  | .mpllLock band searched => Sys2Proof.Machine.execMpllLock band searched s
  | .exitRequest => Sys2Proof.Machine.execExitRequest s
  | .dllLock sc code err => Sys2Proof.Machine.execDllLock sc code err s
  | .dllLossOfLock sc code err => Sys2Proof.Machine.execDllLossOfLock sc code err s
  | .dllStuck sc => Sys2Proof.Machine.execDllStuck sc s
  | .dllLockRetry sc => Sys2Proof.Machine.execDllLockRetry sc s
  | .refclkLost => Sys2Proof.Machine.execRefclkLost s
  | .pllLossOfLock pll attempts => Sys2Proof.Machine.execPllLossOfLock pll attempts s
  | .emergencyRelock => Sys2Proof.Machine.execEmergencyRelock s
  | .refQualified input => Sys2Proof.Machine.execRefQualified input s
  | .emergencySecond => Sys2Proof.Machine.execEmergencySecond s
  | .calEval temps => Sys2Proof.Machine.execCalEval temps s
  | .calRunDue sc => Sys2Proof.Machine.execCalRunDue sc s
  | .calRunStart sc temp => Sys2Proof.Machine.execCalRunStart sc temp s
  | .calMeasureDone sc m => Sys2Proof.Machine.execCalMeasureDone sc m s
  | .calZqLatch sc skipped => Sys2Proof.Machine.execCalZqLatch sc skipped s
  | .breezeStep sc disagree => Sys2Proof.Machine.execBreezeStep sc disagree s
  | .calRunDone sc => Sys2Proof.Machine.execCalRunDone sc s
  | .sensorOvertemp sensor reading => Sys2Proof.Machine.execSensorOvertemp sensor reading s
  | .sensorCool => Sys2Proof.Machine.execSensorCool s
  | .syncInEdge => Sys2Proof.Machine.execSyncInEdge s
  | .holdoverStart => Sys2Proof.Machine.execHoldoverStart s
  | .eventCapture code data => Sys2Proof.Machine.execEventCapture code data s
  | .squallWindowEnd => Sys2Proof.Machine.execSquallWindowEnd s
  | .logProgramDone verified => Sys2Proof.Machine.execLogProgramDone verified s
  | .watchdogExpiry => Sys2Proof.Machine.execWatchdogExpiry s
  | .logWdtkick data => Sys2Proof.Machine.execLogWdtkick data s
  | .sbReadRegisters addr count => Sys2Proof.Machine.execSbReadRegisters addr count s
  | .sbWriteRegister addr data => Sys2Proof.Machine.execSbWriteRegister addr data s
  | .sbDirective dcode epoch arg => Sys2Proof.Machine.execSbDirective dcode epoch arg s
  | .sbFrameError e => Sys2Proof.Machine.execSbFrameError e s
  | .smbusTimeout => Sys2Proof.Machine.execSmbusTimeout s
  | .cccEntdaa da => Sys2Proof.Machine.execCccEntdaa da s
  | .cccSetdasa da => Sys2Proof.Machine.execCccSetdasa da s
  | .cccSetnewda da => Sys2Proof.Machine.execCccSetnewda da s
  | .cccRstdaa => Sys2Proof.Machine.execCccRstdaa s
  | .cccEnec => Sys2Proof.Machine.execCccEnec s
  | .cccDisec => Sys2Proof.Machine.execCccDisec s
  | .cccGetpid => Sys2Proof.Machine.execCccGetpid s
  | .cccGetbcr => Sys2Proof.Machine.execCccGetbcr s
  | .cccGetdcr => Sys2Proof.Machine.execCccGetdcr s
  | .cccGetstatus => Sys2Proof.Machine.execCccGetstatus s
  | .cccGetmwl => Sys2Proof.Machine.execCccGetmwl s
  | .cccGetmrl => Sys2Proof.Machine.execCccGetmrl s
  | .cccSetmwl len => Sys2Proof.Machine.execCccSetmwl len s
  | .cccSetmrl len => Sys2Proof.Machine.execCccSetmrl len s
  | .cccRstact action => Sys2Proof.Machine.execCccRstact action s
  | .flashRead path => Sys2Proof.Machine.execFlashRead path s
  | .flashProgram path => Sys2Proof.Machine.execFlashProgram path s
  | .flashErase path => Sys2Proof.Machine.execFlashErase path s
  | .flashSetPreference path => Sys2Proof.Machine.execFlashSetPreference path s
  | .flashUnknownCommand path code => Sys2Proof.Machine.execFlashUnknownCommand path code s
  | .flashCommandDone ok => Sys2Proof.Machine.execFlashCommandDone ok s
  | .cipherEncrypt slot dest => Sys2Proof.Machine.execCipherEncrypt slot dest s
  | .cipherDecrypt slot dest => Sys2Proof.Machine.execCipherDecrypt slot dest s
  | .cipherDone => Sys2Proof.Machine.execCipherDone s
  | .ordStrrec0Read path => Sys2Proof.Machine.execOrdStrrec0Read path s
  | .ordFrontLoRead path => Sys2Proof.Machine.execOrdFrontLoRead path s
  | .timNowLoRead path => Sys2Proof.Machine.execTimNowLoRead path s
  | .timOffsetLoRead path => Sys2Proof.Machine.execTimOffsetLoRead path s
  | .pwrSnapstampLoRead path => Sys2Proof.Machine.execPwrSnapstampLoRead path s
  | .mgtDieidLoRead path => Sys2Proof.Machine.execMgtDieidLoRead path s
  | .dphEyeaRead path sc => Sys2Proof.Machine.execDphEyeaRead path sc s
  | .eccSealfailRead path => Sys2Proof.Machine.execEccSealfailRead path s
  | .logSbrec0Read path => Sys2Proof.Machine.execLogSbrec0Read path s
  | .rcFieldRead path addr => Sys2Proof.Machine.execRcFieldRead path addr s
  | .calRecselWrite path data => Sys2Proof.Machine.execCalRecselWrite path data s
  | .calCaptureDone => Sys2Proof.Machine.execCalCaptureDone s
  | .ordStrselWrite path data => Sys2Proof.Machine.execOrdStrselWrite path data s
  | .dphEyeselWrite path sc data => Sys2Proof.Machine.execDphEyeselWrite path sc data s
  | .registerWrite path addr data => Sys2Proof.Machine.execRegisterWrite path addr data s
  | .flitTransmit p => Sys2Proof.Machine.execFlitTransmit p s
  | .excursionStart input => Sys2Proof.Machine.execExcursionStart input s
  | .railBackInWindow input => Sys2Proof.Machine.execRailBackInWindow input s
  | .holdEnLow => Sys2Proof.Machine.execHoldEnLow s
  | .bypclkLost => Sys2Proof.Machine.execBypclkLost s
  | .srMinElapsed => Sys2Proof.Machine.execSrMinElapsed s
  | .pllLockQualified => Sys2Proof.Machine.execPllLockQualified s
  | .timebaseBit20Change => Sys2Proof.Machine.execTimebaseBit20Change s

end Sys2Proof.Machine
end

