-- ==== Sys2Proof/Machine/Step.lean ====
section
/-!
DEFINITION. One step of the block: the command at the front of the queue runs; on an empty queue an access that
waits is served, or the next item of the receive crossings is taken, or else one tick goes by.
-/

namespace Sys2Proof.Machine

/-- What a step does with no command waiting. DESIGN CHOICE, log entries 6 and 48. -/
def State.idle (s : State) : Host.Outcome State Fault Refusal :=
  match s.serveNext with
  | some t => .next t
  | none =>
    match s.rx with
    | .cmd _ c :: r => exec c { s with rx := r }
    | .flitEnd p :: r => .next (({ s with rx := r }).flitEnded p)
    | [] => .next s.tick

/-- One step. DESIGN CHOICE, log entries 6 and 7. -/
def step (s : State) : Host.Outcome State Fault Refusal :=
  match s.pending with
  | c :: r => exec c { s with pending := r }
  | [] => s.idle

/-- The state with the command that a word spells at the front of its queue. DESIGN CHOICE, log entry 7. -/
def State.withFetchWord (s : State) (nbits w : Nat) : State :=
  match decodeTableWord nbits w with
  | some c => { s with pending := c :: s.pending }
  | none => s

end Sys2Proof.Machine
end

