-- ==== Sys2Proof/Safety.lean ====
section
/-!
DEFINITION. The terms claims about the hub are stated in: which parts of the state a command may change, and the canonical form
of the tables that hold its registers, its ports and its memories.
-/

namespace Sys2Proof.Machine

/-- The registers, the ports, the CFG flash and the DRAM are held in canonical form: keys strictly rising and nothing listed that
an unlisted key reads as. DESIGN CHOICE, log entry 44. -/
def State.canon (s : State) : Prop :=
  Tab.wf regReset s.regs = true ∧ Tab.wf (fun _ => ({} : LinkSt)) s.links = true ∧
  Tab.wf (fun _ => (0xFF : Byte)) s.flash = true ∧ Tab.wf (blankSymbol s.fmt) s.dram = true

/-- A part of the state: a field of it, the registers of one block of the register map (R528), or one register. -/
inductive Part where
  | pending | rx | free | top | regs | time | log | sb | links | twin | ord | map | mir
  | sch | flt | cal | clk | vbat | pwr | gust | fuse | cfgStore | boot | flash | fmt | dram
  | block (b : Nat) | reg (a : Nat)
  deriving DecidableEq, Repr

/-- Where `t` differs from `s`, it is not in this part. -/
def Part.same (s t : State) : Part → Prop
  | .pending => t.pending = s.pending
  | .rx => t.rx = s.rx
  | .free => t.free = s.free
  | .top => t.top = s.top
  | .regs => t.regs = s.regs
  | .time => t.time = s.time
  | .log => t.log = s.log
  | .sb => t.sb = s.sb
  | .links => t.links = s.links
  | .twin => t.twin = s.twin
  | .ord => t.ord = s.ord
  | .map => t.map = s.map
  | .mir => t.mir = s.mir
  | .sch => t.sch = s.sch
  | .flt => t.flt = s.flt
  | .cal => t.cal = s.cal
  | .clk => t.clk = s.clk
  | .vbat => t.vbat = s.vbat
  | .pwr => t.pwr = s.pwr
  | .gust => t.gust = s.gust
  | .fuse => t.fuse = s.fuse
  | .cfgStore => t.cfgStore = s.cfgStore
  | .boot => t.boot = s.boot
  | .flash => t.flash = s.flash
  | .fmt => t.fmt = s.fmt
  | .dram => t.dram = s.dram
  | .block b => ∀ a, a >>> 16 = b → t.reg a = s.reg a
  | .reg a => t.reg a = s.reg a

/-- A change of part `q` can show in part `p`. -/
def Part.covers (q p : Part) : Bool :=
  match q, p with
  | .regs, .block _ => true
  | .regs, .reg _ => true
  | .block _, .regs => true
  | .reg _, .regs => true
  | .block b, .reg a => a >>> 16 == b
  | .reg a, .block b => a >>> 16 == b
  | q, p => decide (q = p)

/-- Everything that a change of the parts in `P` cannot show in is as it was. -/
def SameBut (P : List Part) (s t : State) : Prop := ∀ p, P.any (Part.covers · p) = false → Part.same s t p

/-- From `s` to `t` only the parts in `P` change, and the canonical form is kept. -/
def Keeps (P : List Part) (s t : State) : Prop := s.canon → t.canon ∧ SameBut P s t

/-- The parts that the capture of an event may change (R499 to R506, R524): the ring, an IBI, and the registers that count events
or show that a directive has ended. -/
def logParts : List Part :=
  [.log, .sb, .reg Reg.GLB_EVENT, .reg Reg.GLB_DIRSTAT, .reg Reg.LOG_RINGSTAT, .reg Reg.LOG_CAPTURED,
   .reg Reg.LOG_COALESCED, .reg Reg.LOG_LOST, .reg Reg.LOG_ORPHANS, .reg Reg.LOG_SQUALLS]

/-- The parts that a link's fall to `DOWN` may change (R66). -/
def linkDownParts : List Part :=
  [.rx, .log, .sb, .links, .twin, .ord, .map, .mir, .sch, .reg Reg.GLB_HUBID, .reg Reg.GLB_EVENT, .reg Reg.GLB_DIRSTAT,
   .block 0x1, .reg Reg.ORD_FWD, .reg Reg.ORD_LINEHOLD, .reg Reg.ORD_FLUSHES, .reg Reg.MIR_CAUSE, .reg Reg.MIR_PENDOCC,
   .reg Reg.MIR_FWDMISS, .reg Reg.MIR_HOSTAT, .reg Reg.MIR_HOCNT, .reg Reg.ECC_SEALFAIL, .reg Reg.ECC_FIRSTFAIL,
   .reg Reg.ECC_REPAIR, .reg Reg.LOG_RINGSTAT, .reg Reg.LOG_CAPTURED, .reg Reg.LOG_COALESCED, .reg Reg.LOG_LOST,
   .reg Reg.LOG_ORPHANS, .reg Reg.LOG_SQUALLS]

/-- The parts that entering a top-level state may change (R23). -/
def transitParts : List Part :=
  [.rx, .top, .log, .sb, .links, .twin, .ord, .map, .mir, .sch, .flt, .cal, .pwr, .boot, .reg Reg.GLB_HUBID,
   .reg Reg.GLB_EVENT, .reg Reg.GLB_DIRSTAT, .reg Reg.GLB_QUIESCE, .block 0x1, .reg Reg.ORD_FWD, .reg Reg.ORD_LINEHOLD,
   .reg Reg.ORD_FLUSHES, .reg Reg.MIR_CAUSE, .reg Reg.MIR_PENDOCC, .reg Reg.MIR_FWDMISS, .reg Reg.MIR_HOSTAT,
   .reg Reg.MIR_HOCNT, .reg Reg.DPH_RETSTAT, .reg Reg.ECC_SEALFAIL, .reg Reg.ECC_FIRSTFAIL, .reg Reg.ECC_REPAIR,
   .reg Reg.LOG_RINGSTAT, .reg Reg.LOG_CAPTURED, .reg Reg.LOG_COALESCED, .reg Reg.LOG_LOST, .reg Reg.LOG_ORPHANS,
   .reg Reg.LOG_SQUALLS]

/-- In state `s` the command completes: it leads to a next state that meets `E` and differs from `s` in the parts `P` alone. -/
def Runs (s : State) (c : Instr) (P : List Part) (E : State → Prop) : Prop :=
  ∃ t, exec c s = .next t ∧ SameBut P s t ∧ E t

/-- The event ring takes a captured event without loss or coalescing: the AON domain is on, Squall is not in force, and neither
the ring nor a reader is near a limit (R502 to R505). No event has been captured in this tick yet. -/
def Attentive (s : State) : Prop :=
  s.top.aonOn = true ∧ s.log.squall = false ∧ s.log.ring.length < 760 ∧ s.log.rdLog ≤ s.log.ring.length ∧
    ∀ e ∈ s.log.ring, e.stamp ≠ s.stamp

/-- The event ring holds an entry of this tick with this code and `DATA`, which the log writer has still to write. -/
def Logged (code : BitVec 16) (data : Word) (t : State) : Prop :=
  ∃ e ∈ t.log.ring.drop t.log.rdLog, e.code = code ∧ e.data = data ∧ e.stamp = t.stamp

/-! ### Terms the obligations are stated in -/

/-- A register access gets in on its path: a U-port that carries traffic, with an MG credit and
a free tag (R83, R88, R89), the sideband where the registers answer on it (R8, R513), or the core with its domain on
(R526). -/
def State.pathOpen (s : State) : AccPath → Bool
  | .mgt p mtag =>
    !p.isT && (s.link p).up && (s.link p).granted.mg != 0 && !(s.link p).mtags.contains mtag
  | .sideband => s.sbAnswers
  | .core => s.top.coreOn

/-- A register access is served at once: it gets in on its path, and nothing of a higher place, nor anything that waits there, goes
first (R518). -/
def State.accessOpen (s : State) (path : AccPath) : Bool := s.pathOpen path && !s.portBusy path

/-- The last answer a write has been given on its path is this status (R90, R516). -/
def WriteAnswered (path : AccPath) (status : Byte) (t : State) : Prop :=
  match path with
  | .mgt p mtag => (t.link p).tx.getLast? = some (.msg (mkCplMgt mtag status.toNat 0))
  | .sideband => t.sb.answer = [status]
  | .core => t.boot.answer = status

/-- The last answer a read has been given on its path is this status with this value. -/
def ReadAnswered (path : AccPath) (status : Byte) (data : Word) (t : State) : Prop :=
  match path with
  | .mgt p mtag => (t.link p).tx.getLast? = some (.msg (mkCplMgt mtag status.toNat data))
  | .sideband => t.sb.answer = status :: leBytes data.toNat 4
  | .core => t.boot.answer = status ∧ t.boot.data = data

/-- The parts that giving an answer on a path may change. -/
def pathParts : List Part := [.sb, .links, .boot]

/-- A counting register has counted one more, and stays at its highest value (R4). -/
def Counted (a : Nat) (s t : State) : Prop := t.fld ⟨a, 31, 0⟩ = min 0xFFFFFFFF (s.fld ⟨a, 31, 0⟩ + 1)

/-- The event ring holds an unwritten entry of this tick with this code; its `DATA` is a value the manual leaves open. -/
def LoggedFree (code : BitVec 16) (t : State) : Prop := ∃ e ∈ t.log.ring.drop t.log.rdLog, e.code = code ∧ e.stamp = t.stamp

/-- A U-port takes a host request into its lane queue: credited, its tag free and met by no waiting half, and well formed
(R78, R79, R82, R108). -/
def State.takesHost (s : State) (p : Port) (op : HostOp) (r : HostReq) : Bool :=
  !p.isT && (s.link p).lstate == .service && (s.link p).granted.covers (opCost op) && !(s.link p).tags.contains r.tag &&
    !s.malformed p op r && !(s.link p).halves.any fun h => h.tag == r.tag

/-- The request stands last in its port's lane queue, its credits are spent and its tag is in use; no other port changes. -/
def HostQueued (p : Port) (op : HostOp) (r : HostReq) (s t : State) : Prop :=
  t.link p = { s.link p with
    granted := (s.link p).granted.spend (opCost op), nextReq := (s.link p).nextReq + 1, adm := (s.link p).adm.push r.tag,
    tags := (s.link p).tags ++ [r.tag],
    lane := (s.link p).lane ++ [{ kind := .host op, tag := r.tag, acc := r.acc, stream := r.stream, addr := r.addr,
                                  reqNo := (s.link p).nextReq, verdict := s.verdict }] } ∧
  ∀ q, q ≠ p → t.link q = s.link q

/-- A loss of the pair has been recorded (R198): the first cause stands in `MIR_CAUSE`, with its event. -/
def CauseTaken (code : Nat) (s t : State) : Prop :=
  t.fld Fld.MIR_CAUSE.FIRST = code ∧ (Attentive s → Logged 0x4010 (BitVec.ofNat 32 code) t)

/-- The hub is paired, no cause stands, no handover runs, and no event of a higher place comes in the same core cycle (R25). -/
def State.steady (s : State) : Bool :=
  s.pairState == .paired && !s.causeStands && s.mir.handovers.isEmpty && !s.outranked 6

/-- A word is queued for T. -/
def SentOnT (m : Msg) (s t : State) : Prop := (t.link .t).tx = (s.link .t).tx ++ [.msg m]

/-- A directive of this number commits: its message is taken and every check of R91 and R537 lets it through. -/
def State.commits (s : State) (h : DirHead) (d : Nat) (arg : BitVec 64) : Bool :=
  s.pathOpen (.mgt h.port h.mtag) && !s.triggered && !(s.fld Fld.GLB_DIRSTAT.BUSY).testBit d &&
    (arg.toNat &&& argMask d == arg.toNat) && s.dirPre d arg.toNat && (!isMembership d || s.witnessOn h.port) &&
    (!carriesEpoch d || h.epoch == s.mir.epoch)

/-- A directive has been answered on its port, and recorded (R538). -/
def DirAnswered (h : DirHead) (d : Nat) (status : Byte) (data : Word) (t : State) : Prop :=
  (t.link h.port).tx.getLast? = some (.msg (mkCplMgt h.mtag status.toNat data)) ∧
  t.fld Fld.GLB_DIRSTAT.LAST_DCODE = d ∧ t.fld Fld.GLB_DIRSTAT.LAST_STATUS = status.toNat ∧
  t.fld Fld.GLB_DIRSTAT.LAST_PATH = h.port.idx

/-- The state once a message has been taken on a path: a management message has spent its credit and holds its tag. -/
def State.onPath (s : State) : AccPath → State
  | .mgt p mtag =>
    s.onLink p fun l => { l with granted := { l.granted with mg := l.granted.mg - 1 }, mtags := l.mtags ++ [mtag] }
  | _ => s

/-- A read of the register latches nothing beside it and changes nothing in it (R5). -/
def latches (a : Nat) : Bool :=
  [Reg.ORD_STRREC0, Reg.ORD_FRONT_LO, Reg.TIM_NOW_LO, Reg.TIM_OFFSET_LO, Reg.PWR_SNAPSTAMP_LO, Reg.MGT_DIEID_LO,
    Reg.ECC_SEALFAIL, Reg.LOG_SBREC0, Reg.LOG_WDTKICK].contains a || (decide (a >>> 16 = 6) && decide (a % 0x1000 = 0x014))

/-- Fields that a read clears (R5). -/
def readClears (a : Nat) : Word := (regRow a).elim 0 (·.rc)

/-- A write of the register does nothing beside it. -/
def startsWork (a : Nat) : Bool :=
  [Reg.GLB_BOOTREL, Reg.GLB_FAULTREL, Reg.ORD_STRSEL, Reg.CAL_RECSEL, Reg.MGT_FLCMD, Reg.MGT_CIPHCTL, Reg.LOG_SBCFG,
    Reg.LOG_WDTKICK].contains a || (decide (a >>> 16 = 6) && decide (a % 0x1000 = 0x010)) ||
    (decide (a >>> 16 = 1) && decide (a % 0x1000 = 0x040))

/-- The bits a write to the register reaches, those that must be written 0, and those that clear where 1 is written (R5, R7). -/
def State.reach (s : State) (a : Nat) : Word × Word × Word :=
  match regRow a with
  | some r => ((s.writeMasks r).1, (s.writeMasks r).2, r.w1c)
  | none => (0, 0, 0)

/-- An access that is turned away or refused is recorded (R528). -/
def AccessNoted (path : AccPath) (status : Byte) (a : Nat) (s t : State) : Prop :=
  t.reg Reg.GLB_ACCERR = BitVec.ofNat 32 ((pathCode path <<< 29) + ((status.toNat % 32) <<< 24) + a) ∧
  Counted Reg.GLB_ACCCNT s t ∧ t.flag Fld.GLB_EVENT.ACCERR = true

/-- An access does not even reach the hub on its path: a U-port that takes no message, the sideband where no register
answers, or the core domain off. -/
def State.pathShut (s : State) : AccPath → Bool
  | .mgt p _ => p.isT || !(s.link p).takes
  | .sideband => !s.sbAnswers
  | .core => !s.top.coreOn

/-- The directive with this number, as the command of the table (R90, R537). -/
def directiveCommand (h : DirHead) (d : Byte) (arg : BitVec 64) : Instr :=
  match d.toNat with
  | 1 => .directiveLull h arg
  | 2 => .directiveQuiesce h arg
  | 3 => .directiveHandover h arg
  | 4 => .directiveSoloGrant h arg
  | 5 => .directiveRebuildStart h arg
  | 6 => .directiveRebuildStop h arg
  | 7 => .directiveScrubRate h arg
  | 8 => .directiveCalRestore h arg
  | 9 => .directiveWallOffset h arg
  | 10 => .directiveRankRetire h arg
  | 11 => .directiveRankReadmit h arg
  | _ => .directiveUnknown h d arg

/-- Check 2 of R91: a membership directive comes from the witness (R11). -/
def State.fromWitness (s : State) (h : DirHead) (d : Byte) : Bool := !isMembership d.toNat || s.witnessOn h.port

/-- Check 3 of R91: the epoch is current, where the directive carries one. -/
def State.epochCurrent (s : State) (h : DirHead) (d : Byte) : Bool := !carriesEpoch d.toNat || h.epoch == s.mir.epoch

/-- Check 6 of R91: the directive's precondition (R537), and no argument bit set that it does not define. -/
def State.preHolds (s : State) (d : Byte) (arg : BitVec 64) : Bool :=
  arg.toNat &&& argMask d.toNat == arg.toNat && s.dirPre d.toNat arg.toNat

/-- The last word queued on the port is the answer to this management tag, with this status. -/
def MgtAnswered (p : Port) (mtag : BitVec 4) (status : Byte) (t : State) : Prop :=
  ∃ data : Word, (t.link p).tx.getLast? = some (.msg (mkCplMgt mtag status.toNat data))

/-- A directive has been answered on the sideband (R516), and recorded (R538). -/
def SbDirAnswered (d : Nat) (status : Byte) (data : Word) (t : State) : Prop :=
  t.sb.answer = status :: leBytes data.toNat 4 ∧ t.fld Fld.GLB_DIRSTAT.LAST_DCODE = d ∧
  t.fld Fld.GLB_DIRSTAT.LAST_STATUS = status.toNat ∧ t.fld Fld.GLB_DIRSTAT.LAST_PATH = 4

/-- The registers of the AON and the VBAT domain outside the list read as before (R526). -/
def AonKept (L : List Nat) (s t : State) : Prop := ∀ a, aonReg a = true → a ∉ L → t.reg a = s.reg a

/-- The parts that a change of the top-level state touches where no link falls with it and nothing else begins (R23, R532). -/
def stateParts : List Part := .top :: logParts

/-- The same where the links fall to `DOWN` with it (R64). -/
def fallParts : List Part := .top :: linkDownParts

/-- The registers outside those that `f` tells and those of the list read as before. -/
def RegsBut (f : Nat → Bool) (L : List Nat) (s t : State) : Prop := ∀ a, f a = false → a ∉ L → t.reg a = s.reg a

/-- A sub-channel has no work but what its store holds, and no background work of this tick touches it (R237, R306). -/
def State.quietSub (s : State) (n : Nat) : Bool :=
  s.ord.undisp.isEmpty && (s.sub n).intake.isEmpty && (s.sub n).maint.isEmpty && (s.sub n).corr.isEmpty && s.mir.copies.isEmpty &&
    s.mir.rb != .formatting && !s.flt.ending && !s.mayStep n

/-- Every bit of nibble `k` had shadows in the run, and all that they were to visit is measured (R301, R304). -/
def State.nibbleMeasured (s : State) (r : CalRun) (m : CalMeas) (k : Nat) : Bool :=
  (List.range 4).all fun i => r.shadows.getD (4 * k + i) {} != {} &&
    m.bits[4 * k + i]?.any fun y => s.measuredBit r.refs (r.shadows.getD (4 * k + i) {}) y

/-- What bit `i` of nibble `k` gives (R300). -/
def State.nibbleResult (s : State) (p : Nat) (r : CalRun) (m : CalMeas) (k i : Nat) : Option BitResult :=
  (m.bits[4 * k + i]?).bind fun y => s.bitResult (s.live p) (4 * k + i) (r.shadows.getD (4 * k + i) {}) y

/-- The first check of R305 that nibble `k` fails, or 0. -/
def State.nibbleCheck (s : State) (p : Nat) (r : CalRun) (m : CalMeas) (k : Nat) : Nat :=
  s.plausible (s.live p) k ((List.range 4).map fun i => s.nibbleResult p r m k i)
    (((m.rcvEn[k]?).bind id).filter fun v =>
      decide (((v.toNat : Int) - ((elRcvEn k).get (s.live p) : Nat)).natAbs ≤ s.fld Fld.CAL_MEAS.EDGE_WIN))

/-- The timebase moved on by one of its ticks: 2.5 ns of MGCLK or 100 ns of the AON clock, with the correction in force (R490, R495). -/
def State.movedTb (s : State) : Nat :=
  let nominal : Int := if s.mgTicks then 10737418240 else 429496729600
  s.time.tb + (nominal * (100000000 + s.rate) / 100000000).toNat

/-- The timebase after the core cycle (R29, R490). -/
def State.tickedTb (s : State) : Nat :=
  if (s.time.cycle + 1) % (if s.mgTicks then 4 else 160) = 0 then s.movedTb else s.time.tb

/-- The clock unit after the core cycle: every fourth is a tick of MGCLK, and every sixteenth of those one of the accumulator of
`MEMLOCK` (R390). -/
def State.tickedClk (s : State) : ClkSt :=
  let c := { s.clk with exitSeen := false }
  if (s.time.cycle + 1) % 4 ≠ 0 then c
  else
    let n := c.memTick + 1
    let a := c.memAcc + s.memNum
    let d := s.memDenom
    if n % 16 ≠ 0 then { c with memTick := n % 16 }
    else { c with memTick := 0, memPin := decide (a ≥ d), memAcc := if a ≥ d then a - d else a }

end Sys2Proof.Machine

namespace Sys2Proof

open Machine

/-- The parts of the state that a command may change, in whatever state it comes. -/
def Instr.mayChange : Instr → List Part
  | .vbatApplied => (transitParts ++ [.vbat, .reg Reg.PWR_FAULTS])
  | .vbatRemoved => (transitParts ++ [.vbat, .reg Reg.PWR_FAULTS])
  | .allSourcesLost => [.rx, .free, .top, .time, .log, .sb, .links, .twin, .ord, .map, .mir, .sch, .flt, .cal, .clk,
      .vbat, .pwr, .gust, .fuse, .cfgStore, .boot, .flash, .fmt, .dram, .regs]
  | .aonDomainStart _ _ _ => [.rx, .free, .top, .time, .log, .sb, .links, .twin, .ord, .map, .mir, .sch, .flt, .cal, .clk,
      .vbat, .pwr, .gust, .fuse, .cfgStore, .boot, .flash, .fmt, .dram, .regs]
  | .aonDomainStop => [.rx, .free, .top, .time, .log, .sb, .links, .twin, .ord, .map, .mir, .sch, .flt, .cal, .clk, .vbat,
      .pwr, .gust, .fuse, .cfgStore, .boot, .flash, .fmt, .dram, .regs]
  | .vbatSwitchover _ => [.vbat, .reg Reg.PWR_FAULTS]
  | .feedEntersWindow _ => (transitParts ++ [.reg Reg.PWR_FEEDSTAT])
  | .feedQualified _ => (transitParts ++ [.gust, .reg Reg.MAP_USE, .reg Reg.MAP_TBLSRC, .block 0x8, .reg Reg.PWR_SEQSTAT,
      .reg Reg.PWR_FEEDSTAT, .reg Reg.PWR_HOLD, .reg Reg.PWR_CONTENTS, .reg Reg.PWR_GAUGEDIS, .reg Reg.MGT_BOOTSTAT,
      .reg Reg.MGT_CIPHCTL])
  | .feedOutOfWindow _ => [.rx, .free, .top, .log, .sb, .links, .twin, .ord, .map, .mir, .sch, .flt, .cal, .clk, .vbat,
      .pwr, .gust, .fuse, .boot, .flash, .fmt, .dram, .regs]
  | .veerOldGateOff => [.pwr, .reg Reg.PWR_FEEDSTAT]
  | .veerReturn => (logParts ++ [.pwr, .reg Reg.PWR_FEEDSTAT, .reg Reg.PWR_VEERS])
  | .plwNAssert _ => [.pwr, .reg Reg.PWR_FEEDSTAT]
  | .plwNRelease _ => [.pwr, .reg Reg.PWR_FEEDSTAT, .reg Reg.PWR_PLWDISC]
  | .plwDiscrepancyTimeout => (logParts ++ [.pwr, .reg Reg.PWR_PLWDISC])
  | .powerLossTrigger => [.rx, .free, .top, .log, .sb, .links, .twin, .ord, .map, .mir, .sch, .flt, .cal, .clk, .vbat,
      .pwr, .gust, .fuse, .boot, .flash, .fmt, .dram, .regs]
  | .gustWritesDrained => [.gust]
  | .gustJournalWritten => (logParts ++ [.gust, .dram, .reg Reg.ECC_SEALFAIL, .reg Reg.ECC_FIRSTFAIL])
  | .gustHeaderWritten => [.gust, .dram, .reg Reg.PWR_GUSTSTAT]
  | .gustSelfRefresh => [.rx, .free, .top, .log, .sb, .links, .twin, .ord, .map, .mir, .sch, .flt, .cal, .clk, .pwr,
      .gust, .fuse, .boot, .flash, .fmt, .dram, .regs]
  | .calmEntry => [.rx, .free, .top, .log, .sb, .links, .twin, .ord, .map, .mir, .sch, .flt, .cal, .clk, .pwr, .gust,
      .boot, .flash, .regs]
  | .calmFalseWarning => (transitParts ++ [.gust, .reg Reg.PWR_SEQSTAT, .reg Reg.PWR_HOLD, .reg Reg.PWR_CONTENTS,
      .reg Reg.PWR_FALSEGUST, .reg Reg.PWR_GAUGEDIS])
  | .vbbuCutoff => [.rx, .free, .top, .log, .sb, .links, .twin, .ord, .map, .mir, .sch, .flt, .cal, .clk, .vbat, .pwr,
      .gust, .fuse, .boot, .flash, .fmt, .dram, .regs]
  | .gaugePoll _ => (logParts ++ [.links, .ord, .pwr, .reg Reg.ORD_FLUSHES, .reg Reg.PWR_HOLD, .reg Reg.PWR_GAUGE,
      .reg Reg.PWR_GAUGEVS, .reg Reg.PWR_GAUGECUR])
  | .holdupReadyChange _ => (logParts ++ [.links, .ord, .reg Reg.ORD_FLUSHES, .reg Reg.PWR_HOLD])
  | .restoreDramDone => (transitParts ++ [.free, .vbat, .gust, .block 0x8, .reg Reg.PWR_HOLD, .reg Reg.PWR_CONTENTS,
      .reg Reg.MGT_BOOTSTAT])
  | .journalReplayDone => (transitParts ++ [.gust, .reg Reg.MAP_USE, .reg Reg.MAP_TBLSRC, .block 0x8,
      .reg Reg.PWR_CONTENTS, .reg Reg.MGT_BOOTSTAT, .reg Reg.MGT_CIPHCTL])
  | .restoreComplete => (transitParts ++ [.gust])
  | .startRowDelayEnd => [.pwr, .reg Reg.PWR_RAILSTAT, .reg Reg.PWR_SEQSTAT]
  | .railArmed _ => [.pwr, .reg Reg.PWR_RAILSTAT, .reg Reg.PWR_SEQSTAT]
  | .railStartTimeout _ => [.rx, .free, .top, .log, .sb, .links, .twin, .ord, .map, .mir, .sch, .flt, .cal, .clk, .vbat,
      .pwr, .gust, .boot, .flash, .fmt, .dram, .regs]
  | .resetStretchEnd _ => [.pwr, .reg Reg.PWR_SEQSTAT]
  | .startSectionComplete _ => (transitParts ++ [.free, .time, .clk, .gust, .fmt, .dram, .block 0x5, .block 0x6,
      .block 0x7, .block 0x9, .reg Reg.PWR_SEQSTAT])
  | .shutdownRowDone _ => [.rx, .free, .top, .log, .sb, .links, .twin, .ord, .map, .mir, .sch, .flt, .cal, .clk, .pwr,
      .gust, .fuse, .boot, .flash, .fmt, .dram, .regs]
  | .railOutOfWindow _ _ => [.rx, .free, .top, .log, .sb, .links, .twin, .ord, .map, .mir, .sch, .flt, .cal, .clk, .vbat,
      .pwr, .gust, .boot, .flash, .fmt, .dram, .regs]
  | .adcConversion _ _ => (logParts ++ [.links, .ord, .reg Reg.ORD_FLUSHES, .block 0xA])
  | .bootRelease _ _ => [.rx, .free, .top, .log, .sb, .links, .twin, .ord, .map, .mir, .sch, .flt, .cal, .pwr, .boot,
      .regs]
  | .bootReleaseChecked _ => [.rx, .top, .log, .sb, .links, .twin, .ord, .map, .mir, .sch, .flt, .cal, .pwr, .gust, .boot,
      .flash, .regs]
  | .faultRelease _ _ => [.rx, .free, .top, .log, .sb, .links, .twin, .ord, .map, .mir, .sch, .flt, .cal, .pwr, .boot,
      .regs]
  | .coreRelease _ => [.free, .time, .log, .sb, .vbat, .fuse, .cfgStore, .boot, .flash, .regs]
  | .bootComplete _ => (transitParts ++ [.free, .clk, .vbat, .gust, .flash, .reg Reg.MAP_CAP, .block 0x5, .block 0x9,
      .reg Reg.PWR_SEQSTAT, .reg Reg.PWR_HOLD, .reg Reg.PWR_CONTENTS, .reg Reg.MGT_BOOTSTAT, .reg Reg.LOG_PTR,
      .reg Reg.LOG_LSN, .reg Reg.LOG_SKIPS])
  | .coreReset => [.rx, .free, .top, .time, .log, .sb, .links, .twin, .ord, .map, .mir, .sch, .flt, .cal, .vbat, .pwr,
      .gust, .boot, .flash, .regs]
  | .rollbackAdvance _ => (logParts ++ [.free, .fuse, .boot, .reg Reg.MGT_ROLLBACK])
  | .directoryMarkGood => [.flash]
  | .trainStepDone _ _ _ => (logParts ++ [.free, .links, .twin, .ord, .mir, .sch, .flt, .cal, .reg Reg.ORD_FWD,
      .reg Reg.ORD_LINEHOLD, .block 0x6, .block 0x7, .reg Reg.ECC_SEALFAIL, .reg Reg.ECC_FIRSTFAIL])
  | .trainEnd _ _ => (transitParts ++ [.vbat, .gust, .fmt, .dram, .reg Reg.MAP_USE, .reg Reg.MAP_TBLSRC,
      .reg Reg.PWR_HOLD, .reg Reg.MGT_BOOTSTAT])
  | .pairSettle => (transitParts ++ [.reg Reg.MAP_REJ, .reg Reg.MIR_RBCUR])
  | .joinUnsettledTimeout => logParts
  | .linkTrainStart _ => [.links]
  | .linkTrainSettled _ _ _ _ _ => [.links, .twin, .block 0x1]
  | .linkTrainTimeout _ _ => linkDownParts
  | .negReceived _ _ => (logParts ++ [.free, .links, .block 0x1])
  | .negAckReceived _ _ => (linkDownParts ++ [.free])
  | .negTimeout _ => (linkDownParts ++ [.free])
  | .flitReceived _ _ => (logParts ++ [.rx, .links, .twin, .ord, .map, .mir, .sch, .block 0x1, .reg Reg.ORD_FWD,
      .reg Reg.ORD_LINEHOLD, .reg Reg.ORD_FLUSHES, .reg Reg.MIR_CAUSE, .reg Reg.MIR_PENDOCC, .reg Reg.MIR_HOSTAT,
      .reg Reg.MIR_HOCNT, .reg Reg.ECC_SEALFAIL, .reg Reg.ECC_FIRSTFAIL])
  | .nakTimeout _ => [.links]
  | .replayTimeout _ => [.links, .block 0x1]
  | .laneLockLost _ => [.links, .block 0x1]
  | .retrainDeferEnd _ => [.links, .block 0x1]
  | .retrainFastFail _ => [.links]
  | .retrainComplete _ _ _ => [.links, .block 0x1]
  | .retrainTimeout _ => linkDownParts
  | .stillReq _ => [.links, .block 0x1]
  | .stillResume _ => [.links, .block 0x1]
  | .stillWake _ _ => [.links, .block 0x1]
  | .marginGo _ _ => [.links, .block 0x1]
  | .marginStop _ => [.block 0x1]
  | .unknownMessage _ _ => (logParts ++ [.free, .block 0x1])
  | .overrun _ _ => (logParts ++ [.free, .links, .twin, .ord, .mir, .sch, .block 0x1, .reg Reg.ORD_FWD,
      .reg Reg.ORD_LINEHOLD, .reg Reg.MIR_RBCUR, .reg Reg.ECC_SEALFAIL, .reg Reg.ECC_FIRSTFAIL])
  | .read _ _ => (logParts ++ [.free, .links, .twin, .ord, .mir, .sch, .block 0x1, .reg Reg.ORD_FWD,
      .reg Reg.ORD_LINEHOLD, .reg Reg.MIR_RBCUR, .reg Reg.ECC_SEALFAIL, .reg Reg.ECC_FIRSTFAIL])
  | .writeA _ _ => (logParts ++ [.free, .links, .twin, .ord, .mir, .sch, .block 0x1, .reg Reg.ORD_FWD,
      .reg Reg.ORD_LINEHOLD, .reg Reg.MIR_RBCUR, .reg Reg.ECC_SEALFAIL, .reg Reg.ECC_FIRSTFAIL])
  | .writeD _ _ => (logParts ++ [.free, .links, .twin, .ord, .mir, .sch, .block 0x1, .reg Reg.ORD_FWD,
      .reg Reg.ORD_LINEHOLD, .reg Reg.MIR_RBCUR, .reg Reg.ECC_SEALFAIL, .reg Reg.ECC_FIRSTFAIL])
  | .mwriteA _ _ => (logParts ++ [.free, .links, .twin, .ord, .mir, .sch, .block 0x1, .reg Reg.ORD_FWD,
      .reg Reg.ORD_LINEHOLD, .reg Reg.MIR_RBCUR, .reg Reg.ECC_SEALFAIL, .reg Reg.ECC_FIRSTFAIL])
  | .mwriteD _ _ => (logParts ++ [.free, .links, .twin, .ord, .mir, .sch, .block 0x1, .reg Reg.ORD_FWD,
      .reg Reg.ORD_LINEHOLD, .reg Reg.MIR_RBCUR, .reg Reg.ECC_SEALFAIL, .reg Reg.ECC_FIRSTFAIL])
  | .flush _ _ => (logParts ++ [.free, .links, .twin, .ord, .mir, .sch, .block 0x1, .reg Reg.ORD_FWD,
      .reg Reg.ORD_LINEHOLD, .reg Reg.MIR_RBCUR, .reg Reg.ECC_SEALFAIL, .reg Reg.ECC_FIRSTFAIL])
  | .hostDataSlot _ _ => (logParts ++ [.links, .twin, .ord, .mir, .sch, .block 0x1, .reg Reg.ORD_FWD,
      .reg Reg.ORD_LINEHOLD, .reg Reg.MIR_RBCUR, .reg Reg.ECC_SEALFAIL, .reg Reg.ECC_POISONIN, .reg Reg.ECC_FIRSTFAIL])
  | .duplicateTag _ _ _ => (logParts ++ [.free, .links, .twin, .ord, .mir, .sch, .block 0x1, .reg Reg.ORD_FWD,
      .reg Reg.ORD_LINEHOLD, .reg Reg.MIR_RBCUR, .reg Reg.ECC_SEALFAIL, .reg Reg.ECC_FIRSTFAIL])
  | .pairingWindowExpired _ _ => (logParts ++ [.free, .links, .twin, .ord, .mir, .sch, .block 0x1, .reg Reg.ORD_FWD,
      .reg Reg.ORD_LINEHOLD, .reg Reg.MIR_RBCUR, .reg Reg.ECC_SEALFAIL, .reg Reg.ECC_FIRSTFAIL])
  | .mgtRead _ _ _ => [.rx, .free, .top, .log, .sb, .links, .twin, .ord, .map, .mir, .sch, .flt, .cal, .pwr, .boot, .regs]
  | .mgtWrite _ _ _ _ => [.rx, .free, .top, .log, .sb, .links, .twin, .ord, .map, .mir, .sch, .flt, .cal, .pwr, .boot,
      .regs]
  | .timeBeacon _ _ _ _ => (logParts ++ [.free, .time, .reg Reg.TIM_STAT, .reg Reg.TIM_LASTERR, .reg Reg.TIM_BEACONS,
      .reg Reg.TIM_BEACONIGN, .reg Reg.TIM_STEPS])
  | .credit _ _ => (logParts ++ [.free, .links])
  | .creditSend _ => [.links]
  | .mergePosition _ => (logParts ++ [.free, .links, .twin, .ord, .map, .mir, .sch, .reg Reg.ORD_FWD,
      .reg Reg.ORD_LINEHOLD, .reg Reg.MAP_RTERR, .reg Reg.MAP_REJ, .reg Reg.MIR_RBCUR, .reg Reg.MIR_FWDRD,
      .reg Reg.ECC_SEALFAIL, .reg Reg.ECC_FIRSTFAIL, .reg Reg.ECC_REPAIR, .reg Reg.ECC_REPAIRW])
  | .regionEntryReloaded _ _ => (logParts ++ [.free, .map])
  | .orderAdmit => (logParts ++ [.links, .twin, .ord, .mir, .sch, .reg Reg.ORD_POOLOCC, .reg Reg.ORD_WBOCC,
      .reg Reg.ORD_RBOCC, .reg Reg.ORD_FWD, .reg Reg.ORD_LINEHOLD, .reg Reg.ORD_FLUSHES, .reg Reg.MAP_REJ,
      .reg Reg.MIR_DIVMISS, .reg Reg.MIR_RBCUR, .reg Reg.MIR_RBLINES, .reg Reg.MIR_FILTERED, .reg Reg.MIR_REPLADM,
      .reg Reg.ECC_SEALFAIL, .reg Reg.ECC_FIRSTFAIL, .reg Reg.ECC_REPAIRW])
  | .bitmapLineFill _ => [.mir]
  | .forkReplica => (logParts ++ [.links, .twin, .ord, .mir, .sch, .reg Reg.MIR_RBLINES, .reg Reg.MIR_PENDOCC,
      .reg Reg.MIR_REPLSENT, .reg Reg.ECC_SEALFAIL, .reg Reg.ECC_FIRSTFAIL])
  | .forkNotSent => (logParts ++ [.links, .twin, .ord, .mir, .sch, .reg Reg.ORD_FWD, .reg Reg.ORD_LINEHOLD,
      .reg Reg.MIR_PENDOCC, .reg Reg.ECC_SEALFAIL, .reg Reg.ECC_FIRSTFAIL])
  | .scheduleDispatch _ => [.ord, .sch]
  | .scheduleCycle _ => (logParts ++ [.free, .links, .twin, .ord, .mir, .sch, .flt, .cal, .dram, .reg Reg.ORD_FWD,
      .reg Reg.ORD_LINEHOLD, .block 0x5, .reg Reg.CAL_STEPS, .reg Reg.CAL_SWITCHES, .reg Reg.ECC_SEALFAIL,
      .reg Reg.ECC_FIRSTFAIL])
  | .powerDownExit _ _ => [.sch]
  | .entryAged _ _ => [.sch, .block 0x5]
  | .refreshTick _ _ _ => (logParts ++ [.sch, .cal, .block 0x5])
  | .mr4Poll _ _ _ => (logParts ++ [.sch, .block 0x5])
  | .scrubReadDue _ => (logParts ++ [.links, .twin, .ord, .mir, .sch, .reg Reg.ORD_FWD, .reg Reg.ORD_LINEHOLD, .block 0x5,
      .reg Reg.ECC_SEALFAIL, .reg Reg.ECC_FIRSTFAIL])
  | .readDataDecode _ _ => (logParts ++ [.free, .links, .twin, .ord, .mir, .sch, .flt, .cal, .reg Reg.ORD_FWD,
      .reg Reg.ORD_LINEHOLD, .reg Reg.MIR_RBLINES, .block 0x5, .block 0x8])
  | .completionSend _ => (logParts ++ [.links, .ord, .reg Reg.GLB_QUIESCE, .reg Reg.ECC_POISONOUT])
  | .alertNLow _ => [.sch]
  | .alertNHigh _ => [.sch]
  | .alertReplayDone _ => [.sch, .block 0x8]
  | .alertFailure _ => (logParts ++ [.free, .links, .twin, .ord, .mir, .sch, .flt, .cal, .dram, .reg Reg.ORD_FWD,
      .reg Reg.ORD_LINEHOLD, .reg Reg.ECC_SEALFAIL, .reg Reg.ECC_FIRSTFAIL])
  | .bucketLeak => [.flt]
  | .retireConversionDone _ => (logParts ++ [.links, .twin, .ord, .map, .mir, .sch, .flt, .reg Reg.ORD_FWD,
      .reg Reg.ORD_LINEHOLD, .reg Reg.ECC_SEALFAIL, .reg Reg.ECC_FIRSTFAIL])
  | .spareCopyInterval => (logParts ++ [.links, .twin, .ord, .mir, .sch, .flt, .reg Reg.ORD_FWD, .reg Reg.ORD_LINEHOLD,
      .reg Reg.ECC_SEALFAIL, .reg Reg.ECC_FIRSTFAIL])
  | .spareCopyDone => (logParts ++ [.links, .twin, .ord, .mir, .sch, .flt, .cal, .reg Reg.ORD_FWD, .reg Reg.ORD_LINEHOLD,
      .reg Reg.ECC_SEALFAIL, .reg Reg.ECC_FIRSTFAIL])
  | .replicaSlot _ => (logParts ++ [.free, .links, .twin, .ord, .mir, .sch, .block 0x1, .reg Reg.ORD_FWD,
      .reg Reg.ORD_LINEHOLD, .reg Reg.MIR_RBCUR, .reg Reg.ECC_SEALFAIL, .reg Reg.ECC_POISONIN, .reg Reg.ECC_FIRSTFAIL])
  | .rebuildLineSlot _ => (logParts ++ [.free, .links, .twin, .ord, .mir, .sch, .block 0x1, .reg Reg.ORD_FWD,
      .reg Reg.ORD_LINEHOLD, .reg Reg.MIR_RBCUR, .reg Reg.ECC_SEALFAIL, .reg Reg.ECC_POISONIN, .reg Reg.ECC_FIRSTFAIL])
  | .repairLineSlot _ => (logParts ++ [.free, .links, .twin, .ord, .mir, .sch, .block 0x1, .reg Reg.ORD_FWD,
      .reg Reg.ORD_LINEHOLD, .reg Reg.MIR_RBCUR, .reg Reg.ECC_SEALFAIL, .reg Reg.ECC_POISONIN, .reg Reg.ECC_FIRSTFAIL])
  | .mask _ _ => (logParts ++ [.free, .links, .block 0x1])
  | .ackRange _ _ => (logParts ++ [.free, .links, .twin, .ord, .map, .mir, .sch, .block 0x1, .reg Reg.ORD_FWD,
      .reg Reg.ORD_LINEHOLD, .reg Reg.ORD_FLUSHES, .reg Reg.MIR_CAUSE, .reg Reg.MIR_PENDOCC, .reg Reg.MIR_ACKBAD,
      .reg Reg.MIR_HOSTAT, .reg Reg.MIR_HOCNT, .reg Reg.ECC_SEALFAIL, .reg Reg.ECC_FIRSTFAIL])
  | .ackLines _ => (logParts ++ [.free, .links, .twin, .ord, .map, .mir, .sch, .block 0x1, .reg Reg.ORD_FWD,
      .reg Reg.ORD_LINEHOLD, .reg Reg.ORD_FLUSHES, .reg Reg.MIR_CAUSE, .reg Reg.MIR_PENDOCC, .reg Reg.MIR_ACKBAD,
      .reg Reg.MIR_HOSTAT, .reg Reg.MIR_HOCNT, .reg Reg.ECC_SEALFAIL, .reg Reg.ECC_FIRSTFAIL])
  | .replicaRej _ _ _ _ _ => (logParts ++ [.free, .links, .twin, .ord, .map, .mir, .sch, .block 0x1, .reg Reg.ORD_FWD,
      .reg Reg.ORD_LINEHOLD, .reg Reg.ORD_FLUSHES, .reg Reg.MIR_CAUSE, .reg Reg.MIR_PENDOCC, .reg Reg.MIR_REPLREJ,
      .reg Reg.MIR_ACKBAD, .reg Reg.MIR_HOSTAT, .reg Reg.MIR_HOCNT, .reg Reg.ECC_SEALFAIL, .reg Reg.ECC_FIRSTFAIL,
      .reg Reg.ECC_REPAIRW])
  | .ackIntervalExpiry => [.links, .twin]
  | .ackLinesSend => [.links, .twin]
  | .ackTimeout => (logParts ++ [.links, .twin, .ord, .map, .mir, .sch, .reg Reg.ORD_FWD, .reg Reg.ORD_LINEHOLD,
      .reg Reg.ORD_FLUSHES, .reg Reg.MIR_CAUSE, .reg Reg.MIR_PENDOCC, .reg Reg.MIR_HOSTAT, .reg Reg.MIR_HOCNT,
      .reg Reg.ECC_SEALFAIL, .reg Reg.ECC_FIRSTFAIL])
  | .repairReq _ _ _ => (logParts ++ [.free, .links, .twin, .ord, .mir, .sch, .block 0x1, .reg Reg.ORD_FWD,
      .reg Reg.ORD_LINEHOLD, .reg Reg.MIR_RBCUR, .reg Reg.ECC_SEALFAIL, .reg Reg.ECC_FIRSTFAIL])
  | .repairMiss _ _ _ _ => (logParts ++ [.free, .links, .twin, .ord, .mir, .sch, .reg (Reg.LNK_BADMSG 4),
      .reg Reg.ORD_FWD, .reg Reg.MIR_FWDMISS, .reg Reg.ECC_SEALFAIL, .reg Reg.ECC_FIRSTFAIL, .reg Reg.ECC_REPAIR])
  | .repairTimeout _ => (logParts ++ [.links, .twin, .ord, .mir, .sch, .reg Reg.ORD_FWD, .reg Reg.MIR_FWDMISS,
      .reg Reg.ECC_SEALFAIL, .reg Reg.ECC_FIRSTFAIL, .reg Reg.ECC_REPAIR])
  | .plnOnT _ _ _ _ => (logParts ++ [.free, .links, .twin, .ord, .map, .mir, .sch, .block 0x1, .reg Reg.ORD_FWD,
      .reg Reg.ORD_LINEHOLD, .reg Reg.ORD_FLUSHES, .reg Reg.MIR_CAUSE, .reg Reg.MIR_PENDOCC, .reg Reg.MIR_HOSTAT,
      .reg Reg.MIR_HOCNT, .reg Reg.ECC_SEALFAIL, .reg Reg.ECC_FIRSTFAIL])
  | .heartbeat _ _ _ _ => (transitParts ++ [.free, .reg Reg.MAP_REJ, .reg Reg.MIR_RBCUR, .reg Reg.MIR_HBBAD])
  | .heartbeatSend => [.links, .twin]
  | .heartbeatMiss => (logParts ++ [.links, .twin, .ord, .map, .mir, .sch, .reg Reg.ORD_FWD, .reg Reg.ORD_LINEHOLD,
      .reg Reg.ORD_FLUSHES, .reg Reg.MIR_CAUSE, .reg Reg.MIR_PENDOCC, .reg Reg.MIR_HOSTAT, .reg Reg.MIR_HOCNT,
      .reg Reg.ECC_SEALFAIL, .reg Reg.ECC_FIRSTFAIL])
  | .handoverRequest _ => (logParts ++ [.free, .links, .twin, .ord, .map, .mir, .sch, .block 0x1, .reg Reg.ORD_FWD,
      .reg Reg.ORD_LINEHOLD, .reg Reg.MIR_RBCUR, .reg Reg.ECC_SEALFAIL, .reg Reg.ECC_FIRSTFAIL])
  | .handoverForkMark _ => [.links, .map, .mir]
  | .handoverDrained _ => (logParts ++ [.free, .links, .twin, .ord, .map, .mir, .sch, .block 0x1, .reg Reg.ORD_FWD,
      .reg Reg.ORD_LINEHOLD, .reg Reg.MIR_RBCUR, .reg Reg.MIR_HOSTAT, .reg Reg.MIR_HOCNT, .reg Reg.ECC_SEALFAIL,
      .reg Reg.ECC_FIRSTFAIL])
  | .handoverTaken _ => (logParts ++ [.free, .links, .twin, .ord, .mir, .sch, .block 0x1, .reg Reg.ORD_FWD,
      .reg Reg.ORD_LINEHOLD, .reg Reg.MIR_RBCUR, .reg Reg.MIR_HOSTAT, .reg Reg.MIR_HOCNT, .reg Reg.ECC_SEALFAIL,
      .reg Reg.ECC_FIRSTFAIL])
  | .handoverRefused _ => (logParts ++ [.free, .links, .twin, .ord, .map, .mir, .sch, .block 0x1, .reg Reg.ORD_FWD,
      .reg Reg.ORD_LINEHOLD, .reg Reg.MIR_RBCUR, .reg Reg.MIR_HOSTAT, .reg Reg.MIR_HOCNT, .reg Reg.ECC_SEALFAIL,
      .reg Reg.ECC_FIRSTFAIL])
  | .handoverTimeout _ => (logParts ++ [.map, .mir, .reg Reg.MIR_HOSTAT, .reg Reg.MIR_HOCNT])
  | .soloConversionDone => transitParts
  | .soloHoldEnd => transitParts
  | .formatRegionDone => (logParts ++ [.links, .twin, .ord, .map, .mir, .sch, .reg Reg.ORD_FWD, .reg Reg.ORD_LINEHOLD,
      .reg Reg.ECC_SEALFAIL, .reg Reg.ECC_FIRSTFAIL])
  | .rebuildCtlStartSession _ => (logParts ++ [.free, .links, .twin, .ord, .mir, .sch, .block 0x1, .reg Reg.ORD_FWD,
      .reg Reg.ORD_LINEHOLD, .reg Reg.MIR_RBCUR, .reg Reg.ECC_SEALFAIL, .reg Reg.ECC_FIRSTFAIL])
  | .rebuildCtlStartGranule _ => (logParts ++ [.free, .links, .twin, .ord, .map, .mir, .sch, .block 0x1, .reg Reg.ORD_FWD,
      .reg Reg.ORD_LINEHOLD, .reg Reg.MIR_RBCUR, .reg Reg.ECC_SEALFAIL, .reg Reg.ECC_FIRSTFAIL])
  | .rebuildCtlCursor _ => (logParts ++ [.free, .links, .twin, .ord, .mir, .sch, .block 0x1, .reg Reg.ORD_FWD,
      .reg Reg.ORD_LINEHOLD, .reg Reg.MIR_RBCUR, .reg Reg.ECC_SEALFAIL, .reg Reg.ECC_FIRSTFAIL])
  | .rebuildCtlDone _ => (logParts ++ [.free, .links, .twin, .ord, .map, .mir, .sch, .flt, .cal, .block 0x1,
      .reg Reg.ORD_FWD, .reg Reg.ORD_LINEHOLD, .reg Reg.ORD_FLUSHES, .reg Reg.MIR_RBCUR, .reg Reg.ECC_SEALFAIL,
      .reg Reg.ECC_FIRSTFAIL])
  | .rebuildCtlStop _ => (transitParts ++ [.free, .reg Reg.MAP_REJ, .reg Reg.MIR_RBCUR])
  | .rebuildCtlPace _ => (logParts ++ [.free, .links, .twin, .ord, .mir, .sch, .block 0x1, .reg Reg.ORD_FWD,
      .reg Reg.ORD_LINEHOLD, .reg Reg.MIR_RBCUR, .reg Reg.ECC_SEALFAIL, .reg Reg.ECC_FIRSTFAIL])
  | .rebuildCtlAnswer _ _ => (transitParts ++ [.free, .reg Reg.MAP_REJ, .reg Reg.MIR_RBCUR])
  | .rebuildWaitTimeout => (transitParts ++ [.reg Reg.MAP_REJ, .reg Reg.MIR_RBCUR])
  | .directiveLull _ _ => (transitParts ++ [.free, .time, .clk, .reg Reg.MAP_REJ, .reg Reg.MIR_RBCUR,
      .reg Reg.SCH_SCRUBCFG, .reg Reg.SCH_SCRUBINT, .block 0x6, .reg Reg.CAL_ABANDONED, .reg Reg.CLK_STAT,
      .reg Reg.TIM_STAT])
  | .directiveQuiesce _ _ => (transitParts ++ [.free, .time, .clk, .reg Reg.MAP_REJ, .reg Reg.MIR_RBCUR,
      .reg Reg.SCH_SCRUBCFG, .reg Reg.SCH_SCRUBINT, .block 0x6, .reg Reg.CAL_ABANDONED, .reg Reg.CLK_STAT,
      .reg Reg.TIM_STAT])
  | .directiveHandover _ _ => (transitParts ++ [.free, .time, .clk, .reg Reg.MAP_REJ, .reg Reg.MIR_RBCUR,
      .reg Reg.SCH_SCRUBCFG, .reg Reg.SCH_SCRUBINT, .block 0x6, .reg Reg.CAL_ABANDONED, .reg Reg.CLK_STAT,
      .reg Reg.TIM_STAT])
  | .directiveSoloGrant _ _ => (transitParts ++ [.free, .time, .clk, .reg Reg.MAP_REJ, .reg Reg.MIR_RBCUR,
      .reg Reg.SCH_SCRUBCFG, .reg Reg.SCH_SCRUBINT, .block 0x6, .reg Reg.CAL_ABANDONED, .reg Reg.CLK_STAT,
      .reg Reg.TIM_STAT])
  | .directiveRebuildStart _ _ => (transitParts ++ [.free, .time, .clk, .reg Reg.MAP_REJ, .reg Reg.MIR_RBCUR,
      .reg Reg.SCH_SCRUBCFG, .reg Reg.SCH_SCRUBINT, .block 0x6, .reg Reg.CAL_ABANDONED, .reg Reg.CLK_STAT,
      .reg Reg.TIM_STAT])
  | .directiveRebuildStop _ _ => (transitParts ++ [.free, .time, .clk, .reg Reg.MAP_REJ, .reg Reg.MIR_RBCUR,
      .reg Reg.SCH_SCRUBCFG, .reg Reg.SCH_SCRUBINT, .block 0x6, .reg Reg.CAL_ABANDONED, .reg Reg.CLK_STAT,
      .reg Reg.TIM_STAT])
  | .directiveScrubRate _ _ => (transitParts ++ [.free, .time, .clk, .reg Reg.MAP_REJ, .reg Reg.MIR_RBCUR,
      .reg Reg.SCH_SCRUBCFG, .reg Reg.SCH_SCRUBINT, .block 0x6, .reg Reg.CAL_ABANDONED, .reg Reg.CLK_STAT,
      .reg Reg.TIM_STAT])
  | .directiveCalRestore _ _ => (transitParts ++ [.free, .time, .clk, .reg Reg.MAP_REJ, .reg Reg.MIR_RBCUR,
      .reg Reg.SCH_SCRUBCFG, .reg Reg.SCH_SCRUBINT, .block 0x6, .reg Reg.CAL_ABANDONED, .reg Reg.CLK_STAT,
      .reg Reg.TIM_STAT])
  | .directiveWallOffset _ _ => (transitParts ++ [.free, .time, .clk, .reg Reg.MAP_REJ, .reg Reg.MIR_RBCUR,
      .reg Reg.SCH_SCRUBCFG, .reg Reg.SCH_SCRUBINT, .block 0x6, .reg Reg.CAL_ABANDONED, .reg Reg.CLK_STAT,
      .reg Reg.TIM_STAT])
  | .directiveRankRetire _ _ => (transitParts ++ [.free, .time, .clk, .reg Reg.MAP_REJ, .reg Reg.MIR_RBCUR,
      .reg Reg.SCH_SCRUBCFG, .reg Reg.SCH_SCRUBINT, .block 0x6, .reg Reg.CAL_ABANDONED, .reg Reg.CLK_STAT,
      .reg Reg.TIM_STAT])
  | .directiveRankReadmit _ _ => (transitParts ++ [.free, .time, .clk, .reg Reg.MAP_REJ, .reg Reg.MIR_RBCUR,
      .reg Reg.SCH_SCRUBCFG, .reg Reg.SCH_SCRUBINT, .block 0x6, .reg Reg.CAL_ABANDONED, .reg Reg.CLK_STAT,
      .reg Reg.TIM_STAT])
  | .directiveUnknown _ _ _ => (transitParts ++ [.free, .time, .clk, .reg Reg.MAP_REJ, .reg Reg.MIR_RBCUR,
      .reg Reg.SCH_SCRUBCFG, .reg Reg.SCH_SCRUBINT, .block 0x6, .reg Reg.CAL_ABANDONED, .reg Reg.CLK_STAT,
      .reg Reg.TIM_STAT])
  | .readmitTrainingDone => (logParts ++ [.free, .links, .twin, .ord, .map, .mir, .sch, .flt, .cal, .reg Reg.ORD_FWD,
      .reg Reg.ORD_LINEHOLD, .block 0x6, .reg Reg.ECC_SEALFAIL, .reg Reg.ECC_FIRSTFAIL])
  | .lullEntryDone => [.sch, .clk, .block 0x9]
  | .mpllLock _ _ => (logParts ++ [.free, .links, .twin, .ord, .mir, .sch, .cal, .clk, .reg Reg.ORD_FWD,
      .reg Reg.ORD_LINEHOLD, .block 0x5, .block 0x6, .block 0x8, .block 0x9])
  | .exitRequest => (logParts ++ [.free, .links, .twin, .ord, .mir, .sch, .cal, .clk, .reg Reg.ORD_FWD,
      .reg Reg.ORD_LINEHOLD, .block 0x6, .reg Reg.ECC_SEALFAIL, .reg Reg.ECC_FIRSTFAIL, .reg Reg.CLK_STAT,
      .reg Reg.CLK_LULLSTAT, .reg Reg.CLK_LULLS, .reg Reg.CLK_LULLIGN])
  | .dllLock _ _ _ => (logParts ++ [.free, .links, .twin, .ord, .mir, .sch, .cal, .clk, .reg Reg.ORD_FWD,
      .reg Reg.ORD_LINEHOLD, .block 0x5, .block 0x6, .block 0x8, .block 0x9])
  | .dllLossOfLock _ _ _ => (logParts ++ [.links, .twin, .ord, .mir, .sch, .cal, .clk, .reg Reg.ORD_FWD,
      .reg Reg.ORD_LINEHOLD, .reg Reg.CAL_ABANDONED, .reg Reg.ECC_SEALFAIL, .reg Reg.ECC_FIRSTFAIL, .block 0x9])
  | .dllStuck _ => (logParts ++ [.free, .links, .twin, .ord, .mir, .sch, .cal, .clk, .reg Reg.ORD_FWD,
      .reg Reg.ORD_LINEHOLD, .block 0x5, .block 0x6, .block 0x8, .block 0x9])
  | .dllLockRetry _ => [.clk]
  | .refclkLost => (logParts ++ [.links, .twin, .ord, .mir, .sch, .cal, .clk, .reg Reg.ORD_FWD, .reg Reg.ORD_LINEHOLD,
      .reg Reg.CAL_ABANDONED, .reg Reg.ECC_SEALFAIL, .reg Reg.ECC_FIRSTFAIL, .reg Reg.CLK_STAT, .reg Reg.CLK_LULLSTAT,
      .reg Reg.CLK_EMERG, .reg Reg.CLK_REFLOSS])
  | .pllLossOfLock _ _ => (logParts ++ [.links, .twin, .ord, .mir, .sch, .cal, .clk, .reg Reg.ORD_FWD,
      .reg Reg.ORD_LINEHOLD, .reg Reg.CAL_ABANDONED, .reg Reg.ECC_SEALFAIL, .reg Reg.ECC_FIRSTFAIL, .reg Reg.CLK_STAT,
      .reg Reg.CLK_LULLSTAT, .reg Reg.CLK_EMERG])
  | .emergencyRelock => (logParts ++ [.free, .links, .twin, .ord, .mir, .sch, .cal, .clk, .reg Reg.ORD_FWD,
      .reg Reg.ORD_LINEHOLD, .block 0x5, .block 0x8, .block 0x9])
  | .refQualified _ => (transitParts ++ [.free, .time, .clk, .block 0x9])
  | .emergencySecond => logParts
  | .calEval _ => (logParts ++ [.cal, .block 0x7])
  | .calRunDue _ => [.cal]
  | .calRunStart _ _ => (logParts ++ [.sch, .cal, .block 0x7])
  | .calMeasureDone _ _ => (logParts ++ [.free, .cal, .reg Reg.CAL_REJECTS, .reg Reg.CAL_SWITCHES])
  | .calZqLatch _ _ => (logParts ++ [.sch, .cal])
  | .breezeStep _ _ => [.sch, .cal]
  | .calRunDone _ => (logParts ++ [.free, .links, .twin, .ord, .mir, .sch, .cal, .reg Reg.ORD_FWD, .reg Reg.ORD_LINEHOLD,
      .block 0x6, .block 0x7, .reg Reg.ECC_SEALFAIL, .reg Reg.ECC_FIRSTFAIL])
  | .sensorOvertemp _ _ => logParts
  | .sensorCool => logParts
  | .syncInEdge => [.time, .reg Reg.TIM_SYNCEDGES]
  | .holdoverStart => (logParts ++ [.time, .reg Reg.TIM_STAT])
  | .eventCapture _ _ => logParts
  | .squallWindowEnd => logParts
  | .logProgramDone _ => (logParts ++ [.vbat, .pwr, .flash, .reg Reg.LOG_PTR, .reg Reg.LOG_LSN, .reg Reg.LOG_SKIPS])
  | .watchdogExpiry => [.rx, .free, .top, .time, .log, .sb, .links, .twin, .ord, .map, .mir, .sch, .flt, .cal, .vbat,
      .pwr, .gust, .boot, .flash, .regs]
  | .logWdtkick _ => [.rx, .free, .top, .log, .sb, .links, .twin, .ord, .map, .mir, .sch, .flt, .cal, .pwr, .boot, .regs]
  | .sbReadRegisters _ _ => [.rx, .free, .top, .log, .sb, .links, .twin, .ord, .map, .mir, .sch, .flt, .cal, .pwr, .boot,
      .regs]
  | .sbWriteRegister _ _ => [.rx, .free, .top, .log, .sb, .links, .twin, .ord, .map, .mir, .sch, .flt, .cal, .pwr, .boot,
      .regs]
  | .sbDirective _ _ _ => (transitParts ++ [.free, .time, .clk, .reg Reg.MAP_REJ, .reg Reg.MIR_RBCUR,
      .reg Reg.SCH_SCRUBCFG, .reg Reg.SCH_SCRUBINT, .block 0x6, .reg Reg.CAL_ABANDONED, .reg Reg.CLK_STAT,
      .reg Reg.TIM_STAT])
  | .sbFrameError _ => [.sb]
  | .smbusTimeout => [.sb]
  | .cccEntdaa _ => [.sb]
  | .cccSetdasa _ => [.sb]
  | .cccSetnewda _ => [.sb]
  | .cccRstdaa => [.sb]
  | .cccEnec => [.sb]
  | .cccDisec => [.sb]
  | .cccGetpid => [.sb]
  | .cccGetbcr => [.sb]
  | .cccGetdcr => [.sb]
  | .cccGetstatus => [.free, .sb]
  | .cccGetmwl => [.sb]
  | .cccGetmrl => [.sb]
  | .cccSetmwl _ => [.sb]
  | .cccSetmrl _ => [.sb]
  | .cccRstact _ => [.sb]
  | .flashRead _ => [.rx, .free, .top, .log, .sb, .links, .twin, .ord, .map, .mir, .sch, .flt, .cal, .pwr, .boot, .regs]
  | .flashProgram _ => [.rx, .free, .top, .log, .sb, .links, .twin, .ord, .map, .mir, .sch, .flt, .cal, .pwr, .boot,
      .regs]
  | .flashErase _ => [.rx, .free, .top, .log, .sb, .links, .twin, .ord, .map, .mir, .sch, .flt, .cal, .pwr, .boot, .regs]
  | .flashSetPreference _ => [.rx, .free, .top, .log, .sb, .links, .twin, .ord, .map, .mir, .sch, .flt, .cal, .pwr, .boot,
      .regs]
  | .flashUnknownCommand _ _ => [.rx, .free, .top, .log, .sb, .links, .twin, .ord, .map, .mir, .sch, .flt, .cal, .pwr,
      .boot, .regs]
  | .flashCommandDone _ => [.free, .boot, .flash, .block 0xB]
  | .cipherEncrypt _ _ => [.rx, .free, .top, .log, .sb, .links, .twin, .ord, .map, .mir, .sch, .flt, .cal, .pwr, .boot,
      .regs]
  | .cipherDecrypt _ _ => [.rx, .free, .top, .log, .sb, .links, .twin, .ord, .map, .mir, .sch, .flt, .cal, .pwr, .boot,
      .regs]
  | .cipherDone => [.boot, .block 0xB]
  | .ordStrrec0Read _ => [.rx, .free, .top, .log, .sb, .links, .twin, .ord, .map, .mir, .sch, .flt, .cal, .pwr, .boot,
      .regs]
  | .ordFrontLoRead _ => [.rx, .free, .top, .log, .sb, .links, .twin, .ord, .map, .mir, .sch, .flt, .cal, .pwr, .boot,
      .regs]
  | .timNowLoRead _ => [.rx, .free, .top, .log, .sb, .links, .twin, .ord, .map, .mir, .sch, .flt, .cal, .pwr, .boot,
      .regs]
  | .timOffsetLoRead _ => [.rx, .free, .top, .log, .sb, .links, .twin, .ord, .map, .mir, .sch, .flt, .cal, .pwr, .boot,
      .regs]
  | .pwrSnapstampLoRead _ => [.rx, .free, .top, .log, .sb, .links, .twin, .ord, .map, .mir, .sch, .flt, .cal, .pwr, .boot,
      .regs]
  | .mgtDieidLoRead _ => [.rx, .free, .top, .log, .sb, .links, .twin, .ord, .map, .mir, .sch, .flt, .cal, .pwr, .boot,
      .regs]
  | .dphEyeaRead _ _ => [.rx, .free, .top, .log, .sb, .links, .twin, .ord, .map, .mir, .sch, .flt, .cal, .pwr, .boot,
      .regs]
  | .eccSealfailRead _ => [.rx, .free, .top, .log, .sb, .links, .twin, .ord, .map, .mir, .sch, .flt, .cal, .pwr, .boot,
      .regs]
  | .logSbrec0Read _ => [.rx, .free, .top, .log, .sb, .links, .twin, .ord, .map, .mir, .sch, .flt, .cal, .pwr, .boot,
      .regs]
  | .rcFieldRead _ _ => [.rx, .free, .top, .log, .sb, .links, .twin, .ord, .map, .mir, .sch, .flt, .cal, .pwr, .boot,
      .regs]
  | .calRecselWrite _ _ => [.rx, .free, .top, .log, .sb, .links, .twin, .ord, .map, .mir, .sch, .flt, .cal, .pwr, .boot,
      .regs]
  | .calCaptureDone => [.cal, .reg Reg.CAL_RECSEL]
  | .ordStrselWrite _ _ => [.rx, .free, .top, .log, .sb, .links, .twin, .ord, .map, .mir, .sch, .flt, .cal, .pwr, .boot,
      .regs]
  | .dphEyeselWrite _ _ _ => [.rx, .free, .top, .log, .sb, .links, .twin, .ord, .map, .mir, .sch, .flt, .cal, .pwr, .boot,
      .regs]
  | .registerWrite _ _ _ => [.rx, .free, .top, .log, .sb, .links, .twin, .ord, .map, .mir, .sch, .flt, .cal, .pwr, .boot,
      .regs]
  | .flitTransmit _ => [.free, .log, .links, .twin, .ord, .mir, .reg Reg.MIR_RBLINES]
  | .excursionStart _ => [.pwr, .reg Reg.PWR_RAILSTAT]
  | .railBackInWindow _ => [.pwr, .reg Reg.PWR_RAILSTAT]
  | .holdEnLow => [.pwr, .reg Reg.PWR_HOLD]
  | .bypclkLost => [.clk, .reg Reg.CLK_STAT]
  | .srMinElapsed => (logParts ++ [.free, .links, .twin, .ord, .mir, .sch, .cal, .clk, .reg Reg.ORD_FWD,
      .reg Reg.ORD_LINEHOLD, .block 0x6, .reg Reg.ECC_SEALFAIL, .reg Reg.ECC_FIRSTFAIL, .reg Reg.CLK_STAT,
      .reg Reg.CLK_LULLSTAT, .reg Reg.CLK_LULLS])
  | .pllLockQualified => [.clk, .block 0x9]
  | .timebaseBit20Change => [.vbat]

end Sys2Proof
end

