-- ==== Sys2Proof/WellFormed.lean ====
section
/-!
DEFINITION. Which commands are well formed: the operands have the shape that the command's row and rule give them. A sender sends
well-formed commands; `exec` runs on every command (log entry 47).
-/

namespace Sys2Proof

/-- Management messages come on U-ports only (R78, R88). -/
def AccPath.wellFormed : AccPath → Bool
  | .mgt p _ => !p.isT
  | .sideband => true
  | .core => true

/-- Requests, management messages and host slots belong to U-ports, `REPAIR_REQ` and the slots of the twin to T (R78, R108). -/
def CreditedItem.wellFormed (i : CreditedItem) (p : Port) : Bool :=
  match i with
  | .request _ _ => !p.isT
  | .slot _ => true
  | .mgt _ => true
  | .repair _ _ _ => p.isT

/-- The values that a `REBUILD_CTL` defines (R102): a share of at most 100, and with `SESS` = 1 one of two cursors. -/
def RebuildMsg.wellFormed (m : RebuildMsg) : Bool :=
  decide (m.share.toNat ≤ 100) && (!m.sess || m.cursor == 0x7FFFFFF || m.cursor == 0x7FFFFFE)

/-- A rank has 40 bits, 10 receive enables and 66 pins of 12 segments (R295, R301). -/
def CalMeas.wellFormed (m : CalMeas) : Bool :=
  m.bits.length == 40 && m.rcvEn.length == 10 && m.segs.length == 66 && m.segs.all fun l => l.length == 12

/-- The findings of a training step, one for each package, nibble or bit of the rank (R275, R277, R279). -/
def TrainFind.wellFormed : TrainFind → Bool
  | .ck => true
  | .settings => true
  | .devices packages => packages.length == 10
  | .zq => true
  | .caCs found => found.all fun x => x.1.length == 14 && x.2.1 != [] && x.2.2.length == 10
  | .level dqs => dqs.all fun l => l.length == 10
  | .readSweep found => found.all fun x => x.1.length == 10 && x.2.1.length == 10 && x.2.2.length == 40
  | .writeSweep found => found.all fun l => l.length == 40
  | .check f => f.read.length == 40 && f.write.length == 40
  | .restoreCheck points dqs f => points.length == 40 && dqs.length == 10 && f.read.length == 40 && f.write.length == 40

/-- A command's operands have the shape its row gives them. DESIGN CHOICE, log entry 47. -/
def Instr.wellFormed : Instr → Bool
  | .vbatApplied => true
  | .vbatRemoved => true
  | .allSourcesLost => true
  | .aonDomainStart _ _ fuses => fuses.all fun f => f.word != 0xFF
  | .aonDomainStop => true
  | .vbatSwitchover _ => true
  | .feedEntersWindow _ => true
  | .feedQualified _ => true
  | .feedOutOfWindow _ => true
  | .veerOldGateOff => true
  | .veerReturn => true
  | .plwNAssert _ => true
  | .plwNRelease _ => true
  | .plwDiscrepancyTimeout => true
  | .powerLossTrigger => true
  | .gustWritesDrained => true
  | .gustJournalWritten => true
  | .gustHeaderWritten => true
  | .gustSelfRefresh => true
  | .calmEntry => true
  | .calmFalseWarning => true
  | .vbbuCutoff => true
  | .gaugePoll _ => true
  | .holdupReadyChange _ => true
  | .restoreDramDone => true
  | .journalReplayDone => true
  | .restoreComplete => true
  | .startRowDelayEnd => true
  | .railArmed _ => true
  | .railStartTimeout _ => true
  | .resetStretchEnd _ => true
  | .startSectionComplete found => found.bands.length == 4
  | .shutdownRowDone _ => true
  | .railOutOfWindow _ _ => true
  | .adcConversion readings _ => readings.length == 16
  | .bootRelease path _ => path.wellFormed
  | .bootReleaseChecked _ => true
  | .faultRelease path _ => path.wellFormed
  | .coreRelease _ => true
  | .bootComplete bands => bands.length == 4
  | .coreReset => true
  | .rollbackAdvance _ => true
  | .directoryMarkGood => true
  | .trainStepDone _ _ found => found.wellFormed
  | .trainEnd _ _ => true
  | .pairSettle => true
  | .joinUnsettledTimeout => true
  | .linkTrainStart _ => true
  | .linkTrainSettled _ _ _ _ _ => true
  | .linkTrainTimeout _ _ => true
  | .negReceived _ _ => true
  | .negAckReceived _ _ => true
  | .negTimeout _ => true
  | .flitReceived _ bytes => bytes.length == 256
  | .nakTimeout _ => true
  | .replayTimeout _ => true
  | .laneLockLost _ => true
  | .retrainDeferEnd _ => true
  | .retrainFastFail _ => true
  | .retrainComplete _ _ _ => true
  | .retrainTimeout _ => true
  | .stillReq p => !p.isT
  | .stillResume _ => true
  | .stillWake _ _ => true
  | .marginGo _ value => value.getLsbD 14
  | .marginStop _ => true
  | .unknownMessage _ m => m.extractLsb' 0 8 != 0
  | .overrun p item => item.wellFormed p
  | .read p _ => !p.isT
  | .writeA p _ => !p.isT
  | .writeD p _ => !p.isT
  | .mwriteA p _ => !p.isT
  | .mwriteD p _ => !p.isT
  | .flush p _ => !p.isT
  | .hostDataSlot p _ => !p.isT
  | .duplicateTag p _ _ => !p.isT
  | .pairingWindowExpired _ _ => true
  | .mgtRead p _ _ => !p.isT
  | .mgtWrite p _ _ _ => !p.isT
  | .timeBeacon p _ _ _ => !p.isT
  | .credit _ _ => true
  | .creditSend _ => true
  | .mergePosition _ => true
  | .regionEntryReloaded _ _ => true
  | .orderAdmit => true
  | .bitmapLineFill _ => true
  | .forkReplica => true
  | .forkNotSent => true
  | .scheduleDispatch _ => true
  | .scheduleCycle _ => true
  | .powerDownExit _ _ => true
  | .entryAged _ _ => true
  | .refreshTick _ _ _ => true
  | .mr4Poll _ _ reports => reports.length == 10
  | .scrubReadDue _ => true
  | .readDataDecode _ errors => errors.length == 80
  | .completionSend p => !p.isT
  | .alertNLow _ => true
  | .alertNHigh _ => true
  | .alertReplayDone _ => true
  | .alertFailure _ => true
  | .bucketLeak => true
  | .retireConversionDone _ => true
  | .spareCopyInterval => true
  | .spareCopyDone => true
  | .replicaSlot d => d.form != 4 && d.form != 5
  | .rebuildLineSlot d => d.form == 5
  | .repairLineSlot d => d.form == 4
  | .mask _ _ => true
  | .ackRange _ _ => true
  | .ackLines tags => tags != [] && decide (tags.length ≤ 9)
  | .replicaRej _ form reason _ _ => decide (form.toNat ≤ 5) && reason != 0 && decide (reason.toNat ≤ 9)
  | .ackIntervalExpiry => true
  | .ackLinesSend => true
  | .ackTimeout => true
  | .repairReq _ _ _ => true
  | .repairMiss _ miss _ _ => miss != 0 && decide (miss.toNat ≤ 4)
  | .repairTimeout _ => true
  | .plnOnT _ _ _ _ => true
  | .heartbeat pstate _ _ _ => decide (pstate.toNat ≤ 5)
  | .heartbeatSend => true
  | .heartbeatMiss => true
  | .handoverRequest _ => true
  | .handoverForkMark _ => true
  | .handoverDrained _ => true
  | .handoverTaken _ => true
  | .handoverRefused _ => true
  | .handoverTimeout _ => true
  | .soloConversionDone => true
  | .soloHoldEnd => true
  | .formatRegionDone => true
  | .rebuildCtlStartSession m => m.wellFormed && m.sess
  | .rebuildCtlStartGranule m => m.wellFormed && !m.sess
  | .rebuildCtlCursor m => m.wellFormed
  | .rebuildCtlDone m => m.wellFormed
  | .rebuildCtlStop m => m.wellFormed
  | .rebuildCtlPace m => m.wellFormed
  | .rebuildCtlAnswer cmd m => m.wellFormed && cmd != 0 && decide (cmd.toNat ≤ 5)
  | .rebuildWaitTimeout => true
  | .directiveLull h _ => !h.port.isT
  | .directiveQuiesce h _ => !h.port.isT
  | .directiveHandover h _ => !h.port.isT
  | .directiveSoloGrant h _ => !h.port.isT
  | .directiveRebuildStart h _ => !h.port.isT
  | .directiveRebuildStop h _ => !h.port.isT
  | .directiveScrubRate h _ => !h.port.isT
  | .directiveCalRestore h _ => !h.port.isT
  | .directiveWallOffset h _ => !h.port.isT
  | .directiveRankRetire h _ => !h.port.isT
  | .directiveRankReadmit h _ => !h.port.isT
  | .directiveUnknown h dcode _ => !h.port.isT && (dcode == 0 || decide (11 < dcode.toNat))
  | .readmitTrainingDone => true
  | .lullEntryDone => true
  | .mpllLock _ _ => true
  | .exitRequest => true
  | .dllLock _ _ _ => true
  | .dllLossOfLock _ _ _ => true
  | .dllStuck _ => true
  | .dllLockRetry _ => true
  | .refclkLost => true
  | .pllLossOfLock _ _ => true
  | .emergencyRelock => true
  | .refQualified _ => true
  | .emergencySecond => true
  | .calEval temps => temps.length == 8
  | .calRunDue _ => true
  | .calRunStart _ _ => true
  | .calMeasureDone _ m => m.wellFormed
  | .calZqLatch _ _ => true
  | .breezeStep _ disagree => disagree.all fun b => decide (b.toNat < 40)
  | .calRunDone _ => true
  | .sensorOvertemp _ _ => true
  | .sensorCool => true
  | .syncInEdge => true
  | .holdoverStart => true
  | .eventCapture code _ => decide (code.toNat < 0xE000)
  | .squallWindowEnd => true
  | .logProgramDone _ => true
  | .watchdogExpiry => true
  | .logWdtkick _ => true
  | .sbReadRegisters _ _ => true
  | .sbWriteRegister _ _ => true
  | .sbDirective _ _ _ => true
  | .sbFrameError _ => true
  | .smbusTimeout => true
  | .cccEntdaa _ => true
  | .cccSetdasa _ => true
  | .cccSetnewda _ => true
  | .cccRstdaa => true
  | .cccEnec => true
  | .cccDisec => true
  | .cccGetpid => true
  | .cccGetbcr => true
  | .cccGetdcr => true
  | .cccGetstatus => true
  | .cccGetmwl => true
  | .cccGetmrl => true
  | .cccSetmwl _ => true
  | .cccSetmrl _ => true
  | .cccRstact _ => true
  | .flashRead path => path.wellFormed
  | .flashProgram path => path.wellFormed
  | .flashErase path => path.wellFormed
  | .flashSetPreference path => path.wellFormed
  | .flashUnknownCommand path code => path.wellFormed && (code == 0 || decide (4 < code.toNat))
  | .flashCommandDone _ => true
  | .cipherEncrypt _ _ => true
  | .cipherDecrypt _ _ => true
  | .cipherDone => true
  | .ordStrrec0Read path => path.wellFormed
  | .ordFrontLoRead path => path.wellFormed
  | .timNowLoRead path => path.wellFormed
  | .timOffsetLoRead path => path.wellFormed
  | .pwrSnapstampLoRead path => path.wellFormed
  | .mgtDieidLoRead path => path.wellFormed
  | .dphEyeaRead path _ => path.wellFormed
  | .eccSealfailRead path => path.wellFormed
  | .logSbrec0Read path => path.wellFormed
  | .rcFieldRead path _ => path.wellFormed
  | .calRecselWrite path _ => path.wellFormed
  | .calCaptureDone => true
  | .ordStrselWrite path _ => path.wellFormed
  | .dphEyeselWrite path _ _ => path.wellFormed
  | .registerWrite path _ _ => path.wellFormed
  | .flitTransmit _ => true
  | .excursionStart _ => true
  | .railBackInWindow _ => true
  | .holdEnLow => true
  | .bypclkLost => true
  | .srMinElapsed => true
  | .pllLockQualified => true
  | .timebaseBit20Change => true

end Sys2Proof
end

