-- ==== Sys2Proof/Certificates/Slice0/Obligations.lean ====
section
/-!
DEFINITION. What is claimed of the hub. A statement about commands says, for each: in every canonical state that meets the conditions,
the command answers a next state (`Runs`), nothing outside the named parts of the state changes, and what the next state holds.
-/

section

open Sys2Proof Sys2Proof.Machine

/-- A step runs the command at the front of the queue. For every command c, queue rest r and state s: a step of s with c at
the front of its queue and r behind it is exec of c on s with the queue r. Rules: R29, R30. -/
def Obligations.StepRunsFront : Prop :=
  ∀ (c : Instr) (r : List Instr) (s : State), step { s with pending := c :: r } = exec c { s with pending := r }

/-- With no command waiting a step serves a waiting access, or takes the oldest item of the receive crossings, or lets one
tick pass. With an empty queue: if accesses or sideband directives wait at the register arbiter, the step serves one, the
sideband's before the core's, the oldest first. Otherwise, if the oldest item of the receive crossings is a command, the
step runs it with the item taken; if it is the end of a flit, the step ends the flit; with nothing in them one tick
passes. A tick with the core domain on, while no row of the shutdown table waits for time, adds one core cycle (5 units of
125 ps), moves the port pointer on by one of four, lets every lane be granted again and starts the cycle's counts of
admissions and probes afresh; every fourth (on the oscillator every 160th) moves the timebase by its period with the
correction in force, every 64th moves MEMLOCK's accumulator. The oldest region table change is seen from then on, in the
shadow too, if two agent entries are free and no agent request waits; otherwise the region table, the pool and the
sub-channels keep what they hold. With no bar on Breeze calibration keeps its state. Nothing else changes but what the
event of a new time port records. With the core domain off a tick adds 100 ns and, with the AON domain on, moves the
timebase; with no row of the shutdown table waiting nothing else changes. That this is what an idle step does, and the
rounding of the correction, are the model's choices (log entries 6, 12, 42 and 48). Rules: R29, R30, R32, R148, R390,
R490, R518, R539. -/
def Obligations.EmptyQueueTakesCrossingOrTicks : Prop :=
  ∀ s : State, s.pending = [] →
    (∀ q : ArbReq, ((s.sb.arb.find? fun x => x.path == .sideband) <|> s.sb.arb.head?) = some q →
      step s = .next (match q.dir with
        | some d => ({ s with sb := { s.sb with arb := s.sb.arb.erase q } }).sideDirective d
        | none => ({ s with sb := { s.sb with arb := s.sb.arb.erase q } }).serveAccess q)) ∧
    (∀ (p : Port) (c : Instr) (r : List RxItem), s.sb.arb = [] → s.rx = .cmd p c :: r → step s = exec c { s with rx := r }) ∧
    (∀ (p : Port) (r : List RxItem), s.sb.arb = [] → s.rx = .flitEnd p :: r →
      step s = .next (({ s with rx := r }).flitEnded p)) ∧
    (s.sb.arb = [] → s.rx = [] → s.canon → (s.pwr.stop = [] ∨ s.pwr.stopActed = true) → ∃ t, step s = .next t ∧
      (s.top.coreOn = true →
        SameBut ([.time, .ord, .map, .sch, .cal, .clk, .reg Reg.ORD_FWD, .reg Reg.ORD_LINEHOLD, .reg Reg.TIM_STAT] ++ logParts) s t ∧
        t.time = { s.time with elapsed := s.time.elapsed + 5, cycle := s.time.cycle + 1, tb := s.tickedTb } ∧
        t.ord.ptr = (s.ord.ptr + 1) % 4 ∧ t.ord.granted = [] ∧ t.ord.admits = 0 ∧ t.ord.probes = 0 ∧ t.clk = s.tickedClk ∧
        (s.cal.bar = [] → t.cal = s.cal) ∧
        (∀ (c : Nat × Word) (rest : List (Nat × Word)), s.map.turn = c :: rest → s.ord.agentQ = [] → 2 ≤ s.agentRoom →
          t.map.turn = rest ∧ Tab.get (fun _ => 0) t.map.shadow c.1 = s.map.changed c.1 ∧ t.map.rt = s.map.rt) ∧
        (s.map.turn = [] ∨ s.ord.agentQ ≠ [] ∨ s.agentRoom < 2 → s.cal.bar = [] →
          SameBut ([.time, .ord, .clk, .reg Reg.TIM_STAT] ++ logParts) s t ∧
          t.ord = { s.ord with ptr := (s.ord.ptr + 1) % 4, granted := [], admits := 0, probes := 0 })) ∧
      (s.top.coreOn = false → SameBut [.time] s t ∧ t.time.elapsed = s.time.elapsed + 800 ∧
        t.time.tb = if s.top.aonOn then s.movedTb else s.time.tb))

/-- No word spells a command, and placing a word changes nothing. The opcode table gives no row any bits: decodeTableWord
answers none for every width and word, and withFetchWord leaves every state as it is (log entry 7). Rules: R78. -/
def Obligations.TableSpellsNoWord : Prop :=
  ∀ (s : State) (nbits w : Nat), decodeTableWord nbits w = none ∧ s.withFetchWord nbits w = s

/-- What reset leaves: the AON state, the registers at their reset values, and nothing queued. At reset the queue of commands
is empty, the top level is AON with cause 0x01 and previous state OFF, the AON domain runs and the core domain does not;
GLB_STATE reads 0x00000102; every register holds its reset value, every port is in DOWN, no trigger is registered, the
event ring is empty, no request is held, and no memory byte is listed. Reset values that the manual does not state, and
empty memories, are the model's choices (log entries 9 to 11). Rules: R4, R8, R23, R26, R527. -/
def Obligations.ResetLeaves : Prop :=
  State.reset.pending = [] ∧ State.reset.top = { state := .aon, prev := .off, cause := 0x01, aonOn := true, coreOn := false, trigger := none } ∧
    State.reset.viewReg Reg.GLB_STATE = 0x00000102 ∧ (∀ a, State.reset.reg a = regReset a) ∧
    (∀ p, (State.reset.link p).lstate = .down) ∧ State.reset.log.ring = [] ∧ State.reset.ord.pool = [] ∧ State.reset.rx = [] ∧
    State.reset.flash = [] ∧ State.reset.dram = []

/-- The state after reset is in canonical form. The tables that hold the registers, the ports, the CFG flash and the DRAM have
their canonical form after reset. Rules: R527. -/
def Obligations.ResetIsCanonical : Prop :=
  State.reset.canon

/-- Every step keeps the canonical form of registers, ports, flash and DRAM. From every state in canonical form (keys strictly
rising, nothing listed that an unlisted key reads as, in the tables of the registers, the ports, the CFG flash and the
DRAM), whatever waits in its queue, a step that answers a next state gives one in canonical form. So equal contents are
equal data in every run. Rules: R4, R468, R565. -/
def Obligations.StepsKeepCanonicalForm : Prop :=
  ∀ s t : State, s.canon → step s = .next t → t.canon

/-- Every command answers a next state from every canonical state, and changes only its own parts. For every command and every
state in canonical form, exec answers a next state, never a fault or a refusal; that state is in canonical form, and it
differs from the first only in the parts that mayChange lists for the command. The queue is among no command's parts, so
every command leaves it as it is. Rules: R4, R25. -/
def Obligations.EveryCommandCompletes : Prop :=
  (∀ (c : Instr) (s : State), s.canon → ∃ t, exec c s = .next t ∧ t.canon ∧ SameBut c.mayChange s t) ∧
    (∀ c : Instr, c.mayChange.any (Part.covers · .pending) = false)

/-- The queue is worked off from its front, one command a step. A step from a canonical state with commands c and then r
waiting leaves exactly r waiting. Rules: R29, R30. -/
def Obligations.QueueRunsInOrder : Prop :=
  ∀ (s : State) (c : Instr) (r : List Instr), s.canon → s.pending = c :: r → ∃ t, step s = .next t ∧ t.pending = r ∧ t.canon

/-- What the hub writes into a message it reads back, for every operand. For every operand value the field admits: decoding
MASK, ACK_RANGE, ACK_LINES (one to nine tags), REPLICA_REJ (forms to 5, reasons 1 to 9), REPAIR_REQ, REPAIR_MISS (reasons
1 to 4), the four HANDOVER steps, REBUILD_CTL (as an answer, and as each of its commands), HEARTBEAT (states to 5) and PLN
as the hub writes them on T gives back the command with those operands; and so for NEG, NEG_ACK and CREDIT on every port.
Rules: R78, R93, R96, R97, R98, R99, R100, R101, R102, R103, R105, R110. -/
def Obligations.LinkMessagesReadBack : Prop :=
  ∀ ans : Bool,
    (∀ (tag : BitVec 12) (m : BitVec 64), decodeMsg .t ans (mkMask tag m) = some (.mask tag m)) ∧
    (∀ epoch n : Word, decodeMsg .t ans (mkAckRange epoch n.toNat) = some (.ackRange epoch n)) ∧
    (∀ tags : List (BitVec 12), tags ≠ [] → tags.length ≤ 9 → decodeMsg .t ans (mkAckLines tags) = some (.ackLines tags)) ∧
    (∀ (tag : BitVec 12) (form : BitVec 3) (reason : Byte) (epoch : Word) (addr : BitVec 42), form.toNat ≤ 5 → reason ≠ 0 →
      reason.toNat ≤ 9 → decodeMsg .t ans (mkRej 0x43 tag form reason epoch addr) = some (.replicaRej tag form reason epoch addr)) ∧
    (∀ (tag : BitVec 12) (epoch : Word) (addr : BitVec 42),
      decodeMsg .t ans (mkRej 0x44 tag 0 0 epoch addr) = some (.repairReq tag epoch addr)) ∧
    (∀ (tag : BitVec 12) (miss : Byte) (epoch : Word) (addr : BitVec 42), miss ≠ 0 → miss.toNat ≤ 4 →
      decodeMsg .t ans (mkRej 0x45 tag 0 miss epoch addr) = some (.repairMiss tag miss epoch addr)) ∧
    (∀ m : HandoverMsg,
      decodeMsg .t ans (mkHandover m.mtag 1 m.epoch m.region.toNat) = some (.handoverRequest m) ∧
      decodeMsg .t ans (mkHandover m.mtag 2 m.epoch m.region.toNat) = some (.handoverDrained m) ∧
      decodeMsg .t ans (mkHandover m.mtag 3 m.epoch m.region.toNat) = some (.handoverTaken m) ∧
      decodeMsg .t ans (mkHandover m.mtag 4 m.epoch m.region.toNat) = some (.handoverRefused m)) ∧
    (∀ m : RebuildMsg, m.wellFormed = true →
      (∀ cmd : Byte, cmd ≠ 0 → cmd.toNat ≤ 5 → decodeMsg .t true (mkRebuild cmd.toNat m.mtag m.share.toNat m.epoch m.cursor.toNat
        m.sess) = some (.rebuildCtlAnswer cmd m)) ∧
      decodeMsg .t false (mkRebuild 1 m.mtag m.share.toNat m.epoch m.cursor.toNat m.sess) =
        some (if m.sess then .rebuildCtlStartSession m else .rebuildCtlStartGranule m) ∧
      decodeMsg .t false (mkRebuild 2 m.mtag m.share.toNat m.epoch m.cursor.toNat m.sess) = some (.rebuildCtlStop m) ∧
      decodeMsg .t false (mkRebuild 3 m.mtag m.share.toNat m.epoch m.cursor.toNat m.sess) = some (.rebuildCtlCursor m) ∧
      decodeMsg .t false (mkRebuild 4 m.mtag m.share.toNat m.epoch m.cursor.toNat m.sess) = some (.rebuildCtlDone m) ∧
      decodeMsg .t false (mkRebuild 5 m.mtag m.share.toNat m.epoch m.cursor.toNat m.sess) = some (.rebuildCtlPace m)) ∧
    (∀ (pstate : BitVec 3) (epoch sent stamp : Word), pstate.toNat ≤ 5 →
      decodeMsg .t ans (mkHeartbeat pstate.toNat epoch sent.toNat stamp.toNat) = some (.heartbeat pstate epoch sent stamp)) ∧
    (∀ (gusting nohold : Bool) (trig : BitVec 2) (admitCnt : Word) (lastTag : BitVec 12) (stamp : Word),
      decodeMsg .t ans (mkPln gusting nohold trig admitCnt.toNat lastTag stamp.toNat) =
        some (.plnOnT (BitVec.ofNat 8 (bitOf gusting + 2 * bitOf nohold + 4 * trig.toNat)) admitCnt lastTag stamp)) ∧
    (∀ (p : Port) (m : NegMsg), decodeMsg p ans (mkNeg m) = some (.negReceived p m)) ∧
    (∀ (p : Port) (m : NegAckMsg), decodeMsg p ans (mkNegAck m) = some (.negAckReceived p m)) ∧
    (∀ (p : Port) (m : CreditMsg), decodeMsg p ans (mkCredit m.init ⟨m.req.toNat, m.rd.toNat, m.lq.toNat,
      m.wd.toNat, m.mg.toNat, m.ev.toNat⟩) = some (.credit p m))

/-- A host message laid out as the manual says is the command it stands for. On a U-port, for every operand: a word with
opcode 1 to 6 and tag, admission bit, stream and address at bits 8, 20, 32 and 48 is the READ, WRITE_A, WRITE_D, MWRITE_A,
MWRITE_D or FLUSH of those operands; opcode 0x10 with tag and address at 8 and 16 is the register read, 0x11 with data at
64 as well the register write; opcode 0x12 with tag, number, epoch and argument at 8, 16, 32 and 64 is the directive of
that number; opcode 0x18 with the sync bit, offset epoch and time at 8, 16 and 32 is the time beacon. A word of zeros is
no command on any port. Rules: R54, R78, R80, R88, R90, R95, R536. -/
def Obligations.HostMessagesReadBack : Prop :=
  ∀ (p : Port) (ans : Bool), decodeMsg p ans 0 = none ∧ (p ≠ .t →
    (∀ r : HostReq,
      let m := fun op : Nat => msgOf [(op, 0), (r.tag.toNat, 8), (bitOf r.acc, 20), (r.stream.toNat, 32), (r.addr.toNat, 48)]
      decodeMsg p ans (m 1) = some (.read p r) ∧ decodeMsg p ans (m 2) = some (.writeA p r) ∧
      decodeMsg p ans (m 3) = some (.writeD p r) ∧ decodeMsg p ans (m 4) = some (.mwriteA p r) ∧
      decodeMsg p ans (m 5) = some (.mwriteD p r) ∧ decodeMsg p ans (m 6) = some (.flush p r)) ∧
    (∀ (mtag : BitVec 4) (addr : BitVec 24),
      decodeMsg p ans (msgOf [(0x10, 0), (mtag.toNat, 8), (addr.toNat, 16)]) = some (.mgtRead p mtag addr)) ∧
    (∀ (mtag : BitVec 4) (addr : BitVec 24) (data : Word),
      decodeMsg p ans (msgOf [(0x11, 0), (mtag.toNat, 8), (addr.toNat, 16), (data.toNat, 64)]) = some (.mgtWrite p mtag addr data)) ∧
    (∀ (mtag : BitVec 4) (d : Byte) (epoch : Word) (arg : BitVec 64),
      decodeMsg p ans (msgOf [(0x12, 0), (mtag.toNat, 8), (d.toNat, 16), (epoch.toNat, 32), (arg.toNat, 64)]) =
        some (directiveCommand ⟨p, mtag, epoch⟩ d arg)) ∧
    (∀ (sync : Bool) (offsetEpoch : BitVec 16) (timeNs : BitVec 64),
      decodeMsg p ans (msgOf [(0x18, 0), (bitOf sync, 8), (offsetEpoch.toNat, 16), (timeNs.toNat, 32)]) =
        some (.timeBeacon p sync offsetEpoch timeNs)))

/-- Headers, data slots and sealed flits read back. A flit header and a data slot laid out in bytes read back as what they
were laid out from, whatever follows; three slots in a flit whose SLOTMAP is theirs read back as themselves (a message
slot with its five messages); and 244 bytes sealed with CRC-48 and FEC make a good flit of 256 bytes that begins with
them. Rules: R48, R50, R52, R54, R56, R57, R58. -/
def Obligations.FlitsReadBack : Prop :=
  (∀ (h : FlitHeader) (rest : List Byte), headerOf (headerBytes h ++ rest) = h) ∧
    (∀ d : DataSlot, slotOfBytes (slotBytes d) = d) ∧
    (∀ (h : FlitHeader) (a b c : Slot) (rest : List Byte), [a, b, c].all (fun x => match x with | .data _ => true | .msgs l => l.length == 5) = true →
      h.slotMap = slotMapOf [a, b, c] →
      let f := headerBytes h ++ a.bytes ++ b.bytes ++ c.bytes ++ rest
      slotAt h f 0 = a ∧ slotAt h f 1 = b ∧ slotAt h f 2 = c) ∧
    (∀ b : List Byte, b.length = 244 → flitGood (flitSeal b) = true ∧ (flitSeal b).length = 256 ∧ (flitSeal b).take 244 = b)

/-- A line encoded for its address decodes clean, or as carried poison, with its data. For every local line address, line and
erased package: the 80 symbols the encoder writes for a good line decode, at the same address, as clean with that line and
no error; those of a line with carried poison decode as carried poison with that line and no error. Rules: R322, R323,
R324, R325, R330. -/
def Obligations.EncodedLinesReadBack : Prop :=
  ∀ (addr : Nat) (line : Line) (erased : Option Nat),
    decodeLine addr erased (encodeLine addr line .good) = ⟨.clean, line, []⟩ ∧
    decodeLine addr erased (encodeLine addr line .carried) = ⟨.carried, line, []⟩

/-- The local line address of a mapped pair address. For every state and pair address: the local line address is L times 2^24
plus the line offset, with L the LOCAL field of the entry of the pair region (bits 41 to 24 of the address); its bits 23
to 0 are the line offset unchanged and its bits 38 to 24 hold L. Rules: R145. -/
def Obligations.LocalLineAddress : Prop :=
  ∀ (s : State) (a : BitVec 42),
    let l := rtLocal (s.rtEntry (a.toNat / 2 ^ 24))
    s.localAddr a = l * 2 ^ 24 + a.toNat % 2 ^ 24 ∧ s.localAddr a % 2 ^ 24 = a.toNat % 2 ^ 24 ∧ s.localAddr a / 2 ^ 24 = l ∧ l < 2 ^ 15

/-- Power sources: the coin cell, its switch, and the start and stop of the AON domain. For every canonical state each command
answers a next state under the conditions given, and nothing outside the parts it names (never the queue) changes.
VBAT_APPLIED marks the cell present; from OFF with no feed in window it powers the VBAT domain with a valid file and goes
to STANDBY, otherwise only the mark changes. VBAT_REMOVED clears the mark, takes STANDBY to OFF, and stops the VBAT domain
where its switch stands at the cell or the AON domain is off. VBAT_SWITCHOVER sets the switch; toward the cell the domain
stays on only with a cell present. AON_DOMAIN_STOP goes to STANDBY with a cell, else OFF, loses the trigger, the DRAM and
the AON domain, and keeps the capture sequence number in the VBAT file; with the AON domain off it changes nothing.
AON_DOMAIN_START (not when already started and its fuses read) runs the domain, reads the fuses, latches both straps, and
sets the timebase from the VBAT file plus 2 in bit 20 if the file was valid, else to 0; a later start changes nothing.
ALL_SOURCES_LOST goes to OFF with every register at its reset value and no memory kept. That DRAM holds nothing after a
loss, and the reset values the manual does not state, are the model's choices (log entries 9 and 11). Rules: R4, R23, R25,
R398, R407, R457, R491, R547. -/
def Obligations.SourcesRun : Prop :=
  ∀ s : State, s.canon →
    (s.top.state = .off → (s.flag Fld.PWR_FEEDSTAT.INWIN_A = false ∧ s.flag Fld.PWR_FEEDSTAT.INWIN_B = false) → Runs s
      .vbatApplied (.vbat :: .reg Reg.PWR_FAULTS :: fallParts) fun t => t.vbat.present = true ∧ t.top =
      { s.top with state := .standby, prev := .off, cause := 0 } ∧ t.vbat.on = true ∧ t.vbat.valid = true) ∧
    ((s.top.state ≠ .off ∨ ¬ (s.flag Fld.PWR_FEEDSTAT.INWIN_A = false ∧ s.flag Fld.PWR_FEEDSTAT.INWIN_B = false)) → Runs s
      .vbatApplied [.vbat] fun t => t.vbat = { s.vbat with present := true }) ∧
    (s.top.state = .standby → Runs s .vbatRemoved (.vbat :: .reg Reg.PWR_FAULTS :: fallParts) fun t => t.vbat.present = false ∧
      t.top = { s.top with state := .off, prev := .standby, cause := 0 } ∧ (s.vbat.onCell = true ∨ s.top.aonOn = false →
      t.vbat.on = false) ∧ (s.vbat.onCell = false → s.top.aonOn = true → t.vbat = { s.vbat with present := false })) ∧
    (s.top.state ≠ .standby → Runs s .vbatRemoved [.vbat, .reg Reg.PWR_FAULTS] fun t => t.vbat.present = false ∧ (s.vbat.onCell =
      true ∨ s.top.aonOn = false → t.vbat.on = false) ∧ (s.vbat.onCell = false → s.top.aonOn = true → t.vbat =
      { s.vbat with present := false } ∧ t.regs = s.regs)) ∧
    (∀ (toVbat : Bool), Runs s (.vbatSwitchover toVbat) [.vbat, .reg Reg.PWR_FAULTS] fun t => t.vbat.onCell = toVbat ∧ (toVbat =
      true → t.vbat.on = (s.vbat.on && s.vbat.present)) ∧ (toVbat = false → t.vbat.on = true) ∧ (s.vbat.on = true →
      s.vbat.present = true → t.vbat = ({ s.vbat with onCell := toVbat } : VbatSt))) ∧
    (s.top.aonOn = true → Runs s .aonDomainStop [.rx, .free, .top, .time, .log, .sb, .links, .twin, .ord, .map, .mir, .sch, .flt,
      .cal, .clk, .vbat, .pwr, .gust, .fuse, .cfgStore, .boot, .flash, .fmt, .dram, .regs] fun t => t.top =
      { state := if s.vbat.present then .standby else .off, prev := s.top.state, cause := 0, aonOn := false } ∧ t.dram = []
      ∧ t.fmt = none ∧ t.time.elapsed = s.time.elapsed ∧ t.fuse = { normal := s.fuse.normal, tight := s.fuse.tight } ∧
      (s.vbat.present = true → t.vbat.capSeq = s.log.nextSeq ∧ t.vbat.onCell = true ∧ t.vbat.cvalid = s.vbat.cvalid ∧
      t.vbat.gustSeq = s.vbat.gustSeq) ∧ (s.vbat.present = false → t.vbat.on = false) ∧ (t.feedIn .a = s.feedIn .a ∧
      t.feedIn .b = s.feedIn .b) ∧ t.links = [] ∧ t.ord = {} ∧ t.mir = {} ∧ t.sch = [] ∧ t.flt = {}) ∧
    ((s.top.aonOn = false) → exec .aonDomainStop s = .next s) ∧
    (∀ (smbus : Bool) (sbaddr : BitVec 2) (fuses : List FuseSense), (¬ (s.top.aonOn = true ∧ s.fuse.read = true)) → Runs s
      (.aonDomainStart smbus sbaddr fuses) [.rx, .free, .top, .time, .log, .sb, .links, .twin, .ord, .map, .mir, .sch, .flt,
      .cal, .clk, .vbat, .pwr, .gust, .fuse, .cfgStore, .boot, .flash, .fmt, .dram, .regs] fun t => t.top =
      { s.top with aonOn := true, coreOn := false, trigger := none } ∧ t.fuse.read = true ∧ t.sb.smbus = smbus ∧ t.sb.sbaddr
      = sbaddr ∧ t.dram = [] ∧ t.vbat.on = true ∧ t.vbat.found = (s.vbat.on && s.vbat.valid) ∧ t.time.tb = (if s.vbat.on &&
      s.vbat.valid then (s.vbat.tbHigh + 2) <<< 52 else 0) ∧ t.time.elapsed = s.time.elapsed ∧ (t.feedIn .a = s.feedIn .a ∧
      t.feedIn .b = s.feedIn .b) ∧ t.links = [] ∧ t.ord = {} ∧ t.mir = {} ∧ t.sch = [] ∧ t.flt = {}) ∧
    (∀ (smbus : Bool) (sbaddr : BitVec 2) (fuses : List FuseSense), (s.top.aonOn = true ∧ s.fuse.read = true) → exec
      (.aonDomainStart smbus sbaddr fuses) s = .next s) ∧
    (Runs s .allSourcesLost [.rx, .free, .top, .time, .log, .sb, .links, .twin, .ord, .map, .mir, .sch, .flt, .cal, .clk, .vbat,
      .pwr, .gust, .fuse, .cfgStore, .boot, .flash, .fmt, .dram, .regs] fun t => t.top =
      { state := .off, prev := s.top.state, cause := 0, aonOn := false } ∧ t.vbat.on = false ∧ t.vbat.present = false ∧
      t.dram = [] ∧ t.fmt = none ∧ t.time.elapsed = s.time.elapsed ∧ t.fuse =
      { normal := s.fuse.normal, tight := s.fuse.tight } ∧ (∀ a, t.reg a = regReset a) ∧ t.links = [] ∧ t.ord = {} ∧ t.mir =
      {} ∧ t.sch = [] ∧ t.flt = {})

/-- Feeds: entering and leaving the window, qualifying, the veer and its return. For every canonical state each command
answers a next state under the conditions given, and nothing outside the parts it names (never the queue) changes.
FEED_ENTERS_WINDOW sets the feed's window bit, ends its excursion and takes OFF or STANDBY to AON with cause 1; elsewhere
the top level stays. FEED_QUALIFIED of a feed in window sets its qualified bit. Of a used feed, with nothing outranking it
(R25): AON with the fuses read and a good rail page goes to SEQUENCE with cause 2 and the active feed's gate on; CALM
after a feed has left goes to RESTORE with cause 0x0D on that feed and starts its boot section. Where it leads nowhere it
only clears EARLY, if the feed is active and was not qualified. At step 5 of RESTORE on the active feed it clears EARLY,
and RESTORE goes on to step 6 or to BOOT_HOLD with cause 5, REPORT 1 or 3. FEED_OUT_OF_WINDOW clears the feed's window,
qualified and gate bits; if it carried the hub and the other feed is used and in window, and no command of the cycle takes
it out (log entry 48), the other becomes active with its gate on, the old feed overlaps, the veer is counted and 0xA020
recorded, else all of that stays; with no other usable feed and a trigger possible it detects 2. In AON or FAULT_OFF
without the other feed the hub goes to STANDBY with a cell, else OFF, rails, gates and DRAM lost. VEER_OLD_GATE_OFF ends
the overlap and turns the old gate off unless its feed is active again. VEER_RETURN with its conditions makes the
preferred feed active, opens its gate, starts the overlap, counts the veer and records 0xA021. Each stated negative case
changes nothing. That a feed's window bit follows only these commands is the model's choice (log entry 29). Rules: R23,
R25, R424, R426, R428, R432, R434, R442, R443, R444, R447, R450. -/
def Obligations.FeedsRun : Prop :=
  ∀ s : State, s.canon →
    (∀ (f : Feed), (s.top.state = .off ∨ s.top.state = .standby) → Runs s (.feedEntersWindow f) (.pwr :: .reg Reg.PWR_FEEDSTAT ::
      stateParts) fun t => t.flag (inwinFld f) = true ∧ t.top =
      { s.top with state := .aon, prev := s.top.state, cause := 1 } ∧ t.pwr =
      { s.pwr with exc := s.pwr.exc.filter (· != 16 + feedNo f) }) ∧
    (∀ (f : Feed), s.top.state ≠ .off → s.top.state ≠ .standby → Runs s (.feedEntersWindow f) [.pwr, .reg Reg.PWR_FEEDSTAT] fun t
      => t.flag (inwinFld f) = true ∧ t.pwr = { s.pwr with exc := s.pwr.exc.filter (· != 16 + feedNo f) }) ∧
    (∀ (f : Feed), s.top.aonOn = true → s.feedIn f = true → s.top.state = .aon → s.fuse.read = true → s.flag
      Fld.MGT_FUSESTAT.PAGE_OK = true → s.feedUsed f = true → s.outranked 4 = false → Runs s (.feedQualified f) (.pwr ::
      .reg Reg.PWR_SEQSTAT :: .reg Reg.PWR_FEEDSTAT :: .reg Reg.PWR_HOLD :: .reg Reg.PWR_CONTENTS :: stateParts) fun t =>
      t.flag (qualFld f) = true ∧ t.top = { s.top with state := .sequence, prev := .aon, cause := 2 } ∧ t.flag (gateFld
      t.active) = true ∧ t.pwr.part = 1) ∧
    (∀ (f : Feed), s.top.aonOn = true → s.feedIn f = true → s.inCalm = true → s.pwr.left = true → s.feedUsed f = true →
      s.outranked 4 = false → Runs s (.feedQualified f) (.links :: .flt :: .pwr :: .gust :: .reg Reg.DPH_RETSTAT :: .reg
      Reg.PWR_SEQSTAT :: .reg Reg.PWR_FEEDSTAT :: .reg Reg.PWR_HOLD :: .reg Reg.PWR_CONTENTS :: .reg Reg.PWR_GAUGEDIS ::
      stateParts) fun t => t.flag (qualFld f) = true ∧ t.top =
      { s.top with state := .restore, prev := .calm, cause := 0x0D, trigger := none } ∧ t.active = f ∧ t.flag (gateFld f) =
      true ∧ (t.flag Fld.PWR_HOLD.EARLY = false ∨ s.flag Fld.PWR_HOLD.EARLY = true) ∧ t.pwr.holdLow = true ∧ t.pwr.part = 1
      ∧ t.gust.rst = 2 ∧ t.gust.early = false ∧ t.reg Reg.PWR_CONTENTS = 0) ∧
    (∀ (f : Feed), s.top.aonOn = true → s.feedIn f = true → (s.qualLeaves f = false ∨ s.outranked 4 = true) → (s.top.state ≠
      .restore ∨ s.gust.rst ≠ 5 ∨ s.active ≠ f ∨ s.top.trigger ≠ none) → Runs s (.feedQualified f) [.reg Reg.PWR_FEEDSTAT,
      .reg Reg.PWR_HOLD] fun t => t.flag (qualFld f) = true ∧ (s.active = f → s.flag (qualFld f) = false → t.flag
      Fld.PWR_HOLD.EARLY = false) ∧ (s.active ≠ f → t.reg Reg.PWR_HOLD = s.reg Reg.PWR_HOLD)) ∧
    (∀ (f : Feed), (s.top.aonOn = false ∨ s.feedIn f = false) → exec (.feedQualified f) s = .next s) ∧
    (∀ (f : Feed), s.top.aonOn = true → s.feedIn f = true → s.flag (qualFld f) = false → s.top.state = .restore → s.gust.rst = 5
      → s.active = f → s.top.trigger = none → Runs s (.feedQualified f) (.flt :: .cal :: .pwr :: .gust :: .boot :: .reg
      Reg.MAP_USE :: .reg Reg.MAP_TBLSRC :: .reg Reg.PWR_FEEDSTAT :: .reg Reg.PWR_HOLD :: .reg Reg.PWR_CONTENTS :: .reg
      Reg.MGT_BOOTSTAT :: .reg Reg.MGT_CIPHCTL :: fallParts) fun t => t.flag (qualFld f) = true ∧ t.flag Fld.PWR_HOLD.EARLY
      = false ∧ (t.gust.rst = 6 ∧ t.top = s.top ∨ t.top =
      { s.top with state := .bootHold, prev := .restore, cause := 0x05 }) ∧ (t.fld Fld.PWR_CONTENTS.REPORT = 1 ∨ t.fld
      Fld.PWR_CONTENTS.REPORT = 3)) ∧
    (∀ (f : Feed), s.top.aonOn = true → s.feedIn f = true → ((s.top.state ≠ .aon ∧ s.top.state ≠ .faultOff) ∨ s.feedIn (feedOther
      f) = true) → Runs s (.feedOutOfWindow f) (.vbat :: .pwr :: .reg Reg.PWR_FEEDSTAT :: .reg Reg.PWR_HOLD :: .reg
      Reg.PWR_VEERS :: logParts) fun t => t.flag (inwinFld f) = false ∧ t.flag (qualFld f) = false ∧ t.flag (gateFld f) =
      false ∧ (t.vbat = s.vbat ∨ (s.flag Fld.PWR_HOLD.EARLY = true ∧ s.active = f)) ∧ (s.active = f ∧ s.flag (gateFld f) =
      true ∧ s.feedStays (feedOther f) = true ∧ s.feedUsed (feedOther f) = true → t.active = feedOther f ∧ t.flag (gateFld
      (feedOther f)) = true ∧ t.pwr.overlap = some f ∧ Counted Reg.PWR_VEERS s t ∧ (Attentive s → Logged 0xA020
      (BitVec.ofNat 32 (feedNo (feedOther f))) t)) ∧ (¬ (s.active = f ∧ s.flag (gateFld f) = true ∧ s.feedStays (feedOther
      f) = true ∧ s.feedUsed (feedOther f) = true) → t.active = s.active ∧ t.flag (gateFld (feedOther f)) = s.flag (gateFld
      (feedOther f)) ∧ t.reg Reg.PWR_VEERS = s.reg Reg.PWR_VEERS ∧ t.pwr.overlap = s.pwr.overlap) ∧ (s.canTrigger = true →
      s.pwr.det = none → (s.feedIn (feedOther f) = false ∨ s.feedUsed (feedOther f) = false) → t.pwr.det = some 2)) ∧
    (∀ (f : Feed), (s.top.aonOn = false ∨ s.feedIn f = false) → exec (.feedOutOfWindow f) s = .next s) ∧
    (∀ (f : Feed), s.top.aonOn = true → s.feedIn f = true → (s.top.state = .aon ∨ s.top.state = .faultOff) → s.feedIn (feedOther
      f) = false → Runs s (.feedOutOfWindow f) [.rx, .free, .top, .log, .sb, .links, .twin, .ord, .map, .mir, .sch, .flt,
      .cal, .clk, .vbat, .pwr, .gust, .fuse, .boot, .flash, .fmt, .dram, .regs] fun t => t.flag (inwinFld f) = false ∧
      t.flag (qualFld f) = false ∧ t.flag Fld.PWR_FEEDSTAT.GATE_A = false ∧ t.flag Fld.PWR_FEEDSTAT.GATE_B = false ∧ t.top =
      { s.top with state := if s.vbat.present then .standby else .off, prev := s.top.state, cause := 0, coreOn := false, trigger := none }
      ∧ t.pwr.rails = [] ∧ t.dram = [] ∧ t.reg Reg.PWR_SEQSTAT = 0 ∧ AonKept [Reg.GLB_HUBID, Reg.GLB_EVENT, Reg.GLB_DIRSTAT,
      Reg.PWR_RAILSTAT, Reg.PWR_SEQSTAT, Reg.PWR_FEEDSTAT, Reg.PWR_HOLD, Reg.PWR_VEERS, Reg.LOG_RINGSTAT, Reg.LOG_CAPTURED,
      Reg.LOG_COALESCED, Reg.LOG_LOST, Reg.LOG_ORPHANS, Reg.LOG_SQUALLS] s t) ∧
    (∀ (f : Feed), s.pwr.overlap = some f → Runs s .veerOldGateOff [.pwr, .reg Reg.PWR_FEEDSTAT] fun t => t.pwr =
      { s.pwr with overlap := none } ∧ (s.active ≠ f → t.flag (gateFld f) = false ∧ t.flag (gateFld (feedOther f)) = s.flag
      (gateFld (feedOther f))) ∧ (s.active = f → t.regs = s.regs)) ∧
    ((s.pwr.overlap = none) → exec .veerOldGateOff s = .next s) ∧
    (s.top.aonOn = true → s.active ≠ s.preferred → s.flag (gateFld s.active) = true → s.feedIn s.preferred = true → s.flag
      (suspectFld s.preferred) = false → s.pwr.retHold = false → Runs s .veerReturn (.pwr :: .reg Reg.PWR_FEEDSTAT :: .reg
      Reg.PWR_VEERS :: logParts) fun t => t.active = s.preferred ∧ t.flag (gateFld s.preferred) = true ∧ t.pwr =
      { s.pwr with overlap := some s.active, fresh := some s.time.elapsed } ∧ Counted Reg.PWR_VEERS s t ∧ (Attentive s →
      Logged 0xA021 (BitVec.ofNat 32 (feedNo s.preferred)) t)) ∧
    ((s.top.aonOn = false ∨ s.active = s.preferred ∨ s.flag (gateFld s.active) = false ∨ s.feedIn s.preferred = false ∨ s.flag
      (suspectFld s.preferred) = true ∨ s.pwr.retHold = true) → exec .veerReturn s = .next s)

/-- PLW_N, the gauge and holdup readiness. For every canonical state each command answers a next state under the conditions
given, and nothing outside the parts it names (never the queue) changes. PLW_N_ASSERT on a channel not yet shown sets its
PLW bit; with PLW_EN = 0 nothing else; with no channel ignored, alone it starts the discrepancy timer, and with the other
channel's timer running and a trigger possible it ends the timer and detects trigger 1. PLW_N_RELEASE clears the bit and
the channel's ignore mark; if its timer ran, the timer ends and PWR_PLWDISC counts. PLW_DISCREPANCY_TIMEOUT ends the
timer, counts in PWR_PLWDISC, detects trigger 3 where one can be taken, and records 0xA024 with the channel and that bit.
GAUGE_POLL with a good read stores charge, capacity, voltage, status and current and the time of the read.
HOLDUP_READY_CHANGE sets READY exactly when no condition fails, shows the failing condition (kept when the unit becomes
ready), and records 0xA02C on a change. HOLD_EN_LOW drives HOLD_EN low. With the AON domain off, or no timer or delay
running, they change nothing. The bit places of the battery status behind readiness and bit 1 of 0xA024 are the model's
choices (log entries 30 and 31). Rules: R429, R430, R433, R442, R443, R456. -/
def Obligations.PlwAndHoldRun : Prop :=
  ∀ s : State, s.canon →
    (∀ (ch : Fin 2), s.top.aonOn = true → s.fldBit Fld.PWR_FEEDSTAT.PLW ch.val = false → Runs s (.plwNAssert ch) [.pwr, .reg
      Reg.PWR_FEEDSTAT] fun t => t.fldBit Fld.PWR_FEEDSTAT.PLW ch.val = true ∧ (s.flag Fld.PWR_PLWCFG.PLW_EN = false → t.pwr
      = s.pwr) ∧ (s.flag Fld.PWR_PLWCFG.PLW_EN = true → s.pwr.plwIgn = [] → s.pwr.plwTimer = none → s.fldBit
      Fld.PWR_FEEDSTAT.PLW (plwOther ch) = false → t.pwr = { s.pwr with plwTimer := some ch.val }) ∧ (s.flag
      Fld.PWR_PLWCFG.PLW_EN = true → s.pwr.plwIgn = [] → s.pwr.plwTimer = some (plwOther ch) → s.canTrigger = true →
      s.pwr.det = none → t.pwr = { s.pwr with plwTimer := none, det := some 1, left := false })) ∧
    (∀ (ch : Fin 2), (s.top.aonOn = false) → exec (.plwNAssert ch) s = .next s) ∧
    (∀ (ch : Fin 2), s.top.aonOn = true → Runs s (.plwNRelease ch) [.pwr, .reg Reg.PWR_FEEDSTAT, .reg Reg.PWR_PLWDISC] fun t =>
      t.fldBit Fld.PWR_FEEDSTAT.PLW ch.val = false ∧ t.pwr.plwIgn = s.pwr.plwIgn.filter (· != ch.val) ∧ (s.pwr.plwTimer =
      some ch.val → t.pwr.plwTimer = none ∧ t.fld ⟨Reg.PWR_PLWDISC, 31, 0⟩ = min 0xFFFFFFFF (s.fld ⟨Reg.PWR_PLWDISC, 31, 0⟩
      + 1)) ∧ (s.pwr.plwTimer ≠ some ch.val → t.pwr.plwTimer = s.pwr.plwTimer ∧ t.reg Reg.PWR_PLWDISC = s.reg
      Reg.PWR_PLWDISC)) ∧
    (∀ (ch : Fin 2), (s.top.aonOn = false) → exec (.plwNRelease ch) s = .next s) ∧
    (∀ (ch : Nat), s.pwr.plwTimer = some ch → Runs s .plwDiscrepancyTimeout (.pwr :: .reg Reg.PWR_PLWDISC :: logParts) fun t =>
      t.pwr.plwTimer = none ∧ t.fld ⟨Reg.PWR_PLWDISC, 31, 0⟩ = min 0xFFFFFFFF (s.fld ⟨Reg.PWR_PLWDISC, 31, 0⟩ + 1) ∧
      (s.canTrigger = true → s.pwr.det = none → t.pwr.det = some 3) ∧ (s.canTrigger = false → t.pwr.det = s.pwr.det) ∧
      (Attentive s → Logged 0xA024 (BitVec.ofNat 32 (ch + 2 * bitOf s.canTrigger)) t)) ∧
    ((s.pwr.plwTimer = none) → exec .plwDiscrepancyTimeout s = .next s) ∧
    (∀ (found : Option GaugeRead) (g : GaugeRead), s.top.aonOn = true → s.pwr.recal = false → found = some g → Runs s (.gaugePoll
      found) (.links :: .ord :: .pwr :: .reg Reg.ORD_FLUSHES :: .reg Reg.PWR_HOLD :: .reg Reg.PWR_GAUGE :: .reg
      Reg.PWR_GAUGEVS :: .reg Reg.PWR_GAUGECUR :: logParts) fun t => t.fld Fld.PWR_GAUGE.REMAIN = g.remain.toNat ∧ t.fld
      Fld.PWR_GAUGE.FULL = g.full.toNat ∧ t.fld Fld.PWR_GAUGEVS.VOLT = g.volt.toNat ∧ t.fld Fld.PWR_GAUGEVS.STATUS =
      g.status.toNat ∧ t.fld Fld.PWR_GAUGECUR.CURRENT = g.current.toNat ∧ t.pwr.gaugeAt = some s.time.elapsed ∧
      t.pwr.remainZero = (g.remain == 0)) ∧
    (∀ (found : Option GaugeRead), (s.top.aonOn = false) → exec (.gaugePoll found) s = .next s) ∧
    (∀ (silent : Bool), s.top.aonOn = true → Runs s (.holdupReadyChange silent) (.links :: .ord :: .reg Reg.ORD_FLUSHES :: .reg
      Reg.PWR_HOLD :: logParts) fun t => (t.fld Fld.PWR_HOLD.NOREADY = (if s.notReady silent = 0 ∧ s.flag Fld.PWR_HOLD.READY
      = true then s.fld Fld.PWR_HOLD.NOREADY else s.notReady silent)) ∧ t.flag Fld.PWR_HOLD.READY = decide (s.notReady
      silent = 0) ∧ (Attentive s → s.flag Fld.PWR_HOLD.READY ≠ decide (s.notReady silent = 0) → Logged 0xA02C (BitVec.ofNat
      32 (bitOf (s.notReady silent == 0) + (s.notReady silent <<< 4))) t)) ∧
    (∀ (silent : Bool), (s.top.aonOn = false) → exec (.holdupReadyChange silent) s = .next s) ∧
    (s.pwr.holdLow = true → Runs s .holdEnLow [.pwr, .reg Reg.PWR_HOLD] fun t => t.flag Fld.PWR_HOLD.HOLD_EN = false ∧ t.pwr =
      { s.pwr with holdLow := false }) ∧
    ((s.pwr.holdLow = false) → exec .holdEnLow s = .next s)

/-- Power-loss trigger and the steps of Gust. For every canonical state each command answers a next state under the conditions
given, and nothing outside the parts it names (never the queue) changes. POWER_LOSS_TRIGGER with a trigger detected,
possible and not outranked (R25): with the contents valid, in JOIN, SERVICE or RESTORE, it registers the trigger, enters
GUST with cause 0x0B at step 3, shows its code, drives HOLD_EN high, counts the Gust and its sequence number, empties
lanes, mapped merge, agent queue and calibration runs, and gives every port with traffic a PLN; with them not valid it
empties the same, and starts the full shutdown (form 0) or is in STANDBY or OFF at once. A trigger that cannot be taken
only loses its detection. GUST_WRITES_DRAINED, once every bank is precharged and no replay of an alert or planned Lull
runs, goes to step 4 and notes an emergency Lull. GUST_JOURNAL_WRITTEN goes to step 5 with at most 8,448 lines; COMPLETE
stays only if nothing was dropped and every line fitted. GUST_HEADER_WRITTEN goes to step 6 with at most 16,384 marks,
MARKS_OVF beyond that, and shows COMPLETE, MARKS_OVF and LINES. GUST_SELF_REFRESH goes to step 7 with every awake trained
rank of the populated sub-channels in self-refresh and held, CK stopped, the retention latch set and the partial form of
shutdown. Out of their step they change nothing. What the journal counts beyond the rules' words, and that an emergency
Lull marks the journal incomplete, are the model's choices (log entry 32). Rules: R23, R25, R39, R186, R389, R432, R435,
R437, R440, R455. -/
def Obligations.GustRuns : Prop :=
  ∀ s : State, s.canon →
    (∀ (code : BitVec 2), s.pwr.det = some code → s.canTrigger = true → s.outranked 3 = false → s.flag Fld.PWR_HOLD.CVALID = true
      → (s.top.state = .join ∨ s.top.state = .service ∨ s.top.state = .restore) → Runs s .powerLossTrigger (.rx :: .links ::
      .ord :: .map :: .mir :: .sch :: .flt :: .cal :: .clk :: .vbat :: .pwr :: .gust :: .block 0x6 :: .reg Reg.CLK_STAT ::
      .reg Reg.CLK_LULLSTAT :: .reg Reg.PWR_SEQSTAT :: .reg Reg.PWR_HOLD :: .reg Reg.PWR_GUSTS :: .reg Reg.PWR_GUSTSTAT ::
      stateParts) fun t => t.top = { s.top with state := .gust, prev := s.top.state, cause := 0x0B, trigger := some code } ∧
      t.pwr.det = none ∧ t.fld Fld.PWR_GUSTSTAT.TRIG = code.toNat ∧ t.flag Fld.PWR_HOLD.HOLD_EN = true ∧ Counted
      Reg.PWR_GUSTS s t ∧ t.gust.step = 3 ∧ t.vbat.gustSeq = s.vbat.gustSeq + 1 ∧ t.ord.mapped = [] ∧ t.cal.runs = [] ∧
      t.ord.agentQ = [] ∧ (∀ p ∈ allPorts, (t.link p).lane = []) ∧ (∀ p ∈ allPorts, (s.link p).up = true → (t.link
      p).pln.isSome = true)) ∧
    ((s.pwr.det = none) → exec .powerLossTrigger s = .next s) ∧
    (∀ (code : BitVec 2), s.pwr.det = some code → s.canTrigger = true → s.outranked 3 = false → s.flag Fld.PWR_HOLD.CVALID =
      false → Runs s .powerLossTrigger [.rx, .free, .top, .log, .sb, .links, .twin, .ord, .map, .mir, .sch, .flt, .cal,
      .clk, .pwr, .gust, .fuse, .boot, .flash, .fmt, .dram, .regs] fun t => t.pwr.det = none ∧ t.fld Fld.PWR_GUSTSTAT.TRIG =
      code.toNat ∧ t.ord.mapped = [] ∧ t.cal.runs = [] ∧ (t.fld Fld.PWR_SEQSTAT.TABLE = 2 ∧ t.fld Fld.PWR_SEQSTAT.FORM = 0 ∧
      t.top = { s.top with trigger := some code } ∨ t.top =
      { s.top with state := if s.vbat.present then .standby else .off, prev := s.top.state, cause := 0, coreOn := false, trigger := none }
      ∧ t.dram = [] ∧ t.pwr.rails = []) ∧ AonKept [Reg.GLB_HUBID, Reg.GLB_EVENT, Reg.GLB_DIRSTAT, Reg.PWR_RAILSTAT,
      Reg.PWR_SEQSTAT, Reg.PWR_FEEDSTAT, Reg.PWR_HOLD, Reg.PWR_GUSTSTAT, Reg.LOG_RINGSTAT, Reg.LOG_CAPTURED,
      Reg.LOG_COALESCED, Reg.LOG_LOST, Reg.LOG_ORPHANS, Reg.LOG_SQUALLS] s t) ∧
    (∀ (code : BitVec 2), s.pwr.det = some code → (s.canTrigger = false ∨ s.outranked 3 = true) → Runs s .powerLossTrigger [.pwr]
      fun t => t.pwr = { s.pwr with det := none }) ∧
    (s.top.state = .gust → s.gust.step = 3 → s.allPrecharged = true → s.replaying = false → (s.clk.planned = false ∨ s.clk.emerg
      ≠ 0) → Runs s .gustWritesDrained [.gust] fun t => t.gust = { s.gust with step := 4, dropped := s.clk.emerg != 0 }) ∧
    ((s.top.state ≠ .gust ∨ s.gust.step ≠ 3 ∨ s.allPrecharged = false) → exec .gustWritesDrained s = .next s) ∧
    (s.top.state = .gust → s.gust.step = 4 → Runs s .gustJournalWritten (.gust :: .dram :: .reg Reg.ECC_SEALFAIL :: .reg
      Reg.ECC_FIRSTFAIL :: logParts) fun t => t.gust.step = 5 ∧ t.gust.lines = min 8448 s.journalLines.length ∧
      (t.gust.complete = true → s.gust.complete = true ∧ s.gust.dropped = false ∧ s.journalLines.length ≤ 8448) ∧ t.top =
      s.top) ∧
    ((s.top.state ≠ .gust ∨ s.gust.step ≠ 4) → exec .gustJournalWritten s = .next s) ∧
    (s.top.state = .gust → s.gust.step = 5 → Runs s .gustHeaderWritten [.gust, .dram, .reg Reg.PWR_GUSTSTAT] fun t => t.gust.step
      = 6 ∧ t.gust.marks = min 16384 s.owedMarks.length ∧ t.gust.ovf = decide (16384 < s.owedMarks.length) ∧ t.flag
      Fld.PWR_GUSTSTAT.COMPLETE = t.gust.complete ∧ t.flag Fld.PWR_GUSTSTAT.MARKS_OVF = t.gust.ovf ∧ (s.gust.lines < 2 ^ 14
      → t.fld Fld.PWR_GUSTSTAT.LINES = s.gust.lines)) ∧
    ((s.top.state ≠ .gust ∨ s.gust.step ≠ 5) → exec .gustHeaderWritten s = .next s) ∧
    (s.top.state = .gust → s.gust.step = 6 → Runs s .gustSelfRefresh [.sch, .pwr, .gust, .reg Reg.PWR_SEQSTAT, .reg
      Reg.PWR_RAILSTAT] fun t => t.gust = { s.gust with step := 7 } ∧ t.pwr.latch = true ∧ t.fld Fld.PWR_SEQSTAT.FORM = 1 ∧
      (∀ n ∈ s.popSubs, (t.sub n).held = true ∧ (t.sub n).sref = s.wakeful n ∧ (t.sub n).pins.ckBin = none)) ∧
    ((s.top.state ≠ .gust ∨ s.gust.step ≠ 6) → exec .gustSelfRefresh s = .next s)

/-- CALM: entry and exits, and RESTORE up to JOIN. For every canonical state each command answers a next state under the
conditions given, and nothing outside the parts it names (never the queue) changes. CALM_ENTRY after the last step of Gust
with the load shed enters CALM with cause 0x0C, the core domain off, the links gone, the core's queues empty and
self-refresh kept, and shows the Gust's length (at most 1023 microseconds). With the shutdown table done:
CALM_FALSE_WARNING, and VBBU_CUTOFF, with no feed having left its window go to RESTORE with cause 0x0E, HOLD_EN low,
PWR_FALSEGUST counted. VBBU_CUTOFF after a feed has left: with the preferred feed in window and no feed qualified it takes
the early return (cause 0x0F, EARLY set, 0xA028); with it qualified it returns on it with cause 0x0D; with no feed in
window it clears the contents-valid flag with reason 5 and starts the full shutdown or falls to STANDBY or OFF. Each
return starts the boot section and clears PWR_CONTENTS. RESTORE_DRAM_DONE with training over keeps the retention store;
with a usable rank left it goes on to the replay, with none to BOOT_HOLD with cause 8, hold 4, the flag cleared with
reason 0xC and REPORT 2. JOURNAL_REPLAY_DONE, no agent request waiting, goes to step 5 after an early return; otherwise to
step 6 or to BOOT_HOLD with cause 5 and hold 7, with REPORT 1 or 3. RESTORE_COMPLETE once no agent request waits and the
links have come to the end of their training (the model's reading, log entry 33) goes to JOIN with cause 0x10, ports not
quiesced, streams, forks and port pointer cleared, the pool kept. Where another event outranks them (R25) nothing is said;
out of their state or step they change nothing. Which event leaves CALM first is the model's choice (log entry 30). Rules:
R23, R121, R124, R284, R349, R436, R442, R443, R447, R448, R449. -/
def Obligations.CalmAndRestoreRun : Prop :=
  ∀ s : State, s.canon →
    (s.top.state = .gust → s.gust.step = 7 → s.loadShed = true → s.outranked 7 = false → Runs s .calmEntry [.rx, .free, .top,
      .log, .sb, .links, .twin, .ord, .map, .mir, .sch, .flt, .cal, .clk, .pwr, .gust, .boot, .flash, .regs] fun t => t.top
      = { s.top with state := .calm, prev := .gust, cause := 0x0C, coreOn := false } ∧ t.gust =
      { s.gust with step := 0, len := (s.time.elapsed - s.gust.began) / 8000 } ∧ t.fld Fld.PWR_GUSTSTAT.DUR = min 1023
      ((s.time.elapsed - s.gust.began) / 8000) ∧ t.fld Fld.PWR_SEQSTAT.TABLE = 0 ∧ t.ord = {} ∧ (∀ n ∈ List.range 16, (t.sub
      n).sref = (s.sub n).sref ∧ (t.sub n).store = []) ∧ t.links = [] ∧ AonKept [Reg.GLB_HUBID, Reg.GLB_EVENT,
      Reg.GLB_DIRSTAT, Reg.PWR_GUSTSTAT, Reg.PWR_SEQSTAT, Reg.LOG_RINGSTAT, Reg.LOG_CAPTURED, Reg.LOG_COALESCED,
      Reg.LOG_LOST, Reg.LOG_ORPHANS, Reg.LOG_SQUALLS] s t) ∧
    ((s.top.state ≠ .gust ∨ s.gust.step ≠ 7 ∨ s.loadShed = false) → exec .calmEntry s = .next s) ∧
    (s.top.state = .calm → s.fld Fld.PWR_SEQSTAT.TABLE = 0 → s.pwr.left = false → s.outranked 7 = false → Runs s
      .calmFalseWarning (.links :: .flt :: .pwr :: .gust :: .reg Reg.DPH_RETSTAT :: .reg Reg.PWR_SEQSTAT :: .reg
      Reg.PWR_HOLD :: .reg Reg.PWR_CONTENTS :: .reg Reg.PWR_FALSEGUST :: .reg Reg.PWR_GAUGEDIS :: stateParts) fun t => t.top
      = { s.top with state := .restore, prev := .calm, cause := 0x0E, trigger := none } ∧ t.flag Fld.PWR_HOLD.HOLD_EN =
      false ∧ t.fld ⟨Reg.PWR_FALSEGUST, 31, 0⟩ = min 0xFFFFFFFF (s.fld ⟨Reg.PWR_FALSEGUST, 31, 0⟩ + 1) ∧ t.reg
      Reg.PWR_CONTENTS = 0 ∧ t.gust.rst = 2 ∧ t.pwr.part = 1 ∧ t.fld Fld.PWR_SEQSTAT.TABLE = 1) ∧
    ((s.top.state ≠ .calm ∨ s.pwr.left = true) → exec .calmFalseWarning s = .next s) ∧
    (s.top.state = .calm → s.fld Fld.PWR_SEQSTAT.TABLE = 0 → s.pwr.left = false → s.outranked 5 = false → Runs s .vbbuCutoff
      (.links :: .flt :: .pwr :: .gust :: .reg Reg.DPH_RETSTAT :: .reg Reg.PWR_SEQSTAT :: .reg Reg.PWR_HOLD :: .reg
      Reg.PWR_CONTENTS :: .reg Reg.PWR_FALSEGUST :: .reg Reg.PWR_GAUGEDIS :: stateParts) fun t => t.top =
      { s.top with state := .restore, prev := .calm, cause := 0x0E, trigger := none } ∧ t.flag Fld.PWR_HOLD.HOLD_EN = false
      ∧ t.fld ⟨Reg.PWR_FALSEGUST, 31, 0⟩ = min 0xFFFFFFFF (s.fld ⟨Reg.PWR_FALSEGUST, 31, 0⟩ + 1) ∧ t.reg Reg.PWR_CONTENTS =
      0 ∧ t.gust.rst = 2 ∧ t.pwr.part = 1 ∧ t.fld Fld.PWR_SEQSTAT.TABLE = 1) ∧
    ((s.top.state ≠ .calm) → exec .vbbuCutoff s = .next s) ∧
    (s.top.state = .calm → s.fld Fld.PWR_SEQSTAT.TABLE = 0 → s.pwr.left = true → s.outranked 5 = false → s.feedIn s.preferred =
      true → s.flag (qualFld s.preferred) = false → (s.feedIn (feedOther s.preferred) = false ∨ s.feedUsed (feedOther
      s.preferred) = false ∨ s.flag (qualFld (feedOther s.preferred)) = false) → Runs s .vbbuCutoff (.links :: .flt :: .pwr
      :: .gust :: .reg Reg.DPH_RETSTAT :: .reg Reg.PWR_SEQSTAT :: .reg Reg.PWR_FEEDSTAT :: .reg Reg.PWR_HOLD :: .reg
      Reg.PWR_CONTENTS :: .reg Reg.PWR_GAUGEDIS :: stateParts) fun t => t.top =
      { s.top with state := .restore, prev := .calm, cause := 0x0F, trigger := none } ∧ t.flag Fld.PWR_HOLD.EARLY = true ∧
      t.active = s.preferred ∧ t.flag (gateFld s.preferred) = true ∧ t.pwr.holdLow = true ∧ t.gust.early = true ∧ (Attentive
      s → Logged 0xA028 (BitVec.ofNat 32 (feedNo s.preferred)) t) ∧ t.reg Reg.PWR_CONTENTS = 0 ∧ t.gust.rst = 2 ∧ t.pwr.part
      = 1 ∧ t.fld Fld.PWR_SEQSTAT.TABLE = 1) ∧
    (s.top.state = .calm → s.fld Fld.PWR_SEQSTAT.TABLE = 0 → s.pwr.left = true → s.outranked 5 = false → s.feedIn s.preferred =
      true → s.flag (qualFld s.preferred) = true → Runs s .vbbuCutoff (.links :: .flt :: .pwr :: .gust :: .reg
      Reg.DPH_RETSTAT :: .reg Reg.PWR_SEQSTAT :: .reg Reg.PWR_FEEDSTAT :: .reg Reg.PWR_HOLD :: .reg Reg.PWR_CONTENTS :: .reg
      Reg.PWR_GAUGEDIS :: stateParts) fun t => t.top =
      { s.top with state := .restore, prev := .calm, cause := 0x0D, trigger := none } ∧ t.flag Fld.PWR_HOLD.EARLY = s.flag
      Fld.PWR_HOLD.EARLY ∧ t.active = s.preferred ∧ t.flag (gateFld s.preferred) = true ∧ t.pwr.holdLow = true ∧
      t.gust.early = false ∧ t.reg Reg.PWR_CONTENTS = 0 ∧ t.gust.rst = 2 ∧ t.pwr.part = 1 ∧ t.fld Fld.PWR_SEQSTAT.TABLE = 1) ∧
    (s.top.state = .calm → s.fld Fld.PWR_SEQSTAT.TABLE = 0 → s.pwr.left = true → s.outranked 5 = false → s.feedIn .a = false →
      s.feedIn .b = false → Runs s .vbbuCutoff [.rx, .free, .top, .log, .sb, .links, .twin, .ord, .map, .mir, .sch, .flt,
      .cal, .clk, .vbat, .pwr, .gust, .fuse, .boot, .flash, .fmt, .dram, .regs] fun t => t.vbat.cvalid = false ∧
      t.vbat.reason = 5 ∧ t.flag Fld.PWR_HOLD.CVALID = false ∧ t.top.trigger = none ∧ (t.top =
      { s.top with trigger := none } ∧ t.fld Fld.PWR_SEQSTAT.TABLE = 2 ∧ t.fld Fld.PWR_SEQSTAT.FORM = 2 ∨ t.top =
      { s.top with state := if s.vbat.present then .standby else .off, prev := .calm, cause := 0, coreOn := false, trigger := none }
      ∧ t.dram = []) ∧ AonKept [Reg.GLB_HUBID, Reg.GLB_EVENT, Reg.GLB_DIRSTAT, Reg.PWR_RAILSTAT, Reg.PWR_SEQSTAT,
      Reg.PWR_FEEDSTAT, Reg.PWR_HOLD, Reg.PWR_GAUGEDIS, Reg.LOG_RINGSTAT, Reg.LOG_CAPTURED, Reg.LOG_COALESCED, Reg.LOG_LOST,
      Reg.LOG_ORPHANS, Reg.LOG_SQUALLS] s t) ∧
    (s.top.state = .restore → s.top.trigger = none → s.gust.rst = 3 → s.trainingOver = true → s.outranked 7 = false →
      ((s.keepStore.retireFailed false).popRanks.any fun p => ((s.keepStore.retireFailed false).rank p).trained &&
      !(s.keepStore.retireFailed false).gone p) = true → Runs s .restoreDramDone (.free :: .ord :: .sch :: .flt :: .cal ::
      .gust :: .reg Reg.ORD_FWD :: .block 0x8 :: .links :: .twin :: .mir :: .reg Reg.ORD_LINEHOLD :: logParts) fun t =>
      t.gust =
      { s.gust with rst := 4, headOk := t.gust.headOk, headDone := t.gust.headDone, overflow := t.gust.overflow, unread := t.gust.unread }
      ∧ t.cal.valid = true ∧ t.cal.geom = s.reg Reg.MAP_GEOM ∧ t.cal.hubId = s.fld Fld.GLB_HUBID.HUB_ID) ∧
    ((s.top.state ≠ .restore ∨ s.gust.rst ≠ 3 ∨ s.trainingOver = false) → exec .restoreDramDone s = .next s) ∧
    (s.top.state = .restore → s.top.trigger = none → s.gust.rst = 3 → s.trainingOver = true → s.outranked 7 = false →
      ((s.keepStore.retireFailed false).popRanks.any fun p => ((s.keepStore.retireFailed false).rank p).trained &&
      !(s.keepStore.retireFailed false).gone p) = false → Runs s .restoreDramDone (.free :: .flt :: .cal :: .vbat :: .gust
      :: .boot :: .reg Reg.PWR_HOLD :: .reg Reg.PWR_CONTENTS :: .reg Reg.MGT_BOOTSTAT :: fallParts) fun t => t.top =
      { s.top with state := .bootHold, prev := .restore, cause := 0x08 } ∧ t.fld Fld.MGT_BOOTSTAT.HOLD_CAUSE = 4 ∧
      t.vbat.cvalid = false ∧ t.vbat.reason = 0xC ∧ t.fld Fld.PWR_CONTENTS.REPORT = 2 ∧ t.fld Fld.PWR_CONTENTS.REASON = 0xC
      ∧ t.flag Fld.PWR_HOLD.CVALID = false ∧ t.gust.rst = 0) ∧
    (s.top.state = .restore → s.top.trigger = none → s.gust.rst = 4 → s.ord.agentQ = [] → s.outranked 7 = false → s.flag
      Fld.PWR_HOLD.EARLY = true → Runs s .journalReplayDone (.free :: .links :: .twin :: .ord :: .mir :: .sch :: .flt ::
      .cal :: .gust :: .dram :: .reg Reg.ORD_FWD :: .block 0x8 :: .reg Reg.ORD_LINEHOLD :: logParts) fun t => t.gust.rst = 5) ∧
    ((s.top.state ≠ .restore ∨ s.gust.rst ≠ 4) → exec .journalReplayDone s = .next s) ∧
    (s.top.state = .restore → s.top.trigger = none → s.gust.rst = 4 → s.ord.agentQ = [] → s.outranked 7 = false → s.flag
      Fld.PWR_HOLD.EARLY = false → Runs s .journalReplayDone (.free :: .flt :: .cal :: .pwr :: .gust :: .boot :: .dram ::
      .reg Reg.MAP_USE :: .reg Reg.MAP_TBLSRC :: .block 0x8 :: .reg Reg.PWR_CONTENTS :: .reg Reg.MGT_BOOTSTAT :: .reg
      Reg.MGT_CIPHCTL :: fallParts) fun t => (t.gust.rst = 6 ∧ t.top = s.top ∨ t.gust.rst = 0 ∧ t.top =
      { s.top with state := .bootHold, prev := .restore, cause := 0x05 } ∧ t.fld Fld.MGT_BOOTSTAT.HOLD_CAUSE = 7) ∧ (t.fld
      Fld.PWR_CONTENTS.REPORT = 1 ∨ t.fld Fld.PWR_CONTENTS.REPORT = 3) ∧ t.flag Fld.GLB_EVENT.CONTENTS = true) ∧
    (s.top.state = .restore → s.top.trigger = none → s.gust.rst = 6 → s.ord.agentQ = [] → s.linksTrained = true → s.outranked 7 =
      false → Runs s .restoreComplete (.ord :: .gust :: .reg Reg.GLB_QUIESCE :: stateParts) fun t => t.top =
      { s.top with state := .join, prev := .restore, cause := 0x10 } ∧ t.gust = { s.gust with rst := 0 } ∧ t.fld
      Fld.GLB_QUIESCE.PORTS = 0 ∧ (t.ord.streams = [] ∧ t.ord.forkNext = 1 ∧ t.ord.front = 0 ∧ t.ord.forks = [] ∧ t.ord.ptr
      = 0) ∧ t.ord.pool = s.ord.pool) ∧
    ((s.top.state ≠ .restore ∨ s.top.trigger ≠ none ∨ s.gust.rst ≠ 6) → exec .restoreComplete s = .next s)

/-- Power sequencing: start rows, rails, resets and shutdown rows. For every canonical state each command answers a next state
under the conditions given, and nothing outside the parts it names (never the queue) changes. START_ROW_DELAY_END on an
enable row of a used rail not yet armed sets the rail ramping, puts it last in the drive order, drives its EN pin if it
has one, and unless NOWAIT waits for it; on a release row of a reset it starts the stretch and unless NOWAIT waits; on any
other row, or a rail unused or armed, it goes on to the next row or the end. RAIL_ARMED on a ramping rail in window arms
it and lets a row that waits for it go on. RAIL_START_TIMEOUT on a ramping rail of a running section is a rail fault:
FAULT_OFF with cause 0x11, every rail off, DRAM lost, the contents-valid flag cleared with reason 7, HOLD_EN low, the
fault counted and, if none stands, recorded with the rail and kind 3; in FAULT_OFF within 1 microsecond of the fault a
rail still watched joins the record's mask. RESET_STRETCH_END releases the reset and lets a row that waits for it go on.
START_SECTION_COMPLETE ends the section and records 0xA001 with its length. After the boot section it notes the core
supply; without the reference, or in SEQUENCE without that supply, the hub waits for them; then SEQUENCE goes to BOOT with
cause 3, RESTORE starts the core; both with REF_OK and the core PLL locked. After the memory section TRAIN begins on every
populated sub-channel with DRAM and fault state empty; RESTORE goes to step 3 with the latch released, no rank trained,
and every populated sub-channel waiting for its DLL (step 13). SHUTDOWN_ROW_DONE of a row that has acted takes it away,
0xA013 if its wait timed out and rows follow; after the last row of a full form the hub is in STANDBY or OFF with rails
off and DRAM lost, after that of the partial form the table is over and DRAM is kept. Where another event outranks them
(R25) and in each stated negative case they change nothing. When reset, wait and skipped rows act is the model's choice
(log entry 28). Rules: R21, R23, R382, R402, R404, R405, R409, R410, R412, R414, R447. -/
def Obligations.SequencingRuns : Prop :=
  ∀ s : State, s.canon →
    (s.pwr.part ≠ 0 → s.pwr.ended = false → s.pwr.acted = false → s.fld (Fld.PWR_START.ACTION s.seqRow) = 1 → s.railUsed (s.fld
      (Fld.PWR_START.TARGET s.seqRow)) = true → s.railArmed (s.fld (Fld.PWR_START.TARGET s.seqRow)) = false → Runs s
      .startRowDelayEnd [.pwr, .reg Reg.PWR_RAILSTAT, .reg Reg.PWR_SEQSTAT] fun t =>
      let n := s.fld (Fld.PWR_START.TARGET s.seqRow); t.railState n = .ramping ∧ t.pwr.order = s.pwr.order.filter (· != n)
      ++ [n] ∧ (s.flag (Fld.PWR_RAILCFG.NO_EN n) = false → t.fldBit Fld.PWR_SEQSTAT.ENOUT (s.fld (Fld.PWR_RAILCFG.EN n)) =
      true) ∧ (s.flag (Fld.PWR_START.NOWAIT s.seqRow) = false → t.pwr.acted = true ∧ t.seqRow = s.seqRow) ∧ (s.flag
      (Fld.PWR_START.NOWAIT s.seqRow) = true → t.pwr.acted = false ∧ (t.pwr.ended = true ∨ t.seqRow = s.seqRow + 1))) ∧
    ((s.pwr.part = 0 ∨ s.pwr.ended = true ∨ s.pwr.acted = true) → exec .startRowDelayEnd s = .next s) ∧
    (s.pwr.part ≠ 0 → s.pwr.ended = false → s.pwr.acted = false → s.fld (Fld.PWR_START.ACTION s.seqRow) = 1 → (s.railUsed (s.fld
      (Fld.PWR_START.TARGET s.seqRow)) = false ∨ s.railArmed (s.fld (Fld.PWR_START.TARGET s.seqRow)) = true) → Runs s
      .startRowDelayEnd [.pwr, .reg Reg.PWR_SEQSTAT] fun t => t.pwr.acted = false ∧ (t.pwr.ended = true ∨ t.seqRow =
      s.seqRow + 1) ∧ (t.pwr.rails = s.pwr.rails ∧ t.pwr.order = s.pwr.order) ∧ (t.fld Fld.PWR_SEQSTAT.ENOUT = s.fld
      Fld.PWR_SEQSTAT.ENOUT ∧ t.fld Fld.PWR_SEQSTAT.RELEASED = s.fld Fld.PWR_SEQSTAT.RELEASED) ∧ t.pwr.stretch =
      s.pwr.stretch) ∧
    (s.pwr.part ≠ 0 → s.pwr.ended = false → s.pwr.acted = false → s.fld (Fld.PWR_START.ACTION s.seqRow) = 2 → s.fld
      (Fld.PWR_START.TARGET s.seqRow) < 4 → Runs s .startRowDelayEnd [.pwr, .reg Reg.PWR_SEQSTAT] fun t =>
      let n := s.fld (Fld.PWR_START.TARGET s.seqRow); t.pwr.stretch = s.pwr.stretch.filter (· != n) ++ [n] ∧ (t.pwr.rails =
      s.pwr.rails ∧ t.pwr.order = s.pwr.order) ∧ (s.flag (Fld.PWR_START.NOWAIT s.seqRow) = false → t.pwr.acted = true ∧
      t.seqRow = s.seqRow) ∧ (s.flag (Fld.PWR_START.NOWAIT s.seqRow) = true → t.pwr.acted = false ∧ (t.pwr.ended = true ∨
      t.seqRow = s.seqRow + 1))) ∧
    (s.pwr.part ≠ 0 → s.pwr.ended = false → s.pwr.acted = false → s.fld (Fld.PWR_START.ACTION s.seqRow) ≠ 1 → (s.fld
      (Fld.PWR_START.ACTION s.seqRow) ≠ 2 ∨ 4 ≤ s.fld (Fld.PWR_START.TARGET s.seqRow)) → Runs s .startRowDelayEnd [.pwr,
      .reg Reg.PWR_SEQSTAT] fun t => t.pwr.acted = false ∧ (t.pwr.ended = true ∨ t.seqRow = s.seqRow + 1) ∧ (t.pwr.rails =
      s.pwr.rails ∧ t.pwr.order = s.pwr.order) ∧ (t.fld Fld.PWR_SEQSTAT.ENOUT = s.fld Fld.PWR_SEQSTAT.ENOUT ∧ t.fld
      Fld.PWR_SEQSTAT.RELEASED = s.fld Fld.PWR_SEQSTAT.RELEASED) ∧ t.pwr.stretch = s.pwr.stretch) ∧
    (∀ (rail : Fin 16), s.railRamping rail.val = true → s.railIn rail.val = true → Runs s (.railArmed rail) [.pwr, .reg
      Reg.PWR_RAILSTAT, .reg Reg.PWR_SEQSTAT] fun t => t.railState rail.val = .armed ∧ t.fldBit Fld.PWR_RAILSTAT.ARMED
      rail.val = true ∧ (s.rowWaits 1 rail.val = true → t.pwr.acted = false) ∧ (s.rowWaits 1 rail.val = false → t.pwr.acted
      = s.pwr.acted ∧ t.seqRow = s.seqRow)) ∧
    (∀ (rail : Fin 16), (s.railRamping rail.val = false ∨ s.railIn rail.val = false) → exec (.railArmed rail) s = .next s) ∧
    (∀ (rail : Fin 16), s.top.state ≠ .faultOff → s.railRamping rail.val = true → s.pwr.part ≠ 0 → s.outranked 2 = false → Runs s
      (.railStartTimeout rail) [.rx, .free, .top, .log, .sb, .links, .twin, .ord, .map, .mir, .sch, .flt, .cal, .clk, .vbat,
      .pwr, .gust, .boot, .flash, .fmt, .dram, .regs] fun t => t.top =
      { s.top with state := .faultOff, prev := s.top.state, cause := 0x11, coreOn := false, trigger := none } ∧ t.pwr.rails
      = [] ∧ t.dram = [] ∧ t.vbat.cvalid = false ∧ t.vbat.reason = 7 ∧ t.flag Fld.PWR_HOLD.HOLD_EN = false ∧ t.fld
      Fld.PWR_FAULTS.FAULTS = min Fld.PWR_FAULTS.FAULTS.max (s.fld Fld.PWR_FAULTS.FAULTS + 1) ∧ (s.pwr.record = none →
      s.vbat.record = none → t.vbat.record.map (fun r => (r.first, r.kind, r.state)) = some (rail.val, 3, s.top.state) ∧
      t.pwr.record = t.vbat.record) ∧ (s.pwr.record.isSome = true ∨ s.vbat.record.isSome = true → t.pwr.record =
      s.pwr.record ∧ t.vbat.record = s.vbat.record) ∧ AonKept [Reg.GLB_HUBID, Reg.GLB_EVENT, Reg.GLB_DIRSTAT,
      Reg.PWR_RAILSTAT, Reg.PWR_SEQSTAT, Reg.PWR_HOLD, Reg.PWR_FAULTS, Reg.LOG_RINGSTAT, Reg.LOG_CAPTURED,
      Reg.LOG_COALESCED, Reg.LOG_LOST, Reg.LOG_ORPHANS, Reg.LOG_SQUALLS] s t) ∧
    (∀ (rail : Fin 16), (s.top.state ≠ .faultOff ∧ (s.railRamping rail.val = false ∨ s.pwr.part = 0 ∨ s.outranked 2 = true)) →
      exec (.railStartTimeout rail) s = .next s) ∧
    (∀ (rail : Fin 16), s.top.state = .faultOff → rail.val ∈ s.pwr.failWatch.start → s.time.elapsed ≤ s.pwr.failAt + 8000 → Runs
      s (.railStartTimeout rail) [.vbat, .pwr] fun t => (t.vbat.record.map (·.mask) = s.vbat.record.map fun r => r.mask |||
      BitVec.ofNat 16 (1 <<< rail.val)) ∧ (t.pwr.record.map (·.mask) = s.pwr.record.map fun r => r.mask ||| BitVec.ofNat 16
      (1 <<< rail.val)) ∧ (s.time.elapsed ≠ s.pwr.failAt → t.vbat.record.map (·.first) = s.vbat.record.map (·.first))) ∧
    (∀ (k : Fin 4), k.val ∈ s.pwr.stretch → Runs s (.resetStretchEnd k) [.pwr, .reg Reg.PWR_SEQSTAT] fun t => t.pwr.stretch =
      s.pwr.stretch.filter (· != k.val) ∧ t.fldBit Fld.PWR_SEQSTAT.RELEASED k.val = true ∧ t.pwr.rails = s.pwr.rails ∧
      (s.rowWaits 2 k.val = true → t.pwr.acted = false) ∧ (s.rowWaits 2 k.val = false → t.pwr.acted = s.pwr.acted ∧ t.seqRow
      = s.seqRow)) ∧
    (∀ (k : Fin 4), (k.val ∉ s.pwr.stretch) → exec (.resetStretchEnd k) s = .next s) ∧
    (∀ (found : SectionEnd), s.sectionOver = true → s.outranked 7 = false → s.pwr.part = 1 → s.clk.refIn = true → found.supply =
      true → s.top.state = .sequence → Runs s (.startSectionComplete found) (.free :: .time :: .clk :: .pwr :: .reg
      Reg.CLK_STAT :: .reg Reg.PWR_SEQSTAT :: stateParts) fun t => t.top =
      { s.top with state := .boot, prev := .sequence, cause := 3, coreOn := true } ∧ t.flag Fld.CLK_STAT.REF_OK = true ∧
      t.flag Fld.CLK_STAT.CPLL_LOCK = true ∧ t.pwr.part = 0 ∧ t.fld Fld.PWR_SEQSTAT.TABLE = 0 ∧ (Attentive s → Logged 0xA001
      (BitVec.ofNat 32 (s.pwr.part - 1 + (min 0xFFFF ((s.time.elapsed - s.pwr.began) / 80000) <<< 16))) t)) ∧
    (∀ (found : SectionEnd), s.sectionOver = true → s.outranked 7 = false → s.pwr.part = 1 → (s.clk.refIn = false ∨ found.supply
      = false ∧ s.top.state = .sequence) → Runs s (.startSectionComplete found) (.pwr :: .reg Reg.PWR_SEQSTAT :: logParts)
      fun t => t.pwr.bootWait = true ∧ t.pwr.supplyOk = found.supply ∧ t.pwr.part = 0 ∧ t.fld Fld.PWR_SEQSTAT.TABLE = 0 ∧
      (Attentive s → Logged 0xA001 (BitVec.ofNat 32 (s.pwr.part - 1 + (min 0xFFFF ((s.time.elapsed - s.pwr.began) / 80000)
      <<< 16))) t)) ∧
    (∀ (found : SectionEnd), s.sectionOver = false → s.outranked 7 = false → s.pwr.bootWait = true → s.clk.refIn = true →
      found.supply = true → s.top.state = .sequence → Runs s (.startSectionComplete found) (.free :: .time :: .clk :: .pwr
      :: .reg Reg.CLK_STAT :: stateParts) fun t => t.top =
      { s.top with state := .boot, prev := .sequence, cause := 3, coreOn := true } ∧ t.flag Fld.CLK_STAT.REF_OK = true ∧
      t.flag Fld.CLK_STAT.CPLL_LOCK = true ∧ t.pwr = { s.pwr with bootWait := false, supplyOk := true }) ∧
    (∀ (found : SectionEnd), (s.sectionOver = false ∧ s.pwr.bootWait = false ∨ s.sectionOver = true ∧ s.outranked 7 = true) →
      Runs s (.startSectionComplete found) [.pwr] fun t => t.pwr = { s.pwr with supplyOk := found.supply }) ∧
    (∀ (found : SectionEnd), s.sectionOver = true → s.outranked 7 = false → s.pwr.part = 1 → s.clk.refIn = true → s.top.state =
      .restore → Runs s (.startSectionComplete found) (.free :: .time :: .clk :: .pwr :: .reg Reg.CLK_STAT :: .reg
      Reg.PWR_SEQSTAT :: stateParts) fun t => t.top = { s.top with coreOn := true } ∧ t.flag Fld.CLK_STAT.REF_OK = true ∧
      t.flag Fld.CLK_STAT.CPLL_LOCK = true ∧ t.pwr.part = 0 ∧ t.fld Fld.PWR_SEQSTAT.TABLE = 0 ∧ (Attentive s → Logged 0xA001
      (BitVec.ofNat 32 (s.pwr.part - 1 + (min 0xFFFF ((s.time.elapsed - s.pwr.began) / 80000) <<< 16))) t)) ∧
    (∀ (found : SectionEnd), s.sectionOver = true → s.outranked 7 = false → s.pwr.part = 2 → s.top.state = .train → Runs s
      (.startSectionComplete found) (.sch :: .flt :: .cal :: .fmt :: .dram :: .pwr :: .block 0x6 :: .reg Reg.PWR_SEQSTAT ::
      logParts) fun t => t.dram = [] ∧ t.flt = {} ∧ (∀ n ∈ List.range 16, (t.training n).step = if n < 2 ^ s.geom.sBits then
      1 else 0) ∧ t.pwr.part = 0 ∧ t.fld Fld.PWR_SEQSTAT.TABLE = 0 ∧ (Attentive s → Logged 0xA001 (BitVec.ofNat 32
      (s.pwr.part - 1 + (min 0xFFFF ((s.time.elapsed - s.pwr.began) / 80000) <<< 16))) t)) ∧
    (∀ (found : SectionEnd), s.sectionOver = true → s.outranked 7 = false → s.pwr.part = 2 → s.top.state = .restore → Runs s
      (.startSectionComplete found) (.sch :: .flt :: .cal :: .clk :: .pwr :: .gust :: .block 0x5 :: .block 0x6 :: .block 0x7
      :: .block 0x9 :: .reg Reg.PWR_SEQSTAT :: logParts) fun t => t.gust = { s.gust with rst := 3 } ∧ t.pwr.latch = false ∧
      t.flag Fld.CLK_STAT.MPLL_LOCK = true ∧ (∀ p ∈ List.range 32, (t.rank p).trained = false) ∧ (∀ n ∈ List.range 16,
      (t.training n).step = if n < 2 ^ s.geom.sBits then 13 else 0) ∧ t.pwr.part = 0 ∧ t.fld Fld.PWR_SEQSTAT.TABLE = 0 ∧
      (Attentive s → Logged 0xA001 (BitVec.ofNat 32 (s.pwr.part - 1 + (min 0xFFFF ((s.time.elapsed - s.pwr.began) / 80000)
      <<< 16))) t)) ∧
    (∀ (timedOut : Bool) (r : Nat × Word) (rest : List (Nat × Word)), s.pwr.stopActed = true → s.pwr.stop = r :: rest → Runs s
      (.shutdownRowDone timedOut) [.rx, .free, .top, .log, .sb, .links, .twin, .ord, .map, .mir, .sch, .flt, .cal, .clk,
      .pwr, .gust, .fuse, .boot, .flash, .fmt, .dram, .regs] fun t => t.pwr.stop.length ≤ rest.length ∧ (t.pwr.stop ≠ [] →
      timedOut = true → Attentive s → Logged 0xA013 (BitVec.ofNat 32 (fieldGet r.2 27 24)) t) ∧ (s.pwr.stop.length = 1 →
      s.fld Fld.PWR_SEQSTAT.FORM ≠ 1 → t.top =
      { s.top with state := if s.vbat.present then .standby else .off, prev := s.top.state, cause := 0, coreOn := false, trigger := none }
      ∧ t.pwr.rails = [] ∧ t.dram = []) ∧ (s.pwr.stop.length = 1 → s.fld Fld.PWR_SEQSTAT.FORM = 1 → t.fld
      Fld.PWR_SEQSTAT.TABLE = 0 ∧ t.top = s.top ∧ t.dram = s.dram) ∧ (t.pwr.stop ≠ [] → t.top = s.top ∧ t.dram = s.dram ∧
      t.ord = s.ord ∧ t.mir = s.mir ∧ t.links = s.links) ∧ AonKept [Reg.GLB_HUBID, Reg.GLB_EVENT, Reg.GLB_DIRSTAT,
      Reg.PWR_RAILSTAT, Reg.PWR_SEQSTAT, Reg.PWR_FEEDSTAT, Reg.PWR_HOLD, Reg.LOG_RINGSTAT, Reg.LOG_CAPTURED,
      Reg.LOG_COALESCED, Reg.LOG_LOST, Reg.LOG_ORPHANS, Reg.LOG_SQUALLS] s t) ∧
    (∀ (timedOut : Bool), (s.pwr.stopActed = false) → exec (.shutdownRowDone timedOut) s = .next s)

/-- Rail supervision: faults, droop, excursions and readings. For every canonical state each command answers a next state
under the conditions given, and nothing outside the parts it names (never the queue) changes. RAIL_OUT_OF_WINDOW on a used
rail with the AON domain on: of an armed rail outside FAULT_OFF, with nothing outranking it (R25), it is a rail fault
unless it falls during a droop: FAULT_OFF with cause 0x11, every rail off, DRAM lost, the contents-valid flag cleared with
reason 7, HOLD_EN low, the fault counted and, if none stands, recorded with the rail, kind 2 above or 1 below, and the
state. During a droop a rail below its window is disarmed instead and 0xA012 recorded, and the top level stays. A rail
neither armed nor ramping above its window only shows out of window. In FAULT_OFF within 1 microsecond of the fault a rail
still watched joins the record's mask. EXCURSION_START notes the input and clears a rail's INWIN bit; RAIL_BACK_IN_WINDOW
removes the note and sets it; for a feed neither changes a register (the model's choice, log entry 29). ADC_CONVERSION
stores the VBBU reading and its minimum and, for each used rail read, the reading and its minimum; an unused rail's
register stays. With the AON domain off, or the rail unused, they change nothing. Rules: R23, R25, R400, R401, R402, R403,
R411, R412, R414, R416. -/
def Obligations.SupervisionRuns : Prop :=
  ∀ s : State, s.canon →
    (∀ (rail : Fin 16) (above : Bool), s.top.aonOn = true → s.railUsed rail.val = true → s.top.state ≠ .faultOff → s.railArmed
      rail.val = true → (s.pwr.droop = false ∨ above = true) → s.outranked 2 = false → Runs s (.railOutOfWindow rail above)
      [.rx, .free, .top, .log, .sb, .links, .twin, .ord, .map, .mir, .sch, .flt, .cal, .clk, .vbat, .pwr, .gust, .boot,
      .flash, .fmt, .dram, .regs] fun t => t.top =
      { s.top with state := .faultOff, prev := s.top.state, cause := 0x11, coreOn := false, trigger := none } ∧ t.pwr.rails
      = [] ∧ t.dram = [] ∧ t.vbat.cvalid = false ∧ t.vbat.reason = 7 ∧ t.flag Fld.PWR_HOLD.HOLD_EN = false ∧ t.fld
      Fld.PWR_FAULTS.FAULTS = min Fld.PWR_FAULTS.FAULTS.max (s.fld Fld.PWR_FAULTS.FAULTS + 1) ∧ (s.pwr.record = none →
      s.vbat.record = none → t.vbat.record.map (fun r => (r.first, r.kind, r.state)) = some (rail.val, (if above then 2 else
      1), s.top.state) ∧ t.pwr.record = t.vbat.record) ∧ (s.pwr.record.isSome = true ∨ s.vbat.record.isSome = true →
      t.pwr.record = s.pwr.record ∧ t.vbat.record = s.vbat.record) ∧ AonKept [Reg.GLB_HUBID, Reg.GLB_EVENT, Reg.GLB_DIRSTAT,
      Reg.PWR_RAILSTAT, Reg.PWR_SEQSTAT, Reg.PWR_HOLD, Reg.PWR_FAULTS, Reg.LOG_RINGSTAT, Reg.LOG_CAPTURED,
      Reg.LOG_COALESCED, Reg.LOG_LOST, Reg.LOG_ORPHANS, Reg.LOG_SQUALLS] s t) ∧
    (∀ (rail : Fin 16) (above : Bool), (s.top.aonOn = false ∨ s.railUsed rail.val = false) → exec (.railOutOfWindow rail above) s
      = .next s) ∧
    (∀ (rail : Fin 16) (above : Bool), s.top.aonOn = true → s.railUsed rail.val = true → s.top.state ≠ .faultOff → s.railArmed
      rail.val = true → s.pwr.droop = true → above = false → Runs s (.railOutOfWindow rail above) (.pwr :: .reg
      Reg.PWR_RAILSTAT :: logParts) fun t => t.railState rail.val = .disarmed ∧ t.fldBit Fld.PWR_RAILSTAT.INWIN rail.val =
      false ∧ t.top = s.top ∧ (Attentive s → Logged 0xA012 (BitVec.ofNat 32 rail.val) t)) ∧
    (∀ (rail : Fin 16) (above : Bool), s.top.aonOn = true → s.railUsed rail.val = true → s.top.state ≠ .faultOff → s.railArmed
      rail.val = false → (s.railRamping rail.val = false ∨ above = false) → Runs s (.railOutOfWindow rail above) [.pwr, .reg
      Reg.PWR_RAILSTAT] fun t => t.fldBit Fld.PWR_RAILSTAT.INWIN rail.val = false ∧ t.pwr =
      { s.pwr with exc := s.pwr.exc.filter (· != rail.val) }) ∧
    (∀ (rail : Fin 16) (above : Bool), s.top.aonOn = true → s.railUsed rail.val = true → s.top.state = .faultOff → rail.val ∈ (if
      above then s.pwr.failWatch.above else s.pwr.failWatch.below) → s.time.elapsed ≤ s.pwr.failAt + 8000 → Runs s
      (.railOutOfWindow rail above) [.vbat, .pwr, .reg Reg.PWR_RAILSTAT] fun t => t.top = s.top ∧ (t.vbat.record.map
      (·.mask) = s.vbat.record.map fun r => r.mask ||| BitVec.ofNat 16 (1 <<< rail.val)) ∧ (t.pwr.record.map (·.mask) =
      s.pwr.record.map fun r => r.mask ||| BitVec.ofNat 16 (1 <<< rail.val)) ∧ (s.time.elapsed ≠ s.pwr.failAt →
      t.vbat.record.map (·.first) = s.vbat.record.map (·.first))) ∧
    (∀ (input : MonInput), s.top.aonOn = true → Runs s (.excursionStart input) [.pwr, .reg Reg.PWR_RAILSTAT] fun t =>
      Sys2Proof.Machine.MonInput.key input ∈ t.pwr.exc ∧ (∀ n ∈ List.finRange 16, input = .rail n → t.fldBit
      Fld.PWR_RAILSTAT.INWIN n.val = false) ∧ (input = .feed .a ∨ input = .feed .b → t.regs = s.regs)) ∧
    (∀ (input : MonInput), (s.top.aonOn = false) → exec (.excursionStart input) s = .next s) ∧
    (∀ (input : MonInput), s.top.aonOn = true → Runs s (.railBackInWindow input) [.pwr, .reg Reg.PWR_RAILSTAT] fun t => t.pwr.exc
      = s.pwr.exc.filter (· != Sys2Proof.Machine.MonInput.key input) ∧ (∀ n ∈ List.finRange 16, input = .rail n → t.fldBit
      Fld.PWR_RAILSTAT.INWIN n.val = true) ∧ (input = .feed .a ∨ input = .feed .b → t.regs = s.regs)) ∧
    (∀ (input : MonInput), (s.top.aonOn = false) → exec (.railBackInWindow input) s = .next s) ∧
    (∀ (readings : List (BitVec 12)) (vbbu : BitVec 12), s.top.aonOn = true → Runs s (.adcConversion readings vbbu) (.links ::
      .ord :: .reg Reg.ORD_FLUSHES :: .block 0xA :: logParts) fun t => t.fld Fld.PWR_VBBURD.READING = vbbu.toNat ∧ t.fld
      Fld.PWR_VBBURD.MIN = min (s.fld Fld.PWR_VBBURD.MIN) vbbu.toNat ∧ (∀ n ∈ List.range 16, ∀ v ∈ readings[n]?, s.railUsed
      n = true → t.fld (Fld.PWR_RAILRD.READING n) = v.toNat ∧ t.fld (Fld.PWR_RAILRD.MIN n) = min (s.fld (Fld.PWR_RAILRD.MIN
      n)) v.toNat) ∧ (∀ n ∈ List.range 16, s.railUsed n = false → t.reg (Fld.PWR_RAILRD.READING n).addr = s.reg
      (Fld.PWR_RAILRD.READING n).addr)) ∧
    (∀ (readings : List (BitVec 12)) (vbbu : BitVec 12), (s.top.aonOn = false) → exec (.adcConversion readings vbbu) s = .next s)

/-- Boot release, fault release and the release check. For every canonical state each command answers a next state under the
conditions given, and nothing outside the parts it names (never the queue) changes. BOOT_RELEASE with its key, reserved
bits 0, no trigger come or waiting, an open path and no access before it at the register arbiter (R518): in BOOT_HOLD with
no check running, a choice other than 3 starts a check (BUSY set, KEY reads 0, status 0); choice 3 is refused with RESULT
2, counted in RELREF and recorded as 0xB007 with data 0x93, status 0; outside BOOT_HOLD RESULT is 3 and the status 1.
FAULT_RELEASE with its key and bits in FAULT_OFF with a feed in window that no waiting command takes out goes to AON with
cause 0x12, RESULT 1, 0x0005, status 0, both QUAL bits clear (the model's choice, log entry 23); in any other state, or
with no such feed, RESULT is 3 and the status 1. BOOT_RELEASE_CHECKED in BOOT_HOLD with a check running and nothing
outranking it (R25) ends the check: a refused choice gives RESULT 2 and the hub stays, but for reason 0xF, which enters
BOOT_HOLD anew with cause 0; an accepted one gives RESULT 1, fixes the slot for the boot, clears the hold cause, and goes
to BOOT, or to RESTORE at its boot section with PWR_CONTENTS cleared while the retention latch is set, with cause 6. What
stays as it was is told for each case. With no check running, outside BOOT_HOLD or outranked it changes nothing. Rules:
R23, R25, R483, R533. -/
def Obligations.ReleasesRun : Prop :=
  ∀ s : State, s.canon →
    (∀ (path : AccPath) (data : Word), s.accessOpen path = true → s.top.aonOn = true → s.triggered = false → fieldGet data 31 16
      = 0x6C72 → data &&& 0x0000FFFC = 0 → s.top.state = .bootHold → s.boot.check = none → fieldGet data 1 0 ≠ 3 → Runs s
      (.bootRelease path data) (.reg Reg.GLB_BOOTREL :: pathParts) fun t => t.boot.check = some (fieldGet data 1 0) ∧ t.flag
      Fld.GLB_BOOTREL.BUSY = true ∧ t.fld Fld.GLB_BOOTREL.KEY = 0 ∧ WriteAnswered path 0x00 t) ∧
    (∀ (path : AccPath) (data : Word), s.accessOpen path = true → s.top.aonOn = true → s.triggered = false → fieldGet data 31 16
      = 0x6C72 → data &&& 0x0000FFFC = 0 → s.top.state = .bootHold → s.boot.check = none → fieldGet data 1 0 = 3 → Runs s
      (.bootRelease path data) (.reg Reg.GLB_BOOTREL :: .reg Reg.MGT_BOOTSTAT :: (logParts ++ pathParts)) fun t => t.fld
      Fld.GLB_BOOTREL.RESULT = 2 ∧ t.fld Fld.GLB_BOOTREL.KEY = 0 ∧ t.fld Fld.MGT_BOOTSTAT.RELREF = min
      Fld.MGT_BOOTSTAT.RELREF.max (s.fld Fld.MGT_BOOTSTAT.RELREF + 1) ∧ WriteAnswered path 0x00 t ∧ (Attentive s → Logged
      0xB007 0x93 t)) ∧
    (∀ (path : AccPath) (data : Word), s.accessOpen path = true → s.top.aonOn = true → s.triggered = false → fieldGet data 31 16
      = 0x6C72 → data &&& 0x0000FFFC = 0 → s.top.state ≠ .bootHold → Runs s (.bootRelease path data) (.reg Reg.GLB_BOOTREL
      :: .reg Reg.GLB_ACCERR :: .reg Reg.GLB_ACCCNT :: .reg Reg.GLB_EVENT :: pathParts) fun t => t.fld
      Fld.GLB_BOOTREL.RESULT = 3 ∧ t.fld Fld.GLB_BOOTREL.KEY = 0 ∧ WriteAnswered path 0x01 t) ∧
    (∀ (path : AccPath) (data : Word), s.accessOpen path = true → s.top.aonOn = true → s.triggered = false → fieldGet data 31 16
      = 0x6672 → data &&& 0x0000FFFF = 0 → s.top.state = .faultOff → (s.feedStays .a = true ∨ s.feedStays .b = true) → Runs
      s (.faultRelease path data) (.links :: .boot :: .reg Reg.GLB_FAULTREL :: .reg Reg.PWR_FEEDSTAT :: stateParts) fun t =>
      t.top = { s.top with state := .aon, prev := .faultOff, cause := 0x12 } ∧ t.fld Fld.GLB_FAULTREL.RESULT = 1 ∧ t.fld
      Fld.GLB_FAULTREL.KEY = 0 ∧ t.flag Fld.PWR_FEEDSTAT.QUAL_A = false ∧ t.flag Fld.PWR_FEEDSTAT.QUAL_B = false ∧
      WriteAnswered path 0x00 t ∧ (Attentive s → Logged 0x0005 1 t)) ∧
    (∀ (path : AccPath) (data : Word), s.accessOpen path = true → s.top.aonOn = true → s.triggered = false → fieldGet data 31 16
      = 0x6672 → data &&& 0x0000FFFF = 0 → (s.top.state ≠ .faultOff ∨ (s.feedStays .a = false ∧ s.feedStays .b = false)) →
      Runs s (.faultRelease path data) (.reg Reg.GLB_FAULTREL :: .reg Reg.GLB_ACCERR :: .reg Reg.GLB_ACCCNT :: .reg
      Reg.GLB_EVENT :: pathParts) fun t => t.fld Fld.GLB_FAULTREL.RESULT = 3 ∧ t.fld Fld.GLB_FAULTREL.KEY = 0 ∧
      WriteAnswered path 0x01 t) ∧
    (∀ (found : BootFind) (choice : Nat), s.top.state = .bootHold → s.top.trigger = none → s.outranked 7 = false → s.boot.check =
      some choice → Runs s (.bootReleaseChecked found) (.flt :: .pwr :: .gust :: .boot :: .flash :: .regs :: [.rx, .top,
      .log, .sb, .links, .twin, .ord, .map, .mir, .sch]) fun t =>
      let r := ((({ s with boot := { s.boot with check := none } } : State).setFld Fld.GLB_BOOTREL.BUSY 0).judgeRelease found choice).2;
      t.boot.check = none ∧ t.flag Fld.GLB_BOOTREL.BUSY = false ∧ (r.isRight = true → t.fld Fld.GLB_BOOTREL.RESULT = 2 ∧
      t.boot.released = s.boot.released ∧ t.boot.choice = s.boot.choice) ∧ (r.isRight = true → r ≠ .inr 0xF → t.top = s.top)
      ∧ (r = .inr 0xF → t.top = { s.top with state := .bootHold, prev := .bootHold, cause := 0 }) ∧ (r.isLeft = true → t.fld
      Fld.GLB_BOOTREL.RESULT = 1 ∧ some t.boot.choice = r.getLeft?.map (· + 1) ∧ t.boot.released = true ∧ t.fld
      Fld.MGT_BOOTSTAT.HOLD_CAUSE = 0) ∧ (r.isLeft = true → s.pwr.latch = false → t.top =
      { s.top with state := .boot, prev := .bootHold, cause := 0x06 }) ∧ (r.isLeft = true → s.pwr.latch = true → t.top =
      { s.top with state := .restore, prev := .bootHold, cause := 0x06 } ∧ t.gust.rst = 2 ∧ t.reg Reg.PWR_CONTENTS = 0) ∧
      (r.isRight = true → r ≠ .inr 0xF → SameBut [.log, .sb, .boot, .flash, .regs] s t) ∧ (r.isLeft = true → s.pwr.latch =
      false → SameBut [.top, .log, .sb, .boot, .flash, .regs] s t) ∧ (r.isLeft = true → SameBut [.top, .log, .sb, .links,
      .flt, .pwr, .gust, .boot, .flash, .regs] s t)) ∧
    (∀ (found : BootFind), (s.boot.check = none ∨ s.top.state ≠ .bootHold ∨ s.outranked 7 = true) → exec (.bootReleaseChecked
      found) s = .next s)

/-- The core: its release, the end of its boot, its reset, the rollback fuses and the good mark. For every canonical state
each command answers a next state under the conditions given, and nothing outside the parts it names (never the queue)
changes. CORE_RELEASE in a running boot ends stages 1 to 7 and notes the entropy source; a flash that cannot be used in
BOOT gives hold 1 at stage 2; in RESTORE with a good configuration store and no release the boot takes path 3 with no
hold. BOOT_COMPLETE with nothing outranking it (R25) shows the regions in MAP_CAP; with a hold found it goes to BOOT_HOLD
with cause 5 and that hold cause; without one it starts the memory section, and BOOT goes to TRAIN with cause 4, the
contents-valid flag clear, its report and the memory PLL locked, while RESTORE stays. CORE_RESET clears the cipher core's
keys, its operation and inputs, the flash command and BURNING; during a boot it counts, the first two let the boot start
again and the third, not outranked, goes to BOOT_HOLD with hold 6; otherwise it drops a release check, with RESULT 2 and
its refusal counted. Registers outside the mailboxes and those named are as before, told for the first two and with no
check running. ROLLBACK_ADVANCE with a verified word burns it and goes to the next; after the last it clears BURNING and
shows the image's SVN; a word that does not verify is tried once more, then the burn ends with 0xB005; after a trigger the
burn is dropped. DIRECTORY_MARK_GOOD in JOIN with the slot of this boot on trial writes the next directory record with
that slot good and no tries. Each stated negative case changes nothing. How a core reset meets a release check is the
model's choice (log entry 22). Rules: R23, R25, R167, R445, R458, R459, R460, R466, R467, R470, R478, R482. -/
def Obligations.CoreBootRuns : Prop :=
  ∀ s : State, s.canon →
    (∀ (found : BootFind), s.bootRuns = true → s.top.trigger = none → s.boot.stage8 = false → Runs s (.coreRelease found) [.free,
      .time, .log, .sb, .vbat, .fuse, .cfgStore, .boot, .flash, .regs] fun t => t.boot.stage8 = true ∧ t.boot.warm = true ∧
      t.boot.again = false ∧ t.boot.dead = !found.entropy ∧ (s.top.state = .boot → found.flash = .unusable → t.boot.hold = 1
      ∧ t.fld Fld.MGT_BOOTSTAT.STAGE = 2) ∧ (s.top.state = .restore → s.cfgStore.ok = true → s.boot.released = false →
      t.boot.hold = 0 ∧ t.fld Fld.MGT_BOOTSTAT.PATH = 3 ∧ t.fld Fld.MGT_BOOTSTAT.STAGE = 8)) ∧
    (∀ (found : BootFind), (s.bootRuns = false ∨ s.boot.stage8 = true) → exec (.coreRelease found) s = .next s) ∧
    (∀ (bands : List (BitVec 6)), s.bootRuns = true → s.top.trigger = none → s.boot.stage8 = true → s.outranked 7 = false →
      s.boot.hold ≠ 0 → s.boot.hold < 16 → Runs s (.bootComplete bands) (.vbat :: .pwr :: .gust :: .boot :: .flash :: .reg
      Reg.MAP_CAP :: .reg Reg.MGT_BOOTSTAT :: .reg Reg.LOG_PTR :: .reg Reg.LOG_LSN :: .reg Reg.LOG_SKIPS :: fallParts) fun t
      => t.boot.stage8 = false ∧ t.boot.hold = 0 ∧ t.top =
      { s.top with state := .bootHold, prev := s.top.state, cause := 0x05 } ∧ t.fld Fld.MGT_BOOTSTAT.HOLD_CAUSE =
      s.boot.hold ∧ t.fld Fld.MAP_CAP.REGIONS = min Fld.MAP_CAP.REGIONS.max s.geom.regions) ∧
    (∀ (bands : List (BitVec 6)), (s.bootRuns = false ∨ s.boot.stage8 = false ∨ s.outranked 7 = true) → exec (.bootComplete
      bands) s = .next s) ∧
    (∀ (bands : List (BitVec 6)), s.bootRuns = true → s.top.trigger = none → s.boot.stage8 = true → s.outranked 7 = false →
      s.boot.hold = 0 → s.top.state = .boot → Runs s (.bootComplete bands) (.free :: .flt :: .cal :: .clk :: .vbat :: .pwr
      :: .gust :: .boot :: .flash :: .reg Reg.DPH_RETSTAT :: .reg Reg.MAP_CAP :: .block 0x5 :: .block 0x9 :: .reg
      Reg.PWR_SEQSTAT :: .reg Reg.PWR_HOLD :: .reg Reg.PWR_CONTENTS :: .reg Reg.LOG_PTR :: .reg Reg.LOG_LSN :: .reg
      Reg.LOG_SKIPS :: stateParts) fun t => t.boot.stage8 = false ∧ t.pwr.part = 2 ∧ t.top =
      { s.top with state := .train, prev := .boot, cause := 0x04 } ∧ t.vbat.cvalid = false ∧ t.flag Fld.PWR_HOLD.CVALID =
      false ∧ t.fld Fld.PWR_CONTENTS.REPORT = s.trainReport.1 ∧ t.flag Fld.CLK_STAT.MPLL_LOCK = true ∧ t.fld
      Fld.MAP_CAP.REGIONS = min Fld.MAP_CAP.REGIONS.max s.geom.regions) ∧
    (∀ (bands : List (BitVec 6)), s.bootRuns = true → s.top.trigger = none → s.boot.stage8 = true → s.outranked 7 = false →
      s.boot.hold = 0 → s.top.state = .restore → Runs s (.bootComplete bands) (.vbat :: .pwr :: .boot :: .flash :: .reg
      Reg.MAP_CAP :: .reg Reg.SCH_SCRUBCFG :: .reg Reg.SCH_SCRUBINT :: .reg Reg.PWR_SEQSTAT :: .reg Reg.LOG_PTR :: .reg
      Reg.LOG_LSN :: .reg Reg.LOG_SKIPS :: logParts) fun t => t.boot.stage8 = false ∧ t.pwr.part = 2 ∧ t.fld
      Fld.MAP_CAP.REGIONS = min Fld.MAP_CAP.REGIONS.max s.geom.regions) ∧
    (s.top.coreOn = true → s.bootRuns = true → s.fld Fld.MGT_BOOTSTAT.CORERST < 2 → Runs s .coreReset [.free, .log, .sb, .boot,
      .flash, .regs] fun t => t.boot.keys = [] ∧ t.boot.ciph = none ∧ t.boot.flCmd = none ∧ t.boot.burn = [] ∧ t.flag
      Fld.MGT_ROLLBACK.BURNING = false ∧ (∀ j ∈ List.range 4, t.reg (Reg.MGT_CIPHIN j) = 0) ∧ t.fld Fld.MGT_BOOTSTAT.CORERST
      = s.fld Fld.MGT_BOOTSTAT.CORERST + 1 ∧ t.boot.again = true ∧ t.boot.stage8 = false ∧ RegsBut mailboxReg
      [Reg.GLB_EVENT, Reg.GLB_DIRSTAT, Reg.MGT_BOOTSTAT, Reg.MGT_ROLLBACK, Reg.LOG_RINGSTAT, Reg.LOG_CAPTURED,
      Reg.LOG_COALESCED, Reg.LOG_LOST, Reg.LOG_ORPHANS, Reg.LOG_SQUALLS] s t) ∧
    ((s.top.coreOn = false) → exec .coreReset s = .next s) ∧
    (s.top.coreOn = true → s.bootRuns = true → 2 ≤ s.fld Fld.MGT_BOOTSTAT.CORERST → s.outranked 7 = false → Runs s .coreReset
      [.rx, .free, .top, .time, .log, .sb, .links, .twin, .ord, .map, .mir, .sch, .vbat, .gust, .boot, .flash, .regs] fun t
      => t.boot.keys = [] ∧ t.boot.ciph = none ∧ t.boot.flCmd = none ∧ t.boot.burn = [] ∧ t.flag Fld.MGT_ROLLBACK.BURNING =
      false ∧ (∀ j ∈ List.range 4, t.reg (Reg.MGT_CIPHIN j) = 0) ∧ t.fld Fld.MGT_BOOTSTAT.CORERST = 3 ∧ t.top =
      { s.top with state := .bootHold, prev := s.top.state, cause := 0x05 } ∧ t.fld Fld.MGT_BOOTSTAT.HOLD_CAUSE = 6) ∧
    (s.top.coreOn = true → s.bootRuns = false → s.boot.check = none → Runs s .coreReset [.free, .time, .log, .sb, .vbat, .boot,
      .flash, .regs] fun t => t.boot.keys = [] ∧ t.boot.ciph = none ∧ t.boot.flCmd = none ∧ t.boot.burn = [] ∧ t.flag
      Fld.MGT_ROLLBACK.BURNING = false ∧ (∀ j ∈ List.range 4, t.reg (Reg.MGT_CIPHIN j) = 0) ∧ t.boot.check = none ∧ RegsBut
      mailboxReg [Reg.GLB_EVENT, Reg.GLB_DIRSTAT, Reg.MGT_BOOTSTAT, Reg.MGT_ROLLBACK, Reg.LOG_RINGSTAT, Reg.LOG_CAPTURED,
      Reg.LOG_COALESCED, Reg.LOG_LOST, Reg.LOG_ORPHANS, Reg.LOG_SQUALLS, Reg.LOG_PTR, Reg.LOG_LSN] s t) ∧
    (s.top.coreOn = true → s.bootRuns = false → s.boot.check ≠ none → Runs s .coreReset [.rx, .free, .top, .time, .log, .sb,
      .links, .twin, .ord, .map, .mir, .sch, .vbat, .boot, .flash, .regs] fun t => t.boot.keys = [] ∧ t.boot.ciph = none ∧
      t.boot.flCmd = none ∧ t.boot.burn = [] ∧ t.flag Fld.MGT_ROLLBACK.BURNING = false ∧ (∀ j ∈ List.range 4, t.reg
      (Reg.MGT_CIPHIN j) = 0) ∧ t.boot.check = none ∧ t.fld Fld.GLB_BOOTREL.RESULT = 2 ∧ t.flag Fld.GLB_BOOTREL.BUSY = false
      ∧ t.fld Fld.MGT_BOOTSTAT.RELREF = min Fld.MGT_BOOTSTAT.RELREF.max (s.fld Fld.MGT_BOOTSTAT.RELREF + 1) ∧ (t.top = s.top
      ∨ s.top.state = .bootHold ∧ t.top = { s.top with state := .bootHold, prev := .bootHold, cause := 0 })) ∧
    (∀ (verified : Bool) (w v : Nat) (rest : List (Nat × Nat)), s.top.trigger = none → s.boot.burn = (w, v) :: rest → verified =
      true → Runs s (.rollbackAdvance verified) (.free :: .fuse :: .boot :: .reg Reg.MGT_ROLLBACK :: logParts) fun t =>
      t.boot.burn = rest ∧ t.boot.burnTry = 0 ∧ (s.boot.burn.length ≠ 1 → t.flag Fld.MGT_ROLLBACK.BURNING = true) ∧
      (s.boot.burn.length = 1 → t.flag Fld.MGT_ROLLBACK.BURNING = false ∧ t.fld Fld.MGT_ROLLBACK.PENDING = s.fld
      Fld.MGT_IMGSTAT.SVN) ∧ Tab.get (fun _ => (0 : Word)) t.fuse.normal w = Tab.get (fun _ => (0 : Word)) s.fuse.normal w
      ||| BitVec.ofNat 32 v) ∧
    (∀ (verified : Bool), s.top.trigger = none → s.boot.burn ≠ [] → verified = false → s.boot.burnTry = 0 → Runs s
      (.rollbackAdvance verified) [.free, .fuse, .boot, .reg Reg.MGT_ROLLBACK] fun t => t.boot.burn = s.boot.burn ∧
      t.boot.burnTry = 1 ∧ t.flag Fld.MGT_ROLLBACK.BURNING = true ∧ t.fld Fld.MGT_ROLLBACK.PENDING = s.fld
      Fld.MGT_ROLLBACK.PENDING) ∧
    (∀ (verified : Bool), s.top.trigger = none → s.boot.burn ≠ [] → verified = false → s.boot.burnTry ≠ 0 → Runs s
      (.rollbackAdvance verified) (.free :: .fuse :: .boot :: .reg Reg.MGT_ROLLBACK :: logParts) fun t => t.boot.burn = [] ∧
      t.boot.burnTry = 0 ∧ t.flag Fld.MGT_ROLLBACK.BURNING = false ∧ (Attentive s → Logged 0xB005 (BitVec.ofNat 32 (t.fld
      Fld.MGT_ROLLBACK.PENDING + 256)) t)) ∧
    (∀ (verified : Bool), s.top.trigger ≠ none → Runs s (.rollbackAdvance verified) [.boot, .reg Reg.MGT_ROLLBACK] fun t =>
      t.boot = { s.boot with burn := [], burnTry := 0 } ∧ t.flag Fld.MGT_ROLLBACK.BURNING = false) ∧
    (∀ (verified : Bool), (s.top.trigger = none ∧ s.boot.burn = [] ∧ s.mayAdvance = false) → exec (.rollbackAdvance verified) s =
      .next s) ∧
    (∀ (n k : Nat) (d : DirRec), s.top.state = .join → s.top.trigger = none → s.fld Fld.MGT_BOOTSTAT.SLOT = n + 1 → n < 2 →
      s.directory = some (k, d) → d.stateOf n = 1 → s.blank (64 * ((k + 1) % 1024)) 64 = true → Runs s .directoryMarkGood
      [.flash] fun t => t.dirAt ((k + 1) % 1024) = some
      { d with seq := d.seq + 1, state := [if n = 0 then 2 else d.stateOf 0, if n = 1 then 2 else d.stateOf 1], tries := 0 }) ∧
    ((s.top.state ≠ .join ∨ s.fld Fld.MGT_BOOTSTAT.SLOT = 0) → exec .directoryMarkGood s = .next s)

/-- Start-up training, its end, and the settling of the pair state. For every canonical state each command answers a next
state under the conditions given, and nothing outside the parts it names (never the queue) changes. TRAIN_STEP_DONE
without a trigger: step 1 goes to step 2 if the sub-channel's delay line is locked and shows step 1 for its ranks, else
tries again while retries are left; step 2 goes to step 3 with rank 0, shows step 2 and holds the devices' settings of the
set in force; step 3 with no bad package goes to the next rank; steps 5 and 6 with their results go to the next step;
steps 5, 6, 7 and 8 without a result try again while retries are left; step 9 of a re-admission with the check passed
gives result 1, takes NOW into LAST and waits at step 11. No other sub-channel's training changes. TRAIN_END in TRAIN with
training over, no section running and nothing outranking it (R25) keeps the retention store; with a trained rank it goes
to JOIN with cause 7, contents valid, table source 1, the shadow good and the order cleared; with none to BOOT_HOLD with
cause 8 and hold 4. PAIR_SETTLE in JOIN: a recorded paired state, the peer paired with the same epoch, not 0, and marks
only with feature 18 make the hub paired with 0x4014; it then goes to SERVICE with cause 9 where a U-port, the witness
and, of a paired hub, T are linked, else stays, as does a settled hub; a recorded fenced state with no other epoch heard
makes it fenced and it stays in JOIN. JOIN_UNSETTLED_TIMEOUT records 0x4015 with the recorded state. Each stated negative
case changes nothing. What a step finds is its operand (log entry 36). Rules: R21, R23, R121, R124, R230, R275, R279,
R280, R302, R349, R445. -/
def Obligations.TrainingRuns : Prop :=
  ∀ s : State, s.canon →
    (∀ (sc : Fin 16) (rank : Fin 2) (found : TrainFind), s.top.trigger = none → (s.training sc.val).step = 1 → found = .ck →
      s.flag (Fld.CLK_DLL.LOCKED sc.val) = true → Runs s (.trainStepDone sc rank found) [.sch, .cal, .block 0x6] fun t =>
      t.training sc.val = { s.training sc.val with step := 2, tries := 0 } ∧ (∀ k ∈ s.ranksOf, t.fld (stepFld sc.val k) = 1)
      ∧ (∀ m ∈ List.range 16, m ≠ sc.val → t.training m = s.training m)) ∧
    (∀ (sc : Fin 16) (rank : Fin 2) (found : TrainFind), s.top.trigger = none → (s.training sc.val).step = 1 → found = .ck →
      s.flag (Fld.CLK_DLL.LOCKED sc.val) = false → (s.training sc.val).tries < s.fld Fld.DPH_TRAINCFG.RETRIES → Runs s
      (.trainStepDone sc rank found) [.cal, .block 0x6] fun t => t.training sc.val =
      { s.training sc.val with tries := (s.training sc.val).tries + 1 } ∧ (∀ m ∈ List.range 16, m ≠ sc.val → t.training m =
      s.training m)) ∧
    (∀ (sc : Fin 16) (rank : Fin 2) (found : TrainFind), s.top.trigger = none → (s.training sc.val).step = 2 → found = .settings
      → Runs s (.trainStepDone sc rank found) [.sch, .cal, .block 0x6] fun t => t.training sc.val =
      { s.training sc.val with step := 3, rank := 0 } ∧ (∀ k ∈ s.ranksOf, t.fld (stepFld sc.val k) = 2) ∧ (t.sub
      sc.val).pins.settings = some s.liveSet ∧ (∀ m ∈ List.range 16, m ≠ sc.val → t.training m = s.training m)) ∧
    (∀ (sc : Fin 16) (rank : Fin 2) (found : TrainFind) (pk : List (Option Device)), s.top.trigger = none → (s.training
      sc.val).step = 3 → rank.val = (s.training sc.val).rank → found = .devices pk → s.badPackages pk = [] →
      s.ranksOf.contains (rank.val + 1) = true → Runs s (.trainStepDone sc rank found) [.cal, .block 0x6] fun t =>
      t.training sc.val = { s.training sc.val with rank := rank.val + 1 } ∧ t.fld (badFld sc.val rank.val) = 0 ∧ t.fld
      (stepFld sc.val rank.val) = 3 ∧ (∀ m ∈ List.range 16, m ≠ sc.val → t.training m = s.training m)) ∧
    (∀ (sc : Fin 16) (rank : Fin 2) (found : TrainFind) (ca cs vref : List Byte), s.top.trigger = none → (s.training sc.val).step
      = 5 → rank.val = (s.training sc.val).rank → found = .caCs (some (ca, cs, vref)) → Runs s (.trainStepDone sc rank
      found) [.cal, .block 0x6] fun t => ((t.training sc.val).step = 6 ∧ (t.training sc.val).tries = 0 ∧ (t.training
      sc.val).rank = rank.val) ∧ t.fld (stepFld sc.val rank.val) = 5 ∧ (∀ m ∈ List.range 16, m ≠ sc.val → t.training m =
      s.training m)) ∧
    (∀ (sc : Fin 16) (rank : Fin 2) (found : TrainFind) (dqs : List (BitVec 11)), s.top.trigger = none → (s.training sc.val).step
      = 6 → rank.val = (s.training sc.val).rank → found = .level (some dqs) → Runs s (.trainStepDone sc rank found) [.cal,
      .block 0x6] fun t => ((t.training sc.val).step = 7 ∧ (t.training sc.val).tries = 0 ∧ (t.training sc.val).rank =
      rank.val) ∧ t.fld (stepFld sc.val rank.val) = 6 ∧ (∀ m ∈ List.range 16, m ≠ sc.val → t.training m = s.training m)) ∧
    (∀ (sc : Fin 16) (rank : Fin 2) (found : TrainFind), s.top.trigger = none → (s.training sc.val).step = 5 → rank.val =
      (s.training sc.val).rank → found = .caCs none → (s.training sc.val).tries < s.fld Fld.DPH_TRAINCFG.RETRIES → Runs s
      (.trainStepDone sc rank found) [.cal, .block 0x6] fun t => t.training sc.val =
      { s.training sc.val with tries := (s.training sc.val).tries + 1 } ∧ t.fld (stepFld sc.val rank.val) = 5 ∧ (∀ m ∈
      List.range 16, m ≠ sc.val → t.training m = s.training m)) ∧
    (∀ (sc : Fin 16) (rank : Fin 2) (found : TrainFind), s.top.trigger = none → (s.training sc.val).step = 6 → rank.val =
      (s.training sc.val).rank → found = .level none → (s.training sc.val).tries < s.fld Fld.DPH_TRAINCFG.RETRIES → Runs s
      (.trainStepDone sc rank found) [.cal, .block 0x6] fun t => t.training sc.val =
      { s.training sc.val with tries := (s.training sc.val).tries + 1 } ∧ t.fld (stepFld sc.val rank.val) = 6 ∧ (∀ m ∈
      List.range 16, m ≠ sc.val → t.training m = s.training m)) ∧
    (∀ (sc : Fin 16) (rank : Fin 2) (found : TrainFind), s.top.trigger = none → (s.training sc.val).step = 7 → rank.val =
      (s.training sc.val).rank → found = .readSweep none → (s.training sc.val).tries < s.fld Fld.DPH_TRAINCFG.RETRIES → Runs
      s (.trainStepDone sc rank found) [.cal, .block 0x6] fun t => t.training sc.val =
      { s.training sc.val with tries := (s.training sc.val).tries + 1 } ∧ t.fld (stepFld sc.val rank.val) = 7 ∧ (∀ m ∈
      List.range 16, m ≠ sc.val → t.training m = s.training m)) ∧
    (∀ (sc : Fin 16) (rank : Fin 2) (found : TrainFind), s.top.trigger = none → (s.training sc.val).step = 8 → rank.val =
      (s.training sc.val).rank → found = .writeSweep none → (s.training sc.val).tries < s.fld Fld.DPH_TRAINCFG.RETRIES →
      Runs s (.trainStepDone sc rank found) [.cal, .block 0x6] fun t => t.training sc.val =
      { s.training sc.val with tries := (s.training sc.val).tries + 1 } ∧ t.fld (stepFld sc.val rank.val) = 8 ∧ (∀ m ∈
      List.range 16, m ≠ sc.val → t.training m = s.training m)) ∧
    (∀ (sc : Fin 16) (rank : Fin 2) (found : TrainFind) (f : ScratchCheck), s.top.trigger = none → (s.training sc.val).step = 9 →
      rank.val = (s.training sc.val).rank → found = .check f → s.scratchOk (s.training sc.val).record f = true → f.alerted =
      true → (s.training sc.val).readmit = true → Runs s (.trainStepDone sc rank found) [.free, .cal, .block 0x6, .block
      0x7] fun t => (t.training sc.val).step = 11 ∧ t.fld (resultFld sc.val rank.val) = 1 ∧ t.fld (Fld.CAL_TEMP.LAST sc.val)
      = s.fld (Fld.CAL_TEMP.NOW sc.val) ∧ (∀ m ∈ List.range 16, m ≠ sc.val → t.training m = s.training m)) ∧
    (∀ (header record : Option Line), s.top.state = .train → s.top.trigger = none → s.outranked 7 = false → s.trainingOver = true
      → s.pwr.part = 0 → (s.popRanks.any fun p => (s.rank p).trained) = true → Runs s (.trainEnd header record) (.links ::
      .ord :: .map :: .mir :: .sch :: .flt :: .cal :: .vbat :: .fmt :: .dram :: .reg Reg.GLB_QUIESCE :: .reg Reg.ORD_FWD ::
      .reg Reg.MAP_USE :: .reg Reg.MAP_TBLSRC :: .reg Reg.PWR_HOLD :: .twin :: .reg Reg.ORD_LINEHOLD :: .reg
      Reg.ECC_SEALFAIL :: .reg Reg.ECC_FIRSTFAIL :: stateParts) fun t => t.top =
      { s.top with state := .join, prev := .train, cause := 0x07 } ∧ t.vbat.cvalid = true ∧ t.flag Fld.PWR_HOLD.CVALID =
      true ∧ t.fld Fld.MAP_TBLSRC.SOURCE = 1 ∧ t.map.shadowOk = true ∧ t.cal.valid = true ∧ (t.ord.forks = [] ∧ t.ord.front
      = 0 ∧ t.ord.streams = [] ∧ t.ord.ptr = 0)) ∧
    (∀ (header record : Option Line), (s.top.state ≠ .train ∨ s.pwr.part ≠ 0 ∨ s.outranked 7 = true) → exec (.trainEnd header
      record) s = .next s) ∧
    (∀ (header record : Option Line), s.top.state = .train → s.top.trigger = none → s.outranked 7 = false → s.trainingOver = true
      → s.pwr.part = 0 → (s.popRanks.any fun p => (s.rank p).trained) = false → Runs s (.trainEnd header record) (.flt ::
      .cal :: .gust :: .boot :: .reg Reg.MGT_BOOTSTAT :: fallParts) fun t => t.top =
      { s.top with state := .bootHold, prev := .train, cause := 0x08 } ∧ t.fld Fld.MGT_BOOTSTAT.HOLD_CAUSE = 4 ∧ t.cal.valid
      = true) ∧
    (s.top.state = .join → s.mir.pstate = .none → s.mir.soloGrant = false → s.top.trigger = none → s.joinLinked = true → (s.link
      .t).up = true → s.outranked 7 = false → s.twin.peerEpoch = some s.mir.epoch → s.mir.epoch ≠ 0 → s.mir.recorded =
      .paired → s.twin.peerState = 1 → (s.feat .t 18 = true ∨ s.mir.marks = []) → Runs s .pairSettle (.links :: .twin ::
      .ord :: .map :: .mir :: .sch :: .flt :: .cal :: .pwr :: .boot :: .reg Reg.ORD_FWD :: .reg Reg.ECC_SEALFAIL :: .reg
      Reg.ECC_FIRSTFAIL :: .reg Reg.ORD_LINEHOLD :: stateParts) fun t => t.mir.pstate = .paired ∧ t.top =
      { s.top with state := .service, prev := .join, cause := 0x09 } ∧ (Attentive s → Logged 0x4014 1 t)) ∧
    ((s.top.state ≠ .join ∨ s.top.trigger ≠ none ∨ s.mir.pstate = .fenced) → exec .pairSettle s = .next s) ∧
    (s.top.state = .join → s.mir.pstate = .none → s.mir.soloGrant = false → s.top.trigger = none → s.joinLinked = false →
      s.mir.marks = [] → s.twin.peerEpoch = some s.mir.epoch → s.mir.epoch ≠ 0 → s.mir.recorded = .paired → s.twin.peerState
      = 1 → (s.feat .t 18 = true ∨ s.mir.marks = []) → Runs s .pairSettle (.links :: .twin :: .ord :: .map :: .mir :: .sch
      :: .flt :: .cal :: .reg Reg.ORD_FWD :: .reg Reg.ORD_LINEHOLD :: .reg Reg.ECC_SEALFAIL :: .reg Reg.ECC_FIRSTFAIL ::
      logParts) fun t => t.mir.pstate = .paired ∧ t.top = s.top ∧ (Attentive s → Logged 0x4014 1 t)) ∧
    (s.top.state = .join → s.settled = true → s.top.trigger = none → s.joinLinked = true → (s.mir.pstate ≠ .paired ∨ (s.link
      .t).up = true) → s.outranked 7 = false → Runs s .pairSettle (.links :: .twin :: .ord :: .map :: .mir :: .sch :: .flt
      :: .cal :: .pwr :: .boot :: .reg Reg.ORD_FWD :: .reg Reg.ECC_SEALFAIL :: .reg Reg.ECC_FIRSTFAIL :: .reg
      Reg.ORD_LINEHOLD :: stateParts) fun t => t.mir.pstate = s.mir.pstate ∧ t.top =
      { s.top with state := .service, prev := .join, cause := 0x09 }) ∧
    (s.top.state = .join → s.settled = true → s.top.trigger = none → (s.joinLinked = false ∨ s.outranked 7 = true ∨ s.mir.pstate
      = .paired ∧ (s.link .t).up = false) → Runs s .pairSettle [] fun t => t = s) ∧
    (s.top.state = .join → s.mir.pstate = .none → s.mir.soloGrant = false → s.top.trigger = none → s.mir.recorded = .fenced →
      (s.twin.peerEpoch = none ∨ s.twin.peerEpoch = some s.mir.epoch) → Runs s .pairSettle (.links :: .twin :: .ord :: .mir
      :: .sch :: .reg Reg.ORD_FWD :: .reg Reg.ORD_LINEHOLD :: .reg Reg.ECC_SEALFAIL :: .reg Reg.ECC_FIRSTFAIL :: logParts)
      fun t => t.mir.pstate = .fenced ∧ t.top = s.top ∧ (Attentive s → Logged 0x4014 5 t)) ∧
    (s.top.state = .join → s.mir.pstate = .none → Runs s .joinUnsettledTimeout logParts fun t => (Attentive s → Logged 0x4015
      (BitVec.ofNat 32 s.mir.recorded.code) t)) ∧
    ((s.top.state ≠ .join ∨ s.mir.pstate ≠ .none) → exec .joinUnsettledTimeout s = .next s)

/-- Link training and negotiation. For every canonical state each command answers a next state under the conditions given, and
nothing outside the parts it names (never the queue) changes. LINK_TRAIN_START takes a port from DOWN to TRAIN where the
top level allows links. LINK_TRAIN_SETTLED on offered width and rate goes to INIT, sends NEG, and shows rate, width,
reversal and polarity; on T it clears what was known of the twin. LINK_TRAIN_TIMEOUT goes to DOWN, counts the attempt,
waits long after every third, shows no width or rate and records 0x1055 with the last step. NEG_RECEIVED in INIT takes the
peer's offer once and answers with the judgement; a second one, or one with traffic up, is a bad message (counted; with
traffic recorded as 0x1051). NEG_ACK_RECEIVED in INIT with equal answers of result 0 goes to SERVICE with the initial
grant and shows features, peer, and revisions (on T the twin matches); with either answer's result 1 to 7 (the hub's
first) it goes to DOWN, counts the attempt and shows that result; before the peer's NEG it is only marked as received (the
model's choice, log entry 39); with a result above 7, or with traffic up, it is a bad message, counted and recorded as
0x1051. NEG_TIMEOUT goes to DOWN with FAIL 6. A U-port's fall changes no twin, mirror or address map state. Each stated
negative case changes nothing. Width code 3 is the model's choice (log entry 39). Rules: R64, R65, R66, R77, R79, R105,
R110, R111, R112, R118, R566. -/
def Obligations.LinkTrainingRuns : Prop :=
  ∀ s : State, s.canon →
    (∀ (p : Port), (s.link p).lstate = .down → s.top.state.linksAllowed = true → Runs s (.linkTrainStart p) [.links] fun t =>
      t.link p = { s.link p with lstate := .train, longWait := false } ∧ (∀ q ∈ allPorts, q ≠ p → t.link q = s.link q)) ∧
    (∀ (p : Port), ((s.link p).lstate ≠ .down ∨ s.top.state.linksAllowed = false) → exec (.linkTrainStart p) s = .next s) ∧
    (∀ (p : Port) (rate width : BitVec 2) (reversed : Bool) (polinv : BitVec 16), (s.link p).lstate = .train → s.widthOk p width
      = true → s.rateOk p rate = true → Runs s (.linkTrainSettled p rate width reversed polinv) [.links, .twin, .block 0x1]
      fun t => (t.link p).lstate = .init ∧ (t.link p).negOut = true ∧ (t.link p).tx = [.msg (mkNeg (s.myNeg p))] ∧ (t.link
      p).attempts = (s.link p).attempts ∧ t.fld (Fld.LNK_STATUS.RATE p.idx) = rate.toNat ∧ t.fld (Fld.LNK_STATUS.WIDTH
      p.idx) = width.toNat ∧ t.flag (Fld.LNK_STATUS.REVERSED p.idx) = reversed ∧ t.fld (Fld.LNK_STATUS.POLINV p.idx) =
      polinv.toNat ∧ (p = .t → t.twin = {}) ∧ (p ≠ .t → t.twin = s.twin)) ∧
    (∀ (p : Port) (rate width : BitVec 2) (reversed : Bool) (polinv : BitVec 16), ((s.link p).lstate ≠ .train ∨ s.widthOk p width
      = false ∨ s.rateOk p rate = false) → exec (.linkTrainSettled p rate width reversed polinv) s = .next s) ∧
    (∀ (p : Port) (lastStep : BitVec 4), (s.link p).lstate = .train → Runs s (.linkTrainTimeout p lastStep) linkDownParts fun t
      => (t.link p).lstate = .down ∧ (t.link p).attempts = (s.link p).attempts + 1 ∧ (t.link p).longWait = decide (((s.link
      p).attempts + 1) % 3 = 0) ∧ t.fld (Fld.LNK_STATUS.WIDTH p.idx) = 0 ∧ t.fld (Fld.LNK_STATUS.RATE p.idx) = 0 ∧ (p ≠ .t →
      SameBut (.rx :: .links :: .ord :: .block 0x1 :: logParts) s t) ∧ (Attentive s → Logged 0x1055 (BitVec.ofNat 32 (p.idx
      + (lastStep.toNat <<< 4))) t)) ∧
    (∀ (p : Port) (lastStep : BitVec 4), ((s.link p).lstate ≠ .train) → exec (.linkTrainTimeout p lastStep) s = .next s) ∧
    (∀ (p : Port) (m : NegMsg), (s.link p).lstate = .init → (s.link p).peerNeg = none → Runs s (.negReceived p m) [.links] fun t
      => t.link p =
      { s.link p with peerNeg := some m, myAck := some (s.judgeNeg p m), tx := (s.link p).tx ++ [.msg (mkNegAck (s.judgeNeg p m))] }
      ∧ (∀ q ∈ allPorts, q ≠ p → t.link q = s.link q)) ∧
    (∀ (p : Port) (m : NegMsg), (s.link p).lstate = .init → (s.link p).peerNeg ≠ none → Runs s (.negReceived p m) [.reg
      (Reg.LNK_BADMSG p.idx)] fun t => Counted (Reg.LNK_BADMSG p.idx) s t) ∧
    (∀ (p : Port) (m : NegMsg), (s.link p).up = true → Runs s (.negReceived p m) (.free :: .reg (Reg.LNK_BADMSG p.idx) ::
      logParts) fun t => Counted (Reg.LNK_BADMSG p.idx) s t ∧ t.links = s.links ∧ (Attentive s → LoggedFree 0x1051 t)) ∧
    (∀ (p : Port) (m : NegMsg), ((s.link p).lstate = .down ∨ (s.link p).lstate = .train) → exec (.negReceived p m) s = .next s) ∧
    (∀ (p : Port) (m : NegAckMsg) (n : NegMsg) (a : NegAckMsg), (s.link p).lstate = .init → (s.link p).gotAck = false → (s.link
      p).peerNeg = some n → (s.link p).myAck = some a → a.result = 0 → m = a → Runs s (.negAckReceived p m) (.links :: .twin
      :: .reg Reg.GLB_HUBID :: .block 0x1 :: logParts) fun t => (t.link p).lstate = .service ∧ (t.link p).attempts = 0 ∧
      (t.link p).granted = s.initialGrant p ∧ t.reg (Reg.LNK_FEAT p.idx) = a.features ∧ t.fld (Fld.LNK_PEER.PEER_ID p.idx) =
      n.node.toNat ∧ t.fld (Fld.LNK_PEER.PEER_PORT p.idx) = n.port.toNat ∧ t.fld (Fld.LNK_NEG.LINK_REV p.idx) =
      a.linkRev.toNat ∧ t.fld (Fld.LNK_NEG.MIR_REV p.idx) = a.mirRev.toNat ∧ (p = .t → t.flag Fld.GLB_HUBID.TWIN_MATCH =
      true)) ∧
    (∀ (p : Port) (m : NegAckMsg) (n : NegMsg) (a : NegAckMsg), (s.link p).lstate = .init → (s.link p).gotAck = false → (s.link
      p).peerNeg = some n → (s.link p).myAck = some a → a.result ≠ 0 → a.result.toNat < 16 → m.result.toNat ≤ 7 → Runs s
      (.negAckReceived p m) (.free :: linkDownParts) fun t => (t.link p).lstate = .down ∧ (t.link p).attempts = (s.link
      p).attempts + 1 ∧ (t.link p).longWait = decide (((s.link p).attempts + 1) % 3 = 0) ∧ t.fld (Fld.LNK_STATUS.WIDTH
      p.idx) = 0 ∧ t.fld (Fld.LNK_STATUS.RATE p.idx) = 0 ∧ t.fld (Fld.LNK_NEG.FAIL p.idx) = a.result.toNat ∧ (p ≠ .t →
      SameBut (.rx :: .free :: .links :: .ord :: .block 0x1 :: logParts) s t)) ∧
    (∀ (p : Port) (m : NegAckMsg) (n : NegMsg) (a : NegAckMsg), (s.link p).lstate = .init → (s.link p).gotAck = false → (s.link
      p).peerNeg = some n → (s.link p).myAck = some a → a.result = 0 → m.result ≠ 0 → m.result.toNat ≤ 7 → Runs s
      (.negAckReceived p m) (.free :: linkDownParts) fun t => (t.link p).lstate = .down ∧ (t.link p).attempts = (s.link
      p).attempts + 1 ∧ (t.link p).longWait = decide (((s.link p).attempts + 1) % 3 = 0) ∧ t.fld (Fld.LNK_STATUS.WIDTH
      p.idx) = 0 ∧ t.fld (Fld.LNK_STATUS.RATE p.idx) = 0 ∧ t.fld (Fld.LNK_NEG.FAIL p.idx) = m.result.toNat ∧ (p ≠ .t →
      SameBut (.rx :: .free :: .links :: .ord :: .block 0x1 :: logParts) s t)) ∧
    (∀ (p : Port) (m : NegAckMsg), (s.link p).lstate = .init → (s.link p).gotAck = false → (s.link p).peerNeg = none →
      m.result.toNat ≤ 7 → Runs s (.negAckReceived p m) [.links] fun t => t.link p = { s.link p with gotAck := true } ∧ (∀ q
      ∈ allPorts, q ≠ p → t.link q = s.link q)) ∧
    (∀ (p : Port) (m : NegAckMsg), ((s.link p).lstate = .down ∨ (s.link p).lstate = .train) → exec (.negAckReceived p m) s =
      .next s) ∧
    (∀ (p : Port) (m : NegAckMsg), ((s.link p).lstate = .init ∨ (s.link p).up = true) → (7 < m.result.toNat ∨ (s.link p).up =
      true) → Runs s (.negAckReceived p m) (.free :: .reg (Reg.LNK_BADMSG p.idx) :: logParts) fun t => Counted
      (Reg.LNK_BADMSG p.idx) s t ∧ t.links = s.links ∧ (Attentive s → LoggedFree 0x1051 t)) ∧
    (∀ (p : Port), (s.link p).lstate = .init → Runs s (.negTimeout p) (.free :: linkDownParts) fun t => (t.link p).lstate = .down
      ∧ (t.link p).attempts = (s.link p).attempts + 1 ∧ (t.link p).longWait = decide (((s.link p).attempts + 1) % 3 = 0) ∧
      t.fld (Fld.LNK_STATUS.WIDTH p.idx) = 0 ∧ t.fld (Fld.LNK_STATUS.RATE p.idx) = 0 ∧ t.fld (Fld.LNK_NEG.FAIL p.idx) = 6 ∧
      (p ≠ .t → SameBut (.rx :: .free :: .links :: .ord :: .block 0x1 :: logParts) s t)) ∧
    (∀ (p : Port), ((s.link p).lstate ≠ .init) → exec (.negTimeout p) s = .next s)

/-- Retraining, NAK and replay timeouts. For every canonical state each command answers a next state under the conditions
given, and nothing outside the parts it names (never the queue) changes. LANE_LOCK_LOST in SERVICE goes to RETRAIN and
counts, or, while a power-loss notice waits, is deferred and shown. RETRAIN_DEFER_END starts a deferred retrain.
RETRAIN_FAST_FAIL asks for full equalisation. RETRAIN_COMPLETE at a rate and width the port may take goes to SERVICE,
shows them, replays the buffer from its oldest flit, and sets DOWNSHIFT where the rate changed. RETRAIN_TIMEOUT goes to
DOWN, counts the attempt, shows no width or rate and records 0x1056; a U-port's fall changes no twin, mirror or address
map state. NAK_TIMEOUT with a NAK waited on sends a NAK again. REPLAY_TIMEOUT in INIT or SERVICE with flits unacknowledged
counts a replay and starts it at the oldest flit; at the limit, in SERVICE with no notice waiting, the port retrains. Each
stated negative case changes nothing. At which replay the retrain begins is the model's choice (log entry 39). Rules: R61,
R62, R63, R64, R65, R66, R69, R70, R566. -/
def Obligations.RetrainingRuns : Prop :=
  ∀ s : State, s.canon →
    (∀ (p : Port), (s.link p).lstate = .service → (s.link p).plnWaiting = false → Runs s (.laneLockLost p) [.links, .block 0x1]
      fun t => t.link p = { s.link p with lstate := .retrain, deferred := false, refill := false, replayAt := none } ∧
      Counted (Reg.LNK_RETRAINS p.idx) s t) ∧
    (∀ (p : Port), ((s.link p).lstate ≠ .service) → exec (.laneLockLost p) s = .next s) ∧
    (∀ (p : Port), (s.link p).lstate = .service → (s.link p).plnWaiting = true → Runs s (.laneLockLost p) [.links, .block 0x1]
      fun t => t.link p = { s.link p with deferred := true } ∧ t.flag (Fld.LNK_STATUS.RETRAIN_DEFER p.idx) = true ∧ t.flag
      (Fld.LNK_EVENT.RETRAIN_DEFERRED p.idx) = true) ∧
    (∀ (p : Port), (s.link p).lstate = .service → (s.link p).deferred = true → Runs s (.retrainDeferEnd p) [.links, .block 0x1]
      fun t => t.link p = { s.link p with lstate := .retrain, deferred := false, refill := false, replayAt := none } ∧
      t.flag (Fld.LNK_STATUS.RETRAIN_DEFER p.idx) = false ∧ Counted (Reg.LNK_RETRAINS p.idx) s t) ∧
    (∀ (p : Port), ((s.link p).lstate ≠ .service ∨ (s.link p).deferred = false) → exec (.retrainDeferEnd p) s = .next s) ∧
    (∀ (p : Port), (s.link p).lstate = .retrain → Runs s (.retrainFastFail p) [.links] fun t => t.link p =
      { s.link p with refill := true } ∧ (∀ q ∈ allPorts, q ≠ p → t.link q = s.link q)) ∧
    (∀ (p : Port), ((s.link p).lstate ≠ .retrain) → exec (.retrainFastFail p) s = .next s) ∧
    (∀ (p : Port) (rate width : BitVec 2), (s.link p).lstate = .retrain → s.retrainTo p rate width = true → Runs s
      (.retrainComplete p rate width) [.links, .block 0x1] fun t => (t.link p).lstate = .service ∧ (t.link p).replays = 0 ∧
      (t.link p).replayAt = (if (s.link p).buf.isEmpty then none else some 0) ∧ (t.link p).buf = (s.link p).buf ∧ (t.link
      p).seq = (s.link p).seq ∧ t.fld (Fld.LNK_STATUS.RATE p.idx) = rate.toNat ∧ t.fld (Fld.LNK_STATUS.WIDTH p.idx) =
      width.toNat ∧ (rate.toNat ≠ s.fld (Fld.LNK_STATUS.RATE p.idx) → t.flag (Fld.LNK_EVENT.DOWNSHIFT p.idx) = true)) ∧
    (∀ (p : Port) (rate width : BitVec 2), ((s.link p).lstate ≠ .retrain ∨ s.retrainTo p rate width = false) → exec
      (.retrainComplete p rate width) s = .next s) ∧
    (∀ (p : Port), (s.link p).lstate = .retrain → Runs s (.retrainTimeout p) linkDownParts fun t => (t.link p).lstate = .down ∧
      (t.link p).attempts = (s.link p).attempts + 1 ∧ (t.link p).longWait = decide (((s.link p).attempts + 1) % 3 = 0) ∧
      t.fld (Fld.LNK_STATUS.WIDTH p.idx) = 0 ∧ t.fld (Fld.LNK_STATUS.RATE p.idx) = 0 ∧ (p ≠ .t → SameBut (.rx :: .links ::
      .ord :: .block 0x1 :: logParts) s t) ∧ (Attentive s → Logged 0x1056 (BitVec.ofNat 32 p.idx) t)) ∧
    (∀ (p : Port), ((s.link p).lstate ≠ .retrain) → exec (.retrainTimeout p) s = .next s) ∧
    (∀ (p : Port), (s.link p).nakWait = true → Runs s (.nakTimeout p) [.links] fun t => t.link p =
      { s.link p with nakOut := true }) ∧
    (∀ (p : Port), ((s.link p).nakWait = false) → exec (.nakTimeout p) s = .next s) ∧
    (∀ (p : Port), ((s.link p).lstate = .init ∨ (s.link p).lstate = .service) → (s.link p).buf ≠ [] → Runs s (.replayTimeout p)
      [.links, .block 0x1] fun t => (t.link p).replays = (s.link p).replays + 1 ∧ Counted (Reg.LNK_REPLAYS p.idx) s t ∧
      ((s.link p).replays + 1 < s.fld (Fld.LNK_REPLAY.REPLAY_LIM p.idx) → t.link p =
      { s.link p with replayAt := some 0, replays := (s.link p).replays + 1 }) ∧ (s.fld (Fld.LNK_REPLAY.REPLAY_LIM p.idx) ≤
      (s.link p).replays + 1 → (s.link p).lstate = .service → (s.link p).plnWaiting = false → (t.link p).lstate = .retrain)) ∧
    (∀ (p : Port), ((s.link p).lstate = .down ∨ (s.link p).buf = []) → exec (.replayTimeout p) s = .next s)

/-- Flits received and sent, and credits. For every canonical state each command answers a next state under the conditions
given, and nothing outside the parts it names (never the queue) changes. FLIT_RECEIVED in INIT, SERVICE or RETRAIN: a good
payload flit with the expected number (and no ACKV, NAK or PLN flag) advances the expected number, owes an
acknowledgement, ends a NAK wait and puts the flit's content and its end on the receive crossing; with a later number it
asks for a replay; with an earlier one it changes nothing; an idle flit's ACK is honoured, and one for the only flit held
empties the buffer. A flit that stays bad after correction leaves the expected number, what is to be sent and the buffer,
asks for a replay, and is counted where nothing was corrected. FLIT_TRANSMIT in INIT and SERVICE puts a good flit on the
lanes and clears a waiting NAK; in RETRAIN it sends a good idle flit and keeps the buffer; in STILL it sends the waiting
link control word, else the idle flits still due. CREDIT that is well formed sets or adds to the hub's credits (the EV
count stated for T, with nothing in the event ring, or out of SERVICE) and leaves what the hub granted; a bad one changes
no port and records 0x1050. CREDIT_SEND with traffic up grants what is owed and sends it in one message. Each stated
negative case changes nothing. That FLIT_RECEIVED carries bytes already descrambled, and that the electrical steps of
RETRAIN precede the idle flits, are the model's choices (log entry 39). Rules: R48, R55, R57, R58, R60, R61, R67, R68,
R105, R106. -/
def Obligations.FlitsRun : Prop :=
  ∀ s : State, s.canon →
    (∀ (p : Port) (bytes b : List Byte), ((s.link p).lstate = .init ∨ (s.link p).lstate = .service ∨ (s.link p).lstate =
      .retrain) → fecDecode bytes = (b, 0) → flitGood b = true → (headerOf b).kind = 0 → (headerOf b).pln = false →
      (headerOf b).seq = (s.link p).exp → (headerOf b).ackv = false → (headerOf b).nak = false → Runs s (.flitReceived p
      bytes) [.rx, .links] fun t => t.link p = { s.link p with exp := (s.link p).exp + 1, ackv := true, nakWait := false } ∧
      t.rx = s.rx ++ (((List.range 3).flatMap fun k => slotCmds p s.isAnswer (slotAt (headerOf b) b k)).map (RxItem.cmd p)
      ++ [.flitEnd p]) ∧ (∀ q ∈ allPorts, q ≠ p → t.link q = s.link q)) ∧
    (∀ (p : Port) (bytes b : List Byte), ((s.link p).lstate = .init ∨ (s.link p).lstate = .service ∨ (s.link p).lstate =
      .retrain) → fecDecode bytes = (b, 0) → flitGood b = true → (headerOf b).kind = 0 → (headerOf b).pln = false → 0 <
      ((headerOf b).seq - (s.link p).exp).toNat → ((headerOf b).seq - (s.link p).exp).toNat < 512 → (headerOf b).ackv =
      false → (headerOf b).nak = false → Runs s (.flitReceived p bytes) [.links] fun t => t.link p = (s.link p).requestNak ∧
      (∀ q ∈ allPorts, q ≠ p → t.link q = s.link q)) ∧
    (∀ (p : Port) (bytes b : List Byte), ((s.link p).lstate = .init ∨ (s.link p).lstate = .service ∨ (s.link p).lstate =
      .retrain) → fecDecode bytes = (b, 0) → flitGood b = true → (headerOf b).kind = 0 → (headerOf b).pln = false → 512 ≤
      ((headerOf b).seq - (s.link p).exp).toNat → (headerOf b).ackv = false → (headerOf b).nak = false → Runs s
      (.flitReceived p bytes) [] fun t => t = s) ∧
    (∀ (p : Port) (bytes b : List Byte), ((s.link p).lstate = .init ∨ (s.link p).lstate = .service ∨ (s.link p).lstate =
      .retrain) → fecDecode bytes = (b, 0) → flitGood b = true → (headerOf b).kind = 1 → (headerOf b).pln = false →
      (headerOf b).ackv = true → (headerOf b).nak = false → Runs s (.flitReceived p bytes) [.links] fun t => t.link p =
      (s.link p).honourAck (headerOf b).ack ∧ ((s.link p).buf = [⟨(headerOf b).ack, [], false⟩] → (t.link p).buf = [] ∧
      (t.link p).replays = 0) ∧ (∀ q ∈ allPorts, q ≠ p → t.link q = s.link q)) ∧
    (∀ (p : Port) (bytes : List Byte), ((s.link p).lstate = .init ∨ (s.link p).lstate = .service ∨ (s.link p).lstate = .retrain)
      → flitGood (fecDecode bytes).1 = false → Runs s (.flitReceived p bytes) [.links, .block 0x1] fun t => (t.link p).exp =
      (s.link p).exp ∧ (t.link p).nakWait = true ∧ ((fecDecode bytes).2 = 0 → Counted (Reg.LNK_BADFLIT p.idx) s t) ∧
      ((t.link p).tx = (s.link p).tx ∧ (t.link p).buf = (s.link p).buf) ∧ (∀ q ∈ allPorts, q ≠ p → t.link q = s.link q)) ∧
    (∀ (p : Port) (bytes : List Byte), ((s.link p).lstate = .down ∨ (s.link p).lstate = .train ∨ (s.link p).lstate = .still) →
      exec (.flitReceived p bytes) s = .next s) ∧
    (∀ (p : Port), (s.link p).lstate = .init → Runs s (.flitTransmit p) [.links, .ord] fun t => flitGood (t.link p).lastFlit =
      true ∧ (t.link p).nakOut = false ∧ (t.link p).lstate = .init) ∧
    (∀ (p : Port), ((s.link p).lstate = .down ∨ (s.link p).lstate = .train) → exec (.flitTransmit p) s = .next s) ∧
    (∀ (p : Port), (s.link p).lstate = .service → Runs s (.flitTransmit p) [.free, .log, .links, .twin, .ord, .mir, .reg
      Reg.MIR_RBLINES] fun t => flitGood (t.link p).lastFlit = true ∧ (t.link p).nakOut = false ∧ (t.link p).lstate =
      .service ∧ (s.mir.rbOut = [] → s.log.ring = [] → SameBut [.free, .links, .log, .ord] s t)) ∧
    (∀ (p : Port), (s.link p).lstate = .retrain → Runs s (.flitTransmit p) [.links, .ord] fun t => flitGood (t.link p).lastFlit =
      true ∧ (headerOf (t.link p).lastFlit).kind = 1 ∧ (t.link p).nakOut = false ∧ (t.link p).lstate = .retrain ∧ (t.link
      p).buf = (s.link p).buf) ∧
    (∀ (p : Port), (s.link p).lstate = .still → (s.link p).linkCtl = none → 0 < (s.link p).stillOut → Runs s (.flitTransmit p)
      [.links] fun t => t.link p = { (s.link p).idleFlit with stillOut := (s.link p).stillOut - 1 } ∧ (∀ q ∈ allPorts, q ≠ p
      → t.link q = s.link q)) ∧
    (∀ (p : Port) (c r : Byte), (s.link p).lstate = .still → (s.link p).linkCtl = some (c, r) → Runs s (.flitTransmit p) [.links]
      fun t => t.link p = { s.link p with linkCtl := none }.putFlit 2 0 false false (s.link p).seq [c, r] ∧ (∀ q ∈ allPorts,
      q ≠ p → t.link q = s.link q)) ∧
    (∀ (p : Port) (m : CreditMsg), ((s.link p).up = true ∨ (s.link p).lstate = .init) → badCredit p (s.link p) m = false → Runs s
      (.credit p m) [.log, .links] fun t => (t.link p).gotCredit = true ∧ { (t.link p).mine with ev := 0 } =
      { (if m.init then creditCounts m else (s.link p).mine.add (creditCounts m)) with ev := 0 } ∧ (p = .t ∨ s.log.ring = []
      ∨ (s.link p).lstate ≠ .service → (t.link p).mine = (if m.init then creditCounts m else (s.link p).mine.add
      (creditCounts m)) ∧ (t.link p).tx = (s.link p).tx) ∧ (t.link p).granted = (s.link p).granted ∧ (∀ q ∈ allPorts, q ≠ p
      → t.link q = s.link q)) ∧
    (∀ (p : Port) (m : CreditMsg), ((s.link p).lstate = .down ∨ (s.link p).lstate = .train) → exec (.credit p m) s = .next s) ∧
    (∀ (p : Port) (m : CreditMsg), ((s.link p).up = true ∨ (s.link p).lstate = .init) → badCredit p (s.link p) m = true → Runs s
      (.credit p m) (.free :: logParts) fun t => t.links = s.links ∧ (Attentive s → LoggedFree 0x1050 t)) ∧
    (∀ (p : Port), (s.link p).up = true → (s.link p).owed.any = true → Runs s (.creditSend p) [.links] fun t => t.link p =
      { s.link p with granted := (s.link p).granted.add (s.link p).owed, owed := {}, tx := (s.link p).tx ++ [.msg (mkCredit false (s.link p).owed)] }
      ∧ (∀ q ∈ allPorts, q ≠ p → t.link q = s.link q)) ∧
    (∀ (p : Port), ((s.link p).up = false) → exec (.creditSend p) s = .next s)

/-- Still, wake, margining, unknown messages and overruns. For every canonical state each command answers a next state under
the conditions given, and nothing outside the parts it names (never the queue) changes. STILL_REQ on a U-port with
STILL_EN in SERVICE, with an empty buffer, no traffic, notice, event or answer waiting, enters STILL with 8 idle flits due
and acknowledges; with STILL_EN = 0 it is refused with reason 1 and shown. STILL_RESUME goes from STILL to RETRAIN,
counts, has the wake event due in every case, keeps the reason to wake if one exists and then shows WAKE_COLLIDE; in a
retrain begun by the hub's own wake it shows WAKE_COLLIDE. STILL_WAKE goes to RETRAIN where its reason is the hub's.
MARGIN_GO in SERVICE with GO set on a lane of the port stores the value in LNK_MARGIN and clears the count of bad flits;
MARGIN_STOP clears GO, sets DONE, and shows MARGIN_STOP where eight or more flits were bad. UNKNOWN_MESSAGE (type byte not
0) is counted and recorded as 0x1051. OVERRUN without credit counts a bad message, records 0x1050 and spends no credit: of
a host request, and of a line on T, it takes a place in the request order; of a management message it changes no port.
Each stated negative case changes nothing. The count of eight, the single answer and the place of an overrun are the
model's choices (log entry 39). Rules: R47, R67, R68, R79, R83, R108. -/
def Obligations.StillAndMarginRun : Prop :=
  ∀ s : State, s.canon →
    (∀ (p : Port), (s.link p).lstate = .service → p ≠ .t → s.flag (Fld.LNK_CFG.STILL_EN p.idx) = true → s.top.state = .service →
      (s.link p).buf = [] → (s.link p).trafficWaits = false → (s.link p).pln = none → s.eventWaits p = false → (∀ r ∈
      s.ord.ret, r.port ≠ p) → Runs s (.stillReq p) [.links] fun t => t.link p =
      { s.link p with lstate := .still, linkCtl := some (2, 0), stillOut := 8, pairWake := false }) ∧
    (∀ (p : Port), (s.link p).lstate = .service → p ≠ .t → s.flag (Fld.LNK_CFG.STILL_EN p.idx) = false → Runs s (.stillReq p)
      [.links, .reg (Reg.LNK_EVENT p.idx)] fun t => t.link p = { s.link p with linkCtl := some (3, 1) } ∧ t.flag
      (Fld.LNK_EVENT.STILL_REFUSED p.idx) = true ∧ (∀ q ∈ allPorts, q ≠ p → t.link q = s.link q)) ∧
    (∀ (p : Port), ((s.link p).lstate ≠ .service ∨ p = .t) → exec (.stillReq p) s = .next s) ∧
    (∀ (p : Port), (s.link p).lstate = .still → Runs s (.stillResume p) [.links, .block 0x1] fun t => t.link p =
      { s.link p with lstate := .retrain, wakeDue := true, wake := s.wakeReason p, pairWake := false, stillOut := 0, linkCtl := none, deferred := false, refill := false, replayAt := none }
      ∧ (∀ q ∈ allPorts, q ≠ p → t.link q = s.link q) ∧ Counted (Reg.LNK_RETRAINS p.idx) s t ∧ ((s.wakeReason p).isSome =
      true → t.flag (Fld.LNK_EVENT.WAKE_COLLIDE p.idx) = true) ∧ ((s.wakeReason p).isSome = false → t.reg (Reg.LNK_EVENT
      p.idx) = s.reg (Reg.LNK_EVENT p.idx))) ∧
    (∀ (p : Port), ((s.link p).lstate ≠ .still ∧ (s.link p).lstate ≠ .retrain) → exec (.stillResume p) s = .next s) ∧
    (∀ (p : Port), (s.link p).lstate = .retrain → (s.link p).wakeDue = true → (s.link p).wake ≠ none → Runs s (.stillResume p)
      [.reg (Reg.LNK_EVENT p.idx)] fun t => t.flag (Fld.LNK_EVENT.WAKE_COLLIDE p.idx) = true) ∧
    (∀ (p : Port) (reason : BitVec 2), (s.link p).lstate = .still → s.wakeReason p = some reason → Runs s (.stillWake p reason)
      [.links, .block 0x1] fun t => t.link p =
      { s.link p with lstate := .retrain, wakeDue := true, wake := some reason, pairWake := false, stillOut := 0, linkCtl := none, deferred := false, refill := false, replayAt := none }
      ∧ (∀ q ∈ allPorts, q ≠ p → t.link q = s.link q) ∧ Counted (Reg.LNK_RETRAINS p.idx) s t) ∧
    (∀ (p : Port) (reason : BitVec 2), ((s.link p).lstate ≠ .still ∨ s.wakeReason p ≠ some reason) → exec (.stillWake p reason) s
      = .next s) ∧
    (∀ (p : Port) (value : Word), (s.link p).lstate = .service → value.getLsbD 14 = true → (p = .t ∨ fieldGet value 3 0 < 8) →
      Runs s (.marginGo p value) [.links, .block 0x1] fun t => t.reg (Reg.LNK_MARGIN p.idx) = value &&& 0x00007FEF ∧ t.link
      p = { s.link p with margBad := 0 }) ∧
    (∀ (p : Port) (value : Word), ((s.link p).lstate ≠ .service ∨ value.getLsbD 14 = false) → exec (.marginGo p value) s = .next
      s) ∧
    (∀ (p : Port), s.flag (Fld.LNK_MARGIN.GO p.idx) = true → Runs s (.marginStop p) [.block 0x1] fun t => t.flag
      (Fld.LNK_MARGIN.GO p.idx) = false ∧ t.flag (Fld.LNK_MARGIN.DONE p.idx) = true ∧ (8 ≤ (s.link p).margBad → t.flag
      (Fld.LNK_EVENT.MARGIN_STOP p.idx) = true)) ∧
    (∀ (p : Port), (s.flag (Fld.LNK_MARGIN.GO p.idx) = false) → exec (.marginStop p) s = .next s) ∧
    (∀ (p : Port) (m : Msg), ((s.link p).up = true ∨ (s.link p).lstate = .init) → bitsOf m 7 0 ≠ 0 → Runs s (.unknownMessage p m)
      (.free :: .reg (Reg.LNK_BADMSG p.idx) :: logParts) fun t => Counted (Reg.LNK_BADMSG p.idx) s t ∧ (Attentive s →
      LoggedFree 0x1051 t)) ∧
    (∀ (p : Port) (m : Msg), ((s.link p).lstate = .down ∨ bitsOf m 7 0 = 0) → exec (.unknownMessage p m) s = .next s) ∧
    (∀ (p : Port) (item : CreditedItem) (op : HostOp) (r : HostReq), (s.link p).takes = true → p ≠ .t → (s.link p).granted.covers
      (itemCost item p) = false → item = .request op r → Runs s (.overrun p item) (.free :: .links :: .reg (Reg.LNK_BADMSG
      p.idx) :: logParts) fun t => Counted (Reg.LNK_BADMSG p.idx) s t ∧ (t.link p).nextReq = (s.link p).nextReq + 1 ∧
      ((t.link p).granted = (s.link p).granted ∧ (t.link p).lane = (s.link p).lane ∧ (t.link p).tags = (s.link p).tags) ∧
      (Attentive s → LoggedFree 0x1050 t)) ∧
    (∀ (p : Port) (item : CreditedItem), ((s.link p).takes = false ∨ (s.link p).granted.covers (itemCost item p) = true) → exec
      (.overrun p item) s = .next s) ∧
    (∀ (p : Port) (item : CreditedItem) (mtag : BitVec 4), (s.link p).takes = true → (s.link p).granted.covers (itemCost item p)
      = false → item = .mgt mtag → Runs s (.overrun p item) (.free :: .reg (Reg.LNK_BADMSG p.idx) :: logParts) fun t =>
      Counted (Reg.LNK_BADMSG p.idx) s t ∧ t.links = s.links ∧ (Attentive s → LoggedFree 0x1050 t)) ∧
    (∀ (d : DataSlot), (s.link .t).takes = true → (s.link .t).granted.covers lineCost = false → Runs s (.overrun .t (.slot d))
      (.free :: .links :: .twin :: .ord :: .mir :: .sch :: .block 0x1 :: .reg Reg.ORD_FWD :: .reg Reg.ORD_LINEHOLD :: .reg
      Reg.MIR_RBCUR :: .reg Reg.ECC_SEALFAIL :: .reg Reg.ECC_FIRSTFAIL :: logParts) fun t => Counted (Reg.LNK_BADMSG 4) s t
      ∧ (t.link .t).nextReq = (s.link .t).nextReq + 1 ∧ ((t.link .t).granted = (s.link .t).granted ∧ (t.link .t).lane =
      (s.link .t).lane) ∧ (Attentive s → LoggedFree 0x1050 t))

/-- Host requests enter their lane queue. For every canonical state each command answers a next state under the conditions
given, and nothing outside the parts it names (never the queue) changes. READ, WRITE_A, WRITE_D, MWRITE_A, MWRITE_D and
FLUSH on a U-port in SERVICE, credited, with a free tag, well formed and with no half waiting for that tag, stand last in
the port's lane queue with tag, admission bit, stream, address, request number and verdict; their credits are spent, the
tag is in use, and no other port changes. DUPLICATE_TAG on a tag in use, credited, is counted as a bad message, takes a
place in the request order, changes neither the tags nor the lane queue, owes the credits back, and records 0x1052; with
the tag not in use it changes nothing. Rules: R78, R79, R80, R81, R82, R83, R94, R108. -/
def Obligations.HostRequestsQueue : Prop :=
  ∀ s : State, s.canon →
    (∀ (p : Port) (r : HostReq), s.takesHost p .read r = true → Runs s (.read p r) [.links] fun t => HostQueued p .read r s t) ∧
    (∀ (p : Port) (r : HostReq), s.takesHost p .writeA r = true → Runs s (.writeA p r) [.links] fun t => HostQueued p .writeA r s
      t) ∧
    (∀ (p : Port) (r : HostReq), s.takesHost p .writeD r = true → Runs s (.writeD p r) [.links] fun t => HostQueued p .writeD r s
      t) ∧
    (∀ (p : Port) (r : HostReq), s.takesHost p .mwriteA r = true → Runs s (.mwriteA p r) [.links] fun t => HostQueued p .mwriteA
      r s t) ∧
    (∀ (p : Port) (r : HostReq), s.takesHost p .mwriteD r = true → Runs s (.mwriteD p r) [.links] fun t => HostQueued p .mwriteD
      r s t) ∧
    (∀ (p : Port) (r : HostReq), s.takesHost p .flush r = true → Runs s (.flush p r) [.links] fun t => HostQueued p .flush r s t) ∧
    (∀ (p : Port) (op : HostOp) (r : HostReq), p ≠ .t → (s.link p).lstate = .service → (s.link p).granted.covers (opCost op) =
      true → r.tag ∈ (s.link p).tags → Runs s (.duplicateTag p op r) (.free :: .links :: .reg (Reg.LNK_BADMSG p.idx) ::
      logParts) fun t => Counted (Reg.LNK_BADMSG p.idx) s t ∧ (t.link p).nextReq = (s.link p).nextReq + 1 ∧ (t.link p).tags
      = (s.link p).tags ∧ (t.link p).lane = (s.link p).lane ∧ (Attentive s → LoggedFree 0x1052 t) ∧ (((s.link p).owed.add
      (opCost op)).full = false → (t.link p).owed = (s.link p).owed.add (opCost op))) ∧
    (∀ (p : Port) (op : HostOp) (r : HostReq), (r.tag ∉ (s.link p).tags) → exec (.duplicateTag p op r) s = .next s)

/-- Host data slots, the pairing window, the merge and region reloads. For every canonical state each command answers a next
state under the conditions given, and nothing outside the parts it names (never the queue) changes. HOST_DATA_SLOT with
nothing in the lane queue waits as a half; with one matching write request and no data yet it joins it (both without
poison, in a form a host may send, and with no half of that tag to be dropped). PAIRING_WINDOW_EXPIRED drops the half of
the tag that found no partner: of a data slot not already to be dropped it counts a bad slot and records 0x1053, else
nothing more changes; a write request alone in its lane without its data leaves the lane queue and is rejected with reason
4. MERGE_POSITION with a good table entry takes the first request of the next lane, puts it last in merge order with Map's
outcome (stated for forwarding, local and flush outcomes) and marks the lane granted; with no lane ready it changes
nothing. REGION_ENTRY_RELOADED with the shadow's read over and no change of the table due takes the entry off the failed
list; if a copy was readable the first copy of the shadow line that decodes gives its value, none makes the entry lost and
records 0x3011; for an entry that has not failed, or before that, nothing changes. Rules: R32, R33, R53, R81, R82, R87,
R96, R149, R151, R152. -/
def Obligations.HostDataAndMergeRun : Prop :=
  ∀ s : State, s.canon →
    (∀ (p : Port) (d : DataSlot), p ≠ .t → (s.link p).lstate = .service → d.poison = false → d.form.toNat < 2 → (s.link p).lane =
      [] → (s.link p).halves.any (fun h => h.tag == d.tag && h.drop) = false → Runs s (.hostDataSlot p d) [.links] fun t =>
      t.link p = { s.link p with halves := (s.link p).halves ++ [{ tag := d.tag, slot := some d }] }) ∧
    (∀ (p : Port) (d : DataSlot) (q : LaneReq) (op : HostOp), p ≠ .t → (s.link p).lstate = .service → d.poison = false →
      d.form.toNat < 2 → (s.link p).lane = [q] → q.kind = .host op → isWriteOp op = true → q.tag = d.tag → q.slot = none →
      slotAgrees op q.stream d = true → (s.link p).halves.any (fun h => h.tag == d.tag && h.drop) = false → Runs s
      (.hostDataSlot p d) [.links] fun t => t.link p = { s.link p with lane := [{ q with slot := some d }] }) ∧
    (∀ (p : Port) (tag : BitVec 12) (h : Half), (s.link p).up = true → (s.link p).lane.find? (fun q => q.tag == tag && !q.ready)
      = none → (s.link p).halves.find? (fun h => h.tag == tag) = some h → Runs s (.pairingWindowExpired p tag) (.free ::
      .links :: .reg (Reg.LNK_BADSLOT p.idx) :: logParts) fun t => t.link p =
      { s.link p with halves := (s.link p).halves.erase h } ∧ (h.slot ≠ none ∧ h.drop = false → Counted (Reg.LNK_BADSLOT
      p.idx) s t ∧ (Attentive s → LoggedFree 0x1053 t)) ∧ (h.slot = none ∨ h.drop = true → SameBut [.links] s t)) ∧
    (∀ (p : Port) (tag : BitVec 12), ((s.link p).up = false) → exec (.pairingWindowExpired p tag) s = .next s) ∧
    (∀ (p : Port) (tag : BitVec 12) (q : LaneReq) (op : HostOp), (s.link p).up = true → (s.link p).lane = [q] → q.kind = .host op
      → isWriteOp op = true → q.tag = tag → q.slot = none → Runs s (.pairingWindowExpired p tag) [.links, .ord] fun t =>
      (t.link p).lane = [] ∧ (t.link p).halves = (s.link p).halves ∧ t.ord.ret.length = s.ord.ret.length + 1 ∧ (∃ it ∈
      t.ord.ret, it.port = p ∧ it.body = .record tag 4 false 4 true)) ∧
    (∀ (found : EntryCheck) (p : Port) (q : LaneReq) (rest : List LaneReq) (op : HostOp) (out : MapOut), s.nextLane = some p →
      (s.link p).lane = q :: rest → q.kind = .host op → s.mapHost p op q = out → (out = .flush ∨ out = .forward ∨ out =
      .locally true ∨ out = .locally false) → found = .ok → Runs s (.mergePosition found) [.links, .ord] fun t => (t.link
      p).lane = rest ∧ t.ord.granted = s.ord.granted ++ [p] ∧ t.ord.mapped.map (fun m => (m.lane, m.req, m.out)) =
      s.ord.mapped.map (fun m => (m.lane, m.req, m.out)) ++ [(p, q, out)]) ∧
    (∀ (found : EntryCheck), (s.nextLane = none) → exec (.mergePosition found) s = .next s) ∧
    (∀ (found : Option Line) (region : BitVec 18) (readable : Bool), region.toNat ∈ s.map.failed → s.readStands (0x10000 + 4 *
      region.toNat) = false → s.map.due = [] → found = (if readable then s.peekReserve (0x10000 + 4 * region.toNat) else
      none) → Runs s (.regionEntryReloaded region readable) (.free :: .map :: logParts) fun t => t.map.failed =
      s.map.failed.filter (· != region.toNat) ∧ (found ≠ none → t.map.lost = s.map.lost ∧ t.map.rt = Tab.set (fun _ => 0)
      s.map.rt region.toNat ((found.getD 0).extractLsb' (32 * (region.toNat % 16)) 32)) ∧ (found = none → t.map.lost =
      s.map.lost ++ [region.toNat] ∧ (Attentive s → LoggedFree 0x3011 t))) ∧
    (∀ (region : BitVec 18) (readable : Bool), (region.toNat ∉ s.map.failed ∨ s.readStands (0x10000 + 4 * region.toNat) = true) →
      exec (.regionEntryReloaded region readable) s = .next s)

/-- Order, the bitmap cache and Fork. For every canonical state each command answers a next state under the conditions given,
and nothing outside the parts it names (never the queue) changes. ORDER_ADMIT with no trigger and fewer than four
admissions in the core cycle takes the first mapped request in merge order that is not turned away, not still waiting and,
of a host, not behind the reserve writes of the start. If it may go on it takes the next admission number and leaves merge
order (stated where nothing there is turned away): a local read with a return line (counted where nothing older holds its
line), a forwarded read, a forked WRITE_A with its data, the next fork number, its place at the end of the backlog and,
where tracked, its mark, a FLUSH with the mark of its stream's last fork; each in the first free pool entry with its port
and tag. What else changes is told for each. If it must wait it is marked waiting; one that is to mark a granule whose
bitmap line is not cached counts a miss, another leaves the pool. BITMAP_LINE_FILL with the line's read over leaves the
line in the cache; a cached one changes nothing there, and with room it goes last. FORK_REPLICA, with the line sound or
poisoned, the epoch told to the peer and no rebuild line out, takes the oldest forked write from the backlog, sends it as
the next replica, counts it, and opens a pending entry under the replica's number with its fork number. FORK_NOT_SENT with
no mirroring pair state or T down takes it from the backlog, marks its granule and gives up its write-data credit. After a
trigger, at four admissions, or with an empty backlog the command changes nothing. The order in which the cache evicts is
the model's choice (log entry 42). Rules: R29, R35, R38, R39, R120, R133, R170, R171, R174, R179, R219, R220. -/
def Obligations.OrderAndForkRun : Prop :=
  ∀ s : State, s.canon →
    (∀ (n : Nat) (m : Mapped) (f : Bool), s.top.trigger = none → s.ord.admits < 4 → firstOpen 0 [] s.ord.mapped (fun m =>
      m.turned.isSome || (m.counted && s.mustWait m) || (s.ord.agentQ.any (·.start) && !m.lane.isT)) = some (n, m) →
      s.mustWait m = false → m.lane ≠ .t → m.req.kind = .host .read → m.out = .locally f → Runs s .orderAdmit (.links ::
      .twin :: .ord :: .mir :: .sch :: .reg Reg.ORD_POOLOCC :: .reg Reg.ORD_WBOCC :: .reg Reg.ORD_RBOCC :: .reg Reg.ORD_FWD
      :: .reg Reg.ORD_LINEHOLD :: .reg Reg.ORD_FLUSHES :: .reg Reg.MAP_REJ :: .reg Reg.MIR_DIVMISS :: .reg Reg.MIR_RBCUR ::
      .reg Reg.MIR_RBLINES :: .reg Reg.MIR_FILTERED :: .reg Reg.MIR_REPLADM :: .reg Reg.ECC_SEALFAIL :: .reg
      Reg.ECC_FIRSTFAIL :: .reg Reg.ECC_REPAIRW :: logParts) fun t => t.ord.admits = s.ord.admits + 1 ∧ t.ord.admNext =
      s.ord.admNext + 1 ∧ ((∀ x ∈ s.ord.mapped.eraseIdx n, x.turned = none) → t.ord.mapped.length + 1 = s.ord.mapped.length)
      ∧ (s.held m.addr s.ord.admNext = none → t.ord.retRes = s.ord.retRes + 1) ∧ (s.held m.addr s.ord.admNext = none ∨
      (s.link m.lane).up = true → (t.entry (firstFree 0 s.ord.pool)).map (fun e => (e.kind, e.port, e.tag, e.adm,
      e.forwarded)) = some (.read, m.lane, m.req.tag, s.ord.admNext, false)) ∧ ((∀ x ∈ s.ord.mapped.eraseIdx n, x.turned =
      none) → s.held m.addr s.ord.admNext = none → SameBut [.links, .ord, .sch, .reg Reg.ORD_POOLOCC, .reg Reg.ORD_WBOCC,
      .reg Reg.ORD_RBOCC] s t)) ∧
    (∀ (n : Nat) (m : Mapped), s.top.trigger = none → s.ord.admits < 4 → firstOpen 0 [] s.ord.mapped (fun m => m.turned.isSome ||
      (m.counted && s.mustWait m) || (s.ord.agentQ.any (·.start) && !m.lane.isT)) = some (n, m) → s.mustWait m = false →
      m.lane ≠ .t → m.req.kind = .host .read → m.out = .forward → Runs s .orderAdmit (.links :: .twin :: .ord :: .mir ::
      .sch :: .reg Reg.ORD_POOLOCC :: .reg Reg.ORD_WBOCC :: .reg Reg.ORD_RBOCC :: .reg Reg.ORD_FWD :: .reg Reg.ORD_LINEHOLD
      :: .reg Reg.ORD_FLUSHES :: .reg Reg.MAP_REJ :: .reg Reg.MIR_DIVMISS :: .reg Reg.MIR_RBCUR :: .reg Reg.MIR_RBLINES ::
      .reg Reg.MIR_FILTERED :: .reg Reg.MIR_REPLADM :: .reg Reg.ECC_SEALFAIL :: .reg Reg.ECC_FIRSTFAIL :: .reg
      Reg.ECC_REPAIRW :: logParts) fun t => t.ord.admits = s.ord.admits + 1 ∧ t.ord.admNext = s.ord.admNext + 1 ∧ ((∀ x ∈
      s.ord.mapped.eraseIdx n, x.turned = none) → t.ord.mapped.length + 1 = s.ord.mapped.length) ∧ (t.entry (firstFree 0
      s.ord.pool)).map (fun e => (e.kind, e.port, e.tag, e.adm, e.forwarded)) = some (.read, m.lane, m.req.tag,
      s.ord.admNext, true) ∧ ((∀ x ∈ s.ord.mapped.eraseIdx n, x.turned = none) → SameBut [.links, .ord, .mir, .reg
      Reg.ORD_POOLOCC, .reg Reg.ORD_WBOCC, .reg Reg.ORD_RBOCC] s t)) ∧
    (∀ (n : Nat) (m : Mapped) (d : DataSlot), s.top.trigger = none → s.ord.admits < 4 → firstOpen 0 [] s.ord.mapped (fun m =>
      m.turned.isSome || (m.counted && s.mustWait m) || (s.ord.agentQ.any (·.start) && !m.lane.isT)) = some (n, m) →
      s.mustWait m = false → m.lane ≠ .t → m.req.kind = .host .writeA → m.out = .locally true → m.req.slot = some d →
      s.map.failed = [] → Runs s .orderAdmit (.links :: .twin :: .ord :: .mir :: .sch :: .reg Reg.ORD_POOLOCC :: .reg
      Reg.ORD_WBOCC :: .reg Reg.ORD_RBOCC :: .reg Reg.ORD_FWD :: .reg Reg.ORD_LINEHOLD :: .reg Reg.ORD_FLUSHES :: .reg
      Reg.MAP_REJ :: .reg Reg.MIR_DIVMISS :: .reg Reg.MIR_RBCUR :: .reg Reg.MIR_RBLINES :: .reg Reg.MIR_FILTERED :: .reg
      Reg.MIR_REPLADM :: .reg Reg.ECC_SEALFAIL :: .reg Reg.ECC_FIRSTFAIL :: .reg Reg.ECC_REPAIRW :: logParts) fun t =>
      t.ord.admits = s.ord.admits + 1 ∧ t.ord.admNext = s.ord.admNext + 1 ∧ ((∀ x ∈ s.ord.mapped.eraseIdx n, x.turned =
      none) → t.ord.mapped.length + 1 = s.ord.mapped.length) ∧ t.ord.forkNext = s.ord.forkNext + 1 ∧ (t.entry (firstFree 0
      s.ord.pool)).map (fun e => (e.kind, e.port, e.tag, e.adm)) = some (.write, m.lane, m.req.tag, s.ord.admNext) ∧
      (t.entry (firstFree 0 s.ord.pool)).map (fun e => (e.line, e.forkNo, e.fork)) = some (d.line, s.ord.forkNext, .backlog)
      ∧ t.ord.backlog = s.ord.backlog ++ [firstFree 0 s.ord.pool] ∧ (m.tracked = true → t.marked (granOf m.addr) = true) ∧
      ((∀ x ∈ s.ord.mapped.eraseIdx n, x.turned = none) → SameBut [.links, .ord, .mir, .sch, .reg Reg.ORD_POOLOCC, .reg
      Reg.ORD_WBOCC, .reg Reg.ORD_RBOCC, .reg Reg.ORD_LINEHOLD, .reg Reg.ORD_FLUSHES] s t)) ∧
    (∀ (n : Nat) (m : Mapped), s.top.trigger = none → s.ord.admits < 4 → firstOpen 0 [] s.ord.mapped (fun m => m.turned.isSome ||
      (m.counted && s.mustWait m) || (s.ord.agentQ.any (·.start) && !m.lane.isT)) = some (n, m) → s.mustWait m = false →
      m.lane ≠ .t → m.req.kind = .host .flush → m.out = .flush → Runs s .orderAdmit (.links :: .twin :: .ord :: .mir :: .sch
      :: .reg Reg.ORD_POOLOCC :: .reg Reg.ORD_WBOCC :: .reg Reg.ORD_RBOCC :: .reg Reg.ORD_FWD :: .reg Reg.ORD_LINEHOLD ::
      .reg Reg.ORD_FLUSHES :: .reg Reg.MAP_REJ :: .reg Reg.MIR_DIVMISS :: .reg Reg.MIR_RBCUR :: .reg Reg.MIR_RBLINES :: .reg
      Reg.MIR_FILTERED :: .reg Reg.MIR_REPLADM :: .reg Reg.ECC_SEALFAIL :: .reg Reg.ECC_FIRSTFAIL :: .reg Reg.ECC_REPAIRW ::
      logParts) fun t => t.ord.admits = s.ord.admits + 1 ∧ t.ord.admNext = s.ord.admNext + 1 ∧ ((∀ x ∈ s.ord.mapped.eraseIdx
      n, x.turned = none) → t.ord.mapped.length + 1 = s.ord.mapped.length) ∧ ((s.link m.lane).up = true → (t.entry
      (firstFree 0 s.ord.pool)).map (fun e => (e.kind, e.port, e.tag, e.adm, e.mark)) = some (.flush, m.lane, m.req.tag,
      s.ord.admNext, (s.stream m.req.stream.toNat).lastFork)) ∧ ((∀ x ∈ s.ord.mapped.eraseIdx n, x.turned = none) → SameBut
      [.links, .ord, .reg Reg.ORD_POOLOCC, .reg Reg.ORD_WBOCC, .reg Reg.ORD_RBOCC, .reg Reg.ORD_FLUSHES] s t)) ∧
    (∀ (n : Nat) (m : Mapped), s.top.trigger = none → s.ord.admits < 4 → firstOpen 0 [] s.ord.mapped (fun m => m.turned.isSome ||
      (m.counted && s.mustWait m) || (s.ord.agentQ.any (·.start) && !m.lane.isT)) = some (n, m) → s.mustWait m = true → Runs
      s .orderAdmit (.ord :: .sch :: .reg Reg.ORD_FWD :: .reg Reg.MIR_DIVMISS :: .links :: .twin :: .mir :: .reg
      Reg.ORD_LINEHOLD :: .reg Reg.ECC_SEALFAIL :: .reg Reg.ECC_FIRSTFAIL :: logParts) fun t => t.ord.mapped =
      s.ord.mapped.modify n (fun m => { m with waiting := true }) ∧ t.ord.admits = s.ord.admits ∧ (m.marks = true ∧
      s.mir.cache.contains (granOf m.addr / 512) = false → Counted Reg.MIR_DIVMISS s t) ∧ (m.marks = false ∨
      s.mir.cache.contains (granOf m.addr / 512) = true → t.ord.pool = s.ord.pool ∧ SameBut [.ord] s t)) ∧
    ((s.top.trigger ≠ none ∨ 4 ≤ s.ord.admits) → exec .orderAdmit s = .next s) ∧
    (∀ (bitmapLine : BitVec 15), s.readStands (0x110000 + 64 * bitmapLine.toNat) = false → Runs s (.bitmapLineFill bitmapLine)
      [.mir] fun t => bitmapLine.toNat ∈ t.mir.cache ∧ (bitmapLine.toNat ∈ s.mir.cache → t.mir = s.mir) ∧ (bitmapLine.toNat
      ∉ s.mir.cache → s.mir.cache.length < 1024 → t.mir = { s.mir with cache := s.mir.cache ++ [bitmapLine.toNat] })) ∧
    (∀ (bitmapLine : BitVec 15), (s.readStands (0x110000 + 64 * bitmapLine.toNat) = true) → exec (.bitmapLineFill bitmapLine) s =
      .next s) ∧
    (∀ (i : Nat) (rest : List Nat) (e : PoolEntry), s.ord.backlog = i :: rest → s.underShare = false → s.canFork = true → s.entry
      i = some e → (e.poison = true ∨ e.sealGood = true) → s.twin.epochSent = some s.mir.epoch → s.mir.rbOut = [] → Runs s
      .forkReplica [.links, .twin, .ord, .mir, .sch, .reg Reg.MIR_PENDOCC, .reg Reg.MIR_REPLSENT] fun t => t.ord.backlog =
      rest ∧ t.twin.txCount = s.twin.txCount + 1 ∧ Counted Reg.MIR_REPLSENT s t ∧ (t.entry i).map (·.fork) = some .sent ∧
      (Tab.get (fun _ => none) t.mir.pend ((s.twin.txCount + 1) % 4096)).map (fun x : PendEntry => (x.state, x.rnum,
      x.fork)) = some (.sent, s.twin.txCount + 1, e.forkNo) ∧ (t.link .t).tx.length = (s.link .t).tx.length + 1) ∧
    ((s.ord.backlog = []) → exec .forkReplica s = .next s) ∧
    (∀ (i : Nat) (rest : List Nat) (e : PoolEntry), s.ord.backlog = i :: rest → (s.mir.pstate.mirrors = false ∨ (s.link
      .t).lstate = .down) → s.entry i = some e → Runs s .forkNotSent (.links :: .twin :: .ord :: .mir :: .sch :: .reg
      Reg.ORD_FWD :: .reg Reg.ORD_LINEHOLD :: .reg Reg.MIR_PENDOCC :: .reg Reg.ECC_SEALFAIL :: .reg Reg.ECC_FIRSTFAIL ::
      logParts) fun t => t.ord.backlog = rest ∧ (t.entry i).map (fun e => (e.fork, e.wdHeld)) = some (.notSent, false) ∧
      t.marked (granOf e.addr) = true) ∧
    ((s.ord.backlog = []) → exec .forkNotSent s = .next s)

/-- Schedule and Drive: dispatch, the cycle of a sub-channel, power-down exit and aging. For every canonical state each
command answers a next state under the conditions given, and nothing outside the parts it names (never the queue) changes.
SCHEDULE_DISPATCH with room in the intake moves the oldest undispatched request there if its line is in this sub-channel
and no older one of its line waits. SCHEDULE_CYCLE with the core on advances the sub-channel by 4 CK and no other; in an
alert or a cycle left for Breeze nothing issues. Outside GUST, with no alert, no hold, no refresh fallback and no cycle
left, after filling, probing and the turn: a host read picked for its column leaves the store, joins the flights with the
symbols found, and RD stands newest in the history with its column address; an unsplit write puts the 80 symbols of its
staged codeword into DRAM, counts toward the turn, enters the retry buffer and stands newest as WR; a good one that the
cycle stages and issues writes the encoding of its line; with no column and no refresh to issue, Eddy's entry has its bank
opened by ACT at its row, keeps its place, and becomes Eddy's pointer; a same-bank refresh that finds its slot takes one
from the debt of its banks; a rank asked out of power-down leaves it by PDX in its slot. Where the sub-channel has no
other work and no background work meets the cycle, nothing but what is named changes. POWER_DOWN_EXIT, when a trigger, a
request in the intake or the soft refresh limit asks, has the rank leave power-down in the next free slot, and at the soft
limit be brought below it. ENTRY_AGED marks a store entry aged and counts it. Each stated negative case changes nothing.
That the command is one cycle of four CK, and the choice among equals, are the model's choices (log entry 8). Rules: R31,
R158, R239, R244, R245, R246, R247, R248, R250, R251, R256, R306. -/
def Obligations.SchedulingRuns : Prop :=
  ∀ s : State, s.canon →
    (∀ (sc : Fin 16) (i : Nat) (rest : List Nat) (e : PoolEntry), (s.sub sc.val).intake.length < 64 → s.ord.undisp = i :: rest →
      s.entry i = some e → (s.siteOf e.addr).1 = sc.val → s.olderUndispatched e = false → Runs s (.scheduleDispatch sc)
      [.ord, .sch] fun t => (t.sub sc.val).intake = (s.sub sc.val).intake ++ [i] ∧ t.ord.undisp = rest ∧ t.entry i = some
      { e with dispatched := true }) ∧
    (∀ (sc : Fin 16), ((s.sub sc.val).intake.length ≥ 64 ∨ s.ord.undisp = []) → exec (.scheduleDispatch sc) s = .next s) ∧
    (∀ (sc : Fin 16), s.top.coreOn = true → Runs s (.scheduleCycle sc) (.free :: .links :: .twin :: .ord :: .mir :: .sch :: .flt
      :: .cal :: .dram :: .reg Reg.ORD_FWD :: .reg Reg.ORD_LINEHOLD :: .block 0x5 :: .reg Reg.CAL_STEPS :: .reg
      Reg.CAL_SWITCHES :: .reg Reg.ECC_SEALFAIL :: .reg Reg.ECC_FIRSTFAIL :: logParts) fun t => (t.sub sc.val).ck = (s.sub
      sc.val).ck + 4 ∧ ((s.sub sc.val).alert = 1 ∨ (s.sub sc.val).leave = true → (t.sub sc.val).hist = (s.sub sc.val).hist)
      ∧ (∀ n ∈ List.range 16, n ≠ sc.val → (t.sub n).ck = (s.sub n).ck ∧ (t.sub n).hist = (s.sub n).hist)) ∧
    (∀ (sc : Fin 16), (s.top.coreOn = false) → exec (.scheduleCycle sc) s = .next s) ∧
    (∀ (sc : Fin 16) (e : StoreEntry) (ck : Nat), s.top.coreOn = true → s.top.state ≠ .gust → (s.sub sc.val).alert ≠ 1 → (s.sub
      sc.val).alert ≠ 2 → (s.sub sc.val).held = false → ((((s.fillStore sc.val).probe sc.val).turn sc.val).sub
      sc.val).fallback = [] → (((s.fillStore sc.val).probe sc.val).turn sc.val).pdxStep sc.val = none → (s.sub sc.val).leave
      = false → (((s.fillStore sc.val).probe sc.val).turn sc.val).pickColumn sc.val = some (e, ck) → e.kind = .read → Runs s
      (.scheduleCycle sc) (.free :: .links :: .twin :: .ord :: .mir :: .sch :: .flt :: .cal :: .dram :: .reg Reg.ORD_FWD ::
      .reg Reg.ORD_LINEHOLD :: .block 0x5 :: .reg Reg.CAL_STEPS :: .reg Reg.CAL_SWITCHES :: .reg Reg.ECC_SEALFAIL :: .reg
      Reg.ECC_FIRSTFAIL :: logParts) fun t => (t.sub sc.val).flights = ((((s.fillStore sc.val).probe sc.val).turn
      sc.val).sub sc.val).flights ++ [⟨e, s.symbols sc.val e.loc⟩] ∧ (t.sub sc.val).store = ((((s.fillStore sc.val).probe
      sc.val).turn sc.val).sub sc.val).store.erase e ∧ ((t.sub sc.val).hist.head?).map (fun c => (c.kind, c.loc, c.ck,
      c.colAddr)) = some (.rd, e.loc, ck, 16 * e.loc.col) ∧ (t.sub sc.val).write = ((((s.fillStore sc.val).probe
      sc.val).turn sc.val).sub sc.val).write ∧ (s.quietSub sc.val = true → SameBut [.sch, .block 0x5] s t)) ∧
    (∀ (sc : Fin 16) (e : StoreEntry) (ck i : Nat) (p : PoolEntry), s.top.coreOn = true → s.top.state ≠ .gust → (s.sub
      sc.val).alert ≠ 1 → (s.sub sc.val).alert ≠ 2 → (s.sub sc.val).held = false → ((((s.fillStore sc.val).probe
      sc.val).turn sc.val).sub sc.val).fallback = [] → (((s.fillStore sc.val).probe sc.val).turn sc.val).pdxStep sc.val =
      none → (s.sub sc.val).leave = false → (((s.fillStore sc.val).probe sc.val).turn sc.val).pickColumn sc.val = some (e,
      ck) → e.kind = .write → e.pool = some i → (((s.fillStore sc.val).probe sc.val).turn sc.val).entry i = some p → p.dual
      = false → Runs s (.scheduleCycle sc) (.free :: .links :: .twin :: .ord :: .mir :: .sch :: .flt :: .cal :: .dram ::
      .reg Reg.ORD_FWD :: .reg Reg.ORD_LINEHOLD :: .block 0x5 :: .reg Reg.CAL_STEPS :: .reg Reg.CAL_SWITCHES :: .reg
      Reg.ECC_SEALFAIL :: .reg Reg.ECC_FIRSTFAIL :: logParts) fun t => (∀ k ∈ List.range 80, t.symbol (slotOf sc.val e.loc *
      80 + k) = e.codeword.getD k 0) ∧ (t.sub sc.val).turnWr = ((((s.fillStore sc.val).probe sc.val).turn sc.val).sub
      sc.val).turnWr + 1 ∧ ((t.sub sc.val).hist.head?).map (fun c => (c.kind, c.loc, c.ck, c.colAddr)) = some (.wr, e.loc,
      ck, 16 * e.loc.col) ∧ (t.sub sc.val).retry.getLast?.map (fun x => (x.addr, x.codeword)) = some (e.addr, e.codeword) ∧
      (s.quietSub sc.val = true → SameBut (.links :: .ord :: .mir :: .sch :: .dram :: .reg Reg.ORD_FWD :: .block 0x5 ::
      .twin :: .reg Reg.ORD_LINEHOLD :: .reg Reg.ECC_SEALFAIL :: .reg Reg.ECC_FIRSTFAIL :: logParts) s t)) ∧
    (∀ (sc : Fin 16) (x e : StoreEntry) (ck i : Nat) (p : PoolEntry), s.top.coreOn = true → s.top.state ≠ .gust → (s.sub
      sc.val).alert ≠ 1 → (s.sub sc.val).alert ≠ 2 → (s.sub sc.val).held = false → ((((s.fillStore sc.val).probe
      sc.val).turn sc.val).sub sc.val).fallback = [] → (((s.fillStore sc.val).probe sc.val).turn sc.val).pdxStep sc.val =
      none → (s.sub sc.val).leave = false → s.quietSub sc.val = true → (s.sub sc.val).store = [x] → x.kind = .write →
      x.staged = false → x.pool = some i → s.entry i = some p → p.dual = false → p.kind = .write → p.poison = false →
      p.lpoison = false → p.sealGood = true → (((s.fillStore sc.val).probe sc.val).turn sc.val).pickColumn sc.val = some (e,
      ck) → Runs s (.scheduleCycle sc) (.free :: .links :: .twin :: .ord :: .mir :: .sch :: .flt :: .cal :: .dram :: .reg
      Reg.ORD_FWD :: .reg Reg.ORD_LINEHOLD :: .block 0x5 :: .reg Reg.CAL_STEPS :: .reg Reg.CAL_SWITCHES :: .reg
      Reg.ECC_SEALFAIL :: .reg Reg.ECC_FIRSTFAIL :: logParts) fun t => (∀ k ∈ List.range 80, t.symbol (slotOf sc.val x.loc *
      80 + k) = (encodeLine p.addr p.line .good).getD k 0) ∧ (t.sub sc.val).store = [] ∧ ((t.sub sc.val).hist.head?).map
      (fun c => (c.kind, c.loc, c.ck, c.colAddr)) = some (.wr, x.loc, ck, 16 * x.loc.col) ∧ (t.sub
      sc.val).retry.getLast?.map (fun x => (x.addr, x.codeword)) = some (x.addr, encodeLine p.addr p.line .good)) ∧
    (∀ (sc : Fin 16) (e : StoreEntry) (ck : Nat), s.top.coreOn = true → s.top.state ≠ .gust → (s.sub sc.val).alert ≠ 1 → (s.sub
      sc.val).alert ≠ 2 → (s.sub sc.val).held = false → ((((s.fillStore sc.val).probe sc.val).turn sc.val).sub
      sc.val).fallback = [] → (((s.fillStore sc.val).probe sc.val).turn sc.val).pdxStep sc.val = none → (s.sub sc.val).leave
      = false → (((s.fillStore sc.val).probe sc.val).turn sc.val).pickColumn sc.val = none → (((s.fillStore sc.val).probe
      sc.val).turn sc.val).refsb sc.val = none → (((s.fillStore sc.val).probe sc.val).turn sc.val).eddy sc.val = some (e,
      ck) → Runs s (.scheduleCycle sc) (.free :: .links :: .twin :: .ord :: .mir :: .sch :: .flt :: .cal :: .dram :: .reg
      Reg.ORD_FWD :: .reg Reg.ORD_LINEHOLD :: .block 0x5 :: .reg Reg.CAL_STEPS :: .reg Reg.CAL_SWITCHES :: .reg
      Reg.ECC_SEALFAIL :: .reg Reg.ECC_FIRSTFAIL :: logParts) fun t => (t.sub sc.val).bank (bankOf e.loc) = some
      { row := e.loc.row } ∧ (t.sub sc.val).ptr = bankOf e.loc ∧ (t.sub sc.val).hist.head? = some ⟨ck, .act,
      { e.loc with col := 0 }, false, 0⟩ ∧ (t.sub sc.val).store = ((((s.fillStore sc.val).probe sc.val).turn sc.val).sub
      sc.val).store ∧ (t.sub sc.val).write = ((((s.fillStore sc.val).probe sc.val).turn sc.val).sub sc.val).write ∧
      (s.quietSub sc.val = true → SameBut [.sch, .block 0x5] s t)) ∧
    (∀ (sc : Fin 16) (l : Loc) (more : List Loc) (ck : Nat), s.top.coreOn = true → s.top.state ≠ .gust → (s.sub sc.val).alert ≠ 1
      → (s.sub sc.val).alert ≠ 2 → (s.sub sc.val).held = false → ((((s.fillStore sc.val).probe sc.val).turn sc.val).sub
      sc.val).fallback = [] → (((s.fillStore sc.val).probe sc.val).turn sc.val).pdxStep sc.val = none → (s.sub sc.val).leave
      = false → (((s.fillStore sc.val).probe sc.val).turn sc.val).pickColumn sc.val = none → (((s.fillStore sc.val).probe
      sc.val).turn sc.val).refsbChoices sc.val = l :: more → (((s.fillStore sc.val).probe sc.val).turn sc.val).slotFor
      sc.val .refsb l = some ck → ((((s.fillStore sc.val).probe sc.val).turn sc.val).refreshing sc.val l.rank ck).length < 4
      → Runs s (.scheduleCycle sc) (.free :: .links :: .twin :: .ord :: .mir :: .sch :: .flt :: .cal :: .dram :: .reg
      Reg.ORD_FWD :: .reg Reg.ORD_LINEHOLD :: .block 0x5 :: .reg Reg.CAL_STEPS :: .reg Reg.CAL_SWITCHES :: .reg
      Reg.ECC_SEALFAIL :: .reg Reg.ECC_FIRSTFAIL :: logParts) fun t => (t.sub sc.val).debtOf l.rank l.die l.bank = (s.sub
      sc.val).debtOf l.rank l.die l.bank - 1 ∧ (t.sub sc.val).hist.head? = some ⟨ck, .refsb, l, false, 0⟩ ∧ (t.sub
      sc.val).store = ((((s.fillStore sc.val).probe sc.val).turn sc.val).sub sc.val).store ∧ (s.quietSub sc.val = true →
      SameBut [.sch, .block 0x5] s t)) ∧
    (∀ (sc : Fin 16) (r ck : Nat), s.top.coreOn = true → s.top.state ≠ .gust → (s.sub sc.val).alert ≠ 1 → (s.sub sc.val).alert ≠
      2 → (s.sub sc.val).held = false → ((((s.fillStore sc.val).probe sc.val).turn sc.val).sub sc.val).fallback = [] →
      (s.sub sc.val).leave = false → (s.sub sc.val).pdExit = [r] → (((s.fillStore sc.val).probe sc.val).turn sc.val).slotFor
      sc.val .pdx { rank := r } = some ck → Runs s (.scheduleCycle sc) (.free :: .links :: .twin :: .ord :: .mir :: .sch ::
      .flt :: .cal :: .dram :: .reg Reg.ORD_FWD :: .reg Reg.ORD_LINEHOLD :: .block 0x5 :: .reg Reg.CAL_STEPS :: .reg
      Reg.CAL_SWITCHES :: .reg Reg.ECC_SEALFAIL :: .reg Reg.ECC_FIRSTFAIL :: logParts) fun t => (t.sub sc.val).pdExit = [] ∧
      (s.flt.ending = false → (t.sub sc.val).pd = (s.sub sc.val).pd.filter (· != r)) ∧ (t.sub sc.val).hist.head? = some ⟨ck,
      .pdx, { rank := r }, false, 0⟩ ∧ (s.quietSub sc.val = true → SameBut [.sch, .block 0x5] s t)) ∧
    (∀ (sc : Fin 16) (rank : Fin 2), rank.val ∈ (s.sub sc.val).pd → rank.val ∉ (s.sub sc.val).pdExit → (s.top.trigger ≠ none ∨
      (s.sub sc.val).intake.any (fun i => (s.entry i).any (fun e => (s.siteOf e.addr).2.rank == rank.val)) = true ∨
      s.dies.any (fun d => (List.range 4).any (fun b => decide (s.soft ≤ (s.sub sc.val).debtOf rank.val d b))) = true) →
      Runs s (.powerDownExit sc rank) [.sch] fun t => (t.sub sc.val).pdExit = (s.sub sc.val).pdExit ++ [rank.val] ∧ (t.sub
      sc.val).pd = (s.sub sc.val).pd ∧ (t.sub sc.val).hist = (s.sub sc.val).hist ∧ (s.dies.any (fun d => (List.range 4).any
      (fun b => decide (s.soft ≤ (s.sub sc.val).debtOf rank.val d b))) = true → rank.val ∈ (t.sub sc.val).refClear)) ∧
    (∀ (sc : Fin 16) (rank : Fin 2), (rank.val ∉ (s.sub sc.val).pd) → exec (.powerDownExit sc rank) s = .next s) ∧
    (∀ (sc : Fin 16) (index : Byte) (e : StoreEntry), (s.sub sc.val).store[index.toNat]? = some e → e.aged = false → Runs s
      (.entryAged sc index) [.sch, .reg (Reg.SCH_AGED sc.val)] fun t => (t.sub sc.val).store = (s.sub sc.val).store.set
      index.toNat { e with aged := true } ∧ Counted (Reg.SCH_AGED sc.val) s t) ∧
    (∀ (sc : Fin 16) (index : Byte), ((s.sub sc.val).store[index.toNat]?.all (·.aged) = true) → exec (.entryAged sc index) s =
      .next s)

/-- Refresh debt, MR4 polls and scrub reads. For every canonical state each command answers a next state under the conditions
given, and nothing outside the parts it names (never the queue) changes. REFRESH_TICK of a rank that serves, out of
power-down and self-refresh, and a die of its stacks adds one to the debt of its four bank indexes, at most 8; a die that
reaches the hard limit and is not in fallback enters it, is counted in SCH_REFAB and recorded as 0x5001; below the limit
nothing else changes. MR4_POLL of a served rank asks for the next reads in an empty slot: a hot report sets the rate to 1,
forgets a low poll and, with no odd package and a new rate, records 0x5002, with one odd package at the raised rate
0x5003; with no hot report a rate of 0 stays, and with a raised rate the first such poll is remembered and the next lowers
the rate to 0. That a missing report counts as failed, and when the reads are placed, are the model's choices (log entry
42). SCRUB_READ_DUE with an interval set, no trigger and a rank to scrub: with more than 224 store entries or 8
corrections it adds to what is owed; otherwise, with nothing owed, a probe left and within a pass and a block of 65,536,
it takes a probe, advances the position and either counts a skip for a held line or makes one more scrub read, with its
correction entry. Each stated negative case changes nothing. Rules: R237, R242, R243, R251, R253, R255, R257, R258. -/
def Obligations.RefreshAndScrubRun : Prop :=
  ∀ s : State, s.canon →
    (∀ (sc : Fin 16) (rank : Fin 2) (die : BitVec 4), s.awake sc.val rank.val = true → die.toNat ∈ s.dies → Runs s (.refreshTick
      sc rank die) (.sch :: .reg (Reg.SCH_REFAB sc.val) :: logParts) fun t => (∀ b ∈ List.range 4, (t.sub sc.val).debtOf
      rank.val die.toNat b = min 8 ((s.sub sc.val).debtOf rank.val die.toNat b + 1)) ∧ ((16 * rank.val + die.toNat) ∉ (s.sub
      sc.val).fallback → (List.range 4).any (fun b => decide (s.hard ≤ (t.sub sc.val).debtOf rank.val die.toNat b)) = true →
      (t.sub sc.val).fallback = (s.sub sc.val).fallback ++ [16 * rank.val + die.toNat] ∧ Counted (Reg.SCH_REFAB sc.val) s t
      ∧ (Attentive s → Logged 0x5001 (BitVec.ofNat 32 (sc.val <<< 28 + rank.val <<< 4 + die.toNat)) t)) ∧ ((List.range
      4).all (fun b => decide ((t.sub sc.val).debtOf rank.val die.toNat b < s.hard)) = true → (t.sub sc.val).fallback =
      (s.sub sc.val).fallback ∧ t.log = s.log)) ∧
    (∀ (sc : Fin 16) (rank : Fin 2) (die : BitVec 4), (s.awake sc.val rank.val = false ∨ die.toNat ∉ s.dies) → exec (.refreshTick
      sc rank die) s = .next s) ∧
    (∀ (sc : Fin 16) (rank : Fin 2) (reports : List Mr4Report), s.serves sc.val rank.val = true → (List.range 10).any (fun k =>
      hotReport (reports.getD k .failed)) = true → Runs s (.mr4Poll sc rank reports) (.sch :: .reg (Reg.SCH_REFSTAT sc.val)
      :: logParts) fun t => (.mr4, rank.val) ∈ (t.sub sc.val).asked ∧ (∀ k ∈ List.range 10, Attentive s → oddPackages
      reports = [k] → s.fld (rateFld sc.val rank.val) = 1 → Logged 0x5003 (BitVec.ofNat 32 (sc.val <<< 28 + rank.val <<< 4 +
      k)) t) ∧ t.fld (rateFld sc.val rank.val) = 1 ∧ (t.sub sc.val).lowPoll = (s.sub sc.val).lowPoll.filter (· != rank.val)
      ∧ (Attentive s → oddPackages reports = [] → s.fld (rateFld sc.val rank.val) ≠ 1 → Logged 0x5002 (BitVec.ofNat 32
      (sc.val <<< 28 + rank.val <<< 4 + 1)) t)) ∧
    (∀ (sc : Fin 16) (rank : Fin 2) (reports : List Mr4Report), (s.serves sc.val rank.val = false) → exec (.mr4Poll sc rank
      reports) s = .next s) ∧
    (∀ (sc : Fin 16) (rank : Fin 2) (reports : List Mr4Report), s.serves sc.val rank.val = true → (List.range 10).any (fun k =>
      hotReport (reports.getD k .failed)) = false → Runs s (.mr4Poll sc rank reports) (.sch :: .reg (Reg.SCH_REFSTAT sc.val)
      :: logParts) fun t => (.mr4, rank.val) ∈ (t.sub sc.val).asked ∧ (s.fld (rateFld sc.val rank.val) = 0 → t.fld (rateFld
      sc.val rank.val) = 0 ∧ (t.sub sc.val).lowPoll = (s.sub sc.val).lowPoll) ∧ (s.fld (rateFld sc.val rank.val) ≠ 0 →
      rank.val ∈ (s.sub sc.val).lowPoll → t.fld (rateFld sc.val rank.val) = 0 ∧ (t.sub sc.val).lowPoll = (s.sub
      sc.val).lowPoll.filter (· != rank.val)) ∧ (s.fld (rateFld sc.val rank.val) ≠ 0 → rank.val ∉ (s.sub sc.val).lowPoll →
      t.fld (rateFld sc.val rank.val) = s.fld (rateFld sc.val rank.val) ∧ (t.sub sc.val).lowPoll = (s.sub sc.val).lowPoll ++
      [rank.val])) ∧
    (∀ (sc : Fin 16), s.fld Fld.SCH_SCRUBINT.INTERVAL ≠ 0 → s.top.trigger = none → s.scrubs sc.val = true → ((s.sub
      sc.val).store.length > 224 ∨ (s.sub sc.val).corr.length ≥ 8) → Runs s (.scrubReadDue sc) [.sch] fun t => t.sub sc.val
      = { s.sub sc.val with owed := (s.sub sc.val).owed + 1 }) ∧
    (∀ (sc : Fin 16), (s.fld Fld.SCH_SCRUBINT.INTERVAL = 0 ∨ s.top.trigger ≠ none ∨ s.scrubs sc.val = false) → exec
      (.scrubReadDue sc) s = .next s) ∧
    (∀ (sc : Fin 16) (a : Nat), s.fld Fld.SCH_SCRUBINT.INTERVAL ≠ 0 → s.top.trigger = none → s.scrubs sc.val = true → (s.sub
      sc.val).store.length ≤ 224 → (s.sub sc.val).corr.length < 8 → (s.sub sc.val).pos + 1 < s.scrubRow * s.geom.rows →
      (s.sub sc.val).owed = 0 → (s.sub sc.val).scrubbed + 1 < 65536 → s.scrubbable sc.val (s.scrubLoc (s.sub
      sc.val).pos).rank = true → s.ord.probes < 4 → s.scrubAddr sc.val (s.scrubLoc (s.sub sc.val).pos) = some a → Runs s
      (.scrubReadDue sc) [.ord, .sch, .reg (Reg.SCH_SCRUBSKIP sc.val), .reg (Reg.SCH_STOREOCC sc.val)] fun t => (t.sub
      sc.val).pos = (s.sub sc.val).pos + 1 ∧ (t.sub sc.val).owed = 0 ∧ t.ord = { s.ord with probes := s.ord.probes + 1 } ∧
      (s.lineHeld a = true → Counted (Reg.SCH_SCRUBSKIP sc.val) s t ∧ (t.sub sc.val).scrubbed = (s.sub sc.val).scrubbed ∧
      (t.sub sc.val).store = (s.sub sc.val).store) ∧ (s.lineHeld a = false → (t.sub sc.val).scrubbed = (s.sub
      sc.val).scrubbed + 1 ∧ (t.sub sc.val).corr = (s.sub sc.val).corr ++
      [{ addr := a, loc := s.scrubLoc (s.sub sc.val).pos }] ∧ (t.sub sc.val).store.map (fun e => (e.kind, e.addr, e.loc)) =
      (s.sub sc.val).store.map (fun e => (e.kind, e.addr, e.loc)) ++ [(.scrub, a, s.scrubLoc (s.sub sc.val).pos)]))

/-- Read data on its way back, and completions. For every canonical state each command answers a next state under the
conditions given, and nothing outside the parts it names (never the queue) changes. READ_DATA_DECODE takes the oldest
flight, adds the given errors to its symbols and decodes them. For a host read whose port has traffic, with no merge
behind it, that is not lost locally, the entry is done and Return gets its data slot with line, tag, form 2, stream, and
poison exactly when carried; a clean decode changes neither fault state nor log, a corrected one counts CORR of the rank
where no package is erased, carried poison counts in ECC_DECODE. One lost locally in SOLO goes back poisoned, and an
uncorrectable one counts UNCORR. A clean scrub read empties its correction; a corrected one of a line that holds contents
enters its sealed correction write and counts CORR likewise. COMPLETION_SEND on a U-port in SERVICE or RETRAIN hands the
oldest item of Return over to the transmit crossing when it is the port's: a data slot frees its pool entry, its return
line and its tag; a single final record goes as one completion message and frees its tag; where the crossing has no room
it changes nothing. With no flight, on T, a port out of those states or with nothing in Return, they change nothing. The
errors being an operand is the model's choice (log entry 36). Rules: R30, R34, R83, R85, R86, R243, R322, R325, R326,
R327, R344, R367. -/
def Obligations.ReadsAndCompletionsRun : Prop :=
  ∀ s : State, s.canon →
    (∀ (sc : Fin 16) (errors : List Byte) (f : Flight) (rest : List Flight) (stored : List Byte) (d : Decoded) (i : Nat) (e :
      PoolEntry), (s.sub sc.val).flights = f :: rest → stored = (List.range 80).map (fun i => f.stored.getD i 0 ^^^
      errors.getD i 0) → d = decodeLine f.entry.addr (s.rank (2 * sc.val + f.entry.loc.rank)).erased stored → recheckFails
      f.entry.addr stored d = false → d.kind ≠ .locally → f.entry.kind = .read → f.entry.pool = some i → s.entry i = some e
      → e.kind = .read → e.orphan = false → (s.link e.port).up = true → s.waiters i = [] → e.merging = false → (d.out =
      .clean ∨ (e.waitOn = none ∧ (s.sub sc.val).store.all (fun x => x.pool != some i) = true)) → Runs s (.readDataDecode sc
      errors) (.free :: .links :: .twin :: .ord :: .mir :: .sch :: .flt :: .cal :: .reg Reg.ORD_FWD :: .reg Reg.ORD_LINEHOLD
      :: .reg Reg.MIR_RBLINES :: .block 0x5 :: .block 0x8 :: logParts) fun t => (t.sub sc.val).flights = rest ∧ t.entry i =
      some { e with done := true } ∧ (d.out = .clean → t.ord.ret.length = s.ord.ret.length + 1 ∧ SameBut [.ord, .sch, .cal]
      s t) ∧ t.ord.ret.getLast?.map (fun r => (r.port, r.pool, r.freeRd, r.line)) = some (e.port, some i, true, true) ∧
      (d.out = .corrected → (s.rank (2 * sc.val + f.entry.loc.rank)).erased = none → t.fld (Fld.ECC_RKCORR.CORR (2 * sc.val
      + f.entry.loc.rank)) = min (Fld.ECC_RKCORR.CORR (2 * sc.val + f.entry.loc.rank)).max (s.fld (Fld.ECC_RKCORR.CORR (2 *
      sc.val + f.entry.loc.rank)) + 1)) ∧ (d.out = .carried → t.fld Fld.ECC_DECODE.CARRIED = min Fld.ECC_DECODE.CARRIED.max
      (s.fld Fld.ECC_DECODE.CARRIED + 1)) ∧
      t.ord.ret.getLast?.any (fun r => match r.body with | .data x => x.line == d.line && x.tag == e.tag && x.form == 2 && x.stream == e.stream && x.poison == (d.kind == .carried) | .record _ _ _ _ _ => false) = true
      ∧ (d.out = .clean → t.flt = s.flt ∧ t.log = s.log)) ∧
    (∀ (sc : Fin 16) (errors : List Byte), ((s.sub sc.val).flights = []) → exec (.readDataDecode sc errors) s = .next s) ∧
    (∀ (sc : Fin 16) (errors : List Byte) (f : Flight) (rest : List Flight) (stored : List Byte) (d : Decoded) (i : Nat) (e :
      PoolEntry), (s.sub sc.val).flights = f :: rest → stored = (List.range 80).map (fun i => f.stored.getD i 0 ^^^
      errors.getD i 0) → d = decodeLine f.entry.addr (s.rank (2 * sc.val + f.entry.loc.rank)).erased stored → d.kind =
      .locally → f.entry.kind = .read → f.entry.pool = some i → s.entry i = some e → e.kind = .read → e.orphan = false →
      (s.link e.port).up = true → s.waiters i = [] → e.merging = false → e.waitOn = none → (s.sub sc.val).store.all (fun x
      => x.pool != some i) = true → s.mir.pstate = .solo → Runs s (.readDataDecode sc errors) (.free :: .links :: .twin ::
      .ord :: .mir :: .sch :: .flt :: .cal :: .reg Reg.ORD_FWD :: .reg Reg.ORD_LINEHOLD :: .reg Reg.MIR_RBLINES :: .block
      0x5 :: .block 0x8 :: logParts) fun t => (t.sub sc.val).flights = rest ∧ t.entry i = some { e with done := true } ∧
      t.ord.ret.getLast?.map (fun r => (r.port, r.pool, r.freeRd, r.line)) = some (e.port, some i, true, true) ∧
      t.ord.ret.getLast?.any (fun r => match r.body with | .data x => x.poison && x.tag == e.tag && x.form == 2 | .record _ _ _ _ _ => false) = true
      ∧ (d.out = .uncorrectable → t.fld (Fld.ECC_RKUNCORR.UNCORR (2 * sc.val + f.entry.loc.rank)) = min
      (Fld.ECC_RKUNCORR.UNCORR (2 * sc.val + f.entry.loc.rank)).max (s.fld (Fld.ECC_RKUNCORR.UNCORR (2 * sc.val +
      f.entry.loc.rank)) + 1))) ∧
    (∀ (sc : Fin 16) (errors : List Byte) (f : Flight) (rest : List Flight) (stored : List Byte) (d : Decoded) (x : CorrEntry),
      (s.sub sc.val).flights = f :: rest → stored = (List.range 80).map (fun i => f.stored.getD i 0 ^^^ errors.getD i 0) → d
      = decodeLine f.entry.addr (s.rank (2 * sc.val + f.entry.loc.rank)).erased stored → f.entry.kind = .scrub → d.out =
      .clean → (s.sub sc.val).corr = [x] → x.addr = f.entry.addr → x.spare = none → Runs s (.readDataDecode sc errors)
      [.sch, .cal] fun t => (t.sub sc.val).flights = rest ∧ (t.sub sc.val).corr = []) ∧
    (∀ (sc : Fin 16) (errors : List Byte) (f : Flight) (rest : List Flight) (stored : List Byte) (d : Decoded) (x : CorrEntry),
      (s.sub sc.val).flights = f :: rest → stored = (List.range 80).map (fun i => f.stored.getD i 0 ^^^ errors.getD i 0) → d
      = decodeLine f.entry.addr (s.rank (2 * sc.val + f.entry.loc.rank)).erased stored → f.entry.kind = .scrub → d.out =
      .corrected → recheckFails f.entry.addr stored d = false → s.holdsContents f.entry.addr = true → s.top.trigger = none →
      (s.sub sc.val).corr = [x] → x.addr = f.entry.addr → x.spare = none → x.superseded = false → s.gone (2 * sc.val +
      x.loc.rank) = false → Runs s (.readDataDecode sc errors) (.free :: .links :: .twin :: .ord :: .mir :: .sch :: .flt ::
      .cal :: .reg Reg.ORD_FWD :: .reg Reg.ORD_LINEHOLD :: .reg Reg.MIR_RBLINES :: .block 0x5 :: .block 0x8 :: logParts) fun
      t => (t.sub sc.val).flights = rest ∧ (t.sub sc.val).corr =
      [{ x with line := some d.line, lseal := lineSeal d.line x.addr true 0 }] ∧ (t.sub sc.val).maint.getLast?.map (fun e =>
      (e.kind, e.addr, e.loc)) = some (.correction, f.entry.addr, x.loc) ∧ ((s.rank (2 * sc.val + f.entry.loc.rank)).erased
      = none → t.fld (Fld.ECC_RKCORR.CORR (2 * sc.val + f.entry.loc.rank)) = min (Fld.ECC_RKCORR.CORR (2 * sc.val +
      f.entry.loc.rank)).max (s.fld (Fld.ECC_RKCORR.CORR (2 * sc.val + f.entry.loc.rank)) + 1))) ∧
    (∀ (p : Port) (it : RetItem) (rest : List RetItem) (d : DataSlot) (i : Nat) (e : PoolEntry), p ≠ .t → ((s.link p).lstate =
      .service ∨ (s.link p).lstate = .retrain) → (s.link p).cross.length < 8 → s.ord.ret = it :: rest → it.port = p →
      it.body = .data d → it.pool = some i → s.entry i = some e → e.port = p → i < 8192 → Runs s (.completionSend p) (.links
      :: .ord :: .reg Reg.GLB_QUIESCE :: .reg Reg.ECC_POISONOUT :: logParts) fun t => t.ord.ret = rest ∧ t.entry i = none ∧
      t.ord.retRes = s.ord.retRes - (if it.line then 1 else 0) ∧ ((s.link p).crossPut p (.data { slot := d })).all (fun l =>
      l.cross == (t.link p).cross) = true ∧ ((s.link p).cross = [] → (t.link p).cross = [{ slots := [.data d] }]) ∧ (t.link
      p).tags = (s.link p).tags.erase d.tag) ∧
    (∀ (p : Port), (p = .t ∨ ((s.link p).lstate ≠ .service ∧ (s.link p).lstate ≠ .retrain) ∨ s.ord.ret = []) → exec
      (.completionSend p) s = .next s) ∧
    (∀ (p : Port) (b : Nat) (tag : BitVec 12) (kind : BitVec 3) (nodur : Bool) (reason : Byte), p ≠ .t → ((s.link p).lstate =
      .service ∨ (s.link p).lstate = .retrain) → (s.link p).cross.length < 8 → s.ord.ret =
      [{ port := p, built := b, body := .record tag kind nodur reason true }] → Runs s (.completionSend p) (.links :: .ord
      :: .reg Reg.GLB_QUIESCE :: .reg Reg.ECC_POISONOUT :: logParts) fun t => t.ord.ret = [] ∧ ((s.link p).cross = [] →
      (t.link p).cross = [{ cur := [mkCpl [cplRecord tag kind nodur reason]] }]) ∧ ((s.link p).crossPut p (.msg (mkCpl
      [cplRecord tag kind nodur reason]))).all (fun l => l.cross == (t.link p).cross) = true ∧ (t.link p).tags = (s.link
      p).tags.erase tag) ∧
    (∀ (p : Port) (b : Nat) (d : DataSlot), p ≠ .t → s.ord.ret = [{ port := p, built := b, body := .data d }] → (s.link
      p).crossPut p (.data { slot := d }) = none → Runs s (.completionSend p) [] fun t => t = s)

/-- ALERT_N and the replay of suspect writes. For every canonical state each command answers a next state under the conditions
given, and nothing outside the parts it names (never the queue) changes. ALERT_N_LOW shows the pin low. With the core on,
the pads not latched, the sub-channel awake and not held: with no alert it takes as suspects the writes issued within
ALERT_WIN before it and makes the first try; during a replay it makes one more try. Otherwise it changes nothing else.
ALERT_N_HIGH shows the pin high; within the limit of tries it starts the replay of the suspects, an ignored alert ends,
and nothing else changes. ALERT_REPLAY_DONE with none left ends the alert and counts REPLAYS once for each rank that had a
suspect. ALERT_FAILURE with one suspect of a rank not gone (and no sparing of it) gives it cause 5: in a paired pair with
no cause standing and no trigger the rank starts its conversion, after which the cause shows; else it waits to retire with
that cause, the alert is ignored, the 80 symbols of the suspect's slot are free values, and 0x8011 is recorded. Each
stated negative case changes nothing. Rules: R271, R286, R339, R340, R341, R342, R346, R347. -/
def Obligations.AlertsRun : Prop :=
  ∀ s : State, s.canon →
    (∀ (sc : Fin 16), s.top.coreOn = true → s.pwr.latch = false → (s.sub sc.val).held = false → s.someAwake sc.val = true →
      (s.sub sc.val).alert = 0 → Runs s (.alertNLow sc) [.sch] fun t => t.sub sc.val =
      { s.sub sc.val with alert := 1, replayLeft := [], alertTries := 1, suspects := (s.sub sc.val).retry.filter (fun r => decide ((s.sub sc.val).ck ≤ r.ck + 4 * s.fld Fld.ECC_ALERTCFG.ALERT_WIN) && decide (r.ck < (s.sub sc.val).ck)), pins := { (s.sub sc.val).pins with alertN := false } }) ∧
    (∀ (sc : Fin 16), (s.top.coreOn = false ∨ s.pwr.latch = true ∨ (s.sub sc.val).held = true ∨ s.someAwake sc.val = false ∨
      (s.sub sc.val).alert = 1 ∨ (s.sub sc.val).alert = 3) → Runs s (.alertNLow sc) [.sch] fun t => t.sub sc.val =
      { s.sub sc.val with pins := { (s.sub sc.val).pins with alertN := false } }) ∧
    (∀ (sc : Fin 16), s.top.coreOn = true → s.pwr.latch = false → (s.sub sc.val).held = false → s.someAwake sc.val = true →
      (s.sub sc.val).alert = 2 → Runs s (.alertNLow sc) [.sch] fun t => t.sub sc.val =
      { s.sub sc.val with alert := 1, replayLeft := [], alertTries := (s.sub sc.val).alertTries + 1, pins := { (s.sub sc.val).pins with alertN := false } }) ∧
    (∀ (sc : Fin 16), (s.sub sc.val).alert = 1 → (s.sub sc.val).alertTries ≤ s.fld Fld.ECC_ALERTCFG.REPLAY_LIM → Runs s
      (.alertNHigh sc) [.sch] fun t => t.sub sc.val =
      { s.sub sc.val with alert := 2, replayLeft := (s.sub sc.val).suspects, pins := { (s.sub sc.val).pins with alertN := true } }) ∧
    (∀ (sc : Fin 16), ((s.sub sc.val).alert ≠ 1 ∨ s.fld Fld.ECC_ALERTCFG.REPLAY_LIM < (s.sub sc.val).alertTries) → Runs s
      (.alertNHigh sc) [.sch] fun t => t.sub sc.val =
      { s.sub sc.val with alert := if (s.sub sc.val).alert = 3 then 0 else (s.sub sc.val).alert, pins := { (s.sub sc.val).pins with alertN := true } }) ∧
    (∀ (sc : Fin 16), (s.sub sc.val).alert = 2 → (s.sub sc.val).replayLeft = [] → Runs s (.alertReplayDone sc) [.sch, .block 0x8]
      fun t => t.sub sc.val = { s.sub sc.val with alert := 0, suspects := [], alertTries := 0 } ∧ (∀ k ∈ List.range 2, t.fld
      (Fld.ECC_RKUNCORR.REPLAYS (2 * sc.val + k)) = (if (s.sub sc.val).suspects.any (fun r => r.loc.rank == k) then min
      (Fld.ECC_RKUNCORR.REPLAYS (2 * sc.val + k)).max (s.fld (Fld.ECC_RKUNCORR.REPLAYS (2 * sc.val + k)) + 1) else s.fld
      (Fld.ECC_RKUNCORR.REPLAYS (2 * sc.val + k))))) ∧
    (∀ (sc : Fin 16), ((s.sub sc.val).alert ≠ 2 ∨ (s.sub sc.val).replayLeft ≠ []) → exec (.alertReplayDone sc) s = .next s) ∧
    (∀ (sc : Fin 16) (r : RetryRec), (s.sub sc.val).alert = 1 → (s.sub sc.val).suspects = [r] → r.loc.rank < 2 → s.gone (2 *
      sc.val + r.loc.rank) = false → (s.rank (2 * sc.val + r.loc.rank)).want = false → s.flt.sp = 0 → s.flt.ending = false →
      (s.spareable (2 * sc.val + r.loc.rank) = false ∨ s.top.trigger ≠ none) → Runs s (.alertFailure sc) (.free :: .links ::
      .twin :: .ord :: .mir :: .sch :: .flt :: .cal :: .dram :: .reg Reg.ORD_FWD :: .reg Reg.ORD_LINEHOLD :: .reg
      Reg.ECC_SEALFAIL :: .reg Reg.ECC_FIRSTFAIL :: logParts) fun t => (s.top.trigger = none → s.pairState = .paired →
      s.causeStands = false → t.flt.converting = s.flt.converting ++ [2 * sc.val + r.loc.rank] ∧ (t.rank (2 * sc.val +
      r.loc.rank)).next = 5) ∧ (s.pairState ≠ .paired ∨ s.causeStands = true ∨ s.top.trigger ≠ none → (t.rank (2 * sc.val +
      r.loc.rank)).want = true ∧ (t.rank (2 * sc.val + r.loc.rank)).cause = 5 ∧ (t.sub sc.val).alert = 3 ∧ (t.sub
      sc.val).suspects = [] ∧ (∀ k ∈ List.range 80, t.symbol (slotOf sc.val r.loc * 80 + k) = Config.freeByte (s.free + k))
      ∧ (Attentive s → Logged 0x8011 (BitVec.ofNat 32 (sc.val <<< 28 + r.loc.rank <<< 4 + 5 <<< 5)) t)) ∧ (s.pairState ≠
      .paired ∨ s.causeStands = true ∨ s.top.trigger ≠ none → SameBut (.free :: .ord :: .sch :: .flt :: .dram :: .reg
      Reg.ORD_FWD :: .links :: .twin :: .mir :: .reg Reg.ORD_LINEHOLD :: .reg Reg.ECC_SEALFAIL :: .reg Reg.ECC_FIRSTFAIL ::
      logParts) s t)) ∧
    (∀ (sc : Fin 16), ((s.sub sc.val).alert ≠ 1) → exec (.alertFailure sc) s = .next s)

/-- Buckets, retirement, sparing and re-admission. For every canonical state each command answers a next state under the
conditions given, and nothing outside the parts it names (never the queue) changes. BUCKET_LEAK takes one from every
non-empty bucket of every rank and nothing else of a rank changes. RETIRE_CONVERSION_DONE of a converting rank retires it
with the cause that led to it, leaves every mapped region that is not held as failed OFFLINE, and records 0x8012 with rank
and cause. SPARE_COPY_INTERVAL of a running copy, the line not held and room in the spare's corrections and the agent
entries, asks for the next line: position, correction entry, and an agent pool entry with the next admission number.
SPARE_COPY_DONE once every row is copied switches the reads: with work of the failing rank left it waits for it, with none
the rank is retired as spared and 0x8021 recorded. READMIT_TRAINING_DONE with the training passed and no other rank
retired but spared ones gives the rank back trained with empty buckets, turns OFFLINE regions to replica FILLING, leaves
the others, and records 0x8013 (no entry held as failed or lost). After a trigger, where stated, and in each stated
negative case they change nothing. The order of the copy is the model's choice (log entry 36). Rules: R344, R346, R347,
R351, R352, R357, R358. -/
def Obligations.RetirementRuns : Prop :=
  ∀ s : State, s.canon →
    (Runs s .bucketLeak [.flt] fun t => (∀ p ∈ List.range 32, (t.rank p).ue = (s.rank p).ue - 1 ∧ (t.rank p).rce = (s.rank p).rce
      - 1 ∧ (∀ j ∈ List.range 10, Tab.get (fun _ => 0) (t.rank p).pkg j = Tab.get (fun _ => 0) (s.rank p).pkg j - 1)) ∧ (∀ p
      ∈ List.range 32, { t.rank p with ue := 0, rce := 0, pkg := [] } = { s.rank p with ue := 0, rce := 0, pkg := [] })) ∧
    (∀ (rank : Fin 32), rank.val ∈ s.flt.converting → s.top.trigger = none → Runs s (.retireConversionDone rank) (.links :: .twin
      :: .ord :: .map :: .mir :: .sch :: .flt :: .reg Reg.ORD_FWD :: .reg Reg.ORD_LINEHOLD :: .reg Reg.ECC_SEALFAIL :: .reg
      Reg.ECC_FIRSTFAIL :: logParts) fun t => t.rank rank.val =
      { s.rank rank.val with retired := true, want := false, spared := false, cause := (s.rank rank.val).next } ∧
      t.flt.converting = s.flt.converting.filter (· != rank.val) ∧ (∀ r ∈ s.mappedRegions, s.rtFailed r = false → rtSync
      (t.rtEntry r) = 5) ∧ (Attentive s → Logged 0x8012 (BitVec.ofNat 32 ((rank.val / 2) <<< 28 + (rank.val % 2) <<< 4 +
      (s.rank rank.val).next.toNat <<< 5)) t)) ∧
    (∀ (rank : Fin 32), (rank.val ∉ s.flt.converting ∨ s.top.trigger ≠ none) → exec (.retireConversionDone rank) s = .next s) ∧
    (∀ (a m : Nat) (l : Loc) (i : Nat), s.flt.sp = 1 → s.flt.copyOn = true → s.top.trigger = none → s.flt.copyPos < s.copyRows *
      s.copyRow → a = s.addrOf (s.flt.spRank / 2) (s.copyLoc s.flt.copyPos) → s.lineHeld a = false → s.redirect a = some (m,
      l) → (s.sub m).corr.length < 8 → i = firstFree 8192 s.ord.pool → i < 8448 → Runs s .spareCopyInterval (.links :: .twin
      :: .ord :: .mir :: .sch :: .flt :: .reg Reg.ORD_FWD :: .reg Reg.ORD_LINEHOLD :: .reg Reg.ECC_SEALFAIL :: .reg
      Reg.ECC_FIRSTFAIL :: logParts) fun t => t.flt =
      { s.flt with copyPos := s.flt.copyPos + 1, unsettled := s.flt.unsettled ++ [s.flt.copyPos] } ∧ (t.sub m).corr = (s.sub
      m).corr ++ [{ addr := a, loc := l, spare := some s.flt.copyPos }] ∧ (t.entry i).map (fun e => (e.kind, e.addr, e.adm))
      = some (.spareCopy, a, s.ord.admNext) ∧ t.ord.admNext = s.ord.admNext + 1) ∧
    ((s.flt.sp ≠ 1 ∨ s.flt.copyOn = false ∨ s.top.trigger ≠ none) → exec .spareCopyInterval s = .next s) ∧
    (∀ (p : Nat), s.flt.sp = 1 → s.copyRows ≤ s.flt.cursor → s.top.trigger = none → p = s.flt.spRank → s.rankWork p = true → Runs
      s .spareCopyDone [.flt] fun t => t.flt = { s.flt with sp := 2, copyOn := false, unsettled := [], ending := true }) ∧
    ((s.flt.sp ≠ 1 ∨ s.flt.cursor < s.copyRows ∨ s.top.trigger ≠ none) → exec .spareCopyDone s = .next s) ∧
    (∀ (p : Nat), s.flt.sp = 1 → s.copyRows ≤ s.flt.cursor → s.top.trigger = none → p = s.flt.spRank → s.rankWork p = false →
      Runs s .spareCopyDone (.ord :: .sch :: .flt :: .cal :: .reg Reg.ORD_FWD :: .reg Reg.ORD_LINEHOLD :: .links :: .twin ::
      .mir :: .reg Reg.ECC_SEALFAIL :: .reg Reg.ECC_FIRSTFAIL :: logParts) fun t => t.flt.sp = 2 ∧ t.flt.ending = false ∧
      (t.rank p).retired = true ∧ (t.rank p).spared = true ∧ (Attentive s → Logged 0x8021 (BitVec.ofNat 32 p) t)) ∧
    (∀ (p : Nat), s.flt.readmit = some p → p < 32 → (s.training (p / 2)).step = 11 → (List.range 32).all (fun q => q == p ||
      !(s.rank q).retired || (s.rank q).spared) = true → s.top.trigger = none → s.map.failed = [] → s.map.lost = [] → Runs s
      .readmitTrainingDone (.free :: .links :: .twin :: .ord :: .map :: .mir :: .sch :: .flt :: .cal :: .reg Reg.ORD_FWD ::
      .reg Reg.ORD_LINEHOLD :: .block 0x6 :: .reg Reg.ECC_SEALFAIL :: .reg Reg.ECC_FIRSTFAIL :: logParts) fun t => t.rank p
      = { trained := true, spared := (s.rank p).spared } ∧ t.flt.readmit = none ∧ (t.training (p / 2)).step = 0 ∧ (∀ r ∈
      s.mappedRegions, rtSync (s.rtEntry r) = 5 → t.rtEntry r = rtPut (s.rtEntry r) 2 4 false) ∧ (∀ r ∈ s.mappedRegions,
      rtSync (s.rtEntry r) ≠ 5 → t.rtEntry r = s.rtEntry r) ∧ (Attentive s → Logged 0x8013 (BitVec.ofNat 32 ((p / 2) <<< 28
      + (p % 2) <<< 4)) t)) ∧
    ((s.flt.readmit = none) → exec .readmitTrainingDone s = .next s)

/-- Lines that come from the twin. For every canonical state each command answers a next state under the conditions given, and
nothing outside the parts it names (never the queue) changes. REPLICA_SLOT without a mask on T with traffic and credit
stands last in the T lane with tag, stream, address, data, the epoch last heard, its request number and the next replica
number; credit is spent and the replicas received count. REBUILD_LINE_SLOT and REPAIR_LINE_SLOT do the same without a
replica number. MASK, with the masked-replica feature, joins the one waiting masked replica of its tag, or with nothing in
the lane waits as a half; without the feature it is an unknown message, counted and recorded as 0x1051. With T without
traffic they change nothing. Rules: R79, R96, R97, R100, R104, R152, R174, R226. -/
def Obligations.TwinLinesRun : Prop :=
  ∀ s : State, s.canon →
    (∀ (d : DataSlot), (s.link .t).up = true → (s.link .t).granted.covers lineCost = true → d.form = 3 → slotMasked d = false →
      Runs s (.replicaSlot d) [.links, .twin, .reg Reg.ECC_POISONIN] fun t => (t.link .t).lane = (s.link .t).lane ++
      [{ kind := .replica, tag := d.tag, stream := d.stream, addr := slotAddr d, slot := some d, epoch := s.twin.peerEpoch, reqNo := (s.link .t).nextReq, repNo := s.twin.rxCount + 1 }]
      ∧ (t.link .t).granted = (s.link .t).granted.spend lineCost ∧ (t.link .t).nextReq = (s.link .t).nextReq + 1 ∧
      t.twin.rxCount = s.twin.rxCount + 1) ∧
    (∀ (d : DataSlot), ((s.link .t).takes = false) → exec (.replicaSlot d) s = .next s) ∧
    (∀ (d : DataSlot), (s.link .t).up = true → (s.link .t).granted.covers lineCost = true → d.form = 5 → Runs s (.rebuildLineSlot
      d) [.links, .twin, .reg Reg.ECC_POISONIN] fun t => (t.link .t).lane = (s.link .t).lane ++
      [{ kind := .rebuild, tag := d.tag, stream := d.stream, addr := slotAddr d, slot := some d, epoch := s.twin.peerEpoch, reqNo := (s.link .t).nextReq }]
      ∧ (t.link .t).granted = (s.link .t).granted.spend lineCost ∧ (t.link .t).nextReq = (s.link .t).nextReq + 1 ∧
      t.twin.rxCount = s.twin.rxCount) ∧
    (∀ (d : DataSlot), ((s.link .t).takes = false) → exec (.rebuildLineSlot d) s = .next s) ∧
    (∀ (d : DataSlot), (s.link .t).up = true → (s.link .t).granted.covers lineCost = true → d.form = 4 → Runs s (.repairLineSlot
      d) [.links, .twin, .reg Reg.ECC_POISONIN] fun t => (t.link .t).lane = (s.link .t).lane ++
      [{ kind := .repair, tag := d.tag, stream := d.stream, addr := slotAddr d, slot := some d, epoch := s.twin.peerEpoch, reqNo := (s.link .t).nextReq }]
      ∧ (t.link .t).granted = (s.link .t).granted.spend lineCost ∧ (t.link .t).nextReq = (s.link .t).nextReq + 1 ∧
      t.twin.rxCount = s.twin.rxCount) ∧
    (∀ (d : DataSlot), ((s.link .t).takes = false) → exec (.repairLineSlot d) s = .next s) ∧
    (∀ (tag : BitVec 12) (byteMask : BitVec 64) (q : LaneReq) (d : DataSlot), (s.link .t).up = true → s.feat .t 16 = true →
      (s.link .t).lane = [q] → q.kind = .replica → q.tag = tag → q.mask = none → q.slot = some d → slotMasked d = true →
      Runs s (.mask tag byteMask) [.links] fun t => (t.link .t).lane = [{ q with mask := some byteMask }]) ∧
    (∀ (tag : BitVec 12) (byteMask : BitVec 64), ((s.link .t).up = false) → exec (.mask tag byteMask) s = .next s) ∧
    (∀ (tag : BitVec 12) (byteMask : BitVec 64), (s.link .t).up = true → s.feat .t 16 = true → (s.link .t).lane = [] → Runs s
      (.mask tag byteMask) [.links] fun t => (t.link .t).halves = (s.link .t).halves ++
      [{ tag := tag, mask := some byteMask }]) ∧
    (∀ (tag : BitVec 12) (byteMask : BitVec 64), (s.link .t).up = true → s.feat .t 16 = false → Runs s (.mask tag byteMask)
      (.free :: .reg (Reg.LNK_BADMSG Port.t.idx) :: logParts) fun t => Counted (Reg.LNK_BADMSG Port.t.idx) s t ∧ (Attentive
      s → LoggedFree 0x1051 t))

/-- Acknowledgements, rejections and the acknowledgement timers on T. For every canonical state each command answers a next
state under the conditions given, and nothing outside the parts it names (never the queue) changes. (A steady pair is
paired with no cause, no handover and no event of a higher place.) ACK_RANGE of this epoch within what was sent sets the
range and closes every sent entry up to it; of another epoch it only counts in MIR_ACKBAD; outside the range in a steady
pair it counts, closes nothing, takes cause 4 and records 0x4021; without its feature it is an unknown message. ACK_LINES
whose tags are all sent closes exactly those entries; with a tag not sent in a steady pair it counts, closes nothing, and
takes cause 4; with no tag or more than nine it is an unknown message. With no handover an acknowledgement moves only what
follows from the closed entries. REPLICA_REJ of this epoch for a sent replica of that address in a steady pair counts,
marks the granule, closes the entry, takes cause 3 and records 0x4020; of another address, or none sent, it counts in
MIR_ACKBAD and takes cause 4; of another epoch it only counts there; for a repair line it counts in ECC_REPAIRW, for a
rebuild line it marks the copy of its granule rejected; of a form or reason the table does not list it is an unknown
message. Unknown messages are counted and recorded as 0x1051. ACK_INTERVAL_EXPIRY sends ACK_RANGE with what is through and
was not yet sent; ACK_LINES_SEND without the range feature sends up to nine waiting tags. ACK_TIMEOUT with an entry still
sent takes cause 5 in a steady pair and records 0x4022. Each stated negative case changes nothing. That the cause shows at
once is the model's choice (log entry 35). Rules: R79, R97, R98, R99, R115, R174, R175, R176, R177, R178, R198, R225. -/
def Obligations.AcknowledgementsRun : Prop :=
  ∀ s : State, s.canon →
    (∀ (epoch through : Word), (s.link .t).up = true → s.feat .t 20 = true → epoch = s.mir.epoch → behind through.toNat
      s.twin.lastThr = false → behind s.twin.txCount through.toNat = false → Runs s (.ackRange epoch through) [.links,
      .twin, .ord, .map, .mir, .reg Reg.ORD_FLUSHES] fun t => t.twin.lastThr = through.toNat ∧ t.mir.pend =
      s.mir.pend.filter (fun q => q.2.all (fun e => !(e.state == .sent && !behind through.toNat e.rnum))) ∧ (s.mir.handovers
      = [] → SameBut [.links, .twin, .ord, .mir, .reg Reg.ORD_FLUSHES] s t)) ∧
    (∀ (epoch through : Word), ((s.link .t).up = false) → exec (.ackRange epoch through) s = .next s) ∧
    (∀ (epoch through : Word), (s.link .t).up = true → s.feat .t 20 = true → epoch ≠ s.mir.epoch → Runs s (.ackRange epoch
      through) [.reg Reg.MIR_ACKBAD] fun t => Counted Reg.MIR_ACKBAD s t) ∧
    (∀ (epoch through : Word), (s.link .t).up = true → s.feat .t 20 = true → epoch = s.mir.epoch → (behind through.toNat
      s.twin.lastThr = true ∨ behind s.twin.txCount through.toNat = true) → s.steady = true → Runs s (.ackRange epoch
      through) (.reg Reg.MIR_ACKBAD :: .reg Reg.MIR_CAUSE :: logParts) fun t => Counted Reg.MIR_ACKBAD s t ∧ CauseTaken 4 s
      t ∧ (Attentive s → Logged 0x4021 through t)) ∧
    (∀ (epoch through : Word), (s.link .t).up = true → s.feat .t 20 = false → Runs s (.ackRange epoch through) (.free :: .reg
      (Reg.LNK_BADMSG Port.t.idx) :: logParts) fun t => Counted (Reg.LNK_BADMSG Port.t.idx) s t ∧ (Attentive s → LoggedFree
      0x1051 t)) ∧
    (∀ (tags : List (BitVec 12)), (s.link .t).up = true → tags ≠ [] → tags.length ≤ 9 → tags.all (fun x => (s.sentAt x).isSome) =
      true → Runs s (.ackLines tags) [.links, .ord, .map, .mir, .reg Reg.ORD_FLUSHES] fun t => t.mir.pend =
      s.mir.pend.filter (fun q => q.2.all (fun e => !(e.state == .sent && tags.any (fun x => e.rnum % 4096 == x.toNat)))) ∧
      (s.mir.handovers = [] → SameBut [.links, .ord, .mir, .reg Reg.ORD_FLUSHES] s t)) ∧
    (∀ (tags : List (BitVec 12)), ((s.link .t).up = false) → exec (.ackLines tags) s = .next s) ∧
    (∀ (tags : List (BitVec 12)), (s.link .t).up = true → tags.length ≤ 9 → tags.any (fun x => (s.sentAt x).isNone) = true →
      s.steady = true → Runs s (.ackLines tags) (.reg Reg.MIR_ACKBAD :: .reg Reg.MIR_CAUSE :: logParts) fun t => Counted
      Reg.MIR_ACKBAD s t ∧ CauseTaken 4 s t) ∧
    (∀ (tags : List (BitVec 12)), (s.link .t).up = true → (tags = [] ∨ 9 < tags.length) → Runs s (.ackLines tags) (.free :: .reg
      (Reg.LNK_BADMSG Port.t.idx) :: logParts) fun t => Counted (Reg.LNK_BADMSG Port.t.idx) s t ∧ (Attentive s → LoggedFree
      0x1051 t)) ∧
    (∀ (tag : BitVec 12) (form : BitVec 3) (reason : Byte) (epoch : Word) (addr : BitVec 42) (e : PendEntry), (s.link .t).up =
      true → reason ≠ 0 → reason.toNat ≤ 9 → epoch = s.mir.epoch → form = 3 → s.sentAt tag = some e → e.pair = addr →
      s.steady = true → Runs s (.replicaRej tag form reason epoch addr) (.ord :: .mir :: .sch :: .reg Reg.ORD_FWD :: .reg
      Reg.ORD_LINEHOLD :: .reg Reg.MIR_CAUSE :: .reg Reg.MIR_REPLREJ :: .links :: .twin :: .reg Reg.ECC_SEALFAIL :: .reg
      Reg.ECC_FIRSTFAIL :: logParts) fun t => Counted Reg.MIR_REPLREJ s t ∧ t.marked e.gran = true ∧ t.sentAt tag = none ∧
      CauseTaken 3 s t ∧ (Attentive s → Logged 0x4020 (BitVec.ofNat 32 (reason.toNat + (addr.toNat >>> 24) <<< 8)) t)) ∧
    (∀ (tag : BitVec 12) (form : BitVec 3) (reason : Byte) (epoch : Word) (addr : BitVec 42), ((s.link .t).up = false) → exec
      (.replicaRej tag form reason epoch addr) s = .next s) ∧
    (∀ (tag : BitVec 12) (form : BitVec 3) (reason : Byte) (epoch : Word) (addr : BitVec 42), (s.link .t).up = true → reason ≠ 0
      → reason.toNat ≤ 9 → 3 ≤ form.toNat → form.toNat ≤ 5 → epoch ≠ s.mir.epoch → Runs s (.replicaRej tag form reason epoch
      addr) [.reg Reg.MIR_ACKBAD] fun t => Counted Reg.MIR_ACKBAD s t) ∧
    (∀ (tag : BitVec 12) (form : BitVec 3) (reason : Byte) (epoch : Word) (addr : BitVec 42), (s.link .t).up = true → reason ≠ 0
      → reason.toNat ≤ 9 → epoch = s.mir.epoch → form = 4 → Runs s (.replicaRej tag form reason epoch addr) [.reg
      Reg.ECC_REPAIRW] fun t => t.fld Fld.ECC_REPAIRW.REJECTED = min Fld.ECC_REPAIRW.REJECTED.max (s.fld
      Fld.ECC_REPAIRW.REJECTED + 1)) ∧
    (∀ (tag : BitVec 12) (form : BitVec 3) (reason : Byte) (epoch : Word) (addr : BitVec 42), (s.link .t).up = true → reason ≠ 0
      → reason.toNat ≤ 9 → epoch = s.mir.epoch → form = 5 → Runs s (.replicaRej tag form reason epoch addr) [.mir] fun t =>
      t.mir.copies = s.mir.copies.map (fun c => if c.gran = addr.toNat >>> 15 then { c with rejected := true } else c) ∧
      { t.mir with copies := [] } = { s.mir with copies := [] }) ∧
    (∀ (tag : BitVec 12) (form : BitVec 3) (reason : Byte) (epoch : Word) (addr : BitVec 42), (s.link .t).up = true → reason ≠ 0
      → reason.toNat ≤ 9 → epoch = s.mir.epoch → form = 3 → (s.sentAt tag).all (fun e => e.pair != addr) = true → s.steady =
      true → Runs s (.replicaRej tag form reason epoch addr) (.reg Reg.MIR_ACKBAD :: .reg Reg.MIR_CAUSE :: logParts) fun t
      => Counted Reg.MIR_ACKBAD s t ∧ CauseTaken 4 s t) ∧
    (∀ (tag : BitVec 12) (form : BitVec 3) (reason : Byte) (epoch : Word) (addr : BitVec 42), (s.link .t).up = true → (form.toNat
      < 3 ∨ 5 < form.toNat ∨ reason = 0 ∨ 9 < reason.toNat) → Runs s (.replicaRej tag form reason epoch addr) (.free :: .reg
      (Reg.LNK_BADMSG Port.t.idx) :: logParts) fun t => Counted (Reg.LNK_BADMSG Port.t.idx) s t ∧ (Attentive s → LoggedFree
      0x1051 t)) ∧
    ((s.link .t).up = true → s.feat .t 20 = true → s.twin.thr.base ≠ s.twin.thrSent → Runs s .ackIntervalExpiry [.links, .twin]
      fun t => t.twin = { s.twin with thrSent := s.twin.thr.base } ∧ SentOnT (mkAckRange s.mir.epoch s.twin.thr.base) s t) ∧
    (((s.link .t).up = false ∨ s.feat .t 20 = false ∨ s.twin.thr.base = s.twin.thrSent) → exec .ackIntervalExpiry s = .next s) ∧
    ((s.link .t).up = true → s.feat .t 20 = false → s.twin.ackTags ≠ [] → Runs s .ackLinesSend [.links, .twin] fun t => t.twin =
      { s.twin with ackTags := s.twin.ackTags.drop 9 } ∧ SentOnT (mkAckLines (s.twin.ackTags.take 9)) s t) ∧
    (((s.link .t).up = false ∨ s.feat .t 20 = true ∨ s.twin.ackTags = []) → exec .ackLinesSend s = .next s) ∧
    (∀ (e : PendEntry), s.oldestSent = some e → s.steady = true → Runs s .ackTimeout (.reg Reg.MIR_CAUSE :: logParts) fun t =>
      CauseTaken 5 s t ∧ (Attentive s → Logged 0x4022 (BitVec.ofNat 32 e.rnum) t)) ∧
    ((s.oldestSent = none) → exec .ackTimeout s = .next s)

/-- Repair requests and misses, power loss of the twin, and heartbeats. For every canonical state each command answers a next
state under the conditions given, and nothing outside the parts it names (never the queue) changes. REPAIR_REQ with the
feature and credit stands last in the T lane with its epoch. REPAIR_MISS with a listed reason: for a stale tag no read
waits for it forgets that; for a free tag it changes nothing; for a tag one forwarded read is on, with a reason other than
1 and none waiting, it counts in MIR_FWDMISS, frees the tag, completes the read with reason 5, and records 0x4040 with the
reason. REPAIR_TIMEOUT does the same with data 0 and keeps the tag as stale. The first PLN on T with a trigger code takes
cause 6, and HEARTBEAT_MISS cause 2, in a steady pair. HEARTBEAT notes the peer's epoch and state: only that where nothing
else follows; a higher epoch, with nothing outranking the fence (R25), fences this hub, empties the pending table and goes
from SERVICE to JOIN with cause 0x0A; a lower one counts in MIR_HBBAD; the peer solo or fenced with this epoch in a steady
pair takes cause 7. Without feature 17, of an unlisted reason, with trigger code 0 or of an unlisted state the message is
unknown, counted and recorded as 0x1051. HEARTBEAT_SEND in SERVICE sends state, epoch, replicas sent and the time, and
notes the epoch sent. Each stated negative case changes nothing. That the cause shows at once is the model's choice (log
entry 35). Rules: R79, R93, R100, R114, R189, R190, R198, R205, R206, R207, R212, R214. -/
def Obligations.RepairsAndHeartbeatsRun : Prop :=
  ∀ s : State, s.canon →
    (∀ (tag : BitVec 12) (epoch : Word) (addr : BitVec 42), (s.link .t).up = true → s.feat .t 17 = true → (s.link
      .t).granted.covers { req := 1, lq := 1 } = true → Runs s (.repairReq tag epoch addr) [.links] fun t => (t.link
      .t).lane = (s.link .t).lane ++
      [{ kind := .repairReq, tag := tag, addr := addr, epoch := some epoch, reqNo := (s.link .t).nextReq }] ∧ (t.link
      .t).granted = (s.link .t).granted.spend { req := 1, lq := 1 } ∧ (t.link .t).nextReq = (s.link .t).nextReq + 1) ∧
    (∀ (tag : BitVec 12) (epoch : Word) (addr : BitVec 42), ((s.link .t).takes = false) → exec (.repairReq tag epoch addr) s =
      .next s) ∧
    (∀ (tag : BitVec 12) (epoch : Word) (addr : BitVec 42), (s.link .t).up = true → s.feat .t 17 = false → Runs s (.repairReq tag
      epoch addr) (.free :: .reg (Reg.LNK_BADMSG Port.t.idx) :: logParts) fun t => Counted (Reg.LNK_BADMSG Port.t.idx) s t ∧
      (Attentive s → LoggedFree 0x1051 t)) ∧
    (∀ (tag : BitVec 12) (miss : Byte) (epoch : Word) (addr : BitVec 42), (s.link .t).up = true → s.feat .t 17 = true → miss ≠ 0
      → miss.toNat ≤ 4 → tag.toNat ∈ s.mir.repStale → s.wantTag = [] → Runs s (.repairMiss tag miss epoch addr) [.mir] fun t
      => t.mir = { s.mir with repStale := s.mir.repStale.filter (· != tag.toNat) }) ∧
    (∀ (tag : BitVec 12) (miss : Byte) (epoch : Word) (addr : BitVec 42), ((s.link .t).up = false) → exec (.repairMiss tag miss
      epoch addr) s = .next s) ∧
    (∀ (tag : BitVec 12) (miss : Byte) (epoch : Word) (addr : BitVec 42), (s.link .t).up = true → s.feat .t 17 = true → miss ≠ 0
      → miss.toNat ≤ 4 → s.tagFree tag.toNat = true → Runs s (.repairMiss tag miss epoch addr) [] fun t => t = s) ∧
    (∀ (tag : BitVec 12) (miss : Byte) (epoch : Word) (addr : BitVec 42), (s.link .t).up = true → (s.feat .t 17 = false ∨ miss =
      0 ∨ 4 < miss.toNat) → Runs s (.repairMiss tag miss epoch addr) (.free :: .reg (Reg.LNK_BADMSG Port.t.idx) :: logParts)
      fun t => Counted (Reg.LNK_BADMSG Port.t.idx) s t ∧ (Attentive s → LoggedFree 0x1051 t)) ∧
    (∀ (tag : BitVec 12) (miss : Byte) (epoch : Word) (addr : BitVec 42) (i : Nat) (e : PoolEntry), (s.link .t).up = true →
      s.feat .t 17 = true → miss ≠ 0 → miss.toNat ≤ 4 → tag.toNat ∉ s.mir.repStale → s.mir.scrubRep = [] → s.wantTag = [] →
      s.onTag tag.toNat = [i] → Tab.get (fun _ => none) s.mir.repairs tag.toNat = some i → s.entry i = some e → e.forwarded
      = true → e.orphan = false → (s.link e.port).up = true → miss ≠ 1 → Runs s (.repairMiss tag miss epoch addr) (.ord ::
      .mir :: .reg Reg.MIR_FWDMISS :: logParts) fun t => Counted Reg.MIR_FWDMISS s t ∧ Tab.get (fun _ => none) t.mir.repairs
      tag.toNat = none ∧ t.ord.ret.getLast?.map (fun r => (r.port, r.body)) = some (e.port, .record e.tag 4 false 5 true) ∧
      (Attentive s → Logged 0x4040 (BitVec.setWidth 32 miss) t)) ∧
    (∀ (tag : BitVec 8) (i : Nat) (e : PoolEntry), tag.toNat ∉ s.mir.repStale → s.mir.scrubRep = [] → s.onTag tag.toNat = [i] →
      Tab.get (fun _ => none) s.mir.repairs tag.toNat = some i → s.entry i = some e → e.forwarded = true → e.orphan = false
      → (s.link e.port).up = true → Runs s (.repairTimeout tag) (.ord :: .mir :: .reg Reg.MIR_FWDMISS :: logParts) fun t =>
      Counted Reg.MIR_FWDMISS s t ∧ tag.toNat ∈ t.mir.repStale ∧ Tab.get (fun _ => none) t.mir.repairs tag.toNat = none ∧
      t.ord.ret.getLast?.map (fun r => (r.port, r.body)) = some (e.port, .record e.tag 4 false 5 true) ∧ (Attentive s →
      Logged 0x4040 0 t)) ∧
    (∀ (tag : BitVec 8), (s.tagFree tag.toNat = true ∨ tag.toNat ∈ s.mir.repStale) → exec (.repairTimeout tag) s = .next s) ∧
    (∀ (flags : Byte) (admitCnt : Word) (lastTag : BitVec 12) (stamp : Word), (s.link .t).up = true → flags.extractLsb' 2 2 ≠ 0 →
      s.twin.plnSeen = false → s.steady = true → Runs s (.plnOnT flags admitCnt lastTag stamp) (.twin :: .reg Reg.MIR_CAUSE
      :: logParts) fun t => CauseTaken 6 s t ∧ t.twin = { s.twin with plnSeen := true }) ∧
    (∀ (flags : Byte) (admitCnt : Word) (lastTag : BitVec 12) (stamp : Word), ((s.link .t).up = false ∨ (flags.extractLsb' 2 2 ≠
      0 ∧ s.twin.plnSeen = true)) → exec (.plnOnT flags admitCnt lastTag stamp) s = .next s) ∧
    (∀ (flags : Byte) (admitCnt : Word) (lastTag : BitVec 12) (stamp : Word), (s.link .t).up = true → flags.extractLsb' 2 2 = 0 →
      Runs s (.plnOnT flags admitCnt lastTag stamp) (.free :: .reg (Reg.LNK_BADMSG Port.t.idx) :: logParts) fun t => Counted
      (Reg.LNK_BADMSG Port.t.idx) s t ∧ (Attentive s → LoggedFree 0x1051 t)) ∧
    (s.steady = true → Runs s .heartbeatMiss (.reg Reg.MIR_CAUSE :: logParts) fun t => CauseTaken 2 s t) ∧
    ((s.pairState = .solo ∨ s.pairState = .fenced ∨ s.pairState = .none) → exec .heartbeatMiss s = .next s) ∧
    (∀ (pstate : BitVec 3) (epoch sent stamp : Word), (s.link .t).up = true → pstate.toNat ≤ 5 → s.mir.soloGrant = false → (epoch
      = s.mir.epoch ∨ s.mir.epoch = 0) → (s.mir.epoch = 0 ∨ (pstate ≠ 2 ∧ pstate ≠ 5)) → Runs s (.heartbeat pstate epoch
      sent stamp) [.twin] fun t => t.twin = { s.twin with peerEpoch := some epoch, peerState := pstate.toNat }) ∧
    (∀ (pstate : BitVec 3) (epoch sent stamp : Word), ((s.link .t).up = false) → exec (.heartbeat pstate epoch sent stamp) s =
      .next s) ∧
    (∀ (pstate : BitVec 3) (epoch sent stamp : Word), (s.link .t).up = true → pstate.toNat ≤ 5 → s.mir.soloGrant = false →
      s.mir.epoch ≠ 0 → s.mir.epoch < epoch → s.top.trigger = none → s.mir.pstate ≠ .fenced → s.top.state = .service →
      s.outranked 6 = false → Runs s (.heartbeat pstate epoch sent stamp) (.links :: .twin :: .ord :: .map :: .mir :: .sch
      :: .reg Reg.GLB_QUIESCE :: .reg Reg.ORD_FWD :: .reg Reg.ORD_LINEHOLD :: .reg Reg.MIR_CAUSE :: .reg Reg.MIR_PENDOCC ::
      .reg Reg.MIR_HOSTAT :: .reg Reg.MIR_HOCNT :: .reg Reg.MIR_RBCUR :: .reg Reg.ECC_SEALFAIL :: .reg Reg.ECC_FIRSTFAIL ::
      stateParts) fun t => t.mir.pstate = .fenced ∧ t.mir.pend = [] ∧ t.twin.peerEpoch = some epoch ∧ t.top =
      { s.top with state := .join, prev := .service, cause := 0x0A }) ∧
    (∀ (pstate : BitVec 3) (epoch sent stamp : Word), (s.link .t).up = true → pstate.toNat ≤ 5 → s.mir.soloGrant = false → epoch
      < s.mir.epoch → Runs s (.heartbeat pstate epoch sent stamp) [.twin, .reg Reg.MIR_HBBAD] fun t => Counted Reg.MIR_HBBAD
      s t ∧ t.twin = { s.twin with peerEpoch := some epoch, peerState := pstate.toNat }) ∧
    (∀ (pstate : BitVec 3) (epoch sent stamp : Word), (s.link .t).up = true → (pstate = 2 ∨ pstate = 5) → s.mir.soloGrant = false
      → s.mir.epoch ≠ 0 → epoch = s.mir.epoch → s.steady = true → Runs s (.heartbeat pstate epoch sent stamp) (.twin :: .reg
      Reg.MIR_CAUSE :: logParts) fun t => CauseTaken 7 s t ∧ t.twin =
      { s.twin with peerEpoch := some epoch, peerState := pstate.toNat }) ∧
    (∀ (pstate : BitVec 3) (epoch sent stamp : Word), (s.link .t).up = true → 5 < pstate.toNat → Runs s (.heartbeat pstate epoch
      sent stamp) (.free :: .reg (Reg.LNK_BADMSG Port.t.idx) :: logParts) fun t => Counted (Reg.LNK_BADMSG Port.t.idx) s t ∧
      (Attentive s → LoggedFree 0x1051 t)) ∧
    ((s.link .t).lstate = .service → Runs s .heartbeatSend [.links, .twin] fun t => t.twin =
      { s.twin with epochSent := some s.mir.epoch } ∧ SentOnT (mkHeartbeat s.hbState.code s.mir.epoch s.twin.txCount
      (s.nowNs % 2 ^ 32)) s t) ∧
    (((s.link .t).lstate ≠ .service) → exec .heartbeatSend s = .next s)

/-- Handover of a region between P and Q. For every canonical state each command answers a next state under the conditions
given, and nothing outside the parts it names (never the queue) changes. On T with traffic and an MG credit (without one
each of the four messages is an overrun, counted and recorded as 0x1050), no trigger standing and the entry not held as
failed: HANDOVER_REQUEST of a primary region SYNCED or OFFLINE with no handover and fewer than 16 running sets HANDOVER
and P's handover begins; of a replica region SYNCED it is answered as drained and 0x4033 recorded; of a failed, unmapped
or other region it is only refused. HANDOVER_FORK_MARK notes the boundary; with nothing open up to it the region becomes
replica and the drained message goes out. HANDOVER_DRAINED of a replica region SYNCED makes it primary, answers as taken,
counts DONE and records 0x4030; not SYNCED, it clears HANDOVER, refuses, counts REFUSED and records 0x4031. HANDOVER_TAKEN
after the drained message ends P's handover as done; HANDOVER_REFUSED then makes the region primary again, and at Q clears
HANDOVER; both with result 2, REFUSED counted and 0x4031. HANDOVER_TIMEOUT at Q clears HANDOVER, shows result 3, counts
REFUSED and records 0x4032. Each answer is queued, with the MG credit to be owed once it is sent. T not taking messages, a
trigger (fork mark) or no handover (timeout): nothing changes. That these messages use MG credits and the absence of an
epoch check are the model's choices (log entry 41). Rules: R89, R108, R191, R192, R193, R194, R195, R197. -/
def Obligations.HandoversRun : Prop :=
  ∀ s : State, s.canon →
    (∀ (m : HandoverMsg) (w : Word), (s.link .t).up = true → (s.link .t).granted.mg ≠ 0 → s.top.trigger = none → s.rtFailed
      m.region.toNat = false → w = s.rtEntry m.region.toNat → rtRole w = 1 → (rtSync w = 0 ∨ rtSync w = 5) → rtHandover w =
      false → s.mir.handovers.length < 16 → Runs s (.handoverRequest m) [.links, .map, .mir] fun t => t.rtEntry
      m.region.toNat = rtPut w 1 (rtSync w) true ∧ t.mir.handovers = s.mir.handovers ++
      [{ region := m.region.toNat, atP := true, mtag := m.mtag }] ∧ (t.link .t).granted =
      { (s.link .t).granted with mg := (s.link .t).granted.mg - 1 }) ∧
    (∀ (m : HandoverMsg), ((s.link .t).takes = false) → exec (.handoverRequest m) s = .next s) ∧
    (∀ (m : HandoverMsg), (s.link .t).up = true → (s.link .t).granted.mg ≠ 0 → s.top.trigger = none → (s.rtFailed m.region.toNat
      = true ∨ rtRole (s.rtEntry m.region.toNat) = 0 ∨ rtHandover (s.rtEntry m.region.toNat) = true ∨ (rtSync (s.rtEntry
      m.region.toNat) ≠ 0 ∧ rtSync (s.rtEntry m.region.toNat) ≠ 5) ∨ (rtRole (s.rtEntry m.region.toNat) = 1 ∧ 16 ≤
      s.mir.handovers.length)) → Runs s (.handoverRequest m) [.links] fun t => (t.link .t).tx = (s.link .t).tx ++ [.owing
      (mkHandover m.mtag 4 s.mir.epoch m.region.toNat) { mg := 1 } none] ∧ (t.link .t).granted =
      { (s.link .t).granted with mg := (s.link .t).granted.mg - 1 }) ∧
    (∀ (m : HandoverMsg) (w : Word), (s.link .t).up = true → (s.link .t).granted.mg ≠ 0 → s.top.trigger = none → s.rtFailed
      m.region.toNat = false → w = s.rtEntry m.region.toNat → rtRole w = 2 → rtSync w = 0 → rtHandover w = false → Runs s
      (.handoverRequest m) (.links :: logParts) fun t => (t.link .t).tx = (s.link .t).tx ++ [.owing (mkHandover m.mtag 2
      s.mir.epoch m.region.toNat) { mg := 1 } none] ∧ (Attentive s → Logged 0x4033 (BitVec.ofNat 32 m.region.toNat) t)) ∧
    (∀ (m : HandoverMsg), (s.link .t).takes = true → (s.link .t).granted.mg = 0 → Runs s (.handoverRequest m) (.free :: .reg
      (Reg.LNK_BADMSG Port.t.idx) :: logParts) fun t => Counted (Reg.LNK_BADMSG Port.t.idx) s t ∧ (Attentive s → LoggedFree
      0x1050 t)) ∧
    (∀ (m : HandoverMsg), (s.link .t).takes = true → (s.link .t).granted.mg = 0 → Runs s (.handoverDrained m) (.free :: .reg
      (Reg.LNK_BADMSG Port.t.idx) :: logParts) fun t => Counted (Reg.LNK_BADMSG Port.t.idx) s t ∧ (Attentive s → LoggedFree
      0x1050 t)) ∧
    (∀ (m : HandoverMsg), (s.link .t).takes = true → (s.link .t).granted.mg = 0 → Runs s (.handoverTaken m) (.free :: .reg
      (Reg.LNK_BADMSG Port.t.idx) :: logParts) fun t => Counted (Reg.LNK_BADMSG Port.t.idx) s t ∧ (Attentive s → LoggedFree
      0x1050 t)) ∧
    (∀ (m : HandoverMsg), (s.link .t).takes = true → (s.link .t).granted.mg = 0 → Runs s (.handoverRefused m) (.free :: .reg
      (Reg.LNK_BADMSG Port.t.idx) :: logParts) fun t => Counted (Reg.LNK_BADMSG Port.t.idx) s t ∧ (Attentive s → LoggedFree
      0x1050 t)) ∧
    (∀ (region : BitVec 18) (h : Handover), s.top.trigger = none → s.mir.handovers = [h] → h.region = region.toNat → h.atP = true
      → h.boundary = none → s.openUpTo (s.ord.forkNext - 1) = true → Runs s (.handoverForkMark region) [.mir] fun t =>
      t.mir.handovers = [{ h with boundary := some (s.ord.forkNext - 1) }]) ∧
    (∀ (region : BitVec 18), (s.top.trigger ≠ none) → exec (.handoverForkMark region) s = .next s) ∧
    (∀ (region : BitVec 18) (h : Handover), s.top.trigger = none → s.mir.handovers = [h] → h.region = region.toNat → h.atP = true
      → h.boundary = none → h.drainedSent = false → (s.link .t).up = true → s.openUpTo (s.ord.forkNext - 1) = false →
      s.rtFailed region.toNat = false → Runs s (.handoverForkMark region) [.links, .map, .mir] fun t => t.rtEntry
      region.toNat = rtPut (s.rtEntry region.toNat) 2 (rtSync (s.rtEntry region.toNat)) false ∧ t.mir.handovers =
      [{ h with boundary := some (s.ord.forkNext - 1), drainedSent := true }] ∧ (t.link .t).tx = (s.link .t).tx ++ [.owing
      (mkHandover h.mtag 2 s.mir.epoch region.toNat) { mg := 1 } none]) ∧
    (∀ (m : HandoverMsg) (w : Word), (s.link .t).up = true → (s.link .t).granted.mg ≠ 0 → s.top.trigger = none → s.rtFailed
      m.region.toNat = false → w = s.rtEntry m.region.toNat → rtRole w = 2 → rtSync w = 0 → Runs s (.handoverDrained m)
      (.links :: .map :: .mir :: .reg Reg.MIR_HOSTAT :: .reg Reg.MIR_HOCNT :: logParts) fun t => t.rtEntry m.region.toNat =
      rtPut w 1 0 false ∧ (t.link .t).tx = (s.link .t).tx ++ [.owing (mkHandover m.mtag 3 s.mir.epoch m.region.toNat)
      { mg := 1 } none] ∧ t.mir.handovers = s.mir.handovers.filter (fun x => x.region != m.region.toNat) ∧ t.fld
      Fld.MIR_HOSTAT.LAST_RESULT = 1 ∧ t.fld Fld.MIR_HOSTAT.LAST_REGION = m.region.toNat ∧ t.fld Fld.MIR_HOCNT.DONE = min
      Fld.MIR_HOCNT.DONE.max (s.fld Fld.MIR_HOCNT.DONE + 1) ∧ (Attentive s → Logged 0x4030 (BitVec.ofNat 32 m.region.toNat)
      t)) ∧
    (∀ (m : HandoverMsg), ((s.link .t).takes = false) → exec (.handoverDrained m) s = .next s) ∧
    (∀ (m : HandoverMsg) (w : Word), (s.link .t).up = true → (s.link .t).granted.mg ≠ 0 → s.top.trigger = none → s.rtFailed
      m.region.toNat = false → w = s.rtEntry m.region.toNat → rtRole w = 2 → rtSync w ≠ 0 → Runs s (.handoverDrained m)
      (.links :: .map :: .mir :: .reg Reg.MIR_HOSTAT :: .reg Reg.MIR_HOCNT :: logParts) fun t => t.rtEntry m.region.toNat =
      rtPut w 2 (rtSync w) false ∧ (t.link .t).tx = (s.link .t).tx ++ [.owing (mkHandover m.mtag 4 s.mir.epoch
      m.region.toNat) { mg := 1 } none] ∧ t.mir.handovers = s.mir.handovers.filter (fun x => x.region != m.region.toNat) ∧
      t.fld Fld.MIR_HOSTAT.LAST_RESULT = 2 ∧ t.fld Fld.MIR_HOSTAT.LAST_REGION = m.region.toNat ∧ t.fld Fld.MIR_HOCNT.REFUSED
      = min Fld.MIR_HOCNT.REFUSED.max (s.fld Fld.MIR_HOCNT.REFUSED + 1) ∧ (Attentive s → Logged 0x4031 (BitVec.ofNat 32
      m.region.toNat) t)) ∧
    (∀ (m : HandoverMsg) (h : Handover), (s.link .t).up = true → (s.link .t).granted.mg ≠ 0 → s.handoverOf m.region.toNat = some
      h → h.atP = true → h.drainedSent = true → Runs s (.handoverTaken m) (.links :: .mir :: .reg Reg.MIR_HOSTAT :: .reg
      Reg.MIR_HOCNT :: logParts) fun t => t.mir.handovers = s.mir.handovers.filter (fun x => x.region != m.region.toNat) ∧
      t.fld Fld.MIR_HOSTAT.LAST_RESULT = 1 ∧ t.fld Fld.MIR_HOSTAT.LAST_REGION = m.region.toNat ∧ t.fld Fld.MIR_HOCNT.DONE =
      min Fld.MIR_HOCNT.DONE.max (s.fld Fld.MIR_HOCNT.DONE + 1) ∧ (Attentive s → Logged 0x4030 (BitVec.ofNat 32
      m.region.toNat) t)) ∧
    (∀ (m : HandoverMsg), ((s.link .t).takes = false) → exec (.handoverTaken m) s = .next s) ∧
    (∀ (m : HandoverMsg) (h : Handover), (s.link .t).up = true → (s.link .t).granted.mg ≠ 0 → s.top.trigger = none → s.handoverOf
      m.region.toNat = some h → h.atP = true → h.drainedSent = true → s.rtFailed m.region.toNat = false → Runs s
      (.handoverRefused m) (.links :: .map :: .mir :: .reg Reg.MIR_HOSTAT :: .reg Reg.MIR_HOCNT :: logParts) fun t =>
      t.rtEntry m.region.toNat = rtPut (s.rtEntry m.region.toNat) 1 (rtSync (s.rtEntry m.region.toNat)) false ∧
      t.mir.handovers = s.mir.handovers.filter (fun x => x.region != m.region.toNat) ∧ t.fld Fld.MIR_HOSTAT.LAST_RESULT = 2
      ∧ t.fld Fld.MIR_HOSTAT.LAST_REGION = m.region.toNat ∧ t.fld Fld.MIR_HOCNT.REFUSED = min Fld.MIR_HOCNT.REFUSED.max
      (s.fld Fld.MIR_HOCNT.REFUSED + 1) ∧ (Attentive s → Logged 0x4031 (BitVec.ofNat 32 m.region.toNat) t)) ∧
    (∀ (m : HandoverMsg), ((s.link .t).takes = false) → exec (.handoverRefused m) s = .next s) ∧
    (∀ (m : HandoverMsg) (h : Handover), (s.link .t).up = true → (s.link .t).granted.mg ≠ 0 → s.top.trigger = none → s.handoverOf
      m.region.toNat = some h → h.atP = false → s.rtFailed m.region.toNat = false → Runs s (.handoverRefused m) (.links ::
      .map :: .mir :: .reg Reg.MIR_HOSTAT :: .reg Reg.MIR_HOCNT :: logParts) fun t => t.rtEntry m.region.toNat = rtPut
      (s.rtEntry m.region.toNat) (rtRole (s.rtEntry m.region.toNat)) (rtSync (s.rtEntry m.region.toNat)) false ∧
      t.mir.handovers = s.mir.handovers.filter (fun x => x.region != m.region.toNat) ∧ t.fld Fld.MIR_HOSTAT.LAST_RESULT = 2
      ∧ t.fld Fld.MIR_HOSTAT.LAST_REGION = m.region.toNat ∧ t.fld Fld.MIR_HOCNT.REFUSED = min Fld.MIR_HOCNT.REFUSED.max
      (s.fld Fld.MIR_HOCNT.REFUSED + 1) ∧ (Attentive s → Logged 0x4031 (BitVec.ofNat 32 m.region.toNat) t)) ∧
    (∀ (region : BitVec 18) (h : Handover), s.top.trigger = none → s.handoverOf region.toNat = some h → h.region = region.toNat →
      h.atP = false → s.rtFailed region.toNat = false → Runs s (.handoverTimeout region) (.map :: .mir :: .reg
      Reg.MIR_HOSTAT :: .reg Reg.MIR_HOCNT :: logParts) fun t => t.rtEntry region.toNat = rtPut (s.rtEntry region.toNat)
      (rtRole (s.rtEntry region.toNat)) (rtSync (s.rtEntry region.toNat)) false ∧ t.mir.handovers = s.mir.handovers.filter
      (fun x => x.region != region.toNat) ∧ t.fld Fld.MIR_HOSTAT.LAST_RESULT = 3 ∧ t.fld Fld.MIR_HOSTAT.LAST_REGION =
      region.toNat ∧ t.fld Fld.MIR_HOCNT.REFUSED = min Fld.MIR_HOCNT.REFUSED.max (s.fld Fld.MIR_HOCNT.REFUSED + 1) ∧
      (Attentive s → Logged 0x4032 (BitVec.ofNat 32 region.toNat) t)) ∧
    (∀ (region : BitVec 18), (s.handoverOf region.toNat = none) → exec (.handoverTimeout region) s = .next s)

/-- The handover messages and timeout complete. For every canonical state each command answers a next state under the
conditions given, and nothing outside the parts it names (never the queue) changes. On T with traffic and an MG credit, no
trigger standing and the entry not held as failed: HANDOVER_REQUEST of a primary SYNCED region with no handover and fewer
than 16 running sets HANDOVER and P's handover stands last. HANDOVER_DRAINED of a replica region SYNCED makes it primary
with HANDOVER clear, and no handover of the region is left. HANDOVER_TAKEN ends P's handover that has sent its drained
message; HANDOVER_REFUSED ends it with the region primary again. HANDOVER_FORK_MARK of P's handover without a boundary
notes the last fork number as its boundary (told while an entry up to it is open). HANDOVER_TIMEOUT at Q ends its handover
with HANDOVER clear and the role kept. That these messages use MG credits is the model's choice (log entry 41). Rules:
R191, R192, R193, R194, R195. -/
def Obligations.HandoverCommandsComplete : Prop :=
  ∀ s : State, s.canon →
    (∀ (m : HandoverMsg), (s.link .t).up = true → (s.link .t).granted.mg ≠ 0 → s.top.trigger = none → s.rtFailed m.region.toNat =
      false → rtRole (s.rtEntry m.region.toNat) = 1 → rtSync (s.rtEntry m.region.toNat) = 0 → rtHandover (s.rtEntry
      m.region.toNat) = false → s.mir.handovers.length < 16 → Runs s (.handoverRequest m) (.free :: .links :: .twin :: .ord
      :: .map :: .mir :: .sch :: .block 0x1 :: .reg Reg.ORD_FWD :: .reg Reg.ORD_LINEHOLD :: .reg Reg.MIR_RBCUR :: .reg
      Reg.ECC_SEALFAIL :: .reg Reg.ECC_FIRSTFAIL :: logParts) fun t => rtHandover (t.rtEntry m.region.toNat) = true ∧
      t.mir.handovers.getLast? = some { region := m.region.toNat, atP := true, mtag := m.mtag }) ∧
    (∀ (region : BitVec 18) (h : Handover), s.top.trigger = none → s.mir.handovers = [h] → h.region = region.toNat → h.atP = true
      → h.boundary = none → s.openUpTo (s.ord.forkNext - 1) = true → Runs s (.handoverForkMark region) [.links, .map, .mir]
      fun t => t.mir.handovers.map (·.boundary) = [some (s.ord.forkNext - 1)]) ∧
    (∀ (m : HandoverMsg), (s.link .t).up = true → (s.link .t).granted.mg ≠ 0 → s.top.trigger = none → s.rtFailed m.region.toNat =
      false → rtRole (s.rtEntry m.region.toNat) = 2 → rtSync (s.rtEntry m.region.toNat) = 0 → Runs s (.handoverDrained m)
      (.free :: .links :: .twin :: .ord :: .map :: .mir :: .sch :: .block 0x1 :: .reg Reg.ORD_FWD :: .reg Reg.ORD_LINEHOLD
      :: .reg Reg.MIR_RBCUR :: .reg Reg.MIR_HOSTAT :: .reg Reg.MIR_HOCNT :: .reg Reg.ECC_SEALFAIL :: .reg Reg.ECC_FIRSTFAIL
      :: logParts) fun t => rtRole (t.rtEntry m.region.toNat) = 1 ∧ rtHandover (t.rtEntry m.region.toNat) = false ∧
      t.mir.handovers.all (fun x => x.region != m.region.toNat) = true) ∧
    (∀ (m : HandoverMsg) (h : Handover), (s.link .t).up = true → (s.link .t).granted.mg ≠ 0 → s.mir.handovers = [h] → h.region =
      m.region.toNat → h.atP = true → h.drainedSent = true → Runs s (.handoverTaken m) (.free :: .links :: .twin :: .ord ::
      .mir :: .sch :: .block 0x1 :: .reg Reg.ORD_FWD :: .reg Reg.ORD_LINEHOLD :: .reg Reg.MIR_RBCUR :: .reg Reg.MIR_HOSTAT
      :: .reg Reg.MIR_HOCNT :: .reg Reg.ECC_SEALFAIL :: .reg Reg.ECC_FIRSTFAIL :: logParts) fun t => t.mir.handovers = []) ∧
    (∀ (m : HandoverMsg) (h : Handover), (s.link .t).up = true → (s.link .t).granted.mg ≠ 0 → s.top.trigger = none →
      s.mir.handovers = [h] → h.region = m.region.toNat → h.atP = true → h.drainedSent = true → s.rtFailed m.region.toNat =
      false → Runs s (.handoverRefused m) (.free :: .links :: .twin :: .ord :: .map :: .mir :: .sch :: .block 0x1 :: .reg
      Reg.ORD_FWD :: .reg Reg.ORD_LINEHOLD :: .reg Reg.MIR_RBCUR :: .reg Reg.MIR_HOSTAT :: .reg Reg.MIR_HOCNT :: .reg
      Reg.ECC_SEALFAIL :: .reg Reg.ECC_FIRSTFAIL :: logParts) fun t => rtRole (t.rtEntry m.region.toNat) = 1 ∧
      t.mir.handovers = []) ∧
    (∀ (region : BitVec 18) (h : Handover), s.top.trigger = none → s.mir.handovers = [h] → h.region = region.toNat → h.atP =
      false → s.rtFailed region.toNat = false → Runs s (.handoverTimeout region) (.map :: .mir :: .reg Reg.MIR_HOSTAT ::
      .reg Reg.MIR_HOCNT :: logParts) fun t => rtHandover (t.rtEntry region.toNat) = false ∧ rtRole (t.rtEntry region.toNat)
      = rtRole (s.rtEntry region.toNat) ∧ t.mir.handovers = [])

/-- Solo grant: conversion, hold, and the format of regions. For every canonical state each command answers a next state under
the conditions given, and nothing outside the parts it names (never the queue) changes. SOLO_CONVERSION_DONE of a running
grant, with no entry held as failed or lost, gives every mapped region its solo entry; before the hold's end it keeps the
pair and the top level; after it (in SERVICE, nothing to format, rebuild mode not 3) the hub is solo, the grant over, the
pending table and the handovers empty, and 0x4011 recorded with the epoch. SOLO_HOLD_END before the conversion notes the
end; after it, with no format due and rebuild mode not 3, the hub is solo, the pending table empty and 0x4011 recorded:
SERVICE stays, JOIN goes to SERVICE with cause 9 where its links stand and nothing outranks it (R25), else stays. With a
format due and a mapped region the hub is solo and formats the first one. Told with no event of a higher place in the
cycle. FORMAT_REGION_DONE with all 2^24 format writes entered and none waiting makes the region primary TRACKED and goes
to the next mapped region, or, after the last, ends the format and records 0x4054 with the count. With no grant, its
conversion already made, or no format at its end they change nothing. That the hold ends by its command is the model's
choice (log entry 41). Rules: R21, R23, R209, R211, R212, R213. -/
def Obligations.SoloAndFormatRun : Prop :=
  ∀ s : State, s.canon →
    (s.top.trigger = none → s.mir.soloGrant = true → s.mir.soloConv = false → s.mir.soloEnd = false → s.map.failed = [] →
      s.map.lost = [] → Runs s .soloConversionDone [.map, .mir] fun t => t.mir.soloConv = true ∧ t.mir.pstate = s.mir.pstate
      ∧ (∀ r ∈ s.mappedRegions, t.rtEntry r = soloEntry (s.rtEntry r)) ∧ t.top = s.top) ∧
    ((s.mir.soloGrant = false ∨ s.mir.soloConv = true) → exec .soloConversionDone s = .next s) ∧
    (s.top.trigger = none → s.mir.soloGrant = true → s.mir.soloConv = false → s.mir.soloEnd = true → s.mir.formatDue = false →
      s.mir.rbMode ≠ 3 → s.outranked 6 = false → s.top.state = .service → s.map.failed = [] → s.map.lost = [] → Runs s
      .soloConversionDone (.links :: .twin :: .ord :: .map :: .mir :: .sch :: .reg Reg.ORD_FWD :: .reg Reg.ORD_LINEHOLD ::
      .reg Reg.ORD_FLUSHES :: .reg Reg.MIR_CAUSE :: .reg Reg.MIR_PENDOCC :: .reg Reg.MIR_HOSTAT :: .reg Reg.MIR_HOCNT ::
      .reg Reg.ECC_SEALFAIL :: .reg Reg.ECC_FIRSTFAIL :: logParts) fun t => t.mir.pstate = .solo ∧ t.mir.handovers = [] ∧
      t.mir.soloGrant = false ∧ t.mir.pend = [] ∧ (∀ r ∈ s.mappedRegions, t.rtEntry r = soloEntry (s.rtEntry r)) ∧
      (Attentive s → Logged 0x4011 s.mir.epoch t)) ∧
    (s.top.trigger = none → s.mir.soloGrant = true → s.mir.soloConv = false → Runs s .soloHoldEnd [.mir] fun t => t.mir =
      { s.mir with soloEnd := true }) ∧
    ((s.mir.soloGrant = false ∨ s.top.trigger ≠ none) → exec .soloHoldEnd s = .next s) ∧
    (s.top.trigger = none → s.mir.soloGrant = true → s.mir.soloConv = true → s.mir.formatDue = false → s.mir.rbMode ≠ 3 →
      s.outranked 6 = false → s.top.state = .service → Runs s .soloHoldEnd (.links :: .twin :: .ord :: .map :: .mir :: .sch
      :: .reg Reg.ORD_FWD :: .reg Reg.ORD_LINEHOLD :: .reg Reg.ORD_FLUSHES :: .reg Reg.MIR_CAUSE :: .reg Reg.MIR_PENDOCC ::
      .reg Reg.MIR_HOSTAT :: .reg Reg.MIR_HOCNT :: .reg Reg.ECC_SEALFAIL :: .reg Reg.ECC_FIRSTFAIL :: logParts) fun t =>
      t.mir.pstate = .solo ∧ t.mir.handovers = [] ∧ t.mir.soloGrant = false ∧ t.mir.pend = [] ∧ t.top = s.top ∧ (Attentive s
      → Logged 0x4011 s.mir.epoch t)) ∧
    (s.top.trigger = none → s.mir.soloGrant = true → s.mir.soloConv = true → s.mir.formatDue = false → s.mir.rbMode ≠ 3 →
      s.top.state = .join → s.outranked 7 = false → s.outranked 6 = false → s.joinLinked = true → Runs s .soloHoldEnd
      (.links :: .twin :: .ord :: .map :: .mir :: .sch :: .flt :: .cal :: .pwr :: .boot :: .reg Reg.GLB_QUIESCE :: .reg
      Reg.ORD_FWD :: .reg Reg.ORD_LINEHOLD :: .reg Reg.ORD_FLUSHES :: .reg Reg.ECC_SEALFAIL :: .reg Reg.ECC_FIRSTFAIL ::
      .reg Reg.MIR_CAUSE :: .reg Reg.MIR_PENDOCC :: .reg Reg.MIR_HOSTAT :: .reg Reg.MIR_HOCNT :: stateParts) fun t =>
      t.mir.pstate = .solo ∧ t.mir.handovers = [] ∧ t.mir.soloGrant = false ∧ t.mir.pend = [] ∧ t.top =
      { s.top with state := .service, prev := .join, cause := 0x09 } ∧ (Attentive s → Logged 0x4011 s.mir.epoch t)) ∧
    (s.top.trigger = none → s.mir.soloGrant = true → s.mir.soloConv = true → s.mir.formatDue = false → s.mir.rbMode ≠ 3 →
      s.top.state = .join → s.outranked 6 = false → (s.outranked 7 = true ∨ s.joinLinked = false) → Runs s .soloHoldEnd
      (.links :: .twin :: .ord :: .map :: .mir :: .sch :: .reg Reg.ORD_FWD :: .reg Reg.ORD_LINEHOLD :: .reg Reg.ORD_FLUSHES
      :: .reg Reg.MIR_CAUSE :: .reg Reg.MIR_PENDOCC :: .reg Reg.MIR_HOSTAT :: .reg Reg.MIR_HOCNT :: .reg Reg.ECC_SEALFAIL ::
      .reg Reg.ECC_FIRSTFAIL :: logParts) fun t => t.mir.pstate = .solo ∧ t.mir.handovers = [] ∧ t.top = s.top) ∧
    (∀ (r : Nat) (rest : List Nat), s.top.trigger = none → s.mir.soloGrant = true → s.mir.soloConv = true → s.mir.formatDue =
      true → s.mappedRegions = r :: rest → s.outranked 6 = false → s.top.state = .service → Runs s .soloHoldEnd (.links ::
      .twin :: .ord :: .map :: .mir :: .sch :: .reg Reg.ORD_FWD :: .reg Reg.ORD_LINEHOLD :: .reg Reg.ORD_FLUSHES :: .reg
      Reg.MIR_CAUSE :: .reg Reg.MIR_PENDOCC :: .reg Reg.MIR_HOSTAT :: .reg Reg.MIR_HOCNT :: .reg Reg.ECC_SEALFAIL :: .reg
      Reg.ECC_FIRSTFAIL :: logParts) fun t => t.mir.pstate = .solo ∧ t.mir.handovers = [] ∧ t.mir.rb = .formatting ∧
      t.mir.rbRegion = r ∧ t.mir.fmtNext = 0 ∧ t.mir.formatDue = false ∧ t.top = s.top) ∧
    (∀ (n : Nat), s.top.trigger = none → s.mir.rb = .formatting → s.mir.pstate = .solo → s.mir.fmtNext = 2 ^ 24 → s.formatWaiting
      = false → s.rtFailed s.mir.rbRegion = false → s.mappedRegions.find? (fun n => decide (s.mir.rbRegion < n)) = some n →
      Runs s .formatRegionDone (.links :: .twin :: .ord :: .map :: .mir :: .sch :: .reg Reg.ORD_FWD :: .reg Reg.ORD_LINEHOLD
      :: .reg Reg.ECC_SEALFAIL :: .reg Reg.ECC_FIRSTFAIL :: logParts) fun t => t.rtEntry s.mir.rbRegion = rtPut (s.rtEntry
      s.mir.rbRegion) 1 1 false ∧ t.mir.rbRegion = n ∧ t.mir.fmtNext = 0 ∧ t.mir.fmtDone = s.mir.fmtDone + 1 ∧ t.mir.rb =
      .formatting) ∧
    ((s.mir.rb ≠ .formatting ∨ s.mir.fmtNext ≠ 2 ^ 24) → exec .formatRegionDone s = .next s) ∧
    (s.top.trigger = none → s.mir.rb = .formatting → s.mir.pstate = .solo → s.mir.fmtNext = 2 ^ 24 → s.formatWaiting = false →
      s.rtFailed s.mir.rbRegion = false → s.mappedRegions.find? (fun n => decide (s.mir.rbRegion < n)) = none → Runs s
      .formatRegionDone (.links :: .twin :: .ord :: .map :: .mir :: .sch :: .reg Reg.ORD_FWD :: .reg Reg.ORD_LINEHOLD ::
      .reg Reg.ECC_SEALFAIL :: .reg Reg.ECC_FIRSTFAIL :: logParts) fun t => t.rtEntry s.mir.rbRegion = rtPut (s.rtEntry
      s.mir.rbRegion) 1 1 false ∧ t.mir.rb = .none ∧ (Attentive s → Logged 0x4054 (BitVec.ofNat 32 (s.mir.fmtDone + 1)) t))

/-- REBUILD_CTL: sessions, granules, cursors, completion, stop, pace and answers. For every canonical state each command
answers a next state under the conditions given, and nothing outside the parts it names (never the queue) changes. On T
with traffic (a cursor or pace without feature 19, or SHARE above 100, is unknown, 0x1051, and spends none; else without
an MG credit each command is an overrun, 0x1050): Start session at a waiting destination: of full mode it begins the copy
and is answered; of marks mode it reports its marks (one, to fifteen more) and the end of them; of another mode it stops
the session with 0x4053 reason 4; elsewhere it is held. Start granule of a replica BEHIND region sets it RESYNC, opens its
line filter afresh and is answered; of a new region it moves MIR_RBSTAT's region and notes the granule; of an OFFLINE
region it is answered and refused in turn. Cursor at the source marks the granule and is answered; at the destination, its
lines taken and none rejected, it closes the filter, clears the mark and is answered. Done of a replica region BEHIND,
RESYNC or FILLING sets it SYNCED; of the session makes the destination paired (0x4052); the marks' end is answered, and at
a source with no region mapped closes. Stop of a region not being copied is only answered; of the last region being copied
it closes, TRACKED again, 0x4051; of the session it makes the source solo and the destination fenced (to JOIN), with
0x4053. Pace at the source sets the share, is answered and recorded as 0x4055. An answer to a granule start opens its
copy; to the last cursor ends the copy, clears the mark and sends done; to the region's done sets it SYNCED and closes; to
the session's done makes the source paired. REBUILD_WAIT_TIMEOUT makes a waiting source solo and a waiting destination
fenced, 0x4053 reason 3. Told without a trigger, with the entry not held as failed and nothing outranking a fence. T
without traffic, an answer to nothing, or no wait: nothing changes. MTAG 0 and no epoch check are the model's choices (log
entry 41). Rules: R79, R108, R214, R216, R221, R223, R224, R225, R226, R227, R228, R541. -/
def Obligations.RebuildControlRuns : Prop :=
  ∀ s : State, s.canon →
    (∀ (m : RebuildMsg), (s.link .t).up = true → (s.link .t).granted.mg ≠ 0 → s.mir.rbRole = 2 → s.mir.rb = .starting → modeOf m
      = s.mir.rbMode.toNat → s.mir.rbMode = 1 → Runs s (.rebuildCtlStartSession m) [.links, .mir] fun t => t.mir.rb =
      .copying ∧ t.mir.startHeld = none ∧ (t.link .t).tx = (s.link .t).tx ++ [.owing (mkRebuild 1 m.mtag m.share.toNat
      s.mir.epoch m.cursor.toNat m.sess) { mg := 1 } none]) ∧
    (∀ (m : RebuildMsg), ((s.link .t).takes = false) → exec (.rebuildCtlStartSession m) s = .next s) ∧
    (∀ (m : RebuildMsg) (g : Nat) (rest : List Nat), (s.link .t).up = true → (s.link .t).granted.mg ≠ 0 → s.mir.rbRole = 2 →
      s.mir.rb = .starting → modeOf m = s.mir.rbMode.toNat → s.mir.rbMode = 2 → s.pairMarks = g :: rest → s.mir.lastCtl = []
      → rest.length < 15 → Runs s (.rebuildCtlStartSession m) [.links, .mir] fun t => t.mir.rb = .copying ∧ t.mir.reported =
      [] ∧ t.mir.lastCtl.length = rest.length + 2 ∧ t.mir.lastCtl.getLast? = some (4, 0x7FFFFFE, true)) ∧
    (∀ (m : RebuildMsg), (s.link .t).up = true → (s.link .t).granted.mg ≠ 0 → s.mir.rbRole = 2 → s.mir.rb = .starting → modeOf m
      ≠ s.mir.rbMode.toNat → Runs s (.rebuildCtlStartSession m) (.links :: .mir :: logParts) fun t => t.mir.startHeld = none
      ∧ (2, 0x7FFFFFF, true) ∈ t.mir.lastCtl ∧ (t.link .t).tx = (s.link .t).tx ++ [.owing (mkRebuild 2 0 0 s.mir.epoch
      0x7FFFFFF true) { mg := 1 } none] ∧ (Attentive s → Logged 0x4053 4 t)) ∧
    (∀ (m : RebuildMsg), (s.link .t).takes = true → (s.link .t).granted.mg = 0 → Runs s (.rebuildCtlStartSession m) (.free ::
      .reg (Reg.LNK_BADMSG Port.t.idx) :: logParts) fun t => Counted (Reg.LNK_BADMSG Port.t.idx) s t ∧ (Attentive s →
      LoggedFree 0x1050 t)) ∧
    (∀ (m : RebuildMsg), (s.link .t).takes = true → (s.link .t).granted.mg = 0 → Runs s (.rebuildCtlStartGranule m) (.free ::
      .reg (Reg.LNK_BADMSG Port.t.idx) :: logParts) fun t => Counted (Reg.LNK_BADMSG Port.t.idx) s t ∧ (Attentive s →
      LoggedFree 0x1050 t)) ∧
    (∀ (m : RebuildMsg), (s.link .t).takes = true → (s.link .t).granted.mg = 0 → s.feat .t 19 = true → m.share.toNat ≤ 100 → Runs
      s (.rebuildCtlCursor m) (.free :: .reg (Reg.LNK_BADMSG Port.t.idx) :: logParts) fun t => Counted (Reg.LNK_BADMSG
      Port.t.idx) s t ∧ (Attentive s → LoggedFree 0x1050 t)) ∧
    (∀ (m : RebuildMsg), (s.link .t).takes = true → (s.link .t).granted.mg = 0 → Runs s (.rebuildCtlDone m) (.free :: .reg
      (Reg.LNK_BADMSG Port.t.idx) :: logParts) fun t => Counted (Reg.LNK_BADMSG Port.t.idx) s t ∧ (Attentive s → LoggedFree
      0x1050 t)) ∧
    (∀ (m : RebuildMsg), (s.link .t).takes = true → (s.link .t).granted.mg = 0 → Runs s (.rebuildCtlStop m) (.free :: .reg
      (Reg.LNK_BADMSG Port.t.idx) :: logParts) fun t => Counted (Reg.LNK_BADMSG Port.t.idx) s t ∧ (Attentive s → LoggedFree
      0x1050 t)) ∧
    (∀ (m : RebuildMsg), (s.link .t).takes = true → (s.link .t).granted.mg = 0 → s.feat .t 19 = true → m.share.toNat ≤ 100 → Runs
      s (.rebuildCtlPace m) (.free :: .reg (Reg.LNK_BADMSG Port.t.idx) :: logParts) fun t => Counted (Reg.LNK_BADMSG
      Port.t.idx) s t ∧ (Attentive s → LoggedFree 0x1050 t)) ∧
    (∀ (m : RebuildMsg), (s.link .t).takes = true → s.feat .t 19 = false → Runs s (.rebuildCtlCursor m) (.free :: .links :: .reg
      (Reg.LNK_BADMSG Port.t.idx) :: logParts) fun t => (t.link .t).granted = (s.link .t).granted ∧ Counted (Reg.LNK_BADMSG
      Port.t.idx) s t ∧ (Attentive s → LoggedFree 0x1051 t)) ∧
    (∀ (m : RebuildMsg), (s.link .t).takes = true → (s.feat .t 19 = false ∨ 100 < m.share.toNat) → Runs s (.rebuildCtlPace m)
      (.free :: .links :: .reg (Reg.LNK_BADMSG Port.t.idx) :: logParts) fun t => (t.link .t).granted = (s.link .t).granted ∧
      Counted (Reg.LNK_BADMSG Port.t.idx) s t ∧ (Attentive s → LoggedFree 0x1051 t)) ∧
    (∀ (m : RebuildMsg), (s.link .t).up = true → (s.link .t).granted.mg ≠ 0 → (s.mir.rbRole ≠ 2 ∨ s.mir.rb ≠ .starting) → Runs s
      (.rebuildCtlStartSession m) [.links, .mir] fun t => t.mir = { s.mir with startHeld := some m } ∧ (t.link .t).granted =
      { (s.link .t).granted with mg := (s.link .t).granted.mg - 1 }) ∧
    (∀ (m : RebuildMsg) (r : Nat), (s.link .t).up = true → (s.link .t).granted.mg ≠ 0 → s.top.trigger = none → s.mir.rbRole = 2 →
      s.mir.rbRegion = r → r = m.cursor.toNat / 512 → s.rtFailed r = false → rtRole (s.rtEntry r) = 2 → rtSync (s.rtEntry r)
      = 2 → Runs s (.rebuildCtlStartGranule m) [.links, .map, .mir] fun t => t.rtEntry r = rtPut (s.rtEntry r) 2 3
      (rtHandover (s.rtEntry r)) ∧ t.mir.filters = s.mir.filters.filter (fun f => f.gran != m.cursor.toNat) ++
      [{ gran := m.cursor.toNat }] ∧ (t.link .t).tx = (s.link .t).tx ++ [.owing (mkRebuild 1 m.mtag m.share.toNat
      s.mir.epoch m.cursor.toNat m.sess) { mg := 1 } none]) ∧
    (∀ (m : RebuildMsg), ((s.link .t).takes = false) → exec (.rebuildCtlStartGranule m) s = .next s) ∧
    (∀ (m : RebuildMsg) (r : Nat), (s.link .t).up = true → (s.link .t).granted.mg ≠ 0 → s.top.trigger = none → s.mir.rbRole = 2 →
      r = m.cursor.toNat / 512 → s.mir.rbRegion ≠ r → (s.rtFailed r = true ∨ rtSync (s.rtEntry r) ≠ 5) → Runs s
      (.rebuildCtlStartGranule m) (.links :: .ord :: .map :: .mir :: .sch :: .reg Reg.ORD_FWD :: .reg Reg.ORD_LINEHOLD ::
      .twin :: .reg Reg.ECC_SEALFAIL :: .reg Reg.ECC_FIRSTFAIL :: logParts) fun t => t.mir.rbRegion = r ∧ m.cursor.toNat ∈
      t.mir.opened) ∧
    (∀ (m : RebuildMsg) (r : Nat), (s.link .t).up = true → (s.link .t).granted.mg ≠ 0 → r = m.cursor.toNat / 512 → s.rtFailed r =
      false → rtSync (s.rtEntry r) = 5 → Runs s (.rebuildCtlStartGranule m) [.links, .mir] fun t => (t.link .t).tx.getLast?
      = some (.owing (mkRebuild 1 m.mtag m.share.toNat s.mir.epoch m.cursor.toNat m.sess) { mg := 1 } none) ∧ (2, r * 512,
      false) ∈ t.mir.lastCtl ∧ t.mir.filters = s.mir.filters) ∧
    (∀ (m : RebuildMsg), (s.link .t).up = true → (s.link .t).granted.mg ≠ 0 → s.feat .t 19 = true → s.mir.rbRole = 1 →
      s.top.trigger = none → rtRole (s.rtEntry (m.cursor.toNat / 512)) ≠ 0 → Runs s (.rebuildCtlCursor m) (.links :: .ord ::
      .mir :: .sch :: .reg Reg.ORD_FWD :: .reg Reg.ORD_LINEHOLD :: .twin :: .reg Reg.ECC_SEALFAIL :: .reg Reg.ECC_FIRSTFAIL
      :: logParts) fun t => t.marked (s.localGran m.cursor.toNat) = true ∧ (t.link .t).tx = (s.link .t).tx ++ [.owing
      (mkRebuild 3 m.mtag m.share.toNat s.mir.epoch m.cursor.toNat m.sess) { mg := 1 } none]) ∧
    (∀ (m : RebuildMsg), ((s.link .t).takes = false) → exec (.rebuildCtlCursor m) s = .next s) ∧
    (∀ (m : RebuildMsg) (f : LineFilter), (s.link .t).up = true → (s.link .t).granted.mg ≠ 0 → s.feat .t 19 = true → s.mir.rbRole
      = 2 → s.mir.curWait = [] → s.mir.filters = [f] → f.gran = m.cursor.toNat → f.rejected = false → (s.link .t).nextReq ≤
      (s.link .t).adm.base → rtRole (s.rtEntry (m.cursor.toNat / 512)) ≠ 0 → s.top.trigger = none → Runs s
      (.rebuildCtlCursor m) (.links :: .ord :: .mir :: .sch :: .reg Reg.ORD_FWD :: .reg Reg.ORD_LINEHOLD :: .reg
      Reg.MIR_RBCUR :: .twin :: .reg Reg.ECC_SEALFAIL :: .reg Reg.ECC_FIRSTFAIL :: logParts) fun t => t.mir.filters = [] ∧
      t.marked (s.localGran m.cursor.toNat) = false ∧ (t.link .t).tx = (s.link .t).tx ++ [.owing (mkRebuild 3 m.mtag
      m.share.toNat s.mir.epoch m.cursor.toNat m.sess) { mg := 1 } none]) ∧
    (∀ (m : RebuildMsg) (r : Nat), (s.link .t).up = true → (s.link .t).granted.mg ≠ 0 → s.top.trigger = none → m.sess = false → r
      = m.cursor.toNat / 512 → s.rtFailed r = false → rtRole (s.rtEntry r) = 2 → (rtSync (s.rtEntry r) = 2 ∨ rtSync
      (s.rtEntry r) = 3 ∨ rtSync (s.rtEntry r) = 4) → (s.mir.rbRole ≠ 2 ∨ s.mir.rbMode ≠ 1) → Runs s (.rebuildCtlDone m)
      [.links, .map, .mir] fun t => t.rtEntry r = rtPut (s.rtEntry r) 2 0 (rtHandover (s.rtEntry r)) ∧ t.mir.opened =
      s.mir.opened.filter (fun g => g / 512 != r) ∧ (t.link .t).tx = (s.link .t).tx ++ [.owing (mkRebuild 4 m.mtag
      m.share.toNat s.mir.epoch m.cursor.toNat m.sess) { mg := 1 } none]) ∧
    (∀ (m : RebuildMsg), ((s.link .t).takes = false) → exec (.rebuildCtlDone m) s = .next s) ∧
    (∀ (m : RebuildMsg), (s.link .t).up = true → (s.link .t).granted.mg ≠ 0 → s.top.trigger = none → m.sess = true → m.cursor ≠
      0x7FFFFFE → s.mir.rbRole = 2 → (∀ r ∈ s.mappedRegions, s.hasMarks r = false) → Runs s (.rebuildCtlDone m) (.free ::
      .links :: .twin :: .ord :: .map :: .mir :: .sch :: .flt :: .cal :: .block 0x1 :: .reg Reg.ORD_FWD :: .reg
      Reg.ORD_LINEHOLD :: .reg Reg.ORD_FLUSHES :: .reg Reg.MIR_RBCUR :: .reg Reg.ECC_SEALFAIL :: .reg Reg.ECC_FIRSTFAIL ::
      logParts) fun t => (Attentive s → Logged 0x4052 s.mir.epoch t) ∧ t.mir.pstate = .paired ∧ t.mir.rb = .none ∧
      t.mir.rbRole = 0) ∧
    (∀ (m : RebuildMsg), (s.link .t).up = true → (s.link .t).granted.mg ≠ 0 → m.sess = true → m.cursor = 0x7FFFFFE →
      (s.mir.rbRole ≠ 1 ∨ s.mir.rb ≠ .reporting) → Runs s (.rebuildCtlDone m) [.links] fun t => (t.link .t).tx = (s.link
      .t).tx ++ [.owing (mkRebuild 4 m.mtag m.share.toNat s.mir.epoch m.cursor.toNat m.sess) { mg := 1 } none] ∧ (t.link
      .t).granted = { (s.link .t).granted with mg := (s.link .t).granted.mg - 1 }) ∧
    (∀ (m : RebuildMsg), (s.link .t).up = true → (s.link .t).granted.mg ≠ 0 → s.top.trigger = none → m.sess = true → m.cursor =
      0x7FFFFFE → s.mir.rbRole = 1 → s.mir.rb = .reporting → s.mappedRegions = [] → Runs s (.rebuildCtlDone m) [.links,
      .mir] fun t => t.mir.rb = .closing ∧ (4, 0x7FFFFFF, true) ∈ t.mir.lastCtl) ∧
    (∀ (m : RebuildMsg), (s.link .t).up = true → (s.link .t).granted.mg ≠ 0 → m.sess = false → (s.mir.rb ≠ .copying ∨
      s.mir.rbRegion ≠ m.cursor.toNat / 512) → Runs s (.rebuildCtlStop m) [.links] fun t => (t.link .t).tx = (s.link .t).tx
      ++ [.owing (mkRebuild 2 m.mtag m.share.toNat s.mir.epoch m.cursor.toNat m.sess) { mg := 1 } none] ∧ (t.link
      .t).granted = { (s.link .t).granted with mg := (s.link .t).granted.mg - 1 }) ∧
    (∀ (m : RebuildMsg), ((s.link .t).takes = false) → exec (.rebuildCtlStop m) s = .next s) ∧
    (∀ (m : RebuildMsg), (s.link .t).up = true → (s.link .t).granted.mg ≠ 0 → s.top.trigger = none → m.sess = true → s.mir.rbRole
      = 1 → s.top.state = .service → Runs s (.rebuildCtlStop m) (.links :: .twin :: .ord :: .map :: .mir :: .sch :: .reg
      Reg.ORD_FWD :: .reg Reg.ORD_LINEHOLD :: .reg Reg.ORD_FLUSHES :: .reg Reg.MIR_CAUSE :: .reg Reg.MIR_PENDOCC :: .reg
      Reg.MIR_HOSTAT :: .reg Reg.MIR_HOCNT :: .reg Reg.ECC_SEALFAIL :: .reg Reg.ECC_FIRSTFAIL :: logParts) fun t =>
      t.mir.pstate = .solo ∧ t.mir.rbRole = 0 ∧ t.mir.copies = [] ∧ (Attentive s → Logged 0x4053 (if s.mir.rb = .starting
      then 4 else 1) t)) ∧
    (∀ (m : RebuildMsg), (s.link .t).up = true → (s.link .t).granted.mg ≠ 0 → s.top.trigger = none → m.sess = true → s.mir.rbRole
      = 2 → s.top.state = .service → s.mir.epoch ≠ 0 → s.mir.pstate ≠ .fenced → s.outranked 6 = false → Runs s
      (.rebuildCtlStop m) (.links :: .twin :: .ord :: .map :: .mir :: .sch :: .reg Reg.GLB_QUIESCE :: .reg Reg.ORD_FWD ::
      .reg Reg.ORD_LINEHOLD :: .reg Reg.MIR_CAUSE :: .reg Reg.MIR_PENDOCC :: .reg Reg.MIR_HOSTAT :: .reg Reg.MIR_HOCNT ::
      .reg Reg.MIR_RBCUR :: .reg Reg.ECC_SEALFAIL :: .reg Reg.ECC_FIRSTFAIL :: stateParts) fun t => t.mir.pstate = .fenced ∧
      t.mir.rbRole = 0 ∧ t.top = { s.top with state := .join, prev := .service, cause := 0x0A } ∧ (Attentive s → Logged
      0x4053 1 t)) ∧
    (∀ (m : RebuildMsg) (r : Nat), (s.link .t).up = true → (s.link .t).granted.mg ≠ 0 → s.top.trigger = none → m.sess = false → r
      = m.cursor.toNat / 512 → s.mir.rb = .copying → s.mir.rbRole = 1 → s.mir.rbRegion = r → s.rtFailed r = false →
      s.mappedRegions.filter (fun x => decide (r + 1 ≤ x)) = [] → Runs s (.rebuildCtlStop m) (.links :: .map :: .mir ::
      logParts) fun t => t.rtEntry r = rtPut (s.rtEntry r) 1 1 (rtHandover (s.rtEntry r)) ∧ t.mir.rb = .closing ∧
      t.mir.copies = [] ∧ t.mir.todo = [] ∧ (Attentive s → Logged 0x4051 (BitVec.ofNat 32 r) t)) ∧
    (∀ (m : RebuildMsg), (s.link .t).up = true → (s.link .t).granted.mg ≠ 0 → s.feat .t 19 = true → m.share.toNat ≤ 100 →
      s.mir.rbRole = 1 → Runs s (.rebuildCtlPace m) (.links :: .mir :: logParts) fun t => t.mir =
      { s.mir with share := m.share.toNat } ∧ (t.link .t).tx = (s.link .t).tx ++ [.owing (mkRebuild 5 m.mtag m.share.toNat
      s.mir.epoch m.cursor.toNat m.sess) { mg := 1 } none] ∧ (Attentive s → Logged 0x4055 (BitVec.ofNat 32 m.share.toNat) t)) ∧
    (∀ (m : RebuildMsg), ((s.link .t).takes = false) → exec (.rebuildCtlPace m) s = .next s) ∧
    (∀ (cmd : Byte) (m : RebuildMsg), (s.link .t).up = true → (s.link .t).granted.mg ≠ 0 → (1, m.cursor.toNat, m.sess) ∈
      s.mir.lastCtl → cmd = 1 → m.sess = false → Runs s (.rebuildCtlAnswer cmd m) [.links, .mir] fun t => t.mir =
      { s.mir with lastCtl := s.mir.lastCtl.erase (1, m.cursor.toNat, m.sess), copies := s.mir.copies.map (fun x => if x.gran == m.cursor.toNat then { x with opened := true } else x) }) ∧
    (∀ (cmd : Byte) (m : RebuildMsg), ((cmd.toNat, m.cursor.toNat, m.sess) ∉ s.mir.lastCtl) → exec (.rebuildCtlAnswer cmd m) s =
      .next s) ∧
    (∀ (cmd : Byte) (m : RebuildMsg) (c : GranCopy), (s.link .t).up = true → (s.link .t).granted.mg ≠ 0 → s.top.trigger = none →
      (3, m.cursor.toNat, m.sess) ∈ s.mir.lastCtl → cmd = 3 → s.mir.rbRole = 1 → s.mir.copies = [c] → c.gran =
      m.cursor.toNat → c.rejected = false → s.mir.todo = [] → s.mir.regionOpen = true → rtRole (s.rtEntry (m.cursor.toNat /
      512)) ≠ 0 → Runs s (.rebuildCtlAnswer cmd m) (.links :: .ord :: .mir :: .sch :: .reg Reg.ORD_FWD :: .reg
      Reg.ORD_LINEHOLD :: .reg Reg.ORD_FLUSHES :: .reg Reg.MIR_RBCUR :: .twin :: .reg Reg.ECC_SEALFAIL :: .reg
      Reg.ECC_FIRSTFAIL :: logParts) fun t => t.mir.copies = [] ∧ t.mir.regionOpen = false ∧ t.marked (s.localGran
      m.cursor.toNat) = false ∧ (4, s.mir.rbRegion * 512, false) ∈ t.mir.lastCtl) ∧
    (∀ (cmd : Byte) (m : RebuildMsg), (s.link .t).up = true → (s.link .t).granted.mg ≠ 0 → s.top.trigger = none → (4,
      m.cursor.toNat, m.sess) ∈ s.mir.lastCtl → cmd = 4 → m.sess = true → s.mir.rbRole = 1 → s.mir.rb = .closing → (∀ r ∈
      s.mappedRegions, s.hasMarks r = false) → Runs s (.rebuildCtlAnswer cmd m) (.free :: .reg Reg.MAP_REJ :: .reg
      Reg.MIR_RBCUR :: transitParts) fun t => t.mir.pstate = .paired ∧ t.mir.rb = .none ∧ t.mir.rbRole = 0 ∧ (Attentive s →
      Logged 0x4052 s.mir.epoch t)) ∧
    (∀ (cmd : Byte) (m : RebuildMsg) (r : Nat), (s.link .t).up = true → (s.link .t).granted.mg ≠ 0 → s.top.trigger = none → (4,
      m.cursor.toNat, m.sess) ∈ s.mir.lastCtl → cmd = 4 → m.sess = false → r = m.cursor.toNat / 512 → s.mir.rb = .copying →
      s.mir.rbRole = 1 → s.mir.rbMode = 2 → s.mir.rbRegion = r → s.rtFailed r = false → s.mappedRegions.filter (fun x =>
      decide (r + 1 ≤ x)) = [] → Runs s (.rebuildCtlAnswer cmd m) [.links, .ord, .map, .mir, .reg Reg.ORD_FLUSHES] fun t =>
      t.rtEntry r = rtPut (s.rtEntry r) 1 0 (rtHandover (s.rtEntry r)) ∧ t.mir.rb = .closing ∧ (4, 0x7FFFFFF, true) ∈
      t.mir.lastCtl) ∧
    (s.top.trigger = none → s.mir.rb = .starting → s.mir.rbRole = 1 → s.top.state = .service → Runs s .rebuildWaitTimeout (.links
      :: .twin :: .ord :: .map :: .mir :: .sch :: .reg Reg.ORD_FWD :: .reg Reg.ORD_LINEHOLD :: .reg Reg.ORD_FLUSHES :: .reg
      Reg.MIR_CAUSE :: .reg Reg.MIR_PENDOCC :: .reg Reg.MIR_HOSTAT :: .reg Reg.MIR_HOCNT :: .reg Reg.ECC_SEALFAIL :: .reg
      Reg.ECC_FIRSTFAIL :: logParts) fun t => t.mir.pstate = .solo ∧ t.mir.rb = .none ∧ (Attentive s → Logged 0x4053 3 t)) ∧
    ((s.mir.rb ≠ .starting) → exec .rebuildWaitTimeout s = .next s) ∧
    (s.top.trigger = none → s.mir.rb = .starting → s.mir.rbRole = 2 → s.top.state = .service → s.mir.epoch ≠ 0 → s.mir.pstate ≠
      .fenced → s.outranked 6 = false → Runs s .rebuildWaitTimeout (.links :: .twin :: .ord :: .map :: .mir :: .sch :: .reg
      Reg.GLB_QUIESCE :: .reg Reg.ORD_FWD :: .reg Reg.ORD_LINEHOLD :: .reg Reg.MIR_CAUSE :: .reg Reg.MIR_PENDOCC :: .reg
      Reg.MIR_HOSTAT :: .reg Reg.MIR_HOCNT :: .reg Reg.MIR_RBCUR :: .reg Reg.ECC_SEALFAIL :: .reg Reg.ECC_FIRSTFAIL ::
      stateParts) fun t => t.mir.pstate = .fenced ∧ t.mir.rb = .none ∧ t.top =
      { s.top with state := .join, prev := .service, cause := 0x0A } ∧ (Attentive s → Logged 0x4053 3 t))

/-- Directives that commit, unknown directives and the sideband directive. For every canonical state each command answers a
next state under the conditions given, and nothing outside the parts it names (never the queue) changes. A directive whose
checks all pass is answered with status 0 and recorded in GLB_DIRSTAT. 1 Lull starts a planned Lull to the set given. 2
Quiesce stores the ports and the admission count. 3 Handover sets HANDOVER on the replica region and sends the request. 4
Solo grant takes the epoch, starts the hold and drops handovers (with none under way the map stays). 5 Rebuild start takes
the epoch: a solo hub becomes source with mode and share and sends the session start; a fenced one becomes destination
(from JOIN to SERVICE, with a link joined and no better event waiting), its unfailed regions replica FILLING in full mode,
else BEHIND unless OFFLINE. 6 Rebuild stop makes the source solo, and the destination fenced and, in SERVICE, back in
JOIN; both announce it and record 0x4053 reason 1. 7 Scrub rate stores the hours (0x5005). 9 Wall offset stores the
offset, ends the slew and counts the epoch (0xC004). 10 Rank retire starts the conversion with cause 6 to be set at its
end or, with SPARE, sets it and starts the copy (0x8020). 11 Rank readmit holds the sub-channel and starts training at
step 5. DIRECTIVE_UNKNOWN (0 or above 11) is answered with status 7. SB_DIRECTIVE 7 does as directive 7 on path 4, and
changes nothing where the sideband does not answer. Cause 6 with SPARE and the numbers taken as unknown are the model's
choices (log entry 34). Rules: R91, R192, R211, R222, R227, R258, R350, R352, R383, R492, R516, R540. -/
def Obligations.DirectivesRun : Prop :=
  ∀ s : State, s.canon →
    (∀ (h : DirHead) (arg : BitVec 64), s.commits h 1 arg = true → Runs s (.directiveLull h arg) (.links :: .ord :: .sch :: .cal
      :: .clk :: .reg Reg.CAL_ABANDONED :: .reg Reg.CLK_STAT :: logParts) fun t => DirAnswered h 1 0x00 0 t ∧ t.fld
      Fld.CLK_STAT.LULL = 1 ∧ t.clk.planned = true ∧ t.clk.target = arg.toNat % 4 ∧ (∀ n ∈ s.popSubs, (t.sub n).held = true)
      ∧ (t.fld Fld.GLB_DIRSTAT.BUSY).testBit 1 = true) ∧
    (∀ (h : DirHead) (arg : BitVec 64), s.commits h 2 arg = true → Runs s (.directiveQuiesce h arg) (.links :: .ord :: .reg
      Reg.GLB_QUIESCE :: logParts) fun t => DirAnswered h 2 0x00 0 t ∧ t.fld Fld.GLB_QUIESCE.PORTS = arg.toNat % 16 ∧ t.ord
      = { s.ord with qMark := s.ord.admNext }) ∧
    (∀ (h : DirHead) (arg : BitVec 64), s.commits h 3 arg = true → Runs s (.directiveHandover h arg) [.links, .map, .mir, .reg
      Reg.GLB_DIRSTAT] fun t => DirAnswered h 3 0x00 0 t ∧ t.rtEntry (arg.toNat % 2 ^ 18) = rtPut (s.rtEntry (arg.toNat % 2
      ^ 18)) 2 0 true ∧ t.mir.handovers = s.mir.handovers ++
      [{ region := arg.toNat % 2 ^ 18, atP := false, mtag := h.mtag }] ∧ SentOnT (mkHandover h.mtag 1 s.mir.epoch (arg.toNat
      % 2 ^ 18)) s t) ∧
    (∀ (h : DirHead) (arg : BitVec 64), s.commits h 4 arg = true → Runs s (.directiveSoloGrant h arg) (.links :: .twin :: .ord ::
      .map :: .mir :: .sch :: .reg Reg.ORD_FWD :: .reg Reg.ORD_LINEHOLD :: .reg Reg.MIR_HOSTAT :: .reg Reg.MIR_HOCNT :: .reg
      Reg.ECC_SEALFAIL :: .reg Reg.ECC_FIRSTFAIL :: logParts) fun t => DirAnswered h 4 0x00 0 t ∧ t.mir.epoch = BitVec.ofNat
      32 arg.toNat ∧ t.mir.soloGrant = true ∧ t.mir.soloConv = false ∧ t.mir.soloEnd = false ∧ t.mir.pstate = s.mir.pstate ∧
      t.mir.handovers = [] ∧ t.mir.formatDue = decide (arg.toNat / 2 ^ 32 % 2 = 1) ∧ (Attentive s → Logged 0x4013
      (BitVec.ofNat 32 arg.toNat) t) ∧ (s.mir.handovers = [] → SameBut (.links :: .twin :: .ord :: .mir :: .sch :: .reg
      Reg.ORD_FWD :: .reg Reg.ORD_LINEHOLD :: .reg Reg.ECC_SEALFAIL :: .reg Reg.ECC_FIRSTFAIL :: logParts) s t)) ∧
    (∀ (h : DirHead) (arg : BitVec 64), s.commits h 5 arg = true → s.mir.pstate = .solo → Runs s (.directiveRebuildStart h arg)
      (.links :: .twin :: .ord :: .mir :: .sch :: .reg Reg.ORD_FWD :: .reg Reg.ORD_LINEHOLD :: .reg Reg.ECC_SEALFAIL :: .reg
      Reg.ECC_FIRSTFAIL :: logParts) fun t => DirAnswered h 5 0x00 0 t ∧ t.mir.epoch = BitVec.ofNat 32 arg.toNat ∧
      t.mir.pstate = .rebuildSrc ∧ t.mir.rb = .starting ∧ t.mir.rbRole = 1 ∧ t.mir.rbMode = BitVec.ofNat 2 (arg.toNat / 2 ^
      32) ∧ t.mir.share = (if arg.toNat / 2 ^ 34 % 128 = 0 then s.fld Fld.MIR_RBCFG.SHARE else arg.toNat / 2 ^ 34 % 128) ∧
      (t.link .t).tx.getLast? = some (.msg (mkRebuild 1 0 0 t.mir.epoch (if arg.toNat / 2 ^ 32 % 4 = 1 then 0x7FFFFFF else
      0x7FFFFFE) true)) ∧ t.top = s.top) ∧
    (∀ (h : DirHead) (arg : BitVec 64), s.commits h 5 arg = true → s.mir.pstate = .fenced → s.mir.startHeld = none → Runs s
      (.directiveRebuildStart h arg) (.links :: .twin :: .ord :: .map :: .mir :: .sch :: .flt :: .cal :: .pwr :: .boot ::
      .reg Reg.GLB_DIRSTAT :: .reg Reg.GLB_QUIESCE :: .reg Reg.ORD_FWD :: .reg Reg.ORD_LINEHOLD :: .reg Reg.ECC_SEALFAIL ::
      .reg Reg.ECC_FIRSTFAIL :: stateParts) fun t => DirAnswered h 5 0x00 0 t ∧ t.mir.epoch = BitVec.ofNat 32 arg.toNat ∧
      t.mir.pstate = .rebuildDst ∧ t.mir.rb = .starting ∧ t.mir.rbRole = 2 ∧ (s.top.state = .join → s.joinLinked = true →
      s.outranked 7 = false → t.top = { s.top with state := .service, prev := .join, cause := 0x09 }) ∧ (∀ r ∈
      s.mappedRegions, s.rtFailed r = false → (t.rtEntry r = (if arg.toNat / 2 ^ 32 % 4 = 1 then rtPut (s.rtEntry r) 2 4
      false else if rtSync (s.rtEntry r) = 5 then s.rtEntry r else rtPut (s.rtEntry r) 2 2 false)))) ∧
    (∀ (h : DirHead) (arg : BitVec 64), s.commits h 6 arg = true → s.mir.pstate = .rebuildSrc → Runs s (.directiveRebuildStop h
      arg) (.links :: .twin :: .ord :: .map :: .mir :: .sch :: .reg Reg.ORD_FWD :: .reg Reg.ORD_LINEHOLD :: .reg
      Reg.ORD_FLUSHES :: .reg Reg.MIR_CAUSE :: .reg Reg.MIR_PENDOCC :: .reg Reg.MIR_HOSTAT :: .reg Reg.MIR_HOCNT :: .reg
      Reg.GLB_DIRSTAT :: .reg Reg.ECC_SEALFAIL :: .reg Reg.ECC_FIRSTFAIL :: logParts) fun t => DirAnswered h 6 0x00 0 t ∧
      t.mir.pstate = .solo ∧ t.mir.rb = .none ∧ t.mir.rbRole = 0 ∧ t.top = s.top ∧ (2, 0x7FFFFFF, true) ∈ t.mir.lastCtl ∧
      (Attentive s → Logged 0x4053 1 t)) ∧
    (∀ (h : DirHead) (arg : BitVec 64), s.commits h 6 arg = true → s.mir.pstate = .rebuildDst → s.top.state = .service →
      s.mir.epoch ≠ 0 → s.outranked 6 = false → Runs s (.directiveRebuildStop h arg) (.links :: .twin :: .ord :: .map ::
      .mir :: .sch :: .reg Reg.ORD_FWD :: .reg Reg.ORD_LINEHOLD :: .reg Reg.GLB_QUIESCE :: .reg Reg.MIR_RBCUR :: .reg
      Reg.MIR_CAUSE :: .reg Reg.MIR_PENDOCC :: .reg Reg.MIR_HOSTAT :: .reg Reg.MIR_HOCNT :: .reg Reg.GLB_DIRSTAT :: .reg
      Reg.ECC_SEALFAIL :: .reg Reg.ECC_FIRSTFAIL :: stateParts) fun t => DirAnswered h 6 0x00 0 t ∧ t.mir.pstate = .fenced ∧
      t.mir.rb = .none ∧ t.mir.rbRole = 0 ∧ t.top = { s.top with state := .join, prev := .service, cause := 0x0A } ∧ (2,
      0x7FFFFFF, true) ∈ t.mir.lastCtl ∧ (Attentive s → Logged 0x4053 1 t)) ∧
    (∀ (h : DirHead) (arg : BitVec 64), s.commits h 7 arg = true → Runs s (.directiveScrubRate h arg) (.links :: .reg
      Reg.SCH_SCRUBCFG :: .reg Reg.SCH_SCRUBINT :: logParts) fun t => DirAnswered h 7 0x00 0 t ∧ t.fld
      Fld.SCH_SCRUBCFG.HOURS = arg.toNat % 1024 ∧ (Attentive s → Logged 0x5005 (BitVec.ofNat 32 (arg.toNat % 1024)) t)) ∧
    (∀ (h : DirHead) (arg : BitVec 64), s.commits h 9 arg = true → Runs s (.directiveWallOffset h arg) (.time :: .links :: .reg
      Reg.TIM_STAT :: logParts) fun t => DirAnswered h 9 0x00 (BitVec.ofNat 32 ((s.fld Fld.TIM_STAT.OFFSET_EPOCH + 1) % 2 ^
      16)) t ∧ t.time = { s.time with offset := arg, slew := 0 } ∧ t.fld Fld.TIM_STAT.OFFSET_EPOCH = (s.fld
      Fld.TIM_STAT.OFFSET_EPOCH + 1) % 2 ^ 16 ∧ (Attentive s → LoggedFree 0xC004 t)) ∧
    (∀ (h : DirHead) (arg : BitVec 64), s.commits h 10 arg = true → arg.toNat / 256 % 2 = 0 → s.flt.sp ≠ 1 → Runs s
      (.directiveRankRetire h arg) (.links :: .twin :: .ord :: .mir :: .sch :: .flt :: .cal :: .reg Reg.GLB_DIRSTAT :: .reg
      Reg.ORD_FWD :: .reg Reg.ORD_LINEHOLD :: .reg Reg.ECC_SEALFAIL :: .reg Reg.ECC_FIRSTFAIL :: logParts) fun t =>
      DirAnswered h 10 0x00 0 t ∧ (t.rank (argRank arg.toNat)).next = 6 ∧ (t.rank (argRank arg.toNat)).cause = (s.rank
      (argRank arg.toNat)).cause ∧ t.flt.converting = s.flt.converting ++ [argRank arg.toNat]) ∧
    (∀ (h : DirHead) (arg : BitVec 64), s.commits h 10 arg = true → arg.toNat / 256 % 2 = 1 → Runs s (.directiveRankRetire h arg)
      (.links :: .ord :: .sch :: .flt :: .reg Reg.GLB_DIRSTAT :: .reg Reg.ORD_FWD :: .reg Reg.ORD_LINEHOLD :: .twin :: .mir
      :: .reg Reg.ECC_SEALFAIL :: .reg Reg.ECC_FIRSTFAIL :: logParts) fun t => DirAnswered h 10 0x00 0 t ∧ (t.rank (argRank
      arg.toNat)).cause = 6 ∧ t.flt.sp = 1 ∧ t.flt.spRank = argRank arg.toNat ∧ t.flt.copyOn = true ∧ t.flt.cursor = 0 ∧
      (Attentive s → Logged 0x8020 (BitVec.ofNat 32 (argRank arg.toNat + 6 <<< 7)) t)) ∧
    (∀ (h : DirHead) (arg : BitVec 64), s.commits h 11 arg = true → Runs s (.directiveRankReadmit h arg) [.free, .links, .sch,
      .flt, .cal, .reg Reg.GLB_DIRSTAT, .block 0x6] fun t => DirAnswered h 11 0x00 0 t ∧ t.flt.readmit = some (argRank
      arg.toNat) ∧ (t.sub (argRank arg.toNat / 2)).held = true ∧ t.flag (Fld.DPH_STAT.BUSY (argRank arg.toNat / 2)) = true ∧
      (t.training (argRank arg.toNat / 2)).step = 5 ∧ (t.training (argRank arg.toNat / 2)).rank = argRank arg.toNat % 2 ∧
      (t.fld Fld.GLB_DIRSTAT.BUSY).testBit 11 = true) ∧
    (∀ (h : DirHead) (dcode : Byte) (arg : BitVec 64), s.pathOpen (.mgt h.port h.mtag) = true → (dcode = 0 ∨ 11 < dcode.toNat) →
      Runs s (.directiveUnknown h dcode arg) [.links, .reg Reg.GLB_DIRSTAT] fun t => DirAnswered h dcode.toNat 0x07 0 t) ∧
    (∀ (dcode : Byte) (epoch : Word) (arg : BitVec 64), s.sbAnswers = true → s.mgtDirective 7 = false → s.sb.arb = [] → dcode = 7
      → arg.toNat &&& 0x3FF = arg.toNat → s.triggered = false → (s.fld Fld.GLB_DIRSTAT.BUSY).testBit 7 = false →
      (s.top.state = .join ∨ s.top.state = .service) → arg.toNat ≤ 720 → Runs s (.sbDirective dcode epoch arg) (.reg
      Reg.SCH_SCRUBCFG :: .reg Reg.SCH_SCRUBINT :: logParts) fun t => t.sb.answer = [0, 0, 0, 0, 0] ∧ t.fld
      Fld.SCH_SCRUBCFG.HOURS = arg.toNat ∧ t.fld Fld.GLB_DIRSTAT.LAST_PATH = 4 ∧ t.fld Fld.GLB_DIRSTAT.LAST_DCODE = 7 ∧
      t.fld Fld.GLB_DIRSTAT.LAST_STATUS = 0) ∧
    (∀ (dcode : Byte) (epoch : Word) (arg : BitVec 64), (s.sbAnswers = false) → exec (.sbDirective dcode epoch arg) s = .next s)

/-- Lull: entry, lock, exit requests and the minimum time in self-refresh. For every canonical state each command answers a
next state under the conditions given, and nothing outside the parts it names (never the queue) changes. LULL_ENTRY_DONE
with no alert running unlocks every delay line and shows state 2 in a planned Lull: where the target's setting is another
one, every awake trained rank is in self-refresh with its banks closed, CK stops, the MPLL is programmed and its lock is
cleared; where it is the running one, CK runs and the lock stays. In an emergency Lull every rank sleeps, CK stops and
step 3 follows. MPLL_LOCK while the MPLL is awaited and a delay line is not yet settled, on a band at most two from the
stored one or after a search, restarts CK and sets MPLL_LOCK and the band in use; a searched band is stored in the set and
the pending copy, counted and recorded as 0x900B. EXIT_REQUEST during a Lull that is not ready, entered or past its
minimum is held; a second one in the same cycle changes nothing; ready, with no line stuck, it wakes every rank of a
sub-channel whose training does not stand at step 13, shows state 0 and result 1, counts the Lull and records 0x9001; with
no Lull it is ignored, counted and recorded as 0x900A. SR_MIN_ELAPSED notes the time, and ends a ready Lull whose exit is
asked in the same way. Each stated negative case changes nothing. The codes of the Lull shown, and the lock kept where the
setting stays, are the model's choices (log entry 38). Rules: R376, R380, R384, R385, R386, R387, R390. -/
def Obligations.LullsRun : Prop :=
  ∀ s : State, s.canon →
    (s.clk.planned = true → s.clk.emerg = 0 → s.clk.entered = false → s.popSubs.any (fun n => (s.sub n).alert == 1 || (s.sub
      n).alert == 2) = false → s.setOf s.clk.target false ≠ s.clk.mpllLive → Runs s .lullEntryDone [.sch, .clk, .block 0x9]
      fun t => (∀ n ∈ s.popSubs, (t.sub n).held = true ∧ (t.sub n).banks = [] ∧ (t.sub n).sref = s.wakeful n ∧ (t.sub
      n).pins.ckBin = none) ∧ (∀ n ∈ s.popSubs, t.flag (Fld.CLK_DLL.LOCKED n) = false) ∧ t.clk.entered = true ∧
      t.clk.mpllLive = s.setOf s.clk.target false ∧ t.fld Fld.CLK_STAT.LULL = 2 ∧ t.fld Fld.CLK_STAT.TSET = s.clk.target % 4
      ∧ t.flag Fld.CLK_STAT.MPLL_LOCK = false) ∧
    ((s.lulling = false ∨ s.clk.entered = true ∨ s.popSubs.any (fun n => (s.sub n).alert == 1 || (s.sub n).alert == 2) = true) →
      exec .lullEntryDone s = .next s) ∧
    (s.clk.planned = true → s.clk.emerg = 0 → s.clk.entered = false → s.popSubs.any (fun n => (s.sub n).alert == 1 || (s.sub
      n).alert == 2) = false → s.setOf s.clk.target false = s.clk.mpllLive → Runs s .lullEntryDone [.sch, .clk, .block 0x9]
      fun t => (∀ n ∈ s.popSubs, t.flag (Fld.CLK_DLL.LOCKED n) = false) ∧ t.clk.entered = true ∧ t.fld Fld.CLK_STAT.LULL = 2
      ∧ t.flag Fld.CLK_STAT.MPLL_LOCK = s.flag Fld.CLK_STAT.MPLL_LOCK ∧ (∀ n ∈ s.popSubs, (t.sub n).pins.ckBin.isSome =
      true)) ∧
    (s.clk.emerg ≠ 0 → s.clk.entered = false → s.popSubs.any (fun n => (s.sub n).alert == 1 || (s.sub n).alert == 2) = false →
      Runs s .lullEntryDone [.sch, .clk] fun t => (∀ n ∈ s.popSubs, (t.sub n).held = true ∧ (t.sub n).banks = [] ∧ (t.sub
      n).sref = s.wakeful n ∧ (t.sub n).pins.ckBin = none) ∧ t.clk =
      { s.clk with entered := true, srDone := false, estep := 3 }) ∧
    (∀ (band : BitVec 6) (searched : Bool), s.lulling = true → s.clk.entered = true → s.flag Fld.CLK_STAT.MPLL_LOCK = false →
      (s.fld Fld.CLK_STAT.LULL = 2 ∨ s.fld Fld.CLK_STAT.LULL = 5) → s.popSubs.any (fun n => !s.dllLocked n && !s.dllStuck n)
      = true → (searched = true ∨ ((band.toNat : Int) - s.fld (Fld.CLK_TSET.BAND s.liveSet)).natAbs ≤ 2) → Runs s (.mpllLock
      band searched) (.sch :: .clk :: .block 0x9 :: logParts) fun t => (∀ n ∈ s.popSubs, (t.sub n).pins.ckBin.isSome = true)
      ∧ t.flag Fld.CLK_STAT.MPLL_LOCK = true ∧ t.clk =
      { s.clk with band := band, mpllPend := (if searched then { s.clk.mpllPend with band := band } else s.clk.mpllPend) } ∧
      (searched = true → t.fld (Fld.CLK_TSET.BAND s.liveSet) = band.toNat ∧ t.flag (Fld.CLK_TSET.BAND_VALID s.liveSet) =
      true ∧ Counted Reg.CLK_BANDSRCH s t ∧ (Attentive s → Logged 0x900B (BitVec.ofNat 32 (s.liveSet + band.toNat <<< 8))
      t)) ∧ (searched = false → t.log = s.log)) ∧
    (∀ (band : BitVec 6) (searched : Bool), (s.lulling = false ∨ s.clk.entered = false ∨ s.flag Fld.CLK_STAT.MPLL_LOCK = true) →
      exec (.mpllLock band searched) s = .next s) ∧
    (s.clk.exitSeen = false → s.lulling = true → (s.clk.ready = false ∨ s.clk.srDone = false ∨ s.clk.entered = false) → Runs s
      .exitRequest [.clk] fun t => t.clk = { s.clk with exitSeen := true, exitAsked := true }) ∧
    ((s.clk.exitSeen = true) → exec .exitRequest s = .next s) ∧
    (s.clk.exitSeen = false → s.clk.planned = true → s.clk.emerg = 0 → s.clk.entered = true → s.clk.srDone = true → s.clk.ready =
      true → s.stuckSubs = [] → Runs s .exitRequest (.free :: .links :: .twin :: .ord :: .mir :: .sch :: .cal :: .clk ::
      .reg Reg.ORD_FWD :: .reg Reg.ORD_LINEHOLD :: .block 0x6 :: .reg Reg.ECC_SEALFAIL :: .reg Reg.ECC_FIRSTFAIL :: .reg
      Reg.CLK_STAT :: .reg Reg.CLK_LULLSTAT :: .reg Reg.CLK_LULLS :: .reg Reg.CLK_LULLIGN :: logParts) fun t => (∀ n ∈
      s.popSubs, (s.training n).step ≠ 13 → (t.sub n).sref = [] ∧ (t.sub n).held = decide ((s.training n).step ≠ 0)) ∧ t.fld
      Fld.CLK_STAT.LULL = 0 ∧ Counted Reg.CLK_LULLS s t ∧ t.fld Fld.CLK_LULLSTAT.LAST_RESULT = 1 ∧ t.clk.planned = false ∧
      (Attentive s → Logged 0x9001 (BitVec.ofNat 32 s.liveSet) t) ∧ (s.popSubs.all (fun n => (s.training n).step != 13) =
      true → SameBut (.sch :: .cal :: .clk :: .reg Reg.CLK_STAT :: .reg Reg.CLK_LULLSTAT :: .reg Reg.CLK_LULLS :: logParts)
      s t)) ∧
    (s.clk.exitSeen = false → s.lulling = false → Runs s .exitRequest (.free :: .clk :: .reg Reg.CLK_LULLIGN :: logParts) fun t
      => t.clk = { s.clk with exitSeen := true } ∧ Counted Reg.CLK_LULLIGN s t ∧ (Attentive s → LoggedFree 0x900A t)) ∧
    (s.lulling = true → s.clk.entered = true → (s.clk.exitAsked = false ∨ s.clk.ready = false) → Runs s .srMinElapsed [.clk] fun
      t => t.clk = { s.clk with srDone := true }) ∧
    ((s.lulling = false ∨ s.clk.entered = false) → exec .srMinElapsed s = .next s) ∧
    (s.clk.planned = true → s.clk.emerg = 0 → s.clk.entered = true → s.clk.exitAsked = true → s.clk.ready = true → s.stuckSubs =
      [] → Runs s .srMinElapsed (.free :: .links :: .twin :: .ord :: .mir :: .sch :: .cal :: .clk :: .reg Reg.ORD_FWD ::
      .reg Reg.ORD_LINEHOLD :: .block 0x6 :: .reg Reg.ECC_SEALFAIL :: .reg Reg.ECC_FIRSTFAIL :: .reg Reg.CLK_STAT :: .reg
      Reg.CLK_LULLSTAT :: .reg Reg.CLK_LULLS :: logParts) fun t => (∀ n ∈ s.popSubs, (s.training n).step ≠ 13 → (t.sub
      n).sref = [] ∧ (t.sub n).held = decide ((s.training n).step ≠ 0)) ∧ t.fld Fld.CLK_STAT.LULL = 0 ∧ Counted
      Reg.CLK_LULLS s t ∧ t.clk.planned = false ∧ (s.popSubs.all (fun n => (s.training n).step != 13) = true → SameBut (.sch
      :: .cal :: .clk :: .reg Reg.CLK_STAT :: .reg Reg.CLK_LULLSTAT :: .reg Reg.CLK_LULLS :: logParts) s t))

/-- Delay lines: lock, loss of lock, stuck and retried. For every canonical state each command answers a next state under the
conditions given, and nothing outside the parts it names (never the queue) changes. DLL_LOCK of a populated sub-channel
with the core on, the MPLL locked and no Lull shows code, error (0x80 as 0x81) and, the error within LOCK_WIN, LOCKED,
clears STUCK, and with a spread selected starts the triangle once every line is locked; where its training does not stand
at step 13, a sub-channel that had lost lock starts the wait of Breeze, leaves self-refresh and stays held only while it
trains, and another keeps its scheduler state. DLL_LOSS_OF_LOCK of a locked line shows code and error; with the error
beyond twice LOCK_WIN it clears LOCKED, counts and records 0x9007; with no Lull, in JOIN, SERVICE, GUST or RESTORE, the
sub-channel goes to self-refresh, held, banks closed; during a Lull the Lull is no longer ready. DLL_STUCK of a line that
lost lock sets STUCK and records 0x9007 with bit 8. DLL_LOCK_RETRY during a Lull counts a retry, at most 3. Each stated
negative case changes nothing. Rules: R375, R380, R381, R384, R385. -/
def Obligations.DelayLinesRun : Prop :=
  ∀ s : State, s.canon →
    (∀ (sc : Fin 16) (code : BitVec 7) (err : Byte), s.top.coreOn = true → sc.val ∈ s.popSubs → s.flag Fld.CLK_STAT.MPLL_LOCK =
      true → s.errWithin 1 err = false → Runs s (.dllLock sc code err) [.reg (Reg.CLK_DLL sc.val)] fun t => t.fld
      (Fld.CLK_DLL.CODE sc.val) = code.toNat ∧ t.fld (Fld.CLK_DLL.ERR sc.val) = (if err = 0x80 then 0x81 else err.toNat)) ∧
    (∀ (sc : Fin 16) (code : BitVec 7) (err : Byte), s.top.coreOn = true → sc.val ∈ s.popSubs → s.flag Fld.CLK_STAT.MPLL_LOCK =
      true → s.lulling = false → s.errWithin 1 err = true → Runs s (.dllLock sc code err) [.free, .sch, .cal, .clk, .block
      0x6, .reg (Reg.CLK_DLL sc.val)] fun t => t.fld (Fld.CLK_DLL.CODE sc.val) = code.toNat ∧ t.fld (Fld.CLK_DLL.ERR sc.val)
      = (if err = 0x80 then 0x81 else err.toNat) ∧ t.flag (Fld.CLK_DLL.LOCKED sc.val) = true ∧ t.flag (Fld.CLK_DLL.STUCK
      sc.val) = false ∧ (sc.val ∈ s.clk.losing → sc.val ∉ t.clk.losing) ∧ (sc.val ∈ s.clk.losing → (s.training sc.val).step
      ≠ 13 → (t.sub sc.val).sref = [] ∧ (t.sub sc.val).held = decide ((s.training sc.val).step ≠ 0) ∧ SameBut [.sch, .clk,
      .cal, .reg (Reg.CLK_DLL sc.val)] s t) ∧ (sc.val ∉ s.clk.losing → (s.training sc.val).step ≠ 13 → t.clk =
      { s.clk with spread := t.clk.spread } ∧ SameBut [.clk, .reg (Reg.CLK_DLL sc.val)] s t) ∧ (s.popSubs.all (fun n => n ==
      sc.val || s.dllLocked n) = true → s.fld Fld.CLK_SSC.MODE ≠ 0 → s.clk.spread = none → t.clk.spread = some
      s.time.elapsed) ∧ (s.fld Fld.CLK_SSC.MODE = 0 → t.clk.spread = s.clk.spread) ∧ (sc.val ∈ s.clk.losing → ∀ q ∈
      s.cal.bar, q.1 = sc.val → (sc.val, some s.time.elapsed) ∈ t.cal.bar)) ∧
    (∀ (sc : Fin 16) (code : BitVec 7) (err : Byte), (s.top.coreOn = false ∨ sc.val ∉ s.popSubs ∨ s.flag Fld.CLK_STAT.MPLL_LOCK =
      false) → exec (.dllLock sc code err) s = .next s) ∧
    (∀ (sc : Fin 16) (code : BitVec 7) (err : Byte), sc.val ∈ s.popSubs → s.dllLocked sc.val = true → s.lulling = false →
      s.errWithin 2 err = false → (s.top.state = .join ∨ s.top.state = .service ∨ s.top.state = .gust ∨ s.top.state =
      .restore) → Runs s (.dllLossOfLock sc code err) (.ord :: .sch :: .cal :: .clk :: .reg Reg.CAL_ABANDONED :: .reg
      Reg.CLK_DLLLOSS :: .reg (Reg.CLK_DLL sc.val) :: logParts) fun t => t.fld (Fld.CLK_DLL.CODE sc.val) = code.toNat ∧
      t.fld (Fld.CLK_DLL.ERR sc.val) = (if err = 0x80 then 0x81 else err.toNat) ∧ t.flag (Fld.CLK_DLL.LOCKED sc.val) = false
      ∧ Counted Reg.CLK_DLLLOSS s t ∧ (Attentive s → Logged 0x9007 (BitVec.ofNat 32 (sc.val <<< 28)) t) ∧ sc.val ∈
      t.clk.losing ∧ (t.sub sc.val).held = true ∧ (t.sub sc.val).sref = s.wakeful sc.val ∧ (t.sub sc.val).banks = []) ∧
    (∀ (sc : Fin 16) (code : BitVec 7) (err : Byte), (sc.val ∉ s.popSubs ∨ s.dllLocked sc.val = false) → exec (.dllLossOfLock sc
      code err) s = .next s) ∧
    (∀ (sc : Fin 16) (code : BitVec 7) (err : Byte), sc.val ∈ s.popSubs → s.dllLocked sc.val = true → s.errWithin 2 err = true →
      Runs s (.dllLossOfLock sc code err) [.reg (Reg.CLK_DLL sc.val)] fun t => t.fld (Fld.CLK_DLL.CODE sc.val) = code.toNat
      ∧ t.fld (Fld.CLK_DLL.ERR sc.val) = (if err = 0x80 then 0x81 else err.toNat)) ∧
    (∀ (sc : Fin 16) (code : BitVec 7) (err : Byte), sc.val ∈ s.popSubs → s.dllLocked sc.val = true → s.lulling = true →
      s.errWithin 2 err = false → Runs s (.dllLossOfLock sc code err) (.clk :: .reg Reg.CLK_DLLLOSS :: .reg (Reg.CLK_DLL
      sc.val) :: logParts) fun t => t.fld (Fld.CLK_DLL.CODE sc.val) = code.toNat ∧ t.fld (Fld.CLK_DLL.ERR sc.val) = (if err
      = 0x80 then 0x81 else err.toNat) ∧ t.flag (Fld.CLK_DLL.LOCKED sc.val) = false ∧ Counted Reg.CLK_DLLLOSS s t ∧ t.clk =
      { s.clk with ready := false } ∧ (Attentive s → Logged 0x9007 (BitVec.ofNat 32 (sc.val <<< 28)) t)) ∧
    (∀ (sc : Fin 16), sc.val ∈ s.popSubs → s.dllLocked sc.val = false → s.dllStuck sc.val = false → sc.val ∈ s.clk.losing →
      s.lulling = false → Runs s (.dllStuck sc) (.reg (Reg.CLK_DLL sc.val) :: logParts) fun t => t.flag (Fld.CLK_DLL.STUCK
      sc.val) = true ∧ (Attentive s → Logged 0x9007 (BitVec.ofNat 32 (sc.val <<< 28 + 0x100)) t)) ∧
    (∀ (sc : Fin 16), (sc.val ∉ s.popSubs ∨ s.dllLocked sc.val = true ∨ s.dllStuck sc.val = true) → exec (.dllStuck sc) s = .next
      s) ∧
    (∀ (sc : Fin 16), sc.val ∈ s.popSubs → s.dllLocked sc.val = false → s.lulling = true → Runs s (.dllLockRetry sc) [.clk] fun t
      => Tab.get (fun _ => 0) t.clk.retries sc.val = min 3 (Tab.get (fun _ => 0) s.clk.retries sc.val + 1) ∧
      { t.clk with retries := [] } = { s.clk with retries := [] }) ∧
    (∀ (sc : Fin 16), (sc.val ∉ s.popSubs ∨ s.dllLocked sc.val = true ∨ s.lulling = false) → exec (.dllLockRetry sc) s = .next s)

/-- Reference and PLL loss: the emergency Lull. For every canonical state each command answers a next state under the
conditions given, and nothing outside the parts it names (never the queue) changes. REFCLK_LOST with the core on clears
REF_OK and counts: in TRAIN, JOIN, SERVICE or RESTORE it starts an emergency Lull of cause 1 at step 2 (0x9005, every
populated sub-channel held, both locks and spread cleared, state 4, counted), taking over a planned Lull not yet entered
with LAST_RESULT 2; in BOOT it records 0x9003 with the source left. With the core off only the missing input is noted.
PLL_LOSS_OF_LOCK there clears the PLL's lock and starts one of cause 2 (MPLL) or 3 (CPLL); an MPLL loss during one goes
back to step 3, or 2 before entry, with 0x9008, and a reference loss stays the cause until step 5. EMERGENCY_RELOCK at
step 3 locks the MPLL in a free band (log entry 38), after a search that stores it, counts and records 0x900B where a free
bit says so or the band is more than two from the stored one; it unlocks every delay line, picks the source, locks the
CPLL and: goes to step 4 with the MPLL locked; or, of cause 1 with REFCLK back, to step 5 on REFCLK with the MPLL
unlocked; after a trigger it wakes the ranks whose delay line is neither lost nor stuck and ends the Lull. REF_QUALIFIED
with the core on sets REF_OK or BYP_OK; REFCLK back at step 4 of cause 1 goes to step 5 on REFCLK; with the core off
REFCLK is noted, and SEQUENCE waiting for it with the core supply good goes to BOOT. BYPCLK_LOST clears BYP_OK; while it
is the source in an emergency, back to step 3 with the MPLL unlocked. PLL_LOCK_QUALIFIED with REF_OK at step 4 of cause 2
or 3 goes to step 5. EMERGENCY_SECOND at step 4 records 0x9005. Each stated negative case changes nothing. 0x9005 at
entry, the return to step 3 and the locks lost with the reference are the model's choices (log entry 38). Rules: R371,
R375, R387, R388, R389. -/
def Obligations.ClockLossRuns : Prop :=
  ∀ s : State, s.canon →
    (s.top.coreOn = true → ((s.top.state = .train ∨ s.top.state = .join ∨ s.top.state = .service ∨ s.top.state = .restore)) →
      s.clk.emerg = 0 → s.clk.planned = false → Runs s .refclkLost (.ord :: .sch :: .cal :: .clk :: .reg Reg.ORD_FWD :: .reg
      Reg.CAL_ABANDONED :: .reg Reg.CLK_STAT :: .reg Reg.CLK_EMERG :: .reg Reg.CLK_REFLOSS :: .links :: .twin :: .mir ::
      .reg Reg.ORD_LINEHOLD :: .reg Reg.ECC_SEALFAIL :: .reg Reg.ECC_FIRSTFAIL :: logParts) fun t => t.flag
      Fld.CLK_STAT.REF_OK = false ∧ Counted Reg.CLK_REFLOSS s t ∧ t.clk.spread = none ∧ t.flag Fld.CLK_STAT.MPLL_LOCK =
      false ∧ t.flag Fld.CLK_STAT.CPLL_LOCK = false ∧ t.clk.refIn = false ∧ (Attentive s → Logged 0x9005 1 t) ∧ t.clk.emerg
      = 1 ∧ t.clk.estep = 2 ∧ t.clk.entered = false ∧ t.fld Fld.CLK_STAT.LULL = 4 ∧ Counted Reg.CLK_EMERG s t ∧ (∀ n ∈
      s.popSubs, (t.sub n).held = true) ∧ t.clk.began = s.time.elapsed) ∧
    (s.top.coreOn = false → Runs s .refclkLost [.clk] fun t => t.clk = { s.clk with refIn := false }) ∧
    (s.top.coreOn = true → s.top.state = .boot → Runs s .refclkLost (.clk :: .reg Reg.CLK_STAT :: .reg Reg.CLK_REFLOSS ::
      logParts) fun t => t.flag Fld.CLK_STAT.REF_OK = false ∧ t.clk = { s.clk with refIn := false } ∧ Counted
      Reg.CLK_REFLOSS s t ∧ (Attentive s → Logged 0x9003 (if s.flag Fld.CLK_STAT.BYP_OK = true then 1 else 2) t)) ∧
    (s.top.coreOn = true → ((s.top.state = .train ∨ s.top.state = .join ∨ s.top.state = .service ∨ s.top.state = .restore)) →
      s.clk.emerg = 0 → s.clk.planned = true → s.clk.entered = false → Runs s .refclkLost (.links :: .twin :: .ord :: .mir
      :: .sch :: .cal :: .clk :: .reg Reg.ORD_FWD :: .reg Reg.ORD_LINEHOLD :: .reg Reg.CAL_ABANDONED :: .reg
      Reg.ECC_SEALFAIL :: .reg Reg.ECC_FIRSTFAIL :: .reg Reg.CLK_STAT :: .reg Reg.CLK_LULLSTAT :: .reg Reg.CLK_EMERG :: .reg
      Reg.CLK_REFLOSS :: logParts) fun t => t.clk.planned = false ∧ t.clk.emerg = 1 ∧ t.fld Fld.CLK_LULLSTAT.LAST_RESULT = 2
      ∧ t.fld Fld.CLK_STAT.LULL = 4) ∧
    (∀ (pll : PllName) (attempts : BitVec 2), s.top.coreOn = true → ((s.top.state = .train ∨ s.top.state = .join ∨ s.top.state =
      .service ∨ s.top.state = .restore)) → s.clk.emerg = 0 → s.clk.planned = false → pll = .mpll → Runs s (.pllLossOfLock
      pll attempts) (.ord :: .sch :: .cal :: .clk :: .reg Reg.ORD_FWD :: .reg Reg.CAL_ABANDONED :: .reg Reg.CLK_STAT :: .reg
      Reg.CLK_EMERG :: .links :: .twin :: .mir :: .reg Reg.ORD_LINEHOLD :: .reg Reg.ECC_SEALFAIL :: .reg Reg.ECC_FIRSTFAIL
      :: logParts) fun t => t.flag Fld.CLK_STAT.MPLL_LOCK = false ∧ t.clk.spread = none ∧ (Attentive s → Logged 0x9005 2 t)
      ∧ t.clk.emerg = 2 ∧ t.clk.estep = 2 ∧ t.clk.entered = false ∧ t.fld Fld.CLK_STAT.LULL = 4 ∧ Counted Reg.CLK_EMERG s t
      ∧ (∀ n ∈ s.popSubs, (t.sub n).held = true) ∧ t.clk.began = s.time.elapsed) ∧
    (∀ (pll : PllName) (attempts : BitVec 2), (s.top.coreOn = false) → exec (.pllLossOfLock pll attempts) s = .next s) ∧
    (∀ (pll : PllName) (attempts : BitVec 2), s.top.coreOn = true → ((s.top.state = .train ∨ s.top.state = .join ∨ s.top.state =
      .service ∨ s.top.state = .restore)) → s.clk.emerg = 0 → s.clk.planned = false → pll = .cpll → Runs s (.pllLossOfLock
      pll attempts) (.ord :: .sch :: .cal :: .clk :: .reg Reg.ORD_FWD :: .reg Reg.CAL_ABANDONED :: .reg Reg.CLK_STAT :: .reg
      Reg.CLK_EMERG :: .links :: .twin :: .mir :: .reg Reg.ORD_LINEHOLD :: .reg Reg.ECC_SEALFAIL :: .reg Reg.ECC_FIRSTFAIL
      :: logParts) fun t => t.flag Fld.CLK_STAT.CPLL_LOCK = false ∧ t.clk.spread = none ∧ (Attentive s → Logged 0x9005 3 t)
      ∧ t.clk.emerg = 3 ∧ t.clk.estep = 2 ∧ t.clk.entered = false ∧ t.fld Fld.CLK_STAT.LULL = 4 ∧ Counted Reg.CLK_EMERG s t
      ∧ (∀ n ∈ s.popSubs, (t.sub n).held = true) ∧ t.clk.began = s.time.elapsed) ∧
    (∀ (pll : PllName) (attempts : BitVec 2), s.top.coreOn = true → ((s.top.state = .train ∨ s.top.state = .join ∨ s.top.state =
      .service ∨ s.top.state = .restore)) → s.clk.emerg ≠ 0 → pll = .mpll → Runs s (.pllLossOfLock pll attempts) (.clk ::
      .reg Reg.CLK_STAT :: logParts) fun t => t.flag Fld.CLK_STAT.MPLL_LOCK = false ∧ (t.clk =
      { s.clk with emerg := (if s.clk.emerg = 1 ∧ s.clk.estep < 5 then 1 else 2), estep := (if s.clk.entered then 3 else 2), spread := none, ready := false })
      ∧ (Attentive s → Logged 0x9008 (BitVec.ofNat 32 s.clk.band.toNat) t)) ∧
    (s.clk.emerg ≠ 0 → s.clk.estep = 3 → s.clk.entered = true → s.top.trigger = none → (s.clk.emerg ≠ 1 ∨ s.flag
      Fld.CLK_STAT.REF_OK = false) → Runs s .emergencyRelock (.free :: .sch :: .clk :: .block 0x9 :: logParts) fun t =>
      let band := BitVec.ofNat 6 (Config.freeNat s.free); t.fld Fld.CLK_STAT.REFSRC = (if s.clk.emerg = 1 then (if s.flag
      Fld.CLK_STAT.BYP_OK = true then 1 else 2) else 0) ∧ t.flag Fld.CLK_STAT.CPLL_LOCK = true ∧ t.flag
      Fld.CLK_STAT.MPLL_LOCK = true ∧ t.clk.estep = 4 ∧ t.clk.mpllLive = s.setOf s.liveSet (s.clk.emerg = 1 && !s.flag
      Fld.CLK_STAT.BYP_OK) ∧ t.clk.band = band ∧ ((Config.freeBit s.free = true ∨ 2 < ((band.toNat : Int) - s.fld
      (Fld.CLK_TSET.BAND s.liveSet)).natAbs) → t.fld (Fld.CLK_TSET.BAND s.liveSet) = band.toNat ∧ t.flag
      (Fld.CLK_TSET.BAND_VALID s.liveSet) = true ∧ Counted Reg.CLK_BANDSRCH s t ∧ (Attentive s → Logged 0x900B (BitVec.ofNat
      32 (s.liveSet + band.toNat <<< 8)) t)) ∧ (¬ (Config.freeBit s.free = true ∨ 2 < ((band.toNat : Int) - s.fld
      (Fld.CLK_TSET.BAND s.liveSet)).natAbs) → t.log = s.log ∧ t.fld (Fld.CLK_TSET.BAND s.liveSet) = s.fld
      (Fld.CLK_TSET.BAND s.liveSet)) ∧ (∀ n ∈ s.popSubs, t.flag (Fld.CLK_DLL.LOCKED n) = false) ∧ (∀ n ∈ s.popSubs, (t.sub
      n).pins.ckBin.isSome = true)) ∧
    ((s.clk.emerg = 0 ∨ s.clk.estep ≠ 3 ∨ s.clk.entered = false) → exec .emergencyRelock s = .next s) ∧
    (s.clk.emerg = 1 → s.flag Fld.CLK_STAT.REF_OK = true → s.clk.estep = 3 → s.clk.entered = true → s.top.trigger = none → Runs s
      .emergencyRelock (.free :: .sch :: .clk :: .block 0x9 :: logParts) fun t =>
      let band := BitVec.ofNat 6 (Config.freeNat s.free); t.fld Fld.CLK_STAT.REFSRC = 0 ∧ t.flag Fld.CLK_STAT.CPLL_LOCK =
      true ∧ t.flag Fld.CLK_STAT.MPLL_LOCK = false ∧ t.clk.estep = 5 ∧ t.fld Fld.CLK_STAT.LULL = 5 ∧ t.clk.mpllLive =
      t.setOf s.liveSet false ∧ t.clk.band = BitVec.ofNat 6 (t.fld (Fld.CLK_TSET.BAND s.liveSet)) ∧ ((Config.freeBit s.free
      = true ∨ 2 < ((band.toNat : Int) - s.fld (Fld.CLK_TSET.BAND s.liveSet)).natAbs) → t.fld (Fld.CLK_TSET.BAND s.liveSet)
      = band.toNat ∧ t.flag (Fld.CLK_TSET.BAND_VALID s.liveSet) = true ∧ Counted Reg.CLK_BANDSRCH s t ∧ (Attentive s →
      Logged 0x900B (BitVec.ofNat 32 (s.liveSet + band.toNat <<< 8)) t)) ∧ (¬ (Config.freeBit s.free = true ∨ 2 <
      ((band.toNat : Int) - s.fld (Fld.CLK_TSET.BAND s.liveSet)).natAbs) → t.log = s.log ∧ t.fld (Fld.CLK_TSET.BAND
      s.liveSet) = s.fld (Fld.CLK_TSET.BAND s.liveSet)) ∧ (∀ n ∈ s.popSubs, t.flag (Fld.CLK_DLL.LOCKED n) = false)) ∧
    (s.clk.emerg ≠ 0 → s.clk.estep = 3 → s.clk.entered = true → s.top.trigger ≠ none → Runs s .emergencyRelock (.free :: .links
      :: .twin :: .ord :: .mir :: .sch :: .cal :: .clk :: .reg Reg.ORD_FWD :: .reg Reg.ORD_LINEHOLD :: .block 0x5 :: .block
      0x8 :: .block 0x9 :: logParts) fun t => t.clk.emerg = 0 ∧ t.fld Fld.CLK_STAT.LULL = 0 ∧ (∀ n ∈ s.popSubs, n ∉
      s.clk.losing → s.dllStuck n = false → (s.training n).step ≠ 13 → (t.sub n).sref = [] ∧ (t.sub n).held = decide
      ((s.training n).step ≠ 0))) ∧
    (∀ (input : RefInput), s.top.coreOn = true → input = .refclk → (s.clk.emerg ≠ 1 ∨ s.clk.estep ≠ 4) → Runs s (.refQualified
      input) [.clk, .reg Reg.CLK_STAT] fun t => t.flag Fld.CLK_STAT.REF_OK = true ∧ t.clk = { s.clk with refIn := true }) ∧
    (∀ (input : RefInput), s.top.coreOn = false → (s.pwr.bootWait = false ∨ input = .bypclk) → Runs s (.refQualified input)
      [.clk] fun t => t.clk = (if input = .refclk then { s.clk with refIn := true } else s.clk)) ∧
    (∀ (input : RefInput), s.top.coreOn = false → input = .refclk → s.pwr.bootWait = true → s.pwr.supplyOk = true → s.top.state =
      .sequence → s.outranked 7 = false → Runs s (.refQualified input) (.free :: .time :: .clk :: .pwr :: .reg Reg.CLK_STAT
      :: stateParts) fun t => t.top = { s.top with state := .boot, prev := .sequence, cause := 3, coreOn := true } ∧ t.flag
      Fld.CLK_STAT.REF_OK = true ∧ t.flag Fld.CLK_STAT.CPLL_LOCK = true ∧ t.pwr = { s.pwr with bootWait := false }) ∧
    (∀ (input : RefInput), s.top.coreOn = true → input = .bypclk → Runs s (.refQualified input) [.reg Reg.CLK_STAT] fun t =>
      t.flag Fld.CLK_STAT.BYP_OK = true) ∧
    (∀ (input : RefInput), s.top.coreOn = true → input = .refclk → s.clk.emerg = 1 → s.clk.estep = 4 → Runs s (.refQualified
      input) [.clk, .block 0x9] fun t => t.clk.refIn = true ∧ t.flag Fld.CLK_STAT.REF_OK = true ∧ t.fld Fld.CLK_STAT.REFSRC
      = 0 ∧ t.clk.estep = 5 ∧ t.fld Fld.CLK_STAT.LULL = 5 ∧ t.flag Fld.CLK_STAT.MPLL_LOCK = false ∧ t.clk.mpllLive = s.setOf
      s.liveSet false) ∧
    ((s.clk.emerg = 0 ∨ s.fld Fld.CLK_STAT.REFSRC ≠ 1) → Runs s .bypclkLost [.reg Reg.CLK_STAT] fun t => t.flag
      Fld.CLK_STAT.BYP_OK = false) ∧
    (s.clk.emerg ≠ 0 → s.fld Fld.CLK_STAT.REFSRC = 1 → Runs s .bypclkLost [.clk, .reg Reg.CLK_STAT] fun t => t.flag
      Fld.CLK_STAT.BYP_OK = false ∧ t.flag Fld.CLK_STAT.MPLL_LOCK = false ∧ t.clk =
      { s.clk with estep := 3, ready := false }) ∧
    (2 ≤ s.clk.emerg → s.clk.estep = 4 → s.flag Fld.CLK_STAT.REF_OK = true → Runs s .pllLockQualified [.clk, .block 0x9] fun t =>
      t.fld Fld.CLK_STAT.REFSRC = 0 ∧ t.clk.estep = 5 ∧ t.fld Fld.CLK_STAT.LULL = 5 ∧ t.flag Fld.CLK_STAT.MPLL_LOCK = false) ∧
    ((s.clk.emerg < 2 ∨ s.clk.estep ≠ 4 ∨ s.flag Fld.CLK_STAT.REF_OK = false) → exec .pllLockQualified s = .next s) ∧
    (s.clk.emerg ≠ 0 → s.clk.estep = 4 → Runs s .emergencySecond logParts fun t => (Attentive s → Logged 0x9005 (BitVec.ofNat 32
      s.clk.emerg) t)) ∧
    ((s.clk.emerg = 0 ∨ s.clk.estep ≠ 4) → exec .emergencySecond s = .next s)

/-- Calibration in service: evaluation, runs, steps, capture and restore. For every canonical state each command answers a
next state under the conditions given, and nothing outside the parts it names (never the queue) changes. CAL_EVAL stores
each sensor's reading for its two sub-channels, or marks it bad; in JOIN or SERVICE a sub-channel drifted past TCAL_DELTA,
or first evaluated after a Lull, has a run due or pending; elsewhere calibration stays. CAL_RUN_DUE there makes a run due
or pending. CAL_RUN_START takes the first rank of a due run, or the rank at its start, to measurement with its shadows,
asks for the ZQ start, keeps the temperature or marks its sensor bad, and marks nibbles without shadows stale.
CAL_MEASURE_DONE (with no nibble accepted before) goes to the latch, sets the segments, accepts exactly the nibbles wholly
measured and plausible, sets their targets and counts the rejected. CAL_ZQ_LATCH: skipped it goes to stepping with 0x7008;
with every debt below SOFT, the ZQ start made and no alert it holds the sub-channel, whose cycle then issues the latch and
goes to stepping; else it waits. BREEZE_STEP (rank 0 stepping alone) makes a step due for each element and pin off its
target; a role change begins its comparison, is due once DWELL bursts are compared, or is given up to be checked again
where the samplers disagree; after three waits Schedule leaves a cycle empty. SCHEDULE_CYCLE in such a cycle moves up to
ten elements one step toward the target outside a capture, swaps up to ten pins in both ranks' records, and makes the role
change (0x7006). CAL_RUN_DONE ends an applied run, takes up the other rank, counts and records 0x7001; or ends an applied
restore with its temperature, a run due and 0x7005. CAL_CAPTURE_DONE fills the window (from the live record for SRC 0).
Directive 8 that commits starts the restore from the staged record, its role changes first. Each stated negative case
changes nothing. How an unmeasured bit counts, the operands, and the restore's order are the model's choices (log entry
37). Rules: R295, R296, R298, R300, R302, R303, R304, R305, R306, R309, R312, R317. -/
def Obligations.CalibrationRuns : Prop :=
  ∀ s : State, s.canon →
    (∀ (temps : List (Option Byte)), Runs s (.calEval temps) (.cal :: .block 0x7 :: logParts) fun t => (∀ k ∈ List.range 8, ∀ x ∈
      (temps.getD k none), t.fld (Fld.CAL_TEMP.NOW (2 * k)) = x.toNat ∧ t.fld (Fld.CAL_TEMP.NOW (2 * k + 1)) = x.toNat ∧
      t.flag (Fld.CAL_TEMP.SENSOR_BAD (2 * k)) = false ∧ t.flag (Fld.CAL_TEMP.SENSOR_BAD (2 * k + 1)) = false) ∧ (∀ k ∈
      List.range 8, temps.getD k none = none → s.flag (Fld.CAL_TEMP.SENSOR_BAD (2 * k)) = false → t.flag
      (Fld.CAL_TEMP.SENSOR_BAD (2 * k)) = true ∧ t.flag (Fld.CAL_TEMP.SENSOR_BAD (2 * k + 1)) = true) ∧ ((s.top.state =
      .join ∨ s.top.state = .service) → ∀ n ∈ s.popSubs, t.flag (Fld.CAL_TEMP.SENSOR_BAD n) = false → s.fld
      Fld.CAL_CFG.TCAL_DELTA < (signed8 (t.fld (Fld.CAL_TEMP.NOW n)) - signed8 (s.fld (Fld.CAL_TEMP.LAST n))).natAbs → n ∈
      t.cal.due ∨ n ∈ t.cal.pend) ∧ ((s.top.state = .join ∨ s.top.state = .service) → ∀ n ∈ s.popSubs, n ∈ s.cal.exited → n
      ∈ t.cal.due ∨ n ∈ t.cal.pend) ∧ ((s.top.state = .join ∨ s.top.state = .service) → t.cal.exited = []) ∧ ((s.top.state ≠
      .join ∧ s.top.state ≠ .service) → t.cal = s.cal)) ∧
    (∀ (sc : Fin 16), (s.top.state = .join ∨ s.top.state = .service) → Runs s (.calRunDue sc) [.cal] fun t => (sc.val ∈ t.cal.due
      ∨ sc.val ∈ t.cal.pend) ∧ ((s.runOf sc.val).isNone = true → sc.val ∉ s.cal.due → t.cal =
      { s.cal with due := s.cal.due ++ [sc.val] })) ∧
    (∀ (sc : Fin 16), (s.top.state ≠ .join ∧ s.top.state ≠ .service) → exec (.calRunDue sc) s = .next s) ∧
    (∀ (sc : Fin 16) (temp : Option Byte) (p : Nat) (rest : List Nat), s.calRuns sc.val = true → (s.runOf sc.val).isNone = true →
      sc.val ∈ s.cal.due → s.calRanks sc.val = p :: rest → Runs s (.calRunStart sc temp) (.sch :: .cal :: .reg (Reg.CAL_TEMP
      (2 * (sc.val / 2))) :: .reg (Reg.CAL_TEMP (2 * (sc.val / 2) + 1)) :: logParts) fun t => t.run p = some
      ({ rank := p % 2, step := .measure, shadows := (List.range 40).map fun b => (s.newRun sc.val).rolesOf p b }) ∧
      t.cal.due = s.cal.due.filter (· != sc.val) ∧ (t.sub sc.val).asked = (if (s.sub sc.val).asked.contains (.zq, p % 2)
      then (s.sub sc.val).asked else (s.sub sc.val).asked ++ [(.zq, p % 2)]) ∧ (∀ x ∈ temp, t.fld (Fld.CAL_TEMP.LAST sc.val)
      = x.toNat ∧ t.fld (Fld.CAL_TEMP.NOW sc.val) = x.toNat ∧ t.fld (Fld.CAL_TEMP.NOW (2 * (sc.val / 2))) = x.toNat ∧ t.fld
      (Fld.CAL_TEMP.NOW (2 * (sc.val / 2) + 1)) = x.toNat ∧ t.flag (Fld.CAL_TEMP.SENSOR_BAD sc.val) = false) ∧ (temp = none
      → s.flag (Fld.CAL_TEMP.SENSOR_BAD (2 * (sc.val / 2))) = false → t.flag (Fld.CAL_TEMP.SENSOR_BAD (2 * (sc.val / 2))) =
      true ∧ t.flag (Fld.CAL_TEMP.SENSOR_BAD (2 * (sc.val / 2) + 1)) = true ∧ t.fld (Fld.CAL_TEMP.LAST sc.val) = s.fld
      (Fld.CAL_TEMP.LAST sc.val)) ∧ (∀ k ∈ List.range 10, recStale (t.live p) k = (recStale (s.live p) k || ((List.range
      4).any (fun i => (s.newRun sc.val).rolesOf p (4 * k + i) == {}) && decide (0x45 + 8 * k < (s.live p).length))))) ∧
    (∀ (sc : Fin 16) (temp : Option Byte), (s.calRuns sc.val = false ∨ ((s.runOf sc.val).isNone = true ∧ sc.val ∉ s.cal.due)) →
      exec (.calRunStart sc temp) s = .next s) ∧
    (∀ (sc : Fin 16) (temp : Option Byte) (p : Nat) (r : CalRun), s.calRuns sc.val = true → s.runOf sc.val = some (p, r) → p / 2
      = sc.val → r.step = .start → Runs s (.calRunStart sc temp) (.sch :: .cal :: .reg (Reg.CAL_TEMP (2 * (sc.val / 2))) ::
      .reg (Reg.CAL_TEMP (2 * (sc.val / 2) + 1)) :: logParts) fun t => t.run p = some
      ({ rank := p % 2, step := .measure, shadows := (List.range 40).map fun b => s.rolesOf p b }) ∧ t.cal.due = s.cal.due ∧
      (∀ x ∈ temp, t.fld (Fld.CAL_TEMP.LAST sc.val) = x.toNat ∧ t.fld (Fld.CAL_TEMP.NOW sc.val) = x.toNat ∧ t.fld
      (Fld.CAL_TEMP.NOW (2 * (sc.val / 2))) = x.toNat ∧ t.fld (Fld.CAL_TEMP.NOW (2 * (sc.val / 2) + 1)) = x.toNat ∧ t.flag
      (Fld.CAL_TEMP.SENSOR_BAD sc.val) = false) ∧ (temp = none → s.flag (Fld.CAL_TEMP.SENSOR_BAD (2 * (sc.val / 2))) = false
      → t.flag (Fld.CAL_TEMP.SENSOR_BAD (2 * (sc.val / 2))) = true ∧ t.flag (Fld.CAL_TEMP.SENSOR_BAD (2 * (sc.val / 2) + 1))
      = true ∧ t.fld (Fld.CAL_TEMP.LAST sc.val) = s.fld (Fld.CAL_TEMP.LAST sc.val))) ∧
    (∀ (sc : Fin 16) (temp : Option Byte), ((s.runOf sc.val).any (fun q => q.2.step != .start) = true) → exec (.calRunStart sc
      temp) s = .next s) ∧
    (∀ (sc : Fin 16) (m : CalMeas) (p : Nat) (r : CalRun), s.runOf sc.val = some (p, r) → p / 2 = sc.val → s.run p = some r →
      r.step = .measure → r.accepted = 0 → s.calRuns sc.val = true → (s.live p).length = 1020 → Runs s (.calMeasureDone sc
      m) (.free :: .cal :: .reg Reg.CAL_REJECTS :: .reg Reg.CAL_SWITCHES :: logParts) fun t => (t.run p).map (·.step) = some
      .latch ∧ (∀ i ∈ List.range 66, (t.run p).map (fun x => (elSegs i).get x.target) = some (selectSegs (m.segs.getD i
      [])).1) ∧ (∀ k ∈ List.range 10, (t.run p).map (fun x => x.accepted.testBit k) = some (s.nibbleMeasured r m k &&
      s.nibbleCheck p r m k == 0)) ∧ (∀ k ∈ List.range 10, s.nibbleMeasured r m k = true → s.nibbleCheck p r m k = 0 →
      recStale (t.live p) k = false ∧ ∀ i ∈ List.range 4, ∀ x ∈ s.nibbleResult p r m k i, (t.run p).map (fun y => ((elRdDly
      (4 * k + i)).get y.target, (elRdVref (4 * k + i)).get y.target)) = some (x.delay.toNat % 256, x.vref.toNat % 128)) ∧
      t.fld ⟨Reg.CAL_REJECTS, 31, 0⟩ = min 0xFFFFFFFF (s.fld ⟨Reg.CAL_REJECTS, 31, 0⟩ + ((List.range 10).filter fun k =>
      s.nibbleMeasured r m k && s.nibbleCheck p r m k != 0).length)) ∧
    (∀ (sc : Fin 16) (m : CalMeas), (s.runOf sc.val = none ∨ s.calRuns sc.val = false ∨ (s.runOf sc.val).any (fun q => q.2.step
      != .measure) = true) → exec (.calMeasureDone sc m) s = .next s) ∧
    (∀ (sc : Fin 16) (p : Nat) (r : CalRun), s.runOf sc.val = some (p, r) → p / 2 = sc.val → s.run p = some r → r.step = .latch →
      s.calRuns sc.val = true → Runs s (.calZqLatch sc true) (.cal :: logParts) fun t => t.run p = some
      { r with step := .stepping } ∧ (Attentive s → Logged 0x7008 (BitVec.ofNat 32 (sc.val <<< 28 + (p % 2) <<< 4)) t)) ∧
    (∀ (sc : Fin 16) (p : Nat) (r : CalRun), s.runOf sc.val = some (p, r) → p / 2 = sc.val → s.run p = some r → r.step = .latch →
      r.hold = false → s.calRuns sc.val = true → Runs s (.calZqLatch sc false) [.sch, .cal] fun t => ((s.dies.all (fun d =>
      (List.range 4).all (fun b => decide ((s.sub sc.val).debtOf (p % 2) d b < s.soft)))) = true ∧ (s.sub
      sc.val).asked.contains (.zq, p % 2) = false ∧ s.alerting sc.val = false → t.run p = some { r with hold := true } ∧
      t.latchHold sc.val = some (p, { r with hold := true })) ∧ ((s.dies.all (fun d => (List.range 4).all (fun b => decide
      ((s.sub sc.val).debtOf (p % 2) d b < s.soft)))) = false ∨ (s.sub sc.val).asked.contains (.zq, p % 2) = true ∨
      s.alerting sc.val = true → SameBut [] s t)) ∧
    (∀ (sc : Fin 16), (s.runOf sc.val = none ∨ s.calRuns sc.val = false ∨ (s.runOf sc.val).any (fun q => q.2.step != .latch ||
      q.2.hold) = true) → exec (.calZqLatch sc false) s = .next s) ∧
    (∀ (sc : Fin 16) (p : Nat) (r : CalRun) (ck : Nat), s.top.coreOn = true → (s.sub sc.val).alert ≠ 1 → (s.sub sc.val).alert ≠ 2
      → (s.sub sc.val).held = false → s.flt.ending = false → (s.sub sc.val).leave = false → s.latchHold sc.val = some (p, r)
      → p / 2 = sc.val → (((s.fillStore sc.val).probe sc.val).turn sc.val).pdxStep sc.val = none → ((((s.fillStore
      sc.val).probe sc.val).turn sc.val).sub sc.val).pd.contains (p % 2) = false → (((s.fillStore sc.val).probe sc.val).turn
      sc.val).slotFor sc.val .zqLatch { rank := p % 2 } = some ck → Runs s (.scheduleCycle sc) (.free :: .links :: .twin ::
      .ord :: .mir :: .sch :: .flt :: .cal :: .dram :: .reg Reg.ORD_FWD :: .reg Reg.ORD_LINEHOLD :: .block 0x5 :: .reg
      Reg.CAL_STEPS :: .reg Reg.CAL_SWITCHES :: .reg Reg.ECC_SEALFAIL :: .reg Reg.ECC_FIRSTFAIL :: logParts) fun t => t.run
      p = some { r with step := .stepping, hold := false } ∧ (t.sub sc.val).hist.head? = some ⟨ck, .zqLatch,
      { rank := p % 2 }, false, 0⟩) ∧
    (∀ (sc : Fin 16) (disagree : List (BitVec 6)) (r : CalRun), s.mayStep sc.val = true → s.run (2 * sc.val) = some r → r.step =
      .stepping → r.restore = false → r.todo = [] → s.run (2 * sc.val + 1) = none → (s.live (2 * sc.val)).length = 1020 →
      r.roles = [] → Runs s (.breezeStep sc disagree) [.cal] fun t => t.run (2 * sc.val) = some
      { r with compared := [], waits := 0, todo := ((measuredElements.filter fun e => e.get (s.live (2 * sc.val)) != e.get r.target).map fun e => BreezeEl.setting e.off e.bits) ++ (s.pinsDue (2 * sc.val) r).map BreezeEl.swap }
      ∧ t.cal = { s.cal with runs := t.cal.runs }) ∧
    (∀ (sc : Fin 16) (disagree : List (BitVec 6)), (s.mayStep sc.val = false) → exec (.breezeStep sc disagree) s = .next s) ∧
    (∀ (sc : Fin 16) (disagree : List (BitVec 6)) (r : CalRun) (b k : Nat), s.mayStep sc.val = true → s.run (2 * sc.val) = some r
      → r.step = .stepping → r.restore = false → r.todo = [] → s.run (2 * sc.val + 1) = none → (s.live (2 * sc.val)).length
      = 1020 → r.roles = [(b, k)] → b < 40 → (measuredElements.all fun e => e.get (s.live (2 * sc.val)) == e.get r.target) =
      true → (s.pinsDue (2 * sc.val) r) = [] → disagree.any (fun x => x.toNat == b) = false → r.compared = [] → Runs s
      (.breezeStep sc disagree) [.cal] fun t => t.run (2 * sc.val) = some
      { r with compared := [(b, r.refs)], waits := 0, todo := [] } ∧ t.cal = { s.cal with runs := t.cal.runs }) ∧
    (∀ (sc : Fin 16) (disagree : List (BitVec 6)) (r : CalRun) (b k n : Nat), s.mayStep sc.val = true → s.run (2 * sc.val) = some
      r → r.step = .stepping → r.restore = false → r.todo = [] → s.run (2 * sc.val + 1) = none → (s.live (2 *
      sc.val)).length = 1020 → r.roles = [(b, k)] → b < 40 → (measuredElements.all fun e => e.get (s.live (2 * sc.val)) ==
      e.get r.target) = true → (s.pinsDue (2 * sc.val) r) = [] → disagree.any (fun x => x.toNat == b) = false → r.compared =
      [(b, n)] → Runs s (.breezeStep sc disagree) [.cal] fun t => t.run (2 * sc.val) = some
      { r with waits := 0, todo := if n + 16 * s.fld Fld.CAL_MEAS.DWELL ≤ r.refs then [.role b k] else [] } ∧ t.cal =
      { s.cal with runs := t.cal.runs }) ∧
    (∀ (sc : Fin 16) (disagree : List (BitVec 6)) (r : CalRun) (b k : Nat), s.mayStep sc.val = true → s.run (2 * sc.val) = some r
      → r.step = .stepping → r.restore = false → r.todo = [] → s.run (2 * sc.val + 1) = none → (s.live (2 * sc.val)).length
      = 1020 → r.roles = [(b, k)] → b < 40 → (measuredElements.all fun e => e.get (s.live (2 * sc.val)) == e.get r.target) =
      true → (s.pinsDue (2 * sc.val) r) = [] → disagree.any (fun x => x.toNat == b) = true → Runs s (.breezeStep sc
      disagree) [.cal] fun t => t.run (2 * sc.val) = some { r with compared := [], waits := 0, roles := [], todo := [] } ∧
      t.live (2 * sc.val) = s.live (2 * sc.val) ∧ Tab.get (fun _ => none) t.cal.again (40 * sc.val + b) = some k) ∧
    (∀ (sc : Fin 16) (disagree : List (BitVec 6)) (r : CalRun), s.mayStep sc.val = true → s.run (2 * sc.val) = some r → r.step =
      .stepping → r.todo ≠ [] → 3 ≤ r.waits → Runs s (.breezeStep sc disagree) [.sch, .cal] fun t => (t.sub sc.val).leave =
      true ∧ (t.run (2 * sc.val)).map (·.waits) = some (r.waits + 1)) ∧
    (∀ (sc : Fin 16) (r : CalRun), s.top.coreOn = true → (s.sub sc.val).leave = true → s.flt.ending = false → s.mayStep sc.val =
      true → s.run (2 * sc.val) = some r → r.step = .stepping → r.restore = false → s.run (2 * sc.val + 1) = none → (s.live
      (2 * sc.val)).length = 1020 → r.todo = (measuredElements.filter fun e => e.get (s.live (2 * sc.val)) != e.get
      r.target).map (fun e => BreezeEl.setting e.off e.bits) → s.capturing sc.val = false → Runs s (.scheduleCycle sc)
      (.free :: .links :: .twin :: .ord :: .mir :: .sch :: .flt :: .cal :: .dram :: .reg Reg.ORD_FWD :: .reg
      Reg.ORD_LINEHOLD :: .block 0x5 :: .reg Reg.CAL_STEPS :: .reg Reg.CAL_SWITCHES :: .reg Reg.ECC_SEALFAIL :: .reg
      Reg.ECC_FIRSTFAIL :: logParts) fun t => t.run (2 * sc.val) = some
      { r with todo := ((measuredElements.filter fun e => e.get (s.live (2 * sc.val)) != e.get r.target).drop 10).map fun e => BreezeEl.setting e.off e.bits }
      ∧ (∀ e ∈ measuredElements, e.get (t.live (2 * sc.val)) = if e ∈ (measuredElements.filter fun e => e.get (s.live (2 *
      sc.val)) != e.get r.target).take 10 then stepToward (e.get (s.live (2 * sc.val))) (e.get r.target) else e.get (s.live
      (2 * sc.val))) ∧ t.fld ⟨Reg.CAL_STEPS, 31, 0⟩ = min 0xFFFFFFFF (s.fld ⟨Reg.CAL_STEPS, 31, 0⟩ +
      ((measuredElements.filter fun e => e.get (s.live (2 * sc.val)) != e.get r.target).take 10).length) ∧ (t.sub
      sc.val).hist = (s.sub sc.val).hist ∧ (t.sub sc.val).leave = false) ∧
    (∀ (sc : Fin 16) (r : CalRun), s.top.coreOn = true → (s.sub sc.val).leave = true → s.flt.ending = false → s.mayStep sc.val =
      true → s.run (2 * sc.val) = some r → r.step = .stepping → r.restore = false → s.run (2 * sc.val + 1) = none → (s.live
      (2 * sc.val)).length = 1020 → r.todo = (measuredElements.filter fun e => e.get (s.live (2 * sc.val)) != e.get
      r.target).map (fun e => BreezeEl.setting e.off e.bits) → s.capturing sc.val = true → Runs s (.scheduleCycle sc) (.free
      :: .links :: .twin :: .ord :: .mir :: .sch :: .flt :: .cal :: .dram :: .reg Reg.ORD_FWD :: .reg Reg.ORD_LINEHOLD ::
      .block 0x5 :: .reg Reg.CAL_STEPS :: .reg Reg.CAL_SWITCHES :: .reg Reg.ECC_SEALFAIL :: .reg Reg.ECC_FIRSTFAIL ::
      logParts) fun t => t.run (2 * sc.val) = some r ∧ t.live (2 * sc.val) = s.live (2 * sc.val)) ∧
    (∀ (sc : Fin 16) (r : CalRun) (l : List Nat), s.top.coreOn = true → (s.sub sc.val).leave = true → s.flt.ending = false →
      s.mayStep sc.val = true → s.run (2 * sc.val) = some r → r.step = .stepping → r.restore = false → s.run (2 * sc.val +
      1) = none → (s.live (2 * sc.val)).length = 1020 → r.todo = l.map BreezeEl.swap → l.length ≤ 10 → l.all (fun i =>
      decide (i < 50)) = true → l.Nodup → s.capturing sc.val = false → s.bursting sc.val .wr (s.tp sc.val 1) = false →
      (s.live (2 * sc.val + 1) = [] ∨ (s.live (2 * sc.val + 1)).length = 1020) → Runs s (.scheduleCycle sc) (.free :: .links
      :: .twin :: .ord :: .mir :: .sch :: .flt :: .cal :: .dram :: .reg Reg.ORD_FWD :: .reg Reg.ORD_LINEHOLD :: .block 0x5
      :: .reg Reg.CAL_STEPS :: .reg Reg.CAL_SWITCHES :: .reg Reg.ECC_SEALFAIL :: .reg Reg.ECC_FIRSTFAIL :: logParts) fun t
      => t.run (2 * sc.val) = some { r with todo := [] } ∧ (∀ i ∈ List.range 66, (elSegs i).get (t.live (2 * sc.val)) = (if
      i ∈ l then swapToward ((elSegs i).get (s.live (2 * sc.val))) ((elSegs i).get r.target) else (elSegs i).get (s.live (2
      * sc.val)))) ∧ (∀ i ∈ List.range 66, i ∈ l → s.live (2 * sc.val + 1) ≠ [] → (elSegs i).get (t.live (2 * sc.val + 1)) =
      (elSegs i).get (t.live (2 * sc.val))) ∧ t.fld ⟨Reg.CAL_SWITCHES, 31, 0⟩ = min 0xFFFFFFFF (s.fld ⟨Reg.CAL_SWITCHES, 31,
      0⟩ + l.length) ∧ t.fld ⟨Reg.CAL_STEPS, 31, 0⟩ = min 0xFFFFFFFF (s.fld ⟨Reg.CAL_STEPS, 31, 0⟩ + l.length)) ∧
    (∀ (sc : Fin 16) (r : CalRun) (b k : Nat), s.top.coreOn = true → (s.sub sc.val).leave = true → s.flt.ending = false →
      s.mayStep sc.val = true → s.run (2 * sc.val) = some r → r.step = .stepping → r.restore = false → s.run (2 * sc.val +
      1) = none → (s.live (2 * sc.val)).length = 1020 → r.todo = [.role b k] → b < 40 → k < 4 → s.capturing sc.val = false →
      Runs s (.scheduleCycle sc) (.free :: .links :: .twin :: .ord :: .mir :: .sch :: .flt :: .cal :: .dram :: .reg
      Reg.ORD_FWD :: .reg Reg.ORD_LINEHOLD :: .block 0x5 :: .reg Reg.CAL_STEPS :: .reg Reg.CAL_SWITCHES :: .reg
      Reg.ECC_SEALFAIL :: .reg Reg.ECC_FIRSTFAIL :: logParts) fun t => (t.run (2 * sc.val)).map (·.roles) = some
      (r.roles.filter (fun q => q.1 != b)) ∧ recDataS (t.live (2 * sc.val)) b = k ∧ Counted Reg.CAL_SWITCHES s t ∧ Counted
      Reg.CAL_STEPS s t ∧ (Attentive s → LoggedFree 0x7006 t)) ∧
    (∀ (sc : Fin 16) (r : CalRun), s.top.trigger = none → s.run (2 * sc.val) = some r → s.applied (2 * sc.val) r = true →
      r.restore = false → Runs s (.calRunDone sc) (.free :: .ord :: .sch :: .cal :: .reg Reg.ORD_FWD :: .reg
      Reg.ORD_LINEHOLD :: .reg (Reg.DPH_WORST sc.val) :: .reg Reg.CAL_RUNS :: .links :: .twin :: .mir :: .reg
      Reg.ECC_SEALFAIL :: .reg Reg.ECC_FIRSTFAIL :: logParts) fun t => t.run (2 * sc.val) = none ∧ (((s.rank (2 * sc.val +
      1)).trained && !s.gone (2 * sc.val + 1) && s.live (2 * sc.val + 1) != [] && (s.run (2 * sc.val + 1)).isNone) = true →
      t.run (2 * sc.val + 1) = some { rank := 1 }) ∧ ((s.live (2 * sc.val)).length = 1020 → recWord (t.live (2 * sc.val)) 6
      = min 0xFFFF (recWord (s.live (2 * sc.val)) 6 + 1)) ∧ Counted Reg.CAL_RUNS s t ∧ (Attentive s → Logged 0x7001
      (BitVec.ofNat 32 (sc.val <<< 28 + r.accepted <<< 8)) t)) ∧
    (∀ (sc : Fin 16), ((List.range 2).all (fun i => (s.run (2 * sc.val + i)).all fun x => !s.applied (2 * sc.val + i) x) = true)
      → exec (.calRunDone sc) s = .next s) ∧
    (∀ (sc : Fin 16) (r : CalRun), s.top.trigger = none → s.run (2 * sc.val) = some r → s.applied (2 * sc.val) r = true →
      r.restore = true → ((s.fld Fld.GLB_DIRSTAT.BUSY).testBit 8 = true ∧ s.flag Fld.GLB_DIRSTAT.BUSY = true) → Runs s
      (.calRunDone sc) (.free :: .ord :: .sch :: .cal :: .reg Reg.ORD_FWD :: .reg Reg.ORD_LINEHOLD :: .reg (Reg.DPH_WORST
      sc.val) :: .reg (Reg.CAL_TEMP sc.val) :: .links :: .twin :: .mir :: .reg Reg.ECC_SEALFAIL :: .reg Reg.ECC_FIRSTFAIL ::
      logParts) fun t => t.run (2 * sc.val) = none ∧ t.fld (Fld.CAL_TEMP.LAST sc.val) = (r.target.getD 0x10 0).toNat ∧
      (sc.val ∈ t.cal.due ∨ sc.val ∈ t.cal.pend) ∧ (Attentive s → Logged 0x7005 (BitVec.ofNat 32 (sc.val <<< 28)) t)) ∧
    (s.cal.capturing = true → Runs s .calCaptureDone [.cal, .reg Reg.CAL_RECSEL] fun t => t.cal.capturing = false ∧ t.flag
      Fld.CAL_RECSEL.READY = true ∧
      (s.fld Fld.CAL_RECSEL.SRC = 0 → t.cal.window = (let p := 2 * s.fld Fld.CAL_RECSEL.SC + s.fld Fld.CAL_RECSEL.RANK; if s.live p = [] then [] else recBytes (s.live p)))) ∧
    ((s.cal.capturing = false) → exec .calCaptureDone s = .next s) ∧
    (∀ (h : DirHead) (arg : BitVec 64), s.commits h 8 arg = true → Runs s (.directiveCalRestore h arg) (.links :: .ord :: .sch ::
      .cal :: .reg Reg.CAL_ABANDONED :: logParts) fun t => DirAnswered h 8 0x00 0 t ∧ t.run (argRank arg.toNat) = some
      { rank := argRank arg.toNat % 2, step := .stepping, restore := true, target := s.staged.take 1020, roles := (List.range 40).filterMap (fun i => if recDataS s.staged i = recDataS (s.live (argRank arg.toNat)) i then none else some (i, recDataS s.staged i)) }
      ∧ (t.fld Fld.GLB_DIRSTAT.BUSY).testBit 8 = true)

/-- Time beacons, holdover, SYNC_IN, the timebase copy and the sensors. For every canonical state each command answers a next
state under the conditions given, and nothing outside the parts it names (never the queue) changes. TIME_BEACON of the
current offset epoch on the only masked port in SERVICE is applied: it counts, TIM_LASTERR and the error are TIME_NS less
the reference (6 ns before now, or the SYNC_IN edge it pairs, the newest of the last three within 1.1 s and not yet
paired, which is then used up) less the offset; over 1 ms ahead the timebase steps by the error, the slew ends and the
step counts; otherwise the timebase stays and the slew is a tenth of the error, clamped to 200 ppm. Of another epoch it
only counts in TIM_BEACONIGN. HOLDOVER_START after an applied beacon sets holdover, ends the slew and records 0xC002.
SYNC_IN_EDGE with SYNC_EN and no edge in the last 500 ms is taken, free to be paired, and counted. TIMEBASE_BIT20_CHANGE
copies the high bits into the VBAT file. SENSOR_OVERTEMP above 150 from a good sensor records 0x0008; SENSOR_COOL records
0x0009. Each stated negative case changes nothing. Floor division and 0.01 ppm units, and the unsigned reading, are the
model's choices (log entries 12 and 13). Rules: R491, R493, R494, R495, R496, R497, R498, R522, R523. -/
def Obligations.TimeRuns : Prop :=
  ∀ s : State, s.canon →
    (∀ (p : Port) (sync : Bool) (offsetEpoch : BitVec 16) (timeNs : BitVec 64), p ≠ .t → (s.link p).lstate = .service →
      offsetEpoch.toNat = s.fld Fld.TIM_STAT.OFFSET_EPOCH → (s.fld Fld.TIM_CFG.PORTMASK).testBit p.idx = true → uPorts.all
      (fun q => q == p || !((s.fld Fld.TIM_CFG.PORTMASK).testBit q.idx && (s.link q).lstate == .service)) = true → sync =
      false → s.time.lastTime ≠ timeNs.toNat → Runs s (.timeBeacon p sync offsetEpoch timeNs) (.free :: .time :: .reg
      Reg.TIM_STAT :: .reg Reg.TIM_LASTERR :: .reg Reg.TIM_BEACONS :: .reg Reg.TIM_BEACONIGN :: .reg Reg.TIM_STEPS ::
      logParts) fun t => Counted Reg.TIM_BEACONS s t ∧ t.reg Reg.TIM_LASTERR = satWord ((timeNs.toNat : Int) - (((s.nowNs -
      6 : Nat) : Int) + s.time.offset.toInt)) ∧ t.time.lastTime = timeNs.toNat ∧ t.time.ePrev = (timeNs.toNat : Int) -
      (((s.nowNs - 6 : Nat) : Int) + s.time.offset.toInt) ∧ t.time.prevApplied = true ∧ t.time.holdover = false ∧
      t.time.lastPaired = false ∧ t.time.lastApplied = t.nowNs ∧ t.time.syncFree = s.time.syncFree ∧ (1000000 <
      (timeNs.toNat : Int) - (((s.nowNs - 6 : Nat) : Int) + s.time.offset.toInt) → t.nowNs = s.nowNs + ((timeNs.toNat : Int)
      - (((s.nowNs - 6 : Nat) : Int) + s.time.offset.toInt)).toNat ∧ t.time.slew = 0 ∧ Counted Reg.TIM_STEPS s t) ∧
      ((timeNs.toNat : Int) - (((s.nowNs - 6 : Nat) : Int) + s.time.offset.toInt) ≤ 1000000 → t.time.tb = s.time.tb ∧
      t.time.slew = clampInt (-20000) 20000 (((timeNs.toNat : Int) - (((s.nowNs - 6 : Nat) : Int) + s.time.offset.toInt)) /
      10))) ∧
    (∀ (p : Port) (sync : Bool) (offsetEpoch : BitVec 16) (timeNs : BitVec 64), (p = .t ∨ (s.link p).lstate ≠ .service) → exec
      (.timeBeacon p sync offsetEpoch timeNs) s = .next s) ∧
    (∀ (p : Port) (sync : Bool) (offsetEpoch : BitVec 16) (timeNs : BitVec 64) (m : Nat), p ≠ .t → (s.link p).lstate = .service →
      offsetEpoch.toNat = s.fld Fld.TIM_STAT.OFFSET_EPOCH → (s.fld Fld.TIM_CFG.PORTMASK).testBit p.idx = true → uPorts.all
      (fun q => q == p || !((s.fld Fld.TIM_CFG.PORTMASK).testBit q.idx && (s.link q).lstate == .service)) = true → sync =
      true → s.time.syncFree.find? (fun x => decide (s.nowNs ≤ x + 1100000000)) = some m → s.time.lastTime ≠ timeNs.toNat →
      Runs s (.timeBeacon p sync offsetEpoch timeNs) (.free :: .time :: .reg Reg.TIM_STAT :: .reg Reg.TIM_LASTERR :: .reg
      Reg.TIM_BEACONS :: .reg Reg.TIM_BEACONIGN :: .reg Reg.TIM_STEPS :: logParts) fun t => Counted Reg.TIM_BEACONS s t ∧
      t.reg Reg.TIM_LASTERR = satWord ((timeNs.toNat : Int) - ((m : Int) + s.time.offset.toInt)) ∧ t.time.lastTime =
      timeNs.toNat ∧ t.time.ePrev = (timeNs.toNat : Int) - ((m : Int) + s.time.offset.toInt) ∧ t.time.prevApplied = true ∧
      t.time.holdover = false ∧ t.time.lastPaired = true ∧ t.time.lastApplied = t.nowNs ∧ t.time.syncFree =
      s.time.syncFree.erase m ∧ (1000000 < (timeNs.toNat : Int) - ((m : Int) + s.time.offset.toInt) → t.nowNs = s.nowNs +
      ((timeNs.toNat : Int) - ((m : Int) + s.time.offset.toInt)).toNat ∧ t.time.slew = 0 ∧ Counted Reg.TIM_STEPS s t) ∧
      ((timeNs.toNat : Int) - ((m : Int) + s.time.offset.toInt) ≤ 1000000 → t.time.tb = s.time.tb ∧ t.time.slew = clampInt
      (-20000) 20000 (((timeNs.toNat : Int) - ((m : Int) + s.time.offset.toInt)) / 10))) ∧
    (∀ (p : Port) (sync : Bool) (offsetEpoch : BitVec 16) (timeNs : BitVec 64), p ≠ .t → (s.link p).lstate = .service →
      offsetEpoch.toNat ≠ s.fld Fld.TIM_STAT.OFFSET_EPOCH → Runs s (.timeBeacon p sync offsetEpoch timeNs) [.reg
      Reg.TIM_BEACONIGN] fun t => Counted Reg.TIM_BEACONIGN s t) ∧
    (s.top.aonOn = true → s.time.prevApplied = true → s.time.holdover = false → Runs s .holdoverStart (.time :: .reg Reg.TIM_STAT
      :: logParts) fun t => t.time = { s.time with holdover := true, slew := 0 } ∧ (Attentive s → Logged 0xC002 (if
      s.mgTicks = true then 4 else 5) t)) ∧
    ((s.top.aonOn = false ∨ s.time.prevApplied = false ∨ s.time.holdover = true) → exec .holdoverStart s = .next s) ∧
    (s.top.aonOn = true → s.flag Fld.TIM_CFG.SYNC_EN = true → s.time.syncEdge.all (fun x => decide (x + 500000000 ≤ s.nowNs)) =
      true → Runs s .syncInEdge [.time, .reg Reg.TIM_SYNCEDGES] fun t => t.time =
      { s.time with syncEdge := some s.nowNs, syncFree := (s.nowNs :: s.time.syncFree).take 3 } ∧ Counted Reg.TIM_SYNCEDGES
      s t) ∧
    ((s.top.aonOn = false ∨ s.flag Fld.TIM_CFG.SYNC_EN = false) → exec .syncInEdge s = .next s) ∧
    (s.top.aonOn = true → s.vbat.on = true → Runs s .timebaseBit20Change [.vbat] fun t => t.vbat =
      { s.vbat with tbHigh := s.time.tb >>> 52 }) ∧
    ((s.top.aonOn = false ∨ s.vbat.on = false) → exec .timebaseBit20Change s = .next s) ∧
    (∀ (sensor : Fin 8) (reading : Byte), s.top.coreOn = true → 150 < reading.toNat → s.flag (Fld.CAL_TEMP.SENSOR_BAD (2 *
      sensor.val)) = false → Runs s (.sensorOvertemp sensor reading) logParts fun t => (Attentive s → Logged 0x0008
      (BitVec.ofNat 32 (sensor.val + reading.toNat <<< 8)) t)) ∧
    (∀ (sensor : Fin 8) (reading : Byte), (s.top.coreOn = false ∨ reading.toNat ≤ 150) → exec (.sensorOvertemp sensor reading) s
      = .next s) ∧
    (s.top.coreOn = true → Runs s .sensorCool logParts fun t => (Attentive s → Logged 0x0009 0 t)) ∧
    ((s.top.coreOn = false) → exec .sensorCool s = .next s)

/-- Events, Squall, the log writer and the watchdog. For every canonical state each command answers a next state under the
conditions given, and nothing outside the parts it names (never the queue) changes. An event captured with the ring
attentive stands newest with its code, time quality, sequence number, stamp, offset epoch and data, and counts in
LOG_CAPTURED (codes that end no interval); in Squall a plain code already seen counts as coalesced and the ring stays.
SQUALL_WINDOW_END with an empty table and at most 256 entries ends Squall with 0xD002; with one coalesced code and more
entries it writes that code's summary and Squall goes on. LOG_PROGRAM_DONE of one waiting entry in a blank slot writes its
64-byte record with the next LSN, moves pointer and slot, and takes the entry; if it fails in the last slot of a page the
slot becomes a skip mark, counted, and the LSN stays. WATCHDOG_EXPIRY counts and ends the core's keys, cipher and flash
operations and burns, and clears the cipher input; while the core boots it boots again, counted in CORERST, and at the
third, not outranked, goes to BOOT_HOLD with cause 5, hold 6; later a release check under way is answered with result 2
and no longer busy, and an unusable flash leaves 0xD010 as the record. It changes no mailbox register while the boot or no
check runs. LOG_WDTKICK, at once at the register arbiter, restarts the watchdog. With the AON or core domain off, no
Squall or no writer they change nothing. The pages and skip marks are the model's choices (log entry 14), as is
LOG_CAPTURED's count (log entry 16). Rules: R460, R499, R500, R501, R502, R504, R505, R506, R509, R510, R512. -/
def Obligations.EventsAndLogRun : Prop :=
  ∀ s : State, s.canon →
    (∀ (code : BitVec 16) (data : Word), Attentive s → [0, 1, 2].all (fun k => intervalOf code != .stop k) = true → Runs s
      (.eventCapture code data) logParts fun t => t.log.ring.getLast? = some
      { code := code, seqLow := !s.log.raised, tq := s.quality, seq := s.log.nextSeq, stamp := s.stamp, epoch := BitVec.ofNat 16 (s.fld Fld.TIM_STAT.OFFSET_EPOCH), data := data, count := 0 }
      ∧ t.log.nextSeq = s.log.nextSeq + 1 ∧ Counted Reg.LOG_CAPTURED s t) ∧
    (∀ (code : BitVec 16) (data : Word), (s.top.aonOn = false) → exec (.eventCapture code data) s = .next s) ∧
    (∀ (code : BitVec 16) (data : Word), s.top.aonOn = true → s.log.squall = true → code ∈ s.log.seen → mayUseLast code = false →
      intervalOf code = .plain → endsDir code = none → Runs s (.eventCapture code data) logParts fun t => Counted
      Reg.LOG_COALESCED s t ∧ Counted Reg.LOG_CAPTURED s t ∧ t.log.nextSeq = s.log.nextSeq + 1 ∧ t.log.ring = s.log.ring) ∧
    (s.log.squall = true → s.top.aonOn = true → s.log.table = [] → s.log.ring.length ≤ 256 → Runs s .squallWindowEnd logParts fun
      t => t.log.squall = false ∧ t.log.table = [] ∧ t.log.ring.getLast?.map (·.code) = some 0xD002) ∧
    ((s.log.squall = false) → exec .squallWindowEnd s = .next s) ∧
    (∀ (c : Coalesced), s.log.squall = true → s.log.table = [c] → 256 < s.log.ring.length → s.log.ring.length < 700 → s.log.rdLog
      = 0 → Runs s .squallWindowEnd logParts fun t => t.log.squall = true ∧ t.log.table = [] ∧ t.log.ring.getLast? = some
      { c.last with summary := true, count := BitVec.ofNat 32 c.count, fullLost := c.fullLost }) ∧
    (∀ (verified : Bool) (e : RingEntry), verified = true → s.logWrites = true → s.log.late = [] → s.log.ring.drop s.log.rdLog =
      [e] → s.log.slot % 64 ≠ 63 → s.log.slot < logSlots → s.blank (logAddr s.log.slot) 64 = true → Runs s (.logProgramDone
      verified) [.log, .flash, .reg Reg.LOG_LSN, .reg Reg.LOG_PTR] fun t => (∀ i ∈ List.range 64, t.flashByte (logAddr
      s.log.slot + i) = (recordBytes (s.reg Reg.LOG_LSN + 1) e (s.extraOf e.code)).getD i 0) ∧ t.reg Reg.LOG_LSN = s.reg
      Reg.LOG_LSN + 1 ∧ t.reg Reg.LOG_PTR = BitVec.ofNat 32 (logAddr s.log.slot) ∧ t.log.slot = s.log.slot + 1 ∧
      t.log.ring.drop t.log.rdLog = []) ∧
    (∀ (verified : Bool), (s.logWrites = false ∧ (s.top.trigger = none ∨ s.log.going = 0)) → exec (.logProgramDone verified) s =
      .next s) ∧
    (∀ (verified : Bool) (e : RingEntry), verified = false → s.logWrites = true → s.log.late = [] → s.log.ring.drop s.log.rdLog =
      [e] → s.log.slot % 64 ≠ 63 → s.log.slot < logSlots → s.blank (logAddr s.log.slot) 64 = true → s.log.slot % 4 = 3 →
      Runs s (.logProgramDone verified) (.flash :: .reg Reg.LOG_SKIPS :: logParts) fun t => (∀ i ∈ List.range 64,
      t.flashByte (logAddr s.log.slot + i) = 0) ∧ Counted Reg.LOG_SKIPS s t ∧ t.reg Reg.LOG_LSN = s.reg Reg.LOG_LSN ∧
      t.log.slot = s.log.slot + 1) ∧
    (s.top.coreOn = true → s.bootRuns = true → s.fld Fld.MGT_BOOTSTAT.CORERST < 2 → Runs s .watchdogExpiry [.free, .log, .sb,
      .boot, .flash, .regs] fun t => Counted Reg.LOG_WDT s t ∧ t.boot.keys = [] ∧ t.boot.ciph = none ∧ t.boot.flCmd = none ∧
      t.boot.burn = [] ∧ t.flag Fld.MGT_ROLLBACK.BURNING = false ∧ (∀ j ∈ List.range 4, t.reg (Reg.MGT_CIPHIN j) = 0) ∧
      t.fld Fld.MGT_BOOTSTAT.CORERST = s.fld Fld.MGT_BOOTSTAT.CORERST + 1 ∧ t.boot.again = true ∧ t.boot.stage8 = false ∧
      RegsBut mailboxReg [Reg.GLB_EVENT, Reg.GLB_DIRSTAT, Reg.MGT_BOOTSTAT, Reg.MGT_ROLLBACK, Reg.LOG_RINGSTAT,
      Reg.LOG_CAPTURED, Reg.LOG_COALESCED, Reg.LOG_LOST, Reg.LOG_ORPHANS, Reg.LOG_SQUALLS, Reg.LOG_WDT] s t) ∧
    ((s.top.coreOn = false) → exec .watchdogExpiry s = .next s) ∧
    (s.top.coreOn = true → s.bootRuns = true → 2 ≤ s.fld Fld.MGT_BOOTSTAT.CORERST → s.outranked 7 = false → Runs s
      .watchdogExpiry [.rx, .free, .top, .time, .log, .sb, .links, .twin, .ord, .map, .mir, .sch, .vbat, .gust, .boot,
      .flash, .regs] fun t => Counted Reg.LOG_WDT s t ∧ t.boot.keys = [] ∧ t.boot.ciph = none ∧ t.boot.flCmd = none ∧
      t.boot.burn = [] ∧ t.flag Fld.MGT_ROLLBACK.BURNING = false ∧ (∀ j ∈ List.range 4, t.reg (Reg.MGT_CIPHIN j) = 0) ∧
      t.fld Fld.MGT_BOOTSTAT.CORERST = 3 ∧ t.top = { s.top with state := .bootHold, prev := s.top.state, cause := 0x05 } ∧
      t.fld Fld.MGT_BOOTSTAT.HOLD_CAUSE = 6) ∧
    (s.top.coreOn = true → s.bootRuns = false → s.boot.check = none → Runs s .watchdogExpiry [.free, .time, .log, .sb, .vbat,
      .boot, .flash, .regs] fun t => Counted Reg.LOG_WDT s t ∧ t.boot.keys = [] ∧ t.boot.ciph = none ∧ t.boot.flCmd = none ∧
      t.boot.burn = [] ∧ t.flag Fld.MGT_ROLLBACK.BURNING = false ∧ (∀ j ∈ List.range 4, t.reg (Reg.MGT_CIPHIN j) = 0) ∧
      t.boot.check = none ∧ (s.boot.flash = .unusable → Attentive s → Logged 0xD010 (BitVec.ofNat 32 s.top.state.code) t) ∧
      RegsBut mailboxReg [Reg.GLB_EVENT, Reg.GLB_DIRSTAT, Reg.MGT_BOOTSTAT, Reg.MGT_ROLLBACK, Reg.LOG_RINGSTAT,
      Reg.LOG_CAPTURED, Reg.LOG_COALESCED, Reg.LOG_LOST, Reg.LOG_ORPHANS, Reg.LOG_SQUALLS, Reg.LOG_WDT, Reg.LOG_PTR,
      Reg.LOG_LSN] s t) ∧
    (s.top.coreOn = true → s.bootRuns = false → s.boot.check ≠ none → Runs s .watchdogExpiry [.rx, .free, .top, .time, .log, .sb,
      .links, .twin, .ord, .map, .mir, .sch, .vbat, .boot, .flash, .regs] fun t => Counted Reg.LOG_WDT s t ∧ t.boot.keys =
      [] ∧ t.boot.ciph = none ∧ t.boot.flCmd = none ∧ t.boot.burn = [] ∧ t.flag Fld.MGT_ROLLBACK.BURNING = false ∧ (∀ j ∈
      List.range 4, t.reg (Reg.MGT_CIPHIN j) = 0) ∧ t.boot.check = none ∧ t.fld Fld.GLB_BOOTREL.RESULT = 2 ∧ t.flag
      Fld.GLB_BOOTREL.BUSY = false) ∧
    (∀ (data : Word), s.accessOpen .core = true → Runs s (.logWdtkick data) [.boot] fun t => t.boot.kicked = s.time.elapsed ∧
      t.boot.answer = 0) ∧
    (∀ (data : Word), (s.top.coreOn = false) → exec (.logWdtkick data) s = .next s)

/-- Reads that latch or clear. For every canonical state each command answers a next state under the conditions given, and
nothing outside the parts it names (never the queue) changes. A read of each of these registers on an open path, with
nothing before it at the register arbiter (R518) and the access allowed, is answered with status 0 and the register's
value, and: ORD_STRREC0 latches the other three words of the selected stream's record; ORD_FRONT_LO the frontier's high
word; TIM_NOW_LO the high word of the timebase and both words of the wall time; TIM_OFFSET_LO the offset's high word;
PWR_SNAPSTAMP_LO the snapshot's high word (0 with no snapshot); MGT_DIEID_LO the die ID's high word; DPH_EYEA the
sub-channel's second eye word; ECC_SEALFAIL clears itself and ECC_FIRSTFAIL; LOG_SBREC0 gives the next ring entry with bit
31 set, puts the rest of it in the words after, and passes it (stated where one waits). On a path that is shut, a read of
any of them but LOG_SBREC0 changes nothing. Rules: R5, R140, R141, R291, R334, R423, R487, R520, R525. -/
def Obligations.LatchingReadsRun : Prop :=
  ∀ s : State, s.canon →
    (∀ (path : AccPath), s.accessOpen path = true → s.accStatus path Reg.ORD_STRREC0 = 0 → Runs s (.ordStrrec0Read path) (.reg
      Reg.ORD_STRREC1 :: .reg Reg.ORD_STRREC2 :: .reg Reg.ORD_STRREC3 :: pathParts) fun t => ReadAnswered path 0x00
      ((s.onPath path).viewReg Reg.ORD_STRREC0) t ∧ t.reg Reg.ORD_STRREC1 = BitVec.ofNat 32 ((s.stream (s.fld
      Fld.ORD_STRSEL.STREAM)).tail % 2 ^ 13) ∧ t.reg Reg.ORD_STRREC2 = BitVec.ofNat 32 (s.stream (s.fld
      Fld.ORD_STRSEL.STREAM)).lastFork ∧ t.reg Reg.ORD_STRREC3 = BitVec.ofNat 32 ((s.stream (s.fld
      Fld.ORD_STRSEL.STREAM)).lastFork / 2 ^ 32)) ∧
    (∀ (path : AccPath), (s.pathShut path = true) → exec (.ordStrrec0Read path) s = .next s) ∧
    (∀ (path : AccPath), s.accessOpen path = true → s.accStatus path Reg.ORD_FRONT_LO = 0 → Runs s (.ordFrontLoRead path) (.reg
      Reg.ORD_FRONT_HI :: pathParts) fun t => ReadAnswered path 0x00 (BitVec.ofNat 32 s.ord.front) t ∧ t.reg
      Reg.ORD_FRONT_HI = BitVec.ofNat 32 (s.ord.front / 2 ^ 32)) ∧
    (∀ (path : AccPath), (s.pathShut path = true) → exec (.ordFrontLoRead path) s = .next s) ∧
    (∀ (path : AccPath), s.accessOpen path = true → s.accStatus path Reg.TIM_NOW_LO = 0 → Runs s (.timNowLoRead path) (.reg
      Reg.TIM_NOW_HI :: .reg Reg.TIM_WALL_LO :: .reg Reg.TIM_WALL_HI :: pathParts) fun t => ReadAnswered path 0x00
      (s.stamp.extractLsb' 0 32) t ∧ t.reg Reg.TIM_NOW_HI = s.stamp.extractLsb' 32 32 ∧ t.reg Reg.TIM_WALL_LO =
      s.wall.extractLsb' 0 32 ∧ t.reg Reg.TIM_WALL_HI = s.wall.extractLsb' 32 32) ∧
    (∀ (path : AccPath), (s.pathShut path = true) → exec (.timNowLoRead path) s = .next s) ∧
    (∀ (path : AccPath), s.accessOpen path = true → s.accStatus path Reg.TIM_OFFSET_LO = 0 → Runs s (.timOffsetLoRead path) (.reg
      Reg.TIM_OFFSET_HI :: pathParts) fun t => ReadAnswered path 0x00 (s.time.offset.extractLsb' 0 32) t ∧ t.reg
      Reg.TIM_OFFSET_HI = s.time.offset.extractLsb' 32 32) ∧
    (∀ (path : AccPath), (s.pathShut path = true) → exec (.timOffsetLoRead path) s = .next s) ∧
    (∀ (path : AccPath), s.accessOpen path = true → s.accStatus path Reg.PWR_SNAPSTAMP_LO = 0 → Runs s (.pwrSnapstampLoRead path)
      (.reg Reg.PWR_SNAPSTAMP_HI :: pathParts) fun t => ReadAnswered path 0x00 ((s.onPath path).viewReg
      Reg.PWR_SNAPSTAMP_LO) t ∧
      t.reg Reg.PWR_SNAPSTAMP_HI = (match s.snapshot with | some r => r.1.stamp.extractLsb' 32 32 | none => 0)) ∧
    (∀ (path : AccPath), (s.pathShut path = true) → exec (.pwrSnapstampLoRead path) s = .next s) ∧
    (∀ (path : AccPath), s.accessOpen path = true → s.accStatus path Reg.MGT_DIEID_LO = 0 → Runs s (.mgtDieidLoRead path) (.reg
      Reg.MGT_DIEID_HI :: pathParts) fun t => ReadAnswered path 0x00 ((s.onPath path).viewReg Reg.MGT_DIEID_LO) t ∧ t.reg
      Reg.MGT_DIEID_HI = Tab.get (fun _ => (0 : Word)) s.fuse.word 1) ∧
    (∀ (path : AccPath), (s.pathShut path = true) → exec (.mgtDieidLoRead path) s = .next s) ∧
    (∀ (path : AccPath) (sc : Fin 16), s.accessOpen path = true → s.accStatus path (Reg.DPH_EYEA sc.val) = 0 → Runs s
      (.dphEyeaRead path sc) (.cal :: pathParts) fun t => ReadAnswered path 0x00 ((s.onPath path).viewReg (Reg.DPH_EYEA
      sc.val)) t ∧ t.cal.eyeB = Tab.set (fun _ => (0 : Word)) s.cal.eyeB sc.val (s.eye sc.val).2) ∧
    (∀ (path : AccPath) (sc : Fin 16), (s.pathShut path = true) → exec (.dphEyeaRead path sc) s = .next s) ∧
    (∀ (path : AccPath), s.accessOpen path = true → s.accStatus path Reg.ECC_SEALFAIL = 0 → Runs s (.eccSealfailRead path) (.reg
      Reg.ECC_SEALFAIL :: .reg Reg.ECC_FIRSTFAIL :: pathParts) fun t => ReadAnswered path 0x00 (s.reg Reg.ECC_SEALFAIL) t ∧
      t.reg Reg.ECC_SEALFAIL = 0 ∧ t.reg Reg.ECC_FIRSTFAIL = 0) ∧
    (∀ (path : AccPath), (s.pathShut path = true) → exec (.eccSealfailRead path) s = .next s) ∧
    (∀ (path : AccPath) (e : RingEntry) (rest : List RingEntry), s.accessOpen path = true → s.accStatus path Reg.LOG_SBREC0 = 0 →
      s.log.ring.drop s.log.rdSb = e :: rest → Runs s (.logSbrec0Read path) (.log :: .block 0xD :: pathParts) fun t =>
      ReadAnswered path 0x00 (BitVec.ofNat 32 (ofLeBytes (e.bytes.take 4)) ||| 0x80000000) t ∧ (∀ j ∈ List.range 7, t.reg
      (Reg.LOG_SBREC j) = BitVec.ofNat 32 (ofLeBytes ((e.bytes.drop (4 + 4 * j)).take 4))) ∧ t.log.ring.drop t.log.rdSb =
      rest)

/-- Register reads and writes. For every canonical state each command answers a next state under the conditions given, and
nothing outside the parts it names (never the queue) changes. MGT_READ on an open port of a register that latches and
clears nothing is answered with status 0 and its value. A read on any path that latches nothing clears exactly the
register's read-clear fields; a refused one is answered with its status and value 0, recorded in GLB_ACCERR and counted. A
write of a register with no further work and no trigger, with 0 where 0 must be written, stores exactly the bits the
register takes, clears those written 1 of its write-1-to-clear fields, and is answered 0; with a 1 where 0 must be written
it stores the same bits, is answered 1 and recorded. MGT_WRITE does the same on a port, and after a trigger answers 6.
CAL_RECSEL's write starts a capture, ORD_STRSEL's clears the latched words, DPH_EYESEL's clears the second eye word.
Sideband and core accesses are told with nothing before them at the register arbiter (R518). On T or a port that takes no
messages MGT_READ and MGT_WRITE change nothing. That CFG fields take writes from any path until BOOT ends is the model's
choice (log entry 19). Rules: R5, R7, R88, R90, R140, R291, R317, R526, R528. -/
def Obligations.AccessesRun : Prop :=
  ∀ s : State, s.canon →
    (∀ (p : Port) (mtag : BitVec 4) (addr : BitVec 24), s.pathOpen (.mgt p mtag) = true → s.accStatus (.mgt p mtag) addr.toNat =
      0 → latches addr.toNat = false → readClears addr.toNat = 0 → Runs s (.mgtRead p mtag addr) [.links] fun t =>
      ReadAnswered (.mgt p mtag) 0x00 ((s.onPath (.mgt p mtag)).viewReg addr.toNat) t) ∧
    (∀ (p : Port) (mtag : BitVec 4) (addr : BitVec 24), (p = .t ∨ (s.link p).takes = false) → exec (.mgtRead p mtag addr) s =
      .next s) ∧
    (∀ (path : AccPath) (addr : BitVec 24), s.accessOpen path = true → s.accStatus path addr.toNat = 0 → latches addr.toNat =
      false → s.restartHigh addr.toNat = s → Runs s (.rcFieldRead path addr) (.reg addr.toNat :: pathParts) fun t =>
      ReadAnswered path 0x00 ((s.onPath path).viewReg addr.toNat) t ∧ t.reg addr.toNat = s.reg addr.toNat &&& ~~~(readClears
      addr.toNat) ||| regReset addr.toNat &&& readClears addr.toNat) ∧
    (∀ (path : AccPath) (addr : BitVec 24), s.accessOpen path = true → s.accStatus path addr.toNat ≠ 0 → Runs s (.rcFieldRead
      path addr) (.reg Reg.GLB_ACCERR :: .reg Reg.GLB_ACCCNT :: .reg Reg.GLB_EVENT :: pathParts) fun t => ReadAnswered path
      (s.accStatus path addr.toNat) 0 t ∧ AccessNoted path (s.accStatus path addr.toNat) addr.toNat s t) ∧
    (∀ (path : AccPath) (addr : BitVec 24) (data : Word), s.accessOpen path = true → s.accStatus path addr.toNat = 0 → startsWork
      addr.toNat = false → s.triggered = false → data &&& (s.reach addr.toNat).2.1 = 0 → Runs s (.registerWrite path addr
      data) (.reg addr.toNat :: pathParts) fun t => WriteAnswered path 0x00 t ∧ t.reg addr.toNat = writeWord (s.reg
      addr.toNat) data (s.reach addr.toNat).1 (s.reach addr.toNat).2.2) ∧
    (∀ (path : AccPath) (addr : BitVec 24) (data : Word), s.accessOpen path = true → s.accStatus path addr.toNat = 0 → startsWork
      addr.toNat = false → s.triggered = false → addr.toNat ≠ Reg.GLB_ACCCNT → addr.toNat ≠ Reg.GLB_ACCERR → addr.toNat ≠
      Reg.GLB_EVENT → data &&& (s.reach addr.toNat).2.1 ≠ 0 → Runs s (.registerWrite path addr data) (.reg addr.toNat ::
      .reg Reg.GLB_ACCERR :: .reg Reg.GLB_ACCCNT :: .reg Reg.GLB_EVENT :: pathParts) fun t => WriteAnswered path 0x01 t ∧
      t.reg addr.toNat = writeWord (s.reg addr.toNat) data (s.reach addr.toNat).1 (s.reach addr.toNat).2.2 ∧ AccessNoted
      path 0x01 addr.toNat s t) ∧
    (∀ (p : Port) (mtag : BitVec 4) (addr : BitVec 24) (data : Word), s.pathOpen (.mgt p mtag) = true → s.accStatus (.mgt p mtag)
      addr.toNat = 0 → startsWork addr.toNat = false → s.triggered = false → data &&& (s.reach addr.toNat).2.1 = 0 → Runs s
      (.mgtWrite p mtag addr data) [.links, .reg addr.toNat] fun t => WriteAnswered (.mgt p mtag) 0x00 t ∧ t.reg addr.toNat
      = writeWord (s.reg addr.toNat) data (s.reach addr.toNat).1 (s.reach addr.toNat).2.2) ∧
    (∀ (p : Port) (mtag : BitVec 4) (addr : BitVec 24) (data : Word), (p = .t ∨ (s.link p).takes = false) → exec (.mgtWrite p
      mtag addr data) s = .next s) ∧
    (∀ (p : Port) (mtag : BitVec 4) (addr : BitVec 24) (data : Word), s.pathOpen (.mgt p mtag) = true → s.triggered = true → Runs
      s (.mgtWrite p mtag addr data) [.links] fun t => WriteAnswered (.mgt p mtag) 0x06 t) ∧
    (∀ (path : AccPath) (data : Word), s.accessOpen path = true → s.accStatus path Reg.CAL_RECSEL = 0 → s.triggered = false →
      data &&& (s.reach Reg.CAL_RECSEL).2.1 = 0 → Runs s (.calRecselWrite path data) (.cal :: .reg Reg.CAL_RECSEL ::
      pathParts) fun t => WriteAnswered path 0x00 t ∧ t.cal = { s.cal with capturing := true, window := [] } ∧ t.flag
      Fld.CAL_RECSEL.READY = false ∧ t.fld Fld.CAL_RECSEL.SC = fieldGet data 3 0) ∧
    (∀ (path : AccPath) (data : Word), s.accessOpen path = true → s.accStatus path Reg.ORD_STRSEL = 0 → s.triggered = false →
      data &&& (s.reach Reg.ORD_STRSEL).2.1 = 0 → Runs s (.ordStrselWrite path data) (.reg Reg.ORD_STRSEL :: .reg
      Reg.ORD_STRREC1 :: .reg Reg.ORD_STRREC2 :: .reg Reg.ORD_STRREC3 :: pathParts) fun t => WriteAnswered path 0x00 t ∧
      t.reg Reg.ORD_STRREC1 = 0 ∧ t.reg Reg.ORD_STRREC2 = 0 ∧ t.reg Reg.ORD_STRREC3 = 0 ∧ t.fld Fld.ORD_STRSEL.STREAM =
      fieldGet data Fld.ORD_STRSEL.STREAM.hi Fld.ORD_STRSEL.STREAM.lo) ∧
    (∀ (path : AccPath) (sc : Fin 16) (data : Word), s.accessOpen path = true → s.accStatus path (Reg.DPH_EYESEL sc.val) = 0 →
      s.triggered = false → data &&& (s.reach (Reg.DPH_EYESEL sc.val)).2.1 = 0 → Runs s (.dphEyeselWrite path sc data) (.cal
      :: .reg (Reg.DPH_EYESEL sc.val) :: pathParts) fun t => WriteAnswered path 0x00 t ∧ t.cal.eyeB = Tab.set (fun _ => (0 :
      Word)) s.cal.eyeB sc.val 0 ∧ t.reg (Reg.DPH_EYESEL sc.val) = writeWord (s.reg (Reg.DPH_EYESEL sc.val)) data (s.reach
      (Reg.DPH_EYESEL sc.val)).1 (s.reach (Reg.DPH_EYESEL sc.val)).2.2)

/-- CFG flash mailbox and the cipher core. For every canonical state each command answers a next state under the conditions
given, and nothing outside the parts it names (never the queue) changes. With nothing before it at the register arbiter
(R518) a write of command 1 to 4 (read, program, erase, set preference) to an idle mailbox whose address lies in the area
the command may use starts it; a program or erase elsewhere answers RESULT 1; a code of 0 or above 4 answers RESULT 4. All
are answered status 0. FLASH_COMMAND_DONE on a usable flash clears BUSY; if it succeeded, RESULT 0 and: a read fills the
page words from the flash; a program of a blank page leaves the page's bytes; an erase leaves 0xFF over the sector; a set
preference makes the slot preferred, on trial, no tries. A program of a page not blank, or a failed read or set
preference, gives RESULT 2. CIPHER_ENCRYPT and CIPHER_DECRYPT on an idle core that refuses nothing hold the AES result of
the input words for their destination; an encrypt from slot 0 counts a use. A refused encrypt sets FAIL. CIPHER_DONE
delivers the result to the output words or the key half. Nothing running, or the core off: nothing changes. Code 0, and
waiting for a release check, are the model's choices (log entries 20 and 21). Rules: R476, R478, R488, R489. -/
def Obligations.FlashMailboxRuns : Prop :=
  ∀ s : State, s.canon →
    (∀ (path : AccPath), s.accessOpen path = true → s.accStatus path Reg.MGT_FLCMD = 0 → s.triggered = false → s.flag
      Fld.MGT_FLCMD.BUSY = false → s.flashArea 1 = true → Runs s (.flashRead path) (.reg Reg.MGT_FLCMD :: pathParts) fun t
      => WriteAnswered path 0x00 t ∧ t.boot.flCmd = some 1 ∧ t.flag Fld.MGT_FLCMD.BUSY = true ∧ t.fld Fld.MGT_FLCMD.CMD = 1) ∧
    (∀ (path : AccPath), s.accessOpen path = true → s.accStatus path Reg.MGT_FLCMD = 0 → s.triggered = false → s.flag
      Fld.MGT_FLCMD.BUSY = false → s.flashArea 2 = true → Runs s (.flashProgram path) (.reg Reg.MGT_FLCMD :: pathParts) fun
      t => WriteAnswered path 0x00 t ∧ t.boot.flCmd = some 2 ∧ t.flag Fld.MGT_FLCMD.BUSY = true ∧ t.fld Fld.MGT_FLCMD.CMD =
      2) ∧
    (∀ (path : AccPath), s.accessOpen path = true → s.accStatus path Reg.MGT_FLCMD = 0 → s.triggered = false → s.flag
      Fld.MGT_FLCMD.BUSY = false → s.flashArea 2 = false → Runs s (.flashProgram path) (.reg Reg.MGT_FLCMD :: pathParts) fun
      t => WriteAnswered path 0x00 t ∧ t.fld Fld.MGT_FLCMD.RESULT = 1 ∧ t.flag Fld.MGT_FLCMD.BUSY = false ∧ t.boot.flCmd =
      s.boot.flCmd) ∧
    (∀ (path : AccPath), s.accessOpen path = true → s.accStatus path Reg.MGT_FLCMD = 0 → s.triggered = false → s.flag
      Fld.MGT_FLCMD.BUSY = false → s.flashArea 3 = true → Runs s (.flashErase path) (.reg Reg.MGT_FLCMD :: pathParts) fun t
      => WriteAnswered path 0x00 t ∧ t.boot.flCmd = some 3 ∧ t.flag Fld.MGT_FLCMD.BUSY = true ∧ t.fld Fld.MGT_FLCMD.CMD = 3) ∧
    (∀ (path : AccPath), s.accessOpen path = true → s.accStatus path Reg.MGT_FLCMD = 0 → s.triggered = false → s.flag
      Fld.MGT_FLCMD.BUSY = false → s.flashArea 3 = false → Runs s (.flashErase path) (.reg Reg.MGT_FLCMD :: pathParts) fun t
      => WriteAnswered path 0x00 t ∧ t.fld Fld.MGT_FLCMD.RESULT = 1 ∧ t.flag Fld.MGT_FLCMD.BUSY = false ∧ t.boot.flCmd =
      s.boot.flCmd) ∧
    (∀ (path : AccPath), s.accessOpen path = true → s.accStatus path Reg.MGT_FLCMD = 0 → s.triggered = false → s.flag
      Fld.MGT_FLCMD.BUSY = false → s.flashArea 4 = true → Runs s (.flashSetPreference path) (.reg Reg.MGT_FLCMD ::
      pathParts) fun t => WriteAnswered path 0x00 t ∧ t.boot.flCmd = some 4 ∧ t.flag Fld.MGT_FLCMD.BUSY = true ∧ t.fld
      Fld.MGT_FLCMD.CMD = 4) ∧
    (∀ (path : AccPath) (code : BitVec 4), s.accessOpen path = true → s.accStatus path Reg.MGT_FLCMD = 0 → s.triggered = false →
      s.flag Fld.MGT_FLCMD.BUSY = false → (code = 0 ∨ 4 < code.toNat) → Runs s (.flashUnknownCommand path code) (.reg
      Reg.MGT_FLCMD :: pathParts) fun t => WriteAnswered path 0x00 t ∧ t.fld Fld.MGT_FLCMD.RESULT = 4 ∧ t.flag
      Fld.MGT_FLCMD.BUSY = false) ∧
    (∀ (ok : Bool), s.boot.flCmd = some 1 → s.top.trigger = none → s.boot.flash ≠ .unusable → ok = true → Runs s
      (.flashCommandDone ok) [.boot, .block 0xB] fun t => t.boot.flCmd = none ∧ t.flag Fld.MGT_FLCMD.BUSY = false ∧ t.fld
      Fld.MGT_FLCMD.RESULT = 0 ∧ (∀ j ∈ List.range 64, t.reg (Reg.MGT_FLPAGE j) = BitVec.ofNat 32 (s.flashNat (s.fld
      Fld.MGT_FLADDR.ADDR + 4 * j) 4))) ∧
    (∀ (ok : Bool), s.boot.flCmd = some 2 → s.top.trigger = none → s.boot.flash ≠ .unusable → ok = true → s.boot.check = none →
      s.blank (s.fld Fld.MGT_FLADDR.ADDR) 256 = true → Runs s (.flashCommandDone ok) [.boot, .flash, .reg Reg.MGT_FLCMD] fun
      t => t.boot.flCmd = none ∧ t.flag Fld.MGT_FLCMD.BUSY = false ∧ t.fld Fld.MGT_FLCMD.RESULT = 0 ∧ (∀ i ∈ List.range 256,
      t.flashByte (s.fld Fld.MGT_FLADDR.ADDR + i) = s.flashPage.getD i 0)) ∧
    (∀ (ok : Bool), s.boot.flCmd = some 2 → s.top.trigger = none → s.boot.flash ≠ .unusable → s.boot.check = none → s.blank
      (s.fld Fld.MGT_FLADDR.ADDR) 256 = false → Runs s (.flashCommandDone ok) [.boot, .reg Reg.MGT_FLCMD] fun t =>
      t.boot.flCmd = none ∧ t.flag Fld.MGT_FLCMD.BUSY = false ∧ t.fld Fld.MGT_FLCMD.RESULT = 2) ∧
    (∀ (ok : Bool), s.boot.flCmd = some 3 → s.top.trigger = none → s.boot.flash ≠ .unusable → ok = true → s.boot.check = none →
      Runs s (.flashCommandDone ok) [.boot, .flash, .reg Reg.MGT_FLCMD] fun t => t.boot.flCmd = none ∧ t.flag
      Fld.MGT_FLCMD.BUSY = false ∧ t.fld Fld.MGT_FLCMD.RESULT = 0 ∧ (∀ i ∈ List.range 4096, t.flashByte (s.fld
      Fld.MGT_FLADDR.ADDR / 4096 * 4096 + i) = 0xFF)) ∧
    (∀ (ok : Bool) (n : Nat) (d : DirRec), s.boot.flCmd = some 4 → s.top.trigger = none → s.boot.flash ≠ .unusable → ok = true →
      s.boot.check = none → s.directory = some (n, d) → Runs s (.flashCommandDone ok) [.boot, .flash, .reg Reg.MGT_FLCMD]
      fun t => t.boot.flCmd = none ∧ t.flag Fld.MGT_FLCMD.BUSY = false ∧ t.fld Fld.MGT_FLCMD.RESULT = 0 ∧ (t.directory.map
      (fun q => (q.2.pref, q.2.stateOf (s.fld Fld.MGT_FLADDR.ADDR % 2), q.2.tries))) = some (s.fld Fld.MGT_FLADDR.ADDR % 2,
      1, 0)) ∧
    (∀ (ok : Bool) (c : Nat), s.boot.flCmd = some c → ok = false → (c = 1 ∨ c = 4) → s.boot.check = none → s.top.trigger = none →
      s.boot.flash ≠ .unusable → Runs s (.flashCommandDone ok) [.boot, .reg Reg.MGT_FLCMD] fun t => t.boot.flCmd = none ∧
      t.flag Fld.MGT_FLCMD.BUSY = false ∧ t.fld Fld.MGT_FLCMD.RESULT = 2) ∧
    (∀ (ok : Bool), (s.boot.flCmd = none) → exec (.flashCommandDone ok) s = .next s) ∧
    (∀ (slot dest : BitVec 2), s.accessOpen .core = true → s.boot.ciph = none → s.cipherRefuses slot.toNat dest.toNat false =
      false → Runs s (.cipherEncrypt slot dest) [.boot, .reg Reg.MGT_CIPHCTL] fun t => t.boot.ciph = some (cipherDest
      slot.toNat dest.toNat, aesEnc (s.slotKey slot.toNat) ((List.range 4).flatMap (fun i => leBytes (s.reg (Reg.MGT_CIPHIN
      i)).toNat 4))) ∧ t.flag Fld.MGT_CIPHCTL.BUSY = true ∧ t.flag Fld.MGT_CIPHCTL.FAIL = false ∧ t.boot.uses = s.boot.uses
      + (if slot = 0 then 1 else 0) ∧ t.boot.answer = 0) ∧
    (∀ (slot dest : BitVec 2), (s.top.coreOn = false) → exec (.cipherEncrypt slot dest) s = .next s) ∧
    (∀ (slot dest : BitVec 2), s.accessOpen .core = true → s.boot.ciph = none → s.cipherRefuses slot.toNat dest.toNat false =
      true → Runs s (.cipherEncrypt slot dest) [.boot, .reg Reg.MGT_CIPHCTL] fun t => t.flag Fld.MGT_CIPHCTL.FAIL = true ∧
      t.flag Fld.MGT_CIPHCTL.GO = false ∧ t.boot.ciph = none) ∧
    (∀ (slot dest : BitVec 2), s.accessOpen .core = true → s.boot.ciph = none → s.cipherRefuses slot.toNat dest.toNat true =
      false → Runs s (.cipherDecrypt slot dest) [.boot, .reg Reg.MGT_CIPHCTL] fun t => t.boot.ciph = some (cipherDest
      slot.toNat dest.toNat, aesDec (s.slotKey slot.toNat) ((List.range 4).flatMap (fun i => leBytes (s.reg (Reg.MGT_CIPHIN
      i)).toNat 4))) ∧ t.flag Fld.MGT_CIPHCTL.BUSY = true ∧ t.flag Fld.MGT_CIPHCTL.FAIL = false ∧ t.boot.uses = s.boot.uses
      ∧ t.boot.answer = 0) ∧
    (∀ (slot dest : BitVec 2), (s.top.coreOn = false) → exec (.cipherDecrypt slot dest) s = .next s) ∧
    (∀ (out : List Byte), s.boot.ciph = some (0, out) → Runs s .cipherDone [.boot, .block 0xB] fun t => t.boot =
      { s.boot with ciph := none } ∧ t.flag Fld.MGT_CIPHCTL.BUSY = false ∧ t.flag Fld.MGT_CIPHCTL.GO = false ∧ (∀ i ∈
      List.range 4, t.reg (Reg.MGT_CIPHOUT i) = BitVec.ofNat 32 (ofLeBytes ((out.drop (4 * i)).take 4)))) ∧
    ((s.boot.ciph = none) → exec .cipherDone s = .next s) ∧
    (∀ (d : Nat) (out : List Byte), s.boot.ciph = some (d, out) → d ≠ 0 → Runs s .cipherDone [.boot, .reg Reg.MGT_CIPHCTL] fun t
      => t.boot = { s.boot with ciph := none, keys := Tab.set (fun _ => []) s.boot.keys d out } ∧ t.flag
      Fld.MGT_CIPHCTL.BUSY = false)

/-- Sideband frames and I3C common commands. For every canonical state each command answers a next state under the conditions
given, and nothing outside the parts it names (never the queue) changes. With nothing before them at the register arbiter
SB_READ_REGISTERS of 1 to 16 readable registers that latch and clear nothing answers 0 and their values; another count
answers 0x11. SB_WRITE_REGISTER stores what the register takes and answers 0. SB_FRAME_ERROR answers 0x12 for a bad PEC on
SMBus and 0x11 for another error. SMBUS_TIMEOUT and RSTACT 1 leave the target with its straps only, and drop the sideband
accesses that wait. The CCCs, on I3C: ENTDAA and SETDASA give an address to a target without one, SETNEWDA changes it,
RSTDAA takes it; ENEC lets interrupts in and raises the first masked entry waiting, DISEC stops them; GETPID, GETBCR
(0x0E), GETDCR (0), GETMWL and GETMRL return their bytes; GETSTATUS returns two free bytes; SETMWL and SETMRL keep at most
64 and 65. Where the sideband does not answer (AON domain off, OFF or STANDBY), on SMBus for a CCC, or with the address
missing or present where it must not be, the stated commands change nothing. The byte order, GETMRL's third byte, the
limits and RSTACT at once are the model's presumptions and choices (log entry 17). Rules: R513, R514, R515, R516, R517,
R518. -/
def Obligations.SidebandRuns : Prop :=
  ∀ s : State, s.canon →
    (∀ (addr : BitVec 24) (count : Byte), s.accessOpen .sideband = true → count ≠ 0 → count.toNat ≤ 16 → (List.range
      count.toNat).all (fun i => s.accStatus .sideband (addr.toNat + 4 * i) == 0 && !latches (addr.toNat + 4 * i) &&
      readClears (addr.toNat + 4 * i) == 0) = true → Runs s (.sbReadRegisters addr count) [.sb] fun t => t.sb.answer = 0 ::
      (List.range count.toNat).flatMap (fun i => leBytes (s.viewReg (addr.toNat + 4 * i)).toNat 4)) ∧
    (∀ (addr : BitVec 24) (count : Byte), (s.sbAnswers = false) → exec (.sbReadRegisters addr count) s = .next s) ∧
    (∀ (addr : BitVec 24) (count : Byte), s.sbAnswers = true → (count = 0 ∨ 16 < count.toNat) → Runs s (.sbReadRegisters addr
      count) [.sb] fun t => t.sb = { s.sb with answer := [0x11] }) ∧
    (∀ (addr : BitVec 24) (data : Word), s.accessOpen .sideband = true → s.accStatus .sideband addr.toNat = 0 → startsWork
      addr.toNat = false → data &&& (s.reach addr.toNat).2.1 = 0 → Runs s (.sbWriteRegister addr data) [.sb, .reg
      addr.toNat] fun t => t.sb = { s.sb with answer := [0] } ∧ t.reg addr.toNat = writeWord (s.reg addr.toNat) data
      (s.reach addr.toNat).1 (s.reach addr.toNat).2.2) ∧
    (∀ (addr : BitVec 24) (data : Word), (s.sbAnswers = false) → exec (.sbWriteRegister addr data) s = .next s) ∧
    (∀ (e : SbError), s.sbAnswers = true → e = .pec → s.sb.smbus = true → Runs s (.sbFrameError e) [.sb] fun t => t.sb =
      { s.sb with answer := [0x12] }) ∧
    (∀ (e : SbError), (s.sbAnswers = false) → exec (.sbFrameError e) s = .next s) ∧
    (∀ (e : SbError), s.sbAnswers = true → e ≠ .pec → Runs s (.sbFrameError e) [.sb] fun t => t.sb =
      { s.sb with answer := [0x11] }) ∧
    (s.top.aonOn = true → s.sb.smbus = true → Runs s .smbusTimeout [.sb] fun t => t.sb =
      { smbus := s.sb.smbus, sbaddr := s.sb.sbaddr, arb := s.sb.arb.filter (fun q => q.path != .sideband) }) ∧
    ((s.top.aonOn = false ∨ s.sb.smbus = false) → exec .smbusTimeout s = .next s) ∧
    (∀ (da : BitVec 7), s.i3cOn = true → s.sb.dynAddr = none → (s.log.ring.drop s.log.rdSb).any (fun e => (s.fld
      Fld.LOG_SBCFG.IBIMASK).testBit (e.code.toNat >>> 12)) = false → Runs s (.cccEntdaa da) [.sb] fun t => t.sb =
      { s.sb with dynAddr := some da }) ∧
    (∀ (da : BitVec 7), (s.i3cOn = false ∨ s.sb.dynAddr ≠ none) → exec (.cccEntdaa da) s = .next s) ∧
    (∀ (da : BitVec 7), s.i3cOn = true → s.sb.dynAddr = none → (s.log.ring.drop s.log.rdSb).any (fun e => (s.fld
      Fld.LOG_SBCFG.IBIMASK).testBit (e.code.toNat >>> 12)) = false → Runs s (.cccSetdasa da) [.sb] fun t => t.sb =
      { s.sb with dynAddr := some da }) ∧
    (∀ (da : BitVec 7), (s.i3cOn = false ∨ s.sb.dynAddr ≠ none) → exec (.cccSetdasa da) s = .next s) ∧
    (∀ (da : BitVec 7), s.i3cOn = true → s.sb.dynAddr ≠ none → Runs s (.cccSetnewda da) [.sb] fun t => t.sb =
      { s.sb with dynAddr := some da }) ∧
    (∀ (da : BitVec 7), (s.i3cOn = false ∨ s.sb.dynAddr = none) → exec (.cccSetnewda da) s = .next s) ∧
    (s.i3cOn = true → Runs s .cccRstdaa [.sb] fun t => t.sb = { s.sb with dynAddr := none }) ∧
    ((s.i3cOn = false) → exec .cccRstdaa s = .next s) ∧
    (s.i3cOn = true → (s.log.ring.drop s.log.rdSb).any (fun e => (s.fld Fld.LOG_SBCFG.IBIMASK).testBit (e.code.toNat >>> 12)) =
      false → Runs s .cccEnec [.sb] fun t => t.sb = { s.sb with ibiOn := true }) ∧
    ((s.i3cOn = false) → exec .cccEnec s = .next s) ∧
    (∀ (e : RingEntry), s.i3cOn = true → s.sb.ibi = none → s.sb.dynAddr ≠ none → (s.log.ring.drop s.log.rdSb).find? (fun e =>
      (s.fld Fld.LOG_SBCFG.IBIMASK).testBit (e.code.toNat >>> 12)) = some e → Runs s .cccEnec [.sb] fun t => t.sb =
      { s.sb with ibiOn := true, ibi := some (BitVec.ofNat 8 (e.code.toNat >>> 12)) }) ∧
    (s.i3cOn = true → Runs s .cccDisec [.sb] fun t => t.sb = { s.sb with ibiOn := false }) ∧
    ((s.i3cOn = false) → exec .cccDisec s = .next s) ∧
    (s.i3cOn = true → s.sb.dynAddr ≠ none → Runs s .cccGetpid [.sb] fun t => t.sb = { s.sb with cccOut := s.pid }) ∧
    ((s.i3cOn = false ∨ s.sb.dynAddr = none) → exec .cccGetpid s = .next s) ∧
    (s.i3cOn = true → s.sb.dynAddr ≠ none → Runs s .cccGetbcr [.sb] fun t => t.sb = { s.sb with cccOut := [0x0E] }) ∧
    ((s.i3cOn = false ∨ s.sb.dynAddr = none) → exec .cccGetbcr s = .next s) ∧
    (s.i3cOn = true → s.sb.dynAddr ≠ none → Runs s .cccGetdcr [.sb] fun t => t.sb = { s.sb with cccOut := [0x00] }) ∧
    ((s.i3cOn = false ∨ s.sb.dynAddr = none) → exec .cccGetdcr s = .next s) ∧
    (s.i3cOn = true → s.sb.dynAddr ≠ none → Runs s .cccGetstatus [.free, .sb] fun t => t.sb =
      { s.sb with cccOut := [Config.freeByte s.free, Config.freeByte (s.free + 1)] }) ∧
    (s.i3cOn = true → s.sb.dynAddr ≠ none → Runs s .cccGetmwl [.sb] fun t => t.sb =
      { s.sb with cccOut := [BitVec.ofNat 8 (s.sb.mwl.toNat / 256), BitVec.ofNat 8 s.sb.mwl.toNat] }) ∧
    ((s.i3cOn = false ∨ s.sb.dynAddr = none) → exec .cccGetmwl s = .next s) ∧
    (s.i3cOn = true → s.sb.dynAddr ≠ none → Runs s .cccGetmrl [.sb] fun t => t.sb =
      { s.sb with cccOut := [BitVec.ofNat 8 (s.sb.mrl.toNat / 256), BitVec.ofNat 8 s.sb.mrl.toNat, 1] }) ∧
    ((s.i3cOn = false ∨ s.sb.dynAddr = none) → exec .cccGetmrl s = .next s) ∧
    (∀ (len : BitVec 16), s.i3cOn = true → Runs s (.cccSetmwl len) [.sb] fun t => t.sb =
      { s.sb with mwl := BitVec.ofNat 16 (min 64 len.toNat) }) ∧
    (∀ (len : BitVec 16), (s.i3cOn = false) → exec (.cccSetmwl len) s = .next s) ∧
    (∀ (len : BitVec 16), s.i3cOn = true → Runs s (.cccSetmrl len) [.sb] fun t => t.sb =
      { s.sb with mrl := BitVec.ofNat 16 (min 65 len.toNat) }) ∧
    (∀ (len : BitVec 16), (s.i3cOn = false) → exec (.cccSetmrl len) s = .next s) ∧
    (∀ (action : Byte), s.i3cOn = true → action = 1 → Runs s (.cccRstact action) [.sb] fun t => t.sb =
      { smbus := s.sb.smbus, sbaddr := s.sb.sbaddr, arb := s.sb.arb.filter (fun q => q.path != .sideband) }) ∧
    (∀ (action : Byte), (s.i3cOn = false ∨ action ≠ 1) → exec (.cccRstact action) s = .next s)

/-- A directive is checked in the order listed and answered with the status of the first check that fails. For every canonical
state each command answers a next state under the conditions given, and nothing outside the parts it names (never the
queue) changes. For a directive of any number, epoch and argument whose message gets in on its port: a number that is 0 or
above 11 answers 7; else a membership directive that does not come from the witness answers 3; else an epoch that is not
current, in a directive that carries one, answers 5 (and a membership directive of a newer epoch may fence the hub); else
a trigger registered or waiting in the queue answers 6; else the same number in progress answers 8; else a failed
precondition, or an argument bit the directive does not define, answers 4; else it is accepted with 0. Every answer is
queued on the port with the directive's tag, and GLB_DIRSTAT shows the number, the status and the path. An answer other
than acceptance changes nothing but the port and GLB_DIRSTAT. On the sideband, where it answers, no access waits and no
management message of the same DCODE comes in the cycle, SB_DIRECTIVE is checked in the same order, where a membership
directive always answers 3 and a handover never holds its precondition; the answer is the status and four bytes of data.
After a trigger MGT_READ is still answered, with the status of the access; MGT_WRITE is answered 6 and changes nothing but
its port. Rules: R91. -/
def Obligations.DirectiveChecks : Prop :=
  ∀ s : State, s.canon →
    (∀ (h : DirHead) (d : Byte) (arg : BitVec 64), s.pathOpen (.mgt h.port h.mtag) = true → (d = 0 ∨ 11 < d.toNat) → Runs s
      (directiveCommand h d arg) [.links, .reg Reg.GLB_DIRSTAT] fun t => DirAnswered h d.toNat 0x07 0 t) ∧
    (∀ (h : DirHead) (d : Byte) (arg : BitVec 64), s.pathOpen (.mgt h.port h.mtag) = true → (1 ≤ d.toNat ∧ d.toNat ≤ 11) →
      s.fromWitness h d = false → Runs s (directiveCommand h d arg) [.links, .reg Reg.GLB_DIRSTAT] fun t => DirAnswered h
      d.toNat 0x03 0 t) ∧
    (∀ (h : DirHead) (d : Byte) (arg : BitVec 64), s.pathOpen (.mgt h.port h.mtag) = true → (1 ≤ d.toNat ∧ d.toNat ≤ 11) →
      s.fromWitness h d = true → s.epochCurrent h d = false → (isMembership d.toNat = false ∨ h.epoch ≤ s.mir.epoch) → Runs
      s (directiveCommand h d arg) [.links, .reg Reg.GLB_DIRSTAT] fun t => DirAnswered h d.toNat 0x05 0 t) ∧
    (∀ (h : DirHead) (d : Byte) (arg : BitVec 64), s.pathOpen (.mgt h.port h.mtag) = true → (1 ≤ d.toNat ∧ d.toNat ≤ 11) →
      s.fromWitness h d = true → s.epochCurrent h d = false → isMembership d.toNat = true → s.mir.epoch < h.epoch → Runs s
      (directiveCommand h d arg) (.free :: .time :: .clk :: .reg Reg.MAP_REJ :: .reg Reg.MIR_RBCUR :: .reg Reg.SCH_SCRUBCFG
      :: .reg Reg.SCH_SCRUBINT :: .block 0x6 :: .reg Reg.CAL_ABANDONED :: .reg Reg.CLK_STAT :: .reg Reg.TIM_STAT ::
      transitParts) fun t => DirAnswered h d.toNat 0x05 0 t) ∧
    (∀ (h : DirHead) (d : Byte) (arg : BitVec 64), s.pathOpen (.mgt h.port h.mtag) = true → (1 ≤ d.toNat ∧ d.toNat ≤ 11) →
      s.fromWitness h d = true → s.epochCurrent h d = true → s.triggered = true → Runs s (directiveCommand h d arg) [.links,
      .reg Reg.GLB_DIRSTAT] fun t => DirAnswered h d.toNat 0x06 0 t) ∧
    (∀ (h : DirHead) (d : Byte) (arg : BitVec 64), s.pathOpen (.mgt h.port h.mtag) = true → (1 ≤ d.toNat ∧ d.toNat ≤ 11) →
      s.fromWitness h d = true → s.epochCurrent h d = true → s.triggered = false → (s.fld Fld.GLB_DIRSTAT.BUSY).testBit
      d.toNat = true → Runs s (directiveCommand h d arg) [.links, .reg Reg.GLB_DIRSTAT] fun t => DirAnswered h d.toNat 0x08
      0 t) ∧
    (∀ (h : DirHead) (d : Byte) (arg : BitVec 64), s.pathOpen (.mgt h.port h.mtag) = true → (1 ≤ d.toNat ∧ d.toNat ≤ 11) →
      s.fromWitness h d = true → s.epochCurrent h d = true → s.triggered = false → (s.fld Fld.GLB_DIRSTAT.BUSY).testBit
      d.toNat = false → s.preHolds d arg = false → Runs s (directiveCommand h d arg) [.links, .reg Reg.GLB_DIRSTAT] fun t =>
      DirAnswered h d.toNat 0x04 0 t) ∧
    (∀ (h : DirHead) (d : Byte) (arg : BitVec 64), s.pathOpen (.mgt h.port h.mtag) = true → (1 ≤ d.toNat ∧ d.toNat ≤ 11) →
      s.fromWitness h d = true → s.epochCurrent h d = true → s.triggered = false → (s.fld Fld.GLB_DIRSTAT.BUSY).testBit
      d.toNat = false → s.preHolds d arg = true → Runs s (directiveCommand h d arg) (.free :: .time :: .clk :: .reg
      Reg.MAP_REJ :: .reg Reg.MIR_RBCUR :: .reg Reg.SCH_SCRUBCFG :: .reg Reg.SCH_SCRUBINT :: .block 0x6 :: .reg
      Reg.CAL_ABANDONED :: .reg Reg.CLK_STAT :: .reg Reg.TIM_STAT :: transitParts) fun t => DirAnswered h d.toNat 0x00 (if d
      = 9 then BitVec.ofNat 32 (t.fld Fld.TIM_STAT.OFFSET_EPOCH) else 0) t) ∧
    (∀ (p : Port) (mtag : BitVec 4) (addr : BitVec 24), s.pathOpen (.mgt p mtag) = true → s.triggered = true → Runs s (.mgtRead p
      mtag addr) [.rx, .free, .top, .log, .sb, .links, .twin, .ord, .map, .mir, .sch, .flt, .cal, .pwr, .boot, .regs] fun t
      => MgtAnswered p mtag (s.accStatus (.mgt p mtag) addr.toNat) t) ∧
    (∀ (p : Port) (mtag : BitVec 4) (addr : BitVec 24) (data : Word), s.pathOpen (.mgt p mtag) = true → s.triggered = true → Runs
      s (.mgtWrite p mtag addr data) [.links] fun t => MgtAnswered p mtag 0x06 t) ∧
    (∀ (d : Byte) (epoch : Word) (arg : BitVec 64), s.sbAnswers = true → s.mgtDirective d.toNat = false → s.sb.arb = [] → (d = 0
      ∨ 11 < d.toNat) → Runs s (.sbDirective d epoch arg) [.sb, .reg Reg.GLB_DIRSTAT] fun t => SbDirAnswered d.toNat 0x07 0
      t) ∧
    (∀ (d : Byte) (epoch : Word) (arg : BitVec 64), s.sbAnswers = true → s.mgtDirective d.toNat = false → s.sb.arb = [] →
      isMembership d.toNat = true → Runs s (.sbDirective d epoch arg) [.sb, .reg Reg.GLB_DIRSTAT] fun t => SbDirAnswered
      d.toNat 0x03 0 t) ∧
    (∀ (d : Byte) (epoch : Word) (arg : BitVec 64), s.sbAnswers = true → s.mgtDirective d.toNat = false → s.sb.arb = [] → d = 3 →
      epoch ≠ s.mir.epoch → Runs s (.sbDirective d epoch arg) [.sb, .reg Reg.GLB_DIRSTAT] fun t => SbDirAnswered 3 0x05 0 t) ∧
    (∀ (d : Byte) (epoch : Word) (arg : BitVec 64), s.sbAnswers = true → s.mgtDirective d.toNat = false → s.sb.arb = [] → (1 ≤
      d.toNat ∧ d.toNat ≤ 11) → isMembership d.toNat = false → (d = 3 → epoch = s.mir.epoch) → s.triggered = true → Runs s
      (.sbDirective d epoch arg) [.sb, .reg Reg.GLB_DIRSTAT] fun t => SbDirAnswered d.toNat 0x06 0 t) ∧
    (∀ (d : Byte) (epoch : Word) (arg : BitVec 64), s.sbAnswers = true → s.mgtDirective d.toNat = false → s.sb.arb = [] → (1 ≤
      d.toNat ∧ d.toNat ≤ 11) → isMembership d.toNat = false → (d = 3 → epoch = s.mir.epoch) → s.triggered = false → (s.fld
      Fld.GLB_DIRSTAT.BUSY).testBit d.toNat = true → Runs s (.sbDirective d epoch arg) [.sb, .reg Reg.GLB_DIRSTAT] fun t =>
      SbDirAnswered d.toNat 0x08 0 t) ∧
    (∀ (d : Byte) (epoch : Word) (arg : BitVec 64), s.sbAnswers = true → s.mgtDirective d.toNat = false → s.sb.arb = [] → (1 ≤
      d.toNat ∧ d.toNat ≤ 11) → isMembership d.toNat = false → (d = 3 → epoch = s.mir.epoch) → s.triggered = false → (s.fld
      Fld.GLB_DIRSTAT.BUSY).testBit d.toNat = false → (d = 3 ∨ s.preHolds d arg = false) → Runs s (.sbDirective d epoch arg)
      [.sb, .reg Reg.GLB_DIRSTAT] fun t => SbDirAnswered d.toNat 0x04 0 t) ∧
    (∀ (d : Byte) (epoch : Word) (arg : BitVec 64), s.sbAnswers = true → s.mgtDirective d.toNat = false → s.sb.arb = [] → (1 ≤
      d.toNat ∧ d.toNat ≤ 11) → isMembership d.toNat = false → d ≠ 3 → s.triggered = false → (s.fld
      Fld.GLB_DIRSTAT.BUSY).testBit d.toNat = false → s.preHolds d arg = true → Runs s (.sbDirective d epoch arg) (.free ::
      .time :: .clk :: .reg Reg.MAP_REJ :: .reg Reg.MIR_RBCUR :: .reg Reg.SCH_SCRUBCFG :: .reg Reg.SCH_SCRUBINT :: .block
      0x6 :: .reg Reg.CAL_ABANDONED :: .reg Reg.CLK_STAT :: .reg Reg.TIM_STAT :: transitParts) fun t => SbDirAnswered
      d.toNat 0x00 (if d = 9 then BitVec.ofNat 32 (t.fld Fld.TIM_STAT.OFFSET_EPOCH) else 0) t)

/-- An access refused as error, missing register or powered off is recorded, counted and flagged, and raises no event. For
every canonical state each command answers a next state under the conditions given, and nothing outside the parts it names
(never the queue) changes. A register read or write on any path that gets in, by field, by MGT_READ and MGT_WRITE on a
port, or by the sideband, which answers ACCESS_ERROR (1), NO_REGISTER (2) or POWERED_OFF (0x10): GLB_ACCERR holds its
path, status and address, GLB_ACCCNT counts one more (and stays at its highest value), GLB_EVENT.ACCERR is set, and the
event log is unchanged. The status of a read is the one the access check gives for the path and address; that of a write
is the one answered. Rules: R528. -/
def Obligations.RefusedAccessesNoted : Prop :=
  ∀ s : State, s.canon →
    (∀ (path : AccPath) (addr : BitVec 24), s.accessOpen path = true → Runs s (.rcFieldRead path addr) [.rx, .free, .top, .log,
      .sb, .links, .twin, .ord, .map, .mir, .sch, .flt, .cal, .pwr, .boot, .regs] fun t => (∀ st ∈ [0x01, 0x02, 0x10],
      s.accStatus path addr.toNat = st → AccessNoted path st addr.toNat s t ∧ t.log = s.log)) ∧
    (∀ (path : AccPath) (addr : BitVec 24) (data : Word), s.accessOpen path = true → s.triggered = false → Runs s (.registerWrite
      path addr data) [.rx, .free, .top, .log, .sb, .links, .twin, .ord, .map, .mir, .sch, .flt, .cal, .pwr, .boot, .regs]
      fun t => (∀ st ∈ [0x01, 0x02, 0x10], WriteAnswered path st t → AccessNoted path st addr.toNat s t ∧ t.log = s.log)) ∧
    (∀ (p : Port) (mtag : BitVec 4) (addr : BitVec 24), s.pathOpen (.mgt p mtag) = true → Runs s (.mgtRead p mtag addr) [.rx,
      .free, .top, .log, .sb, .links, .twin, .ord, .map, .mir, .sch, .flt, .cal, .pwr, .boot, .regs] fun t => (∀ st ∈ [0x01,
      0x02, 0x10], s.accStatus (.mgt p mtag) addr.toNat = st → AccessNoted (.mgt p mtag) st addr.toNat s t ∧ t.log = s.log)) ∧
    (∀ (p : Port) (mtag : BitVec 4) (addr : BitVec 24) (data : Word), s.pathOpen (.mgt p mtag) = true → s.triggered = false →
      Runs s (.mgtWrite p mtag addr data) [.rx, .free, .top, .log, .sb, .links, .twin, .ord, .map, .mir, .sch, .flt, .cal,
      .pwr, .boot, .regs] fun t => (∀ st ∈ [0x01, 0x02, 0x10], WriteAnswered (.mgt p mtag) st t → AccessNoted (.mgt p mtag)
      st addr.toNat s t ∧ t.log = s.log)) ∧
    (∀ (addr : BitVec 24) (count : Byte), s.accessOpen .sideband = true → count = 1 → Runs s (.sbReadRegisters addr count) [.rx,
      .free, .top, .log, .sb, .links, .twin, .ord, .map, .mir, .sch, .flt, .cal, .pwr, .boot, .regs] fun t => (∀ st ∈ [0x01,
      0x02, 0x10], s.accStatus .sideband addr.toNat = st → AccessNoted .sideband st addr.toNat s t ∧ t.log = s.log)) ∧
    (∀ (addr : BitVec 24) (data : Word), s.accessOpen .sideband = true → Runs s (.sbWriteRegister addr data) [.rx, .free, .top,
      .log, .sb, .links, .twin, .ord, .map, .mir, .sch, .flt, .cal, .pwr, .boot, .regs] fun t => (∀ st ∈ [0x01, 0x02, 0x10],
      WriteAnswered .sideband st t → AccessNoted .sideband st addr.toNat s t ∧ t.log = s.log))

/-- Fork numbers replicas one after another and opens their pending-ack entries; an open entry makes the replica wait. For
every canonical state each command answers a next state under the conditions given, and nothing outside the parts it names
(never the queue) changes. FORK_REPLICA with the pending-ack entry at index (last number + 1) mod 4,096 still open sends
nothing: the backlog, the last number and the table stay. With the backlog's first pool entry present, the rebuild share
kept and Fork free to send, that entry leaves the backlog, the number grows by one, and the table, where the index (number
mod 4,096) was free, holds an entry in state sent with that number and the pool entry's fork number. Rules: R172, R97. -/
def Obligations.ReplicaNumbering : Prop :=
  ∀ s : State, s.canon →
    (Tab.get (fun _ => none) s.mir.pend ((s.twin.txCount + 1) % 4096) ≠ none → Runs s .forkReplica (.links :: .twin :: .ord ::
      .mir :: .sch :: .reg Reg.MIR_RBLINES :: .reg Reg.MIR_PENDOCC :: .reg Reg.MIR_REPLSENT :: .reg Reg.ECC_SEALFAIL :: .reg
      Reg.ECC_FIRSTFAIL :: logParts) fun t => t.ord.backlog = s.ord.backlog ∧ t.twin.txCount = s.twin.txCount ∧ t.mir.pend =
      s.mir.pend) ∧
    (∀ (i : Nat) (rest : List Nat) (e : PoolEntry), s.ord.backlog = i :: rest → s.underShare = false → s.canFork = true → s.entry
      i = some e → Runs s .forkReplica (.links :: .twin :: .ord :: .mir :: .sch :: .reg Reg.MIR_RBLINES :: .reg
      Reg.MIR_PENDOCC :: .reg Reg.MIR_REPLSENT :: .reg Reg.ECC_SEALFAIL :: .reg Reg.ECC_FIRSTFAIL :: logParts) fun t =>
      t.ord.backlog = rest ∧ t.twin.txCount = s.twin.txCount + 1 ∧ (Tab.get (fun _ => none) t.mir.pend (t.twin.txCount %
      4096)).map (fun x : PendEntry => (x.state, x.rnum, x.fork)) = some (.sent, t.twin.txCount, e.forkNo) ∧ Tab.get (fun _
      => none) s.mir.pend (t.twin.txCount % 4096) = none)

/-- A flit whose CRC-48 fails after correction is counted, and nothing in it is used. For every canonical state each command
answers a next state under the conditions given, and nothing outside the parts it names (never the queue) changes. A flit
received in INIT or SERVICE: LNK_FECCORR counts every byte that FEC corrects, good or bad. A flit that is good after
correction and has no reserved KIND leaves LNK_BADFLIT; a bad one counts there once. Both counters stay at their highest
value. Two bad flits in which FEC corrects equally many bytes have the same outcome, in every state: the hub uses no field
of a bad flit, the header included. Rules: R58. -/
def Obligations.BadFlitsUnused : Prop :=
  ∀ s : State, s.canon →
    (∀ (p : Port) (bytes : List Byte), ((s.link p).lstate = .init ∨ (s.link p).lstate = .service) → flitGood (fecDecode bytes).1
      = false → Runs s (.flitReceived p bytes) (.rx :: .links :: .twin :: .ord :: .map :: .mir :: .sch :: .block 0x1 :: .reg
      Reg.ORD_FWD :: .reg Reg.ORD_LINEHOLD :: .reg Reg.ORD_FLUSHES :: .reg Reg.MIR_CAUSE :: .reg Reg.MIR_PENDOCC :: .reg
      Reg.MIR_HOSTAT :: .reg Reg.MIR_HOCNT :: .reg Reg.ECC_SEALFAIL :: .reg Reg.ECC_FIRSTFAIL :: logParts) fun t => t.fld
      ⟨Reg.LNK_BADFLIT p.idx, 31, 0⟩ = min 0xFFFFFFFF (s.fld ⟨Reg.LNK_BADFLIT p.idx, 31, 0⟩ + 1) ∧ t.fld ⟨Reg.LNK_FECCORR
      p.idx, 31, 0⟩ = min 0xFFFFFFFF (s.fld ⟨Reg.LNK_FECCORR p.idx, 31, 0⟩ + (fecDecode bytes).2)) ∧
    (∀ (p : Port) (bytes : List Byte), ((s.link p).lstate = .init ∨ (s.link p).lstate = .service) → flitGood (fecDecode bytes).1
      = true → (headerOf (fecDecode bytes).1).kind ≠ 3 → Runs s (.flitReceived p bytes) (.rx :: .links :: .twin :: .ord ::
      .map :: .mir :: .sch :: .block 0x1 :: .reg Reg.ORD_FWD :: .reg Reg.ORD_LINEHOLD :: .reg Reg.ORD_FLUSHES :: .reg
      Reg.MIR_CAUSE :: .reg Reg.MIR_PENDOCC :: .reg Reg.MIR_HOSTAT :: .reg Reg.MIR_HOCNT :: .reg Reg.ECC_SEALFAIL :: .reg
      Reg.ECC_FIRSTFAIL :: logParts) fun t => t.fld ⟨Reg.LNK_BADFLIT p.idx, 31, 0⟩ = s.fld ⟨Reg.LNK_BADFLIT p.idx, 31, 0⟩ ∧
      t.fld ⟨Reg.LNK_FECCORR p.idx, 31, 0⟩ = min 0xFFFFFFFF (s.fld ⟨Reg.LNK_FECCORR p.idx, 31, 0⟩ + (fecDecode bytes).2)) ∧
    (∀ (p : Port) (bytes other : List Byte), flitGood (fecDecode bytes).1 = false → flitGood (fecDecode other).1 = false →
     
      (fecDecode bytes).2 = (fecDecode other).2 → exec (.flitReceived p bytes) s = exec (.flitReceived p other) s)

/-- An access waits at the register arbiter while one of a higher place is served. For every canonical state each command
answers a next state under the conditions given, and nothing outside the parts it names (never the queue) changes.
Management messages come first, then the sideband, then the core. Every command that reads or writes a register over the
sideband or the core path (the latching reads, the clearing read, the register write and the writes with work of their
own, the flash commands; on the core path the cipher commands and the watchdog kick; SB_READ_REGISTERS of 1 to 16 words
and SB_WRITE_REGISTER), on a path that is alive and with an access of a higher place among the commands still queued or
one of no lower place waiting, is put last among the waiting accesses with its address, data and count, and nothing else
changes. SB_DIRECTIVE, where the sideband answers, waits in the same way while a management message queued brings the same
DCODE, or a sideband access waits. That the commands still in the queue are those of the same cycle is the model's choice
(log entry 48). Rules: R518, R539. -/
def Obligations.AccessesWaitRun : Prop :=
  ∀ s : State, s.canon →
    (∀ (path : AccPath), s.pathLive path = true → s.portBusy path = true → Runs s (.ordStrrec0Read path) [.sb] fun t => t.sb =
      { s.sb with arb := s.sb.arb ++ [{ path := path, addr := Reg.ORD_STRREC0 }] }) ∧
    (∀ (path : AccPath), s.pathLive path = true → s.portBusy path = true → Runs s (.ordFrontLoRead path) [.sb] fun t => t.sb =
      { s.sb with arb := s.sb.arb ++ [{ path := path, addr := Reg.ORD_FRONT_LO }] }) ∧
    (∀ (path : AccPath), s.pathLive path = true → s.portBusy path = true → Runs s (.timNowLoRead path) [.sb] fun t => t.sb =
      { s.sb with arb := s.sb.arb ++ [{ path := path, addr := Reg.TIM_NOW_LO }] }) ∧
    (∀ (path : AccPath), s.pathLive path = true → s.portBusy path = true → Runs s (.timOffsetLoRead path) [.sb] fun t => t.sb =
      { s.sb with arb := s.sb.arb ++ [{ path := path, addr := Reg.TIM_OFFSET_LO }] }) ∧
    (∀ (path : AccPath), s.pathLive path = true → s.portBusy path = true → Runs s (.pwrSnapstampLoRead path) [.sb] fun t => t.sb
      = { s.sb with arb := s.sb.arb ++ [{ path := path, addr := Reg.PWR_SNAPSTAMP_LO }] }) ∧
    (∀ (path : AccPath), s.pathLive path = true → s.portBusy path = true → Runs s (.mgtDieidLoRead path) [.sb] fun t => t.sb =
      { s.sb with arb := s.sb.arb ++ [{ path := path, addr := Reg.MGT_DIEID_LO }] }) ∧
    (∀ (path : AccPath) (sc : Fin 16), s.pathLive path = true → s.portBusy path = true → Runs s (.dphEyeaRead path sc) [.sb] fun
      t => t.sb = { s.sb with arb := s.sb.arb ++ [{ path := path, addr := (Reg.DPH_EYEA sc.val) }] }) ∧
    (∀ (path : AccPath), s.pathLive path = true → s.portBusy path = true → Runs s (.eccSealfailRead path) [.sb] fun t => t.sb =
      { s.sb with arb := s.sb.arb ++ [{ path := path, addr := Reg.ECC_SEALFAIL }] }) ∧
    (∀ (path : AccPath), s.pathLive path = true → s.portBusy path = true → Runs s (.logSbrec0Read path) [.sb] fun t => t.sb =
      { s.sb with arb := s.sb.arb ++ [{ path := path, addr := Reg.LOG_SBREC0 }] }) ∧
    (∀ (path : AccPath) (addr : BitVec 24), s.pathLive path = true → s.portBusy path = true → Runs s (.rcFieldRead path addr)
      [.sb] fun t => t.sb = { s.sb with arb := s.sb.arb ++ [{ path := path, addr := addr.toNat }] }) ∧
    (∀ (path : AccPath) (addr : BitVec 24) (data : Word), s.pathLive path = true → s.portBusy path = true → Runs s
      (.registerWrite path addr data) [.sb] fun t => t.sb =
      { s.sb with arb := s.sb.arb ++ [{ path := path, addr := addr.toNat, data := some data }] }) ∧
    (∀ (path : AccPath) (data : Word), s.pathLive path = true → s.portBusy path = true → Runs s (.bootRelease path data) [.sb]
      fun t => t.sb = { s.sb with arb := s.sb.arb ++ [{ path := path, addr := Reg.GLB_BOOTREL, data := some data }] }) ∧
    (∀ (path : AccPath) (data : Word), s.pathLive path = true → s.portBusy path = true → Runs s (.faultRelease path data) [.sb]
      fun t => t.sb = { s.sb with arb := s.sb.arb ++ [{ path := path, addr := Reg.GLB_FAULTREL, data := some data }] }) ∧
    (∀ (path : AccPath) (data : Word), s.pathLive path = true → s.portBusy path = true → Runs s (.calRecselWrite path data) [.sb]
      fun t => t.sb = { s.sb with arb := s.sb.arb ++ [{ path := path, addr := Reg.CAL_RECSEL, data := some data }] }) ∧
    (∀ (path : AccPath) (data : Word), s.pathLive path = true → s.portBusy path = true → Runs s (.ordStrselWrite path data) [.sb]
      fun t => t.sb = { s.sb with arb := s.sb.arb ++ [{ path := path, addr := Reg.ORD_STRSEL, data := some data }] }) ∧
    (∀ (path : AccPath) (sc : Fin 16) (data : Word), s.pathLive path = true → s.portBusy path = true → Runs s (.dphEyeselWrite
      path sc data) [.sb] fun t => t.sb =
      { s.sb with arb := s.sb.arb ++ [{ path := path, addr := (Reg.DPH_EYESEL sc.val), data := some data }] }) ∧
    (∀ (path : AccPath), s.pathLive path = true → s.portBusy path = true → Runs s (.flashRead path) [.sb] fun t => t.sb =
      { s.sb with arb := s.sb.arb ++ [{ path := path, addr := Reg.MGT_FLCMD, data := some 1 }] }) ∧
    (∀ (path : AccPath), s.pathLive path = true → s.portBusy path = true → Runs s (.flashProgram path) [.sb] fun t => t.sb =
      { s.sb with arb := s.sb.arb ++ [{ path := path, addr := Reg.MGT_FLCMD, data := some 2 }] }) ∧
    (∀ (path : AccPath), s.pathLive path = true → s.portBusy path = true → Runs s (.flashErase path) [.sb] fun t => t.sb =
      { s.sb with arb := s.sb.arb ++ [{ path := path, addr := Reg.MGT_FLCMD, data := some 3 }] }) ∧
    (∀ (path : AccPath), s.pathLive path = true → s.portBusy path = true → Runs s (.flashSetPreference path) [.sb] fun t => t.sb
      = { s.sb with arb := s.sb.arb ++ [{ path := path, addr := Reg.MGT_FLCMD, data := some 4 }] }) ∧
    (∀ (path : AccPath) (code : BitVec 4), s.pathLive path = true → s.portBusy path = true → Runs s (.flashUnknownCommand path
      code) [.sb] fun t => t.sb =
      { s.sb with arb := s.sb.arb ++ [{ path := path, addr := Reg.MGT_FLCMD, data := some (BitVec.setWidth 32 code) }] }) ∧
    (∀ (slot dest : BitVec 2), s.pathLive .core = true → s.portBusy .core = true → Runs s (.cipherEncrypt slot dest) [.sb] fun t
      => t.sb =
      { s.sb with arb := s.sb.arb ++ [{ path := .core, addr := Reg.MGT_CIPHCTL, data := some (BitVec.ofNat 32 (1 + 4 * slot.toNat + 16 * dest.toNat)) }] }) ∧
    (∀ (slot dest : BitVec 2), s.pathLive .core = true → s.portBusy .core = true → Runs s (.cipherDecrypt slot dest) [.sb] fun t
      => t.sb =
      { s.sb with arb := s.sb.arb ++ [{ path := .core, addr := Reg.MGT_CIPHCTL, data := some (BitVec.ofNat 32 (3 + 4 * slot.toNat + 16 * dest.toNat)) }] }) ∧
    (∀ (data : Word), s.pathLive .core = true → s.portBusy .core = true → Runs s (.logWdtkick data) [.sb] fun t => t.sb =
      { s.sb with arb := s.sb.arb ++ [{ path := .core, addr := Reg.LOG_WDTKICK, data := some data }] }) ∧
    (∀ (addr : BitVec 24) (count : Byte), s.sbAnswers = true → 0 < count.toNat → count.toNat ≤ 16 → s.portBusy .sideband = true →
      Runs s (.sbReadRegisters addr count) [.sb] fun t => t.sb =
      { s.sb with arb := s.sb.arb ++ [{ path := .sideband, addr := addr.toNat, count := count.toNat }] }) ∧
    (∀ (addr : BitVec 24) (data : Word), s.sbAnswers = true → s.portBusy .sideband = true → Runs s (.sbWriteRegister addr data)
      [.sb] fun t => t.sb = { s.sb with arb := s.sb.arb ++ [{ path := .sideband, addr := addr.toNat, data := some data }] }) ∧
    (∀ (dcode : Byte) (epoch : Word) (arg : BitVec 64), s.sbAnswers = true → (s.mgtDirective dcode.toNat = true ∨ s.sb.arb.any
      (fun q => q.path == .sideband) = true) → Runs s (.sbDirective dcode epoch arg) [.sb] fun t => t.sb =
      { s.sb with arb := s.sb.arb ++ [{ path := .sideband, dir := some { dcode := dcode, epoch := epoch, arg := arg } }] })

end
end

