-- ==== Sys2Proof/Laws/Tab.lean ====
section
/-!
SUPPORT. The laws of sparse tables: what a read finds after a write, and that every operation keeps the canonical form.
-/

namespace Sys2Proof.Machine

variable {α : Type}

theorem Tab.risesFrom_mono {t : Tab α} {lo hi : Nat} (h : lo ≤ hi) (w : Tab.risesFrom hi t = true) :
    Tab.risesFrom lo t = true := by
  cases t with
  | nil => rfl
  | cons p r =>
    simp only [Tab.risesFrom, Bool.and_eq_true, decide_eq_true_eq] at w ⊢
    exact ⟨by omega, w.2⟩

theorem Tab.get_put_same (d : Nat → α) (t : Tab α) (k : Nat) (v : α) : Tab.get d (Tab.put k v t) k = v := by
  induction t with
  | nil => simp [Tab.put, Tab.get]
  | cons p r ih =>
    simp only [Tab.put]
    split
    · simp [Tab.get]
    · split
      · simp [Tab.get]
      · rw [Tab.get, if_neg ‹_›]; exact ih

theorem Tab.get_put_other (d : Nat → α) (t : Tab α) {k j : Nat} (v : α) (h : j ≠ k) :
    Tab.get d (Tab.put k v t) j = Tab.get d t j := by
  induction t with
  | nil => simp [Tab.put, Tab.get, h]
  | cons p r ih =>
    simp only [Tab.put]
    split
    · simp [Tab.get, h]
    · split
      · subst_vars; simp [Tab.get, h]
      · simp only [Tab.get, ih]

theorem Tab.get_del_same (d : Nat → α) (t : Tab α) (k : Nat) : Tab.get d (Tab.del k t) k = d k := by
  induction t with
  | nil => rfl
  | cons p r ih =>
    by_cases h : p.1 = k
    · simpa [Tab.del, h] using ih
    · simp only [Tab.del, List.filter_cons, bne_iff_ne, ne_eq, h, not_false_eq_true, if_true]
      rw [Tab.get, if_neg (Ne.symm h)]
      exact ih

theorem Tab.get_del_other (d : Nat → α) (t : Tab α) {k j : Nat} (h : j ≠ k) :
    Tab.get d (Tab.del k t) j = Tab.get d t j := by
  induction t with
  | nil => rfl
  | cons p r ih =>
    by_cases e : p.1 = k
    · have : Tab.del k (p :: r) = Tab.del k r := by simp [Tab.del, e]
      rw [this, ih, Tab.get, if_neg (e ▸ h)]
    · have : Tab.del k (p :: r) = p :: Tab.del k r := by simp [Tab.del, e]
      rw [this, Tab.get, Tab.get, ih]

theorem Tab.risesFrom_put {t : Tab α} {lo k : Nat} (v : α) (w : Tab.risesFrom lo t = true) (h : lo ≤ k) :
    Tab.risesFrom lo (Tab.put k v t) = true := by
  induction t generalizing lo with
  | nil => simp [Tab.put, Tab.risesFrom, h]
  | cons p r ih =>
    simp only [Tab.risesFrom, Bool.and_eq_true, decide_eq_true_eq] at w
    simp only [Tab.put]
    split
    · simp only [Tab.risesFrom, Bool.and_eq_true, decide_eq_true_eq]; exact ⟨h, by omega, w.2⟩
    · split
      · subst_vars; simp only [Tab.risesFrom, Bool.and_eq_true, decide_eq_true_eq]; exact ⟨h, w.2⟩
      · simp only [Tab.risesFrom, Bool.and_eq_true, decide_eq_true_eq]; exact ⟨w.1, ih w.2 (by omega)⟩

theorem Tab.risesFrom_filter {t : Tab α} {lo : Nat} (f : Nat × α → Bool) (w : Tab.risesFrom lo t = true) :
    Tab.risesFrom lo (t.filter f) = true := by
  induction t generalizing lo with
  | nil => rfl
  | cons p r ih =>
    simp only [Tab.risesFrom, Bool.and_eq_true, decide_eq_true_eq] at w
    simp only [List.filter_cons]
    split
    · simp only [Tab.risesFrom, Bool.and_eq_true, decide_eq_true_eq]; exact ⟨w.1, ih w.2⟩
    · exact Tab.risesFrom_mono (by omega) (ih w.2)

theorem Tab.risesFrom_del {t : Tab α} {lo : Nat} (k : Nat) (w : Tab.risesFrom lo t = true) :
    Tab.risesFrom lo (Tab.del k t) = true := Tab.risesFrom_filter _ w

theorem Tab.mem_put {t : Tab α} {k : Nat} {v : α} {q : Nat × α} (h : q ∈ Tab.put k v t) : q = (k, v) ∨ q ∈ t := by
  induction t with
  | nil => simpa [Tab.put] using h
  | cons p r ih =>
    simp only [Tab.put] at h
    split at h
    · simpa using h
    · split at h
      · rcases List.mem_cons.1 h with h | h
        · exact .inl h
        · exact .inr (List.mem_cons_of_mem _ h)
      · rcases List.mem_cons.1 h with h | h
        · exact .inr (h ▸ List.mem_cons_self)
        · exact (ih h).imp_right (List.mem_cons_of_mem _)

theorem Tab.mem_del {t : Tab α} {k : Nat} {q : Nat × α} (h : q ∈ Tab.del k t) : q ∈ t := (List.mem_filter.1 h).1

theorem Tab.risesFrom_filterMap {t : Tab α} {f : Nat × α → Option (Nat × α)} (hk : ∀ p q, f p = some q → q.1 = p.1) {lo : Nat}
    (h : Tab.risesFrom lo t = true) : Tab.risesFrom lo (t.filterMap f) = true := by
  induction t generalizing lo with
  | nil => rfl
  | cons p r ih =>
    obtain ⟨j, w⟩ := p
    simp only [Tab.risesFrom, Bool.and_eq_true, decide_eq_true_eq] at h
    rw [List.filterMap_cons]
    split
    · exact ih (Tab.risesFrom_mono (by omega) h.2)
    · next q hq =>
      obtain ⟨k, v⟩ := q
      have : k = j := hk _ _ hq
      subst this
      simp only [Tab.risesFrom, Bool.and_eq_true, decide_eq_true_eq]
      exact ⟨h.1, ih h.2⟩

variable [DecidableEq α]

theorem Tab.wf_iff {d : Nat → α} {t : Tab α} :
    Tab.wf d t = true ↔ Tab.risesFrom 0 t = true ∧ ∀ p ∈ t, p.2 ≠ d p.1 := by
  simp [Tab.wf]

@[simp] theorem Tab.wf_nil (d : Nat → α) : Tab.wf d [] = true := rfl

/-- A write keeps the canonical form. -/
theorem Tab.wf_set {d : Nat → α} {t : Tab α} (w : Tab.wf d t = true) (k : Nat) (v : α) :
    Tab.wf d (Tab.set d t k v) = true := by
  rw [Tab.wf_iff] at w ⊢
  unfold Tab.set
  split
  · exact ⟨Tab.risesFrom_del k w.1, fun p h => w.2 p (Tab.mem_del h)⟩
  · next hv =>
    refine ⟨Tab.risesFrom_put v w.1 (Nat.zero_le k), fun p h => ?_⟩
    rcases Tab.mem_put h with rfl | h
    · exact hv
    · exact w.2 p h

/-- Leaving out entries keeps the canonical form. -/
theorem Tab.wf_filter {d : Nat → α} {t : Tab α} (w : Tab.wf d t = true) (f : Nat × α → Bool) :
    Tab.wf d (t.filter f) = true := by
  rw [Tab.wf_iff] at w ⊢
  exact ⟨Tab.risesFrom_filter f w.1, fun p h => w.2 p ((List.mem_filter.1 h).1)⟩

/-- Leaving out entries and changing what others hold keeps the canonical form, where nothing left reads as its default. -/
theorem Tab.wf_filterMap {d : Nat → α} {t : Tab α} (w : Tab.wf d t = true) {f : Nat × α → Option (Nat × α)}
    (hk : ∀ p q, f p = some q → q.1 = p.1) (hd : ∀ p q, p.2 ≠ d p.1 → f p = some q → q.2 ≠ d q.1) :
    Tab.wf d (t.filterMap f) = true := by
  rw [Tab.wf_iff] at w ⊢
  refine ⟨Tab.risesFrom_filterMap hk w.1, fun q h => ?_⟩
  obtain ⟨p, hp, e⟩ := List.mem_filterMap.1 h
  exact hd p q (w.2 p hp) e

/-- A read finds what was last written. -/
theorem Tab.get_set_same (d : Nat → α) (t : Tab α) (k : Nat) (v : α) : Tab.get d (Tab.set d t k v) k = v := by
  unfold Tab.set
  split
  · next h => rw [Tab.get_del_same, h]
  · exact Tab.get_put_same d t k v

/-- A write leaves every other key alone. -/
theorem Tab.get_set_other (d : Nat → α) (t : Tab α) {k j : Nat} (v : α) (h : j ≠ k) :
    Tab.get d (Tab.set d t k v) j = Tab.get d t j := by
  unfold Tab.set
  split
  · exact Tab.get_del_other d t h
  · exact Tab.get_put_other d t v h

end Sys2Proof.Machine
end

