-- ==== Sys2Proof/Laws/State.lean ====
section
/-!
SUPPORT. The laws of the state's own operations: what each update leaves alone, field by field, and what a register, a field of a
register and a port read as after a write.
-/

namespace Sys2Proof.Machine

/-! ### Parts an update does not touch -/

@[simp] theorem State.setReg_pending (s : State) (a : Nat) (w : Word) : (s.setReg a w).pending = s.pending := rfl
@[simp] theorem State.setReg_rx (s : State) (a : Nat) (w : Word) : (s.setReg a w).rx = s.rx := rfl
@[simp] theorem State.setReg_free (s : State) (a : Nat) (w : Word) : (s.setReg a w).free = s.free := rfl
@[simp] theorem State.setReg_top (s : State) (a : Nat) (w : Word) : (s.setReg a w).top = s.top := rfl
@[simp] theorem State.setReg_time (s : State) (a : Nat) (w : Word) : (s.setReg a w).time = s.time := rfl
@[simp] theorem State.setReg_log (s : State) (a : Nat) (w : Word) : (s.setReg a w).log = s.log := rfl
@[simp] theorem State.setReg_sb (s : State) (a : Nat) (w : Word) : (s.setReg a w).sb = s.sb := rfl
@[simp] theorem State.setReg_links (s : State) (a : Nat) (w : Word) : (s.setReg a w).links = s.links := rfl
@[simp] theorem State.setReg_twin (s : State) (a : Nat) (w : Word) : (s.setReg a w).twin = s.twin := rfl
@[simp] theorem State.setReg_ord (s : State) (a : Nat) (w : Word) : (s.setReg a w).ord = s.ord := rfl
@[simp] theorem State.setReg_map (s : State) (a : Nat) (w : Word) : (s.setReg a w).map = s.map := rfl
@[simp] theorem State.setReg_mir (s : State) (a : Nat) (w : Word) : (s.setReg a w).mir = s.mir := rfl
@[simp] theorem State.setReg_sch (s : State) (a : Nat) (w : Word) : (s.setReg a w).sch = s.sch := rfl
@[simp] theorem State.setReg_flt (s : State) (a : Nat) (w : Word) : (s.setReg a w).flt = s.flt := rfl
@[simp] theorem State.setReg_cal (s : State) (a : Nat) (w : Word) : (s.setReg a w).cal = s.cal := rfl
@[simp] theorem State.setReg_clk (s : State) (a : Nat) (w : Word) : (s.setReg a w).clk = s.clk := rfl
@[simp] theorem State.setReg_vbat (s : State) (a : Nat) (w : Word) : (s.setReg a w).vbat = s.vbat := rfl
@[simp] theorem State.setReg_pwr (s : State) (a : Nat) (w : Word) : (s.setReg a w).pwr = s.pwr := rfl
@[simp] theorem State.setReg_gust (s : State) (a : Nat) (w : Word) : (s.setReg a w).gust = s.gust := rfl
@[simp] theorem State.setReg_fuse (s : State) (a : Nat) (w : Word) : (s.setReg a w).fuse = s.fuse := rfl
@[simp] theorem State.setReg_cfgStore (s : State) (a : Nat) (w : Word) : (s.setReg a w).cfgStore = s.cfgStore := rfl
@[simp] theorem State.setReg_boot (s : State) (a : Nat) (w : Word) : (s.setReg a w).boot = s.boot := rfl
@[simp] theorem State.setReg_flash (s : State) (a : Nat) (w : Word) : (s.setReg a w).flash = s.flash := rfl
@[simp] theorem State.setReg_fmt (s : State) (a : Nat) (w : Word) : (s.setReg a w).fmt = s.fmt := rfl
@[simp] theorem State.setReg_dram (s : State) (a : Nat) (w : Word) : (s.setReg a w).dram = s.dram := rfl

@[simp] theorem State.setFld_pending (s : State) (f : Fld) (v : Nat) : (s.setFld f v).pending = s.pending := rfl
@[simp] theorem State.setFld_rx (s : State) (f : Fld) (v : Nat) : (s.setFld f v).rx = s.rx := rfl
@[simp] theorem State.setFld_free (s : State) (f : Fld) (v : Nat) : (s.setFld f v).free = s.free := rfl
@[simp] theorem State.setFld_top (s : State) (f : Fld) (v : Nat) : (s.setFld f v).top = s.top := rfl
@[simp] theorem State.setFld_time (s : State) (f : Fld) (v : Nat) : (s.setFld f v).time = s.time := rfl
@[simp] theorem State.setFld_log (s : State) (f : Fld) (v : Nat) : (s.setFld f v).log = s.log := rfl
@[simp] theorem State.setFld_sb (s : State) (f : Fld) (v : Nat) : (s.setFld f v).sb = s.sb := rfl
@[simp] theorem State.setFld_links (s : State) (f : Fld) (v : Nat) : (s.setFld f v).links = s.links := rfl
@[simp] theorem State.setFld_twin (s : State) (f : Fld) (v : Nat) : (s.setFld f v).twin = s.twin := rfl
@[simp] theorem State.setFld_ord (s : State) (f : Fld) (v : Nat) : (s.setFld f v).ord = s.ord := rfl
@[simp] theorem State.setFld_map (s : State) (f : Fld) (v : Nat) : (s.setFld f v).map = s.map := rfl
@[simp] theorem State.setFld_mir (s : State) (f : Fld) (v : Nat) : (s.setFld f v).mir = s.mir := rfl
@[simp] theorem State.setFld_sch (s : State) (f : Fld) (v : Nat) : (s.setFld f v).sch = s.sch := rfl
@[simp] theorem State.setFld_flt (s : State) (f : Fld) (v : Nat) : (s.setFld f v).flt = s.flt := rfl
@[simp] theorem State.setFld_cal (s : State) (f : Fld) (v : Nat) : (s.setFld f v).cal = s.cal := rfl
@[simp] theorem State.setFld_clk (s : State) (f : Fld) (v : Nat) : (s.setFld f v).clk = s.clk := rfl
@[simp] theorem State.setFld_vbat (s : State) (f : Fld) (v : Nat) : (s.setFld f v).vbat = s.vbat := rfl
@[simp] theorem State.setFld_pwr (s : State) (f : Fld) (v : Nat) : (s.setFld f v).pwr = s.pwr := rfl
@[simp] theorem State.setFld_gust (s : State) (f : Fld) (v : Nat) : (s.setFld f v).gust = s.gust := rfl
@[simp] theorem State.setFld_fuse (s : State) (f : Fld) (v : Nat) : (s.setFld f v).fuse = s.fuse := rfl
@[simp] theorem State.setFld_cfgStore (s : State) (f : Fld) (v : Nat) : (s.setFld f v).cfgStore = s.cfgStore := rfl
@[simp] theorem State.setFld_boot (s : State) (f : Fld) (v : Nat) : (s.setFld f v).boot = s.boot := rfl
@[simp] theorem State.setFld_flash (s : State) (f : Fld) (v : Nat) : (s.setFld f v).flash = s.flash := rfl
@[simp] theorem State.setFld_fmt (s : State) (f : Fld) (v : Nat) : (s.setFld f v).fmt = s.fmt := rfl
@[simp] theorem State.setFld_dram (s : State) (f : Fld) (v : Nat) : (s.setFld f v).dram = s.dram := rfl

@[simp] theorem State.setFlag_pending (s : State) (f : Fld) (b : Bool) : (s.setFlag f b).pending = s.pending := rfl
@[simp] theorem State.setFlag_rx (s : State) (f : Fld) (b : Bool) : (s.setFlag f b).rx = s.rx := rfl
@[simp] theorem State.setFlag_free (s : State) (f : Fld) (b : Bool) : (s.setFlag f b).free = s.free := rfl
@[simp] theorem State.setFlag_top (s : State) (f : Fld) (b : Bool) : (s.setFlag f b).top = s.top := rfl
@[simp] theorem State.setFlag_time (s : State) (f : Fld) (b : Bool) : (s.setFlag f b).time = s.time := rfl
@[simp] theorem State.setFlag_log (s : State) (f : Fld) (b : Bool) : (s.setFlag f b).log = s.log := rfl
@[simp] theorem State.setFlag_sb (s : State) (f : Fld) (b : Bool) : (s.setFlag f b).sb = s.sb := rfl
@[simp] theorem State.setFlag_links (s : State) (f : Fld) (b : Bool) : (s.setFlag f b).links = s.links := rfl
@[simp] theorem State.setFlag_twin (s : State) (f : Fld) (b : Bool) : (s.setFlag f b).twin = s.twin := rfl
@[simp] theorem State.setFlag_ord (s : State) (f : Fld) (b : Bool) : (s.setFlag f b).ord = s.ord := rfl
@[simp] theorem State.setFlag_map (s : State) (f : Fld) (b : Bool) : (s.setFlag f b).map = s.map := rfl
@[simp] theorem State.setFlag_mir (s : State) (f : Fld) (b : Bool) : (s.setFlag f b).mir = s.mir := rfl
@[simp] theorem State.setFlag_sch (s : State) (f : Fld) (b : Bool) : (s.setFlag f b).sch = s.sch := rfl
@[simp] theorem State.setFlag_flt (s : State) (f : Fld) (b : Bool) : (s.setFlag f b).flt = s.flt := rfl
@[simp] theorem State.setFlag_cal (s : State) (f : Fld) (b : Bool) : (s.setFlag f b).cal = s.cal := rfl
@[simp] theorem State.setFlag_clk (s : State) (f : Fld) (b : Bool) : (s.setFlag f b).clk = s.clk := rfl
@[simp] theorem State.setFlag_vbat (s : State) (f : Fld) (b : Bool) : (s.setFlag f b).vbat = s.vbat := rfl
@[simp] theorem State.setFlag_pwr (s : State) (f : Fld) (b : Bool) : (s.setFlag f b).pwr = s.pwr := rfl
@[simp] theorem State.setFlag_gust (s : State) (f : Fld) (b : Bool) : (s.setFlag f b).gust = s.gust := rfl
@[simp] theorem State.setFlag_fuse (s : State) (f : Fld) (b : Bool) : (s.setFlag f b).fuse = s.fuse := rfl
@[simp] theorem State.setFlag_cfgStore (s : State) (f : Fld) (b : Bool) : (s.setFlag f b).cfgStore = s.cfgStore := rfl
@[simp] theorem State.setFlag_boot (s : State) (f : Fld) (b : Bool) : (s.setFlag f b).boot = s.boot := rfl
@[simp] theorem State.setFlag_flash (s : State) (f : Fld) (b : Bool) : (s.setFlag f b).flash = s.flash := rfl
@[simp] theorem State.setFlag_fmt (s : State) (f : Fld) (b : Bool) : (s.setFlag f b).fmt = s.fmt := rfl
@[simp] theorem State.setFlag_dram (s : State) (f : Fld) (b : Bool) : (s.setFlag f b).dram = s.dram := rfl

@[simp] theorem State.bumpF_pending (s : State) (f : Fld) (n : Nat) : (s.bumpF f n).pending = s.pending := rfl
@[simp] theorem State.bumpF_rx (s : State) (f : Fld) (n : Nat) : (s.bumpF f n).rx = s.rx := rfl
@[simp] theorem State.bumpF_free (s : State) (f : Fld) (n : Nat) : (s.bumpF f n).free = s.free := rfl
@[simp] theorem State.bumpF_top (s : State) (f : Fld) (n : Nat) : (s.bumpF f n).top = s.top := rfl
@[simp] theorem State.bumpF_time (s : State) (f : Fld) (n : Nat) : (s.bumpF f n).time = s.time := rfl
@[simp] theorem State.bumpF_log (s : State) (f : Fld) (n : Nat) : (s.bumpF f n).log = s.log := rfl
@[simp] theorem State.bumpF_sb (s : State) (f : Fld) (n : Nat) : (s.bumpF f n).sb = s.sb := rfl
@[simp] theorem State.bumpF_links (s : State) (f : Fld) (n : Nat) : (s.bumpF f n).links = s.links := rfl
@[simp] theorem State.bumpF_twin (s : State) (f : Fld) (n : Nat) : (s.bumpF f n).twin = s.twin := rfl
@[simp] theorem State.bumpF_ord (s : State) (f : Fld) (n : Nat) : (s.bumpF f n).ord = s.ord := rfl
@[simp] theorem State.bumpF_map (s : State) (f : Fld) (n : Nat) : (s.bumpF f n).map = s.map := rfl
@[simp] theorem State.bumpF_mir (s : State) (f : Fld) (n : Nat) : (s.bumpF f n).mir = s.mir := rfl
@[simp] theorem State.bumpF_sch (s : State) (f : Fld) (n : Nat) : (s.bumpF f n).sch = s.sch := rfl
@[simp] theorem State.bumpF_flt (s : State) (f : Fld) (n : Nat) : (s.bumpF f n).flt = s.flt := rfl
@[simp] theorem State.bumpF_cal (s : State) (f : Fld) (n : Nat) : (s.bumpF f n).cal = s.cal := rfl
@[simp] theorem State.bumpF_clk (s : State) (f : Fld) (n : Nat) : (s.bumpF f n).clk = s.clk := rfl
@[simp] theorem State.bumpF_vbat (s : State) (f : Fld) (n : Nat) : (s.bumpF f n).vbat = s.vbat := rfl
@[simp] theorem State.bumpF_pwr (s : State) (f : Fld) (n : Nat) : (s.bumpF f n).pwr = s.pwr := rfl
@[simp] theorem State.bumpF_gust (s : State) (f : Fld) (n : Nat) : (s.bumpF f n).gust = s.gust := rfl
@[simp] theorem State.bumpF_fuse (s : State) (f : Fld) (n : Nat) : (s.bumpF f n).fuse = s.fuse := rfl
@[simp] theorem State.bumpF_cfgStore (s : State) (f : Fld) (n : Nat) : (s.bumpF f n).cfgStore = s.cfgStore := rfl
@[simp] theorem State.bumpF_boot (s : State) (f : Fld) (n : Nat) : (s.bumpF f n).boot = s.boot := rfl
@[simp] theorem State.bumpF_flash (s : State) (f : Fld) (n : Nat) : (s.bumpF f n).flash = s.flash := rfl
@[simp] theorem State.bumpF_fmt (s : State) (f : Fld) (n : Nat) : (s.bumpF f n).fmt = s.fmt := rfl
@[simp] theorem State.bumpF_dram (s : State) (f : Fld) (n : Nat) : (s.bumpF f n).dram = s.dram := rfl

@[simp] theorem State.bump_pending (s : State) (a n : Nat) : (s.bump a n).pending = s.pending := rfl
@[simp] theorem State.bump_rx (s : State) (a n : Nat) : (s.bump a n).rx = s.rx := rfl
@[simp] theorem State.bump_free (s : State) (a n : Nat) : (s.bump a n).free = s.free := rfl
@[simp] theorem State.bump_top (s : State) (a n : Nat) : (s.bump a n).top = s.top := rfl
@[simp] theorem State.bump_time (s : State) (a n : Nat) : (s.bump a n).time = s.time := rfl
@[simp] theorem State.bump_log (s : State) (a n : Nat) : (s.bump a n).log = s.log := rfl
@[simp] theorem State.bump_sb (s : State) (a n : Nat) : (s.bump a n).sb = s.sb := rfl
@[simp] theorem State.bump_links (s : State) (a n : Nat) : (s.bump a n).links = s.links := rfl
@[simp] theorem State.bump_twin (s : State) (a n : Nat) : (s.bump a n).twin = s.twin := rfl
@[simp] theorem State.bump_ord (s : State) (a n : Nat) : (s.bump a n).ord = s.ord := rfl
@[simp] theorem State.bump_map (s : State) (a n : Nat) : (s.bump a n).map = s.map := rfl
@[simp] theorem State.bump_mir (s : State) (a n : Nat) : (s.bump a n).mir = s.mir := rfl
@[simp] theorem State.bump_sch (s : State) (a n : Nat) : (s.bump a n).sch = s.sch := rfl
@[simp] theorem State.bump_flt (s : State) (a n : Nat) : (s.bump a n).flt = s.flt := rfl
@[simp] theorem State.bump_cal (s : State) (a n : Nat) : (s.bump a n).cal = s.cal := rfl
@[simp] theorem State.bump_clk (s : State) (a n : Nat) : (s.bump a n).clk = s.clk := rfl
@[simp] theorem State.bump_vbat (s : State) (a n : Nat) : (s.bump a n).vbat = s.vbat := rfl
@[simp] theorem State.bump_pwr (s : State) (a n : Nat) : (s.bump a n).pwr = s.pwr := rfl
@[simp] theorem State.bump_gust (s : State) (a n : Nat) : (s.bump a n).gust = s.gust := rfl
@[simp] theorem State.bump_fuse (s : State) (a n : Nat) : (s.bump a n).fuse = s.fuse := rfl
@[simp] theorem State.bump_cfgStore (s : State) (a n : Nat) : (s.bump a n).cfgStore = s.cfgStore := rfl
@[simp] theorem State.bump_boot (s : State) (a n : Nat) : (s.bump a n).boot = s.boot := rfl
@[simp] theorem State.bump_flash (s : State) (a n : Nat) : (s.bump a n).flash = s.flash := rfl
@[simp] theorem State.bump_fmt (s : State) (a n : Nat) : (s.bump a n).fmt = s.fmt := rfl
@[simp] theorem State.bump_dram (s : State) (a n : Nat) : (s.bump a n).dram = s.dram := rfl

@[simp] theorem State.satF_pending (s : State) (f : Fld) (v : Nat) : (s.satF f v).pending = s.pending := rfl
@[simp] theorem State.satF_rx (s : State) (f : Fld) (v : Nat) : (s.satF f v).rx = s.rx := rfl
@[simp] theorem State.satF_free (s : State) (f : Fld) (v : Nat) : (s.satF f v).free = s.free := rfl
@[simp] theorem State.satF_top (s : State) (f : Fld) (v : Nat) : (s.satF f v).top = s.top := rfl
@[simp] theorem State.satF_time (s : State) (f : Fld) (v : Nat) : (s.satF f v).time = s.time := rfl
@[simp] theorem State.satF_log (s : State) (f : Fld) (v : Nat) : (s.satF f v).log = s.log := rfl
@[simp] theorem State.satF_sb (s : State) (f : Fld) (v : Nat) : (s.satF f v).sb = s.sb := rfl
@[simp] theorem State.satF_links (s : State) (f : Fld) (v : Nat) : (s.satF f v).links = s.links := rfl
@[simp] theorem State.satF_twin (s : State) (f : Fld) (v : Nat) : (s.satF f v).twin = s.twin := rfl
@[simp] theorem State.satF_ord (s : State) (f : Fld) (v : Nat) : (s.satF f v).ord = s.ord := rfl
@[simp] theorem State.satF_map (s : State) (f : Fld) (v : Nat) : (s.satF f v).map = s.map := rfl
@[simp] theorem State.satF_mir (s : State) (f : Fld) (v : Nat) : (s.satF f v).mir = s.mir := rfl
@[simp] theorem State.satF_sch (s : State) (f : Fld) (v : Nat) : (s.satF f v).sch = s.sch := rfl
@[simp] theorem State.satF_flt (s : State) (f : Fld) (v : Nat) : (s.satF f v).flt = s.flt := rfl
@[simp] theorem State.satF_cal (s : State) (f : Fld) (v : Nat) : (s.satF f v).cal = s.cal := rfl
@[simp] theorem State.satF_clk (s : State) (f : Fld) (v : Nat) : (s.satF f v).clk = s.clk := rfl
@[simp] theorem State.satF_vbat (s : State) (f : Fld) (v : Nat) : (s.satF f v).vbat = s.vbat := rfl
@[simp] theorem State.satF_pwr (s : State) (f : Fld) (v : Nat) : (s.satF f v).pwr = s.pwr := rfl
@[simp] theorem State.satF_gust (s : State) (f : Fld) (v : Nat) : (s.satF f v).gust = s.gust := rfl
@[simp] theorem State.satF_fuse (s : State) (f : Fld) (v : Nat) : (s.satF f v).fuse = s.fuse := rfl
@[simp] theorem State.satF_cfgStore (s : State) (f : Fld) (v : Nat) : (s.satF f v).cfgStore = s.cfgStore := rfl
@[simp] theorem State.satF_boot (s : State) (f : Fld) (v : Nat) : (s.satF f v).boot = s.boot := rfl
@[simp] theorem State.satF_flash (s : State) (f : Fld) (v : Nat) : (s.satF f v).flash = s.flash := rfl
@[simp] theorem State.satF_fmt (s : State) (f : Fld) (v : Nat) : (s.satF f v).fmt = s.fmt := rfl
@[simp] theorem State.satF_dram (s : State) (f : Fld) (v : Nat) : (s.satF f v).dram = s.dram := rfl

@[simp] theorem State.setLink_pending (s : State) (p : Port) (l : LinkSt) : (s.setLink p l).pending = s.pending := rfl
@[simp] theorem State.setLink_rx (s : State) (p : Port) (l : LinkSt) : (s.setLink p l).rx = s.rx := rfl
@[simp] theorem State.setLink_free (s : State) (p : Port) (l : LinkSt) : (s.setLink p l).free = s.free := rfl
@[simp] theorem State.setLink_top (s : State) (p : Port) (l : LinkSt) : (s.setLink p l).top = s.top := rfl
@[simp] theorem State.setLink_regs (s : State) (p : Port) (l : LinkSt) : (s.setLink p l).regs = s.regs := rfl
@[simp] theorem State.setLink_time (s : State) (p : Port) (l : LinkSt) : (s.setLink p l).time = s.time := rfl
@[simp] theorem State.setLink_log (s : State) (p : Port) (l : LinkSt) : (s.setLink p l).log = s.log := rfl
@[simp] theorem State.setLink_sb (s : State) (p : Port) (l : LinkSt) : (s.setLink p l).sb = s.sb := rfl
@[simp] theorem State.setLink_twin (s : State) (p : Port) (l : LinkSt) : (s.setLink p l).twin = s.twin := rfl
@[simp] theorem State.setLink_ord (s : State) (p : Port) (l : LinkSt) : (s.setLink p l).ord = s.ord := rfl
@[simp] theorem State.setLink_map (s : State) (p : Port) (l : LinkSt) : (s.setLink p l).map = s.map := rfl
@[simp] theorem State.setLink_mir (s : State) (p : Port) (l : LinkSt) : (s.setLink p l).mir = s.mir := rfl
@[simp] theorem State.setLink_sch (s : State) (p : Port) (l : LinkSt) : (s.setLink p l).sch = s.sch := rfl
@[simp] theorem State.setLink_flt (s : State) (p : Port) (l : LinkSt) : (s.setLink p l).flt = s.flt := rfl
@[simp] theorem State.setLink_cal (s : State) (p : Port) (l : LinkSt) : (s.setLink p l).cal = s.cal := rfl
@[simp] theorem State.setLink_clk (s : State) (p : Port) (l : LinkSt) : (s.setLink p l).clk = s.clk := rfl
@[simp] theorem State.setLink_vbat (s : State) (p : Port) (l : LinkSt) : (s.setLink p l).vbat = s.vbat := rfl
@[simp] theorem State.setLink_pwr (s : State) (p : Port) (l : LinkSt) : (s.setLink p l).pwr = s.pwr := rfl
@[simp] theorem State.setLink_gust (s : State) (p : Port) (l : LinkSt) : (s.setLink p l).gust = s.gust := rfl
@[simp] theorem State.setLink_fuse (s : State) (p : Port) (l : LinkSt) : (s.setLink p l).fuse = s.fuse := rfl
@[simp] theorem State.setLink_cfgStore (s : State) (p : Port) (l : LinkSt) : (s.setLink p l).cfgStore = s.cfgStore := rfl
@[simp] theorem State.setLink_boot (s : State) (p : Port) (l : LinkSt) : (s.setLink p l).boot = s.boot := rfl
@[simp] theorem State.setLink_flash (s : State) (p : Port) (l : LinkSt) : (s.setLink p l).flash = s.flash := rfl
@[simp] theorem State.setLink_fmt (s : State) (p : Port) (l : LinkSt) : (s.setLink p l).fmt = s.fmt := rfl
@[simp] theorem State.setLink_dram (s : State) (p : Port) (l : LinkSt) : (s.setLink p l).dram = s.dram := rfl

@[simp] theorem State.onLink_pending (s : State) (p : Port) (f : LinkSt → LinkSt) : (s.onLink p f).pending = s.pending := rfl
@[simp] theorem State.onLink_rx (s : State) (p : Port) (f : LinkSt → LinkSt) : (s.onLink p f).rx = s.rx := rfl
@[simp] theorem State.onLink_free (s : State) (p : Port) (f : LinkSt → LinkSt) : (s.onLink p f).free = s.free := rfl
@[simp] theorem State.onLink_top (s : State) (p : Port) (f : LinkSt → LinkSt) : (s.onLink p f).top = s.top := rfl
@[simp] theorem State.onLink_regs (s : State) (p : Port) (f : LinkSt → LinkSt) : (s.onLink p f).regs = s.regs := rfl
@[simp] theorem State.onLink_time (s : State) (p : Port) (f : LinkSt → LinkSt) : (s.onLink p f).time = s.time := rfl
@[simp] theorem State.onLink_log (s : State) (p : Port) (f : LinkSt → LinkSt) : (s.onLink p f).log = s.log := rfl
@[simp] theorem State.onLink_sb (s : State) (p : Port) (f : LinkSt → LinkSt) : (s.onLink p f).sb = s.sb := rfl
@[simp] theorem State.onLink_twin (s : State) (p : Port) (f : LinkSt → LinkSt) : (s.onLink p f).twin = s.twin := rfl
@[simp] theorem State.onLink_ord (s : State) (p : Port) (f : LinkSt → LinkSt) : (s.onLink p f).ord = s.ord := rfl
@[simp] theorem State.onLink_map (s : State) (p : Port) (f : LinkSt → LinkSt) : (s.onLink p f).map = s.map := rfl
@[simp] theorem State.onLink_mir (s : State) (p : Port) (f : LinkSt → LinkSt) : (s.onLink p f).mir = s.mir := rfl
@[simp] theorem State.onLink_sch (s : State) (p : Port) (f : LinkSt → LinkSt) : (s.onLink p f).sch = s.sch := rfl
@[simp] theorem State.onLink_flt (s : State) (p : Port) (f : LinkSt → LinkSt) : (s.onLink p f).flt = s.flt := rfl
@[simp] theorem State.onLink_cal (s : State) (p : Port) (f : LinkSt → LinkSt) : (s.onLink p f).cal = s.cal := rfl
@[simp] theorem State.onLink_clk (s : State) (p : Port) (f : LinkSt → LinkSt) : (s.onLink p f).clk = s.clk := rfl
@[simp] theorem State.onLink_vbat (s : State) (p : Port) (f : LinkSt → LinkSt) : (s.onLink p f).vbat = s.vbat := rfl
@[simp] theorem State.onLink_pwr (s : State) (p : Port) (f : LinkSt → LinkSt) : (s.onLink p f).pwr = s.pwr := rfl
@[simp] theorem State.onLink_gust (s : State) (p : Port) (f : LinkSt → LinkSt) : (s.onLink p f).gust = s.gust := rfl
@[simp] theorem State.onLink_fuse (s : State) (p : Port) (f : LinkSt → LinkSt) : (s.onLink p f).fuse = s.fuse := rfl
@[simp] theorem State.onLink_cfgStore (s : State) (p : Port) (f : LinkSt → LinkSt) : (s.onLink p f).cfgStore = s.cfgStore := rfl
@[simp] theorem State.onLink_boot (s : State) (p : Port) (f : LinkSt → LinkSt) : (s.onLink p f).boot = s.boot := rfl
@[simp] theorem State.onLink_flash (s : State) (p : Port) (f : LinkSt → LinkSt) : (s.onLink p f).flash = s.flash := rfl
@[simp] theorem State.onLink_fmt (s : State) (p : Port) (f : LinkSt → LinkSt) : (s.onLink p f).fmt = s.fmt := rfl
@[simp] theorem State.onLink_dram (s : State) (p : Port) (f : LinkSt → LinkSt) : (s.onLink p f).dram = s.dram := rfl

@[simp] theorem State.setEntry_pending (s : State) (i : Nat) (e : Option PoolEntry) : (s.setEntry i e).pending = s.pending := rfl
@[simp] theorem State.setEntry_rx (s : State) (i : Nat) (e : Option PoolEntry) : (s.setEntry i e).rx = s.rx := rfl
@[simp] theorem State.setEntry_free (s : State) (i : Nat) (e : Option PoolEntry) : (s.setEntry i e).free = s.free := rfl
@[simp] theorem State.setEntry_top (s : State) (i : Nat) (e : Option PoolEntry) : (s.setEntry i e).top = s.top := rfl
@[simp] theorem State.setEntry_regs (s : State) (i : Nat) (e : Option PoolEntry) : (s.setEntry i e).regs = s.regs := rfl
@[simp] theorem State.setEntry_time (s : State) (i : Nat) (e : Option PoolEntry) : (s.setEntry i e).time = s.time := rfl
@[simp] theorem State.setEntry_log (s : State) (i : Nat) (e : Option PoolEntry) : (s.setEntry i e).log = s.log := rfl
@[simp] theorem State.setEntry_sb (s : State) (i : Nat) (e : Option PoolEntry) : (s.setEntry i e).sb = s.sb := rfl
@[simp] theorem State.setEntry_links (s : State) (i : Nat) (e : Option PoolEntry) : (s.setEntry i e).links = s.links := rfl
@[simp] theorem State.setEntry_twin (s : State) (i : Nat) (e : Option PoolEntry) : (s.setEntry i e).twin = s.twin := rfl
@[simp] theorem State.setEntry_map (s : State) (i : Nat) (e : Option PoolEntry) : (s.setEntry i e).map = s.map := rfl
@[simp] theorem State.setEntry_mir (s : State) (i : Nat) (e : Option PoolEntry) : (s.setEntry i e).mir = s.mir := rfl
@[simp] theorem State.setEntry_sch (s : State) (i : Nat) (e : Option PoolEntry) : (s.setEntry i e).sch = s.sch := rfl
@[simp] theorem State.setEntry_flt (s : State) (i : Nat) (e : Option PoolEntry) : (s.setEntry i e).flt = s.flt := rfl
@[simp] theorem State.setEntry_cal (s : State) (i : Nat) (e : Option PoolEntry) : (s.setEntry i e).cal = s.cal := rfl
@[simp] theorem State.setEntry_clk (s : State) (i : Nat) (e : Option PoolEntry) : (s.setEntry i e).clk = s.clk := rfl
@[simp] theorem State.setEntry_vbat (s : State) (i : Nat) (e : Option PoolEntry) : (s.setEntry i e).vbat = s.vbat := rfl
@[simp] theorem State.setEntry_pwr (s : State) (i : Nat) (e : Option PoolEntry) : (s.setEntry i e).pwr = s.pwr := rfl
@[simp] theorem State.setEntry_gust (s : State) (i : Nat) (e : Option PoolEntry) : (s.setEntry i e).gust = s.gust := rfl
@[simp] theorem State.setEntry_fuse (s : State) (i : Nat) (e : Option PoolEntry) : (s.setEntry i e).fuse = s.fuse := rfl
@[simp] theorem State.setEntry_cfgStore (s : State) (i : Nat) (e : Option PoolEntry) : (s.setEntry i e).cfgStore = s.cfgStore := rfl
@[simp] theorem State.setEntry_boot (s : State) (i : Nat) (e : Option PoolEntry) : (s.setEntry i e).boot = s.boot := rfl
@[simp] theorem State.setEntry_flash (s : State) (i : Nat) (e : Option PoolEntry) : (s.setEntry i e).flash = s.flash := rfl
@[simp] theorem State.setEntry_fmt (s : State) (i : Nat) (e : Option PoolEntry) : (s.setEntry i e).fmt = s.fmt := rfl
@[simp] theorem State.setEntry_dram (s : State) (i : Nat) (e : Option PoolEntry) : (s.setEntry i e).dram = s.dram := rfl

@[simp] theorem State.setStream_pending (s : State) (i : Nat) (r : StreamRec) : (s.setStream i r).pending = s.pending := rfl
@[simp] theorem State.setStream_rx (s : State) (i : Nat) (r : StreamRec) : (s.setStream i r).rx = s.rx := rfl
@[simp] theorem State.setStream_free (s : State) (i : Nat) (r : StreamRec) : (s.setStream i r).free = s.free := rfl
@[simp] theorem State.setStream_top (s : State) (i : Nat) (r : StreamRec) : (s.setStream i r).top = s.top := rfl
@[simp] theorem State.setStream_regs (s : State) (i : Nat) (r : StreamRec) : (s.setStream i r).regs = s.regs := rfl
@[simp] theorem State.setStream_time (s : State) (i : Nat) (r : StreamRec) : (s.setStream i r).time = s.time := rfl
@[simp] theorem State.setStream_log (s : State) (i : Nat) (r : StreamRec) : (s.setStream i r).log = s.log := rfl
@[simp] theorem State.setStream_sb (s : State) (i : Nat) (r : StreamRec) : (s.setStream i r).sb = s.sb := rfl
@[simp] theorem State.setStream_links (s : State) (i : Nat) (r : StreamRec) : (s.setStream i r).links = s.links := rfl
@[simp] theorem State.setStream_twin (s : State) (i : Nat) (r : StreamRec) : (s.setStream i r).twin = s.twin := rfl
@[simp] theorem State.setStream_map (s : State) (i : Nat) (r : StreamRec) : (s.setStream i r).map = s.map := rfl
@[simp] theorem State.setStream_mir (s : State) (i : Nat) (r : StreamRec) : (s.setStream i r).mir = s.mir := rfl
@[simp] theorem State.setStream_sch (s : State) (i : Nat) (r : StreamRec) : (s.setStream i r).sch = s.sch := rfl
@[simp] theorem State.setStream_flt (s : State) (i : Nat) (r : StreamRec) : (s.setStream i r).flt = s.flt := rfl
@[simp] theorem State.setStream_cal (s : State) (i : Nat) (r : StreamRec) : (s.setStream i r).cal = s.cal := rfl
@[simp] theorem State.setStream_clk (s : State) (i : Nat) (r : StreamRec) : (s.setStream i r).clk = s.clk := rfl
@[simp] theorem State.setStream_vbat (s : State) (i : Nat) (r : StreamRec) : (s.setStream i r).vbat = s.vbat := rfl
@[simp] theorem State.setStream_pwr (s : State) (i : Nat) (r : StreamRec) : (s.setStream i r).pwr = s.pwr := rfl
@[simp] theorem State.setStream_gust (s : State) (i : Nat) (r : StreamRec) : (s.setStream i r).gust = s.gust := rfl
@[simp] theorem State.setStream_fuse (s : State) (i : Nat) (r : StreamRec) : (s.setStream i r).fuse = s.fuse := rfl
@[simp] theorem State.setStream_cfgStore (s : State) (i : Nat) (r : StreamRec) : (s.setStream i r).cfgStore = s.cfgStore := rfl
@[simp] theorem State.setStream_boot (s : State) (i : Nat) (r : StreamRec) : (s.setStream i r).boot = s.boot := rfl
@[simp] theorem State.setStream_flash (s : State) (i : Nat) (r : StreamRec) : (s.setStream i r).flash = s.flash := rfl
@[simp] theorem State.setStream_fmt (s : State) (i : Nat) (r : StreamRec) : (s.setStream i r).fmt = s.fmt := rfl
@[simp] theorem State.setStream_dram (s : State) (i : Nat) (r : StreamRec) : (s.setStream i r).dram = s.dram := rfl

@[simp] theorem State.setSub_pending (s : State) (n : Nat) (c : SubCh) : (s.setSub n c).pending = s.pending := rfl
@[simp] theorem State.setSub_rx (s : State) (n : Nat) (c : SubCh) : (s.setSub n c).rx = s.rx := rfl
@[simp] theorem State.setSub_free (s : State) (n : Nat) (c : SubCh) : (s.setSub n c).free = s.free := rfl
@[simp] theorem State.setSub_top (s : State) (n : Nat) (c : SubCh) : (s.setSub n c).top = s.top := rfl
@[simp] theorem State.setSub_regs (s : State) (n : Nat) (c : SubCh) : (s.setSub n c).regs = s.regs := rfl
@[simp] theorem State.setSub_time (s : State) (n : Nat) (c : SubCh) : (s.setSub n c).time = s.time := rfl
@[simp] theorem State.setSub_log (s : State) (n : Nat) (c : SubCh) : (s.setSub n c).log = s.log := rfl
@[simp] theorem State.setSub_sb (s : State) (n : Nat) (c : SubCh) : (s.setSub n c).sb = s.sb := rfl
@[simp] theorem State.setSub_links (s : State) (n : Nat) (c : SubCh) : (s.setSub n c).links = s.links := rfl
@[simp] theorem State.setSub_twin (s : State) (n : Nat) (c : SubCh) : (s.setSub n c).twin = s.twin := rfl
@[simp] theorem State.setSub_ord (s : State) (n : Nat) (c : SubCh) : (s.setSub n c).ord = s.ord := rfl
@[simp] theorem State.setSub_map (s : State) (n : Nat) (c : SubCh) : (s.setSub n c).map = s.map := rfl
@[simp] theorem State.setSub_mir (s : State) (n : Nat) (c : SubCh) : (s.setSub n c).mir = s.mir := rfl
@[simp] theorem State.setSub_flt (s : State) (n : Nat) (c : SubCh) : (s.setSub n c).flt = s.flt := rfl
@[simp] theorem State.setSub_cal (s : State) (n : Nat) (c : SubCh) : (s.setSub n c).cal = s.cal := rfl
@[simp] theorem State.setSub_clk (s : State) (n : Nat) (c : SubCh) : (s.setSub n c).clk = s.clk := rfl
@[simp] theorem State.setSub_vbat (s : State) (n : Nat) (c : SubCh) : (s.setSub n c).vbat = s.vbat := rfl
@[simp] theorem State.setSub_pwr (s : State) (n : Nat) (c : SubCh) : (s.setSub n c).pwr = s.pwr := rfl
@[simp] theorem State.setSub_gust (s : State) (n : Nat) (c : SubCh) : (s.setSub n c).gust = s.gust := rfl
@[simp] theorem State.setSub_fuse (s : State) (n : Nat) (c : SubCh) : (s.setSub n c).fuse = s.fuse := rfl
@[simp] theorem State.setSub_cfgStore (s : State) (n : Nat) (c : SubCh) : (s.setSub n c).cfgStore = s.cfgStore := rfl
@[simp] theorem State.setSub_boot (s : State) (n : Nat) (c : SubCh) : (s.setSub n c).boot = s.boot := rfl
@[simp] theorem State.setSub_flash (s : State) (n : Nat) (c : SubCh) : (s.setSub n c).flash = s.flash := rfl
@[simp] theorem State.setSub_fmt (s : State) (n : Nat) (c : SubCh) : (s.setSub n c).fmt = s.fmt := rfl
@[simp] theorem State.setSub_dram (s : State) (n : Nat) (c : SubCh) : (s.setSub n c).dram = s.dram := rfl

@[simp] theorem State.setReader_pending (s : State) (n : Nat) (r : Option Nat) : (s.setReader n r).pending = s.pending := rfl
@[simp] theorem State.setReader_rx (s : State) (n : Nat) (r : Option Nat) : (s.setReader n r).rx = s.rx := rfl
@[simp] theorem State.setReader_free (s : State) (n : Nat) (r : Option Nat) : (s.setReader n r).free = s.free := rfl
@[simp] theorem State.setReader_top (s : State) (n : Nat) (r : Option Nat) : (s.setReader n r).top = s.top := rfl
@[simp] theorem State.setReader_regs (s : State) (n : Nat) (r : Option Nat) : (s.setReader n r).regs = s.regs := rfl
@[simp] theorem State.setReader_time (s : State) (n : Nat) (r : Option Nat) : (s.setReader n r).time = s.time := rfl
@[simp] theorem State.setReader_sb (s : State) (n : Nat) (r : Option Nat) : (s.setReader n r).sb = s.sb := rfl
@[simp] theorem State.setReader_links (s : State) (n : Nat) (r : Option Nat) : (s.setReader n r).links = s.links := rfl
@[simp] theorem State.setReader_twin (s : State) (n : Nat) (r : Option Nat) : (s.setReader n r).twin = s.twin := rfl
@[simp] theorem State.setReader_ord (s : State) (n : Nat) (r : Option Nat) : (s.setReader n r).ord = s.ord := rfl
@[simp] theorem State.setReader_map (s : State) (n : Nat) (r : Option Nat) : (s.setReader n r).map = s.map := rfl
@[simp] theorem State.setReader_mir (s : State) (n : Nat) (r : Option Nat) : (s.setReader n r).mir = s.mir := rfl
@[simp] theorem State.setReader_sch (s : State) (n : Nat) (r : Option Nat) : (s.setReader n r).sch = s.sch := rfl
@[simp] theorem State.setReader_flt (s : State) (n : Nat) (r : Option Nat) : (s.setReader n r).flt = s.flt := rfl
@[simp] theorem State.setReader_cal (s : State) (n : Nat) (r : Option Nat) : (s.setReader n r).cal = s.cal := rfl
@[simp] theorem State.setReader_clk (s : State) (n : Nat) (r : Option Nat) : (s.setReader n r).clk = s.clk := rfl
@[simp] theorem State.setReader_vbat (s : State) (n : Nat) (r : Option Nat) : (s.setReader n r).vbat = s.vbat := rfl
@[simp] theorem State.setReader_pwr (s : State) (n : Nat) (r : Option Nat) : (s.setReader n r).pwr = s.pwr := rfl
@[simp] theorem State.setReader_gust (s : State) (n : Nat) (r : Option Nat) : (s.setReader n r).gust = s.gust := rfl
@[simp] theorem State.setReader_fuse (s : State) (n : Nat) (r : Option Nat) : (s.setReader n r).fuse = s.fuse := rfl
@[simp] theorem State.setReader_cfgStore (s : State) (n : Nat) (r : Option Nat) : (s.setReader n r).cfgStore = s.cfgStore := rfl
@[simp] theorem State.setReader_boot (s : State) (n : Nat) (r : Option Nat) : (s.setReader n r).boot = s.boot := rfl
@[simp] theorem State.setReader_flash (s : State) (n : Nat) (r : Option Nat) : (s.setReader n r).flash = s.flash := rfl
@[simp] theorem State.setReader_fmt (s : State) (n : Nat) (r : Option Nat) : (s.setReader n r).fmt = s.fmt := rfl
@[simp] theorem State.setReader_dram (s : State) (n : Nat) (r : Option Nat) : (s.setReader n r).dram = s.dram := rfl

@[simp] theorem State.draw_pending (s : State) : s.draw.2.pending = s.pending := rfl
@[simp] theorem State.draw_rx (s : State) : s.draw.2.rx = s.rx := rfl
@[simp] theorem State.draw_top (s : State) : s.draw.2.top = s.top := rfl
@[simp] theorem State.draw_regs (s : State) : s.draw.2.regs = s.regs := rfl
@[simp] theorem State.draw_time (s : State) : s.draw.2.time = s.time := rfl
@[simp] theorem State.draw_log (s : State) : s.draw.2.log = s.log := rfl
@[simp] theorem State.draw_sb (s : State) : s.draw.2.sb = s.sb := rfl
@[simp] theorem State.draw_links (s : State) : s.draw.2.links = s.links := rfl
@[simp] theorem State.draw_twin (s : State) : s.draw.2.twin = s.twin := rfl
@[simp] theorem State.draw_ord (s : State) : s.draw.2.ord = s.ord := rfl
@[simp] theorem State.draw_map (s : State) : s.draw.2.map = s.map := rfl
@[simp] theorem State.draw_mir (s : State) : s.draw.2.mir = s.mir := rfl
@[simp] theorem State.draw_sch (s : State) : s.draw.2.sch = s.sch := rfl
@[simp] theorem State.draw_flt (s : State) : s.draw.2.flt = s.flt := rfl
@[simp] theorem State.draw_cal (s : State) : s.draw.2.cal = s.cal := rfl
@[simp] theorem State.draw_clk (s : State) : s.draw.2.clk = s.clk := rfl
@[simp] theorem State.draw_vbat (s : State) : s.draw.2.vbat = s.vbat := rfl
@[simp] theorem State.draw_pwr (s : State) : s.draw.2.pwr = s.pwr := rfl
@[simp] theorem State.draw_gust (s : State) : s.draw.2.gust = s.gust := rfl
@[simp] theorem State.draw_fuse (s : State) : s.draw.2.fuse = s.fuse := rfl
@[simp] theorem State.draw_cfgStore (s : State) : s.draw.2.cfgStore = s.cfgStore := rfl
@[simp] theorem State.draw_boot (s : State) : s.draw.2.boot = s.boot := rfl
@[simp] theorem State.draw_flash (s : State) : s.draw.2.flash = s.flash := rfl
@[simp] theorem State.draw_fmt (s : State) : s.draw.2.fmt = s.fmt := rfl
@[simp] theorem State.draw_dram (s : State) : s.draw.2.dram = s.dram := rfl
@[simp] theorem State.draw_free (s : State) : s.draw.2.free = s.free + 1 := rfl

/-! ### Registers -/

theorem State.canon_regs {s : State} (c : s.canon) : Tab.wf regReset s.regs = true := c.1

/-- A register reads what was written to it. -/
@[simp] theorem State.reg_setReg (s : State) (a : Nat) (w : Word) : (s.setReg a w).reg a = w :=
  Tab.get_set_same _ _ a w

/-- A register write leaves every other register alone. -/
theorem State.reg_setReg_other (s : State) {a b : Nat} (w : Word) (h : b ≠ a) :
    (s.setReg a w).reg b = s.reg b :=
  Tab.get_set_other _ _ w h

/-- A register write keeps the canonical form. -/
theorem State.canon_setReg {s : State} (c : s.canon) (a : Nat) (w : Word) : (s.setReg a w).canon :=
  ⟨Tab.wf_set c.1 a w, c.2⟩

theorem State.canon_setFld {s : State} (c : s.canon) (f : Fld) (v : Nat) : (s.setFld f v).canon := State.canon_setReg c _ _

theorem State.canon_setFlag {s : State} (c : s.canon) (f : Fld) (b : Bool) : (s.setFlag f b).canon := State.canon_setReg c _ _

theorem State.canon_setLink {s : State} (c : s.canon) (p : Port) (l : LinkSt) : (s.setLink p l).canon :=
  ⟨c.1, Tab.wf_set c.2.1 p.idx l, c.2.2⟩

/-- The bits of a word after a field of it has been written. -/
theorem fieldPut_testBit (w : Word) (hi lo v i : Nat) :
    (fieldPut w hi lo v).toNat.testBit i =
      if lo ≤ i ∧ i < lo + (hi + 1 - lo) ∧ i < 32 then v.testBit (i - lo) else w.toNat.testBit i := by
  by_cases h32 : i < 32
  · have hw : ∀ x : Word, x.toNat.testBit i = x.getLsbD i := fun x => rfl
    simp only [fieldPut, hw, BitVec.getLsbD_or, BitVec.getLsbD_and, BitVec.getLsbD_not, BitVec.getLsbD_ofNat, h32,
      decide_true, Bool.true_and, Nat.testBit_shiftLeft, Nat.testBit_two_pow_sub_one, and_true]
    by_cases h1 : lo ≤ i
    · by_cases h2 : i < lo + (hi + 1 - lo)
      · simp [h1, h2, show i - lo < hi + 1 - lo by omega]
      · simp [h1, h2, show ¬ (i - lo < hi + 1 - lo) by omega]
    · simp [h1]
  · have hz : ∀ x : Word, x.toNat.testBit i = false := fun x =>
      Nat.testBit_lt_two_pow (Nat.lt_of_lt_of_le x.isLt (Nat.pow_le_pow_right (by decide) (by omega)))
    simp [hz, h32]

theorem fieldGet_testBit (w : Word) (hi lo i : Nat) :
    (fieldGet w hi lo).testBit i = (decide (i < hi + 1 - lo) && w.toNat.testBit (lo + i)) := by
  simp [fieldGet, Nat.testBit_mod_two_pow, Nat.testBit_shiftRight]

/-- A field reads what was written to it, cut to its width. -/
theorem fieldGet_fieldPut (w : Word) {hi lo : Nat} (h : hi < 32) (v : Nat) :
    fieldGet (fieldPut w hi lo v) hi lo = v % 2 ^ (hi + 1 - lo) := by
  apply Nat.eq_of_testBit_eq
  intro i
  rw [fieldGet_testBit, fieldPut_testBit, Nat.testBit_mod_two_pow]
  by_cases hi' : i < hi + 1 - lo
  · rw [if_pos ⟨by omega, by omega, by omega⟩, Nat.add_sub_cancel_left]
  · simp [hi']

/-- A field write leaves the fields beside it alone. -/
theorem fieldGet_fieldPut_disjoint (w : Word) {hi lo hi' lo' : Nat} (v : Nat) (h : hi' < lo ∨ hi < lo') :
    fieldGet (fieldPut w hi lo v) hi' lo' = fieldGet w hi' lo' := by
  apply Nat.eq_of_testBit_eq
  intro i
  rw [fieldGet_testBit, fieldGet_testBit, fieldPut_testBit]
  by_cases hi' : i < hi' + 1 - lo'
  · rw [if_neg (by omega)]
  · simp [hi']

theorem State.fld_setFld (s : State) (f : Fld) (v : Nat) (h : f.hi < 32) :
    (s.setFld f v).fld f = v % 2 ^ (f.hi + 1 - f.lo) := by
  rw [State.fld, State.setFld, State.reg_setReg, fieldGet_fieldPut _ h]

theorem State.fld_setFld_other (s : State) {f g : Fld} (v : Nat) (h : g.addr ≠ f.addr) :
    (s.setFld f v).fld g = s.fld g := by
  rw [State.fld, State.setFld, State.reg_setReg_other s _ h, State.fld]

theorem State.fld_setFld_disjoint (s : State) {f g : Fld} (v : Nat) (ha : g.addr = f.addr)
    (h : g.hi < f.lo ∨ f.hi < g.lo) : (s.setFld f v).fld g = s.fld g := by
  rw [State.fld, State.setFld, ha, State.reg_setReg, fieldGet_fieldPut_disjoint _ _ h, State.fld, ha]

theorem State.flag_setFlag (s : State) (f : Fld) (b : Bool) (h : f.hi < 32) (h1 : f.lo ≤ f.hi) :
    (s.setFlag f b).flag f = b := by
  have hp : 1 < 2 ^ (f.hi + 1 - f.lo) := Nat.one_lt_two_pow (by omega)
  rw [State.flag, State.setFlag, State.fld_setFld s f _ h]
  cases b with
  | true => simp [bitOf, Nat.mod_eq_of_lt hp]
  | false => simp [bitOf]

/-! ### Ports -/

/-- A port's state is what was last written. -/
@[simp] theorem State.link_setLink (s : State) (p : Port) (l : LinkSt) : (s.setLink p l).link p = l :=
  Tab.get_set_same _ _ p.idx l

theorem Port.idx_inj {p q : Port} (h : p.idx = q.idx) : p = q := by cases p <;> cases q <;> simp_all [Port.idx]

/-- A write to one port leaves the others alone. -/
theorem State.link_setLink_other (s : State) {p q : Port} (l : LinkSt) (h : q ≠ p) :
    (s.setLink p l).link q = s.link q :=
  Tab.get_set_other _ _ l (fun e => h (Port.idx_inj e))

/-! ### The other tables -/

@[simp] theorem State.sub_setSub (s : State) (n : Nat) (c : SubCh) : (s.setSub n c).sub n = c := Tab.get_set_same _ _ n c

theorem State.sub_setSub_other (s : State) {n m : Nat} (c : SubCh) (h : m ≠ n) : (s.setSub n c).sub m = s.sub m :=
  Tab.get_set_other _ _ c h

@[simp] theorem State.entry_setEntry (s : State) (i : Nat) (e : Option PoolEntry) : (s.setEntry i e).entry i = e :=
  Tab.get_set_same _ _ i e

theorem State.entry_setEntry_other (s : State) {i j : Nat} (e : Option PoolEntry) (h : j ≠ i) :
    (s.setEntry i e).entry j = s.entry j :=
  Tab.get_set_other _ _ e h

@[simp] theorem State.stream_setStream (s : State) (i : Nat) (r : StreamRec) : (s.setStream i r).stream i = r :=
  Tab.get_set_same _ _ i r

theorem State.stream_setStream_other (s : State) {i j : Nat} (r : StreamRec) (h : j ≠ i) :
    (s.setStream i r).stream j = s.stream j :=
  Tab.get_set_other _ _ r h

@[simp] theorem State.rank_setRank (s : State) (p : Nat) (r : RankSt) : (s.setRank p r).rank p = r := Tab.get_set_same _ _ p r

theorem State.rank_setRank_other (s : State) {p q : Nat} (r : RankSt) (h : q ≠ p) : (s.setRank p r).rank q = s.rank q :=
  Tab.get_set_other _ _ r h

@[simp] theorem State.run_setRun (s : State) (p : Nat) (r : Option CalRun) : (s.setRun p r).run p = r :=
  Tab.get_set_same _ _ p r

theorem State.run_setRun_other (s : State) {p q : Nat} (r : Option CalRun) (h : q ≠ p) : (s.setRun p r).run q = s.run q :=
  Tab.get_set_other _ _ r h

@[simp] theorem State.live_setLive (s : State) (p : Nat) (r : List Byte) : (s.setLive p r).live p = r :=
  Tab.get_set_same _ _ p r

theorem State.live_setLive_other (s : State) {p q : Nat} (r : List Byte) (h : q ≠ p) : (s.setLive p r).live q = s.live q :=
  Tab.get_set_other _ _ r h

end Sys2Proof.Machine
end

