-- ==== Sys2Proof/Laws/Keeps.lean ====
section
/-!
SUPPORT. How the frames of operations compose: `Keeps P` is reflexive and transitive, grows with `P`, and holds of every update of a
part by itself.
-/

namespace Sys2Proof.Machine

/-- A number for each part, so that parts compare quickly. -/
def Part.code : Part → Nat
  | .pending => 0 | .rx => 1 | .free => 2 | .top => 3 | .regs => 4 | .time => 5 | .log => 6 | .sb => 7 | .links => 8 | .twin => 9
  | .ord => 10 | .map => 11 | .mir => 12 | .sch => 13 | .flt => 14 | .cal => 15 | .clk => 16 | .vbat => 17 | .pwr => 18
  | .gust => 19 | .fuse => 20 | .cfgStore => 21 | .boot => 22 | .flash => 23 | .fmt => 24 | .dram => 25
  | .block b => 2 * b + 26 | .reg a => 2 * a + 27

theorem Part.code_inj {q p : Part} (h : q.code = p.code) : q = p := by
  cases q <;> cases p <;> simp only [Part.code] at h <;> first | rfl | omega | (congr 1; omega)

/-- Whatever part `q` shows in, the larger part shows in too. -/
def Part.within (q p : Part) : Bool :=
  Nat.beq q.code p.code || (match q, p with
    | .block _, .regs => true
    | .reg _, .regs => true
    | .reg a, .block b => Nat.beq (a >>> 16) b
    | _, _ => false)

def partsWithin (Q P : List Part) : Bool := Q.all fun q => P.any fun p => q.within p

theorem Part.covers_within {q p r : Part} (h : q.within p = true) (c : q.covers r = true) : p.covers r = true := by
  unfold Part.within at h
  rcases Bool.or_eq_true_iff.1 h with h | h
  · rw [← Part.code_inj (Nat.eq_of_beq_eq_true h)]; exact c
  · cases q <;> cases p <;> simp_all <;> cases r <;> simp_all [Part.covers]

theorem uncovered_within {P Q : List Part} (h : partsWithin Q P = true) {p : Part}
    (u : P.any (Part.covers · p) = false) : Q.any (Part.covers · p) = false := by
  rw [List.any_eq_false] at u ⊢
  intro q hq c
  obtain ⟨r, hr, w⟩ := List.any_eq_true.1 (List.all_eq_true.1 h q hq)
  exact u r hr (Part.covers_within w c)

/-- The same test for two lists in the order of the parts, in one pass. -/
def partsIn : List Part → List Part → Bool
  | Q, [] => Q.isEmpty
  | Q, p :: P => partsIn (Q.dropWhile fun q => q.within p) P

theorem partsIn_within {Q P : List Part} (h : partsIn Q P = true) : ∀ q ∈ Q, ∃ p ∈ P, q.within p = true := by
  induction P generalizing Q with
  | nil => intro q hq; rw [partsIn, List.isEmpty_iff] at h; simp [h] at hq
  | cons p P ih =>
    intro q hq
    rw [← List.takeWhile_append_dropWhile (p := fun q => q.within p) (l := Q), List.mem_append] at hq
    rcases hq with hq | hq
    · exact ⟨p, List.mem_cons_self, List.all_eq_true.1 List.all_takeWhile q hq⟩
    · obtain ⟨r, hr, w⟩ := ih h q hq
      exact ⟨r, List.mem_cons_of_mem _ hr, w⟩

theorem partsWithin_of_in {Q P : List Part} (h : partsIn Q P = true) : partsWithin Q P = true :=
  List.all_eq_true.2 fun q hq => List.any_eq_true.2 (partsIn_within h q hq)

theorem Part.same_refl (s : State) (p : Part) : Part.same s s p := by cases p <;> simp [Part.same]

theorem Part.same_trans {a b c : State} {p : Part} (h : Part.same a b p) (k : Part.same b c p) : Part.same a c p := by
  cases p <;> simp_all [Part.same]

theorem Keeps.refl (P : List Part) (s : State) : Keeps P s s := fun c => ⟨c, fun p _ => Part.same_refl s p⟩

theorem Keeps.trans {P : List Part} {a b c : State} (h : Keeps P a b) (k : Keeps P b c) : Keeps P a c := fun ca =>
  ⟨(k (h ca).1).1, fun p u => Part.same_trans ((h ca).2 p u) ((k (h ca).1).2 p u)⟩

theorem Keeps.mono {P Q : List Part} {a b : State} (k : Keeps Q a b) (h : partsWithin Q P = true) : Keeps P a b := fun c =>
  ⟨(k c).1, fun p u => (k c).2 p (uncovered_within h u)⟩

/-- One more operation at the end of a run of them. -/
theorem Keeps.via {P Q : List Part} {a b c : State} (k : Keeps Q b c) (h : partsIn Q P = true) (r : Keeps P a b) :
    Keeps P a c := r.trans (k.mono (partsWithin_of_in h))

theorem Keeps.foldS {P : List Part} {α : Type} (l : List α) (f : State → α → State) {a s : State} (h : Keeps P a s)
    (k : ∀ t x, Keeps P a t → Keeps P a (f t x)) : Keeps P a (foldS l f s) := by
  induction l generalizing s with
  | nil => exact h
  | cons x r ih => exact ih (k s x h)

theorem Keeps.foldl {P : List Part} {α : Type} (l : List α) (f : State → α → State) {a s : State} (h : Keeps P a s)
    (k : ∀ t x, Keeps P a t → Keeps P a (f t x)) : Keeps P a (l.foldl f s) := Keeps.foldS l f h k

/-- A write of some register, where any may change. -/
theorem Keeps.viaReg {P : List Part} {a b c : State} {r : Nat} (k : Keeps [.reg r] b c) (h : partsIn [.regs] P = true)
    (q : Keeps P a b) : Keeps P a c :=
  Keeps.via (k.mono (Q := [.reg r]) (P := [.regs]) rfl) h q

/-- The registers of a family lie in one block. -/
theorem fam_block (base stride n k : Nat) {b : Nat} (hb : base / 65536 = b) (h : base % 65536 + stride * k < 65536 + stride ∧ 0 < k) :
    (base + stride * (n % k)) >>> 16 = b := by
  have h1 : n % k ≤ k - 1 := by have := Nat.mod_lt n h.2; omega
  have h2 : stride * (n % k) ≤ stride * (k - 1) := Nat.mul_le_mul_left _ h1
  have h3 : stride * (k - 1) + stride = stride * k := by rw [← Nat.mul_succ]; congr 1; omega
  rw [Nat.shiftRight_eq_div_pow]
  omega

/-- A write of some register of a block. -/
theorem Keeps.viaBlock {P : List Part} {r b : Nat} {x y z : State} (k : Keeps [.reg r] y z)
    (hb : r >>> 16 = b) (h : partsIn [.block b] P = true) (q : Keeps P x y) : Keeps P x z :=
  Keeps.via (k.mono (Q := [.reg r]) (P := [.block b]) (by simp [partsWithin, Part.within, hb, Nat.beq_refl])) h q

theorem Keeps.ofPairL {P : List Part} {α : Type} {a t : State} {x : α} {p : State × α} (e : p = (t, x)) (k : Keeps P a p.1) :
    Keeps P a t := by
  rw [e] at k; exact k

theorem Keeps.ofPairR {P : List Part} {α : Type} {a t : State} {x : α} {p : α × State} (e : p = (x, t)) (k : Keeps P a p.2) :
    Keeps P a t := by
  rw [e] at k; exact k

theorem Keeps.ite {P : List Part} {c : Prop} [Decidable c] {a x y : State} (h : Keeps P a x) (k : Keeps P a y) :
    Keeps P a (if c then x else y) := by
  split <;> assumption

theorem Keeps.iteL {P : List Part} {α : Type} {c : Prop} [Decidable c] {a : State} {x y : State × α} (h : Keeps P a x.1)
    (k : Keeps P a y.1) : Keeps P a (if c then x else y).1 := by
  split <;> assumption

theorem Keeps.iteR {P : List Part} {α : Type} {c : Prop} [Decidable c] {a : State} {x y : α × State} (h : Keeps P a x.2)
    (k : Keeps P a y.2) : Keeps P a (if c then x else y).2 := by
  split <;> assumption

/-- Whatever state an operation that may fail answers, only the parts in `P` change. -/
def KeepsOpt (P : List Part) (s : State) (o : Option State) : Prop := ∀ t, o = some t → Keeps P s t

theorem KeepsOpt.some {P : List Part} {a b : State} (h : Keeps P a b) : KeepsOpt P a (Option.some b) := fun _ e =>
  Option.some.inj e ▸ h

theorem KeepsOpt.none {P : List Part} {a : State} : KeepsOpt P a Option.none := fun _ e => nomatch e

theorem KeepsOpt.ite {P : List Part} {c : Prop} [Decidable c] {a : State} {x y : Option State} (h : KeepsOpt P a x)
    (k : KeepsOpt P a y) : KeepsOpt P a (if c then x else y) := by
  split <;> assumption

theorem KeepsOpt.via {P Q : List Part} {a b : State} {o : Option State} (k : KeepsOpt Q b o) (h : partsIn Q P = true)
    (r : Keeps P a b) : KeepsOpt P a o := fun t e => Keeps.via (k t e) h r

theorem Keeps.foldlL {P : List Part} {α β : Type} (l : List α) (f : State × β → α → State × β) {a : State} {x : State × β}
    (h : Keeps P a x.1) (k : ∀ t y, Keeps P a t.1 → Keeps P a (f t y).1) : Keeps P a (l.foldl f x).1 := by
  induction l generalizing x with
  | nil => exact h
  | cons y r ih => exact ih (k x y h)

theorem Keeps.ofSome {P : List Part} {a t : State} {o : Option State} (e : o = Option.some t) (k : KeepsOpt P a o) : Keeps P a t :=
  k t e

theorem Keeps.getD {P : List Part} {a x : State} {o : Option State} (k : KeepsOpt P a o) (h : Keeps P a x) :
    Keeps P a (o.getD x) := by
  cases o with
  | none => exact h
  | some y => exact k y rfl

theorem KeepsOpt.map {P : List Part} {α : Type} {a : State} {f : α → State} {o : Option α} (k : ∀ x, Keeps P a (f x)) :
    KeepsOpt P a (o.map f) := by
  cases o with
  | none => exact KeepsOpt.none
  | some x => exact KeepsOpt.some (k x)

theorem KeepsOpt.bind {P : List Part} {α : Type} {a : State} {f : α → Option State} {o : Option α} (k : ∀ x, KeepsOpt P a (f x)) :
    KeepsOpt P a (o.bind f) := by
  cases o with
  | none => exact KeepsOpt.none
  | some x => exact k x

theorem KeepsOpt.findSome {P : List Part} {α : Type} {a : State} {f : α → Option State} {l : List α}
    (k : ∀ x, KeepsOpt P a (f x)) : KeepsOpt P a (l.findSome? f) := by
  induction l with
  | nil => exact KeepsOpt.none
  | cons x r ih =>
    intro t e
    rw [List.findSome?_cons] at e
    split at e
    · next h => exact k x t (h.trans e)
    · exact ih t e

theorem repeatS_keeps {P : List Part} {f : State → Option State} (k : ∀ t, KeepsOpt P t (f t)) (n : Nat) (s : State) :
    Keeps P s (repeatS f n s) := by
  induction n generalizing s with
  | zero => exact Keeps.refl P s
  | succ n ih =>
    rw [repeatS.eq_2]
    split
    · next h => exact (k s _ h).trans (ih _)
    · exact Keeps.refl P s

/-- Whatever next state a command answers, only the parts in `P` change. -/
def KeepsOut (P : List Part) (s : State) (o : Host.Outcome State Fault Refusal) : Prop := ∀ t, o = .next t → Keeps P s t

theorem KeepsOut.next {P : List Part} {a b : State} (h : Keeps P a b) : KeepsOut P a (.next b) := fun _ e =>
  Host.Outcome.next.inj e ▸ h

theorem KeepsOut.ite {P : List Part} {c : Prop} [Decidable c] {a : State} {x y : Host.Outcome State Fault Refusal}
    (h : KeepsOut P a x) (k : KeepsOut P a y) : KeepsOut P a (if c then x else y) := by
  split <;> assumption

theorem KeepsOut.via {P Q : List Part} {a b : State} {o : Host.Outcome State Fault Refusal} (k : KeepsOut Q b o)
    (h : partsIn Q P = true) (r : Keeps P a b) : KeepsOut P a o := fun t e => Keeps.via (k t e) h r

/-- An update that leaves the registers, ports and memories alone. -/
theorem Keeps.of_parts {P : List Part} {s t : State} (hr : t.regs = s.regs) (hl : t.links = s.links) (hf : t.flash = s.flash)
    (hm : t.fmt = s.fmt) (hd : t.dram = s.dram) (h : SameBut P s t) : Keeps P s t := fun c =>
  ⟨by rw [State.canon, hr, hl, hf, hm, hd]; exact c, h⟩

/-! ### Updates of parts -/

theorem Keeps.upd_pending (s : State) (v) : Keeps [.pending] s { s with pending := v } :=
  .of_parts rfl rfl rfl rfl rfl fun p u => by cases p <;> first | rfl | exact absurd u (by decide) | (intro _ _; rfl)

theorem Keeps.upd_rx (s : State) (v) : Keeps [.rx] s { s with rx := v } :=
  .of_parts rfl rfl rfl rfl rfl fun p u => by cases p <;> first | rfl | exact absurd u (by decide) | (intro _ _; rfl)

theorem Keeps.upd_free (s : State) (v) : Keeps [.free] s { s with free := v } :=
  .of_parts rfl rfl rfl rfl rfl fun p u => by cases p <;> first | rfl | exact absurd u (by decide) | (intro _ _; rfl)

theorem Keeps.upd_top (s : State) (v) : Keeps [.top] s { s with top := v } :=
  .of_parts rfl rfl rfl rfl rfl fun p u => by cases p <;> first | rfl | exact absurd u (by decide) | (intro _ _; rfl)

theorem Keeps.upd_time (s : State) (v) : Keeps [.time] s { s with time := v } :=
  .of_parts rfl rfl rfl rfl rfl fun p u => by cases p <;> first | rfl | exact absurd u (by decide) | (intro _ _; rfl)

theorem Keeps.upd_log (s : State) (v) : Keeps [.log] s { s with log := v } :=
  .of_parts rfl rfl rfl rfl rfl fun p u => by cases p <;> first | rfl | exact absurd u (by decide) | (intro _ _; rfl)

theorem Keeps.upd_sb (s : State) (v) : Keeps [.sb] s { s with sb := v } :=
  .of_parts rfl rfl rfl rfl rfl fun p u => by cases p <;> first | rfl | exact absurd u (by decide) | (intro _ _; rfl)

theorem Keeps.upd_twin (s : State) (v) : Keeps [.twin] s { s with twin := v } :=
  .of_parts rfl rfl rfl rfl rfl fun p u => by cases p <;> first | rfl | exact absurd u (by decide) | (intro _ _; rfl)

theorem Keeps.upd_ord (s : State) (v) : Keeps [.ord] s { s with ord := v } :=
  .of_parts rfl rfl rfl rfl rfl fun p u => by cases p <;> first | rfl | exact absurd u (by decide) | (intro _ _; rfl)

theorem Keeps.upd_map (s : State) (v) : Keeps [.map] s { s with map := v } :=
  .of_parts rfl rfl rfl rfl rfl fun p u => by cases p <;> first | rfl | exact absurd u (by decide) | (intro _ _; rfl)

theorem Keeps.upd_mir (s : State) (v) : Keeps [.mir] s { s with mir := v } :=
  .of_parts rfl rfl rfl rfl rfl fun p u => by cases p <;> first | rfl | exact absurd u (by decide) | (intro _ _; rfl)

theorem Keeps.upd_sch (s : State) (v) : Keeps [.sch] s { s with sch := v } :=
  .of_parts rfl rfl rfl rfl rfl fun p u => by cases p <;> first | rfl | exact absurd u (by decide) | (intro _ _; rfl)

theorem Keeps.upd_flt (s : State) (v) : Keeps [.flt] s { s with flt := v } :=
  .of_parts rfl rfl rfl rfl rfl fun p u => by cases p <;> first | rfl | exact absurd u (by decide) | (intro _ _; rfl)

theorem Keeps.upd_cal (s : State) (v) : Keeps [.cal] s { s with cal := v } :=
  .of_parts rfl rfl rfl rfl rfl fun p u => by cases p <;> first | rfl | exact absurd u (by decide) | (intro _ _; rfl)

theorem Keeps.upd_clk (s : State) (v) : Keeps [.clk] s { s with clk := v } :=
  .of_parts rfl rfl rfl rfl rfl fun p u => by cases p <;> first | rfl | exact absurd u (by decide) | (intro _ _; rfl)

theorem Keeps.upd_vbat (s : State) (v) : Keeps [.vbat] s { s with vbat := v } :=
  .of_parts rfl rfl rfl rfl rfl fun p u => by cases p <;> first | rfl | exact absurd u (by decide) | (intro _ _; rfl)

theorem Keeps.upd_pwr (s : State) (v) : Keeps [.pwr] s { s with pwr := v } :=
  .of_parts rfl rfl rfl rfl rfl fun p u => by cases p <;> first | rfl | exact absurd u (by decide) | (intro _ _; rfl)

theorem Keeps.upd_gust (s : State) (v) : Keeps [.gust] s { s with gust := v } :=
  .of_parts rfl rfl rfl rfl rfl fun p u => by cases p <;> first | rfl | exact absurd u (by decide) | (intro _ _; rfl)

theorem Keeps.upd_fuse (s : State) (v) : Keeps [.fuse] s { s with fuse := v } :=
  .of_parts rfl rfl rfl rfl rfl fun p u => by cases p <;> first | rfl | exact absurd u (by decide) | (intro _ _; rfl)

theorem Keeps.upd_cfgStore (s : State) (v) : Keeps [.cfgStore] s { s with cfgStore := v } :=
  .of_parts rfl rfl rfl rfl rfl fun p u => by cases p <;> first | rfl | exact absurd u (by decide) | (intro _ _; rfl)

theorem Keeps.upd_boot (s : State) (v) : Keeps [.boot] s { s with boot := v } :=
  .of_parts rfl rfl rfl rfl rfl fun p u => by cases p <;> first | rfl | exact absurd u (by decide) | (intro _ _; rfl)

theorem Keeps.upd_ord_map_mir (s : State) (v0) (v1) (v2) : Keeps [.ord, .map, .mir] s { s with ord := v0, map := v1, mir := v2 } :=
  .of_parts rfl rfl rfl rfl rfl fun p u => by cases p <;> first | rfl | exact absurd u (by decide) | (intro _ _; rfl)

theorem Keeps.upd_twin_mir (s : State) (v0) (v1) : Keeps [.twin, .mir] s { s with twin := v0, mir := v1 } :=
  .of_parts rfl rfl rfl rfl rfl fun p u => by cases p <;> first | rfl | exact absurd u (by decide) | (intro _ _; rfl)

theorem Keeps.upd_pwr_boot (s : State) (v0) (v1) : Keeps [.pwr, .boot] s { s with pwr := v0, boot := v1 } :=
  .of_parts rfl rfl rfl rfl rfl fun p u => by cases p <;> first | rfl | exact absurd u (by decide) | (intro _ _; rfl)

theorem Keeps.upd_ord_mir_sch (s : State) (v0) (v1) (v2) : Keeps [.ord, .mir, .sch] s { s with ord := v0, mir := v1, sch := v2 } :=
  .of_parts rfl rfl rfl rfl rfl fun p u => by cases p <;> first | rfl | exact absurd u (by decide) | (intro _ _; rfl)

theorem Keeps.upd_twin_ord_mir (s : State) (v0) (v1) (v2) : Keeps [.twin, .ord, .mir] s { s with twin := v0, ord := v1, mir := v2 } :=
  .of_parts rfl rfl rfl rfl rfl fun p u => by cases p <;> first | rfl | exact absurd u (by decide) | (intro _ _; rfl)

theorem Keeps.upd_rx_top_log_twin_ord_map_mir_sch_flt_cal_clk_boot (s : State) (v0) (v1) (v2) (v3) (v4) (v5) (v6) (v7) (v8) (v9) (v10) (v11) : Keeps [.rx, .top, .log, .twin, .ord, .map, .mir, .sch, .flt, .cal, .clk, .boot] s { s with rx := v0, top := v1, log := v2, twin := v3, ord := v4, map := v5, mir := v6, sch := v7, flt := v8, cal := v9, clk := v10, boot := v11 } :=
  .of_parts rfl rfl rfl rfl rfl fun p u => by cases p <;> first | rfl | exact absurd u (by decide) | (intro _ _; rfl)

theorem Keeps.upd_top_time_clk (s : State) (v0) (v1) (v2) : Keeps [.top, .time, .clk] s { s with top := v0, time := v1, clk := v2 } :=
  .of_parts rfl rfl rfl rfl rfl fun p u => by cases p <;> first | rfl | exact absurd u (by decide) | (intro _ _; rfl)

theorem Keeps.upd_top_pwr_gust (s : State) (v0) (v1) (v2) : Keeps [.top, .pwr, .gust] s { s with top := v0, pwr := v1, gust := v2 } :=
  .of_parts rfl rfl rfl rfl rfl fun p u => by cases p <;> first | rfl | exact absurd u (by decide) | (intro _ _; rfl)

theorem Keeps.upd_pwr_fuse (s : State) (v0) (v1) : Keeps [.pwr, .fuse] s { s with pwr := v0, fuse := v1 } :=
  .of_parts rfl rfl rfl rfl rfl fun p u => by cases p <;> first | rfl | exact absurd u (by decide) | (intro _ _; rfl)

theorem Keeps.upd_vbat_pwr (s : State) (v0) (v1) : Keeps [.vbat, .pwr] s { s with vbat := v0, pwr := v1 } :=
  .of_parts rfl rfl rfl rfl rfl fun p u => by cases p <;> first | rfl | exact absurd u (by decide) | (intro _ _; rfl)

theorem Keeps.upd_pwr_gust (s : State) (v0) (v1) : Keeps [.pwr, .gust] s { s with pwr := v0, gust := v1 } :=
  .of_parts rfl rfl rfl rfl rfl fun p u => by cases p <;> first | rfl | exact absurd u (by decide) | (intro _ _; rfl)

theorem Keeps.upd_top_time_log_sb_flt_cal_pwr_gust_fuse_cfgStore_boot (s : State) (v0) (v1) (v2) (v3) (v4) (v5) (v6) (v7) (v8) (v9) (v10) : Keeps [.top, .time, .log, .sb, .flt, .cal, .pwr, .gust, .fuse, .cfgStore, .boot] s { s with top := v0, time := v1, log := v2, sb := v3, flt := v4, cal := v5, pwr := v6, gust := v7, fuse := v8, cfgStore := v9, boot := v10 } :=
  .of_parts rfl rfl rfl rfl rfl fun p u => by cases p <;> first | rfl | exact absurd u (by decide) | (intro _ _; rfl)

theorem Keeps.upd_time_log_vbat (s : State) (v0) (v1) (v2) : Keeps [.time, .log, .vbat] s { s with time := v0, log := v1, vbat := v2 } :=
  .of_parts rfl rfl rfl rfl rfl fun p u => by cases p <;> first | rfl | exact absurd u (by decide) | (intro _ _; rfl)

theorem Keeps.upd_top_sb_fuse (s : State) (v0) (v1) (v2) : Keeps [.top, .sb, .fuse] s { s with top := v0, sb := v1, fuse := v2 } :=
  .of_parts rfl rfl rfl rfl rfl fun p u => by cases p <;> first | rfl | exact absurd u (by decide) | (intro _ _; rfl)

theorem Keeps.upd_flt_cal (s : State) (v0) (v1) : Keeps [.flt, .cal] s { s with flt := v0, cal := v1 } :=
  .of_parts rfl rfl rfl rfl rfl fun p u => by cases p <;> first | rfl | exact absurd u (by decide) | (intro _ _; rfl)

theorem Keeps.upd_flt_pwr (s : State) (v0) (v1) : Keeps [.flt, .pwr] s { s with flt := v0, pwr := v1 } :=
  .of_parts rfl rfl rfl rfl rfl fun p u => by cases p <;> first | rfl | exact absurd u (by decide) | (intro _ _; rfl)

theorem Keeps.upd_ord_mir (s : State) (v0) (v1) : Keeps [.ord, .mir] s { s with ord := v0, mir := v1 } :=
  .of_parts rfl rfl rfl rfl rfl fun p u => by cases p <;> first | rfl | exact absurd u (by decide) | (intro _ _; rfl)

theorem Keeps.upd_vbat_gust (s : State) (v0) (v1) : Keeps [.vbat, .gust] s { s with vbat := v0, gust := v1 } :=
  .of_parts rfl rfl rfl rfl rfl fun p u => by cases p <;> first | rfl | exact absurd u (by decide) | (intro _ _; rfl)

theorem Keeps.upd_top_log_pwr (s : State) (v0) (v1) (v2) : Keeps [.top, .log, .pwr] s { s with top := v0, log := v1, pwr := v2 } :=
  .of_parts rfl rfl rfl rfl rfl fun p u => by cases p <;> first | rfl | exact absurd u (by decide) | (intro _ _; rfl)

theorem Keeps.upd_top_pwr (s : State) (v0) (v1) : Keeps [.top, .pwr] s { s with top := v0, pwr := v1 } :=
  .of_parts rfl rfl rfl rfl rfl fun p u => by cases p <;> first | rfl | exact absurd u (by decide) | (intro _ _; rfl)

theorem Keeps.upd_gust_boot (s : State) (v0) (v1) : Keeps [.gust, .boot] s { s with gust := v0, boot := v1 } :=
  .of_parts rfl rfl rfl rfl rfl fun p u => by cases p <;> first | rfl | exact absurd u (by decide) | (intro _ _; rfl)

theorem Keeps.upd_free_mir (s : State) (v0) (v1) : Keeps [.free, .mir] s { s with free := v0, mir := v1 } :=
  .of_parts rfl rfl rfl rfl rfl fun p u => by cases p <;> first | rfl | exact absurd u (by decide) | (intro _ _; rfl)

theorem Keeps.upd_ord_gust (s : State) (v0) (v1) : Keeps [.ord, .gust] s { s with ord := v0, gust := v1 } :=
  .of_parts rfl rfl rfl rfl rfl fun p u => by cases p <;> first | rfl | exact absurd u (by decide) | (intro _ _; rfl)

theorem Keeps.upd_log_boot (s : State) (v0) (v1) : Keeps [.log, .boot] s { s with log := v0, boot := v1 } :=
  .of_parts rfl rfl rfl rfl rfl fun p u => by cases p <;> first | rfl | exact absurd u (by decide) | (intro _ _; rfl)

theorem Keeps.upd_time_ord_clk (s : State) (v0) (v1) (v2) : Keeps [.time, .ord, .clk] s { s with time := v0, ord := v1, clk := v2 } :=
  .of_parts rfl rfl rfl rfl rfl fun p u => by cases p <;> first | rfl | exact absurd u (by decide) | (intro _ _; rfl)

/-! ### The primitive writes -/

theorem State.setReg_keeps (s : State) (a : Nat) (w : Word) : Keeps [.reg a] s (s.setReg a w) := fun c =>
  ⟨State.canon_setReg c a w, fun p u => by
    cases p with
    | regs => simp [Part.covers] at u
    | block b =>
      intro j hj
      refine State.reg_setReg_other _ w fun e => ?_
      subst e hj
      simp [Part.covers] at u
    | reg j =>
      refine State.reg_setReg_other _ w fun e => ?_
      subst e
      simp [Part.covers] at u
    | _ => rfl⟩

theorem State.setFld_keeps (s : State) (f : Fld) (v : Nat) : Keeps [.reg f.addr] s (s.setFld f v) :=
  State.setReg_keeps s _ _

theorem State.setFlag_keeps (s : State) (f : Fld) (b : Bool) : Keeps [.reg f.addr] s (s.setFlag f b) :=
  State.setReg_keeps s _ _

theorem State.bumpF_keeps (s : State) (f : Fld) (n : Nat) : Keeps [.reg f.addr] s (s.bumpF f n) :=
  State.setReg_keeps s _ _

theorem State.satF_keeps (s : State) (f : Fld) (v : Nat) : Keeps [.reg f.addr] s (s.satF f v) :=
  State.setReg_keeps s _ _

theorem State.bump_keeps (s : State) (a n : Nat) : Keeps [.reg a] s (s.bump a n) := State.setReg_keeps s _ _

theorem State.setFld_inwinFld_keeps (s : State) (f : Feed) (v : Nat) :
    Keeps [.reg Reg.PWR_FEEDSTAT] s (s.setFld (inwinFld f) v) := by
  cases f <;> exact State.setReg_keeps s _ _

theorem State.setFld_qualFld_keeps (s : State) (f : Feed) (v : Nat) :
    Keeps [.reg Reg.PWR_FEEDSTAT] s (s.setFld (qualFld f) v) := by
  cases f <;> exact State.setReg_keeps s _ _

theorem State.setFld_gateFld_keeps (s : State) (f : Feed) (v : Nat) :
    Keeps [.reg Reg.PWR_FEEDSTAT] s (s.setFld (gateFld f) v) := by
  cases f <;> exact State.setReg_keeps s _ _

theorem State.setFld_suspectFld_keeps (s : State) (f : Feed) (v : Nat) :
    Keeps [.reg Reg.PWR_FEEDSTAT] s (s.setFld (suspectFld f) v) := by
  cases f <;> exact State.setReg_keeps s _ _

theorem State.setFldBit_keeps (s : State) (f : Fld) (i : Nat) (b : Bool) : Keeps [.reg f.addr] s (s.setFldBit f i b) :=
  State.setReg_keeps s _ _

theorem State.noteHigh_keeps (s : State) (f : Fld) (v : Nat) : Keeps [.reg f.addr] s (s.noteHigh f v) := State.setReg_keeps s _ _

theorem State.setFld_rejFld_keeps (s : State) (slot v : Nat) : Keeps [.reg Reg.MGT_IMGSTAT] s (s.setFld (rejFld slot) v) := by
  unfold rejFld
  split <;> exact State.setReg_keeps s _ _

theorem State.setFld_resultFld_keeps (s : State) (n k v : Nat) : Keeps [.block 6] s (s.setFld (resultFld n k) v) := by
  unfold resultFld
  split <;> exact Keeps.viaBlock (b := 6) (State.setFld_keeps s _ _) (fam_block _ _ _ _ rfl (by decide)) (by decide) (Keeps.refl _ _)

theorem State.setFld_stepFld_keeps (s : State) (n k v : Nat) : Keeps [.block 6] s (s.setFld (stepFld n k) v) := by
  unfold stepFld
  split <;> exact Keeps.viaBlock (b := 6) (State.setFld_keeps s _ _) (fam_block _ _ _ _ rfl (by decide)) (by decide) (Keeps.refl _ _)

theorem State.setFld_pathFld_keeps (s : State) (n k v : Nat) : Keeps [.block 6] s (s.setFld (pathFld n k) v) := by
  unfold pathFld
  split <;> exact Keeps.viaBlock (b := 6) (State.setFld_keeps s _ _) (fam_block _ _ _ _ rfl (by decide)) (by decide) (Keeps.refl _ _)

theorem State.setFld_badFld_keeps (s : State) (n k v : Nat) : Keeps [.block 6] s (s.setFld (badFld n k) v) := by
  unfold badFld
  split <;> exact Keeps.viaBlock (b := 6) (State.setFld_keeps s _ _) (fam_block _ _ _ _ rfl (by decide)) (by decide) (Keeps.refl _ _)

theorem State.setFld_rateFld_keeps (s : State) (n k v : Nat) : Keeps [.block 5] s (s.setFld (rateFld n k) v) := by
  unfold rateFld
  split <;> exact Keeps.viaBlock (b := 5) (State.setFld_keeps s _ _) (fam_block _ _ _ _ rfl (by decide)) (by decide) (Keeps.refl _ _)

theorem State.draw_keeps (s : State) : Keeps [.free] s s.draw.2 := Keeps.upd_free s _

theorem State.setLink_keeps (s : State) (p : Port) (l : LinkSt) : Keeps [.links] s (s.setLink p l) := fun c =>
  ⟨State.canon_setLink c p l, fun q u => by
    cases q <;> first | rfl | exact absurd u (by decide) | (intro _ _; rfl)⟩

/-- Leaving out registers. -/
theorem Keeps.filter_regs (s : State) (f : Nat × Word → Bool) : Keeps [.regs] s { s with regs := s.regs.filter f } := fun c =>
  ⟨⟨Tab.wf_filter c.1 f, c.2⟩, fun q u => by
    cases q <;> first | rfl | exact absurd u (by decide) | (simp [Part.covers] at u)⟩

/-- The core domain stops: registers lose what they do not latch. -/
theorem Keeps.stop_regs (s : State) : Keeps [.regs] s { s with regs := s.regs.filterMap keptReg } := fun c =>
  ⟨⟨Tab.wf_filterMap c.1
      (fun p q h => by
        unfold keptReg at h
        dsimp only at h
        split at h
        · cases h; rfl
        · split at h
          · cases h
          · cases h; rfl)
      (fun p q n h => by
        unfold keptReg at h
        dsimp only at h
        split at h
        · cases h; exact n
        · split at h
          · cases h
          · next k => cases h; exact k), c.2⟩, fun q u => by
    cases q <;> first | rfl | exact absurd u (by decide) | (simp [Part.covers] at u)⟩

theorem Keeps.clear_links (s : State) : Keeps [.links] s { s with links := [] } := fun c =>
  ⟨⟨c.1, rfl, c.2.2⟩, fun q u => by
    cases q <;> first | rfl | exact absurd u (by decide) | (intro _ _; rfl)⟩

theorem Keeps.clear_dram (s : State) (f : Option Formatted) : Keeps [.fmt, .dram] s { s with dram := [], fmt := f } := fun c =>
  ⟨⟨c.1, c.2.1, c.2.2.1, rfl⟩, fun q u => by
    cases q <;> first | rfl | exact absurd u (by decide) | (intro _ _; rfl)⟩

theorem wf_putSymbols (f : Option Formatted) (l : List Byte) (k : Nat) (t : Tab Byte) (w : Tab.wf (blankSymbol f) t = true) :
    Tab.wf (blankSymbol f) (putSymbols f k l t) = true := by
  induction l generalizing k t with
  | nil => exact w
  | cons b r ih => exact ih (k + 1) _ (Tab.wf_set w k b)

/-- A line stored in the DRAM. -/
theorem State.store_keeps (s : State) (sc : Nat) (l : Loc) (cw : List Byte) : Keeps [.dram] s (s.store sc l cw) := fun c =>
  ⟨⟨c.1, c.2.1, c.2.2.1, wf_putSymbols s.fmt _ _ _ c.2.2.2⟩, fun q u => by
    cases q <;> first | rfl | exact absurd u (by decide) | (intro _ _; rfl)⟩

theorem wf_programBytes (l : List Byte) (a : Nat) (t : Tab Byte) (w : Tab.wf (fun _ => (0xFF : Byte)) t = true) :
    Tab.wf (fun _ => (0xFF : Byte)) (programBytes a l t) = true := by
  induction l generalizing a t with
  | nil => exact w
  | cons b r ih => exact ih (a + 1) _ (Tab.wf_set w a _)

/-- Bytes programmed into the flash. -/
theorem State.program_keeps (s : State) (a : Nat) (l : List Byte) : Keeps [.flash] s (s.program a l) := fun c =>
  ⟨⟨c.1, c.2.1, wf_programBytes l a s.flash c.2.2.1, c.2.2.2⟩, fun q u => by
    cases q <;> first | rfl | exact absurd u (by decide) | (intro _ _; rfl)⟩

/-- A sector of the flash erased. -/
theorem State.eraseSector_keeps (s : State) (a : Nat) : Keeps [.flash] s (s.eraseSector a) := fun c =>
  ⟨⟨c.1, c.2.1, Tab.wf_filter c.2.2.1 _, c.2.2.2⟩, fun q u => by
    cases q <;> first | rfl | exact absurd u (by decide) | (intro _ _; rfl)⟩

end Sys2Proof.Machine
end

