-- ==== Sys2Proof/Laws/KeepsReg.lean ====
section
/-!
SUPPORT. The frames of the operations of Machine/Reg.lean: the parts of the state each may change, and that each keeps the canonical
form. A proof of a frame cites these and unfolds nothing.
-/

namespace Sys2Proof.Machine

def State.onLink_parts : List Part := [.links]

theorem State.onLink_keeps (s0 : State) (p : Port) (f : LinkSt → LinkSt) :
    Keeps State.onLink_parts s0 (State.onLink s0 p f) := by
  unfold State.onLink
  refine Keeps.via (State.setLink_keeps _ _ _) rfl ?_
  exact Keeps.refl _ _

def State.setEntry_parts : List Part := [.ord]

theorem State.setEntry_keeps (s0 : State) (i : ℕ) (e : Option PoolEntry) :
    Keeps State.setEntry_parts s0 (State.setEntry s0 i e) := by
  unfold State.setEntry
  refine Keeps.via (Keeps.upd_ord _ _) rfl ?_
  exact Keeps.refl _ _

def State.onEntry_parts : List Part := [.ord]

theorem State.onEntry_keeps (s0 : State) (i : ℕ) (f : PoolEntry → PoolEntry) :
    Keeps State.onEntry_parts s0 (State.onEntry s0 i f) := by
  unfold State.onEntry
  split
  · refine Keeps.via (State.setEntry_keeps _ _ _) rfl ?_
    exact Keeps.refl _ _
  · exact Keeps.refl _ _

def State.setStream_parts : List Part := [.ord]

theorem State.setStream_keeps (s0 : State) (i : ℕ) (r : StreamRec) :
    Keeps State.setStream_parts s0 (State.setStream s0 i r) := by
  unfold State.setStream
  refine Keeps.via (Keeps.upd_ord _ _) rfl ?_
  exact Keeps.refl _ _

end Sys2Proof.Machine
end

