-- ==== Sys2Proof/Laws/KeepsEvents.lean ====
section
/-!
SUPPORT. The frames of the operations of Machine/Events.lean: the parts of the state each may change, and that each keeps the canonical
form. A proof of a frame cites these and unfolds nothing.
-/

namespace Sys2Proof.Machine

def State.noteRing_parts : List Part := [.reg Reg.LOG_RINGSTAT]

theorem State.noteRing_keeps (s0 : State) :
    Keeps State.noteRing_parts s0 (State.noteRing s0) := by
  unfold State.noteRing
  refine Keeps.via (State.setFld_keeps _ _ _) rfl ?_
  exact Keeps.refl _ _

def State.setReader_parts : List Part := [.log]

theorem State.setReader_keeps (s0 : State) (n : ℕ) (r : Option ℕ) :
    Keeps State.setReader_parts s0 (State.setReader s0 n r) := by
  unfold State.setReader
  refine Keeps.via (Keeps.upd_log _ _) rfl ?_
  exact Keeps.refl _ _

def State.freeRing_parts : List Part := [.log]

theorem State.freeRing_keeps (s0 : State) :
    Keeps State.freeRing_parts s0 (State.freeRing s0) := by
  unfold State.freeRing
  extract_lets -lift -merge -useContext -underBinder +onlyGivenNames x0
  try clear_value x0
  refine Keeps.via (Keeps.upd_log _ _) rfl ?_
  exact Keeps.refl _ _

def State.raiseIbi_parts : List Part := [.sb]

theorem State.raiseIbi_keeps (s0 : State) :
    Keeps State.raiseIbi_parts s0 (State.raiseIbi s0) := by
  unfold State.raiseIbi
  split
  · exact Keeps.refl _ _
  · refine Keeps.ite ?_ ?_
    · exact Keeps.refl _ _
    · split
      · refine Keeps.via (Keeps.upd_sb _ _) rfl ?_
        exact Keeps.refl _ _
      · exact Keeps.refl _ _

def State.pushEntry_parts : List Part := [.log, .reg Reg.LOG_RINGSTAT]

theorem State.pushEntry_keeps (s0 : State) (e : RingEntry) :
    Keeps State.pushEntry_parts s0 (State.pushEntry s0 e) := by
  unfold State.pushEntry
  refine Keeps.via (State.noteRing_keeps _) rfl ?_
  refine Keeps.via (Keeps.upd_log _ _) rfl ?_
  exact Keeps.refl _ _

def State.takeSeq_parts : List Part := [.log]

theorem State.takeSeq_keeps (s0 : State) :
    Keeps State.takeSeq_parts s0 (State.takeSeq s0) := by
  unfold State.takeSeq
  refine Keeps.via (Keeps.upd_log _ _) rfl ?_
  exact Keeps.refl _ _

def State.cutFar_parts : List Part := [.log, .reg Reg.LOG_RINGSTAT, .reg Reg.LOG_CAPTURED, .reg Reg.LOG_LOST]

theorem State.cutFar_keeps (s0 : State) :
    Keeps State.cutFar_parts s0 (State.cutFar s0) := by
  unfold State.cutFar
  extract_lets -lift -merge -useContext -underBinder +onlyGivenNames x0
  have h0 : Keeps State.cutFar_parts s0 x0 := by
    unfold x0
    refine Keeps.foldl _ _ ?_ (fun t1 y1 h1 => ?_)
    · exact Keeps.refl _ _
    · split
      · refine Keeps.ite ?_ ?_
        · unfold State.cutOff
          extract_lets -lift -merge -useContext -underBinder +onlyGivenNames x2
          try clear_value x2
          extract_lets -lift -merge -useContext -underBinder +onlyGivenNames x3
          try clear_value x3
          extract_lets -lift -merge -useContext -underBinder +onlyGivenNames x4
          have h4 : Keeps State.cutFar_parts s0 x4 := by
            unfold x4
            try dsimp -zeta -proj -iota -eta only
            refine Keeps.via (State.setReader_keeps _ _ _) rfl ?_
            exact h1
          refine Keeps.ite ?_ ?_
          · exact h4
          · extract_lets -lift -merge -useContext -underBinder +onlyGivenNames x5
            have h5 : Keeps State.cutFar_parts s0 x5 := by
              unfold x5
              refine Keeps.via (State.bump_keeps _ _ _) rfl ?_
              exact h4
            extract_lets -lift -merge -useContext -underBinder +onlyGivenNames x6
            try clear_value x6
            extract_lets -lift -merge -useContext -underBinder +onlyGivenNames x7
            have h7 : Keeps State.cutFar_parts s0 x7 := by
              unfold x7
              refine Keeps.via (State.bump_keeps _ _ _) rfl ?_
              exact h5
            refine Keeps.ite ?_ ?_
            · refine Keeps.via (State.pushEntry_keeps _ _) rfl ?_
              refine Keeps.via (State.takeSeq_keeps _) rfl ?_
              exact h7
            · refine Keeps.via (State.takeSeq_keeps _) rfl ?_
              exact h7
        · exact h1
      · exact h1
  refine Keeps.ite ?_ ?_
  · unfold State.cutOff
    extract_lets -lift -merge -useContext -underBinder +onlyGivenNames x8
    try clear_value x8
    extract_lets -lift -merge -useContext -underBinder +onlyGivenNames x9
    try clear_value x9
    extract_lets -lift -merge -useContext -underBinder +onlyGivenNames x10
    have h10 : Keeps State.cutFar_parts s0 x10 := by
      unfold x10
      try dsimp -zeta -proj -iota -eta only
      refine Keeps.via (Keeps.upd_log _ _) rfl ?_
      exact h0
    refine Keeps.ite ?_ ?_
    · exact h10
    · extract_lets -lift -merge -useContext -underBinder +onlyGivenNames x11
      have h11 : Keeps State.cutFar_parts s0 x11 := by
        unfold x11
        refine Keeps.via (State.bump_keeps _ _ _) rfl ?_
        exact h10
      extract_lets -lift -merge -useContext -underBinder +onlyGivenNames x12
      try clear_value x12
      extract_lets -lift -merge -useContext -underBinder +onlyGivenNames x13
      have h13 : Keeps State.cutFar_parts s0 x13 := by
        unfold x13
        refine Keeps.via (State.bump_keeps _ _ _) rfl ?_
        exact h11
      refine Keeps.ite ?_ ?_
      · refine Keeps.via (State.pushEntry_keeps _ _) rfl ?_
        refine Keeps.via (State.takeSeq_keeps _) rfl ?_
        exact h13
      · refine Keeps.via (State.takeSeq_keeps _) rfl ?_
        exact h13
  · exact h0

def State.trySquall_parts : List Part := [.log, .reg Reg.LOG_RINGSTAT, .reg Reg.LOG_CAPTURED, .reg Reg.LOG_SQUALLS]

theorem State.trySquall_keeps (s0 : State) :
    Keeps State.trySquall_parts s0 (State.trySquall s0) := by
  unfold State.trySquall
  extract_lets -lift -merge -useContext -underBinder +onlyGivenNames x0
  have h0 : Keeps State.trySquall_parts s0 x0 := by
    unfold x0
    refine Keeps.via (State.freeRing_keeps _) rfl ?_
    exact Keeps.refl _ _
  refine Keeps.ite ?_ ?_
  · exact h0
  · extract_lets -lift -merge -useContext -underBinder +onlyGivenNames x1
    try clear_value x1
    extract_lets -lift -merge -useContext -underBinder +onlyGivenNames x2 x3
    have h3 : Keeps State.trySquall_parts s0 x3 := by
      unfold x3
      refine Keeps.via (Keeps.upd_log _ _) rfl ?_
      exact h0
    extract_lets -lift -merge -useContext -underBinder +onlyGivenNames x4
    have h4 : Keeps State.trySquall_parts s0 x4 := by
      unfold x4
      refine Keeps.via (State.bump_keeps _ _ _) rfl ?_
      refine Keeps.via (State.bump_keeps _ _ _) rfl ?_
      exact h3
    extract_lets -lift -merge -useContext -underBinder +onlyGivenNames x5
    try clear_value x5
    refine Keeps.ite ?_ ?_
    · refine Keeps.via (State.pushEntry_keeps _ _) rfl ?_
      refine Keeps.via (State.takeSeq_keeps _) rfl ?_
      exact h4
    · refine Keeps.via (State.takeSeq_keeps _) rfl ?_
      exact h4

def State.coalesce_parts : List Part := [.log, .reg Reg.LOG_COALESCED]

theorem State.coalesce_keeps (s0 : State) (e : RingEntry) (first : Bool) :
    Keeps State.coalesce_parts s0 (State.coalesce s0 e first) := by
  unfold State.coalesce
  extract_lets -lift -merge -useContext -underBinder +onlyGivenNames x0
  have h0 : Keeps State.coalesce_parts s0 x0 := by
    unfold x0
    refine Keeps.via (State.bump_keeps _ _ _) rfl ?_
    exact Keeps.refl _ _
  split
  · refine Keeps.via (Keeps.upd_log _ _) rfl ?_
    exact h0
  · refine Keeps.ite ?_ ?_
    · refine Keeps.via (Keeps.upd_log _ _) rfl ?_
      exact h0
    · refine Keeps.via (Keeps.upd_log _ _) rfl ?_
      exact h0

def State.endDir_parts : List Part := [.reg Reg.GLB_EVENT, .reg Reg.GLB_DIRSTAT]

theorem State.endDir_keeps (s0 : State) (d : ℕ) :
    Keeps State.endDir_parts s0 (State.endDir s0 d) := by
  unfold State.endDir
  extract_lets -lift -merge -useContext -underBinder +onlyGivenNames x0
  try clear_value x0
  refine Keeps.ite ?_ ?_
  · refine Keeps.via (State.setFld_keeps _ _ _) rfl ?_
    refine Keeps.via (State.setFld_keeps _ _ _) rfl ?_
    exact Keeps.refl _ _
  · exact Keeps.refl _ _

def State.capture_parts : List Part := [.log, .sb, .reg Reg.GLB_EVENT, .reg Reg.GLB_DIRSTAT, .reg Reg.LOG_RINGSTAT, .reg Reg.LOG_CAPTURED, .reg Reg.LOG_COALESCED, .reg Reg.LOG_LOST, .reg Reg.LOG_ORPHANS, .reg Reg.LOG_SQUALLS]

theorem State.capture_keeps (s0 : State) (code : BitVec 16) (data : Word) (count : Word) :
    Keeps State.capture_parts s0 (State.capture s0 code data count) := by
  unfold State.capture
  refine Keeps.ite ?_ ?_
  · exact Keeps.refl _ _
  · extract_lets -lift -merge -useContext -underBinder +onlyGivenNames x0
    have h0 : Keeps State.capture_parts s0 x0 := by
      unfold x0
      split
      · refine Keeps.via (State.endDir_keeps _ _) rfl ?_
        exact Keeps.refl _ _
      · exact Keeps.refl _ _
    split
    · refine Keeps.ite ?_ ?_
      · extract_lets -lift -merge -useContext -underBinder +onlyGivenNames x1
        try clear_value x1
        extract_lets -lift -merge -useContext -underBinder +onlyGivenNames x2
        have h2 : Keeps State.capture_parts s0 x2 := by
          unfold x2
          refine Keeps.via (State.takeSeq_keeps _) rfl ?_
          refine Keeps.via (State.bump_keeps _ _ _) rfl ?_
          exact h0
        extract_lets -lift -merge -useContext -underBinder +onlyGivenNames x3
        have h3 : Keeps State.capture_parts s0 x3 := by
          unfold x3
          refine Keeps.via (Keeps.upd_log _ _) rfl ?_
          exact h2
        refine Keeps.ite ?_ ?_
        · refine Keeps.via (State.raiseIbi_keeps _) rfl ?_
          refine Keeps.via (State.trySquall_keeps _) rfl ?_
          refine Keeps.via (State.cutFar_keeps _) rfl ?_
          refine Keeps.via (State.pushEntry_keeps _ _) rfl ?_
          exact h3
        · refine Keeps.via (State.bump_keeps _ _ _) rfl ?_
          exact h3
      · refine Keeps.via (State.bump_keeps _ _ _) rfl ?_
        exact h0
    · extract_lets -lift -merge -useContext -underBinder +onlyGivenNames x4
      try clear_value x4
      extract_lets -lift -merge -useContext -underBinder +onlyGivenNames x5
      have h5 : Keeps State.capture_parts s0 x5 := by
        unfold x5
        refine Keeps.via (State.takeSeq_keeps _) rfl ?_
        refine Keeps.via (State.bump_keeps _ _ _) rfl ?_
        exact h0
      extract_lets -lift -merge -useContext -underBinder +onlyGivenNames x6
      have h6 : Keeps State.capture_parts s0 x6 := by
        unfold x6
        split
        · refine Keeps.via (Keeps.upd_log _ _) rfl ?_
          exact h5
        · exact h5
      refine Keeps.ite ?_ ?_
      · refine Keeps.ite ?_ ?_
        · refine Keeps.via (State.raiseIbi_keeps _) rfl ?_
          refine Keeps.via (State.trySquall_keeps _) rfl ?_
          refine Keeps.via (State.cutFar_keeps _) rfl ?_
          refine Keeps.via (State.pushEntry_keeps _ _) rfl ?_
          exact h6
        · refine Keeps.via (State.bump_keeps _ _ _) rfl ?_
          exact h6
      · refine Keeps.ite ?_ ?_
        · refine Keeps.via (State.coalesce_keeps _ _ _) rfl ?_
          exact h6
        · refine Keeps.ite ?_ ?_
          · refine Keeps.via (State.coalesce_keeps _ _ _) rfl ?_
            exact h6
          · extract_lets -lift -merge -useContext -underBinder +onlyGivenNames x7 x8
            have h8 : Keeps State.capture_parts s0 x8 := by
              unfold x8
              refine Keeps.ite ?_ ?_
              · refine Keeps.via (Keeps.upd_log _ _) rfl ?_
                exact h6
              · exact h6
            refine Keeps.via (State.raiseIbi_keeps _) rfl ?_
            refine Keeps.via (State.trySquall_keeps _) rfl ?_
            refine Keeps.via (State.cutFar_keeps _) rfl ?_
            refine Keeps.via (State.pushEntry_keeps _ _) rfl ?_
            exact h8

def State.event_parts : List Part := [.log, .sb, .reg Reg.GLB_EVENT, .reg Reg.GLB_DIRSTAT, .reg Reg.LOG_RINGSTAT, .reg Reg.LOG_CAPTURED, .reg Reg.LOG_COALESCED, .reg Reg.LOG_LOST, .reg Reg.LOG_ORPHANS, .reg Reg.LOG_SQUALLS]

theorem State.event_keeps (s0 : State) (code : BitVec 16) (data : ℕ) :
    Keeps State.event_parts s0 (State.event s0 code data) := by
  unfold State.event
  refine Keeps.via (State.capture_keeps _ _ _ _) rfl ?_
  exact Keeps.refl _ _

def State.lateEvent_parts : List Part := [.log]

theorem State.lateEvent_keeps (s0 : State) (code : BitVec 16) (data : ℕ) (stamp : BitVec 64) :
    Keeps State.lateEvent_parts s0 (State.lateEvent s0 code data stamp) := by
  unfold State.lateEvent
  extract_lets -lift -merge -useContext -underBinder +onlyGivenNames x0 x1
  try clear_value x1
  extract_lets -lift -merge -useContext -underBinder +onlyGivenNames x2
  have h2 : Keeps State.lateEvent_parts s0 x2 := by
    unfold x2
    refine Keeps.via (State.takeSeq_keeps _) rfl ?_
    exact Keeps.refl _ _
  refine Keeps.via (Keeps.upd_log _ _) rfl ?_
  exact h2

end Sys2Proof.Machine
end

