-- ==== Sys2Proof/Laws/KeepsOps.lean ====
section
/-!
SUPPORT. The frames of the operations of Machine/Ops.lean: the parts of the state each may change, and that each keeps the canonical
form. A proof of a frame cites these and unfolds nothing.
-/

namespace Sys2Proof.Machine

def State.setSub_parts : List Part := [.sch]

theorem State.setSub_keeps (s0 : State) (n : ℕ) (c : SubCh) :
    Keeps State.setSub_parts s0 (State.setSub s0 n c) := by
  unfold State.setSub
  refine Keeps.via (Keeps.upd_sch _ _) rfl ?_
  exact Keeps.refl _ _

def State.onSub_parts : List Part := [.sch]

theorem State.onSub_keeps (s0 : State) (n : ℕ) (f : SubCh → SubCh) :
    Keeps State.onSub_parts s0 (State.onSub s0 n f) := by
  unfold State.onSub
  refine Keeps.via (State.setSub_keeps _ _ _) rfl ?_
  exact Keeps.refl _ _

def State.send_parts : List Part := [.links]

theorem State.send_keeps (s0 : State) (p : Port) (m : Msg) :
    Keeps State.send_parts s0 (State.send s0 p m) := by
  unfold State.send
  refine Keeps.ite ?_ ?_
  · refine Keeps.via (State.onLink_keeps _ _ _) rfl ?_
    exact Keeps.refl _ _
  · exact Keeps.refl _ _

def State.sendOwing_parts : List Part := [.links]

theorem State.sendOwing_keeps (s0 : State) (p : Port) (m : Msg) (c : Credits) (pool : Option ℕ) :
    Keeps State.sendOwing_parts s0 (State.sendOwing s0 p m c pool) := by
  unfold State.sendOwing
  refine Keeps.ite ?_ ?_
  · refine Keeps.via (State.onLink_keeps _ _ _) rfl ?_
    exact Keeps.refl _ _
  · exact Keeps.refl _ _

def State.freeEvent_parts : List Part := [.free, .log, .sb, .reg Reg.GLB_EVENT, .reg Reg.GLB_DIRSTAT, .reg Reg.LOG_RINGSTAT, .reg Reg.LOG_CAPTURED, .reg Reg.LOG_COALESCED, .reg Reg.LOG_LOST, .reg Reg.LOG_ORPHANS, .reg Reg.LOG_SQUALLS]

theorem State.freeEvent_keeps (s0 : State) (code : BitVec 16) :
    Keeps State.freeEvent_parts s0 (State.freeEvent s0 code) := by
  unfold State.freeEvent
  extract_lets -lift -merge -useContext -underBinder +onlyGivenNames x0
  have h0 : Keeps State.freeEvent_parts s0 x0.2 := by
    unfold x0
    refine Keeps.via (State.draw_keeps _) rfl ?_
    exact Keeps.refl _ _
  refine Keeps.via (State.capture_keeps _ _ _ _) rfl ?_
  exact h0

def State.creditNow_parts : List Part := [.links]

theorem State.creditNow_keeps (s0 : State) (p : Port) :
    Keeps State.creditNow_parts s0 (State.creditNow s0 p) := by
  unfold State.creditNow
  extract_lets -lift -merge -useContext -underBinder +onlyGivenNames x0
  try clear_value x0
  refine Keeps.ite ?_ ?_
  · refine Keeps.via (State.send_keeps _ _ _) rfl ?_
    refine Keeps.via (State.setLink_keeps _ _ _) rfl ?_
    exact Keeps.refl _ _
  · exact Keeps.refl _ _

def State.owe_parts : List Part := [.links]

theorem State.owe_keeps (s0 : State) (p : Port) (c : Credits) :
    Keeps State.owe_parts s0 (State.owe s0 p c) := by
  unfold State.owe
  refine Keeps.ite ?_ ?_
  · extract_lets -lift -merge -useContext -underBinder +onlyGivenNames x0
    have h0 : Keeps State.owe_parts s0 x0 := by
      unfold x0
      refine Keeps.via (State.onLink_keeps _ _ _) rfl ?_
      exact Keeps.refl _ _
    refine Keeps.ite ?_ ?_
    · refine Keeps.via (State.creditNow_keeps _ _) rfl ?_
      exact h0
    · exact h0
  · exact Keeps.refl _ _

def State.sendCtl_parts : List Part := [.links, .mir]

theorem State.sendCtl_keeps (s0 : State) (cmd : ℕ) (cursor : ℕ) (sess : Bool) (share : ℕ) :
    Keeps State.sendCtl_parts s0 (State.sendCtl s0 cmd cursor sess share) := by
  unfold State.sendCtl
  extract_lets -lift -merge -useContext -underBinder +onlyGivenNames x0 x1
  have h1 : Keeps State.sendCtl_parts s0 x1 := by
    unfold x1
    refine Keeps.via (Keeps.upd_mir _ _) rfl ?_
    exact Keeps.refl _ _
  refine Keeps.via (State.send_keeps _ _ _) rfl ?_
  exact h1

def State.answerCtl_parts : List Part := [.links]

theorem State.answerCtl_keeps (s0 : State) (cmd : ℕ) (m : RebuildMsg) :
    Keeps State.answerCtl_parts s0 (State.answerCtl s0 cmd m) := by
  unfold State.answerCtl
  refine Keeps.via (State.sendOwing_keeps _ _ _ _ _) rfl ?_
  exact Keeps.refl _ _

def State.notePool_parts : List Part := [.reg Reg.ORD_POOLOCC, .reg Reg.ORD_WBOCC, .reg Reg.ORD_RBOCC]

theorem State.notePool_keeps (s0 : State) :
    Keeps State.notePool_parts s0 (State.notePool s0) := by
  unfold State.notePool
  refine Keeps.via (State.noteHigh_keeps _ _ _) rfl ?_
  refine Keeps.via (State.noteHigh_keeps _ _ _) rfl ?_
  refine Keeps.via (State.noteHigh_keeps _ _ _) rfl ?_
  exact Keeps.refl _ _

def State.mapPool_parts : List Part := [.ord]

theorem State.mapPool_keeps (s0 : State) (f : PoolEntry → PoolEntry) :
    Keeps State.mapPool_parts s0 (State.mapPool s0 f) := by
  unfold State.mapPool
  refine Keeps.via (Keeps.upd_ord _ _) rfl ?_
  exact Keeps.refl _ _

def State.mapPend_parts : List Part := [.mir]

theorem State.mapPend_keeps (s0 : State) (f : ℕ → PendEntry → PendEntry) :
    Keeps State.mapPend_parts s0 (State.mapPend s0 f) := by
  unfold State.mapPend
  refine Keeps.via (Keeps.upd_mir _ _) rfl ?_
  exact Keeps.refl _ _

def State.freeEntry_parts : List Part := [.links, .ord]

theorem State.freeEntry_keeps (s0 : State) (i : ℕ) :
    Keeps State.freeEntry_parts s0 (State.freeEntry s0 i) := by
  unfold State.freeEntry
  split
  · exact Keeps.refl _ _
  · extract_lets -lift -merge -useContext -underBinder +onlyGivenNames x0
    have h0 : Keeps State.freeEntry_parts s0 x0 := by
      unfold x0
      refine Keeps.via (State.setEntry_keeps _ _ _) rfl ?_
      exact Keeps.refl _ _
    refine Keeps.ite ?_ ?_
    · refine Keeps.via (State.owe_keeps _ _ _) rfl ?_
      exact h0
    · exact h0

def State.tryFree_parts : List Part := [.links, .ord]

theorem State.tryFree_keeps (s0 : State) (i : ℕ) :
    Keeps State.tryFree_parts s0 (State.tryFree s0 i) := by
  unfold State.tryFree
  split
  · split
    · refine Keeps.ite ?_ ?_
      · refine Keeps.via (State.freeEntry_keeps _ _) rfl ?_
        exact Keeps.refl _ _
      · exact Keeps.refl _ _
    · refine Keeps.ite ?_ ?_
      · refine Keeps.via (State.freeEntry_keeps _ _) rfl ?_
        exact Keeps.refl _ _
      · exact Keeps.refl _ _
    · refine Keeps.ite ?_ ?_
      · refine Keeps.via (State.freeEntry_keeps _ _) rfl ?_
        exact Keeps.refl _ _
      · exact Keeps.refl _ _
    · refine Keeps.ite ?_ ?_
      · refine Keeps.via (State.freeEntry_keeps _ _) rfl ?_
        exact Keeps.refl _ _
      · exact Keeps.refl _ _
    · refine Keeps.ite ?_ ?_
      · refine Keeps.via (State.freeEntry_keeps _ _) rfl ?_
        exact Keeps.refl _ _
      · exact Keeps.refl _ _
    · refine Keeps.ite ?_ ?_
      · refine Keeps.via (State.freeEntry_keeps _ _) rfl ?_
        exact Keeps.refl _ _
      · exact Keeps.refl _ _
    · refine Keeps.ite ?_ ?_
      · refine Keeps.via (State.freeEntry_keeps _ _) rfl ?_
        exact Keeps.refl _ _
      · exact Keeps.refl _ _
    · refine Keeps.ite ?_ ?_
      · refine Keeps.via (State.freeEntry_keeps _ _) rfl ?_
        exact Keeps.refl _ _
      · exact Keeps.refl _ _
    · exact Keeps.refl _ _
  · exact Keeps.refl _ _

def State.dropRead_parts : List Part := [.links, .ord]

theorem State.dropRead_keeps (s0 : State) (i : ℕ) (e : PoolEntry) :
    Keeps State.dropRead_parts s0 (State.dropRead s0 i e) := by
  unfold State.dropRead
  extract_lets -lift -merge -useContext -underBinder +onlyGivenNames x0
  have h0 : Keeps State.dropRead_parts s0 x0 := by
    unfold x0
    refine Keeps.via (State.freeEntry_keeps _ _) rfl ?_
    exact Keeps.refl _ _
  refine Keeps.via (State.owe_keeps _ _ _) rfl ?_
  refine Keeps.via (Keeps.upd_ord _ _) rfl ?_
  exact h0

def State.toReturn_parts : List Part := [.links, .ord]

theorem State.toReturn_keeps (s0 : State) (orphan : Bool) (it : RetItem) :
    Keeps State.toReturn_parts s0 (State.toReturn s0 orphan it) := by
  unfold State.toReturn
  refine Keeps.ite ?_ ?_
  · split
    · split
      · split
        · refine Keeps.via (State.dropRead_keeps _ _ _) rfl ?_
          exact Keeps.refl _ _
        · refine Keeps.via (State.freeEntry_keeps _ _) rfl ?_
          exact Keeps.refl _ _
        · refine Keeps.via (State.tryFree_keeps _ _) rfl ?_
          refine Keeps.via (State.onEntry_keeps _ _ _) rfl ?_
          exact Keeps.refl _ _
      · exact Keeps.refl _ _
    · exact Keeps.refl _ _
  · refine Keeps.via (Keeps.upd_ord _ _) rfl ?_
    exact Keeps.refl _ _

def State.complete_parts : List Part := [.links, .ord]

theorem State.complete_keeps (s0 : State) (orphan : Bool) (p : Port) (tag : BitVec 12) (kind : BitVec 3) (nodur : Bool) (final : Bool) (pool : Option ℕ) :
    Keeps State.complete_parts s0 (State.complete s0 orphan p tag kind nodur final pool) := by
  unfold State.complete
  refine Keeps.via (State.toReturn_keeps _ _ _) rfl ?_
  exact Keeps.refl _ _

def State.rejectHost_parts : List Part := [.links, .ord]

theorem State.rejectHost_keeps (s0 : State) (p : Port) (op : HostOp) (tag : BitVec 12) (reason : Byte) :
    Keeps State.rejectHost_parts s0 (State.rejectHost s0 p op tag reason) := by
  unfold State.rejectHost
  refine Keeps.via (State.toReturn_keeps _ _ _) rfl ?_
  exact Keeps.refl _ _

def State.rejectRead_parts : List Part := [.links, .ord]

theorem State.rejectRead_keeps (s0 : State) (i : ℕ) (e : PoolEntry) (reason : Byte) :
    Keeps State.rejectRead_parts s0 (State.rejectRead s0 i e reason) := by
  unfold State.rejectRead
  refine Keeps.via (State.toReturn_keeps _ _ _) rfl ?_
  refine Keeps.via (State.onEntry_keeps _ _ _) rfl ?_
  exact Keeps.refl _ _

def State.readData_parts : List Part := [.links, .ord]

theorem State.readData_keeps (s0 : State) (i : ℕ) (e : PoolEntry) (line : Line) (corr : ℕ) (poison : Bool) :
    Keeps State.readData_parts s0 (State.readData s0 i e line corr poison) := by
  unfold State.readData
  extract_lets -lift -merge -useContext -underBinder +onlyGivenNames x0
  try clear_value x0
  extract_lets -lift -merge -useContext -underBinder +onlyGivenNames x1
  try clear_value x1
  extract_lets -lift -merge -useContext -underBinder +onlyGivenNames x2
  try clear_value x2
  extract_lets -lift -merge -useContext -underBinder +onlyGivenNames x3
  have h3 : Keeps State.readData_parts s0 x3 := by
    unfold x3
    refine Keeps.via (State.onEntry_keeps _ _ _) rfl ?_
    exact Keeps.refl _ _
  refine Keeps.via (State.toReturn_keeps _ _ _) rfl ?_
  exact h3

def State.joinStream_parts : List Part := [.ord]

theorem State.joinStream_keeps (s0 : State) (sid : ℕ) (i : ℕ) :
    Keeps State.joinStream_parts s0 (State.joinStream s0 sid i) := by
  unfold State.joinStream
  extract_lets -lift -merge -useContext -underBinder +onlyGivenNames x0
  try clear_value x0
  refine Keeps.ite ?_ ?_
  · refine Keeps.via (State.setStream_keeps _ _ _) rfl ?_
    exact Keeps.refl _ _
  · refine Keeps.via (State.setStream_keeps _ _ _) rfl ?_
    refine Keeps.via (State.onEntry_keeps _ _ _) rfl ?_
    exact Keeps.refl _ _

def State.leaveStream_parts : List Part := [.ord]

theorem State.leaveStream_keeps (s0 : State) (sid : ℕ) :
    Keeps State.leaveStream_parts s0 (State.leaveStream s0 sid) := by
  unfold State.leaveStream
  extract_lets -lift -merge -useContext -underBinder +onlyGivenNames x0
  try clear_value x0
  split
  · refine Keeps.via (State.setStream_keeps _ _ _) rfl ?_
    exact Keeps.refl _ _
  · refine Keeps.via (State.setStream_keeps _ _ _) rfl ?_
    exact Keeps.refl _ _

def State.buildHead_parts : List Part := [.links, .ord, .reg Reg.ORD_FLUSHES]

theorem State.buildHead_keeps (s0 : State) (sid : ℕ) :
    KeepsOpt State.buildHead_parts s0 (State.buildHead s0 sid) := by
  unfold State.buildHead
  extract_lets -lift -merge -useContext -underBinder +onlyGivenNames x0
  try clear_value x0
  refine KeepsOpt.ite ?_ ?_
  · exact KeepsOpt.none
  · split
    · exact KeepsOpt.none
    · refine KeepsOpt.ite ?_ ?_
      · refine KeepsOpt.ite ?_ ?_
        · extract_lets -lift -merge -useContext -underBinder +onlyGivenNames x1
          have h1 : Keeps State.buildHead_parts s0 x1 := by
            unfold x1
            refine Keeps.via (State.bump_keeps _ _ _) rfl ?_
            refine Keeps.via (State.leaveStream_keeps _ _) rfl ?_
            exact Keeps.refl _ _
          extract_lets -lift -merge -useContext -underBinder +onlyGivenNames x2
          have h2 : Keeps State.buildHead_parts s0 x2 := by
            unfold x2
            refine Keeps.via (State.onEntry_keeps _ _ _) rfl ?_
            exact h1
          refine KeepsOpt.some ?_
          refine Keeps.via (State.complete_keeps _ _ _ _ _ _ _ _) rfl ?_
          exact h2
        · exact KeepsOpt.none
      · refine KeepsOpt.ite ?_ ?_
        · extract_lets -lift -merge -useContext -underBinder +onlyGivenNames x3
          have h3 : Keeps State.buildHead_parts s0 x3 := by
            unfold x3
            refine Keeps.via (State.onEntry_keeps _ _ _) rfl ?_
            refine Keeps.via (State.leaveStream_keeps _ _) rfl ?_
            exact Keeps.refl _ _
          refine KeepsOpt.some ?_
          refine Keeps.via (State.complete_keeps _ _ _ _ _ _ _ _) rfl ?_
          exact h3
        · exact KeepsOpt.none

def State.buildStream_parts : List Part := [.links, .ord, .reg Reg.ORD_FLUSHES]

theorem State.buildStream_keeps (sid : ℕ) (a1 : ℕ) (s0 : State) :
    Keeps State.buildStream_parts s0 (State.buildStream sid a1 s0) := by
  induction a1 generalizing sid s0 with
  | zero =>
    rw [State.buildStream.eq_1]
    exact Keeps.refl _ _
  | succ _ ih =>
    rw [State.buildStream.eq_2]
    split
    · refine Keeps.trans ?_ (ih _ _)
      refine Keeps.ofSome (by assumption) ?_
      refine KeepsOpt.via (State.buildHead_keeps _ _) rfl ?_
      exact Keeps.refl _ _
    · exact Keeps.refl _ _

def State.buildAll_parts : List Part := [.links, .ord, .reg Reg.ORD_FLUSHES]

theorem State.buildAll_keeps (s0 : State) :
    Keeps State.buildAll_parts s0 (State.buildAll s0) := by
  unfold State.buildAll
  refine Keeps.foldl _ _ ?_ (fun t0 y0 h0 => ?_)
  · exact Keeps.refl _ _
  · refine Keeps.via (State.buildStream_keeps _ _ _) rfl ?_
    exact h0

def State.settle_parts : List Part := [.links, .ord, .reg Reg.ORD_FLUSHES]

theorem State.settle_keeps (s0 : State) :
    Keeps State.settle_parts s0 (State.settle s0) := by
  unfold State.settle
  extract_lets -lift -merge -useContext -underBinder +onlyGivenNames x0
  try clear_value x0
  extract_lets -lift -merge -useContext -underBinder +onlyGivenNames x1
  have h1 : Keeps State.settle_parts s0 x1 := by
    unfold x1
    refine Keeps.ite ?_ ?_
    · refine Keeps.via (State.mapPool_keeps _ _) rfl ?_
      exact Keeps.refl _ _
    · exact Keeps.refl _ _
  refine Keeps.via (State.buildAll_keeps _) rfl ?_
  refine Keeps.via (Keeps.upd_ord _ _) rfl ?_
  exact h1

def State.setRank_parts : List Part := [.flt]

theorem State.setRank_keeps (s0 : State) (p : ℕ) (r : RankSt) :
    Keeps State.setRank_parts s0 (State.setRank s0 p r) := by
  unfold State.setRank
  refine Keeps.via (Keeps.upd_flt _ _) rfl ?_
  exact Keeps.refl _ _

def State.onRank_parts : List Part := [.flt]

theorem State.onRank_keeps (s0 : State) (p : ℕ) (f : RankSt → RankSt) :
    Keeps State.onRank_parts s0 (State.onRank s0 p f) := by
  unfold State.onRank
  refine Keeps.via (State.setRank_keeps _ _ _) rfl ?_
  exact Keeps.refl _ _

def State.dispatchOne_parts : List Part := [.ord, .sch]

theorem State.dispatchOne_keeps (s0 : State) (n : ℕ) :
    KeepsOpt State.dispatchOne_parts s0 (State.dispatchOne s0 n) := by
  unfold State.dispatchOne
  refine KeepsOpt.ite ?_ ?_
  · exact KeepsOpt.none
  · split
    · extract_lets -lift -merge -useContext -underBinder +onlyGivenNames x0
      have h0 : Keeps State.dispatchOne_parts s0 x0 := by
        unfold x0
        refine Keeps.via (State.onEntry_keeps _ _ _) rfl ?_
        exact Keeps.refl _ _
      extract_lets -lift -merge -useContext -underBinder +onlyGivenNames x1 x2
      have h2 : Keeps State.dispatchOne_parts s0 x2 := by
        unfold x2
        refine Keeps.via (Keeps.upd_ord _ _) rfl ?_
        exact h0
      refine KeepsOpt.some ?_
      refine Keeps.via (State.onSub_keeps _ _ _) rfl ?_
      exact h2
    · exact KeepsOpt.none

def State.dispatchSome_parts : List Part := [.ord, .sch]

theorem State.dispatchSome_keeps (n : ℕ) (a1 : ℕ) (s0 : State) :
    Keeps State.dispatchSome_parts s0 (State.dispatchSome n a1 s0) := by
  induction a1 generalizing n s0 with
  | zero =>
    rw [State.dispatchSome.eq_1]
    exact Keeps.refl _ _
  | succ _ ih =>
    rw [State.dispatchSome.eq_2]
    split
    · refine Keeps.trans ?_ (ih _ _)
      refine Keeps.ofSome (by assumption) ?_
      refine KeepsOpt.via (State.dispatchOne_keeps _ _) rfl ?_
      exact Keeps.refl _ _
    · exact Keeps.refl _ _

def State.toSchedule_parts : List Part := [.ord, .sch]

theorem State.toSchedule_keeps (s0 : State) (i : ℕ) :
    Keeps State.toSchedule_parts s0 (State.toSchedule s0 i) := by
  unfold State.toSchedule
  split
  · extract_lets -lift -merge -useContext -underBinder +onlyGivenNames x0
    try clear_value x0
    extract_lets -lift -merge -useContext -underBinder +onlyGivenNames x1
    try clear_value x1
    extract_lets -lift -merge -useContext -underBinder +onlyGivenNames x2 x3
    have h3 : Keeps State.toSchedule_parts s0 x3 := by
      unfold x3
      refine Keeps.via (Keeps.upd_ord _ _) rfl ?_
      exact Keeps.refl _ _
    refine Keeps.via (State.dispatchSome_keeps _ _ _) rfl ?_
    exact h3
  · exact Keeps.refl _ _

def State.queueAgent_parts : List Part := [.ord]

theorem State.queueAgent_keeps (s0 : State) (q : AgentReq) :
    Keeps State.queueAgent_parts s0 (State.queueAgent s0 q) := by
  unfold State.queueAgent
  refine Keeps.ite ?_ ?_
  · exact Keeps.refl _ _
  · refine Keeps.via (Keeps.upd_ord _ _) rfl ?_
    exact Keeps.refl _ _

def State.beat_parts : List Part := [.links, .twin]

theorem State.beat_keeps (s0 : State) :
    Keeps State.beat_parts s0 (State.beat s0) := by
  unfold State.beat
  extract_lets -lift -merge -useContext -underBinder +onlyGivenNames x0 x1
  have h1 : Keeps State.beat_parts s0 x1 := by
    unfold x1
    refine Keeps.via (Keeps.upd_twin _ _) rfl ?_
    exact Keeps.refl _ _
  refine Keeps.via (State.send_keeps _ _ _) rfl ?_
  exact h1

def State.heartbeat_parts : List Part := [.links, .twin]

theorem State.heartbeat_keeps (s0 : State) :
    Keeps State.heartbeat_parts s0 (State.heartbeat s0) := by
  unfold State.heartbeat
  refine Keeps.ite ?_ ?_
  · refine Keeps.via (State.beat_keeps _) rfl ?_
    exact Keeps.refl _ _
  · exact Keeps.refl _ _

def State.beatFirst_parts : List Part := [.links, .twin]

theorem State.beatFirst_keeps (s0 : State) :
    Keeps State.beatFirst_parts s0 (State.beatFirst s0) := by
  unfold State.beatFirst
  refine Keeps.ite ?_ ?_
  · exact Keeps.refl _ _
  · refine Keeps.via (State.beat_keeps _) rfl ?_
    exact Keeps.refl _ _

def State.noteTaken_parts : List Part := [.mir]

theorem State.noteTaken_keeps (s0 : State) (b : Bool) :
    Keeps State.noteTaken_parts s0 (State.noteTaken s0 b) := by
  unfold State.noteTaken
  refine Keeps.via (Keeps.upd_mir _ _) rfl ?_
  exact Keeps.refl _ _

def State.fwdMiss_parts : List Part := [.log, .sb, .links, .ord, .reg Reg.GLB_EVENT, .reg Reg.GLB_DIRSTAT, .reg Reg.MIR_FWDMISS, .reg Reg.LOG_RINGSTAT, .reg Reg.LOG_CAPTURED, .reg Reg.LOG_COALESCED, .reg Reg.LOG_LOST, .reg Reg.LOG_ORPHANS, .reg Reg.LOG_SQUALLS]

theorem State.fwdMiss_keeps (s0 : State) (i : ℕ) (miss : ℕ) (poisoned : Bool) :
    Keeps State.fwdMiss_parts s0 (State.fwdMiss s0 i miss poisoned) := by
  unfold State.fwdMiss
  split
  · extract_lets -lift -merge -useContext -underBinder +onlyGivenNames x0
    have h0 : Keeps State.fwdMiss_parts s0 x0 := by
      unfold x0
      refine Keeps.via (State.event_keeps _ _ _) rfl ?_
      refine Keeps.via (State.bump_keeps _ _ _) rfl ?_
      exact Keeps.refl _ _
    refine Keeps.ite ?_ ?_
    · refine Keeps.via (State.readData_keeps _ _ _ _ _ _) rfl ?_
      exact h0
    · refine Keeps.via (State.rejectRead_keeps _ _ _ _) rfl ?_
      exact h0
  · exact Keeps.refl _ _

end Sys2Proof.Machine
end

