-- ==== Sys2Proof/Laws/KeepsRepair.lean ====
section
/-!
SUPPORT. The frames of the operations of Machine/Repair.lean: the parts of the state each may change, and that each keeps the canonical
form. A proof of a frame cites these and unfolds nothing.
-/

namespace Sys2Proof.Machine

def State.sealFail_parts : List Part := [.log, .sb, .reg Reg.GLB_EVENT, .reg Reg.GLB_DIRSTAT, .reg Reg.ECC_SEALFAIL, .reg Reg.ECC_FIRSTFAIL, .reg Reg.LOG_RINGSTAT, .reg Reg.LOG_CAPTURED, .reg Reg.LOG_COALESCED, .reg Reg.LOG_LOST, .reg Reg.LOG_ORPHANS, .reg Reg.LOG_SQUALLS]

theorem State.sealFail_keeps (s0 : State) (code : ℕ) (lane : ℕ) (space : Bool) (region : ℕ) :
    Keeps State.sealFail_parts s0 (State.sealFail s0 code lane space region) := by
  unfold State.sealFail
  extract_lets -lift -merge -useContext -underBinder +onlyGivenNames x0
  have h0 : Keeps State.sealFail_parts s0 x0 := by
    unfold x0
    split
    · refine Keeps.via (State.bumpF_keeps _ _ _) rfl ?_
      exact Keeps.refl _ _
    · refine Keeps.via (State.bumpF_keeps _ _ _) rfl ?_
      exact Keeps.refl _ _
    · refine Keeps.via (State.bumpF_keeps _ _ _) rfl ?_
      exact Keeps.refl _ _
    · refine Keeps.via (State.bumpF_keeps _ _ _) rfl ?_
      exact Keeps.refl _ _
  extract_lets -lift -merge -useContext -underBinder +onlyGivenNames x1
  have h1 : Keeps State.sealFail_parts s0 x1 := by
    unfold x1
    refine Keeps.ite ?_ ?_
    · exact h0
    · refine Keeps.via (State.setReg_keeps _ _ _) rfl ?_
      exact h0
  refine Keeps.via (State.event_keeps _ _ _) rfl ?_
  exact h1

def State.checkSeal_parts : List Part := [.log, .sb, .reg Reg.GLB_EVENT, .reg Reg.GLB_DIRSTAT, .reg Reg.ECC_SEALFAIL, .reg Reg.ECC_FIRSTFAIL, .reg Reg.LOG_RINGSTAT, .reg Reg.LOG_CAPTURED, .reg Reg.LOG_COALESCED, .reg Reg.LOG_LOST, .reg Reg.LOG_ORPHANS, .reg Reg.LOG_SQUALLS]

theorem State.checkSeal_keeps (s0 : State) (code : ℕ) (e : PoolEntry) :
    Keeps State.checkSeal_parts s0 (State.checkSeal s0 code e) := by
  unfold State.checkSeal
  refine Keeps.ite ?_ ?_
  · exact Keeps.refl _ _
  · refine Keeps.via (State.sealFail_keeps _ _ _ _ _) rfl ?_
    exact Keeps.refl _ _

def State.setRepair_parts : List Part := [.mir]

theorem State.setRepair_keeps (s0 : State) (t : ℕ) (v : Option ℕ) :
    Keeps State.setRepair_parts s0 (State.setRepair s0 t v) := by
  unfold State.setRepair
  refine Keeps.via (Keeps.upd_mir _ _) rfl ?_
  exact Keeps.refl _ _

def State.askTwin_parts : List Part := [.links, .mir]

theorem State.askTwin_keeps (s0 : State) (t : ℕ) (pair : BitVec 42) (super : Bool) :
    Keeps State.askTwin_parts s0 (State.askTwin s0 t pair super) := by
  unfold State.askTwin
  extract_lets -lift -merge -useContext -underBinder +onlyGivenNames x0 x1
  have h1 : Keeps State.askTwin_parts s0 x1 := by
    unfold x1
    refine Keeps.via (Keeps.upd_mir _ _) rfl ?_
    exact Keeps.refl _ _
  refine Keeps.via (State.send_keeps _ _ _) rfl ?_
  exact h1

def State.giveTag_parts : List Part := [.links, .ord, .mir]

theorem State.giveTag_keeps (s0 : State) (i : ℕ) :
    Keeps State.giveTag_parts s0 (State.giveTag s0 i) := by
  unfold State.giveTag
  split
  · split
    · refine Keeps.via (State.onEntry_keeps _ _ _) rfl ?_
      exact Keeps.refl _ _
    · split
      · refine Keeps.via (State.askTwin_keeps _ _ _ _) rfl ?_
        refine Keeps.via (State.onEntry_keeps _ _ _) rfl ?_
        refine Keeps.via (State.setRepair_keeps _ _ _) rfl ?_
        exact Keeps.refl _ _
      · exact Keeps.refl _ _
  · exact Keeps.refl _ _

def State.pumpTags_parts : List Part := [.links, .ord, .mir]

theorem State.pumpTags_keeps (s0 : State) :
    Keeps State.pumpTags_parts s0 (State.pumpTags s0) := by
  unfold State.pumpTags
  refine Keeps.foldl _ _ ?_ (fun t0 y0 h0 => ?_)
  · exact Keeps.refl _ _
  · refine Keeps.via (State.giveTag_keeps _ _) rfl ?_
    exact h0

def State.mergeInto_parts : List Part := [.log, .sb, .ord, .sch, .reg Reg.GLB_EVENT, .reg Reg.GLB_DIRSTAT, .reg Reg.ECC_SEALFAIL, .reg Reg.ECC_FIRSTFAIL, .reg Reg.LOG_RINGSTAT, .reg Reg.LOG_CAPTURED, .reg Reg.LOG_COALESCED, .reg Reg.LOG_LOST, .reg Reg.LOG_ORPHANS, .reg Reg.LOG_SQUALLS]

theorem State.mergeInto_keeps (s0 : State) (i : ℕ) (old : Line) (oldKind : PoisonKind) :
    Keeps State.mergeInto_parts s0 (State.mergeInto s0 i old oldKind) := by
  unfold State.mergeInto
  split
  · extract_lets -lift -merge -useContext -underBinder +onlyGivenNames x0
    try clear_value x0
    extract_lets -lift -merge -useContext -underBinder +onlyGivenNames x1
    have h1 : Keeps State.mergeInto_parts s0 x1 := by
      unfold x1
      refine Keeps.ite ?_ ?_
      · refine Keeps.via (State.sealFail_keeps _ _ _ _ _) rfl ?_
        exact Keeps.refl _ _
      · exact Keeps.refl _ _
    extract_lets -lift -merge -useContext -underBinder +onlyGivenNames x2
    try clear_value x2
    extract_lets -lift -merge -useContext -underBinder +onlyGivenNames x3
    try clear_value x3
    extract_lets -lift -merge -useContext -underBinder +onlyGivenNames x4
    try clear_value x4
    extract_lets -lift -merge -useContext -underBinder +onlyGivenNames x5
    have h5 : Keeps State.mergeInto_parts s0 x5 := by
      unfold x5
      refine Keeps.via (State.setEntry_keeps _ _ _) rfl ?_
      exact h1
    refine Keeps.via (Keeps.upd_sch _ _) rfl ?_
    exact h5
  · exact Keeps.refl _ _

def State.answerTwin_parts : List Part := [.links, .twin, .ord, .mir]

theorem State.answerTwin_keeps (s0 : State) (i : ℕ) (e : PoolEntry) (line : Line) (k : PoisonKind) :
    Keeps State.answerTwin_parts s0 (State.answerTwin s0 i e line k) := by
  unfold State.answerTwin
  refine Keeps.ite ?_ ?_
  · refine Keeps.via (State.freeEntry_keeps _ _) rfl ?_
    exact Keeps.refl _ _
  · refine Keeps.ite ?_ ?_
    · refine Keeps.via (State.sendOwing_keeps _ _ _ _ _) rfl ?_
      refine Keeps.via (State.onEntry_keeps _ _ _) rfl ?_
      exact Keeps.refl _ _
    · extract_lets -lift -merge -useContext -underBinder +onlyGivenNames x0
      try clear_value x0
      extract_lets -lift -merge -useContext -underBinder +onlyGivenNames x1
      try clear_value x1
      extract_lets -lift -merge -useContext -underBinder +onlyGivenNames x2
      have h2 : Keeps State.answerTwin_parts s0 x2 := by
        unfold x2
        refine Keeps.via (State.beatFirst_keeps _) rfl ?_
        refine Keeps.via (State.onEntry_keeps _ _ _) rfl ?_
        exact Keeps.refl _ _
      refine Keeps.via (State.onLink_keeps _ _ _) rfl ?_
      refine Keeps.via (State.noteTaken_keeps _ _) rfl ?_
      exact h2

def State.damaged_parts : List Part := [.log, .sb, .links, .twin, .ord, .mir, .sch, .reg Reg.GLB_EVENT, .reg Reg.GLB_DIRSTAT, .reg Reg.ECC_SEALFAIL, .reg Reg.ECC_FIRSTFAIL, .reg Reg.LOG_RINGSTAT, .reg Reg.LOG_CAPTURED, .reg Reg.LOG_COALESCED, .reg Reg.LOG_LOST, .reg Reg.LOG_ORPHANS, .reg Reg.LOG_SQUALLS]

theorem State.damaged_keeps (s0 : State) (i : ℕ) (e : PoolEntry) (line : Line) :
    Keeps State.damaged_parts s0 (State.damaged s0 i e line) := by
  unfold State.damaged
  split
  · refine Keeps.via (State.answerTwin_keeps _ _ _ _ _) rfl ?_
    exact Keeps.refl _ _
  · refine Keeps.ite ?_ ?_
    · refine Keeps.via (State.giveTag_keeps _ _) rfl ?_
      refine Keeps.via (State.onEntry_keeps _ _ _) rfl ?_
      exact Keeps.refl _ _
    · refine Keeps.ite ?_ ?_
      · refine Keeps.via (State.mergeInto_keeps _ _ _ _) rfl ?_
        exact Keeps.refl _ _
      · refine Keeps.via (State.readData_keeps _ _ _ _ _ _) rfl ?_
        exact Keeps.refl _ _

def State.agentServed_parts : List Part := [.links, .ord]

theorem State.agentServed_keeps (s0 : State) (i : ℕ) (e : PoolEntry) (line : Line) (k : PoisonKind) :
    Keeps State.agentServed_parts s0 (State.agentServed s0 i e line k) := by
  unfold State.agentServed
  extract_lets -lift -merge -useContext -underBinder +onlyGivenNames x0
  have h0 : Keeps State.agentServed_parts s0 x0 := by
    unfold x0
    refine Keeps.via (State.freeEntry_keeps _ _) rfl ?_
    exact Keeps.refl _ _
  refine Keeps.ite ?_ ?_
  · refine Keeps.ite ?_ ?_
    · refine Keeps.via (State.queueAgent_keeps _ _) rfl ?_
      exact h0
    · exact h0
  · refine Keeps.ite ?_ ?_
    · exact h0
    · refine Keeps.via (State.queueAgent_keeps _ _) rfl ?_
      exact h0

def State.served_parts : List Part := [.log, .sb, .links, .twin, .ord, .mir, .sch, .reg Reg.GLB_EVENT, .reg Reg.GLB_DIRSTAT, .reg Reg.ECC_SEALFAIL, .reg Reg.ECC_FIRSTFAIL, .reg Reg.LOG_RINGSTAT, .reg Reg.LOG_CAPTURED, .reg Reg.LOG_COALESCED, .reg Reg.LOG_LOST, .reg Reg.LOG_ORPHANS, .reg Reg.LOG_SQUALLS]

theorem State.served_keeps (s0 : State) (i : ℕ) (line : Line) (k : PoisonKind) (corr : ℕ) :
    Keeps State.served_parts s0 (State.served s0 i line k corr) := by
  unfold State.served
  split
  · refine Keeps.ite ?_ ?_
    · refine Keeps.via (State.agentServed_keeps _ _ _ _ _) rfl ?_
      exact Keeps.refl _ _
    · split
      · refine Keeps.via (State.damaged_keeps _ _ _ _) rfl ?_
        exact Keeps.refl _ _
      · split
        · refine Keeps.via (State.answerTwin_keeps _ _ _ _ _) rfl ?_
          exact Keeps.refl _ _
        · refine Keeps.via (State.readData_keeps _ _ _ _ _ _) rfl ?_
          exact Keeps.refl _ _
        · refine Keeps.ite ?_ ?_
          · refine Keeps.via (State.mergeInto_keeps _ _ _ _) rfl ?_
            exact Keeps.refl _ _
          · exact Keeps.refl _ _
  · exact Keeps.refl _ _

def State.forward_parts : List Part := [.log, .sb, .links, .twin, .ord, .mir, .sch, .reg Reg.GLB_EVENT, .reg Reg.GLB_DIRSTAT, .reg Reg.ORD_FWD, .reg Reg.ECC_SEALFAIL, .reg Reg.ECC_FIRSTFAIL, .reg Reg.LOG_RINGSTAT, .reg Reg.LOG_CAPTURED, .reg Reg.LOG_COALESCED, .reg Reg.LOG_LOST, .reg Reg.LOG_ORPHANS, .reg Reg.LOG_SQUALLS]

theorem State.forward_keeps (s0 : State) (i : ℕ) (j : ℕ) :
    Keeps State.forward_parts s0 (State.forward s0 i j) := by
  unfold State.forward
  split
  · extract_lets -lift -merge -useContext -underBinder +onlyGivenNames x0
    try clear_value x0
    extract_lets -lift -merge -useContext -underBinder +onlyGivenNames x1
    have h1 : Keeps State.forward_parts s0 x1 := by
      unfold x1
      refine Keeps.via (State.bump_keeps _ _ _) rfl ?_
      refine Keeps.via (State.checkSeal_keeps _ _ _) rfl ?_
      exact Keeps.refl _ _
    refine Keeps.via (State.served_keeps _ _ _ _ _) rfl ?_
    exact h1
  · exact Keeps.refl _ _

def State.release_parts : List Part := [.log, .sb, .links, .twin, .ord, .mir, .sch, .reg Reg.GLB_EVENT, .reg Reg.GLB_DIRSTAT, .reg Reg.ORD_FWD, .reg Reg.ECC_SEALFAIL, .reg Reg.ECC_FIRSTFAIL, .reg Reg.LOG_RINGSTAT, .reg Reg.LOG_CAPTURED, .reg Reg.LOG_COALESCED, .reg Reg.LOG_LOST, .reg Reg.LOG_ORPHANS, .reg Reg.LOG_SQUALLS]

theorem State.release_keeps (a0 : ℕ) (a1 : ℕ) (s0 : State) :
    Keeps State.release_parts s0 (State.release a0 a1 s0) := by
  induction a0 generalizing a1 s0 with
  | zero =>
    rw [State.release.eq_1]
    exact Keeps.refl _ _
  | succ _ ih =>
    rw [State.release.eq_2]
    split
    · refine Keeps.ite ?_ ?_
      · exact Keeps.refl _ _
      · refine Keeps.foldl _ _ ?_ (fun t0 y0 h0 => ?_)
        · exact Keeps.refl _ _
        · refine Keeps.trans ?_ (ih _ _)
          refine Keeps.via (State.forward_keeps _ _ _) rfl ?_
          refine Keeps.via (State.onEntry_keeps _ _ _) rfl ?_
          exact h0
    · exact Keeps.refl _ _

def State.serveAll_parts : List Part := [.log, .sb, .links, .twin, .ord, .mir, .sch, .reg Reg.GLB_EVENT, .reg Reg.GLB_DIRSTAT, .reg Reg.ORD_FWD, .reg Reg.ECC_SEALFAIL, .reg Reg.ECC_FIRSTFAIL, .reg Reg.LOG_RINGSTAT, .reg Reg.LOG_CAPTURED, .reg Reg.LOG_COALESCED, .reg Reg.LOG_LOST, .reg Reg.LOG_ORPHANS, .reg Reg.LOG_SQUALLS]

theorem State.serveAll_keeps (s0 : State) (i : ℕ) (line : Line) (k : PoisonKind) (corr : ℕ) :
    Keeps State.serveAll_parts s0 (State.serveAll s0 i line k corr) := by
  unfold State.serveAll
  extract_lets -lift -merge -useContext -underBinder +onlyGivenNames x0
  have h0 : Keeps State.serveAll_parts s0 x0 := by
    unfold x0
    refine Keeps.via (State.served_keeps _ _ _ _ _) rfl ?_
    exact Keeps.refl _ _
  refine Keeps.via (State.release_keeps _ _ _) rfl ?_
  exact h0

def State.lookForLine_parts : List Part := [.log, .sb, .links, .twin, .ord, .mir, .sch, .reg Reg.GLB_EVENT, .reg Reg.GLB_DIRSTAT, .reg Reg.ORD_FWD, .reg Reg.ORD_LINEHOLD, .reg Reg.ECC_SEALFAIL, .reg Reg.ECC_FIRSTFAIL, .reg Reg.LOG_RINGSTAT, .reg Reg.LOG_CAPTURED, .reg Reg.LOG_COALESCED, .reg Reg.LOG_LOST, .reg Reg.LOG_ORPHANS, .reg Reg.LOG_SQUALLS]

theorem State.lookForLine_keeps (s0 : State) (i : ℕ) :
    Keeps State.lookForLine_parts s0 (State.lookForLine s0 i).1 := by
  unfold State.lookForLine
  split
  · split
    · split
      · refine Keeps.iteL ?_ ?_
        · dsimp -zeta only
          refine Keeps.via (State.bump_keeps _ _ _) rfl ?_
          refine Keeps.via (State.onEntry_keeps _ _ _) rfl ?_
          exact Keeps.refl _ _
        · dsimp -zeta only
          refine Keeps.via (State.forward_keeps _ _ _) rfl ?_
          exact Keeps.refl _ _
      · dsimp -zeta only
        exact Keeps.refl _ _
    · dsimp -zeta only
      exact Keeps.refl _ _
  · dsimp -zeta only
    exact Keeps.refl _ _

def State.closeTag_parts : List Part := [.links, .ord, .mir]

theorem State.closeTag_keeps (s0 : State) (t : ℕ) :
    Keeps State.closeTag_parts s0 (State.closeTag s0 t) := by
  unfold State.closeTag
  refine Keeps.via (State.pumpTags_keeps _) rfl ?_
  refine Keeps.via (State.setRepair_keeps _ _ _) rfl ?_
  exact Keeps.refl _ _

def State.freeStale_parts : List Part := [.links, .ord, .mir]

theorem State.freeStale_keeps (s0 : State) (t : ℕ) :
    Keeps State.freeStale_parts s0 (State.freeStale s0 t) := by
  unfold State.freeStale
  refine Keeps.via (State.pumpTags_keeps _) rfl ?_
  refine Keeps.via (Keeps.upd_mir _ _) rfl ?_
  exact Keeps.refl _ _

def State.repairArrives_parts : List Part := [.log, .sb, .links, .twin, .ord, .mir, .sch, .reg Reg.GLB_EVENT, .reg Reg.GLB_DIRSTAT, .reg Reg.ORD_FWD, .reg Reg.MIR_FWDRD, .reg Reg.ECC_SEALFAIL, .reg Reg.ECC_FIRSTFAIL, .reg Reg.ECC_REPAIR, .reg Reg.LOG_RINGSTAT, .reg Reg.LOG_CAPTURED, .reg Reg.LOG_COALESCED, .reg Reg.LOG_LOST, .reg Reg.LOG_ORPHANS, .reg Reg.LOG_SQUALLS]

theorem State.repairArrives_keeps (s0 : State) (t : ℕ) (line : Line) (poison : Bool) :
    Keeps State.repairArrives_parts s0 (State.repairArrives s0 t line poison) := by
  unfold State.repairArrives
  extract_lets -lift -merge -useContext -underBinder +onlyGivenNames x0
  have h0 : Keeps State.repairArrives_parts s0 x0 := by
    unfold x0
    refine Keeps.foldl _ _ ?_ (fun t1 y1 h1 => ?_)
    · exact Keeps.refl _ _
    · split
      · refine Keeps.ite ?_ ?_
        · refine Keeps.via (State.readData_keeps _ _ _ _ _ _) rfl ?_
          refine Keeps.via (State.bump_keeps _ _ _) rfl ?_
          exact h1
        · extract_lets -lift -merge -useContext -underBinder +onlyGivenNames x2
          have h2 : Keeps State.repairArrives_parts s0 x2 := by
            unfold x2
            refine Keeps.via (State.onEntry_keeps _ _ _) rfl ?_
            refine Keeps.via (State.bumpF_keeps _ _ _) rfl ?_
            exact h1
          refine Keeps.via (State.serveAll_keeps _ _ _ _ _) rfl ?_
          exact h2
      · exact h1
  extract_lets -lift -merge -useContext -underBinder +onlyGivenNames x3
  have h3 : Keeps State.repairArrives_parts s0 x3 := by
    unfold x3
    refine Keeps.foldl _ _ ?_ (fun t4 y4 h4 => ?_)
    · exact h0
    · refine Keeps.via (State.bumpF_keeps _ _ _) rfl ?_
      exact h4
  refine Keeps.via (State.closeTag_keeps _ _) rfl ?_
  refine Keeps.via (Keeps.upd_mir _ _) rfl ?_
  exact h3

def State.scrubLost_parts : List Part := [.log, .sb, .reg Reg.GLB_EVENT, .reg Reg.GLB_DIRSTAT, .reg Reg.LOG_RINGSTAT, .reg Reg.LOG_CAPTURED, .reg Reg.LOG_COALESCED, .reg Reg.LOG_LOST, .reg Reg.LOG_ORPHANS, .reg Reg.LOG_SQUALLS]

theorem State.scrubLost_keeps (s0 : State) (addr : ℕ) (found : ℕ) :
    Keeps State.scrubLost_parts s0 (State.scrubLost s0 addr found) := by
  unfold State.scrubLost
  extract_lets -lift -merge -useContext -underBinder +onlyGivenNames x0
  try clear_value x0
  refine Keeps.via (State.event_keeps _ _ _) rfl ?_
  exact Keeps.refl _ _

def State.repairMissed_parts : List Part := [.log, .sb, .reg Reg.GLB_EVENT, .reg Reg.GLB_DIRSTAT, .reg Reg.LOG_RINGSTAT, .reg Reg.LOG_CAPTURED, .reg Reg.LOG_COALESCED, .reg Reg.LOG_LOST, .reg Reg.LOG_ORPHANS, .reg Reg.LOG_SQUALLS]

theorem State.repairMissed_keeps (s0 : State) (addr : ℕ) (miss : ℕ) :
    Keeps State.repairMissed_parts s0 (State.repairMissed s0 addr miss) := by
  unfold State.repairMissed
  extract_lets -lift -merge -useContext -underBinder +onlyGivenNames x0
  try clear_value x0
  refine Keeps.via (State.event_keeps _ _ _) rfl ?_
  exact Keeps.refl _ _

def State.repairEnds_parts : List Part := [.log, .sb, .links, .twin, .ord, .mir, .sch, .reg Reg.GLB_EVENT, .reg Reg.GLB_DIRSTAT, .reg Reg.ORD_FWD, .reg Reg.MIR_FWDMISS, .reg Reg.ECC_SEALFAIL, .reg Reg.ECC_FIRSTFAIL, .reg Reg.ECC_REPAIR, .reg Reg.LOG_RINGSTAT, .reg Reg.LOG_CAPTURED, .reg Reg.LOG_COALESCED, .reg Reg.LOG_LOST, .reg Reg.LOG_ORPHANS, .reg Reg.LOG_SQUALLS]

theorem State.repairEnds_keeps (s0 : State) (t : ℕ) (miss : ℕ) :
    Keeps State.repairEnds_parts s0 (State.repairEnds s0 t miss) := by
  unfold State.repairEnds
  extract_lets -lift -merge -useContext -underBinder +onlyGivenNames x0
  have h0 : Keeps State.repairEnds_parts s0 x0 := by
    unfold x0
    refine Keeps.foldl _ _ ?_ (fun t1 y1 h1 => ?_)
    · exact Keeps.refl _ _
    · split
      · refine Keeps.ite ?_ ?_
        · refine Keeps.via (State.fwdMiss_keeps _ _ _ _) rfl ?_
          exact h1
        · extract_lets -lift -merge -useContext -underBinder +onlyGivenNames x2
          have h2 : Keeps State.repairEnds_parts s0 x2 := by
            unfold x2
            refine Keeps.via (State.repairMissed_keeps _ _ _) rfl ?_
            refine Keeps.via (State.bumpF_keeps _ _ _) rfl ?_
            exact h1
          extract_lets -lift -merge -useContext -underBinder +onlyGivenNames x3
          have h3 : Keeps State.repairEnds_parts s0 x3 := by
            unfold x3
            refine Keeps.via (State.onEntry_keeps _ _ _) rfl ?_
            exact h2
          refine Keeps.ite ?_ ?_
          · refine Keeps.via (State.release_keeps _ _ _) rfl ?_
            refine Keeps.via (State.mergeInto_keeps _ _ _ _) rfl ?_
            exact h3
          · refine Keeps.via (State.readData_keeps _ _ _ _ _ _) rfl ?_
            exact h3
      · exact h1
  extract_lets -lift -merge -useContext -underBinder +onlyGivenNames x4
  try clear_value x4
  refine Keeps.foldl _ _ ?_ (fun t5 y5 h5 => ?_)
  · refine Keeps.via (Keeps.upd_mir _ _) rfl ?_
    exact h0
  · refine Keeps.via (State.scrubLost_keeps _ _ _) rfl ?_
    refine Keeps.via (State.repairMissed_keeps _ _ _) rfl ?_
    refine Keeps.via (State.bumpF_keeps _ _ _) rfl ?_
    exact h5

def execRepairMiss_parts : List Part := [.free, .log, .sb, .links, .twin, .ord, .mir, .sch, .reg Reg.GLB_EVENT, .reg Reg.GLB_DIRSTAT, .reg (Reg.LNK_BADMSG 4), .reg Reg.ORD_FWD, .reg Reg.MIR_FWDMISS, .reg Reg.ECC_SEALFAIL, .reg Reg.ECC_FIRSTFAIL, .reg Reg.ECC_REPAIR, .reg Reg.LOG_RINGSTAT, .reg Reg.LOG_CAPTURED, .reg Reg.LOG_COALESCED, .reg Reg.LOG_LOST, .reg Reg.LOG_ORPHANS, .reg Reg.LOG_SQUALLS]

theorem execRepairMiss_keeps (tag : BitVec 12) (miss : Byte) (_epoch : Word) (_addr : BitVec 42) (s0 : State) :
    KeepsOut execRepairMiss_parts s0 (execRepairMiss tag miss _epoch _addr s0) := by
  unfold execRepairMiss
  refine KeepsOut.next ?_
  refine Keeps.ite ?_ ?_
  · refine Keeps.ite ?_ ?_
    · refine Keeps.via (State.freeEvent_keeps _ _) rfl ?_
      refine Keeps.via (State.bump_keeps _ _ _) rfl ?_
      exact Keeps.refl _ _
    · extract_lets -lift -merge -useContext -underBinder +onlyGivenNames x0
      try clear_value x0
      refine Keeps.ite ?_ ?_
      · refine Keeps.via (State.freeStale_keeps _ _) rfl ?_
        exact Keeps.refl _ _
      · refine Keeps.ite ?_ ?_
        · exact Keeps.refl _ _
        · refine Keeps.via (State.closeTag_keeps _ _) rfl ?_
          refine Keeps.via (State.repairEnds_keeps _ _ _) rfl ?_
          exact Keeps.refl _ _
  · exact Keeps.refl _ _

def execRepairTimeout_parts : List Part := [.log, .sb, .links, .twin, .ord, .mir, .sch, .reg Reg.GLB_EVENT, .reg Reg.GLB_DIRSTAT, .reg Reg.ORD_FWD, .reg Reg.MIR_FWDMISS, .reg Reg.ECC_SEALFAIL, .reg Reg.ECC_FIRSTFAIL, .reg Reg.ECC_REPAIR, .reg Reg.LOG_RINGSTAT, .reg Reg.LOG_CAPTURED, .reg Reg.LOG_COALESCED, .reg Reg.LOG_LOST, .reg Reg.LOG_ORPHANS, .reg Reg.LOG_SQUALLS]

theorem execRepairTimeout_keeps (tag : BitVec 8) (s0 : State) :
    KeepsOut execRepairTimeout_parts s0 (execRepairTimeout tag s0) := by
  unfold execRepairTimeout
  refine KeepsOut.next ?_
  extract_lets -lift -merge -useContext -underBinder +onlyGivenNames x0
  try clear_value x0
  refine Keeps.ite ?_ ?_
  · extract_lets -lift -merge -useContext -underBinder +onlyGivenNames x1
    have h1 : Keeps execRepairTimeout_parts s0 x1 := by
      unfold x1
      refine Keeps.via (State.repairEnds_keeps _ _ _) rfl ?_
      exact Keeps.refl _ _
    extract_lets -lift -merge -useContext -underBinder +onlyGivenNames x2
    have h2 : Keeps execRepairTimeout_parts s0 x2 := by
      unfold x2
      refine Keeps.via (State.setRepair_keeps _ _ _) rfl ?_
      exact h1
    refine Keeps.via (Keeps.upd_mir _ _) rfl ?_
    exact h2
  · exact Keeps.refl _ _

end Sys2Proof.Machine
end

