-- ==== Sys2Proof/Laws/KeepsAgents.lean ====
section
/-!
SUPPORT. The frames of the operations of Machine/Agents.lean: the parts of the state each may change, and that each keeps the canonical
form. A proof of a frame cites these and unfolds nothing.
-/

namespace Sys2Proof.Machine

def State.startWrite_parts : List Part := [.log, .sb, .links, .twin, .ord, .mir, .sch, .reg Reg.GLB_EVENT, .reg Reg.GLB_DIRSTAT, .reg Reg.ORD_FWD, .reg Reg.ORD_LINEHOLD, .reg Reg.ECC_SEALFAIL, .reg Reg.ECC_FIRSTFAIL, .reg Reg.LOG_RINGSTAT, .reg Reg.LOG_CAPTURED, .reg Reg.LOG_COALESCED, .reg Reg.LOG_LOST, .reg Reg.LOG_ORPHANS, .reg Reg.LOG_SQUALLS]

theorem State.startWrite_keeps (s0 : State) (i : ℕ) (forked : Bool) :
    Keeps State.startWrite_parts s0 (State.startWrite s0 i forked) := by
  unfold State.startWrite
  split
  · extract_lets -lift -merge -useContext -underBinder +onlyGivenNames x0
    have h0 : Keeps State.startWrite_parts s0 x0 := by
      unfold x0
      refine Keeps.ite ?_ ?_
      · refine Keeps.via (State.lookForLine_keeps _ _) rfl ?_
        exact Keeps.refl _ _
      · refine Keeps.ite ?_ ?_
        · refine Keeps.via (State.bump_keeps _ _ _) rfl ?_
          exact Keeps.refl _ _
        · exact Keeps.refl _ _
    refine Keeps.ite ?_ ?_
    · exact h0
    · refine Keeps.via (State.toSchedule_keeps _ _) rfl ?_
      exact h0
  · exact Keeps.refl _ _

def State.startAgent_parts : List Part := [.log, .sb, .links, .twin, .ord, .mir, .sch, .reg Reg.GLB_EVENT, .reg Reg.GLB_DIRSTAT, .reg Reg.ORD_FWD, .reg Reg.ORD_LINEHOLD, .reg Reg.ECC_SEALFAIL, .reg Reg.ECC_FIRSTFAIL, .reg Reg.LOG_RINGSTAT, .reg Reg.LOG_CAPTURED, .reg Reg.LOG_COALESCED, .reg Reg.LOG_LOST, .reg Reg.LOG_ORPHANS, .reg Reg.LOG_SQUALLS]

theorem State.startAgent_keeps (s0 : State) (i : ℕ) :
    Keeps State.startAgent_parts s0 (State.startAgent s0 i) := by
  unfold State.startAgent
  split
  · refine Keeps.ite ?_ ?_
    · refine Keeps.via (State.startWrite_keeps _ _ _) rfl ?_
      exact Keeps.refl _ _
    · extract_lets -lift -merge -useContext -underBinder +onlyGivenNames x0
      have h0 : Keeps State.startAgent_parts s0 x0.1 := by
        unfold x0
        refine Keeps.via (State.lookForLine_keeps _ _) rfl ?_
        exact Keeps.refl _ _
      refine Keeps.ite ?_ ?_
      · refine Keeps.via (State.toSchedule_keeps _ _) rfl ?_
        exact h0
      · exact h0
  · exact Keeps.refl _ _

def State.pumpAgents_parts : List Part := [.log, .sb, .links, .twin, .ord, .mir, .sch, .reg Reg.GLB_EVENT, .reg Reg.GLB_DIRSTAT, .reg Reg.ORD_FWD, .reg Reg.ORD_LINEHOLD, .reg Reg.ECC_SEALFAIL, .reg Reg.ECC_FIRSTFAIL, .reg Reg.LOG_RINGSTAT, .reg Reg.LOG_CAPTURED, .reg Reg.LOG_COALESCED, .reg Reg.LOG_LOST, .reg Reg.LOG_ORPHANS, .reg Reg.LOG_SQUALLS]

theorem State.pumpAgents_keeps (a0 : ℕ) (s0 : State) :
    Keeps State.pumpAgents_parts s0 (State.pumpAgents a0 s0) := by
  induction a0 generalizing s0 with
  | zero =>
    rw [State.pumpAgents.eq_1]
    exact Keeps.refl _ _
  | succ _ ih =>
    rw [State.pumpAgents.eq_2]
    split
    · exact Keeps.refl _ _
    · extract_lets -lift -merge -useContext -underBinder +onlyGivenNames x0
      try clear_value x0
      refine Keeps.ite ?_ ?_
      · extract_lets -lift -merge -useContext -underBinder +onlyGivenNames x1
        have h1 : Keeps State.pumpAgents_parts s0 x1 := by
          unfold x1
          refine Keeps.via (State.setEntry_keeps _ _ _) rfl ?_
          exact Keeps.refl _ _
        extract_lets -lift -merge -useContext -underBinder +onlyGivenNames x2 x3
        have h3 : Keeps State.pumpAgents_parts s0 x3 := by
          unfold x3
          refine Keeps.via (Keeps.upd_ord _ _) rfl ?_
          exact h1
        refine Keeps.trans ?_ (ih _)
        refine Keeps.via (State.startAgent_keeps _ _) rfl ?_
        exact h3
      · exact Keeps.refl _ _

def State.agentAsk_parts : List Part := [.log, .sb, .links, .twin, .ord, .mir, .sch, .reg Reg.GLB_EVENT, .reg Reg.GLB_DIRSTAT, .reg Reg.ORD_FWD, .reg Reg.ORD_LINEHOLD, .reg Reg.ECC_SEALFAIL, .reg Reg.ECC_FIRSTFAIL, .reg Reg.LOG_RINGSTAT, .reg Reg.LOG_CAPTURED, .reg Reg.LOG_COALESCED, .reg Reg.LOG_LOST, .reg Reg.LOG_ORPHANS, .reg Reg.LOG_SQUALLS]

theorem State.agentAsk_keeps (s0 : State) (qs : List AgentReq) :
    Keeps State.agentAsk_parts s0 (State.agentAsk s0 qs) := by
  unfold State.agentAsk
  refine Keeps.ite ?_ ?_
  · exact Keeps.refl _ _
  · extract_lets -lift -merge -useContext -underBinder +onlyGivenNames x0 x1
    have h1 : Keeps State.agentAsk_parts s0 x1 := by
      unfold x1
      refine Keeps.via (Keeps.upd_ord _ _) rfl ?_
      exact Keeps.refl _ _
    refine Keeps.via (State.pumpAgents_keeps _ _) rfl ?_
    exact h1

def State.reserveWrite_parts : List Part := [.log, .sb, .links, .twin, .ord, .mir, .sch, .reg Reg.GLB_EVENT, .reg Reg.GLB_DIRSTAT, .reg Reg.ORD_FWD, .reg Reg.ORD_LINEHOLD, .reg Reg.ECC_SEALFAIL, .reg Reg.ECC_FIRSTFAIL, .reg Reg.LOG_RINGSTAT, .reg Reg.LOG_CAPTURED, .reg Reg.LOG_COALESCED, .reg Reg.LOG_LOST, .reg Reg.LOG_ORPHANS, .reg Reg.LOG_SQUALLS]

theorem State.reserveWrite_keeps (s0 : State) (off : ℕ) (line : Line) :
    Keeps State.reserveWrite_parts s0 (State.reserveWrite s0 off line) := by
  unfold State.reserveWrite
  extract_lets -lift -merge -useContext -underBinder +onlyGivenNames x0
  try clear_value x0
  refine Keeps.via (State.agentAsk_keeps _ _) rfl ?_
  exact Keeps.refl _ _

def State.reserveAsk_parts : List Part := [.log, .sb, .links, .twin, .ord, .mir, .sch, .reg Reg.GLB_EVENT, .reg Reg.GLB_DIRSTAT, .reg Reg.ORD_FWD, .reg Reg.ORD_LINEHOLD, .reg Reg.ECC_SEALFAIL, .reg Reg.ECC_FIRSTFAIL, .reg Reg.LOG_RINGSTAT, .reg Reg.LOG_CAPTURED, .reg Reg.LOG_COALESCED, .reg Reg.LOG_LOST, .reg Reg.LOG_ORPHANS, .reg Reg.LOG_SQUALLS]

theorem State.reserveAsk_keeps (s0 : State) (off : ℕ) :
    Keeps State.reserveAsk_parts s0 (State.reserveAsk s0 off) := by
  unfold State.reserveAsk
  refine Keeps.via (State.agentAsk_keeps _ _) rfl ?_
  exact Keeps.refl _ _

def State.setRt_parts : List Part := [.map]

theorem State.setRt_keeps (s0 : State) (region : ℕ) (w : Word) :
    Keeps State.setRt_parts s0 (State.setRt s0 region w) := by
  unfold State.setRt
  extract_lets -lift -merge -useContext -underBinder +onlyGivenNames x0
  try clear_value x0
  refine Keeps.ite ?_ ?_
  · exact Keeps.refl _ _
  · refine Keeps.ite ?_ ?_
    · refine Keeps.via (Keeps.upd_map _ _) rfl ?_
      exact Keeps.refl _ _
    · refine Keeps.via (Keeps.upd_map _ _) rfl ?_
      exact Keeps.refl _ _

def State.deferTurn_parts : List Part := [.map]

theorem State.deferTurn_keeps (s0 : State) (region : ℕ) :
    Keeps State.deferTurn_parts s0 (State.deferTurn s0 region) := by
  unfold State.deferTurn
  extract_lets -lift -merge -useContext -underBinder +onlyGivenNames x0
  try clear_value x0
  refine Keeps.via (Keeps.upd_map _ _) rfl ?_
  exact Keeps.refl _ _

def State.makeChange_parts : List Part := [.log, .sb, .links, .twin, .ord, .map, .mir, .sch, .reg Reg.GLB_EVENT, .reg Reg.GLB_DIRSTAT, .reg Reg.ORD_FWD, .reg Reg.ORD_LINEHOLD, .reg Reg.ECC_SEALFAIL, .reg Reg.ECC_FIRSTFAIL, .reg Reg.LOG_RINGSTAT, .reg Reg.LOG_CAPTURED, .reg Reg.LOG_COALESCED, .reg Reg.LOG_LOST, .reg Reg.LOG_ORPHANS, .reg Reg.LOG_SQUALLS]

theorem State.makeChange_keeps (s0 : State) :
    Keeps State.makeChange_parts s0 (State.makeChange s0) := by
  unfold State.makeChange
  split
  · exact Keeps.refl _ _
  · refine Keeps.ite ?_ ?_
    · extract_lets -lift -merge -useContext -underBinder +onlyGivenNames x0 x1
      have h1 : Keeps State.makeChange_parts s0 x1 := by
        unfold x1
        refine Keeps.via (Keeps.upd_map _ _) rfl ?_
        exact Keeps.refl _ _
      refine Keeps.via (State.reserveWrite_keeps _ _ _) rfl ?_
      exact h1
    · exact Keeps.refl _ _

def State.dropAgents_parts : List Part := [.ord, .map, .mir]

theorem State.dropAgents_keeps (s0 : State) :
    Keeps State.dropAgents_parts s0 (State.dropAgents s0) := by
  unfold State.dropAgents
  refine Keeps.via (Keeps.upd_ord_map_mir _ _ _ _) rfl ?_
  exact Keeps.refl _ _

def State.cacheLine_parts : List Part := [.mir]

theorem State.cacheLine_keeps (s0 : State) (k : ℕ) :
    Keeps State.cacheLine_parts s0 (State.cacheLine s0 k) := by
  unfold State.cacheLine
  refine Keeps.ite ?_ ?_
  · exact Keeps.refl _ _
  · refine Keeps.via (Keeps.upd_mir _ _) rfl ?_
    exact Keeps.refl _ _

def State.mark_parts : List Part := [.log, .sb, .links, .twin, .ord, .mir, .sch, .reg Reg.GLB_EVENT, .reg Reg.GLB_DIRSTAT, .reg Reg.ORD_FWD, .reg Reg.ORD_LINEHOLD, .reg Reg.ECC_SEALFAIL, .reg Reg.ECC_FIRSTFAIL, .reg Reg.LOG_RINGSTAT, .reg Reg.LOG_CAPTURED, .reg Reg.LOG_COALESCED, .reg Reg.LOG_LOST, .reg Reg.LOG_ORPHANS, .reg Reg.LOG_SQUALLS]

theorem State.mark_keeps (s0 : State) (g : ℕ) :
    Keeps State.mark_parts s0 (State.mark s0 g) := by
  unfold State.mark
  refine Keeps.ite ?_ ?_
  · exact Keeps.refl _ _
  · extract_lets -lift -merge -useContext -underBinder +onlyGivenNames x0 x1
    have h1 : Keeps State.mark_parts s0 x1 := by
      unfold x1
      refine Keeps.via (Keeps.upd_mir _ _) rfl ?_
      exact Keeps.refl _ _
    refine Keeps.ite ?_ ?_
    · refine Keeps.via (Keeps.upd_mir _ _) rfl ?_
      exact h1
    · extract_lets -lift -merge -useContext -underBinder +onlyGivenNames x2
      have h2 : Keeps State.mark_parts s0 x2 := by
        unfold x2
        refine Keeps.via (State.cacheLine_keeps _ _) rfl ?_
        exact h1
      extract_lets -lift -merge -useContext -underBinder +onlyGivenNames x3
      try clear_value x3
      extract_lets -lift -merge -useContext -underBinder +onlyGivenNames x4
      try clear_value x4
      refine Keeps.via (State.agentAsk_keeps _ _) rfl ?_
      exact h2

def State.unmark_parts : List Part := [.log, .sb, .links, .twin, .ord, .mir, .sch, .reg Reg.GLB_EVENT, .reg Reg.GLB_DIRSTAT, .reg Reg.ORD_FWD, .reg Reg.ORD_LINEHOLD, .reg Reg.ECC_SEALFAIL, .reg Reg.ECC_FIRSTFAIL, .reg Reg.LOG_RINGSTAT, .reg Reg.LOG_CAPTURED, .reg Reg.LOG_COALESCED, .reg Reg.LOG_LOST, .reg Reg.LOG_ORPHANS, .reg Reg.LOG_SQUALLS]

theorem State.unmark_keeps (s0 : State) (g : ℕ) :
    Keeps State.unmark_parts s0 (State.unmark s0 g) := by
  unfold State.unmark
  refine Keeps.ite ?_ ?_
  · extract_lets -lift -merge -useContext -underBinder +onlyGivenNames x0 x1
    have h1 : Keeps State.unmark_parts s0 x1 := by
      unfold x1
      refine Keeps.via (Keeps.upd_mir _ _) rfl ?_
      exact Keeps.refl _ _
    refine Keeps.via (State.reserveWrite_keeps _ _ _) rfl ?_
    exact h1
  · exact Keeps.refl _ _

def State.answerCursor_parts : List Part := [.log, .sb, .links, .twin, .ord, .mir, .sch, .reg Reg.GLB_EVENT, .reg Reg.GLB_DIRSTAT, .reg Reg.ORD_FWD, .reg Reg.ORD_LINEHOLD, .reg Reg.MIR_RBCUR, .reg Reg.ECC_SEALFAIL, .reg Reg.ECC_FIRSTFAIL, .reg Reg.LOG_RINGSTAT, .reg Reg.LOG_CAPTURED, .reg Reg.LOG_COALESCED, .reg Reg.LOG_LOST, .reg Reg.LOG_ORPHANS, .reg Reg.LOG_SQUALLS]

theorem State.answerCursor_keeps (s0 : State) (m : RebuildMsg) :
    Keeps State.answerCursor_parts s0 (State.answerCursor s0 m) := by
  unfold State.answerCursor
  extract_lets -lift -merge -useContext -underBinder +onlyGivenNames x0
  try clear_value x0
  extract_lets -lift -merge -useContext -underBinder +onlyGivenNames x1
  try clear_value x1
  extract_lets -lift -merge -useContext -underBinder +onlyGivenNames x2 x3
  have h3 : Keeps State.answerCursor_parts s0 x3 := by
    unfold x3
    refine Keeps.via (Keeps.upd_mir _ _) rfl ?_
    exact Keeps.refl _ _
  extract_lets -lift -merge -useContext -underBinder +onlyGivenNames x4
  have h4 : Keeps State.answerCursor_parts s0 x4 := by
    unfold x4
    refine Keeps.ite ?_ ?_
    · exact h3
    · refine Keeps.via (State.setReg_keeps _ _ _) rfl ?_
      refine Keeps.via (State.unmark_keeps _ _) rfl ?_
      exact h3
  refine Keeps.via (State.answerCtl_keeps _ _ _) rfl ?_
  exact h4

def State.closeCursors_parts : List Part := [.log, .sb, .links, .twin, .ord, .mir, .sch, .reg Reg.GLB_EVENT, .reg Reg.GLB_DIRSTAT, .reg Reg.ORD_FWD, .reg Reg.ORD_LINEHOLD, .reg Reg.MIR_RBCUR, .reg Reg.ECC_SEALFAIL, .reg Reg.ECC_FIRSTFAIL, .reg Reg.LOG_RINGSTAT, .reg Reg.LOG_CAPTURED, .reg Reg.LOG_COALESCED, .reg Reg.LOG_LOST, .reg Reg.LOG_ORPHANS, .reg Reg.LOG_SQUALLS]

theorem State.closeCursors_keeps (s0 : State) :
    Keeps State.closeCursors_parts s0 (State.closeCursors s0) := by
  unfold State.closeCursors
  extract_lets -lift -merge -useContext -underBinder +onlyGivenNames x0
  try clear_value x0
  extract_lets -lift -merge -useContext -underBinder +onlyGivenNames x1
  try clear_value x1
  extract_lets -lift -merge -useContext -underBinder +onlyGivenNames x2 x3
  have h3 : Keeps State.closeCursors_parts s0 x3 := by
    unfold x3
    refine Keeps.via (Keeps.upd_mir _ _) rfl ?_
    exact Keeps.refl _ _
  refine Keeps.foldl _ _ ?_ (fun t4 y4 h4 => ?_)
  · exact h3
  · refine Keeps.via (State.answerCursor_keeps _ _) rfl ?_
    exact h4

def State.finishReq_parts : List Part := [.log, .sb, .links, .twin, .ord, .mir, .sch, .reg Reg.GLB_EVENT, .reg Reg.GLB_DIRSTAT, .reg Reg.ORD_FWD, .reg Reg.ORD_LINEHOLD, .reg Reg.MIR_RBCUR, .reg Reg.ECC_SEALFAIL, .reg Reg.ECC_FIRSTFAIL, .reg Reg.LOG_RINGSTAT, .reg Reg.LOG_CAPTURED, .reg Reg.LOG_COALESCED, .reg Reg.LOG_LOST, .reg Reg.LOG_ORPHANS, .reg Reg.LOG_SQUALLS]

theorem State.finishReq_keeps (s0 : State) (p : Port) (n : ℕ) :
    Keeps State.finishReq_parts s0 (State.finishReq s0 p n) := by
  unfold State.finishReq
  extract_lets -lift -merge -useContext -underBinder +onlyGivenNames x0
  have h0 : Keeps State.finishReq_parts s0 x0 := by
    unfold x0
    refine Keeps.via (State.onLink_keeps _ _ _) rfl ?_
    exact Keeps.refl _ _
  refine Keeps.ite ?_ ?_
  · refine Keeps.via (State.closeCursors_keeps _) rfl ?_
    exact h0
  · exact h0

def State.writeRecord_parts : List Part := [.log, .sb, .links, .twin, .ord, .mir, .sch, .reg Reg.GLB_EVENT, .reg Reg.GLB_DIRSTAT, .reg Reg.ORD_FWD, .reg Reg.ORD_LINEHOLD, .reg Reg.ECC_SEALFAIL, .reg Reg.ECC_FIRSTFAIL, .reg Reg.LOG_RINGSTAT, .reg Reg.LOG_CAPTURED, .reg Reg.LOG_COALESCED, .reg Reg.LOG_LOST, .reg Reg.LOG_ORPHANS, .reg Reg.LOG_SQUALLS]

theorem State.writeRecord_keeps (s0 : State) (ps : PairState) :
    Keeps State.writeRecord_parts s0 (State.writeRecord s0 ps) := by
  unfold State.writeRecord
  refine Keeps.ite ?_ ?_
  · exact Keeps.refl _ _
  · extract_lets -lift -merge -useContext -underBinder +onlyGivenNames x0 x1
    have h1 : Keeps State.writeRecord_parts s0 x1 := by
      unfold x1
      refine Keeps.via (Keeps.upd_mir _ _) rfl ?_
      exact Keeps.refl _ _
    extract_lets -lift -merge -useContext -underBinder +onlyGivenNames x2
    try clear_value x2
    refine Keeps.via (State.reserveWrite_keeps _ _ _) rfl ?_
    refine Keeps.via (Keeps.upd_mir _ _) rfl ?_
    exact h1

def State.setPair_parts : List Part := [.log, .sb, .links, .twin, .ord, .mir, .sch, .reg Reg.GLB_EVENT, .reg Reg.GLB_DIRSTAT, .reg Reg.ORD_FWD, .reg Reg.ORD_LINEHOLD, .reg Reg.ECC_SEALFAIL, .reg Reg.ECC_FIRSTFAIL, .reg Reg.LOG_RINGSTAT, .reg Reg.LOG_CAPTURED, .reg Reg.LOG_COALESCED, .reg Reg.LOG_LOST, .reg Reg.LOG_ORPHANS, .reg Reg.LOG_SQUALLS]

theorem State.setPair_keeps (s0 : State) (ps : PairState) :
    Keeps State.setPair_parts s0 (State.setPair s0 ps) := by
  unfold State.setPair
  extract_lets -lift -merge -useContext -underBinder +onlyGivenNames x0 x1
  have h1 : Keeps State.setPair_parts s0 x1 := by
    unfold x1
    refine Keeps.via (Keeps.upd_mir _ _) rfl ?_
    exact Keeps.refl _ _
  extract_lets -lift -merge -useContext -underBinder +onlyGivenNames x2
  have h2 : Keeps State.setPair_parts s0 x2 := by
    unfold x2
    refine Keeps.via (State.setFld_keeps _ _ _) rfl ?_
    exact h1
  extract_lets -lift -merge -useContext -underBinder +onlyGivenNames x3
  have h3 : Keeps State.setPair_parts s0 x3 := by
    unfold x3
    refine Keeps.foldl _ _ ?_ (fun t4 y4 h4 => ?_)
    · exact h2
    · refine Keeps.ite ?_ ?_
      · refine Keeps.via (State.onLink_keeps _ _ _) rfl ?_
        exact h4
      · exact h4
  refine Keeps.via (State.heartbeat_keeps _) rfl ?_
  refine Keeps.via (State.writeRecord_keeps _ _) rfl ?_
  exact h3

def State.countHandover_parts : List Part := [.mir, .reg Reg.MIR_HOSTAT, .reg Reg.MIR_HOCNT]

theorem State.countHandover_keeps (s0 : State) (region : ℕ) (result : ℕ) :
    Keeps State.countHandover_parts s0 (State.countHandover s0 region result) := by
  unfold State.countHandover
  extract_lets -lift -merge -useContext -underBinder +onlyGivenNames x0 x1
  have h1 : Keeps State.countHandover_parts s0 x1 := by
    unfold x1
    refine Keeps.via (Keeps.upd_mir _ _) rfl ?_
    exact Keeps.refl _ _
  extract_lets -lift -merge -useContext -underBinder +onlyGivenNames x2
  have h2 : Keeps State.countHandover_parts s0 x2 := by
    unfold x2
    refine Keeps.via (State.setFld_keeps _ _ _) rfl ?_
    refine Keeps.via (State.setFld_keeps _ _ _) rfl ?_
    exact h1
  refine Keeps.ite ?_ ?_
  · refine Keeps.via (State.bumpF_keeps _ _ _) rfl ?_
    exact h2
  · refine Keeps.via (State.bumpF_keeps _ _ _) rfl ?_
    exact h2

def State.endHandover_parts : List Part := [.log, .sb, .mir, .reg Reg.GLB_EVENT, .reg Reg.GLB_DIRSTAT, .reg Reg.MIR_HOSTAT, .reg Reg.MIR_HOCNT, .reg Reg.LOG_RINGSTAT, .reg Reg.LOG_CAPTURED, .reg Reg.LOG_COALESCED, .reg Reg.LOG_LOST, .reg Reg.LOG_ORPHANS, .reg Reg.LOG_SQUALLS]

theorem State.endHandover_keeps (s0 : State) (region : ℕ) (result : ℕ) (code : BitVec 16) :
    Keeps State.endHandover_parts s0 (State.endHandover s0 region result code) := by
  unfold State.endHandover
  refine Keeps.via (State.event_keeps _ _ _) rfl ?_
  refine Keeps.via (State.countHandover_keeps _ _ _) rfl ?_
  exact Keeps.refl _ _

def State.abandonHandover_parts : List Part := [.log, .sb, .map, .mir, .reg Reg.GLB_EVENT, .reg Reg.GLB_DIRSTAT, .reg Reg.MIR_HOSTAT, .reg Reg.MIR_HOCNT, .reg Reg.LOG_RINGSTAT, .reg Reg.LOG_CAPTURED, .reg Reg.LOG_COALESCED, .reg Reg.LOG_LOST, .reg Reg.LOG_ORPHANS, .reg Reg.LOG_SQUALLS]

theorem State.abandonHandover_keeps (s0 : State) (h : Handover) :
    Keeps State.abandonHandover_parts s0 (State.abandonHandover s0 h) := by
  unfold State.abandonHandover
  extract_lets -lift -merge -useContext -underBinder +onlyGivenNames x0
  try clear_value x0
  refine Keeps.via (State.endHandover_keeps _ _ _ _) rfl ?_
  refine Keeps.via (State.setRt_keeps _ _ _) rfl ?_
  exact Keeps.refl _ _

def State.abandonAll_parts : List Part := [.log, .sb, .map, .mir, .reg Reg.GLB_EVENT, .reg Reg.GLB_DIRSTAT, .reg Reg.MIR_HOSTAT, .reg Reg.MIR_HOCNT, .reg Reg.LOG_RINGSTAT, .reg Reg.LOG_CAPTURED, .reg Reg.LOG_COALESCED, .reg Reg.LOG_LOST, .reg Reg.LOG_ORPHANS, .reg Reg.LOG_SQUALLS]

theorem State.abandonAll_keeps (s0 : State) :
    Keeps State.abandonAll_parts s0 (State.abandonAll s0) := by
  unfold State.abandonAll
  refine Keeps.foldl _ _ ?_ (fun t0 y0 h0 => ?_)
  · exact Keeps.refl _ _
  · refine Keeps.via (State.abandonHandover_keeps _ _) rfl ?_
    exact h0

def State.convertSolo_parts : List Part := [.map]

theorem State.convertSolo_keeps (s0 : State) :
    Keeps State.convertSolo_parts s0 (State.convertSolo s0) := by
  unfold State.convertSolo
  refine Keeps.foldl _ _ ?_ (fun t0 y0 h0 => ?_)
  · exact Keeps.refl _ _
  · refine Keeps.ite ?_ ?_
    · exact h0
    · refine Keeps.via (State.setRt_keeps _ _ _) rfl ?_
      exact h0

def State.closePend_parts : List Part := [.log, .sb, .links, .twin, .ord, .mir, .sch, .reg Reg.GLB_EVENT, .reg Reg.GLB_DIRSTAT, .reg Reg.ORD_FWD, .reg Reg.ORD_LINEHOLD, .reg Reg.ECC_SEALFAIL, .reg Reg.ECC_FIRSTFAIL, .reg Reg.LOG_RINGSTAT, .reg Reg.LOG_CAPTURED, .reg Reg.LOG_COALESCED, .reg Reg.LOG_LOST, .reg Reg.LOG_ORPHANS, .reg Reg.LOG_SQUALLS]

theorem State.closePend_keeps (s0 : State) :
    Keeps State.closePend_parts s0 (State.closePend s0) := by
  unfold State.closePend
  extract_lets -lift -merge -useContext -underBinder +onlyGivenNames x0
  try clear_value x0
  extract_lets -lift -merge -useContext -underBinder +onlyGivenNames x1 x2
  have h2 : Keeps State.closePend_parts s0 x2 := by
    unfold x2
    refine Keeps.via (Keeps.upd_mir _ _) rfl ?_
    exact Keeps.refl _ _
  refine Keeps.foldl _ _ ?_ (fun t3 y3 h3 => ?_)
  · exact h2
  · extract_lets -lift -merge -useContext -underBinder +onlyGivenNames x4
    have h4 : Keeps State.closePend_parts s0 x4 := by
      unfold x4
      refine Keeps.via (State.mark_keeps _ _) rfl ?_
      exact h3
    split
    · refine Keeps.via (State.owe_keeps _ _ _) rfl ?_
      exact h4
    · exact h4

def State.dropBacklog_parts : List Part := [.log, .sb, .links, .twin, .ord, .mir, .sch, .reg Reg.GLB_EVENT, .reg Reg.GLB_DIRSTAT, .reg Reg.ORD_FWD, .reg Reg.ORD_LINEHOLD, .reg Reg.MIR_PENDOCC, .reg Reg.ECC_SEALFAIL, .reg Reg.ECC_FIRSTFAIL, .reg Reg.LOG_RINGSTAT, .reg Reg.LOG_CAPTURED, .reg Reg.LOG_COALESCED, .reg Reg.LOG_LOST, .reg Reg.LOG_ORPHANS, .reg Reg.LOG_SQUALLS]

theorem State.dropBacklog_keeps (s0 : State) (unresolved : Bool) :
    Keeps State.dropBacklog_parts s0 (State.dropBacklog s0 unresolved) := by
  unfold State.dropBacklog
  extract_lets -lift -merge -useContext -underBinder +onlyGivenNames x0
  try clear_value x0
  extract_lets -lift -merge -useContext -underBinder +onlyGivenNames x1 x2
  have h2 : Keeps State.dropBacklog_parts s0 x2 := by
    unfold x2
    refine Keeps.via (Keeps.upd_ord _ _) rfl ?_
    exact Keeps.refl _ _
  refine Keeps.foldl _ _ ?_ (fun t3 y3 h3 => ?_)
  · exact h2
  · split
    · extract_lets -lift -merge -useContext -underBinder +onlyGivenNames x4
      have h4 : Keeps State.dropBacklog_parts s0 x4 := by
        unfold x4
        refine Keeps.via (State.mark_keeps _ _) rfl ?_
        exact h3
      extract_lets -lift -merge -useContext -underBinder +onlyGivenNames x5
      try clear_value x5
      extract_lets -lift -merge -useContext -underBinder +onlyGivenNames x6
      try clear_value x6
      extract_lets -lift -merge -useContext -underBinder +onlyGivenNames x7 x8 x9
      have h9 : Keeps State.dropBacklog_parts s0 x9 := by
        unfold x9
        refine Keeps.ite ?_ ?_
        · refine Keeps.via (Keeps.upd_mir _ _) rfl ?_
          exact h4
        · split
          · refine Keeps.via (State.owe_keeps _ _ _) rfl ?_
            exact h4
          · exact h4
      extract_lets -lift -merge -useContext -underBinder +onlyGivenNames x10
      have h10 : Keeps State.dropBacklog_parts s0 x10 := by
        unfold x10
        refine Keeps.via (State.noteHigh_keeps _ _ _) rfl ?_
        exact h9
      refine Keeps.via (State.toSchedule_keeps _ _) rfl ?_
      refine Keeps.via (State.onEntry_keeps _ _ _) rfl ?_
      exact h10
    · exact h3

def State.clearCause_parts : List Part := [.reg Reg.MIR_CAUSE]

theorem State.clearCause_keeps (s0 : State) :
    Keeps State.clearCause_parts s0 (State.clearCause s0) := by
  unfold State.clearCause
  refine Keeps.ite ?_ ?_
  · refine Keeps.via (State.setFld_keeps _ _ _) rfl ?_
    refine Keeps.via (State.setFld_keeps _ _ _) rfl ?_
    exact Keeps.refl _ _
  · exact Keeps.refl _ _

def State.endSession_parts : List Part := [.mir]

theorem State.endSession_keeps (s0 : State) :
    Keeps State.endSession_parts s0 (State.endSession s0) := by
  unfold State.endSession
  refine Keeps.via (Keeps.upd_mir _ _) rfl ?_
  exact Keeps.refl _ _

def State.enterSolo_parts : List Part := [.log, .sb, .links, .twin, .ord, .map, .mir, .sch, .reg Reg.GLB_EVENT, .reg Reg.GLB_DIRSTAT, .reg Reg.ORD_FWD, .reg Reg.ORD_LINEHOLD, .reg Reg.ORD_FLUSHES, .reg Reg.MIR_CAUSE, .reg Reg.MIR_PENDOCC, .reg Reg.MIR_HOSTAT, .reg Reg.MIR_HOCNT, .reg Reg.ECC_SEALFAIL, .reg Reg.ECC_FIRSTFAIL, .reg Reg.LOG_RINGSTAT, .reg Reg.LOG_CAPTURED, .reg Reg.LOG_COALESCED, .reg Reg.LOG_LOST, .reg Reg.LOG_ORPHANS, .reg Reg.LOG_SQUALLS]

theorem State.enterSolo_keeps (s0 : State) :
    Keeps State.enterSolo_parts s0 (State.enterSolo s0) := by
  unfold State.enterSolo
  extract_lets -lift -merge -useContext -underBinder +onlyGivenNames x0
  have h0 : Keeps State.enterSolo_parts s0 x0 := by
    unfold x0
    refine Keeps.via (State.abandonAll_keeps _) rfl ?_
    exact Keeps.refl _ _
  extract_lets -lift -merge -useContext -underBinder +onlyGivenNames x1 x2
  have h2 : Keeps State.enterSolo_parts s0 x2 := by
    unfold x2
    refine Keeps.via (Keeps.upd_mir _ _) rfl ?_
    exact h0
  extract_lets -lift -merge -useContext -underBinder +onlyGivenNames x3
  have h3 : Keeps State.enterSolo_parts s0 x3 := by
    unfold x3
    refine Keeps.via (State.setPair_keeps _ _) rfl ?_
    exact h2
  extract_lets -lift -merge -useContext -underBinder +onlyGivenNames x4
  have h4 : Keeps State.enterSolo_parts s0 x4 := by
    unfold x4
    refine Keeps.via (State.clearCause_keeps _) rfl ?_
    refine Keeps.via (State.dropBacklog_keeps _ _) rfl ?_
    refine Keeps.via (State.closePend_keeps _) rfl ?_
    exact h3
  refine Keeps.via (State.settle_keeps _) rfl ?_
  exact h4

def State.dropDrains_parts : List Part := [.log, .sb, .map, .mir, .reg Reg.GLB_EVENT, .reg Reg.GLB_DIRSTAT, .reg Reg.MIR_HOSTAT, .reg Reg.MIR_HOCNT, .reg Reg.LOG_RINGSTAT, .reg Reg.LOG_CAPTURED, .reg Reg.LOG_COALESCED, .reg Reg.LOG_LOST, .reg Reg.LOG_ORPHANS, .reg Reg.LOG_SQUALLS]

theorem State.dropDrains_keeps (s0 : State) :
    Keeps State.dropDrains_parts s0 (State.dropDrains s0) := by
  unfold State.dropDrains
  refine Keeps.foldl _ _ ?_ (fun t0 y0 h0 => ?_)
  · exact Keeps.refl _ _
  · refine Keeps.via (State.abandonHandover_keeps _ _) rfl ?_
    exact h0

def State.raiseCause_parts : List Part := [.log, .sb, .links, .twin, .ord, .map, .mir, .sch, .reg Reg.GLB_EVENT, .reg Reg.GLB_DIRSTAT, .reg Reg.ORD_FWD, .reg Reg.ORD_LINEHOLD, .reg Reg.ORD_FLUSHES, .reg Reg.MIR_CAUSE, .reg Reg.MIR_PENDOCC, .reg Reg.MIR_HOSTAT, .reg Reg.MIR_HOCNT, .reg Reg.ECC_SEALFAIL, .reg Reg.ECC_FIRSTFAIL, .reg Reg.LOG_RINGSTAT, .reg Reg.LOG_CAPTURED, .reg Reg.LOG_COALESCED, .reg Reg.LOG_LOST, .reg Reg.LOG_ORPHANS, .reg Reg.LOG_SQUALLS]

theorem State.raiseCause_keeps (s0 : State) (code : ℕ) :
    Keeps State.raiseCause_parts s0 (State.raiseCause s0 code) := by
  unfold State.raiseCause
  split
  · refine Keeps.ite ?_ ?_
    · exact Keeps.refl _ _
    · extract_lets -lift -merge -useContext -underBinder +onlyGivenNames x0
      have h0 : Keeps State.raiseCause_parts s0 x0 := by
        unfold x0
        refine Keeps.via (State.dropDrains_keeps _) rfl ?_
        exact Keeps.refl _ _
      refine Keeps.ite ?_ ?_
      · refine Keeps.via (State.bumpF_keeps _ _ _) rfl ?_
        exact h0
      · extract_lets -lift -merge -useContext -underBinder +onlyGivenNames x1
        have h1 : Keeps State.raiseCause_parts s0 x1 := by
          unfold x1
          refine Keeps.via (State.event_keeps _ _ _) rfl ?_
          refine Keeps.via (State.setFld_keeps _ _ _) rfl ?_
          exact h0
        split
        · refine Keeps.via (State.enterSolo_keeps _) rfl ?_
          refine Keeps.via (State.convertSolo_keeps _) rfl ?_
          refine Keeps.via (State.endSession_keeps _) rfl ?_
          refine Keeps.via (State.abandonAll_keeps _) rfl ?_
          refine Keeps.via (State.event_keeps _ _ _) rfl ?_
          exact h1
        · refine Keeps.via (State.endSession_keeps _) rfl ?_
          refine Keeps.via (State.event_keeps _ _ _) rfl ?_
          exact h1
        · exact h1
  · refine Keeps.ite ?_ ?_
    · exact Keeps.refl _ _
    · extract_lets -lift -merge -useContext -underBinder +onlyGivenNames x2
      have h2 : Keeps State.raiseCause_parts s0 x2 := by
        unfold x2
        refine Keeps.via (State.dropDrains_keeps _) rfl ?_
        exact Keeps.refl _ _
      refine Keeps.ite ?_ ?_
      · refine Keeps.via (State.bumpF_keeps _ _ _) rfl ?_
        exact h2
      · extract_lets -lift -merge -useContext -underBinder +onlyGivenNames x3
        have h3 : Keeps State.raiseCause_parts s0 x3 := by
          unfold x3
          refine Keeps.via (State.event_keeps _ _ _) rfl ?_
          refine Keeps.via (State.setFld_keeps _ _ _) rfl ?_
          exact h2
        split
        · refine Keeps.via (State.enterSolo_keeps _) rfl ?_
          refine Keeps.via (State.convertSolo_keeps _) rfl ?_
          refine Keeps.via (State.endSession_keeps _) rfl ?_
          refine Keeps.via (State.abandonAll_keeps _) rfl ?_
          refine Keeps.via (State.event_keeps _ _ _) rfl ?_
          exact h3
        · refine Keeps.via (State.endSession_keeps _) rfl ?_
          refine Keeps.via (State.event_keeps _ _ _) rfl ?_
          exact h3
        · exact h3
  · refine Keeps.ite ?_ ?_
    · exact Keeps.refl _ _
    · extract_lets -lift -merge -useContext -underBinder +onlyGivenNames x4
      have h4 : Keeps State.raiseCause_parts s0 x4 := by
        unfold x4
        refine Keeps.via (State.dropDrains_keeps _) rfl ?_
        exact Keeps.refl _ _
      refine Keeps.ite ?_ ?_
      · refine Keeps.via (State.bumpF_keeps _ _ _) rfl ?_
        exact h4
      · extract_lets -lift -merge -useContext -underBinder +onlyGivenNames x5
        have h5 : Keeps State.raiseCause_parts s0 x5 := by
          unfold x5
          refine Keeps.via (State.event_keeps _ _ _) rfl ?_
          refine Keeps.via (State.setFld_keeps _ _ _) rfl ?_
          exact h4
        split
        · refine Keeps.via (State.enterSolo_keeps _) rfl ?_
          refine Keeps.via (State.convertSolo_keeps _) rfl ?_
          refine Keeps.via (State.endSession_keeps _) rfl ?_
          refine Keeps.via (State.abandonAll_keeps _) rfl ?_
          refine Keeps.via (State.event_keeps _ _ _) rfl ?_
          exact h5
        · refine Keeps.via (State.endSession_keeps _) rfl ?_
          refine Keeps.via (State.event_keeps _ _ _) rfl ?_
          exact h5
        · exact h5
  · exact Keeps.refl _ _

def State.pumpLine_parts : List Part := [.links, .twin, .mir, .reg Reg.MIR_RBLINES]

theorem State.pumpLine_keeps (s0 : State) :
    KeepsOpt State.pumpLine_parts s0 (State.pumpLine s0) := by
  unfold State.pumpLine
  split
  · exact KeepsOpt.none
  · refine KeepsOpt.ite ?_ ?_
    · extract_lets -lift -merge -useContext -underBinder +onlyGivenNames x0
      have h0 : Keeps State.pumpLine_parts s0 x0 := by
        unfold x0
        refine Keeps.via (State.beatFirst_keeps _) rfl ?_
        exact Keeps.refl _ _
      extract_lets -lift -merge -useContext -underBinder +onlyGivenNames x1
      try clear_value x1
      extract_lets -lift -merge -useContext -underBinder +onlyGivenNames x2
      try clear_value x2
      extract_lets -lift -merge -useContext -underBinder +onlyGivenNames x3 x4
      have h4 : Keeps State.pumpLine_parts s0 x4 := by
        unfold x4
        refine Keeps.via (State.noteTaken_keeps _ _) rfl ?_
        refine Keeps.via (Keeps.upd_mir _ _) rfl ?_
        exact h0
      extract_lets -lift -merge -useContext -underBinder +onlyGivenNames x5
      have h5 : Keeps State.pumpLine_parts s0 x5 := by
        unfold x5
        refine Keeps.via (State.onLink_keeps _ _ _) rfl ?_
        refine Keeps.via (State.bump_keeps _ _ _) rfl ?_
        exact h4
      refine KeepsOpt.some ?_
      refine Keeps.ite ?_ ?_
      · refine Keeps.via (State.sendCtl_keeps _ _ _ _ _) rfl ?_
        exact h5
      · exact h5
    · exact KeepsOpt.none

def State.pumpLines_parts : List Part := [.links, .twin, .mir, .reg Reg.MIR_RBLINES]

theorem State.pumpLines_keeps (a0 : ℕ) (s0 : State) :
    Keeps State.pumpLines_parts s0 (State.pumpLines a0 s0) := by
  induction a0 generalizing s0 with
  | zero =>
    rw [State.pumpLines.eq_1]
    exact Keeps.refl _ _
  | succ _ ih =>
    rw [State.pumpLines.eq_2]
    split
    · refine Keeps.trans ?_ (ih _)
      refine Keeps.ofSome (by assumption) ?_
      refine KeepsOpt.via (State.pumpLine_keeps _) rfl ?_
      exact Keeps.refl _ _
    · exact Keeps.refl _ _

def State.sendPace_parts : List Part := [.log, .sb, .links, .mir, .reg Reg.GLB_EVENT, .reg Reg.GLB_DIRSTAT, .reg Reg.LOG_RINGSTAT, .reg Reg.LOG_CAPTURED, .reg Reg.LOG_COALESCED, .reg Reg.LOG_LOST, .reg Reg.LOG_ORPHANS, .reg Reg.LOG_SQUALLS]

theorem State.sendPace_keeps (s0 : State) (n : ℕ) (low : Bool) :
    Keeps State.sendPace_parts s0 (State.sendPace s0 n low) := by
  unfold State.sendPace
  extract_lets -lift -merge -useContext -underBinder +onlyGivenNames x0
  try clear_value x0
  extract_lets -lift -merge -useContext -underBinder +onlyGivenNames x1 x2
  have h2 : Keeps State.sendPace_parts s0 x2 := by
    unfold x2
    refine Keeps.via (State.sendCtl_keeps _ _ _ _ _) rfl ?_
    refine Keeps.via (Keeps.upd_mir _ _) rfl ?_
    exact Keeps.refl _ _
  refine Keeps.ite ?_ ?_
  · exact h2
  · refine Keeps.via (State.event_keeps _ _ _) rfl ?_
    exact h2

def State.watchPace_parts : List Part := [.log, .sb, .links, .mir, .reg Reg.GLB_EVENT, .reg Reg.GLB_DIRSTAT, .reg Reg.LOG_RINGSTAT, .reg Reg.LOG_CAPTURED, .reg Reg.LOG_COALESCED, .reg Reg.LOG_LOST, .reg Reg.LOG_ORPHANS, .reg Reg.LOG_SQUALLS]

theorem State.watchPace_keeps (s0 : State) :
    Keeps State.watchPace_parts s0 (State.watchPace s0) := by
  unfold State.watchPace
  refine Keeps.ite ?_ ?_
  · refine Keeps.ite ?_ ?_
    · refine Keeps.ite ?_ ?_
      · exact Keeps.refl _ _
      · refine Keeps.via (State.sendPace_keeps _ _ _) rfl ?_
        exact Keeps.refl _ _
    · extract_lets -lift -merge -useContext -underBinder +onlyGivenNames x0 x1
      have h1 : Keeps State.watchPace_parts s0 x1 := by
        unfold x1
        refine Keeps.via (Keeps.upd_mir _ _) rfl ?_
        exact Keeps.refl _ _
      refine Keeps.ite ?_ ?_
      · refine Keeps.via (State.sendPace_keeps _ _ _) rfl ?_
        exact h1
      · exact h1
  · exact Keeps.refl _ _

end Sys2Proof.Machine
end

