-- ==== Sys2Proof/Laws/KeepsDram.lean ====
section
/-!
SUPPORT. The frames of the operations of Machine/Dram.lean: the parts of the state each may change, and that each keeps the canonical
form. A proof of a frame cites these and unfolds nothing.
-/

namespace Sys2Proof.Machine

def State.countDecode_parts : List Part := [.log, .sb, .reg Reg.GLB_EVENT, .reg Reg.GLB_DIRSTAT, .block 0x8, .reg Reg.LOG_RINGSTAT, .reg Reg.LOG_CAPTURED, .reg Reg.LOG_COALESCED, .reg Reg.LOG_LOST, .reg Reg.LOG_ORPHANS, .reg Reg.LOG_SQUALLS]

theorem State.countDecode_keeps (s0 : State) (n : ℕ) (l : Loc) (d : Decoded) :
    Keeps State.countDecode_parts s0 (State.countDecode s0 n l d) := by
  unfold State.countDecode
  extract_lets -lift -merge -useContext -underBinder +onlyGivenNames x0
  try clear_value x0
  split
  · exact Keeps.refl _ _
  · refine Keeps.ite ?_ ?_
    · refine Keeps.viaBlock (b := 8) (State.bumpF_keeps _ _ _) (fam_block _ _ _ _ rfl (by decide)) rfl ?_
      exact Keeps.refl _ _
    · refine Keeps.viaBlock (b := 8) (State.bumpF_keeps _ _ _) (fam_block _ _ _ _ rfl (by decide)) rfl ?_
      exact Keeps.refl _ _
  · refine Keeps.via (State.bumpF_keeps _ _ _) rfl ?_
    exact Keeps.refl _ _
  · refine Keeps.via (State.bumpF_keeps _ _ _) rfl ?_
    exact Keeps.refl _ _
  · refine Keeps.via (State.event_keeps _ _ _) rfl ?_
    refine Keeps.viaBlock (b := 8) (State.bumpF_keeps _ _ _) (fam_block _ _ _ _ rfl (by decide)) rfl ?_
    refine Keeps.via (State.bump_keeps _ _ _) rfl ?_
    exact Keeps.refl _ _
  · refine Keeps.viaBlock (b := 8) (State.bumpF_keeps _ _ _) (fam_block _ _ _ _ rfl (by decide)) rfl ?_
    exact Keeps.refl _ _

def State.fetchCopy_parts : List Part := [.log, .sb, .reg Reg.GLB_EVENT, .reg Reg.GLB_DIRSTAT, .reg Reg.ORD_FWD, .block 0x8, .reg Reg.LOG_RINGSTAT, .reg Reg.LOG_CAPTURED, .reg Reg.LOG_COALESCED, .reg Reg.LOG_LOST, .reg Reg.LOG_ORPHANS, .reg Reg.LOG_SQUALLS]

theorem State.fetchCopy_keeps (s0 : State) (a : ℕ) :
    Keeps State.fetchCopy_parts s0 (State.fetchCopy s0 a).1 := by
  unfold State.fetchCopy
  split
  · dsimp -zeta only
    refine Keeps.via (State.bump_keeps _ _ _) rfl ?_
    exact Keeps.refl _ _
  · split
    · dsimp -zeta only
      refine Keeps.via (State.bump_keeps _ _ _) rfl ?_
      refine Keeps.via (State.checkSeal_keeps _ _ _) rfl ?_
      exact Keeps.refl _ _
    · extract_lets -lift -merge -useContext -underBinder +onlyGivenNames x0
      try clear_value x0
      extract_lets -lift -merge -useContext -underBinder +onlyGivenNames x1
      try clear_value x1
      refine Keeps.iteL ?_ ?_
      · dsimp -zeta only
        exact Keeps.refl _ _
      · extract_lets -lift -merge -useContext -underBinder +onlyGivenNames x2
        try clear_value x2
        dsimp -zeta only
        refine Keeps.via (State.countDecode_keeps _ _ _ _) rfl ?_
        exact Keeps.refl _ _

def State.fetchReserve_parts : List Part := [.log, .sb, .links, .twin, .ord, .mir, .sch, .reg Reg.GLB_EVENT, .reg Reg.GLB_DIRSTAT, .reg Reg.ORD_FWD, .reg Reg.ORD_LINEHOLD, .block 0x8, .reg Reg.LOG_RINGSTAT, .reg Reg.LOG_CAPTURED, .reg Reg.LOG_COALESCED, .reg Reg.LOG_LOST, .reg Reg.LOG_ORPHANS, .reg Reg.LOG_SQUALLS]

theorem State.fetchReserve_keeps (s0 : State) (off : ℕ) :
    Keeps State.fetchReserve_parts s0 (State.fetchReserve s0 off).1 := by
  unfold State.fetchReserve
  extract_lets -lift -merge -useContext -underBinder +onlyGivenNames x0
  try clear_value x0
  extract_lets -lift -merge -useContext -underBinder +onlyGivenNames x1
  have h1 : Keeps State.fetchReserve_parts s0 x1.1 := by
    unfold x1
    refine Keeps.via (State.fetchCopy_keeps _ _) rfl ?_
    exact Keeps.refl _ _
  split
  · dsimp -zeta only
    exact h1
  · extract_lets -lift -merge -useContext -underBinder +onlyGivenNames x2
    have h2 : Keeps State.fetchReserve_parts s0 x2.1 := by
      unfold x2
      refine Keeps.via (State.fetchCopy_keeps _ _) rfl ?_
      exact h1
    split
    · dsimp -zeta only
      refine Keeps.ite ?_ ?_
      · refine Keeps.via (State.agentAsk_keeps _ _) rfl ?_
        exact h2
      · exact h2
    · dsimp -zeta only
      exact h2

def State.fetchRun_parts : List Part := [.log, .sb, .links, .twin, .ord, .mir, .sch, .reg Reg.GLB_EVENT, .reg Reg.GLB_DIRSTAT, .reg Reg.ORD_FWD, .reg Reg.ORD_LINEHOLD, .block 0x8, .reg Reg.LOG_RINGSTAT, .reg Reg.LOG_CAPTURED, .reg Reg.LOG_COALESCED, .reg Reg.LOG_LOST, .reg Reg.LOG_ORPHANS, .reg Reg.LOG_SQUALLS]

theorem State.fetchRun_keeps (off : ℕ) (a1 : ℕ) (s0 : State) :
    Keeps State.fetchRun_parts s0 (State.fetchRun off a1 s0).1 := by
  induction a1 generalizing off s0 with
  | zero =>
    rw [State.fetchRun.eq_1]
    dsimp -zeta only
    exact Keeps.refl _ _
  | succ _ ih =>
    rw [State.fetchRun.eq_2]
    dsimp -zeta only
    refine Keeps.trans ?_ (ih _ _)
    refine Keeps.via (State.fetchReserve_keeps _ _) rfl ?_
    exact Keeps.refl _ _

end Sys2Proof.Machine
end

