-- ==== Sys2Proof/Laws/KeepsRetire.lean ====
section
/-!
SUPPORT. The frames of the operations of Machine/Retire.lean: the parts of the state each may change, and that each keeps the canonical
form. A proof of a frame cites these and unfolds nothing.
-/

namespace Sys2Proof.Machine

def State.setRun_parts : List Part := [.cal]

theorem State.setRun_keeps (s0 : State) (p : ℕ) (r : Option CalRun) :
    Keeps State.setRun_parts s0 (State.setRun s0 p r) := by
  unfold State.setRun
  refine Keeps.via (Keeps.upd_cal _ _) rfl ?_
  exact Keeps.refl _ _

def State.makeDue_parts : List Part := [.cal]

theorem State.makeDue_keeps (s0 : State) (n : ℕ) :
    Keeps State.makeDue_parts s0 (State.makeDue s0 n) := by
  unfold State.makeDue
  refine Keeps.ite ?_ ?_
  · refine Keeps.ite ?_ ?_
    · exact Keeps.refl _ _
    · refine Keeps.via (Keeps.upd_cal _ _) rfl ?_
      exact Keeps.refl _ _
  · refine Keeps.via (Keeps.upd_cal _ _) rfl ?_
    exact Keeps.refl _ _

def State.pendToDue_parts : List Part := [.cal]

theorem State.pendToDue_keeps (s0 : State) (n : ℕ) :
    Keeps State.pendToDue_parts s0 (State.pendToDue s0 n) := by
  unfold State.pendToDue
  refine Keeps.ite ?_ ?_
  · refine Keeps.via (State.makeDue_keeps _ _) rfl ?_
    refine Keeps.via (Keeps.upd_cal _ _) rfl ?_
    exact Keeps.refl _ _
  · exact Keeps.refl _ _

def State.dropCal_parts : List Part := [.log, .sb, .cal, .reg Reg.GLB_EVENT, .reg Reg.GLB_DIRSTAT, .reg Reg.LOG_RINGSTAT, .reg Reg.LOG_CAPTURED, .reg Reg.LOG_COALESCED, .reg Reg.LOG_LOST, .reg Reg.LOG_ORPHANS, .reg Reg.LOG_SQUALLS]

theorem State.dropCal_keeps (s0 : State) (p : ℕ) :
    Keeps State.dropCal_parts s0 (State.dropCal s0 p) := by
  unfold State.dropCal
  split
  · extract_lets -lift -merge -useContext -underBinder +onlyGivenNames x0
    have h0 : Keeps State.dropCal_parts s0 x0 := by
      unfold x0
      refine Keeps.ite ?_ ?_
      · refine Keeps.via (State.event_keeps _ _ _) rfl ?_
        refine Keeps.via (State.endDir_keeps _ _) rfl ?_
        exact Keeps.refl _ _
      · exact Keeps.refl _ _
    refine Keeps.via (State.pendToDue_keeps _ _) rfl ?_
    refine Keeps.via (State.setRun_keeps _ _ _) rfl ?_
    exact h0
  · exact Keeps.refl _ _

def State.writeFault_parts : List Part := [.log, .sb, .links, .twin, .ord, .mir, .sch, .flt, .reg Reg.GLB_EVENT, .reg Reg.GLB_DIRSTAT, .reg Reg.ORD_FWD, .reg Reg.ORD_LINEHOLD, .reg Reg.ECC_SEALFAIL, .reg Reg.ECC_FIRSTFAIL, .reg Reg.LOG_RINGSTAT, .reg Reg.LOG_CAPTURED, .reg Reg.LOG_COALESCED, .reg Reg.LOG_LOST, .reg Reg.LOG_ORPHANS, .reg Reg.LOG_SQUALLS]

theorem State.writeFault_keeps (s0 : State) :
    Keeps State.writeFault_parts s0 (State.writeFault s0) := by
  unfold State.writeFault
  refine Keeps.ite ?_ ?_
  · exact Keeps.refl _ _
  · extract_lets -lift -merge -useContext -underBinder +onlyGivenNames x0 x1
    have h1 : Keeps State.writeFault_parts s0 x1 := by
      unfold x1
      refine Keeps.via (Keeps.upd_flt _ _) rfl ?_
      exact Keeps.refl _ _
    refine Keeps.via (State.reserveWrite_keeps _ _ _) rfl ?_
    exact h1

def State.dualWaiting_parts : List Part := [.ord, .sch]

theorem State.dualWaiting_keeps (s0 : State) (p : ℕ) :
    Keeps State.dualWaiting_parts s0 (State.dualWaiting s0 p) := by
  unfold State.dualWaiting
  extract_lets -lift -merge -useContext -underBinder +onlyGivenNames x0
  try clear_value x0
  refine Keeps.foldl _ _ ?_ (fun t1 y1 h1 => ?_)
  · exact Keeps.refl _ _
  · split
    · extract_lets -lift -merge -useContext -underBinder +onlyGivenNames x2
      try clear_value x2
      refine Keeps.via (State.onSub_keeps _ _ _) rfl ?_
      refine Keeps.via (State.onEntry_keeps _ _ _) rfl ?_
      exact h1
    · exact h1

def State.startSpare_parts : List Part := [.log, .sb, .links, .twin, .ord, .mir, .sch, .flt, .reg Reg.GLB_EVENT, .reg Reg.GLB_DIRSTAT, .reg Reg.ORD_FWD, .reg Reg.ORD_LINEHOLD, .reg Reg.ECC_SEALFAIL, .reg Reg.ECC_FIRSTFAIL, .reg Reg.LOG_RINGSTAT, .reg Reg.LOG_CAPTURED, .reg Reg.LOG_COALESCED, .reg Reg.LOG_LOST, .reg Reg.LOG_ORPHANS, .reg Reg.LOG_SQUALLS]

theorem State.startSpare_keeps (s0 : State) (p : ℕ) (cause : BitVec 3) :
    Keeps State.startSpare_parts s0 (State.startSpare s0 p cause) := by
  unfold State.startSpare
  extract_lets -lift -merge -useContext -underBinder +onlyGivenNames x0
  have h0 : Keeps State.startSpare_parts s0 x0 := by
    unfold x0
    refine Keeps.via (State.onRank_keeps _ _ _) rfl ?_
    exact Keeps.refl _ _
  extract_lets -lift -merge -useContext -underBinder +onlyGivenNames x1 x2
  have h2 : Keeps State.startSpare_parts s0 x2 := by
    unfold x2
    refine Keeps.via (Keeps.upd_flt _ _) rfl ?_
    exact h0
  refine Keeps.via (State.event_keeps _ _ _) rfl ?_
  refine Keeps.via (State.writeFault_keeps _) rfl ?_
  refine Keeps.via (State.dualWaiting_keeps _ _) rfl ?_
  exact h2

def State.settleCopy_parts : List Part := [.log, .sb, .links, .twin, .ord, .mir, .sch, .flt, .reg Reg.GLB_EVENT, .reg Reg.GLB_DIRSTAT, .reg Reg.ORD_FWD, .reg Reg.ORD_LINEHOLD, .reg Reg.ECC_SEALFAIL, .reg Reg.ECC_FIRSTFAIL, .reg Reg.LOG_RINGSTAT, .reg Reg.LOG_CAPTURED, .reg Reg.LOG_COALESCED, .reg Reg.LOG_LOST, .reg Reg.LOG_ORPHANS, .reg Reg.LOG_SQUALLS]

theorem State.settleCopy_keeps (s0 : State) (pos : Option ℕ) :
    Keeps State.settleCopy_parts s0 (State.settleCopy s0 pos) := by
  unfold State.settleCopy
  split
  · refine Keeps.ite ?_ ?_
    · extract_lets -lift -merge -useContext -underBinder +onlyGivenNames x0
      try clear_value x0
      extract_lets -lift -merge -useContext -underBinder +onlyGivenNames x1
      try clear_value x1
      extract_lets -lift -merge -useContext -underBinder +onlyGivenNames x2
      try clear_value x2
      extract_lets -lift -merge -useContext -underBinder +onlyGivenNames x3
      try clear_value x3
      extract_lets -lift -merge -useContext -underBinder +onlyGivenNames x4 x5
      have h5 : Keeps State.settleCopy_parts s0 x5 := by
        unfold x5
        refine Keeps.via (Keeps.upd_flt _ _) rfl ?_
        exact Keeps.refl _ _
      refine Keeps.ite ?_ ?_
      · refine Keeps.via (State.writeFault_keeps _) rfl ?_
        exact h5
      · exact h5
    · exact Keeps.refl _ _
  · exact Keeps.refl _ _

def State.freeCorr_parts : List Part := [.log, .sb, .links, .twin, .ord, .mir, .sch, .flt, .reg Reg.GLB_EVENT, .reg Reg.GLB_DIRSTAT, .reg Reg.ORD_FWD, .reg Reg.ORD_LINEHOLD, .reg Reg.ECC_SEALFAIL, .reg Reg.ECC_FIRSTFAIL, .reg Reg.LOG_RINGSTAT, .reg Reg.LOG_CAPTURED, .reg Reg.LOG_COALESCED, .reg Reg.LOG_LOST, .reg Reg.LOG_ORPHANS, .reg Reg.LOG_SQUALLS]

theorem State.freeCorr_keeps (s0 : State) (n : ℕ) (a2 : CorrEntry) :
    Keeps State.freeCorr_parts s0 (State.freeCorr s0 n a2) := by
  unfold State.freeCorr
  refine Keeps.via (State.settleCopy_keeps _ _) rfl ?_
  refine Keeps.via (State.onSub_keeps _ _ _) rfl ?_
  exact Keeps.refl _ _

def State.onRetired_parts : List Part := [.log, .sb, .links, .twin, .ord, .mir, .sch, .reg Reg.GLB_EVENT, .reg Reg.GLB_DIRSTAT, .reg Reg.ORD_FWD, .reg Reg.ORD_LINEHOLD, .reg Reg.ECC_SEALFAIL, .reg Reg.ECC_FIRSTFAIL, .reg Reg.LOG_RINGSTAT, .reg Reg.LOG_CAPTURED, .reg Reg.LOG_COALESCED, .reg Reg.LOG_LOST, .reg Reg.LOG_ORPHANS, .reg Reg.LOG_SQUALLS]

theorem State.onRetired_keeps (s0 : State) (e : StoreEntry) :
    Keeps State.onRetired_parts s0 (State.onRetired s0 e) := by
  unfold State.onRetired
  split
  · split
    · refine Keeps.ite ?_ ?_
      · refine Keeps.via (State.serveAll_keeps _ _ _ _ _) rfl ?_
        exact Keeps.refl _ _
      · refine Keeps.ite ?_ ?_
        · refine Keeps.via (State.onEntry_keeps _ _ _) rfl ?_
          refine Keeps.via (State.mark_keeps _ _) rfl ?_
          exact Keeps.refl _ _
        · extract_lets -lift -merge -useContext -underBinder +onlyGivenNames x0
          have h0 : Keeps State.onRetired_parts s0 x0 := by
            unfold x0
            refine Keeps.ite ?_ ?_
            · refine Keeps.via (State.release_keeps _ _ _) rfl ?_
              refine Keeps.via (State.mergeInto_keeps _ _ _ _) rfl ?_
              exact Keeps.refl _ _
            · exact Keeps.refl _ _
          extract_lets -lift -merge -useContext -underBinder +onlyGivenNames x1
          try clear_value x1
          extract_lets -lift -merge -useContext -underBinder +onlyGivenNames x2
          have h2 : Keeps State.onRetired_parts s0 x2 := by
            unfold x2
            refine Keeps.ite ?_ ?_
            · exact h0
            · refine Keeps.via (State.mark_keeps _ _) rfl ?_
              exact h0
          extract_lets -lift -merge -useContext -underBinder +onlyGivenNames x3
          have h3 : Keeps State.onRetired_parts s0 x3 := by
            unfold x3
            refine Keeps.via (State.tryFree_keeps _ _) rfl ?_
            refine Keeps.via (State.onEntry_keeps _ _ _) rfl ?_
            exact h2
          refine Keeps.via (State.pumpAgents_keeps _ _) rfl ?_
          exact h3
    · exact Keeps.refl _ _
  · exact Keeps.refl _ _

def State.holdCs_parts : List Part := [.sch]

theorem State.holdCs_keeps (s0 : State) (n : ℕ) (k : ℕ) :
    Keeps State.holdCs_parts s0 (State.holdCs s0 n k) := by
  unfold State.holdCs
  refine Keeps.via (State.onSub_keeps _ _ _) rfl ?_
  exact Keeps.refl _ _

def State.freeCs_parts : List Part := [.sch]

theorem State.freeCs_keeps (s0 : State) (n : ℕ) (k : ℕ) :
    Keeps State.freeCs_parts s0 (State.freeCs s0 n k) := by
  unfold State.freeCs
  refine Keeps.via (State.onSub_keeps _ _ _) rfl ?_
  exact Keeps.refl _ _

def State.emptyRank_parts : List Part := [.log, .sb, .links, .twin, .ord, .mir, .sch, .reg Reg.GLB_EVENT, .reg Reg.GLB_DIRSTAT, .reg Reg.ORD_FWD, .reg Reg.ORD_LINEHOLD, .reg Reg.ECC_SEALFAIL, .reg Reg.ECC_FIRSTFAIL, .reg Reg.LOG_RINGSTAT, .reg Reg.LOG_CAPTURED, .reg Reg.LOG_COALESCED, .reg Reg.LOG_LOST, .reg Reg.LOG_ORPHANS, .reg Reg.LOG_SQUALLS]

theorem State.emptyRank_keeps (s0 : State) (n : ℕ) (k : ℕ) :
    Keeps State.emptyRank_parts s0 (State.emptyRank s0 n k) := by
  unfold State.emptyRank
  extract_lets -lift -merge -useContext -underBinder +onlyGivenNames x0
  have h0 : Keeps State.emptyRank_parts s0 x0 := by
    unfold x0
    refine Keeps.via (State.holdCs_keeps _ _ _) rfl ?_
    exact Keeps.refl _ _
  extract_lets -lift -merge -useContext -underBinder +onlyGivenNames x1
  try clear_value x1
  extract_lets -lift -merge -useContext -underBinder +onlyGivenNames x2
  try clear_value x2
  extract_lets -lift -merge -useContext -underBinder +onlyGivenNames x3
  have h3 : Keeps State.emptyRank_parts s0 x3 := by
    unfold x3
    refine Keeps.via (State.setSub_keeps _ _ _) rfl ?_
    exact h0
  refine Keeps.foldl _ _ ?_ (fun t4 y4 h4 => ?_)
  · exact h3
  · refine Keeps.via (State.onRetired_keeps _ _) rfl ?_
    exact h4

def State.setRetired_parts : List Part := [.log, .sb, .links, .twin, .ord, .mir, .sch, .flt, .reg Reg.GLB_EVENT, .reg Reg.GLB_DIRSTAT, .reg Reg.ORD_FWD, .reg Reg.ORD_LINEHOLD, .reg Reg.ECC_SEALFAIL, .reg Reg.ECC_FIRSTFAIL, .reg Reg.LOG_RINGSTAT, .reg Reg.LOG_CAPTURED, .reg Reg.LOG_COALESCED, .reg Reg.LOG_LOST, .reg Reg.LOG_ORPHANS, .reg Reg.LOG_SQUALLS]

theorem State.setRetired_keeps (s0 : State) (p : ℕ) (cause : BitVec 3) (spared : Bool) :
    Keeps State.setRetired_parts s0 (State.setRetired s0 p cause spared) := by
  unfold State.setRetired
  extract_lets -lift -merge -useContext -underBinder +onlyGivenNames x0
  have h0 : Keeps State.setRetired_parts s0 x0 := by
    unfold x0
    refine Keeps.via (State.onRank_keeps _ _ _) rfl ?_
    refine Keeps.via (State.holdCs_keeps _ _ _) rfl ?_
    exact Keeps.refl _ _
  extract_lets -lift -merge -useContext -underBinder +onlyGivenNames x1 x2
  have h2 : Keeps State.setRetired_parts s0 x2 := by
    unfold x2
    refine Keeps.via (Keeps.upd_flt _ _) rfl ?_
    exact h0
  refine Keeps.via (State.event_keeps _ _ _) rfl ?_
  refine Keeps.via (State.writeFault_keeps _) rfl ?_
  exact h2

def State.retireNow_parts : List Part := [.log, .sb, .links, .twin, .ord, .mir, .sch, .flt, .cal, .reg Reg.GLB_EVENT, .reg Reg.GLB_DIRSTAT, .reg Reg.ORD_FWD, .reg Reg.ORD_LINEHOLD, .reg Reg.ECC_SEALFAIL, .reg Reg.ECC_FIRSTFAIL, .reg Reg.LOG_RINGSTAT, .reg Reg.LOG_CAPTURED, .reg Reg.LOG_COALESCED, .reg Reg.LOG_LOST, .reg Reg.LOG_ORPHANS, .reg Reg.LOG_SQUALLS]

theorem State.retireNow_keeps (s0 : State) (p : ℕ) (cause : BitVec 3) :
    Keeps State.retireNow_parts s0 (State.retireNow s0 p cause) := by
  unfold State.retireNow
  extract_lets -lift -merge -useContext -underBinder +onlyGivenNames x0
  have h0 : Keeps State.retireNow_parts s0 x0 := by
    unfold x0
    refine Keeps.via (State.onRank_keeps _ _ _) rfl ?_
    exact Keeps.refl _ _
  extract_lets -lift -merge -useContext -underBinder +onlyGivenNames x1 x2
  have h2 : Keeps State.retireNow_parts s0 x2 := by
    unfold x2
    refine Keeps.via (Keeps.upd_flt _ _) rfl ?_
    exact h0
  refine Keeps.via (State.dropCal_keeps _ _) rfl ?_
  refine Keeps.via (State.emptyRank_keeps _ _ _) rfl ?_
  exact h2

def State.allOffline_parts : List Part := [.map]

theorem State.allOffline_keeps (s0 : State) :
    Keeps State.allOffline_parts s0 (State.allOffline s0) := by
  unfold State.allOffline
  refine Keeps.foldS _ _ ?_ (fun t0 y0 h0 => ?_)
  · exact Keeps.refl _ _
  · extract_lets -lift -merge -useContext -underBinder +onlyGivenNames x1
    try clear_value x1
    refine Keeps.ite ?_ ?_
    · exact h0
    · refine Keeps.via (State.setRt_keeps _ _ _) rfl ?_
      exact h0

def State.wantRank_parts : List Part := [.log, .sb, .links, .twin, .ord, .mir, .sch, .flt, .reg Reg.GLB_EVENT, .reg Reg.GLB_DIRSTAT, .reg Reg.ORD_FWD, .reg Reg.ORD_LINEHOLD, .reg Reg.ECC_SEALFAIL, .reg Reg.ECC_FIRSTFAIL, .reg Reg.LOG_RINGSTAT, .reg Reg.LOG_CAPTURED, .reg Reg.LOG_COALESCED, .reg Reg.LOG_LOST, .reg Reg.LOG_ORPHANS, .reg Reg.LOG_SQUALLS]

theorem State.wantRank_keeps (s0 : State) (p : ℕ) (cause : BitVec 3) :
    Keeps State.wantRank_parts s0 (State.wantRank s0 p cause) := by
  unfold State.wantRank
  refine Keeps.ite ?_ ?_
  · exact Keeps.refl _ _
  · extract_lets -lift -merge -useContext -underBinder +onlyGivenNames x0
    have h0 : Keeps State.wantRank_parts s0 x0 := by
      unfold x0
      refine Keeps.via (State.writeFault_keeps _) rfl ?_
      refine Keeps.via (State.onRank_keeps _ _ _) rfl ?_
      exact Keeps.refl _ _
    refine Keeps.via (State.event_keeps _ _ _) rfl ?_
    exact h0

def State.abortSpare_parts : List Part := [.log, .sb, .links, .twin, .ord, .mir, .sch, .flt, .reg Reg.GLB_EVENT, .reg Reg.GLB_DIRSTAT, .reg Reg.ORD_FWD, .reg Reg.ORD_LINEHOLD, .reg Reg.ECC_SEALFAIL, .reg Reg.ECC_FIRSTFAIL, .reg Reg.LOG_RINGSTAT, .reg Reg.LOG_CAPTURED, .reg Reg.LOG_COALESCED, .reg Reg.LOG_LOST, .reg Reg.LOG_ORPHANS, .reg Reg.LOG_SQUALLS]

theorem State.abortSpare_keeps (s0 : State) (p : ℕ) :
    Keeps State.abortSpare_parts s0 (State.abortSpare s0 p) := by
  unfold State.abortSpare
  extract_lets -lift -merge -useContext -underBinder +onlyGivenNames x0 x1
  have h1 : Keeps State.abortSpare_parts s0 x1 := by
    unfold x1
    refine Keeps.via (Keeps.upd_flt _ _) rfl ?_
    exact Keeps.refl _ _
  refine Keeps.via (State.event_keeps _ _ _) rfl ?_
  refine Keeps.via (State.writeFault_keeps _) rfl ?_
  exact h1

def State.actSelf_parts : List Part := [.log, .sb, .links, .twin, .ord, .mir, .sch, .flt, .cal, .reg Reg.GLB_EVENT, .reg Reg.GLB_DIRSTAT, .reg Reg.ORD_FWD, .reg Reg.ORD_LINEHOLD, .reg Reg.ECC_SEALFAIL, .reg Reg.ECC_FIRSTFAIL, .reg Reg.LOG_RINGSTAT, .reg Reg.LOG_CAPTURED, .reg Reg.LOG_COALESCED, .reg Reg.LOG_LOST, .reg Reg.LOG_ORPHANS, .reg Reg.LOG_SQUALLS]

theorem State.actSelf_keeps (s0 : State) (q : ℕ) :
    Keeps State.actSelf_parts s0 (State.actSelf s0 q) := by
  unfold State.actSelf
  refine Keeps.ite ?_ ?_
  · refine Keeps.via (State.retireNow_keeps _ _ _) rfl ?_
    exact Keeps.refl _ _
  · refine Keeps.via (State.wantRank_keeps _ _ _) rfl ?_
    exact Keeps.refl _ _

def State.retire_parts : List Part := [.log, .sb, .links, .twin, .ord, .mir, .sch, .flt, .cal, .reg Reg.GLB_EVENT, .reg Reg.GLB_DIRSTAT, .reg Reg.ORD_FWD, .reg Reg.ORD_LINEHOLD, .reg Reg.ECC_SEALFAIL, .reg Reg.ECC_FIRSTFAIL, .reg Reg.LOG_RINGSTAT, .reg Reg.LOG_CAPTURED, .reg Reg.LOG_COALESCED, .reg Reg.LOG_LOST, .reg Reg.LOG_ORPHANS, .reg Reg.LOG_SQUALLS]

theorem State.retire_keeps (s0 : State) (p : ℕ) (cause : BitVec 3) :
    Keeps State.retire_parts s0 (State.retire s0 p cause) := by
  unfold State.retire
  split
  · refine Keeps.via (State.actSelf_keeps _ _) rfl ?_
    refine Keeps.via (State.retireNow_keeps _ _ _) rfl ?_
    refine Keeps.via (State.abortSpare_keeps _ _) rfl ?_
    exact Keeps.refl _ _
  · refine Keeps.via (State.retireNow_keeps _ _ _) rfl ?_
    exact Keeps.refl _ _

def State.actAlone_parts : List Part := [.log, .sb, .links, .twin, .ord, .mir, .sch, .flt, .cal, .reg Reg.GLB_EVENT, .reg Reg.GLB_DIRSTAT, .reg Reg.ORD_FWD, .reg Reg.ORD_LINEHOLD, .reg Reg.ECC_SEALFAIL, .reg Reg.ECC_FIRSTFAIL, .reg Reg.LOG_RINGSTAT, .reg Reg.LOG_CAPTURED, .reg Reg.LOG_COALESCED, .reg Reg.LOG_LOST, .reg Reg.LOG_ORPHANS, .reg Reg.LOG_SQUALLS]

theorem State.actAlone_keeps (s0 : State) (p : ℕ) (cause : BitVec 3) :
    Keeps State.actAlone_parts s0 (State.actAlone s0 p cause) := by
  unfold State.actAlone
  refine Keeps.ite ?_ ?_
  · refine Keeps.via (State.retire_keeps _ _ _) rfl ?_
    exact Keeps.refl _ _
  · refine Keeps.via (State.wantRank_keeps _ _ _) rfl ?_
    exact Keeps.refl _ _

def State.actOn_parts : List Part := [.log, .sb, .links, .twin, .ord, .mir, .sch, .flt, .cal, .reg Reg.GLB_EVENT, .reg Reg.GLB_DIRSTAT, .reg Reg.ORD_FWD, .reg Reg.ORD_LINEHOLD, .reg Reg.ECC_SEALFAIL, .reg Reg.ECC_FIRSTFAIL, .reg Reg.LOG_RINGSTAT, .reg Reg.LOG_CAPTURED, .reg Reg.LOG_COALESCED, .reg Reg.LOG_LOST, .reg Reg.LOG_ORPHANS, .reg Reg.LOG_SQUALLS]

theorem State.actOn_keeps (s0 : State) (p : ℕ) (cause : BitVec 3) :
    Keeps State.actOn_parts s0 (State.actOn s0 p cause) := by
  unfold State.actOn
  refine Keeps.ite ?_ ?_
  · refine Keeps.via (State.startSpare_keeps _ _ _) rfl ?_
    exact Keeps.refl _ _
  · refine Keeps.via (State.actAlone_keeps _ _ _) rfl ?_
    exact Keeps.refl _ _

def State.raiseRank_parts : List Part := [.log, .sb, .links, .twin, .ord, .mir, .sch, .flt, .cal, .reg Reg.GLB_EVENT, .reg Reg.GLB_DIRSTAT, .reg Reg.ORD_FWD, .reg Reg.ORD_LINEHOLD, .reg Reg.ECC_SEALFAIL, .reg Reg.ECC_FIRSTFAIL, .reg Reg.LOG_RINGSTAT, .reg Reg.LOG_CAPTURED, .reg Reg.LOG_COALESCED, .reg Reg.LOG_LOST, .reg Reg.LOG_ORPHANS, .reg Reg.LOG_SQUALLS]

theorem State.raiseRank_keeps (s0 : State) (p : ℕ) (cause : BitVec 3) :
    Keeps State.raiseRank_parts s0 (State.raiseRank s0 p cause) := by
  unfold State.raiseRank
  extract_lets -lift -merge -useContext -underBinder +onlyGivenNames x0
  try clear_value x0
  refine Keeps.ite ?_ ?_
  · refine Keeps.via (State.onRank_keeps _ _ _) rfl ?_
    exact Keeps.refl _ _
  · refine Keeps.ite ?_ ?_
    · exact Keeps.refl _ _
    · split
      · refine Keeps.via (State.actAlone_keeps _ _ _) rfl ?_
        refine Keeps.via (State.actSelf_keeps _ _) rfl ?_
        refine Keeps.via (State.abortSpare_keeps _ _) rfl ?_
        exact Keeps.refl _ _
      · refine Keeps.via (State.actOn_keeps _ _ _) rfl ?_
        exact Keeps.refl _ _

def State.reapply_parts : List Part := [.log, .sb, .links, .twin, .ord, .mir, .sch, .flt, .cal, .reg Reg.GLB_EVENT, .reg Reg.GLB_DIRSTAT, .reg Reg.ORD_FWD, .reg Reg.ORD_LINEHOLD, .reg Reg.ECC_SEALFAIL, .reg Reg.ECC_FIRSTFAIL, .reg Reg.LOG_RINGSTAT, .reg Reg.LOG_CAPTURED, .reg Reg.LOG_COALESCED, .reg Reg.LOG_LOST, .reg Reg.LOG_ORPHANS, .reg Reg.LOG_SQUALLS]

theorem State.reapply_keeps (s0 : State) :
    Keeps State.reapply_parts s0 (State.reapply s0) := by
  unfold State.reapply
  refine Keeps.foldS _ _ ?_ (fun t0 y0 h0 => ?_)
  · exact Keeps.refl _ _
  · refine Keeps.via (State.actOn_keeps _ _ _) rfl ?_
    exact h0

def State.resumeCopy_parts : List Part := [.log, .sb, .links, .twin, .ord, .mir, .sch, .flt, .reg Reg.GLB_EVENT, .reg Reg.GLB_DIRSTAT, .reg Reg.ORD_FWD, .reg Reg.ORD_LINEHOLD, .reg Reg.ECC_SEALFAIL, .reg Reg.ECC_FIRSTFAIL, .reg Reg.LOG_RINGSTAT, .reg Reg.LOG_CAPTURED, .reg Reg.LOG_COALESCED, .reg Reg.LOG_LOST, .reg Reg.LOG_ORPHANS, .reg Reg.LOG_SQUALLS]

theorem State.resumeCopy_keeps (s0 : State) :
    Keeps State.resumeCopy_parts s0 (State.resumeCopy s0) := by
  unfold State.resumeCopy
  refine Keeps.ite ?_ ?_
  · refine Keeps.ite ?_ ?_
    · refine Keeps.via (Keeps.upd_flt _ _) rfl ?_
      exact Keeps.refl _ _
    · refine Keeps.via (State.writeFault_keeps _) rfl ?_
      refine Keeps.via (Keeps.upd_flt _ _) rfl ?_
      exact Keeps.refl _ _
  · exact Keeps.refl _ _

def State.endSpare_parts : List Part := [.log, .sb, .links, .twin, .ord, .mir, .sch, .flt, .cal, .reg Reg.GLB_EVENT, .reg Reg.GLB_DIRSTAT, .reg Reg.ORD_FWD, .reg Reg.ORD_LINEHOLD, .reg Reg.ECC_SEALFAIL, .reg Reg.ECC_FIRSTFAIL, .reg Reg.LOG_RINGSTAT, .reg Reg.LOG_CAPTURED, .reg Reg.LOG_COALESCED, .reg Reg.LOG_LOST, .reg Reg.LOG_ORPHANS, .reg Reg.LOG_SQUALLS]

theorem State.endSpare_keeps (s0 : State) :
    Keeps State.endSpare_parts s0 (State.endSpare s0) := by
  unfold State.endSpare
  refine Keeps.ite ?_ ?_
  · extract_lets -lift -merge -useContext -underBinder +onlyGivenNames x0
    try clear_value x0
    extract_lets -lift -merge -useContext -underBinder +onlyGivenNames x1 x2
    have h2 : Keeps State.endSpare_parts s0 x2 := by
      unfold x2
      refine Keeps.via (Keeps.upd_flt _ _) rfl ?_
      exact Keeps.refl _ _
    extract_lets -lift -merge -useContext -underBinder +onlyGivenNames x3
    have h3 : Keeps State.endSpare_parts s0 x3 := by
      unfold x3
      refine Keeps.via (State.dropCal_keeps _ _) rfl ?_
      refine Keeps.via (State.emptyRank_keeps _ _ _) rfl ?_
      exact h2
    refine Keeps.via (State.event_keeps _ _ _) rfl ?_
    refine Keeps.via (State.setRetired_keeps _ _ _ _) rfl ?_
    exact h3
  · exact Keeps.refl _ _

def execRetireConversionDone_parts : List Part := [.log, .sb, .links, .twin, .ord, .map, .mir, .sch, .flt, .reg Reg.GLB_EVENT, .reg Reg.GLB_DIRSTAT, .reg Reg.ORD_FWD, .reg Reg.ORD_LINEHOLD, .reg Reg.ECC_SEALFAIL, .reg Reg.ECC_FIRSTFAIL, .reg Reg.LOG_RINGSTAT, .reg Reg.LOG_CAPTURED, .reg Reg.LOG_COALESCED, .reg Reg.LOG_LOST, .reg Reg.LOG_ORPHANS, .reg Reg.LOG_SQUALLS]

theorem execRetireConversionDone_keeps (rank : Fin 32) (s0 : State) :
    KeepsOut execRetireConversionDone_parts s0 (execRetireConversionDone rank s0) := by
  unfold execRetireConversionDone
  refine KeepsOut.next ?_
  extract_lets -lift -merge -useContext -underBinder +onlyGivenNames x0
  try clear_value x0
  refine Keeps.ite ?_ ?_
  · refine Keeps.via (State.setRetired_keeps _ _ _ _) rfl ?_
    refine Keeps.via (State.allOffline_keeps _) rfl ?_
    exact Keeps.refl _ _
  · exact Keeps.refl _ _

def execSpareCopyDone_parts : List Part := [.log, .sb, .links, .twin, .ord, .mir, .sch, .flt, .cal, .reg Reg.GLB_EVENT, .reg Reg.GLB_DIRSTAT, .reg Reg.ORD_FWD, .reg Reg.ORD_LINEHOLD, .reg Reg.ECC_SEALFAIL, .reg Reg.ECC_FIRSTFAIL, .reg Reg.LOG_RINGSTAT, .reg Reg.LOG_CAPTURED, .reg Reg.LOG_COALESCED, .reg Reg.LOG_LOST, .reg Reg.LOG_ORPHANS, .reg Reg.LOG_SQUALLS]

theorem execSpareCopyDone_keeps (s0 : State) :
    KeepsOut execSpareCopyDone_parts s0 (execSpareCopyDone s0) := by
  unfold execSpareCopyDone
  refine KeepsOut.next ?_
  refine Keeps.ite ?_ ?_
  · refine Keeps.via (State.endSpare_keeps _) rfl ?_
    refine Keeps.via (Keeps.upd_flt _ _) rfl ?_
    exact Keeps.refl _ _
  · exact Keeps.refl _ _

def execBucketLeak_parts : List Part := [.flt]

theorem execBucketLeak_keeps (s0 : State) :
    KeepsOut execBucketLeak_parts s0 (execBucketLeak s0) := by
  unfold execBucketLeak
  refine KeepsOut.next ?_
  refine Keeps.foldS _ _ ?_ (fun t0 y0 h0 => ?_)
  · exact Keeps.refl _ _
  · refine Keeps.via (State.onRank_keeps _ _ _) rfl ?_
    exact h0

def State.clearBuckets_parts : List Part := [.flt]

theorem State.clearBuckets_keeps (s0 : State) :
    Keeps State.clearBuckets_parts s0 (State.clearBuckets s0) := by
  unfold State.clearBuckets
  refine Keeps.foldS _ _ ?_ (fun t0 y0 h0 => ?_)
  · exact Keeps.refl _ _
  · refine Keeps.via (State.onRank_keeps _ _ _) rfl ?_
    exact h0

end Sys2Proof.Machine
end

