-- ==== Sys2Proof/Laws/KeepsTransit.lean ====
section
/-!
SUPPORT. The frames of the operations of Machine/Transit.lean: the parts of the state each may change, and that each keeps the canonical
form. A proof of a frame cites these and unfolds nothing.
-/

namespace Sys2Proof.Machine

def State.dropReturn_parts : List Part := [.links, .ord]

theorem State.dropReturn_keeps (s0 : State) (p : Port) :
    Keeps State.dropReturn_parts s0 (State.dropReturn s0 p) := by
  unfold State.dropReturn
  extract_lets -lift -merge -useContext -underBinder +onlyGivenNames x0
  try clear_value x0
  extract_lets -lift -merge -useContext -underBinder +onlyGivenNames x1 x2
  have h2 : Keeps State.dropReturn_parts s0 x2 := by
    unfold x2
    refine Keeps.via (Keeps.upd_ord _ _) rfl ?_
    exact Keeps.refl _ _
  refine Keeps.foldl _ _ ?_ (fun t3 y3 h3 => ?_)
  · exact h2
  · extract_lets -lift -merge -useContext -underBinder +onlyGivenNames x4 x5
    have h5 : Keeps State.dropReturn_parts s0 x5 := by
      unfold x5
      refine Keeps.ite ?_ ?_
      · refine Keeps.via (Keeps.upd_ord _ _) rfl ?_
        exact h3
      · exact h3
    split
    · refine Keeps.via (State.setEntry_keeps _ _ _) rfl ?_
      exact h5
    · split
      · refine Keeps.ite ?_ ?_
        · refine Keeps.via (State.setEntry_keeps _ _ _) rfl ?_
          exact h5
        · refine Keeps.ite ?_ ?_
          · refine Keeps.via (State.tryFree_keeps _ _) rfl ?_
            refine Keeps.via (State.onEntry_keeps _ _ _) rfl ?_
            exact h5
          · exact h5
      · exact h5
    · exact h5

def State.stopReader_parts : List Part := [.log, .reg Reg.LOG_RINGSTAT, .reg Reg.LOG_CAPTURED, .reg Reg.LOG_LOST]

theorem State.stopReader_keeps (s0 : State) (p : Port) :
    Keeps State.stopReader_parts s0 (State.stopReader s0 p) := by
  unfold State.stopReader
  split
  · extract_lets -lift -merge -useContext -underBinder +onlyGivenNames x0
    have h0 : Keeps State.stopReader_parts s0 x0 := by
      unfold x0
      refine Keeps.ite ?_ ?_
      · exact Keeps.refl _ _
      · unfold State.cutOff
        extract_lets -lift -merge -useContext -underBinder +onlyGivenNames x1
        try clear_value x1
        extract_lets -lift -merge -useContext -underBinder +onlyGivenNames x2
        try clear_value x2
        extract_lets -lift -merge -useContext -underBinder +onlyGivenNames x3
        have h3 : Keeps State.stopReader_parts s0 x3 := by
          unfold x3
          try dsimp -zeta -proj -iota -eta only
          exact Keeps.refl _ _
        refine Keeps.ite ?_ ?_
        · exact h3
        · extract_lets -lift -merge -useContext -underBinder +onlyGivenNames x4
          have h4 : Keeps State.stopReader_parts s0 x4 := by
            unfold x4
            refine Keeps.via (State.bump_keeps _ _ _) rfl ?_
            exact h3
          extract_lets -lift -merge -useContext -underBinder +onlyGivenNames x5
          try clear_value x5
          extract_lets -lift -merge -useContext -underBinder +onlyGivenNames x6
          have h6 : Keeps State.stopReader_parts s0 x6 := by
            unfold x6
            refine Keeps.via (State.bump_keeps _ _ _) rfl ?_
            exact h4
          refine Keeps.ite ?_ ?_
          · refine Keeps.via (State.pushEntry_keeps _ _) rfl ?_
            refine Keeps.via (State.takeSeq_keeps _) rfl ?_
            exact h6
          · refine Keeps.via (State.takeSeq_keeps _) rfl ?_
            exact h6
    refine Keeps.via (State.freeRing_keeps _) rfl ?_
    refine Keeps.via (State.setReader_keeps _ _ _) rfl ?_
    exact h0
  · exact Keeps.refl _ _

def State.twinDown_parts : List Part := [.log, .sb, .links, .twin, .ord, .map, .mir, .sch, .reg Reg.GLB_HUBID, .reg Reg.GLB_EVENT, .reg Reg.GLB_DIRSTAT, .reg Reg.ORD_FWD, .reg Reg.ORD_LINEHOLD, .reg Reg.ORD_FLUSHES, .reg Reg.MIR_CAUSE, .reg Reg.MIR_PENDOCC, .reg Reg.MIR_FWDMISS, .reg Reg.MIR_HOSTAT, .reg Reg.MIR_HOCNT, .reg Reg.ECC_SEALFAIL, .reg Reg.ECC_FIRSTFAIL, .reg Reg.ECC_REPAIR, .reg Reg.LOG_RINGSTAT, .reg Reg.LOG_CAPTURED, .reg Reg.LOG_COALESCED, .reg Reg.LOG_LOST, .reg Reg.LOG_ORPHANS, .reg Reg.LOG_SQUALLS]

theorem State.twinDown_keeps (s0 : State) (dropped : List TxData) :
    Keeps State.twinDown_parts s0 (State.twinDown s0 dropped) := by
  unfold State.twinDown
  extract_lets -lift -merge -useContext -underBinder +onlyGivenNames x0
  try clear_value x0
  extract_lets -lift -merge -useContext -underBinder +onlyGivenNames x1
  try clear_value x1
  extract_lets -lift -merge -useContext -underBinder +onlyGivenNames x2
  have h2 : Keeps State.twinDown_parts s0 x2 := by
    unfold x2
    refine Keeps.via (State.mapPend_keeps _ _) rfl ?_
    exact Keeps.refl _ _
  extract_lets -lift -merge -useContext -underBinder +onlyGivenNames x3 x4
  have h4 : Keeps State.twinDown_parts s0 x4 := by
    unfold x4
    refine Keeps.via (Keeps.upd_twin_mir _ _ _) rfl ?_
    exact h2
  extract_lets -lift -merge -useContext -underBinder +onlyGivenNames x5
  have h5 : Keeps State.twinDown_parts s0 x5 := by
    unfold x5
    refine Keeps.foldl _ _ ?_ (fun t6 y6 h6 => ?_)
    · exact h4
    · refine Keeps.via (State.mark_keeps _ _) rfl ?_
      exact h6
  extract_lets -lift -merge -useContext -underBinder +onlyGivenNames x7
  have h7 : Keeps State.twinDown_parts s0 x7 := by
    unfold x7
    refine Keeps.via (State.dropBacklog_keeps _ _) rfl ?_
    exact h5
  extract_lets -lift -merge -useContext -underBinder +onlyGivenNames x8
  have h8 : Keeps State.twinDown_parts s0 x8 := by
    unfold x8
    refine Keeps.foldl _ _ ?_ (fun t9 y9 h9 => ?_)
    · exact h7
    · refine Keeps.via (State.setEntry_keeps _ _ _) rfl ?_
      exact h9
  extract_lets -lift -merge -useContext -underBinder +onlyGivenNames x10
  try clear_value x10
  extract_lets -lift -merge -useContext -underBinder +onlyGivenNames x11
  have h11 : Keeps State.twinDown_parts s0 x11 := by
    unfold x11
    refine Keeps.foldl _ _ ?_ (fun t12 y12 h12 => ?_)
    · exact h8
    · refine Keeps.via (State.repairEnds_keeps _ _ _) rfl ?_
      exact h12
  extract_lets -lift -merge -useContext -underBinder +onlyGivenNames x13
  have h13 : Keeps State.twinDown_parts s0 x13 := by
    unfold x13
    refine Keeps.foldl _ _ ?_ (fun t14 y14 h14 => ?_)
    · exact h11
    · split
      · refine Keeps.ite ?_ ?_
        · refine Keeps.via (State.fwdMiss_keeps _ _ _ _) rfl ?_
          exact h14
        · refine Keeps.ite ?_ ?_
          · refine Keeps.via (State.release_keeps _ _ _) rfl ?_
            refine Keeps.via (State.mergeInto_keeps _ _ _ _) rfl ?_
            exact h14
          · refine Keeps.via (State.readData_keeps _ _ _ _ _ _) rfl ?_
            exact h14
      · exact h14
  extract_lets -lift -merge -useContext -underBinder +onlyGivenNames x15 x16
  have h16 : Keeps State.twinDown_parts s0 x16 := by
    unfold x16
    refine Keeps.via (Keeps.upd_mir _ _) rfl ?_
    exact h13
  extract_lets -lift -merge -useContext -underBinder +onlyGivenNames x17 x18
  have h18 : Keeps State.twinDown_parts s0 x18 := by
    unfold x18
    refine Keeps.ite ?_ ?_
    · refine Keeps.via (Keeps.upd_mir _ _) rfl ?_
      exact h16
    · exact h16
  extract_lets -lift -merge -useContext -underBinder +onlyGivenNames x19
  have h19 : Keeps State.twinDown_parts s0 x19 := by
    unfold x19
    refine Keeps.via (State.setFld_keeps _ _ _) rfl ?_
    exact h18
  refine Keeps.via (State.raiseCause_keeps _ _) rfl ?_
  refine Keeps.via (State.dropDrains_keeps _) rfl ?_
  exact h19

def State.linkDown_parts : List Part := [.rx, .log, .sb, .links, .twin, .ord, .map, .mir, .sch, .reg Reg.GLB_HUBID, .reg Reg.GLB_EVENT, .reg Reg.GLB_DIRSTAT, .block 0x1, .reg Reg.ORD_FWD, .reg Reg.ORD_LINEHOLD, .reg Reg.ORD_FLUSHES, .reg Reg.MIR_CAUSE, .reg Reg.MIR_PENDOCC, .reg Reg.MIR_FWDMISS, .reg Reg.MIR_HOSTAT, .reg Reg.MIR_HOCNT, .reg Reg.ECC_SEALFAIL, .reg Reg.ECC_FIRSTFAIL, .reg Reg.ECC_REPAIR, .reg Reg.LOG_RINGSTAT, .reg Reg.LOG_CAPTURED, .reg Reg.LOG_COALESCED, .reg Reg.LOG_LOST, .reg Reg.LOG_ORPHANS, .reg Reg.LOG_SQUALLS]

theorem State.linkDown_keeps (s0 : State) (p : Port) (failed : Bool) :
    Keeps State.linkDown_parts s0 (State.linkDown s0 p failed) := by
  unfold State.linkDown
  extract_lets -lift -merge -useContext -underBinder +onlyGivenNames x0
  try clear_value x0
  refine Keeps.ite ?_ ?_
  · exact Keeps.refl _ _
  · extract_lets -lift -merge -useContext -underBinder +onlyGivenNames x1
    try clear_value x1
    extract_lets -lift -merge -useContext -underBinder +onlyGivenNames x2
    have h2 : Keeps State.linkDown_parts s0 x2 := by
      unfold x2
      refine Keeps.via (Keeps.upd_rx _ _) rfl ?_
      exact Keeps.refl _ _
    extract_lets -lift -merge -useContext -underBinder +onlyGivenNames x3 x4
    have h4 : Keeps State.linkDown_parts s0 x4 := by
      unfold x4
      refine Keeps.via (State.setLink_keeps _ _ _) rfl ?_
      exact h2
    extract_lets -lift -merge -useContext -underBinder +onlyGivenNames x5
    have h5 : Keeps State.linkDown_parts s0 x5 := by
      unfold x5
      refine Keeps.viaBlock (b := 1) (State.setFld_keeps _ _ _) (fam_block _ _ _ _ rfl (by decide)) rfl ?_
      refine Keeps.viaBlock (b := 1) (State.setFld_keeps _ _ _) (fam_block _ _ _ _ rfl (by decide)) rfl ?_
      exact h4
    extract_lets -lift -merge -useContext -underBinder +onlyGivenNames x6
    have h6 : Keeps State.linkDown_parts s0 x6 := by
      unfold x6
      refine Keeps.via (State.dropReturn_keeps _ _) rfl ?_
      exact h5
    extract_lets -lift -merge -useContext -underBinder +onlyGivenNames x7 x8
    have h8 : Keeps State.linkDown_parts s0 x8 := by
      unfold x8
      refine Keeps.via (Keeps.upd_ord _ _) rfl ?_
      exact h6
    extract_lets -lift -merge -useContext -underBinder +onlyGivenNames x9
    have h9 : Keeps State.linkDown_parts s0 x9 := by
      unfold x9
      refine Keeps.via (State.mapPool_keeps _ _) rfl ?_
      exact h8
    extract_lets -lift -merge -useContext -underBinder +onlyGivenNames x10
    have h10 : Keeps State.linkDown_parts s0 x10 := by
      unfold x10
      refine Keeps.foldl _ _ ?_ (fun t11 y11 h11 => ?_)
      · exact h9
      · refine Keeps.via (State.setEntry_keeps _ _ _) rfl ?_
        exact h11
    refine Keeps.ite ?_ ?_
    · refine Keeps.via (State.twinDown_keeps _ _) rfl ?_
      exact h10
    · refine Keeps.via (State.stopReader_keeps _ _) rfl ?_
      exact h10

def State.clearOrder_parts : List Part := [.ord]

theorem State.clearOrder_keeps (s0 : State) :
    Keeps State.clearOrder_parts s0 (State.clearOrder s0) := by
  unfold State.clearOrder
  refine Keeps.via (Keeps.upd_ord _ _) rfl ?_
  exact Keeps.refl _ _

def State.joinEntry_parts : List Part := [.ord, .reg Reg.GLB_QUIESCE]

theorem State.joinEntry_keeps (s0 : State) :
    Keeps State.joinEntry_parts s0 (State.joinEntry s0) := by
  unfold State.joinEntry
  refine Keeps.via (State.setFld_keeps _ _ _) rfl ?_
  refine Keeps.via (Keeps.upd_ord _ _) rfl ?_
  exact Keeps.refl _ _

def State.aonEntry_parts : List Part := [.pwr, .boot]

theorem State.aonEntry_keeps (s0 : State) (dst : TopState) :
    Keeps State.aonEntry_parts s0 (State.aonEntry s0 dst) := by
  unfold State.aonEntry
  extract_lets -lift -merge -useContext -underBinder +onlyGivenNames x0 x1
  have h1 : Keeps State.aonEntry_parts s0 x1 := by
    unfold x1
    refine Keeps.ite ?_ ?_
    · refine Keeps.via (Keeps.upd_pwr _ _) rfl ?_
      exact Keeps.refl _ _
    · exact Keeps.refl _ _
  refine Keeps.ite ?_ ?_
  · refine Keeps.via (Keeps.upd_pwr_boot _ _ _) rfl ?_
    exact h1
  · exact h1

def State.afterEntry_parts : List Part := [.rx, .log, .sb, .links, .twin, .ord, .map, .mir, .sch, .flt, .cal, .pwr, .boot, .reg Reg.GLB_HUBID, .reg Reg.GLB_EVENT, .reg Reg.GLB_DIRSTAT, .reg Reg.GLB_QUIESCE, .block 0x1, .reg Reg.ORD_FWD, .reg Reg.ORD_LINEHOLD, .reg Reg.ORD_FLUSHES, .reg Reg.MIR_CAUSE, .reg Reg.MIR_PENDOCC, .reg Reg.MIR_FWDMISS, .reg Reg.MIR_HOSTAT, .reg Reg.MIR_HOCNT, .reg Reg.DPH_RETSTAT, .reg Reg.ECC_SEALFAIL, .reg Reg.ECC_FIRSTFAIL, .reg Reg.ECC_REPAIR, .reg Reg.LOG_RINGSTAT, .reg Reg.LOG_CAPTURED, .reg Reg.LOG_COALESCED, .reg Reg.LOG_LOST, .reg Reg.LOG_ORPHANS, .reg Reg.LOG_SQUALLS]

theorem State.afterEntry_keeps (s0 : State) (dst : TopState) (prev : TopState) (cause : Byte) :
    Keeps State.afterEntry_parts s0 (State.afterEntry s0 dst prev cause) := by
  unfold State.afterEntry
  extract_lets -lift -merge -useContext -underBinder +onlyGivenNames x0
  have h0 : Keeps State.afterEntry_parts s0 x0 := by
    unfold x0
    refine Keeps.via (State.aonEntry_keeps _ _) rfl ?_
    refine Keeps.via (State.setFld_keeps _ _ _) rfl ?_
    exact Keeps.refl _ _
  extract_lets -lift -merge -useContext -underBinder +onlyGivenNames x1
  have h1 : Keeps State.afterEntry_parts s0 x1 := by
    unfold x1
    refine Keeps.via (State.event_keeps _ _ _) rfl ?_
    exact h0
  extract_lets -lift -merge -useContext -underBinder +onlyGivenNames x2
  have h2 : Keeps State.afterEntry_parts s0 x2 := by
    unfold x2
    refine Keeps.ite ?_ ?_
    · refine Keeps.foldl _ _ ?_ (fun t3 y3 h3 => ?_)
      · exact h1
      · refine Keeps.via (State.linkDown_keeps _ _ _) rfl ?_
        exact h3
    · exact h1
  extract_lets -lift -merge -useContext -underBinder +onlyGivenNames x4
  have h4 : Keeps State.afterEntry_parts s0 x4 := by
    unfold x4
    refine Keeps.ite ?_ ?_
    · refine Keeps.via (State.joinEntry_keeps _) rfl ?_
      exact h2
    · exact h2
  extract_lets -lift -merge -useContext -underBinder +onlyGivenNames x5
  have h5 : Keeps State.afterEntry_parts s0 x5 := by
    unfold x5
    refine Keeps.ite ?_ ?_
    · refine Keeps.via (State.reapply_keeps _) rfl ?_
      refine Keeps.via (State.resumeCopy_keeps _) rfl ?_
      exact h4
    · exact h4
  extract_lets -lift -merge -useContext -underBinder +onlyGivenNames x6
  have h6 : Keeps State.afterEntry_parts s0 x6 := by
    unfold x6
    refine Keeps.ite ?_ ?_
    · refine Keeps.via (State.setReg_keeps _ _ _) rfl ?_
      refine Keeps.via (State.clearBuckets_keeps _) rfl ?_
      exact h5
    · exact h5
  extract_lets -lift -merge -useContext -underBinder +onlyGivenNames x7
  have h7 : Keeps State.afterEntry_parts s0 x7 := by
    unfold x7
    refine Keeps.ite ?_ ?_
    · refine Keeps.via (State.clearOrder_keeps _) rfl ?_
      exact h6
    · exact h6
  refine Keeps.ite ?_ ?_
  · refine Keeps.foldl _ _ ?_ (fun t8 y8 h8 => ?_)
    · exact h7
    · refine Keeps.via (State.onLink_keeps _ _ _) rfl ?_
      exact h8
  · exact h7

def State.goTo_parts : List Part := [.rx, .top, .log, .sb, .links, .twin, .ord, .map, .mir, .sch, .flt, .cal, .pwr, .boot, .reg Reg.GLB_HUBID, .reg Reg.GLB_EVENT, .reg Reg.GLB_DIRSTAT, .reg Reg.GLB_QUIESCE, .block 0x1, .reg Reg.ORD_FWD, .reg Reg.ORD_LINEHOLD, .reg Reg.ORD_FLUSHES, .reg Reg.MIR_CAUSE, .reg Reg.MIR_PENDOCC, .reg Reg.MIR_FWDMISS, .reg Reg.MIR_HOSTAT, .reg Reg.MIR_HOCNT, .reg Reg.DPH_RETSTAT, .reg Reg.ECC_SEALFAIL, .reg Reg.ECC_FIRSTFAIL, .reg Reg.ECC_REPAIR, .reg Reg.LOG_RINGSTAT, .reg Reg.LOG_CAPTURED, .reg Reg.LOG_COALESCED, .reg Reg.LOG_LOST, .reg Reg.LOG_ORPHANS, .reg Reg.LOG_SQUALLS]

theorem State.goTo_keeps (s0 : State) (dst : TopState) (cause : Byte) :
    Keeps State.goTo_parts s0 (State.goTo s0 dst cause) := by
  unfold State.goTo
  refine Keeps.via (State.afterEntry_keeps _ _ _ _) rfl ?_
  refine Keeps.via (Keeps.upd_top _ _) rfl ?_
  exact Keeps.refl _ _

end Sys2Proof.Machine
end

