-- ==== Sys2Proof/Laws/KeepsLink.lean ====
section
/-!
SUPPORT. The frames of the operations of Machine/Link.lean: the parts of the state each may change, and that each keeps the canonical
form. A proof of a frame cites these and unfolds nothing.
-/

namespace Sys2Proof.Machine

def execLinkTrainStart_parts : List Part := [.links]

theorem execLinkTrainStart_keeps (p : Port) (s0 : State) :
    KeepsOut execLinkTrainStart_parts s0 (execLinkTrainStart p s0) := by
  unfold execLinkTrainStart
  refine KeepsOut.next ?_
  refine Keeps.ite ?_ ?_
  · refine Keeps.via (State.onLink_keeps _ _ _) rfl ?_
    exact Keeps.refl _ _
  · exact Keeps.refl _ _

def State.enterInit_parts : List Part := [.links, .twin]

theorem State.enterInit_keeps (s0 : State) (p : Port) (width : BitVec 2) :
    Keeps State.enterInit_parts s0 (State.enterInit s0 p width) := by
  unfold State.enterInit
  extract_lets -lift -merge -useContext -underBinder +onlyGivenNames x0
  try clear_value x0
  extract_lets -lift -merge -useContext -underBinder +onlyGivenNames x1 x2
  have h2 : Keeps State.enterInit_parts s0 x2 := by
    unfold x2
    refine Keeps.via (State.setLink_keeps _ _ _) rfl ?_
    exact Keeps.refl _ _
  refine Keeps.ite ?_ ?_
  · refine Keeps.via (Keeps.upd_twin _ _) rfl ?_
    exact h2
  · exact h2

def execLinkTrainSettled_parts : List Part := [.links, .twin, .block 0x1]

theorem execLinkTrainSettled_keeps (p : Port) (rate : BitVec 2) (width : BitVec 2) (reversed : Bool) (polinv : BitVec 16) (s0 : State) :
    KeepsOut execLinkTrainSettled_parts s0 (execLinkTrainSettled p rate width reversed polinv s0) := by
  unfold execLinkTrainSettled
  refine KeepsOut.next ?_
  refine Keeps.ite ?_ ?_
  · extract_lets -lift -merge -useContext -underBinder +onlyGivenNames x0
    have h0 : Keeps execLinkTrainSettled_parts s0 x0 := by
      unfold x0
      refine Keeps.viaBlock (b := 1) (State.setFld_keeps _ _ _) (fam_block _ _ _ _ rfl (by decide)) rfl ?_
      refine Keeps.viaBlock (b := 1) (State.setFld_keeps _ _ _) (fam_block _ _ _ _ rfl (by decide)) rfl ?_
      exact Keeps.refl _ _
    extract_lets -lift -merge -useContext -underBinder +onlyGivenNames x1
    have h1 : Keeps execLinkTrainSettled_parts s0 x1 := by
      unfold x1
      refine Keeps.viaBlock (b := 1) (State.setFld_keeps _ _ _) (fam_block _ _ _ _ rfl (by decide)) rfl ?_
      refine Keeps.viaBlock (b := 1) (State.setFlag_keeps _ _ _) (fam_block _ _ _ _ rfl (by decide)) rfl ?_
      exact h0
    refine Keeps.via (State.enterInit_keeps _ _ _) rfl ?_
    exact h1
  · exact Keeps.refl _ _

def execLinkTrainTimeout_parts : List Part := [.rx, .log, .sb, .links, .twin, .ord, .map, .mir, .sch, .reg Reg.GLB_HUBID, .reg Reg.GLB_EVENT, .reg Reg.GLB_DIRSTAT, .block 0x1, .reg Reg.ORD_FWD, .reg Reg.ORD_LINEHOLD, .reg Reg.ORD_FLUSHES, .reg Reg.MIR_CAUSE, .reg Reg.MIR_PENDOCC, .reg Reg.MIR_FWDMISS, .reg Reg.MIR_HOSTAT, .reg Reg.MIR_HOCNT, .reg Reg.ECC_SEALFAIL, .reg Reg.ECC_FIRSTFAIL, .reg Reg.ECC_REPAIR, .reg Reg.LOG_RINGSTAT, .reg Reg.LOG_CAPTURED, .reg Reg.LOG_COALESCED, .reg Reg.LOG_LOST, .reg Reg.LOG_ORPHANS, .reg Reg.LOG_SQUALLS]

theorem execLinkTrainTimeout_keeps (p : Port) (lastStep : BitVec 4) (s0 : State) :
    KeepsOut execLinkTrainTimeout_parts s0 (execLinkTrainTimeout p lastStep s0) := by
  unfold execLinkTrainTimeout
  refine KeepsOut.next ?_
  refine Keeps.ite ?_ ?_
  · refine Keeps.via (State.linkDown_keeps _ _ _) rfl ?_
    refine Keeps.via (State.event_keeps _ _ _) rfl ?_
    exact Keeps.refl _ _
  · exact Keeps.refl _ _

def State.badMsg_parts : List Part := [.free, .log, .sb, .reg Reg.GLB_EVENT, .reg Reg.GLB_DIRSTAT, .block 0x1, .reg Reg.LOG_RINGSTAT, .reg Reg.LOG_CAPTURED, .reg Reg.LOG_COALESCED, .reg Reg.LOG_LOST, .reg Reg.LOG_ORPHANS, .reg Reg.LOG_SQUALLS]

theorem State.badMsg_keeps (s0 : State) (p : Port) (code : BitVec 16) :
    Keeps State.badMsg_parts s0 (State.badMsg s0 p code) := by
  unfold State.badMsg
  refine Keeps.via (State.freeEvent_keeps _ _) rfl ?_
  refine Keeps.viaBlock (b := 1) (State.bump_keeps _ _ _) (fam_block _ _ _ _ rfl (by decide)) rfl ?_
  exact Keeps.refl _ _

def execNegReceived_parts : List Part := [.free, .log, .sb, .links, .reg Reg.GLB_EVENT, .reg Reg.GLB_DIRSTAT, .block 0x1, .reg Reg.LOG_RINGSTAT, .reg Reg.LOG_CAPTURED, .reg Reg.LOG_COALESCED, .reg Reg.LOG_LOST, .reg Reg.LOG_ORPHANS, .reg Reg.LOG_SQUALLS]

theorem execNegReceived_keeps (p : Port) (m : NegMsg) (s0 : State) :
    KeepsOut execNegReceived_parts s0 (execNegReceived p m s0) := by
  unfold execNegReceived
  refine KeepsOut.next ?_
  extract_lets -lift -merge -useContext -underBinder +onlyGivenNames x0
  try clear_value x0
  refine Keeps.ite ?_ ?_
  · split
    · refine Keeps.viaBlock (b := 1) (State.bump_keeps _ _ _) (fam_block _ _ _ _ rfl (by decide)) rfl ?_
      exact Keeps.refl _ _
    · extract_lets -lift -merge -useContext -underBinder +onlyGivenNames x1
      try clear_value x1
      refine Keeps.via (State.setLink_keeps _ _ _) rfl ?_
      exact Keeps.refl _ _
  · refine Keeps.ite ?_ ?_
    · refine Keeps.via (State.badMsg_keeps _ _ _) rfl ?_
      exact Keeps.refl _ _
    · exact Keeps.refl _ _

def State.negFail_parts : List Part := [.rx, .free, .log, .sb, .links, .twin, .ord, .map, .mir, .sch, .reg Reg.GLB_HUBID, .reg Reg.GLB_EVENT, .reg Reg.GLB_DIRSTAT, .block 0x1, .reg Reg.ORD_FWD, .reg Reg.ORD_LINEHOLD, .reg Reg.ORD_FLUSHES, .reg Reg.MIR_CAUSE, .reg Reg.MIR_PENDOCC, .reg Reg.MIR_FWDMISS, .reg Reg.MIR_HOSTAT, .reg Reg.MIR_HOCNT, .reg Reg.ECC_SEALFAIL, .reg Reg.ECC_FIRSTFAIL, .reg Reg.ECC_REPAIR, .reg Reg.LOG_RINGSTAT, .reg Reg.LOG_CAPTURED, .reg Reg.LOG_COALESCED, .reg Reg.LOG_LOST, .reg Reg.LOG_ORPHANS, .reg Reg.LOG_SQUALLS]

theorem State.negFail_keeps (s0 : State) (p : Port) (code : ℕ) :
    Keeps State.negFail_parts s0 (State.negFail s0 p code) := by
  unfold State.negFail
  refine Keeps.via (State.linkDown_keeps _ _ _) rfl ?_
  refine Keeps.via (State.freeEvent_keeps _ _) rfl ?_
  refine Keeps.viaBlock (b := 1) (State.setFld_keeps _ _ _) (fam_block _ _ _ _ rfl (by decide)) rfl ?_
  exact Keeps.refl _ _

def State.contentsEvent_parts : List Part := [.log, .sb, .reg Reg.GLB_EVENT, .reg Reg.GLB_DIRSTAT, .reg Reg.LOG_RINGSTAT, .reg Reg.LOG_CAPTURED, .reg Reg.LOG_COALESCED, .reg Reg.LOG_LOST, .reg Reg.LOG_ORPHANS, .reg Reg.LOG_SQUALLS]

theorem State.contentsEvent_keeps (s0 : State) :
    Keeps State.contentsEvent_parts s0 (State.contentsEvent s0) := by
  unfold State.contentsEvent
  refine Keeps.ite ?_ ?_
  · exact Keeps.refl _ _
  · refine Keeps.via (State.event_keeps _ _ _) rfl ?_
    exact Keeps.refl _ _

def State.enterService_parts : List Part := [.log, .sb, .links, .twin, .reg Reg.GLB_HUBID, .reg Reg.GLB_EVENT, .reg Reg.GLB_DIRSTAT, .block 0x1, .reg Reg.LOG_RINGSTAT, .reg Reg.LOG_CAPTURED, .reg Reg.LOG_COALESCED, .reg Reg.LOG_LOST, .reg Reg.LOG_ORPHANS, .reg Reg.LOG_SQUALLS]

theorem State.enterService_keeps (s0 : State) (p : Port) (n : NegMsg) (a : NegAckMsg) :
    Keeps State.enterService_parts s0 (State.enterService s0 p n a) := by
  unfold State.enterService
  extract_lets -lift -merge -useContext -underBinder +onlyGivenNames x0
  try clear_value x0
  extract_lets -lift -merge -useContext -underBinder +onlyGivenNames x1
  have h1 : Keeps State.enterService_parts s0 x1 := by
    unfold x1
    refine Keeps.via (State.onLink_keeps _ _ _) rfl ?_
    exact Keeps.refl _ _
  extract_lets -lift -merge -useContext -underBinder +onlyGivenNames x2
  have h2 : Keeps State.enterService_parts s0 x2 := by
    unfold x2
    refine Keeps.viaBlock (b := 1) (State.setReg_keeps _ _ _) (fam_block _ _ _ _ rfl (by decide)) rfl ?_
    exact h1
  extract_lets -lift -merge -useContext -underBinder +onlyGivenNames x3
  have h3 : Keeps State.enterService_parts s0 x3 := by
    unfold x3
    refine Keeps.viaBlock (b := 1) (State.setFld_keeps _ _ _) (fam_block _ _ _ _ rfl (by decide)) rfl ?_
    refine Keeps.viaBlock (b := 1) (State.setFld_keeps _ _ _) (fam_block _ _ _ _ rfl (by decide)) rfl ?_
    exact h2
  extract_lets -lift -merge -useContext -underBinder +onlyGivenNames x4
  have h4 : Keeps State.enterService_parts s0 x4 := by
    unfold x4
    refine Keeps.viaBlock (b := 1) (State.setFld_keeps _ _ _) (fam_block _ _ _ _ rfl (by decide)) rfl ?_
    refine Keeps.viaBlock (b := 1) (State.setFld_keeps _ _ _) (fam_block _ _ _ _ rfl (by decide)) rfl ?_
    exact h3
  refine Keeps.ite ?_ ?_
  · refine Keeps.via (State.heartbeat_keeps _) rfl ?_
    refine Keeps.via (State.setFld_keeps _ _ _) rfl ?_
    exact h4
  · refine Keeps.via (State.contentsEvent_keeps _) rfl ?_
    refine Keeps.via (State.setReader_keeps _ _ _) rfl ?_
    exact h4

def execNegAckReceived_parts : List Part := [.rx, .free, .log, .sb, .links, .twin, .ord, .map, .mir, .sch, .reg Reg.GLB_HUBID, .reg Reg.GLB_EVENT, .reg Reg.GLB_DIRSTAT, .block 0x1, .reg Reg.ORD_FWD, .reg Reg.ORD_LINEHOLD, .reg Reg.ORD_FLUSHES, .reg Reg.MIR_CAUSE, .reg Reg.MIR_PENDOCC, .reg Reg.MIR_FWDMISS, .reg Reg.MIR_HOSTAT, .reg Reg.MIR_HOCNT, .reg Reg.ECC_SEALFAIL, .reg Reg.ECC_FIRSTFAIL, .reg Reg.ECC_REPAIR, .reg Reg.LOG_RINGSTAT, .reg Reg.LOG_CAPTURED, .reg Reg.LOG_COALESCED, .reg Reg.LOG_LOST, .reg Reg.LOG_ORPHANS, .reg Reg.LOG_SQUALLS]

theorem execNegAckReceived_keeps (p : Port) (m : NegAckMsg) (s0 : State) :
    KeepsOut execNegAckReceived_parts s0 (execNegAckReceived p m s0) := by
  unfold execNegAckReceived
  refine KeepsOut.next ?_
  extract_lets -lift -merge -useContext -underBinder +onlyGivenNames x0
  try clear_value x0
  refine Keeps.ite ?_ ?_
  · refine Keeps.via (State.badMsg_keeps _ _ _) rfl ?_
    exact Keeps.refl _ _
  · refine Keeps.ite ?_ ?_
    · refine Keeps.ite ?_ ?_
      · refine Keeps.viaBlock (b := 1) (State.bump_keeps _ _ _) (fam_block _ _ _ _ rfl (by decide)) rfl ?_
        exact Keeps.refl _ _
      · split
        · refine Keeps.ite ?_ ?_
          · refine Keeps.via (State.enterService_keeps _ _ _ _) rfl ?_
            exact Keeps.refl _ _
          · refine Keeps.via (State.negFail_keeps _ _ _) rfl ?_
            exact Keeps.refl _ _
        · refine Keeps.via (State.setLink_keeps _ _ _) rfl ?_
          exact Keeps.refl _ _
    · refine Keeps.ite ?_ ?_
      · refine Keeps.via (State.badMsg_keeps _ _ _) rfl ?_
        exact Keeps.refl _ _
      · exact Keeps.refl _ _

def execNegTimeout_parts : List Part := [.rx, .free, .log, .sb, .links, .twin, .ord, .map, .mir, .sch, .reg Reg.GLB_HUBID, .reg Reg.GLB_EVENT, .reg Reg.GLB_DIRSTAT, .block 0x1, .reg Reg.ORD_FWD, .reg Reg.ORD_LINEHOLD, .reg Reg.ORD_FLUSHES, .reg Reg.MIR_CAUSE, .reg Reg.MIR_PENDOCC, .reg Reg.MIR_FWDMISS, .reg Reg.MIR_HOSTAT, .reg Reg.MIR_HOCNT, .reg Reg.ECC_SEALFAIL, .reg Reg.ECC_FIRSTFAIL, .reg Reg.ECC_REPAIR, .reg Reg.LOG_RINGSTAT, .reg Reg.LOG_CAPTURED, .reg Reg.LOG_COALESCED, .reg Reg.LOG_LOST, .reg Reg.LOG_ORPHANS, .reg Reg.LOG_SQUALLS]

theorem execNegTimeout_keeps (p : Port) (s0 : State) :
    KeepsOut execNegTimeout_parts s0 (execNegTimeout p s0) := by
  unfold execNegTimeout
  refine KeepsOut.next ?_
  refine Keeps.ite ?_ ?_
  · refine Keeps.via (State.negFail_keeps _ _ _) rfl ?_
    exact Keeps.refl _ _
  · exact Keeps.refl _ _

def State.enterRetrain_parts : List Part := [.links, .block 0x1]

theorem State.enterRetrain_keeps (s0 : State) (p : Port) :
    Keeps State.enterRetrain_parts s0 (State.enterRetrain s0 p) := by
  unfold State.enterRetrain
  extract_lets -lift -merge -useContext -underBinder +onlyGivenNames x0
  have h0 : Keeps State.enterRetrain_parts s0 x0 := by
    unfold x0
    refine Keeps.via (State.onLink_keeps _ _ _) rfl ?_
    exact Keeps.refl _ _
  refine Keeps.viaBlock (b := 1) (State.bump_keeps _ _ _) (fam_block _ _ _ _ rfl (by decide)) rfl ?_
  refine Keeps.viaBlock (b := 1) (State.setFld_keeps _ _ _) (fam_block _ _ _ _ rfl (by decide)) rfl ?_
  exact h0

def State.retrainCause_parts : List Part := [.links, .block 0x1]

theorem State.retrainCause_keeps (s0 : State) (p : Port) :
    Keeps State.retrainCause_parts s0 (State.retrainCause s0 p) := by
  unfold State.retrainCause
  extract_lets -lift -merge -useContext -underBinder +onlyGivenNames x0
  try clear_value x0
  refine Keeps.ite ?_ ?_
  · refine Keeps.ite ?_ ?_
    · extract_lets -lift -merge -useContext -underBinder +onlyGivenNames x1
      have h1 : Keeps State.retrainCause_parts s0 x1 := by
        unfold x1
        refine Keeps.via (State.setLink_keeps _ _ _) rfl ?_
        exact Keeps.refl _ _
      refine Keeps.viaBlock (b := 1) (State.setFld_keeps _ _ _) (fam_block _ _ _ _ rfl (by decide)) rfl ?_
      refine Keeps.viaBlock (b := 1) (State.setFld_keeps _ _ _) (fam_block _ _ _ _ rfl (by decide)) rfl ?_
      exact h1
    · refine Keeps.via (State.enterRetrain_keeps _ _) rfl ?_
      exact Keeps.refl _ _
  · exact Keeps.refl _ _

def execLaneLockLost_parts : List Part := [.links, .block 0x1]

theorem execLaneLockLost_keeps (p : Port) (s0 : State) :
    KeepsOut execLaneLockLost_parts s0 (execLaneLockLost p s0) := by
  unfold execLaneLockLost
  refine KeepsOut.next ?_
  refine Keeps.via (State.retrainCause_keeps _ _) rfl ?_
  exact Keeps.refl _ _

def execRetrainDeferEnd_parts : List Part := [.links, .block 0x1]

theorem execRetrainDeferEnd_keeps (p : Port) (s0 : State) :
    KeepsOut execRetrainDeferEnd_parts s0 (execRetrainDeferEnd p s0) := by
  unfold execRetrainDeferEnd
  refine KeepsOut.next ?_
  refine Keeps.ite ?_ ?_
  · refine Keeps.via (State.enterRetrain_keeps _ _) rfl ?_
    exact Keeps.refl _ _
  · exact Keeps.refl _ _

def execRetrainFastFail_parts : List Part := [.links]

theorem execRetrainFastFail_keeps (p : Port) (s0 : State) :
    KeepsOut execRetrainFastFail_parts s0 (execRetrainFastFail p s0) := by
  unfold execRetrainFastFail
  refine KeepsOut.next ?_
  refine Keeps.ite ?_ ?_
  · refine Keeps.via (State.onLink_keeps _ _ _) rfl ?_
    exact Keeps.refl _ _
  · exact Keeps.refl _ _

def execRetrainComplete_parts : List Part := [.links, .block 0x1]

theorem execRetrainComplete_keeps (p : Port) (rate : BitVec 2) (width : BitVec 2) (s0 : State) :
    KeepsOut execRetrainComplete_parts s0 (execRetrainComplete p rate width s0) := by
  unfold execRetrainComplete
  refine KeepsOut.next ?_
  refine Keeps.ite ?_ ?_
  · extract_lets -lift -merge -useContext -underBinder +onlyGivenNames x0
    try clear_value x0
    extract_lets -lift -merge -useContext -underBinder +onlyGivenNames x1
    have h1 : Keeps execRetrainComplete_parts s0 x1 := by
      unfold x1
      refine Keeps.ite ?_ ?_
      · refine Keeps.viaBlock (b := 1) (State.setFld_keeps _ _ _) (fam_block _ _ _ _ rfl (by decide)) rfl ?_
        exact Keeps.refl _ _
      · exact Keeps.refl _ _
    extract_lets -lift -merge -useContext -underBinder +onlyGivenNames x2
    have h2 : Keeps execRetrainComplete_parts s0 x2 := by
      unfold x2
      refine Keeps.viaBlock (b := 1) (State.setFld_keeps _ _ _) (fam_block _ _ _ _ rfl (by decide)) rfl ?_
      refine Keeps.viaBlock (b := 1) (State.setFld_keeps _ _ _) (fam_block _ _ _ _ rfl (by decide)) rfl ?_
      exact h1
    refine Keeps.via (State.onLink_keeps _ _ _) rfl ?_
    exact h2
  · exact Keeps.refl _ _

def execRetrainTimeout_parts : List Part := [.rx, .log, .sb, .links, .twin, .ord, .map, .mir, .sch, .reg Reg.GLB_HUBID, .reg Reg.GLB_EVENT, .reg Reg.GLB_DIRSTAT, .block 0x1, .reg Reg.ORD_FWD, .reg Reg.ORD_LINEHOLD, .reg Reg.ORD_FLUSHES, .reg Reg.MIR_CAUSE, .reg Reg.MIR_PENDOCC, .reg Reg.MIR_FWDMISS, .reg Reg.MIR_HOSTAT, .reg Reg.MIR_HOCNT, .reg Reg.ECC_SEALFAIL, .reg Reg.ECC_FIRSTFAIL, .reg Reg.ECC_REPAIR, .reg Reg.LOG_RINGSTAT, .reg Reg.LOG_CAPTURED, .reg Reg.LOG_COALESCED, .reg Reg.LOG_LOST, .reg Reg.LOG_ORPHANS, .reg Reg.LOG_SQUALLS]

theorem execRetrainTimeout_keeps (p : Port) (s0 : State) :
    KeepsOut execRetrainTimeout_parts s0 (execRetrainTimeout p s0) := by
  unfold execRetrainTimeout
  refine KeepsOut.next ?_
  refine Keeps.ite ?_ ?_
  · refine Keeps.via (State.linkDown_keeps _ _ _) rfl ?_
    refine Keeps.via (State.event_keeps _ _ _) rfl ?_
    exact Keeps.refl _ _
  · exact Keeps.refl _ _

def execStillReq_parts : List Part := [.links, .block 0x1]

theorem execStillReq_keeps (p : Port) (s0 : State) :
    KeepsOut execStillReq_parts s0 (execStillReq p s0) := by
  unfold execStillReq
  refine KeepsOut.next ?_
  extract_lets -lift -merge -useContext -underBinder +onlyGivenNames x0
  try clear_value x0
  refine Keeps.ite ?_ ?_
  · extract_lets -lift -merge -useContext -underBinder +onlyGivenNames x1
    try clear_value x1
    refine Keeps.ite ?_ ?_
    · refine Keeps.via (State.setLink_keeps _ _ _) rfl ?_
      exact Keeps.refl _ _
    · refine Keeps.viaBlock (b := 1) (State.setFld_keeps _ _ _) (fam_block _ _ _ _ rfl (by decide)) rfl ?_
      refine Keeps.via (State.setLink_keeps _ _ _) rfl ?_
      exact Keeps.refl _ _
  · exact Keeps.refl _ _

def State.leaveStill_parts : List Part := [.links, .block 0x1]

theorem State.leaveStill_keeps (s0 : State) (p : Port) (reason : Option (BitVec 2)) :
    Keeps State.leaveStill_parts s0 (State.leaveStill s0 p reason) := by
  unfold State.leaveStill
  refine Keeps.via (State.enterRetrain_keeps _ _) rfl ?_
  refine Keeps.via (State.onLink_keeps _ _ _) rfl ?_
  exact Keeps.refl _ _

def execStillResume_parts : List Part := [.links, .block 0x1]

theorem execStillResume_keeps (p : Port) (s0 : State) :
    KeepsOut execStillResume_parts s0 (execStillResume p s0) := by
  unfold execStillResume
  refine KeepsOut.next ?_
  extract_lets -lift -merge -useContext -underBinder +onlyGivenNames x0
  try clear_value x0
  refine Keeps.ite ?_ ?_
  · extract_lets -lift -merge -useContext -underBinder +onlyGivenNames x1
    try clear_value x1
    refine Keeps.via (State.leaveStill_keeps _ _ _) rfl ?_
    refine Keeps.ite ?_ ?_
    · refine Keeps.viaBlock (b := 1) (State.setFld_keeps _ _ _) (fam_block _ _ _ _ rfl (by decide)) rfl ?_
      exact Keeps.refl _ _
    · exact Keeps.refl _ _
  · refine Keeps.ite ?_ ?_
    · refine Keeps.viaBlock (b := 1) (State.setFld_keeps _ _ _) (fam_block _ _ _ _ rfl (by decide)) rfl ?_
      exact Keeps.refl _ _
    · exact Keeps.refl _ _

def execStillWake_parts : List Part := [.links, .block 0x1]

theorem execStillWake_keeps (p : Port) (reason : BitVec 2) (s0 : State) :
    KeepsOut execStillWake_parts s0 (execStillWake p reason s0) := by
  unfold execStillWake
  refine KeepsOut.next ?_
  refine Keeps.ite ?_ ?_
  · refine Keeps.via (State.leaveStill_keeps _ _ _) rfl ?_
    exact Keeps.refl _ _
  · exact Keeps.refl _ _

def State.marginGo_parts : List Part := [.links, .block 0x1]

theorem State.marginGo_keeps (s0 : State) (p : Port) (value : Word) :
    Keeps State.marginGo_parts s0 (State.marginGo s0 p value) := by
  unfold State.marginGo
  refine Keeps.ite ?_ ?_
  · extract_lets -lift -merge -useContext -underBinder +onlyGivenNames x0
    have h0 : Keeps State.marginGo_parts s0 x0 := by
      unfold x0
      refine Keeps.viaBlock (b := 1) (State.setReg_keeps _ _ _) (fam_block _ _ _ _ rfl (by decide)) rfl ?_
      exact Keeps.refl _ _
    refine Keeps.via (State.onLink_keeps _ _ _) rfl ?_
    exact h0
  · exact Keeps.refl _ _

def execMarginGo_parts : List Part := [.links, .block 0x1]

theorem execMarginGo_keeps (p : Port) (value : Word) (s0 : State) :
    KeepsOut execMarginGo_parts s0 (execMarginGo p value s0) := by
  unfold execMarginGo
  refine KeepsOut.next ?_
  refine Keeps.via (State.marginGo_keeps _ _ _) rfl ?_
  exact Keeps.refl _ _

def execMarginStop_parts : List Part := [.block 0x1]

theorem execMarginStop_keeps (p : Port) (s0 : State) :
    KeepsOut execMarginStop_parts s0 (execMarginStop p s0) := by
  unfold execMarginStop
  refine KeepsOut.next ?_
  refine Keeps.ite ?_ ?_
  · extract_lets -lift -merge -useContext -underBinder +onlyGivenNames x0
    have h0 : Keeps execMarginStop_parts s0 x0 := by
      unfold x0
      refine Keeps.viaBlock (b := 1) (State.setFld_keeps _ _ _) (fam_block _ _ _ _ rfl (by decide)) rfl ?_
      refine Keeps.viaBlock (b := 1) (State.setFld_keeps _ _ _) (fam_block _ _ _ _ rfl (by decide)) rfl ?_
      exact Keeps.refl _ _
    refine Keeps.ite ?_ ?_
    · refine Keeps.viaBlock (b := 1) (State.setFld_keeps _ _ _) (fam_block _ _ _ _ rfl (by decide)) rfl ?_
      exact h0
    · exact h0
  · exact Keeps.refl _ _

def State.startReplay_parts : List Part := [.links, .block 0x1]

theorem State.startReplay_keeps (s0 : State) (p : Port) :
    Keeps State.startReplay_parts s0 (State.startReplay s0 p) := by
  unfold State.startReplay
  extract_lets -lift -merge -useContext -underBinder +onlyGivenNames x0
  try clear_value x0
  refine Keeps.ite ?_ ?_
  · exact Keeps.refl _ _
  · extract_lets -lift -merge -useContext -underBinder +onlyGivenNames x1
    have h1 : Keeps State.startReplay_parts s0 x1 := by
      unfold x1
      refine Keeps.viaBlock (b := 1) (State.bump_keeps _ _ _) (fam_block _ _ _ _ rfl (by decide)) rfl ?_
      refine Keeps.via (State.setLink_keeps _ _ _) rfl ?_
      exact Keeps.refl _ _
    refine Keeps.ite ?_ ?_
    · refine Keeps.via (State.retrainCause_keeps _ _) rfl ?_
      exact h1
    · exact h1

def State.badFlit_parts : List Part := [.links, .block 0x1]

theorem State.badFlit_keeps (s0 : State) (p : Port) :
    Keeps State.badFlit_parts s0 (State.badFlit s0 p) := by
  unfold State.badFlit
  extract_lets -lift -merge -useContext -underBinder +onlyGivenNames x0
  have h0 : Keeps State.badFlit_parts s0 x0 := by
    unfold x0
    refine Keeps.viaBlock (b := 1) (State.bump_keeps _ _ _) (fam_block _ _ _ _ rfl (by decide)) rfl ?_
    exact Keeps.refl _ _
  extract_lets -lift -merge -useContext -underBinder +onlyGivenNames x1
  have h1 : Keeps State.badFlit_parts s0 x1 := by
    unfold x1
    refine Keeps.via (State.onLink_keeps _ _ _) rfl ?_
    exact h0
  refine Keeps.ite ?_ ?_
  · refine Keeps.viaBlock (b := 1) (State.bumpF_keeps _ _ _) (fam_block _ _ _ _ rfl (by decide)) rfl ?_
    refine Keeps.via (State.onLink_keeps _ _ _) rfl ?_
    exact h1
  · extract_lets -lift -merge -useContext -underBinder +onlyGivenNames x2
    try clear_value x2
    extract_lets -lift -merge -useContext -underBinder +onlyGivenNames x3
    try clear_value x3
    extract_lets -lift -merge -useContext -underBinder +onlyGivenNames x4
    have h4 : Keeps State.badFlit_parts s0 x4 := by
      unfold x4
      refine Keeps.via (State.onLink_keeps _ _ _) rfl ?_
      exact h1
    refine Keeps.ite ?_ ?_
    · refine Keeps.via (State.retrainCause_keeps _ _) rfl ?_
      exact h4
    · exact h4

def State.deliverFlit_parts : List Part := [.rx]

theorem State.deliverFlit_keeps (s0 : State) (p : Port) (h : FlitHeader) (b : List Byte) :
    Keeps State.deliverFlit_parts s0 (State.deliverFlit s0 p h b) := by
  unfold State.deliverFlit
  extract_lets -lift -merge -useContext -underBinder +onlyGivenNames x0
  try clear_value x0
  refine Keeps.via (Keeps.upd_rx _ _) rfl ?_
  exact Keeps.refl _ _

def State.goodFlit_parts : List Part := [.rx, .links]

theorem State.goodFlit_keeps (s0 : State) (p : Port) (h : FlitHeader) (b : List Byte) :
    Keeps State.goodFlit_parts s0 (State.goodFlit s0 p h b) := by
  unfold State.goodFlit
  extract_lets -lift -merge -useContext -underBinder +onlyGivenNames x0
  try clear_value x0
  refine Keeps.ite ?_ ?_
  · extract_lets -lift -merge -useContext -underBinder +onlyGivenNames x1
    try clear_value x1
    refine Keeps.ite ?_ ?_
    · refine Keeps.via (State.deliverFlit_keeps _ _ _ _) rfl ?_
      refine Keeps.via (State.setLink_keeps _ _ _) rfl ?_
      exact Keeps.refl _ _
    · refine Keeps.ite ?_ ?_
      · exact Keeps.refl _ _
      · refine Keeps.via (State.onLink_keeps _ _ _) rfl ?_
        exact Keeps.refl _ _
  · refine Keeps.ite ?_ ?_
    · refine Keeps.via (Keeps.upd_rx _ _) rfl ?_
      exact Keeps.refl _ _
    · exact Keeps.refl _ _

def State.twinPln_parts : List Part := [.log, .sb, .links, .twin, .ord, .map, .mir, .sch, .reg Reg.GLB_EVENT, .reg Reg.GLB_DIRSTAT, .reg Reg.ORD_FWD, .reg Reg.ORD_LINEHOLD, .reg Reg.ORD_FLUSHES, .reg Reg.MIR_CAUSE, .reg Reg.MIR_PENDOCC, .reg Reg.MIR_HOSTAT, .reg Reg.MIR_HOCNT, .reg Reg.ECC_SEALFAIL, .reg Reg.ECC_FIRSTFAIL, .reg Reg.LOG_RINGSTAT, .reg Reg.LOG_CAPTURED, .reg Reg.LOG_COALESCED, .reg Reg.LOG_LOST, .reg Reg.LOG_ORPHANS, .reg Reg.LOG_SQUALLS]

theorem State.twinPln_keeps (s0 : State) :
    Keeps State.twinPln_parts s0 (State.twinPln s0) := by
  unfold State.twinPln
  refine Keeps.ite ?_ ?_
  · exact Keeps.refl _ _
  · refine Keeps.via (State.raiseCause_keeps _ _) rfl ?_
    refine Keeps.via (Keeps.upd_twin _ _) rfl ?_
    exact Keeps.refl _ _

def State.honour_parts : List Part := [.log, .sb, .links, .twin, .ord, .map, .mir, .sch, .reg Reg.GLB_EVENT, .reg Reg.GLB_DIRSTAT, .block 0x1, .reg Reg.ORD_FWD, .reg Reg.ORD_LINEHOLD, .reg Reg.ORD_FLUSHES, .reg Reg.MIR_CAUSE, .reg Reg.MIR_PENDOCC, .reg Reg.MIR_HOSTAT, .reg Reg.MIR_HOCNT, .reg Reg.ECC_SEALFAIL, .reg Reg.ECC_FIRSTFAIL, .reg Reg.LOG_RINGSTAT, .reg Reg.LOG_CAPTURED, .reg Reg.LOG_COALESCED, .reg Reg.LOG_LOST, .reg Reg.LOG_ORPHANS, .reg Reg.LOG_SQUALLS]

theorem State.honour_keeps (s0 : State) (p : Port) (h : FlitHeader) :
    Keeps State.honour_parts s0 (State.honour s0 p h) := by
  unfold State.honour
  extract_lets -lift -merge -useContext -underBinder +onlyGivenNames x0
  have h0 : Keeps State.honour_parts s0 x0 := by
    unfold x0
    refine Keeps.ite ?_ ?_
    · refine Keeps.via (State.onLink_keeps _ _ _) rfl ?_
      exact Keeps.refl _ _
    · exact Keeps.refl _ _
  extract_lets -lift -merge -useContext -underBinder +onlyGivenNames x1
  have h1 : Keeps State.honour_parts s0 x1 := by
    unfold x1
    refine Keeps.ite ?_ ?_
    · refine Keeps.via (State.startReplay_keeps _ _) rfl ?_
      exact h0
    · exact h0
  refine Keeps.ite ?_ ?_
  · refine Keeps.via (State.twinPln_keeps _) rfl ?_
    exact h1
  · exact h1

def execFlitReceived_parts : List Part := [.rx, .log, .sb, .links, .twin, .ord, .map, .mir, .sch, .reg Reg.GLB_EVENT, .reg Reg.GLB_DIRSTAT, .block 0x1, .reg Reg.ORD_FWD, .reg Reg.ORD_LINEHOLD, .reg Reg.ORD_FLUSHES, .reg Reg.MIR_CAUSE, .reg Reg.MIR_PENDOCC, .reg Reg.MIR_HOSTAT, .reg Reg.MIR_HOCNT, .reg Reg.ECC_SEALFAIL, .reg Reg.ECC_FIRSTFAIL, .reg Reg.LOG_RINGSTAT, .reg Reg.LOG_CAPTURED, .reg Reg.LOG_COALESCED, .reg Reg.LOG_LOST, .reg Reg.LOG_ORPHANS, .reg Reg.LOG_SQUALLS]

theorem execFlitReceived_keeps (p : Port) (bytes : List Byte) (s0 : State) :
    KeepsOut execFlitReceived_parts s0 (execFlitReceived p bytes s0) := by
  unfold execFlitReceived
  refine KeepsOut.next ?_
  split
  · extract_lets -lift -merge -useContext -underBinder +onlyGivenNames x0
    try clear_value x0
    extract_lets -lift -merge -useContext -underBinder +onlyGivenNames x1
    have h1 : Keeps execFlitReceived_parts s0 x1 := by
      unfold x1
      refine Keeps.viaBlock (b := 1) (State.bump_keeps _ _ _) (fam_block _ _ _ _ rfl (by decide)) rfl ?_
      exact Keeps.refl _ _
    extract_lets -lift -merge -useContext -underBinder +onlyGivenNames x2
    try clear_value x2
    refine Keeps.ite ?_ ?_
    · refine Keeps.via (State.honour_keeps _ _ _) rfl ?_
      refine Keeps.via (State.goodFlit_keeps _ _ _ _) rfl ?_
      exact h1
    · refine Keeps.via (State.badFlit_keeps _ _) rfl ?_
      exact h1
  · extract_lets -lift -merge -useContext -underBinder +onlyGivenNames x3
    try clear_value x3
    extract_lets -lift -merge -useContext -underBinder +onlyGivenNames x4
    have h4 : Keeps execFlitReceived_parts s0 x4 := by
      unfold x4
      refine Keeps.viaBlock (b := 1) (State.bump_keeps _ _ _) (fam_block _ _ _ _ rfl (by decide)) rfl ?_
      exact Keeps.refl _ _
    extract_lets -lift -merge -useContext -underBinder +onlyGivenNames x5
    try clear_value x5
    refine Keeps.ite ?_ ?_
    · refine Keeps.via (State.honour_keeps _ _ _) rfl ?_
      refine Keeps.via (State.goodFlit_keeps _ _ _ _) rfl ?_
      exact h4
    · refine Keeps.via (State.badFlit_keeps _ _) rfl ?_
      exact h4
  · extract_lets -lift -merge -useContext -underBinder +onlyGivenNames x6
    try clear_value x6
    extract_lets -lift -merge -useContext -underBinder +onlyGivenNames x7
    have h7 : Keeps execFlitReceived_parts s0 x7 := by
      unfold x7
      refine Keeps.viaBlock (b := 1) (State.bump_keeps _ _ _) (fam_block _ _ _ _ rfl (by decide)) rfl ?_
      exact Keeps.refl _ _
    extract_lets -lift -merge -useContext -underBinder +onlyGivenNames x8
    try clear_value x8
    refine Keeps.ite ?_ ?_
    · refine Keeps.via (State.honour_keeps _ _ _) rfl ?_
      refine Keeps.via (State.goodFlit_keeps _ _ _ _) rfl ?_
      exact h7
    · refine Keeps.via (State.badFlit_keeps _ _) rfl ?_
      exact h7
  · exact Keeps.refl _ _

def execNakTimeout_parts : List Part := [.links]

theorem execNakTimeout_keeps (p : Port) (s0 : State) :
    KeepsOut execNakTimeout_parts s0 (execNakTimeout p s0) := by
  unfold execNakTimeout
  refine KeepsOut.next ?_
  refine Keeps.ite ?_ ?_
  · refine Keeps.via (State.onLink_keeps _ _ _) rfl ?_
    exact Keeps.refl _ _
  · exact Keeps.refl _ _

def execReplayTimeout_parts : List Part := [.links, .block 0x1]

theorem execReplayTimeout_keeps (p : Port) (s0 : State) :
    KeepsOut execReplayTimeout_parts s0 (execReplayTimeout p s0) := by
  unfold execReplayTimeout
  refine KeepsOut.next ?_
  split
  · refine Keeps.via (State.startReplay_keeps _ _) rfl ?_
    exact Keeps.refl _ _
  · refine Keeps.via (State.startReplay_keeps _ _) rfl ?_
    exact Keeps.refl _ _
  · exact Keeps.refl _ _

def execUnknownMessage_parts : List Part := [.free, .log, .sb, .reg Reg.GLB_EVENT, .reg Reg.GLB_DIRSTAT, .block 0x1, .reg Reg.LOG_RINGSTAT, .reg Reg.LOG_CAPTURED, .reg Reg.LOG_COALESCED, .reg Reg.LOG_LOST, .reg Reg.LOG_ORPHANS, .reg Reg.LOG_SQUALLS]

theorem execUnknownMessage_keeps (p : Port) (m : Msg) (s0 : State) :
    KeepsOut execUnknownMessage_parts s0 (execUnknownMessage p m s0) := by
  unfold execUnknownMessage
  refine KeepsOut.next ?_
  refine Keeps.ite ?_ ?_
  · refine Keeps.via (State.badMsg_keeps _ _ _) rfl ?_
    exact Keeps.refl _ _
  · exact Keeps.refl _ _

def State.overrun_parts : List Part := [.free, .log, .sb, .links, .twin, .ord, .mir, .sch, .reg Reg.GLB_EVENT, .reg Reg.GLB_DIRSTAT, .block 0x1, .reg Reg.ORD_FWD, .reg Reg.ORD_LINEHOLD, .reg Reg.MIR_RBCUR, .reg Reg.ECC_SEALFAIL, .reg Reg.ECC_FIRSTFAIL, .reg Reg.LOG_RINGSTAT, .reg Reg.LOG_CAPTURED, .reg Reg.LOG_COALESCED, .reg Reg.LOG_LOST, .reg Reg.LOG_ORPHANS, .reg Reg.LOG_SQUALLS]

theorem State.overrun_keeps (s0 : State) (p : Port) (credited : Bool) (tag : BitVec 12) :
    Keeps State.overrun_parts s0 (State.overrun s0 p credited tag) := by
  unfold State.overrun
  extract_lets -lift -merge -useContext -underBinder +onlyGivenNames x0
  have h0 : Keeps State.overrun_parts s0 x0 := by
    unfold x0
    refine Keeps.via (State.badMsg_keeps _ _ _) rfl ?_
    exact Keeps.refl _ _
  refine Keeps.ite ?_ ?_
  · extract_lets -lift -merge -useContext -underBinder +onlyGivenNames x1
    try clear_value x1
    extract_lets -lift -merge -useContext -underBinder +onlyGivenNames x2
    have h2 : Keeps State.overrun_parts s0 x2 := by
      unfold x2
      refine Keeps.via (State.onLink_keeps _ _ _) rfl ?_
      exact h0
    refine Keeps.via (State.finishReq_keeps _ _ _) rfl ?_
    exact h2
  · exact h0

def execOverrun_parts : List Part := [.free, .log, .sb, .links, .twin, .ord, .mir, .sch, .reg Reg.GLB_EVENT, .reg Reg.GLB_DIRSTAT, .block 0x1, .reg Reg.ORD_FWD, .reg Reg.ORD_LINEHOLD, .reg Reg.MIR_RBCUR, .reg Reg.ECC_SEALFAIL, .reg Reg.ECC_FIRSTFAIL, .reg Reg.LOG_RINGSTAT, .reg Reg.LOG_CAPTURED, .reg Reg.LOG_COALESCED, .reg Reg.LOG_LOST, .reg Reg.LOG_ORPHANS, .reg Reg.LOG_SQUALLS]

theorem execOverrun_keeps (p : Port) (item : CreditedItem) (s0 : State) :
    KeepsOut execOverrun_parts s0 (execOverrun p item s0) := by
  unfold execOverrun
  refine KeepsOut.next ?_
  refine Keeps.ite ?_ ?_
  · split
    · refine Keeps.via (State.overrun_keeps _ _ _ _) rfl ?_
      exact Keeps.refl _ _
    · refine Keeps.via (State.overrun_keeps _ _ _ _) rfl ?_
      exact Keeps.refl _ _
    · refine Keeps.via (State.overrun_keeps _ _ _ _) rfl ?_
      exact Keeps.refl _ _
    · refine Keeps.via (State.overrun_keeps _ _ _ _) rfl ?_
      exact Keeps.refl _ _
  · exact Keeps.refl _ _

def State.pumpEvent_parts : List Part := [.log, .links]

theorem State.pumpEvent_keeps (s0 : State) (p : Port) :
    KeepsOpt State.pumpEvent_parts s0 (State.pumpEvent s0 p) := by
  unfold State.pumpEvent
  split
  · split
    · refine KeepsOpt.ite ?_ ?_
      · refine KeepsOpt.some ?_
        refine Keeps.via (State.setReader_keeps _ _ _) rfl ?_
        exact Keeps.refl _ _
      · refine KeepsOpt.ite ?_ ?_
        · extract_lets -lift -merge -useContext -underBinder +onlyGivenNames x0
          have h0 : Keeps State.pumpEvent_parts s0 x0 := by
            unfold x0
            refine Keeps.via (State.setReader_keeps _ _ _) rfl ?_
            exact Keeps.refl _ _
          refine KeepsOpt.some ?_
          refine Keeps.via (State.onLink_keeps _ _ _) rfl ?_
          exact h0
        · exact KeepsOpt.none
    · exact KeepsOpt.none
  · exact KeepsOpt.none

def State.pumpEvents_parts : List Part := [.log, .links]

theorem State.pumpEvents_keeps (p : Port) (a1 : ℕ) (s0 : State) :
    Keeps State.pumpEvents_parts s0 (State.pumpEvents p a1 s0) := by
  induction a1 generalizing p s0 with
  | zero =>
    rw [State.pumpEvents.eq_1]
    exact Keeps.refl _ _
  | succ _ ih =>
    rw [State.pumpEvents.eq_2]
    split
    · refine Keeps.trans ?_ (ih _ _)
      refine Keeps.ofSome (by assumption) ?_
      refine KeepsOpt.via (State.pumpEvent_keeps _ _) rfl ?_
      exact Keeps.refl _ _
    · exact Keeps.refl _ _

def State.sendEvents_parts : List Part := [.log, .links]

theorem State.sendEvents_keeps (s0 : State) (p : Port) :
    Keeps State.sendEvents_parts s0 (State.sendEvents s0 p) := by
  unfold State.sendEvents
  refine Keeps.ite ?_ ?_
  · refine Keeps.via (State.freeRing_keeps _) rfl ?_
    refine Keeps.via (State.pumpEvents_keeps _ _ _) rfl ?_
    exact Keeps.refl _ _
  · exact Keeps.refl _ _

def execCredit_parts : List Part := [.free, .log, .sb, .links, .reg Reg.GLB_EVENT, .reg Reg.GLB_DIRSTAT, .reg Reg.LOG_RINGSTAT, .reg Reg.LOG_CAPTURED, .reg Reg.LOG_COALESCED, .reg Reg.LOG_LOST, .reg Reg.LOG_ORPHANS, .reg Reg.LOG_SQUALLS]

theorem execCredit_keeps (p : Port) (m : CreditMsg) (s0 : State) :
    KeepsOut execCredit_parts s0 (execCredit p m s0) := by
  unfold execCredit
  refine KeepsOut.next ?_
  refine Keeps.ite ?_ ?_
  · extract_lets -lift -merge -useContext -underBinder +onlyGivenNames x0
    try clear_value x0
    refine Keeps.ite ?_ ?_
    · refine Keeps.via (State.freeEvent_keeps _ _) rfl ?_
      exact Keeps.refl _ _
    · extract_lets -lift -merge -useContext -underBinder +onlyGivenNames x1
      try clear_value x1
      extract_lets -lift -merge -useContext -underBinder +onlyGivenNames x2
      have h2 : Keeps execCredit_parts s0 x2 := by
        unfold x2
        refine Keeps.via (State.setLink_keeps _ _ _) rfl ?_
        exact Keeps.refl _ _
      refine Keeps.via (State.sendEvents_keeps _ _) rfl ?_
      exact h2
  · exact Keeps.refl _ _

def execCreditSend_parts : List Part := [.links]

theorem execCreditSend_keeps (p : Port) (s0 : State) :
    KeepsOut execCreditSend_parts s0 (execCreditSend p s0) := by
  unfold execCreditSend
  refine KeepsOut.next ?_
  refine Keeps.ite ?_ ?_
  · refine Keeps.via (State.creditNow_keeps _ _) rfl ?_
    exact Keeps.refl _ _
  · exact Keeps.refl _ _

def State.handedOver_parts : List Part := [.links, .ord]

theorem State.handedOver_keeps (s0 : State) (d : TxData) :
    Keeps State.handedOver_parts s0 (State.handedOver s0 d) := by
  unfold State.handedOver
  extract_lets -lift -merge -useContext -underBinder +onlyGivenNames x0
  have h0 : Keeps State.handedOver_parts s0 x0 := by
    unfold x0
    split
    · refine Keeps.via (State.freeEntry_keeps _ _) rfl ?_
      exact Keeps.refl _ _
    · exact Keeps.refl _ _
  split
  · refine Keeps.via (State.owe_keeps _ _ _) rfl ?_
    exact h0
  · exact h0

def State.packed_parts : List Part := [.links, .ord]

theorem State.packed_keeps (s0 : State) (p : Port) (k : Pack) :
    Keeps State.packed_parts s0 (State.packed s0 p k) := by
  unfold State.packed
  extract_lets -lift -merge -useContext -underBinder +onlyGivenNames x0
  have h0 : Keeps State.packed_parts s0 x0 := by
    unfold x0
    refine Keeps.via (State.onLink_keeps _ _ _) rfl ?_
    exact Keeps.refl _ _
  extract_lets -lift -merge -useContext -underBinder +onlyGivenNames x1
  have h1 : Keeps State.packed_parts s0 x1 := by
    unfold x1
    refine Keeps.foldl _ _ ?_ (fun t2 y2 h2 => ?_)
    · exact h0
    · refine Keeps.via (State.handedOver_keeps _ _) rfl ?_
      exact h2
  refine Keeps.via (State.owe_keeps _ _ _) rfl ?_
  refine Keeps.foldl _ _ ?_ (fun t3 y3 h3 => ?_)
  · exact h1
  · refine Keeps.via (State.freeEntry_keeps _ _) rfl ?_
    exact h3

def State.putCross_parts : List Part := [.links, .ord]

theorem State.putCross_keeps (s0 : State) (p : Port) (before : List CrossFlit) (k : Pack) :
    Keeps State.putCross_parts s0 (State.putCross s0 p before k) := by
  unfold State.putCross
  refine Keeps.via (State.packed_keeps _ _ _) rfl ?_
  refine Keeps.via (State.onLink_keeps _ _ _) rfl ?_
  exact Keeps.refl _ _

def State.crossOne_parts : List Part := [.links, .ord]

theorem State.crossOne_keeps (s0 : State) (p : Port) :
    KeepsOpt State.crossOne_parts s0 (State.crossOne s0 p) := by
  unfold State.crossOne
  extract_lets -lift -merge -useContext -underBinder +onlyGivenNames x0
  try clear_value x0
  split
  · refine KeepsOpt.some ?_
    refine Keeps.via (State.putCross_keeps _ _ _ _) rfl ?_
    exact Keeps.refl _ _
  · extract_lets -lift -merge -useContext -underBinder +onlyGivenNames x1
    try clear_value x1
    refine KeepsOpt.ite ?_ ?_
    · refine KeepsOpt.some ?_
      refine Keeps.via (State.putCross_keeps _ _ _ _) rfl ?_
      exact Keeps.refl _ _
    · exact KeepsOpt.none

def State.fillCross_parts : List Part := [.links, .ord]

theorem State.fillCross_keeps (p : Port) (a1 : ℕ) (s0 : State) :
    Keeps State.fillCross_parts s0 (State.fillCross p a1 s0) := by
  induction a1 generalizing p s0 with
  | zero =>
    rw [State.fillCross.eq_1]
    exact Keeps.refl _ _
  | succ _ ih =>
    rw [State.fillCross.eq_2]
    split
    · refine Keeps.trans ?_ (ih _ _)
      refine Keeps.ofSome (by assumption) ?_
      refine KeepsOpt.via (State.crossOne_keeps _ _) rfl ?_
      exact Keeps.refl _ _
    · exact Keeps.refl _ _

def State.wakeMsg_parts : List Part := [.free]

theorem State.wakeMsg_keeps (s0 : State) (l : LinkSt) :
    Keeps State.wakeMsg_parts s0 (State.wakeMsg s0 l).2 := by
  unfold State.wakeMsg
  extract_lets -lift -merge -useContext -underBinder +onlyGivenNames x0
  have h0 : Keeps State.wakeMsg_parts s0 x0.2 := by
    unfold x0
    refine Keeps.via (State.draw_keeps _) rfl ?_
    exact Keeps.refl _ _
  extract_lets -lift -merge -useContext -underBinder +onlyGivenNames x1
  have h1 : Keeps State.wakeMsg_parts s0 x1.2 := by
    unfold x1
    refine Keeps.via (State.draw_keeps _) rfl ?_
    exact h0
  dsimp -zeta only
  exact h1

def State.sendPayload_parts : List Part := [.free, .links, .ord]

theorem State.sendPayload_keeps (s0 : State) (p : Port) :
    KeepsOpt State.sendPayload_parts s0 (State.sendPayload s0 p) := by
  unfold State.sendPayload
  extract_lets -lift -merge -useContext -underBinder +onlyGivenNames x0
  try clear_value x0
  extract_lets -lift -merge -useContext -underBinder +onlyGivenNames x1
  try clear_value x1
  extract_lets -lift -merge -useContext -underBinder +onlyGivenNames x2
  try clear_value x2
  extract_lets -lift -merge -useContext -underBinder +onlyGivenNames x3
  try clear_value x3
  refine KeepsOpt.ite ?_ ?_
  · exact KeepsOpt.none
  · refine KeepsOpt.ite ?_ ?_
    · extract_lets -lift -merge -useContext -underBinder +onlyGivenNames x4
      have h4 : Keeps State.sendPayload_parts s0 x4.2 := by
        unfold x4
        refine Keeps.via (State.wakeMsg_keeps _ _) rfl ?_
        exact Keeps.refl _ _
      extract_lets -lift -merge -useContext -underBinder +onlyGivenNames x5
      try clear_value x5
      extract_lets -lift -merge -useContext -underBinder +onlyGivenNames x6
      have h6 : Keeps State.sendPayload_parts s0 x6 := by
        unfold x6
        refine Keeps.ite ?_ ?_
        · exact h4
        · exact Keeps.refl _ _
      extract_lets -lift -merge -useContext -underBinder +onlyGivenNames x7
      try clear_value x7
      extract_lets -lift -merge -useContext -underBinder +onlyGivenNames x8
      have h8 : Keeps State.sendPayload_parts s0 x8 := by
        unfold x8
        refine Keeps.via (State.onLink_keeps _ _ _) rfl ?_
        exact h6
      refine KeepsOpt.some ?_
      refine Keeps.via (State.packed_keeps _ _ _) rfl ?_
      refine Keeps.via (State.onLink_keeps _ _ _) rfl ?_
      exact h8
    · split
      · exact KeepsOpt.none
      · refine KeepsOpt.some ?_
        refine Keeps.via (State.setLink_keeps _ _ _) rfl ?_
        exact Keeps.refl _ _

def State.nextFlit_parts : List Part := [.free, .links, .ord]

theorem State.nextFlit_keeps (s0 : State) (p : Port) :
    Keeps State.nextFlit_parts s0 (State.nextFlit s0 p) := by
  unfold State.nextFlit
  extract_lets -lift -merge -useContext -underBinder +onlyGivenNames x0
  try clear_value x0
  refine Keeps.ite ?_ ?_
  · refine Keeps.via (State.setLink_keeps _ _ _) rfl ?_
    exact Keeps.refl _ _
  · split
    · refine Keeps.via (State.setLink_keeps _ _ _) rfl ?_
      exact Keeps.refl _ _
    · split
      · refine Keeps.ofSome (by assumption) ?_
        refine KeepsOpt.via (State.sendPayload_keeps _ _) rfl ?_
        exact Keeps.refl _ _
      · split
        · refine Keeps.via (State.setLink_keeps _ _ _) rfl ?_
          exact Keeps.refl _ _
        · refine Keeps.via (State.setLink_keeps _ _ _) rfl ?_
          exact Keeps.refl _ _

def State.cross_parts : List Part := [.links, .ord]

theorem State.cross_keeps (s0 : State) (p : Port) :
    Keeps State.cross_parts s0 (State.cross s0 p) := by
  unfold State.cross
  refine Keeps.via (State.fillCross_keeps _ _ _) rfl ?_
  exact Keeps.refl _ _

def execFlitTransmit_parts : List Part := [.free, .log, .links, .twin, .ord, .mir, .reg Reg.MIR_RBLINES]

theorem execFlitTransmit_keeps (p : Port) (s0 : State) :
    KeepsOut execFlitTransmit_parts s0 (execFlitTransmit p s0) := by
  unfold execFlitTransmit
  refine KeepsOut.next ?_
  split
  · refine Keeps.via (State.nextFlit_keeps _ _) rfl ?_
    refine Keeps.via (State.cross_keeps _ _) rfl ?_
    exact Keeps.refl _ _
  · refine Keeps.via (State.nextFlit_keeps _ _) rfl ?_
    refine Keeps.via (State.cross_keeps _ _) rfl ?_
    refine Keeps.via (State.sendEvents_keeps _ _) rfl ?_
    refine Keeps.via (State.pumpLines_keeps _ _) rfl ?_
    exact Keeps.refl _ _
  · extract_lets -lift -merge -useContext -underBinder +onlyGivenNames x0
    have h0 : Keeps execFlitTransmit_parts s0 x0 := by
      unfold x0
      refine Keeps.via (State.cross_keeps _ _) rfl ?_
      exact Keeps.refl _ _
    refine Keeps.via (State.setLink_keeps _ _ _) rfl ?_
    exact h0
  · extract_lets -lift -merge -useContext -underBinder +onlyGivenNames x1
    try clear_value x1
    split
    · refine Keeps.via (State.setLink_keeps _ _ _) rfl ?_
      exact Keeps.refl _ _
    · refine Keeps.ite ?_ ?_
      · refine Keeps.via (State.setLink_keeps _ _ _) rfl ?_
        exact Keeps.refl _ _
      · exact Keeps.refl _ _
  · exact Keeps.refl _ _

end Sys2Proof.Machine
end

