-- ==== Sys2Proof/Laws/KeepsHost.lean ====
section
/-!
SUPPORT. The frames of the operations of Machine/Host.lean: the parts of the state each may change, and that each keeps the canonical
form. A proof of a frame cites these and unfolds nothing.
-/

namespace Sys2Proof.Machine

def State.intakeReject_parts : List Part := [.log, .sb, .links, .twin, .ord, .mir, .sch, .reg Reg.GLB_EVENT, .reg Reg.GLB_DIRSTAT, .reg Reg.ORD_FWD, .reg Reg.ORD_LINEHOLD, .reg Reg.MIR_RBCUR, .reg Reg.ECC_SEALFAIL, .reg Reg.ECC_FIRSTFAIL, .reg Reg.LOG_RINGSTAT, .reg Reg.LOG_CAPTURED, .reg Reg.LOG_COALESCED, .reg Reg.LOG_LOST, .reg Reg.LOG_ORPHANS, .reg Reg.LOG_SQUALLS]

theorem State.intakeReject_keeps (s0 : State) (p : Port) (q : LaneReq) (reason : Byte) :
    Keeps State.intakeReject_parts s0 (State.intakeReject s0 p q reason) := by
  unfold State.intakeReject
  extract_lets -lift -merge -useContext -underBinder +onlyGivenNames x0
  have h0 : Keeps State.intakeReject_parts s0 x0 := by
    unfold x0
    refine Keeps.via (State.onLink_keeps _ _ _) rfl ?_
    exact Keeps.refl _ _
  extract_lets -lift -merge -useContext -underBinder +onlyGivenNames x1
  have h1 : Keeps State.intakeReject_parts s0 x1 := by
    unfold x1
    refine Keeps.via (State.owe_keeps _ _ _) rfl ?_
    refine Keeps.via (State.finishReq_keeps _ _ _) rfl ?_
    exact h0
  split
  · refine Keeps.via (State.rejectHost_keeps _ _ _ _ _) rfl ?_
    exact h1
  · exact h1

def State.placeReq_parts : List Part := [.links]

theorem State.placeReq_keeps (s0 : State) (p : Port) (cost : Credits) (tag : BitVec 12) :
    Keeps State.placeReq_parts s0 (State.placeReq s0 p cost tag) := by
  unfold State.placeReq
  refine Keeps.via (State.onLink_keeps _ _ _) rfl ?_
  exact Keeps.refl _ _

def State.duplicateTag_parts : List Part := [.free, .log, .sb, .links, .twin, .ord, .mir, .sch, .reg Reg.GLB_EVENT, .reg Reg.GLB_DIRSTAT, .block 0x1, .reg Reg.ORD_FWD, .reg Reg.ORD_LINEHOLD, .reg Reg.MIR_RBCUR, .reg Reg.ECC_SEALFAIL, .reg Reg.ECC_FIRSTFAIL, .reg Reg.LOG_RINGSTAT, .reg Reg.LOG_CAPTURED, .reg Reg.LOG_COALESCED, .reg Reg.LOG_LOST, .reg Reg.LOG_ORPHANS, .reg Reg.LOG_SQUALLS]

theorem State.duplicateTag_keeps (s0 : State) (p : Port) (cost : Credits) (tag : BitVec 12) :
    Keeps State.duplicateTag_parts s0 (State.duplicateTag s0 p cost tag) := by
  unfold State.duplicateTag
  extract_lets -lift -merge -useContext -underBinder +onlyGivenNames x0
  try clear_value x0
  refine Keeps.via (State.finishReq_keeps _ _ _) rfl ?_
  refine Keeps.via (State.owe_keeps _ _ _) rfl ?_
  refine Keeps.via (State.badMsg_keeps _ _ _) rfl ?_
  refine Keeps.via (State.placeReq_keeps _ _ _ _) rfl ?_
  exact Keeps.refl _ _

def State.deliverHost_parts : List Part := [.free, .log, .sb, .links, .twin, .ord, .mir, .sch, .reg Reg.GLB_EVENT, .reg Reg.GLB_DIRSTAT, .block 0x1, .reg Reg.ORD_FWD, .reg Reg.ORD_LINEHOLD, .reg Reg.MIR_RBCUR, .reg Reg.ECC_SEALFAIL, .reg Reg.ECC_FIRSTFAIL, .reg Reg.LOG_RINGSTAT, .reg Reg.LOG_CAPTURED, .reg Reg.LOG_COALESCED, .reg Reg.LOG_LOST, .reg Reg.LOG_ORPHANS, .reg Reg.LOG_SQUALLS]

theorem State.deliverHost_keeps (s0 : State) (p : Port) (op : HostOp) (r : HostReq) :
    Keeps State.deliverHost_parts s0 (State.deliverHost s0 p op r) := by
  unfold State.deliverHost
  extract_lets -lift -merge -useContext -underBinder +onlyGivenNames x0
  try clear_value x0
  refine Keeps.ite ?_ ?_
  · exact Keeps.refl _ _
  · refine Keeps.ite ?_ ?_
    · refine Keeps.via (State.overrun_keeps _ _ _ _) rfl ?_
      exact Keeps.refl _ _
    · refine Keeps.ite ?_ ?_
      · refine Keeps.via (State.duplicateTag_keeps _ _ _ _) rfl ?_
        exact Keeps.refl _ _
      · extract_lets -lift -merge -useContext -underBinder +onlyGivenNames x1
        try clear_value x1
        extract_lets -lift -merge -useContext -underBinder +onlyGivenNames x2
        try clear_value x2
        extract_lets -lift -merge -useContext -underBinder +onlyGivenNames x3
        have h3 : Keeps State.deliverHost_parts s0 x3 := by
          unfold x3
          refine Keeps.via (State.placeReq_keeps _ _ _ _) rfl ?_
          exact Keeps.refl _ _
        extract_lets -lift -merge -useContext -underBinder +onlyGivenNames x4
        have h4 : Keeps State.deliverHost_parts s0 x4 := by
          unfold x4
          refine Keeps.via (State.onLink_keeps _ _ _) rfl ?_
          exact h3
        refine Keeps.ite ?_ ?_
        · extract_lets -lift -merge -useContext -underBinder +onlyGivenNames x5
          have h5 : Keeps State.deliverHost_parts s0 x5 := by
            unfold x5
            refine Keeps.via (State.intakeReject_keeps _ _ _ _) rfl ?_
            exact h4
          refine Keeps.ite ?_ ?_
          · refine Keeps.via (State.onLink_keeps _ _ _) rfl ?_
            exact h5
          · exact h5
        · split
          · refine Keeps.ite ?_ ?_
            · exact h4
            · refine Keeps.via (State.intakeReject_keeps _ _ _ _) rfl ?_
              exact h4
          · exact h4

def execRead_parts : List Part := [.free, .log, .sb, .links, .twin, .ord, .mir, .sch, .reg Reg.GLB_EVENT, .reg Reg.GLB_DIRSTAT, .block 0x1, .reg Reg.ORD_FWD, .reg Reg.ORD_LINEHOLD, .reg Reg.MIR_RBCUR, .reg Reg.ECC_SEALFAIL, .reg Reg.ECC_FIRSTFAIL, .reg Reg.LOG_RINGSTAT, .reg Reg.LOG_CAPTURED, .reg Reg.LOG_COALESCED, .reg Reg.LOG_LOST, .reg Reg.LOG_ORPHANS, .reg Reg.LOG_SQUALLS]

theorem execRead_keeps (p : Port) (r : HostReq) (s0 : State) :
    KeepsOut execRead_parts s0 (execRead p r s0) := by
  unfold execRead
  refine KeepsOut.next ?_
  refine Keeps.via (State.deliverHost_keeps _ _ _ _) rfl ?_
  exact Keeps.refl _ _

def execWriteA_parts : List Part := [.free, .log, .sb, .links, .twin, .ord, .mir, .sch, .reg Reg.GLB_EVENT, .reg Reg.GLB_DIRSTAT, .block 0x1, .reg Reg.ORD_FWD, .reg Reg.ORD_LINEHOLD, .reg Reg.MIR_RBCUR, .reg Reg.ECC_SEALFAIL, .reg Reg.ECC_FIRSTFAIL, .reg Reg.LOG_RINGSTAT, .reg Reg.LOG_CAPTURED, .reg Reg.LOG_COALESCED, .reg Reg.LOG_LOST, .reg Reg.LOG_ORPHANS, .reg Reg.LOG_SQUALLS]

theorem execWriteA_keeps (p : Port) (r : HostReq) (s0 : State) :
    KeepsOut execWriteA_parts s0 (execWriteA p r s0) := by
  unfold execWriteA
  refine KeepsOut.next ?_
  refine Keeps.via (State.deliverHost_keeps _ _ _ _) rfl ?_
  exact Keeps.refl _ _

def execWriteD_parts : List Part := [.free, .log, .sb, .links, .twin, .ord, .mir, .sch, .reg Reg.GLB_EVENT, .reg Reg.GLB_DIRSTAT, .block 0x1, .reg Reg.ORD_FWD, .reg Reg.ORD_LINEHOLD, .reg Reg.MIR_RBCUR, .reg Reg.ECC_SEALFAIL, .reg Reg.ECC_FIRSTFAIL, .reg Reg.LOG_RINGSTAT, .reg Reg.LOG_CAPTURED, .reg Reg.LOG_COALESCED, .reg Reg.LOG_LOST, .reg Reg.LOG_ORPHANS, .reg Reg.LOG_SQUALLS]

theorem execWriteD_keeps (p : Port) (r : HostReq) (s0 : State) :
    KeepsOut execWriteD_parts s0 (execWriteD p r s0) := by
  unfold execWriteD
  refine KeepsOut.next ?_
  refine Keeps.via (State.deliverHost_keeps _ _ _ _) rfl ?_
  exact Keeps.refl _ _

def execMwriteA_parts : List Part := [.free, .log, .sb, .links, .twin, .ord, .mir, .sch, .reg Reg.GLB_EVENT, .reg Reg.GLB_DIRSTAT, .block 0x1, .reg Reg.ORD_FWD, .reg Reg.ORD_LINEHOLD, .reg Reg.MIR_RBCUR, .reg Reg.ECC_SEALFAIL, .reg Reg.ECC_FIRSTFAIL, .reg Reg.LOG_RINGSTAT, .reg Reg.LOG_CAPTURED, .reg Reg.LOG_COALESCED, .reg Reg.LOG_LOST, .reg Reg.LOG_ORPHANS, .reg Reg.LOG_SQUALLS]

theorem execMwriteA_keeps (p : Port) (r : HostReq) (s0 : State) :
    KeepsOut execMwriteA_parts s0 (execMwriteA p r s0) := by
  unfold execMwriteA
  refine KeepsOut.next ?_
  refine Keeps.via (State.deliverHost_keeps _ _ _ _) rfl ?_
  exact Keeps.refl _ _

def execMwriteD_parts : List Part := [.free, .log, .sb, .links, .twin, .ord, .mir, .sch, .reg Reg.GLB_EVENT, .reg Reg.GLB_DIRSTAT, .block 0x1, .reg Reg.ORD_FWD, .reg Reg.ORD_LINEHOLD, .reg Reg.MIR_RBCUR, .reg Reg.ECC_SEALFAIL, .reg Reg.ECC_FIRSTFAIL, .reg Reg.LOG_RINGSTAT, .reg Reg.LOG_CAPTURED, .reg Reg.LOG_COALESCED, .reg Reg.LOG_LOST, .reg Reg.LOG_ORPHANS, .reg Reg.LOG_SQUALLS]

theorem execMwriteD_keeps (p : Port) (r : HostReq) (s0 : State) :
    KeepsOut execMwriteD_parts s0 (execMwriteD p r s0) := by
  unfold execMwriteD
  refine KeepsOut.next ?_
  refine Keeps.via (State.deliverHost_keeps _ _ _ _) rfl ?_
  exact Keeps.refl _ _

def execFlush_parts : List Part := [.free, .log, .sb, .links, .twin, .ord, .mir, .sch, .reg Reg.GLB_EVENT, .reg Reg.GLB_DIRSTAT, .block 0x1, .reg Reg.ORD_FWD, .reg Reg.ORD_LINEHOLD, .reg Reg.MIR_RBCUR, .reg Reg.ECC_SEALFAIL, .reg Reg.ECC_FIRSTFAIL, .reg Reg.LOG_RINGSTAT, .reg Reg.LOG_CAPTURED, .reg Reg.LOG_COALESCED, .reg Reg.LOG_LOST, .reg Reg.LOG_ORPHANS, .reg Reg.LOG_SQUALLS]

theorem execFlush_keeps (p : Port) (r : HostReq) (s0 : State) :
    KeepsOut execFlush_parts s0 (execFlush p r s0) := by
  unfold execFlush
  refine KeepsOut.next ?_
  refine Keeps.via (State.deliverHost_keeps _ _ _ _) rfl ?_
  exact Keeps.refl _ _

def execDuplicateTag_parts : List Part := [.free, .log, .sb, .links, .twin, .ord, .mir, .sch, .reg Reg.GLB_EVENT, .reg Reg.GLB_DIRSTAT, .block 0x1, .reg Reg.ORD_FWD, .reg Reg.ORD_LINEHOLD, .reg Reg.MIR_RBCUR, .reg Reg.ECC_SEALFAIL, .reg Reg.ECC_FIRSTFAIL, .reg Reg.LOG_RINGSTAT, .reg Reg.LOG_CAPTURED, .reg Reg.LOG_COALESCED, .reg Reg.LOG_LOST, .reg Reg.LOG_ORPHANS, .reg Reg.LOG_SQUALLS]

theorem execDuplicateTag_keeps (p : Port) (op : HostOp) (r : HostReq) (s0 : State) :
    KeepsOut execDuplicateTag_parts s0 (execDuplicateTag p op r s0) := by
  unfold execDuplicateTag
  refine KeepsOut.next ?_
  refine Keeps.ite ?_ ?_
  · refine Keeps.via (State.deliverHost_keeps _ _ _ _) rfl ?_
    exact Keeps.refl _ _
  · exact Keeps.refl _ _

def State.malformedSlot_parts : List Part := [.log, .sb, .links, .twin, .ord, .mir, .sch, .reg Reg.GLB_EVENT, .reg Reg.GLB_DIRSTAT, .block 0x1, .reg Reg.ORD_FWD, .reg Reg.ORD_LINEHOLD, .reg Reg.MIR_RBCUR, .reg Reg.ECC_SEALFAIL, .reg Reg.ECC_FIRSTFAIL, .reg Reg.LOG_RINGSTAT, .reg Reg.LOG_CAPTURED, .reg Reg.LOG_COALESCED, .reg Reg.LOG_LOST, .reg Reg.LOG_ORPHANS, .reg Reg.LOG_SQUALLS]

theorem State.malformedSlot_keeps (s0 : State) (p : Port) (d : DataSlot) :
    Keeps State.malformedSlot_parts s0 (State.malformedSlot s0 p d) := by
  unfold State.malformedSlot
  extract_lets -lift -merge -useContext -underBinder +onlyGivenNames x0
  have h0 : Keeps State.malformedSlot_parts s0 x0 := by
    unfold x0
    refine Keeps.via (State.event_keeps _ _ _) rfl ?_
    refine Keeps.viaBlock (b := 1) (State.bump_keeps _ _ _) (fam_block _ _ _ _ rfl (by decide)) rfl ?_
    exact Keeps.refl _ _
  refine Keeps.ite ?_ ?_
  · extract_lets -lift -merge -useContext -underBinder +onlyGivenNames x1
    try clear_value x1
    refine Keeps.via (State.finishReq_keeps _ _ _) rfl ?_
    refine Keeps.via (State.owe_keeps _ _ _) rfl ?_
    refine Keeps.via (State.placeReq_keeps _ _ _ _) rfl ?_
    exact h0
  · split
    · refine Keeps.via (State.intakeReject_keeps _ _ _ _) rfl ?_
      exact h0
    · exact h0

def State.notePoison_parts : List Part := [.reg Reg.ECC_POISONIN]

theorem State.notePoison_keeps (s0 : State) (p : Port) (d : DataSlot) :
    Keeps State.notePoison_parts s0 (State.notePoison s0 p d) := by
  unfold State.notePoison
  refine Keeps.ite ?_ ?_
  · refine Keeps.ite ?_ ?_
    · refine Keeps.via (State.bumpF_keeps _ _ _) rfl ?_
      exact Keeps.refl _ _
    · refine Keeps.via (State.bumpF_keeps _ _ _) rfl ?_
      exact Keeps.refl _ _
  · exact Keeps.refl _ _

def execHostDataSlot_parts : List Part := [.log, .sb, .links, .twin, .ord, .mir, .sch, .reg Reg.GLB_EVENT, .reg Reg.GLB_DIRSTAT, .block 0x1, .reg Reg.ORD_FWD, .reg Reg.ORD_LINEHOLD, .reg Reg.MIR_RBCUR, .reg Reg.ECC_SEALFAIL, .reg Reg.ECC_POISONIN, .reg Reg.ECC_FIRSTFAIL, .reg Reg.LOG_RINGSTAT, .reg Reg.LOG_CAPTURED, .reg Reg.LOG_COALESCED, .reg Reg.LOG_LOST, .reg Reg.LOG_ORPHANS, .reg Reg.LOG_SQUALLS]

theorem execHostDataSlot_keeps (p : Port) (d : DataSlot) (s0 : State) :
    KeepsOut execHostDataSlot_parts s0 (execHostDataSlot p d s0) := by
  unfold execHostDataSlot
  refine KeepsOut.next ?_
  extract_lets -lift -merge -useContext -underBinder +onlyGivenNames x0
  try clear_value x0
  refine Keeps.ite ?_ ?_
  · exact Keeps.refl _ _
  · extract_lets -lift -merge -useContext -underBinder +onlyGivenNames x1
    have h1 : Keeps execHostDataSlot_parts s0 x1 := by
      unfold x1
      refine Keeps.via (State.notePoison_keeps _ _ _) rfl ?_
      exact Keeps.refl _ _
    refine Keeps.ite ?_ ?_
    · refine Keeps.via (State.malformedSlot_keeps _ _ _) rfl ?_
      exact h1
    · refine Keeps.ite ?_ ?_
      · refine Keeps.via (State.onLink_keeps _ _ _) rfl ?_
        exact h1
      · split
        · split
          · refine Keeps.ite ?_ ?_
            · refine Keeps.via (State.onLink_keeps _ _ _) rfl ?_
              exact h1
            · refine Keeps.via (State.intakeReject_keeps _ _ _ _) rfl ?_
              exact h1
          · exact h1
        · refine Keeps.via (State.onLink_keeps _ _ _) rfl ?_
          exact h1

def State.noteRefused_parts : List Part := [.mir]

theorem State.noteRefused_keeps (s0 : State) (gran : ℕ) :
    Keeps State.noteRefused_parts s0 (State.noteRefused s0 gran) := by
  unfold State.noteRefused
  refine Keeps.via (Keeps.upd_mir _ _) rfl ?_
  exact Keeps.refl _ _

def State.rejectLine_parts : List Part := [.log, .sb, .links, .twin, .ord, .mir, .sch, .reg Reg.GLB_EVENT, .reg Reg.GLB_DIRSTAT, .reg Reg.ORD_FWD, .reg Reg.ORD_LINEHOLD, .reg Reg.MIR_RBCUR, .reg Reg.ECC_SEALFAIL, .reg Reg.ECC_FIRSTFAIL, .reg Reg.LOG_RINGSTAT, .reg Reg.LOG_CAPTURED, .reg Reg.LOG_COALESCED, .reg Reg.LOG_LOST, .reg Reg.LOG_ORPHANS, .reg Reg.LOG_SQUALLS]

theorem State.rejectLine_keeps (s0 : State) (q : LaneReq) (form : BitVec 3) (reason : Byte) :
    Keeps State.rejectLine_parts s0 (State.rejectLine s0 q form reason) := by
  unfold State.rejectLine
  refine Keeps.ite ?_ ?_
  · exact Keeps.refl _ _
  · extract_lets -lift -merge -useContext -underBinder +onlyGivenNames x0
    have h0 : Keeps State.rejectLine_parts s0 x0 := by
      unfold x0
      refine Keeps.ite ?_ ?_
      · refine Keeps.via (State.noteRefused_keeps _ _) rfl ?_
        exact Keeps.refl _ _
      · exact Keeps.refl _ _
    extract_lets -lift -merge -useContext -underBinder +onlyGivenNames x1
    have h1 : Keeps State.rejectLine_parts s0 x1 := by
      unfold x1
      refine Keeps.via (State.finishReq_keeps _ _ _) rfl ?_
      exact h0
    extract_lets -lift -merge -useContext -underBinder +onlyGivenNames x2 x3
    have h3 : Keeps State.rejectLine_parts s0 x3 := by
      unfold x3
      refine Keeps.ite ?_ ?_
      · refine Keeps.via (Keeps.upd_twin _ _) rfl ?_
        exact h1
      · exact h1
    refine Keeps.via (State.owe_keeps _ _ _) rfl ?_
    refine Keeps.via (State.sendOwing_keeps _ _ _ _ _) rfl ?_
    exact h3

def State.expireReq_parts : List Part := [.log, .sb, .links, .twin, .ord, .mir, .sch, .reg Reg.GLB_EVENT, .reg Reg.GLB_DIRSTAT, .reg Reg.ORD_FWD, .reg Reg.ORD_LINEHOLD, .reg Reg.MIR_RBCUR, .reg Reg.ECC_SEALFAIL, .reg Reg.ECC_FIRSTFAIL, .reg Reg.LOG_RINGSTAT, .reg Reg.LOG_CAPTURED, .reg Reg.LOG_COALESCED, .reg Reg.LOG_LOST, .reg Reg.LOG_ORPHANS, .reg Reg.LOG_SQUALLS]

theorem State.expireReq_keeps (s0 : State) (p : Port) (q : LaneReq) :
    Keeps State.expireReq_parts s0 (State.expireReq s0 p q) := by
  unfold State.expireReq
  split
  · refine Keeps.via (State.intakeReject_keeps _ _ _ _) rfl ?_
    exact Keeps.refl _ _
  · extract_lets -lift -merge -useContext -underBinder +onlyGivenNames x0
    have h0 : Keeps State.expireReq_parts s0 x0 := by
      unfold x0
      refine Keeps.via (State.onLink_keeps _ _ _) rfl ?_
      exact Keeps.refl _ _
    refine Keeps.via (State.rejectLine_keeps _ _ _ _) rfl ?_
    refine Keeps.via (State.owe_keeps _ _ _) rfl ?_
    exact h0

def State.expireHalf_parts : List Part := [.free, .log, .sb, .links, .reg Reg.GLB_EVENT, .reg Reg.GLB_DIRSTAT, .block 0x1, .reg Reg.LOG_RINGSTAT, .reg Reg.LOG_CAPTURED, .reg Reg.LOG_COALESCED, .reg Reg.LOG_LOST, .reg Reg.LOG_ORPHANS, .reg Reg.LOG_SQUALLS]

theorem State.expireHalf_keeps (s0 : State) (p : Port) (h : Half) :
    Keeps State.expireHalf_parts s0 (State.expireHalf s0 p h) := by
  unfold State.expireHalf
  extract_lets -lift -merge -useContext -underBinder +onlyGivenNames x0
  have h0 : Keeps State.expireHalf_parts s0 x0 := by
    unfold x0
    refine Keeps.via (State.onLink_keeps _ _ _) rfl ?_
    exact Keeps.refl _ _
  refine Keeps.ite ?_ ?_
  · refine Keeps.via (State.freeEvent_keeps _ _) rfl ?_
    refine Keeps.viaBlock (b := 1) (State.bump_keeps _ _ _) (fam_block _ _ _ _ rfl (by decide)) rfl ?_
    exact h0
  · exact h0

def State.windowExpired_parts : List Part := [.free, .log, .sb, .links, .twin, .ord, .mir, .sch, .reg Reg.GLB_EVENT, .reg Reg.GLB_DIRSTAT, .block 0x1, .reg Reg.ORD_FWD, .reg Reg.ORD_LINEHOLD, .reg Reg.MIR_RBCUR, .reg Reg.ECC_SEALFAIL, .reg Reg.ECC_FIRSTFAIL, .reg Reg.LOG_RINGSTAT, .reg Reg.LOG_CAPTURED, .reg Reg.LOG_COALESCED, .reg Reg.LOG_LOST, .reg Reg.LOG_ORPHANS, .reg Reg.LOG_SQUALLS]

theorem State.windowExpired_keeps (s0 : State) (p : Port) (tag : BitVec 12) :
    Keeps State.windowExpired_parts s0 (State.windowExpired s0 p tag) := by
  unfold State.windowExpired
  split
  · refine Keeps.via (State.expireReq_keeps _ _ _) rfl ?_
    exact Keeps.refl _ _
  · split
    · refine Keeps.via (State.expireHalf_keeps _ _ _) rfl ?_
      exact Keeps.refl _ _
    · exact Keeps.refl _ _

def execPairingWindowExpired_parts : List Part := [.free, .log, .sb, .links, .twin, .ord, .mir, .sch, .reg Reg.GLB_EVENT, .reg Reg.GLB_DIRSTAT, .block 0x1, .reg Reg.ORD_FWD, .reg Reg.ORD_LINEHOLD, .reg Reg.MIR_RBCUR, .reg Reg.ECC_SEALFAIL, .reg Reg.ECC_FIRSTFAIL, .reg Reg.LOG_RINGSTAT, .reg Reg.LOG_CAPTURED, .reg Reg.LOG_COALESCED, .reg Reg.LOG_LOST, .reg Reg.LOG_ORPHANS, .reg Reg.LOG_SQUALLS]

theorem execPairingWindowExpired_keeps (p : Port) (tag : BitVec 12) (s0 : State) :
    KeepsOut execPairingWindowExpired_parts s0 (execPairingWindowExpired p tag s0) := by
  unfold execPairingWindowExpired
  refine KeepsOut.next ?_
  refine Keeps.ite ?_ ?_
  · refine Keeps.via (State.windowExpired_keeps _ _ _) rfl ?_
    exact Keeps.refl _ _
  · exact Keeps.refl _ _

def State.flitEnded_parts : List Part := [.free, .log, .sb, .links, .twin, .ord, .mir, .sch, .reg Reg.GLB_EVENT, .reg Reg.GLB_DIRSTAT, .block 0x1, .reg Reg.ORD_FWD, .reg Reg.ORD_LINEHOLD, .reg Reg.MIR_RBCUR, .reg Reg.ECC_SEALFAIL, .reg Reg.ECC_FIRSTFAIL, .reg Reg.LOG_RINGSTAT, .reg Reg.LOG_CAPTURED, .reg Reg.LOG_COALESCED, .reg Reg.LOG_LOST, .reg Reg.LOG_ORPHANS, .reg Reg.LOG_SQUALLS]

theorem State.flitEnded_keeps (s0 : State) (p : Port) :
    Keeps State.flitEnded_parts s0 (State.flitEnded s0 p) := by
  unfold State.flitEnded
  extract_lets -lift -merge -useContext -underBinder +onlyGivenNames x0
  have h0 : Keeps State.flitEnded_parts s0 x0 := by
    unfold x0
    refine Keeps.via (State.onLink_keeps _ _ _) rfl ?_
    exact Keeps.refl _ _
  extract_lets -lift -merge -useContext -underBinder +onlyGivenNames x1
  try clear_value x1
  extract_lets -lift -merge -useContext -underBinder +onlyGivenNames x2
  have h2 : Keeps State.flitEnded_parts s0 x2 := by
    unfold x2
    refine Keeps.foldl _ _ ?_ (fun t3 y3 h3 => ?_)
    · exact h0
    · refine Keeps.via (State.expireReq_keeps _ _ _) rfl ?_
      exact h3
  refine Keeps.foldl _ _ ?_ (fun t4 y4 h4 => ?_)
  · exact h2
  · refine Keeps.via (State.expireHalf_keeps _ _ _) rfl ?_
    exact h4

def State.sealStage_parts : List Part := [.log, .sb, .reg Reg.GLB_EVENT, .reg Reg.GLB_DIRSTAT, .reg Reg.ECC_SEALFAIL, .reg Reg.ECC_FIRSTFAIL, .reg Reg.LOG_RINGSTAT, .reg Reg.LOG_CAPTURED, .reg Reg.LOG_COALESCED, .reg Reg.LOG_LOST, .reg Reg.LOG_ORPHANS, .reg Reg.LOG_SQUALLS]

theorem State.sealStage_keeps (s0 : State) (p : Port) (q : LaneReq) :
    Keeps State.sealStage_parts s0 (State.sealStage s0 p q).1 := by
  unfold State.sealStage
  split
  · refine Keeps.iteL ?_ ?_
    · dsimp -zeta only
      exact Keeps.refl _ _
    · dsimp -zeta only
      refine Keeps.via (State.sealFail_keeps _ _ _ _ _) rfl ?_
      exact Keeps.refl _ _
  · dsimp -zeta only
    exact Keeps.refl _ _

def State.lookup_parts : List Part := [.free, .log, .sb, .links, .twin, .ord, .map, .mir, .sch, .reg Reg.GLB_EVENT, .reg Reg.GLB_DIRSTAT, .reg Reg.ORD_FWD, .reg Reg.ORD_LINEHOLD, .reg Reg.MAP_RTERR, .reg Reg.ECC_SEALFAIL, .reg Reg.ECC_FIRSTFAIL, .reg Reg.LOG_RINGSTAT, .reg Reg.LOG_CAPTURED, .reg Reg.LOG_COALESCED, .reg Reg.LOG_LOST, .reg Reg.LOG_ORPHANS, .reg Reg.LOG_SQUALLS]

theorem State.lookup_keeps (s0 : State) (region : ℕ) (found : EntryCheck) :
    Keeps State.lookup_parts s0 (State.lookup s0 region found) := by
  unfold State.lookup
  refine Keeps.ite ?_ ?_
  · exact Keeps.refl _ _
  · split
    · exact Keeps.refl _ _
    · refine Keeps.via (State.bumpF_keeps _ _ _) rfl ?_
      exact Keeps.refl _ _
    · extract_lets -lift -merge -useContext -underBinder +onlyGivenNames x0
      have h0 : Keeps State.lookup_parts s0 x0 := by
        unfold x0
        refine Keeps.via (State.freeEvent_keeps _ _) rfl ?_
        refine Keeps.via (State.bumpF_keeps _ _ _) rfl ?_
        exact Keeps.refl _ _
      extract_lets -lift -merge -useContext -underBinder +onlyGivenNames x1
      have h1 : Keeps State.lookup_parts s0 x1 := by
        unfold x1
        refine Keeps.via (State.deferTurn_keeps _ _) rfl ?_
        exact h0
      refine Keeps.via (State.reserveAsk_keeps _ _) rfl ?_
      refine Keeps.via (Keeps.upd_map _ _) rfl ?_
      exact h1

def State.countRej_parts : List Part := [.reg Reg.MAP_REJ]

theorem State.countRej_keeps (s0 : State) (reason : Byte) :
    Keeps State.countRej_parts s0 (State.countRej s0 reason) := by
  unfold State.countRej
  refine Keeps.ite ?_ ?_
  · refine Keeps.via (State.bumpF_keeps _ _ _) rfl ?_
    exact Keeps.refl _ _
  · refine Keeps.ite ?_ ?_
    · refine Keeps.via (State.bumpF_keeps _ _ _) rfl ?_
      exact Keeps.refl _ _
    · exact Keeps.refl _ _

def State.passMap_parts : List Part := [.ord]

theorem State.passMap_keeps (s0 : State) (p : Port) (q : LaneReq) (out : MapOut) :
    Keeps State.passMap_parts s0 (State.passMap s0 p q out) := by
  unfold State.passMap
  extract_lets -lift -merge -useContext -underBinder +onlyGivenNames x0
  try clear_value x0
  extract_lets -lift -merge -useContext -underBinder +onlyGivenNames x1
  try clear_value x1
  refine Keeps.via (Keeps.upd_ord _ _) rfl ?_
  exact Keeps.refl _ _

def State.turnAway_parts : List Part := [.log, .sb, .links, .twin, .ord, .mir, .sch, .reg Reg.GLB_EVENT, .reg Reg.GLB_DIRSTAT, .reg Reg.ORD_FWD, .reg Reg.ORD_LINEHOLD, .reg Reg.MAP_REJ, .reg Reg.MIR_RBCUR, .reg Reg.ECC_SEALFAIL, .reg Reg.ECC_FIRSTFAIL, .reg Reg.LOG_RINGSTAT, .reg Reg.LOG_CAPTURED, .reg Reg.LOG_COALESCED, .reg Reg.LOG_LOST, .reg Reg.LOG_ORPHANS, .reg Reg.LOG_SQUALLS]

theorem State.turnAway_keeps (s0 : State) (p : Port) (q : LaneReq) (reason : Byte) :
    Keeps State.turnAway_parts s0 (State.turnAway s0 p q reason) := by
  unfold State.turnAway
  split
  · refine Keeps.via (State.rejectHost_keeps _ _ _ _ _) rfl ?_
    refine Keeps.via (State.finishReq_keeps _ _ _) rfl ?_
    refine Keeps.via (State.countRej_keeps _ _) rfl ?_
    exact Keeps.refl _ _
  · refine Keeps.via (State.sendOwing_keeps _ _ _ _ _) rfl ?_
    refine Keeps.via (State.finishReq_keeps _ _ _) rfl ?_
    exact Keeps.refl _ _
  · refine Keeps.via (State.rejectLine_keeps _ _ _ _) rfl ?_
    refine Keeps.via (State.countRej_keeps _ _) rfl ?_
    exact Keeps.refl _ _

def State.mapReject_parts : List Part := [.log, .sb, .links, .twin, .ord, .mir, .sch, .reg Reg.GLB_EVENT, .reg Reg.GLB_DIRSTAT, .reg Reg.ORD_FWD, .reg Reg.ORD_LINEHOLD, .reg Reg.MAP_REJ, .reg Reg.MIR_RBCUR, .reg Reg.ECC_SEALFAIL, .reg Reg.ECC_FIRSTFAIL, .reg Reg.LOG_RINGSTAT, .reg Reg.LOG_CAPTURED, .reg Reg.LOG_COALESCED, .reg Reg.LOG_LOST, .reg Reg.LOG_ORPHANS, .reg Reg.LOG_SQUALLS]

theorem State.mapReject_keeps (s0 : State) (p : Port) (q : LaneReq) (reason : Byte) :
    Keeps State.mapReject_parts s0 (State.mapReject s0 p q reason) := by
  unfold State.mapReject
  refine Keeps.ite ?_ ?_
  · refine Keeps.via (State.passMap_keeps _ _ _ _) rfl ?_
    exact Keeps.refl _ _
  · refine Keeps.via (State.turnAway_keeps _ _ _ _) rfl ?_
    exact Keeps.refl _ _

def State.mapRepair_parts : List Part := [.log, .sb, .links, .twin, .ord, .mir, .sch, .reg Reg.GLB_EVENT, .reg Reg.GLB_DIRSTAT, .reg Reg.ORD_FWD, .reg Reg.ORD_LINEHOLD, .reg Reg.MAP_REJ, .reg Reg.MIR_RBCUR, .reg Reg.MIR_FWDRD, .reg Reg.ECC_SEALFAIL, .reg Reg.ECC_FIRSTFAIL, .reg Reg.ECC_REPAIR, .reg Reg.ECC_REPAIRW, .reg Reg.LOG_RINGSTAT, .reg Reg.LOG_CAPTURED, .reg Reg.LOG_COALESCED, .reg Reg.LOG_LOST, .reg Reg.LOG_ORPHANS, .reg Reg.LOG_SQUALLS]

theorem State.mapRepair_keeps (s0 : State) (q : LaneReq) (d : DataSlot) :
    Keeps State.mapRepair_parts s0 (State.mapRepair s0 q d) := by
  unfold State.mapRepair
  extract_lets -lift -merge -useContext -underBinder +onlyGivenNames x0
  try clear_value x0
  extract_lets -lift -merge -useContext -underBinder +onlyGivenNames x1
  try clear_value x1
  extract_lets -lift -merge -useContext -underBinder +onlyGivenNames x2
  try clear_value x2
  extract_lets -lift -merge -useContext -underBinder +onlyGivenNames x3
  try clear_value x3
  extract_lets -lift -merge -useContext -underBinder +onlyGivenNames x4
  try clear_value x4
  extract_lets -lift -merge -useContext -underBinder +onlyGivenNames x5
  have h5 : Keeps State.mapRepair_parts s0 x5 := by
    unfold x5
    refine Keeps.ite ?_ ?_
    · refine Keeps.via (State.repairArrives_keeps _ _ _ _) rfl ?_
      exact Keeps.refl _ _
    · refine Keeps.ite ?_ ?_
      · refine Keeps.via (State.freeStale_keeps _ _) rfl ?_
        exact Keeps.refl _ _
      · exact Keeps.refl _ _
  split
  · refine Keeps.via (State.mapReject_keeps _ _ _ _) rfl ?_
    exact h5
  · refine Keeps.ite ?_ ?_
    · refine Keeps.via (State.passMap_keeps _ _ _ _) rfl ?_
      exact h5
    · extract_lets -lift -merge -useContext -underBinder +onlyGivenNames x6
      have h6 : Keeps State.mapRepair_parts s0 x6 := by
        unfold x6
        refine Keeps.ite ?_ ?_
        · refine Keeps.via (State.bumpF_keeps _ _ _) rfl ?_
          exact h5
        · exact h5
      refine Keeps.via (State.owe_keeps _ _ _) rfl ?_
      refine Keeps.via (State.finishReq_keeps _ _ _) rfl ?_
      exact h6

def State.lookupFor_parts : List Part := [.free, .log, .sb, .links, .twin, .ord, .map, .mir, .sch, .reg Reg.GLB_EVENT, .reg Reg.GLB_DIRSTAT, .reg Reg.ORD_FWD, .reg Reg.ORD_LINEHOLD, .reg Reg.MAP_RTERR, .reg Reg.ECC_SEALFAIL, .reg Reg.ECC_FIRSTFAIL, .reg Reg.LOG_RINGSTAT, .reg Reg.LOG_CAPTURED, .reg Reg.LOG_COALESCED, .reg Reg.LOG_LOST, .reg Reg.LOG_ORPHANS, .reg Reg.LOG_SQUALLS]

theorem State.lookupFor_keeps (s0 : State) (q : LaneReq) (found : EntryCheck) :
    Keeps State.lookupFor_parts s0 (State.lookupFor s0 q found) := by
  unfold State.lookupFor
  split
  · refine Keeps.ite ?_ ?_
    · exact Keeps.refl _ _
    · refine Keeps.via (State.lookup_keeps _ _ _) rfl ?_
      exact Keeps.refl _ _
  · refine Keeps.ite ?_ ?_
    · refine Keeps.via (State.lookup_keeps _ _ _) rfl ?_
      exact Keeps.refl _ _
    · exact Keeps.refl _ _

def State.mapOne_parts : List Part := [.free, .log, .sb, .links, .twin, .ord, .map, .mir, .sch, .reg Reg.GLB_EVENT, .reg Reg.GLB_DIRSTAT, .reg Reg.ORD_FWD, .reg Reg.ORD_LINEHOLD, .reg Reg.MAP_RTERR, .reg Reg.MAP_REJ, .reg Reg.MIR_RBCUR, .reg Reg.MIR_FWDRD, .reg Reg.ECC_SEALFAIL, .reg Reg.ECC_FIRSTFAIL, .reg Reg.ECC_REPAIR, .reg Reg.ECC_REPAIRW, .reg Reg.LOG_RINGSTAT, .reg Reg.LOG_CAPTURED, .reg Reg.LOG_COALESCED, .reg Reg.LOG_LOST, .reg Reg.LOG_ORPHANS, .reg Reg.LOG_SQUALLS]

theorem State.mapOne_keeps (s0 : State) (p : Port) (q : LaneReq) (found : EntryCheck) :
    Keeps State.mapOne_parts s0 (State.mapOne s0 p q found) := by
  unfold State.mapOne
  extract_lets -lift -merge -useContext -underBinder +onlyGivenNames x0
  have h0 : Keeps State.mapOne_parts s0 x0 := by
    unfold x0
    refine Keeps.via (State.lookupFor_keeps _ _ _) rfl ?_
    exact Keeps.refl _ _
  split
  · split
    · refine Keeps.via (State.mapReject_keeps _ _ _ _) rfl ?_
      exact h0
    · refine Keeps.via (State.passMap_keeps _ _ _ _) rfl ?_
      exact h0
  · split
    · refine Keeps.via (State.mapRepair_keeps _ _ _) rfl ?_
      exact h0
    · exact h0
  · split
    · refine Keeps.via (State.mapReject_keeps _ _ _ _) rfl ?_
      exact h0
    · refine Keeps.via (State.passMap_keeps _ _ _ _) rfl ?_
      exact h0

def execMergePosition_parts : List Part := [.free, .log, .sb, .links, .twin, .ord, .map, .mir, .sch, .reg Reg.GLB_EVENT, .reg Reg.GLB_DIRSTAT, .reg Reg.ORD_FWD, .reg Reg.ORD_LINEHOLD, .reg Reg.MAP_RTERR, .reg Reg.MAP_REJ, .reg Reg.MIR_RBCUR, .reg Reg.MIR_FWDRD, .reg Reg.ECC_SEALFAIL, .reg Reg.ECC_FIRSTFAIL, .reg Reg.ECC_REPAIR, .reg Reg.ECC_REPAIRW, .reg Reg.LOG_RINGSTAT, .reg Reg.LOG_CAPTURED, .reg Reg.LOG_COALESCED, .reg Reg.LOG_LOST, .reg Reg.LOG_ORPHANS, .reg Reg.LOG_SQUALLS]

theorem execMergePosition_keeps (found : EntryCheck) (s0 : State) :
    KeepsOut execMergePosition_parts s0 (execMergePosition found s0) := by
  unfold execMergePosition
  refine KeepsOut.next ?_
  split
  · exact Keeps.refl _ _
  · split
    · exact Keeps.refl _ _
    · extract_lets -lift -merge -useContext -underBinder +onlyGivenNames x0
      have h0 : Keeps execMergePosition_parts s0 x0 := by
        unfold x0
        refine Keeps.via (State.onLink_keeps _ _ _) rfl ?_
        exact Keeps.refl _ _
      extract_lets -lift -merge -useContext -underBinder +onlyGivenNames x1 x2
      have h2 : Keeps execMergePosition_parts s0 x2 := by
        unfold x2
        refine Keeps.via (Keeps.upd_ord _ _) rfl ?_
        exact h0
      extract_lets -lift -merge -useContext -underBinder +onlyGivenNames x3
      have h3 : Keeps execMergePosition_parts s0 x3.1 := by
        unfold x3
        refine Keeps.via (State.sealStage_keeps _ _ _) rfl ?_
        refine Keeps.via (State.owe_keeps _ _ _) rfl ?_
        exact h2
      refine Keeps.via (State.mapOne_keeps _ _ _ _) rfl ?_
      exact h3

def execRegionEntryReloaded_parts : List Part := [.free, .log, .sb, .map, .reg Reg.GLB_EVENT, .reg Reg.GLB_DIRSTAT, .reg Reg.LOG_RINGSTAT, .reg Reg.LOG_CAPTURED, .reg Reg.LOG_COALESCED, .reg Reg.LOG_LOST, .reg Reg.LOG_ORPHANS, .reg Reg.LOG_SQUALLS]

theorem execRegionEntryReloaded_keeps (region : BitVec 18) (readable : Bool) (s0 : State) :
    KeepsOut execRegionEntryReloaded_parts s0 (execRegionEntryReloaded region readable s0) := by
  unfold execRegionEntryReloaded
  refine KeepsOut.next ?_
  extract_lets -lift -merge -useContext -underBinder +onlyGivenNames x0
  try clear_value x0
  extract_lets -lift -merge -useContext -underBinder +onlyGivenNames x1
  try clear_value x1
  refine Keeps.ite ?_ ?_
  · extract_lets -lift -merge -useContext -underBinder +onlyGivenNames x2
    try clear_value x2
    extract_lets -lift -merge -useContext -underBinder +onlyGivenNames x3
    try clear_value x3
    extract_lets -lift -merge -useContext -underBinder +onlyGivenNames x4 x5
    have h5 : Keeps execRegionEntryReloaded_parts s0 x5 := by
      unfold x5
      refine Keeps.via (Keeps.upd_map _ _) rfl ?_
      exact Keeps.refl _ _
    split
    · extract_lets -lift -merge -useContext -underBinder +onlyGivenNames x6
      try clear_value x6
      extract_lets -lift -merge -useContext -underBinder +onlyGivenNames x7 x8
      have h8 : Keeps execRegionEntryReloaded_parts s0 x8 := by
        unfold x8
        refine Keeps.via (Keeps.upd_map _ _) rfl ?_
        exact h5
      refine Keeps.foldl _ _ ?_ (fun t9 y9 h9 => ?_)
      · exact h8
      · refine Keeps.via (State.setRt_keeps _ _ _) rfl ?_
        exact h9
    · refine Keeps.via (State.freeEvent_keeps _ _) rfl ?_
      refine Keeps.via (Keeps.upd_map _ _) rfl ?_
      exact h5
  · exact Keeps.refl _ _

def State.noteWrite_parts : List Part := [.ord, .mir, .sch]

theorem State.noteWrite_keeps (s0 : State) (addr : ℕ) :
    Keeps State.noteWrite_parts s0 (State.noteWrite s0 addr) := by
  unfold State.noteWrite
  extract_lets -lift -merge -useContext -underBinder +onlyGivenNames x0
  try clear_value x0
  extract_lets -lift -merge -useContext -underBinder +onlyGivenNames x1
  try clear_value x1
  extract_lets -lift -merge -useContext -underBinder +onlyGivenNames x2
  have h2 : Keeps State.noteWrite_parts s0 x2 := by
    unfold x2
    refine Keeps.via (State.mapPool_keeps _ _) rfl ?_
    exact Keeps.refl _ _
  refine Keeps.via (Keeps.upd_ord_mir_sch _ _ _ _) rfl ?_
  exact h2

def State.enterPool_parts : List Part := [.ord, .reg Reg.ORD_POOLOCC, .reg Reg.ORD_WBOCC, .reg Reg.ORD_RBOCC]

theorem State.enterPool_keeps (s0 : State) (e : PoolEntry) :
    Keeps State.enterPool_parts s0 (State.enterPool s0 e).1 := by
  unfold State.enterPool
  extract_lets -lift -merge -useContext -underBinder +onlyGivenNames x0
  try clear_value x0
  extract_lets -lift -merge -useContext -underBinder +onlyGivenNames x1
  have h1 : Keeps State.enterPool_parts s0 x1 := by
    unfold x1
    refine Keeps.via (State.setEntry_keeps _ _ _) rfl ?_
    exact Keeps.refl _ _
  dsimp -zeta only
  refine Keeps.via (State.notePool_keeps _) rfl ?_
  refine Keeps.via (Keeps.upd_ord _ _) rfl ?_
  exact h1

def State.giveFork_parts : List Part := [.ord]

theorem State.giveFork_keeps (s0 : State) (i : ℕ) (sid : ℕ) (pair : BitVec 42) :
    Keeps State.giveFork_parts s0 (State.giveFork s0 i sid pair) := by
  unfold State.giveFork
  extract_lets -lift -merge -useContext -underBinder +onlyGivenNames x0
  try clear_value x0
  extract_lets -lift -merge -useContext -underBinder +onlyGivenNames x1
  have h1 : Keeps State.giveFork_parts s0 x1 := by
    unfold x1
    refine Keeps.via (State.onEntry_keeps _ _ _) rfl ?_
    exact Keeps.refl _ _
  extract_lets -lift -merge -useContext -underBinder +onlyGivenNames x2 x3
  have h3 : Keeps State.giveFork_parts s0 x3 := by
    unfold x3
    refine Keeps.via (State.setStream_keeps _ _ _) rfl ?_
    exact h1
  refine Keeps.via (Keeps.upd_ord _ _) rfl ?_
  exact h3

def State.acceptWrite_parts : List Part := [.links, .ord]

theorem State.acceptWrite_keeps (s0 : State) (i : ℕ) (p : Port) (op : HostOp) (q : LaneReq) (poison : Bool) (sid : ℕ) :
    Keeps State.acceptWrite_parts s0 (State.acceptWrite s0 i p op q poison sid) := by
  unfold State.acceptWrite
  extract_lets -lift -merge -useContext -underBinder +onlyGivenNames x0
  try clear_value x0
  refine Keeps.ite ?_ ?_
  · refine Keeps.via (State.complete_keeps _ _ _ _ _ _ _ _) rfl ?_
    exact Keeps.refl _ _
  · refine Keeps.ite ?_ ?_
    · refine Keeps.via (State.complete_keeps _ _ _ _ _ _ _ _) rfl ?_
      exact Keeps.refl _ _
    · extract_lets -lift -merge -useContext -underBinder +onlyGivenNames x1
      have h1 : Keeps State.acceptWrite_parts s0 x1 := by
        unfold x1
        refine Keeps.ite ?_ ?_
        · refine Keeps.via (State.complete_keeps _ _ _ _ _ _ _ _) rfl ?_
          exact Keeps.refl _ _
        · exact Keeps.refl _ _
      extract_lets -lift -merge -useContext -underBinder +onlyGivenNames x2
      try clear_value x2
      extract_lets -lift -merge -useContext -underBinder +onlyGivenNames x3
      have h3 : Keeps State.acceptWrite_parts s0 x3 := by
        unfold x3
        refine Keeps.via (State.onEntry_keeps _ _ _) rfl ?_
        exact h1
      refine Keeps.ite ?_ ?_
      · refine Keeps.via (State.complete_keeps _ _ _ _ _ _ _ _) rfl ?_
        refine Keeps.via (State.onEntry_keeps _ _ _) rfl ?_
        exact h3
      · refine Keeps.via (State.joinStream_keeps _ _ _) rfl ?_
        exact h3

def State.admitWrite_parts : List Part := [.log, .sb, .links, .twin, .ord, .mir, .sch, .reg Reg.GLB_EVENT, .reg Reg.GLB_DIRSTAT, .reg Reg.ORD_POOLOCC, .reg Reg.ORD_WBOCC, .reg Reg.ORD_RBOCC, .reg Reg.ORD_FWD, .reg Reg.ORD_LINEHOLD, .reg Reg.ORD_FLUSHES, .reg Reg.ECC_SEALFAIL, .reg Reg.ECC_FIRSTFAIL, .reg Reg.LOG_RINGSTAT, .reg Reg.LOG_CAPTURED, .reg Reg.LOG_COALESCED, .reg Reg.LOG_LOST, .reg Reg.LOG_ORPHANS, .reg Reg.LOG_SQUALLS]

theorem State.admitWrite_keeps (s0 : State) (m : Mapped) (op : HostOp) (d : DataSlot) (forked : Bool) :
    Keeps State.admitWrite_parts s0 (State.admitWrite s0 m op d forked) := by
  unfold State.admitWrite
  extract_lets -lift -merge -useContext -underBinder +onlyGivenNames x0
  try clear_value x0
  extract_lets -lift -merge -useContext -underBinder +onlyGivenNames x1
  have h1 : Keeps State.admitWrite_parts s0 x1 := by
    unfold x1
    refine Keeps.ite ?_ ?_
    · refine Keeps.via (State.mark_keeps _ _) rfl ?_
      exact Keeps.refl _ _
    · exact Keeps.refl _ _
  extract_lets -lift -merge -useContext -underBinder +onlyGivenNames x2
  have h2 : Keeps State.admitWrite_parts s0 x2 := by
    unfold x2
    refine Keeps.via (State.noteWrite_keeps _ _) rfl ?_
    exact h1
  extract_lets -lift -merge -useContext -underBinder +onlyGivenNames x3
  try clear_value x3
  extract_lets -lift -merge -useContext -underBinder +onlyGivenNames x4
  try clear_value x4
  extract_lets -lift -merge -useContext -underBinder +onlyGivenNames x5
  try clear_value x5
  extract_lets -lift -merge -useContext -underBinder +onlyGivenNames x6
  have h6 : Keeps State.admitWrite_parts s0 x6.1 := by
    unfold x6
    refine Keeps.via (State.enterPool_keeps _ _) rfl ?_
    exact h2
  extract_lets -lift -merge -useContext -underBinder +onlyGivenNames x7
  have h7 : Keeps State.admitWrite_parts s0 x7 := by
    unfold x7
    refine Keeps.ite ?_ ?_
    · exact h6
    · refine Keeps.via (State.owe_keeps _ _ _) rfl ?_
      exact h6
  extract_lets -lift -merge -useContext -underBinder +onlyGivenNames x8
  have h8 : Keeps State.admitWrite_parts s0 x8 := by
    unfold x8
    refine Keeps.ite ?_ ?_
    · refine Keeps.via (State.giveFork_keeps _ _ _ _) rfl ?_
      exact h7
    · exact h7
  extract_lets -lift -merge -useContext -underBinder +onlyGivenNames x9
  have h9 : Keeps State.admitWrite_parts s0 x9 := by
    unfold x9
    refine Keeps.via (State.acceptWrite_keeps _ _ _ _ _ _ _) rfl ?_
    exact h8
  refine Keeps.via (State.settle_keeps _) rfl ?_
  refine Keeps.via (State.startWrite_keeps _ _ _) rfl ?_
  exact h9

def State.admitRead_parts : List Part := [.log, .sb, .links, .twin, .ord, .mir, .sch, .reg Reg.GLB_EVENT, .reg Reg.GLB_DIRSTAT, .reg Reg.ORD_POOLOCC, .reg Reg.ORD_WBOCC, .reg Reg.ORD_RBOCC, .reg Reg.ORD_FWD, .reg Reg.ORD_LINEHOLD, .reg Reg.ECC_SEALFAIL, .reg Reg.ECC_FIRSTFAIL, .reg Reg.LOG_RINGSTAT, .reg Reg.LOG_CAPTURED, .reg Reg.LOG_COALESCED, .reg Reg.LOG_LOST, .reg Reg.LOG_ORPHANS, .reg Reg.LOG_SQUALLS]

theorem State.admitRead_keeps (s0 : State) (m : Mapped) (fwd : Bool) :
    Keeps State.admitRead_parts s0 (State.admitRead s0 m fwd) := by
  unfold State.admitRead
  extract_lets -lift -merge -useContext -underBinder +onlyGivenNames x0
  try clear_value x0
  extract_lets -lift -merge -useContext -underBinder +onlyGivenNames x1
  try clear_value x1
  extract_lets -lift -merge -useContext -underBinder +onlyGivenNames x2 x3
  have h3 : Keeps State.admitRead_parts s0 x3.1 := by
    unfold x3
    refine Keeps.via (State.enterPool_keeps _ _) rfl ?_
    refine Keeps.via (Keeps.upd_ord _ _) rfl ?_
    exact Keeps.refl _ _
  refine Keeps.ite ?_ ?_
  · refine Keeps.via (State.giveTag_keeps _ _) rfl ?_
    exact h3
  · extract_lets -lift -merge -useContext -underBinder +onlyGivenNames x4
    have h4 : Keeps State.admitRead_parts s0 x4.1 := by
      unfold x4
      refine Keeps.via (State.lookForLine_keeps _ _) rfl ?_
      exact h3
    refine Keeps.ite ?_ ?_
    · refine Keeps.via (State.toSchedule_keeps _ _) rfl ?_
      exact h4
    · exact h4

def State.admitFlush_parts : List Part := [.links, .ord, .reg Reg.ORD_POOLOCC, .reg Reg.ORD_WBOCC, .reg Reg.ORD_RBOCC, .reg Reg.ORD_FLUSHES]

theorem State.admitFlush_keeps (s0 : State) (m : Mapped) :
    Keeps State.admitFlush_parts s0 (State.admitFlush s0 m) := by
  unfold State.admitFlush
  extract_lets -lift -merge -useContext -underBinder +onlyGivenNames x0
  try clear_value x0
  extract_lets -lift -merge -useContext -underBinder +onlyGivenNames x1
  try clear_value x1
  extract_lets -lift -merge -useContext -underBinder +onlyGivenNames x2
  try clear_value x2
  extract_lets -lift -merge -useContext -underBinder +onlyGivenNames x3
  have h3 : Keeps State.admitFlush_parts s0 x3.1 := by
    unfold x3
    refine Keeps.via (State.enterPool_keeps _ _) rfl ?_
    exact Keeps.refl _ _
  extract_lets -lift -merge -useContext -underBinder +onlyGivenNames x4
  have h4 : Keeps State.admitFlush_parts s0 x4 := by
    unfold x4
    refine Keeps.via (State.joinStream_keeps _ _ _) rfl ?_
    exact h3
  refine Keeps.via (State.buildStream_keeps _ _ _) rfl ?_
  exact h4

def State.filterLine_parts : List Part := [.mir]

theorem State.filterLine_keeps (s0 : State) (m : Mapped) :
    Keeps State.filterLine_parts s0 (State.filterLine s0 m).1 := by
  unfold State.filterLine
  extract_lets -lift -merge -useContext -underBinder +onlyGivenNames x0
  try clear_value x0
  extract_lets -lift -merge -useContext -underBinder +onlyGivenNames x1
  try clear_value x1
  extract_lets -lift -merge -useContext -underBinder +onlyGivenNames x2
  try clear_value x2
  extract_lets -lift -merge -useContext -underBinder +onlyGivenNames x3
  try clear_value x3
  split
  · refine Keeps.iteL ?_ ?_
    · dsimp -zeta only
      refine Keeps.via (Keeps.upd_mir _ _) rfl ?_
      exact Keeps.refl _ _
    · dsimp -zeta only
      exact Keeps.refl _ _
  · dsimp -zeta only
    exact Keeps.refl _ _

def State.admitLine_parts : List Part := [.log, .sb, .links, .twin, .ord, .mir, .sch, .reg Reg.GLB_EVENT, .reg Reg.GLB_DIRSTAT, .reg Reg.ORD_POOLOCC, .reg Reg.ORD_WBOCC, .reg Reg.ORD_RBOCC, .reg Reg.ORD_FWD, .reg Reg.ORD_LINEHOLD, .reg Reg.MIR_RBCUR, .reg Reg.MIR_RBLINES, .reg Reg.MIR_FILTERED, .reg Reg.MIR_REPLADM, .reg Reg.ECC_SEALFAIL, .reg Reg.ECC_FIRSTFAIL, .reg Reg.ECC_REPAIRW, .reg Reg.LOG_RINGSTAT, .reg Reg.LOG_CAPTURED, .reg Reg.LOG_COALESCED, .reg Reg.LOG_LOST, .reg Reg.LOG_ORPHANS, .reg Reg.LOG_SQUALLS]

theorem State.admitLine_keeps (s0 : State) (m : Mapped) (d : DataSlot) :
    Keeps State.admitLine_parts s0 (State.admitLine s0 m d) := by
  unfold State.admitLine
  extract_lets -lift -merge -useContext -underBinder +onlyGivenNames x0
  try clear_value x0
  extract_lets -lift -merge -useContext -underBinder +onlyGivenNames x1
  have h1 : Keeps State.admitLine_parts s0 x1 := by
    unfold x1
    refine Keeps.via (State.owe_keeps _ _ _) rfl ?_
    refine Keeps.via (State.finishReq_keeps _ _ _) rfl ?_
    exact Keeps.refl _ _
  extract_lets -lift -merge -useContext -underBinder +onlyGivenNames x2 x3 x4 x5 x6
  have h2 : Keeps State.admitLine_parts s0 x2 := by
    unfold x2
    refine Keeps.via (State.bump_keeps _ _ _) rfl ?_
    exact h1
  have h4 : Keeps State.admitLine_parts s0 x4 := by
    unfold x4
    refine Keeps.via (Keeps.upd_twin _ _) rfl ?_
    exact h2
  have h6 : Keeps State.admitLine_parts s0 x6 := by
    unfold x6
    refine Keeps.ite ?_ ?_
    · refine Keeps.ite ?_ ?_
      · exact h4
      · refine Keeps.via (Keeps.upd_twin _ _) rfl ?_
        exact h4
    · refine Keeps.ite ?_ ?_
      · refine Keeps.via (State.bump_keeps _ _ _) rfl ?_
        exact h1
      · exact h1
  extract_lets -lift -merge -useContext -underBinder +onlyGivenNames x7
  have h7 : Keeps State.admitLine_parts s0 x7.1 := by
    unfold x7
    refine Keeps.via (State.filterLine_keeps _ _) rfl ?_
    exact h6
  refine Keeps.ite ?_ ?_
  · refine Keeps.via (State.owe_keeps _ _ _) rfl ?_
    refine Keeps.via (State.bump_keeps _ _ _) rfl ?_
    exact h7
  · refine Keeps.ite ?_ ?_
    · refine Keeps.via (State.owe_keeps _ _ _) rfl ?_
      refine Keeps.via (State.bumpF_keeps _ _ _) rfl ?_
      exact h7
    · extract_lets -lift -merge -useContext -underBinder +onlyGivenNames x8
      have h8 : Keeps State.admitLine_parts s0 x8 := by
        unfold x8
        refine Keeps.ite ?_ ?_
        · exact h7
        · refine Keeps.via (State.noteWrite_keeps _ _) rfl ?_
          exact h7
      extract_lets -lift -merge -useContext -underBinder +onlyGivenNames x9
      try clear_value x9
      extract_lets -lift -merge -useContext -underBinder +onlyGivenNames x10
      try clear_value x10
      extract_lets -lift -merge -useContext -underBinder +onlyGivenNames x11
      have h11 : Keeps State.admitLine_parts s0 x11.1 := by
        unfold x11
        refine Keeps.via (State.enterPool_keeps _ _) rfl ?_
        exact h8
      refine Keeps.via (State.watchPace_keeps _) rfl ?_
      refine Keeps.via (State.startWrite_keeps _ _ _) rfl ?_
      exact h11

def State.admitRepairReq_parts : List Part := [.log, .sb, .links, .twin, .ord, .mir, .sch, .reg Reg.GLB_EVENT, .reg Reg.GLB_DIRSTAT, .reg Reg.ORD_POOLOCC, .reg Reg.ORD_WBOCC, .reg Reg.ORD_RBOCC, .reg Reg.ORD_FWD, .reg Reg.ORD_LINEHOLD, .reg Reg.ECC_SEALFAIL, .reg Reg.ECC_FIRSTFAIL, .reg Reg.LOG_RINGSTAT, .reg Reg.LOG_CAPTURED, .reg Reg.LOG_COALESCED, .reg Reg.LOG_LOST, .reg Reg.LOG_ORPHANS, .reg Reg.LOG_SQUALLS]

theorem State.admitRepairReq_keeps (s0 : State) (m : Mapped) :
    Keeps State.admitRepairReq_parts s0 (State.admitRepairReq s0 m) := by
  unfold State.admitRepairReq
  extract_lets -lift -merge -useContext -underBinder +onlyGivenNames x0
  try clear_value x0
  extract_lets -lift -merge -useContext -underBinder +onlyGivenNames x1
  try clear_value x1
  extract_lets -lift -merge -useContext -underBinder +onlyGivenNames x2
  have h2 : Keeps State.admitRepairReq_parts s0 x2.1 := by
    unfold x2
    refine Keeps.via (State.enterPool_keeps _ _) rfl ?_
    exact Keeps.refl _ _
  extract_lets -lift -merge -useContext -underBinder +onlyGivenNames x3
  have h3 : Keeps State.admitRepairReq_parts s0 x3.1 := by
    unfold x3
    refine Keeps.via (State.lookForLine_keeps _ _) rfl ?_
    exact h2
  refine Keeps.ite ?_ ?_
  · refine Keeps.via (State.toSchedule_keeps _ _) rfl ?_
    exact h3
  · exact h3

def State.admitReq_parts : List Part := [.log, .sb, .links, .twin, .ord, .mir, .sch, .reg Reg.GLB_EVENT, .reg Reg.GLB_DIRSTAT, .reg Reg.ORD_POOLOCC, .reg Reg.ORD_WBOCC, .reg Reg.ORD_RBOCC, .reg Reg.ORD_FWD, .reg Reg.ORD_LINEHOLD, .reg Reg.ORD_FLUSHES, .reg Reg.MIR_RBCUR, .reg Reg.MIR_RBLINES, .reg Reg.MIR_FILTERED, .reg Reg.MIR_REPLADM, .reg Reg.ECC_SEALFAIL, .reg Reg.ECC_FIRSTFAIL, .reg Reg.ECC_REPAIRW, .reg Reg.LOG_RINGSTAT, .reg Reg.LOG_CAPTURED, .reg Reg.LOG_COALESCED, .reg Reg.LOG_LOST, .reg Reg.LOG_ORPHANS, .reg Reg.LOG_SQUALLS]

theorem State.admitReq_keeps (s0 : State) (m : Mapped) :
    Keeps State.admitReq_parts s0 (State.admitReq s0 m) := by
  unfold State.admitReq
  split
  · extract_lets -lift -merge -useContext -underBinder +onlyGivenNames x0
    have h0 : Keeps State.admitReq_parts s0 x0 := by
      unfold x0
      refine Keeps.via (State.finishReq_keeps _ _ _) rfl ?_
      exact Keeps.refl _ _
    refine Keeps.ite ?_ ?_
    · refine Keeps.via (State.admitRead_keeps _ _ _) rfl ?_
      exact h0
    · split
      · refine Keeps.via (State.admitWrite_keeps _ _ _ _ _) rfl ?_
        exact h0
      · exact h0
  · refine Keeps.via (State.admitRead_keeps _ _ _) rfl ?_
    refine Keeps.via (State.finishReq_keeps _ _ _) rfl ?_
    exact Keeps.refl _ _
  · refine Keeps.via (State.admitFlush_keeps _ _) rfl ?_
    refine Keeps.via (State.finishReq_keeps _ _ _) rfl ?_
    exact Keeps.refl _ _
  · refine Keeps.via (State.admitRepairReq_keeps _ _) rfl ?_
    refine Keeps.via (State.finishReq_keeps _ _ _) rfl ?_
    exact Keeps.refl _ _
  · split
    · refine Keeps.via (State.admitLine_keeps _ _ _) rfl ?_
      exact Keeps.refl _ _
    · exact Keeps.refl _ _

def State.rejectReady_parts : List Part := [.log, .sb, .links, .twin, .ord, .mir, .sch, .reg Reg.GLB_EVENT, .reg Reg.GLB_DIRSTAT, .reg Reg.ORD_FWD, .reg Reg.ORD_LINEHOLD, .reg Reg.MAP_REJ, .reg Reg.MIR_RBCUR, .reg Reg.ECC_SEALFAIL, .reg Reg.ECC_FIRSTFAIL, .reg Reg.LOG_RINGSTAT, .reg Reg.LOG_CAPTURED, .reg Reg.LOG_COALESCED, .reg Reg.LOG_LOST, .reg Reg.LOG_ORPHANS, .reg Reg.LOG_SQUALLS]

theorem State.rejectReady_keeps (a0 : ℕ) (s0 : State) :
    Keeps State.rejectReady_parts s0 (State.rejectReady a0 s0) := by
  induction a0 generalizing s0 with
  | zero =>
    rw [State.rejectReady.eq_1]
    exact Keeps.refl _ _
  | succ _ ih =>
    rw [State.rejectReady.eq_2]
    split
    · refine Keeps.trans ?_ (ih _)
      refine Keeps.via (State.turnAway_keeps _ _ _ _) rfl ?_
      refine Keeps.via (Keeps.upd_ord _ _) rfl ?_
      exact Keeps.refl _ _
    · exact Keeps.refl _ _

def execOrderAdmit_parts : List Part := [.log, .sb, .links, .twin, .ord, .mir, .sch, .reg Reg.GLB_EVENT, .reg Reg.GLB_DIRSTAT, .reg Reg.ORD_POOLOCC, .reg Reg.ORD_WBOCC, .reg Reg.ORD_RBOCC, .reg Reg.ORD_FWD, .reg Reg.ORD_LINEHOLD, .reg Reg.ORD_FLUSHES, .reg Reg.MAP_REJ, .reg Reg.MIR_DIVMISS, .reg Reg.MIR_RBCUR, .reg Reg.MIR_RBLINES, .reg Reg.MIR_FILTERED, .reg Reg.MIR_REPLADM, .reg Reg.ECC_SEALFAIL, .reg Reg.ECC_FIRSTFAIL, .reg Reg.ECC_REPAIRW, .reg Reg.LOG_RINGSTAT, .reg Reg.LOG_CAPTURED, .reg Reg.LOG_COALESCED, .reg Reg.LOG_LOST, .reg Reg.LOG_ORPHANS, .reg Reg.LOG_SQUALLS]

theorem execOrderAdmit_keeps (s0 : State) :
    KeepsOut execOrderAdmit_parts s0 (execOrderAdmit s0) := by
  unfold execOrderAdmit
  refine KeepsOut.next ?_
  refine Keeps.ite ?_ ?_
  · exact Keeps.refl _ _
  · extract_lets -lift -merge -useContext -underBinder +onlyGivenNames x0
    try clear_value x0
    split
    · refine Keeps.ite ?_ ?_
      · extract_lets -lift -merge -useContext -underBinder +onlyGivenNames x1 x2
        have h2 : Keeps execOrderAdmit_parts s0 x2 := by
          unfold x2
          refine Keeps.via (Keeps.upd_ord _ _) rfl ?_
          exact Keeps.refl _ _
        extract_lets -lift -merge -useContext -underBinder +onlyGivenNames x3
        try clear_value x3
        refine Keeps.ite ?_ ?_
        · exact h2
        · refine Keeps.via (State.reserveAsk_keeps _ _) rfl ?_
          refine Keeps.via (State.bump_keeps _ _ _) rfl ?_
          exact h2
      · extract_lets -lift -merge -useContext -underBinder +onlyGivenNames x4 x5
        have h5 : Keeps execOrderAdmit_parts s0 x5 := by
          unfold x5
          refine Keeps.via (Keeps.upd_ord _ _) rfl ?_
          exact Keeps.refl _ _
        extract_lets -lift -merge -useContext -underBinder +onlyGivenNames x6
        have h6 : Keeps execOrderAdmit_parts s0 x6 := by
          unfold x6
          refine Keeps.via (State.admitReq_keeps _ _) rfl ?_
          exact h5
        refine Keeps.via (State.rejectReady_keeps _ _) rfl ?_
        exact h6
    · exact Keeps.refl _ _

def execBitmapLineFill_parts : List Part := [.mir]

theorem execBitmapLineFill_keeps (bitmapLine : BitVec 15) (s0 : State) :
    KeepsOut execBitmapLineFill_parts s0 (execBitmapLineFill bitmapLine s0) := by
  unfold execBitmapLineFill
  refine KeepsOut.next ?_
  refine Keeps.ite ?_ ?_
  · exact Keeps.refl _ _
  · refine Keeps.via (State.cacheLine_keeps _ _) rfl ?_
    exact Keeps.refl _ _

def execForkReplica_parts : List Part := [.log, .sb, .links, .twin, .ord, .mir, .sch, .reg Reg.GLB_EVENT, .reg Reg.GLB_DIRSTAT, .reg Reg.MIR_RBLINES, .reg Reg.MIR_PENDOCC, .reg Reg.MIR_REPLSENT, .reg Reg.ECC_SEALFAIL, .reg Reg.ECC_FIRSTFAIL, .reg Reg.LOG_RINGSTAT, .reg Reg.LOG_CAPTURED, .reg Reg.LOG_COALESCED, .reg Reg.LOG_LOST, .reg Reg.LOG_ORPHANS, .reg Reg.LOG_SQUALLS]

theorem execForkReplica_keeps (s0 : State) :
    KeepsOut execForkReplica_parts s0 (execForkReplica s0) := by
  unfold execForkReplica
  refine KeepsOut.next ?_
  split
  · exact Keeps.refl _ _
  · extract_lets -lift -merge -useContext -underBinder +onlyGivenNames x0
    have h0 : Keeps execForkReplica_parts s0 x0 := by
      unfold x0
      refine Keeps.ite ?_ ?_
      · refine Keeps.getD ?_ ?_
        · refine KeepsOpt.via (State.pumpLine_keeps _) rfl ?_
          exact Keeps.refl _ _
        · exact Keeps.refl _ _
      · exact Keeps.refl _ _
    refine Keeps.ite ?_ ?_
    · exact h0
    · split
      · refine Keeps.via (Keeps.upd_ord _ _) rfl ?_
        exact h0
      · refine Keeps.ite ?_ ?_
        · exact h0
        · extract_lets -lift -merge -useContext -underBinder +onlyGivenNames x1
          have h1 : Keeps execForkReplica_parts s0 x1 := by
            unfold x1
            refine Keeps.via (State.beatFirst_keeps _) rfl ?_
            exact h0
          extract_lets -lift -merge -useContext -underBinder +onlyGivenNames x2
          try clear_value x2
          extract_lets -lift -merge -useContext -underBinder +onlyGivenNames x3
          have h3 : Keeps execForkReplica_parts s0 x3 := by
            unfold x3
            refine Keeps.ite ?_ ?_
            · refine Keeps.via (State.sealFail_keeps _ _ _ _ _) rfl ?_
              exact h1
            · exact h1
          extract_lets -lift -merge -useContext -underBinder +onlyGivenNames x4
          try clear_value x4
          extract_lets -lift -merge -useContext -underBinder +onlyGivenNames x5
          try clear_value x5
          extract_lets -lift -merge -useContext -underBinder +onlyGivenNames x6
          try clear_value x6
          extract_lets -lift -merge -useContext -underBinder +onlyGivenNames x7
          try clear_value x7
          extract_lets -lift -merge -useContext -underBinder +onlyGivenNames x8
          try clear_value x8
          extract_lets -lift -merge -useContext -underBinder +onlyGivenNames x9
          try clear_value x9
          extract_lets -lift -merge -useContext -underBinder +onlyGivenNames x10 x11 x12 x13
          have h13 : Keeps execForkReplica_parts s0 x13 := by
            unfold x13
            refine Keeps.via (Keeps.upd_twin_ord_mir _ _ _ _) rfl ?_
            exact h3
          extract_lets -lift -merge -useContext -underBinder +onlyGivenNames x14
          have h14 : Keeps execForkReplica_parts s0 x14 := by
            unfold x14
            refine Keeps.via (State.noteHigh_keeps _ _ _) rfl ?_
            refine Keeps.via (State.bump_keeps _ _ _) rfl ?_
            refine Keeps.via (State.noteTaken_keeps _ _) rfl ?_
            exact h13
          extract_lets -lift -merge -useContext -underBinder +onlyGivenNames x15
          have h15 : Keeps execForkReplica_parts s0 x15 := by
            unfold x15
            refine Keeps.via (State.onLink_keeps _ _ _) rfl ?_
            exact h14
          extract_lets -lift -merge -useContext -underBinder +onlyGivenNames x16
          have h16 : Keeps execForkReplica_parts s0 x16 := by
            unfold x16
            refine Keeps.via (State.toSchedule_keeps _ _) rfl ?_
            refine Keeps.via (State.onEntry_keeps _ _ _) rfl ?_
            exact h15
          refine Keeps.via (State.pumpLines_keeps _ _) rfl ?_
          exact h16

def execForkNotSent_parts : List Part := [.log, .sb, .links, .twin, .ord, .mir, .sch, .reg Reg.GLB_EVENT, .reg Reg.GLB_DIRSTAT, .reg Reg.ORD_FWD, .reg Reg.ORD_LINEHOLD, .reg Reg.MIR_PENDOCC, .reg Reg.ECC_SEALFAIL, .reg Reg.ECC_FIRSTFAIL, .reg Reg.LOG_RINGSTAT, .reg Reg.LOG_CAPTURED, .reg Reg.LOG_COALESCED, .reg Reg.LOG_LOST, .reg Reg.LOG_ORPHANS, .reg Reg.LOG_SQUALLS]

theorem execForkNotSent_keeps (s0 : State) :
    KeepsOut execForkNotSent_parts s0 (execForkNotSent s0) := by
  unfold execForkNotSent
  refine KeepsOut.next ?_
  split
  · exact Keeps.refl _ _
  · refine Keeps.ite ?_ ?_
    · exact Keeps.refl _ _
    · split
      · refine Keeps.via (Keeps.upd_ord _ _) rfl ?_
        exact Keeps.refl _ _
      · extract_lets -lift -merge -useContext -underBinder +onlyGivenNames x0 x1
        have h1 : Keeps execForkNotSent_parts s0 x1 := by
          unfold x1
          refine Keeps.via (State.mark_keeps _ _) rfl ?_
          refine Keeps.via (Keeps.upd_ord _ _) rfl ?_
          exact Keeps.refl _ _
        extract_lets -lift -merge -useContext -underBinder +onlyGivenNames x2
        try clear_value x2
        extract_lets -lift -merge -useContext -underBinder +onlyGivenNames x3
        try clear_value x3
        extract_lets -lift -merge -useContext -underBinder +onlyGivenNames x4 x5 x6
        have h6 : Keeps execForkNotSent_parts s0 x6 := by
          unfold x6
          refine Keeps.ite ?_ ?_
          · split
            · refine Keeps.via (State.owe_keeps _ _ _) rfl ?_
              exact h1
            · exact h1
          · refine Keeps.via (State.noteHigh_keeps _ _ _) rfl ?_
            refine Keeps.via (Keeps.upd_mir _ _) rfl ?_
            exact h1
        refine Keeps.via (State.toSchedule_keeps _ _) rfl ?_
        refine Keeps.via (State.onEntry_keeps _ _ _) rfl ?_
        exact h6

def State.checkDrained_parts : List Part := [.log, .sb, .reg Reg.GLB_EVENT, .reg Reg.GLB_DIRSTAT, .reg Reg.GLB_QUIESCE, .reg Reg.LOG_RINGSTAT, .reg Reg.LOG_CAPTURED, .reg Reg.LOG_COALESCED, .reg Reg.LOG_LOST, .reg Reg.LOG_ORPHANS, .reg Reg.LOG_SQUALLS]

theorem State.checkDrained_keeps (s0 : State) :
    Keeps State.checkDrained_parts s0 (State.checkDrained s0) := by
  unfold State.checkDrained
  extract_lets -lift -merge -useContext -underBinder +onlyGivenNames x0
  try clear_value x0
  refine Keeps.ite ?_ ?_
  · exact Keeps.refl _ _
  · refine Keeps.ite ?_ ?_
    · exact Keeps.refl _ _
    · refine Keeps.via (State.event_keeps _ _ _) rfl ?_
      refine Keeps.via (State.setFld_keeps _ _ _) rfl ?_
      refine Keeps.via (State.setFld_keeps _ _ _) rfl ?_
      exact Keeps.refl _ _

def State.entered_parts : List Part := [.links, .ord, .reg Reg.ECC_POISONOUT]

theorem State.entered_keeps (s0 : State) (it : RetItem) :
    Keeps State.entered_parts s0 (State.entered s0 it) := by
  unfold State.entered
  extract_lets -lift -merge -useContext -underBinder +onlyGivenNames x0
  have h0 : ∀ q0 z1, Keeps State.entered_parts q0 (x0 q0 z1) := by
    intro q0 z1
    unfold x0
    refine Keeps.via (State.onLink_keeps _ _ _) rfl ?_
    exact Keeps.refl _ _
  extract_lets -lift -merge -useContext -underBinder +onlyGivenNames x1
  try clear_value x1
  extract_lets -lift -merge -useContext -underBinder +onlyGivenNames x2 x3
  have h3 : Keeps State.entered_parts s0 x3 := by
    unfold x3
    refine Keeps.ite ?_ ?_
    · refine Keeps.via (Keeps.upd_ord _ _) rfl ?_
      exact Keeps.refl _ _
    · exact Keeps.refl _ _
  split
  · extract_lets -lift -merge -useContext -underBinder +onlyGivenNames x4
    have h4 : Keeps State.entered_parts s0 x4 := by
      unfold x4
      refine Keeps.trans ?_ (h0 _ _)
      refine Keeps.ite ?_ ?_
      · refine Keeps.via (State.bumpF_keeps _ _ _) rfl ?_
        exact h3
      · exact h3
    extract_lets -lift -merge -useContext -underBinder +onlyGivenNames x5
    have h5 : Keeps State.entered_parts s0 x5 := by
      unfold x5
      split
      · refine Keeps.via (State.freeEntry_keeps _ _) rfl ?_
        exact h4
      · exact h4
    refine Keeps.via (State.owe_keeps _ _ _) rfl ?_
    exact h5
  · extract_lets -lift -merge -useContext -underBinder +onlyGivenNames x6
    have h6 : Keeps State.entered_parts s0 x6 := by
      unfold x6
      refine Keeps.ite ?_ ?_
      · refine Keeps.via (State.bumpF_keeps _ _ _) rfl ?_
        exact h3
      · exact h3
    extract_lets -lift -merge -useContext -underBinder +onlyGivenNames x7
    have h7 : Keeps State.entered_parts s0 x7 := by
      unfold x7
      refine Keeps.ite ?_ ?_
      · refine Keeps.trans ?_ (h0 _ _)
        exact h6
      · exact h6
    extract_lets -lift -merge -useContext -underBinder +onlyGivenNames x8
    have h8 : Keeps State.entered_parts s0 x8 := by
      unfold x8
      split
      · split
        · refine Keeps.ite ?_ ?_
          · refine Keeps.via (State.freeEntry_keeps _ _) rfl ?_
            exact h7
          · refine Keeps.ite ?_ ?_
            · refine Keeps.via (State.tryFree_keeps _ _) rfl ?_
              refine Keeps.via (State.onEntry_keeps _ _ _) rfl ?_
              exact h7
            · exact h7
        · exact h7
      · exact h7
    refine Keeps.via (State.owe_keeps _ _ _) rfl ?_
    exact h8

def execCompletionSend_parts : List Part := [.log, .sb, .links, .ord, .reg Reg.GLB_EVENT, .reg Reg.GLB_DIRSTAT, .reg Reg.GLB_QUIESCE, .reg Reg.ECC_POISONOUT, .reg Reg.LOG_RINGSTAT, .reg Reg.LOG_CAPTURED, .reg Reg.LOG_COALESCED, .reg Reg.LOG_LOST, .reg Reg.LOG_ORPHANS, .reg Reg.LOG_SQUALLS]

theorem execCompletionSend_keeps (p : Port) (s0 : State) :
    KeepsOut execCompletionSend_parts s0 (execCompletionSend p s0) := by
  unfold execCompletionSend
  refine KeepsOut.next ?_
  extract_lets -lift -merge -useContext -underBinder +onlyGivenNames x0
  try clear_value x0
  refine Keeps.ite ?_ ?_
  · exact Keeps.refl _ _
  · split
    · exact Keeps.refl _ _
    · extract_lets -lift -merge -useContext -underBinder +onlyGivenNames x1
      try clear_value x1
      split
      · extract_lets -lift -merge -useContext -underBinder +onlyGivenNames x2 x3 x4
        have h2 : Keeps execCompletionSend_parts s0 x2 := by
          unfold x2
          refine Keeps.via (State.setLink_keeps _ _ _) rfl ?_
          exact Keeps.refl _ _
        have h4 : Keeps execCompletionSend_parts s0 x4 := by
          unfold x4
          refine Keeps.via (Keeps.upd_ord _ _) rfl ?_
          exact h2
        refine Keeps.via (State.checkDrained_keeps _) rfl ?_
        refine Keeps.foldl _ _ ?_ (fun t5 y5 h5 => ?_)
        · exact h4
        · refine Keeps.via (State.entered_keeps _ _) rfl ?_
          exact h5
      · exact Keeps.refl _ _

end Sys2Proof.Machine
end

