-- ==== Sys2Proof/Laws/KeepsMirror.lean ====
section
/-!
SUPPORT. The frames of the operations of Machine/Mirror.lean: the parts of the state each may change, and that each keeps the canonical
form. A proof of a frame cites these and unfolds nothing.
-/

namespace Sys2Proof.Machine

def State.laneLine_parts : List Part := [.links, .twin, .reg Reg.ECC_POISONIN]

theorem State.laneLine_keeps (s0 : State) (kind : LaneKind) (d : DataSlot) (mask : Option (BitVec 64)) :
    Keeps State.laneLine_parts s0 (State.laneLine s0 kind d mask) := by
  unfold State.laneLine
  extract_lets -lift -merge -useContext -underBinder +onlyGivenNames x0
  try clear_value x0
  extract_lets -lift -merge -useContext -underBinder +onlyGivenNames x1
  try clear_value x1
  extract_lets -lift -merge -useContext -underBinder +onlyGivenNames x2
  have h2 : Keeps State.laneLine_parts s0 x2 := by
    unfold x2
    refine Keeps.via (State.notePoison_keeps _ _ _) rfl ?_
    refine Keeps.via (State.placeReq_keeps _ _ _ _) rfl ?_
    exact Keeps.refl _ _
  extract_lets -lift -merge -useContext -underBinder +onlyGivenNames x3 x4
  have h4 : Keeps State.laneLine_parts s0 x4 := by
    unfold x4
    refine Keeps.ite ?_ ?_
    · refine Keeps.via (Keeps.upd_twin _ _) rfl ?_
      exact h2
    · exact h2
  extract_lets -lift -merge -useContext -underBinder +onlyGivenNames x5
  try clear_value x5
  refine Keeps.via (State.onLink_keeps _ _ _) rfl ?_
  exact h4

def State.deliverLine_parts : List Part := [.free, .log, .sb, .links, .twin, .ord, .mir, .sch, .reg Reg.GLB_EVENT, .reg Reg.GLB_DIRSTAT, .block 0x1, .reg Reg.ORD_FWD, .reg Reg.ORD_LINEHOLD, .reg Reg.MIR_RBCUR, .reg Reg.ECC_SEALFAIL, .reg Reg.ECC_POISONIN, .reg Reg.ECC_FIRSTFAIL, .reg Reg.LOG_RINGSTAT, .reg Reg.LOG_CAPTURED, .reg Reg.LOG_COALESCED, .reg Reg.LOG_LOST, .reg Reg.LOG_ORPHANS, .reg Reg.LOG_SQUALLS]

theorem State.deliverLine_keeps (s0 : State) (kind : LaneKind) (form : ℕ) (d : DataSlot) :
    Keeps State.deliverLine_parts s0 (State.deliverLine s0 kind form d) := by
  unfold State.deliverLine
  extract_lets -lift -merge -useContext -underBinder +onlyGivenNames x0
  try clear_value x0
  refine Keeps.ite ?_ ?_
  · exact Keeps.refl _ _
  · refine Keeps.ite ?_ ?_
    · refine Keeps.via (State.overrun_keeps _ _ _ _) rfl ?_
      exact Keeps.refl _ _
    · refine Keeps.ite ?_ ?_
      · refine Keeps.via (State.malformedSlot_keeps _ _ _) rfl ?_
        exact Keeps.refl _ _
      · refine Keeps.ite ?_ ?_
        · refine Keeps.ite ?_ ?_
          · extract_lets -lift -merge -useContext -underBinder +onlyGivenNames x1
            try clear_value x1
            extract_lets -lift -merge -useContext -underBinder +onlyGivenNames x2
            have h2 : Keeps State.deliverLine_parts s0 x2 := by
              unfold x2
              refine Keeps.via (State.laneLine_keeps _ _ _ _) rfl ?_
              exact Keeps.refl _ _
            split
            · extract_lets -lift -merge -useContext -underBinder +onlyGivenNames x3
              have h3 : Keeps State.deliverLine_parts s0 x3 := by
                unfold x3
                refine Keeps.via (State.onLink_keeps _ _ _) rfl ?_
                exact h2
              refine Keeps.via (State.rejectLine_keeps _ _ _ _) rfl ?_
              refine Keeps.via (State.owe_keeps _ _ _) rfl ?_
              exact h3
            · exact h2
          · extract_lets -lift -merge -useContext -underBinder +onlyGivenNames x4
            try clear_value x4
            extract_lets -lift -merge -useContext -underBinder +onlyGivenNames x5
            have h5 : Keeps State.deliverLine_parts s0 x5 := by
              unfold x5
              refine Keeps.via (State.onLink_keeps _ _ _) rfl ?_
              exact Keeps.refl _ _
            refine Keeps.via (State.laneLine_keeps _ _ _ _) rfl ?_
            exact h5
        · refine Keeps.via (State.laneLine_keeps _ _ _ _) rfl ?_
          exact Keeps.refl _ _

def execReplicaSlot_parts : List Part := [.free, .log, .sb, .links, .twin, .ord, .mir, .sch, .reg Reg.GLB_EVENT, .reg Reg.GLB_DIRSTAT, .block 0x1, .reg Reg.ORD_FWD, .reg Reg.ORD_LINEHOLD, .reg Reg.MIR_RBCUR, .reg Reg.ECC_SEALFAIL, .reg Reg.ECC_POISONIN, .reg Reg.ECC_FIRSTFAIL, .reg Reg.LOG_RINGSTAT, .reg Reg.LOG_CAPTURED, .reg Reg.LOG_COALESCED, .reg Reg.LOG_LOST, .reg Reg.LOG_ORPHANS, .reg Reg.LOG_SQUALLS]

theorem execReplicaSlot_keeps (d : DataSlot) (s0 : State) :
    KeepsOut execReplicaSlot_parts s0 (execReplicaSlot d s0) := by
  unfold execReplicaSlot
  refine KeepsOut.next ?_
  refine Keeps.via (State.deliverLine_keeps _ _ _ _) rfl ?_
  exact Keeps.refl _ _

def execRebuildLineSlot_parts : List Part := [.free, .log, .sb, .links, .twin, .ord, .mir, .sch, .reg Reg.GLB_EVENT, .reg Reg.GLB_DIRSTAT, .block 0x1, .reg Reg.ORD_FWD, .reg Reg.ORD_LINEHOLD, .reg Reg.MIR_RBCUR, .reg Reg.ECC_SEALFAIL, .reg Reg.ECC_POISONIN, .reg Reg.ECC_FIRSTFAIL, .reg Reg.LOG_RINGSTAT, .reg Reg.LOG_CAPTURED, .reg Reg.LOG_COALESCED, .reg Reg.LOG_LOST, .reg Reg.LOG_ORPHANS, .reg Reg.LOG_SQUALLS]

theorem execRebuildLineSlot_keeps (d : DataSlot) (s0 : State) :
    KeepsOut execRebuildLineSlot_parts s0 (execRebuildLineSlot d s0) := by
  unfold execRebuildLineSlot
  refine KeepsOut.next ?_
  refine Keeps.via (State.deliverLine_keeps _ _ _ _) rfl ?_
  exact Keeps.refl _ _

def execRepairLineSlot_parts : List Part := [.free, .log, .sb, .links, .twin, .ord, .mir, .sch, .reg Reg.GLB_EVENT, .reg Reg.GLB_DIRSTAT, .block 0x1, .reg Reg.ORD_FWD, .reg Reg.ORD_LINEHOLD, .reg Reg.MIR_RBCUR, .reg Reg.ECC_SEALFAIL, .reg Reg.ECC_POISONIN, .reg Reg.ECC_FIRSTFAIL, .reg Reg.LOG_RINGSTAT, .reg Reg.LOG_CAPTURED, .reg Reg.LOG_COALESCED, .reg Reg.LOG_LOST, .reg Reg.LOG_ORPHANS, .reg Reg.LOG_SQUALLS]

theorem execRepairLineSlot_keeps (d : DataSlot) (s0 : State) :
    KeepsOut execRepairLineSlot_parts s0 (execRepairLineSlot d s0) := by
  unfold execRepairLineSlot
  refine KeepsOut.next ?_
  refine Keeps.via (State.deliverLine_keeps _ _ _ _) rfl ?_
  exact Keeps.refl _ _

def execMask_parts : List Part := [.free, .log, .sb, .links, .reg Reg.GLB_EVENT, .reg Reg.GLB_DIRSTAT, .block 0x1, .reg Reg.LOG_RINGSTAT, .reg Reg.LOG_CAPTURED, .reg Reg.LOG_COALESCED, .reg Reg.LOG_LOST, .reg Reg.LOG_ORPHANS, .reg Reg.LOG_SQUALLS]

theorem execMask_keeps (tag : BitVec 12) (byteMask : BitVec 64) (s0 : State) :
    KeepsOut execMask_parts s0 (execMask tag byteMask s0) := by
  unfold execMask
  refine KeepsOut.next ?_
  refine Keeps.ite ?_ ?_
  · exact Keeps.refl _ _
  · unfold State.ifFeat
    refine Keeps.ite ?_ ?_
    · split
      · refine Keeps.via (State.onLink_keeps _ _ _) rfl ?_
        exact Keeps.refl _ _
      · refine Keeps.via (State.onLink_keeps _ _ _) rfl ?_
        exact Keeps.refl _ _
    · refine Keeps.via (State.badMsg_keeps _ _ _) rfl ?_
      exact Keeps.refl _ _

def execRepairReq_parts : List Part := [.free, .log, .sb, .links, .twin, .ord, .mir, .sch, .reg Reg.GLB_EVENT, .reg Reg.GLB_DIRSTAT, .block 0x1, .reg Reg.ORD_FWD, .reg Reg.ORD_LINEHOLD, .reg Reg.MIR_RBCUR, .reg Reg.ECC_SEALFAIL, .reg Reg.ECC_FIRSTFAIL, .reg Reg.LOG_RINGSTAT, .reg Reg.LOG_CAPTURED, .reg Reg.LOG_COALESCED, .reg Reg.LOG_LOST, .reg Reg.LOG_ORPHANS, .reg Reg.LOG_SQUALLS]

theorem execRepairReq_keeps (tag : BitVec 12) (epoch : Word) (addr : BitVec 42) (s0 : State) :
    KeepsOut execRepairReq_parts s0 (execRepairReq tag epoch addr s0) := by
  unfold execRepairReq
  refine KeepsOut.next ?_
  extract_lets -lift -merge -useContext -underBinder +onlyGivenNames x0
  try clear_value x0
  extract_lets -lift -merge -useContext -underBinder +onlyGivenNames x1
  try clear_value x1
  refine Keeps.ite ?_ ?_
  · refine Keeps.ite ?_ ?_
    · refine Keeps.via (State.overrun_keeps _ _ _ _) rfl ?_
      exact Keeps.refl _ _
    · exact Keeps.refl _ _
  · unfold State.ifFeat
    refine Keeps.ite ?_ ?_
    · refine Keeps.ite ?_ ?_
      · refine Keeps.via (State.overrun_keeps _ _ _ _) rfl ?_
        exact Keeps.refl _ _
      · extract_lets -lift -merge -useContext -underBinder +onlyGivenNames x2
        try clear_value x2
        refine Keeps.via (State.onLink_keeps _ _ _) rfl ?_
        refine Keeps.via (State.placeReq_keeps _ _ _ _) rfl ?_
        exact Keeps.refl _ _
    · refine Keeps.via (State.badMsg_keeps _ _ _) rfl ?_
      exact Keeps.refl _ _

def State.pumpHandovers_parts : List Part := [.links, .map, .mir]

theorem State.pumpHandovers_keeps (s0 : State) :
    Keeps State.pumpHandovers_parts s0 (State.pumpHandovers s0) := by
  unfold State.pumpHandovers
  refine Keeps.foldl _ _ ?_ (fun t0 y0 h0 => ?_)
  · exact Keeps.refl _ _
  · split
    · refine Keeps.ite ?_ ?_
      · extract_lets -lift -merge -useContext -underBinder +onlyGivenNames x1
        try clear_value x1
        extract_lets -lift -merge -useContext -underBinder +onlyGivenNames x2
        have h2 : Keeps State.pumpHandovers_parts s0 x2 := by
          unfold x2
          refine Keeps.via (State.setRt_keeps _ _ _) rfl ?_
          exact h0
        extract_lets -lift -merge -useContext -underBinder +onlyGivenNames x3
        try clear_value x3
        refine Keeps.via (State.sendOwing_keeps _ _ _ _ _) rfl ?_
        refine Keeps.via (Keeps.upd_mir _ _) rfl ?_
        exact h2
      · exact h0
    · exact h0

def State.closeSent_parts : List Part := [.links, .ord, .map, .mir, .reg Reg.ORD_FLUSHES]

theorem State.closeSent_keeps (s0 : State) (f : PendEntry → Bool) :
    Keeps State.closeSent_parts s0 (State.closeSent s0 f) := by
  unfold State.closeSent
  extract_lets -lift -merge -useContext -underBinder +onlyGivenNames x0
  try clear_value x0
  extract_lets -lift -merge -useContext -underBinder +onlyGivenNames x1 x2
  have h2 : Keeps State.closeSent_parts s0 x2 := by
    unfold x2
    refine Keeps.via (Keeps.upd_mir _ _) rfl ?_
    exact Keeps.refl _ _
  extract_lets -lift -merge -useContext -underBinder +onlyGivenNames x3
  try clear_value x3
  extract_lets -lift -merge -useContext -underBinder +onlyGivenNames x4 x5
  have h5 : Keeps State.closeSent_parts s0 x5 := by
    unfold x5
    refine Keeps.via (Keeps.upd_ord _ _) rfl ?_
    exact h2
  extract_lets -lift -merge -useContext -underBinder +onlyGivenNames x6
  have h6 : Keeps State.closeSent_parts s0 x6 := by
    unfold x6
    refine Keeps.foldl _ _ ?_ (fun t7 y7 h7 => ?_)
    · exact h5
    · split
      · refine Keeps.via (State.onEntry_keeps _ _ _) rfl ?_
        exact h7
      · exact h7
  refine Keeps.via (State.pumpHandovers_keeps _) rfl ?_
  refine Keeps.via (State.settle_keeps _) rfl ?_
  exact h6

def State.ackBad_parts : List Part := [.log, .sb, .links, .twin, .ord, .map, .mir, .sch, .reg Reg.GLB_EVENT, .reg Reg.GLB_DIRSTAT, .reg Reg.ORD_FWD, .reg Reg.ORD_LINEHOLD, .reg Reg.ORD_FLUSHES, .reg Reg.MIR_CAUSE, .reg Reg.MIR_PENDOCC, .reg Reg.MIR_ACKBAD, .reg Reg.MIR_HOSTAT, .reg Reg.MIR_HOCNT, .reg Reg.ECC_SEALFAIL, .reg Reg.ECC_FIRSTFAIL, .reg Reg.LOG_RINGSTAT, .reg Reg.LOG_CAPTURED, .reg Reg.LOG_COALESCED, .reg Reg.LOG_LOST, .reg Reg.LOG_ORPHANS, .reg Reg.LOG_SQUALLS]

theorem State.ackBad_keeps (s0 : State) (data : ℕ) :
    Keeps State.ackBad_parts s0 (State.ackBad s0 data) := by
  unfold State.ackBad
  refine Keeps.via (State.raiseCause_keeps _ _) rfl ?_
  refine Keeps.via (State.event_keeps _ _ _) rfl ?_
  refine Keeps.via (State.bump_keeps _ _ _) rfl ?_
  exact Keeps.refl _ _

def execAckRange_parts : List Part := [.free, .log, .sb, .links, .twin, .ord, .map, .mir, .sch, .reg Reg.GLB_EVENT, .reg Reg.GLB_DIRSTAT, .block 0x1, .reg Reg.ORD_FWD, .reg Reg.ORD_LINEHOLD, .reg Reg.ORD_FLUSHES, .reg Reg.MIR_CAUSE, .reg Reg.MIR_PENDOCC, .reg Reg.MIR_ACKBAD, .reg Reg.MIR_HOSTAT, .reg Reg.MIR_HOCNT, .reg Reg.ECC_SEALFAIL, .reg Reg.ECC_FIRSTFAIL, .reg Reg.LOG_RINGSTAT, .reg Reg.LOG_CAPTURED, .reg Reg.LOG_COALESCED, .reg Reg.LOG_LOST, .reg Reg.LOG_ORPHANS, .reg Reg.LOG_SQUALLS]

theorem execAckRange_keeps (epoch : Word) (through : Word) (s0 : State) :
    KeepsOut execAckRange_parts s0 (execAckRange epoch through s0) := by
  unfold execAckRange
  refine KeepsOut.next ?_
  refine Keeps.ite ?_ ?_
  · exact Keeps.refl _ _
  · unfold State.ifFeat
    refine Keeps.ite ?_ ?_
    · extract_lets -lift -merge -useContext -underBinder +onlyGivenNames x0
      try clear_value x0
      refine Keeps.ite ?_ ?_
      · refine Keeps.via (State.bump_keeps _ _ _) rfl ?_
        exact Keeps.refl _ _
      · refine Keeps.ite ?_ ?_
        · refine Keeps.via (State.ackBad_keeps _ _) rfl ?_
          exact Keeps.refl _ _
        · refine Keeps.via (State.closeSent_keeps _ _) rfl ?_
          refine Keeps.via (Keeps.upd_twin _ _) rfl ?_
          exact Keeps.refl _ _
    · refine Keeps.via (State.badMsg_keeps _ _ _) rfl ?_
      exact Keeps.refl _ _

def execAckLines_parts : List Part := [.free, .log, .sb, .links, .twin, .ord, .map, .mir, .sch, .reg Reg.GLB_EVENT, .reg Reg.GLB_DIRSTAT, .block 0x1, .reg Reg.ORD_FWD, .reg Reg.ORD_LINEHOLD, .reg Reg.ORD_FLUSHES, .reg Reg.MIR_CAUSE, .reg Reg.MIR_PENDOCC, .reg Reg.MIR_ACKBAD, .reg Reg.MIR_HOSTAT, .reg Reg.MIR_HOCNT, .reg Reg.ECC_SEALFAIL, .reg Reg.ECC_FIRSTFAIL, .reg Reg.LOG_RINGSTAT, .reg Reg.LOG_CAPTURED, .reg Reg.LOG_COALESCED, .reg Reg.LOG_LOST, .reg Reg.LOG_ORPHANS, .reg Reg.LOG_SQUALLS]

theorem execAckLines_keeps (tags : List (BitVec 12)) (s0 : State) :
    KeepsOut execAckLines_parts s0 (execAckLines tags s0) := by
  unfold execAckLines
  refine KeepsOut.next ?_
  refine Keeps.ite ?_ ?_
  · exact Keeps.refl _ _
  · refine Keeps.ite ?_ ?_
    · refine Keeps.via (State.badMsg_keeps _ _ _) rfl ?_
      exact Keeps.refl _ _
    · split
      · refine Keeps.via (State.ackBad_keeps _ _) rfl ?_
        exact Keeps.refl _ _
      · refine Keeps.via (State.closeSent_keeps _ _) rfl ?_
        exact Keeps.refl _ _

def execReplicaRej_parts : List Part := [.free, .log, .sb, .links, .twin, .ord, .map, .mir, .sch, .reg Reg.GLB_EVENT, .reg Reg.GLB_DIRSTAT, .block 0x1, .reg Reg.ORD_FWD, .reg Reg.ORD_LINEHOLD, .reg Reg.ORD_FLUSHES, .reg Reg.MIR_CAUSE, .reg Reg.MIR_PENDOCC, .reg Reg.MIR_REPLREJ, .reg Reg.MIR_ACKBAD, .reg Reg.MIR_HOSTAT, .reg Reg.MIR_HOCNT, .reg Reg.ECC_SEALFAIL, .reg Reg.ECC_FIRSTFAIL, .reg Reg.ECC_REPAIRW, .reg Reg.LOG_RINGSTAT, .reg Reg.LOG_CAPTURED, .reg Reg.LOG_COALESCED, .reg Reg.LOG_LOST, .reg Reg.LOG_ORPHANS, .reg Reg.LOG_SQUALLS]

theorem execReplicaRej_keeps (tag : BitVec 12) (form : BitVec 3) (reason : Byte) (epoch : Word) (addr : BitVec 42) (s0 : State) :
    KeepsOut execReplicaRej_parts s0 (execReplicaRej tag form reason epoch addr s0) := by
  unfold execReplicaRej
  refine KeepsOut.next ?_
  refine Keeps.ite ?_ ?_
  · exact Keeps.refl _ _
  · refine Keeps.ite ?_ ?_
    · refine Keeps.via (State.badMsg_keeps _ _ _) rfl ?_
      exact Keeps.refl _ _
    · refine Keeps.ite ?_ ?_
      · refine Keeps.via (State.bump_keeps _ _ _) rfl ?_
        exact Keeps.refl _ _
      · split
        · split
          · refine Keeps.ite ?_ ?_
            · extract_lets -lift -merge -useContext -underBinder +onlyGivenNames x0 x1
              have h1 : Keeps execReplicaRej_parts s0 x1 := by
                unfold x1
                refine Keeps.via (Keeps.upd_mir _ _) rfl ?_
                exact Keeps.refl _ _
              extract_lets -lift -merge -useContext -underBinder +onlyGivenNames x2
              have h2 : Keeps execReplicaRej_parts s0 x2 := by
                unfold x2
                refine Keeps.via (State.bump_keeps _ _ _) rfl ?_
                refine Keeps.via (State.mark_keeps _ _) rfl ?_
                exact h1
              refine Keeps.via (State.pumpHandovers_keeps _) rfl ?_
              refine Keeps.via (State.raiseCause_keeps _ _) rfl ?_
              refine Keeps.via (State.event_keeps _ _ _) rfl ?_
              exact h2
            · refine Keeps.via (State.ackBad_keeps _ _) rfl ?_
              exact Keeps.refl _ _
          · refine Keeps.via (State.ackBad_keeps _ _) rfl ?_
            exact Keeps.refl _ _
        · refine Keeps.via (State.bumpF_keeps _ _ _) rfl ?_
          exact Keeps.refl _ _
        · extract_lets -lift -merge -useContext -underBinder +onlyGivenNames x3
          try clear_value x3
          refine Keeps.via (Keeps.upd_mir _ _) rfl ?_
          exact Keeps.refl _ _
        · exact Keeps.refl _ _

def execAckIntervalExpiry_parts : List Part := [.links, .twin]

theorem execAckIntervalExpiry_keeps (s0 : State) :
    KeepsOut execAckIntervalExpiry_parts s0 (execAckIntervalExpiry s0) := by
  unfold execAckIntervalExpiry
  refine KeepsOut.next ?_
  refine Keeps.ite ?_ ?_
  · refine Keeps.via (State.send_keeps _ _ _) rfl ?_
    refine Keeps.via (Keeps.upd_twin _ _) rfl ?_
    exact Keeps.refl _ _
  · exact Keeps.refl _ _

def execAckLinesSend_parts : List Part := [.links, .twin]

theorem execAckLinesSend_keeps (s0 : State) :
    KeepsOut execAckLinesSend_parts s0 (execAckLinesSend s0) := by
  unfold execAckLinesSend
  refine KeepsOut.next ?_
  refine Keeps.ite ?_ ?_
  · refine Keeps.via (State.send_keeps _ _ _) rfl ?_
    refine Keeps.via (Keeps.upd_twin _ _) rfl ?_
    exact Keeps.refl _ _
  · exact Keeps.refl _ _

def execAckTimeout_parts : List Part := [.log, .sb, .links, .twin, .ord, .map, .mir, .sch, .reg Reg.GLB_EVENT, .reg Reg.GLB_DIRSTAT, .reg Reg.ORD_FWD, .reg Reg.ORD_LINEHOLD, .reg Reg.ORD_FLUSHES, .reg Reg.MIR_CAUSE, .reg Reg.MIR_PENDOCC, .reg Reg.MIR_HOSTAT, .reg Reg.MIR_HOCNT, .reg Reg.ECC_SEALFAIL, .reg Reg.ECC_FIRSTFAIL, .reg Reg.LOG_RINGSTAT, .reg Reg.LOG_CAPTURED, .reg Reg.LOG_COALESCED, .reg Reg.LOG_LOST, .reg Reg.LOG_ORPHANS, .reg Reg.LOG_SQUALLS]

theorem execAckTimeout_keeps (s0 : State) :
    KeepsOut execAckTimeout_parts s0 (execAckTimeout s0) := by
  unfold execAckTimeout
  refine KeepsOut.next ?_
  split
  · refine Keeps.via (State.raiseCause_keeps _ _) rfl ?_
    refine Keeps.via (State.event_keeps _ _ _) rfl ?_
    exact Keeps.refl _ _
  · exact Keeps.refl _ _

def State.rejectStream_parts : List Part := [.links, .ord]

theorem State.rejectStream_keeps (reason : Byte) (sid : ℕ) (a2 : ℕ) (s0 : State) :
    Keeps State.rejectStream_parts s0 (State.rejectStream reason sid a2 s0) := by
  induction a2 generalizing reason sid s0 with
  | zero =>
    rw [State.rejectStream.eq_1]
    exact Keeps.refl _ _
  | succ _ ih =>
    rw [State.rejectStream.eq_2]
    refine Keeps.ite ?_ ?_
    · exact Keeps.refl _ _
    · split
      · extract_lets -lift -merge -useContext -underBinder +onlyGivenNames x0
        have h0 : Keeps State.rejectStream_parts s0 x0 := by
          unfold x0
          refine Keeps.via (State.onEntry_keeps _ _ _) rfl ?_
          refine Keeps.via (State.leaveStream_keeps _ _) rfl ?_
          exact Keeps.refl _ _
        extract_lets -lift -merge -useContext -underBinder +onlyGivenNames x1
        have h1 : Keeps State.rejectStream_parts s0 x1 := by
          unfold x1
          refine Keeps.via (State.toReturn_keeps _ _ _) rfl ?_
          exact h0
        refine Keeps.trans ?_ (ih _ _ _)
        exact h1
      · exact Keeps.refl _ _

def State.rejectMapped_parts : List Part := [.log, .sb, .links, .twin, .ord, .mir, .sch, .reg Reg.GLB_EVENT, .reg Reg.GLB_DIRSTAT, .reg Reg.ORD_FWD, .reg Reg.ORD_LINEHOLD, .reg Reg.MAP_REJ, .reg Reg.MIR_RBCUR, .reg Reg.ECC_SEALFAIL, .reg Reg.ECC_FIRSTFAIL, .reg Reg.LOG_RINGSTAT, .reg Reg.LOG_CAPTURED, .reg Reg.LOG_COALESCED, .reg Reg.LOG_LOST, .reg Reg.LOG_ORPHANS, .reg Reg.LOG_SQUALLS]

theorem State.rejectMapped_keeps (s0 : State) (reason : Byte) :
    Keeps State.rejectMapped_parts s0 (State.rejectMapped s0 reason) := by
  unfold State.rejectMapped
  extract_lets -lift -merge -useContext -underBinder +onlyGivenNames x0
  try clear_value x0
  extract_lets -lift -merge -useContext -underBinder +onlyGivenNames x1
  try clear_value x1
  refine Keeps.foldl _ _ ?_ (fun t2 y2 h2 => ?_)
  · refine Keeps.via (Keeps.upd_ord _ _) rfl ?_
    exact Keeps.refl _ _
  · split
    · extract_lets -lift -merge -useContext -underBinder +onlyGivenNames x3
      have h3 : Keeps State.rejectMapped_parts s0 x3 := by
        unfold x3
        split
        · refine Keeps.via (State.countRej_keeps _ _) rfl ?_
          exact h2
        · exact h2
      refine Keeps.via (State.rejectHost_keeps _ _ _ _ _) rfl ?_
      refine Keeps.via (State.finishReq_keeps _ _ _) rfl ?_
      exact h3
    · exact h2

def State.fence_parts : List Part := [.rx, .top, .log, .sb, .links, .twin, .ord, .map, .mir, .sch, .flt, .cal, .pwr, .boot, .reg Reg.GLB_HUBID, .reg Reg.GLB_EVENT, .reg Reg.GLB_DIRSTAT, .reg Reg.GLB_QUIESCE, .block 0x1, .reg Reg.ORD_FWD, .reg Reg.ORD_LINEHOLD, .reg Reg.ORD_FLUSHES, .reg Reg.MAP_REJ, .reg Reg.MIR_CAUSE, .reg Reg.MIR_RBCUR, .reg Reg.MIR_PENDOCC, .reg Reg.MIR_FWDMISS, .reg Reg.MIR_HOSTAT, .reg Reg.MIR_HOCNT, .reg Reg.DPH_RETSTAT, .reg Reg.ECC_SEALFAIL, .reg Reg.ECC_FIRSTFAIL, .reg Reg.ECC_REPAIR, .reg Reg.LOG_RINGSTAT, .reg Reg.LOG_CAPTURED, .reg Reg.LOG_COALESCED, .reg Reg.LOG_LOST, .reg Reg.LOG_ORPHANS, .reg Reg.LOG_SQUALLS]

theorem State.fence_keeps (s0 : State) (epoch : Word) :
    Keeps State.fence_parts s0 (State.fence s0 epoch) := by
  unfold State.fence
  refine Keeps.ite ?_ ?_
  · exact Keeps.refl _ _
  · split
    · extract_lets -lift -merge -useContext -underBinder +onlyGivenNames x0
      have h0 : Keeps State.fence_parts s0 x0 := by
        unfold x0
        refine Keeps.via (State.endSession_keeps _) rfl ?_
        refine Keeps.via (State.abandonAll_keeps _) rfl ?_
        exact Keeps.refl _ _
      extract_lets -lift -merge -useContext -underBinder +onlyGivenNames x1 x2
      have h2 : Keeps State.fence_parts s0 x2 := by
        unfold x2
        refine Keeps.via (Keeps.upd_mir _ _) rfl ?_
        exact h0
      extract_lets -lift -merge -useContext -underBinder +onlyGivenNames x3
      have h3 : Keeps State.fence_parts s0 x3 := by
        unfold x3
        refine Keeps.via (State.setPair_keeps _ _) rfl ?_
        exact h2
      extract_lets -lift -merge -useContext -underBinder +onlyGivenNames x4
      have h4 : Keeps State.fence_parts s0 x4 := by
        unfold x4
        refine Keeps.via (State.dropBacklog_keeps _ _) rfl ?_
        refine Keeps.via (State.closePend_keeps _) rfl ?_
        exact h3
      extract_lets -lift -merge -useContext -underBinder +onlyGivenNames x5
      have h5 : Keeps State.fence_parts s0 x5 := by
        unfold x5
        refine Keeps.foldl _ _ ?_ (fun t6 y6 h6 => ?_)
        · exact h4
        · refine Keeps.via (State.rejectStream_keeps _ _ _ _) rfl ?_
          exact h6
      extract_lets -lift -merge -useContext -underBinder +onlyGivenNames x7
      have h7 : Keeps State.fence_parts s0 x7 := by
        unfold x7
        refine Keeps.via (State.rejectMapped_keeps _ _) rfl ?_
        exact h5
      extract_lets -lift -merge -useContext -underBinder +onlyGivenNames x8
      have h8 : Keeps State.fence_parts s0 x8 := by
        unfold x8
        refine Keeps.via (State.event_keeps _ _ _) rfl ?_
        refine Keeps.via (State.clearCause_keeps _) rfl ?_
        exact h7
      refine Keeps.ite ?_ ?_
      · refine Keeps.via (State.goTo_keeps _ _ _) rfl ?_
        exact h8
      · exact h8
    · extract_lets -lift -merge -useContext -underBinder +onlyGivenNames x9
      have h9 : Keeps State.fence_parts s0 x9 := by
        unfold x9
        refine Keeps.via (State.endSession_keeps _) rfl ?_
        refine Keeps.via (State.abandonAll_keeps _) rfl ?_
        exact Keeps.refl _ _
      extract_lets -lift -merge -useContext -underBinder +onlyGivenNames x10 x11
      have h11 : Keeps State.fence_parts s0 x11 := by
        unfold x11
        refine Keeps.via (Keeps.upd_mir _ _) rfl ?_
        exact h9
      extract_lets -lift -merge -useContext -underBinder +onlyGivenNames x12
      have h12 : Keeps State.fence_parts s0 x12 := by
        unfold x12
        refine Keeps.via (State.setPair_keeps _ _) rfl ?_
        exact h11
      extract_lets -lift -merge -useContext -underBinder +onlyGivenNames x13
      have h13 : Keeps State.fence_parts s0 x13 := by
        unfold x13
        refine Keeps.via (State.dropBacklog_keeps _ _) rfl ?_
        refine Keeps.via (State.closePend_keeps _) rfl ?_
        exact h12
      extract_lets -lift -merge -useContext -underBinder +onlyGivenNames x14
      have h14 : Keeps State.fence_parts s0 x14 := by
        unfold x14
        refine Keeps.foldl _ _ ?_ (fun t15 y15 h15 => ?_)
        · exact h13
        · refine Keeps.via (State.rejectStream_keeps _ _ _ _) rfl ?_
          exact h15
      extract_lets -lift -merge -useContext -underBinder +onlyGivenNames x16
      have h16 : Keeps State.fence_parts s0 x16 := by
        unfold x16
        refine Keeps.via (State.rejectMapped_keeps _ _) rfl ?_
        exact h14
      extract_lets -lift -merge -useContext -underBinder +onlyGivenNames x17
      have h17 : Keeps State.fence_parts s0 x17 := by
        unfold x17
        refine Keeps.via (State.event_keeps _ _ _) rfl ?_
        refine Keeps.via (State.clearCause_keeps _) rfl ?_
        exact h16
      refine Keeps.ite ?_ ?_
      · refine Keeps.via (State.goTo_keeps _ _ _) rfl ?_
        exact h17
      · exact h17
    · exact Keeps.refl _ _

def State.fenceSettled_parts : List Part := [.rx, .top, .log, .sb, .links, .twin, .ord, .map, .mir, .sch, .flt, .cal, .pwr, .boot, .reg Reg.GLB_HUBID, .reg Reg.GLB_EVENT, .reg Reg.GLB_DIRSTAT, .reg Reg.GLB_QUIESCE, .block 0x1, .reg Reg.ORD_FWD, .reg Reg.ORD_LINEHOLD, .reg Reg.ORD_FLUSHES, .reg Reg.MAP_REJ, .reg Reg.MIR_CAUSE, .reg Reg.MIR_RBCUR, .reg Reg.MIR_PENDOCC, .reg Reg.MIR_FWDMISS, .reg Reg.MIR_HOSTAT, .reg Reg.MIR_HOCNT, .reg Reg.DPH_RETSTAT, .reg Reg.ECC_SEALFAIL, .reg Reg.ECC_FIRSTFAIL, .reg Reg.ECC_REPAIR, .reg Reg.LOG_RINGSTAT, .reg Reg.LOG_CAPTURED, .reg Reg.LOG_COALESCED, .reg Reg.LOG_LOST, .reg Reg.LOG_ORPHANS, .reg Reg.LOG_SQUALLS]

theorem State.fenceSettled_keeps (s0 : State) (epoch : Word) :
    Keeps State.fenceSettled_parts s0 (State.fenceSettled s0 epoch) := by
  unfold State.fenceSettled
  extract_lets -lift -merge -useContext -underBinder +onlyGivenNames x0
  have h0 : Keeps State.fenceSettled_parts s0 x0 := by
    unfold x0
    refine Keeps.via (State.fence_keeps _ _) rfl ?_
    exact Keeps.refl _ _
  refine Keeps.ite ?_ ?_
  · refine Keeps.via (State.event_keeps _ _ _) rfl ?_
    exact h0
  · exact h0

def State.serve_parts : List Part := [.rx, .top, .log, .sb, .links, .twin, .ord, .map, .mir, .sch, .flt, .cal, .pwr, .boot, .reg Reg.GLB_HUBID, .reg Reg.GLB_EVENT, .reg Reg.GLB_DIRSTAT, .reg Reg.GLB_QUIESCE, .block 0x1, .reg Reg.ORD_FWD, .reg Reg.ORD_LINEHOLD, .reg Reg.ORD_FLUSHES, .reg Reg.MIR_CAUSE, .reg Reg.MIR_PENDOCC, .reg Reg.MIR_FWDMISS, .reg Reg.MIR_HOSTAT, .reg Reg.MIR_HOCNT, .reg Reg.DPH_RETSTAT, .reg Reg.ECC_SEALFAIL, .reg Reg.ECC_FIRSTFAIL, .reg Reg.ECC_REPAIR, .reg Reg.LOG_RINGSTAT, .reg Reg.LOG_CAPTURED, .reg Reg.LOG_COALESCED, .reg Reg.LOG_LOST, .reg Reg.LOG_ORPHANS, .reg Reg.LOG_SQUALLS]

theorem State.serve_keeps (s0 : State) :
    Keeps State.serve_parts s0 (State.serve s0) := by
  unfold State.serve
  refine Keeps.ite ?_ ?_
  · refine Keeps.via (State.goTo_keeps _ _ _) rfl ?_
    exact Keeps.refl _ _
  · exact Keeps.refl _ _

def State.pumpSolo_parts : List Part := [.rx, .top, .log, .sb, .links, .twin, .ord, .map, .mir, .sch, .flt, .cal, .pwr, .boot, .reg Reg.GLB_HUBID, .reg Reg.GLB_EVENT, .reg Reg.GLB_DIRSTAT, .reg Reg.GLB_QUIESCE, .block 0x1, .reg Reg.ORD_FWD, .reg Reg.ORD_LINEHOLD, .reg Reg.ORD_FLUSHES, .reg Reg.MIR_CAUSE, .reg Reg.MIR_PENDOCC, .reg Reg.MIR_FWDMISS, .reg Reg.MIR_HOSTAT, .reg Reg.MIR_HOCNT, .reg Reg.DPH_RETSTAT, .reg Reg.ECC_SEALFAIL, .reg Reg.ECC_FIRSTFAIL, .reg Reg.ECC_REPAIR, .reg Reg.LOG_RINGSTAT, .reg Reg.LOG_CAPTURED, .reg Reg.LOG_COALESCED, .reg Reg.LOG_LOST, .reg Reg.LOG_ORPHANS, .reg Reg.LOG_SQUALLS]

theorem State.pumpSolo_keeps (s0 : State) :
    Keeps State.pumpSolo_parts s0 (State.pumpSolo s0) := by
  unfold State.pumpSolo
  refine Keeps.ite ?_ ?_
  · extract_lets -lift -merge -useContext -underBinder +onlyGivenNames x0
    try clear_value x0
    extract_lets -lift -merge -useContext -underBinder +onlyGivenNames x1
    try clear_value x1
    extract_lets -lift -merge -useContext -underBinder +onlyGivenNames x2
    try clear_value x2
    extract_lets -lift -merge -useContext -underBinder +onlyGivenNames x3
    have h3 : Keeps State.pumpSolo_parts s0 x3 := by
      unfold x3
      refine Keeps.via (State.endSession_keeps _) rfl ?_
      exact Keeps.refl _ _
    extract_lets -lift -merge -useContext -underBinder +onlyGivenNames x4 x5
    have h5 : Keeps State.pumpSolo_parts s0 x5 := by
      unfold x5
      refine Keeps.ite ?_ ?_
      · refine Keeps.via (Keeps.upd_mir _ _) rfl ?_
        exact h3
      · exact h3
    extract_lets -lift -merge -useContext -underBinder +onlyGivenNames x6
    have h6 : Keeps State.pumpSolo_parts s0 x6 := by
      unfold x6
      refine Keeps.via (State.event_keeps _ _ _) rfl ?_
      refine Keeps.via (State.enterSolo_keeps _) rfl ?_
      exact h5
    refine Keeps.via (State.serve_keeps _) rfl ?_
    refine Keeps.ite ?_ ?_
    · refine Keeps.via (State.event_keeps _ _ _) rfl ?_
      refine Keeps.via (Keeps.upd_mir _ _) rfl ?_
      exact h6
    · exact h6
  · exact Keeps.refl _ _

def execHeartbeat_parts : List Part := [.rx, .free, .top, .log, .sb, .links, .twin, .ord, .map, .mir, .sch, .flt, .cal, .pwr, .boot, .reg Reg.GLB_HUBID, .reg Reg.GLB_EVENT, .reg Reg.GLB_DIRSTAT, .reg Reg.GLB_QUIESCE, .block 0x1, .reg Reg.ORD_FWD, .reg Reg.ORD_LINEHOLD, .reg Reg.ORD_FLUSHES, .reg Reg.MAP_REJ, .reg Reg.MIR_CAUSE, .reg Reg.MIR_RBCUR, .reg Reg.MIR_PENDOCC, .reg Reg.MIR_FWDMISS, .reg Reg.MIR_HOSTAT, .reg Reg.MIR_HOCNT, .reg Reg.MIR_HBBAD, .reg Reg.DPH_RETSTAT, .reg Reg.ECC_SEALFAIL, .reg Reg.ECC_FIRSTFAIL, .reg Reg.ECC_REPAIR, .reg Reg.LOG_RINGSTAT, .reg Reg.LOG_CAPTURED, .reg Reg.LOG_COALESCED, .reg Reg.LOG_LOST, .reg Reg.LOG_ORPHANS, .reg Reg.LOG_SQUALLS]

theorem execHeartbeat_keeps (pstate : BitVec 3) (epoch : Word) (_sent : Word) (_stamp : Word) (s0 : State) :
    KeepsOut execHeartbeat_parts s0 (execHeartbeat pstate epoch _sent _stamp s0) := by
  unfold execHeartbeat
  refine KeepsOut.next ?_
  refine Keeps.ite ?_ ?_
  · exact Keeps.refl _ _
  · refine Keeps.ite ?_ ?_
    · refine Keeps.via (State.badMsg_keeps _ _ _) rfl ?_
      exact Keeps.refl _ _
    · extract_lets -lift -merge -useContext -underBinder +onlyGivenNames x0 x1
      have h1 : Keeps execHeartbeat_parts s0 x1 := by
        unfold x1
        refine Keeps.via (Keeps.upd_twin _ _) rfl ?_
        exact Keeps.refl _ _
      refine Keeps.ite ?_ ?_
      · exact h1
      · extract_lets -lift -merge -useContext -underBinder +onlyGivenNames x2 x3
        have h3 : Keeps execHeartbeat_parts s0 x3 := by
          unfold x3
          refine Keeps.ite ?_ ?_
          · refine Keeps.via (State.pumpSolo_keeps _) rfl ?_
            refine Keeps.via (Keeps.upd_mir _ _) rfl ?_
            exact h1
          · exact h1
        refine Keeps.ite ?_ ?_
        · refine Keeps.via (State.fenceSettled_keeps _ _) rfl ?_
          exact h3
        · refine Keeps.ite ?_ ?_
          · refine Keeps.via (State.bump_keeps _ _ _) rfl ?_
            exact h3
          · refine Keeps.ite ?_ ?_
            · refine Keeps.via (State.raiseCause_keeps _ _) rfl ?_
              exact h3
            · exact h3

def execHeartbeatSend_parts : List Part := [.links, .twin]

theorem execHeartbeatSend_keeps (s0 : State) :
    KeepsOut execHeartbeatSend_parts s0 (execHeartbeatSend s0) := by
  unfold execHeartbeatSend
  refine KeepsOut.next ?_
  refine Keeps.via (State.heartbeat_keeps _) rfl ?_
  exact Keeps.refl _ _

def execHeartbeatMiss_parts : List Part := [.log, .sb, .links, .twin, .ord, .map, .mir, .sch, .reg Reg.GLB_EVENT, .reg Reg.GLB_DIRSTAT, .reg Reg.ORD_FWD, .reg Reg.ORD_LINEHOLD, .reg Reg.ORD_FLUSHES, .reg Reg.MIR_CAUSE, .reg Reg.MIR_PENDOCC, .reg Reg.MIR_HOSTAT, .reg Reg.MIR_HOCNT, .reg Reg.ECC_SEALFAIL, .reg Reg.ECC_FIRSTFAIL, .reg Reg.LOG_RINGSTAT, .reg Reg.LOG_CAPTURED, .reg Reg.LOG_COALESCED, .reg Reg.LOG_LOST, .reg Reg.LOG_ORPHANS, .reg Reg.LOG_SQUALLS]

theorem execHeartbeatMiss_keeps (s0 : State) :
    KeepsOut execHeartbeatMiss_parts s0 (execHeartbeatMiss s0) := by
  unfold execHeartbeatMiss
  refine KeepsOut.next ?_
  refine Keeps.via (State.raiseCause_keeps _ _) rfl ?_
  exact Keeps.refl _ _

def execPlnOnT_parts : List Part := [.free, .log, .sb, .links, .twin, .ord, .map, .mir, .sch, .reg Reg.GLB_EVENT, .reg Reg.GLB_DIRSTAT, .block 0x1, .reg Reg.ORD_FWD, .reg Reg.ORD_LINEHOLD, .reg Reg.ORD_FLUSHES, .reg Reg.MIR_CAUSE, .reg Reg.MIR_PENDOCC, .reg Reg.MIR_HOSTAT, .reg Reg.MIR_HOCNT, .reg Reg.ECC_SEALFAIL, .reg Reg.ECC_FIRSTFAIL, .reg Reg.LOG_RINGSTAT, .reg Reg.LOG_CAPTURED, .reg Reg.LOG_COALESCED, .reg Reg.LOG_LOST, .reg Reg.LOG_ORPHANS, .reg Reg.LOG_SQUALLS]

theorem execPlnOnT_keeps (flags : Byte) (_admitCnt : Word) (_lastTag : BitVec 12) (_stamp : Word) (s0 : State) :
    KeepsOut execPlnOnT_parts s0 (execPlnOnT flags _admitCnt _lastTag _stamp s0) := by
  unfold execPlnOnT
  refine KeepsOut.next ?_
  refine Keeps.ite ?_ ?_
  · exact Keeps.refl _ _
  · refine Keeps.ite ?_ ?_
    · refine Keeps.via (State.badMsg_keeps _ _ _) rfl ?_
      exact Keeps.refl _ _
    · refine Keeps.via (State.twinPln_keeps _) rfl ?_
      exact Keeps.refl _ _

def State.startHandover_parts : List Part := [.links, .map, .mir]

theorem State.startHandover_keeps (s0 : State) (region : ℕ) (mtag : BitVec 4) :
    Keeps State.startHandover_parts s0 (State.startHandover s0 region mtag) := by
  unfold State.startHandover
  extract_lets -lift -merge -useContext -underBinder +onlyGivenNames x0
  try clear_value x0
  extract_lets -lift -merge -useContext -underBinder +onlyGivenNames x1
  have h1 : Keeps State.startHandover_parts s0 x1 := by
    unfold x1
    refine Keeps.via (State.setRt_keeps _ _ _) rfl ?_
    exact Keeps.refl _ _
  extract_lets -lift -merge -useContext -underBinder +onlyGivenNames x2 x3
  have h3 : Keeps State.startHandover_parts s0 x3 := by
    unfold x3
    refine Keeps.via (Keeps.upd_mir _ _) rfl ?_
    exact h1
  refine Keeps.via (State.send_keeps _ _ _) rfl ?_
  exact h3

def State.answerHandover_parts : List Part := [.links]

theorem State.answerHandover_keeps (s0 : State) (m : HandoverMsg) (step : ℕ) :
    Keeps State.answerHandover_parts s0 (State.answerHandover s0 m step) := by
  unfold State.answerHandover
  refine Keeps.via (State.sendOwing_keeps _ _ _ _ _) rfl ?_
  exact Keeps.refl _ _

def execHandoverRequest_parts : List Part := [.free, .log, .sb, .links, .twin, .ord, .map, .mir, .sch, .reg Reg.GLB_EVENT, .reg Reg.GLB_DIRSTAT, .block 0x1, .reg Reg.ORD_FWD, .reg Reg.ORD_LINEHOLD, .reg Reg.MIR_RBCUR, .reg Reg.ECC_SEALFAIL, .reg Reg.ECC_FIRSTFAIL, .reg Reg.LOG_RINGSTAT, .reg Reg.LOG_CAPTURED, .reg Reg.LOG_COALESCED, .reg Reg.LOG_LOST, .reg Reg.LOG_ORPHANS, .reg Reg.LOG_SQUALLS]

theorem execHandoverRequest_keeps (m : HandoverMsg) (s0 : State) :
    KeepsOut execHandoverRequest_parts s0 (execHandoverRequest m s0) := by
  unfold execHandoverRequest
  refine KeepsOut.next ?_
  unfold State.takeMg
  extract_lets -lift -merge -useContext -underBinder +onlyGivenNames x0
  try clear_value x0
  refine Keeps.ite ?_ ?_
  · exact Keeps.refl _ _
  · refine Keeps.ite ?_ ?_
    · refine Keeps.via (State.overrun_keeps _ _ _ _) rfl ?_
      exact Keeps.refl _ _
    · extract_lets -lift -merge -useContext -underBinder +onlyGivenNames x1 x2
      have h2 : Keeps execHandoverRequest_parts s0 x2 := by
        unfold x2
        refine Keeps.via (State.setLink_keeps _ _ _) rfl ?_
        exact Keeps.refl _ _
      try dsimp -zeta -proj -iota -eta only
      extract_lets -lift -merge -useContext -underBinder +onlyGivenNames x3
      try clear_value x3
      extract_lets -lift -merge -useContext -underBinder +onlyGivenNames x4
      try clear_value x4
      extract_lets -lift -merge -useContext -underBinder +onlyGivenNames x5
      try clear_value x5
      refine Keeps.ite ?_ ?_
      · exact h2
      · refine Keeps.ite ?_ ?_
        · extract_lets -lift -merge -useContext -underBinder +onlyGivenNames x6
          have h6 : Keeps execHandoverRequest_parts s0 x6 := by
            unfold x6
            refine Keeps.via (State.setRt_keeps _ _ _) rfl ?_
            exact h2
          refine Keeps.via (Keeps.upd_mir _ _) rfl ?_
          exact h6
        · refine Keeps.ite ?_ ?_
          · refine Keeps.via (State.answerHandover_keeps _ _ _) rfl ?_
            refine Keeps.via (State.event_keeps _ _ _) rfl ?_
            exact h2
          · refine Keeps.via (State.answerHandover_keeps _ _ _) rfl ?_
            exact h2

def execHandoverForkMark_parts : List Part := [.links, .map, .mir]

theorem execHandoverForkMark_keeps (region : BitVec 18) (s0 : State) :
    KeepsOut execHandoverForkMark_parts s0 (execHandoverForkMark region s0) := by
  unfold execHandoverForkMark
  refine KeepsOut.next ?_
  extract_lets -lift -merge -useContext -underBinder +onlyGivenNames x0
  try clear_value x0
  extract_lets -lift -merge -useContext -underBinder +onlyGivenNames x1
  try clear_value x1
  refine Keeps.ite ?_ ?_
  · exact Keeps.refl _ _
  · refine Keeps.via (State.pumpHandovers_keeps _) rfl ?_
    refine Keeps.via (Keeps.upd_mir _ _) rfl ?_
    exact Keeps.refl _ _

def execHandoverDrained_parts : List Part := [.free, .log, .sb, .links, .twin, .ord, .map, .mir, .sch, .reg Reg.GLB_EVENT, .reg Reg.GLB_DIRSTAT, .block 0x1, .reg Reg.ORD_FWD, .reg Reg.ORD_LINEHOLD, .reg Reg.MIR_RBCUR, .reg Reg.MIR_HOSTAT, .reg Reg.MIR_HOCNT, .reg Reg.ECC_SEALFAIL, .reg Reg.ECC_FIRSTFAIL, .reg Reg.LOG_RINGSTAT, .reg Reg.LOG_CAPTURED, .reg Reg.LOG_COALESCED, .reg Reg.LOG_LOST, .reg Reg.LOG_ORPHANS, .reg Reg.LOG_SQUALLS]

theorem execHandoverDrained_keeps (m : HandoverMsg) (s0 : State) :
    KeepsOut execHandoverDrained_parts s0 (execHandoverDrained m s0) := by
  unfold execHandoverDrained
  refine KeepsOut.next ?_
  unfold State.takeMg
  extract_lets -lift -merge -useContext -underBinder +onlyGivenNames x0
  try clear_value x0
  refine Keeps.ite ?_ ?_
  · exact Keeps.refl _ _
  · refine Keeps.ite ?_ ?_
    · refine Keeps.via (State.overrun_keeps _ _ _ _) rfl ?_
      exact Keeps.refl _ _
    · extract_lets -lift -merge -useContext -underBinder +onlyGivenNames x1 x2
      have h2 : Keeps execHandoverDrained_parts s0 x2 := by
        unfold x2
        refine Keeps.via (State.setLink_keeps _ _ _) rfl ?_
        exact Keeps.refl _ _
      try dsimp -zeta -proj -iota -eta only
      extract_lets -lift -merge -useContext -underBinder +onlyGivenNames x3
      try clear_value x3
      extract_lets -lift -merge -useContext -underBinder +onlyGivenNames x4
      try clear_value x4
      extract_lets -lift -merge -useContext -underBinder +onlyGivenNames x5
      try clear_value x5
      refine Keeps.ite ?_ ?_
      · exact h2
      · refine Keeps.ite ?_ ?_
        · refine Keeps.ite ?_ ?_
          · extract_lets -lift -merge -useContext -underBinder +onlyGivenNames x6
            have h6 : Keeps execHandoverDrained_parts s0 x6 := by
              unfold x6
              refine Keeps.via (State.setRt_keeps _ _ _) rfl ?_
              exact h2
            refine Keeps.via (State.endHandover_keeps _ _ _ _) rfl ?_
            refine Keeps.via (State.answerHandover_keeps _ _ _) rfl ?_
            exact h6
          · extract_lets -lift -merge -useContext -underBinder +onlyGivenNames x7
            have h7 : Keeps execHandoverDrained_parts s0 x7 := by
              unfold x7
              refine Keeps.via (State.setRt_keeps _ _ _) rfl ?_
              exact h2
            refine Keeps.via (State.endHandover_keeps _ _ _ _) rfl ?_
            refine Keeps.via (State.answerHandover_keeps _ _ _) rfl ?_
            exact h7
        · refine Keeps.via (State.owe_keeps _ _ _) rfl ?_
          exact h2

def execHandoverTaken_parts : List Part := [.free, .log, .sb, .links, .twin, .ord, .mir, .sch, .reg Reg.GLB_EVENT, .reg Reg.GLB_DIRSTAT, .block 0x1, .reg Reg.ORD_FWD, .reg Reg.ORD_LINEHOLD, .reg Reg.MIR_RBCUR, .reg Reg.MIR_HOSTAT, .reg Reg.MIR_HOCNT, .reg Reg.ECC_SEALFAIL, .reg Reg.ECC_FIRSTFAIL, .reg Reg.LOG_RINGSTAT, .reg Reg.LOG_CAPTURED, .reg Reg.LOG_COALESCED, .reg Reg.LOG_LOST, .reg Reg.LOG_ORPHANS, .reg Reg.LOG_SQUALLS]

theorem execHandoverTaken_keeps (m : HandoverMsg) (s0 : State) :
    KeepsOut execHandoverTaken_parts s0 (execHandoverTaken m s0) := by
  unfold execHandoverTaken
  refine KeepsOut.next ?_
  unfold State.takeMg
  extract_lets -lift -merge -useContext -underBinder +onlyGivenNames x0
  try clear_value x0
  refine Keeps.ite ?_ ?_
  · exact Keeps.refl _ _
  · refine Keeps.ite ?_ ?_
    · refine Keeps.via (State.overrun_keeps _ _ _ _) rfl ?_
      exact Keeps.refl _ _
    · extract_lets -lift -merge -useContext -underBinder +onlyGivenNames x1 x2
      have h2 : Keeps execHandoverTaken_parts s0 x2 := by
        unfold x2
        refine Keeps.via (State.setLink_keeps _ _ _) rfl ?_
        exact Keeps.refl _ _
      try dsimp -zeta -proj -iota -eta only
      extract_lets -lift -merge -useContext -underBinder +onlyGivenNames x3
      try clear_value x3
      extract_lets -lift -merge -useContext -underBinder +onlyGivenNames x4
      have h4 : Keeps execHandoverTaken_parts s0 x4 := by
        unfold x4
        refine Keeps.via (State.owe_keeps _ _ _) rfl ?_
        exact h2
      split
      · refine Keeps.ite ?_ ?_
        · refine Keeps.via (State.endHandover_keeps _ _ _ _) rfl ?_
          exact h4
        · exact h4
      · exact h4

def execHandoverRefused_parts : List Part := [.free, .log, .sb, .links, .twin, .ord, .map, .mir, .sch, .reg Reg.GLB_EVENT, .reg Reg.GLB_DIRSTAT, .block 0x1, .reg Reg.ORD_FWD, .reg Reg.ORD_LINEHOLD, .reg Reg.MIR_RBCUR, .reg Reg.MIR_HOSTAT, .reg Reg.MIR_HOCNT, .reg Reg.ECC_SEALFAIL, .reg Reg.ECC_FIRSTFAIL, .reg Reg.LOG_RINGSTAT, .reg Reg.LOG_CAPTURED, .reg Reg.LOG_COALESCED, .reg Reg.LOG_LOST, .reg Reg.LOG_ORPHANS, .reg Reg.LOG_SQUALLS]

theorem execHandoverRefused_keeps (m : HandoverMsg) (s0 : State) :
    KeepsOut execHandoverRefused_parts s0 (execHandoverRefused m s0) := by
  unfold execHandoverRefused
  refine KeepsOut.next ?_
  unfold State.takeMg
  extract_lets -lift -merge -useContext -underBinder +onlyGivenNames x0
  try clear_value x0
  refine Keeps.ite ?_ ?_
  · exact Keeps.refl _ _
  · refine Keeps.ite ?_ ?_
    · refine Keeps.via (State.overrun_keeps _ _ _ _) rfl ?_
      exact Keeps.refl _ _
    · extract_lets -lift -merge -useContext -underBinder +onlyGivenNames x1 x2
      have h2 : Keeps execHandoverRefused_parts s0 x2 := by
        unfold x2
        refine Keeps.via (State.setLink_keeps _ _ _) rfl ?_
        exact Keeps.refl _ _
      try dsimp -zeta -proj -iota -eta only
      extract_lets -lift -merge -useContext -underBinder +onlyGivenNames x3
      try clear_value x3
      extract_lets -lift -merge -useContext -underBinder +onlyGivenNames x4
      try clear_value x4
      extract_lets -lift -merge -useContext -underBinder +onlyGivenNames x5
      have h5 : Keeps execHandoverRefused_parts s0 x5 := by
        unfold x5
        refine Keeps.via (State.owe_keeps _ _ _) rfl ?_
        exact h2
      split
      · refine Keeps.ite ?_ ?_
        · exact h5
        · refine Keeps.ite ?_ ?_
          · refine Keeps.ite ?_ ?_
            · refine Keeps.via (State.endHandover_keeps _ _ _ _) rfl ?_
              refine Keeps.via (State.setRt_keeps _ _ _) rfl ?_
              exact h5
            · exact h5
          · refine Keeps.via (State.endHandover_keeps _ _ _ _) rfl ?_
            refine Keeps.via (State.setRt_keeps _ _ _) rfl ?_
            exact h5
      · exact h5

def execHandoverTimeout_parts : List Part := [.log, .sb, .map, .mir, .reg Reg.GLB_EVENT, .reg Reg.GLB_DIRSTAT, .reg Reg.MIR_HOSTAT, .reg Reg.MIR_HOCNT, .reg Reg.LOG_RINGSTAT, .reg Reg.LOG_CAPTURED, .reg Reg.LOG_COALESCED, .reg Reg.LOG_LOST, .reg Reg.LOG_ORPHANS, .reg Reg.LOG_SQUALLS]

theorem execHandoverTimeout_keeps (region : BitVec 18) (s0 : State) :
    KeepsOut execHandoverTimeout_parts s0 (execHandoverTimeout region s0) := by
  unfold execHandoverTimeout
  refine KeepsOut.next ?_
  split
  · refine Keeps.ite ?_ ?_
    · exact Keeps.refl _ _
    · refine Keeps.via (State.abandonHandover_keeps _ _) rfl ?_
      exact Keeps.refl _ _
  · exact Keeps.refl _ _

def State.grantSolo_parts : List Part := [.log, .sb, .links, .twin, .ord, .map, .mir, .sch, .reg Reg.GLB_EVENT, .reg Reg.GLB_DIRSTAT, .reg Reg.ORD_FWD, .reg Reg.ORD_LINEHOLD, .reg Reg.MIR_HOSTAT, .reg Reg.MIR_HOCNT, .reg Reg.ECC_SEALFAIL, .reg Reg.ECC_FIRSTFAIL, .reg Reg.LOG_RINGSTAT, .reg Reg.LOG_CAPTURED, .reg Reg.LOG_COALESCED, .reg Reg.LOG_LOST, .reg Reg.LOG_ORPHANS, .reg Reg.LOG_SQUALLS]

theorem State.grantSolo_keeps (s0 : State) (epoch : Word) (format : Bool) :
    Keeps State.grantSolo_parts s0 (State.grantSolo s0 epoch format) := by
  unfold State.grantSolo
  extract_lets -lift -merge -useContext -underBinder +onlyGivenNames x0 x1
  have h1 : Keeps State.grantSolo_parts s0 x1 := by
    unfold x1
    refine Keeps.via (Keeps.upd_mir _ _) rfl ?_
    exact Keeps.refl _ _
  refine Keeps.via (State.heartbeat_keeps _) rfl ?_
  refine Keeps.via (State.abandonAll_keeps _) rfl ?_
  refine Keeps.via (State.event_keeps _ _ _) rfl ?_
  refine Keeps.via (State.writeRecord_keeps _ _) rfl ?_
  exact h1

def execSoloConversionDone_parts : List Part := [.rx, .top, .log, .sb, .links, .twin, .ord, .map, .mir, .sch, .flt, .cal, .pwr, .boot, .reg Reg.GLB_HUBID, .reg Reg.GLB_EVENT, .reg Reg.GLB_DIRSTAT, .reg Reg.GLB_QUIESCE, .block 0x1, .reg Reg.ORD_FWD, .reg Reg.ORD_LINEHOLD, .reg Reg.ORD_FLUSHES, .reg Reg.MIR_CAUSE, .reg Reg.MIR_PENDOCC, .reg Reg.MIR_FWDMISS, .reg Reg.MIR_HOSTAT, .reg Reg.MIR_HOCNT, .reg Reg.DPH_RETSTAT, .reg Reg.ECC_SEALFAIL, .reg Reg.ECC_FIRSTFAIL, .reg Reg.ECC_REPAIR, .reg Reg.LOG_RINGSTAT, .reg Reg.LOG_CAPTURED, .reg Reg.LOG_COALESCED, .reg Reg.LOG_LOST, .reg Reg.LOG_ORPHANS, .reg Reg.LOG_SQUALLS]

theorem execSoloConversionDone_keeps (s0 : State) :
    KeepsOut execSoloConversionDone_parts s0 (execSoloConversionDone s0) := by
  unfold execSoloConversionDone
  refine KeepsOut.next ?_
  refine Keeps.ite ?_ ?_
  · extract_lets -lift -merge -useContext -underBinder +onlyGivenNames x0
    have h0 : Keeps execSoloConversionDone_parts s0 x0 := by
      unfold x0
      refine Keeps.via (State.convertSolo_keeps _) rfl ?_
      exact Keeps.refl _ _
    refine Keeps.via (State.pumpSolo_keeps _) rfl ?_
    refine Keeps.via (Keeps.upd_mir _ _) rfl ?_
    exact h0
  · exact Keeps.refl _ _

def execSoloHoldEnd_parts : List Part := [.rx, .top, .log, .sb, .links, .twin, .ord, .map, .mir, .sch, .flt, .cal, .pwr, .boot, .reg Reg.GLB_HUBID, .reg Reg.GLB_EVENT, .reg Reg.GLB_DIRSTAT, .reg Reg.GLB_QUIESCE, .block 0x1, .reg Reg.ORD_FWD, .reg Reg.ORD_LINEHOLD, .reg Reg.ORD_FLUSHES, .reg Reg.MIR_CAUSE, .reg Reg.MIR_PENDOCC, .reg Reg.MIR_FWDMISS, .reg Reg.MIR_HOSTAT, .reg Reg.MIR_HOCNT, .reg Reg.DPH_RETSTAT, .reg Reg.ECC_SEALFAIL, .reg Reg.ECC_FIRSTFAIL, .reg Reg.ECC_REPAIR, .reg Reg.LOG_RINGSTAT, .reg Reg.LOG_CAPTURED, .reg Reg.LOG_COALESCED, .reg Reg.LOG_LOST, .reg Reg.LOG_ORPHANS, .reg Reg.LOG_SQUALLS]

theorem execSoloHoldEnd_keeps (s0 : State) :
    KeepsOut execSoloHoldEnd_parts s0 (execSoloHoldEnd s0) := by
  unfold execSoloHoldEnd
  refine KeepsOut.next ?_
  refine Keeps.ite ?_ ?_
  · refine Keeps.via (State.pumpSolo_keeps _) rfl ?_
    refine Keeps.via (Keeps.upd_mir _ _) rfl ?_
    exact Keeps.refl _ _
  · exact Keeps.refl _ _

def State.unmarkRegion_parts : List Part := [.log, .sb, .links, .twin, .ord, .mir, .sch, .reg Reg.GLB_EVENT, .reg Reg.GLB_DIRSTAT, .reg Reg.ORD_FWD, .reg Reg.ORD_LINEHOLD, .reg Reg.ECC_SEALFAIL, .reg Reg.ECC_FIRSTFAIL, .reg Reg.LOG_RINGSTAT, .reg Reg.LOG_CAPTURED, .reg Reg.LOG_COALESCED, .reg Reg.LOG_LOST, .reg Reg.LOG_ORPHANS, .reg Reg.LOG_SQUALLS]

theorem State.unmarkRegion_keeps (s0 : State) (region : ℕ) :
    Keeps State.unmarkRegion_parts s0 (State.unmarkRegion s0 region) := by
  unfold State.unmarkRegion
  refine Keeps.foldl _ _ ?_ (fun t0 y0 h0 => ?_)
  · exact Keeps.refl _ _
  · refine Keeps.via (State.unmark_keeps _ _) rfl ?_
    exact h0

def execFormatRegionDone_parts : List Part := [.log, .sb, .links, .twin, .ord, .map, .mir, .sch, .reg Reg.GLB_EVENT, .reg Reg.GLB_DIRSTAT, .reg Reg.ORD_FWD, .reg Reg.ORD_LINEHOLD, .reg Reg.ECC_SEALFAIL, .reg Reg.ECC_FIRSTFAIL, .reg Reg.LOG_RINGSTAT, .reg Reg.LOG_CAPTURED, .reg Reg.LOG_COALESCED, .reg Reg.LOG_LOST, .reg Reg.LOG_ORPHANS, .reg Reg.LOG_SQUALLS]

theorem execFormatRegionDone_keeps (s0 : State) :
    KeepsOut execFormatRegionDone_parts s0 (execFormatRegionDone s0) := by
  unfold execFormatRegionDone
  refine KeepsOut.next ?_
  refine Keeps.ite ?_ ?_
  · extract_lets -lift -merge -useContext -underBinder +onlyGivenNames x0
    try clear_value x0
    extract_lets -lift -merge -useContext -underBinder +onlyGivenNames x1
    try clear_value x1
    extract_lets -lift -merge -useContext -underBinder +onlyGivenNames x2
    have h2 : Keeps execFormatRegionDone_parts s0 x2 := by
      unfold x2
      refine Keeps.via (State.unmarkRegion_keeps _ _) rfl ?_
      refine Keeps.via (State.setRt_keeps _ _ _) rfl ?_
      exact Keeps.refl _ _
    extract_lets -lift -merge -useContext -underBinder +onlyGivenNames x3 x4
    have h4 : Keeps execFormatRegionDone_parts s0 x4 := by
      unfold x4
      refine Keeps.via (Keeps.upd_mir _ _) rfl ?_
      exact h2
    split
    · refine Keeps.via (State.writeRecord_keeps _ _) rfl ?_
      refine Keeps.via (Keeps.upd_mir _ _) rfl ?_
      exact h4
    · extract_lets -lift -merge -useContext -underBinder +onlyGivenNames x5
      try clear_value x5
      refine Keeps.via (State.event_keeps _ _ _) rfl ?_
      refine Keeps.via (State.writeRecord_keeps _ _) rfl ?_
      refine Keeps.via (State.endSession_keeps _) rfl ?_
      exact h4
  · exact Keeps.refl _ _

def State.openGranules_parts : List Part := [.links, .mir]

theorem State.openGranules_keeps (a0 : ℕ) (s0 : State) :
    Keeps State.openGranules_parts s0 (State.openGranules a0 s0) := by
  induction a0 generalizing s0 with
  | zero =>
    rw [State.openGranules.eq_1]
    exact Keeps.refl _ _
  | succ _ ih =>
    rw [State.openGranules.eq_2]
    split
    · refine Keeps.ite ?_ ?_
      · extract_lets -lift -merge -useContext -underBinder +onlyGivenNames x0 x1
        have h1 : Keeps State.openGranules_parts s0 x1 := by
          unfold x1
          refine Keeps.via (Keeps.upd_mir _ _) rfl ?_
          exact Keeps.refl _ _
        refine Keeps.trans ?_ (ih _)
        refine Keeps.via (State.sendCtl_keeps _ _ _ _ _) rfl ?_
        exact h1
      · exact Keeps.refl _ _
    · refine Keeps.ite ?_ ?_
      · refine Keeps.via (State.sendCtl_keeps _ _ _ _ _) rfl ?_
        refine Keeps.via (Keeps.upd_mir _ _) rfl ?_
        exact Keeps.refl _ _
      · exact Keeps.refl _ _

def State.nextRegion_parts : List Part := [.log, .sb, .links, .twin, .ord, .map, .mir, .sch, .reg Reg.GLB_EVENT, .reg Reg.GLB_DIRSTAT, .reg Reg.ORD_FWD, .reg Reg.ORD_LINEHOLD, .reg Reg.ECC_SEALFAIL, .reg Reg.ECC_FIRSTFAIL, .reg Reg.LOG_RINGSTAT, .reg Reg.LOG_CAPTURED, .reg Reg.LOG_COALESCED, .reg Reg.LOG_LOST, .reg Reg.LOG_ORPHANS, .reg Reg.LOG_SQUALLS]

theorem State.nextRegion_keeps (session : Bool) (a1 : List ℕ) (s0 : State) :
    Keeps State.nextRegion_parts s0 (State.nextRegion session a1 s0) := by
  induction a1 generalizing session s0 with
  | nil =>
    rw [State.nextRegion.eq_1]
    refine Keeps.ite ?_ ?_
    · refine Keeps.via (State.sendCtl_keeps _ _ _ _ _) rfl ?_
      refine Keeps.via (Keeps.upd_mir _ _) rfl ?_
      exact Keeps.refl _ _
    · refine Keeps.via (Keeps.upd_mir _ _) rfl ?_
      exact Keeps.refl _ _
  | cons _ _ ih =>
    rw [State.nextRegion.eq_2]
    refine Keeps.ite ?_ ?_
    · extract_lets -lift -merge -useContext -underBinder +onlyGivenNames x0
      try clear_value x0
      extract_lets -lift -merge -useContext -underBinder +onlyGivenNames x1
      have h1 : Keeps State.nextRegion_parts s0 x1 := by
        unfold x1
        refine Keeps.via (State.setRt_keeps _ _ _) rfl ?_
        exact Keeps.refl _ _
      extract_lets -lift -merge -useContext -underBinder +onlyGivenNames x2
      try clear_value x2
      extract_lets -lift -merge -useContext -underBinder +onlyGivenNames x3
      try clear_value x3
      extract_lets -lift -merge -useContext -underBinder +onlyGivenNames x4 x5
      have h5 : Keeps State.nextRegion_parts s0 x5 := by
        unfold x5
        refine Keeps.via (Keeps.upd_mir _ _) rfl ?_
        exact h1
      refine Keeps.via (State.openGranules_keeps _ _) rfl ?_
      refine Keeps.via (State.writeRecord_keeps _ _) rfl ?_
      exact h5
    · refine Keeps.trans ?_ (ih _ _)
      refine Keeps.ite ?_ ?_
      · refine Keeps.via (State.event_keeps _ _ _) rfl ?_
        exact Keeps.refl _ _
      · exact Keeps.refl _ _

def State.copyFrom_parts : List Part := [.log, .sb, .links, .twin, .ord, .map, .mir, .sch, .reg Reg.GLB_EVENT, .reg Reg.GLB_DIRSTAT, .reg Reg.ORD_FWD, .reg Reg.ORD_LINEHOLD, .reg Reg.ECC_SEALFAIL, .reg Reg.ECC_FIRSTFAIL, .reg Reg.LOG_RINGSTAT, .reg Reg.LOG_CAPTURED, .reg Reg.LOG_COALESCED, .reg Reg.LOG_LOST, .reg Reg.LOG_ORPHANS, .reg Reg.LOG_SQUALLS]

theorem State.copyFrom_keeps (s0 : State) (r : ℕ) :
    Keeps State.copyFrom_parts s0 (State.copyFrom s0 r) := by
  unfold State.copyFrom
  refine Keeps.via (State.nextRegion_keeps _ _ _) rfl ?_
  exact Keeps.refl _ _

def State.resyncOwn_parts : List Part := [.log, .sb, .links, .twin, .ord, .map, .mir, .sch, .reg Reg.GLB_EVENT, .reg Reg.GLB_DIRSTAT, .reg Reg.ORD_FWD, .reg Reg.ORD_LINEHOLD, .reg Reg.ECC_SEALFAIL, .reg Reg.ECC_FIRSTFAIL, .reg Reg.LOG_RINGSTAT, .reg Reg.LOG_CAPTURED, .reg Reg.LOG_COALESCED, .reg Reg.LOG_LOST, .reg Reg.LOG_ORPHANS, .reg Reg.LOG_SQUALLS]

theorem State.resyncOwn_keeps (s0 : State) :
    Keeps State.resyncOwn_parts s0 (State.resyncOwn s0) := by
  unfold State.resyncOwn
  refine Keeps.ite ?_ ?_
  · extract_lets -lift -merge -useContext -underBinder +onlyGivenNames x0
    try clear_value x0
    extract_lets -lift -merge -useContext -underBinder +onlyGivenNames x1
    have h1 : Keeps State.resyncOwn_parts s0 x1 := by
      unfold x1
      refine Keeps.foldl _ _ ?_ (fun t2 y2 h2 => ?_)
      · exact Keeps.refl _ _
      · refine Keeps.via (State.setRt_keeps _ _ _) rfl ?_
        exact h2
    extract_lets -lift -merge -useContext -underBinder +onlyGivenNames x3 x4
    have h4 : Keeps State.resyncOwn_parts s0 x4 := by
      unfold x4
      refine Keeps.via (Keeps.upd_mir _ _) rfl ?_
      exact h1
    refine Keeps.via (State.copyFrom_keeps _ _) rfl ?_
    exact h4
  · exact Keeps.refl _ _

def State.sessionDone_parts : List Part := [.log, .sb, .links, .twin, .ord, .map, .mir, .sch, .flt, .cal, .reg Reg.GLB_EVENT, .reg Reg.GLB_DIRSTAT, .reg Reg.ORD_FWD, .reg Reg.ORD_LINEHOLD, .reg Reg.ORD_FLUSHES, .reg Reg.ECC_SEALFAIL, .reg Reg.ECC_FIRSTFAIL, .reg Reg.LOG_RINGSTAT, .reg Reg.LOG_CAPTURED, .reg Reg.LOG_COALESCED, .reg Reg.LOG_LOST, .reg Reg.LOG_ORPHANS, .reg Reg.LOG_SQUALLS]

theorem State.sessionDone_keeps (s0 : State) :
    Keeps State.sessionDone_parts s0 (State.sessionDone s0) := by
  unfold State.sessionDone
  extract_lets -lift -merge -useContext -underBinder +onlyGivenNames x0
  try clear_value x0
  refine Keeps.via (State.reapply_keeps _) rfl ?_
  refine Keeps.via (State.resyncOwn_keeps _) rfl ?_
  refine Keeps.via (State.settle_keeps _) rfl ?_
  refine Keeps.via (State.event_keeps _ _ _) rfl ?_
  refine Keeps.via (State.setPair_keeps _ _) rfl ?_
  refine Keeps.via (State.endSession_keeps _) rfl ?_
  exact Keeps.refl _ _

def State.sourceAlone_parts : List Part := [.log, .sb, .links, .twin, .ord, .map, .mir, .sch, .reg Reg.GLB_EVENT, .reg Reg.GLB_DIRSTAT, .reg Reg.ORD_FWD, .reg Reg.ORD_LINEHOLD, .reg Reg.ORD_FLUSHES, .reg Reg.MIR_CAUSE, .reg Reg.MIR_PENDOCC, .reg Reg.MIR_HOSTAT, .reg Reg.MIR_HOCNT, .reg Reg.ECC_SEALFAIL, .reg Reg.ECC_FIRSTFAIL, .reg Reg.LOG_RINGSTAT, .reg Reg.LOG_CAPTURED, .reg Reg.LOG_COALESCED, .reg Reg.LOG_LOST, .reg Reg.LOG_ORPHANS, .reg Reg.LOG_SQUALLS]

theorem State.sourceAlone_keeps (s0 : State) (reason : ℕ) (tell : Bool) :
    Keeps State.sourceAlone_parts s0 (State.sourceAlone s0 reason tell) := by
  unfold State.sourceAlone
  extract_lets -lift -merge -useContext -underBinder +onlyGivenNames x0
  have h0 : Keeps State.sourceAlone_parts s0 x0 := by
    unfold x0
    refine Keeps.via (State.enterSolo_keeps _) rfl ?_
    refine Keeps.via (State.convertSolo_keeps _) rfl ?_
    refine Keeps.via (State.endSession_keeps _) rfl ?_
    refine Keeps.via (State.abandonAll_keeps _) rfl ?_
    refine Keeps.via (State.event_keeps _ _ _) rfl ?_
    exact Keeps.refl _ _
  refine Keeps.ite ?_ ?_
  · refine Keeps.via (State.sendCtl_keeps _ _ _ _ _) rfl ?_
    exact h0
  · exact h0

def State.destFenced_parts : List Part := [.rx, .top, .log, .sb, .links, .twin, .ord, .map, .mir, .sch, .flt, .cal, .pwr, .boot, .reg Reg.GLB_HUBID, .reg Reg.GLB_EVENT, .reg Reg.GLB_DIRSTAT, .reg Reg.GLB_QUIESCE, .block 0x1, .reg Reg.ORD_FWD, .reg Reg.ORD_LINEHOLD, .reg Reg.ORD_FLUSHES, .reg Reg.MAP_REJ, .reg Reg.MIR_CAUSE, .reg Reg.MIR_RBCUR, .reg Reg.MIR_PENDOCC, .reg Reg.MIR_FWDMISS, .reg Reg.MIR_HOSTAT, .reg Reg.MIR_HOCNT, .reg Reg.DPH_RETSTAT, .reg Reg.ECC_SEALFAIL, .reg Reg.ECC_FIRSTFAIL, .reg Reg.ECC_REPAIR, .reg Reg.LOG_RINGSTAT, .reg Reg.LOG_CAPTURED, .reg Reg.LOG_COALESCED, .reg Reg.LOG_LOST, .reg Reg.LOG_ORPHANS, .reg Reg.LOG_SQUALLS]

theorem State.destFenced_keeps (s0 : State) (reason : ℕ) :
    Keeps State.destFenced_parts s0 (State.destFenced s0 reason) := by
  unfold State.destFenced
  refine Keeps.via (State.fence_keeps _ _) rfl ?_
  refine Keeps.via (State.event_keeps _ _ _) rfl ?_
  exact Keeps.refl _ _

def State.resynced_parts : List Part := [.log, .sb, .links, .twin, .ord, .mir, .sch, .reg Reg.GLB_EVENT, .reg Reg.GLB_DIRSTAT, .reg Reg.ORD_FWD, .reg Reg.ORD_LINEHOLD, .reg Reg.ORD_FLUSHES, .reg Reg.MIR_RBCUR, .reg Reg.ECC_SEALFAIL, .reg Reg.ECC_FIRSTFAIL, .reg Reg.LOG_RINGSTAT, .reg Reg.LOG_CAPTURED, .reg Reg.LOG_COALESCED, .reg Reg.LOG_LOST, .reg Reg.LOG_ORPHANS, .reg Reg.LOG_SQUALLS]

theorem State.resynced_keeps (s0 : State) (g : ℕ) :
    Keeps State.resynced_parts s0 (State.resynced s0 g) := by
  unfold State.resynced
  extract_lets -lift -merge -useContext -underBinder +onlyGivenNames x0
  try clear_value x0
  extract_lets -lift -merge -useContext -underBinder +onlyGivenNames x1
  have h1 : Keeps State.resynced_parts s0 x1 := by
    unfold x1
    refine Keeps.via (State.setReg_keeps _ _ _) rfl ?_
    refine Keeps.via (State.unmark_keeps _ _) rfl ?_
    exact Keeps.refl _ _
  extract_lets -lift -merge -useContext -underBinder +onlyGivenNames x2
  have h2 : Keeps State.resynced_parts s0 x2 := by
    unfold x2
    refine Keeps.via (State.mapPool_keeps _ _) rfl ?_
    exact h1
  refine Keeps.via (State.settle_keeps _) rfl ?_
  exact h2

def State.regionRefused_parts : List Part := [.log, .sb, .links, .twin, .ord, .map, .mir, .sch, .reg Reg.GLB_EVENT, .reg Reg.GLB_DIRSTAT, .reg Reg.ORD_FWD, .reg Reg.ORD_LINEHOLD, .reg Reg.ECC_SEALFAIL, .reg Reg.ECC_FIRSTFAIL, .reg Reg.LOG_RINGSTAT, .reg Reg.LOG_CAPTURED, .reg Reg.LOG_COALESCED, .reg Reg.LOG_LOST, .reg Reg.LOG_ORPHANS, .reg Reg.LOG_SQUALLS]

theorem State.regionRefused_keeps (s0 : State) (r : ℕ) :
    Keeps State.regionRefused_parts s0 (State.regionRefused s0 r) := by
  unfold State.regionRefused
  refine Keeps.ite ?_ ?_
  · extract_lets -lift -merge -useContext -underBinder +onlyGivenNames x0
    try clear_value x0
    extract_lets -lift -merge -useContext -underBinder +onlyGivenNames x1
    have h1 : Keeps State.regionRefused_parts s0 x1 := by
      unfold x1
      refine Keeps.via (State.setRt_keeps _ _ _) rfl ?_
      exact Keeps.refl _ _
    extract_lets -lift -merge -useContext -underBinder +onlyGivenNames x2 x3
    have h3 : Keeps State.regionRefused_parts s0 x3 := by
      unfold x3
      refine Keeps.via (Keeps.upd_mir _ _) rfl ?_
      exact h1
    refine Keeps.via (State.copyFrom_keeps _ _) rfl ?_
    refine Keeps.via (State.event_keeps _ _ _) rfl ?_
    exact h3
  · exact Keeps.refl _ _

def State.cursorAnswered_parts : List Part := [.log, .sb, .links, .twin, .ord, .map, .mir, .sch, .reg Reg.GLB_EVENT, .reg Reg.GLB_DIRSTAT, .reg Reg.ORD_FWD, .reg Reg.ORD_LINEHOLD, .reg Reg.ORD_FLUSHES, .reg Reg.MIR_CAUSE, .reg Reg.MIR_RBCUR, .reg Reg.MIR_PENDOCC, .reg Reg.MIR_HOSTAT, .reg Reg.MIR_HOCNT, .reg Reg.ECC_SEALFAIL, .reg Reg.ECC_FIRSTFAIL, .reg Reg.LOG_RINGSTAT, .reg Reg.LOG_CAPTURED, .reg Reg.LOG_COALESCED, .reg Reg.LOG_LOST, .reg Reg.LOG_ORPHANS, .reg Reg.LOG_SQUALLS]

theorem State.cursorAnswered_keeps (s0 : State) (g : ℕ) :
    Keeps State.cursorAnswered_parts s0 (State.cursorAnswered s0 g) := by
  unfold State.cursorAnswered
  split
  · refine Keeps.ite ?_ ?_
    · extract_lets -lift -merge -useContext -underBinder +onlyGivenNames x0 x1
      have h1 : Keeps State.cursorAnswered_parts s0 x1 := by
        unfold x1
        refine Keeps.via (Keeps.upd_mir _ _) rfl ?_
        exact Keeps.refl _ _
      refine Keeps.via (State.openGranules_keeps _ _) rfl ?_
      refine Keeps.via (State.resynced_keeps _ _) rfl ?_
      exact h1
    · refine Keeps.ite ?_ ?_
      · refine Keeps.ite ?_ ?_
        · refine Keeps.via (State.sourceAlone_keeps _ _ _) rfl ?_
          exact Keeps.refl _ _
        · refine Keeps.via (State.regionRefused_keeps _ _) rfl ?_
          exact Keeps.refl _ _
      · extract_lets -lift -merge -useContext -underBinder +onlyGivenNames x2
        try clear_value x2
        refine Keeps.via (State.sendCtl_keeps _ _ _ _ _) rfl ?_
        refine Keeps.via (Keeps.upd_mir _ _) rfl ?_
        exact Keeps.refl _ _
  · exact Keeps.refl _ _

def State.regionAnswered_parts : List Part := [.log, .sb, .links, .twin, .ord, .map, .mir, .sch, .reg Reg.GLB_EVENT, .reg Reg.GLB_DIRSTAT, .reg Reg.ORD_FWD, .reg Reg.ORD_LINEHOLD, .reg Reg.ORD_FLUSHES, .reg Reg.ECC_SEALFAIL, .reg Reg.ECC_FIRSTFAIL, .reg Reg.LOG_RINGSTAT, .reg Reg.LOG_CAPTURED, .reg Reg.LOG_COALESCED, .reg Reg.LOG_LOST, .reg Reg.LOG_ORPHANS, .reg Reg.LOG_SQUALLS]

theorem State.regionAnswered_keeps (s0 : State) (r : ℕ) :
    Keeps State.regionAnswered_parts s0 (State.regionAnswered s0 r) := by
  unfold State.regionAnswered
  refine Keeps.ite ?_ ?_
  · extract_lets -lift -merge -useContext -underBinder +onlyGivenNames x0
    try clear_value x0
    extract_lets -lift -merge -useContext -underBinder +onlyGivenNames x1
    have h1 : Keeps State.regionAnswered_parts s0 x1 := by
      unfold x1
      refine Keeps.via (State.setRt_keeps _ _ _) rfl ?_
      exact Keeps.refl _ _
    extract_lets -lift -merge -useContext -underBinder +onlyGivenNames x2
    have h2 : Keeps State.regionAnswered_parts s0 x2 := by
      unfold x2
      refine Keeps.ite ?_ ?_
      · refine Keeps.via (State.unmarkRegion_keeps _ _) rfl ?_
        exact h1
      · exact h1
    refine Keeps.via (State.copyFrom_keeps _ _) rfl ?_
    refine Keeps.via (State.settle_keeps _) rfl ?_
    exact h2
  · exact Keeps.refl _ _

def State.pumpReport_parts : List Part := [.links, .mir]

theorem State.pumpReport_keeps (a0 : ℕ) (s0 : State) :
    Keeps State.pumpReport_parts s0 (State.pumpReport a0 s0) := by
  induction a0 generalizing s0 with
  | zero =>
    rw [State.pumpReport.eq_1]
    exact Keeps.refl _ _
  | succ _ ih =>
    rw [State.pumpReport.eq_2]
    refine Keeps.ite ?_ ?_
    · split
      · refine Keeps.trans ?_ (ih _)
        refine Keeps.via (State.sendCtl_keeps _ _ _ _ _) rfl ?_
        refine Keeps.via (Keeps.upd_mir _ _) rfl ?_
        exact Keeps.refl _ _
      · refine Keeps.via (State.sendCtl_keeps _ _ _ _ _) rfl ?_
        refine Keeps.via (Keeps.upd_mir _ _) rfl ?_
        exact Keeps.refl _ _
    · exact Keeps.refl _ _

def State.answerStart_parts : List Part := [.log, .sb, .links, .mir, .reg Reg.GLB_EVENT, .reg Reg.GLB_DIRSTAT, .reg Reg.LOG_RINGSTAT, .reg Reg.LOG_CAPTURED, .reg Reg.LOG_COALESCED, .reg Reg.LOG_LOST, .reg Reg.LOG_ORPHANS, .reg Reg.LOG_SQUALLS]

theorem State.answerStart_keeps (s0 : State) (m : RebuildMsg) :
    Keeps State.answerStart_parts s0 (State.answerStart s0 m) := by
  unfold State.answerStart
  extract_lets -lift -merge -useContext -underBinder +onlyGivenNames x0 x1
  have h1 : Keeps State.answerStart_parts s0 x1 := by
    unfold x1
    refine Keeps.via (Keeps.upd_mir _ _) rfl ?_
    exact Keeps.refl _ _
  refine Keeps.ite ?_ ?_
  · extract_lets -lift -merge -useContext -underBinder +onlyGivenNames x2
    have h2 : Keeps State.answerStart_parts s0 x2 := by
      unfold x2
      refine Keeps.via (State.answerCtl_keeps _ _ _) rfl ?_
      exact h1
    refine Keeps.ite ?_ ?_
    · extract_lets -lift -merge -useContext -underBinder +onlyGivenNames x3 x4
      have h4 : Keeps State.answerStart_parts s0 x4 := by
        unfold x4
        refine Keeps.via (Keeps.upd_mir _ _) rfl ?_
        exact h2
      refine Keeps.via (State.pumpReport_keeps _ _) rfl ?_
      exact h4
    · refine Keeps.via (Keeps.upd_mir _ _) rfl ?_
      exact h2
  · extract_lets -lift -merge -useContext -underBinder +onlyGivenNames x5
    have h5 : Keeps State.answerStart_parts s0 x5 := by
      unfold x5
      refine Keeps.via (State.event_keeps _ _ _) rfl ?_
      exact h1
    extract_lets -lift -merge -useContext -underBinder +onlyGivenNames x6 x7
    have h7 : Keeps State.answerStart_parts s0 x7 := by
      unfold x7
      refine Keeps.via (Keeps.upd_mir _ _) rfl ?_
      exact h5
    refine Keeps.via (State.sendOwing_keeps _ _ _ _ _) rfl ?_
    exact h7

def execRebuildCtlStartSession_parts : List Part := [.free, .log, .sb, .links, .twin, .ord, .mir, .sch, .reg Reg.GLB_EVENT, .reg Reg.GLB_DIRSTAT, .block 0x1, .reg Reg.ORD_FWD, .reg Reg.ORD_LINEHOLD, .reg Reg.MIR_RBCUR, .reg Reg.ECC_SEALFAIL, .reg Reg.ECC_FIRSTFAIL, .reg Reg.LOG_RINGSTAT, .reg Reg.LOG_CAPTURED, .reg Reg.LOG_COALESCED, .reg Reg.LOG_LOST, .reg Reg.LOG_ORPHANS, .reg Reg.LOG_SQUALLS]

theorem execRebuildCtlStartSession_keeps (m : RebuildMsg) (s0 : State) :
    KeepsOut execRebuildCtlStartSession_parts s0 (execRebuildCtlStartSession m s0) := by
  unfold execRebuildCtlStartSession
  refine KeepsOut.next ?_
  unfold State.takeMg
  extract_lets -lift -merge -useContext -underBinder +onlyGivenNames x0
  try clear_value x0
  refine Keeps.ite ?_ ?_
  · exact Keeps.refl _ _
  · refine Keeps.ite ?_ ?_
    · refine Keeps.via (State.overrun_keeps _ _ _ _) rfl ?_
      exact Keeps.refl _ _
    · extract_lets -lift -merge -useContext -underBinder +onlyGivenNames x1 x2
      have h2 : Keeps execRebuildCtlStartSession_parts s0 x2 := by
        unfold x2
        refine Keeps.via (State.setLink_keeps _ _ _) rfl ?_
        exact Keeps.refl _ _
      try dsimp -zeta -proj -iota -eta only
      refine Keeps.ite ?_ ?_
      · refine Keeps.via (State.answerStart_keeps _ _) rfl ?_
        exact h2
      · refine Keeps.via (Keeps.upd_mir _ _) rfl ?_
        exact h2

def execRebuildCtlStartGranule_parts : List Part := [.free, .log, .sb, .links, .twin, .ord, .map, .mir, .sch, .reg Reg.GLB_EVENT, .reg Reg.GLB_DIRSTAT, .block 0x1, .reg Reg.ORD_FWD, .reg Reg.ORD_LINEHOLD, .reg Reg.MIR_RBCUR, .reg Reg.ECC_SEALFAIL, .reg Reg.ECC_FIRSTFAIL, .reg Reg.LOG_RINGSTAT, .reg Reg.LOG_CAPTURED, .reg Reg.LOG_COALESCED, .reg Reg.LOG_LOST, .reg Reg.LOG_ORPHANS, .reg Reg.LOG_SQUALLS]

theorem execRebuildCtlStartGranule_keeps (m : RebuildMsg) (s0 : State) :
    KeepsOut execRebuildCtlStartGranule_parts s0 (execRebuildCtlStartGranule m s0) := by
  unfold execRebuildCtlStartGranule
  refine KeepsOut.next ?_
  unfold State.takeMg
  extract_lets -lift -merge -useContext -underBinder +onlyGivenNames x0
  try clear_value x0
  refine Keeps.ite ?_ ?_
  · exact Keeps.refl _ _
  · refine Keeps.ite ?_ ?_
    · refine Keeps.via (State.overrun_keeps _ _ _ _) rfl ?_
      exact Keeps.refl _ _
    · extract_lets -lift -merge -useContext -underBinder +onlyGivenNames x1 x2
      have h2 : Keeps execRebuildCtlStartGranule_parts s0 x2 := by
        unfold x2
        refine Keeps.via (State.setLink_keeps _ _ _) rfl ?_
        exact Keeps.refl _ _
      try dsimp -zeta -proj -iota -eta only
      extract_lets -lift -merge -useContext -underBinder +onlyGivenNames x3
      try clear_value x3
      extract_lets -lift -merge -useContext -underBinder +onlyGivenNames x4
      try clear_value x4
      extract_lets -lift -merge -useContext -underBinder +onlyGivenNames x5
      try clear_value x5
      refine Keeps.ite ?_ ?_
      · extract_lets -lift -merge -useContext -underBinder +onlyGivenNames x6
        try clear_value x6
        refine Keeps.via (State.answerCtl_keeps _ _ _) rfl ?_
        refine Keeps.ite ?_ ?_
        · exact h2
        · refine Keeps.via (State.sendCtl_keeps _ _ _ _ _) rfl ?_
          exact h2
      · extract_lets -lift -merge -useContext -underBinder +onlyGivenNames x7 x8
        have h8 : Keeps execRebuildCtlStartGranule_parts s0 x8 := by
          unfold x8
          refine Keeps.ite ?_ ?_
          · refine Keeps.via (State.writeRecord_keeps _ _) rfl ?_
            refine Keeps.via (Keeps.upd_mir _ _) rfl ?_
            exact h2
          · exact h2
        extract_lets -lift -merge -useContext -underBinder +onlyGivenNames x9 x10
        have h10 : Keeps execRebuildCtlStartGranule_parts s0 x10 := by
          unfold x10
          refine Keeps.via (Keeps.upd_mir _ _) rfl ?_
          exact h8
        extract_lets -lift -merge -useContext -underBinder +onlyGivenNames x11
        have h11 : Keeps execRebuildCtlStartGranule_parts s0 x11 := by
          unfold x11
          refine Keeps.ite ?_ ?_
          · refine Keeps.via (State.setRt_keeps _ _ _) rfl ?_
            exact h10
          · exact h10
        refine Keeps.via (State.answerCtl_keeps _ _ _) rfl ?_
        exact h11

def execRebuildCtlCursor_parts : List Part := [.free, .log, .sb, .links, .twin, .ord, .mir, .sch, .reg Reg.GLB_EVENT, .reg Reg.GLB_DIRSTAT, .block 0x1, .reg Reg.ORD_FWD, .reg Reg.ORD_LINEHOLD, .reg Reg.MIR_RBCUR, .reg Reg.ECC_SEALFAIL, .reg Reg.ECC_FIRSTFAIL, .reg Reg.LOG_RINGSTAT, .reg Reg.LOG_CAPTURED, .reg Reg.LOG_COALESCED, .reg Reg.LOG_LOST, .reg Reg.LOG_ORPHANS, .reg Reg.LOG_SQUALLS]

theorem execRebuildCtlCursor_keeps (m : RebuildMsg) (s0 : State) :
    KeepsOut execRebuildCtlCursor_parts s0 (execRebuildCtlCursor m s0) := by
  unfold execRebuildCtlCursor
  refine KeepsOut.next ?_
  unfold State.takeKnown
  refine Keeps.ite ?_ ?_
  · refine Keeps.via (State.badMsg_keeps _ _ _) rfl ?_
    exact Keeps.refl _ _
  · unfold State.takeMg
    extract_lets -lift -merge -useContext -underBinder +onlyGivenNames x0
    try clear_value x0
    refine Keeps.ite ?_ ?_
    · exact Keeps.refl _ _
    · refine Keeps.ite ?_ ?_
      · refine Keeps.via (State.overrun_keeps _ _ _ _) rfl ?_
        exact Keeps.refl _ _
      · extract_lets -lift -merge -useContext -underBinder +onlyGivenNames x1 x2
        have h2 : Keeps execRebuildCtlCursor_parts s0 x2 := by
          unfold x2
          refine Keeps.via (State.setLink_keeps _ _ _) rfl ?_
          exact Keeps.refl _ _
        try dsimp -zeta -proj -iota -eta only
        extract_lets -lift -merge -useContext -underBinder +onlyGivenNames x3
        try clear_value x3
        refine Keeps.ite ?_ ?_
        · extract_lets -lift -merge -useContext -underBinder +onlyGivenNames x4
          have h4 : Keeps execRebuildCtlCursor_parts s0 x4 := by
            unfold x4
            refine Keeps.ite ?_ ?_
            · exact h2
            · refine Keeps.via (State.mark_keeps _ _) rfl ?_
              exact h2
          refine Keeps.via (State.answerCtl_keeps _ _ _) rfl ?_
          exact h4
        · refine Keeps.via (State.closeCursors_keeps _) rfl ?_
          refine Keeps.via (Keeps.upd_mir _ _) rfl ?_
          exact h2

def execRebuildCtlDone_parts : List Part := [.free, .log, .sb, .links, .twin, .ord, .map, .mir, .sch, .flt, .cal, .reg Reg.GLB_EVENT, .reg Reg.GLB_DIRSTAT, .block 0x1, .reg Reg.ORD_FWD, .reg Reg.ORD_LINEHOLD, .reg Reg.ORD_FLUSHES, .reg Reg.MIR_RBCUR, .reg Reg.ECC_SEALFAIL, .reg Reg.ECC_FIRSTFAIL, .reg Reg.LOG_RINGSTAT, .reg Reg.LOG_CAPTURED, .reg Reg.LOG_COALESCED, .reg Reg.LOG_LOST, .reg Reg.LOG_ORPHANS, .reg Reg.LOG_SQUALLS]

theorem execRebuildCtlDone_keeps (m : RebuildMsg) (s0 : State) :
    KeepsOut execRebuildCtlDone_parts s0 (execRebuildCtlDone m s0) := by
  unfold execRebuildCtlDone
  refine KeepsOut.next ?_
  unfold State.takeMg
  extract_lets -lift -merge -useContext -underBinder +onlyGivenNames x0
  try clear_value x0
  refine Keeps.ite ?_ ?_
  · exact Keeps.refl _ _
  · refine Keeps.ite ?_ ?_
    · refine Keeps.via (State.overrun_keeps _ _ _ _) rfl ?_
      exact Keeps.refl _ _
    · extract_lets -lift -merge -useContext -underBinder +onlyGivenNames x1 x2
      have h2 : Keeps execRebuildCtlDone_parts s0 x2 := by
        unfold x2
        refine Keeps.via (State.setLink_keeps _ _ _) rfl ?_
        exact Keeps.refl _ _
      try dsimp -zeta -proj -iota -eta only
      refine Keeps.ite ?_ ?_
      · extract_lets -lift -merge -useContext -underBinder +onlyGivenNames x3
        have h3 : Keeps execRebuildCtlDone_parts s0 x3 := by
          unfold x3
          refine Keeps.via (State.answerCtl_keeps _ _ _) rfl ?_
          exact h2
        refine Keeps.ite ?_ ?_
        · refine Keeps.ite ?_ ?_
          · refine Keeps.via (State.copyFrom_keeps _ _) rfl ?_
            exact h3
          · exact h3
        · refine Keeps.ite ?_ ?_
          · refine Keeps.via (State.sessionDone_keeps _) rfl ?_
            exact h3
          · exact h3
      · extract_lets -lift -merge -useContext -underBinder +onlyGivenNames x4
        try clear_value x4
        extract_lets -lift -merge -useContext -underBinder +onlyGivenNames x5
        try clear_value x5
        extract_lets -lift -merge -useContext -underBinder +onlyGivenNames x6
        have h6 : Keeps execRebuildCtlDone_parts s0 x6 := by
          unfold x6
          refine Keeps.ite ?_ ?_
          · refine Keeps.via (State.unmarkRegion_keeps _ _) rfl ?_
            exact h2
          · exact h2
        extract_lets -lift -merge -useContext -underBinder +onlyGivenNames x7
        have h7 : Keeps execRebuildCtlDone_parts s0 x7 := by
          unfold x7
          refine Keeps.ite ?_ ?_
          · refine Keeps.via (State.setRt_keeps _ _ _) rfl ?_
            exact h6
          · exact h6
        extract_lets -lift -merge -useContext -underBinder +onlyGivenNames x8 x9
        have h9 : Keeps execRebuildCtlDone_parts s0 x9 := by
          unfold x9
          refine Keeps.via (Keeps.upd_mir _ _) rfl ?_
          exact h7
        refine Keeps.via (State.answerCtl_keeps _ _ _) rfl ?_
        exact h9

def execRebuildCtlStop_parts : List Part := [.rx, .free, .top, .log, .sb, .links, .twin, .ord, .map, .mir, .sch, .flt, .cal, .pwr, .boot, .reg Reg.GLB_HUBID, .reg Reg.GLB_EVENT, .reg Reg.GLB_DIRSTAT, .reg Reg.GLB_QUIESCE, .block 0x1, .reg Reg.ORD_FWD, .reg Reg.ORD_LINEHOLD, .reg Reg.ORD_FLUSHES, .reg Reg.MAP_REJ, .reg Reg.MIR_CAUSE, .reg Reg.MIR_RBCUR, .reg Reg.MIR_PENDOCC, .reg Reg.MIR_FWDMISS, .reg Reg.MIR_HOSTAT, .reg Reg.MIR_HOCNT, .reg Reg.DPH_RETSTAT, .reg Reg.ECC_SEALFAIL, .reg Reg.ECC_FIRSTFAIL, .reg Reg.ECC_REPAIR, .reg Reg.LOG_RINGSTAT, .reg Reg.LOG_CAPTURED, .reg Reg.LOG_COALESCED, .reg Reg.LOG_LOST, .reg Reg.LOG_ORPHANS, .reg Reg.LOG_SQUALLS]

theorem execRebuildCtlStop_keeps (m : RebuildMsg) (s0 : State) :
    KeepsOut execRebuildCtlStop_parts s0 (execRebuildCtlStop m s0) := by
  unfold execRebuildCtlStop
  refine KeepsOut.next ?_
  unfold State.takeMg
  extract_lets -lift -merge -useContext -underBinder +onlyGivenNames x0
  try clear_value x0
  refine Keeps.ite ?_ ?_
  · exact Keeps.refl _ _
  · refine Keeps.ite ?_ ?_
    · refine Keeps.via (State.overrun_keeps _ _ _ _) rfl ?_
      exact Keeps.refl _ _
    · extract_lets -lift -merge -useContext -underBinder +onlyGivenNames x1 x2
      have h2 : Keeps execRebuildCtlStop_parts s0 x2 := by
        unfold x2
        refine Keeps.via (State.setLink_keeps _ _ _) rfl ?_
        exact Keeps.refl _ _
      try dsimp -zeta -proj -iota -eta only
      extract_lets -lift -merge -useContext -underBinder +onlyGivenNames x3
      have h3 : Keeps execRebuildCtlStop_parts s0 x3 := by
        unfold x3
        refine Keeps.via (State.answerCtl_keeps _ _ _) rfl ?_
        exact h2
      refine Keeps.ite ?_ ?_
      · refine Keeps.via (State.regionRefused_keeps _ _) rfl ?_
        exact h3
      · refine Keeps.ite ?_ ?_
        · refine Keeps.via (State.sourceAlone_keeps _ _ _) rfl ?_
          exact h3
        · refine Keeps.ite ?_ ?_
          · refine Keeps.via (State.destFenced_keeps _ _) rfl ?_
            exact h3
          · exact h3

def execRebuildCtlPace_parts : List Part := [.free, .log, .sb, .links, .twin, .ord, .mir, .sch, .reg Reg.GLB_EVENT, .reg Reg.GLB_DIRSTAT, .block 0x1, .reg Reg.ORD_FWD, .reg Reg.ORD_LINEHOLD, .reg Reg.MIR_RBCUR, .reg Reg.ECC_SEALFAIL, .reg Reg.ECC_FIRSTFAIL, .reg Reg.LOG_RINGSTAT, .reg Reg.LOG_CAPTURED, .reg Reg.LOG_COALESCED, .reg Reg.LOG_LOST, .reg Reg.LOG_ORPHANS, .reg Reg.LOG_SQUALLS]

theorem execRebuildCtlPace_keeps (m : RebuildMsg) (s0 : State) :
    KeepsOut execRebuildCtlPace_parts s0 (execRebuildCtlPace m s0) := by
  unfold execRebuildCtlPace
  refine KeepsOut.next ?_
  unfold State.takeKnown
  refine Keeps.ite ?_ ?_
  · refine Keeps.via (State.badMsg_keeps _ _ _) rfl ?_
    exact Keeps.refl _ _
  · unfold State.takeMg
    extract_lets -lift -merge -useContext -underBinder +onlyGivenNames x0
    try clear_value x0
    refine Keeps.ite ?_ ?_
    · exact Keeps.refl _ _
    · refine Keeps.ite ?_ ?_
      · refine Keeps.via (State.overrun_keeps _ _ _ _) rfl ?_
        exact Keeps.refl _ _
      · extract_lets -lift -merge -useContext -underBinder +onlyGivenNames x1 x2
        have h2 : Keeps execRebuildCtlPace_parts s0 x2 := by
          unfold x2
          refine Keeps.via (State.setLink_keeps _ _ _) rfl ?_
          exact Keeps.refl _ _
        try dsimp -zeta -proj -iota -eta only
        extract_lets -lift -merge -useContext -underBinder +onlyGivenNames x3 x4
        have h4 : Keeps execRebuildCtlPace_parts s0 x4 := by
          unfold x4
          refine Keeps.ite ?_ ?_
          · refine Keeps.via (State.event_keeps _ _ _) rfl ?_
            refine Keeps.via (Keeps.upd_mir _ _) rfl ?_
            exact h2
          · exact h2
        refine Keeps.via (State.answerCtl_keeps _ _ _) rfl ?_
        exact h4

def State.answered_parts : List Part := [.rx, .top, .log, .sb, .links, .twin, .ord, .map, .mir, .sch, .flt, .cal, .pwr, .boot, .reg Reg.GLB_HUBID, .reg Reg.GLB_EVENT, .reg Reg.GLB_DIRSTAT, .reg Reg.GLB_QUIESCE, .block 0x1, .reg Reg.ORD_FWD, .reg Reg.ORD_LINEHOLD, .reg Reg.ORD_FLUSHES, .reg Reg.MAP_REJ, .reg Reg.MIR_CAUSE, .reg Reg.MIR_RBCUR, .reg Reg.MIR_PENDOCC, .reg Reg.MIR_FWDMISS, .reg Reg.MIR_HOSTAT, .reg Reg.MIR_HOCNT, .reg Reg.DPH_RETSTAT, .reg Reg.ECC_SEALFAIL, .reg Reg.ECC_FIRSTFAIL, .reg Reg.ECC_REPAIR, .reg Reg.LOG_RINGSTAT, .reg Reg.LOG_CAPTURED, .reg Reg.LOG_COALESCED, .reg Reg.LOG_LOST, .reg Reg.LOG_ORPHANS, .reg Reg.LOG_SQUALLS]

theorem State.answered_keeps (s0 : State) (cmd : ℕ) (m : RebuildMsg) :
    Keeps State.answered_parts s0 (State.answered s0 cmd m) := by
  unfold State.answered
  extract_lets -lift -merge -useContext -underBinder +onlyGivenNames x0
  try clear_value x0
  split
  · refine Keeps.ite ?_ ?_
    · refine Keeps.ite ?_ ?_
      · refine Keeps.ite ?_ ?_
        · refine Keeps.via (State.copyFrom_keeps _ _) rfl ?_
          exact Keeps.refl _ _
        · refine Keeps.via (Keeps.upd_mir _ _) rfl ?_
          exact Keeps.refl _ _
      · exact Keeps.refl _ _
    · extract_lets -lift -merge -useContext -underBinder +onlyGivenNames x1
      try clear_value x1
      refine Keeps.via (Keeps.upd_mir _ _) rfl ?_
      exact Keeps.refl _ _
  · refine Keeps.ite ?_ ?_
    · refine Keeps.via (State.fence_keeps _ _) rfl ?_
      exact Keeps.refl _ _
    · exact Keeps.refl _ _
  · refine Keeps.ite ?_ ?_
    · refine Keeps.via (State.pumpReport_keeps _ _) rfl ?_
      exact Keeps.refl _ _
    · refine Keeps.via (State.cursorAnswered_keeps _ _) rfl ?_
      exact Keeps.refl _ _
  · refine Keeps.ite ?_ ?_
    · refine Keeps.ite ?_ ?_
      · refine Keeps.via (State.sessionDone_keeps _) rfl ?_
        exact Keeps.refl _ _
      · exact Keeps.refl _ _
    · refine Keeps.via (State.regionAnswered_keeps _ _) rfl ?_
      exact Keeps.refl _ _
  · exact Keeps.refl _ _

def execRebuildCtlAnswer_parts : List Part := [.rx, .free, .top, .log, .sb, .links, .twin, .ord, .map, .mir, .sch, .flt, .cal, .pwr, .boot, .reg Reg.GLB_HUBID, .reg Reg.GLB_EVENT, .reg Reg.GLB_DIRSTAT, .reg Reg.GLB_QUIESCE, .block 0x1, .reg Reg.ORD_FWD, .reg Reg.ORD_LINEHOLD, .reg Reg.ORD_FLUSHES, .reg Reg.MAP_REJ, .reg Reg.MIR_CAUSE, .reg Reg.MIR_RBCUR, .reg Reg.MIR_PENDOCC, .reg Reg.MIR_FWDMISS, .reg Reg.MIR_HOSTAT, .reg Reg.MIR_HOCNT, .reg Reg.DPH_RETSTAT, .reg Reg.ECC_SEALFAIL, .reg Reg.ECC_FIRSTFAIL, .reg Reg.ECC_REPAIR, .reg Reg.LOG_RINGSTAT, .reg Reg.LOG_CAPTURED, .reg Reg.LOG_COALESCED, .reg Reg.LOG_LOST, .reg Reg.LOG_ORPHANS, .reg Reg.LOG_SQUALLS]

theorem execRebuildCtlAnswer_keeps (cmd : Byte) (m : RebuildMsg) (s0 : State) :
    KeepsOut execRebuildCtlAnswer_parts s0 (execRebuildCtlAnswer cmd m s0) := by
  unfold execRebuildCtlAnswer
  refine KeepsOut.next ?_
  extract_lets -lift -merge -useContext -underBinder +onlyGivenNames x0
  try clear_value x0
  refine Keeps.ite ?_ ?_
  · unfold State.takeMg
    extract_lets -lift -merge -useContext -underBinder +onlyGivenNames x1
    try clear_value x1
    refine Keeps.ite ?_ ?_
    · exact Keeps.refl _ _
    · refine Keeps.ite ?_ ?_
      · refine Keeps.via (State.overrun_keeps _ _ _ _) rfl ?_
        exact Keeps.refl _ _
      · extract_lets -lift -merge -useContext -underBinder +onlyGivenNames x2 x3
        have h3 : Keeps execRebuildCtlAnswer_parts s0 x3 := by
          unfold x3
          refine Keeps.via (State.setLink_keeps _ _ _) rfl ?_
          exact Keeps.refl _ _
        try dsimp -zeta -proj -iota -eta only
        extract_lets -lift -merge -useContext -underBinder +onlyGivenNames x4 x5
        have h5 : Keeps execRebuildCtlAnswer_parts s0 x5 := by
          unfold x5
          refine Keeps.via (State.owe_keeps _ _ _) rfl ?_
          refine Keeps.via (Keeps.upd_mir _ _) rfl ?_
          exact h3
        refine Keeps.via (State.answered_keeps _ _ _) rfl ?_
        exact h5
  · exact Keeps.refl _ _

def execRebuildWaitTimeout_parts : List Part := [.rx, .top, .log, .sb, .links, .twin, .ord, .map, .mir, .sch, .flt, .cal, .pwr, .boot, .reg Reg.GLB_HUBID, .reg Reg.GLB_EVENT, .reg Reg.GLB_DIRSTAT, .reg Reg.GLB_QUIESCE, .block 0x1, .reg Reg.ORD_FWD, .reg Reg.ORD_LINEHOLD, .reg Reg.ORD_FLUSHES, .reg Reg.MAP_REJ, .reg Reg.MIR_CAUSE, .reg Reg.MIR_RBCUR, .reg Reg.MIR_PENDOCC, .reg Reg.MIR_FWDMISS, .reg Reg.MIR_HOSTAT, .reg Reg.MIR_HOCNT, .reg Reg.DPH_RETSTAT, .reg Reg.ECC_SEALFAIL, .reg Reg.ECC_FIRSTFAIL, .reg Reg.ECC_REPAIR, .reg Reg.LOG_RINGSTAT, .reg Reg.LOG_CAPTURED, .reg Reg.LOG_COALESCED, .reg Reg.LOG_LOST, .reg Reg.LOG_ORPHANS, .reg Reg.LOG_SQUALLS]

theorem execRebuildWaitTimeout_keeps (s0 : State) :
    KeepsOut execRebuildWaitTimeout_parts s0 (execRebuildWaitTimeout s0) := by
  unfold execRebuildWaitTimeout
  refine KeepsOut.next ?_
  refine Keeps.ite ?_ ?_
  · refine Keeps.ite ?_ ?_
    · refine Keeps.via (State.sourceAlone_keeps _ _ _) rfl ?_
      exact Keeps.refl _ _
    · refine Keeps.via (State.destFenced_keeps _ _) rfl ?_
      exact Keeps.refl _ _
  · exact Keeps.refl _ _

def State.startRebuild_parts : List Part := [.rx, .top, .log, .sb, .links, .twin, .ord, .map, .mir, .sch, .flt, .cal, .pwr, .boot, .reg Reg.GLB_HUBID, .reg Reg.GLB_EVENT, .reg Reg.GLB_DIRSTAT, .reg Reg.GLB_QUIESCE, .block 0x1, .reg Reg.ORD_FWD, .reg Reg.ORD_LINEHOLD, .reg Reg.ORD_FLUSHES, .reg Reg.MIR_CAUSE, .reg Reg.MIR_PENDOCC, .reg Reg.MIR_FWDMISS, .reg Reg.MIR_HOSTAT, .reg Reg.MIR_HOCNT, .reg Reg.DPH_RETSTAT, .reg Reg.ECC_SEALFAIL, .reg Reg.ECC_FIRSTFAIL, .reg Reg.ECC_REPAIR, .reg Reg.LOG_RINGSTAT, .reg Reg.LOG_CAPTURED, .reg Reg.LOG_COALESCED, .reg Reg.LOG_LOST, .reg Reg.LOG_ORPHANS, .reg Reg.LOG_SQUALLS]

theorem State.startRebuild_keeps (s0 : State) (epoch : Word) (mode : ℕ) (share : ℕ) :
    Keeps State.startRebuild_parts s0 (State.startRebuild s0 epoch mode share) := by
  unfold State.startRebuild
  extract_lets -lift -merge -useContext -underBinder +onlyGivenNames x0
  try clear_value x0
  extract_lets -lift -merge -useContext -underBinder +onlyGivenNames x1
  try clear_value x1
  extract_lets -lift -merge -useContext -underBinder +onlyGivenNames x2
  try clear_value x2
  extract_lets -lift -merge -useContext -underBinder +onlyGivenNames x3
  have h3 : Keeps State.startRebuild_parts s0 x3 := by
    unfold x3
    refine Keeps.via (State.endSession_keeps _) rfl ?_
    exact Keeps.refl _ _
  extract_lets -lift -merge -useContext -underBinder +onlyGivenNames x4
  try clear_value x4
  extract_lets -lift -merge -useContext -underBinder +onlyGivenNames x5 x6
  have h6 : Keeps State.startRebuild_parts s0 x6 := by
    unfold x6
    refine Keeps.via (Keeps.upd_mir _ _) rfl ?_
    exact h3
  refine Keeps.ite ?_ ?_
  · extract_lets -lift -merge -useContext -underBinder +onlyGivenNames x7
    have h7 : Keeps State.startRebuild_parts s0 x7 := by
      unfold x7
      refine Keeps.via (State.setPair_keeps _ _) rfl ?_
      exact h6
    refine Keeps.via (State.event_keeps _ _ _) rfl ?_
    refine Keeps.via (State.sendCtl_keeps _ _ _ _ _) rfl ?_
    exact h7
  · extract_lets -lift -merge -useContext -underBinder +onlyGivenNames x8
    have h8 : Keeps State.startRebuild_parts s0 x8 := by
      unfold x8
      refine Keeps.via (State.setPair_keeps _ _) rfl ?_
      exact h6
    extract_lets -lift -merge -useContext -underBinder +onlyGivenNames x9
    have h9 : Keeps State.startRebuild_parts s0 x9 := by
      unfold x9
      refine Keeps.foldl _ _ ?_ (fun t10 y10 h10 => ?_)
      · exact h8
      · extract_lets -lift -merge -useContext -underBinder +onlyGivenNames x11
        try clear_value x11
        refine Keeps.ite ?_ ?_
        · refine Keeps.via (State.setRt_keeps _ _ _) rfl ?_
          exact h10
        · refine Keeps.ite ?_ ?_
          · exact h10
          · refine Keeps.via (State.setRt_keeps _ _ _) rfl ?_
            exact h10
    extract_lets -lift -merge -useContext -underBinder +onlyGivenNames x12
    have h12 : Keeps State.startRebuild_parts s0 x12 := by
      unfold x12
      refine Keeps.via (State.serve_keeps _) rfl ?_
      exact h9
    split
    · refine Keeps.via (State.answerStart_keeps _ _) rfl ?_
      exact h12
    · exact h12

def State.stopRebuild_parts : List Part := [.rx, .top, .log, .sb, .links, .twin, .ord, .map, .mir, .sch, .flt, .cal, .pwr, .boot, .reg Reg.GLB_HUBID, .reg Reg.GLB_EVENT, .reg Reg.GLB_DIRSTAT, .reg Reg.GLB_QUIESCE, .block 0x1, .reg Reg.ORD_FWD, .reg Reg.ORD_LINEHOLD, .reg Reg.ORD_FLUSHES, .reg Reg.MAP_REJ, .reg Reg.MIR_CAUSE, .reg Reg.MIR_RBCUR, .reg Reg.MIR_PENDOCC, .reg Reg.MIR_FWDMISS, .reg Reg.MIR_HOSTAT, .reg Reg.MIR_HOCNT, .reg Reg.DPH_RETSTAT, .reg Reg.ECC_SEALFAIL, .reg Reg.ECC_FIRSTFAIL, .reg Reg.ECC_REPAIR, .reg Reg.LOG_RINGSTAT, .reg Reg.LOG_CAPTURED, .reg Reg.LOG_COALESCED, .reg Reg.LOG_LOST, .reg Reg.LOG_ORPHANS, .reg Reg.LOG_SQUALLS]

theorem State.stopRebuild_keeps (s0 : State) :
    Keeps State.stopRebuild_parts s0 (State.stopRebuild s0) := by
  unfold State.stopRebuild
  refine Keeps.ite ?_ ?_
  · refine Keeps.via (State.sourceAlone_keeps _ _ _) rfl ?_
    exact Keeps.refl _ _
  · extract_lets -lift -merge -useContext -underBinder +onlyGivenNames x0
    have h0 : Keeps State.stopRebuild_parts s0 x0 := by
      unfold x0
      refine Keeps.via (State.fence_keeps _ _) rfl ?_
      refine Keeps.via (State.event_keeps _ _ _) rfl ?_
      exact Keeps.refl _ _
    refine Keeps.via (State.sendCtl_keeps _ _ _ _ _) rfl ?_
    exact h0

def State.settleTo_parts : List Part := [.log, .sb, .links, .twin, .ord, .mir, .sch, .reg Reg.GLB_EVENT, .reg Reg.GLB_DIRSTAT, .reg Reg.ORD_FWD, .reg Reg.ORD_LINEHOLD, .reg Reg.ECC_SEALFAIL, .reg Reg.ECC_FIRSTFAIL, .reg Reg.LOG_RINGSTAT, .reg Reg.LOG_CAPTURED, .reg Reg.LOG_COALESCED, .reg Reg.LOG_LOST, .reg Reg.LOG_ORPHANS, .reg Reg.LOG_SQUALLS]

theorem State.settleTo_keeps (s0 : State) (ps : PairState) :
    Keeps State.settleTo_parts s0 (State.settleTo s0 ps) := by
  unfold State.settleTo
  refine Keeps.via (State.event_keeps _ _ _) rfl ?_
  refine Keeps.via (State.setPair_keeps _ _) rfl ?_
  exact Keeps.refl _ _

def State.resume_parts : List Part := [.log, .sb, .links, .twin, .ord, .map, .mir, .sch, .reg Reg.GLB_EVENT, .reg Reg.GLB_DIRSTAT, .reg Reg.ORD_FWD, .reg Reg.ORD_LINEHOLD, .reg Reg.ECC_SEALFAIL, .reg Reg.ECC_FIRSTFAIL, .reg Reg.LOG_RINGSTAT, .reg Reg.LOG_CAPTURED, .reg Reg.LOG_COALESCED, .reg Reg.LOG_LOST, .reg Reg.LOG_ORPHANS, .reg Reg.LOG_SQUALLS]

theorem State.resume_keeps (s0 : State) :
    Keeps State.resume_parts s0 (State.resume s0) := by
  unfold State.resume
  extract_lets -lift -merge -useContext -underBinder +onlyGivenNames x0
  try clear_value x0
  extract_lets -lift -merge -useContext -underBinder +onlyGivenNames x1 x2
  have h2 : Keeps State.resume_parts s0 x2 := by
    unfold x2
    refine Keeps.via (Keeps.upd_mir _ _) rfl ?_
    exact Keeps.refl _ _
  refine Keeps.ite ?_ ?_
  · refine Keeps.via (State.copyFrom_keeps _ _) rfl ?_
    exact h2
  · exact h2

def execPairSettle_parts : List Part := [.rx, .top, .log, .sb, .links, .twin, .ord, .map, .mir, .sch, .flt, .cal, .pwr, .boot, .reg Reg.GLB_HUBID, .reg Reg.GLB_EVENT, .reg Reg.GLB_DIRSTAT, .reg Reg.GLB_QUIESCE, .block 0x1, .reg Reg.ORD_FWD, .reg Reg.ORD_LINEHOLD, .reg Reg.ORD_FLUSHES, .reg Reg.MAP_REJ, .reg Reg.MIR_CAUSE, .reg Reg.MIR_RBCUR, .reg Reg.MIR_PENDOCC, .reg Reg.MIR_FWDMISS, .reg Reg.MIR_HOSTAT, .reg Reg.MIR_HOCNT, .reg Reg.DPH_RETSTAT, .reg Reg.ECC_SEALFAIL, .reg Reg.ECC_FIRSTFAIL, .reg Reg.ECC_REPAIR, .reg Reg.LOG_RINGSTAT, .reg Reg.LOG_CAPTURED, .reg Reg.LOG_COALESCED, .reg Reg.LOG_LOST, .reg Reg.LOG_ORPHANS, .reg Reg.LOG_SQUALLS]

theorem execPairSettle_keeps (s0 : State) :
    KeepsOut execPairSettle_parts s0 (execPairSettle s0) := by
  unfold execPairSettle
  refine KeepsOut.next ?_
  refine Keeps.ite ?_ ?_
  · refine Keeps.via (State.serve_keeps _) rfl ?_
    exact Keeps.refl _ _
  · refine Keeps.ite ?_ ?_
    · split
      · refine Keeps.ite ?_ ?_
        · refine Keeps.via (State.fenceSettled_keeps _ _) rfl ?_
          exact Keeps.refl _ _
        · refine Keeps.ite ?_ ?_
          · refine Keeps.via (State.settleTo_keeps _ _) rfl ?_
            exact Keeps.refl _ _
          · refine Keeps.ite ?_ ?_
            · exact Keeps.refl _ _
            · split
              · refine Keeps.ite ?_ ?_
                · extract_lets -lift -merge -useContext -underBinder +onlyGivenNames x0
                  have h0 : Keeps execPairSettle_parts s0 x0 := by
                    unfold x0
                    refine Keeps.via (State.serve_keeps _) rfl ?_
                    refine Keeps.via (State.settleTo_keeps _ _) rfl ?_
                    exact Keeps.refl _ _
                  refine Keeps.via (State.resyncOwn_keeps _) rfl ?_
                  refine Keeps.ite ?_ ?_
                  · refine Keeps.via (State.reapply_keeps _) rfl ?_
                    exact h0
                  · exact h0
                · exact Keeps.refl _ _
              · refine Keeps.ite ?_ ?_
                · refine Keeps.via (State.resume_keeps _) rfl ?_
                  refine Keeps.via (State.serve_keeps _) rfl ?_
                  refine Keeps.via (State.settleTo_keeps _ _) rfl ?_
                  exact Keeps.refl _ _
                · exact Keeps.refl _ _
              · refine Keeps.ite ?_ ?_
                · refine Keeps.via (State.resume_keeps _) rfl ?_
                  refine Keeps.via (State.serve_keeps _) rfl ?_
                  refine Keeps.via (State.settleTo_keeps _ _) rfl ?_
                  exact Keeps.refl _ _
                · exact Keeps.refl _ _
              · exact Keeps.refl _ _
      · refine Keeps.ite ?_ ?_
        · refine Keeps.via (State.settleTo_keeps _ _) rfl ?_
          exact Keeps.refl _ _
        · exact Keeps.refl _ _
    · exact Keeps.refl _ _

def execJoinUnsettledTimeout_parts : List Part := [.log, .sb, .reg Reg.GLB_EVENT, .reg Reg.GLB_DIRSTAT, .reg Reg.LOG_RINGSTAT, .reg Reg.LOG_CAPTURED, .reg Reg.LOG_COALESCED, .reg Reg.LOG_LOST, .reg Reg.LOG_ORPHANS, .reg Reg.LOG_SQUALLS]

theorem execJoinUnsettledTimeout_keeps (s0 : State) :
    KeepsOut execJoinUnsettledTimeout_parts s0 (execJoinUnsettledTimeout s0) := by
  unfold execJoinUnsettledTimeout
  refine KeepsOut.next ?_
  refine Keeps.ite ?_ ?_
  · refine Keeps.via (State.event_keeps _ _ _) rfl ?_
    exact Keeps.refl _ _
  · exact Keeps.refl _ _

end Sys2Proof.Machine
end

