-- ==== Sys2Proof/Laws/KeepsSchedule.lean ====
section
/-!
SUPPORT. The frames of the operations of Machine/Schedule.lean: the parts of the state each may change, and that each keeps the canonical
form. A proof of a frame cites these and unfolds nothing.
-/

namespace Sys2Proof.Machine

def State.issue_parts : List Part := [.sch]

theorem State.issue_keeps (s0 : State) (n : ℕ) (k : CmdKind) (l : Loc) (auto : Bool) (ck : ℕ) :
    Keeps State.issue_parts s0 (State.issue s0 n k l auto ck) := by
  unfold State.issue
  extract_lets -lift -merge -useContext -underBinder +onlyGivenNames x0
  try clear_value x0
  refine Keeps.via (State.onSub_keeps _ _ _) rfl ?_
  exact Keeps.refl _ _

def State.setTraining_parts : List Part := [.cal]

theorem State.setTraining_keeps (s0 : State) (n : ℕ) (t : TrainRun) :
    Keeps State.setTraining_parts s0 (State.setTraining s0 n t) := by
  unfold State.setTraining
  refine Keeps.via (Keeps.upd_cal _ _) rfl ?_
  exact Keeps.refl _ _

def State.drive_parts : List Part := [.sch]

theorem State.drive_keeps (s0 : State) (n : ℕ) (l : Loc) (cw : List Byte) :
    Keeps State.drive_parts s0 (State.drive s0 n l cw) := by
  unfold State.drive
  refine Keeps.via (State.onSub_keeps _ _ _) rfl ?_
  exact Keeps.refl _ _

def State.driveWrite_parts : List Part := [.sch]

theorem State.driveWrite_keeps (s0 : State) (n : ℕ) (l : Loc) (cw : List Byte) :
    Keeps State.driveWrite_parts s0 (State.driveWrite s0 n l cw) := by
  unfold State.driveWrite
  refine Keeps.via (State.onSub_keeps _ _ _) rfl ?_
  refine Keeps.via (State.drive_keeps _ _ _ _) rfl ?_
  exact Keeps.refl _ _

def State.enter_parts : List Part := [.log, .sb, .links, .twin, .ord, .mir, .sch, .reg Reg.GLB_EVENT, .reg Reg.GLB_DIRSTAT, .reg Reg.ORD_FWD, .reg Reg.ORD_LINEHOLD, .block 0x5, .reg Reg.ECC_SEALFAIL, .reg Reg.ECC_FIRSTFAIL, .reg Reg.LOG_RINGSTAT, .reg Reg.LOG_CAPTURED, .reg Reg.LOG_COALESCED, .reg Reg.LOG_LOST, .reg Reg.LOG_ORPHANS, .reg Reg.LOG_SQUALLS]

theorem State.enter_keeps (s0 : State) (n : ℕ) (e : StoreEntry) :
    Keeps State.enter_parts s0 (State.enter s0 n e) := by
  unfold State.enter
  refine Keeps.ite ?_ ?_
  · refine Keeps.via (State.onRetired_keeps _ _) rfl ?_
    exact Keeps.refl _ _
  · extract_lets -lift -merge -useContext -underBinder +onlyGivenNames x0
    have h0 : Keeps State.enter_parts s0 x0 := by
      unfold x0
      refine Keeps.ite ?_ ?_
      · refine Keeps.via (State.onSub_keeps _ _ _) rfl ?_
        exact Keeps.refl _ _
      · exact Keeps.refl _ _
    extract_lets -lift -merge -useContext -underBinder +onlyGivenNames x1
    have h1 : Keeps State.enter_parts s0 x1 := by
      unfold x1
      refine Keeps.via (State.onSub_keeps _ _ _) rfl ?_
      exact h0
    refine Keeps.viaBlock (b := 5) (State.noteHigh_keeps _ _ _) (fam_block _ _ _ _ rfl (by decide)) rfl ?_
    exact h1

def State.takeIntake_parts : List Part := [.log, .sb, .links, .twin, .ord, .mir, .sch, .reg Reg.GLB_EVENT, .reg Reg.GLB_DIRSTAT, .reg Reg.ORD_FWD, .reg Reg.ORD_LINEHOLD, .block 0x5, .reg Reg.ECC_SEALFAIL, .reg Reg.ECC_FIRSTFAIL, .reg Reg.LOG_RINGSTAT, .reg Reg.LOG_CAPTURED, .reg Reg.LOG_COALESCED, .reg Reg.LOG_LOST, .reg Reg.LOG_ORPHANS, .reg Reg.LOG_SQUALLS]

theorem State.takeIntake_keeps (s0 : State) (n : ℕ) :
    KeepsOpt State.takeIntake_parts s0 (State.takeIntake s0 n) := by
  unfold State.takeIntake
  extract_lets -lift -merge -useContext -underBinder +onlyGivenNames x0
  try clear_value x0
  split
  · exact KeepsOpt.none
  · refine KeepsOpt.ite ?_ ?_
    · exact KeepsOpt.none
    · extract_lets -lift -merge -useContext -underBinder +onlyGivenNames x1
      have h1 : Keeps State.takeIntake_parts s0 x1 := by
        unfold x1
        refine Keeps.via (State.setSub_keeps _ _ _) rfl ?_
        exact Keeps.refl _ _
      split
      · refine KeepsOpt.some ?_
        exact h1
      · extract_lets -lift -merge -useContext -underBinder +onlyGivenNames x2
        try clear_value x2
        extract_lets -lift -merge -useContext -underBinder +onlyGivenNames x3
        try clear_value x3
        extract_lets -lift -merge -useContext -underBinder +onlyGivenNames x4
        try clear_value x4
        split
        · refine KeepsOpt.ite ?_ ?_
          · exact KeepsOpt.none
          · refine KeepsOpt.ite ?_ ?_
            · refine KeepsOpt.ite ?_ ?_
              · exact KeepsOpt.none
              · refine KeepsOpt.some ?_
                refine Keeps.via (State.enter_keeps _ _ _) rfl ?_
                exact h1
            · refine KeepsOpt.ite ?_ ?_
              · refine KeepsOpt.ite ?_ ?_
                · exact KeepsOpt.none
                · extract_lets -lift -merge -useContext -underBinder +onlyGivenNames x5
                  have h5 : Keeps State.takeIntake_parts s0 x5 := by
                    unfold x5
                    refine Keeps.via (State.onEntry_keeps _ _ _) rfl ?_
                    exact h1
                  extract_lets -lift -merge -useContext -underBinder +onlyGivenNames x6
                  have h6 : Keeps State.takeIntake_parts s0 x6 := by
                    unfold x6
                    refine Keeps.via (State.enter_keeps _ _ _) rfl ?_
                    exact h5
                  refine KeepsOpt.some ?_
                  refine Keeps.via (State.enter_keeps _ _ _) rfl ?_
                  exact h6
              · refine KeepsOpt.some ?_
                refine Keeps.via (State.enter_keeps _ _ _) rfl ?_
                exact h1
        · refine KeepsOpt.some ?_
          refine Keeps.via (State.enter_keeps _ _ _) rfl ?_
          exact h1

def State.queueMaint_parts : List Part := [.sch]

theorem State.queueMaint_keeps (s0 : State) (n : ℕ) (e : StoreEntry) :
    Keeps State.queueMaint_parts s0 (State.queueMaint s0 n e) := by
  unfold State.queueMaint
  refine Keeps.via (State.onSub_keeps _ _ _) rfl ?_
  exact Keeps.refl _ _

def State.takeMaint_parts : List Part := [.log, .sb, .links, .twin, .ord, .mir, .sch, .reg Reg.GLB_EVENT, .reg Reg.GLB_DIRSTAT, .reg Reg.ORD_FWD, .reg Reg.ORD_LINEHOLD, .block 0x5, .reg Reg.ECC_SEALFAIL, .reg Reg.ECC_FIRSTFAIL, .reg Reg.LOG_RINGSTAT, .reg Reg.LOG_CAPTURED, .reg Reg.LOG_COALESCED, .reg Reg.LOG_LOST, .reg Reg.LOG_ORPHANS, .reg Reg.LOG_SQUALLS]

theorem State.takeMaint_keeps (s0 : State) (n : ℕ) :
    KeepsOpt State.takeMaint_parts s0 (State.takeMaint s0 n) := by
  unfold State.takeMaint
  extract_lets -lift -merge -useContext -underBinder +onlyGivenNames x0
  try clear_value x0
  split
  · exact KeepsOpt.none
  · refine KeepsOpt.ite ?_ ?_
    · exact KeepsOpt.none
    · refine KeepsOpt.some ?_
      refine Keeps.via (State.enter_keeps _ _ _) rfl ?_
      refine Keeps.via (State.setSub_keeps _ _ _) rfl ?_
      exact Keeps.refl _ _

def State.feedMaint_parts : List Part := [.mir, .sch]

theorem State.feedMaint_keeps (s0 : State) (n : ℕ) :
    KeepsOpt State.feedMaint_parts s0 (State.feedMaint s0 n) := by
  unfold State.feedMaint
  refine KeepsOpt.ite ?_ ?_
  · exact KeepsOpt.none
  · refine KeepsOpt.ite ?_ ?_
    · extract_lets -lift -merge -useContext -underBinder +onlyGivenNames x0
      try clear_value x0
      extract_lets -lift -merge -useContext -underBinder +onlyGivenNames x1
      try clear_value x1
      extract_lets -lift -merge -useContext -underBinder +onlyGivenNames x2
      try clear_value x2
      refine KeepsOpt.ite ?_ ?_
      · extract_lets -lift -merge -useContext -underBinder +onlyGivenNames x3
        try clear_value x3
        extract_lets -lift -merge -useContext -underBinder +onlyGivenNames x4
        try clear_value x4
        extract_lets -lift -merge -useContext -underBinder +onlyGivenNames x5
        try clear_value x5
        refine KeepsOpt.ite ?_ ?_
        · exact KeepsOpt.none
        · extract_lets -lift -merge -useContext -underBinder +onlyGivenNames x6 x7
          have h7 : Keeps State.feedMaint_parts s0 x7 := by
            unfold x7
            refine Keeps.via (State.queueMaint_keeps _ _ _) rfl ?_
            refine Keeps.via (Keeps.upd_mir _ _) rfl ?_
            exact Keeps.refl _ _
          refine KeepsOpt.some ?_
          split
          · refine Keeps.via (State.queueMaint_keeps _ _ _) rfl ?_
            exact h7
          · exact h7
      · exact KeepsOpt.none
    · split
      · extract_lets -lift -merge -useContext -underBinder +onlyGivenNames x8
        try clear_value x8
        extract_lets -lift -merge -useContext -underBinder +onlyGivenNames x9
        try clear_value x9
        extract_lets -lift -merge -useContext -underBinder +onlyGivenNames x10
        try clear_value x10
        extract_lets -lift -merge -useContext -underBinder +onlyGivenNames x11
        try clear_value x11
        refine KeepsOpt.some ?_
        refine Keeps.via (State.onSub_keeps _ _ _) rfl ?_
        refine Keeps.via (Keeps.upd_mir _ _) rfl ?_
        exact Keeps.refl _ _
      · exact KeepsOpt.none

def State.stageAt_parts : List Part := [.sch]

theorem State.stageAt_keeps (s0 : State) (n : ℕ) (k : ℕ) (cw : List Byte) :
    Keeps State.stageAt_parts s0 (State.stageAt s0 n k cw) := by
  unfold State.stageAt
  refine Keeps.via (State.onSub_keeps _ _ _) rfl ?_
  exact Keeps.refl _ _

def State.notePattern_parts : List Part := [.log, .sb, .reg Reg.GLB_EVENT, .reg Reg.GLB_DIRSTAT, .reg Reg.LOG_RINGSTAT, .reg Reg.LOG_CAPTURED, .reg Reg.LOG_COALESCED, .reg Reg.LOG_LOST, .reg Reg.LOG_ORPHANS, .reg Reg.LOG_SQUALLS]

theorem State.notePattern_keeps (s0 : State) (n : ℕ) (k : PoisonKind) :
    Keeps State.notePattern_parts s0 (State.notePattern s0 n k) := by
  unfold State.notePattern
  refine Keeps.ite ?_ ?_
  · exact Keeps.refl _ _
  · refine Keeps.via (State.event_keeps _ _ _) rfl ?_
    exact Keeps.refl _ _

def State.dropCorrection_parts : List Part := [.log, .sb, .links, .twin, .ord, .mir, .sch, .flt, .reg Reg.GLB_EVENT, .reg Reg.GLB_DIRSTAT, .reg Reg.ORD_FWD, .reg Reg.ORD_LINEHOLD, .block 0x5, .reg Reg.ECC_SEALFAIL, .reg Reg.ECC_FIRSTFAIL, .reg Reg.LOG_RINGSTAT, .reg Reg.LOG_CAPTURED, .reg Reg.LOG_COALESCED, .reg Reg.LOG_LOST, .reg Reg.LOG_ORPHANS, .reg Reg.LOG_SQUALLS]

theorem State.dropCorrection_keeps (s0 : State) (n : ℕ) (e : StoreEntry) :
    Keeps State.dropCorrection_parts s0 (State.dropCorrection s0 n e) := by
  unfold State.dropCorrection
  extract_lets -lift -merge -useContext -underBinder +onlyGivenNames x0
  have h0 : Keeps State.dropCorrection_parts s0 x0 := by
    unfold x0
    refine Keeps.viaBlock (b := 5) (State.bump_keeps _ _ _) (fam_block _ _ _ _ rfl (by decide)) rfl ?_
    refine Keeps.via (State.onSub_keeps _ _ _) rfl ?_
    exact Keeps.refl _ _
  split
  · refine Keeps.via (State.freeCorr_keeps _ _ _) rfl ?_
    exact h0
  · exact h0

def State.encodePool_parts : List Part := [.log, .sb, .ord, .sch, .reg Reg.GLB_EVENT, .reg Reg.GLB_DIRSTAT, .reg Reg.ECC_SEALFAIL, .reg Reg.ECC_FIRSTFAIL, .reg Reg.LOG_RINGSTAT, .reg Reg.LOG_CAPTURED, .reg Reg.LOG_COALESCED, .reg Reg.LOG_LOST, .reg Reg.LOG_ORPHANS, .reg Reg.LOG_SQUALLS]

theorem State.encodePool_keeps (s0 : State) (n : ℕ) (k : ℕ) (i : ℕ) (q : PoolEntry) :
    Keeps State.encodePool_parts s0 (State.encodePool s0 n k i q) := by
  unfold State.encodePool
  extract_lets -lift -merge -useContext -underBinder +onlyGivenNames x0
  have h0 : Keeps State.encodePool_parts s0 x0 := by
    unfold x0
    refine Keeps.via (State.checkSeal_keeps _ _ _) rfl ?_
    exact Keeps.refl _ _
  refine Keeps.ite ?_ ?_
  · refine Keeps.via (State.onEntry_keeps _ _ _) rfl ?_
    exact h0
  · extract_lets -lift -merge -useContext -underBinder +onlyGivenNames x1
    try clear_value x1
    extract_lets -lift -merge -useContext -underBinder +onlyGivenNames x2
    have h2 : Keeps State.encodePool_parts s0 x2 := by
      unfold x2
      refine Keeps.ite ?_ ?_
      · refine Keeps.via (State.onEntry_keeps _ _ _) rfl ?_
        exact h0
      · exact h0
    refine Keeps.via (State.stageAt_keeps _ _ _ _) rfl ?_
    refine Keeps.via (State.notePattern_keeps _ _ _) rfl ?_
    exact h2

def State.encodeFormat_parts : List Part := [.log, .sb, .sch, .reg Reg.GLB_EVENT, .reg Reg.GLB_DIRSTAT, .reg Reg.ECC_SEALFAIL, .reg Reg.ECC_FIRSTFAIL, .reg Reg.LOG_RINGSTAT, .reg Reg.LOG_CAPTURED, .reg Reg.LOG_COALESCED, .reg Reg.LOG_LOST, .reg Reg.LOG_ORPHANS, .reg Reg.LOG_SQUALLS]

theorem State.encodeFormat_keeps (s0 : State) (n : ℕ) (k : ℕ) (e : StoreEntry) :
    Keeps State.encodeFormat_parts s0 (State.encodeFormat s0 n k e) := by
  unfold State.encodeFormat
  extract_lets -lift -merge -useContext -underBinder +onlyGivenNames x0
  try clear_value x0
  refine Keeps.ite ?_ ?_
  · refine Keeps.via (State.stageAt_keeps _ _ _ _) rfl ?_
    exact Keeps.refl _ _
  · extract_lets -lift -merge -useContext -underBinder +onlyGivenNames x1
    have h1 : Keeps State.encodeFormat_parts s0 x1 := by
      unfold x1
      refine Keeps.via (State.sealFail_keeps _ _ _ _ _) rfl ?_
      exact Keeps.refl _ _
    refine Keeps.ite ?_ ?_
    · refine Keeps.via (State.stageAt_keeps _ _ _ _) rfl ?_
      refine Keeps.via (State.notePattern_keeps _ _ _) rfl ?_
      exact h1
    · refine Keeps.via (State.onSub_keeps _ _ _) rfl ?_
      exact h1

def State.encodeCorrection_parts : List Part := [.log, .sb, .links, .twin, .ord, .mir, .sch, .flt, .reg Reg.GLB_EVENT, .reg Reg.GLB_DIRSTAT, .reg Reg.ORD_FWD, .reg Reg.ORD_LINEHOLD, .block 0x5, .reg Reg.ECC_SEALFAIL, .reg Reg.ECC_FIRSTFAIL, .reg Reg.LOG_RINGSTAT, .reg Reg.LOG_CAPTURED, .reg Reg.LOG_COALESCED, .reg Reg.LOG_LOST, .reg Reg.LOG_ORPHANS, .reg Reg.LOG_SQUALLS]

theorem State.encodeCorrection_keeps (s0 : State) (n : ℕ) (k : ℕ) (e : StoreEntry) :
    Keeps State.encodeCorrection_parts s0 (State.encodeCorrection s0 n k e) := by
  unfold State.encodeCorrection
  split
  · extract_lets -lift -merge -useContext -underBinder +onlyGivenNames x0
    try clear_value x0
    refine Keeps.ite ?_ ?_
    · refine Keeps.via (State.stageAt_keeps _ _ _ _) rfl ?_
      exact Keeps.refl _ _
    · refine Keeps.via (State.dropCorrection_keeps _ _ _) rfl ?_
      refine Keeps.via (State.sealFail_keeps _ _ _ _ _) rfl ?_
      exact Keeps.refl _ _
  · refine Keeps.via (State.onSub_keeps _ _ _) rfl ?_
    exact Keeps.refl _ _

def State.stageOne_parts : List Part := [.log, .sb, .links, .twin, .ord, .mir, .sch, .flt, .reg Reg.GLB_EVENT, .reg Reg.GLB_DIRSTAT, .reg Reg.ORD_FWD, .reg Reg.ORD_LINEHOLD, .block 0x5, .reg Reg.ECC_SEALFAIL, .reg Reg.ECC_FIRSTFAIL, .reg Reg.LOG_RINGSTAT, .reg Reg.LOG_CAPTURED, .reg Reg.LOG_COALESCED, .reg Reg.LOG_LOST, .reg Reg.LOG_ORPHANS, .reg Reg.LOG_SQUALLS]

theorem State.stageOne_keeps (s0 : State) (n : ℕ) :
    KeepsOpt State.stageOne_parts s0 (State.stageOne s0 n) := by
  unfold State.stageOne
  extract_lets -lift -merge -useContext -underBinder +onlyGivenNames x0
  try clear_value x0
  refine KeepsOpt.ite ?_ ?_
  · exact KeepsOpt.none
  · refine KeepsOpt.bind (fun _ => ?_)
    · refine KeepsOpt.map (fun _ => ?_)
      · split
        · refine Keeps.via (State.encodeCorrection_keeps _ _ _ _) rfl ?_
          exact Keeps.refl _ _
        · refine Keeps.via (State.encodeFormat_keeps _ _ _ _) rfl ?_
          exact Keeps.refl _ _
        · refine Keeps.via (State.stageAt_keeps _ _ _ _) rfl ?_
          exact Keeps.refl _ _
        · split
          · split
            · refine Keeps.via (State.encodePool_keeps _ _ _ _ _) rfl ?_
              exact Keeps.refl _ _
            · refine Keeps.via (State.stageAt_keeps _ _ _ _) rfl ?_
              exact Keeps.refl _ _
          · refine Keeps.via (State.stageAt_keeps _ _ _ _) rfl ?_
            exact Keeps.refl _ _

def State.fillStore_parts : List Part := [.log, .sb, .links, .twin, .ord, .mir, .sch, .flt, .reg Reg.GLB_EVENT, .reg Reg.GLB_DIRSTAT, .reg Reg.ORD_FWD, .reg Reg.ORD_LINEHOLD, .block 0x5, .reg Reg.ECC_SEALFAIL, .reg Reg.ECC_FIRSTFAIL, .reg Reg.LOG_RINGSTAT, .reg Reg.LOG_CAPTURED, .reg Reg.LOG_COALESCED, .reg Reg.LOG_LOST, .reg Reg.LOG_ORPHANS, .reg Reg.LOG_SQUALLS]

theorem State.fillStore_keeps (s0 : State) (n : ℕ) :
    Keeps State.fillStore_parts s0 (State.fillStore s0 n) := by
  unfold State.fillStore
  extract_lets -lift -merge -useContext -underBinder +onlyGivenNames x0
  have h0 : Keeps State.fillStore_parts s0 x0 := by
    unfold x0
    refine Keeps.trans ?_ (repeatS_keeps (fun t1 => ?_) _ _)
    · exact Keeps.refl _ _
    · refine KeepsOpt.via (State.takeIntake_keeps _ _) rfl ?_
      exact Keeps.refl _ _
  extract_lets -lift -merge -useContext -underBinder +onlyGivenNames x2
  have h2 : Keeps State.fillStore_parts s0 x2 := by
    unfold x2
    refine Keeps.trans ?_ (repeatS_keeps (fun t3 => ?_) _ _)
    · exact h0
    · refine KeepsOpt.via (State.feedMaint_keeps _ _) rfl ?_
      exact Keeps.refl _ _
  extract_lets -lift -merge -useContext -underBinder +onlyGivenNames x4
  have h4 : Keeps State.fillStore_parts s0 x4 := by
    unfold x4
    refine Keeps.trans ?_ (repeatS_keeps (fun t5 => ?_) _ _)
    · exact h2
    · refine KeepsOpt.via (State.takeMaint_keeps _ _) rfl ?_
      exact Keeps.refl _ _
  extract_lets -lift -merge -useContext -underBinder +onlyGivenNames x6
  have h6 : Keeps State.fillStore_parts s0 x6 := by
    unfold x6
    refine Keeps.via (State.dispatchSome_keeps _ _ _) rfl ?_
    exact h4
  refine Keeps.trans ?_ (repeatS_keeps (fun t7 => ?_) _ _)
  · exact h6
  · refine KeepsOpt.via (State.stageOne_keeps _ _) rfl ?_
    exact Keeps.refl _ _

def State.turn_parts : List Part := [.sch, .block 0x5]

theorem State.turn_keeps (s0 : State) (n : ℕ) :
    Keeps State.turn_parts s0 (State.turn s0 n) := by
  unfold State.turn
  extract_lets -lift -merge -useContext -underBinder +onlyGivenNames x0
  try clear_value x0
  extract_lets -lift -merge -useContext -underBinder +onlyGivenNames x1
  try clear_value x1
  extract_lets -lift -merge -useContext -underBinder +onlyGivenNames x2
  try clear_value x2
  extract_lets -lift -merge -useContext -underBinder +onlyGivenNames x3
  try clear_value x3
  extract_lets -lift -merge -useContext -underBinder +onlyGivenNames x4
  try clear_value x4
  extract_lets -lift -merge -useContext -underBinder +onlyGivenNames x5
  try clear_value x5
  refine Keeps.ite ?_ ?_
  · refine Keeps.viaBlock (b := 5) (State.bump_keeps _ _ _) (fam_block _ _ _ _ rfl (by decide)) rfl ?_
    refine Keeps.via (State.setSub_keeps _ _ _) rfl ?_
    exact Keeps.refl _ _
  · exact Keeps.refl _ _

def State.column_parts : List Part := [.sch]

theorem State.column_keeps (s0 : State) (n : ℕ) (e : StoreEntry) (ck : ℕ) :
    Keeps State.column_parts s0 (State.column s0 n e ck) := by
  unfold State.column
  extract_lets -lift -merge -useContext -underBinder +onlyGivenNames x0
  try clear_value x0
  split
  · extract_lets -lift -merge -useContext -underBinder +onlyGivenNames x1
    try clear_value x1
    extract_lets -lift -merge -useContext -underBinder +onlyGivenNames x2
    try clear_value x2
    extract_lets -lift -merge -useContext -underBinder +onlyGivenNames x3
    try clear_value x3
    refine Keeps.via (State.issue_keeps _ _ _ _ _ _) rfl ?_
    refine Keeps.via (State.onSub_keeps _ _ _) rfl ?_
    exact Keeps.refl _ _
  · exact Keeps.refl _ _

def State.putCodeword_parts : List Part := [.sch, .dram]

theorem State.putCodeword_keeps (s0 : State) (n : ℕ) (e : StoreEntry) (ck : ℕ) (cw : List Byte) :
    Keeps State.putCodeword_parts s0 (State.putCodeword s0 n e ck cw) := by
  unfold State.putCodeword
  refine Keeps.via (State.onSub_keeps _ _ _) rfl ?_
  refine Keeps.via (State.store_keeps _ _ _ _) rfl ?_
  refine Keeps.via (State.driveWrite_keeps _ _ _ _) rfl ?_
  exact Keeps.refl _ _

def State.issueWrite_parts : List Part := [.log, .sb, .links, .twin, .ord, .mir, .sch, .dram, .reg Reg.GLB_EVENT, .reg Reg.GLB_DIRSTAT, .reg Reg.ORD_FWD, .reg Reg.ORD_LINEHOLD, .reg Reg.ECC_SEALFAIL, .reg Reg.ECC_FIRSTFAIL, .reg Reg.LOG_RINGSTAT, .reg Reg.LOG_CAPTURED, .reg Reg.LOG_COALESCED, .reg Reg.LOG_LOST, .reg Reg.LOG_ORPHANS, .reg Reg.LOG_SQUALLS]

theorem State.issueWrite_keeps (s0 : State) (n : ℕ) (e : StoreEntry) (i : ℕ) (ck : ℕ) :
    Keeps State.issueWrite_parts s0 (State.issueWrite s0 n e i ck) := by
  unfold State.issueWrite
  split
  · extract_lets -lift -merge -useContext -underBinder +onlyGivenNames x0
    have h0 : Keeps State.issueWrite_parts s0 x0 := by
      unfold x0
      refine Keeps.via (State.putCodeword_keeps _ _ _ _ _) rfl ?_
      exact Keeps.refl _ _
    refine Keeps.ite ?_ ?_
    · refine Keeps.via (State.onEntry_keeps _ _ _) rfl ?_
      exact h0
    · extract_lets -lift -merge -useContext -underBinder +onlyGivenNames x1
      have h1 : Keeps State.issueWrite_parts s0 x1 := by
        unfold x1
        refine Keeps.via (State.tryFree_keeps _ _) rfl ?_
        refine Keeps.via (State.onEntry_keeps _ _ _) rfl ?_
        exact h0
      refine Keeps.via (State.watchPace_keeps _) rfl ?_
      refine Keeps.via (State.pumpAgents_keeps _ _) rfl ?_
      exact h1
  · exact Keeps.refl _ _

def State.issueCorrection_parts : List Part := [.log, .sb, .links, .twin, .ord, .mir, .sch, .flt, .dram, .reg Reg.GLB_EVENT, .reg Reg.GLB_DIRSTAT, .reg Reg.ORD_FWD, .reg Reg.ORD_LINEHOLD, .reg Reg.ECC_SEALFAIL, .reg Reg.ECC_FIRSTFAIL, .reg Reg.LOG_RINGSTAT, .reg Reg.LOG_CAPTURED, .reg Reg.LOG_COALESCED, .reg Reg.LOG_LOST, .reg Reg.LOG_ORPHANS, .reg Reg.LOG_SQUALLS]

theorem State.issueCorrection_keeps (s0 : State) (n : ℕ) (e : StoreEntry) (ck : ℕ) :
    Keeps State.issueCorrection_parts s0 (State.issueCorrection s0 n e ck) := by
  unfold State.issueCorrection
  split
  · refine Keeps.via (State.freeCorr_keeps _ _ _) rfl ?_
    refine Keeps.ite ?_ ?_
    · refine Keeps.via (State.putCodeword_keeps _ _ _ _ _) rfl ?_
      exact Keeps.refl _ _
    · exact Keeps.refl _ _
  · exact Keeps.refl _ _

def State.issueColumn_parts : List Part := [.log, .sb, .links, .twin, .ord, .mir, .sch, .flt, .dram, .reg Reg.GLB_EVENT, .reg Reg.GLB_DIRSTAT, .reg Reg.ORD_FWD, .reg Reg.ORD_LINEHOLD, .block 0x5, .reg Reg.ECC_SEALFAIL, .reg Reg.ECC_FIRSTFAIL, .reg Reg.LOG_RINGSTAT, .reg Reg.LOG_CAPTURED, .reg Reg.LOG_COALESCED, .reg Reg.LOG_LOST, .reg Reg.LOG_ORPHANS, .reg Reg.LOG_SQUALLS]

theorem State.issueColumn_keeps (s0 : State) (n : ℕ) (e : StoreEntry) (ck : ℕ) :
    Keeps State.issueColumn_parts s0 (State.issueColumn s0 n e ck) := by
  unfold State.issueColumn
  split
  · extract_lets -lift -merge -useContext -underBinder +onlyGivenNames x0
    have h0 : Keeps State.issueColumn_parts s0 x0 := by
      unfold x0
      refine Keeps.via (State.column_keeps _ _ _ _) rfl ?_
      exact Keeps.refl _ _
    extract_lets -lift -merge -useContext -underBinder +onlyGivenNames x1
    have h1 : Keeps State.issueColumn_parts s0 x1 := by
      unfold x1
      refine Keeps.ite ?_ ?_
      · refine Keeps.viaBlock (b := 5) (State.bump_keeps _ _ _) (fam_block _ _ _ _ rfl (by decide)) rfl ?_
        exact h0
      · exact h0
    refine Keeps.via (State.onSub_keeps _ _ _) rfl ?_
    refine Keeps.via (State.drive_keeps _ _ _ _) rfl ?_
    exact h1
  · extract_lets -lift -merge -useContext -underBinder +onlyGivenNames x2
    have h2 : Keeps State.issueColumn_parts s0 x2 := by
      unfold x2
      refine Keeps.via (State.column_keeps _ _ _ _) rfl ?_
      exact Keeps.refl _ _
    extract_lets -lift -merge -useContext -underBinder +onlyGivenNames x3
    have h3 : Keeps State.issueColumn_parts s0 x3 := by
      unfold x3
      refine Keeps.ite ?_ ?_
      · refine Keeps.viaBlock (b := 5) (State.bump_keeps _ _ _) (fam_block _ _ _ _ rfl (by decide)) rfl ?_
        exact h2
      · exact h2
    refine Keeps.via (State.onSub_keeps _ _ _) rfl ?_
    refine Keeps.via (State.drive_keeps _ _ _ _) rfl ?_
    exact h3
  · extract_lets -lift -merge -useContext -underBinder +onlyGivenNames x4
    have h4 : Keeps State.issueColumn_parts s0 x4 := by
      unfold x4
      refine Keeps.via (State.column_keeps _ _ _ _) rfl ?_
      exact Keeps.refl _ _
    extract_lets -lift -merge -useContext -underBinder +onlyGivenNames x5
    have h5 : Keeps State.issueColumn_parts s0 x5 := by
      unfold x5
      refine Keeps.ite ?_ ?_
      · refine Keeps.viaBlock (b := 5) (State.bump_keeps _ _ _) (fam_block _ _ _ _ rfl (by decide)) rfl ?_
        exact h4
      · exact h4
    refine Keeps.via (State.onSub_keeps _ _ _) rfl ?_
    refine Keeps.via (State.drive_keeps _ _ _ _) rfl ?_
    exact h5
  · extract_lets -lift -merge -useContext -underBinder +onlyGivenNames x6
    have h6 : Keeps State.issueColumn_parts s0 x6 := by
      unfold x6
      refine Keeps.via (State.column_keeps _ _ _ _) rfl ?_
      exact Keeps.refl _ _
    extract_lets -lift -merge -useContext -underBinder +onlyGivenNames x7
    have h7 : Keeps State.issueColumn_parts s0 x7 := by
      unfold x7
      refine Keeps.ite ?_ ?_
      · refine Keeps.viaBlock (b := 5) (State.bump_keeps _ _ _) (fam_block _ _ _ _ rfl (by decide)) rfl ?_
        exact h6
      · exact h6
    refine Keeps.via (State.onSub_keeps _ _ _) rfl ?_
    refine Keeps.via (State.drive_keeps _ _ _ _) rfl ?_
    exact h7
  · extract_lets -lift -merge -useContext -underBinder +onlyGivenNames x8
    have h8 : Keeps State.issueColumn_parts s0 x8 := by
      unfold x8
      refine Keeps.via (State.column_keeps _ _ _ _) rfl ?_
      exact Keeps.refl _ _
    refine Keeps.via (State.onSub_keeps _ _ _) rfl ?_
    refine Keeps.via (State.drive_keeps _ _ _ _) rfl ?_
    exact h8
  · extract_lets -lift -merge -useContext -underBinder +onlyGivenNames x9
    have h9 : Keeps State.issueColumn_parts s0 x9 := by
      unfold x9
      refine Keeps.via (State.onSub_keeps _ _ _) rfl ?_
      refine Keeps.via (State.column_keeps _ _ _ _) rfl ?_
      exact Keeps.refl _ _
    split
    · refine Keeps.via (State.issueWrite_keeps _ _ _ _ _) rfl ?_
      exact h9
    · exact h9
  · refine Keeps.via (State.issueCorrection_keeps _ _ _ _) rfl ?_
    refine Keeps.via (State.onSub_keeps _ _ _) rfl ?_
    refine Keeps.via (State.column_keeps _ _ _ _) rfl ?_
    exact Keeps.refl _ _
  · refine Keeps.via (State.putCodeword_keeps _ _ _ _ _) rfl ?_
    refine Keeps.via (State.onSub_keeps _ _ _) rfl ?_
    refine Keeps.via (State.column_keeps _ _ _ _) rfl ?_
    exact Keeps.refl _ _
  · refine Keeps.via (State.settleCopy_keeps _ _) rfl ?_
    refine Keeps.via (State.putCodeword_keeps _ _ _ _ _) rfl ?_
    refine Keeps.via (State.onSub_keeps _ _ _) rfl ?_
    refine Keeps.via (State.column_keeps _ _ _ _) rfl ?_
    exact Keeps.refl _ _
  · exact Keeps.refl _ _

def State.probeLine_parts : List Part := [.ord]

theorem State.probeLine_keeps (s0 : State) :
    KeepsOpt State.probeLine_parts s0 (State.probeLine s0) := by
  unfold State.probeLine
  refine KeepsOpt.ite ?_ ?_
  · exact KeepsOpt.none
  · refine KeepsOpt.some ?_
    refine Keeps.via (Keeps.upd_ord _ _) rfl ?_
    exact Keeps.refl _ _

def State.probeOne_parts : List Part := [.ord, .sch]

theorem State.probeOne_keeps (s0 : State) (n : ℕ) :
    KeepsOpt State.probeOne_parts s0 (State.probeOne s0 n) := by
  unfold State.probeOne
  extract_lets -lift -merge -useContext -underBinder +onlyGivenNames x0
  try clear_value x0
  refine KeepsOpt.bind (fun _ => ?_)
  · refine KeepsOpt.bind (fun _ => ?_)
    · split
      · exact KeepsOpt.none
      · extract_lets -lift -merge -useContext -underBinder +onlyGivenNames x1
        try clear_value x1
        extract_lets -lift -merge -useContext -underBinder +onlyGivenNames x2
        try clear_value x2
        refine KeepsOpt.some ?_
        refine Keeps.via (State.onSub_keeps _ _ _) rfl ?_
        refine Keeps.ofSome (by assumption) ?_
        refine KeepsOpt.via (State.probeLine_keeps _) rfl ?_
        exact Keeps.refl _ _

def State.probe_parts : List Part := [.log, .sb, .links, .twin, .ord, .mir, .sch, .flt, .reg Reg.GLB_EVENT, .reg Reg.GLB_DIRSTAT, .reg Reg.ORD_FWD, .reg Reg.ORD_LINEHOLD, .block 0x5, .reg Reg.ECC_SEALFAIL, .reg Reg.ECC_FIRSTFAIL, .reg Reg.LOG_RINGSTAT, .reg Reg.LOG_CAPTURED, .reg Reg.LOG_COALESCED, .reg Reg.LOG_LOST, .reg Reg.LOG_ORPHANS, .reg Reg.LOG_SQUALLS]

theorem State.probe_keeps (s0 : State) (n : ℕ) :
    Keeps State.probe_parts s0 (State.probe s0 n) := by
  unfold State.probe
  extract_lets -lift -merge -useContext -underBinder +onlyGivenNames x0
  try clear_value x0
  extract_lets -lift -merge -useContext -underBinder +onlyGivenNames x1
  try clear_value x1
  refine Keeps.trans ?_ (repeatS_keeps (fun t2 => ?_) _ _)
  · refine Keeps.foldl _ _ ?_ (fun t3 y3 h3 => ?_)
    · exact Keeps.refl _ _
    · refine Keeps.via (State.dropCorrection_keeps _ _ _) rfl ?_
      exact h3
  · refine KeepsOpt.via (State.probeOne_keeps _ _) rfl ?_
    exact Keeps.refl _ _

def State.payAll_parts : List Part := [.sch]

theorem State.payAll_keeps (s0 : State) (n : ℕ) (rank : ℕ) (die : ℕ) :
    Keeps State.payAll_parts s0 (State.payAll s0 n rank die) := by
  unfold State.payAll
  refine Keeps.via (State.onSub_keeps _ _ _) rfl ?_
  exact Keeps.refl _ _

def State.fallbackStep_parts : List Part := [.sch]

theorem State.fallbackStep_keeps (s0 : State) (n : ℕ) (k : ℕ) :
    KeepsOpt State.fallbackStep_parts s0 (State.fallbackStep s0 n k) := by
  unfold State.fallbackStep
  extract_lets -lift -merge -useContext -underBinder +onlyGivenNames x0
  try clear_value x0
  extract_lets -lift -merge -useContext -underBinder +onlyGivenNames x1
  try clear_value x1
  extract_lets -lift -merge -useContext -underBinder +onlyGivenNames x2
  try clear_value x2
  refine KeepsOpt.ite ?_ ?_
  · exact KeepsOpt.none
  · split
    · refine KeepsOpt.map (fun _ => ?_)
      · refine Keeps.via (State.issue_keeps _ _ _ _ _ _) rfl ?_
        refine Keeps.via (State.onSub_keeps _ _ _) rfl ?_
        exact Keeps.refl _ _
    · refine KeepsOpt.ite ?_ ?_
      · exact KeepsOpt.none
      · extract_lets -lift -merge -useContext -underBinder +onlyGivenNames x3
        try clear_value x3
        refine KeepsOpt.map (fun _ => ?_)
        · extract_lets -lift -merge -useContext -underBinder +onlyGivenNames x4
          have h4 : Keeps State.fallbackStep_parts s0 x4 := by
            unfold x4
            refine Keeps.via (State.payAll_keeps _ _ _ _) rfl ?_
            refine Keeps.via (State.issue_keeps _ _ _ _ _ _) rfl ?_
            exact Keeps.refl _ _
          refine Keeps.ite ?_ ?_
          · refine Keeps.via (State.onSub_keeps _ _ _) rfl ?_
            exact h4
          · exact h4

def State.refsb_parts : List Part := [.sch, .block 0x5]

theorem State.refsb_keeps (s0 : State) (n : ℕ) :
    KeepsOpt State.refsb_parts s0 (State.refsb s0 n) := by
  unfold State.refsb
  extract_lets -lift -merge -useContext -underBinder +onlyGivenNames x0
  try clear_value x0
  refine KeepsOpt.findSome (fun _ => ?_)
  · split
    · refine KeepsOpt.ite ?_ ?_
      · extract_lets -lift -merge -useContext -underBinder +onlyGivenNames x1
        have h1 : Keeps State.refsb_parts s0 x1 := by
          unfold x1
          refine Keeps.viaBlock (b := 5) (State.bump_keeps _ _ _) (fam_block _ _ _ _ rfl (by decide)) rfl ?_
          refine Keeps.via (State.issue_keeps _ _ _ _ _ _) rfl ?_
          exact Keeps.refl _ _
        refine KeepsOpt.some ?_
        refine Keeps.via (State.onSub_keeps _ _ _) rfl ?_
        exact h1
      · exact KeepsOpt.none
    · exact KeepsOpt.none

def State.activate_parts : List Part := [.sch, .block 0x5]

theorem State.activate_keeps (s0 : State) (n : ℕ) (e : StoreEntry) (ck : ℕ) :
    Keeps State.activate_parts s0 (State.activate s0 n e ck) := by
  unfold State.activate
  extract_lets -lift -merge -useContext -underBinder +onlyGivenNames x0
  try clear_value x0
  extract_lets -lift -merge -useContext -underBinder +onlyGivenNames x1
  try clear_value x1
  extract_lets -lift -merge -useContext -underBinder +onlyGivenNames x2
  have h2 : Keeps State.activate_parts s0 x2 := by
    unfold x2
    refine Keeps.via (State.onSub_keeps _ _ _) rfl ?_
    exact Keeps.refl _ _
  extract_lets -lift -merge -useContext -underBinder +onlyGivenNames x3 x4
  have h4 : Keeps State.activate_parts s0 x4 := by
    unfold x4
    refine Keeps.via (State.issue_keeps _ _ _ _ _ _) rfl ?_
    exact h2
  refine Keeps.ite ?_ ?_
  · refine Keeps.viaBlock (b := 5) (State.bump_keeps _ _ _) (fam_block _ _ _ _ rfl (by decide)) rfl ?_
    exact h4
  · exact h4

def State.countIdle_parts : List Part := [.sch]

theorem State.countIdle_keeps (s0 : State) (n : ℕ) :
    Keeps State.countIdle_parts s0 (State.countIdle s0 n) := by
  unfold State.countIdle
  refine Keeps.foldl _ _ ?_ (fun t0 y0 h0 => ?_)
  · exact Keeps.refl _ _
  · extract_lets -lift -merge -useContext -underBinder +onlyGivenNames x1
    try clear_value x1
    refine Keeps.via (State.onSub_keeps _ _ _) rfl ?_
    exact h0

def State.powerDown_parts : List Part := [.sch]

theorem State.powerDown_keeps (s0 : State) (n : ℕ) :
    KeepsOpt State.powerDown_parts s0 (State.powerDown s0 n) := by
  unfold State.powerDown
  refine KeepsOpt.findSome (fun _ => ?_)
  · extract_lets -lift -merge -useContext -underBinder +onlyGivenNames x0
    try clear_value x0
    refine KeepsOpt.ite ?_ ?_
    · extract_lets -lift -merge -useContext -underBinder +onlyGivenNames x1
      try clear_value x1
      refine KeepsOpt.map (fun _ => ?_)
      · refine Keeps.via (State.onSub_keeps _ _ _) rfl ?_
        refine Keeps.via (State.issue_keeps _ _ _ _ _ _) rfl ?_
        exact Keeps.refl _ _
    · exact KeepsOpt.none

def State.exitPd_parts : List Part := [.sch]

theorem State.exitPd_keeps (s0 : State) (n : ℕ) (rank : ℕ) :
    Keeps State.exitPd_parts s0 (State.exitPd s0 n rank) := by
  unfold State.exitPd
  extract_lets -lift -merge -useContext -underBinder +onlyGivenNames x0
  try clear_value x0
  refine Keeps.ite ?_ ?_
  · extract_lets -lift -merge -useContext -underBinder +onlyGivenNames x1
    try clear_value x1
    refine Keeps.via (State.onSub_keeps _ _ _) rfl ?_
    exact Keeps.refl _ _
  · exact Keeps.refl _ _

def State.pdxStep_parts : List Part := [.sch]

theorem State.pdxStep_keeps (s0 : State) (n : ℕ) :
    KeepsOpt State.pdxStep_parts s0 (State.pdxStep s0 n) := by
  unfold State.pdxStep
  refine KeepsOpt.findSome (fun _ => ?_)
  · refine KeepsOpt.map (fun _ => ?_)
    · refine Keeps.via (State.onSub_keeps _ _ _) rfl ?_
      refine Keeps.via (State.issue_keeps _ _ _ _ _ _) rfl ?_
      exact Keeps.refl _ _

def State.askSlot_parts : List Part := [.sch]

theorem State.askSlot_keeps (s0 : State) (n : ℕ) (k : CmdKind) (rank : ℕ) :
    Keeps State.askSlot_parts s0 (State.askSlot s0 n k rank) := by
  unfold State.askSlot
  refine Keeps.via (State.onSub_keeps _ _ _) rfl ?_
  exact Keeps.refl _ _

def State.askedStep_parts : List Part := [.sch]

theorem State.askedStep_keeps (s0 : State) (n : ℕ) :
    KeepsOpt State.askedStep_parts s0 (State.askedStep s0 n) := by
  unfold State.askedStep
  refine KeepsOpt.findSome (fun _ => ?_)
  · refine KeepsOpt.ite ?_ ?_
    · exact KeepsOpt.none
    · refine KeepsOpt.map (fun _ => ?_)
      · refine Keeps.via (State.onSub_keeps _ _ _) rfl ?_
        refine Keeps.via (State.issue_keeps _ _ _ _ _ _) rfl ?_
        exact Keeps.refl _ _

def State.replayStep_parts : List Part := [.sch, .dram]

theorem State.replayStep_keeps (s0 : State) (n : ℕ) :
    Keeps State.replayStep_parts s0 (State.replayStep s0 n) := by
  unfold State.replayStep
  extract_lets -lift -merge -useContext -underBinder +onlyGivenNames x0
  try clear_value x0
  split
  · exact Keeps.refl _ _
  · extract_lets -lift -merge -useContext -underBinder +onlyGivenNames x1
    try clear_value x1
    split
    · split
      · refine Keeps.via (State.issue_keeps _ _ _ _ _ _) rfl ?_
        refine Keeps.via (State.onSub_keeps _ _ _) rfl ?_
        exact Keeps.refl _ _
      · exact Keeps.refl _ _
    · refine Keeps.ite ?_ ?_
      · split
        · extract_lets -lift -merge -useContext -underBinder +onlyGivenNames x2
          have h2 : Keeps State.replayStep_parts s0 x2 := by
            unfold x2
            refine Keeps.via (State.store_keeps _ _ _ _) rfl ?_
            refine Keeps.via (State.driveWrite_keeps _ _ _ _) rfl ?_
            refine Keeps.via (State.issue_keeps _ _ _ _ _ _) rfl ?_
            refine Keeps.via (State.onSub_keeps _ _ _) rfl ?_
            exact Keeps.refl _ _
          refine Keeps.via (State.onSub_keeps _ _ _) rfl ?_
          exact h2
        · exact Keeps.refl _ _
      · split
        · refine Keeps.via (State.issue_keeps _ _ _ _ _ _) rfl ?_
          refine Keeps.via (State.onSub_keeps _ _ _) rfl ?_
          exact Keeps.refl _ _
        · exact Keeps.refl _ _

def State.entryCycle_parts : List Part := [.log, .sb, .links, .twin, .ord, .mir, .sch, .flt, .dram, .reg Reg.GLB_EVENT, .reg Reg.GLB_DIRSTAT, .reg Reg.ORD_FWD, .reg Reg.ORD_LINEHOLD, .block 0x5, .reg Reg.ECC_SEALFAIL, .reg Reg.ECC_FIRSTFAIL, .reg Reg.LOG_RINGSTAT, .reg Reg.LOG_CAPTURED, .reg Reg.LOG_COALESCED, .reg Reg.LOG_LOST, .reg Reg.LOG_ORPHANS, .reg Reg.LOG_SQUALLS]

theorem State.entryCycle_keeps (s0 : State) (n : ℕ) :
    Keeps State.entryCycle_parts s0 (State.entryCycle s0 n) := by
  unfold State.entryCycle
  refine Keeps.ite ?_ ?_
  · extract_lets -lift -merge -useContext -underBinder +onlyGivenNames x0
    try clear_value x0
    extract_lets -lift -merge -useContext -underBinder +onlyGivenNames x1
    try clear_value x1
    split
    · refine Keeps.via (State.issueColumn_keeps _ _ _ _) rfl ?_
      exact Keeps.refl _ _
    · split
      · split
        · refine Keeps.via (State.issue_keeps _ _ _ _ _ _) rfl ?_
          refine Keeps.via (State.onSub_keeps _ _ _) rfl ?_
          exact Keeps.refl _ _
        · exact Keeps.refl _ _
      · exact Keeps.refl _ _
  · exact Keeps.refl _ _

def execScheduleDispatch_parts : List Part := [.ord, .sch]

theorem execScheduleDispatch_keeps (sc : Fin 16) (s0 : State) :
    KeepsOut execScheduleDispatch_parts s0 (execScheduleDispatch sc s0) := by
  unfold execScheduleDispatch
  refine KeepsOut.next ?_
  split
  · refine Keeps.ofSome (by assumption) ?_
    refine KeepsOpt.via (State.dispatchOne_keeps _ _) rfl ?_
    exact Keeps.refl _ _
  · exact Keeps.refl _ _

def State.gustCycle_parts : List Part := [.log, .sb, .links, .twin, .ord, .mir, .sch, .flt, .dram, .reg Reg.GLB_EVENT, .reg Reg.GLB_DIRSTAT, .reg Reg.ORD_FWD, .reg Reg.ORD_LINEHOLD, .block 0x5, .reg Reg.ECC_SEALFAIL, .reg Reg.ECC_FIRSTFAIL, .reg Reg.LOG_RINGSTAT, .reg Reg.LOG_CAPTURED, .reg Reg.LOG_COALESCED, .reg Reg.LOG_LOST, .reg Reg.LOG_ORPHANS, .reg Reg.LOG_SQUALLS]

theorem State.gustCycle_keeps (s0 : State) (n : ℕ) :
    Keeps State.gustCycle_parts s0 (State.gustCycle s0 n) := by
  unfold State.gustCycle
  split
  · refine Keeps.ofSome (by assumption) ?_
    refine KeepsOpt.findSome (fun _ => ?_)
    · refine KeepsOpt.via (State.fallbackStep_keeps _ _ _) rfl ?_
      exact Keeps.refl _ _
  · split
    · refine Keeps.via (State.issueColumn_keeps _ _ _ _) rfl ?_
      exact Keeps.refl _ _
    · split
      · refine Keeps.ofSome (by assumption) ?_
        refine KeepsOpt.via (State.refsb_keeps _ _) rfl ?_
        exact Keeps.refl _ _
      · split
        · refine Keeps.via (State.issue_keeps _ _ _ _ _ _) rfl ?_
          refine Keeps.via (State.onSub_keeps _ _ _) rfl ?_
          exact Keeps.refl _ _
        · exact Keeps.refl _ _

def State.choose_parts : List Part := [.log, .sb, .links, .twin, .ord, .mir, .sch, .flt, .dram, .reg Reg.GLB_EVENT, .reg Reg.GLB_DIRSTAT, .reg Reg.ORD_FWD, .reg Reg.ORD_LINEHOLD, .block 0x5, .reg Reg.ECC_SEALFAIL, .reg Reg.ECC_FIRSTFAIL, .reg Reg.LOG_RINGSTAT, .reg Reg.LOG_CAPTURED, .reg Reg.LOG_COALESCED, .reg Reg.LOG_LOST, .reg Reg.LOG_ORPHANS, .reg Reg.LOG_SQUALLS]

theorem State.choose_keeps (s0 : State) (n : ℕ) :
    Keeps State.choose_parts s0 (State.choose s0 n) := by
  unfold State.choose
  split
  · refine Keeps.ofSome (by assumption) ?_
    refine KeepsOpt.findSome (fun _ => ?_)
    · refine KeepsOpt.via (State.fallbackStep_keeps _ _ _) rfl ?_
      exact Keeps.refl _ _
  · split
    · refine Keeps.via (State.issueColumn_keeps _ _ _ _) rfl ?_
      exact Keeps.refl _ _
    · split
      · refine Keeps.ofSome (by assumption) ?_
        refine KeepsOpt.via (State.refsb_keeps _ _) rfl ?_
        exact Keeps.refl _ _
      · split
        · refine Keeps.via (State.activate_keeps _ _ _ _) rfl ?_
          exact Keeps.refl _ _
        · split
          · refine Keeps.ofSome (by assumption) ?_
            refine KeepsOpt.via (State.powerDown_keeps _ _) rfl ?_
            exact Keeps.refl _ _
          · refine Keeps.getD ?_ ?_
            · refine KeepsOpt.via (State.askedStep_keeps _ _) rfl ?_
              exact Keeps.refl _ _
            · exact Keeps.refl _ _

def execPowerDownExit_parts : List Part := [.sch]

theorem execPowerDownExit_keeps (sc : Fin 16) (rank : Fin 2) (s0 : State) :
    KeepsOut execPowerDownExit_parts s0 (execPowerDownExit sc rank s0) := by
  unfold execPowerDownExit
  refine KeepsOut.next ?_
  extract_lets -lift -merge -useContext -underBinder +onlyGivenNames x0
  try clear_value x0
  extract_lets -lift -merge -useContext -underBinder +onlyGivenNames x1
  try clear_value x1
  extract_lets -lift -merge -useContext -underBinder +onlyGivenNames x2
  try clear_value x2
  extract_lets -lift -merge -useContext -underBinder +onlyGivenNames x3
  try clear_value x3
  extract_lets -lift -merge -useContext -underBinder +onlyGivenNames x4
  try clear_value x4
  extract_lets -lift -merge -useContext -underBinder +onlyGivenNames x5
  try clear_value x5
  refine Keeps.ite ?_ ?_
  · refine Keeps.via (State.exitPd_keeps _ _ _) rfl ?_
    exact Keeps.refl _ _
  · exact Keeps.refl _ _

def execEntryAged_parts : List Part := [.sch, .block 0x5]

theorem execEntryAged_keeps (sc : Fin 16) (index : Byte) (s0 : State) :
    KeepsOut execEntryAged_parts s0 (execEntryAged sc index s0) := by
  unfold execEntryAged
  refine KeepsOut.next ?_
  extract_lets -lift -merge -useContext -underBinder +onlyGivenNames x0
  try clear_value x0
  split
  · refine Keeps.ite ?_ ?_
    · exact Keeps.refl _ _
    · refine Keeps.viaBlock (b := 5) (State.bump_keeps _ _ _) (fam_block _ _ _ _ rfl (by decide)) rfl ?_
      refine Keeps.via (State.onSub_keeps _ _ _) rfl ?_
      exact Keeps.refl _ _
  · exact Keeps.refl _ _

def State.timelyRefresh_parts : List Part := [.sch]

theorem State.timelyRefresh_keeps (s0 : State) (n : ℕ) (r : ℕ) (d : ℕ) :
    Keeps State.timelyRefresh_parts s0 (State.timelyRefresh s0 n r d) := by
  unfold State.timelyRefresh
  refine Keeps.ite ?_ ?_
  · refine Keeps.via (State.payAll_keeps _ _ _ _) rfl ?_
    refine Keeps.via (State.issue_keeps _ _ _ _ _ _) rfl ?_
    exact Keeps.refl _ _
  · exact Keeps.refl _ _

def State.leaveMode_parts : List Part := [.cal]

theorem State.leaveMode_keeps (s0 : State) (n : ℕ) (r : ℕ) :
    Keeps State.leaveMode_parts s0 (State.leaveMode s0 n r) := by
  unfold State.leaveMode
  extract_lets -lift -merge -useContext -underBinder +onlyGivenNames x0
  try clear_value x0
  refine Keeps.ite ?_ ?_
  · refine Keeps.via (State.setTraining_keeps _ _ _) rfl ?_
    exact Keeps.refl _ _
  · exact Keeps.refl _ _

def execRefreshTick_parts : List Part := [.log, .sb, .sch, .cal, .reg Reg.GLB_EVENT, .reg Reg.GLB_DIRSTAT, .block 0x5, .reg Reg.LOG_RINGSTAT, .reg Reg.LOG_CAPTURED, .reg Reg.LOG_COALESCED, .reg Reg.LOG_LOST, .reg Reg.LOG_ORPHANS, .reg Reg.LOG_SQUALLS]

theorem execRefreshTick_keeps (sc : Fin 16) (rank : Fin 2) (die : BitVec 4) (s0 : State) :
    KeepsOut execRefreshTick_parts s0 (execRefreshTick sc rank die s0) := by
  unfold execRefreshTick
  refine KeepsOut.next ?_
  extract_lets -lift -merge -useContext -underBinder +onlyGivenNames x0
  try clear_value x0
  extract_lets -lift -merge -useContext -underBinder +onlyGivenNames x1
  try clear_value x1
  extract_lets -lift -merge -useContext -underBinder +onlyGivenNames x2
  try clear_value x2
  refine Keeps.ite ?_ ?_
  · extract_lets -lift -merge -useContext -underBinder +onlyGivenNames x3
    have h3 : Keeps execRefreshTick_parts s0 x3 := by
      unfold x3
      refine Keeps.via (State.timelyRefresh_keeps _ _ _ _) rfl ?_
      refine Keeps.via (State.leaveMode_keeps _ _ _) rfl ?_
      exact Keeps.refl _ _
    extract_lets -lift -merge -useContext -underBinder +onlyGivenNames x4
    have h4 : Keeps execRefreshTick_parts s0 x4 := by
      unfold x4
      refine Keeps.via (State.onSub_keeps _ _ _) rfl ?_
      exact h3
    extract_lets -lift -merge -useContext -underBinder +onlyGivenNames x5
    try clear_value x5
    extract_lets -lift -merge -useContext -underBinder +onlyGivenNames x6
    try clear_value x6
    refine Keeps.ite ?_ ?_
    · extract_lets -lift -merge -useContext -underBinder +onlyGivenNames x7
      have h7 : Keeps execRefreshTick_parts s0 x7 := by
        unfold x7
        refine Keeps.via (State.exitPd_keeps _ _ _) rfl ?_
        refine Keeps.via (State.setSub_keeps _ _ _) rfl ?_
        exact h4
      refine Keeps.via (State.event_keeps _ _ _) rfl ?_
      refine Keeps.viaBlock (b := 5) (State.bump_keeps _ _ _) (fam_block _ _ _ _ rfl (by decide)) rfl ?_
      exact h7
    · exact h4
  · exact Keeps.refl _ _

def State.setRate_parts : List Part := [.log, .sb, .reg Reg.GLB_EVENT, .reg Reg.GLB_DIRSTAT, .block 0x5, .reg Reg.LOG_RINGSTAT, .reg Reg.LOG_CAPTURED, .reg Reg.LOG_COALESCED, .reg Reg.LOG_LOST, .reg Reg.LOG_ORPHANS, .reg Reg.LOG_SQUALLS]

theorem State.setRate_keeps (s0 : State) (n : ℕ) (rank : ℕ) (code : ℕ) :
    Keeps State.setRate_parts s0 (State.setRate s0 n rank code) := by
  unfold State.setRate
  refine Keeps.ite ?_ ?_
  · exact Keeps.refl _ _
  · refine Keeps.via (State.event_keeps _ _ _) rfl ?_
    refine Keeps.via (State.setFld_rateFld_keeps _ _ _ _) rfl ?_
    exact Keeps.refl _ _

def execMr4Poll_parts : List Part := [.log, .sb, .sch, .reg Reg.GLB_EVENT, .reg Reg.GLB_DIRSTAT, .block 0x5, .reg Reg.LOG_RINGSTAT, .reg Reg.LOG_CAPTURED, .reg Reg.LOG_COALESCED, .reg Reg.LOG_LOST, .reg Reg.LOG_ORPHANS, .reg Reg.LOG_SQUALLS]

theorem execMr4Poll_keeps (sc : Fin 16) (rank : Fin 2) (reports : List Mr4Report) (s0 : State) :
    KeepsOut execMr4Poll_parts s0 (execMr4Poll sc rank reports s0) := by
  unfold execMr4Poll
  refine KeepsOut.next ?_
  extract_lets -lift -merge -useContext -underBinder +onlyGivenNames x0
  try clear_value x0
  extract_lets -lift -merge -useContext -underBinder +onlyGivenNames x1
  try clear_value x1
  refine Keeps.ite ?_ ?_
  · extract_lets -lift -merge -useContext -underBinder +onlyGivenNames x2
    have h2 : Keeps execMr4Poll_parts s0 x2 := by
      unfold x2
      refine Keeps.via (State.askSlot_keeps _ _ _ _) rfl ?_
      exact Keeps.refl _ _
    extract_lets -lift -merge -useContext -underBinder +onlyGivenNames x3
    have h3 : Keeps execMr4Poll_parts s0 x3 := by
      unfold x3
      refine Keeps.foldl _ _ ?_ (fun t4 y4 h4 => ?_)
      · exact h2
      · refine Keeps.via (State.event_keeps _ _ _) rfl ?_
        exact h4
    extract_lets -lift -merge -useContext -underBinder +onlyGivenNames x5
    try clear_value x5
    extract_lets -lift -merge -useContext -underBinder +onlyGivenNames x6
    try clear_value x6
    refine Keeps.ite ?_ ?_
    · refine Keeps.via (State.setRate_keeps _ _ _ _) rfl ?_
      refine Keeps.via (State.onSub_keeps _ _ _) rfl ?_
      exact h3
    · refine Keeps.ite ?_ ?_
      · exact h3
      · refine Keeps.ite ?_ ?_
        · refine Keeps.via (State.setRate_keeps _ _ _ _) rfl ?_
          refine Keeps.via (State.onSub_keeps _ _ _) rfl ?_
          exact h3
        · refine Keeps.via (State.onSub_keeps _ _ _) rfl ?_
          exact h3
  · exact Keeps.refl _ _

def State.writeScrub_parts : List Part := [.log, .sb, .links, .twin, .ord, .mir, .sch, .reg Reg.GLB_EVENT, .reg Reg.GLB_DIRSTAT, .reg Reg.ORD_FWD, .reg Reg.ORD_LINEHOLD, .reg Reg.ECC_SEALFAIL, .reg Reg.ECC_FIRSTFAIL, .reg Reg.LOG_RINGSTAT, .reg Reg.LOG_CAPTURED, .reg Reg.LOG_COALESCED, .reg Reg.LOG_LOST, .reg Reg.LOG_ORPHANS, .reg Reg.LOG_SQUALLS]

theorem State.writeScrub_keeps (s0 : State) (n : ℕ) :
    Keeps State.writeScrub_parts s0 (State.writeScrub s0 n) := by
  unfold State.writeScrub
  refine Keeps.ite ?_ ?_
  · exact Keeps.refl _ _
  · extract_lets -lift -merge -useContext -underBinder +onlyGivenNames x0
    have h0 : Keeps State.writeScrub_parts s0 x0 := by
      unfold x0
      refine Keeps.via (State.onSub_keeps _ _ _) rfl ?_
      exact Keeps.refl _ _
    refine Keeps.via (State.reserveWrite_keeps _ _ _) rfl ?_
    exact h0

def State.scrubTo_parts : List Part := [.log, .sb, .links, .twin, .ord, .mir, .sch, .reg Reg.GLB_EVENT, .reg Reg.GLB_DIRSTAT, .reg Reg.ORD_FWD, .reg Reg.ORD_LINEHOLD, .reg Reg.ECC_SEALFAIL, .reg Reg.ECC_FIRSTFAIL, .reg Reg.LOG_RINGSTAT, .reg Reg.LOG_CAPTURED, .reg Reg.LOG_COALESCED, .reg Reg.LOG_LOST, .reg Reg.LOG_ORPHANS, .reg Reg.LOG_SQUALLS]

theorem State.scrubTo_keeps (s0 : State) (n : ℕ) (pos : ℕ) :
    Keeps State.scrubTo_parts s0 (State.scrubTo s0 n pos) := by
  unfold State.scrubTo
  extract_lets -lift -merge -useContext -underBinder +onlyGivenNames x0
  have h0 : Keeps State.scrubTo_parts s0 x0 := by
    unfold x0
    refine Keeps.via (State.onSub_keeps _ _ _) rfl ?_
    exact Keeps.refl _ _
  refine Keeps.ite ?_ ?_
  · extract_lets -lift -merge -useContext -underBinder +onlyGivenNames x1
    have h1 : Keeps State.scrubTo_parts s0 x1 := by
      unfold x1
      refine Keeps.via (State.onSub_keeps _ _ _) rfl ?_
      exact h0
    refine Keeps.via (State.writeScrub_keeps _ _) rfl ?_
    refine Keeps.via (State.event_keeps _ _ _) rfl ?_
    exact h1
  · exact h0

def State.skipRetired_parts : List Part := [.log, .sb, .links, .twin, .ord, .mir, .sch, .reg Reg.GLB_EVENT, .reg Reg.GLB_DIRSTAT, .reg Reg.ORD_FWD, .reg Reg.ORD_LINEHOLD, .reg Reg.ECC_SEALFAIL, .reg Reg.ECC_FIRSTFAIL, .reg Reg.LOG_RINGSTAT, .reg Reg.LOG_CAPTURED, .reg Reg.LOG_COALESCED, .reg Reg.LOG_LOST, .reg Reg.LOG_ORPHANS, .reg Reg.LOG_SQUALLS]

theorem State.skipRetired_keeps (s0 : State) (n : ℕ) :
    Keeps State.skipRetired_parts s0 (State.skipRetired s0 n) := by
  unfold State.skipRetired
  extract_lets -lift -merge -useContext -underBinder +onlyGivenNames x0
  try clear_value x0
  extract_lets -lift -merge -useContext -underBinder +onlyGivenNames x1
  try clear_value x1
  refine Keeps.ite ?_ ?_
  · refine Keeps.via (State.scrubTo_keeps _ _ _) rfl ?_
    exact Keeps.refl _ _
  · exact Keeps.refl _ _

def State.noteScrub_parts : List Part := [.log, .sb, .links, .twin, .ord, .mir, .sch, .reg Reg.GLB_EVENT, .reg Reg.GLB_DIRSTAT, .reg Reg.ORD_FWD, .reg Reg.ORD_LINEHOLD, .reg Reg.ECC_SEALFAIL, .reg Reg.ECC_FIRSTFAIL, .reg Reg.LOG_RINGSTAT, .reg Reg.LOG_CAPTURED, .reg Reg.LOG_COALESCED, .reg Reg.LOG_LOST, .reg Reg.LOG_ORPHANS, .reg Reg.LOG_SQUALLS]

theorem State.noteScrub_keeps (s0 : State) (n : ℕ) :
    Keeps State.noteScrub_parts s0 (State.noteScrub s0 n) := by
  unfold State.noteScrub
  extract_lets -lift -merge -useContext -underBinder +onlyGivenNames x0
  have h0 : Keeps State.noteScrub_parts s0 x0 := by
    unfold x0
    refine Keeps.via (State.onSub_keeps _ _ _) rfl ?_
    exact Keeps.refl _ _
  refine Keeps.ite ?_ ?_
  · refine Keeps.via (State.writeScrub_keeps _ _) rfl ?_
    refine Keeps.via (State.onSub_keeps _ _ _) rfl ?_
    exact h0
  · exact h0

def State.scrubRead_parts : List Part := [.log, .sb, .links, .twin, .ord, .mir, .sch, .reg Reg.GLB_EVENT, .reg Reg.GLB_DIRSTAT, .reg Reg.ORD_FWD, .reg Reg.ORD_LINEHOLD, .block 0x5, .reg Reg.ECC_SEALFAIL, .reg Reg.ECC_FIRSTFAIL, .reg Reg.LOG_RINGSTAT, .reg Reg.LOG_CAPTURED, .reg Reg.LOG_COALESCED, .reg Reg.LOG_LOST, .reg Reg.LOG_ORPHANS, .reg Reg.LOG_SQUALLS]

theorem State.scrubRead_keeps (s0 : State) (n : ℕ) :
    KeepsOpt State.scrubRead_parts s0 (State.scrubRead s0 n) := by
  unfold State.scrubRead
  extract_lets -lift -merge -useContext -underBinder +onlyGivenNames x0
  try clear_value x0
  refine KeepsOpt.ite ?_ ?_
  · exact KeepsOpt.none
  · extract_lets -lift -merge -useContext -underBinder +onlyGivenNames x1
    have h1 : Keeps State.scrubRead_parts s0 x1 := by
      unfold x1
      refine Keeps.via (State.skipRetired_keeps _ _) rfl ?_
      refine Keeps.via (State.skipRetired_keeps _ _) rfl ?_
      exact Keeps.refl _ _
    extract_lets -lift -merge -useContext -underBinder +onlyGivenNames x2
    try clear_value x2
    extract_lets -lift -merge -useContext -underBinder +onlyGivenNames x3
    try clear_value x3
    extract_lets -lift -merge -useContext -underBinder +onlyGivenNames x4
    have h4 : ∀ q4, Keeps State.scrubRead_parts q4 (x4 q4) := by
      intro q4
      unfold x4
      refine Keeps.via (State.scrubTo_keeps _ _ _) rfl ?_
      refine Keeps.via (State.onSub_keeps _ _ _) rfl ?_
      exact Keeps.refl _ _
    split
    · refine KeepsOpt.some ?_
      refine Keeps.trans ?_ (h4 _)
      exact h1
    · split
      · exact KeepsOpt.none
      · refine KeepsOpt.some ?_
        refine Keeps.ite ?_ ?_
        · refine Keeps.viaBlock (b := 5) (State.bump_keeps _ _ _) (fam_block _ _ _ _ rfl (by decide)) rfl ?_
          refine Keeps.trans ?_ (h4 _)
          refine Keeps.ofSome (by assumption) ?_
          refine KeepsOpt.via (State.probeLine_keeps _) rfl ?_
          exact h1
        · extract_lets -lift -merge -useContext -underBinder +onlyGivenNames x5
          have h5 : Keeps State.scrubRead_parts s0 x5 := by
            unfold x5
            refine Keeps.via (State.onSub_keeps _ _ _) rfl ?_
            refine Keeps.trans ?_ (h4 _)
            refine Keeps.ofSome (by assumption) ?_
            refine KeepsOpt.via (State.probeLine_keeps _) rfl ?_
            exact h1
          refine Keeps.via (State.noteScrub_keeps _ _) rfl ?_
          refine Keeps.via (State.enter_keeps _ _ _) rfl ?_
          exact h5

def execScrubReadDue_parts : List Part := [.log, .sb, .links, .twin, .ord, .mir, .sch, .reg Reg.GLB_EVENT, .reg Reg.GLB_DIRSTAT, .reg Reg.ORD_FWD, .reg Reg.ORD_LINEHOLD, .block 0x5, .reg Reg.ECC_SEALFAIL, .reg Reg.ECC_FIRSTFAIL, .reg Reg.LOG_RINGSTAT, .reg Reg.LOG_CAPTURED, .reg Reg.LOG_COALESCED, .reg Reg.LOG_LOST, .reg Reg.LOG_ORPHANS, .reg Reg.LOG_SQUALLS]

theorem execScrubReadDue_keeps (sc : Fin 16) (s0 : State) :
    KeepsOut execScrubReadDue_parts s0 (execScrubReadDue sc s0) := by
  unfold execScrubReadDue
  refine KeepsOut.next ?_
  extract_lets -lift -merge -useContext -underBinder +onlyGivenNames x0
  try clear_value x0
  refine Keeps.ite ?_ ?_
  · exact Keeps.refl _ _
  · refine Keeps.trans ?_ (repeatS_keeps (fun t1 => ?_) _ _)
    · refine Keeps.via (State.onSub_keeps _ _ _) rfl ?_
      exact Keeps.refl _ _
    · refine KeepsOpt.via (State.scrubRead_keeps _ _) rfl ?_
      exact Keeps.refl _ _

end Sys2Proof.Machine
end

