-- ==== Sys2Proof/Laws/KeepsCalibration.lean ====
section
/-!
SUPPORT. The frames of the operations of Machine/Calibration.lean: the parts of the state each may change, and that each keeps the canonical
form. A proof of a frame cites these and unfolds nothing.
-/

namespace Sys2Proof.Machine

def State.setLive_parts : List Part := [.cal]

theorem State.setLive_keeps (s0 : State) (p : ℕ) (r : List Byte) :
    Keeps State.setLive_parts s0 (State.setLive s0 p r) := by
  unfold State.setLive
  refine Keeps.via (Keeps.upd_cal _ _) rfl ?_
  exact Keeps.refl _ _

def State.writeCal_parts : List Part := [.log, .sb, .links, .twin, .ord, .mir, .sch, .cal, .reg Reg.GLB_EVENT, .reg Reg.GLB_DIRSTAT, .reg Reg.ORD_FWD, .reg Reg.ORD_LINEHOLD, .reg Reg.ECC_SEALFAIL, .reg Reg.ECC_FIRSTFAIL, .reg Reg.LOG_RINGSTAT, .reg Reg.LOG_CAPTURED, .reg Reg.LOG_COALESCED, .reg Reg.LOG_LOST, .reg Reg.LOG_ORPHANS, .reg Reg.LOG_SQUALLS]

theorem State.writeCal_keeps (s0 : State) (p : ℕ) :
    Keeps State.writeCal_parts s0 (State.writeCal s0 p) := by
  unfold State.writeCal
  refine Keeps.ite ?_ ?_
  · exact Keeps.refl _ _
  · extract_lets -lift -merge -useContext -underBinder +onlyGivenNames x0
    try clear_value x0
    extract_lets -lift -merge -useContext -underBinder +onlyGivenNames x1
    try clear_value x1
    extract_lets -lift -merge -useContext -underBinder +onlyGivenNames x2
    have h2 : Keeps State.writeCal_parts s0 x2 := by
      unfold x2
      refine Keeps.via (State.setLive_keeps _ _ _) rfl ?_
      exact Keeps.refl _ _
    extract_lets -lift -merge -useContext -underBinder +onlyGivenNames x3
    try clear_value x3
    refine Keeps.foldS _ _ ?_ (fun t4 y4 h4 => ?_)
    · exact h2
    · refine Keeps.via (State.reserveWrite_keeps _ _ _) rfl ?_
      exact h4

def State.shadowRecord_parts : List Part := [.log, .sb, .links, .twin, .ord, .mir, .sch, .reg Reg.GLB_EVENT, .reg Reg.GLB_DIRSTAT, .reg Reg.ORD_FWD, .reg Reg.ORD_LINEHOLD, .block 0x8, .reg Reg.LOG_RINGSTAT, .reg Reg.LOG_CAPTURED, .reg Reg.LOG_COALESCED, .reg Reg.LOG_LOST, .reg Reg.LOG_ORPHANS, .reg Reg.LOG_SQUALLS]

theorem State.shadowRecord_keeps (s0 : State) (t : ℕ) (p : ℕ) :
    Keeps State.shadowRecord_parts s0 (State.shadowRecord s0 t p).1 := by
  unfold State.shadowRecord
  extract_lets -lift -merge -useContext -underBinder +onlyGivenNames x0
  have h0 : Keeps State.shadowRecord_parts s0 x0.1 := by
    unfold x0
    refine Keeps.via (State.fetchRun_keeps _ _ _) rfl ?_
    exact Keeps.refl _ _
  dsimp -zeta only
  exact h0

def State.share_parts : List Part := [.cal]

theorem State.share_keeps (s0 : State) (p : ℕ) :
    Keeps State.share_parts s0 (State.share s0 p) := by
  unfold State.share
  extract_lets -lift -merge -useContext -underBinder +onlyGivenNames x0
  try clear_value x0
  refine Keeps.ite ?_ ?_
  · exact Keeps.refl _ _
  · extract_lets -lift -merge -useContext -underBinder +onlyGivenNames x1
    have h1 : Keeps State.share_parts s0 x1 := by
      unfold x1
      refine Keeps.via (State.setLive_keeps _ _ _) rfl ?_
      exact Keeps.refl _ _
    refine Keeps.ite ?_ ?_
    · exact h1
    · refine Keeps.via (State.setLive_keeps _ _ _) rfl ?_
      exact h1

def State.loadRecords_parts : List Part := [.log, .sb, .links, .twin, .ord, .mir, .sch, .cal, .reg Reg.GLB_EVENT, .reg Reg.GLB_DIRSTAT, .reg Reg.ORD_FWD, .reg Reg.ORD_LINEHOLD, .block 0x8, .reg Reg.LOG_RINGSTAT, .reg Reg.LOG_CAPTURED, .reg Reg.LOG_COALESCED, .reg Reg.LOG_LOST, .reg Reg.LOG_ORPHANS, .reg Reg.LOG_SQUALLS]

theorem State.loadRecords_keeps (s0 : State) (t : ℕ) :
    Keeps State.loadRecords_parts s0 (State.loadRecords s0 t) := by
  unfold State.loadRecords
  refine Keeps.foldS _ _ ?_ (fun t0 y0 h0 => ?_)
  · exact Keeps.refl _ _
  · extract_lets -lift -merge -useContext -underBinder +onlyGivenNames x1
    try clear_value x1
    extract_lets -lift -merge -useContext -underBinder +onlyGivenNames x2
    try clear_value x2
    extract_lets -lift -merge -useContext -underBinder +onlyGivenNames x3
    have h3 : Keeps State.loadRecords_parts s0 x3.1 := by
      unfold x3
      refine Keeps.via (State.shadowRecord_keeps _ _ _) rfl ?_
      exact h0
    extract_lets -lift -merge -useContext -underBinder +onlyGivenNames x4
    have h4 : Keeps State.loadRecords_parts s0 x4 := by
      unfold x4
      exact h3
    refine Keeps.via (State.share_keeps _ _) rfl ?_
    split
    · refine Keeps.ite ?_ ?_
      · refine Keeps.via (State.setLive_keeps _ _ _) rfl ?_
        exact h4
      · refine Keeps.via (State.setLive_keeps _ _ _) rfl ?_
        exact h4
    · refine Keeps.via (State.setLive_keeps _ _ _) rfl ?_
      exact h4

def State.abandonCal_parts : List Part := [.log, .sb, .links, .twin, .ord, .mir, .sch, .cal, .reg Reg.GLB_EVENT, .reg Reg.GLB_DIRSTAT, .reg Reg.ORD_FWD, .reg Reg.ORD_LINEHOLD, .reg Reg.CAL_ABANDONED, .reg Reg.ECC_SEALFAIL, .reg Reg.ECC_FIRSTFAIL, .reg Reg.LOG_RINGSTAT, .reg Reg.LOG_CAPTURED, .reg Reg.LOG_COALESCED, .reg Reg.LOG_LOST, .reg Reg.LOG_ORPHANS, .reg Reg.LOG_SQUALLS]

theorem State.abandonCal_keeps (s0 : State) (p : ℕ) (row : ℕ) :
    Keeps State.abandonCal_parts s0 (State.abandonCal s0 p row) := by
  unfold State.abandonCal
  split
  · extract_lets -lift -merge -useContext -underBinder +onlyGivenNames x0
    have h0 : Keeps State.abandonCal_parts s0 x0 := by
      unfold x0
      refine Keeps.via (State.bump_keeps _ _ _) rfl ?_
      refine Keeps.via (State.writeCal_keeps _ _) rfl ?_
      refine Keeps.via (State.setRun_keeps _ _ _) rfl ?_
      exact Keeps.refl _ _
    extract_lets -lift -merge -useContext -underBinder +onlyGivenNames x1
    have h1 : Keeps State.abandonCal_parts s0 x1 := by
      unfold x1
      refine Keeps.ite ?_ ?_
      · refine Keeps.via (State.endDir_keeps _ _) rfl ?_
        exact h0
      · exact h0
    refine Keeps.via (State.pendToDue_keeps _ _) rfl ?_
    refine Keeps.via (State.event_keeps _ _ _) rfl ?_
    exact h1
  · exact Keeps.refl _ _

def State.abandonSub_parts : List Part := [.log, .sb, .links, .twin, .ord, .mir, .sch, .cal, .reg Reg.GLB_EVENT, .reg Reg.GLB_DIRSTAT, .reg Reg.ORD_FWD, .reg Reg.ORD_LINEHOLD, .reg Reg.CAL_ABANDONED, .reg Reg.ECC_SEALFAIL, .reg Reg.ECC_FIRSTFAIL, .reg Reg.LOG_RINGSTAT, .reg Reg.LOG_CAPTURED, .reg Reg.LOG_COALESCED, .reg Reg.LOG_LOST, .reg Reg.LOG_ORPHANS, .reg Reg.LOG_SQUALLS]

theorem State.abandonSub_keeps (s0 : State) (n : ℕ) (row : ℕ) :
    Keeps State.abandonSub_parts s0 (State.abandonSub s0 n row) := by
  unfold State.abandonSub
  refine Keeps.via (State.abandonCal_keeps _ _ _) rfl ?_
  refine Keeps.via (State.abandonCal_keeps _ _ _) rfl ?_
  exact Keeps.refl _ _

def State.readSensor_parts : List Part := [.log, .sb, .reg Reg.GLB_EVENT, .reg Reg.GLB_DIRSTAT, .block 0x7, .reg Reg.LOG_RINGSTAT, .reg Reg.LOG_CAPTURED, .reg Reg.LOG_COALESCED, .reg Reg.LOG_LOST, .reg Reg.LOG_ORPHANS, .reg Reg.LOG_SQUALLS]

theorem State.readSensor_keeps (s0 : State) (k : ℕ) (t : Option Byte) :
    Keeps State.readSensor_parts s0 (State.readSensor s0 k t) := by
  unfold State.readSensor
  split
  · refine Keeps.foldS _ _ ?_ (fun t0 y0 h0 => ?_)
    · exact Keeps.refl _ _
    · refine Keeps.viaBlock (b := 7) (State.setFld_keeps _ _ _) (fam_block _ _ _ _ rfl (by decide)) rfl ?_
      refine Keeps.viaBlock (b := 7) (State.setFld_keeps _ _ _) (fam_block _ _ _ _ rfl (by decide)) rfl ?_
      exact h0
  · refine Keeps.ite ?_ ?_
    · exact Keeps.refl _ _
    · refine Keeps.via (State.event_keeps _ _ _) rfl ?_
      refine Keeps.foldS _ _ ?_ (fun t1 y1 h1 => ?_)
      · exact Keeps.refl _ _
      · refine Keeps.viaBlock (b := 7) (State.setFld_keeps _ _ _) (fam_block _ _ _ _ rfl (by decide)) rfl ?_
        exact h1

def execCalEval_parts : List Part := [.log, .sb, .cal, .reg Reg.GLB_EVENT, .reg Reg.GLB_DIRSTAT, .block 0x7, .reg Reg.LOG_RINGSTAT, .reg Reg.LOG_CAPTURED, .reg Reg.LOG_COALESCED, .reg Reg.LOG_LOST, .reg Reg.LOG_ORPHANS, .reg Reg.LOG_SQUALLS]

theorem execCalEval_keeps (temps : List (Option Byte)) (s0 : State) :
    KeepsOut execCalEval_parts s0 (execCalEval temps s0) := by
  unfold execCalEval
  refine KeepsOut.next ?_
  extract_lets -lift -merge -useContext -underBinder +onlyGivenNames x0
  have h0 : Keeps execCalEval_parts s0 x0 := by
    unfold x0
    refine Keeps.foldS _ _ ?_ (fun t1 y1 h1 => ?_)
    · exact Keeps.refl _ _
    · refine Keeps.via (State.readSensor_keeps _ _ _) rfl ?_
      exact h1
  refine Keeps.ite ?_ ?_
  · extract_lets -lift -merge -useContext -underBinder +onlyGivenNames x2
    try clear_value x2
    refine Keeps.foldS _ _ ?_ (fun t3 y3 h3 => ?_)
    · refine Keeps.via (Keeps.upd_cal _ _) rfl ?_
      exact h0
    · refine Keeps.ite ?_ ?_
      · refine Keeps.via (State.makeDue_keeps _ _) rfl ?_
        exact h3
      · exact h3
  · exact h0

def execCalRunDue_parts : List Part := [.cal]

theorem execCalRunDue_keeps (sc : Fin 16) (s0 : State) :
    KeepsOut execCalRunDue_parts s0 (execCalRunDue sc s0) := by
  unfold execCalRunDue
  refine KeepsOut.next ?_
  refine Keeps.ite ?_ ?_
  · refine Keeps.via (State.makeDue_keeps _ _) rfl ?_
    exact Keeps.refl _ _
  · exact Keeps.refl _ _

def State.switchEvent_parts : List Part := [.free, .log, .sb, .reg Reg.GLB_EVENT, .reg Reg.GLB_DIRSTAT, .reg Reg.LOG_RINGSTAT, .reg Reg.LOG_CAPTURED, .reg Reg.LOG_COALESCED, .reg Reg.LOG_LOST, .reg Reg.LOG_ORPHANS, .reg Reg.LOG_SQUALLS]

theorem State.switchEvent_keeps (s0 : State) (p : ℕ) (pin : ℕ) :
    Keeps State.switchEvent_parts s0 (State.switchEvent s0 p pin) := by
  unfold State.switchEvent
  extract_lets -lift -merge -useContext -underBinder +onlyGivenNames x0
  have h0 : Keeps State.switchEvent_parts s0 x0.2 := by
    unfold x0
    refine Keeps.via (State.draw_keeps _) rfl ?_
    exact Keeps.refl _ _
  refine Keeps.via (State.event_keeps _ _ _) rfl ?_
  exact h0

def State.markStale_parts : List Part := [.log, .sb, .cal, .reg Reg.GLB_EVENT, .reg Reg.GLB_DIRSTAT, .reg Reg.LOG_RINGSTAT, .reg Reg.LOG_CAPTURED, .reg Reg.LOG_COALESCED, .reg Reg.LOG_LOST, .reg Reg.LOG_ORPHANS, .reg Reg.LOG_SQUALLS]

theorem State.markStale_keeps (s0 : State) (p : ℕ) (k : ℕ) :
    Keeps State.markStale_parts s0 (State.markStale s0 p k) := by
  unfold State.markStale
  refine Keeps.ite ?_ ?_
  · exact Keeps.refl _ _
  · refine Keeps.via (State.event_keeps _ _ _) rfl ?_
    refine Keeps.via (State.setLive_keeps _ _ _) rfl ?_
    exact Keeps.refl _ _

def State.beginRank_parts : List Part := [.log, .sb, .sch, .cal, .reg Reg.GLB_EVENT, .reg Reg.GLB_DIRSTAT, .reg Reg.LOG_RINGSTAT, .reg Reg.LOG_CAPTURED, .reg Reg.LOG_COALESCED, .reg Reg.LOG_LOST, .reg Reg.LOG_ORPHANS, .reg Reg.LOG_SQUALLS]

theorem State.beginRank_keeps (s0 : State) (p : ℕ) :
    Keeps State.beginRank_parts s0 (State.beginRank s0 p) := by
  unfold State.beginRank
  extract_lets -lift -merge -useContext -underBinder +onlyGivenNames x0
  try clear_value x0
  extract_lets -lift -merge -useContext -underBinder +onlyGivenNames x1
  try clear_value x1
  extract_lets -lift -merge -useContext -underBinder +onlyGivenNames x2
  have h2 : Keeps State.beginRank_parts s0 x2 := by
    unfold x2
    refine Keeps.via (State.askSlot_keeps _ _ _ _) rfl ?_
    exact Keeps.refl _ _
  extract_lets -lift -merge -useContext -underBinder +onlyGivenNames x3
  have h3 : Keeps State.beginRank_parts s0 x3 := by
    unfold x3
    refine Keeps.foldS _ _ ?_ (fun t4 y4 h4 => ?_)
    · exact h2
    · refine Keeps.via (State.markStale_keeps _ _ _) rfl ?_
      exact h4
  refine Keeps.via (State.setRun_keeps _ _ _) rfl ?_
  exact h3

def State.newRun_parts : List Part := [.cal]

theorem State.newRun_keeps (s0 : State) (n : ℕ) :
    Keeps State.newRun_parts s0 (State.newRun s0 n) := by
  unfold State.newRun
  refine Keeps.foldS _ _ ?_ (fun t0 y0 h0 => ?_)
  · exact Keeps.refl _ _
  · refine Keeps.via (Keeps.upd_cal _ _) rfl ?_
    exact h0

def execCalRunStart_parts : List Part := [.log, .sb, .sch, .cal, .reg Reg.GLB_EVENT, .reg Reg.GLB_DIRSTAT, .block 0x7, .reg Reg.LOG_RINGSTAT, .reg Reg.LOG_CAPTURED, .reg Reg.LOG_COALESCED, .reg Reg.LOG_LOST, .reg Reg.LOG_ORPHANS, .reg Reg.LOG_SQUALLS]

theorem execCalRunStart_keeps (sc : Fin 16) (temp : Option Byte) (s0 : State) :
    KeepsOut execCalRunStart_parts s0 (execCalRunStart sc temp s0) := by
  unfold execCalRunStart
  refine KeepsOut.next ?_
  extract_lets -lift -merge -useContext -underBinder +onlyGivenNames x0
  try clear_value x0
  refine Keeps.ite ?_ ?_
  · extract_lets -lift -merge -useContext -underBinder +onlyGivenNames x1
    have h1 : ∀ q1 z1, Keeps execCalRunStart_parts q1 (x1 q1 z1) := by
      intro q1 z1
      unfold x1
      extract_lets -lift -merge -useContext -underBinder +onlyGivenNames x2
      have h2 : Keeps execCalRunStart_parts q1 x2 := by
        unfold x2
        refine Keeps.via (State.readSensor_keeps _ _ _) rfl ?_
        exact Keeps.refl _ _
      extract_lets -lift -merge -useContext -underBinder +onlyGivenNames x3
      have h3 : Keeps execCalRunStart_parts q1 x3 := by
        unfold x3
        split
        · refine Keeps.viaBlock (b := 7) (State.setFld_keeps _ _ _) (fam_block _ _ _ _ rfl (by decide)) rfl ?_
          exact h2
        · exact h2
      refine Keeps.via (State.beginRank_keeps _ _) rfl ?_
      exact h3
    split
    · refine Keeps.ite ?_ ?_
      · refine Keeps.trans ?_ (h1 _ _)
        exact Keeps.refl _ _
      · exact Keeps.refl _ _
    · refine Keeps.ite ?_ ?_
      · extract_lets -lift -merge -useContext -underBinder +onlyGivenNames x4 x5
        have h5 : Keeps execCalRunStart_parts s0 x5 := by
          unfold x5
          refine Keeps.via (Keeps.upd_cal _ _) rfl ?_
          exact Keeps.refl _ _
        split
        · refine Keeps.trans ?_ (h1 _ _)
          refine Keeps.via (State.newRun_keeps _ _) rfl ?_
          exact h5
        · exact h5
      · exact Keeps.refl _ _
  · exact Keeps.refl _ _

def State.checkSampler_parts : List Part := [.free, .log, .sb, .cal, .reg Reg.GLB_EVENT, .reg Reg.GLB_DIRSTAT, .reg Reg.CAL_SWITCHES, .reg Reg.LOG_RINGSTAT, .reg Reg.LOG_CAPTURED, .reg Reg.LOG_COALESCED, .reg Reg.LOG_LOST, .reg Reg.LOG_ORPHANS, .reg Reg.LOG_SQUALLS]

theorem State.checkSampler_keeps (s0 : State) (p : ℕ) (b : ℕ) (ro : Roles) (m : BitMeas) :
    Keeps State.checkSampler_parts s0 (State.checkSampler s0 p b ro m) := by
  unfold State.checkSampler
  split
  · exact Keeps.refl _ _
  · extract_lets -lift -merge -useContext -underBinder +onlyGivenNames x0
    try clear_value x0
    extract_lets -lift -merge -useContext -underBinder +onlyGivenNames x1
    try clear_value x1
    extract_lets -lift -merge -useContext -underBinder +onlyGivenNames x2
    try clear_value x2
    extract_lets -lift -merge -useContext -underBinder +onlyGivenNames x3
    try clear_value x3
    extract_lets -lift -merge -useContext -underBinder +onlyGivenNames x4
    try clear_value x4
    extract_lets -lift -merge -useContext -underBinder +onlyGivenNames x5 x6
    have h6 : Keeps State.checkSampler_parts s0 x6 := by
      unfold x6
      refine Keeps.via (Keeps.upd_cal _ _) rfl ?_
      exact Keeps.refl _ _
    extract_lets -lift -merge -useContext -underBinder +onlyGivenNames x7
    have h7 : Keeps State.checkSampler_parts s0 x7 := by
      unfold x7
      refine Keeps.via (State.setLive_keeps _ _ _) rfl ?_
      exact h6
    refine Keeps.ite ?_ ?_
    · exact h7
    · refine Keeps.via (State.switchEvent_keeps _ _ _) rfl ?_
      refine Keeps.via (State.bump_keeps _ _ _) rfl ?_
      exact h7

def State.judgeNibble_parts : List Part := [.log, .sb, .cal, .reg Reg.GLB_EVENT, .reg Reg.GLB_DIRSTAT, .reg Reg.CAL_REJECTS, .reg Reg.LOG_RINGSTAT, .reg Reg.LOG_CAPTURED, .reg Reg.LOG_COALESCED, .reg Reg.LOG_LOST, .reg Reg.LOG_ORPHANS, .reg Reg.LOG_SQUALLS]

theorem State.judgeNibble_keeps (s0 : State) (p : ℕ) (k : ℕ) (m : CalMeas) :
    Keeps State.judgeNibble_parts s0 (State.judgeNibble s0 p k m) := by
  unfold State.judgeNibble
  split
  · exact Keeps.refl _ _
  · extract_lets -lift -merge -useContext -underBinder +onlyGivenNames x0
    try clear_value x0
    extract_lets -lift -merge -useContext -underBinder +onlyGivenNames x1
    try clear_value x1
    extract_lets -lift -merge -useContext -underBinder +onlyGivenNames x2
    try clear_value x2
    refine Keeps.ite ?_ ?_
    · refine Keeps.foldS _ _ ?_ (fun t3 y3 h3 => ?_)
      · exact Keeps.refl _ _
      · refine Keeps.via (State.event_keeps _ _ _) rfl ?_
        exact h3
    · refine Keeps.ite ?_ ?_
      · exact Keeps.refl _ _
      · extract_lets -lift -merge -useContext -underBinder +onlyGivenNames x4
        try clear_value x4
        extract_lets -lift -merge -useContext -underBinder +onlyGivenNames x5
        try clear_value x5
        extract_lets -lift -merge -useContext -underBinder +onlyGivenNames x6
        try clear_value x6
        extract_lets -lift -merge -useContext -underBinder +onlyGivenNames x7
        try clear_value x7
        refine Keeps.ite ?_ ?_
        · extract_lets -lift -merge -useContext -underBinder +onlyGivenNames x8
          try clear_value x8
          extract_lets -lift -merge -useContext -underBinder +onlyGivenNames x9 x10
          have h10 : Keeps State.judgeNibble_parts s0 x10 := by
            unfold x10
            refine Keeps.via (Keeps.upd_cal _ _) rfl ?_
            exact Keeps.refl _ _
          extract_lets -lift -merge -useContext -underBinder +onlyGivenNames x11
          have h11 : Keeps State.judgeNibble_parts s0 x11 := by
            unfold x11
            refine Keeps.via (State.event_keeps _ _ _) rfl ?_
            refine Keeps.via (State.bump_keeps _ _ _) rfl ?_
            exact h10
          refine Keeps.ite ?_ ?_
          · refine Keeps.via (State.markStale_keeps _ _ _) rfl ?_
            exact h11
          · exact h11
        · extract_lets -lift -merge -useContext -underBinder +onlyGivenNames x12 x13
          have h13 : Keeps State.judgeNibble_parts s0 x13 := by
            unfold x13
            refine Keeps.via (Keeps.upd_cal _ _) rfl ?_
            exact Keeps.refl _ _
          extract_lets -lift -merge -useContext -underBinder +onlyGivenNames x14
          try clear_value x14
          extract_lets -lift -merge -useContext -underBinder +onlyGivenNames x15
          try clear_value x15
          refine Keeps.via (State.setRun_keeps _ _ _) rfl ?_
          refine Keeps.via (State.setLive_keeps _ _ _) rfl ?_
          exact h13

def State.judgeSegs_parts : List Part := [.free, .log, .sb, .cal, .reg Reg.GLB_EVENT, .reg Reg.GLB_DIRSTAT, .reg Reg.LOG_RINGSTAT, .reg Reg.LOG_CAPTURED, .reg Reg.LOG_COALESCED, .reg Reg.LOG_LOST, .reg Reg.LOG_ORPHANS, .reg Reg.LOG_SQUALLS]

theorem State.judgeSegs_keeps (s0 : State) (p : ℕ) (m : CalMeas) :
    Keeps State.judgeSegs_parts s0 (State.judgeSegs s0 p m) := by
  unfold State.judgeSegs
  refine Keeps.foldS _ _ ?_ (fun t0 y0 h0 => ?_)
  · exact Keeps.refl _ _
  · split
    · extract_lets -lift -merge -useContext -underBinder +onlyGivenNames x1
      try clear_value x1
      extract_lets -lift -merge -useContext -underBinder +onlyGivenNames x2
      have h2 : Keeps State.judgeSegs_parts s0 x2 := by
        unfold x2
        refine Keeps.via (State.setRun_keeps _ _ _) rfl ?_
        exact h0
      refine Keeps.ite ?_ ?_
      · refine Keeps.via (State.switchEvent_keeps _ _ _) rfl ?_
        exact h2
      · exact h2
    · exact h0

def execCalMeasureDone_parts : List Part := [.free, .log, .sb, .cal, .reg Reg.GLB_EVENT, .reg Reg.GLB_DIRSTAT, .reg Reg.CAL_REJECTS, .reg Reg.CAL_SWITCHES, .reg Reg.LOG_RINGSTAT, .reg Reg.LOG_CAPTURED, .reg Reg.LOG_COALESCED, .reg Reg.LOG_LOST, .reg Reg.LOG_ORPHANS, .reg Reg.LOG_SQUALLS]

theorem execCalMeasureDone_keeps (sc : Fin 16) (m : CalMeas) (s0 : State) :
    KeepsOut execCalMeasureDone_parts s0 (execCalMeasureDone sc m s0) := by
  unfold execCalMeasureDone
  refine KeepsOut.next ?_
  split
  · refine Keeps.ite ?_ ?_
    · extract_lets -lift -merge -useContext -underBinder +onlyGivenNames x0
      have h0 : Keeps execCalMeasureDone_parts s0 x0 := by
        unfold x0
        refine Keeps.via (State.share_keeps _ _) rfl ?_
        refine Keeps.foldS _ _ ?_ (fun t1 y1 h1 => ?_)
        · exact Keeps.refl _ _
        · split
          · refine Keeps.via (State.checkSampler_keeps _ _ _ _ _) rfl ?_
            exact h1
          · exact h1
      extract_lets -lift -merge -useContext -underBinder +onlyGivenNames x2
      have h2 : Keeps execCalMeasureDone_parts s0 x2 := by
        unfold x2
        refine Keeps.via (State.setRun_keeps _ _ _) rfl ?_
        exact h0
      extract_lets -lift -merge -useContext -underBinder +onlyGivenNames x3
      have h3 : Keeps execCalMeasureDone_parts s0 x3 := by
        unfold x3
        refine Keeps.via (State.judgeSegs_keeps _ _ _) rfl ?_
        exact h2
      extract_lets -lift -merge -useContext -underBinder +onlyGivenNames x4
      have h4 : Keeps execCalMeasureDone_parts s0 x4 := by
        unfold x4
        refine Keeps.foldS _ _ ?_ (fun t5 y5 h5 => ?_)
        · exact h3
        · refine Keeps.via (State.judgeNibble_keeps _ _ _ _) rfl ?_
          exact h5
      extract_lets -lift -merge -useContext -underBinder +onlyGivenNames x6
      try clear_value x6
      split
      · refine Keeps.via (State.setRun_keeps _ _ _) rfl ?_
        exact h4
      · exact h4
    · exact Keeps.refl _ _
  · exact Keeps.refl _ _

def State.latchCycle_parts : List Part := [.sch, .cal]

theorem State.latchCycle_keeps (s0 : State) (n : ℕ) (p : ℕ) (r : CalRun) :
    Keeps State.latchCycle_parts s0 (State.latchCycle s0 n p r) := by
  unfold State.latchCycle
  split
  · refine Keeps.ofSome (by assumption) ?_
    refine KeepsOpt.via (State.pdxStep_keeps _ _) rfl ?_
    exact Keeps.refl _ _
  · split
    · refine Keeps.via (State.setRun_keeps _ _ _) rfl ?_
      refine Keeps.via (State.issue_keeps _ _ _ _ _ _) rfl ?_
      exact Keeps.refl _ _
    · exact Keeps.refl _ _

def execCalZqLatch_parts : List Part := [.log, .sb, .sch, .cal, .reg Reg.GLB_EVENT, .reg Reg.GLB_DIRSTAT, .reg Reg.LOG_RINGSTAT, .reg Reg.LOG_CAPTURED, .reg Reg.LOG_COALESCED, .reg Reg.LOG_LOST, .reg Reg.LOG_ORPHANS, .reg Reg.LOG_SQUALLS]

theorem execCalZqLatch_keeps (sc : Fin 16) (skipped : Bool) (s0 : State) :
    KeepsOut execCalZqLatch_parts s0 (execCalZqLatch sc skipped s0) := by
  unfold execCalZqLatch
  refine KeepsOut.next ?_
  extract_lets -lift -merge -useContext -underBinder +onlyGivenNames x0
  try clear_value x0
  split
  · extract_lets -lift -merge -useContext -underBinder +onlyGivenNames x1
    try clear_value x1
    refine Keeps.ite ?_ ?_
    · refine Keeps.ite ?_ ?_
      · refine Keeps.via (State.setRun_keeps _ _ _) rfl ?_
        refine Keeps.via (State.event_keeps _ _ _) rfl ?_
        exact Keeps.refl _ _
      · refine Keeps.ite ?_ ?_
        · refine Keeps.via (State.setRun_keeps _ _ _) rfl ?_
          refine Keeps.via (State.exitPd_keeps _ _ _) rfl ?_
          exact Keeps.refl _ _
        · exact Keeps.refl _ _
    · exact Keeps.refl _ _
  · exact Keeps.refl _ _

def State.noteRef_parts : List Part := [.cal]

theorem State.noteRef_keeps (s0 : State) (p : ℕ) (d : Decoded) :
    Keeps State.noteRef_parts s0 (State.noteRef s0 p d) := by
  unfold State.noteRef
  split
  · extract_lets -lift -merge -useContext -underBinder +onlyGivenNames x0
    try clear_value x0
    refine Keeps.ite ?_ ?_
    · refine Keeps.via (State.setRun_keeps _ _ _) rfl ?_
      exact Keeps.refl _ _
    · exact Keeps.refl _ _
  · exact Keeps.refl _ _

def State.moveRole_parts : List Part := [.free, .log, .sb, .cal, .reg Reg.GLB_EVENT, .reg Reg.GLB_DIRSTAT, .reg Reg.CAL_SWITCHES, .reg Reg.LOG_RINGSTAT, .reg Reg.LOG_CAPTURED, .reg Reg.LOG_COALESCED, .reg Reg.LOG_LOST, .reg Reg.LOG_ORPHANS, .reg Reg.LOG_SQUALLS]

theorem State.moveRole_keeps (s0 : State) (p : ℕ) (b : ℕ) (k : ℕ) :
    Keeps State.moveRole_parts s0 (State.moveRole s0 p b k) := by
  unfold State.moveRole
  extract_lets -lift -merge -useContext -underBinder +onlyGivenNames x0
  try clear_value x0
  extract_lets -lift -merge -useContext -underBinder +onlyGivenNames x1 x2
  have h2 : Keeps State.moveRole_parts s0 x2 := by
    unfold x2
    refine Keeps.via (Keeps.upd_cal _ _) rfl ?_
    exact Keeps.refl _ _
  extract_lets -lift -merge -useContext -underBinder +onlyGivenNames x3
  try clear_value x3
  refine Keeps.via (State.switchEvent_keeps _ _ _) rfl ?_
  refine Keeps.via (State.bump_keeps _ _ _) rfl ?_
  refine Keeps.via (State.setLive_keeps _ _ _) rfl ?_
  exact h2

def State.cancelRole_parts : List Part := [.cal]

theorem State.cancelRole_keeps (s0 : State) (p : ℕ) (b : ℕ) (k : ℕ) :
    Keeps State.cancelRole_parts s0 (State.cancelRole s0 p b k) := by
  unfold State.cancelRole
  extract_lets -lift -merge -useContext -underBinder +onlyGivenNames x0
  try clear_value x0
  refine Keeps.via (Keeps.upd_cal _ _) rfl ?_
  exact Keeps.refl _ _

def State.applyStep_parts : List Part := [.free, .log, .sb, .cal, .reg Reg.GLB_EVENT, .reg Reg.GLB_DIRSTAT, .reg Reg.CAL_STEPS, .reg Reg.CAL_SWITCHES, .reg Reg.LOG_RINGSTAT, .reg Reg.LOG_CAPTURED, .reg Reg.LOG_COALESCED, .reg Reg.LOG_LOST, .reg Reg.LOG_ORPHANS, .reg Reg.LOG_SQUALLS]

theorem State.applyStep_keeps (s0 : State) (p : ℕ) (e : BreezeEl) :
    Keeps State.applyStep_parts s0 (State.applyStep s0 p e) := by
  unfold State.applyStep
  split
  · exact Keeps.refl _ _
  · extract_lets -lift -merge -useContext -underBinder +onlyGivenNames x0
    try clear_value x0
    extract_lets -lift -merge -useContext -underBinder +onlyGivenNames x1
    have h1 : Keeps State.applyStep_parts s0 x1 := by
      unfold x1
      split
      · extract_lets -lift -merge -useContext -underBinder +onlyGivenNames x2
        try clear_value x2
        refine Keeps.via (State.setLive_keeps _ _ _) rfl ?_
        exact Keeps.refl _ _
      · extract_lets -lift -merge -useContext -underBinder +onlyGivenNames x3
        try clear_value x3
        extract_lets -lift -merge -useContext -underBinder +onlyGivenNames x4
        have h4 : Keeps State.applyStep_parts s0 x4 := by
          unfold x4
          refine Keeps.via (State.setLive_keeps _ _ _) rfl ?_
          exact Keeps.refl _ _
        extract_lets -lift -merge -useContext -underBinder +onlyGivenNames x5
        try clear_value x5
        refine Keeps.via (State.bump_keeps _ _ _) rfl ?_
        refine Keeps.ite ?_ ?_
        · exact h4
        · refine Keeps.via (State.setLive_keeps _ _ _) rfl ?_
          exact h4
      · refine Keeps.via (State.setRun_keeps _ _ _) rfl ?_
        refine Keeps.via (State.moveRole_keeps _ _ _ _) rfl ?_
        exact Keeps.refl _ _
    refine Keeps.via (State.bump_keeps _ _ _) rfl ?_
    exact h1

def State.beginInterval_parts : List Part := [.sch, .cal]

theorem State.beginInterval_keeps (s0 : State) (p : ℕ) (disagree : List (BitVec 6)) :
    Keeps State.beginInterval_parts s0 (State.beginInterval s0 p disagree) := by
  unfold State.beginInterval
  split
  · exact Keeps.refl _ _
  · refine Keeps.ite ?_ ?_
    · exact Keeps.refl _ _
    · extract_lets -lift -merge -useContext -underBinder +onlyGivenNames x0
      try clear_value x0
      extract_lets -lift -merge -useContext -underBinder +onlyGivenNames x1
      try clear_value x1
      extract_lets -lift -merge -useContext -underBinder +onlyGivenNames x2
      try clear_value x2
      extract_lets -lift -merge -useContext -underBinder +onlyGivenNames x3
      try clear_value x3
      extract_lets -lift -merge -useContext -underBinder +onlyGivenNames x4
      try clear_value x4
      extract_lets -lift -merge -useContext -underBinder +onlyGivenNames x5
      try clear_value x5
      extract_lets -lift -merge -useContext -underBinder +onlyGivenNames x6
      try clear_value x6
      extract_lets -lift -merge -useContext -underBinder +onlyGivenNames x7
      try clear_value x7
      extract_lets -lift -merge -useContext -underBinder +onlyGivenNames x8
      try clear_value x8
      extract_lets -lift -merge -useContext -underBinder +onlyGivenNames x9
      have h9 : Keeps State.beginInterval_parts s0 x9 := by
        unfold x9
        refine Keeps.foldS _ _ ?_ (fun t10 y10 h10 => ?_)
        · exact Keeps.refl _ _
        · refine Keeps.via (State.cancelRole_keeps _ _ _ _) rfl ?_
          exact h10
      extract_lets -lift -merge -useContext -underBinder +onlyGivenNames x11
      have h11 : Keeps State.beginInterval_parts s0 x11 := by
        unfold x11
        refine Keeps.via (State.setRun_keeps _ _ _) rfl ?_
        exact h9
      refine Keeps.ite ?_ ?_
      · refine Keeps.via (State.onSub_keeps _ _ _) rfl ?_
        exact h11
      · exact h11

def State.wakeForSteps_parts : List Part := [.sch]

theorem State.wakeForSteps_keeps (s0 : State) (p : ℕ) :
    Keeps State.wakeForSteps_parts s0 (State.wakeForSteps s0 p) := by
  unfold State.wakeForSteps
  split
  · refine Keeps.ite ?_ ?_
    · refine Keeps.via (State.exitPd_keeps _ _ _) rfl ?_
      exact Keeps.refl _ _
    · exact Keeps.refl _ _
  · exact Keeps.refl _ _

def State.stepsOf_parts : List Part := [.free, .log, .sb, .sch, .cal, .reg Reg.GLB_EVENT, .reg Reg.GLB_DIRSTAT, .reg Reg.CAL_STEPS, .reg Reg.CAL_SWITCHES, .reg Reg.LOG_RINGSTAT, .reg Reg.LOG_CAPTURED, .reg Reg.LOG_COALESCED, .reg Reg.LOG_LOST, .reg Reg.LOG_ORPHANS, .reg Reg.LOG_SQUALLS]

theorem State.stepsOf_keeps (s0 : State) (p : ℕ) (k : ℕ) :
    Keeps State.stepsOf_parts s0 (State.stepsOf s0 p k).1 := by
  unfold State.stepsOf
  split
  · dsimp -zeta only
    exact Keeps.refl _ _
  · extract_lets -lift -merge -useContext -underBinder +onlyGivenNames x0
    try clear_value x0
    extract_lets -lift -merge -useContext -underBinder +onlyGivenNames x1
    try clear_value x1
    extract_lets -lift -merge -useContext -underBinder +onlyGivenNames x2
    try clear_value x2
    extract_lets -lift -merge -useContext -underBinder +onlyGivenNames x3
    have h3 : Keeps State.stepsOf_parts s0 x3 := by
      unfold x3
      refine Keeps.via (State.setRun_keeps _ _ _) rfl ?_
      exact Keeps.refl _ _
    extract_lets -lift -merge -useContext -underBinder +onlyGivenNames x4
    have h4 : Keeps State.stepsOf_parts s0 x4 := by
      unfold x4
      refine Keeps.ite ?_ ?_
      · refine Keeps.via (State.issue_keeps _ _ _ _ _ _) rfl ?_
        exact h3
      · exact h3
    dsimp -zeta only
    refine Keeps.foldS _ _ ?_ (fun t5 y5 h5 => ?_)
    · exact h4
    · refine Keeps.via (State.applyStep_keeps _ _ _) rfl ?_
      exact h5

def State.breezeCycle_parts : List Part := [.free, .log, .sb, .sch, .cal, .reg Reg.GLB_EVENT, .reg Reg.GLB_DIRSTAT, .reg Reg.CAL_STEPS, .reg Reg.CAL_SWITCHES, .reg Reg.LOG_RINGSTAT, .reg Reg.LOG_CAPTURED, .reg Reg.LOG_COALESCED, .reg Reg.LOG_LOST, .reg Reg.LOG_ORPHANS, .reg Reg.LOG_SQUALLS]

theorem State.breezeCycle_keeps (s0 : State) (n : ℕ) :
    Keeps State.breezeCycle_parts s0 (State.breezeCycle s0 n) := by
  unfold State.breezeCycle
  refine Keeps.ite ?_ ?_
  · extract_lets -lift -merge -useContext -underBinder +onlyGivenNames x0
    have h0 : Keeps State.breezeCycle_parts s0 x0.1 := by
      unfold x0
      refine Keeps.via (State.stepsOf_keeps _ _ _) rfl ?_
      refine Keeps.via (State.wakeForSteps_keeps _ _) rfl ?_
      refine Keeps.via (State.wakeForSteps_keeps _ _) rfl ?_
      exact Keeps.refl _ _
    refine Keeps.via (State.stepsOf_keeps _ _ _) rfl ?_
    exact h0
  · exact Keeps.refl _ _

def execBreezeStep_parts : List Part := [.sch, .cal]

theorem execBreezeStep_keeps (sc : Fin 16) (disagree : List (BitVec 6)) (s0 : State) :
    KeepsOut execBreezeStep_parts s0 (execBreezeStep sc disagree s0) := by
  unfold execBreezeStep
  refine KeepsOut.next ?_
  extract_lets -lift -merge -useContext -underBinder +onlyGivenNames x0
  try clear_value x0
  refine Keeps.ite ?_ ?_
  · refine Keeps.via (State.beginInterval_keeps _ _ _) rfl ?_
    refine Keeps.via (State.beginInterval_keeps _ _ _) rfl ?_
    exact Keeps.refl _ _
  · exact Keeps.refl _ _

def State.worst_parts : List Part := [.free, .block 0x6]

theorem State.worst_keeps (s0 : State) (n : ℕ) :
    Keeps State.worst_parts s0 (State.worst s0 n) := by
  unfold State.worst
  extract_lets -lift -merge -useContext -underBinder +onlyGivenNames x0
  try clear_value x0
  split
  · refine Keeps.viaBlock (b := 6) (State.setReg_keeps _ _ _) (fam_block _ _ _ _ rfl (by decide)) rfl ?_
    exact Keeps.refl _ _
  · extract_lets -lift -merge -useContext -underBinder +onlyGivenNames x1
    try clear_value x1
    extract_lets -lift -merge -useContext -underBinder +onlyGivenNames x2
    try clear_value x2
    extract_lets -lift -merge -useContext -underBinder +onlyGivenNames x3
    try clear_value x3
    extract_lets -lift -merge -useContext -underBinder +onlyGivenNames x4
    have h4 : Keeps State.worst_parts s0 x4.2 := by
      unfold x4
      refine Keeps.via (State.draw_keeps _) rfl ?_
      exact Keeps.refl _ _
    extract_lets -lift -merge -useContext -underBinder +onlyGivenNames x5
    try clear_value x5
    refine Keeps.viaBlock (b := 6) (State.setReg_keeps _ _ _) (fam_block _ _ _ _ rfl (by decide)) rfl ?_
    exact h4

def State.touchRecord_parts : List Part := [.cal]

theorem State.touchRecord_keeps (s0 : State) (p : ℕ) (temp : ℕ) :
    Keeps State.touchRecord_parts s0 (State.touchRecord s0 p temp) := by
  unfold State.touchRecord
  extract_lets -lift -merge -useContext -underBinder +onlyGivenNames x0
  try clear_value x0
  extract_lets -lift -merge -useContext -underBinder +onlyGivenNames x1
  try clear_value x1
  refine Keeps.via (State.setLive_keeps _ _ _) rfl ?_
  exact Keeps.refl _ _

def State.finishRun_parts : List Part := [.free, .log, .sb, .links, .twin, .ord, .mir, .sch, .cal, .reg Reg.GLB_EVENT, .reg Reg.GLB_DIRSTAT, .reg Reg.ORD_FWD, .reg Reg.ORD_LINEHOLD, .block 0x6, .reg Reg.CAL_RUNS, .reg Reg.ECC_SEALFAIL, .reg Reg.ECC_FIRSTFAIL, .reg Reg.LOG_RINGSTAT, .reg Reg.LOG_CAPTURED, .reg Reg.LOG_COALESCED, .reg Reg.LOG_LOST, .reg Reg.LOG_ORPHANS, .reg Reg.LOG_SQUALLS]

theorem State.finishRun_keeps (s0 : State) (p : ℕ) (run : CalRun) :
    Keeps State.finishRun_parts s0 (State.finishRun s0 p run) := by
  unfold State.finishRun
  extract_lets -lift -merge -useContext -underBinder +onlyGivenNames x0
  try clear_value x0
  extract_lets -lift -merge -useContext -underBinder +onlyGivenNames x1
  try clear_value x1
  extract_lets -lift -merge -useContext -underBinder +onlyGivenNames x2
  have h2 : Keeps State.finishRun_parts s0 x2 := by
    unfold x2
    refine Keeps.foldS _ _ ?_ (fun t3 y3 h3 => ?_)
    · exact Keeps.refl _ _
    · extract_lets -lift -merge -useContext -underBinder +onlyGivenNames x4
      try clear_value x4
      extract_lets -lift -merge -useContext -underBinder +onlyGivenNames x5 x6
      have h6 : Keeps State.finishRun_parts s0 x6 := by
        unfold x6
        refine Keeps.via (Keeps.upd_cal _ _) rfl ?_
        exact h3
      extract_lets -lift -merge -useContext -underBinder +onlyGivenNames x7
      try clear_value x7
      refine Keeps.via (State.setLive_keeps _ _ _) rfl ?_
      exact h6
  extract_lets -lift -merge -useContext -underBinder +onlyGivenNames x8
  have h8 : Keeps State.finishRun_parts s0 x8 := by
    unfold x8
    refine Keeps.via (State.touchRecord_keeps _ _ _) rfl ?_
    exact h2
  extract_lets -lift -merge -useContext -underBinder +onlyGivenNames x9
  try clear_value x9
  extract_lets -lift -merge -useContext -underBinder +onlyGivenNames x10 x11
  have h11 : Keeps State.finishRun_parts s0 x11 := by
    unfold x11
    refine Keeps.via (Keeps.upd_cal _ _) rfl ?_
    exact h8
  extract_lets -lift -merge -useContext -underBinder +onlyGivenNames x12
  have h12 : Keeps State.finishRun_parts s0 x12 := by
    unfold x12
    refine Keeps.via (State.writeCal_keeps _ _) rfl ?_
    refine Keeps.via (State.setRun_keeps _ _ _) rfl ?_
    refine Keeps.via (State.worst_keeps _ _) rfl ?_
    exact h11
  extract_lets -lift -merge -useContext -underBinder +onlyGivenNames x13
  have h13 : Keeps State.finishRun_parts s0 x13 := by
    unfold x13
    refine Keeps.via (State.event_keeps _ _ _) rfl ?_
    refine Keeps.via (State.bump_keeps _ _ _) rfl ?_
    exact h12
  extract_lets -lift -merge -useContext -underBinder +onlyGivenNames x14
  try clear_value x14
  refine Keeps.ite ?_ ?_
  · refine Keeps.via (State.setRun_keeps _ _ _) rfl ?_
    exact h13
  · refine Keeps.via (State.pendToDue_keeps _ _) rfl ?_
    exact h13

def State.finishRestore_parts : List Part := [.free, .log, .sb, .links, .twin, .ord, .mir, .sch, .cal, .reg Reg.GLB_EVENT, .reg Reg.GLB_DIRSTAT, .reg Reg.ORD_FWD, .reg Reg.ORD_LINEHOLD, .block 0x6, .block 0x7, .reg Reg.ECC_SEALFAIL, .reg Reg.ECC_FIRSTFAIL, .reg Reg.LOG_RINGSTAT, .reg Reg.LOG_CAPTURED, .reg Reg.LOG_COALESCED, .reg Reg.LOG_LOST, .reg Reg.LOG_ORPHANS, .reg Reg.LOG_SQUALLS]

theorem State.finishRestore_keeps (s0 : State) (p : ℕ) (run : CalRun) :
    Keeps State.finishRestore_parts s0 (State.finishRestore s0 p run) := by
  unfold State.finishRestore
  extract_lets -lift -merge -useContext -underBinder +onlyGivenNames x0
  try clear_value x0
  extract_lets -lift -merge -useContext -underBinder +onlyGivenNames x1
  try clear_value x1
  extract_lets -lift -merge -useContext -underBinder +onlyGivenNames x2
  try clear_value x2
  extract_lets -lift -merge -useContext -underBinder +onlyGivenNames x3
  try clear_value x3
  extract_lets -lift -merge -useContext -underBinder +onlyGivenNames x4
  try clear_value x4
  extract_lets -lift -merge -useContext -underBinder +onlyGivenNames x5
  have h5 : Keeps State.finishRestore_parts s0 x5 := by
    unfold x5
    refine Keeps.viaBlock (b := 7) (State.setFld_keeps _ _ _) (fam_block _ _ _ _ rfl (by decide)) rfl ?_
    refine Keeps.via (State.share_keeps _ _) rfl ?_
    refine Keeps.via (State.touchRecord_keeps _ _ _) rfl ?_
    refine Keeps.via (State.setLive_keeps _ _ _) rfl ?_
    exact Keeps.refl _ _
  extract_lets -lift -merge -useContext -underBinder +onlyGivenNames x6 x7
  have h7 : Keeps State.finishRestore_parts s0 x7 := by
    unfold x7
    refine Keeps.via (Keeps.upd_cal _ _) rfl ?_
    exact h5
  extract_lets -lift -merge -useContext -underBinder +onlyGivenNames x8
  have h8 : Keeps State.finishRestore_parts s0 x8 := by
    unfold x8
    refine Keeps.via (State.writeCal_keeps _ _) rfl ?_
    refine Keeps.via (State.setRun_keeps _ _ _) rfl ?_
    refine Keeps.via (State.worst_keeps _ _) rfl ?_
    exact h7
  refine Keeps.via (State.makeDue_keeps _ _) rfl ?_
  refine Keeps.via (State.event_keeps _ _ _) rfl ?_
  exact h8

def execCalRunDone_parts : List Part := [.free, .log, .sb, .links, .twin, .ord, .mir, .sch, .cal, .reg Reg.GLB_EVENT, .reg Reg.GLB_DIRSTAT, .reg Reg.ORD_FWD, .reg Reg.ORD_LINEHOLD, .block 0x6, .block 0x7, .reg Reg.ECC_SEALFAIL, .reg Reg.ECC_FIRSTFAIL, .reg Reg.LOG_RINGSTAT, .reg Reg.LOG_CAPTURED, .reg Reg.LOG_COALESCED, .reg Reg.LOG_LOST, .reg Reg.LOG_ORPHANS, .reg Reg.LOG_SQUALLS]

theorem execCalRunDone_keeps (sc : Fin 16) (s0 : State) :
    KeepsOut execCalRunDone_parts s0 (execCalRunDone sc s0) := by
  unfold execCalRunDone
  refine KeepsOut.next ?_
  split
  · split
    · refine Keeps.ite ?_ ?_
      · exact Keeps.refl _ _
      · refine Keeps.ite ?_ ?_
        · refine Keeps.via (State.finishRestore_keeps _ _ _) rfl ?_
          exact Keeps.refl _ _
        · refine Keeps.via (State.finishRun_keeps _ _ _) rfl ?_
          exact Keeps.refl _ _
    · exact Keeps.refl _ _
  · exact Keeps.refl _ _

def State.startRestore_parts : List Part := [.log, .sb, .links, .twin, .ord, .mir, .sch, .cal, .reg Reg.GLB_EVENT, .reg Reg.GLB_DIRSTAT, .reg Reg.ORD_FWD, .reg Reg.ORD_LINEHOLD, .reg Reg.CAL_ABANDONED, .reg Reg.ECC_SEALFAIL, .reg Reg.ECC_FIRSTFAIL, .reg Reg.LOG_RINGSTAT, .reg Reg.LOG_CAPTURED, .reg Reg.LOG_COALESCED, .reg Reg.LOG_LOST, .reg Reg.LOG_ORPHANS, .reg Reg.LOG_SQUALLS]

theorem State.startRestore_keeps (s0 : State) (p : ℕ) :
    Keeps State.startRestore_parts s0 (State.startRestore s0 p) := by
  unfold State.startRestore
  extract_lets -lift -merge -useContext -underBinder +onlyGivenNames x0
  try clear_value x0
  extract_lets -lift -merge -useContext -underBinder +onlyGivenNames x1
  have h1 : Keeps State.startRestore_parts s0 x1 := by
    unfold x1
    refine Keeps.via (State.abandonCal_keeps _ _ _) rfl ?_
    exact Keeps.refl _ _
  extract_lets -lift -merge -useContext -underBinder +onlyGivenNames x2
  try clear_value x2
  refine Keeps.via (State.setRun_keeps _ _ _) rfl ?_
  exact h1

def execCalCaptureDone_parts : List Part := [.cal, .reg Reg.CAL_RECSEL]

theorem execCalCaptureDone_keeps (s0 : State) :
    KeepsOut execCalCaptureDone_parts s0 (execCalCaptureDone s0) := by
  unfold execCalCaptureDone
  refine KeepsOut.next ?_
  extract_lets -lift -merge -useContext -underBinder +onlyGivenNames x0
  try clear_value x0
  extract_lets -lift -merge -useContext -underBinder +onlyGivenNames x1
  try clear_value x1
  extract_lets -lift -merge -useContext -underBinder +onlyGivenNames x2
  try clear_value x2
  extract_lets -lift -merge -useContext -underBinder +onlyGivenNames x3
  try clear_value x3
  refine Keeps.ite ?_ ?_
  · extract_lets -lift -merge -useContext -underBinder +onlyGivenNames x4
    try clear_value x4
    refine Keeps.via (State.setFld_keeps _ _ _) rfl ?_
    refine Keeps.via (Keeps.upd_cal _ _) rfl ?_
    exact Keeps.refl _ _
  · exact Keeps.refl _ _

end Sys2Proof.Machine
end

