-- ==== Sys2Proof/Laws/KeepsFaults.lean ====
section
/-!
SUPPORT. The frames of the operations of Machine/Faults.lean: the parts of the state each may change, and that each keeps the canonical
form. A proof of a frame cites these and unfolds nothing.
-/

namespace Sys2Proof.Machine

def State.judgeBuckets_parts : List Part := [.log, .sb, .links, .twin, .ord, .mir, .sch, .flt, .cal, .reg Reg.GLB_EVENT, .reg Reg.GLB_DIRSTAT, .reg Reg.ORD_FWD, .reg Reg.ORD_LINEHOLD, .reg Reg.ECC_SEALFAIL, .reg Reg.ECC_FIRSTFAIL, .reg Reg.LOG_RINGSTAT, .reg Reg.LOG_CAPTURED, .reg Reg.LOG_COALESCED, .reg Reg.LOG_LOST, .reg Reg.LOG_ORPHANS, .reg Reg.LOG_SQUALLS]

theorem State.judgeBuckets_keeps (s0 : State) (p : ℕ) (d : Decoded) (risen : List ℕ) :
    Keeps State.judgeBuckets_parts s0 (State.judgeBuckets s0 p d risen) := by
  unfold State.judgeBuckets
  extract_lets -lift -merge -useContext -underBinder +onlyGivenNames x0
  try clear_value x0
  extract_lets -lift -merge -useContext -underBinder +onlyGivenNames x1
  try clear_value x1
  extract_lets -lift -merge -useContext -underBinder +onlyGivenNames x2
  try clear_value x2
  split
  · refine Keeps.ite ?_ ?_
    · refine Keeps.via (State.raiseRank_keeps _ _ _) rfl ?_
      exact Keeps.refl _ _
    · exact Keeps.refl _ _
  · refine Keeps.ite ?_ ?_
    · refine Keeps.via (State.raiseRank_keeps _ _ _) rfl ?_
      exact Keeps.refl _ _
    · exact Keeps.refl _ _
  · split
    · split
      · extract_lets -lift -merge -useContext -underBinder +onlyGivenNames x3
        have h3 : Keeps State.judgeBuckets_parts s0 x3 := by
          unfold x3
          refine Keeps.via (State.writeFault_keeps _) rfl ?_
          refine Keeps.via (State.onRank_keeps _ _ _) rfl ?_
          exact Keeps.refl _ _
        refine Keeps.via (State.event_keeps _ _ _) rfl ?_
        exact h3
      · exact Keeps.refl _ _
    · refine Keeps.ite ?_ ?_
      · refine Keeps.via (State.raiseRank_keeps _ _ _) rfl ?_
        exact Keeps.refl _ _
      · refine Keeps.ite ?_ ?_
        · refine Keeps.via (State.raiseRank_keeps _ _ _) rfl ?_
          exact Keeps.refl _ _
        · exact Keeps.refl _ _
  · exact Keeps.refl _ _

def State.decodeEffects_parts : List Part := [.log, .sb, .links, .twin, .ord, .mir, .sch, .flt, .cal, .reg Reg.GLB_EVENT, .reg Reg.GLB_DIRSTAT, .reg Reg.ORD_FWD, .reg Reg.ORD_LINEHOLD, .block 0x8, .reg Reg.LOG_RINGSTAT, .reg Reg.LOG_CAPTURED, .reg Reg.LOG_COALESCED, .reg Reg.LOG_LOST, .reg Reg.LOG_ORPHANS, .reg Reg.LOG_SQUALLS]

theorem State.decodeEffects_keeps (s0 : State) (n : ℕ) (l : Loc) (d : Decoded) (bucket : Bool) :
    Keeps State.decodeEffects_parts s0 (State.decodeEffects s0 n l d bucket) := by
  unfold State.decodeEffects
  extract_lets -lift -merge -useContext -underBinder +onlyGivenNames x0
  try clear_value x0
  extract_lets -lift -merge -useContext -underBinder +onlyGivenNames x1
  have h1 : Keeps State.decodeEffects_parts s0 x1 := by
    unfold x1
    refine Keeps.via (State.countDecode_keeps _ _ _ _) rfl ?_
    exact Keeps.refl _ _
  refine Keeps.ite ?_ ?_
  · extract_lets -lift -merge -useContext -underBinder +onlyGivenNames x2
    try clear_value x2
    refine Keeps.via (State.judgeBuckets_keeps _ _ _ _) rfl ?_
    refine Keeps.via (State.setRank_keeps _ _ _) rfl ?_
    exact h1
  · exact h1

def State.scrubDamage_parts : List Part := [.log, .sb, .links, .mir, .reg Reg.GLB_EVENT, .reg Reg.GLB_DIRSTAT, .reg Reg.LOG_RINGSTAT, .reg Reg.LOG_CAPTURED, .reg Reg.LOG_COALESCED, .reg Reg.LOG_LOST, .reg Reg.LOG_ORPHANS, .reg Reg.LOG_SQUALLS]

theorem State.scrubDamage_keeps (s0 : State) (a : ℕ) (found : ℕ) (late : Bool) :
    Keeps State.scrubDamage_parts s0 (State.scrubDamage s0 a found late) := by
  unfold State.scrubDamage
  split
  · refine Keeps.ite ?_ ?_
    · extract_lets -lift -merge -useContext -underBinder +onlyGivenNames x0
      have h0 : ∀ q0 z1 z2, Keeps State.scrubDamage_parts q0 (x0 q0 z1 z2) := by
        intro q0 z1 z2
        unfold x0
        refine Keeps.via (Keeps.upd_mir _ _) rfl ?_
        exact Keeps.refl _ _
      split
      · refine Keeps.trans ?_ (h0 _ _ _)
        exact Keeps.refl _ _
      · split
        · refine Keeps.via (State.askTwin_keeps _ _ _ _) rfl ?_
          refine Keeps.trans ?_ (h0 _ _ _)
          exact Keeps.refl _ _
        · refine Keeps.via (State.scrubLost_keeps _ _ _) rfl ?_
          exact Keeps.refl _ _
    · refine Keeps.via (State.scrubLost_keeps _ _ _) rfl ?_
      exact Keeps.refl _ _
  · refine Keeps.via (State.scrubLost_keeps _ _ _) rfl ?_
    exact Keeps.refl _ _

def State.giveCorrection_parts : List Part := [.sch]

theorem State.giveCorrection_keeps (s0 : State) (n : ℕ) (a2 : CorrEntry) (line : Line) :
    Keeps State.giveCorrection_parts s0 (State.giveCorrection s0 n a2 line) := by
  unfold State.giveCorrection
  refine Keeps.via (State.onSub_keeps _ _ _) rfl ?_
  exact Keeps.refl _ _

def State.scrubDone_parts : List Part := [.log, .sb, .links, .twin, .ord, .mir, .sch, .flt, .reg Reg.GLB_EVENT, .reg Reg.GLB_DIRSTAT, .reg Reg.ORD_FWD, .reg Reg.ORD_LINEHOLD, .block 0x5, .reg Reg.ECC_SEALFAIL, .reg Reg.ECC_FIRSTFAIL, .reg Reg.LOG_RINGSTAT, .reg Reg.LOG_CAPTURED, .reg Reg.LOG_COALESCED, .reg Reg.LOG_LOST, .reg Reg.LOG_ORPHANS, .reg Reg.LOG_SQUALLS]

theorem State.scrubDone_keeps (s0 : State) (n : ℕ) (e : StoreEntry) (d : Decoded) (k : PoisonKind) :
    Keeps State.scrubDone_parts s0 (State.scrubDone s0 n e d k) := by
  unfold State.scrubDone
  split
  · exact Keeps.refl _ _
  · extract_lets -lift -merge -useContext -underBinder +onlyGivenNames x0
    have h0 : ∀ q0, Keeps State.scrubDone_parts q0 (x0 q0) := by
      intro q0
      unfold x0
      refine Keeps.via (State.freeCorr_keeps _ _ _) rfl ?_
      exact Keeps.refl _ _
    refine Keeps.ite ?_ ?_
    · refine Keeps.trans ?_ (h0 _)
      exact Keeps.refl _ _
    · split
      · refine Keeps.trans ?_ (h0 _)
        exact Keeps.refl _ _
      · refine Keeps.via (State.scrubDamage_keeps _ _ _ _) rfl ?_
        refine Keeps.trans ?_ (h0 _)
        exact Keeps.refl _ _
      · refine Keeps.ite ?_ ?_
        · refine Keeps.trans ?_ (h0 _)
          exact Keeps.refl _ _
        · refine Keeps.ite ?_ ?_
          · refine Keeps.viaBlock (b := 5) (State.bump_keeps _ _ _) (fam_block _ _ _ _ rfl (by decide)) rfl ?_
            refine Keeps.trans ?_ (h0 _)
            exact Keeps.refl _ _
          · refine Keeps.via (State.queueMaint_keeps _ _ _) rfl ?_
            refine Keeps.via (State.giveCorrection_keeps _ _ _ _) rfl ?_
            exact Keeps.refl _ _

def State.rebuildDone_parts : List Part := [.free, .links, .twin, .mir, .reg Reg.MIR_RBLINES]

theorem State.rebuildDone_keeps (s0 : State) (e : StoreEntry) (line : Line) (k : PoisonKind) :
    Keeps State.rebuildDone_parts s0 (State.rebuildDone s0 e line k) := by
  unfold State.rebuildDone
  refine Keeps.ite ?_ ?_
  · extract_lets -lift -merge -useContext -underBinder +onlyGivenNames x0
    try clear_value x0
    extract_lets -lift -merge -useContext -underBinder +onlyGivenNames x1
    have h1 : Keeps State.rebuildDone_parts s0 x1.2 := by
      unfold x1
      refine Keeps.via (State.draw_keeps _) rfl ?_
      exact Keeps.refl _ _
    extract_lets -lift -merge -useContext -underBinder +onlyGivenNames x2
    try clear_value x2
    extract_lets -lift -merge -useContext -underBinder +onlyGivenNames x3 x4 x5
    have h3 : Keeps State.rebuildDone_parts s0 x3 := by
      unfold x3
      exact h1
    have h5 : Keeps State.rebuildDone_parts s0 x5 := by
      unfold x5
      refine Keeps.via (Keeps.upd_mir _ _) rfl ?_
      exact h3
    refine Keeps.via (State.pumpLines_keeps _ _) rfl ?_
    exact h5
  · exact Keeps.refl _ _

def State.copyDone_parts : List Part := [.log, .sb, .links, .twin, .ord, .mir, .sch, .flt, .reg Reg.GLB_EVENT, .reg Reg.GLB_DIRSTAT, .reg Reg.ORD_FWD, .reg Reg.ORD_LINEHOLD, .block 0x5, .reg Reg.ECC_SEALFAIL, .reg Reg.ECC_FIRSTFAIL, .reg Reg.LOG_RINGSTAT, .reg Reg.LOG_CAPTURED, .reg Reg.LOG_COALESCED, .reg Reg.LOG_LOST, .reg Reg.LOG_ORPHANS, .reg Reg.LOG_SQUALLS]

theorem State.copyDone_keeps (s0 : State) (e : StoreEntry) (stored : List Byte) (d : Decoded) (k : PoisonKind) :
    Keeps State.copyDone_parts s0 (State.copyDone s0 e stored d k) := by
  unfold State.copyDone
  extract_lets -lift -merge -useContext -underBinder +onlyGivenNames x0
  have h0 : Keeps State.copyDone_parts s0 x0 := by
    unfold x0
    split
    · refine Keeps.via (State.tryFree_keeps _ _) rfl ?_
      refine Keeps.via (State.onEntry_keeps _ _ _) rfl ?_
      exact Keeps.refl _ _
    · exact Keeps.refl _ _
  extract_lets -lift -merge -useContext -underBinder +onlyGivenNames x1
  have h1 : Keeps State.copyDone_parts s0 x1 := by
    unfold x1
    refine Keeps.via (State.pumpAgents_keeps _ _) rfl ?_
    exact h0
  split
  · exact h1
  · split
    · exact h1
    · refine Keeps.ite ?_ ?_
      · refine Keeps.viaBlock (b := 5) (State.bump_keeps _ _ _) (fam_block _ _ _ _ rfl (by decide)) rfl ?_
        refine Keeps.via (State.freeCorr_keeps _ _ _) rfl ?_
        exact h1
      · refine Keeps.ite ?_ ?_
        · refine Keeps.via (State.queueMaint_keeps _ _ _) rfl ?_
          refine Keeps.via (State.giveCorrection_keeps _ _ _ _) rfl ?_
          exact h1
        · extract_lets -lift -merge -useContext -underBinder +onlyGivenNames x2
          have h2 : Keeps State.copyDone_parts s0 x2 := by
            unfold x2
            refine Keeps.via (State.onSub_keeps _ _ _) rfl ?_
            exact h1
          refine Keeps.via (State.queueMaint_keeps _ _ _) rfl ?_
          exact h2

def execReadDataDecode_parts : List Part := [.free, .log, .sb, .links, .twin, .ord, .mir, .sch, .flt, .cal, .reg Reg.GLB_EVENT, .reg Reg.GLB_DIRSTAT, .reg Reg.ORD_FWD, .reg Reg.ORD_LINEHOLD, .reg Reg.MIR_RBLINES, .block 0x5, .block 0x8, .reg Reg.LOG_RINGSTAT, .reg Reg.LOG_CAPTURED, .reg Reg.LOG_COALESCED, .reg Reg.LOG_LOST, .reg Reg.LOG_ORPHANS, .reg Reg.LOG_SQUALLS]

theorem execReadDataDecode_keeps (sc : Fin 16) (errors : List Byte) (s0 : State) :
    KeepsOut execReadDataDecode_parts s0 (execReadDataDecode sc errors s0) := by
  unfold execReadDataDecode
  refine KeepsOut.next ?_
  extract_lets -lift -merge -useContext -underBinder +onlyGivenNames x0
  try clear_value x0
  split
  · exact Keeps.refl _ _
  · extract_lets -lift -merge -useContext -underBinder +onlyGivenNames x1
    have h1 : Keeps execReadDataDecode_parts s0 x1 := by
      unfold x1
      refine Keeps.via (State.onSub_keeps _ _ _) rfl ?_
      exact Keeps.refl _ _
    extract_lets -lift -merge -useContext -underBinder +onlyGivenNames x2
    try clear_value x2
    extract_lets -lift -merge -useContext -underBinder +onlyGivenNames x3
    try clear_value x3
    extract_lets -lift -merge -useContext -underBinder +onlyGivenNames x4
    try clear_value x4
    extract_lets -lift -merge -useContext -underBinder +onlyGivenNames x5
    try clear_value x5
    extract_lets -lift -merge -useContext -underBinder +onlyGivenNames x6
    try clear_value x6
    extract_lets -lift -merge -useContext -underBinder +onlyGivenNames x7
    try clear_value x7
    extract_lets -lift -merge -useContext -underBinder +onlyGivenNames x8
    have h8 : Keeps execReadDataDecode_parts s0 x8 := by
      unfold x8
      refine Keeps.via (State.noteRef_keeps _ _ _) rfl ?_
      refine Keeps.ite ?_ ?_
      · refine Keeps.via (State.decodeEffects_keeps _ _ _ _ _) rfl ?_
        exact h1
      · exact h1
    extract_lets -lift -merge -useContext -underBinder +onlyGivenNames x9
    try clear_value x9
    extract_lets -lift -merge -useContext -underBinder +onlyGivenNames x10
    have h10 : Keeps execReadDataDecode_parts s0 x10 := by
      unfold x10
      refine Keeps.ite ?_ ?_
      · split
        · refine Keeps.via (State.sealFail_keeps _ _ _ _ _) rfl ?_
          exact h8
        · refine Keeps.ite ?_ ?_
          · refine Keeps.via (State.sealFail_keeps _ _ _ _ _) rfl ?_
            exact h8
          · refine Keeps.via (State.sealFail_keeps _ _ _ _ _) rfl ?_
            exact h8
      · exact h8
    extract_lets -lift -merge -useContext -underBinder +onlyGivenNames x11
    try clear_value x11
    split
    · refine Keeps.via (State.scrubDone_keeps _ _ _ _ _) rfl ?_
      exact h10
    · refine Keeps.via (State.rebuildDone_keeps _ _ _ _) rfl ?_
      exact h10
    · refine Keeps.via (State.copyDone_keeps _ _ _ _ _) rfl ?_
      exact h10
    · split
      · refine Keeps.via (State.serveAll_keeps _ _ _ _ _) rfl ?_
        exact h10
      · exact h10

def execSpareCopyInterval_parts : List Part := [.log, .sb, .links, .twin, .ord, .mir, .sch, .flt, .reg Reg.GLB_EVENT, .reg Reg.GLB_DIRSTAT, .reg Reg.ORD_FWD, .reg Reg.ORD_LINEHOLD, .reg Reg.ECC_SEALFAIL, .reg Reg.ECC_FIRSTFAIL, .reg Reg.LOG_RINGSTAT, .reg Reg.LOG_CAPTURED, .reg Reg.LOG_COALESCED, .reg Reg.LOG_LOST, .reg Reg.LOG_ORPHANS, .reg Reg.LOG_SQUALLS]

theorem execSpareCopyInterval_keeps (s0 : State) :
    KeepsOut execSpareCopyInterval_parts s0 (execSpareCopyInterval s0) := by
  unfold execSpareCopyInterval
  refine KeepsOut.next ?_
  extract_lets -lift -merge -useContext -underBinder +onlyGivenNames x0
  try clear_value x0
  refine Keeps.ite ?_ ?_
  · extract_lets -lift -merge -useContext -underBinder +onlyGivenNames x1
    try clear_value x1
    extract_lets -lift -merge -useContext -underBinder +onlyGivenNames x2
    try clear_value x2
    extract_lets -lift -merge -useContext -underBinder +onlyGivenNames x3
    have h3 : ∀ q3, Keeps execSpareCopyInterval_parts q3 (x3 q3) := by
      intro q3
      unfold x3
      refine Keeps.via (Keeps.upd_flt _ _) rfl ?_
      exact Keeps.refl _ _
    refine Keeps.ite ?_ ?_
    · refine Keeps.via (State.settleCopy_keeps _ _) rfl ?_
      refine Keeps.trans ?_ (h3 _)
      exact Keeps.refl _ _
    · split
      · refine Keeps.via (State.settleCopy_keeps _ _) rfl ?_
        refine Keeps.trans ?_ (h3 _)
        exact Keeps.refl _ _
      · extract_lets -lift -merge -useContext -underBinder +onlyGivenNames x4
        try clear_value x4
        refine Keeps.ite ?_ ?_
        · extract_lets -lift -merge -useContext -underBinder +onlyGivenNames x5
          have h5 : Keeps execSpareCopyInterval_parts s0 x5 := by
            unfold x5
            refine Keeps.via (State.onSub_keeps _ _ _) rfl ?_
            refine Keeps.trans ?_ (h3 _)
            exact Keeps.refl _ _
          extract_lets -lift -merge -useContext -underBinder +onlyGivenNames x6
          try clear_value x6
          extract_lets -lift -merge -useContext -underBinder +onlyGivenNames x7 x8 x9
          have h7 : Keeps execSpareCopyInterval_parts s0 x7 := by
            unfold x7
            refine Keeps.via (State.setEntry_keeps _ _ _) rfl ?_
            exact h5
          have h9 : Keeps execSpareCopyInterval_parts s0 x9 := by
            unfold x9
            refine Keeps.via (Keeps.upd_ord _ _) rfl ?_
            exact h7
          refine Keeps.via (State.toSchedule_keeps _ _) rfl ?_
          exact h9
        · exact Keeps.refl _ _
  · exact Keeps.refl _ _

def execAlertNLow_parts : List Part := [.sch]

theorem execAlertNLow_keeps (sc : Fin 16) (s0 : State) :
    KeepsOut execAlertNLow_parts s0 (execAlertNLow sc s0) := by
  unfold execAlertNLow
  refine KeepsOut.next ?_
  extract_lets -lift -merge -useContext -underBinder +onlyGivenNames x0
  try clear_value x0
  extract_lets -lift -merge -useContext -underBinder +onlyGivenNames x1
  have h1 : Keeps execAlertNLow_parts s0 x1 := by
    unfold x1
    refine Keeps.via (State.onSub_keeps _ _ _) rfl ?_
    exact Keeps.refl _ _
  extract_lets -lift -merge -useContext -underBinder +onlyGivenNames x2
  try clear_value x2
  refine Keeps.ite ?_ ?_
  · exact h1
  · refine Keeps.ite ?_ ?_
    · refine Keeps.via (State.setSub_keeps _ _ _) rfl ?_
      exact h1
    · refine Keeps.ite ?_ ?_
      · refine Keeps.via (State.setSub_keeps _ _ _) rfl ?_
        exact h1
      · exact h1

def execAlertNHigh_parts : List Part := [.sch]

theorem execAlertNHigh_keeps (sc : Fin 16) (s0 : State) :
    KeepsOut execAlertNHigh_parts s0 (execAlertNHigh sc s0) := by
  unfold execAlertNHigh
  refine KeepsOut.next ?_
  extract_lets -lift -merge -useContext -underBinder +onlyGivenNames x0
  try clear_value x0
  extract_lets -lift -merge -useContext -underBinder +onlyGivenNames x1
  have h1 : Keeps execAlertNHigh_parts s0 x1 := by
    unfold x1
    refine Keeps.via (State.onSub_keeps _ _ _) rfl ?_
    exact Keeps.refl _ _
  extract_lets -lift -merge -useContext -underBinder +onlyGivenNames x2
  try clear_value x2
  refine Keeps.ite ?_ ?_
  · refine Keeps.via (State.setSub_keeps _ _ _) rfl ?_
    exact h1
  · refine Keeps.ite ?_ ?_
    · refine Keeps.via (State.setSub_keeps _ _ _) rfl ?_
      exact h1
    · exact h1

def execAlertReplayDone_parts : List Part := [.sch, .block 0x8]

theorem execAlertReplayDone_keeps (sc : Fin 16) (s0 : State) :
    KeepsOut execAlertReplayDone_parts s0 (execAlertReplayDone sc s0) := by
  unfold execAlertReplayDone
  refine KeepsOut.next ?_
  extract_lets -lift -merge -useContext -underBinder +onlyGivenNames x0
  try clear_value x0
  extract_lets -lift -merge -useContext -underBinder +onlyGivenNames x1
  try clear_value x1
  refine Keeps.ite ?_ ?_
  · refine Keeps.foldS _ _ ?_ (fun t2 y2 h2 => ?_)
    · refine Keeps.via (State.setSub_keeps _ _ _) rfl ?_
      exact Keeps.refl _ _
    · refine Keeps.viaBlock (b := 8) (State.bumpF_keeps _ _ _) (fam_block _ _ _ _ rfl (by decide)) rfl ?_
      exact h2
  · exact Keeps.refl _ _

def State.scramble_parts : List Part := [.free, .dram]

theorem State.scramble_keeps (s0 : State) (n : ℕ) (l : Loc) :
    Keeps State.scramble_parts s0 (State.scramble s0 n l) := by
  unfold State.scramble
  extract_lets -lift -merge -useContext -underBinder +onlyGivenNames x0
  try clear_value x0
  refine Keeps.via (State.store_keeps _ _ _ _) rfl ?_
  refine Keeps.via (Keeps.upd_free _ _) rfl ?_
  exact Keeps.refl _ _

def execAlertFailure_parts : List Part := [.free, .log, .sb, .links, .twin, .ord, .mir, .sch, .flt, .cal, .dram, .reg Reg.GLB_EVENT, .reg Reg.GLB_DIRSTAT, .reg Reg.ORD_FWD, .reg Reg.ORD_LINEHOLD, .reg Reg.ECC_SEALFAIL, .reg Reg.ECC_FIRSTFAIL, .reg Reg.LOG_RINGSTAT, .reg Reg.LOG_CAPTURED, .reg Reg.LOG_COALESCED, .reg Reg.LOG_LOST, .reg Reg.LOG_ORPHANS, .reg Reg.LOG_SQUALLS]

theorem execAlertFailure_keeps (sc : Fin 16) (s0 : State) :
    KeepsOut execAlertFailure_parts s0 (execAlertFailure sc s0) := by
  unfold execAlertFailure
  refine KeepsOut.next ?_
  extract_lets -lift -merge -useContext -underBinder +onlyGivenNames x0
  try clear_value x0
  extract_lets -lift -merge -useContext -underBinder +onlyGivenNames x1
  try clear_value x1
  refine Keeps.ite ?_ ?_
  · extract_lets -lift -merge -useContext -underBinder +onlyGivenNames x2
    try clear_value x2
    extract_lets -lift -merge -useContext -underBinder +onlyGivenNames x3
    try clear_value x3
    extract_lets -lift -merge -useContext -underBinder +onlyGivenNames x4
    have h4 : Keeps execAlertFailure_parts s0 x4 := by
      unfold x4
      refine Keeps.via (State.setSub_keeps _ _ _) rfl ?_
      exact Keeps.refl _ _
    extract_lets -lift -merge -useContext -underBinder +onlyGivenNames x5
    have h5 : Keeps execAlertFailure_parts s0 x5 := by
      unfold x5
      refine Keeps.foldS _ _ ?_ (fun t6 y6 h6 => ?_)
      · exact h4
      · refine Keeps.via (State.scramble_keeps _ _ _) rfl ?_
        exact h6
    extract_lets -lift -merge -useContext -underBinder +onlyGivenNames x7
    have h7 : Keeps execAlertFailure_parts s0 x7 := by
      unfold x7
      refine Keeps.via (State.event_keeps _ _ _) rfl ?_
      exact h5
    refine Keeps.foldS _ _ ?_ (fun t8 y8 h8 => ?_)
    · exact h7
    · refine Keeps.via (State.raiseRank_keeps _ _ _) rfl ?_
      exact h8
  · exact Keeps.refl _ _

end Sys2Proof.Machine
end

