-- ==== Sys2Proof/Laws/KeepsTraining.lean ====
section
/-!
SUPPORT. The frames of the operations of Machine/Training.lean: the parts of the state each may change, and that each keeps the canonical
form. A proof of a frame cites these and unfolds nothing.
-/

namespace Sys2Proof.Machine

def State.newRecord_parts : List Part := [.free]

theorem State.newRecord_keeps (s0 : State) (p : ℕ) :
    Keeps State.newRecord_parts s0 (State.newRecord s0 p).1 := by
  unfold State.newRecord
  extract_lets -lift -merge -useContext -underBinder +onlyGivenNames x0
  try clear_value x0
  extract_lets -lift -merge -useContext -underBinder +onlyGivenNames x1
  try clear_value x1
  extract_lets -lift -merge -useContext -underBinder +onlyGivenNames x2
  try clear_value x2
  extract_lets -lift -merge -useContext -underBinder +onlyGivenNames x3
  try clear_value x3
  extract_lets -lift -merge -useContext -underBinder +onlyGivenNames x4
  try clear_value x4
  extract_lets -lift -merge -useContext -underBinder +onlyGivenNames x5
  try clear_value x5
  extract_lets -lift -merge -useContext -underBinder +onlyGivenNames x6
  try clear_value x6
  extract_lets -lift -merge -useContext -underBinder +onlyGivenNames x7
  try clear_value x7
  dsimp -zeta only
  refine Keeps.via (Keeps.upd_free _ _) rfl ?_
  exact Keeps.refl _ _

def State.endSub_parts : List Part := [.free, .log, .sb, .links, .twin, .ord, .mir, .sch, .cal, .reg Reg.GLB_EVENT, .reg Reg.GLB_DIRSTAT, .reg Reg.ORD_FWD, .reg Reg.ORD_LINEHOLD, .block 0x6, .reg Reg.ECC_SEALFAIL, .reg Reg.ECC_FIRSTFAIL, .reg Reg.LOG_RINGSTAT, .reg Reg.LOG_CAPTURED, .reg Reg.LOG_COALESCED, .reg Reg.LOG_LOST, .reg Reg.LOG_ORPHANS, .reg Reg.LOG_SQUALLS]

theorem State.endSub_keeps (s0 : State) (n : ℕ) :
    Keeps State.endSub_parts s0 (State.endSub s0 n) := by
  unfold State.endSub
  extract_lets -lift -merge -useContext -underBinder +onlyGivenNames x0
  try clear_value x0
  extract_lets -lift -merge -useContext -underBinder +onlyGivenNames x1
  try clear_value x1
  extract_lets -lift -merge -useContext -underBinder +onlyGivenNames x2
  have h2 : Keeps State.endSub_parts s0 x2 := by
    unfold x2
    refine Keeps.viaBlock (b := 6) (State.satF_keeps _ _ _) (fam_block _ _ _ _ rfl (by decide)) rfl ?_
    refine Keeps.viaBlock (b := 6) (State.setFld_keeps _ _ _) (fam_block _ _ _ _ rfl (by decide)) rfl ?_
    exact Keeps.refl _ _
  extract_lets -lift -merge -useContext -underBinder +onlyGivenNames x3
  have h3 : Keeps State.endSub_parts s0 x3 := by
    unfold x3
    refine Keeps.via (State.worst_keeps _ _) rfl ?_
    refine Keeps.via (State.onSub_keeps _ _ _) rfl ?_
    exact h2
  refine Keeps.foldS _ _ ?_ (fun t4 y4 h4 => ?_)
  · refine Keeps.via (State.setTraining_keeps _ _ _) rfl ?_
    exact h3
  · refine Keeps.via (State.writeCal_keeps _ _) rfl ?_
    exact h4

def State.failEvent_parts : List Part := [.log, .sb, .reg Reg.GLB_EVENT, .reg Reg.GLB_DIRSTAT, .reg Reg.LOG_RINGSTAT, .reg Reg.LOG_CAPTURED, .reg Reg.LOG_COALESCED, .reg Reg.LOG_LOST, .reg Reg.LOG_ORPHANS, .reg Reg.LOG_SQUALLS]

theorem State.failEvent_keeps (s0 : State) (n : ℕ) (k : ℕ) (result : ℕ) (step : ℕ) :
    Keeps State.failEvent_parts s0 (State.failEvent s0 n k result step) := by
  unfold State.failEvent
  refine Keeps.via (State.event_keeps _ _ _) rfl ?_
  exact Keeps.refl _ _

def State.nextRank_parts : List Part := [.free, .log, .sb, .links, .twin, .ord, .mir, .sch, .cal, .reg Reg.GLB_EVENT, .reg Reg.GLB_DIRSTAT, .reg Reg.ORD_FWD, .reg Reg.ORD_LINEHOLD, .block 0x6, .reg Reg.ECC_SEALFAIL, .reg Reg.ECC_FIRSTFAIL, .reg Reg.LOG_RINGSTAT, .reg Reg.LOG_CAPTURED, .reg Reg.LOG_COALESCED, .reg Reg.LOG_LOST, .reg Reg.LOG_ORPHANS, .reg Reg.LOG_SQUALLS]

theorem State.nextRank_keeps (s0 : State) (n : ℕ) (after : List ℕ) :
    Keeps State.nextRank_parts s0 (State.nextRank s0 n after) := by
  unfold State.nextRank
  extract_lets -lift -merge -useContext -underBinder +onlyGivenNames x0
  try clear_value x0
  extract_lets -lift -merge -useContext -underBinder +onlyGivenNames x1
  try clear_value x1
  split
  · refine Keeps.via (State.endSub_keeps _ _) rfl ?_
    exact Keeps.refl _ _
  · extract_lets -lift -merge -useContext -underBinder +onlyGivenNames x2
    try clear_value x2
    extract_lets -lift -merge -useContext -underBinder +onlyGivenNames x3
    have h3 : Keeps State.nextRank_parts s0 x3 := by
      unfold x3
      refine Keeps.via (State.setFld_pathFld_keeps _ _ _ _) rfl ?_
      exact Keeps.refl _ _
    extract_lets -lift -merge -useContext -underBinder +onlyGivenNames x4
    have h4 : Keeps State.nextRank_parts s0 x4 := by
      unfold x4
      refine Keeps.ite ?_ ?_
      · refine Keeps.via (State.setFld_keeps _ _ _) rfl ?_
        exact h3
      · exact h3
    refine Keeps.ite ?_ ?_
    · refine Keeps.via (State.setTraining_keeps _ _ _) rfl ?_
      exact h4
    · extract_lets -lift -merge -useContext -underBinder +onlyGivenNames x5
      have h5 : Keeps State.nextRank_parts s0 x5.1 := by
        unfold x5
        refine Keeps.via (State.newRecord_keeps _ _) rfl ?_
        exact h4
      refine Keeps.via (State.setTraining_keeps _ _ _) rfl ?_
      exact h5

def State.rankFails_parts : List Part := [.free, .log, .sb, .links, .twin, .ord, .mir, .sch, .cal, .reg Reg.GLB_EVENT, .reg Reg.GLB_DIRSTAT, .reg Reg.ORD_FWD, .reg Reg.ORD_LINEHOLD, .block 0x6, .reg Reg.ECC_SEALFAIL, .reg Reg.ECC_FIRSTFAIL, .reg Reg.LOG_RINGSTAT, .reg Reg.LOG_CAPTURED, .reg Reg.LOG_COALESCED, .reg Reg.LOG_LOST, .reg Reg.LOG_ORPHANS, .reg Reg.LOG_SQUALLS]

theorem State.rankFails_keeps (s0 : State) (n : ℕ) (k : ℕ) (result : ℕ) (step : ℕ) :
    Keeps State.rankFails_parts s0 (State.rankFails s0 n k result step) := by
  unfold State.rankFails
  extract_lets -lift -merge -useContext -underBinder +onlyGivenNames x0
  have h0 : Keeps State.rankFails_parts s0 x0 := by
    unfold x0
    refine Keeps.via (State.setFld_resultFld_keeps _ _ _ _) rfl ?_
    exact Keeps.refl _ _
  extract_lets -lift -merge -useContext -underBinder +onlyGivenNames x1
  try clear_value x1
  refine Keeps.ite ?_ ?_
  · refine Keeps.via (State.setTraining_keeps _ _ _) rfl ?_
    refine Keeps.via (State.failEvent_keeps _ _ _ _ _) rfl ?_
    exact h0
  · refine Keeps.via (State.nextRank_keeps _ _ _) rfl ?_
    refine Keeps.via (State.failEvent_keeps _ _ _ _ _) rfl ?_
    exact h0

def State.stepFails_parts : List Part := [.free, .log, .sb, .links, .twin, .ord, .mir, .sch, .cal, .reg Reg.GLB_EVENT, .reg Reg.GLB_DIRSTAT, .reg Reg.ORD_FWD, .reg Reg.ORD_LINEHOLD, .block 0x6, .reg Reg.ECC_SEALFAIL, .reg Reg.ECC_FIRSTFAIL, .reg Reg.LOG_RINGSTAT, .reg Reg.LOG_CAPTURED, .reg Reg.LOG_COALESCED, .reg Reg.LOG_LOST, .reg Reg.LOG_ORPHANS, .reg Reg.LOG_SQUALLS]

theorem State.stepFails_keeps (s0 : State) (n : ℕ) :
    Keeps State.stepFails_parts s0 (State.stepFails s0 n) := by
  unfold State.stepFails
  extract_lets -lift -merge -useContext -underBinder +onlyGivenNames x0
  try clear_value x0
  refine Keeps.ite ?_ ?_
  · refine Keeps.via (State.setTraining_keeps _ _ _) rfl ?_
    exact Keeps.refl _ _
  · refine Keeps.via (State.rankFails_keeps _ _ _ _ _) rfl ?_
    exact Keeps.refl _ _

def State.stepPasses_parts : List Part := [.cal]

theorem State.stepPasses_keeps (s0 : State) (n : ℕ) (r : List Byte) :
    Keeps State.stepPasses_parts s0 (State.stepPasses s0 n r) := by
  unfold State.stepPasses
  extract_lets -lift -merge -useContext -underBinder +onlyGivenNames x0
  try clear_value x0
  refine Keeps.via (State.setTraining_keeps _ _ _) rfl ?_
  exact Keeps.refl _ _

def State.rankDone_parts : List Part := [.free, .log, .sb, .links, .twin, .ord, .mir, .sch, .flt, .cal, .reg Reg.GLB_EVENT, .reg Reg.GLB_DIRSTAT, .reg Reg.ORD_FWD, .reg Reg.ORD_LINEHOLD, .block 0x6, .reg Reg.ECC_SEALFAIL, .reg Reg.ECC_FIRSTFAIL, .reg Reg.LOG_RINGSTAT, .reg Reg.LOG_CAPTURED, .reg Reg.LOG_COALESCED, .reg Reg.LOG_LOST, .reg Reg.LOG_ORPHANS, .reg Reg.LOG_SQUALLS]

theorem State.rankDone_keeps (s0 : State) (n : ℕ) (k : ℕ) (r : List Byte) :
    Keeps State.rankDone_parts s0 (State.rankDone s0 n k r) := by
  unfold State.rankDone
  extract_lets -lift -merge -useContext -underBinder +onlyGivenNames x0
  try clear_value x0
  extract_lets -lift -merge -useContext -underBinder +onlyGivenNames x1 x2
  have h2 : Keeps State.rankDone_parts s0 x2 := by
    unfold x2
    refine Keeps.via (Keeps.upd_cal _ _) rfl ?_
    exact Keeps.refl _ _
  extract_lets -lift -merge -useContext -underBinder +onlyGivenNames x3
  try clear_value x3
  extract_lets -lift -merge -useContext -underBinder +onlyGivenNames x4
  have h4 : Keeps State.rankDone_parts s0 x4 := by
    unfold x4
    refine Keeps.via (State.setFld_resultFld_keeps _ _ _ _) rfl ?_
    exact h2
  refine Keeps.ite ?_ ?_
  · refine Keeps.via (State.setTraining_keeps _ _ _) rfl ?_
    exact h4
  · extract_lets -lift -merge -useContext -underBinder +onlyGivenNames x5
    have h5 : Keeps State.rankDone_parts s0 x5 := by
      unfold x5
      refine Keeps.via (State.onRank_keeps _ _ _) rfl ?_
      exact h4
    refine Keeps.via (State.nextRank_keeps _ _ _) rfl ?_
    refine Keeps.via (State.event_keeps _ _ _) rfl ?_
    exact h5

def State.rankTrained_parts : List Part := [.free, .log, .sb, .links, .twin, .ord, .mir, .sch, .flt, .cal, .reg Reg.GLB_EVENT, .reg Reg.GLB_DIRSTAT, .reg Reg.ORD_FWD, .reg Reg.ORD_LINEHOLD, .block 0x6, .block 0x7, .reg Reg.ECC_SEALFAIL, .reg Reg.ECC_FIRSTFAIL, .reg Reg.LOG_RINGSTAT, .reg Reg.LOG_CAPTURED, .reg Reg.LOG_COALESCED, .reg Reg.LOG_LOST, .reg Reg.LOG_ORPHANS, .reg Reg.LOG_SQUALLS]

theorem State.rankTrained_keeps (s0 : State) (n : ℕ) (k : ℕ) (r : List Byte) :
    Keeps State.rankTrained_parts s0 (State.rankTrained s0 n k r) := by
  unfold State.rankTrained
  extract_lets -lift -merge -useContext -underBinder +onlyGivenNames x0
  try clear_value x0
  extract_lets -lift -merge -useContext -underBinder +onlyGivenNames x1
  try clear_value x1
  extract_lets -lift -merge -useContext -underBinder +onlyGivenNames x2
  try clear_value x2
  extract_lets -lift -merge -useContext -underBinder +onlyGivenNames x3
  have h3 : Keeps State.rankTrained_parts s0 x3 := by
    unfold x3
    refine Keeps.viaBlock (b := 7) (State.setFld_keeps _ _ _) (fam_block _ _ _ _ rfl (by decide)) rfl ?_
    refine Keeps.via (State.share_keeps _ _) rfl ?_
    refine Keeps.via (State.setLive_keeps _ _ _) rfl ?_
    exact Keeps.refl _ _
  extract_lets -lift -merge -useContext -underBinder +onlyGivenNames x4 x5
  have h5 : Keeps State.rankTrained_parts s0 x5 := by
    unfold x5
    refine Keeps.via (Keeps.upd_cal _ _) rfl ?_
    exact h3
  refine Keeps.via (State.rankDone_keeps _ _ _ _) rfl ?_
  exact h5

def State.checkGeometry_parts : List Part := [.log, .sb, .reg Reg.GLB_EVENT, .reg Reg.GLB_DIRSTAT, .block 0x6, .reg Reg.LOG_RINGSTAT, .reg Reg.LOG_CAPTURED, .reg Reg.LOG_COALESCED, .reg Reg.LOG_LOST, .reg Reg.LOG_ORPHANS, .reg Reg.LOG_SQUALLS]

theorem State.checkGeometry_keeps (s0 : State) (n : ℕ) (k : ℕ) (pk : List (Option Device)) :
    Keeps State.checkGeometry_parts s0 (State.checkGeometry s0 n k pk) := by
  unfold State.checkGeometry
  extract_lets -lift -merge -useContext -underBinder +onlyGivenNames x0
  try clear_value x0
  extract_lets -lift -merge -useContext -underBinder +onlyGivenNames x1
  have h1 : Keeps State.checkGeometry_parts s0 x1 := by
    unfold x1
    refine Keeps.via (State.setFld_stepFld_keeps _ _ _ _) rfl ?_
    refine Keeps.via (State.setFld_badFld_keeps _ _ _ _) rfl ?_
    exact Keeps.refl _ _
  extract_lets -lift -merge -useContext -underBinder +onlyGivenNames x2
  have h2 : Keeps State.checkGeometry_parts s0 x2 := by
    unfold x2
    refine Keeps.ite ?_ ?_
    · split
      · refine Keeps.viaBlock (b := 6) (State.setFld_keeps _ _ _) (fam_block _ _ _ _ rfl (by decide)) rfl ?_
        refine Keeps.viaBlock (b := 6) (State.setFld_keeps _ _ _) (fam_block _ _ _ _ rfl (by decide)) rfl ?_
        exact h1
      · refine Keeps.viaBlock (b := 6) (State.setFld_keeps _ _ _) (fam_block _ _ _ _ rfl (by decide)) rfl ?_
        refine Keeps.viaBlock (b := 6) (State.setFld_keeps _ _ _) (fam_block _ _ _ _ rfl (by decide)) rfl ?_
        exact h1
    · exact h1
  refine Keeps.ite ?_ ?_
  · exact h2
  · extract_lets -lift -merge -useContext -underBinder +onlyGivenNames x3
    try clear_value x3
    extract_lets -lift -merge -useContext -underBinder +onlyGivenNames x4
    try clear_value x4
    refine Keeps.via (State.failEvent_keeps _ _ _ _ _) rfl ?_
    refine Keeps.via (State.setFld_resultFld_keeps _ _ _ _) rfl ?_
    exact h2

def State.putOffsets_parts : List Part := [.free]

theorem State.putOffsets_keeps (s0 : State) (r : List Byte) (off : ℕ) (dc : ℕ → ℕ) (l : List (List (BitVec 7 × BitVec 7))) :
    Keeps State.putOffsets_parts s0 (State.putOffsets s0 r off dc l).1 := by
  unfold State.putOffsets
  extract_lets -lift -merge -useContext -underBinder +onlyGivenNames x0
  try clear_value x0
  dsimp -zeta only
  refine Keeps.via (Keeps.upd_free _ _) rfl ?_
  exact Keeps.refl _ _

def State.rankStep_parts : List Part := [.free, .log, .sb, .links, .twin, .ord, .mir, .sch, .flt, .cal, .reg Reg.GLB_EVENT, .reg Reg.GLB_DIRSTAT, .reg Reg.ORD_FWD, .reg Reg.ORD_LINEHOLD, .block 0x6, .block 0x7, .reg Reg.ECC_SEALFAIL, .reg Reg.ECC_FIRSTFAIL, .reg Reg.LOG_RINGSTAT, .reg Reg.LOG_CAPTURED, .reg Reg.LOG_COALESCED, .reg Reg.LOG_LOST, .reg Reg.LOG_ORPHANS, .reg Reg.LOG_SQUALLS]

theorem State.rankStep_keeps (s0 : State) (n : ℕ) (found : TrainFind) :
    Keeps State.rankStep_parts s0 (State.rankStep s0 n found) := by
  unfold State.rankStep
  extract_lets -lift -merge -useContext -underBinder +onlyGivenNames x0
  try clear_value x0
  extract_lets -lift -merge -useContext -underBinder +onlyGivenNames x1
  have h1 : Keeps State.rankStep_parts s0 x1 := by
    unfold x1
    refine Keeps.ite ?_ ?_
    · refine Keeps.via (State.setFld_stepFld_keeps _ _ _ _) rfl ?_
      exact Keeps.refl _ _
    · exact Keeps.refl _ _
  split
  · refine Keeps.via (State.stepPasses_keeps _ _ _) rfl ?_
    exact h1
  · refine Keeps.via (State.stepFails_keeps _ _) rfl ?_
    exact h1
  · refine Keeps.via (State.stepPasses_keeps _ _ _) rfl ?_
    exact h1
  · refine Keeps.via (State.stepFails_keeps _ _) rfl ?_
    exact h1
  · extract_lets -lift -merge -useContext -underBinder +onlyGivenNames x2
    try clear_value x2
    refine Keeps.ite ?_ ?_
    · refine Keeps.via (State.stepFails_keeps _ _) rfl ?_
      exact h1
    · split
      · refine Keeps.via (State.stepPasses_keeps _ _ _) rfl ?_
        exact h1
      · refine Keeps.via (State.stepFails_keeps _ _) rfl ?_
        exact h1
  · refine Keeps.via (State.stepFails_keeps _ _) rfl ?_
    exact h1
  · split
    · refine Keeps.via (State.stepPasses_keeps _ _ _) rfl ?_
      exact h1
    · refine Keeps.via (State.stepFails_keeps _ _) rfl ?_
      exact h1
  · refine Keeps.via (State.stepFails_keeps _ _) rfl ?_
    exact h1
  · refine Keeps.ite ?_ ?_
    · refine Keeps.via (State.stepFails_keeps _ _) rfl ?_
      exact h1
    · refine Keeps.ite ?_ ?_
      · refine Keeps.via (State.rankFails_keeps _ _ _ _ _) rfl ?_
        exact h1
      · extract_lets -lift -merge -useContext -underBinder +onlyGivenNames x3
        have h3 : Keeps State.rankStep_parts s0 x3.1 := by
          unfold x3
          refine Keeps.via (State.putOffsets_keeps _ _ _ _ _) rfl ?_
          exact h1
        extract_lets -lift -merge -useContext -underBinder +onlyGivenNames x4
        have h4 : Keeps State.rankStep_parts s0 x4.1 := by
          unfold x4
          refine Keeps.via (State.putOffsets_keeps _ _ _ _ _) rfl ?_
          exact h3
        refine Keeps.via (State.rankTrained_keeps _ _ _ _) rfl ?_
        exact h4
  · refine Keeps.ite ?_ ?_
    · refine Keeps.via (State.rankDone_keeps _ _ _ _) rfl ?_
      exact h1
    · extract_lets -lift -merge -useContext -underBinder +onlyGivenNames x5
      have h5 : Keeps State.rankStep_parts s0 x5 := by
        unfold x5
        refine Keeps.via (State.event_keeps _ _ _) rfl ?_
        refine Keeps.via (State.setFld_pathFld_keeps _ _ _ _) rfl ?_
        exact h1
      extract_lets -lift -merge -useContext -underBinder +onlyGivenNames x6
      have h6 : Keeps State.rankStep_parts s0 x6.1 := by
        unfold x6
        refine Keeps.via (State.newRecord_keeps _ _) rfl ?_
        exact h5
      refine Keeps.via (State.setTraining_keeps _ _ _) rfl ?_
      exact h6
  · exact h1

def State.releaseReset_parts : List Part := [.sch]

theorem State.releaseReset_keeps (s0 : State) (n : ℕ) :
    Keeps State.releaseReset_parts s0 (State.releaseReset s0 n) := by
  unfold State.releaseReset
  extract_lets -lift -merge -useContext -underBinder +onlyGivenNames x0
  try clear_value x0
  refine Keeps.ite ?_ ?_
  · exact Keeps.refl _ _
  · refine Keeps.via (State.onSub_keeps _ _ _) rfl ?_
    exact Keeps.refl _ _

def State.calibrateZq_parts : List Part := [.sch]

theorem State.calibrateZq_keeps (s0 : State) (n : ℕ) (ranks : List ℕ) :
    Keeps State.calibrateZq_parts s0 (State.calibrateZq s0 n ranks) := by
  unfold State.calibrateZq
  refine Keeps.foldS _ _ ?_ (fun t0 y0 h0 => ?_)
  · exact Keeps.refl _ _
  · extract_lets -lift -merge -useContext -underBinder +onlyGivenNames x1
    try clear_value x1
    refine Keeps.via (State.issue_keeps _ _ _ _ _ _) rfl ?_
    refine Keeps.via (State.issue_keeps _ _ _ _ _ _) rfl ?_
    exact h0

def State.writeSettings_parts : List Part := [.sch]

theorem State.writeSettings_keeps (s0 : State) (n : ℕ) (t : ℕ) :
    Keeps State.writeSettings_parts s0 (State.writeSettings s0 n t) := by
  unfold State.writeSettings
  refine Keeps.via (State.onSub_keeps _ _ _) rfl ?_
  exact Keeps.refl _ _

def State.subFails_parts : List Part := [.free, .log, .sb, .links, .twin, .ord, .mir, .sch, .cal, .reg Reg.GLB_EVENT, .reg Reg.GLB_DIRSTAT, .reg Reg.ORD_FWD, .reg Reg.ORD_LINEHOLD, .block 0x6, .reg Reg.ECC_SEALFAIL, .reg Reg.ECC_FIRSTFAIL, .reg Reg.LOG_RINGSTAT, .reg Reg.LOG_CAPTURED, .reg Reg.LOG_COALESCED, .reg Reg.LOG_LOST, .reg Reg.LOG_ORPHANS, .reg Reg.LOG_SQUALLS]

theorem State.subFails_keeps (s0 : State) (n : ℕ) (step : ℕ) :
    Keeps State.subFails_parts s0 (State.subFails s0 n step) := by
  unfold State.subFails
  extract_lets -lift -merge -useContext -underBinder +onlyGivenNames x0
  have h0 : Keeps State.subFails_parts s0 x0 := by
    unfold x0
    refine Keeps.foldS _ _ ?_ (fun t1 y1 h1 => ?_)
    · exact Keeps.refl _ _
    · refine Keeps.via (State.failEvent_keeps _ _ _ _ _) rfl ?_
      refine Keeps.via (State.setFld_resultFld_keeps _ _ _ _) rfl ?_
      exact h1
  refine Keeps.via (State.endSub_keeps _ _) rfl ?_
  exact h0

def State.stepAll_parts : List Part := [.block 0x6]

theorem State.stepAll_keeps (s0 : State) (n : ℕ) (step : ℕ) :
    Keeps State.stepAll_parts s0 (State.stepAll s0 n step) := by
  unfold State.stepAll
  refine Keeps.foldS _ _ ?_ (fun t0 y0 h0 => ?_)
  · exact Keeps.refl _ _
  · refine Keeps.via (State.setFld_stepFld_keeps _ _ _ _) rfl ?_
    exact h0

def execTrainStepDone_parts : List Part := [.free, .log, .sb, .links, .twin, .ord, .mir, .sch, .flt, .cal, .reg Reg.GLB_EVENT, .reg Reg.GLB_DIRSTAT, .reg Reg.ORD_FWD, .reg Reg.ORD_LINEHOLD, .block 0x6, .block 0x7, .reg Reg.ECC_SEALFAIL, .reg Reg.ECC_FIRSTFAIL, .reg Reg.LOG_RINGSTAT, .reg Reg.LOG_CAPTURED, .reg Reg.LOG_COALESCED, .reg Reg.LOG_LOST, .reg Reg.LOG_ORPHANS, .reg Reg.LOG_SQUALLS]

theorem execTrainStepDone_keeps (sc : Fin 16) (rank : Fin 2) (found : TrainFind) (s0 : State) :
    KeepsOut execTrainStepDone_parts s0 (execTrainStepDone sc rank found s0) := by
  unfold execTrainStepDone
  refine KeepsOut.next ?_
  extract_lets -lift -merge -useContext -underBinder +onlyGivenNames x0
  try clear_value x0
  extract_lets -lift -merge -useContext -underBinder +onlyGivenNames x1
  try clear_value x1
  refine Keeps.ite ?_ ?_
  · exact Keeps.refl _ _
  · split
    · exact Keeps.refl _ _
    · extract_lets -lift -merge -useContext -underBinder +onlyGivenNames x2
      have h2 : Keeps execTrainStepDone_parts s0 x2 := by
        unfold x2
        refine Keeps.via (State.stepAll_keeps _ _ _) rfl ?_
        exact Keeps.refl _ _
      refine Keeps.ite ?_ ?_
      · refine Keeps.via (State.releaseReset_keeps _ _) rfl ?_
        refine Keeps.via (State.setTraining_keeps _ _ _) rfl ?_
        exact h2
      · refine Keeps.ite ?_ ?_
        · refine Keeps.via (State.setTraining_keeps _ _ _) rfl ?_
          exact h2
        · refine Keeps.via (State.releaseReset_keeps _ _) rfl ?_
          refine Keeps.via (State.subFails_keeps _ _ _) rfl ?_
          exact h2
    · refine Keeps.via (State.setTraining_keeps _ _ _) rfl ?_
      refine Keeps.via (State.writeSettings_keeps _ _ _) rfl ?_
      refine Keeps.via (State.stepAll_keeps _ _ _) rfl ?_
      exact Keeps.refl _ _
    · refine Keeps.ite ?_ ?_
      · extract_lets -lift -merge -useContext -underBinder +onlyGivenNames x3
        have h3 : Keeps execTrainStepDone_parts s0 x3 := by
          unfold x3
          refine Keeps.via (State.checkGeometry_keeps _ _ _ _) rfl ?_
          exact Keeps.refl _ _
        refine Keeps.ite ?_ ?_
        · refine Keeps.via (State.setTraining_keeps _ _ _) rfl ?_
          exact h3
        · refine Keeps.ite ?_ ?_
          · refine Keeps.via (State.setTraining_keeps _ _ _) rfl ?_
            exact h3
          · refine Keeps.via (State.endSub_keeps _ _) rfl ?_
            exact h3
      · exact Keeps.refl _ _
    · extract_lets -lift -merge -useContext -underBinder +onlyGivenNames x4
      try clear_value x4
      refine Keeps.via (State.nextRank_keeps _ _ _) rfl ?_
      refine Keeps.via (State.calibrateZq_keeps _ _ _) rfl ?_
      refine Keeps.foldS _ _ ?_ (fun t5 y5 h5 => ?_)
      · exact Keeps.refl _ _
      · refine Keeps.via (State.setFld_stepFld_keeps _ _ _ _) rfl ?_
        exact h5
    · refine Keeps.ite ?_ ?_
      · refine Keeps.via (State.rankStep_keeps _ _ _) rfl ?_
        exact Keeps.refl _ _
      · exact Keeps.refl _ _

def State.beginRuns_parts : List Part := [.sch, .cal, .block 0x6]

theorem State.beginRuns_keeps (s0 : State) (step : ℕ) (rst : Bool) (store : Bool) :
    Keeps State.beginRuns_parts s0 (State.beginRuns s0 step rst store) := by
  unfold State.beginRuns
  refine Keeps.foldS _ _ ?_ (fun t0 y0 h0 => ?_)
  · exact Keeps.refl _ _
  · extract_lets -lift -merge -useContext -underBinder +onlyGivenNames x1
    have h1 : Keeps State.beginRuns_parts s0 x1 := by
      unfold x1
      refine Keeps.viaBlock (b := 6) (State.setReg_keeps _ _ _) (fam_block _ _ _ _ rfl (by decide)) rfl ?_
      exact h0
    extract_lets -lift -merge -useContext -underBinder +onlyGivenNames x2
    try clear_value x2
    extract_lets -lift -merge -useContext -underBinder +onlyGivenNames x3
    have h3 : Keeps State.beginRuns_parts s0 x3 := by
      unfold x3
      refine Keeps.via (State.onSub_keeps _ _ _) rfl ?_
      exact h1
    extract_lets -lift -merge -useContext -underBinder +onlyGivenNames x4
    try clear_value x4
    extract_lets -lift -merge -useContext -underBinder +onlyGivenNames x5
    have h5 : Keeps State.beginRuns_parts s0 x5 := by
      unfold x5
      refine Keeps.foldS _ _ ?_ (fun t6 y6 h6 => ?_)
      · exact h3
      · refine Keeps.via (State.setFld_resultFld_keeps _ _ _ _) rfl ?_
        exact h6
    refine Keeps.ite ?_ ?_
    · extract_lets -lift -merge -useContext -underBinder +onlyGivenNames x7
      have h7 : Keeps State.beginRuns_parts s0 x7 := by
        unfold x7
        refine Keeps.viaBlock (b := 6) (State.setFld_keeps _ _ _) (fam_block _ _ _ _ rfl (by decide)) rfl ?_
        exact h5
      extract_lets -lift -merge -useContext -underBinder +onlyGivenNames x8
      have h8 : Keeps State.beginRuns_parts s0 x8 := by
        unfold x8
        refine Keeps.via (State.onSub_keeps _ _ _) rfl ?_
        exact h7
      refine Keeps.via (State.setTraining_keeps _ _ _) rfl ?_
      exact h8
    · exact h5

def State.startCk_parts : List Part := [.sch]

theorem State.startCk_keeps (s0 : State) (n : ℕ) (bin : ℕ) :
    Keeps State.startCk_parts s0 (State.startCk s0 n bin) := by
  unfold State.startCk
  refine Keeps.via (State.onSub_keeps _ _ _) rfl ?_
  exact Keeps.refl _ _

def State.startTraining_parts : List Part := [.sch, .flt, .cal, .fmt, .dram, .block 0x6]

theorem State.startTraining_keeps (s0 : State) :
    Keeps State.startTraining_parts s0 (State.startTraining s0) := by
  unfold State.startTraining
  extract_lets -lift -merge -useContext -underBinder +onlyGivenNames x0
  have h0 : Keeps State.startTraining_parts s0 x0 := by
    unfold x0
    refine Keeps.via (Keeps.clear_dram _ _) rfl ?_
    exact Keeps.refl _ _
  extract_lets -lift -merge -useContext -underBinder +onlyGivenNames x1
  have h1 : Keeps State.startTraining_parts s0 x1 := by
    unfold x1
    refine Keeps.via (State.setReg_keeps _ _ _) rfl ?_
    refine Keeps.via (Keeps.upd_flt _ _) rfl ?_
    exact h0
  extract_lets -lift -merge -useContext -underBinder +onlyGivenNames x2
  have h2 : Keeps State.startTraining_parts s0 x2 := by
    unfold x2
    refine Keeps.foldS _ _ ?_ (fun t3 y3 h3 => ?_)
    · exact h1
    · refine Keeps.viaBlock (b := 6) (State.setReg_keeps _ _ _) (fam_block _ _ _ _ rfl (by decide)) rfl ?_
      refine Keeps.via (State.setSub_keeps _ _ _) rfl ?_
      exact h3
  extract_lets -lift -merge -useContext -underBinder +onlyGivenNames x4
  have h4 : Keeps State.startTraining_parts s0 x4 := by
    unfold x4
    refine Keeps.via (State.beginRuns_keeps _ _ _ _) rfl ?_
    exact h2
  refine Keeps.foldS _ _ ?_ (fun t5 y5 h5 => ?_)
  · exact h4
  · refine Keeps.via (State.startCk_keeps _ _ _) rfl ?_
    exact h5

def State.wakeRestored_parts : List Part := [.sch]

theorem State.wakeRestored_keeps (s0 : State) (n : ℕ) :
    Keeps State.wakeRestored_parts s0 (State.wakeRestored s0 n) := by
  unfold State.wakeRestored
  extract_lets -lift -merge -useContext -underBinder +onlyGivenNames x0
  try clear_value x0
  extract_lets -lift -merge -useContext -underBinder +onlyGivenNames x1
  try clear_value x1
  extract_lets -lift -merge -useContext -underBinder +onlyGivenNames x2
  try clear_value x2
  extract_lets -lift -merge -useContext -underBinder +onlyGivenNames x3
  have h3 : Keeps State.wakeRestored_parts s0 x3 := by
    unfold x3
    refine Keeps.foldS _ _ ?_ (fun t4 y4 h4 => ?_)
    · exact Keeps.refl _ _
    · refine Keeps.via (State.issue_keeps _ _ _ _ _ _) rfl ?_
      exact h4
  extract_lets -lift -merge -useContext -underBinder +onlyGivenNames x5
  have h5 : Keeps State.wakeRestored_parts s0 x5 := by
    unfold x5
    refine Keeps.via (State.onSub_keeps _ _ _) rfl ?_
    exact h3
  refine Keeps.via (State.calibrateZq_keeps _ _ _) rfl ?_
  refine Keeps.ite ?_ ?_
  · exact h5
  · refine Keeps.via (State.writeSettings_keeps _ _ _) rfl ?_
    exact h5

def State.startRestoring_parts : List Part := [.log, .sb, .sch, .flt, .cal, .reg Reg.GLB_EVENT, .reg Reg.GLB_DIRSTAT, .block 0x6, .block 0x7, .reg Reg.LOG_RINGSTAT, .reg Reg.LOG_CAPTURED, .reg Reg.LOG_COALESCED, .reg Reg.LOG_LOST, .reg Reg.LOG_ORPHANS, .reg Reg.LOG_SQUALLS]

theorem State.startRestoring_keeps (s0 : State) :
    Keeps State.startRestoring_parts s0 (State.startRestoring s0) := by
  unfold State.startRestoring
  extract_lets -lift -merge -useContext -underBinder +onlyGivenNames x0
  try clear_value x0
  extract_lets -lift -merge -useContext -underBinder +onlyGivenNames x1
  have h1 : Keeps State.startRestoring_parts s0 x1 := by
    unfold x1
    refine Keeps.via (State.setReg_keeps _ _ _) rfl ?_
    exact Keeps.refl _ _
  extract_lets -lift -merge -useContext -underBinder +onlyGivenNames x2
  have h2 : Keeps State.startRestoring_parts s0 x2 := by
    unfold x2
    refine Keeps.ite ?_ ?_
    · exact h1
    · refine Keeps.via (State.event_keeps _ _ _) rfl ?_
      exact h1
  extract_lets -lift -merge -useContext -underBinder +onlyGivenNames x3
  have h3 : Keeps State.startRestoring_parts s0 x3 := by
    unfold x3
    refine Keeps.foldS _ _ ?_ (fun t4 y4 h4 => ?_)
    · exact h2
    · refine Keeps.via (State.onRank_keeps _ _ _) rfl ?_
      exact h4
  extract_lets -lift -merge -useContext -underBinder +onlyGivenNames x5
  have h5 : Keeps State.startRestoring_parts s0 x5 := by
    unfold x5
    refine Keeps.foldS _ _ ?_ (fun t6 y6 h6 => ?_)
    · exact h3
    · refine Keeps.viaBlock (b := 7) (State.setFld_keeps _ _ _) (fam_block _ _ _ _ rfl (by decide)) rfl ?_
      exact h6
  extract_lets -lift -merge -useContext -underBinder +onlyGivenNames x7
  have h7 : Keeps State.startRestoring_parts s0 x7 := by
    unfold x7
    refine Keeps.via (State.beginRuns_keeps _ _ _ _) rfl ?_
    exact h5
  refine Keeps.foldS _ _ ?_ (fun t8 y8 h8 => ?_)
  · exact h7
  · refine Keeps.via (State.startCk_keeps _ _ _) rfl ?_
    exact h8

def State.keepStore_parts : List Part := [.cal]

theorem State.keepStore_keeps (s0 : State) :
    Keeps State.keepStore_parts s0 (State.keepStore s0) := by
  unfold State.keepStore
  refine Keeps.via (Keeps.upd_cal _ _) rfl ?_
  exact Keeps.refl _ _

def State.retireFailed_parts : List Part := [.log, .sb, .links, .twin, .ord, .mir, .sch, .flt, .cal, .reg Reg.GLB_EVENT, .reg Reg.GLB_DIRSTAT, .reg Reg.ORD_FWD, .reg Reg.ORD_LINEHOLD, .reg Reg.ECC_SEALFAIL, .reg Reg.ECC_FIRSTFAIL, .reg Reg.LOG_RINGSTAT, .reg Reg.LOG_CAPTURED, .reg Reg.LOG_COALESCED, .reg Reg.LOG_LOST, .reg Reg.LOG_ORPHANS, .reg Reg.LOG_SQUALLS]

theorem State.retireFailed_keeps (s0 : State) (spare : Bool) :
    Keeps State.retireFailed_parts s0 (State.retireFailed s0 spare) := by
  unfold State.retireFailed
  refine Keeps.foldS _ _ ?_ (fun t0 y0 h0 => ?_)
  · exact Keeps.refl _ _
  · extract_lets -lift -merge -useContext -underBinder +onlyGivenNames x1
    try clear_value x1
    refine Keeps.ite ?_ ?_
    · exact h0
    · refine Keeps.ite ?_ ?_
      · refine Keeps.via (State.holdCs_keeps _ _ _) rfl ?_
        exact h0
      · refine Keeps.ite ?_ ?_
        · refine Keeps.via (State.setRetired_keeps _ _ _ _) rfl ?_
          refine Keeps.via (Keeps.upd_flt _ _) rfl ?_
          exact h0
        · split
          · refine Keeps.via (State.actSelf_keeps _ _) rfl ?_
            refine Keeps.via (State.setRetired_keeps _ _ _ _) rfl ?_
            refine Keeps.via (State.abortSpare_keeps _ _) rfl ?_
            exact h0
          · refine Keeps.via (State.setRetired_keeps _ _ _ _) rfl ?_
            exact h0

def State.startReadmit_parts : List Part := [.free, .sch, .flt, .cal, .block 0x6]

theorem State.startReadmit_keeps (s0 : State) (p : ℕ) :
    Keeps State.startReadmit_parts s0 (State.startReadmit s0 p) := by
  unfold State.startReadmit
  extract_lets -lift -merge -useContext -underBinder +onlyGivenNames x0
  try clear_value x0
  extract_lets -lift -merge -useContext -underBinder +onlyGivenNames x1
  have h1 : Keeps State.startReadmit_parts s0 x1 := by
    unfold x1
    refine Keeps.viaBlock (b := 6) (State.setFld_keeps _ _ _) (fam_block _ _ _ _ rfl (by decide)) rfl ?_
    refine Keeps.via (State.onSub_keeps _ _ _) rfl ?_
    refine Keeps.via (State.freeCs_keeps _ _ _) rfl ?_
    exact Keeps.refl _ _
  extract_lets -lift -merge -useContext -underBinder +onlyGivenNames x2
  have h2 : Keeps State.startReadmit_parts s0 x2 := by
    unfold x2
    refine Keeps.via (State.setFld_pathFld_keeps _ _ _ _) rfl ?_
    refine Keeps.via (State.setFld_resultFld_keeps _ _ _ _) rfl ?_
    exact h1
  extract_lets -lift -merge -useContext -underBinder +onlyGivenNames x3
  have h3 : Keeps State.startReadmit_parts s0 x3.1 := by
    unfold x3
    refine Keeps.via (State.newRecord_keeps _ _) rfl ?_
    exact h2
  extract_lets -lift -merge -useContext -underBinder +onlyGivenNames x4 x5 x6
  have h4 : Keeps State.startReadmit_parts s0 x4 := by
    unfold x4
    exact h3
  have h6 : Keeps State.startReadmit_parts s0 x6 := by
    unfold x6
    refine Keeps.via (Keeps.upd_flt _ _) rfl ?_
    exact h4
  refine Keeps.via (State.setTraining_keeps _ _ _) rfl ?_
  exact h6

def execReadmitTrainingDone_parts : List Part := [.free, .log, .sb, .links, .twin, .ord, .map, .mir, .sch, .flt, .cal, .reg Reg.GLB_EVENT, .reg Reg.GLB_DIRSTAT, .reg Reg.ORD_FWD, .reg Reg.ORD_LINEHOLD, .block 0x6, .reg Reg.ECC_SEALFAIL, .reg Reg.ECC_FIRSTFAIL, .reg Reg.LOG_RINGSTAT, .reg Reg.LOG_CAPTURED, .reg Reg.LOG_COALESCED, .reg Reg.LOG_LOST, .reg Reg.LOG_ORPHANS, .reg Reg.LOG_SQUALLS]

theorem execReadmitTrainingDone_keeps (s0 : State) :
    KeepsOut execReadmitTrainingDone_parts s0 (execReadmitTrainingDone s0) := by
  unfold execReadmitTrainingDone
  refine KeepsOut.next ?_
  split
  · exact Keeps.refl _ _
  · extract_lets -lift -merge -useContext -underBinder +onlyGivenNames x0
    try clear_value x0
    extract_lets -lift -merge -useContext -underBinder +onlyGivenNames x1
    try clear_value x1
    refine Keeps.ite ?_ ?_
    · refine Keeps.via (State.endSub_keeps _ _) rfl ?_
      refine Keeps.via (State.holdCs_keeps _ _ _) rfl ?_
      refine Keeps.via (Keeps.upd_flt _ _) rfl ?_
      exact Keeps.refl _ _
    · refine Keeps.ite ?_ ?_
      · extract_lets -lift -merge -useContext -underBinder +onlyGivenNames x2
        have h2 : Keeps execReadmitTrainingDone_parts s0 x2 := by
          unfold x2
          refine Keeps.via (State.onRank_keeps _ _ _) rfl ?_
          exact Keeps.refl _ _
        extract_lets -lift -merge -useContext -underBinder +onlyGivenNames x3
        have h3 : Keeps execReadmitTrainingDone_parts s0 x3 := by
          unfold x3
          refine Keeps.via (State.onSub_keeps _ _ _) rfl ?_
          exact h2
        extract_lets -lift -merge -useContext -underBinder +onlyGivenNames x4 x5
        have h5 : Keeps execReadmitTrainingDone_parts s0 x5 := by
          unfold x5
          refine Keeps.via (State.endSub_keeps _ _) rfl ?_
          refine Keeps.via (Keeps.upd_flt _ _) rfl ?_
          exact h3
        extract_lets -lift -merge -useContext -underBinder +onlyGivenNames x6
        have h6 : Keeps execReadmitTrainingDone_parts s0 x6 := by
          unfold x6
          refine Keeps.ite ?_ ?_
          · exact h5
          · refine Keeps.foldS _ _ ?_ (fun t7 y7 h7 => ?_)
            · exact h5
            · extract_lets -lift -merge -useContext -underBinder +onlyGivenNames x8
              try clear_value x8
              refine Keeps.ite ?_ ?_
              · refine Keeps.via (State.setRt_keeps _ _ _) rfl ?_
                exact h7
              · exact h7
        refine Keeps.via (State.event_keeps _ _ _) rfl ?_
        refine Keeps.via (State.writeFault_keeps _) rfl ?_
        exact h6
      · exact Keeps.refl _ _

end Sys2Proof.Machine
end

