-- ==== Sys2Proof/Laws/KeepsCycle.lean ====
section
/-!
SUPPORT. The frames of the operations of Machine/Cycle.lean: the parts of the state each may change, and that each keeps the canonical
form. A proof of a frame cites these and unfolds nothing.
-/

namespace Sys2Proof.Machine

def State.heldRefresh_parts : List Part := [.sch, .cal, .block 0x5]

theorem State.heldRefresh_keeps (s0 : State) (n : ℕ) :
    Keeps State.heldRefresh_parts s0 (State.heldRefresh s0 n) := by
  unfold State.heldRefresh
  extract_lets -lift -merge -useContext -underBinder +onlyGivenNames x0
  try clear_value x0
  refine Keeps.ite ?_ ?_
  · exact Keeps.refl _ _
  · split
    · refine Keeps.ofSome (by assumption) ?_
      refine KeepsOpt.findSome (fun _ => ?_)
      · refine KeepsOpt.via (State.fallbackStep_keeps _ _ _) rfl ?_
        exact Keeps.refl _ _
    · split
      · refine Keeps.ofSome (by assumption) ?_
        refine KeepsOpt.via (State.refsb_keeps _ _) rfl ?_
        exact Keeps.refl _ _
      · refine Keeps.ite ?_ ?_
        · refine Keeps.via (State.setTraining_keeps _ _ _) rfl ?_
          exact Keeps.refl _ _
        · exact Keeps.refl _ _

def State.cycleCommand_parts : List Part := [.log, .sb, .links, .twin, .ord, .mir, .sch, .flt, .cal, .dram, .reg Reg.GLB_EVENT, .reg Reg.GLB_DIRSTAT, .reg Reg.ORD_FWD, .reg Reg.ORD_LINEHOLD, .block 0x5, .reg Reg.ECC_SEALFAIL, .reg Reg.ECC_FIRSTFAIL, .reg Reg.LOG_RINGSTAT, .reg Reg.LOG_CAPTURED, .reg Reg.LOG_COALESCED, .reg Reg.LOG_LOST, .reg Reg.LOG_ORPHANS, .reg Reg.LOG_SQUALLS]

theorem State.cycleCommand_keeps (s0 : State) (n : ℕ) :
    Keeps State.cycleCommand_parts s0 (State.cycleCommand s0 n) := by
  unfold State.cycleCommand
  extract_lets -lift -merge -useContext -underBinder +onlyGivenNames x0
  try clear_value x0
  refine Keeps.ite ?_ ?_
  · exact Keeps.refl _ _
  · refine Keeps.ite ?_ ?_
    · refine Keeps.via (State.replayStep_keeps _ _) rfl ?_
      exact Keeps.refl _ _
    · refine Keeps.ite ?_ ?_
      · refine Keeps.ite ?_ ?_
        · refine Keeps.via (State.heldRefresh_keeps _ _) rfl ?_
          exact Keeps.refl _ _
        · refine Keeps.via (State.entryCycle_keeps _ _) rfl ?_
          exact Keeps.refl _ _
      · split
        · refine Keeps.via (State.latchCycle_keeps _ _ _ _) rfl ?_
          exact Keeps.refl _ _
        · split
          · refine Keeps.ofSome (by assumption) ?_
            refine KeepsOpt.via (State.pdxStep_keeps _ _) rfl ?_
            exact Keeps.refl _ _
          · refine Keeps.ite ?_ ?_
            · refine Keeps.via (State.gustCycle_keeps _ _) rfl ?_
              exact Keeps.refl _ _
            · refine Keeps.via (State.choose_keeps _ _) rfl ?_
              exact Keeps.refl _ _

def execScheduleCycle_parts : List Part := [.free, .log, .sb, .links, .twin, .ord, .mir, .sch, .flt, .cal, .dram, .reg Reg.GLB_EVENT, .reg Reg.GLB_DIRSTAT, .reg Reg.ORD_FWD, .reg Reg.ORD_LINEHOLD, .block 0x5, .reg Reg.CAL_STEPS, .reg Reg.CAL_SWITCHES, .reg Reg.ECC_SEALFAIL, .reg Reg.ECC_FIRSTFAIL, .reg Reg.LOG_RINGSTAT, .reg Reg.LOG_CAPTURED, .reg Reg.LOG_COALESCED, .reg Reg.LOG_LOST, .reg Reg.LOG_ORPHANS, .reg Reg.LOG_SQUALLS]

theorem execScheduleCycle_keeps (sc : Fin 16) (s0 : State) :
    KeepsOut execScheduleCycle_parts s0 (execScheduleCycle sc s0) := by
  unfold execScheduleCycle
  refine KeepsOut.next ?_
  extract_lets -lift -merge -useContext -underBinder +onlyGivenNames x0
  try clear_value x0
  refine Keeps.ite ?_ ?_
  · exact Keeps.refl _ _
  · extract_lets -lift -merge -useContext -underBinder +onlyGivenNames x1
    have h1 : Keeps execScheduleCycle_parts s0 x1 := by
      unfold x1
      refine Keeps.via (State.turn_keeps _ _) rfl ?_
      refine Keeps.via (State.probe_keeps _ _) rfl ?_
      refine Keeps.via (State.fillStore_keeps _ _) rfl ?_
      exact Keeps.refl _ _
    extract_lets -lift -merge -useContext -underBinder +onlyGivenNames x2
    try clear_value x2
    extract_lets -lift -merge -useContext -underBinder +onlyGivenNames x3
    have h3 : Keeps execScheduleCycle_parts s0 x3 := by
      unfold x3
      refine Keeps.ite ?_ ?_
      · refine Keeps.via (State.onSub_keeps _ _ _) rfl ?_
        exact h1
      · refine Keeps.via (State.cycleCommand_keeps _ _) rfl ?_
        exact h1
    extract_lets -lift -merge -useContext -underBinder +onlyGivenNames x4
    have h4 : Keeps execScheduleCycle_parts s0 x4 := by
      unfold x4
      refine Keeps.via (State.breezeCycle_keeps _ _) rfl ?_
      exact h3
    refine Keeps.via (State.endSpare_keeps _) rfl ?_
    refine Keeps.via (State.onSub_keeps _ _ _) rfl ?_
    refine Keeps.via (State.countIdle_keeps _ _) rfl ?_
    exact h4

end Sys2Proof.Machine
end

