-- ==== Sys2Proof/Laws/KeepsClocks.lean ====
section
/-!
SUPPORT. The frames of the operations of Machine/Clocks.lean: the parts of the state each may change, and that each keeps the canonical
form. A proof of a frame cites these and unfolds nothing.
-/

namespace Sys2Proof.Machine

def State.writePending_parts : List Part := [.clk]

theorem State.writePending_keeps (s0 : State) (t : ℕ) (osc : Bool) :
    Keeps State.writePending_parts s0 (State.writePending s0 t osc) := by
  unfold State.writePending
  refine Keeps.via (Keeps.upd_clk _ _) rfl ?_
  exact Keeps.refl _ _

def State.commitPending_parts : List Part := [.clk]

theorem State.commitPending_keeps (s0 : State) :
    Keeps State.commitPending_parts s0 (State.commitPending s0) := by
  unfold State.commitPending
  refine Keeps.via (Keeps.upd_clk _ _) rfl ?_
  exact Keeps.refl _ _

def State.commit_parts : List Part := [.clk, .reg Reg.CLK_STAT]

theorem State.commit_keeps (s0 : State) (t : ℕ) (osc : Bool) :
    Keeps State.commit_parts s0 (State.commit s0 t osc) := by
  unfold State.commit
  refine Keeps.via (State.setFld_keeps _ _ _) rfl ?_
  refine Keeps.via (State.commitPending_keeps _) rfl ?_
  refine Keeps.via (State.writePending_keeps _ _ _) rfl ?_
  exact Keeps.refl _ _

def State.unlockAll_parts : List Part := [.clk, .block 0x9]

theorem State.unlockAll_keeps (s0 : State) :
    Keeps State.unlockAll_parts s0 (State.unlockAll s0) := by
  unfold State.unlockAll
  extract_lets -lift -merge -useContext -underBinder +onlyGivenNames x0
  have h0 : Keeps State.unlockAll_parts s0 x0 := by
    unfold x0
    refine Keeps.foldS _ _ ?_ (fun t1 y1 h1 => ?_)
    · exact Keeps.refl _ _
    · refine Keeps.viaBlock (b := 9) (State.setFld_keeps _ _ _) (fam_block _ _ _ _ rfl (by decide)) rfl ?_
      exact h1
  refine Keeps.via (Keeps.upd_clk _ _) rfl ?_
  exact h0

def State.bringUp_parts : List Part := [.cal, .clk, .block 0x5, .block 0x9]

theorem State.bringUp_keeps (s0 : State) (bands : List (BitVec 6)) (t : ℕ) :
    Keeps State.bringUp_parts s0 (State.bringUp s0 bands t) := by
  unfold State.bringUp
  extract_lets -lift -merge -useContext -underBinder +onlyGivenNames x0
  have h0 : Keeps State.bringUp_parts s0 x0 := by
    unfold x0
    refine Keeps.foldS _ _ ?_ (fun t1 y1 h1 => ?_)
    · exact Keeps.refl _ _
    · refine Keeps.viaBlock (b := 9) (State.setFld_keeps _ _ _) (fam_block _ _ _ _ rfl (by decide)) rfl ?_
      refine Keeps.viaBlock (b := 9) (State.setFld_keeps _ _ _) (fam_block _ _ _ _ rfl (by decide)) rfl ?_
      exact h1
  extract_lets -lift -merge -useContext -underBinder +onlyGivenNames x2
  have h2 : Keeps State.bringUp_parts s0 x2 := by
    unfold x2
    refine Keeps.via (State.setFld_keeps _ _ _) rfl ?_
    refine Keeps.via (State.commit_keeps _ _ _) rfl ?_
    exact h0
  extract_lets -lift -merge -useContext -underBinder +onlyGivenNames x3 x4
  have h4 : Keeps State.bringUp_parts s0 x4 := by
    unfold x4
    refine Keeps.via (Keeps.upd_cal _ _) rfl ?_
    exact h2
  refine Keeps.foldS _ _ ?_ (fun t5 y5 h5 => ?_)
  · refine Keeps.via (State.unlockAll_keeps _) rfl ?_
    exact h4
  · refine Keeps.viaBlock (b := 5) (State.setFld_keeps _ _ _) (fam_block _ _ _ _ rfl (by decide)) rfl ?_
    exact h5

def State.memTick_parts : List Part := [.clk]

theorem State.memTick_keeps (s0 : State) :
    Keeps State.memTick_parts s0 (State.memTick s0) := by
  unfold State.memTick
  extract_lets -lift -merge -useContext -underBinder +onlyGivenNames x0
  try clear_value x0
  extract_lets -lift -merge -useContext -underBinder +onlyGivenNames x1
  try clear_value x1
  refine Keeps.via (Keeps.upd_clk _ _) rfl ?_
  exact Keeps.refl _ _

def State.stopCk_parts : List Part := [.sch]

theorem State.stopCk_keeps (s0 : State) (n : ℕ) :
    Keeps State.stopCk_parts s0 (State.stopCk s0 n) := by
  unfold State.stopCk
  refine Keeps.via (State.onSub_keeps _ _ _) rfl ?_
  exact Keeps.refl _ _

def State.restartCk_parts : List Part := [.sch]

theorem State.restartCk_keeps (s0 : State) :
    Keeps State.restartCk_parts s0 (State.restartCk s0) := by
  unfold State.restartCk
  refine Keeps.foldS _ _ ?_ (fun t0 y0 h0 => ?_)
  · exact Keeps.refl _ _
  · refine Keeps.via (State.startCk_keeps _ _ _) rfl ?_
    exact h0

def State.sleepSub_parts : List Part := [.sch]

theorem State.sleepSub_keeps (s0 : State) (n : ℕ) :
    Keeps State.sleepSub_parts s0 (State.sleepSub s0 n) := by
  unfold State.sleepSub
  extract_lets -lift -merge -useContext -underBinder +onlyGivenNames x0
  try clear_value x0
  extract_lets -lift -merge -useContext -underBinder +onlyGivenNames x1
  try clear_value x1
  extract_lets -lift -merge -useContext -underBinder +onlyGivenNames x2
  have h2 : Keeps State.sleepSub_parts s0 x2 := by
    unfold x2
    refine Keeps.foldS _ _ ?_ (fun t3 y3 h3 => ?_)
    · exact Keeps.refl _ _
    · refine Keeps.via (State.issue_keeps _ _ _ _ _ _) rfl ?_
      exact h3
  refine Keeps.via (State.onSub_keeps _ _ _) rfl ?_
  exact h2

def State.wakeSub_parts : List Part := [.sch]

theorem State.wakeSub_keeps (s0 : State) (n : ℕ) :
    Keeps State.wakeSub_parts s0 (State.wakeSub s0 n) := by
  unfold State.wakeSub
  extract_lets -lift -merge -useContext -underBinder +onlyGivenNames x0
  try clear_value x0
  extract_lets -lift -merge -useContext -underBinder +onlyGivenNames x1
  try clear_value x1
  extract_lets -lift -merge -useContext -underBinder +onlyGivenNames x2
  have h2 : Keeps State.wakeSub_parts s0 x2 := by
    unfold x2
    refine Keeps.foldS _ _ ?_ (fun t3 y3 h3 => ?_)
    · exact Keeps.refl _ _
    · refine Keeps.via (State.issue_keeps _ _ _ _ _ _) rfl ?_
      exact h3
  refine Keeps.via (State.onSub_keeps _ _ _) rfl ?_
  exact h2

def State.holdAll_parts : List Part := [.log, .sb, .links, .twin, .ord, .mir, .sch, .cal, .reg Reg.GLB_EVENT, .reg Reg.GLB_DIRSTAT, .reg Reg.ORD_FWD, .reg Reg.ORD_LINEHOLD, .reg Reg.CAL_ABANDONED, .reg Reg.ECC_SEALFAIL, .reg Reg.ECC_FIRSTFAIL, .reg Reg.LOG_RINGSTAT, .reg Reg.LOG_CAPTURED, .reg Reg.LOG_COALESCED, .reg Reg.LOG_LOST, .reg Reg.LOG_ORPHANS, .reg Reg.LOG_SQUALLS]

theorem State.holdAll_keeps (s0 : State) :
    Keeps State.holdAll_parts s0 (State.holdAll s0) := by
  unfold State.holdAll
  refine Keeps.foldS _ _ ?_ (fun t0 y0 h0 => ?_)
  · exact Keeps.refl _ _
  · refine Keeps.via (State.abandonSub_keeps _ _ _) rfl ?_
    refine Keeps.via (State.onSub_keeps _ _ _) rfl ?_
    exact h0

def State.startLull_parts : List Part := [.log, .sb, .links, .twin, .ord, .mir, .sch, .cal, .clk, .reg Reg.GLB_EVENT, .reg Reg.GLB_DIRSTAT, .reg Reg.ORD_FWD, .reg Reg.ORD_LINEHOLD, .reg Reg.CAL_ABANDONED, .reg Reg.ECC_SEALFAIL, .reg Reg.ECC_FIRSTFAIL, .reg Reg.CLK_STAT, .reg Reg.LOG_RINGSTAT, .reg Reg.LOG_CAPTURED, .reg Reg.LOG_COALESCED, .reg Reg.LOG_LOST, .reg Reg.LOG_ORPHANS, .reg Reg.LOG_SQUALLS]

theorem State.startLull_keeps (s0 : State) (t : ℕ) :
    Keeps State.startLull_parts s0 (State.startLull s0 t) := by
  unfold State.startLull
  extract_lets -lift -merge -useContext -underBinder +onlyGivenNames x0
  try clear_value x0
  extract_lets -lift -merge -useContext -underBinder +onlyGivenNames x1 x2
  have h2 : Keeps State.startLull_parts s0 x2 := by
    unfold x2
    refine Keeps.via (Keeps.upd_clk _ _) rfl ?_
    exact Keeps.refl _ _
  refine Keeps.via (State.holdAll_keeps _) rfl ?_
  refine Keeps.via (State.setFld_keeps _ _ _) rfl ?_
  exact h2

def State.noteLull_parts : List Part := [.reg Reg.CLK_LULLSTAT]

theorem State.noteLull_keeps (s0 : State) :
    Keeps State.noteLull_parts s0 (State.noteLull s0) := by
  unfold State.noteLull
  refine Keeps.via (State.satF_keeps _ _ _) rfl ?_
  exact Keeps.refl _ _

def State.startSpread_parts : List Part := [.clk]

theorem State.startSpread_keeps (s0 : State) :
    Keeps State.startSpread_parts s0 (State.startSpread s0) := by
  unfold State.startSpread
  refine Keeps.ite ?_ ?_
  · refine Keeps.via (Keeps.upd_clk _ _) rfl ?_
    exact Keeps.refl _ _
  · exact Keeps.refl _ _

def State.restoreSub_parts : List Part := [.free, .log, .sb, .links, .twin, .ord, .mir, .sch, .cal, .reg Reg.GLB_EVENT, .reg Reg.GLB_DIRSTAT, .reg Reg.ORD_FWD, .reg Reg.ORD_LINEHOLD, .block 0x6, .reg Reg.ECC_SEALFAIL, .reg Reg.ECC_FIRSTFAIL, .reg Reg.LOG_RINGSTAT, .reg Reg.LOG_CAPTURED, .reg Reg.LOG_COALESCED, .reg Reg.LOG_LOST, .reg Reg.LOG_ORPHANS, .reg Reg.LOG_SQUALLS]

theorem State.restoreSub_keeps (s0 : State) (n : ℕ) :
    Keeps State.restoreSub_parts s0 (State.restoreSub s0 n) := by
  unfold State.restoreSub
  refine Keeps.via (State.nextRank_keeps _ _ _) rfl ?_
  refine Keeps.via (State.wakeRestored_keeps _ _) rfl ?_
  exact Keeps.refl _ _

def State.wakeUp_parts : List Part := [.free, .log, .sb, .links, .twin, .ord, .mir, .sch, .cal, .reg Reg.GLB_EVENT, .reg Reg.GLB_DIRSTAT, .reg Reg.ORD_FWD, .reg Reg.ORD_LINEHOLD, .block 0x6, .reg Reg.ECC_SEALFAIL, .reg Reg.ECC_FIRSTFAIL, .reg Reg.LOG_RINGSTAT, .reg Reg.LOG_CAPTURED, .reg Reg.LOG_COALESCED, .reg Reg.LOG_LOST, .reg Reg.LOG_ORPHANS, .reg Reg.LOG_SQUALLS]

theorem State.wakeUp_keeps (s0 : State) (n : ℕ) :
    Keeps State.wakeUp_parts s0 (State.wakeUp s0 n) := by
  unfold State.wakeUp
  refine Keeps.ite ?_ ?_
  · refine Keeps.via (State.restoreSub_keeps _ _) rfl ?_
    exact Keeps.refl _ _
  · refine Keeps.via (State.writeSettings_keeps _ _ _) rfl ?_
    refine Keeps.via (State.wakeSub_keeps _ _) rfl ?_
    exact Keeps.refl _ _

def State.endLull_parts : List Part := [.free, .log, .sb, .links, .twin, .ord, .mir, .sch, .cal, .clk, .reg Reg.GLB_EVENT, .reg Reg.GLB_DIRSTAT, .reg Reg.ORD_FWD, .reg Reg.ORD_LINEHOLD, .block 0x6, .reg Reg.ECC_SEALFAIL, .reg Reg.ECC_FIRSTFAIL, .reg Reg.CLK_STAT, .reg Reg.CLK_LULLSTAT, .reg Reg.CLK_LULLS, .reg Reg.LOG_RINGSTAT, .reg Reg.LOG_CAPTURED, .reg Reg.LOG_COALESCED, .reg Reg.LOG_LOST, .reg Reg.LOG_ORPHANS, .reg Reg.LOG_SQUALLS]

theorem State.endLull_keeps (s0 : State) :
    Keeps State.endLull_parts s0 (State.endLull s0) := by
  unfold State.endLull
  unfold State.endLullWith
  extract_lets -lift -merge -useContext -underBinder +onlyGivenNames x0
  try clear_value x0
  extract_lets -lift -merge -useContext -underBinder +onlyGivenNames x1
  try clear_value x1
  extract_lets -lift -merge -useContext -underBinder +onlyGivenNames x2
  have h2 : Keeps State.endLull_parts s0 x2 := by
    unfold x2
    refine Keeps.foldS _ _ ?_ (fun t3 y3 h3 => ?_)
    · exact Keeps.refl _ _
    · try dsimp -zeta -proj -iota -eta only
      refine Keeps.via (State.wakeUp_keeps _ _) rfl ?_
      exact h3
  extract_lets -lift -merge -useContext -underBinder +onlyGivenNames x4 x5
  have h5 : Keeps State.endLull_parts s0 x5 := by
    unfold x5
    refine Keeps.via (Keeps.upd_cal _ _) rfl ?_
    exact h2
  extract_lets -lift -merge -useContext -underBinder +onlyGivenNames x6
  have h6 : Keeps State.endLull_parts s0 x6 := by
    unfold x6
    refine Keeps.via (State.noteLull_keeps _) rfl ?_
    exact h5
  extract_lets -lift -merge -useContext -underBinder +onlyGivenNames x7
  try clear_value x7
  extract_lets -lift -merge -useContext -underBinder +onlyGivenNames x8
  try clear_value x8
  extract_lets -lift -merge -useContext -underBinder +onlyGivenNames x9
  try clear_value x9
  extract_lets -lift -merge -useContext -underBinder +onlyGivenNames x10 x11 x12
  have h10 : Keeps State.endLull_parts s0 x10 := by
    unfold x10
    refine Keeps.via (State.setFld_keeps _ _ _) rfl ?_
    refine Keeps.via (State.bump_keeps _ _ _) rfl ?_
    exact h6
  have h11 : Keeps State.endLull_parts s0 x11 := by
    unfold x11
    refine Keeps.via (State.setFld_keeps _ _ _) rfl ?_
    exact h10
  have h12 : Keeps State.endLull_parts s0 x12 := by
    unfold x12
    refine Keeps.ite ?_ ?_
    · refine Keeps.via (State.event_keeps _ _ _) rfl ?_
      exact h11
    · exact h6
  extract_lets -lift -merge -useContext -underBinder +onlyGivenNames x13
  have h13 : Keeps State.endLull_parts s0 x13 := by
    unfold x13
    refine Keeps.ite ?_ ?_
    · refine Keeps.via (State.event_keeps _ _ _) rfl ?_
      exact h12
    · exact h12
  refine Keeps.via (State.setFld_keeps _ _ _) rfl ?_
  refine Keeps.via (Keeps.upd_clk _ _) rfl ?_
  exact h13

def State.switchSet_parts : List Part := [.log, .sb, .links, .twin, .ord, .mir, .sch, .cal, .reg Reg.GLB_EVENT, .reg Reg.GLB_DIRSTAT, .reg Reg.ORD_FWD, .reg Reg.ORD_LINEHOLD, .block 0x5, .block 0x8, .reg Reg.LOG_RINGSTAT, .reg Reg.LOG_CAPTURED, .reg Reg.LOG_COALESCED, .reg Reg.LOG_LOST, .reg Reg.LOG_ORPHANS, .reg Reg.LOG_SQUALLS]

theorem State.switchSet_keeps (s0 : State) :
    Keeps State.switchSet_parts s0 (State.switchSet s0) := by
  unfold State.switchSet
  extract_lets -lift -merge -useContext -underBinder +onlyGivenNames x0
  try clear_value x0
  refine Keeps.ite ?_ ?_
  · exact Keeps.refl _ _
  · extract_lets -lift -merge -useContext -underBinder +onlyGivenNames x1
    have h1 : Keeps State.switchSet_parts s0 x1 := by
      unfold x1
      refine Keeps.via (State.loadRecords_keeps _ _) rfl ?_
      refine Keeps.foldS _ _ ?_ (fun t2 y2 h2 => ?_)
      · exact Keeps.refl _ _
      · refine Keeps.viaBlock (b := 5) (State.setFld_keeps _ _ _) (fam_block _ _ _ _ rfl (by decide)) rfl ?_
        exact h2
    refine Keeps.via (Keeps.upd_cal _ _) rfl ?_
    exact h1

def State.tryExit_parts : List Part := [.free, .log, .sb, .links, .twin, .ord, .mir, .sch, .cal, .clk, .reg Reg.GLB_EVENT, .reg Reg.GLB_DIRSTAT, .reg Reg.ORD_FWD, .reg Reg.ORD_LINEHOLD, .block 0x6, .reg Reg.ECC_SEALFAIL, .reg Reg.ECC_FIRSTFAIL, .reg Reg.CLK_STAT, .reg Reg.CLK_LULLSTAT, .reg Reg.CLK_LULLS, .reg Reg.LOG_RINGSTAT, .reg Reg.LOG_CAPTURED, .reg Reg.LOG_COALESCED, .reg Reg.LOG_LOST, .reg Reg.LOG_ORPHANS, .reg Reg.LOG_SQUALLS]

theorem State.tryExit_keeps (s0 : State) :
    Keeps State.tryExit_parts s0 (State.tryExit s0) := by
  unfold State.tryExit
  refine Keeps.ite ?_ ?_
  · refine Keeps.via (State.endLull_keeps _) rfl ?_
    exact Keeps.refl _ _
  · exact Keeps.refl _ _

def State.tryReady_parts : List Part := [.free, .log, .sb, .links, .twin, .ord, .mir, .sch, .cal, .clk, .reg Reg.GLB_EVENT, .reg Reg.GLB_DIRSTAT, .reg Reg.ORD_FWD, .reg Reg.ORD_LINEHOLD, .block 0x5, .block 0x6, .block 0x8, .reg Reg.CLK_STAT, .reg Reg.CLK_LULLSTAT, .reg Reg.CLK_LULLS, .reg Reg.LOG_RINGSTAT, .reg Reg.LOG_CAPTURED, .reg Reg.LOG_COALESCED, .reg Reg.LOG_LOST, .reg Reg.LOG_ORPHANS, .reg Reg.LOG_SQUALLS]

theorem State.tryReady_keeps (s0 : State) :
    Keeps State.tryReady_parts s0 (State.tryReady s0) := by
  unfold State.tryReady
  extract_lets -lift -merge -useContext -underBinder +onlyGivenNames x0
  try clear_value x0
  refine Keeps.ite ?_ ?_
  · extract_lets -lift -merge -useContext -underBinder +onlyGivenNames x1
    have h1 : Keeps State.tryReady_parts s0 x1 := by
      unfold x1
      refine Keeps.via (State.startSpread_keeps _) rfl ?_
      refine Keeps.via (State.switchSet_keeps _) rfl ?_
      exact Keeps.refl _ _
    refine Keeps.via (State.tryExit_keeps _) rfl ?_
    refine Keeps.via (Keeps.upd_clk _ _) rfl ?_
    exact h1
  · exact Keeps.refl _ _

def execLullEntryDone_parts : List Part := [.sch, .clk, .block 0x9]

theorem execLullEntryDone_keeps (s0 : State) :
    KeepsOut execLullEntryDone_parts s0 (execLullEntryDone s0) := by
  unfold execLullEntryDone
  refine KeepsOut.next ?_
  extract_lets -lift -merge -useContext -underBinder +onlyGivenNames x0
  try clear_value x0
  refine Keeps.ite ?_ ?_
  · extract_lets -lift -merge -useContext -underBinder +onlyGivenNames x1
    have h1 : Keeps execLullEntryDone_parts s0 x1 := by
      unfold x1
      refine Keeps.foldS _ _ ?_ (fun t2 y2 h2 => ?_)
      · exact Keeps.refl _ _
      · refine Keeps.via (State.stopCk_keeps _ _) rfl ?_
        refine Keeps.via (State.sleepSub_keeps _ _) rfl ?_
        exact h2
    extract_lets -lift -merge -useContext -underBinder +onlyGivenNames x3 x4
    have h4 : Keeps execLullEntryDone_parts s0 x4 := by
      unfold x4
      refine Keeps.via (Keeps.upd_clk _ _) rfl ?_
      exact h1
    refine Keeps.ite ?_ ?_
    · refine Keeps.via (Keeps.upd_clk _ _) rfl ?_
      exact h4
    · extract_lets -lift -merge -useContext -underBinder +onlyGivenNames x5
      try clear_value x5
      extract_lets -lift -merge -useContext -underBinder +onlyGivenNames x6
      have h6 : Keeps execLullEntryDone_parts s0 x6 := by
        unfold x6
        refine Keeps.via (State.setFld_keeps _ _ _) rfl ?_
        refine Keeps.via (State.commit_keeps _ _ _) rfl ?_
        refine Keeps.via (State.unlockAll_keeps _) rfl ?_
        exact h4
      refine Keeps.ite ?_ ?_
      · refine Keeps.via (State.restartCk_keeps _) rfl ?_
        exact h6
      · refine Keeps.via (State.setFld_keeps _ _ _) rfl ?_
        exact h6
  · exact Keeps.refl _ _

def State.relock_parts : List Part := [.log, .sb, .clk, .reg Reg.GLB_EVENT, .reg Reg.GLB_DIRSTAT, .block 0x9, .reg Reg.LOG_RINGSTAT, .reg Reg.LOG_CAPTURED, .reg Reg.LOG_COALESCED, .reg Reg.LOG_LOST, .reg Reg.LOG_ORPHANS, .reg Reg.LOG_SQUALLS]

theorem State.relock_keeps (s0 : State) (band : BitVec 6) (searched : Bool) :
    Keeps State.relock_parts s0 (State.relock s0 band searched).1 := by
  unfold State.relock
  extract_lets -lift -merge -useContext -underBinder +onlyGivenNames x0
  try clear_value x0
  extract_lets -lift -merge -useContext -underBinder +onlyGivenNames x1
  try clear_value x1
  extract_lets -lift -merge -useContext -underBinder +onlyGivenNames x2 x3
  have h3 : Keeps State.relock_parts s0 x3 := by
    unfold x3
    refine Keeps.via (Keeps.upd_clk _ _) rfl ?_
    exact Keeps.refl _ _
  refine Keeps.iteL ?_ ?_
  · extract_lets -lift -merge -useContext -underBinder +onlyGivenNames x4
    have h4 : Keeps State.relock_parts s0 x4 := by
      unfold x4
      refine Keeps.viaBlock (b := 9) (State.setFld_keeps _ _ _) (fam_block _ _ _ _ rfl (by decide)) rfl ?_
      refine Keeps.viaBlock (b := 9) (State.setFld_keeps _ _ _) (fam_block _ _ _ _ rfl (by decide)) rfl ?_
      exact h3
    extract_lets -lift -merge -useContext -underBinder +onlyGivenNames x5 x6 x7
    have h7 : Keeps State.relock_parts s0 x7 := by
      unfold x7
      refine Keeps.via (Keeps.upd_clk _ _) rfl ?_
      exact h4
    dsimp -zeta only
    refine Keeps.via (State.event_keeps _ _ _) rfl ?_
    refine Keeps.via (State.bump_keeps _ _ _) rfl ?_
    exact h7
  · dsimp -zeta only
    exact h3

def execMpllLock_parts : List Part := [.free, .log, .sb, .links, .twin, .ord, .mir, .sch, .cal, .clk, .reg Reg.GLB_EVENT, .reg Reg.GLB_DIRSTAT, .reg Reg.ORD_FWD, .reg Reg.ORD_LINEHOLD, .block 0x5, .block 0x6, .block 0x8, .block 0x9, .reg Reg.LOG_RINGSTAT, .reg Reg.LOG_CAPTURED, .reg Reg.LOG_COALESCED, .reg Reg.LOG_LOST, .reg Reg.LOG_ORPHANS, .reg Reg.LOG_SQUALLS]

theorem execMpllLock_keeps (band : BitVec 6) (searched : Bool) (s0 : State) :
    KeepsOut execMpllLock_parts s0 (execMpllLock band searched s0) := by
  unfold execMpllLock
  refine KeepsOut.next ?_
  extract_lets -lift -merge -useContext -underBinder +onlyGivenNames x0
  have h0 : Keeps execMpllLock_parts s0 x0.1 := by
    unfold x0
    refine Keeps.via (State.relock_keeps _ _ _) rfl ?_
    exact Keeps.refl _ _
  refine Keeps.ite ?_ ?_
  · refine Keeps.via (State.tryReady_keeps _) rfl ?_
    refine Keeps.via (State.restartCk_keeps _) rfl ?_
    refine Keeps.via (State.setFld_keeps _ _ _) rfl ?_
    exact h0
  · exact Keeps.refl _ _

def execExitRequest_parts : List Part := [.free, .log, .sb, .links, .twin, .ord, .mir, .sch, .cal, .clk, .reg Reg.GLB_EVENT, .reg Reg.GLB_DIRSTAT, .reg Reg.ORD_FWD, .reg Reg.ORD_LINEHOLD, .block 0x6, .reg Reg.ECC_SEALFAIL, .reg Reg.ECC_FIRSTFAIL, .reg Reg.CLK_STAT, .reg Reg.CLK_LULLSTAT, .reg Reg.CLK_LULLS, .reg Reg.CLK_LULLIGN, .reg Reg.LOG_RINGSTAT, .reg Reg.LOG_CAPTURED, .reg Reg.LOG_COALESCED, .reg Reg.LOG_LOST, .reg Reg.LOG_ORPHANS, .reg Reg.LOG_SQUALLS]

theorem execExitRequest_keeps (s0 : State) :
    KeepsOut execExitRequest_parts s0 (execExitRequest s0) := by
  unfold execExitRequest
  refine KeepsOut.next ?_
  refine Keeps.ite ?_ ?_
  · exact Keeps.refl _ _
  · extract_lets -lift -merge -useContext -underBinder +onlyGivenNames x0 x1
    have h1 : Keeps execExitRequest_parts s0 x1 := by
      unfold x1
      refine Keeps.via (Keeps.upd_clk _ _) rfl ?_
      exact Keeps.refl _ _
    refine Keeps.ite ?_ ?_
    · refine Keeps.via (State.tryExit_keeps _) rfl ?_
      refine Keeps.via (Keeps.upd_clk _ _) rfl ?_
      exact h1
    · refine Keeps.via (State.freeEvent_keeps _ _) rfl ?_
      refine Keeps.via (State.bump_keeps _ _ _) rfl ?_
      exact h1

def execSrMinElapsed_parts : List Part := [.free, .log, .sb, .links, .twin, .ord, .mir, .sch, .cal, .clk, .reg Reg.GLB_EVENT, .reg Reg.GLB_DIRSTAT, .reg Reg.ORD_FWD, .reg Reg.ORD_LINEHOLD, .block 0x6, .reg Reg.ECC_SEALFAIL, .reg Reg.ECC_FIRSTFAIL, .reg Reg.CLK_STAT, .reg Reg.CLK_LULLSTAT, .reg Reg.CLK_LULLS, .reg Reg.LOG_RINGSTAT, .reg Reg.LOG_CAPTURED, .reg Reg.LOG_COALESCED, .reg Reg.LOG_LOST, .reg Reg.LOG_ORPHANS, .reg Reg.LOG_SQUALLS]

theorem execSrMinElapsed_keeps (s0 : State) :
    KeepsOut execSrMinElapsed_parts s0 (execSrMinElapsed s0) := by
  unfold execSrMinElapsed
  refine KeepsOut.next ?_
  refine Keeps.ite ?_ ?_
  · refine Keeps.via (State.tryExit_keeps _) rfl ?_
    refine Keeps.via (Keeps.upd_clk _ _) rfl ?_
    exact Keeps.refl _ _
  · exact Keeps.refl _ _

def State.dllReport_parts : List Part := [.block 0x9]

theorem State.dllReport_keeps (s0 : State) (n : ℕ) (code : BitVec 7) (err : Byte) :
    Keeps State.dllReport_parts s0 (State.dllReport s0 n code err) := by
  unfold State.dllReport
  refine Keeps.viaBlock (b := 9) (State.setFld_keeps _ _ _) (fam_block _ _ _ _ rfl (by decide)) rfl ?_
  refine Keeps.viaBlock (b := 9) (State.setFld_keeps _ _ _) (fam_block _ _ _ _ rfl (by decide)) rfl ?_
  exact Keeps.refl _ _

def State.barSteps_parts : List Part := [.cal]

theorem State.barSteps_keeps (s0 : State) (n : ℕ) :
    Keeps State.barSteps_parts s0 (State.barSteps s0 n) := by
  unfold State.barSteps
  extract_lets -lift -merge -useContext -underBinder +onlyGivenNames x0
  try clear_value x0
  refine Keeps.ite ?_ ?_
  · refine Keeps.via (Keeps.upd_cal _ _) rfl ?_
    exact Keeps.refl _ _
  · exact Keeps.refl _ _

def State.timeBar_parts : List Part := [.cal]

theorem State.timeBar_keeps (s0 : State) (n : ℕ) :
    Keeps State.timeBar_parts s0 (State.timeBar s0 n) := by
  unfold State.timeBar
  refine Keeps.via (Keeps.upd_cal _ _) rfl ?_
  exact Keeps.refl _ _

def execDllLock_parts : List Part := [.free, .log, .sb, .links, .twin, .ord, .mir, .sch, .cal, .clk, .reg Reg.GLB_EVENT, .reg Reg.GLB_DIRSTAT, .reg Reg.ORD_FWD, .reg Reg.ORD_LINEHOLD, .block 0x5, .block 0x6, .block 0x8, .block 0x9, .reg Reg.LOG_RINGSTAT, .reg Reg.LOG_CAPTURED, .reg Reg.LOG_COALESCED, .reg Reg.LOG_LOST, .reg Reg.LOG_ORPHANS, .reg Reg.LOG_SQUALLS]

theorem execDllLock_keeps (sc : Fin 16) (code : BitVec 7) (err : Byte) (s0 : State) :
    KeepsOut execDllLock_parts s0 (execDllLock sc code err s0) := by
  unfold execDllLock
  refine KeepsOut.next ?_
  extract_lets -lift -merge -useContext -underBinder +onlyGivenNames x0
  try clear_value x0
  refine Keeps.ite ?_ ?_
  · extract_lets -lift -merge -useContext -underBinder +onlyGivenNames x1
    have h1 : Keeps execDllLock_parts s0 x1 := by
      unfold x1
      refine Keeps.via (State.dllReport_keeps _ _ _ _) rfl ?_
      exact Keeps.refl _ _
    refine Keeps.ite ?_ ?_
    · exact h1
    · extract_lets -lift -merge -useContext -underBinder +onlyGivenNames x2
      have h2 : Keeps execDllLock_parts s0 x2 := by
        unfold x2
        refine Keeps.viaBlock (b := 9) (State.setFld_keeps _ _ _) (fam_block _ _ _ _ rfl (by decide)) rfl ?_
        refine Keeps.viaBlock (b := 9) (State.setFld_keeps _ _ _) (fam_block _ _ _ _ rfl (by decide)) rfl ?_
        exact h1
      extract_lets -lift -merge -useContext -underBinder +onlyGivenNames x3
      try clear_value x3
      extract_lets -lift -merge -useContext -underBinder +onlyGivenNames x4 x5
      have h5 : Keeps execDllLock_parts s0 x5 := by
        unfold x5
        refine Keeps.ite ?_ ?_
        · refine Keeps.via (State.timeBar_keeps _ _) rfl ?_
          refine Keeps.via (Keeps.upd_clk _ _) rfl ?_
          exact h2
        · exact h2
      refine Keeps.ite ?_ ?_
      · refine Keeps.via (State.tryReady_keeps _) rfl ?_
        exact h5
      · extract_lets -lift -merge -useContext -underBinder +onlyGivenNames x6
        have h6 : Keeps execDllLock_parts s0 x6 := by
          unfold x6
          refine Keeps.via (State.startSpread_keeps _) rfl ?_
          exact h5
        refine Keeps.ite ?_ ?_
        · refine Keeps.via (State.wakeUp_keeps _ _) rfl ?_
          exact h6
        · refine Keeps.ite ?_ ?_
          · refine Keeps.via (State.restoreSub_keeps _ _) rfl ?_
            exact h6
          · exact h6
  · exact Keeps.refl _ _

def execDllLossOfLock_parts : List Part := [.log, .sb, .links, .twin, .ord, .mir, .sch, .cal, .clk, .reg Reg.GLB_EVENT, .reg Reg.GLB_DIRSTAT, .reg Reg.ORD_FWD, .reg Reg.ORD_LINEHOLD, .reg Reg.CAL_ABANDONED, .reg Reg.ECC_SEALFAIL, .reg Reg.ECC_FIRSTFAIL, .block 0x9, .reg Reg.LOG_RINGSTAT, .reg Reg.LOG_CAPTURED, .reg Reg.LOG_COALESCED, .reg Reg.LOG_LOST, .reg Reg.LOG_ORPHANS, .reg Reg.LOG_SQUALLS]

theorem execDllLossOfLock_keeps (sc : Fin 16) (code : BitVec 7) (err : Byte) (s0 : State) :
    KeepsOut execDllLossOfLock_parts s0 (execDllLossOfLock sc code err s0) := by
  unfold execDllLossOfLock
  refine KeepsOut.next ?_
  extract_lets -lift -merge -useContext -underBinder +onlyGivenNames x0
  try clear_value x0
  refine Keeps.ite ?_ ?_
  · extract_lets -lift -merge -useContext -underBinder +onlyGivenNames x1
    have h1 : Keeps execDllLossOfLock_parts s0 x1 := by
      unfold x1
      refine Keeps.via (State.dllReport_keeps _ _ _ _) rfl ?_
      exact Keeps.refl _ _
    refine Keeps.ite ?_ ?_
    · exact h1
    · extract_lets -lift -merge -useContext -underBinder +onlyGivenNames x2
      have h2 : Keeps execDllLossOfLock_parts s0 x2 := by
        unfold x2
        refine Keeps.viaBlock (b := 9) (State.setFld_keeps _ _ _) (fam_block _ _ _ _ rfl (by decide)) rfl ?_
        exact h1
      extract_lets -lift -merge -useContext -underBinder +onlyGivenNames x3
      have h3 : Keeps execDllLossOfLock_parts s0 x3 := by
        unfold x3
        refine Keeps.via (State.event_keeps _ _ _) rfl ?_
        refine Keeps.via (State.bump_keeps _ _ _) rfl ?_
        exact h2
      refine Keeps.ite ?_ ?_
      · refine Keeps.via (Keeps.upd_clk _ _) rfl ?_
        exact h3
      · split
        · extract_lets -lift -merge -useContext -underBinder +onlyGivenNames x4
          have h4 : Keeps execDllLossOfLock_parts s0 x4 := by
            unfold x4
            refine Keeps.via (State.abandonSub_keeps _ _ _) rfl ?_
            refine Keeps.via (State.barSteps_keeps _ _) rfl ?_
            exact h3
          extract_lets -lift -merge -useContext -underBinder +onlyGivenNames x5 x6
          have h6 : Keeps execDllLossOfLock_parts s0 x6 := by
            unfold x6
            refine Keeps.via (Keeps.upd_clk _ _) rfl ?_
            exact h4
          refine Keeps.via (State.sleepSub_keeps _ _) rfl ?_
          exact h6
        · extract_lets -lift -merge -useContext -underBinder +onlyGivenNames x7
          have h7 : Keeps execDllLossOfLock_parts s0 x7 := by
            unfold x7
            refine Keeps.via (State.abandonSub_keeps _ _ _) rfl ?_
            refine Keeps.via (State.barSteps_keeps _ _) rfl ?_
            exact h3
          extract_lets -lift -merge -useContext -underBinder +onlyGivenNames x8 x9
          have h9 : Keeps execDllLossOfLock_parts s0 x9 := by
            unfold x9
            refine Keeps.via (Keeps.upd_clk _ _) rfl ?_
            exact h7
          refine Keeps.via (State.sleepSub_keeps _ _) rfl ?_
          exact h9
        · extract_lets -lift -merge -useContext -underBinder +onlyGivenNames x10
          have h10 : Keeps execDllLossOfLock_parts s0 x10 := by
            unfold x10
            refine Keeps.via (State.abandonSub_keeps _ _ _) rfl ?_
            refine Keeps.via (State.barSteps_keeps _ _) rfl ?_
            exact h3
          extract_lets -lift -merge -useContext -underBinder +onlyGivenNames x11 x12
          have h12 : Keeps execDllLossOfLock_parts s0 x12 := by
            unfold x12
            refine Keeps.via (Keeps.upd_clk _ _) rfl ?_
            exact h10
          refine Keeps.via (State.sleepSub_keeps _ _) rfl ?_
          exact h12
        · extract_lets -lift -merge -useContext -underBinder +onlyGivenNames x13
          have h13 : Keeps execDllLossOfLock_parts s0 x13 := by
            unfold x13
            refine Keeps.via (State.abandonSub_keeps _ _ _) rfl ?_
            refine Keeps.via (State.barSteps_keeps _ _) rfl ?_
            exact h3
          extract_lets -lift -merge -useContext -underBinder +onlyGivenNames x14 x15
          have h15 : Keeps execDllLossOfLock_parts s0 x15 := by
            unfold x15
            refine Keeps.via (Keeps.upd_clk _ _) rfl ?_
            exact h13
          refine Keeps.via (State.sleepSub_keeps _ _) rfl ?_
          exact h15
        · exact h3
  · exact Keeps.refl _ _

def execDllStuck_parts : List Part := [.free, .log, .sb, .links, .twin, .ord, .mir, .sch, .cal, .clk, .reg Reg.GLB_EVENT, .reg Reg.GLB_DIRSTAT, .reg Reg.ORD_FWD, .reg Reg.ORD_LINEHOLD, .block 0x5, .block 0x6, .block 0x8, .block 0x9, .reg Reg.LOG_RINGSTAT, .reg Reg.LOG_CAPTURED, .reg Reg.LOG_COALESCED, .reg Reg.LOG_LOST, .reg Reg.LOG_ORPHANS, .reg Reg.LOG_SQUALLS]

theorem execDllStuck_keeps (sc : Fin 16) (s0 : State) :
    KeepsOut execDllStuck_parts s0 (execDllStuck sc s0) := by
  unfold execDllStuck
  refine KeepsOut.next ?_
  extract_lets -lift -merge -useContext -underBinder +onlyGivenNames x0
  try clear_value x0
  extract_lets -lift -merge -useContext -underBinder +onlyGivenNames x1
  try clear_value x1
  refine Keeps.ite ?_ ?_
  · extract_lets -lift -merge -useContext -underBinder +onlyGivenNames x2
    have h2 : Keeps execDllStuck_parts s0 x2 := by
      unfold x2
      refine Keeps.via (State.event_keeps _ _ _) rfl ?_
      refine Keeps.viaBlock (b := 9) (State.setFld_keeps _ _ _) (fam_block _ _ _ _ rfl (by decide)) rfl ?_
      exact Keeps.refl _ _
    refine Keeps.via (State.tryReady_keeps _) rfl ?_
    exact h2
  · exact Keeps.refl _ _

def execDllLockRetry_parts : List Part := [.clk]

theorem execDllLockRetry_keeps (sc : Fin 16) (s0 : State) :
    KeepsOut execDllLockRetry_parts s0 (execDllLockRetry sc s0) := by
  unfold execDllLockRetry
  refine KeepsOut.next ?_
  extract_lets -lift -merge -useContext -underBinder +onlyGivenNames x0
  try clear_value x0
  refine Keeps.ite ?_ ?_
  · extract_lets -lift -merge -useContext -underBinder +onlyGivenNames x1
    try clear_value x1
    refine Keeps.via (Keeps.upd_clk _ _) rfl ?_
    exact Keeps.refl _ _
  · exact Keeps.refl _ _

def State.endBars_parts : List Part := [.cal]

theorem State.endBars_keeps (s0 : State) :
    Keeps State.endBars_parts s0 (State.endBars s0) := by
  unfold State.endBars
  extract_lets -lift -merge -useContext -underBinder +onlyGivenNames x0
  try clear_value x0
  refine Keeps.ite ?_ ?_
  · exact Keeps.refl _ _
  · refine Keeps.foldS _ _ ?_ (fun t1 y1 h1 => ?_)
    · refine Keeps.via (Keeps.upd_cal _ _) rfl ?_
      exact Keeps.refl _ _
    · refine Keeps.via (State.makeDue_keeps _ _) rfl ?_
      exact h1

def State.dropLocks_parts : List Part := [.reg Reg.CLK_STAT]

theorem State.dropLocks_keeps (s0 : State) (cause : ℕ) :
    Keeps State.dropLocks_parts s0 (State.dropLocks s0 cause) := by
  unfold State.dropLocks
  refine Keeps.ite ?_ ?_
  · refine Keeps.via (State.setFld_keeps _ _ _) rfl ?_
    refine Keeps.via (State.setFld_keeps _ _ _) rfl ?_
    exact Keeps.refl _ _
  · exact Keeps.refl _ _

def State.moreEmergency_parts : List Part := [.clk, .reg Reg.CLK_STAT]

theorem State.moreEmergency_keeps (s0 : State) (cause : ℕ) :
    Keeps State.moreEmergency_parts s0 (State.moreEmergency s0 cause) := by
  unfold State.moreEmergency
  refine Keeps.ite ?_ ?_
  · exact Keeps.refl _ _
  · extract_lets -lift -merge -useContext -underBinder +onlyGivenNames x0
    have h0 : Keeps State.moreEmergency_parts s0 x0 := by
      unfold x0
      refine Keeps.via (State.dropLocks_keeps _ _) rfl ?_
      exact Keeps.refl _ _
    extract_lets -lift -merge -useContext -underBinder +onlyGivenNames x1 x2
    have h2 : Keeps State.moreEmergency_parts s0 x2 := by
      unfold x2
      refine Keeps.via (Keeps.upd_clk _ _) rfl ?_
      exact h0
    refine Keeps.via (State.setFld_keeps _ _ _) rfl ?_
    exact h2

def State.startEmergency_parts : List Part := [.log, .sb, .links, .twin, .ord, .mir, .sch, .cal, .clk, .reg Reg.GLB_EVENT, .reg Reg.GLB_DIRSTAT, .reg Reg.ORD_FWD, .reg Reg.ORD_LINEHOLD, .reg Reg.CAL_ABANDONED, .reg Reg.ECC_SEALFAIL, .reg Reg.ECC_FIRSTFAIL, .reg Reg.CLK_STAT, .reg Reg.CLK_LULLSTAT, .reg Reg.CLK_EMERG, .reg Reg.LOG_RINGSTAT, .reg Reg.LOG_CAPTURED, .reg Reg.LOG_COALESCED, .reg Reg.LOG_LOST, .reg Reg.LOG_ORPHANS, .reg Reg.LOG_SQUALLS]

theorem State.startEmergency_keeps (s0 : State) (cause : ℕ) :
    Keeps State.startEmergency_parts s0 (State.startEmergency s0 cause) := by
  unfold State.startEmergency
  split
  · refine Keeps.ite ?_ ?_
    · refine Keeps.via (State.moreEmergency_keeps _ _) rfl ?_
      exact Keeps.refl _ _
    · extract_lets -lift -merge -useContext -underBinder +onlyGivenNames x0 x1
      have h1 : Keeps State.startEmergency_parts s0 x1 := by
        unfold x1
        refine Keeps.via (State.dropLocks_keeps _ _) rfl ?_
        refine Keeps.via (Keeps.upd_clk _ _) rfl ?_
        exact Keeps.refl _ _
      extract_lets -lift -merge -useContext -underBinder +onlyGivenNames x2
      try clear_value x2
      extract_lets -lift -merge -useContext -underBinder +onlyGivenNames x3
      try clear_value x3
      extract_lets -lift -merge -useContext -underBinder +onlyGivenNames x4
      have h4 : Keeps State.startEmergency_parts s0 x4 := by
        unfold x4
        refine Keeps.via (State.event_keeps _ _ _) rfl ?_
        refine Keeps.via (State.bump_keeps _ _ _) rfl ?_
        exact h1
      extract_lets -lift -merge -useContext -underBinder +onlyGivenNames x5 x6
      have h6 : Keeps State.startEmergency_parts s0 x6 := by
        unfold x6
        refine Keeps.ite ?_ ?_
        · refine Keeps.via (State.setFld_keeps _ _ _) rfl ?_
          refine Keeps.via (Keeps.upd_clk _ _) rfl ?_
          exact h4
        · exact h4
      extract_lets -lift -merge -useContext -underBinder +onlyGivenNames x7
      have h7 : Keeps State.startEmergency_parts s0 x7 := by
        unfold x7
        refine Keeps.ite ?_ ?_
        · refine Keeps.via (State.event_keeps _ _ _) rfl ?_
          refine Keeps.via (State.setFld_keeps _ _ _) rfl ?_
          exact h6
        · exact h6
      extract_lets -lift -merge -useContext -underBinder +onlyGivenNames x8 x9
      have h9 : Keeps State.startEmergency_parts s0 x9 := by
        unfold x9
        refine Keeps.ite ?_ ?_
        · exact h7
        · refine Keeps.via (Keeps.upd_clk _ _) rfl ?_
          exact h7
      extract_lets -lift -merge -useContext -underBinder +onlyGivenNames x10 x11
      have h11 : Keeps State.startEmergency_parts s0 x11 := by
        unfold x11
        refine Keeps.via (Keeps.upd_clk _ _) rfl ?_
        exact h9
      extract_lets -lift -merge -useContext -underBinder +onlyGivenNames x12
      have h12 : Keeps State.startEmergency_parts s0 x12 := by
        unfold x12
        refine Keeps.ite ?_ ?_
        · exact h11
        · refine Keeps.via (State.holdAll_keeps _) rfl ?_
          exact h11
      refine Keeps.via (State.setFld_keeps _ _ _) rfl ?_
      exact h12
  · refine Keeps.ite ?_ ?_
    · refine Keeps.via (State.moreEmergency_keeps _ _) rfl ?_
      exact Keeps.refl _ _
    · extract_lets -lift -merge -useContext -underBinder +onlyGivenNames x13 x14
      have h14 : Keeps State.startEmergency_parts s0 x14 := by
        unfold x14
        refine Keeps.via (State.dropLocks_keeps _ _) rfl ?_
        refine Keeps.via (Keeps.upd_clk _ _) rfl ?_
        exact Keeps.refl _ _
      extract_lets -lift -merge -useContext -underBinder +onlyGivenNames x15
      try clear_value x15
      extract_lets -lift -merge -useContext -underBinder +onlyGivenNames x16
      try clear_value x16
      extract_lets -lift -merge -useContext -underBinder +onlyGivenNames x17
      have h17 : Keeps State.startEmergency_parts s0 x17 := by
        unfold x17
        refine Keeps.via (State.event_keeps _ _ _) rfl ?_
        refine Keeps.via (State.bump_keeps _ _ _) rfl ?_
        exact h14
      extract_lets -lift -merge -useContext -underBinder +onlyGivenNames x18 x19
      have h19 : Keeps State.startEmergency_parts s0 x19 := by
        unfold x19
        refine Keeps.ite ?_ ?_
        · refine Keeps.via (State.setFld_keeps _ _ _) rfl ?_
          refine Keeps.via (Keeps.upd_clk _ _) rfl ?_
          exact h17
        · exact h17
      extract_lets -lift -merge -useContext -underBinder +onlyGivenNames x20
      have h20 : Keeps State.startEmergency_parts s0 x20 := by
        unfold x20
        refine Keeps.ite ?_ ?_
        · refine Keeps.via (State.event_keeps _ _ _) rfl ?_
          refine Keeps.via (State.setFld_keeps _ _ _) rfl ?_
          exact h19
        · exact h19
      extract_lets -lift -merge -useContext -underBinder +onlyGivenNames x21 x22
      have h22 : Keeps State.startEmergency_parts s0 x22 := by
        unfold x22
        refine Keeps.ite ?_ ?_
        · exact h20
        · refine Keeps.via (Keeps.upd_clk _ _) rfl ?_
          exact h20
      extract_lets -lift -merge -useContext -underBinder +onlyGivenNames x23 x24
      have h24 : Keeps State.startEmergency_parts s0 x24 := by
        unfold x24
        refine Keeps.via (Keeps.upd_clk _ _) rfl ?_
        exact h22
      extract_lets -lift -merge -useContext -underBinder +onlyGivenNames x25
      have h25 : Keeps State.startEmergency_parts s0 x25 := by
        unfold x25
        refine Keeps.ite ?_ ?_
        · exact h24
        · refine Keeps.via (State.holdAll_keeps _) rfl ?_
          exact h24
      refine Keeps.via (State.setFld_keeps _ _ _) rfl ?_
      exact h25
  · refine Keeps.ite ?_ ?_
    · refine Keeps.via (State.moreEmergency_keeps _ _) rfl ?_
      exact Keeps.refl _ _
    · extract_lets -lift -merge -useContext -underBinder +onlyGivenNames x26 x27
      have h27 : Keeps State.startEmergency_parts s0 x27 := by
        unfold x27
        refine Keeps.via (State.dropLocks_keeps _ _) rfl ?_
        refine Keeps.via (Keeps.upd_clk _ _) rfl ?_
        exact Keeps.refl _ _
      extract_lets -lift -merge -useContext -underBinder +onlyGivenNames x28
      try clear_value x28
      extract_lets -lift -merge -useContext -underBinder +onlyGivenNames x29
      try clear_value x29
      extract_lets -lift -merge -useContext -underBinder +onlyGivenNames x30
      have h30 : Keeps State.startEmergency_parts s0 x30 := by
        unfold x30
        refine Keeps.via (State.event_keeps _ _ _) rfl ?_
        refine Keeps.via (State.bump_keeps _ _ _) rfl ?_
        exact h27
      extract_lets -lift -merge -useContext -underBinder +onlyGivenNames x31 x32
      have h32 : Keeps State.startEmergency_parts s0 x32 := by
        unfold x32
        refine Keeps.ite ?_ ?_
        · refine Keeps.via (State.setFld_keeps _ _ _) rfl ?_
          refine Keeps.via (Keeps.upd_clk _ _) rfl ?_
          exact h30
        · exact h30
      extract_lets -lift -merge -useContext -underBinder +onlyGivenNames x33
      have h33 : Keeps State.startEmergency_parts s0 x33 := by
        unfold x33
        refine Keeps.ite ?_ ?_
        · refine Keeps.via (State.event_keeps _ _ _) rfl ?_
          refine Keeps.via (State.setFld_keeps _ _ _) rfl ?_
          exact h32
        · exact h32
      extract_lets -lift -merge -useContext -underBinder +onlyGivenNames x34 x35
      have h35 : Keeps State.startEmergency_parts s0 x35 := by
        unfold x35
        refine Keeps.ite ?_ ?_
        · exact h33
        · refine Keeps.via (Keeps.upd_clk _ _) rfl ?_
          exact h33
      extract_lets -lift -merge -useContext -underBinder +onlyGivenNames x36 x37
      have h37 : Keeps State.startEmergency_parts s0 x37 := by
        unfold x37
        refine Keeps.via (Keeps.upd_clk _ _) rfl ?_
        exact h35
      extract_lets -lift -merge -useContext -underBinder +onlyGivenNames x38
      have h38 : Keeps State.startEmergency_parts s0 x38 := by
        unfold x38
        refine Keeps.ite ?_ ?_
        · exact h37
        · refine Keeps.via (State.holdAll_keeps _) rfl ?_
          exact h37
      refine Keeps.via (State.setFld_keeps _ _ _) rfl ?_
      exact h38
  · refine Keeps.ite ?_ ?_
    · refine Keeps.via (State.moreEmergency_keeps _ _) rfl ?_
      exact Keeps.refl _ _
    · extract_lets -lift -merge -useContext -underBinder +onlyGivenNames x39 x40
      have h40 : Keeps State.startEmergency_parts s0 x40 := by
        unfold x40
        refine Keeps.via (State.dropLocks_keeps _ _) rfl ?_
        refine Keeps.via (Keeps.upd_clk _ _) rfl ?_
        exact Keeps.refl _ _
      extract_lets -lift -merge -useContext -underBinder +onlyGivenNames x41
      try clear_value x41
      extract_lets -lift -merge -useContext -underBinder +onlyGivenNames x42
      try clear_value x42
      extract_lets -lift -merge -useContext -underBinder +onlyGivenNames x43
      have h43 : Keeps State.startEmergency_parts s0 x43 := by
        unfold x43
        refine Keeps.via (State.event_keeps _ _ _) rfl ?_
        refine Keeps.via (State.bump_keeps _ _ _) rfl ?_
        exact h40
      extract_lets -lift -merge -useContext -underBinder +onlyGivenNames x44 x45
      have h45 : Keeps State.startEmergency_parts s0 x45 := by
        unfold x45
        refine Keeps.ite ?_ ?_
        · refine Keeps.via (State.setFld_keeps _ _ _) rfl ?_
          refine Keeps.via (Keeps.upd_clk _ _) rfl ?_
          exact h43
        · exact h43
      extract_lets -lift -merge -useContext -underBinder +onlyGivenNames x46
      have h46 : Keeps State.startEmergency_parts s0 x46 := by
        unfold x46
        refine Keeps.ite ?_ ?_
        · refine Keeps.via (State.event_keeps _ _ _) rfl ?_
          refine Keeps.via (State.setFld_keeps _ _ _) rfl ?_
          exact h45
        · exact h45
      extract_lets -lift -merge -useContext -underBinder +onlyGivenNames x47 x48
      have h48 : Keeps State.startEmergency_parts s0 x48 := by
        unfold x48
        refine Keeps.ite ?_ ?_
        · exact h46
        · refine Keeps.via (Keeps.upd_clk _ _) rfl ?_
          exact h46
      extract_lets -lift -merge -useContext -underBinder +onlyGivenNames x49 x50
      have h50 : Keeps State.startEmergency_parts s0 x50 := by
        unfold x50
        refine Keeps.via (Keeps.upd_clk _ _) rfl ?_
        exact h48
      extract_lets -lift -merge -useContext -underBinder +onlyGivenNames x51
      have h51 : Keeps State.startEmergency_parts s0 x51 := by
        unfold x51
        refine Keeps.ite ?_ ?_
        · exact h50
        · refine Keeps.via (State.holdAll_keeps _) rfl ?_
          exact h50
      refine Keeps.via (State.setFld_keeps _ _ _) rfl ?_
      exact h51
  · exact Keeps.refl _ _

def execRefclkLost_parts : List Part := [.log, .sb, .links, .twin, .ord, .mir, .sch, .cal, .clk, .reg Reg.GLB_EVENT, .reg Reg.GLB_DIRSTAT, .reg Reg.ORD_FWD, .reg Reg.ORD_LINEHOLD, .reg Reg.CAL_ABANDONED, .reg Reg.ECC_SEALFAIL, .reg Reg.ECC_FIRSTFAIL, .reg Reg.CLK_STAT, .reg Reg.CLK_LULLSTAT, .reg Reg.CLK_EMERG, .reg Reg.CLK_REFLOSS, .reg Reg.LOG_RINGSTAT, .reg Reg.LOG_CAPTURED, .reg Reg.LOG_COALESCED, .reg Reg.LOG_LOST, .reg Reg.LOG_ORPHANS, .reg Reg.LOG_SQUALLS]

theorem execRefclkLost_keeps (s0 : State) :
    KeepsOut execRefclkLost_parts s0 (execRefclkLost s0) := by
  unfold execRefclkLost
  refine KeepsOut.next ?_
  extract_lets -lift -merge -useContext -underBinder +onlyGivenNames x0 x1
  have h1 : Keeps execRefclkLost_parts s0 x1 := by
    unfold x1
    refine Keeps.via (Keeps.upd_clk _ _) rfl ?_
    exact Keeps.refl _ _
  refine Keeps.ite ?_ ?_
  · extract_lets -lift -merge -useContext -underBinder +onlyGivenNames x2
    have h2 : Keeps execRefclkLost_parts s0 x2 := by
      unfold x2
      refine Keeps.via (State.bump_keeps _ _ _) rfl ?_
      refine Keeps.via (State.setFld_keeps _ _ _) rfl ?_
      exact h1
    refine Keeps.via (State.startEmergency_keeps _ _) rfl ?_
    refine Keeps.via (State.event_keeps _ _ _) rfl ?_
    exact h2
  · exact h1

def execPllLossOfLock_parts : List Part := [.log, .sb, .links, .twin, .ord, .mir, .sch, .cal, .clk, .reg Reg.GLB_EVENT, .reg Reg.GLB_DIRSTAT, .reg Reg.ORD_FWD, .reg Reg.ORD_LINEHOLD, .reg Reg.CAL_ABANDONED, .reg Reg.ECC_SEALFAIL, .reg Reg.ECC_FIRSTFAIL, .reg Reg.CLK_STAT, .reg Reg.CLK_LULLSTAT, .reg Reg.CLK_EMERG, .reg Reg.LOG_RINGSTAT, .reg Reg.LOG_CAPTURED, .reg Reg.LOG_COALESCED, .reg Reg.LOG_LOST, .reg Reg.LOG_ORPHANS, .reg Reg.LOG_SQUALLS]

theorem execPllLossOfLock_keeps (pll : PllName) (attempts : BitVec 2) (s0 : State) :
    KeepsOut execPllLossOfLock_parts s0 (execPllLossOfLock pll attempts s0) := by
  unfold execPllLossOfLock
  refine KeepsOut.next ?_
  refine Keeps.ite ?_ ?_
  · split
    · refine Keeps.via (State.startEmergency_keeps _ _) rfl ?_
      refine Keeps.via (State.event_keeps _ _ _) rfl ?_
      refine Keeps.via (State.setFld_keeps _ _ _) rfl ?_
      exact Keeps.refl _ _
    · refine Keeps.via (State.startEmergency_keeps _ _) rfl ?_
      refine Keeps.via (State.event_keeps _ _ _) rfl ?_
      refine Keeps.via (State.setFld_keeps _ _ _) rfl ?_
      exact Keeps.refl _ _
  · exact Keeps.refl _ _

def State.releaseForGust_parts : List Part := [.log, .sb, .links, .twin, .ord, .mir, .sch, .cal, .clk, .reg Reg.GLB_EVENT, .reg Reg.GLB_DIRSTAT, .reg Reg.ORD_FWD, .reg Reg.ORD_LINEHOLD, .block 0x5, .block 0x8, .reg Reg.CLK_STAT, .reg Reg.CLK_LULLSTAT, .reg Reg.CLK_LULLS, .reg Reg.LOG_RINGSTAT, .reg Reg.LOG_CAPTURED, .reg Reg.LOG_COALESCED, .reg Reg.LOG_LOST, .reg Reg.LOG_ORPHANS, .reg Reg.LOG_SQUALLS]

theorem State.releaseForGust_keeps (s0 : State) :
    Keeps State.releaseForGust_parts s0 (State.releaseForGust s0) := by
  unfold State.releaseForGust
  unfold State.endLullWith
  extract_lets -lift -merge -useContext -underBinder +onlyGivenNames x0
  try clear_value x0
  extract_lets -lift -merge -useContext -underBinder +onlyGivenNames x1
  try clear_value x1
  extract_lets -lift -merge -useContext -underBinder +onlyGivenNames x2
  have h2 : Keeps State.releaseForGust_parts s0 x2 := by
    unfold x2
    refine Keeps.foldS _ _ ?_ (fun t3 y3 h3 => ?_)
    · refine Keeps.via (State.switchSet_keeps _) rfl ?_
      refine Keeps.via (State.restartCk_keeps _) rfl ?_
      exact Keeps.refl _ _
    · try dsimp -zeta -proj -iota -eta only
      refine Keeps.ite ?_ ?_
      · exact h3
      · refine Keeps.via (State.writeSettings_keeps _ _ _) rfl ?_
        refine Keeps.via (State.wakeSub_keeps _ _) rfl ?_
        exact h3
  extract_lets -lift -merge -useContext -underBinder +onlyGivenNames x4 x5
  have h5 : Keeps State.releaseForGust_parts s0 x5 := by
    unfold x5
    refine Keeps.via (Keeps.upd_cal _ _) rfl ?_
    exact h2
  extract_lets -lift -merge -useContext -underBinder +onlyGivenNames x6
  have h6 : Keeps State.releaseForGust_parts s0 x6 := by
    unfold x6
    refine Keeps.via (State.noteLull_keeps _) rfl ?_
    exact h5
  extract_lets -lift -merge -useContext -underBinder +onlyGivenNames x7
  try clear_value x7
  extract_lets -lift -merge -useContext -underBinder +onlyGivenNames x8
  try clear_value x8
  extract_lets -lift -merge -useContext -underBinder +onlyGivenNames x9
  try clear_value x9
  extract_lets -lift -merge -useContext -underBinder +onlyGivenNames x10 x11 x12
  have h10 : Keeps State.releaseForGust_parts s0 x10 := by
    unfold x10
    refine Keeps.via (State.setFld_keeps _ _ _) rfl ?_
    refine Keeps.via (State.bump_keeps _ _ _) rfl ?_
    exact h6
  have h11 : Keeps State.releaseForGust_parts s0 x11 := by
    unfold x11
    refine Keeps.via (State.setFld_keeps _ _ _) rfl ?_
    exact h10
  have h12 : Keeps State.releaseForGust_parts s0 x12 := by
    unfold x12
    refine Keeps.ite ?_ ?_
    · refine Keeps.via (State.event_keeps _ _ _) rfl ?_
      exact h11
    · exact h6
  extract_lets -lift -merge -useContext -underBinder +onlyGivenNames x13
  have h13 : Keeps State.releaseForGust_parts s0 x13 := by
    unfold x13
    refine Keeps.ite ?_ ?_
    · refine Keeps.via (State.event_keeps _ _ _) rfl ?_
      exact h12
    · exact h12
  refine Keeps.via (State.setFld_keeps _ _ _) rfl ?_
  refine Keeps.via (Keeps.upd_clk _ _) rfl ?_
  exact h13

def State.emergencyBack_parts : List Part := [.clk, .block 0x9]

theorem State.emergencyBack_keeps (s0 : State) :
    Keeps State.emergencyBack_parts s0 (State.emergencyBack s0) := by
  unfold State.emergencyBack
  extract_lets -lift -merge -useContext -underBinder +onlyGivenNames x0
  have h0 : Keeps State.emergencyBack_parts s0 x0 := by
    unfold x0
    refine Keeps.via (State.commit_keeps _ _ _) rfl ?_
    refine Keeps.via (State.unlockAll_keeps _) rfl ?_
    refine Keeps.via (State.setFld_keeps _ _ _) rfl ?_
    exact Keeps.refl _ _
  extract_lets -lift -merge -useContext -underBinder +onlyGivenNames x1 x2
  have h2 : Keeps State.emergencyBack_parts s0 x2 := by
    unfold x2
    refine Keeps.via (Keeps.upd_clk _ _) rfl ?_
    exact h0
  refine Keeps.via (State.setFld_keeps _ _ _) rfl ?_
  refine Keeps.via (State.setFld_keeps _ _ _) rfl ?_
  exact h2

def State.relockFree_parts : List Part := [.free, .log, .sb, .clk, .reg Reg.GLB_EVENT, .reg Reg.GLB_DIRSTAT, .block 0x9, .reg Reg.LOG_RINGSTAT, .reg Reg.LOG_CAPTURED, .reg Reg.LOG_COALESCED, .reg Reg.LOG_LOST, .reg Reg.LOG_ORPHANS, .reg Reg.LOG_SQUALLS]

theorem State.relockFree_keeps (s0 : State) :
    Keeps State.relockFree_parts s0 (State.relockFree s0) := by
  unfold State.relockFree
  extract_lets -lift -merge -useContext -underBinder +onlyGivenNames x0
  have h0 : Keeps State.relockFree_parts s0 x0.2 := by
    unfold x0
    refine Keeps.via (State.draw_keeps _) rfl ?_
    exact Keeps.refl _ _
  extract_lets -lift -merge -useContext -underBinder +onlyGivenNames x1
  try clear_value x1
  extract_lets -lift -merge -useContext -underBinder +onlyGivenNames x2
  have h2 : Keeps State.relockFree_parts s0 x2.1 := by
    unfold x2
    refine Keeps.via (State.relock_keeps _ _ _) rfl ?_
    exact h0
  refine Keeps.ite ?_ ?_
  · exact h2
  · refine Keeps.via (State.relock_keeps _ _ _) rfl ?_
    exact h0

def execEmergencyRelock_parts : List Part := [.free, .log, .sb, .links, .twin, .ord, .mir, .sch, .cal, .clk, .reg Reg.GLB_EVENT, .reg Reg.GLB_DIRSTAT, .reg Reg.ORD_FWD, .reg Reg.ORD_LINEHOLD, .block 0x5, .block 0x8, .block 0x9, .reg Reg.LOG_RINGSTAT, .reg Reg.LOG_CAPTURED, .reg Reg.LOG_COALESCED, .reg Reg.LOG_LOST, .reg Reg.LOG_ORPHANS, .reg Reg.LOG_SQUALLS]

theorem execEmergencyRelock_keeps (s0 : State) :
    KeepsOut execEmergencyRelock_parts s0 (execEmergencyRelock s0) := by
  unfold execEmergencyRelock
  refine KeepsOut.next ?_
  refine Keeps.ite ?_ ?_
  · extract_lets -lift -merge -useContext -underBinder +onlyGivenNames x0
    try clear_value x0
    extract_lets -lift -merge -useContext -underBinder +onlyGivenNames x1
    have h1 : Keeps execEmergencyRelock_parts s0 x1 := by
      unfold x1
      refine Keeps.via (State.unlockAll_keeps _) rfl ?_
      refine Keeps.via (State.setFld_keeps _ _ _) rfl ?_
      exact Keeps.refl _ _
    extract_lets -lift -merge -useContext -underBinder +onlyGivenNames x2
    have h2 : Keeps execEmergencyRelock_parts s0 x2 := by
      unfold x2
      refine Keeps.via (State.setFld_keeps _ _ _) rfl ?_
      refine Keeps.via (State.relockFree_keeps _) rfl ?_
      refine Keeps.via (State.commit_keeps _ _ _) rfl ?_
      exact h1
    extract_lets -lift -merge -useContext -underBinder +onlyGivenNames x3
    have h3 : Keeps execEmergencyRelock_parts s0 x3 := by
      unfold x3
      refine Keeps.via (State.setFld_keeps _ _ _) rfl ?_
      refine Keeps.via (State.restartCk_keeps _) rfl ?_
      refine Keeps.via (State.setFld_keeps _ _ _) rfl ?_
      exact h2
    extract_lets -lift -merge -useContext -underBinder +onlyGivenNames x4 x5
    have h5 : Keeps execEmergencyRelock_parts s0 x5 := by
      unfold x5
      refine Keeps.via (Keeps.upd_clk _ _) rfl ?_
      exact h3
    refine Keeps.ite ?_ ?_
    · refine Keeps.via (State.releaseForGust_keeps _) rfl ?_
      exact h5
    · refine Keeps.ite ?_ ?_
      · refine Keeps.via (State.emergencyBack_keeps _) rfl ?_
        exact h5
      · exact h5
  · exact Keeps.refl _ _

def execBypclkLost_parts : List Part := [.clk, .reg Reg.CLK_STAT]

theorem execBypclkLost_keeps (s0 : State) :
    KeepsOut execBypclkLost_parts s0 (execBypclkLost s0) := by
  unfold execBypclkLost
  refine KeepsOut.next ?_
  extract_lets -lift -merge -useContext -underBinder +onlyGivenNames x0
  have h0 : Keeps execBypclkLost_parts s0 x0 := by
    unfold x0
    refine Keeps.via (State.setFld_keeps _ _ _) rfl ?_
    exact Keeps.refl _ _
  refine Keeps.ite ?_ ?_
  · refine Keeps.via (State.setFld_keeps _ _ _) rfl ?_
    refine Keeps.via (Keeps.upd_clk _ _) rfl ?_
    exact h0
  · exact h0

def execPllLockQualified_parts : List Part := [.clk, .block 0x9]

theorem execPllLockQualified_keeps (s0 : State) :
    KeepsOut execPllLockQualified_parts s0 (execPllLockQualified s0) := by
  unfold execPllLockQualified
  refine KeepsOut.next ?_
  refine Keeps.ite ?_ ?_
  · refine Keeps.via (State.emergencyBack_keeps _) rfl ?_
    exact Keeps.refl _ _
  · exact Keeps.refl _ _

def execEmergencySecond_parts : List Part := [.log, .sb, .reg Reg.GLB_EVENT, .reg Reg.GLB_DIRSTAT, .reg Reg.LOG_RINGSTAT, .reg Reg.LOG_CAPTURED, .reg Reg.LOG_COALESCED, .reg Reg.LOG_LOST, .reg Reg.LOG_ORPHANS, .reg Reg.LOG_SQUALLS]

theorem execEmergencySecond_keeps (s0 : State) :
    KeepsOut execEmergencySecond_parts s0 (execEmergencySecond s0) := by
  unfold execEmergencySecond
  refine KeepsOut.next ?_
  refine Keeps.ite ?_ ?_
  · refine Keeps.via (State.event_keeps _ _ _) rfl ?_
    exact Keeps.refl _ _
  · exact Keeps.refl _ _

def State.triggerLull_parts : List Part := [.log, .sb, .links, .twin, .ord, .mir, .sch, .cal, .clk, .reg Reg.GLB_EVENT, .reg Reg.GLB_DIRSTAT, .reg Reg.ORD_FWD, .reg Reg.ORD_LINEHOLD, .block 0x5, .block 0x8, .reg Reg.CLK_STAT, .reg Reg.CLK_LULLSTAT, .reg Reg.CLK_LULLS, .reg Reg.LOG_RINGSTAT, .reg Reg.LOG_CAPTURED, .reg Reg.LOG_COALESCED, .reg Reg.LOG_LOST, .reg Reg.LOG_ORPHANS, .reg Reg.LOG_SQUALLS]

theorem State.triggerLull_keeps (s0 : State) :
    Keeps State.triggerLull_parts s0 (State.triggerLull s0) := by
  unfold State.triggerLull
  refine Keeps.ite ?_ ?_
  · extract_lets -lift -merge -useContext -underBinder +onlyGivenNames x0
    have h0 : Keeps State.triggerLull_parts s0 x0 := by
      unfold x0
      refine Keeps.via (State.setFld_keeps _ _ _) rfl ?_
      refine Keeps.via (State.setFld_keeps _ _ _) rfl ?_
      exact Keeps.refl _ _
    extract_lets -lift -merge -useContext -underBinder +onlyGivenNames x1
    have h1 : Keeps State.triggerLull_parts s0 x1 := by
      unfold x1
      refine Keeps.via (State.event_keeps _ _ _) rfl ?_
      exact h0
    refine Keeps.via (State.releaseForGust_keeps _) rfl ?_
    refine Keeps.via (Keeps.upd_clk _ _) rfl ?_
    exact h1
  · refine Keeps.ite ?_ ?_
    · refine Keeps.via (State.releaseForGust_keeps _) rfl ?_
      exact Keeps.refl _ _
    · exact Keeps.refl _ _

end Sys2Proof.Machine
end

