-- ==== Sys2Proof/Laws/KeepsFlash.lean ====
section
/-!
SUPPORT. The frames of the operations of Machine/Flash.lean: the parts of the state each may change, and that each keeps the canonical
form. A proof of a frame cites these and unfolds nothing.
-/

namespace Sys2Proof.Machine

def State.tear_parts : List Part := [.free, .flash]

theorem State.tear_keeps (s0 : State) :
    Keeps State.tear_parts s0 (State.tear s0) := by
  unfold State.tear
  refine Keeps.ite ?_ ?_
  · exact Keeps.refl _ _
  · extract_lets -lift -merge -useContext -underBinder +onlyGivenNames x0
    have h0 : Keeps State.tear_parts s0 x0.2 := by
      unfold x0
      refine Keeps.via (State.draw_keeps _) rfl ?_
      exact Keeps.refl _ _
    refine Keeps.ite ?_ ?_
    · extract_lets -lift -merge -useContext -underBinder +onlyGivenNames x1
      try clear_value x1
      refine Keeps.via (State.program_keeps _ _ _) rfl ?_
      extract_lets -lift -merge -useContext -underBinder +onlyGivenNames x2
      have h2 : Keeps State.tear_parts s0 x2 := by
        unfold x2
        exact h0
      refine Keeps.via (Keeps.upd_free _ _) rfl ?_
      exact h2
    · exact h0

end Sys2Proof.Machine
end

