-- ==== Sys2Proof/Laws/KeepsRails.lean ====
section
/-!
SUPPORT. The frames of the operations of Machine/Rails.lean: the parts of the state each may change, and that each keeps the canonical
form. A proof of a frame cites these and unfolds nothing.
-/

namespace Sys2Proof.Machine

def State.setRail_parts : List Part := [.pwr, .reg Reg.PWR_RAILSTAT]

theorem State.setRail_keeps (s0 : State) (n : ℕ) (r : RailState) :
    Keeps State.setRail_parts s0 (State.setRail s0 n r) := by
  unfold State.setRail
  extract_lets -lift -merge -useContext -underBinder +onlyGivenNames x0 x1
  have h1 : Keeps State.setRail_parts s0 x1 := by
    unfold x1
    refine Keeps.via (Keeps.upd_pwr _ _) rfl ?_
    exact Keeps.refl _ _
  refine Keeps.via (State.setFld_keeps _ _ _) rfl ?_
  exact h1

def State.driveEn_parts : List Part := [.reg Reg.PWR_SEQSTAT]

theorem State.driveEn_keeps (s0 : State) (n : ℕ) (b : Bool) :
    Keeps State.driveEn_parts s0 (State.driveEn s0 n b) := by
  unfold State.driveEn
  refine Keeps.ite ?_ ?_
  · exact Keeps.refl _ _
  · refine Keeps.via (State.setFldBit_keeps _ _ _ _) rfl ?_
    exact Keeps.refl _ _

def State.setValid_parts : List Part := [.log, .sb, .vbat, .reg Reg.GLB_EVENT, .reg Reg.GLB_DIRSTAT, .reg Reg.PWR_HOLD, .reg Reg.LOG_RINGSTAT, .reg Reg.LOG_CAPTURED, .reg Reg.LOG_COALESCED, .reg Reg.LOG_LOST, .reg Reg.LOG_ORPHANS, .reg Reg.LOG_SQUALLS]

theorem State.setValid_keeps (s0 : State) :
    Keeps State.setValid_parts s0 (State.setValid s0) := by
  unfold State.setValid
  extract_lets -lift -merge -useContext -underBinder +onlyGivenNames x0 x1
  have h1 : Keeps State.setValid_parts s0 x1 := by
    unfold x1
    refine Keeps.via (Keeps.upd_vbat _ _) rfl ?_
    exact Keeps.refl _ _
  refine Keeps.via (State.event_keeps _ _ _) rfl ?_
  refine Keeps.via (State.setFld_keeps _ _ _) rfl ?_
  exact h1

def State.clearValid_parts : List Part := [.vbat, .reg Reg.PWR_HOLD]

theorem State.clearValid_keeps (s0 : State) (reason : BitVec 4) :
    Keeps State.clearValid_parts s0 (State.clearValid s0 reason) := by
  unfold State.clearValid
  extract_lets -lift -merge -useContext -underBinder +onlyGivenNames x0 x1
  have h1 : Keeps State.clearValid_parts s0 x1 := by
    unfold x1
    refine Keeps.via (Keeps.upd_vbat _ _) rfl ?_
    exact Keeps.refl _ _
  refine Keeps.via (State.setFld_keeps _ _ _) rfl ?_
  exact h1

def State.noteClearing_parts : List Part := [.free, .log, .sb, .vbat, .reg Reg.GLB_EVENT, .reg Reg.GLB_DIRSTAT, .reg Reg.LOG_RINGSTAT, .reg Reg.LOG_CAPTURED, .reg Reg.LOG_COALESCED, .reg Reg.LOG_LOST, .reg Reg.LOG_ORPHANS, .reg Reg.LOG_SQUALLS]

theorem State.noteClearing_keeps (s0 : State) :
    Keeps State.noteClearing_parts s0 (State.noteClearing s0) := by
  unfold State.noteClearing
  refine Keeps.via (State.freeEvent_keeps _ _) rfl ?_
  refine Keeps.via (Keeps.upd_vbat _ _) rfl ?_
  exact Keeps.refl _ _

def State.coreStop_parts : List Part := [.rx, .free, .top, .log, .links, .twin, .ord, .map, .mir, .sch, .flt, .cal, .clk, .boot, .flash, .regs]

theorem State.coreStop_keeps (s0 : State) :
    Keeps State.coreStop_parts s0 (State.coreStop s0) := by
  unfold State.coreStop
  extract_lets -lift -merge -useContext -underBinder +onlyGivenNames x0
  have h0 : Keeps State.coreStop_parts s0 x0 := by
    unfold x0
    refine Keeps.via (State.setFld_keeps _ _ _) rfl ?_
    refine Keeps.via (State.tear_keeps _) rfl ?_
    exact Keeps.refl _ _
  extract_lets -lift -merge -useContext -underBinder +onlyGivenNames x1
  have h1 : Keeps State.coreStop_parts s0 x1 := by
    unfold x1
    refine Keeps.via (Keeps.stop_regs _) rfl ?_
    exact h0
  extract_lets -lift -merge -useContext -underBinder +onlyGivenNames x2
  have h2 : Keeps State.coreStop_parts s0 x2 := by
    unfold x2
    refine Keeps.via (Keeps.clear_links _) rfl ?_
    exact h1
  refine Keeps.via (Keeps.upd_rx_top_log_twin_ord_map_mir_sch_flt_cal_clk_boot _ _ _ _ _ _ _ _ _ _ _ _ _) rfl ?_
  exact h2

def State.coreStart_parts : List Part := [.free, .top, .time, .clk, .reg Reg.CLK_STAT]

theorem State.coreStart_keeps (s0 : State) :
    Keeps State.coreStart_parts s0 (State.coreStart s0) := by
  unfold State.coreStart
  extract_lets -lift -merge -useContext -underBinder +onlyGivenNames x0
  have h0 : Keeps State.coreStart_parts s0 x0.2 := by
    unfold x0
    refine Keeps.via (State.draw_keeps _) rfl ?_
    exact Keeps.refl _ _
  extract_lets -lift -merge -useContext -underBinder +onlyGivenNames x1
  try clear_value x1
  extract_lets -lift -merge -useContext -underBinder +onlyGivenNames x2
  have h2 : Keeps State.coreStart_parts s0 x2 := by
    unfold x2
    exact h0
  extract_lets -lift -merge -useContext -underBinder +onlyGivenNames x3 x4 x5 x6
  have h6 : Keeps State.coreStart_parts s0 x6 := by
    unfold x6
    refine Keeps.via (Keeps.upd_top_time_clk _ _ _ _) rfl ?_
    exact h2
  refine Keeps.via (State.setFld_keeps _ _ _) rfl ?_
  refine Keeps.via (State.setFlag_keeps _ _ _) rfl ?_
  exact h6

def State.loseDram_parts : List Part := [.sch, .fmt, .dram]

theorem State.loseDram_keeps (s0 : State) :
    Keeps State.loseDram_parts s0 (State.loseDram s0) := by
  unfold State.loseDram
  extract_lets -lift -merge -useContext -underBinder +onlyGivenNames x0
  have h0 : Keeps State.loseDram_parts s0 x0 := by
    unfold x0
    refine Keeps.via (Keeps.upd_sch _ _) rfl ?_
    exact Keeps.refl _ _
  refine Keeps.via (Keeps.clear_dram _ _) rfl ?_
  exact h0

def State.allLow_parts : List Part := [.pwr, .reg Reg.PWR_RAILSTAT, .reg Reg.PWR_SEQSTAT, .reg Reg.PWR_HOLD]

theorem State.allLow_keeps (s0 : State) :
    Keeps State.allLow_parts s0 (State.allLow s0) := by
  unfold State.allLow
  extract_lets -lift -merge -useContext -underBinder +onlyGivenNames x0 x1
  have h1 : Keeps State.allLow_parts s0 x1 := by
    unfold x1
    refine Keeps.via (Keeps.upd_pwr _ _) rfl ?_
    exact Keeps.refl _ _
  extract_lets -lift -merge -useContext -underBinder +onlyGivenNames x2
  have h2 : Keeps State.allLow_parts s0 x2 := by
    unfold x2
    refine Keeps.via (State.setFld_keeps _ _ _) rfl ?_
    refine Keeps.via (State.setReg_keeps _ _ _) rfl ?_
    exact h1
  refine Keeps.via (State.setFld_keeps _ _ _) rfl ?_
  exact h2

def State.dropTrigger_parts : List Part := [.top, .pwr, .gust]

theorem State.dropTrigger_keeps (s0 : State) :
    Keeps State.dropTrigger_parts s0 (State.dropTrigger s0) := by
  unfold State.dropTrigger
  refine Keeps.via (Keeps.upd_top_pwr_gust _ _ _ _) rfl ?_
  exact Keeps.refl _ _

def State.goDark_parts : List Part := [.rx, .free, .top, .log, .sb, .links, .twin, .ord, .map, .mir, .sch, .flt, .cal, .clk, .pwr, .gust, .fuse, .boot, .flash, .fmt, .dram, .regs]

theorem State.goDark_keeps (s0 : State) :
    Keeps State.goDark_parts s0 (State.goDark s0) := by
  unfold State.goDark
  extract_lets -lift -merge -useContext -underBinder +onlyGivenNames x0
  have h0 : Keeps State.goDark_parts s0 x0 := by
    unfold x0
    refine Keeps.via (State.goTo_keeps _ _ _) rfl ?_
    exact Keeps.refl _ _
  extract_lets -lift -merge -useContext -underBinder +onlyGivenNames x1 x2 x3
  have h3 : Keeps State.goDark_parts s0 x3 := by
    unfold x3
    refine Keeps.via (Keeps.upd_pwr_fuse _ _ _) rfl ?_
    exact h0
  extract_lets -lift -merge -useContext -underBinder +onlyGivenNames x4
  have h4 : Keeps State.goDark_parts s0 x4 := by
    unfold x4
    refine Keeps.via (State.setFld_keeps _ _ _) rfl ?_
    refine Keeps.via (State.loseDram_keeps _) rfl ?_
    refine Keeps.via (State.dropTrigger_keeps _) rfl ?_
    refine Keeps.via (State.allLow_keeps _) rfl ?_
    refine Keeps.via (State.coreStop_keeps _) rfl ?_
    exact h3
  refine Keeps.via (State.setFld_keeps _ _ _) rfl ?_
  refine Keeps.via (State.setFld_keeps _ _ _) rfl ?_
  exact h4

def State.railFault_parts : List Part := [.rx, .free, .top, .log, .sb, .links, .twin, .ord, .map, .mir, .sch, .flt, .cal, .clk, .vbat, .pwr, .gust, .boot, .flash, .fmt, .dram, .regs]

theorem State.railFault_keeps (s0 : State) (n : ℕ) (kind : BitVec 2) :
    Keeps State.railFault_parts s0 (State.railFault s0 n kind) := by
  unfold State.railFault
  extract_lets -lift -merge -useContext -underBinder +onlyGivenNames x0
  try clear_value x0
  extract_lets -lift -merge -useContext -underBinder +onlyGivenNames x1
  try clear_value x1
  extract_lets -lift -merge -useContext -underBinder +onlyGivenNames x2
  try clear_value x2
  extract_lets -lift -merge -useContext -underBinder +onlyGivenNames x3 x4 x5 x6
  have h5 : Keeps State.railFault_parts s0 x5 := by
    unfold x5
    refine Keeps.via (Keeps.upd_vbat_pwr _ _ _) rfl ?_
    exact Keeps.refl _ _
  have h6 : Keeps State.railFault_parts s0 x6 := by
    unfold x6
    refine Keeps.ite ?_ ?_
    · exact Keeps.refl _ _
    · refine Keeps.via (State.setFld_keeps _ _ _) rfl ?_
      exact h5
  extract_lets -lift -merge -useContext -underBinder +onlyGivenNames x7
  have h7 : Keeps State.railFault_parts s0 x7 := by
    unfold x7
    refine Keeps.via (State.allLow_keeps _) rfl ?_
    refine Keeps.via (State.bumpF_keeps _ _ _) rfl ?_
    exact h6
  extract_lets -lift -merge -useContext -underBinder +onlyGivenNames x8 x9
  have h9 : Keeps State.railFault_parts s0 x9 := by
    unfold x9
    refine Keeps.via (Keeps.upd_pwr _ _) rfl ?_
    exact h7
  extract_lets -lift -merge -useContext -underBinder +onlyGivenNames x10
  have h10 : Keeps State.railFault_parts s0 x10 := by
    unfold x10
    refine Keeps.via (State.goTo_keeps _ _ _) rfl ?_
    refine Keeps.via (State.clearValid_keeps _ _) rfl ?_
    exact h9
  refine Keeps.via (State.loseDram_keeps _) rfl ?_
  refine Keeps.via (State.dropTrigger_keeps _) rfl ?_
  refine Keeps.via (State.coreStop_keeps _) rfl ?_
  exact h10

def State.joinFault_parts : List Part := [.vbat, .pwr]

theorem State.joinFault_keeps (s0 : State) (watched : List ℕ) (n : ℕ) (kind : BitVec 2) :
    Keeps State.joinFault_parts s0 (State.joinFault s0 watched n kind) := by
  unfold State.joinFault
  refine Keeps.ite ?_ ?_
  · exact Keeps.refl _ _
  · extract_lets -lift -merge -useContext -underBinder +onlyGivenNames x0
    try clear_value x0
    extract_lets -lift -merge -useContext -underBinder +onlyGivenNames x1
    try clear_value x1
    refine Keeps.via (Keeps.upd_vbat_pwr _ _ _) rfl ?_
    exact Keeps.refl _ _

def State.endExc_parts : List Part := [.pwr]

theorem State.endExc_keeps (s0 : State) (k : ℕ) :
    Keeps State.endExc_parts s0 (State.endExc s0 k) := by
  unfold State.endExc
  refine Keeps.via (Keeps.upd_pwr _ _) rfl ?_
  exact Keeps.refl _ _

def execRailOutOfWindow_parts : List Part := [.rx, .free, .top, .log, .sb, .links, .twin, .ord, .map, .mir, .sch, .flt, .cal, .clk, .vbat, .pwr, .gust, .boot, .flash, .fmt, .dram, .regs]

theorem execRailOutOfWindow_keeps (rail : Fin 16) (above : Bool) (s0 : State) :
    KeepsOut execRailOutOfWindow_parts s0 (execRailOutOfWindow rail above s0) := by
  unfold execRailOutOfWindow
  refine KeepsOut.next ?_
  extract_lets -lift -merge -useContext -underBinder +onlyGivenNames x0
  try clear_value x0
  extract_lets -lift -merge -useContext -underBinder +onlyGivenNames x1
  try clear_value x1
  refine Keeps.ite ?_ ?_
  · exact Keeps.refl _ _
  · extract_lets -lift -merge -useContext -underBinder +onlyGivenNames x2
    have h2 : Keeps execRailOutOfWindow_parts s0 x2 := by
      unfold x2
      refine Keeps.via (State.setFldBit_keeps _ _ _ _) rfl ?_
      refine Keeps.via (State.endExc_keeps _ _) rfl ?_
      exact Keeps.refl _ _
    refine Keeps.ite ?_ ?_
    · refine Keeps.via (State.joinFault_keeps _ _ _ _) rfl ?_
      exact h2
    · refine Keeps.ite ?_ ?_
      · refine Keeps.ite ?_ ?_
        · exact h2
        · refine Keeps.via (State.railFault_keeps _ _ _) rfl ?_
          exact h2
      · refine Keeps.ite ?_ ?_
        · refine Keeps.via (State.event_keeps _ _ _) rfl ?_
          refine Keeps.via (State.setRail_keeps _ _ _) rfl ?_
          exact h2
        · exact h2

def execExcursionStart_parts : List Part := [.pwr, .reg Reg.PWR_RAILSTAT]

theorem execExcursionStart_keeps (input : MonInput) (s0 : State) :
    KeepsOut execExcursionStart_parts s0 (execExcursionStart input s0) := by
  unfold execExcursionStart
  refine KeepsOut.next ?_
  refine Keeps.ite ?_ ?_
  · exact Keeps.refl _ _
  · extract_lets -lift -merge -useContext -underBinder +onlyGivenNames x0
    try clear_value x0
    extract_lets -lift -merge -useContext -underBinder +onlyGivenNames x1 x2
    have h2 : Keeps execExcursionStart_parts s0 x2 := by
      unfold x2
      refine Keeps.ite ?_ ?_
      · exact Keeps.refl _ _
      · refine Keeps.via (Keeps.upd_pwr _ _) rfl ?_
        exact Keeps.refl _ _
    split
    · refine Keeps.via (State.setFldBit_keeps _ _ _ _) rfl ?_
      exact h2
    · exact h2

def execRailBackInWindow_parts : List Part := [.pwr, .reg Reg.PWR_RAILSTAT]

theorem execRailBackInWindow_keeps (input : MonInput) (s0 : State) :
    KeepsOut execRailBackInWindow_parts s0 (execRailBackInWindow input s0) := by
  unfold execRailBackInWindow
  refine KeepsOut.next ?_
  refine Keeps.ite ?_ ?_
  · exact Keeps.refl _ _
  · extract_lets -lift -merge -useContext -underBinder +onlyGivenNames x0
    have h0 : Keeps execRailBackInWindow_parts s0 x0 := by
      unfold x0
      refine Keeps.via (State.endExc_keeps _ _) rfl ?_
      exact Keeps.refl _ _
    split
    · refine Keeps.via (State.setFldBit_keeps _ _ _ _) rfl ?_
      exact h0
    · exact h0

def State.checkEnd_parts : List Part := [.pwr, .reg Reg.PWR_SEQSTAT]

theorem State.checkEnd_keeps (s0 : State) (r : ℕ) :
    Keeps State.checkEnd_parts s0 (State.checkEnd s0 r) := by
  unfold State.checkEnd
  refine Keeps.ite ?_ ?_
  · refine Keeps.via (Keeps.upd_pwr _ _) rfl ?_
    exact Keeps.refl _ _
  · refine Keeps.via (State.setFld_keeps _ _ _) rfl ?_
    refine Keeps.via (Keeps.upd_pwr _ _) rfl ?_
    exact Keeps.refl _ _

def State.startSection_parts : List Part := [.pwr, .reg Reg.PWR_SEQSTAT]

theorem State.startSection_keeps (s0 : State) (part : ℕ) :
    Keeps State.startSection_parts s0 (State.startSection s0 part) := by
  unfold State.startSection
  extract_lets -lift -merge -useContext -underBinder +onlyGivenNames x0 x1
  have h1 : Keeps State.startSection_parts s0 x1 := by
    unfold x1
    refine Keeps.via (Keeps.upd_pwr _ _) rfl ?_
    exact Keeps.refl _ _
  extract_lets -lift -merge -useContext -underBinder +onlyGivenNames x2
  try clear_value x2
  refine Keeps.via (State.checkEnd_keeps _ _) rfl ?_
  refine Keeps.via (State.setFld_keeps _ _ _) rfl ?_
  refine Keeps.via (State.setFld_keeps _ _ _) rfl ?_
  exact h1

def State.rowDone_parts : List Part := [.pwr, .reg Reg.PWR_SEQSTAT]

theorem State.rowDone_keeps (s0 : State) :
    Keeps State.rowDone_parts s0 (State.rowDone s0) := by
  unfold State.rowDone
  refine Keeps.via (State.checkEnd_keeps _ _) rfl ?_
  exact Keeps.refl _ _

def State.rowActs_parts : List Part := [.pwr, .reg Reg.PWR_SEQSTAT]

theorem State.rowActs_keeps (s0 : State) :
    Keeps State.rowActs_parts s0 (State.rowActs s0) := by
  unfold State.rowActs
  refine Keeps.ite ?_ ?_
  · refine Keeps.via (State.rowDone_keeps _) rfl ?_
    exact Keeps.refl _ _
  · refine Keeps.via (Keeps.upd_pwr _ _) rfl ?_
    exact Keeps.refl _ _

def execStartRowDelayEnd_parts : List Part := [.pwr, .reg Reg.PWR_RAILSTAT, .reg Reg.PWR_SEQSTAT]

theorem execStartRowDelayEnd_keeps (s0 : State) :
    KeepsOut execStartRowDelayEnd_parts s0 (execStartRowDelayEnd s0) := by
  unfold execStartRowDelayEnd
  refine KeepsOut.next ?_
  refine Keeps.ite ?_ ?_
  · exact Keeps.refl _ _
  · extract_lets -lift -merge -useContext -underBinder +onlyGivenNames x0
    try clear_value x0
    extract_lets -lift -merge -useContext -underBinder +onlyGivenNames x1
    try clear_value x1
    split
    · refine Keeps.ite ?_ ?_
      · refine Keeps.via (State.rowDone_keeps _) rfl ?_
        exact Keeps.refl _ _
      · extract_lets -lift -merge -useContext -underBinder +onlyGivenNames x2
        have h2 : Keeps execStartRowDelayEnd_parts s0 x2 := by
          unfold x2
          refine Keeps.via (State.setRail_keeps _ _ _) rfl ?_
          refine Keeps.via (State.driveEn_keeps _ _ _) rfl ?_
          exact Keeps.refl _ _
        refine Keeps.via (State.rowActs_keeps _) rfl ?_
        refine Keeps.via (Keeps.upd_pwr _ _) rfl ?_
        exact h2
    · refine Keeps.ite ?_ ?_
      · refine Keeps.via (State.rowActs_keeps _) rfl ?_
        refine Keeps.via (Keeps.upd_pwr _ _) rfl ?_
        exact Keeps.refl _ _
      · refine Keeps.via (State.rowDone_keeps _) rfl ?_
        exact Keeps.refl _ _
    · refine Keeps.via (State.rowDone_keeps _) rfl ?_
      exact Keeps.refl _ _

def execRailArmed_parts : List Part := [.pwr, .reg Reg.PWR_RAILSTAT, .reg Reg.PWR_SEQSTAT]

theorem execRailArmed_keeps (rail : Fin 16) (s0 : State) :
    KeepsOut execRailArmed_parts s0 (execRailArmed rail s0) := by
  unfold execRailArmed
  refine KeepsOut.next ?_
  extract_lets -lift -merge -useContext -underBinder +onlyGivenNames x0
  try clear_value x0
  refine Keeps.ite ?_ ?_
  · extract_lets -lift -merge -useContext -underBinder +onlyGivenNames x1
    try clear_value x1
    extract_lets -lift -merge -useContext -underBinder +onlyGivenNames x2
    have h2 : Keeps execRailArmed_parts s0 x2 := by
      unfold x2
      refine Keeps.via (State.setRail_keeps _ _ _) rfl ?_
      exact Keeps.refl _ _
    refine Keeps.ite ?_ ?_
    · refine Keeps.via (State.rowDone_keeps _) rfl ?_
      exact h2
    · exact h2
  · exact Keeps.refl _ _

def execRailStartTimeout_parts : List Part := [.rx, .free, .top, .log, .sb, .links, .twin, .ord, .map, .mir, .sch, .flt, .cal, .clk, .vbat, .pwr, .gust, .boot, .flash, .fmt, .dram, .regs]

theorem execRailStartTimeout_keeps (rail : Fin 16) (s0 : State) :
    KeepsOut execRailStartTimeout_parts s0 (execRailStartTimeout rail s0) := by
  unfold execRailStartTimeout
  refine KeepsOut.next ?_
  refine Keeps.ite ?_ ?_
  · refine Keeps.via (State.joinFault_keeps _ _ _ _) rfl ?_
    exact Keeps.refl _ _
  · refine Keeps.ite ?_ ?_
    · refine Keeps.via (State.railFault_keeps _ _ _) rfl ?_
      exact Keeps.refl _ _
    · exact Keeps.refl _ _

def execResetStretchEnd_parts : List Part := [.pwr, .reg Reg.PWR_SEQSTAT]

theorem execResetStretchEnd_keeps (k : Fin 4) (s0 : State) :
    KeepsOut execResetStretchEnd_parts s0 (execResetStretchEnd k s0) := by
  unfold execResetStretchEnd
  refine KeepsOut.next ?_
  refine Keeps.ite ?_ ?_
  · extract_lets -lift -merge -useContext -underBinder +onlyGivenNames x0
    try clear_value x0
    extract_lets -lift -merge -useContext -underBinder +onlyGivenNames x1 x2
    have h2 : Keeps execResetStretchEnd_parts s0 x2 := by
      unfold x2
      refine Keeps.via (Keeps.upd_pwr _ _) rfl ?_
      exact Keeps.refl _ _
    extract_lets -lift -merge -useContext -underBinder +onlyGivenNames x3
    have h3 : Keeps execResetStretchEnd_parts s0 x3 := by
      unfold x3
      refine Keeps.via (State.setFldBit_keeps _ _ _ _) rfl ?_
      exact h2
    refine Keeps.ite ?_ ?_
    · refine Keeps.via (State.rowDone_keeps _) rfl ?_
      exact h3
    · exact h3
  · exact Keeps.refl _ _

def State.bootOn_parts : List Part := [.rx, .free, .top, .time, .log, .sb, .links, .twin, .ord, .map, .mir, .sch, .flt, .cal, .clk, .pwr, .boot, .reg Reg.GLB_HUBID, .reg Reg.GLB_EVENT, .reg Reg.GLB_DIRSTAT, .reg Reg.GLB_QUIESCE, .block 0x1, .reg Reg.ORD_FWD, .reg Reg.ORD_LINEHOLD, .reg Reg.ORD_FLUSHES, .reg Reg.MIR_CAUSE, .reg Reg.MIR_PENDOCC, .reg Reg.MIR_FWDMISS, .reg Reg.MIR_HOSTAT, .reg Reg.MIR_HOCNT, .reg Reg.DPH_RETSTAT, .reg Reg.ECC_SEALFAIL, .reg Reg.ECC_FIRSTFAIL, .reg Reg.ECC_REPAIR, .reg Reg.CLK_STAT, .reg Reg.LOG_RINGSTAT, .reg Reg.LOG_CAPTURED, .reg Reg.LOG_COALESCED, .reg Reg.LOG_LOST, .reg Reg.LOG_ORPHANS, .reg Reg.LOG_SQUALLS]

theorem State.bootOn_keeps (s0 : State) :
    Keeps State.bootOn_parts s0 (State.bootOn s0) := by
  unfold State.bootOn
  refine Keeps.ite ?_ ?_
  · exact Keeps.refl _ _
  · extract_lets -lift -merge -useContext -underBinder +onlyGivenNames x0 x1
    have h1 : Keeps State.bootOn_parts s0 x1 := by
      unfold x1
      refine Keeps.via (Keeps.upd_pwr _ _) rfl ?_
      exact Keeps.refl _ _
    split
    · refine Keeps.ite ?_ ?_
      · refine Keeps.via (State.goTo_keeps _ _ _) rfl ?_
        refine Keeps.via (State.coreStart_keeps _) rfl ?_
        exact h1
      · exact Keeps.refl _ _
    · refine Keeps.via (State.coreStart_keeps _) rfl ?_
      exact h1
    · exact h1

def execStartSectionComplete_parts : List Part := [.rx, .free, .top, .time, .log, .sb, .links, .twin, .ord, .map, .mir, .sch, .flt, .cal, .clk, .pwr, .gust, .boot, .fmt, .dram, .reg Reg.GLB_HUBID, .reg Reg.GLB_EVENT, .reg Reg.GLB_DIRSTAT, .reg Reg.GLB_QUIESCE, .block 0x1, .reg Reg.ORD_FWD, .reg Reg.ORD_LINEHOLD, .reg Reg.ORD_FLUSHES, .reg Reg.MIR_CAUSE, .reg Reg.MIR_PENDOCC, .reg Reg.MIR_FWDMISS, .reg Reg.MIR_HOSTAT, .reg Reg.MIR_HOCNT, .block 0x5, .block 0x6, .block 0x7, .reg Reg.ECC_SEALFAIL, .reg Reg.ECC_FIRSTFAIL, .reg Reg.ECC_REPAIR, .block 0x9, .reg Reg.PWR_SEQSTAT, .reg Reg.LOG_RINGSTAT, .reg Reg.LOG_CAPTURED, .reg Reg.LOG_COALESCED, .reg Reg.LOG_LOST, .reg Reg.LOG_ORPHANS, .reg Reg.LOG_SQUALLS]

theorem execStartSectionComplete_keeps (found : SectionEnd) (s0 : State) :
    KeepsOut execStartSectionComplete_parts s0 (execStartSectionComplete found s0) := by
  unfold execStartSectionComplete
  refine KeepsOut.next ?_
  extract_lets -lift -merge -useContext -underBinder +onlyGivenNames x0 x1
  have h1 : Keeps execStartSectionComplete_parts s0 x1 := by
    unfold x1
    refine Keeps.via (Keeps.upd_pwr _ _) rfl ?_
    exact Keeps.refl _ _
  refine Keeps.ite ?_ ?_
  · refine Keeps.via (State.bootOn_keeps _) rfl ?_
    exact h1
  · refine Keeps.ite ?_ ?_
    · exact h1
    · extract_lets -lift -merge -useContext -underBinder +onlyGivenNames x2
      try clear_value x2
      extract_lets -lift -merge -useContext -underBinder +onlyGivenNames x3
      try clear_value x3
      extract_lets -lift -merge -useContext -underBinder +onlyGivenNames x4 x5
      have h5 : Keeps execStartSectionComplete_parts s0 x5 := by
        unfold x5
        refine Keeps.via (Keeps.upd_pwr _ _) rfl ?_
        exact h1
      extract_lets -lift -merge -useContext -underBinder +onlyGivenNames x6
      have h6 : Keeps execStartSectionComplete_parts s0 x6 := by
        unfold x6
        refine Keeps.via (State.event_keeps _ _ _) rfl ?_
        refine Keeps.via (State.setFld_keeps _ _ _) rfl ?_
        exact h5
      split
      · refine Keeps.via (State.startTraining_keeps _) rfl ?_
        exact h6
      · extract_lets -lift -merge -useContext -underBinder +onlyGivenNames x7
        try clear_value x7
        extract_lets -lift -merge -useContext -underBinder +onlyGivenNames x8
        have h8 : Keeps execStartSectionComplete_parts s0 x8 := by
          unfold x8
          refine Keeps.via (State.startRestoring_keeps _) rfl ?_
          refine Keeps.via (State.bringUp_keeps _ _ _) rfl ?_
          exact h6
        refine Keeps.via (Keeps.upd_pwr_gust _ _ _) rfl ?_
        exact h8
      · refine Keeps.via (State.bootOn_keeps _) rfl ?_
        refine Keeps.via (Keeps.upd_pwr _ _) rfl ?_
        exact h6
      · exact h6

def execRefQualified_parts : List Part := [.rx, .free, .top, .time, .log, .sb, .links, .twin, .ord, .map, .mir, .sch, .flt, .cal, .clk, .pwr, .boot, .reg Reg.GLB_HUBID, .reg Reg.GLB_EVENT, .reg Reg.GLB_DIRSTAT, .reg Reg.GLB_QUIESCE, .block 0x1, .reg Reg.ORD_FWD, .reg Reg.ORD_LINEHOLD, .reg Reg.ORD_FLUSHES, .reg Reg.MIR_CAUSE, .reg Reg.MIR_PENDOCC, .reg Reg.MIR_FWDMISS, .reg Reg.MIR_HOSTAT, .reg Reg.MIR_HOCNT, .reg Reg.DPH_RETSTAT, .reg Reg.ECC_SEALFAIL, .reg Reg.ECC_FIRSTFAIL, .reg Reg.ECC_REPAIR, .block 0x9, .reg Reg.LOG_RINGSTAT, .reg Reg.LOG_CAPTURED, .reg Reg.LOG_COALESCED, .reg Reg.LOG_LOST, .reg Reg.LOG_ORPHANS, .reg Reg.LOG_SQUALLS]

theorem execRefQualified_keeps (input : RefInput) (s0 : State) :
    KeepsOut execRefQualified_parts s0 (execRefQualified input s0) := by
  unfold execRefQualified
  refine KeepsOut.next ?_
  split
  · refine Keeps.ite ?_ ?_
    · refine Keeps.via (State.setFld_keeps _ _ _) rfl ?_
      exact Keeps.refl _ _
    · exact Keeps.refl _ _
  · extract_lets -lift -merge -useContext -underBinder +onlyGivenNames x0 x1
    have h1 : Keeps execRefQualified_parts s0 x1 := by
      unfold x1
      refine Keeps.via (Keeps.upd_clk _ _) rfl ?_
      exact Keeps.refl _ _
    refine Keeps.ite ?_ ?_
    · extract_lets -lift -merge -useContext -underBinder +onlyGivenNames x2
      have h2 : Keeps execRefQualified_parts s0 x2 := by
        unfold x2
        refine Keeps.via (State.setFld_keeps _ _ _) rfl ?_
        exact h1
      refine Keeps.ite ?_ ?_
      · refine Keeps.via (State.emergencyBack_keeps _) rfl ?_
        exact h2
      · exact h2
    · refine Keeps.via (State.bootOn_keeps _) rfl ?_
      exact h1

def State.nextStop_parts : List Part := [.pwr]

theorem State.nextStop_keeps (s0 : State) :
    Keeps State.nextStop_parts s0 (State.nextStop s0) := by
  unfold State.nextStop
  refine Keeps.via (Keeps.upd_pwr _ _) rfl ?_
  exact Keeps.refl _ _

def State.takeStop_parts : List Part := [.pwr, .reg Reg.PWR_RAILSTAT, .reg Reg.PWR_SEQSTAT]

theorem State.takeStop_keeps (a0 : ℕ) (s0 : State) :
    Keeps State.takeStop_parts s0 (State.takeStop a0 s0) := by
  induction a0 generalizing s0 with
  | zero =>
    rw [State.takeStop.eq_1]
    exact Keeps.refl _ _
  | succ _ ih =>
    rw [State.takeStop.eq_2]
    split
    · exact Keeps.refl _ _
    · extract_lets -lift -merge -useContext -underBinder +onlyGivenNames x0
      try clear_value x0
      refine Keeps.ite ?_ ?_
      · exact Keeps.refl _ _
      · refine Keeps.ite ?_ ?_
        · refine Keeps.trans ?_ (ih _)
          refine Keeps.via (Keeps.upd_pwr _ _) rfl ?_
          exact Keeps.refl _ _
        · refine Keeps.ite ?_ ?_
          · refine Keeps.via (State.setFld_keeps _ _ _) rfl ?_
            exact Keeps.refl _ _
          · extract_lets -lift -merge -useContext -underBinder +onlyGivenNames x1
            have h1 : Keeps State.takeStop_parts s0 x1 := by
              unfold x1
              refine Keeps.via (State.setFld_keeps _ _ _) rfl ?_
              exact Keeps.refl _ _
            split
            · extract_lets -lift -merge -useContext -underBinder +onlyGivenNames x2
              have h2 : Keeps State.takeStop_parts s0 x2 := by
                unfold x2
                refine Keeps.via (State.setRail_keeps _ _ _) rfl ?_
                refine Keeps.via (State.driveEn_keeps _ _ _) rfl ?_
                exact h1
              refine Keeps.via (Keeps.upd_pwr _ _) rfl ?_
              exact h2
            · refine Keeps.trans ?_ (ih _)
              refine Keeps.via (State.nextStop_keeps _) rfl ?_
              refine Keeps.via (State.setFldBit_keeps _ _ _ _) rfl ?_
              exact h1
            · refine Keeps.trans ?_ (ih _)
              refine Keeps.via (State.nextStop_keeps _) rfl ?_
              exact h1

def State.stopOver_parts : List Part := [.rx, .free, .top, .log, .sb, .links, .twin, .ord, .map, .mir, .sch, .flt, .cal, .clk, .pwr, .gust, .fuse, .boot, .flash, .fmt, .dram, .regs]

theorem State.stopOver_keeps (s0 : State) :
    Keeps State.stopOver_parts s0 (State.stopOver s0) := by
  unfold State.stopOver
  refine Keeps.ite ?_ ?_
  · split
    · refine Keeps.via (State.setFld_keeps _ _ _) rfl ?_
      exact Keeps.refl _ _
    · refine Keeps.via (State.goDark_keeps _) rfl ?_
      exact Keeps.refl _ _
  · exact Keeps.refl _ _

def State.runStop_parts : List Part := [.rx, .free, .top, .log, .sb, .links, .twin, .ord, .map, .mir, .sch, .flt, .cal, .clk, .pwr, .gust, .fuse, .boot, .flash, .fmt, .dram, .regs]

theorem State.runStop_keeps (s0 : State) :
    Keeps State.runStop_parts s0 (State.runStop s0) := by
  unfold State.runStop
  refine Keeps.via (State.stopOver_keeps _) rfl ?_
  refine Keeps.via (State.takeStop_keeps _ _) rfl ?_
  exact Keeps.refl _ _

def State.tickStop_parts : List Part := [.rx, .free, .top, .log, .sb, .links, .twin, .ord, .map, .mir, .sch, .flt, .cal, .clk, .pwr, .gust, .fuse, .boot, .flash, .fmt, .dram, .regs]

theorem State.tickStop_keeps (s0 : State) :
    Keeps State.tickStop_parts s0 (State.tickStop s0) := by
  unfold State.tickStop
  refine Keeps.ite ?_ ?_
  · exact Keeps.refl _ _
  · refine Keeps.via (State.runStop_keeps _) rfl ?_
    exact Keeps.refl _ _

def State.endSection_parts : List Part := [.pwr, .reg Reg.PWR_SEQSTAT]

theorem State.endSection_keeps (s0 : State) :
    Keeps State.endSection_parts s0 (State.endSection s0) := by
  unfold State.endSection
  extract_lets -lift -merge -useContext -underBinder +onlyGivenNames x0 x1
  have h1 : Keeps State.endSection_parts s0 x1 := by
    unfold x1
    refine Keeps.via (Keeps.upd_pwr _ _) rfl ?_
    exact Keeps.refl _ _
  refine Keeps.ite ?_ ?_
  · exact h1
  · refine Keeps.via (State.setFld_keeps _ _ _) rfl ?_
    refine Keeps.via (Keeps.upd_pwr _ _) rfl ?_
    exact h1

def State.startStop_parts : List Part := [.rx, .free, .top, .log, .sb, .links, .twin, .ord, .map, .mir, .sch, .flt, .cal, .clk, .pwr, .gust, .fuse, .boot, .flash, .fmt, .dram, .regs]

theorem State.startStop_keeps (s0 : State) (form : ℕ) :
    Keeps State.startStop_parts s0 (State.startStop s0 form) := by
  unfold State.startStop
  extract_lets -lift -merge -useContext -underBinder +onlyGivenNames x0
  have h0 : Keeps State.startStop_parts s0 x0 := by
    unfold x0
    refine Keeps.via (State.endSection_keeps _) rfl ?_
    exact Keeps.refl _ _
  extract_lets -lift -merge -useContext -underBinder +onlyGivenNames x1 x2
  have h2 : Keeps State.startStop_parts s0 x2 := by
    unfold x2
    refine Keeps.via (Keeps.upd_pwr _ _) rfl ?_
    exact h0
  refine Keeps.via (State.runStop_keeps _) rfl ?_
  refine Keeps.via (State.setFld_keeps _ _ _) rfl ?_
  refine Keeps.via (State.setFld_keeps _ _ _) rfl ?_
  exact h2

def execShutdownRowDone_parts : List Part := [.rx, .free, .top, .log, .sb, .links, .twin, .ord, .map, .mir, .sch, .flt, .cal, .clk, .pwr, .gust, .fuse, .boot, .flash, .fmt, .dram, .regs]

theorem execShutdownRowDone_keeps (timedOut : Bool) (s0 : State) :
    KeepsOut execShutdownRowDone_parts s0 (execShutdownRowDone timedOut s0) := by
  unfold execShutdownRowDone
  refine KeepsOut.next ?_
  refine Keeps.ite ?_ ?_
  · exact Keeps.refl _ _
  · extract_lets -lift -merge -useContext -underBinder +onlyGivenNames x0
    have h0 : Keeps execShutdownRowDone_parts s0 x0 := by
      unfold x0
      split
      · refine Keeps.ite ?_ ?_
        · refine Keeps.via (State.event_keeps _ _ _) rfl ?_
          exact Keeps.refl _ _
        · exact Keeps.refl _ _
      · exact Keeps.refl _ _
    refine Keeps.via (State.runStop_keeps _) rfl ?_
    refine Keeps.via (State.nextStop_keeps _) rfl ?_
    exact h0

end Sys2Proof.Machine
end

