-- ==== Sys2Proof/Laws/KeepsImage.lean ====
section
/-!
SUPPORT. The frames of the operations of Machine/Image.lean: the parts of the state each may change, and that each keeps the canonical
form. A proof of a frame cites these and unfolds nothing.
-/

namespace Sys2Proof.Machine

def State.baseConfig_parts : List Part := [.regs]

theorem State.baseConfig_keeps (s0 : State) :
    Keeps State.baseConfig_parts s0 (State.baseConfig s0) := by
  unfold State.baseConfig
  refine Keeps.via (State.setReg_keeps _ _ _) rfl ?_
  refine Keeps.foldS _ _ ?_ (fun t0 y0 h0 => ?_)
  · exact Keeps.refl _ _
  · refine Keeps.viaReg (State.setReg_keeps _ _ _) rfl ?_
    exact h0

def State.loadEntry_parts : List Part := [.regs]

theorem State.loadEntry_keeps (s0 : State) (e : Entry) :
    Keeps State.loadEntry_parts s0 (State.loadEntry s0 e) := by
  unfold State.loadEntry
  split
  · refine Keeps.viaReg (State.setFld_keeps _ _ _) rfl ?_
    exact Keeps.refl _ _
  · exact Keeps.refl _ _

def State.applyImage_parts : List Part := [.regs]

theorem State.applyImage_keeps (s0 : State) (es : List Entry) :
    Keeps State.applyImage_parts s0 (State.applyImage s0 es) := by
  unfold State.applyImage
  refine Keeps.foldl _ _ ?_ (fun t0 y0 h0 => ?_)
  · refine Keeps.via (State.baseConfig_keeps _) rfl ?_
    exact Keeps.refl _ _
  · refine Keeps.via (State.loadEntry_keeps _ _) rfl ?_
    exact h0

def State.appendDir_parts : List Part := [.flash]

theorem State.appendDir_keeps (s0 : State) (d : DirRec) :
    Keeps State.appendDir_parts s0 (State.appendDir s0 d) := by
  unfold State.appendDir
  extract_lets -lift -merge -useContext -underBinder +onlyGivenNames x0
  try clear_value x0
  extract_lets -lift -merge -useContext -underBinder +onlyGivenNames x1
  try clear_value x1
  extract_lets -lift -merge -useContext -underBinder +onlyGivenNames x2
  try clear_value x2
  split
  · refine Keeps.via (State.program_keeps _ _ _) rfl ?_
    exact Keeps.refl _ _
  · extract_lets -lift -merge -useContext -underBinder +onlyGivenNames x3
    try clear_value x3
    refine Keeps.via (State.program_keeps _ _ _) rfl ?_
    refine Keeps.via (State.eraseSector_keeps _ _) rfl ?_
    exact Keeps.refl _ _

def State.tidyDir_parts : List Part := [.flash]

theorem State.tidyDir_keeps (s0 : State) :
    Keeps State.tidyDir_parts s0 (State.tidyDir s0) := by
  unfold State.tidyDir
  refine Keeps.ite ?_ ?_
  · split
    · refine Keeps.via (State.eraseSector_keeps _ _) rfl ?_
      exact Keeps.refl _ _
    · exact Keeps.refl _ _
  · exact Keeps.refl _ _

def State.rejectSlot_parts : List Part := [.log, .sb, .reg Reg.GLB_EVENT, .reg Reg.GLB_DIRSTAT, .reg Reg.MGT_IMGSTAT, .reg Reg.LOG_RINGSTAT, .reg Reg.LOG_CAPTURED, .reg Reg.LOG_COALESCED, .reg Reg.LOG_LOST, .reg Reg.LOG_ORPHANS, .reg Reg.LOG_SQUALLS]

theorem State.rejectSlot_keeps (s0 : State) (slot : ℕ) (reason : ℕ) :
    Keeps State.rejectSlot_parts s0 (State.rejectSlot s0 slot reason) := by
  unfold State.rejectSlot
  refine Keeps.via (State.event_keeps _ _ _) rfl ?_
  refine Keeps.via (State.setFld_rejFld_keeps _ _ _) rfl ?_
  exact Keeps.refl _ _

def State.tryTrial_parts : List Part := [.log, .sb, .boot, .flash, .reg Reg.GLB_EVENT, .reg Reg.GLB_DIRSTAT, .reg Reg.MGT_IMGSTAT, .reg Reg.LOG_RINGSTAT, .reg Reg.LOG_CAPTURED, .reg Reg.LOG_COALESCED, .reg Reg.LOG_LOST, .reg Reg.LOG_ORPHANS, .reg Reg.LOG_SQUALLS]

theorem State.tryTrial_keeps (s0 : State) (slot : ℕ) :
    Keeps State.tryTrial_parts s0 (State.tryTrial s0 slot).1 := by
  unfold State.tryTrial
  split
  · refine Keeps.iteL ?_ ?_
    · refine Keeps.iteL ?_ ?_
      · dsimp -zeta only
        exact Keeps.refl _ _
      · refine Keeps.iteL ?_ ?_
        · extract_lets -lift -merge -useContext -underBinder +onlyGivenNames x0
          try clear_value x0
          extract_lets -lift -merge -useContext -underBinder +onlyGivenNames x1
          have h1 : Keeps State.tryTrial_parts s0 x1 := by
            unfold x1
            refine Keeps.via (State.rejectSlot_keeps _ _ _) rfl ?_
            refine Keeps.via (State.tidyDir_keeps _) rfl ?_
            refine Keeps.via (State.appendDir_keeps _ _) rfl ?_
            exact Keeps.refl _ _
          dsimp -zeta only
          refine Keeps.via (State.event_keeps _ _ _) rfl ?_
          exact h1
        · extract_lets -lift -merge -useContext -underBinder +onlyGivenNames x2
          have h2 : Keeps State.tryTrial_parts s0 x2 := by
            unfold x2
            refine Keeps.via (State.tidyDir_keeps _) rfl ?_
            refine Keeps.via (State.appendDir_keeps _ _) rfl ?_
            exact Keeps.refl _ _
          dsimp -zeta only
          refine Keeps.via (Keeps.upd_boot _ _) rfl ?_
          exact h2
    · refine Keeps.iteL ?_ ?_
      · dsimp -zeta only
        refine Keeps.via (State.rejectSlot_keeps _ _ _) rfl ?_
        exact Keeps.refl _ _
      · dsimp -zeta only
        exact Keeps.refl _ _
  · dsimp -zeta only
    exact Keeps.refl _ _

def State.trySlot_parts : List Part := [.log, .sb, .boot, .flash, .reg Reg.GLB_EVENT, .reg Reg.GLB_DIRSTAT, .reg Reg.MGT_IMGSTAT, .reg Reg.LOG_RINGSTAT, .reg Reg.LOG_CAPTURED, .reg Reg.LOG_COALESCED, .reg Reg.LOG_LOST, .reg Reg.LOG_ORPHANS, .reg Reg.LOG_SQUALLS]

theorem State.trySlot_keeps (s0 : State) (found : BootFind) (cipher : Bool) (first : ℕ) (slot : ℕ) :
    Keeps State.trySlot_parts s0 (State.trySlot s0 found cipher first slot).1 := by
  unfold State.trySlot
  extract_lets -lift -merge -useContext -underBinder +onlyGivenNames x0
  have h0 : Keeps State.trySlot_parts s0 x0.1 := by
    unfold x0
    refine Keeps.via (State.tryTrial_keeps _ _) rfl ?_
    exact Keeps.refl _ _
  refine Keeps.iteL ?_ ?_
  · dsimp -zeta only
    exact h0
  · refine Keeps.iteL ?_ ?_
    · dsimp -zeta only
      exact h0
    · split
      · dsimp -zeta only
        exact h0
      · dsimp -zeta only
        refine Keeps.via (State.rejectSlot_keeps _ _ _) rfl ?_
        exact h0

def State.deriveKey_parts : List Part := [.boot, .reg Reg.MGT_CIPHCTL]

theorem State.deriveKey_keeps (s0 : State) (entropy : Bool) :
    Keeps State.deriveKey_parts s0 (State.deriveKey s0 entropy).1 := by
  unfold State.deriveKey
  refine Keeps.iteL ?_ ?_
  · dsimp -zeta only
    refine Keeps.via (State.setFld_keeps _ _ _) rfl ?_
    refine Keeps.via (Keeps.upd_boot _ _) rfl ?_
    exact Keeps.refl _ _
  · refine Keeps.iteL ?_ ?_
    · dsimp -zeta only
      exact Keeps.refl _ _
    · refine Keeps.iteL ?_ ?_
      · dsimp -zeta only
        exact Keeps.refl _ _
      · refine Keeps.iteL ?_ ?_
        · extract_lets -lift -merge -useContext -underBinder +onlyGivenNames x0
          try clear_value x0
          dsimp -zeta only
          refine Keeps.via (Keeps.upd_boot _ _) rfl ?_
          exact Keeps.refl _ _
        · dsimp -zeta only
          refine Keeps.via (State.setFld_keeps _ _ _) rfl ?_
          refine Keeps.via (Keeps.upd_boot _ _) rfl ?_
          exact Keeps.refl _ _

def State.selectFrom_parts : List Part := [.log, .sb, .boot, .flash, .regs]

theorem State.selectFrom_keeps (found : BootFind) (cipher : Bool) (first : Nat) (l : List Nat) (s0 : State) :
    Keeps State.selectFrom_parts s0 (State.selectFrom found cipher first l s0).1 := by
  induction l generalizing s0 with
  | nil => exact Keeps.refl _ _
  | cons slot rest ih =>
    have ht : Keeps State.selectFrom_parts s0 (s0.trySlot found cipher first slot).1 :=
      (State.trySlot_keeps s0 found cipher first slot).mono rfl
    rw [State.selectFrom]
    unfold selectNext
    generalize s0.trySlot found cipher first slot = x at ht ⊢
    split
    · exact ht
    · exact ht.trans (ih _)

def State.selectSlot_parts : List Part := [.log, .sb, .boot, .flash, .regs]

theorem State.selectSlot_keeps (s0 : State) (found : BootFind) (choice : ℕ) :
    Keeps State.selectSlot_parts s0 (State.selectSlot s0 found choice).1 := by
  unfold State.selectSlot
  extract_lets -lift -merge -useContext -underBinder +onlyGivenNames x0
  have h0 : Keeps State.selectSlot_parts s0 x0.1 := by
    unfold x0
    refine Keeps.via (State.deriveKey_keeps _ _) rfl ?_
    exact Keeps.refl _ _
  extract_lets -lift -merge -useContext -underBinder +onlyGivenNames x1
  try clear_value x1
  refine Keeps.via (State.selectFrom_keeps _ _ _ _ _) rfl ?_
  exact h0

end Sys2Proof.Machine
end

