-- ==== Sys2Proof/Laws/KeepsFuses.lean ====
section
/-!
SUPPORT. The frames of the operations of Machine/Fuses.lean: the parts of the state each may change, and that each keeps the canonical
form. A proof of a frame cites these and unfolds nothing.
-/

namespace Sys2Proof.Machine

def State.readFuses_parts : List Part := [.fuse, .reg Reg.MGT_ROLLBACK, .reg Reg.MGT_FUSESTAT, .reg Reg.MGT_DIEID_LO]

theorem State.readFuses_keeps (s0 : State) :
    Keeps State.readFuses_parts s0 (State.readFuses s0) := by
  unfold State.readFuses
  extract_lets -lift -merge -useContext -underBinder +onlyGivenNames x0
  try clear_value x0
  extract_lets -lift -merge -useContext -underBinder +onlyGivenNames x1
  try clear_value x1
  extract_lets -lift -merge -useContext -underBinder +onlyGivenNames x2
  try clear_value x2
  extract_lets -lift -merge -useContext -underBinder +onlyGivenNames x3
  try clear_value x3
  extract_lets -lift -merge -useContext -underBinder +onlyGivenNames x4
  try clear_value x4
  extract_lets -lift -merge -useContext -underBinder +onlyGivenNames x5 x6
  have h6 : Keeps State.readFuses_parts s0 x6 := by
    unfold x6
    refine Keeps.via (Keeps.upd_fuse _ _) rfl ?_
    exact Keeps.refl _ _
  extract_lets -lift -merge -useContext -underBinder +onlyGivenNames x7
  try clear_value x7
  extract_lets -lift -merge -useContext -underBinder +onlyGivenNames x8
  try clear_value x8
  extract_lets -lift -merge -useContext -underBinder +onlyGivenNames x9
  try clear_value x9
  extract_lets -lift -merge -useContext -underBinder +onlyGivenNames x10
  try clear_value x10
  extract_lets -lift -merge -useContext -underBinder +onlyGivenNames x11
  try clear_value x11
  extract_lets -lift -merge -useContext -underBinder +onlyGivenNames x12
  have h12 : Keeps State.readFuses_parts s0 x12 := by
    unfold x12
    refine Keeps.via (State.satF_keeps _ _ _) rfl ?_
    refine Keeps.via (State.satF_keeps _ _ _) rfl ?_
    exact h6
  extract_lets -lift -merge -useContext -underBinder +onlyGivenNames x13
  have h13 : Keeps State.readFuses_parts s0 x13 := by
    unfold x13
    refine Keeps.via (State.setFlag_keeps _ _ _) rfl ?_
    refine Keeps.via (State.setFlag_keeps _ _ _) rfl ?_
    refine Keeps.via (State.setFld_keeps _ _ _) rfl ?_
    exact h12
  extract_lets -lift -merge -useContext -underBinder +onlyGivenNames x14
  have h14 : Keeps State.readFuses_parts s0 x14 := by
    unfold x14
    refine Keeps.via (State.setFld_keeps _ _ _) rfl ?_
    refine Keeps.via (State.setFld_keeps _ _ _) rfl ?_
    exact h13
  refine Keeps.via (State.setReg_keeps _ _ _) rfl ?_
  exact h14

def State.loadPage_parts : List Part := [.regs]

theorem State.loadPage_keeps (s0 : State) :
    Keeps State.loadPage_parts s0 (State.loadPage s0) := by
  unfold State.loadPage
  extract_lets -lift -merge -useContext -underBinder +onlyGivenNames x0
  have h0 : Keeps State.loadPage_parts s0 x0 := by
    unfold x0
    refine Keeps.foldS _ _ ?_ (fun t1 y1 h1 => ?_)
    · exact Keeps.refl _ _
    · refine Keeps.viaBlock (b := 10) (State.setReg_keeps _ _ _) (fam_block _ _ _ _ rfl (by decide)) rfl ?_
      exact h1
  refine Keeps.foldS _ _ ?_ (fun t2 y2 h2 => ?_)
  · exact h0
  · refine Keeps.viaReg (State.setReg_keeps _ _ _) rfl ?_
    exact h2

def State.stopVbat_parts : List Part := [.vbat, .reg Reg.PWR_FAULTS]

theorem State.stopVbat_keeps (s0 : State) :
    Keeps State.stopVbat_parts s0 (State.stopVbat s0) := by
  unfold State.stopVbat
  refine Keeps.via (State.setReg_keeps _ _ _) rfl ?_
  refine Keeps.via (Keeps.upd_vbat _ _) rfl ?_
  exact Keeps.refl _ _

def State.freshVbat_parts : List Part := [.vbat, .reg Reg.PWR_FAULTS]

theorem State.freshVbat_keeps (s0 : State) :
    Keeps State.freshVbat_parts s0 (State.freshVbat s0) := by
  unfold State.freshVbat
  refine Keeps.via (State.setReg_keeps _ _ _) rfl ?_
  refine Keeps.via (Keeps.upd_vbat _ _) rfl ?_
  exact Keeps.refl _ _

def State.clearAon_parts : List Part := [.rx, .free, .top, .time, .log, .sb, .links, .twin, .ord, .map, .mir, .sch, .flt, .cal, .clk, .pwr, .gust, .fuse, .cfgStore, .boot, .flash, .fmt, .dram, .regs]

theorem State.clearAon_keeps (s0 : State) :
    Keeps State.clearAon_parts s0 (State.clearAon s0) := by
  unfold State.clearAon
  extract_lets -lift -merge -useContext -underBinder +onlyGivenNames x0
  try clear_value x0
  extract_lets -lift -merge -useContext -underBinder +onlyGivenNames x1
  try clear_value x1
  extract_lets -lift -merge -useContext -underBinder +onlyGivenNames x2
  have h2 : Keeps State.clearAon_parts s0 x2 := by
    unfold x2
    refine Keeps.via (State.coreStop_keeps _) rfl ?_
    exact Keeps.refl _ _
  extract_lets -lift -merge -useContext -underBinder +onlyGivenNames x3
  have h3 : Keeps State.clearAon_parts s0 x3 := by
    unfold x3
    refine Keeps.via (Keeps.filter_regs _ _) rfl ?_
    exact h2
  extract_lets -lift -merge -useContext -underBinder +onlyGivenNames x4 x5
  have h5 : Keeps State.clearAon_parts s0 x5 := by
    unfold x5
    refine Keeps.via (Keeps.upd_top_time_log_sb_flt_cal_pwr_gust_fuse_cfgStore_boot _ _ _ _ _ _ _ _ _ _ _ _) rfl ?_
    exact h3
  refine Keeps.via (State.loseDram_keeps _) rfl ?_
  refine Keeps.via (State.setFlag_keeps _ _ _) rfl ?_
  refine Keeps.via (State.setFlag_keeps _ _ _) rfl ?_
  exact h5

def State.enterDark_parts : List Part := [.rx, .top, .log, .sb, .links, .twin, .ord, .map, .mir, .sch, .flt, .cal, .pwr, .boot, .reg Reg.GLB_HUBID, .reg Reg.GLB_EVENT, .reg Reg.GLB_DIRSTAT, .reg Reg.GLB_QUIESCE, .block 0x1, .reg Reg.ORD_FWD, .reg Reg.ORD_LINEHOLD, .reg Reg.ORD_FLUSHES, .reg Reg.MIR_CAUSE, .reg Reg.MIR_PENDOCC, .reg Reg.MIR_FWDMISS, .reg Reg.MIR_HOSTAT, .reg Reg.MIR_HOCNT, .reg Reg.DPH_RETSTAT, .reg Reg.ECC_SEALFAIL, .reg Reg.ECC_FIRSTFAIL, .reg Reg.ECC_REPAIR, .reg Reg.LOG_RINGSTAT, .reg Reg.LOG_CAPTURED, .reg Reg.LOG_COALESCED, .reg Reg.LOG_LOST, .reg Reg.LOG_ORPHANS, .reg Reg.LOG_SQUALLS]

theorem State.enterDark_keeps (s0 : State) (dst : TopState) (cause : Byte) :
    Keeps State.enterDark_parts s0 (State.enterDark s0 dst cause) := by
  unfold State.enterDark
  refine Keeps.ite ?_ ?_
  · refine Keeps.via (State.goTo_keeps _ _ _) rfl ?_
    exact Keeps.refl _ _
  · refine Keeps.via (Keeps.upd_top _ _) rfl ?_
    exact Keeps.refl _ _

def execAonDomainStart_parts : List Part := [.rx, .free, .top, .time, .log, .sb, .links, .twin, .ord, .map, .mir, .sch, .flt, .cal, .clk, .vbat, .pwr, .gust, .fuse, .cfgStore, .boot, .flash, .fmt, .dram, .regs]

theorem execAonDomainStart_keeps (smbus : Bool) (sbaddr : BitVec 2) (fuses : List FuseSense) (s0 : State) :
    KeepsOut execAonDomainStart_parts s0 (execAonDomainStart smbus sbaddr fuses s0) := by
  unfold execAonDomainStart
  refine KeepsOut.next ?_
  refine Keeps.ite ?_ ?_
  · exact Keeps.refl _ _
  · extract_lets -lift -merge -useContext -underBinder +onlyGivenNames x0
    have h0 : Keeps execAonDomainStart_parts s0 x0 := by
      unfold x0
      refine Keeps.via (State.clearAon_keeps _) rfl ?_
      exact Keeps.refl _ _
    extract_lets -lift -merge -useContext -underBinder +onlyGivenNames x1
    try clear_value x1
    extract_lets -lift -merge -useContext -underBinder +onlyGivenNames x2 x3 x4 x5
    have h5 : Keeps execAonDomainStart_parts s0 x5 := by
      unfold x5
      refine Keeps.via (Keeps.upd_top_sb_fuse _ _ _ _) rfl ?_
      exact h0
    extract_lets -lift -merge -useContext -underBinder +onlyGivenNames x6
    try clear_value x6
    extract_lets -lift -merge -useContext -underBinder +onlyGivenNames x7
    have h7 : Keeps execAonDomainStart_parts s0 x7 := by
      unfold x7
      refine Keeps.ite ?_ ?_
      · exact h5
      · refine Keeps.via (State.freshVbat_keeps _) rfl ?_
        exact h5
    extract_lets -lift -merge -useContext -underBinder +onlyGivenNames x8 x9 x10 x11
    have h11 : Keeps execAonDomainStart_parts s0 x11 := by
      unfold x11
      refine Keeps.via (Keeps.upd_time_log_vbat _ _ _ _) rfl ?_
      exact h7
    extract_lets -lift -merge -useContext -underBinder +onlyGivenNames x12
    have h12 : Keeps execAonDomainStart_parts s0 x12 := by
      unfold x12
      refine Keeps.via (State.loadPage_keeps _) rfl ?_
      refine Keeps.via (State.readFuses_keeps _) rfl ?_
      exact h11
    extract_lets -lift -merge -useContext -underBinder +onlyGivenNames x13
    have h13 : Keeps execAonDomainStart_parts s0 x13 := by
      unfold x13
      refine Keeps.ite ?_ ?_
      · refine Keeps.via (State.setFld_keeps _ _ _) rfl ?_
        exact h12
      · exact h12
    refine Keeps.ite ?_ ?_
    · extract_lets -lift -merge -useContext -underBinder +onlyGivenNames x14
      try clear_value x14
      refine Keeps.via (State.event_keeps _ _ _) rfl ?_
      refine Keeps.via (Keeps.upd_top _ _) rfl ?_
      exact h13
    · exact h13

def execAonDomainStop_parts : List Part := [.rx, .free, .top, .time, .log, .sb, .links, .twin, .ord, .map, .mir, .sch, .flt, .cal, .clk, .vbat, .pwr, .gust, .fuse, .cfgStore, .boot, .flash, .fmt, .dram, .regs]

theorem execAonDomainStop_keeps (s0 : State) :
    KeepsOut execAonDomainStop_parts s0 (execAonDomainStop s0) := by
  unfold execAonDomainStop
  refine KeepsOut.next ?_
  refine Keeps.ite ?_ ?_
  · exact Keeps.refl _ _
  · extract_lets -lift -merge -useContext -underBinder +onlyGivenNames x0 x1
    have h1 : Keeps execAonDomainStop_parts s0 x1 := by
      unfold x1
      refine Keeps.ite ?_ ?_
      · refine Keeps.via (State.bumpF_keeps _ _ _) rfl ?_
        refine Keeps.via (Keeps.upd_vbat _ _) rfl ?_
        exact Keeps.refl _ _
      · exact Keeps.refl _ _
    extract_lets -lift -merge -useContext -underBinder +onlyGivenNames x2 x3
    have h3 : Keeps execAonDomainStop_parts s0 x3 := by
      unfold x3
      refine Keeps.via (Keeps.upd_vbat _ _) rfl ?_
      exact h1
    extract_lets -lift -merge -useContext -underBinder +onlyGivenNames x4
    have h4 : Keeps execAonDomainStop_parts s0 x4 := by
      unfold x4
      refine Keeps.via (State.clearAon_keeps _) rfl ?_
      exact h3
    extract_lets -lift -merge -useContext -underBinder +onlyGivenNames x5
    have h5 : Keeps execAonDomainStop_parts s0 x5 := by
      unfold x5
      refine Keeps.ite ?_ ?_
      · exact h4
      · refine Keeps.via (State.stopVbat_keeps _) rfl ?_
        exact h4
    refine Keeps.via (Keeps.upd_top _ _) rfl ?_
    exact h5

def execVbatApplied_parts : List Part := [.rx, .top, .log, .sb, .links, .twin, .ord, .map, .mir, .sch, .flt, .cal, .vbat, .pwr, .boot, .reg Reg.GLB_HUBID, .reg Reg.GLB_EVENT, .reg Reg.GLB_DIRSTAT, .reg Reg.GLB_QUIESCE, .block 0x1, .reg Reg.ORD_FWD, .reg Reg.ORD_LINEHOLD, .reg Reg.ORD_FLUSHES, .reg Reg.MIR_CAUSE, .reg Reg.MIR_PENDOCC, .reg Reg.MIR_FWDMISS, .reg Reg.MIR_HOSTAT, .reg Reg.MIR_HOCNT, .reg Reg.DPH_RETSTAT, .reg Reg.ECC_SEALFAIL, .reg Reg.ECC_FIRSTFAIL, .reg Reg.ECC_REPAIR, .reg Reg.PWR_FAULTS, .reg Reg.LOG_RINGSTAT, .reg Reg.LOG_CAPTURED, .reg Reg.LOG_COALESCED, .reg Reg.LOG_LOST, .reg Reg.LOG_ORPHANS, .reg Reg.LOG_SQUALLS]

theorem execVbatApplied_keeps (s0 : State) :
    KeepsOut execVbatApplied_parts s0 (execVbatApplied s0) := by
  unfold execVbatApplied
  refine KeepsOut.next ?_
  extract_lets -lift -merge -useContext -underBinder +onlyGivenNames x0 x1
  have h1 : Keeps execVbatApplied_parts s0 x1 := by
    unfold x1
    refine Keeps.via (Keeps.upd_vbat _ _) rfl ?_
    exact Keeps.refl _ _
  refine Keeps.ite ?_ ?_
  · extract_lets -lift -merge -useContext -underBinder +onlyGivenNames x2
    have h2 : Keeps execVbatApplied_parts s0 x2 := by
      unfold x2
      refine Keeps.ite ?_ ?_
      · exact h1
      · refine Keeps.via (State.freshVbat_keeps _) rfl ?_
        exact h1
    refine Keeps.via (State.enterDark_keeps _ _ _) rfl ?_
    exact h2
  · exact h1

def execVbatRemoved_parts : List Part := [.rx, .top, .log, .sb, .links, .twin, .ord, .map, .mir, .sch, .flt, .cal, .vbat, .pwr, .boot, .reg Reg.GLB_HUBID, .reg Reg.GLB_EVENT, .reg Reg.GLB_DIRSTAT, .reg Reg.GLB_QUIESCE, .block 0x1, .reg Reg.ORD_FWD, .reg Reg.ORD_LINEHOLD, .reg Reg.ORD_FLUSHES, .reg Reg.MIR_CAUSE, .reg Reg.MIR_PENDOCC, .reg Reg.MIR_FWDMISS, .reg Reg.MIR_HOSTAT, .reg Reg.MIR_HOCNT, .reg Reg.DPH_RETSTAT, .reg Reg.ECC_SEALFAIL, .reg Reg.ECC_FIRSTFAIL, .reg Reg.ECC_REPAIR, .reg Reg.PWR_FAULTS, .reg Reg.LOG_RINGSTAT, .reg Reg.LOG_CAPTURED, .reg Reg.LOG_COALESCED, .reg Reg.LOG_LOST, .reg Reg.LOG_ORPHANS, .reg Reg.LOG_SQUALLS]

theorem execVbatRemoved_keeps (s0 : State) :
    KeepsOut execVbatRemoved_parts s0 (execVbatRemoved s0) := by
  unfold execVbatRemoved
  refine KeepsOut.next ?_
  extract_lets -lift -merge -useContext -underBinder +onlyGivenNames x0 x1
  have h1 : Keeps execVbatRemoved_parts s0 x1 := by
    unfold x1
    refine Keeps.via (Keeps.upd_vbat _ _) rfl ?_
    exact Keeps.refl _ _
  extract_lets -lift -merge -useContext -underBinder +onlyGivenNames x2
  have h2 : Keeps execVbatRemoved_parts s0 x2 := by
    unfold x2
    refine Keeps.ite ?_ ?_
    · refine Keeps.via (State.stopVbat_keeps _) rfl ?_
      exact h1
    · exact h1
  refine Keeps.ite ?_ ?_
  · refine Keeps.via (State.enterDark_keeps _ _ _) rfl ?_
    exact h2
  · exact h2

def execAllSourcesLost_parts : List Part := [.rx, .free, .top, .time, .log, .sb, .links, .twin, .ord, .map, .mir, .sch, .flt, .cal, .clk, .vbat, .pwr, .gust, .fuse, .cfgStore, .boot, .flash, .fmt, .dram, .regs]

theorem execAllSourcesLost_keeps (s0 : State) :
    KeepsOut execAllSourcesLost_parts s0 (execAllSourcesLost s0) := by
  unfold execAllSourcesLost
  refine KeepsOut.next ?_
  extract_lets -lift -merge -useContext -underBinder +onlyGivenNames x0 x1
  have h1 : Keeps execAllSourcesLost_parts s0 x1 := by
    unfold x1
    refine Keeps.via (Keeps.upd_vbat _ _) rfl ?_
    exact Keeps.refl _ _
  extract_lets -lift -merge -useContext -underBinder +onlyGivenNames x2
  have h2 : Keeps execAllSourcesLost_parts s0 x2 := by
    unfold x2
    refine Keeps.via (State.stopVbat_keeps _) rfl ?_
    refine Keeps.via (State.setReg_keeps _ _ _) rfl ?_
    refine Keeps.via (State.clearAon_keeps _) rfl ?_
    exact h1
  refine Keeps.via (Keeps.upd_top _ _) rfl ?_
  exact h2

def execVbatSwitchover_parts : List Part := [.vbat, .reg Reg.PWR_FAULTS]

theorem execVbatSwitchover_keeps (toVbat : Bool) (s0 : State) :
    KeepsOut execVbatSwitchover_parts s0 (execVbatSwitchover toVbat s0) := by
  unfold execVbatSwitchover
  refine KeepsOut.next ?_
  refine Keeps.ite ?_ ?_
  · extract_lets -lift -merge -useContext -underBinder +onlyGivenNames x0 x1
    have h1 : Keeps execVbatSwitchover_parts s0 x1 := by
      unfold x1
      refine Keeps.via (Keeps.upd_vbat _ _) rfl ?_
      exact Keeps.refl _ _
    refine Keeps.ite ?_ ?_
    · exact h1
    · extract_lets -lift -merge -useContext -underBinder +onlyGivenNames x2
      have h2 : Keeps execVbatSwitchover_parts s0 x2 := by
        unfold x2
        refine Keeps.via (State.stopVbat_keeps _) rfl ?_
        exact h1
      refine Keeps.via (Keeps.upd_vbat _ _) rfl ?_
      exact h2
  · extract_lets -lift -merge -useContext -underBinder +onlyGivenNames x3 x4
    have h4 : Keeps execVbatSwitchover_parts s0 x4 := by
      unfold x4
      refine Keeps.via (Keeps.upd_vbat _ _) rfl ?_
      exact Keeps.refl _ _
    refine Keeps.ite ?_ ?_
    · exact h4
    · refine Keeps.via (Keeps.upd_vbat _ _) rfl ?_
      exact h4

end Sys2Proof.Machine
end

