-- ==== Sys2Proof/Laws/KeepsFeeds.lean ====
section
/-!
SUPPORT. The frames of the operations of Machine/Feeds.lean: the parts of the state each may change, and that each keeps the canonical
form. A proof of a frame cites these and unfolds nothing.
-/

namespace Sys2Proof.Machine

def State.gateOn_parts : List Part := [.pwr, .reg Reg.PWR_FEEDSTAT]

theorem State.gateOn_keeps (s0 : State) (f : Feed) :
    Keeps State.gateOn_parts s0 (State.gateOn s0 f) := by
  unfold State.gateOn
  refine Keeps.via (State.setFld_keeps _ _ _) rfl ?_
  refine Keeps.via (State.setFld_gateFld_keeps _ _ _) rfl ?_
  refine Keeps.via (Keeps.upd_pwr _ _) rfl ?_
  exact Keeps.refl _ _

def State.detect_parts : List Part := [.pwr]

theorem State.detect_keeps (s0 : State) (code : BitVec 2) :
    Keeps State.detect_parts s0 (State.detect s0 code) := by
  unfold State.detect
  refine Keeps.ite ?_ ?_
  · split
    · refine Keeps.via (Keeps.upd_pwr _ _) rfl ?_
      exact Keeps.refl _ _
    · refine Keeps.via (Keeps.upd_pwr _ _) rfl ?_
      exact Keeps.refl _ _
  · exact Keeps.refl _ _

def State.sendPln_parts : List Part := [.links]

theorem State.sendPln_keeps (s0 : State) (gusting : Bool) (trig : BitVec 2) :
    Keeps State.sendPln_parts s0 (State.sendPln s0 gusting trig) := by
  unfold State.sendPln
  refine Keeps.foldS _ _ ?_ (fun t0 y0 h0 => ?_)
  · exact Keeps.refl _ _
  · extract_lets -lift -merge -useContext -underBinder +onlyGivenNames x1
    try clear_value x1
    refine Keeps.ite ?_ ?_
    · extract_lets -lift -merge -useContext -underBinder +onlyGivenNames x2
      try clear_value x2
      extract_lets -lift -merge -useContext -underBinder +onlyGivenNames x3
      try clear_value x3
      refine Keeps.via (State.setLink_keeps _ _ _) rfl ?_
      exact h0
    · exact h0

def State.freeze_parts : List Part := [.rx, .links, .ord, .map, .mir, .sch, .flt, .cal, .pwr, .block 0x6]

theorem State.freeze_keeps (s0 : State) :
    Keeps State.freeze_parts s0 (State.freeze s0) := by
  unfold State.freeze
  extract_lets -lift -merge -useContext -underBinder +onlyGivenNames x0
  have h0 : Keeps State.freeze_parts s0 x0 := by
    unfold x0
    refine Keeps.foldS _ _ ?_ (fun t1 y1 h1 => ?_)
    · exact Keeps.refl _ _
    · refine Keeps.via (State.onLink_keeps _ _ _) rfl ?_
      exact h1
  extract_lets -lift -merge -useContext -underBinder +onlyGivenNames x2
  have h2 : Keeps State.freeze_parts s0 x2 := by
    unfold x2
    refine Keeps.via (Keeps.upd_rx _ _) rfl ?_
    exact h0
  extract_lets -lift -merge -useContext -underBinder +onlyGivenNames x3 x4 x5
  have h5 : Keeps State.freeze_parts s0 x5 := by
    unfold x5
    refine Keeps.via (State.dropAgents_keeps _) rfl ?_
    refine Keeps.via (Keeps.upd_ord_mir _ _ _) rfl ?_
    exact h2
  extract_lets -lift -merge -useContext -underBinder +onlyGivenNames x6 x7 x8
  have h8 : Keeps State.freeze_parts s0 x8 := by
    unfold x8
    refine Keeps.via (Keeps.upd_flt_pwr _ _ _) rfl ?_
    exact h5
  extract_lets -lift -merge -useContext -underBinder +onlyGivenNames x9
  have h9 : Keeps State.freeze_parts s0 x9 := by
    unfold x9
    refine Keeps.foldS _ _ ?_ (fun t10 y10 h10 => ?_)
    · exact h8
    · extract_lets -lift -merge -useContext -underBinder +onlyGivenNames x11
      try clear_value x11
      extract_lets -lift -merge -useContext -underBinder +onlyGivenNames x12
      have h12 : Keeps State.freeze_parts s0 x12 := by
        unfold x12
        refine Keeps.via (State.onSub_keeps _ _ _) rfl ?_
        exact h10
      extract_lets -lift -merge -useContext -underBinder +onlyGivenNames x13
      have h13 : Keeps State.freeze_parts s0 x13 := by
        unfold x13
        refine Keeps.ite ?_ ?_
        · refine Keeps.viaBlock (b := 6) (State.setFld_keeps _ _ _) (fam_block _ _ _ _ rfl (by decide)) rfl ?_
          exact h12
        · exact h12
      refine Keeps.via (State.exitPd_keeps _ _ _) rfl ?_
      refine Keeps.via (State.exitPd_keeps _ _ _) rfl ?_
      exact h13
  refine Keeps.via (Keeps.upd_flt_cal _ _ _) rfl ?_
  exact h9

def State.startGust_parts : List Part := [.rx, .top, .log, .sb, .links, .twin, .ord, .map, .mir, .sch, .flt, .cal, .vbat, .pwr, .gust, .boot, .reg Reg.GLB_HUBID, .reg Reg.GLB_EVENT, .reg Reg.GLB_DIRSTAT, .reg Reg.GLB_QUIESCE, .block 0x1, .reg Reg.ORD_FWD, .reg Reg.ORD_LINEHOLD, .reg Reg.ORD_FLUSHES, .reg Reg.MIR_CAUSE, .reg Reg.MIR_PENDOCC, .reg Reg.MIR_FWDMISS, .reg Reg.MIR_HOSTAT, .reg Reg.MIR_HOCNT, .reg Reg.DPH_RETSTAT, .reg Reg.ECC_SEALFAIL, .reg Reg.ECC_FIRSTFAIL, .reg Reg.ECC_REPAIR, .reg Reg.PWR_HOLD, .reg Reg.PWR_GUSTS, .reg Reg.LOG_RINGSTAT, .reg Reg.LOG_CAPTURED, .reg Reg.LOG_COALESCED, .reg Reg.LOG_LOST, .reg Reg.LOG_ORPHANS, .reg Reg.LOG_SQUALLS]

theorem State.startGust_keeps (s0 : State) (code : BitVec 2) :
    Keeps State.startGust_parts s0 (State.startGust s0 code) := by
  unfold State.startGust
  extract_lets -lift -merge -useContext -underBinder +onlyGivenNames x0
  try clear_value x0
  extract_lets -lift -merge -useContext -underBinder +onlyGivenNames x1
  try clear_value x1
  extract_lets -lift -merge -useContext -underBinder +onlyGivenNames x2 x3
  have h3 : Keeps State.startGust_parts s0 x3 := by
    unfold x3
    refine Keeps.via (Keeps.upd_vbat_gust _ _ _) rfl ?_
    exact Keeps.refl _ _
  extract_lets -lift -merge -useContext -underBinder +onlyGivenNames x4
  have h4 : Keeps State.startGust_parts s0 x4 := by
    unfold x4
    refine Keeps.via (State.setFld_keeps _ _ _) rfl ?_
    refine Keeps.via (State.bump_keeps _ _ _) rfl ?_
    exact h3
  refine Keeps.via (State.goTo_keeps _ _ _) rfl ?_
  refine Keeps.via (Keeps.upd_pwr _ _) rfl ?_
  exact h4

def State.register_parts : List Part := [.rx, .free, .top, .log, .sb, .links, .twin, .ord, .map, .mir, .sch, .flt, .cal, .clk, .vbat, .pwr, .gust, .fuse, .boot, .flash, .fmt, .dram, .regs]

theorem State.register_keeps (s0 : State) (code : BitVec 2) :
    Keeps State.register_parts s0 (State.register s0 code) := by
  unfold State.register
  extract_lets -lift -merge -useContext -underBinder +onlyGivenNames x0
  try clear_value x0
  extract_lets -lift -merge -useContext -underBinder +onlyGivenNames x1 x2 x3 x4
  have h4 : Keeps State.register_parts s0 x4 := by
    unfold x4
    refine Keeps.via (Keeps.upd_top_log_pwr _ _ _ _) rfl ?_
    exact Keeps.refl _ _
  extract_lets -lift -merge -useContext -underBinder +onlyGivenNames x5
  have h5 : Keeps State.register_parts s0 x5 := by
    unfold x5
    refine Keeps.via (State.endSection_keeps _) rfl ?_
    refine Keeps.via (State.triggerLull_keeps _) rfl ?_
    refine Keeps.via (State.freeze_keeps _) rfl ?_
    refine Keeps.via (State.setFld_keeps _ _ _) rfl ?_
    exact h4
  refine Keeps.ite ?_ ?_
  · refine Keeps.via (State.sendPln_keeps _ _ _) rfl ?_
    refine Keeps.via (State.startGust_keeps _ _) rfl ?_
    exact h5
  · refine Keeps.via (State.startStop_keeps _ _) rfl ?_
    refine Keeps.via (State.sendPln_keeps _ _ _) rfl ?_
    exact h5

def execPowerLossTrigger_parts : List Part := [.rx, .free, .top, .log, .sb, .links, .twin, .ord, .map, .mir, .sch, .flt, .cal, .clk, .vbat, .pwr, .gust, .fuse, .boot, .flash, .fmt, .dram, .regs]

theorem execPowerLossTrigger_keeps (s0 : State) :
    KeepsOut execPowerLossTrigger_parts s0 (execPowerLossTrigger s0) := by
  unfold execPowerLossTrigger
  refine KeepsOut.next ?_
  split
  · refine Keeps.ite ?_ ?_
    · refine Keeps.via (State.register_keeps _ _) rfl ?_
      exact Keeps.refl _ _
    · refine Keeps.via (Keeps.upd_pwr _ _) rfl ?_
      exact Keeps.refl _ _
  · exact Keeps.refl _ _

def State.disagree_parts : List Part := [.pwr]

theorem State.disagree_keeps (s0 : State) :
    Keeps State.disagree_parts s0 (State.disagree s0) := by
  unfold State.disagree
  refine Keeps.ite ?_ ?_
  · exact Keeps.refl _ _
  · refine Keeps.via (Keeps.upd_pwr _ _) rfl ?_
    exact Keeps.refl _ _

def State.closeCalm_parts : List Part := [.top, .pwr, .reg Reg.PWR_HOLD, .reg Reg.PWR_GAUGEDIS]

theorem State.closeCalm_keeps (s0 : State) :
    Keeps State.closeCalm_parts s0 (State.closeCalm s0) := by
  unfold State.closeCalm
  extract_lets -lift -merge -useContext -underBinder +onlyGivenNames x0 x1 x2
  have h2 : Keeps State.closeCalm_parts s0 x2 := by
    unfold x2
    refine Keeps.via (Keeps.upd_top_pwr _ _ _) rfl ?_
    exact Keeps.refl _ _
  refine Keeps.ite ?_ ?_
  · extract_lets -lift -merge -useContext -underBinder +onlyGivenNames x3 x4
    have h4 : Keeps State.closeCalm_parts s0 x4 := by
      unfold x4
      refine Keeps.via (Keeps.upd_pwr _ _) rfl ?_
      exact h2
    refine Keeps.via (State.setFld_keeps _ _ _) rfl ?_
    refine Keeps.via (State.bump_keeps _ _ _) rfl ?_
    exact h4
  · exact h2

def State.enterRestore_parts : List Part := [.rx, .top, .log, .sb, .links, .twin, .ord, .map, .mir, .sch, .flt, .cal, .pwr, .gust, .boot, .reg Reg.GLB_HUBID, .reg Reg.GLB_EVENT, .reg Reg.GLB_DIRSTAT, .reg Reg.GLB_QUIESCE, .block 0x1, .reg Reg.ORD_FWD, .reg Reg.ORD_LINEHOLD, .reg Reg.ORD_FLUSHES, .reg Reg.MIR_CAUSE, .reg Reg.MIR_PENDOCC, .reg Reg.MIR_FWDMISS, .reg Reg.MIR_HOSTAT, .reg Reg.MIR_HOCNT, .reg Reg.DPH_RETSTAT, .reg Reg.ECC_SEALFAIL, .reg Reg.ECC_FIRSTFAIL, .reg Reg.ECC_REPAIR, .reg Reg.PWR_SEQSTAT, .reg Reg.PWR_HOLD, .reg Reg.PWR_CONTENTS, .reg Reg.PWR_GAUGEDIS, .reg Reg.LOG_RINGSTAT, .reg Reg.LOG_CAPTURED, .reg Reg.LOG_COALESCED, .reg Reg.LOG_LOST, .reg Reg.LOG_ORPHANS, .reg Reg.LOG_SQUALLS]

theorem State.enterRestore_keeps (s0 : State) (cause : Byte) (early : Bool) :
    Keeps State.enterRestore_parts s0 (State.enterRestore s0 cause early) := by
  unfold State.enterRestore
  extract_lets -lift -merge -useContext -underBinder +onlyGivenNames x0
  have h0 : Keeps State.enterRestore_parts s0 x0 := by
    unfold x0
    refine Keeps.via (State.setReg_keeps _ _ _) rfl ?_
    refine Keeps.via (State.goTo_keeps _ _ _) rfl ?_
    refine Keeps.via (State.closeCalm_keeps _) rfl ?_
    exact Keeps.refl _ _
  refine Keeps.via (State.startSection_keeps _ _) rfl ?_
  refine Keeps.via (Keeps.upd_gust _ _) rfl ?_
  exact h0

def State.leaveCalm_parts : List Part := [.rx, .top, .log, .sb, .links, .twin, .ord, .map, .mir, .sch, .flt, .cal, .pwr, .gust, .boot, .reg Reg.GLB_HUBID, .reg Reg.GLB_EVENT, .reg Reg.GLB_DIRSTAT, .reg Reg.GLB_QUIESCE, .block 0x1, .reg Reg.ORD_FWD, .reg Reg.ORD_LINEHOLD, .reg Reg.ORD_FLUSHES, .reg Reg.MIR_CAUSE, .reg Reg.MIR_PENDOCC, .reg Reg.MIR_FWDMISS, .reg Reg.MIR_HOSTAT, .reg Reg.MIR_HOCNT, .reg Reg.DPH_RETSTAT, .reg Reg.ECC_SEALFAIL, .reg Reg.ECC_FIRSTFAIL, .reg Reg.ECC_REPAIR, .reg Reg.PWR_SEQSTAT, .reg Reg.PWR_FEEDSTAT, .reg Reg.PWR_HOLD, .reg Reg.PWR_CONTENTS, .reg Reg.PWR_GAUGEDIS, .reg Reg.LOG_RINGSTAT, .reg Reg.LOG_CAPTURED, .reg Reg.LOG_COALESCED, .reg Reg.LOG_LOST, .reg Reg.LOG_ORPHANS, .reg Reg.LOG_SQUALLS]

theorem State.leaveCalm_keeps (s0 : State) (f : Feed) (early : Bool) :
    Keeps State.leaveCalm_parts s0 (State.leaveCalm s0 f early) := by
  unfold State.leaveCalm
  extract_lets -lift -merge -useContext -underBinder +onlyGivenNames x0
  try clear_value x0
  extract_lets -lift -merge -useContext -underBinder +onlyGivenNames x1
  have h1 : Keeps State.leaveCalm_parts s0 x1 := by
    unfold x1
    refine Keeps.via (State.gateOn_keeps _ _) rfl ?_
    exact Keeps.refl _ _
  extract_lets -lift -merge -useContext -underBinder +onlyGivenNames x2 x3
  have h3 : Keeps State.leaveCalm_parts s0 x3 := by
    unfold x3
    refine Keeps.via (Keeps.upd_pwr _ _) rfl ?_
    exact h1
  refine Keeps.ite ?_ ?_
  · refine Keeps.via (State.setFld_keeps _ _ _) rfl ?_
    refine Keeps.via (State.enterRestore_keeps _ _ _) rfl ?_
    refine Keeps.via (State.event_keeps _ _ _) rfl ?_
    exact h3
  · refine Keeps.via (State.enterRestore_keeps _ _ _) rfl ?_
    exact h3

def State.falseWarning_parts : List Part := [.rx, .top, .log, .sb, .links, .twin, .ord, .map, .mir, .sch, .flt, .cal, .pwr, .gust, .boot, .reg Reg.GLB_HUBID, .reg Reg.GLB_EVENT, .reg Reg.GLB_DIRSTAT, .reg Reg.GLB_QUIESCE, .block 0x1, .reg Reg.ORD_FWD, .reg Reg.ORD_LINEHOLD, .reg Reg.ORD_FLUSHES, .reg Reg.MIR_CAUSE, .reg Reg.MIR_PENDOCC, .reg Reg.MIR_FWDMISS, .reg Reg.MIR_HOSTAT, .reg Reg.MIR_HOCNT, .reg Reg.DPH_RETSTAT, .reg Reg.ECC_SEALFAIL, .reg Reg.ECC_FIRSTFAIL, .reg Reg.ECC_REPAIR, .reg Reg.PWR_SEQSTAT, .reg Reg.PWR_HOLD, .reg Reg.PWR_CONTENTS, .reg Reg.PWR_FALSEGUST, .reg Reg.PWR_GAUGEDIS, .reg Reg.LOG_RINGSTAT, .reg Reg.LOG_CAPTURED, .reg Reg.LOG_COALESCED, .reg Reg.LOG_LOST, .reg Reg.LOG_ORPHANS, .reg Reg.LOG_SQUALLS]

theorem State.falseWarning_keeps (s0 : State) :
    Keeps State.falseWarning_parts s0 (State.falseWarning s0) := by
  unfold State.falseWarning
  extract_lets -lift -merge -useContext -underBinder +onlyGivenNames x0
  have h0 : Keeps State.falseWarning_parts s0 x0 := by
    unfold x0
    refine Keeps.via (State.setFld_keeps _ _ _) rfl ?_
    refine Keeps.via (State.event_keeps _ _ _) rfl ?_
    refine Keeps.via (State.bump_keeps _ _ _) rfl ?_
    exact Keeps.refl _ _
  refine Keeps.via (State.enterRestore_keeps _ _ _) rfl ?_
  exact h0

def execCalmFalseWarning_parts : List Part := [.rx, .top, .log, .sb, .links, .twin, .ord, .map, .mir, .sch, .flt, .cal, .pwr, .gust, .boot, .reg Reg.GLB_HUBID, .reg Reg.GLB_EVENT, .reg Reg.GLB_DIRSTAT, .reg Reg.GLB_QUIESCE, .block 0x1, .reg Reg.ORD_FWD, .reg Reg.ORD_LINEHOLD, .reg Reg.ORD_FLUSHES, .reg Reg.MIR_CAUSE, .reg Reg.MIR_PENDOCC, .reg Reg.MIR_FWDMISS, .reg Reg.MIR_HOSTAT, .reg Reg.MIR_HOCNT, .reg Reg.DPH_RETSTAT, .reg Reg.ECC_SEALFAIL, .reg Reg.ECC_FIRSTFAIL, .reg Reg.ECC_REPAIR, .reg Reg.PWR_SEQSTAT, .reg Reg.PWR_HOLD, .reg Reg.PWR_CONTENTS, .reg Reg.PWR_FALSEGUST, .reg Reg.PWR_GAUGEDIS, .reg Reg.LOG_RINGSTAT, .reg Reg.LOG_CAPTURED, .reg Reg.LOG_COALESCED, .reg Reg.LOG_LOST, .reg Reg.LOG_ORPHANS, .reg Reg.LOG_SQUALLS]

theorem execCalmFalseWarning_keeps (s0 : State) :
    KeepsOut execCalmFalseWarning_parts s0 (execCalmFalseWarning s0) := by
  unfold execCalmFalseWarning
  refine KeepsOut.next ?_
  refine Keeps.ite ?_ ?_
  · refine Keeps.via (State.falseWarning_keeps _) rfl ?_
    exact Keeps.refl _ _
  · exact Keeps.refl _ _

def execVbbuCutoff_parts : List Part := [.rx, .free, .top, .log, .sb, .links, .twin, .ord, .map, .mir, .sch, .flt, .cal, .clk, .vbat, .pwr, .gust, .fuse, .boot, .flash, .fmt, .dram, .regs]

theorem execVbbuCutoff_keeps (s0 : State) :
    KeepsOut execVbbuCutoff_parts s0 (execVbbuCutoff s0) := by
  unfold execVbbuCutoff
  refine KeepsOut.next ?_
  refine Keeps.ite ?_ ?_
  · exact Keeps.refl _ _
  · refine Keeps.ite ?_ ?_
    · refine Keeps.via (State.falseWarning_keeps _) rfl ?_
      exact Keeps.refl _ _
    · extract_lets -lift -merge -useContext -underBinder +onlyGivenNames x0
      try clear_value x0
      split
      · refine Keeps.via (State.leaveCalm_keeps _ _ _) rfl ?_
        exact Keeps.refl _ _
      · extract_lets -lift -merge -useContext -underBinder +onlyGivenNames x1
        have h1 : Keeps execVbbuCutoff_parts s0 x1 := by
          unfold x1
          refine Keeps.ite ?_ ?_
          · refine Keeps.via (State.disagree_keeps _) rfl ?_
            exact Keeps.refl _ _
          · exact Keeps.refl _ _
        split
        · refine Keeps.via (State.leaveCalm_keeps _ _ _) rfl ?_
          exact h1
        · refine Keeps.via (State.startStop_keeps _ _) rfl ?_
          refine Keeps.via (State.clearValid_keeps _ _) rfl ?_
          refine Keeps.via (State.closeCalm_keeps _) rfl ?_
          exact h1

def execHoldEnLow_parts : List Part := [.pwr, .reg Reg.PWR_HOLD]

theorem execHoldEnLow_keeps (s0 : State) :
    KeepsOut execHoldEnLow_parts s0 (execHoldEnLow s0) := by
  unfold execHoldEnLow
  refine KeepsOut.next ?_
  refine Keeps.ite ?_ ?_
  · refine Keeps.via (State.setFld_keeps _ _ _) rfl ?_
    refine Keeps.via (Keeps.upd_pwr _ _) rfl ?_
    exact Keeps.refl _ _
  · exact Keeps.refl _ _

def execFeedEntersWindow_parts : List Part := [.rx, .top, .log, .sb, .links, .twin, .ord, .map, .mir, .sch, .flt, .cal, .pwr, .boot, .reg Reg.GLB_HUBID, .reg Reg.GLB_EVENT, .reg Reg.GLB_DIRSTAT, .reg Reg.GLB_QUIESCE, .block 0x1, .reg Reg.ORD_FWD, .reg Reg.ORD_LINEHOLD, .reg Reg.ORD_FLUSHES, .reg Reg.MIR_CAUSE, .reg Reg.MIR_PENDOCC, .reg Reg.MIR_FWDMISS, .reg Reg.MIR_HOSTAT, .reg Reg.MIR_HOCNT, .reg Reg.DPH_RETSTAT, .reg Reg.ECC_SEALFAIL, .reg Reg.ECC_FIRSTFAIL, .reg Reg.ECC_REPAIR, .reg Reg.PWR_FEEDSTAT, .reg Reg.LOG_RINGSTAT, .reg Reg.LOG_CAPTURED, .reg Reg.LOG_COALESCED, .reg Reg.LOG_LOST, .reg Reg.LOG_ORPHANS, .reg Reg.LOG_SQUALLS]

theorem execFeedEntersWindow_keeps (f : Feed) (s0 : State) :
    KeepsOut execFeedEntersWindow_parts s0 (execFeedEntersWindow f s0) := by
  unfold execFeedEntersWindow
  refine KeepsOut.next ?_
  extract_lets -lift -merge -useContext -underBinder +onlyGivenNames x0
  have h0 : Keeps execFeedEntersWindow_parts s0 x0 := by
    unfold x0
    refine Keeps.via (State.endExc_keeps _ _) rfl ?_
    refine Keeps.via (State.setFld_inwinFld_keeps _ _ _) rfl ?_
    exact Keeps.refl _ _
  split
  · refine Keeps.via (State.enterDark_keeps _ _ _) rfl ?_
    exact h0
  · refine Keeps.via (State.enterDark_keeps _ _ _) rfl ?_
    exact h0
  · exact h0

def State.enterSequence_parts : List Part := [.rx, .top, .log, .sb, .links, .twin, .ord, .map, .mir, .sch, .flt, .cal, .pwr, .boot, .reg Reg.GLB_HUBID, .reg Reg.GLB_EVENT, .reg Reg.GLB_DIRSTAT, .reg Reg.GLB_QUIESCE, .block 0x1, .reg Reg.ORD_FWD, .reg Reg.ORD_LINEHOLD, .reg Reg.ORD_FLUSHES, .reg Reg.MIR_CAUSE, .reg Reg.MIR_PENDOCC, .reg Reg.MIR_FWDMISS, .reg Reg.MIR_HOSTAT, .reg Reg.MIR_HOCNT, .reg Reg.DPH_RETSTAT, .reg Reg.ECC_SEALFAIL, .reg Reg.ECC_FIRSTFAIL, .reg Reg.ECC_REPAIR, .reg Reg.PWR_SEQSTAT, .reg Reg.PWR_FEEDSTAT, .reg Reg.PWR_CONTENTS, .reg Reg.LOG_RINGSTAT, .reg Reg.LOG_CAPTURED, .reg Reg.LOG_COALESCED, .reg Reg.LOG_LOST, .reg Reg.LOG_ORPHANS, .reg Reg.LOG_SQUALLS]

theorem State.enterSequence_keeps (s0 : State) :
    Keeps State.enterSequence_parts s0 (State.enterSequence s0) := by
  unfold State.enterSequence
  extract_lets -lift -merge -useContext -underBinder +onlyGivenNames x0
  try clear_value x0
  extract_lets -lift -merge -useContext -underBinder +onlyGivenNames x1
  try clear_value x1
  extract_lets -lift -merge -useContext -underBinder +onlyGivenNames x2
  try clear_value x2
  extract_lets -lift -merge -useContext -underBinder +onlyGivenNames x3
  have h3 : Keeps State.enterSequence_parts s0 x3 := by
    unfold x3
    refine Keeps.via (State.setReg_keeps _ _ _) rfl ?_
    refine Keeps.via (State.gateOn_keeps _ _) rfl ?_
    refine Keeps.via (State.goTo_keeps _ _ _) rfl ?_
    exact Keeps.refl _ _
  extract_lets -lift -merge -useContext -underBinder +onlyGivenNames x4
  have h4 : Keeps State.enterSequence_parts s0 x4 := by
    unfold x4
    refine Keeps.ite ?_ ?_
    · refine Keeps.via (State.event_keeps _ _ _) rfl ?_
      exact h3
    · exact h3
  refine Keeps.via (State.startSection_keeps _ _) rfl ?_
  exact h4

def State.veer_parts : List Part := [.log, .sb, .pwr, .reg Reg.GLB_EVENT, .reg Reg.GLB_DIRSTAT, .reg Reg.PWR_FEEDSTAT, .reg Reg.PWR_VEERS, .reg Reg.LOG_RINGSTAT, .reg Reg.LOG_CAPTURED, .reg Reg.LOG_COALESCED, .reg Reg.LOG_LOST, .reg Reg.LOG_ORPHANS, .reg Reg.LOG_SQUALLS]

theorem State.veer_keeps (s0 : State) (dst : Feed) (code : BitVec 16) :
    Keeps State.veer_parts s0 (State.veer s0 dst code) := by
  unfold State.veer
  extract_lets -lift -merge -useContext -underBinder +onlyGivenNames x0
  try clear_value x0
  extract_lets -lift -merge -useContext -underBinder +onlyGivenNames x1 x2 x3
  have h1 : Keeps State.veer_parts s0 x1 := by
    unfold x1
    refine Keeps.via (State.gateOn_keeps _ _) rfl ?_
    exact Keeps.refl _ _
  have h3 : Keeps State.veer_parts s0 x3 := by
    unfold x3
    refine Keeps.via (Keeps.upd_pwr _ _) rfl ?_
    exact h1
  refine Keeps.via (State.event_keeps _ _ _) rfl ?_
  refine Keeps.via (State.bump_keeps _ _ _) rfl ?_
  exact h3

def State.earlyFails_parts : List Part := [.log, .sb, .vbat, .reg Reg.GLB_EVENT, .reg Reg.GLB_DIRSTAT, .reg Reg.PWR_HOLD, .reg Reg.LOG_RINGSTAT, .reg Reg.LOG_CAPTURED, .reg Reg.LOG_COALESCED, .reg Reg.LOG_LOST, .reg Reg.LOG_ORPHANS, .reg Reg.LOG_SQUALLS]

theorem State.earlyFails_keeps (s0 : State) (f : Feed) :
    Keeps State.earlyFails_parts s0 (State.earlyFails s0 f) := by
  unfold State.earlyFails
  refine Keeps.ite ?_ ?_
  · refine Keeps.via (State.event_keeps _ _ _) rfl ?_
    refine Keeps.via (State.clearValid_keeps _ _) rfl ?_
    refine Keeps.via (State.setFld_keeps _ _ _) rfl ?_
    exact Keeps.refl _ _
  · exact Keeps.refl _ _

def State.suspectFeed_parts : List Part := [.log, .sb, .reg Reg.GLB_EVENT, .reg Reg.GLB_DIRSTAT, .reg Reg.PWR_FEEDSTAT, .reg Reg.LOG_RINGSTAT, .reg Reg.LOG_CAPTURED, .reg Reg.LOG_COALESCED, .reg Reg.LOG_LOST, .reg Reg.LOG_ORPHANS, .reg Reg.LOG_SQUALLS]

theorem State.suspectFeed_keeps (s0 : State) (f : Feed) :
    Keeps State.suspectFeed_parts s0 (State.suspectFeed s0 f) := by
  unfold State.suspectFeed
  split
  · refine Keeps.ite ?_ ?_
    · refine Keeps.via (State.event_keeps _ _ _) rfl ?_
      refine Keeps.via (State.setFld_suspectFld_keeps _ _ _) rfl ?_
      exact Keeps.refl _ _
    · exact Keeps.refl _ _
  · exact Keeps.refl _ _

def execFeedOutOfWindow_parts : List Part := [.rx, .free, .top, .log, .sb, .links, .twin, .ord, .map, .mir, .sch, .flt, .cal, .clk, .vbat, .pwr, .gust, .fuse, .boot, .flash, .fmt, .dram, .regs]

theorem execFeedOutOfWindow_keeps (f : Feed) (s0 : State) :
    KeepsOut execFeedOutOfWindow_parts s0 (execFeedOutOfWindow f s0) := by
  unfold execFeedOutOfWindow
  refine KeepsOut.next ?_
  refine Keeps.ite ?_ ?_
  · exact Keeps.refl _ _
  · extract_lets -lift -merge -useContext -underBinder +onlyGivenNames x0
    try clear_value x0
    extract_lets -lift -merge -useContext -underBinder +onlyGivenNames x1
    have h1 : Keeps execFeedOutOfWindow_parts s0 x1 := by
      unfold x1
      refine Keeps.via (State.endExc_keeps _ _) rfl ?_
      refine Keeps.via (State.setFld_inwinFld_keeps _ _ _) rfl ?_
      exact Keeps.refl _ _
    extract_lets -lift -merge -useContext -underBinder +onlyGivenNames x2
    have h2 : Keeps execFeedOutOfWindow_parts s0 x2 := by
      unfold x2
      refine Keeps.via (State.setFld_gateFld_keeps _ _ _) rfl ?_
      refine Keeps.via (State.setFld_qualFld_keeps _ _ _) rfl ?_
      exact h1
    extract_lets -lift -merge -useContext -underBinder +onlyGivenNames x3
    have h3 : Keeps execFeedOutOfWindow_parts s0 x3 := by
      unfold x3
      refine Keeps.via (State.earlyFails_keeps _ _) rfl ?_
      exact h2
    extract_lets -lift -merge -useContext -underBinder +onlyGivenNames x4
    try clear_value x4
    extract_lets -lift -merge -useContext -underBinder +onlyGivenNames x5
    have h5 : Keeps execFeedOutOfWindow_parts s0 x5 := by
      unfold x5
      refine Keeps.ite ?_ ?_
      · refine Keeps.via (State.suspectFeed_keeps _ _) rfl ?_
        exact h3
      · exact h3
    extract_lets -lift -merge -useContext -underBinder +onlyGivenNames x6
    have h6 : Keeps execFeedOutOfWindow_parts s0 x6 := by
      unfold x6
      refine Keeps.ite ?_ ?_
      · refine Keeps.via (State.veer_keeps _ _ _) rfl ?_
        exact h5
      · exact h5
    extract_lets -lift -merge -useContext -underBinder +onlyGivenNames x7 x8
    have h8 : Keeps execFeedOutOfWindow_parts s0 x8 := by
      unfold x8
      refine Keeps.ite ?_ ?_
      · refine Keeps.via (Keeps.upd_pwr _ _) rfl ?_
        exact h6
      · exact h6
    extract_lets -lift -merge -useContext -underBinder +onlyGivenNames x9
    have h9 : Keeps execFeedOutOfWindow_parts s0 x9 := by
      unfold x9
      refine Keeps.ite ?_ ?_
      · exact h8
      · refine Keeps.via (State.detect_keeps _ _) rfl ?_
        exact h8
    refine Keeps.ite ?_ ?_
    · refine Keeps.via (State.goDark_keeps _) rfl ?_
      exact h9
    · exact h9

def execVeerOldGateOff_parts : List Part := [.pwr, .reg Reg.PWR_FEEDSTAT]

theorem execVeerOldGateOff_keeps (s0 : State) :
    KeepsOut execVeerOldGateOff_parts s0 (execVeerOldGateOff s0) := by
  unfold execVeerOldGateOff
  refine KeepsOut.next ?_
  split
  · extract_lets -lift -merge -useContext -underBinder +onlyGivenNames x0 x1
    have h1 : Keeps execVeerOldGateOff_parts s0 x1 := by
      unfold x1
      refine Keeps.via (Keeps.upd_pwr _ _) rfl ?_
      exact Keeps.refl _ _
    refine Keeps.ite ?_ ?_
    · exact h1
    · refine Keeps.via (State.setFld_gateFld_keeps _ _ _) rfl ?_
      exact h1
  · exact Keeps.refl _ _

def execVeerReturn_parts : List Part := [.log, .sb, .pwr, .reg Reg.GLB_EVENT, .reg Reg.GLB_DIRSTAT, .reg Reg.PWR_FEEDSTAT, .reg Reg.PWR_VEERS, .reg Reg.LOG_RINGSTAT, .reg Reg.LOG_CAPTURED, .reg Reg.LOG_COALESCED, .reg Reg.LOG_LOST, .reg Reg.LOG_ORPHANS, .reg Reg.LOG_SQUALLS]

theorem execVeerReturn_keeps (s0 : State) :
    KeepsOut execVeerReturn_parts s0 (execVeerReturn s0) := by
  unfold execVeerReturn
  refine KeepsOut.next ?_
  extract_lets -lift -merge -useContext -underBinder +onlyGivenNames x0
  try clear_value x0
  refine Keeps.ite ?_ ?_
  · refine Keeps.via (State.veer_keeps _ _ _) rfl ?_
    exact Keeps.refl _ _
  · exact Keeps.refl _ _

def execPlwNAssert_parts : List Part := [.pwr, .reg Reg.PWR_FEEDSTAT]

theorem execPlwNAssert_keeps (ch : Fin 2) (s0 : State) :
    KeepsOut execPlwNAssert_parts s0 (execPlwNAssert ch s0) := by
  unfold execPlwNAssert
  refine KeepsOut.next ?_
  refine Keeps.ite ?_ ?_
  · exact Keeps.refl _ _
  · extract_lets -lift -merge -useContext -underBinder +onlyGivenNames x0
    try clear_value x0
    extract_lets -lift -merge -useContext -underBinder +onlyGivenNames x1
    have h1 : Keeps execPlwNAssert_parts s0 x1 := by
      unfold x1
      refine Keeps.via (State.setFldBit_keeps _ _ _ _) rfl ?_
      exact Keeps.refl _ _
    refine Keeps.ite ?_ ?_
    · exact h1
    · refine Keeps.ite ?_ ?_
      · refine Keeps.via (State.detect_keeps _ _) rfl ?_
        refine Keeps.via (Keeps.upd_pwr _ _) rfl ?_
        exact h1
      · refine Keeps.ite ?_ ?_
        · exact h1
        · refine Keeps.via (Keeps.upd_pwr _ _) rfl ?_
          exact h1

def execPlwNRelease_parts : List Part := [.pwr, .reg Reg.PWR_FEEDSTAT, .reg Reg.PWR_PLWDISC]

theorem execPlwNRelease_keeps (ch : Fin 2) (s0 : State) :
    KeepsOut execPlwNRelease_parts s0 (execPlwNRelease ch s0) := by
  unfold execPlwNRelease
  refine KeepsOut.next ?_
  refine Keeps.ite ?_ ?_
  · exact Keeps.refl _ _
  · extract_lets -lift -merge -useContext -underBinder +onlyGivenNames x0
    have h0 : Keeps execPlwNRelease_parts s0 x0 := by
      unfold x0
      refine Keeps.via (State.setFldBit_keeps _ _ _ _) rfl ?_
      exact Keeps.refl _ _
    extract_lets -lift -merge -useContext -underBinder +onlyGivenNames x1 x2
    have h2 : Keeps execPlwNRelease_parts s0 x2 := by
      unfold x2
      refine Keeps.via (Keeps.upd_pwr _ _) rfl ?_
      exact h0
    refine Keeps.ite ?_ ?_
    · refine Keeps.via (State.bump_keeps _ _ _) rfl ?_
      refine Keeps.via (Keeps.upd_pwr _ _) rfl ?_
      exact h2
    · exact h2

def execPlwDiscrepancyTimeout_parts : List Part := [.log, .sb, .pwr, .reg Reg.GLB_EVENT, .reg Reg.GLB_DIRSTAT, .reg Reg.PWR_PLWDISC, .reg Reg.LOG_RINGSTAT, .reg Reg.LOG_CAPTURED, .reg Reg.LOG_COALESCED, .reg Reg.LOG_LOST, .reg Reg.LOG_ORPHANS, .reg Reg.LOG_SQUALLS]

theorem execPlwDiscrepancyTimeout_keeps (s0 : State) :
    KeepsOut execPlwDiscrepancyTimeout_parts s0 (execPlwDiscrepancyTimeout s0) := by
  unfold execPlwDiscrepancyTimeout
  refine KeepsOut.next ?_
  split
  · extract_lets -lift -merge -useContext -underBinder +onlyGivenNames x0 x1
    have h1 : Keeps execPlwDiscrepancyTimeout_parts s0 x1 := by
      unfold x1
      refine Keeps.via (State.bump_keeps _ _ _) rfl ?_
      refine Keeps.via (Keeps.upd_pwr _ _) rfl ?_
      exact Keeps.refl _ _
    refine Keeps.via (State.detect_keeps _ _) rfl ?_
    refine Keeps.via (State.event_keeps _ _ _) rfl ?_
    exact h1
  · exact Keeps.refl _ _

end Sys2Proof.Machine
end

