-- ==== Sys2Proof/Laws/KeepsGust.lean ====
section
/-!
SUPPORT. The frames of the operations of Machine/Gust.lean: the parts of the state each may change, and that each keeps the canonical
form. A proof of a frame cites these and unfolds nothing.
-/

namespace Sys2Proof.Machine

def State.putLine_parts : List Part := [.dram]

theorem State.putLine_keeps (s0 : State) (a : ℕ) (line : Line) (k : PoisonKind) :
    Keeps State.putLine_parts s0 (State.putLine s0 a line k) := by
  unfold State.putLine
  extract_lets -lift -merge -useContext -underBinder +onlyGivenNames x0
  try clear_value x0
  extract_lets -lift -merge -useContext -underBinder +onlyGivenNames x1
  try clear_value x1
  extract_lets -lift -merge -useContext -underBinder +onlyGivenNames x2
  have h2 : Keeps State.putLine_parts s0 x2 := by
    unfold x2
    refine Keeps.via (State.store_keeps _ _ _ _) rfl ?_
    exact Keeps.refl _ _
  refine Keeps.ite ?_ ?_
  · split
    · refine Keeps.via (State.store_keeps _ _ _ _) rfl ?_
      exact h2
    · exact h2
  · exact h2

def State.putReserve_parts : List Part := [.dram]

theorem State.putReserve_keeps (s0 : State) (off : ℕ) (line : Line) :
    Keeps State.putReserve_parts s0 (State.putReserve s0 off line).1 := by
  unfold State.putReserve
  extract_lets -lift -merge -useContext -underBinder +onlyGivenNames x0
  try clear_value x0
  extract_lets -lift -merge -useContext -underBinder +onlyGivenNames x1
  try clear_value x1
  dsimp -zeta only
  refine Keeps.foldS _ _ ?_ (fun t2 y2 h2 => ?_)
  · exact Keeps.refl _ _
  · refine Keeps.via (State.putLine_keeps _ _ _ _) rfl ?_
    exact h2

def State.putLines_parts : List Part := [.dram]

theorem State.putLines_keeps (off : ℕ) (a1 : List Line) (s0 : State) :
    Keeps State.putLines_parts s0 (State.putLines off a1 s0).1 := by
  induction a1 generalizing off s0 with
  | nil =>
    rw [State.putLines.eq_1]
    dsimp -zeta only
    exact Keeps.refl _ _
  | cons _ _ ih =>
    rw [State.putLines.eq_2]
    dsimp -zeta only
    refine Keeps.trans ?_ (ih _ _)
    refine Keeps.via (State.putReserve_keeps _ _ _) rfl ?_
    exact Keeps.refl _ _

def execGustWritesDrained_parts : List Part := [.gust]

theorem execGustWritesDrained_keeps (s0 : State) :
    KeepsOut execGustWritesDrained_parts s0 (execGustWritesDrained s0) := by
  unfold execGustWritesDrained
  refine KeepsOut.next ?_
  refine Keeps.ite ?_ ?_
  · refine Keeps.via (Keeps.upd_gust _ _) rfl ?_
    exact Keeps.refl _ _
  · exact Keeps.refl _ _

def execGustJournalWritten_parts : List Part := [.log, .sb, .gust, .dram, .reg Reg.GLB_EVENT, .reg Reg.GLB_DIRSTAT, .reg Reg.ECC_SEALFAIL, .reg Reg.ECC_FIRSTFAIL, .reg Reg.LOG_RINGSTAT, .reg Reg.LOG_CAPTURED, .reg Reg.LOG_COALESCED, .reg Reg.LOG_LOST, .reg Reg.LOG_ORPHANS, .reg Reg.LOG_SQUALLS]

theorem execGustJournalWritten_keeps (s0 : State) :
    KeepsOut execGustJournalWritten_parts s0 (execGustJournalWritten s0) := by
  unfold execGustJournalWritten
  refine KeepsOut.next ?_
  refine Keeps.ite ?_ ?_
  · extract_lets -lift -merge -useContext -underBinder +onlyGivenNames x0
    try clear_value x0
    extract_lets -lift -merge -useContext -underBinder +onlyGivenNames x1
    try clear_value x1
    extract_lets -lift -merge -useContext -underBinder +onlyGivenNames x2
    have h2 : Keeps execGustJournalWritten_parts s0 x2 := by
      unfold x2
      refine Keeps.foldS _ _ ?_ (fun t3 y3 h3 => ?_)
      · exact Keeps.refl _ _
      · refine Keeps.via (State.checkSeal_keeps _ _ _) rfl ?_
        exact h3
    extract_lets -lift -merge -useContext -underBinder +onlyGivenNames x4
    try clear_value x4
    extract_lets -lift -merge -useContext -underBinder +onlyGivenNames x5
    have h5 : Keeps execGustJournalWritten_parts s0 x5.1 := by
      unfold x5
      refine Keeps.via (State.putLines_keeps _ _ _) rfl ?_
      exact h2
    extract_lets -lift -merge -useContext -underBinder +onlyGivenNames x6
    have h6 : Keeps execGustJournalWritten_parts s0 x6.1 := by
      unfold x6
      refine Keeps.via (State.putLines_keeps _ _ _) rfl ?_
      exact h5
    extract_lets -lift -merge -useContext -underBinder +onlyGivenNames x7
    have h7 : Keeps execGustJournalWritten_parts s0 x7 := by
      unfold x7
      exact h6
    refine Keeps.via (Keeps.upd_gust _ _) rfl ?_
    exact h7
  · exact Keeps.refl _ _

def execGustHeaderWritten_parts : List Part := [.gust, .dram, .reg Reg.PWR_GUSTSTAT]

theorem execGustHeaderWritten_keeps (s0 : State) :
    KeepsOut execGustHeaderWritten_parts s0 (execGustHeaderWritten s0) := by
  unfold execGustHeaderWritten
  refine KeepsOut.next ?_
  refine Keeps.ite ?_ ?_
  · extract_lets -lift -merge -useContext -underBinder +onlyGivenNames x0
    try clear_value x0
    extract_lets -lift -merge -useContext -underBinder +onlyGivenNames x1
    try clear_value x1
    extract_lets -lift -merge -useContext -underBinder +onlyGivenNames x2
    try clear_value x2
    extract_lets -lift -merge -useContext -underBinder +onlyGivenNames x3
    have h3 : Keeps execGustHeaderWritten_parts s0 x3.1 := by
      unfold x3
      refine Keeps.via (State.putLines_keeps _ _ _) rfl ?_
      exact Keeps.refl _ _
    extract_lets -lift -merge -useContext -underBinder +onlyGivenNames x4
    have h4 : Keeps execGustHeaderWritten_parts s0 x4 := by
      unfold x4
      exact h3
    extract_lets -lift -merge -useContext -underBinder +onlyGivenNames x5 x6
    have h6 : Keeps execGustHeaderWritten_parts s0 x6 := by
      unfold x6
      refine Keeps.via (Keeps.upd_gust _ _) rfl ?_
      exact h4
    extract_lets -lift -merge -useContext -underBinder +onlyGivenNames x7
    have h7 : Keeps execGustHeaderWritten_parts s0 x7 := by
      unfold x7
      refine Keeps.via (State.putReserve_keeps _ _ _) rfl ?_
      exact h6
    extract_lets -lift -merge -useContext -underBinder +onlyGivenNames x8
    have h8 : Keeps execGustHeaderWritten_parts s0 x8 := by
      unfold x8
      refine Keeps.via (State.setFlag_keeps _ _ _) rfl ?_
      refine Keeps.via (State.setFlag_keeps _ _ _) rfl ?_
      exact h7
    refine Keeps.via (State.setFld_keeps _ _ _) rfl ?_
    exact h8
  · exact Keeps.refl _ _

def State.latchPads_parts : List Part := [.sch, .pwr]

theorem State.latchPads_keeps (s0 : State) :
    Keeps State.latchPads_parts s0 (State.latchPads s0) := by
  unfold State.latchPads
  extract_lets -lift -merge -useContext -underBinder +onlyGivenNames x0
  have h0 : Keeps State.latchPads_parts s0 x0 := by
    unfold x0
    refine Keeps.foldS _ _ ?_ (fun t1 y1 h1 => ?_)
    · exact Keeps.refl _ _
    · refine Keeps.via (State.onSub_keeps _ _ _) rfl ?_
      refine Keeps.via (State.stopCk_keeps _ _) rfl ?_
      refine Keeps.via (State.sleepSub_keeps _ _) rfl ?_
      exact h1
  refine Keeps.via (Keeps.upd_pwr _ _) rfl ?_
  exact h0

def execGustSelfRefresh_parts : List Part := [.rx, .free, .top, .log, .sb, .links, .twin, .ord, .map, .mir, .sch, .flt, .cal, .clk, .pwr, .gust, .fuse, .boot, .flash, .fmt, .dram, .regs]

theorem execGustSelfRefresh_keeps (s0 : State) :
    KeepsOut execGustSelfRefresh_parts s0 (execGustSelfRefresh s0) := by
  unfold execGustSelfRefresh
  refine KeepsOut.next ?_
  refine Keeps.ite ?_ ?_
  · refine Keeps.via (State.startStop_keeps _ _) rfl ?_
    extract_lets -lift -merge -useContext -underBinder +onlyGivenNames x0
    have h0 : Keeps execGustSelfRefresh_parts s0 x0 := by
      unfold x0
      refine Keeps.via (State.latchPads_keeps _) rfl ?_
      exact Keeps.refl _ _
    refine Keeps.via (Keeps.upd_gust _ _) rfl ?_
    exact h0
  · exact Keeps.refl _ _

def execCalmEntry_parts : List Part := [.rx, .free, .top, .log, .sb, .links, .twin, .ord, .map, .mir, .sch, .flt, .cal, .clk, .pwr, .gust, .boot, .flash, .regs]

theorem execCalmEntry_keeps (s0 : State) :
    KeepsOut execCalmEntry_parts s0 (execCalmEntry s0) := by
  unfold execCalmEntry
  refine KeepsOut.next ?_
  refine Keeps.ite ?_ ?_
  · extract_lets -lift -merge -useContext -underBinder +onlyGivenNames x0
    try clear_value x0
    extract_lets -lift -merge -useContext -underBinder +onlyGivenNames x1
    have h1 : Keeps execCalmEntry_parts s0 x1 := by
      unfold x1
      refine Keeps.via (State.setFld_keeps _ _ _) rfl ?_
      exact Keeps.refl _ _
    extract_lets -lift -merge -useContext -underBinder +onlyGivenNames x2
    try clear_value x2
    extract_lets -lift -merge -useContext -underBinder +onlyGivenNames x3 x4 x5
    have h5 : Keeps execCalmEntry_parts s0 x5 := by
      unfold x5
      refine Keeps.via (Keeps.upd_pwr_gust _ _ _) rfl ?_
      exact h1
    refine Keeps.via (State.coreStop_keeps _) rfl ?_
    refine Keeps.via (State.goTo_keeps _ _ _) rfl ?_
    exact h5
  · exact Keeps.refl _ _

def State.setReady_parts : List Part := [.log, .sb, .links, .ord, .reg Reg.GLB_EVENT, .reg Reg.GLB_DIRSTAT, .reg Reg.ORD_FLUSHES, .reg Reg.PWR_HOLD, .reg Reg.LOG_RINGSTAT, .reg Reg.LOG_CAPTURED, .reg Reg.LOG_COALESCED, .reg Reg.LOG_LOST, .reg Reg.LOG_ORPHANS, .reg Reg.LOG_SQUALLS]

theorem State.setReady_keeps (s0 : State) (why : ℕ) :
    Keeps State.setReady_parts s0 (State.setReady s0 why) := by
  unfold State.setReady
  extract_lets -lift -merge -useContext -underBinder +onlyGivenNames x0
  have h0 : Keeps State.setReady_parts s0 x0 := by
    unfold x0
    refine Keeps.via (State.setFld_keeps _ _ _) rfl ?_
    refine Keeps.via (State.setFlag_keeps _ _ _) rfl ?_
    exact Keeps.refl _ _
  refine Keeps.via (State.settle_keeps _) rfl ?_
  refine Keeps.via (State.event_keeps _ _ _) rfl ?_
  refine Keeps.via (State.setFld_keeps _ _ _) rfl ?_
  exact h0

def State.judgeReady_parts : List Part := [.log, .sb, .links, .ord, .reg Reg.GLB_EVENT, .reg Reg.GLB_DIRSTAT, .reg Reg.ORD_FLUSHES, .reg Reg.PWR_HOLD, .reg Reg.LOG_RINGSTAT, .reg Reg.LOG_CAPTURED, .reg Reg.LOG_COALESCED, .reg Reg.LOG_LOST, .reg Reg.LOG_ORPHANS, .reg Reg.LOG_SQUALLS]

theorem State.judgeReady_keeps (s0 : State) (silent : Bool) :
    Keeps State.judgeReady_parts s0 (State.judgeReady s0 silent) := by
  unfold State.judgeReady
  extract_lets -lift -merge -useContext -underBinder +onlyGivenNames x0
  try clear_value x0
  refine Keeps.ite ?_ ?_
  · exact Keeps.refl _ _
  · refine Keeps.ite ?_ ?_
    · refine Keeps.via (State.setReady_keeps _ _) rfl ?_
      exact Keeps.refl _ _
    · refine Keeps.via (State.setFld_keeps _ _ _) rfl ?_
      exact Keeps.refl _ _

def execHoldupReadyChange_parts : List Part := [.log, .sb, .links, .ord, .reg Reg.GLB_EVENT, .reg Reg.GLB_DIRSTAT, .reg Reg.ORD_FLUSHES, .reg Reg.PWR_HOLD, .reg Reg.LOG_RINGSTAT, .reg Reg.LOG_CAPTURED, .reg Reg.LOG_COALESCED, .reg Reg.LOG_LOST, .reg Reg.LOG_ORPHANS, .reg Reg.LOG_SQUALLS]

theorem execHoldupReadyChange_keeps (silent : Bool) (s0 : State) :
    KeepsOut execHoldupReadyChange_parts s0 (execHoldupReadyChange silent s0) := by
  unfold execHoldupReadyChange
  refine KeepsOut.next ?_
  refine Keeps.ite ?_ ?_
  · exact Keeps.refl _ _
  · refine Keeps.ite ?_ ?_
    · refine Keeps.ite ?_ ?_
      · exact Keeps.refl _ _
      · refine Keeps.via (State.setReady_keeps _ _) rfl ?_
        exact Keeps.refl _ _
    · refine Keeps.via (State.judgeReady_keeps _ _) rfl ?_
      exact Keeps.refl _ _

def State.recalibrate_parts : List Part := [.log, .sb, .pwr, .reg Reg.GLB_EVENT, .reg Reg.GLB_DIRSTAT, .reg Reg.PWR_HOLD, .reg Reg.LOG_RINGSTAT, .reg Reg.LOG_CAPTURED, .reg Reg.LOG_COALESCED, .reg Reg.LOG_LOST, .reg Reg.LOG_ORPHANS, .reg Reg.LOG_SQUALLS]

theorem State.recalibrate_keeps (s0 : State) :
    Keeps State.recalibrate_parts s0 (State.recalibrate s0) := by
  unfold State.recalibrate
  refine Keeps.ite ?_ ?_
  · extract_lets -lift -merge -useContext -underBinder +onlyGivenNames x0 x1
    have h1 : Keeps State.recalibrate_parts s0 x1 := by
      unfold x1
      refine Keeps.via (Keeps.upd_pwr _ _) rfl ?_
      exact Keeps.refl _ _
    refine Keeps.via (State.setFld_keeps _ _ _) rfl ?_
    refine Keeps.via (State.event_keeps _ _ _) rfl ?_
    exact h1
  · exact Keeps.refl _ _

def execGaugePoll_parts : List Part := [.log, .sb, .links, .ord, .pwr, .reg Reg.GLB_EVENT, .reg Reg.GLB_DIRSTAT, .reg Reg.ORD_FLUSHES, .reg Reg.PWR_HOLD, .reg Reg.PWR_GAUGE, .reg Reg.PWR_GAUGEVS, .reg Reg.PWR_GAUGECUR, .reg Reg.LOG_RINGSTAT, .reg Reg.LOG_CAPTURED, .reg Reg.LOG_COALESCED, .reg Reg.LOG_LOST, .reg Reg.LOG_ORPHANS, .reg Reg.LOG_SQUALLS]

theorem execGaugePoll_keeps (found : Option GaugeRead) (s0 : State) :
    KeepsOut execGaugePoll_parts s0 (execGaugePoll found s0) := by
  unfold execGaugePoll
  refine KeepsOut.next ?_
  refine Keeps.ite ?_ ?_
  · exact Keeps.refl _ _
  · extract_lets -lift -merge -useContext -underBinder +onlyGivenNames x0
    have h0 : Keeps execGaugePoll_parts s0 x0 := by
      unfold x0
      split
      · extract_lets -lift -merge -useContext -underBinder +onlyGivenNames x1
        have h1 : Keeps execGaugePoll_parts s0 x1 := by
          unfold x1
          refine Keeps.via (State.setFld_keeps _ _ _) rfl ?_
          refine Keeps.via (State.setFld_keeps _ _ _) rfl ?_
          exact Keeps.refl _ _
        extract_lets -lift -merge -useContext -underBinder +onlyGivenNames x2
        have h2 : Keeps execGaugePoll_parts s0 x2 := by
          unfold x2
          refine Keeps.via (State.setFld_keeps _ _ _) rfl ?_
          refine Keeps.via (State.setFld_keeps _ _ _) rfl ?_
          exact h1
        extract_lets -lift -merge -useContext -underBinder +onlyGivenNames x3
        have h3 : Keeps execGaugePoll_parts s0 x3 := by
          unfold x3
          refine Keeps.via (State.setFld_keeps _ _ _) rfl ?_
          exact h2
        extract_lets -lift -merge -useContext -underBinder +onlyGivenNames x4 x5
        have h5 : Keeps execGaugePoll_parts s0 x5 := by
          unfold x5
          refine Keeps.via (Keeps.upd_pwr _ _) rfl ?_
          exact h3
        extract_lets -lift -merge -useContext -underBinder +onlyGivenNames x6
        try clear_value x6
        extract_lets -lift -merge -useContext -underBinder +onlyGivenNames x7
        try clear_value x7
        refine Keeps.via (State.recalibrate_keeps _) rfl ?_
        refine Keeps.ite ?_ ?_
        · refine Keeps.via (State.disagree_keeps _) rfl ?_
          exact h5
        · exact h5
      · exact Keeps.refl _ _
    refine Keeps.via (State.judgeReady_keeps _ _) rfl ?_
    exact h0

def execAdcConversion_parts : List Part := [.log, .sb, .links, .ord, .reg Reg.GLB_EVENT, .reg Reg.GLB_DIRSTAT, .reg Reg.ORD_FLUSHES, .block 0xA, .reg Reg.LOG_RINGSTAT, .reg Reg.LOG_CAPTURED, .reg Reg.LOG_COALESCED, .reg Reg.LOG_LOST, .reg Reg.LOG_ORPHANS, .reg Reg.LOG_SQUALLS]

theorem execAdcConversion_keeps (readings : List (BitVec 12)) (vbbu : BitVec 12) (s0 : State) :
    KeepsOut execAdcConversion_parts s0 (execAdcConversion readings vbbu s0) := by
  unfold execAdcConversion
  refine KeepsOut.next ?_
  refine Keeps.ite ?_ ?_
  · exact Keeps.refl _ _
  · extract_lets -lift -merge -useContext -underBinder +onlyGivenNames x0
    have h0 : Keeps execAdcConversion_parts s0 x0 := by
      unfold x0
      refine Keeps.foldS _ _ ?_ (fun t1 y1 h1 => ?_)
      · exact Keeps.refl _ _
      · split
        · unfold State.convert
          refine Keeps.viaBlock (b := 10) (State.setFld_keeps _ _ _) (fam_block _ _ _ _ rfl (by decide)) rfl ?_
          refine Keeps.viaBlock (b := 10) (State.setFld_keeps _ _ _) (fam_block _ _ _ _ rfl (by decide)) rfl ?_
          exact h1
        · exact h1
    refine Keeps.via (State.judgeReady_keeps _ _) rfl ?_
    unfold State.convert
    refine Keeps.via (State.setFld_keeps _ _ _) rfl ?_
    refine Keeps.via (State.setFld_keeps _ _ _) rfl ?_
    exact h0

end Sys2Proof.Machine
end

