-- ==== Sys2Proof/Laws/KeepsRestore.lean ====
section
/-!
SUPPORT. The frames of the operations of Machine/Restore.lean: the parts of the state each may change, and that each keeps the canonical
form. A proof of a frame cites these and unfolds nothing.
-/

namespace Sys2Proof.Machine

def State.fixReport_parts : List Part := [.reg Reg.GLB_EVENT, .reg Reg.PWR_CONTENTS]

theorem State.fixReport_keeps (s0 : State) (report : ℕ) (reason : ℕ) (all : Bool) :
    Keeps State.fixReport_parts s0 (State.fixReport s0 report reason all) := by
  unfold State.fixReport
  refine Keeps.via (State.setFld_keeps _ _ _) rfl ?_
  refine Keeps.via (State.setReg_keeps _ _ _) rfl ?_
  exact Keeps.refl _ _

def State.enterHold_parts : List Part := [.rx, .top, .log, .sb, .links, .twin, .ord, .map, .mir, .sch, .flt, .cal, .pwr, .gust, .boot, .reg Reg.GLB_HUBID, .reg Reg.GLB_EVENT, .reg Reg.GLB_DIRSTAT, .reg Reg.GLB_QUIESCE, .block 0x1, .reg Reg.ORD_FWD, .reg Reg.ORD_LINEHOLD, .reg Reg.ORD_FLUSHES, .reg Reg.MIR_CAUSE, .reg Reg.MIR_PENDOCC, .reg Reg.MIR_FWDMISS, .reg Reg.MIR_HOSTAT, .reg Reg.MIR_HOCNT, .reg Reg.DPH_RETSTAT, .reg Reg.ECC_SEALFAIL, .reg Reg.ECC_FIRSTFAIL, .reg Reg.ECC_REPAIR, .reg Reg.MGT_BOOTSTAT, .reg Reg.LOG_RINGSTAT, .reg Reg.LOG_CAPTURED, .reg Reg.LOG_COALESCED, .reg Reg.LOG_LOST, .reg Reg.LOG_ORPHANS, .reg Reg.LOG_SQUALLS]

theorem State.enterHold_keeps (s0 : State) (hold : ℕ) (cause : Byte) :
    Keeps State.enterHold_parts s0 (State.enterHold s0 hold cause) := by
  unfold State.enterHold
  extract_lets -lift -merge -useContext -underBinder +onlyGivenNames x0 x1 x2
  have h2 : Keeps State.enterHold_parts s0 x2 := by
    unfold x2
    refine Keeps.via (Keeps.upd_gust_boot _ _ _) rfl ?_
    exact Keeps.refl _ _
  refine Keeps.via (State.goTo_keeps _ _ _) rfl ?_
  refine Keeps.via (State.event_keeps _ _ _) rfl ?_
  refine Keeps.via (State.setFld_keeps _ _ _) rfl ?_
  exact h2

def State.setTable_parts : List Part := [.map, .reg Reg.MAP_USE, .reg Reg.MAP_TBLSRC]

theorem State.setTable_keeps (s0 : State) (t : Tab Word) (source : ℕ) (bad : Bool) :
    Keeps State.setTable_parts s0 (State.setTable s0 t source bad) := by
  unfold State.setTable
  extract_lets -lift -merge -useContext -underBinder +onlyGivenNames x0
  have h0 : Keeps State.setTable_parts s0 x0 := by
    unfold x0
    refine Keeps.via (Keeps.upd_map _ _) rfl ?_
    exact Keeps.refl _ _
  extract_lets -lift -merge -useContext -underBinder +onlyGivenNames x1
  try clear_value x1
  extract_lets -lift -merge -useContext -underBinder +onlyGivenNames x2
  have h2 : Keeps State.setTable_parts s0 x2 := by
    unfold x2
    refine Keeps.via (State.satF_keeps _ _ _) rfl ?_
    refine Keeps.via (State.satF_keeps _ _ _) rfl ?_
    exact h0
  refine Keeps.via (State.setFlag_keeps _ _ _) rfl ?_
  refine Keeps.via (State.setFld_keeps _ _ _) rfl ?_
  exact h2

def State.takeShadow_parts : List Part := [.log, .sb, .map, .reg Reg.GLB_EVENT, .reg Reg.GLB_DIRSTAT, .reg Reg.MAP_USE, .reg Reg.MAP_TBLSRC, .reg Reg.LOG_RINGSTAT, .reg Reg.LOG_CAPTURED, .reg Reg.LOG_COALESCED, .reg Reg.LOG_LOST, .reg Reg.LOG_ORPHANS, .reg Reg.LOG_SQUALLS]

theorem State.takeShadow_keeps (s0 : State) (t : Tab Word) :
    Keeps State.takeShadow_parts s0 (State.takeShadow s0 t) := by
  unfold State.takeShadow
  extract_lets -lift -merge -useContext -underBinder +onlyGivenNames x0
  try clear_value x0
  extract_lets -lift -merge -useContext -underBinder +onlyGivenNames x1
  have h1 : Keeps State.takeShadow_parts s0 x1 := by
    unfold x1
    refine Keeps.via (State.setTable_keeps _ _ _ _) rfl ?_
    exact Keeps.refl _ _
  refine Keeps.foldS _ _ ?_ (fun t2 y2 h2 => ?_)
  · exact h1
  · refine Keeps.via (State.event_keeps _ _ _) rfl ?_
    exact h2

def State.writeShadow_parts : List Part := [.log, .sb, .links, .twin, .ord, .mir, .sch, .reg Reg.GLB_EVENT, .reg Reg.GLB_DIRSTAT, .reg Reg.ORD_FWD, .reg Reg.ORD_LINEHOLD, .reg Reg.ECC_SEALFAIL, .reg Reg.ECC_FIRSTFAIL, .reg Reg.LOG_RINGSTAT, .reg Reg.LOG_CAPTURED, .reg Reg.LOG_COALESCED, .reg Reg.LOG_LOST, .reg Reg.LOG_ORPHANS, .reg Reg.LOG_SQUALLS]

theorem State.writeShadow_keeps (s0 : State) :
    Keeps State.writeShadow_parts s0 (State.writeShadow s0) := by
  unfold State.writeShadow
  extract_lets -lift -merge -useContext -underBinder +onlyGivenNames x0
  try clear_value x0
  refine Keeps.via (State.agentAsk_keeps _ _) rfl ?_
  exact Keeps.refl _ _

def State.settleRanks_parts : List Part := [.map]

theorem State.settleRanks_keeps (s0 : State) :
    Keeps State.settleRanks_parts s0 (State.settleRanks s0) := by
  unfold State.settleRanks
  refine Keeps.ite ?_ ?_
  · refine Keeps.via (State.allOffline_keeps _) rfl ?_
    exact Keeps.refl _ _
  · exact Keeps.refl _ _

def State.loadFault_parts : List Part := [.sch, .flt]

theorem State.loadFault_keeps (s0 : State) (l : Line) :
    Keeps State.loadFault_parts s0 (State.loadFault s0 l) := by
  unfold State.loadFault
  extract_lets -lift -merge -useContext -underBinder +onlyGivenNames x0
  try clear_value x0
  extract_lets -lift -merge -useContext -underBinder +onlyGivenNames x1
  try clear_value x1
  extract_lets -lift -merge -useContext -underBinder +onlyGivenNames x2
  try clear_value x2
  extract_lets -lift -merge -useContext -underBinder +onlyGivenNames x3 x4
  have h4 : Keeps State.loadFault_parts s0 x4 := by
    unfold x4
    refine Keeps.via (Keeps.upd_flt _ _) rfl ?_
    exact Keeps.refl _ _
  refine Keeps.foldS _ _ ?_ (fun t5 y5 h5 => ?_)
  · exact h4
  · extract_lets -lift -merge -useContext -underBinder +onlyGivenNames x6
    try clear_value x6
    extract_lets -lift -merge -useContext -underBinder +onlyGivenNames x7
    try clear_value x7
    extract_lets -lift -merge -useContext -underBinder +onlyGivenNames x8
    have h8 : Keeps State.loadFault_parts s0 x8 := by
      unfold x8
      refine Keeps.ite ?_ ?_
      · refine Keeps.via (State.holdCs_keeps _ _ _) rfl ?_
        exact h5
      · exact h5
    refine Keeps.via (State.onRank_keeps _ _ _) rfl ?_
    exact h8

def State.rereadFault_parts : List Part := [.log, .sb, .links, .twin, .ord, .mir, .sch, .flt, .reg Reg.GLB_EVENT, .reg Reg.GLB_DIRSTAT, .reg Reg.ORD_FWD, .reg Reg.ORD_LINEHOLD, .block 0x8, .reg Reg.LOG_RINGSTAT, .reg Reg.LOG_CAPTURED, .reg Reg.LOG_COALESCED, .reg Reg.LOG_LOST, .reg Reg.LOG_ORPHANS, .reg Reg.LOG_SQUALLS]

theorem State.rereadFault_keeps (s0 : State) :
    Keeps State.rereadFault_parts s0 (State.rereadFault s0) := by
  unfold State.rereadFault
  extract_lets -lift -merge -useContext -underBinder +onlyGivenNames x0
  have h0 : Keeps State.rereadFault_parts s0 x0.1 := by
    unfold x0
    refine Keeps.via (State.fetchReserve_keeps _ _) rfl ?_
    exact Keeps.refl _ _
  split
  · refine Keeps.ite ?_ ?_
    · refine Keeps.via (State.loadFault_keeps _ _) rfl ?_
      exact h0
    · exact h0
  · exact h0

def State.takeFault_parts : List Part := [.log, .sb, .sch, .flt, .reg Reg.GLB_EVENT, .reg Reg.GLB_DIRSTAT, .reg Reg.LOG_RINGSTAT, .reg Reg.LOG_CAPTURED, .reg Reg.LOG_COALESCED, .reg Reg.LOG_LOST, .reg Reg.LOG_ORPHANS, .reg Reg.LOG_SQUALLS]

theorem State.takeFault_keeps (s0 : State) (header : Option Line) (record : Option Line) :
    Keeps State.takeFault_parts s0 (State.takeFault s0 header record) := by
  unfold State.takeFault
  split
  · refine Keeps.ite ?_ ?_
    · split
      · refine Keeps.ite ?_ ?_
        · refine Keeps.via (State.loadFault_keeps _ _) rfl ?_
          exact Keeps.refl _ _
        · refine Keeps.via (State.event_keeps _ _ _) rfl ?_
          exact Keeps.refl _ _
      · refine Keeps.via (State.event_keeps _ _ _) rfl ?_
        exact Keeps.refl _ _
    · exact Keeps.refl _ _
  · exact Keeps.refl _ _

def State.initReserve_parts : List Part := [.fmt, .dram]

theorem State.initReserve_keeps (s0 : State) :
    Keeps State.initReserve_parts s0 (State.initReserve s0) := by
  unfold State.initReserve
  extract_lets -lift -merge -useContext -underBinder +onlyGivenNames x0
  try clear_value x0
  extract_lets -lift -merge -useContext -underBinder +onlyGivenNames x1
  try clear_value x1
  extract_lets -lift -merge -useContext -underBinder +onlyGivenNames x2
  try clear_value x2
  extract_lets -lift -merge -useContext -underBinder +onlyGivenNames x3
  try clear_value x3
  extract_lets -lift -merge -useContext -underBinder +onlyGivenNames x4
  try clear_value x4
  extract_lets -lift -merge -useContext -underBinder +onlyGivenNames x5
  have h5 : Keeps State.initReserve_parts s0 x5 := by
    unfold x5
    refine Keeps.via (Keeps.clear_dram _ _) rfl ?_
    exact Keeps.refl _ _
  extract_lets -lift -merge -useContext -underBinder +onlyGivenNames x6
  have h6 : Keeps State.initReserve_parts s0 x6 := by
    unfold x6
    refine Keeps.foldS _ _ ?_ (fun t7 y7 h7 => ?_)
    · exact h5
    · refine Keeps.via (State.store_keeps _ _ _ _) rfl ?_
      exact h7
  refine Keeps.foldS _ _ ?_ (fun t8 y8 h8 => ?_)
  · exact h6
  · refine Keeps.via (State.store_keeps _ _ _ _) rfl ?_
    exact h8

def State.writeNamed_parts : List Part := [.log, .sb, .links, .twin, .ord, .mir, .sch, .reg Reg.GLB_EVENT, .reg Reg.GLB_DIRSTAT, .reg Reg.ORD_FWD, .reg Reg.ORD_LINEHOLD, .reg Reg.ECC_SEALFAIL, .reg Reg.ECC_FIRSTFAIL, .reg Reg.LOG_RINGSTAT, .reg Reg.LOG_CAPTURED, .reg Reg.LOG_COALESCED, .reg Reg.LOG_LOST, .reg Reg.LOG_ORPHANS, .reg Reg.LOG_SQUALLS]

theorem State.writeNamed_keeps (s0 : State) :
    Keeps State.writeNamed_parts s0 (State.writeNamed s0) := by
  unfold State.writeNamed
  extract_lets -lift -merge -useContext -underBinder +onlyGivenNames x0 x1
  have h1 : Keeps State.writeNamed_parts s0 x1 := by
    unfold x1
    refine Keeps.via (Keeps.upd_mir _ _) rfl ?_
    exact Keeps.refl _ _
  extract_lets -lift -merge -useContext -underBinder +onlyGivenNames x2
  try clear_value x2
  refine Keeps.via (State.agentAsk_keeps _ _) rfl ?_
  exact h1

def execTrainEnd_parts : List Part := [.rx, .top, .log, .sb, .links, .twin, .ord, .map, .mir, .sch, .flt, .cal, .vbat, .pwr, .gust, .boot, .fmt, .dram, .reg Reg.GLB_HUBID, .reg Reg.GLB_EVENT, .reg Reg.GLB_DIRSTAT, .reg Reg.GLB_QUIESCE, .block 0x1, .reg Reg.ORD_FWD, .reg Reg.ORD_LINEHOLD, .reg Reg.ORD_FLUSHES, .reg Reg.MAP_USE, .reg Reg.MAP_TBLSRC, .reg Reg.MIR_CAUSE, .reg Reg.MIR_PENDOCC, .reg Reg.MIR_FWDMISS, .reg Reg.MIR_HOSTAT, .reg Reg.MIR_HOCNT, .reg Reg.DPH_RETSTAT, .reg Reg.ECC_SEALFAIL, .reg Reg.ECC_FIRSTFAIL, .reg Reg.ECC_REPAIR, .reg Reg.PWR_HOLD, .reg Reg.MGT_BOOTSTAT, .reg Reg.LOG_RINGSTAT, .reg Reg.LOG_CAPTURED, .reg Reg.LOG_COALESCED, .reg Reg.LOG_LOST, .reg Reg.LOG_ORPHANS, .reg Reg.LOG_SQUALLS]

theorem execTrainEnd_keeps (header : Option Line) (record : Option Line) (s0 : State) :
    KeepsOut execTrainEnd_parts s0 (execTrainEnd header record s0) := by
  unfold execTrainEnd
  refine KeepsOut.next ?_
  refine Keeps.ite ?_ ?_
  · extract_lets -lift -merge -useContext -underBinder +onlyGivenNames x0
    have h0 : Keeps execTrainEnd_parts s0 x0 := by
      unfold x0
      refine Keeps.via (State.keepStore_keeps _) rfl ?_
      exact Keeps.refl _ _
    refine Keeps.ite ?_ ?_
    · extract_lets -lift -merge -useContext -underBinder +onlyGivenNames x1
      have h1 : Keeps execTrainEnd_parts s0 x1 := by
        unfold x1
        refine Keeps.via (State.setTable_keeps _ _ _ _) rfl ?_
        refine Keeps.via (State.retireFailed_keeps _ _) rfl ?_
        refine Keeps.via (State.takeFault_keeps _ _ _) rfl ?_
        exact h0
      extract_lets -lift -merge -useContext -underBinder +onlyGivenNames x2
      have h2 : Keeps execTrainEnd_parts s0 x2 := by
        unfold x2
        refine Keeps.foldS _ _ ?_ (fun t3 y3 h3 => ?_)
        · exact h1
        · refine Keeps.via (State.onSub_keeps _ _ _) rfl ?_
          exact h3
      refine Keeps.via (State.settleRanks_keeps _) rfl ?_
      refine Keeps.via (State.writeNamed_keeps _) rfl ?_
      refine Keeps.via (State.goTo_keeps _ _ _) rfl ?_
      refine Keeps.via (State.setValid_keeps _) rfl ?_
      refine Keeps.via (State.initReserve_keeps _) rfl ?_
      exact h2
    · refine Keeps.via (State.enterHold_keeps _ _ _) rfl ?_
      refine Keeps.via (State.retireFailed_keeps _ _) rfl ?_
      exact h0
  · exact Keeps.refl _ _

def State.loadBitmap_parts : List Part := [.free, .log, .sb, .links, .twin, .ord, .mir, .sch, .reg Reg.GLB_EVENT, .reg Reg.GLB_DIRSTAT, .reg Reg.ORD_FWD, .reg Reg.ORD_LINEHOLD, .block 0x8, .reg Reg.LOG_RINGSTAT, .reg Reg.LOG_CAPTURED, .reg Reg.LOG_COALESCED, .reg Reg.LOG_LOST, .reg Reg.LOG_ORPHANS, .reg Reg.LOG_SQUALLS]

theorem State.loadBitmap_keeps (s0 : State) :
    Keeps State.loadBitmap_parts s0 (State.loadBitmap s0) := by
  unfold State.loadBitmap
  extract_lets -lift -merge -useContext -underBinder +onlyGivenNames x0
  have h0 : Keeps State.loadBitmap_parts s0 x0.1 := by
    unfold x0
    refine Keeps.via (State.fetchRun_keeps _ _ _) rfl ?_
    exact Keeps.refl _ _
  extract_lets -lift -merge -useContext -underBinder +onlyGivenNames x1
  have h1 : Keeps State.loadBitmap_parts s0 x1 := by
    unfold x1
    exact h0
  extract_lets -lift -merge -useContext -underBinder +onlyGivenNames x2
  try clear_value x2
  extract_lets -lift -merge -useContext -underBinder +onlyGivenNames x3
  try clear_value x3
  refine Keeps.via (Keeps.upd_free_mir _ _ _) rfl ?_
  exact h1

def State.noteUnread_parts : List Part := [.gust]

theorem State.noteUnread_keeps (s0 : State) (ls : List (Option Line)) :
    Keeps State.noteUnread_parts s0 (State.noteUnread s0 ls) := by
  unfold State.noteUnread
  refine Keeps.ite ?_ ?_
  · refine Keeps.via (Keeps.upd_gust _ _) rfl ?_
    exact Keeps.refl _ _
  · exact Keeps.refl _ _

def State.slotMarks_parts : List Part := [.log, .sb, .links, .twin, .ord, .mir, .sch, .gust, .reg Reg.GLB_EVENT, .reg Reg.GLB_DIRSTAT, .reg Reg.ORD_FWD, .reg Reg.ORD_LINEHOLD, .block 0x8, .reg Reg.LOG_RINGSTAT, .reg Reg.LOG_CAPTURED, .reg Reg.LOG_COALESCED, .reg Reg.LOG_LOST, .reg Reg.LOG_ORPHANS, .reg Reg.LOG_SQUALLS]

theorem State.slotMarks_keeps (s0 : State) (slot : ℕ) (n : ℕ) :
    Keeps State.slotMarks_parts s0 (State.slotMarks s0 slot n).1 := by
  unfold State.slotMarks
  extract_lets -lift -merge -useContext -underBinder +onlyGivenNames x0
  have h0 : Keeps State.slotMarks_parts s0 x0.1 := by
    unfold x0
    refine Keeps.via (State.fetchRun_keeps _ _ _) rfl ?_
    exact Keeps.refl _ _
  dsimp -zeta only
  refine Keeps.via (State.noteUnread_keeps _ _) rfl ?_
  exact h0

def State.slotLines_parts : List Part := [.log, .sb, .links, .twin, .ord, .mir, .sch, .gust, .reg Reg.GLB_EVENT, .reg Reg.GLB_DIRSTAT, .reg Reg.ORD_FWD, .reg Reg.ORD_LINEHOLD, .block 0x8, .reg Reg.LOG_RINGSTAT, .reg Reg.LOG_CAPTURED, .reg Reg.LOG_COALESCED, .reg Reg.LOG_LOST, .reg Reg.LOG_ORPHANS, .reg Reg.LOG_SQUALLS]

theorem State.slotLines_keeps (s0 : State) (newest : Bool) (slot : ℕ) (first : ℕ) (n : ℕ) :
    Keeps State.slotLines_parts s0 (State.slotLines s0 newest slot first n).1 := by
  unfold State.slotLines
  extract_lets -lift -merge -useContext -underBinder +onlyGivenNames x0
  have h0 : Keeps State.slotLines_parts s0 x0.1 := by
    unfold x0
    refine Keeps.via (State.fetchRun_keeps _ _ _) rfl ?_
    exact Keeps.refl _ _
  extract_lets -lift -merge -useContext -underBinder +onlyGivenNames x1
  have h1 : Keeps State.slotLines_parts s0 x1.1 := by
    unfold x1
    refine Keeps.via (State.fetchRun_keeps _ _ _) rfl ?_
    exact h0
  extract_lets -lift -merge -useContext -underBinder +onlyGivenNames x2
  have h2 : Keeps State.slotLines_parts s0 x2 := by
    unfold x2
    refine Keeps.via (State.noteUnread_keeps _ _) rfl ?_
    exact h1
  dsimp -zeta only
  exact h2

def State.pendingLines_parts : List Part := [.log, .sb, .links, .twin, .ord, .mir, .sch, .gust, .reg Reg.GLB_EVENT, .reg Reg.GLB_DIRSTAT, .reg Reg.ORD_FWD, .reg Reg.ORD_LINEHOLD, .block 0x8, .reg Reg.LOG_RINGSTAT, .reg Reg.LOG_CAPTURED, .reg Reg.LOG_COALESCED, .reg Reg.LOG_LOST, .reg Reg.LOG_ORPHANS, .reg Reg.LOG_SQUALLS]

theorem State.pendingLines_keeps (s0 : State) (slots : List (ℕ × Line)) :
    Keeps State.pendingLines_parts s0 (State.pendingLines s0 slots).1 := by
  unfold State.pendingLines
  split
  · dsimp -zeta only
    exact Keeps.refl _ _
  · extract_lets -lift -merge -useContext -underBinder +onlyGivenNames x0
    have h0 : Keeps State.pendingLines_parts s0 x0.1 := by
      unfold x0
      refine Keeps.via (State.slotLines_keeps _ _ _ _ _) rfl ?_
      exact Keeps.refl _ _
    split
    · refine Keeps.iteL ?_ ?_
      · extract_lets -lift -merge -useContext -underBinder +onlyGivenNames x1
        have h1 : Keeps State.pendingLines_parts s0 x1.1 := by
          unfold x1
          refine Keeps.via (State.slotLines_keeps _ _ _ _ _) rfl ?_
          exact h0
        dsimp -zeta only
        exact h1
      · exact h0
    · exact h0

def State.fetchHeaders_parts : List Part := [.log, .sb, .reg Reg.GLB_EVENT, .reg Reg.GLB_DIRSTAT, .reg Reg.ORD_FWD, .block 0x8, .reg Reg.LOG_RINGSTAT, .reg Reg.LOG_CAPTURED, .reg Reg.LOG_COALESCED, .reg Reg.LOG_LOST, .reg Reg.LOG_ORPHANS, .reg Reg.LOG_SQUALLS]

theorem State.fetchHeaders_keeps (s0 : State) :
    Keeps State.fetchHeaders_parts s0 (State.fetchHeaders s0) := by
  unfold State.fetchHeaders
  refine Keeps.foldS _ _ ?_ (fun t0 y0 h0 => ?_)
  · exact Keeps.refl _ _
  · extract_lets -lift -merge -useContext -underBinder +onlyGivenNames x1
    try clear_value x1
    refine Keeps.via (State.fetchCopy_keeps _ _) rfl ?_
    refine Keeps.via (State.fetchCopy_keeps _ _) rfl ?_
    exact h0

def State.putMarks_parts : List Part := [.log, .sb, .links, .twin, .ord, .mir, .sch, .reg Reg.GLB_EVENT, .reg Reg.GLB_DIRSTAT, .reg Reg.ORD_FWD, .reg Reg.ORD_LINEHOLD, .reg Reg.ECC_SEALFAIL, .reg Reg.ECC_FIRSTFAIL, .reg Reg.LOG_RINGSTAT, .reg Reg.LOG_CAPTURED, .reg Reg.LOG_COALESCED, .reg Reg.LOG_LOST, .reg Reg.LOG_ORPHANS, .reg Reg.LOG_SQUALLS]

theorem State.putMarks_keeps (s0 : State) (gs : List ℕ) :
    Keeps State.putMarks_parts s0 (State.putMarks s0 gs) := by
  unfold State.putMarks
  extract_lets -lift -merge -useContext -underBinder +onlyGivenNames x0 x1
  have h1 : Keeps State.putMarks_parts s0 x1 := by
    unfold x1
    refine Keeps.via (Keeps.upd_mir _ _) rfl ?_
    exact Keeps.refl _ _
  refine Keeps.via (State.agentAsk_keeps _ _) rfl ?_
  exact h1

def State.beginReplay_parts : List Part := [.free, .log, .sb, .links, .twin, .ord, .mir, .sch, .gust, .reg Reg.GLB_EVENT, .reg Reg.GLB_DIRSTAT, .reg Reg.ORD_FWD, .reg Reg.ORD_LINEHOLD, .block 0x8, .reg Reg.LOG_RINGSTAT, .reg Reg.LOG_CAPTURED, .reg Reg.LOG_COALESCED, .reg Reg.LOG_LOST, .reg Reg.LOG_ORPHANS, .reg Reg.LOG_SQUALLS]

theorem State.beginReplay_keeps (s0 : State) :
    Keeps State.beginReplay_parts s0 (State.beginReplay s0) := by
  unfold State.beginReplay
  extract_lets -lift -merge -useContext -underBinder +onlyGivenNames x0
  try clear_value x0
  extract_lets -lift -merge -useContext -underBinder +onlyGivenNames x1
  have h1 : Keeps State.beginReplay_parts s0 x1 := by
    unfold x1
    refine Keeps.via (State.loadBitmap_keeps _) rfl ?_
    refine Keeps.via (State.fetchHeaders_keeps _) rfl ?_
    exact Keeps.refl _ _
  extract_lets -lift -merge -useContext -underBinder +onlyGivenNames x2
  try clear_value x2
  extract_lets -lift -merge -useContext -underBinder +onlyGivenNames x3
  have h3 : Keeps State.beginReplay_parts s0 x3 := by
    unfold x3
    split
    · exact h1
    · refine Keeps.via (Keeps.upd_gust _ _) rfl ?_
      exact h1
  extract_lets -lift -merge -useContext -underBinder +onlyGivenNames x4
  have h4 : Keeps State.beginReplay_parts s0 x4.1 := by
    unfold x4
    refine Keeps.foldlL _ _ ?_ (fun t5 y5 h5 => ?_)
    · dsimp -zeta only
      exact h3
    · extract_lets -lift -merge -useContext -underBinder +onlyGivenNames x6
      have h6 : Keeps State.beginReplay_parts s0 x6.1 := by
        unfold x6
        refine Keeps.via (State.slotMarks_keeps _ _ _) rfl ?_
        exact h5
      dsimp -zeta only
      exact h6
  extract_lets -lift -merge -useContext -underBinder +onlyGivenNames x7
  have h7 : Keeps State.beginReplay_parts s0 x7.1 := by
    unfold x7
    refine Keeps.via (State.pendingLines_keeps _ _) rfl ?_
    exact h4
  extract_lets -lift -merge -useContext -underBinder +onlyGivenNames x8
  have h8 : Keeps State.beginReplay_parts s0 x8 := by
    unfold x8
    refine Keeps.via (State.putMarks_keeps _ _) rfl ?_
    exact h7
  extract_lets -lift -merge -useContext -underBinder +onlyGivenNames x9 x10 x11
  have h11 : Keeps State.beginReplay_parts s0 x11 := by
    unfold x11
    refine Keeps.via (Keeps.upd_ord_gust _ _ _) rfl ?_
    exact h8
  refine Keeps.via (State.agentAsk_keeps _ _) rfl ?_
  exact h11

def State.endReplay_parts : List Part := [.log, .sb, .links, .twin, .ord, .mir, .sch, .reg Reg.GLB_EVENT, .reg Reg.GLB_DIRSTAT, .reg Reg.ORD_FWD, .reg Reg.ORD_LINEHOLD, .reg Reg.ECC_SEALFAIL, .reg Reg.ECC_FIRSTFAIL, .reg Reg.LOG_RINGSTAT, .reg Reg.LOG_CAPTURED, .reg Reg.LOG_COALESCED, .reg Reg.LOG_LOST, .reg Reg.LOG_ORPHANS, .reg Reg.LOG_SQUALLS]

theorem State.endReplay_keeps (s0 : State) :
    Keeps State.endReplay_parts s0 (State.endReplay s0) := by
  unfold State.endReplay
  refine Keeps.foldS _ _ ?_ (fun t0 y0 h0 => ?_)
  · exact Keeps.refl _ _
  · refine Keeps.via (State.reserveWrite_keeps _ _ _) rfl ?_
    exact h0

def State.loadRecord_parts : List Part := [.log, .sb, .links, .twin, .ord, .mir, .sch, .reg Reg.GLB_EVENT, .reg Reg.GLB_DIRSTAT, .reg Reg.ORD_FWD, .reg Reg.ORD_LINEHOLD, .block 0x8, .reg Reg.LOG_RINGSTAT, .reg Reg.LOG_CAPTURED, .reg Reg.LOG_COALESCED, .reg Reg.LOG_LOST, .reg Reg.LOG_ORPHANS, .reg Reg.LOG_SQUALLS]

theorem State.loadRecord_keeps (s0 : State) :
    Keeps State.loadRecord_parts s0 (State.loadRecord s0) := by
  unfold State.loadRecord
  extract_lets -lift -merge -useContext -underBinder +onlyGivenNames x0
  have h0 : Keeps State.loadRecord_parts s0 x0.1 := by
    unfold x0
    refine Keeps.via (State.fetchReserve_keeps _ _) rfl ?_
    exact Keeps.refl _ _
  extract_lets -lift -merge -useContext -underBinder +onlyGivenNames x1
  have h1 : Keeps State.loadRecord_parts s0 x1 := by
    unfold x1
    exact h0
  split
  · refine Keeps.ite ?_ ?_
    · extract_lets -lift -merge -useContext -underBinder +onlyGivenNames x2
      try clear_value x2
      refine Keeps.via (Keeps.upd_mir _ _) rfl ?_
      exact h1
    · exact h1
  · exact h1

def State.loadScrub_parts : List Part := [.log, .sb, .links, .twin, .ord, .mir, .sch, .reg Reg.GLB_EVENT, .reg Reg.GLB_DIRSTAT, .reg Reg.ORD_FWD, .reg Reg.ORD_LINEHOLD, .block 0x8, .reg Reg.LOG_RINGSTAT, .reg Reg.LOG_CAPTURED, .reg Reg.LOG_COALESCED, .reg Reg.LOG_LOST, .reg Reg.LOG_ORPHANS, .reg Reg.LOG_SQUALLS]

theorem State.loadScrub_keeps (s0 : State) :
    Keeps State.loadScrub_parts s0 (State.loadScrub s0) := by
  unfold State.loadScrub
  refine Keeps.foldS _ _ ?_ (fun t0 y0 h0 => ?_)
  · exact Keeps.refl _ _
  · extract_lets -lift -merge -useContext -underBinder +onlyGivenNames x1
    have h1 : Keeps State.loadScrub_parts s0 x1.1 := by
      unfold x1
      refine Keeps.via (State.fetchReserve_keeps _ _) rfl ?_
      exact h0
    refine Keeps.via (State.onSub_keeps _ _ _) rfl ?_
    exact h1

def State.storeHolds_parts : List Part := [.boot, .reg Reg.MGT_CIPHCTL]

theorem State.storeHolds_keeps (s0 : State) :
    Keeps State.storeHolds_parts s0 (State.storeHolds s0).1 := by
  unfold State.storeHolds
  extract_lets -lift -merge -useContext -underBinder +onlyGivenNames x0
  have h0 : Keeps State.storeHolds_parts s0 x0.1 := by
    unfold x0
    refine Keeps.via (State.deriveKey_keeps _ _) rfl ?_
    exact Keeps.refl _ _
  extract_lets -lift -merge -useContext -underBinder +onlyGivenNames x1
  have h1 : Keeps State.storeHolds_parts s0 x1 := by
    unfold x1
    exact h0
  extract_lets -lift -merge -useContext -underBinder +onlyGivenNames x2
  try clear_value x2
  extract_lets -lift -merge -useContext -underBinder +onlyGivenNames x3
  try clear_value x3
  dsimp -zeta only
  exact h1

def State.imageTable_parts : List Part := [.rx, .top, .log, .sb, .links, .twin, .ord, .map, .mir, .sch, .flt, .cal, .pwr, .gust, .boot, .reg Reg.GLB_HUBID, .reg Reg.GLB_EVENT, .reg Reg.GLB_DIRSTAT, .reg Reg.GLB_QUIESCE, .block 0x1, .reg Reg.ORD_FWD, .reg Reg.ORD_LINEHOLD, .reg Reg.ORD_FLUSHES, .reg Reg.MAP_USE, .reg Reg.MAP_TBLSRC, .reg Reg.MIR_CAUSE, .reg Reg.MIR_PENDOCC, .reg Reg.MIR_FWDMISS, .reg Reg.MIR_HOSTAT, .reg Reg.MIR_HOCNT, .reg Reg.DPH_RETSTAT, .reg Reg.ECC_SEALFAIL, .reg Reg.ECC_FIRSTFAIL, .reg Reg.ECC_REPAIR, .reg Reg.MGT_BOOTSTAT, .reg Reg.MGT_CIPHCTL, .reg Reg.LOG_RINGSTAT, .reg Reg.LOG_CAPTURED, .reg Reg.LOG_COALESCED, .reg Reg.LOG_LOST, .reg Reg.LOG_ORPHANS, .reg Reg.LOG_SQUALLS]

theorem State.imageTable_keeps (s0 : State) (bad : Bool) :
    Keeps State.imageTable_parts s0 (State.imageTable s0 bad) := by
  unfold State.imageTable
  extract_lets -lift -merge -useContext -underBinder +onlyGivenNames x0
  have h0 : Keeps State.imageTable_parts s0 x0.1 := by
    unfold x0
    refine Keeps.via (State.storeHolds_keeps _) rfl ?_
    exact Keeps.refl _ _
  refine Keeps.ite ?_ ?_
  · extract_lets -lift -merge -useContext -underBinder +onlyGivenNames x1
    have h1 : Keeps State.imageTable_parts s0 x1 := by
      unfold x1
      refine Keeps.via (State.setTable_keeps _ _ _ _) rfl ?_
      exact h0
    extract_lets -lift -merge -useContext -underBinder +onlyGivenNames x2
    have h2 : Keeps State.imageTable_parts s0 x2 := by
      unfold x2
      refine Keeps.via (State.writeShadow_keeps _) rfl ?_
      exact h1
    extract_lets -lift -merge -useContext -underBinder +onlyGivenNames x3
    have h3 : Keeps State.imageTable_parts s0 x3 := by
      unfold x3
      refine Keeps.foldS _ _ ?_ (fun t4 y4 h4 => ?_)
      · exact h2
      · refine Keeps.via (State.onSub_keeps _ _ _) rfl ?_
        exact h4
    extract_lets -lift -merge -useContext -underBinder +onlyGivenNames x5
    have h5 : Keeps State.imageTable_parts s0 x5 := by
      unfold x5
      refine Keeps.via (State.settleRanks_keeps _) rfl ?_
      exact h3
    refine Keeps.via (Keeps.upd_gust _ _) rfl ?_
    exact h5
  · refine Keeps.via (State.enterHold_keeps _ _ _) rfl ?_
    refine Keeps.via (State.latchPads_keeps _) rfl ?_
    exact h0

def State.assess_parts : List Part := [.rx, .top, .log, .sb, .links, .twin, .ord, .map, .mir, .sch, .flt, .cal, .pwr, .gust, .boot, .reg Reg.GLB_HUBID, .reg Reg.GLB_EVENT, .reg Reg.GLB_DIRSTAT, .reg Reg.GLB_QUIESCE, .block 0x1, .reg Reg.ORD_FWD, .reg Reg.ORD_LINEHOLD, .reg Reg.ORD_FLUSHES, .reg Reg.MAP_USE, .reg Reg.MAP_TBLSRC, .reg Reg.MIR_CAUSE, .reg Reg.MIR_PENDOCC, .reg Reg.MIR_FWDMISS, .reg Reg.MIR_HOSTAT, .reg Reg.MIR_HOCNT, .reg Reg.DPH_RETSTAT, .block 0x8, .reg Reg.PWR_CONTENTS, .reg Reg.MGT_BOOTSTAT, .reg Reg.MGT_CIPHCTL, .reg Reg.LOG_RINGSTAT, .reg Reg.LOG_CAPTURED, .reg Reg.LOG_COALESCED, .reg Reg.LOG_LOST, .reg Reg.LOG_ORPHANS, .reg Reg.LOG_SQUALLS]

theorem State.assess_keeps (s0 : State) :
    Keeps State.assess_parts s0 (State.assess s0) := by
  unfold State.assess
  extract_lets -lift -merge -useContext -underBinder +onlyGivenNames x0
  try clear_value x0
  extract_lets -lift -merge -useContext -underBinder +onlyGivenNames x1
  try clear_value x1
  extract_lets -lift -merge -useContext -underBinder +onlyGivenNames x2
  have h2 : Keeps State.assess_parts s0 x2 := by
    unfold x2
    refine Keeps.ite ?_ ?_
    · refine Keeps.via (State.fixReport_keeps _ _ _ _) rfl ?_
      exact Keeps.refl _ _
    · refine Keeps.via (State.fixReport_keeps _ _ _ _) rfl ?_
      exact Keeps.refl _ _
  extract_lets -lift -merge -useContext -underBinder +onlyGivenNames x3
  have h3 : Keeps State.assess_parts s0 x3 := by
    unfold x3
    refine Keeps.via (State.rereadFault_keeps _) rfl ?_
    exact h2
  refine Keeps.ite ?_ ?_
  · extract_lets -lift -merge -useContext -underBinder +onlyGivenNames x4
    have h4 : Keeps State.assess_parts s0 x4.1 := by
      unfold x4
      refine Keeps.via (State.fetchReserve_keeps _ _) rfl ?_
      exact h3
    extract_lets -lift -merge -useContext -underBinder +onlyGivenNames x5
    try clear_value x5
    extract_lets -lift -merge -useContext -underBinder +onlyGivenNames x6
    have h6 : Keeps State.assess_parts s0 x6.1 := by
      unfold x6
      refine Keeps.iteL ?_ ?_
      · refine Keeps.via (State.fetchRun_keeps _ _ _) rfl ?_
        exact h4
      · dsimp -zeta only
        exact h4
    extract_lets -lift -merge -useContext -underBinder +onlyGivenNames x7
    have h7 : Keeps State.assess_parts s0 x7 := by
      unfold x7
      exact h6
    split
    · extract_lets -lift -merge -useContext -underBinder +onlyGivenNames x8
      have h8 : Keeps State.assess_parts s0 x8 := by
        unfold x8
        refine Keeps.via (State.settleRanks_keeps _) rfl ?_
        refine Keeps.via (State.loadScrub_keeps _) rfl ?_
        refine Keeps.via (State.loadRecord_keeps _) rfl ?_
        refine Keeps.via (State.takeShadow_keeps _ _) rfl ?_
        exact h7
      refine Keeps.via (Keeps.upd_gust _ _) rfl ?_
      exact h8
    · refine Keeps.via (State.imageTable_keeps _ _) rfl ?_
      exact h7
  · refine Keeps.via (State.imageTable_keeps _ _) rfl ?_
    exact h3

def State.tryAssess_parts : List Part := [.rx, .top, .log, .sb, .links, .twin, .ord, .map, .mir, .sch, .flt, .cal, .pwr, .gust, .boot, .reg Reg.GLB_HUBID, .reg Reg.GLB_EVENT, .reg Reg.GLB_DIRSTAT, .reg Reg.GLB_QUIESCE, .block 0x1, .reg Reg.ORD_FWD, .reg Reg.ORD_LINEHOLD, .reg Reg.ORD_FLUSHES, .reg Reg.MAP_USE, .reg Reg.MAP_TBLSRC, .reg Reg.MIR_CAUSE, .reg Reg.MIR_PENDOCC, .reg Reg.MIR_FWDMISS, .reg Reg.MIR_HOSTAT, .reg Reg.MIR_HOCNT, .reg Reg.DPH_RETSTAT, .block 0x8, .reg Reg.PWR_CONTENTS, .reg Reg.MGT_BOOTSTAT, .reg Reg.MGT_CIPHCTL, .reg Reg.LOG_RINGSTAT, .reg Reg.LOG_CAPTURED, .reg Reg.LOG_COALESCED, .reg Reg.LOG_LOST, .reg Reg.LOG_ORPHANS, .reg Reg.LOG_SQUALLS]

theorem State.tryAssess_keeps (s0 : State) :
    Keeps State.tryAssess_parts s0 (State.tryAssess s0) := by
  unfold State.tryAssess
  refine Keeps.ite ?_ ?_
  · refine Keeps.via (State.assess_keeps _) rfl ?_
    exact Keeps.refl _ _
  · exact Keeps.refl _ _

def execRestoreDramDone_parts : List Part := [.rx, .free, .top, .log, .sb, .links, .twin, .ord, .map, .mir, .sch, .flt, .cal, .vbat, .pwr, .gust, .boot, .reg Reg.GLB_HUBID, .reg Reg.GLB_EVENT, .reg Reg.GLB_DIRSTAT, .reg Reg.GLB_QUIESCE, .block 0x1, .reg Reg.ORD_FWD, .reg Reg.ORD_LINEHOLD, .reg Reg.ORD_FLUSHES, .reg Reg.MIR_CAUSE, .reg Reg.MIR_PENDOCC, .reg Reg.MIR_FWDMISS, .reg Reg.MIR_HOSTAT, .reg Reg.MIR_HOCNT, .reg Reg.DPH_RETSTAT, .block 0x8, .reg Reg.PWR_HOLD, .reg Reg.PWR_CONTENTS, .reg Reg.MGT_BOOTSTAT, .reg Reg.LOG_RINGSTAT, .reg Reg.LOG_CAPTURED, .reg Reg.LOG_COALESCED, .reg Reg.LOG_LOST, .reg Reg.LOG_ORPHANS, .reg Reg.LOG_SQUALLS]

theorem execRestoreDramDone_keeps (s0 : State) :
    KeepsOut execRestoreDramDone_parts s0 (execRestoreDramDone s0) := by
  unfold execRestoreDramDone
  refine KeepsOut.next ?_
  refine Keeps.ite ?_ ?_
  · extract_lets -lift -merge -useContext -underBinder +onlyGivenNames x0
    have h0 : Keeps execRestoreDramDone_parts s0 x0 := by
      unfold x0
      refine Keeps.via (State.retireFailed_keeps _ _) rfl ?_
      refine Keeps.via (State.keepStore_keeps _) rfl ?_
      exact Keeps.refl _ _
    refine Keeps.ite ?_ ?_
    · refine Keeps.via (State.beginReplay_keeps _) rfl ?_
      exact h0
    · extract_lets -lift -merge -useContext -underBinder +onlyGivenNames x1
      have h1 : Keeps execRestoreDramDone_parts s0 x1 := by
        unfold x1
        refine Keeps.via (State.noteClearing_keeps _) rfl ?_
        refine Keeps.via (State.clearValid_keeps _ _) rfl ?_
        refine Keeps.via (State.fixReport_keeps _ _ _ _) rfl ?_
        exact h0
      refine Keeps.via (State.enterHold_keeps _ _ _) rfl ?_
      refine Keeps.via (State.contentsEvent_keeps _) rfl ?_
      exact h1
  · exact Keeps.refl _ _

def execJournalReplayDone_parts : List Part := [.rx, .top, .log, .sb, .links, .twin, .ord, .map, .mir, .sch, .flt, .cal, .pwr, .gust, .boot, .reg Reg.GLB_HUBID, .reg Reg.GLB_EVENT, .reg Reg.GLB_DIRSTAT, .reg Reg.GLB_QUIESCE, .block 0x1, .reg Reg.ORD_FWD, .reg Reg.ORD_LINEHOLD, .reg Reg.ORD_FLUSHES, .reg Reg.MAP_USE, .reg Reg.MAP_TBLSRC, .reg Reg.MIR_CAUSE, .reg Reg.MIR_PENDOCC, .reg Reg.MIR_FWDMISS, .reg Reg.MIR_HOSTAT, .reg Reg.MIR_HOCNT, .reg Reg.DPH_RETSTAT, .block 0x8, .reg Reg.PWR_CONTENTS, .reg Reg.MGT_BOOTSTAT, .reg Reg.MGT_CIPHCTL, .reg Reg.LOG_RINGSTAT, .reg Reg.LOG_CAPTURED, .reg Reg.LOG_COALESCED, .reg Reg.LOG_LOST, .reg Reg.LOG_ORPHANS, .reg Reg.LOG_SQUALLS]

theorem execJournalReplayDone_keeps (s0 : State) :
    KeepsOut execJournalReplayDone_parts s0 (execJournalReplayDone s0) := by
  unfold execJournalReplayDone
  refine KeepsOut.next ?_
  refine Keeps.ite ?_ ?_
  · extract_lets -lift -merge -useContext -underBinder +onlyGivenNames x0
    have h0 : Keeps execJournalReplayDone_parts s0 x0 := by
      unfold x0
      refine Keeps.via (State.endReplay_keeps _) rfl ?_
      exact Keeps.refl _ _
    refine Keeps.via (State.tryAssess_keeps _) rfl ?_
    refine Keeps.via (Keeps.upd_gust _ _) rfl ?_
    exact h0
  · exact Keeps.refl _ _

def execRestoreComplete_parts : List Part := [.rx, .top, .log, .sb, .links, .twin, .ord, .map, .mir, .sch, .flt, .cal, .pwr, .gust, .boot, .reg Reg.GLB_HUBID, .reg Reg.GLB_EVENT, .reg Reg.GLB_DIRSTAT, .reg Reg.GLB_QUIESCE, .block 0x1, .reg Reg.ORD_FWD, .reg Reg.ORD_LINEHOLD, .reg Reg.ORD_FLUSHES, .reg Reg.MIR_CAUSE, .reg Reg.MIR_PENDOCC, .reg Reg.MIR_FWDMISS, .reg Reg.MIR_HOSTAT, .reg Reg.MIR_HOCNT, .reg Reg.DPH_RETSTAT, .reg Reg.ECC_SEALFAIL, .reg Reg.ECC_FIRSTFAIL, .reg Reg.ECC_REPAIR, .reg Reg.LOG_RINGSTAT, .reg Reg.LOG_CAPTURED, .reg Reg.LOG_COALESCED, .reg Reg.LOG_LOST, .reg Reg.LOG_ORPHANS, .reg Reg.LOG_SQUALLS]

theorem execRestoreComplete_keeps (s0 : State) :
    KeepsOut execRestoreComplete_parts s0 (execRestoreComplete s0) := by
  unfold execRestoreComplete
  refine KeepsOut.next ?_
  refine Keeps.ite ?_ ?_
  · refine Keeps.via (State.goTo_keeps _ _ _) rfl ?_
    refine Keeps.via (Keeps.upd_gust _ _) rfl ?_
    exact Keeps.refl _ _
  · exact Keeps.refl _ _

def State.qualify_parts : List Part := [.rx, .top, .log, .sb, .links, .twin, .ord, .map, .mir, .sch, .flt, .cal, .pwr, .gust, .boot, .reg Reg.GLB_HUBID, .reg Reg.GLB_EVENT, .reg Reg.GLB_DIRSTAT, .reg Reg.GLB_QUIESCE, .block 0x1, .reg Reg.ORD_FWD, .reg Reg.ORD_LINEHOLD, .reg Reg.ORD_FLUSHES, .reg Reg.MAP_USE, .reg Reg.MAP_TBLSRC, .reg Reg.MIR_CAUSE, .reg Reg.MIR_PENDOCC, .reg Reg.MIR_FWDMISS, .reg Reg.MIR_HOSTAT, .reg Reg.MIR_HOCNT, .reg Reg.DPH_RETSTAT, .block 0x8, .reg Reg.PWR_FEEDSTAT, .reg Reg.PWR_HOLD, .reg Reg.PWR_CONTENTS, .reg Reg.MGT_BOOTSTAT, .reg Reg.MGT_CIPHCTL, .reg Reg.LOG_RINGSTAT, .reg Reg.LOG_CAPTURED, .reg Reg.LOG_COALESCED, .reg Reg.LOG_LOST, .reg Reg.LOG_ORPHANS, .reg Reg.LOG_SQUALLS]

theorem State.qualify_keeps (s0 : State) (f : Feed) :
    Keeps State.qualify_parts s0 (State.qualify s0 f) := by
  unfold State.qualify
  refine Keeps.ite ?_ ?_
  · exact Keeps.refl _ _
  · extract_lets -lift -merge -useContext -underBinder +onlyGivenNames x0
    have h0 : Keeps State.qualify_parts s0 x0 := by
      unfold x0
      refine Keeps.via (State.setFld_qualFld_keeps _ _ _) rfl ?_
      exact Keeps.refl _ _
    refine Keeps.ite ?_ ?_
    · refine Keeps.via (State.tryAssess_keeps _) rfl ?_
      refine Keeps.via (State.setFld_keeps _ _ _) rfl ?_
      exact h0
    · exact h0

def execFeedQualified_parts : List Part := [.rx, .top, .log, .sb, .links, .twin, .ord, .map, .mir, .sch, .flt, .cal, .pwr, .gust, .boot, .reg Reg.GLB_HUBID, .reg Reg.GLB_EVENT, .reg Reg.GLB_DIRSTAT, .reg Reg.GLB_QUIESCE, .block 0x1, .reg Reg.ORD_FWD, .reg Reg.ORD_LINEHOLD, .reg Reg.ORD_FLUSHES, .reg Reg.MAP_USE, .reg Reg.MAP_TBLSRC, .reg Reg.MIR_CAUSE, .reg Reg.MIR_PENDOCC, .reg Reg.MIR_FWDMISS, .reg Reg.MIR_HOSTAT, .reg Reg.MIR_HOCNT, .reg Reg.DPH_RETSTAT, .block 0x8, .reg Reg.PWR_SEQSTAT, .reg Reg.PWR_FEEDSTAT, .reg Reg.PWR_HOLD, .reg Reg.PWR_CONTENTS, .reg Reg.PWR_GAUGEDIS, .reg Reg.MGT_BOOTSTAT, .reg Reg.MGT_CIPHCTL, .reg Reg.LOG_RINGSTAT, .reg Reg.LOG_CAPTURED, .reg Reg.LOG_COALESCED, .reg Reg.LOG_LOST, .reg Reg.LOG_ORPHANS, .reg Reg.LOG_SQUALLS]

theorem execFeedQualified_keeps (f : Feed) (s0 : State) :
    KeepsOut execFeedQualified_parts s0 (execFeedQualified f s0) := by
  unfold execFeedQualified
  refine KeepsOut.next ?_
  refine Keeps.ite ?_ ?_
  · exact Keeps.refl _ _
  · extract_lets -lift -merge -useContext -underBinder +onlyGivenNames x0
    try clear_value x0
    extract_lets -lift -merge -useContext -underBinder +onlyGivenNames x1
    try clear_value x1
    extract_lets -lift -merge -useContext -underBinder +onlyGivenNames x2
    have h2 : Keeps execFeedQualified_parts s0 x2 := by
      unfold x2
      refine Keeps.via (State.qualify_keeps _ _) rfl ?_
      exact Keeps.refl _ _
    refine Keeps.ite ?_ ?_
    · exact h2
    · refine Keeps.ite ?_ ?_
      · refine Keeps.via (State.leaveCalm_keeps _ _ _) rfl ?_
        exact h2
      · refine Keeps.via (State.enterSequence_keeps _) rfl ?_
        exact h2

end Sys2Proof.Machine
end

