-- ==== Sys2Proof/Laws/KeepsLog.lean ====
section
/-!
SUPPORT. The frames of the operations of Machine/Log.lean: the parts of the state each may change, and that each keeps the canonical
form. A proof of a frame cites these and unfolds nothing.
-/

namespace Sys2Proof.Machine

def State.keepPointer_parts : List Part := [.vbat]

theorem State.keepPointer_keeps (s0 : State) :
    Keeps State.keepPointer_parts s0 (State.keepPointer s0) := by
  unfold State.keepPointer
  refine Keeps.ite ?_ ?_
  · refine Keeps.via (Keeps.upd_vbat _ _) rfl ?_
    exact Keeps.refl _ _
  · exact Keeps.refl _ _

def State.nextSlot_parts : List Part := [.log, .vbat, .flash]

theorem State.nextSlot_keeps (s0 : State) :
    Keeps State.nextSlot_parts s0 (State.nextSlot s0) := by
  unfold State.nextSlot
  extract_lets -lift -merge -useContext -underBinder +onlyGivenNames x0 x1
  have h1 : Keeps State.nextSlot_parts s0 x1 := by
    unfold x1
    refine Keeps.via (Keeps.upd_log _ _) rfl ?_
    exact Keeps.refl _ _
  refine Keeps.ite ?_ ?_
  · refine Keeps.via (State.eraseSector_keeps _ _) rfl ?_
    refine Keeps.via (State.keepPointer_keeps _) rfl ?_
    exact h1
  · exact h1

def State.raiseFrom_parts : List Part := [.time, .log]

theorem State.raiseFrom_keeps (s0 : State) (r : LogRec) :
    Keeps State.raiseFrom_parts s0 (State.raiseFrom s0 r) := by
  unfold State.raiseFrom
  extract_lets -lift -merge -useContext -underBinder +onlyGivenNames x0
  try clear_value x0
  extract_lets -lift -merge -useContext -underBinder +onlyGivenNames x1 x2
  have h2 : Keeps State.raiseFrom_parts s0 x2 := by
    unfold x2
    refine Keeps.ite ?_ ?_
    · refine Keeps.via (Keeps.upd_time _ _) rfl ?_
      exact Keeps.refl _ _
    · exact Keeps.refl _ _
  refine Keeps.ite ?_ ?_
  · exact h2
  · refine Keeps.via (Keeps.upd_log _ _) rfl ?_
    exact h2

def State.openLog_parts : List Part := [.time, .log, .sb, .vbat, .flash, .reg Reg.GLB_EVENT, .reg Reg.GLB_DIRSTAT, .reg Reg.LOG_RINGSTAT, .reg Reg.LOG_PTR, .reg Reg.LOG_LSN, .reg Reg.LOG_CAPTURED, .reg Reg.LOG_COALESCED, .reg Reg.LOG_LOST, .reg Reg.LOG_ORPHANS, .reg Reg.LOG_SQUALLS]

theorem State.openLog_keeps (s0 : State) :
    Keeps State.openLog_parts s0 (State.openLog s0) := by
  unfold State.openLog
  extract_lets -lift -merge -useContext -underBinder +onlyGivenNames x0
  try clear_value x0
  extract_lets -lift -merge -useContext -underBinder +onlyGivenNames x1
  try clear_value x1
  extract_lets -lift -merge -useContext -underBinder +onlyGivenNames x2
  try clear_value x2
  extract_lets -lift -merge -useContext -underBinder +onlyGivenNames x3
  try clear_value x3
  extract_lets -lift -merge -useContext -underBinder +onlyGivenNames x4
  try clear_value x4
  extract_lets -lift -merge -useContext -underBinder +onlyGivenNames x5
  have h5 : Keeps State.openLog_parts s0 x5 := by
    unfold x5
    split
    · refine Keeps.via (State.setReg_keeps _ _ _) rfl ?_
      refine Keeps.via (State.setReg_keeps _ _ _) rfl ?_
      exact Keeps.refl _ _
    · exact Keeps.refl _ _
  extract_lets -lift -merge -useContext -underBinder +onlyGivenNames x6
  have h6 : Keeps State.openLog_parts s0 x6 := by
    unfold x6
    split
    · refine Keeps.ite ?_ ?_
      · exact h5
      · refine Keeps.via (State.raiseFrom_keeps _ _) rfl ?_
        exact h5
    · exact h5
  extract_lets -lift -merge -useContext -underBinder +onlyGivenNames x7 x8
  have h8 : Keeps State.openLog_parts s0 x8 := by
    unfold x8
    refine Keeps.via (Keeps.upd_log _ _) rfl ?_
    exact h6
  extract_lets -lift -merge -useContext -underBinder +onlyGivenNames x9
  have h9 : Keeps State.openLog_parts s0 x9 := by
    unfold x9
    split
    · refine Keeps.via (State.nextSlot_keeps _) rfl ?_
      refine Keeps.via (Keeps.upd_log _ _) rfl ?_
      exact h8
    · exact h8
  refine Keeps.ite ?_ ?_
  · exact h9
  · refine Keeps.via (State.event_keeps _ _ _) rfl ?_
    refine Keeps.via (State.keepPointer_keeps _) rfl ?_
    exact h9

def State.settleRecord_parts : List Part := [.log, .vbat, .pwr]

theorem State.settleRecord_keeps (s0 : State) (e : RingEntry) :
    Keeps State.settleRecord_parts s0 (State.settleRecord s0 e) := by
  unfold State.settleRecord
  split
  · extract_lets -lift -merge -useContext -underBinder +onlyGivenNames x0 x1
    have h1 : Keeps State.settleRecord_parts s0 x1 := by
      unfold x1
      refine Keeps.via (Keeps.upd_log _ _) rfl ?_
      exact Keeps.refl _ _
    refine Keeps.ite ?_ ?_
    · refine Keeps.via (Keeps.upd_vbat_pwr _ _ _) rfl ?_
      exact h1
    · refine Keeps.ite ?_ ?_
      · refine Keeps.via (Keeps.upd_vbat _ _) rfl ?_
        exact h1
      · refine Keeps.ite ?_ ?_
        · refine Keeps.via (Keeps.upd_vbat _ _) rfl ?_
          exact h1
        · refine Keeps.ite ?_ ?_
          · refine Keeps.via (Keeps.upd_vbat _ _) rfl ?_
            exact h1
          · refine Keeps.via (Keeps.upd_pwr _ _) rfl ?_
            exact h1
  · refine Keeps.via (State.freeRing_keeps _) rfl ?_
    refine Keeps.via (Keeps.upd_log _ _) rfl ?_
    exact Keeps.refl _ _

def State.putRecord_parts : List Part := [.log, .vbat, .pwr, .flash, .reg Reg.LOG_PTR, .reg Reg.LOG_LSN]

theorem State.putRecord_keeps (s0 : State) (e : RingEntry) :
    Keeps State.putRecord_parts s0 (State.putRecord s0 e) := by
  unfold State.putRecord
  extract_lets -lift -merge -useContext -underBinder +onlyGivenNames x0
  try clear_value x0
  extract_lets -lift -merge -useContext -underBinder +onlyGivenNames x1
  try clear_value x1
  extract_lets -lift -merge -useContext -underBinder +onlyGivenNames x2
  have h2 : Keeps State.putRecord_parts s0 x2 := by
    unfold x2
    refine Keeps.via (State.program_keeps _ _ _) rfl ?_
    exact Keeps.refl _ _
  extract_lets -lift -merge -useContext -underBinder +onlyGivenNames x3
  have h3 : Keeps State.putRecord_parts s0 x3 := by
    unfold x3
    refine Keeps.via (State.setReg_keeps _ _ _) rfl ?_
    refine Keeps.via (State.setReg_keeps _ _ _) rfl ?_
    exact h2
  refine Keeps.via (State.nextSlot_keeps _) rfl ?_
  refine Keeps.via (State.settleRecord_keeps _ _) rfl ?_
  exact h3

def State.skipSlot_parts : List Part := [.log, .sb, .vbat, .flash, .reg Reg.GLB_EVENT, .reg Reg.GLB_DIRSTAT, .reg Reg.LOG_RINGSTAT, .reg Reg.LOG_CAPTURED, .reg Reg.LOG_COALESCED, .reg Reg.LOG_LOST, .reg Reg.LOG_SKIPS, .reg Reg.LOG_ORPHANS, .reg Reg.LOG_SQUALLS]

theorem State.skipSlot_keeps (s0 : State) :
    Keeps State.skipSlot_parts s0 (State.skipSlot s0) := by
  unfold State.skipSlot
  extract_lets -lift -merge -useContext -underBinder +onlyGivenNames x0
  try clear_value x0
  extract_lets -lift -merge -useContext -underBinder +onlyGivenNames x1
  try clear_value x1
  extract_lets -lift -merge -useContext -underBinder +onlyGivenNames x2
  have h2 : Keeps State.skipSlot_parts s0 x2 := by
    unfold x2
    refine Keeps.via (State.event_keeps _ _ _) rfl ?_
    refine Keeps.via (State.bump_keeps _ _ _) rfl ?_
    refine Keeps.via (State.program_keeps _ _ _) rfl ?_
    exact Keeps.refl _ _
  extract_lets -lift -merge -useContext -underBinder +onlyGivenNames x3
  have h3 : Keeps State.skipSlot_parts s0 x3 := by
    unfold x3
    refine Keeps.via (State.eraseSector_keeps _ _) rfl ?_
    refine Keeps.via (State.eraseSector_keeps _ _) rfl ?_
    exact h2
  refine Keeps.via (State.nextSlot_keeps _) rfl ?_
  exact h3

def State.pageProgram_parts : List Part := [.log, .sb, .vbat, .pwr, .flash, .reg Reg.GLB_EVENT, .reg Reg.GLB_DIRSTAT, .reg Reg.LOG_RINGSTAT, .reg Reg.LOG_PTR, .reg Reg.LOG_LSN, .reg Reg.LOG_CAPTURED, .reg Reg.LOG_COALESCED, .reg Reg.LOG_LOST, .reg Reg.LOG_SKIPS, .reg Reg.LOG_ORPHANS, .reg Reg.LOG_SQUALLS]

theorem State.pageProgram_keeps (ok : Bool) (a1 : ℕ) (s0 : State) :
    Keeps State.pageProgram_parts s0 (State.pageProgram ok a1 s0) := by
  induction a1 generalizing ok s0 with
  | zero =>
    rw [State.pageProgram.eq_1]
    exact Keeps.refl _ _
  | succ _ ih =>
    rw [State.pageProgram.eq_2]
    split
    · exact Keeps.refl _ _
    · refine Keeps.ite ?_ ?_
      · refine Keeps.via (State.skipSlot_keeps _) rfl ?_
        exact Keeps.refl _ _
      · extract_lets -lift -merge -useContext -underBinder +onlyGivenNames x0
        have h0 : Keeps State.pageProgram_parts s0 x0 := by
          unfold x0
          refine Keeps.ite ?_ ?_
          · refine Keeps.via (State.putRecord_keeps _ _) rfl ?_
            exact Keeps.refl _ _
          · refine Keeps.via (State.skipSlot_keeps _) rfl ?_
            exact Keeps.refl _ _
        refine Keeps.ite ?_ ?_
        · exact h0
        · refine Keeps.trans ?_ (ih _ _)
          exact h0

def State.writeLate_parts : List Part := [.log, .sb, .vbat, .pwr, .flash, .reg Reg.GLB_EVENT, .reg Reg.GLB_DIRSTAT, .reg Reg.LOG_RINGSTAT, .reg Reg.LOG_PTR, .reg Reg.LOG_LSN, .reg Reg.LOG_CAPTURED, .reg Reg.LOG_COALESCED, .reg Reg.LOG_LOST, .reg Reg.LOG_SKIPS, .reg Reg.LOG_ORPHANS, .reg Reg.LOG_SQUALLS]

theorem State.writeLate_keeps (a0 : ℕ) (s0 : State) :
    Keeps State.writeLate_parts s0 (State.writeLate a0 s0) := by
  induction a0 generalizing s0 with
  | zero =>
    rw [State.writeLate.eq_1]
    exact Keeps.refl _ _
  | succ _ ih =>
    rw [State.writeLate.eq_2]
    split
    · exact Keeps.refl _ _
    · refine Keeps.trans ?_ (ih _)
      refine Keeps.ite ?_ ?_
      · refine Keeps.via (State.putRecord_keeps _ _) rfl ?_
        exact Keeps.refl _ _
      · refine Keeps.via (State.skipSlot_keeps _) rfl ?_
        exact Keeps.refl _ _

def execLogProgramDone_parts : List Part := [.log, .sb, .vbat, .pwr, .flash, .reg Reg.GLB_EVENT, .reg Reg.GLB_DIRSTAT, .reg Reg.LOG_RINGSTAT, .reg Reg.LOG_PTR, .reg Reg.LOG_LSN, .reg Reg.LOG_CAPTURED, .reg Reg.LOG_COALESCED, .reg Reg.LOG_LOST, .reg Reg.LOG_SKIPS, .reg Reg.LOG_ORPHANS, .reg Reg.LOG_SQUALLS]

theorem execLogProgramDone_keeps (verified : Bool) (s0 : State) :
    KeepsOut execLogProgramDone_parts s0 (execLogProgramDone verified s0) := by
  unfold execLogProgramDone
  refine KeepsOut.next ?_
  refine Keeps.ite ?_ ?_
  · refine Keeps.via (State.pageProgram_keeps _ _ _) rfl ?_
    exact Keeps.refl _ _
  · refine Keeps.ite ?_ ?_
    · refine Keeps.via (State.pageProgram_keeps _ _ _) rfl ?_
      refine Keeps.via (Keeps.upd_log _ _) rfl ?_
      exact Keeps.refl _ _
    · exact Keeps.refl _ _

def State.queueLate_parts : List Part := [.log]

theorem State.queueLate_keeps (s0 : State) (code : BitVec 16) (data : Word) (stamp : BitVec 64) (tq : BitVec 3) :
    Keeps State.queueLate_parts s0 (State.queueLate s0 code data stamp tq) := by
  unfold State.queueLate
  extract_lets -lift -merge -useContext -underBinder +onlyGivenNames x0 x1
  try clear_value x1
  extract_lets -lift -merge -useContext -underBinder +onlyGivenNames x2
  have h2 : Keeps State.queueLate_parts s0 x2 := by
    unfold x2
    refine Keeps.via (State.takeSeq_keeps _) rfl ?_
    exact Keeps.refl _ _
  refine Keeps.via (Keeps.upd_log _ _) rfl ?_
  exact h2

def State.queueFree_parts : List Part := [.free, .log]

theorem State.queueFree_keeps (s0 : State) (code : BitVec 16) (data : Word) :
    Keeps State.queueFree_parts s0 (State.queueFree s0 code data) := by
  unfold State.queueFree
  extract_lets -lift -merge -useContext -underBinder +onlyGivenNames x0
  have h0 : Keeps State.queueFree_parts s0 x0.2 := by
    unfold x0
    refine Keeps.via (State.draw_keeps _) rfl ?_
    exact Keeps.refl _ _
  extract_lets -lift -merge -useContext -underBinder +onlyGivenNames x1
  have h1 : Keeps State.queueFree_parts s0 x1.2 := by
    unfold x1
    refine Keeps.via (State.draw_keeps _) rfl ?_
    exact h0
  refine Keeps.via (State.queueLate_keeps _ _ _ _ _) rfl ?_
  exact h1

def State.queueOwed_parts : List Part := [.free, .log, .sb, .fuse, .reg Reg.GLB_EVENT, .reg Reg.GLB_DIRSTAT, .reg Reg.LOG_RINGSTAT, .reg Reg.LOG_CAPTURED, .reg Reg.LOG_COALESCED, .reg Reg.LOG_LOST, .reg Reg.LOG_ORPHANS, .reg Reg.LOG_SQUALLS]

theorem State.queueOwed_keeps (s0 : State) :
    Keeps State.queueOwed_parts s0 (State.queueOwed s0) := by
  unfold State.queueOwed
  extract_lets -lift -merge -useContext -underBinder +onlyGivenNames x0 x1
  have h1 : Keeps State.queueOwed_parts s0 x1 := by
    unfold x1
    refine Keeps.via (Keeps.upd_log _ _) rfl ?_
    exact Keeps.refl _ _
  extract_lets -lift -merge -useContext -underBinder +onlyGivenNames x2
  have h2 : Keeps State.queueOwed_parts s0 x2 := by
    unfold x2
    split
    · refine Keeps.via (State.queueLate_keeps _ _ _ _ _) rfl ?_
      exact h1
    · refine Keeps.via (State.queueLate_keeps _ _ _ _ _) rfl ?_
      exact h1
    · exact h1
  extract_lets -lift -merge -useContext -underBinder +onlyGivenNames x3
  have h3 : Keeps State.queueOwed_parts s0 x3 := by
    unfold x3
    refine Keeps.ite ?_ ?_
    · refine Keeps.via (State.queueFree_keeps _ _ _) rfl ?_
      exact h2
    · exact h2
  extract_lets -lift -merge -useContext -underBinder +onlyGivenNames x4 x5
  have h4 : Keeps State.queueOwed_parts s0 x4.2 := by
    unfold x4
    refine Keeps.via (State.draw_keeps _) rfl ?_
    exact h3
  have h5 : Keeps State.queueOwed_parts s0 x5 := by
    unfold x5
    refine Keeps.ite ?_ ?_
    · refine Keeps.via (State.queueFree_keeps _ _ _) rfl ?_
      exact h4
    · exact h3
  extract_lets -lift -merge -useContext -underBinder +onlyGivenNames x6
  have h6 : Keeps State.queueOwed_parts s0 x6 := by
    unfold x6
    refine Keeps.foldl _ _ ?_ (fun t7 y7 h7 => ?_)
    · exact h5
    · refine Keeps.via (State.queueLate_keeps _ _ _ _ _) rfl ?_
      exact h7
  refine Keeps.ite ?_ ?_
  · extract_lets -lift -merge -useContext -underBinder +onlyGivenNames x8
    have h8 : Keeps State.queueOwed_parts s0 x8 := by
      unfold x8
      refine Keeps.foldl _ _ ?_ (fun t9 y9 h9 => ?_)
      · exact h6
      · refine Keeps.via (State.event_keeps _ _ _) rfl ?_
        exact h9
    refine Keeps.via (Keeps.upd_fuse _ _) rfl ?_
    exact h8
  · exact h6

end Sys2Proof.Machine
end

