-- ==== Sys2Proof/Laws/KeepsBoot.lean ====
section
/-!
SUPPORT. The frames of the operations of Machine/Boot.lean: the parts of the state each may change, and that each keeps the canonical
form. A proof of a frame cites these and unfolds nothing.
-/

namespace Sys2Proof.Machine

def State.setScrub_parts : List Part := [.reg Reg.SCH_SCRUBCFG, .reg Reg.SCH_SCRUBINT]

theorem State.setScrub_keeps (s0 : State) (hours : ℕ) (fresh : Bool) :
    Keeps State.setScrub_parts s0 (State.setScrub s0 hours fresh) := by
  unfold State.setScrub
  extract_lets -lift -merge -useContext -underBinder +onlyGivenNames x0
  try clear_value x0
  extract_lets -lift -merge -useContext -underBinder +onlyGivenNames x1
  try clear_value x1
  refine Keeps.via (State.satF_keeps _ _ _) rfl ?_
  refine Keeps.via (State.setFld_keeps _ _ _) rfl ?_
  exact Keeps.refl _ _

def State.writeStore_parts : List Part := [.cfgStore]

theorem State.writeStore_keeps (s0 : State) (slot : ℕ) (im : Image) :
    Keeps State.writeStore_parts s0 (State.writeStore s0 slot im) := by
  unfold State.writeStore
  extract_lets -lift -merge -useContext -underBinder +onlyGivenNames x0
  try clear_value x0
  extract_lets -lift -merge -useContext -underBinder +onlyGivenNames x1
  try clear_value x1
  refine Keeps.via (Keeps.upd_cfgStore _ _) rfl ?_
  exact Keeps.refl _ _

def State.loadStore_parts : List Part := [.regs]

theorem State.loadStore_keeps (s0 : State) :
    Keeps State.loadStore_parts s0 (State.loadStore s0) := by
  unfold State.loadStore
  extract_lets -lift -merge -useContext -underBinder +onlyGivenNames x0
  try clear_value x0
  refine Keeps.via (State.setReg_keeps _ _ _) rfl ?_
  refine Keeps.foldS _ _ ?_ (fun t1 y1 h1 => ?_)
  · exact Keeps.refl _ _
  · refine Keeps.viaReg (State.setReg_keeps _ _ _) rfl ?_
    exact h1

def State.showImage_parts : List Part := [.reg Reg.MGT_BOOTSTAT, .reg Reg.MGT_IMGVER, .reg Reg.MGT_IMGSTAT]

theorem State.showImage_keeps (s0 : State) (slot : ℕ) (version : Word) (svn : ℕ) :
    Keeps State.showImage_parts s0 (State.showImage s0 slot version svn) := by
  unfold State.showImage
  extract_lets -lift -merge -useContext -underBinder +onlyGivenNames x0
  have h0 : Keeps State.showImage_parts s0 x0 := by
    unfold x0
    refine Keeps.via (State.setFld_keeps _ _ _) rfl ?_
    refine Keeps.via (State.setFld_keeps _ _ _) rfl ?_
    exact Keeps.refl _ _
  refine Keeps.via (State.setFld_keeps _ _ _) rfl ?_
  refine Keeps.via (State.setReg_keeps _ _ _) rfl ?_
  exact h0

def State.resetCore_parts : List Part := [.log, .boot, .regs]

theorem State.resetCore_keeps (s0 : State) :
    Keeps State.resetCore_parts s0 (State.resetCore s0) := by
  unfold State.resetCore
  extract_lets -lift -merge -useContext -underBinder +onlyGivenNames x0
  have h0 : Keeps State.resetCore_parts s0 x0 := by
    unfold x0
    refine Keeps.via (Keeps.filter_regs _ _) rfl ?_
    exact Keeps.refl _ _
  extract_lets -lift -merge -useContext -underBinder +onlyGivenNames x1 x2 x3
  have h3 : Keeps State.resetCore_parts s0 x3 := by
    unfold x3
    refine Keeps.via (Keeps.upd_log_boot _ _ _) rfl ?_
    exact h0
  refine Keeps.via (State.setFld_keeps _ _ _) rfl ?_
  exact h3

def State.resumeLog_parts : List Part := [.time, .log, .sb, .vbat, .flash, .reg Reg.GLB_EVENT, .reg Reg.GLB_DIRSTAT, .reg Reg.LOG_RINGSTAT, .reg Reg.LOG_PTR, .reg Reg.LOG_LSN, .reg Reg.LOG_CAPTURED, .reg Reg.LOG_COALESCED, .reg Reg.LOG_LOST, .reg Reg.LOG_ORPHANS, .reg Reg.LOG_SQUALLS]

theorem State.resumeLog_keeps (s0 : State) :
    Keeps State.resumeLog_parts s0 (State.resumeLog s0) := by
  unfold State.resumeLog
  split
  · refine Keeps.via (State.openLog_keeps _) rfl ?_
    exact Keeps.refl _ _
  · refine Keeps.via (State.openLog_keeps _) rfl ?_
    exact Keeps.refl _ _
  · exact Keeps.refl _ _

def State.refuseRelease_parts : List Part := [.rx, .top, .log, .sb, .links, .twin, .ord, .map, .mir, .sch, .flt, .cal, .pwr, .boot, .reg Reg.GLB_HUBID, .reg Reg.GLB_EVENT, .reg Reg.GLB_DIRSTAT, .reg Reg.GLB_QUIESCE, .block 0x1, .reg Reg.ORD_FWD, .reg Reg.ORD_LINEHOLD, .reg Reg.ORD_FLUSHES, .reg Reg.MIR_CAUSE, .reg Reg.MIR_PENDOCC, .reg Reg.MIR_FWDMISS, .reg Reg.MIR_HOSTAT, .reg Reg.MIR_HOCNT, .reg Reg.DPH_RETSTAT, .reg Reg.ECC_SEALFAIL, .reg Reg.ECC_FIRSTFAIL, .reg Reg.ECC_REPAIR, .reg Reg.MGT_BOOTSTAT, .reg Reg.LOG_RINGSTAT, .reg Reg.LOG_CAPTURED, .reg Reg.LOG_COALESCED, .reg Reg.LOG_LOST, .reg Reg.LOG_ORPHANS, .reg Reg.LOG_SQUALLS]

theorem State.refuseRelease_keeps (s0 : State) (choice : ℕ) (reason : ℕ) :
    Keeps State.refuseRelease_parts s0 (State.refuseRelease s0 choice reason) := by
  unfold State.refuseRelease
  extract_lets -lift -merge -useContext -underBinder +onlyGivenNames x0
  have h0 : Keeps State.refuseRelease_parts s0 x0 := by
    unfold x0
    refine Keeps.via (State.event_keeps _ _ _) rfl ?_
    refine Keeps.via (State.bumpF_keeps _ _ _) rfl ?_
    exact Keeps.refl _ _
  refine Keeps.ite ?_ ?_
  · refine Keeps.via (State.goTo_keeps _ _ _) rfl ?_
    exact h0
  · exact h0

def State.dropCheck_parts : List Part := [.rx, .free, .top, .log, .sb, .links, .twin, .ord, .map, .mir, .sch, .flt, .cal, .pwr, .boot, .reg Reg.GLB_HUBID, .reg Reg.GLB_EVENT, .reg Reg.GLB_BOOTREL, .reg Reg.GLB_DIRSTAT, .reg Reg.GLB_QUIESCE, .block 0x1, .reg Reg.ORD_FWD, .reg Reg.ORD_LINEHOLD, .reg Reg.ORD_FLUSHES, .reg Reg.MIR_CAUSE, .reg Reg.MIR_PENDOCC, .reg Reg.MIR_FWDMISS, .reg Reg.MIR_HOSTAT, .reg Reg.MIR_HOCNT, .reg Reg.DPH_RETSTAT, .reg Reg.ECC_SEALFAIL, .reg Reg.ECC_FIRSTFAIL, .reg Reg.ECC_REPAIR, .reg Reg.MGT_BOOTSTAT, .reg Reg.LOG_RINGSTAT, .reg Reg.LOG_CAPTURED, .reg Reg.LOG_COALESCED, .reg Reg.LOG_LOST, .reg Reg.LOG_ORPHANS, .reg Reg.LOG_SQUALLS]

theorem State.dropCheck_keeps (s0 : State) :
    Keeps State.dropCheck_parts s0 (State.dropCheck s0) := by
  unfold State.dropCheck
  split
  · extract_lets -lift -merge -useContext -underBinder +onlyGivenNames x0
    have h0 : Keeps State.dropCheck_parts s0 x0.2 := by
      unfold x0
      refine Keeps.via (State.draw_keeps _) rfl ?_
      exact Keeps.refl _ _
    extract_lets -lift -merge -useContext -underBinder +onlyGivenNames x1 x2 x3
    have h1 : Keeps State.dropCheck_parts s0 x1 := by
      unfold x1
      exact h0
    have h3 : Keeps State.dropCheck_parts s0 x3 := by
      unfold x3
      refine Keeps.via (Keeps.upd_boot _ _) rfl ?_
      exact h1
    extract_lets -lift -merge -useContext -underBinder +onlyGivenNames x4
    have h4 : Keeps State.dropCheck_parts s0 x4 := by
      unfold x4
      refine Keeps.via (State.setFld_keeps _ _ _) rfl ?_
      refine Keeps.via (State.setFld_keeps _ _ _) rfl ?_
      exact h3
    refine Keeps.via (State.refuseRelease_keeps _ _ _) rfl ?_
    exact h4
  · exact Keeps.refl _ _

def State.bootEnds_parts : List Part := [.reg Reg.MAP_CAP]

theorem State.bootEnds_keeps (s0 : State) :
    Keeps State.bootEnds_parts s0 (State.bootEnds s0) := by
  unfold State.bootEnds
  refine Keeps.via (State.satF_keeps _ _ _) rfl ?_
  exact Keeps.refl _ _

def State.coreReset_parts : List Part := [.rx, .free, .top, .time, .log, .sb, .links, .twin, .ord, .map, .mir, .sch, .flt, .cal, .vbat, .pwr, .gust, .boot, .flash, .regs]

theorem State.coreReset_keeps (s0 : State) :
    Keeps State.coreReset_parts s0 (State.coreReset s0) := by
  unfold State.coreReset
  extract_lets -lift -merge -useContext -underBinder +onlyGivenNames x0
  have h0 : Keeps State.coreReset_parts s0 x0 := by
    unfold x0
    refine Keeps.via (State.tear_keeps _) rfl ?_
    exact Keeps.refl _ _
  refine Keeps.ite ?_ ?_
  · exact h0
  · refine Keeps.ite ?_ ?_
    · extract_lets -lift -merge -useContext -underBinder +onlyGivenNames x1
      try clear_value x1
      extract_lets -lift -merge -useContext -underBinder +onlyGivenNames x2
      have h2 : Keeps State.coreReset_parts s0 x2 := by
        unfold x2
        refine Keeps.via (State.event_keeps _ _ _) rfl ?_
        refine Keeps.via (State.setFld_keeps _ _ _) rfl ?_
        exact h0
      extract_lets -lift -merge -useContext -underBinder +onlyGivenNames x3
      have h3 : Keeps State.coreReset_parts s0 x3 := by
        unfold x3
        refine Keeps.via (State.resetCore_keeps _) rfl ?_
        exact h2
      refine Keeps.ite ?_ ?_
      · refine Keeps.via (State.resumeLog_keeps _) rfl ?_
        refine Keeps.via (State.enterHold_keeps _ _ _) rfl ?_
        refine Keeps.via (State.bootEnds_keeps _) rfl ?_
        exact h3
      · refine Keeps.via (Keeps.upd_boot _ _) rfl ?_
        exact h3
    · refine Keeps.via (State.resumeLog_keeps _) rfl ?_
      refine Keeps.via (State.dropCheck_keeps _) rfl ?_
      refine Keeps.via (State.resetCore_keeps _) rfl ?_
      exact h0

def execCoreReset_parts : List Part := [.rx, .free, .top, .time, .log, .sb, .links, .twin, .ord, .map, .mir, .sch, .flt, .cal, .vbat, .pwr, .gust, .boot, .flash, .regs]

theorem execCoreReset_keeps (s0 : State) :
    KeepsOut execCoreReset_parts s0 (execCoreReset s0) := by
  unfold execCoreReset
  refine KeepsOut.next ?_
  refine Keeps.via (State.coreReset_keeps _) rfl ?_
  exact Keeps.refl _ _

def execWatchdogExpiry_parts : List Part := [.rx, .free, .top, .time, .log, .sb, .links, .twin, .ord, .map, .mir, .sch, .flt, .cal, .vbat, .pwr, .gust, .boot, .flash, .regs]

theorem execWatchdogExpiry_keeps (s0 : State) :
    KeepsOut execWatchdogExpiry_parts s0 (execWatchdogExpiry s0) := by
  unfold execWatchdogExpiry
  refine KeepsOut.next ?_
  refine Keeps.ite ?_ ?_
  · refine Keeps.via (State.coreReset_keeps _) rfl ?_
    refine Keeps.via (State.event_keeps _ _ _) rfl ?_
    refine Keeps.via (State.bump_keeps _ _ _) rfl ?_
    exact Keeps.refl _ _
  · exact Keeps.refl _ _

def State.findFlash_parts : List Part := [.log, .sb, .boot, .reg Reg.GLB_EVENT, .reg Reg.GLB_DIRSTAT, .reg Reg.LOG_RINGSTAT, .reg Reg.LOG_CAPTURED, .reg Reg.LOG_COALESCED, .reg Reg.LOG_LOST, .reg Reg.LOG_ORPHANS, .reg Reg.LOG_SQUALLS]

theorem State.findFlash_keeps (s0 : State) (found : FlashFind) :
    Keeps State.findFlash_parts s0 (State.findFlash s0 found) := by
  unfold State.findFlash
  extract_lets -lift -merge -useContext -underBinder +onlyGivenNames x0
  try clear_value x0
  extract_lets -lift -merge -useContext -underBinder +onlyGivenNames x1
  try clear_value x1
  extract_lets -lift -merge -useContext -underBinder +onlyGivenNames x2 x3
  have h3 : Keeps State.findFlash_parts s0 x3 := by
    unfold x3
    refine Keeps.via (Keeps.upd_boot _ _) rfl ?_
    exact Keeps.refl _ _
  refine Keeps.ite ?_ ?_
  · refine Keeps.via (State.event_keeps _ _ _) rfl ?_
    exact h3
  · exact h3

def State.stage_parts : List Part := [.reg Reg.MGT_BOOTSTAT]

theorem State.stage_keeps (s0 : State) (n : ℕ) :
    Keeps State.stage_parts s0 (State.stage s0 n) := by
  unfold State.stage
  refine Keeps.via (State.setFld_keeps _ _ _) rfl ?_
  exact Keeps.refl _ _

def State.stagesEnd_parts : List Part := [.boot]

theorem State.stagesEnd_keeps (s0 : State) (hold : ℕ) :
    Keeps State.stagesEnd_parts s0 (State.stagesEnd s0 hold) := by
  unfold State.stagesEnd
  refine Keeps.via (Keeps.upd_boot _ _) rfl ?_
  exact Keeps.refl _ _

def State.bootC1_parts : List Part := [.log, .boot, .regs]

theorem State.bootC1_keeps (s0 : State) (entropy : Bool) :
    Keeps State.bootC1_parts s0 (State.bootC1 s0 entropy) := by
  unfold State.bootC1
  extract_lets -lift -merge -useContext -underBinder +onlyGivenNames x0
  try clear_value x0
  extract_lets -lift -merge -useContext -underBinder +onlyGivenNames x1 x2 x3
  have h1 : Keeps State.bootC1_parts s0 x1 := by
    unfold x1
    refine Keeps.via (State.setFld_keeps _ _ _) rfl ?_
    refine Keeps.via (State.setFld_keeps _ _ _) rfl ?_
    exact Keeps.refl _ _
  have h3 : Keeps State.bootC1_parts s0 x3 := by
    unfold x3
    refine Keeps.ite ?_ ?_
    · exact Keeps.refl _ _
    · refine Keeps.via (Keeps.upd_boot _ _) rfl ?_
      exact h1
  extract_lets -lift -merge -useContext -underBinder +onlyGivenNames x4
  have h4 : Keeps State.bootC1_parts s0 x4 := by
    unfold x4
    refine Keeps.via (State.resetCore_keeps _) rfl ?_
    exact h3
  extract_lets -lift -merge -useContext -underBinder +onlyGivenNames x5
  have h5 : Keeps State.bootC1_parts s0 x5 := by
    unfold x5
    refine Keeps.ite ?_ ?_
    · exact h4
    · refine Keeps.via (State.setFld_keeps _ _ _) rfl ?_
      exact h4
  refine Keeps.via (State.stage_keeps _ _) rfl ?_
  refine Keeps.via (Keeps.upd_boot _ _) rfl ?_
  exact h5

def State.acceptImage_parts : List Part := [.time, .log, .sb, .vbat, .cfgStore, .boot, .flash, .regs]

theorem State.acceptImage_keeps (s0 : State) (slot : ℕ) (im : Image) (fallback : Bool) :
    Keeps State.acceptImage_parts s0 (State.acceptImage s0 slot im fallback) := by
  unfold State.acceptImage
  extract_lets -lift -merge -useContext -underBinder +onlyGivenNames x0
  have h0 : Keeps State.acceptImage_parts s0 x0 := by
    unfold x0
    refine Keeps.via (State.writeStore_keeps _ _ _) rfl ?_
    refine Keeps.via (State.applyImage_keeps _ _) rfl ?_
    exact Keeps.refl _ _
  extract_lets -lift -merge -useContext -underBinder +onlyGivenNames x1
  have h1 : Keeps State.acceptImage_parts s0 x1 := by
    unfold x1
    refine Keeps.via (State.setFlag_keeps _ _ _) rfl ?_
    refine Keeps.via (State.showImage_keeps _ _ _ _) rfl ?_
    exact h0
  extract_lets -lift -merge -useContext -underBinder +onlyGivenNames x2
  have h2 : Keeps State.acceptImage_parts s0 x2 := by
    unfold x2
    refine Keeps.via (State.satF_keeps _ _ _) rfl ?_
    exact h1
  extract_lets -lift -merge -useContext -underBinder +onlyGivenNames x3
  have h3 : Keeps State.acceptImage_parts s0 x3 := by
    unfold x3
    refine Keeps.foldl _ _ ?_ (fun t4 y4 h4 => ?_)
    · exact h2
    · refine Keeps.via (State.event_keeps _ _ _) rfl ?_
      exact h4
  extract_lets -lift -merge -useContext -underBinder +onlyGivenNames x5
  have h5 : Keeps State.acceptImage_parts s0 x5 := by
    unfold x5
    refine Keeps.via (State.event_keeps _ _ _) rfl ?_
    exact h3
  refine Keeps.via (State.openLog_keeps _) rfl ?_
  refine Keeps.via (State.stagesEnd_keeps _ _) rfl ?_
  refine Keeps.via (State.stage_keeps _ _) rfl ?_
  exact h5

def execCoreRelease_parts : List Part := [.free, .time, .log, .sb, .vbat, .fuse, .cfgStore, .boot, .flash, .regs]

theorem execCoreRelease_keeps (found : BootFind) (s0 : State) :
    KeepsOut execCoreRelease_parts s0 (execCoreRelease found s0) := by
  unfold execCoreRelease
  refine KeepsOut.next ?_
  refine Keeps.ite ?_ ?_
  · exact Keeps.refl _ _
  · extract_lets -lift -merge -useContext -underBinder +onlyGivenNames x0
    have h0 : Keeps execCoreRelease_parts s0 x0 := by
      unfold x0
      refine Keeps.via (State.bootC1_keeps _ _) rfl ?_
      exact Keeps.refl _ _
    refine Keeps.ite ?_ ?_
    · extract_lets -lift -merge -useContext -underBinder +onlyGivenNames x1
      have h1 : Keeps execCoreRelease_parts s0 x1 := by
        unfold x1
        refine Keeps.via (State.queueOwed_keeps _) rfl ?_
        refine Keeps.via (State.findFlash_keeps _ _) rfl ?_
        exact h0
      extract_lets -lift -merge -useContext -underBinder +onlyGivenNames x2
      have h2 : Keeps execCoreRelease_parts s0 x2 := by
        unfold x2
        refine Keeps.via (State.showImage_keeps _ _ _ _) rfl ?_
        refine Keeps.via (State.loadStore_keeps _) rfl ?_
        exact h1
      refine Keeps.via (State.resumeLog_keeps _) rfl ?_
      refine Keeps.via (State.stagesEnd_keeps _ _) rfl ?_
      refine Keeps.via (State.stage_keeps _ _) rfl ?_
      refine Keeps.via (State.setFld_keeps _ _ _) rfl ?_
      exact h2
    · extract_lets -lift -merge -useContext -underBinder +onlyGivenNames x3
      have h3 : Keeps execCoreRelease_parts s0 x3 := by
        unfold x3
        refine Keeps.via (State.queueOwed_keeps _) rfl ?_
        refine Keeps.via (State.findFlash_keeps _ _) rfl ?_
        refine Keeps.via (State.stage_keeps _ _) rfl ?_
        exact h0
      refine Keeps.ite ?_ ?_
      · refine Keeps.via (State.stagesEnd_keeps _ _) rfl ?_
        exact h3
      · extract_lets -lift -merge -useContext -underBinder +onlyGivenNames x4
        have h4 : Keeps execCoreRelease_parts s0 x4.1 := by
          unfold x4
          refine Keeps.via (State.selectSlot_keeps _ _ _) rfl ?_
          refine Keeps.via (State.stage_keeps _ _) rfl ?_
          exact h3
        split
        · refine Keeps.via (State.acceptImage_keeps _ _ _ _) rfl ?_
          exact h4
        · refine Keeps.via (State.openLog_keeps _) rfl ?_
          refine Keeps.via (State.stagesEnd_keeps _ _) rfl ?_
          refine Keeps.via (State.stage_keeps _ _) rfl ?_
          exact h4
        · refine Keeps.via (State.openLog_keeps _) rfl ?_
          refine Keeps.via (State.stagesEnd_keeps _ _) rfl ?_
          refine Keeps.via (State.stage_keeps _ _) rfl ?_
          exact h4

def State.enterTrain_parts : List Part := [.rx, .free, .top, .log, .sb, .links, .twin, .ord, .map, .mir, .sch, .flt, .cal, .clk, .vbat, .pwr, .gust, .boot, .reg Reg.GLB_HUBID, .reg Reg.GLB_EVENT, .reg Reg.GLB_DIRSTAT, .reg Reg.GLB_QUIESCE, .block 0x1, .reg Reg.ORD_FWD, .reg Reg.ORD_LINEHOLD, .reg Reg.ORD_FLUSHES, .reg Reg.MIR_CAUSE, .reg Reg.MIR_PENDOCC, .reg Reg.MIR_FWDMISS, .reg Reg.MIR_HOSTAT, .reg Reg.MIR_HOCNT, .block 0x5, .reg Reg.DPH_RETSTAT, .reg Reg.ECC_SEALFAIL, .reg Reg.ECC_FIRSTFAIL, .reg Reg.ECC_REPAIR, .block 0x9, .reg Reg.PWR_SEQSTAT, .reg Reg.PWR_HOLD, .reg Reg.PWR_CONTENTS, .reg Reg.LOG_RINGSTAT, .reg Reg.LOG_CAPTURED, .reg Reg.LOG_COALESCED, .reg Reg.LOG_LOST, .reg Reg.LOG_ORPHANS, .reg Reg.LOG_SQUALLS]

theorem State.enterTrain_keeps (s0 : State) (bands : List (BitVec 6)) :
    Keeps State.enterTrain_parts s0 (State.enterTrain s0 bands) := by
  unfold State.enterTrain
  extract_lets -lift -merge -useContext -underBinder +onlyGivenNames x0
  try clear_value x0
  extract_lets -lift -merge -useContext -underBinder +onlyGivenNames x1
  have h1 : Keeps State.enterTrain_parts s0 x1 := by
    unfold x1
    refine Keeps.via (State.goTo_keeps _ _ _) rfl ?_
    refine Keeps.via (State.setScrub_keeps _ _ _) rfl ?_
    exact Keeps.refl _ _
  extract_lets -lift -merge -useContext -underBinder +onlyGivenNames x2 x3
  have h3 : Keeps State.enterTrain_parts s0 x3 := by
    unfold x3
    refine Keeps.via (State.fixReport_keeps _ _ _ _) rfl ?_
    refine Keeps.via (Keeps.upd_gust _ _) rfl ?_
    exact h1
  extract_lets -lift -merge -useContext -underBinder +onlyGivenNames x4
  have h4 : Keeps State.enterTrain_parts s0 x4 := by
    unfold x4
    refine Keeps.ite ?_ ?_
    · refine Keeps.via (State.noteClearing_keeps _) rfl ?_
      exact h3
    · exact h3
  extract_lets -lift -merge -useContext -underBinder +onlyGivenNames x5 x6
  have h6 : Keeps State.enterTrain_parts s0 x6 := by
    unfold x6
    refine Keeps.via (Keeps.upd_vbat _ _) rfl ?_
    exact h4
  extract_lets -lift -merge -useContext -underBinder +onlyGivenNames x7
  have h7 : Keeps State.enterTrain_parts s0 x7 := by
    unfold x7
    refine Keeps.via (State.bringUp_keeps _ _ _) rfl ?_
    refine Keeps.via (State.setFld_keeps _ _ _) rfl ?_
    exact h6
  refine Keeps.via (State.startSection_keeps _ _) rfl ?_
  exact h7

def execBootComplete_parts : List Part := [.rx, .free, .top, .log, .sb, .links, .twin, .ord, .map, .mir, .sch, .flt, .cal, .clk, .vbat, .pwr, .gust, .boot, .flash, .reg Reg.GLB_HUBID, .reg Reg.GLB_EVENT, .reg Reg.GLB_DIRSTAT, .reg Reg.GLB_QUIESCE, .block 0x1, .reg Reg.ORD_FWD, .reg Reg.ORD_LINEHOLD, .reg Reg.ORD_FLUSHES, .reg Reg.MAP_CAP, .reg Reg.MIR_CAUSE, .reg Reg.MIR_PENDOCC, .reg Reg.MIR_FWDMISS, .reg Reg.MIR_HOSTAT, .reg Reg.MIR_HOCNT, .block 0x5, .reg Reg.DPH_RETSTAT, .reg Reg.ECC_SEALFAIL, .reg Reg.ECC_FIRSTFAIL, .reg Reg.ECC_REPAIR, .block 0x9, .reg Reg.PWR_SEQSTAT, .reg Reg.PWR_HOLD, .reg Reg.PWR_CONTENTS, .reg Reg.MGT_BOOTSTAT, .reg Reg.LOG_RINGSTAT, .reg Reg.LOG_PTR, .reg Reg.LOG_LSN, .reg Reg.LOG_CAPTURED, .reg Reg.LOG_COALESCED, .reg Reg.LOG_LOST, .reg Reg.LOG_SKIPS, .reg Reg.LOG_ORPHANS, .reg Reg.LOG_SQUALLS]

theorem execBootComplete_keeps (bands : List (BitVec 6)) (s0 : State) :
    KeepsOut execBootComplete_parts s0 (execBootComplete bands s0) := by
  unfold execBootComplete
  refine KeepsOut.next ?_
  refine Keeps.ite ?_ ?_
  · exact Keeps.refl _ _
  · extract_lets -lift -merge -useContext -underBinder +onlyGivenNames x0
    have h0 : Keeps execBootComplete_parts s0 x0 := by
      unfold x0
      refine Keeps.ite ?_ ?_
      · refine Keeps.via (State.writeLate_keeps _ _) rfl ?_
        exact Keeps.refl _ _
      · exact Keeps.refl _ _
    extract_lets -lift -merge -useContext -underBinder +onlyGivenNames x1
    have h1 : Keeps execBootComplete_parts s0 x1 := by
      unfold x1
      refine Keeps.via (State.bootEnds_keeps _) rfl ?_
      exact h0
    refine Keeps.ite ?_ ?_
    · refine Keeps.via (State.enterHold_keeps _ _ _) rfl ?_
      exact h1
    · extract_lets -lift -merge -useContext -underBinder +onlyGivenNames x2 x3
      have h3 : Keeps execBootComplete_parts s0 x3 := by
        unfold x3
        refine Keeps.via (Keeps.upd_boot _ _) rfl ?_
        exact h1
      refine Keeps.ite ?_ ?_
      · refine Keeps.via (State.enterTrain_keeps _ _) rfl ?_
        exact h3
      · refine Keeps.via (State.startSection_keeps _ _) rfl ?_
        refine Keeps.via (State.setScrub_keeps _ _ _) rfl ?_
        exact h3

def State.bootRel_parts : List Part := [.rx, .free, .top, .log, .sb, .links, .twin, .ord, .map, .mir, .sch, .flt, .cal, .pwr, .boot, .reg Reg.GLB_HUBID, .reg Reg.GLB_EVENT, .reg Reg.GLB_BOOTREL, .reg Reg.GLB_DIRSTAT, .reg Reg.GLB_QUIESCE, .block 0x1, .reg Reg.ORD_FWD, .reg Reg.ORD_LINEHOLD, .reg Reg.ORD_FLUSHES, .reg Reg.MIR_CAUSE, .reg Reg.MIR_PENDOCC, .reg Reg.MIR_FWDMISS, .reg Reg.MIR_HOSTAT, .reg Reg.MIR_HOCNT, .reg Reg.DPH_RETSTAT, .reg Reg.ECC_SEALFAIL, .reg Reg.ECC_FIRSTFAIL, .reg Reg.ECC_REPAIR, .reg Reg.MGT_BOOTSTAT, .reg Reg.LOG_RINGSTAT, .reg Reg.LOG_CAPTURED, .reg Reg.LOG_COALESCED, .reg Reg.LOG_LOST, .reg Reg.LOG_ORPHANS, .reg Reg.LOG_SQUALLS]

theorem State.bootRel_keeps (s0 : State) :
    Keeps State.bootRel_parts s0 (State.bootRel s0).1 := by
  unfold State.bootRel
  extract_lets -lift -merge -useContext -underBinder +onlyGivenNames x0
  have h0 : Keeps State.bootRel_parts s0 x0 := by
    unfold x0
    refine Keeps.via (State.setFld_keeps _ _ _) rfl ?_
    exact Keeps.refl _ _
  extract_lets -lift -merge -useContext -underBinder +onlyGivenNames x1
  try clear_value x1
  refine Keeps.iteL ?_ ?_
  · dsimp -zeta only
    refine Keeps.via (State.setFld_keeps _ _ _) rfl ?_
    exact h0
  · refine Keeps.iteL ?_ ?_
    · extract_lets -lift -merge -useContext -underBinder +onlyGivenNames x2
      have h2 : Keeps State.bootRel_parts s0 x2.2 := by
        unfold x2
        refine Keeps.via (State.draw_keeps _) rfl ?_
        exact h0
      dsimp -zeta only
      refine Keeps.via (State.refuseRelease_keeps _ _ _) rfl ?_
      refine Keeps.via (State.setFld_keeps _ _ _) rfl ?_
      exact h2
    · refine Keeps.iteL ?_ ?_
      · dsimp -zeta only
        exact h0
      · refine Keeps.iteL ?_ ?_
        · dsimp -zeta only
          refine Keeps.via (State.refuseRelease_keeps _ _ _) rfl ?_
          refine Keeps.via (State.setFld_keeps _ _ _) rfl ?_
          exact h0
        · dsimp -zeta only
          refine Keeps.via (State.setFld_keeps _ _ _) rfl ?_
          refine Keeps.via (Keeps.upd_boot _ _) rfl ?_
          exact h0

def State.faultRel_parts : List Part := [.rx, .top, .log, .sb, .links, .twin, .ord, .map, .mir, .sch, .flt, .cal, .pwr, .boot, .reg Reg.GLB_HUBID, .reg Reg.GLB_EVENT, .reg Reg.GLB_FAULTREL, .reg Reg.GLB_DIRSTAT, .reg Reg.GLB_QUIESCE, .block 0x1, .reg Reg.ORD_FWD, .reg Reg.ORD_LINEHOLD, .reg Reg.ORD_FLUSHES, .reg Reg.MIR_CAUSE, .reg Reg.MIR_PENDOCC, .reg Reg.MIR_FWDMISS, .reg Reg.MIR_HOSTAT, .reg Reg.MIR_HOCNT, .reg Reg.DPH_RETSTAT, .reg Reg.ECC_SEALFAIL, .reg Reg.ECC_FIRSTFAIL, .reg Reg.ECC_REPAIR, .reg Reg.PWR_FEEDSTAT, .reg Reg.LOG_RINGSTAT, .reg Reg.LOG_CAPTURED, .reg Reg.LOG_COALESCED, .reg Reg.LOG_LOST, .reg Reg.LOG_ORPHANS, .reg Reg.LOG_SQUALLS]

theorem State.faultRel_keeps (s0 : State) :
    Keeps State.faultRel_parts s0 (State.faultRel s0).1 := by
  unfold State.faultRel
  extract_lets -lift -merge -useContext -underBinder +onlyGivenNames x0
  have h0 : Keeps State.faultRel_parts s0 x0 := by
    unfold x0
    refine Keeps.via (State.setFld_keeps _ _ _) rfl ?_
    exact Keeps.refl _ _
  refine Keeps.iteL ?_ ?_
  · extract_lets -lift -merge -useContext -underBinder +onlyGivenNames x1
    have h1 : Keeps State.faultRel_parts s0 x1 := by
      unfold x1
      refine Keeps.via (State.event_keeps _ _ _) rfl ?_
      refine Keeps.via (State.setFld_keeps _ _ _) rfl ?_
      exact h0
    extract_lets -lift -merge -useContext -underBinder +onlyGivenNames x2
    have h2 : Keeps State.faultRel_parts s0 x2 := by
      unfold x2
      refine Keeps.via (State.setFld_keeps _ _ _) rfl ?_
      refine Keeps.via (State.setFld_keeps _ _ _) rfl ?_
      exact h1
    dsimp -zeta only
    refine Keeps.via (State.goTo_keeps _ _ _) rfl ?_
    exact h2
  · dsimp -zeta only
    refine Keeps.via (State.setFld_keeps _ _ _) rfl ?_
    exact h0

def State.judgeRelease_parts : List Part := [.log, .sb, .boot, .flash, .regs]

theorem State.judgeRelease_keeps (s0 : State) (found : BootFind) (choice : ℕ) :
    Keeps State.judgeRelease_parts s0 (State.judgeRelease s0 found choice).1 := by
  unfold State.judgeRelease
  refine Keeps.iteL ?_ ?_
  · dsimp -zeta only
    exact Keeps.refl _ _
  · extract_lets -lift -merge -useContext -underBinder +onlyGivenNames x0
    try clear_value x0
    extract_lets -lift -merge -useContext -underBinder +onlyGivenNames x1
    have h1 : Keeps State.judgeRelease_parts s0 x1.1 := by
      unfold x1
      refine Keeps.via (State.selectSlot_keeps _ _ _) rfl ?_
      exact Keeps.refl _ _
    split
    · dsimp -zeta only
      exact h1
    · dsimp -zeta only
      exact h1
    · dsimp -zeta only
      exact h1

def execBootReleaseChecked_parts : List Part := [.rx, .top, .log, .sb, .links, .twin, .ord, .map, .mir, .sch, .flt, .cal, .pwr, .gust, .boot, .flash, .regs]

theorem execBootReleaseChecked_keeps (found : BootFind) (s0 : State) :
    KeepsOut execBootReleaseChecked_parts s0 (execBootReleaseChecked found s0) := by
  unfold execBootReleaseChecked
  refine KeepsOut.next ?_
  split
  · exact Keeps.refl _ _
  · refine Keeps.ite ?_ ?_
    · exact Keeps.refl _ _
    · extract_lets -lift -merge -useContext -underBinder +onlyGivenNames x0 x1
      have h1 : Keeps execBootReleaseChecked_parts s0 x1 := by
        unfold x1
        refine Keeps.via (State.setFld_keeps _ _ _) rfl ?_
        refine Keeps.via (Keeps.upd_boot _ _) rfl ?_
        exact Keeps.refl _ _
      extract_lets -lift -merge -useContext -underBinder +onlyGivenNames x2
      have h2 : Keeps execBootReleaseChecked_parts s0 x2.1 := by
        unfold x2
        refine Keeps.via (State.judgeRelease_keeps _ _ _) rfl ?_
        exact h1
      split
      · refine Keeps.via (State.refuseRelease_keeps _ _ _) rfl ?_
        refine Keeps.via (State.setFld_keeps _ _ _) rfl ?_
        exact h2
      · extract_lets -lift -merge -useContext -underBinder +onlyGivenNames x3
        have h3 : Keeps execBootReleaseChecked_parts s0 x3 := by
          unfold x3
          refine Keeps.via (State.event_keeps _ _ _) rfl ?_
          refine Keeps.via (State.setFld_keeps _ _ _) rfl ?_
          exact h2
        extract_lets -lift -merge -useContext -underBinder +onlyGivenNames x4 x5
        have h5 : Keeps execBootReleaseChecked_parts s0 x5 := by
          unfold x5
          refine Keeps.via (Keeps.upd_boot _ _) rfl ?_
          exact h3
        extract_lets -lift -merge -useContext -underBinder +onlyGivenNames x6
        have h6 : Keeps execBootReleaseChecked_parts s0 x6 := by
          unfold x6
          refine Keeps.via (State.setFld_keeps _ _ _) rfl ?_
          exact h5
        refine Keeps.ite ?_ ?_
        · extract_lets -lift -merge -useContext -underBinder +onlyGivenNames x7 x8 x9
          have h9 : Keeps execBootReleaseChecked_parts s0 x9 := by
            unfold x9
            refine Keeps.via (Keeps.upd_ord_gust _ _ _) rfl ?_
            exact h6
          refine Keeps.via (State.setReg_keeps _ _ _) rfl ?_
          refine Keeps.via (State.goTo_keeps _ _ _) rfl ?_
          exact h9
        · refine Keeps.via (State.setFld_keeps _ _ _) rfl ?_
          refine Keeps.via (State.goTo_keeps _ _ _) rfl ?_
          exact h6

def State.burnWord_parts : List Part := [.free, .fuse]

theorem State.burnWord_keeps (s0 : State) (w : ℕ) (v : ℕ) (ok : Bool) :
    Keeps State.burnWord_parts s0 (State.burnWord s0 w v ok) := by
  unfold State.burnWord
  extract_lets -lift -merge -useContext -underBinder +onlyGivenNames x0
  try clear_value x0
  extract_lets -lift -merge -useContext -underBinder +onlyGivenNames x1
  try clear_value x1
  extract_lets -lift -merge -useContext -underBinder +onlyGivenNames x2
  have h2 : Keeps State.burnWord_parts s0 x2.2 := by
    unfold x2
    refine Keeps.via (State.draw_keeps _) rfl ?_
    exact Keeps.refl _ _
  extract_lets -lift -merge -useContext -underBinder +onlyGivenNames x3
  have h3 : Keeps State.burnWord_parts s0 x3.2 := by
    unfold x3
    refine Keeps.via (State.draw_keeps _) rfl ?_
    exact h2
  extract_lets -lift -merge -useContext -underBinder +onlyGivenNames x4
  try clear_value x4
  extract_lets -lift -merge -useContext -underBinder +onlyGivenNames x5
  have h5 : Keeps State.burnWord_parts s0 x5 := by
    unfold x5
    refine Keeps.ite ?_ ?_
    · exact Keeps.refl _ _
    · exact h3
  refine Keeps.via (Keeps.upd_fuse _ _) rfl ?_
  exact h5

def State.stopBurn_parts : List Part := [.log, .sb, .boot, .reg Reg.GLB_EVENT, .reg Reg.GLB_DIRSTAT, .reg Reg.MGT_ROLLBACK, .reg Reg.LOG_RINGSTAT, .reg Reg.LOG_CAPTURED, .reg Reg.LOG_COALESCED, .reg Reg.LOG_LOST, .reg Reg.LOG_ORPHANS, .reg Reg.LOG_SQUALLS]

theorem State.stopBurn_keeps (s0 : State) (phys : ℕ) :
    Keeps State.stopBurn_parts s0 (State.stopBurn s0 phys) := by
  unfold State.stopBurn
  extract_lets -lift -merge -useContext -underBinder +onlyGivenNames x0
  try clear_value x0
  extract_lets -lift -merge -useContext -underBinder +onlyGivenNames x1 x2
  have h2 : Keeps State.stopBurn_parts s0 x2 := by
    unfold x2
    refine Keeps.via (Keeps.upd_boot _ _) rfl ?_
    exact Keeps.refl _ _
  refine Keeps.via (State.event_keeps _ _ _) rfl ?_
  refine Keeps.via (State.setFld_keeps _ _ _) rfl ?_
  refine Keeps.via (State.setFld_keeps _ _ _) rfl ?_
  exact h2

def execRollbackAdvance_parts : List Part := [.free, .log, .sb, .fuse, .boot, .reg Reg.GLB_EVENT, .reg Reg.GLB_DIRSTAT, .reg Reg.MGT_ROLLBACK, .reg Reg.LOG_RINGSTAT, .reg Reg.LOG_CAPTURED, .reg Reg.LOG_COALESCED, .reg Reg.LOG_LOST, .reg Reg.LOG_ORPHANS, .reg Reg.LOG_SQUALLS]

theorem execRollbackAdvance_keeps (verified : Bool) (s0 : State) :
    KeepsOut execRollbackAdvance_parts s0 (execRollbackAdvance verified s0) := by
  unfold execRollbackAdvance
  refine KeepsOut.next ?_
  refine Keeps.ite ?_ ?_
  · refine Keeps.via (State.setFld_keeps _ _ _) rfl ?_
    refine Keeps.via (Keeps.upd_boot _ _) rfl ?_
    exact Keeps.refl _ _
  · extract_lets -lift -merge -useContext -underBinder +onlyGivenNames x0
    try clear_value x0
    extract_lets -lift -merge -useContext -underBinder +onlyGivenNames x1
    try clear_value x1
    split
    · exact Keeps.refl _ _
    · extract_lets -lift -merge -useContext -underBinder +onlyGivenNames x2
      have h2 : Keeps execRollbackAdvance_parts s0 x2 := by
        unfold x2
        refine Keeps.via (State.burnWord_keeps _ _ _ _) rfl ?_
        refine Keeps.via (State.setFld_keeps _ _ _) rfl ?_
        exact Keeps.refl _ _
      refine Keeps.ite ?_ ?_
      · extract_lets -lift -merge -useContext -underBinder +onlyGivenNames x3 x4
        have h4 : Keeps execRollbackAdvance_parts s0 x4 := by
          unfold x4
          refine Keeps.via (Keeps.upd_boot _ _) rfl ?_
          exact h2
        refine Keeps.ite ?_ ?_
        · refine Keeps.via (State.event_keeps _ _ _) rfl ?_
          refine Keeps.via (State.setFld_keeps _ _ _) rfl ?_
          refine Keeps.via (State.setFld_keeps _ _ _) rfl ?_
          exact h4
        · exact h4
      · refine Keeps.ite ?_ ?_
        · refine Keeps.via (Keeps.upd_boot _ _) rfl ?_
          exact h2
        · refine Keeps.via (State.stopBurn_keeps _ _) rfl ?_
          exact h2

def execDirectoryMarkGood_parts : List Part := [.flash]

theorem execDirectoryMarkGood_keeps (s0 : State) :
    KeepsOut execDirectoryMarkGood_parts s0 (execDirectoryMarkGood s0) := by
  unfold execDirectoryMarkGood
  refine KeepsOut.next ?_
  extract_lets -lift -merge -useContext -underBinder +onlyGivenNames x0
  try clear_value x0
  refine Keeps.ite ?_ ?_
  · split
    · extract_lets -lift -merge -useContext -underBinder +onlyGivenNames x1
      try clear_value x1
      refine Keeps.ite ?_ ?_
      · refine Keeps.via (State.tidyDir_keeps _) rfl ?_
        refine Keeps.via (State.appendDir_keeps _ _) rfl ?_
        exact Keeps.refl _ _
      · exact Keeps.refl _ _
    · exact Keeps.refl _ _
  · exact Keeps.refl _ _

end Sys2Proof.Machine
end

