-- ==== Sys2Proof/Laws/KeepsTimeLog.lean ====
section
/-!
SUPPORT. The frames of the operations of Machine/TimeLog.lean: the parts of the state each may change, and that each keeps the canonical
form. A proof of a frame cites these and unfolds nothing.
-/

namespace Sys2Proof.Machine

def State.tickTime_parts : List Part := [.time]

theorem State.tickTime_keeps (s0 : State) :
    Keeps State.tickTime_parts s0 (State.tickTime s0) := by
  unfold State.tickTime
  extract_lets -lift -merge -useContext -underBinder +onlyGivenNames x0
  try clear_value x0
  refine Keeps.via (Keeps.upd_time _ _) rfl ?_
  exact Keeps.refl _ _

def execTimebaseBit20Change_parts : List Part := [.vbat]

theorem execTimebaseBit20Change_keeps (s0 : State) :
    KeepsOut execTimebaseBit20Change_parts s0 (execTimebaseBit20Change s0) := by
  unfold execTimebaseBit20Change
  refine KeepsOut.next ?_
  refine Keeps.ite ?_ ?_
  · refine Keeps.via (Keeps.upd_vbat _ _) rfl ?_
    exact Keeps.refl _ _
  · exact Keeps.refl _ _

def State.notePort_parts : List Part := [.log, .sb, .reg Reg.GLB_EVENT, .reg Reg.GLB_DIRSTAT, .reg Reg.TIM_STAT, .reg Reg.LOG_RINGSTAT, .reg Reg.LOG_CAPTURED, .reg Reg.LOG_COALESCED, .reg Reg.LOG_LOST, .reg Reg.LOG_ORPHANS, .reg Reg.LOG_SQUALLS]

theorem State.notePort_keeps (s0 : State) :
    Keeps State.notePort_parts s0 (State.notePort s0) := by
  unfold State.notePort
  extract_lets -lift -merge -useContext -underBinder +onlyGivenNames x0
  try clear_value x0
  refine Keeps.ite ?_ ?_
  · exact Keeps.refl _ _
  · refine Keeps.via (State.event_keeps _ _ _) rfl ?_
    refine Keeps.via (State.setFld_keeps _ _ _) rfl ?_
    exact Keeps.refl _ _

def State.newF_parts : List Part := [.free]

theorem State.newF_keeps (s0 : State) (e : ℤ) (dt : ℤ) :
    Keeps State.newF_parts s0 (State.newF s0 e dt).1 := by
  unfold State.newF
  refine Keeps.iteL ?_ ?_
  · extract_lets -lift -merge -useContext -underBinder +onlyGivenNames x0
    have h0 : Keeps State.newF_parts s0 x0.2 := by
      unfold x0
      refine Keeps.via (State.draw_keeps _) rfl ?_
      exact Keeps.refl _ _
    dsimp -zeta only
    exact h0
  · extract_lets -lift -merge -useContext -underBinder +onlyGivenNames x1
    try clear_value x1
    dsimp -zeta only
    exact Keeps.refl _ _

def State.applyBeacon_parts : List Part := [.free, .time, .log, .sb, .reg Reg.GLB_EVENT, .reg Reg.GLB_DIRSTAT, .reg Reg.TIM_LASTERR, .reg Reg.TIM_BEACONS, .reg Reg.TIM_STEPS, .reg Reg.LOG_RINGSTAT, .reg Reg.LOG_CAPTURED, .reg Reg.LOG_COALESCED, .reg Reg.LOG_LOST, .reg Reg.LOG_ORPHANS, .reg Reg.LOG_SQUALLS]

theorem State.applyBeacon_keeps (s0 : State) (t : ℕ) (m : ℕ) (paired : Bool) :
    Keeps State.applyBeacon_parts s0 (State.applyBeacon s0 t m paired) := by
  unfold State.applyBeacon
  extract_lets -lift -merge -useContext -underBinder +onlyGivenNames x0
  try clear_value x0
  extract_lets -lift -merge -useContext -underBinder +onlyGivenNames x1
  try clear_value x1
  extract_lets -lift -merge -useContext -underBinder +onlyGivenNames x2
  try clear_value x2
  extract_lets -lift -merge -useContext -underBinder +onlyGivenNames x3
  have h3 : Keeps State.applyBeacon_parts s0 x3.1 := by
    unfold x3
    refine Keeps.iteL ?_ ?_
    · refine Keeps.via (State.newF_keeps _ _ _) rfl ?_
      exact Keeps.refl _ _
    · dsimp -zeta only
      exact Keeps.refl _ _
  extract_lets -lift -merge -useContext -underBinder +onlyGivenNames x4 x5 x6
  have h4 : Keeps State.applyBeacon_parts s0 x4 := by
    unfold x4
    exact h3
  have h6 : Keeps State.applyBeacon_parts s0 x6 := by
    unfold x6
    refine Keeps.via (Keeps.upd_time _ _) rfl ?_
    exact h4
  extract_lets -lift -merge -useContext -underBinder +onlyGivenNames x7
  try clear_value x7
  extract_lets -lift -merge -useContext -underBinder +onlyGivenNames x8 x9
  have h9 : Keeps State.applyBeacon_parts s0 x9 := by
    unfold x9
    refine Keeps.via (Keeps.upd_time _ _) rfl ?_
    exact h6
  extract_lets -lift -merge -useContext -underBinder +onlyGivenNames x10
  have h10 : Keeps State.applyBeacon_parts s0 x10 := by
    unfold x10
    refine Keeps.via (State.setReg_keeps _ _ _) rfl ?_
    refine Keeps.via (State.bump_keeps _ _ _) rfl ?_
    exact h9
  extract_lets -lift -merge -useContext -underBinder +onlyGivenNames x11 x12 x13 x14 x15
  have h12 : Keeps State.applyBeacon_parts s0 x12 := by
    unfold x12
    refine Keeps.via (Keeps.upd_time _ _) rfl ?_
    exact h10
  have h14 : Keeps State.applyBeacon_parts s0 x14 := by
    unfold x14
    refine Keeps.via (Keeps.upd_time _ _) rfl ?_
    exact h10
  have h15 : Keeps State.applyBeacon_parts s0 x15 := by
    unfold x15
    refine Keeps.ite ?_ ?_
    · refine Keeps.via (State.event_keeps _ _ _) rfl ?_
      refine Keeps.via (State.bump_keeps _ _ _) rfl ?_
      exact h12
    · refine Keeps.ite ?_ ?_
      · refine Keeps.via (State.event_keeps _ _ _) rfl ?_
        exact h14
      · exact h14
  extract_lets -lift -merge -useContext -underBinder +onlyGivenNames x16
  have h16 : Keeps State.applyBeacon_parts s0 x16 := by
    unfold x16
    split
    · refine Keeps.via (State.event_keeps _ _ _) rfl ?_
      exact h15
    · exact h15
  refine Keeps.via (Keeps.upd_time _ _) rfl ?_
  exact h16

def execTimeBeacon_parts : List Part := [.free, .time, .log, .sb, .reg Reg.GLB_EVENT, .reg Reg.GLB_DIRSTAT, .reg Reg.TIM_STAT, .reg Reg.TIM_LASTERR, .reg Reg.TIM_BEACONS, .reg Reg.TIM_BEACONIGN, .reg Reg.TIM_STEPS, .reg Reg.LOG_RINGSTAT, .reg Reg.LOG_CAPTURED, .reg Reg.LOG_COALESCED, .reg Reg.LOG_LOST, .reg Reg.LOG_ORPHANS, .reg Reg.LOG_SQUALLS]

theorem execTimeBeacon_keeps (p : Port) (sync : Bool) (offsetEpoch : BitVec 16) (timeNs : BitVec 64) (s0 : State) :
    KeepsOut execTimeBeacon_parts s0 (execTimeBeacon p sync offsetEpoch timeNs s0) := by
  unfold execTimeBeacon
  refine KeepsOut.next ?_
  refine Keeps.ite ?_ ?_
  · exact Keeps.refl _ _
  · refine Keeps.ite ?_ ?_
    · refine Keeps.via (State.bump_keeps _ _ _) rfl ?_
      exact Keeps.refl _ _
    · extract_lets -lift -merge -useContext -underBinder +onlyGivenNames x0 x1
      have h1 : Keeps execTimeBeacon_parts s0 x1 := by
        unfold x1
        refine Keeps.via (Keeps.upd_time _ _) rfl ?_
        exact Keeps.refl _ _
      extract_lets -lift -merge -useContext -underBinder +onlyGivenNames x2
      have h2 : Keeps execTimeBeacon_parts s0 x2 := by
        unfold x2
        refine Keeps.via (State.notePort_keeps _) rfl ?_
        exact h1
      refine Keeps.ite ?_ ?_
      · refine Keeps.via (State.bump_keeps _ _ _) rfl ?_
        exact h2
      · refine Keeps.ite ?_ ?_
        · split
          · refine Keeps.via (State.applyBeacon_keeps _ _ _ _) rfl ?_
            refine Keeps.via (Keeps.upd_time _ _) rfl ?_
            exact h2
          · refine Keeps.via (State.bump_keeps _ _ _) rfl ?_
            exact h2
        · refine Keeps.via (State.applyBeacon_keeps _ _ _ _) rfl ?_
          exact h2

def execHoldoverStart_parts : List Part := [.time, .log, .sb, .reg Reg.GLB_EVENT, .reg Reg.GLB_DIRSTAT, .reg Reg.TIM_STAT, .reg Reg.LOG_RINGSTAT, .reg Reg.LOG_CAPTURED, .reg Reg.LOG_COALESCED, .reg Reg.LOG_LOST, .reg Reg.LOG_ORPHANS, .reg Reg.LOG_SQUALLS]

theorem execHoldoverStart_keeps (s0 : State) :
    KeepsOut execHoldoverStart_parts s0 (execHoldoverStart s0) := by
  unfold execHoldoverStart
  refine KeepsOut.next ?_
  refine Keeps.ite ?_ ?_
  · extract_lets -lift -merge -useContext -underBinder +onlyGivenNames x0 x1
    have h1 : Keeps execHoldoverStart_parts s0 x1 := by
      unfold x1
      refine Keeps.via (Keeps.upd_time _ _) rfl ?_
      exact Keeps.refl _ _
    refine Keeps.via (State.event_keeps _ _ _) rfl ?_
    refine Keeps.via (State.notePort_keeps _) rfl ?_
    exact h1
  · exact Keeps.refl _ _

def execSyncInEdge_parts : List Part := [.time, .reg Reg.TIM_SYNCEDGES]

theorem execSyncInEdge_keeps (s0 : State) :
    KeepsOut execSyncInEdge_parts s0 (execSyncInEdge s0) := by
  unfold execSyncInEdge
  refine KeepsOut.next ?_
  refine Keeps.ite ?_ ?_
  · exact Keeps.refl _ _
  · refine Keeps.ite ?_ ?_
    · exact Keeps.refl _ _
    · refine Keeps.via (State.bump_keeps _ _ _) rfl ?_
      refine Keeps.via (Keeps.upd_time _ _) rfl ?_
      exact Keeps.refl _ _

def execEventCapture_parts : List Part := [.log, .sb, .reg Reg.GLB_EVENT, .reg Reg.GLB_DIRSTAT, .reg Reg.LOG_RINGSTAT, .reg Reg.LOG_CAPTURED, .reg Reg.LOG_COALESCED, .reg Reg.LOG_LOST, .reg Reg.LOG_ORPHANS, .reg Reg.LOG_SQUALLS]

theorem execEventCapture_keeps (code : BitVec 16) (data : Word) (s0 : State) :
    KeepsOut execEventCapture_parts s0 (execEventCapture code data s0) := by
  unfold execEventCapture
  refine KeepsOut.next ?_
  refine Keeps.via (State.capture_keeps _ _ _ _) rfl ?_
  exact Keeps.refl _ _

def State.summarise_parts : List Part := [.log, .reg Reg.LOG_RINGSTAT]

theorem State.summarise_keeps (s0 : State) :
    Keeps State.summarise_parts s0 (State.summarise s0) := by
  unfold State.summarise
  refine Keeps.foldl _ _ ?_ (fun t0 y0 h0 => ?_)
  · refine Keeps.via (Keeps.upd_log _ _) rfl ?_
    exact Keeps.refl _ _
  · refine Keeps.ite ?_ ?_
    · refine Keeps.via (State.pushEntry_keeps _ _) rfl ?_
      exact h0
    · refine Keeps.via (Keeps.upd_log _ _) rfl ?_
      exact h0

def execSquallWindowEnd_parts : List Part := [.log, .sb, .reg Reg.GLB_EVENT, .reg Reg.GLB_DIRSTAT, .reg Reg.LOG_RINGSTAT, .reg Reg.LOG_CAPTURED, .reg Reg.LOG_COALESCED, .reg Reg.LOG_LOST, .reg Reg.LOG_ORPHANS, .reg Reg.LOG_SQUALLS]

theorem execSquallWindowEnd_keeps (s0 : State) :
    KeepsOut execSquallWindowEnd_parts s0 (execSquallWindowEnd s0) := by
  unfold execSquallWindowEnd
  refine KeepsOut.next ?_
  refine Keeps.ite ?_ ?_
  · exact Keeps.refl _ _
  · extract_lets -lift -merge -useContext -underBinder +onlyGivenNames x0
    have h0 : Keeps execSquallWindowEnd_parts s0 x0 := by
      unfold x0
      refine Keeps.via (State.raiseIbi_keeps _) rfl ?_
      refine Keeps.via (State.freeRing_keeps _) rfl ?_
      refine Keeps.via (State.cutFar_keeps _) rfl ?_
      refine Keeps.via (State.summarise_keeps _) rfl ?_
      refine Keeps.via (State.freeRing_keeps _) rfl ?_
      exact Keeps.refl _ _
    refine Keeps.ite ?_ ?_
    · extract_lets -lift -merge -useContext -underBinder +onlyGivenNames x1
      try clear_value x1
      extract_lets -lift -merge -useContext -underBinder +onlyGivenNames x2
      have h2 : Keeps execSquallWindowEnd_parts s0 x2 := by
        unfold x2
        refine Keeps.via (State.event_keeps _ _ _) rfl ?_
        exact h0
      refine Keeps.via (Keeps.upd_log _ _) rfl ?_
      exact h2
    · exact h0

def State.kick_parts : List Part := [.boot]

theorem State.kick_keeps (s0 : State) :
    Keeps State.kick_parts s0 (State.kick s0) := by
  unfold State.kick
  refine Keeps.via (Keeps.upd_boot _ _) rfl ?_
  exact Keeps.refl _ _

def execSensorOvertemp_parts : List Part := [.log, .sb, .reg Reg.GLB_EVENT, .reg Reg.GLB_DIRSTAT, .reg Reg.LOG_RINGSTAT, .reg Reg.LOG_CAPTURED, .reg Reg.LOG_COALESCED, .reg Reg.LOG_LOST, .reg Reg.LOG_ORPHANS, .reg Reg.LOG_SQUALLS]

theorem execSensorOvertemp_keeps (sensor : Fin 8) (reading : Byte) (s0 : State) :
    KeepsOut execSensorOvertemp_parts s0 (execSensorOvertemp sensor reading s0) := by
  unfold execSensorOvertemp
  refine KeepsOut.next ?_
  refine Keeps.ite ?_ ?_
  · refine Keeps.via (State.event_keeps _ _ _) rfl ?_
    exact Keeps.refl _ _
  · exact Keeps.refl _ _

def execSensorCool_parts : List Part := [.log, .sb, .reg Reg.GLB_EVENT, .reg Reg.GLB_DIRSTAT, .reg Reg.LOG_RINGSTAT, .reg Reg.LOG_CAPTURED, .reg Reg.LOG_COALESCED, .reg Reg.LOG_LOST, .reg Reg.LOG_ORPHANS, .reg Reg.LOG_SQUALLS]

theorem execSensorCool_keeps (s0 : State) :
    KeepsOut execSensorCool_parts s0 (execSensorCool s0) := by
  unfold execSensorCool
  refine KeepsOut.next ?_
  refine Keeps.ite ?_ ?_
  · refine Keeps.via (State.event_keeps _ _ _) rfl ?_
    exact Keeps.refl _ _
  · exact Keeps.refl _ _

def State.setDyn_parts : List Part := [.sb]

theorem State.setDyn_keeps (s0 : State) (da : Option (BitVec 7)) :
    Keeps State.setDyn_parts s0 (State.setDyn s0 da) := by
  unfold State.setDyn
  refine Keeps.via (Keeps.upd_sb _ _) rfl ?_
  exact Keeps.refl _ _

def State.cccGives_parts : List Part := [.sb]

theorem State.cccGives_keeps (s0 : State) (l : List Byte) :
    Keeps State.cccGives_parts s0 (State.cccGives s0 l) := by
  unfold State.cccGives
  refine Keeps.ite ?_ ?_
  · refine Keeps.via (Keeps.upd_sb _ _) rfl ?_
    exact Keeps.refl _ _
  · exact Keeps.refl _ _

def execCccEntdaa_parts : List Part := [.sb]

theorem execCccEntdaa_keeps (da : BitVec 7) (s0 : State) :
    KeepsOut execCccEntdaa_parts s0 (execCccEntdaa da s0) := by
  unfold execCccEntdaa
  refine KeepsOut.next ?_
  refine Keeps.ite ?_ ?_
  · refine Keeps.via (State.raiseIbi_keeps _) rfl ?_
    refine Keeps.via (State.setDyn_keeps _ _) rfl ?_
    exact Keeps.refl _ _
  · exact Keeps.refl _ _

def execCccSetdasa_parts : List Part := [.sb]

theorem execCccSetdasa_keeps (da : BitVec 7) (s0 : State) :
    KeepsOut execCccSetdasa_parts s0 (execCccSetdasa da s0) := by
  unfold execCccSetdasa
  refine KeepsOut.next ?_
  refine Keeps.ite ?_ ?_
  · refine Keeps.via (State.raiseIbi_keeps _) rfl ?_
    refine Keeps.via (State.setDyn_keeps _ _) rfl ?_
    exact Keeps.refl _ _
  · exact Keeps.refl _ _

def execCccSetnewda_parts : List Part := [.sb]

theorem execCccSetnewda_keeps (da : BitVec 7) (s0 : State) :
    KeepsOut execCccSetnewda_parts s0 (execCccSetnewda da s0) := by
  unfold execCccSetnewda
  refine KeepsOut.next ?_
  refine Keeps.ite ?_ ?_
  · refine Keeps.via (State.setDyn_keeps _ _) rfl ?_
    exact Keeps.refl _ _
  · exact Keeps.refl _ _

def execCccRstdaa_parts : List Part := [.sb]

theorem execCccRstdaa_keeps (s0 : State) :
    KeepsOut execCccRstdaa_parts s0 (execCccRstdaa s0) := by
  unfold execCccRstdaa
  refine KeepsOut.next ?_
  refine Keeps.ite ?_ ?_
  · refine Keeps.via (State.setDyn_keeps _ _) rfl ?_
    exact Keeps.refl _ _
  · exact Keeps.refl _ _

def execCccEnec_parts : List Part := [.sb]

theorem execCccEnec_keeps (s0 : State) :
    KeepsOut execCccEnec_parts s0 (execCccEnec s0) := by
  unfold execCccEnec
  refine KeepsOut.next ?_
  refine Keeps.ite ?_ ?_
  · refine Keeps.via (State.raiseIbi_keeps _) rfl ?_
    refine Keeps.via (Keeps.upd_sb _ _) rfl ?_
    exact Keeps.refl _ _
  · exact Keeps.refl _ _

def execCccDisec_parts : List Part := [.sb]

theorem execCccDisec_keeps (s0 : State) :
    KeepsOut execCccDisec_parts s0 (execCccDisec s0) := by
  unfold execCccDisec
  refine KeepsOut.next ?_
  refine Keeps.ite ?_ ?_
  · refine Keeps.via (Keeps.upd_sb _ _) rfl ?_
    exact Keeps.refl _ _
  · exact Keeps.refl _ _

def execCccGetpid_parts : List Part := [.sb]

theorem execCccGetpid_keeps (s0 : State) :
    KeepsOut execCccGetpid_parts s0 (execCccGetpid s0) := by
  unfold execCccGetpid
  refine KeepsOut.next ?_
  refine Keeps.via (State.cccGives_keeps _ _) rfl ?_
  exact Keeps.refl _ _

def execCccGetbcr_parts : List Part := [.sb]

theorem execCccGetbcr_keeps (s0 : State) :
    KeepsOut execCccGetbcr_parts s0 (execCccGetbcr s0) := by
  unfold execCccGetbcr
  refine KeepsOut.next ?_
  refine Keeps.via (State.cccGives_keeps _ _) rfl ?_
  exact Keeps.refl _ _

def execCccGetdcr_parts : List Part := [.sb]

theorem execCccGetdcr_keeps (s0 : State) :
    KeepsOut execCccGetdcr_parts s0 (execCccGetdcr s0) := by
  unfold execCccGetdcr
  refine KeepsOut.next ?_
  refine Keeps.via (State.cccGives_keeps _ _) rfl ?_
  exact Keeps.refl _ _

def execCccGetstatus_parts : List Part := [.free, .sb]

theorem execCccGetstatus_keeps (s0 : State) :
    KeepsOut execCccGetstatus_parts s0 (execCccGetstatus s0) := by
  unfold execCccGetstatus
  refine KeepsOut.next ?_
  extract_lets -lift -merge -useContext -underBinder +onlyGivenNames x0
  have h0 : Keeps execCccGetstatus_parts s0 x0.2 := by
    unfold x0
    refine Keeps.via (State.draw_keeps _) rfl ?_
    exact Keeps.refl _ _
  extract_lets -lift -merge -useContext -underBinder +onlyGivenNames x1
  have h1 : Keeps execCccGetstatus_parts s0 x1.2 := by
    unfold x1
    refine Keeps.via (State.draw_keeps _) rfl ?_
    exact h0
  refine Keeps.via (State.cccGives_keeps _ _) rfl ?_
  exact h1

def execCccGetmwl_parts : List Part := [.sb]

theorem execCccGetmwl_keeps (s0 : State) :
    KeepsOut execCccGetmwl_parts s0 (execCccGetmwl s0) := by
  unfold execCccGetmwl
  refine KeepsOut.next ?_
  refine Keeps.via (State.cccGives_keeps _ _) rfl ?_
  exact Keeps.refl _ _

def execCccGetmrl_parts : List Part := [.sb]

theorem execCccGetmrl_keeps (s0 : State) :
    KeepsOut execCccGetmrl_parts s0 (execCccGetmrl s0) := by
  unfold execCccGetmrl
  refine KeepsOut.next ?_
  refine Keeps.via (State.cccGives_keeps _ _) rfl ?_
  exact Keeps.refl _ _

def execCccSetmwl_parts : List Part := [.sb]

theorem execCccSetmwl_keeps (len : BitVec 16) (s0 : State) :
    KeepsOut execCccSetmwl_parts s0 (execCccSetmwl len s0) := by
  unfold execCccSetmwl
  refine KeepsOut.next ?_
  refine Keeps.ite ?_ ?_
  · refine Keeps.via (Keeps.upd_sb _ _) rfl ?_
    exact Keeps.refl _ _
  · exact Keeps.refl _ _

def execCccSetmrl_parts : List Part := [.sb]

theorem execCccSetmrl_keeps (len : BitVec 16) (s0 : State) :
    KeepsOut execCccSetmrl_parts s0 (execCccSetmrl len s0) := by
  unfold execCccSetmrl
  refine KeepsOut.next ?_
  refine Keeps.ite ?_ ?_
  · refine Keeps.via (Keeps.upd_sb _ _) rfl ?_
    exact Keeps.refl _ _
  · exact Keeps.refl _ _

def execCccRstact_parts : List Part := [.sb]

theorem execCccRstact_keeps (action : Byte) (s0 : State) :
    KeepsOut execCccRstact_parts s0 (execCccRstact action s0) := by
  unfold execCccRstact
  refine KeepsOut.next ?_
  refine Keeps.ite ?_ ?_
  · refine Keeps.via (Keeps.upd_sb _ _) rfl ?_
    exact Keeps.refl _ _
  · exact Keeps.refl _ _

def execSmbusTimeout_parts : List Part := [.sb]

theorem execSmbusTimeout_keeps (s0 : State) :
    KeepsOut execSmbusTimeout_parts s0 (execSmbusTimeout s0) := by
  unfold execSmbusTimeout
  refine KeepsOut.next ?_
  refine Keeps.ite ?_ ?_
  · refine Keeps.via (Keeps.upd_sb _ _) rfl ?_
    exact Keeps.refl _ _
  · exact Keeps.refl _ _

end Sys2Proof.Machine
end

