-- ==== Sys2Proof/Laws/KeepsAccess.lean ====
section
/-!
SUPPORT. The frames of the operations of Machine/Access.lean: the parts of the state each may change, and that each keeps the canonical
form. A proof of a frame cites these and unfolds nothing.
-/

namespace Sys2Proof.Machine

def State.noteAcc_parts : List Part := [.reg Reg.GLB_EVENT, .reg Reg.GLB_ACCERR, .reg Reg.GLB_ACCCNT]

theorem State.noteAcc_keeps (s0 : State) (path : AccPath) (status : Byte) (a : ℕ) :
    Keeps State.noteAcc_parts s0 (State.noteAcc s0 path status a) := by
  unfold State.noteAcc
  extract_lets -lift -merge -useContext -underBinder +onlyGivenNames x0
  have h0 : Keeps State.noteAcc_parts s0 x0 := by
    unfold x0
    refine Keeps.via (State.setReg_keeps _ _ _) rfl ?_
    exact Keeps.refl _ _
  refine Keeps.via (State.setFld_keeps _ _ _) rfl ?_
  refine Keeps.via (State.bump_keeps _ _ _) rfl ?_
  exact h0

def State.takeSb_parts : List Part := [.log, .sb, .block 0xD]

theorem State.takeSb_keeps (s0 : State) :
    Keeps State.takeSb_parts s0 (State.takeSb s0) := by
  unfold State.takeSb
  extract_lets -lift -merge -useContext -underBinder +onlyGivenNames x0
  have h0 : ∀ q0 z1 z2, Keeps State.takeSb_parts q0 (x0 q0 z1 z2) := by
    intro q0 z1 z2
    unfold x0
    refine Keeps.foldS _ _ ?_ (fun t1 y1 h1 => ?_)
    · refine Keeps.via (State.setReg_keeps _ _ _) rfl ?_
      exact Keeps.refl _ _
    · refine Keeps.viaBlock (b := 13) (State.setReg_keeps _ _ _) (fam_block _ _ _ _ rfl (by decide)) rfl ?_
      exact h1
  extract_lets -lift -merge -useContext -underBinder +onlyGivenNames x2
  try clear_value x2
  extract_lets -lift -merge -useContext -underBinder +onlyGivenNames x3
  have h3 : Keeps State.takeSb_parts s0 x3 := by
    unfold x3
    split
    · refine Keeps.trans ?_ (h0 _ _ _)
      refine Keeps.via (Keeps.upd_log _ _) rfl ?_
      exact Keeps.refl _ _
    · refine Keeps.trans ?_ (h0 _ _ _)
      exact Keeps.refl _ _
  refine Keeps.via (State.raiseIbi_keeps _) rfl ?_
  refine Keeps.via (State.freeRing_keeps _) rfl ?_
  refine Keeps.via (Keeps.upd_sb _ _) rfl ?_
  exact h3

def State.captureRead_parts : List Part := [.log, .sb, .cal, .reg Reg.ORD_STRREC1, .reg Reg.ORD_STRREC2, .reg Reg.ORD_STRREC3, .reg Reg.ORD_FRONT_HI, .reg Reg.ECC_FIRSTFAIL, .reg Reg.PWR_SNAPSTAMP_HI, .reg Reg.MGT_DIEID_HI, .reg Reg.TIM_NOW_HI, .reg Reg.TIM_WALL_LO, .reg Reg.TIM_WALL_HI, .reg Reg.TIM_OFFSET_HI, .block 0xD]

theorem State.captureRead_keeps (s0 : State) (a : ℕ) :
    Keeps State.captureRead_parts s0 (State.captureRead s0 a) := by
  unfold State.captureRead
  refine Keeps.ite ?_ ?_
  · extract_lets -lift -merge -useContext -underBinder +onlyGivenNames x0
    try clear_value x0
    refine Keeps.via (State.setReg_keeps _ _ _) rfl ?_
    refine Keeps.via (State.setReg_keeps _ _ _) rfl ?_
    refine Keeps.via (State.setReg_keeps _ _ _) rfl ?_
    exact Keeps.refl _ _
  · refine Keeps.ite ?_ ?_
    · refine Keeps.via (State.setReg_keeps _ _ _) rfl ?_
      exact Keeps.refl _ _
    · refine Keeps.ite ?_ ?_
      · refine Keeps.via (State.setReg_keeps _ _ _) rfl ?_
        refine Keeps.via (State.setReg_keeps _ _ _) rfl ?_
        refine Keeps.via (State.setReg_keeps _ _ _) rfl ?_
        exact Keeps.refl _ _
      · refine Keeps.ite ?_ ?_
        · refine Keeps.via (State.setReg_keeps _ _ _) rfl ?_
          exact Keeps.refl _ _
        · refine Keeps.ite ?_ ?_
          · refine Keeps.via (State.setReg_keeps _ _ _) rfl ?_
            exact Keeps.refl _ _
          · refine Keeps.ite ?_ ?_
            · refine Keeps.via (State.setReg_keeps _ _ _) rfl ?_
              exact Keeps.refl _ _
            · refine Keeps.ite ?_ ?_
              · extract_lets -lift -merge -useContext -underBinder +onlyGivenNames x1
                try clear_value x1
                refine Keeps.via (Keeps.upd_cal _ _) rfl ?_
                exact Keeps.refl _ _
              · refine Keeps.ite ?_ ?_
                · refine Keeps.via (State.setReg_keeps _ _ _) rfl ?_
                  exact Keeps.refl _ _
                · refine Keeps.ite ?_ ?_
                  · refine Keeps.via (State.takeSb_keeps _) rfl ?_
                    exact Keeps.refl _ _
                  · exact Keeps.refl _ _

def State.restartHigh_parts : List Part := [.reg Reg.ORD_POOLOCC, .reg Reg.ORD_WBOCC, .reg Reg.ORD_RBOCC, .reg Reg.MIR_PENDOCC, .block 0x5, .reg Reg.LOG_RINGSTAT]

theorem State.restartHigh_keeps (s0 : State) (a : ℕ) :
    Keeps State.restartHigh_parts s0 (State.restartHigh s0 a) := by
  unfold State.restartHigh
  refine Keeps.ite ?_ ?_
  · refine Keeps.via (State.setFld_keeps _ _ _) rfl ?_
    exact Keeps.refl _ _
  · refine Keeps.ite ?_ ?_
    · refine Keeps.via (State.setFld_keeps _ _ _) rfl ?_
      exact Keeps.refl _ _
    · refine Keeps.ite ?_ ?_
      · refine Keeps.via (State.setFld_keeps _ _ _) rfl ?_
        exact Keeps.refl _ _
      · refine Keeps.ite ?_ ?_
        · refine Keeps.via (State.setFld_keeps _ _ _) rfl ?_
          exact Keeps.refl _ _
        · refine Keeps.ite ?_ ?_
          · refine Keeps.via (State.setFld_keeps _ _ _) rfl ?_
            exact Keeps.refl _ _
          · refine Keeps.ite ?_ ?_
            · extract_lets -lift -merge -useContext -underBinder +onlyGivenNames x0
              try clear_value x0
              refine Keeps.viaBlock (b := 5) (State.setFld_keeps _ _ _) (fam_block _ _ _ _ rfl (by decide)) rfl ?_
              exact Keeps.refl _ _
            · exact Keeps.refl _ _

def State.clearRead_parts : List Part := [.regs]

theorem State.clearRead_keeps (s0 : State) (a : ℕ) :
    Keeps State.clearRead_parts s0 (State.clearRead s0 a) := by
  unfold State.clearRead
  split
  · refine Keeps.ite ?_ ?_
    · exact Keeps.refl _ _
    · refine Keeps.via (State.restartHigh_keeps _ _) rfl ?_
      refine Keeps.viaReg (State.setReg_keeps _ _ _) rfl ?_
      exact Keeps.refl _ _
  · exact Keeps.refl _ _

def State.readLive_parts : List Part := [.free, .log, .sb, .cal, .regs]

theorem State.readLive_keeps (s0 : State) (a : ℕ) :
    Keeps State.readLive_parts s0 (State.readLive s0 a).1 := by
  unfold State.readLive
  refine Keeps.iteL ?_ ?_
  · dsimp -zeta only
    refine Keeps.via (State.draw_keeps _) rfl ?_
    exact Keeps.refl _ _
  · extract_lets -lift -merge -useContext -underBinder +onlyGivenNames x0
    have h0 : Keeps State.readLive_parts s0 x0 := by
      unfold x0
      refine Keeps.via (State.captureRead_keeps _ _) rfl ?_
      exact Keeps.refl _ _
    dsimp -zeta only
    refine Keeps.via (State.clearRead_keeps _ _) rfl ?_
    exact h0

def State.readReg_parts : List Part := [.free, .log, .sb, .cal, .regs]

theorem State.readReg_keeps (s0 : State) (path : AccPath) (a : ℕ) :
    Keeps State.readReg_parts s0 (State.readReg s0 path a).1 := by
  unfold State.readReg
  extract_lets -lift -merge -useContext -underBinder +onlyGivenNames x0
  try clear_value x0
  refine Keeps.iteL ?_ ?_
  · extract_lets -lift -merge -useContext -underBinder +onlyGivenNames x1
    have h1 : Keeps State.readReg_parts s0 x1.1 := by
      unfold x1
      refine Keeps.via (State.readLive_keeps _ _) rfl ?_
      exact Keeps.refl _ _
    dsimp -zeta only
    exact h1
  · dsimp -zeta only
    refine Keeps.via (State.noteAcc_keeps _ _ _ _) rfl ?_
    exact Keeps.refl _ _

def State.startFlash_parts : List Part := [.boot, .reg Reg.MGT_FLCMD]

theorem State.startFlash_keeps (s0 : State) :
    Keeps State.startFlash_parts s0 (State.startFlash s0) := by
  unfold State.startFlash
  extract_lets -lift -merge -useContext -underBinder +onlyGivenNames x0
  try clear_value x0
  refine Keeps.ite ?_ ?_
  · refine Keeps.via (State.setFld_keeps _ _ _) rfl ?_
    exact Keeps.refl _ _
  · refine Keeps.ite ?_ ?_
    · refine Keeps.via (State.setFld_keeps _ _ _) rfl ?_
      exact Keeps.refl _ _
    · refine Keeps.ite ?_ ?_
      · refine Keeps.via (State.setFld_keeps _ _ _) rfl ?_
        exact Keeps.refl _ _
      · refine Keeps.via (State.setFld_keeps _ _ _) rfl ?_
        refine Keeps.via (Keeps.upd_boot _ _) rfl ?_
        exact Keeps.refl _ _

def State.endFlash_parts : List Part := [.boot, .reg Reg.MGT_FLCMD]

theorem State.endFlash_keeps (s0 : State) (result : ℕ) :
    Keeps State.endFlash_parts s0 (State.endFlash s0 result) := by
  unfold State.endFlash
  refine Keeps.via (State.setFld_keeps _ _ _) rfl ?_
  refine Keeps.via (State.setFld_keeps _ _ _) rfl ?_
  refine Keeps.via (Keeps.upd_boot _ _) rfl ?_
  exact Keeps.refl _ _

def State.flashFetch_parts : List Part := [.block 0xB]

theorem State.flashFetch_keeps (s0 : State) (a : ℕ) :
    Keeps State.flashFetch_parts s0 (State.flashFetch s0 a) := by
  unfold State.flashFetch
  refine Keeps.foldS _ _ ?_ (fun t0 y0 h0 => ?_)
  · exact Keeps.refl _ _
  · refine Keeps.viaBlock (b := 11) (State.setReg_keeps _ _ _) (fam_block _ _ _ _ rfl (by decide)) rfl ?_
    exact h0

def State.spoil_parts : List Part := [.free, .flash]

theorem State.spoil_keeps (s0 : State) (a : ℕ) (a2 : ℕ) :
    Keeps State.spoil_parts s0 (State.spoil s0 a a2) := by
  induction a2 generalizing s0 a with
  | zero =>
    rw [State.spoil.eq_1]
    exact Keeps.refl _ _
  | succ _ ih =>
    rw [State.spoil.eq_2]
    refine Keeps.via (State.program_keeps _ _ _) rfl ?_
    refine Keeps.via (State.draw_keeps _) rfl ?_
    refine Keeps.trans ?_ (ih _ _)
    exact Keeps.refl _ _

def State.flashWrite_parts : List Part := [.free, .boot, .flash, .reg Reg.MGT_FLCMD]

theorem State.flashWrite_keeps (s0 : State) (a : ℕ) (ok : Bool) :
    Keeps State.flashWrite_parts s0 (State.flashWrite s0 a ok) := by
  unfold State.flashWrite
  refine Keeps.ite ?_ ?_
  · refine Keeps.via (State.endFlash_keeps _ _) rfl ?_
    exact Keeps.refl _ _
  · refine Keeps.ite ?_ ?_
    · refine Keeps.via (State.endFlash_keeps _ _) rfl ?_
      refine Keeps.via (State.program_keeps _ _ _) rfl ?_
      exact Keeps.refl _ _
    · extract_lets -lift -merge -useContext -underBinder +onlyGivenNames x0
      try clear_value x0
      extract_lets -lift -merge -useContext -underBinder +onlyGivenNames x1
      have h1 : Keeps State.flashWrite_parts s0 x1 := by
        unfold x1
        refine Keeps.foldS _ _ ?_ (fun t2 y2 h2 => ?_)
        · exact Keeps.refl _ _
        · extract_lets -lift -merge -useContext -underBinder +onlyGivenNames x3
          have h3 : Keeps State.flashWrite_parts s0 x3.2 := by
            unfold x3
            refine Keeps.via (State.draw_keeps _) rfl ?_
            exact h2
          refine Keeps.via (State.program_keeps _ _ _) rfl ?_
          exact h3
      refine Keeps.via (State.endFlash_keeps _ _) rfl ?_
      exact h1

def State.halfErase_parts : List Part := [.free, .flash]

theorem State.halfErase_keeps (s0 : State) (a : ℕ) :
    Keeps State.halfErase_parts s0 (State.halfErase s0 a) := by
  unfold State.halfErase
  refine Keeps.via (State.spoil_keeps _ _ _) rfl ?_
  refine Keeps.via (State.eraseSector_keeps _ _) rfl ?_
  exact Keeps.refl _ _

def State.setPref_parts : List Part := [.free, .flash]

theorem State.setPref_keeps (s0 : State) (slot : ℕ) :
    Keeps State.setPref_parts s0 (State.setPref s0 slot) := by
  unfold State.setPref
  extract_lets -lift -merge -useContext -underBinder +onlyGivenNames x0
  try clear_value x0
  split
  · refine Keeps.via (State.tidyDir_keeps _) rfl ?_
    refine Keeps.via (State.appendDir_keeps _ _) rfl ?_
    exact Keeps.refl _ _
  · extract_lets -lift -merge -useContext -underBinder +onlyGivenNames x1
    have h1 : Keeps State.setPref_parts s0 x1.2 := by
      unfold x1
      refine Keeps.via (State.draw_keeps _) rfl ?_
      exact Keeps.refl _ _
    extract_lets -lift -merge -useContext -underBinder +onlyGivenNames x2
    try clear_value x2
    refine Keeps.via (State.tidyDir_keeps _) rfl ?_
    refine Keeps.via (State.appendDir_keeps _ _) rfl ?_
    exact h1

def execFlashCommandDone_parts : List Part := [.free, .boot, .flash, .block 0xB]

theorem execFlashCommandDone_keeps (ok : Bool) (s0 : State) :
    KeepsOut execFlashCommandDone_parts s0 (execFlashCommandDone ok s0) := by
  unfold execFlashCommandDone
  refine KeepsOut.next ?_
  split
  · exact Keeps.refl _ _
  · extract_lets -lift -merge -useContext -underBinder +onlyGivenNames x0
    try clear_value x0
    refine Keeps.ite ?_ ?_
    · refine Keeps.via (State.endFlash_keeps _ _) rfl ?_
      exact Keeps.refl _ _
    · refine Keeps.ite ?_ ?_
      · exact Keeps.refl _ _
      · refine Keeps.ite ?_ ?_
        · refine Keeps.via (State.endFlash_keeps _ _) rfl ?_
          exact Keeps.refl _ _
        · split
          · refine Keeps.ite ?_ ?_
            · refine Keeps.via (State.endFlash_keeps _ _) rfl ?_
              refine Keeps.via (State.flashFetch_keeps _ _) rfl ?_
              exact Keeps.refl _ _
            · refine Keeps.via (State.endFlash_keeps _ _) rfl ?_
              exact Keeps.refl _ _
          · refine Keeps.via (State.flashWrite_keeps _ _ _) rfl ?_
            exact Keeps.refl _ _
          · refine Keeps.ite ?_ ?_
            · refine Keeps.via (State.endFlash_keeps _ _) rfl ?_
              refine Keeps.via (State.eraseSector_keeps _ _) rfl ?_
              exact Keeps.refl _ _
            · refine Keeps.via (State.endFlash_keeps _ _) rfl ?_
              refine Keeps.via (State.halfErase_keeps _ _) rfl ?_
              exact Keeps.refl _ _
          · refine Keeps.ite ?_ ?_
            · refine Keeps.via (State.endFlash_keeps _ _) rfl ?_
              refine Keeps.via (State.setPref_keeps _ _) rfl ?_
              exact Keeps.refl _ _
            · refine Keeps.via (State.endFlash_keeps _ _) rfl ?_
              exact Keeps.refl _ _

def State.startCipher_parts : List Part := [.boot, .reg Reg.MGT_CIPHCTL]

theorem State.startCipher_keeps (s0 : State) :
    Keeps State.startCipher_parts s0 (State.startCipher s0) := by
  unfold State.startCipher
  extract_lets -lift -merge -useContext -underBinder +onlyGivenNames x0
  try clear_value x0
  extract_lets -lift -merge -useContext -underBinder +onlyGivenNames x1
  try clear_value x1
  extract_lets -lift -merge -useContext -underBinder +onlyGivenNames x2
  try clear_value x2
  refine Keeps.ite ?_ ?_
  · refine Keeps.via (State.setFld_keeps _ _ _) rfl ?_
    refine Keeps.via (State.setFld_keeps _ _ _) rfl ?_
    exact Keeps.refl _ _
  · extract_lets -lift -merge -useContext -underBinder +onlyGivenNames x3
    try clear_value x3
    extract_lets -lift -merge -useContext -underBinder +onlyGivenNames x4
    try clear_value x4
    extract_lets -lift -merge -useContext -underBinder +onlyGivenNames x5 x6
    have h6 : Keeps State.startCipher_parts s0 x6 := by
      unfold x6
      refine Keeps.via (Keeps.upd_boot _ _) rfl ?_
      exact Keeps.refl _ _
    refine Keeps.via (State.setFld_keeps _ _ _) rfl ?_
    refine Keeps.via (State.setFld_keeps _ _ _) rfl ?_
    exact h6

def execCipherDone_parts : List Part := [.boot, .block 0xB]

theorem execCipherDone_keeps (s0 : State) :
    KeepsOut execCipherDone_parts s0 (execCipherDone s0) := by
  unfold execCipherDone
  refine KeepsOut.next ?_
  split
  · exact Keeps.refl _ _
  · extract_lets -lift -merge -useContext -underBinder +onlyGivenNames x0 x1
    have h1 : Keeps execCipherDone_parts s0 x1 := by
      unfold x1
      refine Keeps.via (Keeps.upd_boot _ _) rfl ?_
      exact Keeps.refl _ _
    extract_lets -lift -merge -useContext -underBinder +onlyGivenNames x2
    have h2 : Keeps execCipherDone_parts s0 x2 := by
      unfold x2
      refine Keeps.via (State.setFld_keeps _ _ _) rfl ?_
      refine Keeps.via (State.setFld_keeps _ _ _) rfl ?_
      exact h1
    refine Keeps.ite ?_ ?_
    · refine Keeps.foldS _ _ ?_ (fun t3 y3 h3 => ?_)
      · exact h2
      · refine Keeps.viaBlock (b := 11) (State.setReg_keeps _ _ _) (fam_block _ _ _ _ rfl (by decide)) rfl ?_
        exact h3
    · refine Keeps.via (Keeps.upd_boot _ _) rfl ?_
      exact h2

def State.writeMargin_parts : List Part := [.links, .block 0x1]

theorem State.writeMargin_keeps (s0 : State) (n : ℕ) (w : Word) :
    Keeps State.writeMargin_parts s0 (State.writeMargin s0 n w) := by
  unfold State.writeMargin
  extract_lets -lift -merge -useContext -underBinder +onlyGivenNames x0
  try clear_value x0
  refine Keeps.ite ?_ ?_
  · refine Keeps.via (State.marginGo_keeps _ _ _) rfl ?_
    exact Keeps.refl _ _
  · refine Keeps.viaBlock (b := 1) (State.setReg_keeps _ _ _) (fam_block _ _ _ _ rfl (by decide)) rfl ?_
    exact Keeps.refl _ _

def State.writeEffect_parts : List Part := [.rx, .free, .top, .log, .sb, .links, .twin, .ord, .map, .mir, .sch, .flt, .cal, .pwr, .boot, .reg Reg.GLB_HUBID, .reg Reg.GLB_EVENT, .reg Reg.GLB_BOOTREL, .reg Reg.GLB_FAULTREL, .reg Reg.GLB_DIRSTAT, .reg Reg.GLB_QUIESCE, .block 0x1, .reg Reg.ORD_FWD, .reg Reg.ORD_LINEHOLD, .reg Reg.ORD_FLUSHES, .reg Reg.ORD_STRREC1, .reg Reg.ORD_STRREC2, .reg Reg.ORD_STRREC3, .reg Reg.MIR_CAUSE, .reg Reg.MIR_PENDOCC, .reg Reg.MIR_FWDMISS, .reg Reg.MIR_HOSTAT, .reg Reg.MIR_HOCNT, .reg Reg.DPH_RETSTAT, .reg Reg.CAL_RECSEL, .reg Reg.ECC_SEALFAIL, .reg Reg.ECC_FIRSTFAIL, .reg Reg.ECC_REPAIR, .reg Reg.PWR_FEEDSTAT, .reg Reg.MGT_BOOTSTAT, .reg Reg.MGT_FLCMD, .reg Reg.MGT_CIPHCTL, .reg Reg.LOG_RINGSTAT, .reg Reg.LOG_CAPTURED, .reg Reg.LOG_COALESCED, .reg Reg.LOG_LOST, .reg Reg.LOG_ORPHANS, .reg Reg.LOG_SQUALLS]

theorem State.writeEffect_keeps (s0 : State) (a : ℕ) :
    Keeps State.writeEffect_parts s0 (State.writeEffect s0 a).1 := by
  unfold State.writeEffect
  refine Keeps.iteL ?_ ?_
  · refine Keeps.iteL ?_ ?_
    · refine Keeps.via (State.bootRel_keeps _) rfl ?_
      exact Keeps.refl _ _
    · dsimp -zeta only
      exact Keeps.refl _ _
  · refine Keeps.iteL ?_ ?_
    · refine Keeps.iteL ?_ ?_
      · refine Keeps.via (State.faultRel_keeps _) rfl ?_
        exact Keeps.refl _ _
      · dsimp -zeta only
        exact Keeps.refl _ _
    · refine Keeps.iteL ?_ ?_
      · dsimp -zeta only
        refine Keeps.via (State.setReg_keeps _ _ _) rfl ?_
        refine Keeps.via (State.setReg_keeps _ _ _) rfl ?_
        refine Keeps.via (State.setReg_keeps _ _ _) rfl ?_
        exact Keeps.refl _ _
      · refine Keeps.iteL ?_ ?_
        · dsimp -zeta only
          refine Keeps.via (Keeps.upd_cal _ _) rfl ?_
          exact Keeps.refl _ _
        · refine Keeps.iteL ?_ ?_
          · extract_lets -lift -merge -useContext -underBinder +onlyGivenNames x0 x1
            have h1 : Keeps State.writeEffect_parts s0 x1 := by
              unfold x1
              refine Keeps.via (State.setFld_keeps _ _ _) rfl ?_
              refine Keeps.via (Keeps.upd_cal _ _) rfl ?_
              exact Keeps.refl _ _
            dsimp -zeta only
            refine Keeps.ite ?_ ?_
            · refine Keeps.foldS _ _ ?_ (fun t2 y2 h2 => ?_)
              · exact h1
              · refine Keeps.via (State.reserveAsk_keeps _ _) rfl ?_
                exact h2
            · exact h1
          · refine Keeps.iteL ?_ ?_
            · dsimp -zeta only
              refine Keeps.via (State.startFlash_keeps _) rfl ?_
              exact Keeps.refl _ _
            · refine Keeps.iteL ?_ ?_
              · dsimp -zeta only
                refine Keeps.ite ?_ ?_
                · refine Keeps.via (State.startCipher_keeps _) rfl ?_
                  exact Keeps.refl _ _
                · exact Keeps.refl _ _
              · refine Keeps.iteL ?_ ?_
                · dsimp -zeta only
                  refine Keeps.via (State.raiseIbi_keeps _) rfl ?_
                  exact Keeps.refl _ _
                · dsimp -zeta only
                  exact Keeps.refl _ _

def State.putReg_parts : List Part := [.rx, .free, .top, .log, .sb, .links, .twin, .ord, .map, .mir, .sch, .flt, .cal, .pwr, .boot, .regs]

theorem State.putReg_keeps (s0 : State) (a : ℕ) (w : Word) (eff : Word) (w1c : Word) :
    Keeps State.putReg_parts s0 (State.putReg s0 a w eff w1c).1 := by
  unfold State.putReg
  refine Keeps.iteL ?_ ?_
  · dsimp -zeta only
    refine Keeps.via (State.kick_keeps _) rfl ?_
    exact Keeps.refl _ _
  · refine Keeps.iteL ?_ ?_
    · dsimp -zeta only
      refine Keeps.via (State.writeMargin_keeps _ _ _) rfl ?_
      exact Keeps.refl _ _
    · refine Keeps.iteL ?_ ?_
      · dsimp -zeta only
        exact Keeps.refl _ _
      · refine Keeps.iteL ?_ ?_
        · dsimp -zeta only
          refine Keeps.viaReg (State.setReg_keeps _ _ _) rfl ?_
          exact Keeps.refl _ _
        · refine Keeps.via (State.writeEffect_keeps _ _) rfl ?_
          refine Keeps.viaReg (State.setReg_keeps _ _ _) rfl ?_
          exact Keeps.refl _ _

def State.writeReg_parts : List Part := [.rx, .free, .top, .log, .sb, .links, .twin, .ord, .map, .mir, .sch, .flt, .cal, .pwr, .boot, .regs]

theorem State.writeReg_keeps (s0 : State) (path : AccPath) (a : ℕ) (w : Word) :
    Keeps State.writeReg_parts s0 (State.writeReg s0 path a w).1 := by
  unfold State.writeReg
  extract_lets -lift -merge -useContext -underBinder +onlyGivenNames x0
  try clear_value x0
  refine Keeps.iteL ?_ ?_
  · dsimp -zeta only
    refine Keeps.via (State.noteAcc_keeps _ _ _ _) rfl ?_
    exact Keeps.refl _ _
  · split
    · dsimp -zeta only
      exact Keeps.refl _ _
    · extract_lets -lift -merge -useContext -underBinder +onlyGivenNames x1
      try clear_value x1
      extract_lets -lift -merge -useContext -underBinder +onlyGivenNames x2
      have h2 : Keeps State.writeReg_parts s0 x2.1 := by
        unfold x2
        refine Keeps.via (State.putReg_keeps _ _ _ _ _) rfl ?_
        exact Keeps.refl _ _
      refine Keeps.iteL ?_ ?_
      · dsimp -zeta only
        refine Keeps.via (State.noteAcc_keeps _ _ _ _) rfl ?_
        exact h2
      · dsimp -zeta only
        exact h2

def State.answerMgt_parts : List Part := [.links]

theorem State.answerMgt_keeps (s0 : State) (p : Port) (mtag : BitVec 4) (status : Byte) (data : Word) :
    Keeps State.answerMgt_parts s0 (State.answerMgt s0 p mtag status data) := by
  unfold State.answerMgt
  refine Keeps.via (State.send_keeps _ _ _) rfl ?_
  exact Keeps.refl _ _

def State.answerSb_parts : List Part := [.sb]

theorem State.answerSb_keeps (s0 : State) (b : List Byte) :
    Keeps State.answerSb_parts s0 (State.answerSb s0 b) := by
  unfold State.answerSb
  refine Keeps.via (Keeps.upd_sb _ _) rfl ?_
  exact Keeps.refl _ _

def State.sbWords_parts : List Part := [.free, .log, .sb, .cal, .regs]

theorem State.sbWords_keeps (a : ℕ) (a1 : ℕ) (s0 : State) :
    Keeps State.sbWords_parts s0 (State.sbWords a a1 s0).1 := by
  induction a1 generalizing a s0 with
  | zero =>
    rw [State.sbWords.eq_1]
    dsimp -zeta only
    exact Keeps.refl _ _
  | succ _ ih =>
    rw [State.sbWords.eq_2]
    dsimp -zeta only
    refine Keeps.trans ?_ (ih _ _)
    refine Keeps.via (State.readReg_keeps _ _ _) rfl ?_
    exact Keeps.refl _ _

def State.readOn_parts : List Part := [.free, .log, .sb, .links, .twin, .ord, .mir, .sch, .cal, .boot, .regs]

theorem State.readOn_keeps (s0 : State) (path : AccPath) (a : ℕ) :
    Keeps State.readOn_parts s0 (State.readOn s0 path a) := by
  unfold State.readOn
  split
  · unfold State.takeMgt
    extract_lets -lift -merge -useContext -underBinder +onlyGivenNames x0
    try clear_value x0
    refine Keeps.ite ?_ ?_
    · exact Keeps.refl _ _
    · refine Keeps.ite ?_ ?_
      · refine Keeps.via (State.overrun_keeps _ _ _ _) rfl ?_
        exact Keeps.refl _ _
      · refine Keeps.ite ?_ ?_
        · refine Keeps.via (State.owe_keeps _ _ _) rfl ?_
          refine Keeps.via (State.badMsg_keeps _ _ _) rfl ?_
          refine Keeps.via (State.setLink_keeps _ _ _) rfl ?_
          exact Keeps.refl _ _
        · extract_lets -lift -merge -useContext -underBinder +onlyGivenNames x1 x2
          have h2 : Keeps State.readOn_parts s0 x2 := by
            unfold x2
            refine Keeps.via (State.setLink_keeps _ _ _) rfl ?_
            exact Keeps.refl _ _
          try dsimp -zeta -proj -iota -eta only
          extract_lets -lift -merge -useContext -underBinder +onlyGivenNames x3
          have h3 : Keeps State.readOn_parts s0 x3.1 := by
            unfold x3
            refine Keeps.via (State.readReg_keeps _ _ _) rfl ?_
            exact h2
          refine Keeps.via (State.answerMgt_keeps _ _ _ _ _) rfl ?_
          exact h3
  · extract_lets -lift -merge -useContext -underBinder +onlyGivenNames x4
    have h4 : Keeps State.readOn_parts s0 x4.1 := by
      unfold x4
      refine Keeps.via (State.readReg_keeps _ _ _) rfl ?_
      exact Keeps.refl _ _
    refine Keeps.via (State.answerSb_keeps _ _) rfl ?_
    exact h4
  · extract_lets -lift -merge -useContext -underBinder +onlyGivenNames x5
    have h5 : Keeps State.readOn_parts s0 x5.1 := by
      unfold x5
      refine Keeps.via (State.readReg_keeps _ _ _) rfl ?_
      exact Keeps.refl _ _
    extract_lets -lift -merge -useContext -underBinder +onlyGivenNames x6
    have h6 : Keeps State.readOn_parts s0 x6 := by
      unfold x6
      exact h5
    refine Keeps.via (Keeps.upd_boot _ _) rfl ?_
    exact h6

def State.writeOn_parts : List Part := [.rx, .free, .top, .log, .sb, .links, .twin, .ord, .map, .mir, .sch, .flt, .cal, .pwr, .boot, .regs]

theorem State.writeOn_keeps (s0 : State) (path : AccPath) (a : ℕ) (w : Word) :
    Keeps State.writeOn_parts s0 (State.writeOn s0 path a w) := by
  unfold State.writeOn
  split
  · unfold State.takeMgt
    extract_lets -lift -merge -useContext -underBinder +onlyGivenNames x0
    try clear_value x0
    refine Keeps.ite ?_ ?_
    · exact Keeps.refl _ _
    · refine Keeps.ite ?_ ?_
      · refine Keeps.via (State.overrun_keeps _ _ _ _) rfl ?_
        exact Keeps.refl _ _
      · refine Keeps.ite ?_ ?_
        · refine Keeps.via (State.owe_keeps _ _ _) rfl ?_
          refine Keeps.via (State.badMsg_keeps _ _ _) rfl ?_
          refine Keeps.via (State.setLink_keeps _ _ _) rfl ?_
          exact Keeps.refl _ _
        · extract_lets -lift -merge -useContext -underBinder +onlyGivenNames x1 x2
          have h2 : Keeps State.writeOn_parts s0 x2 := by
            unfold x2
            refine Keeps.via (State.setLink_keeps _ _ _) rfl ?_
            exact Keeps.refl _ _
          try dsimp -zeta -proj -iota -eta only
          refine Keeps.ite ?_ ?_
          · refine Keeps.via (State.answerMgt_keeps _ _ _ _ _) rfl ?_
            exact h2
          · extract_lets -lift -merge -useContext -underBinder +onlyGivenNames x3
            have h3 : Keeps State.writeOn_parts s0 x3.1 := by
              unfold x3
              refine Keeps.via (State.writeReg_keeps _ _ _ _) rfl ?_
              exact h2
            refine Keeps.via (State.answerMgt_keeps _ _ _ _ _) rfl ?_
            exact h3
  · extract_lets -lift -merge -useContext -underBinder +onlyGivenNames x4
    have h4 : Keeps State.writeOn_parts s0 x4.1 := by
      unfold x4
      refine Keeps.via (State.writeReg_keeps _ _ _ _) rfl ?_
      exact Keeps.refl _ _
    refine Keeps.via (State.answerSb_keeps _ _) rfl ?_
    exact h4
  · extract_lets -lift -merge -useContext -underBinder +onlyGivenNames x5
    have h5 : Keeps State.writeOn_parts s0 x5.1 := by
      unfold x5
      refine Keeps.via (State.writeReg_keeps _ _ _ _) rfl ?_
      exact Keeps.refl _ _
    extract_lets -lift -merge -useContext -underBinder +onlyGivenNames x6
    have h6 : Keeps State.writeOn_parts s0 x6 := by
      unfold x6
      exact h5
    refine Keeps.via (Keeps.upd_boot _ _) rfl ?_
    exact h6

def State.serveAccess_parts : List Part := [.rx, .free, .top, .log, .sb, .links, .twin, .ord, .map, .mir, .sch, .flt, .cal, .pwr, .boot, .regs]

theorem State.serveAccess_keeps (s0 : State) (q : ArbReq) :
    Keeps State.serveAccess_parts s0 (State.serveAccess s0 q) := by
  unfold State.serveAccess
  refine Keeps.ite ?_ ?_
  · exact Keeps.refl _ _
  · split
    · refine Keeps.via (State.writeOn_keeps _ _ _ _) rfl ?_
      exact Keeps.refl _ _
    · refine Keeps.ite ?_ ?_
      · refine Keeps.via (State.readOn_keeps _ _ _) rfl ?_
        exact Keeps.refl _ _
      · extract_lets -lift -merge -useContext -underBinder +onlyGivenNames x0
        have h0 : Keeps State.serveAccess_parts s0 x0.1 := by
          unfold x0
          refine Keeps.via (State.sbWords_keeps _ _ _) rfl ?_
          exact Keeps.refl _ _
        refine Keeps.via (State.answerSb_keeps _ _) rfl ?_
        exact h0

def State.access_parts : List Part := [.rx, .free, .top, .log, .sb, .links, .twin, .ord, .map, .mir, .sch, .flt, .cal, .pwr, .boot, .regs]

theorem State.access_keeps (s0 : State) (q : ArbReq) :
    Keeps State.access_parts s0 (State.access s0 q) := by
  unfold State.access
  refine Keeps.ite ?_ ?_
  · exact Keeps.refl _ _
  · refine Keeps.ite ?_ ?_
    · refine Keeps.via (Keeps.upd_sb _ _) rfl ?_
      exact Keeps.refl _ _
    · refine Keeps.via (State.serveAccess_keeps _ _) rfl ?_
      exact Keeps.refl _ _

def State.pathRead_parts : List Part := [.rx, .free, .top, .log, .sb, .links, .twin, .ord, .map, .mir, .sch, .flt, .cal, .pwr, .boot, .regs]

theorem State.pathRead_keeps (s0 : State) (path : AccPath) (a : ℕ) :
    Keeps State.pathRead_parts s0 (State.pathRead s0 path a) := by
  unfold State.pathRead
  refine Keeps.via (State.access_keeps _ _) rfl ?_
  exact Keeps.refl _ _

def State.pathWrite_parts : List Part := [.rx, .free, .top, .log, .sb, .links, .twin, .ord, .map, .mir, .sch, .flt, .cal, .pwr, .boot, .regs]

theorem State.pathWrite_keeps (s0 : State) (path : AccPath) (a : ℕ) (w : Word) :
    Keeps State.pathWrite_parts s0 (State.pathWrite s0 path a w) := by
  unfold State.pathWrite
  refine Keeps.via (State.access_keeps _ _) rfl ?_
  exact Keeps.refl _ _

def execMgtRead_parts : List Part := [.rx, .free, .top, .log, .sb, .links, .twin, .ord, .map, .mir, .sch, .flt, .cal, .pwr, .boot, .regs]

theorem execMgtRead_keeps (p : Port) (mtag : BitVec 4) (addr : BitVec 24) (s0 : State) :
    KeepsOut execMgtRead_parts s0 (execMgtRead p mtag addr s0) := by
  unfold execMgtRead
  refine KeepsOut.next ?_
  refine Keeps.via (State.pathRead_keeps _ _ _) rfl ?_
  exact Keeps.refl _ _

def execMgtWrite_parts : List Part := [.rx, .free, .top, .log, .sb, .links, .twin, .ord, .map, .mir, .sch, .flt, .cal, .pwr, .boot, .regs]

theorem execMgtWrite_keeps (p : Port) (mtag : BitVec 4) (addr : BitVec 24) (data : Word) (s0 : State) :
    KeepsOut execMgtWrite_parts s0 (execMgtWrite p mtag addr data s0) := by
  unfold execMgtWrite
  refine KeepsOut.next ?_
  refine Keeps.via (State.pathWrite_keeps _ _ _ _) rfl ?_
  exact Keeps.refl _ _

def execRegisterWrite_parts : List Part := [.rx, .free, .top, .log, .sb, .links, .twin, .ord, .map, .mir, .sch, .flt, .cal, .pwr, .boot, .regs]

theorem execRegisterWrite_keeps (path : AccPath) (addr : BitVec 24) (data : Word) (s0 : State) :
    KeepsOut execRegisterWrite_parts s0 (execRegisterWrite path addr data s0) := by
  unfold execRegisterWrite
  refine KeepsOut.next ?_
  refine Keeps.via (State.pathWrite_keeps _ _ _ _) rfl ?_
  exact Keeps.refl _ _

def execRcFieldRead_parts : List Part := [.rx, .free, .top, .log, .sb, .links, .twin, .ord, .map, .mir, .sch, .flt, .cal, .pwr, .boot, .regs]

theorem execRcFieldRead_keeps (path : AccPath) (addr : BitVec 24) (s0 : State) :
    KeepsOut execRcFieldRead_parts s0 (execRcFieldRead path addr s0) := by
  unfold execRcFieldRead
  refine KeepsOut.next ?_
  refine Keeps.via (State.pathRead_keeps _ _ _) rfl ?_
  exact Keeps.refl _ _

def execBootRelease_parts : List Part := [.rx, .free, .top, .log, .sb, .links, .twin, .ord, .map, .mir, .sch, .flt, .cal, .pwr, .boot, .regs]

theorem execBootRelease_keeps (path : AccPath) (data : Word) (s0 : State) :
    KeepsOut execBootRelease_parts s0 (execBootRelease path data s0) := by
  unfold execBootRelease
  refine KeepsOut.next ?_
  refine Keeps.via (State.pathWrite_keeps _ _ _ _) rfl ?_
  exact Keeps.refl _ _

def execFaultRelease_parts : List Part := [.rx, .free, .top, .log, .sb, .links, .twin, .ord, .map, .mir, .sch, .flt, .cal, .pwr, .boot, .regs]

theorem execFaultRelease_keeps (path : AccPath) (data : Word) (s0 : State) :
    KeepsOut execFaultRelease_parts s0 (execFaultRelease path data s0) := by
  unfold execFaultRelease
  refine KeepsOut.next ?_
  refine Keeps.via (State.pathWrite_keeps _ _ _ _) rfl ?_
  exact Keeps.refl _ _

def execOrdStrrec0Read_parts : List Part := [.rx, .free, .top, .log, .sb, .links, .twin, .ord, .map, .mir, .sch, .flt, .cal, .pwr, .boot, .regs]

theorem execOrdStrrec0Read_keeps (path : AccPath) (s0 : State) :
    KeepsOut execOrdStrrec0Read_parts s0 (execOrdStrrec0Read path s0) := by
  unfold execOrdStrrec0Read
  refine KeepsOut.next ?_
  refine Keeps.via (State.pathRead_keeps _ _ _) rfl ?_
  exact Keeps.refl _ _

def execOrdFrontLoRead_parts : List Part := [.rx, .free, .top, .log, .sb, .links, .twin, .ord, .map, .mir, .sch, .flt, .cal, .pwr, .boot, .regs]

theorem execOrdFrontLoRead_keeps (path : AccPath) (s0 : State) :
    KeepsOut execOrdFrontLoRead_parts s0 (execOrdFrontLoRead path s0) := by
  unfold execOrdFrontLoRead
  refine KeepsOut.next ?_
  refine Keeps.via (State.pathRead_keeps _ _ _) rfl ?_
  exact Keeps.refl _ _

def execTimNowLoRead_parts : List Part := [.rx, .free, .top, .log, .sb, .links, .twin, .ord, .map, .mir, .sch, .flt, .cal, .pwr, .boot, .regs]

theorem execTimNowLoRead_keeps (path : AccPath) (s0 : State) :
    KeepsOut execTimNowLoRead_parts s0 (execTimNowLoRead path s0) := by
  unfold execTimNowLoRead
  refine KeepsOut.next ?_
  refine Keeps.via (State.pathRead_keeps _ _ _) rfl ?_
  exact Keeps.refl _ _

def execTimOffsetLoRead_parts : List Part := [.rx, .free, .top, .log, .sb, .links, .twin, .ord, .map, .mir, .sch, .flt, .cal, .pwr, .boot, .regs]

theorem execTimOffsetLoRead_keeps (path : AccPath) (s0 : State) :
    KeepsOut execTimOffsetLoRead_parts s0 (execTimOffsetLoRead path s0) := by
  unfold execTimOffsetLoRead
  refine KeepsOut.next ?_
  refine Keeps.via (State.pathRead_keeps _ _ _) rfl ?_
  exact Keeps.refl _ _

def execPwrSnapstampLoRead_parts : List Part := [.rx, .free, .top, .log, .sb, .links, .twin, .ord, .map, .mir, .sch, .flt, .cal, .pwr, .boot, .regs]

theorem execPwrSnapstampLoRead_keeps (path : AccPath) (s0 : State) :
    KeepsOut execPwrSnapstampLoRead_parts s0 (execPwrSnapstampLoRead path s0) := by
  unfold execPwrSnapstampLoRead
  refine KeepsOut.next ?_
  refine Keeps.via (State.pathRead_keeps _ _ _) rfl ?_
  exact Keeps.refl _ _

def execMgtDieidLoRead_parts : List Part := [.rx, .free, .top, .log, .sb, .links, .twin, .ord, .map, .mir, .sch, .flt, .cal, .pwr, .boot, .regs]

theorem execMgtDieidLoRead_keeps (path : AccPath) (s0 : State) :
    KeepsOut execMgtDieidLoRead_parts s0 (execMgtDieidLoRead path s0) := by
  unfold execMgtDieidLoRead
  refine KeepsOut.next ?_
  refine Keeps.via (State.pathRead_keeps _ _ _) rfl ?_
  exact Keeps.refl _ _

def execDphEyeaRead_parts : List Part := [.rx, .free, .top, .log, .sb, .links, .twin, .ord, .map, .mir, .sch, .flt, .cal, .pwr, .boot, .regs]

theorem execDphEyeaRead_keeps (path : AccPath) (sc : Fin 16) (s0 : State) :
    KeepsOut execDphEyeaRead_parts s0 (execDphEyeaRead path sc s0) := by
  unfold execDphEyeaRead
  refine KeepsOut.next ?_
  refine Keeps.via (State.pathRead_keeps _ _ _) rfl ?_
  exact Keeps.refl _ _

def execEccSealfailRead_parts : List Part := [.rx, .free, .top, .log, .sb, .links, .twin, .ord, .map, .mir, .sch, .flt, .cal, .pwr, .boot, .regs]

theorem execEccSealfailRead_keeps (path : AccPath) (s0 : State) :
    KeepsOut execEccSealfailRead_parts s0 (execEccSealfailRead path s0) := by
  unfold execEccSealfailRead
  refine KeepsOut.next ?_
  refine Keeps.via (State.pathRead_keeps _ _ _) rfl ?_
  exact Keeps.refl _ _

def execLogSbrec0Read_parts : List Part := [.rx, .free, .top, .log, .sb, .links, .twin, .ord, .map, .mir, .sch, .flt, .cal, .pwr, .boot, .regs]

theorem execLogSbrec0Read_keeps (path : AccPath) (s0 : State) :
    KeepsOut execLogSbrec0Read_parts s0 (execLogSbrec0Read path s0) := by
  unfold execLogSbrec0Read
  refine KeepsOut.next ?_
  refine Keeps.via (State.pathRead_keeps _ _ _) rfl ?_
  exact Keeps.refl _ _

def execCalRecselWrite_parts : List Part := [.rx, .free, .top, .log, .sb, .links, .twin, .ord, .map, .mir, .sch, .flt, .cal, .pwr, .boot, .regs]

theorem execCalRecselWrite_keeps (path : AccPath) (data : Word) (s0 : State) :
    KeepsOut execCalRecselWrite_parts s0 (execCalRecselWrite path data s0) := by
  unfold execCalRecselWrite
  refine KeepsOut.next ?_
  refine Keeps.via (State.pathWrite_keeps _ _ _ _) rfl ?_
  exact Keeps.refl _ _

def execOrdStrselWrite_parts : List Part := [.rx, .free, .top, .log, .sb, .links, .twin, .ord, .map, .mir, .sch, .flt, .cal, .pwr, .boot, .regs]

theorem execOrdStrselWrite_keeps (path : AccPath) (data : Word) (s0 : State) :
    KeepsOut execOrdStrselWrite_parts s0 (execOrdStrselWrite path data s0) := by
  unfold execOrdStrselWrite
  refine KeepsOut.next ?_
  refine Keeps.via (State.pathWrite_keeps _ _ _ _) rfl ?_
  exact Keeps.refl _ _

def execDphEyeselWrite_parts : List Part := [.rx, .free, .top, .log, .sb, .links, .twin, .ord, .map, .mir, .sch, .flt, .cal, .pwr, .boot, .regs]

theorem execDphEyeselWrite_keeps (path : AccPath) (sc : Fin 16) (data : Word) (s0 : State) :
    KeepsOut execDphEyeselWrite_parts s0 (execDphEyeselWrite path sc data s0) := by
  unfold execDphEyeselWrite
  refine KeepsOut.next ?_
  refine Keeps.via (State.pathWrite_keeps _ _ _ _) rfl ?_
  exact Keeps.refl _ _

def execFlashRead_parts : List Part := [.rx, .free, .top, .log, .sb, .links, .twin, .ord, .map, .mir, .sch, .flt, .cal, .pwr, .boot, .regs]

theorem execFlashRead_keeps (path : AccPath) (s0 : State) :
    KeepsOut execFlashRead_parts s0 (execFlashRead path s0) := by
  unfold execFlashRead
  refine KeepsOut.next ?_
  refine Keeps.via (State.pathWrite_keeps _ _ _ _) rfl ?_
  exact Keeps.refl _ _

def execFlashProgram_parts : List Part := [.rx, .free, .top, .log, .sb, .links, .twin, .ord, .map, .mir, .sch, .flt, .cal, .pwr, .boot, .regs]

theorem execFlashProgram_keeps (path : AccPath) (s0 : State) :
    KeepsOut execFlashProgram_parts s0 (execFlashProgram path s0) := by
  unfold execFlashProgram
  refine KeepsOut.next ?_
  refine Keeps.via (State.pathWrite_keeps _ _ _ _) rfl ?_
  exact Keeps.refl _ _

def execFlashErase_parts : List Part := [.rx, .free, .top, .log, .sb, .links, .twin, .ord, .map, .mir, .sch, .flt, .cal, .pwr, .boot, .regs]

theorem execFlashErase_keeps (path : AccPath) (s0 : State) :
    KeepsOut execFlashErase_parts s0 (execFlashErase path s0) := by
  unfold execFlashErase
  refine KeepsOut.next ?_
  refine Keeps.via (State.pathWrite_keeps _ _ _ _) rfl ?_
  exact Keeps.refl _ _

def execFlashSetPreference_parts : List Part := [.rx, .free, .top, .log, .sb, .links, .twin, .ord, .map, .mir, .sch, .flt, .cal, .pwr, .boot, .regs]

theorem execFlashSetPreference_keeps (path : AccPath) (s0 : State) :
    KeepsOut execFlashSetPreference_parts s0 (execFlashSetPreference path s0) := by
  unfold execFlashSetPreference
  refine KeepsOut.next ?_
  refine Keeps.via (State.pathWrite_keeps _ _ _ _) rfl ?_
  exact Keeps.refl _ _

def execFlashUnknownCommand_parts : List Part := [.rx, .free, .top, .log, .sb, .links, .twin, .ord, .map, .mir, .sch, .flt, .cal, .pwr, .boot, .regs]

theorem execFlashUnknownCommand_keeps (path : AccPath) (code : BitVec 4) (s0 : State) :
    KeepsOut execFlashUnknownCommand_parts s0 (execFlashUnknownCommand path code s0) := by
  unfold execFlashUnknownCommand
  refine KeepsOut.next ?_
  refine Keeps.via (State.pathWrite_keeps _ _ _ _) rfl ?_
  exact Keeps.refl _ _

def execCipherEncrypt_parts : List Part := [.rx, .free, .top, .log, .sb, .links, .twin, .ord, .map, .mir, .sch, .flt, .cal, .pwr, .boot, .regs]

theorem execCipherEncrypt_keeps (slot : BitVec 2) (dest : BitVec 2) (s0 : State) :
    KeepsOut execCipherEncrypt_parts s0 (execCipherEncrypt slot dest s0) := by
  unfold execCipherEncrypt
  refine KeepsOut.next ?_
  refine Keeps.via (State.pathWrite_keeps _ _ _ _) rfl ?_
  exact Keeps.refl _ _

def execCipherDecrypt_parts : List Part := [.rx, .free, .top, .log, .sb, .links, .twin, .ord, .map, .mir, .sch, .flt, .cal, .pwr, .boot, .regs]

theorem execCipherDecrypt_keeps (slot : BitVec 2) (dest : BitVec 2) (s0 : State) :
    KeepsOut execCipherDecrypt_parts s0 (execCipherDecrypt slot dest s0) := by
  unfold execCipherDecrypt
  refine KeepsOut.next ?_
  refine Keeps.via (State.pathWrite_keeps _ _ _ _) rfl ?_
  exact Keeps.refl _ _

def execLogWdtkick_parts : List Part := [.rx, .free, .top, .log, .sb, .links, .twin, .ord, .map, .mir, .sch, .flt, .cal, .pwr, .boot, .regs]

theorem execLogWdtkick_keeps (data : Word) (s0 : State) :
    KeepsOut execLogWdtkick_parts s0 (execLogWdtkick data s0) := by
  unfold execLogWdtkick
  refine KeepsOut.next ?_
  refine Keeps.via (State.pathWrite_keeps _ _ _ _) rfl ?_
  exact Keeps.refl _ _

def execSbReadRegisters_parts : List Part := [.rx, .free, .top, .log, .sb, .links, .twin, .ord, .map, .mir, .sch, .flt, .cal, .pwr, .boot, .regs]

theorem execSbReadRegisters_keeps (addr : BitVec 24) (count : Byte) (s0 : State) :
    KeepsOut execSbReadRegisters_parts s0 (execSbReadRegisters addr count s0) := by
  unfold execSbReadRegisters
  refine KeepsOut.next ?_
  refine Keeps.ite ?_ ?_
  · exact Keeps.refl _ _
  · refine Keeps.ite ?_ ?_
    · refine Keeps.via (State.answerSb_keeps _ _) rfl ?_
      exact Keeps.refl _ _
    · refine Keeps.via (State.access_keeps _ _) rfl ?_
      exact Keeps.refl _ _

def execSbWriteRegister_parts : List Part := [.rx, .free, .top, .log, .sb, .links, .twin, .ord, .map, .mir, .sch, .flt, .cal, .pwr, .boot, .regs]

theorem execSbWriteRegister_keeps (addr : BitVec 24) (data : Word) (s0 : State) :
    KeepsOut execSbWriteRegister_parts s0 (execSbWriteRegister addr data s0) := by
  unfold execSbWriteRegister
  refine KeepsOut.next ?_
  refine Keeps.via (State.pathWrite_keeps _ _ _ _) rfl ?_
  exact Keeps.refl _ _

def execSbFrameError_parts : List Part := [.sb]

theorem execSbFrameError_keeps (e : SbError) (s0 : State) :
    KeepsOut execSbFrameError_parts s0 (execSbFrameError e s0) := by
  unfold execSbFrameError
  refine KeepsOut.next ?_
  refine Keeps.ite ?_ ?_
  · exact Keeps.refl _ _
  · split
    · refine Keeps.ite ?_ ?_
      · refine Keeps.via (State.answerSb_keeps _ _) rfl ?_
        exact Keeps.refl _ _
      · exact Keeps.refl _ _
    · refine Keeps.via (State.answerSb_keeps _ _) rfl ?_
      exact Keeps.refl _ _
    · refine Keeps.via (State.answerSb_keeps _ _) rfl ?_
      exact Keeps.refl _ _
    · refine Keeps.via (State.answerSb_keeps _ _) rfl ?_
      exact Keeps.refl _ _

end Sys2Proof.Machine
end

