-- ==== Sys2Proof/Laws/KeepsDirectives.lean ====
section
/-!
SUPPORT. The frames of the operations of Machine/Directives.lean: the parts of the state each may change, and that each keeps the canonical
form. A proof of a frame cites these and unfolds nothing.
-/

namespace Sys2Proof.Machine

def State.quiesce_parts : List Part := [.log, .sb, .ord, .reg Reg.GLB_EVENT, .reg Reg.GLB_DIRSTAT, .reg Reg.GLB_QUIESCE, .reg Reg.LOG_RINGSTAT, .reg Reg.LOG_CAPTURED, .reg Reg.LOG_COALESCED, .reg Reg.LOG_LOST, .reg Reg.LOG_ORPHANS, .reg Reg.LOG_SQUALLS]

theorem State.quiesce_keeps (s0 : State) (ports : ℕ) :
    Keeps State.quiesce_parts s0 (State.quiesce s0 ports) := by
  unfold State.quiesce
  extract_lets -lift -merge -useContext -underBinder +onlyGivenNames x0
  have h0 : Keeps State.quiesce_parts s0 x0 := by
    unfold x0
    refine Keeps.via (State.setFld_keeps _ _ _) rfl ?_
    refine Keeps.via (State.setFld_keeps _ _ _) rfl ?_
    exact Keeps.refl _ _
  refine Keeps.via (State.checkDrained_keeps _) rfl ?_
  refine Keeps.via (Keeps.upd_ord _ _) rfl ?_
  exact h0

def State.setWall_parts : List Part := [.time, .log, .sb, .reg Reg.GLB_EVENT, .reg Reg.GLB_DIRSTAT, .reg Reg.TIM_STAT, .reg Reg.LOG_RINGSTAT, .reg Reg.LOG_CAPTURED, .reg Reg.LOG_COALESCED, .reg Reg.LOG_LOST, .reg Reg.LOG_ORPHANS, .reg Reg.LOG_SQUALLS]

theorem State.setWall_keeps (s0 : State) (offset : BitVec 64) :
    Keeps State.setWall_parts s0 (State.setWall s0 offset) := by
  unfold State.setWall
  extract_lets -lift -merge -useContext -underBinder +onlyGivenNames x0 x1
  have h1 : Keeps State.setWall_parts s0 x1 := by
    unfold x1
    refine Keeps.via (Keeps.upd_time _ _) rfl ?_
    exact Keeps.refl _ _
  extract_lets -lift -merge -useContext -underBinder +onlyGivenNames x2
  have h2 : Keeps State.setWall_parts s0 x2 := by
    unfold x2
    refine Keeps.via (State.setFld_keeps _ _ _) rfl ?_
    exact h1
  refine Keeps.via (State.capture_keeps _ _ _ _) rfl ?_
  exact h2

def State.rebuild_parts : List Part := [.rx, .top, .log, .sb, .links, .twin, .ord, .map, .mir, .sch, .flt, .cal, .pwr, .boot, .reg Reg.GLB_HUBID, .reg Reg.GLB_EVENT, .reg Reg.GLB_DIRSTAT, .reg Reg.GLB_QUIESCE, .block 0x1, .reg Reg.ORD_FWD, .reg Reg.ORD_LINEHOLD, .reg Reg.ORD_FLUSHES, .reg Reg.MIR_CAUSE, .reg Reg.MIR_PENDOCC, .reg Reg.MIR_FWDMISS, .reg Reg.MIR_HOSTAT, .reg Reg.MIR_HOCNT, .reg Reg.DPH_RETSTAT, .reg Reg.ECC_SEALFAIL, .reg Reg.ECC_FIRSTFAIL, .reg Reg.ECC_REPAIR, .reg Reg.LOG_RINGSTAT, .reg Reg.LOG_CAPTURED, .reg Reg.LOG_COALESCED, .reg Reg.LOG_LOST, .reg Reg.LOG_ORPHANS, .reg Reg.LOG_SQUALLS]

theorem State.rebuild_keeps (s0 : State) (epoch : Word) (mode : ℕ) (share : ℕ) :
    Keeps State.rebuild_parts s0 (State.rebuild s0 epoch mode share) := by
  unfold State.rebuild
  extract_lets -lift -merge -useContext -underBinder +onlyGivenNames x0 x1
  have h1 : Keeps State.rebuild_parts s0 x1 := by
    unfold x1
    refine Keeps.via (Keeps.upd_mir _ _) rfl ?_
    exact Keeps.refl _ _
  refine Keeps.via (State.startRebuild_keeps _ _ _ _) rfl ?_
  exact h1

def State.retireBy_parts : List Part := [.log, .sb, .links, .twin, .ord, .mir, .sch, .flt, .cal, .reg Reg.GLB_EVENT, .reg Reg.GLB_DIRSTAT, .reg Reg.ORD_FWD, .reg Reg.ORD_LINEHOLD, .reg Reg.ECC_SEALFAIL, .reg Reg.ECC_FIRSTFAIL, .reg Reg.LOG_RINGSTAT, .reg Reg.LOG_CAPTURED, .reg Reg.LOG_COALESCED, .reg Reg.LOG_LOST, .reg Reg.LOG_ORPHANS, .reg Reg.LOG_SQUALLS]

theorem State.retireBy_keeps (s0 : State) (p : ℕ) (spare : Bool) :
    Keeps State.retireBy_parts s0 (State.retireBy s0 p spare) := by
  unfold State.retireBy
  refine Keeps.ite ?_ ?_
  · refine Keeps.via (State.startSpare_keeps _ _ _) rfl ?_
    exact Keeps.refl _ _
  · refine Keeps.ite ?_ ?_
    · refine Keeps.via (State.retire_keeps _ _ _) rfl ?_
      refine Keeps.via (State.abortSpare_keeps _ _) rfl ?_
      exact Keeps.refl _ _
    · refine Keeps.via (State.retire_keeps _ _ _) rfl ?_
      exact Keeps.refl _ _

def State.startDir_parts : List Part := [.reg Reg.GLB_DIRSTAT]

theorem State.startDir_keeps (s0 : State) (d : ℕ) :
    Keeps State.startDir_parts s0 (State.startDir s0 d) := by
  unfold State.startDir
  refine Keeps.via (State.setFld_keeps _ _ _) rfl ?_
  exact Keeps.refl _ _

def State.dirActs_parts : List Part := [.rx, .free, .top, .time, .log, .sb, .links, .twin, .ord, .map, .mir, .sch, .flt, .cal, .clk, .pwr, .boot, .reg Reg.GLB_HUBID, .reg Reg.GLB_EVENT, .reg Reg.GLB_DIRSTAT, .reg Reg.GLB_QUIESCE, .block 0x1, .reg Reg.ORD_FWD, .reg Reg.ORD_LINEHOLD, .reg Reg.ORD_FLUSHES, .reg Reg.MAP_REJ, .reg Reg.MIR_CAUSE, .reg Reg.MIR_RBCUR, .reg Reg.MIR_PENDOCC, .reg Reg.MIR_FWDMISS, .reg Reg.MIR_HOSTAT, .reg Reg.MIR_HOCNT, .reg Reg.SCH_SCRUBCFG, .reg Reg.SCH_SCRUBINT, .block 0x6, .reg Reg.CAL_ABANDONED, .reg Reg.ECC_SEALFAIL, .reg Reg.ECC_FIRSTFAIL, .reg Reg.ECC_REPAIR, .reg Reg.CLK_STAT, .reg Reg.TIM_STAT, .reg Reg.LOG_RINGSTAT, .reg Reg.LOG_CAPTURED, .reg Reg.LOG_COALESCED, .reg Reg.LOG_LOST, .reg Reg.LOG_ORPHANS, .reg Reg.LOG_SQUALLS]

theorem State.dirActs_keeps (s0 : State) (d : ℕ) (mtag : BitVec 4) (arg : ℕ) :
    Keeps State.dirActs_parts s0 (State.dirActs s0 d mtag arg).1 := by
  unfold State.dirActs
  split
  · dsimp -zeta only
    refine Keeps.via (State.startLull_keeps _ _) rfl ?_
    refine Keeps.via (State.startDir_keeps _ _) rfl ?_
    exact Keeps.refl _ _
  · dsimp -zeta only
    refine Keeps.via (State.quiesce_keeps _ _) rfl ?_
    exact Keeps.refl _ _
  · dsimp -zeta only
    refine Keeps.via (State.startHandover_keeps _ _ _) rfl ?_
    exact Keeps.refl _ _
  · dsimp -zeta only
    refine Keeps.via (State.grantSolo_keeps _ _ _) rfl ?_
    exact Keeps.refl _ _
  · dsimp -zeta only
    refine Keeps.via (State.rebuild_keeps _ _ _ _) rfl ?_
    exact Keeps.refl _ _
  · dsimp -zeta only
    refine Keeps.via (State.stopRebuild_keeps _) rfl ?_
    exact Keeps.refl _ _
  · dsimp -zeta only
    refine Keeps.via (State.event_keeps _ _ _) rfl ?_
    refine Keeps.via (State.setScrub_keeps _ _ _) rfl ?_
    exact Keeps.refl _ _
  · dsimp -zeta only
    refine Keeps.via (State.startRestore_keeps _ _) rfl ?_
    refine Keeps.via (State.startDir_keeps _ _) rfl ?_
    exact Keeps.refl _ _
  · extract_lets -lift -merge -useContext -underBinder +onlyGivenNames x0
    have h0 : Keeps State.dirActs_parts s0 x0 := by
      unfold x0
      refine Keeps.via (State.setWall_keeps _ _) rfl ?_
      exact Keeps.refl _ _
    dsimp -zeta only
    exact h0
  · dsimp -zeta only
    refine Keeps.via (State.retireBy_keeps _ _ _) rfl ?_
    exact Keeps.refl _ _
  · dsimp -zeta only
    refine Keeps.via (State.startReadmit_keeps _ _) rfl ?_
    refine Keeps.via (State.startDir_keeps _ _) rfl ?_
    exact Keeps.refl _ _
  · dsimp -zeta only
    exact Keeps.refl _ _

def State.noteDir_parts : List Part := [.reg Reg.GLB_DIRSTAT]

theorem State.noteDir_keeps (s0 : State) (path : ℕ) (d : ℕ) (status : Byte) :
    Keeps State.noteDir_parts s0 (State.noteDir s0 path d status) := by
  unfold State.noteDir
  refine Keeps.via (State.setFld_keeps _ _ _) rfl ?_
  refine Keeps.via (State.setFld_keeps _ _ _) rfl ?_
  refine Keeps.via (State.setFld_keeps _ _ _) rfl ?_
  exact Keeps.refl _ _

def State.directive_parts : List Part := [.rx, .free, .top, .time, .log, .sb, .links, .twin, .ord, .map, .mir, .sch, .flt, .cal, .clk, .pwr, .boot, .reg Reg.GLB_HUBID, .reg Reg.GLB_EVENT, .reg Reg.GLB_DIRSTAT, .reg Reg.GLB_QUIESCE, .block 0x1, .reg Reg.ORD_FWD, .reg Reg.ORD_LINEHOLD, .reg Reg.ORD_FLUSHES, .reg Reg.MAP_REJ, .reg Reg.MIR_CAUSE, .reg Reg.MIR_RBCUR, .reg Reg.MIR_PENDOCC, .reg Reg.MIR_FWDMISS, .reg Reg.MIR_HOSTAT, .reg Reg.MIR_HOCNT, .reg Reg.SCH_SCRUBCFG, .reg Reg.SCH_SCRUBINT, .block 0x6, .reg Reg.CAL_ABANDONED, .reg Reg.ECC_SEALFAIL, .reg Reg.ECC_FIRSTFAIL, .reg Reg.ECC_REPAIR, .reg Reg.CLK_STAT, .reg Reg.TIM_STAT, .reg Reg.LOG_RINGSTAT, .reg Reg.LOG_CAPTURED, .reg Reg.LOG_COALESCED, .reg Reg.LOG_LOST, .reg Reg.LOG_ORPHANS, .reg Reg.LOG_SQUALLS]

theorem State.directive_keeps (s0 : State) (port : Option Port) (mtag : BitVec 4) (d : ℕ) (epoch : Word) (arg : ℕ) :
    Keeps State.directive_parts s0 (State.directive s0 port mtag d epoch arg).1 := by
  unfold State.directive
  extract_lets -lift -merge -useContext -underBinder +onlyGivenNames x0
  try clear_value x0
  extract_lets -lift -merge -useContext -underBinder +onlyGivenNames x1
  try clear_value x1
  refine Keeps.iteL ?_ ?_
  · extract_lets -lift -merge -useContext -underBinder +onlyGivenNames x2
    have h2 : Keeps State.directive_parts s0 x2.1 := by
      unfold x2
      refine Keeps.via (State.dirActs_keeps _ _ _ _) rfl ?_
      exact Keeps.refl _ _
    dsimp -zeta only
    refine Keeps.via (State.noteDir_keeps _ _ _ _) rfl ?_
    exact h2
  · extract_lets -lift -merge -useContext -underBinder +onlyGivenNames x3
    have h3 : Keeps State.directive_parts s0 x3 := by
      unfold x3
      refine Keeps.ite ?_ ?_
      · refine Keeps.via (State.fence_keeps _ _) rfl ?_
        exact Keeps.refl _ _
      · exact Keeps.refl _ _
    dsimp -zeta only
    refine Keeps.via (State.noteDir_keeps _ _ _ _) rfl ?_
    exact h3

def State.sideDirective_parts : List Part := [.rx, .free, .top, .time, .log, .sb, .links, .twin, .ord, .map, .mir, .sch, .flt, .cal, .clk, .pwr, .boot, .reg Reg.GLB_HUBID, .reg Reg.GLB_EVENT, .reg Reg.GLB_DIRSTAT, .reg Reg.GLB_QUIESCE, .block 0x1, .reg Reg.ORD_FWD, .reg Reg.ORD_LINEHOLD, .reg Reg.ORD_FLUSHES, .reg Reg.MAP_REJ, .reg Reg.MIR_CAUSE, .reg Reg.MIR_RBCUR, .reg Reg.MIR_PENDOCC, .reg Reg.MIR_FWDMISS, .reg Reg.MIR_HOSTAT, .reg Reg.MIR_HOCNT, .reg Reg.SCH_SCRUBCFG, .reg Reg.SCH_SCRUBINT, .block 0x6, .reg Reg.CAL_ABANDONED, .reg Reg.ECC_SEALFAIL, .reg Reg.ECC_FIRSTFAIL, .reg Reg.ECC_REPAIR, .reg Reg.CLK_STAT, .reg Reg.TIM_STAT, .reg Reg.LOG_RINGSTAT, .reg Reg.LOG_CAPTURED, .reg Reg.LOG_COALESCED, .reg Reg.LOG_LOST, .reg Reg.LOG_ORPHANS, .reg Reg.LOG_SQUALLS]

theorem State.sideDirective_keeps (s0 : State) (q : DirReq) :
    Keeps State.sideDirective_parts s0 (State.sideDirective s0 q) := by
  unfold State.sideDirective
  refine Keeps.ite ?_ ?_
  · exact Keeps.refl _ _
  · extract_lets -lift -merge -useContext -underBinder +onlyGivenNames x0
    have h0 : Keeps State.sideDirective_parts s0 x0.1 := by
      unfold x0
      refine Keeps.via (State.directive_keeps _ _ _ _ _ _) rfl ?_
      exact Keeps.refl _ _
    refine Keeps.via (State.answerSb_keeps _ _) rfl ?_
    exact h0

def State.runDirective_parts : List Part := [.rx, .free, .top, .time, .log, .sb, .links, .twin, .ord, .map, .mir, .sch, .flt, .cal, .clk, .pwr, .boot, .reg Reg.GLB_HUBID, .reg Reg.GLB_EVENT, .reg Reg.GLB_DIRSTAT, .reg Reg.GLB_QUIESCE, .block 0x1, .reg Reg.ORD_FWD, .reg Reg.ORD_LINEHOLD, .reg Reg.ORD_FLUSHES, .reg Reg.MAP_REJ, .reg Reg.MIR_CAUSE, .reg Reg.MIR_RBCUR, .reg Reg.MIR_PENDOCC, .reg Reg.MIR_FWDMISS, .reg Reg.MIR_HOSTAT, .reg Reg.MIR_HOCNT, .reg Reg.SCH_SCRUBCFG, .reg Reg.SCH_SCRUBINT, .block 0x6, .reg Reg.CAL_ABANDONED, .reg Reg.ECC_SEALFAIL, .reg Reg.ECC_FIRSTFAIL, .reg Reg.ECC_REPAIR, .reg Reg.CLK_STAT, .reg Reg.TIM_STAT, .reg Reg.LOG_RINGSTAT, .reg Reg.LOG_CAPTURED, .reg Reg.LOG_COALESCED, .reg Reg.LOG_LOST, .reg Reg.LOG_ORPHANS, .reg Reg.LOG_SQUALLS]

theorem State.runDirective_keeps (s0 : State) (h : DirHead) (d : ℕ) (arg : BitVec 64) :
    Keeps State.runDirective_parts s0 (State.runDirective s0 h d arg) := by
  unfold State.runDirective
  unfold State.takeMgt
  extract_lets -lift -merge -useContext -underBinder +onlyGivenNames x0
  try clear_value x0
  refine Keeps.ite ?_ ?_
  · exact Keeps.refl _ _
  · refine Keeps.ite ?_ ?_
    · refine Keeps.via (State.overrun_keeps _ _ _ _) rfl ?_
      exact Keeps.refl _ _
    · refine Keeps.ite ?_ ?_
      · refine Keeps.via (State.owe_keeps _ _ _) rfl ?_
        refine Keeps.via (State.badMsg_keeps _ _ _) rfl ?_
        refine Keeps.via (State.setLink_keeps _ _ _) rfl ?_
        exact Keeps.refl _ _
      · extract_lets -lift -merge -useContext -underBinder +onlyGivenNames x1 x2
        have h2 : Keeps State.runDirective_parts s0 x2 := by
          unfold x2
          refine Keeps.via (State.setLink_keeps _ _ _) rfl ?_
          exact Keeps.refl _ _
        try dsimp -zeta -proj -iota -eta only
        extract_lets -lift -merge -useContext -underBinder +onlyGivenNames x3
        have h3 : Keeps State.runDirective_parts s0 x3.1 := by
          unfold x3
          refine Keeps.via (State.directive_keeps _ _ _ _ _ _) rfl ?_
          exact h2
        refine Keeps.via (State.answerMgt_keeps _ _ _ _ _) rfl ?_
        exact h3

def execDirectiveLull_parts : List Part := [.rx, .free, .top, .time, .log, .sb, .links, .twin, .ord, .map, .mir, .sch, .flt, .cal, .clk, .pwr, .boot, .reg Reg.GLB_HUBID, .reg Reg.GLB_EVENT, .reg Reg.GLB_DIRSTAT, .reg Reg.GLB_QUIESCE, .block 0x1, .reg Reg.ORD_FWD, .reg Reg.ORD_LINEHOLD, .reg Reg.ORD_FLUSHES, .reg Reg.MAP_REJ, .reg Reg.MIR_CAUSE, .reg Reg.MIR_RBCUR, .reg Reg.MIR_PENDOCC, .reg Reg.MIR_FWDMISS, .reg Reg.MIR_HOSTAT, .reg Reg.MIR_HOCNT, .reg Reg.SCH_SCRUBCFG, .reg Reg.SCH_SCRUBINT, .block 0x6, .reg Reg.CAL_ABANDONED, .reg Reg.ECC_SEALFAIL, .reg Reg.ECC_FIRSTFAIL, .reg Reg.ECC_REPAIR, .reg Reg.CLK_STAT, .reg Reg.TIM_STAT, .reg Reg.LOG_RINGSTAT, .reg Reg.LOG_CAPTURED, .reg Reg.LOG_COALESCED, .reg Reg.LOG_LOST, .reg Reg.LOG_ORPHANS, .reg Reg.LOG_SQUALLS]

theorem execDirectiveLull_keeps (h : DirHead) (arg : BitVec 64) (s0 : State) :
    KeepsOut execDirectiveLull_parts s0 (execDirectiveLull h arg s0) := by
  unfold execDirectiveLull
  refine KeepsOut.next ?_
  refine Keeps.via (State.runDirective_keeps _ _ _ _) rfl ?_
  exact Keeps.refl _ _

def execDirectiveQuiesce_parts : List Part := [.rx, .free, .top, .time, .log, .sb, .links, .twin, .ord, .map, .mir, .sch, .flt, .cal, .clk, .pwr, .boot, .reg Reg.GLB_HUBID, .reg Reg.GLB_EVENT, .reg Reg.GLB_DIRSTAT, .reg Reg.GLB_QUIESCE, .block 0x1, .reg Reg.ORD_FWD, .reg Reg.ORD_LINEHOLD, .reg Reg.ORD_FLUSHES, .reg Reg.MAP_REJ, .reg Reg.MIR_CAUSE, .reg Reg.MIR_RBCUR, .reg Reg.MIR_PENDOCC, .reg Reg.MIR_FWDMISS, .reg Reg.MIR_HOSTAT, .reg Reg.MIR_HOCNT, .reg Reg.SCH_SCRUBCFG, .reg Reg.SCH_SCRUBINT, .block 0x6, .reg Reg.CAL_ABANDONED, .reg Reg.ECC_SEALFAIL, .reg Reg.ECC_FIRSTFAIL, .reg Reg.ECC_REPAIR, .reg Reg.CLK_STAT, .reg Reg.TIM_STAT, .reg Reg.LOG_RINGSTAT, .reg Reg.LOG_CAPTURED, .reg Reg.LOG_COALESCED, .reg Reg.LOG_LOST, .reg Reg.LOG_ORPHANS, .reg Reg.LOG_SQUALLS]

theorem execDirectiveQuiesce_keeps (h : DirHead) (arg : BitVec 64) (s0 : State) :
    KeepsOut execDirectiveQuiesce_parts s0 (execDirectiveQuiesce h arg s0) := by
  unfold execDirectiveQuiesce
  refine KeepsOut.next ?_
  refine Keeps.via (State.runDirective_keeps _ _ _ _) rfl ?_
  exact Keeps.refl _ _

def execDirectiveHandover_parts : List Part := [.rx, .free, .top, .time, .log, .sb, .links, .twin, .ord, .map, .mir, .sch, .flt, .cal, .clk, .pwr, .boot, .reg Reg.GLB_HUBID, .reg Reg.GLB_EVENT, .reg Reg.GLB_DIRSTAT, .reg Reg.GLB_QUIESCE, .block 0x1, .reg Reg.ORD_FWD, .reg Reg.ORD_LINEHOLD, .reg Reg.ORD_FLUSHES, .reg Reg.MAP_REJ, .reg Reg.MIR_CAUSE, .reg Reg.MIR_RBCUR, .reg Reg.MIR_PENDOCC, .reg Reg.MIR_FWDMISS, .reg Reg.MIR_HOSTAT, .reg Reg.MIR_HOCNT, .reg Reg.SCH_SCRUBCFG, .reg Reg.SCH_SCRUBINT, .block 0x6, .reg Reg.CAL_ABANDONED, .reg Reg.ECC_SEALFAIL, .reg Reg.ECC_FIRSTFAIL, .reg Reg.ECC_REPAIR, .reg Reg.CLK_STAT, .reg Reg.TIM_STAT, .reg Reg.LOG_RINGSTAT, .reg Reg.LOG_CAPTURED, .reg Reg.LOG_COALESCED, .reg Reg.LOG_LOST, .reg Reg.LOG_ORPHANS, .reg Reg.LOG_SQUALLS]

theorem execDirectiveHandover_keeps (h : DirHead) (arg : BitVec 64) (s0 : State) :
    KeepsOut execDirectiveHandover_parts s0 (execDirectiveHandover h arg s0) := by
  unfold execDirectiveHandover
  refine KeepsOut.next ?_
  refine Keeps.via (State.runDirective_keeps _ _ _ _) rfl ?_
  exact Keeps.refl _ _

def execDirectiveSoloGrant_parts : List Part := [.rx, .free, .top, .time, .log, .sb, .links, .twin, .ord, .map, .mir, .sch, .flt, .cal, .clk, .pwr, .boot, .reg Reg.GLB_HUBID, .reg Reg.GLB_EVENT, .reg Reg.GLB_DIRSTAT, .reg Reg.GLB_QUIESCE, .block 0x1, .reg Reg.ORD_FWD, .reg Reg.ORD_LINEHOLD, .reg Reg.ORD_FLUSHES, .reg Reg.MAP_REJ, .reg Reg.MIR_CAUSE, .reg Reg.MIR_RBCUR, .reg Reg.MIR_PENDOCC, .reg Reg.MIR_FWDMISS, .reg Reg.MIR_HOSTAT, .reg Reg.MIR_HOCNT, .reg Reg.SCH_SCRUBCFG, .reg Reg.SCH_SCRUBINT, .block 0x6, .reg Reg.CAL_ABANDONED, .reg Reg.ECC_SEALFAIL, .reg Reg.ECC_FIRSTFAIL, .reg Reg.ECC_REPAIR, .reg Reg.CLK_STAT, .reg Reg.TIM_STAT, .reg Reg.LOG_RINGSTAT, .reg Reg.LOG_CAPTURED, .reg Reg.LOG_COALESCED, .reg Reg.LOG_LOST, .reg Reg.LOG_ORPHANS, .reg Reg.LOG_SQUALLS]

theorem execDirectiveSoloGrant_keeps (h : DirHead) (arg : BitVec 64) (s0 : State) :
    KeepsOut execDirectiveSoloGrant_parts s0 (execDirectiveSoloGrant h arg s0) := by
  unfold execDirectiveSoloGrant
  refine KeepsOut.next ?_
  refine Keeps.via (State.runDirective_keeps _ _ _ _) rfl ?_
  exact Keeps.refl _ _

def execDirectiveRebuildStart_parts : List Part := [.rx, .free, .top, .time, .log, .sb, .links, .twin, .ord, .map, .mir, .sch, .flt, .cal, .clk, .pwr, .boot, .reg Reg.GLB_HUBID, .reg Reg.GLB_EVENT, .reg Reg.GLB_DIRSTAT, .reg Reg.GLB_QUIESCE, .block 0x1, .reg Reg.ORD_FWD, .reg Reg.ORD_LINEHOLD, .reg Reg.ORD_FLUSHES, .reg Reg.MAP_REJ, .reg Reg.MIR_CAUSE, .reg Reg.MIR_RBCUR, .reg Reg.MIR_PENDOCC, .reg Reg.MIR_FWDMISS, .reg Reg.MIR_HOSTAT, .reg Reg.MIR_HOCNT, .reg Reg.SCH_SCRUBCFG, .reg Reg.SCH_SCRUBINT, .block 0x6, .reg Reg.CAL_ABANDONED, .reg Reg.ECC_SEALFAIL, .reg Reg.ECC_FIRSTFAIL, .reg Reg.ECC_REPAIR, .reg Reg.CLK_STAT, .reg Reg.TIM_STAT, .reg Reg.LOG_RINGSTAT, .reg Reg.LOG_CAPTURED, .reg Reg.LOG_COALESCED, .reg Reg.LOG_LOST, .reg Reg.LOG_ORPHANS, .reg Reg.LOG_SQUALLS]

theorem execDirectiveRebuildStart_keeps (h : DirHead) (arg : BitVec 64) (s0 : State) :
    KeepsOut execDirectiveRebuildStart_parts s0 (execDirectiveRebuildStart h arg s0) := by
  unfold execDirectiveRebuildStart
  refine KeepsOut.next ?_
  refine Keeps.via (State.runDirective_keeps _ _ _ _) rfl ?_
  exact Keeps.refl _ _

def execDirectiveRebuildStop_parts : List Part := [.rx, .free, .top, .time, .log, .sb, .links, .twin, .ord, .map, .mir, .sch, .flt, .cal, .clk, .pwr, .boot, .reg Reg.GLB_HUBID, .reg Reg.GLB_EVENT, .reg Reg.GLB_DIRSTAT, .reg Reg.GLB_QUIESCE, .block 0x1, .reg Reg.ORD_FWD, .reg Reg.ORD_LINEHOLD, .reg Reg.ORD_FLUSHES, .reg Reg.MAP_REJ, .reg Reg.MIR_CAUSE, .reg Reg.MIR_RBCUR, .reg Reg.MIR_PENDOCC, .reg Reg.MIR_FWDMISS, .reg Reg.MIR_HOSTAT, .reg Reg.MIR_HOCNT, .reg Reg.SCH_SCRUBCFG, .reg Reg.SCH_SCRUBINT, .block 0x6, .reg Reg.CAL_ABANDONED, .reg Reg.ECC_SEALFAIL, .reg Reg.ECC_FIRSTFAIL, .reg Reg.ECC_REPAIR, .reg Reg.CLK_STAT, .reg Reg.TIM_STAT, .reg Reg.LOG_RINGSTAT, .reg Reg.LOG_CAPTURED, .reg Reg.LOG_COALESCED, .reg Reg.LOG_LOST, .reg Reg.LOG_ORPHANS, .reg Reg.LOG_SQUALLS]

theorem execDirectiveRebuildStop_keeps (h : DirHead) (arg : BitVec 64) (s0 : State) :
    KeepsOut execDirectiveRebuildStop_parts s0 (execDirectiveRebuildStop h arg s0) := by
  unfold execDirectiveRebuildStop
  refine KeepsOut.next ?_
  refine Keeps.via (State.runDirective_keeps _ _ _ _) rfl ?_
  exact Keeps.refl _ _

def execDirectiveScrubRate_parts : List Part := [.rx, .free, .top, .time, .log, .sb, .links, .twin, .ord, .map, .mir, .sch, .flt, .cal, .clk, .pwr, .boot, .reg Reg.GLB_HUBID, .reg Reg.GLB_EVENT, .reg Reg.GLB_DIRSTAT, .reg Reg.GLB_QUIESCE, .block 0x1, .reg Reg.ORD_FWD, .reg Reg.ORD_LINEHOLD, .reg Reg.ORD_FLUSHES, .reg Reg.MAP_REJ, .reg Reg.MIR_CAUSE, .reg Reg.MIR_RBCUR, .reg Reg.MIR_PENDOCC, .reg Reg.MIR_FWDMISS, .reg Reg.MIR_HOSTAT, .reg Reg.MIR_HOCNT, .reg Reg.SCH_SCRUBCFG, .reg Reg.SCH_SCRUBINT, .block 0x6, .reg Reg.CAL_ABANDONED, .reg Reg.ECC_SEALFAIL, .reg Reg.ECC_FIRSTFAIL, .reg Reg.ECC_REPAIR, .reg Reg.CLK_STAT, .reg Reg.TIM_STAT, .reg Reg.LOG_RINGSTAT, .reg Reg.LOG_CAPTURED, .reg Reg.LOG_COALESCED, .reg Reg.LOG_LOST, .reg Reg.LOG_ORPHANS, .reg Reg.LOG_SQUALLS]

theorem execDirectiveScrubRate_keeps (h : DirHead) (arg : BitVec 64) (s0 : State) :
    KeepsOut execDirectiveScrubRate_parts s0 (execDirectiveScrubRate h arg s0) := by
  unfold execDirectiveScrubRate
  refine KeepsOut.next ?_
  refine Keeps.via (State.runDirective_keeps _ _ _ _) rfl ?_
  exact Keeps.refl _ _

def execDirectiveCalRestore_parts : List Part := [.rx, .free, .top, .time, .log, .sb, .links, .twin, .ord, .map, .mir, .sch, .flt, .cal, .clk, .pwr, .boot, .reg Reg.GLB_HUBID, .reg Reg.GLB_EVENT, .reg Reg.GLB_DIRSTAT, .reg Reg.GLB_QUIESCE, .block 0x1, .reg Reg.ORD_FWD, .reg Reg.ORD_LINEHOLD, .reg Reg.ORD_FLUSHES, .reg Reg.MAP_REJ, .reg Reg.MIR_CAUSE, .reg Reg.MIR_RBCUR, .reg Reg.MIR_PENDOCC, .reg Reg.MIR_FWDMISS, .reg Reg.MIR_HOSTAT, .reg Reg.MIR_HOCNT, .reg Reg.SCH_SCRUBCFG, .reg Reg.SCH_SCRUBINT, .block 0x6, .reg Reg.CAL_ABANDONED, .reg Reg.ECC_SEALFAIL, .reg Reg.ECC_FIRSTFAIL, .reg Reg.ECC_REPAIR, .reg Reg.CLK_STAT, .reg Reg.TIM_STAT, .reg Reg.LOG_RINGSTAT, .reg Reg.LOG_CAPTURED, .reg Reg.LOG_COALESCED, .reg Reg.LOG_LOST, .reg Reg.LOG_ORPHANS, .reg Reg.LOG_SQUALLS]

theorem execDirectiveCalRestore_keeps (h : DirHead) (arg : BitVec 64) (s0 : State) :
    KeepsOut execDirectiveCalRestore_parts s0 (execDirectiveCalRestore h arg s0) := by
  unfold execDirectiveCalRestore
  refine KeepsOut.next ?_
  refine Keeps.via (State.runDirective_keeps _ _ _ _) rfl ?_
  exact Keeps.refl _ _

def execDirectiveWallOffset_parts : List Part := [.rx, .free, .top, .time, .log, .sb, .links, .twin, .ord, .map, .mir, .sch, .flt, .cal, .clk, .pwr, .boot, .reg Reg.GLB_HUBID, .reg Reg.GLB_EVENT, .reg Reg.GLB_DIRSTAT, .reg Reg.GLB_QUIESCE, .block 0x1, .reg Reg.ORD_FWD, .reg Reg.ORD_LINEHOLD, .reg Reg.ORD_FLUSHES, .reg Reg.MAP_REJ, .reg Reg.MIR_CAUSE, .reg Reg.MIR_RBCUR, .reg Reg.MIR_PENDOCC, .reg Reg.MIR_FWDMISS, .reg Reg.MIR_HOSTAT, .reg Reg.MIR_HOCNT, .reg Reg.SCH_SCRUBCFG, .reg Reg.SCH_SCRUBINT, .block 0x6, .reg Reg.CAL_ABANDONED, .reg Reg.ECC_SEALFAIL, .reg Reg.ECC_FIRSTFAIL, .reg Reg.ECC_REPAIR, .reg Reg.CLK_STAT, .reg Reg.TIM_STAT, .reg Reg.LOG_RINGSTAT, .reg Reg.LOG_CAPTURED, .reg Reg.LOG_COALESCED, .reg Reg.LOG_LOST, .reg Reg.LOG_ORPHANS, .reg Reg.LOG_SQUALLS]

theorem execDirectiveWallOffset_keeps (h : DirHead) (arg : BitVec 64) (s0 : State) :
    KeepsOut execDirectiveWallOffset_parts s0 (execDirectiveWallOffset h arg s0) := by
  unfold execDirectiveWallOffset
  refine KeepsOut.next ?_
  refine Keeps.via (State.runDirective_keeps _ _ _ _) rfl ?_
  exact Keeps.refl _ _

def execDirectiveRankRetire_parts : List Part := [.rx, .free, .top, .time, .log, .sb, .links, .twin, .ord, .map, .mir, .sch, .flt, .cal, .clk, .pwr, .boot, .reg Reg.GLB_HUBID, .reg Reg.GLB_EVENT, .reg Reg.GLB_DIRSTAT, .reg Reg.GLB_QUIESCE, .block 0x1, .reg Reg.ORD_FWD, .reg Reg.ORD_LINEHOLD, .reg Reg.ORD_FLUSHES, .reg Reg.MAP_REJ, .reg Reg.MIR_CAUSE, .reg Reg.MIR_RBCUR, .reg Reg.MIR_PENDOCC, .reg Reg.MIR_FWDMISS, .reg Reg.MIR_HOSTAT, .reg Reg.MIR_HOCNT, .reg Reg.SCH_SCRUBCFG, .reg Reg.SCH_SCRUBINT, .block 0x6, .reg Reg.CAL_ABANDONED, .reg Reg.ECC_SEALFAIL, .reg Reg.ECC_FIRSTFAIL, .reg Reg.ECC_REPAIR, .reg Reg.CLK_STAT, .reg Reg.TIM_STAT, .reg Reg.LOG_RINGSTAT, .reg Reg.LOG_CAPTURED, .reg Reg.LOG_COALESCED, .reg Reg.LOG_LOST, .reg Reg.LOG_ORPHANS, .reg Reg.LOG_SQUALLS]

theorem execDirectiveRankRetire_keeps (h : DirHead) (arg : BitVec 64) (s0 : State) :
    KeepsOut execDirectiveRankRetire_parts s0 (execDirectiveRankRetire h arg s0) := by
  unfold execDirectiveRankRetire
  refine KeepsOut.next ?_
  refine Keeps.via (State.runDirective_keeps _ _ _ _) rfl ?_
  exact Keeps.refl _ _

def execDirectiveRankReadmit_parts : List Part := [.rx, .free, .top, .time, .log, .sb, .links, .twin, .ord, .map, .mir, .sch, .flt, .cal, .clk, .pwr, .boot, .reg Reg.GLB_HUBID, .reg Reg.GLB_EVENT, .reg Reg.GLB_DIRSTAT, .reg Reg.GLB_QUIESCE, .block 0x1, .reg Reg.ORD_FWD, .reg Reg.ORD_LINEHOLD, .reg Reg.ORD_FLUSHES, .reg Reg.MAP_REJ, .reg Reg.MIR_CAUSE, .reg Reg.MIR_RBCUR, .reg Reg.MIR_PENDOCC, .reg Reg.MIR_FWDMISS, .reg Reg.MIR_HOSTAT, .reg Reg.MIR_HOCNT, .reg Reg.SCH_SCRUBCFG, .reg Reg.SCH_SCRUBINT, .block 0x6, .reg Reg.CAL_ABANDONED, .reg Reg.ECC_SEALFAIL, .reg Reg.ECC_FIRSTFAIL, .reg Reg.ECC_REPAIR, .reg Reg.CLK_STAT, .reg Reg.TIM_STAT, .reg Reg.LOG_RINGSTAT, .reg Reg.LOG_CAPTURED, .reg Reg.LOG_COALESCED, .reg Reg.LOG_LOST, .reg Reg.LOG_ORPHANS, .reg Reg.LOG_SQUALLS]

theorem execDirectiveRankReadmit_keeps (h : DirHead) (arg : BitVec 64) (s0 : State) :
    KeepsOut execDirectiveRankReadmit_parts s0 (execDirectiveRankReadmit h arg s0) := by
  unfold execDirectiveRankReadmit
  refine KeepsOut.next ?_
  refine Keeps.via (State.runDirective_keeps _ _ _ _) rfl ?_
  exact Keeps.refl _ _

def execDirectiveUnknown_parts : List Part := [.rx, .free, .top, .time, .log, .sb, .links, .twin, .ord, .map, .mir, .sch, .flt, .cal, .clk, .pwr, .boot, .reg Reg.GLB_HUBID, .reg Reg.GLB_EVENT, .reg Reg.GLB_DIRSTAT, .reg Reg.GLB_QUIESCE, .block 0x1, .reg Reg.ORD_FWD, .reg Reg.ORD_LINEHOLD, .reg Reg.ORD_FLUSHES, .reg Reg.MAP_REJ, .reg Reg.MIR_CAUSE, .reg Reg.MIR_RBCUR, .reg Reg.MIR_PENDOCC, .reg Reg.MIR_FWDMISS, .reg Reg.MIR_HOSTAT, .reg Reg.MIR_HOCNT, .reg Reg.SCH_SCRUBCFG, .reg Reg.SCH_SCRUBINT, .block 0x6, .reg Reg.CAL_ABANDONED, .reg Reg.ECC_SEALFAIL, .reg Reg.ECC_FIRSTFAIL, .reg Reg.ECC_REPAIR, .reg Reg.CLK_STAT, .reg Reg.TIM_STAT, .reg Reg.LOG_RINGSTAT, .reg Reg.LOG_CAPTURED, .reg Reg.LOG_COALESCED, .reg Reg.LOG_LOST, .reg Reg.LOG_ORPHANS, .reg Reg.LOG_SQUALLS]

theorem execDirectiveUnknown_keeps (h : DirHead) (dcode : Byte) (arg : BitVec 64) (s0 : State) :
    KeepsOut execDirectiveUnknown_parts s0 (execDirectiveUnknown h dcode arg s0) := by
  unfold execDirectiveUnknown
  refine KeepsOut.next ?_
  refine Keeps.via (State.runDirective_keeps _ _ _ _) rfl ?_
  exact Keeps.refl _ _

def execSbDirective_parts : List Part := [.rx, .free, .top, .time, .log, .sb, .links, .twin, .ord, .map, .mir, .sch, .flt, .cal, .clk, .pwr, .boot, .reg Reg.GLB_HUBID, .reg Reg.GLB_EVENT, .reg Reg.GLB_DIRSTAT, .reg Reg.GLB_QUIESCE, .block 0x1, .reg Reg.ORD_FWD, .reg Reg.ORD_LINEHOLD, .reg Reg.ORD_FLUSHES, .reg Reg.MAP_REJ, .reg Reg.MIR_CAUSE, .reg Reg.MIR_RBCUR, .reg Reg.MIR_PENDOCC, .reg Reg.MIR_FWDMISS, .reg Reg.MIR_HOSTAT, .reg Reg.MIR_HOCNT, .reg Reg.SCH_SCRUBCFG, .reg Reg.SCH_SCRUBINT, .block 0x6, .reg Reg.CAL_ABANDONED, .reg Reg.ECC_SEALFAIL, .reg Reg.ECC_FIRSTFAIL, .reg Reg.ECC_REPAIR, .reg Reg.CLK_STAT, .reg Reg.TIM_STAT, .reg Reg.LOG_RINGSTAT, .reg Reg.LOG_CAPTURED, .reg Reg.LOG_COALESCED, .reg Reg.LOG_LOST, .reg Reg.LOG_ORPHANS, .reg Reg.LOG_SQUALLS]

theorem execSbDirective_keeps (dcode : Byte) (epoch : Word) (arg : BitVec 64) (s0 : State) :
    KeepsOut execSbDirective_parts s0 (execSbDirective dcode epoch arg s0) := by
  unfold execSbDirective
  refine KeepsOut.next ?_
  extract_lets -lift -merge -useContext -underBinder +onlyGivenNames x0
  try clear_value x0
  refine Keeps.ite ?_ ?_
  · refine Keeps.via (Keeps.upd_sb _ _) rfl ?_
    exact Keeps.refl _ _
  · refine Keeps.via (State.sideDirective_keeps _ _) rfl ?_
    exact Keeps.refl _ _

def State.serveNext_parts : List Part := [.rx, .free, .top, .time, .log, .sb, .links, .twin, .ord, .map, .mir, .sch, .flt, .cal, .clk, .pwr, .boot, .regs]

theorem State.serveNext_keeps (s0 : State) :
    KeepsOpt State.serveNext_parts s0 (State.serveNext s0) := by
  unfold State.serveNext
  refine KeepsOpt.map (fun _ => ?_)
  · extract_lets -lift -merge -useContext -underBinder +onlyGivenNames x0 x1
    have h1 : Keeps State.serveNext_parts s0 x1 := by
      unfold x1
      refine Keeps.via (Keeps.upd_sb _ _) rfl ?_
      exact Keeps.refl _ _
    split
    · refine Keeps.via (State.sideDirective_keeps _ _) rfl ?_
      exact h1
    · refine Keeps.via (State.serveAccess_keeps _ _) rfl ?_
      exact h1

end Sys2Proof.Machine
end

