-- ==== Sys2Proof/Laws/KeepsTicks.lean ====
section
/-!
SUPPORT. The frames of the operations of Machine/Ticks.lean: the parts of the state each may change, and that each keeps the canonical
form. A proof of a frame cites these and unfolds nothing.
-/

namespace Sys2Proof.Machine

def State.mgTick_parts : List Part := [.time, .log, .sb, .clk, .reg Reg.GLB_EVENT, .reg Reg.GLB_DIRSTAT, .reg Reg.TIM_STAT, .reg Reg.LOG_RINGSTAT, .reg Reg.LOG_CAPTURED, .reg Reg.LOG_COALESCED, .reg Reg.LOG_LOST, .reg Reg.LOG_ORPHANS, .reg Reg.LOG_SQUALLS]

theorem State.mgTick_keeps (s0 : State) :
    Keeps State.mgTick_parts s0 (State.mgTick s0) := by
  unfold State.mgTick
  extract_lets -lift -merge -useContext -underBinder +onlyGivenNames x0
  have h0 : Keeps State.mgTick_parts s0 x0 := by
    unfold x0
    refine Keeps.ite ?_ ?_
    · refine Keeps.via (State.tickTime_keeps _) rfl ?_
      exact Keeps.refl _ _
    · exact Keeps.refl _ _
  extract_lets -lift -merge -useContext -underBinder +onlyGivenNames x1
  try clear_value x1
  extract_lets -lift -merge -useContext -underBinder +onlyGivenNames x2 x3
  have h3 : Keeps State.mgTick_parts s0 x3 := by
    unfold x3
    refine Keeps.via (Keeps.upd_clk _ _) rfl ?_
    exact h0
  refine Keeps.via (State.notePort_keeps _) rfl ?_
  refine Keeps.ite ?_ ?_
  · refine Keeps.via (State.memTick_keeps _) rfl ?_
    exact h3
  · exact h3

def State.coreTick_parts : List Part := [.rx, .free, .top, .time, .log, .sb, .links, .twin, .ord, .map, .mir, .sch, .flt, .cal, .clk, .pwr, .gust, .fuse, .boot, .flash, .fmt, .dram, .regs]

theorem State.coreTick_keeps (s0 : State) :
    Keeps State.coreTick_parts s0 (State.coreTick s0) := by
  unfold State.coreTick
  extract_lets -lift -merge -useContext -underBinder +onlyGivenNames x0 x1 x2 x3
  have h3 : Keeps State.coreTick_parts s0 x3 := by
    unfold x3
    refine Keeps.via (Keeps.upd_time_ord_clk _ _ _ _) rfl ?_
    exact Keeps.refl _ _
  extract_lets -lift -merge -useContext -underBinder +onlyGivenNames x4
  have h4 : Keeps State.coreTick_parts s0 x4 := by
    unfold x4
    refine Keeps.via (State.tickStop_keeps _) rfl ?_
    refine Keeps.via (State.endBars_keeps _) rfl ?_
    refine Keeps.via (State.makeChange_keeps _) rfl ?_
    exact h3
  extract_lets -lift -merge -useContext -underBinder +onlyGivenNames x5
  have h5 : Keeps State.coreTick_parts s0 x5 := by
    unfold x5
    refine Keeps.ite ?_ ?_
    · refine Keeps.via (State.tickTime_keeps _) rfl ?_
      exact h4
    · exact h4
  refine Keeps.ite ?_ ?_
  · refine Keeps.via (State.mgTick_keeps _) rfl ?_
    exact h5
  · exact h5

def State.aonTick_parts : List Part := [.rx, .free, .top, .time, .log, .sb, .links, .twin, .ord, .map, .mir, .sch, .flt, .cal, .clk, .pwr, .gust, .fuse, .boot, .flash, .fmt, .dram, .regs]

theorem State.aonTick_keeps (s0 : State) :
    Keeps State.aonTick_parts s0 (State.aonTick s0) := by
  unfold State.aonTick
  extract_lets -lift -merge -useContext -underBinder +onlyGivenNames x0 x1
  have h1 : Keeps State.aonTick_parts s0 x1 := by
    unfold x1
    refine Keeps.via (Keeps.upd_time _ _) rfl ?_
    exact Keeps.refl _ _
  refine Keeps.ite ?_ ?_
  · refine Keeps.via (State.tickStop_keeps _) rfl ?_
    refine Keeps.via (State.tickTime_keeps _) rfl ?_
    exact h1
  · exact h1

def State.tick_parts : List Part := [.rx, .free, .top, .time, .log, .sb, .links, .twin, .ord, .map, .mir, .sch, .flt, .cal, .clk, .pwr, .gust, .fuse, .boot, .flash, .fmt, .dram, .regs]

theorem State.tick_keeps (s0 : State) :
    Keeps State.tick_parts s0 (State.tick s0) := by
  unfold State.tick
  refine Keeps.ite ?_ ?_
  · refine Keeps.via (State.coreTick_keeps _) rfl ?_
    exact Keeps.refl _ _
  · refine Keeps.via (State.aonTick_keeps _) rfl ?_
    exact Keeps.refl _ _

end Sys2Proof.Machine
end

