-- ==== Sys2Proof/Laws/Shared.lean ====
section
/-!
SUPPORT. One spec lemma for each shared service: what entering a top-level state and capturing an event leave behind, and how a
completed command's frame is shown.
-/

namespace Sys2Proof.Machine

/-! ### Frames -/

/-- A command's frame and effect from the frame lemma of its meaning. -/
theorem Runs.intro {s t : State} {c : Instr} {P Q : List Part} {E : State → Prop} (k : KeepsOut Q s (exec c s)) (ca : s.canon)
    (h : exec c s = .next t) (w : partsWithin Q P = true) (e : E t) : Runs s c P E :=
  ⟨t, h, (((k t h).mono w) ca).2, e⟩

theorem Keeps.canon {P : List Part} {s t : State} (k : Keeps P s t) (c : s.canon) : t.canon := (k c).1

theorem Keeps.same {P : List Part} {s t : State} (k : Keeps P s t) (c : s.canon) (p : Part)
    (u : P.any (Part.covers · p) = false) : Part.same s t p := (k c).2 p u

/-- A register outside the frame reads as before. -/
theorem Keeps.reg {P : List Part} {s t : State} (k : Keeps P s t) (c : s.canon) {a : Nat}
    (u : P.any (Part.covers · (.reg a)) = false) : t.reg a = s.reg a := (k c).2 (.reg a) u

theorem Keeps.fld {P : List Part} {s t : State} (k : Keeps P s t) (c : s.canon) {f : Fld}
    (u : P.any (Part.covers · (.reg f.addr)) = false) : t.fld f = s.fld f := by
  rw [State.fld, k.reg c u, State.fld]

theorem Keeps.flag {P : List Part} {s t : State} (k : Keeps P s t) (c : s.canon) {f : Fld}
    (u : P.any (Part.covers · (.reg f.addr)) = false) : t.flag f = s.flag f := by
  rw [State.flag, k.fld c u, State.flag]

/-! ### Entering a top-level state -/

/-- The top level right after a transition (R23, R26). -/
theorem State.goTo_top {s : State} (c : s.canon) (dst : TopState) (cause : Byte) :
    (s.goTo dst cause).top = { s.top with state := dst, prev := s.top.state, cause := cause } := by
  have k := (State.afterEntry_keeps { s with top := { s.top with state := dst, prev := s.top.state, cause := cause } }
    dst s.top.state cause).same c .top (by decide +kernel)
  unfold Part.same at k
  unfold State.goTo
  exact k

/-! ### The event ring -/

/-- An event reaches the sideband only as an IBI. -/
theorem State.raiseIbi_sb (s : State) : ∃ i, s.raiseIbi.sb = { s.sb with ibi := i } := by
  unfold State.raiseIbi
  split
  · exact ⟨_, rfl⟩
  · split
    · exact ⟨_, rfl⟩
    · split
      · exact ⟨_, rfl⟩
      · exact ⟨_, rfl⟩

/-- The free entries are dropped from the oldest on, as far as every reader has passed (R502). -/
theorem State.freeRing_ring (s : State) : ∃ k, k ≤ s.log.rdLog ∧
    s.freeRing.log.ring = s.log.ring.drop k ∧ s.freeRing.log.rdLog = s.log.rdLog - k := by
  refine ⟨_, ?_, rfl, rfl⟩
  suffices h : ∀ (l : List Nat) (m : Nat), m ≤ s.log.rdLog →
      l.foldl (fun m n => match s.reader n with | some r => min m r | none => m) m ≤ s.log.rdLog from
    h _ _ (Nat.min_le_left _ _)
  intro l
  induction l with
  | nil => exact fun m h => h
  | cons n r ih =>
    intro m h
    refine ih _ ?_
    dsimp only
    split
    · exact Nat.le_trans (Nat.min_le_left _ _) h
    · exact h

theorem State.endDir_log (s : State) (d : Nat) : (s.endDir d).log = s.log := by
  unfold State.endDir
  extract_lets b
  split <;> rfl

theorem State.endDir_top (s : State) (d : Nat) : (s.endDir d).top = s.top := by
  unfold State.endDir
  extract_lets b
  split <;> rfl

/-- With the ring far from its limits no reader is cut off (R502). -/
theorem State.cutFar_eq {s : State} (h : s.log.ring.length < 768) : s.cutFar = s := by
  have step : ∀ (l : List Port), l.foldl (fun s p =>
      match s.reader p.idx with
      | some pos =>
        if s.log.ring.length - pos ≥ 768 then s.cutOff p.idx pos (fun s n => s.setReader p.idx (some n)) else s
      | none => s) s = s := by
    intro l
    induction l with
    | nil => rfl
    | cons p r ih =>
      rw [List.foldl_cons]
      split
      · rw [if_neg (by omega)]; exact ih
      · exact ih
  unfold State.cutFar
  extract_lets x
  have hx : x = s := step uPorts
  rw [hx, if_neg (by omega)]

theorem State.pushEntry_log (s : State) (e : RingEntry) : (s.pushEntry e).log = { s.log with ring := s.log.enter e } := rfl

theorem LogSt.ofTick_le (l : LogSt) (e : RingEntry) : l.ofTick e ≤ l.ring.length - l.rdLog := by
  have step : ∀ (t : Tab (Option Nat)) (m : Nat), m ≤ t.foldl (fun m p => max m (p.2.getD 0)) m := by
    intro t
    induction t with
    | nil => exact fun m => Nat.le_refl m
    | cons p r ih => exact fun m => Nat.le_trans (Nat.le_max_left ..) (ih _)
  unfold LogSt.ofTick
  extract_lets passed
  have h : l.rdLog ≤ passed := Nat.le_trans (Nat.le_max_left ..) (step _ _)
  refine Nat.le_trans (List.takeWhile_sublist _).length_le ?_
  rw [List.length_reverse, List.length_drop]
  omega

/-- An entry put into the ring makes it one longer; what the log writer has passed stays as it is (R499). -/
theorem LogSt.enter_take (l : LogSt) (e : RingEntry) {k : Nat} (h : k ≤ l.rdLog) (h' : l.rdLog ≤ l.ring.length) :
    (l.enter e).length = l.ring.length + 1 ∧ (l.enter e).take k = l.ring.take k := by
  have b := l.ofTick_le e
  unfold LogSt.enter
  extract_lets k' tail low placed
  have hk : k ≤ k' ∧ k' ≤ l.ring.length := by
    simp only [k']
    split <;> omega
  have hlow : low.length ≤ tail.length := (List.takeWhile_sublist _).length_le
  have ht : tail.length = l.ring.length - k' := List.length_drop
  have hp : placed.length = tail.length + 1 := by
    simp only [placed, List.length_append, List.length_cons, List.length_drop]
    omega
  refine ⟨?_, ?_⟩
  · rw [List.length_append, List.length_zipWith, hp, List.length_append, List.length_map, List.length_take]
    simp
    omega
  · rw [List.take_append_of_le_length (by rw [List.length_take]; omega), List.take_take, Nat.min_eq_left hk.1]

/-- What stands in the ring past the log writer, and the entry put in, stand in it afterwards with their codes, data and stamps; only
numbers move (R499). -/
theorem LogSt.mem_enter (l : LogSt) (e : RingEntry) (h : l.rdLog ≤ l.ring.length) {x : RingEntry}
    (m : x = e ∨ x ∈ l.ring.drop l.rdLog) : ∃ q, { x with seq := q } ∈ (l.enter e).drop l.rdLog := by
  have b := l.ofTick_le e
  unfold LogSt.enter
  extract_lets k' tail low placed
  have hk : l.rdLog ≤ k' ∧ k' ≤ l.ring.length := by
    simp only [k']
    split <;> omega
  have hlow : low.length ≤ tail.length := (List.takeWhile_sublist _).length_le
  have hp : placed.length = tail.length + 1 := by
    simp only [placed, List.length_append, List.length_cons, List.length_drop]
    omega
  have zip : ∀ y ∈ placed, ∃ q, { y with seq := q } ∈ placed.zipWith (fun (x : RingEntry) q => { x with seq := q }) (tail.map (·.seq) ++ [e.seq]) := by
    intro y hy
    obtain ⟨i, hi, rfl⟩ := List.mem_iff_getElem.1 hy
    refine ⟨(tail.map (·.seq) ++ [e.seq])[i]'(by simp; omega), ?_⟩
    refine List.mem_iff_getElem.2 ⟨i, ?_, ?_⟩
    · rw [List.length_zipWith, List.length_append (as := tail.map _), List.length_map, List.length_singleton]
      omega
    · rw [List.getElem_zipWith]
  rw [List.drop_append_of_le_length (by rw [List.length_take]; omega)]
  rcases m with rfl | m
  · obtain ⟨q, hq⟩ := zip x (by simp [placed])
    exact ⟨q, List.mem_append_right _ hq⟩
  · have split' : l.ring.drop l.rdLog = (l.ring.take k').drop l.rdLog ++ tail := by
      simp only [tail]
      rw [← List.drop_append_of_le_length (by rw [List.length_take]; omega), List.take_append_drop]
    rw [split', List.mem_append] at m
    rcases m with m | m
    · exact ⟨x.seq, List.mem_append_left _ m⟩
    · have : x ∈ placed := by
        have e' : tail = low ++ tail.drop low.length := by
          have w := List.takeWhile_append_dropWhile (p := fun x : RingEntry => decide (x.code ≤ e.code)) (l := tail)
          conv => rhs; arg 2; rw [← w, List.drop_left]
          exact w.symm
        rw [e', List.mem_append] at m
        simp only [placed, List.mem_append, List.mem_cons]
        exact m.imp_right Or.inr
      obtain ⟨q, hq⟩ := zip x this
      exact ⟨q, List.mem_append_right _ hq⟩

theorem State.raiseIbi_log (s : State) : s.raiseIbi.log = s.log := by
  unfold State.raiseIbi
  split
  · rfl
  · split
    · rfl
    · split <;> rfl

/-- Below the limits Squall does not begin (R504). -/
theorem State.trySquall_eq {s : State} (h : s.log.ring.length < 768) : s.trySquall = s.freeRing := by
  obtain ⟨k, -, e, -⟩ := s.freeRing_ring
  unfold State.trySquall
  extract_lets x
  have hx : x = s.freeRing := rfl
  rw [hx, if_pos]
  have : s.freeRing.log.ring.length < 768 := by rw [e, List.length_drop]; omega
  simp [this]

/-- Freeing what every reader has passed leaves what the log writer has still to write. -/
theorem State.freeRing_unwritten (s : State) : s.freeRing.log.ring.drop s.freeRing.log.rdLog = s.log.ring.drop s.log.rdLog := by
  obtain ⟨k, hk, e, r⟩ := s.freeRing_ring
  rw [e, r, List.drop_drop]
  congr 1
  omega

/-- An entry put into an attentive ring: the entries still to be written are those from before, with it among them. -/
theorem State.pushed_unwritten {s : State} (hr : s.log.ring.length < 767) (e : RingEntry) :
    (s.pushEntry e).cutFar.trySquall.raiseIbi.log.ring.drop (s.pushEntry e).cutFar.trySquall.raiseIbi.log.rdLog =
      (s.log.enter e).drop s.log.rdLog ∨ s.log.ring.length < s.log.rdLog := by
  by_cases hl : s.log.rdLog ≤ s.log.ring.length
  · refine Or.inl ?_
    have h1 : (s.pushEntry e).log.ring.length < 768 := by
      rw [State.pushEntry_log]
      show (s.log.enter e).length < 768
      rw [(s.log.enter_take e (Nat.zero_le _) hl).1]
      omega
    rw [State.cutFar_eq h1, State.trySquall_eq h1, State.raiseIbi_log, State.freeRing_unwritten, State.pushEntry_log]
  · exact Or.inr (by omega)

theorem State.pushed_time (s : State) (e : RingEntry) (hr : s.log.ring.length < 767) (hl : s.log.rdLog ≤ s.log.ring.length) :
    (s.pushEntry e).cutFar.trySquall.raiseIbi.time = s.time := by
  have h1 : (s.pushEntry e).log.ring.length < 768 := by
    rw [State.pushEntry_log]
    show (s.log.enter e).length < 768
    rw [(s.log.enter_take e (Nat.zero_le _) hl).1]
    omega
  rw [State.cutFar_eq h1, State.trySquall_eq h1]
  unfold State.raiseIbi
  split
  · rfl
  · split
    · rfl
    · split <;> rfl

/-- An entry of this tick put into an attentive ring is logged. -/
theorem State.pushed_logged {s : State} (hr : s.log.ring.length < 767) (hl : s.log.rdLog ≤ s.log.ring.length) (e : RingEntry)
    (he : e.stamp = s.stamp) : Logged e.code e.data (s.pushEntry e).cutFar.trySquall.raiseIbi := by
  obtain ⟨q, hq⟩ := s.log.mem_enter e hl (Or.inl rfl)
  refine ⟨{ e with seq := q }, ?_, rfl, rfl, ?_⟩
  · rcases State.pushed_unwritten hr e with h | h
    · rw [h]; exact hq
    · omega
  · rw [State.stamp, State.nowNs, State.pushed_time s e hr hl]
    exact he

/-- What is logged stays logged while further entries are put in. -/
theorem Logged.pushed {s : State} {code : BitVec 16} {data : Word} (h : Logged code data s) (hr : s.log.ring.length < 767)
    (hl : s.log.rdLog ≤ s.log.ring.length) (e : RingEntry) : Logged code data (s.pushEntry e).cutFar.trySquall.raiseIbi := by
  obtain ⟨x, hx, rfl, rfl, hs⟩ := h
  obtain ⟨q, hq⟩ := s.log.mem_enter e hl (Or.inr hx)
  refine ⟨{ x with seq := q }, ?_, rfl, rfl, ?_⟩
  · rcases State.pushed_unwritten hr e with h | h
    · rw [h]; exact hq
    · omega
  · rw [State.stamp, State.nowNs, State.pushed_time s e hr hl]
    exact hs

/-- A captured event that opens or closes no interval stands as the newest entry of an attentive ring (R499, R501). -/
theorem State.capture_logged {s : State} (h : Attentive s) {code : BitVec 16} (hp : intervalOf code = .plain) (data count : Word) :
    Logged code data (s.capture code data count) := by
  obtain ⟨ha, hs, hr, hl, -⟩ := h
  replace hr : s.log.ring.length < 767 := Nat.lt_trans hr (by decide)
  unfold State.capture
  rw [if_neg (by simp [ha])]
  have key : ∀ x : State, x.log = s.log → Logged code data
      (((x.bump Reg.LOG_CAPTURED).takeSeq.pushEntry (x.mkEntry code data count)).cutFar.trySquall.raiseIbi) := fun x hx =>
    State.pushed_logged (s := (x.bump Reg.LOG_CAPTURED).takeSeq) (e := x.mkEntry code data count)
      (by show x.log.ring.length < 767; rw [hx]; exact hr) (by show x.log.rdLog ≤ x.log.ring.length; rw [hx]; exact hl) rfl
  extract_lets -lift -merge -useContext -underBinder +onlyGivenNames x
  have hx : x.log = s.log := by
    show (match endsDir code with | some d => s.endDir d | none => s).log = s.log
    cases endsDir code with
    | none => rfl
    | some d => exact State.endDir_log s d
  have hb : ((x.bump Reg.LOG_CAPTURED).takeSeq).log.ring = x.log.ring ∧ ((x.bump Reg.LOG_CAPTURED).takeSeq).log.squall = x.log.squall :=
    ⟨rfl, rfl⟩
  have hr' : ((x.bump Reg.LOG_CAPTURED).takeSeq).log.ring.length < 767 := by rw [hb.1, hx]; exact hr
  have hs' : ((x.bump Reg.LOG_CAPTURED).takeSeq).log.squall = false := by rw [hb.2, hx]; exact hs
  have kx := key x hx
  rw [hp]
  dsimp only
  generalize (x.bump Reg.LOG_CAPTURED).takeSeq = y at *
  rw [if_pos (show y.log.ring.length < 1024 by omega), hs', if_neg (c := y.log.ring.length ≥ 1008) (by omega)]
  simp only [Bool.false_and, Bool.false_eq_true, if_false]
  split <;> exact kx


end Sys2Proof.Machine
end

