-- ==== Sys2Proof/Tests/Slice0.lean ====
section
/-!
SUPPORT. Tests of the model on fixed values, and for each obligation with hypotheses a state and operands that meet them.
-/

set_option maxRecDepth 20000
set_option Elab.async false
set_option linter.unusedVariables false

namespace Sys2Proof.Tests

open Machine

/-- The canonical form, as a test. -/
def canonTest (s : State) : Bool :=
  Tab.wf regReset s.regs && Tab.wf (fun _ => ({} : LinkSt)) s.links && Tab.wf (fun _ => (0xFF : Byte)) s.flash &&
    Tab.wf (blankSymbol s.fmt) s.dram

theorem canonOf {s : State} (h : canonTest s = true) : s.canon := by
  simp only [canonTest, Bool.and_eq_true] at h
  exact ⟨h.1.1.1, h.1.1.2, h.1.2, h.2⟩

/-- The state after reset, in another top-level state. -/
def inState (x : TopState) : State := { State.reset with top := { State.reset.top with state := x } }

/-- The same with the core domain on. -/
def coreIn (x : TopState) : State := { State.reset with top := { State.reset.top with state := x, coreOn := true } }

/-- A state taken to `TRAIN`. -/
def inTrain (s : State) : State := { s with top := { s.top with state := .train } }

/-- The AON domain is off. -/
def aonDown : State := { State.reset with top := { State.reset.top with aonOn := false } }

/-- In `SERVICE` with a trigger registered. -/
def triggered : State := { coreIn .service with top := { (coreIn .service).top with trigger := some 1 } }

/-- A port in `SERVICE` with credits to spare. -/
def upLink : LinkSt :=
  { lstate := .service, granted := { req := 9, rd := 9, lq := 9, wd := 9, mg := 9, ev := 9 },
    mine := { req := 9, rd := 9, lq := 9, wd := 9, mg := 9, ev := 9 }, gotCredit := true }

/-- The hub in a top-level state with U1 and T in `SERVICE`. -/
def linked (x : TopState) : State := ((coreIn x).setLink .u1 upLink).setLink .t upLink

/-- A calibration record of rank 0, as its 1,020 bytes. -/
def recTest : List Byte := leBytes 0x434C5243 4 ++ [0, 1] ++ List.replicate 1014 0

/-- In `SERVICE` with rank 0 trained, its record live and calibration enabled. -/
def calIn (c : CalSt → CalSt) : State :=
  ((({ linked .service with flt := { ranks := [(0, { trained := true })] }, cal := c { live := [(0, recTest)] } }).setFld
    Fld.CAL_CFG.CAL_EN 1).setFld (Fld.CLK_DLL.LOCKED 0) 1)

/-- A record with four settings changed, and what a run then steps. -/
def recNext : List Byte := (elRcvEn 2).put ((elRdVref 7).put ((elRdDly 3).put recTest 9) 2) 1000

def settingsDue : List BreezeEl :=
  (measuredElements.filter fun e => e.get recTest != e.get recNext).map fun e => .setting e.off e.bits

/-- A run of rank 0 in its stepping step, the receivers about to leave. -/
def steppingTo (r : CalRun) : State :=
  { calIn (fun c => { c with runs := [(0, some r)] }) with sch := [(0, { leave := true })] }

/-- A directory record of the CFG flash, and its bytes in the directory's first slot. -/
def dirTest : DirRec := { seq := 1, pref := 1, state := [2, 1], tries := 2 }

def dirBytes : Tab Byte := ((List.range 64).zip dirTest.bytes).filter fun x => x.2 != 0xFF

theorem get_above {t : Tab Byte} {n : Nat} (h : t.all (fun p => decide (p.1 < n)) = true) {a : Nat} (k : n ≤ a) :
    Tab.get (fun _ => (0xFF : Byte)) t a = 0xFF := by
  induction t with
  | nil => rfl
  | cons p r ih =>
    simp only [List.all_cons, Bool.and_eq_true, decide_eq_true_eq] at h
    rw [Tab.get, if_neg (by omega)]
    exact ih h.2

theorem foldl_still {α β : Type} (f : β → α → β) (l : List α) (b : β) (h : ∀ x ∈ l, f b x = b) : l.foldl f b = b := by
  induction l with
  | nil => rfl
  | cons x r ih =>
    rw [List.foldl_cons, h x (List.mem_cons_self ..)]
    exact ih fun y hy => h y (List.mem_cons_of_mem _ hy)

theorem dirAt_above {s : State} (h : s.flash.all (fun p => decide (p.1 < 64)) = true) {i : Nat} (k : 1 ≤ i) : s.dirAt i = none := by
  have b : s.flashBytes (64 * i) 64 = List.replicate 64 0xFF := by
    refine List.ext_getElem (by simp [State.flashBytes]) fun j _ _ => ?_
    simp only [State.flashBytes, State.flashByte, List.getElem_map, List.getElem_range, List.getElem_replicate]
    exact get_above h (by omega)
  unfold State.dirAt
  rw [b]
  rfl

theorem directory_low {s : State} (h : s.flash.all (fun p => decide (p.1 < 64)) = true) :
    s.directory = (s.dirAt 0).map fun d => (0, d) := by
  unfold State.directory
  rw [show List.range 1024 = 0 :: (List.range 1023).map Nat.succ from List.range_succ_eq_map, List.foldl_cons]
  rw [foldl_still]
  · cases s.dirAt 0 <;> rfl
  · intro x hx
    obtain ⟨y, -, rfl⟩ := List.mem_map.1 hx
    rw [dirAt_above h (Nat.succ_pos y)]

/-- A continuation on a word whose value is computed first. -/
def forced {α : Type} (c : Word) (k : Word → α) : α :=
  match c.toNat with
  | 0 => k 0
  | n + 1 => k (BitVec.ofNat 32 (n + 1))

theorem forced_eq {α : Type} (c : Word) (k : Word → α) : forced c k = k c := by
  unfold forced
  split
  · next h => rw [show c = 0 from BitVec.eq_of_toNat_eq (by simpa using h)]
  · next n h => rw [show n + 1 = c.toNat from h.symm, BitVec.ofNat_toNat, BitVec.setWidth_eq]

/-- The CRC-32C of a long byte string, one byte at a time. -/
def crcRun : List Byte → Word → Word
  | [], c => c
  | x :: l, c => forced (crc32Bits 8 (c ^^^ BitVec.setWidth 32 x)) (crcRun l)

theorem crcRun_eq (b : List Byte) (c : Word) :
    b.foldl (fun (c : Word) (x : Byte) => crc32Bits 8 (c ^^^ BitVec.setWidth 32 x)) c = crcRun b c := by
  induction b generalizing c with
  | nil => rfl
  | cons x l ih => rw [List.foldl_cons, ih, crcRun, forced_eq]

theorem crc32c_run (b : List Byte) : crc32c b = crcRun b 0xFFFFFFFF ^^^ 0xFFFFFFFF := by rw [crc32c, crcRun_eq]

/-! ### The hypotheses of the obligations can be met -/

/-- What each clause of `Obligations.SourcesRun` asks for can be met. -/
theorem test_witness_sources_run :
    (∃ (s : State), s.canon ∧ s.top.state = .off ∧ (s.flag Fld.PWR_FEEDSTAT.INWIN_A = false ∧ s.flag Fld.PWR_FEEDSTAT.INWIN_B =
      false)) ∧
    (∃ (s : State), s.canon ∧ (s.top.state ≠ .off ∨ ¬ (s.flag Fld.PWR_FEEDSTAT.INWIN_A = false ∧ s.flag Fld.PWR_FEEDSTAT.INWIN_B
      = false))) ∧
    (∃ (s : State), s.canon ∧ s.top.state = .standby) ∧
    (∃ (s : State), s.canon ∧ s.top.state ≠ .standby) ∧
    (∃ (s : State) (toVbat : Bool), s.canon) ∧
    (∃ (s : State), s.canon ∧ s.top.aonOn = true) ∧
    (∃ (s : State), s.canon ∧ s.top.aonOn = false) ∧
    (∃ (s : State) (smbus : Bool) (sbaddr : BitVec 2) (fuses : List FuseSense), s.canon ∧ (¬ (s.top.aonOn = true ∧ s.fuse.read =
      true))) ∧
    (∃ (s : State) (smbus : Bool) (sbaddr : BitVec 2) (fuses : List FuseSense), s.canon ∧ (s.top.aonOn = true ∧ s.fuse.read =
      true)) ∧
    (∃ (s : State), s.canon) :=
  ⟨⟨inState .off, canonOf (by decide +kernel), by decide +kernel⟩,
   ⟨inState .standby, canonOf (by decide +kernel), by decide +kernel⟩,
   ⟨{ inState .standby with vbat := { present := true, onCell := true } }, canonOf (by decide +kernel), by decide +kernel⟩,
   ⟨{ inState .service with vbat := { present := true, onCell := true } }, canonOf (by decide +kernel), by decide +kernel⟩,
   ⟨{ State.reset with vbat := { present := true } }, true, canonOf (by decide +kernel)⟩,
   ⟨{ inState .service with vbat := { present := true } }, canonOf (by decide +kernel), by decide +kernel⟩,
   ⟨aonDown, canonOf (by decide +kernel), by decide +kernel⟩,
   ⟨{ inState .standby with top := { state := .standby, aonOn := false }, vbat := { valid := true, tbHigh := 5 } }, true, 2,
    [{ word := 3, normal := 7, tight := 7 }], canonOf (by decide +kernel), by decide +kernel⟩,
   ⟨{ State.reset with top := { State.reset.top with aonOn := true }, fuse := { read := true } }, true, 2,
    [{ word := 3, normal := 7, tight := 7 }], canonOf (by decide +kernel), by decide +kernel⟩,
   ⟨(inState .service).setFld Fld.PWR_FAULTS.AONLOST 3, canonOf (by decide +kernel)⟩⟩

/-- What each clause of `Obligations.FeedsRun` asks for can be met. -/
theorem test_witness_feeds_run :
    (∃ (s : State) (f : Feed), s.canon ∧ (s.top.state = .off ∨ s.top.state = .standby)) ∧
    (∃ (s : State) (f : Feed), s.canon ∧ s.top.state ≠ .off ∧ s.top.state ≠ .standby) ∧
    (∃ (s : State) (f : Feed), s.canon ∧ s.top.aonOn = true ∧ s.feedIn f = true ∧ s.top.state = .aon ∧ s.fuse.read = true ∧
      s.flag Fld.MGT_FUSESTAT.PAGE_OK = true ∧ s.feedUsed f = true ∧ s.outranked 4 = false) ∧
    (∃ (s : State) (f : Feed), s.canon ∧ s.top.aonOn = true ∧ s.feedIn f = true ∧ s.inCalm = true ∧ s.pwr.left = true ∧
      s.feedUsed f = true ∧ s.outranked 4 = false) ∧
    (∃ (s : State) (f : Feed), s.canon ∧ s.top.aonOn = true ∧ s.feedIn f = true ∧ (s.qualLeaves f = false ∨ s.outranked 4 = true)
      ∧ (s.top.state ≠ .restore ∨ s.gust.rst ≠ 5 ∨ s.active ≠ f ∨ s.top.trigger ≠ none)) ∧
    (∃ (s : State) (f : Feed), s.canon ∧ (s.top.aonOn = false ∨ s.feedIn f = false)) ∧
    (∃ (s : State) (f : Feed), s.canon ∧ s.top.aonOn = true ∧ s.feedIn f = true ∧ s.flag (qualFld f) = false ∧ s.top.state =
      .restore ∧ s.gust.rst = 5 ∧ s.active = f ∧ s.top.trigger = none) ∧
    (∃ (s : State) (f : Feed), s.canon ∧ s.top.aonOn = true ∧ s.feedIn f = true ∧ ((s.top.state ≠ .aon ∧ s.top.state ≠ .faultOff)
      ∨ s.feedIn (feedOther f) = true)) ∧
    (∃ (s : State) (f : Feed), s.canon ∧ (s.top.aonOn = false ∨ s.feedIn f = false)) ∧
    (∃ (s : State) (f : Feed), s.canon ∧ s.top.aonOn = true ∧ s.feedIn f = true ∧ (s.top.state = .aon ∨ s.top.state = .faultOff)
      ∧ s.feedIn (feedOther f) = false) ∧
    (∃ (s : State) (f : Feed), s.canon ∧ s.pwr.overlap = some f) ∧
    (∃ (s : State), s.canon ∧ s.pwr.overlap = none) ∧
    (∃ (s : State), s.canon ∧ s.top.aonOn = true ∧ s.active ≠ s.preferred ∧ s.flag (gateFld s.active) = true ∧ s.feedIn
      s.preferred = true ∧ s.flag (suspectFld s.preferred) = false ∧ s.pwr.retHold = false) ∧
    (∃ (s : State), s.canon ∧ (s.top.aonOn = false ∨ s.active = s.preferred ∨ s.flag (gateFld s.active) = false ∨ s.feedIn
      s.preferred = false ∨ s.flag (suspectFld s.preferred) = true ∨ s.pwr.retHold = true)) :=
  ⟨⟨inState .standby, .a, canonOf (by decide +kernel), by decide +kernel⟩,
   ⟨inState .service, .a, canonOf (by decide +kernel), by decide +kernel⟩,
   ⟨({ inState .aon with fuse := { read := true } }.setFld Fld.MGT_FUSESTAT.PAGE_OK 1).setFld Fld.PWR_FEEDSTAT.INWIN_A 1, .a,
    canonOf (by decide +kernel), by decide +kernel⟩,
   ⟨({ inState .calm with pwr := { left := true } }).setFld Fld.PWR_FEEDSTAT.INWIN_A 1, .a, canonOf (by decide +kernel),
    by decide +kernel⟩,
   ⟨(inState .service).setFld Fld.PWR_FEEDSTAT.INWIN_A 1, .a, canonOf (by decide +kernel), by decide +kernel⟩,
   ⟨State.reset, .a, canonOf (by decide +kernel), by decide +kernel⟩,
   ⟨(({ coreIn .restore with gust := { rst := 5, early := true } }).setFld Fld.PWR_FEEDSTAT.INWIN_A 1).setFld
    Fld.PWR_HOLD.EARLY 1, .a, canonOf (by decide +kernel), by decide +kernel⟩,
   ⟨((((inState .service).setFld Fld.PWR_FEEDSTAT.INWIN_A 1).setFld Fld.PWR_FEEDSTAT.INWIN_B 1).setFld Fld.PWR_FEEDSTAT.GATE_A
    1), .a, canonOf (by decide +kernel), by decide +kernel⟩,
   ⟨State.reset, .a, canonOf (by decide +kernel), by decide +kernel⟩,
   ⟨(inState .aon).setFld Fld.PWR_FEEDSTAT.INWIN_A 1, .a, canonOf (by decide +kernel), by decide +kernel⟩,
   ⟨({ inState .service with pwr := { overlap := some .b } }).setFld Fld.PWR_FEEDSTAT.GATE_B 1, .b, canonOf
    (by decide +kernel), by decide +kernel⟩,
   ⟨State.reset, canonOf (by decide +kernel), by decide +kernel⟩,
   ⟨(((inState .service).setFld Fld.PWR_FEEDSTAT.ACTIVE 1).setFld Fld.PWR_FEEDSTAT.GATE_B 1).setFld Fld.PWR_FEEDSTAT.INWIN_A 1,
    canonOf (by decide +kernel), by decide +kernel⟩,
   ⟨State.reset, canonOf (by decide +kernel), by decide +kernel⟩⟩

/-- What each clause of `Obligations.PlwAndHoldRun` asks for can be met. -/
theorem test_witness_plw_and_hold_run :
    (∃ (s : State) (ch : Fin 2), s.canon ∧ s.top.aonOn = true ∧ s.fldBit Fld.PWR_FEEDSTAT.PLW ch.val = false) ∧
    (∃ (s : State) (ch : Fin 2), s.canon ∧ s.top.aonOn = false) ∧
    (∃ (s : State) (ch : Fin 2), s.canon ∧ s.top.aonOn = true) ∧
    (∃ (s : State) (ch : Fin 2), s.canon ∧ s.top.aonOn = false) ∧
    (∃ (s : State) (ch : Nat), s.canon ∧ s.pwr.plwTimer = some ch) ∧
    (∃ (s : State), s.canon ∧ s.pwr.plwTimer = none) ∧
    (∃ (s : State) (found : Option GaugeRead) (g : GaugeRead), s.canon ∧ s.top.aonOn = true ∧ s.pwr.recal = false ∧ found = some
      g) ∧
    (∃ (s : State) (found : Option GaugeRead), s.canon ∧ s.top.aonOn = false) ∧
    (∃ (s : State) (silent : Bool), s.canon ∧ s.top.aonOn = true) ∧
    (∃ (s : State) (silent : Bool), s.canon ∧ s.top.aonOn = false) ∧
    (∃ (s : State), s.canon ∧ s.pwr.holdLow = true) ∧
    (∃ (s : State), s.canon ∧ s.pwr.holdLow = false) :=
  ⟨⟨(inState .service).setFld Fld.PWR_PLWCFG.PLW_EN 1, 0, canonOf (by decide +kernel), by decide +kernel⟩,
   ⟨aonDown, 0, canonOf (by decide +kernel), by decide +kernel⟩,
   ⟨({ inState .service with pwr := { plwTimer := some 1 } }).setFld Fld.PWR_FEEDSTAT.PLW 2, 1, canonOf (by decide +kernel),
    by decide +kernel⟩,
   ⟨aonDown, 1, canonOf (by decide +kernel), by decide +kernel⟩,
   ⟨{ inState .service with pwr := { plwTimer := some 1 } }, 1, canonOf (by decide +kernel), by decide +kernel⟩,
   ⟨State.reset, canonOf (by decide +kernel), by decide +kernel⟩,
   ⟨inState .service, some { remain := 5, full := 6, volt := 7, status := 8, current := 9, mah := true },
    { remain := 5, full := 6, volt := 7, status := 8, current := 9, mah := true }, canonOf (by decide +kernel),
    by decide +kernel⟩,
   ⟨aonDown, some { remain := 5, full := 6, volt := 7, status := 8, current := 9, mah := true }, canonOf (by decide +kernel),
    by decide +kernel⟩,
   ⟨(inState .service).setFld Fld.PWR_HOLD.READY 1, true, canonOf (by decide +kernel), by decide +kernel⟩,
   ⟨aonDown, true, canonOf (by decide +kernel), by decide +kernel⟩,
   ⟨({ inState .service with pwr := { holdLow := true } }).setFld Fld.PWR_HOLD.HOLD_EN 1, canonOf (by decide +kernel),
    by decide +kernel⟩,
   ⟨State.reset, canonOf (by decide +kernel), by decide +kernel⟩⟩

/-- What each clause of `Obligations.GustRuns` asks for can be met. -/
theorem test_witness_gust_runs :
    (∃ (s : State) (code : BitVec 2), s.canon ∧ s.pwr.det = some code ∧ s.canTrigger = true ∧ s.outranked 3 = false ∧ s.flag
      Fld.PWR_HOLD.CVALID = true ∧ (s.top.state = .join ∨ s.top.state = .service ∨ s.top.state = .restore)) ∧
    (∃ (s : State), s.canon ∧ s.pwr.det = none) ∧
    (∃ (s : State) (code : BitVec 2), s.canon ∧ s.pwr.det = some code ∧ s.canTrigger = true ∧ s.outranked 3 = false ∧ s.flag
      Fld.PWR_HOLD.CVALID = false) ∧
    (∃ (s : State) (code : BitVec 2), s.canon ∧ s.pwr.det = some code ∧ (s.canTrigger = false ∨ s.outranked 3 = true)) ∧
    (∃ (s : State), s.canon ∧ s.top.state = .gust ∧ s.gust.step = 3 ∧ s.allPrecharged = true ∧ s.replaying = false ∧
      (s.clk.planned = false ∨ s.clk.emerg ≠ 0)) ∧
    (∃ (s : State), s.canon ∧ (s.top.state ≠ .gust ∨ s.gust.step ≠ 3 ∨ s.allPrecharged = false)) ∧
    (∃ (s : State), s.canon ∧ s.top.state = .gust ∧ s.gust.step = 4) ∧
    (∃ (s : State), s.canon ∧ (s.top.state ≠ .gust ∨ s.gust.step ≠ 4)) ∧
    (∃ (s : State), s.canon ∧ s.top.state = .gust ∧ s.gust.step = 5) ∧
    (∃ (s : State), s.canon ∧ (s.top.state ≠ .gust ∨ s.gust.step ≠ 5)) ∧
    (∃ (s : State), s.canon ∧ s.top.state = .gust ∧ s.gust.step = 6) ∧
    (∃ (s : State), s.canon ∧ (s.top.state ≠ .gust ∨ s.gust.step ≠ 6)) :=
  ⟨⟨({ coreIn .service with pwr := { det := some 2 } }).setFld Fld.PWR_HOLD.CVALID 1, 2, canonOf (by decide +kernel),
    by decide +kernel⟩,
   ⟨State.reset, canonOf (by decide +kernel), by decide +kernel⟩,
   ⟨({ coreIn .service with pwr := { det := some 2, rails := [(3, .armed)], order := [3] } }.setFld (Fld.PWR_RAILCFG.USED 3)
    1).setFld (Fld.PWR_RAILCFG.NO_EN 3) 1, 2, canonOf (by decide +kernel), by decide +kernel⟩,
   ⟨{ inState .calm with pwr := { det := some 2 } }, 2, canonOf (by decide +kernel), by decide +kernel⟩,
   ⟨{ coreIn .gust with gust := { step := 3 } }, canonOf (by decide +kernel), by decide +kernel⟩,
   ⟨inTrain ({ coreIn .gust with gust := { step := 3 } }), canonOf (by decide +kernel), by decide +kernel⟩,
   ⟨{ coreIn .gust with gust := { step := 4 } }, canonOf (by decide +kernel), by decide +kernel⟩,
   ⟨inTrain ({ coreIn .gust with gust := { step := 4 } }), canonOf (by decide +kernel), by decide +kernel⟩,
   ⟨{ coreIn .gust with gust := { step := 5, lines := 3 } }, canonOf (by decide +kernel), by decide +kernel⟩,
   ⟨inTrain ({ coreIn .gust with gust := { step := 5, lines := 3 } }), canonOf (by decide +kernel), by decide +kernel⟩,
   ⟨{ coreIn .gust with gust := { step := 6 } }, canonOf (by decide +kernel), by decide +kernel⟩,
   ⟨inTrain ({ coreIn .gust with gust := { step := 6 } }), canonOf (by decide +kernel), by decide +kernel⟩⟩

/-- What each clause of `Obligations.CalmAndRestoreRun` asks for can be met. -/
theorem test_witness_calm_and_restore_run :
    (∃ (s : State), s.canon ∧ s.top.state = .gust ∧ s.gust.step = 7 ∧ s.loadShed = true ∧ s.outranked 7 = false) ∧
    (∃ (s : State), s.canon ∧ (s.top.state ≠ .gust ∨ s.gust.step ≠ 7 ∨ s.loadShed = false)) ∧
    (∃ (s : State), s.canon ∧ s.top.state = .calm ∧ s.fld Fld.PWR_SEQSTAT.TABLE = 0 ∧ s.pwr.left = false ∧ s.outranked 7 = false) ∧
    (∃ (s : State), s.canon ∧ (s.top.state ≠ .calm ∨ s.pwr.left = true)) ∧
    (∃ (s : State), s.canon ∧ s.top.state = .calm ∧ s.fld Fld.PWR_SEQSTAT.TABLE = 0 ∧ s.pwr.left = false ∧ s.outranked 5 = false) ∧
    (∃ (s : State), s.canon ∧ s.top.state ≠ .calm) ∧
    (∃ (s : State), s.canon ∧ s.top.state = .calm ∧ s.fld Fld.PWR_SEQSTAT.TABLE = 0 ∧ s.pwr.left = true ∧ s.outranked 5 = false ∧
      s.feedIn s.preferred = true ∧ s.flag (qualFld s.preferred) = false ∧ (s.feedIn (feedOther s.preferred) = false ∨
      s.feedUsed (feedOther s.preferred) = false ∨ s.flag (qualFld (feedOther s.preferred)) = false)) ∧
    (∃ (s : State), s.canon ∧ s.top.state = .calm ∧ s.fld Fld.PWR_SEQSTAT.TABLE = 0 ∧ s.pwr.left = true ∧ s.outranked 5 = false ∧
      s.feedIn s.preferred = true ∧ s.flag (qualFld s.preferred) = true) ∧
    (∃ (s : State), s.canon ∧ s.top.state = .calm ∧ s.fld Fld.PWR_SEQSTAT.TABLE = 0 ∧ s.pwr.left = true ∧ s.outranked 5 = false ∧
      s.feedIn .a = false ∧ s.feedIn .b = false) ∧
    (∃ (s : State), s.canon ∧ s.top.state = .restore ∧ s.top.trigger = none ∧ s.gust.rst = 3 ∧ s.trainingOver = true ∧
      s.outranked 7 = false ∧ ((s.keepStore.retireFailed false).popRanks.any fun p => ((s.keepStore.retireFailed false).rank
      p).trained && !(s.keepStore.retireFailed false).gone p) = true) ∧
    (∃ (s : State), s.canon ∧ (s.top.state ≠ .restore ∨ s.gust.rst ≠ 3 ∨ s.trainingOver = false)) ∧
    (∃ (s : State), s.canon ∧ s.top.state = .restore ∧ s.top.trigger = none ∧ s.gust.rst = 3 ∧ s.trainingOver = true ∧
      s.outranked 7 = false ∧ ((s.keepStore.retireFailed false).popRanks.any fun p => ((s.keepStore.retireFailed false).rank
      p).trained && !(s.keepStore.retireFailed false).gone p) = false) ∧
    (∃ (s : State), s.canon ∧ s.top.state = .restore ∧ s.top.trigger = none ∧ s.gust.rst = 4 ∧ s.ord.agentQ = [] ∧ s.outranked 7
      = false ∧ s.flag Fld.PWR_HOLD.EARLY = true) ∧
    (∃ (s : State), s.canon ∧ (s.top.state ≠ .restore ∨ s.gust.rst ≠ 4)) ∧
    (∃ (s : State), s.canon ∧ s.top.state = .restore ∧ s.top.trigger = none ∧ s.gust.rst = 4 ∧ s.ord.agentQ = [] ∧ s.outranked 7
      = false ∧ s.flag Fld.PWR_HOLD.EARLY = false) ∧
    (∃ (s : State), s.canon ∧ s.top.state = .restore ∧ s.top.trigger = none ∧ s.gust.rst = 6 ∧ s.ord.agentQ = [] ∧ s.linksTrained
      = true ∧ s.outranked 7 = false) ∧
    (∃ (s : State), s.canon ∧ (s.top.state ≠ .restore ∨ s.top.trigger ≠ none ∨ s.gust.rst ≠ 6)) :=
  ⟨⟨{ coreIn .gust with gust := { step := 7 }, time := { elapsed := 800000 } }, canonOf (by decide +kernel), by decide +kernel⟩,
   ⟨inTrain ({ coreIn .gust with gust := { step := 7 }, time := { elapsed := 800000 } }), canonOf (by decide +kernel),
    by decide +kernel⟩,
   ⟨(inState .calm).setFld Fld.PWR_HOLD.HOLD_EN 1, canonOf (by decide +kernel), by decide +kernel⟩,
   ⟨inTrain ((inState .calm).setFld Fld.PWR_HOLD.HOLD_EN 1), canonOf (by decide +kernel), by decide +kernel⟩,
   ⟨(inState .calm).setFld Fld.PWR_HOLD.HOLD_EN 1, canonOf (by decide +kernel), by decide +kernel⟩,
   ⟨inTrain ((inState .calm).setFld Fld.PWR_HOLD.HOLD_EN 1), canonOf (by decide +kernel), by decide +kernel⟩,
   ⟨({ inState .calm with pwr := { left := true } }).setFld Fld.PWR_FEEDSTAT.INWIN_A 1, canonOf (by decide +kernel),
    by decide +kernel⟩,
   ⟨(({ inState .calm with pwr := { left := true } }).setFld Fld.PWR_FEEDSTAT.INWIN_A 1).setFld Fld.PWR_FEEDSTAT.QUAL_A 1,
    canonOf (by decide +kernel), by decide +kernel⟩,
   ⟨({ inState .calm with pwr := { left := true, rails := [(3, .armed)], order := [3] } }.setFld (Fld.PWR_RAILCFG.USED 3)
    1).setFld (Fld.PWR_RAILCFG.HELD 3) 1, canonOf (by decide +kernel), by decide +kernel⟩,
   ⟨{ coreIn .restore with gust := { rst := 3 }, flt := { ranks := [(0, { trained := true })] } }, canonOf (by decide +kernel),
    by decide +kernel⟩,
   ⟨inTrain ({ coreIn .restore with gust := { rst := 3 }, flt := { ranks := [(0, { trained := true })] } }), canonOf
    (by decide +kernel), by decide +kernel⟩,
   ⟨{ coreIn .restore with gust := { rst := 3 } }, canonOf (by decide +kernel), by decide +kernel⟩,
   ⟨({ coreIn .restore with gust := { rst := 4 } }).setFld Fld.PWR_HOLD.EARLY 1, canonOf (by decide +kernel),
    by decide +kernel⟩,
   ⟨inTrain (({ coreIn .restore with gust := { rst := 4 } }).setFld Fld.PWR_HOLD.EARLY 1), canonOf (by decide +kernel),
    by decide +kernel⟩,
   ⟨{ coreIn .restore with gust := { rst := 4 } }, canonOf (by decide +kernel), by decide +kernel⟩,
   ⟨[Port.u0, .u1, .u2, .u3, .t].foldl (fun x p => x.setLink p upLink) { coreIn .restore with gust := { rst := 6 } }, canonOf
    (by decide +kernel), by decide +kernel⟩,
   ⟨inTrain ([Port.u0, .u1, .u2, .u3, .t].foldl (fun x p => x.setLink p upLink) { coreIn .restore with gust := { rst := 6 } }),
    canonOf (by decide +kernel), by decide +kernel⟩⟩

/-- What each clause of `Obligations.SequencingRuns` asks for can be met. -/
theorem test_witness_sequencing_runs :
    (∃ (s : State), s.canon ∧ s.pwr.part ≠ 0 ∧ s.pwr.ended = false ∧ s.pwr.acted = false ∧ s.fld (Fld.PWR_START.ACTION s.seqRow)
      = 1 ∧ s.railUsed (s.fld (Fld.PWR_START.TARGET s.seqRow)) = true ∧ s.railArmed (s.fld (Fld.PWR_START.TARGET s.seqRow))
      = false) ∧
    (∃ (s : State), s.canon ∧ (s.pwr.part = 0 ∨ s.pwr.ended = true ∨ s.pwr.acted = true)) ∧
    (∃ (s : State), s.canon ∧ s.pwr.part ≠ 0 ∧ s.pwr.ended = false ∧ s.pwr.acted = false ∧ s.fld (Fld.PWR_START.ACTION s.seqRow)
      = 1 ∧ (s.railUsed (s.fld (Fld.PWR_START.TARGET s.seqRow)) = false ∨ s.railArmed (s.fld (Fld.PWR_START.TARGET
      s.seqRow)) = true)) ∧
    (∃ (s : State), s.canon ∧ s.pwr.part ≠ 0 ∧ s.pwr.ended = false ∧ s.pwr.acted = false ∧ s.fld (Fld.PWR_START.ACTION s.seqRow)
      = 2 ∧ s.fld (Fld.PWR_START.TARGET s.seqRow) < 4) ∧
    (∃ (s : State), s.canon ∧ s.pwr.part ≠ 0 ∧ s.pwr.ended = false ∧ s.pwr.acted = false ∧ s.fld (Fld.PWR_START.ACTION s.seqRow)
      ≠ 1 ∧ (s.fld (Fld.PWR_START.ACTION s.seqRow) ≠ 2 ∨ 4 ≤ s.fld (Fld.PWR_START.TARGET s.seqRow))) ∧
    (∃ (s : State) (rail : Fin 16), s.canon ∧ s.railRamping rail.val = true ∧ s.railIn rail.val = true) ∧
    (∃ (s : State) (rail : Fin 16), s.canon ∧ (s.railRamping rail.val = false ∨ s.railIn rail.val = false)) ∧
    (∃ (s : State) (rail : Fin 16), s.canon ∧ s.top.state ≠ .faultOff ∧ s.railRamping rail.val = true ∧ s.pwr.part ≠ 0 ∧
      s.outranked 2 = false) ∧
    (∃ (s : State) (rail : Fin 16), s.canon ∧ (s.top.state ≠ .faultOff ∧ (s.railRamping rail.val = false ∨ s.pwr.part = 0 ∨
      s.outranked 2 = true))) ∧
    (∃ (s : State) (rail : Fin 16), s.canon ∧ s.top.state = .faultOff ∧ rail.val ∈ s.pwr.failWatch.start ∧ s.time.elapsed ≤
      s.pwr.failAt + 8000) ∧
    (∃ (s : State) (k : Fin 4), s.canon ∧ k.val ∈ s.pwr.stretch) ∧
    (∃ (s : State) (k : Fin 4), s.canon ∧ k.val ∉ s.pwr.stretch) ∧
    (∃ (s : State) (found : SectionEnd), s.canon ∧ s.sectionOver = true ∧ s.outranked 7 = false ∧ s.pwr.part = 1 ∧ s.clk.refIn =
      true ∧ found.supply = true ∧ s.top.state = .sequence) ∧
    (∃ (s : State) (found : SectionEnd), s.canon ∧ s.sectionOver = true ∧ s.outranked 7 = false ∧ s.pwr.part = 1 ∧ (s.clk.refIn =
      false ∨ found.supply = false ∧ s.top.state = .sequence)) ∧
    (∃ (s : State) (found : SectionEnd), s.canon ∧ s.sectionOver = false ∧ s.outranked 7 = false ∧ s.pwr.bootWait = true ∧
      s.clk.refIn = true ∧ found.supply = true ∧ s.top.state = .sequence) ∧
    (∃ (s : State) (found : SectionEnd), s.canon ∧ (s.sectionOver = false ∧ s.pwr.bootWait = false ∨ s.sectionOver = true ∧
      s.outranked 7 = true)) ∧
    (∃ (s : State) (found : SectionEnd), s.canon ∧ s.sectionOver = true ∧ s.outranked 7 = false ∧ s.pwr.part = 1 ∧ s.clk.refIn =
      true ∧ s.top.state = .restore) ∧
    (∃ (s : State) (found : SectionEnd), s.canon ∧ s.sectionOver = true ∧ s.outranked 7 = false ∧ s.pwr.part = 2 ∧ s.top.state =
      .train) ∧
    (∃ (s : State) (found : SectionEnd), s.canon ∧ s.sectionOver = true ∧ s.outranked 7 = false ∧ s.pwr.part = 2 ∧ s.top.state =
      .restore) ∧
    (∃ (s : State) (timedOut : Bool) (r : Nat × Word) (rest : List (Nat × Word)), s.canon ∧ s.pwr.stopActed = true ∧ s.pwr.stop =
      r :: rest) ∧
    (∃ (s : State) (timedOut : Bool), s.canon ∧ s.pwr.stopActed = false) :=
  ⟨⟨((({ inState .sequence with pwr := { part := 1 } }).setFld (Fld.PWR_START.ACTION 0) 1).setFld (Fld.PWR_START.TARGET 0)
    5).setFld (Fld.PWR_RAILCFG.USED 5) 1, canonOf (by decide +kernel), by decide +kernel⟩,
   ⟨State.reset, canonOf (by decide +kernel), by decide +kernel⟩,
   ⟨(({ inState .sequence with pwr := { part := 1 } }).setFld (Fld.PWR_START.ACTION 0) 1).setFld (Fld.PWR_START.TARGET 0) 5,
    canonOf (by decide +kernel), by decide +kernel⟩,
   ⟨(({ inState .sequence with pwr := { part := 1 } }).setFld (Fld.PWR_START.ACTION 0) 2).setFld (Fld.PWR_START.TARGET 0) 3,
    canonOf (by decide +kernel), by decide +kernel⟩,
   ⟨({ inState .sequence with pwr := { part := 1 } }).setFld (Fld.PWR_START.ACTION 0) 3, canonOf (by decide +kernel),
    by decide +kernel⟩,
   ⟨({ inState .sequence with pwr := { part := 1, rails := [(7, .ramping)] } }).setFld Fld.PWR_RAILSTAT.INWIN 0x80, 7, canonOf
    (by decide +kernel), by decide +kernel⟩,
   ⟨State.reset, 7, canonOf (by decide +kernel), by decide +kernel⟩,
   ⟨{ inState .sequence with pwr := { part := 1, rails := [(7, .ramping)] } }, 7, canonOf (by decide +kernel),
    by decide +kernel⟩,
   ⟨State.reset, 7, canonOf (by decide +kernel), by decide +kernel⟩,
   ⟨(inState .faultOff |> fun s =>
    { s with pwr := { failWatch := { start := [2] }, record := some { first := 3, kind := 1, mask := 8, state := .service, stamp := 0, tq := 0, readings := [] } } }),
    2, canonOf (by decide +kernel), by decide +kernel⟩,
   ⟨{ inState .sequence with pwr := { part := 1, stretch := [2] } }, 2, canonOf (by decide +kernel), by decide +kernel⟩,
   ⟨State.reset, 2, canonOf (by decide +kernel), by decide +kernel⟩,
   ⟨{ inState .sequence with pwr := { part := 1, ended := true }, clk := { refIn := true } },
    { bands := [3, 4], supply := true }, canonOf (by decide +kernel), by decide +kernel⟩,
   ⟨{ inState .sequence with pwr := { part := 1, ended := true }, clk := { refIn := true } },
    { bands := [3, 4], supply := false }, canonOf (by decide +kernel), by decide +kernel⟩,
   ⟨{ inState .sequence with pwr := { bootWait := true }, clk := { refIn := true } }, { bands := [3, 4], supply := true },
    canonOf (by decide +kernel), by decide +kernel⟩,
   ⟨inState .sequence, { bands := [3, 4], supply := true }, canonOf (by decide +kernel), by decide +kernel⟩,
   ⟨{ inState .restore with pwr := { part := 1, ended := true }, clk := { refIn := true } },
    { bands := [3, 4], supply := true }, canonOf (by decide +kernel), by decide +kernel⟩,
   ⟨{ coreIn .train with pwr := { part := 2, ended := true } }, { bands := [3, 4], supply := true }, canonOf
    (by decide +kernel), by decide +kernel⟩,
   ⟨{ coreIn .restore with pwr := { part := 2, ended := true } }, { bands := [3, 4], supply := true }, canonOf
    (by decide +kernel), by decide +kernel⟩,
   ⟨({ inState .gust with pwr := { stop := [(0, 0x40000000), (1, 0x41050000), (2, 0x42000000)], stopActed := true } }).setFld
    Fld.PWR_SEQSTAT.FORM (0 % 3), (0 % 2 == 1), (0, 0x40000000), [(1, 0x41050000), (2, 0x42000000)], canonOf
    (by decide +kernel), by decide +kernel⟩,
   ⟨State.reset, (0 % 2 == 1), canonOf (by decide +kernel), by decide +kernel⟩⟩

/-- What each clause of `Obligations.SupervisionRuns` asks for can be met. -/
theorem test_witness_supervision_runs :
    (∃ (s : State) (rail : Fin 16) (above : Bool), s.canon ∧ s.top.aonOn = true ∧ s.railUsed rail.val = true ∧ s.top.state ≠
      .faultOff ∧ s.railArmed rail.val = true ∧ (s.pwr.droop = false ∨ above = true) ∧ s.outranked 2 = false) ∧
    (∃ (s : State) (rail : Fin 16) (above : Bool), s.canon ∧ (s.top.aonOn = false ∨ s.railUsed rail.val = false)) ∧
    (∃ (s : State) (rail : Fin 16) (above : Bool), s.canon ∧ s.top.aonOn = true ∧ s.railUsed rail.val = true ∧ s.top.state ≠
      .faultOff ∧ s.railArmed rail.val = true ∧ s.pwr.droop = true ∧ above = false) ∧
    (∃ (s : State) (rail : Fin 16) (above : Bool), s.canon ∧ s.top.aonOn = true ∧ s.railUsed rail.val = true ∧ s.top.state ≠
      .faultOff ∧ s.railArmed rail.val = false ∧ (s.railRamping rail.val = false ∨ above = false)) ∧
    (∃ (s : State) (rail : Fin 16) (above : Bool), s.canon ∧ s.top.aonOn = true ∧ s.railUsed rail.val = true ∧ s.top.state =
      .faultOff ∧ rail.val ∈ (if above then s.pwr.failWatch.above else s.pwr.failWatch.below) ∧ s.time.elapsed ≤
      s.pwr.failAt + 8000) ∧
    (∃ (s : State) (input : MonInput), s.canon ∧ s.top.aonOn = true) ∧
    (∃ (s : State) (input : MonInput), s.canon ∧ s.top.aonOn = false) ∧
    (∃ (s : State) (input : MonInput), s.canon ∧ s.top.aonOn = true) ∧
    (∃ (s : State) (input : MonInput), s.canon ∧ s.top.aonOn = false) ∧
    (∃ (s : State) (readings : List (BitVec 12)) (vbbu : BitVec 12), s.canon ∧ s.top.aonOn = true) ∧
    (∃ (s : State) (readings : List (BitVec 12)) (vbbu : BitVec 12), s.canon ∧ s.top.aonOn = false) :=
  ⟨⟨({ inState .service with pwr := { rails := [(2, .armed)] } }).setFld (Fld.PWR_RAILCFG.USED 2) 1, 2, false, canonOf
    (by decide +kernel), by decide +kernel⟩,
   ⟨State.reset, 2, false, canonOf (by decide +kernel), by decide +kernel⟩,
   ⟨({ inState .service with pwr := { rails := [(2, .armed)], droop := true } }).setFld (Fld.PWR_RAILCFG.USED 2) 1, 2, false,
    canonOf (by decide +kernel), by decide +kernel⟩,
   ⟨((inState .service).setFld (Fld.PWR_RAILCFG.USED 2) 1).setFld Fld.PWR_RAILSTAT.INWIN 4, 2, false, canonOf
    (by decide +kernel), by decide +kernel⟩,
   ⟨((inState .faultOff).setFld (Fld.PWR_RAILCFG.USED 2) 1 |> fun s =>
    { s with pwr := { failWatch := { above := [2], below := [2] }, record := some { first := 3, kind := 1, mask := 8, state := .service, stamp := 0, tq := 0, readings := [] } } }),
    2, false, canonOf (by decide +kernel), by decide +kernel⟩,
   ⟨(inState .service).setFld Fld.PWR_RAILSTAT.INWIN 8, .rail 3, canonOf (by decide +kernel), by decide +kernel⟩,
   ⟨aonDown, .rail 3, canonOf (by decide +kernel), by decide +kernel⟩,
   ⟨{ inState .service with pwr := { exc := [3] } }, .rail 3, canonOf (by decide +kernel), by decide +kernel⟩,
   ⟨aonDown, .rail 3, canonOf (by decide +kernel), by decide +kernel⟩,
   ⟨(inState .service).setFld (Fld.PWR_RAILCFG.USED 4) 1, (List.range 16).map (fun n => BitVec.ofNat 12 (n * 100 + 7)), 1234,
    canonOf (by decide +kernel), by decide +kernel⟩,
   ⟨aonDown, (List.range 16).map (fun n => BitVec.ofNat 12 (n * 100 + 7)), 1234, canonOf (by decide +kernel),
    by decide +kernel⟩⟩

/-- What each clause of `Obligations.ReleasesRun` asks for can be met. -/
theorem test_witness_releases_run :
    (∃ (s : State) (path : AccPath) (data : Word), s.canon ∧ s.accessOpen path = true ∧ s.top.aonOn = true ∧ s.triggered = false
      ∧ fieldGet data 31 16 = 0x6C72 ∧ data &&& 0x0000FFFC = 0 ∧ s.top.state = .bootHold ∧ s.boot.check = none ∧ fieldGet
      data 1 0 ≠ 3) ∧
    (∃ (s : State) (path : AccPath) (data : Word), s.canon ∧ s.accessOpen path = true ∧ s.top.aonOn = true ∧ s.triggered = false
      ∧ fieldGet data 31 16 = 0x6C72 ∧ data &&& 0x0000FFFC = 0 ∧ s.top.state = .bootHold ∧ s.boot.check = none ∧ fieldGet
      data 1 0 = 3) ∧
    (∃ (s : State) (path : AccPath) (data : Word), s.canon ∧ s.accessOpen path = true ∧ s.top.aonOn = true ∧ s.triggered = false
      ∧ fieldGet data 31 16 = 0x6C72 ∧ data &&& 0x0000FFFC = 0 ∧ s.top.state ≠ .bootHold) ∧
    (∃ (s : State) (path : AccPath) (data : Word), s.canon ∧ s.accessOpen path = true ∧ s.top.aonOn = true ∧ s.triggered = false
      ∧ fieldGet data 31 16 = 0x6672 ∧ data &&& 0x0000FFFF = 0 ∧ s.top.state = .faultOff ∧ (s.feedStays .a = true ∨
      s.feedStays .b = true)) ∧
    (∃ (s : State) (path : AccPath) (data : Word), s.canon ∧ s.accessOpen path = true ∧ s.top.aonOn = true ∧ s.triggered = false
      ∧ fieldGet data 31 16 = 0x6672 ∧ data &&& 0x0000FFFF = 0 ∧ (s.top.state ≠ .faultOff ∨ (s.feedStays .a = false ∧
      s.feedStays .b = false))) ∧
    (∃ (s : State) (found : BootFind) (choice : Nat), s.canon ∧ s.top.state = .bootHold ∧ s.top.trigger = none ∧ s.outranked 7 =
      false ∧ s.boot.check = some choice) ∧
    (∃ (s : State) (found : BootFind), s.canon ∧ (s.boot.check = none ∨ s.top.state ≠ .bootHold ∨ s.outranked 7 = true)) :=
  ⟨⟨linked .bootHold, .sideband, 0x6C720001, canonOf (by decide +kernel), by decide +kernel⟩,
   ⟨linked .bootHold, .sideband, 0x6C720003, canonOf (by decide +kernel), by decide +kernel⟩,
   ⟨linked .service, .sideband, 0x6C720001, canonOf (by decide +kernel), by decide +kernel⟩,
   ⟨(linked .faultOff).setFld Fld.PWR_FEEDSTAT.INWIN_B 1, .sideband, 0x66720000, canonOf (by decide +kernel),
    by decide +kernel⟩,
   ⟨linked .faultOff, .sideband, 0x66720000, canonOf (by decide +kernel), by decide +kernel⟩,
   ⟨{ linked .bootHold with boot := { check := some 1 } },
    { flash := .unusable, badA := false, badB := false, feedA := 0, feedB := 0, entropy := true }, 1, canonOf
    (by decide +kernel), by decide +kernel⟩,
   ⟨inTrain ({ linked .bootHold with boot := { check := some 1 } }),
    { flash := .unusable, badA := false, badB := false, feedA := 0, feedB := 0, entropy := true }, canonOf
    (by decide +kernel), by decide +kernel⟩⟩

/-- What each clause of `Obligations.CoreBootRuns` asks for can be met. -/
theorem test_witness_core_boot_runs :
    (∃ (s : State) (found : BootFind), s.canon ∧ s.bootRuns = true ∧ s.top.trigger = none ∧ s.boot.stage8 = false) ∧
    (∃ (s : State) (found : BootFind), s.canon ∧ (s.bootRuns = false ∨ s.boot.stage8 = true)) ∧
    (∃ (s : State) (bands : List (BitVec 6)), s.canon ∧ s.bootRuns = true ∧ s.top.trigger = none ∧ s.boot.stage8 = true ∧
      s.outranked 7 = false ∧ s.boot.hold ≠ 0 ∧ s.boot.hold < 16) ∧
    (∃ (s : State) (bands : List (BitVec 6)), s.canon ∧ (s.bootRuns = false ∨ s.boot.stage8 = false ∨ s.outranked 7 = true)) ∧
    (∃ (s : State) (bands : List (BitVec 6)), s.canon ∧ s.bootRuns = true ∧ s.top.trigger = none ∧ s.boot.stage8 = true ∧
      s.outranked 7 = false ∧ s.boot.hold = 0 ∧ s.top.state = .boot) ∧
    (∃ (s : State) (bands : List (BitVec 6)), s.canon ∧ s.bootRuns = true ∧ s.top.trigger = none ∧ s.boot.stage8 = true ∧
      s.outranked 7 = false ∧ s.boot.hold = 0 ∧ s.top.state = .restore) ∧
    (∃ (s : State), s.canon ∧ s.top.coreOn = true ∧ s.bootRuns = true ∧ s.fld Fld.MGT_BOOTSTAT.CORERST < 2) ∧
    (∃ (s : State), s.canon ∧ s.top.coreOn = false) ∧
    (∃ (s : State), s.canon ∧ s.top.coreOn = true ∧ s.bootRuns = true ∧ 2 ≤ s.fld Fld.MGT_BOOTSTAT.CORERST ∧ s.outranked 7 =
      false) ∧
    (∃ (s : State), s.canon ∧ s.top.coreOn = true ∧ s.bootRuns = false ∧ s.boot.check = none) ∧
    (∃ (s : State), s.canon ∧ s.top.coreOn = true ∧ s.bootRuns = false ∧ s.boot.check ≠ none) ∧
    (∃ (s : State) (verified : Bool) (w : Nat) (v : Nat) (rest : List (Nat × Nat)), s.canon ∧ s.top.trigger = none ∧ s.boot.burn
      = (w, v) :: rest ∧ verified = true) ∧
    (∃ (s : State) (verified : Bool), s.canon ∧ s.top.trigger = none ∧ s.boot.burn ≠ [] ∧ verified = false ∧ s.boot.burnTry = 0) ∧
    (∃ (s : State) (verified : Bool), s.canon ∧ s.top.trigger = none ∧ s.boot.burn ≠ [] ∧ verified = false ∧ s.boot.burnTry ≠ 0) ∧
    (∃ (s : State) (verified : Bool), s.canon ∧ s.top.trigger ≠ none) ∧
    (∃ (s : State) (verified : Bool), s.canon ∧ (s.top.trigger = none ∧ s.boot.burn = [] ∧ s.mayAdvance = false)) ∧
    (∃ (s : State) (n : Nat) (k : Nat) (d : DirRec), s.canon ∧ s.top.state = .join ∧ s.top.trigger = none ∧ s.fld
      Fld.MGT_BOOTSTAT.SLOT = n + 1 ∧ n < 2 ∧ s.directory = some (k, d) ∧ d.stateOf n = 1 ∧ s.blank (64 * ((k + 1) % 1024))
      64 = true) ∧
    (∃ (s : State), s.canon ∧ (s.top.state ≠ .join ∨ s.fld Fld.MGT_BOOTSTAT.SLOT = 0)) :=
  ⟨⟨coreIn .boot, { flash := .unusable, badA := false, badB := false, feedA := 0, feedB := 0, entropy := true }, canonOf
    (by decide +kernel), by decide +kernel⟩,
   ⟨inTrain (coreIn .boot), { flash := .unusable, badA := false, badB := false, feedA := 0, feedB := 0, entropy := true },
    canonOf (by decide +kernel), by decide +kernel⟩,
   ⟨{ coreIn .boot with boot := { stage8 := true, hold := 2 } }, [3, 4], canonOf (by decide +kernel), by decide +kernel⟩,
   ⟨inTrain ({ coreIn .boot with boot := { stage8 := true, hold := 2 } }), [3, 4], canonOf (by decide +kernel),
    by decide +kernel⟩,
   ⟨{ coreIn .boot with boot := { stage8 := true } }, [3, 4], canonOf (by decide +kernel), by decide +kernel⟩,
   ⟨{ coreIn .restore with boot := { stage8 := true }, gust := { rst := 2 } }, [3, 4], canonOf (by decide +kernel),
    by decide +kernel⟩,
   ⟨({ coreIn .boot with boot := { keys := [(2, [1])] } }).setFld Fld.MGT_BOOTSTAT.CORERST 1, canonOf (by decide +kernel),
    by decide +kernel⟩,
   ⟨State.reset, canonOf (by decide +kernel), by decide +kernel⟩,
   ⟨({ coreIn .boot with boot := { keys := [(2, [1])] } }).setFld Fld.MGT_BOOTSTAT.CORERST 2, canonOf (by decide +kernel),
    by decide +kernel⟩,
   ⟨({ coreIn .service with boot := { keys := [(2, [1])], flCmd := some 1, flash := .quad } }), canonOf (by decide +kernel),
    by decide +kernel⟩,
   ⟨({ coreIn .bootHold with boot := { check := some 1 } }), canonOf (by decide +kernel), by decide +kernel⟩,
   ⟨{ coreIn .service with boot := { burn := [(12, 1)] } }, true, 12, 1, [], canonOf (by decide +kernel), by decide +kernel⟩,
   ⟨{ coreIn .service with boot := { burn := [(12, 1)] } }, false, canonOf (by decide +kernel), by decide +kernel⟩,
   ⟨{ coreIn .service with boot := { burn := [(12, 1)], burnTry := 1 } }, false, canonOf (by decide +kernel),
    by decide +kernel⟩,
   ⟨{ coreIn .gust with boot := { burn := [(12, 1)] }, top := { (coreIn .gust).top with trigger := some 2 } }, true, canonOf
    (by decide +kernel), by decide +kernel⟩,
   ⟨State.reset, true, canonOf (by decide +kernel), by decide +kernel⟩,
   ⟨({ coreIn .join with flash := dirBytes }).setFld Fld.MGT_BOOTSTAT.SLOT 2, 1, 0, dirTest, canonOf (by decide +kernel),
    by (rw [directory_low] <;> decide +kernel)⟩,
   ⟨inTrain ({ coreIn .join with flash := dirBytes }), canonOf (by decide +kernel), by decide +kernel⟩⟩

/-- What each clause of `Obligations.TrainingRuns` asks for can be met. -/
theorem test_witness_training_runs :
    (∃ (s : State) (sc : Fin 16) (rank : Fin 2) (found : TrainFind), s.canon ∧ s.top.trigger = none ∧ (s.training sc.val).step =
      1 ∧ found = .ck ∧ s.flag (Fld.CLK_DLL.LOCKED sc.val) = true) ∧
    (∃ (s : State) (sc : Fin 16) (rank : Fin 2) (found : TrainFind), s.canon ∧ s.top.trigger = none ∧ (s.training sc.val).step =
      1 ∧ found = .ck ∧ s.flag (Fld.CLK_DLL.LOCKED sc.val) = false ∧ (s.training sc.val).tries < s.fld
      Fld.DPH_TRAINCFG.RETRIES) ∧
    (∃ (s : State) (sc : Fin 16) (rank : Fin 2) (found : TrainFind), s.canon ∧ s.top.trigger = none ∧ (s.training sc.val).step =
      2 ∧ found = .settings) ∧
    (∃ (s : State) (sc : Fin 16) (rank : Fin 2) (found : TrainFind) (pk : List (Option Device)), s.canon ∧ s.top.trigger = none ∧
      (s.training sc.val).step = 3 ∧ rank.val = (s.training sc.val).rank ∧ found = .devices pk ∧ s.badPackages pk = [] ∧
      s.ranksOf.contains (rank.val + 1) = true) ∧
    (∃ (s : State) (sc : Fin 16) (rank : Fin 2) (found : TrainFind) (ca : List Byte) (cs : List Byte) (vref : List Byte), s.canon
      ∧ s.top.trigger = none ∧ (s.training sc.val).step = 5 ∧ rank.val = (s.training sc.val).rank ∧ found = .caCs (some (ca,
      cs, vref))) ∧
    (∃ (s : State) (sc : Fin 16) (rank : Fin 2) (found : TrainFind) (dqs : List (BitVec 11)), s.canon ∧ s.top.trigger = none ∧
      (s.training sc.val).step = 6 ∧ rank.val = (s.training sc.val).rank ∧ found = .level (some dqs)) ∧
    (∃ (s : State) (sc : Fin 16) (rank : Fin 2) (found : TrainFind), s.canon ∧ s.top.trigger = none ∧ (s.training sc.val).step =
      5 ∧ rank.val = (s.training sc.val).rank ∧ found = .caCs none ∧ (s.training sc.val).tries < s.fld
      Fld.DPH_TRAINCFG.RETRIES) ∧
    (∃ (s : State) (sc : Fin 16) (rank : Fin 2) (found : TrainFind), s.canon ∧ s.top.trigger = none ∧ (s.training sc.val).step =
      6 ∧ rank.val = (s.training sc.val).rank ∧ found = .level none ∧ (s.training sc.val).tries < s.fld
      Fld.DPH_TRAINCFG.RETRIES) ∧
    (∃ (s : State) (sc : Fin 16) (rank : Fin 2) (found : TrainFind), s.canon ∧ s.top.trigger = none ∧ (s.training sc.val).step =
      7 ∧ rank.val = (s.training sc.val).rank ∧ found = .readSweep none ∧ (s.training sc.val).tries < s.fld
      Fld.DPH_TRAINCFG.RETRIES) ∧
    (∃ (s : State) (sc : Fin 16) (rank : Fin 2) (found : TrainFind), s.canon ∧ s.top.trigger = none ∧ (s.training sc.val).step =
      8 ∧ rank.val = (s.training sc.val).rank ∧ found = .writeSweep none ∧ (s.training sc.val).tries < s.fld
      Fld.DPH_TRAINCFG.RETRIES) ∧
    (∃ (s : State) (sc : Fin 16) (rank : Fin 2) (found : TrainFind) (f : ScratchCheck), s.canon ∧ s.top.trigger = none ∧
      (s.training sc.val).step = 9 ∧ rank.val = (s.training sc.val).rank ∧ found = .check f ∧ s.scratchOk (s.training
      sc.val).record f = true ∧ f.alerted = true ∧ (s.training sc.val).readmit = true) ∧
    (∃ (s : State) (header : Option Line) (record : Option Line), s.canon ∧ s.top.state = .train ∧ s.top.trigger = none ∧
      s.outranked 7 = false ∧ s.trainingOver = true ∧ s.pwr.part = 0 ∧ (s.popRanks.any fun p => (s.rank p).trained) = true) ∧
    (∃ (s : State) (header : Option Line) (record : Option Line), s.canon ∧ (s.top.state ≠ .train ∨ s.pwr.part ≠ 0 ∨ s.outranked
      7 = true)) ∧
    (∃ (s : State) (header : Option Line) (record : Option Line), s.canon ∧ s.top.state = .train ∧ s.top.trigger = none ∧
      s.outranked 7 = false ∧ s.trainingOver = true ∧ s.pwr.part = 0 ∧ (s.popRanks.any fun p => (s.rank p).trained) = false) ∧
    (∃ (s : State), s.canon ∧ s.top.state = .join ∧ s.mir.pstate = .none ∧ s.mir.soloGrant = false ∧ s.top.trigger = none ∧
      s.joinLinked = true ∧ (s.link .t).up = true ∧ s.outranked 7 = false ∧ s.twin.peerEpoch = some s.mir.epoch ∧
      s.mir.epoch ≠ 0 ∧ s.mir.recorded = .paired ∧ s.twin.peerState = 1 ∧ (s.feat .t 18 = true ∨ s.mir.marks = [])) ∧
    (∃ (s : State), s.canon ∧ (s.top.state ≠ .join ∨ s.top.trigger ≠ none ∨ s.mir.pstate = .fenced)) ∧
    (∃ (s : State), s.canon ∧ s.top.state = .join ∧ s.mir.pstate = .none ∧ s.mir.soloGrant = false ∧ s.top.trigger = none ∧
      s.joinLinked = false ∧ s.mir.marks = [] ∧ s.twin.peerEpoch = some s.mir.epoch ∧ s.mir.epoch ≠ 0 ∧ s.mir.recorded =
      .paired ∧ s.twin.peerState = 1 ∧ (s.feat .t 18 = true ∨ s.mir.marks = [])) ∧
    (∃ (s : State), s.canon ∧ s.top.state = .join ∧ s.settled = true ∧ s.top.trigger = none ∧ s.joinLinked = true ∧ (s.mir.pstate
      ≠ .paired ∨ (s.link .t).up = true) ∧ s.outranked 7 = false) ∧
    (∃ (s : State), s.canon ∧ s.top.state = .join ∧ s.settled = true ∧ s.top.trigger = none ∧ (s.joinLinked = false ∨ s.outranked
      7 = true ∨ s.mir.pstate = .paired ∧ (s.link .t).up = false)) ∧
    (∃ (s : State), s.canon ∧ s.top.state = .join ∧ s.mir.pstate = .none ∧ s.mir.soloGrant = false ∧ s.top.trigger = none ∧
      s.mir.recorded = .fenced ∧ (s.twin.peerEpoch = none ∨ s.twin.peerEpoch = some s.mir.epoch)) ∧
    (∃ (s : State), s.canon ∧ s.top.state = .join ∧ s.mir.pstate = .none) ∧
    (∃ (s : State), s.canon ∧ (s.top.state ≠ .join ∨ s.mir.pstate ≠ .none)) :=
  ⟨⟨({ coreIn .train with cal := { train := [(3, { step := 1, tries := 0, rank := 1 })] } }).setFld (Fld.CLK_DLL.LOCKED 3) 1,
    3, 1, .ck, canonOf (by decide +kernel), by decide +kernel⟩,
   ⟨({ coreIn .train with cal := { train := [(3, { step := 1, tries := 0, rank := 1 })] } }).setFld Fld.DPH_TRAINCFG.RETRIES 2,
    3, 1, .ck, canonOf (by decide +kernel), by decide +kernel⟩,
   ⟨{ coreIn .train with cal := { train := [(3, { step := 2, tries := 0, rank := 1 })] } }, 3, 1, .settings, canonOf
    (by decide +kernel), by decide +kernel⟩,
   ⟨(({ coreIn .train with cal := { train := [(3, { step := 3, tries := 0, rank := 0 })] } }).setFld Fld.MAP_GEOM.RANK_BITS
    1).setFld Fld.MAP_GEOM.SC_BITS 2 |> fun s => (s.setFld Fld.MAP_GEOM.DENSITY 0).setFld Fld.MAP_GEOM.DIE_BITS 0, 3, 0,
    .devices (List.replicate 10 (some { width := 4, density := 0, stack := 0 })), List.replicate 10 (some
    { width := 4, density := 0, stack := 0 }), canonOf (by decide +kernel), by decide +kernel⟩,
   ⟨{ coreIn .train with cal := { train := [(3, { step := 5, tries := 0, rank := 1 })] } }, 3, 1, .caCs (some ([1], [2, 3],
    [4])), [1], [2, 3], [4], canonOf (by decide +kernel), by decide +kernel⟩,
   ⟨{ coreIn .train with cal := { train := [(3, { step := 6, tries := 0, rank := 1 })] } }, 3, 1, .level (some [3]), [3],
    canonOf (by decide +kernel), by decide +kernel⟩,
   ⟨({ coreIn .train with cal := { train := [(3, { step := 5, tries := 0, rank := 1 })] } }).setFld Fld.DPH_TRAINCFG.RETRIES 2,
    3, 1, .caCs none, canonOf (by decide +kernel), by decide +kernel⟩,
   ⟨({ coreIn .train with cal := { train := [(3, { step := 6, tries := 0, rank := 1 })] } }).setFld Fld.DPH_TRAINCFG.RETRIES 2,
    3, 1, .level none, canonOf (by decide +kernel), by decide +kernel⟩,
   ⟨({ coreIn .train with cal := { train := [(3, { step := 7, tries := 0, rank := 1 })] } }).setFld Fld.DPH_TRAINCFG.RETRIES 2,
    3, 1, .readSweep none, canonOf (by decide +kernel), by decide +kernel⟩,
   ⟨({ coreIn .train with cal := { train := [(3, { step := 8, tries := 0, rank := 1 })] } }).setFld Fld.DPH_TRAINCFG.RETRIES 2,
    3, 1, .writeSweep none, canonOf (by decide +kernel), by decide +kernel⟩,
   ⟨({ coreIn .train with cal := { train := [(3, { step := 9, rank := 1, readmit := true })] } }).setFld Fld.MAP_GEOM.DIE_BITS
    0, 3, 1, .check { read := [], write := [], lines := List.replicate 8 [], alerted := true, replayed := true },
    { read := [], write := [], lines := List.replicate 8 [], alerted := true, replayed := true }, canonOf
    (by decide +kernel), by decide +kernel⟩,
   ⟨{ coreIn .train with flt := { ranks := [(0, { trained := true })] } }, none, none, canonOf (by decide +kernel),
    by decide +kernel⟩,
   ⟨State.reset, none, none, canonOf (by decide +kernel), by decide +kernel⟩,
   ⟨{ coreIn .train with flt := { ranks := [] } }, none, none, canonOf (by decide +kernel), by decide +kernel⟩,
   ⟨((({ coreIn .join with mir := { recorded := .paired, epoch := 5 }, twin := { peerEpoch := some 5, peerState := 1 } }).setLink
    .u2
    { upLink with peerNeg := some { linkRevs := 1, mirRevs := 1, features := 0, profile := 0, node := 0, port := 0, domain := 0 } }).setFld
    Fld.MIR_WITNESS.WITNESS_ID 0).setLink .t upLink, canonOf (by decide +kernel), by decide +kernel⟩,
   ⟨inTrain
    (((({ coreIn .join with mir := { recorded := .paired, epoch := 5 }, twin := { peerEpoch := some 5, peerState := 1 } }).setLink
    .u2
    { upLink with peerNeg := some { linkRevs := 1, mirRevs := 1, features := 0, profile := 0, node := 0, port := 0, domain := 0 } }).setFld
    Fld.MIR_WITNESS.WITNESS_ID 0).setLink .t upLink), canonOf (by decide +kernel), by decide +kernel⟩,
   ⟨{ coreIn .join with mir := { recorded := .paired, epoch := 5 }, twin := { peerEpoch := some 5, peerState := 1 } }, canonOf
    (by decide +kernel), by decide +kernel⟩,
   ⟨(({ coreIn .join with mir := { pstate := .solo, epoch := 5 } }).setLink .u2
    { upLink with peerNeg := some { linkRevs := 1, mirRevs := 1, features := 0, profile := 0, node := 0, port := 0, domain := 0 } }).setFld
    Fld.MIR_WITNESS.WITNESS_ID 0, canonOf (by decide +kernel), by decide +kernel⟩,
   ⟨{ coreIn .join with mir := { pstate := .solo, epoch := 5 } }, canonOf (by decide +kernel), by decide +kernel⟩,
   ⟨{ coreIn .join with mir := { recorded := .fenced, epoch := 5 } }, canonOf (by decide +kernel), by decide +kernel⟩,
   ⟨coreIn .join, canonOf (by decide +kernel), by decide +kernel⟩,
   ⟨inTrain (coreIn .join), canonOf (by decide +kernel), by decide +kernel⟩⟩

/-- What each clause of `Obligations.LinkTrainingRuns` asks for can be met. -/
theorem test_witness_link_training_runs :
    (∃ (s : State) (p : Port), s.canon ∧ (s.link p).lstate = .down ∧ s.top.state.linksAllowed = true) ∧
    (∃ (s : State) (p : Port), s.canon ∧ ((s.link p).lstate ≠ .down ∨ s.top.state.linksAllowed = false)) ∧
    (∃ (s : State) (p : Port) (rate : BitVec 2) (width : BitVec 2) (reversed : Bool) (polinv : BitVec 16), s.canon ∧ (s.link
      p).lstate = .train ∧ s.widthOk p width = true ∧ s.rateOk p rate = true) ∧
    (∃ (s : State) (p : Port) (rate : BitVec 2) (width : BitVec 2) (reversed : Bool) (polinv : BitVec 16), s.canon ∧ ((s.link
      p).lstate ≠ .train ∨ s.widthOk p width = false ∨ s.rateOk p rate = false)) ∧
    (∃ (s : State) (p : Port) (lastStep : BitVec 4), s.canon ∧ (s.link p).lstate = .train) ∧
    (∃ (s : State) (p : Port) (lastStep : BitVec 4), s.canon ∧ (s.link p).lstate ≠ .train) ∧
    (∃ (s : State) (p : Port) (m : NegMsg), s.canon ∧ (s.link p).lstate = .init ∧ (s.link p).peerNeg = none) ∧
    (∃ (s : State) (p : Port) (m : NegMsg), s.canon ∧ (s.link p).lstate = .init ∧ (s.link p).peerNeg ≠ none) ∧
    (∃ (s : State) (p : Port) (m : NegMsg), s.canon ∧ (s.link p).up = true) ∧
    (∃ (s : State) (p : Port) (m : NegMsg), s.canon ∧ ((s.link p).lstate = .down ∨ (s.link p).lstate = .train)) ∧
    (∃ (s : State) (p : Port) (m : NegAckMsg) (n : NegMsg) (a : NegAckMsg), s.canon ∧ (s.link p).lstate = .init ∧ (s.link
      p).gotAck = false ∧ (s.link p).peerNeg = some n ∧ (s.link p).myAck = some a ∧ a.result = 0 ∧ m = a) ∧
    (∃ (s : State) (p : Port) (m : NegAckMsg) (n : NegMsg) (a : NegAckMsg), s.canon ∧ (s.link p).lstate = .init ∧ (s.link
      p).gotAck = false ∧ (s.link p).peerNeg = some n ∧ (s.link p).myAck = some a ∧ a.result ≠ 0 ∧ a.result.toNat < 16 ∧
      m.result.toNat ≤ 7) ∧
    (∃ (s : State) (p : Port) (m : NegAckMsg) (n : NegMsg) (a : NegAckMsg), s.canon ∧ (s.link p).lstate = .init ∧ (s.link
      p).gotAck = false ∧ (s.link p).peerNeg = some n ∧ (s.link p).myAck = some a ∧ a.result = 0 ∧ m.result ≠ 0 ∧
      m.result.toNat ≤ 7) ∧
    (∃ (s : State) (p : Port) (m : NegAckMsg), s.canon ∧ (s.link p).lstate = .init ∧ (s.link p).gotAck = false ∧ (s.link
      p).peerNeg = none ∧ m.result.toNat ≤ 7) ∧
    (∃ (s : State) (p : Port) (m : NegAckMsg), s.canon ∧ ((s.link p).lstate = .down ∨ (s.link p).lstate = .train)) ∧
    (∃ (s : State) (p : Port) (m : NegAckMsg), s.canon ∧ ((s.link p).lstate = .init ∨ (s.link p).up = true) ∧ (7 < m.result.toNat
      ∨ (s.link p).up = true)) ∧
    (∃ (s : State) (p : Port), s.canon ∧ (s.link p).lstate = .init) ∧
    (∃ (s : State) (p : Port), s.canon ∧ (s.link p).lstate ≠ .init) :=
  ⟨⟨coreIn .join, .u2, canonOf (by decide +kernel), by decide +kernel⟩,
   ⟨inTrain (coreIn .join), .u2, canonOf (by decide +kernel), by decide +kernel⟩,
   ⟨((coreIn .service).setLink .u1 { lstate := .train }).setLink .t { lstate := .train }, .u1, 0, 3, true, 0x1234, canonOf
    (by decide +kernel), by decide +kernel⟩,
   ⟨State.reset, .u1, 0, 3, true, 0x1234, canonOf (by decide +kernel), by decide +kernel⟩,
   ⟨((coreIn .service).setLink .u1 { lstate := .train, attempts := 2 }).setLink .t { lstate := .train, attempts := 2 }, .u1, 3,
    canonOf (by decide +kernel), by decide +kernel⟩,
   ⟨State.reset, .u1, 3, canonOf (by decide +kernel), by decide +kernel⟩,
   ⟨((coreIn .service).setLink .u1 { lstate := .init }).setLink .t { lstate := .init }, .u1,
    { linkRevs := 1, mirRevs := 1, features := 6, profile := 1, node := 2, port := 1, domain := 3 }, canonOf
    (by decide +kernel), by decide +kernel⟩,
   ⟨((coreIn .service).setLink .u1
    { lstate := .init, peerNeg := some { linkRevs := 1, mirRevs := 1, features := 6, profile := 1, node := 2, port := 1, domain := 3 } }).setLink
    .t
    { lstate := .init, peerNeg := some { linkRevs := 1, mirRevs := 1, features := 6, profile := 1, node := 2, port := 1, domain := 3 } },
    .u1, { linkRevs := 1, mirRevs := 1, features := 6, profile := 1, node := 2, port := 1, domain := 3 }, canonOf
    (by decide +kernel), by decide +kernel⟩,
   ⟨((coreIn .service).setLink .u1 { lstate := .service }).setLink .t { lstate := .service }, .u1,
    { linkRevs := 1, mirRevs := 1, features := 6, profile := 1, node := 2, port := 1, domain := 3 }, canonOf
    (by decide +kernel), by decide +kernel⟩,
   ⟨State.reset, .u1, { linkRevs := 1, mirRevs := 1, features := 6, profile := 1, node := 2, port := 1, domain := 3 }, canonOf
    (by decide +kernel), by decide +kernel⟩,
   ⟨((coreIn .service).setLink .u1
    { lstate := .init, peerNeg := some { linkRevs := 1, mirRevs := 1, features := 6, profile := 1, node := 2, port := 1, domain := 3 }, myAck := some { result := 0, linkRev := 1, mirRev := 1, features := 6 } }).setLink
    .t
    { lstate := .init, peerNeg := some { linkRevs := 1, mirRevs := 1, features := 6, profile := 1, node := 2, port := 1, domain := 3 }, myAck := some { result := 0, linkRev := 1, mirRev := 1, features := 6 } },
    .u1, { result := 0, linkRev := 1, mirRev := 1, features := 6 },
    { linkRevs := 1, mirRevs := 1, features := 6, profile := 1, node := 2, port := 1, domain := 3 },
    { result := 0, linkRev := 1, mirRev := 1, features := 6 }, canonOf (by decide +kernel), by decide +kernel⟩,
   ⟨((coreIn .service).setLink .u1
    { lstate := .init, peerNeg := some { linkRevs := 1, mirRevs := 1, features := 6, profile := 1, node := 2, port := 1, domain := 3 }, myAck := some { result := 5, linkRev := 1, mirRev := 1, features := 6 } }).setLink
    .t
    { lstate := .init, peerNeg := some { linkRevs := 1, mirRevs := 1, features := 6, profile := 1, node := 2, port := 1, domain := 3 }, myAck := some { result := 5, linkRev := 1, mirRev := 1, features := 6 } },
    .u1, { result := 0, linkRev := 1, mirRev := 1, features := 6 },
    { linkRevs := 1, mirRevs := 1, features := 6, profile := 1, node := 2, port := 1, domain := 3 },
    { result := 5, linkRev := 1, mirRev := 1, features := 6 }, canonOf (by decide +kernel), by decide +kernel⟩,
   ⟨((coreIn .service).setLink .u1
    { lstate := .init, peerNeg := some { linkRevs := 1, mirRevs := 1, features := 6, profile := 1, node := 2, port := 1, domain := 3 }, myAck := some { result := 0, linkRev := 1, mirRev := 1, features := 6 } }).setLink
    .t
    { lstate := .init, peerNeg := some { linkRevs := 1, mirRevs := 1, features := 6, profile := 1, node := 2, port := 1, domain := 3 }, myAck := some { result := 0, linkRev := 1, mirRev := 1, features := 6 } },
    .u1, { result := 5, linkRev := 0, mirRev := 0, features := 0 },
    { linkRevs := 1, mirRevs := 1, features := 6, profile := 1, node := 2, port := 1, domain := 3 },
    { result := 0, linkRev := 1, mirRev := 1, features := 6 }, canonOf (by decide +kernel), by decide +kernel⟩,
   ⟨((coreIn .service).setLink .u1 { lstate := .init }).setLink .t { lstate := .init }, .u1,
    { result := 0, linkRev := 1, mirRev := 1, features := 6 }, canonOf (by decide +kernel), by decide +kernel⟩,
   ⟨State.reset, .u1, { result := 0, linkRev := 1, mirRev := 1, features := 6 }, canonOf (by decide +kernel),
    by decide +kernel⟩,
   ⟨((coreIn .service).setLink .u1 { lstate := .init }).setLink .t { lstate := .init }, .u1,
    { result := 9, linkRev := 1, mirRev := 1, features := 6 }, canonOf (by decide +kernel), by decide +kernel⟩,
   ⟨((coreIn .service).setLink .u1 { lstate := .init, attempts := 1 }).setLink .t { lstate := .init, attempts := 1 }, .u1,
    canonOf (by decide +kernel), by decide +kernel⟩,
   ⟨State.reset, .u1, canonOf (by decide +kernel), by decide +kernel⟩⟩

/-- What each clause of `Obligations.RetrainingRuns` asks for can be met. -/
theorem test_witness_retraining_runs :
    (∃ (s : State) (p : Port), s.canon ∧ (s.link p).lstate = .service ∧ (s.link p).plnWaiting = false) ∧
    (∃ (s : State) (p : Port), s.canon ∧ (s.link p).lstate ≠ .service) ∧
    (∃ (s : State) (p : Port), s.canon ∧ (s.link p).lstate = .service ∧ (s.link p).plnWaiting = true) ∧
    (∃ (s : State) (p : Port), s.canon ∧ (s.link p).lstate = .service ∧ (s.link p).deferred = true) ∧
    (∃ (s : State) (p : Port), s.canon ∧ ((s.link p).lstate ≠ .service ∨ (s.link p).deferred = false)) ∧
    (∃ (s : State) (p : Port), s.canon ∧ (s.link p).lstate = .retrain) ∧
    (∃ (s : State) (p : Port), s.canon ∧ (s.link p).lstate ≠ .retrain) ∧
    (∃ (s : State) (p : Port) (rate : BitVec 2) (width : BitVec 2), s.canon ∧ (s.link p).lstate = .retrain ∧ s.retrainTo p rate
      width = true) ∧
    (∃ (s : State) (p : Port) (rate : BitVec 2) (width : BitVec 2), s.canon ∧ ((s.link p).lstate ≠ .retrain ∨ s.retrainTo p rate
      width = false)) ∧
    (∃ (s : State) (p : Port), s.canon ∧ (s.link p).lstate = .retrain) ∧
    (∃ (s : State) (p : Port), s.canon ∧ (s.link p).lstate ≠ .retrain) ∧
    (∃ (s : State) (p : Port), s.canon ∧ (s.link p).nakWait = true) ∧
    (∃ (s : State) (p : Port), s.canon ∧ (s.link p).nakWait = false) ∧
    (∃ (s : State) (p : Port), s.canon ∧ ((s.link p).lstate = .init ∨ (s.link p).lstate = .service) ∧ (s.link p).buf ≠ []) ∧
    (∃ (s : State) (p : Port), s.canon ∧ ((s.link p).lstate = .down ∨ (s.link p).buf = [])) :=
  ⟨⟨((coreIn .service).setLink .u1 upLink).setLink .t upLink, .u1, canonOf (by decide +kernel), by decide +kernel⟩,
   ⟨State.reset, .u1, canonOf (by decide +kernel), by decide +kernel⟩,
   ⟨((coreIn .service).setLink .u1 { lstate := .service, plnFirst := 3 }).setLink .t { lstate := .service, plnFirst := 3 },
    .u1, canonOf (by decide +kernel), by decide +kernel⟩,
   ⟨((coreIn .service).setLink .u1 { lstate := .service, deferred := true }).setLink .t
    { lstate := .service, deferred := true }, .u1, canonOf (by decide +kernel), by decide +kernel⟩,
   ⟨State.reset, .u1, canonOf (by decide +kernel), by decide +kernel⟩,
   ⟨((coreIn .service).setLink .u1 { lstate := .retrain }).setLink .t { lstate := .retrain }, .u1, canonOf (by decide +kernel),
    by decide +kernel⟩,
   ⟨State.reset, .u1, canonOf (by decide +kernel), by decide +kernel⟩,
   ⟨((((coreIn .service).setLink .u1 { lstate := .retrain, refill := true }).setLink .t
    { lstate := .retrain, refill := true }).setFld (Fld.LNK_STATUS.WIDTH 1) 3).setFld (Fld.LNK_STATUS.RATE 1) 2, .u1, 1, 3,
    canonOf (by decide +kernel), by decide +kernel⟩,
   ⟨State.reset, .u1, 1, 3, canonOf (by decide +kernel), by decide +kernel⟩,
   ⟨((coreIn .service).setLink .u1 { lstate := .retrain, attempts := 1 }).setLink .t { lstate := .retrain, attempts := 1 },
    .u1, canonOf (by decide +kernel), by decide +kernel⟩,
   ⟨State.reset, .u1, canonOf (by decide +kernel), by decide +kernel⟩,
   ⟨((coreIn .service).setLink .u1 { lstate := .service, nakWait := true }).setLink .t { lstate := .service, nakWait := true },
    .u1, canonOf (by decide +kernel), by decide +kernel⟩,
   ⟨State.reset, .u1, canonOf (by decide +kernel), by decide +kernel⟩,
   ⟨((coreIn .service).setLink .u1 { lstate := .service, buf := [⟨5, [], false⟩] }).setLink .t
    { lstate := .service, buf := [⟨5, [], false⟩] }, .u1, canonOf (by decide +kernel), by decide +kernel⟩,
   ⟨State.reset, .u1, canonOf (by decide +kernel), by decide +kernel⟩⟩

/-- What each clause of `Obligations.FlitsRun` asks for can be met. -/
theorem test_witness_flits_run :
    (∃ (s : State) (p : Port) (bytes : List Byte) (b : List Byte), s.canon ∧ ((s.link p).lstate = .init ∨ (s.link p).lstate =
      .service ∨ (s.link p).lstate = .retrain) ∧ fecDecode bytes = (b, 0) ∧ flitGood b = true ∧ (headerOf b).kind = 0 ∧
      (headerOf b).pln = false ∧ (headerOf b).seq = (s.link p).exp ∧ (headerOf b).ackv = false ∧ (headerOf b).nak = false) ∧
    (∃ (s : State) (p : Port) (bytes : List Byte) (b : List Byte), s.canon ∧ ((s.link p).lstate = .init ∨ (s.link p).lstate =
      .service ∨ (s.link p).lstate = .retrain) ∧ fecDecode bytes = (b, 0) ∧ flitGood b = true ∧ (headerOf b).kind = 0 ∧
      (headerOf b).pln = false ∧ 0 < ((headerOf b).seq - (s.link p).exp).toNat ∧ ((headerOf b).seq - (s.link p).exp).toNat <
      512 ∧ (headerOf b).ackv = false ∧ (headerOf b).nak = false) ∧
    (∃ (s : State) (p : Port) (bytes : List Byte) (b : List Byte), s.canon ∧ ((s.link p).lstate = .init ∨ (s.link p).lstate =
      .service ∨ (s.link p).lstate = .retrain) ∧ fecDecode bytes = (b, 0) ∧ flitGood b = true ∧ (headerOf b).kind = 0 ∧
      (headerOf b).pln = false ∧ 512 ≤ ((headerOf b).seq - (s.link p).exp).toNat ∧ (headerOf b).ackv = false ∧ (headerOf
      b).nak = false) ∧
    (∃ (s : State) (p : Port) (bytes : List Byte) (b : List Byte), s.canon ∧ ((s.link p).lstate = .init ∨ (s.link p).lstate =
      .service ∨ (s.link p).lstate = .retrain) ∧ fecDecode bytes = (b, 0) ∧ flitGood b = true ∧ (headerOf b).kind = 1 ∧
      (headerOf b).pln = false ∧ (headerOf b).ackv = true ∧ (headerOf b).nak = false) ∧
    (∃ (s : State) (p : Port) (bytes : List Byte), s.canon ∧ ((s.link p).lstate = .init ∨ (s.link p).lstate = .service ∨ (s.link
      p).lstate = .retrain) ∧ flitGood (fecDecode bytes).1 = false) ∧
    (∃ (s : State) (p : Port) (bytes : List Byte), s.canon ∧ ((s.link p).lstate = .down ∨ (s.link p).lstate = .train ∨ (s.link
      p).lstate = .still)) ∧
    (∃ (s : State) (p : Port), s.canon ∧ (s.link p).lstate = .init) ∧
    (∃ (s : State) (p : Port), s.canon ∧ ((s.link p).lstate = .down ∨ (s.link p).lstate = .train)) ∧
    (∃ (s : State) (p : Port), s.canon ∧ (s.link p).lstate = .service) ∧
    (∃ (s : State) (p : Port), s.canon ∧ (s.link p).lstate = .retrain) ∧
    (∃ (s : State) (p : Port), s.canon ∧ (s.link p).lstate = .still ∧ (s.link p).linkCtl = none ∧ 0 < (s.link p).stillOut) ∧
    (∃ (s : State) (p : Port) (c : Byte) (r : Byte), s.canon ∧ (s.link p).lstate = .still ∧ (s.link p).linkCtl = some (c, r)) ∧
    (∃ (s : State) (p : Port) (m : CreditMsg), s.canon ∧ ((s.link p).up = true ∨ (s.link p).lstate = .init) ∧ badCredit p (s.link
      p) m = false) ∧
    (∃ (s : State) (p : Port) (m : CreditMsg), s.canon ∧ ((s.link p).lstate = .down ∨ (s.link p).lstate = .train)) ∧
    (∃ (s : State) (p : Port) (m : CreditMsg), s.canon ∧ ((s.link p).up = true ∨ (s.link p).lstate = .init) ∧ badCredit p (s.link
      p) m = true) ∧
    (∃ (s : State) (p : Port), s.canon ∧ (s.link p).up = true ∧ (s.link p).owed.any = true) ∧
    (∃ (s : State) (p : Port), s.canon ∧ (s.link p).up = false) :=
  ⟨⟨((coreIn .service).setLink .u1 { upLink with exp := 7 }).setLink .t { upLink with exp := 7 }, .u1, flitSeal (headerBytes
    { kind := 0, slotMap := 2, pln := false, replay := false, ackv := false, seq := 7, ack := 3, nak := false } ++
    List.replicate 240 0), flitSeal (headerBytes
    { kind := 0, slotMap := 2, pln := false, replay := false, ackv := false, seq := 7, ack := 3, nak := false } ++
    List.replicate 240 0), canonOf (by decide +kernel), by decide +kernel⟩,
   ⟨((coreIn .service).setLink .u1 { upLink with exp := 5 }).setLink .t { upLink with exp := 5 }, .u1, flitSeal (headerBytes
    { kind := 0, slotMap := 2, pln := false, replay := false, ackv := false, seq := 7, ack := 3, nak := false } ++
    List.replicate 240 0), flitSeal (headerBytes
    { kind := 0, slotMap := 2, pln := false, replay := false, ackv := false, seq := 7, ack := 3, nak := false } ++
    List.replicate 240 0), canonOf (by decide +kernel), by decide +kernel⟩,
   ⟨((coreIn .service).setLink .u1 { upLink with exp := 9 }).setLink .t { upLink with exp := 9 }, .u1, flitSeal (headerBytes
    { kind := 0, slotMap := 2, pln := false, replay := false, ackv := false, seq := 7, ack := 3, nak := false } ++
    List.replicate 240 0), flitSeal (headerBytes
    { kind := 0, slotMap := 2, pln := false, replay := false, ackv := false, seq := 7, ack := 3, nak := false } ++
    List.replicate 240 0), canonOf (by decide +kernel), by decide +kernel⟩,
   ⟨((coreIn .service).setLink .u1 { upLink with exp := 9, buf := [⟨3, [], false⟩] }).setLink .t
    { upLink with exp := 9, buf := [⟨3, [], false⟩] }, .u1, flitSeal (headerBytes
    { kind := 1, slotMap := 0, pln := false, replay := false, ackv := true, seq := 7, ack := 3, nak := false } ++
    List.replicate 240 0), flitSeal (headerBytes
    { kind := 1, slotMap := 0, pln := false, replay := false, ackv := true, seq := 7, ack := 3, nak := false } ++
    List.replicate 240 0), canonOf (by decide +kernel), by decide +kernel⟩,
   ⟨((coreIn .service).setLink .u1 { upLink with exp := 7 }).setLink .t { upLink with exp := 7 }, .u1, List.replicate 256 0x11,
    canonOf (by decide +kernel), by decide +kernel⟩,
   ⟨State.reset, .u1, List.replicate 256 0x11, canonOf (by decide +kernel), by decide +kernel⟩,
   ⟨((coreIn .service).setLink .u1 { lstate := .init, nakOut := true, tx := [.msg 5] }).setLink .t
    { lstate := .init, nakOut := true, tx := [.msg 5] }, .u1, canonOf (by decide +kernel), by decide +kernel⟩,
   ⟨State.reset, .u1, canonOf (by decide +kernel), by decide +kernel⟩,
   ⟨((coreIn .service).setLink .u1 { upLink with nakOut := true, tx := [.msg 5] }).setLink .t
    { upLink with nakOut := true, tx := [.msg 5] }, .u1, canonOf (by decide +kernel), by decide +kernel⟩,
   ⟨((coreIn .service).setLink .u1 { upLink with lstate := .retrain, nakOut := true, tx := [.msg 5] }).setLink .t
    { upLink with lstate := .retrain, nakOut := true, tx := [.msg 5] }, .u1, canonOf (by decide +kernel), by decide +kernel⟩,
   ⟨((coreIn .service).setLink .u1 { lstate := .still, stillOut := 8 }).setLink .t { lstate := .still, stillOut := 8 }, .u1,
    canonOf (by decide +kernel), by decide +kernel⟩,
   ⟨((coreIn .service).setLink .u1 { lstate := .still, linkCtl := some (2, 0) }).setLink .t
    { lstate := .still, linkCtl := some (2, 0) }, .u1, 2, 0, canonOf (by decide +kernel), by decide +kernel⟩,
   ⟨((coreIn .service).setLink .u1 { lstate := .service }).setLink .t { lstate := .service }, .u1,
    { init := false, req := 1, rd := 1, lq := 1, wd := 1, mg := 1, ev := 0 }, canonOf (by decide +kernel),
    by decide +kernel⟩,
   ⟨State.reset, .u1, { init := false, req := 1, rd := 1, lq := 1, wd := 1, mg := 1, ev := 0 }, canonOf (by decide +kernel),
    by decide +kernel⟩,
   ⟨((coreIn .service).setLink .u1 { lstate := .service, gotCredit := true }).setLink .t
    { lstate := .service, gotCredit := true }, .u1, { init := true, req := 1, rd := 1, lq := 1, wd := 1, mg := 1, ev := 0 },
    canonOf (by decide +kernel), by decide +kernel⟩,
   ⟨((coreIn .service).setLink .u1 { upLink with owed := { req := 2 } }).setLink .t { upLink with owed := { req := 2 } }, .u1,
    canonOf (by decide +kernel), by decide +kernel⟩,
   ⟨State.reset, .u1, canonOf (by decide +kernel), by decide +kernel⟩⟩

/-- What each clause of `Obligations.StillAndMarginRun` asks for can be met. -/
theorem test_witness_still_and_margin_run :
    (∃ (s : State) (p : Port), s.canon ∧ (s.link p).lstate = .service ∧ p ≠ .t ∧ s.flag (Fld.LNK_CFG.STILL_EN p.idx) = true ∧
      s.top.state = .service ∧ (s.link p).buf = [] ∧ (s.link p).trafficWaits = false ∧ (s.link p).pln = none ∧ s.eventWaits
      p = false ∧ (∀ r ∈ s.ord.ret, r.port ≠ p)) ∧
    (∃ (s : State) (p : Port), s.canon ∧ (s.link p).lstate = .service ∧ p ≠ .t ∧ s.flag (Fld.LNK_CFG.STILL_EN p.idx) = false) ∧
    (∃ (s : State) (p : Port), s.canon ∧ ((s.link p).lstate ≠ .service ∨ p = .t)) ∧
    (∃ (s : State) (p : Port), s.canon ∧ (s.link p).lstate = .still) ∧
    (∃ (s : State) (p : Port), s.canon ∧ ((s.link p).lstate ≠ .still ∧ (s.link p).lstate ≠ .retrain)) ∧
    (∃ (s : State) (p : Port), s.canon ∧ (s.link p).lstate = .retrain ∧ (s.link p).wakeDue = true ∧ (s.link p).wake ≠ none) ∧
    (∃ (s : State) (p : Port) (reason : BitVec 2), s.canon ∧ (s.link p).lstate = .still ∧ s.wakeReason p = some reason) ∧
    (∃ (s : State) (p : Port) (reason : BitVec 2), s.canon ∧ ((s.link p).lstate ≠ .still ∨ s.wakeReason p ≠ some reason)) ∧
    (∃ (s : State) (p : Port) (value : Word), s.canon ∧ (s.link p).lstate = .service ∧ value.getLsbD 14 = true ∧ (p = .t ∨
      fieldGet value 3 0 < 8)) ∧
    (∃ (s : State) (p : Port) (value : Word), s.canon ∧ ((s.link p).lstate ≠ .service ∨ value.getLsbD 14 = false)) ∧
    (∃ (s : State) (p : Port), s.canon ∧ s.flag (Fld.LNK_MARGIN.GO p.idx) = true) ∧
    (∃ (s : State) (p : Port), s.canon ∧ s.flag (Fld.LNK_MARGIN.GO p.idx) = false) ∧
    (∃ (s : State) (p : Port) (m : Msg), s.canon ∧ ((s.link p).up = true ∨ (s.link p).lstate = .init) ∧ bitsOf m 7 0 ≠ 0) ∧
    (∃ (s : State) (p : Port) (m : Msg), s.canon ∧ ((s.link p).lstate = .down ∨ bitsOf m 7 0 = 0)) ∧
    (∃ (s : State) (p : Port) (item : CreditedItem) (op : HostOp) (r : HostReq), s.canon ∧ (s.link p).takes = true ∧ p ≠ .t ∧
      (s.link p).granted.covers (itemCost item p) = false ∧ item = .request op r) ∧
    (∃ (s : State) (p : Port) (item : CreditedItem), s.canon ∧ ((s.link p).takes = false ∨ (s.link p).granted.covers (itemCost
      item p) = true)) ∧
    (∃ (s : State) (p : Port) (item : CreditedItem) (mtag : BitVec 4), s.canon ∧ (s.link p).takes = true ∧ (s.link
      p).granted.covers (itemCost item p) = false ∧ item = .mgt mtag) ∧
    (∃ (s : State) (d : DataSlot), s.canon ∧ (s.link .t).takes = true ∧ (s.link .t).granted.covers lineCost = false) :=
  ⟨⟨(((coreIn .service).setLink .u1 upLink).setLink .t upLink).setFld (Fld.LNK_CFG.STILL_EN 1) 1, .u1, canonOf
    (by decide +kernel), by decide +kernel⟩,
   ⟨(((coreIn .service).setLink .u1 upLink).setLink .t upLink).setFld (Fld.LNK_CFG.STILL_EN 1) 0, .u1, canonOf
    (by decide +kernel), by decide +kernel⟩,
   ⟨State.reset, .u1, canonOf (by decide +kernel), by decide +kernel⟩,
   ⟨((coreIn .service).setLink .u1 { upLink with lstate := .still, pairWake := true }).setLink .t
    { upLink with lstate := .still, pairWake := true }, .u1, canonOf (by decide +kernel), by decide +kernel⟩,
   ⟨State.reset, .u1, canonOf (by decide +kernel), by decide +kernel⟩,
   ⟨((coreIn .service).setLink .u1 { upLink with lstate := .retrain, wakeDue := true, wake := some 2 }).setLink .t
    { upLink with lstate := .retrain, wakeDue := true, wake := some 2 }, .u1, canonOf (by decide +kernel),
    by decide +kernel⟩,
   ⟨((coreIn .service).setLink .u1 { upLink with lstate := .still, pairWake := true }).setLink .t
    { upLink with lstate := .still, pairWake := true }, .u1, 3, canonOf (by decide +kernel), by decide +kernel⟩,
   ⟨State.reset, .u1, 3, canonOf (by decide +kernel), by decide +kernel⟩,
   ⟨((coreIn .service).setLink .u1 { upLink with margBad := 3 }).setLink .t { upLink with margBad := 3 }, .u1, 0xFFFF4005,
    canonOf (by decide +kernel), by decide +kernel⟩,
   ⟨State.reset, .u1, 0xFFFF4005, canonOf (by decide +kernel), by decide +kernel⟩,
   ⟨((((coreIn .service).setLink .u1 { upLink with margBad := 8 }).setLink .t { upLink with margBad := 8 }).setFld
    (Fld.LNK_MARGIN.GO 1) 1).setFld (Fld.LNK_MARGIN.GO 4) 1, .u1, canonOf (by decide +kernel), by decide +kernel⟩,
   ⟨State.reset, .u1, canonOf (by decide +kernel), by decide +kernel⟩,
   ⟨((coreIn .service).setLink .u1 upLink).setLink .t upLink, .u1, 0xFF, canonOf (by decide +kernel), by decide +kernel⟩,
   ⟨State.reset, .u1, 0xFF, canonOf (by decide +kernel), by decide +kernel⟩,
   ⟨((coreIn .service).setLink .u1 { upLink with granted := {} }).setLink .t { upLink with granted := {} }, .u1, .request .read
    { tag := 3, acc := false, stream := 0, addr := 64 }, .read, { tag := 3, acc := false, stream := 0, addr := 64 }, canonOf
    (by decide +kernel), by decide +kernel⟩,
   ⟨State.reset, .u1, .request .read { tag := 3, acc := false, stream := 0, addr := 64 }, canonOf (by decide +kernel),
    by decide +kernel⟩,
   ⟨((coreIn .service).setLink .u1 { upLink with granted := {} }).setLink .t { upLink with granted := {} }, .u1, .mgt 4, 4,
    canonOf (by decide +kernel), by decide +kernel⟩,
   ⟨((coreIn .service).setLink .u1 { upLink with granted := {} }).setLink .t { upLink with granted := {} },
    { line := 0, lseal := 0, tag := 3, form := 3, poison := false, stream := 0, ext := 0 }, canonOf (by decide +kernel),
    by decide +kernel⟩⟩

/-- What each clause of `Obligations.HostRequestsQueue` asks for can be met. -/
theorem test_witness_host_requests_queue :
    (∃ (s : State) (p : Port) (r : HostReq), s.canon ∧ s.takesHost p .read r = true) ∧
    (∃ (s : State) (p : Port) (r : HostReq), s.canon ∧ s.takesHost p .writeA r = true) ∧
    (∃ (s : State) (p : Port) (r : HostReq), s.canon ∧ s.takesHost p .writeD r = true) ∧
    (∃ (s : State) (p : Port) (r : HostReq), s.canon ∧ s.takesHost p .mwriteA r = true) ∧
    (∃ (s : State) (p : Port) (r : HostReq), s.canon ∧ s.takesHost p .mwriteD r = true) ∧
    (∃ (s : State) (p : Port) (r : HostReq), s.canon ∧ s.takesHost p .flush r = true) ∧
    (∃ (s : State) (p : Port) (op : HostOp) (r : HostReq), s.canon ∧ p ≠ .t ∧ (s.link p).lstate = .service ∧ (s.link
      p).granted.covers (opCost op) = true ∧ r.tag ∈ (s.link p).tags) ∧
    (∃ (s : State) (p : Port) (op : HostOp) (r : HostReq), s.canon ∧ r.tag ∉ (s.link p).tags) :=
  ⟨⟨(linked .service).setReg (Reg.LNK_FEAT 1) 0xFF, .u1, { tag := 3, acc := false, stream := 7, addr := 0x1000040 }, canonOf
    (by decide +kernel), by decide +kernel⟩,
   ⟨(linked .service).setReg (Reg.LNK_FEAT 1) 0xFF, .u1, { tag := 3, acc := false, stream := 7, addr := 0x1000040 }, canonOf
    (by decide +kernel), by decide +kernel⟩,
   ⟨(linked .service).setReg (Reg.LNK_FEAT 1) 0xFF, .u1, { tag := 3, acc := false, stream := 7, addr := 0x1000040 }, canonOf
    (by decide +kernel), by decide +kernel⟩,
   ⟨(linked .service).setReg (Reg.LNK_FEAT 1) 0xFF, .u1, { tag := 3, acc := false, stream := 7, addr := 0x1000040 }, canonOf
    (by decide +kernel), by decide +kernel⟩,
   ⟨(linked .service).setReg (Reg.LNK_FEAT 1) 0xFF, .u1, { tag := 3, acc := false, stream := 7, addr := 0x1000040 }, canonOf
    (by decide +kernel), by decide +kernel⟩,
   ⟨(linked .service).setReg (Reg.LNK_FEAT 1) 0xFF, .u1, { tag := 3, acc := false, stream := 7, addr := 0x1000040 }, canonOf
    (by decide +kernel), by decide +kernel⟩,
   ⟨(coreIn .service).setLink .u1 { upLink with tags := [3] }, .u1, .writeA,
    { tag := 3, acc := false, stream := 7, addr := 0x1000040 }, canonOf (by decide +kernel), by decide +kernel⟩,
   ⟨State.reset, .u1, .writeA, { tag := 3, acc := false, stream := 7, addr := 0x1000040 }, canonOf (by decide +kernel),
    by decide +kernel⟩⟩

/-- What each clause of `Obligations.HostDataAndMergeRun` asks for can be met. -/
theorem test_witness_host_data_and_merge_run :
    (∃ (s : State) (p : Port) (d : DataSlot), s.canon ∧ p ≠ .t ∧ (s.link p).lstate = .service ∧ d.poison = false ∧ d.form.toNat <
      2 ∧ (s.link p).lane = [] ∧ (s.link p).halves.any (fun h => h.tag == d.tag && h.drop) = false) ∧
    (∃ (s : State) (p : Port) (d : DataSlot) (q : LaneReq) (op : HostOp), s.canon ∧ p ≠ .t ∧ (s.link p).lstate = .service ∧
      d.poison = false ∧ d.form.toNat < 2 ∧ (s.link p).lane = [q] ∧ q.kind = .host op ∧ isWriteOp op = true ∧ q.tag = d.tag
      ∧ q.slot = none ∧ slotAgrees op q.stream d = true ∧ (s.link p).halves.any (fun h => h.tag == d.tag && h.drop) = false) ∧
    (∃ (s : State) (p : Port) (tag : BitVec 12) (h : Half), s.canon ∧ (s.link p).up = true ∧ (s.link p).lane.find? (fun q =>
      q.tag == tag && !q.ready) = none ∧ (s.link p).halves.find? (fun h => h.tag == tag) = some h) ∧
    (∃ (s : State) (p : Port) (tag : BitVec 12), s.canon ∧ (s.link p).up = false) ∧
    (∃ (s : State) (p : Port) (tag : BitVec 12) (q : LaneReq) (op : HostOp), s.canon ∧ (s.link p).up = true ∧ (s.link p).lane =
      [q] ∧ q.kind = .host op ∧ isWriteOp op = true ∧ q.tag = tag ∧ q.slot = none) ∧
    (∃ (s : State) (found : EntryCheck) (p : Port) (q : LaneReq) (rest : List LaneReq) (op : HostOp) (out : MapOut), s.canon ∧
      s.nextLane = some p ∧ (s.link p).lane = q :: rest ∧ q.kind = .host op ∧ s.mapHost p op q = out ∧ (out = .flush ∨ out =
      .forward ∨ out = .locally true ∨ out = .locally false) ∧ found = .ok) ∧
    (∃ (s : State) (found : EntryCheck), s.canon ∧ s.nextLane = none) ∧
    (∃ (s : State) (found : Option Line) (region : BitVec 18) (readable : Bool), s.canon ∧ region.toNat ∈ s.map.failed ∧
      s.readStands (0x10000 + 4 * region.toNat) = false ∧ s.map.due = [] ∧ found = (if readable then s.peekReserve (0x10000
      + 4 * region.toNat) else none)) ∧
    (∃ (s : State) (region : BitVec 18) (readable : Bool), s.canon ∧ (region.toNat ∉ s.map.failed ∨ s.readStands (0x10000 + 4 *
      region.toNat) = true)) :=
  ⟨⟨linked .service, .u1, { line := 5, lseal := 6, tag := 3, form := 0, poison := false, stream := 7, ext := 0 }, canonOf
    (by decide +kernel), by decide +kernel⟩,
   ⟨(coreIn .service).setLink .u1
    { upLink with lane := [{ kind := .host .writeA, tag := 3, stream := 7, addr := 0x1000040, reqNo := 4 }] }, .u1,
    { line := 5, lseal := 6, tag := 3, form := 0, poison := false, stream := 7, ext := 0 },
    { kind := .host .writeA, tag := 3, stream := 7, addr := 0x1000040, reqNo := 4 }, .writeA, canonOf (by decide +kernel),
    by decide +kernel⟩,
   ⟨(coreIn .service).setLink .u1
    { upLink with halves := [{ tag := 3, slot := some { line := 5, lseal := 6, tag := 3, form := 0, poison := false, stream := 7, ext := 0 } }] },
    .u1, 3,
    { tag := 3, slot := some { line := 5, lseal := 6, tag := 3, form := 0, poison := false, stream := 7, ext := 0 } },
    canonOf (by decide +kernel), by decide +kernel⟩,
   ⟨State.reset, .u1, 3, canonOf (by decide +kernel), by decide +kernel⟩,
   ⟨(coreIn .service).setLink .u1
    { upLink with lane := [{ kind := .host .writeA, tag := 3, stream := 7, addr := 0x1000040, reqNo := 4 }] }, .u1, 3,
    { kind := .host .writeA, tag := 3, stream := 7, addr := 0x1000040, reqNo := 4 }, .writeA, canonOf (by decide +kernel),
    by decide +kernel⟩,
   ⟨((coreIn .service).setLink .u1 { upLink with lane := [{ kind := .host .flush, tag := 3, stream := 7, reqNo := 4 }] }), .ok,
    .u1, { kind := .host .flush, tag := 3, stream := 7, reqNo := 4 }, [], .flush, .flush, canonOf (by decide +kernel),
    by decide +kernel⟩,
   ⟨State.reset, .ok, canonOf (by decide +kernel), by decide +kernel⟩,
   ⟨{ coreIn .service with map := { failed := [5] } }, none, 5, 0 % 3 != 2, canonOf (by decide +kernel), by decide +kernel⟩,
   ⟨State.reset, 5, 0 % 3 != 2, canonOf (by decide +kernel), by decide +kernel⟩⟩

/-- What each clause of `Obligations.OrderAndForkRun` asks for can be met. -/
theorem test_witness_order_and_fork_run :
    (∃ (s : State) (n : Nat) (m : Mapped) (f : Bool), s.canon ∧ s.top.trigger = none ∧ s.ord.admits < 4 ∧ firstOpen 0 []
      s.ord.mapped (fun m => m.turned.isSome || (m.counted && s.mustWait m) || (s.ord.agentQ.any (·.start) && !m.lane.isT))
      = some (n, m) ∧ s.mustWait m = false ∧ m.lane ≠ .t ∧ m.req.kind = .host .read ∧ m.out = .locally f) ∧
    (∃ (s : State) (n : Nat) (m : Mapped), s.canon ∧ s.top.trigger = none ∧ s.ord.admits < 4 ∧ firstOpen 0 [] s.ord.mapped (fun m
      => m.turned.isSome || (m.counted && s.mustWait m) || (s.ord.agentQ.any (·.start) && !m.lane.isT)) = some (n, m) ∧
      s.mustWait m = false ∧ m.lane ≠ .t ∧ m.req.kind = .host .read ∧ m.out = .forward) ∧
    (∃ (s : State) (n : Nat) (m : Mapped) (d : DataSlot), s.canon ∧ s.top.trigger = none ∧ s.ord.admits < 4 ∧ firstOpen 0 []
      s.ord.mapped (fun m => m.turned.isSome || (m.counted && s.mustWait m) || (s.ord.agentQ.any (·.start) && !m.lane.isT))
      = some (n, m) ∧ s.mustWait m = false ∧ m.lane ≠ .t ∧ m.req.kind = .host .writeA ∧ m.out = .locally true ∧ m.req.slot =
      some d ∧ s.map.failed = []) ∧
    (∃ (s : State) (n : Nat) (m : Mapped), s.canon ∧ s.top.trigger = none ∧ s.ord.admits < 4 ∧ firstOpen 0 [] s.ord.mapped (fun m
      => m.turned.isSome || (m.counted && s.mustWait m) || (s.ord.agentQ.any (·.start) && !m.lane.isT)) = some (n, m) ∧
      s.mustWait m = false ∧ m.lane ≠ .t ∧ m.req.kind = .host .flush ∧ m.out = .flush) ∧
    (∃ (s : State) (n : Nat) (m : Mapped), s.canon ∧ s.top.trigger = none ∧ s.ord.admits < 4 ∧ firstOpen 0 [] s.ord.mapped (fun m
      => m.turned.isSome || (m.counted && s.mustWait m) || (s.ord.agentQ.any (·.start) && !m.lane.isT)) = some (n, m) ∧
      s.mustWait m = true) ∧
    (∃ (s : State), s.canon ∧ (s.top.trigger ≠ none ∨ 4 ≤ s.ord.admits)) ∧
    (∃ (s : State) (bitmapLine : BitVec 15), s.canon ∧ s.readStands (0x110000 + 64 * bitmapLine.toNat) = false) ∧
    (∃ (s : State) (bitmapLine : BitVec 15), s.canon ∧ s.readStands (0x110000 + 64 * bitmapLine.toNat) = true) ∧
    (∃ (s : State) (i : Nat) (rest : List Nat) (e : PoolEntry), s.canon ∧ s.ord.backlog = i :: rest ∧ s.underShare = false ∧
      s.canFork = true ∧ s.entry i = some e ∧ (e.poison = true ∨ e.sealGood = true) ∧ s.twin.epochSent = some s.mir.epoch ∧
      s.mir.rbOut = []) ∧
    (∃ (s : State), s.canon ∧ s.ord.backlog = []) ∧
    (∃ (s : State) (i : Nat) (rest : List Nat) (e : PoolEntry), s.canon ∧ s.ord.backlog = i :: rest ∧ (s.mir.pstate.mirrors =
      false ∨ (s.link .t).lstate = .down) ∧ s.entry i = some e) ∧
    (∃ (s : State), s.canon ∧ s.ord.backlog = []) :=
  ⟨⟨{ linked .service with ord := { mapped := [{ lane := .u1, req := { kind := .host .read, tag := 3, addr := 0x40, reqNo := 4 }, out := .locally false, addr := 0x40, tracked := false }] } },
    0,
    { lane := .u1, req := { kind := .host .read, tag := 3, addr := 0x40, reqNo := 4 }, out := .locally false, addr := 0x40, tracked := false },
    false, canonOf (by decide +kernel), by decide +kernel⟩,
   ⟨{ linked .service with ord := { mapped := [{ lane := .u1, req := { kind := .host .read, tag := 3, addr := 0x40, reqNo := 4 }, out := .forward, addr := 0x40, tracked := false }] } },
    0,
    { lane := .u1, req := { kind := .host .read, tag := 3, addr := 0x40, reqNo := 4 }, out := .forward, addr := 0x40, tracked := false },
    canonOf (by decide +kernel), by decide +kernel⟩,
   ⟨{ linked .service with ord := { mapped := [{ lane := .u1, req := { kind := .host .writeA, tag := 3, stream := 7, addr := 0x1000040, slot := some { line := 5, lseal := 6, tag := 3, form := 0, poison := false, stream := 7, ext := 0 }, reqNo := 4 }, out := .locally true, addr := 0x40, tracked := false }] } },
    0,
    { lane := .u1, req := { kind := .host .writeA, tag := 3, stream := 7, addr := 0x1000040, slot := some { line := 5, lseal := 6, tag := 3, form := 0, poison := false, stream := 7, ext := 0 }, reqNo := 4 }, out := .locally true, addr := 0x40, tracked := false },
    { line := 5, lseal := 6, tag := 3, form := 0, poison := false, stream := 7, ext := 0 }, canonOf (by decide +kernel),
    by decide +kernel⟩,
   ⟨{ linked .service with ord := { mapped := [{ lane := .u1, req := { kind := .host .flush, tag := 3, stream := 7, reqNo := 4 }, out := .flush, addr := 0, tracked := false }] } },
    0,
    { lane := .u1, req := { kind := .host .flush, tag := 3, stream := 7, reqNo := 4 }, out := .flush, addr := 0, tracked := false },
    canonOf (by decide +kernel), by decide +kernel⟩,
   ⟨{ coreIn .service with ord := { mapped := [{ lane := .u1, req := { kind := .host .writeA, tag := 3, addr := 0x40, reqNo := 4 }, out := .locally false, addr := 0x40, tracked := true }] } },
    0,
    { lane := .u1, req := { kind := .host .writeA, tag := 3, addr := 0x40, reqNo := 4 }, out := .locally false, addr := 0x40, tracked := true },
    canonOf (by decide +kernel), by decide +kernel⟩,
   ⟨triggered, canonOf (by decide +kernel), by decide +kernel⟩,
   ⟨coreIn .service, 9, canonOf (by decide +kernel), by decide +kernel⟩,
   ⟨{ coreIn .service with ord := { agentQ := [{ addr := (coreIn .service).reserveLine (0x110000 + 576) }] } }, 9, canonOf
    (by decide +kernel), by decide +kernel⟩,
   ⟨{ linked .service with ord := { backlog := [2], pool := [(2, some { kind := .write, port := .u1, tag := 3, addr := 0x40, pair := 0x40, hasLine := true, wdHeld := true, poison := true, forkNo := 1 })] }, mir := { pstate := .paired, epoch := 3 }, twin := { epochSent := some 3 } },
    2, [],
    { kind := .write, port := .u1, tag := 3, addr := 0x40, pair := 0x40, hasLine := true, wdHeld := true, poison := true, forkNo := 1 },
    canonOf (by decide +kernel), by decide +kernel⟩,
   ⟨State.reset, canonOf (by decide +kernel), by decide +kernel⟩,
   ⟨{ coreIn .service with ord := { backlog := [2], pool := [(2, some { kind := .write, port := .u1, tag := 3, addr := 0x40, pair := 0x40, hasLine := true, wdHeld := true, forkNo := 1 })] }, mir := { pstate := .solo, epoch := 3 } },
    2, [],
    { kind := .write, port := .u1, tag := 3, addr := 0x40, pair := 0x40, hasLine := true, wdHeld := true, forkNo := 1 },
    canonOf (by decide +kernel), by decide +kernel⟩,
   ⟨State.reset, canonOf (by decide +kernel), by decide +kernel⟩⟩

/-- What each clause of `Obligations.SchedulingRuns` asks for can be met. -/
theorem test_witness_scheduling_runs :
    (∃ (s : State) (sc : Fin 16) (i : Nat) (rest : List Nat) (e : PoolEntry), s.canon ∧ (s.sub sc.val).intake.length < 64 ∧
      s.ord.undisp = i :: rest ∧ s.entry i = some e ∧ (s.siteOf e.addr).1 = sc.val ∧ s.olderUndispatched e = false) ∧
    (∃ (s : State) (sc : Fin 16), s.canon ∧ ((s.sub sc.val).intake.length ≥ 64 ∨ s.ord.undisp = [])) ∧
    (∃ (s : State) (sc : Fin 16), s.canon ∧ s.top.coreOn = true) ∧
    (∃ (s : State) (sc : Fin 16), s.canon ∧ s.top.coreOn = false) ∧
    (∃ (s : State) (sc : Fin 16) (e : StoreEntry) (ck : Nat), s.canon ∧ s.top.coreOn = true ∧ s.top.state ≠ .gust ∧ (s.sub
      sc.val).alert ≠ 1 ∧ (s.sub sc.val).alert ≠ 2 ∧ (s.sub sc.val).held = false ∧ ((((s.fillStore sc.val).probe
      sc.val).turn sc.val).sub sc.val).fallback = [] ∧ (((s.fillStore sc.val).probe sc.val).turn sc.val).pdxStep sc.val =
      none ∧ (s.sub sc.val).leave = false ∧ (((s.fillStore sc.val).probe sc.val).turn sc.val).pickColumn sc.val = some (e,
      ck) ∧ e.kind = .read) ∧
    (∃ (s : State) (sc : Fin 16) (e : StoreEntry) (ck : Nat) (i : Nat) (p : PoolEntry), s.canon ∧ s.top.coreOn = true ∧
      s.top.state ≠ .gust ∧ (s.sub sc.val).alert ≠ 1 ∧ (s.sub sc.val).alert ≠ 2 ∧ (s.sub sc.val).held = false ∧
      ((((s.fillStore sc.val).probe sc.val).turn sc.val).sub sc.val).fallback = [] ∧ (((s.fillStore sc.val).probe
      sc.val).turn sc.val).pdxStep sc.val = none ∧ (s.sub sc.val).leave = false ∧ (((s.fillStore sc.val).probe sc.val).turn
      sc.val).pickColumn sc.val = some (e, ck) ∧ e.kind = .write ∧ e.pool = some i ∧ (((s.fillStore sc.val).probe
      sc.val).turn sc.val).entry i = some p ∧ p.dual = false) ∧
    (∃ (s : State) (sc : Fin 16) (x : StoreEntry) (e : StoreEntry) (ck : Nat) (i : Nat) (p : PoolEntry), s.canon ∧ s.top.coreOn =
      true ∧ s.top.state ≠ .gust ∧ (s.sub sc.val).alert ≠ 1 ∧ (s.sub sc.val).alert ≠ 2 ∧ (s.sub sc.val).held = false ∧
      ((((s.fillStore sc.val).probe sc.val).turn sc.val).sub sc.val).fallback = [] ∧ (((s.fillStore sc.val).probe
      sc.val).turn sc.val).pdxStep sc.val = none ∧ (s.sub sc.val).leave = false ∧ s.quietSub sc.val = true ∧ (s.sub
      sc.val).store = [x] ∧ x.kind = .write ∧ x.staged = false ∧ x.pool = some i ∧ s.entry i = some p ∧ p.dual = false ∧
      p.kind = .write ∧ p.poison = false ∧ p.lpoison = false ∧ p.sealGood = true ∧ (((s.fillStore sc.val).probe sc.val).turn
      sc.val).pickColumn sc.val = some (e, ck)) ∧
    (∃ (s : State) (sc : Fin 16) (e : StoreEntry) (ck : Nat), s.canon ∧ s.top.coreOn = true ∧ s.top.state ≠ .gust ∧ (s.sub
      sc.val).alert ≠ 1 ∧ (s.sub sc.val).alert ≠ 2 ∧ (s.sub sc.val).held = false ∧ ((((s.fillStore sc.val).probe
      sc.val).turn sc.val).sub sc.val).fallback = [] ∧ (((s.fillStore sc.val).probe sc.val).turn sc.val).pdxStep sc.val =
      none ∧ (s.sub sc.val).leave = false ∧ (((s.fillStore sc.val).probe sc.val).turn sc.val).pickColumn sc.val = none ∧
      (((s.fillStore sc.val).probe sc.val).turn sc.val).refsb sc.val = none ∧ (((s.fillStore sc.val).probe sc.val).turn
      sc.val).eddy sc.val = some (e, ck)) ∧
    (∃ (s : State) (sc : Fin 16) (l : Loc) (more : List Loc) (ck : Nat), s.canon ∧ s.top.coreOn = true ∧ s.top.state ≠ .gust ∧
      (s.sub sc.val).alert ≠ 1 ∧ (s.sub sc.val).alert ≠ 2 ∧ (s.sub sc.val).held = false ∧ ((((s.fillStore sc.val).probe
      sc.val).turn sc.val).sub sc.val).fallback = [] ∧ (((s.fillStore sc.val).probe sc.val).turn sc.val).pdxStep sc.val =
      none ∧ (s.sub sc.val).leave = false ∧ (((s.fillStore sc.val).probe sc.val).turn sc.val).pickColumn sc.val = none ∧
      (((s.fillStore sc.val).probe sc.val).turn sc.val).refsbChoices sc.val = l :: more ∧ (((s.fillStore sc.val).probe
      sc.val).turn sc.val).slotFor sc.val .refsb l = some ck ∧ ((((s.fillStore sc.val).probe sc.val).turn sc.val).refreshing
      sc.val l.rank ck).length < 4) ∧
    (∃ (s : State) (sc : Fin 16) (r : Nat) (ck : Nat), s.canon ∧ s.top.coreOn = true ∧ s.top.state ≠ .gust ∧ (s.sub sc.val).alert
      ≠ 1 ∧ (s.sub sc.val).alert ≠ 2 ∧ (s.sub sc.val).held = false ∧ ((((s.fillStore sc.val).probe sc.val).turn sc.val).sub
      sc.val).fallback = [] ∧ (s.sub sc.val).leave = false ∧ (s.sub sc.val).pdExit = [r] ∧ (((s.fillStore sc.val).probe
      sc.val).turn sc.val).slotFor sc.val .pdx { rank := r } = some ck) ∧
    (∃ (s : State) (sc : Fin 16) (rank : Fin 2), s.canon ∧ rank.val ∈ (s.sub sc.val).pd ∧ rank.val ∉ (s.sub sc.val).pdExit ∧
      (s.top.trigger ≠ none ∨ (s.sub sc.val).intake.any (fun i => (s.entry i).any (fun e => (s.siteOf e.addr).2.rank ==
      rank.val)) = true ∨ s.dies.any (fun d => (List.range 4).any (fun b => decide (s.soft ≤ (s.sub sc.val).debtOf rank.val
      d b))) = true)) ∧
    (∃ (s : State) (sc : Fin 16) (rank : Fin 2), s.canon ∧ rank.val ∉ (s.sub sc.val).pd) ∧
    (∃ (s : State) (sc : Fin 16) (index : Byte) (e : StoreEntry), s.canon ∧ (s.sub sc.val).store[index.toNat]? = some e ∧ e.aged
      = false) ∧
    (∃ (s : State) (sc : Fin 16) (index : Byte), s.canon ∧ (s.sub sc.val).store[index.toNat]?.all (·.aged) = true) :=
  ⟨⟨{ coreIn .service with ord := { undisp := [2], pool := [(2, some { kind := .read, port := .u1, tag := 3, addr := 0x40, pair := 0x40, adm := 1 })] } },
    Fin.ofNat 16 ((coreIn .service).siteOf 0x40).1, 2, [],
    { kind := .read, port := .u1, tag := 3, addr := 0x40, pair := 0x40, adm := 1 }, canonOf (by decide +kernel),
    by decide +kernel⟩,
   ⟨State.reset, Fin.ofNat 16 ((coreIn .service).siteOf 0x40).1, canonOf (by decide +kernel), by decide +kernel⟩,
   ⟨{ (coreIn .service) with sch := [(1, { store := [{ kind := .read, pool := some 2, addr := 0x40, loc := (coreIn .service).locOf 0x40 }], ck := 900, alert := 1 })], flt := { ranks := [(2, { trained := true }), (3, { trained := true })] } },
    0, canonOf (by decide +kernel), by decide +kernel⟩,
   ⟨State.reset, 0, canonOf (by decide +kernel), by decide +kernel⟩,
   ⟨{ (coreIn .service) with sch := [(1, { store := [{ kind := .read, pool := some 2, addr := 0x40, loc := (coreIn .service).locOf 0x40 }], ck := 900, banks := [(bankOf ((coreIn .service).locOf 0x40), some { row := ((coreIn .service).locOf 0x40).row })] })], flt := { ranks := [(2, { trained := true }), (3, { trained := true })] } },
    1, { kind := .read, pool := some 2, addr := 0x40, loc := (coreIn .service).locOf 0x40 }, 900, canonOf
    (by decide +kernel), by decide +kernel⟩,
   ⟨{ coreIn .service with sch := [(1, { store := [{ kind := .write, pool := some 2, addr := 0x40, loc := (coreIn .service).locOf 0x40 }], write := false, ck := 900, banks := [(bankOf ((coreIn .service).locOf 0x40), some { row := ((coreIn .service).locOf 0x40).row })] })], flt := { ranks := [(2, { trained := true })] }, ord := { pool := [(2, some (let e : PoolEntry := { kind := .write, port := .u1, addr := 0x40, pair := 0x40, hasLine := true, owes := true, line := 77 }; { e with lseal := e.sealOf 77 }))] } },
    1, (let e : StoreEntry := { kind := .write, pool := some 2, addr := 0x40, loc := (coreIn .service).locOf 0x40 }; let p :
    PoolEntry := (let e : PoolEntry :=
    { kind := .write, port := .u1, addr := 0x40, pair := 0x40, hasLine := true, owes := true, line := 77 };
    { e with lseal := e.sealOf 77 }); { e with staged := true, codeword := encodeLine p.addr p.line .good }), 900, 2, (let e
    : PoolEntry := { kind := .write, port := .u1, addr := 0x40, pair := 0x40, hasLine := true, owes := true, line := 77 };
    { e with lseal := e.sealOf 77 }), canonOf (by decide +kernel), by decide +kernel⟩,
   ⟨{ coreIn .service with sch := [(1, { store := [{ kind := .write, pool := some 2, addr := 0x40, loc := (coreIn .service).locOf 0x40 }], write := false, ck := 900, banks := [(bankOf ((coreIn .service).locOf 0x40), some { row := ((coreIn .service).locOf 0x40).row })] })], flt := { ranks := [(2, { trained := true })] }, ord := { pool := [(2, some (let e : PoolEntry := { kind := .write, port := .u1, addr := 0x40, pair := 0x40, hasLine := true, owes := true, line := 77 }; { e with lseal := e.sealOf 77 }))] } },
    1, { kind := .write, pool := some 2, addr := 0x40, loc := (coreIn .service).locOf 0x40 }, (let e : StoreEntry :=
    { kind := .write, pool := some 2, addr := 0x40, loc := (coreIn .service).locOf 0x40 }; let p : PoolEntry := (let e :
    PoolEntry := { kind := .write, port := .u1, addr := 0x40, pair := 0x40, hasLine := true, owes := true, line := 77 };
    { e with lseal := e.sealOf 77 }); { e with staged := true, codeword := encodeLine p.addr p.line .good }), 900, 2, (let e
    : PoolEntry := { kind := .write, port := .u1, addr := 0x40, pair := 0x40, hasLine := true, owes := true, line := 77 };
    { e with lseal := e.sealOf 77 }), canonOf (by decide +kernel), by decide +kernel⟩,
   ⟨{ (coreIn .service) with sch := [(1, { store := [{ kind := .read, pool := some 2, addr := 0x40, loc := (coreIn .service).locOf 0x40 }], ck := 900, hist := [], debt := [] })], flt := { ranks := [(2, { trained := true }), (3, { trained := true })] }, regs := [(Reg.SCH_REFCFG, 0x00000021)] },
    1, { kind := .read, pool := some 2, addr := 0x40, loc := (coreIn .service).locOf 0x40 }, 900, canonOf
    (by decide +kernel), by decide +kernel⟩,
   ⟨{ (coreIn .service) with sch := [(1, { ck := 900, debt := [(64, 5)] })], flt := { ranks := [(2, { trained := true }), (3, { trained := true })] }, regs := [(Reg.SCH_REFCFG, 0x00000021)] },
    1, { rank := 1, die := 0, bg := 0, bank := 0, col := 0, row := 0 }, [], 900, canonOf (by decide +kernel),
    by decide +kernel⟩,
   ⟨{ (coreIn .service) with sch := [(1, { ck := 900, pd := [1], pdExit := [1], hist := [⟨800, .pde, { rank := 1 }, false, 0⟩] })], flt := { ranks := [(2, { trained := true }), (3, { trained := true })] } },
    1, 1, 900, canonOf (by decide +kernel), by decide +kernel⟩,
   ⟨{ { (coreIn .service) with sch := [(1, { pd := [1], ck := 900, hist := [⟨890, .pde, { rank := 1 }, false, 0⟩] })] } with top := { (coreIn .service).top with trigger := some 1 } },
    1, 1, canonOf (by decide +kernel), by decide +kernel⟩,
   ⟨State.reset, 1, 1, canonOf (by decide +kernel), by decide +kernel⟩,
   ⟨{ (coreIn .service) with sch := [(1, { store := [{ kind := .read, pool := some 2, addr := 0x40, loc := (coreIn .service).locOf 0x40 }] })] },
    1, 0, { kind := .read, pool := some 2, addr := 0x40, loc := (coreIn .service).locOf 0x40 }, canonOf (by decide +kernel),
    by decide +kernel⟩,
   ⟨State.reset, 1, 0, canonOf (by decide +kernel), by decide +kernel⟩⟩

/-- What each clause of `Obligations.RefreshAndScrubRun` asks for can be met. -/
theorem test_witness_refresh_and_scrub_run :
    (∃ (s : State) (sc : Fin 16) (rank : Fin 2) (die : BitVec 4), s.canon ∧ s.awake sc.val rank.val = true ∧ die.toNat ∈ s.dies) ∧
    (∃ (s : State) (sc : Fin 16) (rank : Fin 2) (die : BitVec 4), s.canon ∧ (s.awake sc.val rank.val = false ∨ die.toNat ∉
      s.dies)) ∧
    (∃ (s : State) (sc : Fin 16) (rank : Fin 2) (reports : List Mr4Report), s.canon ∧ s.serves sc.val rank.val = true ∧
      (List.range 10).any (fun k => hotReport (reports.getD k .failed)) = true) ∧
    (∃ (s : State) (sc : Fin 16) (rank : Fin 2) (reports : List Mr4Report), s.canon ∧ s.serves sc.val rank.val = false) ∧
    (∃ (s : State) (sc : Fin 16) (rank : Fin 2) (reports : List Mr4Report), s.canon ∧ s.serves sc.val rank.val = true ∧
      (List.range 10).any (fun k => hotReport (reports.getD k .failed)) = false) ∧
    (∃ (s : State) (sc : Fin 16), s.canon ∧ s.fld Fld.SCH_SCRUBINT.INTERVAL ≠ 0 ∧ s.top.trigger = none ∧ s.scrubs sc.val = true ∧
      ((s.sub sc.val).store.length > 224 ∨ (s.sub sc.val).corr.length ≥ 8)) ∧
    (∃ (s : State) (sc : Fin 16), s.canon ∧ (s.fld Fld.SCH_SCRUBINT.INTERVAL = 0 ∨ s.top.trigger ≠ none ∨ s.scrubs sc.val =
      false)) ∧
    (∃ (s : State) (sc : Fin 16) (a : Nat), s.canon ∧ s.fld Fld.SCH_SCRUBINT.INTERVAL ≠ 0 ∧ s.top.trigger = none ∧ s.scrubs
      sc.val = true ∧ (s.sub sc.val).store.length ≤ 224 ∧ (s.sub sc.val).corr.length < 8 ∧ (s.sub sc.val).pos + 1 <
      s.scrubRow * s.geom.rows ∧ (s.sub sc.val).owed = 0 ∧ (s.sub sc.val).scrubbed + 1 < 65536 ∧ s.scrubbable sc.val
      (s.scrubLoc (s.sub sc.val).pos).rank = true ∧ s.ord.probes < 4 ∧ s.scrubAddr sc.val (s.scrubLoc (s.sub sc.val).pos) =
      some a) :=
  ⟨⟨{ (coreIn .service) with sch := [(1, { debt := [(68, 5), (70, 2)] })], flt := { ranks := [(2, { trained := true }), (3, { trained := true })] } },
    1, 1, 1, canonOf (by decide +kernel), by decide +kernel⟩,
   ⟨State.reset, 1, 1, 1, canonOf (by decide +kernel), by decide +kernel⟩,
   ⟨{ (coreIn .service) with sch := [(1, { lowPoll := [1] })], flt := { ranks := [(2, { trained := true }), (3, { trained := true })] } },
    1, 1, (List.range 10).map (fun k => if k = 4 then .twice else .nominal), canonOf (by decide +kernel), by decide +kernel⟩,
   ⟨State.reset, 1, 1, (List.range 10).map (fun k => if k = 4 then .twice else .nominal), canonOf (by decide +kernel),
    by decide +kernel⟩,
   ⟨({ coreIn .service with sch := [(1, { lowPoll := [1] })], flt := { ranks := [(2, { trained := true }), (3, { trained := true })] } }).setFld
    (Fld.SCH_REFSTAT.RATE1 1) 1, 1, 1, List.replicate 10 .nominal, canonOf (by decide +kernel), by decide +kernel⟩,
   ⟨({ coreIn .service with sch := [(1, { corr := List.replicate 8 { addr := 1 } })], flt := { ranks := [(2, { trained := true }), (3, { trained := true })] } }).setFld
    Fld.SCH_SCRUBINT.INTERVAL 50, 1, canonOf (by decide +kernel), by decide +kernel⟩,
   ⟨State.reset, 1, canonOf (by decide +kernel), by decide +kernel⟩,
   ⟨({ coreIn .service with sch := [(1, { pos := 0x2345 })], flt := { ranks := [(2, { trained := true }), (3, { trained := true })] } }).setFld
    Fld.SCH_SCRUBINT.INTERVAL 50, 1, 297793, canonOf (by decide +kernel), by decide +kernel⟩⟩

/-- What each clause of `Obligations.ReadsAndCompletionsRun` asks for can be met. -/
theorem test_witness_reads_and_completions_run :
    (∃ (s : State) (sc : Fin 16) (errors : List Byte) (f : Flight) (rest : List Flight) (stored : List Byte) (d : Decoded) (i :
      Nat) (e : PoolEntry), s.canon ∧ (s.sub sc.val).flights = f :: rest ∧ stored = (List.range 80).map (fun i =>
      f.stored.getD i 0 ^^^ errors.getD i 0) ∧ d = decodeLine f.entry.addr (s.rank (2 * sc.val + f.entry.loc.rank)).erased
      stored ∧ recheckFails f.entry.addr stored d = false ∧ d.kind ≠ .locally ∧ f.entry.kind = .read ∧ f.entry.pool = some i
      ∧ s.entry i = some e ∧ e.kind = .read ∧ e.orphan = false ∧ (s.link e.port).up = true ∧ s.waiters i = [] ∧ e.merging =
      false ∧ (d.out = .clean ∨ (e.waitOn = none ∧ (s.sub sc.val).store.all (fun x => x.pool != some i) = true))) ∧
    (∃ (s : State) (sc : Fin 16) (errors : List Byte), s.canon ∧ (s.sub sc.val).flights = []) ∧
    (∃ (s : State) (sc : Fin 16) (errors : List Byte) (f : Flight) (rest : List Flight) (stored : List Byte) (d : Decoded) (i :
      Nat) (e : PoolEntry), s.canon ∧ (s.sub sc.val).flights = f :: rest ∧ stored = (List.range 80).map (fun i =>
      f.stored.getD i 0 ^^^ errors.getD i 0) ∧ d = decodeLine f.entry.addr (s.rank (2 * sc.val + f.entry.loc.rank)).erased
      stored ∧ d.kind = .locally ∧ f.entry.kind = .read ∧ f.entry.pool = some i ∧ s.entry i = some e ∧ e.kind = .read ∧
      e.orphan = false ∧ (s.link e.port).up = true ∧ s.waiters i = [] ∧ e.merging = false ∧ e.waitOn = none ∧ (s.sub
      sc.val).store.all (fun x => x.pool != some i) = true ∧ s.mir.pstate = .solo) ∧
    (∃ (s : State) (sc : Fin 16) (errors : List Byte) (f : Flight) (rest : List Flight) (stored : List Byte) (d : Decoded) (x :
      CorrEntry), s.canon ∧ (s.sub sc.val).flights = f :: rest ∧ stored = (List.range 80).map (fun i => f.stored.getD i 0
      ^^^ errors.getD i 0) ∧ d = decodeLine f.entry.addr (s.rank (2 * sc.val + f.entry.loc.rank)).erased stored ∧
      f.entry.kind = .scrub ∧ d.out = .clean ∧ (s.sub sc.val).corr = [x] ∧ x.addr = f.entry.addr ∧ x.spare = none) :=
  ⟨⟨{ linked .service with sch := [(1, { flights := [{ entry := { kind := .read, pool := some 2, addr := 0x40, loc := (coreIn .service).locOf 0x40 }, stored := encodeLine 0x40 77 .good }] })], flt := { ranks := [(2, { trained := true }), (3, { trained := true })] }, ord := { pool := [(2, some { kind := .read, port := .u1, tag := 3, addr := 0x40, pair := 0x40, adm := 1 })] } },
    1, [],
    { entry := { kind := .read, pool := some 2, addr := 0x40, loc := (coreIn .service).locOf 0x40 }, stored := encodeLine 0x40 77 .good },
    [], encodeLine 0x40 77 .good, decodeLine 0x40 none (encodeLine 0x40 77 .good), 2,
    { kind := .read, port := .u1, tag := 3, addr := 0x40, pair := 0x40, adm := 1 }, canonOf (by decide +kernel),
    by decide +kernel⟩,
   ⟨State.reset, 1, [], canonOf (by decide +kernel), by decide +kernel⟩,
   ⟨{ linked .service with sch := [(1, { flights := [{ entry := { kind := .read, pool := some 2, addr := 0x40, loc := (coreIn .service).locOf 0x40 }, stored := encodeLine 0x40 77 .good }] })], mir := { pstate := .solo }, flt := { ranks := [(2, { trained := true }), (3, { trained := true })] }, ord := { pool := [(2, some { kind := .read, port := .u1, tag := 3, addr := 0x40, pair := 0x40, adm := 1 })] } },
    1, List.replicate 20 5,
    { entry := { kind := .read, pool := some 2, addr := 0x40, loc := (coreIn .service).locOf 0x40 }, stored := encodeLine 0x40 77 .good },
    [], (List.range 80).map (fun i => (encodeLine 0x40 77 .good).getD i 0 ^^^ (List.replicate 20 5 : List Byte).getD i 0),
    decodeLine 0x40 none ((List.range 80).map (fun i => (encodeLine 0x40 77 .good).getD i 0 ^^^ (List.replicate 20 5 : List
    Byte).getD i 0)), 2, { kind := .read, port := .u1, tag := 3, addr := 0x40, pair := 0x40, adm := 1 }, canonOf
    (by decide +kernel), by decide +kernel⟩,
   ⟨{ coreIn .service with sch := [(1, { flights := [{ entry := { kind := .scrub, pool := some 2, addr := 0x40, loc := (coreIn .service).locOf 0x40 }, stored := encodeLine 0x40 77 .good }], corr := [{ addr := 0x40 }] })], flt := { ranks := [(2, { trained := true }), (3, { trained := true })] } },
    1, [],
    { entry := { kind := .scrub, pool := some 2, addr := 0x40, loc := (coreIn .service).locOf 0x40 }, stored := encodeLine 0x40 77 .good },
    [], encodeLine 0x40 77 .good, decodeLine 0x40 none (encodeLine 0x40 77 .good), { addr := 0x40 }, canonOf
    (by decide +kernel), by decide +kernel⟩⟩

/-- What each clause of `Obligations.ReadsAndCompletionsRun` asks for can be met. -/
theorem test_witness_reads_and_completions_run_2 :
    (∃ (s : State) (sc : Fin 16) (errors : List Byte) (f : Flight) (rest : List Flight) (stored : List Byte) (d : Decoded) (x :
      CorrEntry), s.canon ∧ (s.sub sc.val).flights = f :: rest ∧ stored = (List.range 80).map (fun i => f.stored.getD i 0
      ^^^ errors.getD i 0) ∧ d = decodeLine f.entry.addr (s.rank (2 * sc.val + f.entry.loc.rank)).erased stored ∧
      f.entry.kind = .scrub ∧ d.out = .corrected ∧ recheckFails f.entry.addr stored d = false ∧ s.holdsContents f.entry.addr
      = true ∧ s.top.trigger = none ∧ (s.sub sc.val).corr = [x] ∧ x.addr = f.entry.addr ∧ x.spare = none ∧ x.superseded =
      false ∧ s.gone (2 * sc.val + x.loc.rank) = false) ∧
    (∃ (s : State) (p : Port) (it : RetItem) (rest : List RetItem) (d : DataSlot) (i : Nat) (e : PoolEntry), s.canon ∧ p ≠ .t ∧
      ((s.link p).lstate = .service ∨ (s.link p).lstate = .retrain) ∧ (s.link p).cross.length < 8 ∧ s.ord.ret = it :: rest ∧
      it.port = p ∧ it.body = .data d ∧ it.pool = some i ∧ s.entry i = some e ∧ e.port = p ∧ i < 8192) ∧
    (∃ (s : State) (p : Port), s.canon ∧ (p = .t ∨ ((s.link p).lstate ≠ .service ∧ (s.link p).lstate ≠ .retrain) ∨ s.ord.ret =
      [])) ∧
    (∃ (s : State) (p : Port) (b : Nat) (tag : BitVec 12) (kind : BitVec 3) (nodur : Bool) (reason : Byte), s.canon ∧ p ≠ .t ∧
      ((s.link p).lstate = .service ∨ (s.link p).lstate = .retrain) ∧ (s.link p).cross.length < 8 ∧ s.ord.ret =
      [{ port := p, built := b, body := .record tag kind nodur reason true }]) :=
  ⟨⟨{ coreIn .service with sch := [(1, { flights := [{ entry := { kind := .scrub, pool := some 2, addr := (((coreIn .service).geom.regions - 1) * 2 ^ 24 + 0x40), loc := (coreIn .service).locOf (((coreIn .service).geom.regions - 1) * 2 ^ 24 + 0x40) }, stored := encodeLine (((coreIn .service).geom.regions - 1) * 2 ^ 24 + 0x40) 77 .good }], corr := [{ addr := (((coreIn .service).geom.regions - 1) * 2 ^ 24 + 0x40) }] })], flt := { ranks := [(2, { trained := true }), (3, { trained := true })] } },
    1, [0, 0, 9],
    { entry := { kind := .scrub, pool := some 2, addr := (((coreIn .service).geom.regions - 1) * 2 ^ 24 + 0x40), loc := (coreIn .service).locOf (((coreIn .service).geom.regions - 1) * 2 ^ 24 + 0x40) }, stored := encodeLine (((coreIn .service).geom.regions - 1) * 2 ^ 24 + 0x40) 77 .good },
    [], (List.range 80).map (fun i => (encodeLine (((coreIn .service).geom.regions - 1) * 2 ^ 24 + 0x40) 77 .good).getD i 0
    ^^^ ([0, 0, 9] : List Byte).getD i 0), decodeLine (((coreIn .service).geom.regions - 1) * 2 ^ 24 + 0x40) none
    ((List.range 80).map (fun i => (encodeLine (((coreIn .service).geom.regions - 1) * 2 ^ 24 + 0x40) 77 .good).getD i 0 ^^^
    ([0, 0, 9] : List Byte).getD i 0)), { addr := (((coreIn .service).geom.regions - 1) * 2 ^ 24 + 0x40) }, canonOf
    (by decide +kernel), by decide +kernel⟩,
   ⟨{ (linked .service).setLink .u1 { upLink with tags := [3, 4] } with ord := { pool := [(2, some { kind := .read, port := .u1, tag := 3, addr := 0x40, pair := 0x40, adm := 1 })], ret := [{ port := .u1, built := 3, pool := some 2, freeRd := true, body := .data { line := 5, lseal := 6, tag := 3, form := 2, poison := false, stream := 7, ext := 0 } }] } },
    .u1,
    { port := .u1, built := 3, pool := some 2, freeRd := true, body := .data { line := 5, lseal := 6, tag := 3, form := 2, poison := false, stream := 7, ext := 0 } },
    [], { line := 5, lseal := 6, tag := 3, form := 2, poison := false, stream := 7, ext := 0 }, 2,
    { kind := .read, port := .u1, tag := 3, addr := 0x40, pair := 0x40, adm := 1 }, canonOf (by decide +kernel),
    by decide +kernel⟩,
   ⟨State.reset, .u1, canonOf (by decide +kernel), by decide +kernel⟩,
   ⟨{ (linked .service).setLink .u1 { upLink with tags := [3, 4] } with ord := { ret := [{ port := .u1, built := 3, body := .record 4 1 false 0 true }] } },
    .u1, 3, 4, 1, false, 0, canonOf (by decide +kernel), by decide +kernel⟩⟩

/-- What `Obligations.ReadsAndCompletionsRun` asks for can be met. -/
theorem test_witness_reads_and_completions_run_3 :
    ∃ (s : State) (p : Port) (b : Nat) (d : DataSlot), s.canon ∧ p ≠ .t ∧ s.ord.ret =
      [{ port := p, built := b, body := .data d }] ∧ (s.link p).crossPut p (.data { slot := d }) = none :=
  ⟨{ (linked .service).setLink .u1 { upLink with cross := List.replicate 8 { slots := List.replicate 3 (.data { line := 5, lseal := 6, tag := 3, form := 2, poison := false, stream := 7, ext := 0 }) } } with ord := { ret := [{ port := .u1, built := 3, body := .data { line := 5, lseal := 6, tag := 3, form := 2, poison := false, stream := 7, ext := 0 } }] } },
    .u1, 3, { line := 5, lseal := 6, tag := 3, form := 2, poison := false, stream := 7, ext := 0 }, canonOf
    (by decide +kernel), by decide +kernel⟩

/-- What each clause of `Obligations.AlertsRun` asks for can be met. -/
theorem test_witness_alerts_run :
    (∃ (s : State) (sc : Fin 16), s.canon ∧ s.top.coreOn = true ∧ s.pwr.latch = false ∧ (s.sub sc.val).held = false ∧ s.someAwake
      sc.val = true ∧ (s.sub sc.val).alert = 0) ∧
    (∃ (s : State) (sc : Fin 16), s.canon ∧ (s.top.coreOn = false ∨ s.pwr.latch = true ∨ (s.sub sc.val).held = true ∨ s.someAwake
      sc.val = false ∨ (s.sub sc.val).alert = 1 ∨ (s.sub sc.val).alert = 3)) ∧
    (∃ (s : State) (sc : Fin 16), s.canon ∧ s.top.coreOn = true ∧ s.pwr.latch = false ∧ (s.sub sc.val).held = false ∧ s.someAwake
      sc.val = true ∧ (s.sub sc.val).alert = 2) ∧
    (∃ (s : State) (sc : Fin 16), s.canon ∧ (s.sub sc.val).alert = 1 ∧ (s.sub sc.val).alertTries ≤ s.fld
      Fld.ECC_ALERTCFG.REPLAY_LIM) ∧
    (∃ (s : State) (sc : Fin 16), s.canon ∧ ((s.sub sc.val).alert ≠ 1 ∨ s.fld Fld.ECC_ALERTCFG.REPLAY_LIM < (s.sub
      sc.val).alertTries)) ∧
    (∃ (s : State) (sc : Fin 16), s.canon ∧ (s.sub sc.val).alert = 2 ∧ (s.sub sc.val).replayLeft = []) ∧
    (∃ (s : State) (sc : Fin 16), s.canon ∧ ((s.sub sc.val).alert ≠ 2 ∨ (s.sub sc.val).replayLeft ≠ [])) ∧
    (∃ (s : State) (sc : Fin 16) (r : RetryRec), s.canon ∧ (s.sub sc.val).alert = 1 ∧ (s.sub sc.val).suspects = [r] ∧ r.loc.rank
      < 2 ∧ s.gone (2 * sc.val + r.loc.rank) = false ∧ (s.rank (2 * sc.val + r.loc.rank)).want = false ∧ s.flt.sp = 0 ∧
      s.flt.ending = false ∧ (s.spareable (2 * sc.val + r.loc.rank) = false ∨ s.top.trigger ≠ none)) ∧
    (∃ (s : State) (sc : Fin 16), s.canon ∧ (s.sub sc.val).alert ≠ 1) :=
  ⟨⟨{ (coreIn .service) with sch := [(1, { ck := 900, retry := [{ ck := 880, addr := 0x40, loc := (coreIn .service).locOf 0x40, codeword := List.replicate 80 7 }] })], flt := { ranks := [(2, { trained := true }), (3, { trained := true })] } },
    1, canonOf (by decide +kernel), by decide +kernel⟩,
   ⟨{ (coreIn .service) with sch := [(1, { ck := 900, retry := [{ ck := 880, addr := 0x40, loc := (coreIn .service).locOf 0x40, codeword := List.replicate 80 7 }], held := true })], flt := { ranks := [(2, { trained := true }), (3, { trained := true })] } },
    1, canonOf (by decide +kernel), by decide +kernel⟩,
   ⟨{ (coreIn .service) with sch := [(1, { ck := 900, alert := 2, alertTries := 1, suspects := [{ ck := 880, addr := 0x40, loc := (coreIn .service).locOf 0x40, codeword := List.replicate 80 7 }] })], flt := { ranks := [(2, { trained := true }), (3, { trained := true })] } },
    1, canonOf (by decide +kernel), by decide +kernel⟩,
   ⟨({ (coreIn .service) with sch := [(1, { ck := 900, alert := 1, alertTries := 1, suspects := [{ ck := 880, addr := 0x40, loc := (coreIn .service).locOf 0x40, codeword := List.replicate 80 7 }] })], flt := { ranks := [(2, { trained := true }), (3, { trained := true })] } }).setFld
    Fld.ECC_ALERTCFG.REPLAY_LIM 2, 1, canonOf (by decide +kernel), by decide +kernel⟩,
   ⟨{ (coreIn .service) with sch := [(1, { ck := 900, alert := 3, alertTries := 1, suspects := [{ ck := 880, addr := 0x40, loc := (coreIn .service).locOf 0x40, codeword := List.replicate 80 7 }] })], flt := { ranks := [(2, { trained := true }), (3, { trained := true })] } },
    1, canonOf (by decide +kernel), by decide +kernel⟩,
   ⟨{ (coreIn .service) with sch := [(1, { ck := 900, alert := 2, alertTries := 1, suspects := [{ ck := 880, addr := 0x40, loc := (coreIn .service).locOf 0x40, codeword := List.replicate 80 7 }] })], flt := { ranks := [(2, { trained := true }), (3, { trained := true })] } },
    1, canonOf (by decide +kernel), by decide +kernel⟩,
   ⟨State.reset, 1, canonOf (by decide +kernel), by decide +kernel⟩,
   ⟨{ (coreIn .service) with sch := [(1, { ck := 900, alert := 1, alertTries := 5, suspects := [{ ck := 880, addr := 0x40, loc := (coreIn .service).locOf 0x40, codeword := List.replicate 80 7 }] })], flt := { ranks := [(2, { trained := true }), (3, { trained := true })] } },
    1, { ck := 880, addr := 0x40, loc := (coreIn .service).locOf 0x40, codeword := List.replicate 80 7 }, canonOf
    (by decide +kernel), by decide +kernel⟩,
   ⟨State.reset, 1, canonOf (by decide +kernel), by decide +kernel⟩⟩

/-- What each clause of `Obligations.RetirementRuns` asks for can be met. -/
theorem test_witness_retirement_runs :
    (∃ (s : State), s.canon) ∧
    (∃ (s : State) (rank : Fin 32), s.canon ∧ rank.val ∈ s.flt.converting ∧ s.top.trigger = none) ∧
    (∃ (s : State) (rank : Fin 32), s.canon ∧ (rank.val ∉ s.flt.converting ∨ s.top.trigger ≠ none)) ∧
    (∃ (s : State) (a : Nat) (m : Nat) (l : Loc) (i : Nat), s.canon ∧ s.flt.sp = 1 ∧ s.flt.copyOn = true ∧ s.top.trigger = none ∧
      s.flt.copyPos < s.copyRows * s.copyRow ∧ a = s.addrOf (s.flt.spRank / 2) (s.copyLoc s.flt.copyPos) ∧ s.lineHeld a =
      false ∧ s.redirect a = some (m, l) ∧ (s.sub m).corr.length < 8 ∧ i = firstFree 8192 s.ord.pool ∧ i < 8448) ∧
    (∃ (s : State), s.canon ∧ (s.flt.sp ≠ 1 ∨ s.flt.copyOn = false ∨ s.top.trigger ≠ none)) ∧
    (∃ (s : State) (p : Nat), s.canon ∧ s.flt.sp = 1 ∧ s.copyRows ≤ s.flt.cursor ∧ s.top.trigger = none ∧ p = s.flt.spRank ∧
      s.rankWork p = true) ∧
    (∃ (s : State), s.canon ∧ (s.flt.sp ≠ 1 ∨ s.flt.cursor < s.copyRows ∨ s.top.trigger ≠ none)) ∧
    (∃ (s : State) (p : Nat), s.canon ∧ s.flt.sp = 1 ∧ s.copyRows ≤ s.flt.cursor ∧ s.top.trigger = none ∧ p = s.flt.spRank ∧
      s.rankWork p = false) ∧
    (∃ (s : State) (p : Nat), s.canon ∧ s.flt.readmit = some p ∧ p < 32 ∧ (s.training (p / 2)).step = 11 ∧ (List.range 32).all
      (fun q => q == p || !(s.rank q).retired || (s.rank q).spared) = true ∧ s.top.trigger = none ∧ s.map.failed = [] ∧
      s.map.lost = []) ∧
    (∃ (s : State), s.canon ∧ s.flt.readmit = none) :=
  ⟨⟨{ coreIn .service with flt := { ranks := [(2, { trained := true, ue := 4, rce := 255, pkg := [(1, 3), (7, 1)] }), (3, { trained := true })] } },
    canonOf (by decide +kernel)⟩,
   ⟨{ coreIn .service with flt := { converting := [2], ranks := [(2, { trained := true, next := 3 }), (3, { trained := true })] } },
    2, canonOf (by decide +kernel), by decide +kernel⟩,
   ⟨State.reset, 2, canonOf (by decide +kernel), by decide +kernel⟩,
   ⟨({ coreIn .service with flt := { sp := 1, copyOn := true, spRank := 2, ranks := [(2, { trained := true }), (3, { trained := true })] } })
    |> fun s : State => (s.setFld Fld.MAP_GEOM.SC_BITS 1).setFld Fld.MAP_GEOM.RANK_BITS 1, 1, 0,
    { rank := 0, die := 0, bg := 0, bank := 0, col := 0, row := 196544 }, 8192, canonOf (by decide +kernel),
    by decide +kernel⟩,
   ⟨State.reset, canonOf (by decide +kernel), by decide +kernel⟩,
   ⟨{ coreIn .service with flt := { sp := 1, cursor := 0x7000000, spRank := 2, ranks := [(2, { trained := true, cause := 3 })] }, sch := [(1, { store := [{ kind := .read, loc := {} }] })] },
    2, canonOf (by decide +kernel), by decide +kernel⟩,
   ⟨State.reset, canonOf (by decide +kernel), by decide +kernel⟩,
   ⟨{ coreIn .service with flt := { sp := 1, cursor := 0x7000000, spRank := 2, ranks := [(2, { trained := true, cause := 3 })] } },
    2, canonOf (by decide +kernel), by decide +kernel⟩,
   ⟨{ coreIn .service with flt := { readmit := some 3, ranks := [(2, { trained := true }), (3, { retired := true, ue := 4 })] }, cal := { train := [(1, { step := 11, rank := 1, readmit := true })] }, map := { rt := [(5, 0x00580007), (6, 0x00080008)] } },
    3, canonOf (by decide +kernel), by decide +kernel⟩,
   ⟨State.reset, canonOf (by decide +kernel), by decide +kernel⟩⟩

/-- What each clause of `Obligations.TwinLinesRun` asks for can be met. -/
theorem test_witness_twin_lines_run :
    (∃ (s : State) (d : DataSlot), s.canon ∧ (s.link .t).up = true ∧ (s.link .t).granted.covers lineCost = true ∧ d.form = 3 ∧
      slotMasked d = false) ∧
    (∃ (s : State) (d : DataSlot), s.canon ∧ (s.link .t).takes = false) ∧
    (∃ (s : State) (d : DataSlot), s.canon ∧ (s.link .t).up = true ∧ (s.link .t).granted.covers lineCost = true ∧ d.form = 5) ∧
    (∃ (s : State) (d : DataSlot), s.canon ∧ (s.link .t).takes = false) ∧
    (∃ (s : State) (d : DataSlot), s.canon ∧ (s.link .t).up = true ∧ (s.link .t).granted.covers lineCost = true ∧ d.form = 4) ∧
    (∃ (s : State) (d : DataSlot), s.canon ∧ (s.link .t).takes = false) ∧
    (∃ (s : State) (tag : BitVec 12) (byteMask : BitVec 64) (q : LaneReq) (d : DataSlot), s.canon ∧ (s.link .t).up = true ∧
      s.feat .t 16 = true ∧ (s.link .t).lane = [q] ∧ q.kind = .replica ∧ q.tag = tag ∧ q.mask = none ∧ q.slot = some d ∧
      slotMasked d = true) ∧
    (∃ (s : State) (tag : BitVec 12) (byteMask : BitVec 64), s.canon ∧ (s.link .t).up = false) ∧
    (∃ (s : State) (tag : BitVec 12) (byteMask : BitVec 64), s.canon ∧ (s.link .t).up = true ∧ s.feat .t 16 = true ∧ (s.link
      .t).lane = []) ∧
    (∃ (s : State) (tag : BitVec 12) (byteMask : BitVec 64), s.canon ∧ (s.link .t).up = true ∧ s.feat .t 16 = false) :=
  ⟨⟨linked .service, { line := 5, lseal := 6, tag := 3, form := 3, poison := false, stream := 7, ext := 0 }, canonOf
    (by decide +kernel), by decide +kernel⟩,
   ⟨State.reset, { line := 5, lseal := 6, tag := 3, form := 3, poison := false, stream := 7, ext := 0 }, canonOf
    (by decide +kernel), by decide +kernel⟩,
   ⟨linked .service, { line := 5, lseal := 6, tag := 3, form := 5, poison := false, stream := 7, ext := 0 }, canonOf
    (by decide +kernel), by decide +kernel⟩,
   ⟨State.reset, { line := 5, lseal := 6, tag := 3, form := 5, poison := false, stream := 7, ext := 0 }, canonOf
    (by decide +kernel), by decide +kernel⟩,
   ⟨linked .service, { line := 5, lseal := 6, tag := 3, form := 4, poison := false, stream := 7, ext := 0 }, canonOf
    (by decide +kernel), by decide +kernel⟩,
   ⟨State.reset, { line := 5, lseal := 6, tag := 3, form := 4, poison := false, stream := 7, ext := 0 }, canonOf
    (by decide +kernel), by decide +kernel⟩,
   ⟨((linked .service).setLink .t
    { upLink with lane := [{ kind := .replica, tag := 3, slot := some ({ line := 5, lseal := 6, tag := 3, form := 3, poison := false, stream := 7, ext := 0x40000000000 }), reqNo := 4, repNo := 2 }] }).setReg
    (Reg.LNK_FEAT 4) 0xFFFFFFFF, 3, 0xFF,
    { kind := .replica, tag := 3, slot := some ({ line := 5, lseal := 6, tag := 3, form := 3, poison := false, stream := 7, ext := 0x40000000000 }), reqNo := 4, repNo := 2 },
    { line := 5, lseal := 6, tag := 3, form := 3, poison := false, stream := 7, ext := 0x40000000000 }, canonOf
    (by decide +kernel), by decide +kernel⟩,
   ⟨State.reset, 3, 0xFF, canonOf (by decide +kernel), by decide +kernel⟩,
   ⟨(linked .service).setReg (Reg.LNK_FEAT 4) 0xFFFFFFFF, 3, 0xFF, canonOf (by decide +kernel), by decide +kernel⟩,
   ⟨linked .service, 3, 0xFF, canonOf (by decide +kernel), by decide +kernel⟩⟩

/-- What each clause of `Obligations.AcknowledgementsRun` asks for can be met. -/
theorem test_witness_acknowledgements_run :
    (∃ (s : State) (epoch : Word) (through : Word), s.canon ∧ (s.link .t).up = true ∧ s.feat .t 20 = true ∧ epoch = s.mir.epoch ∧
      behind through.toNat s.twin.lastThr = false ∧ behind s.twin.txCount through.toNat = false) ∧
    (∃ (s : State) (epoch : Word) (through : Word), s.canon ∧ (s.link .t).up = false) ∧
    (∃ (s : State) (epoch : Word) (through : Word), s.canon ∧ (s.link .t).up = true ∧ s.feat .t 20 = true ∧ epoch ≠ s.mir.epoch) ∧
    (∃ (s : State) (epoch : Word) (through : Word), s.canon ∧ (s.link .t).up = true ∧ s.feat .t 20 = true ∧ epoch = s.mir.epoch ∧
      (behind through.toNat s.twin.lastThr = true ∨ behind s.twin.txCount through.toNat = true) ∧ s.steady = true) ∧
    (∃ (s : State) (epoch : Word) (through : Word), s.canon ∧ (s.link .t).up = true ∧ s.feat .t 20 = false) ∧
    (∃ (s : State) (tags : List (BitVec 12)), s.canon ∧ (s.link .t).up = true ∧ tags ≠ [] ∧ tags.length ≤ 9 ∧ tags.all (fun x =>
      (s.sentAt x).isSome) = true) ∧
    (∃ (s : State) (tags : List (BitVec 12)), s.canon ∧ (s.link .t).up = false) ∧
    (∃ (s : State) (tags : List (BitVec 12)), s.canon ∧ (s.link .t).up = true ∧ tags.length ≤ 9 ∧ tags.any (fun x => (s.sentAt
      x).isNone) = true ∧ s.steady = true) ∧
    (∃ (s : State) (tags : List (BitVec 12)), s.canon ∧ (s.link .t).up = true ∧ (tags = [] ∨ 9 < tags.length)) ∧
    (∃ (s : State) (tag : BitVec 12) (form : BitVec 3) (reason : Byte) (epoch : Word) (addr : BitVec 42) (e : PendEntry), s.canon
      ∧ (s.link .t).up = true ∧ reason ≠ 0 ∧ reason.toNat ≤ 9 ∧ epoch = s.mir.epoch ∧ form = 3 ∧ s.sentAt tag = some e ∧
      e.pair = addr ∧ s.steady = true) ∧
    (∃ (s : State) (tag : BitVec 12) (form : BitVec 3) (reason : Byte) (epoch : Word) (addr : BitVec 42), s.canon ∧ (s.link
      .t).up = false) ∧
    (∃ (s : State) (tag : BitVec 12) (form : BitVec 3) (reason : Byte) (epoch : Word) (addr : BitVec 42), s.canon ∧ (s.link
      .t).up = true ∧ reason ≠ 0 ∧ reason.toNat ≤ 9 ∧ 3 ≤ form.toNat ∧ form.toNat ≤ 5 ∧ epoch ≠ s.mir.epoch) ∧
    (∃ (s : State) (tag : BitVec 12) (form : BitVec 3) (reason : Byte) (epoch : Word) (addr : BitVec 42), s.canon ∧ (s.link
      .t).up = true ∧ reason ≠ 0 ∧ reason.toNat ≤ 9 ∧ epoch = s.mir.epoch ∧ form = 4) ∧
    (∃ (s : State) (tag : BitVec 12) (form : BitVec 3) (reason : Byte) (epoch : Word) (addr : BitVec 42), s.canon ∧ (s.link
      .t).up = true ∧ reason ≠ 0 ∧ reason.toNat ≤ 9 ∧ epoch = s.mir.epoch ∧ form = 5) ∧
    (∃ (s : State) (tag : BitVec 12) (form : BitVec 3) (reason : Byte) (epoch : Word) (addr : BitVec 42), s.canon ∧ (s.link
      .t).up = true ∧ reason ≠ 0 ∧ reason.toNat ≤ 9 ∧ epoch = s.mir.epoch ∧ form = 3 ∧ (s.sentAt tag).all (fun e => e.pair
      != addr) = true ∧ s.steady = true) ∧
    (∃ (s : State) (tag : BitVec 12) (form : BitVec 3) (reason : Byte) (epoch : Word) (addr : BitVec 42), s.canon ∧ (s.link
      .t).up = true ∧ (form.toNat < 3 ∨ 5 < form.toNat ∨ reason = 0 ∨ 9 < reason.toNat)) ∧
    (∃ (s : State), s.canon ∧ (s.link .t).up = true ∧ s.feat .t 20 = true ∧ s.twin.thr.base ≠ s.twin.thrSent) ∧
    (∃ (s : State), s.canon ∧ ((s.link .t).up = false ∨ s.feat .t 20 = false ∨ s.twin.thr.base = s.twin.thrSent)) ∧
    (∃ (s : State), s.canon ∧ (s.link .t).up = true ∧ s.feat .t 20 = false ∧ s.twin.ackTags ≠ []) ∧
    (∃ (s : State), s.canon ∧ ((s.link .t).up = false ∨ s.feat .t 20 = true ∨ s.twin.ackTags = [])) ∧
    (∃ (s : State) (e : PendEntry), s.canon ∧ s.oldestSent = some e ∧ s.steady = true) ∧
    (∃ (s : State), s.canon ∧ s.oldestSent = none) :=
  ⟨⟨({ linked .service with mir := { pstate := .paired, epoch := 3, pend := [(3, some { state := .sent, rnum := 3, fork := 2, pair := 0x40, gran := 9, opened := 0 }), (5, some { state := .sent, rnum := 5, fork := 4, pair := 0x80, gran := 9, opened := 0 })] }, twin := { txCount := 6, lastThr := 2 } }).setReg
    (Reg.LNK_FEAT 4) 0xFFFFFFFF, 3, 4, canonOf (by decide +kernel), by decide +kernel⟩,
   ⟨State.reset, 3, 4, canonOf (by decide +kernel), by decide +kernel⟩,
   ⟨({ linked .service with mir := { pstate := .paired, epoch := 3, pend := [(3, some { state := .sent, rnum := 3, fork := 2, pair := 0x40, gran := 9, opened := 0 }), (5, some { state := .sent, rnum := 5, fork := 4, pair := 0x80, gran := 9, opened := 0 })] }, twin := { txCount := 6, lastThr := 2 } }).setReg
    (Reg.LNK_FEAT 4) 0xFFFFFFFF, 2, 4, canonOf (by decide +kernel), by decide +kernel⟩,
   ⟨({ linked .service with mir := { pstate := .paired, epoch := 3, pend := [(3, some { state := .sent, rnum := 3, fork := 2, pair := 0x40, gran := 9, opened := 0 }), (5, some { state := .sent, rnum := 5, fork := 4, pair := 0x80, gran := 9, opened := 0 })] }, twin := { txCount := 6, lastThr := 2 } }).setReg
    (Reg.LNK_FEAT 4) 0xFFFFFFFF, 3, 9, canonOf (by decide +kernel), by decide +kernel⟩,
   ⟨({ linked .service with mir := { pstate := .paired, epoch := 3,  }, twin := {  } }).setReg (Reg.LNK_FEAT 4) 0, 3, 9,
    canonOf (by decide +kernel), by decide +kernel⟩,
   ⟨({ linked .service with mir := { pstate := .paired, epoch := 3, pend := [(3, some { state := .sent, rnum := 3, fork := 2, pair := 0x40, gran := 9, opened := 0 }), (5, some { state := .sent, rnum := 5, fork := 4, pair := 0x80, gran := 9, opened := 0 })] }, twin := { txCount := 6, lastThr := 2 } }).setReg
    (Reg.LNK_FEAT 4) 0xFFFFFFFF, [5], canonOf (by decide +kernel), by decide +kernel⟩,
   ⟨State.reset, [5], canonOf (by decide +kernel), by decide +kernel⟩,
   ⟨({ linked .service with mir := { pstate := .paired, epoch := 3, pend := [(3, some { state := .sent, rnum := 3, fork := 2, pair := 0x40, gran := 9, opened := 0 }), (5, some { state := .sent, rnum := 5, fork := 4, pair := 0x80, gran := 9, opened := 0 })] }, twin := { txCount := 6, lastThr := 2 } }).setReg
    (Reg.LNK_FEAT 4) 0xFFFFFFFF, [5, 6], canonOf (by decide +kernel), by decide +kernel⟩,
   ⟨({ linked .service with mir := { pstate := .paired, epoch := 3,  }, twin := {  } }).setReg (Reg.LNK_FEAT 4) 0xFFFFFFFF, [],
    canonOf (by decide +kernel), by decide +kernel⟩,
   ⟨({ linked .service with mir := { pstate := .paired, epoch := 3, pend := [(3, some { state := .sent, rnum := 3, fork := 2, pair := 0x40, gran := 9, opened := 0 }), (5, some { state := .sent, rnum := 5, fork := 4, pair := 0x80, gran := 9, opened := 0 })] }, twin := { txCount := 6, lastThr := 2 } }).setReg
    (Reg.LNK_FEAT 4) 0xFFFFFFFF, 3, 3, 2, 3, 0x40,
    { state := .sent, rnum := 3, fork := 2, pair := 0x40, gran := 9, opened := 0 }, canonOf (by decide +kernel),
    by decide +kernel⟩,
   ⟨State.reset, 3, 3, 2, 3, 0x40, canonOf (by decide +kernel), by decide +kernel⟩,
   ⟨({ linked .service with mir := { pstate := .paired, epoch := 3, pend := [(3, some { state := .sent, rnum := 3, fork := 2, pair := 0x40, gran := 9, opened := 0 }), (5, some { state := .sent, rnum := 5, fork := 4, pair := 0x80, gran := 9, opened := 0 })] }, twin := {  } }).setReg
    (Reg.LNK_FEAT 4) 0xFFFFFFFF, 3, 3, 2, 2, 0x40, canonOf (by decide +kernel), by decide +kernel⟩,
   ⟨({ linked .service with mir := { pstate := .paired, epoch := 3, pend := [(3, some { state := .sent, rnum := 3, fork := 2, pair := 0x40, gran := 9, opened := 0 }), (5, some { state := .sent, rnum := 5, fork := 4, pair := 0x80, gran := 9, opened := 0 })] }, twin := {  } }).setReg
    (Reg.LNK_FEAT 4) 0xFFFFFFFF, 3, 4, 2, 3, 0x40, canonOf (by decide +kernel), by decide +kernel⟩,
   ⟨({ linked .service with mir := { pstate := .paired, epoch := 3, copies := [{ gran := 7 }] }, twin := {  } }).setReg
    (Reg.LNK_FEAT 4) 0xFFFFFFFF, 3, 5, 2, 3, 0x38123, canonOf (by decide +kernel), by decide +kernel⟩,
   ⟨({ linked .service with mir := { pstate := .paired, epoch := 3, pend := [(3, some { state := .sent, rnum := 3, fork := 2, pair := 0x40, gran := 9, opened := 0 }), (5, some { state := .sent, rnum := 5, fork := 4, pair := 0x80, gran := 9, opened := 0 })] }, twin := {  } }).setReg
    (Reg.LNK_FEAT 4) 0xFFFFFFFF, 4, 3, 2, 3, 0x40, canonOf (by decide +kernel), by decide +kernel⟩,
   ⟨({ linked .service with mir := { pstate := .paired, epoch := 3,  }, twin := {  } }).setReg (Reg.LNK_FEAT 4) 0xFFFFFFFF, 3,
    2, 2, 2, 0x40, canonOf (by decide +kernel), by decide +kernel⟩,
   ⟨({ linked .service with mir := { pstate := .paired, epoch := 3,  }, twin := { thr := { base := 8 }, thrSent := 3 } }).setReg
    (Reg.LNK_FEAT 4) 0xFFFFFFFF, canonOf (by decide +kernel), by decide +kernel⟩,
   ⟨State.reset, canonOf (by decide +kernel), by decide +kernel⟩,
   ⟨({ linked .service with mir := { pstate := .paired, epoch := 3,  }, twin := { ackTags := [1, 2, 3, 4, 5, 6, 7, 8, 9, 10, 11] } }).setReg
    (Reg.LNK_FEAT 4) 0, canonOf (by decide +kernel), by decide +kernel⟩,
   ⟨State.reset, canonOf (by decide +kernel), by decide +kernel⟩,
   ⟨({ linked .service with mir := { pstate := .paired, epoch := 3, pend := [(3, some { state := .sent, rnum := 3, fork := 2, pair := 0x40, gran := 9, opened := 0 }), (5, some { state := .sent, rnum := 5, fork := 4, pair := 0x80, gran := 9, opened := 0 })] }, twin := { txCount := 6, lastThr := 2 } }).setReg
    (Reg.LNK_FEAT 4) 0xFFFFFFFF, { state := .sent, rnum := 3, fork := 2, pair := 0x40, gran := 9, opened := 0 }, canonOf
    (by decide +kernel), by decide +kernel⟩,
   ⟨State.reset, canonOf (by decide +kernel), by decide +kernel⟩⟩

/-- What each clause of `Obligations.RepairsAndHeartbeatsRun` asks for can be met. -/
theorem test_witness_repairs_and_heartbeats_run :
    (∃ (s : State) (tag : BitVec 12) (epoch : Word) (addr : BitVec 42), s.canon ∧ (s.link .t).up = true ∧ s.feat .t 17 = true ∧
      (s.link .t).granted.covers { req := 1, lq := 1 } = true) ∧
    (∃ (s : State) (tag : BitVec 12) (epoch : Word) (addr : BitVec 42), s.canon ∧ (s.link .t).takes = false) ∧
    (∃ (s : State) (tag : BitVec 12) (epoch : Word) (addr : BitVec 42), s.canon ∧ (s.link .t).up = true ∧ s.feat .t 17 = false) ∧
    (∃ (s : State) (tag : BitVec 12) (miss : Byte) (epoch : Word) (addr : BitVec 42), s.canon ∧ (s.link .t).up = true ∧ s.feat .t
      17 = true ∧ miss ≠ 0 ∧ miss.toNat ≤ 4 ∧ tag.toNat ∈ s.mir.repStale ∧ s.wantTag = []) ∧
    (∃ (s : State) (tag : BitVec 12) (miss : Byte) (epoch : Word) (addr : BitVec 42), s.canon ∧ (s.link .t).up = false) ∧
    (∃ (s : State) (tag : BitVec 12) (miss : Byte) (epoch : Word) (addr : BitVec 42), s.canon ∧ (s.link .t).up = true ∧ s.feat .t
      17 = true ∧ miss ≠ 0 ∧ miss.toNat ≤ 4 ∧ s.tagFree tag.toNat = true) ∧
    (∃ (s : State) (tag : BitVec 12) (miss : Byte) (epoch : Word) (addr : BitVec 42), s.canon ∧ (s.link .t).up = true ∧ (s.feat
      .t 17 = false ∨ miss = 0 ∨ 4 < miss.toNat)) ∧
    (∃ (s : State) (tag : BitVec 12) (miss : Byte) (epoch : Word) (addr : BitVec 42) (i : Nat) (e : PoolEntry), s.canon ∧ (s.link
      .t).up = true ∧ s.feat .t 17 = true ∧ miss ≠ 0 ∧ miss.toNat ≤ 4 ∧ tag.toNat ∉ s.mir.repStale ∧ s.mir.scrubRep = [] ∧
      s.wantTag = [] ∧ s.onTag tag.toNat = [i] ∧ Tab.get (fun _ => none) s.mir.repairs tag.toNat = some i ∧ s.entry i = some
      e ∧ e.forwarded = true ∧ e.orphan = false ∧ (s.link e.port).up = true ∧ miss ≠ 1) ∧
    (∃ (s : State) (tag : BitVec 8) (i : Nat) (e : PoolEntry), s.canon ∧ tag.toNat ∉ s.mir.repStale ∧ s.mir.scrubRep = [] ∧
      s.onTag tag.toNat = [i] ∧ Tab.get (fun _ => none) s.mir.repairs tag.toNat = some i ∧ s.entry i = some e ∧ e.forwarded
      = true ∧ e.orphan = false ∧ (s.link e.port).up = true) ∧
    (∃ (s : State) (tag : BitVec 8), s.canon ∧ (s.tagFree tag.toNat = true ∨ tag.toNat ∈ s.mir.repStale)) ∧
    (∃ (s : State) (flags : Byte) (admitCnt : Word) (lastTag : BitVec 12) (stamp : Word), s.canon ∧ (s.link .t).up = true ∧
      flags.extractLsb' 2 2 ≠ 0 ∧ s.twin.plnSeen = false ∧ s.steady = true) ∧
    (∃ (s : State) (flags : Byte) (admitCnt : Word) (lastTag : BitVec 12) (stamp : Word), s.canon ∧ ((s.link .t).up = false ∨
      (flags.extractLsb' 2 2 ≠ 0 ∧ s.twin.plnSeen = true))) ∧
    (∃ (s : State) (flags : Byte) (admitCnt : Word) (lastTag : BitVec 12) (stamp : Word), s.canon ∧ (s.link .t).up = true ∧
      flags.extractLsb' 2 2 = 0) ∧
    (∃ (s : State), s.canon ∧ s.steady = true) ∧
    (∃ (s : State), s.canon ∧ (s.pairState = .solo ∨ s.pairState = .fenced ∨ s.pairState = .none)) ∧
    (∃ (s : State) (pstate : BitVec 3) (epoch : Word) (sent : Word) (stamp : Word), s.canon ∧ (s.link .t).up = true ∧
      pstate.toNat ≤ 5 ∧ s.mir.soloGrant = false ∧ (epoch = s.mir.epoch ∨ s.mir.epoch = 0) ∧ (s.mir.epoch = 0 ∨ (pstate ≠ 2
      ∧ pstate ≠ 5))) ∧
    (∃ (s : State) (pstate : BitVec 3) (epoch : Word) (sent : Word) (stamp : Word), s.canon ∧ (s.link .t).up = false) ∧
    (∃ (s : State) (pstate : BitVec 3) (epoch : Word) (sent : Word) (stamp : Word), s.canon ∧ (s.link .t).up = true ∧
      pstate.toNat ≤ 5 ∧ s.mir.soloGrant = false ∧ s.mir.epoch ≠ 0 ∧ s.mir.epoch < epoch ∧ s.top.trigger = none ∧
      s.mir.pstate ≠ .fenced ∧ s.top.state = .service ∧ s.outranked 6 = false) ∧
    (∃ (s : State) (pstate : BitVec 3) (epoch : Word) (sent : Word) (stamp : Word), s.canon ∧ (s.link .t).up = true ∧
      pstate.toNat ≤ 5 ∧ s.mir.soloGrant = false ∧ epoch < s.mir.epoch) ∧
    (∃ (s : State) (pstate : BitVec 3) (epoch : Word) (sent : Word) (stamp : Word), s.canon ∧ (s.link .t).up = true ∧ (pstate = 2
      ∨ pstate = 5) ∧ s.mir.soloGrant = false ∧ s.mir.epoch ≠ 0 ∧ epoch = s.mir.epoch ∧ s.steady = true) ∧
    (∃ (s : State) (pstate : BitVec 3) (epoch : Word) (sent : Word) (stamp : Word), s.canon ∧ (s.link .t).up = true ∧ 5 <
      pstate.toNat) ∧
    (∃ (s : State), s.canon ∧ (s.link .t).lstate = .service) ∧
    (∃ (s : State), s.canon ∧ (s.link .t).lstate ≠ .service) :=
  ⟨⟨({ linked .service with mir := { pstate := .paired, epoch := 3,  }, twin := {  } }).setReg (Reg.LNK_FEAT 4) 0xFFFFFFFF, 3,
    3, 0x40, canonOf (by decide +kernel), by decide +kernel⟩,
   ⟨State.reset, 3, 3, 0x40, canonOf (by decide +kernel), by decide +kernel⟩,
   ⟨({ linked .service with mir := { pstate := .paired, epoch := 3,  }, twin := {  } }).setReg (Reg.LNK_FEAT 4) 0, 3, 3, 0x40,
    canonOf (by decide +kernel), by decide +kernel⟩,
   ⟨({ linked .service with mir := { pstate := .paired, epoch := 3, repStale := [4, 6] }, twin := {  } }).setReg (Reg.LNK_FEAT
    4) 0xFFFFFFFF, 6, 2, 3, 0x40, canonOf (by decide +kernel), by decide +kernel⟩,
   ⟨State.reset, 6, 2, 3, 0x40, canonOf (by decide +kernel), by decide +kernel⟩,
   ⟨({ linked .service with mir := { pstate := .paired, epoch := 3,  }, twin := {  } }).setReg (Reg.LNK_FEAT 4) 0xFFFFFFFF, 6,
    2, 3, 0x40, canonOf (by decide +kernel), by decide +kernel⟩,
   ⟨({ linked .service with mir := { pstate := .paired, epoch := 3,  }, twin := {  } }).setReg (Reg.LNK_FEAT 4) 0xFFFFFFFF, 6,
    5, 3, 0x40, canonOf (by decide +kernel), by decide +kernel⟩,
   ⟨({ linked .service with mir := { pstate := .paired, epoch := 3, repairs := [(6, some 2)] }, ord := { pool := [(2, some { kind := .read, port := .u1, tag := 3, addr := 0x40, pair := 0x40, adm := 1, forwarded := true, repTag := some 6 })] } }).setReg
    (Reg.LNK_FEAT 4) 0xFFFFFFFF, 6, 2, 3, 0x40, 2,
    { kind := .read, port := .u1, tag := 3, addr := 0x40, pair := 0x40, adm := 1, forwarded := true, repTag := some 6 },
    canonOf (by decide +kernel), by decide +kernel⟩,
   ⟨({ linked .service with mir := { pstate := .paired, epoch := 3, repairs := [(6, some 2)] }, ord := { pool := [(2, some { kind := .read, port := .u1, tag := 3, addr := 0x40, pair := 0x40, adm := 1, forwarded := true, repTag := some 6 })] } }).setReg
    (Reg.LNK_FEAT 4) 0xFFFFFFFF, 6, 2,
    { kind := .read, port := .u1, tag := 3, addr := 0x40, pair := 0x40, adm := 1, forwarded := true, repTag := some 6 },
    canonOf (by decide +kernel), by decide +kernel⟩,
   ⟨State.reset, 6, canonOf (by decide +kernel), by decide +kernel⟩,
   ⟨({ linked .service with mir := { pstate := .paired, epoch := 3,  }, twin := {  } }).setReg (Reg.LNK_FEAT 4) 0xFFFFFFFF, 4,
    3, 4, 5, canonOf (by decide +kernel), by decide +kernel⟩,
   ⟨State.reset, 4, 3, 4, 5, canonOf (by decide +kernel), by decide +kernel⟩,
   ⟨({ linked .service with mir := { pstate := .paired, epoch := 3,  }, twin := {  } }).setReg (Reg.LNK_FEAT 4) 0xFFFFFFFF,
    0xF3, 3, 4, 5, canonOf (by decide +kernel), by decide +kernel⟩,
   ⟨({ linked .service with mir := { pstate := .paired, epoch := 3,  }, twin := {  } }).setReg (Reg.LNK_FEAT 4) 0xFFFFFFFF,
    canonOf (by decide +kernel), by decide +kernel⟩,
   ⟨inTrain (({ linked .service with mir := { pstate := .paired, epoch := 3,  }, twin := {  } }).setReg (Reg.LNK_FEAT 4)
    0xFFFFFFFF), canonOf (by decide +kernel), by decide +kernel⟩,
   ⟨({ linked .service with mir := { pstate := .paired, epoch := 3,  }, twin := {  } }).setReg (Reg.LNK_FEAT 4) 0xFFFFFFFF, 1,
    3, 3, 0, canonOf (by decide +kernel), by decide +kernel⟩,
   ⟨State.reset, 1, 3, 3, 0, canonOf (by decide +kernel), by decide +kernel⟩,
   ⟨({ linked .service with mir := { pstate := .paired, epoch := 3,  }, twin := {  } }).setReg (Reg.LNK_FEAT 4) 0xFFFFFFFF, 1,
    4, 3, 0, canonOf (by decide +kernel), by decide +kernel⟩,
   ⟨({ linked .service with mir := { pstate := .paired, epoch := 3,  }, twin := {  } }).setReg (Reg.LNK_FEAT 4) 0xFFFFFFFF, 1,
    2, 3, 0, canonOf (by decide +kernel), by decide +kernel⟩,
   ⟨({ linked .service with mir := { pstate := .paired, epoch := 3,  }, twin := {  } }).setReg (Reg.LNK_FEAT 4) 0xFFFFFFFF, 2,
    3, 3, 0, canonOf (by decide +kernel), by decide +kernel⟩,
   ⟨({ linked .service with mir := { pstate := .paired, epoch := 3,  }, twin := {  } }).setReg (Reg.LNK_FEAT 4) 0xFFFFFFFF, 6,
    3, 3, 0, canonOf (by decide +kernel), by decide +kernel⟩,
   ⟨({ linked .service with mir := { pstate := .paired, epoch := 3,  }, twin := {  } }).setReg (Reg.LNK_FEAT 4) 0xFFFFFFFF,
    canonOf (by decide +kernel), by decide +kernel⟩,
   ⟨State.reset, canonOf (by decide +kernel), by decide +kernel⟩⟩

/-- What each clause of `Obligations.HandoversRun` asks for can be met. -/
theorem test_witness_handovers_run :
    (∃ (s : State) (m : HandoverMsg) (w : Word), s.canon ∧ (s.link .t).up = true ∧ (s.link .t).granted.mg ≠ 0 ∧ s.top.trigger =
      none ∧ s.rtFailed m.region.toNat = false ∧ w = s.rtEntry m.region.toNat ∧ rtRole w = 1 ∧ (rtSync w = 0 ∨ rtSync w = 5)
      ∧ rtHandover w = false ∧ s.mir.handovers.length < 16) ∧
    (∃ (s : State) (m : HandoverMsg), s.canon ∧ (s.link .t).takes = false) ∧
    (∃ (s : State) (m : HandoverMsg), s.canon ∧ (s.link .t).up = true ∧ (s.link .t).granted.mg ≠ 0 ∧ s.top.trigger = none ∧
      (s.rtFailed m.region.toNat = true ∨ rtRole (s.rtEntry m.region.toNat) = 0 ∨ rtHandover (s.rtEntry m.region.toNat) =
      true ∨ (rtSync (s.rtEntry m.region.toNat) ≠ 0 ∧ rtSync (s.rtEntry m.region.toNat) ≠ 5) ∨ (rtRole (s.rtEntry
      m.region.toNat) = 1 ∧ 16 ≤ s.mir.handovers.length))) ∧
    (∃ (s : State) (m : HandoverMsg) (w : Word), s.canon ∧ (s.link .t).up = true ∧ (s.link .t).granted.mg ≠ 0 ∧ s.top.trigger =
      none ∧ s.rtFailed m.region.toNat = false ∧ w = s.rtEntry m.region.toNat ∧ rtRole w = 2 ∧ rtSync w = 0 ∧ rtHandover w =
      false) ∧
    (∃ (s : State) (m : HandoverMsg), s.canon ∧ (s.link .t).takes = true ∧ (s.link .t).granted.mg = 0) ∧
    (∃ (s : State) (m : HandoverMsg), s.canon ∧ (s.link .t).takes = true ∧ (s.link .t).granted.mg = 0) ∧
    (∃ (s : State) (m : HandoverMsg), s.canon ∧ (s.link .t).takes = true ∧ (s.link .t).granted.mg = 0) ∧
    (∃ (s : State) (m : HandoverMsg), s.canon ∧ (s.link .t).takes = true ∧ (s.link .t).granted.mg = 0) ∧
    (∃ (s : State) (region : BitVec 18) (h : Handover), s.canon ∧ s.top.trigger = none ∧ s.mir.handovers = [h] ∧ h.region =
      region.toNat ∧ h.atP = true ∧ h.boundary = none ∧ s.openUpTo (s.ord.forkNext - 1) = true) ∧
    (∃ (s : State) (region : BitVec 18), s.canon ∧ s.top.trigger ≠ none) ∧
    (∃ (s : State) (region : BitVec 18) (h : Handover), s.canon ∧ s.top.trigger = none ∧ s.mir.handovers = [h] ∧ h.region =
      region.toNat ∧ h.atP = true ∧ h.boundary = none ∧ h.drainedSent = false ∧ (s.link .t).up = true ∧ s.openUpTo
      (s.ord.forkNext - 1) = false ∧ s.rtFailed region.toNat = false) ∧
    (∃ (s : State) (m : HandoverMsg) (w : Word), s.canon ∧ (s.link .t).up = true ∧ (s.link .t).granted.mg ≠ 0 ∧ s.top.trigger =
      none ∧ s.rtFailed m.region.toNat = false ∧ w = s.rtEntry m.region.toNat ∧ rtRole w = 2 ∧ rtSync w = 0) ∧
    (∃ (s : State) (m : HandoverMsg), s.canon ∧ (s.link .t).takes = false) ∧
    (∃ (s : State) (m : HandoverMsg) (w : Word), s.canon ∧ (s.link .t).up = true ∧ (s.link .t).granted.mg ≠ 0 ∧ s.top.trigger =
      none ∧ s.rtFailed m.region.toNat = false ∧ w = s.rtEntry m.region.toNat ∧ rtRole w = 2 ∧ rtSync w ≠ 0) ∧
    (∃ (s : State) (m : HandoverMsg) (h : Handover), s.canon ∧ (s.link .t).up = true ∧ (s.link .t).granted.mg ≠ 0 ∧ s.handoverOf
      m.region.toNat = some h ∧ h.atP = true ∧ h.drainedSent = true) ∧
    (∃ (s : State) (m : HandoverMsg), s.canon ∧ (s.link .t).takes = false) ∧
    (∃ (s : State) (m : HandoverMsg) (h : Handover), s.canon ∧ (s.link .t).up = true ∧ (s.link .t).granted.mg ≠ 0 ∧ s.top.trigger
      = none ∧ s.handoverOf m.region.toNat = some h ∧ h.atP = true ∧ h.drainedSent = true ∧ s.rtFailed m.region.toNat =
      false) ∧
    (∃ (s : State) (m : HandoverMsg), s.canon ∧ (s.link .t).takes = false) ∧
    (∃ (s : State) (m : HandoverMsg) (h : Handover), s.canon ∧ (s.link .t).up = true ∧ (s.link .t).granted.mg ≠ 0 ∧ s.top.trigger
      = none ∧ s.handoverOf m.region.toNat = some h ∧ h.atP = false ∧ s.rtFailed m.region.toNat = false) ∧
    (∃ (s : State) (region : BitVec 18) (h : Handover), s.canon ∧ s.top.trigger = none ∧ s.handoverOf region.toNat = some h ∧
      h.region = region.toNat ∧ h.atP = false ∧ s.rtFailed region.toNat = false) ∧
    (∃ (s : State) (region : BitVec 18), s.canon ∧ s.handoverOf region.toNat = none) :=
  ⟨⟨({ linked .service with mir := { epoch := 3, pstate := .paired }, map := { rt := [(5, 0x00040007), (6, 0x00080008)] } }).setReg
    (Reg.LNK_FEAT 4) 0xFFFFFFFF, { mtag := 2, epoch := 3, region := 5 }, 0x00040007, canonOf (by decide +kernel),
    by decide +kernel⟩,
   ⟨State.reset, { mtag := 2, epoch := 3, region := 5 }, canonOf (by decide +kernel), by decide +kernel⟩,
   ⟨({ linked .service with mir := { epoch := 3, pstate := .paired }, map := { rt := [(5, 7), (6, 0x00080008)] } }).setReg
    (Reg.LNK_FEAT 4) 0xFFFFFFFF, { mtag := 2, epoch := 3, region := 5 }, canonOf (by decide +kernel), by decide +kernel⟩,
   ⟨({ linked .service with mir := { epoch := 3, pstate := .paired }, map := { rt := [(5, 0x00080007), (6, 0x00080008)] } }).setReg
    (Reg.LNK_FEAT 4) 0xFFFFFFFF, { mtag := 2, epoch := 3, region := 5 }, 0x00080007, canonOf (by decide +kernel),
    by decide +kernel⟩,
   ⟨((linked .service).setLink .t { upLink with granted := {} }).setReg (Reg.LNK_FEAT 4) 0xFFFFFFFF,
    { mtag := 2, epoch := 3, region := 5 }, canonOf (by decide +kernel), by decide +kernel⟩,
   ⟨((linked .service).setLink .t { upLink with granted := {} }).setReg (Reg.LNK_FEAT 4) 0xFFFFFFFF,
    { mtag := 2, epoch := 3, region := 5 }, canonOf (by decide +kernel), by decide +kernel⟩,
   ⟨((linked .service).setLink .t { upLink with granted := {} }).setReg (Reg.LNK_FEAT 4) 0xFFFFFFFF,
    { mtag := 2, epoch := 3, region := 5 }, canonOf (by decide +kernel), by decide +kernel⟩,
   ⟨((linked .service).setLink .t { upLink with granted := {} }).setReg (Reg.LNK_FEAT 4) 0xFFFFFFFF,
    { mtag := 2, epoch := 3, region := 5 }, canonOf (by decide +kernel), by decide +kernel⟩,
   ⟨({ linked .service with mir := { epoch := 3, pstate := .paired, handovers := [{ region := 5, atP := true, mtag := 2 }], pend := [(3, some { state := .sent, rnum := 3, fork := 2, pair := 0x40, gran := 9, opened := 0 })] }, map := { rt := [(5, 0x00040007), (6, 0x00080008)] } }).setReg
    (Reg.LNK_FEAT 4) 0xFFFFFFFF |> fun s : State => { s with ord := { forkNext := 5 } }, 5,
    { region := 5, atP := true, mtag := 2 }, canonOf (by decide +kernel), by decide +kernel⟩,
   ⟨triggered, 5, canonOf (by decide +kernel), by decide +kernel⟩,
   ⟨({ linked .service with mir := { epoch := 3, pstate := .paired, handovers := [{ region := 5, atP := true, mtag := 2 }] }, map := { rt := [(5, 0x00040007), (6, 0x00080008)] } }).setReg
    (Reg.LNK_FEAT 4) 0xFFFFFFFF |> fun s : State => { s with ord := { forkNext := 5 } }, 5,
    { region := 5, atP := true, mtag := 2 }, canonOf (by decide +kernel), by decide +kernel⟩,
   ⟨({ linked .service with mir := { epoch := 3, pstate := .paired, handovers := [{ region := 5, atP := false, mtag := 2 }] }, map := { rt := [(5, 0x00880007), (6, 0x00080008)] } }).setReg
    (Reg.LNK_FEAT 4) 0xFFFFFFFF, { mtag := 2, epoch := 3, region := 5 }, 0x00880007, canonOf (by decide +kernel),
    by decide +kernel⟩,
   ⟨State.reset, { mtag := 2, epoch := 3, region := 5 }, canonOf (by decide +kernel), by decide +kernel⟩,
   ⟨({ linked .service with mir := { epoch := 3, pstate := .paired, handovers := [{ region := 5, atP := false, mtag := 2 }] }, map := { rt := [(5, 0x00980007), (6, 0x00080008)] } }).setReg
    (Reg.LNK_FEAT 4) 0xFFFFFFFF, { mtag := 2, epoch := 3, region := 5 }, 0x00980007, canonOf (by decide +kernel),
    by decide +kernel⟩,
   ⟨({ linked .service with mir := { epoch := 3, pstate := .paired, handovers := [{ region := 5, atP := true, mtag := 2, boundary := some 3, drainedSent := true }] }, map := { rt := [(5, 0x00040007), (6, 0x00080008)] } }).setReg
    (Reg.LNK_FEAT 4) 0xFFFFFFFF, { mtag := 2, epoch := 3, region := 5 },
    { region := 5, atP := true, mtag := 2, boundary := some 3, drainedSent := true }, canonOf (by decide +kernel),
    by decide +kernel⟩,
   ⟨State.reset, { mtag := 2, epoch := 3, region := 5 }, canonOf (by decide +kernel), by decide +kernel⟩,
   ⟨({ linked .service with mir := { epoch := 3, pstate := .paired, handovers := [{ region := 5, atP := true, mtag := 2, boundary := some 3, drainedSent := true }] }, map := { rt := [(5, 0x00080007), (6, 0x00080008)] } }).setReg
    (Reg.LNK_FEAT 4) 0xFFFFFFFF, { mtag := 2, epoch := 3, region := 5 },
    { region := 5, atP := true, mtag := 2, boundary := some 3, drainedSent := true }, canonOf (by decide +kernel),
    by decide +kernel⟩,
   ⟨State.reset, { mtag := 2, epoch := 3, region := 5 }, canonOf (by decide +kernel), by decide +kernel⟩,
   ⟨({ linked .service with mir := { epoch := 3, pstate := .paired, handovers := [{ region := 5, atP := false, mtag := 2 }] }, map := { rt := [(5, 0x00880007), (6, 0x00080008)] } }).setReg
    (Reg.LNK_FEAT 4) 0xFFFFFFFF, { mtag := 2, epoch := 3, region := 5 }, { region := 5, atP := false, mtag := 2 }, canonOf
    (by decide +kernel), by decide +kernel⟩,
   ⟨({ linked .service with mir := { epoch := 3, pstate := .paired, handovers := [{ region := 5, atP := false, mtag := 2 }] }, map := { rt := [(5, 0x00880007), (6, 0x00080008)] } }).setReg
    (Reg.LNK_FEAT 4) 0xFFFFFFFF, 5, { region := 5, atP := false, mtag := 2 }, canonOf (by decide +kernel),
    by decide +kernel⟩,
   ⟨State.reset, 5, canonOf (by decide +kernel), by decide +kernel⟩⟩

/-- What each clause of `Obligations.HandoverCommandsComplete` asks for can be met. -/
theorem test_witness_handover_commands_complete :
    (∃ (s : State) (m : HandoverMsg), s.canon ∧ (s.link .t).up = true ∧ (s.link .t).granted.mg ≠ 0 ∧ s.top.trigger = none ∧
      s.rtFailed m.region.toNat = false ∧ rtRole (s.rtEntry m.region.toNat) = 1 ∧ rtSync (s.rtEntry m.region.toNat) = 0 ∧
      rtHandover (s.rtEntry m.region.toNat) = false ∧ s.mir.handovers.length < 16) ∧
    (∃ (s : State) (region : BitVec 18) (h : Handover), s.canon ∧ s.top.trigger = none ∧ s.mir.handovers = [h] ∧ h.region =
      region.toNat ∧ h.atP = true ∧ h.boundary = none ∧ s.openUpTo (s.ord.forkNext - 1) = true) ∧
    (∃ (s : State) (m : HandoverMsg), s.canon ∧ (s.link .t).up = true ∧ (s.link .t).granted.mg ≠ 0 ∧ s.top.trigger = none ∧
      s.rtFailed m.region.toNat = false ∧ rtRole (s.rtEntry m.region.toNat) = 2 ∧ rtSync (s.rtEntry m.region.toNat) = 0) ∧
    (∃ (s : State) (m : HandoverMsg) (h : Handover), s.canon ∧ (s.link .t).up = true ∧ (s.link .t).granted.mg ≠ 0 ∧
      s.mir.handovers = [h] ∧ h.region = m.region.toNat ∧ h.atP = true ∧ h.drainedSent = true) ∧
    (∃ (s : State) (m : HandoverMsg) (h : Handover), s.canon ∧ (s.link .t).up = true ∧ (s.link .t).granted.mg ≠ 0 ∧ s.top.trigger
      = none ∧ s.mir.handovers = [h] ∧ h.region = m.region.toNat ∧ h.atP = true ∧ h.drainedSent = true ∧ s.rtFailed
      m.region.toNat = false) ∧
    (∃ (s : State) (region : BitVec 18) (h : Handover), s.canon ∧ s.top.trigger = none ∧ s.mir.handovers = [h] ∧ h.region =
      region.toNat ∧ h.atP = false ∧ s.rtFailed region.toNat = false) :=
  ⟨⟨({ linked .service with mir := { epoch := 3, pstate := .paired }, map := { rt := [(5, 0x00040007), (6, 0x00080008)] } }).setReg
    (Reg.LNK_FEAT 4) 0xFFFFFFFF, { mtag := 2, epoch := 3, region := 5 }, canonOf (by decide +kernel), by decide +kernel⟩,
   ⟨({ linked .service with mir := { epoch := 3, pstate := .paired, handovers := [{ region := 5, atP := true, mtag := 2 }], pend := [(3, some { state := .sent, rnum := 3, fork := 2, pair := 0x40, gran := 9, opened := 0 })] }, map := { rt := [(5, 0x00040007), (6, 0x00080008)] } }).setReg
    (Reg.LNK_FEAT 4) 0xFFFFFFFF |> fun s : State => { s with ord := { forkNext := 5 } }, 5,
    { region := 5, atP := true, mtag := 2 }, canonOf (by decide +kernel), by decide +kernel⟩,
   ⟨({ linked .service with mir := { epoch := 3, pstate := .paired, handovers := [{ region := 5, atP := false, mtag := 2 }] }, map := { rt := [(5, 0x00880007), (6, 0x00080008)] } }).setReg
    (Reg.LNK_FEAT 4) 0xFFFFFFFF, { mtag := 2, epoch := 3, region := 5 }, canonOf (by decide +kernel), by decide +kernel⟩,
   ⟨({ linked .service with mir := { epoch := 3, pstate := .paired, handovers := [{ region := 5, atP := true, mtag := 2, boundary := some 3, drainedSent := true }] }, map := { rt := [(5, 0x00040007), (6, 0x00080008)] } }).setReg
    (Reg.LNK_FEAT 4) 0xFFFFFFFF, { mtag := 2, epoch := 3, region := 5 },
    { region := 5, atP := true, mtag := 2, boundary := some 3, drainedSent := true }, canonOf (by decide +kernel),
    by decide +kernel⟩,
   ⟨({ linked .service with mir := { epoch := 3, pstate := .paired, handovers := [{ region := 5, atP := true, mtag := 2, boundary := some 3, drainedSent := true }] }, map := { rt := [(5, 0x00080007), (6, 0x00080008)] } }).setReg
    (Reg.LNK_FEAT 4) 0xFFFFFFFF, { mtag := 2, epoch := 3, region := 5 },
    { region := 5, atP := true, mtag := 2, boundary := some 3, drainedSent := true }, canonOf (by decide +kernel),
    by decide +kernel⟩,
   ⟨({ linked .service with mir := { epoch := 3, pstate := .paired, handovers := [{ region := 5, atP := false, mtag := 2 }] }, map := { rt := [(5, 0x00880007), (6, 0x00080008)] } }).setReg
    (Reg.LNK_FEAT 4) 0xFFFFFFFF, 5, { region := 5, atP := false, mtag := 2 }, canonOf (by decide +kernel),
    by decide +kernel⟩⟩

/-- What each clause of `Obligations.SoloAndFormatRun` asks for can be met. -/
theorem test_witness_solo_and_format_run :
    (∃ (s : State), s.canon ∧ s.top.trigger = none ∧ s.mir.soloGrant = true ∧ s.mir.soloConv = false ∧ s.mir.soloEnd = false ∧
      s.map.failed = [] ∧ s.map.lost = []) ∧
    (∃ (s : State), s.canon ∧ (s.mir.soloGrant = false ∨ s.mir.soloConv = true)) ∧
    (∃ (s : State), s.canon ∧ s.top.trigger = none ∧ s.mir.soloGrant = true ∧ s.mir.soloConv = false ∧ s.mir.soloEnd = true ∧
      s.mir.formatDue = false ∧ s.mir.rbMode ≠ 3 ∧ s.outranked 6 = false ∧ s.top.state = .service ∧ s.map.failed = [] ∧
      s.map.lost = []) ∧
    (∃ (s : State), s.canon ∧ s.top.trigger = none ∧ s.mir.soloGrant = true ∧ s.mir.soloConv = false) ∧
    (∃ (s : State), s.canon ∧ (s.mir.soloGrant = false ∨ s.top.trigger ≠ none)) ∧
    (∃ (s : State), s.canon ∧ s.top.trigger = none ∧ s.mir.soloGrant = true ∧ s.mir.soloConv = true ∧ s.mir.formatDue = false ∧
      s.mir.rbMode ≠ 3 ∧ s.outranked 6 = false ∧ s.top.state = .service) ∧
    (∃ (s : State), s.canon ∧ s.top.trigger = none ∧ s.mir.soloGrant = true ∧ s.mir.soloConv = true ∧ s.mir.formatDue = false ∧
      s.mir.rbMode ≠ 3 ∧ s.top.state = .join ∧ s.outranked 7 = false ∧ s.outranked 6 = false ∧ s.joinLinked = true) ∧
    (∃ (s : State), s.canon ∧ s.top.trigger = none ∧ s.mir.soloGrant = true ∧ s.mir.soloConv = true ∧ s.mir.formatDue = false ∧
      s.mir.rbMode ≠ 3 ∧ s.top.state = .join ∧ s.outranked 6 = false ∧ (s.outranked 7 = true ∨ s.joinLinked = false)) ∧
    (∃ (s : State) (r : Nat) (rest : List Nat), s.canon ∧ s.top.trigger = none ∧ s.mir.soloGrant = true ∧ s.mir.soloConv = true ∧
      s.mir.formatDue = true ∧ s.mappedRegions = r :: rest ∧ s.outranked 6 = false ∧ s.top.state = .service) ∧
    (∃ (s : State) (n : Nat), s.canon ∧ s.top.trigger = none ∧ s.mir.rb = .formatting ∧ s.mir.pstate = .solo ∧ s.mir.fmtNext = 2
      ^ 24 ∧ s.formatWaiting = false ∧ s.rtFailed s.mir.rbRegion = false ∧ s.mappedRegions.find? (fun n => decide
      (s.mir.rbRegion < n)) = some n) ∧
    (∃ (s : State), s.canon ∧ (s.mir.rb ≠ .formatting ∨ s.mir.fmtNext ≠ 2 ^ 24)) ∧
    (∃ (s : State), s.canon ∧ s.top.trigger = none ∧ s.mir.rb = .formatting ∧ s.mir.pstate = .solo ∧ s.mir.fmtNext = 2 ^ 24 ∧
      s.formatWaiting = false ∧ s.rtFailed s.mir.rbRegion = false ∧ s.mappedRegions.find? (fun n => decide (s.mir.rbRegion <
      n)) = none) :=
  ⟨⟨({ linked .service with mir := { epoch := 3, pstate := .paired, soloGrant := true }, map := { rt := [(5, 0x00040007), (6, 0x00080008)] } }).setReg
    (Reg.LNK_FEAT 4) 0xFFFFFFFF, canonOf (by decide +kernel), by decide +kernel⟩,
   ⟨State.reset, canonOf (by decide +kernel), by decide +kernel⟩,
   ⟨({ linked .service with mir := { epoch := 3, pstate := .paired, soloGrant := true, soloEnd := true }, map := { rt := [(5, 0x00040007), (6, 0x00080008)] } }).setReg
    (Reg.LNK_FEAT 4) 0xFFFFFFFF, canonOf (by decide +kernel), by decide +kernel⟩,
   ⟨({ linked .service with mir := { epoch := 3, pstate := .paired, soloGrant := true }, map := { rt := [(5, 0x00040007), (6, 0x00080008)] } }).setReg
    (Reg.LNK_FEAT 4) 0xFFFFFFFF, canonOf (by decide +kernel), by decide +kernel⟩,
   ⟨State.reset, canonOf (by decide +kernel), by decide +kernel⟩,
   ⟨({ linked .service with mir := { epoch := 3, pstate := .paired, soloGrant := true, soloConv := true }, map := { rt := [(5, 0x00040007), (6, 0x00080008)] } }).setReg
    (Reg.LNK_FEAT 4) 0xFFFFFFFF, canonOf (by decide +kernel), by decide +kernel⟩,
   ⟨((({ linked .join with mir := { epoch := 3, pstate := .paired, soloGrant := true, soloConv := true }, map := { rt := [(5, 0x00040007), (6, 0x00080008)] } }).setReg
    (Reg.LNK_FEAT 4) 0xFFFFFFFF).setLink .u2
    { upLink with peerNeg := some { linkRevs := 1, mirRevs := 1, features := 0, profile := 0, node := 0, port := 0, domain := 0 } }).setFld
    Fld.MIR_WITNESS.WITNESS_ID 0, canonOf (by decide +kernel), by decide +kernel⟩,
   ⟨{ ({ linked .join with mir := { epoch := 3, pstate := .paired, soloGrant := true, soloConv := true }, map := { rt := [(5, 0x00040007), (6, 0x00080008)] } }).setReg (Reg.LNK_FEAT 4) 0xFFFFFFFF with links := [] },
    canonOf (by decide +kernel), by decide +kernel⟩,
   ⟨({ linked .service with mir := { epoch := 3, pstate := .paired, soloGrant := true, soloConv := true, formatDue := true }, map := { rt := [(5, 0x00040007), (6, 0x00080008)] } }).setReg
    (Reg.LNK_FEAT 4) 0xFFFFFFFF, 5, [6], canonOf (by decide +kernel), by decide +kernel⟩,
   ⟨({ linked .service with mir := { epoch := 3, pstate := .solo, rb := .formatting, rbRegion := 5, fmtNext := 2 ^ 24 }, map := { rt := [(5, 0x00040007), (6, 0x00080008)] } }).setReg
    (Reg.LNK_FEAT 4) 0xFFFFFFFF, 6, canonOf (by decide +kernel), by decide +kernel⟩,
   ⟨State.reset, canonOf (by decide +kernel), by decide +kernel⟩,
   ⟨({ linked .service with mir := { epoch := 3, pstate := .solo, rb := .formatting, rbRegion := 6, fmtNext := 2 ^ 24 }, map := { rt := [(5, 0x00040007), (6, 0x00080008)] } }).setReg
    (Reg.LNK_FEAT 4) 0xFFFFFFFF, canonOf (by decide +kernel), by decide +kernel⟩⟩

/-- What each clause of `Obligations.RebuildControlRuns` asks for can be met. -/
theorem test_witness_rebuild_control_runs :
    (∃ (s : State) (m : RebuildMsg), s.canon ∧ (s.link .t).up = true ∧ (s.link .t).granted.mg ≠ 0 ∧ s.mir.rbRole = 2 ∧ s.mir.rb =
      .starting ∧ modeOf m = s.mir.rbMode.toNat ∧ s.mir.rbMode = 1) ∧
    (∃ (s : State) (m : RebuildMsg), s.canon ∧ (s.link .t).takes = false) ∧
    (∃ (s : State) (m : RebuildMsg) (g : Nat) (rest : List Nat), s.canon ∧ (s.link .t).up = true ∧ (s.link .t).granted.mg ≠ 0 ∧
      s.mir.rbRole = 2 ∧ s.mir.rb = .starting ∧ modeOf m = s.mir.rbMode.toNat ∧ s.mir.rbMode = 2 ∧ s.pairMarks = g :: rest ∧
      s.mir.lastCtl = [] ∧ rest.length < 15) ∧
    (∃ (s : State) (m : RebuildMsg), s.canon ∧ (s.link .t).up = true ∧ (s.link .t).granted.mg ≠ 0 ∧ s.mir.rbRole = 2 ∧ s.mir.rb =
      .starting ∧ modeOf m ≠ s.mir.rbMode.toNat) ∧
    (∃ (s : State) (m : RebuildMsg), s.canon ∧ (s.link .t).takes = true ∧ (s.link .t).granted.mg = 0) ∧
    (∃ (s : State) (m : RebuildMsg), s.canon ∧ (s.link .t).takes = true ∧ (s.link .t).granted.mg = 0) ∧
    (∃ (s : State) (m : RebuildMsg), s.canon ∧ (s.link .t).takes = true ∧ (s.link .t).granted.mg = 0 ∧ s.feat .t 19 = true ∧
      m.share.toNat ≤ 100) ∧
    (∃ (s : State) (m : RebuildMsg), s.canon ∧ (s.link .t).takes = true ∧ (s.link .t).granted.mg = 0) ∧
    (∃ (s : State) (m : RebuildMsg), s.canon ∧ (s.link .t).takes = true ∧ (s.link .t).granted.mg = 0) ∧
    (∃ (s : State) (m : RebuildMsg), s.canon ∧ (s.link .t).takes = true ∧ (s.link .t).granted.mg = 0 ∧ s.feat .t 19 = true ∧
      m.share.toNat ≤ 100) ∧
    (∃ (s : State) (m : RebuildMsg), s.canon ∧ (s.link .t).takes = true ∧ s.feat .t 19 = false) ∧
    (∃ (s : State) (m : RebuildMsg), s.canon ∧ (s.link .t).takes = true ∧ (s.feat .t 19 = false ∨ 100 < m.share.toNat)) ∧
    (∃ (s : State) (m : RebuildMsg), s.canon ∧ (s.link .t).up = true ∧ (s.link .t).granted.mg ≠ 0 ∧ (s.mir.rbRole ≠ 2 ∨ s.mir.rb
      ≠ .starting)) ∧
    (∃ (s : State) (m : RebuildMsg) (r : Nat), s.canon ∧ (s.link .t).up = true ∧ (s.link .t).granted.mg ≠ 0 ∧ s.top.trigger =
      none ∧ s.mir.rbRole = 2 ∧ s.mir.rbRegion = r ∧ r = m.cursor.toNat / 512 ∧ s.rtFailed r = false ∧ rtRole (s.rtEntry r)
      = 2 ∧ rtSync (s.rtEntry r) = 2) ∧
    (∃ (s : State) (m : RebuildMsg), s.canon ∧ (s.link .t).takes = false) ∧
    (∃ (s : State) (m : RebuildMsg) (r : Nat), s.canon ∧ (s.link .t).up = true ∧ (s.link .t).granted.mg ≠ 0 ∧ s.top.trigger =
      none ∧ s.mir.rbRole = 2 ∧ r = m.cursor.toNat / 512 ∧ s.mir.rbRegion ≠ r ∧ (s.rtFailed r = true ∨ rtSync (s.rtEntry r)
      ≠ 5)) ∧
    (∃ (s : State) (m : RebuildMsg) (r : Nat), s.canon ∧ (s.link .t).up = true ∧ (s.link .t).granted.mg ≠ 0 ∧ r = m.cursor.toNat
      / 512 ∧ s.rtFailed r = false ∧ rtSync (s.rtEntry r) = 5) ∧
    (∃ (s : State) (m : RebuildMsg), s.canon ∧ (s.link .t).up = true ∧ (s.link .t).granted.mg ≠ 0 ∧ s.feat .t 19 = true ∧
      s.mir.rbRole = 1 ∧ s.top.trigger = none ∧ rtRole (s.rtEntry (m.cursor.toNat / 512)) ≠ 0) ∧
    (∃ (s : State) (m : RebuildMsg), s.canon ∧ (s.link .t).takes = false) ∧
    (∃ (s : State) (m : RebuildMsg) (f : LineFilter), s.canon ∧ (s.link .t).up = true ∧ (s.link .t).granted.mg ≠ 0 ∧ s.feat .t 19
      = true ∧ s.mir.rbRole = 2 ∧ s.mir.curWait = [] ∧ s.mir.filters = [f] ∧ f.gran = m.cursor.toNat ∧ f.rejected = false ∧
      (s.link .t).nextReq ≤ (s.link .t).adm.base ∧ rtRole (s.rtEntry (m.cursor.toNat / 512)) ≠ 0 ∧ s.top.trigger = none) ∧
    (∃ (s : State) (m : RebuildMsg) (r : Nat), s.canon ∧ (s.link .t).up = true ∧ (s.link .t).granted.mg ≠ 0 ∧ s.top.trigger =
      none ∧ m.sess = false ∧ r = m.cursor.toNat / 512 ∧ s.rtFailed r = false ∧ rtRole (s.rtEntry r) = 2 ∧ (rtSync
      (s.rtEntry r) = 2 ∨ rtSync (s.rtEntry r) = 3 ∨ rtSync (s.rtEntry r) = 4) ∧ (s.mir.rbRole ≠ 2 ∨ s.mir.rbMode ≠ 1)) ∧
    (∃ (s : State) (m : RebuildMsg), s.canon ∧ (s.link .t).takes = false) ∧
    (∃ (s : State) (m : RebuildMsg), s.canon ∧ (s.link .t).up = true ∧ (s.link .t).granted.mg ≠ 0 ∧ s.top.trigger = none ∧ m.sess
      = true ∧ m.cursor ≠ 0x7FFFFFE ∧ s.mir.rbRole = 2 ∧ (∀ r ∈ s.mappedRegions, s.hasMarks r = false)) ∧
    (∃ (s : State) (m : RebuildMsg), s.canon ∧ (s.link .t).up = true ∧ (s.link .t).granted.mg ≠ 0 ∧ m.sess = true ∧ m.cursor =
      0x7FFFFFE ∧ (s.mir.rbRole ≠ 1 ∨ s.mir.rb ≠ .reporting)) ∧
    (∃ (s : State) (m : RebuildMsg), s.canon ∧ (s.link .t).up = true ∧ (s.link .t).granted.mg ≠ 0 ∧ s.top.trigger = none ∧ m.sess
      = true ∧ m.cursor = 0x7FFFFFE ∧ s.mir.rbRole = 1 ∧ s.mir.rb = .reporting ∧ s.mappedRegions = []) ∧
    (∃ (s : State) (m : RebuildMsg), s.canon ∧ (s.link .t).up = true ∧ (s.link .t).granted.mg ≠ 0 ∧ m.sess = false ∧ (s.mir.rb ≠
      .copying ∨ s.mir.rbRegion ≠ m.cursor.toNat / 512)) ∧
    (∃ (s : State) (m : RebuildMsg), s.canon ∧ (s.link .t).takes = false) ∧
    (∃ (s : State) (m : RebuildMsg), s.canon ∧ (s.link .t).up = true ∧ (s.link .t).granted.mg ≠ 0 ∧ s.top.trigger = none ∧ m.sess
      = true ∧ s.mir.rbRole = 1 ∧ s.top.state = .service) ∧
    (∃ (s : State) (m : RebuildMsg), s.canon ∧ (s.link .t).up = true ∧ (s.link .t).granted.mg ≠ 0 ∧ s.top.trigger = none ∧ m.sess
      = true ∧ s.mir.rbRole = 2 ∧ s.top.state = .service ∧ s.mir.epoch ≠ 0 ∧ s.mir.pstate ≠ .fenced ∧ s.outranked 6 = false) ∧
    (∃ (s : State) (m : RebuildMsg) (r : Nat), s.canon ∧ (s.link .t).up = true ∧ (s.link .t).granted.mg ≠ 0 ∧ s.top.trigger =
      none ∧ m.sess = false ∧ r = m.cursor.toNat / 512 ∧ s.mir.rb = .copying ∧ s.mir.rbRole = 1 ∧ s.mir.rbRegion = r ∧
      s.rtFailed r = false ∧ s.mappedRegions.filter (fun x => decide (r + 1 ≤ x)) = []) ∧
    (∃ (s : State) (m : RebuildMsg), s.canon ∧ (s.link .t).up = true ∧ (s.link .t).granted.mg ≠ 0 ∧ s.feat .t 19 = true ∧
      m.share.toNat ≤ 100 ∧ s.mir.rbRole = 1) ∧
    (∃ (s : State) (m : RebuildMsg), s.canon ∧ (s.link .t).takes = false) ∧
    (∃ (s : State) (cmd : Byte) (m : RebuildMsg), s.canon ∧ (s.link .t).up = true ∧ (s.link .t).granted.mg ≠ 0 ∧ (1,
      m.cursor.toNat, m.sess) ∈ s.mir.lastCtl ∧ cmd = 1 ∧ m.sess = false) ∧
    (∃ (s : State) (cmd : Byte) (m : RebuildMsg), s.canon ∧ (cmd.toNat, m.cursor.toNat, m.sess) ∉ s.mir.lastCtl) ∧
    (∃ (s : State) (cmd : Byte) (m : RebuildMsg) (c : GranCopy), s.canon ∧ (s.link .t).up = true ∧ (s.link .t).granted.mg ≠ 0 ∧
      s.top.trigger = none ∧ (3, m.cursor.toNat, m.sess) ∈ s.mir.lastCtl ∧ cmd = 3 ∧ s.mir.rbRole = 1 ∧ s.mir.copies = [c] ∧
      c.gran = m.cursor.toNat ∧ c.rejected = false ∧ s.mir.todo = [] ∧ s.mir.regionOpen = true ∧ rtRole (s.rtEntry
      (m.cursor.toNat / 512)) ≠ 0) ∧
    (∃ (s : State) (cmd : Byte) (m : RebuildMsg), s.canon ∧ (s.link .t).up = true ∧ (s.link .t).granted.mg ≠ 0 ∧ s.top.trigger =
      none ∧ (4, m.cursor.toNat, m.sess) ∈ s.mir.lastCtl ∧ cmd = 4 ∧ m.sess = true ∧ s.mir.rbRole = 1 ∧ s.mir.rb = .closing
      ∧ (∀ r ∈ s.mappedRegions, s.hasMarks r = false)) ∧
    (∃ (s : State) (cmd : Byte) (m : RebuildMsg) (r : Nat), s.canon ∧ (s.link .t).up = true ∧ (s.link .t).granted.mg ≠ 0 ∧
      s.top.trigger = none ∧ (4, m.cursor.toNat, m.sess) ∈ s.mir.lastCtl ∧ cmd = 4 ∧ m.sess = false ∧ r = m.cursor.toNat /
      512 ∧ s.mir.rb = .copying ∧ s.mir.rbRole = 1 ∧ s.mir.rbMode = 2 ∧ s.mir.rbRegion = r ∧ s.rtFailed r = false ∧
      s.mappedRegions.filter (fun x => decide (r + 1 ≤ x)) = []) ∧
    (∃ (s : State), s.canon ∧ s.top.trigger = none ∧ s.mir.rb = .starting ∧ s.mir.rbRole = 1 ∧ s.top.state = .service) ∧
    (∃ (s : State), s.canon ∧ s.mir.rb ≠ .starting) ∧
    (∃ (s : State), s.canon ∧ s.top.trigger = none ∧ s.mir.rb = .starting ∧ s.mir.rbRole = 2 ∧ s.top.state = .service ∧
      s.mir.epoch ≠ 0 ∧ s.mir.pstate ≠ .fenced ∧ s.outranked 6 = false) :=
  ⟨⟨({ linked .service with mir := { epoch := 3, pstate := .rebuildDst, rb := .starting, rbRole := 2, rbMode := 1 }, map := { rt := [(5, 0x00040007), (6, 0x00080008)] } }).setReg
    (Reg.LNK_FEAT 4) 0xFFFFFFFF, { mtag := 2, share := 25, epoch := 3, cursor := 0x7FFFFFF, sess := true }, canonOf
    (by decide +kernel), by decide +kernel⟩,
   ⟨State.reset, { mtag := 2, share := 25, epoch := 3, cursor := 0x7FFFFFF, sess := true }, canonOf (by decide +kernel),
    by decide +kernel⟩,
   ⟨({ linked .service with mir := { epoch := 3, pstate := .rebuildDst, rb := .starting, rbRole := 2, rbMode := 2, marks := [(7 * 512, true)] }, map := { rt := [(5, 0x00280007), (6, 0x00080008)] } }).setReg
    (Reg.LNK_FEAT 4) 0xFFFFFFFF, { mtag := 2, share := 25, epoch := 3, cursor := 0x7FFFFFE, sess := true }, 2560, [],
    canonOf (by decide +kernel), by decide +kernel⟩,
   ⟨({ linked .service with mir := { epoch := 3, pstate := .rebuildDst, rb := .starting, rbRole := 2, rbMode := 2 }, map := { rt := [(5, 0x00040007), (6, 0x00080008)] } }).setReg
    (Reg.LNK_FEAT 4) 0xFFFFFFFF, { mtag := 2, share := 25, epoch := 3, cursor := 0x7FFFFFF, sess := true }, canonOf
    (by decide +kernel), by decide +kernel⟩,
   ⟨((linked .service).setLink .t { upLink with granted := {} }).setReg (Reg.LNK_FEAT 4) 0xFFFFFFFF,
    { mtag := 2, share := 25, epoch := 3, cursor := 0x7FFFFFF, sess := true }, canonOf (by decide +kernel),
    by decide +kernel⟩,
   ⟨((linked .service).setLink .t { upLink with granted := {} }).setReg (Reg.LNK_FEAT 4) 0xFFFFFFFF,
    { mtag := 2, share := 25, epoch := 3, cursor := 0x7FFFFFF, sess := true }, canonOf (by decide +kernel),
    by decide +kernel⟩,
   ⟨((linked .service).setLink .t { upLink with granted := {} }).setReg (Reg.LNK_FEAT 4) 0xFFFFFFFF,
    { mtag := 2, share := 25, epoch := 3, cursor := 0x7FFFFFF, sess := true }, canonOf (by decide +kernel),
    by decide +kernel⟩,
   ⟨((linked .service).setLink .t { upLink with granted := {} }).setReg (Reg.LNK_FEAT 4) 0xFFFFFFFF,
    { mtag := 2, share := 25, epoch := 3, cursor := 0x7FFFFFF, sess := true }, canonOf (by decide +kernel),
    by decide +kernel⟩,
   ⟨((linked .service).setLink .t { upLink with granted := {} }).setReg (Reg.LNK_FEAT 4) 0xFFFFFFFF,
    { mtag := 2, share := 25, epoch := 3, cursor := 0x7FFFFFF, sess := true }, canonOf (by decide +kernel),
    by decide +kernel⟩,
   ⟨((linked .service).setLink .t { upLink with granted := {} }).setReg (Reg.LNK_FEAT 4) 0xFFFFFFFF,
    { mtag := 2, share := 25, epoch := 3, cursor := 0x7FFFFFF, sess := true }, canonOf (by decide +kernel),
    by decide +kernel⟩,
   ⟨(({ linked .service with mir := { epoch := 3, pstate := .paired }, map := { rt := [(5, 0x00040007), (6, 0x00080008)] } }).setReg
    (Reg.LNK_FEAT 4) 0xFFFFFFFF).setReg (Reg.LNK_FEAT 4) 0,
    { mtag := 2, share := 25, epoch := 3, cursor := 2565, sess := false }, canonOf (by decide +kernel), by decide +kernel⟩,
   ⟨(({ linked .service with mir := { epoch := 3, pstate := .paired }, map := { rt := [(5, 0x00040007), (6, 0x00080008)] } }).setReg
    (Reg.LNK_FEAT 4) 0xFFFFFFFF).setReg (Reg.LNK_FEAT 4) 0,
    { mtag := 2, share := 25, epoch := 3, cursor := 2565, sess := false }, canonOf (by decide +kernel), by decide +kernel⟩,
   ⟨({ linked .service with mir := { epoch := 3, pstate := .paired }, map := { rt := [(5, 0x00040007), (6, 0x00080008)] } }).setReg
    (Reg.LNK_FEAT 4) 0xFFFFFFFF, { mtag := 2, share := 25, epoch := 3, cursor := 0x7FFFFFF, sess := true }, canonOf
    (by decide +kernel), by decide +kernel⟩,
   ⟨({ linked .service with mir := { epoch := 3, pstate := .rebuildDst, rb := .copying, rbRole := 2, rbMode := 1, rbRegion := 5 }, map := { rt := [(5, 0x00280007), (6, 0x00080008)] } }).setReg
    (Reg.LNK_FEAT 4) 0xFFFFFFFF, { mtag := 2, share := 25, epoch := 3, cursor := 2565, sess := false }, 5, canonOf
    (by decide +kernel), by decide +kernel⟩,
   ⟨State.reset, { mtag := 2, share := 25, epoch := 3, cursor := 2565, sess := false }, canonOf (by decide +kernel),
    by decide +kernel⟩,
   ⟨({ linked .service with mir := { epoch := 3, pstate := .rebuildDst, rb := .copying, rbRole := 2, rbMode := 1, rbRegion := 4 }, map := { rt := [(5, 0x00280007), (6, 0x00080008)] } }).setReg
    (Reg.LNK_FEAT 4) 0xFFFFFFFF, { mtag := 2, share := 25, epoch := 3, cursor := 2565, sess := false }, 5, canonOf
    (by decide +kernel), by decide +kernel⟩,
   ⟨({ linked .service with mir := { epoch := 3, pstate := .rebuildDst, rb := .copying, rbRole := 2, rbMode := 1 }, map := { rt := [(5, 0x00580007), (6, 0x00080008)] } }).setReg
    (Reg.LNK_FEAT 4) 0xFFFFFFFF, { mtag := 2, share := 25, epoch := 3, cursor := 2565, sess := false }, 5, canonOf
    (by decide +kernel), by decide +kernel⟩,
   ⟨({ linked .service with mir := { epoch := 3, pstate := .rebuildSrc, rb := .reporting, rbRole := 1, rbMode := 2 }, map := { rt := [(5, 0x00040007), (6, 0x00080008)] } }).setReg
    (Reg.LNK_FEAT 4) 0xFFFFFFFF, { mtag := 2, share := 25, epoch := 3, cursor := 2565, sess := false }, canonOf
    (by decide +kernel), by decide +kernel⟩,
   ⟨State.reset, { mtag := 2, share := 25, epoch := 3, cursor := 2565, sess := false }, canonOf (by decide +kernel),
    by decide +kernel⟩,
   ⟨({ linked .service with mir := { epoch := 3, pstate := .rebuildDst, rb := .copying, rbRole := 2, rbMode := 2, filters := [{ gran := 2565 }] }, map := { rt := [(5, 0x00380007), (6, 0x00080008)] } }).setReg
    (Reg.LNK_FEAT 4) 0xFFFFFFFF, { mtag := 2, share := 25, epoch := 3, cursor := 2565, sess := false }, { gran := 2565 },
    canonOf (by decide +kernel), by decide +kernel⟩,
   ⟨({ linked .service with mir := { epoch := 3, pstate := .rebuildDst, rb := .copying, rbRole := 2, rbMode := 2 }, map := { rt := [(5, 0x00380007), (6, 0x00080008)] } }).setReg
    (Reg.LNK_FEAT 4) 0xFFFFFFFF, { mtag := 2, share := 25, epoch := 3, cursor := 2560, sess := false }, 5, canonOf
    (by decide +kernel), by decide +kernel⟩,
   ⟨State.reset, { mtag := 2, share := 25, epoch := 3, cursor := 2560, sess := false }, canonOf (by decide +kernel),
    by decide +kernel⟩,
   ⟨({ linked .service with mir := { epoch := 3, pstate := .rebuildDst, rb := .copying, rbRole := 2, rbMode := 2 }, map := { rt := [(5, 0x00080007), (6, 0x00080008)] } }).setReg
    (Reg.LNK_FEAT 4) 0xFFFFFFFF, { mtag := 2, share := 25, epoch := 3, cursor := 0x7FFFFFF, sess := true }, canonOf
    (by decide +kernel), by decide +kernel⟩,
   ⟨({ linked .service with mir := { epoch := 3, pstate := .paired }, map := { rt := [(5, 0x00040007), (6, 0x00080008)] } }).setReg
    (Reg.LNK_FEAT 4) 0xFFFFFFFF, { mtag := 2, share := 25, epoch := 3, cursor := 0x7FFFFFE, sess := true }, canonOf
    (by decide +kernel), by decide +kernel⟩,
   ⟨({ linked .service with mir := { epoch := 3, pstate := .rebuildSrc, rb := .reporting, rbRole := 1, rbMode := 2 } }),
    { mtag := 2, share := 25, epoch := 3, cursor := 0x7FFFFFE, sess := true }, canonOf (by decide +kernel),
    by decide +kernel⟩,
   ⟨({ linked .service with mir := { epoch := 3, pstate := .paired }, map := { rt := [(5, 0x00040007), (6, 0x00080008)] } }).setReg
    (Reg.LNK_FEAT 4) 0xFFFFFFFF, { mtag := 2, share := 25, epoch := 3, cursor := 2560, sess := false }, canonOf
    (by decide +kernel), by decide +kernel⟩,
   ⟨State.reset, { mtag := 2, share := 25, epoch := 3, cursor := 2560, sess := false }, canonOf (by decide +kernel),
    by decide +kernel⟩,
   ⟨({ linked .service with mir := { epoch := 3, pstate := .rebuildSrc, rb := .copying, rbRole := 1, rbMode := 2, rbRegion := 5 }, map := { rt := [(5, 0x00040007), (6, 0x00080008)] } }).setReg
    (Reg.LNK_FEAT 4) 0xFFFFFFFF, { mtag := 2, share := 25, epoch := 3, cursor := 0x7FFFFFF, sess := true }, canonOf
    (by decide +kernel), by decide +kernel⟩,
   ⟨({ linked .service with mir := { epoch := 3, pstate := .rebuildDst, rb := .copying, rbRole := 2, rbMode := 2 }, map := { rt := [(5, 0x00040007), (6, 0x00080008)] } }).setReg
    (Reg.LNK_FEAT 4) 0xFFFFFFFF, { mtag := 2, share := 25, epoch := 3, cursor := 0x7FFFFFF, sess := true }, canonOf
    (by decide +kernel), by decide +kernel⟩,
   ⟨({ linked .service with mir := { epoch := 3, pstate := .rebuildSrc, rb := .copying, rbRole := 1, rbMode := 2, rbRegion := 6 }, map := { rt := [(5, 0x00040007), (6, 0x00080008)] } }).setReg
    (Reg.LNK_FEAT 4) 0xFFFFFFFF, { mtag := 2, share := 25, epoch := 3, cursor := 3072, sess := false }, 6, canonOf
    (by decide +kernel), by decide +kernel⟩,
   ⟨({ linked .service with mir := { epoch := 3, pstate := .rebuildSrc, rb := .copying, rbRole := 1, rbMode := 2, rbRegion := 5 }, map := { rt := [(5, 0x00040007), (6, 0x00080008)] } }).setReg
    (Reg.LNK_FEAT 4) 0xFFFFFFFF, { mtag := 2, share := 25, epoch := 3, cursor := 0x7FFFFFF, sess := true }, canonOf
    (by decide +kernel), by decide +kernel⟩,
   ⟨State.reset, { mtag := 2, share := 25, epoch := 3, cursor := 0x7FFFFFF, sess := true }, canonOf (by decide +kernel),
    by decide +kernel⟩,
   ⟨({ linked .service with mir := { epoch := 3, pstate := .rebuildSrc, rb := .copying, rbRole := 1, rbMode := 2, rbRegion := 5, copies := [{ gran := 2565 }], lastCtl := [(1, 2565, false)] }, map := { rt := [(5, 0x00040007), (6, 0x00080008)] } }).setReg
    (Reg.LNK_FEAT 4) 0xFFFFFFFF, 1, { mtag := 2, share := 25, epoch := 3, cursor := 2565, sess := false }, canonOf
    (by decide +kernel), by decide +kernel⟩,
   ⟨State.reset, 1, { mtag := 2, share := 25, epoch := 3, cursor := 2565, sess := false }, canonOf (by decide +kernel),
    by decide +kernel⟩,
   ⟨({ linked .service with mir := { epoch := 3, pstate := .rebuildSrc, rb := .copying, rbRole := 1, rbMode := 2, rbRegion := 5, regionOpen := true, copies := [{ gran := 2565 }], lastCtl := [(3, 2565, false)] }, map := { rt := [(5, 0x00040007), (6, 0x00080008)] } }).setReg
    (Reg.LNK_FEAT 4) 0xFFFFFFFF, 3, { mtag := 2, share := 25, epoch := 3, cursor := 2565, sess := false }, { gran := 2565 },
    canonOf (by decide +kernel), by decide +kernel⟩,
   ⟨({ linked .service with mir := { epoch := 3, pstate := .rebuildSrc, rb := .closing, rbRole := 1, rbMode := 2, rbRegion := 6, lastCtl := [(4, 0x7FFFFFF, true)] }, map := { rt := [(5, 0x00040007), (6, 0x00080008)] } }).setReg
    (Reg.LNK_FEAT 4) 0xFFFFFFFF, 4, { mtag := 2, share := 25, epoch := 3, cursor := 0x7FFFFFF, sess := true }, canonOf
    (by decide +kernel), by decide +kernel⟩,
   ⟨({ linked .service with mir := { epoch := 3, pstate := .rebuildSrc, rb := .copying, rbRole := 1, rbMode := 2, rbRegion := 6, lastCtl := [(4, 3072, false)] }, map := { rt := [(5, 0x00040007), (6, 0x00340008)] } }).setReg
    (Reg.LNK_FEAT 4) 0xFFFFFFFF, 4, { mtag := 2, share := 25, epoch := 3, cursor := 3072, sess := false }, 6, canonOf
    (by decide +kernel), by decide +kernel⟩,
   ⟨({ linked .service with mir := { epoch := 3, pstate := .rebuildSrc, rb := .starting, rbRole := 1, rbMode := 2 }, map := { rt := [(5, 0x00040007), (6, 0x00080008)] } }).setReg
    (Reg.LNK_FEAT 4) 0xFFFFFFFF, canonOf (by decide +kernel), by decide +kernel⟩,
   ⟨State.reset, canonOf (by decide +kernel), by decide +kernel⟩,
   ⟨({ linked .service with mir := { epoch := 3, pstate := .rebuildDst, rb := .starting, rbRole := 2, rbMode := 2 }, map := { rt := [(5, 0x00040007), (6, 0x00080008)] } }).setReg
    (Reg.LNK_FEAT 4) 0xFFFFFFFF, canonOf (by decide +kernel), by decide +kernel⟩⟩

/-- What each clause of `Obligations.DirectivesRun` asks for can be met. -/
theorem test_witness_directives_run :
    (∃ (s : State) (h : DirHead) (arg : BitVec 64), s.canon ∧ s.commits h 1 arg = true) ∧
    (∃ (s : State) (h : DirHead) (arg : BitVec 64), s.canon ∧ s.commits h 2 arg = true) ∧
    (∃ (s : State) (h : DirHead) (arg : BitVec 64), s.canon ∧ s.commits h 3 arg = true) ∧
    (∃ (s : State) (h : DirHead) (arg : BitVec 64), s.canon ∧ s.commits h 4 arg = true) ∧
    (∃ (s : State) (h : DirHead) (arg : BitVec 64), s.canon ∧ s.commits h 5 arg = true ∧ s.mir.pstate = .solo) ∧
    (∃ (s : State) (h : DirHead) (arg : BitVec 64), s.canon ∧ s.commits h 5 arg = true ∧ s.mir.pstate = .fenced ∧ s.mir.startHeld
      = none) ∧
    (∃ (s : State) (h : DirHead) (arg : BitVec 64), s.canon ∧ s.commits h 6 arg = true ∧ s.mir.pstate = .rebuildSrc) ∧
    (∃ (s : State) (h : DirHead) (arg : BitVec 64), s.canon ∧ s.commits h 6 arg = true ∧ s.mir.pstate = .rebuildDst ∧ s.top.state
      = .service ∧ s.mir.epoch ≠ 0 ∧ s.outranked 6 = false) ∧
    (∃ (s : State) (h : DirHead) (arg : BitVec 64), s.canon ∧ s.commits h 7 arg = true) ∧
    (∃ (s : State) (h : DirHead) (arg : BitVec 64), s.canon ∧ s.commits h 9 arg = true) ∧
    (∃ (s : State) (h : DirHead) (arg : BitVec 64), s.canon ∧ s.commits h 10 arg = true ∧ arg.toNat / 256 % 2 = 0 ∧ s.flt.sp ≠ 1) ∧
    (∃ (s : State) (h : DirHead) (arg : BitVec 64), s.canon ∧ s.commits h 10 arg = true ∧ arg.toNat / 256 % 2 = 1) ∧
    (∃ (s : State) (h : DirHead) (arg : BitVec 64), s.canon ∧ s.commits h 11 arg = true) ∧
    (∃ (s : State) (h : DirHead) (dcode : Byte) (arg : BitVec 64), s.canon ∧ s.pathOpen (.mgt h.port h.mtag) = true ∧ (dcode = 0
      ∨ 11 < dcode.toNat)) ∧
    (∃ (s : State) (dcode : Byte) (epoch : Word) (arg : BitVec 64), s.canon ∧ s.sbAnswers = true ∧ s.mgtDirective 7 = false ∧
      s.sb.arb = [] ∧ dcode = 7 ∧ arg.toNat &&& 0x3FF = arg.toNat ∧ s.triggered = false ∧ (s.fld
      Fld.GLB_DIRSTAT.BUSY).testBit 7 = false ∧ (s.top.state = .join ∨ s.top.state = .service) ∧ arg.toNat ≤ 720) ∧
    (∃ (s : State) (dcode : Byte) (epoch : Word) (arg : BitVec 64), s.canon ∧ s.sbAnswers = false) :=
  ⟨⟨({ (linked .service).setLink .u1 { upLink with peerNeg := some { profile := 1, linkRevs := 0, mirRevs := 0, features := 0, domain := 0, node := 0, port := 1 } } with mir := { epoch := 3, pstate := .paired }, map := { rt := [(5, 0x00080007), (6, 0x00080008)] } }
    |> fun s : State => ((s.setReg (Reg.LNK_FEAT 4) 0xFFFFFFFF).setFld Fld.CLK_STAT.MPLL_LOCK 1).setFld
    Fld.CLK_STAT.CPLL_LOCK 1), { port := .u1, mtag := 2, epoch := 3 }, 2, canonOf (by decide +kernel), by decide +kernel⟩,
   ⟨({ (linked .service).setLink .u1 { upLink with peerNeg := some { profile := 1, linkRevs := 0, mirRevs := 0, features := 0, domain := 0, node := 0, port := 1 } } with mir := { epoch := 3, pstate := .paired }, map := { rt := [(5, 0x00080007), (6, 0x00080008)] } }
    |> fun s : State => ((s.setReg (Reg.LNK_FEAT 4) 0xFFFFFFFF).setFld Fld.CLK_STAT.MPLL_LOCK 1).setFld
    Fld.CLK_STAT.CPLL_LOCK 1), { port := .u1, mtag := 2, epoch := 3 }, 3, canonOf (by decide +kernel), by decide +kernel⟩,
   ⟨({ (linked .service).setLink .u1 { upLink with peerNeg := some { profile := 1, linkRevs := 0, mirRevs := 0, features := 0, domain := 0, node := 0, port := 1 } } with mir := { epoch := 3, pstate := .paired }, map := { rt := [(5, 0x00080007), (6, 0x00080008)] } }
    |> fun s : State => ((s.setReg (Reg.LNK_FEAT 4) 0xFFFFFFFF).setFld Fld.CLK_STAT.MPLL_LOCK 1).setFld
    Fld.CLK_STAT.CPLL_LOCK 1), { port := .u1, mtag := 2, epoch := 3 }, 5, canonOf (by decide +kernel), by decide +kernel⟩,
   ⟨(({ (linked .service).setLink .u1 { upLink with peerNeg := some { profile := 1, linkRevs := 0, mirRevs := 0, features := 0, domain := 0, node := 0, port := 1 } } with mir := { epoch := 3, pstate := .paired }, map := { rt := [(5, 0x00080007), (6, 0x00080008)] } }
    |> fun s : State => ((s.setReg (Reg.LNK_FEAT 4) 0xFFFFFFFF).setFld Fld.CLK_STAT.MPLL_LOCK 1).setFld
    Fld.CLK_STAT.CPLL_LOCK 1)).setFld Fld.MIR_CAUSE.FIRST 1, { port := .u1, mtag := 2, epoch := 3 }, 7, canonOf
    (by decide +kernel), by decide +kernel⟩,
   ⟨({ (linked .service).setLink .u1 { upLink with peerNeg := some { profile := 1, linkRevs := 0, mirRevs := 0, features := 0, domain := 0, node := 0, port := 1 } } with mir := { epoch := 3, pstate := .solo }, map := { rt := [(5, 0x00080007), (6, 0x00080008)] } }
    |> fun s : State => ((s.setReg (Reg.LNK_FEAT 4) 0xFFFFFFFF).setFld Fld.CLK_STAT.MPLL_LOCK 1).setFld
    Fld.CLK_STAT.CPLL_LOCK 1), { port := .u1, mtag := 2, epoch := 3 }, BitVec.ofNat 64 (2 ^ 32 + 2 ^ 34 * 20 + 7), canonOf
    (by decide +kernel), by decide +kernel⟩,
   ⟨({ (linked .join).setLink .u1 { upLink with peerNeg := some { profile := 1, linkRevs := 0, mirRevs := 0, features := 0, domain := 0, node := 0, port := 1 } } with mir := { epoch := 3, pstate := .fenced }, map := { rt := [(5, 0x00080007), (6, 0x00080008)] } }
    |> fun s : State => ((s.setReg (Reg.LNK_FEAT 4) 0xFFFFFFFF).setFld Fld.CLK_STAT.MPLL_LOCK 1).setFld
    Fld.CLK_STAT.CPLL_LOCK 1), { port := .u1, mtag := 2, epoch := 3 }, (2 ^ 32 * 1 + 2 ^ 34 * 20 + 7 : Nat), canonOf
    (by decide +kernel), by decide +kernel⟩,
   ⟨({ (linked .service).setLink .u1 { upLink with peerNeg := some { profile := 1, linkRevs := 0, mirRevs := 0, features := 0, domain := 0, node := 0, port := 1 } } with mir := { epoch := 3, pstate := .rebuildSrc, rb := .copying, rbRole := 1 }, map := { rt := [(5, 0x00080007), (6, 0x00080008)] } }
    |> fun s : State => ((s.setReg (Reg.LNK_FEAT 4) 0xFFFFFFFF).setFld Fld.CLK_STAT.MPLL_LOCK 1).setFld
    Fld.CLK_STAT.CPLL_LOCK 1), { port := .u1, mtag := 2, epoch := 3 }, 0, canonOf (by decide +kernel), by decide +kernel⟩,
   ⟨({ (linked .service).setLink .u1 { upLink with peerNeg := some { profile := 1, linkRevs := 0, mirRevs := 0, features := 0, domain := 0, node := 0, port := 1 } } with mir := { epoch := 3, pstate := .rebuildDst, rb := .copying, rbRole := 2 }, map := { rt := [(5, 0x00080007), (6, 0x00080008)] } }
    |> fun s : State => ((s.setReg (Reg.LNK_FEAT 4) 0xFFFFFFFF).setFld Fld.CLK_STAT.MPLL_LOCK 1).setFld
    Fld.CLK_STAT.CPLL_LOCK 1), { port := .u1, mtag := 2, epoch := 3 }, 0, canonOf (by decide +kernel), by decide +kernel⟩,
   ⟨({ (linked .service).setLink .u1 { upLink with peerNeg := some { profile := 1, linkRevs := 0, mirRevs := 0, features := 0, domain := 0, node := 0, port := 1 } } with mir := { epoch := 3, pstate := .paired }, map := { rt := [(5, 0x00080007), (6, 0x00080008)] } }
    |> fun s : State => ((s.setReg (Reg.LNK_FEAT 4) 0xFFFFFFFF).setFld Fld.CLK_STAT.MPLL_LOCK 1).setFld
    Fld.CLK_STAT.CPLL_LOCK 1), { port := .u1, mtag := 2, epoch := 3 }, 100, canonOf (by decide +kernel), by decide +kernel⟩,
   ⟨({ (linked .service).setLink .u1 { upLink with peerNeg := some { profile := 1, linkRevs := 0, mirRevs := 0, features := 0, domain := 0, node := 0, port := 1 } } with mir := { epoch := 3, pstate := .paired }, map := { rt := [(5, 0x00080007), (6, 0x00080008)] } }
    |> fun s : State => ((s.setReg (Reg.LNK_FEAT 4) 0xFFFFFFFF).setFld Fld.CLK_STAT.MPLL_LOCK 1).setFld
    Fld.CLK_STAT.CPLL_LOCK 1), { port := .u1, mtag := 2, epoch := 3 }, 0x123456789ABCDEF0, canonOf (by decide +kernel),
    by decide +kernel⟩,
   ⟨({ (linked .service).setLink .u1 { upLink with peerNeg := some { profile := 1, linkRevs := 0, mirRevs := 0, features := 0, domain := 0, node := 0, port := 1 } } with mir := { epoch := 3, pstate := .paired }, map := { rt := [(5, 0x00080007), (6, 0x00080008)] }, flt := { ranks := [(0, { trained := true }), (1, { trained := true })] } }
    |> fun s : State => ((s.setReg (Reg.LNK_FEAT 4) 0xFFFFFFFF).setFld Fld.CLK_STAT.MPLL_LOCK 1).setFld
    Fld.CLK_STAT.CPLL_LOCK 1), { port := .u1, mtag := 2, epoch := 3 }, 0x10, canonOf (by decide +kernel), by decide +kernel⟩,
   ⟨(({ (linked .service).setLink .u1 { upLink with peerNeg := some { profile := 1, linkRevs := 0, mirRevs := 0, features := 0, domain := 0, node := 0, port := 1 } } with mir := { epoch := 3, pstate := .paired }, map := { rt := [(5, 0x00080007), (6, 0x00080008)] }, flt := { ranks := (List.range 32).map (fun p => (p, { trained := true })) } }
    |> fun s : State => ((s.setReg (Reg.LNK_FEAT 4) 0xFFFFFFFF).setFld Fld.CLK_STAT.MPLL_LOCK 1).setFld
    Fld.CLK_STAT.CPLL_LOCK 1) |> fun s : State => s.setFld Fld.ECC_SPARECFG.SPARE_EN 1),
    { port := .u1, mtag := 2, epoch := 3 }, 0x100, canonOf (by decide +kernel), by decide +kernel⟩,
   ⟨({ (linked .join).setLink .u1 { upLink with peerNeg := some { profile := 1, linkRevs := 0, mirRevs := 0, features := 0, domain := 0, node := 0, port := 1 } } with mir := { epoch := 3, pstate := .fenced }, map := { rt := [(5, 0x00080007), (6, 0x00080008)] }, flt := { ranks := [(0, { trained := true }), (1, { retired := true })] } }
    |> fun s : State => ((s.setReg (Reg.LNK_FEAT 4) 0xFFFFFFFF).setFld Fld.CLK_STAT.MPLL_LOCK 1).setFld
    Fld.CLK_STAT.CPLL_LOCK 1), { port := .u1, mtag := 2, epoch := 3 }, 0x10, canonOf (by decide +kernel), by decide +kernel⟩,
   ⟨({ (linked .service).setLink .u1 { upLink with peerNeg := some { profile := 1, linkRevs := 0, mirRevs := 0, features := 0, domain := 0, node := 0, port := 1 } } with mir := { epoch := 3, pstate := .paired }, map := { rt := [(5, 0x00080007), (6, 0x00080008)] } }
    |> fun s : State => ((s.setReg (Reg.LNK_FEAT 4) 0xFFFFFFFF).setFld Fld.CLK_STAT.MPLL_LOCK 1).setFld
    Fld.CLK_STAT.CPLL_LOCK 1), { port := .u1, mtag := 2, epoch := 3 }, 0x2C, 9, canonOf (by decide +kernel),
    by decide +kernel⟩,
   ⟨({ (linked .service).setLink .u1 { upLink with peerNeg := some { profile := 1, linkRevs := 0, mirRevs := 0, features := 0, domain := 0, node := 0, port := 1 } } with mir := { epoch := 3, pstate := .paired }, map := { rt := [(5, 0x00080007), (6, 0x00080008)] } }
    |> fun s : State => ((s.setReg (Reg.LNK_FEAT 4) 0xFFFFFFFF).setFld Fld.CLK_STAT.MPLL_LOCK 1).setFld
    Fld.CLK_STAT.CPLL_LOCK 1), 7, 0, 100, canonOf (by decide +kernel), by decide +kernel⟩,
   ⟨aonDown, 7, 0, 100, canonOf (by decide +kernel), by decide +kernel⟩⟩

/-- What each clause of `Obligations.LullsRun` asks for can be met. -/
theorem test_witness_lulls_run :
    (∃ (s : State), s.canon ∧ s.clk.planned = true ∧ s.clk.emerg = 0 ∧ s.clk.entered = false ∧ s.popSubs.any (fun n => (s.sub
      n).alert == 1 || (s.sub n).alert == 2) = false ∧ s.setOf s.clk.target false ≠ s.clk.mpllLive) ∧
    (∃ (s : State), s.canon ∧ (s.lulling = false ∨ s.clk.entered = true ∨ s.popSubs.any (fun n => (s.sub n).alert == 1 || (s.sub
      n).alert == 2) = true)) ∧
    (∃ (s : State), s.canon ∧ s.clk.planned = true ∧ s.clk.emerg = 0 ∧ s.clk.entered = false ∧ s.popSubs.any (fun n => (s.sub
      n).alert == 1 || (s.sub n).alert == 2) = false ∧ s.setOf s.clk.target false = s.clk.mpllLive) ∧
    (∃ (s : State), s.canon ∧ s.clk.emerg ≠ 0 ∧ s.clk.entered = false ∧ s.popSubs.any (fun n => (s.sub n).alert == 1 || (s.sub
      n).alert == 2) = false) ∧
    (∃ (s : State) (band : BitVec 6) (searched : Bool), s.canon ∧ s.lulling = true ∧ s.clk.entered = true ∧ s.flag
      Fld.CLK_STAT.MPLL_LOCK = false ∧ (s.fld Fld.CLK_STAT.LULL = 2 ∨ s.fld Fld.CLK_STAT.LULL = 5) ∧ s.popSubs.any (fun n =>
      !s.dllLocked n && !s.dllStuck n) = true ∧ (searched = true ∨ ((band.toNat : Int) - s.fld (Fld.CLK_TSET.BAND
      s.liveSet)).natAbs ≤ 2)) ∧
    (∃ (s : State) (band : BitVec 6) (searched : Bool), s.canon ∧ (s.lulling = false ∨ s.clk.entered = false ∨ s.flag
      Fld.CLK_STAT.MPLL_LOCK = true)) ∧
    (∃ (s : State), s.canon ∧ s.clk.exitSeen = false ∧ s.lulling = true ∧ (s.clk.ready = false ∨ s.clk.srDone = false ∨
      s.clk.entered = false)) ∧
    (∃ (s : State), s.canon ∧ s.clk.exitSeen = true) ∧
    (∃ (s : State), s.canon ∧ s.clk.exitSeen = false ∧ s.clk.planned = true ∧ s.clk.emerg = 0 ∧ s.clk.entered = true ∧
      s.clk.srDone = true ∧ s.clk.ready = true ∧ s.stuckSubs = []) ∧
    (∃ (s : State), s.canon ∧ s.clk.exitSeen = false ∧ s.lulling = false) ∧
    (∃ (s : State), s.canon ∧ s.lulling = true ∧ s.clk.entered = true ∧ (s.clk.exitAsked = false ∨ s.clk.ready = false)) ∧
    (∃ (s : State), s.canon ∧ (s.lulling = false ∨ s.clk.entered = false)) ∧
    (∃ (s : State), s.canon ∧ s.clk.planned = true ∧ s.clk.emerg = 0 ∧ s.clk.entered = true ∧ s.clk.exitAsked = true ∧
      s.clk.ready = true ∧ s.stuckSubs = []) :=
  ⟨⟨({ coreIn .service with clk := { planned := true, target := 2 }, flt := { ranks := [(0, { trained := true }), (1, { trained := true })] } }
    |> fun s : State => ((s.setFld Fld.CLK_STAT.MPLL_LOCK 1).setFld Fld.CLK_STAT.CPLL_LOCK 1).setFld Fld.CLK_STAT.REF_OK 1),
    canonOf (by decide +kernel), by decide +kernel⟩,
   ⟨State.reset, canonOf (by decide +kernel), by decide +kernel⟩,
   ⟨({ coreIn .service with clk := { planned := true, target := 2 }, flt := { ranks := [(0, { trained := true }), (1, { trained := true })] } }
    |> fun s : State => ((s.setFld Fld.CLK_STAT.MPLL_LOCK 1).setFld Fld.CLK_STAT.CPLL_LOCK 1).setFld Fld.CLK_STAT.REF_OK 1)
    |> fun s : State => { s with clk := { s.clk with mpllLive := s.setOf 2 false } }, canonOf (by decide +kernel),
    by decide +kernel⟩,
   ⟨({ coreIn .service with clk := { emerg := 1, estep := 2 }, flt := { ranks := [(0, { trained := true }), (1, { trained := true })] } }
    |> fun s : State => ((s.setFld Fld.CLK_STAT.MPLL_LOCK 1).setFld Fld.CLK_STAT.CPLL_LOCK 1).setFld Fld.CLK_STAT.REF_OK 1),
    canonOf (by decide +kernel), by decide +kernel⟩,
   ⟨(({ coreIn .service with clk := { planned := true, target := 2, entered := true }, flt := { ranks := [(0, { trained := true }), (1, { trained := true })] } }
    |> fun s : State => ((s.setFld Fld.CLK_STAT.MPLL_LOCK 1).setFld Fld.CLK_STAT.CPLL_LOCK 1).setFld Fld.CLK_STAT.REF_OK 1)
    |> fun s : State => (s.setFld Fld.CLK_STAT.LULL 2).setFld Fld.CLK_STAT.MPLL_LOCK 0), 9, 0 % 3 != 2, canonOf
    (by decide +kernel), by decide +kernel⟩,
   ⟨State.reset, 9, 0 % 3 != 2, canonOf (by decide +kernel), by decide +kernel⟩,
   ⟨({ coreIn .service with clk := { planned := true, target := 2 }, flt := { ranks := [(0, { trained := true }), (1, { trained := true })] } }
    |> fun s : State => ((s.setFld Fld.CLK_STAT.MPLL_LOCK 1).setFld Fld.CLK_STAT.CPLL_LOCK 1).setFld Fld.CLK_STAT.REF_OK 1),
    canonOf (by decide +kernel), by decide +kernel⟩,
   ⟨{ coreIn .service with clk := { exitSeen := true } }, canonOf (by decide +kernel), by decide +kernel⟩,
   ⟨({ coreIn .service with clk := { planned := true, target := 2, entered := true, srDone := true, ready := true }, flt := { ranks := [(0, { trained := true }), (1, { trained := true })] } }
    |> fun s : State => ((s.setFld Fld.CLK_STAT.MPLL_LOCK 1).setFld Fld.CLK_STAT.CPLL_LOCK 1).setFld Fld.CLK_STAT.REF_OK 1),
    canonOf (by decide +kernel), by decide +kernel⟩,
   ⟨({ coreIn .service with clk := {  }, flt := { ranks := [(0, { trained := true }), (1, { trained := true })] } } |> fun s :
    State => ((s.setFld Fld.CLK_STAT.MPLL_LOCK 1).setFld Fld.CLK_STAT.CPLL_LOCK 1).setFld Fld.CLK_STAT.REF_OK 1), canonOf
    (by decide +kernel), by decide +kernel⟩,
   ⟨({ coreIn .service with clk := { planned := true, target := 2, entered := true }, flt := { ranks := [(0, { trained := true }), (1, { trained := true })] } }
    |> fun s : State => ((s.setFld Fld.CLK_STAT.MPLL_LOCK 1).setFld Fld.CLK_STAT.CPLL_LOCK 1).setFld Fld.CLK_STAT.REF_OK 1),
    canonOf (by decide +kernel), by decide +kernel⟩,
   ⟨State.reset, canonOf (by decide +kernel), by decide +kernel⟩,
   ⟨({ coreIn .service with clk := { planned := true, target := 2, entered := true, exitAsked := true, ready := true }, flt := { ranks := [(0, { trained := true }), (1, { trained := true })] } }
    |> fun s : State => ((s.setFld Fld.CLK_STAT.MPLL_LOCK 1).setFld Fld.CLK_STAT.CPLL_LOCK 1).setFld Fld.CLK_STAT.REF_OK 1),
    canonOf (by decide +kernel), by decide +kernel⟩⟩

/-- What each clause of `Obligations.DelayLinesRun` asks for can be met. -/
theorem test_witness_delay_lines_run :
    (∃ (s : State) (sc : Fin 16) (code : BitVec 7) (err : Byte), s.canon ∧ s.top.coreOn = true ∧ sc.val ∈ s.popSubs ∧ s.flag
      Fld.CLK_STAT.MPLL_LOCK = true ∧ s.errWithin 1 err = false) ∧
    (∃ (s : State) (sc : Fin 16) (code : BitVec 7) (err : Byte), s.canon ∧ s.top.coreOn = true ∧ sc.val ∈ s.popSubs ∧ s.flag
      Fld.CLK_STAT.MPLL_LOCK = true ∧ s.lulling = false ∧ s.errWithin 1 err = true) ∧
    (∃ (s : State) (sc : Fin 16) (code : BitVec 7) (err : Byte), s.canon ∧ (s.top.coreOn = false ∨ sc.val ∉ s.popSubs ∨ s.flag
      Fld.CLK_STAT.MPLL_LOCK = false)) ∧
    (∃ (s : State) (sc : Fin 16) (code : BitVec 7) (err : Byte), s.canon ∧ sc.val ∈ s.popSubs ∧ s.dllLocked sc.val = true ∧
      s.lulling = false ∧ s.errWithin 2 err = false ∧ (s.top.state = .join ∨ s.top.state = .service ∨ s.top.state = .gust ∨
      s.top.state = .restore)) ∧
    (∃ (s : State) (sc : Fin 16) (code : BitVec 7) (err : Byte), s.canon ∧ (sc.val ∉ s.popSubs ∨ s.dllLocked sc.val = false)) ∧
    (∃ (s : State) (sc : Fin 16) (code : BitVec 7) (err : Byte), s.canon ∧ sc.val ∈ s.popSubs ∧ s.dllLocked sc.val = true ∧
      s.errWithin 2 err = true) ∧
    (∃ (s : State) (sc : Fin 16) (code : BitVec 7) (err : Byte), s.canon ∧ sc.val ∈ s.popSubs ∧ s.dllLocked sc.val = true ∧
      s.lulling = true ∧ s.errWithin 2 err = false) ∧
    (∃ (s : State) (sc : Fin 16), s.canon ∧ sc.val ∈ s.popSubs ∧ s.dllLocked sc.val = false ∧ s.dllStuck sc.val = false ∧ sc.val
      ∈ s.clk.losing ∧ s.lulling = false) ∧
    (∃ (s : State) (sc : Fin 16), s.canon ∧ (sc.val ∉ s.popSubs ∨ s.dllLocked sc.val = true ∨ s.dllStuck sc.val = true)) ∧
    (∃ (s : State) (sc : Fin 16), s.canon ∧ sc.val ∈ s.popSubs ∧ s.dllLocked sc.val = false ∧ s.lulling = true) ∧
    (∃ (s : State) (sc : Fin 16), s.canon ∧ (sc.val ∉ s.popSubs ∨ s.dllLocked sc.val = true ∨ s.lulling = false)) :=
  ⟨⟨({ coreIn .service with clk := { losing := [0] }, flt := { ranks := [(0, { trained := true }), (1, { trained := true })] } }
    |> fun s : State => ((s.setFld Fld.CLK_STAT.MPLL_LOCK 1).setFld Fld.CLK_STAT.CPLL_LOCK 1).setFld Fld.CLK_STAT.REF_OK 1),
    0, 77, 0x40, canonOf (by decide +kernel), by decide +kernel⟩,
   ⟨(({ coreIn .service with clk := { losing := [0] }, flt := { ranks := [(0, { trained := true }), (1, { trained := true })] } }
    |> fun s : State => ((s.setFld Fld.CLK_STAT.MPLL_LOCK 1).setFld Fld.CLK_STAT.CPLL_LOCK 1).setFld Fld.CLK_STAT.REF_OK
    1)).setFld Fld.CLK_LOCKCFG.LOCK_WIN 4, 0, 77, 3, canonOf (by decide +kernel), by decide +kernel⟩,
   ⟨State.reset, 0, 77, 3, canonOf (by decide +kernel), by decide +kernel⟩,
   ⟨(({ coreIn .service with clk := {  }, flt := { ranks := [(0, { trained := true }), (1, { trained := true })] } } |> fun s :
    State => ((s.setFld Fld.CLK_STAT.MPLL_LOCK 1).setFld Fld.CLK_STAT.CPLL_LOCK 1).setFld Fld.CLK_STAT.REF_OK 1)).setFld
    (Fld.CLK_DLL.LOCKED 0) 1, 0, 77, 0x50, canonOf (by decide +kernel), by decide +kernel⟩,
   ⟨State.reset, 0, 77, 0x50, canonOf (by decide +kernel), by decide +kernel⟩,
   ⟨((({ coreIn .service with clk := {  }, flt := { ranks := [(0, { trained := true }), (1, { trained := true })] } } |> fun s
    : State => ((s.setFld Fld.CLK_STAT.MPLL_LOCK 1).setFld Fld.CLK_STAT.CPLL_LOCK 1).setFld Fld.CLK_STAT.REF_OK 1)).setFld
    (Fld.CLK_DLL.LOCKED 0) 1).setFld Fld.CLK_LOCKCFG.LOCK_WIN 4, 0, 77, 7, canonOf (by decide +kernel), by decide +kernel⟩,
   ⟨(({ coreIn .service with clk := { planned := true }, flt := { ranks := [(0, { trained := true }), (1, { trained := true })] } }
    |> fun s : State => ((s.setFld Fld.CLK_STAT.MPLL_LOCK 1).setFld Fld.CLK_STAT.CPLL_LOCK 1).setFld Fld.CLK_STAT.REF_OK
    1)).setFld (Fld.CLK_DLL.LOCKED 0) 1, 0, 77, 0x50, canonOf (by decide +kernel), by decide +kernel⟩,
   ⟨({ coreIn .service with clk := { losing := [0] }, flt := { ranks := [(0, { trained := true }), (1, { trained := true })] } }
    |> fun s : State => ((s.setFld Fld.CLK_STAT.MPLL_LOCK 1).setFld Fld.CLK_STAT.CPLL_LOCK 1).setFld Fld.CLK_STAT.REF_OK 1),
    0, canonOf (by decide +kernel), by decide +kernel⟩,
   ⟨(coreIn .service).setFld (Fld.CLK_DLL.LOCKED 0) 1, 0, canonOf (by decide +kernel), by decide +kernel⟩,
   ⟨({ coreIn .service with clk := { planned := true, retries := [(0, 1)] }, flt := { ranks := [(0, { trained := true }), (1, { trained := true })] } }
    |> fun s : State => ((s.setFld Fld.CLK_STAT.MPLL_LOCK 1).setFld Fld.CLK_STAT.CPLL_LOCK 1).setFld Fld.CLK_STAT.REF_OK 1),
    0, canonOf (by decide +kernel), by decide +kernel⟩,
   ⟨State.reset, 0, canonOf (by decide +kernel), by decide +kernel⟩⟩

/-- What each clause of `Obligations.ClockLossRuns` asks for can be met. -/
theorem test_witness_clock_loss_runs :
    (∃ (s : State), s.canon ∧ s.top.coreOn = true ∧ ((s.top.state = .train ∨ s.top.state = .join ∨ s.top.state = .service ∨
      s.top.state = .restore)) ∧ s.clk.emerg = 0 ∧ s.clk.planned = false) ∧
    (∃ (s : State), s.canon ∧ s.top.coreOn = false) ∧
    (∃ (s : State), s.canon ∧ s.top.coreOn = true ∧ s.top.state = .boot) ∧
    (∃ (s : State), s.canon ∧ s.top.coreOn = true ∧ ((s.top.state = .train ∨ s.top.state = .join ∨ s.top.state = .service ∨
      s.top.state = .restore)) ∧ s.clk.emerg = 0 ∧ s.clk.planned = true ∧ s.clk.entered = false) ∧
    (∃ (s : State) (pll : PllName) (attempts : BitVec 2), s.canon ∧ s.top.coreOn = true ∧ ((s.top.state = .train ∨ s.top.state =
      .join ∨ s.top.state = .service ∨ s.top.state = .restore)) ∧ s.clk.emerg = 0 ∧ s.clk.planned = false ∧ pll = .mpll) ∧
    (∃ (s : State) (pll : PllName) (attempts : BitVec 2), s.canon ∧ s.top.coreOn = false) ∧
    (∃ (s : State) (pll : PllName) (attempts : BitVec 2), s.canon ∧ s.top.coreOn = true ∧ ((s.top.state = .train ∨ s.top.state =
      .join ∨ s.top.state = .service ∨ s.top.state = .restore)) ∧ s.clk.emerg = 0 ∧ s.clk.planned = false ∧ pll = .cpll) ∧
    (∃ (s : State) (pll : PllName) (attempts : BitVec 2), s.canon ∧ s.top.coreOn = true ∧ ((s.top.state = .train ∨ s.top.state =
      .join ∨ s.top.state = .service ∨ s.top.state = .restore)) ∧ s.clk.emerg ≠ 0 ∧ pll = .mpll) ∧
    (∃ (s : State), s.canon ∧ s.clk.emerg ≠ 0 ∧ s.clk.estep = 3 ∧ s.clk.entered = true ∧ s.top.trigger = none ∧ (s.clk.emerg ≠ 1
      ∨ s.flag Fld.CLK_STAT.REF_OK = false)) ∧
    (∃ (s : State), s.canon ∧ (s.clk.emerg = 0 ∨ s.clk.estep ≠ 3 ∨ s.clk.entered = false)) ∧
    (∃ (s : State), s.canon ∧ s.clk.emerg = 1 ∧ s.flag Fld.CLK_STAT.REF_OK = true ∧ s.clk.estep = 3 ∧ s.clk.entered = true ∧
      s.top.trigger = none) ∧
    (∃ (s : State), s.canon ∧ s.clk.emerg ≠ 0 ∧ s.clk.estep = 3 ∧ s.clk.entered = true ∧ s.top.trigger ≠ none) ∧
    (∃ (s : State) (input : RefInput), s.canon ∧ s.top.coreOn = true ∧ input = .refclk ∧ (s.clk.emerg ≠ 1 ∨ s.clk.estep ≠ 4)) ∧
    (∃ (s : State) (input : RefInput), s.canon ∧ s.top.coreOn = false ∧ (s.pwr.bootWait = false ∨ input = .bypclk)) ∧
    (∃ (s : State) (input : RefInput), s.canon ∧ s.top.coreOn = false ∧ input = .refclk ∧ s.pwr.bootWait = true ∧ s.pwr.supplyOk
      = true ∧ s.top.state = .sequence ∧ s.outranked 7 = false) ∧
    (∃ (s : State) (input : RefInput), s.canon ∧ s.top.coreOn = true ∧ input = .bypclk) ∧
    (∃ (s : State) (input : RefInput), s.canon ∧ s.top.coreOn = true ∧ input = .refclk ∧ s.clk.emerg = 1 ∧ s.clk.estep = 4) ∧
    (∃ (s : State), s.canon ∧ (s.clk.emerg = 0 ∨ s.fld Fld.CLK_STAT.REFSRC ≠ 1)) ∧
    (∃ (s : State), s.canon ∧ s.clk.emerg ≠ 0 ∧ s.fld Fld.CLK_STAT.REFSRC = 1) ∧
    (∃ (s : State), s.canon ∧ 2 ≤ s.clk.emerg ∧ s.clk.estep = 4 ∧ s.flag Fld.CLK_STAT.REF_OK = true) ∧
    (∃ (s : State), s.canon ∧ (s.clk.emerg < 2 ∨ s.clk.estep ≠ 4 ∨ s.flag Fld.CLK_STAT.REF_OK = false)) ∧
    (∃ (s : State), s.canon ∧ s.clk.emerg ≠ 0 ∧ s.clk.estep = 4) ∧
    (∃ (s : State), s.canon ∧ (s.clk.emerg = 0 ∨ s.clk.estep ≠ 4)) :=
  ⟨⟨({ coreIn .service with clk := {  }, flt := { ranks := [(0, { trained := true }), (1, { trained := true })] } } |> fun s :
    State => ((s.setFld Fld.CLK_STAT.MPLL_LOCK 1).setFld Fld.CLK_STAT.CPLL_LOCK 1).setFld Fld.CLK_STAT.REF_OK 1), canonOf
    (by decide +kernel), by decide +kernel⟩,
   ⟨inState .calm, canonOf (by decide +kernel), by decide +kernel⟩,
   ⟨({ coreIn .boot with clk := {  }, flt := { ranks := [(0, { trained := true }), (1, { trained := true })] } } |> fun s :
    State => ((s.setFld Fld.CLK_STAT.MPLL_LOCK 1).setFld Fld.CLK_STAT.CPLL_LOCK 1).setFld Fld.CLK_STAT.REF_OK 1), canonOf
    (by decide +kernel), by decide +kernel⟩,
   ⟨({ coreIn .service with clk := { planned := true, target := 2 }, flt := { ranks := [(0, { trained := true }), (1, { trained := true })] } }
    |> fun s : State => ((s.setFld Fld.CLK_STAT.MPLL_LOCK 1).setFld Fld.CLK_STAT.CPLL_LOCK 1).setFld Fld.CLK_STAT.REF_OK 1),
    canonOf (by decide +kernel), by decide +kernel⟩,
   ⟨({ coreIn .service with clk := {  }, flt := { ranks := [(0, { trained := true }), (1, { trained := true })] } } |> fun s :
    State => ((s.setFld Fld.CLK_STAT.MPLL_LOCK 1).setFld Fld.CLK_STAT.CPLL_LOCK 1).setFld Fld.CLK_STAT.REF_OK 1), .mpll, 1,
    canonOf (by decide +kernel), by decide +kernel⟩,
   ⟨State.reset, .mpll, 1, canonOf (by decide +kernel), by decide +kernel⟩,
   ⟨({ coreIn .service with clk := {  }, flt := { ranks := [(0, { trained := true }), (1, { trained := true })] } } |> fun s :
    State => ((s.setFld Fld.CLK_STAT.MPLL_LOCK 1).setFld Fld.CLK_STAT.CPLL_LOCK 1).setFld Fld.CLK_STAT.REF_OK 1), .cpll, 1,
    canonOf (by decide +kernel), by decide +kernel⟩,
   ⟨({ coreIn .service with clk := { emerg := 1, estep := 4, entered := true }, flt := { ranks := [(0, { trained := true }), (1, { trained := true })] } }
    |> fun s : State => ((s.setFld Fld.CLK_STAT.MPLL_LOCK 1).setFld Fld.CLK_STAT.CPLL_LOCK 1).setFld Fld.CLK_STAT.REF_OK 1),
    .mpll, 1, canonOf (by decide +kernel), by decide +kernel⟩,
   ⟨(({ coreIn .service with clk := { emerg := 1, estep := 3, entered := true }, flt := { ranks := [(0, { trained := true }), (1, { trained := true })] } }
    |> fun s : State => ((s.setFld Fld.CLK_STAT.MPLL_LOCK 1).setFld Fld.CLK_STAT.CPLL_LOCK 1).setFld Fld.CLK_STAT.REF_OK
    1)).setFld Fld.CLK_STAT.REF_OK 0, canonOf (by decide +kernel), by decide +kernel⟩,
   ⟨State.reset, canonOf (by decide +kernel), by decide +kernel⟩,
   ⟨({ coreIn .service with clk := { emerg := 1, estep := 3, entered := true }, flt := { ranks := [(0, { trained := true }), (1, { trained := true })] } }
    |> fun s : State => ((s.setFld Fld.CLK_STAT.MPLL_LOCK 1).setFld Fld.CLK_STAT.CPLL_LOCK 1).setFld Fld.CLK_STAT.REF_OK 1),
    canonOf (by decide +kernel), by decide +kernel⟩,
   ⟨{ ({ coreIn .service with clk := { emerg := 1, estep := 3, entered := true }, flt := { ranks := [(0, { trained := true }), (1, { trained := true })] } } |> fun s : State => ((s.setFld Fld.CLK_STAT.MPLL_LOCK 1).setFld Fld.CLK_STAT.CPLL_LOCK 1).setFld Fld.CLK_STAT.REF_OK 1) with top := { (coreIn .service).top with trigger := some 1 } },
    canonOf (by decide +kernel), by decide +kernel⟩,
   ⟨({ coreIn .service with clk := {  }, flt := { ranks := [(0, { trained := true }), (1, { trained := true })] } } |> fun s :
    State => ((s.setFld Fld.CLK_STAT.MPLL_LOCK 1).setFld Fld.CLK_STAT.CPLL_LOCK 1).setFld Fld.CLK_STAT.REF_OK 1), .refclk,
    canonOf (by decide +kernel), by decide +kernel⟩,
   ⟨inState .calm, if 0 % 2 = 0 then .refclk else .bypclk, canonOf (by decide +kernel), by decide +kernel⟩,
   ⟨{ inState .sequence with pwr := { bootWait := true, supplyOk := true } }, .refclk, canonOf (by decide +kernel),
    by decide +kernel⟩,
   ⟨({ coreIn .service with clk := {  }, flt := { ranks := [(0, { trained := true }), (1, { trained := true })] } } |> fun s :
    State => ((s.setFld Fld.CLK_STAT.MPLL_LOCK 1).setFld Fld.CLK_STAT.CPLL_LOCK 1).setFld Fld.CLK_STAT.REF_OK 1), .bypclk,
    canonOf (by decide +kernel), by decide +kernel⟩,
   ⟨({ coreIn .service with clk := { emerg := 1, estep := 4, entered := true }, flt := { ranks := [(0, { trained := true }), (1, { trained := true })] } }
    |> fun s : State => ((s.setFld Fld.CLK_STAT.MPLL_LOCK 1).setFld Fld.CLK_STAT.CPLL_LOCK 1).setFld Fld.CLK_STAT.REF_OK 1),
    .refclk, canonOf (by decide +kernel), by decide +kernel⟩,
   ⟨({ coreIn .service with clk := {  }, flt := { ranks := [(0, { trained := true }), (1, { trained := true })] } } |> fun s :
    State => ((s.setFld Fld.CLK_STAT.MPLL_LOCK 1).setFld Fld.CLK_STAT.CPLL_LOCK 1).setFld Fld.CLK_STAT.REF_OK 1), canonOf
    (by decide +kernel), by decide +kernel⟩,
   ⟨(({ coreIn .service with clk := { emerg := 1, estep := 4, entered := true }, flt := { ranks := [(0, { trained := true }), (1, { trained := true })] } }
    |> fun s : State => ((s.setFld Fld.CLK_STAT.MPLL_LOCK 1).setFld Fld.CLK_STAT.CPLL_LOCK 1).setFld Fld.CLK_STAT.REF_OK
    1)).setFld Fld.CLK_STAT.REFSRC 1, canonOf (by decide +kernel), by decide +kernel⟩,
   ⟨({ coreIn .service with clk := { emerg := 2, estep := 4, entered := true }, flt := { ranks := [(0, { trained := true }), (1, { trained := true })] } }
    |> fun s : State => ((s.setFld Fld.CLK_STAT.MPLL_LOCK 1).setFld Fld.CLK_STAT.CPLL_LOCK 1).setFld Fld.CLK_STAT.REF_OK 1),
    canonOf (by decide +kernel), by decide +kernel⟩,
   ⟨State.reset, canonOf (by decide +kernel), by decide +kernel⟩,
   ⟨({ coreIn .service with clk := { emerg := 2, estep := 4, entered := true }, flt := { ranks := [(0, { trained := true }), (1, { trained := true })] } }
    |> fun s : State => ((s.setFld Fld.CLK_STAT.MPLL_LOCK 1).setFld Fld.CLK_STAT.CPLL_LOCK 1).setFld Fld.CLK_STAT.REF_OK 1),
    canonOf (by decide +kernel), by decide +kernel⟩,
   ⟨State.reset, canonOf (by decide +kernel), by decide +kernel⟩⟩

/-- What each clause of `Obligations.CalibrationRuns` asks for can be met. -/
theorem test_witness_calibration_runs :
    (∃ (s : State) (temps : List (Option Byte)), s.canon) ∧
    (∃ (s : State) (sc : Fin 16), s.canon ∧ (s.top.state = .join ∨ s.top.state = .service)) ∧
    (∃ (s : State) (sc : Fin 16), s.canon ∧ (s.top.state ≠ .join ∧ s.top.state ≠ .service)) ∧
    (∃ (s : State) (sc : Fin 16) (temp : Option Byte) (p : Nat) (rest : List Nat), s.canon ∧ s.calRuns sc.val = true ∧ (s.runOf
      sc.val).isNone = true ∧ sc.val ∈ s.cal.due ∧ s.calRanks sc.val = p :: rest) ∧
    (∃ (s : State) (sc : Fin 16) (temp : Option Byte), s.canon ∧ (s.calRuns sc.val = false ∨ ((s.runOf sc.val).isNone = true ∧
      sc.val ∉ s.cal.due))) ∧
    (∃ (s : State) (sc : Fin 16) (temp : Option Byte) (p : Nat) (r : CalRun), s.canon ∧ s.calRuns sc.val = true ∧ s.runOf sc.val
      = some (p, r) ∧ p / 2 = sc.val ∧ r.step = .start) ∧
    (∃ (s : State) (sc : Fin 16) (temp : Option Byte), s.canon ∧ (s.runOf sc.val).any (fun q => q.2.step != .start) = true) ∧
    (∃ (s : State) (sc : Fin 16) (m : CalMeas) (p : Nat) (r : CalRun), s.canon ∧ s.runOf sc.val = some (p, r) ∧ p / 2 = sc.val ∧
      s.run p = some r ∧ r.step = .measure ∧ r.accepted = 0 ∧ s.calRuns sc.val = true ∧ (s.live p).length = 1020) :=
  ⟨⟨calIn id, [some 40, none, some 0xF0, some 3, some 4, none, some 5, some 6], canonOf (by decide +kernel)⟩,
   ⟨calIn id, 0, canonOf (by decide +kernel), by decide +kernel⟩,
   ⟨inTrain (calIn id), 0, canonOf (by decide +kernel), by decide +kernel⟩,
   ⟨calIn fun c => { c with due := [0] }, 0, (if 0 % 2 = 0 then some 33 else none), 0, [], canonOf (by decide +kernel),
    by decide +kernel⟩,
   ⟨inTrain ((let x : State := calIn fun c => { c with due := [0] }; if 0 % 3 = 1 then
    { x with cal := { x.cal with cells := [(samplerKey 0 9 1, [1, 2, 3]), (samplerKey 0 9 2, [1, 2, 3]), (samplerKey 0 9 3, [1, 2, 3])] } }
    else x)), 0, (if 0 % 2 = 0 then some 33 else none), canonOf (by decide +kernel), by decide +kernel⟩,
   ⟨calIn fun c => { c with runs := [(0, some { rank := 0 })] }, 0, (if 0 % 2 = 0 then some 33 else none), 0, { rank := 0 },
    canonOf (by decide +kernel), by decide +kernel⟩,
   ⟨calIn fun c => { c with runs := [(0, some { rank := 0, step := .measure })] }, 0, (if 0 % 2 = 0 then some 33 else none),
    canonOf (by decide +kernel), by decide +kernel⟩,
   ⟨((((calIn fun c =>
    { c with live := [(0, ((List.range 40).foldl (fun r b => (elRdVref b).put ((elRdDly b).put (recPut r (0x94 + 16 * b) [40, 30]) 100) 60) recTest))], runs := [(0, some { rank := 0, step := .measure, refs := 9000000, shadows := ((List.range 40).map fun b => if b = 5 then ({} : Roles) else if b % 3 = 0 then { edge := some 1, check := some 2 } else { edge := some 1, amp := some 2, check := some 3 }) })] }).setFld
    Fld.CAL_MEAS.EDGE_WIN 1).setFld Fld.CAL_MEAS.VREF_WIN 1).setFld Fld.CAL_LIMIT.PLAUS_D (0 % 5)).setFld
    Fld.CAL_LIMIT.PLAUS_V 3, 0,
    { bits := (List.range 40).map (fun b => if b = 9 then { ({ left := [⟨99, 99, 0⟩, ⟨99, 99, 1⟩, ⟨99, 99, 3⟩], right := [⟨99, 99, 0⟩, ⟨99, 99, 0⟩, ⟨99, 99, 3⟩], bottom := [⟨99, 99, 0⟩, ⟨99, 99, 1⟩, ⟨99, 99, 3⟩], top := [⟨99, 99, 0⟩, ⟨99, 99, 1⟩, ⟨99, 99, 3⟩], bad := [], offset := 0 } : BitMeas) with left := [] } else if 0 % 3 = 2 then { ({ left := [⟨99, 99, 0⟩, ⟨99, 99, 1⟩, ⟨99, 99, 3⟩], right := [⟨99, 99, 0⟩, ⟨99, 99, 0⟩, ⟨99, 99, 3⟩], bottom := [⟨99, 99, 0⟩, ⟨99, 99, 1⟩, ⟨99, 99, 3⟩], top := [⟨99, 99, 0⟩, ⟨99, 99, 1⟩, ⟨99, 99, 3⟩], bad := [], offset := 0 } : BitMeas) with right := [⟨99, 99, 0⟩, ⟨99, 99, 1⟩, ⟨99, 99, 3⟩] } else { left := [⟨99, 99, 0⟩, ⟨99, 99, 1⟩, ⟨99, 99, 3⟩], right := [⟨99, 99, 0⟩, ⟨99, 99, 0⟩, ⟨99, 99, 3⟩], bottom := [⟨99, 99, 0⟩, ⟨99, 99, 1⟩, ⟨99, 99, 3⟩], top := [⟨99, 99, 0⟩, ⟨99, 99, 1⟩, ⟨99, 99, 3⟩], bad := [], offset := 0 }), rcvEn := List.replicate 10 (some 1), segs := (List.range 66).map fun _ => [] },
    0,
    { rank := 0, step := .measure, refs := 9000000, shadows := ((List.range 40).map fun b => if b = 5 then ({} : Roles) else if b % 3 = 0 then { edge := some 1, check := some 2 } else { edge := some 1, amp := some 2, check := some 3 }) },
    canonOf (by decide +kernel), by decide +kernel⟩⟩

/-- What each clause of `Obligations.CalibrationRuns` asks for can be met. -/
theorem test_witness_calibration_runs_2 :
    (∃ (s : State) (sc : Fin 16) (m : CalMeas), s.canon ∧ (s.runOf sc.val = none ∨ s.calRuns sc.val = false ∨ (s.runOf
      sc.val).any (fun q => q.2.step != .measure) = true)) ∧
    (∃ (s : State) (sc : Fin 16) (p : Nat) (r : CalRun), s.canon ∧ s.runOf sc.val = some (p, r) ∧ p / 2 = sc.val ∧ s.run p = some
      r ∧ r.step = .latch ∧ s.calRuns sc.val = true) ∧
    (∃ (s : State) (sc : Fin 16) (p : Nat) (r : CalRun), s.canon ∧ s.runOf sc.val = some (p, r) ∧ p / 2 = sc.val ∧ s.run p = some
      r ∧ r.step = .latch ∧ r.hold = false ∧ s.calRuns sc.val = true) ∧
    (∃ (s : State) (sc : Fin 16), s.canon ∧ (s.runOf sc.val = none ∨ s.calRuns sc.val = false ∨ (s.runOf sc.val).any (fun q =>
      q.2.step != .latch || q.2.hold) = true)) ∧
    (∃ (s : State) (sc : Fin 16) (p : Nat) (r : CalRun) (ck : Nat), s.canon ∧ s.top.coreOn = true ∧ (s.sub sc.val).alert ≠ 1 ∧
      (s.sub sc.val).alert ≠ 2 ∧ (s.sub sc.val).held = false ∧ s.flt.ending = false ∧ (s.sub sc.val).leave = false ∧
      s.latchHold sc.val = some (p, r) ∧ p / 2 = sc.val ∧ (((s.fillStore sc.val).probe sc.val).turn sc.val).pdxStep sc.val =
      none ∧ ((((s.fillStore sc.val).probe sc.val).turn sc.val).sub sc.val).pd.contains (p % 2) = false ∧ (((s.fillStore
      sc.val).probe sc.val).turn sc.val).slotFor sc.val .zqLatch { rank := p % 2 } = some ck) ∧
    (∃ (s : State) (sc : Fin 16) (disagree : List (BitVec 6)) (r : CalRun), s.canon ∧ s.mayStep sc.val = true ∧ s.run (2 *
      sc.val) = some r ∧ r.step = .stepping ∧ r.restore = false ∧ r.todo = [] ∧ s.run (2 * sc.val + 1) = none ∧ (s.live (2 *
      sc.val)).length = 1020 ∧ r.roles = []) ∧
    (∃ (s : State) (sc : Fin 16) (disagree : List (BitVec 6)), s.canon ∧ s.mayStep sc.val = false) ∧
    (∃ (s : State) (sc : Fin 16) (disagree : List (BitVec 6)) (r : CalRun) (b : Nat) (k : Nat), s.canon ∧ s.mayStep sc.val = true
      ∧ s.run (2 * sc.val) = some r ∧ r.step = .stepping ∧ r.restore = false ∧ r.todo = [] ∧ s.run (2 * sc.val + 1) = none ∧
      (s.live (2 * sc.val)).length = 1020 ∧ r.roles = [(b, k)] ∧ b < 40 ∧ (measuredElements.all fun e => e.get (s.live (2 *
      sc.val)) == e.get r.target) = true ∧ (s.pinsDue (2 * sc.val) r) = [] ∧ disagree.any (fun x => x.toNat == b) = false ∧
      r.compared = []) :=
  ⟨⟨inTrain (((((calIn fun c =>
    { c with live := [(0, ((List.range 40).foldl (fun r b => (elRdVref b).put ((elRdDly b).put (recPut r (0x94 + 16 * b) [40, 30]) 100) 60) recTest))], runs := [(0, some { rank := 0, step := .measure, refs := 9000000, shadows := ((List.range 40).map fun b => if b = 5 then ({} : Roles) else if b % 3 = 0 then { edge := some 1, check := some 2 } else { edge := some 1, amp := some 2, check := some 3 }) })] }).setFld
    Fld.CAL_MEAS.EDGE_WIN 1).setFld Fld.CAL_MEAS.VREF_WIN 1).setFld Fld.CAL_LIMIT.PLAUS_D (0 % 5)).setFld
    Fld.CAL_LIMIT.PLAUS_V 3), 0,
    { bits := (List.range 40).map (fun b => if b = 9 then { ({ left := [⟨99, 99, 0⟩, ⟨99, 99, 1⟩, ⟨99, 99, 3⟩], right := [⟨99, 99, 0⟩, ⟨99, 99, 0⟩, ⟨99, 99, 3⟩], bottom := [⟨99, 99, 0⟩, ⟨99, 99, 1⟩, ⟨99, 99, 3⟩], top := [⟨99, 99, 0⟩, ⟨99, 99, 1⟩, ⟨99, 99, 3⟩], bad := [], offset := 0 } : BitMeas) with left := [] } else if 0 % 3 = 2 then { ({ left := [⟨99, 99, 0⟩, ⟨99, 99, 1⟩, ⟨99, 99, 3⟩], right := [⟨99, 99, 0⟩, ⟨99, 99, 0⟩, ⟨99, 99, 3⟩], bottom := [⟨99, 99, 0⟩, ⟨99, 99, 1⟩, ⟨99, 99, 3⟩], top := [⟨99, 99, 0⟩, ⟨99, 99, 1⟩, ⟨99, 99, 3⟩], bad := [], offset := 0 } : BitMeas) with right := [⟨99, 99, 0⟩, ⟨99, 99, 1⟩, ⟨99, 99, 3⟩] } else { left := [⟨99, 99, 0⟩, ⟨99, 99, 1⟩, ⟨99, 99, 3⟩], right := [⟨99, 99, 0⟩, ⟨99, 99, 0⟩, ⟨99, 99, 3⟩], bottom := [⟨99, 99, 0⟩, ⟨99, 99, 1⟩, ⟨99, 99, 3⟩], top := [⟨99, 99, 0⟩, ⟨99, 99, 1⟩, ⟨99, 99, 3⟩], bad := [], offset := 0 }), rcvEn := List.replicate 10 (some 1), segs := (List.range 66).map fun _ => [] },
    canonOf (by decide +kernel), by decide +kernel⟩,
   ⟨(calIn fun c => { c with runs := [(0, some { rank := 0, step := .latch })] }), 0, 0, { rank := 0, step := .latch }, canonOf
    (by decide +kernel), by decide +kernel⟩,
   ⟨((calIn fun c => { c with runs := [(0, some { rank := 0, step := .latch })] })).setFld Fld.SCH_REFCFG.SOFT 4, 0, 0,
    { rank := 0, step := .latch }, canonOf (by decide +kernel), by decide +kernel⟩,
   ⟨inTrain (((calIn fun c => { c with runs := [(0, some { rank := 0, step := .latch })] })).setFld Fld.SCH_REFCFG.SOFT 4), 0,
    canonOf (by decide +kernel), by decide +kernel⟩,
   ⟨(calIn fun c => { c with runs := [(0, some { rank := 0, step := .latch, hold := true })] }), 0, 0,
    { rank := 0, step := .latch, hold := true }, 0, canonOf (by decide +kernel), by decide +kernel⟩,
   ⟨(if 0 % 3 = 1 then (calIn fun c =>
    { c with runs := [(0, some { rank := 0, step := .stepping, target := ((List.range 40).foldl (fun r b => (elRdVref b).put ((elRdDly b).put (recPut r (0x94 + 16 * b) [40, 30]) 100) 60) recTest) })] })
    else if 0 % 3 = 2 then (calIn fun c =>
    { c with runs := [(0, some { rank := 0, step := .stepping, target := ((elSegs 5).put ((elSegs 60).put recTest 0x7F) 0x1F0) })] })
    else (calIn fun c =>
    { c with runs := [(0, some { rank := 0, step := .stepping, target := ((elRcvEn 2).put ((elRdVref 7).put ((elRdDly 3).put recTest 9) 2) 1000) })] })),
    0, [], (((if 0 % 3 = 1 then (calIn fun c =>
    { c with runs := [(0, some { rank := 0, step := .stepping, target := ((List.range 40).foldl (fun r b => (elRdVref b).put ((elRdDly b).put (recPut r (0x94 + 16 * b) [40, 30]) 100) 60) recTest) })] })
    else if 0 % 3 = 2 then (calIn fun c =>
    { c with runs := [(0, some { rank := 0, step := .stepping, target := ((elSegs 5).put ((elSegs 60).put recTest 0x7F) 0x1F0) })] })
    else (calIn fun c =>
    { c with runs := [(0, some { rank := 0, step := .stepping, target := ((elRcvEn 2).put ((elRdVref 7).put ((elRdDly 3).put recTest 9) 2) 1000) })] }))).run
    0).getD { rank := 0 }, canonOf (by decide +kernel), by decide +kernel⟩,
   ⟨inTrain ((if 0 % 3 = 1 then (calIn fun c =>
    { c with runs := [(0, some { rank := 0, step := .stepping, target := ((List.range 40).foldl (fun r b => (elRdVref b).put ((elRdDly b).put (recPut r (0x94 + 16 * b) [40, 30]) 100) 60) recTest) })] })
    else if 0 % 3 = 2 then (calIn fun c =>
    { c with runs := [(0, some { rank := 0, step := .stepping, target := ((elSegs 5).put ((elSegs 60).put recTest 0x7F) 0x1F0) })] })
    else (calIn fun c =>
    { c with runs := [(0, some { rank := 0, step := .stepping, target := ((elRcvEn 2).put ((elRdVref 7).put ((elRdDly 3).put recTest 9) 2) 1000) })] }))),
    0, [], canonOf (by decide +kernel), by decide +kernel⟩,
   ⟨((calIn fun c =>
    { c with runs := [(0, some { rank := 0, step := .stepping, target := recTest, roles := [(7, 2)], refs := 90 })] })).setFld
    Fld.CAL_MEAS.DWELL 4, 0, [], ((((calIn fun c =>
    { c with runs := [(0, some { rank := 0, step := .stepping, target := recTest, roles := [(7, 2)], refs := 90 })] })).setFld
    Fld.CAL_MEAS.DWELL 4).run 0).getD { rank := 0 }, 7, 2, canonOf (by decide +kernel), by decide +kernel⟩⟩

/-- What each clause of `Obligations.CalibrationRuns` asks for can be met. -/
theorem test_witness_calibration_runs_3 :
    (∃ (s : State) (sc : Fin 16) (disagree : List (BitVec 6)) (r : CalRun) (b : Nat) (k : Nat) (n : Nat), s.canon ∧ s.mayStep
      sc.val = true ∧ s.run (2 * sc.val) = some r ∧ r.step = .stepping ∧ r.restore = false ∧ r.todo = [] ∧ s.run (2 * sc.val
      + 1) = none ∧ (s.live (2 * sc.val)).length = 1020 ∧ r.roles = [(b, k)] ∧ b < 40 ∧ (measuredElements.all fun e => e.get
      (s.live (2 * sc.val)) == e.get r.target) = true ∧ (s.pinsDue (2 * sc.val) r) = [] ∧ disagree.any (fun x => x.toNat ==
      b) = false ∧ r.compared = [(b, n)]) ∧
    (∃ (s : State) (sc : Fin 16) (disagree : List (BitVec 6)) (r : CalRun) (b : Nat) (k : Nat), s.canon ∧ s.mayStep sc.val = true
      ∧ s.run (2 * sc.val) = some r ∧ r.step = .stepping ∧ r.restore = false ∧ r.todo = [] ∧ s.run (2 * sc.val + 1) = none ∧
      (s.live (2 * sc.val)).length = 1020 ∧ r.roles = [(b, k)] ∧ b < 40 ∧ (measuredElements.all fun e => e.get (s.live (2 *
      sc.val)) == e.get r.target) = true ∧ (s.pinsDue (2 * sc.val) r) = [] ∧ disagree.any (fun x => x.toNat == b) = true) ∧
    (∃ (s : State) (sc : Fin 16) (disagree : List (BitVec 6)) (r : CalRun), s.canon ∧ s.mayStep sc.val = true ∧ s.run (2 *
      sc.val) = some r ∧ r.step = .stepping ∧ r.todo ≠ [] ∧ 3 ≤ r.waits) ∧
    (∃ (s : State) (sc : Fin 16) (r : CalRun), s.canon ∧ s.top.coreOn = true ∧ (s.sub sc.val).leave = true ∧ s.flt.ending = false
      ∧ s.mayStep sc.val = true ∧ s.run (2 * sc.val) = some r ∧ r.step = .stepping ∧ r.restore = false ∧ s.run (2 * sc.val +
      1) = none ∧ (s.live (2 * sc.val)).length = 1020 ∧ r.todo = (measuredElements.filter fun e => e.get (s.live (2 *
      sc.val)) != e.get r.target).map (fun e => BreezeEl.setting e.off e.bits) ∧ s.capturing sc.val = false) ∧
    (∃ (s : State) (sc : Fin 16) (r : CalRun), s.canon ∧ s.top.coreOn = true ∧ (s.sub sc.val).leave = true ∧ s.flt.ending = false
      ∧ s.mayStep sc.val = true ∧ s.run (2 * sc.val) = some r ∧ r.step = .stepping ∧ r.restore = false ∧ s.run (2 * sc.val +
      1) = none ∧ (s.live (2 * sc.val)).length = 1020 ∧ r.todo = (measuredElements.filter fun e => e.get (s.live (2 *
      sc.val)) != e.get r.target).map (fun e => BreezeEl.setting e.off e.bits) ∧ s.capturing sc.val = true) ∧
    (∃ (s : State) (sc : Fin 16) (r : CalRun) (l : List Nat), s.canon ∧ s.top.coreOn = true ∧ (s.sub sc.val).leave = true ∧
      s.flt.ending = false ∧ s.mayStep sc.val = true ∧ s.run (2 * sc.val) = some r ∧ r.step = .stepping ∧ r.restore = false
      ∧ s.run (2 * sc.val + 1) = none ∧ (s.live (2 * sc.val)).length = 1020 ∧ r.todo = l.map BreezeEl.swap ∧ l.length ≤ 10 ∧
      l.all (fun i => decide (i < 50)) = true ∧ l.Nodup ∧ s.capturing sc.val = false ∧ s.bursting sc.val .wr (s.tp sc.val 1)
      = false ∧ (s.live (2 * sc.val + 1) = [] ∨ (s.live (2 * sc.val + 1)).length = 1020)) ∧
    (∃ (s : State) (sc : Fin 16) (r : CalRun) (b : Nat) (k : Nat), s.canon ∧ s.top.coreOn = true ∧ (s.sub sc.val).leave = true ∧
      s.flt.ending = false ∧ s.mayStep sc.val = true ∧ s.run (2 * sc.val) = some r ∧ r.step = .stepping ∧ r.restore = false
      ∧ s.run (2 * sc.val + 1) = none ∧ (s.live (2 * sc.val)).length = 1020 ∧ r.todo = [.role b k] ∧ b < 40 ∧ k < 4 ∧
      s.capturing sc.val = false) ∧
    (∃ (s : State) (sc : Fin 16) (r : CalRun), s.canon ∧ s.top.trigger = none ∧ s.run (2 * sc.val) = some r ∧ s.applied (2 *
      sc.val) r = true ∧ r.restore = false) :=
  ⟨⟨((calIn fun c =>
    { c with runs := [(0, some { rank := 0, step := .stepping, target := recTest, roles := [(7, 2)], refs := 90, compared := [(7, 80)] })] })).setFld
    Fld.CAL_MEAS.DWELL (0 % 2), 0, [], ((((calIn fun c =>
    { c with runs := [(0, some { rank := 0, step := .stepping, target := recTest, roles := [(7, 2)], refs := 90, compared := [(7, 80)] })] })).setFld
    Fld.CAL_MEAS.DWELL (0 % 2)).run 0).getD { rank := 0 }, 7, 2, 80, canonOf (by decide +kernel), by decide +kernel⟩,
   ⟨(calIn fun c => { c with runs := [(0, some { rank := 0, step := .stepping, target := recTest, roles := [(7, 2)] })] }), 0,
    [7], (((calIn fun c =>
    { c with runs := [(0, some { rank := 0, step := .stepping, target := recTest, roles := [(7, 2)] })] })).run 0).getD
    { rank := 0 }, 7, 2, canonOf (by decide +kernel), by decide +kernel⟩,
   ⟨(calIn fun c =>
    { c with runs := [(0, some { rank := 0, step := .stepping, target := ((elRcvEn 2).put ((elRdVref 7).put ((elRdDly 3).put recTest 9) 2) 1000), waits := 3, todo := [.setting 0x90 8] })] }),
    0, [], (((calIn fun c =>
    { c with runs := [(0, some { rank := 0, step := .stepping, target := ((elRcvEn 2).put ((elRdVref 7).put ((elRdDly 3).put recTest 9) 2) 1000), waits := 3, todo := [.setting 0x90 8] })] })).run
    0).getD { rank := 0 }, canonOf (by decide +kernel), by decide +kernel⟩,
   ⟨steppingTo { rank := 0, step := .stepping, target := recNext, todo := settingsDue }, 0, ((steppingTo
    { rank := 0, step := .stepping, target := recNext, todo := settingsDue }).run 0).getD { rank := 0 }, canonOf
    (by decide +kernel), by decide +kernel⟩,
   ⟨(steppingTo { rank := 0, step := .stepping, target := recNext, todo := settingsDue }).onSub 0 fun c =>
    { c with ck := 1000, hist := [⟨1000 - (calIn id).tp 0 0, .rd, {}, false, 0⟩] }, 0, (((steppingTo
    { rank := 0, step := .stepping, target := recNext, todo := settingsDue }).onSub 0 fun c =>
    { c with ck := 1000, hist := [⟨1000 - (calIn id).tp 0 0, .rd, {}, false, 0⟩] }).run 0).getD { rank := 0 }, canonOf
    (by decide +kernel), by decide +kernel⟩,
   ⟨steppingTo { rank := 0, step := .stepping, target := recTest, todo := [.swap 5, .swap 44] }, 0, ((steppingTo
    { rank := 0, step := .stepping, target := recTest, todo := [.swap 5, .swap 44] }).run 0).getD { rank := 0 }, [5, 44],
    canonOf (by decide +kernel), by decide +kernel⟩,
   ⟨steppingTo { rank := 0, step := .stepping, target := recTest, todo := [.role 7 2], roles := [(7, 2)] }, 0, ((steppingTo
    { rank := 0, step := .stepping, target := recTest, todo := [.role 7 2], roles := [(7, 2)] }).run 0).getD { rank := 0 },
    7, 2, canonOf (by decide +kernel), by decide +kernel⟩,
   ⟨{ linked .service with cal := { runs := [(0, some { rank := 0, step := .stepping, accepted := 0x3FF })] } }, 0,
    { rank := 0, step := .stepping, accepted := 0x3FF }, canonOf (by decide +kernel), by decide +kernel⟩⟩

/-- What each clause of `Obligations.CalibrationRuns` asks for can be met. -/
theorem test_witness_calibration_runs_4 :
    (∃ (s : State) (sc : Fin 16), s.canon ∧ (List.range 2).all (fun i => (s.run (2 * sc.val + i)).all fun x => !s.applied (2 *
      sc.val + i) x) = true) ∧
    (∃ (s : State) (sc : Fin 16) (r : CalRun), s.canon ∧ s.top.trigger = none ∧ s.run (2 * sc.val) = some r ∧ s.applied (2 *
      sc.val) r = true ∧ r.restore = true ∧ ((s.fld Fld.GLB_DIRSTAT.BUSY).testBit 8 = true ∧ s.flag Fld.GLB_DIRSTAT.BUSY =
      true)) ∧
    (∃ (s : State), s.canon ∧ s.cal.capturing = true) ∧
    (∃ (s : State), s.canon ∧ s.cal.capturing = false) ∧
    (∃ (s : State) (h : DirHead) (arg : BitVec 64), s.canon ∧ s.commits h 8 arg = true) :=
  ⟨⟨State.reset, 0, canonOf (by decide +kernel), by decide +kernel⟩,
   ⟨({ linked .service with cal := { runs := [(0, some { rank := 0, step := .stepping, restore := true })] } } : State).setFld
    Fld.GLB_DIRSTAT.BUSY 256, 0, { rank := 0, step := .stepping, restore := true }, canonOf (by decide +kernel),
    by decide +kernel⟩,
   ⟨calIn fun c => { c with capturing := true }, canonOf (by decide +kernel), by decide +kernel⟩,
   ⟨State.reset, canonOf (by decide +kernel), by decide +kernel⟩,
   ⟨(((calIn id).setReg (Reg.CAL_STAGE 0) 1129075267).setReg (Reg.CAL_STAGE 1) 256).setReg (Reg.CAL_STAGE 255) 1249599503,
    { port := .u1, mtag := 2, epoch := 3 }, 0, canonOf (by decide +kernel),
    by (simp only [State.commits, State.dirPre, State.canRestore, recGood, crc32c_run]; decide +kernel)⟩⟩

/-- What each clause of `Obligations.TimeRuns` asks for can be met. -/
theorem test_witness_time_runs :
    (∃ (s : State) (p : Port) (sync : Bool) (offsetEpoch : BitVec 16) (timeNs : BitVec 64), s.canon ∧ p ≠ .t ∧ (s.link p).lstate
      = .service ∧ offsetEpoch.toNat = s.fld Fld.TIM_STAT.OFFSET_EPOCH ∧ (s.fld Fld.TIM_CFG.PORTMASK).testBit p.idx = true ∧
      uPorts.all (fun q => q == p || !((s.fld Fld.TIM_CFG.PORTMASK).testBit q.idx && (s.link q).lstate == .service)) = true
      ∧ sync = false ∧ s.time.lastTime ≠ timeNs.toNat) ∧
    (∃ (s : State) (p : Port) (sync : Bool) (offsetEpoch : BitVec 16) (timeNs : BitVec 64), s.canon ∧ (p = .t ∨ (s.link p).lstate
      ≠ .service)) ∧
    (∃ (s : State) (p : Port) (sync : Bool) (offsetEpoch : BitVec 16) (timeNs : BitVec 64) (m : Nat), s.canon ∧ p ≠ .t ∧ (s.link
      p).lstate = .service ∧ offsetEpoch.toNat = s.fld Fld.TIM_STAT.OFFSET_EPOCH ∧ (s.fld Fld.TIM_CFG.PORTMASK).testBit
      p.idx = true ∧ uPorts.all (fun q => q == p || !((s.fld Fld.TIM_CFG.PORTMASK).testBit q.idx && (s.link q).lstate ==
      .service)) = true ∧ sync = true ∧ s.time.syncFree.find? (fun x => decide (s.nowNs ≤ x + 1100000000)) = some m ∧
      s.time.lastTime ≠ timeNs.toNat) ∧
    (∃ (s : State) (p : Port) (sync : Bool) (offsetEpoch : BitVec 16) (timeNs : BitVec 64), s.canon ∧ p ≠ .t ∧ (s.link p).lstate
      = .service ∧ offsetEpoch.toNat ≠ s.fld Fld.TIM_STAT.OFFSET_EPOCH) ∧
    (∃ (s : State), s.canon ∧ s.top.aonOn = true ∧ s.time.prevApplied = true ∧ s.time.holdover = false) ∧
    (∃ (s : State), s.canon ∧ (s.top.aonOn = false ∨ s.time.prevApplied = false ∨ s.time.holdover = true)) ∧
    (∃ (s : State), s.canon ∧ s.top.aonOn = true ∧ s.flag Fld.TIM_CFG.SYNC_EN = true ∧ s.time.syncEdge.all (fun x => decide (x +
      500000000 ≤ s.nowNs)) = true) ∧
    (∃ (s : State), s.canon ∧ (s.top.aonOn = false ∨ s.flag Fld.TIM_CFG.SYNC_EN = false)) ∧
    (∃ (s : State), s.canon ∧ s.top.aonOn = true ∧ s.vbat.on = true) ∧
    (∃ (s : State), s.canon ∧ (s.top.aonOn = false ∨ s.vbat.on = false)) ∧
    (∃ (s : State) (sensor : Fin 8) (reading : Byte), s.canon ∧ s.top.coreOn = true ∧ 150 < reading.toNat ∧ s.flag
      (Fld.CAL_TEMP.SENSOR_BAD (2 * sensor.val)) = false) ∧
    (∃ (s : State) (sensor : Fin 8) (reading : Byte), s.canon ∧ (s.top.coreOn = false ∨ reading.toNat ≤ 150)) ∧
    (∃ (s : State), s.canon ∧ s.top.coreOn = true) ∧
    (∃ (s : State), s.canon ∧ s.top.coreOn = false) :=
  ⟨⟨({ linked .service with time := { tb := 5000000000 <<< 32, syncEdge := some 4900000000, syncFree := [4900000000] } }).setFld
    Fld.TIM_CFG.PORTMASK 2, .u1, false, 0, 5000000100, canonOf (by decide +kernel), by decide +kernel⟩,
   ⟨State.reset, .u1, false, 0, 5000000100, canonOf (by decide +kernel), by decide +kernel⟩,
   ⟨({ linked .service with time := { tb := 5000000000 <<< 32, syncEdge := some 4900000000, syncFree := [4900000000] } }).setFld
    Fld.TIM_CFG.PORTMASK 2, .u1, true, 0, 5000000100, 4900000000, canonOf (by decide +kernel), by decide +kernel⟩,
   ⟨({ linked .service with time := { tb := 5000000000 <<< 32, syncEdge := some 4900000000, syncFree := [4900000000] } }).setFld
    Fld.TIM_CFG.PORTMASK 2, .u1, false, 1, 9, canonOf (by decide +kernel), by decide +kernel⟩,
   ⟨{ coreIn .service with time := { prevApplied := true, slew := 8 } }, canonOf (by decide +kernel), by decide +kernel⟩,
   ⟨State.reset, canonOf (by decide +kernel), by decide +kernel⟩,
   ⟨({ coreIn .service with time := { tb := 5000000000 <<< 32, syncEdge := some 4000000000 } }).setFld Fld.TIM_CFG.SYNC_EN 1,
    canonOf (by decide +kernel), by decide +kernel⟩,
   ⟨aonDown, canonOf (by decide +kernel), by decide +kernel⟩,
   ⟨{ coreIn .service with time := { tb := 0x1234567890ABCDEF012345 }, vbat := { (coreIn .service).vbat with on := true } },
    canonOf (by decide +kernel), by decide +kernel⟩,
   ⟨aonDown, canonOf (by decide +kernel), by decide +kernel⟩,
   ⟨coreIn .service, 3, 151, canonOf (by decide +kernel), by decide +kernel⟩,
   ⟨State.reset, 3, 151, canonOf (by decide +kernel), by decide +kernel⟩,
   ⟨coreIn .service, canonOf (by decide +kernel), by decide +kernel⟩,
   ⟨State.reset, canonOf (by decide +kernel), by decide +kernel⟩⟩

/-- What each clause of `Obligations.EventsAndLogRun` asks for can be met. -/
theorem test_witness_events_and_log_run :
    (∃ (s : State) (code : BitVec 16) (data : Word), s.canon ∧ Attentive s ∧ [0, 1, 2].all (fun k => intervalOf code != .stop k)
      = true) ∧
    (∃ (s : State) (code : BitVec 16) (data : Word), s.canon ∧ s.top.aonOn = false) ∧
    (∃ (s : State) (code : BitVec 16) (data : Word), s.canon ∧ s.top.aonOn = true ∧ s.log.squall = true ∧ code ∈ s.log.seen ∧
      mayUseLast code = false ∧ intervalOf code = .plain ∧ endsDir code = none) ∧
    (∃ (s : State), s.canon ∧ s.log.squall = true ∧ s.top.aonOn = true ∧ s.log.table = [] ∧ s.log.ring.length ≤ 256) ∧
    (∃ (s : State), s.canon ∧ s.log.squall = false) ∧
    (∃ (s : State) (c : Coalesced), s.canon ∧ s.log.squall = true ∧ s.log.table = [c] ∧ 256 < s.log.ring.length ∧
      s.log.ring.length < 700 ∧ s.log.rdLog = 0) ∧
    (∃ (s : State) (verified : Bool) (e : RingEntry), s.canon ∧ verified = true ∧ s.logWrites = true ∧ s.log.late = [] ∧
      s.log.ring.drop s.log.rdLog = [e] ∧ s.log.slot % 64 ≠ 63 ∧ s.log.slot < logSlots ∧ s.blank (logAddr s.log.slot) 64 =
      true) ∧
    (∃ (s : State) (verified : Bool), s.canon ∧ (s.logWrites = false ∧ (s.top.trigger = none ∨ s.log.going = 0))) ∧
    (∃ (s : State) (verified : Bool) (e : RingEntry), s.canon ∧ verified = false ∧ s.logWrites = true ∧ s.log.late = [] ∧
      s.log.ring.drop s.log.rdLog = [e] ∧ s.log.slot % 64 ≠ 63 ∧ s.log.slot < logSlots ∧ s.blank (logAddr s.log.slot) 64 =
      true ∧ s.log.slot % 4 = 3) ∧
    (∃ (s : State), s.canon ∧ s.top.coreOn = true ∧ s.bootRuns = true ∧ s.fld Fld.MGT_BOOTSTAT.CORERST < 2) ∧
    (∃ (s : State), s.canon ∧ s.top.coreOn = false) ∧
    (∃ (s : State), s.canon ∧ s.top.coreOn = true ∧ s.bootRuns = true ∧ 2 ≤ s.fld Fld.MGT_BOOTSTAT.CORERST ∧ s.outranked 7 =
      false) ∧
    (∃ (s : State), s.canon ∧ s.top.coreOn = true ∧ s.bootRuns = false ∧ s.boot.check = none) ∧
    (∃ (s : State), s.canon ∧ s.top.coreOn = true ∧ s.bootRuns = false ∧ s.boot.check ≠ none) ∧
    (∃ (s : State) (data : Word), s.canon ∧ s.accessOpen .core = true) ∧
    (∃ (s : State) (data : Word), s.canon ∧ s.top.coreOn = false) :=
  ⟨⟨{ coreIn .service with log := { raised := true, nextSeq := 9 } }, 0x1041, 77, canonOf (by decide +kernel),
    by (unfold Attentive; decide +kernel)⟩,
   ⟨aonDown, 0x1041, 77, canonOf (by decide +kernel), by decide +kernel⟩,
   ⟨{ coreIn .service with log := { squall := true, seen := [0x1041] } }, 0x1041, 77, canonOf (by decide +kernel),
    by decide +kernel⟩,
   ⟨{ coreIn .service with log := { squall := true, seen := [0x1041], ring := [{ code := 0x1041, seqLow := false, tq := 0, seq := 5, stamp := 6, epoch := 0, data := 7, count := 0 }] } },
    canonOf (by decide +kernel), by decide +kernel⟩,
   ⟨State.reset, canonOf (by decide +kernel), by decide +kernel⟩,
   ⟨{ coreIn .service with log := { squall := true, table := [{ code := 0x1041, count := 4, fullLost := false, last := { code := 0x1041, seqLow := false, tq := 0, seq := 5, stamp := 6, epoch := 0, data := 7, count := 0 } }], ring := List.replicate 300 { code := 0x1041, seqLow := false, tq := 0, seq := 5, stamp := 6, epoch := 0, data := 7, count := 0 } } },
    { code := 0x1041, count := 4, fullLost := false, last := { code := 0x1041, seqLow := false, tq := 0, seq := 5, stamp := 6, epoch := 0, data := 7, count := 0 } },
    canonOf (by decide +kernel), by decide +kernel⟩,
   ⟨{ coreIn .service with log := { ready := true, slot := 5, ring := [{ code := 0x1041, seqLow := false, tq := 0, seq := 5, stamp := 6, epoch := 0, data := 7, count := 0 }] } },
    true, { code := 0x1041, seqLow := false, tq := 0, seq := 5, stamp := 6, epoch := 0, data := 7, count := 0 }, canonOf
    (by decide +kernel), by decide +kernel⟩,
   ⟨State.reset, true, canonOf (by decide +kernel), by decide +kernel⟩,
   ⟨{ coreIn .service with log := { ready := true, slot := 7, ring := [{ code := 0x1041, seqLow := false, tq := 0, seq := 5, stamp := 6, epoch := 0, data := 7, count := 0 }] } },
    false, { code := 0x1041, seqLow := false, tq := 0, seq := 5, stamp := 6, epoch := 0, data := 7, count := 0 }, canonOf
    (by decide +kernel), by decide +kernel⟩,
   ⟨({ coreIn .boot with boot := { keys := [(2, [1])] } }).setFld Fld.MGT_BOOTSTAT.CORERST 1, canonOf (by decide +kernel),
    by decide +kernel⟩,
   ⟨State.reset, canonOf (by decide +kernel), by decide +kernel⟩,
   ⟨({ coreIn .boot with boot := { keys := [(2, [1])] } }).setFld Fld.MGT_BOOTSTAT.CORERST 2, canonOf (by decide +kernel),
    by decide +kernel⟩,
   ⟨({ coreIn .service with boot := { keys := [(2, [1])], flCmd := some 1, flash := (if 0 % 2 = 0 then .quad else .unusable) } }),
    canonOf (by decide +kernel), by decide +kernel⟩,
   ⟨({ coreIn .bootHold with boot := { check := some 1 } }), canonOf (by decide +kernel), by decide +kernel⟩,
   ⟨coreIn .service, 9, canonOf (by decide +kernel), by decide +kernel⟩,
   ⟨State.reset, 9, canonOf (by decide +kernel), by decide +kernel⟩⟩

/-- What each clause of `Obligations.LatchingReadsRun` asks for can be met. -/
theorem test_witness_latching_reads_run :
    (∃ (s : State) (path : AccPath), s.canon ∧ s.accessOpen path = true ∧ s.accStatus path Reg.ORD_STRREC0 = 0) ∧
    (∃ (s : State) (path : AccPath), s.canon ∧ s.pathShut path = true) ∧
    (∃ (s : State) (path : AccPath), s.canon ∧ s.accessOpen path = true ∧ s.accStatus path Reg.ORD_FRONT_LO = 0) ∧
    (∃ (s : State) (path : AccPath), s.canon ∧ s.pathShut path = true) ∧
    (∃ (s : State) (path : AccPath), s.canon ∧ s.accessOpen path = true ∧ s.accStatus path Reg.TIM_NOW_LO = 0) ∧
    (∃ (s : State) (path : AccPath), s.canon ∧ s.pathShut path = true) ∧
    (∃ (s : State) (path : AccPath), s.canon ∧ s.accessOpen path = true ∧ s.accStatus path Reg.TIM_OFFSET_LO = 0) ∧
    (∃ (s : State) (path : AccPath), s.canon ∧ s.pathShut path = true) ∧
    (∃ (s : State) (path : AccPath), s.canon ∧ s.accessOpen path = true ∧ s.accStatus path Reg.PWR_SNAPSTAMP_LO = 0) ∧
    (∃ (s : State) (path : AccPath), s.canon ∧ s.pathShut path = true) ∧
    (∃ (s : State) (path : AccPath), s.canon ∧ s.accessOpen path = true ∧ s.accStatus path Reg.MGT_DIEID_LO = 0) ∧
    (∃ (s : State) (path : AccPath), s.canon ∧ s.pathShut path = true) ∧
    (∃ (s : State) (path : AccPath) (sc : Fin 16), s.canon ∧ s.accessOpen path = true ∧ s.accStatus path (Reg.DPH_EYEA sc.val) =
      0) ∧
    (∃ (s : State) (path : AccPath) (sc : Fin 16), s.canon ∧ s.pathShut path = true) ∧
    (∃ (s : State) (path : AccPath), s.canon ∧ s.accessOpen path = true ∧ s.accStatus path Reg.ECC_SEALFAIL = 0) ∧
    (∃ (s : State) (path : AccPath), s.canon ∧ s.pathShut path = true) ∧
    (∃ (s : State) (path : AccPath) (e : RingEntry) (rest : List RingEntry), s.canon ∧ s.accessOpen path = true ∧ s.accStatus
      path Reg.LOG_SBREC0 = 0 ∧ s.log.ring.drop s.log.rdSb = e :: rest) :=
  ⟨⟨(linked .service), .sideband, canonOf (by decide +kernel), by decide +kernel⟩,
   ⟨aonDown, .sideband, canonOf (by decide +kernel), by decide +kernel⟩,
   ⟨{ linked .service with ord := { front := 0x123456789A } }, .sideband, canonOf (by decide +kernel), by decide +kernel⟩,
   ⟨aonDown, .sideband, canonOf (by decide +kernel), by decide +kernel⟩,
   ⟨{ linked .service with time := { tb := 0x123456789ABCDEF <<< 32, offset := 5 } }, .sideband, canonOf (by decide +kernel),
    by decide +kernel⟩,
   ⟨aonDown, .sideband, canonOf (by decide +kernel), by decide +kernel⟩,
   ⟨{ linked .service with time := { offset := 0x1122334455667788 } }, .sideband, canonOf (by decide +kernel),
    by decide +kernel⟩,
   ⟨aonDown, .sideband, canonOf (by decide +kernel), by decide +kernel⟩,
   ⟨{ linked .service with pwr := { record := some { first := 3, kind := 1, state := .service, mask := 0, readings := [], stamp := 0x1122334455667788, tq := 0 } } },
    .sideband, canonOf (by decide +kernel), by decide +kernel⟩,
   ⟨aonDown, .sideband, canonOf (by decide +kernel), by decide +kernel⟩,
   ⟨{ linked .service with fuse := { word := [(0, 5), (1, 99)] } }, .sideband, canonOf (by decide +kernel), by decide +kernel⟩,
   ⟨aonDown, .sideband, canonOf (by decide +kernel), by decide +kernel⟩,
   ⟨(linked .service), .sideband, 2, canonOf (by decide +kernel), by decide +kernel⟩,
   ⟨aonDown, .sideband, 2, canonOf (by decide +kernel), by decide +kernel⟩,
   ⟨(linked .service).setReg Reg.ECC_SEALFAIL 0x00010203, .sideband, canonOf (by decide +kernel), by decide +kernel⟩,
   ⟨aonDown, .sideband, canonOf (by decide +kernel), by decide +kernel⟩,
   ⟨{ linked .service with log := { ring := [({ code := 0x1041, seqLow := false, tq := 0, seq := 5, stamp := 6, epoch := 0, data := 7, count := 0 } : RingEntry), { ({ code := 0x1041, seqLow := false, tq := 0, seq := 5, stamp := 6, epoch := 0, data := 7, count := 0 } : RingEntry) with data := 9 }] } },
    .sideband, ({ code := 0x1041, seqLow := false, tq := 0, seq := 5, stamp := 6, epoch := 0, data := 7, count := 0 } :
    RingEntry),
    [{ ({ code := 0x1041, seqLow := false, tq := 0, seq := 5, stamp := 6, epoch := 0, data := 7, count := 0 } : RingEntry) with data := 9 }],
    canonOf (by decide +kernel), by decide +kernel⟩⟩

/-- What each clause of `Obligations.AccessesRun` asks for can be met. -/
theorem test_witness_accesses_run :
    (∃ (s : State) (p : Port) (mtag : BitVec 4) (addr : BitVec 24), s.canon ∧ s.pathOpen (.mgt p mtag) = true ∧ s.accStatus (.mgt
      p mtag) addr.toNat = 0 ∧ latches addr.toNat = false ∧ readClears addr.toNat = 0) ∧
    (∃ (s : State) (p : Port) (mtag : BitVec 4) (addr : BitVec 24), s.canon ∧ (p = .t ∨ (s.link p).takes = false)) ∧
    (∃ (s : State) (path : AccPath) (addr : BitVec 24), s.canon ∧ s.accessOpen path = true ∧ s.accStatus path addr.toNat = 0 ∧
      latches addr.toNat = false ∧ s.restartHigh addr.toNat = s) ∧
    (∃ (s : State) (path : AccPath) (addr : BitVec 24), s.canon ∧ s.accessOpen path = true ∧ s.accStatus path addr.toNat ≠ 0) ∧
    (∃ (s : State) (path : AccPath) (addr : BitVec 24) (data : Word), s.canon ∧ s.accessOpen path = true ∧ s.accStatus path
      addr.toNat = 0 ∧ startsWork addr.toNat = false ∧ s.triggered = false ∧ data &&& (s.reach addr.toNat).2.1 = 0) ∧
    (∃ (s : State) (path : AccPath) (addr : BitVec 24) (data : Word), s.canon ∧ s.accessOpen path = true ∧ s.accStatus path
      addr.toNat = 0 ∧ startsWork addr.toNat = false ∧ s.triggered = false ∧ addr.toNat ≠ Reg.GLB_ACCCNT ∧ addr.toNat ≠
      Reg.GLB_ACCERR ∧ addr.toNat ≠ Reg.GLB_EVENT ∧ data &&& (s.reach addr.toNat).2.1 ≠ 0) ∧
    (∃ (s : State) (p : Port) (mtag : BitVec 4) (addr : BitVec 24) (data : Word), s.canon ∧ s.pathOpen (.mgt p mtag) = true ∧
      s.accStatus (.mgt p mtag) addr.toNat = 0 ∧ startsWork addr.toNat = false ∧ s.triggered = false ∧ data &&& (s.reach
      addr.toNat).2.1 = 0) ∧
    (∃ (s : State) (p : Port) (mtag : BitVec 4) (addr : BitVec 24) (data : Word), s.canon ∧ (p = .t ∨ (s.link p).takes = false)) ∧
    (∃ (s : State) (p : Port) (mtag : BitVec 4) (addr : BitVec 24) (data : Word), s.canon ∧ s.pathOpen (.mgt p mtag) = true ∧
      s.triggered = true) ∧
    (∃ (s : State) (path : AccPath) (data : Word), s.canon ∧ s.accessOpen path = true ∧ s.accStatus path Reg.CAL_RECSEL = 0 ∧
      s.triggered = false ∧ data &&& (s.reach Reg.CAL_RECSEL).2.1 = 0) ∧
    (∃ (s : State) (path : AccPath) (data : Word), s.canon ∧ s.accessOpen path = true ∧ s.accStatus path Reg.ORD_STRSEL = 0 ∧
      s.triggered = false ∧ data &&& (s.reach Reg.ORD_STRSEL).2.1 = 0) ∧
    (∃ (s : State) (path : AccPath) (sc : Fin 16) (data : Word), s.canon ∧ s.accessOpen path = true ∧ s.accStatus path
      (Reg.DPH_EYESEL sc.val) = 0 ∧ s.triggered = false ∧ data &&& (s.reach (Reg.DPH_EYESEL sc.val)).2.1 = 0) :=
  ⟨⟨(linked .service), .u1, 3, BitVec.ofNat 24 Reg.GLB_HUBID, canonOf (by decide +kernel), by decide +kernel⟩,
   ⟨State.reset, .u1, 3, BitVec.ofNat 24 Reg.GLB_HUBID, canonOf (by decide +kernel), by decide +kernel⟩,
   ⟨(linked .service), .sideband, BitVec.ofNat 24 (Reg.LNK_BADMSG 1), canonOf (by decide +kernel), by decide +kernel⟩,
   ⟨(linked .service), .sideband, 0x800001, canonOf (by decide +kernel), by decide +kernel⟩,
   ⟨linked .boot, .sideband, BitVec.ofNat 24 Reg.PWR_FEEDCFG, 0, canonOf (by decide +kernel), by decide +kernel⟩,
   ⟨(linked .service), .sideband, BitVec.ofNat 24 Reg.GLB_HUBID, 0x80000001, canonOf (by decide +kernel), by decide +kernel⟩,
   ⟨linked .boot, .u1, 3, BitVec.ofNat 24 Reg.PWR_FEEDCFG, 0, canonOf (by decide +kernel), by decide +kernel⟩,
   ⟨State.reset, .u1, 3, BitVec.ofNat 24 Reg.PWR_FEEDCFG, 0, canonOf (by decide +kernel), by decide +kernel⟩,
   ⟨{ linked .service with top := { (linked .service).top with trigger := some 1 } }, .u1, 3, 5, 6, canonOf
    (by decide +kernel), by decide +kernel⟩,
   ⟨{ linked .service with cal := { window := [3] } }, .sideband, 0x45, canonOf (by decide +kernel), by decide +kernel⟩,
   ⟨(linked .service), .sideband, 0x45, canonOf (by decide +kernel), by decide +kernel⟩,
   ⟨{ linked .service with cal := { eyeB := [(2, 4)] } }, .sideband, 2, 0x5, canonOf (by decide +kernel), by decide +kernel⟩⟩

/-- What each clause of `Obligations.FlashMailboxRuns` asks for can be met. -/
theorem test_witness_flash_mailbox_runs :
    (∃ (s : State) (path : AccPath), s.canon ∧ s.accessOpen path = true ∧ s.accStatus path Reg.MGT_FLCMD = 0 ∧ s.triggered =
      false ∧ s.flag Fld.MGT_FLCMD.BUSY = false ∧ s.flashArea 1 = true) ∧
    (∃ (s : State) (path : AccPath), s.canon ∧ s.accessOpen path = true ∧ s.accStatus path Reg.MGT_FLCMD = 0 ∧ s.triggered =
      false ∧ s.flag Fld.MGT_FLCMD.BUSY = false ∧ s.flashArea 2 = true) ∧
    (∃ (s : State) (path : AccPath), s.canon ∧ s.accessOpen path = true ∧ s.accStatus path Reg.MGT_FLCMD = 0 ∧ s.triggered =
      false ∧ s.flag Fld.MGT_FLCMD.BUSY = false ∧ s.flashArea 2 = false) ∧
    (∃ (s : State) (path : AccPath), s.canon ∧ s.accessOpen path = true ∧ s.accStatus path Reg.MGT_FLCMD = 0 ∧ s.triggered =
      false ∧ s.flag Fld.MGT_FLCMD.BUSY = false ∧ s.flashArea 3 = true) ∧
    (∃ (s : State) (path : AccPath), s.canon ∧ s.accessOpen path = true ∧ s.accStatus path Reg.MGT_FLCMD = 0 ∧ s.triggered =
      false ∧ s.flag Fld.MGT_FLCMD.BUSY = false ∧ s.flashArea 3 = false) ∧
    (∃ (s : State) (path : AccPath), s.canon ∧ s.accessOpen path = true ∧ s.accStatus path Reg.MGT_FLCMD = 0 ∧ s.triggered =
      false ∧ s.flag Fld.MGT_FLCMD.BUSY = false ∧ s.flashArea 4 = true) ∧
    (∃ (s : State) (path : AccPath) (code : BitVec 4), s.canon ∧ s.accessOpen path = true ∧ s.accStatus path Reg.MGT_FLCMD = 0 ∧
      s.triggered = false ∧ s.flag Fld.MGT_FLCMD.BUSY = false ∧ (code = 0 ∨ 4 < code.toNat)) ∧
    (∃ (s : State) (ok : Bool), s.canon ∧ s.boot.flCmd = some 1 ∧ s.top.trigger = none ∧ s.boot.flash ≠ .unusable ∧ ok = true) ∧
    (∃ (s : State) (ok : Bool), s.canon ∧ s.boot.flCmd = some 2 ∧ s.top.trigger = none ∧ s.boot.flash ≠ .unusable ∧ ok = true ∧
      s.boot.check = none ∧ s.blank (s.fld Fld.MGT_FLADDR.ADDR) 256 = true) ∧
    (∃ (s : State) (ok : Bool), s.canon ∧ s.boot.flCmd = some 2 ∧ s.top.trigger = none ∧ s.boot.flash ≠ .unusable ∧ s.boot.check
      = none ∧ s.blank (s.fld Fld.MGT_FLADDR.ADDR) 256 = false) ∧
    (∃ (s : State) (ok : Bool), s.canon ∧ s.boot.flCmd = some 3 ∧ s.top.trigger = none ∧ s.boot.flash ≠ .unusable ∧ ok = true ∧
      s.boot.check = none) ∧
    (∃ (s : State) (ok : Bool) (n : Nat) (d : DirRec), s.canon ∧ s.boot.flCmd = some 4 ∧ s.top.trigger = none ∧ s.boot.flash ≠
      .unusable ∧ ok = true ∧ s.boot.check = none ∧ s.directory = some (n, d)) ∧
    (∃ (s : State) (ok : Bool) (c : Nat), s.canon ∧ s.boot.flCmd = some c ∧ ok = false ∧ (c = 1 ∨ c = 4) ∧ s.boot.check = none ∧
      s.top.trigger = none ∧ s.boot.flash ≠ .unusable) ∧
    (∃ (s : State) (ok : Bool), s.canon ∧ s.boot.flCmd = none) ∧
    (∃ (s : State) (slot : BitVec 2) (dest : BitVec 2), s.canon ∧ s.accessOpen .core = true ∧ s.boot.ciph = none ∧
      s.cipherRefuses slot.toNat dest.toNat false = false) ∧
    (∃ (s : State) (slot : BitVec 2) (dest : BitVec 2), s.canon ∧ s.top.coreOn = false) ∧
    (∃ (s : State) (slot : BitVec 2) (dest : BitVec 2), s.canon ∧ s.accessOpen .core = true ∧ s.boot.ciph = none ∧
      s.cipherRefuses slot.toNat dest.toNat false = true) ∧
    (∃ (s : State) (slot : BitVec 2) (dest : BitVec 2), s.canon ∧ s.accessOpen .core = true ∧ s.boot.ciph = none ∧
      s.cipherRefuses slot.toNat dest.toNat true = false) ∧
    (∃ (s : State) (slot : BitVec 2) (dest : BitVec 2), s.canon ∧ s.top.coreOn = false) ∧
    (∃ (s : State) (out : List Byte), s.canon ∧ s.boot.ciph = some (0, out)) ∧
    (∃ (s : State), s.canon ∧ s.boot.ciph = none) ∧
    (∃ (s : State) (d : Nat) (out : List Byte), s.canon ∧ s.boot.ciph = some (d, out) ∧ d ≠ 0) :=
  ⟨⟨(linked .bootHold).setFld Fld.MGT_FLADDR.ADDR 0x10100, .sideband, canonOf (by decide +kernel), by decide +kernel⟩,
   ⟨(linked .bootHold).setFld Fld.MGT_FLADDR.ADDR 0x10100, .sideband, canonOf (by decide +kernel), by decide +kernel⟩,
   ⟨(linked .bootHold).setFld Fld.MGT_FLADDR.ADDR 0x10101, .sideband, canonOf (by decide +kernel), by decide +kernel⟩,
   ⟨(linked .bootHold).setFld Fld.MGT_FLADDR.ADDR 0x11000, .sideband, canonOf (by decide +kernel), by decide +kernel⟩,
   ⟨(linked .bootHold).setFld Fld.MGT_FLADDR.ADDR 0x10100, .sideband, canonOf (by decide +kernel), by decide +kernel⟩,
   ⟨(linked .bootHold).setFld Fld.MGT_FLADDR.ADDR 0, .sideband, canonOf (by decide +kernel), by decide +kernel⟩,
   ⟨linked .bootHold, .sideband, 9, canonOf (by decide +kernel), by decide +kernel⟩,
   ⟨({ linked .bootHold with boot := { flCmd := some 1 } }).setFld Fld.MGT_FLADDR.ADDR 0x10000, true, canonOf
    (by decide +kernel), by decide +kernel⟩,
   ⟨((({ linked .bootHold with boot := { flCmd := some 2 } }).setFld Fld.MGT_FLADDR.ADDR 0x10000).setReg (Reg.MGT_FLPAGE 3)
    0x12345678), true, canonOf (by decide +kernel), by decide +kernel⟩,
   ⟨{ ({ linked .bootHold with boot := { flCmd := some 2 } }).setFld Fld.MGT_FLADDR.ADDR 0x10000 with flash := [(0x10003, 7)] },
    true, canonOf (by decide +kernel), by decide +kernel⟩,
   ⟨{ ({ linked .bootHold with boot := { flCmd := some 3 } }).setFld Fld.MGT_FLADDR.ADDR 0x10000 with flash := [(0x10003, 7)] },
    true, canonOf (by decide +kernel), by decide +kernel⟩,
   ⟨{ ({ linked .bootHold with boot := { flCmd := some 4 } }).setFld Fld.MGT_FLADDR.ADDR 0x10000 with flash := dirBytes },
    true, 0, dirTest, canonOf (by decide +kernel), by (rw [directory_low] <;> decide +kernel)⟩,
   ⟨({ linked .bootHold with boot := { flCmd := some 1 } }).setFld Fld.MGT_FLADDR.ADDR 0x10000, false, 1, canonOf
    (by decide +kernel), by decide +kernel⟩,
   ⟨State.reset, false, canonOf (by decide +kernel), by decide +kernel⟩,
   ⟨{ linked .boot with boot := { keys := [(2, List.replicate 16 3), (3, List.replicate 16 4)] } }, 1, 0, canonOf
    (by decide +kernel), by decide +kernel⟩,
   ⟨State.reset, 1, 0, canonOf (by decide +kernel), by decide +kernel⟩,
   ⟨linked .boot, 1, 0, canonOf (by decide +kernel), by decide +kernel⟩,
   ⟨{ linked .boot with boot := { keys := [(2, List.replicate 16 3), (3, List.replicate 16 4)] } }, 1, 2, canonOf
    (by decide +kernel), by decide +kernel⟩,
   ⟨State.reset, 1, 2, canonOf (by decide +kernel), by decide +kernel⟩,
   ⟨{ linked .boot with boot := { ciph := some (0, [1, 2, 3, 4, 5, 6, 7, 8, 9, 10, 11, 12, 13, 14, 15, 16]) } }, [1, 2, 3, 4,
    5, 6, 7, 8, 9, 10, 11, 12, 13, 14, 15, 16], canonOf (by decide +kernel), by decide +kernel⟩,
   ⟨State.reset, canonOf (by decide +kernel), by decide +kernel⟩,
   ⟨{ linked .boot with boot := { ciph := some (3, [1, 2, 3, 4, 5, 6, 7, 8, 9, 10, 11, 12, 13, 14, 15, 16]) } }, 3, [1, 2, 3,
    4, 5, 6, 7, 8, 9, 10, 11, 12, 13, 14, 15, 16], canonOf (by decide +kernel), by decide +kernel⟩⟩

/-- What each clause of `Obligations.SidebandRuns` asks for can be met. -/
theorem test_witness_sideband_runs :
    (∃ (s : State) (addr : BitVec 24) (count : Byte), s.canon ∧ s.accessOpen .sideband = true ∧ count ≠ 0 ∧ count.toNat ≤ 16 ∧
      (List.range count.toNat).all (fun i => s.accStatus .sideband (addr.toNat + 4 * i) == 0 && !latches (addr.toNat + 4 *
      i) && readClears (addr.toNat + 4 * i) == 0) = true) ∧
    (∃ (s : State) (addr : BitVec 24) (count : Byte), s.canon ∧ s.sbAnswers = false) ∧
    (∃ (s : State) (addr : BitVec 24) (count : Byte), s.canon ∧ s.sbAnswers = true ∧ (count = 0 ∨ 16 < count.toNat)) ∧
    (∃ (s : State) (addr : BitVec 24) (data : Word), s.canon ∧ s.accessOpen .sideband = true ∧ s.accStatus .sideband addr.toNat =
      0 ∧ startsWork addr.toNat = false ∧ data &&& (s.reach addr.toNat).2.1 = 0) ∧
    (∃ (s : State) (addr : BitVec 24) (data : Word), s.canon ∧ s.sbAnswers = false) ∧
    (∃ (s : State) (e : SbError), s.canon ∧ s.sbAnswers = true ∧ e = .pec ∧ s.sb.smbus = true) ∧
    (∃ (s : State) (e : SbError), s.canon ∧ s.sbAnswers = false) ∧
    (∃ (s : State) (e : SbError), s.canon ∧ s.sbAnswers = true ∧ e ≠ .pec) ∧
    (∃ (s : State), s.canon ∧ s.top.aonOn = true ∧ s.sb.smbus = true) ∧
    (∃ (s : State), s.canon ∧ (s.top.aonOn = false ∨ s.sb.smbus = false)) ∧
    (∃ (s : State) (da : BitVec 7), s.canon ∧ s.i3cOn = true ∧ s.sb.dynAddr = none ∧ (s.log.ring.drop s.log.rdSb).any (fun e =>
      (s.fld Fld.LOG_SBCFG.IBIMASK).testBit (e.code.toNat >>> 12)) = false) ∧
    (∃ (s : State) (da : BitVec 7), s.canon ∧ (s.i3cOn = false ∨ s.sb.dynAddr ≠ none)) ∧
    (∃ (s : State) (da : BitVec 7), s.canon ∧ s.i3cOn = true ∧ s.sb.dynAddr = none ∧ (s.log.ring.drop s.log.rdSb).any (fun e =>
      (s.fld Fld.LOG_SBCFG.IBIMASK).testBit (e.code.toNat >>> 12)) = false) ∧
    (∃ (s : State) (da : BitVec 7), s.canon ∧ (s.i3cOn = false ∨ s.sb.dynAddr ≠ none)) ∧
    (∃ (s : State) (da : BitVec 7), s.canon ∧ s.i3cOn = true ∧ s.sb.dynAddr ≠ none) ∧
    (∃ (s : State) (da : BitVec 7), s.canon ∧ (s.i3cOn = false ∨ s.sb.dynAddr = none)) ∧
    (∃ (s : State), s.canon ∧ s.i3cOn = true) ∧
    (∃ (s : State), s.canon ∧ s.i3cOn = false) ∧
    (∃ (s : State), s.canon ∧ s.i3cOn = true ∧ (s.log.ring.drop s.log.rdSb).any (fun e => (s.fld Fld.LOG_SBCFG.IBIMASK).testBit
      (e.code.toNat >>> 12)) = false) ∧
    (∃ (s : State), s.canon ∧ s.i3cOn = false) ∧
    (∃ (s : State) (e : RingEntry), s.canon ∧ s.i3cOn = true ∧ s.sb.ibi = none ∧ s.sb.dynAddr ≠ none ∧ (s.log.ring.drop
      s.log.rdSb).find? (fun e => (s.fld Fld.LOG_SBCFG.IBIMASK).testBit (e.code.toNat >>> 12)) = some e) ∧
    (∃ (s : State), s.canon ∧ s.i3cOn = true) ∧
    (∃ (s : State), s.canon ∧ s.i3cOn = false) ∧
    (∃ (s : State), s.canon ∧ s.i3cOn = true ∧ s.sb.dynAddr ≠ none) ∧
    (∃ (s : State), s.canon ∧ (s.i3cOn = false ∨ s.sb.dynAddr = none)) ∧
    (∃ (s : State), s.canon ∧ s.i3cOn = true ∧ s.sb.dynAddr ≠ none) ∧
    (∃ (s : State), s.canon ∧ (s.i3cOn = false ∨ s.sb.dynAddr = none)) ∧
    (∃ (s : State), s.canon ∧ s.i3cOn = true ∧ s.sb.dynAddr ≠ none) ∧
    (∃ (s : State), s.canon ∧ (s.i3cOn = false ∨ s.sb.dynAddr = none)) ∧
    (∃ (s : State), s.canon ∧ s.i3cOn = true ∧ s.sb.dynAddr ≠ none) ∧
    (∃ (s : State), s.canon ∧ s.i3cOn = true ∧ s.sb.dynAddr ≠ none) ∧
    (∃ (s : State), s.canon ∧ (s.i3cOn = false ∨ s.sb.dynAddr = none)) ∧
    (∃ (s : State), s.canon ∧ s.i3cOn = true ∧ s.sb.dynAddr ≠ none) ∧
    (∃ (s : State), s.canon ∧ (s.i3cOn = false ∨ s.sb.dynAddr = none)) ∧
    (∃ (s : State) (len : BitVec 16), s.canon ∧ s.i3cOn = true) ∧
    (∃ (s : State) (len : BitVec 16), s.canon ∧ s.i3cOn = false) ∧
    (∃ (s : State) (len : BitVec 16), s.canon ∧ s.i3cOn = true) ∧
    (∃ (s : State) (len : BitVec 16), s.canon ∧ s.i3cOn = false) ∧
    (∃ (s : State) (action : Byte), s.canon ∧ s.i3cOn = true ∧ action = 1) ∧
    (∃ (s : State) (action : Byte), s.canon ∧ (s.i3cOn = false ∨ action ≠ 1)) :=
  ⟨⟨linked .service, 0, 1, canonOf (by decide +kernel), by decide +kernel⟩,
   ⟨aonDown, 0, 1, canonOf (by decide +kernel), by decide +kernel⟩,
   ⟨linked .service, 0, 17, canonOf (by decide +kernel), by decide +kernel⟩,
   ⟨linked .boot, BitVec.ofNat 24 Reg.PWR_FEEDCFG, 0, canonOf (by decide +kernel), by decide +kernel⟩,
   ⟨aonDown, BitVec.ofNat 24 Reg.PWR_FEEDCFG, 0, canonOf (by decide +kernel), by decide +kernel⟩,
   ⟨{ linked .service with sb := { smbus := true } }, .pec, canonOf (by decide +kernel), by decide +kernel⟩,
   ⟨aonDown, .pec, canonOf (by decide +kernel), by decide +kernel⟩,
   ⟨linked .service, .unknownOp, canonOf (by decide +kernel), by decide +kernel⟩,
   ⟨{ linked .service with sb := { smbus := true, answer := [3] } }, canonOf (by decide +kernel), by decide +kernel⟩,
   ⟨State.reset, canonOf (by decide +kernel), by decide +kernel⟩,
   ⟨{ linked .service with sb := { smbus := false } }, 9, canonOf (by decide +kernel), by decide +kernel⟩,
   ⟨aonDown, 9, canonOf (by decide +kernel), by decide +kernel⟩,
   ⟨{ linked .service with sb := { smbus := false } }, 9, canonOf (by decide +kernel), by decide +kernel⟩,
   ⟨aonDown, 9, canonOf (by decide +kernel), by decide +kernel⟩,
   ⟨{ linked .service with sb := { smbus := false, dynAddr := some 8 } }, 9, canonOf (by decide +kernel), by decide +kernel⟩,
   ⟨State.reset, 9, canonOf (by decide +kernel), by decide +kernel⟩,
   ⟨{ linked .service with sb := { smbus := false, dynAddr := some 8 } }, canonOf (by decide +kernel), by decide +kernel⟩,
   ⟨aonDown, canonOf (by decide +kernel), by decide +kernel⟩,
   ⟨{ linked .service with sb := { smbus := false, ibiOn := false } }, canonOf (by decide +kernel), by decide +kernel⟩,
   ⟨aonDown, canonOf (by decide +kernel), by decide +kernel⟩,
   ⟨({ { linked .service with sb := { smbus := false, dynAddr := some 8 } } with log := { ring := [{ code := 0x1041, seqLow := false, tq := 0, seq := 5, stamp := 6, epoch := 0, data := 7, count := 0 }] } }).setFld
    Fld.LOG_SBCFG.IBIMASK 0xFFFF,
    { code := 0x1041, seqLow := false, tq := 0, seq := 5, stamp := 6, epoch := 0, data := 7, count := 0 }, canonOf
    (by decide +kernel), by decide +kernel⟩,
   ⟨{ linked .service with sb := { smbus := false, ibiOn := true } }, canonOf (by decide +kernel), by decide +kernel⟩,
   ⟨aonDown, canonOf (by decide +kernel), by decide +kernel⟩,
   ⟨{ linked .service with sb := { smbus := false, dynAddr := some 9 } }, canonOf (by decide +kernel), by decide +kernel⟩,
   ⟨State.reset, canonOf (by decide +kernel), by decide +kernel⟩,
   ⟨{ linked .service with sb := { smbus := false, dynAddr := some 9 } }, canonOf (by decide +kernel), by decide +kernel⟩,
   ⟨State.reset, canonOf (by decide +kernel), by decide +kernel⟩,
   ⟨{ linked .service with sb := { smbus := false, dynAddr := some 9 } }, canonOf (by decide +kernel), by decide +kernel⟩,
   ⟨State.reset, canonOf (by decide +kernel), by decide +kernel⟩,
   ⟨{ linked .service with sb := { smbus := false, dynAddr := some 9 } }, canonOf (by decide +kernel), by decide +kernel⟩,
   ⟨{ linked .service with sb := { smbus := false, dynAddr := some 9 } }, canonOf (by decide +kernel), by decide +kernel⟩,
   ⟨State.reset, canonOf (by decide +kernel), by decide +kernel⟩,
   ⟨{ linked .service with sb := { smbus := false, dynAddr := some 9 } }, canonOf (by decide +kernel), by decide +kernel⟩,
   ⟨State.reset, canonOf (by decide +kernel), by decide +kernel⟩,
   ⟨{ linked .service with sb := { smbus := false } }, 0x8001, canonOf (by decide +kernel), by decide +kernel⟩,
   ⟨aonDown, 0x8001, canonOf (by decide +kernel), by decide +kernel⟩,
   ⟨{ linked .service with sb := { smbus := false } }, 0x8001, canonOf (by decide +kernel), by decide +kernel⟩,
   ⟨aonDown, 0x8001, canonOf (by decide +kernel), by decide +kernel⟩,
   ⟨{ linked .service with sb := { smbus := false, dynAddr := some 8 } }, 1, canonOf (by decide +kernel), by decide +kernel⟩,
   ⟨aonDown, 1, canonOf (by decide +kernel), by decide +kernel⟩⟩

/-- What each clause of `Obligations.DirectiveChecks` asks for can be met. -/
theorem test_witness_directive_checks :
    (∃ (s : State) (h : DirHead) (d : Byte) (arg : BitVec 64), s.canon ∧ s.pathOpen (.mgt h.port h.mtag) = true ∧ (d = 0 ∨ 11 <
      d.toNat)) ∧
    (∃ (s : State) (h : DirHead) (d : Byte) (arg : BitVec 64), s.canon ∧ s.pathOpen (.mgt h.port h.mtag) = true ∧ (1 ≤ d.toNat ∧
      d.toNat ≤ 11) ∧ s.fromWitness h d = false) ∧
    (∃ (s : State) (h : DirHead) (d : Byte) (arg : BitVec 64), s.canon ∧ s.pathOpen (.mgt h.port h.mtag) = true ∧ (1 ≤ d.toNat ∧
      d.toNat ≤ 11) ∧ s.fromWitness h d = true ∧ s.epochCurrent h d = false ∧ (isMembership d.toNat = false ∨ h.epoch ≤
      s.mir.epoch)) ∧
    (∃ (s : State) (h : DirHead) (d : Byte) (arg : BitVec 64), s.canon ∧ s.pathOpen (.mgt h.port h.mtag) = true ∧ (1 ≤ d.toNat ∧
      d.toNat ≤ 11) ∧ s.fromWitness h d = true ∧ s.epochCurrent h d = false ∧ isMembership d.toNat = true ∧ s.mir.epoch <
      h.epoch) ∧
    (∃ (s : State) (h : DirHead) (d : Byte) (arg : BitVec 64), s.canon ∧ s.pathOpen (.mgt h.port h.mtag) = true ∧ (1 ≤ d.toNat ∧
      d.toNat ≤ 11) ∧ s.fromWitness h d = true ∧ s.epochCurrent h d = true ∧ s.triggered = true) ∧
    (∃ (s : State) (h : DirHead) (d : Byte) (arg : BitVec 64), s.canon ∧ s.pathOpen (.mgt h.port h.mtag) = true ∧ (1 ≤ d.toNat ∧
      d.toNat ≤ 11) ∧ s.fromWitness h d = true ∧ s.epochCurrent h d = true ∧ s.triggered = false ∧ (s.fld
      Fld.GLB_DIRSTAT.BUSY).testBit d.toNat = true) ∧
    (∃ (s : State) (h : DirHead) (d : Byte) (arg : BitVec 64), s.canon ∧ s.pathOpen (.mgt h.port h.mtag) = true ∧ (1 ≤ d.toNat ∧
      d.toNat ≤ 11) ∧ s.fromWitness h d = true ∧ s.epochCurrent h d = true ∧ s.triggered = false ∧ (s.fld
      Fld.GLB_DIRSTAT.BUSY).testBit d.toNat = false ∧ s.preHolds d arg = false) ∧
    (∃ (s : State) (h : DirHead) (d : Byte) (arg : BitVec 64), s.canon ∧ s.pathOpen (.mgt h.port h.mtag) = true ∧ (1 ≤ d.toNat ∧
      d.toNat ≤ 11) ∧ s.fromWitness h d = true ∧ s.epochCurrent h d = true ∧ s.triggered = false ∧ (s.fld
      Fld.GLB_DIRSTAT.BUSY).testBit d.toNat = false ∧ s.preHolds d arg = true) ∧
    (∃ (s : State) (p : Port) (mtag : BitVec 4) (addr : BitVec 24), s.canon ∧ s.pathOpen (.mgt p mtag) = true ∧ s.triggered =
      true) ∧
    (∃ (s : State) (p : Port) (mtag : BitVec 4) (addr : BitVec 24) (data : Word), s.canon ∧ s.pathOpen (.mgt p mtag) = true ∧
      s.triggered = true) ∧
    (∃ (s : State) (d : Byte) (epoch : Word) (arg : BitVec 64), s.canon ∧ s.sbAnswers = true ∧ s.mgtDirective d.toNat = false ∧
      s.sb.arb = [] ∧ (d = 0 ∨ 11 < d.toNat)) ∧
    (∃ (s : State) (d : Byte) (epoch : Word) (arg : BitVec 64), s.canon ∧ s.sbAnswers = true ∧ s.mgtDirective d.toNat = false ∧
      s.sb.arb = [] ∧ isMembership d.toNat = true) ∧
    (∃ (s : State) (d : Byte) (epoch : Word) (arg : BitVec 64), s.canon ∧ s.sbAnswers = true ∧ s.mgtDirective d.toNat = false ∧
      s.sb.arb = [] ∧ d = 3 ∧ epoch ≠ s.mir.epoch) ∧
    (∃ (s : State) (d : Byte) (epoch : Word) (arg : BitVec 64), s.canon ∧ s.sbAnswers = true ∧ s.mgtDirective d.toNat = false ∧
      s.sb.arb = [] ∧ (1 ≤ d.toNat ∧ d.toNat ≤ 11) ∧ isMembership d.toNat = false ∧ (d = 3 → epoch = s.mir.epoch) ∧
      s.triggered = true) ∧
    (∃ (s : State) (d : Byte) (epoch : Word) (arg : BitVec 64), s.canon ∧ s.sbAnswers = true ∧ s.mgtDirective d.toNat = false ∧
      s.sb.arb = [] ∧ (1 ≤ d.toNat ∧ d.toNat ≤ 11) ∧ isMembership d.toNat = false ∧ (d = 3 → epoch = s.mir.epoch) ∧
      s.triggered = false ∧ (s.fld Fld.GLB_DIRSTAT.BUSY).testBit d.toNat = true) ∧
    (∃ (s : State) (d : Byte) (epoch : Word) (arg : BitVec 64), s.canon ∧ s.sbAnswers = true ∧ s.mgtDirective d.toNat = false ∧
      s.sb.arb = [] ∧ (1 ≤ d.toNat ∧ d.toNat ≤ 11) ∧ isMembership d.toNat = false ∧ (d = 3 → epoch = s.mir.epoch) ∧
      s.triggered = false ∧ (s.fld Fld.GLB_DIRSTAT.BUSY).testBit d.toNat = false ∧ (d = 3 ∨ s.preHolds d arg = false)) ∧
    (∃ (s : State) (d : Byte) (epoch : Word) (arg : BitVec 64), s.canon ∧ s.sbAnswers = true ∧ s.mgtDirective d.toNat = false ∧
      s.sb.arb = [] ∧ (1 ≤ d.toNat ∧ d.toNat ≤ 11) ∧ isMembership d.toNat = false ∧ d ≠ 3 ∧ s.triggered = false ∧ (s.fld
      Fld.GLB_DIRSTAT.BUSY).testBit d.toNat = false ∧ s.preHolds d arg = true) :=
  ⟨⟨({ (linked .service).setLink .u1 { upLink with peerNeg := some { profile := 1, linkRevs := 0, mirRevs := 0, features := 0, domain := 0, node := 0, port := 1 } } with mir := { epoch := 3, pstate := .paired }, map := { rt := [(5, 0x00080007), (6, 0x00080008)] } }
    |> fun s : State => ((s.setReg (Reg.LNK_FEAT 4) 0xFFFFFFFF).setFld Fld.CLK_STAT.MPLL_LOCK 1).setFld
    Fld.CLK_STAT.CPLL_LOCK 1), { port := .u1, mtag := 2, epoch := 3 }, 0, 0, canonOf (by decide +kernel), by decide +kernel⟩,
   ⟨({ (linked .service).setLink .u1 { upLink with peerNeg := some { profile := 1, linkRevs := 0, mirRevs := 0, features := 0, domain := 0, node := 0, port := 1 } } with mir := { epoch := 3, pstate := .paired }, map := { rt := [(5, 0x00080007), (6, 0x00080008)] } }
    |> fun s : State => ((s.setReg (Reg.LNK_FEAT 4) 0xFFFFFFFF).setFld Fld.CLK_STAT.MPLL_LOCK 1).setFld
    Fld.CLK_STAT.CPLL_LOCK 1) |> fun s : State => s.setLink .u2 upLink, { port := .u2, mtag := 2, epoch := 3 }, 4, 0,
    canonOf (by decide +kernel), by decide +kernel⟩,
   ⟨({ (linked .service).setLink .u1 { upLink with peerNeg := some { profile := 1, linkRevs := 0, mirRevs := 0, features := 0, domain := 0, node := 0, port := 1 } } with mir := { epoch := 3, pstate := .paired }, map := { rt := [(5, 0x00080007), (6, 0x00080008)] } }
    |> fun s : State => ((s.setReg (Reg.LNK_FEAT 4) 0xFFFFFFFF).setFld Fld.CLK_STAT.MPLL_LOCK 1).setFld
    Fld.CLK_STAT.CPLL_LOCK 1), { port := .u1, mtag := 2, epoch := 2 }, 3, 5, canonOf (by decide +kernel), by decide +kernel⟩,
   ⟨({ (linked .service).setLink .u1 { upLink with peerNeg := some { profile := 1, linkRevs := 0, mirRevs := 0, features := 0, domain := 0, node := 0, port := 1 } } with mir := { epoch := 3, pstate := .paired }, map := { rt := [(5, 0x00080007), (6, 0x00080008)] } }
    |> fun s : State => ((s.setReg (Reg.LNK_FEAT 4) 0xFFFFFFFF).setFld Fld.CLK_STAT.MPLL_LOCK 1).setFld
    Fld.CLK_STAT.CPLL_LOCK 1), { port := .u1, mtag := 2, epoch := 4 }, 6, 5, canonOf (by decide +kernel), by decide +kernel⟩,
   ⟨{ linked .service with top := { (coreIn .service).top with trigger := some 1 } }, { port := .u1, mtag := 2, epoch := 3 },
    7, 24, canonOf (by decide +kernel), by decide +kernel⟩,
   ⟨({ (linked .service).setLink .u1 { upLink with peerNeg := some { profile := 1, linkRevs := 0, mirRevs := 0, features := 0, domain := 0, node := 0, port := 1 } } with mir := { epoch := 3, pstate := .paired }, map := { rt := [(5, 0x00080007), (6, 0x00080008)] } }
    |> fun s : State => ((s.setReg (Reg.LNK_FEAT 4) 0xFFFFFFFF).setFld Fld.CLK_STAT.MPLL_LOCK 1).setFld
    Fld.CLK_STAT.CPLL_LOCK 1) |> fun s : State => s.setFld Fld.GLB_DIRSTAT.BUSY 0xFFF,
    { port := .u1, mtag := 2, epoch := 3 }, 1, 1, canonOf (by decide +kernel), by decide +kernel⟩,
   ⟨({ (linked .service).setLink .u1 { upLink with peerNeg := some { profile := 1, linkRevs := 0, mirRevs := 0, features := 0, domain := 0, node := 0, port := 1 } } with mir := { epoch := 3, pstate := .paired }, map := { rt := [(5, 0x00080007), (6, 0x00080008)] } }
    |> fun s : State => ((s.setReg (Reg.LNK_FEAT 4) 0xFFFFFFFF).setFld Fld.CLK_STAT.MPLL_LOCK 1).setFld
    Fld.CLK_STAT.CPLL_LOCK 1), { port := .u1, mtag := 2, epoch := 3 }, 7, 721, canonOf (by decide +kernel),
    by decide +kernel⟩,
   ⟨({ (linked .service).setLink .u1 { upLink with peerNeg := some { profile := 1, linkRevs := 0, mirRevs := 0, features := 0, domain := 0, node := 0, port := 1 } } with mir := { epoch := 3, pstate := .paired }, map := { rt := [(5, 0x00080007), (6, 0x00080008)] } }
    |> fun s : State => ((s.setReg (Reg.LNK_FEAT 4) 0xFFFFFFFF).setFld Fld.CLK_STAT.MPLL_LOCK 1).setFld
    Fld.CLK_STAT.CPLL_LOCK 1), { port := .u1, mtag := 2, epoch := 3 }, 7, 24, canonOf (by decide +kernel),
    by decide +kernel⟩,
   ⟨{ linked .service with top := { (coreIn .service).top with trigger := some 1 } }, .u1, 3, BitVec.ofNat 24 Reg.GLB_HUBID,
    canonOf (by decide +kernel), by decide +kernel⟩,
   ⟨{ linked .service with top := { (coreIn .service).top with trigger := some 1 } }, .u1, 3, 8, 9, canonOf
    (by decide +kernel), by decide +kernel⟩,
   ⟨({ (linked .service).setLink .u1 { upLink with peerNeg := some { profile := 1, linkRevs := 0, mirRevs := 0, features := 0, domain := 0, node := 0, port := 1 } } with mir := { epoch := 3, pstate := .paired }, map := { rt := [(5, 0x00080007), (6, 0x00080008)] } }
    |> fun s : State => ((s.setReg (Reg.LNK_FEAT 4) 0xFFFFFFFF).setFld Fld.CLK_STAT.MPLL_LOCK 1).setFld
    Fld.CLK_STAT.CPLL_LOCK 1), 12, 3, 0, canonOf (by decide +kernel), by decide +kernel⟩,
   ⟨({ (linked .service).setLink .u1 { upLink with peerNeg := some { profile := 1, linkRevs := 0, mirRevs := 0, features := 0, domain := 0, node := 0, port := 1 } } with mir := { epoch := 3, pstate := .paired }, map := { rt := [(5, 0x00080007), (6, 0x00080008)] } }
    |> fun s : State => ((s.setReg (Reg.LNK_FEAT 4) 0xFFFFFFFF).setFld Fld.CLK_STAT.MPLL_LOCK 1).setFld
    Fld.CLK_STAT.CPLL_LOCK 1), 4, 3, 0, canonOf (by decide +kernel), by decide +kernel⟩,
   ⟨({ (linked .service).setLink .u1 { upLink with peerNeg := some { profile := 1, linkRevs := 0, mirRevs := 0, features := 0, domain := 0, node := 0, port := 1 } } with mir := { epoch := 3, pstate := .paired }, map := { rt := [(5, 0x00080007), (6, 0x00080008)] } }
    |> fun s : State => ((s.setReg (Reg.LNK_FEAT 4) 0xFFFFFFFF).setFld Fld.CLK_STAT.MPLL_LOCK 1).setFld
    Fld.CLK_STAT.CPLL_LOCK 1), 3, 2, 5, canonOf (by decide +kernel), by decide +kernel⟩,
   ⟨{ linked .service with top := { (coreIn .service).top with trigger := some 1 } }, 7, 3, 24, canonOf (by decide +kernel),
    by decide +kernel⟩,
   ⟨({ (linked .service).setLink .u1 { upLink with peerNeg := some { profile := 1, linkRevs := 0, mirRevs := 0, features := 0, domain := 0, node := 0, port := 1 } } with mir := { epoch := 3, pstate := .paired }, map := { rt := [(5, 0x00080007), (6, 0x00080008)] } }
    |> fun s : State => ((s.setReg (Reg.LNK_FEAT 4) 0xFFFFFFFF).setFld Fld.CLK_STAT.MPLL_LOCK 1).setFld
    Fld.CLK_STAT.CPLL_LOCK 1) |> fun s : State => s.setFld Fld.GLB_DIRSTAT.BUSY 0xFFF, 1, 3, 1, canonOf (by decide +kernel),
    by decide +kernel⟩,
   ⟨({ (linked .service).setLink .u1 { upLink with peerNeg := some { profile := 1, linkRevs := 0, mirRevs := 0, features := 0, domain := 0, node := 0, port := 1 } } with mir := { epoch := 3, pstate := .paired }, map := { rt := [(5, 0x00080007), (6, 0x00080008)] } }
    |> fun s : State => ((s.setReg (Reg.LNK_FEAT 4) 0xFFFFFFFF).setFld Fld.CLK_STAT.MPLL_LOCK 1).setFld
    Fld.CLK_STAT.CPLL_LOCK 1), 7, 3, 721, canonOf (by decide +kernel), by decide +kernel⟩,
   ⟨({ (linked .service).setLink .u1 { upLink with peerNeg := some { profile := 1, linkRevs := 0, mirRevs := 0, features := 0, domain := 0, node := 0, port := 1 } } with mir := { epoch := 3, pstate := .paired }, map := { rt := [(5, 0x00080007), (6, 0x00080008)] } }
    |> fun s : State => ((s.setReg (Reg.LNK_FEAT 4) 0xFFFFFFFF).setFld Fld.CLK_STAT.MPLL_LOCK 1).setFld
    Fld.CLK_STAT.CPLL_LOCK 1), 7, 3, 24, canonOf (by decide +kernel), by decide +kernel⟩⟩

/-- What each clause of `Obligations.RefusedAccessesNoted` asks for can be met. -/
theorem test_witness_refused_accesses_noted :
    (∃ (s : State) (path : AccPath) (addr : BitVec 24), s.canon ∧ s.accessOpen path = true) ∧
    (∃ (s : State) (path : AccPath) (addr : BitVec 24) (data : Word), s.canon ∧ s.accessOpen path = true ∧ s.triggered = false) ∧
    (∃ (s : State) (p : Port) (mtag : BitVec 4) (addr : BitVec 24), s.canon ∧ s.pathOpen (.mgt p mtag) = true) ∧
    (∃ (s : State) (p : Port) (mtag : BitVec 4) (addr : BitVec 24) (data : Word), s.canon ∧ s.pathOpen (.mgt p mtag) = true ∧
      s.triggered = false) ∧
    (∃ (s : State) (addr : BitVec 24) (count : Byte), s.canon ∧ s.accessOpen .sideband = true ∧ count = 1) ∧
    (∃ (s : State) (addr : BitVec 24) (data : Word), s.canon ∧ s.accessOpen .sideband = true) :=
  ⟨⟨linked .service, .sideband, 2, canonOf (by decide +kernel), by decide +kernel⟩,
   ⟨linked .service, .sideband, 2, 0, canonOf (by decide +kernel), by decide +kernel⟩,
   ⟨linked .service, .u1, 3, 2, canonOf (by decide +kernel), by decide +kernel⟩,
   ⟨linked .service, .u1, 3, 2, 0, canonOf (by decide +kernel), by decide +kernel⟩,
   ⟨linked .service, 2, 1, canonOf (by decide +kernel), by decide +kernel⟩,
   ⟨linked .service, 2, 0, canonOf (by decide +kernel), by decide +kernel⟩⟩

/-- What each clause of `Obligations.ReplicaNumbering` asks for can be met. -/
theorem test_witness_replica_numbering :
    (∃ (s : State), s.canon ∧ Tab.get (fun _ => none) s.mir.pend ((s.twin.txCount + 1) % 4096) ≠ none) ∧
    (∃ (s : State) (i : Nat) (rest : List Nat) (e : PoolEntry), s.canon ∧ s.ord.backlog = i :: rest ∧ s.underShare = false ∧
      s.canFork = true ∧ s.entry i = some e) :=
  ⟨⟨{ linked .service with mir := { pstate := .paired, epoch := 3, pend := [(1, some { state := .sent, rnum := 1, fork := 1, pair := 0x40, gran := 9, opened := 0 })] }, ord := { backlog := [0], pool := [(0, some { kind := .write })] } },
    canonOf (by decide +kernel), by decide +kernel⟩,
   ⟨{ linked .service with mir := { pstate := .paired, epoch := 3 }, ord := { backlog := [0, 1], pool := [(0, some { kind := .write, forkNo := 4 })] } },
    0, [1], { kind := .write, forkNo := 4 }, canonOf (by decide +kernel), by decide +kernel⟩⟩

/-- What each clause of `Obligations.BadFlitsUnused` asks for can be met. -/
theorem test_witness_bad_flits_unused :
    (∃ (s : State) (p : Port) (bytes : List Byte), s.canon ∧ ((s.link p).lstate = .init ∨ (s.link p).lstate = .service) ∧
      flitGood (fecDecode bytes).1 = false) ∧
    (∃ (s : State) (p : Port) (bytes : List Byte), s.canon ∧ ((s.link p).lstate = .init ∨ (s.link p).lstate = .service) ∧
      flitGood (fecDecode bytes).1 = true ∧ (headerOf (fecDecode bytes).1).kind ≠ 3) ∧
    (∃ bytes other : List Byte, bytes ≠ other ∧ flitGood (fecDecode bytes).1 = false ∧ flitGood (fecDecode other).1 = false ∧
      (fecDecode bytes).2 = (fecDecode other).2) :=
  ⟨⟨((coreIn .service).setLink .u1 { upLink with exp := 7 }).setLink .t { upLink with exp := 7 }, .u1, List.replicate 256 0x11,
    canonOf (by decide +kernel), by decide +kernel⟩,
   ⟨((coreIn .service).setLink .u1 { upLink with exp := 7 }).setLink .t { upLink with exp := 7 }, .u1, flitSeal (headerBytes
    { kind := 0, slotMap := 0, pln := false, replay := false, ackv := false, seq := 7, ack := 0, nak := false } ++
    List.replicate 240 0), canonOf (by decide +kernel), by decide +kernel⟩,
   ⟨List.replicate 256 0x11, List.replicate 256 0x22, by decide +kernel⟩⟩

/-- What each clause of `Obligations.AccessesWaitRun` asks for can be met. -/
theorem test_witness_accesses_wait_run :
    (∃ (s : State) (path : AccPath), s.canon ∧ s.pathLive path = true ∧ s.portBusy path = true) ∧
    (∃ (s : State) (path : AccPath), s.canon ∧ s.pathLive path = true ∧ s.portBusy path = true) ∧
    (∃ (s : State) (path : AccPath), s.canon ∧ s.pathLive path = true ∧ s.portBusy path = true) ∧
    (∃ (s : State) (path : AccPath), s.canon ∧ s.pathLive path = true ∧ s.portBusy path = true) ∧
    (∃ (s : State) (path : AccPath), s.canon ∧ s.pathLive path = true ∧ s.portBusy path = true) ∧
    (∃ (s : State) (path : AccPath), s.canon ∧ s.pathLive path = true ∧ s.portBusy path = true) ∧
    (∃ (s : State) (path : AccPath) (sc : Fin 16), s.canon ∧ s.pathLive path = true ∧ s.portBusy path = true) ∧
    (∃ (s : State) (path : AccPath), s.canon ∧ s.pathLive path = true ∧ s.portBusy path = true) ∧
    (∃ (s : State) (path : AccPath), s.canon ∧ s.pathLive path = true ∧ s.portBusy path = true) ∧
    (∃ (s : State) (path : AccPath) (addr : BitVec 24), s.canon ∧ s.pathLive path = true ∧ s.portBusy path = true) ∧
    (∃ (s : State) (path : AccPath) (addr : BitVec 24) (data : Word), s.canon ∧ s.pathLive path = true ∧ s.portBusy path = true) ∧
    (∃ (s : State) (path : AccPath) (data : Word), s.canon ∧ s.pathLive path = true ∧ s.portBusy path = true) ∧
    (∃ (s : State) (path : AccPath) (data : Word), s.canon ∧ s.pathLive path = true ∧ s.portBusy path = true) ∧
    (∃ (s : State) (path : AccPath) (data : Word), s.canon ∧ s.pathLive path = true ∧ s.portBusy path = true) ∧
    (∃ (s : State) (path : AccPath) (data : Word), s.canon ∧ s.pathLive path = true ∧ s.portBusy path = true) ∧
    (∃ (s : State) (path : AccPath) (sc : Fin 16) (data : Word), s.canon ∧ s.pathLive path = true ∧ s.portBusy path = true) ∧
    (∃ (s : State) (path : AccPath), s.canon ∧ s.pathLive path = true ∧ s.portBusy path = true) ∧
    (∃ (s : State) (path : AccPath), s.canon ∧ s.pathLive path = true ∧ s.portBusy path = true) ∧
    (∃ (s : State) (path : AccPath), s.canon ∧ s.pathLive path = true ∧ s.portBusy path = true) ∧
    (∃ (s : State) (path : AccPath), s.canon ∧ s.pathLive path = true ∧ s.portBusy path = true) ∧
    (∃ (s : State) (path : AccPath) (code : BitVec 4), s.canon ∧ s.pathLive path = true ∧ s.portBusy path = true) ∧
    (∃ (s : State) (slot : BitVec 2) (dest : BitVec 2), s.canon ∧ s.pathLive .core = true ∧ s.portBusy .core = true) ∧
    (∃ (s : State) (slot : BitVec 2) (dest : BitVec 2), s.canon ∧ s.pathLive .core = true ∧ s.portBusy .core = true) ∧
    (∃ (s : State) (data : Word), s.canon ∧ s.pathLive .core = true ∧ s.portBusy .core = true) ∧
    (∃ (s : State) (addr : BitVec 24) (count : Byte), s.canon ∧ s.sbAnswers = true ∧ 0 < count.toNat ∧ count.toNat ≤ 16 ∧
      s.portBusy .sideband = true) ∧
    (∃ (s : State) (addr : BitVec 24) (data : Word), s.canon ∧ s.sbAnswers = true ∧ s.portBusy .sideband = true) ∧
    (∃ (s : State) (dcode : Byte) (epoch : Word) (arg : BitVec 64), s.canon ∧ s.sbAnswers = true ∧ (s.mgtDirective dcode.toNat =
      true ∨ s.sb.arb.any (fun q => q.path == .sideband) = true)) :=
  ⟨⟨{ (linked .service) with pending := [.mgtRead .u1 3 0], sb := { (linked .service).sb with arb := (if 0 % 3 = 1 then [{ path := .sideband, addr := 4 }] else []) } },
    (if 0 % 2 = 0 then .sideband else .core), canonOf (by decide +kernel), by decide +kernel⟩,
   ⟨{ (linked .service) with pending := [.mgtRead .u1 3 0], sb := { (linked .service).sb with arb := (if 0 % 3 = 1 then [{ path := .sideband, addr := 4 }] else []) } },
    (if 0 % 2 = 0 then .sideband else .core), canonOf (by decide +kernel), by decide +kernel⟩,
   ⟨{ (linked .service) with pending := [.mgtRead .u1 3 0], sb := { (linked .service).sb with arb := (if 0 % 3 = 1 then [{ path := .sideband, addr := 4 }] else []) } },
    (if 0 % 2 = 0 then .sideband else .core), canonOf (by decide +kernel), by decide +kernel⟩,
   ⟨{ (linked .service) with pending := [.mgtRead .u1 3 0], sb := { (linked .service).sb with arb := (if 0 % 3 = 1 then [{ path := .sideband, addr := 4 }] else []) } },
    (if 0 % 2 = 0 then .sideband else .core), canonOf (by decide +kernel), by decide +kernel⟩,
   ⟨{ (linked .service) with pending := [.mgtRead .u1 3 0], sb := { (linked .service).sb with arb := (if 0 % 3 = 1 then [{ path := .sideband, addr := 4 }] else []) } },
    (if 0 % 2 = 0 then .sideband else .core), canonOf (by decide +kernel), by decide +kernel⟩,
   ⟨{ (linked .service) with pending := [.mgtRead .u1 3 0], sb := { (linked .service).sb with arb := (if 0 % 3 = 1 then [{ path := .sideband, addr := 4 }] else []) } },
    (if 0 % 2 = 0 then .sideband else .core), canonOf (by decide +kernel), by decide +kernel⟩,
   ⟨{ (linked .service) with pending := [.mgtRead .u1 3 0], sb := { (linked .service).sb with arb := (if 0 % 3 = 1 then [{ path := .sideband, addr := 4 }] else []) } },
    (if 0 % 2 = 0 then .sideband else .core), 2, canonOf (by decide +kernel), by decide +kernel⟩,
   ⟨{ (linked .service) with pending := [.mgtRead .u1 3 0], sb := { (linked .service).sb with arb := (if 0 % 3 = 1 then [{ path := .sideband, addr := 4 }] else []) } },
    (if 0 % 2 = 0 then .sideband else .core), canonOf (by decide +kernel), by decide +kernel⟩,
   ⟨{ (linked .service) with pending := [.mgtRead .u1 3 0], sb := { (linked .service).sb with arb := (if 0 % 3 = 1 then [{ path := .sideband, addr := 4 }] else []) } },
    (if 0 % 2 = 0 then .sideband else .core), canonOf (by decide +kernel), by decide +kernel⟩,
   ⟨{ (linked .service) with pending := [.mgtRead .u1 3 0], sb := { (linked .service).sb with arb := (if 0 % 3 = 1 then [{ path := .sideband, addr := 4 }] else []) } },
    (if 0 % 2 = 0 then .sideband else .core), 5, canonOf (by decide +kernel), by decide +kernel⟩,
   ⟨{ (linked .service) with pending := [.mgtRead .u1 3 0], sb := { (linked .service).sb with arb := (if 0 % 3 = 1 then [{ path := .sideband, addr := 4 }] else []) } },
    (if 0 % 2 = 0 then .sideband else .core), 5, 9, canonOf (by decide +kernel), by decide +kernel⟩,
   ⟨{ (linked .service) with pending := [.mgtRead .u1 3 0], sb := { (linked .service).sb with arb := (if 0 % 3 = 1 then [{ path := .sideband, addr := 4 }] else []) } },
    (if 0 % 2 = 0 then .sideband else .core), 9, canonOf (by decide +kernel), by decide +kernel⟩,
   ⟨{ (linked .service) with pending := [.mgtRead .u1 3 0], sb := { (linked .service).sb with arb := (if 0 % 3 = 1 then [{ path := .sideband, addr := 4 }] else []) } },
    (if 0 % 2 = 0 then .sideband else .core), 9, canonOf (by decide +kernel), by decide +kernel⟩,
   ⟨{ (linked .service) with pending := [.mgtRead .u1 3 0], sb := { (linked .service).sb with arb := (if 0 % 3 = 1 then [{ path := .sideband, addr := 4 }] else []) } },
    (if 0 % 2 = 0 then .sideband else .core), 9, canonOf (by decide +kernel), by decide +kernel⟩,
   ⟨{ (linked .service) with pending := [.mgtRead .u1 3 0], sb := { (linked .service).sb with arb := (if 0 % 3 = 1 then [{ path := .sideband, addr := 4 }] else []) } },
    (if 0 % 2 = 0 then .sideband else .core), 9, canonOf (by decide +kernel), by decide +kernel⟩,
   ⟨{ (linked .service) with pending := [.mgtRead .u1 3 0], sb := { (linked .service).sb with arb := (if 0 % 3 = 1 then [{ path := .sideband, addr := 4 }] else []) } },
    (if 0 % 2 = 0 then .sideband else .core), 2, 9, canonOf (by decide +kernel), by decide +kernel⟩,
   ⟨{ (linked .service) with pending := [.mgtRead .u1 3 0], sb := { (linked .service).sb with arb := (if 0 % 3 = 1 then [{ path := .sideband, addr := 4 }] else []) } },
    (if 0 % 2 = 0 then .sideband else .core), canonOf (by decide +kernel), by decide +kernel⟩,
   ⟨{ (linked .service) with pending := [.mgtRead .u1 3 0], sb := { (linked .service).sb with arb := (if 0 % 3 = 1 then [{ path := .sideband, addr := 4 }] else []) } },
    (if 0 % 2 = 0 then .sideband else .core), canonOf (by decide +kernel), by decide +kernel⟩,
   ⟨{ (linked .service) with pending := [.mgtRead .u1 3 0], sb := { (linked .service).sb with arb := (if 0 % 3 = 1 then [{ path := .sideband, addr := 4 }] else []) } },
    (if 0 % 2 = 0 then .sideband else .core), canonOf (by decide +kernel), by decide +kernel⟩,
   ⟨{ (linked .service) with pending := [.mgtRead .u1 3 0], sb := { (linked .service).sb with arb := (if 0 % 3 = 1 then [{ path := .sideband, addr := 4 }] else []) } },
    (if 0 % 2 = 0 then .sideband else .core), canonOf (by decide +kernel), by decide +kernel⟩,
   ⟨{ (linked .service) with pending := [.mgtRead .u1 3 0], sb := { (linked .service).sb with arb := (if 0 % 3 = 1 then [{ path := .sideband, addr := 4 }] else []) } },
    (if 0 % 2 = 0 then .sideband else .core), 9, canonOf (by decide +kernel), by decide +kernel⟩,
   ⟨{ (linked .service) with pending := [.mgtRead .u1 3 0], sb := { (linked .service).sb with arb := (if 0 % 3 = 1 then [{ path := .sideband, addr := 4 }] else []) } },
    1, 2, canonOf (by decide +kernel), by decide +kernel⟩,
   ⟨{ (linked .service) with pending := [.mgtRead .u1 3 0], sb := { (linked .service).sb with arb := (if 0 % 3 = 1 then [{ path := .sideband, addr := 4 }] else []) } },
    1, 2, canonOf (by decide +kernel), by decide +kernel⟩,
   ⟨{ (linked .service) with pending := [.mgtRead .u1 3 0], sb := { (linked .service).sb with arb := (if 0 % 3 = 1 then [{ path := .sideband, addr := 4 }] else []) } },
    9, canonOf (by decide +kernel), by decide +kernel⟩,
   ⟨{ (linked .service) with pending := [.mgtRead .u1 3 0], sb := { (linked .service).sb with arb := (if 0 % 3 = 1 then [{ path := .sideband, addr := 4 }] else []) } },
    5, 2, canonOf (by decide +kernel), by decide +kernel⟩,
   ⟨{ (linked .service) with pending := [.mgtRead .u1 3 0], sb := { (linked .service).sb with arb := (if 0 % 3 = 1 then [{ path := .sideband, addr := 4 }] else []) } },
    5, 2, canonOf (by decide +kernel), by decide +kernel⟩,
   ⟨{ (linked .service) with pending := [.directiveScrubRate { port := .u1, mtag := 2, epoch := 3 } 5], sb := { (linked .service).sb with arb := (if 0 % 3 = 1 then [{ path := .sideband, addr := 4 }] else []) } },
    7, 3, 8, canonOf (by decide +kernel), by decide +kernel⟩⟩

/-- What the general obligations ask for can be met. -/
theorem test_witness_empty_queue_takes_crossing_or_ticks :
    (∃ (s : State) (q : ArbReq), s.pending = [] ∧ ((s.sb.arb.find? fun x => x.path == .sideband) <|> s.sb.arb.head?) = some q) ∧
    (∃ (s : State) (p : Port) (c : Instr) (r : List RxItem), s.pending = [] ∧ s.sb.arb = [] ∧ s.rx = .cmd p c :: r) ∧
    (∃ (s : State) (p : Port) (r : List RxItem), s.pending = [] ∧ s.sb.arb = [] ∧ s.rx = .flitEnd p :: r) ∧
    (∃ (s : State) (c : Nat × Word) (rest : List (Nat × Word)), s.pending = [] ∧ s.sb.arb = [] ∧ s.rx = [] ∧ s.canon ∧
      s.pwr.stop = [] ∧ s.top.coreOn = true ∧ s.cal.bar = [] ∧ s.map.turn = c :: rest ∧ s.ord.agentQ = [] ∧ 2 ≤ s.agentRoom) ∧
    (∃ s : State, s.pending = [] ∧ s.sb.arb = [] ∧ s.rx = [] ∧ s.canon ∧ s.pwr.stop = [] ∧ s.top.coreOn = true ∧ s.cal.bar = [] ∧
      s.map.turn = []) ∧
    (∃ s : State, s.pending = [] ∧ s.sb.arb = [] ∧ s.rx = [] ∧ s.canon ∧ s.pwr.stop = [] ∧ s.top.coreOn = false) :=
  ⟨⟨{ coreIn .service with sb := { arb := [{ path := .core, addr := 0x10 }, { path := .sideband, addr := 0x14 }] } },
    { path := .sideband, addr := 0x14 }, rfl, by decide⟩,
   ⟨{ State.reset with rx := [.cmd .u2 .calmEntry] }, .u2, .calmEntry, [], rfl, rfl, rfl⟩,
   ⟨{ State.reset with rx := [.flitEnd .t] }, .t, [], rfl, rfl, rfl⟩,
   ⟨{ coreIn .service with map := { turn := [(5, 7), (6, 8)] } }, (5, 7), [(6, 8)], rfl, rfl, rfl, canonOf (by decide +kernel), rfl,
    rfl, rfl, rfl, rfl, by decide +kernel⟩,
   ⟨coreIn .service, rfl, rfl, rfl, canonOf (by decide +kernel), rfl, rfl, rfl, rfl⟩,
   ⟨State.reset, rfl, rfl, rfl, canonOf (by decide +kernel), rfl, rfl⟩⟩

theorem test_witness_every_command_completes : ∃ s : State, s.canon := ⟨linked .service, canonOf (by decide +kernel)⟩

theorem test_witness_steps_keep_canonical_form :
    ∃ s t : State, s.canon ∧ s.pending ≠ [] ∧ step s = .next t :=
  ⟨{ linked .service with pending := [.sensorCool] }, _, canonOf (by decide +kernel), by decide +kernel, rfl⟩

theorem test_witness_queue_runs_in_order : ∃ (s : State) (c : Instr) (r : List Instr), s.canon ∧ s.pending = c :: r :=
  ⟨{ linked .service with pending := [.sensorCool, .calmEntry] }, .sensorCool, [.calmEntry], canonOf (by decide +kernel), rfl⟩

theorem test_witness_link_messages_read_back :
    (∃ tags : List (BitVec 12), tags ≠ [] ∧ tags.length ≤ 9 ∧ tags.length = 9) ∧
    (∃ (form : BitVec 3) (reason : Byte), form.toNat ≤ 5 ∧ reason ≠ 0 ∧ reason.toNat ≤ 9) ∧
    (∃ miss : Byte, miss ≠ 0 ∧ miss.toNat ≤ 4) ∧
    (∃ (m : RebuildMsg) (cmd : Byte), m.wellFormed = true ∧ m.sess = true ∧ cmd ≠ 0 ∧ cmd.toNat ≤ 5) ∧
    (∃ pstate : BitVec 3, pstate.toNat ≤ 5) :=
  ⟨⟨List.replicate 9 0xFFF, by decide⟩, ⟨5, 9, by decide⟩, ⟨4, by decide⟩,
   ⟨{ mtag := 15, share := 100, epoch := 3, cursor := 0x7FFFFFE, sess := true }, 5, by decide⟩, ⟨5, by decide⟩⟩

theorem test_witness_host_messages_read_back : ∃ p : Port, p ≠ .t := ⟨.u3, by decide⟩

theorem test_witness_flits_read_back :
    (∃ (h : FlitHeader) (a b c : Slot),
      [a, b, c].all (fun x => match x with | .data _ => true | .msgs l => l.length == 5) = true ∧ h.slotMap = slotMapOf [a, b, c]) ∧
    (∃ b : List Byte, b.length = 244) :=
  ⟨⟨{ kind := 0, slotMap := 2, pln := true, replay := false, ackv := true, seq := 0x3FF, ack := 1, nak := true },
    .msgs (List.replicate 5 7),
    .data { line := 5, lseal := 6, tag := 3, form := 2, poison := true, stream := 7, ext := 8 }, .msgs (List.replicate 5 0),
    by decide⟩, ⟨List.replicate 244 0, by decide⟩⟩

/-! ### Ill-formed commands are refused by the check -/

theorem test_ill_formed_paths_and_ports :
    [Instr.read .t { tag := 0, acc := false, stream := 0, addr := 0 }, .writeA .t { tag := 0, acc := false, stream := 0, addr := 0 },
      .writeD .t { tag := 0, acc := false, stream := 0, addr := 0 }, .mwriteA .t { tag := 0, acc := false, stream := 0, addr := 0 },
      .mwriteD .t { tag := 0, acc := false, stream := 0, addr := 0 }, .flush .t { tag := 0, acc := false, stream := 0, addr := 0 },
      .stillReq .t, .completionSend .t, .mgtRead .t 0 0, .mgtWrite .t 0 0 0, .timeBeacon .t false 0 0,
      .flashRead (.mgt .t 0), .flashUnknownCommand .core 3, .ordStrrec0Read (.mgt .t 1), .registerWrite (.mgt .t 0) 0 0].map
      Instr.wellFormed = List.replicate 15 false := by decide

theorem test_ill_formed_lists :
    [Instr.aonDomainStart false 0 [{ word := 0xFF, normal := 0, tight := 0 }], .startSectionComplete { bands := [0, 0, 0], supply := true },
      .adcConversion (List.replicate 15 0) 0, .bootComplete [], .flitReceived .u0 (List.replicate 255 0), .ackLines [],
      .ackLines (List.replicate 10 1), .mr4Poll 0 0 [], .readDataDecode 0 (List.replicate 79 0), .calEval [],
      .calMeasureDone 0 { bits := [], rcvEn := [], segs := [] }, .breezeStep 0 [40], .trainStepDone 0 0 (.devices []),
      .trainStepDone 0 0 (.level (some []))].map Instr.wellFormed = List.replicate 14 false := by decide

theorem test_ill_formed_findings :
    [Instr.trainStepDone 0 0 (.caCs (some ([], [], []))), .trainStepDone 0 0 (.readSweep (some ([], [], []))),
      .trainStepDone 0 0 (.writeSweep (some []))].map Instr.wellFormed = List.replicate 3 false ∧
    ∀ f : ScratchCheck, f.read.length = 39 →
      [Instr.trainStepDone 0 0 (.check f), .trainStepDone 0 0 (.restoreCheck (List.replicate 40 []) (List.replicate 10 0) f)].map
        Instr.wellFormed = [false, false] := by
  refine ⟨by decide, fun f h => ?_⟩
  simp [Instr.wellFormed, TrainFind.wellFormed, h]

theorem test_ill_formed_fields :
    [Instr.marginGo .u0 0x3FFF, .unknownMessage .t 0x100, .overrun .t (.request .read { tag := 0, acc := false, stream := 0, addr := 0 }),
      .overrun .u0 (.repair 0 0 0), .replicaRej 0 6 1 0 0, .replicaRej 0 0 0 0 0, .replicaRej 0 0 10 0 0, .repairMiss 0 0 0 0,
      .repairMiss 0 5 0 0, .heartbeat 6 0 0 0, .eventCapture 0xE000 0, .directiveLull { port := .t, mtag := 0, epoch := 0 } 0,
      .directiveUnknown { port := .u0, mtag := 0, epoch := 0 } 11 0,
      .rebuildCtlStartSession { mtag := 0, share := 0, epoch := 0, cursor := 0x7FFFFFF, sess := false },
      .rebuildCtlStartGranule { mtag := 0, share := 0, epoch := 0, cursor := 0x7FFFFFF, sess := true },
      .rebuildCtlCursor { mtag := 0, share := 101, epoch := 0, cursor := 0, sess := false },
      .rebuildCtlPace { mtag := 0, share := 0, epoch := 0, cursor := 5, sess := true },
      .rebuildCtlAnswer 6 { mtag := 0, share := 0, epoch := 0, cursor := 0, sess := false }].map Instr.wellFormed =
      List.replicate 18 false := by decide

theorem test_ill_formed_slots :
    [Instr.replicaSlot { line := 0, lseal := 0, tag := 0, form := 4, poison := false, stream := 0, ext := 0 },
      .rebuildLineSlot { line := 0, lseal := 0, tag := 0, form := 4, poison := false, stream := 0, ext := 0 },
      .repairLineSlot { line := 0, lseal := 0, tag := 0, form := 5, poison := false, stream := 0, ext := 0 }].map
      Instr.wellFormed = [false, false, false] := by decide

/-! ### The manual's worked examples -/

/-- The full population: 16 sub-channels, 2 ranks, 64 Gb dies stacked 16 high (the worked example of one line to its bank). -/
def fullHub : State :=
  ((((coreIn .service).setFld Fld.MAP_GEOM.SC_BITS 4).setFld Fld.MAP_GEOM.RANK_BITS 1).setFld Fld.MAP_GEOM.DIE_BITS 4).setFld
    Fld.MAP_GEOM.DENSITY 3

/-- One line to its bank: pair address 0x0A4F3C2B57C0 is line 0xF0AD5F of region 10,556, mapped to local region 1,234. -/
theorem test_worked_line_to_bank :
    (0x0A4F3C2B57C0 >>> 30, (0x0A4F3C2B57C0 >>> 6) % 2 ^ 24) = (10556, 0xF0AD5F) ∧
    fullHub.scOf (1234 * 2 ^ 24 + 0xF0AD5F) = 5 ∧
    fullHub.locOf (1234 * 2 ^ 24 + 0xF0AD5F) = { rank := 0, die := 8, bg := 4, bank := 0, col := 0x56, row := 0b000010011010010111 } := by
  decide +kernel

/-- The same hub with its ranks trained. -/
def trainedHub : State := { fullHub with flt := { ranks := (List.range 32).map fun p => (p, { trained := true }) } }

/-- A scrub rate over SMBus: `HOURS` = 48 is taken and the interval recomputed to 2,011. -/
theorem test_worked_scrub_rate :
    (match exec (.sbDirective 7 0 48) trainedHub with
     | .next t => (t.sb.answer, t.viewReg Reg.SCH_SCRUBCFG, t.viewReg Reg.SCH_SCRUBINT, t.viewReg Reg.GLB_DIRSTAT)
     | _ => ([], 0, 0, 0)) = ([0, 0, 0, 0, 0], 0x00000030, 0x000007DB, 0x07004000) := by decide +kernel

/-- `HOURS` = 800 is answered `PRECONDITION`. -/
theorem test_worked_scrub_rate_refused :
    (match exec (.sbDirective 7 0 800) trainedHub with
     | .next t => (t.sb.answer.headD 0, t.viewReg Reg.GLB_DIRSTAT)
     | _ => (0, 0)) = (4, 0x07044000) := by decide +kernel

/-- Three copies of a fuse word. -/
def copies (w : Nat) (a b c : Word × Word) : List FuseSense :=
  [⟨BitVec.ofNat 8 w, a.1, a.2⟩, ⟨BitVec.ofNat 8 (w + 85), b.1, b.2⟩, ⟨BitVec.ofNat 8 (w + 170), c.1, c.2⟩]

/-- An interrupted advance: the copies of word 13 disagree, so it takes 0 and the counter is 32. -/
theorem test_worked_interrupted_advance :
    (match exec (.aonDomainStart true 1 (copies 11 (1, 1) (1, 1) (1, 1) ++ copies 17 (1, 1) (1, 1) (1, 1) ++
        copies 12 (0xFFFFFFFF, 0xFFFFFFFF) (0xFFFFFFFF, 0xFFFFFFFF) (0xFFFFFFFF, 0xFFFFFFFF) ++
        copies 13 (0x1FF, 0x1FF) (0x1FF, 0xFF) (0xFF, 0xFF))) State.reset with
     | .next t => (t.fld Fld.MGT_ROLLBACK.COUNTER, t.viewReg Reg.MGT_FUSESTAT)
     | _ => (0, 0)) = (32, 0x01010D03) := by decide +kernel

/-- The hub of the holdover example, 600 s after its last beacon and 7.2 ms ahead: U0 alone may be the time port. -/
def holdoverHub : State :=
  ((({ (coreIn .service).setLink .u0 upLink with
    time := { tb := 600007200006 <<< 32, prevApplied := true, holdover := true },
    log := (coreIn .service).log.setOpen 1 true }).setFld Fld.TIM_CFG.PORTMASK 1).setFld Fld.TIM_STAT.OFFSET_EPOCH 3).setFld
    Fld.TIM_STAT.SRC 0

/-- Holdover and return: a beacon after 600 s. -/
theorem test_worked_holdover_return :
    (match exec (.timeBeacon .u0 false 3 600000000000) holdoverHub with
     | .next t => (t.viewReg Reg.TIM_LASTERR, t.viewReg Reg.TIM_RATE, t.log.ring.map fun e : RingEntry => (e.code, e.data))
     | _ => (0, 0, [])) = (0xFF922300, 0x0000B1E0, [(0xC003, 596)]) := by decide +kernel

/-! ### Layouts and constants of the manual -/

/-- `ACK_RANGE` (R97): opcode 0x41, the epoch in bytes 4 to 7 and `THROUGH` in bytes 8 to 11. -/
theorem test_ack_range_layout : mkAckRange 0x01020304 0x0A0B0C0D = 0x000000000A0B0C0D0102030400000041 := by decide +kernel

/-- The BCR and the DCR of the I3C target (R514). -/
theorem test_bcr_dcr :
    (match exec .cccGetbcr { State.reset with sb := { State.reset.sb with smbus := false, dynAddr := some 9 } } with
     | .next t => t.sb.cccOut | _ => []) = [0x0E] ∧
    (match exec .cccGetdcr { State.reset with sb := { State.reset.sb with smbus := false, dynAddr := some 9 } } with
     | .next t => t.sb.cccOut | _ => []) = [0x00] := by decide +kernel

/-- CRC-32C of the nine digits, the check value of the polynomial that R319 names. -/
theorem test_crc32c_check : crc32c [0x31, 0x32, 0x33, 0x34, 0x35, 0x36, 0x37, 0x38, 0x39] = 0xE3069283 := by decide +kernel

/-- A directive with `DCODE` 12 is unknown (R91), and a trigger makes a known one answer `POWER_LOSS`. -/
theorem test_directive_statuses :
    (match exec (.directiveUnknown { port := .u1, mtag := 2, epoch := 0 } 12 0) (linked .service) with
     | .next t => t.viewReg Reg.GLB_DIRSTAT | _ => 0) = 0x0C071000 ∧
    (match exec (.directiveScrubRate { port := .u1, mtag := 2, epoch := 0 } 24)
        { linked .service with top := { (linked .service).top with trigger := some 1 } } with
     | .next t => t.viewReg Reg.GLB_DIRSTAT | _ => 0) = 0x07061000 := by decide +kernel

/-- After reset the hub is in `AON`, come from `OFF`, with cause 1 (R23, R527). -/
theorem test_reset_state : State.reset.viewReg Reg.GLB_STATE = 0x00000102 ∧ State.reset.pending = [] := by decide +kernel

/-- A command at the front of the queue runs, and the rest waits (R29). -/
theorem test_step_takes_front :
    (match step { linked .service with pending := [.sensorCool, .calmEntry] } with
     | .next t => (t.pending, t.log.ring.map fun e : RingEntry => e.code) | _ => ([], [])) = ([.calmEntry], [0x0009]) := by decide +kernel

end Sys2Proof.Tests
end

section
/-!
Every command completes, and within its own parts: the frame of each meaning lies within what `Instr.mayChange` lists for its command.
-/

namespace Sys2Proof.Machine

theorem KeepsOut.mono {P Q : List Part} {s : State} {o : Host.Outcome State Fault Refusal} (k : KeepsOut Q s o)
    (h : partsWithin Q P = true) : KeepsOut P s o := fun t e => (k t e).mono h

/-- No arm of `exec` faults or refuses (log entry 4). -/
theorem exec_next (c : Instr) (s : State) : ∃ t, exec c s = .next t := by
  cases c <;> exact ⟨_, rfl⟩

/-- The frame of each meaning lies within the parts of its command. -/
theorem exec_keepsOut (c : Instr) (s : State) : KeepsOut c.mayChange s (exec c s) := by
  cases c with
  | vbatApplied => exact (execVbatApplied_keeps s).mono rfl
  | vbatRemoved => exact (execVbatRemoved_keeps s).mono rfl
  | allSourcesLost => exact (execAllSourcesLost_keeps s).mono rfl
  | aonDomainStart smbus sbaddr fuses => exact (execAonDomainStart_keeps smbus sbaddr fuses s).mono rfl
  | aonDomainStop => exact (execAonDomainStop_keeps s).mono rfl
  | vbatSwitchover toVbat => exact (execVbatSwitchover_keeps toVbat s).mono rfl
  | feedEntersWindow f => exact (execFeedEntersWindow_keeps f s).mono rfl
  | feedQualified f => exact (execFeedQualified_keeps f s).mono rfl
  | feedOutOfWindow f => exact (execFeedOutOfWindow_keeps f s).mono rfl
  | veerOldGateOff => exact (execVeerOldGateOff_keeps s).mono rfl
  | veerReturn => exact (execVeerReturn_keeps s).mono rfl
  | plwNAssert ch => exact (execPlwNAssert_keeps ch s).mono rfl
  | plwNRelease ch => exact (execPlwNRelease_keeps ch s).mono rfl
  | plwDiscrepancyTimeout => exact (execPlwDiscrepancyTimeout_keeps s).mono rfl
  | powerLossTrigger => exact (execPowerLossTrigger_keeps s).mono rfl
  | gustWritesDrained => exact (execGustWritesDrained_keeps s).mono rfl
  | gustJournalWritten => exact (execGustJournalWritten_keeps s).mono rfl
  | gustHeaderWritten => exact (execGustHeaderWritten_keeps s).mono rfl
  | gustSelfRefresh => exact (execGustSelfRefresh_keeps s).mono rfl
  | calmEntry => exact (execCalmEntry_keeps s).mono rfl
  | calmFalseWarning => exact (execCalmFalseWarning_keeps s).mono rfl
  | vbbuCutoff => exact (execVbbuCutoff_keeps s).mono rfl
  | gaugePoll found => exact (execGaugePoll_keeps found s).mono rfl
  | holdupReadyChange silent => exact (execHoldupReadyChange_keeps silent s).mono rfl
  | restoreDramDone => exact (execRestoreDramDone_keeps s).mono rfl
  | journalReplayDone => exact (execJournalReplayDone_keeps s).mono rfl
  | restoreComplete => exact (execRestoreComplete_keeps s).mono rfl
  | startRowDelayEnd => exact (execStartRowDelayEnd_keeps s).mono rfl
  | railArmed rail => exact (execRailArmed_keeps rail s).mono rfl
  | railStartTimeout rail => exact (execRailStartTimeout_keeps rail s).mono rfl
  | resetStretchEnd k => exact (execResetStretchEnd_keeps k s).mono rfl
  | startSectionComplete found => exact (execStartSectionComplete_keeps found s).mono rfl
  | shutdownRowDone timedOut => exact (execShutdownRowDone_keeps timedOut s).mono rfl
  | railOutOfWindow rail above => exact (execRailOutOfWindow_keeps rail above s).mono rfl
  | adcConversion readings vbbu => exact (execAdcConversion_keeps readings vbbu s).mono rfl
  | bootRelease path data => exact (execBootRelease_keeps path data s).mono rfl
  | bootReleaseChecked found => exact (execBootReleaseChecked_keeps found s).mono rfl
  | faultRelease path data => exact (execFaultRelease_keeps path data s).mono rfl
  | coreRelease found => exact (execCoreRelease_keeps found s).mono rfl
  | bootComplete bands => exact (execBootComplete_keeps bands s).mono rfl
  | coreReset => exact (execCoreReset_keeps s).mono rfl
  | rollbackAdvance verified => exact (execRollbackAdvance_keeps verified s).mono rfl
  | directoryMarkGood => exact (execDirectoryMarkGood_keeps s).mono rfl
  | trainStepDone sc rank found => exact (execTrainStepDone_keeps sc rank found s).mono rfl
  | trainEnd header record => exact (execTrainEnd_keeps header record s).mono rfl
  | pairSettle => exact (execPairSettle_keeps s).mono rfl
  | joinUnsettledTimeout => exact (execJoinUnsettledTimeout_keeps s).mono rfl
  | linkTrainStart p => exact (execLinkTrainStart_keeps p s).mono rfl
  | linkTrainSettled p rate width reversed polinv => exact (execLinkTrainSettled_keeps p rate width reversed polinv s).mono rfl
  | linkTrainTimeout p lastStep => exact (execLinkTrainTimeout_keeps p lastStep s).mono rfl
  | negReceived p m => exact (execNegReceived_keeps p m s).mono rfl
  | negAckReceived p m => exact (execNegAckReceived_keeps p m s).mono rfl
  | negTimeout p => exact (execNegTimeout_keeps p s).mono rfl
  | flitReceived p bytes => exact (execFlitReceived_keeps p bytes s).mono rfl
  | nakTimeout p => exact (execNakTimeout_keeps p s).mono rfl
  | replayTimeout p => exact (execReplayTimeout_keeps p s).mono rfl
  | laneLockLost p => exact (execLaneLockLost_keeps p s).mono rfl
  | retrainDeferEnd p => exact (execRetrainDeferEnd_keeps p s).mono rfl
  | retrainFastFail p => exact (execRetrainFastFail_keeps p s).mono rfl
  | retrainComplete p rate width => exact (execRetrainComplete_keeps p rate width s).mono rfl
  | retrainTimeout p => exact (execRetrainTimeout_keeps p s).mono rfl
  | stillReq p => exact (execStillReq_keeps p s).mono rfl
  | stillResume p => exact (execStillResume_keeps p s).mono rfl
  | stillWake p reason => exact (execStillWake_keeps p reason s).mono rfl
  | marginGo p value => exact (execMarginGo_keeps p value s).mono rfl
  | marginStop p => exact (execMarginStop_keeps p s).mono rfl
  | unknownMessage p m => exact (execUnknownMessage_keeps p m s).mono rfl
  | overrun p item => exact (execOverrun_keeps p item s).mono rfl
  | read p r => exact (execRead_keeps p r s).mono rfl
  | writeA p r => exact (execWriteA_keeps p r s).mono rfl
  | writeD p r => exact (execWriteD_keeps p r s).mono rfl
  | mwriteA p r => exact (execMwriteA_keeps p r s).mono rfl
  | mwriteD p r => exact (execMwriteD_keeps p r s).mono rfl
  | flush p r => exact (execFlush_keeps p r s).mono rfl
  | hostDataSlot p d => exact (execHostDataSlot_keeps p d s).mono rfl
  | duplicateTag p op r => exact (execDuplicateTag_keeps p op r s).mono rfl
  | pairingWindowExpired p tag => exact (execPairingWindowExpired_keeps p tag s).mono rfl
  | mgtRead p mtag addr => exact (execMgtRead_keeps p mtag addr s).mono rfl
  | mgtWrite p mtag addr data => exact (execMgtWrite_keeps p mtag addr data s).mono rfl
  | timeBeacon p sync offsetEpoch timeNs => exact (execTimeBeacon_keeps p sync offsetEpoch timeNs s).mono rfl
  | credit p m => exact (execCredit_keeps p m s).mono rfl
  | creditSend p => exact (execCreditSend_keeps p s).mono rfl
  | mergePosition found => exact (execMergePosition_keeps found s).mono rfl
  | regionEntryReloaded region readable => exact (execRegionEntryReloaded_keeps region readable s).mono rfl
  | orderAdmit => exact (execOrderAdmit_keeps s).mono rfl
  | bitmapLineFill bitmapLine => exact (execBitmapLineFill_keeps bitmapLine s).mono rfl
  | forkReplica => exact (execForkReplica_keeps s).mono rfl
  | forkNotSent => exact (execForkNotSent_keeps s).mono rfl
  | scheduleDispatch sc => exact (execScheduleDispatch_keeps sc s).mono rfl
  | scheduleCycle sc => exact (execScheduleCycle_keeps sc s).mono rfl
  | powerDownExit sc rank => exact (execPowerDownExit_keeps sc rank s).mono rfl
  | entryAged sc index => exact (execEntryAged_keeps sc index s).mono rfl
  | refreshTick sc rank die => exact (execRefreshTick_keeps sc rank die s).mono rfl
  | mr4Poll sc rank reports => exact (execMr4Poll_keeps sc rank reports s).mono rfl
  | scrubReadDue sc => exact (execScrubReadDue_keeps sc s).mono rfl
  | readDataDecode sc errors => exact (execReadDataDecode_keeps sc errors s).mono rfl
  | completionSend p => exact (execCompletionSend_keeps p s).mono rfl
  | alertNLow sc => exact (execAlertNLow_keeps sc s).mono rfl
  | alertNHigh sc => exact (execAlertNHigh_keeps sc s).mono rfl
  | alertReplayDone sc => exact (execAlertReplayDone_keeps sc s).mono rfl
  | alertFailure sc => exact (execAlertFailure_keeps sc s).mono rfl
  | bucketLeak => exact (execBucketLeak_keeps s).mono rfl
  | retireConversionDone rank => exact (execRetireConversionDone_keeps rank s).mono rfl
  | spareCopyInterval => exact (execSpareCopyInterval_keeps s).mono rfl
  | spareCopyDone => exact (execSpareCopyDone_keeps s).mono rfl
  | replicaSlot d => exact (execReplicaSlot_keeps d s).mono rfl
  | rebuildLineSlot d => exact (execRebuildLineSlot_keeps d s).mono rfl
  | repairLineSlot d => exact (execRepairLineSlot_keeps d s).mono rfl
  | mask tag byteMask => exact (execMask_keeps tag byteMask s).mono rfl
  | ackRange epoch through => exact (execAckRange_keeps epoch through s).mono rfl
  | ackLines tags => exact (execAckLines_keeps tags s).mono rfl
  | replicaRej tag form reason epoch addr => exact (execReplicaRej_keeps tag form reason epoch addr s).mono rfl
  | ackIntervalExpiry => exact (execAckIntervalExpiry_keeps s).mono rfl
  | ackLinesSend => exact (execAckLinesSend_keeps s).mono rfl
  | ackTimeout => exact (execAckTimeout_keeps s).mono rfl
  | repairReq tag epoch addr => exact (execRepairReq_keeps tag epoch addr s).mono rfl
  | repairMiss tag miss epoch addr => exact (execRepairMiss_keeps tag miss epoch addr s).mono rfl
  | repairTimeout tag => exact (execRepairTimeout_keeps tag s).mono rfl
  | plnOnT flags admitCnt lastTag stamp => exact (execPlnOnT_keeps flags admitCnt lastTag stamp s).mono rfl
  | heartbeat pstate epoch sent stamp => exact (execHeartbeat_keeps pstate epoch sent stamp s).mono rfl
  | heartbeatSend => exact (execHeartbeatSend_keeps s).mono rfl
  | heartbeatMiss => exact (execHeartbeatMiss_keeps s).mono rfl
  | handoverRequest m => exact (execHandoverRequest_keeps m s).mono rfl
  | handoverForkMark region => exact (execHandoverForkMark_keeps region s).mono rfl
  | handoverDrained m => exact (execHandoverDrained_keeps m s).mono rfl
  | handoverTaken m => exact (execHandoverTaken_keeps m s).mono rfl
  | handoverRefused m => exact (execHandoverRefused_keeps m s).mono rfl
  | handoverTimeout region => exact (execHandoverTimeout_keeps region s).mono rfl
  | soloConversionDone => exact (execSoloConversionDone_keeps s).mono rfl
  | soloHoldEnd => exact (execSoloHoldEnd_keeps s).mono rfl
  | formatRegionDone => exact (execFormatRegionDone_keeps s).mono rfl
  | rebuildCtlStartSession m => exact (execRebuildCtlStartSession_keeps m s).mono rfl
  | rebuildCtlStartGranule m => exact (execRebuildCtlStartGranule_keeps m s).mono rfl
  | rebuildCtlCursor m => exact (execRebuildCtlCursor_keeps m s).mono rfl
  | rebuildCtlDone m => exact (execRebuildCtlDone_keeps m s).mono rfl
  | rebuildCtlStop m => exact (execRebuildCtlStop_keeps m s).mono rfl
  | rebuildCtlPace m => exact (execRebuildCtlPace_keeps m s).mono rfl
  | rebuildCtlAnswer cmd m => exact (execRebuildCtlAnswer_keeps cmd m s).mono rfl
  | rebuildWaitTimeout => exact (execRebuildWaitTimeout_keeps s).mono rfl
  | directiveLull h arg => exact (execDirectiveLull_keeps h arg s).mono rfl
  | directiveQuiesce h arg => exact (execDirectiveQuiesce_keeps h arg s).mono rfl
  | directiveHandover h arg => exact (execDirectiveHandover_keeps h arg s).mono rfl
  | directiveSoloGrant h arg => exact (execDirectiveSoloGrant_keeps h arg s).mono rfl
  | directiveRebuildStart h arg => exact (execDirectiveRebuildStart_keeps h arg s).mono rfl
  | directiveRebuildStop h arg => exact (execDirectiveRebuildStop_keeps h arg s).mono rfl
  | directiveScrubRate h arg => exact (execDirectiveScrubRate_keeps h arg s).mono rfl
  | directiveCalRestore h arg => exact (execDirectiveCalRestore_keeps h arg s).mono rfl
  | directiveWallOffset h arg => exact (execDirectiveWallOffset_keeps h arg s).mono rfl
  | directiveRankRetire h arg => exact (execDirectiveRankRetire_keeps h arg s).mono rfl
  | directiveRankReadmit h arg => exact (execDirectiveRankReadmit_keeps h arg s).mono rfl
  | directiveUnknown h dcode arg => exact (execDirectiveUnknown_keeps h dcode arg s).mono rfl
  | readmitTrainingDone => exact (execReadmitTrainingDone_keeps s).mono rfl
  | lullEntryDone => exact (execLullEntryDone_keeps s).mono rfl
  | mpllLock band searched => exact (execMpllLock_keeps band searched s).mono rfl
  | exitRequest => exact (execExitRequest_keeps s).mono rfl
  | dllLock sc code err => exact (execDllLock_keeps sc code err s).mono rfl
  | dllLossOfLock sc code err => exact (execDllLossOfLock_keeps sc code err s).mono rfl
  | dllStuck sc => exact (execDllStuck_keeps sc s).mono rfl
  | dllLockRetry sc => exact (execDllLockRetry_keeps sc s).mono rfl
  | refclkLost => exact (execRefclkLost_keeps s).mono rfl
  | pllLossOfLock pll attempts => exact (execPllLossOfLock_keeps pll attempts s).mono rfl
  | emergencyRelock => exact (execEmergencyRelock_keeps s).mono rfl
  | refQualified input => exact (execRefQualified_keeps input s).mono rfl
  | emergencySecond => exact (execEmergencySecond_keeps s).mono rfl
  | calEval temps => exact (execCalEval_keeps temps s).mono rfl
  | calRunDue sc => exact (execCalRunDue_keeps sc s).mono rfl
  | calRunStart sc temp => exact (execCalRunStart_keeps sc temp s).mono rfl
  | calMeasureDone sc m => exact (execCalMeasureDone_keeps sc m s).mono rfl
  | calZqLatch sc skipped => exact (execCalZqLatch_keeps sc skipped s).mono rfl
  | breezeStep sc disagree => exact (execBreezeStep_keeps sc disagree s).mono rfl
  | calRunDone sc => exact (execCalRunDone_keeps sc s).mono rfl
  | sensorOvertemp sensor reading => exact (execSensorOvertemp_keeps sensor reading s).mono rfl
  | sensorCool => exact (execSensorCool_keeps s).mono rfl
  | syncInEdge => exact (execSyncInEdge_keeps s).mono rfl
  | holdoverStart => exact (execHoldoverStart_keeps s).mono rfl
  | eventCapture code data => exact (execEventCapture_keeps code data s).mono rfl
  | squallWindowEnd => exact (execSquallWindowEnd_keeps s).mono rfl
  | logProgramDone verified => exact (execLogProgramDone_keeps verified s).mono rfl
  | watchdogExpiry => exact (execWatchdogExpiry_keeps s).mono rfl
  | logWdtkick data => exact (execLogWdtkick_keeps data s).mono rfl
  | sbReadRegisters addr count => exact (execSbReadRegisters_keeps addr count s).mono rfl
  | sbWriteRegister addr data => exact (execSbWriteRegister_keeps addr data s).mono rfl
  | sbDirective dcode epoch arg => exact (execSbDirective_keeps dcode epoch arg s).mono rfl
  | sbFrameError e => exact (execSbFrameError_keeps e s).mono rfl
  | smbusTimeout => exact (execSmbusTimeout_keeps s).mono rfl
  | cccEntdaa da => exact (execCccEntdaa_keeps da s).mono rfl
  | cccSetdasa da => exact (execCccSetdasa_keeps da s).mono rfl
  | cccSetnewda da => exact (execCccSetnewda_keeps da s).mono rfl
  | cccRstdaa => exact (execCccRstdaa_keeps s).mono rfl
  | cccEnec => exact (execCccEnec_keeps s).mono rfl
  | cccDisec => exact (execCccDisec_keeps s).mono rfl
  | cccGetpid => exact (execCccGetpid_keeps s).mono rfl
  | cccGetbcr => exact (execCccGetbcr_keeps s).mono rfl
  | cccGetdcr => exact (execCccGetdcr_keeps s).mono rfl
  | cccGetstatus => exact (execCccGetstatus_keeps s).mono rfl
  | cccGetmwl => exact (execCccGetmwl_keeps s).mono rfl
  | cccGetmrl => exact (execCccGetmrl_keeps s).mono rfl
  | cccSetmwl len => exact (execCccSetmwl_keeps len s).mono rfl
  | cccSetmrl len => exact (execCccSetmrl_keeps len s).mono rfl
  | cccRstact action => exact (execCccRstact_keeps action s).mono rfl
  | flashRead path => exact (execFlashRead_keeps path s).mono rfl
  | flashProgram path => exact (execFlashProgram_keeps path s).mono rfl
  | flashErase path => exact (execFlashErase_keeps path s).mono rfl
  | flashSetPreference path => exact (execFlashSetPreference_keeps path s).mono rfl
  | flashUnknownCommand path code => exact (execFlashUnknownCommand_keeps path code s).mono rfl
  | flashCommandDone ok => exact (execFlashCommandDone_keeps ok s).mono rfl
  | cipherEncrypt slot dest => exact (execCipherEncrypt_keeps slot dest s).mono rfl
  | cipherDecrypt slot dest => exact (execCipherDecrypt_keeps slot dest s).mono rfl
  | cipherDone => exact (execCipherDone_keeps s).mono rfl
  | ordStrrec0Read path => exact (execOrdStrrec0Read_keeps path s).mono rfl
  | ordFrontLoRead path => exact (execOrdFrontLoRead_keeps path s).mono rfl
  | timNowLoRead path => exact (execTimNowLoRead_keeps path s).mono rfl
  | timOffsetLoRead path => exact (execTimOffsetLoRead_keeps path s).mono rfl
  | pwrSnapstampLoRead path => exact (execPwrSnapstampLoRead_keeps path s).mono rfl
  | mgtDieidLoRead path => exact (execMgtDieidLoRead_keeps path s).mono rfl
  | dphEyeaRead path sc => exact (execDphEyeaRead_keeps path sc s).mono rfl
  | eccSealfailRead path => exact (execEccSealfailRead_keeps path s).mono rfl
  | logSbrec0Read path => exact (execLogSbrec0Read_keeps path s).mono rfl
  | rcFieldRead path addr => exact (execRcFieldRead_keeps path addr s).mono rfl
  | calRecselWrite path data => exact (execCalRecselWrite_keeps path data s).mono rfl
  | calCaptureDone => exact (execCalCaptureDone_keeps s).mono rfl
  | ordStrselWrite path data => exact (execOrdStrselWrite_keeps path data s).mono rfl
  | dphEyeselWrite path sc data => exact (execDphEyeselWrite_keeps path sc data s).mono rfl
  | registerWrite path addr data => exact (execRegisterWrite_keeps path addr data s).mono rfl
  | flitTransmit p => exact (execFlitTransmit_keeps p s).mono rfl
  | excursionStart input => exact (execExcursionStart_keeps input s).mono rfl
  | railBackInWindow input => exact (execRailBackInWindow_keeps input s).mono rfl
  | holdEnLow => exact (execHoldEnLow_keeps s).mono rfl
  | bypclkLost => exact (execBypclkLost_keeps s).mono rfl
  | srMinElapsed => exact (execSrMinElapsed_keeps s).mono rfl
  | pllLockQualified => exact (execPllLockQualified_keeps s).mono rfl
  | timebaseBit20Change => exact (execTimebaseBit20Change_keeps s).mono rfl

/-- The queue is no command's to change. -/
theorem mayChange_leaves_pending (c : Instr) : c.mayChange.any (Part.covers · .pending) = false := by
  cases c <;> rfl

end Sys2Proof.Machine
end

section
/-!
The canonical form through a whole step, the completion of every command, and the state after reset.
-/

namespace Sys2Proof.Machine

theorem exec_canon {c : Instr} {s t : State} (ca : s.canon) (h : exec c s = .next t) : t.canon :=
  (exec_keepsOut c s t h).canon ca

/-- What a step does with no command waiting keeps the canonical form: a waiting access, an item of the crossings or a tick. -/
theorem State.idle_canon {s t : State} (ca : s.canon) (h : s.idle = .next t) : t.canon := by
  unfold State.idle at h
  split at h
  · next u hu =>
    cases h
    exact (s.serveNext_keeps t hu).canon ca
  · split at h
    · next r _ => exact exec_canon ((Keeps.upd_rx s r).canon ca) h
    · next p r _ =>
      cases h
      exact (State.flitEnded_keeps _ p).canon ((Keeps.upd_rx s r).canon ca)
    · cases h
      exact s.tick_keeps.canon ca

theorem step_canon {s t : State} (ca : s.canon) (h : step s = .next t) : t.canon := by
  unfold step at h
  split at h
  · next r _ => exact exec_canon ((Keeps.upd_pending s r).canon ca) h
  · exact State.idle_canon ca h

/-- Settles O6: the command at the front, or what an idle step does, keeps the canonical form. -/
theorem stepsKeepCanonicalForm : Obligations.StepsKeepCanonicalForm := fun _ _ ca h => step_canon ca h

/-- Settles O7: every arm of `exec` answers a next state, and the frame of its meaning lies within the parts of the command. -/
theorem everyCommandCompletes : Obligations.EveryCommandCompletes :=
  ⟨fun c s ca => by
    obtain ⟨t, h⟩ := exec_next c s
    exact ⟨t, h, exec_keepsOut c s t h ca⟩, mayChange_leaves_pending⟩

theorem reset_canon : State.reset.canon := ⟨rfl, rfl, rfl, rfl⟩

/-- The state code, the state before it and its cause, as `GLB_STATE` shows them at reset (R23, R527). -/
theorem reset_viewReg_glbState : State.reset.viewReg Reg.GLB_STATE = 0x00000102 := by decide +kernel

/-- Settles O4: with nothing listed in its tables the state reads its defaults everywhere. -/
theorem resetLeaves : Obligations.ResetLeaves :=
  ⟨rfl, rfl, reset_viewReg_glbState, fun _ => rfl, fun _ => rfl, rfl, rfl, rfl, rfl, rfl⟩

end Sys2Proof.Machine
end

section
/-!
The start of the AON domain in `AON`, and the previous state it leaves.
-/

namespace Sys2Proof.Machine

/-- The hub in `AON`, come from `STANDBY`, its VBAT register file invalid and its fuses not yet read. From reset the commands
`VBAT_APPLIED`, `AON_DOMAIN_STOP` and `FEED_ENTERS_WINDOW` lead to such a top level. -/
def aonFromStandby : State := { State.reset with top := { State.reset.top with prev := .standby } }

theorem aonFromStandby_canon : aonFromStandby.canon := reset_canon

/-- In `AON` the start of the AON domain notes the previous state anew: `OFF` where it finds no valid file (log entry 29). -/
theorem aonFromStandby_start_prev :
    ∃ t, exec (.aonDomainStart true 0 []) aonFromStandby = .next t ∧ t.top.prev = .off :=
  ⟨_, rfl, by decide +kernel⟩

/-- Refutes O14: the clause of AON_DOMAIN_START keeps the previous state, which the command overwrites in `AON`. -/
theorem not_sourcesRun : ¬ Obligations.SourcesRun := by
  unfold Obligations.SourcesRun
  intro h
  obtain ⟨-, -, -, -, -, -, -, start, -, -⟩ := h aonFromStandby aonFromStandby_canon
  obtain ⟨t, run, -, top, -⟩ := start true 0 [] (by decide)
  obtain ⟨u, run', prev⟩ := aonFromStandby_start_prev
  obtain rfl : t = u := Host.Outcome.next.inj (run.symm.trans run')
  rw [top] at prev
  exact absurd prev (by decide)

end Sys2Proof.Machine
end

section
/-!
A clearing read of a register with a `HIGH` field, which starts again at the occupancy it then finds (R524).
-/

namespace Sys2Proof.Machine

/-- The hub after reset with one event captured: one entry stands in the ring, and `LOG_RINGSTAT.HIGH` has counted it. -/
def oneEventLogged : State := State.reset.capture 0x0001 0x12

theorem oneEventLogged_canon : oneEventLogged.canon := (State.capture_keeps _ _ _ _).canon reset_canon

/-- The occupancy is the highest one already, so starting `HIGH` again at it changes nothing (R524). -/
theorem oneEventLogged_restartHigh : oneEventLogged.restartHigh Reg.LOG_RINGSTAT = oneEventLogged := by decide +kernel

/-- A read of `LOG_RINGSTAT` clears `HIGH`, which then starts again at the one entry of the ring (R524). -/
theorem oneEventLogged_read_high :
    ∃ t, exec (.rcFieldRead .sideband 0x0D0000) oneEventLogged = .next t ∧ t.reg Reg.LOG_RINGSTAT = 0x00010000 :=
  ⟨_, rfl, by decide +kernel⟩

/-- The word that `LOG_RINGSTAT` would hold with its read-clear field `HIGH` at its reset value. -/
theorem oneEventLogged_cleared :
    oneEventLogged.reg Reg.LOG_RINGSTAT &&& ~~~(readClears Reg.LOG_RINGSTAT) |||
      regReset Reg.LOG_RINGSTAT &&& readClears Reg.LOG_RINGSTAT = 0 := by decide +kernel

/-- Refutes O51: a clearing read of `LOG_RINGSTAT` with an entry in the ring leaves `HIGH` at the occupancy, not at 0, although
restarting `HIGH` before the read would change nothing. -/
theorem not_accessesRun : ¬ Obligations.AccessesRun := by
  unfold Obligations.AccessesRun
  intro h
  obtain ⟨-, -, clearing, -⟩ := h oneEventLogged oneEventLogged_canon
  obtain ⟨t, run, -, -, cleared⟩ := clearing .sideband 0x0D0000 (by decide +kernel) (by decide +kernel) (by decide +kernel)
    oneEventLogged_restartHigh
  obtain ⟨u, run', high⟩ := oneEventLogged_read_high
  obtain rfl : t = u := Host.Outcome.next.inj (run.symm.trans run')
  have zero : t.reg Reg.LOG_RINGSTAT = 0 := cleared.trans oneEventLogged_cleared
  rw [high] at zero
  exact absurd zero (by decide)

end Sys2Proof.Machine
end

section
/-!
A register read that is served at once: taken on its path, let through, and answered (R88, R89, R516, R518).
-/

namespace Sys2Proof.Machine

theorem Runs.imp {s : State} {c : Instr} {P : List Part} {E F : State → Prop} (h : Runs s c P E) (f : ∀ t, E t → F t) :
    Runs s c P F := by
  obtain ⟨t, run, frame, effect⟩ := h
  exact ⟨t, run, frame, f t effect⟩

/-! ### A read that is taken on its path -/

/-- The answer of a read goes out on its path (R89, R516). -/
def State.answerRead (s : State) (status : Byte) (data : Word) : AccPath → State
  | .mgt p mtag => s.answerMgt p mtag status data
  | .sideband => s.answerSb (status :: leBytes data.toNat 4)
  | .core => { s with boot := { s.boot with answer := status, data := data } }

/-- An answer on the path finds its link up. -/
def State.carries (s : State) : AccPath → Bool
  | .mgt p _ => (s.link p).up
  | _ => true

theorem State.answerRead_keeps (s : State) (status : Byte) (data : Word) (path : AccPath) :
    Keeps pathParts s (s.answerRead status data path) := by
  cases path with
  | mgt p mtag => exact (State.answerMgt_keeps s p mtag status data).mono rfl
  | sideband => exact (State.answerSb_keeps s _).mono rfl
  | core => exact (Keeps.upd_boot s _).mono rfl

theorem State.send_up {s : State} {p : Port} (h : (s.link p).up = true) (m : Msg) :
    s.send p m = s.onLink p fun l => { l with tx := l.tx ++ [.msg m] } := if_pos h

theorem State.answerRead_answered {s : State} {path : AccPath} (h : s.carries path = true) (status : Byte) (data : Word) :
    ReadAnswered path status data (s.answerRead status data path) := by
  cases path with
  | mgt p mtag =>
    show ((s.send p _).link p).tx.getLast? = _
    rw [State.send_up h, State.onLink, State.link_setLink, List.getLast?_concat]
  | sideband => rfl
  | core => exact ⟨rfl, rfl⟩

theorem State.onPath_keeps (s : State) (path : AccPath) : Keeps [.links] s (s.onPath path) := by
  cases path with
  | mgt p mtag => exact State.onLink_keeps s p _
  | sideband => exact Keeps.refl _ s
  | core => exact Keeps.refl _ s

theorem State.accessOpen_iff (s : State) (path : AccPath) :
    s.accessOpen path = true ↔ s.pathOpen path = true ∧ s.portBusy path = false := by
  simp [State.accessOpen]

theorem State.pathOpen_mgt (s : State) (p : Port) (mtag : BitVec 4) :
    s.pathOpen (.mgt p mtag) = true ↔
      ((p.isT = false ∧ (s.link p).up = true) ∧ (s.link p).granted.mg ≠ 0) ∧ (s.link p).mtags.contains mtag = false := by
  simp [State.pathOpen]

theorem State.pathLive_of_open {s : State} {path : AccPath} (h : s.pathOpen path = true) : s.pathLive path = true := by
  cases path with
  | mgt p mtag => rfl
  | sideband => exact h
  | core => exact h

theorem State.onPath_carries {s : State} {path : AccPath} (h : s.pathOpen path = true) : (s.onPath path).carries path = true := by
  cases path with
  | mgt p mtag =>
    obtain ⟨⟨⟨-, up⟩, -⟩, -⟩ := (s.pathOpen_mgt p mtag).1 h
    show ((s.onLink p _).link p).up = true
    rw [State.onLink, State.link_setLink]
    exact up
  | sideband => rfl
  | core => rfl

/-- A port open to a message takes it: one credit is spent, and its tag is held (R83, R89). -/
theorem State.takeMgt_open {s : State} {p : Port} {mtag : BitVec 4} (h : s.pathOpen (.mgt p mtag) = true) (f : State → State) :
    s.takeMgt p mtag f = f (s.onPath (.mgt p mtag)) := by
  obtain ⟨⟨⟨u, up⟩, credit⟩, tag⟩ := (s.pathOpen_mgt p mtag).1 h
  simp only [State.takeMgt, u, LinkSt.takes, up, credit, tag, Bool.true_or, Bool.not_true, Bool.or_self, Bool.false_eq_true,
    if_false]
  rfl

/-- A port that takes no message drops it. -/
theorem State.takeMgt_shut {s : State} {p : Port} {mtag : BitVec 4} (h : s.pathShut (.mgt p mtag) = true) (f : State → State) :
    s.takeMgt p mtag f = s := if_pos h

/-- On a live path with nothing before it a read is served (R518). -/
theorem State.pathRead_served {s : State} {path : AccPath} (live : s.pathLive path = true) (free : s.portBusy path = false)
    (a : Nat) : s.pathRead path a = s.readOn path a := by
  simp only [State.pathRead, State.access, State.serveAccess, live, free, Bool.not_true, Bool.false_eq_true, if_false, if_true]

/-- A read that is served at once (R518): its message is taken, the register is read, and the answer goes out. -/
theorem State.pathRead_open {s : State} {path : AccPath} (h : s.accessOpen path = true) (a : Nat) :
    s.pathRead path a = ((s.onPath path).readReg path a).1.answerRead ((s.onPath path).readReg path a).2.1
      ((s.onPath path).readReg path a).2.2 path := by
  obtain ⟨op, free⟩ := (s.accessOpen_iff path).1 h
  rw [State.pathRead_served (State.pathLive_of_open op) free]
  cases path with
  | mgt p mtag => unfold State.readOn; exact State.takeMgt_open op _
  | sideband => rfl
  | core => rfl

/-- An access does not reach the hub on a path that is shut. -/
theorem State.pathRead_shut {s : State} {path : AccPath} (h : s.pathShut path = true) (a : Nat) : s.pathRead path a = s := by
  cases path with
  | mgt p mtag =>
    rw [State.pathRead_served rfl rfl]
    unfold State.readOn
    exact State.takeMgt_shut h _
  | sideband => exact if_pos h
  | core => exact if_pos h

/-- A read that is let through latches what its register latches, and clears what it clears. -/
theorem State.readReg_allowed {s : State} {path : AccPath} {a : Nat} (h : s.accStatus path a = 0) (k : a ≠ Reg.LOG_WDTKICK) :
    s.readReg path a = ((s.captureRead a).clearRead a, 0, (s.captureRead a).viewReg a) := by
  simp only [State.readReg, h, if_true, State.readLive, if_neg k]

theorem State.onPath_accStatus (s : State) (path : AccPath) (a : Nat) :
    (s.onPath path).accStatus path a = s.accStatus path a := by
  cases path <;> rfl

/-- Where no field of the register is read-clear, a read clears nothing (R5). -/
theorem State.clearRead_of_noClears {a : Nat} (h : readClears a = 0) (s : State) : s.clearRead a = s := by
  unfold State.clearRead
  unfold readClears at h
  split
  · next row e =>
    rw [e] at h
    exact if_pos h
  · rfl

/-- A read of a register that latches, served at once and let through: the register after it is what its latch `u` shows, and the
state is what the clearing `r` leaves, with the answer out. -/
theorem Runs.ofRead {s u r : State} {c : Instr} {path : AccPath} {a : Nat} {P Q : List Part} (ca : s.canon)
    (hx : exec c s = .next (s.pathRead path a)) (ho : s.accessOpen path = true) (hs : s.accStatus path a = 0)
    (hk : a ≠ Reg.LOG_WDTKICK) (hu : (s.onPath path).captureRead a = u) (hr : u.clearRead a = r)
    (k : Keeps Q (s.onPath path) r) (w : partsWithin Q P = true) (w' : partsWithin pathParts P = true) :
    Runs s c P fun t => ReadAnswered path 0x00 (u.viewReg a) t ∧ t.regs = r.regs ∧ t.cal = r.cal ∧ t.log = r.log := by
  obtain ⟨op, -⟩ := (s.accessOpen_iff path).1 ho
  have run : s.pathRead path a = r.answerRead 0x00 (u.viewReg a) path := by
    rw [State.pathRead_open ho, State.readReg_allowed ((s.onPath_accStatus path a).trans hs) hk, hu, hr]
  have before := s.onPath_keeps path
  have after := r.answerRead_keeps 0x00 (u.viewReg a) path
  have cb := before.canon ca
  have links : r.links = (s.onPath path).links := by
    have latch := ((s.onPath path).captureRead_keeps a).same cb .links (by decide +kernel)
    have clear := (u.clearRead_keeps a).same (hu ▸ ((s.onPath path).captureRead_keeps a).canon cb) .links (by decide +kernel)
    rw [hu] at latch
    rw [hr] at clear
    exact clear.trans latch
  have carry : r.carries path = true := by
    have up := State.onPath_carries op
    cases path with
    | mgt p mtag => simpa only [State.carries, State.link, links] using up
    | sideband => rfl
    | core => rfl
  have whole : Keeps P s (r.answerRead 0x00 (u.viewReg a) path) :=
    ((before.mono (Q := [.links]) (P := pathParts) rfl).mono w').trans ((k.mono w).trans (after.mono w'))
  have cr := k.canon cb
  exact ⟨_, hx.trans (congrArg _ run), (whole ca).2, State.answerRead_answered carry _ _,
    after.same cr .regs (by decide +kernel), after.same cr .cal (by decide +kernel), after.same cr .log (by decide +kernel)⟩

end Sys2Proof.Machine
end

section
/-!
What the registers that latch on a read show and put beside them (R140, R141, R334, R423, R487, R520).
-/

namespace Sys2Proof.Machine

/-! ### What each latching read shows -/

@[simp] theorem State.onPath_reg (s : State) (path : AccPath) (a : Nat) : (s.onPath path).reg a = s.reg a := by cases path <;> rfl
@[simp] theorem State.onPath_fld (s : State) (path : AccPath) (f : Fld) : (s.onPath path).fld f = s.fld f := by cases path <;> rfl
@[simp] theorem State.onPath_ord (s : State) (path : AccPath) : (s.onPath path).ord = s.ord := by cases path <;> rfl
@[simp] theorem State.onPath_time (s : State) (path : AccPath) : (s.onPath path).time = s.time := by cases path <;> rfl
@[simp] theorem State.onPath_log (s : State) (path : AccPath) : (s.onPath path).log = s.log := by cases path <;> rfl
@[simp] theorem State.onPath_cal (s : State) (path : AccPath) : (s.onPath path).cal = s.cal := by cases path <;> rfl
@[simp] theorem State.onPath_fuse (s : State) (path : AccPath) : (s.onPath path).fuse = s.fuse := by cases path <;> rfl
@[simp] theorem State.onPath_stream (s : State) (path : AccPath) (i : Nat) : (s.onPath path).stream i = s.stream i := by
  cases path <;> rfl
@[simp] theorem State.onPath_stamp (s : State) (path : AccPath) : (s.onPath path).stamp = s.stamp := by cases path <;> rfl
@[simp] theorem State.onPath_wall (s : State) (path : AccPath) : (s.onPath path).wall = s.wall := by cases path <;> rfl
@[simp] theorem State.onPath_snapshot (s : State) (path : AccPath) : (s.onPath path).snapshot = s.snapshot := by cases path <;> rfl
@[simp] theorem State.onPath_eye (s : State) (path : AccPath) (n : Nat) : (s.onPath path).eye n = s.eye n := by cases path <;> rfl

/-- A register depends on the registers alone. -/
theorem State.reg_of_regs {s t : State} (h : t.regs = s.regs) (a : Nat) : t.reg a = s.reg a := by rw [State.reg, h, State.reg]

theorem captureRead_ordStrrec0 (s : State) : s.captureRead Reg.ORD_STRREC0 =
    ((s.setReg Reg.ORD_STRREC1 (BitVec.ofNat 32 ((s.stream (s.fld Fld.ORD_STRSEL.STREAM)).tail % 2 ^ 13))).setReg Reg.ORD_STRREC2
      (BitVec.ofNat 32 (s.stream (s.fld Fld.ORD_STRSEL.STREAM)).lastFork)).setReg Reg.ORD_STRREC3
      (BitVec.ofNat 32 ((s.stream (s.fld Fld.ORD_STRSEL.STREAM)).lastFork / 2 ^ 32)) := rfl

theorem captureRead_ordFrontLo (s : State) :
    s.captureRead Reg.ORD_FRONT_LO = s.setReg Reg.ORD_FRONT_HI (BitVec.ofNat 32 (s.ord.front / 2 ^ 32)) := rfl

theorem captureRead_timNowLo (s : State) : s.captureRead Reg.TIM_NOW_LO =
    ((s.setReg Reg.TIM_NOW_HI (s.stamp.extractLsb' 32 32)).setReg Reg.TIM_WALL_LO (s.wall.extractLsb' 0 32)).setReg
      Reg.TIM_WALL_HI (s.wall.extractLsb' 32 32) := rfl

theorem captureRead_timOffsetLo (s : State) :
    s.captureRead Reg.TIM_OFFSET_LO = s.setReg Reg.TIM_OFFSET_HI (s.time.offset.extractLsb' 32 32) := rfl

theorem captureRead_pwrSnapstampLo (s : State) : s.captureRead Reg.PWR_SNAPSTAMP_LO =
    s.setReg Reg.PWR_SNAPSTAMP_HI (match s.snapshot with | some r => r.1.stamp.extractLsb' 32 32 | none => 0) := rfl

theorem captureRead_mgtDieidLo (s : State) :
    s.captureRead Reg.MGT_DIEID_LO = s.setReg Reg.MGT_DIEID_HI (Tab.get (fun _ => (0 : Word)) s.fuse.word 1) := rfl

theorem captureRead_eccSealfail (s : State) : s.captureRead Reg.ECC_SEALFAIL = s.setReg Reg.ECC_FIRSTFAIL 0 := rfl

theorem captureRead_logSbrec0 (s : State) : s.captureRead Reg.LOG_SBREC0 = s.takeSb := rfl

theorem viewReg_ordStrrec0 (s : State) : s.viewReg Reg.ORD_STRREC0 = s.strRec0 := rfl
theorem viewReg_ordFrontLo (s : State) : s.viewReg Reg.ORD_FRONT_LO = BitVec.ofNat 32 s.ord.front := rfl
theorem viewReg_timNowLo (s : State) : s.viewReg Reg.TIM_NOW_LO = s.stamp.extractLsb' 0 32 := rfl
theorem viewReg_timOffsetLo (s : State) : s.viewReg Reg.TIM_OFFSET_LO = s.time.offset.extractLsb' 0 32 := rfl
theorem viewReg_pwrSnapstampLo (s : State) : s.viewReg Reg.PWR_SNAPSTAMP_LO =
    match s.snapshot with | some r => r.1.stamp.extractLsb' 0 32 | none => s.reg Reg.PWR_SNAPSTAMP_LO := by
  show s.viewPwr _ _ = _
  unfold State.viewPwr
  cases s.snapshot <;> rfl
theorem viewReg_mgtDieidLo (s : State) : s.viewReg Reg.MGT_DIEID_LO = s.reg Reg.MGT_DIEID_LO := rfl
theorem viewReg_eccSealfail (s : State) : s.viewReg Reg.ECC_SEALFAIL = s.reg Reg.ECC_SEALFAIL := rfl
theorem viewReg_logSbrec0 (s : State) : s.viewReg Reg.LOG_SBREC0 = s.reg Reg.LOG_SBREC0 := rfl

/-- `ECC_SEALFAIL` is read-clear in all its bits, and resets to 0 (R5, R334). -/
theorem clearRead_eccSealfail (s : State) : s.clearRead Reg.ECC_SEALFAIL = s.setReg Reg.ECC_SEALFAIL 0 := by
  have row : s.clearRead Reg.ECC_SEALFAIL =
    s.setReg Reg.ECC_SEALFAIL ((s.reg Reg.ECC_SEALFAIL &&& ~~~(0xFFFFFFFF : Word)) ||| ((0 : Word) &&& 0xFFFFFFFF)) := rfl
  rw [row]
  congr 1
  simp

/-- The stream record's first word reads no register but the selection (R140). -/
theorem strRec0_setReg (s : State) {a : Nat} (w : Word) (h : Reg.ORD_STRSEL ≠ a) : (s.setReg a w).strRec0 = s.strRec0 := by
  have sel : (s.setReg a w).fld Fld.ORD_STRSEL.STREAM = s.fld Fld.ORD_STRSEL.STREAM := by
    rw [State.fld, State.reg_setReg_other s w h, State.fld]
  simp only [State.strRec0, sel]
  rfl

end Sys2Proof.Machine
end

section
/-!
The latches behind a family of registers and behind a queue: the eye window of a sub-channel (R291) and the sideband reader's
window on the event ring (R502, R525).
-/

namespace Sys2Proof.Machine

/-! ### The eye window of a sub-channel (R291) -/

theorem regDphEyea_div (sc : Fin 16) : (Reg.DPH_EYEA sc.val - 0x060000) / 0x1000 = sc.val := by
  have h := sc.isLt
  simp only [Reg.DPH_EYEA, Nat.mod_eq_of_lt h]
  omega

theorem regDphEyea_mod (sc : Fin 16) : Reg.DPH_EYEA sc.val % 0x1000 = 0x014 := by
  simp only [Reg.DPH_EYEA]
  omega

theorem regDphEyea_bounds (sc : Fin 16) : 0x060000 ≤ Reg.DPH_EYEA sc.val ∧ Reg.DPH_EYEA sc.val < 0x070000 := by
  simp only [Reg.DPH_EYEA]
  omega

theorem regDphEyea_noClears : ∀ sc : Fin 16, readClears (Reg.DPH_EYEA sc.val) = 0 := by decide

theorem captureRead_dphEyea (s : State) (sc : Fin 16) : s.captureRead (Reg.DPH_EYEA sc.val) =
    { s with cal := { s.cal with eyeB := Tab.set (fun _ => (0 : Word)) s.cal.eyeB sc.val (s.eye sc.val).2 } } := by
  obtain ⟨lo, hi⟩ := regDphEyea_bounds sc
  have m := regDphEyea_mod sc
  have d := regDphEyea_div sc
  generalize Reg.DPH_EYEA sc.val = a at *
  have below : ∀ b, b < 0x060000 → a ≠ b := fun b h => by omega
  have above : ∀ b, 0x070000 ≤ b → a ≠ b := fun b h => by omega
  unfold State.captureRead
  rw [if_neg (below Reg.ORD_STRREC0 (by decide)), if_neg (below Reg.ORD_FRONT_LO (by decide)),
    if_neg (above Reg.TIM_NOW_LO (by decide)), if_neg (above Reg.TIM_OFFSET_LO (by decide)),
    if_neg (above Reg.PWR_SNAPSTAMP_LO (by decide)), if_neg (above Reg.MGT_DIEID_LO (by decide)), if_pos ⟨lo, hi, m⟩, d]

theorem viewReg_dphEyea (s : State) (sc : Fin 16) : s.viewReg (Reg.DPH_EYEA sc.val) = (s.eye sc.val).1 := by
  have b : Reg.DPH_EYEA sc.val >>> 16 = 6 := fam_block 0x060014 0x1000 sc.val 16 rfl (by decide)
  simp only [State.viewReg, b, State.viewDph, regDphEyea_mod sc, regDphEyea_div sc]

/-! ### The sideband reader's window (R502, R525) -/

section
variable {l : List Nat} (f : Nat → Nat) (w : Nat → Word)

theorem State.foldS_setReg_other (s : State) {b : Nat} (h : ∀ j ∈ l, b ≠ f j) :
    (foldS l (fun s j => s.setReg (f j) (w j)) s).reg b = s.reg b := by
  induction l generalizing s with
  | nil => rfl
  | cons x r ih =>
    exact (ih _ fun j m => h j (List.mem_cons_of_mem x m)).trans (s.reg_setReg_other _ (h x List.mem_cons_self))

theorem State.foldS_setReg_mem (s : State) (n : (l.map f).Nodup) {j : Nat} (h : j ∈ l) :
    (foldS l (fun s j => s.setReg (f j) (w j)) s).reg (f j) = w j := by
  induction l generalizing s with
  | nil => nomatch h
  | cons x r ih =>
    obtain ⟨fresh, n⟩ := List.nodup_cons.1 n
    rcases List.mem_cons.1 h with rfl | m
    · exact (State.foldS_setReg_other f w _ fun i m e => fresh (List.mem_map.2 ⟨i, m, e.symm⟩)).trans (s.reg_setReg (f j) (w j))
    · exact ih _ n m

theorem State.foldS_setReg_log (s : State) : (foldS l (fun s j => s.setReg (f j) (w j)) s).log = s.log := by
  induction l generalizing s with
  | nil => rfl
  | cons x r ih => exact ih _
end

/-- The ring entry in the sideband's window, with bit 31 set to say that one is there, and the reader past it. -/
def State.showSb (s : State) (e : RingEntry) : State :=
  foldS (List.range 7) (fun s j => s.setReg (Reg.LOG_SBREC j) (BitVec.ofNat 32 (ofLeBytes ((e.bytes.drop (4 + 4 * j)).take 4))))
    (({ s with log := { s.log with rdSb := s.log.rdSb + 1 } }).setReg Reg.LOG_SBREC0
      (BitVec.ofNat 32 (ofLeBytes (e.bytes.take 4)) ||| 0x80000000))

theorem State.showSb_log (s : State) (e : RingEntry) : (s.showSb e).log = { s.log with rdSb := s.log.rdSb + 1 } :=
  State.foldS_setReg_log _ _ _

theorem State.showSb_reg_sbrec0 (s : State) (e : RingEntry) :
    (s.showSb e).reg Reg.LOG_SBREC0 = BitVec.ofNat 32 (ofLeBytes (e.bytes.take 4)) ||| 0x80000000 :=
  (State.foldS_setReg_other _ _ _ (by decide)).trans (State.reg_setReg _ _ _)

theorem State.showSb_reg_sbrec (s : State) (e : RingEntry) {j : Nat} (h : j ∈ List.range 7) :
    (s.showSb e).reg (Reg.LOG_SBREC j) = BitVec.ofNat 32 (ofLeBytes ((e.bytes.drop (4 + 4 * j)).take 4)) :=
  State.foldS_setReg_mem (fun j => Reg.LOG_SBREC j) _ _ (by decide) h

/-- Where an entry waits, a read of the window takes it, releases the IBI and frees what every reader has passed. -/
theorem State.takeSb_entry {s : State} {e : RingEntry} (h : s.log.ring[s.log.rdSb]? = some e) :
    s.takeSb = ({ s.showSb e with sb := { (s.showSb e).sb with ibi := Option.none } }).freeRing.raiseIbi := by
  simp only [State.takeSb, h]
  rfl

theorem State.raiseIbi_regs (s : State) : s.raiseIbi.regs = s.regs := by
  unfold State.raiseIbi
  split
  · rfl
  · split
    · rfl
    · split <;> rfl

theorem foldl_le_of_step_le {α : Type} {g : Nat → α → Nat} (h : ∀ m x, g m x ≤ m) (l : List α) (m : Nat) : l.foldl g m ≤ m := by
  induction l generalizing m with
  | nil => exact Nat.le_refl m
  | cons x r ih => exact (ih _).trans (h m x)

/-- Freeing what every reader has passed leaves what the sideband reader has still to read (R502). -/
theorem State.freeRing_unread (s : State) : s.freeRing.log.ring.drop s.freeRing.log.rdSb = s.log.ring.drop s.log.rdSb := by
  unfold State.freeRing
  extract_lets k
  have hk : k ≤ s.log.rdSb := by
    refine (foldl_le_of_step_le (fun m n => ?_) _ _).trans (Nat.min_le_right _ _)
    split
    · exact Nat.min_le_left _ _
    · exact Nat.le_refl m
  show (s.log.ring.drop k).drop (s.log.rdSb - k) = _
  rw [List.drop_drop, Nat.add_sub_cancel' hk]

theorem State.takeSb_regs {s : State} {e : RingEntry} (h : s.log.ring[s.log.rdSb]? = some e) :
    s.takeSb.regs = (s.showSb e).regs := by
  rw [State.takeSb_entry h, State.raiseIbi_regs]
  rfl

theorem State.takeSb_unread {s : State} {e : RingEntry} {rest : List RingEntry} (h : s.log.ring.drop s.log.rdSb = e :: rest) :
    s.takeSb.log.ring.drop s.takeSb.log.rdSb = rest := by
  have head : s.log.ring[s.log.rdSb]? = some e := by rw [← List.head?_drop, h]; rfl
  rw [State.takeSb_entry head, State.raiseIbi_log, State.freeRing_unread]
  show (s.showSb e).log.ring.drop (s.showSb e).log.rdSb = rest
  rw [State.showSb_log]
  show s.log.ring.drop (s.log.rdSb + 1) = rest
  rw [← List.tail_drop, h]
  rfl

end Sys2Proof.Machine
end

section
/-!
The reads that latch or clear, one by one, on an open path and on a shut one.
-/

namespace Sys2Proof.Machine

/-! ### The reads one by one -/

section
variable {s : State} {path : AccPath} (ca : s.canon) (ho : s.accessOpen path = true)
include ca ho

/-- A read that latches one register and clears nothing. -/
theorem Runs.ofLatch {c : Instr} {a b : Nat} {w : Word} (hx : exec c s = .next (s.pathRead path a))
    (hs : s.accStatus path a = 0) (hk : a ≠ Reg.LOG_WDTKICK) (hc : readClears a = 0)
    (hu : (s.onPath path).captureRead a = (s.onPath path).setReg b w) :
    Runs s c (.reg b :: pathParts) fun t => ReadAnswered path 0x00 (((s.onPath path).setReg b w).viewReg a) t ∧ t.reg b = w :=
  (Runs.ofRead ca hx ho hs hk hu (State.clearRead_of_noClears hc _) (State.setReg_keeps _ b w)
    (by simp [partsWithin, Part.within]) (by simp [partsWithin, Part.within, pathParts])).imp
  fun _ ⟨answer, regs, _, _⟩ => ⟨answer, (State.reg_of_regs regs b).trans (State.reg_setReg _ b w)⟩

theorem ordStrrec0Read_runs (hs : s.accStatus path Reg.ORD_STRREC0 = 0) :
    Runs s (.ordStrrec0Read path) (.reg Reg.ORD_STRREC1 :: .reg Reg.ORD_STRREC2 :: .reg Reg.ORD_STRREC3 :: pathParts) fun t =>
      ReadAnswered path 0x00 ((s.onPath path).viewReg Reg.ORD_STRREC0) t ∧
      t.reg Reg.ORD_STRREC1 = BitVec.ofNat 32 ((s.stream (s.fld Fld.ORD_STRSEL.STREAM)).tail % 2 ^ 13) ∧
      t.reg Reg.ORD_STRREC2 = BitVec.ofNat 32 (s.stream (s.fld Fld.ORD_STRSEL.STREAM)).lastFork ∧
      t.reg Reg.ORD_STRREC3 = BitVec.ofNat 32 ((s.stream (s.fld Fld.ORD_STRSEL.STREAM)).lastFork / 2 ^ 32) := by
  have latch : Keeps [.reg Reg.ORD_STRREC1, .reg Reg.ORD_STRREC2, .reg Reg.ORD_STRREC3] (s.onPath path)
      ((s.onPath path).captureRead Reg.ORD_STRREC0) :=
    Keeps.via (State.setReg_keeps _ _ _) rfl (Keeps.via (State.setReg_keeps _ _ _) rfl
      (Keeps.via (State.setReg_keeps _ _ _) rfl (Keeps.refl _ _)))
  refine (Runs.ofRead ca rfl ho hs (by decide) rfl (State.clearRead_of_noClears (by decide) _) latch rfl rfl).imp
    fun t ⟨answer, regs, _, _⟩ => ⟨?_, ?_, ?_, ?_⟩
  · rw [viewReg_ordStrrec0, captureRead_ordStrrec0, strRec0_setReg _ _ (by decide), strRec0_setReg _ _ (by decide),
      strRec0_setReg _ _ (by decide)] at answer
    exact answer
  all_goals rw [State.reg_of_regs regs, captureRead_ordStrrec0, State.onPath_fld, State.onPath_stream]
  · rw [State.reg_setReg_other _ _ (by decide), State.reg_setReg_other _ _ (by decide), State.reg_setReg]
  · rw [State.reg_setReg_other _ _ (by decide), State.reg_setReg]
  · rw [State.reg_setReg]

theorem ordFrontLoRead_runs (hs : s.accStatus path Reg.ORD_FRONT_LO = 0) :
    Runs s (.ordFrontLoRead path) (.reg Reg.ORD_FRONT_HI :: pathParts) fun t =>
      ReadAnswered path 0x00 (BitVec.ofNat 32 s.ord.front) t ∧ t.reg Reg.ORD_FRONT_HI = BitVec.ofNat 32 (s.ord.front / 2 ^ 32) := by
  refine (Runs.ofLatch ca ho rfl hs (by decide) (by decide) (captureRead_ordFrontLo _)).imp fun t ⟨answer, high⟩ => ?_
  rw [viewReg_ordFrontLo, State.setReg_ord] at answer
  rw [State.onPath_ord] at answer high
  exact ⟨answer, high⟩

theorem timNowLoRead_runs (hs : s.accStatus path Reg.TIM_NOW_LO = 0) :
    Runs s (.timNowLoRead path) (.reg Reg.TIM_NOW_HI :: .reg Reg.TIM_WALL_LO :: .reg Reg.TIM_WALL_HI :: pathParts) fun t =>
      ReadAnswered path 0x00 (s.stamp.extractLsb' 0 32) t ∧ t.reg Reg.TIM_NOW_HI = s.stamp.extractLsb' 32 32 ∧
      t.reg Reg.TIM_WALL_LO = s.wall.extractLsb' 0 32 ∧ t.reg Reg.TIM_WALL_HI = s.wall.extractLsb' 32 32 := by
  have latch : Keeps [.reg Reg.TIM_NOW_HI, .reg Reg.TIM_WALL_LO, .reg Reg.TIM_WALL_HI] (s.onPath path)
      ((s.onPath path).captureRead Reg.TIM_NOW_LO) :=
    Keeps.via (State.setReg_keeps _ _ _) rfl (Keeps.via (State.setReg_keeps _ _ _) rfl
      (Keeps.via (State.setReg_keeps _ _ _) rfl (Keeps.refl _ _)))
  refine (Runs.ofRead ca rfl ho hs (by decide) rfl (State.clearRead_of_noClears (by decide) _) latch rfl rfl).imp
    fun t ⟨answer, regs, _, _⟩ => ⟨?_, ?_, ?_, ?_⟩
  · rw [viewReg_timNowLo, captureRead_timNowLo] at answer
    rw [← State.onPath_stamp s path]
    exact answer
  all_goals rw [State.reg_of_regs regs, captureRead_timNowLo]
  · rw [State.reg_setReg_other _ _ (by decide), State.reg_setReg_other _ _ (by decide), State.reg_setReg, State.onPath_stamp]
  · rw [State.reg_setReg_other _ _ (by decide), State.reg_setReg, State.onPath_wall]
  · rw [State.reg_setReg, State.onPath_wall]

theorem timOffsetLoRead_runs (hs : s.accStatus path Reg.TIM_OFFSET_LO = 0) :
    Runs s (.timOffsetLoRead path) (.reg Reg.TIM_OFFSET_HI :: pathParts) fun t =>
      ReadAnswered path 0x00 (s.time.offset.extractLsb' 0 32) t ∧
      t.reg Reg.TIM_OFFSET_HI = s.time.offset.extractLsb' 32 32 := by
  refine (Runs.ofLatch ca ho rfl hs (by decide) (by decide) (captureRead_timOffsetLo _)).imp fun t ⟨answer, high⟩ => ?_
  rw [viewReg_timOffsetLo, State.setReg_time] at answer
  rw [State.onPath_time] at answer high
  exact ⟨answer, high⟩

theorem pwrSnapstampLoRead_runs (hs : s.accStatus path Reg.PWR_SNAPSTAMP_LO = 0) :
    Runs s (.pwrSnapstampLoRead path) (.reg Reg.PWR_SNAPSTAMP_HI :: pathParts) fun t =>
      ReadAnswered path 0x00 ((s.onPath path).viewReg Reg.PWR_SNAPSTAMP_LO) t ∧
      t.reg Reg.PWR_SNAPSTAMP_HI = (match s.snapshot with | some r => r.1.stamp.extractLsb' 32 32 | none => 0) := by
  refine (Runs.ofLatch ca ho rfl hs (by decide) (by decide) (captureRead_pwrSnapstampLo _)).imp fun t ⟨answer, high⟩ => ⟨?_, ?_⟩
  · rw [viewReg_pwrSnapstampLo, State.reg_setReg_other _ _ (by decide)] at answer
    rw [viewReg_pwrSnapstampLo]
    exact answer
  · rw [State.onPath_snapshot] at high
    exact high

theorem mgtDieidLoRead_runs (hs : s.accStatus path Reg.MGT_DIEID_LO = 0) :
    Runs s (.mgtDieidLoRead path) (.reg Reg.MGT_DIEID_HI :: pathParts) fun t =>
      ReadAnswered path 0x00 ((s.onPath path).viewReg Reg.MGT_DIEID_LO) t ∧
      t.reg Reg.MGT_DIEID_HI = Tab.get (fun _ => (0 : Word)) s.fuse.word 1 := by
  refine (Runs.ofLatch ca ho rfl hs (by decide) (by decide) (captureRead_mgtDieidLo _)).imp fun t ⟨answer, high⟩ => ⟨?_, ?_⟩
  · rw [viewReg_mgtDieidLo, State.reg_setReg_other _ _ (by decide)] at answer
    exact answer
  · rw [State.onPath_fuse] at high
    exact high

theorem dphEyeaRead_runs (sc : Fin 16) (hs : s.accStatus path (Reg.DPH_EYEA sc.val) = 0) :
    Runs s (.dphEyeaRead path sc) (.cal :: pathParts) fun t =>
      ReadAnswered path 0x00 ((s.onPath path).viewReg (Reg.DPH_EYEA sc.val)) t ∧
      t.cal.eyeB = Tab.set (fun _ => (0 : Word)) s.cal.eyeB sc.val (s.eye sc.val).2 := by
  have other : Reg.DPH_EYEA sc.val ≠ Reg.LOG_WDTKICK := Nat.ne_of_lt ((regDphEyea_bounds sc).2.trans (by decide))
  refine (Runs.ofRead ca rfl ho hs other (captureRead_dphEyea _ sc) (State.clearRead_of_noClears (regDphEyea_noClears sc) _)
    (Keeps.upd_cal _ _) rfl rfl).imp fun t ⟨answer, _, cal, _⟩ => ⟨?_, ?_⟩
  · rw [viewReg_dphEyea] at answer ⊢
    exact answer
  · rw [cal, State.onPath_cal, State.onPath_eye]

theorem eccSealfailRead_runs (hs : s.accStatus path Reg.ECC_SEALFAIL = 0) :
    Runs s (.eccSealfailRead path) (.reg Reg.ECC_SEALFAIL :: .reg Reg.ECC_FIRSTFAIL :: pathParts) fun t =>
      ReadAnswered path 0x00 (s.reg Reg.ECC_SEALFAIL) t ∧ t.reg Reg.ECC_SEALFAIL = 0 ∧ t.reg Reg.ECC_FIRSTFAIL = 0 := by
  have latch : Keeps [.reg Reg.ECC_SEALFAIL, .reg Reg.ECC_FIRSTFAIL] (s.onPath path)
      (((s.onPath path).setReg Reg.ECC_FIRSTFAIL 0).setReg Reg.ECC_SEALFAIL 0) :=
    Keeps.via (State.setReg_keeps _ _ _) rfl (Keeps.via (State.setReg_keeps _ _ _) rfl (Keeps.refl _ _))
  refine (Runs.ofRead ca rfl ho hs (by decide) (captureRead_eccSealfail _) (clearRead_eccSealfail _) latch rfl rfl).imp
    fun t ⟨answer, regs, _, _⟩ => ⟨?_, ?_, ?_⟩
  · rw [viewReg_eccSealfail, State.reg_setReg_other _ _ (by decide), State.onPath_reg] at answer
    exact answer
  · rw [State.reg_of_regs regs, State.reg_setReg]
  · rw [State.reg_of_regs regs, State.reg_setReg_other _ _ (by decide), State.reg_setReg]

theorem logSbrec0Read_runs {e : RingEntry} {rest : List RingEntry} (hs : s.accStatus path Reg.LOG_SBREC0 = 0)
    (waits : s.log.ring.drop s.log.rdSb = e :: rest) :
    Runs s (.logSbrec0Read path) (.log :: .block 0xD :: pathParts) fun t =>
      ReadAnswered path 0x00 (BitVec.ofNat 32 (ofLeBytes (e.bytes.take 4)) ||| 0x80000000) t ∧
      (∀ j ∈ List.range 7, t.reg (Reg.LOG_SBREC j) = BitVec.ofNat 32 (ofLeBytes ((e.bytes.drop (4 + 4 * j)).take 4))) ∧
      t.log.ring.drop t.log.rdSb = rest := by
  have waits' : (s.onPath path).log.ring.drop (s.onPath path).log.rdSb = e :: rest := by rw [State.onPath_log]; exact waits
  have head : (s.onPath path).log.ring[(s.onPath path).log.rdSb]? = some e := by rw [← List.head?_drop, waits']; rfl
  refine (Runs.ofRead ca rfl ho hs (by decide) (captureRead_logSbrec0 _) (State.clearRead_of_noClears (by decide) _)
    (State.takeSb_keeps _) rfl rfl).imp fun t ⟨answer, regs, _, log⟩ => ⟨?_, fun j h => ?_, ?_⟩
  · rw [viewReg_logSbrec0, State.reg_of_regs (State.takeSb_regs head), State.showSb_reg_sbrec0] at answer
    exact answer
  · rw [State.reg_of_regs (regs.trans (State.takeSb_regs head)), State.showSb_reg_sbrec _ _ h]
  · rw [log, State.takeSb_unread waits']

end

/-- Settles O50: an open read is taken, latches what its register latches, and is answered; on a shut path nothing happens. -/
theorem latchingReadsRun : Obligations.LatchingReadsRun := fun _ ca =>
  ⟨fun _ ho hs => ordStrrec0Read_runs ca ho hs, fun _ h => congrArg _ (State.pathRead_shut h _),
   fun _ ho hs => ordFrontLoRead_runs ca ho hs, fun _ h => congrArg _ (State.pathRead_shut h _),
   fun _ ho hs => timNowLoRead_runs ca ho hs, fun _ h => congrArg _ (State.pathRead_shut h _),
   fun _ ho hs => timOffsetLoRead_runs ca ho hs, fun _ h => congrArg _ (State.pathRead_shut h _),
   fun _ ho hs => pwrSnapstampLoRead_runs ca ho hs, fun _ h => congrArg _ (State.pathRead_shut h _),
   fun _ ho hs => mgtDieidLoRead_runs ca ho hs, fun _ h => congrArg _ (State.pathRead_shut h _),
   fun _ sc ho hs => dphEyeaRead_runs ca ho sc hs, fun _ _ h => congrArg _ (State.pathRead_shut h _),
   fun _ ho hs => eccSealfailRead_runs ca ho hs, fun _ h => congrArg _ (State.pathRead_shut h _),
   fun _ _ _ ho hs waits => logSbrec0Read_runs ca ho hs waits⟩

end Sys2Proof.Machine
end

section
/-!
An active feed that qualifies at step 5 of `RESTORE` while an event of a higher place waits (R25, R444).
-/

set_option Elab.async false

namespace Sys2Proof.Machine

/-- The hub at step 5 of `RESTORE` with feed A in its window and active, and the loss of every source waiting in the same cycle. -/
def restoreOutranked : State :=
  { State.reset.setFlag (inwinFld .a) true with
    pending := [.allSourcesLost]
    top := { State.reset.top with state := .restore, prev := .calm }
    gust := { State.reset.gust with rst := 5 } }

theorem restoreOutranked_canon : restoreOutranked.canon := Tests.canonOf (by decide +kernel)

/-- The feed qualifies, but the outranked step H5 is not taken: the top level and the step stay. -/
theorem restoreOutranked_qualifies :
    ∃ t, exec (.feedQualified .a) restoreOutranked = .next t ∧ t.gust.rst = 5 ∧ t.top.state = .restore :=
  ⟨_, rfl, by decide +kernel⟩

/-- Refutes O15: the clause of FEED_QUALIFIED at step 5 of `RESTORE` has no premise that nothing outranks it (R25). -/
theorem not_feedsRun : ¬ Obligations.FeedsRun := by
  unfold Obligations.FeedsRun
  intro h
  obtain ⟨-, -, -, -, -, -, assessed, -⟩ := h restoreOutranked restoreOutranked_canon
  obtain ⟨t, run, -, -, -, moved, -⟩ := assessed .a (by decide +kernel) (by decide +kernel) (by decide +kernel) (by decide +kernel)
    (by decide +kernel) (by decide +kernel) (by decide +kernel)
  obtain ⟨u, run', step, top⟩ := restoreOutranked_qualifies
  obtain rfl : t = u := Host.Outcome.next.inj (run.symm.trans run')
  obtain ⟨on, -⟩ | hold := moved
  · rw [step] at on
    exact absurd on (by decide)
  · rw [hold] at top
    exact absurd top (by decide)

end Sys2Proof.Machine
end

section
/-!
The rows of a power table that still run when the hub enters `CALM` (R404, R442).
-/

set_option Elab.async false

namespace Sys2Proof.Machine

/-- The hub after the last step of Gust with its load shed, `PWR_SEQSTAT.TABLE` showing the shutdown table. -/
def gustTableRunning : State :=
  { (Tests.coreIn .gust).setFld Fld.PWR_SEQSTAT.TABLE 2 with gust := { State.reset.gust with step := 7 } }

theorem gustTableRunning_canon : gustTableRunning.canon := Tests.canonOf (by decide +kernel)

/-- The entry into `CALM` leaves the table that runs. -/
theorem gustTableRunning_entersCalm :
    ∃ t, exec .calmEntry gustTableRunning = .next t ∧ t.fld Fld.PWR_SEQSTAT.TABLE = 2 :=
  ⟨_, rfl, by decide +kernel⟩

/-- Refutes O18: the clause of CALM_ENTRY has the shutdown table over, which the command does not end. -/
theorem not_calmAndRestoreRun : ¬ Obligations.CalmAndRestoreRun := by
  unfold Obligations.CalmAndRestoreRun
  intro h
  obtain ⟨entry, -⟩ := h gustTableRunning gustTableRunning_canon
  obtain ⟨t, run, -, -, -, -, ended, -⟩ := entry (by decide +kernel) (by decide +kernel) (by decide +kernel) (by decide +kernel)
  obtain ⟨u, run', table⟩ := gustTableRunning_entersCalm
  obtain rfl : t = u := Host.Outcome.next.inj (run.symm.trans run')
  rw [ended] at table
  exact absurd table (by decide)

end Sys2Proof.Machine
end

section
/-!
The report of a start through `TRAIN`, and the record of the contents-valid flag that the boot has just written (R445, R446).
-/

set_option Elab.async false

namespace Sys2Proof.Machine

/-! ### The report is that of the state in which `TRAIN` is entered -/

theorem State.fixReport_contents (s : State) (report reason : Nat) (all : Bool) :
    (s.fixReport report reason all).reg Reg.PWR_CONTENTS =
      BitVec.ofNat 32 (report + (reason <<< 4) + (bitOf all <<< 8) + (bitOf s.gust.early <<< 9)) := by
  rw [State.fixReport, State.setFld, State.reg_setReg_other _ _ (by decide), State.reg_setReg]

/-- What `TRAIN` does once its report is fixed. -/
def afterReportParts : List Part :=
  .vbat :: .reg Reg.PWR_HOLD :: State.noteClearing_parts ++ State.bringUp_parts ++ State.startSection_parts

/-- `TRAIN` is entered up to its report, which a start through it has read before. -/
def State.trainReported (s : State) : State :=
  let t := (s.setScrub (s.fld Fld.SCH_SCRUBCFG.HOURS) true).goTo .train 0x04
  ({ t with gust := { t.gust with early := false } }).fixReport s.trainReport.1 s.trainReport.2 false

theorem State.trainReported_canon {s : State} (ca : s.canon) : s.trainReported.canon :=
  (State.fixReport_keeps _ _ _ _).canon ((Keeps.upd_gust _ _).canon
    ((State.goTo_keeps _ _ _).canon ((State.setScrub_keeps _ _ _).canon ca)))

theorem State.enterTrain_after_report (s : State) (bands : List (BitVec 6)) :
    Keeps afterReportParts s.trainReported (s.enterTrain bands) := by
  unfold State.enterTrain
  refine Keeps.via (State.startSection_keeps _ _) rfl (Keeps.via (State.bringUp_keeps _ _ _) rfl
    (Keeps.via (State.setFld_keeps _ _ _) rfl (Keeps.via (Keeps.upd_vbat _ _) rfl ?_)))
  exact Keeps.ite ((State.noteClearing_keeps _).mono rfl) (Keeps.refl _ _)

/-- Nothing that follows the report changes it (R445). -/
theorem State.enterTrain_contents {s : State} (ca : s.canon) (bands : List (BitVec 6)) :
    (s.enterTrain bands).reg Reg.PWR_CONTENTS = BitVec.ofNat 32 (s.trainReport.1 + (s.trainReport.2 <<< 4)) :=
  ((s.enterTrain_after_report bands).reg (s.trainReported_canon ca) (by decide)).trans (State.fixReport_contents _ _ _ _)

/-! ### The last record made from saved state is written -/

/-- Whatever a record of saved state settles, it leaves the list, and neither the flash nor the write point moves. -/
theorem State.settleRecord_late {s : State} {x : RingEntry} {rest : List RingEntry} (late : s.log.late = x :: rest) (e : RingEntry) :
    (s.settleRecord e).log.late = rest ∧ (s.settleRecord e).log.slot = s.log.slot ∧
      (s.settleRecord e).vbat.found = s.vbat.found ∧ (s.settleRecord e).flash = s.flash := by
  unfold State.settleRecord
  rw [late]
  split_ifs <;> exact ⟨rfl, rfl, rfl, rfl⟩

/-- A record stands at the write point, and the registers show it; nothing is settled yet (R507). -/
def State.recordPlaced (s : State) (e : RingEntry) : State :=
  ((s.program (logAddr s.log.slot) (recordBytes (s.reg Reg.LOG_LSN + 1) e (s.extraOf e.code))).setReg Reg.LOG_PTR
    (BitVec.ofNat 32 (logAddr s.log.slot))).setReg Reg.LOG_LSN (s.reg Reg.LOG_LSN + 1)

theorem State.putRecord_eq (s : State) (e : RingEntry) : s.putRecord e = ((s.recordPlaced e).settleRecord e).nextSlot := rfl

theorem State.recordPlaced_log (s : State) (e : RingEntry) : (s.recordPlaced e).log = s.log := by
  simp only [State.recordPlaced, State.setReg, State.program]

theorem State.recordPlaced_found (s : State) (e : RingEntry) : (s.recordPlaced e).vbat.found = s.vbat.found := by
  simp only [State.recordPlaced, State.setReg, State.program]

theorem State.recordPlaced_flash (s : State) (e : RingEntry) : (s.recordPlaced e).flash =
    programBytes (logAddr s.log.slot) (recordBytes (s.reg Reg.LOG_LSN + 1) e (s.extraOf e.code)) s.flash := by
  simp only [State.recordPlaced, State.setReg, State.program]

/-- Inside a sector the write point only moves on. -/
theorem State.nextSlot_within {s : State} (h : (s.log.slot + 1) % logSlots % 64 ≠ 0) :
    s.nextSlot = { s with log := { s.log with slot := (s.log.slot + 1) % logSlots } } := if_neg h

theorem State.putRecord_late {s : State} {x : RingEntry} {rest : List RingEntry} (late : s.log.late = x :: rest) (e : RingEntry)
    (within : (s.log.slot + 1) % logSlots % 64 ≠ 0) :
    (s.putRecord e).log.late = rest ∧ (s.putRecord e).vbat.found = s.vbat.found ∧
      (s.putRecord e).flash = (s.recordPlaced e).flash := by
  rw [← s.recordPlaced_log e] at late within
  obtain ⟨list, slot, found, flash⟩ := State.settleRecord_late late e
  rw [← slot] at within
  rw [State.putRecord_eq, State.nextSlot_within within]
  exact ⟨list, found.trans (s.recordPlaced_found e), flash⟩

theorem State.writeLate_last {s : State} {e : RingEntry} (late : s.log.late = [e]) (room : s.blank (logAddr s.log.slot) 64 = true)
    (within : (s.log.slot + 1) % logSlots % 64 ≠ 0) (n : Nat) : s.writeLate (n + 2) = s.putRecord e := by
  rw [State.writeLate, late]
  simp only [room, if_true]
  rw [State.writeLate, (State.putRecord_late late e within).1]

/-! ### A boot that ends with a record of the flag to write -/

/-- A record of the contents-valid flag, made from saved state. -/
def flagRecord : RingEntry := { code := 0xA032, late := true }

/-- The core at the end of C8 with an empty log, the flag unknown to the VBAT register file, and the record still to write. -/
def bootOwesRecord : State :=
  { Tests.coreIn .boot with
    boot := { State.reset.boot with stage8 := true }
    log := { State.reset.log with ready := true, late := [flagRecord] } }

theorem bootOwesRecord_canon : bootOwesRecord.canon := Tests.canonOf (by decide +kernel)

/-- The core has written the record and shows `MAP_CAP`. -/
def recordKept : State := (bootOwesRecord.putRecord flagRecord).bootEnds

theorem recordKept_keeps : Keeps (State.putRecord_parts ++ State.bootEnds_parts) bootOwesRecord recordKept :=
  Keeps.via (State.bootEnds_keeps _) rfl (Keeps.via (State.putRecord_keeps _ _) rfl (Keeps.refl _ _))

theorem recordKept_boot : recordKept.boot = bootOwesRecord.boot := recordKept_keeps.same bootOwesRecord_canon .boot rfl

theorem recordKept_top : recordKept.top = bootOwesRecord.top := recordKept_keeps.same bootOwesRecord_canon .top rfl

/-- The same with the boot over: the state that enters `TRAIN`. -/
def recordWritten : State :=
  { recordKept with boot := { recordKept.boot with stage8 := false, choice := 0, released := false, tried := false } }

theorem recordWritten_canon : recordWritten.canon := (Keeps.upd_boot _ _).canon (recordKept_keeps.canon bootOwesRecord_canon)

theorem bootOwesRecord_writes :
    bootOwesRecord.writeLate (8 * bootOwesRecord.log.late.length + 64) = bootOwesRecord.putRecord flagRecord :=
  State.writeLate_last rfl (by decide +kernel) (by decide) 70

theorem bootOwesRecord_completes : exec (.bootComplete []) bootOwesRecord = .next (recordWritten.enterTrain []) := by
  have live : (!bootOwesRecord.bootRuns || bootOwesRecord.top.trigger.isSome || !bootOwesRecord.boot.stage8 ||
      bootOwesRecord.outranked 7) = false := by decide +kernel
  have ready : bootOwesRecord.log.ready = true := rfl
  have sound : ((bootOwesRecord.putRecord flagRecord).bootEnds.boot.hold != 0) = false := by
    rw [show (bootOwesRecord.putRecord flagRecord).bootEnds.boot = _ from recordKept_boot]; rfl
  have booting : ((bootOwesRecord.putRecord flagRecord).bootEnds.top.state == .boot) = true := by
    rw [show (bootOwesRecord.putRecord flagRecord).bootEnds.top = _ from recordKept_top]; rfl
  show execBootComplete [] bootOwesRecord = _
  simp only [execBootComplete, live, ready, bootOwesRecord_writes, sound, booting, if_true, Bool.false_eq_true, if_false]
  rfl

theorem recordWritten_flash :
    recordWritten.flash = programBytes (logAddr 0) (recordBytes 1 flagRecord 0) [] := by
  have bootEnds : recordWritten.flash = (bootOwesRecord.putRecord flagRecord).flash :=
    (State.bootEnds_keeps _).same ((State.putRecord_keeps _ _).canon bootOwesRecord_canon) .flash rfl
  rw [bootEnds, (State.putRecord_late (rest := []) rfl _ (by decide)).2.2, State.recordPlaced_flash]
  rfl

theorem recordWritten_found : recordWritten.vbat.found = false := by
  have bootEnds : recordWritten.vbat = (bootOwesRecord.putRecord flagRecord).vbat :=
    (State.bootEnds_keeps _).same ((State.putRecord_keeps _ _).canon bootOwesRecord_canon) .vbat rfl
  rw [bootEnds, (State.putRecord_late (rest := []) rfl _ (by decide)).2.1]
  rfl

/-- Only the flash tells whether the log holds a record of the flag. -/
theorem State.flagLogged_flash (s : State) : s.flagLogged = ({ State.reset with flash := s.flash } : State).flagLogged := rfl

/-- The flash then holds the record, where before it held none (R446). -/
theorem recordWritten_trainReport : recordWritten.trainReport = (2, 0xB) := by
  have logged : recordWritten.flagLogged = true := by
    rw [State.flagLogged_flash, recordWritten_flash]
    decide +kernel
  rw [State.trainReport, recordWritten_found, logged]
  rfl

theorem bootOwesRecord_trainReport : bootOwesRecord.trainReport.1 = 3 := by decide +kernel

/-- Refutes O22: `BOOT_COMPLETE` writes the owed records before it fixes the report, so the report need not be that of the state it
finds. -/
theorem not_coreBootRuns : ¬ Obligations.CoreBootRuns := by
  unfold Obligations.CoreBootRuns
  intro h
  obtain ⟨-, -, -, -, trains, -⟩ := h bootOwesRecord bootOwesRecord_canon
  obtain ⟨t, run, -, -, -, -, -, -, report, -⟩ := trains [] (by decide +kernel) rfl rfl (by decide +kernel) rfl rfl
  obtain rfl := Host.Outcome.next.inj (bootOwesRecord_completes.symm.trans run)
  rw [bootOwesRecord_trainReport, State.fld, State.enterTrain_contents recordWritten_canon, recordWritten_trainReport] at report
  exact absurd report (by decide)

end Sys2Proof.Machine
end

section
/-!
A boot release that finds an acceptable image while the ranks are held in self-refresh (R447, R471 to R483).
-/

set_option Elab.async false

namespace Sys2Proof.Machine

/-! ### Bytes stored in the flash -/

theorem ofLeBytes_leBytes : ∀ (k n : Nat), n < 256 ^ k → ofLeBytes (leBytes n k) = n
  | 0, n, h => by
    obtain rfl : n = 0 := by simpa using h
    rfl
  | k + 1, n, h => by
    have q : n / 256 < 256 ^ k := Nat.div_lt_of_lt_mul (by rwa [Nat.pow_succ'] at h)
    rw [leBytes, ofLeBytes, ofLeBytes_leBytes k _ q, BitVec.toNat_ofNat]
    omega

theorem length_leBytes (n : Nat) : ∀ k, (leBytes n k).length = k
  | 0 => rfl
  | k + 1 => congrArg (· + 1) (length_leBytes (n / 256) k)

/-- Bytes that stand in the flash from an address on. -/
def storedAt (a : Nat) : List Byte → Tab Byte
  | [] => []
  | b :: r => (a, b) :: storedAt (a + 1) r

theorem get_storedAt (d : Nat → Byte) : ∀ (l : List Byte) (a i : Nat) (h : i < l.length), Tab.get d (storedAt a l) (a + i) = l[i]
  | b :: r, a, 0, _ => if_pos rfl
  | b :: r, a, i + 1, h => by
    rw [storedAt, Tab.get, if_neg (by omega), show a + (i + 1) = a + 1 + i from by omega]
    exact get_storedAt d r (a + 1) i (Nat.lt_of_succ_lt_succ h)

theorem get_storedAt_below (d : Nat → Byte) {x : Nat} : ∀ (l : List Byte) {a : Nat}, x < a → Tab.get d (storedAt a l) x = d x
  | [], _, _ => rfl
  | b :: r, a, h => by
    rw [storedAt, Tab.get, if_neg (by omega)]
    exact get_storedAt_below d r (Nat.lt_succ_of_lt h)

/-- Reading stored bytes gives them. -/
theorem State.flashBytes_stored {s : State} {a : Nat} {l : List Byte} (h : s.flash = storedAt a l) {k n : Nat} (fits : k + n ≤ l.length) :
    s.flashBytes (a + k) n = (l.drop k).take n := by
  refine List.ext_getElem (by simp [State.flashBytes]; omega) fun i hi _ => ?_
  have hi' : i < n := by simpa [State.flashBytes] using hi
  simp only [State.flashBytes, State.flashByte, h, List.getElem_map, List.getElem_range, List.getElem_take, List.getElem_drop]
  rw [Nat.add_assoc, get_storedAt _ l a (k + i) (by omega)]

theorem State.flashByte_stored {s : State} {a : Nat} {l : List Byte} (h : s.flash = storedAt a l) {k : Nat} (fits : k < l.length) :
    s.flashByte (a + k) = l[k] := by
  rw [State.flashByte, h, get_storedAt]

/-- A slot of the directory in which no byte is written holds no record (R470). -/
theorem State.dirAt_unwritten {s : State} {a : Nat} {l : List Byte} (h : s.flash = storedAt a l) {i : Nat} (below : 64 * i + 64 ≤ a) :
    s.dirAt i = none := by
  have erased : s.flashBytes (64 * i) 64 = List.replicate 64 0xFF := by
    refine List.ext_getElem (by simp [State.flashBytes]) fun j hj _ => ?_
    have hj' : j < 64 := by simpa [State.flashBytes] using hj
    simp only [State.flashBytes, State.flashByte, h, List.getElem_map, List.getElem_range, List.getElem_replicate]
    exact get_storedAt_below _ l (by omega)
  rw [State.dirAt, erased]
  rfl

theorem State.directory_unwritten {s : State} {a : Nat} {l : List Byte} (h : s.flash = storedAt a l) (above : 0x10000 ≤ a) :
    s.directory = none :=
  Tests.foldl_still _ _ _ fun i hi => by
    rw [s.dirAt_unwritten h (by have := List.mem_range.1 hi; omega)]

/-! ### Entries read back (R472) -/

/-- An entry of four bytes that is neither critical nor a list. -/
def wordEntry (p : Nat × Nat) : Entry := { ident := p.1, crit := false, list := false, value := leBytes p.2 4 }

/-- Its bytes: the identifier, the length and the flags, and the value. -/
def wordEntryBytes (p : Nat × Nat) : List Byte := leBytes p.1 4 ++ ([4, 0, 0, 0] ++ leBytes p.2 4)

/-- Identifiers rise from `low` on and fit their field. -/
def rising (low : Nat) : List (Nat × Nat) → Bool
  | [] => true
  | p :: r => decide (low ≤ p.1) && decide (p.1 < 2 ^ 32) && rising (p.1 + 1) r

theorem length_wordEntryBytes (p : Nat × Nat) : (wordEntryBytes p).length = 12 := by
  simp [wordEntryBytes, length_leBytes]

/-- Reading inside an entry that stands at `a + k`. -/
theorem State.flashBytes_entry {s : State} {a : Nat} {l : List Byte} (h : s.flash = storedAt a l) {k : Nat} {p : Nat × Nat}
    {rest : List Byte} (at_ : l.drop k = wordEntryBytes p ++ rest) {j n : Nat} (fits : j + n ≤ 12) :
    s.flashBytes (a + k + j) n = ((wordEntryBytes p).drop j).take n := by
  have len : l.length - k = 12 + rest.length := by
    rw [← List.length_drop, at_, List.length_append, length_wordEntryBytes]
  rw [Nat.add_assoc, State.flashBytes_stored h (by omega), ← List.drop_drop, at_,
    List.drop_append_of_le_length (by rw [length_wordEntryBytes]; omega),
    List.take_append_of_le_length (by rw [List.length_drop, length_wordEntryBytes]; omega)]

theorem State.readEntries_stored {s : State} {a : Nat} {l : List Byte} (h : s.flash = storedAt a l) :
    ∀ (es : List (Nat × Nat)) (k low : Nat) (rest : List Byte), rising low es = true → l.drop k = es.flatMap wordEntryBytes ++ rest →
      s.readEntries es.length (a + k) (a + k + 12 * es.length) low = some (es.map wordEntry)
  | [], k, low, rest, _, _ => if_pos rfl
  | p :: r, k, low, rest, up, stored => by
    simp only [rising, Bool.and_eq_true, decide_eq_true_eq] at up
    obtain ⟨⟨least, small⟩, up⟩ := up
    rw [List.flatMap_cons, List.append_assoc] at stored
    have ident : s.flashNat (a + k) 4 = p.1 :=
      (congrArg ofLeBytes (State.flashBytes_entry h stored (j := 0) (n := 4) (by omega))).trans (ofLeBytes_leBytes 4 p.1 small)
    have length : s.flashNat (a + k + 4) 3 = 4 :=
      congrArg ofLeBytes (State.flashBytes_entry h stored (j := 4) (n := 3) (by omega))
    have flags : s.flashByte (a + k + 7) = 0 :=
      (List.cons.inj (State.flashBytes_entry h stored (j := 7) (n := 1) (by omega) : [s.flashByte (a + k + 7)] = [0])).1
    have value : s.flashBytes (a + k + 8) 4 = leBytes p.2 4 := State.flashBytes_entry h stored (j := 8) (n := 4) (by omega)
    have next : l.drop (k + 12) = r.flatMap wordEntryBytes ++ rest := by
      rw [← List.drop_drop, stored, List.drop_left' (length_wordEntryBytes p)]
    have tail := State.readEntries_stored h r (k + 12) (p.1 + 1) rest up next
    rw [List.length_cons, State.readEntries, if_neg (by omega)]
    simp only [ident, length, flags]
    rw [if_neg (by simp; omega), value, show a + k + 8 + (4 + 3) / 4 * 4 = a + (k + 12) from by omega,
      show a + k + 12 * (r.length + 1) = a + (k + 12) + 12 * r.length from by omega, tail]
    rfl

theorem State.tryTrial_unlisted {s : State} (h : s.directory = none) (slot : Nat) : s.tryTrial slot = (s, true) := by
  unfold State.tryTrial
  split
  · next d found => exact absurd (found.symm.trans h) nofun
  · rfl

/-! ### An image that passes its checks (R473) -/

theorem State.judgeEntries_accept {s : State} {slot : Nat} {armed : List Nat} {feedA feedB : Option Nat} {es : List Entry}
    (matched : Bool) (read : s.readEntries (s.flashNat (slotBase slot + 20) 4) (slotBase slot + 64)
      (slotBase slot + s.flashNat (slotBase slot + 8) 4 - 16) 0 = some es)
    (critical : (es.any fun e => !e.known && e.crit) = false) (formed : es.all Entry.formed = true)
    (values : (s.applyImage (es.filter (·.known))).valuesOk es armed feedA feedB = true) :
    ∃ im, s.judgeEntries slot matched armed feedA feedB = .accept im ∧ im.entries = es.filter (·.known) := by
  simp only [State.judgeEntries, read, critical, formed, values, Bool.not_true, Bool.false_eq_true, if_false]
  exact ⟨_, rfl, rfl⟩

theorem State.judgeImage_passed {s : State} {slot : Nat} {armed : List Nat} {feedA feedB : Option Nat}
    (magic : s.flashNat (slotBase slot + 0) 4 = 0x52534B49) (version : s.flashNat (slotBase slot + 4) 2 = 1)
    (model : s.flashNat (slotBase slot + 18) 2 = 0x9420)
    (length : (s.flashNat (slotBase slot + 8) 4 % 16 != 0 || decide (s.flashNat (slotBase slot + 8) 4 < 80) ||
      decide (8388608 < s.flashNat (slotBase slot + 8) 4)) = false)
    (svn : (decide ((s.flashByte (slotBase slot + 16)).toNat < s.fld Fld.MGT_ROLLBACK.PENDING) ||
      decide (128 < (s.flashByte (slotBase slot + 16)).toNat)) = false) (auth : s.authNeeded = false) :
    s.judgeImage slot false false armed feedA feedB = s.judgeEntries slot false armed feedA feedB := by
  rw [Nat.add_zero] at magic
  simp only [State.judgeImage, magic, version, model, length, svn, auth, bne_self_eq_false, Bool.or_self, Bool.false_eq_true, if_false,
    Bool.false_and]

/-! ### An acceptable image -/

/-- The identifier of an entry (R472), and its value. -/
def entryOf (block number inst value : Nat) : Nat × Nat := (block * 2 ^ 28 + number * 2 ^ 16 + inst, value)

/-- The entries an image cannot do without: the identity of the hub and of its pair, the four timing sets, the feeds and the backup unit
(R12, R19, R245, R424, R452, R453). -/
def releaseRows : List (Nat × Nat) :=
  [entryOf 0x0 0x001 0 1, entryOf 0x0 0x002 0 1, entryOf 0x4 0x001 0 1] ++
  ((List.range 28).flatMap fun w => (List.range 4).map fun k =>
    entryOf 0x5 (1 + w) k (if w = 0 then 3 else if w = 5 then 2 else 1)) ++
  ([0x00E, 0x00F, 0x010, 0x013, 0x014, 0x015, 0x016, 0x017].map fun n => entryOf 0xA n 0 1) ++ [entryOf 0xA 0x018 0 2000]

def releaseEntries : List Entry := releaseRows.map wordEntry

/-- The header of an image of them (R471). -/
def releaseHeader : List Byte :=
  leBytes 0x52534B49 4 ++ leBytes 1 4 ++ leBytes 1568 4 ++ leBytes 1 4 ++ [0, 0] ++ leBytes 0x9420 2 ++ leBytes 124 4 ++
    List.replicate 40 0

/-- The image, without a tag. -/
def releaseBytes : List Byte := releaseHeader ++ (releaseRows.flatMap wordEntryBytes ++ List.replicate 16 0)

theorem length_releaseBytes : releaseBytes.length = 1568 := by decide +kernel

/-- The hub in `BOOT_HOLD` with its ranks held in self-refresh, journal lines replayed before, the image in slot A and nothing else in
the flash, and a release check of that slot running. -/
def releaseChecked : State :=
  { Tests.coreIn .bootHold with
    boot := { State.reset.boot with check := some 1 }
    pwr := { State.reset.pwr with latch := true }
    ord := { State.reset.ord with replayed := 1 }
    flash := storedAt 0x010000 releaseBytes }

theorem releaseChecked_canon : releaseChecked.canon := Tests.canonOf (by decide +kernel)

/-- The same as the check ends. -/
def releaseJudged : State :=
  ({ releaseChecked with boot := { releaseChecked.boot with check := Option.none } } : State).setFld Fld.GLB_BOOTREL.BUSY 0

/-- What the core finds: the flash in order, no read failed. -/
def releaseFind : BootFind := { flash := .quad, badA := false, badB := false, feedA := 0, feedB := 0, entropy := true }

theorem releaseJudged_flash : releaseJudged.flash = storedAt 0x010000 releaseBytes := by
  simp only [releaseJudged, releaseChecked, State.setFld, State.setReg]

/-- Reading in the header. -/
theorem releaseJudged_flashNat {k n : Nat} (h : k + n ≤ 64) :
    releaseJudged.flashNat (0x010000 + k) n = ofLeBytes ((releaseHeader.drop k).take n) := by
  have len : releaseHeader.length = 64 := rfl
  rw [State.flashNat, State.flashBytes_stored releaseJudged_flash (by rw [length_releaseBytes]; omega), releaseBytes,
    List.drop_append_of_le_length (by omega), List.take_append_of_le_length (by rw [List.length_drop]; omega)]

theorem releaseJudged_header {k n v : Nat} (h : k + n ≤ 64) (e : ofLeBytes ((releaseHeader.drop k).take n) = v) :
    releaseJudged.flashNat (slotBase 0 + k) n = v := (releaseJudged_flashNat h).trans e

theorem releaseJudged_readEntries :
    releaseJudged.readEntries 124 (0x010000 + 64) (0x010000 + 1568 - 16) 0 = some releaseEntries := by
  have read := State.readEntries_stored releaseJudged_flash releaseRows 64 0 (List.replicate 16 0) (by decide +kernel)
    (List.drop_left' rfl)
  rwa [show releaseRows.length = 124 from by decide +kernel] at read

theorem releaseEntries_known : releaseEntries.filter (·.known) = releaseEntries := by decide +kernel

theorem releaseEntries_critical : (releaseEntries.any fun e => !e.known && e.crit) = false := by decide +kernel

theorem releaseEntries_formed : releaseEntries.all Entry.formed = true := by decide +kernel

/-- Check 10 passes, and the identity of the image is a valid one (R16, R473). -/
theorem releaseEntries_values : ((releaseJudged.applyImage releaseEntries).valuesOk releaseEntries [] none none &&
    (releaseJudged.applyImage releaseEntries).idValid) = true := by decide +kernel

theorem releaseJudged_judgeEntries (tag : Bool) : ∃ im, releaseJudged.judgeEntries 0 tag [] none none = .accept im ∧
    im.entries = releaseEntries := by
  have count : releaseJudged.flashNat (slotBase 0 + 20) 4 = 124 := releaseJudged_header (k := 20) (by decide) (by decide +kernel)
  have length : releaseJudged.flashNat (slotBase 0 + 8) 4 = 1568 := releaseJudged_header (k := 8) (by decide) (by decide +kernel)
  obtain ⟨im, accept, entries⟩ := State.judgeEntries_accept tag (by rw [count, length]; exact releaseJudged_readEntries)
    releaseEntries_critical releaseEntries_formed (by rw [releaseEntries_known]; exact (Bool.and_eq_true_iff.1 releaseEntries_values).1)
  exact ⟨im, accept, entries.trans releaseEntries_known⟩

theorem releaseJudged_judgeSlot : ∃ im, releaseJudged.judgeSlot releaseFind false 0 = .accept im ∧ im.entries = releaseEntries := by
  have magic : releaseJudged.flashNat (slotBase 0 + 0) 4 = 0x52534B49 := releaseJudged_header (k := 0) (by decide) (by decide +kernel)
  have version : releaseJudged.flashNat (slotBase 0 + 4) 2 = 1 := releaseJudged_header (k := 4) (by decide) (by decide +kernel)
  have model : releaseJudged.flashNat (slotBase 0 + 18) 2 = 0x9420 := releaseJudged_header (k := 18) (by decide) (by decide +kernel)
  have length : releaseJudged.flashNat (slotBase 0 + 8) 4 = 1568 := releaseJudged_header (k := 8) (by decide) (by decide +kernel)
  have svn : releaseJudged.flashByte (slotBase 0 + 16) = 0 :=
    (State.flashByte_stored releaseJudged_flash (k := 16) (by rw [length_releaseBytes]; decide)).trans (by decide +kernel)
  have levels : releaseJudged.feedLevels releaseFind = (none, none) := by decide +kernel
  have armed : (List.range 16).filter releaseJudged.railArmed = [] := by decide +kernel
  have pending : releaseJudged.fld Fld.MGT_ROLLBACK.PENDING = 0 := by decide +kernel
  have auth : releaseJudged.authNeeded = false := by decide +kernel
  obtain ⟨im, accept, entries⟩ := releaseJudged_judgeEntries false
  refine ⟨im, ?_, entries⟩
  rw [State.judgeSlot, levels, armed]
  refine (State.judgeImage_passed magic version model (by rw [length]; decide) (by rw [svn, pending]; decide) auth).trans accept

/-! ### The release it lets through -/

theorem releaseJudged_directory : releaseJudged.directory = none := State.directory_unwritten releaseJudged_flash (Nat.le_refl _)

/-- Without a root key no tag is asked for, and slot A is accepted (R464, R477). -/
theorem releaseJudged_selectSlot :
    ∃ im, releaseJudged.selectSlot releaseFind 1 = (releaseJudged, .slot 0 im false) ∧ im.entries = releaseEntries := by
  obtain ⟨im, accept, entries⟩ := releaseJudged_judgeSlot
  refine ⟨im, ?_, entries⟩
  have derive : releaseJudged.deriveKey releaseFind.entropy = (releaseJudged, false) := by
    have dead : releaseJudged.boot.dead = false := by decide +kernel
    have key : releaseJudged.keyOk = false := by decide +kernel
    simp only [State.deriveKey, releaseFind, dead, key, Bool.not_true, Bool.or_self, Bool.false_eq_true, if_false, Bool.not_false, if_true]
  have auth : releaseJudged.authNeeded = false := by decide +kernel
  have trial : releaseJudged.tryTrial 0 = (releaseJudged, true) := State.tryTrial_unlisted releaseJudged_directory 0
  have chosen : releaseJudged.trySlot releaseFind false 0 0 = (releaseJudged, some (.slot 0 im false)) := by
    simp only [State.trySlot, trial, auth, accept, Bool.not_true, Bool.false_and, Bool.false_eq_true, if_false, bne_self_eq_false]
  rw [State.selectSlot, derive, releaseJudged_directory]
  show selectNext _ (releaseJudged.trySlot releaseFind false 0 0) = _
  rw [chosen]
  rfl

theorem releaseJudged_judgeRelease : releaseJudged.judgeRelease releaseFind 1 = (releaseJudged, .inl 0) := by
  obtain ⟨im, selected, entries⟩ := releaseJudged_selectSlot
  have valid := (Bool.and_eq_true_iff.1 releaseEntries_values).2
  have usable : (releaseFind.flash == .unusable) = false := by decide
  simp only [State.judgeRelease, usable, selected, entries, valid, Bool.false_eq_true, if_false, if_true]

theorem releaseChecked_verdict :
    ((({ releaseChecked with boot := { releaseChecked.boot with check := Option.none } } : State).setFld Fld.GLB_BOOTREL.BUSY
      0).judgeRelease releaseFind 1).2 = .inl 0 := congrArg Prod.snd releaseJudged_judgeRelease

/-- What an accepted check leads to (R23, R483). -/
def State.bootReleased (s : State) (choice slot : Nat) : State :=
  let s := (s.setFld Fld.GLB_BOOTREL.RESULT 1).event 0x0005 (choice <<< 1)
  let s := { s with boot := { s.boot with choice := slot + 1, released := true, again := false, stage8 := false, hold := 0 } }
  let s := s.setFld Fld.MGT_BOOTSTAT.HOLD_CAUSE 0
  if s.pwr.latch then
    let s := { s with
      gust := { s.gust with rst := 2, headOk := false, headDone := false, overflow := false, unread := false },
      ord := { s.ord with replayed := 0 } }
    (s.goTo .restore 0x06).setReg Reg.PWR_CONTENTS 0
  else (s.goTo .boot 0x06).setFld Fld.MAP_CAP.REGIONS 0

theorem exec_bootReleaseChecked_accepted {s u : State} {found : BootFind} {choice slot : Nat} (check : s.boot.check = some choice)
    (live : (s.top.state != .bootHold || s.top.trigger.isSome || s.outranked 7) = false)
    (judged : (({ s with boot := { s.boot with check := Option.none } } : State).setFld Fld.GLB_BOOTREL.BUSY 0).judgeRelease found choice =
      (u, .inl slot)) :
    exec (.bootReleaseChecked found) s = .next (u.bootReleased choice slot) := by
  show execBootReleaseChecked found s = _
  simp only [execBootReleaseChecked, check, live, judged, Bool.false_eq_true, if_false]
  rfl

/-- The hub enters `RESTORE`, and no journal line counts as replayed. -/
theorem releaseChecked_releases :
    ∃ t, exec (.bootReleaseChecked releaseFind) releaseChecked = .next t ∧ t.ord.replayed = 0 :=
  ⟨_, exec_bootReleaseChecked_accepted rfl (by decide +kernel) releaseJudged_judgeRelease, by decide +kernel⟩

/-- Refutes O21: a release with the retention latch set starts the count of replayed journal lines anew, which the clause of
BOOT_RELEASE_CHECKED has unchanged. -/
theorem not_releasesRun : ¬ Obligations.ReleasesRun := by
  unfold Obligations.ReleasesRun
  intro h
  obtain ⟨-, -, -, -, -, checked, -⟩ := h releaseChecked releaseChecked_canon
  obtain ⟨t, run, -, effect⟩ := checked releaseFind 1 rfl rfl (by decide +kernel) rfl
  obtain ⟨-, -, -, -, -, -, -, -, -, -, kept⟩ := effect
  have ord : t.ord = releaseChecked.ord := kept (by rw [releaseChecked_verdict]; rfl) .ord rfl
  obtain ⟨u, run', replayed⟩ := releaseChecked_releases
  obtain rfl : t = u := Host.Outcome.next.inj (run.symm.trans run')
  rw [ord] at replayed
  exact absurd replayed (by decide)

end Sys2Proof.Machine
end

section
/-!
A solo grant that takes effect while a handover is still noted (R195, R212).
-/

set_option Elab.async false

namespace Sys2Proof.Machine

/-- An entry of the region table: primary, `SYNCED`, with a handover in progress (R146). -/
def primaryInHandover : Word := rtPut 0 1 0 true

/-- The hub in `SERVICE` with an accepted solo grant whose hold has ended before the conversion, and a handover of region 0 noted. -/
def soloWithHandover : State :=
  { Tests.coreIn .service with
    map := { State.reset.map with rt := [(0, primaryInHandover)] }
    mir := { State.reset.mir with soloGrant := true, soloEnd := true, handovers := [{ region := 0, atP := false, mtag := 0 }] } }

theorem soloWithHandover_canon : soloWithHandover.canon := Tests.canonOf (by decide +kernel)

/-- As the hub becomes solo it abandons the handover and clears `HANDOVER`, which the converted entry keeps. -/
theorem soloWithHandover_converts :
    ∃ t, exec .soloConversionDone soloWithHandover = .next t ∧ t.rtEntry 0 = rtPut 0 1 1 false :=
  ⟨_, rfl, by decide +kernel⟩

/-- Refutes O41: the clause of SOLO_CONVERSION_DONE after the hold's end gives every mapped region its solo entry, though entering the
solo state still abandons the handovers in progress and clears their `HANDOVER` bits. -/
theorem not_soloAndFormatRun : ¬ Obligations.SoloAndFormatRun := by
  unfold Obligations.SoloAndFormatRun
  intro h
  obtain ⟨-, -, ends, -⟩ := h soloWithHandover soloWithHandover_canon
  obtain ⟨t, run, -, -, -, -, -, entries, -⟩ := ends rfl rfl rfl rfl rfl (by decide +kernel) (by decide +kernel) rfl rfl rfl
  obtain ⟨u, run', cleared⟩ := soloWithHandover_converts
  obtain rfl : t = u := Host.Outcome.next.inj (run.symm.trans run')
  rw [entries 0 (by decide +kernel)] at cleared
  exact absurd cleared (by decide +kernel)

end Sys2Proof.Machine
end

section
/-!
The start of training where an unpopulated sub-channel still holds an earlier run (R275, R302).
-/

set_option Elab.async false

namespace Sys2Proof.Machine

/-- The hub in `TRAIN` at the end of the memory section, with sub-channel 0 alone populated (`SC_BITS` 0) and sub-channel 1 left at step 5. -/
def trainWithStaleRun : State :=
  { (Tests.coreIn .train).setFld Fld.MAP_GEOM.SC_BITS 0 with
    cal := { State.reset.cal with train := [(1, { step := 5 })] }
    pwr := { State.reset.pwr with part := 2, ended := true } }

theorem trainWithStaleRun_canon : trainWithStaleRun.canon := Tests.canonOf (by decide +kernel)

/-- Training starts on the populated sub-channel only: the run of sub-channel 1 stays at its step 5. -/
theorem trainWithStaleRun_keeps :
    ∃ t, exec (.startSectionComplete { bands := [], supply := true }) trainWithStaleRun = .next t ∧ (t.training 1).step = 5 :=
  ⟨_, rfl, by decide +kernel⟩

/-- Refutes O19: the end of the memory section in TRAIN is said to leave every unpopulated sub-channel at step 0, but `startTraining` writes
the runs of the populated ones only and keeps what the others hold. -/
theorem not_sequencingRuns : ¬ Obligations.SequencingRuns := by
  unfold Obligations.SequencingRuns
  intro h
  obtain ⟨-, -, -, -, -, -, -, -, -, -, -, -, -, -, -, -, -, train, -⟩ := h trainWithStaleRun trainWithStaleRun_canon
  obtain ⟨t, run, -, -, -, steps, -⟩ := train { bands := [], supply := true } (by decide +kernel) (by decide +kernel) rfl rfl
  obtain ⟨u, run', stale⟩ := trainWithStaleRun_keeps
  obtain rfl : t = u := Host.Outcome.next.inj (run.symm.trans run')
  rw [steps 1 (by decide)] at stale
  exact absurd stale (by decide +kernel)

end Sys2Proof.Machine
end

section
/-!
A power-loss trigger at step E4 of an emergency Lull that took over a planned one (R389, R397).
-/

set_option Elab.async false

namespace Sys2Proof.Machine

/-- The hub in `SERVICE` at step E4 of an emergency Lull that has taken over an entered planned Lull, with a trigger detected and the
contents valid. -/
def triggerAtE4 : State :=
  { (Tests.coreIn .service).setFld Fld.PWR_HOLD.CVALID 1 with
    clk := { State.reset.clk with planned := true, entered := true, emerg := 2, estep := 4 }
    pwr := { State.reset.pwr with det := some 1 } }

theorem triggerAtE4_canon : triggerAtE4.canon := Tests.canonOf (by decide +kernel)

/-- The trigger ends the Lull, and the planned one is counted in `CLK_LULLS`. -/
theorem triggerAtE4_countsLull :
    ∃ t, exec .powerLossTrigger triggerAtE4 = .next t ∧ t.reg Reg.CLK_LULLS ≠ triggerAtE4.reg Reg.CLK_LULLS :=
  ⟨_, rfl, by decide +kernel⟩

/-- Refutes O17: the parts named for POWER_LOSS_TRIGGER with the contents valid leave out `CLK_LULLS`, which counts the planned Lull
that the trigger ends at step E4. -/
theorem not_gustRuns : ¬ Obligations.GustRuns := by
  unfold Obligations.GustRuns
  intro h
  obtain ⟨gust, -⟩ := h triggerAtE4 triggerAtE4_canon
  obtain ⟨t, run, kept, -⟩ := gust 1 rfl (by decide +kernel) rfl (by decide +kernel) (.inr (.inl rfl))
  obtain ⟨u, run', counted⟩ := triggerAtE4_countsLull
  obtain rfl : t = u := Host.Outcome.next.inj (run.symm.trans run')
  exact counted (kept (.reg Reg.CLK_LULLS) (by decide +kernel))

end Sys2Proof.Machine
end

section
/-!
Rules for single bits of a field, for the registers that the AON domain keeps, and for the entry into a state whose links are down.
-/

set_option Elab.async false

namespace Sys2Proof.Machine

/-! ### Fields -/

/-- A field is at most what its bits hold. -/
theorem State.fld_lt (s : State) (f : Fld) : s.fld f < 2 ^ (f.hi + 1 - f.lo) := Nat.mod_lt _ (Nat.two_pow_pos _)

/-- A bit of a field reads what was written to it. -/
theorem State.fldBit_setFldBit (s : State) (f : Fld) (i : Nat) (b : Bool) (h : f.hi < 32) (hi : i < f.hi + 1 - f.lo) :
    (s.setFldBit f i b).fldBit f i = b := by
  unfold State.setFldBit State.fldBit
  rw [State.fld_setFld _ _ _ h, Nat.testBit_mod_two_pow]
  cases hb : (s.fld f).testBit i <;> cases b <;> simp [hb, hi, Nat.testBit_xor, Nat.testBit_shiftLeft]

/-- A counter field counts up to its greatest value. -/
theorem State.fld_bumpF (s : State) (f : Fld) (h : f.hi < 32) : (s.bumpF f).fld f = min f.max (s.fld f + 1) := by
  have hp := Nat.two_pow_pos (f.hi + 1 - f.lo)
  rw [State.bumpF, State.fld_setFld _ _ _ h, Nat.mod_eq_of_lt]
  rw [Fld.max]
  omega

/-! ### The registers of the AON domain -/

/-- A part of the state in which no register of the AON domain lies but those of the list. -/
def Part.aonSafe (L : List Nat) : Part → Bool
  | .regs => false
  | .reg r => L.contains r || !aonReg r
  | .block b => !(b == 0x0 || b == 0xA || b == 0xB || b == 0xC || b == 0xD)
  | _ => true

theorem AonKept.refl (L : List Nat) (s : State) : AonKept L s s := fun _ _ _ => rfl

theorem AonKept.trans {L : List Nat} {a b c : State} (h : AonKept L a b) (k : AonKept L b c) : AonKept L a c := fun r hr hl =>
  (k r hr hl).trans (h r hr hl)

/-- An operation whose frame holds no other AON register keeps them. -/
theorem AonKept.of_keeps {L : List Nat} {P : List Part} {s t : State} (k : Keeps P s t) (c : s.canon)
    (h : P.all (Part.aonSafe L) = true) : AonKept L s t := fun a ha hL => by
  refine k.reg c (List.any_eq_false.2 fun q hq => ?_)
  have safe := List.all_eq_true.1 h q hq
  cases q with
  | regs => simp [Part.aonSafe] at safe
  | reg r =>
    simp only [Part.aonSafe, Bool.or_eq_true, Bool.not_eq_true', List.contains_iff_mem] at safe
    simp only [Part.covers, decide_eq_true_eq]
    rintro ⟨rfl⟩
    rcases safe with m | m
    · exact hL m
    · rw [ha] at m
      exact absurd m (by decide)
  | block b =>
    simp only [Part.covers, beq_iff_eq]
    rintro rfl
    simp only [Part.aonSafe, Bool.not_eq_true', Bool.or_eq_false_iff, beq_eq_false_iff_ne] at safe
    obtain ⟨⟨⟨⟨h0, hA⟩, hB⟩, hC⟩, hD⟩ := safe
    simp only [aonReg, Bool.or_eq_true, beq_iff_eq, Bool.and_eq_true, decide_eq_true_eq, h0, hA, hC, hD, false_or] at ha
    refine hB ?_
    rw [Nat.shiftRight_eq_div_pow]
    omega
  | _ => simp [Part.covers]

/-- What a register of the AON domain holds outlives the core's power (R527). -/
theorem Tab.get_keptReg (t : Tab Word) {a : Nat} (h : aonReg a = true) :
    Tab.get regReset (t.filterMap keptReg) a = Tab.get regReset t a := by
  induction t with
  | nil => rfl
  | cons p r ih =>
    obtain ⟨j, v⟩ := p
    rw [List.filterMap_cons, Tab.get]
    by_cases hj : a = j
    · subst hj
      rw [keptReg, if_pos h]
      simp [Tab.get]
    · rw [if_neg hj, ← ih]
      split
      · rfl
      · next q hq =>
        have hq1 : q.1 = j := by
          unfold keptReg at hq
          dsimp only at hq
          split at hq
          · cases hq; rfl
          · split at hq <;> cases hq
            rfl
        rw [Tab.get, if_neg (by rw [hq1]; exact hj)]

/-- With the core domain off the AON registers stand, but that no directive is in progress. -/
theorem State.coreStop_aonKept {s : State} (c : s.canon) : AonKept [Reg.GLB_DIRSTAT] s s.coreStop := fun a ha hL => by
  have k := (State.tear_keeps s).reg c (a := a) (List.any_eq_false.2 fun q hq => by
    simp only [State.tear_parts, List.mem_cons, List.not_mem_nil, or_false] at hq
    obtain rfl | rfl := hq <;> simp [Part.covers])
  have ne : a ≠ Reg.GLB_DIRSTAT := by simpa using hL
  show Tab.get regReset (((s.tear.setFld Fld.GLB_DIRSTAT.BUSY 0).regs).filterMap keptReg) a = _
  rw [Tab.get_keptReg _ ha]
  exact (State.reg_setReg_other s.tear _ ne).trans k

/-! ### The fall of the links with the top level -/

/-- What entering a state whose links are down does beside the change itself (R64, R66). -/
theorem State.afterEntry_down (s : State) {dst : TopState} (prev : TopState) (cause : Byte) (h : dst.linksDown = true) :
    s.afterEntry dst prev cause = allPorts.foldl (fun s p => s.linkDown p false)
      ((s.setFld Fld.GLB_EVENT.STATE 1).event 0x0001 (dst.code + (prev.code <<< 4) + (cause.toNat <<< 8))) := by
  have join : (dst == .join) = false := by revert h; cases dst <;> decide
  have service : (dst == .service) = false := by revert h; cases dst <;> decide
  have restore : (dst == .restore) = false := by revert h; cases dst <;> decide
  have train : (dst == .train) = false := by revert h; cases dst <;> decide
  simp only [State.afterEntry, State.aonEntry, h, join, service, restore, train, Bool.or_self, Bool.false_and, Bool.false_eq_true,
    if_true, if_false]

/-- Entering a state whose links are down changes the top level, the links and what falls with them (R64, R66). -/
theorem State.goTo_down_keeps (s : State) {dst : TopState} (cause : Byte) (h : dst.linksDown = true) :
    Keeps fallParts s (s.goTo dst cause) := by
  rw [State.goTo, State.afterEntry_down _ _ _ h]
  refine Keeps.foldl _ _ ?_ fun t p k => Keeps.via (State.linkDown_keeps t p false) rfl k
  refine Keeps.via (State.event_keeps _ _ _) rfl (Keeps.via (State.setFld_keeps _ _ _) rfl ?_)
  exact (Keeps.upd_top _ _).mono rfl

/-- The whole fall of the core and its contents, from a transition to a state with the links down (R416). -/
def State.fallTo (s : State) (dst : TopState) (cause : Byte) : State := (s.goTo dst cause).coreStop.dropTrigger.loseDram

/-- What a fall leaves of the state: the top level, the sequencer and the VBAT domain. -/
theorem State.fallTo_spec {s : State} (c : s.canon) {dst : TopState} (cause : Byte) (h : dst.linksDown = true) :
    (s.fallTo dst cause).top =
        { s.top with state := dst, prev := s.top.state, cause := cause, coreOn := false, trigger := none } ∧
      (s.fallTo dst cause).pwr = { s.pwr with det := none } ∧ (s.fallTo dst cause).vbat = s.vbat ∧ (s.fallTo dst cause).dram = [] := by
  have k := State.goTo_down_keeps s cause h
  have stop := State.coreStop_keeps (s.goTo dst cause)
  have top := State.goTo_top c dst cause
  have pwr : (s.goTo dst cause).pwr = s.pwr := k.same c .pwr (by decide +kernel)
  have vbat : (s.goTo dst cause).vbat = s.vbat := k.same c .vbat (by decide +kernel)
  have pwr' : (s.goTo dst cause).coreStop.pwr = _ := stop.same (k.canon c) .pwr (by decide +kernel)
  have vbat' : (s.goTo dst cause).coreStop.vbat = _ := stop.same (k.canon c) .vbat (by decide +kernel)
  have tear : (s.goTo dst cause).tear.top = _ := (State.tear_keeps _).same (k.canon c) .top (by decide +kernel)
  refine ⟨?_, ?_, vbat'.trans vbat, rfl⟩
  · show { (s.goTo dst cause).tear.top with coreOn := false, trigger := none } = _
    rw [tear, top]
  · show { (s.goTo dst cause).coreStop.pwr with det := none } = _
    rw [pwr', pwr]

/-- The AON registers that a fall leaves standing. -/
theorem State.fallTo_aonKept {s : State} (c : s.canon) {dst : TopState} (cause : Byte) (h : dst.linksDown = true) :
    AonKept [Reg.GLB_HUBID, Reg.GLB_EVENT, Reg.GLB_DIRSTAT, Reg.LOG_RINGSTAT, Reg.LOG_CAPTURED, Reg.LOG_COALESCED, Reg.LOG_LOST,
      Reg.LOG_ORPHANS, Reg.LOG_SQUALLS] s (s.fallTo dst cause) := by
  have k := State.goTo_down_keeps s cause h
  have stop : AonKept [Reg.GLB_DIRSTAT] (s.goTo dst cause) (s.fallTo dst cause) := State.coreStop_aonKept (k.canon c)
  exact (AonKept.of_keeps k c (by decide +kernel)).trans fun a ha hL => stop a ha fun m => hL (by simp_all)

end Sys2Proof.Machine
end

section
/-!
A rail fault (R412 to R416): what it notes, what falls, and what stands after it.
-/

set_option Elab.async false

namespace Sys2Proof.Machine

/-! ### Rail faults -/

/-- The record that a rail fault makes, when none stands (R413, R414). -/
def State.faultRec (s : State) (n : Nat) (kind : BitVec 2) : FaultRec :=
  { first := n, kind := kind, mask := BitVec.ofNat 16 (1 <<< n), state := s.top.state, stamp := s.stamp, tq := s.quality,
    readings := s.allReadings }

/-- A record of a rail fault stands in the AON or the VBAT domain (R414). -/
def State.faultHeld (s : State) : Bool := s.pwr.record.isSome || s.vbat.record.isSome

/-- The fault noted: recorded where no record stands, and counted. -/
def State.faultNoted (s : State) (n : Nat) (kind : BitVec 2) : State :=
  (if s.faultHeld then s else
    ({ s with pwr := { s.pwr with record := some (s.faultRec n kind) }, vbat := { s.vbat with record := some (s.faultRec n kind) } }).setFld
      Fld.GLB_EVENT.RAILSNAP 1).bumpF Fld.PWR_FAULTS.FAULTS

/-- The sequencer and the contents-valid flag at a rail fault, before the top level falls (R413, R416). -/
def State.faultLow (s : State) (n : Nat) (kind : BitVec 2) : State :=
  ({ (s.faultNoted n kind).allLow with
    pwr := { (s.faultNoted n kind).allLow.pwr with
      failAt := s.time.elapsed, failWatch := if s.faultHeld then {} else s.failWatch } }).clearValid 0x7

theorem State.faultNoted_keeps (s : State) (n : Nat) (kind : BitVec 2) :
    Keeps [.vbat, .pwr, .reg Reg.GLB_EVENT, .reg Reg.PWR_FAULTS] s (s.faultNoted n kind) := by
  refine Keeps.via (State.bumpF_keeps _ _ _) rfl (Keeps.ite (Keeps.refl _ _) ?_)
  exact Keeps.via (State.setFld_keeps _ _ _) rfl (Keeps.via (Keeps.upd_vbat_pwr _ _ _) rfl (Keeps.refl _ _))

theorem State.faultLow_noted_keeps (s : State) (n : Nat) (kind : BitVec 2) :
    Keeps [.vbat, .pwr, .reg Reg.PWR_RAILSTAT, .reg Reg.PWR_SEQSTAT, .reg Reg.PWR_HOLD] (s.faultNoted n kind) (s.faultLow n kind) := by
  refine Keeps.via (State.clearValid_keeps _ _) rfl (Keeps.via (Keeps.upd_pwr _ _) rfl ?_)
  exact Keeps.via (State.allLow_keeps _) rfl (Keeps.refl _ _)

theorem State.faultLow_keeps (s : State) (n : Nat) (kind : BitVec 2) :
    Keeps [.vbat, .pwr, .reg Reg.GLB_EVENT, .reg Reg.PWR_RAILSTAT, .reg Reg.PWR_SEQSTAT, .reg Reg.PWR_HOLD, .reg Reg.PWR_FAULTS] s
      (s.faultLow n kind) :=
  ((State.faultNoted_keeps s n kind).mono rfl).trans ((State.faultLow_noted_keeps s n kind).mono rfl)

/-- A rail fault is the fault noted, everything low, and the fall to `FAULT_OFF`. -/
theorem State.railFault_eq (s : State) (n : Nat) (kind : BitVec 2) :
    s.railFault n kind = (s.faultLow n kind).fallTo .faultOff 0x11 := by
  unfold State.railFault State.faultLow State.faultNoted State.faultHeld
  cases s.pwr.record.isSome || s.vbat.record.isSome <;> rfl

/-- The domains' records after a fault is noted. -/
theorem State.faultLow_record (s : State) (n : Nat) (kind : BitVec 2) :
    (s.faultLow n kind).pwr.record = (if s.faultHeld then s.pwr.record else some (s.faultRec n kind)) ∧
      (s.faultLow n kind).vbat.record = (if s.faultHeld then s.vbat.record else some (s.faultRec n kind)) := by
  cases h : s.faultHeld <;> simp [State.faultLow, State.faultNoted, State.clearValid, State.allLow, h]

/-- The fault is counted once. -/
theorem State.faultLow_count {s : State} (c : s.canon) (n : Nat) (kind : BitVec 2) :
    (s.faultLow n kind).fld Fld.PWR_FAULTS.FAULTS = min Fld.PWR_FAULTS.FAULTS.max (s.fld Fld.PWR_FAULTS.FAULTS + 1) := by
  rw [(State.faultLow_noted_keeps s n kind).fld ((State.faultNoted_keeps s n kind).canon c) (by decide +kernel),
    State.faultNoted, State.fld_bumpF _ _ (by decide)]
  congr 2
  split
  · rfl
  · exact State.fld_setFld_other _ _ (by decide)

theorem State.allLow_hold (s : State) : s.allLow.fld Fld.PWR_HOLD.HOLD_EN = 0 :=
  (State.fld_setFld _ Fld.PWR_HOLD.HOLD_EN 0 (by decide)).trans (Nat.zero_mod _)

theorem State.clearValid_hold (s : State) (r : BitVec 4) :
    (s.clearValid r).fld Fld.PWR_HOLD.HOLD_EN = s.fld Fld.PWR_HOLD.HOLD_EN :=
  State.fld_setFld_disjoint _ (f := Fld.PWR_HOLD.CVALID) (g := Fld.PWR_HOLD.HOLD_EN) 0 rfl (by decide)

/-- `HOLD_EN` is low. -/
theorem State.faultLow_hold (s : State) (n : Nat) (kind : BitVec 2) : (s.faultLow n kind).flag Fld.PWR_HOLD.HOLD_EN = false := by
  have en : (s.faultLow n kind).fld Fld.PWR_HOLD.HOLD_EN = 0 := by
    rw [State.faultLow, State.clearValid_hold]
    exact State.allLow_hold _
  rw [State.flag, en]
  rfl

/-- What a rail fault leaves behind (R413, R414, R416). -/
theorem State.railFault_spec {s t : State} (c : s.canon) {n : Nat} {kind : BitVec 2} (ht : t = s.railFault n kind) :
    t.top = { s.top with state := .faultOff, prev := s.top.state, cause := 0x11, coreOn := false, trigger := none } ∧
      t.pwr.rails = [] ∧ t.dram = [] ∧ t.vbat.cvalid = false ∧ t.vbat.reason = 7 ∧ t.flag Fld.PWR_HOLD.HOLD_EN = false ∧
      t.fld Fld.PWR_FAULTS.FAULTS = min Fld.PWR_FAULTS.FAULTS.max (s.fld Fld.PWR_FAULTS.FAULTS + 1) ∧
      t.pwr.record = (if s.faultHeld then s.pwr.record else some (s.faultRec n kind)) ∧
      t.vbat.record = (if s.faultHeld then s.vbat.record else some (s.faultRec n kind)) := by
  rw [s.railFault_eq n kind] at ht
  have low := State.faultLow_keeps s n kind
  obtain ⟨top, pwr, vbat, dram⟩ := State.fallTo_spec (low.canon c) (dst := .faultOff) 0x11 rfl
  have kept := State.fallTo_aonKept (low.canon c) (dst := .faultOff) 0x11 rfl
  rw [← ht] at top pwr vbat dram kept
  have top' : (s.faultLow n kind).top = s.top := low.same c .top (by decide +kernel)
  have hold : t.reg Reg.PWR_HOLD = _ := kept _ (by decide +kernel) (by decide +kernel)
  have faults : t.reg Reg.PWR_FAULTS = _ := kept _ (by decide +kernel) (by decide +kernel)
  obtain ⟨rec, rec'⟩ := s.faultLow_record n kind
  have en := s.faultLow_hold n kind
  have count := State.faultLow_count c n kind
  have rails : (s.faultLow n kind).pwr.rails = [] := rfl
  have cvalid : (s.faultLow n kind).vbat.cvalid = false ∧ (s.faultLow n kind).vbat.reason = 7 := ⟨rfl, rfl⟩
  generalize s.faultLow n kind = low' at *
  refine ⟨by rw [top, top'], by rw [pwr]; exact rails, dram, by rw [vbat]; exact cvalid.1, by rw [vbat]; exact cvalid.2, ?_, ?_,
    by rw [pwr]; exact rec, by rw [vbat]; exact rec'⟩
  · rw [State.flag, State.fld, hold]
    exact en
  · rw [State.fld, faults]
    exact count

/-- The AON registers that a rail fault leaves standing. -/
theorem State.railFault_aonKept {s : State} (c : s.canon) (n : Nat) (kind : BitVec 2) :
    AonKept [Reg.GLB_HUBID, Reg.GLB_EVENT, Reg.GLB_DIRSTAT, Reg.PWR_RAILSTAT, Reg.PWR_SEQSTAT, Reg.PWR_HOLD, Reg.PWR_FAULTS,
      Reg.LOG_RINGSTAT, Reg.LOG_CAPTURED, Reg.LOG_COALESCED, Reg.LOG_LOST, Reg.LOG_ORPHANS, Reg.LOG_SQUALLS] s (s.railFault n kind) := by
  have low := State.faultLow_keeps s n kind
  rw [s.railFault_eq n kind]
  refine (AonKept.of_keeps low c (by decide +kernel)).trans fun a ha hL => ?_
  exact State.fallTo_aonKept (low.canon c) (dst := .faultOff) 0x11 rfl a ha fun m => hL (by simp_all)

end Sys2Proof.Machine
end

section
/-!
Rail supervision: what the declaration of a rail out of its window, an excursion and a conversion of the monitor leave behind.
-/

set_option Elab.async false

namespace Sys2Proof.Machine

/-! ### A rail out of its window -/

/-- A rail shown out of its window, its excursion over. -/
def State.shownOut (s : State) (n : Nat) : State := (s.endExc n).setFldBit Fld.PWR_RAILSTAT.INWIN n false

theorem State.shownOut_keeps (s : State) (n : Nat) : Keeps [.pwr, .reg Reg.PWR_RAILSTAT] s (s.shownOut n) :=
  Keeps.via (State.setFldBit_keeps _ _ _ _) rfl (Keeps.via (State.endExc_keeps _ _) rfl (Keeps.refl _ _))

theorem State.shownOut_inwin (s : State) (n : Fin 16) : (s.shownOut n.val).fldBit Fld.PWR_RAILSTAT.INWIN n.val = false :=
  State.fldBit_setFldBit _ _ _ _ (by decide) n.isLt

theorem State.shownOut_faultDue (s : State) (n : Fin 16) (above : Bool) :
    (s.shownOut n.val).faultDue n.val above = s.faultDue n.val above := by
  have used : (s.shownOut n.val).railUsed n.val = s.railUsed n.val := by
    rw [State.railUsed, State.flag, State.shownOut, State.setFldBit, State.fld_setFld_other _ _ (by revert n; decide)]
    rfl
  rw [State.faultDue, used]
  rfl

/-- Only the loss of every source comes before a rail fault (R25). -/
theorem State.two_le_eventRank (s : State) {c : Instr} (h : c ≠ .allSourcesLost) : 2 ≤ s.eventRank c := by
  unfold State.eventRank
  split
  · exact absurd rfl h
  · split <;> decide
  · split <;> decide
  · split <;> decide
  · split <;> decide
  · split <;> decide
  · decide

theorem State.outranked_two (s : State) : s.outranked 2 = s.pending.any fun c => decide (c = .allSourcesLost) := by
  refine congrArg _ (funext fun c => decide_eq_decide.2 ⟨fun h => ?_, fun h => by rw [h]; exact Nat.one_lt_two⟩)
  exact by_contra fun n => absurd (s.two_le_eventRank n) (Nat.not_le.2 h)

/-- What a declaration within 1 µs of the fault adds to the records (R403, R414). -/
theorem State.joinFault_spec (s : State) {watched : List Nat} {n : Nat} (kind : BitVec 2) (hm : n ∈ watched)
    (ht : s.time.elapsed ≤ s.pwr.failAt + 8000) :
    ((s.joinFault watched n kind).vbat.record.map (·.mask) = s.vbat.record.map fun r => r.mask ||| BitVec.ofNat 16 (1 <<< n)) ∧
      ((s.joinFault watched n kind).pwr.record.map (·.mask) = s.pwr.record.map fun r => r.mask ||| BitVec.ofNat 16 (1 <<< n)) ∧
      (s.time.elapsed ≠ s.pwr.failAt → (s.joinFault watched n kind).vbat.record.map (·.first) = s.vbat.record.map (·.first)) := by
  rw [State.joinFault, if_neg (by simp [hm, ht])]
  refine ⟨?_, ?_, fun later => ?_⟩
  · dsimp only
    rw [Option.map_map]
    congr 1
    funext r
    dsimp only [Function.comp]
    split <;> rfl
  · dsimp only
    rw [Option.map_map]
    congr 1
    funext r
    dsimp only [Function.comp]
    split <;> rfl
  · dsimp only
    rw [Option.map_map]
    congr 1
    funext r
    simp [Function.comp, later]

/-! ### A conversion of the monitor (R402) -/

/-- Two fields of 12 bits, the reading and the lowest, in one register. -/
def readingPair (f g : Fld) : Prop := g.addr = f.addr ∧ f.hi = 11 ∧ f.lo = 0 ∧ g.hi = 27 ∧ g.lo = 16

/-- One conversion shows its reading and keeps the lowest. -/
theorem State.convert_fld {f g : Fld} (s : State) (p : readingPair f g) (v : BitVec 12) :
    (s.convert f g v).fld f = v.toNat ∧ (s.convert f g v).fld g = min (s.fld g) v.toNat := by
  obtain ⟨ha, hf, lf, hg, lg⟩ := p
  have cut : s.fld g < 2 ^ 12 := by
    have := s.fld_lt g
    rwa [hg, lg] at this
  constructor
  · rw [State.convert, State.fld_setFld_disjoint _ _ ha.symm (by omega), State.fld_setFld _ _ _ (by omega), hf, lf]
    exact Nat.mod_eq_of_lt v.isLt
  · rw [State.convert, State.fld_setFld _ _ _ (by omega), hg, lg]
    exact Nat.mod_eq_of_lt (Nat.lt_of_le_of_lt (Nat.min_le_left _ _) cut)

/-- One conversion writes its own register. -/
theorem State.convert_keeps {f g : Fld} (s : State) (p : readingPair f g) (v : BitVec 12) : Keeps [.reg f.addr] s (s.convert f g v) := by
  have low := State.setFld_keeps (s.setFld f v.toNat) g (min (s.fld g) v.toNat)
  rw [p.1] at low
  exact (State.setFld_keeps s f v.toNat).trans low

theorem readingPair_rail (n : Nat) : readingPair (Fld.PWR_RAILRD.READING n) (Fld.PWR_RAILRD.MIN n) := ⟨rfl, rfl, rfl, rfl, rfl⟩

/-- One rail's conversion, where its reading has come. -/
def State.readRail (readings : List (BitVec 12)) (s : State) (n : Nat) : State :=
  match readings[n]? with
  | some v => s.convert (Fld.PWR_RAILRD.READING n) (Fld.PWR_RAILRD.MIN n) v
  | none => s

theorem State.readRail_keeps (readings : List (BitVec 12)) (s : State) (n : Nat) :
    Keeps [.reg (Reg.PWR_RAILRD n)] s (State.readRail readings s n) := by
  unfold State.readRail
  split
  · exact State.convert_keeps _ (readingPair_rail n) _
  · exact Keeps.refl _ _

/-- The rails' registers lie apart. -/
theorem railrd_inj {n m : Nat} (hn : n < 16) (hm : m < 16) (h : Reg.PWR_RAILRD n = Reg.PWR_RAILRD m) : n = m := by
  simp only [Reg.PWR_RAILRD] at h
  omega

theorem State.readRails_keeps (readings : List (BitVec 12)) (l : List Nat) (s : State) :
    Keeps [.regs] s (foldS l (State.readRail readings) s) :=
  Keeps.foldS _ _ (Keeps.refl _ _) fun t n k => Keeps.viaReg (State.readRail_keeps readings t n) rfl k

/-- The conversion of the rails of a list leaves every register but theirs alone. -/
theorem State.readRails_other {readings : List (BitVec 12)} {l : List Nat} {s : State} (c : s.canon) {a : Nat}
    (h : ∀ n ∈ l, a ≠ Reg.PWR_RAILRD n) : (foldS l (State.readRail readings) s).reg a = s.reg a := by
  induction l generalizing s with
  | nil => rfl
  | cons n r ih =>
    obtain ⟨hn, hr⟩ := List.forall_mem_cons.1 h
    have k := State.readRail_keeps readings s n
    refine (ih (k.canon c) hr).trans (k.reg c ?_)
    simp only [List.any_cons, List.any_nil, Part.covers, Bool.or_false, decide_eq_false_iff_not, Part.reg.injEq]
    exact hn.symm

/-- The conversion of the rails of a list shows the reading of each and keeps the lowest. -/
theorem State.readRails_fld {readings : List (BitVec 12)} {l : List Nat} (hl : ∀ n ∈ l, n < 16) (nd : l.Nodup) {s : State} (c : s.canon)
    {m : Nat} (h : m ∈ l) {v : BitVec 12} (hv : readings[m]? = some v) :
    (foldS l (State.readRail readings) s).fld (Fld.PWR_RAILRD.READING m) = v.toNat ∧
      (foldS l (State.readRail readings) s).fld (Fld.PWR_RAILRD.MIN m) = min (s.fld (Fld.PWR_RAILRD.MIN m)) v.toNat := by
  induction l generalizing s with
  | nil => exact absurd h List.not_mem_nil
  | cons n r ih =>
    obtain ⟨hn, hr⟩ := List.forall_mem_cons.1 hl
    obtain ⟨nr, nd⟩ := List.nodup_cons.1 nd
    have k := State.readRail_keeps readings s n
    rcases List.mem_cons.1 h with rfl | h
    · have same := State.readRails_other (readings := readings) (k.canon c) fun q hq e => nr (railrd_inj hn (hr q hq) e ▸ hq)
      have now : State.readRail readings s m = s.convert (Fld.PWR_RAILRD.READING m) (Fld.PWR_RAILRD.MIN m) v := by
        rw [State.readRail, hv]
      rw [now] at same
      obtain ⟨reading, low⟩ := s.convert_fld (readingPair_rail m) v
      have step : foldS (m :: r) (State.readRail readings) s = foldS r (State.readRail readings) (State.readRail readings s m) := rfl
      rw [step, now]
      exact ⟨(congrArg (fieldGet · 11 0) same).trans reading, (congrArg (fieldGet · 27 16) same).trans low⟩
    · have ne : Reg.PWR_RAILRD m ≠ Reg.PWR_RAILRD n := fun e => nr (railrd_inj (hr m h) hn e ▸ h)
      have low : (State.readRail readings s n).fld (Fld.PWR_RAILRD.MIN m) = s.fld (Fld.PWR_RAILRD.MIN m) := k.fld c (by
        simp only [List.any_cons, List.any_nil, Part.covers, Bool.or_false, decide_eq_false_iff_not, Part.reg.injEq]
        exact ne.symm)
      rw [← low]
      exact ih hr nd (k.canon c) h

end Sys2Proof.Machine
end

section
/-!
Rail supervision: faults, droop, excursions and readings (R400 to R403, R411 to R416).
-/

set_option Elab.async false

namespace Sys2Proof.Machine

/-! ### RAIL_OUT_OF_WINDOW -/

/-- What a rail out of its window does, by the state of the rail and of the hub (R401, R403, R411, R412, R414). -/
theorem exec_railOutOfWindow {s : State} {rail : Fin 16} {above : Bool} (on : s.top.aonOn = true) (used : s.railUsed rail.val = true) :
    exec (.railOutOfWindow rail above) s = .next (
      if s.top.state == .faultOff then
        (s.shownOut rail.val).joinFault (if above then s.pwr.failWatch.above else s.pwr.failWatch.below) rail.val (if above then 2 else 1)
      else if s.faultDue rail.val above then
        if s.outranked 2 then s.shownOut rail.val else (s.shownOut rail.val).railFault rail.val (if above then 2 else 1)
      else if s.railArmed rail.val then ((s.shownOut rail.val).setRail rail.val .disarmed).event 0xA012 rail.val
      else s.shownOut rail.val) := by
  have rank : (s.shownOut rail.val).outranked 2 = s.outranked 2 := by
    rw [State.outranked_two, State.outranked_two]
    rfl
  have due := s.shownOut_faultDue rail above
  show Host.Outcome.next _ = _
  rw [if_neg (by simp [on, used]), ← due, ← rank]
  rfl

/-- The AON domain off or the rail unused, nothing happens. -/
theorem exec_railOutOfWindow_idle {s : State} {rail : Fin 16} {above : Bool} (h : s.top.aonOn = false ∨ s.railUsed rail.val = false) :
    exec (.railOutOfWindow rail above) s = .next s := by
  show Host.Outcome.next _ = _
  rw [if_pos (by rcases h with h | h <;> simp [h])]

/-- An armed rail outside a droop, or above its window, is declared a fault (R411, R412). -/
theorem faultDue_armed {s : State} {n : Nat} {above : Bool} (on : s.top.aonOn = true) (used : s.railUsed n = true)
    (off : s.top.state ≠ .faultOff) (armed : s.railArmed n = true) :
    s.faultDue n above = (!s.pwr.droop || above) := by
  have ramping : s.railRamping n = false := by
    rw [State.railArmed, beq_iff_eq] at armed
    rw [State.railRamping, armed]
    rfl
  simp [State.faultDue, on, used, off, armed, ramping]

theorem railFault_runs {s : State} {rail : Fin 16} {above : Bool} (on : s.top.aonOn = true)
    (used : s.railUsed rail.val = true) (off : s.top.state ≠ .faultOff) (armed : s.railArmed rail.val = true)
    (steady : s.pwr.droop = false ∨ above = true) (rank : s.outranked 2 = false) :
    exec (.railOutOfWindow rail above) s = .next ((s.shownOut rail.val).railFault rail.val (if above then 2 else 1)) := by
  have due : s.faultDue rail.val above = true := by
    rw [faultDue_armed on used off armed]
    rcases steady with h | h <;> simp [h]
  rw [exec_railOutOfWindow on used, if_neg (by simp [off]), if_pos due, if_neg (by simp [rank])]

/-- A rail below its window during a droop is disarmed (R411). -/
theorem railDroop_runs {s : State} {rail : Fin 16} (on : s.top.aonOn = true) (used : s.railUsed rail.val = true)
    (off : s.top.state ≠ .faultOff) (armed : s.railArmed rail.val = true) (droop : s.pwr.droop = true) :
    exec (.railOutOfWindow rail false) s = .next (((s.shownOut rail.val).setRail rail.val .disarmed).event 0xA012 rail.val) := by
  have due : s.faultDue rail.val false = false := by
    rw [faultDue_armed on used off armed, droop]
    rfl
  rw [exec_railOutOfWindow on used, if_neg (by simp [off]), if_neg (by simp [due]), if_pos armed]

/-- A rail not armed that is no fault only shows out of its window. -/
theorem railShown_runs {s : State} {rail : Fin 16} {above : Bool} (on : s.top.aonOn = true) (used : s.railUsed rail.val = true)
    (off : s.top.state ≠ .faultOff) (armed : s.railArmed rail.val = false) (low : s.railRamping rail.val = false ∨ above = false) :
    exec (.railOutOfWindow rail above) s = .next (s.shownOut rail.val) := by
  have due : s.faultDue rail.val above = false := by
    rcases low with h | h <;> simp [State.faultDue, armed, h]
  rw [exec_railOutOfWindow on used, if_neg (by simp [off]), if_neg (by simp [due]), if_neg (by simp [armed])]

/-- A rail disarmed in a droop, its event captured. -/
theorem State.disarmed_keeps (s : State) (n : Nat) :
    Keeps (.pwr :: .reg Reg.PWR_RAILSTAT :: logParts) s (((s.shownOut n).setRail n .disarmed).event 0xA012 n) := by
  refine Keeps.trans (b := (s.shownOut n).setRail n .disarmed) ?_ ((State.event_keeps _ _ _).mono (by decide +kernel))
  exact ((s.shownOut_keeps n).mono (by decide +kernel)).trans ((State.setRail_keeps _ _ _).mono (by decide +kernel))

theorem State.setRail_railState (s : State) (n : Nat) (r : RailState) : (s.setRail n r).railState n = r :=
  Tab.get_set_same _ _ n r

theorem State.setRail_inwin (s : State) (n m : Nat) (r : RailState) :
    (s.setRail n r).fldBit Fld.PWR_RAILSTAT.INWIN m = s.fldBit Fld.PWR_RAILSTAT.INWIN m :=
  congrArg (Nat.testBit · m) (State.fld_setFld_disjoint _ _ rfl (by decide))

/-- What the disarming of a rail leaves behind. -/
theorem State.disarmed_spec {s : State} (c : s.canon) (rail : Fin 16) :
    let t := ((s.shownOut rail.val).setRail rail.val .disarmed).event 0xA012 rail.val
    t.railState rail.val = .disarmed ∧ t.fldBit Fld.PWR_RAILSTAT.INWIN rail.val = false ∧ t.top = s.top ∧
      (Attentive s → Logged 0xA012 (BitVec.ofNat 32 rail.val) t) := by
  intro t
  have k := State.event_keeps ((s.shownOut rail.val).setRail rail.val .disarmed) 0xA012 rail.val
  have cx := (State.setRail_keeps _ rail.val .disarmed).canon ((s.shownOut_keeps rail.val).canon c)
  have pwr : t.pwr = _ := k.same cx .pwr (by decide +kernel)
  have stat : t.fld Fld.PWR_RAILSTAT.INWIN = _ := k.fld cx (by decide +kernel)
  have top : t.top = _ := k.same cx .top (by decide +kernel)
  refine ⟨?_, ?_, top, fun at' => State.capture_logged (s := (s.shownOut rail.val).setRail rail.val .disarmed) at' (by decide) _ _⟩
  · rw [State.railState, pwr]
    exact State.setRail_railState _ _ _
  · rw [State.fldBit, stat]
    exact (State.setRail_inwin _ _ _ _).trans (s.shownOut_inwin rail)

/-! ### Excursions -/

/-- An excursion noted under its key. -/
def State.noteExc (s : State) (k : Nat) : State :=
  if s.pwr.exc.contains k then s else { s with pwr := { s.pwr with exc := s.pwr.exc ++ [k] } }

theorem State.mem_noteExc (s : State) (k : Nat) : k ∈ (s.noteExc k).pwr.exc := by
  unfold State.noteExc
  split
  · next h => exact List.contains_iff_mem.1 h
  · exact List.mem_append_right _ List.mem_cons_self

theorem State.noteExc_regs (s : State) (k : Nat) : (s.noteExc k).regs = s.regs := by
  unfold State.noteExc
  split <;> rfl

/-- A supervised input shown in or out of its window: of a rail its bit, of a feed nothing (log entry 29). -/
def State.showInput (s : State) (input : MonInput) (b : Bool) : State :=
  match input with
  | .rail n => s.setFldBit Fld.PWR_RAILSTAT.INWIN n.val b
  | .feed _ => s

theorem State.showInput_pwr (s : State) (input : MonInput) (b : Bool) : (s.showInput input b).pwr = s.pwr := by
  cases input <;> rfl

theorem State.showInput_rail (s : State) {input : MonInput} {n : Fin 16} (h : input = .rail n) (b : Bool) :
    (s.showInput input b).fldBit Fld.PWR_RAILSTAT.INWIN n.val = b := by
  rw [h]
  exact State.fldBit_setFldBit _ _ _ _ (by decide) n.isLt

theorem State.showInput_feed (s : State) {input : MonInput} (h : input = .feed .a ∨ input = .feed .b) (b : Bool) :
    (s.showInput input b).regs = s.regs := by
  rcases h with rfl | rfl <;> rfl

theorem exec_excursionStart {s : State} (on : s.top.aonOn = true) (input : MonInput) :
    exec (.excursionStart input) s = .next ((s.noteExc (MonInput.key input)).showInput input false) := by
  refine congrArg Host.Outcome.next ((if_neg (by simp [on])).trans ?_)
  cases input <;> rfl

theorem exec_railBackInWindow {s : State} (on : s.top.aonOn = true) (input : MonInput) :
    exec (.railBackInWindow input) s = .next ((s.endExc (MonInput.key input)).showInput input true) := by
  refine congrArg Host.Outcome.next ((if_neg (by simp [on])).trans ?_)
  cases input <;> rfl

theorem excursionStart_runs {s : State} (c : s.canon) {input : MonInput} (on : s.top.aonOn = true) :
    Runs s (.excursionStart input) [.pwr, .reg Reg.PWR_RAILSTAT] fun t =>
      (MonInput.key input) ∈ t.pwr.exc ∧
        (∀ n ∈ List.finRange 16, input = .rail n → t.fldBit Fld.PWR_RAILSTAT.INWIN n.val = false) ∧
        (input = .feed .a ∨ input = .feed .b → t.regs = s.regs) := by
  refine Runs.intro (exec_keepsOut _ s) c (exec_excursionStart on input) rfl ?_
  refine ⟨?_, fun n _ h => State.showInput_rail _ h false, fun h => (State.showInput_feed _ h false).trans (s.noteExc_regs _)⟩
  rw [State.showInput_pwr]
  exact s.mem_noteExc _

theorem railBackInWindow_runs {s : State} (c : s.canon) {input : MonInput} (on : s.top.aonOn = true) :
    Runs s (.railBackInWindow input) [.pwr, .reg Reg.PWR_RAILSTAT] fun t =>
      t.pwr.exc = s.pwr.exc.filter (· != (MonInput.key input)) ∧
        (∀ n ∈ List.finRange 16, input = .rail n → t.fldBit Fld.PWR_RAILSTAT.INWIN n.val = true) ∧
        (input = .feed .a ∨ input = .feed .b → t.regs = s.regs) := by
  refine Runs.intro (exec_keepsOut _ s) c (exec_railBackInWindow on input) rfl ?_
  refine ⟨?_, fun n _ h => State.showInput_rail _ h true, fun h => State.showInput_feed _ h true⟩
  rw [State.showInput_pwr]
  rfl

/-! ### ADC_CONVERSION -/

/-- The used rails and VBBU converted (R402). -/
def State.converted (s : State) (readings : List (BitVec 12)) (vbbu : BitVec 12) : State :=
  (foldS ((List.range 16).filter s.railUsed) (State.readRail readings) s).convert Fld.PWR_VBBURD.READING Fld.PWR_VBBURD.MIN vbbu

theorem exec_adcConversion {s : State} (on : s.top.aonOn = true) (readings : List (BitVec 12)) (vbbu : BitVec 12) :
    exec (.adcConversion readings vbbu) s = .next ((s.converted readings vbbu).judgeReady false) :=
  congrArg Host.Outcome.next (if_neg (by simp [on]))

theorem adcConversion_runs {s : State} (c : s.canon) (on : s.top.aonOn = true) (readings : List (BitVec 12)) (vbbu : BitVec 12) :
    Runs s (.adcConversion readings vbbu) (.links :: .ord :: .reg Reg.ORD_FLUSHES :: .block 0xA :: logParts) fun t =>
      t.fld Fld.PWR_VBBURD.READING = vbbu.toNat ∧ t.fld Fld.PWR_VBBURD.MIN = min (s.fld Fld.PWR_VBBURD.MIN) vbbu.toNat ∧
        (∀ n ∈ List.range 16, ∀ v ∈ readings[n]?, s.railUsed n = true → t.fld (Fld.PWR_RAILRD.READING n) = v.toNat ∧
          t.fld (Fld.PWR_RAILRD.MIN n) = min (s.fld (Fld.PWR_RAILRD.MIN n)) v.toNat) ∧
        (∀ n ∈ List.range 16, s.railUsed n = false →
          t.reg (Fld.PWR_RAILRD.READING n).addr = s.reg (Fld.PWR_RAILRD.READING n).addr) := by
  refine Runs.intro (exec_keepsOut _ s) c (exec_adcConversion on readings vbbu) rfl ?_
  have rails := State.readRails_keeps readings ((List.range 16).filter s.railUsed) s
  have vbbuPair : readingPair Fld.PWR_VBBURD.READING Fld.PWR_VBBURD.MIN := ⟨rfl, rfl, rfl, rfl, rfl⟩
  have conv := State.convert_keeps (foldS ((List.range 16).filter s.railUsed) (State.readRail readings) s) vbbuPair vbbu
  have ready := State.judgeReady_keeps (s.converted readings vbbu) false
  have cc : (s.converted readings vbbu).canon := conv.canon (rails.canon c)
  have used : ∀ {n}, n ∈ (List.range 16).filter s.railUsed ↔ n < 16 ∧ s.railUsed n = true := by simp [List.mem_filter]
  have apart : ∀ n < 16, Reg.PWR_VBBURD ≠ Reg.PWR_RAILRD n := by decide
  have shown : ((s.converted readings vbbu).judgeReady false).reg Reg.PWR_VBBURD = _ := ready.reg cc (by decide +kernel)
  obtain ⟨reading, low⟩ := State.convert_fld (foldS ((List.range 16).filter s.railUsed) (State.readRail readings) s) vbbuPair vbbu
  have before : (foldS ((List.range 16).filter s.railUsed) (State.readRail readings) s).fld Fld.PWR_VBBURD.MIN = s.fld Fld.PWR_VBBURD.MIN :=
    congrArg (fieldGet · 27 16) (State.readRails_other c fun n hn => apart n (used.1 hn).1)
  have rail : ∀ n < 16, ((s.converted readings vbbu).judgeReady false).reg (Reg.PWR_RAILRD n) =
      (foldS ((List.range 16).filter s.railUsed) (State.readRail readings) s).reg (Reg.PWR_RAILRD n) := by
    intro n hn
    have away : ∀ m < 16, State.judgeReady_parts.any (Part.covers · (.reg (Reg.PWR_RAILRD m))) = false := by decide +kernel
    refine (ready.reg cc (away n hn)).trans (conv.reg (rails.canon c) ?_)
    simp only [List.any_cons, List.any_nil, Part.covers, Bool.or_false, decide_eq_false_iff_not, Part.reg.injEq]
    exact apart n hn
  refine ⟨(congrArg (fieldGet · 11 0) shown).trans reading, ((congrArg (fieldGet · 27 16) shown).trans low).trans (by rw [before]), ?_, ?_⟩
  · intro n hn v hv u
    have hn := List.mem_range.1 hn
    obtain ⟨r, l⟩ := State.readRails_fld (fun m hm => (used.1 hm).1) (List.nodup_range.filter _) c (used.2 ⟨hn, u⟩) hv
    exact ⟨(congrArg (fieldGet · 11 0) (rail n hn)).trans r, (congrArg (fieldGet · 27 16) (rail n hn)).trans l⟩
  · intro n hn u
    have hn := List.mem_range.1 hn
    refine (rail n hn).trans (State.readRails_other c fun m hm e => ?_)
    rw [railrd_inj hn (used.1 hm).1 e, (used.1 hm).2] at u
    exact absurd u (by decide)

/-! ### The obligation -/

/-- Settles O20: a rail fault falls through `fallTo_spec`, the other declarations and the excursions write their own bit, and the
monitor's readings are shown rail by rail. -/
theorem supervisionRuns : Obligations.SupervisionRuns := by
  unfold Obligations.SupervisionRuns
  intro s c
  refine ⟨?fault, ?idle, ?droop, ?shown, ?join, fun input on => excursionStart_runs c on, ?still, fun input on => railBackInWindow_runs c on,
    ?still', fun readings vbbu on => adcConversion_runs c on readings vbbu, ?still''⟩
  case fault =>
    intro rail above on used off armed steady rank
    have cx := (s.shownOut_keeps rail.val).canon c
    obtain ⟨top, rails, dram, cvalid, reason, hold, count, rec, rec'⟩ :=
      State.railFault_spec cx (n := rail.val) (kind := if above then 2 else 1) rfl
    refine Runs.intro (exec_keepsOut _ s) c (railFault_runs on used off armed steady rank) rfl
      ⟨top, rails, dram, cvalid, reason, hold, ?_, ?_, ?_, ?_⟩
    · rw [count, State.shownOut, State.setFldBit, State.fld_setFld_other _ _ (by decide)]
      rfl
    · intro p v
      have held : (s.shownOut rail.val).faultHeld = false := by
        show (s.pwr.record.isSome || s.vbat.record.isSome) = false
        rw [p, v]
        rfl
      rw [rec, rec', held]
      exact ⟨rfl, rfl⟩
    · intro stands
      have held : (s.shownOut rail.val).faultHeld = true := by
        show (s.pwr.record.isSome || s.vbat.record.isSome) = true
        rcases stands with h | h <;> simp [h]
      rw [rec, rec', held]
      exact ⟨rfl, rfl⟩
    · refine (AonKept.of_keeps (s.shownOut_keeps rail.val) c (by decide +kernel)).trans ?_
      exact State.railFault_aonKept cx _ _
  case idle => exact fun rail above h => exec_railOutOfWindow_idle h
  case droop =>
    rintro rail above on used off armed droop rfl
    exact ⟨_, railDroop_runs on used off armed droop, ((s.disarmed_keeps rail.val) c).2, State.disarmed_spec c rail⟩
  case shown =>
    intro rail above on used off armed low
    exact ⟨_, railShown_runs on used off armed low, ((s.shownOut_keeps rail.val) c).2, s.shownOut_inwin rail, rfl⟩
  case join =>
    intro rail above on used off watched soon
    have k := State.joinFault_keeps (s.shownOut rail.val) (if above then s.pwr.failWatch.above else s.pwr.failWatch.below) rail.val
      (if above then 2 else 1)
    have run : exec (.railOutOfWindow rail above) s = .next ((s.shownOut rail.val).joinFault
        (if above then s.pwr.failWatch.above else s.pwr.failWatch.below) rail.val (if above then 2 else 1)) := by
      rw [exec_railOutOfWindow on used, if_pos (by simp [off])]
    refine ⟨_, run, ?_, k.same ((s.shownOut_keeps rail.val).canon c) .top (by decide +kernel), State.joinFault_spec _ _ watched soon⟩
    exact (((s.shownOut_keeps rail.val).mono (by decide +kernel)).trans (k.mono (by decide +kernel)) c).2
  case still => exact fun input off => congrArg Host.Outcome.next (if_pos (by simp [off]))
  case still' => exact fun input off => congrArg Host.Outcome.next (if_pos (by simp [off]))
  case still'' => exact fun readings vbbu off => congrArg Host.Outcome.next (if_pos (by simp [off]))

end Sys2Proof.Machine
end

section
/-!
What the capture of any event leaves of the ring: the entries still to be written stand, and before Squall has gone on for long there is
room for one more (R499 to R505).
-/

set_option Elab.async false

namespace Sys2Proof.Machine

/-- The log writer has passed no more than the ring holds, and what it has still to write stands from `l` to `m`, but for numbers. -/
def LogSt.Holds (l m : LogSt) : Prop := l.rdLog ≤ l.ring.length →
  m.rdLog ≤ m.ring.length ∧ ∀ x ∈ l.ring.drop l.rdLog, ∃ q, { x with seq := q } ∈ m.ring.drop m.rdLog

theorem LogSt.Holds.refl (l : LogSt) : l.Holds l := fun h => ⟨h, fun x hx => ⟨x.seq, hx⟩⟩

theorem LogSt.Holds.trans {l m n : LogSt} (h : l.Holds m) (k : m.Holds n) : l.Holds n := fun a => by
  obtain ⟨b, hm⟩ := h a
  obtain ⟨c, hn⟩ := k b
  refine ⟨c, fun x hx => ?_⟩
  obtain ⟨q, hq⟩ := hm x hx
  exact hn { x with seq := q } hq

/-- A change that leaves the ring and the log writer's place alone. -/
theorem LogSt.Holds.of_eq {l m : LogSt} (h : m.ring = l.ring) (k : m.rdLog = l.rdLog) : l.Holds m := by
  unfold LogSt.Holds
  rw [h, k]
  exact LogSt.Holds.refl l

theorem State.pushEntry_holds (s : State) (e : RingEntry) : s.log.Holds (s.pushEntry e).log := fun a => by
  rw [State.pushEntry_log]
  refine ⟨?_, fun x hx => s.log.mem_enter e a (Or.inr hx)⟩
  show s.log.rdLog ≤ (s.log.enter e).length
  rw [(s.log.enter_take e (Nat.zero_le _) a).1]
  exact Nat.le_succ_of_le a

theorem State.freeRing_holds (s : State) : s.log.Holds s.freeRing.log := fun a => by
  obtain ⟨k, hk, ring, rd⟩ := s.freeRing_ring
  rw [State.freeRing_unwritten, ring, rd, List.length_drop]
  exact ⟨by omega, fun x hx => ⟨x.seq, hx⟩⟩

/-- A reader that is set on leaves the ring alone but for the entry that tells of it. -/
theorem State.cutOff_cases (s : State) (r pos : Nat) (f : State → Nat → State)
    (hf : ∀ n, (f s n).log.ring = s.log.ring ∧ (f s n).log.rdLog = s.log.rdLog ∧ (f s n).log.squall = s.log.squall ∧
      (f s n).log.seen = s.log.seen) :
    ∃ x : State, (x.log.ring = s.log.ring ∧ x.log.rdLog = s.log.rdLog ∧ x.log.squall = s.log.squall ∧ x.log.seen = s.log.seen) ∧
      ((s.cutOff r pos f).log = x.log ∨ ∃ e, (s.cutOff r pos f).log = (x.pushEntry e).log) := by
  unfold State.cutOff
  extract_lets newest skipped s1 s2 e s3
  split
  · exact ⟨s1, hf _, Or.inl rfl⟩
  · split
    · exact ⟨s3.takeSeq, hf _, Or.inr ⟨e, rfl⟩⟩
    · exact ⟨s3.takeSeq, hf _, Or.inl rfl⟩

/-- From `l` to `m` the ring has grown by at most `n` entries, and Squall is as it was. -/
structure LogSt.Grows (n : Nat) (l m : LogSt) : Prop where
  holds : l.Holds m
  size : l.rdLog ≤ l.ring.length → m.ring.length ≤ l.ring.length + n
  squall : m.squall = l.squall
  seen : m.seen = l.seen

theorem LogSt.Grows.refl (l : LogSt) : LogSt.Grows 0 l l := ⟨.refl l, fun _ => Nat.le_refl _, rfl, rfl⟩

theorem LogSt.Grows.trans {a b : Nat} {l m n : LogSt} (h : LogSt.Grows a l m) (k : LogSt.Grows b m n) : LogSt.Grows (a + b) l n :=
  ⟨h.holds.trans k.holds, fun w => by
    have := h.size w
    have := k.size (h.holds w).1
    omega, k.squall.trans h.squall, k.seen.trans h.seen⟩

theorem LogSt.Grows.mono {a b : Nat} {l m : LogSt} (h : LogSt.Grows a l m) (le : a ≤ b) : LogSt.Grows b l m :=
  ⟨h.holds, fun w => Nat.le_trans (h.size w) (Nat.add_le_add_left le _), h.squall, h.seen⟩

/-- A change that leaves the ring, the log writer's place and Squall alone. -/
theorem LogSt.Grows.of_eq {l m : LogSt} (ring : m.ring = l.ring) (rd : m.rdLog = l.rdLog) (squall : m.squall = l.squall)
    (seen : m.seen = l.seen) : LogSt.Grows 0 l m := ⟨.of_eq ring rd, fun _ => by rw [ring]; exact Nat.le_refl _, squall, seen⟩

theorem State.pushEntry_grows (s : State) (e : RingEntry) : LogSt.Grows 1 s.log (s.pushEntry e).log :=
  ⟨s.pushEntry_holds e, fun w => Nat.le_of_eq (s.log.enter_take e (Nat.zero_le _) w).1, rfl, rfl⟩

theorem State.freeRing_grows (s : State) : LogSt.Grows 0 s.log s.freeRing.log := by
  obtain ⟨k, -, ring, -⟩ := s.freeRing_ring
  exact ⟨s.freeRing_holds, fun _ => by rw [ring, List.length_drop]; omega, rfl, rfl⟩

theorem State.cutOff_grows (s : State) (r pos : Nat) (f : State → Nat → State)
    (hf : ∀ n, (f s n).log.ring = s.log.ring ∧ (f s n).log.rdLog = s.log.rdLog ∧ (f s n).log.squall = s.log.squall ∧
      (f s n).log.seen = s.log.seen) : LogSt.Grows 1 s.log (s.cutOff r pos f).log := by
  obtain ⟨x, ⟨ring, rd, squall, seen⟩, h⟩ := s.cutOff_cases r pos f hf
  have same : LogSt.Grows 0 s.log x.log := .of_eq ring rd squall seen
  rcases h with h | ⟨e, h⟩
  · rw [h]
    exact same.mono (Nat.zero_le _)
  · rw [h]
    exact same.trans (x.pushEntry_grows e)

/-- The cut-offs that a capture brings add at most one entry for each of the five readers (R502). -/
theorem State.cutFar_grows (s : State) : LogSt.Grows 5 s.log s.cutFar.log := by
  have step : ∀ (l : List Port) (s : State), LogSt.Grows l.length s.log (l.foldl (fun s p =>
      match s.reader p.idx with
      | some pos =>
        if s.log.ring.length - pos ≥ 768 then s.cutOff p.idx pos (fun s n => s.setReader p.idx (some n)) else s
      | none => s) s).log := by
    intro l
    induction l with
    | nil => exact fun s => .refl _
    | cons p r ih =>
      intro s
      rw [List.foldl_cons, List.length_cons, Nat.add_comm]
      refine LogSt.Grows.trans ?_ (ih _)
      split
      · split
        · exact s.cutOff_grows _ _ _ fun n => ⟨rfl, rfl, rfl, rfl⟩
        · exact (LogSt.Grows.refl _).mono (Nat.zero_le _)
      · exact (LogSt.Grows.refl _).mono (Nat.zero_le _)
  unfold State.cutFar
  extract_lets x
  have hx : LogSt.Grows 4 s.log x.log := step uPorts s
  split
  · exact hx.trans (x.cutOff_grows _ _ _ fun n => ⟨rfl, rfl, rfl, rfl⟩)
  · exact hx.mono (by decide)

/-- Squall begins where the ring holds 768 entries or more, with no code seen yet (R504). -/
theorem State.trySquall_cases (s : State) :
    (LogSt.Grows 0 s.log s.trySquall.log ∧ (s.log.squall = true ∨ s.trySquall.log.ring.length < 768)) ∨
      (s.log.squall = false ∧ s.log.Holds s.trySquall.log ∧
        (s.log.rdLog ≤ s.log.ring.length → s.trySquall.log.ring.length ≤ s.log.ring.length + 1) ∧
        s.trySquall.log.squall = true ∧ s.trySquall.log.seen = []) := by
  have free := s.freeRing_grows
  unfold State.trySquall
  extract_lets x occ src s1 s2 e
  split
  · next h =>
    have h : x.log.squall = true ∨ x.log.ring.length < 768 := by simpa using h
    exact Or.inl ⟨free, h.imp_left fun h => free.squall ▸ h⟩
  · next h =>
    have calm : s.log.squall = false := by
      have h : x.log.squall = false ∧ 768 ≤ x.log.ring.length := by simpa using h
      exact free.squall ▸ h.1
    have same : x.log.Holds s2.log := .of_eq rfl rfl
    have size : s.log.rdLog ≤ s.log.ring.length → s2.log.ring.length ≤ s.log.ring.length := fun w => free.size w
    refine Or.inr ?_
    split
    · have push := s2.takeSeq.pushEntry_grows e
      refine ⟨calm, free.holds.trans (same.trans push.holds), fun w => ?_, rfl, rfl⟩
      exact Nat.le_trans (push.size (same (free.holds w).1).1) (Nat.add_le_add_right (size w) 1)
    · exact ⟨calm, free.holds.trans same, fun w => Nat.le_succ_of_le (size w), rfl, rfl⟩

/-- An entry put into the ring with what follows from it (R502, R504, R514). -/
def State.pushAll (s : State) (e : RingEntry) : State := (s.pushEntry e).cutFar.trySquall.raiseIbi

theorem State.pushAll_cases (s : State) (e : RingEntry) :
    (LogSt.Grows 6 s.log (s.pushAll e).log ∧ (s.log.squall = true ∨ (s.pushAll e).log.ring.length < 768)) ∨
      (s.log.squall = false ∧ s.log.Holds (s.pushAll e).log ∧
        (s.log.rdLog ≤ s.log.ring.length → (s.pushAll e).log.ring.length ≤ s.log.ring.length + 7) ∧
        (s.pushAll e).log.squall = true ∧ (s.pushAll e).log.seen = []) := by
  have push := (s.pushEntry_grows e).trans (s.pushEntry e).cutFar_grows
  rw [State.pushAll, State.raiseIbi_log]
  rcases (s.pushEntry e).cutFar.trySquall_cases with ⟨g, h⟩ | ⟨calm, holds, size, squall, seen⟩
  · exact Or.inl ⟨push.trans g, h.imp_left fun h => push.squall ▸ h⟩
  · refine Or.inr ⟨push.squall ▸ calm, push.holds.trans holds, fun w => ?_, squall, seen⟩
    have := push.size w
    have := size (push.holds w).1
    omega

theorem State.pushAll_holds (s : State) (e : RingEntry) : s.log.Holds (s.pushAll e).log := by
  rcases s.pushAll_cases e with ⟨g, -⟩ | ⟨-, h, -⟩
  · exact g.holds
  · exact h

/-- The entry put in stands in the ring to be written. -/
theorem State.pushAll_mem {s : State} (h : s.log.rdLog ≤ s.log.ring.length) (e : RingEntry) :
    ∃ q, { e with seq := q } ∈ (s.pushAll e).log.ring.drop (s.pushAll e).log.rdLog := by
  obtain ⟨q, hq⟩ := s.log.mem_enter e h (Or.inl rfl)
  have later : (s.pushEntry e).log.Holds (s.pushAll e).log := by
    rw [State.pushAll, State.raiseIbi_log]
    refine (s.pushEntry e).cutFar_grows.holds.trans ?_
    rcases (s.pushEntry e).cutFar.trySquall_cases with ⟨g, -⟩ | ⟨-, k, -⟩
    · exact g.holds
    · exact k
  exact (later (s.pushEntry_holds e h).1).2 { e with seq := q } hq

theorem State.coalesce_log (s : State) (e : RingEntry) (first : Bool) : LogSt.Grows 0 s.log (s.coalesce e first).log := by
  unfold State.coalesce
  extract_lets x
  split
  · exact .of_eq rfl rfl rfl rfl
  · split <;> exact .of_eq rfl rfl rfl rfl

end Sys2Proof.Machine
end

section
/-!
What the capture of one event leaves: no event is lost that the log has still to write, and a general event finds room after any number of
seal failures (R499 to R505).
-/

set_option Elab.async false

namespace Sys2Proof.Machine

/-- The end of a directive that an event brings leaves the log alone (R538). -/
theorem State.endsDir_log (s : State) (code : BitVec 16) :
    (match endsDir code with | some d => s.endDir d | none => s).log = s.log := by
  cases endsDir code with
  | none => rfl
  | some d => exact s.endDir_log d

theorem LogSt.setOpen_holds (l : LogSt) (i : Nat) (b : Bool) : l.Holds (l.setOpen i b) := by
  unfold LogSt.setOpen
  split <;> exact .of_eq rfl rfl

/-- A code noted as seen in Squall (R505). -/
def State.noteSeen (s : State) (code : BitVec 16) : State :=
  if s.log.squall then { s with log := { s.log with seen := s.log.seen ++ [code] } } else s

/-- What becomes of the entry of a captured event: it is put in, coalesced, or lost (R503, R505). -/
def State.place (s : State) (code : BitVec 16) (e : RingEntry) : State :=
  if mayUseLast code then (if s.log.ring.length < 1024 then s.pushAll e else s.bump Reg.LOG_LOST)
  else if s.log.squall && s.log.seen.contains code then s.coalesce e false
  else if s.log.ring.length ≥ 1008 then s.coalesce e true
  else (s.noteSeen code).pushAll e

theorem State.noteSeen_holds (s : State) (code : BitVec 16) : s.log.Holds (s.noteSeen code).log := by
  unfold State.noteSeen
  split <;> exact .of_eq rfl rfl

theorem State.place_holds (s : State) (code : BitVec 16) (e : RingEntry) : s.log.Holds (s.place code e).log := by
  unfold State.place
  split
  · split
    · exact s.pushAll_holds e
    · exact .of_eq rfl rfl
  · split
    · exact (s.coalesce_log e false).holds
    · split
      · exact (s.coalesce_log e true).holds
      · exact (s.noteSeen_holds code).trans ((s.noteSeen code).pushAll_holds e)

/-- Whatever event is captured, what the log has still to write stands (R499). -/
theorem State.capture_holds (s : State) (code : BitVec 16) (data count : Word) : s.log.Holds (s.capture code data count).log := by
  unfold State.capture
  split
  · exact .refl _
  · extract_lets -lift -merge -useContext -underBinder +onlyGivenNames x
    have hx : s.log.Holds x.log := .of_eq (congrArg _ (s.endsDir_log code)) (congrArg _ (s.endsDir_log code))
    split
    · split
      · extract_lets -lift -merge -useContext -underBinder +onlyGivenNames e y z
        have hz : s.log.Holds z.log := hx.trans (LogSt.Holds.trans (.of_eq rfl rfl) (y.log.setOpen_holds _ false))
        split
        · exact hz.trans (z.pushAll_holds e)
        · exact hz.trans (.of_eq rfl rfl)
      · exact hx.trans (.of_eq rfl rfl)
    · extract_lets -lift -merge -useContext -underBinder +onlyGivenNames e y z
      have hz : x.log.Holds z.log := by
        unfold z
        split
        · exact LogSt.Holds.trans (.of_eq rfl rfl) (y.log.setOpen_holds _ true)
        · exact .of_eq rfl rfl
      exact (hx.trans hz).trans (z.place_holds code e)

/-- A captured event that opens or closes no interval takes the next number and is placed. -/
theorem State.capture_plain {s : State} (on : s.top.aonOn = true) {code : BitVec 16} (hp : intervalOf code = .plain) (data count : Word) :
    ∃ (x : State) (e : RingEntry), (LogSt.Grows 0 s.log x.log ∧ x.time = s.time) ∧
      (e.code = code ∧ e.data = data ∧ e.stamp = x.stamp) ∧ s.capture code data count = x.place code e := by
  have grows : ∀ x : State, x.log = s.log → LogSt.Grows 0 s.log (x.bump Reg.LOG_CAPTURED).takeSeq.log := fun x hx => by
    rw [← hx]
    exact .of_eq rfl rfl rfl rfl
  have time : (match endsDir code with | some d => s.endDir d | none => s).time = s.time := by
    cases endsDir code with
    | none => rfl
    | some d =>
      show (s.endDir d).time = s.time
      unfold State.endDir
      extract_lets b
      split <;> rfl
  refine ⟨((match endsDir code with | some d => s.endDir d | none => s).bump Reg.LOG_CAPTURED).takeSeq,
    (match endsDir code with | some d => s.endDir d | none => s).mkEntry code data count, ⟨grows _ (s.endsDir_log code), time⟩,
    ⟨rfl, rfl, rfl⟩, ?_⟩
  unfold State.capture
  rw [if_neg (by simp [on]), hp]
  rfl

/-- The ring has room for a general event that Squall has not seen, and for seal failures before it: at most their first is put in
once Squall has begun (R503 to R505). -/
def LogSt.Roomy (l : LogSt) : Prop := l.rdLog ≤ l.ring.length ∧
  (l.squall = false ∧ l.ring.length < 768 ∨ l.squall = true ∧ l.seen = [] ∧ l.ring.length ≤ 774 ∨
    l.squall = true ∧ l.seen = [0x8001] ∧ l.ring.length ≤ 780)

theorem Attentive.roomy {s : State} (h : Attentive s) : s.log.Roomy := by
  obtain ⟨-, squall, room, rd, -⟩ := h
  exact ⟨rd, Or.inl ⟨squall, Nat.lt_trans room (by decide)⟩⟩

theorem LogSt.Roomy.grows {l m : LogSt} (h : l.Roomy) (g : LogSt.Grows 0 l m) : m.Roomy := by
  obtain ⟨rd, h⟩ := h
  have size := g.size rd
  rw [LogSt.Roomy, g.squall, g.seen]
  refine ⟨(g.holds rd).1, ?_⟩
  rcases h with ⟨a, b⟩ | ⟨a, b, room⟩ | ⟨a, b, room⟩
  · exact Or.inl ⟨a, by omega⟩
  · exact Or.inr (Or.inl ⟨a, b, by omega⟩)
  · exact Or.inr (Or.inr ⟨a, b, by omega⟩)

/-- A seal failure's event leaves room for another (R505). -/
theorem LogSt.Roomy.capture {s : State} (h : s.log.Roomy) (data count : Word) : (s.capture 0x8001 data count).log.Roomy := by
  by_cases on : s.top.aonOn = true
  · obtain ⟨x, e, ⟨g, -⟩, -, eq⟩ := State.capture_plain on (code := 0x8001) (by decide) data count
    rw [eq, State.place, if_neg (by decide)]
    replace h := h.grows g
    obtain ⟨rd, ⟨squall, room⟩ | ⟨squall, seen, room⟩ | ⟨squall, seen, room⟩⟩ := id h
    · rw [if_neg (by simp [squall]), if_neg (by omega), State.noteSeen, if_neg (by simp [squall])]
      rcases x.pushAll_cases e with ⟨k, k'⟩ | ⟨-, holds, size, squall', seen'⟩
      · exact ⟨(k.holds rd).1, Or.inl ⟨k.squall.trans squall, by simpa [squall] using k'⟩⟩
      · exact ⟨(holds rd).1, Or.inr (Or.inl ⟨squall', seen', by have := size rd; omega⟩)⟩
    · rw [if_neg (by simp [seen]), if_neg (by omega), State.noteSeen, if_pos squall]
      rcases State.pushAll_cases { x with log := { x.log with seen := x.log.seen ++ [0x8001] } } e with ⟨k, -⟩ | ⟨calm, -⟩
      · have size : _ ≤ x.log.ring.length + 6 := k.size rd
        exact ⟨(k.holds rd).1, Or.inr (Or.inr ⟨k.squall.trans squall, k.seen.trans (by simp [seen]), by omega⟩)⟩
      · exact absurd (squall.symm.trans calm) (by decide)
    · rw [if_pos (by simp [squall, seen])]
      exact h.grows (x.coalesce_log e false)
  · rw [State.capture, if_pos (by simpa using on)]
    exact h

/-- A general event that Squall has not seen is logged while there is room. -/
theorem State.capture_roomy {s : State} (h : s.log.Roomy) (on : s.top.aonOn = true) {code : BitVec 16} (hp : intervalOf code = .plain)
    (hl : mayUseLast code = false) (hc : code ≠ 0x8001) (c : s.canon) (data count : Word) :
    Logged code data (s.capture code data count) := by
  obtain ⟨x, e, ⟨g, time⟩, ⟨ec, ed, es⟩, eq⟩ := State.capture_plain on hp data count
  have time' : (s.capture code data count).time = s.time := (State.capture_keeps s code data count).same c .time (by decide +kernel)
  obtain ⟨rd, room⟩ := h.grows g
  have fresh : (x.log.squall && x.log.seen.contains code) = false := by
    rcases room with ⟨squall, -⟩ | ⟨-, seen, -⟩ | ⟨-, seen, -⟩ <;> simp_all
  have noted : (x.noteSeen code).log.rdLog ≤ (x.noteSeen code).log.ring.length := (x.noteSeen_holds code rd).1
  obtain ⟨q, hq⟩ := State.pushAll_mem noted e
  have placed : s.capture code data count = (x.noteSeen code).pushAll e := by
    rw [eq, State.place, if_neg (by simp [hl]), if_neg (by rw [fresh]; decide), if_neg (by omega)]
  rw [← placed] at hq
  refine ⟨_, hq, ec, ed, ?_⟩
  rw [State.stamp, State.nowNs, time', ← time]
  exact es

end Sys2Proof.Machine
end

section
/-!
What the hub's own agents leave alone (R36, R161, R220): the pair state, the state of every link, the order's records of streams and
forks, the retention store's mark, and of the ring all but the events they capture.
-/

set_option Elab.async false

namespace Sys2Proof.Machine

/-! ### The relation -/

/-- What the agents' work leaves alone, but for the log. -/
structure Face where
  top : TopSt
  time : TimeSt
  pair : PairState
  store : Bool
  streams : Tab StreamRec
  forks : List ForkRec
  front : Nat
  ptr : Nat
  ports : Port → LinkState × Option NegMsg

def State.face (s : State) : Face where
  top := s.top
  time := s.time
  pair := s.mir.pstate
  store := s.cal.valid
  streams := s.ord.streams
  forks := s.ord.forks
  front := s.ord.front
  ptr := s.ord.ptr
  ports p := ((s.link p).lstate, (s.link p).peerNeg)

/-- `m` follows from `l` by captures of events of the codes `C`: what these keep of a log is kept. -/
def LogSt.Follows (C : BitVec 16 → Prop) (l m : LogSt) : Prop := ∀ Q : LogSt → Prop,
  (∀ (x : State) (code : BitVec 16) (data count : Word), C code → Q x.log → Q (x.capture code data count).log) → Q l → Q m

/-- From `s` to `t` the face stands, and only events of the codes `C` are captured. -/
def Calm (C : BitVec 16 → Prop) (s t : State) : Prop := s.canon → t.canon ∧ t.face = s.face ∧ LogSt.Follows C s.log t.log

theorem LogSt.Follows.of_eq (C : BitVec 16 → Prop) {l m : LogSt} (h : m = l) : LogSt.Follows C l m := fun _ _ q => h ▸ q

theorem Calm.refl (C : BitVec 16 → Prop) (s : State) : Calm C s s := fun c => ⟨c, rfl, .of_eq C rfl⟩

theorem Calm.trans {C : BitVec 16 → Prop} {a b c : State} (h : Calm C a b) (k : Calm C b c) : Calm C a c := fun ca => by
  obtain ⟨cb, f, l⟩ := h ca
  obtain ⟨cc, f', l'⟩ := k cb
  exact ⟨cc, f'.trans f, fun Q step q => l' Q step (l Q step q)⟩

/-- One more operation at the end of a run of them. -/
theorem Calm.via {C : BitVec 16 → Prop} {a b c : State} (k : Calm C b c) (h : Calm C a b) : Calm C a c := h.trans k

theorem Calm.ite {C : BitVec 16 → Prop} {p : Prop} [Decidable p] {a x y : State} (h : Calm C a x) (k : Calm C a y) :
    Calm C a (if p then x else y) := by
  split <;> assumption

theorem Calm.foldS {C : BitVec 16 → Prop} {α : Type} (l : List α) (f : State → α → State) (h : ∀ t x, Calm C t (f t x)) (s : State) :
    Calm C s (foldS l f s) := by
  induction l generalizing s with
  | nil => exact .refl C s
  | cons x r ih => exact (h s x).trans (ih _)

theorem Calm.foldl {C : BitVec 16 → Prop} {α : Type} (l : List α) (f : State → α → State) (h : ∀ t x, Calm C t (f t x)) (s : State) :
    Calm C s (l.foldl f s) := Calm.foldS l f h s

/-- An update whose frame is known, that leaves the face and the log as they are. -/
theorem Calm.of_keeps {C : BitVec 16 → Prop} {P : List Part} {s t : State} (k : Keeps P s t) (face : t.face = s.face) (log : t.log = s.log) :
    Calm C s t := fun c => ⟨k.canon c, face, .of_eq C log⟩

/-- A part in which nothing of the face lies. -/
def Part.faceless : Part → Bool
  | .top | .time | .mir | .cal | .ord | .links => false
  | _ => true

theorem Part.covers_face {p : Part} (hp : p.faceless = false) (q : Part) : q.covers p = decide (q = p) := by
  cases p with
  | top | time | mir | cal | ord | links => cases q <;> rfl
  | _ => exact absurd hp (by simp [Part.faceless])

theorem Part.faceless_apart {q p : Part} (h : q.faceless = true) (hp : p.faceless = false) : q.covers p = false := by
  rw [Part.covers_face hp, decide_eq_false_iff_not]
  rintro rfl
  rw [h] at hp
  exact absurd hp (by decide)

/-- A frame apart from the face leaves it alone. -/
theorem Keeps.face {P : List Part} {s t : State} (k : Keeps P s t) (h : P.all Part.faceless = true) (c : s.canon) : t.face = s.face := by
  have same : ∀ p : Part, p.faceless = false → Part.same s t p := fun p hp =>
    k.same c p (List.any_eq_false.2 fun q hq => by rw [Part.faceless_apart (List.all_eq_true.1 h q hq) hp]; decide)
  have top : t.top = s.top := same .top rfl
  have time : t.time = s.time := same .time rfl
  have mir : t.mir = s.mir := same .mir rfl
  have cal : t.cal = s.cal := same .cal rfl
  have ord : t.ord = s.ord := same .ord rfl
  have links : t.links = s.links := same .links rfl
  simp only [State.face, State.link, top, time, mir, cal, ord, links]

/-- An operation whose frame is apart from the face and the log. -/
theorem Calm.apart {C : BitVec 16 → Prop} {P : List Part} {s t : State} (k : Keeps P s t)
    (h : (P.all fun q => q.faceless && decide (q ≠ .log)) = true) : Calm C s t := fun c => by
  refine ⟨k.canon c, k.face (List.all_eq_true.2 fun q hq => ?_) c, .of_eq C (k.same c .log (List.any_eq_false.2 fun q hq => ?_))⟩
  · exact (Bool.and_eq_true_iff.1 (List.all_eq_true.1 h q hq)).1
  · have ne := of_decide_eq_true (Bool.and_eq_true_iff.1 (List.all_eq_true.1 h q hq)).2
    have e : q.covers .log = decide (q = .log) := by cases q <;> rfl
    simp [e, ne]

section
variable {C : BitVec 16 → Prop}

theorem State.capture_calm (s : State) {code : BitVec 16} (h : C code) (data count : Word) : Calm C s (s.capture code data count) :=
  fun c => ⟨(State.capture_keeps s code data count).canon c, (State.capture_keeps s code data count).face (by decide) c,
    fun _ step q => step s code data count h q⟩

theorem State.event_calm (s : State) {code : BitVec 16} (h : C code) (data : Nat) : Calm C s (s.event code data) :=
  s.capture_calm h _ _

/-! ### Ports -/

/-- A change of a port that leaves its link's state and its peer's announcement. -/
theorem State.setLink_calm (s : State) (p : Port) {l : LinkSt} (h : l.lstate = (s.link p).lstate ∧ l.peerNeg = (s.link p).peerNeg) :
    Calm C s (s.setLink p l) := by
  refine .of_keeps (State.setLink_keeps s p l) ?_ rfl
  have ports : (s.setLink p l).face.ports = s.face.ports := funext fun q => by
    show (((s.setLink p l).link q).lstate, ((s.setLink p l).link q).peerNeg) = ((s.link q).lstate, (s.link q).peerNeg)
    by_cases e : q = p
    · rw [e, State.link_setLink, h.1, h.2]
    · rw [State.link_setLink_other s l e]
  exact congrArg (fun f => { s.face with ports := f }) ports

theorem State.onLink_calm (s : State) (p : Port) {f : LinkSt → LinkSt} (h : ∀ l, (f l).lstate = l.lstate ∧ (f l).peerNeg = l.peerNeg) :
    Calm C s (s.onLink p f) := s.setLink_calm p (h _)

theorem State.send_calm (s : State) (p : Port) (m : Msg) : Calm C s (s.send p m) := by
  unfold State.send
  exact Calm.ite (s.onLink_calm p fun _ => ⟨rfl, rfl⟩) (.refl C s)

theorem State.sendOwing_calm (s : State) (p : Port) (m : Msg) (r : Credits) (pool : Option Nat) :
    Calm C s (s.sendOwing p m r pool) := by
  unfold State.sendOwing
  exact Calm.ite (s.onLink_calm p fun _ => ⟨rfl, rfl⟩) (.refl C s)

theorem State.creditNow_calm (s : State) (p : Port) : Calm C s (s.creditNow p) := by
  unfold State.creditNow
  refine Calm.ite (.via (State.send_calm _ _ _) ?_) (.refl C s)
  exact s.setLink_calm p ⟨rfl, rfl⟩

theorem State.owe_calm (s : State) (p : Port) (r : Credits) : Calm C s (s.owe p r) := by
  unfold State.owe
  refine Calm.ite (.trans (s.onLink_calm p ?_) (Calm.ite (State.creditNow_calm _ p) (.refl C _))) (.refl C s)
  exact fun _ => ⟨rfl, rfl⟩

theorem State.beat_calm (s : State) : Calm C s s.beat := by
  unfold State.beat
  exact .via (State.send_calm _ _ _) (.of_keeps (Keeps.upd_twin s _) rfl rfl)

theorem State.heartbeat_calm (s : State) : Calm C s s.heartbeat := Calm.ite s.beat_calm (.refl C s)

theorem State.beatFirst_calm (s : State) : Calm C s s.beatFirst := Calm.ite (.refl C s) s.beat_calm

theorem State.noteTaken_calm (s : State) (b : Bool) : Calm C s (s.noteTaken b) := .of_keeps (Keeps.upd_mir s _) rfl rfl

theorem State.sendCtl_calm (s : State) (cmd cursor : Nat) (sess : Bool) (share : Nat) :
    Calm C s (s.sendCtl cmd cursor sess share) := by
  unfold State.sendCtl
  exact .via (State.send_calm _ _ _) (.of_keeps (Keeps.upd_mir s _) rfl rfl)

/-! ### The pool -/

theorem State.setEntry_calm (s : State) (i : Nat) (e : Option PoolEntry) : Calm C s (s.setEntry i e) :=
  .of_keeps (State.setEntry_keeps s i e) rfl rfl

theorem State.onEntry_calm (s : State) (i : Nat) (f : PoolEntry → PoolEntry) : Calm C s (s.onEntry i f) := by
  unfold State.onEntry
  split
  · exact s.setEntry_calm i _
  · exact .refl C s

theorem State.freeEntry_calm (s : State) (i : Nat) : Calm C s (s.freeEntry i) := by
  unfold State.freeEntry
  split
  · exact .refl C s
  · exact (s.setEntry_calm i _).trans (Calm.ite (State.owe_calm _ _ _) (.refl C _))

theorem State.tryFree_cases (s : State) (i : Nat) : s.tryFree i = s ∨ s.tryFree i = s.freeEntry i := by
  unfold State.tryFree
  repeat' split
  all_goals simp

theorem State.tryFree_calm (s : State) (i : Nat) : Calm C s (s.tryFree i) := by
  rcases s.tryFree_cases i with e | e
  · rw [e]
    exact .refl C s
  · rw [e]
    exact s.freeEntry_calm i

theorem State.dropRead_calm (s : State) (i : Nat) (e : PoolEntry) : Calm C s (s.dropRead i e) := by
  unfold State.dropRead
  refine .via (State.owe_calm _ _ _) ((s.freeEntry_calm i).trans ?_)
  exact .of_keeps (Keeps.upd_ord _ _) rfl rfl

theorem State.toReturn_calm (s : State) (orphan : Bool) (it : RetItem) : Calm C s (s.toReturn orphan it) := by
  unfold State.toReturn
  refine Calm.ite ?_ (.of_keeps (Keeps.upd_ord _ _) rfl rfl)
  split
  · split
    · split
      · exact s.dropRead_calm _ _
      · exact s.freeEntry_calm _
      · exact (s.onEntry_calm _ _).trans (State.tryFree_calm _ _)
    · exact .refl C s
  · exact .refl C s

theorem State.readData_calm (s : State) (i : Nat) (e : PoolEntry) (line : Line) (corr : Nat) (poison : Bool) :
    Calm C s (s.readData i e line corr poison) := by
  unfold State.readData
  exact .via (State.toReturn_calm _ _ _) (s.onEntry_calm _ _)

theorem State.queueAgent_calm (s : State) (q : AgentReq) : Calm C s (s.queueAgent q) := by
  unfold State.queueAgent
  exact Calm.ite (.refl C s) (.of_keeps (Keeps.upd_ord _ _) rfl rfl)

/-! ### The way to Schedule -/

theorem State.onSub_calm (s : State) (n : Nat) (f : SubCh → SubCh) : Calm C s (s.onSub n f) := .apart (State.onSub_keeps s n f) rfl

theorem State.dispatchOne_calm (s : State) (n : Nat) {t : State} (h : s.dispatchOne n = some t) : Calm C s t := by
  unfold State.dispatchOne at h
  split at h
  · exact nomatch h
  · split at h
    · obtain rfl := Option.some.inj h
      exact .via (State.onSub_calm _ _ _) (.via (.of_keeps (Keeps.upd_ord _ _) rfl rfl) (s.onEntry_calm _ _))
    · exact nomatch h

theorem State.dispatchSome_calm (n k : Nat) (s : State) : Calm C s (State.dispatchSome n k s) := by
  induction k generalizing s with
  | zero => exact .refl C s
  | succ k ih =>
    rw [State.dispatchSome]
    split
    · next h => exact (s.dispatchOne_calm n h).trans (ih _)
    · exact .refl C s

theorem State.toSchedule_calm (s : State) (i : Nat) : Calm C s (s.toSchedule i) := by
  unfold State.toSchedule
  split
  · exact .via (State.dispatchSome_calm _ _ _) (.of_keeps (Keeps.upd_ord _ _) rfl rfl)
  · exact .refl C s

/-! ### Repair tags -/

theorem State.askTwin_calm (s : State) (t : Nat) (pair : BitVec 42) (super : Bool) : Calm C s (s.askTwin t pair super) := by
  unfold State.askTwin
  exact .via (State.send_calm _ _ _) (.of_keeps (Keeps.upd_mir s _) rfl rfl)

theorem State.setRepair_calm (s : State) (t : Nat) (v : Option Nat) : Calm C s (s.setRepair t v) :=
  .of_keeps (Keeps.upd_mir s _) rfl rfl

theorem State.giveTag_calm (s : State) (i : Nat) : Calm C s (s.giveTag i) := by
  unfold State.giveTag
  split
  · split
    · exact s.onEntry_calm _ _
    · split
      · exact .via (State.askTwin_calm _ _ _ _) ((s.setRepair_calm _ _).trans (State.onEntry_calm _ _ _))
      · exact .refl C s
  · exact .refl C s

theorem State.answerTwin_calm (s : State) (i : Nat) (e : PoolEntry) (line : Line) (k : PoisonKind) :
    Calm C s (s.answerTwin i e line k) := by
  unfold State.answerTwin
  refine Calm.ite (s.freeEntry_calm i) (Calm.ite ?_ ?_)
  · exact (s.onEntry_calm _ _).trans (State.sendOwing_calm _ _ _ _ _)
  · refine .via (State.onLink_calm _ _ ?_) (.via (State.noteTaken_calm _ _) (.via (State.beatFirst_calm _) (s.onEntry_calm i _)))
    exact fun _ => ⟨rfl, rfl⟩

theorem State.agentServed_calm (s : State) (i : Nat) (e : PoolEntry) (line : Line) (k : PoisonKind) :
    Calm C s (s.agentServed i e line k) := by
  unfold State.agentServed
  refine (s.freeEntry_calm i).trans (Calm.ite (Calm.ite ?_ (.refl C _)) (Calm.ite (.refl C _) ?_))
  · exact State.queueAgent_calm _ _
  · exact State.queueAgent_calm _ _

/-! ### Seal failures and merges: the events that the agents' work captures (R318, R334) -/

section
variable (hC : C 0x8001)
include hC

theorem State.sealFail_calm (s : State) (code lane : Nat) (space : Bool) (region : Nat) : Calm C s (s.sealFail code lane space region) := by
  have count : ∀ f : Fld, Calm C s (s.bumpF f) := fun f => .apart (State.bumpF_keeps s f 1) rfl
  unfold State.sealFail
  extract_lets s1 s2
  have h1 : Calm C s s1 := by
    unfold s1
    split <;> exact count _
  have h2 : Calm C s1 s2 := Calm.ite (.refl C s1) (.apart (State.setReg_keeps _ _ _) rfl)
  exact .via (State.event_calm s2 hC _) (h1.trans h2)

theorem State.checkSeal_calm (s : State) (code : Nat) (e : PoolEntry) : Calm C s (s.checkSeal code e) :=
  Calm.ite (.refl C s) (s.sealFail_calm hC _ _ _ _)

theorem State.mergeInto_calm (s : State) (i : Nat) (old : Line) (k : PoisonKind) : Calm C s (s.mergeInto i old k) := by
  unfold State.mergeInto
  split
  · refine .via (.apart (Keeps.upd_sch _ _) rfl) (.via (State.setEntry_calm _ i _) ?_)
    exact Calm.ite (s.sealFail_calm hC _ _ _ _) (.refl C s)
  · exact .refl C s

theorem State.damaged_calm (s : State) (i : Nat) (e : PoolEntry) (line : Line) : Calm C s (s.damaged i e line) := by
  unfold State.damaged
  split
  · exact s.answerTwin_calm _ _ _ _
  · refine Calm.ite ((s.onEntry_calm _ _).trans (State.giveTag_calm _ _)) (Calm.ite ?_ (s.readData_calm _ _ _ _ _))
    exact s.mergeInto_calm hC _ _ _

theorem State.served_calm (s : State) (i : Nat) (line : Line) (k : PoisonKind) (corr : Nat) : Calm C s (s.served i line k corr) := by
  unfold State.served
  split
  · refine Calm.ite (s.agentServed_calm _ _ _ _) ?_
    split
    · exact s.damaged_calm hC _ _ _
    · split
      · exact s.answerTwin_calm _ _ _ _
      · exact s.readData_calm _ _ _ _ _
      · exact Calm.ite (s.mergeInto_calm hC _ _ _) (.refl C s)
  · exact .refl C s

theorem State.forward_calm (s : State) (i j : Nat) : Calm C s (s.forward i j) := by
  unfold State.forward
  split
  · exact .via (State.served_calm hC _ _ _ _ _) (.via (.apart (State.bump_keeps _ _ _) rfl) (s.checkSeal_calm hC _ _))
  · exact .refl C s

theorem State.lookForLine_calm (s : State) (i : Nat) : Calm C s (s.lookForLine i).1 := by
  unfold State.lookForLine
  split
  · split
    · split
      · split
        · exact (s.onEntry_calm _ _).trans (.apart (State.bump_keeps _ _ _) rfl)
        · exact s.forward_calm hC _ _
      · exact .refl C s
    · exact .refl C s
  · exact .refl C s

theorem State.release_calm (n j : Nat) (s : State) : Calm C s (State.release n j s) := by
  induction n generalizing j s with
  | zero => exact .refl C s
  | succ n ih =>
    rw [State.release]
    split
    · refine Calm.ite (.refl C s) (Calm.foldl _ _ (fun t i => ?_) s)
      exact ((t.onEntry_calm _ _).trans (State.forward_calm hC _ _ _)).trans (ih _ _)
    · exact .refl C s

theorem State.serveAll_calm (s : State) (i : Nat) (line : Line) (k : PoisonKind) (corr : Nat) : Calm C s (s.serveAll i line k corr) :=
  (s.served_calm hC _ _ _ _).trans (State.release_calm hC _ _ _)

/-! ### The agents' requests (R36) -/

theorem State.startWrite_calm (s : State) (i : Nat) (forked : Bool) : Calm C s (s.startWrite i forked) := by
  unfold State.startWrite
  split
  · refine .trans (Calm.ite (s.lookForLine_calm hC i) (Calm.ite ?_ (.refl C s))) (Calm.ite (.refl C _) (State.toSchedule_calm _ _))
    exact .apart (State.bump_keeps _ _ _) rfl
  · exact .refl C s

theorem State.startAgent_calm (s : State) (i : Nat) : Calm C s (s.startAgent i) := by
  unfold State.startAgent
  split
  · refine Calm.ite (s.startWrite_calm hC i false) ?_
    exact (s.lookForLine_calm hC i).trans (Calm.ite (State.toSchedule_calm _ _) (.refl C _))
  · exact .refl C s

theorem State.pumpAgents_calm (n : Nat) (s : State) : Calm C s (State.pumpAgents n s) := by
  induction n generalizing s with
  | zero => exact .refl C s
  | succ n ih =>
    rw [State.pumpAgents]
    split
    · exact .refl C s
    · exact Calm.ite (.via (ih _) (.via (State.startAgent_calm hC _ _)
        (.via (.of_keeps (Keeps.upd_ord _ _) rfl rfl) (s.setEntry_calm _ _)))) (.refl C s)

theorem State.agentAsk_calm (s : State) (qs : List AgentReq) : Calm C s (s.agentAsk qs) := by
  unfold State.agentAsk
  refine Calm.ite (.refl C s) (.via (State.pumpAgents_calm hC _ _) ?_)
  exact .of_keeps (Keeps.upd_ord _ _) rfl rfl

theorem State.reserveWrite_calm (s : State) (off : Nat) (line : Line) : Calm C s (s.reserveWrite off line) := by
  unfold State.reserveWrite
  exact s.agentAsk_calm hC _

theorem State.writeRecord_calm (s : State) (ps : PairState) : Calm C s (s.writeRecord ps) := by
  unfold State.writeRecord
  refine Calm.ite (.refl C s) ?_
  extract_lets -lift -merge -useContext -underBinder +onlyGivenNames m x l
  clear_value l
  have hx : Calm C s x := .of_keeps (Keeps.upd_mir s _) rfl rfl
  exact .via (State.reserveWrite_calm hC _ _ _) (.via (.of_keeps (Keeps.upd_mir _ _) rfl rfl) hx)

end

end

end Sys2Proof.Machine
end

section
/-!
What marks, retirement, sparing and the resynchronisation leave alone (R220, R229, R346 to R359), whatever events they capture.
-/

set_option Elab.async false

namespace Sys2Proof.Machine

/-- From `s` to `t` the face stands, whatever events are captured. -/
abbrev Mild (s t : State) : Prop := Calm (fun _ => True) s t

/-- What the log has still to write stands through any captures (R499). -/
theorem Calm.holds {C : BitVec 16 → Prop} {s t : State} (h : Calm C s t) (c : s.canon) : s.log.Holds t.log :=
  (h c).2.2 (s.log.Holds ·) (fun x _ data count _ q => q.trans (x.capture_holds _ data count)) (.refl _)

/-- Seal failures alone leave room for another event. -/
theorem Calm.roomy {s t : State} (h : Calm (· = 0x8001) s t) (c : s.canon) (room : s.log.Roomy) : t.log.Roomy :=
  (h c).2.2 LogSt.Roomy (fun _ _ data count e q => e ▸ q.capture data count) room

/-- An event captured before is still to be written. -/
theorem Calm.logged {C : BitVec 16 → Prop} {s t : State} (h : Calm C s t) (c : s.canon) (rd : s.log.rdLog ≤ s.log.ring.length)
    {code : BitVec 16} {data : Word} (l : Logged code data s) : Logged code data t := by
  obtain ⟨e, mem, ec, ed, es⟩ := l
  obtain ⟨q, hq⟩ := (h.holds c rd).2 e mem
  have time : t.time = s.time := congrArg Face.time (h c).2.1
  exact ⟨_, hq, ec, ed, by rw [State.stamp, State.nowNs, time]; exact es⟩

theorem State.event_mild (s : State) (code : BitVec 16) (data : Nat) : Mild s (s.event code data) := s.event_calm trivial data

theorem State.agentAsk_mild (s : State) (qs : List AgentReq) : Mild s (s.agentAsk qs) := s.agentAsk_calm trivial qs

theorem State.setRt_mild (s : State) (r : Nat) (w : Word) : Mild s (s.setRt r w) := .apart (s.setRt_keeps r w) rfl

theorem State.onRank_mild (s : State) (p : Nat) (f : RankSt → RankSt) : Mild s (s.onRank p f) := .apart (s.onRank_keeps p f) rfl

theorem State.holdCs_mild (s : State) (n k : Nat) : Mild s (s.holdCs n k) := .apart (s.holdCs_keeps n k) rfl

/-! ### Marks (R220) -/

theorem State.cacheLine_mild (s : State) (k : Nat) : Mild s (s.cacheLine k) := by
  unfold State.cacheLine
  exact Calm.ite (.refl _ s) (.of_keeps (Keeps.upd_mir s _) rfl rfl)

theorem State.mark_mild (s : State) (g : Nat) : Mild s (s.mark g) := by
  unfold State.mark
  refine Calm.ite (.refl _ s) ?_
  extract_lets -lift -merge -useContext -underBinder +onlyGivenNames m x
  have hx : Mild s x := .of_keeps (Keeps.upd_mir s _) rfl rfl
  refine Calm.ite (.via (.of_keeps (Keeps.upd_mir _ _) rfl rfl) hx) ?_
  extract_lets -lift -merge -useContext -underBinder +onlyGivenNames y a l
  clear_value l a
  exact .via (State.agentAsk_mild _ _) (.via (State.cacheLine_mild _ _) hx)

/-! ### Requests for a rank out of use (R347) -/

theorem State.onRetired_mild (s : State) (e : StoreEntry) : Mild s (s.onRetired e) := by
  unfold State.onRetired
  split
  · next i _ =>
    split
    · next q _ =>
      refine Calm.ite (s.serveAll_calm trivial _ _ _ _) (Calm.ite (.via (State.onEntry_calm _ _ _) (s.mark_mild _)) ?_)
      extract_lets -lift -merge -useContext -underBinder +onlyGivenNames x reserve y z
      have hx : Mild s x := Calm.ite (.via (State.release_calm trivial _ _ _) (s.mergeInto_calm trivial _ _ _)) (.refl _ s)
      have hy : Mild x y := Calm.ite (.refl _ x) (x.mark_mild _)
      have hz : Mild y z := .via (State.tryFree_calm _ _) (y.onEntry_calm _ _)
      exact .via (State.pumpAgents_calm trivial _ z) (hx.trans (hy.trans hz))
    · exact .refl _ s
  · exact .refl _ s

theorem State.emptyRank_mild (s : State) (n k : Nat) : Mild s (s.emptyRank n k) := by
  unfold State.emptyRank
  extract_lets -lift -merge -useContext -underBinder +onlyGivenNames x c mine y
  have hx : Mild s x := s.holdCs_mild n k
  have hy : Mild x y := .apart (x.setSub_keeps n _) rfl
  exact (hx.trans hy).trans (Calm.foldl _ _ (fun t e => t.onRetired_mild e) y)

/-! ### Calibration runs of a rank that goes (R303, R307) -/

theorem State.setRun_mild (s : State) (p : Nat) (r : Option CalRun) : Mild s (s.setRun p r) :=
  .of_keeps (s.setRun_keeps p r) rfl rfl

theorem State.makeDue_mild (s : State) (n : Nat) : Mild s (s.makeDue n) := by
  unfold State.makeDue
  exact Calm.ite (Calm.ite (.refl _ s) (.of_keeps (Keeps.upd_cal s _) rfl rfl)) (.of_keeps (Keeps.upd_cal s _) rfl rfl)

theorem State.pendToDue_mild (s : State) (n : Nat) : Mild s (s.pendToDue n) := by
  unfold State.pendToDue
  exact Calm.ite (.via (State.makeDue_mild _ n) (.of_keeps (Keeps.upd_cal s _) rfl rfl)) (.refl _ s)

theorem State.dropCal_mild (s : State) (p : Nat) : Mild s (s.dropCal p) := by
  unfold State.dropCal
  split
  · refine .via (State.pendToDue_mild _ _) (.via (State.setRun_mild _ _ _) (Calm.ite (.via (State.event_mild _ _ _) ?_) (.refl _ s)))
    exact .apart (s.endDir_keeps 8) rfl
  · exact .refl _ s

/-! ### Retirement and sparing (R346 to R359) -/

theorem State.writeFault_mild (s : State) : Mild s s.writeFault := by
  unfold State.writeFault
  refine Calm.ite (.refl _ s) ?_
  extract_lets -lift -merge -useContext -underBinder +onlyGivenNames f x
  exact .via (State.reserveWrite_calm trivial x _ _) (.of_keeps (Keeps.upd_flt s _) rfl rfl)

theorem State.setRetired_mild (s : State) (p : Nat) (cause : BitVec 3) (spared : Bool) : Mild s (s.setRetired p cause spared) := by
  unfold State.setRetired
  extract_lets -lift -merge -useContext -underBinder +onlyGivenNames x f y
  have hx : Mild s x := .via (State.onRank_mild _ _ _) (s.holdCs_mild _ _)
  have hy : Mild x y := .of_keeps (Keeps.upd_flt x _) rfl rfl
  exact .via (State.event_mild _ _ _) (.via y.writeFault_mild (hx.trans hy))

theorem State.retireNow_mild (s : State) (p : Nat) (cause : BitVec 3) : Mild s (s.retireNow p cause) := by
  unfold State.retireNow
  extract_lets -lift -merge -useContext -underBinder +onlyGivenNames x f y
  have hx : Mild s x := s.onRank_mild p _
  have hy : Mild x y := .of_keeps (Keeps.upd_flt x _) rfl rfl
  exact .via (State.dropCal_mild _ p) (.via (y.emptyRank_mild _ _) (hx.trans hy))

theorem State.wantRank_mild (s : State) (p : Nat) (cause : BitVec 3) : Mild s (s.wantRank p cause) := by
  unfold State.wantRank
  exact Calm.ite (.refl _ s) (.via (State.event_mild _ _ _) (.via (State.writeFault_mild _) (s.onRank_mild p _)))

theorem State.abortSpare_mild (s : State) (p : Nat) : Mild s (s.abortSpare p) := by
  unfold State.abortSpare
  extract_lets -lift -merge -useContext -underBinder +onlyGivenNames f x
  have hx : Mild s x := .of_keeps (Keeps.upd_flt s _) rfl rfl
  exact .via (State.event_mild _ _ _) (.via x.writeFault_mild hx)

theorem State.actSelf_mild (s : State) (q : Nat) : Mild s (s.actSelf q) :=
  Calm.ite (s.retireNow_mild q _) (s.wantRank_mild q _)

theorem State.retire_mild (s : State) (p : Nat) (cause : BitVec 3) : Mild s (s.retire p cause) := by
  unfold State.retire
  split
  · exact .via (State.actSelf_mild _ _) (.via (State.retireNow_mild _ _ _) (s.abortSpare_mild p))
  · exact s.retireNow_mild p cause

theorem State.actAlone_mild (s : State) (p : Nat) (cause : BitVec 3) : Mild s (s.actAlone p cause) :=
  Calm.ite (s.retire_mild p cause) (s.wantRank_mild p cause)

theorem State.dualWaiting_mild (s : State) (p : Nat) : Mild s (s.dualWaiting p) := by
  unfold State.dualWaiting
  refine Calm.foldl _ _ (fun t e => ?_) s
  split
  · exact .via (State.onSub_calm _ _ _) (t.onEntry_calm _ _)
  · exact .refl _ t

theorem State.startSpare_mild (s : State) (p : Nat) (cause : BitVec 3) : Mild s (s.startSpare p cause) := by
  unfold State.startSpare
  extract_lets -lift -merge -useContext -underBinder +onlyGivenNames x f y
  have hx : Mild s x := s.onRank_mild p _
  have hy : Mild x y := .of_keeps (Keeps.upd_flt x _) rfl rfl
  exact .via (State.event_mild _ _ _) (.via (State.writeFault_mild _) (.via (y.dualWaiting_mild p) (hx.trans hy)))

theorem State.actOn_mild (s : State) (p : Nat) (cause : BitVec 3) : Mild s (s.actOn p cause) :=
  Calm.ite (s.startSpare_mild p cause) (s.actAlone_mild p cause)

theorem State.reapply_mild (s : State) : Mild s s.reapply := Calm.foldS _ _ (fun t p => t.actOn_mild p _) s

theorem State.resumeCopy_mild (s : State) : Mild s s.resumeCopy := by
  unfold State.resumeCopy
  refine Calm.ite (Calm.ite (.of_keeps (Keeps.upd_flt s _) rfl rfl) ?_) (.refl _ s)
  exact .via (State.writeFault_mild _) (.of_keeps (Keeps.upd_flt s _) rfl rfl)

theorem State.retireFailed_mild (s : State) (spare : Bool) : Mild s (s.retireFailed spare) := by
  unfold State.retireFailed
  refine Calm.foldS _ _ (fun t p => ?_) s
  refine Calm.ite (.refl _ t) (Calm.ite (t.holdCs_mild _ _) (Calm.ite ?_ ?_))
  · exact .via (State.setRetired_mild _ _ _ _) (.of_keeps (Keeps.upd_flt t _) rfl rfl)
  · split
    · exact .via (State.actSelf_mild _ _) (.via (State.setRetired_mild _ _ _ _) (t.abortSpare_mild p))
    · exact t.setRetired_mild p 1 false

/-! ### The resynchronisation of the hub's own regions (R225, R229) -/

theorem State.openGranules_mild (n : Nat) (s : State) : Mild s (State.openGranules n s) := by
  induction n generalizing s with
  | zero => exact .refl _ s
  | succ n ih =>
    rw [State.openGranules.eq_2]
    split
    · exact Calm.ite (.via (ih _) (.via (State.sendCtl_calm _ _ _ _ _) (.of_keeps (Keeps.upd_mir s _) rfl rfl))) (.refl _ s)
    · exact Calm.ite (.via (State.sendCtl_calm _ _ _ _ _) (.of_keeps (Keeps.upd_mir s _) rfl rfl)) (.refl _ s)

theorem State.nextRegion_mild (session : Bool) (l : List Nat) (s : State) : Mild s (State.nextRegion session l s) := by
  induction l generalizing s with
  | nil =>
    rw [State.nextRegion.eq_1]
    refine Calm.ite (.via (State.sendCtl_calm _ _ _ _ _) ?_) ?_ <;> exact .of_keeps (Keeps.upd_mir s _) rfl rfl
  | cons r rest ih =>
    rw [State.nextRegion.eq_2]
    refine Calm.ite ?_ (.via (ih _) (Calm.ite (s.event_mild _ _) (.refl _ s)))
    extract_lets -lift -merge -useContext -underBinder +onlyGivenNames w x gs todo m y
    have hx : Mild s x := s.setRt_mild r _
    have hy : Mild x y := .of_keeps (Keeps.upd_mir x _) rfl rfl
    exact .via (State.openGranules_mild _ _) (.via (y.writeRecord_calm trivial _) (hx.trans hy))

theorem State.copyFrom_mild (s : State) (r : Nat) : Mild s (s.copyFrom r) := State.nextRegion_mild _ _ s

theorem State.resyncOwn_mild (s : State) : Mild s s.resyncOwn := by
  unfold State.resyncOwn
  refine Calm.ite ?_ (.refl _ s)
  extract_lets -lift -merge -useContext -underBinder +onlyGivenNames rs x m y
  have hx : Mild s x := Calm.foldl _ _ (fun t r => t.setRt_mild r _) s
  have hy : Mild x y := .of_keeps (Keeps.upd_mir x _) rfl rfl
  exact .via (y.copyFrom_mild 0) (hx.trans hy)

end Sys2Proof.Machine
end

section
/-!
The entries to `JOIN` and `SERVICE` and the settling of the pair state (R21, R23, R124, R205, R230).
-/

set_option Elab.async false

namespace Sys2Proof.Machine

/-- One more operation at the end of a run of them, whose frame lies within theirs. -/
theorem Keeps.after {P Q : List Part} {a b c : State} (k : Keeps Q b c) (h : partsWithin Q P = true) (r : Keeps P a b) : Keeps P a c :=
  r.trans (k.mono h)

/-! ### The place of an event in a core cycle (R25) -/

/-- The events of a core cycle keep their places while the top level, the sequencer, the fuses and the registers of power and fuses
stand. -/
theorem State.outranked_congr {s t : State} (pending : t.pending = s.pending) (top : t.top = s.top) (pwr : t.pwr = s.pwr)
    (fuse : t.fuse = s.fuse) (reg : ∀ a, a >>> 16 = 0xA → t.reg a = s.reg a) (page : t.reg 0x0B0010 = s.reg 0x0B0010) (rank : Nat) :
    t.outranked rank = s.outranked rank := by
  have flag : ∀ f : Fld, f.addr >>> 16 = 0xA → t.flag f = s.flag f := fun f h => by
    rw [State.flag, State.fld, reg _ h, State.flag, State.fld]
  have fld : ∀ f : Fld, f.addr >>> 16 = 0xA → t.fld f = s.fld f := fun f h => by rw [State.fld, reg _ h, State.fld]
  have ok : t.flag Fld.MGT_FUSESTAT.PAGE_OK = s.flag Fld.MGT_FUSESTAT.PAGE_OK := by rw [State.flag, State.fld, page, State.flag, State.fld]
  have used : ∀ n, t.railUsed n = s.railUsed n := fun n => flag _ (by
    show (0x0A0040 + 0x4 * (n % 16)) >>> 16 = 0xA
    rw [Nat.shiftRight_eq_div_pow]
    omega)
  have feed : ∀ f, t.feedIn f = s.feedIn f := fun f => flag _ (by cases f <;> rfl)
  have calm : t.inCalm = s.inCalm := by
    rw [State.inCalm, top, fld Fld.PWR_SEQSTAT.TABLE rfl, fld Fld.PWR_SEQSTAT.FORM rfl, State.inCalm]
  have rail : ∀ n, t.railState n = s.railState n := fun n => by rw [State.railState, pwr, State.railState]
  have fault : ∀ n above, t.faultDue n above = s.faultDue n above := fun n above => by
    simp only [State.faultDue, State.railArmed, State.railRamping, top, pwr, used, rail]
  have start : ∀ n, t.startFaultDue n = s.startFaultDue n := fun n => by simp only [State.startFaultDue, State.railRamping, pwr, rail]
  have can : t.canTrigger = s.canTrigger := by rw [State.canTrigger, top, flag Fld.PWR_HOLD.CVALID rfl, State.canTrigger]
  have leaves : ∀ f, t.qualLeaves f = s.qualLeaves f := fun f => by
    simp only [State.qualLeaves, State.feedUsed, State.preferred, top, pwr, fuse, feed, calm, ok, flag Fld.PWR_VEERCFG.SINGLE rfl,
      flag Fld.PWR_VEERCFG.PREF rfl]
  have ranks : t.eventRank = s.eventRank := funext fun c => by
    unfold State.eventRank
    split
    case h_2 => rw [fault]
    case h_3 => rw [start]
    case h_4 => rw [pwr, can]
    case h_5 => rw [leaves]
    case h_6 => rw [calm]
    all_goals rfl
  simp only [State.outranked, pending, ranks]

/-! ### The entry to SERVICE -/

/-- What the entry to `SERVICE` does beside the change itself. -/
theorem State.afterEntry_service (s : State) (prev : TopState) (cause : Byte) :
    s.afterEntry .service prev cause = ((((s.setFld Fld.GLB_EVENT.STATE 1).aonEntry .service).event 0x0001
      (TopState.service.code + (prev.code <<< 4) + (cause.toNat <<< 8))).resumeCopy).reapply := rfl

/-- The parts that the entry to `SERVICE` may change. -/
def serviceParts : List Part :=
  .links :: .twin :: .ord :: .mir :: .sch :: .flt :: .cal :: .pwr :: .boot :: .reg Reg.ORD_FWD :: .reg Reg.ECC_SEALFAIL ::
    .reg Reg.ECC_FIRSTFAIL :: .reg Reg.ORD_LINEHOLD :: stateParts

theorem State.aonEntry_service_keeps (s : State) : Keeps [.pwr, .boot] s (s.aonEntry .service) := by
  unfold State.aonEntry
  extract_lets -lift -merge -useContext -underBinder +onlyGivenNames w x
  have hx : Keeps [.pwr, .boot] s x := Keeps.ite (Keeps.via (Keeps.upd_pwr s _) rfl (Keeps.refl _ _)) (Keeps.refl _ _)
  exact Keeps.via (Keeps.upd_pwr_boot x _ _) rfl hx

theorem State.goTo_service_keeps (s : State) (cause : Byte) : Keeps serviceParts s (s.goTo .service cause) := by
  rw [State.goTo, State.afterEntry_service]
  refine .after (State.reapply_keeps _) rfl (.after (State.resumeCopy_keeps _) rfl (.after (State.event_keeps _ _ _) rfl
    (.after (State.aonEntry_service_keeps _) rfl (.after (State.setFld_keeps _ _ _) rfl ?_))))
  exact (Keeps.upd_top s _).mono rfl

theorem State.afterEntry_service_mild (s : State) (prev : TopState) (cause : Byte) : Mild s (s.afterEntry .service prev cause) := by
  rw [State.afterEntry_service]
  refine .via (State.reapply_mild _) (.via (State.resumeCopy_mild _) (.via (State.event_mild _ _ _)
    (.via (.apart (State.aonEntry_service_keeps _) rfl) (.apart (s.setFld_keeps _ _) rfl))))

/-! ### The entry to JOIN from TRAIN -/

/-- What the entry to `JOIN` from `TRAIN` does beside the change itself. -/
theorem State.afterEntry_join (s : State) (cause : Byte) :
    s.afterEntry .join .train cause = allPorts.foldl (fun s p => s.onLink p fun l => { l with attempts := 0, longWait := false })
      (((s.setFld Fld.GLB_EVENT.STATE 1).event 0x0001
        (TopState.join.code + (TopState.train.code <<< 4) + (cause.toNat <<< 8))).joinEntry).clearOrder :=
  rfl

/-- The ports' attempts are forgotten: links alone change. -/
theorem State.forgetAttempts_keeps (s : State) : Keeps [.links] s (allPorts.foldl (fun s p =>
    s.onLink p fun l => { l with attempts := 0, longWait := false }) s) :=
  Keeps.foldl _ _ (Keeps.refl _ _) fun t p k => Keeps.via (t.onLink_keeps p _) rfl k

theorem State.goTo_join_keeps {s : State} (h : s.top.state = .train) (cause : Byte) :
    Keeps (.ord :: .links :: .reg Reg.GLB_QUIESCE :: stateParts) s (s.goTo .join cause) := by
  rw [State.goTo, h, State.afterEntry_join]
  refine .after (State.forgetAttempts_keeps _) rfl (.after (State.clearOrder_keeps _) rfl (.after (State.joinEntry_keeps _) rfl
    (.after (State.event_keeps _ _ _) rfl (.after (State.setFld_keeps _ _ _) rfl ?_))))
  exact (Keeps.upd_top s _).mono rfl

/-- What the entry clears of the order (R121, R124). -/
theorem State.joinEntry_clearOrder_ord (s : State) : s.joinEntry.clearOrder.ord.forks = [] ∧ s.joinEntry.clearOrder.ord.front = 0 ∧
    s.joinEntry.clearOrder.ord.streams = [] ∧ s.joinEntry.clearOrder.ord.ptr = 0 := ⟨rfl, rfl, rfl, rfl⟩

/-- The order is empty at the entry to `JOIN` from `TRAIN` (R121, R124). -/
theorem State.goTo_join_ord {s : State} (c : s.canon) (h : s.top.state = .train) (cause : Byte) :
    (s.goTo .join cause).ord.forks = [] ∧ (s.goTo .join cause).ord.front = 0 ∧ (s.goTo .join cause).ord.streams = [] ∧
      (s.goTo .join cause).ord.ptr = 0 := by
  have entered : Keeps stateParts s (({ s with top := { s.top with state := .join, prev := .train, cause := cause } }.setFld
      Fld.GLB_EVENT.STATE 1).event 0x0001 (TopState.join.code + (TopState.train.code <<< 4) + (cause.toNat <<< 8))) :=
    .after (State.event_keeps _ _ _) rfl (.after (State.setFld_keeps _ _ _) rfl ((Keeps.upd_top s _).mono rfl))
  rw [State.goTo, h, State.afterEntry_join]
  generalize State.event _ _ _ = x at entered ⊢
  have c' : x.joinEntry.clearOrder.canon := (State.clearOrder_keeps _).canon ((State.joinEntry_keeps x).canon (entered.canon c))
  have ord : _ = x.joinEntry.clearOrder.ord := (State.forgetAttempts_keeps x.joinEntry.clearOrder).same c' .ord rfl
  rw [ord]
  exact x.joinEntry_clearOrder_ord

theorem State.face_top {s t : State} (h : t.face = s.face) : t.top = s.top := congrArg Face.top h

/-! ### The pair state is set (R204, R205, R230) -/

/-- The state with another pair state. -/
def State.withPair (s : State) (ps : PairState) : State := { s with mir := { s.mir with pstate := ps } }

theorem State.withPair_keeps (s : State) (ps : PairState) : Keeps [.mir] s (s.withPair ps) := Keeps.upd_mir s _

/-- Where the pair state is set, the rest of the face stands. -/
theorem State.setPair_calm {C : BitVec 16 → Prop} (hC : C 0x8001) (s : State) (ps : PairState) :
    Calm C (s.withPair ps) (s.setPair ps) := by
  unfold State.setPair
  refine .via (State.heartbeat_calm _) (.via (State.writeRecord_calm hC _ ps) ?_)
  refine Calm.via (b := (s.withPair ps).setFld Fld.GLB_EVENT.PAIR 1) ?_ (.apart (State.setFld_keeps _ _ _) rfl)
  refine Calm.foldl _ _ (fun t p => Calm.ite ?_ (.refl C t)) _
  exact t.onLink_calm p fun _ => ⟨rfl, rfl⟩

/-- The pair state with the rest of the face as it was, its event logged. -/
theorem State.settleTo_spec {s : State} (c : s.canon) (ps : PairState) :
    (s.settleTo ps).canon ∧ (s.settleTo ps).face = { s.face with pair := ps } ∧
      (Attentive s → (s.settleTo ps).log.rdLog ≤ (s.settleTo ps).log.ring.length ∧
        Logged 0x4014 (BitVec.ofNat 32 ps.code) (s.settleTo ps)) := by
  have c' : (s.withPair ps).canon := (s.withPair_keeps ps).canon c
  have k := State.setPair_calm (C := (· = 0x8001)) rfl s ps
  obtain ⟨cp, face, -⟩ := k c'
  have e := (s.setPair ps).event_mild 0x4014 ps.code
  rw [State.settleTo]
  refine ⟨(e cp).1, (e cp).2.1.trans face, fun att => ?_⟩
  have room : (s.setPair ps).log.Roomy := k.roomy c' att.roomy
  have on : (s.setPair ps).top.aonOn = true := by
    rw [State.face_top face]
    exact att.1
  exact ⟨(e.holds cp room.1).1, State.capture_roomy room on (by decide) (by decide) (by decide) cp _ _⟩

end Sys2Proof.Machine
end

section
/-!
O23, PAIR_SETTLE and JOIN_UNSETTLED_TIMEOUT: the row that applies, and what each leaves (R21, R23, R229, R230).
-/

set_option Elab.async false

namespace Sys2Proof.Machine

/-! ### What JOIN waits for -/

theorem State.joinLinked_congr {s t : State} (face : t.face.ports = s.face.ports) (reg : t.reg Reg.MIR_WITNESS = s.reg Reg.MIR_WITNESS) :
    t.joinLinked = s.joinLinked := by
  have port : ∀ p, (t.link p).lstate = (s.link p).lstate ∧ (t.link p).peerNeg = (s.link p).peerNeg := fun p =>
    Prod.mk.inj (congrFun face p)
  have witness : t.fld Fld.MIR_WITNESS.WITNESS_ID = s.fld Fld.MIR_WITNESS.WITNESS_ID := by rw [State.fld, reg, State.fld]
  simp only [State.joinLinked, State.witnessPort, LinkSt.up, (port _).1, (port _).2, witness]

theorem State.up_congr {s t : State} (face : t.face.ports = s.face.ports) (p : Port) : (t.link p).up = (s.link p).up := by
  rw [LinkSt.up, show (t.link p).lstate = (s.link p).lstate from congrArg Prod.fst (congrFun face p), LinkSt.up]

/-- The settling of the pair state leaves what `JOIN` waits for. -/
theorem State.settleTo_ready {s : State} (c : s.canon) (ps : PairState) : (s.settleTo ps).joinLinked = s.joinLinked ∧
    (s.settleTo ps).outranked 7 = s.outranked 7 ∧ ((s.settleTo ps).link .t).up = (s.link .t).up := by
  have k := s.settleTo_keeps ps
  obtain ⟨-, face, -⟩ := State.settleTo_spec c ps
  have ports : (s.settleTo ps).face.ports = s.face.ports := by rw [face]
  have aon := AonKept.of_keeps (L := [Reg.GLB_EVENT, Reg.GLB_DIRSTAT, Reg.LOG_RINGSTAT, Reg.LOG_CAPTURED, Reg.LOG_COALESCED, Reg.LOG_LOST,
    Reg.LOG_ORPHANS, Reg.LOG_SQUALLS]) k c (by decide +kernel)
  refine ⟨State.joinLinked_congr ports (k.reg c (by decide +kernel)), ?_, State.up_congr ports .t⟩
  refine State.outranked_congr (k.same c .pending (by decide +kernel)) (k.same c .top (by decide +kernel)) (k.same c .pwr (by decide +kernel))
    (k.same c .fuse (by decide +kernel)) (fun a ha => aon a (by simp [aonReg, ha]) fun m => ?_) (k.reg c (by decide +kernel)) 7
  simp only [List.mem_cons, List.not_mem_nil, or_false] at m
  rcases m with rfl | rfl | rfl | rfl | rfl | rfl | rfl | rfl <;> exact absurd ha (by decide)

theorem State.serve_goes {s : State} (join : s.top.state = .join) (linked : s.joinLinked = true)
    (twin : s.mir.pstate ≠ .paired ∨ (s.link .t).up = true) (rank : s.outranked 7 = false) : s.serve = s.goTo .service 0x09 :=
  if_pos (by simpa [join, linked, rank] using twin)

theorem State.serve_waits {s : State}
    (h : s.joinLinked = false ∨ s.outranked 7 = true ∨ s.mir.pstate = .paired ∧ (s.link .t).up = false) : s.serve = s :=
  if_neg (by rcases h with h | h | ⟨h, h'⟩ <;> simp_all)

/-! ### The row that applies (R230) -/

theorem exec_pairSettle_settled {s : State} (join : s.top.state = .join) (settled : s.settled = true) (trigger : s.top.trigger = none) :
    exec .pairSettle s = .next s.serve := congrArg Host.Outcome.next (if_pos (by simp [join, settled, trigger]))

/-- A hub in `JOIN` that has not settled, and has no solo grant. -/
structure Joining (s : State) : Prop where
  join : s.top.state = .join
  fresh : s.mir.pstate = .none
  grant : s.mir.soloGrant = false
  trigger : s.top.trigger = none

theorem Joining.unsettled {s : State} (h : Joining s) : ¬(s.top.state == .join && s.settled && s.top.trigger.isNone) = true := by
  simp [State.settled, h.fresh]

theorem Joining.row {s : State} (h : Joining s) :
    (s.top.state == .join && s.mir.pstate == .none && !s.mir.soloGrant && s.top.trigger.isNone) = true := by
  simp [h.join, h.fresh, h.grant, h.trigger]

/-- A hub recorded as paired, whose peer reports the same at its epoch. -/
theorem exec_pairSettle_paired {s : State} (h : Joining s) (peer : s.twin.peerEpoch = some s.mir.epoch) (epoch : s.mir.epoch ≠ 0)
    (recorded : s.mir.recorded = .paired) (reports : s.twin.peerState = 1) (marks : s.feat .t 18 = true ∨ s.mir.marks = []) :
    exec .pairSettle s = .next (let s := (s.settleTo .paired).serve
      (if s.top.state == .join then s.reapply else s).resyncOwn) := by
  have row : (s.peerReports 1 && (s.feat .t 18 || s.mir.marks.isEmpty)) = true := by
    simpa [State.peerReports, peer, reports] using marks
  rw [exec, execPairSettle, if_neg h.unsettled, if_pos h.row, peer]
  dsimp only
  rw [if_neg (by simp), if_neg (by rw [recorded]; decide), if_neg (by simpa using epoch), recorded]
  dsimp only
  rw [if_pos row]

theorem exec_pairSettle_fenced {s : State} (h : Joining s) (recorded : s.mir.recorded = .fenced)
    (peer : s.twin.peerEpoch = .none ∨ s.twin.peerEpoch = some s.mir.epoch) : exec .pairSettle s = .next (s.settleTo .fenced) := by
  rw [exec, execPairSettle, if_neg h.unsettled, if_pos h.row]
  rcases peer with peer | peer
  · rw [peer]
    dsimp only
    rw [if_pos (by rw [recorded]; decide)]
  · rw [peer]
    dsimp only
    rw [if_neg (by simp), if_pos (by rw [recorded]; decide)]

theorem exec_pairSettle_idle {s : State} (h : s.top.state ≠ .join ∨ s.top.trigger ≠ none ∨ s.mir.pstate = .fenced) :
    exec .pairSettle s = .next s := by
  refine congrArg Host.Outcome.next ?_
  rw [if_neg, if_neg]
  · rcases h with h | h | h <;> simp [h, Option.isNone_iff_eq_none]
  · rcases h with h | h | h <;> simp [h, Option.isNone_iff_eq_none, State.settled]

/-! ### What the rows leave -/

/-- The hub enters `SERVICE`: its face stands but for the top level, and what the log has still to write stands. -/
theorem State.goTo_service_spec {s : State} (c : s.canon) (cause : Byte) : (s.goTo .service cause).canon ∧
    (s.goTo .service cause).face = { s.face with top := { s.top with state := .service, prev := s.top.state, cause := cause } } ∧
      ∀ code data, s.log.rdLog ≤ s.log.ring.length → Logged code data s →
        (s.goTo .service cause).log.rdLog ≤ (s.goTo .service cause).log.ring.length ∧ Logged code data (s.goTo .service cause) := by
  have c' : State.canon { s with top := { s.top with state := .service, prev := s.top.state, cause := cause } } := (Keeps.upd_top s _).canon c
  have k := State.afterEntry_service_mild { s with top := { s.top with state := .service, prev := s.top.state, cause := cause } } s.top.state cause
  rw [State.goTo]
  exact ⟨(k c').1, (k c').2.1, fun code data rd l => ⟨(k.holds c' rd).1, k.logged c' rd l⟩⟩

end Sys2Proof.Machine
end

section
/-!
O23, the clauses of PAIR_SETTLE and JOIN_UNSETTLED_TIMEOUT.
-/

set_option Elab.async false

namespace Sys2Proof.Machine

/-- The pair state of a face. -/
theorem State.pair_of_face {s : State} {f : Face} (h : s.face = f) : s.mir.pstate = f.pair := by
  rw [← h]
  rfl

theorem Calm.pair {C : BitVec 16 → Prop} {s t : State} (h : Calm C s t) (c : s.canon) : t.mir.pstate = s.mir.pstate :=
  State.pair_of_face (h c).2.1

theorem State.goTo_service_pair {s : State} (c : s.canon) (cause : Byte) : (s.goTo .service cause).mir.pstate = s.mir.pstate :=
  State.pair_of_face (State.goTo_service_spec c cause).2.1

theorem State.settleTo_pair {s : State} (c : s.canon) (ps : PairState) : (s.settleTo ps).mir.pstate = ps :=
  State.pair_of_face (State.settleTo_spec c ps).2.1

/-- The parts that `PAIR_SETTLE` may change where the hub goes to `SERVICE`. -/
def settleServeParts : List Part :=
  .links :: .twin :: .ord :: .map :: .mir :: .sch :: .flt :: .cal :: .pwr :: .boot :: .reg Reg.ORD_FWD :: .reg Reg.ECC_SEALFAIL ::
    .reg Reg.ECC_FIRSTFAIL :: .reg Reg.ORD_LINEHOLD :: stateParts

/-- The parts that `PAIR_SETTLE` may change where the hub settles as paired and stays. -/
def settleStayParts : List Part :=
  .links :: .twin :: .ord :: .map :: .mir :: .sch :: .flt :: .cal :: .reg Reg.ORD_FWD :: .reg Reg.ORD_LINEHOLD :: .reg Reg.ECC_SEALFAIL ::
    .reg Reg.ECC_FIRSTFAIL :: logParts

/-- A recorded paired state that the peer confirms (R230). -/
structure PairHeard (s : State) : Prop where
  peer : s.twin.peerEpoch = some s.mir.epoch
  epoch : s.mir.epoch ≠ 0
  recorded : s.mir.recorded = .paired
  reports : s.twin.peerState = 1
  marks : s.feat .t 18 = true ∨ s.mir.marks = []

theorem pairSettle_serves {s : State} (c : s.canon) (h : Joining s) (p : PairHeard s) (linked : s.joinLinked = true)
    (up : (s.link .t).up = true) (rank : s.outranked 7 = false) : Runs s .pairSettle settleServeParts fun t => t.mir.pstate = .paired ∧
      t.top = { s.top with state := .service, prev := .join, cause := 0x09 } ∧ (Attentive s → Logged 0x4014 1 t) := by
  obtain ⟨cu, -, logged⟩ := State.settleTo_spec c .paired
  obtain ⟨linked', rank', up'⟩ := State.settleTo_ready c .paired
  have top : (s.settleTo .paired).top = s.top := (s.settleTo_keeps .paired).same c .top (by decide +kernel)
  have serve : (s.settleTo .paired).serve = (s.settleTo .paired).goTo .service 0x09 :=
    State.serve_goes (by rw [top, h.join]) (by rw [linked', linked]) (Or.inr (by rw [up', up])) (by rw [rank', rank])
  have kg := (s.settleTo .paired).goTo_service_keeps 0x09
  obtain ⟨cv, -, loggedv⟩ := State.goTo_service_spec cu 0x09
  have topv := State.goTo_top cu .service 0x09
  have run := exec_pairSettle_paired h p.peer p.epoch p.recorded p.reports p.marks
  have away : ((s.settleTo .paired).goTo .service 0x09).top.state ≠ .join := by
    rw [topv]
    exact TopState.noConfusion
  dsimp only at run
  rw [serve, if_neg (by simpa using away)] at run
  have kr := ((s.settleTo .paired).goTo .service 0x09).resyncOwn_keeps
  have m := ((s.settleTo .paired).goTo .service 0x09).resyncOwn_mild
  refine ⟨_, run, ?_, ?_, ?_, fun att => ?_⟩
  · exact (Keeps.after kr rfl (.after kg rfl ((s.settleTo_keeps .paired).mono rfl)) c).2
  · rw [m.pair cv, State.goTo_service_pair cu, State.settleTo_pair c]
  · rw [kr.same cv .top (by decide +kernel), topv, top, h.join]
  · obtain ⟨rd, l⟩ := logged att
    obtain ⟨rdv, lv⟩ := loggedv _ _ rd l
    exact m.logged cv rdv lv

theorem pairSettle_stays {s : State} (c : s.canon) (h : Joining s) (p : PairHeard s) (linked : s.joinLinked = false) :
    Runs s .pairSettle settleStayParts fun t => t.mir.pstate = .paired ∧ t.top = s.top ∧ (Attentive s → Logged 0x4014 1 t) := by
  obtain ⟨cu, -, logged⟩ := State.settleTo_spec c .paired
  obtain ⟨linked', -, -⟩ := State.settleTo_ready c .paired
  have ks := s.settleTo_keeps .paired
  have top : (s.settleTo .paired).top = s.top := ks.same c .top (by decide +kernel)
  have run := exec_pairSettle_paired h p.peer p.epoch p.recorded p.reports p.marks
  dsimp only at run
  rw [State.serve_waits (Or.inl (linked'.trans linked)), if_pos (by simp [top, h.join])] at run
  have ka := (s.settleTo .paired).reapply_keeps
  have kr := (s.settleTo .paired).reapply.resyncOwn_keeps
  have m : Mild _ _ := (s.settleTo .paired).reapply_mild.trans (s.settleTo .paired).reapply.resyncOwn_mild
  have k : Keeps settleStayParts s (s.settleTo .paired).reapply.resyncOwn := .after kr rfl (.after ka rfl (ks.mono rfl))
  refine ⟨_, run, (k c).2, ?_, k.same c .top (by decide +kernel), fun att => ?_⟩
  · rw [m.pair cu, State.settleTo_pair c]
  · obtain ⟨rd, l⟩ := logged att
    exact m.logged cu rd l

theorem pairSettle_fenced {s : State} (c : s.canon) (h : Joining s) (recorded : s.mir.recorded = .fenced)
    (peer : s.twin.peerEpoch = .none ∨ s.twin.peerEpoch = some s.mir.epoch) : Runs s .pairSettle (.links :: .twin :: .ord :: .mir ::
      .sch :: .reg Reg.ORD_FWD :: .reg Reg.ORD_LINEHOLD :: .reg Reg.ECC_SEALFAIL :: .reg Reg.ECC_FIRSTFAIL :: logParts) fun t =>
      t.mir.pstate = .fenced ∧ t.top = s.top ∧ (Attentive s → Logged 0x4014 5 t) := by
  obtain ⟨-, -, logged⟩ := State.settleTo_spec c .fenced
  have k := s.settleTo_keeps .fenced
  refine ⟨_, exec_pairSettle_fenced h recorded peer, ((k.mono rfl) c).2, State.settleTo_pair c _, k.same c .top (by decide +kernel),
    fun att => (logged att).2⟩

/-- A hub that has settled leaves for `SERVICE` when its links stand. -/
theorem settled_serves {s : State} (c : s.canon) (join : s.top.state = .join) (settled : s.settled = true) (trigger : s.top.trigger = none)
    (linked : s.joinLinked = true) (twin : s.mir.pstate ≠ .paired ∨ (s.link .t).up = true) (rank : s.outranked 7 = false) :
    Runs s .pairSettle settleServeParts fun t => t.mir.pstate = s.mir.pstate ∧
      t.top = { s.top with state := .service, prev := .join, cause := 0x09 } := by
  have top := State.goTo_top c .service 0x09
  rw [join] at top
  refine ⟨_, ?_, (((s.goTo_service_keeps 0x09).mono rfl) c).2, State.goTo_service_pair c _, top⟩
  rw [exec_pairSettle_settled join settled trigger, State.serve_goes join linked twin rank]

theorem settled_waits {s : State} (join : s.top.state = .join) (settled : s.settled = true) (trigger : s.top.trigger = none)
    (h : s.joinLinked = false ∨ s.outranked 7 = true ∨ s.mir.pstate = .paired ∧ (s.link .t).up = false) :
    Runs s .pairSettle [] fun t => t = s := by
  refine ⟨s, ?_, fun _ _ => Part.same_refl _ _, rfl⟩
  rw [exec_pairSettle_settled join settled trigger, State.serve_waits h]

theorem joinUnsettledTimeout_records {s : State} (c : s.canon) (join : s.top.state = .join) (fresh : s.mir.pstate = .none) :
    Runs s .joinUnsettledTimeout logParts fun t => (Attentive s → Logged 0x4015 (BitVec.ofNat 32 s.mir.recorded.code) t) :=
  ⟨s.event 0x4015 s.mir.recorded.code, congrArg Host.Outcome.next (if_pos (by simp [join, fresh])), (((s.event_keeps _ _).mono rfl) c).2,
    fun att => State.capture_logged att (by decide) _ _⟩

theorem exec_joinUnsettledTimeout_idle {s : State} (h : s.top.state ≠ .join ∨ s.mir.pstate ≠ .none) :
    exec .joinUnsettledTimeout s = .next s := congrArg Host.Outcome.next (if_neg (by rcases h with h | h <;> simp [h]))

end Sys2Proof.Machine
end

section
/-!
O23, TRAIN_END: what the end of the training leaves on the way to `JOIN` and to `BOOT_HOLD` (R23, R121, R124, R280, R349, R445, R565).
-/

set_option Elab.async false

namespace Sys2Proof.Machine

/-! ### The table after the load -/

theorem State.setRt_shadowOk (s : State) (r : Nat) (w : Word) : (s.setRt r w).map.shadowOk = s.map.shadowOk := by
  unfold State.setRt
  dsimp only
  split
  · rfl
  · split <;> rfl

theorem State.allOffline_shadowOk (s : State) : s.allOffline.map.shadowOk = s.map.shadowOk := by
  have step : ∀ (l : List Nat) (s : State), (foldS l (fun s r =>
      let w := s.rtEntry r
      if rtSync w == 5 then s else s.setRt r (rtPut w (rtRole w) 5 (rtHandover w))) s).map.shadowOk = s.map.shadowOk := by
    intro l
    induction l with
    | nil => exact fun _ => rfl
    | cons r l ih =>
      refine fun s => (ih _).trans ?_
      dsimp only
      split
      · rfl
      · exact s.setRt_shadowOk _ _
  exact step _ s

theorem State.settleRanks_shadowOk (s : State) : s.settleRanks.map.shadowOk = s.map.shadowOk := by
  unfold State.settleRanks
  split
  · exact s.allOffline_shadowOk
  · rfl

theorem State.setTable_source (s : State) (t : Tab Word) (source : Nat) (bad : Bool) :
    (s.setTable t source bad).fld Fld.MAP_TBLSRC.SOURCE = source % 4 := by
  unfold State.setTable
  extract_lets x m y
  rw [State.setFlag, State.fld_setFld_disjoint (f := Fld.MAP_TBLSRC.SHADOW_BAD) (g := Fld.MAP_TBLSRC.SOURCE) _ _ rfl (by decide),
    State.fld_setFld _ _ _ (by decide)]
  rfl

/-! ### On the way to JOIN -/

/-- The fault record taken, the failed ranks retired, and the table of the image in force. -/
def State.loaded (s : State) (header record : Option Line) : State :=
  ((s.keepStore.takeFault header record).retireFailed true).setTable (tableOf (s.keepStore.slotRuns s.keepStore.cfgStore.slot)) 1 false

/-- The schedulers of the populated sub-channels start. -/
def State.started (s : State) : State := foldS s.popSubs (fun s n => s.onSub n fun c => { c with start := s.nowNs }) s

/-- The state in which the hub enters `JOIN`: the schedulers started, the reserve initialised and the contents valid. -/
def State.formatted (s : State) (header record : Option Line) : State := (s.loaded header record).started.initReserve.setValid

/-- The parts that `TRAIN_END` may change on the way to `JOIN`. -/
def trainEndParts : List Part :=
  .links :: .ord :: .map :: .mir :: .sch :: .flt :: .cal :: .vbat :: .fmt :: .dram :: .reg Reg.GLB_QUIESCE :: .reg Reg.ORD_FWD ::
    .reg Reg.MAP_USE :: .reg Reg.MAP_TBLSRC :: .reg Reg.PWR_HOLD :: .twin :: .reg Reg.ORD_LINEHOLD :: .reg Reg.ECC_SEALFAIL ::
    .reg Reg.ECC_FIRSTFAIL :: stateParts

theorem exec_trainEnd_formats {s : State} (train : s.top.state = .train) (trigger : s.top.trigger = none) (rank : s.outranked 7 = false)
    (ended : s.trainingOver = true) (idle : s.pwr.part = 0) (trained : (s.popRanks.any fun p => (s.rank p).trained) = true)
    (header record : Option Line) :
    exec (.trainEnd header record) s = .next (((s.formatted header record).goTo .join 0x07).writeNamed).settleRanks :=
  congrArg Host.Outcome.next ((if_pos (by simp [train, trigger, rank, ended, idle])).trans (if_pos trained))

theorem State.withRecord_mild (s : State) (l : Line) : Mild s { s with mir := { s.mir with record := l } } :=
  .of_keeps (Keeps.upd_mir s _) rfl rfl

/-- The lines that the initialisation names are written by the agents. -/
theorem State.writeNamed_mild (s : State) : Mild s s.writeNamed := by
  unfold State.writeNamed
  extract_lets -lift -merge -useContext -underBinder +onlyGivenNames m x
  have hx : Mild s x := s.withRecord_mild _
  extract_lets -lift -merge -useContext -underBinder +onlyGivenNames shadow
  clear_value shadow x
  exact .via (State.agentAsk_mild _ _) hx

theorem Calm.order {C : BitVec 16 → Prop} {s t : State} (h : Calm C s t) (c : s.canon) : t.ord.forks = s.ord.forks ∧
    t.ord.front = s.ord.front ∧ t.ord.streams = s.ord.streams ∧ t.ord.ptr = s.ord.ptr := by
  have face := (h c).2.1
  exact ⟨(congrArg Face.forks face :), (congrArg Face.front face :), (congrArg Face.streams face :), (congrArg Face.ptr face :)⟩

theorem Calm.store {C : BitVec 16 → Prop} {s t : State} (h : Calm C s t) (c : s.canon) : t.cal.valid = s.cal.valid :=
  (congrArg Face.store (h c).2.1 :)

theorem State.loaded_keeps (s : State) (header record : Option Line) :
    Keeps (.links :: .twin :: .ord :: .map :: .mir :: .sch :: .flt :: .cal :: .reg Reg.ORD_FWD :: .reg Reg.ORD_LINEHOLD ::
      .reg Reg.ECC_SEALFAIL :: .reg Reg.ECC_FIRSTFAIL :: .reg Reg.MAP_USE :: .reg Reg.MAP_TBLSRC :: logParts) s (s.loaded header record) :=
  .after (State.setTable_keeps _ _ _ _) rfl (.after (State.retireFailed_keeps _ _) rfl (.after (State.takeFault_keeps _ _ _) rfl
    (s.keepStore_keeps.mono rfl)))

/-- The retention store is kept and the shadow is good (R275, R445). -/
theorem State.loaded_spec {s : State} (c : s.canon) (header record : Option Line) : (s.loaded header record).cal.valid = true ∧
    (s.loaded header record).map.shadowOk = true ∧ (s.loaded header record).fld Fld.MAP_TBLSRC.SOURCE = 1 := by
  have c1 := s.keepStore_keeps.canon c
  have k2 := s.keepStore.takeFault_keeps header record
  have c2 := k2.canon c1
  have m3 := (s.keepStore.takeFault header record).retireFailed_mild true
  have c3 := (m3 c2).1
  have k4 := State.setTable_keeps ((s.keepStore.takeFault header record).retireFailed true)
    (tableOf (s.keepStore.slotRuns s.keepStore.cfgStore.slot)) 1 false
  have same2 : _ = s.keepStore.cal := k2.same c1 .cal (by decide +kernel)
  have same4 : (s.loaded header record).cal = _ := k4.same c3 .cal (by decide +kernel)
  refine ⟨?_, rfl, State.setTable_source _ _ 1 false⟩
  rw [same4, m3.store c2, same2]
  rfl

theorem State.started_keeps (s : State) : Keeps [.sch] s s.started :=
  Keeps.foldS _ _ (Keeps.refl _ _) fun t n k => .after (t.onSub_keeps n _) rfl k

/-- From the load to the entry to `JOIN` the schedulers start, the reserve is initialised and the contents are valid. -/
theorem State.formatted_keeps (s : State) (header record : Option Line) :
    Keeps (.sch :: .fmt :: .dram :: .vbat :: .reg Reg.PWR_HOLD :: logParts) (s.loaded header record) (s.formatted header record) :=
  .after (State.setValid_keeps _) rfl (.after (State.initReserve_keeps _) rfl ((State.started_keeps _).mono rfl))

theorem State.setValid_flag {s : State} (c : s.canon) : s.setValid.vbat.cvalid = true ∧ s.setValid.fld Fld.PWR_HOLD.CVALID = 1 := by
  unfold State.setValid
  extract_lets -lift -merge -useContext -underBinder +onlyGivenNames v x
  have cx : (x.setFld Fld.PWR_HOLD.CVALID 1).canon := (x.setFld_keeps _ _).canon ((Keeps.upd_vbat s _).canon c)
  have k := (x.setFld Fld.PWR_HOLD.CVALID 1).event_keeps 0xA032 0
  have vbat : _ = (x.setFld Fld.PWR_HOLD.CVALID 1).vbat := k.same cx .vbat (by decide +kernel)
  rw [vbat, k.fld cx (by decide +kernel), State.fld_setFld _ _ _ (by decide)]
  exact ⟨rfl, rfl⟩

theorem State.formatted_valid {s : State} (c : s.canon) (header record : Option Line) : (s.formatted header record).vbat.cvalid = true ∧
    (s.formatted header record).fld Fld.PWR_HOLD.CVALID = 1 := by
  have cl := (s.loaded_keeps header record).canon c
  exact State.setValid_flag ((State.initReserve_keeps _).canon ((State.started_keeps _).canon cl))

/-- The end of the training on the way to `JOIN`. -/
theorem trainEnd_joins {s : State} (c : s.canon) (train : s.top.state = .train) (trigger : s.top.trigger = none)
    (rank : s.outranked 7 = false) (ended : s.trainingOver = true) (idle : s.pwr.part = 0)
    (trained : (s.popRanks.any fun p => (s.rank p).trained) = true) (header record : Option Line) :
    Runs s (.trainEnd header record) trainEndParts fun t => t.top = { s.top with state := .join, prev := .train, cause := 0x07 } ∧
      t.vbat.cvalid = true ∧ t.flag Fld.PWR_HOLD.CVALID = true ∧ t.fld Fld.MAP_TBLSRC.SOURCE = 1 ∧ t.map.shadowOk = true ∧
      t.cal.valid = true ∧ (t.ord.forks = [] ∧ t.ord.front = 0 ∧ t.ord.streams = [] ∧ t.ord.ptr = 0) := by
  have kl := s.loaded_keeps header record
  have cl := kl.canon c
  obtain ⟨store, shadow, source⟩ := State.loaded_spec c header record
  have kf := s.formatted_keeps header record
  have cf := kf.canon cl
  obtain ⟨cvalid, valid⟩ := State.formatted_valid c header record
  have top : (s.formatted header record).top = s.top :=
    (kf.same cl .top (by decide +kernel) : _ = (s.loaded header record).top).trans (kl.same c .top (by decide +kernel))
  have train' : (s.formatted header record).top.state = .train := by rw [top, train]
  have kg := State.goTo_join_keeps train' 0x07
  have cg := kg.canon cf
  have kw := ((s.formatted header record).goTo .join 0x07).writeNamed_keeps
  have cw := kw.canon cg
  have ks := ((s.formatted header record).goTo .join 0x07).writeNamed.settleRanks_keeps
  have kt : Keeps (.ord :: .links :: .twin :: .map :: .mir :: .sch :: .reg Reg.GLB_QUIESCE :: .reg Reg.ORD_FWD ::
      .reg Reg.ORD_LINEHOLD :: .reg Reg.ECC_SEALFAIL :: .reg Reg.ECC_FIRSTFAIL :: stateParts) (s.formatted header record)
      ((s.formatted header record).goTo .join 0x07).writeNamed.settleRanks := .after ks rfl (.after kw rfl (kg.mono rfl))
  refine ⟨_, exec_trainEnd_formats train trigger rank ended idle trained header record, ?_, ?_, ?_, ?_, ?_, ?_, ?_, ?_⟩
  · exact (Keeps.after kt rfl (.after kf rfl (kl.mono rfl)) c).2
  · rw [ks.same cw .top (by decide +kernel), kw.same cg .top (by decide +kernel), State.goTo_top cf, top, train]
  · rw [kt.same cf .vbat (by decide +kernel), cvalid]
  · rw [State.flag, kt.fld cf (by decide +kernel), valid]
    rfl
  · rw [kt.fld cf (by decide +kernel), kf.fld cl (by decide +kernel), source]
  · rw [State.settleRanks_shadowOk, kw.same cg .map (by decide +kernel), kg.same cf .map (by decide +kernel),
      kf.same cl .map (by decide +kernel), shadow]
  · rw [kt.same cf .cal (by decide +kernel), kf.same cl .cal (by decide +kernel), store]
  · obtain ⟨forks, front, streams, ptr⟩ := (State.writeNamed_mild _).order cg
    rw [ks.same cw .ord (by decide +kernel), forks, front, streams, ptr]
    exact State.goTo_join_ord cf train' 0x07

/-! ### On the way to BOOT_HOLD -/

/-- The parts that the entry to `BOOT_HOLD` may change. -/
def holdParts : List Part := .gust :: .boot :: .reg Reg.MGT_BOOTSTAT :: fallParts

theorem State.enterHold_spec {s : State} (c : s.canon) {hold : Nat} (small : hold < 16) (cause : Byte) :
    Keeps holdParts s (s.enterHold hold cause) ∧
      (s.enterHold hold cause).top = { s.top with state := .bootHold, prev := s.top.state, cause := cause } ∧
      (s.enterHold hold cause).fld Fld.MGT_BOOTSTAT.HOLD_CAUSE = hold := by
  unfold State.enterHold
  extract_lets -lift -merge -useContext -underBinder +onlyGivenNames b g x
  have kx : Keeps [.gust, .boot] s x := Keeps.via (Keeps.upd_gust_boot s _ _) rfl (Keeps.refl _ _)
  clear_value x
  have kf := x.setFld_keeps Fld.MGT_BOOTSTAT.HOLD_CAUSE hold
  have cf := kf.canon (kx.canon c)
  have ke := (x.setFld Fld.MGT_BOOTSTAT.HOLD_CAUSE hold).event_keeps 0xB006 hold
  have ce := ke.canon cf
  have kg := State.goTo_down_keeps ((x.setFld Fld.MGT_BOOTSTAT.HOLD_CAUSE hold).event 0xB006 hold) (dst := .bootHold) cause rfl
  refine ⟨.after kg rfl (.after ke rfl (.after kf rfl (kx.mono rfl))), ?_, ?_⟩
  · rw [State.goTo_top ce, ke.same cf .top (by decide +kernel), kf.same (kx.canon c) .top rfl, kx.same c .top rfl]
  · rw [kg.fld ce (by decide +kernel), ke.fld cf (by decide +kernel), State.fld_setFld _ _ _ (by decide)]
    exact Nat.mod_eq_of_lt small

/-- The end of the training with no rank trained. -/
theorem trainEnd_holds {s : State} (c : s.canon) (train : s.top.state = .train) (trigger : s.top.trigger = none)
    (rank : s.outranked 7 = false) (ended : s.trainingOver = true) (idle : s.pwr.part = 0)
    (trained : (s.popRanks.any fun p => (s.rank p).trained) = false) (header record : Option Line) :
    Runs s (.trainEnd header record) (.flt :: .cal :: holdParts) fun t => t.top =
      { s.top with state := .bootHold, prev := .train, cause := 0x08 } ∧ t.fld Fld.MGT_BOOTSTAT.HOLD_CAUSE = 4 ∧ t.cal.valid = true := by
  have run : exec (.trainEnd header record) s = .next ((s.keepStore.retireFailed false).enterHold 4 0x08) :=
    congrArg Host.Outcome.next ((if_pos (by simp [train, trigger, rank, ended, idle])).trans (if_neg (Bool.eq_false_iff.1 trained)))
  have k1 := s.keepStore_keeps
  have c1 := k1.canon c
  have k2 := s.keepStore.retireFailed_keeps false
  have c2 := k2.canon c1
  obtain ⟨k3, top, cause⟩ := State.enterHold_spec c2 (hold := 4) (by decide) 0x08
  refine ⟨_, run, (Keeps.after k3 rfl (.after k2 rfl (k1.mono rfl)) c).2, ?_, cause, ?_⟩
  · have top1 : s.keepStore.top = s.top := rfl
    rw [top, k2.same c1 .top (by decide +kernel), top1, train]
  · rw [k3.same c2 .cal (by decide +kernel), (s.keepStore.retireFailed_mild false).store c1]
    rfl

theorem exec_trainEnd_idle {s : State} (header record : Option Line)
    (h : s.top.state ≠ .train ∨ s.pwr.part ≠ 0 ∨ s.outranked 7 = true) : exec (.trainEnd header record) s = .next s :=
  congrArg Host.Outcome.next (if_neg (by rcases h with h | h | h <;> simp [h]))

end Sys2Proof.Machine
end

section
/-!
O23, TRAIN_STEP_DONE: how each step of a sub-channel's training goes on, and what it shows (R275 to R280, R302).
-/

set_option Elab.async false

namespace Sys2Proof.Machine

/-! ### A sub-channel's training -/

theorem State.training_setTraining (s : State) (n : Nat) (t : TrainRun) : (s.setTraining n t).training n = t := Tab.get_set_same _ _ _ _

theorem State.training_setTraining_other (s : State) {n m : Nat} (t : TrainRun) (h : m ≠ n) :
    (s.setTraining n t).training m = s.training m := Tab.get_set_other _ _ _ h

/-- The training of a sub-channel goes on, that of the others stands. -/
theorem State.setTraining_spec {s x : State} (h : x.cal.train = s.cal.train) (n : Nat) (t : TrainRun) :
    (x.setTraining n t).training n = t ∧ ∀ m ∈ List.range 16, m ≠ n → (x.setTraining n t).training m = s.training m :=
  ⟨x.training_setTraining n t, fun m _ hm => by
    rw [x.training_setTraining_other t hm, State.training, h, State.training]⟩

/-! ### The registers that show it (R289) -/

theorem stepFld_addr (n k : Nat) : (stepFld n k).addr = 0x060000 + 0x1000 * (n % 16) := by
  unfold stepFld
  split <;> rfl

theorem stepFld_hi (n k : Nat) : (stepFld n k).hi < 32 ∧ (stepFld n k).hi + 1 - (stepFld n k).lo = 4 := by
  unfold stepFld
  split <;> exact ⟨Nat.le_of_ble_eq_true rfl, rfl⟩

theorem resultFld_hi (n k : Nat) : (resultFld n k).hi < 32 ∧ (resultFld n k).hi + 1 - (resultFld n k).lo = 4 := by
  unfold resultFld
  split <;> exact ⟨Nat.le_of_ble_eq_true rfl, rfl⟩

theorem State.fld_setFld_step (s : State) (n k : Nat) {v : Nat} (h : v < 16) : (s.setFld (stepFld n k) v).fld (stepFld n k) = v := by
  obtain ⟨hi, width⟩ := stepFld_hi n k
  rw [State.fld_setFld _ _ _ hi, width]
  exact Nat.mod_eq_of_lt h

/-- Of the two ranks' fields a write takes its own. -/
theorem State.fld_setFld_step_either (s : State) (n j k : Nat) {v : Nat} (h : v < 16) :
    (s.setFld (stepFld n j) v).fld (stepFld n k) = v ∨ (s.setFld (stepFld n j) v).fld (stepFld n k) = s.fld (stepFld n k) := by
  by_cases e : stepFld n j = stepFld n k
  · rw [e]
    exact Or.inl (s.fld_setFld_step n k h)
  · refine Or.inr (State.fld_setFld_disjoint s v ((stepFld_addr n k).trans (stepFld_addr n j).symm) ?_)
    unfold stepFld at e ⊢
    split <;> split <;> simp_all

theorem State.stepAll_train (s : State) (n v : Nat) : (s.stepAll n v).cal = s.cal := by
  have step : ∀ (l : List Nat) (s : State), (foldS l (fun s k => s.setFld (stepFld n k) v) s).cal = s.cal := by
    intro l
    induction l with
    | nil => exact fun _ => rfl
    | cons k l ih => exact fun s => ih _
  exact step _ s

theorem State.stepAll_fld_other (s : State) {n : Nat} (v : Nat) {f : Fld} (h : f.addr ≠ 0x060000 + 0x1000 * (n % 16)) :
    (s.stepAll n v).fld f = s.fld f := by
  have step : ∀ (l : List Nat) (s : State), (foldS l (fun s k => s.setFld (stepFld n k) v) s).fld f = s.fld f := by
    intro l
    induction l with
    | nil => exact fun _ => rfl
    | cons k l ih => exact fun s => (ih _).trans (State.fld_setFld_other s v (by rw [stepFld_addr]; exact h))
  exact step _ s

/-- The step is shown for every rank. -/
theorem State.stepAll_fld (s : State) (n : Nat) {v : Nat} (h : v < 16) {k : Nat} (hk : k ∈ s.ranksOf) :
    (s.stepAll n v).fld (stepFld n k) = v := by
  have stays : ∀ (l : List Nat) (s : State), s.fld (stepFld n k) = v →
      (foldS l (fun s k => s.setFld (stepFld n k) v) s).fld (stepFld n k) = v := by
    intro l
    induction l with
    | nil => exact fun _ e => e
    | cons j l ih => exact fun s e => ih _ ((s.fld_setFld_step_either n j k h).elim id fun x => x.trans e)
  have step : ∀ (l : List Nat) (s : State), k ∈ l → (foldS l (fun s k => s.setFld (stepFld n k) v) s).fld (stepFld n k) = v := by
    intro l
    induction l with
    | nil => exact fun _ m => nomatch m
    | cons j l ih =>
      intro s m
      rcases List.mem_cons.1 m with rfl | m
      · exact stays l _ (s.fld_setFld_step n k h)
      · exact ih _ m
  exact step _ s hk

theorem State.setFld_step_keeps (s : State) (n k v : Nat) : Keeps [.block 0x6] s (s.setFld (stepFld n k) v) :=
  Keeps.viaBlock (b := 0x6) (s.setFld_keeps _ _) (by rw [stepFld_addr, Nat.shiftRight_eq_div_pow]; omega) rfl (Keeps.refl _ _)

/-! ### The steps of a sub-channel (T1 to T3) -/

theorem State.releaseReset_sees (s : State) (n : Nat) : (s.releaseReset n).cal = s.cal ∧ (s.releaseReset n).regs = s.regs := by
  unfold State.releaseReset
  extract_lets m
  split <;> exact ⟨rfl, rfl⟩

/-- A finding of a step that runs rank by rank. -/
theorem exec_trainStepDone_rank {s : State} {sc : Fin 16} {rank : Fin 2} (trigger : s.top.trigger = none)
    (step : 5 ≤ (s.training sc.val).step) (current : rank.val = (s.training sc.val).rank) (found : TrainFind) :
    exec (.trainStepDone sc rank found) s = .next (s.rankStep sc.val found) := by
  refine congrArg Host.Outcome.next ?_
  dsimp only
  rw [if_neg (by simp [trigger])]
  split
  case h_6 => exact if_pos current
  all_goals
    next h => exact absurd step (by rw [h]; decide)

/-- Step T1 ends with the delay line locked. -/
theorem trainStepDone_locked {s : State} (c : s.canon) (sc : Fin 16) (rank : Fin 2) (trigger : s.top.trigger = none)
    (step : (s.training sc.val).step = 1) (locked : s.flag (Fld.CLK_DLL.LOCKED sc.val) = true) :
    Runs s (.trainStepDone sc rank .ck) [.sch, .cal, .block 0x6] fun t =>
      t.training sc.val = { s.training sc.val with step := 2, tries := 0 } ∧ (∀ k ∈ s.ranksOf, t.fld (stepFld sc.val k) = 1) ∧
        ∀ m ∈ List.range 16, m ≠ sc.val → t.training m = s.training m := by
  have seen : (s.stepAll sc.val 1).flag (Fld.CLK_DLL.LOCKED sc.val) = true := by
    rw [State.flag, State.stepAll_fld_other s 1 (f := Fld.CLK_DLL.LOCKED sc.val) (by
      show 0x090040 + 0x4 * (sc.val % 16) ≠ _
      omega)]
    exact locked
  have run : exec (.trainStepDone sc rank .ck) s =
      .next (((s.stepAll sc.val 1).setTraining sc.val { s.training sc.val with step := 2, tries := 0 }).releaseReset sc.val) := by
    refine congrArg Host.Outcome.next ?_
    dsimp only
    rw [if_neg (by simp [trigger]), step]
    exact if_pos seen
  obtain ⟨cal, regs⟩ := State.releaseReset_sees ((s.stepAll sc.val 1).setTraining sc.val { s.training sc.val with step := 2, tries := 0 }) sc.val
  obtain ⟨own, others⟩ := State.setTraining_spec (s := s) (x := s.stepAll sc.val 1) (by rw [State.stepAll_train]) sc.val
    { s.training sc.val with step := 2, tries := 0 }
  refine ⟨_, run, ?_, ?_, fun k hk => ?_, fun m hm ne => ?_⟩
  · exact (Keeps.after (State.releaseReset_keeps _ _) rfl (.after (State.setTraining_keeps _ _ _) rfl ((s.stepAll_keeps _ _).mono rfl)) c).2
  · rw [State.training, cal]
    exact own
  · rw [State.fld, State.reg, regs]
    exact s.stepAll_fld sc.val (by decide) hk
  · rw [State.training, cal]
    exact others m hm ne

/-- The number of retries stands whatever step is shown. -/
theorem retries_apart (n : Nat) : Fld.DPH_TRAINCFG.RETRIES.addr ≠ 0x060000 + 0x1000 * (n % 16) := by
  show 0x060F00 ≠ _
  omega

/-- Step T1 is tried again. -/
theorem trainStepDone_unlocked {s : State} (c : s.canon) (sc : Fin 16) (rank : Fin 2) (trigger : s.top.trigger = none)
    (step : (s.training sc.val).step = 1) (unlocked : s.flag (Fld.CLK_DLL.LOCKED sc.val) = false)
    (left : (s.training sc.val).tries < s.fld Fld.DPH_TRAINCFG.RETRIES) :
    Runs s (.trainStepDone sc rank .ck) [.cal, .block 0x6] fun t =>
      t.training sc.val = { s.training sc.val with tries := (s.training sc.val).tries + 1 } ∧
        ∀ m ∈ List.range 16, m ≠ sc.val → t.training m = s.training m := by
  have seen : (s.stepAll sc.val 1).flag (Fld.CLK_DLL.LOCKED sc.val) = false := by
    rw [State.flag, State.stepAll_fld_other s 1 (f := Fld.CLK_DLL.LOCKED sc.val) (by
      show 0x090040 + 0x4 * (sc.val % 16) ≠ _
      omega)]
    exact unlocked
  have more : (s.training sc.val).tries < (s.stepAll sc.val 1).fld Fld.DPH_TRAINCFG.RETRIES := by
    rw [State.stepAll_fld_other s 1 (retries_apart sc.val)]
    exact left
  have run : exec (.trainStepDone sc rank .ck) s =
      .next ((s.stepAll sc.val 1).setTraining sc.val { s.training sc.val with tries := (s.training sc.val).tries + 1 }) := by
    refine congrArg Host.Outcome.next ?_
    dsimp only
    rw [if_neg (by simp [trigger])]
    generalize hx : s.training sc.val = x at step more ⊢
    rw [step]
    exact (if_neg (Bool.eq_false_iff.1 seen)).trans (if_pos more)
  exact ⟨_, run, (Keeps.after (State.setTraining_keeps _ _ _) rfl ((s.stepAll_keeps _ _).mono rfl) c).2,
    State.setTraining_spec (by rw [State.stepAll_train]) _ _⟩

/-- Step T2 ends: the devices hold the settings of the set in force. -/
theorem trainStepDone_settings {s : State} (c : s.canon) (sc : Fin 16) (rank : Fin 2) (trigger : s.top.trigger = none)
    (step : (s.training sc.val).step = 2) :
    Runs s (.trainStepDone sc rank .settings) [.sch, .cal, .block 0x6] fun t =>
      t.training sc.val = { s.training sc.val with step := 3, rank := 0 } ∧ (∀ k ∈ s.ranksOf, t.fld (stepFld sc.val k) = 2) ∧
        (t.sub sc.val).pins.settings = some s.liveSet ∧ ∀ m ∈ List.range 16, m ≠ sc.val → t.training m = s.training m := by
  have run : exec (.trainStepDone sc rank .settings) s = .next (((s.stepAll sc.val 2).writeSettings sc.val s.liveSet).setTraining sc.val
      { s.training sc.val with step := 3, rank := 0 }) := by
    refine congrArg Host.Outcome.next ?_
    dsimp only
    rw [if_neg (by simp [trigger])]
    generalize hx : s.training sc.val = x at step ⊢
    rw [step]
    rfl
  have train : ((s.stepAll sc.val 2).writeSettings sc.val s.liveSet).cal.train = s.cal.train :=
    congrArg CalSt.train (s.stepAll_train sc.val 2)
  obtain ⟨own, others⟩ := State.setTraining_spec train sc.val { s.training sc.val with step := 3, rank := 0 }
  have settings : (((s.stepAll sc.val 2).writeSettings sc.val s.liveSet).sub sc.val).pins.settings = some s.liveSet := by
    rw [State.writeSettings, State.onSub, State.sub_setSub]
  refine ⟨_, run, ?_, own, fun k hk => s.stepAll_fld sc.val (by decide) hk, settings, others⟩
  exact (Keeps.after (State.setTraining_keeps _ _ _) rfl (.after (State.writeSettings_keeps _ _ _) rfl
    ((s.stepAll_keeps _ _).mono rfl)) c).2

/-! ### The geometry of a rank (T3) -/

theorem badFld_spec (n k : Nat) : (badFld n k).addr = 0x060004 + 0x1000 * (n % 16) ∧ (badFld n k).hi < 32 ∧ 9 < (badFld n k).lo := by
  unfold badFld
  split <;> exact ⟨rfl, Nat.le_of_ble_eq_true rfl, Nat.le_of_ble_eq_true rfl⟩

/-- A rank that passes the geometry check: no package is bad, and step T3 is shown. -/
def State.geometryShown (s : State) (n k : Nat) : State := (s.setFld (badFld n k) 0).setFld (stepFld n k) 3

/-- Where no package is bad, the rank passes; of rank 0 the density and the stack are shown beside. -/
theorem State.checkGeometry_good {s : State} (n k : Nat) {pk : List (Option Device)} (good : s.badPackages pk = []) :
    s.checkGeometry n k pk = s.geometryShown n k ∨
      ∃ a b, s.checkGeometry n k pk = ((s.geometryShown n k).setFld (Fld.DPH_DEVSEEN.DENSITY n) a).setFld (Fld.DPH_DEVSEEN.STACK n) b := by
  unfold State.checkGeometry
  rw [good]
  by_cases h : k = 0
  · refine Or.inr ?_
    cases pk.getD 0 none with
    | some d => exact ⟨d.density.toNat, d.stack.toNat, (if_pos rfl).trans (if_pos h)⟩
    | none => exact ⟨0, 0, (if_pos rfl).trans (if_pos h)⟩
  · exact Or.inl ((if_pos rfl).trans (if_neg h))

theorem State.geometryShown_spec (s : State) (n k : Nat) :
    (s.geometryShown n k).fld (badFld n k) = 0 ∧ (s.geometryShown n k).fld (stepFld n k) = 3 := by
  obtain ⟨addr, hi, -⟩ := badFld_spec n k
  refine ⟨?_, State.fld_setFld_step _ n k (by decide)⟩
  rw [State.geometryShown, State.fld_setFld_other _ _ (by rw [addr, stepFld_addr]; omega), State.fld_setFld _ _ _ hi, Nat.zero_mod]

theorem State.geometryShown_keeps (s : State) (n k : Nat) : Keeps [.block 0x6] s (s.geometryShown n k) := by
  obtain ⟨addr, -, -⟩ := badFld_spec n k
  refine .after (State.setFld_step_keeps _ _ _ _) rfl ?_
  exact Keeps.viaBlock (b := 0x6) (s.setFld_keeps _ _) (by rw [addr, Nat.shiftRight_eq_div_pow]; omega) rfl (Keeps.refl _ _)

/-- What a rank that passes shows, and all that changes. -/
theorem State.checkGeometry_spec {s : State} (n k : Nat) {pk : List (Option Device)} (good : s.badPackages pk = []) :
    (s.checkGeometry n k pk).cal = s.cal ∧ (s.checkGeometry n k pk).fld (badFld n k) = 0 ∧
      (s.checkGeometry n k pk).fld (stepFld n k) = 3 ∧ Keeps [.block 0x6] s (s.checkGeometry n k pk) := by
  obtain ⟨bad, step⟩ := s.geometryShown_spec n k
  have kx := s.geometryShown_keeps n k
  rcases State.checkGeometry_good n k good with e | ⟨a, b, e⟩
  · rw [e]
    exact ⟨rfl, bad, step, kx⟩
  · obtain ⟨addr, -, lo⟩ := badFld_spec n k
    have block : (0x060004 + 0x1000 * (n % 16)) >>> 16 = 0x6 := by
      rw [Nat.shiftRight_eq_div_pow]
      omega
    rw [e]
    refine ⟨rfl, ?_, ?_, ?_⟩
    · rw [State.fld_setFld_disjoint _ _ addr (Or.inr (Nat.lt_trans (Nat.le_of_ble_eq_true rfl : 7 < 9) lo)),
        State.fld_setFld_disjoint _ _ addr (Or.inr lo), bad]
    · rw [State.fld_setFld_other _ _ (by rw [stepFld_addr]; show _ ≠ 0x060004 + 0x1000 * (n % 16); omega),
        State.fld_setFld_other _ _ (by rw [stepFld_addr]; show _ ≠ 0x060004 + 0x1000 * (n % 16); omega), step]
    · exact Keeps.viaBlock (b := 0x6) (State.setFld_keeps _ _ _) block rfl (Keeps.viaBlock (b := 0x6) (State.setFld_keeps _ _ _) block rfl kx)

/-- Step T3 of a rank ends well and another rank follows. -/
theorem trainStepDone_devices {s : State} (c : s.canon) (sc : Fin 16) (rank : Fin 2) {pk : List (Option Device)} (trigger : s.top.trigger = none)
    (step : (s.training sc.val).step = 3) (current : rank.val = (s.training sc.val).rank) (good : s.badPackages pk = [])
    (next : s.ranksOf.contains (rank.val + 1) = true) :
    Runs s (.trainStepDone sc rank (.devices pk)) [.cal, .block 0x6] fun t =>
      t.training sc.val = { s.training sc.val with rank := rank.val + 1 } ∧ t.fld (badFld sc.val rank.val) = 0 ∧
        t.fld (stepFld sc.val rank.val) = 3 ∧ ∀ m ∈ List.range 16, m ≠ sc.val → t.training m = s.training m := by
  obtain ⟨cal, bad, shown, k⟩ := State.checkGeometry_spec sc.val rank.val good
  have ranks : (s.checkGeometry sc.val rank.val pk).ranksOf = s.ranksOf := by
    show List.range (2 ^ State.fld _ Fld.MAP_GEOM.RANK_BITS) = List.range (2 ^ s.fld Fld.MAP_GEOM.RANK_BITS)
    rw [k.fld c (by decide +kernel)]
  have run : exec (.trainStepDone sc rank (.devices pk)) s =
      .next ((s.checkGeometry sc.val rank.val pk).setTraining sc.val { s.training sc.val with rank := rank.val + 1 }) := by
    refine congrArg Host.Outcome.next ?_
    dsimp only
    rw [if_neg (by simp [trigger]), ← current]
    generalize hx : s.training sc.val = x at step ⊢
    rw [step]
    refine (if_pos rfl).trans (if_pos ?_)
    rw [ranks]
    exact next
  obtain ⟨own, others⟩ := State.setTraining_spec (congrArg CalSt.train cal) sc.val { s.training sc.val with rank := rank.val + 1 }
  exact ⟨_, run, (Keeps.after (State.setTraining_keeps _ _ _) rfl (k.mono rfl) c).2, own, bad, shown, others⟩

/-! ### The steps of a rank (T5 to T8) -/

/-- A step that ends well shows itself and goes on to the next. -/
theorem trainStepDone_passes {s : State} (c : s.canon) {sc : Fin 16} {rank : Fin 2} {found : TrainFind} {k : Nat} {r : List Byte}
    (trigger : s.top.trigger = none) (step : (s.training sc.val).step = k) (low : 5 ≤ k) (high : k < 16)
    (current : rank.val = (s.training sc.val).rank)
    (passes : s.rankStep sc.val found = (s.setFld (stepFld sc.val rank.val) k).stepPasses sc.val r) :
    Runs s (.trainStepDone sc rank found) [.cal, .block 0x6] fun t =>
      ((t.training sc.val).step = k + 1 ∧ (t.training sc.val).tries = 0 ∧ (t.training sc.val).rank = rank.val) ∧
        t.fld (stepFld sc.val rank.val) = k ∧ ∀ m ∈ List.range 16, m ≠ sc.val → t.training m = s.training m := by
  have run := exec_trainStepDone_rank trigger (by rw [step]; exact low) current found
  rw [passes] at run
  obtain ⟨own, others⟩ := State.setTraining_spec (s := s) (x := s.setFld (stepFld sc.val rank.val) k) rfl sc.val
    { s.training sc.val with step := (s.training sc.val).step + 1, tries := 0, record := r }
  refine ⟨_, run, (Keeps.after (State.setTraining_keeps _ _ _) rfl ((s.setFld_step_keeps _ _ _).mono rfl) c).2, ?_,
    s.fld_setFld_step _ _ high, others⟩
  refine ⟨?_, ?_, ?_⟩
  · rw [← step]
    exact congrArg TrainRun.step own
  · exact congrArg TrainRun.tries own
  · exact (congrArg TrainRun.rank own).trans current.symm

/-- A step that finds nothing shows itself and is tried again while retries are left. -/
theorem trainStepDone_retries {s : State} (c : s.canon) {sc : Fin 16} {rank : Fin 2} {found : TrainFind} {k : Nat}
    (trigger : s.top.trigger = none) (step : (s.training sc.val).step = k) (low : 5 ≤ k) (high : k < 16)
    (current : rank.val = (s.training sc.val).rank) (left : (s.training sc.val).tries < s.fld Fld.DPH_TRAINCFG.RETRIES)
    (fails : s.rankStep sc.val found = (s.setFld (stepFld sc.val rank.val) k).stepFails sc.val) :
    Runs s (.trainStepDone sc rank found) [.cal, .block 0x6] fun t =>
      t.training sc.val = { s.training sc.val with tries := (s.training sc.val).tries + 1 } ∧ t.fld (stepFld sc.val rank.val) = k ∧
        ∀ m ∈ List.range 16, m ≠ sc.val → t.training m = s.training m := by
  have more : (s.training sc.val).tries < (s.setFld (stepFld sc.val rank.val) k).fld Fld.DPH_TRAINCFG.RETRIES := by
    rw [State.fld_setFld_other _ _ (by rw [stepFld_addr]; exact retries_apart _)]
    exact left
  have run := exec_trainStepDone_rank trigger (by rw [step]; exact low) current found
  rw [fails, State.stepFails] at run
  obtain ⟨own, others⟩ := State.setTraining_spec (s := s) (x := s.setFld (stepFld sc.val rank.val) k) rfl sc.val
    { s.training sc.val with tries := (s.training sc.val).tries + 1 }
  refine ⟨_, run.trans (congrArg Host.Outcome.next (if_pos more)), ?_, own, s.fld_setFld_step _ _ high, others⟩
  exact (Keeps.after (State.setTraining_keeps _ _ _) rfl ((s.setFld_step_keeps _ _ _).mono rfl) c).2

theorem State.rankStep_caCs {s : State} {n : Nat} (step : (s.training n).step = 5) (ca cs vref : List Byte) :
    ∃ r, s.rankStep n (.caCs (some (ca, cs, vref))) = (s.setFld (stepFld n (s.training n).rank) 5).stepPasses n r := by
  unfold State.rankStep
  dsimp only
  rw [step]
  exact ⟨_, rfl⟩

theorem State.rankStep_level {s : State} {n : Nat} (step : (s.training n).step = 6) (dqs : List (BitVec 11)) :
    ∃ r, s.rankStep n (.level (some dqs)) = (s.setFld (stepFld n (s.training n).rank) 6).stepPasses n r := by
  unfold State.rankStep
  dsimp only
  rw [step]
  exact ⟨_, rfl⟩

/-- A step that found nothing. -/
theorem State.rankStep_none {s : State} {n k : Nat} {found : TrainFind} (step : (s.training n).step = k)
    (h : k = 5 ∧ found = .caCs none ∨ k = 6 ∧ found = .level none ∨ k = 7 ∧ found = .readSweep none ∨
      k = 8 ∧ found = .writeSweep none) :
    s.rankStep n found = (s.setFld (stepFld n (s.training n).rank) k).stepFails n := by
  unfold State.rankStep
  dsimp only
  rw [step]
  rcases h with ⟨rfl, rfl⟩ | ⟨rfl, rfl⟩ | ⟨rfl, rfl⟩ | ⟨rfl, rfl⟩ <;> rfl

/-! ### The check of a re-admission (T9) -/

theorem resultFld_addr (n k : Nat) : (resultFld n k).addr = 0x060000 + 0x1000 * (n % 16) := by
  unfold resultFld
  split <;> rfl

theorem State.setLive_sees (s : State) (p : Nat) (r : List Byte) : (s.setLive p r).cal.train = s.cal.train ∧ (s.setLive p r).regs = s.regs :=
  ⟨rfl, rfl⟩

theorem State.share_sees (s : State) (p : Nat) : (s.share p).cal.train = s.cal.train ∧ (s.share p).regs = s.regs := by
  unfold State.share
  extract_lets -lift -merge -useContext -underBinder +onlyGivenNames q
  split
  · exact ⟨rfl, rfl⟩
  · have first := s.setLive_sees p (s.withSamplers p (s.live p))
    generalize s.setLive p (s.withSamplers p (s.live p)) = x at first
    dsimp only
    split
    · exact first
    · obtain ⟨train, regs⟩ := x.setLive_sees q (x.withSamplers q (shareFields (x.live p) (x.live q)))
      exact ⟨train.trans first.1, regs.trans first.2⟩

/-- A rank's figures are those of its record, and its result is trained (R280). -/
def State.rankResult (s : State) (n k : Nat) (r : List Byte) : State :=
  ({ s with cal := { s.cal with
      figures := Tab.set (fun _ => []) s.cal.figures (2 * n + k) r,
      held := s.cal.held.filter fun q => q.1 / 40 != 2 * n + k,
      rejects := s.cal.rejects.filter fun q => q.1 / 10 != 2 * n + k } }).setFld (resultFld n k) 1

/-- A rank trained in a re-admission waits at step 11. -/
theorem State.rankDone_readmit {s : State} {n : Nat} (k : Nat) (r : List Byte) (readmit : (s.training n).readmit = true) :
    s.rankDone n k r = (s.rankResult n k r).setTraining n { s.training n with step := 11 } := if_pos readmit

theorem State.rankResult_keeps (s : State) (n k : Nat) (r : List Byte) : Keeps [.cal, .block 0x6] s (s.rankResult n k r) := by
  refine Keeps.viaBlock (b := 0x6) (State.setFld_keeps _ _ _) ?_ rfl ((Keeps.upd_cal s _).mono rfl)
  rw [resultFld_addr, Nat.shiftRight_eq_div_pow]
  omega

theorem State.rankResult_fld (s : State) (n k : Nat) (r : List Byte) : (s.rankResult n k r).fld (resultFld n k) = 1 := by
  obtain ⟨hi, width⟩ := resultFld_hi n k
  rw [State.rankResult, State.fld_setFld _ _ _ hi, width]
  rfl

theorem State.rankResult_fld_other (s : State) {n : Nat} (k : Nat) (r : List Byte) {f : Fld} (h : f.addr ≠ 0x060000 + 0x1000 * (n % 16)) :
    (s.rankResult n k r).fld f = s.fld f := by
  rw [State.rankResult, State.fld_setFld_other _ _ (by rw [resultFld_addr]; exact h)]
  rfl

/-- The record of a swept rank is in force, and `LAST` takes the temperature (R281, R302). -/
def State.sweptRecord (s : State) (n k : Nat) (r : List Byte) : State :=
  let s' := ((s.setLive (2 * n + k) r).share (2 * n + k)).setFld (Fld.CAL_TEMP.LAST n) (s.fld (Fld.CAL_TEMP.NOW n))
  { s' with cal := { s'.cal with temps := Tab.set (fun _ => 0) s'.cal.temps n (BitVec.ofNat 8 (s.fld (Fld.CAL_TEMP.NOW n))) } }

theorem State.rankTrained_eq (s : State) (n k : Nat) (r : List Byte) :
    ∃ r', s.rankTrained n k r = (s.sweptRecord n k r').rankDone n k r' := ⟨_, rfl⟩

theorem State.sweptRecord_spec (s : State) (n k : Nat) (r : List Byte) : (s.sweptRecord n k r).cal.train = s.cal.train ∧
    (s.sweptRecord n k r).fld (Fld.CAL_TEMP.LAST n) = s.fld (Fld.CAL_TEMP.NOW n) ∧
      Keeps [.cal, .block 0x7] s (s.sweptRecord n k r) := by
  have ks := (s.setLive_keeps (2 * n + k) r).trans ((s.setLive (2 * n + k) r).share_keeps (2 * n + k))
  obtain ⟨train, -⟩ := (s.setLive (2 * n + k) r).share_sees (2 * n + k)
  replace train := train.trans (s.setLive_sees _ _).1
  unfold State.sweptRecord
  generalize (s.setLive (2 * n + k) r).share (2 * n + k) = x at ks train ⊢
  refine ⟨train, ?_, ?_⟩
  · have last := State.fld_setFld x (Fld.CAL_TEMP.LAST n) (s.fld (Fld.CAL_TEMP.NOW n)) (Nat.le_of_ble_eq_true rfl)
    exact last.trans (Nat.mod_eq_of_lt (Nat.mod_lt _ (Nat.two_pow_pos _)))
  · refine .after (Keeps.upd_cal _ _) rfl (Keeps.viaBlock (b := 0x7) (x.setFld_keeps _ _) ?_ rfl (ks.mono rfl))
    show (0x070040 + 0x4 * (n % 16)) >>> 16 = 0x7
    rw [Nat.shiftRight_eq_div_pow]
    omega

/-- What the check of T9 leaves before the rank is trained: the step shown and the free values taken. -/
def State.checked (s : State) (n : Nat) : State :=
  { s.setFld (stepFld n (s.training n).rank) 9 with free := s.free + 80 }

theorem State.scratchOk_shown (s : State) (n k v : Nat) (r : List Byte) (f : ScratchCheck) :
    (s.setFld (stepFld n k) v).scratchOk r f = s.scratchOk r f := by
  have dies : (s.setFld (stepFld n k) v).geom.dBits = s.geom.dBits := State.fld_setFld_other s v (by
    rw [stepFld_addr]
    show 0x030040 ≠ _
    omega)
  rw [State.scratchOk, dies, State.scratchOk]

theorem State.rankStep_check {s : State} {n : Nat} {f : ScratchCheck} (step : (s.training n).step = 9)
    (ok : s.scratchOk (s.training n).record f = true) (alerted : f.alerted = true) :
    ∃ r, s.rankStep n (.check f) = (s.checked n).rankTrained n (s.training n).rank r := by
  have ok' := (s.scratchOk_shown n (s.training n).rank 9 (s.training n).record f).trans ok
  unfold State.rankStep State.checked
  generalize s.training n = x at step ok' ⊢
  dsimp only
  rw [step]
  exact ⟨_, (if_neg (by simp [ok'])).trans (if_neg (by simp [alerted]))⟩

theorem State.checked_keeps (s : State) (n : Nat) : Keeps [.free, .block 0x6] s (s.checked n) :=
  .after (Keeps.upd_free _ _) rfl ((s.setFld_step_keeps n _ 9).mono rfl)

/-- The check of a re-admission passes. -/
theorem trainStepDone_readmitted {s : State} (c : s.canon) (sc : Fin 16) (rank : Fin 2) {f : ScratchCheck} (trigger : s.top.trigger = none)
    (step : (s.training sc.val).step = 9) (current : rank.val = (s.training sc.val).rank)
    (ok : s.scratchOk (s.training sc.val).record f = true) (alerted : f.alerted = true) (readmit : (s.training sc.val).readmit = true) :
    Runs s (.trainStepDone sc rank (.check f)) [.free, .cal, .block 0x6, .block 0x7] fun t => (t.training sc.val).step = 11 ∧
      t.fld (resultFld sc.val rank.val) = 1 ∧ t.fld (Fld.CAL_TEMP.LAST sc.val) = s.fld (Fld.CAL_TEMP.NOW sc.val) ∧
        ∀ m ∈ List.range 16, m ≠ sc.val → t.training m = s.training m := by
  obtain ⟨r, trained⟩ := State.rankStep_check step ok alerted
  obtain ⟨r', done⟩ := (s.checked sc.val).rankTrained_eq sc.val (s.training sc.val).rank r
  have run := exec_trainStepDone_rank trigger (by rw [step]; decide) current (.check f)
  obtain ⟨train, last, kw⟩ := (s.checked sc.val).sweptRecord_spec sc.val (s.training sc.val).rank r'
  have kc := s.checked_keeps sc.val
  have now : (s.checked sc.val).fld (Fld.CAL_TEMP.NOW sc.val) = s.fld (Fld.CAL_TEMP.NOW sc.val) :=
    State.fld_setFld_other s 9 (by
      rw [stepFld_addr]
      show 0x070040 + 0x4 * (sc.val % 16) ≠ _
      omega)
  replace train : ((s.checked sc.val).sweptRecord sc.val (s.training sc.val).rank r').cal.train = s.cal.train := train
  rw [trained, done, ← current] at run
  rw [← current] at train last kw
  have kr := ((s.checked sc.val).sweptRecord sc.val rank.val r').rankResult_keeps sc.val rank.val r'
  generalize hx : (s.checked sc.val).sweptRecord sc.val rank.val r' = x at run train last kw kr
  have again : (x.training sc.val).readmit = true := by
    rw [State.training, train]
    exact readmit
  rw [State.rankDone_readmit _ _ again] at run
  obtain ⟨own, others⟩ := State.setTraining_spec (s := s) (x := x.rankResult sc.val rank.val r') train sc.val
    { x.training sc.val with step := 11 }
  refine ⟨_, run, ?_, ?_, ?_, ?_, others⟩
  · exact (Keeps.after (State.setTraining_keeps _ _ _) rfl (.after kr rfl (.after kw rfl (kc.mono rfl))) c).2
  · exact congrArg TrainRun.step own
  · exact x.rankResult_fld sc.val rank.val r'
  · refine (x.rankResult_fld_other rank.val r' (f := Fld.CAL_TEMP.LAST sc.val) ?_).trans (last.trans now)
    show 0x070040 + 0x4 * (sc.val % 16) ≠ _
    omega

end Sys2Proof.Machine
end

section
/-!
O23: training, its end, and the settling of the pair state, put together.
-/

set_option Elab.async false

namespace Sys2Proof.Machine

/-- Settles O23, clause by clause of its statement. -/
theorem trainingRuns : Obligations.TrainingRuns := by
  unfold Obligations.TrainingRuns
  intro s c
  refine ⟨?locked, ?unlocked, ?settings, ?devices, ?caCs, ?level, ?noCaCs, ?noLevel, ?noRead, ?noWrite, ?readmitted, ?joins, ?notEnd, ?holds,
    ?serves, ?notSettled, ?stays, ?settled, ?waits, ?fenced, ?records, ?notUnsettled⟩
  case locked =>
    rintro sc rank found trigger step rfl locked
    exact trainStepDone_locked c sc rank trigger step locked
  case unlocked =>
    rintro sc rank found trigger step rfl unlocked left
    exact trainStepDone_unlocked c sc rank trigger step unlocked left
  case settings =>
    rintro sc rank found trigger step rfl
    exact trainStepDone_settings c sc rank trigger step
  case devices =>
    rintro sc rank found pk trigger step current rfl good next
    exact trainStepDone_devices c sc rank trigger step current good next
  case caCs =>
    rintro sc rank found ca cs vref trigger step current rfl
    obtain ⟨r, passes⟩ := State.rankStep_caCs step ca cs vref
    exact trainStepDone_passes c trigger step (by decide) (by decide) current (by rw [current]; exact passes)
  case level =>
    rintro sc rank found dqs trigger step current rfl
    obtain ⟨r, passes⟩ := State.rankStep_level step dqs
    exact trainStepDone_passes c trigger step (by decide) (by decide) current (by rw [current]; exact passes)
  case noCaCs =>
    intro sc rank found trigger step current e left
    exact trainStepDone_retries c trigger step (by decide) (by decide) current left
      (by rw [current]; exact State.rankStep_none step (Or.inl ⟨rfl, e⟩))
  case noLevel =>
    intro sc rank found trigger step current e left
    exact trainStepDone_retries c trigger step (by decide) (by decide) current left
      (by rw [current]; exact State.rankStep_none step (Or.inr (Or.inl ⟨rfl, e⟩)))
  case noRead =>
    intro sc rank found trigger step current e left
    exact trainStepDone_retries c trigger step (by decide) (by decide) current left
      (by rw [current]; exact State.rankStep_none step (Or.inr (Or.inr (Or.inl ⟨rfl, e⟩))))
  case noWrite =>
    intro sc rank found trigger step current e left
    exact trainStepDone_retries c trigger step (by decide) (by decide) current left
      (by rw [current]; exact State.rankStep_none step (Or.inr (Or.inr (Or.inr ⟨rfl, e⟩))))
  case readmitted =>
    rintro sc rank found f trigger step current rfl ok alerted readmit
    exact trainStepDone_readmitted c sc rank trigger step current ok alerted readmit
  case joins =>
    intro header record train trigger rank ended idle trained
    exact trainEnd_joins c train trigger rank ended idle trained header record
  case notEnd => exact fun header record h => exec_trainEnd_idle header record h
  case holds =>
    intro header record train trigger rank ended idle trained
    exact trainEnd_holds c train trigger rank ended idle trained header record
  case serves =>
    intro join fresh grant trigger linked up rank peer epoch recorded reports marks
    exact pairSettle_serves c ⟨join, fresh, grant, trigger⟩ ⟨peer, epoch, recorded, reports, marks⟩ linked up rank
  case notSettled => exact exec_pairSettle_idle
  case stays =>
    intro join fresh grant trigger linked _ peer epoch recorded reports marks
    exact pairSettle_stays c ⟨join, fresh, grant, trigger⟩ ⟨peer, epoch, recorded, reports, marks⟩ linked
  case settled => exact fun join settled trigger linked twin rank => settled_serves c join settled trigger linked twin rank
  case waits => exact fun join settled trigger h => settled_waits join settled trigger h
  case fenced =>
    intro join fresh grant trigger recorded peer
    exact pairSettle_fenced c ⟨join, fresh, grant, trigger⟩ recorded peer
  case records => exact fun join fresh => joinUnsettledTimeout_records c join fresh
  case notUnsettled => exact exec_joinUnsettledTimeout_idle

end Sys2Proof.Machine
end

section
/-!
The queue of commands: a step runs the command at its front.
-/

set_option Elab.async false

namespace Sys2Proof.Machine

/-- With a command at the front of its queue a step runs that command with the rest of the queue left. -/
theorem step_pending {s : State} {c : Instr} {r : List Instr} (h : s.pending = c :: r) :
    step s = exec c { s with pending := r } := by
  unfold step
  rw [h]

/-- No command changes the queue. -/
theorem exec_pending {c : Instr} {s t : State} (canon : s.canon) (run : exec c s = .next t) : t.pending = s.pending :=
  (exec_keepsOut c s t run canon).2 .pending (mayChange_leaves_pending c)

/-- Settles O1: the queue is looked at first. -/
theorem stepRunsFront : Obligations.StepRunsFront := by
  unfold Obligations.StepRunsFront
  exact fun _ _ _ => step_pending rfl

/-- Settles O8: the step runs the front command, which answers a next canonical state and leaves the queue alone. -/
theorem queueRunsInOrder : Obligations.QueueRunsInOrder := by
  unfold Obligations.QueueRunsInOrder
  intro s c r canon queue
  have canon' : ({ s with pending := r } : State).canon := (Keeps.upd_pending s r).canon canon
  obtain ⟨t, run⟩ := exec_next c { s with pending := r }
  exact ⟨t, (step_pending queue).trans run, exec_pending canon' run, exec_canon canon' run⟩

end Sys2Proof.Machine
end

section
/-!
A write whose line seal does not verify, at the head of the merge (R151, R318).
-/

set_option Elab.async false

namespace Sys2Proof.Machine

/-- A tracked write with line 5 and the seal of another line. -/
def badSealWrite : LaneReq :=
  { kind := .host .writeA, tag := 3, stream := 7, addr := 0x1000040,
    slot := some { line := 5, lseal := 6, tag := 3, form := 0, poison := false, stream := 7, ext := 0 }, reqNo := 4 }

/-- The hub in `SERVICE` with region 1 primary and that write alone in the lane of U1. -/
def badSealAtHead : State :=
  { (Tests.coreIn .service).setLink .u1 { Tests.upLink with lane := [badSealWrite] } with
    map := { State.reset.map with rt := [(1, rtPut 0 1 0 false)] } }

theorem badSealAtHead_canon : badSealAtHead.canon := Tests.canonOf (by decide +kernel)

/-- The seal of the write's line is verified as it is merged (hand-off 0x1 of R318), and the failure is counted in `ECC_SEALFAIL`. -/
theorem badSealAtHead_counts :
    ∃ t, exec (.mergePosition .ok) badSealAtHead = .next t ∧ t.reg Reg.ECC_SEALFAIL ≠ badSealAtHead.reg Reg.ECC_SEALFAIL :=
  ⟨_, rfl, by decide +kernel⟩

/-- Refutes O29: the clause of MERGE_POSITION names the lane and merge order only, and has no premise that the line's seal verifies;
the failure is counted in `ECC_SEALFAIL`. -/
theorem not_hostDataAndMergeRun : ¬ Obligations.HostDataAndMergeRun := by
  unfold Obligations.HostDataAndMergeRun
  intro h
  obtain ⟨-, -, -, -, -, merge, -⟩ := h badSealAtHead badSealAtHead_canon
  obtain ⟨t, run, kept, -⟩ := merge .ok .u1 badSealWrite [] .writeA (.locally true) (by decide +kernel) rfl rfl (by decide +kernel)
    (.inr (.inr (.inl rfl))) rfl
  obtain ⟨u, run', counted⟩ := badSealAtHead_counts
  obtain rfl : t = u := Host.Outcome.next.inj (run.symm.trans run')
  exact counted (kept (.reg Reg.ECC_SEALFAIL) (by decide +kernel))

end Sys2Proof.Machine
end

section
/-!
A masked write at the head of the backlog, for a peer that takes no masked replicas (R103, R567).
-/

set_option Elab.async false

namespace Sys2Proof.Machine

/-- A masked write with its line, poisoned, as the first forked. -/
def maskedHead : PoolEntry :=
  { kind := .masked, port := .u1, tag := 3, addr := 0x40, pair := 0x40, hasLine := true, wdHeld := true, poison := true, forkNo := 1 }

/-- The paired hub at an epoch the peer has been told, with that write alone in the backlog, on a T link that has not negotiated
masked replicas. -/
def maskedUnforkable : State :=
  { Tests.linked .service with
    ord := { State.reset.ord with backlog := [2], pool := [(2, some maskedHead)] }
    mir := { State.reset.mir with pstate := .paired, epoch := 3 }
    twin := { State.reset.twin with epochSent := some 3 } }

theorem maskedUnforkable_canon : maskedUnforkable.canon := Tests.canonOf (by decide +kernel)

/-- The write cannot go as a replica without the negotiated bit, and stays in the backlog. -/
theorem maskedUnforkable_waits :
    ∃ t, exec .forkReplica maskedUnforkable = .next t ∧ t.ord.backlog = [2] :=
  ⟨_, rfl, by decide +kernel⟩

/-- Refutes O30: the clause of FORK_REPLICA says of every write at the head of the backlog that it is sent, but a masked one waits where
T has not negotiated masked replicas. -/
theorem not_orderAndForkRun : ¬ Obligations.OrderAndForkRun := by
  unfold Obligations.OrderAndForkRun
  intro h
  obtain ⟨-, -, -, -, -, -, -, -, fork, -⟩ := h maskedUnforkable maskedUnforkable_canon
  obtain ⟨t, run, -, sent, -⟩ := fork 2 [] maskedHead rfl (by decide +kernel) (by decide +kernel) rfl (.inl rfl) rfl rfl
  obtain ⟨u, run', waits⟩ := maskedUnforkable_waits
  obtain rfl : t = u := Host.Outcome.next.inj (run.symm.trans run')
  exact absurd (sent.symm.trans waits) (by decide)

end Sys2Proof.Machine
end

section
/-!
A cycle left for Breeze in which it writes a mode register (R306, R312).
-/

set_option Elab.async false

namespace Sys2Proof.Machine

/-- Sub-channel 0 stepping rank 0, which is at the restoring of a device setting: its cycle is left for Breeze. -/
def leftForBreeze : State :=
  Tests.steppingTo { rank := 0, step := .stepping, restore := true, todo := [.setting 0x30 8] }

theorem leftForBreeze_canon : leftForBreeze.canon := Tests.canonOf (by decide +kernel)

/-- Breeze issues the MRW of the setting in that cycle. -/
theorem leftForBreeze_issues :
    ∃ t, exec (.scheduleCycle 0) leftForBreeze = .next t ∧ (t.sub 0).hist ≠ [] :=
  ⟨_, rfl, by decide +kernel⟩

/-- Refutes O31: the first clause of SCHEDULE_CYCLE says that nothing issues in a cycle left for Breeze, but Breeze writes its device
settings by MRW in just these cycles. -/
theorem not_schedulingRuns : ¬ Obligations.SchedulingRuns := by
  unfold Obligations.SchedulingRuns
  intro h
  obtain ⟨-, -, cycle, -⟩ := h leftForBreeze leftForBreeze_canon
  obtain ⟨t, run, -, -, nothing, -⟩ := cycle 0 (by decide +kernel)
  obtain ⟨u, run', issues⟩ := leftForBreeze_issues
  obtain rfl : t = u := Host.Outcome.next.inj (run.symm.trans run')
  exact issues ((nothing (.inr (by decide +kernel))).trans (by decide +kernel))

end Sys2Proof.Machine
end

section
/-!
A corrected scrub read that brings its rank to the limit of corrected errors with a package erased already: the rank retires (R243,
R343, R346, R347).
-/

set_option Elab.async false

namespace Sys2Proof.Machine

/-- A good scrub read of a line that holds contents counts its decode, and then ends with the state the outcome leaves the line in. -/
theorem exec_readDataDecode_scrub {s : State} {sc : Fin 16} {errors : List Byte} {f : Flight} {rest : List Flight}
    {stored : List Byte} {d : Decoded} (flights : (s.sub sc.val).flights = f :: rest)
    (found : (List.range 80).map (fun i => f.stored.getD i 0 ^^^ errors.getD i 0) = stored)
    (decoded : decodeLine f.entry.addr (s.rank (2 * sc.val + f.entry.loc.rank)).erased stored = d)
    (scrub : f.entry.kind = .scrub) (good : recheckFails f.entry.addr stored d = false) (pool : f.entry.pool = none)
    (holds : (s.onSub sc.val fun c => { c with flights := rest }).holdsContents f.entry.addr = true) :
    exec (.readDataDecode sc errors) s =
      .next ((((s.onSub sc.val fun c => { c with flights := rest }).decodeEffects sc.val f.entry.loc d true).noteRef
        (2 * sc.val + f.entry.loc.rank) d).scrubDone sc.val f.entry d d.kind) := by
  have rank : ((s.onSub sc.val fun c => { c with flights := rest }).rank (2 * sc.val + f.entry.loc.rank)).erased =
      (s.rank (2 * sc.val + f.entry.loc.rank)).erased := rfl
  change execReadDataDecode sc errors s = _
  simp only [execReadDataDecode, flights, rank, found, decoded, good, holds, scrub, pool, Bool.or_true, Bool.false_and, if_true,
    Option.bind_none, Bool.not_false, Bool.false_eq_true, if_false]

/-- The zero line at address 0, whose check symbols are all zero, with symbol 2 changed. -/
def damagedZeroLine : List Byte := 0 :: 0 :: 9 :: List.replicate 77 0

/-- The syndromes of that line, and the same with each poison pattern removed. -/
def damagedSyndromes : List Byte := [9, 193, 236, 14, 117, 67, 255, 173, 137, 170, 61, 5, 204, 221, 6, 136]

def damagedLessCarried : List Byte := [9, 131, 252, 130, 143, 207, 15, 72, 112, 228, 205, 146, 142, 167, 89, 152]

def damagedLessLocal : List Byte := [9, 38, 212, 193, 27, 140, 138, 99, 109, 95, 72, 100, 43, 110, 70, 176]

theorem damagedZeroLine_syndromes : rsSyndromes (virtualSymbols 0 ++ damagedZeroLine) = damagedSyndromes := by decide +kernel

theorem damagedSyndromes_lessCarried : polyAdd damagedSyndromes (poisonSyndromes .carried) = damagedLessCarried := by decide +kernel

theorem damagedSyndromes_lessLocal : polyAdd damagedSyndromes (poisonSyndromes .locally) = damagedLessLocal := by decide +kernel

/-- Neither poison form explains the syndromes; one error in symbol 2 does. -/
theorem damagedLessCarried_unlocated : locateErrors damagedLessCarried (some 5) = none := by decide +kernel

theorem damagedLessLocal_unlocated : locateErrors damagedLessLocal (some 5) = none := by decide +kernel

theorem damagedSyndromes_located : locateErrors damagedSyndromes (some 5) = some [(7, 9)] := by decide +kernel

/-- With package 5 erased the decoder corrects the line. -/
theorem decodeLine_damagedZeroLine : decodeLine 0 (some 5) damagedZeroLine = ⟨.corrected, 0, [(7, 9)]⟩ := by
  have nonzero : damagedSyndromes ≠ List.replicate 16 0 := by decide
  have notCarried : damagedLessCarried ≠ List.replicate 16 0 := by decide
  have notLocal : damagedLessLocal ≠ List.replicate 16 0 := by decide
  have line : lineOf (applyErrors (virtualSymbols 0 ++ damagedZeroLine) [(7, 9)]) = 0 := by decide +kernel
  simp only [decodeLine, damagedZeroLine_syndromes, damagedSyndromes_lessCarried, damagedSyndromes_lessLocal, nonzero, notCarried,
    notLocal, if_false, damagedLessCarried_unlocated, damagedLessLocal_unlocated, damagedSyndromes_located, line]
  rfl

/-- The scrub read of the zero line at address 0 in flight. -/
def scrubInFlight : Flight := { entry := { kind := .scrub }, stored := List.replicate 80 0 }

/-- The paired hub with region 0 primary and that read in flight from sub-channel 0, whose rank 0 has package 5 erased and is one
corrected error below `RANK_CE_LIM`. -/
def rankAtLimit : State :=
  { Tests.coreIn .service with
    map := { State.reset.map with rt := [(0, rtPut 0 1 0 false)] }
    sch := [(0, { flights := [scrubInFlight], corr := [{ addr := 0 }] })]
    flt := { State.reset.flt with ranks := [(0, { trained := true, erased := some 5, rce := 63 })] }
    mir := { State.reset.mir with pstate := .paired } }

theorem rankAtLimit_canon : rankAtLimit.canon := Tests.canonOf (by decide +kernel)

theorem rankAtLimit_stored :
    (List.range 80).map (fun i => scrubInFlight.stored.getD i 0 ^^^ ([0, 0, 9] : List Byte).getD i 0) = damagedZeroLine := by
  decide +kernel

theorem rankAtLimit_erased : (rankAtLimit.rank 0).erased = some 5 := by decide +kernel

theorem rankAtLimit_rechecks : recheckFails 0 damagedZeroLine ⟨.corrected, 0, [(7, 9)]⟩ = false := by decide +kernel

/-- The rank retires at once, and its correction entries go. -/
theorem rankAtLimit_retires :
    ∃ t, exec (.readDataDecode 0 [0, 0, 9]) rankAtLimit = .next t ∧ (t.sub 0).corr = [] := by
  refine ⟨_, exec_readDataDecode_scrub (f := scrubInFlight) (rest := []) rfl rankAtLimit_stored
    (decodeLine_damagedZeroLine) rfl rankAtLimit_rechecks rfl (by decide +kernel), ?_⟩
  decide +kernel

/-- Refutes O33: a corrected scrub read counts towards `RANK_CE_LIM`, and the rank that reaches it with a package erased retires with its
correction entries, so the entry does not keep its sealed line. -/
theorem not_readsAndCompletionsRun : ¬ Obligations.ReadsAndCompletionsRun := by
  unfold Obligations.ReadsAndCompletionsRun
  intro h
  obtain ⟨-, -, -, -, corrected, -⟩ := h rankAtLimit rankAtLimit_canon
  obtain ⟨t, run, -, -, entered, -⟩ := corrected 0 [0, 0, 9] scrubInFlight [] damagedZeroLine ⟨.corrected, 0, [(7, 9)]⟩ { addr := 0 } rfl
    rankAtLimit_stored.symm decodeLine_damagedZeroLine.symm rfl rfl rankAtLimit_rechecks (by decide +kernel) rfl rfl rfl rfl rfl
    (by decide +kernel)
  obtain ⟨u, run', retired⟩ := rankAtLimit_retires
  obtain rfl : t = u := Host.Outcome.next.inj (run.symm.trans run')
  exact absurd (entered.symm.trans retired) (List.cons_ne_nil _ _)

end Sys2Proof.Machine
end

section
/-!
What entering writes of the hub's own agents at Order leaves alone (R36, R148, R156): everything but the pool, what waits to be
dispatched, and the agents' queue.
-/

set_option Elab.async false

namespace Sys2Proof.Machine

/-! ### Dispatch -/

/-- Order without its pool and without the entries that wait to be dispatched. -/
def OrdSt.outside (o : OrdSt) : OrdSt := { o with pool := [], undisp := [] }

/-- What Order holds for one core cycle (R29, R32): the port pointer, the lanes granted, the admissions and the probes. -/
def OrdSt.cycle (o : OrdSt) : Nat × List Port × Nat × Nat := (o.ptr, o.granted, o.admits, o.probes)

theorem OrdSt.cycle_of_outside {o p : OrdSt} (h : o.outside = p.outside) : o.cycle = p.cycle :=
  show o.outside.cycle = p.outside.cycle from congrArg OrdSt.cycle h

theorem OrdSt.agentQ_of_outside {o p : OrdSt} (h : o.outside = p.outside) : o.agentQ = p.agentQ :=
  show o.outside.agentQ = p.outside.agentQ from congrArg OrdSt.agentQ h

theorem State.onEntry_outside (s : State) (i : Nat) (f : PoolEntry → PoolEntry) : (s.onEntry i f).ord.outside = s.ord.outside := by
  unfold State.onEntry
  split <;> rfl

theorem State.dispatchOne_outside {s t : State} {n : Nat} (h : s.dispatchOne n = some t) : t.ord.outside = s.ord.outside := by
  unfold State.dispatchOne at h
  split at h
  · cases h
  · split at h
    · next i _ =>
      cases h
      exact s.onEntry_outside i _
    · cases h

theorem State.dispatchSome_outside (n k : Nat) (s : State) : (State.dispatchSome n k s).ord.outside = s.ord.outside := by
  induction k generalizing s with
  | zero => rfl
  | succ k ih =>
    rw [State.dispatchSome]
    split
    · next t h => exact (ih t).trans (State.dispatchOne_outside h)
    · rfl

theorem State.toSchedule_outside (s : State) (i : Nat) : (s.toSchedule i).ord.outside = s.ord.outside := by
  unfold State.toSchedule
  split
  · exact State.dispatchSome_outside _ _ _
  · rfl

/-! ### Agent writes -/

/-- A request of the agents that writes a whole line. -/
def AgentReq.writesLine (q : AgentReq) : Prop := q.line.isSome = true ∧ q.mask = none

theorem State.agentEntry_writesLine (s : State) {q : AgentReq} (h : q.writesLine) :
    (s.agentEntry q).hasLine = true ∧ (s.agentEntry q).merging = false := by
  obtain ⟨line, mask⟩ := h
  obtain ⟨l, hl⟩ := Option.isSome_iff_exists.1 line
  simp [State.agentEntry, hl, mask]

/-- An entry with its line that is not to be merged goes to Schedule, counted where an older masked write holds its line (R134). -/
theorem State.startAgent_line {s : State} {i : Nat} {e : PoolEntry} (found : s.entry i = some e) (line : e.hasLine = true)
    (plain : e.merging = false) : s.startAgent i = (if s.behindMerge e then s.bump Reg.ORD_LINEHOLD else s).toSchedule i := by
  simp [State.startAgent, State.startWrite, found, line, plain]

/-- The parts in which a write of the agents shows. -/
def agentWriteParts : List Part := [.ord, .sch, .reg Reg.ORD_LINEHOLD]

theorem State.startAgent_line_keeps {s : State} {i : Nat} {e : PoolEntry} (found : s.entry i = some e) (line : e.hasLine = true)
    (plain : e.merging = false) : Keeps agentWriteParts s (s.startAgent i) ∧ (s.startAgent i).ord.outside = s.ord.outside := by
  rw [State.startAgent_line found line plain]
  split
  · exact ⟨.via (State.toSchedule_keeps _ i) rfl ((s.bump_keeps _ _).mono rfl), State.toSchedule_outside _ i⟩
  · exact ⟨(s.toSchedule_keeps i).mono rfl, s.toSchedule_outside i⟩

/-- The request `q` admitted, with `r` left waiting: its entry stands in the pool and has the next place in admission order. -/
def State.admitAgent (s : State) (q : AgentReq) (r : List AgentReq) : State :=
  let t := s.setEntry (firstFree 8192 s.ord.pool) (some (s.agentEntry q))
  { t with ord := { t.ord with agentQ := r, admNext := t.ord.admNext + 1, replayed := q.replay.getD t.ord.replayed } }

theorem State.pumpAgents_cons {s : State} {q : AgentReq} {r : List AgentReq} (n : Nat) (queue : s.ord.agentQ = q :: r) :
    State.pumpAgents (n + 1) s =
      if (firstFree 8192 s.ord.pool < 8448 && s.top.trigger.isNone) = true then
        State.pumpAgents n ((s.admitAgent q r).startAgent (firstFree 8192 s.ord.pool))
      else s := by
  rw [State.pumpAgents, queue]
  rfl

theorem State.entry_admitAgent (s : State) (q : AgentReq) (r : List AgentReq) :
    (s.admitAgent q r).entry (firstFree 8192 s.ord.pool) = some (s.agentEntry q) :=
  s.entry_setEntry (firstFree 8192 s.ord.pool) (some (s.agentEntry q))

/-- Admitting requests that write whole lines shows in those parts only, and leaves what Order holds for the core cycle. -/
theorem State.pumpAgents_lines (n : Nat) (s : State) (lines : ∀ q ∈ s.ord.agentQ, q.writesLine) :
    Keeps agentWriteParts s (State.pumpAgents n s) ∧ (State.pumpAgents n s).ord.cycle = s.ord.cycle := by
  induction n generalizing s with
  | zero => exact ⟨.refl _ _, rfl⟩
  | succ n ih =>
    cases queue : s.ord.agentQ with
    | nil => simpa only [State.pumpAgents, queue] using ⟨Keeps.refl agentWriteParts s, trivial⟩
    | cons q r =>
      rw [queue] at lines
      rw [State.pumpAgents_cons n queue]
      split
      · obtain ⟨line, plain⟩ := s.agentEntry_writesLine (lines q List.mem_cons_self)
        have admits : Keeps agentWriteParts s (s.admitAgent q r) := (Keeps.upd_ord s _).mono rfl
        obtain ⟨starts, outside⟩ := State.startAgent_line_keeps (s.entry_admitAgent q r) line plain
        obtain ⟨rest, cycle⟩ := ih ((s.admitAgent q r).startAgent (firstFree 8192 s.ord.pool)) (by
          rw [OrdSt.agentQ_of_outside outside]
          exact fun x hx => lines x (List.mem_cons_of_mem _ hx))
        exact ⟨(admits.trans starts).trans rest, cycle.trans (OrdSt.cycle_of_outside (p := (s.admitAgent q r).ord) outside)⟩
      · exact ⟨.refl _ _, rfl⟩

/-- With no agent request waiting, the two copies of a reserve line are written likewise. -/
theorem State.reserveWrite_lines (s : State) (off : Nat) (line : Line) (none : s.ord.agentQ = []) :
    Keeps agentWriteParts s (s.reserveWrite off line) ∧ (s.reserveWrite off line).ord.cycle = s.ord.cycle := by
  unfold State.reserveWrite State.agentAsk
  simp only [none, List.nil_append]
  split
  · exact ⟨.refl _ _, rfl⟩
  · obtain ⟨keeps, cycle⟩ := State.pumpAgents_lines 2
      { s with ord := { s.ord with agentQ := [{ addr := s.reserveLine off, line := some line },
        { addr := s.reserveLine off + 2 ^ 23, line := some line }] } }
      (by simp [AgentReq.writesLine])
    exact ⟨.trans ((Keeps.upd_ord s _).mono rfl) keeps, cycle⟩

/-! ### The change of a region table entry (R148) -/

/-- No change is made where none waits, an agent request waits, or fewer than two agent entries are free. -/
theorem State.makeChange_none {s : State} (h : s.map.turn = [] ∨ s.ord.agentQ ≠ [] ∨ s.agentRoom < 2) : s.makeChange = s := by
  unfold State.makeChange
  split
  · rfl
  · next turn =>
    refine if_neg fun made => ?_
    obtain ⟨queue, room⟩ := (Bool.and_eq_true _ _).mp made
    rcases h with h | h | h
    · exact absurd (turn.symm.trans h) (List.cons_ne_nil _ _)
    · exact h (List.isEmpty_iff.1 queue)
    · exact absurd (of_decide_eq_true room) (by omega)

/-- The region table as the oldest change leaves it, with its shadow. -/
def MapSt.made (m : MapSt) (r : Nat) (rest : List (Nat × Word)) : MapSt :=
  { m with turn := rest, shadow := Tab.set (fun _ => 0) m.shadow r (m.changed r) }

/-- Else the oldest change is made, and its shadow line written. -/
theorem State.makeChange_made {s : State} {c : Nat × Word} {rest : List (Nat × Word)} (turn : s.map.turn = c :: rest)
    (queue : s.ord.agentQ = []) (room : 2 ≤ s.agentRoom) :
    Keeps [.ord, .map, .sch, .reg Reg.ORD_LINEHOLD] s s.makeChange ∧ s.makeChange.ord.cycle = s.ord.cycle ∧
      (s.canon → s.makeChange.map = s.map.made c.1 rest) := by
  have made : s.makeChange = ({ s with map := s.map.made c.1 rest } : State).reserveWrite (0x10000 + 4 * c.1)
      (({ s with map := s.map.made c.1 rest } : State).shadowLine c.1) := by
    simp [State.makeChange, turn, queue, room, MapSt.made]
  have map : Keeps [.map] s { s with map := s.map.made c.1 rest } := Keeps.upd_map s _
  obtain ⟨keeps, cycle⟩ := State.reserveWrite_lines { s with map := s.map.made c.1 rest } (0x10000 + 4 * c.1)
    (({ s with map := s.map.made c.1 rest } : State).shadowLine c.1) queue
  rw [made]
  exact ⟨.trans (map.mono rfl) (keeps.mono rfl), cycle, fun canon => keeps.same (map canon).1 .map (by decide)⟩

theorem State.makeChange_shows (s : State) :
    Keeps [.ord, .map, .sch, .reg Reg.ORD_LINEHOLD] s s.makeChange ∧ s.makeChange.ord.cycle = s.ord.cycle := by
  by_cases h : s.map.turn = [] ∨ s.ord.agentQ ≠ [] ∨ s.agentRoom < 2
  · rw [State.makeChange_none h]
    exact ⟨.refl _ _, rfl⟩
  · rw [not_or, not_or, not_not, not_lt] at h
    obtain ⟨waits, queue, room⟩ := h
    obtain ⟨c, rest, turn⟩ := List.exists_cons_of_ne_nil waits
    obtain ⟨keeps, cycle, -⟩ := State.makeChange_made turn queue room
    exact ⟨keeps, cycle⟩

end Sys2Proof.Machine
end

section
/-!
What one tick does while no row of the shutdown table waits (R29, R32, R148, R390, R490).
-/

set_option Elab.async false

namespace Sys2Proof.Machine

/-! ### What the clock's ticks read -/

/-- Two states agree in the top-level state and in the registers that the clock's ticks read. -/
def SameForClock (s t : State) : Prop := t.top = s.top ∧ ∀ a, a ≠ Reg.ORD_LINEHOLD → t.reg a = s.reg a

theorem SameForClock.fld {s t : State} (h : SameForClock s t) (f : Fld) (other : f.addr ≠ Reg.ORD_LINEHOLD) : t.fld f = s.fld f := by
  rw [State.fld, h.2 f.addr other, State.fld]

theorem SameForClock.flag {s t : State} (h : SameForClock s t) (f : Fld) (other : f.addr ≠ Reg.ORD_LINEHOLD) : t.flag f = s.flag f := by
  rw [State.flag, h.fld f other, State.flag]

theorem SameForClock.mgTicks {s t : State} (h : SameForClock s t) : t.mgTicks = s.mgTicks := by
  rw [State.mgTicks, h.1, h.fld Fld.CLK_STAT.REFSRC (by decide), State.mgTicks]

theorem SameForClock.popSubs {s t : State} (h : SameForClock s t) : t.popSubs = s.popSubs := by
  have bits : t.geom.sBits = s.geom.sBits := h.fld Fld.MAP_GEOM.SC_BITS (by decide)
  rw [State.popSubs, bits, State.popSubs]

theorem SameForClock.dllLocked {s t : State} (h : SameForClock s t) (n : Nat) : t.dllLocked n = s.dllLocked n :=
  h.flag (Fld.CLK_DLL.LOCKED n) (by simp only [Reg.ORD_LINEHOLD]; omega)

theorem SameForClock.memNow {s t : State} (h : SameForClock s t) : t.memNow = s.memNow := by
  simp only [State.memNow, h.1, h.flag Fld.CLK_STAT.MPLL_LOCK (by decide), h.fld Fld.CLK_STAT.REFSRC (by decide), h.popSubs, h.dllLocked]

/-- With the same clock unit, but for its note of an exit request, what an accumulator tick adds and wraps at is the same. -/
theorem SameForClock.memNum {s t : State} (h : SameForClock s t) (clk : t.clk = { s.clk with exitSeen := false }) :
    t.memNum = s.memNum := by
  simp only [State.memNum, State.memHeld, clk, h.memNow]
  rfl

theorem SameForClock.memDenom {s t : State} (h : SameForClock s t) (clk : t.clk = { s.clk with exitSeen := false }) :
    t.memDenom = s.memDenom := by
  simp only [State.memDenom, clk, h.popSubs]

/-- The timebase moves alike whatever core cycle it is. -/
theorem SameForClock.movedTb {s t : State} (h : SameForClock s t) (elapsed cycle : Nat)
    (time : t.time = { s.time with elapsed := elapsed, cycle := cycle }) : t.movedTb = s.movedTb := by
  simp only [State.movedTb, State.rate, h.mgTicks, time]

/-! ### The tick of MGCLK and of the oscillator -/

/-- The clock unit after a tick of MGCLK; every sixteenth is one of the accumulator (R390). -/
def State.mgClk (s : State) : ClkSt :=
  if (s.clk.memTick + 1) % 16 ≠ 0 then { s.clk with memTick := (s.clk.memTick + 1) % 16 }
  else
    { s.clk with
      memTick := 0
      memPin := decide (s.clk.memAcc + s.memNum ≥ s.memDenom)
      memAcc := if s.clk.memAcc + s.memNum ≥ s.memDenom then s.clk.memAcc + s.memNum - s.memDenom else s.clk.memAcc + s.memNum }

/-- What a tick of MGCLK does to the clock unit. -/
def State.clkMoved (s : State) : State :=
  let n := s.clk.memTick + 1
  let t := { s with clk := { s.clk with memTick := n % 16 } }
  if n % 16 = 0 then t.memTick else t

theorem State.clkMoved_eq (s : State) : s.clkMoved = { s with clk := s.mgClk } := by
  unfold State.clkMoved State.mgClk
  by_cases full : (s.clk.memTick + 1) % 16 = 0
  · simp only [full, if_true, ne_eq, not_true_eq_false, if_false]
    rfl
  · simp only [full, if_false, ne_eq, not_false_eq_true, if_true]

theorem State.tickTime_eq (s : State) : s.tickTime = { s with time := { s.time with tb := s.movedTb } } := rfl

/-- A tick of MGCLK moves the timebase if it runs on that clock, and the clock unit, and notes the time port. -/
theorem State.mgTick_eq (s : State) :
    s.mgTick =
      ({ s with time := { s.time with tb := if s.mgTicks then s.movedTb else s.time.tb }, clk := s.mgClk } : State).notePort := by
  change (if s.mgTicks then s.tickTime else s).clkMoved.notePort = _
  rw [State.clkMoved_eq, State.tickTime_eq]
  cases mg : s.mgTicks <;> rfl

/-- The end of a core cycle: on the oscillator every 160th moves the timebase, and every fourth is a tick of MGCLK. -/
def State.clocked (s : State) : State :=
  let s := if !s.mgTicks && s.time.cycle % 160 = 0 then s.tickTime else s
  if s.time.cycle % 4 = 0 then s.mgTick else s

/-- The time and the clock unit as the end of a core cycle leaves them. -/
def State.clockMoved (s : State) : State :=
  { s with
    time := { s.time with tb := if s.time.cycle % (if s.mgTicks then 4 else 160) = 0 then s.movedTb else s.time.tb }
    clk := if s.time.cycle % 4 ≠ 0 then s.clk else s.mgClk }

theorem State.clocked_eq (s : State) : s.clocked = if s.time.cycle % 4 = 0 then s.clockMoved.notePort else s.clockMoved := by
  unfold State.clocked State.clockMoved
  cases mg : s.mgTicks with
  | true =>
    by_cases fourth : s.time.cycle % 4 = 0
    · simp [mg, fourth, State.mgTick_eq]
    · simp [fourth]
  | false =>
    by_cases beat : s.time.cycle % 160 = 0
    · have fourth : s.time.cycle % 4 = 0 := by omega
      have still : s.tickTime.mgTicks = false := mg
      have fourth' : s.tickTime.time.cycle % 4 = 0 := fourth
      simp only [Bool.not_false, beat, decide_true, Bool.and_self, if_true, fourth', State.mgTick_eq, still, Bool.false_eq_true, if_false,
        fourth, ne_eq, not_true_eq_false]
      rfl
    · by_cases fourth : s.time.cycle % 4 = 0
      · simp [mg, fourth, beat, State.mgTick_eq]
      · simp [fourth, beat]

/-- The parts in which noting a new time port shows (R493). -/
def notedParts : List Part := .reg Reg.TIM_STAT :: logParts

theorem State.clockMoved_keeps (s : State) : Keeps [.time, .clk] s s.clockMoved :=
  .via (Keeps.upd_clk ({ s with time := s.clockMoved.time } : State) s.clockMoved.clk) rfl ((Keeps.upd_time s _).mono rfl)

theorem State.clocked_keeps (s : State) : Keeps notedParts s.clockMoved s.clocked := by
  rw [State.clocked_eq]
  exact .ite (s.clockMoved.notePort_keeps.mono rfl) (.refl _ _)

/-! ### The core cycle -/

/-- The core cycle as it begins: its time has passed, and what Order holds for one core cycle is begun afresh (R29, R32). -/
def State.cycleBegun (s : State) : State :=
  { s with
    time := { s.time with elapsed := s.time.elapsed + 5, cycle := s.time.cycle + 1 }
    clk := { s.clk with exitSeen := false }
    ord := { s.ord with ptr := (s.ord.ptr + 1) % 4, granted := [], admits := 0, probes := 0 } }

theorem State.cycleBegun_keeps (s : State) : Keeps [.time, .ord, .clk] s s.cycleBegun := Keeps.upd_time_ord_clk s _ _ _

/-- The core cycle after its change of the region table and the end of its bars on Breeze. -/
def State.cycleWorked (s : State) : State := s.cycleBegun.makeChange.endBars

theorem State.tickStop_idle {s : State} (h : s.pwr.stop = [] ∨ s.pwr.stopActed = true) : s.tickStop = s := by
  unfold State.tickStop
  exact if_pos (by simpa using h)

theorem State.endBars_none {s : State} (h : s.cal.bar = []) : s.endBars = s := by
  simp [State.endBars, h]

/-- The parts in which the work of a core cycle shows. -/
def workedParts : List Part := [.ord, .map, .sch, .cal, .reg Reg.ORD_LINEHOLD]

theorem State.cycleWorked_keeps (s : State) : Keeps workedParts s.cycleBegun s.cycleWorked :=
  .via (State.endBars_keeps _) rfl (s.cycleBegun.makeChange_shows.1.mono rfl)

theorem workedParts_reg {a : Nat} (h : a ≠ Reg.ORD_LINEHOLD) : workedParts.any (Part.covers · (.reg a)) = false := by
  simp [workedParts, Part.covers, Ne.symm h]

theorem State.cycleWorked_sameForClock {s : State} (canon : s.canon) : SameForClock s s.cycleWorked :=
  have begun := (s.cycleBegun_keeps canon).1
  ⟨s.cycleWorked_keeps.same begun .top (by decide), fun _ h => s.cycleWorked_keeps.reg begun (workedParts_reg h)⟩

theorem State.cycleWorked_time {s : State} (canon : s.canon) : s.cycleWorked.time = s.cycleBegun.time :=
  s.cycleWorked_keeps.same (s.cycleBegun_keeps canon).1 .time (by decide)

theorem State.cycleWorked_clk {s : State} (canon : s.canon) : s.cycleWorked.clk = s.cycleBegun.clk :=
  s.cycleWorked_keeps.same (s.cycleBegun_keeps canon).1 .clk (by decide)

theorem State.cycleWorked_pwr {s : State} (canon : s.canon) : s.cycleWorked.pwr = s.pwr :=
  s.cycleWorked_keeps.same (s.cycleBegun_keeps canon).1 .pwr (by decide)

theorem State.cycleWorked_cycle {s : State} (canon : s.canon) : s.cycleWorked.ord.cycle = ((s.ord.ptr + 1) % 4, [], 0, 0) := by
  obtain ⟨keeps, cycle⟩ := s.cycleBegun.makeChange_shows
  have ord : s.cycleWorked.ord = s.cycleBegun.makeChange.ord :=
    (State.endBars_keeps _).same (keeps (s.cycleBegun_keeps canon).1).1 .ord (by decide)
  rw [ord, cycle]
  rfl

theorem State.tick_worked {s : State} (canon : s.canon) (on : s.top.coreOn = true) (stop : s.pwr.stop = [] ∨ s.pwr.stopActed = true) :
    s.tick = s.cycleWorked.clocked := by
  have still : s.cycleWorked.tickStop = s.cycleWorked := State.tickStop_idle (by rwa [State.cycleWorked_pwr canon])
  rw [State.tick, if_pos on, ← still]
  rfl

theorem State.cycleWorked_clockMoved_time {s : State} (canon : s.canon) : s.cycleWorked.clockMoved.time =
    { s.time with elapsed := s.time.elapsed + 5, cycle := s.time.cycle + 1, tb := s.tickedTb } := by
  have same := State.cycleWorked_sameForClock canon
  have time := State.cycleWorked_time canon
  simp only [State.clockMoved, same.movedTb _ _ time, same.mgTicks, time]
  rfl

theorem State.cycleWorked_clockMoved_clk {s : State} (canon : s.canon) : s.cycleWorked.clockMoved.clk = s.tickedClk := by
  have same := State.cycleWorked_sameForClock canon
  have clk := State.cycleWorked_clk canon
  simp only [State.clockMoved, State.mgClk, same.memNum clk, same.memDenom clk, State.cycleWorked_time canon, clk]
  rfl

/-- Beyond the work of its cycle, a tick moves the clocks and may note a new time port. -/
theorem State.tick_keeps_worked {s : State} (canon : s.canon) (on : s.top.coreOn = true)
    (stop : s.pwr.stop = [] ∨ s.pwr.stopActed = true) : Keeps ([.time, .clk] ++ notedParts) s.cycleWorked s.tick := by
  rw [State.tick_worked canon on stop]
  exact .via (State.clocked_keeps _) rfl ((State.clockMoved_keeps _).mono rfl)

theorem State.cycleWorked_canon {s : State} (canon : s.canon) : s.cycleWorked.canon :=
  (s.cycleWorked_keeps (s.cycleBegun_keeps canon).1).1

theorem State.tick_time {s : State} (canon : s.canon) (on : s.top.coreOn = true) (stop : s.pwr.stop = [] ∨ s.pwr.stopActed = true) :
    s.tick.time = { s.time with elapsed := s.time.elapsed + 5, cycle := s.time.cycle + 1, tb := s.tickedTb } := by
  rw [State.tick_worked canon on stop, ← State.cycleWorked_clockMoved_time canon]
  exact (State.clocked_keeps _).same (State.clockMoved_keeps _ (State.cycleWorked_canon canon)).1 .time (by decide)

theorem State.tick_clk {s : State} (canon : s.canon) (on : s.top.coreOn = true) (stop : s.pwr.stop = [] ∨ s.pwr.stopActed = true) :
    s.tick.clk = s.tickedClk := by
  rw [State.tick_worked canon on stop, ← State.cycleWorked_clockMoved_clk canon]
  exact (State.clocked_keeps _).same (State.clockMoved_keeps _ (State.cycleWorked_canon canon)).1 .clk (by decide)

/-- A core cycle that makes no change, with no bar on Breeze, is over as it began. -/
theorem State.cycleWorked_idle {s : State} (none : s.map.turn = [] ∨ s.ord.agentQ ≠ [] ∨ s.agentRoom < 2) (bar : s.cal.bar = []) :
    s.cycleWorked = s.cycleBegun := by
  have same : s.cycleBegun.makeChange = s.cycleBegun := State.makeChange_none (s := s.cycleBegun) none
  rw [State.cycleWorked, same]
  exact State.endBars_none bar

theorem State.cycleWorked_cal {s : State} (canon : s.canon) (bar : s.cal.bar = []) : s.cycleWorked.cal = s.cal := by
  have cal : s.cycleBegun.makeChange.cal = s.cal :=
    s.cycleBegun.makeChange_shows.1.same (s.cycleBegun_keeps canon).1 .cal (by decide)
  rw [State.cycleWorked, State.endBars_none (by rw [cal]; exact bar), cal]

theorem State.cycleWorked_made {s : State} (canon : s.canon) {c : Nat × Word} {rest : List (Nat × Word)} (turn : s.map.turn = c :: rest)
    (queue : s.ord.agentQ = []) (room : 2 ≤ s.agentRoom) : s.cycleWorked.map = s.map.made c.1 rest := by
  have begun := (s.cycleBegun_keeps canon).1
  obtain ⟨keeps, -, map⟩ := State.makeChange_made (s := s.cycleBegun) turn queue room
  exact ((State.endBars_keeps _).same (keeps begun).1 .map (by decide)).trans (map begun)

/-- A tick with the core domain off, and no row of the shutdown table waiting, passes 100 ns (R490). -/
theorem State.tick_coreOff {s : State} (off : s.top.coreOn = false) (stop : s.pwr.stop = [] ∨ s.pwr.stopActed = true) :
    s.tick = { s with time := { s.time with elapsed := s.time.elapsed + 800, tb := if s.top.aonOn then s.movedTb else s.time.tb } } := by
  rw [State.tick, off]
  change s.aonTick = _
  unfold State.aonTick
  cases aon : s.top.aonOn with
  | true => exact (if_pos aon).trans (State.tickStop_idle stop)
  | false => exact if_neg (by simp [aon])

/-! ### The step -/

/-- With no command waiting a step does what an idle one does. -/
theorem step_idle {s : State} (h : s.pending = []) : step s = s.idle := by
  unfold step
  rw [h]

/-- With no access waiting either, an idle step looks at the receive crossings. -/
theorem State.serveNext_none {s : State} (h : s.sb.arb = []) : s.serveNext = none := by
  simp [State.serveNext, h]

/-- Settles O2: an access that waits, an item of the crossings, or a tick; of a tick with the core domain on, what each of its
parts shows in. -/
theorem emptyQueueTakesCrossingOrTicks : Obligations.EmptyQueueTakesCrossingOrTicks := by
  unfold Obligations.EmptyQueueTakesCrossingOrTicks
  intro s queue
  rw [step_idle queue, State.idle]
  refine ⟨?access, ?command, ?flitEnd, ?tick⟩
  case access =>
    intro q first
    rw [State.serveNext, first]
    rfl
  case command =>
    intro p c r arb rx
    rw [State.serveNext_none arb, rx]
  case flitEnd =>
    intro p r arb rx
    rw [State.serveNext_none arb, rx]
  case tick =>
    intro arb rx canon stop
    rw [State.serveNext_none arb, rx]
    refine ⟨s.tick, rfl, fun on => ?_, fun off => ?_⟩
    · have ticks := State.tick_keeps_worked canon on stop
      have worked := State.cycleWorked_canon canon
      have ord : s.tick.ord = s.cycleWorked.ord := ticks.same worked .ord (by decide)
      have map : s.tick.map = s.cycleWorked.map := ticks.same worked .map (by decide)
      have cal : s.tick.cal = s.cycleWorked.cal := ticks.same worked .cal (by decide)
      have cycle : s.tick.ord.cycle = ((s.ord.ptr + 1) % 4, [], 0, 0) := by rw [ord, State.cycleWorked_cycle canon]
      simp only [OrdSt.cycle, Prod.mk.injEq] at cycle
      obtain ⟨ptr, granted, admits, probes⟩ := cycle
      refine ⟨?_, State.tick_time canon on stop, ptr, granted, admits, probes, State.tick_clk canon on stop,
        fun bar => cal.trans (State.cycleWorked_cal canon bar), fun c rest turn none room => ?_, fun none bar => ?_⟩
      · exact (Keeps.after ticks (by decide) (.after s.cycleWorked_keeps (by decide) (s.cycleBegun_keeps.mono (by decide))) canon).2
      · rw [map, State.cycleWorked_made canon turn none room]
        exact ⟨rfl, Tab.get_set_same _ _ _ _, rfl⟩
      · have idle := State.cycleWorked_idle none bar
        rw [idle] at ticks ord
        exact ⟨(Keeps.after ticks (by decide) (s.cycleBegun_keeps.mono (by decide)) canon).2, ord⟩
    · rw [State.tick_coreOff off stop]
      exact ⟨(Keeps.upd_time s _ canon).2, rfl, rfl⟩

end Sys2Proof.Machine
end

section
/-!
What `LNK_NEG.LINK_REV` shows of an agreed link revision: its two low bits.
-/

namespace Sys2Proof.Machine

/-- The answer of a hub that agrees to link revision 4. -/
def ackRev4 : NegAckMsg := { result := 0, linkRev := 4, mirRev := 1, features := 6 }

/-- What the controller offered before it. -/
def offerRev4 : NegMsg := { linkRevs := 1, mirRevs := 1, features := 6, profile := 1, node := 2, port := 1, domain := 3 }

/-- Port U1 in `INIT`, its answer already given with link revision 4. -/
def agreedRev4 : State :=
  (Tests.coreIn .service).setLink .u1 { lstate := .init, peerNeg := some offerRev4, myAck := some ackRev4 }

theorem agreedRev4_canon : agreedRev4.canon := Tests.canonOf (by decide +kernel)

/-- `LINK_REV` is two bits wide, so the revision 4 agreed on reads 0. -/
theorem agreedRev4_linkRev :
    ∃ t, exec (.negAckReceived .u1 ackRev4) agreedRev4 = .next t ∧ t.fld (Fld.LNK_NEG.LINK_REV 1) = 0 :=
  ⟨_, rfl, by decide +kernel⟩

/-- Refutes O24: equal answers with link revision 4 bring the port to `SERVICE`, but `LNK_NEG.LINK_REV`, a field of two bits, shows
0. -/
theorem not_linkTrainingRuns : ¬ Obligations.LinkTrainingRuns := by
  unfold Obligations.LinkTrainingRuns
  intro h
  obtain ⟨-, -, -, -, -, -, -, -, -, -, agreed, -⟩ := h agreedRev4 agreedRev4_canon
  obtain ⟨t, run, -, -, -, -, -, -, -, shown, -⟩ :=
    agreed .u1 ackRev4 offerRev4 ackRev4 (by decide) (by decide) (by decide) (by decide) rfl rfl
  obtain ⟨u, run', zero⟩ := agreedRev4_linkRev
  obtain rfl : t = u := Host.Outcome.next.inj (run.symm.trans run')
  exact absurd (shown.symm.trans zero) (by decide)

end Sys2Proof.Machine
end

section
/-!
A replay buffer with a flit of more slots than a flit has places.
-/

namespace Sys2Proof.Machine

/-- Port U1 in `INIT`, about to replay a flit of four slots, where a flit holds three. -/
def fourSlotReplay : State :=
  (Tests.coreIn .service).setLink .u1 { lstate := .init, replayAt := some 0, buf := [⟨0, List.replicate 4 (.msgs []), false⟩] }

theorem fourSlotReplay_canon : fourSlotReplay.canon := Tests.canonOf (by decide +kernel)

/-- The flit sent is 336 bytes long. -/
theorem fourSlotReplay_sent :
    ∃ t, exec (.flitTransmit .u1) fourSlotReplay = .next t ∧ flitGood (t.link .u1).lastFlit = false :=
  ⟨_, rfl, by decide +kernel⟩

/-- Refutes O26: from the replay buffer of a canonical state a flit of four slots goes onto the lanes, which is no good flit. -/
theorem not_flitsRun : ¬ Obligations.FlitsRun := by
  unfold Obligations.FlitsRun
  intro h
  obtain ⟨-, -, -, -, -, -, transmit, -⟩ := h fourSlotReplay fourSlotReplay_canon
  obtain ⟨t, run, -, good, -, -⟩ := transmit .u1 (by decide)
  obtain ⟨u, run', bad⟩ := fourSlotReplay_sent
  obtain rfl : t = u := Host.Outcome.next.inj (run.symm.trans run')
  exact absurd (good.symm.trans bad) (by decide)

end Sys2Proof.Machine
end

section
/-!
`STILL_REQ` while a remote wake has still to be sent.
-/

namespace Sys2Proof.Machine

/-- Port U1 in `SERVICE` with nothing waiting but the message of a remote wake (R68). -/
def wakeStillDue : State :=
  ((Tests.coreIn .service).setLink .u1 { Tests.upLink with wakeDue := true }).setFlag (Fld.LNK_CFG.STILL_EN 1) true

theorem wakeStillDue_canon : wakeStillDue.canon := Tests.canonOf (by decide +kernel)

/-- The request is refused, and the port stays in `SERVICE`. -/
theorem wakeStillDue_refused :
    ∃ t, exec (.stillReq .u1) wakeStillDue = .next t ∧ (t.link .u1).lstate = .service := ⟨_, rfl, by decide +kernel⟩

/-- Refutes O27: the message of a remote wake that has still to be sent counts as traffic, so `STILL_REQ` is refused with reason 4
although the replay buffer, the queues, the notices, the events and the answers are all empty. -/
theorem not_stillAndMarginRun : ¬ Obligations.StillAndMarginRun := by
  unfold Obligations.StillAndMarginRun
  intro h
  obtain ⟨enters, -⟩ := h wakeStillDue wakeStillDue_canon
  obtain ⟨t, run, -, still⟩ := enters .u1 (by decide) (by decide) (by decide +kernel) (by decide) (by decide) (by decide)
    (by decide) (by decide +kernel) (by decide)
  obtain ⟨u, run', service⟩ := wakeStillDue_refused
  obtain rfl : t = u := Host.Outcome.next.inj (run.symm.trans run')
  rw [still] at service
  exact absurd service (by decide)

end Sys2Proof.Machine
end

section
/-!
What a retrain, a replay and a bad flit change of a port's registers, counter by counter (R58, R62, R63, R64, R70).
-/

set_option Elab.async false

namespace Sys2Proof.Machine

/-! ### Counters -/

/-- A counter field counts up by `n`, to its greatest value (R4). -/
theorem State.fld_bumpF_by (s : State) (f : Fld) (n : Nat) (h : f.hi < 32) : (s.bumpF f n).fld f = min f.max (s.fld f + n) := by
  have hp := Nat.two_pow_pos (f.hi + 1 - f.lo)
  rw [State.bumpF, State.fld_setFld _ _ _ h, Nat.mod_eq_of_lt]
  rw [Fld.max]
  omega

/-- A counter register counts up by `n`, to its greatest value (R4). -/
theorem State.fld_bump (s : State) (a n : Nat) : (s.bump a n).fld ⟨a, 31, 0⟩ = min 0xFFFFFFFF (s.fld ⟨a, 31, 0⟩ + n) :=
  State.fld_bumpF_by s ⟨a, 31, 0⟩ n (Nat.lt_succ_self 31)

/-! ### Frames -/

/-- The parts that a retrain of a port, and what causes one, may change (R63, R64, R70). -/
def retrainParts (p : Port) : List Part :=
  [.links, .reg (Reg.LNK_STATUS p.idx), .reg (Reg.LNK_RETRAINS p.idx), .reg (Reg.LNK_EVENT p.idx)]

theorem State.enterRetrain_keepsCounters (s : State) (p : Port) : Keeps (retrainParts p) s (s.enterRetrain p) := by
  unfold State.enterRetrain
  refine .after (State.bump_keeps _ _ _) (by cases p <;> decide) ?_
  refine .after (State.setFld_keeps _ _ _) (by cases p <;> decide) ?_
  exact (State.onLink_keeps _ _ _).mono (by cases p <;> decide)

theorem State.retrainCause_keepsCounters (s : State) (p : Port) : Keeps (retrainParts p) s (s.retrainCause p) := by
  unfold State.retrainCause
  refine .ite (.ite ?_ (State.enterRetrain_keepsCounters s p)) (.refl _ _)
  refine .after (State.setFld_keeps _ _ _) (by cases p <;> decide) ?_
  refine .after (State.setFld_keeps _ _ _) (by cases p <;> decide) ?_
  exact (State.setLink_keeps _ _ _).mono (by cases p <;> decide)

theorem State.startReplay_keepsCounters (s : State) (p : Port) :
    Keeps (.reg (Reg.LNK_REPLAYS p.idx) :: retrainParts p) s (s.startReplay p) := by
  have begun : Keeps (.reg (Reg.LNK_REPLAYS p.idx) :: retrainParts p) s
      ((s.setLink p { s.link p with replayAt := some 0, replays := (s.link p).replays + 1 }).bump (Reg.LNK_REPLAYS p.idx)) := by
    refine .after (State.bump_keeps _ _ _) (by cases p <;> decide) ?_
    exact (State.setLink_keeps _ _ _).mono (by cases p <;> decide)
  unfold State.startReplay
  refine .ite (.refl _ _) (.ite ?_ begun)
  exact .after (State.retrainCause_keepsCounters _ p) (by cases p <;> decide) begun

/-- Once a bad flit is counted, only the port, its margining run and its retrains change (R58, R63). -/
theorem State.badFlit_keepsCounters (s : State) (p : Port) :
    Keeps (.reg (Reg.LNK_MARGIN p.idx) :: retrainParts p) (s.bump (Reg.LNK_BADFLIT p.idx)) (s.badFlit p) := by
  have asked : Keeps (.reg (Reg.LNK_MARGIN p.idx) :: retrainParts p) (s.bump (Reg.LNK_BADFLIT p.idx))
      ((s.bump (Reg.LNK_BADFLIT p.idx)).onLink p LinkSt.requestNak) :=
    (State.onLink_keeps _ _ _).mono (by cases p <;> decide)
  unfold State.badFlit
  refine .ite ?_ (.ite ?_ ?_)
  · refine .after (State.bumpF_keeps _ _ _) (by cases p <;> decide) ?_
    exact .after (State.onLink_keeps _ _ _) (by cases p <;> decide) asked
  · refine .after (State.retrainCause_keepsCounters _ p) (by cases p <;> decide) ?_
    exact .after (State.onLink_keeps _ _ _) (by cases p <;> decide) asked
  · exact .after (State.onLink_keeps _ _ _) (by cases p <;> decide) asked

/-- The parts that the content of a good flit, its `ACK`, its `NAK` and its `PLN` may change (R60, R61). -/
def honourParts (p : Port) : List Part := .rx :: .reg (Reg.LNK_REPLAYS p.idx) :: retrainParts p ++ State.twinPln_parts

theorem State.honour_keepsCounters (s : State) (p : Port) (h : FlitHeader) : Keeps (honourParts p) s (s.honour p h) := by
  have acked : Keeps (honourParts p) s (if h.ackv then s.onLink p fun l => l.honourAck h.ack else s) :=
    .ite ((State.onLink_keeps _ _ _).mono (by cases p <;> decide)) (.refl _ _)
  have replayed (t : State) (k : Keeps (honourParts p) s t) :
      Keeps (honourParts p) s (if h.nak && (t.link p).lstate != .retrain then t.startReplay p else t) :=
    .ite (.after (State.startReplay_keepsCounters t p) (by cases p <;> decide) k) k
  unfold State.honour
  exact .ite (.after (State.twinPln_keeps _) (by cases p <;> decide) (replayed _ acked)) (replayed _ acked)

/-! ### The two counters of received flits -/

/-- The parts in which the counters of a port's bad flits and corrected bytes do not lie. -/
def sparesFlitCounts (P : List Part) (p : Port) : Bool :=
  !P.any (Part.covers · (.reg (Reg.LNK_BADFLIT p.idx))) && !P.any (Part.covers · (.reg (Reg.LNK_FECCORR p.idx)))

theorem Keeps.flitCounts {P : List Part} {s t : State} {p : Port} (k : Keeps P s t) (c : s.canon)
    (u : sparesFlitCounts P p = true) :
    t.fld ⟨Reg.LNK_BADFLIT p.idx, 31, 0⟩ = s.fld ⟨Reg.LNK_BADFLIT p.idx, 31, 0⟩ ∧
      t.fld ⟨Reg.LNK_FECCORR p.idx, 31, 0⟩ = s.fld ⟨Reg.LNK_FECCORR p.idx, 31, 0⟩ := by
  simp only [sparesFlitCounts, Bool.and_eq_true, Bool.not_eq_true'] at u
  exact ⟨k.fld c u.1, k.fld c u.2⟩

/-- A good flit leaves both counters (R58). -/
theorem State.goodFlit_honour_counts {s : State} (c : s.canon) (p : Port) (h : FlitHeader) (b : List Byte) :
    ((s.goodFlit p h b).honour p h).fld ⟨Reg.LNK_BADFLIT p.idx, 31, 0⟩ = s.fld ⟨Reg.LNK_BADFLIT p.idx, 31, 0⟩ ∧
      ((s.goodFlit p h b).honour p h).fld ⟨Reg.LNK_FECCORR p.idx, 31, 0⟩ = s.fld ⟨Reg.LNK_FECCORR p.idx, 31, 0⟩ :=
  Keeps.flitCounts (.after (State.honour_keepsCounters _ p h) (by cases p <;> decide)
    ((State.goodFlit_keeps s p h b).mono (P := honourParts p) (by cases p <;> decide))) c (by cases p <;> decide)

/-- A bad flit is counted once, and the count of corrected bytes stays (R58). -/
theorem State.badFlit_counts {s : State} (c : s.canon) (p : Port) :
    Counted (Reg.LNK_BADFLIT p.idx) s (s.badFlit p) ∧
      (s.badFlit p).fld ⟨Reg.LNK_FECCORR p.idx, 31, 0⟩ = s.fld ⟨Reg.LNK_FECCORR p.idx, 31, 0⟩ := by
  have bumped := State.bump_keeps s (Reg.LNK_BADFLIT p.idx) 1
  obtain ⟨bad, corr⟩ := Keeps.flitCounts (p := p) (State.badFlit_keepsCounters s p) (bumped.canon c) (by cases p <;> decide)
  exact ⟨bad.trans (State.fld_bump s _ 1), corr.trans (bumped.fld c (by cases p <;> decide))⟩

/-! ### A received flit -/

/-- The states of a port that judges what it receives (R58). -/
theorem execFlitReceived_judged {s : State} {p : Port} (bytes : List Byte)
    (h : (s.link p).lstate = .init ∨ (s.link p).lstate = .service ∨ (s.link p).lstate = .retrain) :
    execFlitReceived p bytes s = .next (
      let s := s.bump (Reg.LNK_FECCORR p.idx) (fecDecode bytes).2
      let h := headerOf (fecDecode bytes).1
      if flitGood (fecDecode bytes).1 && h.kind != 3 then (s.goodFlit p h (fecDecode bytes).1).honour p h else s.badFlit p) := by
  rcases h with h | h | h <;> simp only [execFlitReceived, h]

/-- A flit that stays bad after correction is only counted and asked for again. -/
theorem execFlitReceived_bad {s : State} {p : Port} {bytes : List Byte}
    (h : (s.link p).lstate = .init ∨ (s.link p).lstate = .service ∨ (s.link p).lstate = .retrain)
    (bad : flitGood (fecDecode bytes).1 = false) :
    execFlitReceived p bytes s = .next ((s.bump (Reg.LNK_FECCORR p.idx) (fecDecode bytes).2).badFlit p) := by
  rw [execFlitReceived_judged bytes h]
  simp only [bad, Bool.false_and, if_neg Bool.false_ne_true]

theorem execFlitReceived_good {s : State} {p : Port} {bytes : List Byte}
    (h : (s.link p).lstate = .init ∨ (s.link p).lstate = .service ∨ (s.link p).lstate = .retrain)
    (good : flitGood (fecDecode bytes).1 = true) (kind : (headerOf (fecDecode bytes).1).kind ≠ 3) :
    execFlitReceived p bytes s = .next (((s.bump (Reg.LNK_FECCORR p.idx) (fecDecode bytes).2).goodFlit p
      (headerOf (fecDecode bytes).1) (fecDecode bytes).1).honour p (headerOf (fecDecode bytes).1)) := by
  rw [execFlitReceived_judged bytes h]
  simp only [good, bne_iff_ne.2 kind, Bool.and_self, if_pos]

/-- In every other state a port receives nothing. -/
theorem execFlitReceived_unheard {s : State} {p : Port} (bytes : List Byte)
    (h : ¬ ((s.link p).lstate = .init ∨ (s.link p).lstate = .service ∨ (s.link p).lstate = .retrain)) :
    execFlitReceived p bytes s = .next s := by
  unfold execFlitReceived
  cases e : (s.link p).lstate <;> simp_all

/-- Settles O57: a bad flit runs the same way whatever it holds, and the counters follow from the frames of what a flit does. -/
theorem badFlitsUnused : Obligations.BadFlitsUnused := by
  unfold Obligations.BadFlitsUnused
  intro s canon
  refine ⟨fun p bytes state bad => ?_, fun p bytes state good kind => ?_, fun p bytes other bad bad' same => ?_⟩
  · have run := execFlitReceived_bad (bytes := bytes) (state.imp_right .inl) bad
    have corrected := State.bump_keeps s (Reg.LNK_FECCORR p.idx) (fecDecode bytes).2
    obtain ⟨counted, kept⟩ := State.badFlit_counts (corrected.canon canon) p
    refine Runs.intro (exec_keepsOut _ s) canon run rfl ⟨?_, kept.trans (State.fld_bump s _ _)⟩
    rw [Counted, corrected.fld canon (by cases p <;> decide)] at counted
    exact counted
  · have run := execFlitReceived_good (bytes := bytes) (state.imp_right .inl) good kind
    have corrected := State.bump_keeps s (Reg.LNK_FECCORR p.idx) (fecDecode bytes).2
    obtain ⟨kept, kept'⟩ := State.goodFlit_honour_counts (corrected.canon canon) p (headerOf (fecDecode bytes).1)
      (fecDecode bytes).1
    exact Runs.intro (exec_keepsOut _ s) canon run rfl
      ⟨kept.trans (corrected.fld canon (by cases p <;> decide)), kept'.trans (State.fld_bump s _ _)⟩
  · change execFlitReceived p bytes s = execFlitReceived p other s
    by_cases h : (s.link p).lstate = .init ∨ (s.link p).lstate = .service ∨ (s.link p).lstate = .retrain
    · rw [execFlitReceived_bad h bad, execFlitReceived_bad h bad', same]
    · rw [execFlitReceived_unheard bytes h, execFlitReceived_unheard other h]

end Sys2Proof.Machine
end

section
/-!
Words that hold fields side by side, read back field by field, and the host messages laid out in them (R80, R88, R90, R95).
-/

set_option Elab.async false

namespace Sys2Proof.Machine

/-! ### A number that holds fields, read as a word -/

theorem bitOf_lt (b : Bool) : bitOf b < 2 := by cases b <;> decide

/-- A field of a word is the one its number holds there. -/
theorem extractLsb'_ofNat_eq {n lo w N : Nat} {v : BitVec w} (fits : lo + w ≤ n) (h : N / 2 ^ lo % 2 ^ w = v.toNat) :
    (BitVec.ofNat n N).extractLsb' lo w = v := by
  apply BitVec.eq_of_toNat_eq
  rw [BitVec.extractLsb'_toNat, BitVec.toNat_ofNat, Nat.shiftRight_eq_div_pow, ← h, ← Nat.add_sub_of_le fits, Nat.add_assoc,
    Nat.pow_add, Nat.mod_mul_right_div_self, Nat.pow_add, Nat.mod_mul_right_mod]

/-- A flag of a word is the bit its number holds there. -/
theorem getLsbD_ofNat_eq {n i N : Nat} {b : Bool} (fits : i < n) (h : N / 2 ^ i % 2 = bitOf b) :
    (BitVec.ofNat n N).getLsbD i = b := by
  rw [BitVec.getLsbD_ofNat, decide_eq_true fits, Bool.true_and, Nat.testBit_eq_decide_div_mod_eq, h]
  cases b <;> rfl

/-- The number in some bits of a word is the one its number holds there. -/
theorem bitsOf_ofNat_eq {n hi lo N v : Nat} (fits : hi < n) (order : lo ≤ hi) (h : N / 2 ^ lo % 2 ^ (hi + 1 - lo) = v) :
    bitsOf (BitVec.ofNat n N) hi lo = v := by
  rw [bitsOf, BitVec.toNat_ofNat, Nat.shiftRight_eq_div_pow, ← h, ← Nat.add_sub_of_le (show hi + 1 ≤ n from fits),
    ← Nat.add_sub_of_le (show lo ≤ hi + 1 by omega), Nat.add_assoc, Nat.pow_add, Nat.mod_mul_right_div_self, Nat.pow_add,
    Nat.add_sub_cancel_left, Nat.mod_mul_right_mod]

/-! ### The host messages -/

section
variable {p : Port} {m : Msg} (ans : Bool) (hu : p ≠ .t)
include hu

/-- On a U-port a message with an opcode of the hosts' own is read by the host's table (R78). -/
theorem decodeMsg_host (used : bitsOf m 7 0 ≠ 0) (own : bitsOf m 7 0 < 0x20) : decodeMsg p ans m = some (decodeU p m) := by
  have isU : p.isT = false := by cases p <;> simp_all [Port.isT]
  unfold decodeMsg
  split <;> simp_all
end

/-- A host request reads back, whatever its opcode (R80). -/
theorem reqOf_msgOf {op : Nat} (hop : op < 256) (r : HostReq) :
    reqOf (msgOf [(op, 0), (r.tag.toNat, 8), (bitOf r.acc, 20), (r.stream.toNat, 32), (r.addr.toNat, 48)]) = r := by
  have hb := bitOf_lt r.acc
  have ht := r.tag.isLt
  have hs := r.stream.isLt
  have ha := r.addr.isLt
  obtain ⟨tag, acc, stream, addr⟩ := r
  simp only [reqOf, msgOf, List.foldl, Nat.shiftLeft_eq, HostReq.mk.injEq] at *
  exact ⟨extractLsb'_ofNat_eq (by decide) (by omega), getLsbD_ofNat_eq (by decide) (by omega),
    extractLsb'_ofNat_eq (by decide) (by omega), extractLsb'_ofNat_eq (by decide) (by omega)⟩

/-- The fields behind the opcode leave it (R78). -/
theorem opcode_msgOf {op : Nat} {fs : List (Nat × Nat)} (hop : op < 256) (behind : ∀ f ∈ fs, 8 ≤ f.2) :
    bitsOf (msgOf ((op, 0) :: fs)) 7 0 = op := by
  have low : ∀ (l : List (Nat × Nat)) (a : Nat), (∀ f ∈ l, 8 ≤ f.2) →
      l.foldl (fun a p => a + (p.1 <<< p.2)) a % 256 = a % 256 := by
    intro l
    induction l with
    | nil => exact fun _ _ => rfl
    | cons f l ih =>
      intro a h
      obtain ⟨k, hk⟩ := Nat.exists_eq_add_of_le (h f List.mem_cons_self)
      rw [List.foldl_cons, ih _ fun g hg => h g (List.mem_cons_of_mem _ hg), hk, Nat.shiftLeft_eq, Nat.pow_add, Nat.mul_left_comm]
      exact Nat.add_mul_mod_self_left ..
  refine bitsOf_ofNat_eq (by decide) (by decide) ?_
  rw [Nat.pow_zero, Nat.div_one]
  exact (low _ _ behind).trans (by simpa using hop)

/-- A register read reads back (R88). -/
theorem decodeU_mgtRead (p : Port) (mtag : BitVec 4) (addr : BitVec 24) :
    decodeU p (msgOf [(0x10, 0), (mtag.toNat, 8), (addr.toNat, 16)]) = .mgtRead p mtag addr := by
  have ht := mtag.isLt
  have ha := addr.isLt
  rw [decodeU, opcode_msgOf (by decide) (by simp)]
  simp only [msgOf, List.foldl, Nat.shiftLeft_eq]
  rw [extractLsb'_ofNat_eq (v := mtag) (by decide) (by omega), extractLsb'_ofNat_eq (v := addr) (by decide) (by omega)]

/-- A register write reads back (R88). -/
theorem decodeU_mgtWrite (p : Port) (mtag : BitVec 4) (addr : BitVec 24) (data : Word) :
    decodeU p (msgOf [(0x11, 0), (mtag.toNat, 8), (addr.toNat, 16), (data.toNat, 64)]) = .mgtWrite p mtag addr data := by
  have ht := mtag.isLt
  have ha := addr.isLt
  have hd := data.isLt
  rw [decodeU, opcode_msgOf (by decide) (by simp)]
  simp only [msgOf, List.foldl, Nat.shiftLeft_eq]
  rw [extractLsb'_ofNat_eq (v := mtag) (by decide) (by omega), extractLsb'_ofNat_eq (v := addr) (by decide) (by omega),
    extractLsb'_ofNat_eq (v := data) (by decide) (by omega)]

/-- A directive reads back as the command of its number (R90, R536). -/
theorem decodeU_directive (p : Port) (mtag : BitVec 4) (d : Byte) (epoch : Word) (arg : BitVec 64) :
    decodeU p (msgOf [(0x12, 0), (mtag.toNat, 8), (d.toNat, 16), (epoch.toNat, 32), (arg.toNat, 64)]) =
      directiveCommand ⟨p, mtag, epoch⟩ d arg := by
  have ht := mtag.isLt
  have hd := d.isLt
  have he := epoch.isLt
  have ha := arg.isLt
  rw [decodeU, opcode_msgOf (by decide) (by simp)]
  simp only [msgOf, List.foldl, Nat.shiftLeft_eq, directiveOf]
  rw [extractLsb'_ofNat_eq (v := mtag) (by decide) (by omega), extractLsb'_ofNat_eq (v := epoch) (by decide) (by omega),
    extractLsb'_ofNat_eq (v := arg) (by decide) (by omega),
    bitsOf_ofNat_eq (v := d.toNat) (by decide) (by decide) (by omega)]
  unfold directiveCommand
  split <;> simp_all

/-- A time beacon reads back (R95). -/
theorem decodeU_timeBeacon (p : Port) (sync : Bool) (offsetEpoch : BitVec 16) (timeNs : BitVec 64) :
    decodeU p (msgOf [(0x18, 0), (bitOf sync, 8), (offsetEpoch.toNat, 16), (timeNs.toNat, 32)]) =
      .timeBeacon p sync offsetEpoch timeNs := by
  have hb := bitOf_lt sync
  have ho := offsetEpoch.isLt
  have ht := timeNs.isLt
  rw [decodeU, opcode_msgOf (by decide) (by simp)]
  simp only [msgOf, List.foldl, Nat.shiftLeft_eq]
  rw [extractLsb'_ofNat_eq (v := offsetEpoch) (by decide) (by omega), extractLsb'_ofNat_eq (v := timeNs) (by decide) (by omega),
    getLsbD_ofNat_eq (b := sync) (by decide) (by omega)]

/-- Settles O10: each message has an opcode of the hosts' own, and its fields read back one by one. -/
theorem hostMessagesReadBack : Obligations.HostMessagesReadBack := by
  unfold Obligations.HostMessagesReadBack
  intro p ans
  refine ⟨rfl, fun hu => ⟨fun r => ?_, fun mtag addr => ?_, fun mtag addr data => ?_, fun mtag d epoch arg => ?_,
    fun sync offsetEpoch timeNs => ?_⟩⟩
  · have host {op : Nat} (h0 : op ≠ 0) (h1 : op < 0x20) := decodeMsg_host (m := msgOf [(op, 0), (r.tag.toNat, 8), (bitOf r.acc, 20),
      (r.stream.toNat, 32), (r.addr.toNat, 48)]) ans hu (by rwa [opcode_msgOf (by omega) (by simp)])
      (by rwa [opcode_msgOf (by omega) (by simp)])
    refine ⟨?_, ?_, ?_, ?_, ?_, ?_⟩ <;>
    · rw [host (by decide) (by decide), decodeU, opcode_msgOf (by decide) (by simp), reqOf_msgOf (by decide)]
      rfl
  · rw [decodeMsg_host ans hu, decodeU_mgtRead] <;> simp [opcode_msgOf]
  · rw [decodeMsg_host ans hu, decodeU_mgtWrite] <;> simp [opcode_msgOf]
  · rw [decodeMsg_host ans hu, decodeU_directive] <;> simp [opcode_msgOf]
  · rw [decodeMsg_host ans hu, decodeU_timeBeacon] <;> simp [opcode_msgOf]

end Sys2Proof.Machine
end

section
/-!
Flits read back: their header, their slots, and the checks behind them (R48 to R58).
-/

set_option Elab.async false

namespace Sys2Proof.Machine

/-! ### Bytes -/

theorem leBytes_mod_pow (n : Nat) : ∀ k, leBytes (n % 256 ^ k) k = leBytes n k
  | 0 => rfl
  | k + 1 => by
    rw [leBytes, leBytes, Nat.pow_succ', Nat.mod_mul_right_div_self, leBytes_mod_pow _ k]
    congr 1
    apply BitVec.eq_of_toNat_eq
    simp [BitVec.toNat_ofNat]

/-- The bytes of a number from byte `i` on are those of the number without its lower bytes. -/
theorem drop_leBytes (n : Nat) : ∀ k i, (leBytes n k).drop i = leBytes (n / 256 ^ i) (k - i)
  | _, 0 => by simp
  | 0, i + 1 => by simp [leBytes]
  | k + 1, i + 1 => by
    rw [leBytes, List.drop_succ_cons, drop_leBytes _ k i, Nat.div_div_eq_div_mul, ← Nat.pow_succ', Nat.succ_sub_succ]

theorem take_leBytes (n : Nat) : ∀ k i, (leBytes n k).take i = leBytes n (min i k)
  | _, 0 => by simp [leBytes]
  | 0, i + 1 => by simp [leBytes]
  | k + 1, i + 1 => by
    rw [leBytes, List.take_succ_cons, take_leBytes _ k i, Nat.succ_min_succ, leBytes]

theorem ofLeBytes_leBytes_mod (n k : Nat) : ofLeBytes (leBytes n k) = n % 256 ^ k := by
  rw [← leBytes_mod_pow, ofLeBytes_leBytes k _ (Nat.mod_lt _ (by positivity))]

/-- `k` bytes of a number, from byte `i` on (R2). -/
theorem ofLeBytes_leBytes_part {n k i j : Nat} (h : i + j ≤ k) :
    ofLeBytes (((leBytes n k).drop i).take j) = n / 256 ^ i % 256 ^ j := by
  rw [drop_leBytes, take_leBytes, Nat.min_eq_left (by omega), ofLeBytes_leBytes_mod]

/-! ### The header -/

/-- A flit header reads back, whatever follows it (R50). -/
theorem headerOf_headerBytes (h : FlitHeader) (rest : List Byte) : headerOf (headerBytes h ++ rest) = h := by
  have hk := h.kind.isLt
  have hm := h.slotMap.isLt
  have hp := bitOf_lt h.pln
  have hr := bitOf_lt h.replay
  have hv := bitOf_lt h.ackv
  have hs := h.seq.isLt
  have ha := h.ack.isLt
  have hn := bitOf_lt h.nak
  obtain ⟨kind, slotMap, pln, replay, ackv, seq, ack, nak⟩ := h
  simp only at *
  rw [headerOf, headerBytes, List.take_left' (length_leBytes _ 4)]
  simp only [Nat.shiftLeft_eq]
  rw [ofLeBytes_leBytes 4 _ (by omega)]
  simp only [FlitHeader.mk.injEq]
  exact ⟨extractLsb'_ofNat_eq (by decide) (by omega), extractLsb'_ofNat_eq (by decide) (by omega),
    getLsbD_ofNat_eq (by decide) (by omega), getLsbD_ofNat_eq (by decide) (by omega), getLsbD_ofNat_eq (by decide) (by omega),
    extractLsb'_ofNat_eq (by decide) (by omega), extractLsb'_ofNat_eq (by decide) (by omega),
    getLsbD_ofNat_eq (by decide) (by omega)⟩

@[simp] theorem length_headerBytes (h : FlitHeader) : (headerBytes h).length = 4 := length_leBytes _ 4

/-! ### Slots -/

@[simp] theorem length_slotBytes (d : DataSlot) : (slotBytes d).length = 80 := by
  simp [slotBytes, length_leBytes]

@[simp] theorem Slot.length_bytes (a : Slot) : a.bytes.length = 80 := by
  cases a with
  | data d => exact length_slotBytes d
  | msgs l => exact length_leBytes _ 80

/-- A data slot reads back (R52). -/
theorem slotOfBytes_slotBytes (d : DataSlot) : slotOfBytes (slotBytes d) = d := by
  have hl := d.line.isLt
  have hc := d.lseal.isLt
  have ht := d.tag.isLt
  have hf := d.form.isLt
  have hp := bitOf_lt d.poison
  have hs := d.stream.isLt
  have he := d.ext.isLt
  have line : ofLeBytes ((slotBytes d).take 64) = d.line.toNat := by
    rw [slotBytes, List.append_assoc, List.take_left' (length_leBytes _ 64), ofLeBytes_leBytes 64 _ (by omega)]
  have check : ofLeBytes (((slotBytes d).drop 64).take 4) = d.lseal.toNat := by
    rw [slotBytes, List.append_assoc, List.drop_left' (length_leBytes _ 64), List.take_left' (length_leBytes _ 4),
      ofLeBytes_leBytes 4 _ (by omega)]
  have rest : ofLeBytes ((slotBytes d).drop 68) =
      d.tag.toNat + (d.form.toNat <<< 12) + (bitOf d.poison <<< 15) + (d.stream.toNat <<< 16) + (d.ext.toNat <<< 32) := by
    rw [slotBytes, List.drop_left' (by simp [length_leBytes]), ofLeBytes_leBytes 12 _ (by simp only [Nat.shiftLeft_eq]; omega)]
  obtain ⟨dline, dseal, tag, form, poison, stream, ext⟩ := d
  rw [slotOfBytes, line, check, rest]
  simp only [Nat.shiftLeft_eq, DataSlot.mk.injEq, BitVec.ofNat_toNat, BitVec.setWidth_eq] at *
  exact ⟨trivial, trivial, extractLsb'_ofNat_eq (by decide) (by omega), extractLsb'_ofNat_eq (by decide) (by omega),
    getLsbD_ofNat_eq (by decide) (by omega), extractLsb'_ofNat_eq (by decide) (by omega),
    extractLsb'_ofNat_eq (by decide) (by omega)⟩

/-- A slot of data (R50). -/
def Slot.isData : Slot → Bool
  | .data _ => true
  | .msgs _ => false

/-- A slot that fills its 80 bytes: a data slot, or five messages (R48). -/
def Slot.isFull : Slot → Bool
  | .data _ => true
  | .msgs l => l.length == 5

theorem slotMapOf_getLsbD (a b c : Slot) :
    (slotMapOf [a, b, c]).getLsbD 0 = a.isData ∧ (slotMapOf [a, b, c]).getLsbD 1 = b.isData ∧
      (slotMapOf [a, b, c]).getLsbD 2 = c.isData := by
  have map : slotMapOf [a, b, c] = BitVec.ofNat 3 (bitOf a.isData + bitOf b.isData * 2 + bitOf c.isData * 4) := by
    cases a <;> cases b <;> cases c <;> rfl
  have ha := bitOf_lt a.isData
  have hb := bitOf_lt b.isData
  have hc := bitOf_lt c.isData
  rw [map]
  exact ⟨getLsbD_ofNat_eq (by decide) (by omega), getLsbD_ofNat_eq (by decide) (by omega),
    getLsbD_ofNat_eq (by decide) (by omega)⟩

/-- Values of `w` bits laid side by side are the digits of their sum. -/
theorem foldl_shift_eq_ofDigits (w : Nat) (x : Nat → Nat) (n : Nat) :
    (List.range n).foldl (fun a k => a + (x k <<< (w * k))) 0 = Nat.ofDigits (2 ^ w) ((List.range n).map x) := by
  induction n with
  | zero => rfl
  | succ n ih =>
    rw [List.range_succ, List.foldl_append, ih, List.map_append, Nat.ofDigits_append, List.length_map, List.length_range]
    simp [Nat.shiftLeft_eq, Nat.pow_mul, Nat.mul_comm]

/-- Each of them reads back. -/
theorem foldl_shift_field {w n j : Nat} {x : Nat → Nat} (small : ∀ k, x k < 2 ^ w) (hj : j < n) :
    (List.range n).foldl (fun a k => a + (x k <<< (w * k))) 0 / 2 ^ (w * j) % 2 ^ w = x j := by
  have digits : ∀ d ∈ (List.range n).map x, d < 2 ^ w := by
    intro d hd
    obtain ⟨k, -, rfl⟩ := List.mem_map.1 hd
    exact small k
  rw [foldl_shift_eq_ofDigits, Nat.pow_mul, Nat.ofDigits_div_pow_eq_ofDigits_drop j (Nat.two_pow_pos w) _ digits,
    List.drop_eq_getElem_cons (by simpa using hj), Nat.ofDigits_cons, Nat.add_mul_mod_self_left, List.getElem_map,
    List.getElem_range, Nat.mod_eq_of_lt (small j)]

/-- The five messages of a slot, read back (R54). -/
theorem msgs_slotBytes {l : List Msg} (full : l.length = 5) :
    ((List.range 5).map fun j => BitVec.ofNat 128 (ofLeBytes (((Slot.msgs l).bytes.drop (16 * j)).take 16))) = l := by
  refine List.ext_getElem (by simp [full]) fun j _ hl => ?_
  have here : j < 5 := by omega
  have bytes (n : Nat) : 256 ^ n = 2 ^ (8 * n) := by rw [Nat.pow_mul]
  apply BitVec.eq_of_toNat_eq
  rw [List.getElem_map, List.getElem_range, Slot.bytes, ofLeBytes_leBytes_part (by omega), bytes, bytes, ← Nat.mul_assoc,
    foldl_shift_field (fun k => (l.getD k 0).isLt) here, BitVec.toNat_ofNat, Nat.mod_eq_of_lt (l.getD j 0).isLt,
    List.getD_eq_getElem _ _ hl]

/-- A slot that `SLOTMAP` tells rightly reads back from its bytes (R48, R50). -/
theorem slotAt_eq {h : FlitHeader} {b : List Byte} {k : Nat} {a : Slot} (bytes : (b.drop (4 + 80 * k)).take 80 = a.bytes)
    (map : h.slotMap.getLsbD k = a.isData) (full : a.isFull = true) : slotAt h b k = a := by
  rw [slotAt, bytes, map]
  cases a with
  | data d => exact congrArg Slot.data (slotOfBytes_slotBytes d)
  | msgs l => exact congrArg Slot.msgs (msgs_slotBytes (by simpa [Slot.isFull] using full))

/-! ### The checks -/

/-- Sealed bytes begin with the bytes themselves and hold their CRC-48 behind them (R56, R57). -/
theorem flitSeal_eq (b : List Byte) :
    ∃ fec : List Byte, fec.length = 6 ∧ flitSeal b = b ++ (leBytes (crc48 b).toNat 6 ++ fec) :=
  ⟨_, rfl, List.append_assoc ..⟩

/-- Settles O11: each part of a flit reads back by the rule of its layout. -/
theorem flitsReadBack : Obligations.FlitsReadBack := by
  refine ⟨headerOf_headerBytes, slotOfBytes_slotBytes, fun h a b c rest full map => ?_, fun b len => ?_⟩
  · obtain ⟨ma, mb, mc⟩ := slotMapOf_getLsbD a b c
    rw [← map] at ma mb mc
    obtain ⟨fa, fb, fc⟩ : a.isFull = true ∧ b.isFull = true ∧ c.isFull = true := by
      simp only [List.all_cons, List.all_nil, Bool.and_true, Bool.and_eq_true] at full
      exact full
    refine ⟨slotAt_eq ?_ ma fa, slotAt_eq ?_ mb fb, slotAt_eq ?_ mc fc⟩
    · rw [List.append_assoc, List.append_assoc, List.append_assoc, List.drop_left' (by simp), List.take_left' (by simp)]
    · rw [List.append_assoc, List.append_assoc, List.drop_left' (by simp), List.take_left' (by simp)]
    · rw [List.append_assoc, List.drop_left' (by simp), List.take_left' (by simp)]
  · obtain ⟨fec, hfec, sealed⟩ := flitSeal_eq b
    have crc := (crc48 b).isLt
    have long : (flitSeal b).length = 256 := by simp [sealed, len, hfec, length_leBytes]
    have begins : (flitSeal b).take 244 = b := by rw [sealed, List.take_left' len]
    have check : ofLeBytes (((flitSeal b).drop 244).take 6) = (crc48 b).toNat := by
      rw [sealed, List.drop_left' len, List.take_left' (length_leBytes _ 6), ofLeBytes_leBytes 6 _ (by omega)]
    exact ⟨by rw [flitGood, long, check, begins]; simp, long, begins⟩

end Sys2Proof.Machine
end

section
/-!
What the fall of T leaves of every port, and of the log (R64, R66, R179, R190, R195): no work of the line path or of the mirror agent
changes a link's state or its failed attempts, nor does the log lose an event for it.
-/

set_option Elab.async false

namespace Sys2Proof.Machine

/-! ### The relation -/

/-- What stands of a port while it is sent to and credits are owed to it: its state, and what its failed attempts set (R64). -/
def LinkSt.standing (l : LinkSt) : LinkState × Nat × Bool := (l.lstate, l.attempts, l.longWait)

/-- From `s` to `t` every link stands, and so does what the log has still to write. -/
def Steady (s t : State) : Prop :=
  s.canon → t.canon ∧ (∀ q, (t.link q).standing = (s.link q).standing) ∧ s.log.Holds t.log

theorem Steady.refl (s : State) : Steady s s := fun c => ⟨c, fun _ => rfl, .refl _⟩

theorem Steady.trans {a b c : State} (h : Steady a b) (k : Steady b c) : Steady a c := fun ca => by
  obtain ⟨cb, links, log⟩ := h ca
  obtain ⟨cc, links', log'⟩ := k cb
  exact ⟨cc, fun q => (links' q).trans (links q), log.trans log'⟩

/-- One more operation at the end of a run of them. -/
theorem Steady.via {a b c : State} (k : Steady b c) (h : Steady a b) : Steady a c := h.trans k

theorem Steady.ite {p : Prop} [Decidable p] {a x y : State} (h : Steady a x) (k : Steady a y) : Steady a (if p then x else y) := by
  split <;> assumption

theorem Steady.foldl {α : Type} (l : List α) (f : State → α → State) (h : ∀ t x, Steady t (f t x)) (s : State) :
    Steady s (l.foldl f s) := by
  induction l generalizing s with
  | nil => exact .refl s
  | cons x r ih => exact (h s x).trans (ih _)

/-- An operation in whose frame no port lies, and that keeps what the log holds. -/
theorem Steady.of_log {P : List Part} {s t : State} (k : Keeps P s t) (h : P.any (Part.covers · .links) = false)
    (log : s.canon → s.log.Holds t.log) : Steady s t := fun c => by
  have links : t.links = s.links := k.same c .links h
  exact ⟨k.canon c, fun q => by rw [State.link, links, State.link], log c⟩

/-- An operation in whose frame neither a port nor the log lies. -/
theorem Steady.apart {P : List Part} {s t : State} (k : Keeps P s t)
    (h : (P.any (Part.covers · .links) || P.any (Part.covers · .log)) = false) : Steady s t := by
  rw [Bool.or_eq_false_iff] at h
  refine .of_log k h.1 fun c => ?_
  have log : t.log = s.log := k.same c .log h.2
  exact log ▸ .refl _

theorem State.event_steady (s : State) (code : BitVec 16) (data : Nat) : Steady s (s.event code data) :=
  .of_log (s.event_keeps code data) rfl fun _ => s.capture_holds code _ _

/-! ### Ports -/

theorem State.setLink_steady (s : State) (p : Port) {l : LinkSt} (h : l.standing = (s.link p).standing) : Steady s (s.setLink p l) :=
  fun c => by
    refine ⟨(State.setLink_keeps s p l).canon c, fun q => ?_, .refl _⟩
    by_cases e : q = p
    · rw [e, State.link_setLink, h]
    · rw [State.link_setLink_other s l e]

theorem State.onLink_steady (s : State) (p : Port) {f : LinkSt → LinkSt} (h : ∀ l, (f l).standing = l.standing) :
    Steady s (s.onLink p f) := s.setLink_steady p (h _)

theorem State.send_steady (s : State) (p : Port) (m : Msg) : Steady s (s.send p m) :=
  .ite (s.onLink_steady p fun _ => rfl) (.refl s)

theorem State.sendOwing_steady (s : State) (p : Port) (m : Msg) (r : Credits) (pool : Option Nat) :
    Steady s (s.sendOwing p m r pool) := .ite (s.onLink_steady p fun _ => rfl) (.refl s)

theorem State.creditNow_steady (s : State) (p : Port) : Steady s (s.creditNow p) := by
  unfold State.creditNow
  exact .ite (.via (State.send_steady _ _ _) (s.setLink_steady p rfl)) (.refl s)

theorem State.owe_steady (s : State) (p : Port) (r : Credits) : Steady s (s.owe p r) := by
  have owed : Steady s (s.onLink p fun l => { l with owed := l.owed.add r }) := s.onLink_steady p fun _ => rfl
  unfold State.owe
  exact .ite (.ite (.via (State.creditNow_steady _ p) owed) owed) (.refl s)

theorem State.beat_steady (s : State) : Steady s s.beat := by
  unfold State.beat
  exact .via (State.send_steady _ _ _) (.apart (Keeps.upd_twin s _) rfl)

theorem State.heartbeat_steady (s : State) : Steady s s.heartbeat := .ite s.beat_steady (.refl s)

theorem State.beatFirst_steady (s : State) : Steady s s.beatFirst := .ite (.refl s) s.beat_steady

/-! ### The pool and Return -/

theorem State.onEntry_steady (s : State) (i : Nat) (f : PoolEntry → PoolEntry) : Steady s (s.onEntry i f) :=
  .apart (State.onEntry_keeps s i f) rfl

theorem State.freeEntry_steady (s : State) (i : Nat) : Steady s (s.freeEntry i) := by
  unfold State.freeEntry
  split
  · exact .refl s
  · have freed : Steady s (s.setEntry i none) := .apart (State.setEntry_keeps s i _) rfl
    exact .ite (.via (State.owe_steady _ _ _) freed) freed

theorem State.tryFree_steady (s : State) (i : Nat) : Steady s (s.tryFree i) := by
  rcases s.tryFree_cases i with e | e <;> rw [e]
  · exact .refl s
  · exact s.freeEntry_steady i

theorem State.dropRead_steady (s : State) (i : Nat) (e : PoolEntry) : Steady s (s.dropRead i e) := by
  unfold State.dropRead
  exact .via (State.owe_steady _ _ _) (.via (.apart (Keeps.upd_ord _ _) rfl) (s.freeEntry_steady i))

theorem State.toReturn_steady (s : State) (orphan : Bool) (it : RetItem) : Steady s (s.toReturn orphan it) := by
  unfold State.toReturn
  refine .ite ?_ (.apart (Keeps.upd_ord _ _) rfl)
  split
  · split
    · split
      · exact s.dropRead_steady _ _
      · exact s.freeEntry_steady _
      · exact .via (State.tryFree_steady _ _) (s.onEntry_steady _ _)
    · exact .refl s
  · exact .refl s

theorem State.readData_steady (s : State) (i : Nat) (e : PoolEntry) (line : Line) (corr : Nat) (poison : Bool) :
    Steady s (s.readData i e line corr poison) := by
  unfold State.readData
  exact .via (State.toReturn_steady _ _ _) (s.onEntry_steady _ _)

theorem State.rejectRead_steady (s : State) (i : Nat) (e : PoolEntry) (reason : Byte) : Steady s (s.rejectRead i e reason) := by
  unfold State.rejectRead
  exact .via (State.toReturn_steady _ _ _) (s.onEntry_steady _ _)

theorem State.toSchedule_steady (s : State) (i : Nat) : Steady s (s.toSchedule i) := .apart (s.toSchedule_keeps i) rfl

/-! ### Completions whose place has come (R126, R129) -/

theorem State.complete_steady (s : State) (orphan : Bool) (p : Port) (tag : BitVec 12) (kind : BitVec 3) (nodur final : Bool)
    (pool : Option Nat) : Steady s (s.complete orphan p tag kind nodur final pool) := s.toReturn_steady orphan _

theorem State.buildHead_steady (s : State) (sid : Nat) {t : State} (h : s.buildHead sid = some t) : Steady s t := by
  have left : Steady s (s.leaveStream sid) := .apart (s.leaveStream_keeps sid) rfl
  unfold State.buildHead at h
  extract_lets r at h
  split at h
  · exact nomatch h
  split at h
  · exact nomatch h
  split at h
  · split at h
    · obtain rfl := Option.some.inj h
      exact .via (State.complete_steady _ _ _ _ _ _ _ _)
        (.via (State.onEntry_steady _ _ _) (.via (.apart (State.bump_keeps _ _ _) rfl) left))
    · exact nomatch h
  · split at h
    · obtain rfl := Option.some.inj h
      exact .via (State.complete_steady _ _ _ _ _ _ _ _) (.via (State.onEntry_steady _ _ _) left)
    · exact nomatch h

theorem State.buildStream_steady (sid n : Nat) (s : State) : Steady s (State.buildStream sid n s) := by
  induction n generalizing s with
  | zero => exact .refl s
  | succ n ih =>
    rw [State.buildStream]
    split
    · next h => exact (s.buildHead_steady sid h).trans (ih _)
    · exact .refl s

theorem State.settle_steady (s : State) : Steady s s.settle := by
  unfold State.settle State.buildAll
  refine .via (.foldl _ _ (fun t x => State.buildStream_steady _ _ t) _) (.via (.apart (Keeps.upd_ord _ _) rfl) ?_)
  exact .ite (.apart (State.mapPool_keeps s _) rfl) (.refl s)

/-! ### How a read ends (R133, R134, R189, R190) -/

theorem State.mergeInto_steady (s : State) (i : Nat) (old : Line) (k : PoisonKind) : Steady s (s.mergeInto i old k) :=
  .of_log (s.mergeInto_keeps i old k) rfl (Calm.holds (C := fun _ => True) (s.mergeInto_calm trivial i old k))

theorem State.checkSeal_steady (s : State) (code : Nat) (e : PoolEntry) : Steady s (s.checkSeal code e) :=
  .of_log (s.checkSeal_keeps code e) rfl (Calm.holds (C := fun _ => True) (s.checkSeal_calm trivial code e))

theorem State.giveTag_steady (s : State) (i : Nat) : Steady s (s.giveTag i) := by
  unfold State.giveTag
  split
  · split
    · exact s.onEntry_steady _ _
    · split
      · unfold State.askTwin State.setRepair
        exact .via (State.send_steady _ _ _) (.via (.apart (Keeps.upd_mir _ _) rfl)
          (.via (State.onEntry_steady _ _ _) (.apart (Keeps.upd_mir s _) rfl)))
      · exact .refl s
  · exact .refl s

theorem State.answerTwin_steady (s : State) (i : Nat) (e : PoolEntry) (line : Line) (k : PoisonKind) :
    Steady s (s.answerTwin i e line k) := by
  unfold State.answerTwin
  refine .ite (s.freeEntry_steady i) (.ite (.via (State.sendOwing_steady _ _ _ _ _) (s.onEntry_steady _ _)) ?_)
  refine .via (State.onLink_steady _ _ fun _ => rfl) (.via (.apart (State.noteTaken_keeps _ _) rfl) ?_)
  exact .via (State.beatFirst_steady _) (s.onEntry_steady i _)

theorem State.agentServed_steady (s : State) (i : Nat) (e : PoolEntry) (line : Line) (k : PoisonKind) :
    Steady s (s.agentServed i e line k) := by
  have queued (q : AgentReq) : Steady (s.freeEntry i) ((s.freeEntry i).queueAgent q) := .apart (State.queueAgent_keeps _ q) rfl
  unfold State.agentServed
  exact .via (.ite (.ite (queued _) (.refl _)) (.ite (.refl _) (queued _))) (s.freeEntry_steady i)

theorem State.damaged_steady (s : State) (i : Nat) (e : PoolEntry) (line : Line) : Steady s (s.damaged i e line) := by
  unfold State.damaged
  split
  · exact s.answerTwin_steady _ _ _ _
  · exact .ite (.via (State.giveTag_steady _ _) (s.onEntry_steady _ _))
      (.ite (s.mergeInto_steady _ _ _) (s.readData_steady _ _ _ _ _))

theorem State.served_steady (s : State) (i : Nat) (line : Line) (k : PoisonKind) (corr : Nat) :
    Steady s (s.served i line k corr) := by
  unfold State.served
  split
  · refine .ite (s.agentServed_steady _ _ _ _) ?_
    split
    · exact s.damaged_steady _ _ _
    · split
      · exact s.answerTwin_steady _ _ _ _
      · exact s.readData_steady _ _ _ _ _
      · exact .ite (s.mergeInto_steady _ _ _) (.refl s)
  · exact .refl s

theorem State.forward_steady (s : State) (i j : Nat) : Steady s (s.forward i j) := by
  unfold State.forward
  split
  · exact .via (State.served_steady _ _ _ _ _) (.via (.apart (State.bump_keeps _ _ _) rfl) (s.checkSeal_steady _ _))
  · exact .refl s

theorem State.lookForLine_steady (s : State) (i : Nat) : Steady s (s.lookForLine i).1 := by
  unfold State.lookForLine
  split
  · split
    · split
      · split
        · exact .via (.apart (State.bump_keeps _ _ _) rfl) (s.onEntry_steady _ _)
        · exact s.forward_steady _ _
      · exact .refl s
    · exact .refl s
  · exact .refl s

theorem State.release_steady (n j : Nat) (s : State) : Steady s (State.release n j s) := by
  induction n generalizing j s with
  | zero => exact .refl s
  | succ n ih =>
    rw [State.release]
    split
    · exact .ite (.refl s) (.foldl _ _ (fun t i => .via (ih _ _) (.via (State.forward_steady _ _ _) (t.onEntry_steady _ _))) s)
    · exact .refl s

/-- A read of the twin's that ends: a forwarded one without data (R190). -/
theorem State.fwdMiss_steady (s : State) (i miss : Nat) (poisoned : Bool) : Steady s (s.fwdMiss i miss poisoned) := by
  unfold State.fwdMiss
  split
  · have counted : Steady s ((s.bump Reg.MIR_FWDMISS).event 0x4040 miss) :=
      .via (State.event_steady _ _ _) (.apart (State.bump_keeps _ _ _) rfl)
    exact .ite (.via (State.readData_steady _ _ _ _ _ _) counted) (.via (State.rejectRead_steady _ _ _ _) counted)
  · exact .refl s

/-- What a read does once it need not wait for the twin: the merge of a masked write, or its data as found. -/
theorem State.foundEnds_steady (s : State) (i : Nat) (e : PoolEntry) :
    Steady s (if e.merging then State.release s.ord.pool.length i (s.mergeInto i e.found .locally)
      else s.readData i e e.found 0 true) :=
  .ite (.via (State.release_steady _ _ _) (s.mergeInto_steady _ _ _)) (s.readData_steady _ _ _ _ _)

theorem State.repairMissed_steady (s : State) (addr miss : Nat) : Steady s (s.repairMissed addr miss) := s.event_steady _ _

theorem State.scrubLost_steady (s : State) (addr found : Nat) : Steady s (s.scrubLost addr found) := s.event_steady _ _

theorem State.repairEnds_steady (s : State) (t miss : Nat) : Steady s (s.repairEnds t miss) := by
  have missed (u : State) (addr : Nat) : Steady u ((u.bumpF Fld.ECC_REPAIR.MISS).repairMissed addr miss) :=
    .via (State.repairMissed_steady _ _ _) (.apart (State.bumpF_keeps u _ _) rfl)
  unfold State.repairEnds
  refine .via (.foldl _ _ (fun u r => .via (State.scrubLost_steady _ _ _) (missed u _)) _) (.via (.apart (Keeps.upd_mir _ _) rfl) ?_)
  refine .foldl _ _ (fun u i => ?_) s
  split
  · refine .ite (u.fwdMiss_steady _ _ _) ?_
    exact .via (State.foundEnds_steady _ _ _) (.via (State.onEntry_steady _ _ _) (missed u _))
  · exact .refl u

/-! ### The hub's own agents (R36, R161, R220) -/

theorem State.startWrite_steady (s : State) (i : Nat) (forked : Bool) : Steady s (s.startWrite i forked) := by
  unfold State.startWrite
  split
  · extract_lets x
    have hx : Steady s x := .ite (s.lookForLine_steady i) (.ite (.apart (State.bump_keeps _ _ _) rfl) (.refl s))
    exact .ite hx (.via (State.toSchedule_steady _ _) hx)
  · exact .refl s

theorem State.startAgent_steady (s : State) (i : Nat) : Steady s (s.startAgent i) := by
  unfold State.startAgent
  split
  · refine .ite (s.startWrite_steady i false) ?_
    exact .trans (s.lookForLine_steady i) (.ite (State.toSchedule_steady _ _) (.refl _))
  · exact .refl s

theorem State.pumpAgents_steady (n : Nat) (s : State) : Steady s (State.pumpAgents n s) := by
  induction n generalizing s with
  | zero => exact .refl s
  | succ n ih =>
    rw [State.pumpAgents]
    split
    · exact .refl s
    · exact .ite (.via (ih _) (.via (State.startAgent_steady _ _)
        (.via (.apart (Keeps.upd_ord _ _) rfl) (.apart (State.setEntry_keeps s _ _) rfl)))) (.refl s)

theorem State.agentAsk_steady (s : State) (qs : List AgentReq) : Steady s (s.agentAsk qs) := by
  unfold State.agentAsk
  exact .ite (.refl s) (.via (State.pumpAgents_steady _ _) (.apart (Keeps.upd_ord s _) rfl))

theorem State.mark_steady (s : State) (g : Nat) : Steady s (s.mark g) := by
  unfold State.mark
  refine .ite (.refl s) ?_
  extract_lets -lift -merge -useContext -underBinder +onlyGivenNames m x
  have hx : Steady s x := .apart (Keeps.upd_mir s _) rfl
  refine .ite (.via (.apart (Keeps.upd_mir _ _) rfl) hx) ?_
  extract_lets -lift -merge -useContext -underBinder +onlyGivenNames y a l
  clear_value l a
  exact .via (State.agentAsk_steady _ _) (.via (.apart (State.cacheLine_keeps _ _) rfl) hx)

theorem State.writeRecord_steady (s : State) (ps : PairState) : Steady s (s.writeRecord ps) := by
  unfold State.writeRecord
  refine .ite (.refl s) ?_
  extract_lets -lift -merge -useContext -underBinder +onlyGivenNames m x l
  clear_value l
  have hx : Steady s x := .apart (Keeps.upd_mir s _) rfl
  exact .via (State.agentAsk_steady _ _) (.via (.apart (Keeps.upd_mir _ _) rfl) hx)

/-! ### Membership (R195, R204, R208, R212) -/

theorem State.setPair_steady (s : State) (ps : PairState) : Steady s (s.setPair ps) := by
  unfold State.setPair
  refine .via (State.heartbeat_steady _) (.via (State.writeRecord_steady _ _) (.via (.foldl _ _ (fun t p => ?_) _) ?_))
  · exact .ite (t.onLink_steady p fun _ => rfl) (.refl t)
  · exact .via (.apart (State.setFld_keeps _ _ _) rfl) (.apart (Keeps.upd_mir s _) rfl)

theorem State.abandonHandover_steady (s : State) (h : Handover) : Steady s (s.abandonHandover h) := by
  unfold State.abandonHandover State.endHandover
  exact .via (State.event_steady _ _ _) (.via (.apart (State.countHandover_keeps _ _ _) rfl) (.apart (s.setRt_keeps _ _) rfl))

theorem State.abandonAll_steady (s : State) : Steady s s.abandonAll := .foldl _ _ (fun t h => t.abandonHandover_steady h) s

theorem State.dropDrains_steady (s : State) : Steady s s.dropDrains := .foldl _ _ (fun t h => t.abandonHandover_steady h) s

theorem State.closePend_steady (s : State) : Steady s s.closePend := by
  unfold State.closePend
  refine .via (.foldl _ _ (fun t e => ?_) _) (.apart (Keeps.upd_mir s _) rfl)
  dsimp only
  split
  · exact .via (State.owe_steady _ _ _) (t.mark_steady _)
  · exact t.mark_steady _

theorem State.dropBacklog_steady (s : State) (unresolved : Bool) : Steady s (s.dropBacklog unresolved) := by
  unfold State.dropBacklog
  refine .via (.foldl _ _ (fun t i => ?_) _) (.apart (Keeps.upd_ord s _) rfl)
  split
  · refine .via (State.toSchedule_steady _ _) (.via (State.onEntry_steady _ _ _) (.via (.apart (State.noteHigh_keeps _ _ _) rfl) ?_))
    refine .trans (t.mark_steady _) (.ite (.apart (Keeps.upd_mir _ _) rfl) ?_)
    split
    · exact State.owe_steady _ _ _
    · exact .refl _
  · exact .refl t

theorem State.enterSolo_steady (s : State) : Steady s s.enterSolo := by
  unfold State.enterSolo
  refine .via (State.settle_steady _) (.via (.apart (State.clearCause_keeps _) rfl) (.via (State.dropBacklog_steady _ _) ?_))
  refine .via (State.closePend_steady _) (.via (State.setPair_steady _ _) ?_)
  exact .via (.apart (Keeps.upd_mir _ _) rfl) s.abandonAll_steady

theorem State.raiseCause_steady (s : State) (code : Nat) : Steady s (s.raiseCause code) := by
  have raised (t : State) : Steady t ((t.setFld Fld.MIR_CAUSE.FIRST code).event 0x4010 code) :=
    .via (State.event_steady _ _ _) (.apart (State.setFld_keeps t _ _) rfl)
  have alone (t : State) : Steady t ((t.event 0x4053 2).abandonAll.endSession.convertSolo).enterSolo :=
    .via (State.enterSolo_steady _) (.via (.apart (State.convertSolo_keeps _) rfl) (.via (.apart (State.endSession_keeps _) rfl)
      (.via (State.abandonAll_steady _) (t.event_steady _ _))))
  have ended (t : State) : Steady t (t.event 0x4053 2).endSession :=
    .via (.apart (State.endSession_keeps _) rfl) (t.event_steady _ _)
  unfold State.raiseCause
  split
  on_goal 4 => exact .refl s
  all_goals
    refine .ite (.refl s) (.trans s.dropDrains_steady (.ite (.apart (State.bumpF_keeps _ _ _) rfl) (.trans (raised _) ?_)))
    dsimp only
    split
    · exact alone _
    · exact ended _
    · exact .refl _

/-! ### The fall of T (R179, R190, R195) -/

theorem State.twinDown_steady (s : State) (dropped : List TxData) : Steady s (s.twinDown dropped) := by
  unfold State.twinDown
  refine .via (State.raiseCause_steady _ _) (.via (State.dropDrains_steady _) (.via (.apart (State.setFld_keeps _ _ _) rfl) ?_))
  refine .trans ?_ (.ite (.apart (Keeps.upd_mir _ _) rfl) (.refl _))
  refine .via (.apart (Keeps.upd_mir _ _) rfl) (.via (.foldl _ _ (fun t i => ?_) _) ?_)
  · split
    · exact .ite (t.fwdMiss_steady _ _ _) (t.foundEnds_steady _ _)
    · exact .refl t
  refine .via (.foldl _ _ (fun t n => t.repairEnds_steady n 0) _)
    (.via (.foldl _ _ (fun t i => .apart (t.setEntry_keeps i _) rfl) _) ?_)
  refine .via (State.dropBacklog_steady _ _) (.via (.foldl _ _ (fun t g => t.mark_steady g) _) ?_)
  exact .via (.apart (Keeps.upd_twin_mir _ _ _) rfl) (.apart (s.mapPend_keeps _) rfl)

end Sys2Proof.Machine
end

section
/-!
A port enters `DOWN` (R64, R66, R502): what its link then holds, what `LNK_STATUS` shows, and what stands.
-/

set_option Elab.async false

namespace Sys2Proof.Machine

/-! ### The two halves of a fall -/

/-- A port marked down: its crossing emptied, its link fallen with the attempt counted, no rate or width shown (R64, R66, R71). -/
def State.markDown (s : State) (p : Port) (failed : Bool) : State :=
  let l := s.link p
  let n := if failed then l.attempts + 1 else l.attempts
  ((({ s with rx := s.rx.filter fun x => x.port != p }).setLink p
    { l.fallen with attempts := n, longWait := failed && n % 3 == 0 }).setFld (Fld.LNK_STATUS.WIDTH p.idx) 0).setFld
      (Fld.LNK_STATUS.RATE p.idx) 0

/-- What the line path holds of a port that was in the state `l` is dropped (R66, R179, R502). -/
def State.dropPort (s : State) (p : Port) (l : LinkSt) : State :=
  let s := s.dropReturn p
  let s := { s with ord := { s.ord with mapped := s.ord.mapped.filter fun m => m.lane != p } }
  let s := s.mapPool fun e => if e.port == p then { e with orphan := true } else e
  let s := l.owedPools.foldl (fun s i => s.setEntry i Option.none) s
  if p.isT then s.twinDown l.txData else s.stopReader p

theorem State.linkDown_eq {s : State} {p : Port} (failed : Bool) (h : (s.link p).lstate ≠ .down) :
    s.linkDown p failed = (s.markDown p failed).dropPort p (s.link p) := by
  rw [State.linkDown, if_neg (by simpa using h)]
  rfl

/-! ### Marking the port -/

theorem State.markDown_keeps (s : State) (p : Port) (failed : Bool) :
    Keeps [.rx, .links, .reg (Reg.LNK_STATUS p.idx)] s (s.markDown p failed) := by
  unfold State.markDown
  refine .after (State.setFld_keeps _ _ _) (by cases p <;> decide) (.after (State.setFld_keeps _ _ _) (by cases p <;> decide) ?_)
  exact .after (State.setLink_keeps _ _ _) (by cases p <;> decide) ((Keeps.upd_rx s _).mono (by cases p <;> decide))

theorem State.link_setFld (s : State) (f : Fld) (v : Nat) (q : Port) : (s.setFld f v).link q = s.link q := rfl

/-- A failed attempt is counted, and every third one waits long (R64). -/
theorem State.markDown_standing (s : State) (p : Port) :
    ((s.markDown p true).link p).standing = (.down, (s.link p).attempts + 1, decide (((s.link p).attempts + 1) % 3 = 0)) := by
  rw [State.markDown, State.link_setFld, State.link_setFld, State.link_setLink]
  rfl

theorem State.markDown_rate (s : State) (p : Port) (failed : Bool) : (s.markDown p failed).fld (Fld.LNK_STATUS.RATE p.idx) = 0 :=
  State.fld_setFld _ (Fld.LNK_STATUS.RATE p.idx) 0 (show 5 < 32 by decide)

theorem State.markDown_width (s : State) (p : Port) (failed : Bool) : (s.markDown p failed).fld (Fld.LNK_STATUS.WIDTH p.idx) = 0 :=
  (State.fld_setFld_disjoint _ (f := Fld.LNK_STATUS.RATE p.idx) (g := Fld.LNK_STATUS.WIDTH p.idx) 0 rfl
    (.inr (show 5 < 6 by decide))).trans (State.fld_setFld _ (Fld.LNK_STATUS.WIDTH p.idx) 0 (show 7 < 32 by decide))

/-! ### Dropping what it held -/

theorem State.dropReturn_steady (s : State) (p : Port) : Steady s (s.dropReturn p) := by
  unfold State.dropReturn
  refine .via (.foldl _ _ (fun t r => ?_) _) (.apart (Keeps.upd_ord s _) rfl)
  extract_lets -lift -merge -useContext -underBinder +onlyGivenNames o x
  have hx : Steady t x := .ite (.apart (Keeps.upd_ord t _) rfl) (.refl t)
  split
  · exact .via (.apart (State.setEntry_keeps x _ _) rfl) hx
  · split
    · refine .ite (.via (.apart (State.setEntry_keeps x _ _) rfl) hx) (.ite (.via ?_ hx) hx)
      exact .via (State.tryFree_steady _ _) (x.onEntry_steady _ _)
    · exact hx
  · exact hx

theorem State.stopReader_steady (s : State) (p : Port) : Steady s (s.stopReader p) := by
  refine .of_log (s.stopReader_keeps p) rfl fun _ => ?_
  unfold State.stopReader
  split
  · next pos _ =>
    have cut : s.log.Holds (if s.log.ring.length = 0 then s else s.cutOff p.idx pos (fun s _ => s)).log := by
      split
      · exact .refl _
      · exact (s.cutOff_grows p.idx pos _ fun _ => ⟨rfl, rfl, rfl, rfl⟩).holds
    exact cut.trans (State.freeRing_holds (State.setReader _ p.idx none))
  · exact .refl _

theorem State.dropPort_steady (s : State) (p : Port) (l : LinkSt) : Steady s (s.dropPort p l) := by
  unfold State.dropPort
  refine .trans ?_ (.ite (State.twinDown_steady _ _) (State.stopReader_steady _ p))
  refine .via (.foldl _ _ (fun t i => .apart (t.setEntry_keeps i _) rfl) _) (.via (.apart (State.mapPool_keeps _ _) rfl) ?_)
  exact .via (.apart (Keeps.upd_ord _ _) rfl) (s.dropReturn_steady p)

/-- The parts that dropping what a port held may change. -/
def dropParts (p : Port) : List Part := .links :: .ord :: if p.isT then State.twinDown_parts else State.stopReader_parts

theorem State.dropPort_keeps (s : State) (p : Port) (l : LinkSt) : Keeps (dropParts p) s (s.dropPort p l) := by
  unfold State.dropPort
  extract_lets -lift -merge -useContext -underBinder +onlyGivenNames s1 o s2 s3 s4
  have h1 : Keeps [.links, .ord] s s1 := s.dropReturn_keeps p
  have h2 : Keeps [.links, .ord] s s2 := .after (Keeps.upd_ord s1 _) rfl h1
  have h3 : Keeps [.links, .ord] s s3 := .after (State.mapPool_keeps s2 _) rfl h2
  have h4 : Keeps [.links, .ord] s s4 := .foldl _ _ h3 fun t i k => .after (t.setEntry_keeps i _) rfl k
  cases p with
  | t => exact .after (s4.twinDown_keeps _) (by decide) (h4.mono (by decide))
  | _ => exact .after (s4.stopReader_keeps _) (by decide) (h4.mono (by decide))

/-! ### The fall -/

section
variable {s : State} {p : Port} (c : s.canon) (h : (s.link p).lstate ≠ .down)
include c h

/-- A failed attempt ends in `DOWN`, counted, with every third one waiting long (R64). -/
theorem State.linkDown_standing :
    ((s.linkDown p true).link p).standing = (.down, (s.link p).attempts + 1, decide (((s.link p).attempts + 1) % 3 = 0)) := by
  obtain ⟨-, stands, -⟩ := State.dropPort_steady (s.markDown p true) p (s.link p) ((s.markDown_keeps p true).canon c)
  rw [State.linkDown_eq true h, stands p, State.markDown_standing]

/-- No rate and no width is shown of a port that has fallen (R71). -/
theorem State.linkDown_status (failed : Bool) :
    (s.linkDown p failed).fld (Fld.LNK_STATUS.WIDTH p.idx) = 0 ∧ (s.linkDown p failed).fld (Fld.LNK_STATUS.RATE p.idx) = 0 := by
  have dropped := State.dropPort_keeps (s.markDown p failed) p (s.link p)
  have marked := (s.markDown_keeps p failed).canon c
  rw [State.linkDown_eq failed h]
  exact ⟨(dropped.fld marked (by cases p <;> decide)).trans (s.markDown_width p failed),
    (dropped.fld marked (by cases p <;> decide)).trans (s.markDown_rate p failed)⟩

/-- An event captured before a fall is still to be written. -/
theorem State.linkDown_logged (failed : Bool) (rd : s.log.rdLog ≤ s.log.ring.length) {code : BitVec 16} {data : Word}
    (l : Logged code data s) : Logged code data (s.linkDown p failed) := by
  have time : (s.linkDown p failed).time = s.time := (s.linkDown_keeps p failed).same c .time (by decide)
  have holds : s.log.Holds (s.linkDown p failed).log := by
    rw [State.linkDown_eq failed h]
    exact (State.dropPort_steady _ p _ ((s.markDown_keeps p failed).canon c)).2.2
  obtain ⟨e, mem, ec, ed, es⟩ := l
  obtain ⟨q, hq⟩ := (holds rd).2 e mem
  exact ⟨_, hq, ec, ed, by rw [State.stamp, State.nowNs, time]; exact es⟩

end

/-- The fall of a U-port changes nothing of the twin, the mirror or the address map (R66). -/
theorem State.linkDown_keepsMirror {p : Port} (hu : p ≠ .t) (s : State) (failed : Bool) :
    Keeps (.rx :: .links :: .ord :: .block 0x1 :: logParts) s (s.linkDown p failed) := by
  by_cases h : (s.link p).lstate = .down
  · rw [State.linkDown, if_pos (by simpa using h)]
    exact .refl _ s
  · rw [State.linkDown_eq failed h]
    refine .after (State.dropPort_keeps _ p _) ?_ ((s.markDown_keeps p failed).mono ?_)
    · cases p with
      | t => exact absurd rfl hu
      | _ => decide
    · cases p <;> decide

end Sys2Proof.Machine
end

section
/-!
Retrains and replays, command by command (R61 to R65, R69, R70).
-/

set_option Elab.async false

namespace Sys2Proof.Machine

/-! ### Entering `RETRAIN` (R64) -/

/-- A counter counts once more after work that leaves it alone. -/
theorem Counted.bump_after {P : List Part} {s u : State} {a : Nat} (k : Keeps P s u) (c : s.canon)
    (apart : P.any (Part.covers · (.reg a)) = false) : Counted a s (u.bump a) := by
  rw [Counted, State.fld_bump, k.fld c apart]

/-- A counter that later work leaves alone has counted all the same. -/
theorem Counted.keeps {P : List Part} {s u t : State} {a : Nat} (h : Counted a s u) (k : Keeps P u t) (c : u.canon)
    (apart : P.any (Part.covers · (.reg a)) = false) : Counted a s t := (k.fld c apart).trans h

theorem State.enterRetrain_link (s : State) (p : Port) : (s.enterRetrain p).link p =
    { s.link p with lstate := .retrain, deferred := false, refill := false, replayAt := none } := by
  rw [State.enterRetrain, State.bump, State.bumpF, State.link_setFld, State.link_setFld, State.onLink, State.link_setLink]

theorem State.enterRetrain_counted {s : State} (c : s.canon) (p : Port) :
    Counted (Reg.LNK_RETRAINS p.idx) s (s.enterRetrain p) := by
  have shown : Keeps [.links, .reg (Reg.LNK_STATUS p.idx)] s ((s.onLink p fun l =>
      { l with lstate := .retrain, deferred := false, refill := false, replayAt := none }).setFld
        (Fld.LNK_STATUS.RETRAIN_DEFER p.idx) 0) :=
    .after (State.setFld_keeps _ _ _) (by cases p <;> decide) ((State.onLink_keeps s p _).mono (by cases p <;> decide))
  exact .bump_after shown c (by cases p <;> decide)

/-- A retrain that begins is deferred no longer (R70). -/
theorem State.enterRetrain_defer (s : State) (p : Port) : (s.enterRetrain p).flag (Fld.LNK_STATUS.RETRAIN_DEFER p.idx) = false := by
  rw [State.flag, State.enterRetrain, State.bump, State.bumpF, State.fld_setFld_other _ _ (by cases p <;> decide),
    State.fld_setFld _ _ _ (show 10 < 32 by decide)]
  rfl

/-! ### A cause to retrain (R63, R70) -/

section
variable {s : State} {p : Port} (h : (s.link p).lstate = .service)
include h

theorem State.retrainCause_now (quiet : (s.link p).plnWaiting = false) : s.retrainCause p = s.enterRetrain p := by
  rw [State.retrainCause, h, quiet]
  rfl

/-- While a power-loss notice waits, the retrain is deferred and shown (R70). -/
theorem State.retrainCause_deferred (waits : (s.link p).plnWaiting = true) :
    (s.retrainCause p).link p = { s.link p with deferred := true } ∧
      (s.retrainCause p).flag (Fld.LNK_STATUS.RETRAIN_DEFER p.idx) = true ∧
      (s.retrainCause p).flag (Fld.LNK_EVENT.RETRAIN_DEFERRED p.idx) = true := by
  have later : s.retrainCause p = ((s.setLink p { s.link p with deferred := true }).setFld
      (Fld.LNK_STATUS.RETRAIN_DEFER p.idx) 1).setFld (Fld.LNK_EVENT.RETRAIN_DEFERRED p.idx) 1 := by
    unfold State.retrainCause
    rw [if_pos (beq_iff_eq.2 h), if_pos waits]
  rw [later]
  refine ⟨State.link_setLink _ _ _, ?_, ?_⟩
  · rw [State.flag, State.fld_setFld_other _ _ (by cases p <;> decide), State.fld_setFld _ _ _ (show 10 < 32 by decide)]
    rfl
  · rw [State.flag, State.fld_setFld _ _ _ (show 0 < 32 by decide)]
    rfl

end

theorem State.retrainCause_elsewhere {s : State} {p : Port} (h : (s.link p).lstate ≠ .service) : s.retrainCause p = s := by
  rw [State.retrainCause, if_neg (by simpa using h)]

/-- Whatever becomes of a cause to retrain, the replays counted stand. -/
theorem State.retrainCause_replays (s : State) (p : Port) : ((s.retrainCause p).link p).replays = (s.link p).replays := by
  by_cases h : (s.link p).lstate = .service
  · cases w : (s.link p).plnWaiting with
    | false => rw [State.retrainCause_now h w, State.enterRetrain_link]
    | true => rw [(State.retrainCause_deferred h w).1]
  · rw [State.retrainCause_elsewhere h]

/-! ### The end of a retrain (R62, R64, R65, R69) -/

/-- The rate and the width shown of a port, set one after the other. -/
theorem State.fld_setRateWidth (s : State) (p : Port) (rate width : BitVec 2) :
    (((s.setFld (Fld.LNK_STATUS.RATE p.idx) rate.toNat).setFld (Fld.LNK_STATUS.WIDTH p.idx) width.toNat).fld
        (Fld.LNK_STATUS.RATE p.idx) = rate.toNat) ∧
      (((s.setFld (Fld.LNK_STATUS.RATE p.idx) rate.toNat).setFld (Fld.LNK_STATUS.WIDTH p.idx) width.toNat).fld
        (Fld.LNK_STATUS.WIDTH p.idx) = width.toNat) := by
  refine ⟨(State.fld_setFld_disjoint _ (f := Fld.LNK_STATUS.WIDTH p.idx) (g := Fld.LNK_STATUS.RATE p.idx) _ rfl
    (.inl (show 5 < 6 by decide))).trans ?_, ?_⟩
  · exact (State.fld_setFld s (Fld.LNK_STATUS.RATE p.idx) _ (show 5 < 32 by decide)).trans (Nat.mod_eq_of_lt rate.isLt)
  · exact (State.fld_setFld _ (Fld.LNK_STATUS.WIDTH p.idx) _ (show 7 < 32 by decide)).trans (Nat.mod_eq_of_lt width.isLt)

/-- The retrain ends at a lower rate, or at a half of the full width (R65). -/
def State.retrainLower (s : State) (p : Port) (rate width : BitVec 2) : Bool :=
  rate.toNat != s.fld (Fld.LNK_STATUS.RATE p.idx) || (width != 3 && s.fld (Fld.LNK_STATUS.WIDTH p.idx) == 3)

/-- What the registers show of a retrain that ends. -/
def State.showRetrained (s : State) (p : Port) (rate width : BitVec 2) : State :=
  ((if s.retrainLower p rate width then s.setFld (Fld.LNK_EVENT.DOWNSHIFT p.idx) 1 else s).setFld (Fld.LNK_STATUS.RATE p.idx)
    rate.toNat).setFld (Fld.LNK_STATUS.WIDTH p.idx) width.toNat

theorem State.showRetrained_link (s : State) (p : Port) (rate width : BitVec 2) (q : Port) :
    (s.showRetrained p rate width).link q = s.link q := by
  rw [State.showRetrained, State.link_setFld, State.link_setFld]
  split <;> rfl

theorem State.showRetrained_rate (s : State) (p : Port) (rate width : BitVec 2) :
    (s.showRetrained p rate width).fld (Fld.LNK_STATUS.RATE p.idx) = rate.toNat := (State.fld_setRateWidth _ p rate width).1

theorem State.showRetrained_width (s : State) (p : Port) (rate width : BitVec 2) :
    (s.showRetrained p rate width).fld (Fld.LNK_STATUS.WIDTH p.idx) = width.toNat := (State.fld_setRateWidth _ p rate width).2

theorem State.showRetrained_downshift {s : State} {p : Port} {rate width : BitVec 2} (lower : s.retrainLower p rate width = true) :
    (s.showRetrained p rate width).flag (Fld.LNK_EVENT.DOWNSHIFT p.idx) = true := by
  rw [State.showRetrained, if_pos lower, State.flag, State.fld_setFld_other _ _ (by cases p <;> decide),
    State.fld_setFld_other _ _ (by cases p <;> decide), State.fld_setFld _ _ _ (show 3 < 32 by decide)]
  rfl

/-- What a link holds after its retrain: everything unacknowledged is replayed (R62). -/
def LinkSt.retrained (l : LinkSt) (width : BitVec 2) (gust : Bool) : LinkSt :=
  { l with
    lstate := .service, width := width, replays := 0, replayAt := if l.buf.isEmpty then none else some 0, refill := false,
    plnFlits := if gust then 8 else l.plnFlits }

theorem State.fld_setLink (s : State) (p : Port) (l : LinkSt) (f : Fld) : (s.setLink p l).fld f = s.fld f := rfl

theorem State.flag_setLink (s : State) (p : Port) (l : LinkSt) (f : Fld) : (s.setLink p l).flag f = s.flag f := rfl

theorem execRetrainComplete_ends {s : State} {p : Port} {rate width : BitVec 2} (h : (s.link p).lstate = .retrain)
    (may : s.retrainTo p rate width = true) : ∃ gust, execRetrainComplete p rate width s =
      .next ((s.showRetrained p rate width).setLink p ((s.link p).retrained width gust)) := by
  refine ⟨(s.showRetrained p rate width).top.state == .gust, ?_⟩
  rw [execRetrainComplete, h, may, ← s.showRetrained_link p rate width p]
  rfl

/-! ### Replays (R61, R62) -/

/-- A port that begins a replay: at the oldest flit, counted (R62). -/
def State.replayFrom (s : State) (p : Port) : State :=
  (s.setLink p { s.link p with replayAt := some 0, replays := (s.link p).replays + 1 }).bump (Reg.LNK_REPLAYS p.idx)

theorem State.replayFrom_link (s : State) (p : Port) :
    (s.replayFrom p).link p = { s.link p with replayAt := some 0, replays := (s.link p).replays + 1 } := by
  rw [State.replayFrom, State.bump, State.bumpF, State.link_setFld, State.link_setLink]

theorem State.replayFrom_limit (s : State) (p : Port) :
    (s.replayFrom p).fld (Fld.LNK_REPLAY.REPLAY_LIM p.idx) = s.fld (Fld.LNK_REPLAY.REPLAY_LIM p.idx) := by
  rw [State.replayFrom, State.bump, State.bumpF, State.fld_setFld_other _ _ (by cases p <;> decide)]
  rfl

theorem State.replayFrom_counted {s : State} (c : s.canon) (p : Port) : Counted (Reg.LNK_REPLAYS p.idx) s (s.replayFrom p) :=
  .bump_after (State.setLink_keeps s p _) c (by cases p <;> decide)

theorem State.startReplay_eq {s : State} {p : Port} (h : (s.link p).buf ≠ []) : s.startReplay p =
    if s.fld (Fld.LNK_REPLAY.REPLAY_LIM p.idx) ≤ (s.link p).replays + 1 then (s.replayFrom p).retrainCause p
    else s.replayFrom p := by
  rw [← s.replayFrom_limit p, State.startReplay, if_neg (by simpa using h)]
  rfl

theorem State.startReplay_replays {s : State} {p : Port} (h : (s.link p).buf ≠ []) :
    ((s.startReplay p).link p).replays = (s.link p).replays + 1 := by
  rw [State.startReplay_eq h]
  split
  · rw [State.retrainCause_replays, State.replayFrom_link]
  · rw [State.replayFrom_link]

theorem State.startReplay_counted {s : State} {p : Port} (c : s.canon) (h : (s.link p).buf ≠ []) :
    Counted (Reg.LNK_REPLAYS p.idx) s (s.startReplay p) := by
  have begun : Keeps [.links, .reg (Reg.LNK_REPLAYS p.idx)] s (s.replayFrom p) :=
    .after (State.bump_keeps _ _ _) (by cases p <;> decide) ((State.setLink_keeps s p _).mono (by cases p <;> decide))
  rw [State.startReplay_eq h]
  split
  · exact (State.replayFrom_counted c p).keeps (State.retrainCause_keepsCounters _ p) (begun.canon c) (by cases p <;> decide)
  · exact State.replayFrom_counted c p

/-- At the limit, with no notice waiting, the port retrains (R63). -/
theorem State.startReplay_retrains {s : State} {p : Port} (h : (s.link p).buf ≠ []) (state : (s.link p).lstate = .service)
    (quiet : (s.link p).plnWaiting = false) (limit : s.fld (Fld.LNK_REPLAY.REPLAY_LIM p.idx) ≤ (s.link p).replays + 1) :
    ((s.startReplay p).link p).lstate = .retrain := by
  have link := s.replayFrom_link p
  rw [State.startReplay_eq h, if_pos limit, State.retrainCause_now (by rw [link]; exact state) (by rw [link]; exact quiet),
    State.enterRetrain_link]

theorem State.startReplay_idle {s : State} {p : Port} (h : (s.link p).buf = []) : s.startReplay p = s := by
  rw [State.startReplay, h]
  rfl

theorem execReplayTimeout_replays {s : State} {p : Port} (h : (s.link p).lstate = .init ∨ (s.link p).lstate = .service) :
    execReplayTimeout p s = .next (s.startReplay p) := by
  rcases h with h | h <;> rw [execReplayTimeout, h]

theorem execReplayTimeout_idle {s : State} {p : Port} (h : (s.link p).lstate = .down ∨ (s.link p).buf = []) :
    execReplayTimeout p s = .next s := by
  unfold execReplayTimeout
  rcases h with h | h
  · rw [h]
  · rw [State.startReplay_idle h]
    split <;> rfl

/-! ### The obligation -/

theorem State.onLink_others (s : State) (p : Port) (f : LinkSt → LinkSt) :
    ∀ q ∈ allPorts, q ≠ p → (s.onLink p f).link q = s.link q :=
  fun _ _ e => State.link_setLink_other s _ e

/-- A failed retrain: the port falls, and the event names it (R64, R66, R566). -/
theorem retrainTimeout_runs {s : State} {p : Port} (c : s.canon) (h : (s.link p).lstate = .retrain) :
    Runs s (.retrainTimeout p) linkDownParts fun t => (t.link p).lstate = .down ∧
      (t.link p).attempts = (s.link p).attempts + 1 ∧ (t.link p).longWait = decide (((s.link p).attempts + 1) % 3 = 0) ∧
      t.fld (Fld.LNK_STATUS.WIDTH p.idx) = 0 ∧ t.fld (Fld.LNK_STATUS.RATE p.idx) = 0 ∧ (p ≠ .t → SameBut (.rx :: .links ::
      .ord :: .block 0x1 :: logParts) s t) ∧ (Attentive s → Logged 0x1056 (BitVec.ofNat 32 p.idx) t) := by
  have told := s.event_keeps 0x1056 p.idx
  have links : (s.event 0x1056 p.idx).links = s.links := told.same c .links rfl
  have link : (s.event 0x1056 p.idx).link p = s.link p := by rw [State.link, links, State.link]
  have notDown : ((s.event 0x1056 p.idx).link p).lstate ≠ .down := by rw [link, h]; decide
  have standing := State.linkDown_standing (told.canon c) notDown
  rw [link] at standing
  obtain ⟨width, rate⟩ := State.linkDown_status (told.canon c) notDown true
  refine Runs.intro (t := (s.event 0x1056 p.idx).linkDown p true) (exec_keepsOut _ s) c ?_ rfl
    ⟨congrArg Prod.fst standing, congrArg (·.2.1) standing, congrArg (·.2.2) standing, width, rate, fun hu => ?_, fun att => ?_⟩
  · change execRetrainTimeout p s = _
    rw [execRetrainTimeout, h]
    rfl
  · exact ((State.linkDown_keepsMirror hu _ true).after rfl (told.mono rfl) c).2
  · have logged : Logged 0x1056 (BitVec.ofNat 32 p.idx) (s.event 0x1056 p.idx) := State.capture_logged att (by decide) _ _
    obtain ⟨-, -, -, rd, -⟩ := att
    exact State.linkDown_logged (told.canon c) notDown true (s.capture_holds _ _ _ rd).1 logged

/-- Settles O25: each command by what it makes of the port and of its counters. -/
theorem retrainingRuns : Obligations.RetrainingRuns := by
  unfold Obligations.RetrainingRuns
  intro s c
  refine ⟨?lost, ?lostElsewhere, ?lostDeferred, ?deferEnd, ?deferEndElsewhere, ?fast, ?fastElsewhere, ?complete, ?completeElsewhere,
    fun p h => retrainTimeout_runs c h, ?timeoutElsewhere, ?nak, ?nakElsewhere, ?replay, ?replayElsewhere⟩
  case lost =>
    intro p h quiet
    have run : exec (.laneLockLost p) s = .next (s.enterRetrain p) := congrArg Host.Outcome.next (State.retrainCause_now h quiet)
    exact .intro (exec_keepsOut _ s) c run rfl ⟨s.enterRetrain_link p, State.enterRetrain_counted c p⟩
  case lostElsewhere => exact fun p h => congrArg Host.Outcome.next (State.retrainCause_elsewhere h)
  case lostDeferred => exact fun p h waits => .intro (exec_keepsOut _ s) c rfl rfl (State.retrainCause_deferred h waits)
  case deferEnd =>
    intro p h deferred
    have run : exec (.retrainDeferEnd p) s = .next (s.enterRetrain p) := by
      change execRetrainDeferEnd p s = _
      rw [execRetrainDeferEnd, h, deferred]
      rfl
    exact .intro (exec_keepsOut _ s) c run rfl ⟨s.enterRetrain_link p, s.enterRetrain_defer p, State.enterRetrain_counted c p⟩
  case deferEndElsewhere =>
    intro p h
    change execRetrainDeferEnd p s = _
    rw [execRetrainDeferEnd, if_neg (by rcases h with h | h <;> simp [h])]
  case fast =>
    intro p h
    have run : exec (.retrainFastFail p) s = .next (s.onLink p fun l => { l with refill := true }) := by
      change execRetrainFastFail p s = _
      rw [execRetrainFastFail, h]
      rfl
    exact .intro (exec_keepsOut _ s) c run rfl ⟨State.link_setLink _ _ _, s.onLink_others p _⟩
  case fastElsewhere =>
    intro p h
    change execRetrainFastFail p s = _
    rw [execRetrainFastFail, if_neg (by simpa using h)]
  case complete =>
    intro p rate width h may
    obtain ⟨gust, run⟩ := execRetrainComplete_ends h may
    have link := State.link_setLink (s.showRetrained p rate width) p ((s.link p).retrained width gust)
    refine .intro (exec_keepsOut _ s) c run rfl ?_
    rw [link, State.fld_setLink, State.fld_setLink, State.flag_setLink]
    exact ⟨rfl, rfl, rfl, rfl, rfl, s.showRetrained_rate p rate width, s.showRetrained_width p rate width, fun lower =>
      State.showRetrained_downshift (by simp [State.retrainLower, lower])⟩
  case completeElsewhere =>
    intro p rate width h
    change execRetrainComplete p rate width s = _
    rw [execRetrainComplete, if_neg (by rcases h with h | h <;> simp [h])]
  case timeoutElsewhere =>
    intro p h
    change execRetrainTimeout p s = _
    rw [execRetrainTimeout, if_neg (by simpa using h)]
  case nak =>
    intro p h
    have run : exec (.nakTimeout p) s = .next (s.onLink p fun l => { l with nakOut := true }) := by
      change execNakTimeout p s = _
      rw [execNakTimeout, if_pos h]
    exact .intro (exec_keepsOut _ s) c run rfl (State.link_setLink _ _ _)
  case nakElsewhere =>
    intro p h
    change execNakTimeout p s = _
    rw [execNakTimeout, h]
    rfl
  case replay =>
    intro p h held
    refine .intro (exec_keepsOut _ s) c (execReplayTimeout_replays h) rfl ⟨State.startReplay_replays held,
      State.startReplay_counted c held, fun below => ?_, fun limit state quiet => State.startReplay_retrains held state quiet limit⟩
    rw [State.startReplay_eq held, if_neg (by omega), State.replayFrom_link]
  case replayElsewhere => exact fun p h => execReplayTimeout_idle h

end Sys2Proof.Machine
end

section
/-!
The messages the hub writes on T, and the negotiation and credit messages of every port, read back (R93 to R110).
-/

set_option Elab.async false

namespace Sys2Proof.Machine

/-- On T a message with an opcode of the mirror's own is read by the twin's table (R78). -/
theorem decodeMsg_twin {m : Msg} (ans : Bool) (own : 0x33 ≤ bitsOf m 7 0) : decodeMsg .t ans m = some (decodeT ans m) := by
  unfold decodeMsg
  split
  case h_5 => rfl
  all_goals omega

/-! ### The lines of an ACK_LINES -/

/-- Fields of `w` bits laid side by side from bit `lo` on are the number they make, above what stands below them. -/
theorem foldl_fields_above (lo w : Nat) (x : Nat → Nat) (a n : Nat) :
    ((List.range n).map fun k => (x k, lo + w * k)).foldl (fun a p => a + (p.1 <<< p.2)) a =
      a + 2 ^ lo * (List.range n).foldl (fun a k => a + (x k <<< (w * k))) 0 := by
  induction n with
  | zero => simp
  | succ n ih =>
    simp only [List.range_succ, List.map_append, List.foldl_append, ih, List.map_cons, List.map_nil, List.foldl_cons,
      List.foldl_nil]
    rw [Nat.shiftLeft_eq, Nat.shiftLeft_eq, Nat.pow_add, Nat.mul_left_comm, Nat.mul_add, Nat.add_assoc]

/-- The word of an `ACK_LINES`: opcode, count, and the tags of 12 bits above them (R98). -/
theorem mkAckLines_eq (tags : List (BitVec 12)) :
    mkAckLines tags = BitVec.ofNat 128 (0x42 + tags.length * 2 ^ 8 +
      2 ^ 16 * (List.range tags.length).foldl (fun a k => a + ((tags.getD k 0).toNat <<< (12 * k))) 0) := by
  rw [mkAckLines, msgOf, List.foldl_append, foldl_fields_above]
  simp only [List.foldl, Nat.shiftLeft_eq, Nat.zero_add, Nat.pow_zero, Nat.mul_one]

/-- Each tag of an `ACK_LINES` reads back. -/
theorem tag_mkAckLines {tags : List (BitVec 12)} (few : tags.length ≤ 9) {j : Nat} (hj : j < tags.length) :
    (mkAckLines tags).extractLsb' (16 + 12 * j) 12 = tags.getD j 0 := by
  rw [mkAckLines_eq]
  refine extractLsb'_ofNat_eq (by omega) ?_
  rw [Nat.pow_add, ← Nat.div_div_eq_div_mul, Nat.add_mul_div_left _ _ (by decide),
    Nat.div_eq_of_lt (show 0x42 + tags.length * 2 ^ 8 < 2 ^ 16 by omega), Nat.zero_add]
  exact foldl_shift_field (fun k => (tags.getD k 0).isLt) hj

/-- An `ACK_LINES` of one to nine tags reads back (R98). -/
theorem decodeT_ackLines (ans : Bool) {tags : List (BitVec 12)} (some' : tags ≠ []) (few : tags.length ≤ 9) :
    decodeT ans (mkAckLines tags) = .ackLines tags := by
  have one : 0 < tags.length := List.length_pos_iff.2 some'
  have op : bitsOf (mkAckLines tags) 7 0 = 0x42 := by
    rw [mkAckLines_eq]
    exact bitsOf_ofNat_eq (by decide) (by decide) (by omega)
  have count : bitsOf (mkAckLines tags) 11 8 = tags.length := by
    rw [mkAckLines_eq]
    exact bitsOf_ofNat_eq (by decide) (by decide) (by omega)
  rw [decodeT, op]
  simp only [count]
  rw [if_neg (by simp only [Bool.or_eq_true, decide_eq_true_eq]; omega)]
  congr 1
  refine List.ext_getElem (by simp) fun j _ hl => ?_
  rw [List.getElem_map, List.getElem_range, tag_mkAckLines few hl, List.getD_eq_getElem _ _ hl]

/-! ### The other messages of T -/

/-- A mask reads back (R96). -/
theorem decodeT_mask (ans : Bool) (tag : BitVec 12) (m : BitVec 64) : decodeT ans (mkMask tag m) = .mask tag m := by
  have ht := tag.isLt
  have hm := m.isLt
  rw [decodeT, mkMask, opcode_msgOf (by decide) (by simp)]
  simp only [msgOf, List.foldl, Nat.shiftLeft_eq]
  rw [extractLsb'_ofNat_eq (v := tag) (by decide) (by omega), extractLsb'_ofNat_eq (v := m) (by decide) (by omega)]

/-- A range of acknowledgements reads back (R97). -/
theorem decodeT_ackRange (ans : Bool) (epoch n : Word) : decodeT ans (mkAckRange epoch n.toNat) = .ackRange epoch n := by
  have he := epoch.isLt
  have hn := n.isLt
  rw [decodeT, mkAckRange, opcode_msgOf (by decide) (by simp)]
  simp only [msgOf, List.foldl, Nat.shiftLeft_eq]
  rw [extractLsb'_ofNat_eq (v := epoch) (by decide) (by omega), extractLsb'_ofNat_eq (v := n) (by decide) (by omega)]

section
variable (op : Nat) (tag : BitVec 12) (form : BitVec 3) (reason : Byte) (epoch : Word) (addr : BitVec 42)

/-- The fields of the layout that rejections, repair requests and repair misses share read back (R99, R100). -/
theorem fields_mkRej (hop : op < 256) :
    bitsOf (mkRej op tag form reason epoch addr) 7 0 = op ∧ (mkRej op tag form reason epoch addr).extractLsb' 8 12 = tag ∧
      (mkRej op tag form reason epoch addr).extractLsb' 20 3 = form ∧
      (mkRej op tag form reason epoch addr).extractLsb' 24 8 = reason ∧
      (mkRej op tag form reason epoch addr).extractLsb' 32 32 = epoch ∧
      (mkRej op tag form reason epoch addr).extractLsb' 64 42 = addr ∧
      bitsOf (mkRej op tag form reason epoch addr) 31 24 = reason.toNat ∧
      bitsOf (mkRej op tag form reason epoch addr) 22 20 = form.toNat := by
  have ht := tag.isLt
  have hf := form.isLt
  have hr := reason.isLt
  have he := epoch.isLt
  have ha := addr.isLt
  refine ⟨opcode_msgOf hop (by simp), ?_⟩
  simp only [mkRej, msgOf, List.foldl, Nat.shiftLeft_eq]
  exact ⟨extractLsb'_ofNat_eq (by decide) (by omega), extractLsb'_ofNat_eq (by decide) (by omega),
    extractLsb'_ofNat_eq (by decide) (by omega), extractLsb'_ofNat_eq (by decide) (by omega),
    extractLsb'_ofNat_eq (by decide) (by omega), bitsOf_ofNat_eq (by decide) (by decide) (by omega),
    bitsOf_ofNat_eq (by decide) (by decide) (by omega)⟩

variable {form reason}

/-- A rejection of a form and a reason of the table reads back (R99). -/
theorem decodeT_replicaRej (ans : Bool) (hf : form.toNat ≤ 5) (h0 : reason ≠ 0) (h9 : reason.toNat ≤ 9) :
    decodeT ans (mkRej 0x43 tag form reason epoch addr) = .replicaRej tag form reason epoch addr := by
  obtain ⟨opcode, htag, hform, hreason, hepoch, haddr, nreason, nform⟩ :=
    fields_mkRej 0x43 tag form reason epoch addr (by decide)
  have positive : reason.toNat ≠ 0 := fun h => h0 (BitVec.eq_of_toNat_eq h)
  rw [decodeT, opcode]
  simp only [htag, hform, hreason, hepoch, haddr, nreason, nform]
  rw [if_neg (by simp; omega)]

/-- A repair request reads back (R100). -/
theorem decodeT_repairReq (ans : Bool) : decodeT ans (mkRej 0x44 tag 0 0 epoch addr) = .repairReq tag epoch addr := by
  obtain ⟨opcode, htag, -, -, hepoch, haddr, -, -⟩ := fields_mkRej 0x44 tag 0 0 epoch addr (by decide)
  rw [decodeT, opcode]
  simp only [htag, hepoch, haddr]

/-- A repair miss of a reason of the table reads back (R100). -/
theorem decodeT_repairMiss (ans : Bool) (h0 : reason ≠ 0) (h4 : reason.toNat ≤ 4) :
    decodeT ans (mkRej 0x45 tag 0 reason epoch addr) = .repairMiss tag reason epoch addr := by
  obtain ⟨opcode, htag, -, hreason, hepoch, haddr, nreason, -⟩ := fields_mkRej 0x45 tag 0 reason epoch addr (by decide)
  have positive : reason.toNat ≠ 0 := fun h => h0 (BitVec.eq_of_toNat_eq h)
  rw [decodeT, opcode]
  simp only [htag, hreason, hepoch, haddr, nreason]
  rw [if_neg (by simp; omega)]
end

/-- The fields of a handover message read back (R101). -/
theorem fields_mkHandover (m : HandoverMsg) {step : Nat} (hs : step < 256) :
    bitsOf (mkHandover m.mtag step m.epoch m.region.toNat) 7 0 = 0x46 ∧
      bitsOf (mkHandover m.mtag step m.epoch m.region.toNat) 23 16 = step ∧
      (mkHandover m.mtag step m.epoch m.region.toNat).extractLsb' 8 4 = m.mtag ∧
      (mkHandover m.mtag step m.epoch m.region.toNat).extractLsb' 32 32 = m.epoch ∧
      (mkHandover m.mtag step m.epoch m.region.toNat).extractLsb' 64 18 = m.region := by
  have ht := m.mtag.isLt
  have he := m.epoch.isLt
  have hr := m.region.isLt
  refine ⟨opcode_msgOf (by decide) (by simp), ?_⟩
  simp only [mkHandover, msgOf, List.foldl, Nat.shiftLeft_eq]
  exact ⟨bitsOf_ofNat_eq (by decide) (by decide) (by omega), extractLsb'_ofNat_eq (by decide) (by omega),
    extractLsb'_ofNat_eq (by decide) (by omega), extractLsb'_ofNat_eq (by decide) (by omega)⟩

/-- Each step of a handover reads back (R101). -/
theorem decodeT_handover (ans : Bool) (m : HandoverMsg) :
    decodeT ans (mkHandover m.mtag 1 m.epoch m.region.toNat) = .handoverRequest m ∧
      decodeT ans (mkHandover m.mtag 2 m.epoch m.region.toNat) = .handoverDrained m ∧
      decodeT ans (mkHandover m.mtag 3 m.epoch m.region.toNat) = .handoverTaken m ∧
      decodeT ans (mkHandover m.mtag 4 m.epoch m.region.toNat) = .handoverRefused m := by
  refine ⟨?_, ?_, ?_, ?_⟩ <;>
  · rw [decodeT]
    simp (disch := decide) only [fields_mkHandover m]

/-- The fields of a rebuild message read back (R102). -/
theorem rebuildOf_mkRebuild (m : RebuildMsg) {cmd : Nat} (hc : cmd < 256) :
    rebuildOf (mkRebuild cmd m.mtag m.share.toNat m.epoch m.cursor.toNat m.sess) = m ∧
      bitsOf (mkRebuild cmd m.mtag m.share.toNat m.epoch m.cursor.toNat m.sess) 23 16 = cmd := by
  obtain ⟨mtag, share, epoch, cursor, sess⟩ := m
  have ht := mtag.isLt
  have hs := share.isLt
  have he := epoch.isLt
  have hu := cursor.isLt
  have hb := bitOf_lt sess
  simp only [rebuildOf, mkRebuild, msgOf, List.foldl, Nat.shiftLeft_eq, RebuildMsg.mk.injEq]
  exact ⟨⟨extractLsb'_ofNat_eq (by decide) (by omega), extractLsb'_ofNat_eq (by decide) (by omega),
    extractLsb'_ofNat_eq (by decide) (by omega), extractLsb'_ofNat_eq (by decide) (by omega),
    getLsbD_ofNat_eq (by decide) (by omega)⟩, bitsOf_ofNat_eq (by decide) (by decide) (by omega)⟩

/-- The table of T leaves a rebuild message to its own (R102). -/
theorem decodeT_rebuild (ans : Bool) (m : RebuildMsg) (cmd : Nat) :
    decodeT ans (mkRebuild cmd m.mtag m.share.toNat m.epoch m.cursor.toNat m.sess) =
      rebuildCmd ans (mkRebuild cmd m.mtag m.share.toNat m.epoch m.cursor.toNat m.sess) := by
  have opcode : bitsOf (mkRebuild cmd m.mtag m.share.toNat m.epoch m.cursor.toNat m.sess) 7 0 = 0x47 :=
    opcode_msgOf (by decide) (by simp)
  simp only [decodeT, opcode]

section
variable {m : RebuildMsg} (formed : m.wellFormed = true)
include formed

theorem RebuildMsg.allowed_of_wellFormed :
    (m.share.toNat > 100 || (m.sess && m.cursor != 0x7FFFFFF && m.cursor != 0x7FFFFFE)) = false := by
  rw [RebuildMsg.wellFormed] at formed
  grind

/-- A rebuild message that the hub waits for is an answer (R224). -/
theorem rebuildCmd_answer {cmd : Nat} (hc : cmd < 256) :
    rebuildCmd true (mkRebuild cmd m.mtag m.share.toNat m.epoch m.cursor.toNat m.sess) =
      .rebuildCtlAnswer (BitVec.ofNat 8 cmd) m := by
  obtain ⟨fields, number⟩ := rebuildOf_mkRebuild m hc
  simp only [rebuildCmd, fields, number, RebuildMsg.allowed_of_wellFormed formed, Bool.false_eq_true, if_false, if_true]

/-- Any other is the command of its number (R102). -/
theorem rebuildCmd_command :
    rebuildCmd false (mkRebuild 1 m.mtag m.share.toNat m.epoch m.cursor.toNat m.sess) =
        (if m.sess then .rebuildCtlStartSession m else .rebuildCtlStartGranule m) ∧
      rebuildCmd false (mkRebuild 2 m.mtag m.share.toNat m.epoch m.cursor.toNat m.sess) = .rebuildCtlStop m ∧
      rebuildCmd false (mkRebuild 3 m.mtag m.share.toNat m.epoch m.cursor.toNat m.sess) = .rebuildCtlCursor m ∧
      rebuildCmd false (mkRebuild 4 m.mtag m.share.toNat m.epoch m.cursor.toNat m.sess) = .rebuildCtlDone m ∧
      rebuildCmd false (mkRebuild 5 m.mtag m.share.toNat m.epoch m.cursor.toNat m.sess) = .rebuildCtlPace m := by
  refine ⟨?_, ?_, ?_, ?_, ?_⟩ <;>
  · simp (disch := decide) only [rebuildCmd, rebuildOf_mkRebuild m, RebuildMsg.allowed_of_wellFormed formed, Bool.false_eq_true,
      if_false]
end

/-- A heartbeat of a state of the table reads back (R103). -/
theorem decodeT_heartbeat (ans : Bool) {pstate : BitVec 3} (epoch sent stamp : Word) (h5 : pstate.toNat ≤ 5) :
    decodeT ans (mkHeartbeat pstate.toNat epoch sent.toNat stamp.toNat) = .heartbeat pstate epoch sent stamp := by
  have hp := pstate.isLt
  have he := epoch.isLt
  have hs := sent.isLt
  have ht := stamp.isLt
  rw [decodeT, mkHeartbeat, opcode_msgOf (by decide) (by simp)]
  simp only [msgOf, List.foldl, Nat.shiftLeft_eq]
  rw [extractLsb'_ofNat_eq (v := pstate) (by decide) (by omega), extractLsb'_ofNat_eq (v := epoch) (by decide) (by omega),
    extractLsb'_ofNat_eq (v := sent) (by decide) (by omega), extractLsb'_ofNat_eq (v := stamp) (by decide) (by omega),
    bitsOf_ofNat_eq (v := pstate.toNat) (by decide) (by decide) (by omega), if_neg (by omega)]

/-- A power loss notice reads back, its flags as one byte (R93). -/
theorem decodeT_pln (ans : Bool) (gusting nohold : Bool) (trig : BitVec 2) (admitCnt : Word) (lastTag : BitVec 12) (stamp : Word) :
    decodeT ans (mkPln gusting nohold trig admitCnt.toNat lastTag stamp.toNat) =
      .plnOnT (BitVec.ofNat 8 (bitOf gusting + 2 * bitOf nohold + 4 * trig.toNat)) admitCnt lastTag stamp := by
  have hg := bitOf_lt gusting
  have hn := bitOf_lt nohold
  have ht := trig.isLt
  have ha := admitCnt.isLt
  have hl := lastTag.isLt
  have hs := stamp.isLt
  rw [decodeT, mkPln, opcode_msgOf (by decide) (by simp)]
  simp only [msgOf, List.foldl, Nat.shiftLeft_eq]
  rw [extractLsb'_ofNat_eq (v := BitVec.ofNat 8 (bitOf gusting + 2 * bitOf nohold + 4 * trig.toNat)) (by decide)
      (by rw [BitVec.toNat_ofNat]; omega),
    extractLsb'_ofNat_eq (v := admitCnt) (by decide) (by omega), extractLsb'_ofNat_eq (v := lastTag) (by decide) (by omega),
    extractLsb'_ofNat_eq (v := stamp) (by decide) (by omega)]

/-! ### The messages of every port -/

/-- The revisions and features a port offers read back (R110). -/
theorem decodeMsg_neg (p : Port) (ans : Bool) (m : NegMsg) : decodeMsg p ans (mkNeg m) = some (.negReceived p m) := by
  obtain ⟨profile, linkRevs, mirRevs, features, domain, node, port⟩ := m
  have h1 := profile.isLt
  have h2 := linkRevs.isLt
  have h3 := mirRevs.isLt
  have h4 := features.isLt
  have h5 := domain.isLt
  have h6 := node.isLt
  have h7 := port.isLt
  rw [decodeMsg, mkNeg, opcode_msgOf (by decide) (by simp)]
  simp only [msgOf, List.foldl, Nat.shiftLeft_eq, Option.some.injEq, Instr.negReceived.injEq, NegMsg.mk.injEq, true_and]
  exact ⟨extractLsb'_ofNat_eq (by decide) (by omega), extractLsb'_ofNat_eq (by decide) (by omega),
    extractLsb'_ofNat_eq (by decide) (by omega), extractLsb'_ofNat_eq (by decide) (by omega),
    extractLsb'_ofNat_eq (by decide) (by omega), extractLsb'_ofNat_eq (by decide) (by omega),
    extractLsb'_ofNat_eq (by decide) (by omega)⟩

/-- The answer to an offer reads back (R111). -/
theorem decodeMsg_negAck (p : Port) (ans : Bool) (m : NegAckMsg) :
    decodeMsg p ans (mkNegAck m) = some (.negAckReceived p m) := by
  obtain ⟨result, linkRev, mirRev, features⟩ := m
  have h1 := result.isLt
  have h2 := linkRev.isLt
  have h3 := mirRev.isLt
  have h4 := features.isLt
  rw [decodeMsg, mkNegAck, opcode_msgOf (by decide) (by simp)]
  simp only [msgOf, List.foldl, Nat.shiftLeft_eq, Option.some.injEq, Instr.negAckReceived.injEq, NegAckMsg.mk.injEq, true_and]
  exact ⟨extractLsb'_ofNat_eq (by decide) (by omega), extractLsb'_ofNat_eq (by decide) (by omega),
    extractLsb'_ofNat_eq (by decide) (by omega), extractLsb'_ofNat_eq (by decide) (by omega)⟩

/-- The credits a port grants read back (R105). -/
theorem decodeMsg_credit (p : Port) (ans : Bool) (m : CreditMsg) :
    decodeMsg p ans (mkCredit m.init ⟨m.req.toNat, m.rd.toNat, m.lq.toNat, m.wd.toNat, m.mg.toNat, m.ev.toNat⟩) =
      some (.credit p m) := by
  obtain ⟨init, req, rd, lq, wd, mg, ev⟩ := m
  have h0 := bitOf_lt init
  have h1 := req.isLt
  have h2 := rd.isLt
  have h3 := lq.isLt
  have h4 := wd.isLt
  have h5 := mg.isLt
  have h6 := ev.isLt
  rw [decodeMsg, mkCredit, opcode_msgOf (by decide) (by simp)]
  simp only [msgOf, List.foldl, Nat.shiftLeft_eq, Option.some.injEq, Instr.credit.injEq, CreditMsg.mk.injEq, true_and]
  exact ⟨getLsbD_ofNat_eq (by decide) (by omega), extractLsb'_ofNat_eq (by decide) (by omega),
    extractLsb'_ofNat_eq (by decide) (by omega), extractLsb'_ofNat_eq (by decide) (by omega),
    extractLsb'_ofNat_eq (by decide) (by omega), extractLsb'_ofNat_eq (by decide) (by omega),
    extractLsb'_ofNat_eq (by decide) (by omega)⟩

/-! ### O9 -/

/-- A message of T whose opcode is the mirror's own is read by the twin's table. -/
theorem decodeMsg_msgOf_twin {op : Nat} {fs : List (Nat × Nat)} {c : Instr} (ans : Bool) (hop : 0x33 ≤ op) (byte : op < 256)
    (behind : ∀ f ∈ fs, 8 ≤ f.2) (reads : decodeT ans (msgOf ((op, 0) :: fs)) = c) :
    decodeMsg .t ans (msgOf ((op, 0) :: fs)) = some c := by
  rw [decodeMsg_twin ans (by rwa [opcode_msgOf byte behind]), reads]

/-- Settles O9: each message has an opcode of its table, and its fields read back one by one. -/
theorem linkMessagesReadBack : Obligations.LinkMessagesReadBack := by
  unfold Obligations.LinkMessagesReadBack
  intro ans
  have tags {l : List (BitVec 12)} :
      ∀ f ∈ (l.length, 8) :: (List.range l.length).map fun k => ((l.getD k 0).toNat, 16 + 12 * k), 8 ≤ f.2 := by
    simp only [List.forall_mem_cons, List.forall_mem_map]
    exact ⟨Nat.le_refl 8, fun k _ => by omega⟩
  have rebuild (ans : Bool) {m : RebuildMsg} {cmd : Nat} {c : Instr}
      (reads : rebuildCmd ans (mkRebuild cmd m.mtag m.share.toNat m.epoch m.cursor.toNat m.sess) = c) :=
    decodeMsg_msgOf_twin ans (by decide) (by decide) (by simp) ((decodeT_rebuild ans m cmd).trans reads)
  refine ⟨fun tag m => ?_, fun epoch n => ?_, fun l some' few => ?_, fun tag form reason epoch addr hf h0 h9 => ?_,
    fun tag epoch addr => ?_, fun tag miss epoch addr h0 h4 => ?_, fun m => ?_,
    fun m formed => ?_, fun pstate epoch sent stamp h5 => ?_,
    fun gusting nohold trig admitCnt lastTag stamp => ?_, fun p m => decodeMsg_neg p ans m, fun p m => decodeMsg_negAck p ans m,
    fun p m => decodeMsg_credit p ans m⟩
  · exact decodeMsg_msgOf_twin ans (by decide) (by decide) (by simp) (decodeT_mask ans tag m)
  · exact decodeMsg_msgOf_twin ans (by decide) (by decide) (by simp) (decodeT_ackRange ans epoch n)
  · exact decodeMsg_msgOf_twin ans (by decide) (by decide) tags (decodeT_ackLines ans some' few)
  · exact decodeMsg_msgOf_twin ans (by decide) (by decide) (by simp) (decodeT_replicaRej tag epoch addr ans hf h0 h9)
  · exact decodeMsg_msgOf_twin ans (by decide) (by decide) (by simp) (decodeT_repairReq tag epoch addr ans)
  · exact decodeMsg_msgOf_twin ans (by decide) (by decide) (by simp) (decodeT_repairMiss tag epoch addr ans h0 h4)
  · obtain ⟨request, drained, taken, refused⟩ := decodeT_handover ans m
    exact ⟨decodeMsg_msgOf_twin ans (by decide) (by decide) (by simp) request,
      decodeMsg_msgOf_twin ans (by decide) (by decide) (by simp) drained,
      decodeMsg_msgOf_twin ans (by decide) (by decide) (by simp) taken,
      decodeMsg_msgOf_twin ans (by decide) (by decide) (by simp) refused⟩
  · obtain ⟨start, stop, cursor, done, pace⟩ := rebuildCmd_command formed
    refine ⟨fun cmd _ _ => ?_, rebuild false start, rebuild false stop,
      rebuild false cursor, rebuild false done, rebuild false pace⟩
    refine (rebuild true (rebuildCmd_answer formed cmd.isLt)).trans ?_
    rw [BitVec.ofNat_toNat, BitVec.setWidth_eq]
  · exact decodeMsg_msgOf_twin ans (by decide) (by decide) (by simp) (decodeT_heartbeat ans epoch sent stamp h5)
  · exact decodeMsg_msgOf_twin ans (by decide) (by decide) (by simp) (decodeT_pln ans gusting nohold trig admitCnt lastTag stamp)

/-- Settles O3: no row of the opcode table has bits, so no word spells a command and placing one changes nothing (log entry 7). -/
theorem tableSpellsNoWord : Obligations.TableSpellsNoWord := by
  unfold Obligations.TableSpellsNoWord
  exact fun _ _ _ => ⟨rfl, rfl⟩

end Sys2Proof.Machine
end

section
/-!
A hub that is fenced with host requests waiting that Map has already turned away (R169, R215).
-/

set_option Elab.async false

namespace Sys2Proof.Machine

/-- A host read of an unmapped region, turned away at Map and waiting at Order to be refused in its turn (R82, R169). -/
def turnedAwayRead : Mapped :=
  { lane := .u0, req := { kind := .host .read, tag := 0 }, out := .reject 1, addr := 0, tracked := false }

/-- What the witness announces on its link: the reset value of `WITNESS_ID` as its node (R11). -/
def witnessNeg : NegMsg := { profile := 1, linkRevs := 3, mirRevs := 0, features := 0, domain := 0, node := 0, port := 0 }

/-- The destination of a rebuild in `SERVICE` at epoch 1, whose session start is unanswered, with links to the witness and to the
twin and a request turned away at Map. -/
def destWithTurnedAway : State :=
  { Tests.coreIn .service with
    links := [(0, { lstate := .service, peerNeg := some witnessNeg, granted := { mg := 1 } }),
      (4, { lstate := .service, granted := { mg := 1 } })]
    ord := { State.reset.ord with mapped := [turnedAwayRead] }
    mir := { State.reset.mir with epoch := 1, pstate := .rebuildDst, rb := .starting, rbRole := 2 } }

theorem destWithTurnedAway_canon : destWithTurnedAway.canon := Tests.canonOf (by decide +kernel)

/-- A heartbeat of a higher epoch fences the hub, and the request turned away is counted. -/
theorem destWithTurnedAway_heartbeat :
    ∃ t, exec (.heartbeat 3 2 0 0) destWithTurnedAway = .next t ∧ t.reg Reg.MAP_REJ = 1 :=
  ⟨_, rfl, by decide +kernel⟩

/-- So does the end of the wait for the session. -/
theorem destWithTurnedAway_waitTimeout :
    ∃ t, exec .rebuildWaitTimeout destWithTurnedAway = .next t ∧ t.reg Reg.MAP_REJ = 1 :=
  ⟨_, rfl, by decide +kernel⟩

/-- So does a rebuild stop of the witness. -/
theorem destWithTurnedAway_rebuildStop :
    ∃ t, exec (.directiveRebuildStop ⟨.u0, 0, 1⟩ 0) destWithTurnedAway = .next t ∧ t.reg Reg.MAP_REJ = 1 :=
  ⟨_, rfl, by decide +kernel⟩

/-- Where `MAP_REJ` counts the request, no frame without it holds. -/
theorem not_runs_of_mapRej {c : Instr} {P : List Part} {E : State → Prop} (h : Runs destWithTurnedAway c P E)
    (counts : ∃ t, exec c destWithTurnedAway = .next t ∧ t.reg Reg.MAP_REJ = 1)
    (outside : P.any (Part.covers · (.reg Reg.MAP_REJ)) = false) : False := by
  obtain ⟨t, run, frame, -⟩ := h
  obtain ⟨u, run', counted⟩ := counts
  obtain rfl : t = u := Host.Outcome.next.inj (run.symm.trans run')
  have kept : t.reg Reg.MAP_REJ = destWithTurnedAway.reg Reg.MAP_REJ := frame (.reg Reg.MAP_REJ) outside
  rw [counted] at kept
  exact absurd kept (by decide)

/-- Refutes O38: a heartbeat of a higher epoch that fences the hub refuses the host requests that wait past Map, and `MAP_REJ`
counts those that Map had turned away itself, which the clause has unchanged. -/
theorem not_repairsAndHeartbeatsRun : ¬ Obligations.RepairsAndHeartbeatsRun := by
  unfold Obligations.RepairsAndHeartbeatsRun
  intro h
  obtain ⟨-, -, -, -, -, -, -, -, -, -, -, -, -, -, -, -, -, fences, -⟩ := h destWithTurnedAway destWithTurnedAway_canon
  exact not_runs_of_mapRej (fences 3 2 0 0 rfl (by decide) rfl (by decide) (by decide) rfl (by decide) rfl rfl)
    destWithTurnedAway_heartbeat (by decide)

/-- Refutes O42: the destination that is fenced as its wait ends refuses the host requests that wait past Map, and `MAP_REJ`
counts those that Map had turned away itself, which the clause of REBUILD_WAIT_TIMEOUT has unchanged. -/
theorem not_rebuildControlRuns : ¬ Obligations.RebuildControlRuns := by
  unfold Obligations.RebuildControlRuns
  intro h
  obtain ⟨-, -, -, -, -, -, -, -, -, -, -, -, -, -, -, -, -, -, -, -, -, -, -, -, -, -, -, -, -, -, -, -, -, -, -, -, -, -, -,
      fenced⟩ :=
    h destWithTurnedAway destWithTurnedAway_canon
  exact not_runs_of_mapRej (fenced rfl rfl rfl rfl (by decide) (by decide) rfl) destWithTurnedAway_waitTimeout (by decide)

/-- Refutes O43: a rebuild stop that fences the destination refuses the host requests that wait past Map, and `MAP_REJ`
counts those that Map had turned away itself, which the clause of directive 6 has unchanged. -/
theorem not_directivesRun : ¬ Obligations.DirectivesRun := by
  unfold Obligations.DirectivesRun
  intro h
  obtain ⟨-, -, -, -, -, -, -, stops, -⟩ := h destWithTurnedAway destWithTurnedAway_canon
  exact not_runs_of_mapRej (stops ⟨.u0, 0, 1⟩ 0 (by decide +kernel) rfl rfl (by decide) rfl) destWithTurnedAway_rebuildStop
    (by decide)

end Sys2Proof.Machine
end

section
/-!
Messages that are discarded: counted in their port's `LNK_BADMSG`, and recorded with a word the manual leaves open (R79, R83, R108).
-/

set_option Elab.async false

namespace Sys2Proof.Machine

theorem Keeps.link {P : List Part} {s t : State} (k : Keeps P s t) (c : s.canon) (h : P.any (Part.covers · .links) = false)
    (p : Port) :
    t.link p = s.link p := by
  have links : t.links = s.links := k.same c .links h
  rw [State.link, links, State.link]

/-- What is recorded stays so while only parts beside the log and the time change. -/
theorem LoggedFree.keeps {P : List Part} {u t : State} {code : BitVec 16} (h : LoggedFree code u) (k : Keeps P u t) (c : u.canon)
    (log : P.any (Part.covers · .log) = false) (time : P.any (Part.covers · .time) = false) : LoggedFree code t := by
  have sameLog : t.log = u.log := k.same c .log log
  have sameTime : t.time = u.time := k.same c .time time
  rw [LoggedFree, sameLog, State.stamp, State.nowNs, sameTime]
  exact h

/-- An event without stated `DATA` is recorded by an attentive ring (log entry 2). -/
theorem State.freeEvent_logged {s : State} (h : Attentive s) {code : BitVec 16} (plain : intervalOf code = .plain) :
    LoggedFree code (s.freeEvent code) := by
  obtain ⟨e, mem, ec, -, es⟩ := State.capture_logged (s := s.draw.2) h plain (Config.freeWord s.free) 0
  exact ⟨e, mem, ec, es⟩

/-- The parts that a discarded message changes (R79). -/
def discardParts (p : Port) : List Part := .free :: .reg (Reg.LNK_BADMSG p.idx) :: logParts

theorem State.badMsg_discards (s : State) (p : Port) (code : BitVec 16) : Keeps (discardParts p) s (s.badMsg p code) :=
  .after (State.freeEvent_keeps _ code) (by cases p <;> decide) ((State.bump_keeps s _ 1).mono (by cases p <;> decide))

theorem State.badMsg_counted {s : State} (c : s.canon) (p : Port) (code : BitVec 16) :
    Counted (Reg.LNK_BADMSG p.idx) s (s.badMsg p code) :=
  Counted.keeps (s.fld_bump (Reg.LNK_BADMSG p.idx) 1) (State.freeEvent_keeps _ code) ((State.bump_keeps s _ 1).canon c)
    (by cases p <;> decide)

theorem State.badMsg_logged {s : State} (h : Attentive s) (p : Port) {code : BitVec 16} (plain : intervalOf code = .plain) :
    LoggedFree code (s.badMsg p code) :=
  State.freeEvent_logged (s := s.bump (Reg.LNK_BADMSG p.idx)) h plain

theorem State.badMsg_link {s : State} (c : s.canon) (p : Port) (code : BitVec 16) (q : Port) :
    (s.badMsg p code).link q = s.link q := (s.badMsg_discards p code).link c (by cases p <;> decide) q

/-- A command that makes of its message an unknown one discards it (R79). -/
theorem badMsg_runs {s : State} {i : Instr} (c : s.canon) (p : Port) {code : BitVec 16} (plain : intervalOf code = .plain)
    (run : exec i s = .next (s.badMsg p code)) :
    Runs s i (discardParts p) fun t => Counted (Reg.LNK_BADMSG p.idx) s t ∧ (Attentive s → LoggedFree code t) :=
  ⟨_, run, (s.badMsg_discards p code c).2, State.badMsg_counted c p code, fun att => State.badMsg_logged att p plain⟩

end Sys2Proof.Machine
end

section
/-!
Host requests on their way into the lane queue (R78 to R83, R94, R108).
-/

set_option Elab.async false

namespace Sys2Proof.Machine

theorem LinkSt.up_of_service {l : LinkSt} (h : l.lstate = .service) : l.up = true := by rw [LinkSt.up, h]

theorem LinkSt.takes_of_up {l : LinkSt} (h : l.up = true) : l.takes = true := by rw [LinkSt.takes, h, Bool.true_or]

theorem Port.isT_eq_false {p : Port} (h : p ≠ .t) : p.isT = false := by cases p <;> simp_all [Port.isT]

/-! ### A request that is queued -/

/-- The state of a port that has taken a request in, last in its lane. -/
def State.queued (s : State) (p : Port) (op : HostOp) (r : HostReq) : LinkSt :=
  { s.link p with
    granted := (s.link p).granted.spend (opCost op), nextReq := (s.link p).nextReq + 1, adm := (s.link p).adm.push r.tag,
    tags := (s.link p).tags ++ [r.tag],
    lane := (s.link p).lane ++ [{ kind := .host op, tag := r.tag, acc := r.acc, stream := r.stream, addr := r.addr,
                                  reqNo := (s.link p).nextReq, verdict := s.verdict }] }

theorem State.takesHost_iff (s : State) (p : Port) (op : HostOp) (r : HostReq) :
    s.takesHost p op r = true ↔ p.isT = false ∧ (s.link p).lstate = .service ∧ (s.link p).granted.covers (opCost op) = true ∧
      (s.link p).tags.contains r.tag = false ∧ s.malformed p op r = false ∧
      ∀ h ∈ (s.link p).halves, (h.tag == r.tag) = false := by
  simp [State.takesHost, and_assoc]

/-- A well formed request that meets nothing of its tag only takes its place, last in the lane. -/
theorem State.deliverHost_queued {s : State} {p : Port} {op : HostOp} {r : HostReq} (h : s.takesHost p op r = true) :
    s.deliverHost p op r = (s.placeReq p (opCost op) r.tag).setLink p (s.queued p op r) := by
  obtain ⟨host, serves, credit, tag, formed, alone⟩ := (s.takesHost_iff p op r).1 h
  have takes := LinkSt.takes_of_up (LinkSt.up_of_service serves)
  have lone : ((s.link p).halves.find? fun h => h.tag == r.tag && h.slot.isSome) = none :=
    List.find?_eq_none.2 fun h mem => by simp [alone h mem]
  have kept : ((s.link p).halves.filter fun h => !(h.tag == r.tag && h.drop)) = (s.link p).halves :=
    List.filter_eq_self.2 fun h mem => by simp [alone h mem]
  have formed' (l : LinkSt) : ((s.placeReq p (opCost op) r.tag).setLink p l).malformed p op r = false := formed
  have placed : (s.placeReq p (opCost op) r.tag).link p = { s.link p with
      granted := (s.link p).granted.spend (opCost op), nextReq := (s.link p).nextReq + 1, adm := (s.link p).adm.push r.tag } :=
    State.link_setLink s p _
  unfold State.deliverHost
  simp only [host, takes, credit, tag, lone, State.onLink, placed, kept, formed', Option.toList_none, List.foldl_nil,
    Option.bind_none, ite_self, Bool.not_true, Bool.or_self, Bool.false_eq_true, if_false]
  rfl

/-- The request stands last in its lane, and no other port changes. -/
theorem hostQueued_of_takesHost {s : State} {p : Port} {op : HostOp} {r : HostReq} {i : Instr} (c : s.canon)
    (h : s.takesHost p op r = true) (run : exec i s = .next (s.deliverHost p op r)) : Runs s i [.links] (HostQueued p op r s) := by
  rw [State.deliverHost_queued h] at run
  refine ⟨_, run, (Keeps.after (State.setLink_keeps _ p _) rfl (State.onLink_keeps s p _) c).2, State.link_setLink _ _ _,
      fun q hq => ?_⟩
  rw [State.link_setLink_other _ _ hq, State.placeReq, State.onLink, State.link_setLink_other _ _ hq]

/-! ### A request whose tag is in use -/

/-- What a port holds of its requests while it is sent to and credits are owed to it. -/
def LinkSt.requests (l : LinkSt) : Nat × List (BitVec 12) × List LaneReq := (l.nextReq, l.tags, l.lane)

theorem State.setLink_requests (s : State) (p : Port) {l : LinkSt} (h : l.requests = (s.link p).requests) :
    ((s.setLink p l).link p).requests = (s.link p).requests := by rw [State.link_setLink, h]

theorem State.send_requests (s : State) (p : Port) (m : Msg) : ((s.send p m).link p).requests = (s.link p).requests := by
  unfold State.send
  split
  · exact s.setLink_requests p rfl
  · rfl

theorem State.creditNow_requests (s : State) (p : Port) : ((s.creditNow p).link p).requests = (s.link p).requests := by
  unfold State.creditNow
  dsimp only
  split
  · exact (State.send_requests _ p _).trans (s.setLink_requests p rfl)
  · rfl

/-- Credits owed move nothing of a port's requests (R106). -/
theorem State.owe_requests (s : State) (p : Port) (r : Credits) : ((s.owe p r).link p).requests = (s.link p).requests := by
  have owed : ((s.onLink p fun l => { l with owed := l.owed.add r }).link p).requests = (s.link p).requests :=
    s.setLink_requests p rfl
  unfold State.owe
  split
  · dsimp only
    split
    · exact (State.creditNow_requests _ p).trans owed
    · exact owed
  · rfl

/-- Below 32 of a class, credits owed wait (R106). -/
theorem State.owe_waits {s : State} {p : Port} {r : Credits} (up : (s.link p).up = true)
    (few : ((s.link p).owed.add r).full = false) : s.owe p r = s.onLink p fun l => { l with owed := l.owed.add r } := by
  unfold State.owe
  simp [up, few, State.onLink]

theorem State.finishReq_host {p : Port} (host : p.isT = false) (s : State) (n : Nat) :
    s.finishReq p n = s.onLink p fun l => { l with adm := l.adm.finish n } := by
  rw [State.finishReq, host]
  rfl

/-- A request whose tag is in use, before its credits are owed back: it has its place, and its message is discarded (R83). -/
def State.tagClash (s : State) (p : Port) (op : HostOp) (r : HostReq) : State :=
  (s.placeReq p (opCost op) r.tag).badMsg p 0x1052

section
variable {s : State} (c : s.canon) {p : Port} {op : HostOp} {r : HostReq}

theorem exec_duplicateTag_clash (host : p.isT = false) (serves : (s.link p).lstate = .service)
    (credit : (s.link p).granted.covers (opCost op) = true) (used : r.tag ∈ (s.link p).tags) :
    exec (.duplicateTag p op r) s = .next (((s.tagClash p op r).owe p (opCost op)).onLink p fun l =>
      { l with adm := l.adm.finish (s.link p).nextReq }) := by
  have tag : (s.link p).tags.contains r.tag = true := List.contains_iff_mem.2 used
  have takes := LinkSt.takes_of_up (LinkSt.up_of_service serves)
  rw [← State.finishReq_host host]
  change execDuplicateTag p op r s = _
  simp only [execDuplicateTag, State.deliverHost, tag, credit, host, takes, Bool.and_self, Bool.not_true, Bool.or_self,
    Bool.false_eq_true, if_true, if_false]
  rfl

include c

theorem State.tagClash_link : (s.tagClash p op r).link p = { s.link p with
    granted := (s.link p).granted.spend (opCost op), nextReq := (s.link p).nextReq + 1, adm := (s.link p).adm.push r.tag } :=
  (State.badMsg_link ((State.onLink_keeps s p _).canon c) p 0x1052 p).trans (State.link_setLink s p _)

/-- A request whose tag is in use is discarded: it takes a place that ends at once, and its credits are owed back (R83, R94). -/
theorem duplicateTag_runs (hu : p ≠ .t) (serves : (s.link p).lstate = .service)
    (credit : (s.link p).granted.covers (opCost op) = true) (used : r.tag ∈ (s.link p).tags) :
    Runs s (.duplicateTag p op r) (.free :: .links :: .reg (Reg.LNK_BADMSG p.idx) :: logParts) fun t =>
      Counted (Reg.LNK_BADMSG p.idx) s t ∧ (t.link p).nextReq = (s.link p).nextReq + 1 ∧ (t.link p).tags = (s.link p).tags ∧
        (t.link p).lane = (s.link p).lane ∧ (Attentive s → LoggedFree 0x1052 t) ∧
        (((s.link p).owed.add (opCost op)).full = false → (t.link p).owed = (s.link p).owed.add (opCost op)) := by
  have placed := State.onLink_keeps s p fun l =>
    { l with granted := l.granted.spend (opCost op), nextReq := l.nextReq + 1, adm := l.adm.push r.tag }
  have clash : Keeps (.links :: discardParts p) s (s.tagClash p op r) :=
    .after (State.badMsg_discards _ p 0x1052) (by cases p <;> decide) (placed.mono (by cases p <;> decide))
  have later : Keeps [.links] (s.tagClash p op r) (((s.tagClash p op r).owe p (opCost op)).onLink p fun l =>
      { l with adm := l.adm.finish (s.link p).nextReq }) :=
    .after (State.onLink_keeps _ p _) rfl (State.owe_keeps _ p _)
  have link := State.tagClash_link c (p := p) (op := op) (r := r)
  have requests := (s.tagClash p op r).owe_requests p (opCost op)
  rw [link] at requests
  obtain ⟨next, tags, lane⟩ : _ ∧ _ ∧ _ := by simpa only [LinkSt.requests, Prod.mk.injEq] using requests
  refine ⟨_, exec_duplicateTag_clash (Port.isT_eq_false hu) serves credit used,
    (Keeps.after later (by cases p <;> decide) (clash.mono (by cases p <;> decide)) c).2, ?_, ?_, ?_, ?_, fun att => ?_,
        fun few => ?_⟩
  · have counted : Counted (Reg.LNK_BADMSG p.idx) s (s.tagClash p op r) :=
      State.badMsg_counted (s := s.placeReq p (opCost op) r.tag) (placed.canon c) p 0x1052
    exact counted.keeps later (clash.canon c) (by cases p <;> decide)
  · rw [State.onLink, State.link_setLink, next]
  · rw [State.onLink, State.link_setLink, tags]
  · rw [State.onLink, State.link_setLink, lane]
  · have logged : LoggedFree 0x1052 (s.tagClash p op r) :=
      State.badMsg_logged (s := s.placeReq p (opCost op) r.tag) att p (by decide)
    exact logged.keeps later (clash.canon c) rfl rfl
  · have up : ((s.tagClash p op r).link p).up = true := by
      rw [link]
      exact LinkSt.up_of_service serves
    rw [State.onLink, State.link_setLink, State.owe_waits up (by rw [link]; exact few), State.onLink, State.link_setLink, link]
end

theorem exec_duplicateTag_unused {s : State} {p : Port} {op : HostOp} {r : HostReq} (unused : r.tag ∉ (s.link p).tags) :
    exec (.duplicateTag p op r) s = .next s := by
  change execDuplicateTag p op r s = _
  rw [execDuplicateTag, if_neg (by simp [unused])]

/-- Settles O28: a request that is let in stands last in its lane; one whose tag is in use is discarded in its place. -/
theorem hostRequestsQueue : Obligations.HostRequestsQueue := by
  unfold Obligations.HostRequestsQueue
  exact fun s c => ⟨fun p r h => hostQueued_of_takesHost c h rfl, fun p r h => hostQueued_of_takesHost c h rfl,
    fun p r h => hostQueued_of_takesHost c h rfl, fun p r h => hostQueued_of_takesHost c h rfl,
    fun p r h => hostQueued_of_takesHost c h rfl, fun p r h => hostQueued_of_takesHost c h rfl,
    fun p op r hu serves credit used => duplicateTag_runs c hu serves credit used,
    fun p op r unused => exec_duplicateTag_unused unused⟩

end Sys2Proof.Machine
end

section
/-!
Lines and masks that come from the twin (R53, R96, R97, R100, R152, R174).
-/

set_option Elab.async false

namespace Sys2Proof.Machine

theorem State.notePoison_link (s : State) (p q : Port) (d : DataSlot) : (s.notePoison p d).link q = s.link q := by
  unfold State.notePoison
  split_ifs <;> rfl

theorem State.notePoison_twin (s : State) (p : Port) (d : DataSlot) : (s.notePoison p d).twin = s.twin := by
  unfold State.notePoison
  split_ifs <;> rfl

/-! ### A line in T's lane -/

/-- A line as it stands in T's lane (R97, R152, R174). -/
def State.lineReq (s : State) (kind : LaneKind) (d : DataSlot) (mask : Option (BitVec 64)) : LaneReq :=
  { kind := kind, tag := d.tag, stream := d.stream, addr := slotAddr d, slot := some d, mask := mask, epoch := s.twin.peerEpoch,
    reqNo := (s.link .t).nextReq, repNo := if kind == .replica then s.twin.rxCount + 1 else 0 }

theorem State.laneLine_link (s : State) (kind : LaneKind) (d : DataSlot) (mask : Option (BitVec 64)) :
    (s.laneLine kind d mask).link .t = { s.link .t with
      granted := (s.link .t).granted.spend lineCost, nextReq := (s.link .t).nextReq + 1, adm := (s.link .t).adm.push d.tag,
      lane := (s.link .t).lane ++ [s.lineReq kind d mask] } := by
  have placed : ((s.placeReq .t lineCost d.tag).notePoison .t d).link .t = { s.link .t with
      granted := (s.link .t).granted.spend lineCost, nextReq := (s.link .t).nextReq + 1, adm := (s.link .t).adm.push d.tag } :=
    (State.notePoison_link _ _ _ _).trans (State.link_setLink s .t _)
  have twin : ((s.placeReq .t lineCost d.tag).notePoison .t d).twin = s.twin := State.notePoison_twin _ _ _
  have placed' (w : TwinSt) : ({ (s.placeReq .t lineCost d.tag).notePoison .t d with twin := w } : State).link .t = _ := placed
  unfold State.laneLine State.lineReq
  cases h : kind == .replica
  · simp only [State.onLink, State.link_setLink, Bool.false_eq_true, if_false, placed, twin]
  · simp only [State.onLink, State.link_setLink, if_true, placed', twin]

/-- A replica takes the next replica number (R174); no other line does. -/
theorem State.laneLine_rxCount (s : State) (kind : LaneKind) (d : DataSlot) (mask : Option (BitVec 64)) :
    (s.laneLine kind d mask).twin.rxCount = if kind == .replica then s.twin.rxCount + 1 else s.twin.rxCount := by
  have twin : ((s.placeReq .t lineCost d.tag).notePoison .t d).twin = s.twin := State.notePoison_twin _ _ _
  unfold State.laneLine
  cases kind == .replica
  · exact congrArg TwinSt.rxCount twin
  · rfl

/-- A line that is credited, of its form, and without a mask only takes its place. -/
theorem State.deliverLine_laneLine {s : State} {kind : LaneKind} {form : Nat} {d : DataSlot} (up : (s.link .t).up = true)
    (credit : (s.link .t).granted.covers lineCost = true) (hf : d.form.toNat = form)
    (plain : (kind == .replica && slotMasked d) = false) : s.deliverLine kind form d = s.laneLine kind d none := by
  have form' : (d.form.toNat != form) = false := by simp [hf]
  simp only [State.deliverLine, LinkSt.takes_of_up up, credit, form', plain, Bool.not_true, Bool.false_eq_true, if_false]

theorem State.deliverLine_shut {s : State} (h : (s.link .t).takes = false) (kind : LaneKind) (form : Nat) (d : DataSlot) :
    s.deliverLine kind form d = s := by
  rw [State.deliverLine, h]
  rfl

/-- A command that delivers such a line leaves it last in T's lane, its credits spent. -/
theorem laneLine_runs {s : State} (c : s.canon) {i : Instr} {kind : LaneKind} {d : DataSlot}
    (run : exec i s = .next (s.laneLine kind d none)) : Runs s i [.links, .twin, .reg Reg.ECC_POISONIN] fun t =>
      (t.link .t).lane = (s.link .t).lane ++ [s.lineReq kind d none] ∧
      (t.link .t).granted = (s.link .t).granted.spend lineCost ∧ (t.link .t).nextReq = (s.link .t).nextReq + 1 ∧
      t.twin.rxCount = if kind == .replica then s.twin.rxCount + 1 else s.twin.rxCount := by
  refine ⟨_, run, (s.laneLine_keeps kind d none c).2, ?_, ?_, ?_, s.laneLine_rxCount kind d none⟩ <;> rw [State.laneLine_link]

/-! ### Masks (R96) -/

section
variable {s : State} {tag : BitVec 12} (byteMask : BitVec 64) (up : (s.link .t).up = true)
include up

theorem exec_mask_unknown (off : s.feat .t 16 = false) : exec (.mask tag byteMask) s = .next (s.badMsg .t 0x1051) := by
  change execMask tag byteMask s = _
  simp only [execMask, State.ifFeat, up, off, Bool.not_true, Bool.false_eq_true, if_false]

variable (on : s.feat .t 16 = true)
include on

theorem exec_mask_joins {q : LaneReq} {d : DataSlot} (alone : (s.link .t).lane = [q]) (kind : q.kind = .replica)
    (htag : q.tag = tag) (bare : q.mask = none) (slot : q.slot = some d) (masked : slotMasked d = true) :
    exec (.mask tag byteMask) s = .next (s.onLink .t fun l =>
      { l with lane := l.lane.map fun x => if x.reqNo == q.reqNo then { x with mask := some byteMask } else x }) := by
  change execMask tag byteMask s = _
  simp [execMask, State.ifFeat, up, on, alone, kind, htag, bare, slot, masked]

theorem exec_mask_waits (empty : (s.link .t).lane = []) : exec (.mask tag byteMask) s = .next (s.onLink .t fun l =>
    { l with halves := l.halves ++ [{ tag := tag, mask := some byteMask }] }) := by
  change execMask tag byteMask s = _
  simp [execMask, State.ifFeat, up, on, empty]
end

theorem exec_mask_shut {s : State} (tag : BitVec 12) (byteMask : BitVec 64) (down : (s.link .t).up = false) :
    exec (.mask tag byteMask) s = .next s := by
  change execMask tag byteMask s = _
  rw [execMask, down]
  rfl

/-- Settles O36: a line without a mask stands last in T's lane; a mask joins its replica, waits, or is unknown. -/
theorem twinLinesRun : Obligations.TwinLinesRun := by
  unfold Obligations.TwinLinesRun
  intro s c
  refine ⟨fun d up credit form plain => ?_, fun d down => ?_, fun d up credit form => ?_, fun d down => ?_,
    fun d up credit form => ?_, fun d down => ?_,
    fun tag byteMask q d up on alone kind htag bare slot masked => ?_, fun tag byteMask down => exec_mask_shut tag byteMask down,
    fun tag byteMask up on empty => ?_, fun tag byteMask up off => badMsg_runs c .t (by decide) (exec_mask_unknown byteMask up off)⟩
  · exact laneLine_runs c (congrArg Host.Outcome.next (State.deliverLine_laneLine up credit (congrArg BitVec.toNat form) plain))
  · exact congrArg Host.Outcome.next (State.deliverLine_shut down .replica 3 d)
  · exact laneLine_runs c (congrArg Host.Outcome.next (State.deliverLine_laneLine up credit (congrArg BitVec.toNat form) rfl))
  · exact congrArg Host.Outcome.next (State.deliverLine_shut down .rebuild 5 d)
  · exact laneLine_runs c (congrArg Host.Outcome.next (State.deliverLine_laneLine up credit (congrArg BitVec.toNat form) rfl))
  · exact congrArg Host.Outcome.next (State.deliverLine_shut down .repair 4 d)
  · refine ⟨_, exec_mask_joins byteMask up on alone kind htag bare slot masked, (State.onLink_keeps s .t _ c).2,
      (congrArg LinkSt.lane (State.link_setLink s .t _)).trans ?_⟩
    simp [alone]
  · refine ⟨_, exec_mask_waits byteMask up on empty, (State.onLink_keeps s .t _ c).2,
      congrArg LinkSt.halves (State.link_setLink s .t _)⟩

end Sys2Proof.Machine
end

section
/-!
Two events in a row: what one capture leaves of the ring's room for the next (R503 to R505).
-/

set_option Elab.async false

namespace Sys2Proof.Machine

/-- The log takes an event of this code, and so after `n` more entries: it has room, and Squall has not seen the code. -/
def LogSt.Takes (l : LogSt) (code : BitVec 16) (n : Nat) : Prop :=
  l.rdLog ≤ l.ring.length ∧ (l.squall = true → code ∉ l.seen) ∧ l.ring.length + n < 1008

theorem Attentive.takes {s : State} (h : Attentive s) (code : BitVec 16) : s.log.Takes code 240 := by
  obtain ⟨-, squall, room, rd, -⟩ := h
  exact ⟨rd, fun on => by simp [squall] at on, by omega⟩

theorem LogSt.Roomy.takes {l : LogSt} (h : l.Roomy) {code : BitVec 16} (hc : code ≠ 0x8001) : l.Takes code 220 := by
  obtain ⟨rd, ⟨squall, room⟩ | ⟨squall, seen, room⟩ | ⟨squall, seen, room⟩⟩ := h
  · exact ⟨rd, fun on => by simp [squall] at on, by omega⟩
  · exact ⟨rd, fun _ => by simp [seen], by omega⟩
  · exact ⟨rd, fun _ => by simpa [seen] using hc, by omega⟩

theorem LogSt.Takes.mono {l : LogSt} {code : BitVec 16} {m n : Nat} (h : l.Takes code n) (le : m ≤ n) : l.Takes code m := by
  obtain ⟨rd, fresh, room⟩ := h
  exact ⟨rd, fresh, by omega⟩

theorem LogSt.Takes.grows {l m : LogSt} {code : BitVec 16} {k n : Nat} (h : l.Takes code (n + k)) (g : LogSt.Grows k l m) :
    m.Takes code n := by
  obtain ⟨rd, fresh, room⟩ := h
  have size := g.size rd
  exact ⟨(g.holds rd).1, by rw [g.squall, g.seen]; exact fresh, by omega⟩

theorem LogSt.Takes.noteSeen {s : State} {code other : BitVec 16} {n : Nat} (h : s.log.Takes code n) (ne : other ≠ code) :
    (s.noteSeen other).log.Takes code n := by
  obtain ⟨rd, fresh, room⟩ := h
  unfold State.noteSeen
  split
  · exact ⟨rd, fun on => by simp [fresh on, Ne.symm ne], room⟩
  · exact ⟨rd, fresh, room⟩

section
variable {s : State} (on : s.top.aonOn = true) {code : BitVec 16} (data count : Word)
include on

/-- One general event leaves the log to take another. -/
theorem State.capture_takes {n : Nat} {other : BitVec 16} (h : s.log.Takes code (n + 7)) (plain : intervalOf other = .plain)
    (general : mayUseLast other = false) (ne : other ≠ code) : (s.capture other data count).log.Takes code n := by
  obtain ⟨x, e, ⟨g, -⟩, -, eq⟩ := State.capture_plain on plain data count
  have hx : x.log.Takes code (n + 7) := LogSt.Takes.grows (k := 0) h g
  have noted := hx.noteSeen ne
  obtain ⟨-, -, room⟩ := id hx
  rw [eq, State.place, if_neg (by simp [general])]
  split
  · exact LogSt.Takes.grows (k := 0) (hx.mono (by omega)) (x.coalesce_log e false)
  · rw [if_neg (by omega)]
    rcases (x.noteSeen other).pushAll_cases e with ⟨k, -⟩ | ⟨-, holds, size, -, seen⟩
    · exact LogSt.Takes.grows (k := 6) (noted.mono (by omega)) k
    · obtain ⟨rd, -, room'⟩ := noted
      have := size rd
      exact ⟨(holds rd).1, fun _ => by simp [seen], by omega⟩

/-- A general event that the log takes is recorded. -/
theorem State.capture_taken (c : s.canon) (h : s.log.Takes code 0) (plain : intervalOf code = .plain)
    (general : mayUseLast code = false) : Logged code data (s.capture code data count) := by
  obtain ⟨x, e, ⟨g, time⟩, ⟨ec, ed, es⟩, eq⟩ := State.capture_plain on plain data count
  have time' : (s.capture code data count).time = s.time := (State.capture_keeps s code data count).same c .time (by decide +kernel)
  obtain ⟨rd, fresh, room⟩ := LogSt.Takes.grows (k := 0) h g
  have unseen : (x.log.squall && x.log.seen.contains code) = false := by
    cases squall : x.log.squall <;> simp_all
  have placed : s.capture code data count = (x.noteSeen code).pushAll e := by
    rw [eq, State.place, if_neg (by simp [general]), if_neg (by rw [unseen]; decide), if_neg (by omega)]
  obtain ⟨q, hq⟩ := State.pushAll_mem (x.noteSeen_holds code rd).1 e
  rw [← placed] at hq
  refine ⟨_, hq, ec, ed, ?_⟩
  rw [State.stamp, State.nowNs, time', ← time]
  exact es

end

end Sys2Proof.Machine
end

section
/-!
A twin-loss cause raised in a steady pair (R25, R198, R207, R208).
-/

set_option Elab.async false

namespace Sys2Proof.Machine

/-! ### What a steady pair is made of -/

/-- Parts on which the places of the events of a core cycle do not depend (R25). -/
def sparesRanks (P : List Part) : Bool :=
  [Part.pending, .top, .pwr, .fuse, .block 0xA, .reg 0x0B0010].all fun q => !P.any (Part.covers · q)

theorem State.outranked_keeps {P : List Part} {s t : State} (k : Keeps P s t) (c : s.canon) (h : sparesRanks P = true)
    (rank : Nat) :
    t.outranked rank = s.outranked rank := by
  simp only [sparesRanks, List.all_cons, List.all_nil, Bool.and_true, Bool.and_eq_true, Bool.not_eq_true'] at h
  obtain ⟨pending, top, pwr, fuse, block, page⟩ := h
  exact State.outranked_congr (k.same c .pending pending) (k.same c .top top) (k.same c .pwr pwr) (k.same c .fuse fuse)
    (k.same c (.block 0xA) block) (k.reg c page) rank

/-- Work apart from the events' places and from `MIR_CAUSE` that leaves the pair state and the handovers keeps a steady pair. -/
theorem State.steady_of_pair {P : List Part} {s t : State} (k : Keeps P s t) (c : s.canon) (h : sparesRanks P = true)
    (cause : P.any (Part.covers · (.reg Reg.MIR_CAUSE)) = false) (pair : t.mir.pstate = s.mir.pstate)
    (handovers : t.mir.handovers = s.mir.handovers) (steady : s.steady = true) : t.steady = true := by
  have top : t.top = s.top := k.same c .top (by simp_all [sparesRanks])
  have stands : t.causeStands = s.causeStands := by rw [State.causeStands, k.fld c cause, State.causeStands]
  have state : t.pairState = s.pairState := by rw [State.pairState, top, pair, State.pairState]
  rw [State.steady, state, stands, handovers, State.outranked_keeps k c h]
  exact steady

theorem State.steady_keeps {P : List Part} {s t : State} (k : Keeps P s t) (c : s.canon) (h : sparesRanks P = true)
    (cause : P.any (Part.covers · (.reg Reg.MIR_CAUSE)) = false) (mir : P.any (Part.covers · .mir) = false)
        (steady : s.steady = true) :
    t.steady = true := by
  have same : t.mir = s.mir := k.same c .mir mir
  exact State.steady_of_pair k c h cause (by rw [same]) (by rw [same]) steady

theorem State.steady_iff (s : State) : s.steady = true ↔
    s.pairState = .paired ∧ s.causeStands = false ∧ s.mir.handovers = [] ∧ s.outranked 6 = false := by
  simp [State.steady, and_assoc]

/-! ### The cause (R207, R208) -/

/-- The cause as it is noted where nothing else follows from it. -/
def State.noteCause (s : State) (code : Nat) : State := (s.setFld Fld.MIR_CAUSE.FIRST code).event 0x4010 code

theorem State.noteCause_keeps (s : State) (code : Nat) : Keeps (.reg Reg.MIR_CAUSE :: logParts) s (s.noteCause code) :=
  .after (State.event_keeps _ _ _) (by decide) ((State.setFld_keeps s _ _).mono (by decide))

theorem State.noteCause_mild (s : State) (code : Nat) : Mild s (s.noteCause code) :=
  .via (State.event_mild _ _ _) (.apart (State.setFld_keeps s _ _) rfl)

/-- In a steady pair a cause is noted, and nothing follows from it at once. -/
theorem State.raiseCause_paired {s : State} (c : s.canon) (steady : s.steady = true) (code : Nat) :
    s.raiseCause code = s.noteCause code := by
  obtain ⟨paired, free, none, first⟩ := s.steady_iff.1 steady
  have k := s.noteCause_keeps code
  have later : (s.noteCause code).pairState = .paired := by
    have top : (s.noteCause code).top = s.top := k.same c .top (by decide)
    have mir : (s.noteCause code).mir = s.mir := k.same c .mir (by decide)
    rw [← paired, State.pairState, top, mir, State.pairState]
  have drains : s.dropDrains = s := by rw [State.dropDrains, none]; rfl
  unfold State.raiseCause
  simp only [paired, first, drains, free, Bool.false_eq_true, if_false]
  change (match (s.noteCause code).pairState with
    | .rebuildSrc => _ | .rebuildDst => _ | _ => s.noteCause code) = _
  rw [later]

/-- The first cause stands, and with room for it its event is recorded. -/
theorem State.raiseCause_taken {s u : State} (c : u.canon) (steady : u.steady = true) {code : Nat} (small : code < 16)
    (on : u.top.aonOn = s.top.aonOn) (log : Attentive s → u.log.Takes 0x4010 0) : CauseTaken code s (u.raiseCause code) := by
  rw [State.raiseCause_paired c steady]
  refine ⟨?_, fun att => ?_⟩
  · have first := (State.event_keeps (u.setFld Fld.MIR_CAUSE.FIRST code) 0x4010 code).fld ((State.setFld_keeps u _ _).canon c)
      (f := Fld.MIR_CAUSE.FIRST) (by decide)
    rw [State.noteCause, first, State.fld_setFld _ _ _ (by decide)]
    exact Nat.mod_eq_of_lt small
  · obtain ⟨attOn, -⟩ := id att
    exact State.capture_taken (s := u.setFld Fld.MIR_CAUSE.FIRST code) (on.trans attOn) _ _ ((State.setFld_keeps u _ _).canon c)
      (log att) (by decide) (by decide)

/-- A cause raised at once. -/
theorem raiseCause_runs {s : State} (c : s.canon) (steady : s.steady = true) {i : Instr} {code : Nat} (small : code < 16)
    (run : exec i s = .next (s.raiseCause code)) : Runs s i (.reg Reg.MIR_CAUSE :: logParts) (CauseTaken code s) := by
  refine ⟨_, run, ?_, State.raiseCause_taken c steady small rfl fun att => (att.takes _).mono (by omega)⟩
  rw [State.raiseCause_paired c steady]
  exact (s.noteCause_keeps code c).2

/-- A cause raised behind an event of its own: both are recorded. -/
theorem State.event_raiseCause {s u : State} {P : List Part} (k : Keeps P s u) (c : s.canon) (steady : u.steady = true)
    {event : BitVec 16}
    (data : Nat) {code : Nat} (small : code < 16) (plain : intervalOf event = .plain) (general : mayUseLast event = false)
    (ne : event ≠ 0x4010) (on : u.top.aonOn = s.top.aonOn) (log : Attentive s → u.log.Takes event 220 ∧ u.log.Takes 0x4010 7) :
    Keeps (.reg Reg.MIR_CAUSE :: logParts) u ((u.event event data).raiseCause code) ∧
      CauseTaken code s ((u.event event data).raiseCause code) ∧
      (Attentive s → Logged event (BitVec.ofNat 32 data) ((u.event event data).raiseCause code)) := by
  have cu := k.canon c
  have told := u.event_keeps event data
  have still : (u.event event data).steady = true := State.steady_keeps told cu (by decide) (by decide) (by decide) steady
  have top : (u.event event data).top = u.top := told.same cu .top (by decide)
  refine ⟨?_, State.raiseCause_taken (told.canon cu) still small (by rw [top]; exact on) fun att => ?_, fun att => ?_⟩
  · rw [State.raiseCause_paired (told.canon cu) still]
    exact .after (State.noteCause_keeps _ code) (by decide) (told.mono (by decide))
  · obtain ⟨attOn, -⟩ := id att
    obtain ⟨-, room⟩ := log att
    exact State.capture_takes (on.trans attOn) _ _ room plain general ne
  · obtain ⟨attOn, -⟩ := id att
    obtain ⟨room, -⟩ := log att
    have logged : Logged event (BitVec.ofNat 32 data) (u.event event data) :=
      State.capture_taken (on.trans attOn) _ _ cu (room.mono (by omega)) plain general
    obtain ⟨rd, -⟩ := room
    rw [State.raiseCause_paired (told.canon cu) still]
    exact (State.noteCause_mild _ code).logged (told.canon cu) (u.capture_holds event _ _ rd).1 logged

end Sys2Proof.Machine
end

section
/-!
What the hub's own agents leave of the mirror's books (R36, R161, R220): the marks, the pending table and the handovers in progress.
-/

set_option Elab.async false

namespace Sys2Proof.Machine

/-! ### The relation -/

/-- The mirror's books: what a mark written through, or a read that ends on its way, does not touch. -/
def MirSt.books (m : MirSt) : Tab Bool × Tab (Option PendEntry) × List Handover × PairState :=
    (m.marks, m.pend, m.handovers, m.pstate)

/-- From `s` to `t` the books stand. -/
def BooksKept (s t : State) : Prop := s.canon → t.canon ∧ t.mir.books = s.mir.books

theorem BooksKept.refl (s : State) : BooksKept s s := fun c => ⟨c, rfl⟩

theorem BooksKept.trans {a b c : State} (h : BooksKept a b) (k : BooksKept b c) : BooksKept a c := fun ca => by
  obtain ⟨cb, books⟩ := h ca
  obtain ⟨cc, books'⟩ := k cb
  exact ⟨cc, books'.trans books⟩

/-- One more operation at the end of a run of them. -/
theorem BooksKept.via {a b c : State} (k : BooksKept b c) (h : BooksKept a b) : BooksKept a c := h.trans k

theorem BooksKept.ite {p : Prop} [Decidable p] {a x y : State} (h : BooksKept a x) (k : BooksKept a y) :
    BooksKept a (if p then x else y) := by
  split <;> assumption

theorem BooksKept.foldl {α : Type} (l : List α) (f : State → α → State) (h : ∀ t x, BooksKept t (f t x)) (s : State) :
    BooksKept s (l.foldl f s) := by
  induction l generalizing s with
  | nil => exact .refl s
  | cons x r ih => exact (h s x).trans (ih _)

/-- An operation in whose frame the mirror does not lie. -/
theorem BooksKept.apart {P : List Part} {s t : State} (k : Keeps P s t) (h : P.any (Part.covers · .mir) = false) : BooksKept s t :=
  fun c => by
    have mir : t.mir = s.mir := k.same c .mir h
    exact ⟨k.canon c, by rw [mir]⟩

/-- A change of the mirror beside its books. -/
theorem BooksKept.of_mir {P : List Part} {s t : State} (k : Keeps P s t) (h : t.mir.books = s.mir.books) : BooksKept s t :=
  fun c => ⟨k.canon c, h⟩

/-! ### How a read ends (R133, R134, R189) -/

theorem State.giveTag_books (s : State) (i : Nat) : BooksKept s (s.giveTag i) := by
  unfold State.giveTag
  split
  · split
    · exact .apart (s.onEntry_keeps _ _) rfl
    · split
      · unfold State.askTwin State.setRepair
        exact .via (.apart (State.send_keeps _ _ _) rfl) (.via (.of_mir (Keeps.upd_mir _ _) rfl)
          (.via (.apart (State.onEntry_keeps _ _ _) rfl) (.of_mir (Keeps.upd_mir s _) rfl)))
      · exact .refl s
  · exact .refl s

theorem State.noteTaken_books (s : State) (b : Bool) : BooksKept s (s.noteTaken b) := .of_mir (s.noteTaken_keeps b) rfl

theorem State.answerTwin_books (s : State) (i : Nat) (e : PoolEntry) (line : Line) (k : PoisonKind) :
    BooksKept s (s.answerTwin i e line k) := by
  have found (f : PoolEntry → PoolEntry) : BooksKept s (s.onEntry i f) := .apart (s.onEntry_keeps i f) rfl
  unfold State.answerTwin
  refine .ite (.apart (s.freeEntry_keeps i) rfl) (.ite (.via (.apart (State.sendOwing_keeps _ _ _ _ _) rfl) (found _)) ?_)
  refine .via (.apart (State.onLink_keeps _ _ _) rfl) (.via (State.noteTaken_books _ _) ?_)
  exact .via (.apart (State.beatFirst_keeps _) rfl) (found _)

theorem State.damaged_books (s : State) (i : Nat) (e : PoolEntry) (line : Line) : BooksKept s (s.damaged i e line) := by
  unfold State.damaged
  split
  · exact s.answerTwin_books _ _ _ _
  · exact .ite (.via (State.giveTag_books _ _) (.apart (s.onEntry_keeps _ _) rfl))
      (.ite (.apart (s.mergeInto_keeps _ _ _) rfl) (.apart (s.readData_keeps _ _ _ _ _) rfl))

theorem State.served_books (s : State) (i : Nat) (line : Line) (k : PoisonKind) (corr : Nat) :
    BooksKept s (s.served i line k corr) := by
  unfold State.served
  split
  · refine .ite (.apart (s.agentServed_keeps _ _ _ _) rfl) ?_
    split
    · exact s.damaged_books _ _ _
    · split
      · exact s.answerTwin_books _ _ _ _
      · exact .apart (s.readData_keeps _ _ _ _ _) rfl
      · exact .ite (.apart (s.mergeInto_keeps _ _ _) rfl) (.refl s)
  · exact .refl s

theorem State.forward_books (s : State) (i j : Nat) : BooksKept s (s.forward i j) := by
  unfold State.forward
  split
  · exact .via (State.served_books _ _ _ _ _) (.via (.apart (State.bump_keeps _ _ _) rfl) (.apart (s.checkSeal_keeps _ _) rfl))
  · exact .refl s

theorem State.lookForLine_books (s : State) (i : Nat) : BooksKept s (s.lookForLine i).1 := by
  unfold State.lookForLine
  split
  · split
    · split
      · split
        · exact .via (.apart (State.bump_keeps _ _ _) rfl) (.apart (s.onEntry_keeps _ _) rfl)
        · exact s.forward_books _ _
      · exact .refl s
    · exact .refl s
  · exact .refl s

/-! ### The hub's own agents (R36, R161, R220) -/

theorem State.startWrite_books (s : State) (i : Nat) (forked : Bool) : BooksKept s (s.startWrite i forked) := by
  unfold State.startWrite
  split
  · extract_lets x
    have hx : BooksKept s x := .ite (s.lookForLine_books i) (.ite (.apart (State.bump_keeps _ _ _) rfl) (.refl s))
    exact .ite hx (.via (.apart (State.toSchedule_keeps _ _) rfl) hx)
  · exact .refl s

theorem State.startAgent_books (s : State) (i : Nat) : BooksKept s (s.startAgent i) := by
  unfold State.startAgent
  split
  · refine .ite (s.startWrite_books i false) ?_
    exact .trans (s.lookForLine_books i) (.ite (.apart (State.toSchedule_keeps _ _) rfl) (.refl _))
  · exact .refl s

theorem State.pumpAgents_books (n : Nat) (s : State) : BooksKept s (State.pumpAgents n s) := by
  induction n generalizing s with
  | zero => exact .refl s
  | succ n ih =>
    rw [State.pumpAgents]
    split
    · exact .refl s
    · exact .ite (.via (ih _) (.via (State.startAgent_books _ _)
        (.via (.apart (Keeps.upd_ord _ _) rfl) (.apart (State.setEntry_keeps s _ _) rfl)))) (.refl s)

theorem State.agentAsk_books (s : State) (qs : List AgentReq) : BooksKept s (s.agentAsk qs) := by
  unfold State.agentAsk
  exact .ite (.refl s) (.via (State.pumpAgents_books _ _) (.apart (Keeps.upd_ord s _) rfl))

/-! ### Marks (R220) -/

theorem State.cacheLine_books (s : State) (k : Nat) : BooksKept s (s.cacheLine k) := by
  unfold State.cacheLine
  exact .ite (.refl s) (.of_mir (Keeps.upd_mir s _) rfl)

/-- The books with granule `g` marked. -/
def State.withMark (s : State) (g : Nat) : State := { s with mir :=
    { s.mir with marks := Tab.set (fun _ => false) s.mir.marks g true } }

/-- A mark is written through, and the rest of the books stands (R220). -/
theorem State.mark_books (s : State) (g : Nat) : BooksKept (if s.marked g then s else s.withMark g) (s.mark g) := by
  unfold State.mark
  split
  · exact .refl s
  · extract_lets -lift -merge -useContext -underBinder +onlyGivenNames m x
    have hx : BooksKept (s.withMark g) x := .refl _
    refine .ite (.via (.of_mir (Keeps.upd_mir _ _) rfl) hx) ?_
    extract_lets -lift -merge -useContext -underBinder +onlyGivenNames y a l
    clear_value l a
    exact .via (State.agentAsk_books _ _) (.via (State.cacheLine_books _ _) hx)

theorem State.mark_calm {C : BitVec 16 → Prop} (hC : C 0x8001) (s : State) (g : Nat) : Calm C s (s.mark g) := by
  unfold State.mark
  refine .ite (.refl C s) ?_
  extract_lets -lift -merge -useContext -underBinder +onlyGivenNames m x
  have hx : Calm C s x := .of_keeps (Keeps.upd_mir s _) rfl rfl
  refine .ite (.via (.of_keeps (Keeps.upd_mir _ _) rfl rfl) hx) ?_
  extract_lets -lift -merge -useContext -underBinder +onlyGivenNames y a l
  clear_value l a
  refine .via (State.agentAsk_calm hC _ _) (.via ?_ hx)
  unfold y State.cacheLine
  exact .ite (.refl C _) (.of_keeps (Keeps.upd_mir _ _) rfl rfl)

theorem State.withMark_keeps (s : State) (g : Nat) : Keeps [.mir] s (s.withMark g) := Keeps.upd_mir s _

/-- A granule marked is marked, and the pending table, the handovers and the pair state stand. -/
theorem State.mark_spec {s : State} (c : s.canon) (g : Nat) : (s.mark g).marked g = true ∧ (s.mark g).mir.pend = s.mir.pend ∧
    (s.mark g).mir.handovers = s.mir.handovers ∧ (s.mark g).mir.pstate = s.mir.pstate := by
  by_cases h : s.marked g = true
  · have same : s.mark g = s := by rw [State.mark, if_pos h]
    rw [same]
    exact ⟨h, rfl, rfl, rfl⟩
  · have kept := s.mark_books g
    rw [if_neg h] at kept
    obtain ⟨-, books⟩ := kept ((s.withMark_keeps g).canon c)
    obtain ⟨marks, pend, handovers, pstate⟩ : _ ∧ _ ∧ _ ∧ _ := by simpa only [MirSt.books, Prod.mk.injEq] using books
    refine ⟨?_, pend, handovers, pstate⟩
    rw [State.marked, marks]
    exact Tab.get_set_same (fun _ => false) s.mir.marks g true

end Sys2Proof.Machine
end

section
/-!
Acknowledgements, rejections and their timers (R97 to R99, R174 to R178).
-/

set_option Elab.async false

namespace Sys2Proof.Machine

/-! ### Closing sent entries (R176, R192) -/

/-- The sent entries that a test selects. -/
def State.sentHits (s : State) (f : PendEntry → Bool) : List PendEntry :=
  s.mir.pend.filterMap fun q => match q.2 with
    | some e => if e.state == PendState.sent && f e then some e else Option.none
    | none => Option.none

/-- The pending table with them closed. -/
def leftOpen (f : PendEntry → Bool) (t : Tab (Option PendEntry)) : Tab (Option PendEntry) :=
  t.filter fun q => match q.2 with
    | some e => !(e.state == PendState.sent && f e)
    | none => true

theorem leftOpen_eq (f : PendEntry → Bool) (t : Tab (Option PendEntry)) :
    leftOpen f t = t.filter fun q => q.2.all fun e => !(e.state == .sent && f e) := by
  refine List.filter_congr fun q _ => ?_
  cases q.2 <;> rfl

def State.pendClosed (s : State) (f : PendEntry → Bool) : State := { s with mir := { s.mir with pend := leftOpen f s.mir.pend } }

/-- Their writes are acknowledged at Fork. -/
def State.forksAcked (s : State) (hit : List PendEntry) : State :=
  { s with ord := { s.ord with
    forks := s.ord.forks.map fun r => if hit.any (fun e => e.fork == r.no) then { r with acked := true } else r } }

/-- Their writes are acknowledged in the pool. -/
def State.poolAcked (s : State) (hit : List PendEntry) : State :=
  hit.foldl (fun s e => match e.pool with
    | some i => s.onEntry i fun e => { e with acked := true }
    | none => s) s

/-- What becomes of the acknowledged entries, before the handovers that waited for them go on. -/
def State.sentClosed (s : State) (f : PendEntry → Bool) : State :=
  (((s.pendClosed f).forksAcked (s.sentHits f)).poolAcked (s.sentHits f)).settle

theorem State.closeSent_eq (s : State) (f : PendEntry → Bool) : s.closeSent f = (s.sentClosed f).pumpHandovers := rfl

theorem State.poolAcked_keeps (s : State) (hit : List PendEntry) : Keeps [.ord] s (s.poolAcked hit) := by
  refine Keeps.foldl _ _ (.refl _ _) fun t e k => ?_
  split
  · exact .after (State.onEntry_keeps _ _ _) rfl k
  · exact k

theorem State.sentClosed_spec {s : State} (c : s.canon) (f : PendEntry → Bool) :
    Keeps [.links, .ord, .mir, .reg Reg.ORD_FLUSHES] s (s.sentClosed f) ∧
      (s.sentClosed f).mir = { s.mir with pend := leftOpen f s.mir.pend } := by
  have closed : Keeps [.mir] s (s.pendClosed f) := Keeps.upd_mir s _
  have forks : Keeps [.ord] (s.pendClosed f) ((s.pendClosed f).forksAcked (s.sentHits f)) := Keeps.upd_ord _ _
  have later : Keeps [.links, .ord, .reg Reg.ORD_FLUSHES] (s.pendClosed f) (s.sentClosed f) :=
    .after (State.settle_keeps _) rfl (.after (State.poolAcked_keeps _ _) rfl (forks.mono rfl))
  exact ⟨.after later rfl (closed.mono rfl), later.same (closed.canon c) .mir rfl⟩

/-- One handover of P goes on once its drain is complete (R192). -/
def State.pumpHandover (s : State) (h : Handover) : State :=
  match h.boundary with
  | some f =>
    if h.atP && !h.drainedSent && s.top.trigger.isNone && !s.openUpTo f then
      let w := s.rtEntry h.region
      let s := s.setRt h.region (rtPut w 2 (rtSync w) false)
      let hs : List Handover := s.mir.handovers.map fun x => if x.region == h.region then { x with drainedSent := true } else x
      (({ s with mir := { s.mir with handovers := hs } }).sendOwing .t (mkHandover h.mtag 2 s.mir.epoch h.region)
          { mg := 1 } Option.none)
    else s
  | none => s

theorem State.pumpHandovers_eq (s : State) : s.pumpHandovers = s.mir.handovers.foldl State.pumpHandover s := rfl

theorem State.sendOwing_mir (s : State) (p : Port) (m : Msg) (r : Credits) (pool : Option Nat) :
    (s.sendOwing p m r pool).mir = s.mir := by
  unfold State.sendOwing
  split <;> rfl

theorem State.setRt_mir (s : State) (r : Nat) (w : Word) : (s.setRt r w).mir = s.mir := by
  simp only [State.setRt]
  split_ifs <;> rfl

theorem State.pumpHandover_pend (s : State) (h : Handover) : (s.pumpHandover h).mir.pend = s.mir.pend := by
  unfold State.pumpHandover
  split
  · split
    · rw [State.sendOwing_mir]
      show (s.setRt h.region _).mir.pend = _
      rw [State.setRt_mir]
    · rfl
  · rfl

theorem State.pumpHandovers_pend (s : State) : s.pumpHandovers.mir.pend = s.mir.pend :=
  List.foldlRecOn (motive := fun t : State => t.mir.pend = s.mir.pend) s.mir.handovers State.pumpHandover rfl
    fun t h x _ => (t.pumpHandover_pend x).trans h

theorem State.pumpHandovers_none {s : State} (h : s.mir.handovers = []) : s.pumpHandovers = s := by
  rw [State.pumpHandovers, h]
  rfl

/-- Exactly the entries told are closed; without a handover only what follows from them moves. -/
theorem State.closeSent_spec {s : State} (c : s.canon) (f : PendEntry → Bool) :
    (s.closeSent f).mir.pend = leftOpen f s.mir.pend ∧
      (s.mir.handovers = [] → Keeps [.links, .ord, .mir, .reg Reg.ORD_FLUSHES] s (s.closeSent f)) := by
  obtain ⟨kept, mir⟩ := State.sentClosed_spec c f
  rw [State.closeSent_eq, State.pumpHandovers_pend, mir]
  refine ⟨rfl, fun none => ?_⟩
  rw [State.pumpHandovers_none (by rw [mir]; exact none)]
  exact kept

/-! ### Ranges and lists of acknowledgements (R97, R98) -/

section
variable {s : State} (c : s.canon) (up : (s.link .t).up = true)

include c in
/-- An inconsistent acknowledgement in a steady pair: counted, recorded, and the cause taken; no entry is closed (R176). -/
theorem ackBad_runs {i : Instr} (steady : s.steady = true) (data : Nat) (run : exec i s = .next (s.ackBad data)) :
    Runs s i (.reg Reg.MIR_ACKBAD :: .reg Reg.MIR_CAUSE :: logParts) fun t => Counted Reg.MIR_ACKBAD s t ∧ CauseTaken 4 s t ∧
      (Attentive s → Logged 0x4021 (BitVec.ofNat 32 data) t) := by
  have bumped := State.bump_keeps s Reg.MIR_ACKBAD 1
  have still : (s.bump Reg.MIR_ACKBAD).steady = true :=
    State.steady_keeps bumped c (by decide) (by decide) (by decide) steady
  obtain ⟨kept, taken, logged⟩ := State.event_raiseCause bumped c still data (code := 4) (event := 0x4021) (by decide) (by decide)
    (by decide) (by decide) rfl fun att => ⟨(att.takes _).mono (by decide), (att.takes _).mono (by decide)⟩
  have counted : Counted Reg.MIR_ACKBAD s (s.bump Reg.MIR_ACKBAD) := s.fld_bump _ 1
  exact ⟨_, run, (Keeps.after kept (by decide) (bumped.mono (by decide)) c).2, counted.keeps kept (bumped.canon c) (by decide),
      taken,
    logged⟩

include up

theorem exec_ackRange_unknown (epoch through : Word) (off : s.feat .t 20 = false) :
    exec (.ackRange epoch through) s = .next (s.badMsg .t 0x1051) := by
  change execAckRange epoch through s = _
  simp only [execAckRange, State.ifFeat, up, off, Bool.not_true, Bool.false_eq_true, if_false]

section
variable (on : s.feat .t 20 = true) (through : Word)
include on

theorem exec_ackRange_otherEpoch {epoch : Word} (other : epoch ≠ s.mir.epoch) :
    exec (.ackRange epoch through) s = .next (s.bump Reg.MIR_ACKBAD) := by
  change execAckRange epoch through s = _
  simp [execAckRange, State.ifFeat, up, on, other]

theorem exec_ackRange_outside (outside : behind through.toNat s.twin.lastThr = true ∨ behind s.twin.txCount through.toNat = true) :
    exec (.ackRange s.mir.epoch through) s = .next (s.ackBad through.toNat) := by
  change execAckRange s.mir.epoch through s = _
  simp [execAckRange, State.ifFeat, up, on, outside]

theorem exec_ackRange_within (new : behind through.toNat s.twin.lastThr = false)
    (sent : behind s.twin.txCount through.toNat = false) :
    exec (.ackRange s.mir.epoch through) s =
      .next (({ s with twin := { s.twin with lastThr := through.toNat } } : State).closeSent fun e =>
          !behind through.toNat e.rnum) := by
  change execAckRange s.mir.epoch through s = _
  simp [execAckRange, State.ifFeat, up, on, new, sent]
end

include c in
theorem ackRange_within_runs (on : s.feat .t 20 = true) (through : Word) (new : behind through.toNat s.twin.lastThr = false)
    (sent : behind s.twin.txCount through.toNat = false) :
    Runs s (.ackRange s.mir.epoch through) [.links, .twin, .ord, .map, .mir, .reg Reg.ORD_FLUSHES] fun t =>
      t.twin.lastThr = through.toNat ∧
      t.mir.pend = s.mir.pend.filter (fun q => q.2.all (fun e => !(e.state == .sent && !behind through.toNat e.rnum))) ∧
      (s.mir.handovers = [] → SameBut [.links, .twin, .ord, .mir, .reg Reg.ORD_FLUSHES] s t) := by
  have heard : Keeps [.twin] s { s with twin := { s.twin with lastThr := through.toNat } } := Keeps.upd_twin s _
  have ch := heard.canon c
  obtain ⟨pend, quiet⟩ := State.closeSent_spec ch fun e => !behind through.toNat e.rnum
  have kept := State.closeSent_keeps ({ s with twin := { s.twin with lastThr := through.toNat } } : State)
    fun e => !behind through.toNat e.rnum
  refine ⟨_, exec_ackRange_within up on through new sent, (Keeps.after kept rfl (heard.mono rfl) c).2, ?_, ?_, fun none => ?_⟩
  · have twin : _ = TwinSt.mk .. := kept.same ch .twin rfl
    rw [twin]
  · rw [pend, leftOpen_eq]
  · exact (Keeps.after (quiet none) rfl (heard.mono rfl) c).2

theorem exec_ackLines_unknown {tags : List (BitVec 12)} (h : tags = [] ∨ 9 < tags.length) :
    exec (.ackLines tags) s = .next (s.badMsg .t 0x1051) := by
  change execAckLines tags s = _
  rcases h with h | h <;> simp [execAckLines, up, h]

theorem exec_ackLines_unsent {tags : List (BitVec 12)} (few : tags.length ≤ 9)
    (unsent : tags.any (fun x => (s.sentAt x).isNone) = true) :
    ∃ tag : BitVec 12, exec (.ackLines tags) s = .next (s.ackBad tag.toNat) := by
  obtain ⟨x, mem, hx⟩ := List.any_eq_true.1 unsent
  obtain ⟨tag, found⟩ := Option.isSome_iff_exists.1 (List.find?_isSome (p := fun t => (s.sentAt t).isNone).2 ⟨x, mem, hx⟩)
  refine ⟨tag, ?_⟩
  change execAckLines tags s = _
  have formed : (tags.isEmpty || decide (tags.length > 9)) = false := by
    have : tags ≠ [] := List.ne_nil_of_mem mem
    simp [this, few]
  simp only [execAckLines, up, formed, found, Bool.not_true, Bool.false_eq_true, if_false]

theorem exec_ackLines_sent {tags : List (BitVec 12)} (some' : tags ≠ []) (few : tags.length ≤ 9)
    (sent : tags.all (fun x => (s.sentAt x).isSome) = true) :
    exec (.ackLines tags) s = .next (s.closeSent fun e => tags.any fun t => e.rnum % 4096 == t.toNat) := by
  have found : tags.find? (fun t => (s.sentAt t).isNone) = none :=
    List.find?_eq_none.2 fun x mem => by
      simpa [Option.isSome_iff_ne_none] using List.all_eq_true.1 sent x mem
  have formed : (tags.isEmpty || decide (tags.length > 9)) = false := by simp [some', few]
  change execAckLines tags s = _
  simp only [execAckLines, up, formed, found, Bool.not_true, Bool.false_eq_true, if_false]
end

/-! ### Rejections (R99, R176, R177, R225) -/

section
variable {s : State} {tag : BitVec 12} {form : BitVec 3} {reason : Byte} {epoch : Word} {addr : BitVec 42}
variable (up : (s.link .t).up = true)
include up

omit up in
theorem replicaRej_listed (low : 3 ≤ form.toNat) (high : form.toNat ≤ 5) (named : reason ≠ 0) (known : reason.toNat ≤ 9) :
    (form.toNat < 3 || form.toNat > 5 || reason = 0 || reason.toNat > 9) = false := by
  simp only [Bool.or_eq_false_iff, decide_eq_false_iff_not]
  exact ⟨⟨⟨by omega, by omega⟩, named⟩, by omega⟩

theorem exec_replicaRej_unknown (h : form.toNat < 3 ∨ 5 < form.toNat ∨ reason = 0 ∨ 9 < reason.toNat) :
    exec (.replicaRej tag form reason epoch addr) s = .next (s.badMsg .t 0x1051) := by
  have unlisted : (form.toNat < 3 || form.toNat > 5 || reason = 0 || reason.toNat > 9) = true := by simpa [or_assoc] using h
  change execReplicaRej tag form reason epoch addr s = _
  simp only [execReplicaRej, up, unlisted, Bool.not_true, Bool.false_eq_true, if_false, if_true]

variable (named : reason ≠ 0) (known : reason.toNat ≤ 9)
include named known

theorem exec_replicaRej_otherEpoch (low : 3 ≤ form.toNat) (high : form.toNat ≤ 5) (other : epoch ≠ s.mir.epoch) :
    exec (.replicaRej tag form reason epoch addr) s = .next (s.bump Reg.MIR_ACKBAD) := by
  have listed := replicaRej_listed low high named known
  change execReplicaRej tag form reason epoch addr s = _
  simp only [execReplicaRej, up, listed, bne_iff_ne.2 other, Bool.not_true, Bool.false_eq_true, if_false, if_true]

theorem exec_replicaRej_repair : exec (.replicaRej tag 4 reason s.mir.epoch addr) s = .next (s.bumpF Fld.ECC_REPAIRW.REJECTED) := by
  have listed := replicaRej_listed (form := 4) (by decide) (by decide) named known
  change execReplicaRej tag 4 reason s.mir.epoch addr s = _
  simp only [execReplicaRej, up, listed, bne_self_eq_false, Bool.not_true, Bool.false_eq_true, if_false]
  rfl

theorem exec_replicaRej_rebuild : exec (.replicaRej tag 5 reason s.mir.epoch addr) s = .next { s with mir := { s.mir with
    copies := s.mir.copies.map fun c => if c.gran == addr.toNat >>> 15 then { c with rejected := true } else c } } := by
  have listed := replicaRej_listed (form := 5) (by decide) (by decide) named known
  change execReplicaRej tag 5 reason s.mir.epoch addr s = _
  simp only [execReplicaRej, up, listed, bne_self_eq_false, Bool.not_true, Bool.false_eq_true, if_false]
  rfl

theorem exec_replicaRej_unsent (h : (s.sentAt tag).all (fun e => e.pair != addr) = true) :
    exec (.replicaRej tag 3 reason s.mir.epoch addr) s = .next (s.ackBad tag.toNat) := by
  have listed := replicaRej_listed (form := 3) (by decide) (by decide) named known
  change execReplicaRej tag 3 reason s.mir.epoch addr s = _
  rw [execReplicaRej, if_neg (by simp [up]), if_neg (Bool.eq_false_iff.1 listed), if_neg (by simp)]
  cases found : s.sentAt tag with
  | none =>
    simp only [BitVec.reduceToNat]
  | some e =>
    have other : (e.pair == addr) = false := by simpa [found] using h
    simp only [BitVec.reduceToNat, other, Bool.false_eq_true, if_false]

/-- The pending table with the entry at a tag closed. -/
def State.entryClosed (s : State) (tag : BitVec 12) : State :=
  { s with mir := { s.mir with pend := Tab.set (fun _ => Option.none) s.mir.pend tag.toNat Option.none } }

/-- The state once a rejected replica's entry is closed, its granule marked, and the rejection counted (R177). -/
def State.replicaRefused (s : State) (tag : BitVec 12) (e : PendEntry) : State :=
  ((s.entryClosed tag).mark e.gran).bump Reg.MIR_REPLREJ

theorem exec_replicaRej_replica {e : PendEntry} (sent : s.sentAt tag = some e) (pair : e.pair = addr) :
    exec (.replicaRej tag 3 reason s.mir.epoch addr) s = .next ((((s.replicaRefused tag e).event 0x4020
      (reason.toNat + ((addr.toNat >>> 24) <<< 8))).raiseCause 3).pumpHandovers) := by
  have listed := replicaRej_listed (form := 3) (by decide) (by decide) named known
  change execReplicaRej tag 3 reason s.mir.epoch addr s = _
  rw [execReplicaRej, if_neg (by simp [up]), if_neg (Bool.eq_false_iff.1 listed), if_neg (by simp)]
  simp only [BitVec.reduceToNat, sent, beq_iff_eq.2 pair, if_true]
  rfl
end

/-- The parts that the refusal of a replica changes before its cause is taken. -/
def refusedParts : List Part := .mir :: .reg Reg.MIR_REPLREJ :: State.mark_parts

section
variable {s : State} (c : s.canon) (tag : BitVec 12) (e : PendEntry)
include c

theorem State.replicaRefused_spec : Keeps refusedParts s (s.replicaRefused tag e) ∧
    Counted Reg.MIR_REPLREJ s (s.replicaRefused tag e) ∧
    (s.replicaRefused tag e).marked e.gran = true ∧ (s.replicaRefused tag e).sentAt tag = none ∧
    (s.replicaRefused tag e).mir.handovers = s.mir.handovers ∧ (s.replicaRefused tag e).mir.pstate = s.mir.pstate ∧
    (s.log.Roomy → (s.replicaRefused tag e).log.Roomy) := by
  have closed : Keeps [.mir] s (s.entryClosed tag) := Keeps.upd_mir s _
  have cw := closed.canon c
  obtain ⟨marked, pend, handovers, pstate⟩ := State.mark_spec cw e.gran
  have mark : Keeps (.mir :: State.mark_parts) s ((s.entryClosed tag).mark e.gran) :=
    .after (State.mark_keeps _ e.gran) (by decide) (closed.mono (by decide))
  have empty : Tab.get (fun _ => (none : Option PendEntry)) (s.replicaRefused tag e).mir.pend tag.toNat = none :=
    (congrArg (Tab.get _ · tag.toNat) pend).trans (Tab.get_set_same (fun _ => none) s.mir.pend tag.toNat none)
  refine ⟨.after (State.bump_keeps _ _ 1) (by decide) (mark.mono (by decide)), .bump_after mark c (by decide), marked,
    by rw [State.sentAt, empty], handovers, pstate, ?_⟩
  exact (State.mark_calm (C := (· = 0x8001)) rfl (s.entryClosed tag) e.gran).roomy cw

/-- A replica refused in a steady pair: counted, its granule marked, its entry closed, and the cause taken (R176, R177). -/
theorem replicaRej_replica_runs {i : Instr} (steady : s.steady = true) (data : Nat)
    (run : exec i s = .next ((((s.replicaRefused tag e).event 0x4020 data).raiseCause 3).pumpHandovers)) :
    Runs s i (.ord :: .mir :: .sch :: .reg Reg.ORD_FWD :: .reg Reg.ORD_LINEHOLD :: .reg Reg.MIR_CAUSE :: .reg Reg.MIR_REPLREJ ::
      .links :: .twin :: .reg Reg.ECC_SEALFAIL :: .reg Reg.ECC_FIRSTFAIL :: logParts) fun t =>
      Counted Reg.MIR_REPLREJ s t ∧ t.marked e.gran = true ∧ t.sentAt tag = none ∧ CauseTaken 3 s t ∧
      (Attentive s → Logged 0x4020 (BitVec.ofNat 32 data) t) := by
  obtain ⟨refused, counted, marked, closed, handovers, pstate, room⟩ := State.replicaRefused_spec c tag e
  have cu := refused.canon c
  have still := State.steady_of_pair refused c (by decide) (by decide) pstate handovers steady
  have top : (s.replicaRefused tag e).top = s.top := refused.same c .top (by decide)
  obtain ⟨kept, taken, logged⟩ := State.event_raiseCause refused c still data (code := 3) (event := 0x4020) (by decide) (by decide)
    (by decide) (by decide) (by rw [top]) fun att =>
      ⟨(room att.roomy).takes (by decide), ((room att.roomy).takes (by decide)).mono (by decide)⟩
  have mir : (((s.replicaRefused tag e).event 0x4020 data).raiseCause 3).mir = (s.replicaRefused tag e).mir :=
      kept.same cu .mir (by decide)
  obtain ⟨-, -, none, -⟩ := s.steady_iff.1 steady
  rw [State.pumpHandovers_none (by rw [mir, handovers, none])] at run
  refine ⟨_, run, (Keeps.after kept (by decide) (refused.mono (by decide)) c).2, counted.keeps kept cu (by decide), ?_, ?_, taken,
      logged⟩
  · rw [State.marked, mir]
    exact marked
  · rw [State.sentAt, mir]
    exact closed
end

/-! ### The timers (R97, R98, R175, R178) -/

/-- A message sent on T with its note in the twin's record. -/
theorem sendNoted_runs {s : State} (c : s.canon) (up : (s.link .t).up = true) {i : Instr} {w : TwinSt} {m : Msg}
    (run : exec i s = .next (({ s with twin := w } : State).send .t m)) :
    Runs s i [.links, .twin] fun t => t.twin = w ∧ SentOnT m s t := by
  refine ⟨_, run, (Keeps.after (State.send_keeps _ .t m) rfl ((Keeps.upd_twin s w).mono rfl) c).2, ?_, ?_⟩
  · unfold State.send
    split <;> rfl
  · rw [SentOnT, State.send_up (s := { s with twin := w }) up, State.onLink, State.link_setLink]
    rfl

theorem ofNat_mod_two_pow (w n : Nat) : BitVec.ofNat w (n % 2 ^ w) = BitVec.ofNat w n := by
  apply BitVec.eq_of_toNat_eq
  simp

/-- Settles O37: an acknowledgement closes what it names or takes its cause; a rejection and a timer likewise. -/
theorem acknowledgementsRun : Obligations.AcknowledgementsRun := by
  unfold Obligations.AcknowledgementsRun
  intro s c
  refine ⟨?range, ?rangeShut, ?rangeEpoch, ?rangeBad, ?rangeUnknown, ?lines, ?linesShut, ?linesBad, ?linesUnknown, ?rej, ?rejShut,
    ?rejEpoch, ?rejRepair, ?rejRebuild, ?rejUnsent, ?rejUnknown, ?interval, ?intervalIdle, ?send, ?sendIdle, ?timeout, ?timeoutIdle⟩
  case range =>
    rintro epoch through up on rfl new sent
    exact ackRange_within_runs c up on through new sent
  case rangeShut =>
    intro epoch through down
    change execAckRange epoch through s = _
    rw [execAckRange, down]
    rfl
  case rangeEpoch =>
    intro epoch through up on other
    exact ⟨_, exec_ackRange_otherEpoch up on through other, (State.bump_keeps s _ 1 c).2, s.fld_bump _ 1⟩
  case rangeBad =>
    rintro epoch through up on rfl outside steady
    have runs := ackBad_runs c steady through.toNat (exec_ackRange_outside up on through outside)
    rwa [BitVec.ofNat_toNat, BitVec.setWidth_eq] at runs
  case rangeUnknown => exact fun epoch through up off => badMsg_runs c .t (by decide) (exec_ackRange_unknown up epoch through off)
  case lines =>
    intro tags up some' few sent
    obtain ⟨pend, quiet⟩ := State.closeSent_spec c fun e => tags.any fun t => e.rnum % 4096 == t.toNat
    exact ⟨_, exec_ackLines_sent up some' few sent, (State.closeSent_keeps s _ c).2, by rw [pend, leftOpen_eq],
      fun none => (quiet none c).2⟩
  case linesShut =>
    intro tags down
    change execAckLines tags s = _
    rw [execAckLines, down]
    rfl
  case linesBad =>
    intro tags up few unsent steady
    obtain ⟨tag, run⟩ := exec_ackLines_unsent up few unsent
    exact (ackBad_runs c steady tag.toNat run).imp fun t ⟨counted, taken, _⟩ => ⟨counted, taken⟩
  case linesUnknown => exact fun tags up h => badMsg_runs c .t (by decide) (exec_ackLines_unknown up h)
  case rej =>
    rintro tag form reason epoch addr e up named known rfl rfl sent pair steady
    exact replicaRej_replica_runs c tag e steady _ (exec_replicaRej_replica up named known sent pair)
  case rejShut =>
    intro tag form reason epoch addr down
    change execReplicaRej tag form reason epoch addr s = _
    rw [execReplicaRej, down]
    rfl
  case rejEpoch =>
    intro tag form reason epoch addr up named known low high other
    exact ⟨_, exec_replicaRej_otherEpoch up named known low high other, (State.bump_keeps s _ 1 c).2, s.fld_bump _ 1⟩
  case rejRepair =>
    rintro tag form reason epoch addr up named known rfl rfl
    exact ⟨_, exec_replicaRej_repair up named known, (State.bumpF_keeps s Fld.ECC_REPAIRW.REJECTED 1 c).2,
      s.fld_bumpF Fld.ECC_REPAIRW.REJECTED (by decide)⟩
  case rejRebuild =>
    rintro tag form reason epoch addr up named known rfl rfl
    refine ⟨_, exec_replicaRej_rebuild up named known, (Keeps.upd_mir s _ c).2, ?_, rfl⟩
    simp only [beq_iff_eq]
  case rejUnsent =>
    rintro tag form reason epoch addr up named known rfl rfl other steady
    exact (ackBad_runs c steady tag.toNat (exec_replicaRej_unsent up named known other)).imp fun t ⟨counted, taken, _⟩ =>
      ⟨counted, taken⟩
  case rejUnknown => exact fun tag form reason epoch addr up h => badMsg_runs c .t (by decide) (exec_replicaRej_unknown up h)
  case interval =>
    intro up on due
    have run : exec .ackIntervalExpiry s = .next (({ s with twin := { s.twin with thrSent := s.twin.thr.base } } : State).send .t
        (mkAckRange s.mir.epoch s.twin.thr.base)) := by
      change execAckIntervalExpiry s = _
      rw [execAckIntervalExpiry, if_pos (by simp [up, on, due])]
    exact sendNoted_runs c up run
  case intervalIdle =>
    intro h
    change execAckIntervalExpiry s = _
    rw [execAckIntervalExpiry, if_neg (by rcases h with h | h | h <;> simp [h])]
  case send =>
    intro up off waits
    have run : exec .ackLinesSend s = .next (({ s with twin := { s.twin with ackTags := s.twin.ackTags.drop 9 } } : State).send .t
        (mkAckLines (s.twin.ackTags.take 9))) := by
      change execAckLinesSend s = _
      rw [execAckLinesSend, if_pos (by simp [up, off, waits])]
    exact sendNoted_runs c up run
  case sendIdle =>
    intro h
    change execAckLinesSend s = _
    rw [execAckLinesSend, if_neg (by rcases h with h | h | h <;> simp [h])]
  case timeout =>
    intro e oldest steady
    have run : exec .ackTimeout s = .next ((s.event 0x4022 (e.rnum % 2 ^ 32)).raiseCause 5) := by
      change execAckTimeout s = _
      rw [execAckTimeout, oldest]
    obtain ⟨kept, taken, logged⟩ := State.event_raiseCause (Keeps.refl [] s) c steady (e.rnum % 2 ^ 32) (code := 5)
        (event := 0x4022)
      (by decide) (by decide) (by decide) (by decide) rfl fun att =>
          ⟨(att.takes _).mono (by decide), (att.takes _).mono (by decide)⟩
    rw [ofNat_mod_two_pow] at logged
    exact ⟨_, run, (kept c).2, taken, logged⟩
  case timeoutIdle =>
    intro none
    change execAckTimeout s = _
    rw [execAckTimeout, none]

end Sys2Proof.Machine
end

section
/-!
Mirror-control messages, and the end of a handover (R101, R108, R191 to R197, R200).
-/

set_option Elab.async false

namespace Sys2Proof.Machine

/-- The ring stays attentive through work that leaves it, the top level and the time alone. -/
theorem Attentive.keeps {P : List Part} {s t : State} (h : Attentive s) (k : Keeps P s t) (c : s.canon)
    (spares : ([.top, .log, .time].all fun q => !P.any (Part.covers · q)) = true) : Attentive t := by
  simp only [List.all_cons, List.all_nil, Bool.and_true, Bool.and_eq_true, Bool.not_eq_true'] at spares
  obtain ⟨top, log, time⟩ := spares
  have sameTop : t.top = s.top := k.same c .top top
  have sameLog : t.log = s.log := k.same c .log log
  have sameTime : t.time = s.time := k.same c .time time
  rw [Attentive, sameTop, sameLog, State.stamp, State.nowNs, sameTime]
  exact h

/-- What is recorded stays so while only parts beside the log and the time change. -/
theorem Logged.keeps {P : List Part} {u t : State} {code : BitVec 16} {data : Word} (h : Logged code data u) (k : Keeps P u t)
    (c : u.canon) (log : P.any (Part.covers · .log) = false) (time : P.any (Part.covers · .time) = false) : Logged code data t := by
  have sameLog : t.log = u.log := k.same c .log log
  have sameTime : t.time = u.time := k.same c .time time
  rw [Logged, sameLog, State.stamp, State.nowNs, sameTime]
  exact h

/-! ### A mirror-control message arrives (R78, R108) -/

/-- The message has spent its MG credit. -/
def State.mgTaken (s : State) : State :=
  s.setLink .t { s.link .t with granted := { (s.link .t).granted with mg := (s.link .t).granted.mg - 1 } }

theorem State.mgTaken_keeps (s : State) : Keeps [.links] s s.mgTaken := State.setLink_keeps s .t _

theorem State.mgTaken_link (s : State) : s.mgTaken.link .t =
    { s.link .t with granted := { (s.link .t).granted with mg := (s.link .t).granted.mg - 1 } } := State.link_setLink s .t _

theorem State.mgTaken_up {s : State} (up : (s.link .t).up = true) : (s.mgTaken.link .t).up = true := by
  rw [State.mgTaken_link]
  exact up

theorem State.takeMg_open {s : State} (up : (s.link .t).up = true) (credit : (s.link .t).granted.mg ≠ 0) (f : State → State) :
    s.takeMg f = f s.mgTaken := by
  simp only [State.takeMg, LinkSt.takes_of_up up, credit, Bool.not_true, Bool.false_eq_true, if_false]
  rfl

theorem State.takeMg_shut {s : State} (h : (s.link .t).takes = false) (f : State → State) : s.takeMg f = s := by
  rw [State.takeMg, h]
  rfl

theorem State.takeMg_overrun {s : State} (takes : (s.link .t).takes = true) (empty : (s.link .t).granted.mg = 0)
    (f : State → State) :
    s.takeMg f = s.badMsg .t 0x1050 := by
  simp only [State.takeMg, takes, empty, Bool.not_true, Bool.false_eq_true, if_false, if_true]
  rfl

/-- Without a credit the message is an overrun, and is discarded. -/
theorem overrun_runs {s : State} (c : s.canon) {i : Instr} {f : State → State} (takes : (s.link .t).takes = true)
    (empty : (s.link .t).granted.mg = 0) (run : exec i s = .next (s.takeMg f)) :
    Runs s i (discardParts .t) fun t => Counted (Reg.LNK_BADMSG Port.t.idx) s t ∧ (Attentive s → LoggedFree 0x1050 t) :=
  badMsg_runs c .t (by decide) (run.trans (by rw [State.takeMg_overrun takes empty]))

theorem State.sendOwing_up {s : State} {p : Port} (up : (s.link p).up = true) (m : Msg) (r : Credits) (pool : Option Nat) :
    s.sendOwing p m r pool = s.onLink p fun l => { l with tx := l.tx ++ [.owing m r pool] } := if_pos up

/-- The answer to a handover message, as it waits to be sent (R192). -/
def handoverAnswer (m : HandoverMsg) (step : Nat) (epoch : Word) : TxItem :=
  .owing (mkHandover m.mtag step epoch m.region.toNat) { mg := 1 } none

theorem State.answerHandover_link {s : State} (up : (s.link .t).up = true) (m : HandoverMsg) (step : Nat) :
    (s.answerHandover m step).link .t = { s.link .t with tx := (s.link .t).tx ++ [handoverAnswer m step s.mir.epoch] } := by
  rw [State.answerHandover, State.sendOwing_up up, State.onLink, State.link_setLink]
  rfl

/-! ### A change of the region table (R147) -/

/-- Outside a trigger a table entry that has not failed takes its change at once. -/
theorem State.setRt_entry {s : State} {r : Nat} (w : Word) (trigger : s.top.trigger = none) (good : s.rtFailed r = false) :
    (s.setRt r w).rtEntry r = w := by
  rw [State.rtFailed, Bool.or_eq_false_iff] at good
  obtain ⟨failed, lost⟩ := good
  simp only [State.setRt, trigger, failed, lost, Option.isSome_none, Bool.false_or, Bool.false_eq_true, if_false]
  split_ifs with same
  · exact (beq_iff_eq.1 same).symm
  · exact Tab.get_set_same (fun _ => 0) s.map.rt r w

/-! ### A handover ends (R194, R195, R200) -/

/-- What the end of a handover shows: it is no longer noted, its result and region stand, and it has been counted and recorded. -/
structure HandoverEnded (r result : Nat) (code : BitVec 16) (s t : State) : Prop where
  handovers : t.mir.handovers = s.mir.handovers.filter fun x => x.region != r
  shown : t.fld Fld.MIR_HOSTAT.LAST_RESULT = result
  region : t.fld Fld.MIR_HOSTAT.LAST_REGION = r
  done : result = 1 → t.fld Fld.MIR_HOCNT.DONE = min Fld.MIR_HOCNT.DONE.max (s.fld Fld.MIR_HOCNT.DONE + 1)
  refused : result ≠ 1 → t.fld Fld.MIR_HOCNT.REFUSED = min Fld.MIR_HOCNT.REFUSED.max (s.fld Fld.MIR_HOCNT.REFUSED + 1)
  logged : Attentive s → Logged code (BitVec.ofNat 32 r) t

/-- The result and the region as `MIR_HOSTAT` shows them, before the handover is counted. -/
def State.handoverShown (s : State) (r result : Nat) : State :=
  (({ s with mir := { s.mir with handovers := s.mir.handovers.filter fun h => h.region != r } } : State).setFld
    Fld.MIR_HOSTAT.LAST_RESULT result).setFld Fld.MIR_HOSTAT.LAST_REGION r

theorem State.handoverShown_fld (s : State) {r result : Nat} (hr : r < 2 ^ 18) (small : result < 4) :
    (s.handoverShown r result).fld Fld.MIR_HOSTAT.LAST_RESULT = result ∧
        (s.handoverShown r result).fld Fld.MIR_HOSTAT.LAST_REGION = r ∧
      ∀ f : Fld, f.addr ≠ Reg.MIR_HOSTAT → (s.handoverShown r result).fld f = s.fld f := by
  refine ⟨?_, ?_, fun f hf => ?_⟩
  · rw [State.handoverShown, State.fld_setFld_disjoint (f := Fld.MIR_HOSTAT.LAST_REGION) (g := Fld.MIR_HOSTAT.LAST_RESULT) _ r rfl
      (by decide), State.fld_setFld _ _ _ (by decide)]
    exact Nat.mod_eq_of_lt small
  · rw [State.handoverShown, State.fld_setFld _ _ _ (by decide)]
    exact Nat.mod_eq_of_lt hr
  · rw [State.handoverShown, State.fld_setFld_other _ _ hf, State.fld_setFld_other _ _ hf]
    rfl

theorem State.countHandover_eq (s : State) (r result : Nat) : s.countHandover r result =
    (s.handoverShown r result).bumpF (if result = 1 then Fld.MIR_HOCNT.DONE else Fld.MIR_HOCNT.REFUSED) := by
  unfold State.countHandover
  split <;> rfl

section
variable {P : List Part} {s a : State} (k : Keeps P s a) (c : s.canon) {r result : Nat} {code : BitVec 16}
include k c

/-- The end of a handover after work on ports and on the region table alone. -/
theorem State.endHandover_ended (hr : r < 2 ^ 18) (small : result < 4) (plain : intervalOf code = .plain)
    (within : partsWithin P [.links, .map] = true) : HandoverEnded r result code s (a.endHandover r result code) := by
  have k' : Keeps [.links, .map] s a := k.mono within
  have ca := k.canon c
  have counted := a.countHandover_keeps r result
  have told := (a.countHandover r result).event_keeps code r
  have cc := counted.canon ca
  obtain ⟨shown, region, others⟩ := a.handoverShown_fld hr small
  have mir : a.mir = s.mir := k'.same c .mir rfl
  have fld (f : Fld) (h : f.addr = Reg.MIR_HOSTAT ∨ f.addr = Reg.MIR_HOCNT) :
      (a.endHandover r result code).fld f = (a.countHandover r result).fld f :=
    told.fld cc (by rcases h with h | h <;> rw [h] <;> decide)
  have count (f : Fld) (h : f.addr = Reg.MIR_HOCNT) : a.fld f = s.fld f := k'.fld c (by rw [h]; rfl)
  refine ⟨?_, ?_, ?_, fun h => ?_, fun h => ?_, fun att => ?_⟩
  · have later : (a.endHandover r result code).mir = (a.countHandover r result).mir := told.same cc .mir (by decide)
    rw [later, State.countHandover_eq, ← mir]
    rfl
  · rw [fld _ (Or.inl rfl), State.countHandover_eq, State.bumpF, State.fld_setFld_other _ _ (by split <;> decide), shown]
  · rw [fld _ (Or.inl rfl), State.countHandover_eq, State.bumpF, State.fld_setFld_other _ _ (by split <;> decide), region]
  · rw [fld _ (Or.inr rfl), State.countHandover_eq, if_pos h, State.fld_bumpF _ _ (by decide), others _ (by decide), count _ rfl]
  · rw [fld _ (Or.inr rfl), State.countHandover_eq, if_neg h, State.fld_bumpF _ _ (by decide), others _ (by decide), count _ rfl]
  · exact State.capture_logged ((att.keeps k' c (by decide)).keeps counted ca (by decide)) plain _ _
end

/-- What the end of a handover leaves: the ports and the region table. -/
theorem State.endHandover_rest {s : State} (c : s.canon) (r result : Nat) (code : BitVec 16) :
    (∀ p, (s.endHandover r result code).link p = s.link p) ∧ ∀ n, (s.endHandover r result code).rtEntry n = s.rtEntry n := by
  have k := s.endHandover_keeps r result code
  have map : (s.endHandover r result code).map = s.map := k.same c .map (by decide)
  exact ⟨fun p => k.link c (by decide) p, fun n => by rw [State.rtEntry, map, State.rtEntry]⟩

end Sys2Proof.Machine
end

section
/-!
The handover messages and the timeout, each by what it makes of the region, of the handover and of T (R191 to R197).
-/

set_option Elab.async false

namespace Sys2Proof.Machine

/-- A message that is answered with nothing else to do: its answer waits, its credit spent. -/
theorem State.mgTaken_answered {s : State} (up : (s.link .t).up = true) (m : HandoverMsg) (step : Nat) :
    Keeps [.links] s (s.mgTaken.answerHandover m step) ∧
    (s.mgTaken.answerHandover m step).link .t = { s.link .t with
      granted := { (s.link .t).granted with mg := (s.link .t).granted.mg - 1 },
      tx := (s.link .t).tx ++ [handoverAnswer m step s.mir.epoch] } := by
  refine ⟨.after (State.answerHandover_keeps _ m step) rfl s.mgTaken_keeps, ?_⟩
  rw [State.answerHandover_link (State.mgTaken_up up), State.mgTaken_link]
  rfl

/-! ### The request (R192, R193) -/

section
variable {s : State} (c : s.canon) {m : HandoverMsg} (up : (s.link .t).up = true) (credit : (s.link .t).granted.mg ≠ 0)
  (trigger : s.top.trigger = none)

/-- A region in which a handover may begin: its entry is sound, `SYNCED` or `OFFLINE`, and none is in progress. -/
def State.handoverCalm (s : State) (r : Nat) : Bool :=
  !s.rtFailed r && (rtSync (s.rtEntry r) == 0 || rtSync (s.rtEntry r) == 5) && !rtHandover (s.rtEntry r)

include up credit trigger

/-- A request that begins a handover, that finds it already done, or that is refused. -/
theorem exec_handoverRequest : exec (.handoverRequest m) s = .next (
    if s.handoverCalm m.region.toNat && rtRole (s.rtEntry m.region.toNat) == 1 && s.mir.handovers.length < 16 then
      { s.mgTaken.setRt m.region.toNat (rtPut (s.rtEntry m.region.toNat) 1 (rtSync (s.rtEntry m.region.toNat)) true) with
        mir := { s.mir with handovers := s.mir.handovers ++ [{ region := m.region.toNat, atP := true, mtag := m.mtag }] } }
    else if s.handoverCalm m.region.toNat && rtRole (s.rtEntry m.region.toNat) == 2 then
      (s.mgTaken.event 0x4033 m.region.toNat).answerHandover m 2
    else s.mgTaken.answerHandover m 4) := by
  have none : s.mgTaken.top.trigger.isSome = false := by
    show s.top.trigger.isSome = false
    rw [trigger]
    rfl
  change execHandoverRequest m s = _
  rw [execHandoverRequest, State.takeMg_open up credit]
  simp only [none, Bool.false_eq_true, if_false, State.setRt_mir]
  rfl

include c

theorem handoverRequest_begins {w : Word} (good : s.rtFailed m.region.toNat = false) (entry : w = s.rtEntry m.region.toNat)
    (role : rtRole w = 1) (sync : rtSync w = 0 ∨ rtSync w = 5) (calm : rtHandover w = false) (few : s.mir.handovers.length < 16) :
    Runs s (.handoverRequest m) [.links, .map, .mir] fun t => t.rtEntry m.region.toNat = rtPut w 1 (rtSync w) true ∧
      t.mir.handovers = s.mir.handovers ++ [{ region := m.region.toNat, atP := true, mtag := m.mtag }] ∧
      (t.link .t).granted = { (s.link .t).granted with mg := (s.link .t).granted.mg - 1 } := by
  subst entry
  have run := exec_handoverRequest (m := m) up credit trigger
  have begins : (s.handoverCalm m.region.toNat && rtRole (s.rtEntry m.region.toNat) == 1 &&
      decide (s.mir.handovers.length < 16)) = true := by
    rcases sync with h | h <;> simp [State.handoverCalm, good, role, h, calm, few]
  rw [if_pos begins] at run
  have set := s.mgTaken.setRt_keeps m.region.toNat (rtPut (s.rtEntry m.region.toNat) 1 (rtSync (s.rtEntry m.region.toNat)) true)
  have entry := State.setRt_entry (s := s.mgTaken) (r := m.region.toNat)
    (rtPut (s.rtEntry m.region.toNat) 1 (rtSync (s.rtEntry m.region.toNat)) true) trigger good
  refine ⟨_, run, (Keeps.after (Keeps.upd_mir _ _) rfl (.after set rfl (s.mgTaken_keeps.mono rfl)) c).2, entry, rfl, ?_⟩
  exact congrArg LinkSt.granted ((set.link (s.mgTaken_keeps.canon c) rfl .t).trans s.mgTaken_link)

theorem handoverRequest_refused (h : s.rtFailed m.region.toNat = true ∨ rtRole (s.rtEntry m.region.toNat) = 0 ∨
      rtHandover (s.rtEntry m.region.toNat) = true ∨
      (rtSync (s.rtEntry m.region.toNat) ≠ 0 ∧ rtSync (s.rtEntry m.region.toNat) ≠ 5) ∨
      (rtRole (s.rtEntry m.region.toNat) = 1 ∧ 16 ≤ s.mir.handovers.length)) :
    Runs s (.handoverRequest m) [.links] fun t =>
      (t.link .t).tx = (s.link .t).tx ++ [handoverAnswer m 4 s.mir.epoch] ∧
      (t.link .t).granted = { (s.link .t).granted with mg := (s.link .t).granted.mg - 1 } := by
  have run := exec_handoverRequest (m := m) up credit trigger
  have idle : (s.handoverCalm m.region.toNat && rtRole (s.rtEntry m.region.toNat) == 1 &&
      decide (s.mir.handovers.length < 16)) = false ∧
      (s.handoverCalm m.region.toNat && rtRole (s.rtEntry m.region.toNat) == 2) = false := by
    rcases h with h | h | h | ⟨behind, resync⟩ | ⟨role, full⟩
    · simp [State.handoverCalm, h]
    · simp [h]
    · simp [State.handoverCalm, h]
    · simp [State.handoverCalm, behind, resync]
    · simp [role, full]
  rw [idle.1, idle.2, if_neg Bool.false_ne_true, if_neg Bool.false_ne_true] at run
  obtain ⟨keeps, answered⟩ := State.mgTaken_answered up m 4
  exact ⟨_, run, (keeps c).2, by rw [answered], by rw [answered]⟩

/-- At a replica that is `SYNCED` the handover is already done: the answer says so (R193). -/
theorem handoverRequest_repeated {w : Word} (good : s.rtFailed m.region.toNat = false) (entry : w = s.rtEntry m.region.toNat)
    (role : rtRole w = 2) (sync : rtSync w = 0) (calm : rtHandover w = false) :
    Runs s (.handoverRequest m) (.links :: logParts) fun t =>
      (t.link .t).tx = (s.link .t).tx ++ [handoverAnswer m 2 s.mir.epoch] ∧
      (Attentive s → Logged 0x4033 (BitVec.ofNat 32 m.region.toNat) t) := by
  subst entry
  have run := exec_handoverRequest (m := m) up credit trigger
  have done : s.handoverCalm m.region.toNat = true := by simp [State.handoverCalm, good, sync, calm]
  simp only [done, role, Nat.reduceBEq, Bool.and_false, Bool.false_and, Bool.and_true, Bool.false_eq_true, if_false, if_true] at run
  have taken := s.mgTaken_keeps
  have told := s.mgTaken.event_keeps 0x4033 m.region.toNat
  have ct := taken.canon c
  have answers := State.answerHandover_keeps (s.mgTaken.event 0x4033 m.region.toNat) m 2
  have link : (s.mgTaken.event 0x4033 m.region.toNat).link .t = s.mgTaken.link .t := told.link ct (by decide) .t
  have epoch : (s.mgTaken.event 0x4033 m.region.toNat).mir = s.mir := told.same ct .mir (by decide)
  refine ⟨_, run, (Keeps.after answers rfl (.after told rfl (taken.mono rfl)) c).2, ?_, fun att => ?_⟩
  · rw [State.answerHandover_link (by rw [link]; exact State.mgTaken_up up), link, State.mgTaken_link, epoch]
  · have logged : Logged 0x4033 (BitVec.ofNat 32 m.region.toNat) (s.mgTaken.event 0x4033 m.region.toNat) :=
      State.capture_logged (att.keeps taken c (by decide)) (by decide) _ _
    exact Logged.keeps logged answers (told.canon ct) (by decide) (by decide)

end

/-! ### The fork mark (R192 steps 3 to 5) -/

/-- P is a replica of the region from now on, and the handover has sent its drained message. -/
def State.drainedAt (s : State) (h : Handover) : State :=
  { s.setRt h.region (rtPut (s.rtEntry h.region) 2 (rtSync (s.rtEntry h.region)) false) with
    mir := { s.mir with
      handovers := s.mir.handovers.map fun x => if x.region == h.region then { x with drainedSent := true } else x } }

theorem State.drainedAt_keeps (s : State) (h : Handover) : Keeps [.map, .mir] s (s.drainedAt h) :=
  .after (Keeps.upd_mir _ _) rfl ((s.setRt_keeps h.region _).mono rfl)

theorem State.pumpHandover_drained {s : State} {h : Handover} {f : Nat} (boundary : h.boundary = some f) (atP : h.atP = true)
    (unsent : h.drainedSent = false) (trigger : s.top.trigger = none) (drained : s.openUpTo f = false) :
    s.pumpHandover h = (s.drainedAt h).sendOwing .t (mkHandover h.mtag 2 s.mir.epoch h.region) { mg := 1 } none := by
  simp only [State.pumpHandover, boundary, atP, unsent, trigger, drained, State.setRt_mir, Option.isNone_none, Bool.not_false,
    Bool.and_true, if_true]
  rfl

/-- P's one handover, its boundary noted. -/
def State.forkMarked (s : State) (h : Handover) : State :=
  { s with mir := { s.mir with handovers := [{ h with boundary := some (s.ord.forkNext - 1) }] } }

section
variable {s : State} (c : s.canon) {region : BitVec 18} {h : Handover} (trigger : s.top.trigger = none)
  (only : s.mir.handovers = [h]) (same : h.region = region.toNat) (atP : h.atP = true) (unmarked : h.boundary = none)
include trigger only same atP unmarked

theorem exec_handoverForkMark : exec (.handoverForkMark region) s =
    .next ((s.forkMarked h).pumpHandover { h with boundary := some (s.ord.forkNext - 1) }) := by
  change execHandoverForkMark region s = _
  simp [execHandoverForkMark, trigger, only, same, atP, unmarked, State.pumpHandovers_eq, State.forkMarked]

include c

theorem handoverForkMark_waits (opened : s.openUpTo (s.ord.forkNext - 1) = true) :
    Runs s (.handoverForkMark region) [.mir] fun t => t.mir.handovers = [{ h with boundary := some (s.ord.forkNext - 1) }] := by
  have run := exec_handoverForkMark trigger only same atP unmarked
  have opened' : (s.forkMarked h).openUpTo (s.ord.forkNext - 1) = true := opened
  simp only [State.pumpHandover, opened', Bool.not_true, Bool.and_false, Bool.false_eq_true, if_false] at run
  exact ⟨_, run, (Keeps.upd_mir s _ c).2, rfl⟩

theorem handoverForkMark_drains (unsent : h.drainedSent = false) (up : (s.link .t).up = true)
    (drained : s.openUpTo (s.ord.forkNext - 1) = false) (good : s.rtFailed region.toNat = false) :
    Runs s (.handoverForkMark region) [.links, .map, .mir] fun t =>
      t.rtEntry region.toNat = rtPut (s.rtEntry region.toNat) 2 (rtSync (s.rtEntry region.toNat)) false ∧
      t.mir.handovers = [{ h with boundary := some (s.ord.forkNext - 1), drainedSent := true }] ∧
      (t.link .t).tx = (s.link .t).tx ++ [.owing (mkHandover h.mtag 2 s.mir.epoch region.toNat) { mg := 1 } none] := by
  have run := exec_handoverForkMark trigger only same atP unmarked
  rw [State.pumpHandover_drained (s := s.forkMarked h) (h := { h with boundary := some (s.ord.forkNext - 1) })
      rfl atP unsent trigger drained] at run
  have marked : Keeps [.mir] s (s.forkMarked h) := Keeps.upd_mir s _
  have takes := (s.forkMarked h).drainedAt_keeps { h with boundary := some (s.ord.forkNext - 1) }
  have link := (takes.link (marked.canon c) rfl .t).trans (marked.link c rfl .t)
  rw [State.sendOwing_up (by rw [link]; exact up)] at run
  have entry := State.setRt_entry (s := s.forkMarked h) (r := region.toNat)
    (rtPut (s.rtEntry region.toNat) 2 (rtSync (s.rtEntry region.toNat)) false) trigger good
  refine ⟨_, run, (Keeps.after (State.onLink_keeps _ .t _) rfl (.after takes rfl (marked.mono rfl)) c).2, ?_, ?_, ?_⟩
  · rw [← same] at entry ⊢
    exact entry
  · simp [State.onLink, State.setLink, State.drainedAt, State.forkMarked]
  · rw [State.onLink, State.link_setLink, link, same]
    rfl

end

/-! ### The answers and the timeout (R192, R194, R195) -/

/-- The parts that the end of a handover changes beside its region and its answer (R194, R195). -/
def handoverEndParts : List Part := .mir :: .reg Reg.MIR_HOSTAT :: .reg Reg.MIR_HOCNT :: logParts

/-- A command that ends a handover, after work on ports and on the region table alone. -/
theorem endHandover_runs {s b : State} {i : Instr} {P Q : List Part} {result : Nat} {code : BitVec 16} {r : BitVec 18} (c : s.canon)
    (k : Keeps P s b) (within : partsWithin P [.links, .map] = true) (small : result < 4) (plain : intervalOf code = .plain)
    (parts : partsWithin P Q = true) (ends : partsWithin State.endHandover_parts Q = true)
    (run : exec i s = .next (b.endHandover r.toNat result code)) :
    Runs s i Q fun t => HandoverEnded r.toNat result code s t ∧ (∀ p, t.link p = b.link p) ∧ ∀ n, t.rtEntry n = b.rtEntry n :=
  ⟨_, run, (Keeps.after (b.endHandover_keeps r.toNat result code) ends (k.mono parts) c).2,
    State.endHandover_ended k c r.isLt small plain within, State.endHandover_rest (k.canon c) r.toNat result code⟩

section
variable {s : State} (c : s.canon) {m : HandoverMsg} (up : (s.link .t).up = true) (credit : (s.link .t).granted.mg ≠ 0)

section
variable (trigger : s.top.trigger = none) (good : s.rtFailed m.region.toNat = false)
  (role : rtRole (s.rtEntry m.region.toNat) = 2)

section
include c up trigger good

/-- The region takes its new role, and the answer waits on T. -/
theorem State.mgTaken_regionAnswered (w : Word) (step : Nat) :
    Keeps [.links, .map] s ((s.mgTaken.setRt m.region.toNat w).answerHandover m step) ∧
      ((s.mgTaken.setRt m.region.toNat w).answerHandover m step).rtEntry m.region.toNat = w ∧
      (((s.mgTaken.setRt m.region.toNat w).answerHandover m step).link .t).tx =
        (s.link .t).tx ++ [handoverAnswer m step s.mir.epoch] := by
  have set := s.mgTaken.setRt_keeps m.region.toNat w
  have taken := s.mgTaken_keeps
  have answers := State.answerHandover_keeps (s.mgTaken.setRt m.region.toNat w) m step
  have link := (set.link (taken.canon c) rfl .t).trans s.mgTaken_link
  have map : ((s.mgTaken.setRt m.region.toNat w).answerHandover m step).map = (s.mgTaken.setRt m.region.toNat w).map :=
    answers.same (set.canon (taken.canon c)) .map rfl
  refine ⟨.after answers rfl (.after set rfl (taken.mono rfl)), ?_, ?_⟩
  · rw [State.rtEntry, map]
    exact State.setRt_entry (s := s.mgTaken) w trigger good
  · rw [State.answerHandover_link (by rw [link]; exact up), link, State.setRt_mir]
    rfl

end

include up credit trigger good role

theorem exec_handoverDrained : exec (.handoverDrained m) s = .next (
    if rtSync (s.rtEntry m.region.toNat) = 0 then
      ((s.mgTaken.setRt m.region.toNat (rtPut (s.rtEntry m.region.toNat) 1 0 false)).answerHandover m 3).endHandover
        m.region.toNat 1 0x4030
    else
      ((s.mgTaken.setRt m.region.toNat (rtPut (s.rtEntry m.region.toNat) 2 (rtSync (s.rtEntry m.region.toNat))
          false)).answerHandover
        m 4).endHandover m.region.toNat 2 0x4031) := by
  have good' : s.mgTaken.rtFailed m.region.toNat = false := good
  have noTrigger : s.mgTaken.top.trigger = none := trigger
  have entry : s.mgTaken.rtEntry m.region.toNat = s.rtEntry m.region.toNat := rfl
  change execHandoverDrained m s = _
  simp [execHandoverDrained, State.takeMg_open up credit, noTrigger, good', entry, role]

include c

theorem handoverDrained_taken (sync : rtSync (s.rtEntry m.region.toNat) = 0) :
    Runs s (.handoverDrained m) (.links :: .map :: handoverEndParts) fun t =>
      HandoverEnded m.region.toNat 1 0x4030 s t ∧ t.rtEntry m.region.toNat = rtPut (s.rtEntry m.region.toNat) 1 0 false ∧
      (t.link .t).tx = (s.link .t).tx ++ [handoverAnswer m 3 s.mir.epoch] := by
  obtain ⟨keeps, entry, tx⟩ := State.mgTaken_regionAnswered c up trigger good (rtPut (s.rtEntry m.region.toNat) 1 0 false) 3
  have run := exec_handoverDrained up credit trigger good role
  rw [if_pos sync] at run
  obtain ⟨t, run, frame, ended, links, entries⟩ := endHandover_runs (Q := .links :: .map :: handoverEndParts) c keeps rfl
      (by decide) (by decide)
    (by decide) (by decide) run
  exact ⟨t, run, frame, ended, (entries _).trans entry, by rw [links, tx]⟩

theorem handoverDrained_refused (sync : rtSync (s.rtEntry m.region.toNat) ≠ 0) :
    Runs s (.handoverDrained m) (.links :: .map :: handoverEndParts) fun t =>
      HandoverEnded m.region.toNat 2 0x4031 s t ∧
      t.rtEntry m.region.toNat = rtPut (s.rtEntry m.region.toNat) 2 (rtSync (s.rtEntry m.region.toNat)) false ∧
      (t.link .t).tx = (s.link .t).tx ++ [handoverAnswer m 4 s.mir.epoch] := by
  obtain ⟨keeps, entry, tx⟩ := State.mgTaken_regionAnswered c up trigger good
    (rtPut (s.rtEntry m.region.toNat) 2 (rtSync (s.rtEntry m.region.toNat)) false) 4
  have run := exec_handoverDrained up credit trigger good role
  rw [if_neg sync] at run
  obtain ⟨t, run, frame, ended, links, entries⟩ := endHandover_runs (Q := .links :: .map :: handoverEndParts) c keeps rfl
      (by decide) (by decide)
    (by decide) (by decide) run
  exact ⟨t, run, frame, ended, (entries _).trans entry, by rw [links, tx]⟩

end

/-- The MG credit of a message that is not answered is owed at once. -/
theorem State.mgTaken_owe_keeps (s : State) : Keeps [.links] s (s.mgTaken.owe .t { mg := 1 }) :=
  .after (State.owe_keeps _ .t _) rfl s.mgTaken_keeps

include c

theorem owed_handoverOf (r : Nat) : (s.mgTaken.owe .t { mg := 1 }).handoverOf r = s.handoverOf r := by
  have mir : (s.mgTaken.owe .t { mg := 1 }).mir = s.mir := s.mgTaken_owe_keeps.same c .mir rfl
  rw [State.handoverOf, mir, State.handoverOf]

include up credit

theorem exec_handoverTaken {h : Handover} (going : s.handoverOf m.region.toNat = some h) (atP : h.atP = true)
    (sent : h.drainedSent = true) : exec (.handoverTaken m) s =
      .next ((s.mgTaken.owe .t { mg := 1 }).endHandover m.region.toNat 1 0x4030) := by
  have going' : (s.mgTaken.owe .t { mg := 1 }).handoverOf m.region.toNat = some h := (owed_handoverOf c _).trans going
  change execHandoverTaken m s = _
  simp [execHandoverTaken, State.takeMg_open up credit, going', atP, sent]

theorem exec_handoverRefused {h : Handover} (trigger : s.top.trigger = none) (going : s.handoverOf m.region.toNat = some h)
    (ends : h.atP = true → h.drainedSent = true) : exec (.handoverRefused m) s = .next (((s.mgTaken.owe .t { mg := 1 }).setRt
      m.region.toNat (rtPut (s.rtEntry m.region.toNat) (if h.atP then 1 else rtRole (s.rtEntry m.region.toNat))
        (rtSync (s.rtEntry m.region.toNat)) false)).endHandover m.region.toNat 2 0x4031) := by
  have going' : (s.mgTaken.owe .t { mg := 1 }).handoverOf m.region.toNat = some h := (owed_handoverOf c _).trans going
  have noTrigger : (s.mgTaken.owe .t { mg := 1 }).top.trigger = none := by
    rw [s.mgTaken_owe_keeps.same c .top rfl, trigger]
  have entry : s.mgTaken.rtEntry m.region.toNat = s.rtEntry m.region.toNat := rfl
  change execHandoverRefused m s = _
  cases side : h.atP with
  | true => simp [execHandoverRefused, State.takeMg_open up credit, going', side, ends side, noTrigger, entry]
  | false => simp [execHandoverRefused, State.takeMg_open up credit, going', side, noTrigger, entry]

theorem handoverTaken_ends {h : Handover} (going : s.handoverOf m.region.toNat = some h) (atP : h.atP = true)
    (sent : h.drainedSent = true) :
    Runs s (.handoverTaken m) (.links :: handoverEndParts) (HandoverEnded m.region.toNat 1 0x4030 s) := by
  have run := exec_handoverTaken c up credit going atP sent
  obtain ⟨t, run, frame, ended, -⟩ := endHandover_runs (Q := .links :: handoverEndParts) c s.mgTaken_owe_keeps rfl (by decide)
    (by decide) (by decide) (by decide) run
  exact ⟨t, run, frame, ended⟩

theorem handoverRefused_ends {h : Handover} (trigger : s.top.trigger = none) (going : s.handoverOf m.region.toNat = some h)
    (ends : h.atP = true → h.drainedSent = true) (good : s.rtFailed m.region.toNat = false) :
    Runs s (.handoverRefused m) (.links :: .map :: handoverEndParts) fun t => HandoverEnded m.region.toNat 2 0x4031 s t ∧
      t.rtEntry m.region.toNat = rtPut (s.rtEntry m.region.toNat) (if h.atP then 1 else rtRole (s.rtEntry m.region.toNat))
        (rtSync (s.rtEntry m.region.toNat)) false := by
  have run := exec_handoverRefused c up credit trigger going ends
  have owed := s.mgTaken_owe_keeps
  have map : (s.mgTaken.owe .t { mg := 1 }).map = s.map := owed.same c .map rfl
  have noTrigger : (s.mgTaken.owe .t { mg := 1 }).top.trigger = none := by rw [owed.same c .top rfl, trigger]
  have good' : (s.mgTaken.owe .t { mg := 1 }).rtFailed m.region.toNat = false := by
    rw [State.rtFailed, map]
    exact good
  obtain ⟨t, run, frame, ended, -, entries⟩ := endHandover_runs (Q := .links :: .map :: handoverEndParts) c
    (.after (State.setRt_keeps _ _ _) rfl (owed.mono rfl) : Keeps [.links, .map] s _) rfl (by decide) (by decide) (by decide)
    (by decide) run
  exact ⟨t, run, frame, ended, (entries _).trans (State.setRt_entry _ noTrigger good')⟩

end

theorem exec_handoverTimeout {s : State} {region : BitVec 18} {h : Handover} (trigger : s.top.trigger = none)
    (going : s.handoverOf region.toNat = some h) (same : h.region = region.toNat) (atQ : h.atP = false) :
    exec (.handoverTimeout region) s = .next ((s.setRt region.toNat (rtPut (s.rtEntry region.toNat)
      (rtRole (s.rtEntry region.toNat)) (rtSync (s.rtEntry region.toNat)) false)).endHandover region.toNat 3 0x4032) := by
  change execHandoverTimeout region s = _
  simp only [execHandoverTimeout, going, atQ, trigger, Option.isSome_none, Bool.or_self, Bool.false_eq_true, if_false,
    State.abandonHandover, same]

theorem handoverTimeout_ends {s : State} (c : s.canon) {region : BitVec 18} {h : Handover} (trigger : s.top.trigger = none)
    (going : s.handoverOf region.toNat = some h) (same : h.region = region.toNat) (atQ : h.atP = false)
    (good : s.rtFailed region.toNat = false) :
    Runs s (.handoverTimeout region) (.map :: handoverEndParts) fun t => HandoverEnded region.toNat 3 0x4032 s t ∧
      t.rtEntry region.toNat = rtPut (s.rtEntry region.toNat) (rtRole (s.rtEntry region.toNat))
        (rtSync (s.rtEntry region.toNat)) false := by
  have run := exec_handoverTimeout trigger going same atQ
  obtain ⟨t, run, frame, ended, -, entries⟩ := endHandover_runs (Q := .map :: handoverEndParts) c (State.setRt_keeps s _ _) rfl
    (by decide) (by decide) (by decide) (by decide) run
  exact ⟨t, run, frame, ended, (entries _).trans (State.setRt_entry _ trigger good)⟩

theorem exec_handoverTimeout_none {s : State} {region : BitVec 18} (h : s.handoverOf region.toNat = none) :
    exec (.handoverTimeout region) s = .next s := by
  change execHandoverTimeout region s = _
  rw [execHandoverTimeout, h]

/-- Settles O39: each message takes its region and its handover on, and the end of a handover is the same whoever ends it. -/
theorem handoversRun : Obligations.HandoversRun := by
  unfold Obligations.HandoversRun
  intro s c
  refine ⟨?requestBegins, ?requestShut, ?requestRefused, ?requestRepeated, ?requestOverrun, ?drainedOverrun, ?takenOverrun,
    ?refusedOverrun, ?markWaits, ?markTrigger, ?markDrains, ?drainedTaken, ?drainedShut, ?drainedRefused, ?takenEnds, ?takenShut,
    ?refusedAtP, ?refusedShut, ?refusedAtQ, ?timeoutEnds, ?timeoutNone⟩
  case requestBegins =>
    exact fun m w up credit trigger good entry role sync calm few =>
      handoverRequest_begins c up credit trigger good entry role sync calm few
  case requestShut => exact fun m shut => congrArg Host.Outcome.next (State.takeMg_shut shut _)
  case requestRefused => exact fun m up credit trigger h => handoverRequest_refused c up credit trigger h
  case requestRepeated =>
    exact fun m w up credit trigger good entry role sync calm =>
      handoverRequest_repeated c up credit trigger good entry role sync calm
  case requestOverrun => exact fun m takes empty => overrun_runs c takes empty rfl
  case drainedOverrun => exact fun m takes empty => overrun_runs c takes empty rfl
  case takenOverrun => exact fun m takes empty => overrun_runs c takes empty rfl
  case refusedOverrun => exact fun m takes empty => overrun_runs c takes empty rfl
  case markWaits =>
    exact fun region h trigger only same atP unmarked opened => handoverForkMark_waits c trigger only same atP unmarked opened
  case markTrigger =>
    intro region trigger
    refine congrArg Host.Outcome.next (if_pos ?_)
    exact Option.isSome_iff_ne_none.2 trigger
  case markDrains =>
    exact fun region h trigger only same atP unmarked unsent up drained good =>
      handoverForkMark_drains c trigger only same atP unmarked unsent up drained good
  case drainedTaken =>
    intro m w up credit trigger good entry role sync
    subst entry
    obtain ⟨t, run, frame, ended, region, tx⟩ := handoverDrained_taken c up credit trigger good role sync
    exact ⟨t, run, frame, region, tx, ended.handovers, ended.shown, ended.region, ended.done rfl, ended.logged⟩
  case drainedShut => exact fun m shut => congrArg Host.Outcome.next (State.takeMg_shut shut _)
  case drainedRefused =>
    intro m w up credit trigger good entry role sync
    subst entry
    obtain ⟨t, run, frame, ended, region, tx⟩ := handoverDrained_refused c up credit trigger good role sync
    exact ⟨t, run, frame, region, tx, ended.handovers, ended.shown, ended.region, ended.refused (by decide), ended.logged⟩
  case takenEnds =>
    intro m h up credit going atP sent
    obtain ⟨t, run, frame, ended⟩ := handoverTaken_ends c up credit going atP sent
    exact ⟨t, run, frame, ended.handovers, ended.shown, ended.region, ended.done rfl, ended.logged⟩
  case takenShut => exact fun m shut => congrArg Host.Outcome.next (State.takeMg_shut shut _)
  case refusedAtP =>
    intro m h up credit trigger going atP sent good
    obtain ⟨t, run, frame, ended, region⟩ := handoverRefused_ends c up credit trigger going (fun _ => sent) good
    rw [if_pos atP] at region
    exact ⟨t, run, frame, region, ended.handovers, ended.shown, ended.region, ended.refused (by decide), ended.logged⟩
  case refusedShut => exact fun m shut => congrArg Host.Outcome.next (State.takeMg_shut shut _)
  case refusedAtQ =>
    intro m h up credit trigger going atQ good
    obtain ⟨t, run, frame, ended, region⟩ := handoverRefused_ends c up credit trigger going (by simp [atQ]) good
    rw [atQ, if_neg Bool.false_ne_true] at region
    exact ⟨t, run, frame, region, ended.handovers, ended.shown, ended.region, ended.refused (by decide), ended.logged⟩
  case timeoutEnds =>
    intro region h trigger going same atQ good
    obtain ⟨t, run, frame, ended, entry⟩ := handoverTimeout_ends c trigger going same atQ good
    exact ⟨t, run, frame, entry, ended.handovers, ended.shown, ended.region, ended.refused (by decide), ended.logged⟩
  case timeoutNone => exact fun region going => exec_handoverTimeout_none going

end Sys2Proof.Machine
end

section
/-!
What leaves every port as it is, carrying or not (R64): the operations that a directive starts, and the fence.
-/

set_option Elab.async false

namespace Sys2Proof.Machine

/-! ### The relation -/

/-- From `s` to `t` a port carries messages where it did. -/
def KeepsUp (s t : State) : Prop := s.canon → t.canon ∧ ∀ q, (t.link q).up = (s.link q).up

theorem KeepsUp.refl (s : State) : KeepsUp s s := fun c => ⟨c, fun _ => rfl⟩

theorem KeepsUp.trans {a b c : State} (h : KeepsUp a b) (k : KeepsUp b c) : KeepsUp a c := fun ca => by
  obtain ⟨cb, up⟩ := h ca
  obtain ⟨cc, up'⟩ := k cb
  exact ⟨cc, fun q => (up' q).trans (up q)⟩

/-- One more operation at the end of a run of them. -/
theorem KeepsUp.via {a b c : State} (k : KeepsUp b c) (h : KeepsUp a b) : KeepsUp a c := h.trans k

theorem KeepsUp.ite {p : Prop} [Decidable p] {a x y : State} (h : KeepsUp a x) (k : KeepsUp a y) :
    KeepsUp a (if p then x else y) := by
  split <;> assumption

theorem KeepsUp.foldl {α : Type} (l : List α) (f : State → α → State) (h : ∀ t x, KeepsUp t (f t x)) (s : State) :
    KeepsUp s (l.foldl f s) := by
  induction l generalizing s with
  | nil => exact .refl s
  | cons x r ih => exact (h s x).trans (ih _)

theorem KeepsUp.foldS {α : Type} (l : List α) (f : State → α → State) (h : ∀ t x, KeepsUp t (f t x)) (s : State) :
    KeepsUp s (foldS l f s) := .foldl l f h s

/-- Where the ports stand they carry as before. -/
theorem Steady.up {s t : State} (h : Steady s t) : KeepsUp s t := fun c => by
  obtain ⟨ct, links, -⟩ := h c
  refine ⟨ct, fun q => ?_⟩
  have same : (t.link q).lstate = (s.link q).lstate := congrArg Prod.fst (links q)
  rw [LinkSt.up, same, LinkSt.up]

theorem Calm.up {C : BitVec 16 → Prop} {s t : State} (h : Calm C s t) : KeepsUp s t := fun c =>
  ⟨(h c).1, State.up_congr (by rw [(h c).2.1])⟩

/-- An operation in whose frame no port lies. -/
theorem KeepsUp.apart {P : List Part} {s t : State} (k : Keeps P s t) (h : P.any (Part.covers · .links) = false) : KeepsUp s t :=
  fun c => ⟨k.canon c, fun q => by rw [k.link c h q]⟩

theorem KeepsUp.mir (s : State) (v : MirSt) : KeepsUp s { s with mir := v } := .apart (Keeps.upd_mir s v) rfl

theorem State.event_up (s : State) (code : BitVec 16) (data : Nat) : KeepsUp s (s.event code data) := (s.event_steady code data).up

theorem State.sendCtl_up (s : State) (cmd cursor : Nat) (sess : Bool) (share : Nat) :
    KeepsUp s (s.sendCtl cmd cursor sess share) := by
  unfold State.sendCtl
  exact .via (State.send_steady _ _ _).up (.mir s _)

theorem State.reserveWrite_up (s : State) (off : Nat) (line : Line) : KeepsUp s (s.reserveWrite off line) :=
    (s.agentAsk_steady _).up

/-! ### Requests turned away (R82, R190, R214) -/

theorem State.unmark_up (s : State) (g : Nat) : KeepsUp s (s.unmark g) := by
  unfold State.unmark
  exact .ite (.via (State.reserveWrite_up _ _ _) (.mir s _)) (.refl s)

theorem State.answerCursor_up (s : State) (m : RebuildMsg) : KeepsUp s (s.answerCursor m) := by
  unfold State.answerCursor State.answerCtl
  refine .via (State.sendOwing_steady _ _ _ _ _).up (.trans (.mir s _) (.ite (.refl _) ?_))
  exact .via (.apart (State.setReg_keeps _ _ _) rfl) (State.unmark_up _ _)

theorem State.closeCursors_up (s : State) : KeepsUp s s.closeCursors := by
  unfold State.closeCursors
  extract_lets -lift -merge -useContext -underBinder +onlyGivenNames base ripe mir waiting
  have hw : KeepsUp s waiting := .mir s mir
  clear_value waiting ripe
  exact .trans hw (.foldl ripe (fun t c => t.answerCursor c.1) (fun t c => t.answerCursor_up c.1) waiting)

theorem State.finishReq_up (s : State) (p : Port) (n : Nat) : KeepsUp s (s.finishReq p n) := by
  unfold State.finishReq
  extract_lets -lift -merge -useContext -underBinder +onlyGivenNames finished
  have hf : KeepsUp s finished :=
    (s.setLink_steady p (l := { s.link p with adm := (s.link p).adm.finish n }) rfl).up
  clear_value finished
  exact .ite (.via finished.closeCursors_up hf) hf

theorem State.rejectHost_up (s : State) (p : Port) (op : HostOp) (tag : BitVec 12) (reason : Byte) :
    KeepsUp s (s.rejectHost p op tag reason) := (s.toReturn_steady _ _).up

theorem State.rejectStream_up (reason : Byte) (sid n : Nat) (s : State) : KeepsUp s (State.rejectStream reason sid n s) := by
  induction n generalizing s with
  | zero => exact .refl s
  | succ n ih =>
    rw [State.rejectStream]
    refine .ite (.refl s) ?_
    split
    · exact .via (ih _) (.via (State.toReturn_steady _ _ _).up
        (.via (State.onEntry_steady _ _ _).up (.apart (s.leaveStream_keeps sid) rfl)))
    · exact .refl s

theorem State.rejectMapped_up (s : State) (reason : Byte) : KeepsUp s (s.rejectMapped reason) := by
  unfold State.rejectMapped
  refine .via (.foldl _ _ (fun t m => ?_) _) (.apart (Keeps.upd_ord s _) rfl)
  split
  · refine .via (State.rejectHost_up _ _ _ _ _) (.via (State.finishReq_up _ _ _) ?_)
    split
    · exact .apart (State.countRej_keeps _ _) rfl
    · exact .refl t
  · exact .refl t

/-! ### The top level moves between JOIN and SERVICE (R23) -/

theorem State.goTo_service_up (s : State) (cause : Byte) : KeepsUp s (s.goTo .service cause) := by
  rw [State.goTo]
  exact .via (State.afterEntry_service_mild _ _ _).up (.apart (Keeps.upd_top s _) rfl)

/-- What the entry to `JOIN` from `SERVICE` does beside the change itself. -/
theorem State.afterEntry_rejoin (s : State) (cause : Byte) : s.afterEntry .join .service cause =
    (((s.setFld Fld.GLB_EVENT.STATE 1).aonEntry .join).event 0x0001
      (TopState.join.code + (TopState.service.code <<< 4) + (cause.toNat <<< 8))).joinEntry := rfl

theorem State.goTo_rejoin_up {s : State} (h : s.top.state = .service) (cause : Byte) : KeepsUp s (s.goTo .join cause) := by
  rw [State.goTo, h, State.afterEntry_rejoin]
  exact .via (.apart (State.joinEntry_keeps _) rfl) (.via (State.event_up _ _ _) (.via (.apart (State.aonEntry_keeps _ _) rfl)
    (.via (.apart (State.setFld_keeps _ _ _) rfl) (.apart (Keeps.upd_top s _) rfl))))

theorem State.serve_up (s : State) : KeepsUp s s.serve := .ite (s.goTo_service_up _) (.refl s)

/-- The fence leaves the ports to their peers (R214). -/
theorem State.fence_up (s : State) (epoch : Word) : KeepsUp s (s.fence epoch) := by
  unfold State.fence
  refine .ite (.refl s) ?_
  split
  case h_3 => exact .refl s
  all_goals
    extract_lets -lift -merge -useContext -underBinder +onlyGivenNames ended mir dropped
    have left : KeepsUp s ended := .via (.apart (State.endSession_keeps _) rfl) s.abandonAll_steady.up
    have hd : KeepsUp s dropped := .via (.mir ended mir) left
    clear_value dropped
    extract_lets -lift -merge -useContext -underBinder +onlyGivenNames fenced emptied
    have he : KeepsUp s emptied :=
      hd.trans (Steady.via (State.dropBacklog_steady _ false) (.via (State.closePend_steady _) (State.setPair_steady _ .fenced))).up
    clear_value emptied
    extract_lets -lift -merge -useContext -underBinder +onlyGivenNames rejected
    have hr : KeepsUp s rejected := he.trans (.foldl _ _ (fun (t : State) (p : Nat × StreamRec) =>
        State.rejectStream_up 6 p.1 p.2.len t) emptied)
    clear_value rejected
    extract_lets -lift -merge -useContext -underBinder +onlyGivenNames turned told
    have ht : KeepsUp s told :=
      .via (State.event_up _ _ _) (.via (.apart (State.clearCause_keeps _) rfl) (.via (State.rejectMapped_up _ _) hr))
    clear_value told
    split
    · next serves => exact .via (State.goTo_rejoin_up (beq_iff_eq.1 serves) _) ht
    · exact ht

/-! ### What a directive starts (R91) -/

theorem State.writeCal_up (s : State) (p : Nat) : KeepsUp s (s.writeCal p) := by
  unfold State.writeCal
  refine .ite (.refl s) ?_
  exact .via (.foldS _ _ (fun t i => State.reserveWrite_up _ _ _) _) (.apart (State.setLive_keeps s _ _) rfl)

theorem State.abandonCal_up (s : State) (p row : Nat) : KeepsUp s (s.abandonCal p row) := by
  unfold State.abandonCal
  split
  · refine .via (.apart (State.pendToDue_keeps _ _) rfl) (.via (State.event_up _ _ _) (.trans (b :=
      ((s.setRun p Option.none).writeCal p).bump Reg.CAL_ABANDONED) ?_ (.ite (.apart (State.endDir_keeps _ _) rfl) (.refl _))))
    exact .via (.apart (State.bump_keeps _ _ _) rfl) (.via (State.writeCal_up _ _) (.apart (State.setRun_keeps s _ _) rfl))
  · exact .refl s

theorem State.startLull_up (s : State) (t : Nat) : KeepsUp s (s.startLull t) := by
  unfold State.startLull State.holdAll State.abandonSub
  refine .via (.foldS _ _ (fun t n => .via (State.abandonCal_up _ _ _) (.via (State.abandonCal_up _ _ _) ?_)) _)
    (.via (.apart (State.setFld_keeps _ _ _) rfl) (.apart (Keeps.upd_clk s _) rfl))
  exact .apart (State.onSub_keeps t n _) rfl

theorem State.startRestore_up (s : State) (p : Nat) : KeepsUp s (s.startRestore p) := by
  unfold State.startRestore
  exact .via (.apart (State.setRun_keeps _ _ _) rfl) (s.abandonCal_up p 5)

theorem State.startHandover_up (s : State) (r : Nat) (mtag : BitVec 4) : KeepsUp s (s.startHandover r mtag) := by
  unfold State.startHandover
  exact .via (State.send_steady _ _ _).up (.via (.mir _ _) (.apart (s.setRt_keeps _ _) rfl))

theorem State.grantSolo_up (s : State) (epoch : Word) (format : Bool) : KeepsUp s (s.grantSolo epoch format) := by
  unfold State.grantSolo
  exact .via (State.heartbeat_steady _).up (.via (State.abandonAll_steady _).up (.via (State.event_up _ _ _)
    (.via (State.writeRecord_steady _ _).up (.mir s _))))

theorem State.pumpReport_up (n : Nat) (s : State) : KeepsUp s (State.pumpReport n s) := by
  induction n generalizing s with
  | zero => exact .refl s
  | succ n ih =>
    rw [State.pumpReport]
    refine .ite ?_ (.refl s)
    split
    · exact .via (ih _) (.via (State.sendCtl_up _ _ _ _ _) (.mir s _))
    · exact .via (State.sendCtl_up _ _ _ _ _) (.mir s _)

theorem State.answerStart_up (s : State) (m : RebuildMsg) : KeepsUp s (s.answerStart m) := by
  unfold State.answerStart State.answerCtl
  refine .ite ?_ ?_
  · refine .trans (.via (State.sendOwing_steady _ _ _ _ _).up (.mir s _)) (.ite ?_ (.mir _ _))
    exact .via (State.pumpReport_up _ _) (.mir _ _)
  · exact .via (State.sendOwing_steady _ _ _ _ _).up (.via (.mir _ _) (.via (State.event_up _ _ _) (.mir s _)))

theorem State.startRebuild_up (s : State) (epoch : Word) (mode share : Nat) : KeepsUp s (s.startRebuild epoch mode share) := by
  unfold State.startRebuild
  extract_lets -lift -merge -useContext -underBinder +onlyGivenNames share' source held ended first mir begun
  have hb : KeepsUp s begun := .via (.mir _ _) (.apart (State.endSession_keeps s) rfl)
  clear_value begun held
  refine .ite (.via (State.event_up _ _ _) (.via (State.sendCtl_up _ _ _ _ _) (.via (State.setPair_steady _ _).up hb))) ?_
  extract_lets -lift -merge -useContext -underBinder +onlyGivenNames paired regions served
  have hr : KeepsUp s regions := .via (.foldl _ _ (fun t r => .ite (.apart (t.setRt_keeps _ _) rfl)
    (.ite (.refl t) (.apart (t.setRt_keeps _ _) rfl))) _) (.via (State.setPair_steady _ _).up hb)
  have hs : KeepsUp s served := .via (State.serve_up _) hr
  clear_value served
  split
  · exact .via (served.answerStart_up _) hs
  · exact hs

theorem State.sourceAlone_up (s : State) (reason : Nat) (tell : Bool) : KeepsUp s (s.sourceAlone reason tell) := by
  unfold State.sourceAlone
  refine .trans ?_ (.ite (State.sendCtl_up _ _ _ _ _) (.refl _))
  exact .via (State.enterSolo_steady _).up (.via (.apart (State.convertSolo_keeps _) rfl)
      (.via (.apart (State.endSession_keeps _) rfl)
    (.via (State.abandonAll_steady _).up (State.event_up _ _ _))))

theorem State.stopRebuild_up (s : State) : KeepsUp s s.stopRebuild :=
  .ite (s.sourceAlone_up 1 true) (.via (State.sendCtl_up _ _ _ _ _) (.via (State.fence_up _ _) (s.event_up _ _)))

theorem State.retireBy_up (s : State) (p : Nat) (spare : Bool) : KeepsUp s (s.retireBy p spare) :=
  .ite (s.startSpare_mild p 6).up (.ite (.via (State.retire_mild _ p 6).up (s.abortSpare_mild p).up) (s.retire_mild p 6).up)

/-- Whatever a directive does leaves the ports to their peers. -/
theorem State.dirActs_up (s : State) (d : Nat) (mtag : BitVec 4) (arg : Nat) : KeepsUp s (s.dirActs d mtag arg).1 := by
  have begun (n : Nat) : KeepsUp s (s.startDir n) := .apart (s.startDir_keeps n) rfl
  unfold State.dirActs
  split
  · exact .via (State.startLull_up _ _) (begun 1)
  · exact .apart (s.quiesce_keeps _) rfl
  · exact s.startHandover_up _ _
  · exact s.grantSolo_up _ _
  · exact .via (State.startRebuild_up _ _ _ _) (.mir s _)
  · exact s.stopRebuild_up
  · exact .via (State.event_up _ _ _) (.apart (s.setScrub_keeps _ _) rfl)
  · exact .via (State.startRestore_up _ _) (begun 8)
  · exact .apart (s.setWall_keeps _) rfl
  · exact s.retireBy_up _ _
  · exact .via (.apart (State.startReadmit_keeps _ _) rfl) (begun 11)
  · exact .refl s

end Sys2Proof.Machine
end

section
/-!
The checks of a directive in their order, and its answer (R91, R214, R516, R537, R538).
-/

set_option Elab.async false

namespace Sys2Proof.Machine

/-! ### The order of the checks (R91) -/

section
variable {s : State} {port : Option Port} {d : Nat} {epoch : Word} {arg : Nat}

theorem State.dirStatus_undefined (h : d = 0 ∨ 11 < d) : s.dirStatus port d epoch arg = 0x07 := by
  simp only [State.dirStatus, Bool.or_eq_true, decide_eq_true_eq, gt_iff_lt, h, if_true]

variable (defined : 1 ≤ d ∧ d ≤ 11)
include defined

theorem State.dirStatus_defined : s.dirStatus port d epoch arg =
    if isMembership d && !port.any s.witnessOn then 0x03
    else if carriesEpoch d && epoch != s.mir.epoch then 0x05
    else if s.triggered then 0x06
    else if (s.fld Fld.GLB_DIRSTAT.BUSY).testBit d then 0x08
    else if (d == 3 && port.isNone) || arg &&& argMask d != arg || !s.dirPre d arg then 0x04
    else 0x00 := by
  obtain ⟨low, high⟩ := defined
  have inside : ¬(d = 0 ∨ d > 11) := by omega
  rw [State.dirStatus, if_neg (by simpa using inside)]

theorem State.dirStatus_outsider (h : (isMembership d && !port.any s.witnessOn) = true) : s.dirStatus port d epoch arg = 0x03 := by
  rw [State.dirStatus_defined defined, if_pos h]

variable (sent : (isMembership d && !port.any s.witnessOn) = false)
include sent

theorem State.dirStatus_stale (h : (carriesEpoch d && epoch != s.mir.epoch) = true) : s.dirStatus port d epoch arg = 0x05 := by
  rw [State.dirStatus_defined defined, sent, if_neg Bool.false_ne_true, if_pos h]

variable (current : (carriesEpoch d && epoch != s.mir.epoch) = false)
include current

theorem State.dirStatus_late (h : s.triggered = true) : s.dirStatus port d epoch arg = 0x06 := by
  rw [State.dirStatus_defined defined, sent, if_neg Bool.false_ne_true, current, if_neg Bool.false_ne_true, if_pos h]

variable (early : s.triggered = false)
include early

theorem State.dirStatus_busy (h : (s.fld Fld.GLB_DIRSTAT.BUSY).testBit d = true) : s.dirStatus port d epoch arg = 0x08 := by
  rw [State.dirStatus_defined defined, sent, if_neg Bool.false_ne_true, current, if_neg Bool.false_ne_true, early,
    if_neg Bool.false_ne_true, if_pos h]

variable (idle : (s.fld Fld.GLB_DIRSTAT.BUSY).testBit d = false)
include idle

theorem State.dirStatus_last : s.dirStatus port d epoch arg =
    if (d == 3 && port.isNone) || arg &&& argMask d != arg || !s.dirPre d arg then 0x04 else 0x00 := by
  rw [State.dirStatus_defined defined, sent, if_neg Bool.false_ne_true, current, if_neg Bool.false_ne_true, early,
    if_neg Bool.false_ne_true, idle, if_neg Bool.false_ne_true]

end

/-! ### A directive's message is taken (R83, R89) -/

theorem State.onPath_link (s : State) (path : AccPath) (q : Port) : ((s.onPath path).link q).lstate = (s.link q).lstate ∧
    ((s.onPath path).link q).peerNeg = (s.link q).peerNeg := by
  cases path with
  | mgt p mtag =>
    by_cases same : q = p
    · rw [same, State.onPath, State.onLink, State.link_setLink]
      exact ⟨rfl, rfl⟩
    · rw [State.onPath, State.onLink, State.link_setLink_other _ _ same]
      exact ⟨rfl, rfl⟩
  | sideband => exact ⟨rfl, rfl⟩
  | core => exact ⟨rfl, rfl⟩

theorem State.onPath_triggered (s : State) (path : AccPath) : (s.onPath path).triggered = s.triggered := by
  cases path <;> rfl

theorem State.onPath_witnessOn (s : State) (path : AccPath) : (s.onPath path).witnessOn = s.witnessOn := by
  funext p
  obtain ⟨state, peer⟩ := s.onPath_link path p
  have reg : (s.onPath path).fld Fld.MIR_WITNESS.WITNESS_ID = s.fld Fld.MIR_WITNESS.WITNESS_ID := by cases path <;> rfl
  simp only [State.witnessOn, State.witnessPort, state, peer, reg]

theorem State.onPath_canHandover (s : State) (path : AccPath) (r : Nat) : (s.onPath path).canHandover r = s.canHandover r := by
  obtain ⟨state, -⟩ := s.onPath_link path .t
  simp only [State.canHandover, state]
  cases path <;> rfl

theorem State.onPath_canRebuild (s : State) (path : AccPath) (epoch mode share : Nat) :
    (s.onPath path).canRebuild epoch mode share = s.canRebuild epoch mode share := by
  obtain ⟨state, -⟩ := s.onPath_link path .t
  simp only [State.canRebuild, state]
  cases path <;> rfl

/-- What a precondition looks at lies outside what a message that is taken changes. -/
theorem State.onPath_dirPre (s : State) (path : AccPath) (d arg : Nat) : (s.onPath path).dirPre d arg = s.dirPre d arg := by
  unfold State.dirPre
  split
  case h_3 => exact s.onPath_canHandover path _
  case h_5 => exact s.onPath_canRebuild path _ _ _
  all_goals cases path <;> rfl

theorem State.onPath_dirStatus (s : State) (path : AccPath) (port : Option Port) (d : Nat) (epoch : Word) (arg : Nat) :
    (s.onPath path).dirStatus port d epoch arg = s.dirStatus port d epoch arg := by
  have mir : (s.onPath path).mir = s.mir := by cases path <;> rfl
  have fld : (s.onPath path).fld = s.fld := by cases path <;> rfl
  simp only [State.dirStatus, s.onPath_witnessOn, s.onPath_triggered, s.onPath_dirPre, mir, fld]

/-! ### The answer of a directive (R90, R516, R538) -/

/-- The number, the status and the path stand in `GLB_DIRSTAT`. -/
structure DirNoted (path d : Nat) (status : Byte) (t : State) : Prop where
  number : t.fld Fld.GLB_DIRSTAT.LAST_DCODE = d
  status : t.fld Fld.GLB_DIRSTAT.LAST_STATUS = status.toNat
  path : t.fld Fld.GLB_DIRSTAT.LAST_PATH = path

theorem State.noteDir_noted (s : State) {path d : Nat} (status : Byte) (small : path < 16) (byte : d < 256) :
    DirNoted path d status (s.noteDir path d status) := by
  have hs := status.isLt
  refine ⟨?_, ?_, ?_⟩
  · rw [State.noteDir, State.fld_setFld_disjoint (f := Fld.GLB_DIRSTAT.LAST_PATH)
        (g := Fld.GLB_DIRSTAT.LAST_DCODE) _ _ rfl (by decide),
      State.fld_setFld_disjoint (f := Fld.GLB_DIRSTAT.LAST_STATUS) (g := Fld.GLB_DIRSTAT.LAST_DCODE) _ _ rfl (by decide),
      State.fld_setFld _ _ _ (by decide)]
    exact Nat.mod_eq_of_lt byte
  · rw [State.noteDir, State.fld_setFld_disjoint (f := Fld.GLB_DIRSTAT.LAST_PATH)
        (g := Fld.GLB_DIRSTAT.LAST_STATUS) _ _ rfl (by decide),
      State.fld_setFld _ _ _ (by decide)]
    exact Nat.mod_eq_of_lt hs
  · rw [State.noteDir, State.fld_setFld _ _ _ (by decide)]
    exact Nat.mod_eq_of_lt small

theorem State.noteDir_answered {u : State} (h : DirHead) (d : Byte) (status : Byte) (data : Word) (up : (u.link h.port).up = true) :
    DirAnswered h d.toNat status data ((u.noteDir h.port.idx d.toNat status).answerMgt h.port h.mtag status data) := by
  obtain ⟨number, shown, path⟩ := u.noteDir_noted (path := h.port.idx) status (by cases h.port <;> decide) d.isLt
  have up' : ((u.noteDir h.port.idx d.toNat status).link h.port).up = true := up
  rw [State.answerMgt, State.send_up up']
  refine ⟨?_, number, shown, path⟩
  rw [State.onLink, State.link_setLink, List.getLast?_concat]

theorem State.noteDir_sbAnswered (u : State) (d : Byte) (status : Byte) (data : Word) :
    SbDirAnswered d.toNat status data ((u.noteDir 4 d.toNat status).answerSb (status :: leBytes data.toNat 4)) := by
  obtain ⟨number, shown, path⟩ := u.noteDir_noted (path := 4) status (by decide) d.isLt
  exact ⟨rfl, number, shown, path⟩

/-- The value a directive answers with once it is accepted. -/
theorem State.dirActs_value (s : State) (d : Nat) (mtag : BitVec 4) (arg : Nat) : (s.dirActs d mtag arg).2 =
    if d = 9 then BitVec.ofNat 32 ((s.dirActs d mtag arg).1.fld Fld.TIM_STAT.OFFSET_EPOCH) else 0 := by
  unfold State.dirActs
  split
  case h_12 => simp_all
  all_goals rfl

theorem State.dirActs_byteValue (s : State) (d : Byte) (mtag : BitVec 4) (arg : Nat) : (s.dirActs d.toNat mtag arg).2 =
    if d = 9 then BitVec.ofNat 32 ((s.dirActs d.toNat mtag arg).1.fld Fld.TIM_STAT.OFFSET_EPOCH) else 0 := by
  rw [State.dirActs_value]
  exact if_congr (BitVec.toNat_inj (y := (9 : Byte))) rfl rfl

theorem State.noteDir_fld (s : State) (path d : Nat) (status : Byte) {f : Fld} (h : f.addr ≠ Reg.GLB_DIRSTAT) :
    (s.noteDir path d status).fld f = s.fld f := by
  rw [State.noteDir, State.fld_setFld_other _ _ h, State.fld_setFld_other _ _ h, State.fld_setFld_other _ _ h]

theorem State.answerMgt_fld (s : State) (p : Port) (mtag : BitVec 4) (status : Byte) (data : Word) (f : Fld) :
    (s.answerMgt p mtag status data).fld f = s.fld f := by
  unfold State.answerMgt State.send
  split <;> rfl

/-! ### Directives on a port -/

theorem exec_directiveCommand (s : State) (h : DirHead) (d : Byte) (arg : BitVec 64) :
    exec (directiveCommand h d arg) s = .next (s.runDirective h d.toNat arg) := by
  unfold directiveCommand
  split
  case h_12 => rfl
  all_goals
    next e =>
      rw [e]
      rfl

/-! ### What a check decides -/

/-- The path as `GLB_DIRSTAT` shows it (R538). -/
def dirPath : Option Port → Nat
  | some p => p.idx
  | none => 4

section
variable {s : State} {port : Option Port} {mtag : BitVec 4} {d : Nat} {epoch : Word} {arg : Nat}

theorem State.directive_accepts (h : s.dirStatus port d epoch arg = 0) : s.directive port mtag d epoch arg =
    ((s.dirActs d mtag arg).1.noteDir (dirPath port) d 0, 0, (s.dirActs d mtag arg).2) := by
  cases port <;> exact if_pos h

variable {st : Byte} (status : s.dirStatus port d epoch arg = st)
include status

theorem State.directive_refuses (fails : st ≠ 0) (stays : st = 0x05 → isMembership d = true → epoch.toNat ≤ s.mir.epoch.toNat) :
    s.directive port mtag d epoch arg = (s.noteDir (dirPath port) d st, st, 0) := by
  have held : ¬((decide (st = 0x05) && isMembership d && decide (s.mir.epoch.toNat < epoch.toNat)) = true) := by
    simp only [Bool.and_eq_true, decide_eq_true_eq]
    rintro ⟨⟨stale, member⟩, newer⟩
    exact absurd newer (Nat.not_lt.2 (stays stale member))
  unfold State.directive
  rw [status]
  dsimp only
  rw [if_neg fails, if_neg held]
  cases port <;> rfl

theorem State.directive_fences (stale : st = 0x05) (member : isMembership d = true) (newer : s.mir.epoch.toNat < epoch.toNat) :
    s.directive port mtag d epoch arg = ((s.fence epoch).noteDir (dirPath port) d st, st, 0) := by
  have fences : (decide (st = 0x05) && isMembership d && decide (s.mir.epoch.toNat < epoch.toNat)) = true := by
    simp [stale, member, newer]
  unfold State.directive
  rw [status]
  dsimp only
  rw [if_neg (by rw [stale]; decide), if_pos fences]
  cases port <;> rfl

end

/-! ### A directive on a port -/

/-- The parts that a directive may change once it is accepted, or once it fences the hub (R91, R214). -/
def directiveParts : List Part :=
  .free :: .time :: .clk :: .reg Reg.MAP_REJ :: .reg Reg.MIR_RBCUR :: .reg Reg.SCH_SCRUBCFG :: .reg Reg.SCH_SCRUBINT ::
    .block 0x6 :: .reg Reg.CAL_ABANDONED :: .reg Reg.CLK_STAT :: .reg Reg.TIM_STAT :: transitParts

section
variable {s : State} (c : s.canon) {h : DirHead} {d : Byte} {arg : BitVec 64}
  (opened : s.pathOpen (.mgt h.port h.mtag) = true)
include opened

theorem State.runDirective_open {u : State} {st : Byte} {data : Word}
    (decided : (s.onPath (.mgt h.port h.mtag)).directive (some h.port) h.mtag d.toNat h.epoch arg.toNat = (u, st, data)) :
    s.runDirective h d.toNat arg = u.answerMgt h.port h.mtag st data := by
  rw [State.runDirective, State.takeMgt_open opened, decided]

include c

/-- A check that fails: its status is the answer, and nothing else comes of the directive. -/
theorem directive_refused {st : Byte} (status : s.dirStatus (some h.port) d.toNat h.epoch arg.toNat = st) (fails : st ≠ 0)
    (stays : st = 0x05 → isMembership d.toNat = true → h.epoch.toNat ≤ s.mir.epoch.toNat) :
    Runs s (directiveCommand h d arg) [.links, .reg Reg.GLB_DIRSTAT] fun t => DirAnswered h d.toNat st 0 t := by
  have run := exec_directiveCommand s h d arg
  have taken := s.onPath_keeps (.mgt h.port h.mtag)
  rw [← s.onPath_dirStatus (.mgt h.port h.mtag)] at status
  rw [State.runDirective_open opened (State.directive_refuses status fails stays)] at run
  refine ⟨_, run, (Keeps.after (State.answerMgt_keeps _ _ _ _ _) rfl (.after (State.noteDir_keeps _ _ _ _) rfl (taken.mono rfl))
      c).2, ?_⟩
  exact State.noteDir_answered h d st 0 (State.onPath_carries opened)

/-- The answer of a directive whose work leaves the ports as they are. -/
theorem directive_worked {u : State} {st : Byte} {data : Word} (works : KeepsUp (s.onPath (.mgt h.port h.mtag)) u)
    (decided : (s.onPath (.mgt h.port h.mtag)).directive (some h.port) h.mtag d.toNat h.epoch arg.toNat =
      (u.noteDir h.port.idx d.toNat st, st, data)) :
    exec (directiveCommand h d arg) s = .next ((u.noteDir h.port.idx d.toNat st).answerMgt h.port h.mtag st data) ∧
      SameBut directiveParts s ((u.noteDir h.port.idx d.toNat st).answerMgt h.port h.mtag st data) ∧
      DirAnswered h d.toNat st data ((u.noteDir h.port.idx d.toNat st).answerMgt h.port h.mtag st data) := by
  have run := exec_directiveCommand s h d arg
  have frame := s.runDirective_keeps h d.toNat arg
  rw [State.runDirective_open opened decided] at run frame
  have up : (u.link h.port).up = true := by
    rw [(works ((s.onPath_keeps _).canon c)).2]
    exact State.onPath_carries opened
  exact ⟨run, (frame.mono (by decide) c).2, State.noteDir_answered h d st data up⟩

/-- A membership directive of a newer epoch may fence the hub; it is answered as stale all the same (R214). -/
theorem directive_fenced (status : s.dirStatus (some h.port) d.toNat h.epoch arg.toNat = 0x05)
    (member : isMembership d.toNat = true)
    (newer : s.mir.epoch.toNat < h.epoch.toNat) :
    Runs s (directiveCommand h d arg) directiveParts fun t => DirAnswered h d.toNat 0x05 0 t := by
  rw [← s.onPath_dirStatus (.mgt h.port h.mtag)] at status
  exact ⟨_, directive_worked c opened (State.fence_up _ h.epoch) (State.directive_fences status rfl member newer)⟩

/-- A directive whose checks all pass is accepted. -/
theorem directive_accepted (status : s.dirStatus (some h.port) d.toNat h.epoch arg.toNat = 0) :
    Runs s (directiveCommand h d arg) directiveParts fun t => DirAnswered h d.toNat 0x00
      (if d = 9 then BitVec.ofNat 32 (t.fld Fld.TIM_STAT.OFFSET_EPOCH) else 0) t := by
  rw [← s.onPath_dirStatus (.mgt h.port h.mtag)] at status
  obtain ⟨run, frame, answered⟩ := directive_worked c opened (State.dirActs_up _ d.toNat h.mtag arg.toNat)
    (State.directive_accepts status)
  refine ⟨_, run, frame, ?_⟩
  beta_reduce
  rw [State.answerMgt_fld, State.noteDir_fld _ _ _ _ (by decide), ← State.dirActs_byteValue]
  exact answered

end

/-! ### A directive on the sideband (R516, R539) -/

section
variable {s : State} (c : s.canon) {d : Byte} {epoch : Word} {arg : BitVec 64} (answers : s.sbAnswers = true)
  (alone : s.mgtDirective d.toNat = false) (free : s.sb.arb = [])
include answers alone free

theorem exec_sbDirective {u : State} {st : Byte} {data : Word}
    (decided : s.directive none 0 d.toNat epoch arg.toNat = (u, st, data)) :
    exec (.sbDirective d epoch arg) s = .next (u.answerSb (st :: leBytes data.toNat 4)) := by
  change execSbDirective d epoch arg s = _
  simp only [execSbDirective, State.sideDirective, answers, alone, free, decided, List.any_nil, Bool.or_self, Bool.and_false,
    Bool.not_true, Bool.false_eq_true, if_false]

include c

theorem sbDirective_refused {st : Byte} (status : s.dirStatus none d.toNat epoch arg.toNat = st) (fails : st ≠ 0)
    (stays : st = 0x05 → isMembership d.toNat = false) :
    Runs s (.sbDirective d epoch arg) [.sb, .reg Reg.GLB_DIRSTAT] fun t => SbDirAnswered d.toNat st 0 t := by
  have run := exec_sbDirective answers alone free
    (State.directive_refuses status fails fun stale member => absurd member (by rw [stays stale]; decide))
  exact ⟨_, run, (Keeps.after (State.answerSb_keeps _ _) rfl ((State.noteDir_keeps s _ _ _).mono rfl) c).2,
    State.noteDir_sbAnswered s d st 0⟩

/-- The answer of a directive that is accepted, whatever it does. -/
theorem sbDirective_worked {u : State} {data : Word} (works : Keeps State.dirActs_parts s u)
    (decided : s.directive none 0 d.toNat epoch arg.toNat = (u.noteDir 4 d.toNat 0, 0, data)) :
    Runs s (.sbDirective d epoch arg) directiveParts fun t =>
      SbDirAnswered d.toNat 0x00 data t ∧ t.fld Fld.TIM_STAT.OFFSET_EPOCH = u.fld Fld.TIM_STAT.OFFSET_EPOCH := by
  have noted := u.noteDir_keeps 4 d.toNat 0
  have frame := State.answerSb_keeps (u.noteDir 4 d.toNat 0) (0 :: leBytes data.toNat 4)
  exact ⟨_, exec_sbDirective answers alone free decided,
    (Keeps.after frame (by decide) (.after noted (by decide) (works.mono (by decide))) c).2,
    u.noteDir_sbAnswered d 0 data, u.noteDir_fld 4 d.toNat 0 (by decide)⟩

theorem sbDirective_accepted (status : s.dirStatus none d.toNat epoch arg.toNat = 0) :
    Runs s (.sbDirective d epoch arg) directiveParts fun t => SbDirAnswered d.toNat 0x00
      (if d = 9 then BitVec.ofNat 32 (t.fld Fld.TIM_STAT.OFFSET_EPOCH) else 0) t := by
  obtain ⟨t, run, frame, answered, shown⟩ := sbDirective_worked c answers alone free (s.dirActs_keeps d.toNat 0 arg.toNat)
    (State.directive_accepts status)
  rw [State.dirActs_byteValue, ← shown] at answered
  exact ⟨t, run, frame, answered⟩

end

/-! ### Management accesses after a trigger (R83, R90) -/

/-- After a trigger a write is refused before it reaches a register. -/
theorem mgtWrite_late {s : State} (c : s.canon) {p : Port} {mtag : BitVec 4} (opened : s.pathOpen (.mgt p mtag) = true)
    (late : s.triggered = true) (addr : BitVec 24) (data : Word) :
    Runs s (.mgtWrite p mtag addr data) [.links] fun t => MgtAnswered p mtag 0x06 t := by
  have run : exec (.mgtWrite p mtag addr data) s = .next ((s.onPath (.mgt p mtag)).answerMgt p mtag 0x06 0) := by
    change Host.Outcome.next (s.writeOn (.mgt p mtag) addr.toNat data) = _
    rw [State.writeOn, State.takeMgt_open opened, State.onPath_triggered, if_pos late]
  refine ⟨_, run, (Keeps.after (State.answerMgt_keeps _ _ _ _ _) rfl (s.onPath_keeps _) c).2, 0, ?_⟩
  exact State.answerRead_answered (State.onPath_carries opened) 0x06 0

theorem State.readReg_status (s : State) (path : AccPath) (a : Nat) : (s.readReg path a).2.1 = s.accStatus path a := by
  unfold State.readReg
  dsimp only
  split
  · next h => exact h.symm
  · rfl

/-- A read is answered with the status of the access. -/
theorem mgtRead_answered {s : State} (c : s.canon) {p : Port} {mtag : BitVec 4} (opened : s.pathOpen (.mgt p mtag) = true)
    (addr : BitVec 24) : Runs s (.mgtRead p mtag addr) execMgtRead_parts fun t =>
      MgtAnswered p mtag (s.accStatus (.mgt p mtag) addr.toNat) t := by
  have run : exec (.mgtRead p mtag addr) s = .next (s.pathRead (.mgt p mtag) addr.toNat) := rfl
  have frame := s.pathRead_keeps (.mgt p mtag) addr.toNat
  have reads := (s.onPath (.mgt p mtag)).readReg_keeps (.mgt p mtag) addr.toNat
  have status := (s.onPath (.mgt p mtag)).readReg_status (.mgt p mtag) addr.toNat
  have served : s.accessOpen (.mgt p mtag) = true := (s.accessOpen_iff _).2 ⟨opened, rfl⟩
  have carries : ((s.onPath (.mgt p mtag)).readReg (.mgt p mtag) addr.toNat).1.carries (.mgt p mtag) = true := by
    rw [State.carries, reads.link ((s.onPath_keeps _).canon c) rfl]
    exact State.onPath_carries opened
  rw [State.onPath_accStatus] at status
  refine ⟨_, run, (frame c).2, ((s.onPath (.mgt p mtag)).readReg (.mgt p mtag) addr.toNat).2.2, ?_⟩
  rw [State.pathRead_open served, status]
  exact State.answerRead_answered carries _ _

/-! ### The checks as the obligation states them -/

/-- The argument names no bit that the directive leaves undefined, and its precondition holds. -/
theorem State.preHolds_eq (s : State) (d : Byte) (arg : BitVec 64) :
    (arg.toNat &&& argMask d.toNat != arg.toNat || !s.dirPre d.toNat arg.toNat) = !s.preHolds d arg := by
  simp [State.preHolds, bne]

section
variable {s : State} {h : DirHead} {d : Byte} {arg : BitVec 64}

theorem State.sent_of_fromWitness {b : Bool} (sent : s.fromWitness h d = b) :
    (isMembership d.toNat && !(some h.port).any s.witnessOn) = !b := by
  rw [← sent]
  simp [State.fromWitness]

theorem State.current_of_epochCurrent {b : Bool} (current : s.epochCurrent h d = b) :
    (carriesEpoch d.toNat && h.epoch != s.mir.epoch) = !b := by
  rw [← current]
  simp [State.epochCurrent, bne]

variable (defined : 1 ≤ d.toNat ∧ d.toNat ≤ 11) (sent : s.fromWitness h d = true) (current : s.epochCurrent h d = true)
  (early : s.triggered = false) (idle : (s.fld Fld.GLB_DIRSTAT.BUSY).testBit d.toNat = false)
include defined sent current early idle

/-- The last check on a port. -/
theorem State.dirStatus_port : s.dirStatus (some h.port) d.toNat h.epoch arg.toNat = if s.preHolds d arg then 0x00 else 0x04 := by
  rw [State.dirStatus_last defined (State.sent_of_fromWitness sent) (State.current_of_epochCurrent current) early idle]
  simp only [Option.isNone_some, Bool.and_false, Bool.false_or, s.preHolds_eq d arg]
  cases s.preHolds d arg <;> rfl

end

section
variable {s : State} {d : Byte} {epoch : Word} {arg : BitVec 64}

/-- A membership directive on the sideband has no port of the witness to come from. -/
theorem State.sideSent (b : Bool) (h : isMembership d.toNat = b) :
    (isMembership d.toNat && !(none : Option Port).any s.witnessOn) = b := by
  simp [h]

theorem State.sideCurrent (member : isMembership d.toNat = false) (h : d = 3 → epoch = s.mir.epoch) :
    (carriesEpoch d.toNat && epoch != s.mir.epoch) = false := by
  by_cases three : d = 3
  · simp [h three]
  · have other : (d.toNat == 3) = false := beq_eq_false_iff_ne.2 fun e => three (BitVec.eq_of_toNat_eq e)
    rw [carriesEpoch, other, member]
    rfl

variable (defined : 1 ≤ d.toNat ∧ d.toNat ≤ 11) (member : isMembership d.toNat = false) (current : d = 3 → epoch = s.mir.epoch)
  (early : s.triggered = false) (idle : (s.fld Fld.GLB_DIRSTAT.BUSY).testBit d.toNat = false)
include defined member current early idle

/-- The last check on the sideband, where a handover never holds its precondition. -/
theorem State.dirStatus_side : s.dirStatus none d.toNat epoch arg.toNat =
    if d = 3 ∨ s.preHolds d arg = false then 0x04 else 0x00 := by
  rw [State.dirStatus_last defined (State.sideSent false member) (State.sideCurrent member current) early idle, Bool.or_assoc,
    s.preHolds_eq d arg]
  have three : (d.toNat == 3) = decide (d = 3) := by
    rw [Bool.eq_iff_iff, beq_iff_eq, decide_eq_true_eq]
    exact BitVec.toNat_inj (y := (3 : Byte))
  simp only [three, Option.isNone_none, Bool.and_true, Bool.or_eq_true, decide_eq_true_eq, Bool.not_eq_true']

end

/-- Settles O54: the checks in their order, each with its status, on a port and on the sideband. -/
theorem directiveChecks : Obligations.DirectiveChecks := by
  unfold Obligations.DirectiveChecks
  intro s c
  refine ⟨?undefined, ?outsider, ?stale, ?fenced, ?late, ?busy, ?unmet, ?accepted, ?readLate, ?writeLate, ?sbUndefined, ?sbOutsider,
    ?sbStale, ?sbLate, ?sbBusy, ?sbUnmet, ?sbAccepted⟩
  case undefined =>
    exact fun h d arg opened undefined => directive_refused c opened
        (State.dirStatus_undefined (undefined.imp_left (congrArg BitVec.toNat))) (by decide) (by simp)
  case outsider =>
    intro h d arg opened defined sent
    exact directive_refused c opened (State.dirStatus_outsider defined (State.sent_of_fromWitness sent)) (by decide) (by simp)
  case stale =>
    intro h d arg opened defined sent current older
    refine directive_refused c opened (State.dirStatus_stale defined (State.sent_of_fromWitness sent)
      (State.current_of_epochCurrent current)) (by decide) fun _ member => ?_
    rcases older with other | older
    · exact absurd member (by rw [other]; decide)
    · exact BitVec.le_def.1 older
  case fenced =>
    intro h d arg opened defined sent current member newer
    exact directive_fenced c opened (State.dirStatus_stale defined (State.sent_of_fromWitness sent)
      (State.current_of_epochCurrent current)) member (BitVec.lt_def.1 newer)
  case late =>
    intro h d arg opened defined sent current late
    exact directive_refused c opened (State.dirStatus_late defined (State.sent_of_fromWitness sent)
      (State.current_of_epochCurrent current) late) (by decide) (by simp)
  case busy =>
    intro h d arg opened defined sent current early busy
    exact directive_refused c opened (State.dirStatus_busy defined (State.sent_of_fromWitness sent)
      (State.current_of_epochCurrent current) early busy) (by decide) (by simp)
  case unmet =>
    intro h d arg opened defined sent current early idle unmet
    have status := State.dirStatus_port (arg := arg) defined sent current early idle
    rw [unmet] at status
    exact directive_refused c opened status (by decide) (by simp)
  case accepted =>
    intro h d arg opened defined sent current early idle met
    have status := State.dirStatus_port (arg := arg) defined sent current early idle
    rw [met] at status
    exact directive_accepted c opened status
  case readLate => exact fun p mtag addr opened late => mgtRead_answered c opened addr
  case writeLate => exact fun p mtag addr data opened late => mgtWrite_late c opened late addr data
  case sbUndefined =>
    intro d epoch arg answers alone free undefined
    exact sbDirective_refused c answers alone free (State.dirStatus_undefined (undefined.imp_left (congrArg BitVec.toNat)))
        (by decide) (by simp)
  case sbOutsider =>
    intro d epoch arg answers alone free member
    have defined : 1 ≤ d.toNat ∧ d.toNat ≤ 11 := by
      simp only [isMembership, Bool.or_eq_true, beq_iff_eq] at member
      omega
    exact sbDirective_refused c answers alone free (State.dirStatus_outsider defined (State.sideSent true member)) (by decide)
      (by simp)
  case sbStale =>
    intro d epoch arg answers alone free three stale
    subst three
    refine sbDirective_refused c answers alone free (State.dirStatus_stale (by decide) (State.sideSent false rfl) ?_) (by decide)
      fun _ => rfl
    simpa [carriesEpoch] using stale
  case sbLate =>
    intro d epoch arg answers alone free defined member current late
    exact sbDirective_refused c answers alone free (State.dirStatus_late defined (State.sideSent false member)
      (State.sideCurrent member current) late) (by decide) (by simp)
  case sbBusy =>
    intro d epoch arg answers alone free defined member current early busy
    exact sbDirective_refused c answers alone free (State.dirStatus_busy defined (State.sideSent false member)
      (State.sideCurrent member current) early busy) (by decide) (by simp)
  case sbUnmet =>
    intro d epoch arg answers alone free defined member current early idle unmet
    have status := State.dirStatus_side (arg := arg) defined member current early idle
    rw [if_pos unmet] at status
    exact sbDirective_refused c answers alone free status (by decide) (by simp)
  case sbAccepted =>
    intro d epoch arg answers alone free defined member other early idle met
    have status := State.dirStatus_side (epoch := epoch) (arg := arg) defined member (fun three => absurd three other) early idle
    rw [if_neg (not_or.2 ⟨other, by rw [met]; decide⟩)] at status
    exact sbDirective_accepted c answers alone free status

end Sys2Proof.Machine
end

section
/-!
The local line address that Map forms (R145).
-/

set_option Elab.async false

namespace Sys2Proof.Machine

theorem fieldGet_lt (w : Word) (hi lo : Nat) : fieldGet w hi lo < 2 ^ (hi + 1 - lo) :=
  Nat.mod_lt _ (Nat.two_pow_pos _)

theorem rtLocal_lt (w : Word) : rtLocal w < 2 ^ 15 :=
  fieldGet_lt w 14 0

section
variable (s : State) (a : BitVec 42)

/-- The region of a pair address is what stands above its line offset. -/
theorem State.localAddr_eq :
    s.localAddr a = rtLocal (s.rtEntry (a.toNat / 2 ^ 24)) * 2 ^ 24 + a.toNat % 2 ^ 24 := by
  rw [State.localAddr, Nat.shiftRight_eq_div_pow]

theorem State.localAddr_mod : s.localAddr a % 2 ^ 24 = a.toNat % 2 ^ 24 := by
  rw [State.localAddr_eq, Nat.mul_add_mod_self_right, Nat.mod_mod]

theorem State.localAddr_div : s.localAddr a / 2 ^ 24 = rtLocal (s.rtEntry (a.toNat / 2 ^ 24)) := by
  have offset : a.toNat % 2 ^ 24 < 2 ^ 24 := Nat.mod_lt _ (Nat.two_pow_pos _)
  rw [State.localAddr_eq, Nat.add_comm, Nat.add_mul_div_right _ _ (Nat.two_pow_pos _), Nat.div_eq_of_lt offset, Nat.zero_add]

end

/-- Settles O13: the sum of the region's base and the offset, taken apart again at bit 24, and the width of `LOCAL`. -/
theorem localLineAddress : Obligations.LocalLineAddress := by
  unfold Obligations.LocalLineAddress
  intro s a
  exact ⟨s.localAddr_eq a, s.localAddr_mod a, s.localAddr_div a, rtLocal_lt _⟩

end Sys2Proof.Machine
end

section
/-!
The handover commands as far as they complete, by what each leaves of the region and of its handover (R191 to R195).
-/

set_option Elab.async false

namespace Sys2Proof.Machine

/-- A completed command, told with a wider frame and a weaker effect. -/
theorem Runs.weaken {s : State} {i : Instr} {P Q : List Part} {E F : State → Prop} (h : Runs s i Q E) (wider : partsWithin Q P = true)
    (f : ∀ t, E t → F t) : Runs s i P F := by
  obtain ⟨t, run, frame, effect⟩ := h
  exact ⟨t, run, fun p u => frame p (uncovered_within wider u), f t effect⟩

/-! ### The fields of a rewritten table entry (R146) -/

theorem rtRole_rtPut (w : Word) {role : Nat} (sync : Nat) (handover : Bool) (small : role < 4) :
    rtRole (rtPut w role sync handover) = role := by
  rw [rtRole, rtPut, fieldGet_fieldPut_disjoint _ _ (.inl (by decide)), fieldGet_fieldPut_disjoint _ _ (.inl (by decide)),
    fieldGet_fieldPut _ (by decide)]
  exact Nat.mod_eq_of_lt small

theorem rtHandover_rtPut (w : Word) (role sync : Nat) (handover : Bool) : rtHandover (rtPut w role sync handover) = handover := by
  change (rtPut w role sync handover).toNat.testBit 23 = handover
  rw [rtPut, fieldPut_testBit, if_pos (by decide)]
  cases handover <;> rfl

/-! ### The one running handover -/

theorem State.handoverOf_only {s : State} {h : Handover} {r : Nat} (only : s.mir.handovers = [h]) (same : h.region = r) :
    s.handoverOf r = some h := by
  simp [State.handoverOf, only, same]

theorem HandoverEnded.none_left {s t : State} {h : Handover} {r result : Nat} {code : BitVec 16}
    (ended : HandoverEnded r result code s t) (only : s.mir.handovers = [h]) (same : h.region = r) : t.mir.handovers = [] := by
  simp [ended.handovers, only, same]

theorem HandoverEnded.none_of_region {s t : State} {r result : Nat} {code : BitVec 16} (ended : HandoverEnded r result code s t) :
    t.mir.handovers.all (fun x => x.region != r) = true := by
  simp [ended.handovers]

/-- Settles O40: what each command makes of its region and its handover, read off the new table entry and off the handovers left. -/
theorem handoverCommandsComplete : Obligations.HandoverCommandsComplete := by
  unfold Obligations.HandoverCommandsComplete
  intro s c
  refine ⟨?request, ?mark, ?drained, ?taken, ?refused, ?timeout⟩
  case request =>
    intro m up credit trigger good role sync calm few
    refine (handoverRequest_begins c up credit trigger good rfl role (.inl sync) calm few).weaken (by decide) ?_
    rintro t ⟨entry, handovers, -⟩
    exact ⟨by rw [entry, rtHandover_rtPut], by rw [handovers, List.getLast?_concat]⟩
  case mark =>
    intro region h trigger only same atP unmarked opened
    refine (handoverForkMark_waits c trigger only same atP unmarked opened).weaken (by decide) fun t handovers => ?_
    rw [handovers]
    rfl
  case drained =>
    intro m up credit trigger good role sync
    refine (handoverDrained_taken c up credit trigger good role sync).weaken (by decide) ?_
    rintro t ⟨ended, entry, -⟩
    exact ⟨by rw [entry, rtRole_rtPut _ _ _ (by decide)], by rw [entry, rtHandover_rtPut], ended.none_of_region⟩
  case taken =>
    intro m h up credit only same atP sent
    exact (handoverTaken_ends c up credit (State.handoverOf_only only same) atP sent).weaken (by decide)
      fun t ended => ended.none_left only same
  case refused =>
    intro m h up credit trigger only same atP sent good
    refine (handoverRefused_ends c up credit trigger (State.handoverOf_only only same) (fun _ => sent) good).weaken (by decide) ?_
    rintro t ⟨ended, entry⟩
    rw [if_pos atP] at entry
    exact ⟨by rw [entry, rtRole_rtPut _ _ _ (by decide)], ended.none_left only same⟩
  case timeout =>
    intro region h trigger only same atQ good
    refine (handoverTimeout_ends c trigger (State.handoverOf_only only same) same atQ good).weaken (by decide) ?_
    rintro t ⟨ended, entry⟩
    have small : rtRole (s.rtEntry region.toNat) < 4 := fieldGet_lt _ 19 18
    exact ⟨by rw [entry, rtHandover_rtPut], by rw [entry, rtRole_rtPut _ _ _ small], ended.none_left only same⟩

end Sys2Proof.Machine
end

section
/-!
Replica numbering, and the write at the head of the backlog that gets no number (R172, R567).
-/

set_option Elab.async false

namespace Sys2Proof.Machine

/-- Refutes O56: with the share kept and Fork free to send, a write at the head of the backlog is said to leave it; a masked write, on a
T that has not negotiated masked replicas, stays there unnumbered (R567). -/
theorem not_replicaNumbering : ¬ Obligations.ReplicaNumbering := by
  unfold Obligations.ReplicaNumbering
  intro h
  obtain ⟨-, numbered⟩ := h maskedUnforkable maskedUnforkable_canon
  obtain ⟨t, run, -, sent, -⟩ := numbered 2 [] maskedHead rfl (by decide +kernel) (by decide +kernel) rfl
  obtain ⟨u, run', waits⟩ := maskedUnforkable_waits
  obtain rfl : t = u := Host.Outcome.next.inj (run.symm.trans run')
  exact absurd (sent.symm.trans waits) (by decide)

end Sys2Proof.Machine
end

section
/-!
A refresh tick while the training engine holds the sub-channel (R251, R276).
-/

set_option Elab.async false

namespace Sys2Proof.Machine

/-- The hub in `TRAIN` with rank 0 of sub-channel 0 in the device training mode of step 6, and the first counter of its die 0 at 7, in the
fallback. -/
def trainingNearLimit : State :=
  { Tests.coreIn .train with
    cal := { State.reset.cal with train := [(0, { step := 6 })] }
    sch := [(0, { debt := [(0, 7)], fallback := [0] })] }

theorem trainingNearLimit_canon : trainingNearLimit.canon := Tests.canonOf (by decide +kernel)

/-- The engine refreshes the die before the tick would bring the counter to 8, so it is at 7 again. -/
theorem trainingNearLimit_ticks :
    ∃ t, exec (.refreshTick 0 0 0) trainingNearLimit = .next t ∧ (t.sub 0).debtOf 0 0 0 = 7 :=
  ⟨_, rfl, by decide +kernel⟩

/-- Refutes O32: the clause of REFRESH_TICK adds one to every counter, at most 8, but on a sub-channel that the training engine holds no
counter reaches 8 (R276): the engine makes the die's refresh first. -/
theorem not_refreshAndScrubRun : ¬ Obligations.RefreshAndScrubRun := by
  unfold Obligations.RefreshAndScrubRun
  intro h
  obtain ⟨tick, -⟩ := h trainingNearLimit trainingNearLimit_canon
  obtain ⟨t, run, -, debts, -⟩ := tick 0 0 0 (by decide +kernel) (by decide +kernel)
  have atLimit : (t.sub 0).debtOf 0 0 0 = 8 := debts 0 (by decide)
  obtain ⟨u, run', refreshed⟩ := trainingNearLimit_ticks
  obtain rfl : t = u := Host.Outcome.next.inj (run.symm.trans run')
  rw [atLimit] at refreshed
  exact absurd refreshed (by decide)

end Sys2Proof.Machine
end

section
/-!
An alert in a hub whose sub-channel step C4 of a calibration run holds for the device ZQ latch (R260, R304, R339).
-/

set_option Elab.async false

namespace Sys2Proof.Machine

/-- The sub-channel with its `ALERT_N` sampled low. -/
def SubCh.alertPinLow (c : SubCh) : SubCh := { c with pins := { c.pins with alertN := false } }

/-- The level of the pin is not what holds a sub-channel. -/
theorem State.holds_onSub_alertPinLow (s : State) (n : Nat) : (s.onSub n SubCh.alertPinLow).holds n = s.holds n := by
  have flagKept : ((s.onSub n SubCh.alertPinLow).sub n).held = (s.sub n).held := by
    rw [State.onSub, State.sub_setSub, SubCh.alertPinLow]
  have latchKept : (s.onSub n SubCh.alertPinLow).latchHold n = s.latchHold n := rfl
  rw [State.holds, State.holds, flagKept, latchKept]

/-- An alert sampled while the sub-channel is held, by whatever sequence, shows on the pin alone (R339). -/
theorem alertNLow_of_holds {s : State} {sc : Fin 16} (held : s.holds sc.val = true) :
    exec (.alertNLow sc) s = .next (s.onSub sc.val SubCh.alertPinLow) := by
  have heldStill : (s.onSub sc.val SubCh.alertPinLow).holds sc.val = true :=
    (s.holds_onSub_alertPinLow sc.val).trans held
  refine congrArg Host.Outcome.next (if_pos ?_)
  change (_ || (s.onSub sc.val SubCh.alertPinLow).holds sc.val || _) = true
  simp [heldStill]

/-- The hub in `SERVICE` with a calibration run of sub-channel 0 at step C4, which holds it for the ZQ latch; no other sequence does. -/
def heldForLatch : State :=
  Tests.calIn fun c => { c with runs := [(0, some { rank := 0, step := .latch, hold := true })] }

theorem heldForLatch_canon : heldForLatch.canon := Tests.canonOf (by decide +kernel)

/-- No alert stands, and none begins. -/
theorem heldForLatch_ignores :
    ∃ t, exec (.alertNLow 0) heldForLatch = .next t ∧ (t.sub 0).alert = 0 :=
  ⟨_, alertNLow_of_holds (by decide +kernel), by decide +kernel⟩

/-- Refutes O34: the first clause of ALERT_N_LOW asks only that the sub-channel's own hold flag be clear, but step C4 holds a sub-channel
without it, and an alert sampled while the sub-channel is held is ignored (R260, R304, R339). -/
theorem not_alertsRun : ¬ Obligations.AlertsRun := by
  unfold Obligations.AlertsRun
  intro h
  obtain ⟨firstTry, -⟩ := h heldForLatch heldForLatch_canon
  obtain ⟨t, run, -, begun⟩ :=
    firstTry 0 (by decide +kernel) (by decide +kernel) (by decide +kernel) (by decide +kernel) (by decide +kernel)
  have replaying : (t.sub 0).alert = 1 := congrArg SubCh.alert begun
  obtain ⟨u, run', ignored⟩ := heldForLatch_ignores
  obtain rfl : t = u := Host.Outcome.next.inj (run.symm.trans run')
  exact absurd (replaying.symm.trans ignored) (by decide)

end Sys2Proof.Machine
end

section
/-!
A latch that is given up while step C4 already holds the sub-channel for it (R260, R304).
-/

set_option Elab.async false

namespace Sys2Proof.Machine

/-- Once step C4 holds the sub-channel its latch is neither asked for again nor skipped (R304). -/
theorem calZqLatch_of_hold {s : State} {sc : Fin 16} {p : Nat} {r : CalRun} (running : s.runOf sc.val = some (p, r))
    (held : r.hold = true) (skipped : Bool) : exec (.calZqLatch sc skipped) s = .next s := by
  change execCalZqLatch sc skipped s = .next s
  simp [execCalZqLatch, running, held]

/-- The run of a hub held for the latch is still at its latch when the skip comes. -/
theorem heldForLatch_keepsLatch :
    ∃ t, exec (.calZqLatch 0 true) heldForLatch = .next t ∧ (t.run 0).map (·.step) = some .latch :=
  ⟨_, calZqLatch_of_hold (p := 0) (r := { rank := 0, step := .latch, hold := true }) (by decide +kernel) rfl true, by decide +kernel⟩

/-- Refutes O47: the clause of CAL_ZQ_LATCH that skips the latch asks only that the run be at that step, but once step C4 holds the
sub-channel the latch has started, and only one that cannot start is skipped (R304): the run stays at its latch. -/
theorem not_calibrationRuns : ¬ Obligations.CalibrationRuns := by
  unfold Obligations.CalibrationRuns
  intro h
  obtain ⟨-, -, -, -, -, -, -, -, -, skips, -⟩ := h heldForLatch heldForLatch_canon
  obtain ⟨t, run, -, stepped, -⟩ := skips 0 0 { rank := 0, step := .latch, hold := true }
    (by decide +kernel) (by decide +kernel) (by decide +kernel) rfl (by decide +kernel)
  obtain ⟨u, run', waits⟩ := heldForLatch_keepsLatch
  obtain rfl : t = u := Host.Outcome.next.inj (run.symm.trans run')
  rw [show t.run 0 = _ from stepped] at waits
  exact absurd waits (by decide)

end Sys2Proof.Machine
end

section
/-!
The Reed-Solomon code of a stored line: what the encoder writes has the syndromes of its poison pattern and of nothing else
(R322 to R325, R330).
-/

set_option Elab.async false

namespace Sys2Proof.Machine

/-! ### The field of R57 -/

theorem gfX_xor (a b : Byte) : gfX (a ^^^ b) = gfX a ^^^ gfX b := by
  have reduced (p q : Bool) (x y : Byte) :
      (if (p ^^ q) = true then x ^^^ y ^^^ 0x1D else x ^^^ y) = (if p then x ^^^ 0x1D else x) ^^^ (if q then y ^^^ 0x1D else y) := by
    cases p <;> cases q
    · rfl
    · exact BitVec.xor_assoc x y _
    · change x ^^^ y ^^^ _ = x ^^^ _ ^^^ y
      ac_rfl
    · calc x ^^^ y
        _ = x ^^^ y ^^^ (0x1D ^^^ 0x1D) := BitVec.xor_zero.symm
        _ = (x ^^^ 0x1D) ^^^ (y ^^^ 0x1D) := by ac_rfl
  rw [gfX, gfX, gfX, BitVec.msb_xor, BitVec.shiftLeft_xor_distrib, reduced]

/-- A map that keeps sums and multiplication by x keeps multiplication by any byte. -/
theorem map_gfMulAux {f : Byte → Byte} (sum : ∀ a b, f (a ^^^ b) = f a ^^^ f b) (timesX : ∀ a, f (gfX a) = gfX (f a)) :
    ∀ k a b acc, f (gfMulAux k a b acc) = gfMulAux k (f a) b (f acc)
  | 0, _, _, _ => rfl
  | k + 1, a, b, acc => by
    rw [gfMulAux, gfMulAux, map_gfMulAux sum timesX k, timesX, apply_ite f, sum]

theorem map_gfMul {f : Byte → Byte} (sum : ∀ a b, f (a ^^^ b) = f a ^^^ f b) (timesX : ∀ a, f (gfX a) = gfX (f a)) (a b : Byte) :
    f (gfMul a b) = gfMul (f a) b := by
  have zero : f 0 = 0 := by simpa using sum 0 0
  rw [gfMul, map_gfMulAux sum timesX, zero, gfMul]

theorem gfMulAux_xor : ∀ k (a a' b acc acc' : Byte),
    gfMulAux k (a ^^^ a') b (acc ^^^ acc') = gfMulAux k a b acc ^^^ gfMulAux k a' b acc'
  | 0, _, _, _, _, _ => rfl
  | k + 1, a, a', b, acc, acc' => by
    rw [gfMulAux, gfMulAux, gfMulAux, gfX_xor, ← gfMulAux_xor k]
    split
    · congr 1
      ac_rfl
    · rfl

theorem xor_gfMul (a b c : Byte) : gfMul (a ^^^ b) c = gfMul a c ^^^ gfMul b c := gfMulAux_xor 8 a b c 0 0

theorem gfMul_right_comm (a b c : Byte) : gfMul (gfMul a b) c = gfMul (gfMul a c) b :=
  map_gfMul (f := (gfMul · c)) (xor_gfMul · · c) (fun a => (map_gfMul gfX_xor (fun _ => rfl) a c).symm) a b

theorem one_gfMul : ∀ a, gfMul 1 a = a := by decide

theorem gfMul_comm (a b : Byte) : gfMul a b = gfMul b a := by
  simpa only [one_gfMul] using gfMul_right_comm 1 a b

theorem gfMul_xor (a b c : Byte) : gfMul a (b ^^^ c) = gfMul a b ^^^ gfMul a c := by
  rw [gfMul_comm, xor_gfMul, gfMul_comm b, gfMul_comm c]

theorem gfMul_left_comm (a b c : Byte) : gfMul a (gfMul b c) = gfMul b (gfMul a c) := by
  rw [gfMul_comm b, gfMul_comm a, gfMul_right_comm, gfMul_comm c, gfMul_comm]

theorem gfMul_zero (a : Byte) : gfMul a 0 = 0 := by simpa using gfMul_xor a 0 0

/-! ### Values of a codeword -/

/-- The value at `x` of the polynomial whose coefficients, highest degree first, are `a` and then `cw`. -/
def valueAt (x a : Byte) (cw : List Byte) : Byte := cw.foldl (fun a c => gfMul x a ^^^ c) a

theorem valueAt_cons (x a b : Byte) (cw : List Byte) : valueAt x a (b :: cw) = valueAt x (gfMul x a ^^^ b) cw := rfl

theorem valueAt_append (x a : Byte) (p q : List Byte) : valueAt x a (p ++ q) = valueAt x (valueAt x a p) q :=
  List.foldl_append

theorem rsSyndromes_eq (cw : List Byte) : rsSyndromes cw = (List.range 16).map fun j => valueAt (gfPow j) 0 cw := rfl

/-- Evaluation keeps sums. -/
theorem valueAt_zipWith_xor (x a b : Byte) : ∀ p q : List Byte, p.length = q.length →
    valueAt x (a ^^^ b) (List.zipWith (· ^^^ ·) p q) = valueAt x a p ^^^ valueAt x b q
  | [], [], _ => rfl
  | c :: p, d :: q, len => by
    have head : gfMul x (a ^^^ b) ^^^ (c ^^^ d) = gfMul x a ^^^ c ^^^ (gfMul x b ^^^ d) := by
      rw [gfMul_xor]
      ac_rfl
    rw [List.zipWith_cons_cons, valueAt_cons, head, valueAt_zipWith_xor x _ _ p q (Nat.succ.inj len), valueAt_cons, valueAt_cons]

/-- Evaluation keeps multiples. -/
theorem valueAt_map_gfMul (x t a : Byte) (p : List Byte) : valueAt x (gfMul t a) (p.map (gfMul t)) = gfMul t (valueAt x a p) := by
  induction p generalizing a with
  | nil => rfl
  | cons c p ih => rw [List.map_cons, valueAt_cons, gfMul_left_comm, ← gfMul_xor, ih, valueAt_cons]

/-! ### The generator and the division register (R323) -/

theorem length_rsGen : rsGen.length = 16 := by decide

/-- Each α^j with j below 16 is a root of the generator, whose leading coefficient is 1. -/
theorem valueAt_rsGen : ∀ j < 16, valueAt (gfPow j) 1 rsGen = 0 := by decide +kernel

@[simp] theorem length_rsStep (g r : List Byte) (b : Byte) : (rsStep g r b).length = 16 := by simp [rsStep]

/-- A step shifts the register and adds the multiple of the generator that its highest coefficient and the new symbol call for. -/
theorem rsStep_cons {g r : List Byte} (hg : g.length = 16) (hr : r.length = 15) (r₀ b : Byte) :
    rsStep g (r₀ :: r) b = List.zipWith (· ^^^ ·) (r ++ [0]) (g.map (gfMul (b ^^^ r₀))) := by
  refine List.ext_getElem (by simp [hg, hr]) fun i _ h => ?_
  have here : i < 16 := by simpa [hg, hr] using h
  have shifted : (r ++ [0])[i]'(by simpa [hr] using here) = r.getD i 0 := by
    rcases Nat.lt_or_ge i 15 with low | high
    · rw [List.getElem_append_left (by omega), List.getD_eq_getElem _ _ (by omega)]
    · rw [List.getD_eq_default _ _ (by omega)]
      obtain rfl : i = r.length := by omega
      exact List.getElem_concat_length rfl _
  rw [List.getElem_zipWith, shifted]
  simp [rsStep, hg, here]

/-- While a message is divided, the symbols read so far (of value `a` at a root) and the register form a multiple of the generator. -/
theorem valueAt_rsStep {x a : Byte} {g r : List Byte} (root : valueAt x 1 g = 0) (hg : g.length = 16) (hr : r.length = 16)
    (h : valueAt x a r = 0) (b : Byte) : valueAt x (gfMul x a ^^^ b) (rsStep g r b) = 0 := by
  obtain ⟨r₀, r, rfl⟩ := List.exists_cons_of_length_eq_add_one hr
  have hr : r.length = 15 := Nat.succ.inj hr
  have parts : gfMul x a ^^^ b = (gfMul x a ^^^ r₀) ^^^ gfMul (b ^^^ r₀) 1 := by
    rw [gfMul_comm _ 1, one_gfMul, BitVec.xor_assoc, BitVec.xor_comm b, ← BitVec.xor_assoc r₀, BitVec.xor_self, BitVec.zero_xor]
  have shift : valueAt x (gfMul x a ^^^ r₀) (r ++ [0]) = 0 := by
    rw [← valueAt_cons, ← List.cons_append, valueAt_append, h, valueAt_cons, gfMul_zero]
    rfl
  have multiple : valueAt x (gfMul (b ^^^ r₀) 1) (g.map (gfMul (b ^^^ r₀))) = 0 := by
    rw [valueAt_map_gfMul, root, gfMul_zero]
  rw [rsStep_cons hg hr, parts, valueAt_zipWith_xor _ _ _ _ _ (by simp [hg, hr]), shift, multiple]
  exact BitVec.xor_self

theorem valueAt_foldl_rsStep {x : Byte} {g : List Byte} (root : valueAt x 1 g = 0) (hg : g.length = 16) (m : List Byte) {a : Byte}
    {r : List Byte} (hr : r.length = 16) (h : valueAt x a r = 0) : valueAt x (valueAt x a m) (m.foldl (rsStep g) r) = 0 := by
  induction m generalizing a r with
  | nil => exact h
  | cons b m ih => exact ih (length_rsStep g r b) (valueAt_rsStep root hg hr h b)

theorem valueAt_zeros (x : Byte) : ∀ n, valueAt x 0 (List.replicate n 0) = 0
  | 0 => rfl
  | n + 1 => by
    rw [List.replicate_succ, valueAt_cons, gfMul_zero]
    exact valueAt_zeros x n

theorem length_foldl_rsStep (g : List Byte) (m : List Byte) {r : List Byte} (hr : r.length = 16) :
    (m.foldl (rsStep g) r).length = 16 := by
  induction m generalizing r with
  | nil => exact hr
  | cons b m ih => exact ih (length_rsStep g r b)

/-! ### Syndromes of what the encoder writes (R322, R325, R330) -/

/-- The codeword of a line: the virtual symbols, the data symbols and their check (R323). -/
def codewordOf (addr : Nat) (d : List Byte) : List Byte := virtualSymbols addr ++ d ++ rsCheck addr d

@[simp] theorem length_virtualSymbols (addr : Nat) : (virtualSymbols addr).length = 5 := length_leBytes _ 5

@[simp] theorem length_rsCheck (addr : Nat) (d : List Byte) : (rsCheck addr d).length = 16 :=
  length_foldl_rsStep _ _ List.length_replicate

/-- A codeword vanishes at every root of the generator. -/
theorem valueAt_codewordOf (addr : Nat) (d : List Byte) {j : Nat} (hj : j < 16) : valueAt (gfPow j) 0 (codewordOf addr d) = 0 := by
  rw [codewordOf, valueAt_append]
  exact valueAt_foldl_rsStep (valueAt_rsGen j hj) length_rsGen _ List.length_replicate (valueAt_zeros _ 16)

theorem zipWith_xor_replicate (p : Byte) : ∀ l : List Byte,
    List.zipWith (· ^^^ ·) l (List.replicate l.length p) = l.map (· ^^^ p)
  | [] => rfl
  | b :: l => congrArg ((b ^^^ p) :: ·) (zipWith_xor_replicate p l)

/-- An encoded line is the codeword plus its poison pattern. -/
theorem virtualSymbols_append_encodeLine (addr : Nat) (line : Line) (k : PoisonKind) :
    virtualSymbols addr ++ encodeLine addr line k =
      List.zipWith (· ^^^ ·) (codewordOf addr (leBytes line.toNat 64)) (List.replicate 69 0 ++ List.replicate 16 (poisonPattern k)) := by
  have message : (virtualSymbols addr ++ leBytes line.toNat 64).length = 69 := by simp [length_leBytes]
  have check := length_rsCheck addr (leBytes line.toNat 64)
  have zero : (· ^^^ (0 : Byte)) = id := funext fun _ => BitVec.xor_zero
  rw [codewordOf, List.zipWith_append (by rw [message, List.length_replicate]), ← message, zipWith_xor_replicate, zero, List.map_id,
    ← check, zipWith_xor_replicate, List.append_assoc, encodeLine]

/-- What the encoder writes has the syndromes of its poison pattern alone. -/
theorem rsSyndromes_encodeLine (addr : Nat) (line : Line) (k : PoisonKind) :
    rsSyndromes (virtualSymbols addr ++ encodeLine addr line k) = poisonSyndromes k := by
  rw [poisonSyndromes, rsSyndromes_eq, rsSyndromes_eq, virtualSymbols_append_encodeLine]
  refine List.map_congr_left fun j hj => ?_
  have sum := valueAt_zipWith_xor (gfPow j) 0 0 (codewordOf addr (leBytes line.toNat 64))
    (List.replicate 69 0 ++ List.replicate 16 (poisonPattern k)) (by simp [codewordOf, length_leBytes])
  rw [valueAt_codewordOf addr _ (List.mem_range.1 hj)] at sum
  exact sum.trans BitVec.zero_xor

theorem lineOf_encodeLine (addr : Nat) (line : Line) (k : PoisonKind) :
    lineOf (virtualSymbols addr ++ encodeLine addr line k) = line := by
  have fits := line.isLt
  rw [lineOf, List.drop_left' (length_virtualSymbols addr), encodeLine, List.take_left' (length_leBytes _ 64),
    ofLeBytes_leBytes 64 _ (by omega), BitVec.ofNat_toNat, BitVec.setWidth_eq]

/-- Settles O12: the syndromes are those of the poison pattern alone, none for a good line. -/
theorem encodedLinesReadBack : Obligations.EncodedLinesReadBack := by
  intro addr line erased
  have good : poisonSyndromes .good = List.replicate 16 0 := by decide +kernel
  have carried : poisonSyndromes .carried ≠ List.replicate 16 0 := by decide +kernel
  have cancelled : polyAdd (poisonSyndromes .carried) (poisonSyndromes .carried) = List.replicate 16 0 := by decide +kernel
  constructor
  · simp only [decodeLine, rsSyndromes_encodeLine, lineOf_encodeLine, good, if_true]
  · simp only [decodeLine, rsSyndromes_encodeLine, lineOf_encodeLine, carried, cancelled, if_true, if_false]

end Sys2Proof.Machine
end


section
/-!
The state after reset (R527).
-/

namespace Sys2Proof.Machine

/-- Settles O5: every table is empty after reset. -/
theorem resetIsCanonical : Obligations.ResetIsCanonical := reset_canon

end Sys2Proof.Machine
end

section
/-!
An access that waits at the register arbiter (R518, R539).
-/

namespace Sys2Proof.Machine

variable {s : State} {c : Instr} {q : ArbReq}

theorem State.access_waits (live : s.pathLive q.path = true) (busy : s.portBusy q.path = true) :
    s.access q = { s with sb := { s.sb with arb := s.sb.arb ++ [q] } } := by
  rw [State.access, live, busy]
  rfl

/-- What joins the accesses that wait changes nothing else. -/
theorem Runs.ofWaiting (canon : s.canon) (run : exec c s = .next { s with sb := { s.sb with arb := s.sb.arb ++ [q] } }) :
    Runs s c [.sb] fun t => t.sb = { s.sb with arb := s.sb.arb ++ [q] } :=
  ⟨_, run, (Keeps.upd_sb s _ canon).2, rfl⟩

/-- A command that brings an access to the arbiter while the access has to wait. -/
theorem Runs.ofAccess (canon : s.canon) (live : s.pathLive q.path = true) (busy : s.portBusy q.path = true)
    (run : exec c s = .next (s.access q)) : Runs s c [.sb] fun t => t.sb = { s.sb with arb := s.sb.arb ++ [q] } :=
  Runs.ofWaiting canon (run.trans (congrArg _ (State.access_waits live busy)))

theorem exec_sbReadRegisters_access {addr : BitVec 24} {count : Byte} (answers : s.sbAnswers = true) (some' : 0 < count.toNat)
    (few : count.toNat ≤ 16) : exec (.sbReadRegisters addr count) s =
      .next (s.access { path := .sideband, addr := addr.toNat, count := count.toNat }) := by
  show execSbReadRegisters addr count s = _
  rw [execSbReadRegisters, answers, if_neg (by decide), if_neg (by simp; omega)]

theorem exec_sbDirective_waits {dcode : Byte} {epoch : Word} {arg : BitVec 64} (answers : s.sbAnswers = true)
    (waits : s.mgtDirective dcode.toNat = true ∨ s.sb.arb.any (fun q => q.path == .sideband) = true) :
    exec (.sbDirective dcode epoch arg) s = .next { s with sb := { s.sb with
      arb := s.sb.arb ++ [{ path := .sideband, dir := some { dcode := dcode, epoch := epoch, arg := arg } }] } } := by
  show execSbDirective dcode epoch arg s = _
  unfold execSbDirective
  dsimp only
  rw [if_pos (by simpa [answers] using waits)]

/-- Settles O58: a read or a write on a path is one access, which the arbiter puts last among those that wait. -/
theorem accessesWaitRun : Obligations.AccessesWaitRun := by
  intro s canon
  refine ⟨fun _ live busy => .ofAccess canon live busy rfl, fun _ live busy => .ofAccess canon live busy rfl,
    fun _ live busy => .ofAccess canon live busy rfl, fun _ live busy => .ofAccess canon live busy rfl,
    fun _ live busy => .ofAccess canon live busy rfl, fun _ live busy => .ofAccess canon live busy rfl,
    fun _ _ live busy => .ofAccess canon live busy rfl, fun _ live busy => .ofAccess canon live busy rfl,
    fun _ live busy => .ofAccess canon live busy rfl, fun _ _ live busy => .ofAccess canon live busy rfl,
    fun _ _ _ live busy => .ofAccess canon live busy rfl, fun _ _ live busy => .ofAccess canon live busy rfl,
    fun _ _ live busy => .ofAccess canon live busy rfl, fun _ _ live busy => .ofAccess canon live busy rfl,
    fun _ _ live busy => .ofAccess canon live busy rfl, fun _ _ _ live busy => .ofAccess canon live busy rfl,
    fun _ live busy => .ofAccess canon live busy rfl, fun _ live busy => .ofAccess canon live busy rfl,
    fun _ live busy => .ofAccess canon live busy rfl, fun _ live busy => .ofAccess canon live busy rfl,
    fun _ _ live busy => .ofAccess canon live busy rfl, fun _ _ live busy => .ofAccess canon live busy rfl,
    fun _ _ live busy => .ofAccess canon live busy rfl, fun _ live busy => .ofAccess canon live busy rfl,
    fun _ _ answers some' few busy => ?_, fun _ _ answers busy => .ofAccess canon answers busy rfl,
    fun _ _ _ answers waits => .ofWaiting canon (exec_sbDirective_waits answers waits)⟩
  exact .ofAccess canon answers busy (exec_sbReadRegisters_access answers some' few)

end Sys2Proof.Machine
end

section
/-!
A keyed write that starts its work and is still refused for the bits beside its key (R483, R528).
-/

set_option Elab.async false

namespace Sys2Proof.Machine

/-- The word has the key and names no slot, and sets bits that must be written 0. -/
def misspeltRelease : Word := 0x6C72F003

/-- The release is refused with event 0xB007, and then the write with `ACCESS_ERROR`. -/
theorem misspeltRelease_logs : ∃ t, exec (.registerWrite .core 0x000020 misspeltRelease) (Tests.coreIn .bootHold) = .next t ∧
    WriteAnswered .core 0x01 t ∧ t.log.ring.length = 1 :=
  ⟨_, rfl, by unfold WriteAnswered; decide +kernel, by decide +kernel⟩

/-- Refutes O55: in `BOOT_HOLD` a keyed write of `GLB_BOOTREL` for no slot, with bits set that must be written 0, is refused as an
access error, but its release has been refused with event 0xB007. -/
theorem not_refusedAccessesNoted : ¬ Obligations.RefusedAccessesNoted := by
  unfold Obligations.RefusedAccessesNoted
  intro h
  obtain ⟨-, write, -⟩ := h (Tests.coreIn .bootHold) (Tests.canonOf (by decide +kernel))
  obtain ⟨t, run, -, noted⟩ := write .core 0x000020 misspeltRelease (by decide +kernel) (by decide +kernel)
  obtain ⟨u, run', answered, logs⟩ := misspeltRelease_logs
  obtain rfl : t = u := Host.Outcome.next.inj (run.symm.trans run')
  obtain ⟨-, log⟩ := noted 0x01 (by decide) answered
  rw [log] at logs
  exact absurd logs (by decide +kernel)

end Sys2Proof.Machine
end

section
/-!
The end of Squall in a tick that has captured an event of a higher code (R499, R505).
-/

set_option Elab.async false

namespace Sys2Proof.Machine

/-- Squall with an empty table, and an event of code 0xD010 captured in the present tick. -/
def squallWithLaterCode : State :=
  { State.reset with log := { State.reset.log with
      squall := true
      ring := [{ code := 0xD010, seqLow := true, tq := 0, seq := 1, stamp := State.reset.stamp, epoch := 0, data := 0, count := 0 }] } }

theorem squallWithLaterCode_canon : squallWithLaterCode.canon := Tests.canonOf (by decide +kernel)

/-- The captures of one tick stand in ascending code, so 0xD002 stands before the entry that was there. -/
theorem squallWithLaterCode_ends : ∃ t, exec .squallWindowEnd squallWithLaterCode = .next t ∧
    t.log.ring.map (·.code) = [0xD002, 0xD010] :=
  ⟨_, rfl, by decide +kernel⟩

/-- Refutes O49: the clause of SQUALL_WINDOW_END with an empty table says that 0xD002 stands newest, but the captures of one tick stand
in ascending code. -/
theorem not_eventsAndLogRun : ¬ Obligations.EventsAndLogRun := by
  unfold Obligations.EventsAndLogRun
  intro h
  obtain ⟨-, -, -, ends, -⟩ := h squallWithLaterCode squallWithLaterCode_canon
  obtain ⟨t, run, -, -, -, newest⟩ := ends (by decide +kernel) (by decide +kernel) (by decide +kernel) (by decide +kernel)
  obtain ⟨u, run', codes⟩ := squallWithLaterCode_ends
  obtain rfl : t = u := Host.Outcome.next.inj (run.symm.trans run')
  rw [← List.getLast?_map, codes] at newest
  exact absurd newest (by decide)

end Sys2Proof.Machine
end

section
/-!
A directory record with the highest sequence number (R470, R478).
-/

set_option Elab.async false

namespace Sys2Proof.Machine

/-! ### The directory of a flash that is blank from some record on -/

/-- The record in force of two: the one so far, and the one at a position. -/
def State.betterDir (s : State) (best : Option (Nat × DirRec)) (i : Nat) : Option (Nat × DirRec) :=
  match s.dirAt i with
  | some d => (match best with
    | some b => if b.2.seq.toNat < d.seq.toNat then some (i, d) else best
    | none => some (i, d))
  | none => best

theorem State.directory_eq_foldl (s : State) : s.directory = (List.range 1024).foldl s.betterDir none := rfl

theorem State.dirAt_blank {s : State} {n i : Nat} (low : s.flash.all (fun p => decide (p.1 < 64 * n)) = true) (above : n ≤ i) :
    s.dirAt i = none := by
  have blank : s.flashBytes (64 * i) 64 = List.replicate 64 0xFF := by
    refine List.ext_getElem (by simp [State.flashBytes]) fun j _ _ => ?_
    simp only [State.flashBytes, State.flashByte, List.getElem_map, List.getElem_range, List.getElem_replicate]
    exact Tests.get_above low (by omega)
  unfold State.dirAt
  rw [blank]
  rfl

/-- Only the records below the blank part count. -/
theorem State.directory_of_blank {s : State} {n : Nat} (few : n ≤ 1024)
    (low : s.flash.all (fun p => decide (p.1 < 64 * n)) = true) : s.directory = (List.range n).foldl s.betterDir none := by
  obtain ⟨m, total⟩ := Nat.exists_eq_add_of_le few
  rw [State.directory_eq_foldl, total, List.range_add, List.foldl_append]
  refine Tests.foldl_still _ _ _ fun i mem => ?_
  obtain ⟨j, -, rfl⟩ := List.mem_map.1 mem
  rw [State.betterDir, State.dirAt_blank low (Nat.le_add_right n j)]

/-! ### A record appended -/

/-- A record goes to the next blank position. -/
theorem State.appendDir_next {s : State} {n i : Nat} {newest : DirRec} (dir : s.directory = some (n, newest))
    (blank : ((List.range 1024).map fun k => (n + 1 + k) % 1024).find? (fun i => s.blank (64 * i) 64) = some i) (d : DirRec) :
    s.appendDir d = s.program (64 * i) { d with seq := newest.seq + 1 }.bytes := by
  unfold State.appendDir
  rw [dir]
  dsimp only
  rw [blank]

theorem State.tidyDir_elsewhere {s : State} (h : (s.top.state == .service || s.top.state == .bootHold) = false) : s.tidyDir = s :=
  if_neg (by simp [h])

/-- The record that makes a slot preferred and puts it on trial (R478). -/
def DirRec.prefer (d : DirRec) (slot : Nat) : DirRec :=
  { d with pref := slot, state := [if 0 = slot then 1 else d.stateOf 0, if 1 = slot then 1 else d.stateOf 1], tries := 0 }

theorem State.setPref_recorded {s : State} {n : Nat} {d : DirRec} (dir : s.directory = some (n, d)) (slot : Nat) :
    s.setPref slot = (s.appendDir (d.prefer slot)).tidyDir := by
  unfold State.setPref
  rw [dir]
  rfl

theorem exec_flashCommandDone_prefers {s : State} (cmd : s.boot.flCmd = some 4) (trigger : s.top.trigger = none)
    (usable : (s.boot.flash == .unusable) = false) (check : s.boot.check = none) :
    exec (.flashCommandDone true) s = .next ((s.setPref (s.fld Fld.MGT_FLADDR.ADDR % 2)).endFlash 0) := by
  show execFlashCommandDone true s = _
  unfold execFlashCommandDone
  rw [cmd]
  dsimp only
  rw [trigger, check, usable]
  rfl

/-! ### The count of records comes round -/

/-- A record whose successor has sequence number 0. -/
def lastRecord : DirRec := { seq := 0xFFFFFFFF, pref := 0, state := [2, 2], tries := 0 }

/-- That record alone in the directory, and a set preference of slot B under way. -/
def directoryFull : State :=
  { ({ Tests.coreIn .join with boot := { flCmd := some 4 } } : State).setFld Fld.MGT_FLADDR.ADDR 1 with
    flash := ((List.range 64).zip lastRecord.bytes).filter fun x => x.2 != 0xFF }

theorem directoryFull_canon : directoryFull.canon := Tests.canonOf (by decide +kernel)

theorem directoryFull_directory : directoryFull.directory = some (0, lastRecord) := by
  rw [Tests.directory_low] <;> decide +kernel

theorem directoryFull_addr : directoryFull.fld Fld.MGT_FLADDR.ADDR % 2 = 1 := by decide +kernel

/-- The flash with the record that the command appends. -/
def directoryRound : State := directoryFull.program 64 { seq := 0, pref := 1, state := [2, 1], tries := 0 : DirRec }.bytes

theorem directoryFull_done : exec (.flashCommandDone true) directoryFull = .next (directoryRound.endFlash 0) := by
  have record : { lastRecord.prefer 1 with seq := lastRecord.seq + 1 } =
      ({ seq := 0, pref := 1, state := [2, 1], tries := 0 } : DirRec) := by decide +kernel
  have appended : directoryFull.appendDir (lastRecord.prefer 1) = directoryRound := by
    rw [State.appendDir_next directoryFull_directory (i := 1) (by decide +kernel), record, directoryRound]
  rw [exec_flashCommandDone_prefers rfl rfl (by decide +kernel) rfl, directoryFull_addr,
    State.setPref_recorded directoryFull_directory, appended, State.tidyDir_elsewhere (by decide +kernel)]

/-- The old record stays in force. -/
theorem directoryRound_keeps : (directoryRound.endFlash 0).directory.map (·.2.pref) = some 0 := by
  rw [State.directory_of_blank (n := 2) (by decide) (by decide +kernel)]
  decide +kernel

/-- Refutes O52: after a directory record of sequence number 0xFFFFFFFF the appended record has number 0 and is not in force, so that
the preference is not set. -/
theorem not_flashMailboxRuns : ¬ Obligations.FlashMailboxRuns := by
  unfold Obligations.FlashMailboxRuns
  intro h
  obtain ⟨-, -, -, -, -, -, -, -, -, -, -, prefers, -⟩ := h directoryFull directoryFull_canon
  obtain ⟨t, run, -, -, -, -, force⟩ := prefers true 0 lastRecord rfl rfl (by decide +kernel) rfl rfl directoryFull_directory
  obtain rfl : _ = t := Host.Outcome.next.inj (directoryFull_done.symm.trans run)
  have kept := directoryRound_keeps
  obtain ⟨q, found, same⟩ := Option.map_eq_some_iff.1 force
  obtain ⟨pref, -⟩ := Prod.ext_iff.1 same
  rw [found, Option.map_some, Option.some_inj] at kept
  rw [directoryFull_addr] at pref
  exact absurd (pref.symm.trans kept) (by decide)

end Sys2Proof.Machine
end

section
/-!
A delay line that locks where every rank of its sub-channel has ended its training (R284, R310).
-/

set_option Elab.async false

namespace Sys2Proof.Machine

/-- In `SERVICE` with rank 0 trained, its record live and rank 1 not populated, while sub-channel 0 stands at step 13. -/
def waitsForLock : State :=
  ((((Tests.calIn id).setFld Fld.CLK_STAT.MPLL_LOCK 1).setFld (resultFld 0 0) 1).setFld (resultFld 0 1) 6).setTraining 0 { step := 13 }

theorem waitsForLock_canon : waitsForLock.canon := Tests.canonOf (by decide +kernel)

/-- No rank is left to check, so the sub-channel's training ends, and the record of rank 0 is written through as agent requests. -/
theorem waitsForLock_locks : ∃ t, exec (.dllLock 0 0 0) waitsForLock = .next t ∧ t.ord.admNext = 32 :=
  ⟨_, rfl, by decide +kernel⟩

/-- Refutes O45: the parts named for DLL_LOCK leave out Order, which takes the write-through of a record at the end of the training
that the lock brings about. -/
theorem not_delayLinesRun : ¬ Obligations.DelayLinesRun := by
  unfold Obligations.DelayLinesRun
  intro h
  obtain ⟨-, locks, -⟩ := h waitsForLock waitsForLock_canon
  obtain ⟨t, run, frame, -⟩ := locks 0 0 0 (by decide +kernel) (by decide +kernel) (by decide +kernel) (by decide +kernel)
    (by decide +kernel)
  obtain ⟨u, run', admitted⟩ := waitsForLock_locks
  obtain rfl : t = u := Host.Outcome.next.inj (run.symm.trans run')
  have same : t.ord = waitsForLock.ord := frame .ord (by decide)
  rw [same] at admitted
  exact absurd admitted (by decide +kernel)

end Sys2Proof.Machine
end

section
/-!
Sideband frames: words read and a word written with nothing before them (R516 to R518).
-/

set_option Elab.async false

namespace Sys2Proof.Machine

/-! ### Words that a read leaves as they are -/

theorem regRows_beyond {block : Nat} (h : 14 ≤ block) : regRows block = [] := by
  obtain ⟨k, rfl⟩ := Nat.exists_eq_add_of_le' h
  rfl

/-- Every decoded address is one of the bus (R526). -/
theorem lt_of_regRow {a : Nat} (h : (regRow a).isSome = true) : a < 2 ^ 24 := by
  by_contra far
  have block : 14 ≤ a >>> 16 := by rw [Nat.shiftRight_eq_div_pow]; omega
  simp [regRow, regRows_beyond block] at h

theorem decoded_of_accStatus {s : State} {path : AccPath} {a : Nat} (h : s.accStatus path a = 0) : decoded path a = true := by
  unfold State.accStatus at h
  by_contra off
  rw [if_pos (by simpa using off)] at h
  exact absurd h (by decide)

theorem regRow_of_accStatus {s : State} {path : AccPath} {a : Nat} (h : s.accStatus path a = 0) : (regRow a).isSome = true := by
  have on := decoded_of_accStatus h
  simp only [decoded, Bool.and_eq_true] at on
  exact on.1.2

/-- A read of a register that latches nothing captures nothing. -/
theorem State.captureRead_of_not_latches {a : Nat} (h : latches a = false) (s : State) : s.captureRead a = s := by
  simp only [latches, List.contains_cons, List.contains_nil, Bool.or_false, Bool.or_eq_false_iff, beq_eq_false_iff_ne,
    Bool.and_eq_false_iff, decide_eq_false_iff_not] at h
  obtain ⟨⟨h1, h2, h3, h4, h5, h6, h7, h8, h9⟩, eye⟩ := h
  have page : ¬ (0x060000 ≤ a ∧ a < 0x070000 ∧ a % 0x1000 = 0x014) := by
    rintro ⟨low, high, word⟩
    rcases eye with block | other
    · exact block (by rw [Nat.shiftRight_eq_div_pow]; omega)
    · exact other word
  unfold State.captureRead
  rw [if_neg h1, if_neg h2, if_neg h3, if_neg h4, if_neg h5, if_neg h6, if_neg page, if_neg h7, if_neg h8]

/-- A word that latches nothing and clears nothing. -/
def State.plainWord (s : State) (a : Nat) : Bool :=
  s.accStatus .sideband a == 0 && !latches a && readClears a == 0

theorem State.readReg_plain {s : State} {a : Nat} (h : s.plainWord a = true) : s.readReg .sideband a = (s, 0, s.viewReg a) := by
  simp only [State.plainWord, Bool.and_eq_true, beq_iff_eq, Bool.not_eq_true'] at h
  obtain ⟨⟨allowed, still⟩, keeps⟩ := h
  have kick : a ≠ Reg.LOG_WDTKICK := by
    rintro rfl
    exact absurd still (by decide)
  rw [State.readReg_allowed allowed kick, State.captureRead_of_not_latches still, State.clearRead_of_noClears keeps]

/-- Plain words are read one after another, and nothing changes. -/
theorem State.sbWords_plain (s : State) (n : Nat) : ∀ a : Nat, (∀ i < n, s.plainWord (a + 4 * i) = true) →
    State.sbWords a n s = (s, 0, (List.range n).flatMap fun i => leBytes (s.viewReg (a + 4 * i)).toNat 4) := by
  induction n with
  | zero => exact fun a _ => rfl
  | succ n ih =>
    intro a plain
    have first : s.plainWord a = true := plain 0 (Nat.succ_pos n)
    have low : a % 2 ^ 24 = a := Nat.mod_eq_of_lt (lt_of_regRow (regRow_of_accStatus (path := .sideband) (s := s) (by
      simp only [State.plainWord, Bool.and_eq_true, beq_iff_eq] at first
      exact first.1.1)))
    have rest := ih (a + 4) fun i hi => by
      rw [show a + 4 + 4 * i = a + 4 * (i + 1) by omega]
      exact plain (i + 1) (Nat.succ_lt_succ hi)
    unfold State.sbWords
    rw [low, State.readReg_plain first]
    dsimp only
    rw [rest, List.range_succ_eq_map, List.flatMap_cons, List.flatMap_map]
    simp only [if_true]
    have shift : ∀ i, a + 4 + 4 * i = a + 4 * i.succ := fun i => by omega
    simp only [shift, Nat.mul_zero, Nat.add_zero]

/-! ### A word that a write stores -/

theorem State.sbAnswers_of_open {s : State} (h : s.accessOpen .sideband = true) : s.sbAnswers = true :=
  ((s.accessOpen_iff .sideband).1 h).1

theorem State.portBusy_of_open {s : State} {path : AccPath} (h : s.accessOpen path = true) : s.portBusy path = false :=
  ((s.accessOpen_iff path).1 h).2

/-- An access on an open path is served at once (R518). -/
theorem State.access_served {s : State} {q : ArbReq} (h : s.accessOpen q.path = true) : s.access q = s.serveAccess q := by
  have live := State.pathLive_of_open ((s.accessOpen_iff q.path).1 h).1
  rw [State.access, live, State.portBusy_of_open h]
  rfl

/-- A write that starts nothing stores its word. -/
theorem State.putReg_stores {s : State} {a : Nat} (h : startsWork a = false) (w eff w1c : Word) :
    s.putReg a w eff w1c = (s.setReg a (writeWord (s.reg a) w eff w1c), false) := by
  simp only [startsWork, List.contains_cons, List.contains_nil, Bool.or_false, Bool.or_eq_false_iff, beq_eq_false_iff_ne,
    Bool.and_eq_false_iff, decide_eq_false_iff_not] at h
  obtain ⟨⟨⟨h1, h2, h3, h4, h5, h6, h7, h8⟩, eye⟩, margin⟩ := h
  have noMargin : ¬ (0x010000 ≤ a ∧ a < 0x015000 ∧ a % 0x1000 = 0x040) := by
    rintro ⟨low, high, word⟩
    rcases margin with block | other
    · exact block (by rw [Nat.shiftRight_eq_div_pow]; omega)
    · exact other word
  have noEye : ¬ (0x060000 ≤ a ∧ a < 0x070000 ∧ a % 0x1000 = 0x010) := by
    rintro ⟨low, high, word⟩
    rcases eye with block | other
    · exact block (by rw [Nat.shiftRight_eq_div_pow]; omega)
    · exact other word
  unfold State.putReg
  rw [if_neg h8, if_neg noMargin, if_neg fun h => h5 h.1, if_neg fun h => h6 h.1]
  unfold State.writeEffect
  rw [if_neg h1, if_neg h2, if_neg h3, if_neg noEye, if_neg h4, if_neg h5, if_neg h6, if_neg h7]

theorem State.writeReg_stores {s : State} {path : AccPath} {a : Nat} {w : Word} (allowed : s.accStatus path a = 0)
    (idle : startsWork a = false) (fits : w &&& (s.reach a).2.1 = 0) :
    s.writeReg path a w = (s.setReg a (writeWord (s.reg a) w (s.reach a).1 (s.reach a).2.2), 0) := by
  obtain ⟨row, found⟩ := Option.isSome_iff_exists.1 (regRow_of_accStatus allowed)
  have reach : s.reach a = ((s.writeMasks row).1, (s.writeMasks row).2, row.w1c) := by rw [State.reach, found]
  rw [reach] at fits ⊢
  unfold State.writeReg
  rw [allowed, found]
  dsimp only at fits ⊢
  rw [if_neg (by decide), State.putReg_stores idle, fits]
  rfl

/-! ### The commands -/

/-- A command that sets the sideband alone. -/
theorem Runs.ofSb {s : State} {c : Instr} {b : SbSt} (canon : s.canon) (run : exec c s = .next { s with sb := b }) :
    Runs s c [.sb] fun t => t.sb = b := ⟨_, run, (Keeps.upd_sb s b canon).2, rfl⟩

theorem sbReadRegisters_plain {s : State} (canon : s.canon) {addr : BitVec 24} {count : Byte}
    (opens : s.accessOpen .sideband = true) (some' : count ≠ 0) (few : count.toNat ≤ 16)
    (plain : (List.range count.toNat).all (fun i => s.plainWord (addr.toNat + 4 * i)) = true) :
    Runs s (.sbReadRegisters addr count) [.sb] fun t =>
      t.sb.answer = 0 :: (List.range count.toNat).flatMap fun i => leBytes (s.viewReg (addr.toNat + 4 * i)).toNat 4 := by
  have pos : 0 < count.toNat := Nat.pos_of_ne_zero fun z => some' (BitVec.eq_of_toNat_eq z)
  have run : exec (.sbReadRegisters addr count) s = .next (s.answerSb (0 :: (List.range count.toNat).flatMap fun i =>
      leBytes (s.viewReg (addr.toNat + 4 * i)).toNat 4)) := by
    rw [exec_sbReadRegisters_access (State.sbAnswers_of_open opens) pos few, State.access_served opens]
    unfold State.serveAccess
    rw [if_neg (by simpa using State.pathLive_of_open ((s.accessOpen_iff .sideband).1 opens).1)]
    dsimp only
    rw [if_neg (by omega), State.sbWords_plain s _ _ fun i hi => List.all_eq_true.1 plain i (List.mem_range.2 hi)]
  exact (Runs.ofSb canon run).imp fun t h => congrArg SbSt.answer h

theorem sbReadRegisters_badCount {s : State} (canon : s.canon) {addr : BitVec 24} {count : Byte} (answers : s.sbAnswers = true)
    (bad : count = 0 ∨ 16 < count.toNat) :
    Runs s (.sbReadRegisters addr count) [.sb] fun t => t.sb = { s.sb with answer := [0x11] } := by
  refine Runs.ofSb canon ?_
  show execSbReadRegisters addr count s = _
  have wrong : (count.toNat = 0 || decide (count.toNat > 16)) = true := by
    rcases bad with rfl | far
    · decide
    · simp [far]
  rw [execSbReadRegisters, answers, if_neg (by decide), if_pos wrong]
  rfl

theorem exec_sbWriteRegister_stores {s : State} {addr : BitVec 24} {data : Word} (opens : s.accessOpen .sideband = true)
    (allowed : s.accStatus .sideband addr.toNat = 0) (idle : startsWork addr.toNat = false)
    (fits : data &&& (s.reach addr.toNat).2.1 = 0) :
    exec (.sbWriteRegister addr data) s = .next ((s.setReg addr.toNat (writeWord (s.reg addr.toNat) data (s.reach addr.toNat).1
      (s.reach addr.toNat).2.2)).answerSb [0]) := by
  show Host.Outcome.next (s.access _) = _
  rw [State.access_served opens, State.serveAccess,
    if_neg (by simpa using State.pathLive_of_open ((s.accessOpen_iff .sideband).1 opens).1)]
  dsimp only [State.writeOn]
  rw [State.writeReg_stores allowed idle fits]

theorem sbWriteRegister_stores {s : State} (canon : s.canon) {addr : BitVec 24} {data : Word}
    (opens : s.accessOpen .sideband = true) (allowed : s.accStatus .sideband addr.toNat = 0)
    (idle : startsWork addr.toNat = false) (fits : data &&& (s.reach addr.toNat).2.1 = 0) :
    Runs s (.sbWriteRegister addr data) [.sb, .reg addr.toNat] fun t => t.sb = { s.sb with answer := [0] } ∧
      t.reg addr.toNat = writeWord (s.reg addr.toNat) data (s.reach addr.toNat).1 (s.reach addr.toNat).2.2 := by
  refine ⟨_, exec_sbWriteRegister_stores opens allowed idle fits, ?_, rfl, State.reg_setReg _ _ _⟩
  have stored := (State.setReg_keeps s addr.toNat (writeWord (s.reg addr.toNat) data (s.reach addr.toNat).1
    (s.reach addr.toNat).2.2)).mono (P := [.sb, .reg addr.toNat]) (by simp [partsWithin, Part.within, Nat.beq_refl])
  exact ((stored.trans ((State.answerSb_keeps _ [0]).mono (by simp [partsWithin, Part.within, State.answerSb_parts, Nat.beq_refl])))
    canon).2

/-! ### Interrupts (R514) -/

/-- An unread entry of the ring may interrupt. -/
def State.ibiDue (s : State) (e : RingEntry) : Bool := (s.fld Fld.LOG_SBCFG.IBIMASK).testBit (e.code.toNat >>> 12)

/-- With no unread entry that may interrupt, none is raised. -/
theorem State.raiseIbi_quiet {s : State} (h : (s.log.ring.drop s.log.rdSb).any s.ibiDue = false) : s.raiseIbi = s := by
  have nothing : (s.log.ring.drop s.log.rdSb).find? s.ibiDue = none :=
    List.find?_eq_none.2 fun e mem => by simpa using List.any_eq_false.1 h e mem
  unfold State.raiseIbi
  split
  · rfl
  · split
    · rfl
    · change (match (s.log.ring.drop s.log.rdSb).find? s.ibiDue with | some e => _ | none => s) = s
      rw [nothing]

theorem State.raiseIbi_due {s : State} {e : RingEntry} (bus : s.sb.smbus = false) (on : s.sb.ibiOn = true)
    (address : s.sb.dynAddr ≠ none) (free : s.sb.ibi = none) (first : (s.log.ring.drop s.log.rdSb).find? s.ibiDue = some e) :
    s.raiseIbi = { s with sb := { s.sb with ibi := some (BitVec.ofNat 8 (e.code.toNat >>> 12)) } } := by
  obtain ⟨da, hda⟩ := Option.ne_none_iff_exists'.1 address
  unfold State.raiseIbi
  rw [free]
  dsimp only
  rw [if_neg (by simp [bus, on, hda])]
  change (match (s.log.ring.drop s.log.rdSb).find? s.ibiDue with | some e => _ | none => s) = _
  rw [first]

theorem State.i3cOn_smbus {s : State} (h : s.i3cOn = true) : s.sb.smbus = false := by
  simp only [State.i3cOn, Bool.and_eq_true, Bool.not_eq_true'] at h
  exact h.2

/-! ### Common commands (R514) -/

theorem isSome_of_ne_none {α : Type} {o : Option α} (h : o ≠ none) : o.isSome = true := Option.isSome_iff_ne_none.2 h

/-- An address is taken by a target without one. -/
theorem State.takeAddress {s : State} {da : BitVec 7} (on : s.i3cOn = true) (bare : s.sb.dynAddr = none)
    (quiet : (s.log.ring.drop s.log.rdSb).any s.ibiDue = false) :
    (if s.i3cOn && s.sb.dynAddr.isNone then (s.setDyn (some da)).raiseIbi else s) =
      { s with sb := { s.sb with dynAddr := some da } } := by
  rw [if_pos (by simp [on, bare]), State.raiseIbi_quiet (s := s.setDyn (some da)) quiet]
  rfl

theorem State.keepAddress {s : State} {x : State} (h : s.i3cOn = false ∨ s.sb.dynAddr ≠ none) :
    (if s.i3cOn && s.sb.dynAddr.isNone then x else s) = s := by
  refine if_neg ?_
  rcases h with off | address
  · simp [off]
  · simp [address]

theorem State.cccGives_on {s : State} (on : s.i3cOn = true) (address : s.sb.dynAddr ≠ none) (l : List Byte) :
    s.cccGives l = { s with sb := { s.sb with cccOut := l } } := if_pos (by simp [on, isSome_of_ne_none address])

theorem State.cccGives_off {s : State} (h : s.i3cOn = false ∨ s.sb.dynAddr = none) (l : List Byte) : s.cccGives l = s := by
  refine if_neg ?_
  rcases h with off | bare
  · simp [off]
  · simp [bare]

theorem cccGetstatus_runs {s : State} (canon : s.canon) (on : s.i3cOn = true) (address : s.sb.dynAddr ≠ none) :
    Runs s .cccGetstatus [.free, .sb] fun t => t.sb =
      { s.sb with cccOut := [Config.freeByte s.free, Config.freeByte (s.free + 1)] } := by
  refine Runs.intro (execCccGetstatus_keeps s) canon rfl (by decide) ?_
  exact congrArg State.sb (State.cccGives_on (s := s.draw.2.draw.2) on address _)

/-- Settles O53: each command sets the sideband, and a write one register. -/
theorem sidebandRuns : Obligations.SidebandRuns := by
  intro s canon
  refine ⟨fun _ _ opens some' few plain => sbReadRegisters_plain canon opens some' few plain,
    fun _ _ off => congrArg _ (if_pos (by simp [off])),
    fun _ _ answers bad => sbReadRegisters_badCount canon answers bad,
    fun _ _ opens allowed idle fits => sbWriteRegister_stores canon opens allowed idle fits,
    fun _ _ off => congrArg _ (if_pos (by simpa [State.pathLive] using off)), fun e answers pec smbus => ?_,
    fun _ off => congrArg _ (if_pos (by simp [off])), fun e answers other => ?_,
    fun on smbus => Runs.ofSb canon (congrArg _ (if_pos (by simp [on, smbus]))),
    fun h => congrArg _ (if_neg (by rcases h with off | off <;> simp [off])),
    fun _ on bare quiet => Runs.ofSb canon (congrArg _ (State.takeAddress on bare quiet)),
    fun _ h => congrArg _ (State.keepAddress h),
    fun _ on bare quiet => Runs.ofSb canon (congrArg _ (State.takeAddress on bare quiet)),
    fun _ h => congrArg _ (State.keepAddress h),
    fun _ on address => Runs.ofSb canon (congrArg _ (if_pos (by simp [on, isSome_of_ne_none address]))),
    fun _ h => congrArg _ (if_neg (by rcases h with off | bare <;> simp [*])),
    fun on => Runs.ofSb canon (congrArg _ (if_pos on)), fun off => congrArg _ (if_neg (by simp [off])),
    fun on quiet => Runs.ofSb canon (congrArg _ ((if_pos on).trans
      (State.raiseIbi_quiet (s := { s with sb := { s.sb with ibiOn := true } }) quiet))),
    fun off => congrArg _ (if_neg (by simp [off])),
    fun e on free address first => Runs.ofSb canon (congrArg _ ((if_pos on).trans
      (State.raiseIbi_due (s := { s with sb := { s.sb with ibiOn := true } }) (State.i3cOn_smbus on) rfl address free first))),
    fun on => Runs.ofSb canon (congrArg _ (if_pos on)), fun off => congrArg _ (if_neg (by simp [off])),
    fun on address => Runs.ofSb canon (congrArg _ (State.cccGives_on on address _)), fun h => congrArg _ (State.cccGives_off h _),
    fun on address => Runs.ofSb canon (congrArg _ (State.cccGives_on on address _)), fun h => congrArg _ (State.cccGives_off h _),
    fun on address => Runs.ofSb canon (congrArg _ (State.cccGives_on on address _)), fun h => congrArg _ (State.cccGives_off h _),
    fun on address => cccGetstatus_runs canon on address,
    fun on address => Runs.ofSb canon (congrArg _ (State.cccGives_on on address _)), fun h => congrArg _ (State.cccGives_off h _),
    fun on address => Runs.ofSb canon (congrArg _ (State.cccGives_on on address _)), fun h => congrArg _ (State.cccGives_off h _),
    fun _ on => Runs.ofSb canon (congrArg _ (if_pos on)), fun _ off => congrArg _ (if_neg (by simp [off])),
    fun _ on => Runs.ofSb canon (congrArg _ (if_pos on)), fun _ off => congrArg _ (if_neg (by simp [off])),
    fun _ on reset => Runs.ofSb canon (congrArg _ (if_pos (by simp [on, reset]))),
    fun _ h => congrArg _ (if_neg (by
      rcases h with off | other
      · simp [off]
      · rw [beq_eq_false_iff_ne.2 other]
        simp))⟩
  · subst pec
    refine Runs.ofSb canon ?_
    exact congrArg _ ((if_neg (by simp [answers])).trans (if_pos smbus))
  · refine Runs.ofSb canon ?_
    cases e with
    | pec => exact absurd rfl other
    | unknownOp | wrongLength | noRequest => exact congrArg _ (if_neg (by simp [answers]))

end Sys2Proof.Machine
end

section
/-!
The start of an interval in the event ring (R500, R503).
-/

set_option Elab.async false

namespace Sys2Proof.Machine

/-- A captured event that starts a Lull or a holdover takes the next number and is placed. -/
theorem State.capture_start {s : State} (on : s.top.aonOn = true) {code : BitVec 16} {i : Nat} (start : intervalOf code = .start i)
    (log : i < 2) (data count : Word) :
    ∃ (x : State) (e : RingEntry), (LogSt.Grows 0 s.log x.log ∧ x.time = s.time) ∧
      (e.code = code ∧ e.data = data ∧ e.stamp = x.stamp) ∧ s.capture code data count = x.place code e := by
  have opens : ∀ x : State, x.log = s.log →
      LogSt.Grows 0 s.log ((x.bump Reg.LOG_CAPTURED).takeSeq.log.setOpen i true) := fun x hx => by
    rw [← hx]
    match i, log with
    | 0, _ | 1, _ => exact .of_eq rfl rfl rfl rfl
  have time : (match endsDir code with | some d => s.endDir d | none => s).time = s.time := by
    cases endsDir code with
    | none => rfl
    | some d =>
      show (s.endDir d).time = s.time
      unfold State.endDir
      extract_lets b
      split <;> rfl
  let x : State := match endsDir code with
    | some d => s.endDir d
    | none => s
  refine ⟨{ (x.bump Reg.LOG_CAPTURED).takeSeq with log := (x.bump Reg.LOG_CAPTURED).takeSeq.log.setOpen i true },
    x.mkEntry code data count, ⟨opens x (s.endsDir_log code), time⟩, ⟨rfl, rfl, rfl⟩, ?_⟩
  unfold State.capture
  rw [if_neg (by simp [on]), start]
  rfl

/-- The start is recorded where the log has room for a general event. -/
theorem State.capture_start_taken {s : State} (on : s.top.aonOn = true) {code : BitVec 16} {i : Nat} (c : s.canon)
    (room : s.log.Takes code 0) (start : intervalOf code = .start i) (log : i < 2) (last : mayUseLast code = true)
    (data count : Word) : Logged code data (s.capture code data count) := by
  obtain ⟨x, e, ⟨g, time⟩, ⟨ec, ed, es⟩, eq⟩ := State.capture_start on start log data count
  have time' : (s.capture code data count).time = s.time := (State.capture_keeps s code data count).same c .time (by decide +kernel)
  obtain ⟨rd, -, free⟩ := LogSt.Takes.grows (k := 0) room g
  have placed : s.capture code data count = x.pushAll e := by
    rw [eq, State.place, if_pos last, if_pos (by omega)]
  obtain ⟨q, hq⟩ := State.pushAll_mem rd e
  rw [← placed] at hq
  refine ⟨_, hq, ec, ed, ?_⟩
  rw [State.stamp, State.nowNs, time', ← time]
  exact es

end Sys2Proof.Machine
end

section
/-!
Beacons, holdover, SYNC_IN and the sensors (R491 to R498, R522, R523, R557).
-/

set_option Elab.async false

namespace Sys2Proof.Machine

/-! ### The time port (R493) -/

/-- Where one masked port alone carries traffic, it is the time port. -/
theorem State.timePort_only {s : State} {p : Port} (mem : p ∈ uPorts) (mask : (s.fld Fld.TIM_CFG.PORTMASK).testBit p.idx = true)
    (up : (s.link p).lstate = .service)
    (only : uPorts.all (fun q => q == p || !((s.fld Fld.TIM_CFG.PORTMASK).testBit q.idx && (s.link q).lstate == .service)) = true) :
    s.timePort = some p := by
  have unique : ∀ q ∈ uPorts.filter (fun q => (s.fld Fld.TIM_CFG.PORTMASK).testBit q.idx && (s.link q).lstate == .service),
      q = p := by
    intro q hq
    obtain ⟨inU, takes⟩ := List.mem_filter.1 hq
    have apart := List.all_eq_true.1 only q inU
    rw [takes] at apart
    simpa using apart
  have here : p ∈ uPorts.filter (fun q => (s.fld Fld.TIM_CFG.PORTMASK).testBit q.idx && (s.link q).lstate == .service) :=
    List.mem_filter.2 ⟨mem, by simp [mask, up]⟩
  unfold State.timePort
  dsimp only
  split
  · next q found => rw [unique q (List.mem_of_find?_eq_some found)]
  · obtain ⟨q, r, e⟩ := List.exists_cons_of_ne_nil (List.ne_nil_of_mem here)
    rw [e, List.head?_cons, unique q (by rw [e]; exact List.mem_cons_self)]

theorem mem_uPorts {p : Port} (h : p ≠ .t) : p ∈ uPorts := by
  cases p with
  | t => exact absurd rfl h
  | _ => decide

theorem isT_of_ne {p : Port} (h : p ≠ .t) : p.isT = false := by
  cases p with
  | t => exact absurd rfl h
  | _ => rfl

/-! ### A beacon is applied (R495, R496) -/

/-- The frequency estimate after a beacon. -/
def State.estimated (s : State) (t : Nat) (e : Int) : State :=
  let dt : Int := (t : Int) - (s.time.lastTime : Int)
  let upd := s.time.prevApplied && !s.time.holdover && decide (dt ≤ 2 * (s.beaconTmo : Int))
  let r := if upd then s.newF e dt else (s, s.time.f)
  { r.1 with time := { r.1.time with f := r.2 } }

/-- The beacon is noted, counted and its error shown. -/
def State.beaconNoted (s : State) (t : Nat) (e : Int) (paired : Bool) : State :=
  (({ s with time := { s.time with holdover := false, ePrev := e, prevApplied := true, lastTime := t, lastPaired := paired } } :
    State).bump Reg.TIM_BEACONS).setReg Reg.TIM_LASTERR (satWord e)

/-- The timebase is stepped over a great error, and slewed over another. -/
def State.steered (s : State) (e : Int) : State :=
  if e > 1000000 then
    let s := { s with time := { s.time with tb := s.time.tb + (e.toNat <<< 32), slew := 0 } }
    (s.bump Reg.TIM_STEPS).event 0xC001 (min 0xFFFFFFFF (e.toNat / 1000))
  else
    let s := { s with time := { s.time with slew := clampInt (-20000) 20000 (e / 10) } }
    if e < -1000000000 then s.event 0xC007 (min 0xFFFFFFFF ((-e).toNat / 1000000)) else s

/-- A holdover that has ended is told. -/
def State.holdoverTold (s : State) (long : Option Nat) : State :=
  match long with
  | some n => s.event 0xC003 (min 0xFFFFFFFF n)
  | none => s

def State.beaconStamped (s : State) : State := { s with time := { s.time with lastApplied := s.nowNs } }

/-- The error of a beacon that is compared with the timebase `m`. -/
def State.beaconError (s : State) (t m : Nat) : Int := (t : Int) - ((m : Int) + s.time.offset.toInt)

theorem State.applyBeacon_eq (s : State) (t m : Nat) (paired : Bool) : s.applyBeacon t m paired =
    ((((s.estimated t (s.beaconError t m)).beaconNoted t (s.beaconError t m) paired).steered (s.beaconError t m)).holdoverTold
      (s.estimated t (s.beaconError t m)).holdoverLength).beaconStamped := rfl

theorem State.newF_state (s : State) (e dt : Int) : (s.newF e dt).1.time = s.time ∧ (s.newF e dt).1.regs = s.regs := by
  unfold State.newF
  split <;> exact ⟨rfl, rfl⟩

theorem State.estimated_state (s : State) (t : Nat) (e : Int) :
    (∃ f, (s.estimated t e).time = { s.time with f := f }) ∧ (s.estimated t e).regs = s.regs := by
  have inner : ∀ b : Bool, (if b then s.newF e ((t : Int) - (s.time.lastTime : Int)) else (s, s.time.f)).1.time = s.time ∧
      (if b then s.newF e ((t : Int) - (s.time.lastTime : Int)) else (s, s.time.f)).1.regs = s.regs := by
    intro b
    cases b with
    | false => exact ⟨rfl, rfl⟩
    | true => exact s.newF_state e _
  unfold State.estimated
  obtain ⟨time, regs⟩ := inner (s.time.prevApplied && !s.time.holdover &&
    decide ((t : Int) - (s.time.lastTime : Int) ≤ 2 * (s.beaconTmo : Int)))
  exact ⟨⟨_, congrArg (fun τ : TimeSt => { τ with f := (if (s.time.prevApplied && !s.time.holdover &&
    decide ((t : Int) - (s.time.lastTime : Int) ≤ 2 * (s.beaconTmo : Int))) then s.newF e ((t : Int) - (s.time.lastTime : Int))
      else (s, s.time.f)).2 }) time⟩, regs⟩

theorem State.estimated_keeps (s : State) (t : Nat) (e : Int) : Keeps [.free, .time] s (s.estimated t e) := by
  unfold State.estimated State.newF
  dsimp only
  split
  · split
    · exact .after (Keeps.upd_time _ _) rfl ((Keeps.upd_free s _).mono rfl)
    · exact (Keeps.upd_time s _).mono rfl
  · exact (Keeps.upd_time s _).mono rfl

theorem State.beaconNoted_keeps (s : State) (t : Nat) (e : Int) (paired : Bool) :
    Keeps [.time, .reg Reg.TIM_BEACONS, .reg Reg.TIM_LASTERR] s (s.beaconNoted t e paired) :=
  .after (State.setReg_keeps _ _ _) (by decide) (.after (State.bump_keeps _ _ _) (by decide) ((Keeps.upd_time s _).mono (by decide)))

theorem State.beaconNoted_counted {s : State} (c : s.canon) (t : Nat) (e : Int) (paired : Bool) :
    Counted Reg.TIM_BEACONS s (s.beaconNoted t e paired) :=
  Counted.keeps (Counted.bump_after (Keeps.upd_time s _) c (by decide)) (State.setReg_keeps _ _ _)
    ((State.bump_keeps _ _ _).canon ((Keeps.upd_time s _).canon c)) (by decide)

theorem State.event_time {s : State} (c : s.canon) (code : BitVec 16) (data : Nat) : (s.event code data).time = s.time :=
  (State.event_keeps s code data).same c .time (by decide)

theorem State.steered_keeps (s : State) (e : Int) : Keeps (.time :: .reg Reg.TIM_STEPS :: logParts) s (s.steered e) := by
  unfold State.steered
  split
  · exact .after (State.event_keeps _ _ _) (by decide) (.after (State.bump_keeps _ _ _) (by decide)
      ((Keeps.upd_time s _).mono (by decide)))
  · dsimp only
    split
    · exact .after (State.event_keeps _ _ _) (by decide) ((Keeps.upd_time s _).mono (by decide))
    · exact (Keeps.upd_time s _).mono (by decide)

theorem State.steered_steps {s : State} (c : s.canon) {e : Int} (far : 1000000 < e) :
    (s.steered e).time = { s.time with tb := s.time.tb + (e.toNat <<< 32), slew := 0 } ∧ Counted Reg.TIM_STEPS s (s.steered e) := by
  have moved := Keeps.upd_time s { s.time with tb := s.time.tb + (e.toNat <<< 32), slew := 0 }
  have cm := (State.bump_keeps _ Reg.TIM_STEPS 1).canon (moved.canon c)
  rw [State.steered, if_pos far]
  exact ⟨State.event_time cm _ _, Counted.keeps (Counted.bump_after moved c (by decide)) (State.event_keeps _ _ _) cm (by decide)⟩

theorem State.steered_slews {s : State} (c : s.canon) {e : Int} (near : e ≤ 1000000) :
    (s.steered e).time = { s.time with slew := clampInt (-20000) 20000 (e / 10) } := by
  rw [State.steered, if_neg (by omega)]
  dsimp only
  split
  · exact State.event_time ((Keeps.upd_time s _).canon c) _ _
  · rfl

theorem State.holdoverTold_keeps (s : State) (long : Option Nat) : Keeps logParts s (s.holdoverTold long) := by
  cases long with
  | none => exact .refl _ s
  | some n => exact (State.event_keeps s _ _).mono (by decide)

/-- What a beacon's time `t`, compared with the timebase `m`, leaves, with the edges still free to be paired. -/
def BeaconApplied (t m : Nat) (paired : Bool) (free : List Nat) (s v : State) : Prop :=
  Counted Reg.TIM_BEACONS s v ∧ v.reg Reg.TIM_LASTERR = satWord (s.beaconError t m) ∧ v.time.lastTime = t ∧
    v.time.ePrev = s.beaconError t m ∧ v.time.prevApplied = true ∧ v.time.holdover = false ∧ v.time.lastPaired = paired ∧
    v.time.lastApplied = v.nowNs ∧ v.time.syncFree = free ∧
    (1000000 < s.beaconError t m → v.nowNs = s.nowNs + (s.beaconError t m).toNat ∧ v.time.slew = 0 ∧
      Counted Reg.TIM_STEPS s v) ∧
    (s.beaconError t m ≤ 1000000 → v.time.tb = s.time.tb ∧
      v.time.slew = clampInt (-20000) 20000 (s.beaconError t m / 10))

theorem nowNs_step (tb n : Nat) : (tb + (n <<< 32)) >>> 32 = (tb >>> 32) + n := by
  simp only [Nat.shiftRight_eq_div_pow, Nat.shiftLeft_eq]
  rw [Nat.add_mul_div_right _ _ (Nat.two_pow_pos 32)]

/-- The timebase after a beacon: stepped or slewed, with the time of the application. -/
theorem State.beaconStamped_time {w : State} (cw : w.canon) (long : Option Nat) :
    (w.holdoverTold long).beaconStamped.time = { w.time with lastApplied := w.nowNs } := by
  have still : (w.holdoverTold long).time = w.time := (w.holdoverTold_keeps long).same cw .time (by decide)
  show { (w.holdoverTold long).time with lastApplied := (w.holdoverTold long).nowNs } = _
  rw [State.nowNs, still, State.nowNs]

theorem State.beaconStamped_keeps (w : State) (long : Option Nat) : Keeps (.time :: logParts) w (w.holdoverTold long).beaconStamped :=
  .after (Keeps.upd_time _ _) (by decide) ((w.holdoverTold_keeps long).mono (by decide))

theorem State.applyBeacon_applied {s : State} (c : s.canon) (t m : Nat) (paired : Bool) :
    BeaconApplied t m paired s.time.syncFree s (s.applyBeacon t m paired) := by
  rw [State.applyBeacon_eq]
  unfold BeaconApplied
  generalize s.beaconError t m = e
  obtain ⟨⟨f, time⟩, -⟩ := s.estimated_state t e
  have estimate := s.estimated_keeps t e
  generalize (s.estimated t e).holdoverLength = long
  generalize s.estimated t e = u at *
  have cu := estimate.canon c
  have cn := (u.beaconNoted_keeps t e paired).canon cu
  have counted : Counted Reg.TIM_BEACONS s (u.beaconNoted t e paired) := by
    rw [Counted, (u.beaconNoted_counted cu t e paired : _ = _), estimate.fld c (by decide)]
  have shown : (u.beaconNoted t e paired).reg Reg.TIM_LASTERR = satWord e := State.reg_setReg _ _ _
  have noted : (u.beaconNoted t e paired).time =
      { s.time with f := f, holdover := false, ePrev := e, prevApplied := true, lastTime := t, lastPaired := paired } :=
    congrArg (fun τ : TimeSt => { τ with holdover := false, ePrev := e, prevApplied := true, lastTime := t, lastPaired := paired }) time
  have before : Keeps (.free :: .time :: [.reg Reg.TIM_BEACONS, .reg Reg.TIM_LASTERR]) s (u.beaconNoted t e paired) :=
    .after (u.beaconNoted_keeps t e paired) (by decide) (estimate.mono (by decide))
  generalize u.beaconNoted t e paired = n at *
  have steer := n.steered_keeps e
  have cw := steer.canon cn
  have final := State.beaconStamped_time cw long
  have after := State.beaconStamped_keeps (n.steered e) long
  have later : Keeps (.time :: .reg Reg.TIM_STEPS :: logParts) n ((n.steered e).holdoverTold long).beaconStamped :=
    .after after (by decide) steer
  have first : Counted Reg.TIM_BEACONS s ((n.steered e).holdoverTold long).beaconStamped := counted.keeps later cn (by decide)
  have last : ((n.steered e).holdoverTold long).beaconStamped.reg Reg.TIM_LASTERR = satWord e := (later.reg cn (by decide)).trans shown
  have now : ((n.steered e).holdoverTold long).beaconStamped.nowNs = (n.steered e).nowNs := by rw [State.nowNs, final, State.nowNs]
  rcases lt_or_ge 1000000 e with far | near
  · obtain ⟨steered, steps⟩ := n.steered_steps cn far
    have stepped : Counted Reg.TIM_STEPS s ((n.steered e).holdoverTold long).beaconStamped := by
      rw [Counted, (steps.keeps after cw (by decide) : _ = _), before.fld c (by decide)]
    have moved : (n.steered e).nowNs = s.nowNs + e.toNat := by
      rw [State.nowNs, steered, noted]
      exact nowNs_step s.time.tb e.toNat
    rw [now, final, steered, noted]
    exact ⟨first, last, rfl, rfl, rfl, rfl, rfl, rfl, rfl, fun _ => ⟨moved, rfl, stepped⟩, fun h => absurd far (by omega)⟩
  · have steered := n.steered_slews cn near
    rw [now, final, steered, noted]
    exact ⟨first, last, rfl, rfl, rfl, rfl, rfl, rfl, rfl, fun h => absurd h (by omega), fun _ => ⟨rfl, rfl⟩⟩

/-- `BeaconApplied` speaks of the time and of three registers of the state before. -/
theorem BeaconApplied.of_before {t m : Nat} {paired : Bool} {free : List Nat} {P : List Part} {s u v : State}
    (h : BeaconApplied t m paired free u v) (k : Keeps P s u) (c : s.canon) (tb : u.time.tb = s.time.tb)
    (offset : u.time.offset = s.time.offset)
    (apart : ([.reg Reg.TIM_BEACONS, .reg Reg.TIM_STEPS].all fun q => !P.any (Part.covers · q)) = true) :
    BeaconApplied t m paired free s v := by
  simp only [List.all_cons, List.all_nil, Bool.and_true, Bool.and_eq_true, Bool.not_eq_true'] at apart
  obtain ⟨beacons, steps⟩ := apart
  have still : u.nowNs = s.nowNs := by rw [State.nowNs, tb, State.nowNs]
  have error : u.beaconError t m = s.beaconError t m := by rw [State.beaconError, offset, State.beaconError]
  unfold BeaconApplied at h ⊢
  unfold Counted at h ⊢
  rw [error, still, tb, k.fld c beacons, k.fld c steps] at h
  exact h

/-! ### The beacon reaches its port -/

/-- The beacon's port and the time port noted before it is applied. -/
def State.beaconSeen (s : State) (p : Port) : State :=
  ({ s with time := { s.time with portSeen := Tab.set (fun _ => 0) s.time.portSeen p.idx (s.nowNs + 1) } } : State).notePort

theorem State.beaconSeen_keeps (s : State) (p : Port) : Keeps (.time :: .reg Reg.TIM_STAT :: logParts) s (s.beaconSeen p) :=
  .after (State.notePort_keeps _) (by decide) ((Keeps.upd_time s _).mono (by decide))

theorem State.beaconSeen_time {s : State} (c : s.canon) (p : Port) :
    (s.beaconSeen p).time = { s.time with portSeen := Tab.set (fun _ => 0) s.time.portSeen p.idx (s.nowNs + 1) } :=
  (State.notePort_keeps _).same ((Keeps.upd_time s _).canon c) .time (by decide)

theorem State.beaconSeen_port {s : State} (c : s.canon) {p : Port} (user : p ≠ .t) (up : (s.link p).lstate = .service)
    (mask : (s.fld Fld.TIM_CFG.PORTMASK).testBit p.idx = true)
    (only : uPorts.all (fun q => q == p || !((s.fld Fld.TIM_CFG.PORTMASK).testBit q.idx && (s.link q).lstate == .service)) = true) :
    (s.beaconSeen p).timePort = some p := by
  have seen := s.beaconSeen_keeps p
  have links : ∀ q, (s.beaconSeen p).link q = s.link q := fun q => seen.link c (by decide) q
  have masks : (s.beaconSeen p).fld Fld.TIM_CFG.PORTMASK = s.fld Fld.TIM_CFG.PORTMASK := seen.fld c (by decide)
  apply State.timePort_only (mem_uPorts user)
  · rw [masks, mask]
  · rw [links, up]
  · rw [masks]
    simp only [links, only]

section
variable {s : State} {p : Port} (c : s.canon) (user : p ≠ .t) (up : (s.link p).lstate = .service)
  {sync : Bool} {epoch : BitVec 16} {ns : BitVec 64}
include user up

theorem execTimeBeacon_reached (here : epoch.toNat = s.fld Fld.TIM_STAT.OFFSET_EPOCH) (port : (s.beaconSeen p).timePort = some p) :
    execTimeBeacon p sync epoch ns s = .next (if sync then
        match (s.beaconSeen p).time.syncFree.find? fun t => decide ((s.beaconSeen p).nowNs ≤ t + 1100000000) with
        | some t => ({ s.beaconSeen p with time := { (s.beaconSeen p).time with syncFree := (s.beaconSeen p).time.syncFree.erase t } } :
            State).applyBeacon ns.toNat t true
        | none => (s.beaconSeen p).bump Reg.TIM_BEACONIGN
      else (s.beaconSeen p).applyBeacon ns.toNat ((s.beaconSeen p).nowNs - 6) false) := by
  unfold execTimeBeacon
  rw [if_neg (by simp [isT_of_ne user, up]), if_neg (by simp [here])]
  dsimp only
  rw [if_neg (by simpa [State.beaconSeen] using port)]
  rfl

include c

/-- The time port's beacon, unpaired, is applied (R495). -/
theorem execTimeBeacon_unpaired (here : epoch.toNat = s.fld Fld.TIM_STAT.OFFSET_EPOCH)
    (mask : (s.fld Fld.TIM_CFG.PORTMASK).testBit p.idx = true)
    (only : uPorts.all (fun q => q == p || !((s.fld Fld.TIM_CFG.PORTMASK).testBit q.idx && (s.link q).lstate == .service)) = true)
    (alone : sync = false) : ∃ t, execTimeBeacon p sync epoch ns s = .next t ∧
      BeaconApplied ns.toNat (s.nowNs - 6) false s.time.syncFree s t := by
  have seen := s.beaconSeen_keeps p
  have time := State.beaconSeen_time c p
  have now : (s.beaconSeen p).nowNs = s.nowNs := by rw [State.nowNs, time, State.nowNs]
  have applied := State.applyBeacon_applied (seen.canon c) ns.toNat (s.nowNs - 6) false
  rw [time] at applied
  refine ⟨_, execTimeBeacon_reached user up here (State.beaconSeen_port c user up mask only), ?_⟩
  rw [alone, if_neg Bool.false_ne_true, now]
  exact applied.of_before seen c (by rw [time]) (by rw [time]) (by decide)

/-- The time port's beacon, paired with the newest edge that is free, is applied (R494, R495). -/
theorem execTimeBeacon_paired (here : epoch.toNat = s.fld Fld.TIM_STAT.OFFSET_EPOCH)
    (mask : (s.fld Fld.TIM_CFG.PORTMASK).testBit p.idx = true)
    (only : uPorts.all (fun q => q == p || !((s.fld Fld.TIM_CFG.PORTMASK).testBit q.idx && (s.link q).lstate == .service)) = true)
    (pairs : sync = true) {m : Nat} (edge : s.time.syncFree.find? (fun x => decide (s.nowNs ≤ x + 1100000000)) = some m) :
    ∃ t, execTimeBeacon p sync epoch ns s = .next t ∧ BeaconApplied ns.toNat m true (s.time.syncFree.erase m) s t := by
  have seen := s.beaconSeen_keeps p
  have time := State.beaconSeen_time c p
  have now : (s.beaconSeen p).nowNs = s.nowNs := by rw [State.nowNs, time, State.nowNs]
  have free : (s.beaconSeen p).time.syncFree = s.time.syncFree := by rw [time]
  have used : Keeps (.time :: .reg Reg.TIM_STAT :: logParts) s
      { s.beaconSeen p with time := { (s.beaconSeen p).time with syncFree := s.time.syncFree.erase m } } :=
    .after (Keeps.upd_time _ _) (by decide) seen
  have applied := State.applyBeacon_applied (used.canon c) ns.toNat m true
  refine ⟨_, execTimeBeacon_reached user up here (State.beaconSeen_port c user up mask only), ?_⟩
  rw [pairs, if_pos rfl, now, free, edge]
  dsimp only
  exact applied.of_before used c
    (by show (s.beaconSeen p).time.tb = _; rw [time]) (by show (s.beaconSeen p).time.offset = _; rw [time]) (by decide)

end

theorem execTimeBeacon_foreign {s : State} {p : Port} (h : p = .t ∨ (s.link p).lstate ≠ .service) (sync : Bool) (epoch : BitVec 16)
    (ns : BitVec 64) : execTimeBeacon p sync epoch ns s = .next s := by
  unfold execTimeBeacon
  rcases h with rfl | down
  · rfl
  · rw [if_pos (by simp [down])]

theorem execTimeBeacon_stale {s : State} {p : Port} (user : p ≠ .t) (up : (s.link p).lstate = .service) {epoch : BitVec 16}
    (other : epoch.toNat ≠ s.fld Fld.TIM_STAT.OFFSET_EPOCH) (sync : Bool) (ns : BitVec 64) :
    execTimeBeacon p sync epoch ns s = .next (s.bump Reg.TIM_BEACONIGN) := by
  unfold execTimeBeacon
  rw [if_neg (by simp [isT_of_ne user, up]), if_pos (by simpa using other)]

/-! ### Holdover and the sensors -/

/-- The change of the time port leaves the log to take another event (R493). -/
theorem State.notePort_takes {s : State} (on : s.top.aonOn = true) {code : BitVec 16} {n : Nat} (h : s.log.Takes code (n + 7))
    (ne : (0xC005 : BitVec 16) ≠ code) : s.notePort.log.Takes code n := by
  unfold State.notePort
  dsimp only
  split
  · exact h.mono (by omega)
  · exact State.capture_takes (s := s.setFld Fld.TIM_STAT.SRC _) on _ 0 h (by decide) (by decide) ne

/-- Holdover in force, with the slew ended (R498). -/
def State.holdoverBegun (s : State) : State := { s with time := { s.time with holdover := true, slew := 0 } }

theorem State.quality_of_holdover {s : State} (applied : s.time.prevApplied = true) (holds : s.time.holdover = true) :
    s.quality.toNat = if s.mgTicks = true then 4 else 5 := by
  rw [State.quality, if_neg (by simp [applied]), if_pos holds]
  split <;> rfl

/-- Holdover begins, and is told with the quality that it leaves (R497, R498). -/
theorem execHoldoverStart_begins {s : State} (c : s.canon) (on : s.top.aonOn = true) (applied : s.time.prevApplied = true)
    (idle : s.time.holdover = false) : ∃ t, execHoldoverStart s = .next t ∧ t.time = { s.time with holdover := true, slew := 0 } ∧
      (Attentive s → Logged 0xC002 (if s.mgTicks = true then 4 else 5) t) := by
  have cb : s.holdoverBegun.canon := (Keeps.upd_time s _).canon c
  have ported := s.holdoverBegun.notePort_keeps
  have cp := ported.canon cb
  have time : s.holdoverBegun.notePort.time = s.holdoverBegun.time := ported.same cb .time (by decide)
  have top : s.holdoverBegun.notePort.top = s.top := ported.same cb .top (by decide)
  have quality : s.holdoverBegun.quality.toNat = if s.mgTicks = true then 4 else 5 := State.quality_of_holdover applied rfl
  refine ⟨s.holdoverBegun.notePort.event 0xC002 s.holdoverBegun.quality.toNat,
    by rw [execHoldoverStart, if_pos (by simp [on, applied, idle])]; rfl, (State.event_time cp _ _).trans time, fun h => ?_⟩
  have roomy : s.holdoverBegun.log.Takes 0xC002 240 := h.takes 0xC002
  have room : s.holdoverBegun.notePort.log.Takes 0xC002 233 :=
    State.notePort_takes (s := s.holdoverBegun) (n := 233) on roomy (by decide)
  have on' : s.holdoverBegun.notePort.top.aonOn = true := by rw [top, on]
  have told := State.capture_start_taken on' cp (room.mono (Nat.zero_le _)) (i := 1) (by decide) (by decide) (by decide)
    (BitVec.ofNat 32 s.holdoverBegun.quality.toNat) 0
  have data : BitVec.ofNat 32 s.holdoverBegun.quality.toNat = if s.mgTicks = true then 4 else 5 := by
    rw [quality]
    split <;> rfl
  rw [← data]
  exact told

/-- The last edge is no glitch's neighbour: for any gap, so that no numeral is unfolded. -/
theorem none_before_gap {edge : Option Nat} {now gap : Nat} (late : edge.all (fun x => decide (x + gap ≤ now)) = true) :
    edge.any (fun t => decide (now < t + gap)) = false := by
  cases edge with
  | none => rfl
  | some x => simpa using late

theorem execSyncInEdge_taken {s : State} (on : s.top.aonOn = true) (enabled : s.flag Fld.TIM_CFG.SYNC_EN = true)
    (late : s.time.syncEdge.all (fun x => decide (x + 500000000 ≤ s.nowNs)) = true) : execSyncInEdge s =
      .next (({ s with time := { s.time with syncEdge := some s.nowNs, syncFree := (s.nowNs :: s.time.syncFree).take 3 } } :
        State).bump Reg.TIM_SYNCEDGES) := by
  have clean : s.time.syncEdge.any (fun t => decide (s.nowNs < t + 500000000)) = false := none_before_gap late
  rw [execSyncInEdge, if_neg (by simp [on, enabled]), if_neg (by simp [clean])]

/-- Settles O48: one equation for each command; an applied beacon is estimated, noted, steered and stamped. -/
theorem timeRuns : Obligations.TimeRuns := by
  unfold Obligations.TimeRuns
  intro s c
  refine ⟨?_, ?_, ?_, ?_, ?_, ?_, ?_, ?_, ?_, ?_, ?_, ?_, ?_, ?_⟩
  · intro p sync epoch ns user up here mask only alone _
    obtain ⟨t, run, effect⟩ := execTimeBeacon_unpaired c user up (ns := ns) here mask only alone
    exact Runs.intro (execTimeBeacon_keeps p sync epoch ns s) c run (by decide) effect
  · exact fun p sync epoch ns h => execTimeBeacon_foreign h sync epoch ns
  · intro p sync epoch ns m user up here mask only pairs edge _
    obtain ⟨t, run, effect⟩ := execTimeBeacon_paired c user up (ns := ns) here mask only pairs edge
    exact Runs.intro (execTimeBeacon_keeps p sync epoch ns s) c run (by decide) effect
  · intro p sync epoch ns user up other
    exact ⟨_, execTimeBeacon_stale user up other sync ns, ((State.bump_keeps s _ _) c).2, State.fld_bump s _ 1⟩
  · intro on applied idle
    obtain ⟨t, run, effect⟩ := execHoldoverStart_begins c on applied idle
    exact Runs.intro (execHoldoverStart_keeps s) c run (by decide) effect
  · intro h
    show execHoldoverStart s = _
    rw [execHoldoverStart, if_neg]
    rcases h with h | h | h <;> simp [h]
  · intro on enabled late
    exact Runs.intro (execSyncInEdge_keeps s) c (execSyncInEdge_taken on enabled late) (by decide)
      ⟨rfl, .bump_after (Keeps.upd_time s _) c (by decide)⟩
  · intro h
    show execSyncInEdge s = _
    rw [execSyncInEdge, if_pos]
    rcases h with h | h <;> simp [h]
  · intro on kept
    refine Runs.intro (t := { s with vbat := { s.vbat with tbHigh := s.time.tb >>> 52 } }) (execTimebaseBit20Change_keeps s) c ?_
      (by decide) rfl
    show execTimebaseBit20Change s = _
    rw [execTimebaseBit20Change, if_pos (by simp [on, kept])]
  · intro h
    show execTimebaseBit20Change s = _
    rw [execTimebaseBit20Change, if_neg]
    rcases h with h | h <;> simp [h]
  · intro sensor reading on hot good
    refine Runs.intro (execSensorOvertemp_keeps sensor reading s) c
      (t := s.event 0x0008 (sensor.val + (reading.toNat <<< 8))) ?_ (by decide) fun h => State.capture_logged h (by decide) _ 0
    show execSensorOvertemp sensor reading s = _
    rw [execSensorOvertemp, if_pos (by simp [on, hot, good])]
  · intro sensor reading h
    show execSensorOvertemp sensor reading s = _
    rw [execSensorOvertemp, if_neg]
    rcases h with h | h
    · simp [h]
    · simp [Nat.not_lt.2 h]
  · intro on
    refine Runs.intro (t := s.event 0x0009 0) (execSensorCool_keeps s) c ?_ (by decide) fun h =>
      State.capture_logged h (by decide) _ 0
    show execSensorCool s = _
    rw [execSensorCool, if_pos on]
  · intro off
    show execSensorCool s = _
    rw [execSensorCool, if_neg (by simp [off])]

end Sys2Proof.Machine
end

section
/-!
PLW_N, the gauge and holdup readiness (R429 to R433, R442, R443, R456).
-/

set_option Elab.async false

namespace Sys2Proof.Machine

/-! ### Single bits -/

/-- The other bits of a field stand when one is written. -/
theorem State.fldBit_setFldBit_other (s : State) (f : Fld) {i j : Nat} (b : Bool) (h : f.hi < 32) (ne : j ≠ i) :
    (s.setFldBit f i b).fldBit f j = s.fldBit f j := by
  have low : (s.fld f).testBit j = (decide (j < f.hi + 1 - f.lo) && (s.fld f).testBit j) := by
    rw [← Nat.testBit_mod_two_pow, Nat.mod_eq_of_lt (s.fld_lt f)]
  unfold State.setFldBit State.fldBit
  rw [State.fld_setFld _ _ _ h, Nat.testBit_mod_two_pow]
  split
  · exact low.symm
  · have apart : Nat.testBit (1 <<< i) j = false := by
      rw [Nat.one_shiftLeft]
      exact Nat.testBit_two_pow_of_ne (Ne.symm ne)
    rw [Nat.testBit_xor, apart, Bool.xor_false, ← low]

/-- The channels shown asserted are those whose bit is set. -/
theorem State.plwOn_contains (s : State) {k : Nat} (h : k < 2) : s.plwOn.contains k = s.fldBit Fld.PWR_FEEDSTAT.PLW k := by
  have range : k ∈ [0, 1] := by
    rw [List.mem_pair]
    omega
  rw [Bool.eq_iff_iff, List.contains_iff_mem, State.plwOn, List.mem_filter]
  exact ⟨fun m => m.2, fun m => ⟨range, m⟩⟩

theorem plwOther_lt (ch : Fin 2) : plwOther ch < 2 := by
  unfold plwOther
  omega

theorem plwOther_ne (ch : Fin 2) : plwOther ch ≠ ch.val := by
  unfold plwOther
  omega

/-! ### A trigger is detected (R432) -/

/-- Whether a trigger can be registered is read from the top level and from `PWR_HOLD`. -/
theorem Keeps.canTrigger {P : List Part} {s t : State} (k : Keeps P s t) (c : s.canon)
    (apart : ([.top, .reg Reg.PWR_HOLD].all fun q => !P.any (Part.covers · q)) = true) : t.canTrigger = s.canTrigger := by
  simp only [List.all_cons, List.all_nil, Bool.and_true, Bool.and_eq_true, Bool.not_eq_true'] at apart
  obtain ⟨top, hold⟩ := apart
  have sameTop : t.top = s.top := k.same c .top top
  rw [State.canTrigger, sameTop, k.flag c hold, State.canTrigger]

theorem State.detect_first {s : State} (can : s.canTrigger = true) (none : s.pwr.det = none) (code : BitVec 2) :
    s.detect code = { s with pwr := { s.pwr with det := some code, left := code == 2 } } := by
  rw [State.detect, if_pos can, none]

theorem State.detect_never {s : State} (can : s.canTrigger = false) (code : BitVec 2) : s.detect code = s := by
  rw [State.detect, if_neg (by simp [can])]

/-! ### PLW_N (R433) -/

/-- What follows from a channel newly shown asserted. -/
def State.plwJudged (s : State) (ch : Fin 2) : State :=
  if !s.flag Fld.PWR_PLWCFG.PLW_EN || s.pwr.plwIgn.contains ch.val then s
  else if s.pwr.plwTimer == some (plwOther ch) then ({ s with pwr := { s.pwr with plwTimer := Option.none } }).detect 1
  else if s.plwOn.contains (plwOther ch) && !s.pwr.plwIgn.contains (plwOther ch) then s
  else { s with pwr := { s.pwr with plwTimer := some ch.val } }

theorem State.plwJudged_keeps (s : State) (ch : Fin 2) : Keeps [.pwr] s (s.plwJudged ch) :=
  .ite (.refl _ s) (.ite (.after (State.detect_keeps _ 1) (by decide) (Keeps.upd_pwr s _)) (.ite (.refl _ s) (Keeps.upd_pwr s _)))

section
variable {s : State} {ch : Fin 2}

theorem State.plwJudged_disabled (off : s.flag Fld.PWR_PLWCFG.PLW_EN = false) : s.plwJudged ch = s := by
  rw [State.plwJudged, if_pos (by simp [off])]

/-- A channel alone starts the discrepancy timer. -/
theorem State.plwJudged_alone (en : s.flag Fld.PWR_PLWCFG.PLW_EN = true) (ign : s.pwr.plwIgn = []) (idle : s.pwr.plwTimer = none)
    (alone : s.fldBit Fld.PWR_FEEDSTAT.PLW (plwOther ch) = false) :
    (s.plwJudged ch).pwr = { s.pwr with plwTimer := some ch.val } := by
  rw [State.plwJudged, if_neg (by simp [en, ign]), if_neg (by simp [idle]),
    if_neg (by rw [s.plwOn_contains (plwOther_lt ch), alone, Bool.false_and]; decide)]

/-- Both channels are trigger 1. -/
theorem State.plwJudged_both (en : s.flag Fld.PWR_PLWCFG.PLW_EN = true) (ign : s.pwr.plwIgn = [])
    (timed : s.pwr.plwTimer = some (plwOther ch)) (can : s.canTrigger = true) (first : s.pwr.det = none) :
    (s.plwJudged ch).pwr = { s.pwr with plwTimer := none, det := some 1, left := false } := by
  have can' : ({ s with pwr := { s.pwr with plwTimer := Option.none } } : State).canTrigger = true := can
  rw [State.plwJudged, if_neg (by simp [en, ign]), if_pos (by simp [timed]), State.detect_first can' first]
  rfl

end

/-- What PLW_N_ASSERT leaves on a channel that was not shown. -/
theorem execPlwNAssert_shown {s : State} (c : s.canon) {ch : Fin 2} (on : s.top.aonOn = true)
    (new : s.fldBit Fld.PWR_FEEDSTAT.PLW ch.val = false) : ∃ t, execPlwNAssert ch s = .next t ∧
      t.fldBit Fld.PWR_FEEDSTAT.PLW ch.val = true ∧ (s.flag Fld.PWR_PLWCFG.PLW_EN = false → t.pwr = s.pwr) ∧
      (s.flag Fld.PWR_PLWCFG.PLW_EN = true → s.pwr.plwIgn = [] → s.pwr.plwTimer = none →
        s.fldBit Fld.PWR_FEEDSTAT.PLW (plwOther ch) = false → t.pwr = { s.pwr with plwTimer := some ch.val }) ∧
      (s.flag Fld.PWR_PLWCFG.PLW_EN = true → s.pwr.plwIgn = [] → s.pwr.plwTimer = some (plwOther ch) → s.canTrigger = true →
        s.pwr.det = none → t.pwr = { s.pwr with plwTimer := none, det := some 1, left := false }) := by
  have shown := State.setFldBit_keeps s Fld.PWR_FEEDSTAT.PLW ch.val true
  have bit : (s.setFldBit Fld.PWR_FEEDSTAT.PLW ch.val true).fldBit Fld.PWR_FEEDSTAT.PLW ch.val = true :=
    State.fldBit_setFldBit s _ _ _ (by decide) ch.isLt
  have other : (s.setFldBit Fld.PWR_FEEDSTAT.PLW ch.val true).fldBit Fld.PWR_FEEDSTAT.PLW (plwOther ch) =
      s.fldBit Fld.PWR_FEEDSTAT.PLW (plwOther ch) := State.fldBit_setFldBit_other s _ true (by decide) (plwOther_ne ch)
  have enabled : (s.setFldBit Fld.PWR_FEEDSTAT.PLW ch.val true).flag Fld.PWR_PLWCFG.PLW_EN = s.flag Fld.PWR_PLWCFG.PLW_EN :=
    shown.flag c (by decide)
  have can : (s.setFldBit Fld.PWR_FEEDSTAT.PLW ch.val true).canTrigger = s.canTrigger := shown.canTrigger c (by decide)
  refine ⟨(s.setFldBit Fld.PWR_FEEDSTAT.PLW ch.val true).plwJudged ch, ?_, ?_, fun off => ?_, fun en ign idle alone => ?_,
    fun en ign timed now none => ?_⟩
  · rw [execPlwNAssert, if_neg]
    · rfl
    · rw [s.plwOn_contains ch.isLt, new, on]
      decide
  · have kept := (State.plwJudged_keeps _ ch).fld (shown.canon c) (f := Fld.PWR_FEEDSTAT.PLW) (by decide)
    exact (congrArg (Nat.testBit · ch.val) kept).trans bit
  · rw [State.plwJudged_disabled (enabled.trans off)]
    rfl
  · exact State.plwJudged_alone (enabled.trans en) ign idle (other.trans alone)
  · exact State.plwJudged_both (enabled.trans en) ign timed (can.trans now) none

/-- The channel's bit and its ignore mark end with the release. -/
def State.plwCleared (s : State) (ch : Fin 2) : State :=
  let s := s.setFldBit Fld.PWR_FEEDSTAT.PLW ch.val false
  { s with pwr := { s.pwr with plwIgn := s.pwr.plwIgn.filter (· != ch.val) } }

theorem State.plwCleared_keeps (s : State) (ch : Fin 2) : Keeps [.pwr, .reg Reg.PWR_FEEDSTAT] s (s.plwCleared ch) :=
  .after (Keeps.upd_pwr _ _) (by decide) ((State.setFldBit_keeps s _ _ _).mono (by decide))

theorem State.plwCleared_bit (s : State) (ch : Fin 2) : (s.plwCleared ch).fldBit Fld.PWR_FEEDSTAT.PLW ch.val = false :=
  State.fldBit_setFldBit s Fld.PWR_FEEDSTAT.PLW ch.val false (by decide) ch.isLt

/-- What PLW_N_RELEASE leaves: a timer that ran ends, and is counted as a discrepancy. -/
theorem execPlwNRelease_cleared {s : State} (c : s.canon) (ch : Fin 2) (on : s.top.aonOn = true) :
    ∃ t, execPlwNRelease ch s = .next t ∧
      t.fldBit Fld.PWR_FEEDSTAT.PLW ch.val = false ∧ t.pwr.plwIgn = s.pwr.plwIgn.filter (· != ch.val) ∧
      (s.pwr.plwTimer = some ch.val → t.pwr.plwTimer = none ∧ Counted Reg.PWR_PLWDISC s t) ∧
      (s.pwr.plwTimer ≠ some ch.val → t.pwr.plwTimer = s.pwr.plwTimer ∧ t.reg Reg.PWR_PLWDISC = s.reg Reg.PWR_PLWDISC) := by
  have cleared := s.plwCleared_keeps ch
  have bit := s.plwCleared_bit ch
  by_cases runs : s.pwr.plwTimer = some ch.val
  · have ended : Keeps [.pwr, .reg Reg.PWR_FEEDSTAT] s
        { s.plwCleared ch with pwr := { (s.plwCleared ch).pwr with plwTimer := none } } := .after (Keeps.upd_pwr _ _) (by decide) cleared
    refine ⟨({ s.plwCleared ch with pwr := { (s.plwCleared ch).pwr with plwTimer := none } } : State).bump Reg.PWR_PLWDISC, ?_, ?_, rfl,
      fun _ => ⟨rfl, .bump_after ended c (by decide)⟩, fun idle => absurd runs idle⟩
    · rw [execPlwNRelease, if_neg (by simp [on])]
      exact congrArg Host.Outcome.next (if_pos (beq_iff_eq.2 runs))
    · have kept := (State.bump_keeps { s.plwCleared ch with pwr := { (s.plwCleared ch).pwr with plwTimer := none } }
        Reg.PWR_PLWDISC 1).fld (ended.canon c) (f := Fld.PWR_FEEDSTAT.PLW) (by decide)
      exact (congrArg (Nat.testBit · ch.val) kept).trans bit
  · refine ⟨s.plwCleared ch, ?_, bit, rfl, fun h => absurd h runs, fun _ => ⟨rfl, cleared.reg c (by decide)⟩⟩
    rw [execPlwNRelease, if_neg (by simp [on])]
    exact congrArg Host.Outcome.next (if_neg (by rw [beq_iff_eq]; exact runs))

/-- The discrepancy timer's end: counted, recorded and a trigger where one can be taken (R433, R456). -/
theorem execPlwDiscrepancyTimeout_ends {s : State} (c : s.canon) {ch : Nat} (timed : s.pwr.plwTimer = some ch) :
    ∃ t, execPlwDiscrepancyTimeout s = .next t ∧ t.pwr.plwTimer = none ∧ Counted Reg.PWR_PLWDISC s t ∧
      (s.canTrigger = true → s.pwr.det = none → t.pwr.det = some 3) ∧ (s.canTrigger = false → t.pwr.det = s.pwr.det) ∧
      (Attentive s → Logged 0xA024 (BitVec.ofNat 32 (ch + 2 * bitOf s.canTrigger)) t) := by
  let u : State := ({ s with pwr := { s.pwr with plwTimer := none } } : State).bump Reg.PWR_PLWDISC
  have counted : Keeps [.pwr, .reg Reg.PWR_PLWDISC] s u := .after (State.bump_keeps _ _ _) (by decide) ((Keeps.upd_pwr s _).mono (by decide))
  have can : u.canTrigger = s.canTrigger := counted.canTrigger c (by decide)
  have told := State.event_keeps u 0xA024 (ch + 2 * bitOf u.canTrigger)
  have cu := counted.canon c
  have ct := told.canon cu
  have pwr : (u.event 0xA024 (ch + 2 * bitOf u.canTrigger)).pwr = { s.pwr with plwTimer := none } := told.same cu .pwr (by decide)
  have can' : (u.event 0xA024 (ch + 2 * bitOf u.canTrigger)).canTrigger = s.canTrigger := (told.canTrigger cu (by decide)).trans can
  have found := State.detect_keeps (u.event 0xA024 (ch + 2 * bitOf u.canTrigger)) 3
  refine ⟨(u.event 0xA024 (ch + 2 * bitOf u.canTrigger)).detect 3, by rw [execPlwDiscrepancyTimeout, timed], ?_, ?_, fun now none => ?_,
    fun never => ?_, fun h => ?_⟩
  · cases now : s.canTrigger with
    | false => rw [State.detect_never (can'.trans now), pwr]
    | true =>
      unfold State.detect
      rw [if_pos (can'.trans now)]
      split <;> exact congrArg PwrSt.plwTimer pwr
  · exact (Counted.bump_after (Keeps.upd_pwr s _) c (by decide)).keeps (.after found (by decide) (told.mono (by decide))) cu
      (P := .pwr :: logParts) (by decide)
  · rw [State.detect_first (can'.trans now) (by rw [pwr]; exact none)]
  · rw [State.detect_never (can'.trans never), pwr]
  · have logged : Logged 0xA024 (BitVec.ofNat 32 (ch + 2 * bitOf u.canTrigger)) (u.event 0xA024 (ch + 2 * bitOf u.canTrigger)) :=
      State.capture_logged (h.keeps counted c (by decide)) (by decide) _ 0
    rw [can] at logged
    rw [can]
    exact logged.keeps (can ▸ found) (can ▸ ct) (by decide) (by decide)

/-! ### Holdup readiness (R430) -/

theorem State.notReady_le (s : State) (silent : Bool) : s.notReady silent ≤ 5 := by
  unfold State.notReady
  repeat' split
  all_goals decide

/-- An event of this tick is still to be written after work that holds the log and the time. -/
theorem Logged.held {u t : State} {code : BitVec 16} {data : Word} (h : Logged code data u) (holds : u.log.Holds t.log)
    (rd : u.log.rdLog ≤ u.log.ring.length) (time : t.time = u.time) : Logged code data t := by
  obtain ⟨e, mem, ec, ed, es⟩ := h
  obtain ⟨q, hq⟩ := (holds rd).2 e mem
  exact ⟨_, hq, ec, ed, by rw [State.stamp, State.nowNs, time]; exact es⟩

/-- Readiness as it is shown (R430). -/
def State.readyShown (s : State) (why : Nat) : State :=
  ((s.setFlag Fld.PWR_HOLD.READY (why == 0)).setFld Fld.PWR_HOLD.NOREADY why).setFld Fld.GLB_EVENT.HOLD 1

theorem State.setReady_eq (s : State) (why : Nat) :
    s.setReady why = ((s.readyShown why).event 0xA02C (bitOf (why == 0) + (why <<< 4))).settle := rfl

theorem State.readyShown_keeps (s : State) (why : Nat) : Keeps [.reg Reg.GLB_EVENT, .reg Reg.PWR_HOLD] s (s.readyShown why) :=
  .after (State.setFld_keeps _ _ _) (by decide) (.after (State.setFld_keeps _ _ _) (by decide)
    ((State.setFlag_keeps s _ _).mono (by decide)))

section
variable {s : State} (c : s.canon) {why : Nat} (h : why ≤ 5)
include c

theorem State.setReady_shows (g : Fld) (reg : g.addr = Reg.PWR_HOLD) : (s.setReady why).fld g = (s.readyShown why).fld g := by
  have told := (s.readyShown why).event_keeps 0xA02C (bitOf (why == 0) + (why <<< 4))
  have cr := (s.readyShown_keeps why).canon c
  rw [State.setReady_eq, (State.settle_keeps _).fld (told.canon cr) (by rw [reg]; decide), told.fld cr (by rw [reg]; decide)]

include h

/-- The failing condition is shown. -/
theorem State.setReady_noready : (s.setReady why).fld Fld.PWR_HOLD.NOREADY = why := by
  rw [State.setReady_shows c _ rfl, State.readyShown, State.fld_setFld_other _ _ (by decide), State.fld_setFld _ _ _ (by decide)]
  exact Nat.mod_eq_of_lt (by show why < 16; omega)

omit h in
theorem State.setReady_ready : (s.setReady why).flag Fld.PWR_HOLD.READY = decide (why = 0) := by
  rw [State.flag, State.setReady_shows c _ rfl, State.readyShown, State.fld_setFld_other _ _ (by decide),
    State.fld_setFld_disjoint (f := Fld.PWR_HOLD.NOREADY) (g := Fld.PWR_HOLD.READY) _ _ rfl (by decide)]
  exact (State.flag_setFlag s Fld.PWR_HOLD.READY _ (by decide) (by decide)).trans (beq_eq_decide _ _)

omit h in
/-- The change is recorded. -/
theorem State.setReady_logged (attentive : Attentive s) :
    Logged 0xA02C (BitVec.ofNat 32 (bitOf (why == 0) + (why <<< 4))) (s.setReady why) := by
  have shown := s.readyShown_keeps why
  have ready := attentive.keeps shown c (by decide)
  have told := (s.readyShown why).event_keeps 0xA02C (bitOf (why == 0) + (why <<< 4))
  have ct := told.canon (shown.canon c)
  have logged : Logged 0xA02C _ ((s.readyShown why).event 0xA02C (bitOf (why == 0) + (why <<< 4))) :=
    State.capture_logged ready (by decide) _ 0
  obtain ⟨-, -, -, rd, -⟩ := ready
  obtain ⟨-, -, holds⟩ := State.settle_steady _ ct
  exact logged.held holds (State.capture_holds _ _ _ _ rd).1 ((State.settle_keeps _).same ct .time (by decide))

end

/-- What a judgement of readiness leaves (R430). -/
def ReadyJudged (why : Nat) (s t : State) : Prop :=
  t.fld Fld.PWR_HOLD.NOREADY = (if why = 0 ∧ s.flag Fld.PWR_HOLD.READY = true then s.fld Fld.PWR_HOLD.NOREADY else why) ∧
    t.flag Fld.PWR_HOLD.READY = decide (why = 0) ∧
    (Attentive s → s.flag Fld.PWR_HOLD.READY ≠ decide (why = 0) →
      Logged 0xA02C (BitVec.ofNat 32 (bitOf (why == 0) + (why <<< 4))) t)

theorem execHoldupReadyChange_judges {s : State} (c : s.canon) (silent : Bool) (on : s.top.aonOn = true) :
    ∃ t, execHoldupReadyChange silent s = .next t ∧ ReadyJudged (s.notReady silent) s t := by
  have bound := s.notReady_le silent
  unfold execHoldupReadyChange State.judgeReady ReadyJudged
  rw [if_neg (by simp [on])]
  generalize s.notReady silent = why at bound
  dsimp only
  rcases Nat.eq_zero_or_pos why with rfl | fails
  · rw [if_pos rfl]
    cases ready : s.flag Fld.PWR_HOLD.READY with
    | true => exact ⟨s, congrArg _ (if_pos rfl), by simp, by simp [ready], fun _ h => absurd rfl h⟩
    | false => exact ⟨s.setReady 0, congrArg _ (if_neg Bool.false_ne_true), by rw [State.setReady_noready c bound]; simp, State.setReady_ready c,
        fun h _ => State.setReady_logged c h⟩
  · rw [if_neg (by omega), if_neg (by omega)]
    cases ready : s.flag Fld.PWR_HOLD.READY with
    | true => exact ⟨s.setReady why, congrArg _ (if_pos rfl), by rw [State.setReady_noready c bound, if_neg (by omega)], State.setReady_ready c,
        fun h _ => State.setReady_logged c h⟩
    | false =>
      refine ⟨s.setFld Fld.PWR_HOLD.NOREADY why, congrArg _ (if_neg Bool.false_ne_true), ?_, ?_,
        fun _ h => absurd (decide_eq_false (by omega)).symm h⟩
      · rw [State.fld_setFld _ _ _ (by decide), if_neg (by omega)]
        exact Nat.mod_eq_of_lt (by show why < 16; omega)
      · rw [State.flag, State.fld_setFld_disjoint (f := Fld.PWR_HOLD.NOREADY) (g := Fld.PWR_HOLD.READY) _ _ rfl (by decide)]
        exact ready.trans (decide_eq_false (by omega)).symm

/-! ### The gauge (R429) -/

/-- A good read's values are shown. -/
def State.gaugeShown (s : State) (g : GaugeRead) : State :=
  ((((s.setFld Fld.PWR_GAUGE.REMAIN g.remain.toNat).setFld Fld.PWR_GAUGE.FULL g.full.toNat).setFld
    Fld.PWR_GAUGEVS.VOLT g.volt.toNat).setFld Fld.PWR_GAUGEVS.STATUS g.status.toNat).setFld Fld.PWR_GAUGECUR.CURRENT g.current.toNat

/-- A good read is kept, with its time. -/
def State.gaugeKept (s : State) (g : GaugeRead) : State :=
  { s.gaugeShown g with pwr := { s.pwr with
      gaugeAt := some s.time.elapsed, mah := some (s.pwr.mah.getD g.mah), remainZero := g.remain == 0 } }

theorem State.gaugeKept_fld (s : State) (g : GaugeRead) : (s.gaugeKept g).fld Fld.PWR_GAUGE.REMAIN = g.remain.toNat ∧
    (s.gaugeKept g).fld Fld.PWR_GAUGE.FULL = g.full.toNat ∧ (s.gaugeKept g).fld Fld.PWR_GAUGEVS.VOLT = g.volt.toNat ∧
    (s.gaugeKept g).fld Fld.PWR_GAUGEVS.STATUS = g.status.toNat ∧ (s.gaugeKept g).fld Fld.PWR_GAUGECUR.CURRENT = g.current.toNat := by
  have fits : ∀ v : BitVec 16, v.toNat % 2 ^ 16 = v.toNat := fun v => Nat.mod_eq_of_lt v.isLt
  have shown : ∀ f : Fld, (s.gaugeKept g).fld f = (s.gaugeShown g).fld f := fun _ => rfl
  simp only [shown, State.gaugeShown]
  refine ⟨?_, ?_, ?_, ?_, ?_⟩
  · rw [State.fld_setFld_other _ _ (by decide), State.fld_setFld_other _ _ (by decide),
      State.fld_setFld_other _ _ (by decide), State.fld_setFld_disjoint (f := Fld.PWR_GAUGE.FULL) (g := Fld.PWR_GAUGE.REMAIN) _ _ rfl
        (by decide), State.fld_setFld _ _ _ (by decide)]
    exact fits _
  · rw [State.fld_setFld_other _ _ (by decide), State.fld_setFld_other _ _ (by decide),
      State.fld_setFld_other _ _ (by decide), State.fld_setFld _ _ _ (by decide)]
    exact fits _
  · rw [State.fld_setFld_other _ _ (by decide),
      State.fld_setFld_disjoint (f := Fld.PWR_GAUGEVS.STATUS) (g := Fld.PWR_GAUGEVS.VOLT) _ _ rfl (by decide),
      State.fld_setFld _ _ _ (by decide)]
    exact fits _
  · rw [State.fld_setFld_other _ _ (by decide), State.fld_setFld _ _ _ (by decide)]
    exact fits _
  · rw [State.fld_setFld _ _ _ (by decide)]
    exact fits _

/-- A disagreement noted in `CALM` leaves the read as it was kept (R442). -/
def State.gaugeWeighed (s : State) (g : GaugeRead) : State :=
  if s.inCalm && (g.remain == 0 || g.status.getLsbD 4) &&
    decide (s.fld Fld.PWR_BBUWIN.CUT + s.fld Fld.PWR_BBUCFG.MARGIN < s.fld Fld.PWR_VBBURD.READING) then s.disagree else s

theorem State.disagree_pwr (s : State) : s.disagree.pwr.gaugeAt = s.pwr.gaugeAt ∧ s.disagree.pwr.remainZero = s.pwr.remainZero ∧
    s.disagree.pwr.recal = s.pwr.recal := by
  unfold State.disagree
  split <;> exact ⟨rfl, rfl, rfl⟩

theorem State.gaugeWeighed_pwr (s : State) (g : GaugeRead) : (s.gaugeWeighed g).pwr.gaugeAt = s.pwr.gaugeAt ∧
    (s.gaugeWeighed g).pwr.remainZero = s.pwr.remainZero ∧ (s.gaugeWeighed g).pwr.recal = s.pwr.recal := by
  unfold State.gaugeWeighed
  split
  · exact s.disagree_pwr
  · exact ⟨rfl, rfl, rfl⟩

theorem State.gaugeWeighed_keeps (s : State) (g : GaugeRead) : Keeps [.pwr] s (s.gaugeWeighed g) :=
  .ite (s.disagree_keeps.mono (by decide)) (.refl _ s)

/-- Nothing is recalibrated where it is not due (R442). -/
theorem State.recalibrate_idle {s : State} (h : s.pwr.recal = false) : s.recalibrate = s := by
  rw [State.recalibrate, if_neg (by simp [h])]

/-- What GAUGE_POLL leaves after a good read. -/
theorem execGaugePoll_good {s : State} (c : s.canon) (on : s.top.aonOn = true) (calibrated : s.pwr.recal = false) (g : GaugeRead) :
    ∃ t, execGaugePoll (some g) s = .next t ∧ t.fld Fld.PWR_GAUGE.REMAIN = g.remain.toNat ∧
      t.fld Fld.PWR_GAUGE.FULL = g.full.toNat ∧ t.fld Fld.PWR_GAUGEVS.VOLT = g.volt.toNat ∧
      t.fld Fld.PWR_GAUGEVS.STATUS = g.status.toNat ∧ t.fld Fld.PWR_GAUGECUR.CURRENT = g.current.toNat ∧
      t.pwr.gaugeAt = some s.time.elapsed ∧ t.pwr.remainZero = (g.remain == 0) := by
  have kept : Keeps [.pwr, .reg Reg.PWR_GAUGE, .reg Reg.PWR_GAUGEVS, .reg Reg.PWR_GAUGECUR] s (s.gaugeKept g) := by
    refine .after (Keeps.upd_pwr (s.gaugeShown g) _) (by decide) ?_
    exact .after (State.setFld_keeps _ _ _) (by decide) (.after (State.setFld_keeps _ _ _) (by decide)
      (.after (State.setFld_keeps _ _ _) (by decide) (.after (State.setFld_keeps _ _ _) (by decide)
        ((State.setFld_keeps s _ _).mono (by decide)))))
  have weighed := (s.gaugeKept g).gaugeWeighed_keeps g
  obtain ⟨at', zero, recal⟩ := (s.gaugeKept g).gaugeWeighed_pwr g
  have cw := weighed.canon (kept.canon c)
  have judged := State.judgeReady_keeps ((s.gaugeKept g).gaugeWeighed g) false
  have pwr : (((s.gaugeKept g).gaugeWeighed g).judgeReady false).pwr = ((s.gaugeKept g).gaugeWeighed g).pwr :=
    judged.same cw .pwr (by decide)
  obtain ⟨remain, full, volt, status, current⟩ := s.gaugeKept_fld g
  have after : ∀ f : Fld, [Reg.PWR_GAUGE, Reg.PWR_GAUGEVS, Reg.PWR_GAUGECUR].contains f.addr = true →
      (((s.gaugeKept g).gaugeWeighed g).judgeReady false).fld f = (s.gaugeKept g).fld f := fun f mem => by
    have apart : (State.judgeReady_parts.any (Part.covers · (.reg f.addr)) = false) ∧
        ([Part.pwr].any (Part.covers · (.reg f.addr)) = false) := by
      simp only [List.contains_cons, List.contains_nil, Bool.or_false, Bool.or_eq_true, beq_iff_eq] at mem
      rcases mem with e | e | e <;> rw [e] <;> decide
    rw [judged.fld cw apart.1, weighed.fld (kept.canon c) apart.2]
  refine ⟨((s.gaugeKept g).gaugeWeighed g).judgeReady false, ?_, (after _ rfl).trans remain, (after _ rfl).trans full,
    (after _ rfl).trans volt, (after _ rfl).trans status, (after _ rfl).trans current, ?_, ?_⟩
  · have idle := State.recalibrate_idle (recal.trans calibrated)
    rw [execGaugePoll, if_neg (by simp [on])]
    exact congrArg (fun u : State => Host.Outcome.next (u.judgeReady false)) idle
  · rw [pwr, at']
    rfl
  · rw [pwr, zero]
    rfl

/-- Settles O16: PLW_N through the judgement of a channel newly shown, the gauge and readiness through what each leaves. -/
theorem plwAndHoldRun : Obligations.PlwAndHoldRun := by
  unfold Obligations.PlwAndHoldRun
  intro s c
  refine ⟨?_, ?_, ?_, ?_, ?_, ?_, ?_, ?_, ?_, ?_, ?_, ?_⟩
  · intro ch on new
    obtain ⟨t, run, effect⟩ := execPlwNAssert_shown c on new
    exact Runs.intro (execPlwNAssert_keeps ch s) c run (by decide) effect
  · intro ch off
    show execPlwNAssert ch s = _
    rw [execPlwNAssert, if_pos (by simp [off])]
  · intro ch on
    obtain ⟨t, run, effect⟩ := execPlwNRelease_cleared c ch on
    exact Runs.intro (execPlwNRelease_keeps ch s) c run (by decide) effect
  · intro ch off
    show execPlwNRelease ch s = _
    rw [execPlwNRelease, if_pos (by simp [off])]
  · intro ch timed
    obtain ⟨t, run, effect⟩ := execPlwDiscrepancyTimeout_ends c timed
    exact Runs.intro (execPlwDiscrepancyTimeout_keeps s) c run (by decide) effect
  · intro idle
    show execPlwDiscrepancyTimeout s = _
    rw [execPlwDiscrepancyTimeout, idle]
  · intro found g on calibrated good
    obtain ⟨t, run, effect⟩ := execGaugePoll_good c on calibrated g
    rw [good]
    exact Runs.intro (execGaugePoll_keeps (some g) s) c run (by decide) effect
  · intro found off
    show execGaugePoll found s = _
    unfold execGaugePoll
    rw [if_pos (by simp [off])]
  · intro silent on
    obtain ⟨t, run, effect⟩ := execHoldupReadyChange_judges c silent on
    exact Runs.intro (execHoldupReadyChange_keeps silent s) c run (by decide) effect
  · intro silent off
    show execHoldupReadyChange silent s = _
    rw [execHoldupReadyChange, if_pos (by simp [off])]
  · intro low
    refine Runs.intro (t := ({ s with pwr := { s.pwr with holdLow := false } } : State).setFld Fld.PWR_HOLD.HOLD_EN 0)
      (execHoldEnLow_keeps s) c ?_ (by decide) ⟨?_, rfl⟩
    · show execHoldEnLow s = _
      rw [execHoldEnLow, if_pos low]
    · rw [State.flag, State.fld_setFld _ _ _ (by decide)]
      rfl
  · intro high
    show execHoldEnLow s = _
    rw [execHoldEnLow, if_neg (by simp [high])]

end Sys2Proof.Machine
end

section
/-!
What work on one sub-channel leaves of another: its queues may fill, but its holds, its refresh and its pins stand, and so does its
training (R30, R239, R260, R275).
-/

set_option Elab.async false

namespace Sys2Proof.Machine

/-! ### The relation -/

/-- A sub-channel but for its queues. -/
def SubCh.lasting (c : SubCh) : SubCh := { c with intake := [], store := [], maint := [] }

/-- From `s` to `t` sub-channel `n` stands but for its queues, and so does its training. -/
def Undisturbed (n : Nat) (s t : State) : Prop :=
  s.canon → t.canon ∧ (t.sub n).lasting = (s.sub n).lasting ∧ t.training n = s.training n

section
variable {n : Nat}

theorem Undisturbed.refl (s : State) : Undisturbed n s s := fun c => ⟨c, rfl, rfl⟩

theorem Undisturbed.trans {a b c : State} (h : Undisturbed n a b) (k : Undisturbed n b c) : Undisturbed n a c := fun ca => by
  obtain ⟨cb, sub, train⟩ := h ca
  obtain ⟨cc, sub', train'⟩ := k cb
  exact ⟨cc, sub'.trans sub, train'.trans train⟩

/-- One more operation at the end of a run of them. -/
theorem Undisturbed.via {a b c : State} (k : Undisturbed n b c) (h : Undisturbed n a b) : Undisturbed n a c := h.trans k

theorem Undisturbed.ite {p : Prop} [Decidable p] {a x y : State} (h : Undisturbed n a x) (k : Undisturbed n a y) :
    Undisturbed n a (if p then x else y) := by
  split <;> assumption

theorem Undisturbed.foldS {α : Type} (l : List α) (f : State → α → State) (h : ∀ t x, Undisturbed n t (f t x)) (s : State) :
    Undisturbed n s (foldS l f s) := by
  induction l generalizing s with
  | nil => exact .refl s
  | cons x r ih => exact (h s x).trans (ih _)

/-- An operation in whose frame neither the sub-channels nor Breeze lie. -/
theorem Undisturbed.apart {P : List Part} {s t : State} (k : Keeps P s t)
    (h : (P.any (Part.covers · .sch) || P.any (Part.covers · .cal)) = false) : Undisturbed n s t := fun c => by
  rw [Bool.or_eq_false_iff] at h
  have sch : t.sch = s.sch := k.same c .sch h.1
  have cal : t.cal = s.cal := k.same c .cal h.2
  exact ⟨k.canon c, by rw [State.sub, sch, State.sub], by rw [State.training, cal, State.training]⟩

/-- A change of what Breeze holds beside the training. -/
theorem Undisturbed.breeze {P : List Part} {s t : State} (k : Keeps P s t) (sch : t.sch = s.sch) (train : t.cal.train = s.cal.train) :
    Undisturbed n s t := fun c => ⟨k.canon c, by rw [State.sub, sch, State.sub], by rw [State.training, train, State.training]⟩

/-- Work on another sub-channel. -/
theorem State.onSub_undisturbed (s : State) {m : Nat} (h : n ≠ m) (f : SubCh → SubCh) : Undisturbed n s (s.onSub m f) := fun c =>
  ⟨(State.onSub_keeps s m f).canon c, congrArg SubCh.lasting (s.sub_setSub_other _ h), rfl⟩

/-- Work on the queues of any sub-channel. -/
theorem State.onSub_queues (s : State) (m : Nat) {f : SubCh → SubCh} (h : ∀ c, (f c).lasting = c.lasting) :
    Undisturbed n s (s.onSub m f) := by
  by_cases e : n = m
  · subst e
    refine fun c => ⟨(State.onSub_keeps s n f).canon c, ?_, rfl⟩
    rw [State.onSub, State.sub_setSub]
    exact h _
  · exact s.onSub_undisturbed e f

/-! ### The way to Schedule (R31, R239) -/

theorem State.dispatchOne_undisturbed (s : State) (m : Nat) {t : State} (h : s.dispatchOne m = some t) : Undisturbed n s t := by
  unfold State.dispatchOne at h
  split at h
  · exact nomatch h
  · split at h
    · obtain rfl := Option.some.inj h
      refine .via (State.onSub_queues _ m fun _ => rfl) (.via (.apart (Keeps.upd_ord _ _) rfl) ?_)
      exact .apart (State.onEntry_keeps s _ _) rfl
    · exact nomatch h

theorem State.dispatchSome_undisturbed (m k : Nat) (s : State) : Undisturbed n s (State.dispatchSome m k s) := by
  induction k generalizing s with
  | zero => exact .refl s
  | succ k ih =>
    rw [State.dispatchSome]
    split
    · next h => exact (s.dispatchOne_undisturbed m h).trans (ih _)
    · exact .refl s

theorem State.toSchedule_undisturbed (s : State) (i : Nat) : Undisturbed n s (s.toSchedule i) := by
  unfold State.toSchedule
  split
  · exact .via (State.dispatchSome_undisturbed _ _ _) (.apart (Keeps.upd_ord _ _) rfl)
  · exact .refl s

/-! ### Merges and forwarded reads (R133, R134) -/

/-- A change of every sub-channel that leaves the sub-channel of no record alone. -/
theorem Tab.get_map {α : Type} (d : α) {f : α → α} (h : f d = d) (t : Tab α) (k : Nat) :
    Tab.get (fun _ => d) (t.map fun q => (q.1, f q.2)) k = f (Tab.get (fun _ => d) t k) := by
  induction t with
  | nil => exact h.symm
  | cons q r ih =>
    obtain ⟨j, v⟩ := q
    rw [List.map_cons, Tab.get, Tab.get]
    split
    · rfl
    · exact ih

/-- Work on the queues of every sub-channel. -/
theorem State.mapSubs_undisturbed (s : State) {f : SubCh → SubCh} (none : f {} = {}) (h : ∀ c, (f c).lasting = c.lasting) :
    Undisturbed n s { s with sch := s.sch.map fun q => (q.1, f q.2) } := fun c =>
  ⟨(Keeps.upd_sch s _).canon c, (congrArg SubCh.lasting (Tab.get_map _ none s.sch n)).trans (h _), rfl⟩

/-- What waits on the merge of pool entry `i` is a plain write once it is merged (R134). -/
def SubCh.merged (i : Nat) (c : SubCh) : SubCh :=
  { c with
    store := c.store.map fun x => if x.pool == some i then { x with kind := .write } else x,
    maint := c.maint.map fun x => if x.pool == some i then { x with kind := .write } else x }

theorem State.mergeInto_undisturbed (s : State) (i : Nat) (old : Line) (k : PoisonKind) : Undisturbed n s (s.mergeInto i old k) := by
  unfold State.mergeInto
  split
  · refine .via (State.mapSubs_undisturbed (f := SubCh.merged i) _ rfl fun _ => rfl) (.via (.apart (State.setEntry_keeps _ _ _) rfl) ?_)
    exact .ite (.apart (State.sealFail_keeps s _ _ _ _) rfl) (.refl s)
  · exact .refl s

theorem State.damaged_undisturbed (s : State) (i : Nat) (e : PoolEntry) (line : Line) : Undisturbed n s (s.damaged i e line) := by
  unfold State.damaged
  split
  · exact .apart (State.answerTwin_keeps s _ _ _ _) rfl
  · refine .ite ((Undisturbed.apart (State.onEntry_keeps s _ _) rfl).trans (.apart (State.giveTag_keeps _ _) rfl)) (.ite ?_ ?_)
    · exact s.mergeInto_undisturbed _ _ _
    · exact .apart (State.readData_keeps s _ _ _ _ _) rfl

theorem State.served_undisturbed (s : State) (i : Nat) (line : Line) (k : PoisonKind) (corr : Nat) :
    Undisturbed n s (s.served i line k corr) := by
  unfold State.served
  split
  · refine .ite (.apart (State.agentServed_keeps s _ _ _ _) rfl) ?_
    split
    · exact s.damaged_undisturbed _ _ _
    · split
      · exact .apart (State.answerTwin_keeps s _ _ _ _) rfl
      · exact .apart (State.readData_keeps s _ _ _ _ _) rfl
      · exact .ite (s.mergeInto_undisturbed _ _ _) (.refl s)
  · exact .refl s

theorem State.forward_undisturbed (s : State) (i j : Nat) : Undisturbed n s (s.forward i j) := by
  unfold State.forward
  split
  · exact .via (State.served_undisturbed _ _ _ _ _) (.via (.apart (State.bump_keeps _ _ _) rfl) (.apart (State.checkSeal_keeps s _ _) rfl))
  · exact .refl s

theorem State.lookForLine_undisturbed (s : State) (i : Nat) : Undisturbed n s (s.lookForLine i).1 := by
  unfold State.lookForLine
  split
  · split
    · split
      · split
        · exact (Undisturbed.apart (State.onEntry_keeps s _ _) rfl).trans (.apart (State.bump_keeps _ _ _) rfl)
        · exact s.forward_undisturbed _ _
      · exact .refl s
    · exact .refl s
  · exact .refl s

/-! ### The agents' requests (R36, R161) -/

theorem State.startWrite_undisturbed (s : State) (i : Nat) (forked : Bool) : Undisturbed n s (s.startWrite i forked) := by
  unfold State.startWrite
  split
  · refine .trans (.ite (s.lookForLine_undisturbed i) (.ite ?_ (.refl s))) (.ite (.refl _) (State.toSchedule_undisturbed _ _))
    exact .apart (State.bump_keeps s _ _) rfl
  · exact .refl s

theorem State.startAgent_undisturbed (s : State) (i : Nat) : Undisturbed n s (s.startAgent i) := by
  unfold State.startAgent
  split
  · refine .ite (s.startWrite_undisturbed i false) ?_
    exact (s.lookForLine_undisturbed i).trans (.ite (State.toSchedule_undisturbed _ _) (.refl _))
  · exact .refl s

theorem State.pumpAgents_undisturbed (k : Nat) (s : State) : Undisturbed n s (State.pumpAgents k s) := by
  induction k generalizing s with
  | zero => exact .refl s
  | succ k ih =>
    rw [State.pumpAgents]
    split
    · exact .refl s
    · exact .ite (.via (ih _) (.via (State.startAgent_undisturbed _ _)
        (.via (.apart (Keeps.upd_ord _ _) rfl) (.apart (State.setEntry_keeps s _ _) rfl)))) (.refl s)

theorem State.reserveWrite_undisturbed (s : State) (off : Nat) (line : Line) : Undisturbed n s (s.reserveWrite off line) := by
  unfold State.reserveWrite State.agentAsk
  exact .ite (.refl s) (.via (State.pumpAgents_undisturbed _ _) (.apart (Keeps.upd_ord s _) rfl))

/-! ### Calibration runs (R307, R310) -/

theorem State.writeCal_undisturbed (s : State) (p : Nat) : Undisturbed n s (s.writeCal p) := by
  unfold State.writeCal
  refine .ite (.refl s) ?_
  exact .via (.foldS _ _ (fun t i => t.reserveWrite_undisturbed _ _) _) (.breeze (State.setLive_keeps s p _) rfl rfl)

theorem State.makeDue_train (s : State) (m : Nat) : (s.makeDue m).sch = s.sch ∧ (s.makeDue m).cal.train = s.cal.train := by
  unfold State.makeDue
  repeat' split
  all_goals exact ⟨rfl, rfl⟩

theorem State.pendToDue_undisturbed (s : State) (m : Nat) : Undisturbed n s (s.pendToDue m) := by
  have kept : (s.pendToDue m).sch = s.sch ∧ (s.pendToDue m).cal.train = s.cal.train := by
    unfold State.pendToDue
    split
    · exact State.makeDue_train _ m
    · exact ⟨rfl, rfl⟩
  exact .breeze (State.pendToDue_keeps s m) kept.1 kept.2

theorem State.abandonCal_undisturbed (s : State) (p row : Nat) : Undisturbed n s (s.abandonCal p row) := by
  unfold State.abandonCal
  split
  · refine .via (State.pendToDue_undisturbed _ _) (.via (.apart (State.event_keeps _ _ _) rfl) (.trans (b :=
      ((s.setRun p Option.none).writeCal p).bump Reg.CAL_ABANDONED) ?_ (.ite (.apart (State.endDir_keeps _ _) rfl) (.refl _))))
    exact .via (.apart (State.bump_keeps _ _ _) rfl) (.via (State.writeCal_undisturbed _ _) (.breeze (State.setRun_keeps s p _) rfl rfl))
  · exact .refl s

theorem State.abandonSub_undisturbed (s : State) (m row : Nat) : Undisturbed n s (s.abandonSub m row) :=
  (s.abandonCal_undisturbed _ row).trans (State.abandonCal_undisturbed _ _ row)

/-! ### The ranks of another sub-channel wake (R244, R260, R276, R284) -/

theorem State.writeSettings_undisturbed (s : State) {m : Nat} (h : n ≠ m) (t : Nat) : Undisturbed n s (s.writeSettings m t) :=
  s.onSub_undisturbed h _

theorem State.issue_undisturbed (s : State) {m : Nat} (h : n ≠ m) (k : CmdKind) (l : Loc) (auto : Bool) (ck : Nat) :
    Undisturbed n s (s.issue m k l auto ck) := s.onSub_undisturbed h _

theorem State.wakeSub_undisturbed (s : State) {m : Nat} (h : n ≠ m) : Undisturbed n s (s.wakeSub m) := by
  unfold State.wakeSub
  exact .via (State.onSub_undisturbed _ h _) (.foldS _ _ (fun t _ => t.issue_undisturbed h _ _ _ _) s)

theorem State.setTraining_undisturbed (s : State) {m : Nat} (h : n ≠ m) (t : TrainRun) : Undisturbed n s (s.setTraining m t) := fun c =>
  ⟨(State.setTraining_keeps s m t).canon c, rfl, s.training_setTraining_other t h⟩

theorem State.endSub_undisturbed (s : State) {m : Nat} (h : n ≠ m) : Undisturbed n s (s.endSub m) := by
  unfold State.endSub
  refine .via (.foldS _ _ (fun t k => t.writeCal_undisturbed _) _) (.via (State.setTraining_undisturbed _ h _) ?_)
  exact .via (.apart (State.worst_keeps _ _) rfl) (.via (State.onSub_undisturbed _ h _)
    (.via (.apart (State.satF_keeps _ _ _) rfl) (.apart (State.setFld_keeps s _ _) rfl)))

theorem State.nextRank_undisturbed (s : State) {m : Nat} (h : n ≠ m) (after : List Nat) : Undisturbed n s (s.nextRank m after) := by
  unfold State.nextRank
  dsimp only
  split
  · exact s.endSub_undisturbed h
  · next k _ _ =>
    have path : ∀ v, Undisturbed n s (s.setFld (pathFld m k) v) := fun v => .apart (State.setFld_keeps s _ v) rfl
    split
    · exact .via (State.setTraining_undisturbed _ h _) (.via (.apart (State.setFld_keeps _ _ _) rfl) (path _))
    · exact .via (State.setTraining_undisturbed _ h _) (.via (.apart (State.newRecord_keeps _ _) rfl) (path _))

theorem State.wakeRestored_undisturbed (s : State) {m : Nat} (h : n ≠ m) : Undisturbed n s (s.wakeRestored m) := by
  unfold State.wakeRestored State.calibrateZq
  refine .via (.foldS _ _ (fun t k => .via (State.issue_undisturbed _ h _ _ _ _) (State.issue_undisturbed _ h _ _ _ _)) _) ?_
  refine .ite ?_ (.via (State.writeSettings_undisturbed _ h _) ?_) <;>
    exact .via (State.onSub_undisturbed _ h _) (.foldS _ _ (fun t k => t.issue_undisturbed h _ _ _ _) s)

theorem State.restoreSub_undisturbed (s : State) {m : Nat} (h : n ≠ m) : Undisturbed n s (s.restoreSub m) :=
  .via (State.nextRank_undisturbed _ h _) (s.wakeRestored_undisturbed h)

theorem State.wakeUp_undisturbed (s : State) {m : Nat} (h : n ≠ m) : Undisturbed n s (s.wakeUp m) :=
  .ite (s.restoreSub_undisturbed h) (.via (State.writeSettings_undisturbed _ h _) (s.wakeSub_undisturbed h))

end

end Sys2Proof.Machine
end

section
/-!
Sub-channels one after another, and the registers that a Lull writes for each of them (R380, R384, R387).
-/

set_option Elab.async false

namespace Sys2Proof.Machine

/-! ### One sub-channel after another -/

/-- What one round of a run over sub-channels brings about for `n`, and the rounds of others leave, stands at its end. -/
theorem foldS_reaches {l : List Nat} {n : Nat} (mem : n ∈ l) {f : State → Nat → State} {I Q : State → Prop}
    (keep : ∀ t m, I t → I (f t m)) (set : ∀ t, I t → Q (f t n)) (still : ∀ t m, n ≠ m → I t → Q t → Q (f t m))
    {s : State} (h : I s) :
    Q (foldS l f s) := by
  have stays : ∀ (r : List Nat) (t : State), I t → Q t → Q (foldS r f t) := by
    intro r
    induction r with
    | nil => exact fun _ _ q => q
    | cons m r ih =>
      intro t i q
      refine ih (f t m) (keep t m i) ?_
      by_cases e : n = m
      · exact e ▸ set t i
      · exact still t m e i q
  induction l generalizing s with
  | nil => exact nomatch mem
  | cons m r ih =>
    rcases List.mem_cons.1 mem with e | later
    · exact stays r _ (keep s m h) (e ▸ set s h)
    · exact ih later (keep s m h)

/-- The population is read from `MAP_GEOM`. -/
theorem Keeps.geom {P : List Part} {s t : State} (k : Keeps P s t) (c : s.canon)
    (apart : P.any (Part.covers · (.reg Reg.MAP_GEOM)) = false) : t.geom = s.geom := by
  have geom : ∀ f : Fld, f.addr = Reg.MAP_GEOM → t.fld f = s.fld f := fun f e => k.fld c (by rw [e]; exact apart)
  rw [State.geom, geom _ rfl, geom _ rfl, geom _ rfl, geom _ rfl, State.geom]

theorem Keeps.popSubs {P : List Part} {s t : State} (k : Keeps P s t) (c : s.canon)
    (apart : P.any (Part.covers · (.reg Reg.MAP_GEOM)) = false) : t.popSubs = s.popSubs := by
  rw [State.popSubs, k.geom c apart, State.popSubs]

/-! ### Pins and self-refresh (R260, R384) -/

theorem State.sub_onSub (s : State) (n : Nat) (f : SubCh → SubCh) : (s.onSub n f).sub n = f (s.sub n) := s.sub_setSub n _

/-- From `s` to `t` at most the sub-channels change. -/
abbrev SubsAlone (s t : State) : Prop := Keeps [.sch] s t

theorem SubsAlone.foldS {l : List Nat} {f : State → Nat → State} (h : ∀ t m, SubsAlone t (f t m)) (s : State) :
    SubsAlone s (foldS l f s) := Keeps.foldS l f (.refl _ s) fun t m k => k.trans (h t m)

theorem State.wakeful_of {s t : State} (k : SubsAlone s t) (c : s.canon) (n : Nat) : t.wakeful n = s.wakeful n := by
  have flt : t.flt = s.flt := k.same c .flt (by decide)
  have top : t.top = s.top := k.same c .top (by decide)
  simp only [State.wakeful, State.ranksOf, State.gone, State.rank, k.geom c (by decide), flt, top]

/-- A sub-channel whose awake ranks have gone to self-refresh, with CK stopped (L2). -/
def SubCh.asleep (ranks : List Nat) (c : SubCh) : Prop := c.held = true ∧ c.banks = [] ∧ c.sref = ranks ∧ c.pins.ckBin = none

/-- Whether a sub-channel is asleep does not show in its queues. -/
theorem SubCh.asleep_of_lasting {c d : SubCh} (h : d.lasting = c.lasting) {ranks : List Nat} (a : c.asleep ranks) : d.asleep ranks := by
  have same : ∀ {α : Type} (f : SubCh → α), f d.lasting = f c.lasting := fun f => congrArg f h
  obtain ⟨held, banks, sref, pins⟩ := a
  exact ⟨(same SubCh.held).trans held, (same SubCh.banks).trans banks, (same SubCh.sref).trans sref,
    (same fun x => x.pins.ckBin).trans pins⟩

theorem State.sleepSub_stopCk_asleep (s : State) (n : Nat) : (((s.sleepSub n).stopCk n).sub n).asleep (s.wakeful n) := by
  rw [State.stopCk, State.sub_onSub, State.sleepSub, State.sub_onSub]
  exact ⟨rfl, rfl, rfl, rfl⟩

theorem State.sleepSub_undisturbed (s : State) {n m : Nat} (h : n ≠ m) : Undisturbed n s (s.sleepSub m) := by
  unfold State.sleepSub
  exact .via (State.onSub_undisturbed _ h _) (.foldS _ _ (fun t _ => t.issue_undisturbed h _ _ _ _) s)

/-- Every populated sub-channel goes to sleep (L2, E2). -/
def State.allAsleep (s : State) : State := foldS s.popSubs (fun s n => (s.sleepSub n).stopCk n) s

theorem State.allAsleep_alone (s : State) : SubsAlone s s.allAsleep :=
  .foldS (fun t m => .after (State.stopCk_keeps _ m) (by decide) (State.sleepSub_keeps t m)) s

theorem State.allAsleep_asleep {s : State} (c : s.canon) {n : Nat} (mem : n ∈ s.popSubs) : (s.allAsleep.sub n).asleep (s.wakeful n) := by
  have round : ∀ t m, SubsAlone t ((t.sleepSub m).stopCk m) := fun t m =>
    .after (State.stopCk_keeps _ m) (by decide) (State.sleepSub_keeps t m)
  refine foldS_reaches (I := SubsAlone s) (Q := fun t => (t.sub n).asleep (s.wakeful n)) mem
    (fun t m k => k.trans (round t m)) (fun t k => ?_) (fun t m ne k asleep => ?_) (.refl _ s)
  · rw [← State.wakeful_of k c n]
    exact t.sleepSub_stopCk_asleep n
  · obtain ⟨-, sub, -⟩ := Undisturbed.via (State.onSub_undisturbed _ ne _) (t.sleepSub_undisturbed ne) (k.canon c)
    exact SubCh.asleep_of_lasting sub asleep

/-- CK runs on every populated sub-channel. -/
theorem State.restartCk_runs {s : State} (c : s.canon) {n : Nat} (mem : n ∈ s.popSubs) : (s.restartCk.sub n).pins.ckBin.isSome = true := by
  refine foldS_reaches (I := SubsAlone s) (Q := fun t => (t.sub n).pins.ckBin.isSome = true) mem
    (fun t m k => k.trans (State.startCk_keeps t m _)) (fun t _ => ?_)
    (fun t m ne k runs => ?_) (.refl _ s)
  · rw [State.startCk, State.sub_onSub]
    rfl
  · obtain ⟨-, sub, -⟩ := State.onSub_undisturbed t ne _ (k.canon c)
    exact (congrArg (fun x : SubCh => x.pins.ckBin.isSome) sub).trans runs

/-! ### Registers of a family (R390, R396) -/

/-- A part in which no register from `lo` to below `hi` lies. -/
def Part.beyond (lo hi : Nat) : Part → Bool
  | .regs => false
  | .reg a => decide (a < lo ∨ hi ≤ a)
  | .block b => decide (b < lo >>> 16 ∨ hi >>> 16 < b)
  | _ => true

theorem Part.covers_of_beyond {lo hi a : Nat} {q : Part} (h : q.beyond lo hi = true) (low : lo ≤ a) (high : a < hi) :
    q.covers (.reg a) = false := by
  cases q with
  | regs => exact nomatch h
  | reg b =>
    have apart : b < lo ∨ hi ≤ b := of_decide_eq_true h
    exact decide_eq_false fun e => by
      obtain rfl := Part.reg.inj e
      omega
  | block b =>
    have apart : b < lo >>> 16 ∨ hi >>> 16 < b := of_decide_eq_true h
    refine beq_false_of_ne fun e => ?_
    simp only [Nat.shiftRight_eq_div_pow] at apart e
    omega
  | _ => rfl

/-- A register between two bounds that no part of the frame reaches reads as before. -/
theorem Keeps.between {P : List Part} {s t : State} (k : Keeps P s t) (c : s.canon) (lo hi : Nat) (h : P.all (Part.beyond lo hi) = true)
    {a : Nat} (low : lo ≤ a) (high : a < hi) : t.reg a = s.reg a :=
  k.reg c (List.any_eq_false.2 fun q mem => by rw [Part.covers_of_beyond (List.all_eq_true.1 h q mem) low high]; decide)

/-- No part of the frame is a register of the delay lines. -/
theorem Keeps.dll {P : List Part} {s t : State} (k : Keeps P s t) (c : s.canon) (h : P.all (Part.beyond 0x090040 0x090080) = true)
    (n : Nat) : t.reg (Reg.CLK_DLL n) = s.reg (Reg.CLK_DLL n) :=
  k.between c 0x090040 0x090080 h (by simp only [Reg.CLK_DLL]; omega) (by simp only [Reg.CLK_DLL]; omega)

/-- No part of the frame is a register of the timing sets. -/
theorem Keeps.tset {P : List Part} {s t : State} (k : Keeps P s t) (c : s.canon) (h : P.all (Part.beyond 0x090010 0x090020) = true)
    (n : Nat) : t.reg (Reg.CLK_TSET n) = s.reg (Reg.CLK_TSET n) :=
  k.between c 0x090010 0x090020 h (by simp only [Reg.CLK_TSET]; omega) (by simp only [Reg.CLK_TSET]; omega)

theorem State.fld_of_reg {s t : State} {f : Fld} (h : t.reg f.addr = s.reg f.addr) : t.fld f = s.fld f := by
  rw [State.fld, h, State.fld]

theorem State.flag_of_reg {s t : State} {f : Fld} (h : t.reg f.addr = s.reg f.addr) : t.flag f = s.flag f := by
  rw [State.flag, State.fld_of_reg h, State.flag]

/-- The MPLL's setting is read from the registers of the timing sets. -/
theorem State.setOf_of_reg {s t : State} (h : ∀ n, t.reg (Reg.CLK_TSET n) = s.reg (Reg.CLK_TSET n)) (n : Nat) (osc : Bool) :
    t.setOf n osc = s.setOf n osc := by
  have bin : t.fld (Fld.CLK_TSET.BIN n) = s.fld (Fld.CLK_TSET.BIN n) := State.fld_of_reg (h n)
  have band : t.fld (Fld.CLK_TSET.BAND n) = s.fld (Fld.CLK_TSET.BAND n) := State.fld_of_reg (h n)
  rw [State.setOf, bin, band, State.setOf]

/-! ### Delay lines unlocked (L2, E3) -/

/-- The registers that the loss of every lock leaves alone: all but those of the delay lines. -/
theorem State.unlockAll_reg (s : State) {a : Nat} (h : a < 0x090040 ∨ 0x090080 ≤ a) : s.unlockAll.reg a = s.reg a := by
  have folded : ∀ (l : List Nat) (t : State), (foldS l (fun s n => s.setFld (Fld.CLK_DLL.LOCKED n) 0) t).reg a = t.reg a := by
    intro l
    induction l with
    | nil => exact fun t => rfl
    | cons n r ih =>
      intro t
      exact (ih _).trans (State.reg_setReg_other t _ (by show a ≠ 0x090040 + 0x4 * (n % 16); omega))
  exact folded s.popSubs s

/-- Every delay line of the population has lost its lock. -/
theorem State.unlockAll_unlocked (s : State) {n : Nat} (mem : n ∈ s.popSubs) : s.unlockAll.flag (Fld.CLK_DLL.LOCKED n) = false := by
  have cleared : ∀ (t : State) (m : Nat), (t.setFld (Fld.CLK_DLL.LOCKED m) 0).fld (Fld.CLK_DLL.LOCKED m) = 0 := fun t m =>
    State.fld_setFld t (Fld.CLK_DLL.LOCKED m) 0 (Nat.lt_succ_self 31)
  have folded : (foldS s.popSubs (fun s n => s.setFld (Fld.CLK_DLL.LOCKED n) 0) s).fld (Fld.CLK_DLL.LOCKED n) = 0 := by
    refine foldS_reaches (f := fun s n => s.setFld (Fld.CLK_DLL.LOCKED n) 0) (I := fun _ => True)
      (Q := fun t => t.fld (Fld.CLK_DLL.LOCKED n) = 0) mem (fun _ _ i => i) (fun t _ => cleared t n) (fun t m _ _ q => ?_) trivial
    by_cases e : n % 16 = m % 16
    · have same : Fld.CLK_DLL.LOCKED n = Fld.CLK_DLL.LOCKED m := by simp only [Fld.CLK_DLL.LOCKED, e]
      rw [same]
      exact cleared t m
    · exact (State.fld_setFld_other t 0 (by simp only [ne_eq]; omega)).trans q
  rw [State.flag]
  exact bne_eq_false_iff_eq.2 folded

end Sys2Proof.Machine
end

section
/-!
Lull: entry, lock, exit requests and the minimum time in self-refresh (R376 to R390).
-/

set_option Elab.async false

namespace Sys2Proof.Machine

/-! ### Clocks of a Lull (R375, R384) -/

theorem State.unlockAll_clk {s : State} (c : s.canon) : s.unlockAll.clk = { s.clk with spread := none, retries := [], ready := false } := by
  have folded : Keeps [.block 0x9] s (foldS s.popSubs (fun s n => s.setFld (Fld.CLK_DLL.LOCKED n) 0) s) :=
    .foldS _ _ (.refl _ s) fun _ _ h =>
      Keeps.viaBlock (b := 9) (State.setFld_keeps _ _ _) (fam_block _ _ _ _ rfl (by decide)) rfl h
  have clk := folded.same c .clk (by decide)
  exact congrArg (fun x : ClkSt => { x with spread := none, retries := [], ready := false }) clk

/-- The sub-channels stand while the clocks and their registers change. -/
theorem Keeps.sub {P : List Part} {s t : State} (k : Keeps P s t) (c : s.canon) (h : P.any (Part.covers · .sch) = false) (n : Nat) :
    t.sub n = s.sub n := by
  have sch : t.sch = s.sch := k.same c .sch h
  rw [State.sub, sch, State.sub]

/-- The setting of a timing set goes live with a commit. -/
theorem State.commit_clk (s : State) (t : Nat) (osc : Bool) : (s.commit t osc).clk =
    { s.clk with mpllPend := s.setOf t osc, mpllLive := s.setOf t osc, cpllLive := s.clk.cpllPend, band := (s.setOf t osc).band } := rfl

/-- A commit shows the set in force, and touches nothing else of `CLK_STAT`. -/
theorem State.commit_tset (s : State) (t : Nat) (osc : Bool) : (s.commit t osc).fld Fld.CLK_STAT.TSET = t % 4 :=
  State.fld_setFld _ Fld.CLK_STAT.TSET t (by decide)

/-- Another field of a register that a field is written in. -/
theorem State.flag_setFld_disjoint (s : State) {f g : Fld} (v : Nat) (ha : g.addr = f.addr) (h : g.hi < f.lo ∨ f.hi < g.lo) :
    (s.setFld f v).flag g = s.flag g := by
  rw [State.flag, State.fld_setFld_disjoint s v ha h, State.flag]

theorem State.flag_setFld_zero (s : State) {f : Fld} (h : f.hi < 32) : (s.setFld f 0).flag f = false := by
  rw [State.flag, State.fld_setFld s f 0 h, Nat.zero_mod]
  rfl

theorem State.flag_setFld_one (s : State) {f : Fld} (h : f.hi < 32) (single : f.hi = f.lo) : (s.setFld f 1).flag f = true := by
  rw [State.flag, State.fld_setFld s f 1 h, show f.hi + 1 - f.lo = 1 by omega]
  rfl

theorem State.commit_mpllLock (s : State) (t : Nat) (osc : Bool) :
    (s.commit t osc).flag Fld.CLK_STAT.MPLL_LOCK = s.flag Fld.CLK_STAT.MPLL_LOCK :=
  State.flag_setFld_disjoint (f := Fld.CLK_STAT.TSET) (g := Fld.CLK_STAT.MPLL_LOCK) _ _ rfl (by decide)

/-! ### LULL_ENTRY_DONE (R384 L2 and L3, R387 E2) -/

/-- The ranks are in self-refresh. -/
def State.entryMade (s : State) : State := { s.allAsleep with clk := { s.allAsleep.clk with entered := true, srDone := false } }

/-- A planned Lull commits its target. -/
def State.targetLive (s : State) : State := (s.entryMade.unlockAll.commit s.clk.target false).setFld Fld.CLK_STAT.LULL 2

section
variable {s : State} (c : s.canon)

theorem State.entryMade_keeps (s : State) : Keeps [.sch, .clk] s s.entryMade :=
  .after (Keeps.upd_clk s.allAsleep _) (by decide) (s.allAsleep_alone.mono (by decide))

theorem State.targetLive_keeps (s : State) : Keeps [.sch, .clk, .block 0x9] s s.targetLive :=
  .after (State.setFld_keeps _ _ _) (by decide) (.after (State.commit_keeps _ _ _) (by decide)
    (.after (State.unlockAll_keeps _) (by decide) (s.entryMade_keeps.mono (by decide))))

include c

theorem State.entryMade_clk : s.entryMade.clk = { s.clk with entered := true, srDone := false } := by
  have clk := s.allAsleep_alone.same c .clk (by decide)
  exact congrArg (fun x : ClkSt => { x with entered := true, srDone := false }) clk

theorem State.entryMade_asleep {n : Nat} (mem : n ∈ s.popSubs) : (s.entryMade.sub n).asleep (s.wakeful n) := State.allAsleep_asleep c mem

theorem State.entryMade_setOf (n : Nat) (osc : Bool) : s.entryMade.setOf n osc = s.setOf n osc :=
  State.setOf_of_reg (s.entryMade_keeps.tset c (by decide)) n osc

theorem State.targetLive_asleep {n : Nat} (mem : n ∈ s.popSubs) : (s.targetLive.sub n).asleep (s.wakeful n) := by
  have kept : Keeps [.clk, .block 0x9] s.entryMade s.targetLive :=
    .after (State.setFld_keeps _ _ _) (by decide) (.after (State.commit_keeps _ _ _) (by decide) s.entryMade.unlockAll_keeps)
  rw [kept.sub (s.entryMade_keeps.canon c) (by decide)]
  exact State.entryMade_asleep c mem

theorem State.targetLive_unlocked {n : Nat} (mem : n ∈ s.popSubs) : s.targetLive.flag (Fld.CLK_DLL.LOCKED n) = false := by
  have kept : Keeps [.clk, .reg Reg.CLK_STAT] s.entryMade.unlockAll s.targetLive :=
    .after (State.setFld_keeps _ _ _) (by decide) (State.commit_keeps _ _ _)
  have cu := s.entryMade.unlockAll_keeps.canon (s.entryMade_keeps.canon c)
  rw [State.flag_of_reg (kept.dll cu (by decide) n)]
  apply State.unlockAll_unlocked
  rw [s.entryMade_keeps.popSubs c (by decide)]
  exact mem

theorem State.targetLive_setOf : s.entryMade.unlockAll.setOf s.clk.target false = s.setOf s.clk.target false := by
  refine (State.setOf_of_reg (fun n => State.unlockAll_reg _ (Or.inl ?_)) _ _).trans (State.entryMade_setOf c _ _)
  show 0x090010 + 0x4 * (n % 4) < 0x090040
  omega

theorem State.targetLive_clk : s.targetLive.clk.entered = true ∧ s.targetLive.clk.mpllLive = s.setOf s.clk.target false := by
  refine ⟨?_, State.targetLive_setOf c⟩
  show s.entryMade.unlockAll.clk.entered = true
  rw [State.unlockAll_clk (s.entryMade_keeps.canon c), State.entryMade_clk c]

omit c in
theorem State.targetLive_shown (s : State) : s.targetLive.fld Fld.CLK_STAT.LULL = 2 ∧ s.targetLive.fld Fld.CLK_STAT.TSET = s.clk.target % 4 := by
  refine ⟨State.fld_setFld _ _ 2 (by decide), ?_⟩
  exact (State.fld_setFld_disjoint (f := Fld.CLK_STAT.LULL) (g := Fld.CLK_STAT.TSET) _ 2 rfl (by decide)).trans (State.commit_tset _ _ _)

theorem State.targetLive_mpllLock : s.targetLive.flag Fld.CLK_STAT.MPLL_LOCK = s.flag Fld.CLK_STAT.MPLL_LOCK := by
  refine (State.flag_setFld_disjoint (f := Fld.CLK_STAT.LULL) (g := Fld.CLK_STAT.MPLL_LOCK) _ 2 rfl (by decide)).trans ?_
  refine (State.commit_mpllLock _ _ _).trans ((State.flag_of_reg (State.unlockAll_reg _ (Or.inl (by decide)))).trans ?_)
  exact s.entryMade_keeps.flag c (by decide)

/-! What the command does in each case. -/

variable (none : s.popSubs.any (fun n => (s.sub n).alert == 1 || (s.sub n).alert == 2) = false) (fresh : s.clk.entered = false)
include none fresh

theorem execLullEntryDone_emergency (emergency : s.clk.emerg ≠ 0) :
    execLullEntryDone s = .next { s.entryMade with clk := { s.clk with entered := true, srDone := false, estep := 3 } } := by
  have clk := State.entryMade_clk c
  rw [execLullEntryDone, none, if_pos (by simp [State.lulling, emergency, fresh])]
  have still : s.entryMade.clk.emerg ≠ 0 := by rw [clk]; exact emergency
  refine (congrArg Host.Outcome.next (if_pos (bne_iff_ne.2 still))).trans ?_
  exact congrArg (fun x : ClkSt => Host.Outcome.next { s.entryMade with clk := { x with estep := 3 } }) clk

/-- The planned target is committed: CK runs on where the running setting is the target's. -/
theorem execLullEntryDone_planned (planned : s.clk.planned = true) (calm : s.clk.emerg = 0) :
    execLullEntryDone s = .next (if s.setOf s.clk.target false = s.clk.mpllLive then s.targetLive.restartCk
      else s.targetLive.setFld Fld.CLK_STAT.MPLL_LOCK 0) := by
  have clk := State.entryMade_clk c
  rw [execLullEntryDone, none, if_pos (by simp [State.lulling, planned, fresh])]
  have still : ¬(s.entryMade.clk.emerg != 0) = true := by rw [clk]; simp [calm]
  have target : s.entryMade.clk.target = s.clk.target := by rw [clk]
  have live : s.entryMade.clk.mpllLive = s.clk.mpllLive := by rw [clk]
  refine (congrArg Host.Outcome.next (if_neg still)).trans ?_
  show Host.Outcome.next (if (s.entryMade.setOf s.entryMade.clk.target false == s.entryMade.clk.mpllLive) = true then
      ((s.entryMade.unlockAll.commit s.entryMade.clk.target false).setFld Fld.CLK_STAT.LULL 2).restartCk
    else ((s.entryMade.unlockAll.commit s.entryMade.clk.target false).setFld Fld.CLK_STAT.LULL 2).setFld Fld.CLK_STAT.MPLL_LOCK 0) = _
  rw [target, live, State.entryMade_setOf c]
  simp only [beq_iff_eq]
  rfl

end

end Sys2Proof.Machine
end

section
/-!
A band found by search, and a Lull's end (R376, R384, R386, R390).
-/

set_option Elab.async false

namespace Sys2Proof.Machine

/-! ### The MPLL's band (R376) -/

/-- A searched band is shown as the stored one of the set in force. -/
def State.bandShown (s : State) (band : BitVec 6) : State :=
  (s.setFld (Fld.CLK_TSET.BAND s.liveSet) band.toNat).setFld (Fld.CLK_TSET.BAND_VALID s.liveSet) 1

/-- A searched band is in use and stored for the set in force. -/
def State.bandStored (s : State) (band : BitVec 6) : State :=
  { s.bandShown band with clk := { s.clk with band := band, mpllPend := { s.clk.mpllPend with band := band } } }

/-- A searched band is stored, counted and recorded. -/
def State.bandFound (s : State) (band : BitVec 6) : State :=
  ((s.bandStored band).bump Reg.CLK_BANDSRCH).event 0x900B (s.liveSet + (band.toNat <<< 8))

/-- A band at most two from the stored one is taken as it is. -/
theorem State.relock_near {s : State} {band : BitVec 6} (near : ((band.toNat : Int) - s.fld (Fld.CLK_TSET.BAND s.liveSet)).natAbs ≤ 2) :
    s.relock band false = ({ s with clk := { s.clk with band := band } }, true) := by
  have fits : (decide ((band.toNat : Int) - s.fld (Fld.CLK_TSET.BAND s.liveSet) ≤ 2) &&
      decide ((s.fld (Fld.CLK_TSET.BAND s.liveSet) : Int) - band.toNat ≤ 2)) = true := by
    rw [Bool.and_eq_true, decide_eq_true_eq, decide_eq_true_eq]
    omega
  exact Prod.ext rfl fits

theorem State.relock_far {s : State} {band : BitVec 6} (far : 2 < ((band.toNat : Int) - s.fld (Fld.CLK_TSET.BAND s.liveSet)).natAbs) :
    (s.relock band false).2 = false := by
  have apart : (decide ((band.toNat : Int) - s.fld (Fld.CLK_TSET.BAND s.liveSet) ≤ 2) &&
      decide ((s.fld (Fld.CLK_TSET.BAND s.liveSet) : Int) - band.toNat ≤ 2)) = false := by
    rw [Bool.and_eq_false_iff, decide_eq_false_iff_not, decide_eq_false_iff_not]
    omega
  exact apart

theorem State.bandStored_clk (s : State) (band : BitVec 6) :
    (s.bandStored band).clk = { s.clk with band := band, mpllPend := { s.clk.mpllPend with band := band } } := rfl

theorem State.reg_setFld_other (s : State) {f : Fld} {a : Nat} (v : Nat) (h : a ≠ f.addr) : (s.setFld f v).reg a = s.reg a :=
  State.reg_setReg_other s _ h

/-- What the clocks hold shows in no register. -/
theorem State.reg_withClk (s : State) (v : ClkSt) (a : Nat) : ({ s with clk := v } : State).reg a = s.reg a := rfl

theorem ne_CLK_TSET {a : Nat} (h : a < 0x090010 ∨ 0x090020 ≤ a) (n : Nat) : a ≠ Reg.CLK_TSET n := by
  show a ≠ 0x090010 + 0x4 * (n % 4)
  omega

/-- Every register but those of the timing sets stands. -/
theorem State.bandStored_reg (s : State) (band : BitVec 6) {a : Nat} (h : a < 0x090010 ∨ 0x090020 ≤ a) :
    (s.bandStored band).reg a = s.reg a := by
  have apart := ne_CLK_TSET h s.liveSet
  rw [State.bandStored, State.reg_withClk, State.bandShown,
    State.reg_setFld_other _ (f := Fld.CLK_TSET.BAND_VALID s.liveSet) 1 apart, State.reg_setFld_other s (f := Fld.CLK_TSET.BAND s.liveSet) _ apart]

theorem State.bandShown_keeps (s : State) (band : BitVec 6) : Keeps [.block 0x9] s (s.bandShown band) := by
  refine Keeps.viaBlock (b := 9) (State.setFld_keeps _ _ _) (fam_block _ _ _ _ rfl (by decide)) rfl ?_
  exact Keeps.viaBlock (b := 9) (State.setFld_keeps _ _ _) (fam_block _ _ _ _ rfl (by decide)) rfl (.refl _ s)

theorem State.bandStored_keeps (s : State) (band : BitVec 6) : Keeps [.clk, .block 0x9] s (s.bandStored band) :=
  .after (Keeps.upd_clk (s.bandShown band) _) (by decide) ((s.bandShown_keeps band).mono (by decide))

theorem State.bandStored_band (s : State) (band : BitVec 6) : (s.bandStored band).fld (Fld.CLK_TSET.BAND s.liveSet) = band.toNat ∧
    (s.bandStored band).flag (Fld.CLK_TSET.BAND_VALID s.liveSet) = true := by
  have shown : ∀ a, (s.bandStored band).reg a = (s.bandShown band).reg a := fun a => by rw [State.bandStored, State.reg_withClk]
  rw [State.fld_of_reg (shown _), State.flag_of_reg (shown _), State.bandShown]
  constructor
  · rw [State.fld_setFld_disjoint (f := Fld.CLK_TSET.BAND_VALID s.liveSet) (g := Fld.CLK_TSET.BAND s.liveSet) _ 1 rfl
      (Or.inl (Nat.lt_succ_self 13)), State.fld_setFld _ (Fld.CLK_TSET.BAND s.liveSet) _ (Nat.lt_of_lt_of_le (Nat.lt_succ_self 13) (by decide))]
    exact Nat.mod_eq_of_lt band.isLt
  · exact State.flag_setFld_one _ (f := Fld.CLK_TSET.BAND_VALID s.liveSet) (Nat.lt_of_lt_of_le (Nat.lt_succ_self 14) (by decide)) rfl

section
variable {s : State} (c : s.canon) (band : BitVec 6)

/-- The count and the record of a search leave the stored band. -/
theorem State.bandFound_after (s : State) (band : BitVec 6) :
    Keeps (.reg Reg.CLK_BANDSRCH :: logParts) (s.bandStored band) (s.bandFound band) :=
  .after (State.event_keeps _ _ _) (by decide) ((State.bump_keeps _ _ _).mono (by decide))

include c

theorem State.bandFound_clk : (s.bandFound band).clk = { s.clk with band := band, mpllPend := { s.clk.mpllPend with band := band } } :=
  ((s.bandFound_after band).same ((s.bandStored_keeps band).canon c) .clk (by decide)).trans (s.bandStored_clk band)

/-- The registers of the clocks beside those of the timing sets and of the searches stand. -/
theorem State.bandFound_reg {a : Nat} (low : a < 0x090010 ∨ 0x090020 ≤ a)
    (apart : (.reg Reg.CLK_BANDSRCH :: logParts).any (Part.covers · (.reg a)) = false) : (s.bandFound band).reg a = s.reg a :=
  ((s.bandFound_after band).reg ((s.bandStored_keeps band).canon c) apart).trans (s.bandStored_reg band low)

theorem State.bandFound_dll (n : Nat) : (s.bandFound band).reg (Reg.CLK_DLL n) = s.reg (Reg.CLK_DLL n) := by
  refine ((s.bandFound_after band).dll ((s.bandStored_keeps band).canon c) (by decide) n).trans (s.bandStored_reg band (Or.inr ?_))
  show 0x090020 ≤ 0x090040 + 0x4 * (n % 16)
  omega

/-- What a search leaves: the band stored and valid, counted, and recorded. -/
theorem State.bandFound_found : (s.bandFound band).fld (Fld.CLK_TSET.BAND s.liveSet) = band.toNat ∧
    (s.bandFound band).flag (Fld.CLK_TSET.BAND_VALID s.liveSet) = true ∧ Counted Reg.CLK_BANDSRCH s (s.bandFound band) ∧
    (Attentive s → Logged 0x900B (BitVec.ofNat 32 (s.liveSet + (band.toNat <<< 8))) (s.bandFound band)) := by
  have cs := (s.bandStored_keeps band).canon c
  have kept := (s.bandFound_after band).tset cs (by decide) s.liveSet
  obtain ⟨stored, valid⟩ := s.bandStored_band band
  have counted : Keeps (.clk :: .block 0x9 :: [.reg Reg.CLK_BANDSRCH]) s ((s.bandStored band).bump Reg.CLK_BANDSRCH) :=
    .after (State.bump_keeps _ _ _) (by decide) ((s.bandStored_keeps band).mono (by decide))
  have cb := counted.canon c
  refine ⟨(State.fld_of_reg kept).trans stored, (State.flag_of_reg kept).trans valid, ?_, fun h => ?_⟩
  · refine Counted.keeps (P := logParts) ?_ ((State.event_keeps _ _ _).mono (by decide)) cb (by decide)
    rw [Counted, State.fld_bump, State.fld_of_reg (s.bandStored_reg band (Or.inr (by decide)))]
  · exact State.capture_logged (h.keeps counted c (by decide)) (by decide) _ 0

end

/-! ### MPLL_LOCK (R376, R384 L4) -/

/-- Step L6 waits for every delay line. -/
theorem State.tryReady_waits {s : State} (h : s.popSubs.any (fun n => !s.dllLocked n && !s.dllStuck n) = true) : s.tryReady = s := by
  have some : (s.popSubs.all fun n => s.dllLocked n || s.dllStuck n) = false := by
    obtain ⟨n, mem, open'⟩ := List.any_eq_true.1 h
    rw [← Bool.not_eq_true, List.all_eq_true]
    intro all
    have := all n mem
    revert open' this
    cases s.dllLocked n <;> cases s.dllStuck n <;> decide
  unfold State.tryReady
  rw [some]
  exact if_neg (by simp)

/-- The band that a lock leaves in use, stored where it was searched for. -/
def State.locked (s : State) (band : BitVec 6) (searched : Bool) : State :=
  ((s.relock band searched).1.setFld Fld.CLK_STAT.MPLL_LOCK 1).restartCk

section
variable {s : State} (c : s.canon) {band : BitVec 6} {searched : Bool}

theorem State.relock_kept (s : State) (band : BitVec 6) (searched : Bool) :
    Keeps (.clk :: .block 0x9 :: logParts) s (s.relock band searched).1 := (s.relock_keeps band searched).mono (by decide)

theorem State.locked_keeps (s : State) (band : BitVec 6) (searched : Bool) :
    Keeps (.sch :: .clk :: .block 0x9 :: logParts) s (s.locked band searched) :=
  .after (State.restartCk_keeps _) (by decide) (.after (State.setFld_keeps _ _ _) (by decide)
    ((s.relock_kept band searched).mono (by decide)))

/-- From the band found on, `CLK_STAT` and the pins change. -/
theorem State.locked_after (s : State) (band : BitVec 6) (searched : Bool) :
    Keeps [.sch, .reg Reg.CLK_STAT] (s.relock band searched).1 (s.locked band searched) :=
  .after (State.restartCk_keeps _) (by decide) ((State.setFld_keeps _ _ _).mono (by decide))

include c

theorem State.relock_dll (n : Nat) : (s.relock band searched).1.reg (Reg.CLK_DLL n) = s.reg (Reg.CLK_DLL n) := by
  cases searched with
  | true => exact State.bandFound_dll c band n
  | false => exact (Keeps.upd_clk s { s.clk with band := band }).dll c (by decide) n

theorem State.locked_dll (n : Nat) : (s.locked band searched).reg (Reg.CLK_DLL n) = s.reg (Reg.CLK_DLL n) :=
  ((s.locked_after band searched).dll ((s.relock_kept band searched).canon c) (by decide) n).trans (State.relock_dll c n)

theorem State.locked_popSubs : (s.locked band searched).popSubs = s.popSubs := (s.locked_keeps band searched).popSubs c (by decide)

/-- A line that has not settled has not when the MPLL locks. -/
theorem State.locked_waits (h : s.popSubs.any (fun n => !s.dllLocked n && !s.dllStuck n) = true) :
    (s.locked band searched).tryReady = s.locked band searched := by
  have locks : ∀ n, (s.locked band searched).dllLocked n = s.dllLocked n := fun n => State.flag_of_reg (State.locked_dll c n)
  have stuck : ∀ n, (s.locked band searched).dllStuck n = s.dllStuck n := fun n => State.flag_of_reg (State.locked_dll c n)
  apply State.tryReady_waits
  simpa only [locks, stuck, State.locked_popSubs c] using h

theorem State.locked_runs {n : Nat} (mem : n ∈ s.popSubs) : ((s.locked band searched).sub n).pins.ckBin.isSome = true := by
  have begun : Keeps (.clk :: .block 0x9 :: logParts) s ((s.relock band searched).1.setFld Fld.CLK_STAT.MPLL_LOCK 1) :=
    .after (State.setFld_keeps _ _ _) (by decide) (s.relock_kept band searched)
  apply State.restartCk_runs (begun.canon c)
  rw [begun.popSubs c (by decide)]
  exact mem

theorem State.locked_mpllLock : (s.locked band searched).flag Fld.CLK_STAT.MPLL_LOCK = true := by
  have begun : Keeps (.clk :: .block 0x9 :: logParts) s ((s.relock band searched).1.setFld Fld.CLK_STAT.MPLL_LOCK 1) :=
    .after (State.setFld_keeps _ _ _) (by decide) (s.relock_kept band searched)
  rw [State.locked, (State.restartCk_keeps _).flag (begun.canon c) (by decide)]
  exact State.flag_setFld_one _ (by decide) rfl

theorem State.locked_clk : (s.locked band searched).clk =
    { s.clk with band := band, mpllPend := (if searched then { s.clk.mpllPend with band := band } else s.clk.mpllPend) } := by
  have clk := (s.locked_after band searched).same ((s.relock_kept band searched).canon c) .clk (by decide)
  refine Eq.trans clk ?_
  cases searched with
  | true => exact State.bandFound_clk c band
  | false => rfl

theorem State.locked_found : (s.locked band true).fld (Fld.CLK_TSET.BAND s.liveSet) = band.toNat ∧
    (s.locked band true).flag (Fld.CLK_TSET.BAND_VALID s.liveSet) = true ∧ Counted Reg.CLK_BANDSRCH s (s.locked band true) ∧
    (Attentive s → Logged 0x900B (BitVec.ofNat 32 (s.liveSet + (band.toNat <<< 8))) (s.locked band true)) := by
  have after := s.locked_after band true
  have cr := (s.relock_kept band true).canon c
  have kept := after.tset cr (by decide) s.liveSet
  obtain ⟨stored, valid, counted, logged⟩ := State.bandFound_found c band
  exact ⟨(State.fld_of_reg kept).trans stored, (State.flag_of_reg kept).trans valid, counted.keeps after cr (by decide),
    fun h => (logged h).keeps after cr (by decide) (by decide)⟩

omit c in
theorem execMpllLock_locks (lulling : s.lulling = true) (entered : s.clk.entered = true) (unlocked : s.flag Fld.CLK_STAT.MPLL_LOCK = false)
    (step : s.fld Fld.CLK_STAT.LULL = 2 ∨ s.fld Fld.CLK_STAT.LULL = 5)
    (band' : searched = true ∨ ((band.toNat : Int) - s.fld (Fld.CLK_TSET.BAND s.liveSet)).natAbs ≤ 2) :
    execMpllLock band searched s = .next (s.locked band searched).tryReady := by
  have taken : (s.relock band searched).2 = true := by
    cases searched with
    | true => rfl
    | false => rw [State.relock_near (band'.resolve_left (by decide))]
  have shown : (decide (s.fld Fld.CLK_STAT.LULL = 2) || decide (s.fld Fld.CLK_STAT.LULL = 5)) = true := by simpa using step
  unfold execMpllLock
  dsimp only
  rw [taken, lulling, entered, unlocked, shown]
  rfl

end

end Sys2Proof.Machine
end

section
/-!
The end of a Lull (R384, R386, R390).
-/

set_option Elab.async false

namespace Sys2Proof.Machine

/-! ### What the log keeps while ranks wake (R310, R334) -/

section
variable {C : BitVec 16 → Prop} (hC : C 0x8001)

theorem State.setTraining_calm (s : State) (n : Nat) (t : TrainRun) : Calm C s (s.setTraining n t) :=
  .of_keeps (State.setTraining_keeps s n t) rfl rfl

theorem State.wakeSub_calm (s : State) (n : Nat) : Calm C s (s.wakeSub n) := .apart (State.wakeSub_keeps s n) rfl

include hC

theorem State.writeCal_calm (s : State) (p : Nat) : Calm C s (s.writeCal p) := by
  unfold State.writeCal
  refine .ite (.refl C s) ?_
  exact .via (.foldS _ _ (fun t i => t.reserveWrite_calm hC _ _) _) (.of_keeps (State.setLive_keeps s p _) rfl rfl)

theorem State.endSub_calm (s : State) (n : Nat) : Calm C s (s.endSub n) := by
  unfold State.endSub
  refine .via (.foldS _ _ (fun t k => t.writeCal_calm hC _) _) (.via (State.setTraining_calm _ _ _) ?_)
  exact .via (.apart (State.worst_keeps _ _) rfl) (.via (State.onSub_calm _ _ _)
    (.via (.apart (State.satF_keeps _ _ _) rfl) (.apart (State.setFld_keeps s _ _) rfl)))

theorem State.nextRank_calm (s : State) (n : Nat) (after : List Nat) : Calm C s (s.nextRank n after) := by
  unfold State.nextRank
  dsimp only
  split
  · exact s.endSub_calm hC n
  · next k _ _ =>
    have path : ∀ v, Calm C s (s.setFld (pathFld n k) v) := fun v => .apart (State.setFld_keeps s _ v) rfl
    split
    · exact .via (State.setTraining_calm _ _ _) (.via (.apart (State.setFld_keeps _ _ _) rfl) (path _))
    · exact .via (State.setTraining_calm _ _ _) (.via (.apart (State.newRecord_keeps _ _) rfl) (path _))

theorem State.wakeUp_calm (s : State) (n : Nat) : Calm C s (s.wakeUp n) := by
  unfold State.wakeUp State.restoreSub
  refine .ite (.via (State.nextRank_calm hC _ _ _) (.apart (State.wakeRestored_keeps s n) rfl)) ?_
  exact .via (.apart (State.writeSettings_keeps _ _ _) rfl) (s.wakeSub_calm n)

end

/-! ### A sub-channel wakes (R244, R260, R276) -/

/-- A sub-channel awake: out of self-refresh, and held only while it trains. -/
def SubCh.awake (training : Nat) (c : SubCh) : Prop := c.sref = [] ∧ c.held = decide (training ≠ 0)

theorem SubCh.awake_of_lasting {c d : SubCh} (h : d.lasting = c.lasting) {k : Nat} (a : c.awake k) : d.awake k := by
  obtain ⟨sref, held⟩ := a
  exact ⟨(congrArg SubCh.sref h : _).trans sref, (congrArg SubCh.held h : _).trans held⟩

theorem State.wakeSub_awake (s : State) (n t : Nat) : (((s.wakeSub n).writeSettings n t).sub n).awake (s.training n).step := by
  rw [State.writeSettings, State.sub_onSub, State.wakeSub, State.sub_onSub]
  refine ⟨rfl, ?_⟩
  show ((s.training n).step != 0) = decide ((s.training n).step ≠ 0)
  rw [Bool.eq_iff_iff, bne_iff_ne, decide_eq_true_iff]

theorem State.wakeUp_settled {s : State} {n : Nat} (h : (s.training n).step ≠ 13) :
    s.wakeUp n = (s.wakeSub n).writeSettings n s.liveSet := if_neg h

/-- A sub-channel whose step S3 does not wait is awake after its round, and its training stands. -/
theorem State.wakeUp_awake {s : State} (c : s.canon) {n : Nat} (h : (s.training n).step ≠ 13) :
    ((s.wakeUp n).sub n).awake (s.training n).step ∧ (s.wakeUp n).training n = s.training n := by
  rw [State.wakeUp_settled h]
  refine ⟨s.wakeSub_awake n _, ?_⟩
  have kept : SubsAlone s ((s.wakeSub n).writeSettings n s.liveSet) := .after (State.writeSettings_keeps _ _ _) (by decide) (State.wakeSub_keeps s n)
  have cal := kept.same c .cal (by decide)
  exact congrArg (fun x : CalSt => Tab.get (fun _ => ({} : TrainRun)) x.train n) cal

/-! ### The steps of the end (L7, L8, E6) -/

/-- The sub-channels whose delay line is not stuck. -/
def State.freeSubs (s : State) : List Nat := s.popSubs.filter fun n => !s.stuckSubs.contains n

/-- The ranks wake, and the length of the Lull is shown. -/
def State.lullWoken (wake : Nat → State → State) (s : State) : State :=
  let t := foldS s.freeSubs (fun s n => wake n s) s
  ({ t with cal := { t.cal with exited := (t.cal.exited ++ s.freeSubs).eraseDups } } : State).noteLull

/-- The result of a planned Lull is shown and counted. -/
def State.lullCounted (s : State) (stuck : List Nat) : State :=
  ((s.bump Reg.CLK_LULLS).setFld Fld.CLK_LULLSTAT.LAST_RESULT (if stuck.isEmpty then 1 else 3)).setFld Fld.CLK_LULLSTAT.LAST_TARGET
    s.clk.target

/-- A planned Lull is counted and recorded, and an emergency's end is recorded. -/
def State.lullTold (s : State) (stuck : List Nat) : State :=
  let ms := (s.time.elapsed - s.clk.began) / 8000000
  let emerg := s.clk.emerg
  let s := if s.clk.planned then
      let s := s.lullCounted stuck
      s.event 0x9001 (s.liveSet + (bitOf (!stuck.isEmpty) <<< 15) + (maskOf stuck <<< 16))
    else s
  if emerg != 0 then s.event 0x9006 (min 0xFFFF ms) else s

/-- No Lull is in progress any longer. -/
def State.lullClosed (s : State) (stuck : List Nat) : State :=
  ({ s with clk := { s.clk with
    planned := false, emerg := 0, estep := 0, entered := false, ready := false, exitAsked := false,
    losing := s.clk.losing ++ stuck.filter fun n => !s.clk.losing.contains n } } : State).setFld Fld.CLK_STAT.LULL 0

theorem State.endLullWith_eq (wake : Nat → State → State) (s : State) :
    s.endLullWith wake = ((s.lullWoken wake).lullTold s.stuckSubs).lullClosed s.stuckSubs := rfl

/-! What each step leaves alone. -/

theorem State.lullCounted_keeps (s : State) (stuck : List Nat) :
    Keeps [.reg Reg.CLK_LULLS, .reg Reg.CLK_LULLSTAT] s (s.lullCounted stuck) :=
  .after (State.setFld_keeps _ _ _) (by decide) (.after (State.setFld_keeps _ _ _) (by decide) ((State.bump_keeps s _ _).mono (by decide)))

theorem State.lullTold_keeps (s : State) (stuck : List Nat) :
    Keeps (.reg Reg.CLK_LULLS :: .reg Reg.CLK_LULLSTAT :: logParts) s (s.lullTold stuck) := by
  have planned : Keeps (.reg Reg.CLK_LULLS :: .reg Reg.CLK_LULLSTAT :: logParts) s (if s.clk.planned then
      (s.lullCounted stuck).event 0x9001 ((s.lullCounted stuck).liveSet + (bitOf (!stuck.isEmpty) <<< 15) + (maskOf stuck <<< 16))
      else s) :=
    .ite (.after (State.event_keeps _ _ _) (by decide) ((s.lullCounted_keeps stuck).mono (by decide))) (.refl _ s)
  exact .ite (.after (State.event_keeps _ _ _) (by decide) planned) planned

theorem State.lullClosed_keeps (s : State) (stuck : List Nat) : Keeps [.clk, .reg Reg.CLK_STAT] s (s.lullClosed stuck) :=
  .after (State.setFld_keeps _ _ _) (by decide) ((Keeps.upd_clk s _).mono (by decide))

/-- After the ranks have woken the sub-channels stand. -/
theorem State.lullEnd_keeps (s : State) (stuck : List Nat) :
    Keeps (.clk :: .reg Reg.CLK_STAT :: .reg Reg.CLK_LULLS :: .reg Reg.CLK_LULLSTAT :: logParts) s ((s.lullTold stuck).lullClosed stuck) :=
  .after (State.lullClosed_keeps _ _) (by decide) ((s.lullTold_keeps stuck).mono (by decide))

theorem State.lullClosed_shown (s : State) (stuck : List Nat) : (s.lullClosed stuck).fld Fld.CLK_STAT.LULL = 0 ∧
    (s.lullClosed stuck).clk.planned = false ∧ (s.lullClosed stuck).clk.emerg = 0 :=
  ⟨State.fld_setFld _ Fld.CLK_STAT.LULL 0 (by decide), rfl, rfl⟩

/-- The ranks wake through a run over the sub-channels. -/
theorem State.lullWoken_keeps {P : List Part} {s : State} {wake : Nat → State → State}
    (woken : Keeps P s (foldS s.freeSubs (fun s n => wake n s) s))
    (within : partsWithin [.cal, .reg Reg.CLK_LULLSTAT] P = true) : Keeps P s (s.lullWoken wake) := by
  have noted : Keeps [.cal, .reg Reg.CLK_LULLSTAT] (foldS s.freeSubs (fun s n => wake n s) s) (s.lullWoken wake) :=
    .after (State.noteLull_keeps _) (by decide) ((Keeps.upd_cal _ _).mono (by decide))
  exact .after noted within woken

theorem State.freeSubs_of_none {s : State} (none : s.stuckSubs = []) : s.freeSubs = s.popSubs := by
  rw [State.freeSubs, none]
  exact List.filter_eq_self.2 fun _ _ => rfl

/-! ### A planned Lull's end (R384, R390) -/

section
variable {s : State} (c : s.canon)

/-- Waking, in any frame. -/
theorem State.lullWoken_wakeUp_keeps (s : State) :
    Keeps (.reg Reg.CLK_LULLSTAT :: State.wakeUp_parts) s (s.lullWoken fun n s => s.wakeUp n) := by
  refine State.lullWoken_keeps ?_ (by decide)
  exact .foldS _ _ (.refl _ s) fun t n k => .after (State.wakeUp_keeps t n) (by decide) k

theorem State.lullWoken_wakeUp_calm (s : State) : Calm (· = 0x8001) s (s.lullWoken fun n s => s.wakeUp n) := by
  have woken : Calm (· = 0x8001) s (foldS s.freeSubs (fun s n => s.wakeUp n) s) :=
    .foldS s.freeSubs (fun s n => s.wakeUp n) (fun t n => t.wakeUp_calm (C := (· = 0x8001)) rfl n) s
  refine .trans woken (.via (.apart (State.noteLull_keeps _) rfl) ?_)
  exact .of_keeps (Keeps.upd_cal _ _) rfl rfl

include c

/-- A sub-channel that is not stuck, and whose step S3 does not wait, is awake. -/
theorem State.lullWoken_awake {n : Nat} (mem : n ∈ s.freeSubs) (h : (s.training n).step ≠ 13) :
    ((s.lullWoken fun n s => s.wakeUp n).sub n).awake (s.training n).step := by
  show ((foldS s.freeSubs (fun s n => s.wakeUp n) s).sub n).awake (s.training n).step
  refine foldS_reaches (f := fun s n => s.wakeUp n) (I := fun t => t.canon ∧ t.training n = s.training n)
    (Q := fun t => (t.sub n).awake (s.training n).step) mem (fun t m i => ?_) (fun t i => ?_) (fun t m ne i q => ?_) ⟨c, rfl⟩
  · obtain ⟨ct, train⟩ := i
    refine ⟨(State.wakeUp_keeps t m).canon ct, ?_⟩
    by_cases e : n = m
    · subst e
      exact (State.wakeUp_awake ct (by rw [train]; exact h)).2.trans train
    · obtain ⟨-, -, train'⟩ := t.wakeUp_undisturbed e ct
      exact train'.trans train
  · obtain ⟨ct, train⟩ := i
    have awake := (State.wakeUp_awake ct (n := n) (by rw [train]; exact h)).1
    rwa [train] at awake
  · obtain ⟨-, sub, -⟩ := t.wakeUp_undisturbed ne i.1
    exact SubCh.awake_of_lasting sub q

/-- Where no step S3 waits, waking changes the sub-channels alone. -/
theorem State.lullWoken_settled (h : s.popSubs.all (fun n => (s.training n).step != 13) = true) (none : s.stuckSubs = []) :
    Keeps [.sch, .cal, .reg Reg.CLK_LULLSTAT] s (s.lullWoken fun n s => s.wakeUp n) := by
  refine State.lullWoken_keeps ?_ (by decide)
  have alone : SubsAlone s (foldS s.freeSubs (fun s n => s.wakeUp n) s) := by
    refine List.foldlRecOn (motive := SubsAlone s) _ _ (Keeps.refl _ s) fun t k n mem => ?_
    rw [State.freeSubs_of_none none] at mem
    have cal : t.cal = s.cal := k.same c .cal (by decide)
    have train : t.training n = s.training n := by rw [State.training, cal, State.training]
    have settled : (t.training n).step ≠ 13 := by
      rw [train]
      exact bne_iff_ne.1 (List.all_eq_true.1 h n mem)
    rw [State.wakeUp_settled settled]
    exact k.trans (.after (State.writeSettings_keeps _ _ _) (by decide) (State.wakeSub_keeps t n))
  exact alone.mono (by decide)

variable (planned : s.clk.planned = true) (calm : s.clk.emerg = 0)
include planned calm

omit c in
theorem State.lullTold_planned : s.lullTold [] =
    (s.lullCounted []).event 0x9001 (s.lullCounted []).liveSet := by
  have quiet : (s.clk.emerg != 0) = false := by rw [calm]; rfl
  unfold State.lullTold
  dsimp only
  rw [quiet, planned]
  rfl

omit planned calm in
theorem State.lullTold_liveSet : (s.lullCounted []).liveSet = s.liveSet := (s.lullCounted_keeps []).fld c (by decide)

/-- What a planned Lull's end shows: counted, with its result. -/
theorem State.lullEnd_shown : Counted Reg.CLK_LULLS s ((s.lullTold []).lullClosed []) ∧
    ((s.lullTold []).lullClosed []).fld Fld.CLK_LULLSTAT.LAST_RESULT = 1 := by
  have cc := (s.lullCounted_keeps []).canon c
  have told := State.event_keeps (s.lullCounted []) 0x9001 (s.lullCounted []).liveSet
  have ct := told.canon cc
  have counted : Counted Reg.CLK_LULLS s (s.lullCounted []) := by
    refine Counted.keeps (P := [.reg Reg.CLK_LULLSTAT]) (u := s.bump Reg.CLK_LULLS) (State.fld_bump s _ 1) ?_
      ((State.bump_keeps s _ 1).canon c) (by decide)
    exact .after (State.setFld_keeps _ _ _) (by decide) (State.setFld_keeps _ _ _)
  have result : (s.lullCounted []).fld Fld.CLK_LULLSTAT.LAST_RESULT = 1 :=
    (State.fld_setFld_disjoint (f := Fld.CLK_LULLSTAT.LAST_TARGET) (g := Fld.CLK_LULLSTAT.LAST_RESULT) _ _ rfl (by decide)).trans
      (State.fld_setFld _ Fld.CLK_LULLSTAT.LAST_RESULT 1 (by decide))
  rw [State.lullTold_planned planned calm]
  have closed := State.lullClosed_keeps ((s.lullCounted []).event 0x9001 (s.lullCounted []).liveSet) []
  refine ⟨(counted.keeps told cc (by decide)).keeps closed ct (by decide), ?_⟩
  rw [closed.fld ct (by decide), told.fld cc (by decide), result]

/-- The end is recorded, where the log has room for it (R384). -/
theorem State.lullEnd_logged (room : s.log.Roomy) (on : s.top.aonOn = true) :
    Logged 0x9001 (BitVec.ofNat 32 s.liveSet) ((s.lullTold []).lullClosed []) := by
  have counted := s.lullCounted_keeps []
  have cc := counted.canon c
  have log : (s.lullCounted []).log = s.log := counted.same c .log (by decide)
  have top : (s.lullCounted []).top = s.top := counted.same c .top (by decide)
  have logged : Logged 0x9001 (BitVec.ofNat 32 (s.lullCounted []).liveSet) ((s.lullCounted []).event 0x9001 (s.lullCounted []).liveSet) :=
    State.capture_roomy (log ▸ room) (top ▸ on) (by decide) (by decide) (by decide) cc _ 0
  rw [State.lullTold_planned planned calm]
  rw [State.lullTold_liveSet c] at logged ⊢
  exact logged.keeps (State.lullClosed_keeps _ _) ((State.event_keeps _ _ _).canon cc) (by decide) (by decide)

end

/-! ### EXIT_REQUEST and SR_MIN_ELAPSED (R386) -/

theorem State.tryExit_waits {s : State} (h : s.clk.exitAsked = false ∨ s.clk.entered = false ∨ s.clk.srDone = false ∨ s.clk.ready = false) :
    s.tryExit = s := by
  unfold State.tryExit
  rw [if_neg]
  rcases h with h | h | h | h <;> simp [h]

theorem State.tryExit_ends {s : State} (lulling : s.lulling = true) (asked : s.clk.exitAsked = true) (entered : s.clk.entered = true)
    (slept : s.clk.srDone = true) (ready : s.clk.ready = true) : s.tryExit = s.endLull := by
  unfold State.tryExit
  rw [if_pos (by simp [lulling, asked, entered, slept, ready])]

/-- What the end of a planned Lull leaves, from the state `s` before the command that ends it. -/
def LullEnded (s t : State) : Prop :=
  (∀ n ∈ s.popSubs, (s.training n).step ≠ 13 → (t.sub n).awake (s.training n).step) ∧ t.fld Fld.CLK_STAT.LULL = 0 ∧
    Counted Reg.CLK_LULLS s t ∧ t.fld Fld.CLK_LULLSTAT.LAST_RESULT = 1 ∧ t.clk.planned = false ∧
    (Attentive s → Logged 0x9001 (BitVec.ofNat 32 s.liveSet) t) ∧
    (s.popSubs.all (fun n => (s.training n).step != 13) = true →
      SameBut (.sch :: .cal :: .clk :: .reg Reg.CLK_STAT :: .reg Reg.CLK_LULLSTAT :: .reg Reg.CLK_LULLS :: logParts) s t)

theorem State.endLull_ended {s : State} (c : s.canon) (planned : s.clk.planned = true) (calm : s.clk.emerg = 0)
    (none : s.stuckSubs = []) : LullEnded s s.endLull := by
  have woken := State.lullWoken_wakeUp_keeps s
  have cw := woken.canon c
  have clk : (s.lullWoken fun n s => s.wakeUp n).clk = s.clk := woken.same c .clk (by decide)
  have planned' : (s.lullWoken fun n s => s.wakeUp n).clk.planned = true := by rw [clk]; exact planned
  have calm' : (s.lullWoken fun n s => s.wakeUp n).clk.emerg = 0 := by rw [clk]; exact calm
  have eq : s.endLull = ((s.lullWoken fun n s => s.wakeUp n).lullTold []).lullClosed [] := by
    rw [State.endLull, State.endLullWith_eq, none]
  obtain ⟨counted, result⟩ := State.lullEnd_shown cw planned' calm'
  obtain ⟨shown, past, -⟩ := State.lullClosed_shown ((s.lullWoken fun n s => s.wakeUp n).lullTold []) []
  have ended := State.lullEnd_keeps (s.lullWoken fun n s => s.wakeUp n) []
  rw [eq]
  refine ⟨fun n mem h => ?_, shown, ?_, result, past, fun h => ?_, fun settled => ?_⟩
  · rw [ended.sub cw (by decide)]
    exact State.lullWoken_awake c (by rw [State.freeSubs_of_none none]; exact mem) h
  · rw [Counted, (counted : _ = _), woken.fld c (by decide)]
  · have live : (s.lullWoken fun n s => s.wakeUp n).liveSet = s.liveSet := woken.fld c (by decide)
    have top : (s.lullWoken fun n s => s.wakeUp n).top = s.top := woken.same c .top (by decide)
    rw [← live]
    exact State.lullEnd_logged cw planned' calm' ((State.lullWoken_wakeUp_calm s).roomy c h.roomy) (top ▸ h.1)
  · exact (Keeps.after ended (by decide) ((State.lullWoken_settled c settled none).mono (by decide)) c).2

/-- The clocks alone changed before the end: what it leaves speaks of the state before all the same. -/
theorem LullEnded.of_clk {s t : State} {k : ClkSt} (h : LullEnded { s with clk := k } t) (c : s.canon) : LullEnded s t := by
  obtain ⟨awake, shown, counted, result, past, logged, settled⟩ := h
  have clocks := Keeps.upd_clk s k
  refine ⟨awake, shown, counted, result, past, fun h => logged (h.keeps clocks c (by decide)), fun all p u => ?_⟩
  have apart : [Part.clk].any (Part.covers · p) = false := by
    rw [List.any_cons, List.any_nil, Bool.or_false]
    exact Bool.eq_false_iff.2 fun q => by
      rw [List.any_eq_false] at u
      exact u .clk (by decide) q
  exact Part.same_trans ((clocks c).2 p apart) (settled all p u)

section
variable {s : State} (c : s.canon)

theorem execExitRequest_held (first : s.clk.exitSeen = false) (lulling : s.lulling = true)
    (h : s.clk.ready = false ∨ s.clk.srDone = false ∨ s.clk.entered = false) :
    execExitRequest s = .next { s with clk := { s.clk with exitSeen := true, exitAsked := true } } := by
  have still : ({ s with clk := { s.clk with exitSeen := true } } : State).lulling = true := lulling
  have waits : ({ s with clk := { s.clk with exitSeen := true, exitAsked := true } } : State).tryExit =
      { s with clk := { s.clk with exitSeen := true, exitAsked := true } } :=
    State.tryExit_waits (by rcases h with h | h | h <;> simp [h])
  rw [execExitRequest, if_neg (by simp [first])]
  exact congrArg Host.Outcome.next ((if_pos still).trans waits)

theorem execExitRequest_ends (first : s.clk.exitSeen = false) (lulling : s.lulling = true) (entered : s.clk.entered = true)
    (slept : s.clk.srDone = true) (ready : s.clk.ready = true) :
    execExitRequest s = .next ({ s with clk := { s.clk with exitSeen := true, exitAsked := true } } : State).endLull := by
  have still : ({ s with clk := { s.clk with exitSeen := true } } : State).lulling = true := lulling
  have ends : ({ s with clk := { s.clk with exitSeen := true, exitAsked := true } } : State).tryExit =
      ({ s with clk := { s.clk with exitSeen := true, exitAsked := true } } : State).endLull :=
    State.tryExit_ends lulling rfl entered slept ready
  rw [execExitRequest, if_neg (by simp [first])]
  exact congrArg Host.Outcome.next ((if_pos still).trans ends)

theorem execExitRequest_ignored (first : s.clk.exitSeen = false) (none : s.lulling = false) : execExitRequest s =
    .next ((({ s with clk := { s.clk with exitSeen := true } } : State).bump Reg.CLK_LULLIGN).freeEvent 0x900A) := by
  have still : ¬({ s with clk := { s.clk with exitSeen := true } } : State).lulling = true := by
    show ¬s.lulling = true
    simp [none]
  rw [execExitRequest, if_neg (by simp [first])]
  exact congrArg Host.Outcome.next (if_neg still)

theorem execSrMinElapsed_noted (lulling : s.lulling = true) (entered : s.clk.entered = true)
    (h : s.clk.exitAsked = false ∨ s.clk.ready = false) :
    execSrMinElapsed s = .next { s with clk := { s.clk with srDone := true } } := by
  rw [execSrMinElapsed, if_pos (by simp [lulling, entered])]
  exact congrArg Host.Outcome.next (State.tryExit_waits (by rcases h with h | h <;> simp [h]))

theorem execSrMinElapsed_ends (lulling : s.lulling = true) (entered : s.clk.entered = true) (asked : s.clk.exitAsked = true)
    (ready : s.clk.ready = true) : execSrMinElapsed s = .next ({ s with clk := { s.clk with srDone := true } } : State).endLull := by
  rw [execSrMinElapsed, if_pos (by simp [lulling, entered])]
  exact congrArg Host.Outcome.next (State.tryExit_ends lulling asked entered rfl ready)

end

theorem State.lulling_of_planned {s : State} (h : s.clk.planned = true) : s.lulling = true := by simp [State.lulling, h]

/-- Settles O44: the entry, the lock and the end of a Lull, each through what its stages leave. -/
theorem lullsRun : Obligations.LullsRun := by
  unfold Obligations.LullsRun
  intro s c
  refine ⟨?_, ?_, ?_, ?_, ?_, ?_, ?_, ?_, ?_, ?_, ?_, ?_, ?_⟩
  · intro planned calm fresh none other
    obtain ⟨entered, live⟩ := State.targetLive_clk c
    obtain ⟨lull, tset⟩ := s.targetLive_shown
    have run := execLullEntryDone_planned c none fresh planned calm
    rw [if_neg other] at run
    have kept := State.setFld_keeps s.targetLive Fld.CLK_STAT.MPLL_LOCK 0
    have ct := s.targetLive_keeps.canon c
    refine Runs.intro (execLullEntryDone_keeps s) c run (by decide) ⟨fun n mem => ?_, fun n mem => ?_, entered, live, ?_, ?_,
      State.flag_setFld_zero _ (by decide)⟩
    · rw [kept.sub ct (by decide)]
      exact State.targetLive_asleep c mem
    · rw [State.flag_of_reg (kept.dll ct (by decide) n)]
      exact State.targetLive_unlocked c mem
    · rw [State.fld_setFld_disjoint (f := Fld.CLK_STAT.MPLL_LOCK) (g := Fld.CLK_STAT.LULL) _ _ rfl (by decide), lull]
    · rw [State.fld_setFld_disjoint (f := Fld.CLK_STAT.MPLL_LOCK) (g := Fld.CLK_STAT.TSET) _ _ rfl (by decide), tset]
  · intro h
    show execLullEntryDone s = _
    unfold execLullEntryDone
    dsimp only
    rw [if_neg]
    rcases h with h | h | h <;> simp [h]
  · intro planned calm fresh none same
    obtain ⟨entered, -⟩ := State.targetLive_clk c
    obtain ⟨lull, -⟩ := s.targetLive_shown
    have run := execLullEntryDone_planned c none fresh planned calm
    rw [if_pos same] at run
    have kept := State.restartCk_keeps s.targetLive
    have ct := s.targetLive_keeps.canon c
    have clk : s.targetLive.restartCk.clk = s.targetLive.clk := kept.same ct .clk (by decide)
    refine Runs.intro (execLullEntryDone_keeps s) c run (by decide) ⟨fun n mem => ?_, by rw [clk]; exact entered, ?_, ?_, fun n mem => ?_⟩
    · rw [State.flag_of_reg (kept.dll ct (by decide) n)]
      exact State.targetLive_unlocked c mem
    · rw [kept.fld ct (by decide), lull]
    · rw [kept.flag ct (by decide), State.targetLive_mpllLock c]
    · apply State.restartCk_runs ct
      rw [s.targetLive_keeps.popSubs c (by decide)]
      exact mem
  · intro emergency fresh none
    have run := execLullEntryDone_emergency c none fresh emergency
    have kept : Keeps [.sch, .clk] s { s.entryMade with clk := { s.clk with entered := true, srDone := false, estep := 3 } } :=
      .after (Keeps.upd_clk _ _) (by decide) s.entryMade_keeps
    exact ⟨_, run, (kept c).2, fun n mem => State.entryMade_asleep c mem, rfl⟩
  · intro band searched lulling entered unlocked step settling taken
    have run := execMpllLock_locks (searched := searched) lulling entered unlocked step taken
    rw [State.locked_waits c settling] at run
    refine ⟨_, run, ((s.locked_keeps band searched) c).2, fun n mem => State.locked_runs c mem, State.locked_mpllLock c,
      State.locked_clk c, fun search => ?_, fun quick => ?_⟩
    · subst search
      exact State.locked_found c
    · subst quick
      exact (Keeps.after (s.locked_after band false) (P := [.sch, .clk, .reg Reg.CLK_STAT]) (by decide)
        ((Keeps.upd_clk s _).mono (by decide))).same c .log (by decide)
  · intro band searched h
    show execMpllLock band searched s = _
    unfold execMpllLock
    dsimp only
    rw [if_neg]
    rcases h with h | h | h <;> simp [h]
  · intro first lulling h
    exact ⟨_, execExitRequest_held first lulling h, ((Keeps.upd_clk s _) c).2, rfl⟩
  · intro seen
    show execExitRequest s = _
    rw [execExitRequest, if_pos seen]
  · intro first planned calm entered slept ready none
    have ended := (State.endLull_ended (s := { s with clk := { s.clk with exitSeen := true, exitAsked := true } })
      ((Keeps.upd_clk s _).canon c) planned calm none).of_clk c
    exact Runs.intro (execExitRequest_keeps s) c (execExitRequest_ends first (State.lulling_of_planned planned) entered slept ready)
      (by decide) ended
  · intro first none
    have seen := Keeps.upd_clk s { s.clk with exitSeen := true }
    have counted : Keeps [.clk, .reg Reg.CLK_LULLIGN] s (({ s with clk := { s.clk with exitSeen := true } } : State).bump Reg.CLK_LULLIGN) :=
      .after (State.bump_keeps _ _ _) (by decide) (seen.mono (by decide))
    have cc := counted.canon c
    have told := State.freeEvent_keeps (({ s with clk := { s.clk with exitSeen := true } } : State).bump Reg.CLK_LULLIGN) 0x900A
    refine ⟨_, execExitRequest_ignored first none, ((Keeps.after told (by decide) (counted.mono (by decide))) c).2, ?_, ?_, fun h => ?_⟩
    · exact told.same cc .clk (by decide)
    · exact Counted.keeps (Counted.bump_after seen c (by decide)) told cc (by decide)
    · exact State.freeEvent_logged (h.keeps counted c (by decide)) (by decide)
  · intro lulling entered h
    exact ⟨_, execSrMinElapsed_noted lulling entered h, ((Keeps.upd_clk s _) c).2, rfl⟩
  · intro h
    show execSrMinElapsed s = _
    rw [execSrMinElapsed, if_neg]
    rcases h with h | h <;> simp [h]
  · intro planned calm entered asked ready none
    obtain ⟨awake, shown, counted, -, past, -, settled⟩ :=
      (State.endLull_ended (s := { s with clk := { s.clk with srDone := true } }) ((Keeps.upd_clk s _).canon c) planned calm none).of_clk c
    exact Runs.intro (execSrMinElapsed_keeps s) c (execSrMinElapsed_ends (State.lulling_of_planned planned) entered asked ready)
      (by decide) ⟨awake, shown, counted, past, settled⟩

end Sys2Proof.Machine
end

section
/-!
An emergency Lull begins (R387 E1, R389).
-/

set_option Elab.async false

namespace Sys2Proof.Machine

/-! ### Every sub-channel is held (R307, R384) -/

theorem State.abandonCal_mild (s : State) (p row : Nat) : Mild s (s.abandonCal p row) := by
  unfold State.abandonCal
  split
  · refine .via (State.pendToDue_mild _ _) (.via (State.event_mild _ _ _) (.trans (b :=
      ((s.setRun p Option.none).writeCal p).bump Reg.CAL_ABANDONED) ?_ (.ite (.apart (State.endDir_keeps _ _) rfl) (.refl _ _))))
    exact .via (.apart (State.bump_keeps _ _ _) rfl) (.via (State.writeCal_calm trivial _ _) (s.setRun_mild p _))
  · exact .refl _ s

theorem State.holdAll_mild (s : State) : Mild s s.holdAll :=
  .foldS _ _ (fun t n => .via (State.abandonCal_mild _ _ _) (.via (State.abandonCal_mild _ _ _) (t.onSub_calm n _))) s

theorem State.holdAll_held {s : State} (c : s.canon) {n : Nat} (mem : n ∈ s.popSubs) : (s.holdAll.sub n).held = true := by
  have round : ∀ (t : State) (m : Nat), t.canon → ((t.onSub m fun c => { c with held := true }).abandonSub m 2).canon := fun t m ct =>
    (State.abandonSub_keeps _ m 2).canon ((State.onSub_keeps t m _).canon ct)
  have lasts : ∀ {c d : SubCh}, d.lasting = c.lasting → c.held = true → d.held = true := fun e h => (congrArg SubCh.held e : _).trans h
  refine foldS_reaches (f := fun s n => (s.onSub n fun c => { c with held := true }).abandonSub n 2) (I := State.canon)
    (Q := fun t => (t.sub n).held = true) mem round (fun t ct => ?_) (fun t m ne ct held => ?_) c
  · obtain ⟨-, sub, -⟩ := State.abandonSub_undisturbed (n := n) _ n 2 ((State.onSub_keeps t n fun c => { c with held := true }).canon ct)
    exact lasts sub (by rw [State.sub_onSub])
  · obtain ⟨-, sub, -⟩ := (t.onSub_undisturbed ne fun c => { c with held := true }).trans (State.abandonSub_undisturbed _ m 2) ct
    exact lasts sub held

/-! ### No Lull in progress -/

/-- The loss is counted and told. -/
def State.emergencyTold (s : State) (cause : Nat) : State :=
  ((({ s with clk := { s.clk with spread := none } } : State).dropLocks cause).bump Reg.CLK_EMERG).event 0x9005 cause

/-- Step E2 begins. -/
def State.emergencySet (s : State) (cause : Nat) : State :=
  { s with clk := { s.clk with
    began := s.time.elapsed, emerg := cause, estep := 2, entered := false, ready := false, exitAsked := false, srDone := false } }

/-- An emergency Lull out of no Lull. -/
def State.emergencyBegun (s : State) (cause : Nat) : State :=
  ((s.emergencyTold cause).emergencySet cause).holdAll.setFld Fld.CLK_STAT.LULL 4

/-- The rest of the start, once told: where a planned Lull was in progress, `before` its entry or `past` it. -/
def State.emergencyEntered (s : State) (cause : Nat) (before past : Bool) : State :=
  let s := if before then
      ({ s with clk := { s.clk with planned := false } }).setFld Fld.CLK_LULLSTAT.LAST_RESULT 2
    else s
  let s := if before then (s.setFld Fld.CLK_LULLSTAT.LAST_TARGET s.clk.target).event 0x9002 1 else s
  let s := if s.clk.planned || before then s else { s with clk := { s.clk with began := s.time.elapsed } }
  let s := { s with clk := { s.clk with
    emerg := cause, estep := if past then 3 else 2, entered := past, ready := false, exitAsked := false,
    srDone := past && s.clk.srDone } }
  let s := if past then s else s.holdAll
  s.setFld Fld.CLK_STAT.LULL 4

theorem State.emergencyEntered_none {s : State} (h : s.clk.planned = false) (cause : Nat) :
    s.emergencyEntered cause false false = (s.emergencySet cause).holdAll.setFld Fld.CLK_STAT.LULL 4 := by
  have begins : (if (s.clk.planned || false) = true then s else { s with clk := { s.clk with began := s.time.elapsed } }) =
      { s with clk := { s.clk with began := s.time.elapsed } } := if_neg (by simp [h])
  exact congrArg (fun x : State => (State.holdAll { x with clk := { x.clk with
    emerg := cause, estep := 2, entered := false, ready := false, exitAsked := false, srDone := false } }).setFld Fld.CLK_STAT.LULL 4) begins

/-- The states in which the loss of a clock begins an emergency Lull. -/
def TopState.clocked (t : TopState) : Prop := t = .train ∨ t = .join ∨ t = .service ∨ t = .restore

section
variable {s : State} (c : s.canon) (cause : Nat)

theorem State.emergencyTold_keeps (s : State) (cause : Nat) :
    Keeps (.clk :: .reg Reg.CLK_STAT :: .reg Reg.CLK_EMERG :: logParts) s (s.emergencyTold cause) :=
  .after (State.event_keeps _ _ _) (by decide) (.after (State.bump_keeps _ _ _) (by decide)
    (.after (State.dropLocks_keeps _ _) (by decide) ((Keeps.upd_clk s _).mono (by decide))))

theorem State.emergencySet_keeps (s : State) (cause : Nat) : Keeps [.clk] s (s.emergencySet cause) := Keeps.upd_clk s _

/-- What an emergency Lull out of no Lull may change. -/
def emergencyParts : List Part :=
  .ord :: .sch :: .cal :: .clk :: .reg Reg.ORD_FWD :: .reg Reg.CAL_ABANDONED :: .reg Reg.CLK_STAT :: .reg Reg.CLK_EMERG ::
    .links :: .twin :: .mir :: .reg Reg.ORD_LINEHOLD :: .reg Reg.ECC_SEALFAIL :: .reg Reg.ECC_FIRSTFAIL :: logParts

theorem State.emergencyBegun_keeps (s : State) (cause : Nat) : Keeps emergencyParts s (s.emergencyBegun cause) :=
  .after (State.setFld_keeps _ _ _) (by decide) (.after (State.holdAll_keeps _) (by decide)
    (.after (State.emergencySet_keeps _ cause) (by decide) ((s.emergencyTold_keeps cause).mono (by decide))))

include c

theorem State.emergencyTold_clk : (s.emergencyTold cause).clk = { s.clk with spread := none } := by
  have cu := (Keeps.upd_clk s { s.clk with spread := none }).canon c
  have later : Keeps (.reg Reg.CLK_STAT :: .reg Reg.CLK_EMERG :: logParts) { s with clk := { s.clk with spread := none } }
      (s.emergencyTold cause) :=
    .after (State.event_keeps _ _ _) (by decide) (.after (State.bump_keeps _ _ _) (by decide)
      ((State.dropLocks_keeps _ _).mono (by decide)))
  exact later.same cu .clk (by decide)

variable (state : s.top.state.clocked) (calm : s.clk.emerg = 0)
include state calm

theorem State.startEmergency_entered :
    s.startEmergency cause = (s.emergencyTold cause).emergencyEntered cause (s.clk.planned && !s.clk.entered)
      (s.clk.planned && s.clk.entered) := by
  have clk : (({ s with clk := { s.clk with spread := none } } : State).dropLocks cause).clk = { s.clk with spread := none } :=
    (State.dropLocks_keeps _ cause).same ((Keeps.upd_clk s _).canon c) .clk (by decide)
  have planned : (({ s with clk := { s.clk with spread := none } } : State).dropLocks cause).clk.planned = s.clk.planned := by rw [clk]
  have entered : (({ s with clk := { s.clk with spread := none } } : State).dropLocks cause).clk.entered = s.clk.entered := by rw [clk]
  have none : ¬(s.clk.emerg != 0) = true := by simp [calm]
  rw [← planned, ← entered]
  unfold State.startEmergency
  rcases state with h | h | h | h <;> rw [h] <;> exact if_neg none

theorem State.startEmergency_begins (none : s.clk.planned = false) : s.startEmergency cause = s.emergencyBegun cause := by
  have told : (s.emergencyTold cause).clk.planned = false := by rw [State.emergencyTold_clk c cause]; exact none
  rw [State.startEmergency_entered c cause state calm, none, Bool.false_and, Bool.false_and, State.emergencyEntered_none told]
  rfl

end

/-! What the start leaves. -/

section
variable {s : State} (c : s.canon) (cause : Nat)
include c

theorem State.emergencyBegun_clk : (s.emergencyBegun cause).clk = { s.clk with
    spread := none, began := s.time.elapsed, emerg := cause, estep := 2, entered := false, ready := false, exitAsked := false,
    srDone := false } := by
  have told := s.emergencyTold_keeps cause
  have ct := told.canon c
  have cs := (State.emergencySet_keeps _ cause).canon ct
  have held : Keeps (.reg Reg.CLK_STAT :: State.holdAll_parts) ((s.emergencyTold cause).emergencySet cause) (s.emergencyBegun cause) :=
    .after (State.setFld_keeps _ _ _) (by decide) ((State.holdAll_keeps _).mono (by decide))
  have clk := held.same cs .clk (by decide)
  have time : (s.emergencyTold cause).time = s.time := told.same c .time (by decide)
  refine Eq.trans clk ?_
  rw [State.emergencySet, State.emergencyTold_clk c cause, time]

theorem State.emergencyBegun_counted : Counted Reg.CLK_EMERG s (s.emergencyBegun cause) := by
  have dropped : Keeps [.clk, .reg Reg.CLK_STAT] s (({ s with clk := { s.clk with spread := none } } : State).dropLocks cause) :=
    .after (State.dropLocks_keeps _ _) (by decide) ((Keeps.upd_clk s _).mono (by decide))
  have cb := (State.bump_keeps _ Reg.CLK_EMERG 1).canon (dropped.canon c)
  have told : Counted Reg.CLK_EMERG s (s.emergencyTold cause) :=
    (Counted.bump_after dropped c (by decide)).keeps (State.event_keeps _ _ _) cb (by decide)
  have rest : Keeps (.clk :: .reg Reg.CLK_STAT :: State.holdAll_parts) (s.emergencyTold cause) (s.emergencyBegun cause) :=
    .after (State.setFld_keeps _ _ _) (by decide) (.after (State.holdAll_keeps _) (by decide)
      ((State.emergencySet_keeps _ cause).mono (by decide)))
  exact told.keeps rest ((s.emergencyTold_keeps cause).canon c) (by decide)

omit c in
theorem State.emergencyBegun_lull (s : State) (cause : Nat) : (s.emergencyBegun cause).fld Fld.CLK_STAT.LULL = 4 :=
  State.fld_setFld _ Fld.CLK_STAT.LULL 4 (by decide)

theorem State.emergencyBegun_held {n : Nat} (mem : n ∈ s.popSubs) : ((s.emergencyBegun cause).sub n).held = true := by
  have told := s.emergencyTold_keeps cause
  have set : Keeps (.clk :: .reg Reg.CLK_STAT :: .reg Reg.CLK_EMERG :: logParts) s ((s.emergencyTold cause).emergencySet cause) :=
    .after (State.emergencySet_keeps _ cause) (by decide) told
  have cs := set.canon c
  have shown := State.setFld_keeps ((s.emergencyTold cause).emergencySet cause).holdAll Fld.CLK_STAT.LULL 4
  rw [State.emergencyBegun, shown.sub ((State.holdAll_keeps _).canon cs) (by decide)]
  apply State.holdAll_held cs
  rw [set.popSubs c (by decide)]
  exact mem

/-- A lock shown in `CLK_STAT` is lost at most with the reference. -/
theorem State.emergencyBegun_flag {g : Fld} (stat : g.addr = Reg.CLK_STAT) (below : g.hi < 12) :
    (s.emergencyBegun cause).flag g = (s.dropLocks cause).flag g := by
  have cu := (Keeps.upd_clk s { s.clk with spread := none }).canon c
  have dropped := (State.dropLocks_keeps ({ s with clk := { s.clk with spread := none } } : State) cause).canon cu
  have rest : Keeps (.clk :: .reg Reg.CLK_EMERG :: State.holdAll_parts)
      (({ s with clk := { s.clk with spread := none } } : State).dropLocks cause) ((s.emergencyTold cause).emergencySet cause).holdAll :=
    .after (State.holdAll_keeps _) (by decide) (.after (State.emergencySet_keeps _ cause) (by decide)
      (.after (State.event_keeps _ _ _) (by decide) ((State.bump_keeps _ _ _).mono (by decide))))
  rw [State.emergencyBegun, State.flag_setFld_disjoint (f := Fld.CLK_STAT.LULL) _ _ stat (Or.inl below),
    rest.flag dropped (by rw [stat]; decide)]
  unfold State.dropLocks
  split <;> rfl

/-- The loss is recorded, where the log takes it. -/
theorem State.emergencyBegun_logged (on : s.top.aonOn = true) (room : s.log.Takes 0x9005 0) :
    Logged 0x9005 (BitVec.ofNat 32 cause) (s.emergencyBegun cause) := by
  have counted : Keeps [.clk, .reg Reg.CLK_STAT, .reg Reg.CLK_EMERG] s
      ((({ s with clk := { s.clk with spread := none } } : State).dropLocks cause).bump Reg.CLK_EMERG) :=
    .after (State.bump_keeps _ _ _) (by decide) (.after (State.dropLocks_keeps _ _) (by decide) ((Keeps.upd_clk s _).mono (by decide)))
  have cc := counted.canon c
  have log := counted.same c .log (by decide)
  have top := counted.same c .top (by decide)
  have told : Logged 0x9005 (BitVec.ofNat 32 cause) (s.emergencyTold cause) :=
    State.capture_start_taken (i := 0) (by rw [show _ = s.top from top]; exact on) cc (by rw [show _ = s.log from log]; exact room)
      (by decide) (by decide) (by decide) _ 0
  have rd : (s.emergencyTold cause).log.rdLog ≤ (s.emergencyTold cause).log.ring.length :=
    (State.capture_holds _ _ _ _ (by rw [show _ = s.log from log]; exact room.1)).1
  have mild : Mild (s.emergencyTold cause) (s.emergencyBegun cause) :=
    .via (.apart (State.setFld_keeps _ _ _) rfl) (.via (State.holdAll_mild _) (.apart (State.emergencySet_keeps _ cause) rfl))
  exact mild.logged ((s.emergencyTold_keeps cause).canon c) rd told

end

end Sys2Proof.Machine
end

section
/-!
The loss of the reference and of a PLL's lock (R371, R387 to R389).
-/

set_option Elab.async false

namespace Sys2Proof.Machine

/-! ### A planned Lull that has not been entered is taken over (R389) -/

/-- The planned Lull ends with the reason of an emergency. -/
def State.lullTaken (s : State) : State :=
  let s := ({ s with clk := { s.clk with planned := false } } : State).setFld Fld.CLK_LULLSTAT.LAST_RESULT 2
  (s.setFld Fld.CLK_LULLSTAT.LAST_TARGET s.clk.target).event 0x9002 1

/-- Step E2 begins at once. -/
def State.takenSet (s : State) (cause : Nat) : State :=
  { s with clk := { s.clk with emerg := cause, estep := 2, entered := false, ready := false, exitAsked := false, srDone := false } }

theorem State.emergencyEntered_before (s : State) (cause : Nat) :
    s.emergencyEntered cause true false = ((s.lullTaken.takenSet cause).holdAll).setFld Fld.CLK_STAT.LULL 4 := by
  have stands : (if (s.lullTaken.clk.planned || true) = true then s.lullTaken
      else { s.lullTaken with clk := { s.lullTaken.clk with began := s.lullTaken.time.elapsed } }) = s.lullTaken :=
    if_pos (Bool.or_true _)
  exact congrArg (fun x : State => ((x.takenSet cause).holdAll).setFld Fld.CLK_STAT.LULL 4) stands

theorem State.lullTaken_keeps (s : State) : Keeps (.clk :: .reg Reg.CLK_LULLSTAT :: logParts) s s.lullTaken :=
  .after (State.event_keeps _ _ _) (by decide) (.after (State.setFld_keeps _ _ _) (by decide) (.after (State.setFld_keeps _ _ _) (by decide)
    ((Keeps.upd_clk s _).mono (by decide))))

section
variable {s : State} (c : s.canon)
include c

theorem State.lullTaken_clk : s.lullTaken.clk = { s.clk with planned := false } := by
  have cu := (Keeps.upd_clk s { s.clk with planned := false }).canon c
  have rest : Keeps (.reg Reg.CLK_LULLSTAT :: logParts) { s with clk := { s.clk with planned := false } } s.lullTaken :=
    .after (State.event_keeps _ _ _) (by decide) (.after (State.setFld_keeps _ _ _) (by decide) ((State.setFld_keeps _ _ _).mono (by decide)))
  exact rest.same cu .clk (by decide)

theorem State.lullTaken_result : s.lullTaken.fld Fld.CLK_LULLSTAT.LAST_RESULT = 2 := by
  have shown : Keeps [.clk, .reg Reg.CLK_LULLSTAT] s ((({ s with clk := { s.clk with planned := false } } : State).setFld
      Fld.CLK_LULLSTAT.LAST_RESULT 2).setFld Fld.CLK_LULLSTAT.LAST_TARGET s.clk.target) :=
    .after (State.setFld_keeps _ _ _) (by decide) (.after (State.setFld_keeps _ _ _) (by decide) ((Keeps.upd_clk s _).mono (by decide)))
  refine ((State.event_keeps _ 0x9002 1).fld (shown.canon c) (f := Fld.CLK_LULLSTAT.LAST_RESULT) (by decide)).trans ?_
  exact (State.fld_setFld_disjoint (f := Fld.CLK_LULLSTAT.LAST_TARGET) (g := Fld.CLK_LULLSTAT.LAST_RESULT) _ _ rfl (by decide)).trans
    (State.fld_setFld _ Fld.CLK_LULLSTAT.LAST_RESULT 2 (by decide))

theorem State.emergencyEntered_taken (cause : Nat) : (s.emergencyEntered cause true false).clk.planned = false ∧
    (s.emergencyEntered cause true false).clk.emerg = cause ∧
    (s.emergencyEntered cause true false).fld Fld.CLK_LULLSTAT.LAST_RESULT = 2 ∧
    (s.emergencyEntered cause true false).fld Fld.CLK_STAT.LULL = 4 := by
  have taken := s.lullTaken_keeps
  have ct := taken.canon c
  have set : Keeps [.clk] s.lullTaken (s.lullTaken.takenSet cause) := Keeps.upd_clk _ _
  have cs := set.canon ct
  have held : Keeps (.reg Reg.CLK_STAT :: State.holdAll_parts) (s.lullTaken.takenSet cause)
      ((s.lullTaken.takenSet cause).holdAll.setFld Fld.CLK_STAT.LULL 4) :=
    .after (State.setFld_keeps _ _ _) (by decide) ((State.holdAll_keeps _).mono (by decide))
  have clk : ((s.lullTaken.takenSet cause).holdAll.setFld Fld.CLK_STAT.LULL 4).clk = (s.lullTaken.takenSet cause).clk :=
    held.same cs .clk (by decide)
  rw [State.emergencyEntered_before, clk, held.fld cs (by decide), set.fld ct (by decide), State.lullTaken_result c, State.takenSet,
    State.lullTaken_clk c]
  exact ⟨rfl, rfl, rfl, State.fld_setFld _ Fld.CLK_STAT.LULL 4 (by decide)⟩

end

/-- An attentive log takes an event after a plain one. -/
theorem Attentive.takes_after {s : State} (h : Attentive s) {code other : BitVec 16} (plain : intervalOf other = .plain)
    (general : mayUseLast other = false) (ne : other ≠ code) (data : Nat) : (s.event other data).log.Takes code 0 :=
  have room : s.log.Takes code (233 + 7) := h.takes code
  (State.capture_takes (s := s) (code := code) (n := 233) h.1 _ 0 room plain general ne).mono (Nat.zero_le _)

/-! ### REFCLK_LOST (R371, R387) -/

/-- The missing input is noted, shown and counted. -/
def State.refNoted (s : State) : State :=
  (({ s with clk := { s.clk with refIn := false } } : State).setFld Fld.CLK_STAT.REF_OK 0).bump Reg.CLK_REFLOSS

/-- The loss of the reference is recorded with the source that is left. -/
def State.refTold (s : State) : State := s.refNoted.event 0x9003 (if s.refNoted.flag Fld.CLK_STAT.BYP_OK then 1 else 2)

theorem execRefclkLost_on {s : State} (on : s.top.coreOn = true) : execRefclkLost s = .next (s.refTold.startEmergency 1) := by
  unfold execRefclkLost
  exact congrArg Host.Outcome.next (if_pos on)

theorem State.refNoted_keeps (s : State) : Keeps [.clk, .reg Reg.CLK_STAT, .reg Reg.CLK_REFLOSS] s s.refNoted :=
  .after (State.bump_keeps _ _ _) (by decide) (.after (State.setFld_keeps _ _ _) (by decide) ((Keeps.upd_clk s _).mono (by decide)))

theorem State.refTold_keeps (s : State) : Keeps (.clk :: .reg Reg.CLK_STAT :: .reg Reg.CLK_REFLOSS :: logParts) s s.refTold :=
  .after (State.event_keeps _ _ _) (by decide) (s.refNoted_keeps.mono (by decide))

/-- Of the clocks the missing input alone changes. -/
theorem State.refTold_clk {s : State} (c : s.canon) : s.refTold.clk = { s.clk with refIn := false } :=
  (State.event_keeps _ _ _).same (s.refNoted_keeps.canon c) .clk (by decide)

section
variable {s : State} (c : s.canon)
include c

theorem State.refTold_top : s.refTold.top = s.top := s.refTold_keeps.same c .top (by decide)

theorem State.refNoted_stat {g : Fld} (stat : g.addr = Reg.CLK_STAT) (apart : g.hi < 6 ∨ 6 < g.lo) : s.refNoted.flag g = s.flag g := by
  have cu := (Keeps.upd_clk s { s.clk with refIn := false }).canon c
  have cs := (State.setFld_keeps _ Fld.CLK_STAT.REF_OK 0).canon cu
  rw [State.refNoted, (State.bump_keeps _ _ _).flag cs (by rw [stat]; decide),
    State.flag_setFld_disjoint (f := Fld.CLK_STAT.REF_OK) _ _ stat apart]
  rfl

theorem State.refTold_refOk : s.refTold.flag Fld.CLK_STAT.REF_OK = false := by
  have cu := (Keeps.upd_clk s { s.clk with refIn := false }).canon c
  have cs := (State.setFld_keeps _ Fld.CLK_STAT.REF_OK 0).canon cu
  rw [State.refTold, (State.event_keeps _ _ _).flag (s.refNoted_keeps.canon c) (by decide), State.refNoted,
    (State.bump_keeps _ _ _).flag cs (by decide), State.flag_setFld_zero _ (by decide)]

theorem State.refTold_counted : Counted Reg.CLK_REFLOSS s s.refTold := by
  have shown : Keeps [.clk, .reg Reg.CLK_STAT] s (({ s with clk := { s.clk with refIn := false } } : State).setFld Fld.CLK_STAT.REF_OK 0) :=
    .after (State.setFld_keeps _ _ _) (by decide) ((Keeps.upd_clk s _).mono (by decide))
  exact (Counted.bump_after shown c (by decide)).keeps (State.event_keeps _ _ _) (s.refNoted_keeps.canon c) (by decide)

theorem State.refTold_logged (h : Attentive s) :
    Logged 0x9003 (if s.flag Fld.CLK_STAT.BYP_OK = true then 1 else 2) s.refTold := by
  have logged : Logged 0x9003 (BitVec.ofNat 32 (if s.refNoted.flag Fld.CLK_STAT.BYP_OK then 1 else 2)) s.refTold :=
    State.capture_logged (h.keeps s.refNoted_keeps c (by decide)) (by decide) _ 0
  rw [State.refNoted_stat c rfl (by decide)] at logged
  cases byp : s.flag Fld.CLK_STAT.BYP_OK <;> rw [byp] at logged <;> exact logged

/-- One event leaves room for the emergency's. -/
theorem State.refTold_takes (h : Attentive s) : s.refTold.log.Takes 0x9005 0 := by
  have ready := h.keeps s.refNoted_keeps c (by decide)
  exact ready.takes_after (other := 0x9003) (by decide) (by decide) (by decide) _

end

end Sys2Proof.Machine
end

section
/-!
The PLLs relock on the reference at hand, and back on REFCLK (R376, R387 E3 to E5).
-/

set_option Elab.async false

namespace Sys2Proof.Machine

/-! ### A commit and the loss of every lock, in `CLK_STAT` -/

/-- A field of `CLK_STAT` beside `TSET` stands through a commit. -/
theorem State.commit_stat (s : State) (t : Nat) (osc : Bool) {g : Fld} (stat : g.addr = Reg.CLK_STAT) (h : g.hi < 10 ∨ 11 < g.lo) :
    (s.commit t osc).fld g = s.fld g :=
  (State.fld_setFld_disjoint (f := Fld.CLK_STAT.TSET) _ t stat h).trans rfl

theorem State.unlockAll_stat (s : State) {g : Fld} (stat : g.addr = Reg.CLK_STAT) : s.unlockAll.fld g = s.fld g :=
  State.fld_of_reg (State.unlockAll_reg s (Or.inl (by rw [stat]; decide)))

/-- Whether a delay line is stuck is not forgotten with its lock. -/
theorem State.unlockAll_stuck (s : State) (n : Nat) : s.unlockAll.dllStuck n = s.dllStuck n := by
  have folded : ∀ (l : List Nat) (t : State),
      (foldS l (fun s n => s.setFld (Fld.CLK_DLL.LOCKED n) 0) t).fld (Fld.CLK_DLL.STUCK n) = t.fld (Fld.CLK_DLL.STUCK n) := by
    intro l
    induction l with
    | nil => exact fun t => rfl
    | cons m r ih =>
      intro t
      refine (ih _).trans ?_
      by_cases e : n % 16 = m % 16
      · have same : Fld.CLK_DLL.STUCK n = Fld.CLK_DLL.STUCK m := by simp only [Fld.CLK_DLL.STUCK, e]
        rw [same]
        exact State.fld_setFld_disjoint (f := Fld.CLK_DLL.LOCKED m) (g := Fld.CLK_DLL.STUCK m) t 0 rfl (Or.inl (Nat.lt_succ_self 30))
      · exact State.fld_setFld_other t 0 (by simp only [ne_eq]; omega)
  rw [State.dllStuck, State.dllStuck, State.flag, State.flag]
  exact congrArg (· != 0) (folded s.popSubs s)

/-! ### The setting in force on another reference (R375, R387 E3) -/

/-- Every lock is lost, and the setting of the set in force is committed for the source `src`. -/
def State.relit (s : State) (src : Nat) : State := ((s.setFld Fld.CLK_STAT.REFSRC src).unlockAll).commit s.liveSet (src == 2)

/-- A field of `CLK_STAT` beside `TSET` tells of the source alone. -/
theorem State.relit_stat (s : State) (src : Nat) {g : Fld} (stat : g.addr = Reg.CLK_STAT) (below : g.hi < 10) :
    (s.relit src).fld g = (s.setFld Fld.CLK_STAT.REFSRC src).fld g := by
  rw [State.relit, State.commit_stat _ _ _ stat (Or.inl below), State.unlockAll_stat _ stat]

theorem State.relit_refsrc (s : State) {src : Nat} (h : src < 4) : (s.relit src).fld Fld.CLK_STAT.REFSRC = src := by
  rw [State.relit_stat s src rfl (by decide), State.fld_setFld s Fld.CLK_STAT.REFSRC src (by decide)]
  exact Nat.mod_eq_of_lt h

/-- The other flags of `CLK_STAT` stand. -/
theorem State.relit_flag (s : State) (src : Nat) {g : Fld} (stat : g.addr = Reg.CLK_STAT) (below : g.hi < 8) :
    (s.relit src).flag g = s.flag g := by
  rw [State.flag, State.relit_stat s src stat (Nat.lt_trans below (by decide)),
    State.fld_setFld_disjoint (f := Fld.CLK_STAT.REFSRC) _ _ stat (Or.inl below), State.flag]

theorem State.relit_liveSet (s : State) (src : Nat) : (s.relit src).liveSet = s.liveSet :=
  (State.commit_tset _ _ _).trans (Nat.mod_eq_of_lt (State.fld_lt s Fld.CLK_STAT.TSET))

/-- The losses of lock leave the set in force. -/
theorem State.unlocked_liveSet (s : State) (src : Nat) : (s.setFld Fld.CLK_STAT.REFSRC src).unlockAll.liveSet = s.liveSet := by
  rw [State.liveSet, State.unlockAll_stat _ rfl,
    State.fld_setFld_disjoint (f := Fld.CLK_STAT.REFSRC) (g := Fld.CLK_STAT.TSET) _ _ rfl (by decide), State.liveSet]

theorem State.relit_keeps (s : State) (src : Nat) : Keeps [.clk, .block 0x9] s (s.relit src) :=
  .after (State.commit_keeps _ _ _) (by decide) (.after (State.unlockAll_keeps _) (by decide) ((State.setFld_keeps s _ _).mono (by decide)))

theorem State.unlocked_tset (s : State) (src n : Nat) :
    (s.setFld Fld.CLK_STAT.REFSRC src).unlockAll.reg (Reg.CLK_TSET n) = s.reg (Reg.CLK_TSET n) := by
  have range : Reg.CLK_TSET n < 0x090040 ∧ Reg.CLK_STAT < Reg.CLK_TSET n := by
    show 0x090010 + 0x4 * (n % 4) < 0x090040 ∧ 0x090000 < 0x090010 + 0x4 * (n % 4)
    omega
  rw [State.unlockAll_reg _ (Or.inl range.1), State.reg_setFld_other s src (Nat.ne_of_gt range.2)]

section
variable {s : State} (c : s.canon) (src : Nat)
include c

theorem State.unlocked_canon : (s.setFld Fld.CLK_STAT.REFSRC src).unlockAll.canon :=
  (State.unlockAll_keeps _).canon ((State.setFld_keeps s _ _).canon c)

/-- The registers beside `CLK_STAT` and those of the delay lines stand. -/
theorem State.relit_reg {a : Nat} (range : a < 0x090040 ∨ 0x090080 ≤ a) (other : a ≠ Reg.CLK_STAT) : (s.relit src).reg a = s.reg a := by
  have apart : State.commit_parts.any (Part.covers · (.reg a)) = false := by
    have away : Part.covers (.reg Reg.CLK_STAT) (.reg a) = false := decide_eq_false fun e => other (Part.reg.inj e).symm
    rw [State.commit_parts, List.any_cons, List.any_cons, away]
    rfl
  rw [State.relit, (State.commit_keeps _ _ _).reg (State.unlocked_canon c src) apart, State.unlockAll_reg _ range,
    State.reg_setFld_other s src other]

theorem State.relit_tset (n : Nat) : (s.relit src).reg (Reg.CLK_TSET n) = s.reg (Reg.CLK_TSET n) := by
  rw [State.relit, (State.commit_keeps _ _ _).tset (State.unlocked_canon c src) (by decide), State.unlocked_tset]

theorem State.relit_unlocked {n : Nat} (mem : n ∈ s.popSubs) : (s.relit src).flag (Fld.CLK_DLL.LOCKED n) = false := by
  rw [State.relit, State.flag_of_reg ((State.commit_keeps _ _ _).dll (State.unlocked_canon c src) (by decide) n)]
  apply State.unlockAll_unlocked
  rw [(State.setFld_keeps s Fld.CLK_STAT.REFSRC src).popSubs c (by decide)]
  exact mem

/-- Whether a delay line is stuck is kept. -/
theorem State.relit_stuck (n : Nat) : (s.relit src).dllStuck n = s.dllStuck n := by
  have line : (s.relit src).dllStuck n = (s.setFld Fld.CLK_STAT.REFSRC src).unlockAll.dllStuck n :=
    State.flag_of_reg ((State.commit_keeps _ _ _).dll (State.unlocked_canon c src) (by decide) n)
  rw [line, State.unlockAll_stuck]
  refine State.flag_of_reg (State.reg_setFld_other s src ?_)
  show 0x090040 + 0x4 * (n % 16) ≠ 0x090000
  omega

/-- The setting of the set in force is live, with its stored band. -/
theorem State.relit_clk : (s.relit src).clk = { s.clk with
    spread := none, retries := [], ready := false, mpllPend := s.setOf s.liveSet (src == 2), mpllLive := s.setOf s.liveSet (src == 2),
    cpllLive := s.clk.cpllPend, band := (s.setOf s.liveSet (src == 2)).band } := by
  have sets : (s.setFld Fld.CLK_STAT.REFSRC src).unlockAll.setOf s.liveSet (src == 2) = s.setOf s.liveSet (src == 2) :=
    State.setOf_of_reg (s.unlocked_tset src) _ _
  have shown := State.setFld_keeps s Fld.CLK_STAT.REFSRC src
  have clk : (s.setFld Fld.CLK_STAT.REFSRC src).clk = s.clk := shown.same c .clk (by decide)
  rw [State.relit, State.commit_clk, sets, State.unlockAll_clk (shown.canon c), clk]

end

/-! ### Back on REFCLK (R387 E5) -/

theorem State.emergencyBack_eq (s : State) : s.emergencyBack =
    (({ s.relit 0 with clk := { (s.relit 0).clk with estep := 5 } } : State).setFld Fld.CLK_STAT.MPLL_LOCK 0).setFld
      Fld.CLK_STAT.LULL 5 := rfl

/-- Once the setting is live on REFCLK, the clocks and `CLK_STAT` change. -/
theorem State.emergencyBack_after (s : State) : Keeps [.clk, .reg Reg.CLK_STAT] (s.relit 0) s.emergencyBack :=
  .after (State.setFld_keeps _ _ _) (by decide) (.after (State.setFld_keeps _ _ _) (by decide) ((Keeps.upd_clk (s.relit 0) _).mono (by decide)))

theorem State.emergencyBack_shown (s : State) : s.emergencyBack.fld Fld.CLK_STAT.LULL = 5 ∧
    s.emergencyBack.flag Fld.CLK_STAT.MPLL_LOCK = false := by
  rw [State.emergencyBack_eq]
  refine ⟨State.fld_setFld _ Fld.CLK_STAT.LULL 5 (by decide), ?_⟩
  rw [State.flag_setFld_disjoint (f := Fld.CLK_STAT.LULL) (g := Fld.CLK_STAT.MPLL_LOCK) _ _ rfl (by decide)]
  exact State.flag_setFld_zero _ (by decide)

/-- The other fields of `CLK_STAT`. -/
theorem State.emergencyBack_stat (s : State) {g : Fld} (stat : g.addr = Reg.CLK_STAT) (above : 4 < g.lo) (below : g.hi < 10) :
    s.emergencyBack.fld g = (s.relit 0).fld g := by
  rw [State.emergencyBack_eq, State.fld_setFld_disjoint (f := Fld.CLK_STAT.LULL) _ _ stat (Or.inl (Nat.lt_trans below (by decide))),
    State.fld_setFld_disjoint (f := Fld.CLK_STAT.MPLL_LOCK) _ _ stat (Or.inr above),
    State.fld_of_reg (State.reg_withClk (s.relit 0) _ _)]

theorem State.emergencyBack_refsrc (s : State) : s.emergencyBack.fld Fld.CLK_STAT.REFSRC = 0 :=
  (s.emergencyBack_stat rfl (by decide) (by decide)).trans (s.relit_refsrc (by decide))

theorem State.emergencyBack_flag (s : State) {g : Fld} (stat : g.addr = Reg.CLK_STAT) (above : 4 < g.lo) (below : g.hi < 8) :
    s.emergencyBack.flag g = s.flag g := by
  rw [State.flag, s.emergencyBack_stat stat above (Nat.lt_trans below (by decide))]
  exact s.relit_flag 0 stat below

theorem State.emergencyBack_clk {s : State} (c : s.canon) : s.emergencyBack.clk = { s.clk with
    spread := none, retries := [], ready := false, mpllPend := s.setOf s.liveSet false, mpllLive := s.setOf s.liveSet false,
    cpllLive := s.clk.cpllPend, band := (s.setOf s.liveSet false).band, estep := 5 } :=
  congrArg (fun x : ClkSt => { x with estep := 5 }) (State.relit_clk c 0)

end Sys2Proof.Machine
end

section
/-!
Where the loss of the reference or of a PLL's lock begins an emergency Lull (R387 to R389).
-/

set_option Elab.async false

namespace Sys2Proof.Machine

/-- What the loss tells before the Lull begins. -/
def lossParts : List Part := .clk :: .reg Reg.CLK_STAT :: .reg Reg.CLK_REFLOSS :: logParts

/-- Step E2 as the state `s` before the loss sees it. -/
def LullForced (cause : Nat) (s t : State) : Prop :=
  t.clk.emerg = cause ∧ t.clk.estep = 2 ∧ t.clk.entered = false ∧ t.fld Fld.CLK_STAT.LULL = 4 ∧ Counted Reg.CLK_EMERG s t ∧
    (∀ n ∈ s.popSubs, (t.sub n).held = true) ∧ t.clk.began = s.time.elapsed

theorem State.emergencyBegun_forced {s u : State} (c : s.canon) (told : Keeps lossParts s u) (cause : Nat) :
    LullForced cause s (u.emergencyBegun cause) := by
  have cu := told.canon c
  have time : u.time = s.time := told.same c .time (by decide)
  have counted : Counted Reg.CLK_EMERG u (u.emergencyBegun cause) := State.emergencyBegun_counted cu cause
  rw [LullForced, State.emergencyBegun_clk cu cause]
  refine ⟨rfl, rfl, rfl, u.emergencyBegun_lull cause, ?_, fun n mem => State.emergencyBegun_held cu cause ?_, ?_⟩
  · rw [Counted, (counted : _ = _), told.fld c (by decide)]
  · rw [told.popSubs c (by decide)]
    exact mem
  · exact congrArg TimeSt.elapsed time

/-! ### PLL_LOSS_OF_LOCK (R387) -/

/-- The PLL's lock is gone from `CLK_STAT`, and the loss is recorded. -/
def State.lockGone (s : State) : PllName → BitVec 2 → State
  | .mpll, _ => (s.setFld Fld.CLK_STAT.MPLL_LOCK 0).event 0x9008 s.clk.band.toNat
  | .cpll, attempts => (s.setFld Fld.CLK_STAT.CPLL_LOCK 0).event 0x9009 attempts.toNat

/-- The cause of an emergency Lull that the loss is. -/
def PllName.cause : PllName → Nat
  | .mpll => 2
  | .cpll => 3

theorem execPllLossOfLock_on {s : State} (on : s.top.coreOn = true) (pll : PllName) (attempts : BitVec 2) :
    execPllLossOfLock pll attempts s = .next ((s.lockGone pll attempts).startEmergency (PllName.cause pll)) := by
  unfold execPllLossOfLock
  refine congrArg Host.Outcome.next ((if_pos on).trans ?_)
  cases pll <;> rfl

theorem State.lockGone_keeps (s : State) (pll : PllName) (attempts : BitVec 2) :
    Keeps (.reg Reg.CLK_STAT :: logParts) s (s.lockGone pll attempts) := by
  cases pll <;> exact .after (State.event_keeps _ _ _) (by decide) ((State.setFld_keeps s _ _).mono (by decide))

/-- One event leaves room for the emergency's. -/
theorem State.lockGone_takes {s : State} (c : s.canon) (h : Attentive s) (pll : PllName) (attempts : BitVec 2) :
    (s.lockGone pll attempts).log.Takes 0x9005 0 := by
  cases pll with
  | mpll =>
    have ready := h.keeps (State.setFld_keeps s Fld.CLK_STAT.MPLL_LOCK 0) c (by decide)
    exact ready.takes_after (other := 0x9008) (by decide) (by decide) (by decide) _
  | cpll =>
    have ready := h.keeps (State.setFld_keeps s Fld.CLK_STAT.CPLL_LOCK 0) c (by decide)
    exact ready.takes_after (other := 0x9009) (by decide) (by decide) (by decide) _

theorem State.lockGone_unlocked {s : State} (c : s.canon) (attempts : BitVec 2) :
    (s.lockGone .mpll attempts).flag Fld.CLK_STAT.MPLL_LOCK = false ∧ (s.lockGone .cpll attempts).flag Fld.CLK_STAT.CPLL_LOCK = false := by
  constructor
  · exact ((State.event_keeps _ _ _).flag ((State.setFld_keeps s Fld.CLK_STAT.MPLL_LOCK 0).canon c) (by decide)).trans
      (State.flag_setFld_zero s (by decide))
  · exact ((State.event_keeps _ _ _).flag ((State.setFld_keeps s Fld.CLK_STAT.CPLL_LOCK 0).canon c) (by decide)).trans
      (State.flag_setFld_zero s (by decide))

/-- The reference's loss takes no lock with it but in an emergency Lull of cause 1. -/
theorem State.emergencyBegun_lock {s : State} (c : s.canon) {cause : Nat} (other : cause ≠ 1) {g : Fld} (stat : g.addr = Reg.CLK_STAT)
    (below : g.hi < 12) : (s.emergencyBegun cause).flag g = s.flag g := by
  rw [State.emergencyBegun_flag c cause stat below, State.dropLocks, if_neg other]

section
variable {s : State} (c : s.canon) (state : s.top.state.clocked) (calm : s.clk.emerg = 0) (none : s.clk.planned = false)
include c state calm none

/-- Out of no Lull a PLL's loss begins an emergency Lull. -/
theorem execPllLossOfLock_begins (on : s.top.coreOn = true) (pll : PllName) (attempts : BitVec 2) :
    execPllLossOfLock pll attempts s = .next ((s.lockGone pll attempts).emergencyBegun (PllName.cause pll)) := by
  have gone := s.lockGone_keeps pll attempts
  have clk : (s.lockGone pll attempts).clk = s.clk := gone.same c .clk (by decide)
  have top : (s.lockGone pll attempts).top = s.top := gone.same c .top (by decide)
  rw [execPllLossOfLock_on on, State.startEmergency_begins (gone.canon c) _ (by rw [top]; exact state) (by rw [clk]; exact calm)
    (by rw [clk]; exact none)]

/-- Out of no Lull the reference's loss begins an emergency Lull. -/
theorem execRefclkLost_begins (on : s.top.coreOn = true) : execRefclkLost s = .next (s.refTold.emergencyBegun 1) := by
  have clk := State.refTold_clk c
  rw [execRefclkLost_on on, State.startEmergency_begins (s.refTold_keeps.canon c) _ (by rw [State.refTold_top c]; exact state)
    (by rw [clk]; exact calm) (by rw [clk]; exact none)]

end

/-- The PLL's loss forces a Lull of its cause and is recorded as that. -/
theorem State.lockGone_begun {s : State} (c : s.canon) (pll : PllName) (attempts : BitVec 2) :
    ((s.lockGone pll attempts).emergencyBegun (PllName.cause pll)).clk.spread = none ∧
    (Attentive s → Logged 0x9005 (BitVec.ofNat 32 (PllName.cause pll)) ((s.lockGone pll attempts).emergencyBegun (PllName.cause pll))) ∧
    LullForced (PllName.cause pll) s ((s.lockGone pll attempts).emergencyBegun (PllName.cause pll)) := by
  have gone := s.lockGone_keeps pll attempts
  have cg := gone.canon c
  have top : (s.lockGone pll attempts).top = s.top := gone.same c .top (by decide)
  refine ⟨by rw [State.emergencyBegun_clk cg], fun h => ?_, State.emergencyBegun_forced c (gone.mono (by decide)) _⟩
  exact State.emergencyBegun_logged cg _ (by rw [top]; exact h.1) (State.lockGone_takes c h pll attempts)

/-- The reference's loss takes both locks, and is counted and recorded. -/
theorem State.refTold_begun {s : State} (c : s.canon) :
    (s.refTold.emergencyBegun 1).flag Fld.CLK_STAT.REF_OK = false ∧ Counted Reg.CLK_REFLOSS s (s.refTold.emergencyBegun 1) ∧
    (s.refTold.emergencyBegun 1).clk.spread = none ∧ (s.refTold.emergencyBegun 1).flag Fld.CLK_STAT.MPLL_LOCK = false ∧
    (s.refTold.emergencyBegun 1).flag Fld.CLK_STAT.CPLL_LOCK = false ∧ (s.refTold.emergencyBegun 1).clk.refIn = false ∧
    (Attentive s → Logged 0x9005 1 (s.refTold.emergencyBegun 1)) ∧ LullForced 1 s (s.refTold.emergencyBegun 1) := by
  have ct := s.refTold_keeps.canon c
  have drop : s.refTold.dropLocks 1 = (s.refTold.setFld Fld.CLK_STAT.MPLL_LOCK 0).setFld Fld.CLK_STAT.CPLL_LOCK 0 := if_pos rfl
  have lock : ∀ {g : Fld}, g.addr = Reg.CLK_STAT → g.hi < 12 →
      (s.refTold.emergencyBegun 1).flag g = ((s.refTold.setFld Fld.CLK_STAT.MPLL_LOCK 0).setFld Fld.CLK_STAT.CPLL_LOCK 0).flag g :=
    fun stat below => by rw [State.emergencyBegun_flag ct 1 stat below, drop]
  refine ⟨?_, ?_, by rw [State.emergencyBegun_clk ct], ?_, ?_, ?_, fun h => ?_, State.emergencyBegun_forced c s.refTold_keeps 1⟩
  · rw [lock rfl (by decide), State.flag_setFld_disjoint (f := Fld.CLK_STAT.CPLL_LOCK) (g := Fld.CLK_STAT.REF_OK) _ _ rfl (by decide),
      State.flag_setFld_disjoint (f := Fld.CLK_STAT.MPLL_LOCK) (g := Fld.CLK_STAT.REF_OK) _ _ rfl (by decide), State.refTold_refOk c]
  · exact (State.refTold_counted c).keeps (s.refTold.emergencyBegun_keeps 1) ct (by decide)
  · rw [lock rfl (by decide), State.flag_setFld_disjoint (f := Fld.CLK_STAT.CPLL_LOCK) (g := Fld.CLK_STAT.MPLL_LOCK) _ _ rfl (by decide),
      State.flag_setFld_zero _ (by decide)]
  · rw [lock rfl (by decide), State.flag_setFld_zero _ (by decide)]
  · rw [State.emergencyBegun_clk ct, State.refTold_clk c]
  · exact State.emergencyBegun_logged ct 1 (by rw [State.refTold_top c]; exact h.1) (State.refTold_takes c h)

/-! ### The other losses -/

/-- A planned Lull not yet entered becomes one of cause 1 (R389). -/
theorem execRefclkLost_takes {s : State} (c : s.canon) (state : s.top.state.clocked) (calm : s.clk.emerg = 0)
    (planned : s.clk.planned = true) (fresh : s.clk.entered = false) (on : s.top.coreOn = true) :
    execRefclkLost s = .next ((s.refTold.emergencyTold 1).emergencyEntered 1 true false) := by
  have clk := State.refTold_clk c
  have planned' : s.refTold.clk.planned = true := by rw [clk]; exact planned
  have fresh' : s.refTold.clk.entered = false := by rw [clk]; exact fresh
  rw [execRefclkLost_on on, State.startEmergency_entered (s.refTold_keeps.canon c) _ (by rw [State.refTold_top c]; exact state)
    (by rw [clk]; exact calm), planned', fresh']
  rfl

/-- Outside the states with the clocks in use no Lull begins. -/
theorem State.startEmergency_idle {s : State} (boot : s.top.state = .boot) (cause : Nat) : s.startEmergency cause = s := by
  unfold State.startEmergency
  rw [boot]

theorem execRefclkLost_boot {s : State} (c : s.canon) (on : s.top.coreOn = true) (boot : s.top.state = .boot) :
    execRefclkLost s = .next s.refTold := by
  rw [execRefclkLost_on on, State.startEmergency_idle (by rw [State.refTold_top c]; exact boot)]

theorem execRefclkLost_off {s : State} (off : s.top.coreOn = false) :
    execRefclkLost s = .next { s with clk := { s.clk with refIn := false } } := by
  unfold execRefclkLost
  exact congrArg Host.Outcome.next (if_neg (by simp [off]))

/-- The MPLL's lock lost once more (R387). -/
def State.lullAgain (s : State) : State :=
  ({ s with clk := { s.clk with
    emerg := if s.clk.emerg = 1 ∧ s.clk.estep < 5 then 1 else 2, estep := if s.clk.entered then 3 else 2,
    spread := none, ready := false } } : State).setFld Fld.CLK_STAT.LULL 4

theorem State.startEmergency_again {s : State} (state : s.top.state.clocked) (emergency : s.clk.emerg ≠ 0) :
    s.startEmergency 2 = s.lullAgain := by
  have more : s.moreEmergency 2 = s.lullAgain := by
    have cause : (if (decide (s.clk.emerg = 1) && decide (s.clk.estep < 5)) = true then 1 else 2) =
        (if s.clk.emerg = 1 ∧ s.clk.estep < 5 then 1 else 2) := by simp only [Bool.and_eq_true, decide_eq_true_eq]
    exact congrArg (fun e : Nat => ({ s with clk := { s.clk with
      emerg := e, estep := if s.clk.entered then 3 else 2, spread := none, ready := false } } : State).setFld Fld.CLK_STAT.LULL 4) cause
  have some : (s.clk.emerg != 0) = true := bne_iff_ne.2 emergency
  unfold State.startEmergency
  rcases state with h | h | h | h <;> rw [h] <;> exact (if_pos some).trans more

theorem execPllLossOfLock_again {s : State} (c : s.canon) (state : s.top.state.clocked) (emergency : s.clk.emerg ≠ 0)
    (on : s.top.coreOn = true) (attempts : BitVec 2) : execPllLossOfLock .mpll attempts s = .next (s.lockGone .mpll attempts).lullAgain := by
  have gone := s.lockGone_keeps .mpll attempts
  have clk : (s.lockGone .mpll attempts).clk = s.clk := gone.same c .clk (by decide)
  have top : (s.lockGone .mpll attempts).top = s.top := gone.same c .top (by decide)
  rw [execPllLossOfLock_on on, PllName.cause, State.startEmergency_again (by rw [top]; exact state) (by rw [clk]; exact emergency)]

theorem State.lullAgain_keeps (s : State) : Keeps [.clk, .reg Reg.CLK_STAT] s s.lullAgain :=
  .after (State.setFld_keeps _ _ _) (by decide) ((Keeps.upd_clk s _).mono (by decide))

end Sys2Proof.Machine
end

section
/-!
The MPLL locks in a free band (R376, R387 E3).
-/

set_option Elab.async false

namespace Sys2Proof.Machine

/-! ### The band of a relock (R376) -/

/-- The band that the MPLL finds next. -/
def State.freeBand (s : State) : BitVec 6 := BitVec.ofNat 6 (Config.freeNat s.free)

/-- The band next found calls for a search. -/
def State.bandFar (s : State) : Prop :=
  Config.freeBit s.free = true ∨ 2 < ((s.freeBand.toNat : Int) - s.fld (Fld.CLK_TSET.BAND s.liveSet)).natAbs

/-- A free value has been used up. -/
def State.drawn (s : State) : State := { s with free := s.free + 1 }

theorem State.drawn_keeps (s : State) : Keeps [.free] s s.drawn := Keeps.upd_free s _

/-- The band next found is in use. -/
def State.bandTaken (s : State) : State := { s.drawn with clk := { s.clk with band := s.freeBand } }

theorem State.relockFree_eq (s : State) :
    s.relockFree = if (s.drawn.relock s.freeBand (Config.freeBit s.free)).2 then (s.drawn.relock s.freeBand (Config.freeBit s.free)).1
      else (s.drawn.relock s.freeBand true).1 := rfl

theorem State.relockFree_far {s : State} (h : s.bandFar) : s.relockFree = s.drawn.bandFound s.freeBand := by
  rw [State.relockFree_eq]
  cases search : Config.freeBit s.free with
  | true => rfl
  | false =>
    rw [State.relock_far (s := s.drawn) (h.resolve_left (by rw [search]; decide))]
    rfl

theorem State.relockFree_near {s : State} (h : ¬s.bandFar) : s.relockFree = s.bandTaken := by
  obtain ⟨quick, near⟩ := not_or.1 h
  rw [State.relockFree_eq, Bool.eq_false_iff.2 quick, State.relock_near (s := s.drawn) (Nat.le_of_not_lt near)]
  rfl

/-- What a relock tells of its band: one searched for is stored, counted and recorded. -/
def BandTold (s t : State) : Prop :=
  (s.bandFar → t.fld (Fld.CLK_TSET.BAND s.liveSet) = s.freeBand.toNat ∧ t.flag (Fld.CLK_TSET.BAND_VALID s.liveSet) = true ∧
    Counted Reg.CLK_BANDSRCH s t ∧ (Attentive s → Logged 0x900B (BitVec.ofNat 32 (s.liveSet + s.freeBand.toNat <<< 8)) t)) ∧
  (¬s.bandFar → t.log = s.log ∧ t.fld (Fld.CLK_TSET.BAND s.liveSet) = s.fld (Fld.CLK_TSET.BAND s.liveSet))

/-- Where a later state's log and registers of the bands agree, it tells the same. -/
theorem BandTold.carry {s u t : State} (h : BandTold s u) (log : t.log = u.log) (time : t.time = u.time)
    (tset : ∀ n, t.reg (Reg.CLK_TSET n) = u.reg (Reg.CLK_TSET n)) (count : t.reg Reg.CLK_BANDSRCH = u.reg Reg.CLK_BANDSRCH) : BandTold s t := by
  obtain ⟨far, near⟩ := h
  have band : t.fld (Fld.CLK_TSET.BAND s.liveSet) = u.fld (Fld.CLK_TSET.BAND s.liveSet) := State.fld_of_reg (tset _)
  have valid : t.flag (Fld.CLK_TSET.BAND_VALID s.liveSet) = u.flag (Fld.CLK_TSET.BAND_VALID s.liveSet) := State.flag_of_reg (tset _)
  refine ⟨fun h => ?_, fun h => ?_⟩
  · obtain ⟨stored, ok, counted, logged⟩ := far h
    refine ⟨band.trans stored, valid.trans ok, (State.fld_of_reg count).trans counted, fun ready => ?_⟩
    rw [Logged, log, State.stamp, State.nowNs, time]
    exact logged ready
  · obtain ⟨same, kept⟩ := near h
    exact ⟨log.trans same, band.trans kept⟩

/-- The band is told as from an earlier state that agrees on what the relock reads. -/
theorem BandTold.from {s v t : State} (h : BandTold v t) (free : v.free = s.free) (log : v.log = s.log) (set : v.liveSet = s.liveSet)
    (tset : ∀ n, v.reg (Reg.CLK_TSET n) = s.reg (Reg.CLK_TSET n)) (count : v.reg Reg.CLK_BANDSRCH = s.reg Reg.CLK_BANDSRCH)
    (ready : Attentive s → Attentive v) : BandTold s t := by
  obtain ⟨far, near⟩ := h
  have band : v.freeBand = s.freeBand := by rw [State.freeBand, free, State.freeBand]
  have stored : v.fld (Fld.CLK_TSET.BAND s.liveSet) = s.fld (Fld.CLK_TSET.BAND s.liveSet) := State.fld_of_reg (tset _)
  have same : v.bandFar ↔ s.bandFar := by rw [State.bandFar, free, band, set, stored, State.bandFar]
  rw [same, band, set] at far
  rw [same, set, log, stored] at near
  refine ⟨fun h => ?_, near⟩
  obtain ⟨kept, valid, counted, logged⟩ := far h
  exact ⟨kept, valid, (counted : _ = _).trans (by rw [State.fld_of_reg (f := ⟨Reg.CLK_BANDSRCH, 31, 0⟩) count]), fun a => logged (ready a)⟩

section
variable {s : State} (c : s.canon)
include c

theorem State.relockFree_told : BandTold s s.relockFree := by
  have cd := s.drawn_keeps.canon c
  constructor
  · intro h
    rw [State.relockFree_far h]
    obtain ⟨stored, valid, counted, logged⟩ := State.bandFound_found cd s.freeBand
    exact ⟨stored, valid, counted, fun ready => logged (ready.keeps s.drawn_keeps c (by decide))⟩
  · intro h
    rw [State.relockFree_near h]
    exact ⟨rfl, rfl⟩

/-- `CLK_STAT` stands through a relock. -/
theorem State.relockFree_stat : s.relockFree.reg Reg.CLK_STAT = s.reg Reg.CLK_STAT := by
  have cd := s.drawn_keeps.canon c
  by_cases h : s.bandFar
  · rw [State.relockFree_far h]
    exact (State.bandFound_reg cd s.freeBand (Or.inl (by decide)) (by decide)).trans (s.drawn_keeps.reg c (by decide))
  · rw [State.relockFree_near h]
    exact (State.reg_withClk s.drawn _ _).trans (s.drawn_keeps.reg c (by decide))

theorem State.relockFree_dll (n : Nat) : s.relockFree.reg (Reg.CLK_DLL n) = s.reg (Reg.CLK_DLL n) := by
  have cd := s.drawn_keeps.canon c
  by_cases h : s.bandFar
  · rw [State.relockFree_far h]
    exact (State.bandFound_dll cd s.freeBand n).trans (s.drawn_keeps.dll c (by decide) n)
  · rw [State.relockFree_near h]
    exact (State.reg_withClk s.drawn _ _).trans (s.drawn_keeps.dll c (by decide) n)

/-- Of the clocks the band, in use and pending, changes. -/
theorem State.relockFree_clk : ∃ pend, s.relockFree.clk = { s.clk with band := s.freeBand, mpllPend := pend } := by
  by_cases h : s.bandFar
  · rw [State.relockFree_far h]
    exact ⟨_, State.bandFound_clk (s.drawn_keeps.canon c) s.freeBand⟩
  · rw [State.relockFree_near h]
    exact ⟨_, rfl⟩

end

/-! ### Both PLLs locked (R387 E3) -/

/-- Both PLLs are locked on the source `src`, and CK runs: step E4. -/
def State.relocked (s : State) (src : Nat) : State :=
  let t := (((s.relit src).relockFree.setFld Fld.CLK_STAT.CPLL_LOCK 1).setFld Fld.CLK_STAT.MPLL_LOCK 1).restartCk.setFld
    Fld.CLK_STAT.LULL 4
  { t with clk := { t.clk with estep := 4 } }

/-- The source that a relock selects. -/
def State.relockSource (s : State) : Nat := if s.clk.emerg = 1 then (if s.flag Fld.CLK_STAT.BYP_OK then 1 else 2) else 0

theorem execEmergencyRelock_runs {s : State} (emergency : s.clk.emerg ≠ 0) (step : s.clk.estep = 3) (entered : s.clk.entered = true) :
    execEmergencyRelock s = .next (let t := s.relocked s.relockSource
      if t.top.trigger.isSome then t.releaseForGust else if t.clk.emerg = 1 && t.flag Fld.CLK_STAT.REF_OK then t.emergencyBack else t) := by
  unfold execEmergencyRelock
  have live := s.unlocked_liveSet s.relockSource
  refine congrArg Host.Outcome.next ((if_pos (by simp [emergency, step, entered])).trans ?_)
  rw [State.relocked, State.relit, ← live]
  rfl

/-- Once the band is found, the pins, the clocks and `CLK_STAT` change. -/
theorem State.relocked_after (s : State) (src : Nat) : Keeps [.sch, .clk, .reg Reg.CLK_STAT] (s.relit src).relockFree (s.relocked src) :=
  .after (Keeps.upd_clk _ _) (by decide) (.after (State.setFld_keeps _ _ _) (by decide) (.after (State.restartCk_keeps _) (by decide)
    (.after (State.setFld_keeps _ _ _) (by decide) ((State.setFld_keeps _ _ _).mono (by decide)))))

theorem State.relit_relockFree_keeps (s : State) (src : Nat) :
    Keeps (.free :: .clk :: .block 0x9 :: logParts) s (s.relit src).relockFree :=
  .after (State.relockFree_keeps _) (by decide) ((s.relit_keeps src).mono (by decide))

theorem State.relocked_keeps (s : State) (src : Nat) : Keeps (.free :: .sch :: .clk :: .block 0x9 :: logParts) s (s.relocked src) :=
  .after (s.relocked_after src) (by decide) ((s.relit_relockFree_keeps src).mono (by decide))

section
variable {s : State} (c : s.canon) (src : Nat)
include c

theorem State.relocked_clk : ∃ pend, (s.relocked src).clk = { (s.relit src).clk with band := s.freeBand, mpllPend := pend, estep := 4 } := by
  have lit := s.relit_keeps src
  have free : (s.relit src).free = s.free := lit.same c .free (by decide)
  obtain ⟨pend, clk⟩ := State.relockFree_clk (lit.canon c)
  have shown : Keeps [.sch, .reg Reg.CLK_STAT] (s.relit src).relockFree
      ((((s.relit src).relockFree.setFld Fld.CLK_STAT.CPLL_LOCK 1).setFld Fld.CLK_STAT.MPLL_LOCK 1).restartCk.setFld Fld.CLK_STAT.LULL 4) :=
    .after (State.setFld_keeps _ _ _) (by decide) (.after (State.restartCk_keeps _) (by decide)
      (.after (State.setFld_keeps _ _ _) (by decide) ((State.setFld_keeps _ _ _).mono (by decide))))
  have same := shown.same ((s.relit_relockFree_keeps src).canon c) .clk (by decide)
  have band : (s.relit src).freeBand = s.freeBand := by rw [State.freeBand, free, State.freeBand]
  rw [band] at clk
  exact ⟨pend, congrArg (fun x : ClkSt => { x with estep := 4 }) (Eq.trans same clk)⟩

/-- A field of `CLK_STAT` above the locks tells of the source alone. -/
theorem State.relocked_stat {g : Fld} (stat : g.addr = Reg.CLK_STAT) (above : 5 < g.lo) (below : g.hi < 12) :
    (s.relocked src).fld g = (s.relit src).fld g := by
  have lit := (s.relit_keeps src).canon c
  have locks : Keeps (.free :: .clk :: .block 0x9 :: logParts) s
      (((s.relit src).relockFree.setFld Fld.CLK_STAT.CPLL_LOCK 1).setFld Fld.CLK_STAT.MPLL_LOCK 1) :=
    .after (State.setFld_keeps _ _ _) (by decide) (.after (State.setFld_keeps _ _ _) (by decide) (s.relit_relockFree_keeps src))
  rw [State.relocked, State.fld_of_reg (State.reg_withClk _ _ _),
    State.fld_setFld_disjoint (f := Fld.CLK_STAT.LULL) _ _ stat (Or.inl below),
    (State.restartCk_keeps _).fld (locks.canon c) (by rw [stat]; decide),
    State.fld_setFld_disjoint (f := Fld.CLK_STAT.MPLL_LOCK) _ _ stat (Or.inr (Nat.lt_trans (by decide) above)),
    State.fld_setFld_disjoint (f := Fld.CLK_STAT.CPLL_LOCK) _ _ stat (Or.inr above)]
  exact State.fld_of_reg (by rw [stat]; exact State.relockFree_stat lit)

theorem State.relocked_locks : (s.relocked src).flag Fld.CLK_STAT.CPLL_LOCK = true ∧ (s.relocked src).flag Fld.CLK_STAT.MPLL_LOCK = true := by
  have locks : Keeps (.free :: .clk :: .block 0x9 :: logParts) s
      (((s.relit src).relockFree.setFld Fld.CLK_STAT.CPLL_LOCK 1).setFld Fld.CLK_STAT.MPLL_LOCK 1) :=
    .after (State.setFld_keeps _ _ _) (by decide) (.after (State.setFld_keeps _ _ _) (by decide) (s.relit_relockFree_keeps src))
  have shown : ∀ {g : Fld}, g.addr = Reg.CLK_STAT → g.hi < 12 → (s.relocked src).flag g =
      (((s.relit src).relockFree.setFld Fld.CLK_STAT.CPLL_LOCK 1).setFld Fld.CLK_STAT.MPLL_LOCK 1).flag g := fun stat below => by
    rw [State.relocked, State.flag_of_reg (State.reg_withClk _ _ _),
      State.flag_setFld_disjoint (f := Fld.CLK_STAT.LULL) _ _ stat (Or.inl below),
      (State.restartCk_keeps _).flag (locks.canon c) (by rw [stat]; decide)]
  refine ⟨(shown rfl (by decide)).trans ?_, (shown rfl (by decide)).trans (State.flag_setFld_one _ (by decide) rfl)⟩
  rw [State.flag_setFld_disjoint (f := Fld.CLK_STAT.MPLL_LOCK) (g := Fld.CLK_STAT.CPLL_LOCK) _ _ rfl (by decide)]
  exact State.flag_setFld_one _ (by decide) rfl

theorem State.relocked_dll (n : Nat) : (s.relocked src).reg (Reg.CLK_DLL n) = (s.relit src).reg (Reg.CLK_DLL n) :=
  ((s.relocked_after src).dll ((s.relit_relockFree_keeps src).canon c) (by decide) n).trans
    (State.relockFree_dll ((s.relit_keeps src).canon c) n)

theorem State.relocked_runs {n : Nat} (mem : n ∈ s.popSubs) : ((s.relocked src).sub n).pins.ckBin.isSome = true := by
  have locks : Keeps (.free :: .clk :: .block 0x9 :: logParts) s
      (((s.relit src).relockFree.setFld Fld.CLK_STAT.CPLL_LOCK 1).setFld Fld.CLK_STAT.MPLL_LOCK 1) :=
    .after (State.setFld_keeps _ _ _) (by decide) (.after (State.setFld_keeps _ _ _) (by decide) (s.relit_relockFree_keeps src))
  have later : Keeps [.clk, .reg Reg.CLK_STAT]
      (((s.relit src).relockFree.setFld Fld.CLK_STAT.CPLL_LOCK 1).setFld Fld.CLK_STAT.MPLL_LOCK 1).restartCk (s.relocked src) :=
    .after (Keeps.upd_clk _ _) (by decide) ((State.setFld_keeps _ _ _).mono (by decide))
  rw [later.sub ((State.restartCk_keeps _).canon (locks.canon c)) (by decide)]
  apply State.restartCk_runs (locks.canon c)
  rw [locks.popSubs c (by decide)]
  exact mem

theorem State.relocked_told : BandTold s (s.relocked src) := by
  have lit := s.relit_keeps src
  have cl := lit.canon c
  have cf := (s.relit_relockFree_keeps src).canon c
  have after := s.relocked_after src
  exact ((State.relockFree_told cl).from (lit.same c .free (by decide)) (lit.same c .log (by decide)) (s.relit_liveSet src)
    (State.relit_tset c src) (State.relit_reg c src (Or.inr (by decide)) (by decide)) (fun a => a.keeps lit c (by decide))).carry
    (after.same cf .log (by decide)) (after.same cf .time (by decide)) (after.tset cf (by decide)) (after.reg cf (by decide))

end

end Sys2Proof.Machine
end

section
/-!
What follows a relock: step E4, REFCLK back, or the ranks woken for Gust (R387, R389).
-/

set_option Elab.async false

namespace Sys2Proof.Machine

/-! ### A relock from the state before -/

section
variable {s : State} (c : s.canon)
include c

/-- What the relock decides on. -/
theorem State.relocked_reads (src : Nat) : (s.relocked src).top = s.top ∧ (s.relocked src).clk.emerg = s.clk.emerg ∧
    (s.relocked src).clk.losing = s.clk.losing ∧ (s.relocked src).flag Fld.CLK_STAT.REF_OK = s.flag Fld.CLK_STAT.REF_OK := by
  obtain ⟨pend, clk⟩ := State.relocked_clk c src
  have lit := State.relit_clk c src
  refine ⟨(s.relocked_keeps src).same c .top (by decide), ?_, ?_, ?_⟩
  · rw [clk, lit]
  · rw [clk, lit]
  · rw [State.flag, State.relocked_stat c src rfl (by decide) (by decide)]
    exact s.relit_flag src rfl (by decide)

theorem State.relocked_liveSet (src : Nat) : (s.relocked src).liveSet = s.liveSet :=
  (State.relocked_stat c src rfl (by decide) (by decide)).trans (s.relit_liveSet src)

variable (emergency : s.clk.emerg ≠ 0) (step : s.clk.estep = 3) (entered : s.clk.entered = true)
include emergency step entered

/-- Step E4 stands where REFCLK has not come back. -/
theorem execEmergencyRelock_stays (none : s.top.trigger = none) (stays : s.clk.emerg ≠ 1 ∨ s.flag Fld.CLK_STAT.REF_OK = false) :
    execEmergencyRelock s = .next (s.relocked s.relockSource) := by
  obtain ⟨top, emerg, -, ref⟩ := State.relocked_reads c s.relockSource
  rw [execEmergencyRelock_runs emergency step entered]
  dsimp only
  rw [top, emerg, ref, none, if_neg (by decide), if_neg]
  rcases stays with h | h <;> simp [h]

theorem execEmergencyRelock_back (none : s.top.trigger = none) (cause : s.clk.emerg = 1) (ref : s.flag Fld.CLK_STAT.REF_OK = true) :
    execEmergencyRelock s = .next (s.relocked s.relockSource).emergencyBack := by
  obtain ⟨top, emerg, -, same⟩ := State.relocked_reads c s.relockSource
  rw [execEmergencyRelock_runs emergency step entered]
  dsimp only
  rw [top, emerg, same, none, if_neg (by decide), if_pos (by simp [cause, ref])]

theorem execEmergencyRelock_releases (some : s.top.trigger ≠ none) :
    execEmergencyRelock s = .next (s.relocked s.relockSource).releaseForGust := by
  obtain ⟨top, -⟩ := State.relocked_reads c s.relockSource
  rw [execEmergencyRelock_runs emergency step entered]
  dsimp only
  rw [top, if_pos (Option.isSome_iff_ne_none.2 some)]

end

/-! ### REFCLK has come back meanwhile -/

/-- The registers of the sets, the log and the count of searches stand while the setting goes live on REFCLK. -/
theorem State.emergencyBack_told {s x : State} (c : x.canon) (h : BandTold s x) : BandTold s x.emergencyBack := by
  have lit := x.relit_keeps 0
  have cl := lit.canon c
  have after := x.emergencyBack_after
  refine h.carry ?_ ?_ (fun n => ?_) ?_
  · exact Eq.trans (after.same cl .log (by decide)) (lit.same c .log (by decide))
  · exact Eq.trans (after.same cl .time (by decide)) (lit.same c .time (by decide))
  · exact (after.tset cl (by decide) n).trans (State.relit_tset c 0 n)
  · exact (after.reg cl (by decide)).trans (State.relit_reg c 0 (Or.inr (by decide)) (by decide))

theorem State.emergencyBack_tset {x : State} (c : x.canon) (n : Nat) : x.emergencyBack.reg (Reg.CLK_TSET n) = x.reg (Reg.CLK_TSET n) :=
  (x.emergencyBack_after.tset ((x.relit_keeps 0).canon c) (by decide) n).trans (State.relit_tset c 0 n)

theorem State.emergencyBack_unlocked {x : State} (c : x.canon) {n : Nat} (mem : n ∈ x.popSubs) :
    x.emergencyBack.flag (Fld.CLK_DLL.LOCKED n) = false :=
  (State.flag_of_reg (x.emergencyBack_after.dll ((x.relit_keeps 0).canon c) (by decide) n)).trans (State.relit_unlocked c 0 mem)

/-! ### A trigger lets the ranks wake (R389) -/

theorem State.setLive_train (s : State) (p : Nat) (r : List Byte) : (s.setLive p r).cal.train = s.cal.train := rfl

/-- What trains there does not change with the samplers that ranks share. -/
theorem State.share_train (s : State) (p : Nat) : (s.share p).cal.train = s.cal.train := by
  unfold State.share
  dsimp only
  split
  · rfl
  · split
    · exact State.setLive_train _ _ _
    · exact (State.setLive_train _ _ _).trans (State.setLive_train _ _ _)

/-- Loading the records of a set leaves every training. -/
theorem State.loadRecords_train {s : State} (c : s.canon) (t : Nat) :
    (s.loadRecords t).canon ∧ (s.loadRecords t).cal.train = s.cal.train := by
  have loaded : ∀ (u : State) (p q : Nat) (r : List Byte), u.canon → u.cal.train = s.cal.train →
      ((u.setLive p r).share q).canon ∧ ((u.setLive p r).share q).cal.train = s.cal.train := fun u p q r cu h =>
    ⟨(State.share_keeps _ _).canon ((State.setLive_keeps u p r).canon cu), (State.share_train _ _).trans h⟩
  refine List.foldlRecOn (motive := fun u : State => u.canon ∧ u.cal.train = s.cal.train) _ _ ⟨c, rfl⟩ fun u h p _ => ?_
  obtain ⟨cu, train⟩ := h
  have found := State.shadowRecord_keeps u t p
  have cf := found.canon cu
  have cal : (u.shadowRecord t p).1.cal = u.cal := found.same cu .cal (by decide)
  rw [← cal] at train
  dsimp only
  split
  · split
    · exact loaded _ _ _ _ cf train
    · exact loaded _ _ _ _ cf train
  · exact loaded _ _ _ _ cf train

theorem State.switchSet_training {s : State} (c : s.canon) (n : Nat) : s.switchSet.training n = s.training n := by
  have shown : Keeps [.block 0x5] s (foldS s.popSubs (fun u n => u.setFld (Fld.SCH_STAT.TSET n) s.liveSet) s) :=
    .foldS _ _ (.refl _ s) fun _ _ h => Keeps.viaBlock (b := 5) (State.setFld_keeps _ _ _) (fam_block _ _ _ _ rfl (by decide)) rfl h
  have cal := shown.same c .cal (by decide)
  obtain ⟨-, train⟩ := State.loadRecords_train (shown.canon c) s.liveSet
  have same : s.switchSet.cal.train = s.cal.train := by
    unfold State.switchSet
    dsimp only
    split
    · rfl
    · exact train.trans (congrArg CalSt.train cal)
  rw [State.training, same, State.training]

/-- The ranks of a sub-channel leave self-refresh for Gust where its delay line has not lost lock. -/
def State.gustWake (n : Nat) (s : State) : State :=
  if s.clk.losing.contains n then s else (s.wakeSub n).writeSettings n s.liveSet

theorem State.releaseForGust_eq (s : State) : s.releaseForGust = s.restartCk.switchSet.endLullWith State.gustWake := rfl

theorem State.gustWake_alone (s : State) (n : Nat) : SubsAlone s (s.gustWake n) :=
  .ite (.refl _ s) (.after (State.writeSettings_keeps _ _ _) (by decide) (State.wakeSub_keeps s n))

theorem State.gustWake_undisturbed (s : State) {n m : Nat} (h : n ≠ m) : Undisturbed n s (s.gustWake m) := by
  unfold State.gustWake State.wakeSub
  refine .ite (.refl s) (.via (State.writeSettings_undisturbed _ h _) ?_)
  exact .via (State.onSub_undisturbed _ h _) (.foldS _ _ (fun t _ => t.issue_undisturbed h _ _ _ _) s)

theorem State.gustWoken_awake {s : State} (c : s.canon) {n : Nat} (mem : n ∈ s.freeSubs) (held : n ∉ s.clk.losing) :
    ((s.lullWoken State.gustWake).sub n).awake (s.training n).step := by
  show ((foldS s.freeSubs (fun s n => State.gustWake n s) s).sub n).awake (s.training n).step
  refine foldS_reaches (f := fun s n => State.gustWake n s) (I := SubsAlone s) (Q := fun t => (t.sub n).awake (s.training n).step) mem
    (fun t m k => k.trans (t.gustWake_alone m)) (fun t k => ?_) (fun t m ne k awake => ?_) (.refl _ s)
  · have clk : t.clk = s.clk := k.same c .clk (by decide)
    have cal : t.cal = s.cal := k.same c .cal (by decide)
    have train : t.training n = s.training n := by rw [State.training, cal, State.training]
    rw [State.gustWake, clk, if_neg (by simpa using held), ← train]
    exact t.wakeSub_awake n _
  · obtain ⟨-, sub, -⟩ := t.gustWake_undisturbed ne (k.canon c)
    exact SubCh.awake_of_lasting sub awake

/-- What the release for Gust leaves. -/
theorem State.releaseForGust_leaves {s : State} (c : s.canon) : s.releaseForGust.clk.emerg = 0 ∧
    s.releaseForGust.fld Fld.CLK_STAT.LULL = 0 ∧
    ∀ n ∈ s.popSubs, n ∉ s.clk.losing → s.dllStuck n = false → (s.releaseForGust.sub n).awake (s.training n).step := by
  have runs := State.restartCk_keeps s
  have cr := runs.canon c
  have switched := State.switchSet_keeps s.restartCk
  have cs := switched.canon cr
  have woken : Keeps [.sch, .cal, .reg Reg.CLK_LULLSTAT] s.restartCk.switchSet (s.restartCk.switchSet.lullWoken State.gustWake) := by
    refine State.lullWoken_keeps ?_ (by decide)
    exact (Keeps.foldS _ _ (.refl _ _) fun t n k => k.trans (t.gustWake_alone n) : SubsAlone _ _).mono (by decide)
  have cw := woken.canon cs
  obtain ⟨lull, -, emerg⟩ := State.lullClosed_shown
    ((s.restartCk.switchSet.lullWoken State.gustWake).lullTold s.restartCk.switchSet.stuckSubs) s.restartCk.switchSet.stuckSubs
  rw [State.releaseForGust_eq, State.endLullWith_eq]
  refine ⟨emerg, lull, fun n mem held free => ?_⟩
  have clk : s.restartCk.switchSet.clk = s.clk := Eq.trans (switched.same cr .clk (by decide)) (runs.same c .clk (by decide))
  have train : s.restartCk.switchSet.training n = s.training n := by
    have cal : s.restartCk.cal = s.cal := runs.same c .cal (by decide)
    rw [State.switchSet_training cr, State.training, cal, State.training]
  have pop : s.restartCk.switchSet.popSubs = s.popSubs := (switched.popSubs cr (by decide)).trans (runs.popSubs c (by decide))
  have stuck : s.restartCk.switchSet.dllStuck n = s.dllStuck n :=
    State.flag_of_reg ((switched.dll cr (by decide) n).trans (runs.dll c (by decide) n))
  rw [(State.lullEnd_keeps _ _).sub cw (by decide), ← train]
  refine State.gustWoken_awake cs ?_ (by rw [clk]; exact held)
  rw [State.freeSubs, List.mem_filter, pop]
  have settled : n ∉ s.restartCk.switchSet.stuckSubs := fun h => by
    have := (List.mem_filter.1 h).2
    rw [stuck, free] at this
    exact Bool.false_ne_true this
  exact ⟨mem, by simpa using settled⟩

end Sys2Proof.Machine
end

section
/-!
The references qualify and fail (R371, R387 E4, R388).
-/

set_option Elab.async false

namespace Sys2Proof.Machine

/-! ### REF_QUALIFIED (R371, R405) -/

/-- REFCLK is noted, and shown. -/
def State.refShown (s : State) : State := ({ s with clk := { s.clk with refIn := true } } : State).setFld Fld.CLK_STAT.REF_OK 1

theorem State.refShown_keeps (s : State) : Keeps [.clk, .reg Reg.CLK_STAT] s s.refShown :=
  .after (State.setFld_keeps _ _ _) (by decide) ((Keeps.upd_clk s _).mono (by decide))

theorem State.refShown_refOk (s : State) : s.refShown.flag Fld.CLK_STAT.REF_OK = true := State.flag_setFld_one _ (by decide) rfl

theorem execRefQualified_on {s : State} (on : s.top.coreOn = true) :
    execRefQualified .refclk s = .next (if s.clk.emerg = 1 && s.clk.estep = 4 then s.refShown.emergencyBack else s.refShown) := by
  unfold execRefQualified
  exact congrArg Host.Outcome.next (if_pos on)

/-- REFCLK is noted while the core domain is off. -/
def State.refSeen (s : State) : State := { s with clk := { s.clk with refIn := true } }

theorem execRefQualified_off {s : State} (off : s.top.coreOn = false) : execRefQualified .refclk s = .next s.refSeen.bootOn := by
  unfold execRefQualified
  exact congrArg Host.Outcome.next (if_neg (by simp [off]))

theorem State.refSeen_keeps (s : State) : Keeps [.clk] s s.refSeen := Keeps.upd_clk s _

/-- The core starts: its supply and REFCLK are there. -/
def State.coreBoots (s : State) : State := ({ s with pwr := { s.pwr with bootWait := false } } : State).coreStart

theorem State.coreBoots_keeps (s : State) : Keeps [.pwr, .free, .top, .time, .clk, .reg Reg.CLK_STAT] s s.coreBoots :=
  .after (State.coreStart_keeps _) (by decide) ((Keeps.upd_pwr s _).mono (by decide))

theorem State.bootOn_boots {s : State} (waits : s.pwr.bootWait = true) (ref : s.clk.refIn = true) (first : s.outranked 7 = false)
    (state : s.top.state = .sequence) (supply : s.pwr.supplyOk = true) : s.bootOn = s.coreBoots.goTo .boot 3 := by
  unfold State.bootOn
  rw [if_neg (by simp [waits, ref, first])]
  dsimp only
  rw [state]
  exact if_pos supply

/-- Entry to `BOOT` flags and records the change of state. -/
theorem State.goTo_boot_keeps (s : State) (cause : Byte) : Keeps stateParts s (s.goTo .boot cause) := by
  have entered : s.goTo .boot cause = (({ s with top := { s.top with state := .boot, prev := s.top.state, cause := cause } } : State).setFld
      Fld.GLB_EVENT.STATE 1).event 0x0001 (TopState.boot.code + (s.top.state.code <<< 4) + (cause.toNat <<< 8)) := by
    cases h : s.top.state <;> (unfold State.goTo; rw [h]; rfl)
  rw [entered]
  exact .after (State.event_keeps _ _ _) (by decide) (.after (State.setFld_keeps _ _ _) (by decide) ((Keeps.upd_top s _).mono (by decide)))

theorem State.coreStart_clocks (s : State) : s.coreStart.top = { s.top with coreOn := true } ∧ s.coreStart.pwr = s.pwr ∧
    s.coreStart.flag Fld.CLK_STAT.CPLL_LOCK = true ∧ (s.clk.refIn = true → s.coreStart.flag Fld.CLK_STAT.REF_OK = true) := by
  refine ⟨rfl, rfl, State.flag_setFld_one _ (by decide) rfl, fun ref => ?_⟩
  refine (State.flag_setFld_disjoint (f := Fld.CLK_STAT.CPLL_LOCK) (g := Fld.CLK_STAT.REF_OK) _ _ rfl (by decide)).trans ?_
  show ((State.setFlag _ Fld.CLK_STAT.REF_OK s.clk.refIn).flag Fld.CLK_STAT.REF_OK) = true
  rw [ref]
  exact State.flag_setFld_one _ (by decide) rfl

theorem State.bootOn_none {s : State} (h : s.pwr.bootWait = false) : s.bootOn = s := by
  unfold State.bootOn
  exact if_pos (by simp [h])

/-! ### The emergency Lull on REFCLK again (R387 E5) -/

/-- What E5 shows. -/
theorem State.emergencyBack_five {s : State} (c : s.canon) : s.emergencyBack.fld Fld.CLK_STAT.REFSRC = 0 ∧
    s.emergencyBack.clk.estep = 5 ∧ s.emergencyBack.fld Fld.CLK_STAT.LULL = 5 ∧ s.emergencyBack.flag Fld.CLK_STAT.MPLL_LOCK = false :=
  ⟨s.emergencyBack_refsrc, by rw [State.emergencyBack_clk c], s.emergencyBack_shown.1, s.emergencyBack_shown.2⟩

/-- The loss of a PLL's lock forces a Lull whose cause it is; `g` is its lock in `CLK_STAT`. -/
theorem execPllLossOfLock_forces {s : State} (c : s.canon) (state : s.top.state.clocked) (calm : s.clk.emerg = 0)
    (none : s.clk.planned = false) (on : s.top.coreOn = true) {pll : PllName} {attempts : BitVec 2} {g : Fld} (stat : g.addr = Reg.CLK_STAT)
    (below : g.hi < 12) (gone : (s.lockGone pll attempts).flag g = false) :
    Runs s (.pllLossOfLock pll attempts) emergencyParts fun t => t.flag g = false ∧ t.clk.spread = .none ∧
      (Attentive s → Logged 0x9005 (BitVec.ofNat 32 (PllName.cause pll)) t) ∧ LullForced (PllName.cause pll) s t := by
  have told := s.lockGone_keeps pll attempts
  have other : PllName.cause pll ≠ 1 := by cases pll <;> decide
  exact ⟨_, execPllLossOfLock_begins c state calm none on pll attempts,
    ((Keeps.after ((s.lockGone pll attempts).emergencyBegun_keeps _) (by decide) (told.mono (by decide))) c).2,
    (State.emergencyBegun_lock (told.canon c) other stat below).trans gone, State.lockGone_begun c pll attempts⟩

/-- The oscillator alone runs at its own divider. -/
theorem State.relockSource_osc (s : State) :
    (s.relockSource == 2) = (decide (s.clk.emerg = 1) && !s.flag Fld.CLK_STAT.BYP_OK) := by
  unfold State.relockSource
  by_cases one : s.clk.emerg = 1
  · cases byp : s.flag Fld.CLK_STAT.BYP_OK <;> simp [one]
  · simp [one]

theorem State.relockSource_lt (s : State) : s.relockSource < 4 := by
  unfold State.relockSource
  split
  · split <;> decide
  · decide

/-- The source in use does not change with the notice that BYPCLK is lost. -/
theorem execBypclkLost_eq (s : State) : execBypclkLost s = .next (
    if s.clk.emerg != 0 && decide (s.fld Fld.CLK_STAT.REFSRC = 1) then
      ({ s.setFld Fld.CLK_STAT.BYP_OK 0 with clk := { s.clk with estep := 3, ready := false } } : State).setFld Fld.CLK_STAT.MPLL_LOCK 0
    else s.setFld Fld.CLK_STAT.BYP_OK 0) := by
  have src : (s.setFld Fld.CLK_STAT.BYP_OK 0).fld Fld.CLK_STAT.REFSRC = s.fld Fld.CLK_STAT.REFSRC :=
    State.fld_setFld_disjoint (f := Fld.CLK_STAT.BYP_OK) (g := Fld.CLK_STAT.REFSRC) s 0 rfl (by decide)
  unfold execBypclkLost
  dsimp only
  rw [src]
  rfl

/-- Settles O46: each loss through the start of the emergency Lull, and each step back through what its stages leave. -/
theorem clockLossRuns : Obligations.ClockLossRuns := by
  unfold Obligations.ClockLossRuns
  intro s c
  refine ⟨?_, ?_, ?_, ?_, ?_, ?_, ?_, ?_, ?_, ?_, ?_, ?_, ?_, ?_, ?_, ?_, ?_, ?_, ?_, ?_, ?_, ?_, ?_⟩
  · intro on state calm none
    exact ⟨_, execRefclkLost_begins c state calm none on,
      ((Keeps.after (s.refTold.emergencyBegun_keeps 1) (by decide) (s.refTold_keeps.mono (by decide))) c).2, State.refTold_begun c⟩
  · intro off
    exact ⟨_, execRefclkLost_off off, ((Keeps.upd_clk s _) c).2, rfl⟩
  · intro on boot
    exact ⟨_, execRefclkLost_boot c on boot, (s.refTold_keeps c).2, State.refTold_refOk c, State.refTold_clk c,
      State.refTold_counted c, State.refTold_logged c⟩
  · intro on state calm planned fresh
    have ct := (State.emergencyTold_keeps s.refTold 1).canon (s.refTold_keeps.canon c)
    exact Runs.intro (execRefclkLost_keeps s) c (execRefclkLost_takes c state calm planned fresh on) (by decide)
      (State.emergencyEntered_taken ct 1)
  · intro pll attempts on state calm none same
    subst same
    exact execPllLossOfLock_forces c state calm none on rfl (by decide) (State.lockGone_unlocked c attempts).1
  · intro pll attempts off
    show execPllLossOfLock pll attempts s = _
    unfold execPllLossOfLock
    exact congrArg Host.Outcome.next (if_neg (by simp [off]))
  · intro pll attempts on state calm none same
    subst same
    exact execPllLossOfLock_forces c state calm none on rfl (by decide) (State.lockGone_unlocked c attempts).2
  · intro pll attempts on state emergency same
    subst same
    have gone := s.lockGone_keeps .mpll attempts
    have clk : (s.lockGone .mpll attempts).clk = s.clk := gone.same c .clk (by decide)
    have again := (s.lockGone .mpll attempts).lullAgain_keeps
    refine ⟨_, execPllLossOfLock_again c state emergency on attempts, ((Keeps.after again (by decide) (gone.mono (by decide))) c).2, ?_, ?_,
      fun h => ?_⟩
    · refine (State.flag_setFld_disjoint (f := Fld.CLK_STAT.LULL) (g := Fld.CLK_STAT.MPLL_LOCK) _ _ rfl (by decide)).trans ?_
      exact (State.flag_of_reg (State.reg_withClk _ _ _)).trans (State.lockGone_unlocked c attempts).1
    · exact congrArg (fun x : ClkSt => { x with
        emerg := if x.emerg = 1 ∧ x.estep < 5 then 1 else 2, estep := if x.entered then 3 else 2, spread := none, ready := false }) clk
    · have shown := State.setFld_keeps s Fld.CLK_STAT.MPLL_LOCK 0
      have told : Logged 0x9008 (BitVec.ofNat 32 s.clk.band.toNat) (s.lockGone .mpll attempts) :=
        State.capture_logged (h.keeps shown c (by decide)) (by decide) _ 0
      exact told.keeps again (gone.canon c) (by decide) (by decide)
  · intro emergency step entered none stays
    obtain ⟨pend, clk⟩ := State.relocked_clk c s.relockSource
    obtain ⟨cpll, mpll⟩ := State.relocked_locks c s.relockSource
    obtain ⟨far, near⟩ := State.relocked_told c s.relockSource
    refine ⟨_, execEmergencyRelock_stays c emergency step entered none stays, (s.relocked_keeps _ c).2, ?_, cpll, mpll, ?_, ?_, ?_, far, near,
      fun n mem => ?_, fun n mem => State.relocked_runs c _ mem⟩
    · exact (State.relocked_stat c _ rfl (by decide) (by decide)).trans (s.relit_refsrc s.relockSource_lt)
    · rw [clk]
    · rw [clk, State.relit_clk c, s.relockSource_osc]
    · rw [clk]
      rfl
    · exact (State.flag_of_reg (State.relocked_dll c _ n)).trans (State.relit_unlocked c _ mem)
  · intro h
    show execEmergencyRelock s = _
    unfold execEmergencyRelock
    refine congrArg Host.Outcome.next (if_neg ?_)
    rcases h with h | h | h <;> simp [h]
  · intro cause ref step entered none
    have cx := (s.relocked_keeps s.relockSource).canon c
    obtain ⟨far, near⟩ := State.emergencyBack_told cx (State.relocked_told c s.relockSource)
    obtain ⟨refsrc, five, lull, mpll⟩ := State.emergencyBack_five cx
    have clk := State.emergencyBack_clk cx
    have live := State.relocked_liveSet c s.relockSource
    have sets := State.emergencyBack_tset cx
    refine ⟨_, execEmergencyRelock_back c (by rw [cause]; decide) step entered none cause ref,
      ((Keeps.after (State.emergencyBack_keeps _) (by decide) (s.relocked_keeps s.relockSource)) c).2,
      refsrc, ?_, mpll, five, lull, ?_, ?_, far, near, fun n mem => State.emergencyBack_unlocked cx ?_⟩
    · rw [State.emergencyBack_flag _ rfl (by decide) (by decide)]
      exact (State.relocked_locks c s.relockSource).1
    · rw [clk, State.setOf_of_reg sets, live]
    · rw [clk, live, State.fld_of_reg (f := Fld.CLK_TSET.BAND s.liveSet) (sets _)]
      rfl
    · rw [(s.relocked_keeps s.relockSource).popSubs c (by decide)]
      exact mem
  · intro emergency step entered some
    have relocked := s.relocked_keeps s.relockSource
    have cx := relocked.canon c
    obtain ⟨past, lull, awake⟩ := State.releaseForGust_leaves cx
    obtain ⟨-, -, losing, -⟩ := State.relocked_reads c s.relockSource
    refine Runs.intro (execEmergencyRelock_keeps s) c (execEmergencyRelock_releases c emergency step entered some) (by decide)
      ⟨past, lull, fun n mem held free _ => ?_⟩
    have cal : (s.relocked s.relockSource).cal = s.cal := relocked.same c .cal (by decide)
    have train : (s.relocked s.relockSource).training n = s.training n := by rw [State.training, cal, State.training]
    have line : (s.relocked s.relockSource).dllStuck n = s.dllStuck n :=
      (State.flag_of_reg (State.relocked_dll c _ n)).trans (State.relit_stuck c _ n)
    rw [← train]
    exact awake n (by rw [relocked.popSubs c (by decide)]; exact mem) (by rw [losing]; exact held) (line.trans free)
  · intro input on same stays
    subst same
    have run := execRefQualified_on on
    rw [if_neg (by rcases stays with h | h <;> simp [h])] at run
    exact ⟨_, run, (s.refShown_keeps c).2, s.refShown_refOk, rfl⟩
  · intro input off h
    cases input with
    | refclk =>
      have waits : s.refSeen.pwr.bootWait = false := h.resolve_right (by decide)
      have run := execRefQualified_off off
      rw [State.bootOn_none waits] at run
      exact ⟨_, run, (s.refSeen_keeps c).2, rfl⟩
    | bypclk =>
      refine ⟨s, ?_, ((Keeps.refl _ s) c).2, rfl⟩
      show execRefQualified .bypclk s = _
      unfold execRefQualified
      exact congrArg Host.Outcome.next (if_neg (by simp [off]))
  · intro input off same waits supply state first
    subst same
    have cs := s.refSeen_keeps.canon c
    have boots := s.refSeen.coreBoots_keeps
    have cb := boots.canon cs
    have entry := s.refSeen.coreBoots.goTo_boot_keeps 3
    obtain ⟨top, pwr, cpll, ref⟩ := State.coreStart_clocks ({ s.refSeen with pwr := { s.pwr with bootWait := false } } : State)
    have run := execRefQualified_off off
    rw [State.bootOn_boots (s := s.refSeen) waits rfl ((State.outranked_keeps s.refSeen_keeps c (by decide) 7).trans first) state supply] at run
    refine ⟨_, run, ((Keeps.after entry (by decide) (.after boots (by decide) (s.refSeen_keeps.mono (by decide)))) c).2, ?_, ?_, ?_, ?_⟩
    · refine (State.goTo_top cb .boot 3).trans ?_
      exact (congrArg (fun x : TopSt => ({ x with state := .boot, prev := x.state, cause := 3 } : TopSt)) top).trans
        (congrArg (fun x : TopState => ({ s.top with coreOn := true, state := .boot, prev := x, cause := 3 } : TopSt)) state)
    · exact (entry.flag cb (by decide)).trans (ref rfl)
    · exact (entry.flag cb (by decide)).trans cpll
    · exact Eq.trans (entry.same cb .pwr (by decide)) pwr
  · intro input on same
    subst same
    refine ⟨s.setFld Fld.CLK_STAT.BYP_OK 1, ?_, ((State.setFld_keeps s Fld.CLK_STAT.BYP_OK 1) c).2, State.flag_setFld_one _ (by decide) rfl⟩
    show execRefQualified .bypclk s = _
    unfold execRefQualified
    exact congrArg Host.Outcome.next (if_pos on)
  · intro input on same cause step
    subst same
    have run := execRefQualified_on on
    rw [if_pos (by simp [cause, step])] at run
    have shown := s.refShown_keeps
    have cx := shown.canon c
    have clk := State.emergencyBack_clk cx
    obtain ⟨refsrc, five, lull, mpll⟩ := State.emergencyBack_five cx
    have live : s.refShown.liveSet = s.liveSet :=
      State.fld_setFld_disjoint (f := Fld.CLK_STAT.REF_OK) (g := Fld.CLK_STAT.TSET) _ _ rfl (by decide)
    refine ⟨_, run, ((Keeps.after (State.emergencyBack_keeps _) (by decide) (shown.mono (by decide))) c).2,
      ?_, ?_, refsrc, five, lull, mpll, ?_⟩
    · rw [clk]
      rfl
    · rw [State.emergencyBack_flag _ rfl (by decide) (by decide)]
      exact s.refShown_refOk
    · rw [clk, live]
      exact State.setOf_of_reg (shown.tset c (by decide)) _ _
  · intro h
    refine ⟨s.setFld Fld.CLK_STAT.BYP_OK 0, ?_, ((State.setFld_keeps s Fld.CLK_STAT.BYP_OK 0) c).2, State.flag_setFld_zero _ (by decide)⟩
    show execBypclkLost s = _
    rw [execBypclkLost_eq, if_neg]
    rcases h with h | h <;> simp [h]
  · intro emergency source
    have run : execBypclkLost s = .next (({ s.setFld Fld.CLK_STAT.BYP_OK 0 with
        clk := { s.clk with estep := 3, ready := false } } : State).setFld Fld.CLK_STAT.MPLL_LOCK 0) := by
      rw [execBypclkLost_eq, if_pos (by simp [emergency, source])]
    refine Runs.intro (execBypclkLost_keeps s) c run (by decide) ⟨?_, State.flag_setFld_zero _ (by decide), rfl⟩
    refine (State.flag_setFld_disjoint (f := Fld.CLK_STAT.MPLL_LOCK) (g := Fld.CLK_STAT.BYP_OK) _ _ rfl (by decide)).trans ?_
    exact (State.flag_of_reg (State.reg_withClk _ _ _)).trans (State.flag_setFld_zero s (by decide))
  · intro cause step ref
    have run : execPllLockQualified s = .next s.emergencyBack := by
      unfold execPllLockQualified
      exact congrArg Host.Outcome.next (if_pos (by simp [cause, step, ref]))
    exact Runs.intro (execPllLockQualified_keeps s) c run (by decide) (State.emergencyBack_five c)
  · intro h
    show execPllLockQualified s = _
    unfold execPllLockQualified
    refine congrArg Host.Outcome.next (if_neg ?_)
    rcases h with h | h | h
    · simp [Nat.not_le.2 h]
    · simp [h]
    · simp [h]
  · intro emergency step
    have run : execEmergencySecond s = .next (s.event 0x9005 s.clk.emerg) := by
      unfold execEmergencySecond
      exact congrArg Host.Outcome.next (if_pos (by simp [emergency, step]))
    refine Runs.intro (execEmergencySecond_keeps s) c run (by decide) fun h => ?_
    have taken : s.log.Takes 0x9005 0 := (h.takes 0x9005).mono (Nat.zero_le _)
    exact State.capture_start_taken (s := s) (i := 0) h.1 c taken (by decide) (by decide) (by decide) _ 0
  · intro h
    show execEmergencySecond s = _
    unfold execEmergencySecond
    refine congrArg Host.Outcome.next (if_neg ?_)
    rcases h with h | h <;> simp [h]

end Sys2Proof.Machine
end

section
/-!
Buckets and retirement (R344, R346, R347).
-/

set_option Elab.async false

namespace Sys2Proof.Machine

/-! ### One change to every member of a list -/

/-- A table changed once at each key of a list. -/
theorem Tab.get_foldl_set {α : Type} [DecidableEq α] (d : Nat → α) (f : α → α) {l : List Nat} (once : l.Nodup) (t : Tab α) (j : Nat) :
    Tab.get d (l.foldl (fun t k => Tab.set d t k (f (Tab.get d t k))) t) j = if j ∈ l then f (Tab.get d t j) else Tab.get d t j := by
  induction l generalizing t with
  | nil => rfl
  | cons k r ih =>
    obtain ⟨fresh, once⟩ := List.nodup_cons.1 once
    rw [List.foldl_cons, ih once]
    by_cases e : j = k
    · subst e
      rw [if_neg fresh, if_pos List.mem_cons_self, Tab.get_set_same]
    · rw [Tab.get_set_other _ _ _ e]
      simp [e]

/-- Every rank of a list is changed once. -/
theorem State.rank_foldS_onRank (f : RankSt → RankSt) {l : List Nat} (once : l.Nodup) (s : State) {p : Nat} (mem : p ∈ l) :
    (foldS l (fun s p => s.onRank p f) s).rank p = f (s.rank p) := by
  have stands : ∀ (r : List Nat) (t : State), p ∉ r → (foldS r (fun s p => s.onRank p f) t).rank p = t.rank p := by
    intro r
    induction r with
    | nil => exact fun _ _ => rfl
    | cons q r ih =>
      intro t out
      obtain ⟨ne, out⟩ := not_or.1 (List.mem_cons.not.1 out)
      exact (ih _ out).trans (State.rank_setRank_other t _ ne)
  induction l generalizing s with
  | nil => cases mem
  | cons q r ih =>
    obtain ⟨fresh, once⟩ := List.nodup_cons.1 once
    rcases List.mem_cons.1 mem with e | mem
    · subst e
      exact (stands r _ fresh).trans (State.rank_setRank s p _)
    · have ne : p ≠ q := fun e => fresh (e ▸ mem)
      exact (ih once _ mem).trans (congrArg f (State.rank_setRank_other s _ ne))

theorem RankSt.leak_pkg (r : RankSt) {j : Nat} (mem : j ∈ List.range 10) :
    Tab.get (fun _ => 0) r.leak.pkg j = Tab.get (fun _ => 0) r.pkg j - 1 := by
  unfold RankSt.leak
  rw [Tab.get_foldl_set (fun _ => 0) (fun x : Nat => x - 1) List.nodup_range, if_pos mem]

/-! ### The region table (R147, R347) -/

theorem rtSync_rtPut (w : Word) (role : Nat) {sync : Nat} (handover : Bool) (small : sync < 8) : rtSync (rtPut w role sync handover) = sync := by
  rw [rtSync, rtPut, fieldGet_fieldPut_disjoint _ _ (.inl (by decide)), fieldGet_fieldPut _ (by decide)]
  exact Nat.mod_eq_of_lt small

theorem State.setRt_other (s : State) {q r : Nat} (w : Word) (ne : q ≠ r) : (s.setRt r w).rtEntry q = s.rtEntry q := by
  unfold State.setRt
  dsimp only
  split
  · rfl
  · split <;> exact Tab.get_set_other (fun _ => (0 : Word)) s.map.rt w ne

theorem State.setRt_failed (s : State) (q r : Nat) (w : Word) : (s.setRt r w).rtFailed q = s.rtFailed q := by
  unfold State.setRt
  dsimp only
  split
  · rfl
  · split <;> rfl

theorem State.setRt_trigger (s : State) (r : Nat) (w : Word) : (s.setRt r w).top = s.top := by
  unfold State.setRt
  dsimp only
  split
  · rfl
  · split <;> rfl

/-- An entry that would not change is not written. -/
theorem State.setRt_same (s : State) (r : Nat) : s.setRt r (s.rtEntry r) = s := by
  unfold State.setRt
  exact if_pos (by simp)

/-- The entries of a list of regions change by a rule that changes each at most once. -/
theorem State.rtEntry_foldS {f : Word → Word} (settles : ∀ w, f (f w) = f w) (l : List Nat) {s : State} (trigger : s.top.trigger = none)
    {q : Nat} (good : s.rtFailed q = false) :
    (foldS l (fun s r => s.setRt r (f (s.rtEntry r))) s).rtEntry q = if q ∈ l then f (s.rtEntry q) else s.rtEntry q := by
  induction l generalizing s with
  | nil => rfl
  | cons r l ih =>
    have next := ih (s := s.setRt r (f (s.rtEntry r))) (by rw [State.setRt_trigger]; exact trigger) (by rw [State.setRt_failed]; exact good)
    refine Eq.trans next ?_
    by_cases e : q = r
    · subst e
      rw [State.setRt_entry _ trigger good, settles, if_pos List.mem_cons_self, ite_self]
    · rw [State.setRt_other _ _ e]
      simp [e]

/-- An entry becomes `OFFLINE` and keeps its role. -/
def rtOffline (w : Word) : Word := if rtSync w = 5 then w else rtPut w (rtRole w) 5 (rtHandover w)

/-- An `OFFLINE` entry becomes replica `FILLING`. -/
def rtFilling (w : Word) : Word := if rtSync w = 5 then rtPut w 2 4 false else w

theorem rtSync_rtOffline (w : Word) : rtSync (rtOffline w) = 5 := by
  unfold rtOffline
  split
  · assumption
  · exact rtSync_rtPut w _ _ (by decide)

theorem rtOffline_settles (w : Word) : rtOffline (rtOffline w) = rtOffline w := if_pos (rtSync_rtOffline w)

theorem rtFilling_settles (w : Word) : rtFilling (rtFilling w) = rtFilling w := by
  refine if_neg ?_
  unfold rtFilling
  split
  · rw [rtSync_rtPut w _ _ (by decide)]
    decide
  · assumption

theorem State.allOffline_eq (s : State) : s.allOffline = foldS s.mappedRegions (fun s r => s.setRt r (rtOffline (s.rtEntry r))) s := by
  have same : (fun (s : State) r => if rtSync (s.rtEntry r) == 5 then s else
      s.setRt r (rtPut (s.rtEntry r) (rtRole (s.rtEntry r)) 5 (rtHandover (s.rtEntry r)))) =
      fun s r => s.setRt r (rtOffline (s.rtEntry r)) := by
    funext t r
    by_cases off : rtSync (t.rtEntry r) = 5
    · rw [if_pos (beq_iff_eq.2 off), rtOffline, if_pos off, State.setRt_same]
    · rw [if_neg (by simpa using off), rtOffline, if_neg off]
  exact congrArg (fun f => foldS s.mappedRegions f s) same

/-! ### The record is written (R364) -/

theorem State.writeFault_calm {C : BitVec 16 → Prop} (hC : C 0x8001) (s : State) : Calm C s s.writeFault := by
  unfold State.writeFault
  refine .ite (.refl C s) ?_
  exact .via (State.reserveWrite_calm hC _ _ _) (.of_keeps (Keeps.upd_flt s _) rfl rfl)

/-- Writing the record counts it, and changes nothing else that faults are kept in. -/
theorem State.writeFault_flt {s : State} (c : s.canon) : ∃ n, s.writeFault.flt = { s.flt with seq := n } := by
  unfold State.writeFault
  split
  · exact ⟨_, rfl⟩
  · have counted := Keeps.upd_flt s { s.flt with seq := s.flt.seq + 1 }
    exact ⟨_, (State.reserveWrite_keeps _ _ _).same (counted.canon c) .flt (by decide)⟩

theorem State.writeFault_rank {s : State} (c : s.canon) (p : Nat) : s.writeFault.rank p = s.rank p := by
  obtain ⟨n, flt⟩ := State.writeFault_flt c
  rw [State.rank, flt, State.rank]

/-! ### The end of a retirement (R347) -/

/-- The rank's state once retired, before the record is written. -/
def State.rankRetired (s : State) (p : Nat) (cause : BitVec 3) (spared : Bool) : State :=
  let s := (s.holdCs (p / 2) (p % 2)).onRank p fun r => { r with retired := true, want := false, cause := cause, spared := spared }
  { s with flt := { s.flt with converting := s.flt.converting.filter (· != p) } }

theorem State.setRetired_eq (s : State) (p : Nat) (cause : BitVec 3) (spared : Bool) : s.setRetired p cause spared =
    (s.rankRetired p cause spared).writeFault.event 0x8012
      (((p / 2) <<< 28) + ((p % 2) <<< 4) + (cause.toNat <<< 5) + (bitOf spared <<< 8)) := rfl

theorem State.rankRetired_keeps (s : State) (p : Nat) (cause : BitVec 3) (spared : Bool) :
    Keeps [.sch, .flt] s (s.rankRetired p cause spared) :=
  .after (Keeps.upd_flt _ _) (by decide) (.after (State.onRank_keeps _ _ _) (by decide) ((State.holdCs_keeps s _ _).mono (by decide)))

theorem State.rankRetired_rank (s : State) (p : Nat) (cause : BitVec 3) (spared : Bool) : (s.rankRetired p cause spared).rank p =
    { s.rank p with retired := true, want := false, cause := cause, spared := spared } :=
  State.rank_setRank (s.holdCs (p / 2) (p % 2)) p _

/-- What the faults hold beside the ranks. -/
theorem State.rankRetired_flt (s : State) (p : Nat) (cause : BitVec 3) (spared : Bool) : (s.rankRetired p cause spared).flt.sp = s.flt.sp ∧
    (s.rankRetired p cause spared).flt.ending = s.flt.ending ∧
    (s.rankRetired p cause spared).flt.converting = s.flt.converting.filter (· != p) := ⟨rfl, rfl, rfl⟩

section
variable {s : State} (c : s.canon) (p : Nat) (cause : BitVec 3) (spared : Bool)
include c

/-- What the faults hold after a retirement: the rank's state and the conversions, and the count of records. -/
theorem State.setRetired_flt : ∃ n, (s.setRetired p cause spared).flt = { (s.rankRetired p cause spared).flt with seq := n } := by
  have cr := (s.rankRetired_keeps p cause spared).canon c
  obtain ⟨n, flt⟩ := State.writeFault_flt cr
  refine ⟨n, Eq.trans ?_ flt⟩
  rw [State.setRetired_eq]
  exact (State.event_keeps _ _ _).same ((State.writeFault_keeps _).canon cr) .flt (by decide)

/-- What the faults hold beside the ranks. -/
theorem State.setRetired_kept : (s.setRetired p cause spared).flt.sp = s.flt.sp ∧ (s.setRetired p cause spared).flt.ending = s.flt.ending ∧
    (s.setRetired p cause spared).flt.converting = s.flt.converting.filter (· != p) := by
  obtain ⟨n, flt⟩ := State.setRetired_flt c p cause spared
  rw [flt]
  exact s.rankRetired_flt p cause spared

theorem State.setRetired_rank : (s.setRetired p cause spared).rank p =
    { s.rank p with retired := true, want := false, cause := cause, spared := spared } := by
  obtain ⟨n, flt⟩ := State.setRetired_flt c p cause spared
  rw [← State.rankRetired_rank s p cause spared]
  exact (congrArg (fun x : FaultSt => Tab.get (fun _ => ({} : RankSt)) x.ranks p) flt).trans rfl

end

end Sys2Proof.Machine
end

section
/-!
The copy of a spared rank (R354 to R358).
-/

set_option Elab.async false

namespace Sys2Proof.Machine

/-- A rank is read from the faults alone. -/
theorem State.rank_of_flt {s t : State} (h : t.flt = s.flt) (p : Nat) : t.rank p = s.rank p := by rw [State.rank, h, State.rank]

/-! ### A request stands while others are dispatched (R31) -/

/-- What a pool entry asks for: its kind, its address and its admission number. -/
def PoolEntry.asked (e : PoolEntry) : ReqKind × Nat × Nat := (e.kind, e.addr, e.adm)

theorem State.onEntry_asked (s : State) {f : PoolEntry → PoolEntry} (same : ∀ e, (f e).asked = e.asked) (i j : Nat) :
    ((s.onEntry i f).entry j).map PoolEntry.asked = (s.entry j).map PoolEntry.asked := by
  unfold State.onEntry
  split
  · next e h =>
    by_cases here : j = i
    · subst here
      rw [State.entry_setEntry, h]
      exact congrArg some (same e)
    · rw [State.entry_setEntry_other s _ here]
  · rfl

theorem State.dispatchOne_asked {s t : State} {n : Nat} (h : s.dispatchOne n = some t) (j : Nat) :
    (t.entry j).map PoolEntry.asked = (s.entry j).map PoolEntry.asked := by
  unfold State.dispatchOne at h
  split at h
  · cases h
  · split at h
    · next i _ =>
      cases h
      exact s.onEntry_asked (f := fun e => { e with dispatched := true }) (fun _ => rfl) i j
    · cases h

theorem State.dispatchSome_asked (n k : Nat) (s : State) (j : Nat) :
    ((State.dispatchSome n k s).entry j).map PoolEntry.asked = (s.entry j).map PoolEntry.asked := by
  induction k generalizing s with
  | zero => rfl
  | succ k ih =>
    rw [State.dispatchSome]
    split
    · next t h => exact (ih t).trans (State.dispatchOne_asked h j)
    · rfl

theorem State.toSchedule_asked (s : State) (i j : Nat) : ((s.toSchedule i).entry j).map PoolEntry.asked = (s.entry j).map PoolEntry.asked := by
  unfold State.toSchedule
  split
  · exact State.dispatchSome_asked _ _ _ j
  · rfl

/-! ### SPARE_COPY_INTERVAL (R357) -/

/-- The copy has gone on by one line, whose correction entry stands with its target. -/
def State.copyNoted (s : State) (a m : Nat) (l : Loc) : State :=
  ({ s with flt := { s.flt with copyPos := s.flt.copyPos + 1, unsettled := s.flt.unsettled ++ [s.flt.copyPos] } } : State).onSub m
    fun c => { c with corr := c.corr ++ [{ addr := a, loc := l, spare := some s.flt.copyPos }] }

/-- The next line has been asked for. -/
def State.copyAsked (s : State) (a m : Nat) (l : Loc) (i : Nat) : State :=
  let t := (s.copyNoted a m l).setEntry i (some { kind := .spareCopy, addr := a, adm := s.ord.admNext, bornAt := s.time.elapsed })
  { t with ord := { t.ord with admNext := s.ord.admNext + 1 } }

section
variable {s : State} (a m : Nat) (l : Loc) (i : Nat)

theorem State.copyNoted_keeps (s : State) (a m : Nat) (l : Loc) : Keeps [.sch, .flt] s (s.copyNoted a m l) :=
  .after (State.onSub_keeps _ _ _) (by decide) ((Keeps.upd_flt s _).mono (by decide))

theorem State.copyAsked_keeps (s : State) (a m : Nat) (l : Loc) (i : Nat) : Keeps [.ord, .sch, .flt] s (s.copyAsked a m l i) :=
  .after (Keeps.upd_ord _ _) (by decide) (.after (State.setEntry_keeps _ _ _) (by decide) ((s.copyNoted_keeps a m l).mono (by decide)))

theorem State.copyAsked_corr (s : State) (a m : Nat) (l : Loc) (i : Nat) :
    ((s.copyAsked a m l i).sub m).corr = (s.sub m).corr ++ [{ addr := a, loc := l, spare := some s.flt.copyPos }] :=
  (congrArg SubCh.corr (State.sub_onSub ({ s with flt := { s.flt with
    copyPos := s.flt.copyPos + 1, unsettled := s.flt.unsettled ++ [s.flt.copyPos] } } : State) m
    fun c => { c with corr := c.corr ++ [{ addr := a, loc := l, spare := some s.flt.copyPos }] }) :)

theorem State.copyAsked_asked (s : State) (a m : Nat) (l : Loc) (i : Nat) :
    ((s.copyAsked a m l i).entry i).map PoolEntry.asked = some (.spareCopy, a, s.ord.admNext) :=
  congrArg (Option.map PoolEntry.asked) (State.entry_setEntry (s.copyNoted a m l) i
    (some { kind := .spareCopy, addr := a, adm := s.ord.admNext, bornAt := s.time.elapsed }))

theorem execSpareCopyInterval_asks {a m : Nat} {l : Loc} {i : Nat} (copying : s.flt.sp = 1) (on : s.flt.copyOn = true)
    (trigger : s.top.trigger = none) (left : s.flt.copyPos < s.copyRows * s.copyRow)
    (line : a = s.addrOf (s.flt.spRank / 2) (s.copyLoc s.flt.copyPos)) (free : s.lineHeld a = false) (target : s.redirect a = some (m, l))
    (room : (s.sub m).corr.length < 8) (entry : i = firstFree 8192 s.ord.pool) (fits : i < 8448) :
    execSpareCopyInterval s = .next ((s.copyAsked a m l i).toSchedule i) := by
  subst line entry
  unfold execSpareCopyInterval
  dsimp only
  rw [if_pos (by simp [copying, on, trigger, left]), if_neg (by simp [free]), target]
  exact congrArg Host.Outcome.next (if_pos (by simp [room, fits]))

end

/-- What the request leaves once Schedule has it. -/
theorem State.copyAsked_scheduled {s : State} (c : s.canon) (a m : Nat) (l : Loc) (i : Nat) :
    let t := (s.copyAsked a m l i).toSchedule i
    t.flt = { s.flt with copyPos := s.flt.copyPos + 1, unsettled := s.flt.unsettled ++ [s.flt.copyPos] } ∧
    (t.sub m).corr = (s.sub m).corr ++ [{ addr := a, loc := l, spare := some s.flt.copyPos }] ∧
    (t.entry i).map PoolEntry.asked = some (.spareCopy, a, s.ord.admNext) ∧ t.ord.admNext = s.ord.admNext + 1 := by
  have ca := (s.copyAsked_keeps a m l i).canon c
  obtain ⟨-, sub, -⟩ := State.toSchedule_undisturbed (n := m) (s.copyAsked a m l i) i ca
  refine ⟨(State.toSchedule_keeps _ i).same ca .flt (by decide), ?_, ?_, ?_⟩
  · exact (congrArg SubCh.corr sub :).trans (s.copyAsked_corr a m l i)
  · rw [State.toSchedule_asked, State.copyAsked_asked]
  · exact (congrArg OrdSt.admNext (State.toSchedule_outside (s.copyAsked a m l i) i) :)

/-! ### SPARE_COPY_DONE (R358) -/

/-- The reads of redirected lines go to their targets. -/
def State.spareSwitched (s : State) : State :=
  { s with flt := { s.flt with sp := 2, copyOn := false, unsettled := [], ending := true } }

theorem execSpareCopyDone_switches {s : State} (copying : s.flt.sp = 1) (all : s.copyRows ≤ s.flt.cursor) (trigger : s.top.trigger = none) :
    execSpareCopyDone s = .next s.spareSwitched.endSpare := by
  unfold execSpareCopyDone
  exact congrArg Host.Outcome.next (if_pos (by simp [copying, all, trigger]))

theorem State.endSpare_waits {s : State} (work : s.rankWork s.flt.spRank = true) : s.endSpare = s := by
  unfold State.endSpare
  exact if_neg (by simp [work])

/-- Nothing of the failing rank is left to end. -/
def State.spareOver (s : State) : State := { s with flt := { s.flt with ending := false } }

/-- The rank whose reads were redirected has its store emptied, and its run ends. -/
def State.spareEnded (s : State) (p : Nat) : State := (s.spareOver.emptyRank (p / 2) (p % 2)).dropCal p

theorem State.endSpare_retires {s : State} (ending : s.flt.ending = true) (work : s.rankWork s.flt.spRank = false) :
    s.endSpare = ((s.spareEnded s.flt.spRank).setRetired s.flt.spRank ((s.spareEnded s.flt.spRank).rank s.flt.spRank).cause true).event
      0x8021 s.flt.spRank := by
  unfold State.endSpare
  exact if_pos (by simp [ending, work])

/-- A rank without work in its store is emptied without an answer to anyone. -/
theorem State.emptyRank_idle {s : State} {p : Nat} (work : s.rankWork p = false) : Keeps [.sch] s (s.emptyRank (p / 2) (p % 2)) := by
  have held : ((s.holdCs (p / 2) (p % 2)).sub (p / 2)).store = (s.sub (p / 2)).store :=
    (congrArg SubCh.store (State.sub_onSub s (p / 2) _) :)
  have none : ((s.holdCs (p / 2) (p % 2)).sub (p / 2)).store.filter (fun e => e.loc.rank == p % 2) = [] := by
    rw [held, List.filter_eq_nil_iff]
    exact List.any_eq_false.1 work
  unfold State.emptyRank
  dsimp only
  rw [none]
  exact .after (State.setSub_keeps _ _ _) (by decide) (State.holdCs_keeps s _ _)

/-- One plain event on an attentive log leaves room for seal failures and another event. -/
theorem Attentive.capture_roomy {s : State} (h : Attentive s) {code : BitVec 16} (plain : intervalOf code = .plain)
    (general : mayUseLast code = false) (data count : Word) : (s.capture code data count).log.Roomy := by
  obtain ⟨on, squall, room, rd, -⟩ := h
  obtain ⟨x, e, ⟨g, -⟩, -, eq⟩ := State.capture_plain on plain data count
  have calm : x.log.squall = false := g.squall.trans squall
  have size := g.size rd
  have rx := (g.holds rd).1
  rw [eq, State.place, if_neg (by simp [general]), if_neg (by simp [calm]), if_neg (by omega), State.noteSeen, if_neg (by simp [calm])]
  rcases x.pushAll_cases e with ⟨k, k'⟩ | ⟨-, holds, size', squall', seen'⟩
  · exact ⟨(k.holds rx).1, Or.inl ⟨k.squall.trans calm, by simpa [calm] using k'⟩⟩
  · exact ⟨(holds rx).1, Or.inr (Or.inl ⟨squall', seen', by have := size' rx; omega⟩)⟩

/-- The end of a rank's run leaves room in the log. -/
theorem State.dropCal_roomy {s : State} (c : s.canon) (h : Attentive s) (p : Nat) : (s.dropCal p).log.Roomy := by
  have ended : ∀ u : State, u.canon → u.log.Roomy → ((u.setRun p Option.none).pendToDue (p / 2)).log.Roomy := fun u cu room => by
    have kept : Keeps [.cal] u ((u.setRun p Option.none).pendToDue (p / 2)) :=
      .after (State.pendToDue_keeps _ _) (by decide) (State.setRun_keeps u p Option.none)
    have log : ((u.setRun p Option.none).pendToDue (p / 2)).log = u.log := kept.same cu .log (by decide)
    rw [log]
    exact room
  unfold State.dropCal
  split
  · next r _ =>
    have told := State.endDir_keeps s 8
    have ce := told.canon c
    by_cases restore : r.restore = true
    · rw [if_pos restore]
      exact ended _ ((State.event_keeps _ _ _).canon ce)
        ((h.keeps told c (by decide)).capture_roomy (code := 0x7003) (by decide) (by decide) _ 0)
    · rw [if_neg restore]
      exact ended s c h.roomy
  · exact h.roomy

section
variable {s : State} (c : s.canon)
include c

/-- The log has room after a retirement's record and event. -/
theorem State.setRetired_takes (room : s.log.Roomy) (on : s.top.aonOn = true) (p : Nat) (cause : BitVec 3) (spared : Bool) :
    (s.setRetired p cause spared).log.Takes 0x8021 0 := by
  have retired := s.rankRetired_keeps p cause spared
  have cr := retired.canon c
  have log : (s.rankRetired p cause spared).log = s.log := retired.same c .log (by decide)
  have top : (s.rankRetired p cause spared).top = s.top := retired.same c .top (by decide)
  have written := (State.writeFault_calm (C := (· = 0x8001)) rfl (s.rankRetired p cause spared)).roomy cr (by rw [log]; exact room)
  have top' : (s.rankRetired p cause spared).writeFault.top = (s.rankRetired p cause spared).top :=
    (State.writeFault_keeps _).same cr .top (by decide)
  have taken : (s.rankRetired p cause spared).writeFault.log.Takes 0x8021 (213 + 7) := written.takes (by decide)
  rw [State.setRetired_eq]
  exact (State.capture_takes (s := (s.rankRetired p cause spared).writeFault) (code := 0x8021) (n := 213) (by rw [top', top]; exact on)
    _ 0 taken (by decide) (by decide) (by decide)).mono (Nat.zero_le _)

end

section
variable {s : State} (c : s.canon) {p : Nat} (work : s.rankWork p = false)
include c work

omit c in
theorem State.spareEmptied_keeps : Keeps [.sch, .flt] s (s.spareOver.emptyRank (p / 2) (p % 2)) :=
  have empty : Keeps [.sch] s.spareOver (s.spareOver.emptyRank (p / 2) (p % 2)) := State.emptyRank_idle work
  .after empty (by decide) ((Keeps.upd_flt s _).mono (by decide))

theorem State.spareEnded_flt : (s.spareEnded p).flt = { s.flt with ending := false } := by
  have empty : Keeps [.sch] s.spareOver (s.spareOver.emptyRank (p / 2) (p % 2)) := State.emptyRank_idle work
  exact Eq.trans ((State.dropCal_keeps _ p).same ((State.spareEmptied_keeps work).canon c) .flt (by decide))
    (empty.same ((Keeps.upd_flt s _).canon c) .flt (by decide))

theorem State.spareEnded_log : (s.spareEnded p).canon ∧ (s.spareEnded p).top = s.top ∧ (Attentive s → (s.spareEnded p).log.Roomy) := by
  have emptied := State.spareEmptied_keeps work
  have ce := emptied.canon c
  have dropped := State.dropCal_keeps (s.spareOver.emptyRank (p / 2) (p % 2)) p
  exact ⟨dropped.canon ce, Eq.trans (dropped.same ce .top (by decide)) (emptied.same c .top (by decide)),
    fun h => State.dropCal_roomy ce (h.keeps emptied c (by decide)) p⟩

end

/-- What the end of the copy leaves of the rank spared. -/
theorem State.endSpare_ends {s : State} (c : s.canon) (ending : s.flt.ending = true) (work : s.rankWork s.flt.spRank = false) :
    s.endSpare.flt.sp = s.flt.sp ∧ s.endSpare.flt.ending = false ∧ (s.endSpare.rank s.flt.spRank).retired = true ∧
    (s.endSpare.rank s.flt.spRank).spared = true ∧ (Attentive s → Logged 0x8021 (BitVec.ofNat 32 s.flt.spRank) s.endSpare) := by
  obtain ⟨ce, top, room⟩ := State.spareEnded_log c work
  have flt := State.spareEnded_flt c work
  rw [State.endSpare_retires ending work]
  generalize s.flt.spRank = p at *
  generalize ((s.spareEnded p).rank p).cause = cause
  have retired := State.setRetired_keeps (s.spareEnded p) p cause true
  have cr := retired.canon ce
  have rank := State.setRetired_rank ce p cause true
  have same : (((s.spareEnded p).setRetired p cause true).event 0x8021 p).flt = ((s.spareEnded p).setRetired p cause true).flt :=
    (State.event_keeps _ _ _).same cr .flt (by decide)
  have top' : ((s.spareEnded p).setRetired p cause true).top = (s.spareEnded p).top := retired.same ce .top (by decide)
  obtain ⟨sp, past, -⟩ := State.setRetired_kept ce p cause true
  rw [flt] at sp past
  rw [State.rank_of_flt same p, same, sp, past, rank]
  refine ⟨rfl, rfl, rfl, rfl, fun h => ?_⟩
  exact State.capture_taken (by rw [top', top]; exact h.1) _ 0 cr (State.setRetired_takes ce (room h) (by rw [top]; exact h.1) _ _ _)
    (by decide) (by decide)

end Sys2Proof.Machine
end

section
/-!
Re-admission (R352), and the settling of O35.
-/

set_option Elab.async false

namespace Sys2Proof.Machine

/-! ### READMIT_TRAINING_DONE (R352) -/

/-- A rank given back: trained, its buckets empty. -/
def RankSt.readmitted (r : RankSt) : RankSt :=
  { trained := true, ue := 0, rce := 0, pkg := [], erased := Option.none, retired := false, spared := r.spared }

/-- The rank is in use again, and its refresh owes nothing. -/
def State.rankBack (s : State) (p : Nat) : State :=
  let t := (s.onRank p RankSt.readmitted).onSub (p / 2) fun c => { c with debt := c.debt.filter fun q => q.1 / 64 != p % 2 }
  { t with flt := { t.flt with readmit := Option.none } }

/-- Its training has ended. -/
def State.readmitted (s : State) (p : Nat) : State := (s.rankBack p).endSub (p / 2)

/-- Every `OFFLINE` entry becomes replica `FILLING`. -/
def State.allFilling (s : State) : State := foldS s.mappedRegions (fun s r => s.setRt r (rtFilling (s.rtEntry r))) s

theorem State.rankBack_keeps (s : State) (p : Nat) : Keeps [.sch, .flt] s (s.rankBack p) :=
  .after (Keeps.upd_flt _ _) (by decide) (.after (State.onSub_keeps _ _ _) (by decide) ((State.onRank_keeps s p _).mono (by decide)))

theorem State.rankBack_rank (s : State) (p q : Nat) :
    (s.rankBack p).rank q = if q = p then (s.rank p).readmitted else s.rank q := by
  show (s.setRank p (s.rank p).readmitted).rank q = _
  split
  · next e => rw [e, State.rank_setRank]
  · next ne => exact State.rank_setRank_other s _ ne

theorem State.setRt_filling (s : State) : s.allFilling = foldS s.mappedRegions (fun s r =>
    let w := s.rtEntry r
    if rtSync w == 5 then s.setRt r (rtPut w 2 4 false) else s) s := by
  have same : (fun (s : State) r => s.setRt r (rtFilling (s.rtEntry r))) = fun s r =>
      if rtSync (s.rtEntry r) == 5 then s.setRt r (rtPut (s.rtEntry r) 2 4 false) else s := by
    funext t r
    by_cases off : rtSync (t.rtEntry r) = 5
    · rw [if_pos (beq_iff_eq.2 off), rtFilling, if_pos off]
    · rw [if_neg (by simpa using off), rtFilling, if_neg off, State.setRt_same]
  exact congrArg (fun f => foldS s.mappedRegions f s) same

section
variable {s : State} (c : s.canon) (p : Nat)

theorem State.readmitted_keeps (s : State) (p : Nat) : Keeps (.flt :: State.endSub_parts) s (s.readmitted p) :=
  .after (State.endSub_keeps _ _) (by decide) ((s.rankBack_keeps p).mono (by decide))

theorem State.allFilling_keeps (s : State) : Keeps [.map] s s.allFilling :=
  .foldS _ _ (.refl _ s) fun t r k => k.trans (State.setRt_keeps t r _)

/-- The end of a training leaves none. -/
theorem State.endSub_training (c : s.canon) (n : Nat) : (s.endSub n).training n = {} := by
  have shown := (State.satF_keeps _ (Fld.DPH_TRAINTIME.US n) ((s.time.elapsed - (s.training n).start) / 8000)).canon
    ((State.setFld_keeps s (Fld.DPH_STAT.BUSY n) 0).canon c)
  have freed := (State.worst_keeps _ n).canon ((State.onSub_keeps _ n fun c => { c with held := false }).canon shown)
  have ended := (State.setTraining_keeps _ n {}).canon freed
  unfold State.endSub
  dsimp only
  obtain ⟨-, -, train⟩ := Undisturbed.foldS (n := n) _ _ (fun t k => t.writeCal_undisturbed (2 * n + k)) _ ended
  refine Eq.trans train ?_
  exact Tab.get_set_same (fun _ => ({} : TrainRun)) _ n {}

include c

theorem State.readmitted_rank (q : Nat) : (s.readmitted p).rank q = if q = p then (s.rank p).readmitted else s.rank q := by
  have flt : (s.readmitted p).flt = (s.rankBack p).flt := (State.endSub_keeps _ _).same ((s.rankBack_keeps p).canon c) .flt (by decide)
  rw [State.rank_of_flt flt, State.rankBack_rank]

theorem execReadmitTrainingDone_readmits (due : s.flt.readmit = some p) (trained : (s.training (p / 2)).step = 11)
    (spared : (List.range 32).all (fun q => q == p || !(s.rank q).retired || (s.rank q).spared) = true) :
    execReadmitTrainingDone s = .next ((s.readmitted p).allFilling.writeFault.event 0x8013 (((p / 2) <<< 28) + ((p % 2) <<< 4))) := by
  have none : ((List.range 32).any fun q => ((s.readmitted p).rank q).retired && !((s.readmitted p).rank q).spared) = false := by
    rw [List.any_eq_false]
    intro q mem
    have other := List.all_eq_true.1 spared q mem
    rw [State.readmitted_rank c]
    split
    · exact Bool.false_ne_true
    · next ne =>
      cases retired : (s.rank q).retired <;> cases spare : (s.rank q).spared <;> simp_all
  unfold execReadmitTrainingDone
  rw [due]
  dsimp only
  rw [if_neg (by rw [trained]; decide), if_pos trained]
  refine congrArg (fun x : State => Host.Outcome.next (x.writeFault.event 0x8013 (((p / 2) <<< 28) + ((p % 2) <<< 4)))) ?_
  rw [State.setRt_filling]
  exact if_neg (by rw [Bool.not_eq_true]; exact none)

end

section
variable {s : State} (c : s.canon) (p : Nat)
include c

/-- The rank given back, and no other re-admission under way. -/
theorem State.readmitted_flt : ((s.readmitted p).allFilling.writeFault.rank p = (s.rank p).readmitted) ∧
    (s.readmitted p).allFilling.writeFault.flt.readmit = none ∧
    ((s.readmitted p).allFilling.writeFault.training (p / 2)).step = 0 := by
  have back := (s.rankBack_keeps p).canon c
  have cr := (s.readmitted_keeps p).canon c
  have filled := (s.readmitted p).allFilling_keeps
  have cf := filled.canon cr
  have kept : (s.readmitted p).allFilling.flt = (s.rankBack p).flt :=
    Eq.trans (filled.same cr .flt (by decide)) ((State.endSub_keeps (s.rankBack p) (p / 2)).same back .flt (by decide))
  obtain ⟨n, flt⟩ := State.writeFault_flt cf
  refine ⟨?_, ?_, ?_⟩
  · rw [State.writeFault_rank cf, State.rank_of_flt kept, State.rankBack_rank, if_pos rfl]
  · rw [flt, kept]
    rfl
  · have cal : (s.readmitted p).allFilling.writeFault.cal = (s.readmitted p).cal :=
      Eq.trans ((State.writeFault_keeps _).same cf .cal (by decide)) (filled.same cr .cal (by decide))
    have train := State.endSub_training back (p / 2)
    rw [State.training, cal]
    exact (congrArg TrainRun.step train :)

/-- The region table once re-admission is over. -/
theorem State.readmitted_rtEntry (trigger : s.top.trigger = none) (held : s.map.failed = []) (lost : s.map.lost = []) {r : Nat}
    (mem : r ∈ s.mappedRegions) : (s.readmitted p).allFilling.writeFault.rtEntry r = rtFilling (s.rtEntry r) := by
  have cr := (s.readmitted_keeps p).canon c
  have map : (s.readmitted p).map = s.map := (s.readmitted_keeps p).same c .map (by decide)
  have top : (s.readmitted p).top = s.top := (s.readmitted_keeps p).same c .top (by decide)
  have cf := (s.readmitted p).allFilling_keeps.canon cr
  have written : (s.readmitted p).allFilling.writeFault.map = (s.readmitted p).allFilling.map :=
    (State.writeFault_keeps _).same cf .map (by decide)
  have good : (s.readmitted p).rtFailed r = false := by rw [State.rtFailed, map, held, lost]; rfl
  have mapped : (s.readmitted p).mappedRegions = s.mappedRegions := by rw [State.mappedRegions, map, State.mappedRegions]
  have entry := State.rtEntry_foldS rtFilling_settles (s.readmitted p).mappedRegions (by rw [top]; exact trigger) good
  rw [if_pos (by rw [mapped]; exact mem)] at entry
  rw [State.rtEntry, written]
  refine Eq.trans entry (congrArg rtFilling ?_)
  rw [State.rtEntry, map, State.rtEntry]

/-- Re-admission is recorded. -/
theorem State.readmitted_logged (h : Attentive s) (data : Nat) :
    Logged 0x8013 (BitVec.ofNat 32 data) ((s.readmitted p).allFilling.writeFault.event 0x8013 data) := by
  have calm : Calm (· = 0x8001) s (s.readmitted p).allFilling.writeFault := by
    refine .via (State.writeFault_calm (C := (· = 0x8001)) rfl _) (.via (.apart (State.allFilling_keeps _) rfl) ?_)
    refine .via (State.endSub_calm (C := (· = 0x8001)) rfl (s.rankBack p) (p / 2)) ?_
    exact .via (.of_keeps (Keeps.upd_flt _ _) rfl rfl) (.via (State.onSub_calm _ _ _) (.apart (State.onRank_keeps s p _) rfl))
  have cr := (s.readmitted_keeps p).canon c
  have cf := (s.readmitted p).allFilling_keeps.canon cr
  have top : (s.readmitted p).allFilling.writeFault.top = s.top :=
    Eq.trans ((State.writeFault_keeps _).same cf .top (by decide))
      (Eq.trans ((s.readmitted p).allFilling_keeps.same cr .top (by decide)) ((s.readmitted_keeps p).same c .top (by decide)))
  exact State.capture_roomy (calm.roomy c h.roomy) (by rw [top]; exact h.1) (by decide) (by decide) (by decide)
    ((State.writeFault_keeps _).canon cf) _ 0

/-- A retirement is recorded with its rank and cause. -/
theorem State.setRetired_logged (h : Attentive s) (cause : BitVec 3) : Logged 0x8012
    (BitVec.ofNat 32 (((p / 2) <<< 28) + ((p % 2) <<< 4) + (cause.toNat <<< 5))) (s.setRetired p cause false) := by
  have retired := s.rankRetired_keeps p cause false
  have cr := retired.canon c
  have calm := State.writeFault_calm (C := (· = 0x8001)) rfl (s.rankRetired p cause false)
  have log : (s.rankRetired p cause false).log = s.log := retired.same c .log (by decide)
  have top : (s.rankRetired p cause false).writeFault.top = s.top :=
    Eq.trans ((State.writeFault_keeps _).same cr .top (by decide)) (retired.same c .top (by decide))
  rw [State.setRetired_eq, show bitOf false <<< 8 = 0 from rfl, Nat.add_zero]
  exact State.capture_roomy (calm.roomy cr (by rw [log]; exact h.roomy)) (by rw [top]; exact h.1) (by decide) (by decide) (by decide)
    ((State.writeFault_keeps _).canon cr) _ 0

end

/-! ### RETIRE_CONVERSION_DONE (R347) -/

theorem execRetireConversionDone_retires {s : State} {rank : Fin 32} (mem : rank.val ∈ s.flt.converting) (trigger : s.top.trigger = none) :
    execRetireConversionDone rank s = .next (s.allOffline.setRetired rank.val (s.rank rank.val).next false) := by
  unfold execRetireConversionDone
  exact congrArg Host.Outcome.next (if_pos (by simp [mem, trigger]))

/-- Every mapped region that is not held as failed is `OFFLINE`. -/
theorem State.allOffline_rtEntry {s : State} (trigger : s.top.trigger = none) {r : Nat} (mem : r ∈ s.mappedRegions)
    (good : s.rtFailed r = false) : rtSync (s.allOffline.rtEntry r) = 5 := by
  rw [State.allOffline_eq, State.rtEntry_foldS rtOffline_settles _ trigger good, if_pos mem]
  exact rtSync_rtOffline _

/-- Settles O35: the rules of the ranks, of the region table and of the log, each through what the stages of a command leave. -/
theorem retirementRuns : Obligations.RetirementRuns := by
  unfold Obligations.RetirementRuns
  intro s c
  refine ⟨?_, ?_, ?_, ?_, ?_, ?_, ?_, ?_, ?_, ?_⟩
  · have leaked : ∀ p ∈ List.range 32, (foldS (List.range 32) (fun s p => s.onRank p RankSt.leak) s).rank p = (s.rank p).leak :=
      fun p mem => State.rank_foldS_onRank RankSt.leak List.nodup_range s mem
    refine Runs.intro (execBucketLeak_keeps s) c rfl (by decide) ⟨fun p mem => ?_, fun p mem => ?_⟩
    · rw [leaked p mem]
      exact ⟨rfl, rfl, fun j hj => RankSt.leak_pkg _ hj⟩
    · rw [leaked p mem]
      rfl
  · intro rank mem trigger
    have offline := State.allOffline_keeps s
    have co := offline.canon c
    have flt : s.allOffline.flt = s.flt := offline.same c .flt (by decide)
    have retired := State.setRetired_keeps s.allOffline rank.val (s.rank rank.val).next false
    have map : (s.allOffline.setRetired rank.val (s.rank rank.val).next false).map = s.allOffline.map := retired.same co .map (by decide)
    obtain ⟨-, -, converting⟩ := State.setRetired_kept co rank.val (s.rank rank.val).next false
    refine Runs.intro (execRetireConversionDone_keeps rank s) c (execRetireConversionDone_retires mem trigger) (by decide)
      ⟨?_, ?_, fun r hr good => ?_, fun h => ?_⟩
    · rw [State.setRetired_rank co, State.rank_of_flt flt]
    · rw [converting, flt]
    · rw [State.rtEntry, map]
      exact State.allOffline_rtEntry trigger hr good
    · exact State.setRetired_logged co rank.val (h.keeps offline c (by decide)) _
  · intro rank h
    show execRetireConversionDone rank s = _
    unfold execRetireConversionDone
    refine congrArg Host.Outcome.next (if_neg ?_)
    rcases h with h | h <;> simp [h, Option.isNone_iff_eq_none]
  · intro a m l i copying on trigger left line free target room entry fits
    have run := execSpareCopyInterval_asks copying on trigger left line free target room entry fits
    exact Runs.intro (execSpareCopyInterval_keeps s) c run (by decide) (State.copyAsked_scheduled c a m l i)
  · intro h
    show execSpareCopyInterval s = _
    unfold execSpareCopyInterval
    refine congrArg Host.Outcome.next (if_neg ?_)
    rcases h with h | h | h
    · rw [beq_eq_false_iff_ne.2 h]
      exact Bool.false_ne_true
    · simp [h]
    · simp [h, Option.isNone_iff_eq_none]
  · intro p copying all trigger same work
    subst same
    have run := execSpareCopyDone_switches copying all trigger
    rw [State.endSpare_waits (s := s.spareSwitched) work] at run
    exact ⟨_, run, ((Keeps.upd_flt s _) c).2, rfl⟩
  · intro h
    show execSpareCopyDone s = _
    unfold execSpareCopyDone
    refine congrArg Host.Outcome.next (if_neg ?_)
    rcases h with h | h | h
    · rw [beq_eq_false_iff_ne.2 h]
      exact Bool.false_ne_true
    · simp [Nat.not_le.2 h]
    · simp [h, Option.isNone_iff_eq_none]
  · intro p copying all trigger same work
    subst same
    have switched : Keeps [.flt] s s.spareSwitched := Keeps.upd_flt s _
    obtain ⟨sp, past, retired, spared, logged⟩ := State.endSpare_ends (s := s.spareSwitched) (switched.canon c) rfl work
    exact Runs.intro (execSpareCopyDone_keeps s) c (execSpareCopyDone_switches copying all trigger) (by decide)
      ⟨sp, past, retired, spared, fun h => logged (h.keeps switched c (by decide))⟩
  · intro p due _ trained spared trigger held lost
    have cw := (State.writeFault_keeps _).canon ((s.readmitted p).allFilling_keeps.canon ((s.readmitted_keeps p).canon c))
    have told := State.event_keeps (s.readmitted p).allFilling.writeFault 0x8013 (((p / 2) <<< 28) + ((p % 2) <<< 4))
    have flt := told.same cw .flt (by decide)
    have map := told.same cw .map (by decide)
    have cal := told.same cw .cal (by decide)
    obtain ⟨rank, readmit, train⟩ := State.readmitted_flt c p
    have entry : ∀ r ∈ s.mappedRegions, ((s.readmitted p).allFilling.writeFault.event 0x8013
        (((p / 2) <<< 28) + ((p % 2) <<< 4))).rtEntry r = rtFilling (s.rtEntry r) := fun r mem =>
      Eq.trans (congrArg (fun x : MapSt => Tab.get (fun _ => (0 : Word)) x.rt r) map) (State.readmitted_rtEntry c p trigger held lost mem)
    refine Runs.intro (execReadmitTrainingDone_keeps s) c (execReadmitTrainingDone_readmits c p due trained spared) (by decide)
      ⟨?_, ?_, ?_, fun r mem off => ?_, fun r mem on => ?_, fun h => State.readmitted_logged c p h _⟩
    · exact (State.rank_of_flt flt p).trans rank
    · exact Eq.trans (congrArg FaultSt.readmit flt) readmit
    · exact Eq.trans (congrArg (fun x : CalSt => (Tab.get (fun _ => ({} : TrainRun)) x.train (p / 2)).step) cal) train
    · rw [entry r mem, rtFilling, if_pos off]
    · rw [entry r mem, rtFilling, if_neg on]
  · intro none
    show execReadmitTrainingDone s = _
    unfold execReadmitTrainingDone
    rw [none]

end Sys2Proof.Machine
end
